-- ==== Sys2Proof/Word.lean ====
section
/-! DEFINITION. The word types of the TG6400 block and their plainest arithmetic.
A register is a `Word` (R4: every register is 32 bits wide); a memory cell is a `Byte`. -/

namespace Sys2Proof

/-- One byte. -/
abbrev Byte := BitVec 8

/-- One register: 32 bits, little-endian (R4). -/
abbrev Word := BitVec 32

/-- A 64-bit quantity: a register pair (R6), a pod time, a step number. -/
abbrev Word64 := BitVec 64

end Sys2Proof
end

