-- ==== Sys2Proof/Syntax.lean ====
section
/-! DEFINITION. The commands of the TG6400 block: one constructor of `Instr` for each row of the spec's table of operations and
events, with the operands that come from outside the module (addresses, values, frames received, measured quantities,
data from the host). -/

namespace Sys2Proof

/-- A requester of registers (R6, R7, R380): a Kersey core or the host. -/
inductive Requester where
  | kersey (core : Fin 8)
  | host
deriving DecidableEq, Repr

/-- The requester byte of a log entry (R381): 0 to 7 a Kersey core, 8 the host. -/
def Requester.code : Requester → Nat
  | .kersey c => c.val
  | .host => 8

/-- A Damask die. -/
abbrev Die := Fin 2
/-- A Kaolin die. -/
abbrev Kaolin := Fin 16
/-- An Eczil link. -/
abbrev LinkId := Fin 18

/-- The decision on an attempt (R28), with its code in tokens and replies (R287, R288). -/
inductive Decision where
  | commit | skip | abort
deriving DecidableEq, Repr

def Decision.code : Decision → Nat
  | .commit => 1 | .skip => 2 | .abort => 3

/-- The content of a COMMIT frame (R287). -/
structure Token where
  step : Nat := 0
  epoch : Nat := 0
  attempt : Nat := 0
  abort : Bool := false
  skip : Bool := false
  hold : Bool := false
  second : Bool := false
  decision : Option Decision := none
  firstVoter : Nat := 0xFF
  gid : Nat := 0
  reason : Nat := 0
  size : Nat := 1
deriving DecidableEq, Repr

/-- The content of a CONTROL frame of the step-control operations (R288). -/
structure CtrlMsg where
  step : Nat := 0
  attempt : Nat := 0
  epoch : Nat := 0
  reason : Nat := 0
  /-- sender position of a request; ring position of the first ABORT voter of a reply -/
  pos : Nat := 0xFF
  decision : Option Decision := none
  /-- the module that sent the frame: a reply goes to it by routing -/
  src : Nat := 0
deriving DecidableEq, Repr

/-- The access answered under R298. -/
inductive BadAccess where
  | bar0 | doorbell | sqWindow
deriving DecidableEq, Repr

/-- What link training finds at the far end (R280, R284). -/
inductive TrainResult where
  | partner (podId modul link : Nat)
  | failed
deriving DecidableEq, Repr

/-- The content of a TRIGGER frame (R292). -/
structure TrigFrame where
  t : Nat := 0
  origin : Nat := 0
  num : Nat := 0
  cls : Nat := 0
deriving DecidableEq, Repr

/-- The relay header of R293. -/
structure RelayHdr where
  op : Nat := 0
  status : Nat := 0
  tag : Nat := 0
  len : Nat := 4
  addr : Nat := 0
deriving DecidableEq, Repr


/-- A block record of a reduction message (R215): scale byte, mark, non-finite entries (position, kind: 1 NaN, 2 +inf, 3 -inf) in
ascending position order, and the integers by position (an unlisted position holds 0). -/
structure BlockRec where
  scale : Nat := 127
  marked : Bool := false
  list : List (Nat × Nat) := []
  v : List (Nat × Int) := []
deriving DecidableEq, Repr

/-- A reduction message (R214). -/
structure RingMsg where
  seq : Nat := 0
  epoch : Nat := 0
  step : Nat := 1
  attempt : Nat := 0
  fmt : Nat := 0xE
  /-- 1 reduce, 2 gather -/
  phase : Nat := 1
  channel : Nat := 0
  sender : Nat := 0
  n : Nat := 2
  chunk : Nat := 0
  contrib : Nat := 1
  tensor : Nat := 0
  gid : Nat := 0
  crc : Nat := 0
  recs : List BlockRec := []
deriving DecidableEq, Repr

/-- The fields of a Twill instruction word other than its opcode (the spec's table "instruction word"). -/
structure TwillWord where
  /-- destination, source 1 and source 2 register fields -/
  d : Fin 32 := 0
  s1 : Fin 32 := 0
  s2 : Fin 32 := 0
  /-- mask register field -/
  m : Fin 8 := 0
  /-- bit 37: inactive elements become zero -/
  zero : Bool := false
  /-- element type: 0 FP32, 1 BF16, 2 INT32, 3 INT16 -/
  ty : Fin 4 := 0
  /-- rounding and flag control, or compare condition -/
  ctl : Fin 8 := 0
  imm : BitVec 32 := 0
deriving DecidableEq, Repr

/-- An array record (R119). -/
structure ArrRec where
  pos : Nat := 0xFFFF
  version : Nat := 0
  step : Nat := 0
  hash : List Byte := []
  /-- FP16 -/
  epsV : Nat := 0
  /-- FP16, degrees -/
  tm : Nat := 0
  /-- FP32 -/
  gref : Word := 0x3F800000
  dref : Word := 0
  tc : Word := 0
  powered : Nat := 0
  maxW : Nat := 0
  metaW : Nat := 0
  marginal : Nat := 0
  retired : Bool := false
deriving DecidableEq, Repr

/-- A calibration read (R106): 4 patterns of 8 converter codes and the junction temperature (FP32). -/
structure CalRead where
  odd : Bool := false
  codes : List Nat := []
  t : Word := 0
deriving DecidableEq, Repr

/-- What the verify characterisation of a programmed array measures (R105, R109 and the text before it): the column counts of the 256
calibration vectors that differ from those of ideal cells, in units of 1/256 level by (4 * vector + plane) * 1024 + physical column; the
junction temperature in FP16; and the reference gain and differential offset of its calibration reads. -/
structure VerifyFit where
  y : List (Nat × Nat) := []
  tm : Nat := 0
  gref : Word := 0x3F800000
  dref : Word := 0
deriving DecidableEq, Repr

/-- What the sweep reads from an array that held its image without power (R119, R130), in units of 1/32 level: the cells of the metadata
rows and of the data rows by row * 1024 + physical column, 0 where not listed, and the data rows as a second reading finds them. -/
structure SweepRead where
  metaRows : List (Nat × Nat) := []
  cells : List (Nat × Nat) := []
  again : List (Nat × Nat) := []
deriving DecidableEq, Repr

/-- A verify read of one row (R116): cells by physical column whose reading differs from the target, with the difference in units of 1/32
level. -/
abbrev VerifyRead := List (Nat × Int)

/-- The verify reads of one row (R116), the first before any pulse. -/
abbrev RowReads := List VerifyRead

/-- The pod configuration of the image (R284). -/
structure PodCfg where
  id : Nat := 0
  size : Nat := 0
  me : Nat := 0
  head : Nat := 0
  master : Nat := 0
deriving DecidableEq, Repr

/-- What the image says in sections and tables for which the spec gives no byte layout: the pod configuration, the replica group and its
ring (identifier, size, position, module IDs by ring position, links toward successor and predecessor by channel), the stash table
(layer, die, bytes per token of a full record and of a checkpoint) with the tokens per module-step, the HBM areas of the image (shadow
codes, code targets, measured shadow, diagnostic readback, layer statistics), the matrices for which it carries codes (Kaolin die,
matrix index). -/
structure ImgPlain where
  pod : PodCfg := {}
  gid : Nat := 0
  n : Nat := 1
  pos : Nat := 0
  order : List Nat := [0]
  succ : List Nat := []
  pred : List Nat := []
  stash : List (Nat × Nat × Nat × Nat) := []
  stashTokens : Nat := 0
  shadow : Nat := 0
  target : Nat := 0
  measured : Nat := 0
  diag : Nat := 0
  statBase : Nat := 0
  codes : List (Nat × Nat) := []
deriving DecidableEq, Repr

/-- The turn of a gradient converter: its cluster, and the cores of the cluster (0 to 15) whose next slices have become ready since its last
turn, one list for each cycle, in order (R178). -/
structure ConvTurn where
  cl : Fin 8 := 0
  ready : List (List Nat) := []
deriving DecidableEq, Repr

/-- Where a Silt command comes from (R270): MEM_SILT_CMD with its handle, or the entry of a control queue that starts next. -/
inductive SiltSrc where
  | reg (rq : Requester) (handle : Nat)
  | queue (q : Fin 64)
deriving DecidableEq, Repr

/-- What IMAGE_STAGE finds in the image memory beside the image (R332, R333): reads in 8D-8D-8D mode, the capacity in bytes, and the two
helper areas. -/
structure FlashSeen where
  fast : Bool
  cap : Nat
  helperA : List Byte
  helperB : List Byte
deriving DecidableEq, Repr

/-- A failure that start-up meets after the image has been verified (R330): an HBM stack that fails its training, a die that does not answer, a
part of the image (by its table index) that cannot be loaded. -/
inductive StartFail where
  | stack (u : Nat)
  | die (d : Nat)
  | part (i : Nat)
deriving DecidableEq, Repr

/-- The commands of the block: one constructor for each row of the spec's table of operations and events. -/
inductive Instr where
  /-- REGISTER_WRITE (R9). -/
  | registerWrite (rq : Requester) (off : Nat) (v : Word)
  /-- PAIR_LO_READ (R7). -/
  | pairLoRead (rq : Requester) (off : Nat)
  /-- UNASSIGNED_ACCESS (R399). -/
  | unassignedAccess (rq : Requester) (off : Nat) (wr : Option Word)
  /-- BAR0_BAD_ACCESS (R298). -/
  | bar0BadAccess (kind : BadAccess) (off len : Nat) (wr : Option (List Byte))
  /-- TRAINING_START (R420). -/
  | trainingStart
  /-- NEW_STEP_BOUNDARY (R14). -/
  | newStepBoundary
  /-- REPEAT_BOUNDARY (R245). -/
  | repeatBoundary
  /-- MEMBER_READY (R27). -/
  | memberReady
  /-- FIRST_PASS_TOKEN (R28). -/
  | firstPassToken (t : Token)
  /-- SECOND_PASS_TOKEN (R30). -/
  | secondPassToken (t : Token)
  /-- GROUP_HOLD_RELEASE (R40). -/
  | groupHoldRelease
  /-- ABORT_REQUEST (R29). -/
  | abortRequest (c : CtrlMsg)
  /-- ABORT_REQUEST_TIMEOUT (R289). -/
  | abortRequestTimeout
  /-- COMMIT_TIMEOUT (R32). -/
  | commitTimeout
  /-- SECOND_PASS_TIMEOUT (R33). -/
  | secondPassTimeout
  /-- DECISION_QUERY (R289). -/
  | decisionQuery (c : CtrlMsg)
  /-- DECISION_REPLY (R32). -/
  | decisionReply (c : CtrlMsg)
  /-- DECISION_DIRECT (R33). -/
  | decisionDirect (c : CtrlMsg)
  /-- COMMITTED_WINDOW_READ (R23). -/
  | committedWindowRead (off len : Nat)
  /-- COMMITTED_WINDOW_WRITE (R24). -/
  | committedWindowWrite (off : Nat) (bytes : List Byte)
  /-- STEP_RECORD_RING_WRITE (R45). -/
  | stepRecordRingWrite (off : Nat) (bytes : List Byte)
  /-- STEP_DECIDE_NONE (R41). -/
  | stepDecideNone (rq : Requester)
  /-- STEP_DECIDE_REPEAT (R41). -/
  | stepDecideRepeat (rq : Requester)
  /-- STEP_DECIDE_SKIP (R41). -/
  | stepDecideSkip (rq : Requester)
  /-- STEP_DECIDE_STOP (R41). -/
  | stepDecideStop (rq : Requester)
  /-- TOKEN_BOUNDARY (R19). -/
  | tokenBoundary (h : Nat)
  /-- GROUP_REQUEST (R97). -/
  | groupRequest (k : Kaolin)
  /-- PASS_ADMIT (R97). -/
  | passAdmit (k : Kaolin) (temp : Word)
  /-- PASS_COMPLETE (R91). -/
  | passComplete (k : Kaolin) (pos : Nat) (y : List (Nat × Nat))
  /-- RANGE_TRACKER_EVAL (R94). -/
  | rangeTrackerEval (k : Kaolin) (idx : Nat)
  /-- GOV_STATUS_READ (R96). -/
  | govStatusRead (rq : Requester) (k : Kaolin)
  /-- CLIPG_CLR (R87). -/
  | clipgClr (k : Kaolin) (v : Word)
  /-- CLIPG_DATA_READ (R87). -/
  | clipgDataRead (rq : Requester) (k : Kaolin)
  /-- RANGE_DATA_WRITE (R95). -/
  | rangeDataWrite (rq : Requester) (k : Kaolin) (v : Word)
  /-- CAL_READ_START (R107). -/
  | calReadStart (k : Kaolin)
  /-- CAL_READ_COMPLETE (R106). -/
  | calReadComplete (k : Kaolin) (a : Nat) (codes : List Nat) (t : Word)
  /-- FORCED_READ (R108). -/
  | forcedRead (k : Kaolin) (a : Nat)
  /-- CAL_STARVED (R108). -/
  | calStarved (k : Kaolin) (a : Nat)
  /-- ARRAY_FIT (R109). -/
  | arrayFit (k : Kaolin) (a : Nat)
  /-- TRIM_PUBLICATION (R111). -/
  | trimPublication (k : Kaolin)
  /-- PUBLISH (R112). -/
  | publish (rq : Requester) (k : Kaolin) (pos : Nat)
  /-- REFRESH (R113). -/
  | refresh (rq : Requester) (k : Kaolin) (pos : Nat)
  /-- LOAD (R132). -/
  | load (rq : Requester) (k : Kaolin) (pos : Nat)
  /-- READBACK (R129). -/
  | readback (rq : Requester) (k : Kaolin) (pos : Nat)
  /-- READBACK_SEGMENT (R127). -/
  | readbackSegment (k : Kaolin) (pos : Nat) (lv : List (Nat × Nat))
  /-- REFRESH_AGE_EXPIRY (R113). -/
  | refreshAgeExpiry (k : Kaolin) (pos : Nat)
  /-- PROG_JOB_START (R115). -/
  | progJobStart (k : Kaolin)
  /-- PROG_ROW (R116): the verify reads before any pulse, after the first cycle, after the second, and after the later ones. -/
  | progRow (k : Kaolin) (t : Fin 96) (v0 v1 v2 : VerifyRead) (vs : RowReads)
  /-- PROG_JOB_COMPLETE (R118). -/
  | progJobComplete (k : Kaolin) (t : Fin 96) (f : VerifyFit) (metaReads : List RowReads)
  /-- SWEEP_ARRAY (R130). -/
  | sweepArray (k : Kaolin) (a : Fin 1632) (seen : Option SweepRead) (reads : List CalRead)
  /-- NOP (R143). -/
  | nop (d : Die) (u : Fin 32) (w : TwillWord)
  /-- VSETVL (R143). -/
  | vsetvl (d : Die) (u : Fin 32) (w : TwillWord)
  /-- VSETSR (R147). -/
  | vsetsr (d : Die) (u : Fin 32) (w : TwillWord)
  /-- VSETSRI (R143). -/
  | vsetsri (d : Die) (u : Fin 32) (w : TwillWord)
  /-- VIOTA (R143). -/
  | viota (d : Die) (u : Fin 32) (w : TwillWord)
  /-- VLD (R150). -/
  | vld (d : Die) (u : Fin 32) (w : TwillWord)
  /-- VST (R150). -/
  | vst (d : Die) (u : Fin 32) (w : TwillWord)
  /-- VBAR (R151). -/
  | vbar (d : Die) (u : Fin 32) (w : TwillWord)
  /-- BARRIER_RELEASE (R151). -/
  | barrierRelease (d : Die) (slot : Fin 4096) (n : Fin 256)
  /-- BARRIER_TIMEOUT (R151). -/
  | barrierTimeout (d : Die) (u : Fin 32)
  /-- FADD_VV (R143). -/
  | faddVv (d : Die) (u : Fin 32) (w : TwillWord)
  /-- FADD_VI (R143). -/
  | faddVi (d : Die) (u : Fin 32) (w : TwillWord)
  /-- FSUB_VV (R143). -/
  | fsubVv (d : Die) (u : Fin 32) (w : TwillWord)
  /-- FSUB_VI (R143). -/
  | fsubVi (d : Die) (u : Fin 32) (w : TwillWord)
  /-- FMUL_VV (R143). -/
  | fmulVv (d : Die) (u : Fin 32) (w : TwillWord)
  /-- FMUL_VI (R143). -/
  | fmulVi (d : Die) (u : Fin 32) (w : TwillWord)
  /-- FFMA_VVV (R143). -/
  | ffmaVvv (d : Die) (u : Fin 32) (w : TwillWord)
  /-- FFMA_VVI (R143). -/
  | ffmaVvi (d : Die) (u : Fin 32) (w : TwillWord)
  /-- FFMA_VIV (R143). -/
  | ffmaViv (d : Die) (u : Fin 32) (w : TwillWord)
  /-- FMAX (R143). -/
  | fmax (d : Die) (u : Fin 32) (w : TwillWord)
  /-- FMIN (R143). -/
  | fmin (d : Die) (u : Fin 32) (w : TwillWord)
  /-- FABS (R143). -/
  | fabs (d : Die) (u : Fin 32) (w : TwillWord)
  /-- FNEG (R143). -/
  | fneg (d : Die) (u : Fin 32) (w : TwillWord)
  /-- IADD_VV (R143). -/
  | iaddVv (d : Die) (u : Fin 32) (w : TwillWord)
  /-- IADD_VI (R143). -/
  | iaddVi (d : Die) (u : Fin 32) (w : TwillWord)
  /-- ISUB (R143). -/
  | isub (d : Die) (u : Fin 32) (w : TwillWord)
  /-- IMUL (R143). -/
  | imul (d : Die) (u : Fin 32) (w : TwillWord)
  /-- IMAX (R143). -/
  | imax (d : Die) (u : Fin 32) (w : TwillWord)
  /-- IMIN (R143). -/
  | imin (d : Die) (u : Fin 32) (w : TwillWord)
  /-- AND (R143). -/
  | vand (d : Die) (u : Fin 32) (w : TwillWord)
  /-- OR (R143). -/
  | vor (d : Die) (u : Fin 32) (w : TwillWord)
  /-- XOR (R143). -/
  | vxor (d : Die) (u : Fin 32) (w : TwillWord)
  /-- SHL (R143). -/
  | shl (d : Die) (u : Fin 32) (w : TwillWord)
  /-- SHRA (R143). -/
  | shra (d : Die) (u : Fin 32) (w : TwillWord)
  /-- SHRL (R143). -/
  | shrl (d : Die) (u : Fin 32) (w : TwillWord)
  /-- FCMP_VV (R144). -/
  | fcmpVv (d : Die) (u : Fin 32) (w : TwillWord)
  /-- FCMP_VI (R144). -/
  | fcmpVi (d : Die) (u : Fin 32) (w : TwillWord)
  /-- ICMP_VV (R144). -/
  | icmpVv (d : Die) (u : Fin 32) (w : TwillWord)
  /-- ICMP_VI (R144). -/
  | icmpVi (d : Die) (u : Fin 32) (w : TwillWord)
  /-- MAND (R143). -/
  | mand (d : Die) (u : Fin 32) (w : TwillWord)
  /-- MOR (R143). -/
  | mor (d : Die) (u : Fin 32) (w : TwillWord)
  /-- MXOR (R143). -/
  | mxor (d : Die) (u : Fin 32) (w : TwillWord)
  /-- MANDN (R143). -/
  | mandn (d : Die) (u : Fin 32) (w : TwillWord)
  /-- VSEL (R143). -/
  | vsel (d : Die) (u : Fin 32) (w : TwillWord)
  /-- FCVT (R145). -/
  | fcvt (d : Die) (u : Fin 32) (w : TwillWord)
  /-- QCVT (R146). -/
  | qcvt (d : Die) (u : Fin 32) (w : TwillWord)
  /-- VPACKB (R148). -/
  | vpackb (d : Die) (u : Fin 32) (w : TwillWord)
  /-- VGETX (R149). -/
  | vgetx (d : Die) (u : Fin 32) (w : TwillWord)
  /-- VAMAX (R149). -/
  | vamax (d : Die) (u : Fin 32) (w : TwillWord)
  /-- EXP2 (R159). -/
  | exp2 (d : Die) (u : Fin 32) (w : TwillWord)
  /-- LOG2 (R159). -/
  | log2 (d : Die) (u : Fin 32) (w : TwillWord)
  /-- RCP (R159). -/
  | rcp (d : Die) (u : Fin 32) (w : TwillWord)
  /-- RSQRT (R159). -/
  | rsqrt (d : Die) (u : Fin 32) (w : TwillWord)
  /-- TANH (R159). -/
  | tanh (d : Die) (u : Fin 32) (w : TwillWord)
  /-- RSUMT (R153). -/
  | rsumt (d : Die) (u : Fin 32) (w : TwillWord)
  /-- RSUMS (R154). -/
  | rsums (d : Die) (u : Fin 32) (w : TwillWord)
  /-- RMAX (R155). -/
  | rmax (d : Die) (u : Fin 32) (w : TwillWord)
  /-- RMIN (R155). -/
  | rmin (d : Die) (u : Fin 32) (w : TwillWord)
  /-- VPERM (R158). -/
  | vperm (d : Die) (u : Fin 32) (w : TwillWord)
  /-- VSPLAT (R158). -/
  | vsplat (d : Die) (u : Fin 32) (w : TwillWord)
  /-- VSLIDEDN (R158). -/
  | vslidedn (d : Die) (u : Fin 32) (w : TwillWord)
  /-- VSLIDEUP (R158). -/
  | vslideup (d : Die) (u : Fin 32) (w : TwillWord)
  /-- TWILL_ILLEGAL (R142). -/
  | twillIllegal (d : Die) (u : Fin 32) (op : Fin 256)
  /-- DESCRIPTOR_ACCEPT (R167). -/
  | descriptorAccept (d : Die) (c : Fin 128)
  /-- TILE_OUTPUT (R170). -/
  | tileOutput (d : Die) (c : Fin 128)
  /-- ACC_STALL (R167). -/
  | accStall (d : Die) (c : Fin 128) (cycles : Nat)
  /-- SLICE_CONVERT (R177). -/
  | sliceConvert (d : Die) (q : ConvTurn)
  /-- SLICE_ACCEPT (R218). -/
  | sliceAccept (d : Die) (cl : Fin 8) (cycles : Nat)
  /-- MATRIX_CANCEL (R245). -/
  | matrixCancel (d : Die) (slot : Fin 4096)
  /-- BLOCK_ACCEPT (R183). -/
  | blockAccept (d : Die)
  /-- BLOCK_UPDATE (R188). -/
  | blockUpdate (d : Die)
  /-- UPDATE_COMPLETE (R185). -/
  | updateComplete (d : Die)
  /-- PROJECTION_START (R198). -/
  | projectionStart (d : Die)
  /-- PROJECTION_DONE (R200). -/
  | projectionDone (d : Die)
  /-- PROJECT (R202). -/
  | project (rq : Requester)
  /-- PROJECT_NOHYST (R202). -/
  | projectNohyst (rq : Requester)
  /-- SCHED_DATA_ACCESS (R191). -/
  | schedDataAccess (rq : Requester) (wr : Option Word)
  /-- STEP_SIZE_WRITE (R190). -/
  | stepSizeWrite (rq : Requester) (v : Word)
  /-- FORM (R205). -/
  | form (rq : Requester) (v : Word)
  /-- RING_MESSAGE (R216). -/
  | ringMessage (c : Fin 8) (m : RingMsg)
  /-- REDUCE_HOP_ADD (R216). -/
  | reduceHopAdd (c : Fin 8)
  /-- BUCKET_SEND (R218). -/
  | bucketSend (c : Fin 8)
  /-- BUCKET_DELIVER (R219). -/
  | bucketDeliver (c : Fin 8)
  /-- DEADLINE (R221). -/
  | deadline (c : Fin 8) (seq : Nat)
  /-- RING_TIMEOUT (R222). -/
  | ringTimeout (c : Fin 8) (seq : Nat)
  /-- TSK_LAUNCH (R241). -/
  | tskLaunch (rq : Requester) (v : Word)
  /-- GRAPH_STREAM (R242). -/
  | graphStream
  /-- STREAM_RESUME (R242). -/
  | streamResume
  /-- TASK_DISPATCH (R237). -/
  | taskDispatch (d : Die) (kind : Fin 16)
  /-- TASK_COMPLETE (R236). -/
  | taskComplete (d : Die) (slot : Fin 4096)
  /-- REMOTE_SIGNAL (R234). -/
  | remoteSignal
  /-- CNT_VALUE_WRITE (R234). -/
  | cntValueWrite (rq : Requester) (v : Word)
  /-- CNT_ADD_WRITE (R234). -/
  | cntAddWrite (rq : Requester) (v : Word)
  /-- FLUSH (R247). -/
  | flush (rq : Requester)
  /-- DEADLOCK (R246). -/
  | deadlock (d : Die)
  /-- DUTY_SPLIT_WRITE (R249). -/
  | dutySplitWrite (rq : Requester) (v : Word)
  /-- DUTY_BOUNDARY (R249). -/
  | dutyBoundary
  /-- DMA_COPY (R257). -/
  | dmaCopy (d : Die) (e : Fin 16)
  /-- DMA_STREAM (R258). -/
  | dmaStream (d : Die) (e : Fin 16)
  /-- PREFETCHER_FETCH (R258). -/
  | prefetcherFetch (d : Die) (p : Fin 64)
  /-- DMA_SPILL_OUT (R262). -/
  | dmaSpillOut (d : Die) (e : Fin 16)
  /-- DMA_SPILL_IN (R262). -/
  | dmaSpillIn (d : Die) (e : Fin 16) (data : List Byte) (err : Bool)
  /-- SILT_PUT (R268). -/
  | siltPut (d : Die) (e : Fin 16) (key value : Nat)
  /-- OPEN (R270). -/
  | siltOpen (src : SiltSrc)
  /-- CLOSE (R270). -/
  | siltClose (src : SiltSrc)
  /-- TRUNCATE (R270). -/
  | siltTruncate (src : SiltSrc)
  /-- SILT_SLOTS_WRITE (R264). -/
  | siltSlotsWrite (rq : Requester) (d : Die) (v : Word)
  /-- FLIT_RECEIVE (R276). -/
  | flitReceive (l : LinkId) (bytes : List Byte)
  /-- IDLE_FLIT_TIMER (R276). -/
  | idleFlitTimer (l : LinkId)
  /-- NAK_REPEAT (R276). -/
  | nakRepeat (l : LinkId)
  /-- LINK_SILENCE (R282). -/
  | linkSilence (l : LinkId)
  /-- RETRAIN_THRESHOLD (R282). -/
  | retrainThreshold (l : LinkId)
  /-- REMOVE_THRESHOLD (R282). -/
  | removeThreshold (l : LinkId)
  /-- RETRAIN_ATTEMPT (R280). -/
  | retrainAttempt (l : LinkId) (ok : Bool) (partnerAck : Nat)
  /-- LINK_TRAINING (R280). -/
  | linkTraining (l : LinkId) (r : TrainResult)
  /-- RETRAIN (R282). -/
  | retrain (rq : Requester) (l : Nat)
  /-- REMOVE (R282). -/
  | remove (rq : Requester) (l : Nat)
  /-- RESTORE (R280). -/
  | restore (rq : Requester) (l : Nat)
  /-- LINK_DOWN (R283). -/
  | linkDown (src l : Nat)
  /-- TIME_MASTER_LOST (R291). -/
  | timeMasterLost (src lowest : Nat)
  /-- TIME_SYNC_PERIOD (R290). -/
  | timeSyncPeriod (l : LinkId) (t1 : Nat)
  /-- SYNC (R290). -/
  | sync (l : LinkId) (t1 t2 t3 : Nat)
  /-- DELAY_REQ (R290). -/
  | delayReq (l : LinkId) (t3 t4 : Nat)
  /-- DELAY_RESP (R290). -/
  | delayResp (l : LinkId) (t4 : Nat)
  /-- HOLDOVER (R291). -/
  | holdover
  /-- TRIGGER_FRAME (R292). -/
  | triggerFrame (l : LinkId) (f : TrigFrame)
  /-- RELAY_WINDOW_ACCESS (R312). -/
  | relayWindowAccess (mem win : Nat) (off : Nat) (wr : Option (List Byte)) (len : Nat)
  /-- RELAY_READ (R293). -/
  | relayRead (src : Nat) (h : RelayHdr)
  /-- RELAY_WRITE (R293). -/
  | relayWrite (src : Nat) (h : RelayHdr) (bytes : List Byte)
  /-- RELAY_COMPLETION (R293). -/
  | relayCompletion (src : Nat) (h : RelayHdr) (bytes : List Byte)
  /-- RELAY_HOST_WRITE (R293). -/
  | relayHostWrite (src : Nat) (h : RelayHdr) (bytes : List Byte)
  /-- RELAY_TIMEOUT (R293). -/
  | relayTimeout (tag : Nat)
  /-- DATA_FRAME (R313). -/
  | dataFrame (src addr : Nat) (bytes : List Byte)
  /-- SQ_TAIL_DOORBELL (R303). -/
  | sqTailDoorbell (q : Fin 64) (v : Nat)
  /-- CQ_HEAD_DOORBELL (R303). -/
  | cqHeadDoorbell (q : Fin 64) (v : Nat)
  /-- SQ_FETCH (R304). -/
  | sqFetch (bytes : List Byte) (err : Bool)
  /-- HOST_NOP (R306). -/
  | hostNop (q : Fin 64)
  /-- WRITE_HBM (R306). -/
  | writeHbm (q : Fin 64) (data : List Byte) (err : Option Nat)
  /-- READ_HBM (R306). -/
  | readHbm (q : Fin 64)
  /-- HOST_DMA_COMPLETE (R310). -/
  | hostDmaComplete (q : Fin 64) (idx : Nat)
  /-- GEN (R307). -/
  | gen (q : Fin 64)
  /-- GEN_RESULT_COPY (R307). -/
  | genResultCopy (q : Fin 64) (idx : Nat)
  /-- LAUNCH (R306). -/
  | launch (q : Fin 64)
  /-- SIGNAL (R306). -/
  | signal (q : Fin 64)
  /-- CQ_STALL (R308). -/
  | cqStall (q : Fin 64)
  /-- HOST_ERROR_LIMIT (R314). -/
  | hostErrorLimit (q : Fin 64)
  /-- Q_CFG_WRITE (R302). -/
  | qCfgWrite (rq : Requester) (v : Word)
  /-- MSIX_UNMASK (R311). -/
  | msixUnmask (rq : Requester) (v : Fin 64)
  /-- APERTURE_READ (R299). -/
  | apertureRead (off len : Nat)
  /-- APERTURE_WRITE (R300). -/
  | apertureWrite (off : Nat) (bytes : List Byte)
  /-- SNAPSHOT_WINDOW_WRITE (R370). -/
  | snapshotWindowWrite (off : Nat) (bytes : List Byte)
  /-- FUNCTION_LEVEL_RESET (R296). -/
  | functionLevelReset
  /-- PCIE_LINK_UP (R295). -/
  | pcieLinkUp (rate width : Nat) (flit : Bool)
  /-- PCIE_LINK_DOWN (R315). -/
  | pcieLinkDown
  /-- PERST_ASSERT (R408). -/
  | perstAssert
  /-- PERST_DEASSERT (R331). -/
  | perstDeassert
  /-- IRQ_SOURCE_PENDING (R317). -/
  | irqSourcePending (d : Die) (src : Nat)
  /-- IRQ_CLAIM (R321). -/
  | irqClaim (d : Die) (core : Fin 4) (src : Nat)
  /-- CLAIM_READ (R323). -/
  | claimRead (rq : Requester) (d : Die) (core : Fin 4)
  /-- IRQ_EOI (R323). -/
  | irqEoi (rq : Requester) (d : Die) (core : Fin 4) (src : Nat)
  /-- HOST_EOI (R325). -/
  | hostEoi (rq : Requester) (d : Die) (src : Nat)
  /-- IRQ_PEND_WRITE (R318). -/
  | irqPendWrite (rq : Requester) (d : Die) (k : Fin 16) (v : Word)
  /-- IRQ_PCLR_WRITE (R318). -/
  | irqPclrWrite (rq : Requester) (d : Die) (k : Fin 16) (v : Word)
  /-- IRQ_HOST_MESSAGE (R325). -/
  | irqHostMessage (d : Die) (src : Nat)
  /-- KDONE (R324). -/
  | kdone (rq : Requester) (d : Die) (core : Fin 4) (err : Bool)
  /-- HOLDOFF_EXPIRY (R326). -/
  | holdoffExpiry (d : Die) (g : Fin 32)
  /-- MODERATION_TICK (R327). -/
  | moderationTick (d : Die)
  /-- SUPPLY_GOOD (R354). -/
  | supplyGood (smbAddr : Nat)
  /-- RAIL_TIMEOUT (R354). -/
  | railTimeout (die : Nat)
  /-- ROM_STAGE (R329). -/
  | romStage
  /-- IDENTITY_STAGE (R343). -/
  | identityStage (seen : Option (List Byte × List Byte)) (finger : List Byte)
  /-- SFDP_TIMEOUT (R332). -/
  | sfdpTimeout
  /-- IMAGE_STAGE (R332). -/
  | imageStage (image : List Byte) (dev : FlashSeen)
  /-- VERIFY_STAGE (R337). -/
  | verifyStage (p : ImgPlain)
  /-- FIRMWARE_STAGE (R329). -/
  | firmwareStage
  /-- RECORDS_STAGE (R338). -/
  | recordsStage
  /-- HBM_STAGE (R329). -/
  | hbmStage (failed : Option StartFail)
  /-- LINKS_STAGE (R329). -/
  | linksStage
  /-- SWEEP_STAGE (R130). -/
  | sweepStage
  /-- FINAL_STAGE (R329). -/
  | finalStage (ms : Nat)
  /-- RECORD_WRITE (R338). -/
  | recordWrite
  /-- RECORD_MODIFY (R338). -/
  | recordModify
  /-- RECORD_POLL (R338). -/
  | recordPoll
  /-- POLL_TIMEOUT (R338). -/
  | pollTimeout
  /-- RECORD_DELAY (R338). -/
  | recordDelay
  /-- BOOT_PUSHED (R340). -/
  | bootPushed (rq : Requester)
  /-- VERIFY_PUSHED (R341). -/
  | verifyPushed (rq : Requester)
  /-- WRITE_IMAGE (R341). -/
  | writeImage (rq : Requester)
  /-- SECTOR_PROGRAM (R378). -/
  | sectorProgram (back : List Byte)
  /-- LEAF_RESERVATION (R346). -/
  | leafReservation (first second : Bool)
  /-- ATTESTATION_KEY_BUILD (R345). -/
  | attestationKeyBuild (treeId : List Byte)
  /-- ATT_REQUEST (R348). -/
  | attRequest (rq : Requester) (v : Word)
  /-- REPORT_SIGNED (R348). -/
  | reportSigned
  /-- INPUT_GOOD (R349). -/
  | inputGood (b : Bool)
  /-- INPUT_LOSS (R350). -/
  | inputLoss (b : Bool)
  /-- HOLDUP (R351). -/
  | holdup
  /-- HOLDUP_EXHAUSTED (R351). -/
  | holdupExhausted
  /-- RETURN_TO_A (R352). -/
  | returnToA
  /-- SELECT_A (R352). -/
  | selectA (rq : Requester)
  /-- SELECT_B (R352). -/
  | selectB (rq : Requester)
  /-- CLEAR_UNSTABLE (R352). -/
  | clearUnstable (rq : Requester)
  /-- POWERED_SECOND (R355). -/
  | poweredSecond
  /-- POWERED_COUNT_SAVE (R355). -/
  | poweredCountSave (ok : Bool)
  /-- HKA_CONVERSION (R357). -/
  | hkaConversion (raw : Int)
  /-- SENSOR_FAULT (R365). -/
  | sensorFault (ch : Nat)
  /-- TRIP_POWER_OFF (R362). -/
  | tripPowerOff
  /-- TRIP_LATCH_RELEASE (R362). -/
  | tripLatchRelease
  /-- HKA_CONV_WRITE (R358). -/
  | hkaConvWrite (rq : Requester) (v : Word)
  /-- HKA_DATA_READ (R359). -/
  | hkaDataRead (rq : Requester)
  /-- GOVERNOR_LOOP (R360). -/
  | governorLoop
  /-- SMB_STATUS_READ (R366). -/
  | smbStatusRead
  /-- SMB_INPUT_POWER_READ (R366). -/
  | smbInputPowerRead
  /-- SMB_INPUT_A_VOLTAGE_READ (R366). -/
  | smbInputAVoltageRead
  /-- SMB_INPUT_B_VOLTAGE_READ (R366). -/
  | smbInputBVoltageRead
  /-- SMB_INPUT_CURRENT_READ (R366). -/
  | smbInputCurrentRead
  /-- SMB_HOTTEST_DIE_READ (R366). -/
  | smbHottestDieRead
  /-- SMB_COOLANT_INLET_READ (R366). -/
  | smbCoolantInletRead
  /-- SMB_COOLANT_OUTLET_READ (R366). -/
  | smbCoolantOutletRead
  /-- SMB_PWM0_DUTY_READ (R366). -/
  | smbPwm0DutyRead
  /-- SMB_PWM1_DUTY_READ (R366). -/
  | smbPwm1DutyRead
  /-- SMB_EVENTS_READ (R366). -/
  | smbEventsRead
  /-- SMB_TEMPERATURES_READ (R366). -/
  | smbTemperaturesRead
  /-- SMB_IDENTITY_READ (R366). -/
  | smbIdentityRead
  /-- SMB_ALERT_RESPONSE (R366). -/
  | smbAlertResponse
  /-- SMB_INVALID_COMMAND (R366). -/
  | smbInvalidCommand (code : Nat) (pec : Bool)
  /-- SMB_CLK_LOW_TIMEOUT (R366). -/
  | smbClkLowTimeout
  /-- SNP_TRIG_FIRE (R371). -/
  | snpTrigFire (rq : Requester) (v : Word)
  /-- CAPT_IN (R371). -/
  | captIn (edge : Nat)
  /-- CAPTURE (R368). -/
  | capture (lat : List Nat)
  /-- CAPT_OUT_PULSE_END (R374). -/
  | captOutPulseEnd
  /-- DRAIN (R375). -/
  | drain
  /-- SNP_RING_SIZE_WRITE (R375). -/
  | snpRingSizeWrite (rq : Requester) (v : Word)
  /-- CHK_CLAIM (R380). -/
  | chkClaim (rq : Requester) (u : Fin 16) (len : Nat)
  /-- CHK_RELEASE (R380). -/
  | chkRelease (rq : Requester) (u : Fin 16) (len : Nat)
  /-- CHK_INIT (R379). -/
  | chkInit (rq : Requester) (u : Fin 16) (len : Nat)
  /-- CHK_DATA_WRITE (R379). -/
  | chkDataWrite (rq : Requester) (u : Fin 16) (v : Word)
  /-- CHK_VALUE_WRITE (R379). -/
  | chkValueWrite (rq : Requester) (u : Fin 16) (v : Word)
  /-- ERROR_LOG_WRITE (R382). -/
  | errorLogWrite
  /-- PUSHED_IMAGE_VERIFIED (R341). -/
  | pushedImageVerified (p : ImgPlain)
  /-- SQ_WINDOW_ACCESS (R302). -/
  | sqWindowAccess (off len : Nat) (wr : Option (List Byte))
  /-- MALFORMED_TLP (R314). -/
  | malformedTlp
deriving DecidableEq, Repr

end Sys2Proof
end

