-- ==== Sys2Proof/WellFormed.lean ====
section
/-! DEFINITION. Well-formed commands: every operand within the range that its register field, frame field, pin or address space gives it. -/

namespace Sys2Proof

/-- A number fits a field of `w` bits. -/
def fits (w n : Nat) : Bool := decide (n < 2 ^ w)
/-- A number names one of `n` things. -/
def below (n i : Nat) : Bool := decide (i < n)
/-- A 4-byte aligned offset of BAR0 (R4, R297). -/
def bar0Off (a : Nat) : Bool := decide (a % 4 = 0) && fits 26 a

/-- The fields of a commit token fit their places (R287). -/
def Token.wf (t : Token) : Bool :=
  fits 64 t.step && fits 32 t.epoch && fits 8 t.attempt && fits 8 t.firstVoter && fits 8 t.gid && fits 16 t.reason && fits 8 t.size

/-- The fields of a control operation fit their places (R288). -/
def CtrlMsg.wf (c : CtrlMsg) : Bool :=
  fits 64 c.step && fits 32 c.epoch && fits 8 c.attempt && fits 16 c.reason && fits 8 c.pos && below 64 c.src

/-- The fields of a trigger fit their places (R292). -/
def TrigFrame.wf (f : TrigFrame) : Bool := fits 64 f.t && below 64 f.origin && fits 8 f.num && fits 8 f.cls

/-- The fields of a relay header fit their places (R293). -/
def RelayHdr.wf (h : RelayHdr) : Bool := fits 8 h.op && fits 8 h.status && fits 16 h.tag && fits 32 h.len && fits 64 h.addr

/-- The fields of a reduction message's header fit their places (R214). -/
def RingMsg.wf (m : RingMsg) : Bool :=
  fits 32 m.seq && fits 32 m.epoch && fits 64 m.step && fits 8 m.attempt && fits 8 m.fmt && fits 8 m.sender && fits 8 m.n && fits 32 m.crc

/-- A Silt command names a context handle (R270). -/
def SiltSrc.wf : SiltSrc → Bool
  | .reg _ h => fits 16 h
  | .queue _ => true

/-- The verify reads of a row: the first and those after at most 6 cycles (R116), each with its cells in ascending order, no reading further
from its target than the converter's scale. -/
def rowReadsOk (r : RowReads) : Bool :=
  below 8 r.length && r.all (fun l => decide ((l.map (·.1)).Pairwise (· < ·)) && l.all (fun p => below 1024 p.1 && below 513 p.2.natAbs))

/-- A well-formed command. -/
def Instr.wf : Instr → Bool
  | .registerWrite _ off _ => bar0Off off
  | .pairLoRead _ off => bar0Off off
  | .unassignedAccess _ off _ => bar0Off off
  | .bar0BadAccess _ _ len _ => decide (1 ≤ len) && decide (len ≤ 4096)
  | .trainingStart => true
  | .newStepBoundary => true
  | .repeatBoundary => true
  | .memberReady => true
  | .firstPassToken t => t.wf
  | .secondPassToken t => t.wf
  | .groupHoldRelease => true
  | .abortRequest c => c.wf
  | .abortRequestTimeout => true
  | .commitTimeout => true
  | .secondPassTimeout => true
  | .decisionQuery c => c.wf
  | .decisionReply c => c.wf
  | .decisionDirect c => c.wf
  | .committedWindowRead off len => fits 34 (off + len)
  | .committedWindowWrite off bytes => fits 34 (off + bytes.length)
  | .stepRecordRingWrite off bytes => fits 34 (off + bytes.length)
  | .stepDecideNone _ => true
  | .stepDecideRepeat _ => true
  | .stepDecideSkip _ => true
  | .stepDecideStop _ => true
  | .tokenBoundary h => fits 16 h
  | .groupRequest _ => true
  | .passAdmit _ _ => true
  | .passComplete _ _ y => y.all (fun p => fits 16 p.2)
  | .rangeTrackerEval _ idx => below 1536 idx
  | .govStatusRead _ _ => true
  | .clipgClr _ _ => true
  | .clipgDataRead _ _ => true
  | .rangeDataWrite _ _ _ => true
  | .calReadStart _ => true
  | .calReadComplete _ a codes _ => below 1632 a && codes.all (fits 12)
  | .forcedRead _ a => below 1632 a
  | .calStarved _ a => below 1632 a
  | .arrayFit _ a => below 1632 a
  | .trimPublication _ => true
  | .publish _ _ pos => below 1536 pos
  | .refresh _ _ pos => below 1536 pos
  | .load _ _ pos => below 1536 pos
  | .readback _ _ pos => below 1536 pos
  | .readbackSegment _ pos _ => below 1536 pos
  | .refreshAgeExpiry _ pos => below 1536 pos
  | .progJobStart _ => true
  | .progRow _ _ v0 v1 v2 vs => rowReadsOk (v0 :: v1 :: v2 :: vs)
  | .progJobComplete _ _ f rows => fits 16 f.tm && below 17 rows.length && rows.all rowReadsOk
  | .sweepArray _ _ _ _ => true
  | .nop _ _ _ => true
  | .vsetvl _ _ _ => true
  | .vsetsr _ _ _ => true
  | .vsetsri _ _ _ => true
  | .viota _ _ _ => true
  | .vld _ _ _ => true
  | .vst _ _ _ => true
  | .vbar _ _ _ => true
  | .barrierRelease _ _ _ => true
  | .barrierTimeout _ _ => true
  | .faddVv _ _ _ => true
  | .faddVi _ _ _ => true
  | .fsubVv _ _ _ => true
  | .fsubVi _ _ _ => true
  | .fmulVv _ _ _ => true
  | .fmulVi _ _ _ => true
  | .ffmaVvv _ _ _ => true
  | .ffmaVvi _ _ _ => true
  | .ffmaViv _ _ _ => true
  | .fmax _ _ _ => true
  | .fmin _ _ _ => true
  | .fabs _ _ _ => true
  | .fneg _ _ _ => true
  | .iaddVv _ _ _ => true
  | .iaddVi _ _ _ => true
  | .isub _ _ _ => true
  | .imul _ _ _ => true
  | .imax _ _ _ => true
  | .imin _ _ _ => true
  | .vand _ _ _ => true
  | .vor _ _ _ => true
  | .vxor _ _ _ => true
  | .shl _ _ _ => true
  | .shra _ _ _ => true
  | .shrl _ _ _ => true
  | .fcmpVv _ _ _ => true
  | .fcmpVi _ _ _ => true
  | .icmpVv _ _ _ => true
  | .icmpVi _ _ _ => true
  | .mand _ _ _ => true
  | .mor _ _ _ => true
  | .mxor _ _ _ => true
  | .mandn _ _ _ => true
  | .vsel _ _ _ => true
  | .fcvt _ _ _ => true
  | .qcvt _ _ _ => true
  | .vpackb _ _ _ => true
  | .vgetx _ _ _ => true
  | .vamax _ _ _ => true
  | .exp2 _ _ _ => true
  | .log2 _ _ _ => true
  | .rcp _ _ _ => true
  | .rsqrt _ _ _ => true
  | .tanh _ _ _ => true
  | .rsumt _ _ _ => true
  | .rsums _ _ _ => true
  | .rmax _ _ _ => true
  | .rmin _ _ _ => true
  | .vperm _ _ _ => true
  | .vsplat _ _ _ => true
  | .vslidedn _ _ _ => true
  | .vslideup _ _ _ => true
  | .twillIllegal _ _ _ => true
  | .descriptorAccept _ _ => true
  | .tileOutput _ _ => true
  | .accStall _ _ _ => true
  | .sliceConvert _ q => q.ready.all (fun l => l.all (below 16))
  | .sliceAccept _ _ _ => true
  | .matrixCancel _ _ => true
  | .blockAccept _ => true
  | .blockUpdate _ => true
  | .updateComplete _ => true
  | .projectionStart _ => true
  | .projectionDone _ => true
  | .project _ => true
  | .projectNohyst _ => true
  | .schedDataAccess _ _ => true
  | .stepSizeWrite _ _ => true
  | .form _ _ => true
  | .ringMessage _ m => m.wf
  | .reduceHopAdd _ => true
  | .bucketSend _ => true
  | .bucketDeliver _ => true
  | .deadline _ seq => fits 32 seq
  | .ringTimeout _ seq => fits 32 seq
  | .tskLaunch _ _ => true
  | .graphStream => true
  | .streamResume => true
  | .taskDispatch _ _ => true
  | .taskComplete _ _ => true
  | .remoteSignal => true
  | .cntValueWrite _ _ => true
  | .cntAddWrite _ _ => true
  | .flush _ => true
  | .deadlock _ => true
  | .dutySplitWrite _ _ => true
  | .dutyBoundary => true
  | .dmaCopy _ _ => true
  | .dmaStream _ _ => true
  | .prefetcherFetch _ _ => true
  | .dmaSpillOut _ _ => true
  | .dmaSpillIn _ _ _ _ => true
  | .siltPut _ _ key value => fits 24 key && fits 24 value
  | .siltOpen src => src.wf
  | .siltClose src => src.wf
  | .siltTruncate src => src.wf
  | .siltSlotsWrite _ _ _ => true
  | .flitReceive _ bytes => decide (bytes.length = 256)
  | .idleFlitTimer _ => true
  | .nakRepeat _ => true
  | .linkSilence _ => true
  | .retrainThreshold _ => true
  | .removeThreshold _ => true
  | .retrainAttempt _ _ partnerAck => fits 16 partnerAck
  | .linkTraining _ _ => true
  | .retrain _ l => fits 5 l
  | .remove _ l => fits 5 l
  | .restore _ l => fits 5 l
  | .linkDown src l => below 64 src && below 18 l
  | .timeMasterLost src lowest => below 64 src && below 64 lowest
  | .timeSyncPeriod _ _ => true
  | .sync _ _ _ _ => true
  | .delayReq _ _ _ => true
  | .delayResp _ _ => true
  | .holdover => true
  | .triggerFrame _ f => f.wf
  | .relayWindowAccess mem win off _ _ => below 64 mem && below 2 win && fits 16 off
  | .relayRead src h => below 64 src && h.wf
  | .relayWrite src h _ => below 64 src && h.wf
  | .relayCompletion src h _ => below 64 src && h.wf
  | .relayHostWrite src h _ => below 64 src && h.wf
  | .relayTimeout tag => fits 16 tag
  | .dataFrame src addr bytes => below 64 src && fits 64 addr && decide (bytes.length ≤ 65536)
  | .sqTailDoorbell _ v => fits 32 v
  | .cqHeadDoorbell _ v => fits 32 v
  | .sqFetch bytes err => err || decide (bytes.length = 64)
  | .hostNop _ => true
  | .writeHbm _ _ _ => true
  | .readHbm _ => true
  | .hostDmaComplete _ _ => true
  | .gen _ => true
  | .genResultCopy _ _ => true
  | .launch _ => true
  | .signal _ => true
  | .cqStall _ => true
  | .hostErrorLimit _ => true
  | .qCfgWrite _ _ => true
  | .msixUnmask _ _ => true
  | .apertureRead off len => fits 36 (off + len)
  | .apertureWrite off bytes => fits 36 (off + bytes.length)
  | .snapshotWindowWrite off _ => fits 24 off
  | .functionLevelReset => true
  | .pcieLinkUp rate width _ => below 7 rate && below 16 width
  | .pcieLinkDown => true
  | .perstAssert => true
  | .perstDeassert => true
  | .irqSourcePending _ src => below 512 src
  | .irqClaim _ _ src => below 512 src
  | .claimRead _ _ _ => true
  | .irqEoi _ _ _ src => fits 9 src
  | .hostEoi _ _ src => fits 9 src
  | .irqPendWrite _ _ _ _ => true
  | .irqPclrWrite _ _ _ _ => true
  | .irqHostMessage _ src => below 512 src
  | .kdone _ _ _ _ => true
  | .holdoffExpiry _ _ => true
  | .moderationTick _ => true
  | .supplyGood smbAddr => fits 3 smbAddr
  | .railTimeout die => below 18 die
  | .romStage => true
  | .identityStage seen finger => seen.all (fun x => decide (x.1.length = 4096) && decide (x.2.length = 4096)) && decide (finger.length = 1024)
  | .sfdpTimeout => true
  | .imageStage image dev => decide (image.length ≤ 134217728) && decide (dev.cap ∈ [33554432, 67108864, 134217728])
      && decide (dev.helperA.length = 65536) && decide (dev.helperB.length = 65536)
  | .verifyStage _ => true
  | .firmwareStage => true
  | .recordsStage => true
  | .hbmStage failed => failed.all (fun f => match f with
    | .stack u => below 12 u
    | .die d => below 18 d
    | .part i => below 64 i)
  | .linksStage => true
  | .sweepStage => true
  | .finalStage _ => true
  | .recordWrite => true
  | .recordModify => true
  | .recordPoll => true
  | .pollTimeout => true
  | .recordDelay => true
  | .bootPushed _ => true
  | .verifyPushed _ => true
  | .writeImage _ => true
  | .sectorProgram back => decide (back.length ≤ 65536)
  | .leafReservation _ _ => true
  | .attestationKeyBuild treeId => decide (treeId.length = 16)
  | .attRequest _ _ => true
  | .reportSigned => true
  | .inputGood _ => true
  | .inputLoss _ => true
  | .holdup => true
  | .holdupExhausted => true
  | .returnToA => true
  | .selectA _ => true
  | .selectB _ => true
  | .clearUnstable _ => true
  | .poweredSecond => true
  | .poweredCountSave _ => true
  | .hkaConversion raw => decide (-2048 ≤ raw) && decide (raw < 2048)
  | .sensorFault ch => below 16 ch
  | .tripPowerOff => true
  | .tripLatchRelease => true
  | .hkaConvWrite _ _ => true
  | .hkaDataRead _ => true
  | .governorLoop => true
  | .smbStatusRead => true
  | .smbInputPowerRead => true
  | .smbInputAVoltageRead => true
  | .smbInputBVoltageRead => true
  | .smbInputCurrentRead => true
  | .smbHottestDieRead => true
  | .smbCoolantInletRead => true
  | .smbCoolantOutletRead => true
  | .smbPwm0DutyRead => true
  | .smbPwm1DutyRead => true
  | .smbEventsRead => true
  | .smbTemperaturesRead => true
  | .smbIdentityRead => true
  | .smbAlertResponse => true
  | .smbInvalidCommand code _ => fits 8 code
  | .smbClkLowTimeout => true
  | .snpTrigFire _ _ => true
  | .captIn _ => true
  | .capture _ => true
  | .captOutPulseEnd => true
  | .drain => true
  | .snpRingSizeWrite _ _ => true
  | .chkClaim _ _ len => fits 3 len
  | .chkRelease _ _ len => fits 3 len
  | .chkInit _ _ len => fits 3 len
  | .chkDataWrite _ _ _ => true
  | .chkValueWrite _ _ _ => true
  | .errorLogWrite => true
  | .pushedImageVerified _ => true
  | .sqWindowAccess off _ _ => fits 22 off
  | .malformedTlp => true

end Sys2Proof
end

