-- ==== Sys2Proof/Config.lean ====
section
/-! DEFINITION. Values the spec leaves open, as opaque constants: nothing can be proved of them but what holds of every value. -/

namespace Sys2Proof

/-- FP32 code of the EXP2, LOG2, RSQRT and TANH result of an FP32 code, where R159 gives a bound and no value. -/
opaque Config.exp2 : Nat → BitVec 32
opaque Config.log2 : Nat → BitVec 32
opaque Config.rsqrt : Nat → BitVec 32
opaque Config.tanh : Nat → BitVec 32
/-- A stash table that the host changed in HBM (R260), whose byte layout the spec does not give: by its bytes, the full record and checkpoint
bytes per token of a row, and the tokens. -/
opaque Config.stashRow : List (BitVec 8) → Nat → Nat × Nat
opaque Config.stashTokens : List (BitVec 8) → Nat
/-- An undefined byte of a state copy (R22): by generation and offset. -/
opaque Config.undefByte : Nat → Nat → BitVec 8
/-- The code and the column scale (FP16) that a product reads for a row and column outside the matrix it names (R168 says nothing of
them): by matrix, row and column. -/
opaque Config.outCode : Nat → Nat → Nat → Int
opaque Config.outScale : Nat → Nat → Nat
/-- FP16: the verify error of an array whose weight columns all hold code 0 alone (R105 excludes them all), and the verify gain and offset
of such a column, to which no line can be fitted. -/
opaque Config.blankEps : BitVec 16
opaque Config.blankGain : BitVec 16
opaque Config.blankOff : BitVec 16
/-- A fresh free bit, by the count of free values drawn. -/
opaque Config.freeBit : Nat → Bool
/-- A fresh free byte string's bytes, by the count of free values drawn and the position. -/
opaque Config.freeByte : Nat → Nat → BitVec 8
/-- The corrected bits of a read of the fingerprint array (R344, which gives no correction code): by the read and the helper data. -/
opaque Config.corrected : List (BitVec 8) → List (BitVec 8) → List (BitVec 8)
/-- The 16-byte identifier of a lower tree (R345): by the device secret and the top leaf. -/
opaque Config.hssLowerId : List (BitVec 8) → Nat → List (BitVec 8)
/-- The 32-byte randomizer C of a signature (R344): by the device secret, the level and the leaf index. -/
opaque Config.hssRandom : List (BitVec 8) → Nat → Nat → List (BitVec 8)

end Sys2Proof
end

