-- ==== Sys2Proof/Machine/Map.lean ====
section
/-! DEFINITION. Sparse maps from a natural-number key to a value, as plain data in ONE canonical form: keys strictly
rising, and no entry equal to what an unlisted key reads as.  Registers, memories and every other keyed collection of
`State` are such maps. -/

namespace Sys2Proof.Machine

/-- A sparse map: a list of (key, value), canonical when `SMap.wf` holds of it. -/
abbrev SMap (α : Type) := List (Nat × α)

variable {α : Type}

/-- The value at key `k`; an unlisted key reads as `d k`. -/
def SMap.get (d : Nat → α) : SMap α → Nat → α
  | [], k => d k
  | (j, v) :: rest, k => if j = k then v else SMap.get d rest k

/-- The listed value at key `k`, if any. -/
def SMap.find : SMap α → Nat → Option α
  | [], _ => none
  | (j, v) :: rest, k => if j = k then some v else SMap.find rest k

/-- `m` with key `k` listed with `v`, the keys kept strictly rising. -/
def SMap.insert (k : Nat) (v : α) : SMap α → SMap α
  | [] => [(k, v)]
  | (j, w) :: rest =>
    if k < j then (k, v) :: (j, w) :: rest
    else if k = j then (k, v) :: rest
    else (j, w) :: SMap.insert k v rest

/-- `m` with key `k` not listed. -/
def SMap.erase (k : Nat) : SMap α → SMap α
  | [] => []
  | (j, w) :: rest => if k = j then SMap.erase k rest else (j, w) :: SMap.erase k rest

/-- Write `v` at key `k`: a value equal to what the unlisted key reads as removes the entry. -/
def SMap.set [DecidableEq α] (d : Nat → α) (m : SMap α) (k : Nat) (v : α) : SMap α :=
  if v = d k then SMap.erase k m else SMap.insert k v m

/-- The canonical form as a Bool: every key lies above `lo`, keys rise strictly, no entry equals the unlisted value. -/
def SMap.wfFrom [DecidableEq α] (d : Nat → α) : Nat → SMap α → Bool
  | _, [] => true
  | lo, (j, v) :: rest => decide (lo ≤ j) && decide (v ≠ d j) && SMap.wfFrom d (j + 1) rest

/-- The canonical form. -/
def SMap.wf [DecidableEq α] (d : Nat → α) (m : SMap α) : Bool := SMap.wfFrom d 0 m

/-- The listed keys. -/
def SMap.keys (m : SMap α) : List Nat := m.map (·.1)

end Sys2Proof.Machine
end

