-- ==== Sys2Proof/Machine/Regs.lean ====
section
/-! DEFINITION. The register map of BAR0 (R398): the address of every register, its access, its writable bits and its reset
value, from the register index and the field tables of the chapters. -/

namespace Sys2Proof.Machine

/-- Access types of R9. -/
inductive Acc where
  | rw | ro | w1c | w1s | wo | rc
deriving DecidableEq, Repr

/-- A row of the register map: `cnt` registers (or pairs) from offset `off`, `stride` bytes apart; RW bits (of the _LO half and of
the _HI half), W1C bits, reset value (R8), and whether it is a 64-bit pair (R6). -/
structure RegRow where
  off : Nat
  cnt : Nat
  stride : Nat
  acc : Acc
  rw : Nat
  rwHi : Nat
  w1c : Nat
  reset : Nat
  pair : Bool
deriving DecidableEq, Repr

/-! ### Addresses: BAR0 addresses of every register; of a pair, the address of its _LO half -/

def R.ID_STORE (k : Nat) : Nat := 0x0 + k * 0x4
def R.ID_STATUS : Nat := 0x1000
def R.HIF_CTRL : Nat := 0x10000
def R.HIF_STATUS : Nat := 0x10004
def R.HIF_EVENTS : Nat := 0x10008
def R.HIF_IRQ_EN : Nat := 0x1000C
def R.HIF_APER_BASE : Nat := 0x10010
def R.HIF_GEN_AREA : Nat := 0x10018
def R.HIF_PROT_SEL : Nat := 0x10020
def R.HIF_PROT_RANGE : Nat := 0x10024
def R.HIF_Q_SEL : Nat := 0x10028
def R.HIF_Q_CFG : Nat := 0x1002C
def R.HIF_Q_SQ_BASE : Nat := 0x10030
def R.HIF_Q_CQ_BASE : Nat := 0x10038
def R.HIF_Q_STATUS : Nat := 0x10040
def R.HIF_RELAY_SEL : Nat := 0x10044
def R.HIF_RELAY_PAGE : Nat := 0x10048
def R.HIF_FAULT : Nat := 0x1004C
def R.HIF_HOST_ERR_CNT : Nat := 0x10050
def R.HIF_UR_CNT : Nat := 0x10054
def R.HIF_SQWIN_BASE : Nat := 0x10058
def R.MSIX_TABLE (k : Nat) : Nat := 0x11000 + k * 0x4
def R.MSIX_PBA (k : Nat) : Nat := 0x11800 + k * 0x4
def R.IRQ_CTRL (d : Nat) : Nat := 0x20000 + d * 0x8000
def R.IRQ_STATUS (d : Nat) : Nat := 0x20004 + d * 0x8000
def R.IRQ_EVENTS (d : Nat) : Nat := 0x20008 + d * 0x8000
def R.IRQ_SRC_SEL (d : Nat) : Nat := 0x2000C + d * 0x8000
def R.IRQ_SRC_CFG (d : Nat) : Nat := 0x20010 + d * 0x8000
def R.IRQ_VBASE_N (d : Nat) : Nat := 0x20014 + d * 0x8000
def R.IRQ_VBASE_F (d : Nat) : Nat := 0x20018 + d * 0x8000
def R.IRQ_SPUR_VEC (d : Nat) : Nat := 0x2001C + d * 0x8000
def R.IRQ_MOD_CFG (d : Nat) : Nat := 0x20020 + d * 0x8000
def R.IRQ_HOST_EOI (d : Nat) : Nat := 0x20024 + d * 0x8000
def R.IRQ_SPUR_CNT (d : Nat) : Nat := 0x20028 + d * 0x8000
def R.IRQ_PEND (d k : Nat) : Nat := 0x20100 + d * 0x8000 + k * 0x4
def R.IRQ_PCLR (d k : Nat) : Nat := 0x20140 + d * 0x8000 + k * 0x4
def R.IRQ_EN (d k : Nat) : Nat := 0x20180 + d * 0x8000 + k * 0x4
def R.IRQ_INSVC (d k : Nat) : Nat := 0x201C0 + d * 0x8000 + k * 0x4
def R.IRQ_RAW (d k : Nat) : Nat := 0x20200 + d * 0x8000 + k * 0x4
def R.IRQ_HOLD (d k : Nat) : Nat := 0x20300 + d * 0x8000 + k * 0x4
def R.IRQ_HOLD_CUR (d k : Nat) : Nat := 0x20380 + d * 0x8000 + k * 0x4
def R.IRQ_Cc_CUR (d k : Nat) : Nat := 0x20400 + d * 0x8000 + k * 0x20
def R.IRQ_Cc_CURF (d k : Nat) : Nat := 0x20404 + d * 0x8000 + k * 0x20
def R.IRQ_Cc_CLAIM (d k : Nat) : Nat := 0x20408 + d * 0x8000 + k * 0x20
def R.IRQ_Cc_EOI (d k : Nat) : Nat := 0x2040C + d * 0x8000 + k * 0x20
def R.IRQ_Cc_KARG (d k : Nat) : Nat := 0x20410 + d * 0x8000 + k * 0x20
def R.IRQ_Cc_KDONE (d k : Nat) : Nat := 0x20418 + d * 0x8000 + k * 0x20
def R.PWR_CTRL : Nat := 0x30000
def R.PWR_STATUS : Nat := 0x30004
def R.PWR_EVENTS : Nat := 0x30008
def R.PWR_IRQ_EN : Nat := 0x3000C
def R.PWR_ALERT_EN : Nat := 0x30010
def R.PWR_CMD : Nat := 0x30014
def R.PWR_LIMIT : Nat := 0x30018
def R.PWR_LOOP_CFG : Nat := 0x3001C
def R.PWR_THERM_CFG : Nat := 0x30020
def R.PWR_CRIT_CFG : Nat := 0x30024
def R.PWR_HOST_CAP : Nat := 0x30028
def R.PWR_GOV_STATUS : Nat := 0x3002C
def R.PWR_POWERED : Nat := 0x30030
def R.PWR_SWITCH_CNT : Nat := 0x30034
def R.PWR_PWM_CFG (k : Nat) : Nat := 0x30038 + k * 0x4
def R.PWR_PWM_CURVE (k : Nat) : Nat := 0x30040 + k * 0x4
def R.PWR_COOLANT_CFG : Nat := 0x30048
def R.HKA_CFG : Nat := 0x30100
def R.HKA_CONV : Nat := 0x30104
def R.HKA_DATA : Nat := 0x30108
def R.HKA_MEAS_SEL : Nat := 0x3010C
def R.HKA_MEAS : Nat := 0x30110
def R.SNP_CTRL : Nat := 0x40000
def R.SNP_STATUS : Nat := 0x40004
def R.SNP_EVENTS : Nat := 0x40008
def R.SNP_IRQ_EN : Nat := 0x4000C
def R.SNP_TRIG_T : Nat := 0x40010
def R.SNP_TRIG : Nat := 0x40018
def R.SNP_RING_BASE : Nat := 0x4001C
def R.SNP_RING_SIZE : Nat := 0x40024
def R.SNP_RING_WR : Nat := 0x40028
def R.SNP_RING_RD : Nat := 0x4002C
def R.SNP_SEQ : Nat := 0x40030
def R.SNP_MISS_CNT : Nat := 0x40034
def R.CHK_EVENTS : Nat := 0x50000
def R.CHK_IRQ_EN : Nat := 0x50004
def R.CHK_FOREIGN_CNT : Nat := 0x50008
def R.CHK_Uu_CMD (k : Nat) : Nat := 0x50100 + k * 0x20
def R.CHK_Uu_DATA (k : Nat) : Nat := 0x50104 + k * 0x20
def R.CHK_Uu_VALUE (k : Nat) : Nat := 0x50108 + k * 0x20
def R.CHK_Uu_RESULT (k : Nat) : Nat := 0x5010C + k * 0x20
def R.CHK_Uu_STATUS (k : Nat) : Nat := 0x50110 + k * 0x20
def R.ERR_CTRL : Nat := 0x60000
def R.ERR_EVENTS : Nat := 0x60004
def R.ERR_IRQ_EN : Nat := 0x60008
def R.ERR_WR_SEQ : Nat := 0x6000C
def R.ERR_RD_SEQ : Nat := 0x60010
def R.ERR_LOST_CNT : Nat := 0x60014
def R.ERR_DROP_CNT : Nat := 0x60018
def R.ERR_ENTRY (k : Nat) : Nat := 0x68000 + k * 0x4
def R.IMG_STATUS : Nat := 0x80000
def R.IMG_EVENTS : Nat := 0x80004
def R.IMG_IRQ_EN : Nat := 0x80008
def R.IMG_FAULT : Nat := 0x8000C
def R.IMG_CMD : Nat := 0x80010
def R.IMG_PUSH_LEN : Nat := 0x80014
def R.IMG_PUSH_BASE : Nat := 0x80018
def R.IMG_FLASH_STATUS : Nat := 0x80020
def R.IMG_ATT_STATUS : Nat := 0x80024
def R.IMG_ATT_REQ : Nat := 0x80028
def R.IMG_LEAF : Nat := 0x80030
def R.IMG_HASH (k : Nat) : Nat := 0x80100 + k * 0x4
def R.TSK_CTRL : Nat := 0x100000
def R.TSK_EVENTS : Nat := 0x100004
def R.TSK_IRQ_EN : Nat := 0x100008
def R.TSK_GRAPH_BASE : Nat := 0x10000C
def R.TSK_STEP_GRAPH : Nat := 0x100014
def R.TSK_LAUNCH : Nat := 0x100018
def R.TSK_LAUNCH_STATUS : Nat := 0x10001C
def R.TSK_CMD : Nat := 0x100020
def R.TSK_DL_CFG : Nat := 0x100024
def R.TSK_DL_INFO : Nat := 0x100028
def R.TSK_CNT_SEL : Nat := 0x10002C
def R.TSK_CNT_VALUE : Nat := 0x100030
def R.TSK_CNT_ADD : Nat := 0x100034
def R.TSK_OVF_INFO : Nat := 0x100038
def R.TSK_WIN_STATUS (d : Nat) : Nat := 0x100100 + d * 0x8000
def R.TSK_DISPATCH_CNT (d : Nat) : Nat := 0x100104 + d * 0x8000
def R.TSK_ERR_CNT (d : Nat) : Nat := 0x10010C + d * 0x8000
def R.VEC_UNIT_EN (d : Nat) : Nat := 0x120000 + d * 0x8000
def R.VEC_STATUS (d : Nat) : Nat := 0x120004 + d * 0x8000
def R.VEC_FLAGS_ACC (d : Nat) : Nat := 0x120008 + d * 0x8000
def R.VEC_FLAG_IRQ_EN (d : Nat) : Nat := 0x12000C + d * 0x8000
def R.VEC_UNIT_SEL (d : Nat) : Nat := 0x120010 + d * 0x8000
def R.VEC_UNIT_STATE (d : Nat) : Nat := 0x120014 + d * 0x8000
def R.VEC_UNIT_FLAGS (d : Nat) : Nat := 0x120018 + d * 0x8000
def R.VEC_UNIT_SR (d : Nat) : Nat := 0x12001C + d * 0x8000
def R.VEC_UNIT_SRI (d : Nat) : Nat := 0x120020 + d * 0x8000
def R.VEC_SAT_CNT (d : Nat) : Nat := 0x120024 + d * 0x8000
def R.VEC_UFL_CNT (d : Nat) : Nat := 0x12002C + d * 0x8000
def R.VEC_NF_CNT (d : Nat) : Nat := 0x120034 + d * 0x8000
def R.VEC_FAULT (d : Nat) : Nat := 0x120038 + d * 0x8000
def R.MXE_CTRL (d : Nat) : Nat := 0x140000 + d * 0x8000
def R.MXE_STATUS (d : Nat) : Nat := 0x140004 + d * 0x8000
def R.MXE_EVENTS (d : Nat) : Nat := 0x140008 + d * 0x8000
def R.MXE_IRQ_EN (d : Nat) : Nat := 0x14000C + d * 0x8000
def R.MXE_CORE_EN (d k : Nat) : Nat := 0x140010 + d * 0x8000 + k * 0x4
def R.MXE_KSTEP_CNT (d : Nat) : Nat := 0x140020 + d * 0x8000
def R.MXE_STALL_CNT (d : Nat) : Nat := 0x140028 + d * 0x8000
def R.MXE_SAT_CNT (d : Nat) : Nat := 0x140030 + d * 0x8000
def R.MXE_UFL_CNT (d : Nat) : Nat := 0x140038 + d * 0x8000
def R.MXE_CLAMP_CNT (d : Nat) : Nat := 0x140040 + d * 0x8000
def R.MXE_OVF_CNT (d : Nat) : Nat := 0x140048 + d * 0x8000
def R.MXE_NF_CNT (d : Nat) : Nat := 0x14004C + d * 0x8000
def R.MXE_FAULT (d : Nat) : Nat := 0x140050 + d * 0x8000
def R.MXE_CORE_SEL (d : Nat) : Nat := 0x140054 + d * 0x8000
def R.MXE_CORE_STATE (d : Nat) : Nat := 0x140058 + d * 0x8000
def R.UPD_CTRL : Nat := 0x160000
def R.UPD_STATUS (d : Nat) : Nat := 0x160004 + d * 0x8000
def R.UPD_EVENTS : Nat := 0x160008
def R.UPD_IRQ_EN : Nat := 0x16000C
def R.UPD_STEP_SIZE : Nat := 0x160010
def R.UPD_STEP_SIZE_USED : Nat := 0x160014
def R.UPD_BETA1 : Nat := 0x160018
def R.UPD_BETA2 : Nat := 0x16001C
def R.UPD_KAPPA : Nat := 0x160020
def R.UPD_DECAY : Nat := 0x160024
def R.UPD_GRAD_MULT : Nat := 0x160028
def R.UPD_PROJ_HYST : Nat := 0x16002C
def R.UPD_NF_LIMIT : Nat := 0x160030
def R.UPD_SCHED_CFG : Nat := 0x160034
def R.UPD_SCHED_IDX : Nat := 0x160038
def R.UPD_SCHED_DATA : Nat := 0x16003C
def R.UPD_CMD : Nat := 0x160040
def R.UPD_PROJ_STEP : Nat := 0x160044
def R.UPD_ELEM_CNT (d : Nat) : Nat := 0x160100 + d * 0x8000
def R.UPD_NF_ELEM_CNT (d : Nat) : Nat := 0x160108 + d * 0x8000
def R.UPD_NF_BLOCK_CNT (d : Nat) : Nat := 0x16010C + d * 0x8000
def R.UPD_REM_UFL_CNT (d : Nat) : Nat := 0x160110 + d * 0x8000
def R.UPD_PROJ_CHG_CNT (d : Nat) : Nat := 0x160114 + d * 0x8000
def R.UPD_PROJ_NAN_CNT (d : Nat) : Nat := 0x16011C + d * 0x8000
def R.RED_CTRL : Nat := 0x180000
def R.RED_STATUS : Nat := 0x180004
def R.RED_EVENTS : Nat := 0x180008
def R.RED_IRQ_EN : Nat := 0x18000C
def R.RED_DEADLINE : Nat := 0x180010
def R.RED_EPOCH : Nat := 0x180014
def R.RED_CMD : Nat := 0x180018
def R.RED_LAST_ABORT : Nat := 0x18001C
def R.RED_LAST_SEQ : Nat := 0x180020
def R.RED_XTAB_BASE : Nat := 0x180024
def R.RED_STALE_CNT : Nat := 0x18002C
def R.RED_CHECK_CNT : Nat := 0x180030
def R.RED_CHk_STATUS (k : Nat) : Nat := 0x180100 + k * 0x20
def R.RED_CHk_SEND_PT (k : Nat) : Nat := 0x180104 + k * 0x20
def R.RED_CHk_DELIVER_PT (k : Nat) : Nat := 0x180108 + k * 0x20
def R.RED_CHk_PLAN (k : Nat) : Nat := 0x18010C + k * 0x20
def R.RED_CHk_STALL_CNT (k : Nat) : Nat := 0x180110 + k * 0x20
def R.RED_CHk_BUCKETS (k : Nat) : Nat := 0x180114 + k * 0x20
def R.MEM_CTRL : Nat := 0x1A0000
def R.MEM_EVENTS : Nat := 0x1A0004
def R.MEM_IRQ_EN : Nat := 0x1A0008
def R.MEM_SILT_TBL : Nat := 0x1A000C
def R.MEM_SILT_CMD : Nat := 0x1A0014
def R.MEM_SILT_ARG : Nat := 0x1A0018
def R.MEM_SILT_OPEN : Nat := 0x1A001C
def R.MEM_CACHE_CFG (d : Nat) : Nat := 0x1A0100 + d * 0x8000
def R.MEM_STASH_BASE (d : Nat) : Nat := 0x1A0104 + d * 0x8000
def R.MEM_STASH_SIZE (d : Nat) : Nat := 0x1A010C + d * 0x8000
def R.MEM_STASH_STATUS (d : Nat) : Nat := 0x1A0110 + d * 0x8000
def R.MEM_SPILL_BASE (d : Nat) : Nat := 0x1A0114 + d * 0x8000
def R.MEM_SPILL_SIZE (d : Nat) : Nat := 0x1A011C + d * 0x8000
def R.MEM_SILT_AREA (d : Nat) : Nat := 0x1A0120 + d * 0x8000
def R.MEM_SILT_SLOTS (d : Nat) : Nat := 0x1A0128 + d * 0x8000
def R.MEM_SILT_FREE (d : Nat) : Nat := 0x1A012C + d * 0x8000
def R.MEM_PF_MISS_CNT (d : Nat) : Nat := 0x1A0130 + d * 0x8000
def R.MEM_CE_CNT (d : Nat) : Nat := 0x1A0134 + d * 0x8000
def R.MEM_UE_CNT (d : Nat) : Nat := 0x1A0138 + d * 0x8000
def R.MEM_UE_ADDR (d : Nat) : Nat := 0x1A013C + d * 0x8000
def R.MEM_DMA_FAULT (d : Nat) : Nat := 0x1A0144 + d * 0x8000
def R.EZL_CTRL : Nat := 0x1C0000
def R.EZL_STATUS : Nat := 0x1C0004
def R.EZL_EVENTS : Nat := 0x1C0008
def R.EZL_IRQ_EN : Nat := 0x1C000C
def R.EZL_POD_CFG : Nat := 0x1C0010
def R.EZL_THRESH : Nat := 0x1C0014
def R.EZL_TIME_CFG : Nat := 0x1C0018
def R.EZL_TIME_STATUS : Nat := 0x1C001C
def R.EZL_TIME : Nat := 0x1C0020
def R.EZL_CMD : Nat := 0x1C0028
def R.EZL_REMOVED : Nat := 0x1C002C
def R.EZL_RELAY_STATUS : Nat := 0x1C0030
def R.EZL_Ll_STATUS (k : Nat) : Nat := 0x1C0100 + k * 0x40
def R.EZL_Ll_CRC_CNT (k : Nat) : Nat := 0x1C0104 + k * 0x40
def R.EZL_Ll_REPLAY_CNT (k : Nat) : Nat := 0x1C0108 + k * 0x40
def R.EZL_Ll_PROTO_CNT (k : Nat) : Nat := 0x1C010C + k * 0x40
def R.EZL_Ll_RETRAIN_CNT (k : Nat) : Nat := 0x1C0110 + k * 0x40
def R.EZL_Ll_LAST_NAK (k : Nat) : Nat := 0x1C0114 + k * 0x40
def R.EZL_Ll_FLITS (k : Nat) : Nat := 0x1C0118 + k * 0x40
def R.ARR_CTRL (d : Nat) : Nat := 0x200000 + d * 0x10000
def R.ARR_STATUS (d : Nat) : Nat := 0x200004 + d * 0x10000
def R.ARR_EVENTS (d : Nat) : Nat := 0x200008 + d * 0x10000
def R.ARR_GOV_CAP (d : Nat) : Nat := 0x20000C + d * 0x10000
def R.ARR_GOV_STATUS (d : Nat) : Nat := 0x200010 + d * 0x10000
def R.ARR_PASS_CNT (d : Nat) : Nat := 0x200014 + d * 0x10000
def R.ARR_CLIP_CNT (d : Nat) : Nat := 0x20001C + d * 0x10000
def R.ARR_NAN_CNT (d : Nat) : Nat := 0x200024 + d * 0x10000
def R.ARR_RANGE_CTRL (d : Nat) : Nat := 0x200028 + d * 0x10000
def R.ARR_RANGE_SEL (d : Nat) : Nat := 0x20002C + d * 0x10000
def R.ARR_RANGE_DATA (d : Nat) : Nat := 0x200030 + d * 0x10000
def R.ARR_CLIPG_SEL (d : Nat) : Nat := 0x200034 + d * 0x10000
def R.ARR_CLIPG_DATA (d : Nat) : Nat := 0x200038 + d * 0x10000
def R.ARR_DRIFT_CTRL (d : Nat) : Nat := 0x200100 + d * 0x10000
def R.ARR_DRIFT_CFG (d : Nat) : Nat := 0x200104 + d * 0x10000
def R.ARR_REFRESH_CFG (d : Nat) : Nat := 0x200108 + d * 0x10000
def R.ARR_DRIFT_STATUS (d : Nat) : Nat := 0x20010C + d * 0x10000
def R.ARR_DRIFT_EVENTS (d : Nat) : Nat := 0x200110 + d * 0x10000
def R.ARR_PROG_CMD (d : Nat) : Nat := 0x200114 + d * 0x10000
def R.ARR_PROG_STATUS (d : Nat) : Nat := 0x200118 + d * 0x10000
def R.ARR_TILE_SEL (d : Nat) : Nat := 0x20011C + d * 0x10000
def R.ARR_TILE_STATE (d : Nat) : Nat := 0x200120 + d * 0x10000
def R.ARR_POS_SEL (d : Nat) : Nat := 0x200124 + d * 0x10000
def R.ARR_POS_STATE (d : Nat) : Nat := 0x200128 + d * 0x10000
def R.ARR_POS_VER (d : Nat) : Nat := 0x20012C + d * 0x10000
def R.ARR_MS_MASK (d k : Nat) : Nat := 0x200130 + d * 0x10000 + k * 0x4
def R.ARR_ROWPROG (d : Nat) : Nat := 0x200140 + d * 0x10000
def R.DUTY_SPLIT : Nat := 0x300000
def R.DUTY_SPLIT_USED : Nat := 0x300004
def R.DUTY_STATUS : Nat := 0x300008
def R.DUTY_XT_BASE : Nat := 0x30000C
def R.DUTY_GF_BASE : Nat := 0x300014
def R.STEP_COUNT : Nat := 0x300100
def R.STEP_CTRL : Nat := 0x300108
def R.STEP_STATUS : Nat := 0x30010C
def R.STEP_EVENTS : Nat := 0x300110
def R.STEP_COMMIT_SEQ : Nat := 0x300114
def R.STEP_REC_HEAD : Nat := 0x300118
def R.STEP_IMG_SEQ : Nat := 0x30011C
def R.STEP_TRIM_VER : Nat := 0x300120
def R.STEP_DECIDE : Nat := 0x300124
def R.STEP_WIN_BASE : Nat := 0x300128
def R.STEP_FMT_CTRL : Nat := 0x300200
def R.STEP_FMT_STATUS : Nat := 0x300204
def R.STEP_FMT_THRESH : Nat := 0x300208
def R.STEP_SR_SEED : Nat := 0x30020C

/-! ### Rows of the register map, one list per block (R398, R400 and the field tables of each chapter) -/

/-- Registers of the `id` block: offset, count, stride, access, RW mask, RW mask of the _HI half, W1C mask, reset, pair. -/
def rowsId : List RegRow :=
  [⟨0x0, 1024, 0x4, .ro, 0x0, 0x0, 0x0, 0x0, false⟩,
   ⟨0x1000, 1, 0x4, .ro, 0x0, 0x0, 0x0, 0x0, false⟩]

/-- Registers of the `hif` block: offset, count, stride, access, RW mask, RW mask of the _HI half, W1C mask, reset, pair. -/
def rowsHif : List RegRow :=
  [⟨0x0, 1, 0x4, .rw, 0xFFFF0003, 0xFFFF0003, 0x0, 0x3E80000, false⟩,
   ⟨0x4, 1, 0x4, .ro, 0x0, 0x0, 0x0, 0x0, false⟩,
   ⟨0x8, 1, 0x4, .w1c, 0x0, 0x0, 0x7FF, 0x0, false⟩,
   ⟨0xC, 1, 0x4, .rw, 0x7FF, 0x7FF, 0x0, 0x5EC, false⟩,
   ⟨0x10, 1, 0x4, .rw, 0xC0000000, 0xFFFFFFFF, 0x0, 0x0, true⟩,
   ⟨0x18, 1, 0x4, .rw, 0xFFFFF000, 0xFFFFFFFF, 0x0, 0x0, true⟩,
   ⟨0x20, 1, 0x4, .rw, 0x7, 0x7, 0x0, 0x0, false⟩,
   ⟨0x24, 1, 0x4, .rw, 0xC3FF03FF, 0xC3FF03FF, 0x0, 0x0, false⟩,
   ⟨0x28, 1, 0x4, .rw, 0x3F, 0x3F, 0x0, 0x0, false⟩,
   ⟨0x2C, 1, 0x4, .rw, 0xF03F1FFF, 0xF03F1FFF, 0x0, 0x2, false⟩,
   ⟨0x30, 1, 0x4, .rw, 0xFFFFFFFF, 0xFFFFFFFF, 0x0, 0x0, true⟩,
   ⟨0x38, 1, 0x4, .rw, 0xFFFFFFFF, 0xFFFFFFFF, 0x0, 0x0, true⟩,
   ⟨0x40, 1, 0x4, .ro, 0x0, 0x0, 0x0, 0x40000000, false⟩,
   ⟨0x44, 1, 0x4, .rw, 0x3F, 0x3F, 0x0, 0x0, false⟩,
   ⟨0x48, 1, 0x4, .rw, 0x3FF00FF, 0x3FF00FF, 0x0, 0x0, false⟩,
   ⟨0x4C, 1, 0x4, .ro, 0x0, 0x0, 0x0, 0x0, false⟩,
   ⟨0x50, 1, 0x4, .ro, 0x0, 0x0, 0x0, 0x0, false⟩,
   ⟨0x54, 1, 0x4, .ro, 0x0, 0x0, 0x0, 0x0, false⟩,
   ⟨0x58, 1, 0x4, .rw, 0xFFC00000, 0xFFFFFFFF, 0x0, 0x0, true⟩,
   ⟨0x1000, 256, 0x4, .rw, 0xFFFFFFFF, 0xFFFFFFFF, 0x0, 0x0, false⟩,
   ⟨0x1800, 2, 0x4, .ro, 0x0, 0x0, 0x0, 0x0, false⟩]

/-- Registers of the `irq` block: offset, count, stride, access, RW mask, RW mask of the _HI half, W1C mask, reset, pair. -/
def rowsIrq : List RegRow :=
  [⟨0x0, 1, 0x4, .rw, 0xF1, 0xF1, 0x0, 0x0, false⟩,
   ⟨0x4, 1, 0x4, .ro, 0x0, 0x0, 0x0, 0x0, false⟩,
   ⟨0x8, 1, 0x4, .w1c, 0x0, 0x0, 0x7, 0x0, false⟩,
   ⟨0xC, 1, 0x4, .rw, 0x1FF, 0x1FF, 0x0, 0x0, false⟩,
   ⟨0x10, 1, 0x4, .rw, 0xFFC0000F, 0xFFC0000F, 0x0, 0x0, false⟩,
   ⟨0x14, 1, 0x4, .rw, 0xFFFFFFFF, 0xFFFFFFFF, 0x0, 0x0, false⟩,
   ⟨0x18, 1, 0x4, .rw, 0xFFFFFFFF, 0xFFFFFFFF, 0x0, 0x0, false⟩,
   ⟨0x1C, 1, 0x4, .rw, 0xFFFFFFFF, 0xFFFFFFFF, 0x0, 0x0, false⟩,
   ⟨0x20, 1, 0x4, .rw, 0xFFFFFFFF, 0xFFFFFFFF, 0x0, 0x3E80064, false⟩,
   ⟨0x24, 1, 0x4, .wo, 0x0, 0x0, 0x0, 0x0, false⟩,
   ⟨0x28, 1, 0x4, .ro, 0x0, 0x0, 0x0, 0x0, false⟩,
   ⟨0x100, 16, 0x4, .w1s, 0x0, 0x0, 0x0, 0x0, false⟩,
   ⟨0x140, 16, 0x4, .wo, 0x0, 0x0, 0x0, 0x0, false⟩,
   ⟨0x180, 16, 0x4, .rw, 0xFFFFFFFF, 0xFFFFFFFF, 0x0, 0x0, false⟩,
   ⟨0x1C0, 16, 0x4, .ro, 0x0, 0x0, 0x0, 0x0, false⟩,
   ⟨0x200, 16, 0x4, .ro, 0x0, 0x0, 0x0, 0x0, false⟩,
   ⟨0x300, 32, 0x4, .rw, 0xFFFFFFFF, 0xFFFFFFFF, 0x0, 0xFFFF0000, false⟩,
   ⟨0x380, 32, 0x4, .ro, 0x0, 0x0, 0x0, 0x0, false⟩,
   ⟨0x400, 4, 0x20, .ro, 0x0, 0x0, 0x0, 0x3FF, false⟩,
   ⟨0x404, 4, 0x20, .ro, 0x0, 0x0, 0x0, 0x3FF, false⟩,
   ⟨0x408, 4, 0x20, .rc, 0x0, 0x0, 0x0, 0x3FF, false⟩,
   ⟨0x40C, 4, 0x20, .wo, 0x0, 0x0, 0x0, 0x0, false⟩,
   ⟨0x410, 4, 0x20, .ro, 0x0, 0x0, 0x0, 0x0, true⟩,
   ⟨0x418, 4, 0x20, .wo, 0x0, 0x0, 0x0, 0x0, false⟩]

/-- Registers of the `pwr` block: offset, count, stride, access, RW mask, RW mask of the _HI half, W1C mask, reset, pair. -/
def rowsPwr : List RegRow :=
  [⟨0x0, 1, 0x4, .rw, 0xFFFF0000, 0xFFFF0000, 0x0, 0x10000, false⟩,
   ⟨0x4, 1, 0x4, .ro, 0x0, 0x0, 0x0, 0x0, false⟩,
   ⟨0x8, 1, 0x4, .w1c, 0x0, 0x0, 0x7FF, 0x0, false⟩,
   ⟨0xC, 1, 0x4, .rw, 0x7FF, 0x7FF, 0x0, 0x3F7, false⟩,
   ⟨0x10, 1, 0x4, .rw, 0x7FF, 0x7FF, 0x0, 0x3C5, false⟩,
   ⟨0x14, 1, 0x4, .wo, 0x0, 0x0, 0x0, 0x0, false⟩,
   ⟨0x18, 1, 0x4, .rw, 0xFFF, 0xFFF, 0x0, 0xA28, false⟩,
   ⟨0x1C, 1, 0x4, .rw, 0xFFFF03FF, 0xFFFF03FF, 0x0, 0x320A0064, false⟩,
   ⟨0x20, 1, 0x4, .rw, 0xFFFFFFFF, 0xFFFFFFFF, 0x0, 0x5F645F40, false⟩,
   ⟨0x24, 1, 0x4, .rw, 0xFFFFFF00, 0xFFFFFF00, 0x0, 0x696E6900, false⟩,
   ⟨0x28, 1, 0x4, .rw, 0x3FF001F, 0x3FF001F, 0x0, 0x3000010, false⟩,
   ⟨0x2C, 1, 0x4, .ro, 0x0, 0x0, 0x0, 0x30010F, false⟩,
   ⟨0x30, 1, 0x4, .ro, 0x0, 0x0, 0x0, 0x0, false⟩,
   ⟨0x34, 1, 0x4, .ro, 0x0, 0x0, 0x0, 0x0, false⟩,
   ⟨0x38, 2, 0x4, .rw, 0xE00FFFFF, 0xE00FFFFF, 0x0, 0x67FF, false⟩,
   ⟨0x40, 2, 0x4, .rw, 0xFFFFFFFF, 0xFFFFFFFF, 0x0, 0x285040FF, false⟩,
   ⟨0x48, 1, 0x4, .rw, 0xFFFF, 0xFFFF, 0x0, 0x2D0F, false⟩,
   ⟨0x100, 1, 0x4, .rw, 0x1, 0x1, 0x0, 0x0, false⟩,
   ⟨0x104, 1, 0x4, .wo, 0x0, 0x0, 0x0, 0x0, false⟩,
   ⟨0x108, 1, 0x4, .rc, 0x0, 0x0, 0x0, 0x0, false⟩,
   ⟨0x10C, 1, 0x4, .rw, 0xFF, 0xFF, 0x0, 0x0, false⟩,
   ⟨0x110, 1, 0x4, .ro, 0x0, 0x0, 0x0, 0x0, false⟩]

/-- Registers of the `snp` block: offset, count, stride, access, RW mask, RW mask of the _HI half, W1C mask, reset, pair. -/
def rowsSnp : List RegRow :=
  [⟨0x0, 1, 0x4, .rw, 0xFFFF1B, 0xFFFF1B, 0x0, 0xAF000, false⟩,
   ⟨0x4, 1, 0x4, .ro, 0x0, 0x0, 0x0, 0x0, false⟩,
   ⟨0x8, 1, 0x4, .w1c, 0x0, 0x0, 0x1F, 0x0, false⟩,
   ⟨0xC, 1, 0x4, .rw, 0x1F, 0x1F, 0x0, 0x1E, false⟩,
   ⟨0x10, 1, 0x4, .rw, 0xFFFFFFFF, 0xFFFFFFFF, 0x0, 0x0, true⟩,
   ⟨0x18, 1, 0x4, .wo, 0x0, 0x0, 0x0, 0x0, false⟩,
   ⟨0x1C, 1, 0x4, .rw, 0xFFF00000, 0xFFFFFFFF, 0x0, 0x0, true⟩,
   ⟨0x24, 1, 0x4, .rw, 0xFFFF, 0xFFFF, 0x0, 0x0, false⟩,
   ⟨0x28, 1, 0x4, .ro, 0x0, 0x0, 0x0, 0x0, false⟩,
   ⟨0x2C, 1, 0x4, .rw, 0xFFFFFFFF, 0xFFFFFFFF, 0x0, 0x0, false⟩,
   ⟨0x30, 1, 0x4, .ro, 0x0, 0x0, 0x0, 0x0, false⟩,
   ⟨0x34, 1, 0x4, .ro, 0x0, 0x0, 0x0, 0x0, false⟩]

/-- Registers of the `chk` block: offset, count, stride, access, RW mask, RW mask of the _HI half, W1C mask, reset, pair. -/
def rowsChk : List RegRow :=
  [⟨0x0, 1, 0x4, .w1c, 0x0, 0x0, 0x1, 0x0, false⟩,
   ⟨0x4, 1, 0x4, .rw, 0x1, 0x1, 0x0, 0x0, false⟩,
   ⟨0x8, 1, 0x4, .ro, 0x0, 0x0, 0x0, 0x0, false⟩,
   ⟨0x100, 16, 0x20, .wo, 0x0, 0x0, 0x0, 0x0, false⟩,
   ⟨0x104, 16, 0x20, .wo, 0x0, 0x0, 0x0, 0x0, false⟩,
   ⟨0x108, 16, 0x20, .rw, 0xFFFFFFFF, 0xFFFFFFFF, 0x0, 0xFFFFFFFF, false⟩,
   ⟨0x10C, 16, 0x20, .ro, 0x0, 0x0, 0x0, 0x0, false⟩,
   ⟨0x110, 16, 0x20, .ro, 0x0, 0x0, 0x0, 0xF000000, false⟩]

/-- Registers of the `err` block: offset, count, stride, access, RW mask, RW mask of the _HI half, W1C mask, reset, pair. -/
def rowsErr : List RegRow :=
  [⟨0x0, 1, 0x4, .rw, 0xFF, 0xFF, 0x0, 0xF4, false⟩,
   ⟨0x4, 1, 0x4, .w1c, 0x0, 0x0, 0x7, 0x0, false⟩,
   ⟨0x8, 1, 0x4, .rw, 0x7, 0x7, 0x0, 0x7, false⟩,
   ⟨0xC, 1, 0x4, .ro, 0x0, 0x0, 0x0, 0x0, false⟩,
   ⟨0x10, 1, 0x4, .rw, 0xFFFFFFFF, 0xFFFFFFFF, 0x0, 0x0, false⟩,
   ⟨0x14, 1, 0x4, .ro, 0x0, 0x0, 0x0, 0x0, false⟩,
   ⟨0x18, 1, 0x4, .ro, 0x0, 0x0, 0x0, 0x0, false⟩,
   ⟨0x8000, 8192, 0x4, .ro, 0x0, 0x0, 0x0, 0x0, false⟩]

/-- Registers of the `img` block: offset, count, stride, access, RW mask, RW mask of the _HI half, W1C mask, reset, pair. -/
def rowsImg : List RegRow :=
  [⟨0x0, 1, 0x4, .ro, 0x0, 0x0, 0x0, 0x1, false⟩,
   ⟨0x4, 1, 0x4, .w1c, 0x0, 0x0, 0x3F, 0x0, false⟩,
   ⟨0x8, 1, 0x4, .rw, 0x3F, 0x3F, 0x0, 0x2D, false⟩,
   ⟨0xC, 1, 0x4, .ro, 0x0, 0x0, 0x0, 0x0, false⟩,
   ⟨0x10, 1, 0x4, .wo, 0x0, 0x0, 0x0, 0x0, false⟩,
   ⟨0x14, 1, 0x4, .rw, 0xFFFFFFFF, 0xFFFFFFFF, 0x0, 0x0, false⟩,
   ⟨0x18, 1, 0x4, .rw, 0xF8000000, 0xFFFFFFFF, 0x0, 0x0, true⟩,
   ⟨0x20, 1, 0x4, .ro, 0x0, 0x0, 0x0, 0x0, false⟩,
   ⟨0x24, 1, 0x4, .ro, 0x0, 0x0, 0x0, 0x1, false⟩,
   ⟨0x28, 1, 0x4, .rw, 0xFFFFFFFF, 0xFFFFFFFF, 0x0, 0x0, true⟩,
   ⟨0x30, 1, 0x4, .ro, 0x0, 0x0, 0x0, 0x0, true⟩,
   ⟨0x100, 8, 0x4, .ro, 0x0, 0x0, 0x0, 0x0, false⟩]

/-- Registers of the `tsk` block: offset, count, stride, access, RW mask, RW mask of the _HI half, W1C mask, reset, pair. -/
def rowsTsk : List RegRow :=
  [⟨0x0, 1, 0x4, .rw, 0x7, 0x7, 0x0, 0x2, false⟩,
   ⟨0x4, 1, 0x4, .w1c, 0x0, 0x0, 0xFF, 0x0, false⟩,
   ⟨0x8, 1, 0x4, .rw, 0xFF, 0xFF, 0x0, 0xC7, false⟩,
   ⟨0xC, 1, 0x4, .rw, 0xFFFFF800, 0xFFFFFFFF, 0x0, 0x0, true⟩,
   ⟨0x14, 1, 0x4, .rw, 0x800000FF, 0x800000FF, 0x0, 0x0, false⟩,
   ⟨0x18, 1, 0x4, .wo, 0x0, 0x0, 0x0, 0x0, false⟩,
   ⟨0x1C, 1, 0x4, .ro, 0x0, 0x0, 0x0, 0x100000, false⟩,
   ⟨0x20, 1, 0x4, .wo, 0x0, 0x0, 0x0, 0x0, false⟩,
   ⟨0x24, 1, 0x4, .rw, 0xFFFF, 0xFFFF, 0x0, 0x3E8, false⟩,
   ⟨0x28, 1, 0x4, .ro, 0x0, 0x0, 0x0, 0x0, false⟩,
   ⟨0x2C, 1, 0x4, .rw, 0x7FF, 0x7FF, 0x0, 0x0, false⟩,
   ⟨0x30, 1, 0x4, .rw, 0xFFFFFFFF, 0xFFFFFFFF, 0x0, 0x0, false⟩,
   ⟨0x34, 1, 0x4, .wo, 0x0, 0x0, 0x0, 0x0, false⟩,
   ⟨0x38, 1, 0x4, .ro, 0x0, 0x0, 0x0, 0x0, false⟩,
   ⟨0x100, 1, 0x4, .ro, 0x0, 0x0, 0x0, 0x0, false⟩,
   ⟨0x104, 1, 0x4, .ro, 0x0, 0x0, 0x0, 0x0, true⟩,
   ⟨0x10C, 1, 0x4, .ro, 0x0, 0x0, 0x0, 0x0, false⟩]

/-- Registers of the `vec` block: offset, count, stride, access, RW mask, RW mask of the _HI half, W1C mask, reset, pair. -/
def rowsVec : List RegRow :=
  [⟨0x0, 1, 0x4, .rw, 0xFFFFFFFF, 0xFFFFFFFF, 0x0, 0x0, false⟩,
   ⟨0x4, 1, 0x4, .ro, 0x0, 0x0, 0x0, 0x0, false⟩,
   ⟨0x8, 1, 0x4, .w1c, 0x0, 0x0, 0x3FF, 0x0, false⟩,
   ⟨0xC, 1, 0x4, .rw, 0x3FF, 0x3FF, 0x0, 0x300, false⟩,
   ⟨0x10, 1, 0x4, .rw, 0x1F, 0x1F, 0x0, 0x0, false⟩,
   ⟨0x14, 1, 0x4, .ro, 0x0, 0x0, 0x0, 0x400000, false⟩,
   ⟨0x18, 1, 0x4, .ro, 0x0, 0x0, 0x0, 0x0, false⟩,
   ⟨0x1C, 1, 0x4, .ro, 0x0, 0x0, 0x0, 0x0, false⟩,
   ⟨0x20, 1, 0x4, .ro, 0x0, 0x0, 0x0, 0x0, false⟩,
   ⟨0x24, 1, 0x4, .ro, 0x0, 0x0, 0x0, 0x0, true⟩,
   ⟨0x2C, 1, 0x4, .ro, 0x0, 0x0, 0x0, 0x0, true⟩,
   ⟨0x34, 1, 0x4, .ro, 0x0, 0x0, 0x0, 0x0, false⟩,
   ⟨0x38, 1, 0x4, .ro, 0x0, 0x0, 0x0, 0x0, false⟩]

/-- Registers of the `mxe` block: offset, count, stride, access, RW mask, RW mask of the _HI half, W1C mask, reset, pair. -/
def rowsMxe : List RegRow :=
  [⟨0x0, 1, 0x4, .rw, 0x1, 0x1, 0x0, 0x0, false⟩,
   ⟨0x4, 1, 0x4, .ro, 0x0, 0x0, 0x0, 0x0, false⟩,
   ⟨0x8, 1, 0x4, .w1c, 0x0, 0x0, 0x3F, 0x0, false⟩,
   ⟨0xC, 1, 0x4, .rw, 0x3F, 0x3F, 0x0, 0x21, false⟩,
   ⟨0x10, 4, 0x4, .rw, 0xFFFFFFFF, 0xFFFFFFFF, 0x0, 0x0, false⟩,
   ⟨0x20, 1, 0x4, .ro, 0x0, 0x0, 0x0, 0x0, true⟩,
   ⟨0x28, 1, 0x4, .ro, 0x0, 0x0, 0x0, 0x0, true⟩,
   ⟨0x30, 1, 0x4, .ro, 0x0, 0x0, 0x0, 0x0, true⟩,
   ⟨0x38, 1, 0x4, .ro, 0x0, 0x0, 0x0, 0x0, true⟩,
   ⟨0x40, 1, 0x4, .ro, 0x0, 0x0, 0x0, 0x0, true⟩,
   ⟨0x48, 1, 0x4, .ro, 0x0, 0x0, 0x0, 0x0, false⟩,
   ⟨0x4C, 1, 0x4, .ro, 0x0, 0x0, 0x0, 0x0, false⟩,
   ⟨0x50, 1, 0x4, .ro, 0x0, 0x0, 0x0, 0x0, false⟩,
   ⟨0x54, 1, 0x4, .rw, 0x7F, 0x7F, 0x0, 0x0, false⟩,
   ⟨0x58, 1, 0x4, .ro, 0x0, 0x0, 0x0, 0x0, false⟩]

/-- Registers of the `upd` block: offset, count, stride, access, RW mask, RW mask of the _HI half, W1C mask, reset, pair. -/
def rowsUpd : List RegRow :=
  [⟨0x0, 1, 0x4, .rw, 0xC7, 0xC7, 0x0, 0x6, false⟩,
   ⟨0x4, 1, 0x4, .ro, 0x0, 0x0, 0x0, 0x0, false⟩,
   ⟨0x8, 1, 0x4, .w1c, 0x0, 0x0, 0x3FF, 0x0, false⟩,
   ⟨0xC, 1, 0x4, .rw, 0x3FF, 0x3FF, 0x0, 0x33, false⟩,
   ⟨0x10, 1, 0x4, .rw, 0xFFFFFFFF, 0xFFFFFFFF, 0x0, 0x0, false⟩,
   ⟨0x14, 1, 0x4, .ro, 0x0, 0x0, 0x0, 0x0, false⟩,
   ⟨0x18, 1, 0x4, .rw, 0xFFFFFFFF, 0xFFFFFFFF, 0x0, 0x3F666666, false⟩,
   ⟨0x1C, 1, 0x4, .rw, 0xFFFFFFFF, 0xFFFFFFFF, 0x0, 0x3F7FBE77, false⟩,
   ⟨0x20, 1, 0x4, .rw, 0xFFFFFFFF, 0xFFFFFFFF, 0x0, 0x322BCC77, false⟩,
   ⟨0x24, 1, 0x4, .rw, 0xFFFFFFFF, 0xFFFFFFFF, 0x0, 0x0, false⟩,
   ⟨0x28, 1, 0x4, .rw, 0xFFFFFFFF, 0xFFFFFFFF, 0x0, 0x3F800000, false⟩,
   ⟨0x2C, 1, 0x4, .rw, 0xFFFFFFFF, 0xFFFFFFFF, 0x0, 0x3DCCCCCD, false⟩,
   ⟨0x30, 1, 0x4, .rw, 0xFFFFFFFF, 0xFFFFFFFF, 0x0, 0x0, false⟩,
   ⟨0x34, 1, 0x4, .rw, 0xFFFF0001, 0xFFFF0001, 0x0, 0x10000, false⟩,
   ⟨0x38, 1, 0x4, .rw, 0xFFF, 0xFFF, 0x0, 0x0, false⟩,
   ⟨0x3C, 1, 0x4, .rw, 0xFFFFFFFF, 0xFFFFFFFF, 0x0, 0x0, false⟩,
   ⟨0x40, 1, 0x4, .wo, 0x0, 0x0, 0x0, 0x0, false⟩,
   ⟨0x44, 1, 0x4, .ro, 0x0, 0x0, 0x0, 0x0, true⟩,
   ⟨0x100, 1, 0x4, .ro, 0x0, 0x0, 0x0, 0x0, true⟩,
   ⟨0x108, 1, 0x4, .ro, 0x0, 0x0, 0x0, 0x0, false⟩,
   ⟨0x10C, 1, 0x4, .ro, 0x0, 0x0, 0x0, 0x0, false⟩,
   ⟨0x110, 1, 0x4, .ro, 0x0, 0x0, 0x0, 0x0, false⟩,
   ⟨0x114, 1, 0x4, .ro, 0x0, 0x0, 0x0, 0x0, true⟩,
   ⟨0x11C, 1, 0x4, .ro, 0x0, 0x0, 0x0, 0x0, false⟩]

/-- Registers of the `red` block: offset, count, stride, access, RW mask, RW mask of the _HI half, W1C mask, reset, pair. -/
def rowsRed : List RegRow :=
  [⟨0x0, 1, 0x4, .rw, 0xFF03, 0xFF03, 0x0, 0x0, false⟩,
   ⟨0x4, 1, 0x4, .ro, 0x0, 0x0, 0x0, 0x0, false⟩,
   ⟨0x8, 1, 0x4, .w1c, 0x0, 0x0, 0xFFF, 0x0, false⟩,
   ⟨0xC, 1, 0x4, .rw, 0xFFF, 0xFFF, 0x0, 0x41F, false⟩,
   ⟨0x10, 1, 0x4, .rw, 0xFFFFFF, 0xFFFFFF, 0x0, 0x20032, false⟩,
   ⟨0x14, 1, 0x4, .ro, 0x0, 0x0, 0x0, 0x0, false⟩,
   ⟨0x18, 1, 0x4, .wo, 0x0, 0x0, 0x0, 0x0, false⟩,
   ⟨0x1C, 1, 0x4, .ro, 0x0, 0x0, 0x0, 0xFF000000, false⟩,
   ⟨0x20, 1, 0x4, .ro, 0x0, 0x0, 0x0, 0xFFFFFFFF, false⟩,
   ⟨0x24, 1, 0x4, .rw, 0xFFFFF000, 0xFFFFFFFF, 0x0, 0x0, true⟩,
   ⟨0x2C, 1, 0x4, .ro, 0x0, 0x0, 0x0, 0x0, false⟩,
   ⟨0x30, 1, 0x4, .ro, 0x0, 0x0, 0x0, 0x0, false⟩,
   ⟨0x100, 8, 0x20, .ro, 0x0, 0x0, 0x0, 0x0, false⟩,
   ⟨0x104, 8, 0x20, .ro, 0x0, 0x0, 0x0, 0x0, false⟩,
   ⟨0x108, 8, 0x20, .ro, 0x0, 0x0, 0x0, 0x0, false⟩,
   ⟨0x10C, 8, 0x20, .ro, 0x0, 0x0, 0x0, 0x0, false⟩,
   ⟨0x110, 8, 0x20, .ro, 0x0, 0x0, 0x0, 0x0, false⟩,
   ⟨0x114, 8, 0x20, .ro, 0x0, 0x0, 0x0, 0x0, true⟩]

/-- Registers of the `mem` block: offset, count, stride, access, RW mask, RW mask of the _HI half, W1C mask, reset, pair. -/
def rowsMem : List RegRow :=
  [⟨0x0, 1, 0x4, .rw, 0x3, 0x3, 0x0, 0x0, false⟩,
   ⟨0x4, 1, 0x4, .w1c, 0x0, 0x0, 0x3FF, 0x0, false⟩,
   ⟨0x8, 1, 0x4, .rw, 0x3FF, 0x3FF, 0x0, 0x23B, false⟩,
   ⟨0xC, 1, 0x4, .rw, 0xFFFFF000, 0xFFFFFFFF, 0x0, 0x0, true⟩,
   ⟨0x14, 1, 0x4, .wo, 0x0, 0x0, 0x0, 0x0, false⟩,
   ⟨0x18, 1, 0x4, .rw, 0xFFFFFFFF, 0xFFFFFFFF, 0x0, 0x0, false⟩,
   ⟨0x1C, 1, 0x4, .ro, 0x0, 0x0, 0x0, 0x0, false⟩,
   ⟨0x100, 1, 0x4, .rw, 0xF, 0xF, 0x0, 0x8, false⟩,
   ⟨0x104, 1, 0x4, .rw, 0xFFFFF000, 0xFFFFFFFF, 0x0, 0x0, true⟩,
   ⟨0x10C, 1, 0x4, .rw, 0xFFFFFFFF, 0xFFFFFFFF, 0x0, 0x0, false⟩,
   ⟨0x110, 1, 0x4, .ro, 0x0, 0x0, 0x0, 0x0, false⟩,
   ⟨0x114, 1, 0x4, .rw, 0xFFFFFFFF, 0xFFFFFFFF, 0x0, 0x0, true⟩,
   ⟨0x11C, 1, 0x4, .rw, 0xFFFFFFFF, 0xFFFFFFFF, 0x0, 0x0, false⟩,
   ⟨0x120, 1, 0x4, .rw, 0xFFFFFFFF, 0xFFFFFFFF, 0x0, 0x0, true⟩,
   ⟨0x128, 1, 0x4, .rw, 0x3FFFFF, 0x3FFFFF, 0x0, 0x0, false⟩,
   ⟨0x12C, 1, 0x4, .ro, 0x0, 0x0, 0x0, 0x0, false⟩,
   ⟨0x130, 1, 0x4, .ro, 0x0, 0x0, 0x0, 0x0, false⟩,
   ⟨0x134, 1, 0x4, .ro, 0x0, 0x0, 0x0, 0x0, false⟩,
   ⟨0x138, 1, 0x4, .ro, 0x0, 0x0, 0x0, 0x0, false⟩,
   ⟨0x13C, 1, 0x4, .ro, 0x0, 0x0, 0x0, 0x0, true⟩,
   ⟨0x144, 1, 0x4, .ro, 0x0, 0x0, 0x0, 0x0, false⟩]

/-- Registers of the `ezl` block: offset, count, stride, access, RW mask, RW mask of the _HI half, W1C mask, reset, pair. -/
def rowsEzl : List RegRow :=
  [⟨0x0, 1, 0x4, .rw, 0xFFFFC003, 0xFFFFC003, 0x0, 0x0, false⟩,
   ⟨0x4, 1, 0x4, .ro, 0x0, 0x0, 0x0, 0x0, false⟩,
   ⟨0x8, 1, 0x4, .w1c, 0x0, 0x0, 0x7FF, 0x0, false⟩,
   ⟨0xC, 1, 0x4, .rw, 0x7FF, 0x7FF, 0x0, 0x72E, false⟩,
   ⟨0x10, 1, 0x4, .ro, 0x0, 0x0, 0x0, 0x0, false⟩,
   ⟨0x14, 1, 0x4, .rw, 0xFFFFFFFF, 0xFFFFFFFF, 0x0, 0x10040100, false⟩,
   ⟨0x18, 1, 0x4, .rw, 0xFFFFFFFF, 0xFFFFFFFF, 0x0, 0x8100A, false⟩,
   ⟨0x1C, 1, 0x4, .ro, 0x0, 0x0, 0x0, 0x1F00, false⟩,
   ⟨0x20, 1, 0x4, .ro, 0x0, 0x0, 0x0, 0x0, true⟩,
   ⟨0x28, 1, 0x4, .wo, 0x0, 0x0, 0x0, 0x0, false⟩,
   ⟨0x2C, 1, 0x4, .ro, 0x0, 0x0, 0x0, 0x0, false⟩,
   ⟨0x30, 1, 0x4, .ro, 0x0, 0x0, 0x0, 0x0, false⟩,
   ⟨0x100, 18, 0x40, .ro, 0x0, 0x0, 0x0, 0x0, false⟩,
   ⟨0x104, 18, 0x40, .ro, 0x0, 0x0, 0x0, 0x0, false⟩,
   ⟨0x108, 18, 0x40, .ro, 0x0, 0x0, 0x0, 0x0, false⟩,
   ⟨0x10C, 18, 0x40, .ro, 0x0, 0x0, 0x0, 0x0, false⟩,
   ⟨0x110, 18, 0x40, .ro, 0x0, 0x0, 0x0, 0x0, false⟩,
   ⟨0x114, 18, 0x40, .ro, 0x0, 0x0, 0x0, 0x0, false⟩,
   ⟨0x118, 18, 0x40, .ro, 0x0, 0x0, 0x0, 0x0, true⟩]

/-- Registers of the `arr` block: offset, count, stride, access, RW mask, RW mask of the _HI half, W1C mask, reset, pair. -/
def rowsArr : List RegRow :=
  [⟨0x0, 1, 0x4, .rw, 0x3F01, 0x3F01, 0x0, 0x2000, false⟩,
   ⟨0x4, 1, 0x4, .ro, 0x0, 0x0, 0x0, 0x0, false⟩,
   ⟨0x8, 1, 0x4, .w1c, 0x0, 0x0, 0xFF, 0x0, false⟩,
   ⟨0xC, 1, 0x4, .rw, 0x3FF, 0x3FF, 0x0, 0x200, false⟩,
   ⟨0x10, 1, 0x4, .rc, 0x0, 0x0, 0x0, 0x2000000, false⟩,
   ⟨0x14, 1, 0x4, .ro, 0x0, 0x0, 0x0, 0x0, true⟩,
   ⟨0x1C, 1, 0x4, .ro, 0x0, 0x0, 0x0, 0x0, true⟩,
   ⟨0x24, 1, 0x4, .ro, 0x0, 0x0, 0x0, 0x0, false⟩,
   ⟨0x28, 1, 0x4, .rw, 0xFFFFFFFF, 0xFFFFFFFF, 0x0, 0xE100010, false⟩,
   ⟨0x2C, 1, 0x4, .rw, 0x7FF, 0x7FF, 0x0, 0x0, false⟩,
   ⟨0x30, 1, 0x4, .rw, 0xFF07, 0xFF07, 0x0, 0x0, false⟩,
   ⟨0x34, 1, 0x4, .rw, 0x7F07FF, 0x7F07FF, 0x0, 0x0, false⟩,
   ⟨0x38, 1, 0x4, .rc, 0x0, 0x0, 0x0, 0x0, false⟩,
   ⟨0x100, 1, 0x4, .rw, 0x3F1F07, 0x3F1F07, 0x0, 0x201000, false⟩,
   ⟨0x104, 1, 0x4, .rw, 0xFFFFFFFF, 0xFFFFFFFF, 0x0, 0x400A0032, false⟩,
   ⟨0x108, 1, 0x4, .rw, 0xFFFFFF1F, 0xFFFFFF1F, 0x0, 0x78C81C04, false⟩,
   ⟨0x10C, 1, 0x4, .ro, 0x0, 0x0, 0x0, 0x0, false⟩,
   ⟨0x110, 1, 0x4, .w1c, 0x0, 0x0, 0x1FFF, 0x0, false⟩,
   ⟨0x114, 1, 0x4, .wo, 0x0, 0x0, 0x0, 0x0, false⟩,
   ⟨0x118, 1, 0x4, .ro, 0x0, 0x0, 0x0, 0x0, false⟩,
   ⟨0x11C, 1, 0x4, .rw, 0x7F, 0x7F, 0x0, 0x0, false⟩,
   ⟨0x120, 1, 0x4, .ro, 0x0, 0x0, 0x0, 0x100007FF, false⟩,
   ⟨0x124, 1, 0x4, .rw, 0x7FF, 0x7FF, 0x0, 0x0, false⟩,
   ⟨0x128, 1, 0x4, .ro, 0x0, 0x0, 0x0, 0x0, false⟩,
   ⟨0x12C, 1, 0x4, .ro, 0x0, 0x0, 0x0, 0x0, false⟩,
   ⟨0x130, 4, 0x4, .rw, 0xFFFFFFFF, 0xFFFFFFFF, 0x0, 0x0, false⟩,
   ⟨0x140, 1, 0x4, .ro, 0x0, 0x0, 0x0, 0x0, true⟩]

/-- Registers of the `duty` block: offset, count, stride, access, RW mask, RW mask of the _HI half, W1C mask, reset, pair. -/
def rowsDuty : List RegRow :=
  [⟨0x0, 1, 0x4, .rw, 0x3FFF, 0x3FFF, 0x0, 0x0, false⟩,
   ⟨0x4, 1, 0x4, .ro, 0x0, 0x0, 0x0, 0x0, false⟩,
   ⟨0x8, 1, 0x4, .ro, 0x0, 0x0, 0x0, 0x0, false⟩,
   ⟨0xC, 1, 0x4, .rw, 0xFFFFF000, 0xFFFFFFFF, 0x0, 0x0, true⟩,
   ⟨0x14, 1, 0x4, .rw, 0xFFFFF000, 0xFFFFFFFF, 0x0, 0x0, true⟩,
   ⟨0x100, 1, 0x4, .rw, 0xFFFFFFFF, 0xFFFFFFFF, 0x0, 0x0, true⟩,
   ⟨0x108, 1, 0x4, .rw, 0xF0FFF10F, 0xF0FFF10F, 0x0, 0x81003, false⟩,
   ⟨0x10C, 1, 0x4, .ro, 0x0, 0x0, 0x0, 0x0, false⟩,
   ⟨0x110, 1, 0x4, .w1c, 0x0, 0x0, 0x3FF, 0x0, false⟩,
   ⟨0x114, 1, 0x4, .ro, 0x0, 0x0, 0x0, 0x0, false⟩,
   ⟨0x118, 1, 0x4, .ro, 0x0, 0x0, 0x0, 0xFFF, false⟩,
   ⟨0x11C, 1, 0x4, .ro, 0x0, 0x0, 0x0, 0x0, false⟩,
   ⟨0x120, 1, 0x4, .ro, 0x0, 0x0, 0x0, 0x0, false⟩,
   ⟨0x124, 1, 0x4, .wo, 0x0, 0x0, 0x0, 0x0, false⟩,
   ⟨0x128, 1, 0x4, .rw, 0xC0000000, 0xFFFFFFFF, 0x0, 0x0, true⟩,
   ⟨0x200, 1, 0x4, .rw, 0xFFFFFFF1, 0xFFFFFFF1, 0x0, 0x7D01F40, false⟩,
   ⟨0x204, 1, 0x4, .ro, 0x0, 0x0, 0x0, 0x0, false⟩,
   ⟨0x208, 1, 0x4, .rw, 0xFFFFFF00, 0xFFFFFF00, 0x0, 0xA100800, false⟩,
   ⟨0x20C, 1, 0x4, .rw, 0xFFFFFFFF, 0xFFFFFFFF, 0x0, 0x0, true⟩]


/-- The block instances of R398. -/
inductive Blk where
  | id | hif | irq (d : Nat) | pwr | snp | chk | err | img | tsk (d : Nat) | vec (d : Nat) | mxe (d : Nat) | upd (d : Nat)
  | red | mem (d : Nat) | ezl | arr (n : Nat) | duty
deriving DecidableEq, Repr

/-- Base, span and instance of the blocks of R398, but for the Kaolin dies and DUTY_. -/
def blkTableLow : List (Nat × Nat × Blk) :=
  [(0x0, 0x2000, .id), (0x10000, 0x2000, .hif), (0x20000, 0x1000, .irq 0), (0x28000, 0x1000, .irq 1),
   (0x30000, 0x1000, .pwr), (0x40000, 0x1000, .snp), (0x50000, 0x1000, .chk), (0x60000, 0x10000, .err),
   (0x80000, 0x1000, .img), (0x100000, 0x1000, .tsk 0), (0x108000, 0x1000, .tsk 1),
   (0x120000, 0x1000, .vec 0), (0x128000, 0x1000, .vec 1), (0x140000, 0x1000, .mxe 0), (0x148000, 0x1000, .mxe 1),
   (0x160000, 0x1000, .upd 0), (0x168000, 0x1000, .upd 1), (0x180000, 0x1000, .red),
   (0x1A0000, 0x1000, .mem 0), (0x1A8000, 0x1000, .mem 1), (0x1C0000, 0x1000, .ezl)]

/-- The instances of the Kaolin dies. -/
def blkTableArr : List (Nat × Nat × Blk) :=
  (List.range 16).map (fun n => (0x200000 + n * 0x10000, 0x1000, Blk.arr n))

/-- Base, span and instance of every block of R398. -/
def blkTable : List (Nat × Nat × Blk) := (blkTableLow.append blkTableArr).append [(0x300000, 0x1000, Blk.duty)]

/-- The block instance whose span holds an address, with the offset in it. -/
def locate (a : Nat) : Option (Blk × Nat) :=
  (blkTable.find? (fun b => decide (b.1 ≤ a) && decide (a < b.1 + b.2.1))).map (fun b => (b.2.2, a - b.1))

/-- The register rows of a block. -/
def Blk.rows : Blk → List RegRow
  | .id => rowsId | .hif => rowsHif | .irq _ => rowsIrq | .pwr => rowsPwr | .snp => rowsSnp | .chk => rowsChk
  | .err => rowsErr | .img => rowsImg | .tsk _ => rowsTsk | .vec _ => rowsVec | .mxe _ => rowsMxe | .upd _ => rowsUpd
  | .red => rowsRed | .mem _ => rowsMem | .ezl => rowsEzl | .arr _ => rowsArr | .duty => rowsDuty

/-- The block code of R383; 0x04 for the span PWR_ and HKA_ share. -/
def Blk.code : Blk → Nat
  | .id => 0 | .hif => 1 | .irq d => 2 + d | .pwr => 4 | .snp => 5 | .chk => 6 | .err => 7 | .img => 8 | .duty => 9
  | .tsk d => 0xA + d | .vec d => 0xC + d | .mxe d => 0xE + d | .upd d => 0x10 + d | .red => 0x12 | .mem d => 0x13 + d
  | .ezl => 0x15 | .arr n => 0x20 + n

/-- Whether a row holds the offset (either half of a pair counts). -/
def RegRow.holds (r : RegRow) (off : Nat) : Bool :=
  decide (r.off ≤ off) && decide ((off - r.off) / r.stride < r.cnt)
    && (decide ((off - r.off) % r.stride = 0) || (r.pair && decide ((off - r.off) % r.stride = 4))
        || (r.pair && decide (r.cnt = 1) && decide (off - r.off = 4)))
  || (r.pair && decide (r.cnt = 1) && decide (off = r.off + 4))

/-- Whether the offset is the _HI half of the row's pair. -/
def RegRow.isHi (r : RegRow) (off : Nat) : Bool :=
  r.pair && (decide (off = r.off + 4) || (decide (1 < r.cnt) && decide ((off - r.off) % r.stride = 4)))

/-- Offsets 0x00 to 0xFF of the Damask 1 instances of TSK_, UPD_ and MEM_ alias those of Damask 0, but for UPD_STATUS (R398). -/
def canonAddr (a : Nat) : Nat :=
  if decide (0x108000 ≤ a) && decide (a < 0x108100) then a - 0x8000
  else if decide (0x168000 ≤ a) && decide (a < 0x168100) && decide (a ≠ 0x168004) then a - 0x8000
  else if decide (0x1A8000 ≤ a) && decide (a < 0x1A8100) then a - 0x8000
  else a

/-- The row that holds a 4-byte aligned address, with the block and the offset; none for an unassigned address (R399). -/
def rowAt (a : Nat) : Option (Blk × Nat × RegRow) :=
  match locate a with
  | none => none
  | some (b, off) => if a % 4 = 0 then (b.rows.find? (·.holds off)).map (fun r => (b, off, r)) else none

/-- The reset value of the register at an address (R8); every MSI-X vector is masked. -/
def regReset (a : Nat) : Word :=
  if decide (0x11000 ≤ a) && decide (a < 0x11400) then (if a % 16 = 12 then 1#32 else 0#32)
  else match rowAt a with
    | some (_, _, r) => BitVec.ofNat 32 r.reset
    | none => 0#32

end Sys2Proof.Machine
end

