-- ==== Sys2Proof/Machine/Bits.lean ====
section
/-! DEFINITION. Bit fields, little-endian byte strings, CRC-32C, SHA-256 and the 64-bit mixer of stochastic rounding. -/

namespace Sys2Proof.Machine

/-- Bits [hi:lo] of a natural number, as a number. -/
def bitsOf (v hi lo : Nat) : Nat := (v >>> lo) % 2 ^ (hi + 1 - lo)

/-- Field [hi:lo] of a register. -/
def fld (v : Word) (hi lo : Nat) : Nat := bitsOf v.toNat hi lo

/-- Bit `i` of a register. -/
def bitOf (v : Word) (i : Nat) : Bool := v.toNat.testBit i

/-- `v` with field [hi:lo] holding `n` (cut to the field's width). -/
def setFld (v : Word) (hi lo n : Nat) : Word :=
  let w := 2 ^ (hi + 1 - lo)
  BitVec.ofNat 32 (v.toNat - (bitsOf v.toNat hi lo) * 2 ^ lo + (n % w) * 2 ^ lo)

/-- `v` with bit `i` holding `b`. -/
def setBit (v : Word) (i : Nat) (b : Bool) : Word := setFld v i i b.toNat

/-- A word from (lo, value) pieces, each already within its field. -/
def packFields (l : List (Nat × Nat)) : Word :=
  BitVec.ofNat 32 (l.foldl (fun a p => a ||| (p.2 <<< p.1)) 0)

/-- Saturating add to a counter of `w` bits. -/
def satAdd (w a n : Nat) : Nat := min (a + n) (2 ^ w - 1)

/-- Two's-complement reading of the low `w` bits of `n`. -/
def sext (w n : Nat) : Int :=
  let m := n % 2 ^ w
  if m < 2 ^ (w - 1) then (m : Int) else (m : Int) - (2 ^ w : Nat)

/-- The low `w` bits of the two's-complement form of `z`. -/
def toTwos (w : Nat) (z : Int) : Nat := (z % ((2 ^ w : Nat) : Int)).toNat

/-- Clamp an integer into [lo, hi]. -/
def clampInt (lo hi z : Int) : Int := max lo (min hi z)

/-- The byte of a number. -/
def byteOf (n : Nat) : Byte := BitVec.ofNat 8 n

/-- `n` as `k` little-endian bytes. -/
def leBytes : Nat → Nat → List Byte
  | 0, _ => []
  | k + 1, n => byteOf n :: leBytes k (n / 256)

/-- `n` as `k` big-endian bytes. -/
def beBytes (k n : Nat) : List Byte := (leBytes k n).reverse

/-- The number a little-endian byte string holds. -/
def ofLe : List Byte → Nat
  | [] => 0
  | b :: bs => b.toNat + 256 * ofLe bs

/-- The number a big-endian byte string holds. -/
def ofBe (bs : List Byte) : Nat := bs.foldl (fun a b => a * 256 + b.toNat) 0

/-- `k` bytes of a string from offset `o`; bytes past its end read zero. -/
def sliceB (bs : List Byte) (o k : Nat) : List Byte :=
  let t := (bs.drop o).take k
  t ++ List.replicate (k - t.length) 0

/-- The little-endian number in `k` bytes at offset `o`. -/
def leAt (bs : List Byte) (o k : Nat) : Nat := ofLe (sliceB bs o k)

/-- A string padded with zero bytes to a multiple of `k`. -/
def padTo (k : Nat) (bs : List Byte) : List Byte :=
  bs ++ List.replicate ((k - bs.length % k) % k) 0

/-- Split into pieces of `k` elements; fuel bounds the number of pieces. -/
def chunksFuel {α : Type} (k : Nat) : Nat → List α → List (List α)
  | 0, _ => []
  | _ + 1, [] => []
  | n + 1, x :: xs => ((x :: xs).take k) :: chunksFuel k n ((x :: xs).drop k)

/-- Split into pieces of `k` elements (k positive). -/
def chunks {α : Type} (k : Nat) (l : List α) : List (List α) := chunksFuel k l.length l

/-- The least index in [0, n) at which `p` holds, if any. -/
def findIdxUpTo (n : Nat) (p : Nat → Bool) : Option Nat := (List.range n).find? p

/-- One bit of the reflected CRC-32C division (polynomial 0x82F63B78). -/
def crcBit (c : Nat) : Nat := if c % 2 = 1 then (c >>> 1) ^^^ 0x82F63B78 else c >>> 1

/-- Fold one byte into a CRC-32C running value. -/
def crcByte (c : Nat) (b : Byte) : Nat :=
  crcBit (crcBit (crcBit (crcBit (crcBit (crcBit (crcBit (crcBit (c ^^^ b.toNat))))))))

/-- Fold a byte string into a CRC-32C running value. -/
def crcFeed (c : Nat) (bs : List Byte) : Nat := bs.foldl crcByte c

/-- CRC-32C of a byte string: initial value all ones, final inversion (R380, R381 and wherever the spec says CRC-32C). -/
def crc32c (bs : List Byte) : Nat := (crcFeed 0xFFFFFFFF bs) ^^^ 0xFFFFFFFF

/-- The 64-bit mixer of R65. -/
def mix64 (z0 : Nat) : Nat :=
  let z1 := ((z0 ^^^ (z0 >>> 30)) * 0xBF58476D1CE4E5B9) % 2 ^ 64
  let z2 := ((z1 ^^^ (z1 >>> 27)) * 0x94D049BB133111EB) % 2 ^ 64
  z2 ^^^ (z2 >>> 31)

/-- The 16-bit uniform of R65 (k2[63:48]) for a seed, a step number, a tensor identifier and an element index. -/
def srUniform (seed step tensor index : Nat) : Nat :=
  let k1 := mix64 (seed ^^^ (step % 2 ^ 64))
  let k2 := mix64 (k1 ^^^ ((tensor * 2 ^ 40) % 2 ^ 64) ^^^ (index % 2 ^ 40))
  k2 >>> 48

/-! ### SHA-256 (FIPS 180-4), on 32-bit words held as natural numbers -/

/-- The `k` words of 32 bits that a number packs, the first one on top. -/
def packedWords : Nat → Nat → List Nat
  | 0, _ => []
  | k + 1, n => packedWords k (n / 2 ^ 32) ++ [n % 2 ^ 32]

/-- The 64 round constants of SHA-256: the fractions of the cube roots of the first 64 primes, eight words to a row. -/
def sha256K : List Nat :=
  [0x428A2F9871374491B5C0FBCFE9B5DBA53956C25B59F111F1923F82A4AB1C5ED5,
   0xD807AA9812835B01243185BE550C7DC372BE5D7480DEB1FE9BDC06A7C19BF174,
   0xE49B69C1EFBE47860FC19DC6240CA1CC2DE92C6F4A7484AA5CB0A9DC76F988DA,
   0x983E5152A831C66DB00327C8BF597FC7C6E00BF3D5A7914706CA635114292967,
   0x27B70A852E1B21384D2C6DFC53380D13650A7354766A0ABB81C2C92E92722C85,
   0xA2BFE8A1A81A664BC24B8B70C76C51A3D192E819D6990624F40E3585106AA070,
   0x19A4C1161E376C082748774C34B0BCB5391C0CB34ED8AA4A5B9CCA4F682E6FF3,
   0x748F82EE78A5636F84C878148CC7020890BEFFFAA4506CEBBEF9A3F7C67178F2].flatMap (packedWords 8)

/-- The initial hash value of SHA-256: the fractions of the square roots of the first 8 primes. -/
def sha256H0 : List Nat := packedWords 8 0x6A09E667BB67AE853C6EF372A54FF53A510E527F9B05688C1F83D9AB5BE0CD19

def shaAdd (a b : Nat) : Nat := (a + b) % 2 ^ 32
def shaRotr (n x : Nat) : Nat := ((x >>> n) ||| (x <<< (32 - n))) % 2 ^ 32

/-- Extend the last sixteen message words (newest first) by one word. -/
def shaExtend (w : List Nat) : Nat :=
  let g := fun i => w.getD i 0
  let s0 := shaRotr 7 (g 14) ^^^ shaRotr 18 (g 14) ^^^ ((g 14) >>> 3)
  let s1 := shaRotr 17 (g 1) ^^^ shaRotr 19 (g 1) ^^^ ((g 1) >>> 10)
  (g 15 + s0 + g 6 + s1) % 2 ^ 32

/-- The message words, newest first, extended `n` times. -/
def shaSchedule : Nat → List Nat → List Nat
  | 0, w => w
  | n + 1, w => shaSchedule n (shaExtend w :: w)

/-- One round on the eight working variables. -/
def shaRound (v : List Nat) (kw : Nat × Nat) : List Nat :=
  match v with
  | [a, b, c, d, e, f, g, h] =>
    let s1 := shaRotr 6 e ^^^ shaRotr 11 e ^^^ shaRotr 25 e
    let ch := (e &&& f) ^^^ ((e ^^^ 0xFFFFFFFF) &&& g)
    let t1 := (h + s1 + ch + kw.1 + kw.2) % 2 ^ 32
    let s0 := shaRotr 2 a ^^^ shaRotr 13 a ^^^ shaRotr 22 a
    let mj := (a &&& b) ^^^ (a &&& c) ^^^ (b &&& c)
    let t2 := (s0 + mj) % 2 ^ 32
    [shaAdd t1 t2, a, b, c, shaAdd d t1, e, f, g]
  | other => other

/-- One 64-byte block. -/
def shaBlock (h : List Nat) (blk : List Byte) : List Nat :=
  let w0 := (chunks 4 blk).map ofBe
  let w := (shaSchedule 48 w0.reverse).reverse
  let v := (sha256K.zip w).foldl shaRound h
  (h.zip v).map (fun p => shaAdd p.1 p.2)

/-- SHA-256 of a byte string: 32 bytes. -/
def sha256 (bs : List Byte) : List Byte :=
  let z := (119 - bs.length % 64) % 64
  let m := bs ++ [0x80#8] ++ List.replicate z 0 ++ beBytes 8 (8 * bs.length)
  ((chunks 64 m).foldl shaBlock sha256H0).flatMap (beBytes 4)

end Sys2Proof.Machine
end

