-- ==== Sys2Proof/Machine/Float.lean ====
section
/-! DEFINITION. Exact dyadic numbers and their rounding to binary floating-point formats: every arithmetic result is
formed exactly and then rounded once.  Formats: FP32, BF16 (R49), FP16 and FP64. -/

namespace Sys2Proof.Machine

/-- A number as the formats see it: NaN, an infinity, or (-1)^neg * m * 2^e exactly (m = 0 is a signed zero). -/
inductive XNum where
  | nan
  | inf (neg : Bool)
  | fin (neg : Bool) (m : Nat) (e : Int)
deriving DecidableEq, Repr

/-- How a conversion rounds: to nearest with ties to even, towards zero, away from zero, or stochastically with a 16-bit uniform (R64, R65). -/
inductive Rnd where
  | rne
  | rtz
  | away
  | sr (u : Nat)
deriving DecidableEq, Repr

/-- floor(log2 (m * 2^e)) for m positive. -/
def lg (m : Nat) (e : Int) : Int := (Nat.log2 m : Int) + e

/-- `m * 2^s` rounded to an integer. -/
def roundShift (r : Rnd) (m : Nat) (s : Int) : Nat :=
  if 0 ≤ s then m <<< s.toNat
  else
    let k := (-s).toNat
    let q := m >>> k
    let rem := m % 2 ^ k
    match r with
    | .rtz => q
    | .away => if rem = 0 then q else q + 1
    | .rne => if 2 * rem > 2 ^ k ∨ (2 * rem = 2 ^ k ∧ q % 2 = 1) then q + 1 else q
    | .sr u => (m * 2 ^ 16 + u * 2 ^ k) >>> (16 + k)

/-- The grid exponent of m * 2^e for a precision of `p` bits and a least quantum 2^qmin. -/
def quantum (p : Nat) (qmin : Int) (m : Nat) (e : Int) : Int := max (lg m e - ((p : Int) - 1)) qmin

/-- Rounded to `p` bits with least quantum 2^qmin: (integer, quantum exponent). -/
def roundGrid (p : Nat) (qmin : Int) (r : Rnd) (m : Nat) (e : Int) : Nat × Int :=
  if m = 0 then (0, qmin)
  else
    let q := quantum p qmin m e
    (roundShift r m (e - q), q)

/-- A binary floating-point format with infinities: `eb` exponent bits and `mb` fraction bits. -/
structure FF where
  eb : Nat
  mb : Nat
deriving DecidableEq, Repr

def FF.fp32 : FF := ⟨8, 23⟩
def FF.bf16 : FF := ⟨8, 7⟩
def FF.fp16 : FF := ⟨5, 10⟩
def FF.fp64 : FF := ⟨11, 52⟩

def FF.bias (f : FF) : Int := (2 ^ (f.eb - 1) - 1 : Nat)
/-- The exponent of the smallest subnormal. -/
def FF.qmin (f : FF) : Int := 1 - f.bias - f.mb
def FF.infCode (f : FF) : Nat := (2 ^ f.eb - 1) * 2 ^ f.mb
def FF.signBit (f : FF) : Nat := 2 ^ (f.eb + f.mb)
/-- The canonical quiet NaN (R50). -/
def FF.qnan (f : FF) : Nat := f.infCode + 2 ^ (f.mb - 1)

/-- The number a bit pattern stands for. -/
def FF.decode (f : FF) (b : Nat) : XNum :=
  let neg := b.testBit (f.eb + f.mb)
  let ex := (b >>> f.mb) % 2 ^ f.eb
  let fr := b % 2 ^ f.mb
  if ex = 2 ^ f.eb - 1 then (if fr = 0 then .inf neg else .nan)
  else if ex = 0 then .fin neg fr f.qmin
  else .fin neg (fr + 2 ^ f.mb) (f.qmin + ((ex : Int) - 1))

def FF.withSign (f : FF) (neg : Bool) (mag : Nat) : Nat := if neg then mag + f.signBit else mag

/-- The magnitude code of a finite number after rounding; at or above `infCode` it has overflowed. -/
def FF.magCode (f : FF) (r : Rnd) (m : Nat) (e : Int) : Nat :=
  let g := roundGrid (f.mb + 1) f.qmin r m e
  if g.1 = 0 then 0 else (g.2 - f.qmin).toNat * 2 ^ f.mb + g.1

/-- Round to the format: overflow goes to infinity (towards zero: to the largest finite), NaN is the canonical one. -/
def FF.encodeR (f : FF) (r : Rnd) : XNum → Nat
  | .nan => f.qnan
  | .inf neg => f.withSign neg f.infCode
  | .fin neg m e =>
    let c := f.magCode r m e
    if c < f.infCode then f.withSign neg c
    else if r = .rtz then f.withSign neg (f.infCode - 1)
    else f.withSign neg f.infCode

/-- Round to nearest, ties to even. -/
def FF.encode (f : FF) (x : XNum) : Nat := f.encodeR .rne x

namespace XNum

def zero : XNum := .fin false 0 0
def ofNat (n : Nat) : XNum := .fin false n 0
def ofInt (z : Int) : XNum := .fin (decide (z < 0)) z.natAbs 0
def isNan : XNum → Bool | .nan => true | _ => false
def isInf : XNum → Bool | .inf _ => true | _ => false
def isFinite : XNum → Bool | .fin _ _ _ => true | _ => false
def isZero : XNum → Bool | .fin _ m _ => m == 0 | _ => false
def isNeg : XNum → Bool | .nan => false | .inf n => n | .fin n _ _ => n

def neg : XNum → XNum
  | .nan => .nan
  | .inf n => .inf (!n)
  | .fin n m e => .fin (!n) m e

def abs : XNum → XNum
  | .nan => .nan
  | .inf _ => .inf false
  | .fin _ m e => .fin false m e

/-- Multiply by 2^k exactly. -/
def scale (k : Int) : XNum → XNum
  | .fin n m e => .fin n m (e + k)
  | x => x

/-- The signed integer of a finite number in units of 2^q, q at most its exponent. -/
def unitsAt (q : Int) (n : Bool) (m : Nat) (e : Int) : Int :=
  let v : Int := ((m <<< (e - q).toNat : Nat) : Int)
  if n then -v else v

/-- Exact sum; x + (-x) is +0, and (-0) + (-0) is -0. -/
def add : XNum → XNum → XNum
  | .nan, _ => .nan
  | _, .nan => .nan
  | .inf a, .inf b => if a = b then .inf a else .nan
  | .inf a, .fin _ _ _ => .inf a
  | .fin _ _ _, .inf b => .inf b
  | .fin n1 m1 e1, .fin n2 m2 e2 =>
    if m1 = 0 ∧ m2 = 0 then .fin (n1 && n2) 0 0
    else if m1 = 0 then .fin n2 m2 e2
    else if m2 = 0 then .fin n1 m1 e1
    else
      let q := min e1 e2
      let z := unitsAt q n1 m1 e1 + unitsAt q n2 m2 e2
      .fin (decide (z < 0)) z.natAbs q

def sub (a b : XNum) : XNum := add a (neg b)

/-- Exact product. -/
def mul : XNum → XNum → XNum
  | .nan, _ => .nan
  | _, .nan => .nan
  | .inf a, .inf b => .inf (a != b)
  | .inf a, .fin n m _ => if m = 0 then .nan else .inf (a != n)
  | .fin n m _, .inf b => if m = 0 then .nan else .inf (n != b)
  | .fin n1 m1 e1, .fin n2 m2 e2 => .fin (n1 != n2) (m1 * m2) (e1 + e2)

/-- a * b + c formed exactly. -/
def fma (a b c : XNum) : XNum := add (mul a b) c

/-- Quotient to 200 bits with a sticky last bit: exact enough for one rounding to any format here. -/
def div : XNum → XNum → XNum
  | .nan, _ => .nan
  | _, .nan => .nan
  | .inf _, .inf _ => .nan
  | .inf a, .fin n _ _ => .inf (a != n)
  | .fin n _ _, .inf b => .fin (n != b) 0 0
  | .fin n1 m1 e1, .fin n2 m2 e2 =>
    if m2 = 0 then (if m1 = 0 then .nan else .inf (n1 != n2))
    else
      let k := 200 + Nat.log2 m2
      let a := m1 <<< k
      let q := a / m2
      let st := if a % m2 = 0 then 0 else 1
      .fin (n1 != n2) (2 * q + st) (e1 - e2 - (k : Int) - 1)

/-- Integer square root by digits: `k` result bits remain. -/
def isqrtFrom (n : Nat) : Nat → Nat → Nat
  | 0, r => r
  | k + 1, r =>
    let t := r + 2 ^ k
    if t * t ≤ n then isqrtFrom n k t else isqrtFrom n k r

/-- Integer square root. -/
def isqrt (n : Nat) : Nat := isqrtFrom n (Nat.log2 n / 2 + 1) 0

/-- Square root with a sticky last bit. -/
def sqrt : XNum → XNum
  | .nan => .nan
  | .inf n => if n then .nan else .inf false
  | .fin n m e =>
    if m = 0 then .fin n 0 0
    else if n then .nan
    else
      let k : Nat := 160 + (if (e % 2 = 0) then 0 else 1)
      let a := m <<< k
      let r := isqrt a
      let st := if r * r = a then 0 else 1
      .fin false (2 * r + st) ((e - (k : Int)) / 2 - 1)

/-- a < b; false where either is NaN. -/
def lt : XNum → XNum → Bool
  | .nan, _ => false
  | _, .nan => false
  | .inf a, .inf b => a && !b
  | .inf a, .fin _ _ _ => a
  | .fin _ _ _, .inf b => !b
  | .fin n1 m1 e1, .fin n2 m2 e2 =>
    let q := min e1 e2
    decide (unitsAt q n1 m1 e1 < unitsAt q n2 m2 e2)

/-- a = b as numbers; false where either is NaN. -/
def eq : XNum → XNum → Bool
  | .nan, _ => false
  | _, .nan => false
  | .inf a, .inf b => a == b
  | .inf _, .fin _ _ _ => false
  | .fin _ _ _, .inf _ => false
  | .fin n1 m1 e1, .fin n2 m2 e2 =>
    let q := min e1 e2
    decide (unitsAt q n1 m1 e1 = unitsAt q n2 m2 e2)

def le (a b : XNum) : Bool := lt a b || eq a b

/-- A finite number rounded to an integer. -/
def roundInt (r : Rnd) : XNum → Int
  | .fin n m e =>
    let v : Int := (roundShift r m e : Nat)
    if n then -v else v
  | _ => 0

/-- floor of a finite number. -/
def floorInt : XNum → Int
  | .fin n m e =>
    if 0 ≤ e then (if n then -((m <<< e.toNat : Nat) : Int) else ((m <<< e.toNat : Nat) : Int))
    else
      let z : Int := if n then -(m : Int) else (m : Int)
      Int.fdiv z ((2 ^ (-e).toNat : Nat) : Int)
  | _ => 0

/-- The larger of two numbers that are not NaN. -/
def max (a b : XNum) : XNum := if lt a b then b else a
def min (a b : XNum) : XNum := if lt b a then b else a

/-- The decimal ratio a / b as a number (sticky). -/
def ratio (a b : Nat) : XNum := div (ofNat a) (ofNat b)

end XNum

/-- The number an FP32 word stands for. -/
def f32 (w : Word) : XNum := FF.fp32.decode w.toNat
/-- A number rounded to FP32. -/
def toF32 (x : XNum) : Word := BitVec.ofNat 32 (FF.fp32.encode x)
/-- The number a BF16 pattern stands for. -/
def bf16 (n : Nat) : XNum := FF.bf16.decode n
/-- A number rounded to BF16. -/
def toBf16 (x : XNum) : Nat := FF.bf16.encode x
/-- The number an FP16 pattern stands for. -/
def fp16 (n : Nat) : XNum := FF.fp16.decode n
/-- A number rounded to FP16. -/
def toFp16 (x : XNum) : Nat := FF.fp16.encode x

/-- FP32 operations: one exact result, one rounding. -/
def f32Add (a b : Word) : Word := toF32 ((f32 a).add (f32 b))
def f32Sub (a b : Word) : Word := toF32 ((f32 a).sub (f32 b))
def f32Mul (a b : Word) : Word := toF32 ((f32 a).mul (f32 b))
def f32Fma (a b c : Word) : Word := toF32 (XNum.fma (f32 a) (f32 b) (f32 c))
def f32Div (a b : Word) : Word := toF32 ((f32 a).div (f32 b))
def f32Sqrt (a : Word) : Word := toF32 (f32 a).sqrt

end Sys2Proof.Machine
end

