-- ==== Sys2Proof/Machine/Formats.lean ====
section
/-! DEFINITION. The module's narrow formats: format codes (R48), element formats (R52, R53), block layout (R54), Gauze
sidecars (R55, R56), integer formats (R57 to R59), conversion by input class (R62), stochastic rounding (R65), and the choice of
tensor and block exponents (R67, R68). -/

namespace Sys2Proof.Machine

/-- The format codes of R48. -/
inductive Fmt where
  | fp32 | bf16 | e4m3 | e5m2 | e2m3 | e3m2 | e2m1 | gauze4 | gauze3 | int2 | int3 | int4 | int8 | code | i24 | i32
deriving DecidableEq, Repr

def Fmt.ofCode : Nat → Option Fmt
  | 0 => some .fp32 | 1 => some .bf16 | 2 => some .e4m3 | 3 => some .e5m2 | 4 => some .e2m3 | 5 => some .e3m2
  | 6 => some .e2m1 | 7 => some .gauze4 | 8 => some .gauze3 | 9 => some .int2 | 10 => some .int3 | 11 => some .int4
  | 12 => some .int8 | 13 => some .code | 14 => some .i24 | 15 => some .i32 | _ => none

def Fmt.toCode : Fmt → Nat
  | .fp32 => 0 | .bf16 => 1 | .e4m3 => 2 | .e5m2 => 3 | .e2m3 => 4 | .e3m2 => 5 | .e2m1 => 6 | .gauze4 => 7
  | .gauze3 => 8 | .int2 => 9 | .int3 => 10 | .int4 => 11 | .int8 => 12 | .code => 13 | .i24 => 14 | .i32 => 15

/-- A scaled format: blocks of 32 elements with an E8M0 scale. -/
def Fmt.scaled : Fmt → Bool
  | .fp32 | .bf16 | .code | .i24 | .i32 => false
  | _ => true

/-- Bits of one element field (R54). -/
def Fmt.width : Fmt → Nat
  | .fp32 | .i32 => 32 | .bf16 => 16 | .e4m3 | .e5m2 | .int8 | .code => 8 | .e2m3 | .e3m2 => 6
  | .e2m1 | .gauze4 | .int4 => 4 | .gauze3 | .int3 => 3 | .int2 => 2 | .i24 => 24

def Fmt.gauze : Fmt → Bool
  | .gauze4 | .gauze3 => true
  | _ => false

def Fmt.isInt : Fmt → Bool
  | .int2 | .int3 | .int4 | .int8 => true
  | _ => false

/-- Bytes of one block of 32 elements (R54), or of one element of an unscaled format. -/
def Fmt.blockBytes (f : Fmt) : Nat :=
  if f.scaled then 1 + 4 * f.width + (if f.gauze then 4 else 0) else f.width / 8

/-- Bytes that `n` elements occupy, in whole blocks. -/
def Fmt.bytesFor (f : Fmt) (n : Nat) : Nat :=
  if f.scaled then ((n + 31) / 32) * f.blockBytes else n * f.blockBytes

/-- A grid of magnitudes: precision in bits, least quantum 2^qmin, fraction bits of its codes, largest code, sign bit. -/
structure Grid where
  p : Nat
  qmin : Int
  mb : Nat
  maxCode : Nat
  sign : Nat
deriving DecidableEq, Repr

/-- The element grid of a scaled format (R52, R53, R56, R57). -/
def Fmt.grid : Fmt → Grid
  | .e4m3 => ⟨4, -9, 3, 0x7E, 7⟩
  | .e5m2 => ⟨3, -16, 2, 0x7B, 7⟩
  | .e2m3 => ⟨4, -3, 3, 0x1F, 5⟩
  | .e3m2 => ⟨3, -4, 2, 0x1F, 5⟩
  | .e2m1 | .gauze4 => ⟨2, -1, 1, 0x7, 3⟩
  | .gauze3 => ⟨2, -1, 1, 0x3, 2⟩
  | .int2 => ⟨8, 0, 8, 1, 1⟩
  | .int3 => ⟨8, 0, 8, 3, 2⟩
  | .int4 => ⟨8, 0, 8, 7, 3⟩
  | .int8 => ⟨8, 0, 8, 127, 7⟩
  | _ => ⟨8, 0, 8, 127, 7⟩

/-- The magnitude a grid code stands for: (m, e). -/
def Grid.mag (g : Grid) (c : Nat) : Nat × Int :=
  let ex := c >>> g.mb
  if ex = 0 then (c, g.qmin) else (c % 2 ^ g.mb + 2 ^ g.mb, g.qmin + ((ex : Int) - 1))

/-- The magnitude code a magnitude rounds to, before saturation. -/
def Grid.code (g : Grid) (r : Rnd) (m : Nat) (e : Int) : Nat :=
  let x := roundGrid g.p g.qmin r m e
  if x.1 = 0 then 0 else (x.2 - g.qmin).toNat * 2 ^ g.mb + x.1

/-- M of R52 as (m, e). -/
def Fmt.maxMag (f : Fmt) : Nat × Int := f.grid.mag f.grid.maxCode

/-- The result of encoding one element. -/
structure ElemEnc where
  field : Nat := 0
  sat : Bool := false
  ufl : Bool := false
  nonfinite : Bool := false
deriving DecidableEq, Repr

/-- One finite magnitude into an element field (R62): saturation after rounding, underflow where a nonzero value rounds to 0. -/
def Fmt.encodeFinite (f : Fmt) (r : Rnd) (neg : Bool) (m : Nat) (e : Int) : ElemEnc :=
  let g := f.grid
  let c := g.code r m e
  let s := decide (g.maxCode < c)
  let c' := if s then g.maxCode else c
  let fieldv :=
    if f.isInt then (if neg then (2 ^ f.width - c') % 2 ^ f.width else c')
    else if neg then c' + 2 ^ g.sign else c'
  ⟨fieldv, s, decide (0 < m) && decide (c = 0), false⟩

/-- The number an element field stands for, in units of the block scale. -/
def Fmt.decodeElem (f : Fmt) (fieldv : Nat) : XNum :=
  if f.isInt then XNum.ofInt (sext f.width fieldv)
  else
    let g := f.grid
    let neg := fieldv.testBit g.sign
    let c := fieldv % 2 ^ g.sign
    match f with
    | .e4m3 => if c = 0x7F then .nan else let x := g.mag c; .fin neg x.1 x.2
    | .e5m2 => if c = 0x7C then .inf neg else if 0x7C < c then .nan else let x := g.mag c; .fin neg x.1 x.2
    | _ => let x := g.mag c; .fin neg x.1 x.2

/-- The counts one block's conversion adds (R62, R56): `sat` holds every saturation, and `sideOvf` those of them that come under the
sidecar-overflow count. -/
structure EncCount where
  sat : Nat := 0
  sideOvf : Nat := 0
  ufl : Nat := 0
  nonfinite : Nat := 0
deriving DecidableEq, Repr

def EncCount.add (a b : EncCount) : EncCount :=
  ⟨a.sat + b.sat, a.sideOvf + b.sideOvf, a.ufl + b.ufl, a.nonfinite + b.nonfinite⟩

/-- Little-endian packing of element fields of `w` bits (R54). -/
def packElems (w : Nat) (l : List Nat) : Nat := l.foldr (fun v a => v + a * 2 ^ w) 0

/-- Magnitude comparison: |a| > m * 2^e. -/
def magAbove (m : Nat) (e : Int) : XNum → Bool
  | .fin _ m1 e1 => XNum.lt (.fin false m e) (.fin false m1 e1)
  | _ => false

/-- The largest finite magnitude of a list, zero for none. -/
def maxFinite (l : List XNum) : XNum :=
  l.foldl (fun a x => if x.isFinite then (if XNum.lt a x.abs then x.abs else a) else a) XNum.zero

/-- Finite magnitudes in falling order. -/
def sortedMags (l : List XNum) : List XNum :=
  let ins := fun (acc : List XNum) (x : XNum) =>
    (acc.takeWhile (fun y => XNum.le x y)) ++ [x] ++ (acc.dropWhile (fun y => XNum.le x y))
  (l.filter XNum.isFinite).foldl (fun acc x => ins acc x.abs) []

/-- The smallest integer X with a <= M * 2^X, for a positive magnitude (R67, R68). -/
def smallestExp (a : XNum) (mM : Nat × Int) : Int :=
  match a with
  | .fin _ m e =>
    if m = 0 then -1000
    else
      let x := lg m e - lg mM.1 mM.2
      if XNum.le (.fin false m e) (.fin false mM.1 (mM.2 + x)) then x else x + 1
  | _ => 127

/-- Block exponent of R68. -/
def blockExp (f : Fmt) (xt : Int) (descent : Bool) (l : List XNum) : Int :=
  if descent then
    let a := if f.gauze then (sortedMags l).getD 2 XNum.zero else maxFinite l
    if a.isZero then xt else min xt (max (-127) (smallestExp a f.maxMag))
  else xt

/-- A rounding choice per element index. -/
abbrev RndAt := Nat → Rnd

/-- Round to nearest everywhere. -/
def rneAt : RndAt := fun _ => .rne

/-- The two candidates of greatest magnitude, ties to the lower position, in ascending order of position (R56). -/
def outliers (f : Fmt) (xs : List XNum) : List Nat :=
  let mM := f.maxMag
  let cand := (List.range xs.length).filter (fun i => magAbove mM.1 mM.2 (xs.getD i XNum.zero))
  let best := fun (l : List Nat) =>
    l.foldl (fun (b : Option Nat) i => match b with
      | none => some i
      | some j => if XNum.lt (xs.getD j XNum.zero).abs (xs.getD i XNum.zero).abs then some i else some j) none
  match best cand with
  | none => []
  | some a =>
    match best (cand.filter (· ≠ a)) with
    | none => [a]
    | some b => if a < b then [a, b] else [b, a]

/-- One block of 32 values with block exponent X (R54 to R57, R62); `keep` says which outliers of a Gauze block have room (R266).
DESIGN CHOICE: the spec does not say what fills the last block of a line whose length is no multiple of 32; the elements missing from it
are +0. -/
def encodeBlockK (f : Fmt) (x : Int) (rnd : RndAt) (keep : Nat → Bool) (vals : List XNum) : List Byte × EncCount :=
  let vs := (vals ++ List.replicate (32 - vals.length) XNum.zero).map (XNum.scale (-x))
  let nf := (vs.filter (fun v => !v.isFinite)).length
  let scaleB := byteOf (x + 127).toNat
  match f with
  | .e4m3 | .e5m2 =>
    let enc := fun (i : Nat) => match vs.getD i XNum.zero with
      | .fin n m e => f.encodeFinite (rnd i) n m e
      | .inf n => if f = Fmt.e5m2 then ⟨if n then 0xFC else 0x7C, false, false, false⟩ else ⟨0x7F, false, false, true⟩
      | .nan => ⟨if f = Fmt.e5m2 then 0x7E else 0x7F, false, false, true⟩
    let es := (List.range 32).map enc
    (scaleB :: es.map (fun e => byteOf e.field),
     ⟨(es.filter (·.sat)).length, 0, (es.filter (·.ufl)).length, (es.filter (·.nonfinite)).length⟩)
  | _ =>
    if 0 < nf then (0xFF#8 :: List.replicate (f.blockBytes - 1) 0, ⟨0, 0, 0, nf⟩)
    else
      let outs := if f.gauze then (outliers f vs).filter keep else []
      let mM := f.maxMag
      let enc := fun (i : Nat) =>
        if outs.contains i then (⟨0, false, false, false⟩ : ElemEnc)
        else match vs.getD i XNum.zero with
          | .fin n m e =>
            if f.gauze && magAbove mM.1 mM.2 (.fin n m e) then
              ⟨(if n then f.grid.maxCode + 2 ^ f.grid.sign else f.grid.maxCode), true, false, false⟩
            else f.encodeFinite (rnd i) n m e
          | _ => ⟨0, false, false, false⟩
      let es := (List.range 32).map enc
      let elems := leBytes (4 * f.width) (packElems f.width (es.map (·.field)))
      let side := outs.map (fun i => match vs.getD i XNum.zero with
        | .fin n m e => (i, Fmt.e4m3.encodeFinite (rnd i) n m e)
        | _ => (i, ⟨0, false, false, false⟩))
      let sideBytes := if f.gauze then
          (side.flatMap (fun p => [byteOf (0x80 + p.1), byteOf p.2.field]))
            ++ List.replicate (4 - 2 * side.length) 0
        else []
      let beyond := (List.range 32).filter (fun i => !outs.contains i && f.gauze
        && magAbove mM.1 mM.2 (vs.getD i XNum.zero))
      (scaleB :: elems ++ sideBytes,
       ⟨(es.filter (·.sat)).length + (side.filter (·.2.sat)).length, beyond.length,
        (es.filter (·.ufl)).length + (side.filter (·.2.ufl)).length, 0⟩)

/-- A block with all its outliers. -/
def encodeBlock (f : Fmt) (x : Int) (rnd : RndAt) (vals : List XNum) : List Byte × EncCount := encodeBlockK f x rnd (fun _ => true) vals

/-- The 32 numbers of a block, before rounding to FP32 (R55, R61). -/
def decodeBlockNum (f : Fmt) (bs : List Byte) : List XNum :=
  let sc := (bs.getD 0 0).toNat
  if sc = 0xFF then List.replicate 32 .nan
  else
    let x : Int := (sc : Int) - 127
    let bitsv := ofLe ((bs.drop 1).take (4 * f.width))
    let side := fun (k : Nat) =>
      let o := 1 + 4 * f.width + 2 * k
      ((bs.getD o 0).toNat, (bs.getD (o + 1) 0).toNat)
    let s0 := side 0
    let s1 := side 1
    (List.range 32).map (fun i =>
      let own := f.decodeElem ((bitsv >>> (f.width * i)) % 2 ^ f.width)
      let v := if f.gauze then
          (if s0.1.testBit 7 && s0.1 % 32 == i then Fmt.e4m3.decodeElem s0.2
           else if s1.1.testBit 7 && s1.1 % 32 == i then Fmt.e4m3.decodeElem s1.2
           else own)
        else own
      v.scale x)

/-- The 32 elements of a block as FP32 words, each rounded to nearest even (R61). -/
def decodeBlock (f : Fmt) (bs : List Byte) : List Word := (decodeBlockNum f bs).map toF32

/-- An array code byte saturated to -15 to +15; true where the byte was illegal (R58). -/
def codeOf (b : Byte) : Int × Bool :=
  let z := sext 8 b.toNat
  if z < -15 then (-15, true) else if 15 < z then (15, true) else (z, false)

/-- Decode `n` elements of a format from bytes (whole blocks for a scaled format), as FP32 values. -/
def decodeElems (f : Fmt) (n : Nat) (bs : List Byte) : List Word :=
  if f.scaled then (((chunks f.blockBytes bs).flatMap (decodeBlock f)).take n)
  else
    (List.range n).map (fun i =>
      match f with
      | .fp32 => BitVec.ofNat 32 (leAt bs (4 * i) 4)
      | .bf16 => BitVec.ofNat 32 (leAt bs (2 * i) 2 * 2 ^ 16)
      | .code => toF32 (XNum.ofInt (codeOf (bs.getD i 0)).1)
      | .i24 => toF32 (XNum.ofInt (sext 24 (leAt bs (3 * i) 3)))
      | _ => toF32 (XNum.ofInt (sext 32 (leAt bs (4 * i) 4))))

/-- The clamp bound of a wire integer (R59). -/
def wireBound (i32 : Bool) : Int := if i32 then 16777215 else 131071

/-- The tensor exponent of R67 from the largest history value (or the initial amax), the format and the headroom. -/
def tensorExp (f : Fmt) (a : XNum) (h : Nat) : Int :=
  clampInt (-127) 127 (smallestExp a f.maxMag + (h : Int))

/-- Encode a tensor's elements (row-major from element index `base`) into a format.
Scaled formats use the tensor exponent and block descent; BF16 and FP32 round to nearest (R50, R62, R64). -/
def encodeElems (f : Fmt) (xt : Int) (descent : Bool) (rnd : RndAt) (base : Nat) (vals : List XNum) :
    List Byte × EncCount :=
  if f.scaled then
    let blocks := chunks 32 vals
    (List.range blocks.length).foldl (fun acc k =>
      let b := blocks.getD k []
      let r := encodeBlock f (blockExp f xt descent b) (fun i => rnd (base + 32 * k + i)) b
      (acc.1 ++ r.1, acc.2.add r.2)) ([], {})
  else
    match f with
    | .bf16 => (vals.flatMap (fun v => leBytes 2 (toBf16 v)), {})
    | _ => (vals.flatMap (fun v => leBytes 4 (toF32 v).toNat), {})

end Sys2Proof.Machine
end

