-- ==== Sys2Proof/Machine/State.lean ====
section
/-! DEFINITION. The state of the TG6400 block: every register, memory, buffer, queue, counter, mode and pin the spec gives the
module, the module's outputs in order, and the queue of waiting commands.  Plain data; every field's default is its reset
value. -/

namespace Sys2Proof.Machine

/-- An entry of the error log before it gets its sequence number (R381). -/
structure LogEnt where
  time : Nat := 0
  blk : Nat := 0
  cls : Nat := 0
  bit : Nat := 0xFF
  cause : Nat := 0
  detail : Nat := 0
deriving DecidableEq, Repr

/-- What the module sends out, oldest first in `State.out`. -/
inductive Out where
  /-- a register read completes to its requester -/
  | reply (rq : Requester) (addr : Nat) (v : Word)
  /-- a read of an aperture or a window completes to the host; poisoned data is marked (R301) -/
  | hostData (bytes : List Byte) (poison : Bool)
  /-- a host access completes with Unsupported Request -/
  | hostUr
  /-- a host read completes with a relay status (R293) -/
  | hostStatus (status : Nat)
  /-- a host read completes with Completer Abort (R312) -/
  | hostCa
  /-- a write to host memory -/
  | hostWrite (addr : Nat) (bytes : List Byte)
  /-- an MSI-X message: vector, address, data (R311) -/
  | msix (vector : Nat) (addr : Nat) (data : Nat)
  /-- a flit leaves on a link -/
  | flit (l : Nat) (bytes : List Byte)
  /-- bytes returned to the SMBus controller with their PEC, or a NACK (R366) -/
  | smb (bytes : List Byte)
  | smbNack
  /-- the host's malformed TLP is answered with an advanced error report (R314) -/
  | aer
  /-- bytes erased or programmed in the image memory -/
  | imageErase (addr : Nat)
  | imageProgram (addr : Nat) (bytes : List Byte)
deriving DecidableEq, Repr

/-- The error log: input queue (R382) and ring of 1,024 entries, each as its 256-bit little-endian number (R381). -/
structure ErrSt where
  queue : List LogEnt := []
  ring : SMap Nat := []
deriving DecidableEq, Repr

/-- A check unit (R379, R380): running value, LEN of the next data write, owner. -/
structure ChkUnit where
  value : Nat := 0xFFFFFFFF
  len : Nat := 4
  owner : Option Requester := none
deriving DecidableEq, Repr

/-- A trigger in the trigger queue (R371 to R373). -/
structure Trig where
  t : Nat := 0
  cls : Nat := 0
  origin : Nat := 0
  num : Nat := 0
  late : Bool := false
  merged : Bool := false
  remote : Bool := false
deriving DecidableEq, Repr

/-- A snapshot bank (R368 to R370, R376): the registers of every block as latched, by BAR0 address. -/
structure Bank where
  busy : Bool := false
  latched : Bool := false
  trig : Trig := {}
  seq : Nat := 0
  lat : List Nat := []
  words : SMap Word := []
deriving DecidableEq, Repr

/-- The snapshot block (R368 to R376). -/
structure SnpSt where
  queue : List Trig := []
  num : Nat := 0
  banks : SMap Bank := []
  view : Nat := 0
  captOut : Bool := false
deriving DecidableEq, Repr

/-- What an interrupt controller keeps for one local core (R320 to R324). -/
structure IrqCore where
  cur : Nat := 0x3FF
  curf : Nat := 0x3FF
  karg : Nat := 0
  entry : Nat := 0
  /-- slot of the KERSEY task running on the core, if any -/
  task : Option Nat := none
  pc : Nat := 0
  fastBank : Bool := false
  /-- a fast source has ended service; the core's return is still to come (R322) -/
  back : Bool := false
deriving DecidableEq, Repr

/-- Moderation of one interrupt group (R326, R327). -/
structure HoldSt where
  run : Bool := false
  /-- pod time at which the timer was loaded, and the µs it was loaded with -/
  since : Nat := 0
  us : Nat := 0
  h : Nat := 0
  n : Nat := 0
deriving DecidableEq, Repr

/-- The interrupt controller of one die (R316 to R328). -/
structure IrqSt where
  pend : BitVec 512 := 0
  raw : BitVec 512 := 0
  /-- sources in service for the host -/
  host : BitVec 512 := 0
  /-- of them, those whose message is not issued yet -/
  held : BitVec 512 := 0
  /-- IRQ_SRC_CFG of a source as it last went into service for the host (R328) -/
  live : SMap Word := []
  cfg : SMap Word := []
  core : SMap IrqCore := []
  hold : SMap HoldSt := []
deriving DecidableEq, Repr

/-- The states of a link (R280). -/
inductive LState where
  | down | training | up | retrain | removed | unused
deriving DecidableEq, Repr

/-- A frame (R275); destination 0xFF is the link partner. -/
structure Frame where
  typ : Nat := 0
  stream : Nat := 0
  src : Nat := 0
  dst : Nat := 0xFF
  payload : List Byte := []
deriving DecidableEq, Repr

/-- A numbered flit kept in the replay buffer (R276), with the frame it belongs to. -/
structure Flit where
  seq : Nat := 0
  first : Bool := false
  last : Bool := false
  frame : Frame := {}
  off : Nat := 0
  replays : Nat := 0
deriving DecidableEq, Repr

/-- A frame being received: what has arrived, or that its rest is discarded (R281). -/
structure RxPart where
  typ : Nat := 0
  stream : Nat := 0
  src : Nat := 0
  dst : Nat := 0xFF
  bytes : List Byte := []
  dead : Bool := false
deriving DecidableEq, Repr

/-- One Eczil link (R272 to R283). -/
structure LinkSt where
  st : LState := .down
  peer : Nat := 0
  peerLink : Nat := 0
  txSeq : Nat := 0
  rxSeq : Nat := 0
  replay : List Flit := []
  queue : List Frame := []
  /-- frames begun, each with the payload offset of its next flit -/
  cur : List (Frame × Nat) := []
  credits : List Nat := [0, 0, 0, 0]
  freed : List Nat := [0, 0, 0, 0]
  /-- credits the partner holds for each class of this receiver's buffer -/
  rxCred : List Nat := [0, 0, 0, 0]
  nakOwed : Option (Nat × Nat) := none
  /-- numbered flits received since an acknowledgement left -/
  unacked : Nat := 0
  /-- the channel that sent the last REDUCTION flit while another was ready too (R204) -/
  lastRed : Option Nat := none
  /-- a NAK is out and its sequence has not arrived: (reason, sequence) -/
  nakOut : Option (Nat × Nat) := none
  parts : List RxPart := []
  /-- pod times of the NAKs of reasons 1 and 2, of the protocol NAKs and of the retrains -/
  nakTimes : List Nat := []
  protoTimes : List Nat := []
  retrainTimes : List Nat := []
  attempts : Nat := 0
deriving DecidableEq, Repr

/-- A relayed host read at the head (R293). -/
structure RelayRead where
  tag : Nat := 0
  mem : Nat := 0
  hdr : RelayHdr := {}
deriving DecidableEq, Repr

/-- The pod time base (R290, R291); stamps in quarter nanoseconds, the rate in units of 10^-12. -/
structure TimeSt where
  now : Nat := 0
  rate : Int := 0
  acc : Int := 0
  /-- the correction, in eighths of a nanosecond, that is spread over `span` nanoseconds, of which `left` remain -/
  slew : Int := 0
  span : Nat := 0
  left : Nat := 0
  slewAcc : Int := 0
  lead : Int := 0
  half : Bool := false
  t1 : Nat := 0
  t2 : Nat := 0
  t3 : Nat := 0
  offset : Int := 0
  good : Nat := 0
  locked : Bool := false
  holdover : Bool := false
  /-- the parent of the last exchange -/
  parent : Option Nat := none
deriving DecidableEq, Repr

/-- The Eczil block. -/
structure EzlSt where
  link : SMap LinkSt := []
  pod : PodCfg := {}
  tim : TimeSt := {}
  /-- last trigger number seen per origin (R292) -/
  seen : SMap (Option Nat) := []
  relayOut : List RelayRead := []
  relayWait : List RelayRead := []
  /-- reads that timed out and whose completion may still arrive -/
  relayLate : List RelayRead := []
  /-- complete frames received for this module and not yet taken by a command: (link, frame) -/
  rxDone : List (Nat × Frame) := []
  /-- frames that wait for an UP link: to a partner, or, with none, by routing (R424) -/
  wait : List (Option Nat × Frame) := []
deriving DecidableEq, Repr

/-- PHASE of STEP_STATUS. -/
inductive Phase where
  | idle | forward | backward | update | vote | decided | boundary | held | halted | serving
deriving DecidableEq, Repr

def Phase.code : Phase → Nat
  | .idle => 0 | .forward => 1 | .backward => 2 | .update => 3 | .vote => 4 | .decided => 5 | .boundary => 6 | .held => 7
  | .halted => 8 | .serving => 9

/-- The step boundary that waits to run. -/
inductive Boundary where
  | new | again
deriving DecidableEq, Repr

/-- Why the group halted (R36, R39). -/
inductive Halt where
  | exhausted | skipLimit
deriving DecidableEq, Repr

/-- A decision that position 0 has fixed (R28, R289). -/
structure DecRec where
  step : Nat := 0
  attempt : Nat := 0
  epoch : Nat := 0
  decision : Decision := .commit
  reason : Nat := 0
  voter : Nat := 0xFF
  hold : Bool := false
deriving DecidableEq, Repr

/-- The counts of an attempt that its step record carries (R45). -/
structure AttemptCnt where
  buckets : Nat := 0
  sat : Nat := 0
  clips : Nat := 0
  clamps : Nat := 0
  nan : Nat := 0
  inf : Nat := 0
  marked : Nat := 0
  reorderStall : Bool := false
  flightStall : Bool := false
  /-- clamping was enabled for every bucket of the attempt -/
  exact : Bool := true
  /-- conversions counted as non-finite under R62 -/
  nonfinite : Nat := 0
deriving DecidableEq, Repr

/-- Step control (R13 to R47, R420, R422). -/
structure StepSt where
  phase : Phase := .idle
  attempt : Nat := 0
  /-- the attempt number after a decision, while its boundary has not yet run (R216) -/
  nextAtt : Option Nat := none
  copySel : Bool := false
  skips : Nat := 0
  groupHold : Bool := false
  /-- an attempt is open: started and not decided on this member -/
  isOpen : Bool := false
  /-- training runs (R420): the next boundary follows a decision -/
  ready : Bool := false
  voted : Bool := false
  firstSent : Bool := false
  waitToken : Option Token := none
  /-- own abort reason of the attempt: reason code of R223 -/
  abort : Option Nat := none
  /-- abort request held at position 0 while the first pass is out: (reason code, position) -/
  heldReq : Option (Nat × Nat) := none
  /-- own SKIP vote of the attempt -/
  skipVote : Bool := false
  decisions : List DecRec := []
  fixed : Option DecRec := none
  secondSent : Bool := false
  queried : Bool := false
  seen : List Token := []
  halt : Option Halt := none
  due : Option Boundary := none
  /-- the draft record of the attempt is written (R47) -/
  drafted : Bool := false
  recSeq : Nat := 0
  /-- pod time of the attempt's first forward pass; DUTY_SPLIT_USED as the attempt began -/
  startTime : Nat := 0
  duty : Word := 0
  cnt : AttemptCnt := {}
  /-- an event for the recovery phase since the last new-step boundary (R74) -/
  nfEvent : Bool := false
  /-- last host skip halted attempt, kept for its record (R422) -/
  haltAttempt : Nat := 0
deriving DecidableEq, Repr

/-- An entry of the format table (R72). -/
structure FmtEnt where
  tensor : Nat := 0
  code : Nat := 0
  hist : Nat := 1
  descent : Bool := false
  sr : Bool := false
  actGrad : Bool := false
  headroom : Nat := 0
  layer : Nat := 0xFFFF
  /-- initial amax, FP32 -/
  amax : Nat := 0
deriving DecidableEq, Repr

/-- The format choices in force (R67 to R71): the table and the tensor exponents. -/
structure FmtView where
  table : List FmtEnt := []
  /-- tensor exponent X_t by tensor identifier -/
  x : SMap Int := []
deriving DecidableEq, Repr

/-- The statistics of one layer (R75). -/
structure LayerStat where
  n : Nat := 0
  bins : SMap Nat := []
  oc : Nat := 0
  oc3 : Nat := 0
deriving DecidableEq, Repr

/-- Formats and scaling (chapter 02). -/
structure FmtSt where
  /-- where the format table lies in HBM, and its entries -/
  base : Nat := 0
  count : Nat := 0
  view : FmtView := {}
  /-- amax histories by tensor: 16 FP32 codes, entry 0 the newest -/
  hist : SMap (List Nat) := []
  /-- the attempt's amax by tensor, FP32 -/
  amax : SMap Nat := []
  phase : Nat := 0
  recoveryLeft : Nat := 0
  narrowed : Nat := 0
  /-- current gradient format by layer (0 as activations, 1 E5M2, 2 E3M2, 3 Gauze-4), and eligible steps in a row -/
  cur : SMap Nat := []
  run : SMap Nat := []
  /-- layer statistics of the last committed or skipped attempt, and of the attempt in progress -/
  stats : SMap LayerStat := []
  statsNow : SMap LayerStat := []
  /-- the statistics area named by the image -/
  statBase : Nat := 0
  /-- a new-step boundary has taken place since start-up (R70) -/
  began : Bool := false
  /-- largest block scale byte used per gradient tensor in the attempt (R212) -/
  wireScale : SMap Nat := []
deriving DecidableEq, Repr

/-- A matrix entry of the array map (R102). -/
structure MatEnt where
  die : Nat := 0
  idx : Nat := 0
  layer : Nat := 0xFF
  k : Nat := 1
  n : Nat := 1
  h : Nat := 1024
  /-- input width in bits: 2, 3, 4 or 8 -/
  width : Nat := 4
  range : Nat := 0
  first : Nat := 0
  chain : Nat := 1
  scaleOff : Nat := 0
  tensor : Nat := 0
deriving DecidableEq, Repr

/-- What the range tracker and the host keep of one matrix (R94, R95). -/
structure MatSt where
  /-- pending RANGE -/
  range : Nat := 0
  /-- RANGE in force, with the one before it while some context still uses it: (RANGE, view at the change), and the chain limit of then -/
  cur : Nat := 0
  prev : Option (Nat × Nat) := none
  prevChain : Nat := 1
  chain : Nat := 1
  pendChain : Option Nat := none
  /-- RANGE and chain limit of the attempt: those in force at its new-step boundary -/
  train : Nat := 0
  trainChain : Nat := 1
  clips : Nat := 0
  conv : Nat := 0
  peak : Nat := 0
  run : Nat := 0
  /-- counts of the open attempt, not yet in the window -/
  aClips : Nat := 0
  aConv : Nat := 0
  aPeak : Nat := 0
  passes : Nat := 0
  /-- view number that every token must have reached before the pending RANGE takes effect (R390) -/
  pendView : Nat := 0
  /-- the pending change arrived while the group was HELD or HALTED (R390) -/
  pendHeld : Bool := false
  /-- a training window has ended and awaits its evaluation (R94) -/
  due : Bool := false
deriving DecidableEq, Repr

/-- The result of a fit (R109), FP32. -/
structure Fit where
  g : Word := 0x3F800000
  dd : Word := 0
  tm : Word := 0
  c : Word := 0x3F800000
  eps : Word := 0
deriving DecidableEq, Repr

/-- What uses an array (R100, R101). -/
inductive ArrUse where
  | idle | pass | calibration | readback | programming
deriving DecidableEq, Repr

/-- A physical array: its cells as codes, its metadata rows, its clip counters and what the monitor keeps of it. -/
structure PhysSt where
  /-- codes by row * 512 + weight column -/
  codes : SMap Byte := []
  /-- measured codes (quarter levels) less four times the code's level, by the same key; empty when the cells sit at their codes -/
  meas : SMap Int := []
  /-- FP16 column scales, verify gains and offsets by weight column -/
  scales : SMap Nat := []
  vgain : SMap Nat := []
  voff : SMap Nat := []
  /-- row write counts -/
  writes : SMap Nat := []
  record : Option ArrRec := none
  use : ArrUse := .idle
  confirmed : Bool := false
  clipg : SMap Nat := []
  readN : Nat := 0
  lastRead : Nat := 0
  forced : Bool := false
  reads : List CalRead := []
  /-- temperature coefficient tc_a, FP32 -/
  tc : Word := 0
  /-- last fits: (g, Tm), oldest first -/
  hist : List (Word × Word) := []
  fit : Option Fit := none
deriving DecidableEq, Repr

/-- One trim entry (R111): FP16 gain, offset, temperature coefficient and T0. -/
structure TrimEnt where
  gain : Nat := 0x3C00
  off : Nat := 0
  tc : Nat := 0
  t0 : Nat := 0
deriving DecidableEq, Repr

/-- A group request (R97, R99). -/
structure PassReq where
  mat : Nat := 0
  cb : Nat := 0
  grp : Nat := 0
  /-- view number of its attempt or token -/
  view : Nat := 0
  /-- image-set sequence number of its attempt or token -/
  seq : Nat := 0
  training : Bool := false
  die : Nat := 0
  slot : Nat := 0
  chain : Nat := 1
  input : List Byte := []
  dest : Nat := 0
  /-- pod time at which it entered the pass queue -/
  born : Nat := 0
deriving DecidableEq, Repr

/-- A running pass or chain: physical arrays in row-block order, what it latched when it started. -/
structure PassRun where
  req : PassReq := {}
  arrays : List Nat := []
  lsb : Nat := 0
  bits : Nat := 9
  bank : Bool := false
  temp : Word := 0
deriving DecidableEq, Repr

/-- A queued programming job (R113, R115). -/
structure Job where
  pos : Nat := 0
  cls : Nat := 4
  age : Nat := 0
  refresh : Bool := false
  /-- the codes come from the shadow-code area (LOAD, image codes), not from a projection -/
  fromShadow : Bool := false
  /-- queued by LOAD (R132) -/
  load : Bool := false
deriving DecidableEq, Repr

/-- A running programming job. -/
structure RunJob where
  job : Job := {}
  /-- physical slot in the tile -/
  slot : Nat := 16
  inPlace : Bool := false
  /-- rows still to write -/
  rows : List Nat := []
  retried : Bool := false
  failed : Bool := false
  marginal : Nat := 0
  version : Nat := 0
  step : Nat := 0
deriving DecidableEq, Repr

/-- The state of a spare (R120). -/
inductive Spare where
  | free | prog | ready | drain | none
deriving DecidableEq, Repr

def Spare.code : Spare → Nat
  | .free => 0 | .prog => 1 | .ready => 2 | .drain => 3 | .none => 4

structure TileSt where
  spare : Spare := .free
  slot : Nat := 16
  retired : Nat := 0
  job : Option RunJob := none
  /-- position and refresh mark of a READY spare -/
  ready : Option (Nat × Bool) := none
deriving DecidableEq, Repr

/-- One logical array position (R15, R124, R132). -/
structure PosSt where
  /-- physical slot of its array in the tile -/
  slot : Option Nat := some 0
  /-- the outgoing array of a swap, while contexts use it: (slot, view at the swap) -/
  prev : Option (Nat × Nat) := none
  version : Nat := 0
  step : Nat := 0
  fb : Bool := false
  /-- values of `fb` that older tokens still use: (view from which it no longer holds, value), oldest first -/
  fbWas : List (Nat × Bool) := []
  cause : Nat := 0
  msValid : Bool := false
  msUse : Bool := false
  unconf : Bool := false
  /-- waits for codes from the host (R132) -/
  waitHost : Bool := false
  /-- newest projection finished for the position -/
  projStep : Nat := 0
  /-- no projection formed the codes in force: they come from the image or from LOAD (R132, R418) -/
  noProj : Bool := false
  /-- rows that projections changed and no job has taken since (R200) -/
  changed : List Nat := []
  /-- marked by a refresh: the next projection re-chooses its scales -/
  mark : Bool := false
  rescaled : Bool := false
  /-- rows of a running diagnostic readback still to read -/
  readback : Nat := 0
deriving DecidableEq, Repr

/-- One Kaolin die. -/
structure KaolinSt where
  /-- requests that the die link has not delivered yet (R98) -/
  link : List PassReq := []
  queue : List PassReq := []
  running : List PassRun := []
  /-- group results in the result buffer that no Damask die has taken -/
  results : Nat := 0
  bank0 : SMap TrimEnt := []
  bank1 : SMap TrimEnt := []
  bankSel : Bool := false
  trimVer : Nat := 0
  published : Bool := false
  /-- the bank not in force is held since this view (R112) -/
  held : Option Nat := none
  jobs : List Job := []
  /-- cap set by the power and thermal loop (R96) -/
  loopCap : Nat := 768
  /-- arrays that the power-up sweep has treated (R130): bit by physical array -/
  swept : Nat := 0
deriving DecidableEq, Repr

/-- Shadow codes and column scales that a boundary has replaced, kept for the tokens of a view before `view` (R19, R123): bytes by HBM
address. -/
structure OldCodes where
  view : Nat := 0
  bytes : SMap Byte := []
deriving DecidableEq, Repr

/-- The Kaolin arrays (chapters 03 and 04). -/
structure ArrSt where
  map : List MatEnt := []
  mat : SMap MatSt := []
  pos : SMap PosSt := []
  tile : SMap TileSt := []
  phys : SMap PhysSt := []
  die : SMap KaolinSt := []
  /-- points at which changes took effect, counted; contexts keep the number under which their token runs -/
  view : Nat := 0
  /-- replaced shadow codes that older tokens still use, oldest first -/
  old : List OldCodes := []
  jobAge : Nat := 0
  /-- HBM areas named by the image: shadow codes, code targets, measured codes, diagnostic readback -/
  shadow : Nat := 0
  target : Nat := 0
  measured : Nat := 0
  diag : Nat := 0
  /-- kinds of matrices for which the image carries codes: (die, index) -/
  imageCodes : List (Nat × Nat) := []
deriving DecidableEq, Repr

/-- One Twill unit (R134). Registers: lane `i` of V`r` at key r * 64 + i; masks M1 to M7 as 128-bit numbers. -/
structure UnitSt where
  v : SMap Word := []
  m : SMap Nat := []
  vl : Nat := 64
  pc : Nat := 0
  ibuf : List Nat := []
  /-- address of the resident program -/
  resident : Option Nat := none
  mem : SMap Byte := []
  base : Nat := 0
  srTensor : Nat := 0
  srHi : Nat := 0
  srBase : Nat := 0
  srOk : Bool := false
  flags : Nat := 0
  /-- window slot of the task that runs -/
  slot : Option Nat := none
  /-- barrier number at which the unit waits -/
  bar : Option Nat := none
  /-- barriers that the unit has left by a timeout while others had not issued their VBAR -/
  past : List Nat := []
deriving DecidableEq, Repr

/-- The Twill engines: units by die * 32 + unit. -/
structure VecSt where
  unit : SMap UnitSt := []
  /-- flags folded into the completion status of a task so far, by die * 4096 + slot (R152) -/
  status : SMap Nat := []
deriving DecidableEq, Repr

/-- A product descriptor (R168). -/
structure Desc where
  mode : Nat := 0
  shape : Nat := 0
  fa : Nat := 0
  ta : Bool := false
  fb : Nat := 0
  tb : Bool := false
  m : Nat := 1
  n : Nat := 1
  k : Nat := 1
  a : Nat := 0
  b : Nat := 0
  out : Nat := 0
  fo : Nat := 0
  tout : Bool := false
  dual : Bool := false
  accIn : Bool := false
  stats : Bool := false
  mat : Nat := 0xFFFF
  mult : Word := 0
  tensor : Nat := 0
  out2 : Nat := 0
  grad : Nat := 0
  chan : Nat := 0
  /-- some reserved field is not zero -/
  reserved : Bool := false
deriving DecidableEq, Repr

/-- A descriptor in a cluster, with the slot of its task, the tiles handed out and the tiles finished. -/
structure DescRun where
  desc : Desc := {}
  slot : Nat := 0
  next : Nat := 0
  done : Nat := 0
deriving DecidableEq, Repr

/-- A slice that a converter has taken and converted (R177), not yet accepted by its channel. -/
structure ConvSlice where
  slot : Nat := 0
  core : Nat := 0
  tile : Nat := 0
  chan : Nat := 0
  grad : Nat := 0
  row : Nat := 0
  col : Nat := 0
  recs : List BlockRec := []
  held : Bool := false
deriving DecidableEq, Repr

/-- A matrix core: the task slot of its descriptor and its tiles in progress (R167). -/
structure CoreSt where
  slot : Option Nat := none
  mode : Nat := 0
  shape : Nat := 0
  slots : Nat := 8
  tiles : List Nat := []
deriving DecidableEq, Repr

/-- The matrix engine of both dies: clusters by die * 8 + cluster, cores by die * 128 + core. -/
structure MxeSt where
  clus : SMap (List DescRun) := []
  conv : SMap (Option ConvSlice) := []
  core : SMap CoreSt := []
  /-- where the attempt's activation gradients lie in a gradient format that the module chose (R76): address, bytes, format code -/
  gradOut : List (Nat × Nat × Nat) := []
  /-- cores (by die * 128 + core) whose oldest gradient slices are ready, in the order in which their converter takes them (R178) -/
  ready : List Nat := []
  /-- outputs of descriptors that have ended while others in progress overlapped them: key, outputs, keys of those others (R171) -/
  past : List (Nat × List (Nat × Nat) × List Nat) := []
deriving DecidableEq, Repr

/-- An entry of the state table (R181). -/
structure StateEnt where
  tensor : Nat := 0
  grad : Nat := 0
  rem : Nat := 0
  rows : Nat := 1
  cols : Nat := 1
  alg : Nat := 0
  decay : Bool := false
  die : Nat := 0
  kaolin : Nat := 0
  mat : Nat := 0xFFFF
  rho : Word := 0
  first : Nat := 0
deriving DecidableEq, Repr

/-- The constants of an entry for a step (R187), FP32. -/
structure StepConst where
  alpha : Word := 0
  a1 : Word := 0x3F800000
  a2 : Word := 0x3F800000
deriving DecidableEq, Repr

/-- A reduced block in the update unit's input buffer: its state-table entry, its block in the entry's block grid, its record. -/
structure BlkIn where
  ent : Nat := 0
  blk : Nat := 0
  body : BlockRec := {}
deriving DecidableEq, Repr

/-- A projection pass (R198, R202): the step it carries and whether hysteresis applies. -/
structure ProjRun where
  step : Nat := 0
  hyst : Bool := true
  /-- fixed when the pass starts (R199, R201): the threshold, RESCALE_EN, the positions marked by a refresh (die * 1536 + position), pod time -/
  thr : Option Word := none
  rescale : Bool := false
  marks : List Nat := []
  start : Nat := 0
deriving DecidableEq, Repr

/-- The update unit of one die. -/
structure UpdDie where
  inbuf : List BlkIn := []
  /-- it writes no further block of the attempt (R195, R196) -/
  stopped : Bool := false
  skip : Bool := false
  /-- elements handled under the policy in the attempt -/
  nf : Nat := 0
  complete : Bool := false
  proj : Option ProjRun := none
  projWait : List ProjRun := []
  /-- host window writes held until the projection ends: (offset, bytes) -/
  heldWrites : List (Nat × List Byte) := []
deriving DecidableEq, Repr

/-- Update and projection (chapter 07). -/
structure UpdSt where
  table : List StateEnt := []
  consts : List StepConst := []
  sched : SMap Word := []
  /-- UPD_STEP_SIZE was written since the last new-step boundary -/
  fresh : Bool := false
  die : SMap UpdDie := []
deriving DecidableEq, Repr

/-- An entry of the bucket table (R206). -/
structure BucketEnt where
  tensor : Nat := 0
  channel : Nat := 0
  row : Nat := 0
  first : Nat := 0
  shape : Nat := 0
  count : Nat := 0
deriving DecidableEq, Repr

/-- A bucket in flight on a channel (R216 to R222). -/
structure BucketSt where
  seq : Nat := 0
  /-- slices accepted so far: (slice number, its block records) -/
  slices : List (Nat × List BlockRec) := []
  ownDone : Bool := false
  sent : Bool := false
  /-- pod time at which the bucket opened, and at which the own contribution completed -/
  opened : Option Nat := none
  ownAt : Option Nat := none
  /-- reduce messages that wait for the own contribution -/
  waiting : List RingMsg := []
  /-- reduced chunks stored: (chunk, records) -/
  chunks : List (Nat × List BlockRec) := []
  /-- blocks the update unit has accepted -/
  taken : Nat := 0
  /-- the channel has begun to deliver the bucket -/
  delivering : Bool := false
deriving DecidableEq, Repr

/-- One reduction channel (R203, R204, R218, R219). -/
structure ChanSt where
  succLink : Nat := 0
  predLink : Nat := 0
  sendPt : Nat := 0
  deliverPt : Nat := 0
  flight : List BucketSt := []
  holdWindow : Bool := false
  holdFlight : Bool := false
deriving DecidableEq, Repr

/-- The group and the reduction ring (R203 to R229). -/
structure RedSt where
  loaded : Bool := false
  gid : Nat := 0
  n : Nat := 0
  pos : Nat := 0
  /-- module IDs by ring position -/
  order : List Nat := []
  formed : Bool := false
  table : List BucketEnt := []
  chan : SMap ChanSt := []
deriving DecidableEq, Repr

/-- A wait of a task (R231). -/
structure Wait where
  threshold : Nat := 0
  ext : Bool := false
  /-- die * 1024 + index -/
  counter : Nat := 0
deriving DecidableEq, Repr

/-- A signal of a task (R231). -/
structure Signal where
  set : Bool := false
  counter : Nat := 0
  value : Nat := 0
deriving DecidableEq, Repr

/-- Progress of a task in its window entry. -/
inductive TaskProg where
  | waiting
  | running
  | done (error : Bool)
deriving DecidableEq, Repr

/-- Where a launch came from (R241). -/
inductive LaunchSrc where
  | stepControl
  | firmware (core : Nat)
  | host
  /-- a LAUNCH entry of a host queue: queue and completion identity -/
  | command (queue cid : Nat)
  /-- queue, completion identity and context handle -/
  | gen (queue cid handle : Nat)
deriving DecidableEq, Repr

structure Launch where
  graph : Nat := 0
  src : LaunchSrc := .host
  /-- step number and attempt of a step-control launch -/
  tag : Option (Nat × Nat) := none
deriving DecidableEq, Repr

/-- A task in a window (R230 to R232). -/
structure TaskEnt where
  kind : Nat := 0
  target : Nat := 0
  payLen : Nat := 0
  payAddr : Nat := 0
  waits : List Wait := []
  signals : List Signal := []
  malformed : Bool := false
  age : Nat := 0
  graph : Nat := 0
  isStep : Bool := false
  launch : LaunchSrc := .host
  tag : Option (Nat × Nat) := none
  prog : TaskProg := .waiting
  /-- its signals are discarded (abort, flush) -/
  discard : Bool := false
  /-- parts still to finish: combine groups, units, bytes of progress of a group -/
  remain : Nat := 0
  /-- some part of it failed -/
  err : Bool := false
deriving DecidableEq, Repr

/-- The launch being streamed (R242). -/
structure StreamerSt where
  launch : Launch := {}
  count : Nat := 0
  base : Nat := 0
  isStep : Bool := false
  next : Nat := 0
  blocked : Bool := false
deriving DecidableEq, Repr

/-- The task engines (chapter 09). -/
structure TskSt where
  /-- window entries by die * 4096 + slot -/
  win : SMap (Option TaskEnt) := []
  age : Nat := 0
  /-- event counters by die * 1024 + index -/
  cnt : SMap Nat := []
  launchQ : List Launch := []
  streamer : Option StreamerSt := none
  /-- signals on their way to the other die -/
  remote : List Signal := []
  /-- busy DMA engines: die * 16 + engine, with the slot of the task -/
  dma : SMap (Option Nat) := []
  /-- view number from which a token runs under the last write of DUTY_SPLIT (R249) -/
  dutyView : Nat := 0
  /-- DUTY_SPLIT was last written while the group was HELD or HALTED (R390) -/
  dutyHeld : Bool := false
  flushing : Bool := false
deriving DecidableEq, Repr

/-- A state copy (R21, R22): bytes of the logical state space by offset. Generation 0 is the content at reset; after an abort or a
skip the write copy takes a fresh generation and its unlisted bytes are undefined. -/
structure CopyMem where
  gen : Nat := 0
  bytes : SMap Byte := []
deriving DecidableEq, Repr

/-- A step record with its scale-log slot (R45, R46); its bytes are formed from it. -/
structure RecEnt where
  seq : Nat := 0
  step : Nat := 0
  attempt : Nat := 0
  outcome : Nat := 0
  pos : Nat := 0
  n : Nat := 0
  reason : Nat := 0
  voter : Nat := 0
  phase : Nat := 0
  imgSeq : Nat := 0
  trim : Nat := 0
  hash : List Byte := []
  tFirst : Nat := 0
  tDec : Nat := 0
  stepSize : Word := 0
  duty : Word := 0
  /-- gradient formats by layer -/
  formats : SMap Nat := []
  fbLayers : Nat := 0
  msLayers : Nat := 0
  ckLayers : Nat := 0
  buckets : Nat := 0
  sat : Nat := 0
  clips : Nat := 0
  clamps : Nat := 0
  nan : Nat := 0
  inf : Nat := 0
  marked : Nat := 0
  red : Nat := 0
  /-- used entries of the scale-log slot, as 32-bit words -/
  scale : List Word := []
deriving DecidableEq, Repr

/-- A stream a prefetcher runs (R258): its 256-byte lines in order, how many are fetched, which are read, the task that waits. -/
structure StreamSt where
  lines : List Nat := []
  /-- lines of which the first 64 bytes alone are read: the last one of a Silt page (R264) -/
  short : List Nat := []
  fetched : Nat := 0
  done : List Nat := []
  lead : Nat := 0
  die : Nat := 0
  slot : Option Nat := none
deriving DecidableEq, Repr

/-- How a layer's record is kept (R260, R262). -/
inductive StashKind where
  | full | spill | ckpt
deriving DecidableEq, Repr

/-- A row of the image's stash table (R259): bytes per token. -/
structure StashRow where
  layer : Nat := 0
  die : Nat := 0
  full : Nat := 0
  ckpt : Nat := 0
deriving DecidableEq, Repr

/-- Pending Silt commands of a handle (R270). -/
inductive SiltPend where
  | close
  | truncate (count : Nat)
deriving DecidableEq, Repr

/-- What the module keeps of a generation context (R19, R249, R269, R391): whether a token is in flight, under which view it runs,
what its completion entry reports, and the records its token has written. -/
structure CtxSt where
  inTok : Bool := false
  view : Nat := 0
  seq : Nat := 0
  /-- the committed copy when its token's first task was dispatched -/
  sel : Option Bool := none
  fmt : FmtView := {}
  /-- modes of functions 2 and 13 for this token -/
  f2 : Bool := false
  f13 : Bool := false
  failed : Bool := false
  layers : List Nat := []
  pend : List SiltPend := []
deriving DecidableEq, Repr

/-- The free slots of a die's Silt area (R268): slots from `fresh` on were never used; `back` came back, oldest first. -/
structure SiltFree where
  slots : Nat := 0
  fresh : Nat := 0
  back : List Nat := []
deriving DecidableEq, Repr

/-- Memories of the module (chapter 10, R21, R45, R137) and the Silt bookkeeping. -/
structure MemSt where
  /-- HBM, 0x00_0000_0000 to 0x8F_FFFF_FFFF; an unlisted byte reads 0 -/
  hbm : SMap Byte := []
  copy0 : CopyMem := {}
  copy1 : CopyMem := {}
  /-- step-record ring with the scale-log slots, by index -/
  records : SMap RecEnt := []
  /-- exchange memory of each Damask die, by die * 2^22 + offset -/
  exch : SMap Byte := []
  /-- uncorrectable 32-byte units, by address / 32, rising -/
  bad : List Nat := []
  /-- 32-byte units with a single-bit error, which every read of them corrects, by address / 32 -/
  soft : List Nat := []
  /-- prefetchers, by die * 64 + number -/
  pf : SMap (Option StreamSt) := []
  stashTokens : Nat := 0
  stashTab : List StashRow := []
  /-- where the stash table lies in HBM, and the bytes there that the rows above stand for -/
  stashAt : Nat := 0
  stashImg : List Byte := []
  /-- stash plan of the step: (layer, how kept) per die -/
  plan : SMap (List (Nat × StashKind)) := []
  planFault : Bool := false
  silt : SMap SiltFree := []
  /-- handles OPEN or CLOSING, and what the module keeps of their contexts -/
  handles : List Nat := []
  ctx : SMap CtxSt := []
  /-- layers of a context, from the array map (R270) -/
  layers : Nat := 1
deriving DecidableEq, Repr

/-- An SQ entry that a queue has fetched and not completed (R304, R305). -/
structure QEnt where
  bytes : List Byte := []
  /-- SQ head after it was fetched -/
  head : Nat := 0
  started : Bool := false
  /-- the DMA engine of Damask 0 that moves its data -/
  engine : Option Nat := none
  /-- once its work has ended: status, bytes moved or token count, image-set sequence number, CRC-32C -/
  fin : Option (Nat × Nat × Nat × Nat) := none
  /-- trim-set versions of its token -/
  trims : List Nat := []
  /-- pod time at which it completed -/
  doneAt : Nat := 0
deriving DecidableEq, Repr

/-- A queue pair (R302 to R308). -/
structure QueueSt where
  cfg : Word := 2
  sq : Nat := 0
  cq : Nat := 0
  en : Bool := false
  sqHead : Nat := 0
  sqTail : Nat := 0
  cqTail : Nat := 0
  cqHead : Nat := 0
  phase : Bool := true
  fetched : List QEnt := []
  /-- completions not yet posted, oldest first -/
  ready : List QEnt := []
  /-- pod times of its host errors -/
  errs : List Nat := []
deriving DecidableEq, Repr

/-- The host interface (chapter 12). -/
structure HifSt where
  q : SMap QueueSt := []
  prot : SMap Word := []
  page : SMap Word := []
  /-- queue fetched from last -/
  last : Nat := 63
  linkUp : Bool := false
  /-- PERST_N is asserted -/
  perst : Bool := false
deriving DecidableEq, Repr

/-- A register-initialisation record (R338). -/
structure InitRec where
  op : Nat := 0
  phase : Nat := 0
  off : Nat := 0
  val : Nat := 0
  mask : Nat := 0
  num : Nat := 0
deriving DecidableEq, Repr

/-- The attestation engine (R344 to R348). -/
structure AttSt where
  /-- the read of the fingerprint array, as the IDENTITY stage took it -/
  finger : List Byte := []
  /-- the device secret, once it is formed -/
  secret : Option (List Byte) := none
  /-- the identifier of the top tree, once the trees are built -/
  treeId : List Byte := []
  built : Bool := false
  /-- the 16 bytes of the copies of the leaf record; a cut-off or failed write leaves none -/
  leafA : List Byte := [0, 0, 0, 0, 0, 0, 0, 0, 0, 0, 0, 0, 0x5D, 0xB5, 0x60, 0x2B]
  leafB : List Byte := []
  next : Nat := 0
  /-- end of the reserved block; equal to `next` when no leaf is left -/
  limit : Nat := 0
  avail : Bool := false
  cause : Nat := 1
  /-- address of the request being signed -/
  req : Option Nat := none
deriving DecidableEq, Repr

/-- Start-up, image and identity (chapter 14). -/
structure ImgSt where
  stage : Nat := 1
  /-- the stage's own work is done; its records may run -/
  worked : Bool := false
  pushed : Bool := false
  /-- the image in the staging cache -/
  cache : List Byte := []
  plain : ImgPlain := {}
  /-- records not yet applied, in file order -/
  recs : List InitRec := []
  serial : Nat := 0
  kind : Nat := 0
  ownerHash : List Byte := []
  /-- Kersey SRAM by core * 2^19 + offset -/
  sram : SMap Byte := []
  /-- the identity store's copies as start-up read them -/
  idA : List Byte := []
  idB : List Byte := []
  /-- what assembly wrote into the two copies before it locked them -/
  lock : Option (List Byte × List Byte) := none
  /-- capacity of the image memory in bytes; 0 while no device answers -/
  cap : Nat := 134217728
  /-- WRITE_IMAGE has erased the image area since assembly, and the sectors it has programmed since then, as they read back -/
  wrote : Bool := false
  flash : SMap (List Byte) := []
  /-- the command of IMG_CMD that runs -/
  cmd : Option Nat := none
  /-- sectors of WRITE_IMAGE still to program, and whether the present one was reprogrammed -/
  sectors : List Nat := []
  again : Bool := false
  att : AttSt := {}
deriving DecidableEq, Repr

/-- A value of the measurement table (R357): corrected code and the round of its conversion. -/
structure MeasEnt where
  value : Int := 0
  round : Nat := 0
deriving DecidableEq, Repr

/-- A software conversion request (R358). -/
structure ConvReq where
  chan : Nat := 0
  pos : Nat := 0
  left : Nat := 1
  interval : Nat := 0
  /-- pod time from which the next conversion may run -/
  due : Nat := 0
deriving DecidableEq, Repr

/-- Supplies, housekeeping and governor (chapter 15). -/
structure PwrSt where
  aGood : Bool := false
  bGood : Bool := false
  activeB : Bool := false
  holdup : Bool := false
  unstable : Bool := false
  /-- pod times of the returns to A -/
  returns : List Nat := []
  /-- every rail in regulation: supply good -/
  rails : Bool := false
  tripping : Bool := false
  latched : Bool := false
  /-- stored copies of the powered-time count with their check values, and the seconds since the last save; a cut-off write leaves none -/
  storeA : List Byte := [0, 0, 0, 0, 0xC7, 0x4B, 0x67, 0x48]
  storeB : List Byte := [0, 0, 0, 0, 0xC7, 0x4B, 0x67, 0x48]
  sinceSave : Nat := 0
  /-- latest raw codes of channels 14 and 0 -/
  z : Int := 0
  v : Int := 2400
  /-- measurement table by channel * 16 + position -/
  meas : SMap MeasEnt := []
  round : Nat := 0
  /-- next channel of the scan, and whether the last conversion was a software one -/
  chan : Nat := 0
  swLast : Bool := false
  conv : Option ConvReq := none
  /-- the request that replaces it after its current conversion -/
  convNext : Option ConvReq := none
  /-- HKA_DATA: channel, position, result; VALID and OVR -/
  data : Nat × Nat × Nat := (0, 0, 0)
  valid : Bool := false
  ovr : Bool := false
  /-- consecutive scans at or above the trip temperature, by channel * 16 + position -/
  hot : SMap Nat := []
  /-- rounds in a row at full scale, by bridge channel -/
  full : SMap Nat := []
  faulty : List Nat := []
  pcap : Nat := 768
  pduty : Nat := 16
  calm : Nat := 0
  /-- the period before was above 2,800 W -/
  above : Bool := false
  tcap : SMap Nat := []
  tduty : SMap Nat := []
  duty : SMap Nat := []
  /-- coolant outputs that a register write has set, and their duties -/
  pwmSet : List Nat := []
  pwm : SMap Nat := []
  /-- THERMTRIP_N is asserted -/
  therm : Bool := false
  /-- SMB_ALERT_N was released by an alert response since the last enabled event -/
  alertDone : Bool := false
  /-- the strap pins SMB_ADDR -/
  addr : Nat := 0
  /-- state words of the SMBus target (R403): last command code, last address byte, PEC failures, bus releases -/
  smbCmd : Nat := 0
  smbByte : Nat := 0
  smbPec : Nat := 0
  smbRel : Nat := 0
deriving DecidableEq, Repr

/-- The faults of the block. -/
inductive Fault where
  /-- Raised by no command of this model: the spec gives the block no fault that ends its run. Safe: it would only stop a run. -/
  | none
deriving DecidableEq, Repr

/-- The refusals of the block. -/
inductive Refusal where
  /-- Raised by `exec` for a command that has no meaning yet, with its mnemonic. Safe: no next state is claimed. -/
  | notModelled (mnemonic : String)
deriving DecidableEq, Repr

/-- The state of the block. -/
structure State where
  /-- BAR0 registers by canonical address; an unlisted register holds its reset value (`regReset`, R8) -/
  regs : SMap Word := []
  /-- per requester and pair: the unused _LO write (R6), by requester code * 2^32 + address -/
  pairLo : SMap (Option Word) := []
  /-- per requester and pair: the captured upper half (R7) -/
  pairCap : SMap (Option Word) := []
  /-- everything sent out, oldest first -/
  out : List Out := []
  /-- the model's own counter of free values (not the spec's) -/
  free : Nat := 0
  /-- values in force of the registers whose writes are format-policy changes (R13), by address -/
  policy : SMap Word := []
  err : ErrSt := {}
  chk : SMap ChkUnit := []
  snp : SnpSt := {}
  irq : SMap IrqSt := []
  ezl : EzlSt := {}
  stp : StepSt := {}
  fmt : FmtSt := {}
  arr : ArrSt := {}
  vec : VecSt := {}
  mxe : MxeSt := {}
  upd : UpdSt := {}
  red : RedSt := {}
  tsk : TskSt := {}
  mem : MemSt := {}
  hif : HifSt := {}
  img : ImgSt := {}
  pwr : PwrSt := {}
  /-- the commands waiting, oldest first -/
  pending : List Instr := []
deriving DecidableEq, Repr

/-- The state right after power-up reset: every field at its default. -/
def State.reset : State := {}

end Sys2Proof.Machine
end

