-- ==== Sys2Proof/Machine/Ops.lean ====
section
/-! DEFINITION. The named operations on `State` that every family shares: registers and pairs, events, the error log,
outputs, free values. -/

namespace Sys2Proof.Machine

/-- What the meaning of a command answers. -/
abbrev Answer := Host.Outcome State Fault Refusal

/-- Apply `f` where `c` holds. -/
def State.when (s : State) (c : Bool) (f : State → State) : State := if c then f s else s

/-! ### Registers -/

/-- The stored value of the register at a BAR0 address. -/
def State.reg (s : State) (a : Nat) : Word := SMap.get regReset s.regs a
/-- A field of a register, as a number. -/
def State.regF (s : State) (a hi lo : Nat) : Nat := fld (s.reg a) hi lo
/-- A bit of a register. -/
def State.regB (s : State) (a i : Nat) : Bool := bitOf (s.reg a) i
/-- Write a register. -/
def State.setReg (s : State) (a : Nat) (v : Word) : State := { s with regs := SMap.set regReset s.regs a v }
/-- Write a register from a number. -/
def State.setRegN (s : State) (a n : Nat) : State := s.setReg a (BitVec.ofNat 32 n)
/-- Write a field of a register. -/
def State.setRegF (s : State) (a hi lo n : Nat) : State := s.setReg a (setFld (s.reg a) hi lo n)
/-- Set a bit of a register. -/
def State.setRegB (s : State) (a i : Nat) (b : Bool) : State := s.setReg a (setBit (s.reg a) i b)
/-- Add to a 32-bit counter that saturates. -/
def State.incReg (s : State) (a n : Nat) : State := s.setRegN a (satAdd 32 (s.reg a).toNat n)
/-- A 64-bit pair: the register at `a` is the lower half. -/
def State.pair (s : State) (a : Nat) : Nat := (s.reg a).toNat + (s.reg (a + 4)).toNat * 2 ^ 32
/-- Write a 64-bit pair. -/
def State.setPair (s : State) (a n : Nat) : State := (s.setRegN a n).setRegN (a + 4) (n / 2 ^ 32)
/-- Add to a 64-bit counter, modulo 2^64. -/
def State.incPair (s : State) (a n : Nat) : State := s.setPair a ((s.pair a + n) % 2 ^ 64)
/-- Set a bit of an EVENTS register. -/
def State.event (s : State) (a i : Nat) : State := s.setRegB a i true

/-! ### Sub-blocks -/

def State.modErr (s : State) (f : ErrSt → ErrSt) : State := { s with err := f s.err }
def State.modSnp (s : State) (f : SnpSt → SnpSt) : State := { s with snp := f s.snp }
def State.modEzl (s : State) (f : EzlSt → EzlSt) : State := { s with ezl := f s.ezl }
def State.modTim (s : State) (f : TimeSt → TimeSt) : State := s.modEzl (fun e => { e with tim := f e.tim })

def State.modStp (s : State) (f : StepSt → StepSt) : State := { s with stp := f s.stp }
def State.modFmt (s : State) (f : FmtSt → FmtSt) : State := { s with fmt := f s.fmt }
def State.modArr (s : State) (f : ArrSt → ArrSt) : State := { s with arr := f s.arr }
def State.modVec (s : State) (f : VecSt → VecSt) : State := { s with vec := f s.vec }
def State.modMxe (s : State) (f : MxeSt → MxeSt) : State := { s with mxe := f s.mxe }
def State.modUpd (s : State) (f : UpdSt → UpdSt) : State := { s with upd := f s.upd }
def State.modRed (s : State) (f : RedSt → RedSt) : State := { s with red := f s.red }
def State.modTsk (s : State) (f : TskSt → TskSt) : State := { s with tsk := f s.tsk }
def State.modMem (s : State) (f : MemSt → MemSt) : State := { s with mem := f s.mem }
def State.modHif (s : State) (f : HifSt → HifSt) : State := { s with hif := f s.hif }
def State.modImg (s : State) (f : ImgSt → ImgSt) : State := { s with img := f s.img }
def State.modPwr (s : State) (f : PwrSt → PwrSt) : State := { s with pwr := f s.pwr }

/-- A Twill unit: `k` is die * 32 + unit. -/
def State.unit (s : State) (k : Nat) : UnitSt := SMap.get (fun _ => {}) s.vec.unit k
def State.setUnit (s : State) (k : Nat) (x : UnitSt) : State :=
  s.modVec (fun v => { v with unit := SMap.set (fun _ => {}) v.unit k x })

/-- A window entry: `k` is die * 4096 + slot (R230). -/
def State.task (s : State) (k : Nat) : Option TaskEnt := SMap.get (fun _ => none) s.tsk.win k
def State.setTask (s : State) (k : Nat) (t : Option TaskEnt) : State :=
  s.modTsk (fun x => { x with win := SMap.set (fun _ => none) x.win k t })

/-- A reduction channel. -/
def State.chan (s : State) (c : Nat) : ChanSt := SMap.get (fun _ => {}) s.red.chan c
def State.setChan (s : State) (c : Nat) (x : ChanSt) : State :=
  s.modRed (fun r => { r with chan := SMap.set (fun _ => {}) r.chan c x })

/-- The update unit of a die. -/
def State.updD (s : State) (d : Nat) : UpdDie := SMap.get (fun _ => {}) s.upd.die d
def State.setUpd (s : State) (d : Nat) (x : UpdDie) : State :=
  s.modUpd (fun u => { u with die := SMap.set (fun _ => {}) u.die d x })

/-- What the module keeps of a context. -/
def State.ctx (s : State) (h : Nat) : CtxSt := SMap.get (fun _ => {}) s.mem.ctx h
def State.setCtx (s : State) (h : Nat) (x : CtxSt) : State :=
  s.modMem (fun m => { m with ctx := SMap.set (fun _ => {}) m.ctx h x })

/-- The counts of the attempt's record. -/
def State.modCnt (s : State) (f : AttemptCnt → AttemptCnt) : State := s.modStp (fun x => { x with cnt := f x.cnt })

/-! ### Policy values in force (R13) -/

/-- The value in force of a register whose writes are format-policy changes. -/
def State.pol (s : State) (a : Nat) : Word := SMap.get regReset s.policy a
def State.polF (s : State) (a hi lo : Nat) : Nat := fld (s.pol a) hi lo
def State.polB (s : State) (a i : Nat) : Bool := bitOf (s.pol a) i
def State.polPair (s : State) (a : Nat) : Nat := (s.pol a).toNat + (s.pol (a + 4)).toNat * 2 ^ 32

/-- A check unit. -/
def State.chkU (s : State) (u : Nat) : ChkUnit := SMap.get (fun _ => {}) s.chk u
def State.setChk (s : State) (u : Nat) (c : ChkUnit) : State := { s with chk := SMap.set (fun _ => {}) s.chk u c }

/-- The interrupt controller of a die. -/
def State.irqD (s : State) (d : Nat) : IrqSt := SMap.get (fun _ => {}) s.irq d
def State.setIrq (s : State) (d : Nat) (q : IrqSt) : State := { s with irq := SMap.set (fun _ => {}) s.irq d q }

/-- A link. -/
def State.lnk (s : State) (l : Nat) : LinkSt := SMap.get (fun _ => {}) s.ezl.link l
def State.setLnk (s : State) (l : Nat) (k : LinkSt) : State :=
  s.modEzl (fun e => { e with link := SMap.set (fun _ => {}) e.link l k })

/-- Pod time in nanoseconds (R290). -/
def State.time (s : State) : Nat := s.ezl.tim.now

/-- Function `f` of DUTY_SPLIT is in host-assisted mode (R248: bit f - 1 of the split in use). -/
def State.fnHost (s : State) (f : Nat) : Bool := s.regB R.DUTY_SPLIT_USED (f - 1)

/-! ### Outputs, log, free values -/

/-- Send something out. -/
def State.emit (s : State) (o : Out) : State := { s with out := s.out ++ [o] }

/-- Queue an error-log entry (R382): a full input queue drops it, counts it and sets DROPPED. -/
def State.logEnt (s : State) (e : LogEnt) : State :=
  if s.err.queue.length < 64 then s.modErr (fun q => { q with queue := q.queue ++ [e] })
  else (s.incReg R.ERR_DROP_CNT 1).event R.ERR_EVENTS 1

/-- Queue an error-log entry of a block and a class (R384), with its EVENTS bit (0xFF: none), cause and detail. -/
def State.log (s : State) (blk cls bit cause detail : Nat) : State := s.logEnt ⟨s.time, blk, cls, bit, cause, detail⟩

/-- Set an EVENTS bit and log it. -/
def State.eventLog (s : State) (a i blk cls cause detail : Nat) : State := (s.event a i).log blk cls i cause detail

/-- The detail of a refused or ignored register write (R381): offset, value, requester. -/
def writeDetail (rq : Requester) (off : Nat) (v : Word) : Nat := off + v.toNat * 2 ^ 32 + rq.code * 2 ^ 64

/-- Log a refused or ignored register write: class REFUSED, the block of the address, its EVENTS bit (0xFF for none), cause. -/
def State.refuseBit (s : State) (rq : Requester) (off : Nat) (v : Word) (cause bit : Nat) : State :=
  let blk := match locate off with
    | some (b, _) => b.code
    | none => 7
  s.log blk 1 bit cause (writeDetail rq off v)

/-- A refused or ignored register write without a bit. -/
def State.refuseWrite (s : State) (rq : Requester) (off : Nat) (v : Word) (cause : Nat) : State := s.refuseBit rq off v cause 0xFF

/-- The index of the next free value, and the state after it is drawn. -/
def State.draw (s : State) : Nat × State := (s.free, { s with free := s.free + 1 })

/-! ### Start-up and the host (R329 to R331) -/

/-- Start-up has ended: STAGE is READY. -/
def State.ready (s : State) : Bool := decide (s.img.stage = 0xB)

/-- Until READY and in the fault states, BAR2 and BAR4 are answered as an unassigned address (R331, R399): a read gives zeros. -/
def State.unassignedRead (s : State) (len : Nat) : State := s.emit (.hostData (List.replicate len 0) false)
/-- A write to an unassigned address is discarded and logged. -/
def State.unassignedWrite (s : State) (off len : Nat) : State := s.log 7 1 0xFF 1 (off + len * 2 ^ 64)

end Sys2Proof.Machine
end

