-- ==== Sys2Proof/Machine/MemOps.lean ====
section
/-! DEFINITION. The memories of the module: HBM (R252, R254), the two state copies and the logical state space (R21 to R24, R182),
the step-record ring and scale logs (R45, R46). -/

namespace Sys2Proof.Machine

/-! ### HBM -/

/-- HBM holds 0x90_0000_0000 bytes (R252). -/
def hbmSize : Nat := 0x9000000000

/-- The die whose stacks hold an address (R252). -/
def dieOfAddr (a : Nat) : Nat := if a < 0x4800000000 then 0 else 1

/-- `n` bytes from `a` lie in HBM. -/
def inHbm (a n : Nat) : Bool := decide (a + n ≤ hbmSize)

/-- A byte of HBM. -/
def MemSt.byte (m : MemSt) (a : Nat) : Byte := SMap.get (fun _ => 0) m.hbm a

/-- `n` bytes of HBM. -/
def MemSt.bytes (m : MemSt) (a n : Nat) : List Byte := (List.range n).map (fun i => m.byte (a + i))

/-- The little-endian number in `n` bytes of HBM. -/
def MemSt.num (m : MemSt) (a n : Nat) : Nat := ofLe (m.bytes a n)

/-- Write one byte; the 32-byte unit it lies in is correct again (R254). -/
def MemSt.setByte (m : MemSt) (a : Nat) (b : Byte) : MemSt :=
  if a < hbmSize then
    { m with hbm := SMap.set (fun _ => 0) m.hbm a b, bad := m.bad.filter (· ≠ a / 32), soft := m.soft.filter (· ≠ a / 32) }
  else m

/-- Write bytes from an address up; bytes outside HBM are not written. -/
def MemSt.write (m : MemSt) (a : Nat) : List Byte → MemSt
  | [] => m
  | b :: bs => MemSt.write (m.setByte a b) (a + 1) bs

def State.hbm (s : State) (a n : Nat) : List Byte := s.mem.bytes a n
def State.hbmNum (s : State) (a n : Nat) : Nat := s.mem.num a n
def State.hbmWrite (s : State) (a : Nat) (bs : List Byte) : State := s.modMem (fun m => m.write a bs)

/-- The stack of HBM that an address lies in, 6d + (g mod 6) for granule g of its die, and its address there (R252). -/
def stackOf (a : Nat) : Nat := 6 * dieOfAddr a + (a % 0x4800000000) / 4096 % 6
def stackAddr (a : Nat) : Nat := (a % 0x4800000000) / 4096 / 6 * 4096 + a % 4096

/-- The uncorrectable units in a range. -/
def MemSt.badIn (m : MemSt) (a n : Nat) : List Nat :=
  if n = 0 then [] else m.bad.filter (fun u => decide (a / 32 ≤ u) && decide (u ≤ (a + n - 1) / 32))

/-- The units in a range that a read corrects. -/
def MemSt.softIn (m : MemSt) (a n : Nat) : List Nat :=
  if n = 0 then [] else m.soft.filter (fun u => decide (a / 32 ≤ u) && decide (u ≤ (a + n - 1) / 32) && !(m.bad.contains u))

/-- A read that corrects a unit is counted, and has no other effect (R254). -/
def State.ceNote (s : State) (u : Nat) : State := s.incReg (R.MEM_CE_CNT (dieOfAddr (u * 32))) 1
def State.ceNotes (s : State) (us : List Nat) : State := us.foldl State.ceNote s

/-- A read that meets an uncorrectable unit is counted, its address recorded, UE set and logged (R254). -/
def State.ueNote (s : State) (u : Nat) : State :=
  let d := dieOfAddr (u * 32)
  let s := (s.incReg (R.MEM_UE_CNT d) 1).setPair (R.MEM_UE_ADDR d) (u * 32)
  s.eventLog R.MEM_EVENTS 0 (0x13 + d) 5 0 (u * 32)

/-- Every uncorrectable unit that a read met is counted and recorded. -/
def State.ueNotes (s : State) (us : List Nat) : State := us.foldl State.ueNote s

/-- What a read of `n` bytes from `a` reports: units corrected, and uncorrectable ones. -/
def State.readNotes (s : State) (a n : Nat) : State := (s.ceNotes (s.mem.softIn a n)).ueNotes (s.mem.badIn a n)

/-- Read for an engine: the bytes, the state after, and whether the read met an uncorrectable unit. -/
def State.hbmRead (s : State) (a n : Nat) : List Byte × State × Bool :=
  (s.hbm a n, s.readNotes a n, !(s.mem.badIn a n).isEmpty)

/-! ### Stream prefetchers (R255, R258) -/

/-- Lines of a stream that are resident: fetched and not yet read. -/
def StreamSt.resident (x : StreamSt) : Nat := x.fetched - (x.done.filter (fun i => decide (i < x.fetched))).length

/-- A consumer reads a line: an index of the stream, released when it was resident. -/
def StreamSt.take (x : StreamSt) (line : Nat) : StreamSt × Bool :=
  match x.lines.findIdx? (fun y => y == line) with
  | some i => if x.done.contains i then (x, false) else ({ x with done := x.done ++ [i] }, decide (x.fetched ≤ i))
  | none => (x, false)

/-- A consumer of a die reads `n` bytes from `a`: lines of its streams are released, and those not yet resident count as misses. -/
def State.noteRead (s : State) (d a n : Nat) : State :=
  if s.mem.pf.isEmpty then s else
  let lines := (List.range ((a + n + 255) / 256 - a / 256)).map (fun i => a / 256 + i)
  let r := s.mem.pf.foldl (fun (acc : SMap (Option StreamSt) × Nat) p =>
    match p.2 with
    | some x =>
      if p.1 / 64 = d then
        let y := lines.foldl (fun (b : StreamSt × Nat) l => let t := b.1.take l; (t.1, b.2 + t.2.toNat)) (x, acc.2)
        (acc.1 ++ [(p.1, some y.1)], y.2)
      else (acc.1 ++ [p], acc.2)
    | none => (acc.1 ++ [p], acc.2)) ([], 0)
  (s.modMem (fun m => { m with pf := r.1 })).incReg (R.MEM_PF_MISS_CNT d) r.2

/-! ### State copies (R21, R22) -/

/-- A byte of a state copy: an unlisted byte of generation 0 reads 0, of any other generation it is undefined (R22). -/
def CopyMem.byte (c : CopyMem) (o : Nat) : Byte :=
  match SMap.find c.bytes o with
  | some b => b
  | none => if c.gen = 0 then 0 else Config.undefByte c.gen o

def CopyMem.set (c : CopyMem) (o : Nat) (b : Byte) : CopyMem :=
  { c with bytes := if c.gen = 0 then SMap.set (fun _ => 0) c.bytes o b else SMap.insert o b c.bytes }

def CopyMem.write (c : CopyMem) (o : Nat) : List Byte → CopyMem
  | [] => c
  | b :: bs => CopyMem.write (c.set o b) (o + 1) bs

def CopyMem.read (c : CopyMem) (o n : Nat) : List Byte := (List.range n).map (fun i => c.byte (o + i))

/-- The copy that COPY_SEL = `sel` names. -/
def MemSt.copy (m : MemSt) (sel : Bool) : CopyMem := if sel then m.copy1 else m.copy0
def MemSt.setCopy (m : MemSt) (sel : Bool) (c : CopyMem) : MemSt := if sel then { m with copy1 := c } else { m with copy0 := c }

/-- The committed copy, and the write copy. -/
def State.committed (s : State) : CopyMem := s.mem.copy s.stp.copySel
def State.writeCopy (s : State) : CopyMem := s.mem.copy (!s.stp.copySel)

/-- After an abort or a skip the content of the write copy is undefined (R22): a fresh generation. -/
def State.spoilWriteCopy (s : State) : State :=
  let x := s.draw
  x.2.modMem (fun m => m.setCopy (!s.stp.copySel) { gen := x.1 + 1, bytes := [] })

/-! ### The logical state space (R23, R181, R182) -/

/-- Columns and rows of an entry's 32 x 32 block grid, and its blocks. -/
def StateEnt.bcols (e : StateEnt) : Nat := (e.cols + 31) / 32
def StateEnt.brows (e : StateEnt) : Nat := (e.rows + 31) / 32
def StateEnt.blocks (e : StateEnt) : Nat := e.brows * e.bcols
/-- Bytes of an entry: master weights, moments, remainder and one scale byte per block. -/
def StateEnt.size (e : StateEnt) : Nat := 13313 * e.blocks

/-- Where the entries of the state table begin in the logical state space. -/
def stateBases : Nat → List StateEnt → List Nat
  | _, [] => []
  | o, e :: es => o :: stateBases (o + e.size) es

def UpdSt.baseOf (u : UpdSt) (i : Nat) : Nat := (stateBases 0 u.table).getD i 0
def UpdSt.space (u : UpdSt) : Nat := (u.table.map StateEnt.size).sum

/-- Offset of element `el` (0 to 1,023) of block `blk` in part 0 (master), 1, 2 (moments), 3 (remainder), 4 (block scale). -/
def StateEnt.partOff (e : StateEnt) (part blk el : Nat) : Nat :=
  match part with
  | 0 => 4 * (blk * 1024 + el)
  | 1 => 4096 * e.blocks + 4 * (blk * 1024 + el)
  | 2 => 8192 * e.blocks + 4 * (blk * 1024 + el)
  | 3 => 12288 * e.blocks + blk * 1024 + el
  | _ => 13312 * e.blocks + blk

/-- Whether element `el` of block `blk` lies in the tensor (R182). -/
def StateEnt.inside (e : StateEnt) (blk el : Nat) : Bool :=
  decide ((blk / e.bcols) * 32 + el / 32 < e.rows) && decide ((blk % e.bcols) * 32 + el % 32 < e.cols)

/-- Whether a byte of an entry (offset in the entry) lies on an element position outside the tensor. -/
def StateEnt.edgeByte (e : StateEnt) (o : Nat) : Bool :=
  let n := e.blocks
  if o < 12288 * n then
    let i := (o % (4096 * n)) / 4
    !e.inside (i / 1024) (i % 1024)
  else if o < 13312 * n then
    let i := o - 12288 * n
    !e.inside (i / 1024) (i % 1024)
  else false

/-- The entry and the offset in it of a logical-state-space byte. -/
def UpdSt.locate (u : UpdSt) (o : Nat) : Option (StateEnt × Nat) :=
  ((u.table.zip (stateBases 0 u.table)).find? (fun p => decide (p.2 ≤ o) && decide (o < p.2 + p.1.size))).map
    (fun p => (p.1, o - p.2))

/-- Whether a byte of the logical state space holds state: it exists and lies on no position outside its tensor. -/
def UpdSt.holds (u : UpdSt) (o : Nat) : Bool :=
  match u.locate o with
  | some (e, i) => !e.edgeByte i
  | none => false

/-! ### Step records (R45, R46) -/

/-- Saturation of a count field to its width in bytes (R45). -/
def satField (k n : Nat) : Nat := min n (2 ^ (8 * k) - 1)

/-- 2-bit gradient formats of 128 layers. -/
def formatBytes (m : SMap Nat) : List Byte :=
  (List.range 32).map (fun i => byteOf ((List.range 4).foldl (fun a j => a + (SMap.get (fun _ => 0) m (4 * i + j) % 4) * 4 ^ j) 0))

/-- The 64 bytes of a hash field: 32 bytes, zero-padded. -/
def hashBytes (h : List Byte) : List Byte := sliceB h 0 32

/-- The used bytes of the scale-log slot. -/
def RecEnt.scaleBytes (r : RecEnt) : List Byte := r.scale.flatMap (fun w => leBytes 4 w.toNat)

/-- The scale-log entry count: 0 in the record of a host skip (R422). -/
def RecEnt.scaleCount (r : RecEnt) : Nat := if r.outcome = 4 then 0 else r.scale.length

/-- Bytes 0x00 to 0xFB of a record. -/
def RecEnt.body (r : RecEnt) : List Byte :=
  leBytes 8 r.seq ++ leBytes 8 r.step ++ leBytes 1 r.attempt ++ leBytes 1 r.outcome ++ leBytes 1 r.pos ++ leBytes 1 r.n
    ++ leBytes 2 r.reason ++ leBytes 1 r.voter ++ leBytes 1 r.phase ++ leBytes 4 r.imgSeq ++ leBytes 4 r.trim ++ hashBytes r.hash
    ++ leBytes 8 r.tFirst ++ leBytes 8 r.tDec ++ leBytes 4 r.stepSize.toNat ++ leBytes 4 r.duty.toNat ++ formatBytes r.formats
    ++ leBytes 1 (satField 1 r.fbLayers) ++ leBytes 1 (satField 1 r.msLayers) ++ leBytes 1 (satField 1 r.ckLayers) ++ leBytes 1 0
    ++ leBytes 4 r.scaleCount ++ leBytes 4 (crc32c r.scaleBytes) ++ leBytes 4 (satField 4 r.buckets)
    ++ leBytes 8 (satField 8 r.sat) ++ leBytes 8 (satField 8 r.clips) ++ leBytes 8 (satField 8 r.clamps)
    ++ leBytes 4 (satField 4 r.nan) ++ leBytes 4 (satField 4 r.inf) ++ leBytes 4 (satField 4 r.marked) ++ leBytes 4 r.red
    ++ List.replicate 76 0

/-- The 256 bytes of a record; an entry not yet written reads zero. -/
def RecEnt.bytes (r : RecEnt) : List Byte :=
  if r.seq = 0 then List.replicate 256 0 else r.body ++ leBytes 4 (crc32c r.body)

/-- The 16 KiB of a scale-log slot: zero beyond the used entries. -/
def RecEnt.slotByte (r : RecEnt) (o : Nat) : Byte := (r.scaleBytes).getD o 0

def State.record (s : State) (i : Nat) : RecEnt := SMap.get (fun _ => {}) s.mem.records i

def State.setRecord (s : State) (i : Nat) (r : RecEnt) : State :=
  s.modMem (fun m => { m with records := SMap.set (fun _ => {}) m.records i r })

end Sys2Proof.Machine
end

