-- ==== Sys2Proof/Machine/ArrMap.lean ====
section
/-! DEFINITION. The array map and the state kept per matrix, position, tile and physical array (R82, R99, R102), the image set and its
hash (R15 to R17). -/

namespace Sys2Proof.Machine

/-- Row blocks, column blocks and positions of a matrix (R82, R102). -/
def MatEnt.rb (e : MatEnt) : Nat := (e.k + e.h - 1) / e.h
def MatEnt.cbs (e : MatEnt) : Nat := (e.n + 511) / 512
def MatEnt.count (e : MatEnt) : Nat := e.rb * e.cbs
/-- Active rows of row block `b`. -/
def MatEnt.rows (e : MatEnt) (b : Nat) : Nat := min e.h (e.k - b * e.h)
/-- Weight columns of column block `c`. -/
def MatEnt.cols (e : MatEnt) (c : Nat) : Nat := min 512 (e.n - 512 * c)
/-- Combine groups per column block, and the row blocks of one. -/
def MatEnt.groups (e : MatEnt) : Nat := (e.rb + 15) / 16
def MatEnt.grpBlocks (e : MatEnt) (g : Nat) : List Nat := (List.range (min 16 (e.rb - 16 * g))).map (fun i => 16 * g + i)
/-- Die-local position of row block `b` of column block `c`. -/
def MatEnt.posOf (e : MatEnt) (c b : Nat) : Nat := e.first + c * e.rb + b
/-- Group active row count. -/
def MatEnt.ng (e : MatEnt) (g : Nat) : Nat := (e.grpBlocks g).foldl (fun a b => max a (e.rows b)) 0
/-- Bytes of a matrix in the code areas: its codes per weight column, then its column scales. -/
def MatEnt.areaBytes (e : MatEnt) : Nat := e.k * e.n + 2 * e.n

/-- The entry of a matrix of a Kaolin die (R102). -/
def State.matAt (s : State) (die idx : Nat) : Option MatEnt := s.arr.map.find? (fun e => e.die == die && e.idx == idx)

/-- The matrix that holds a die-local position, with its column block and row block. -/
def State.posMat (s : State) (die pos : Nat) : Option (MatEnt × Nat × Nat) :=
  (s.arr.map.find? (fun e => e.die == die && decide (e.first ≤ pos) && decide (pos < e.first + e.count))).map
    (fun e => (e, (pos - e.first) / e.rb, (pos - e.first) % e.rb))

/-- Offset of a matrix in the code areas: matrices lie in array-map order. -/
def areaOff : List MatEnt → Nat → Nat → Nat
  | [], _, _ => 0
  | e :: es, die, idx => if e.die = die ∧ e.idx = idx then 0 else e.areaBytes + areaOff es die idx

/-- HBM address of code (k, j) of a matrix in an area: the K codes of a weight column are contiguous (R163). -/
def State.codeAddr (s : State) (area : Nat) (e : MatEnt) (k j : Nat) : Nat :=
  area + areaOff s.arr.map e.die e.idx + j * e.k + k

/-- HBM address of the FP16 scale of weight column j in an area. -/
def State.scaleAddr (s : State) (area : Nat) (e : MatEnt) (j : Nat) : Nat :=
  area + areaOff s.arr.map e.die e.idx + e.k * e.n + 2 * j

/-! ### State per matrix, position, tile, array, die -/

def State.mat (s : State) (die idx : Nat) : MatSt := SMap.get (fun _ => {}) s.arr.mat (die * 2048 + idx)
def State.setMat (s : State) (die idx : Nat) (x : MatSt) : State :=
  s.modArr (fun a => { a with mat := SMap.set (fun _ => {}) a.mat (die * 2048 + idx) x })

/-- A position as nothing has changed it: served by the array of its own slot. -/
def posDefault (k : Nat) : PosSt := { slot := some (k % 16) }
def State.pos (s : State) (die p : Nat) : PosSt := SMap.get posDefault s.arr.pos (die * 1536 + p)
def State.setPos (s : State) (die p : Nat) (x : PosSt) : State :=
  s.modArr (fun a => { a with pos := SMap.set posDefault a.pos (die * 1536 + p) x })

def State.tile (s : State) (die t : Nat) : TileSt := SMap.get (fun _ => {}) s.arr.tile (die * 96 + t)
def State.setTile (s : State) (die t : Nat) (x : TileSt) : State :=
  s.modArr (fun a => { a with tile := SMap.set (fun _ => {}) a.tile (die * 96 + t) x })

/-- A physical array: number 17 * tile + slot on its die. -/
def State.phys (s : State) (die p : Nat) : PhysSt := SMap.get (fun _ => {}) s.arr.phys (die * 1632 + p)
def State.setPhys (s : State) (die p : Nat) (x : PhysSt) : State :=
  s.modArr (fun a => { a with phys := SMap.set (fun _ => {}) a.phys (die * 1632 + p) x })

def State.kao (s : State) (die : Nat) : KaolinSt := SMap.get (fun _ => {}) s.arr.die die
def State.setKao (s : State) (die : Nat) (x : KaolinSt) : State :=
  s.modArr (fun a => { a with die := SMap.set (fun _ => {}) a.die die x })

/-- The physical array that serves a position now. -/
def State.physOf (s : State) (die p : Nat) : Option Nat := (s.pos die p).slot.map (fun x => 17 * (p / 16) + x)

/-- The physical array that serves a position for work that runs under a view (R19, R99). -/
def State.physFor (s : State) (die p view : Nat) : Option Nat :=
  let x := s.pos die p
  match x.prev with
  | some (sl, v) => if view < v then some (17 * (p / 16) + sl) else x.slot.map (fun y => 17 * (p / 16) + y)
  | none => x.slot.map (fun y => 17 * (p / 16) + y)

/-- Some token in flight began under an older view. -/
def State.olderToken (s : State) (v : Nat) : Bool := s.mem.ctx.any (fun c => c.2.inTok && decide (c.2.view < v))

/-- A byte of the shadow codes as work under a view reads it: of its own image set (R18, R19). -/
def State.viewByte (s : State) (view a : Nat) : Byte :=
  (((s.arr.old.filter (fun o => decide (view < o.view))).findSome? (fun o => SMap.find o.bytes a))).getD (s.mem.byte a)

/-- A 2-byte number of the shadow codes as work under a view reads it. -/
def State.viewNum (s : State) (view a : Nat) : Nat := ofLe [s.viewByte view a, s.viewByte view (a + 1)]

/-- Before a boundary replaces the shadow codes of a position from view `v` on, they are kept for the tokens in flight. -/
def State.keepOld (s : State) (v d p : Nat) : State :=
  match s.posMat d p with
  | some (e, cb, rb) =>
    if s.olderToken v then
      let codes := (List.range (e.rows rb)).flatMap (fun r => (List.range (e.cols cb)).map (fun c =>
        s.codeAddr s.arr.shadow e (rb * e.h + r) (512 * cb + c)))
      let scales := (List.range (e.cols cb)).flatMap (fun c =>
        [s.scaleAddr s.arr.shadow e (512 * cb + c), s.scaleAddr s.arr.shadow e (512 * cb + c) + 1])
      s.modArr (fun a => { a with old := a.old ++ [{ view := v, bytes := (codes ++ scales).map (fun x => (x, s.mem.byte x)) }] })
    else s
  | none => s

/-- Every position of the array map: (die, position). -/
def State.allPos (s : State) : List (Nat × Nat) :=
  s.arr.map.flatMap (fun e => (List.range e.count).map (fun i => (e.die, e.first + i)))

/-- What enters and leaves digital fallback together: a layer, or a matrix outside any layer by itself. DEDUCED: the rules on fallback name
layers; a matrix whose entry gives the layer 0xFF follows them as a layer of its own. -/
def MatEnt.unit (e : MatEnt) : Nat := if e.layer < 128 then e.layer else 128 + 2048 * e.die + e.idx

/-- The positions of a layer. -/
def State.layerPos (s : State) (layer : Nat) : List (Nat × Nat) :=
  (s.arr.map.filter (fun e => e.unit == layer)).flatMap (fun e => (List.range e.count).map (fun i => (e.die, e.first + i)))

/-- The layers of the array map, in ascending order. -/
def State.layerList (s : State) : List Nat :=
  (List.range 128).filter (fun l => s.arr.map.any (fun e => e.layer == l))
/-- The layers, then the matrices outside any layer. -/
def State.unitList (s : State) : List Nat := s.layerList ++ ((s.arr.map.filter (fun e => decide (128 ≤ e.layer))).map MatEnt.unit)

/-- Whether a matrix has master weights: some state-table entry names it (R114, R181). -/
def State.hasMaster (s : State) (e : MatEnt) : Bool :=
  s.upd.table.any (fun t => t.mat == e.idx && t.kaolin == e.die)

/-- A layer runs in digital fallback. -/
def State.layerFb (s : State) (layer : Nat) : Bool := (s.layerPos layer).any (fun p => (s.pos p.1 p.2).fb)

/-! ### The image set (R16) -/

/-- The 8 bytes of a position's entry. -/
def PosSt.imageBytes (p : PosSt) : List Byte :=
  leBytes 4 p.version ++ leBytes 4 (p.fb.toNat + 2 * p.msUse.toNat)

/-- The 196,608 bytes of the image set in logical-position order. -/
def State.imageBytes (s : State) : List Byte :=
  (List.range 24576).flatMap (fun k => (SMap.get posDefault s.arr.pos k).imageBytes)

/-- The image-set hash. -/
def State.imageHash (s : State) : List Byte := sha256 s.imageBytes

end Sys2Proof.Machine
end

