-- ==== Sys2Proof/Machine/ArrOps.lean ====
section
/-! DEFINITION. What the arrays do at a boundary and what several of their commands share: error estimates, image lag and
thresholds (R113, R124), codes of a position in the HBM areas (R115, R199), trim entries and banks (R110 to R112), programming jobs
(R113), swaps (R121, R122), digital fallback (R125, R126), and the release of what older tokens used (R19, R112, R120). -/

namespace Sys2Proof.Machine

/-! ### Thresholds -/

/-- An error estimate is at or above `n` units of 0.01 %. -/
def epsAtLeast (w : Word) (n : Nat) : Bool := XNum.le (XNum.ofNat n) (XNum.mul (f32 w) (XNum.ofNat 10000))
/-- An error estimate in units of 0.01 %, saturating at 255. -/
def epsUnits (w : Word) : Nat := (clampInt 0 255 (XNum.floorInt (XNum.mul (f32 w) (XNum.ofNat 10000)))).toNat
/-- The verify error of an array, FP32. -/
def PhysSt.epsV (p : PhysSt) : Word := match p.record with
  | some r => toF32 (fp16 r.epsV)
  | none => 0
/-- The error estimate of an array (R109): of its last fit, before a fit its verify error. -/
def PhysSt.epsHat (p : PhysSt) : Word := match p.fit with
  | some f => f.eps
  | none => p.epsV

def State.refreshThresh (s : State) (d : Nat) : Nat := s.polF (R.ARR_REFRESH_CFG d) 31 24
def State.errLimit (s : State) (d : Nat) : Nat := max (s.refreshThresh d) (s.polF (R.ARR_REFRESH_CFG d) 23 16)
def State.lagBound (s : State) (d : Nat) : Nat := max 1 (s.polF (R.ARR_REFRESH_CFG d) 4 0)

/-- The lag of codes of image step `n` (R124). -/
def State.lagOf (s : State) (n : Nat) : Nat := s.pair R.STEP_COUNT - n
/-- The image lag of a position: 0 without master weights, above the bound while rescaled (R124, R201). -/
def State.posLag (s : State) (d p : Nat) : Nat :=
  match s.posMat d p with
  | some (e, _, _) =>
    if s.hasMaster e then (if (s.pos d p).rescaled then max (s.lagBound d + 1) (s.lagOf (s.pos d p).step) else s.lagOf (s.pos d p).step)
    else 0
  | none => 0
/-- The array that serves a position. -/
def State.physAt (s : State) (d p : Nat) : PhysSt := match s.physOf d p with
  | some a => s.phys d a
  | none => {}

/-! ### Codes -/

/-- The cells of a position: (row in the array, weight column in the array), with their row and column of the matrix. -/
def posCells (e : MatEnt) (cb rb : Nat) : List (Nat × Nat × Nat × Nat) :=
  (List.range (e.rows rb)).flatMap (fun r => (List.range (e.cols cb)).map (fun c => (r, c, rb * e.h + r, 512 * cb + c)))

/-- Whether two areas hold the same codes and column scales for a position. -/
def State.areasAgree (s : State) (x y d p : Nat) : Bool :=
  match s.posMat d p with
  | none => true
  | some (e, cb, rb) =>
    (posCells e cb rb).all (fun q => s.hbm (s.codeAddr x e q.2.2.1 q.2.2.2) 1 == s.hbm (s.codeAddr y e q.2.2.1 q.2.2.2) 1)
      && (List.range (e.cols cb)).all (fun c => s.hbm (s.scaleAddr x e (512 * cb + c)) 2 == s.hbm (s.scaleAddr y e (512 * cb + c)) 2)

/-- Copy the codes and column scales of a position from one area to another. -/
def State.copyArea (s : State) (x y d p : Nat) : State :=
  match s.posMat d p with
  | none => s
  | some (e, cb, rb) =>
    let s' := (posCells e cb rb).foldl (fun t q => t.hbmWrite (s.codeAddr y e q.2.2.1 q.2.2.2) (s.hbm (s.codeAddr x e q.2.2.1 q.2.2.2) 1)) s
    (List.range (e.cols cb)).foldl (fun t c => t.hbmWrite (s.scaleAddr y e (512 * cb + c)) (s.hbm (s.scaleAddr x e (512 * cb + c)) 2)) s'

/-- A code and a column scale of an array. DESIGN CHOICE: the column scale of an array never programmed is 1.0 (0x3C00); the spec gives none. -/
def PhysSt.code (a : PhysSt) (r c : Nat) : Byte := SMap.get (fun _ => 0) a.codes (r * 512 + c)
def PhysSt.scale (a : PhysSt) (c : Nat) : Nat := SMap.get (fun _ => 0x3C00) a.scales c
/-- The value of a code byte (R58). -/
def codeVal (b : Byte) : Int := (codeOf b).1
/-- The measured code of a cell pair (R128), in quarter units, from -63 to +63. -/
def PhysSt.measured (a : PhysSt) (r c : Nat) : Int :=
  clampInt (-63) 63 (4 * codeVal (a.code r c) + SMap.get (fun _ => 0) a.meas (r * 512 + c))

/-- Whether an array holds the target codes and scales of a position. -/
def State.physIsTarget (s : State) (d p : Nat) (a : PhysSt) : Bool :=
  match s.posMat d p with
  | none => true
  | some (e, cb, rb) =>
    (posCells e cb rb).all (fun q => [a.code q.1 q.2.1] == s.hbm (s.codeAddr s.arr.target e q.2.2.1 q.2.2.2) 1)
      && (List.range (e.cols cb)).all (fun c => a.scale c == s.hbmNum (s.scaleAddr s.arr.target e (512 * cb + c)) 2)

/-- An array's codes, scales and measured codes become the shadow codes and the measured shadow of a position (R128, R131). -/
def State.shadowFrom (s : State) (d p : Nat) (a : PhysSt) : State :=
  match s.posMat d p with
  | none => s
  | some (e, cb, rb) =>
    let s' := (posCells e cb rb).foldl (fun t q =>
      (t.hbmWrite (s.codeAddr s.arr.shadow e q.2.2.1 q.2.2.2) [a.code q.1 q.2.1]).hbmWrite
        (s.codeAddr s.arr.measured e q.2.2.1 q.2.2.2) [byteOf (toTwos 8 (a.measured q.1 q.2.1))]) s
    (List.range (e.cols cb)).foldl (fun t c =>
      t.hbmWrite (s.scaleAddr s.arr.shadow e (512 * cb + c)) (leBytes 2 (a.scale c))) s'

/-! ### Trim entries and banks (R110 to R112) -/

def KaolinSt.bankInForce (k : KaolinSt) : SMap TrimEnt := if k.bankSel then k.bank1 else k.bank0
/-- The trim bank for work that runs under a view: the held one for a token that began before the change (R112, R123). -/
def KaolinSt.bankFor (k : KaolinSt) (view : Nat) : Bool := match k.held with
  | some v => if view < v then !k.bankSel else k.bankSel
  | none => k.bankSel
def KaolinSt.otherBank (k : KaolinSt) : SMap TrimEnt := if k.bankSel then k.bank0 else k.bank1
def KaolinSt.setOther (k : KaolinSt) (b : SMap TrimEnt) : KaolinSt := if k.bankSel then { k with bank0 := b } else { k with bank1 := b }

/-- Key of the trim entry of array weight column `j` of a combine group: the group's first position * 512 + j. -/
def MatEnt.trimKey (e : MatEnt) (cb g j : Nat) : Nat := e.posOf cb (16 * g) * 512 + j

/-- What the trim set takes from one array of a group with `n` active rows. -/
structure TrimPart where
  n : Word
  gain : Word
  off : Word
  c : Word
  ddd : Word
  tc : Word
  tm : Word
deriving DecidableEq, Repr

def PhysSt.trimPart (a : PhysSt) (rows j : Nat) : TrimPart :=
  { n := toF32 (XNum.ofNat rows)
    gain := toF32 (fp16 (SMap.get (fun _ => 0x3C00) a.vgain j))
    off := toF32 (fp16 (SMap.get (fun _ => 0) a.voff j))
    c := match a.fit with | some f => f.c | none => 0x3F800000
    ddd := match a.fit with | some f => f32Sub f.dd (match a.record with | some r => r.dref | none => 0) | none => 0
    tc := a.tc
    tm := match a.fit with
      | some f => f.tm
      | none => match a.record with | some r => toF32 (fp16 r.tm) | none => 0 }

def sumF32 (l : List Word) : Word := l.foldl f32Add 0

/-- The trim entry of a weight column of a combine group (R110). -/
def trimOf (tcOff : Bool) (l : List TrimPart) : TrimEnt :=
  let ns := sumF32 (l.map (·.n))
  let h := fun (w : Word) => toFp16 (f32 w)
  { gain := h (f32Div (sumF32 (l.map (fun x => f32Mul (f32Mul x.n x.gain) x.c))) ns)
    off := h (sumF32 (l.map (fun x => f32Sub x.off x.ddd)))
    tc := if tcOff then 0 else h (f32Div (sumF32 (l.map (fun x => f32Mul x.n x.tc))) ns)
    t0 := h (f32Div (sumF32 (l.map (·.tm))) (toF32 (XNum.ofNat l.length))) }

/-- Write the trim entries of one combine group into a bank. -/
def State.trimGroup (s : State) (d : Nat) (e : MatEnt) (cb g : Nat) (b : SMap TrimEnt) : SMap TrimEnt :=
  let arrays := (e.grpBlocks g).filterMap (fun rb => (s.physOf d (e.posOf cb rb)).map (fun a => (e.rows rb, s.phys d a)))
  (List.range (e.cols cb)).foldl (fun b j =>
    SMap.set (fun _ => {}) b (e.trimKey cb g j) (trimOf (s.regB (R.ARR_DRIFT_CTRL d) 2) (arrays.map (fun x => x.2.trimPart x.1 j)))) b

/-- The whole trim set of a die as the monitor forms it now. -/
def State.trimSet (s : State) (d : Nat) : SMap TrimEnt :=
  (s.arr.map.filter (fun e => e.die == d)).foldl (fun b e =>
    (List.range e.cbs).foldl (fun b cb => (List.range e.groups).foldl (fun b g => s.trimGroup d e cb g b) b) b) []

/-- The monitor publishes the set it has built (R111, R112). -/
def State.publish (s : State) (d : Nat) : State :=
  (s.setKao d { (s.kao d).setOther (s.trimSet d) with published := true }).event (R.ARR_DRIFT_EVENTS d) 0

/-! ### Programming jobs (R113, R114) -/

/-- The codes of a position that a job programs are those in force, in the shadow-code area, where no projection forms them: a matrix
without master weights, codes of the image, codes of LOAD (R114, R132, R418). -/
def State.fromShadow (s : State) (d p : Nat) : Bool :=
  (s.pos d p).noProj || (s.posMat d p).elim true (fun m => !s.hasMaster m.1)

/-- Queue a programming job, or let the job queued for the position absorb the trigger; of a position in digital fallback the class is 1. -/
def State.queueJob (s : State) (d p cls0 : Nat) : State :=
  let k := s.kao d
  let refresh := decide (cls0 = 3) || decide (cls0 = 4)
  let cls := if (s.pos d p).fb then 1 else cls0
  let fromShadow := s.fromShadow d p
  let s := s.when refresh (fun s =>
    let s := s.event (R.ARR_DRIFT_EVENTS d) 1
    let s := s.when ((s.posMat d p).elim false (fun m => s.hasMaster m.1)) (fun s => s.setPos d p { s.pos d p with mark := true })
    s.when (decide ((s.tile d (p / 16)).spare = .none)) (fun s => s.event (R.ARR_DRIFT_EVENTS d) 5))
  match k.jobs.find? (fun j => j.pos == p) with
  | some j =>
    s.setKao d { k with jobs := k.jobs.map (fun x => if x = j then { x with cls := min x.cls cls, refresh := x.refresh || refresh,
                                                                             fromShadow := x.fromShadow && fromShadow } else x) }
  | none =>
    (s.setKao d { k with jobs := k.jobs ++ [{ pos := p, cls := cls, age := s.arr.jobAge, refresh := refresh, fromShadow := fromShadow }] }).modArr
      (fun a => { a with jobAge := a.jobAge + 1 })

/-! ### Retirement (R117) -/

/-- Some row of the array has reached 1,000,000 writes. -/
def PhysSt.worn (a : PhysSt) : Bool := a.writes.any (fun p => decide (1000000 ≤ p.2))

/-- Mark an array as retired; no calibration read of it is due any more. -/
def State.retireArray (s : State) (d tile slot : Nat) : State :=
  let a := s.phys d (17 * tile + slot)
  let s := s.setPhys d (17 * tile + slot) { a with record := some { (a.record.getD {}) with retired := true }, forced := false }
  s.setTile d tile { s.tile d tile with retired := (s.tile d tile).retired + 1 }

/-! ### Release of what older tokens used -/

/-- A tile enters NONE: a refresh queued for it waits, NO_SPARE (R120). -/
def State.enterNone (s : State) (d t : Nat) : State :=
  (s.setTile d t { s.tile d t with spare := .none, slot := 31, ready := none }).when
    ((s.kao d).jobs.any (fun j => decide (j.pos / 16 = t) && j.refresh)) (fun s => s.event (R.ARR_DRIFT_EVENTS d) 5)

/-- A position of the tile that has lost its array. -/
def State.lostPos (s : State) (d t : Nat) : Option Nat := (List.range 16).find? (fun i => decide ((s.pos d (16 * t + i)).slot = none))

/-- The outgoing array of a position is released and becomes its tile's spare (R19, R120); a worn one is retired (R117), and a position
that waited for it stays without an array. A position of the tile that has lost its array takes the freed one (R419). -/
def State.releasePos (s : State) (k : Nat) : State :=
  let d := k / 1536
  let p := k % 1536
  match (s.pos d p).prev with
  | some (sl, v) =>
    if s.olderToken v then s
    else
      let t := p / 16
      let s := s.setPos d p { s.pos d p with prev := none }
      if (s.phys d (17 * t + sl)).worn then
        let s := (s.retireArray d t sl).event (R.ARR_DRIFT_EVENTS d) 12
        let s := s.when (s.lostPos d t).isSome (fun s => s.event (R.ARR_DRIFT_EVENTS d) 5)
        (s.enterNone d t).log (0x20 + d) 5 12 0 (17 * t + sl)
      else
        match s.lostPos d t with
        | some i =>
          let s := s.setPos d (16 * t + i) { s.pos d (16 * t + i) with slot := some sl }
          (s.enterNone d t).queueJob d (16 * t + i) 1
        | none => s.setTile d t { s.tile d t with spare := .free, slot := sl }
  | none => s

/-- The die lets an earlier RANGE of a matrix go once no token uses it (R95). -/
def State.releaseRanges (s : State) : State :=
  s.modArr (fun a => { a with mat := a.mat.map (fun p => (p.1, match p.2.prev with
    | some (_, v) => if s.olderToken v then p.2 else { p.2 with prev := none }
    | none => p.2)) })

/-- Release drained arrays, held trim banks, old RANGE values, old fallback states and old shadow codes that no token uses any more (R19,
R95, R112, R124). -/
def State.releaseOld (s : State) : State :=
  let s := (SMap.keys s.arr.pos).foldl State.releasePos s
  let s := (List.range 16).foldl (fun s d =>
    match (s.kao d).held with
    | some v => if s.olderToken v then s else s.setKao d { s.kao d with held := none }
    | none => s) s
  s.releaseRanges.modArr (fun a => { a with
    pos := a.pos.map (fun p => (p.1, { p.2 with fbWas := p.2.fbWas.filter (fun x => s.olderToken x.1) }))
    old := a.old.filter (fun o => s.olderToken o.view) })

/-! ### Swaps (R121, R122) -/

/-- Swap the READY spare of a tile in; tokens of an older view keep the outgoing array. -/
def State.swapTile (s : State) (d t p v : Nat) : State :=
  let s := s.keepOld v d p
  let ts := s.tile d t
  let ps := s.pos d p
  let a := s.phys d (17 * t + ts.slot)
  let rec_ := a.record.getD {}
  let s := s.setPos d p { ps with
    slot := some ts.slot, prev := ps.slot.map (fun x => (x, v)), version := (ps.version + 1) % 2 ^ 32, step := rec_.step,
    msValid := true, unconf := false }
  let s := s.setPhys d (17 * t + ts.slot) { a with fit := none, reads := [], hist := [] }
  let s := match ps.slot with
    | some x => s.setPhys d (17 * t + x) { s.phys d (17 * t + x) with forced := false }
    | none => s
  let s := s.setTile d t (match ps.slot with
    | some x => { ts with spare := .drain, slot := x, ready := none }
    | none => { ts with spare := .none, slot := 31, ready := none })
  (s.shadowFrom d p a).event (R.ARR_DRIFT_EVENTS d) 2

/-- The READY spares: (die, tile, position, refresh mark, image step). -/
def State.readyList (s : State) : List (Nat × Nat × Nat × Bool × Nat) :=
  s.arr.tile.filterMap (fun x =>
    if x.2.spare = .ready then
      x.2.ready.map (fun q => (x.1 / 96, x.1 % 96, q.1, q.2,
        ((s.phys (x.1 / 96) (17 * (x.1 % 96) + x.2.slot)).record.getD {}).step))
    else none)

/-- Whether a READY spare is newer than the image in force, or comes from a refresh (R121). -/
def State.swapWanted (s : State) (x : Nat × Nat × Nat × Bool × Nat) : Bool :=
  decide ((s.pos x.1 x.2.2.1).step < x.2.2.2.2) || x.2.2.2.1

/-- The layer of a position, or its matrix outside any layer; without a matrix, none of them. -/
def State.posLayer (s : State) (d p : Nat) : Nat := match s.posMat d p with
  | some (e, _, _) => e.unit
  | none => 2 ^ 16

/-- The READY spares of layers `out` return to FREE; those of dies without a held bank swap in or, where not wanted, return to FREE. -/
def State.swapAll (s : State) (v : Nat) (out : List Nat) : State :=
  (s.readyList.filter (fun x => ((s.kao x.1).held).isNone || out.contains (s.posLayer x.1 x.2.2.1))).foldl (fun s x =>
    if s.swapWanted x && !(out.contains (s.posLayer x.1 x.2.2.1)) then s.swapTile x.1 x.2.1 x.2.2.1 v
    else s.setTile x.1 x.2.1 { s.tile x.1 x.2.1 with spare := .free, ready := none }) s

/-! ### Digital fallback (R124 to R126) -/

/-- The cause for which a position calls for fallback: 1 lag, 2 error limit. DESIGN CHOICE: where both hold it is the lag, and the layer shows
the cause of its first position, in map order, that calls. -/
def State.fbCause (s : State) (d p : Nat) : Option Nat :=
  if s.lagBound d < s.posLag d p then some 1
  else if epsAtLeast (s.physAt d p).epsHat (s.errLimit d) then some 2
  else none

/-- A position's codes become those of its newest projection, where one has formed codes for it; `v` is the view from which they hold. -/
def State.takeTargets (s : State) (v d p : Nat) : State :=
  if s.fromShadow d p then s
  else
    let s := (s.keepOld v d p).copyArea s.arr.target s.arr.shadow d p
    s.setPos d p { s.pos d p with step := (s.pos d p).projStep }

/-- Rows of the largest segment of a matrix in fallback (R174): the whole group, or one row block for INT8. -/
def MatEnt.segRows (e : MatEnt) : Nat :=
  if e.width = 8 then e.ng 0 else ((e.grpBlocks 0).map e.rows).sum

/-- The chain limit in force: of the map in hardware mode of function 2, as written in host-assisted mode (R89). -/
def State.chainLimit (s : State) (e : MatEnt) : Nat := if s.fnHost 2 then (s.mat e.die e.idx).chain else e.chain

/-- The chain limit for work that runs under a view (R95). -/
def State.chainFor (s : State) (e : MatEnt) (view : Nat) : Nat :=
  if s.fnHost 2 then (match (s.mat e.die e.idx).prev with
    | some (_, v) => if view < v then (s.mat e.die e.idx).prevChain else (s.mat e.die e.idx).chain
    | none => (s.mat e.die e.idx).chain)
  else e.chain

/-- The chain limit for a group request: of the attempt, or of the token's view. -/
def State.reqChain (s : State) (e : MatEnt) (q : PassReq) : Nat :=
  if q.training then (if s.polB R.DUTY_SPLIT_USED 1 then (s.mat e.die e.idx).trainChain else e.chain) else s.chainFor e q.view

/-- A chain at the limit can wrap in fallback (R175). -/
def State.fbChainRisk (s : State) (e : MatEnt) : Bool :=
  decide (8388607 < s.chainLimit e * e.segRows * 2 ^ (e.width - 1) * 15)

/-- A layer enters fallback: every version rises by one, flag bit 0 is set, class-1 jobs are queued. -/
def State.fbEnter (s : State) (v layer cause : Nat) : State :=
  (s.layerPos layer).foldl (fun s q =>
    let s := s.takeTargets v q.1 q.2
    let p := s.pos q.1 q.2
    let s := s.setPos q.1 q.2 { p with fb := true, fbWas := p.fbWas ++ [(v, p.fb)], cause := cause, msUse := false, msValid := false,
                                       version := (p.version + 1) % 2 ^ 32 }
    let risk := (s.posMat q.1 q.2).elim false (fun m => s.fbChainRisk m.1)
    let s := s.when risk (fun s => s.event (R.MXE_EVENTS (q.1 / 8)) 5)
    (s.queueJob q.1 q.2 1).event (R.ARR_DRIFT_EVENTS q.1) 6) s

/-- A position in fallback follows its newest projection; a change of its codes raises its version and is programmed in place. -/
def State.fbFollow (s : State) (v d p : Nat) : State :=
  if !s.fromShadow d p && !(s.areasAgree s.arr.target s.arr.shadow d p) then
    let s := s.takeTargets v d p
    (s.setPos d p { s.pos d p with version := ((s.pos d p).version + 1) % 2 ^ 32 }).queueJob d p 1
  else s.takeTargets v d p

/-- The exit conditions of R126 for one position. -/
def State.standbyCurrent (s : State) (d p : Nat) : Bool :=
  match s.physOf d p, s.posMat d p with
  | some a, some (e, _, _) =>
    let x := s.phys d a
    match x.record with
    | some r =>
      decide (x.use ≠ .programming) && (!s.hasMaster e || decide (s.lagOf r.step ≤ max 1 (s.lagBound d - 1)))
        && !epsAtLeast x.epsV (s.refreshThresh d) && !epsAtLeast x.epsHat (s.errLimit d)
        && decide (r.version = ((s.pos d p).version + 1) % 2 ^ 32) && decide (r.pos = p)
    | none => false
  | _, _ => false

/-- A layer leaves fallback. -/
def State.fbExit (s : State) (v layer : Nat) : State :=
  (s.layerPos layer).foldl (fun s q =>
    let p := s.pos q.1 q.2
    let x := s.physAt q.1 q.2
    let s := s.keepOld v q.1 q.2
    let s := s.setPos q.1 q.2 { p with fb := false, fbWas := p.fbWas ++ [(v, p.fb)], cause := 0, rescaled := false, unconf := false, msValid := true,
                                        version := (p.version + 1) % 2 ^ 32, step := (x.record.getD {}).step }
    (s.shadowFrom q.1 q.2 x).event (R.ARR_DRIFT_EVENTS q.1) 7) s

/-! ### The array part of a boundary -/

/-- What the image set shows of every position. -/
def State.imageView (s : State) : List (Nat × Bool × Bool) :=
  s.allPos.map (fun q => ((s.pos q.1 q.2).version, (s.pos q.1 q.2).fb, (s.pos q.1 q.2).msUse))

/-- A position that LOAD has confirmed enters service (R132); in a layer in fallback its array's record is then written anew, with the version
that the boundary gives it (R126). -/
def State.loadedIn (s : State) (v : Nat) : State :=
  s.allPos.foldl (fun s q =>
    let p := s.pos q.1 q.2
    if p.waitHost && !p.unconf then
      let x := s.physAt q.1 q.2
      let s := (s.keepOld v q.1 q.2).setPos q.1 q.2
        { p with waitHost := false, msValid := true, version := (p.version + 1) % 2 ^ 32, noProj := true, step := (x.record.getD {}).step }
      let s := s.shadowFrom q.1 q.2 x
      (s.copyArea s.arr.shadow s.arr.target q.1 q.2).when p.fb (fun s => s.queueJob q.1 q.2 1)
    else s) s

/-- Swaps, and fallback entries and exits (R14, R121 to R126); `v` is the view from which they hold. -/
def State.imageChanges (s : State) (v : Nat) : State :=
  let s := s.loadedIn v
  let inFb := s.unitList.filter s.layerFb
  let trial := s.swapAll v inFb
  let enter := (s.unitList.filter (fun l => !(inFb.contains l))).filterMap (fun l =>
    ((trial.layerPos l).findSome? (fun q => trial.fbCause q.1 q.2)).map (fun c => (l, c)))
  let s := s.swapAll v (inFb ++ enter.map (·.1))
  let s := enter.foldl (fun s x => s.fbEnter v x.1 x.2) s
  inFb.foldl (fun s l =>
    let q := s.layerPos l
    if q.all (fun x => s.standbyCurrent x.1 x.2) then s.fbExit v l else q.foldl (fun s x => s.fbFollow v x.1 x.2) s) s

/-- The trim sets (R110 to R112): a die with a published set or a swap changes its bank, with the groups of the swapped positions
formed anew; the bank left is held while tokens use it. -/
def State.trimChanges (s before : State) (v : Nat) : State :=
  (List.range 16).foldl (fun s d =>
    let k := s.kao d
    let swapped := (s.allPos.filter (fun q => q.1 == d)).filter (fun q =>
      decide ((s.pos d q.2).slot ≠ (before.pos d q.2).slot))
    if k.held.isNone && (k.published || !swapped.isEmpty) then
      let b := if k.published then k.otherBank else k.bankInForce
      let b := swapped.foldl (fun b q => match s.posMat d q.2 with
        | some (e, cb, rb) => s.trimGroup d e cb (rb / 16) b
        | none => b) b
      (s.setKao d { k.setOther b with bankSel := !k.bankSel, trimVer := (k.trimVer + 1) % 2 ^ 32, published := false,
                                       held := some v }).event R.STEP_EVENTS 8
    else s) s

/-- Measured shadow as ARR_MS_MASK in force selects it (R128). -/
def State.msRefresh (s : State) : State :=
  s.allPos.foldl (fun s q =>
    let p := s.pos q.1 q.2
    let l := s.posLayer q.1 q.2
    let on := decide (l < 128) && s.polB (R.ARR_MS_MASK q.1 (l / 32)) (l % 32) && !p.fb && p.msValid
    s.setPos q.1 q.2 { p with msUse := on }) s

/-- The pending RANGE and chain limit of a matrix take effect from view `v` on; tokens of an older view keep the old ones (R95). -/
def State.takeRange (s : State) (k idx v : Nat) : State :=
  let m := s.mat k idx
  (s.setMat k idx { m with cur := m.range, prev := some (m.cur, v), prevChain := m.chain, chain := m.pendChain.getD m.chain,
                           pendChain := none }).when (decide (m.range ≠ m.cur)) (fun s => s.event (R.ARR_EVENTS k) 6)

/-- A change of RANGE or chain limit is pending and no earlier one is still in use by some context (R95). -/
def MatSt.rangeDue (m : MatSt) : Bool := (decide (m.range ≠ m.cur) || m.pendChain.isSome) && m.prev.isNone

/-- Pending RANGE values and chain limits take effect: with training idle each context has them from its own next token on; otherwise once
every token in flight began after the change (R390). Between step boundaries (`held`) those alone that arrived while the group was HELD or
HALTED do, and for generation alone (R95). -/
def State.rangeChanges (s : State) (v : Nat) (held : Bool) : State :=
  s.arr.map.foldl (fun s e =>
    let m := s.mat e.die e.idx
    if m.rangeDue && (decide (s.stp.phase = .idle) || (!(s.olderToken m.pendView) && (!held || m.pendHeld))) then s.takeRange e.die e.idx v
    else s) s.releaseRanges

/-- Training takes the RANGE values and chain limits in force: a repeat keeps those of the attempt it repeats (R95). -/
def State.trainRanges (s : State) : State :=
  s.arr.map.foldl (fun s e =>
    let m := s.mat e.die e.idx
    s.setMat e.die e.idx { m with train := m.cur, trainChain := m.chain }) s

/-- The image-set sequence number rises once where the set differs from the one before (R17). -/
def State.imageSeq (s before : State) : State :=
  if s.imageView = before.imageView then s
  else (s.setRegN R.STEP_IMG_SEQ (((s.reg R.STEP_IMG_SEQ).toNat + 1) % 2 ^ 32)).event R.STEP_EVENTS 7

end Sys2Proof.Machine
end

