-- ==== Sys2Proof/Machine/ArrMeta.lean ====
section
/-! DEFINITION. Readings of cells (R116, R127), the metadata rows of an array (R119): the array record with its checks, column scales,
verify trims and write counts as nibbles, and what a reading of all rows tells (R130). -/

namespace Sys2Proof.Machine

/-! ### Readings in units of 1/32 level -/

/-- A reading as a level from 0 to 15. DESIGN CHOICE: a reading halfway between two levels takes the even one. -/
def nearLevel (v : Nat) : Nat := min 15 (roundShift .rne v (-5))
/-- A reading in quarter levels, from 0 to 63 (R127). DESIGN CHOICE: a reading halfway between two quarters takes the even one. -/
def nearQuarter (v : Nat) : Nat := min 63 (roundShift .rne v (-3))

/-- The level of a cell (R79): physical column m of row r. -/
def PhysSt.level (a : PhysSt) (r m : Nat) : Nat :=
  let c := codeVal (a.code r (m / 2))
  (if m % 2 = 0 then max 0 c else max 0 (-c)).toNat

/-! ### The bytes of the metadata rows (R119) -/

/-- FP16 column scales, then pairs of verify gain and offset: rows 2 to 7. -/
def PhysSt.valueBytes (a : PhysSt) : List Byte :=
  (List.range 512).flatMap (fun j => leBytes 2 (a.scale j))
    ++ (List.range 512).flatMap (fun j => leBytes 2 (SMap.get (fun _ => 0x3C00) a.vgain j) ++ leBytes 2 (SMap.get (fun _ => 0) a.voff j))

/-- The fields of the array record before its last check. -/
def PhysSt.recordBody (a : PhysSt) (r : ArrRec) : List Byte :=
  leBytes 2 1 ++ leBytes 2 r.pos ++ leBytes 4 r.version ++ leBytes 8 r.step ++ sliceB r.hash 0 32 ++ leBytes 4 (crc32c a.valueBytes)
    ++ leBytes 2 r.epsV ++ leBytes 2 r.tm ++ leBytes 4 r.gref.toNat ++ leBytes 4 r.dref.toNat ++ leBytes 4 r.tc.toNat
    ++ leBytes 4 r.powered ++ leBytes 4 r.maxW ++ leBytes 4 r.metaW ++ leBytes 4 r.marginal ++ [byteOf r.retired.toNat]
    ++ List.replicate 423 0

/-- The 512 bytes of a copy of the record. -/
def PhysSt.recordBytes (a : PhysSt) (r : ArrRec) : List Byte := a.recordBody r ++ leBytes 4 (crc32c (a.recordBody r))

/-- The 512 bytes of metadata row `m`; an array that has no record holds zeros. -/
def PhysSt.metaRow (a : PhysSt) (m : Nat) : List Byte := match a.record with
  | none => List.replicate 512 0
  | some r =>
    if m < 2 then a.recordBytes r
    else if m < 8 then sliceB a.valueBytes (512 * (m - 2)) 512
    else (List.range 128).flatMap (fun i => leBytes 4 (SMap.get (fun _ => 0) a.writes (128 * (m - 8) + i)))

/-- The level of cell `c` of a metadata row. DESIGN CHOICE: the low nibble of byte i lies at physical column 2i, the high one beside it. -/
def PhysSt.metaLevel (a : PhysSt) (m c : Nat) : Nat :=
  let b := ((a.metaRow m).getD (c / 2) 0).toNat
  if c % 2 = 0 then b % 16 else b / 16

/-- The level of a cell of the 1,040 rows that a readback reads: data rows, then metadata rows. -/
def PhysSt.rowLevel (a : PhysSt) (r c : Nat) : Nat := if r < 1024 then a.level r c else a.metaLevel (r - 1024) c

/-! ### What a reading of an array tells (R119, R130) -/

/-- The 512 bytes that the readings of a metadata row give. -/
def readRow (cells : List (Nat × Nat)) (m : Nat) : List Byte :=
  let lv := fun (c : Nat) => nearLevel ((SMap.find cells (m * 1024 + c)).getD 0)
  (List.range 512).map (fun i => byteOf (lv (2 * i) + 16 * lv (2 * i + 1)))

/-- A copy of the record, ignored where its CRC-32C does not match. DESIGN CHOICE: one of another format than 0x0001 is ignored too. -/
def recordOf (bs : List Byte) : Option ArrRec :=
  if leAt bs 0x1FC 4 = crc32c (sliceB bs 0 0x1FC) ∧ leAt bs 0 2 = 1 then
    some { pos := leAt bs 2 2, version := leAt bs 4 4, step := leAt bs 8 8, hash := sliceB bs 0x10 32, epsV := leAt bs 0x34 2,
           tm := leAt bs 0x36 2, gref := BitVec.ofNat 32 (leAt bs 0x38 4), dref := BitVec.ofNat 32 (leAt bs 0x3C 4),
           tc := BitVec.ofNat 32 (leAt bs 0x40 4), powered := leAt bs 0x44 4, maxW := leAt bs 0x48 4, metaW := leAt bs 0x4C 4,
           marginal := leAt bs 0x50 4, retired := ((bs.getD 0x54 0).toNat).testBit 0 }
  else none

/-- A map from the entries listed, canonical. -/
def mapOf (d : Nat) (l : List (Nat × Nat)) : SMap Nat := l.foldl (fun m p => SMap.set (fun _ => d) m p.1 p.2) []

/-- The array as its metadata rows tell. -/
def PhysSt.withMeta (x : PhysSt) (cells : List (Nat × Nat)) : PhysSt :=
  let row := readRow cells
  let vals := (List.range 6).flatMap (fun i => row (2 + i))
  let cnts := (List.range 8).flatMap (fun i => row (8 + i))
  { x with
    record := (recordOf (row 0)).orElse (fun _ => recordOf (row 1))
    scales := mapOf 0x3C00 ((List.range 512).map (fun j => (j, leAt vals (2 * j) 2)))
    vgain := mapOf 0x3C00 ((List.range 512).map (fun j => (j, leAt vals (1024 + 4 * j) 2)))
    voff := mapOf 0 ((List.range 512).map (fun j => (j, leAt vals (1026 + 4 * j) 2)))
    writes := mapOf 0 ((List.range 1024).map (fun r => (r, leAt cnts (4 * r) 4))) }

/-- The code that readings of the data rows give for key row * 512 + weight column. -/
def readCode (cells : List (Nat × Nat)) (i : Nat) : Int :=
  (nearLevel ((SMap.find cells (2 * i)).getD 0) : Int) - nearLevel ((SMap.find cells (2 * i + 1)).getD 0)
/-- The measured code (R128), in quarter units. -/
def readQuarters (cells : List (Nat × Nat)) (i : Nat) : Int :=
  (nearQuarter ((SMap.find cells (2 * i)).getD 0) : Int) - nearQuarter ((SMap.find cells (2 * i + 1)).getD 0)

/-- The array as readings of its data rows tell: codes and measured codes. -/
def PhysSt.withCells (x : PhysSt) (cells : List (Nat × Nat)) : PhysSt :=
  { x with
    codes := cells.foldl (fun m p => SMap.set (fun _ => 0) m (p.1 / 2) (byteOf (toTwos 8 (readCode cells (p.1 / 2))))) []
    meas := cells.foldl (fun m p => SMap.set (fun _ => 0) m (p.1 / 2)
      (readQuarters cells (p.1 / 2) - 4 * readCode cells (p.1 / 2))) [] }

end Sys2Proof.Machine
end

