-- ==== Sys2Proof/Machine/Eczil.lean ====
section
/-! DEFINITION. Operations of the Eczil links: pod geometry and routing (R279, R284), frames into flits (R274, R275), sequence
numbers, replay and credits (R276 to R278), and the payloads of COMMIT, CONTROL, TRIGGER, TIME_SYNC and RELAY frames. -/

namespace Sys2Proof.Machine

/-! ### Pod geometry -/

/-- X, Y and Z of a SIZE code (R284). -/
def podDims : Nat → Nat × Nat × Nat
  | 0 => (1, 1, 1) | 1 => (2, 1, 1) | 2 => (2, 2, 1) | 3 => (2, 2, 2) | 4 => (4, 4, 1) | 5 => (4, 4, 2) | _ => (4, 4, 4)

/-- The number of modules of a pod. -/
def podModules (size : Nat) : Nat := let d := podDims size; d.1 * d.2.1 * d.2.2

/-- The coordinates of a module ID (R284). -/
def podCoord (size m : Nat) : Nat × Nat × Nat :=
  let d := podDims size
  (m % d.1, m / d.1 % d.2.1, m / (d.1 * d.2.1))

/-- The module ID at coordinates. -/
def podIdOf (size : Nat) (c : Nat × Nat × Nat) : Nat :=
  let d := podDims size
  c.1 + d.1 * c.2.1 + d.1 * d.2.1 * c.2.2

/-- The direction from `a` to `b` on a ring of `n`: 0 none, 1 positive, 2 negative; the shorter one, positive on a tie (R279). -/
def ringDir (n a b : Nat) : Nat :=
  if a = b then 0
  else
    let up := (b + n - a) % n
    if up ≤ n - up then 1 else 2

/-- The port of the next hop by dimension order: x, then y, then z (R279); none at the destination. -/
def routePort (size here dst : Nat) : Option Nat :=
  let d := podDims size
  let a := podCoord size here
  let b := podCoord size dst
  let px := ringDir d.1 a.1 b.1
  let py := ringDir d.2.1 a.2.1 b.2.1
  let pz := ringDir d.2.2 a.2.2 b.2.2
  if px ≠ 0 then some (px - 1) else if py ≠ 0 then some (py + 1) else if pz ≠ 0 then some (pz + 3) else none

/-- The module at the far end of a port (R284); none where the dimension has size 1. -/
def portPartner (size here port : Nat) : Option Nat :=
  let d := podDims size
  let c := podCoord size here
  let step := fun (n x : Nat) => if port % 2 = 0 then (x + 1) % n else (x + n - 1) % n
  match port / 2 with
  | 0 => if d.1 = 1 then none else some (podIdOf size (step d.1 c.1, c.2.1, c.2.2))
  | 1 => if d.2.1 = 1 then none else some (podIdOf size (c.1, step d.2.1 c.2.1, c.2.2))
  | _ => if d.2.2 = 1 then none else some (podIdOf size (c.1, c.2.1, step d.2.2 c.2.2))

/-- The partner's link at the far end of a link: a +d port meets the -d port of the neighbour, lane by lane (R284, R411). -/
def linkPartner (l : Nat) : Nat := if l % 2 = 0 then l + 1 else l - 1

/-- The three links of a port (R273). -/
def portLinks (q : Nat) : List Nat := [q, q + 6, q + 12]

/-- The lowest-numbered UP link of a port. -/
def State.upLink (s : State) (q : Nat) : Option Nat := (portLinks q).find? (fun l => (s.lnk l).st = .up)

/-- The lowest-numbered UP link to a given partner module. -/
def State.upLinkTo (s : State) (m : Nat) : Option Nat :=
  (List.range 18).find? (fun l => decide ((s.lnk l).st = .up) && decide ((s.lnk l).peer = m))

/-- This module's ID. -/
def State.me (s : State) : Nat := s.ezl.pod.me

/-! ### Flits -/

/-- The class of a frame type (R275). -/
def frameClass : Nat → Nat
  | 1 => 3 | 2 => 2 | 3 => 1 | 7 => 3 | _ => 0

/-- Precedence among new flits (R278): lower goes first. -/
def frameRank : Nat → Nat
  | 4 => 0 | 6 => 1 | 5 => 2 | 3 => 3 | 2 => 4 | 7 => 5 | _ => 6

/-- The receive buffer of each class in flits (R277). -/
def classBuffer : List Nat := [64, 64, 512, 256]

/-- The bytes of a flit (R274). -/
def flitBytes (typ stream src dst seq ack nak credit nakSeq podId : Nat) (first last : Bool) (pay : List Byte) : List Byte :=
  let b0 := typ + (if first then 16 else 0) + (if last then 32 else 0)
  let body := [byteOf b0, byteOf stream, byteOf src, byteOf dst] ++ leBytes 2 seq ++ leBytes 2 ack
    ++ [byteOf nak, byteOf credit] ++ leBytes 2 nakSeq ++ leBytes 2 pay.length ++ leBytes 2 podId
    ++ pay ++ List.replicate (236 - pay.length) 0
  body ++ leBytes 4 (crc32c body)

/-- The class and amount (in units of 4 flits) of the credit return the next flit carries: the lowest class with 4 freed
entries or more (R277). -/
def LinkSt.creditField (k : LinkSt) : Nat × Nat :=
  match [0, 1, 2, 3].find? (fun c => decide (4 ≤ k.freed.getD c 0)) with
  | some c => (c, min 63 (k.freed.getD c 0 / 4))
  | none => (0, 0)

/-- Send one flit on a link: it carries the acknowledgement, an owed NAK and a credit return. -/
def State.sendFlit (s : State) (l typ stream src dst seq : Nat) (first last : Bool) (pay : List Byte) : State :=
  let k := s.lnk l
  let cr := k.creditField
  let nak := k.nakOwed.getD (0, 0)
  let k' := { k with
    nakOwed := none
    unacked := 0
    freed := k.freed.set cr.1 (k.freed.getD cr.1 0 - 4 * cr.2)
    rxCred := k.rxCred.set cr.1 (k.rxCred.getD cr.1 0 + 4 * cr.2) }
  let bytes := flitBytes typ stream src dst seq ((k.rxSeq + 65535) % 65536) nak.1 (cr.1 * 64 + cr.2) nak.2
    s.ezl.pod.id first last pay
  ((s.setLnk l k').incPair (R.EZL_Ll_FLITS l) 1).emit (.flit l bytes)

/-- Send an IDLE flit: not numbered (R276). -/
def State.sendIdle (s : State) (l : Nat) : State := s.sendFlit l 0 0 s.me 0xFF 0 false false []

/-- Resend a flit of the replay buffer. -/
def State.resend (s : State) (l : Nat) (f : Flit) : State :=
  s.sendFlit l f.frame.typ f.frame.stream f.frame.src f.frame.dst f.seq f.first f.last
    ((f.frame.payload.drop f.off).take 236)

/-- The place of a frame among those that are ready: its precedence (R278); channels that share the link take turns flit by flit, the lower
number first (R204). -/
def LinkSt.turn (k : LinkSt) (f : Frame) : Nat :=
  16 * frameRank f.typ + (if f.typ = 2 then (if k.lastRed.elim false (fun c => decide (f.stream ≤ c)) then 8 + f.stream else f.stream) else 0)

/-- The frames that may send a flit: those begun and those queued whose class has a credit (R277); one of a type and channel at a time. -/
def LinkSt.readyFrames (k : LinkSt) : List (Frame × Nat × Bool) :=
  let free := fun (f : Frame) => decide (0 < k.credits.getD (frameClass f.typ) 0)
  let started := (k.cur.filter (fun p => free p.1)).map (fun p => (p.1, p.2, true))
  let fresh := (k.queue.filter (fun f => free f && !(k.cur.any (fun p => p.1.typ == f.typ && p.1.stream == f.stream)))).map
    (fun f => (f, 0, false))
  started ++ fresh

/-- The choice of the next new flit on a link; on equal terms frames begun go before queued frames, and those in their order. -/
def LinkSt.nextFrame (k : LinkSt) : Option (Frame × Nat × Bool) :=
  k.readyFrames.foldl (fun b x => match b with
    | none => some x
    | some y => if k.turn x.1 < k.turn y.1 then some x else some y) none

/-- The channel to remember after a flit of a frame: where another channel was ready too. -/
def LinkSt.redTurn (k : LinkSt) (f : Frame) : Option Nat :=
  if f.typ ≠ 2 then k.lastRed
  else if k.readyFrames.any (fun x => decide (x.1.typ = 2) && decide (x.1.stream ≠ f.stream)) then some f.stream else none

/-- Send the next new flit of an UP link, if any may go. -/
def State.pumpOne (s : State) (l : Nat) : State :=
  let k := s.lnk l
  if k.st = .up ∧ k.replay.length < 512 then
    match k.nextFrame with
    | none => s
    | some (f, off, begun) =>
      let pay := (f.payload.drop off).take 236
      let last := decide (f.payload.length ≤ off + 236)
      let c := frameClass f.typ
      let rest := if last then [] else [(f, off + 236)]
      let k' := { k with
        lastRed := k.redTurn f
        txSeq := (k.txSeq + 1) % 65536
        replay := k.replay ++ [⟨k.txSeq, decide (off = 0), last, f, off, 0⟩]
        credits := k.credits.set c (k.credits.getD c 0 - 1)
        queue := if begun then k.queue else k.queue.erase f
        cur := (if begun then k.cur.erase (f, off) else k.cur) ++ rest }
      (s.setLnk l k').sendFlit l f.typ f.stream f.src f.dst k.txSeq (decide (off = 0)) last pay
  else s

/-- Send new flits while the link may, at most 2,048 in a row. -/
def State.pumpFuel : Nat → Nat → State → State
  | 0, _, s => s
  | n + 1, l, s =>
    let k := s.lnk l
    if k.st = .up ∧ k.replay.length < 512 ∧ (k.nextFrame).isSome then State.pumpFuel n l (s.pumpOne l) else s

def State.pump (s : State) (l : Nat) : State := State.pumpFuel 2048 l s

/-- Queue a frame on a link and send what may go. -/
def State.sendOn (s : State) (l : Nat) (f : Frame) : State :=
  let k := s.lnk l
  (s.setLnk l { k with queue := k.queue ++ [f] }).pump l

/-- A link trains or retrains. -/
def State.trains (s : State) (l : Nat) : Bool := decide ((s.lnk l).st = .retrain) || decide ((s.lnk l).st = .training)

/-- A frame waits until a link is UP that takes it. -/
def State.holdFrame (s : State) (m : Option Nat) (f : Frame) : State := s.modEzl (fun e => { e with wait := e.wait ++ [(m, f)] })

/-- Send a frame to a module by dimension-order routing (R279): only an UP link takes it; where none is UP it waits while one trains
(R424). -/
def State.sendRouted (s : State) (f : Frame) : State :=
  match routePort s.ezl.pod.size s.me f.dst with
  | none => s
  | some q =>
    match s.upLink q with
    | some l => s.sendOn l f
    | none => if (portLinks q).any s.trains then s.holdFrame none f else s

/-- Send a frame to a link partner on the lowest-numbered UP link toward it; where none is UP it waits (R286, R424). -/
def State.sendPartner (s : State) (m : Nat) (f : Frame) : State := match s.upLinkTo m with
  | some l => s.sendOn l f
  | none => s.holdFrame (some m) f

/-- Flood a frame on every UP link but one (R292). -/
def State.flood (s : State) (except : Option Nat) (f : Frame) : State :=
  (List.range 18).foldl (fun s l =>
    if decide ((s.lnk l).st = .up) && decide (some l ≠ except) then s.sendOn l f else s) s

/-- Send a frame that waited: to a ring partner, or by its route. -/
def State.sendOwed (s : State) (p : Option Nat × Frame) : State := match p.1 with
  | some m => s.sendPartner m p.2
  | none => s.sendRouted p.2

/-- Frames that wait for an UP link go where one is now (R424). -/
def State.sendWaiting (s : State) : State :=
  s.ezl.wait.foldl State.sendOwed (s.modEzl (fun e => { e with wait := [] }))

/-- In a fault state no link trains: links in TRAINING are DOWN again (R421). -/
def State.linksDown (s : State) : State :=
  (List.range 18).foldl (fun s l => if (s.lnk l).st = .training then s.setLnk l { s.lnk l with st := .down } else s) s

/-! ### Payloads -/

/-- The payload of a COMMIT frame (R287). -/
def Token.bytes (t : Token) : List Byte :=
  let fl := (if t.abort then 1 else 0) + (if t.skip then 2 else 0) + (if t.hold then 4 else 0)
    + (if t.second then 16 else 0) + 32 * (match t.decision with | some d => d.code | none => 0)
  leBytes 8 t.step ++ leBytes 4 t.epoch ++ [byteOf t.attempt, byteOf fl, byteOf t.firstVoter, byteOf t.gid]
    ++ leBytes 2 t.reason ++ [byteOf t.size, 0]

/-- A CONTROL frame: operation code at 0x00, operands from 0x04 (R288); the operands lie packed in the order the table names them. -/
def ctrlBytes (op : Nat) (c : CtrlMsg) : List Byte :=
  let hd := [byteOf op, 0, 0, 0]
  match op with
  | 1 => hd ++ leBytes 8 c.step ++ [byteOf c.attempt] ++ leBytes 4 c.epoch ++ leBytes 2 c.reason ++ [byteOf c.pos]
  | 2 => hd ++ leBytes 8 c.step ++ [byteOf c.attempt] ++ leBytes 4 c.epoch
  | 3 | 4 => hd ++ leBytes 8 c.step ++ [byteOf c.attempt] ++ leBytes 4 c.epoch
      ++ [byteOf (match c.decision with | some d => d.code | none => 0)] ++ leBytes 2 c.reason ++ [byteOf c.pos]
  | _ => hd ++ [byteOf c.pos]

/-- A CONTROL frame to a module. -/
def State.sendCtrl (s : State) (dst op : Nat) (c : CtrlMsg) : State :=
  s.sendRouted ⟨3, 0, s.me, dst, ctrlBytes op c⟩

/-- A TRIGGER payload (R292): T, origin, number, class. -/
def TrigFrame.bytes (f : TrigFrame) : List Byte := leBytes 8 f.t ++ [byteOf f.origin, byteOf f.num, byteOf f.cls]

/-- A TIME_SYNC payload: operation (1 SYNC, 2 DELAY_REQ, 3 DELAY_RESP) and a stamp in quarter nanoseconds. -/
def timeBytes (op stamp : Nat) : List Byte := byteOf op :: List.replicate 7 0 ++ leBytes 8 stamp

/-- The relay header of R293. -/
def RelayHdr.bytes (h : RelayHdr) : List Byte :=
  [byteOf h.op, byteOf h.status] ++ leBytes 2 h.tag ++ leBytes 4 h.len ++ leBytes 8 h.addr

/-- Take the first received frame of a type that satisfies `p` out of the receive list. -/
def State.takeRx (s : State) (typ : Nat) (p : Frame → Bool) : State :=
  match s.ezl.rxDone.find? (fun x => x.2.typ == typ && p x.2) with
  | some x => s.modEzl (fun e => { e with rxDone := e.rxDone.erase x })
  | none => s

/-- Whether a frame's payload begins with the bytes given. -/
def Frame.startsWith (f : Frame) (b : List Byte) : Bool := f.payload.take b.length == b

/-- A link's registers count: add 1, saturating. -/
def State.linkCount (s : State) (a : Nat) : State := s.incReg a 1

end Sys2Proof.Machine
end

