-- ==== Sys2Proof/Machine/TwillOps.lean ====
section
/-! DEFINITION. What the Twill instructions share (R134 to R142, R152): lanes, elements, masks, rounding and flag control,
faults, the end of a program. -/

namespace Sys2Proof

/-- 16-bit elements: BF16 and INT16 (R135). -/
def TwillWord.half (w : TwillWord) : Bool := w.ty = 1 || w.ty = 3

def TwillWord.isFloat (w : TwillWord) : Bool := w.ty = 0 || w.ty = 1

open Machine in
/-- The floating-point format of the element type. -/
def TwillWord.ff (w : TwillWord) : FF := if w.ty = 1 then FF.bf16 else FF.fp32

/-- Elements of a register. -/
def TwillWord.elems (w : TwillWord) : Nat := if w.half then 128 else 64

/-- Bits of an element. -/
def TwillWord.bits (w : TwillWord) : Nat := if w.half then 16 else 32

/-- The immediate as element `e` sees it (R139). -/
def TwillWord.immE (w : TwillWord) (e : Nat) : Nat :=
  if w.half then (if e % 2 = 0 then w.imm.toNat % 65536 else w.imm.toNat / 65536) else w.imm.toNat

end Sys2Proof

namespace Sys2Proof.Machine

/-! ### Registers of a unit -/

def UnitSt.lane (u : UnitSt) (r i : Nat) : Word := SMap.get (fun _ => 0) u.v (r * 64 + i)

/-- Write all 64 lanes of a register. -/
def UnitSt.setLanes (u : UnitSt) (r : Nat) (g : Nat → Word) : UnitSt :=
  { u with v := (List.range 64).foldl (fun m i => SMap.set (fun _ => 0) m (r * 64 + i) (g i)) u.v }

/-- A mask register; M0 reads as all ones (R134). -/
def UnitSt.maskR (u : UnitSt) (r : Nat) : Nat := if r = 0 then 2 ^ 128 - 1 else SMap.get (fun _ => 0) u.m r

/-- Write a mask register; a write to M0 is discarded. -/
def UnitSt.setMask (u : UnitSt) (r v : Nat) : UnitSt :=
  if r = 0 then u else { u with m := SMap.set (fun _ => 0) u.m r (v % 2 ^ 128) }


/-- Element `e` of a register (R135). -/
def UnitSt.elem (u : UnitSt) (w : TwillWord) (r e : Nat) : Nat :=
  if w.half then
    let l := (u.lane r (e / 2)).toNat
    if e % 2 = 0 then l % 65536 else l / 65536
  else (u.lane r e).toNat


/-- Whether element `e` is active (R135). -/
def UnitSt.active (u : UnitSt) (w : TwillWord) (e : Nat) : Bool :=
  (u.maskR w.m.val).testBit e && decide (e < if w.half then 2 * u.vl else u.vl)

/-- Whether lane `i` is active for an instruction that moves whole lanes: the mask bit of its even element governs it (R158). -/
def UnitSt.laneActive (u : UnitSt) (w : TwillWord) (i : Nat) : Bool := u.active w (if w.half then 2 * i else i)

/-- Write every element of the destination: active ones from `f`, inactive ones kept or zeroed (R136). -/
def UnitSt.setElems (u : UnitSt) (w : TwillWord) (f : Nat → Nat) : UnitSt :=
  let r := w.d.val
  let el := fun (e : Nat) => if u.active w e then f e % 2 ^ w.bits else if w.zero then 0 else u.elem w r e
  u.setLanes r (fun i =>
    if w.half then BitVec.ofNat 32 (el (2 * i) + el (2 * i + 1) * 65536) else BitVec.ofNat 32 (el i))

/-! ### Flags (R152) and control (R140, R141) -/

def flNX : Nat := 1
def flUF : Nat := 2
def flOF : Nat := 4
def flDZ : Nat := 8
def flNV : Nat := 16
def flEmpty : Nat := 32
def flPerm : Nat := 64
def flSat : Nat := 128
def flMem : Nat := 256
def flIll : Nat := 512

def ctlFlush (c : Nat) : Bool := c == 4 || c == 6
def ctlNoFlag (c : Nat) : Bool := c == 5 || c == 6

/-- The rounding of a control code for a magnitude of a given sign (R140). -/
def ctlRnd (c : Nat) (neg : Bool) : Rnd :=
  if c = 1 then .rtz
  else if c = 2 then (if neg then .rtz else .away)
  else if c = 3 then (if neg then .away else .rtz)
  else .rne

/-- Flags set by the active elements. -/
def UnitSt.orFlags (u : UnitSt) (w : TwillWord) (f : Nat → Nat) : Nat :=
  (List.range w.elems).foldl (fun a e => if u.active w e then a ||| f e else a) 0

/-- An input as the instruction reads it: a subnormal is a zero of its sign when subnormals are flushed (R141). -/
def readF (f : FF) (c code : Nat) : XNum :=
  match f.decode code with
  | .fin n m e => if ctlFlush c && decide (m < 2 ^ f.mb) then .fin n 0 f.qmin else .fin n m e
  | x => x

/-- m * 2^e is tiny: rounded as if the exponent were unbounded it lies below the least normal number. DESIGN CHOICE: IEEE 754 lets tininess
be detected before or after rounding; here it is after. -/
def tiny (f : FF) (r : Rnd) (m : Nat) (e : Int) : Bool := decide (roundShift r m (e - (f.qmin - 1)) < 2 ^ (f.mb + 1))

/-- One exact result rounded, with the flags OF, UF and NX (R143, R152); `dir` is whether directed rounding applies. -/
def roundF (f : FF) (c : Nat) (dir : Bool) (x : XNum) : Nat × Nat :=
  match x with
  | .nan => (f.qnan, 0)
  | .inf n => (f.withSign n f.infCode, 0)
  | .fin n m e =>
    let r := if dir then ctlRnd c n else .rne
    let k := f.magCode r m e
    if f.infCode ≤ k then (f.encodeR r (.fin n m e), flOF ||| flNX)
    else if ctlFlush c && decide (0 < k) && decide (k < 2 ^ f.mb) then (f.withSign n 0, flUF ||| flNX)
    else
      let exact := XNum.eq (f.decode k) (.fin false m e)
      (f.withSign n k, if exact then 0 else if tiny f r m e then flUF ||| flNX else flNX)

/-- NaN made from inputs that are not NaN: the IEEE invalid operation. -/
def invalidIf (ins : List XNum) (out : XNum) : Nat := if out.isNan && !(ins.any XNum.isNan) then flNV else 0

/-- An exact sum whose zero, when the addends' signs differ, is -0 under rounding toward minus infinity. -/
def addDir (c : Nat) (a b : XNum) : XNum :=
  match XNum.add a b with
  | .fin n m e => if m = 0 ∧ a.isNeg ≠ b.isNeg then .fin (c == 3) 0 e else .fin n m e
  | x => x

/-! ### Faults and the end of an instruction -/

/-- The opcode of each mnemonic of the instruction table is an operand of `twFault`; causes: 0 ILLEGAL, 1 MEM_RANGE, 2 BAR_TIMEOUT.
The fault is recorded in VEC_FAULT and logged. -/
def twFault (d u op cause : Nat) (s : State) : State :=
  let pc := (s.unit (d * 32 + u)).pc
  (s.setReg (R.VEC_FAULT d) (packFields [(27, u), (16, pc), (8, cause), (0, op)])).log (0xC + d) 1 0xFF (cause + 1)
    (op + pc * 256 + u * 2 ^ 24)

/-- Fold the flags of a unit whose program has ended: into the task's completion status and VEC_FLAGS_ACC; the flags clear (R152). The
task is finished when its last unit has ended (R236). -/
def unitEnd (d u : Nat) (s : State) : State :=
  let k := d * 32 + u
  let x := s.unit k
  match x.slot with
  | none => s
  | some sl =>
    let s := s.setReg (R.VEC_FLAGS_ACC d) (s.reg (R.VEC_FLAGS_ACC d) ||| BitVec.ofNat 32 x.flags)
    let st := SMap.get (fun _ => 0) s.vec.status (d * 4096 + sl) ||| x.flags
    let s := s.modVec (fun v => { v with status := SMap.set (fun _ => 0) v.status (d * 4096 + sl) st })
    let s := s.setUnit k { x with flags := 0, slot := none, bar := none }
    match s.task (d * 4096 + sl) with
    | none => s
    | some t => s.setTask (d * 4096 + sl) (some { t with
        remain := t.remain - 1, prog := if t.remain ≤ 1 then .done t.err else t.prog })

/-- Step past the instruction; the program ends after its last one. -/
def twAdvance (d u : Nat) (s : State) : State :=
  let k := d * 32 + u
  let x := s.unit k
  let s := s.setUnit k { x with pc := (x.pc + 1) % 2048 }
  if x.slot.isSome && decide (x.ibuf.length ≤ x.pc + 1) then unitEnd d u s else s

/-! ### Issue (R139, R142, R143, R151) -/

/-- Bits [lo + n - 1 : lo] of an instruction word. -/
def twBits (x lo n : Nat) : Nat := x / 2 ^ lo % 2 ^ n

/-- The opcode and the fields of a 64-bit instruction word (R139). -/
def twDecode (x : Nat) : Nat × TwillWord :=
  (twBits x 56 8,
   { d := Fin.ofNat 32 (twBits x 51 5), s1 := Fin.ofNat 32 (twBits x 46 5), s2 := Fin.ofNat 32 (twBits x 41 5), m := Fin.ofNat 8 (twBits x 38 3),
     zero := decide (twBits x 37 1 = 1), ty := Fin.ofNat 4 (twBits x 35 2), ctl := Fin.ofNat 8 (twBits x 32 3), imm := BitVec.ofNat 32 x })

/-- The opcodes of the instruction table, as ranges (R143). -/
def twOpcodes : List (Nat × Nat) :=
  [(0x00, 0x04), (0x08, 0x0A), (0x10, 0x1C), (0x20, 0x2B), (0x30, 0x38), (0x40, 0x44), (0x48, 0x4C), (0x50, 0x53), (0x58, 0x5B)]

def twOpcode (op : Nat) : Bool := twOpcodes.any (fun r => decide (r.1 ≤ op) && decide (op ≤ r.2))

/-- The instruction word at the PC of a unit that runs a program. -/
def UnitSt.word (x : UnitSt) : Nat := x.ibuf.getD x.pc 0

/-- The unit executes an instruction of opcode `op`: it does not wait at a barrier, and while it runs a program the word at its PC has that
opcode. -/
def State.issuesOp (s : State) (d u op : Nat) : Bool :=
  let x := s.unit (d * 32 + u)
  x.bar.isNone && (x.slot.isNone || (decide (x.pc < x.ibuf.length) && decide ((twDecode x.word).1 = op)))

/-- The unit executes the instruction `op` with the fields `w`: while it runs a program, the word at its PC spells both. -/
def State.issues (s : State) (d u op : Nat) (w : TwillWord) : Bool :=
  let x := s.unit (d * 32 + u)
  s.issuesOp d u op && (x.slot.isNone || decide ((twDecode x.word).2 = w))

/-- An instruction does its work where the unit executes it. -/
def twIssue (d u op : Nat) (w : TwillWord) (s : State) (f : Nat → State → State) : State := if s.issues d u op w then f op s else s

/-- The instruction's result: the new unit state, with flags set unless the control code keeps them. -/
def twDone (d u : Nat) (noFlag : Bool) (fl : Nat) (x : UnitSt) (s : State) : State :=
  twAdvance d u (s.setUnit (d * 32 + u) { x with flags := if noFlag then x.flags else x.flags ||| fl })

/-- An illegal instruction: ILLEGAL is set, it executes as NOP, and the fault is recorded (R142). -/
def twIllegal (d u op : Nat) (s : State) : State :=
  let k := d * 32 + u
  let s := twFault d u op 0 s
  let x := s.unit k
  twAdvance d u (s.setUnit k { x with flags := x.flags ||| flIll })

/-- ILLEGAL set by an instruction that still executes (R141, R147, R149). -/
def twIllMark (d u op : Nat) (s : State) : State :=
  let k := d * 32 + u
  let s := twFault d u op 0 s
  let x := s.unit k
  s.setUnit k { x with flags := x.flags ||| flIll }

/-- Run `f` on the unit where the element type is one of `tys`; control code 0b111 marks ILLEGAL and rounds to nearest (R141, R142). -/
def twRun (d u op : Nat) (tys : List Nat) (w : TwillWord) (s : State) (f : TwillWord → UnitSt → UnitSt × Nat) : State :=
  if tys.contains w.ty.val then
    let bad := decide (w.ctl = 7)
    let w := if bad then { w with ctl := 0 } else w
    let s := if bad then twIllMark d u op s else s
    let r := f w (s.unit (d * 32 + u))
    twDone d u (ctlNoFlag w.ctl.val) r.2 r.1 s
  else twIllegal d u op s

/-- An element-wise instruction: `f e` is the element and its flags. -/
def twElems (d u op : Nat) (tys : List Nat) (w : TwillWord) (s : State) (f : TwillWord → UnitSt → Nat → Nat × Nat) : State :=
  twRun d u op tys w s (fun w x => (x.setElems w (fun e => (f w x e).1), x.orFlags w (fun e => (f w x e).2)))

/-! ### Task and context of a unit -/

/-- The format choices in force for a task: its context's when it belongs to a token, otherwise training's (R67, R70, R149). -/
def State.fmtOf (s : State) (t : Option TaskEnt) : FmtView :=
  match t with
  | some e => (match e.launch with
    | .gen _ _ h => (s.ctx h).fmt
    | _ => s.fmt.view)
  | none => s.fmt.view

/-- The task a unit runs. -/
def State.unitTask (s : State) (d u : Nat) : Option TaskEnt :=
  match (s.unit (d * 32 + u)).slot with
  | some sl => s.task (d * 4096 + sl)
  | none => none

/-- Whether a task belongs to the open attempt, so that its counts enter the attempt's statistics (R35). -/
def State.inAttempt (s : State) (t : Option TaskEnt) : Bool :=
  match t with
  | some e => e.isStep && !e.discard && s.stp.isOpen
  | none => false

/-- The entry of the format table for a tensor. -/
def FmtView.find (v : FmtView) (tensor : Nat) : Option FmtEnt := v.table.find? (fun e => e.tensor == tensor)

/-- The tensor exponent in force (R67). -/
def FmtView.exp (v : FmtView) (tensor : Nat) : Int := SMap.get (fun _ => 0) v.x tensor

/-- Fold a magnitude into a tensor's amax for the attempt (R66); FP32 code. -/
def State.foldAmax (s : State) (tensor code : Nat) : State :=
  s.modFmt (fun f => { f with amax := SMap.set (fun _ => 0) f.amax tensor (max (SMap.get (fun _ => 0) f.amax tensor) code) })

end Sys2Proof.Machine
end

