-- ==== Sys2Proof/Machine/FmtOps.lean ====
section
/-! DEFINITION. The format policy at a boundary: the format table (R64, R72), tensor exponents (R67 to R71), the gradient-format
phase and the formats of the layers (R73 to R77). -/

namespace Sys2Proof.Machine

/-- A format-table entry (R72); a history length of 0 is 1, above 16 it is 16. -/
def fmtEntry (b : List Byte) : FmtEnt :=
  let x := leAt b 5 1
  { tensor := leAt b 0 4 / 256, code := leAt b 0 1 % 16, hist := min 16 (max 1 (leAt b 4 1)), descent := x.testBit 7,
    sr := x.testBit 6, actGrad := x.testBit 5, headroom := x % 8, layer := leAt b 6 2, amax := leAt b 8 4 }

/-- The entries of the format table in HBM. -/
def State.fmtTable (s : State) : List FmtEnt :=
  (List.range s.fmt.count).map (fun i => fmtEntry (s.hbm (s.fmt.base + 16 * i) 16))

/-- Whether an entry may select stochastic rounding (R64). -/
def UpdSt.srAllowed (u : UpdSt) (e : FmtEnt) : Bool :=
  e.actGrad || u.table.any (fun t => t.grad == e.tensor || t.rem == e.tensor)

/-- The table as it takes effect: a stochastic-rounding bit that R64 does not allow is treated as 0. -/
def State.fmtTableInForce (s : State) : List FmtEnt :=
  s.fmtTable.map (fun e => if e.sr && !(s.upd.srAllowed e) then { e with sr := false } else e)

/-- A host write to `n` bytes from `a` is logged for each format-table entry it touches that then selects stochastic rounding where R64
does not allow it. -/
def State.logBadSr (s : State) (a n : Nat) : State :=
  (s.fmtTable.zipIdx.filter (fun p => p.1.sr && !(s.upd.srAllowed p.1) && decide (s.fmt.base + 16 * p.2 < a + n)
    && decide (a < s.fmt.base + 16 * p.2 + 16))).foldl (fun s p => s.log 9 1 0xFF 0 p.1.tensor) s

/-- The host writes HBM. -/
def State.hostHbmWrite (s : State) (a : Nat) (bs : List Byte) : State := (s.hbmWrite a bs).logBadSr a bs.length

/-- The counts of a conversion enter the attempt's counts (R45, R62). -/
def State.addEnc (s : State) (c : EncCount) : State :=
  s.modCnt (fun k => { k with sat := k.sat + c.sat, nonfinite := k.nonfinite + c.nonfinite })

/-- The bound M of a format for R67: of the element format, or of the wire integer (R211). -/
def fmtBound (f : Fmt) : Nat × Int := match f with
  | .i24 => ((wireBound false).toNat, 0)
  | .i32 => ((wireBound true).toNat, 0)
  | _ => f.maxMag

/-- The tensor exponent of an entry in hardware mode (R67). -/
def FmtSt.hwExp (f : FmtSt) (e : FmtEnt) : Int :=
  match Fmt.ofCode e.code with
  | none => 0
  | some fm =>
    let h := (SMap.get (fun _ => List.replicate 16 e.amax) f.hist e.tensor).take e.hist
    let a := maxFinite (h.map (fun w => FF.fp32.decode w))
    let a := if a.isZero then FF.fp32.decode e.amax else a
    clampInt (-127) 127 (smallestExp a (fmtBound fm) + (e.headroom : Int))

/-- The exponent of the i-th entry in the host's table (R71): -128 is clamped. The table lies where DUTY_XT_BASE says at the new-step or
token boundary (R13, R251). -/
def State.hostExp (s : State) (i : Nat) : Int := max (-127) (sext 8 (s.hbmNum (s.pair R.DUTY_XT_BASE + i) 1))

/-- The format code of a gradient format (R76): FP8 E5M2, FP6 E3M2, Gauze-4. -/
def gradCode : Nat → Option Nat | 1 => some 3 | 2 => some 5 | 3 => some 7 | _ => none

/-- The entry of a layer's activation gradient takes the format chosen for the layer (R76, R77). -/
def FmtSt.chosen (f : FmtSt) (e : FmtEnt) : FmtEnt :=
  if e.actGrad && decide (e.layer < 128) then { e with code := (gradCode (SMap.get (fun _ => 0) f.cur e.layer)).getD e.code } else e

/-- The format choices as they stand now: in host-assisted mode the exponents come from the host's table; in hardware mode they are
formed, or, where `keep` holds and the entry is unchanged, kept (R70); before the first new-step boundary they are formed from the initial
amax as it stands (R70). Wire formats always have the exponent of R67 (R211). With `grad` the activation gradients take the formats of the step. -/
def State.formView (s : State) (host keep grad : Bool) : FmtView :=
  let t := if grad then s.fmtTableInForce.map s.fmt.chosen else s.fmtTableInForce
  { table := t
    x := (List.range t.length).foldl (fun m i =>
      let e := t.getD i {}
      let v := if host && decide (e.code < 14) then s.hostExp i
        else if keep && (s.fmt.view.table.contains e) then s.fmt.view.exp e.tensor
        else (if s.fmt.began then s.fmt else { s.fmt with hist := [] }).hwExp e
      SMap.set (fun _ => 0) m e.tensor v) [] }

/-- Start-up: every history entry takes the tensor's initial amax (R66), and the exponents are formed from it (R70). -/
def State.formatsStart (s : State) : State :=
  let s := s.modFmt (fun f => { f with hist := s.fmtTable.foldl (fun h e => SMap.insert e.tensor (List.replicate 16 e.amax) h) [] })
  s.modFmt (fun f => { f with view := s.formView (s.fnHost 2) false false })

/-- Log the values of the host's table that are clamped (R71). -/
def State.logHostExp (s : State) : State :=
  (List.range s.fmt.count).foldl (fun s i =>
    if s.hbmNum (s.pair R.DUTY_XT_BASE + i) 1 = 0x80 then s.log 9 1 0xFF 1 i else s) s

/-! ### Gradient formats (R73 to R77) -/

/-- The layers whose activation gradient has a format-table entry. -/
def layersOf (t : List FmtEnt) : List Nat := ((t.filter (fun e => e.actGrad && decide (e.layer < 128))).map (·.layer)).dedup
def FmtView.gradLayers (v : FmtView) : List Nat := layersOf v.table

/-- Records RECOVERY_LEFT and the phase at a new-step boundary (R73, R74). -/
def State.phaseStep (s : State) (step : Nat) : State :=
  let left := if s.stp.nfEvent then s.polF R.STEP_FMT_CTRL 15 4 else s.fmt.recoveryLeft - 1
  let ph := if s.polB R.STEP_FMT_CTRL 0 then 2
    else if step ≤ s.polF R.STEP_FMT_CTRL 31 16 then 1
    else if 0 < left then 3 else 0
  (s.modFmt (fun f => { f with recoveryLeft := left, phase := ph })).modStp (fun x => { x with nfEvent := false })

/-- The order of the gradient formats by width: FP8 E5M2 over FP6 E3M2 over Gauze-4. -/
def gradWidth : Nat → Nat | 1 => 8 | 2 => 6 | 3 => 4 | _ => 9

/-- Counts in the bins from `i` on. -/
def LayerStat.tail (l : LayerStat) (i : Nat) : Nat :=
  ((List.range 32).filter (fun j => decide (i ≤ j))).foldl (fun a j => a + SMap.get (fun _ => 0) l.bins j) 0

/-- The format that a layer's statistics want (R76): the thresholds compare exactly. -/
def LayerStat.want (l : LayerStat) (u c : Nat) : Nat :=
  let ok := fun (x y : Nat) => decide (x * 2 ^ u ≤ l.n) && decide (y * 2 ^ c ≤ l.n)
  if l.n = 0 then 1
  else if ok (l.tail 4) l.oc3 then 3
  else if ok (l.tail 9) l.oc then 2
  else 1

/-- The choice of R76 for one layer: current format, eligible steps in a row, whether it became narrower. -/
def gradChoice (cur run want hold : Nat) : Nat × Nat × Bool :=
  if gradWidth cur < gradWidth want then (want, 0, false)
  else if gradWidth want < gradWidth cur then
    (if hold ≤ run + 1 then (want, 0, true) else (cur, run + 1, false))
  else (cur, 0, false)

/-- The formats of the layers for the step (R76, R77); `entered` when the phase has just been entered after a normal step. DESIGN CHOICE,
where R77 is silent on the host's table: a byte above 3 is read modulo 4; and NARROWED counts a layer that leaves its activation format,
which has no place in the order of widths, as narrower. -/
def State.gradFormats (s : State) (entered : Bool) : State :=
  let layers := layersOf s.fmtTableInForce
  if s.fmt.phase = 0 then s.modFmt (fun f => { f with cur := [], run := [], narrowed := 0 })
  else if s.fnHost 3 then
    layers.foldl (fun s l =>
      let v := s.hbmNum (s.polPair R.DUTY_GF_BASE + l) 1 % 4
      let old := SMap.get (fun _ => 0) s.fmt.cur l
      let w := if v = 0 then 1 else v
      let s := if v = 0 then s.log 9 1 0xFF 2 l else s
      s.modFmt (fun f => { f with cur := SMap.set (fun _ => 0) f.cur l w,
                                  narrowed := f.narrowed + (if gradWidth w < gradWidth old then 1 else 0) }))
      (s.modFmt (fun f => { f with narrowed := 0 }))
  else if entered then
    s.modFmt (fun f => { f with cur := layers.foldl (fun m l => SMap.set (fun _ => 0) m l 1) [], run := [], narrowed := 0 })
  else
    let u := max 1 (s.polF R.STEP_FMT_THRESH 31 24)
    let c := max 1 (s.polF R.STEP_FMT_THRESH 23 16)
    let h := max 1 (s.polF R.STEP_FMT_THRESH 15 8)
    layers.foldl (fun s l =>
      let st : LayerStat := SMap.get (fun _ => {}) s.fmt.stats l
      let r := gradChoice (SMap.get (fun _ => 1) s.fmt.cur l) (SMap.get (fun _ => 0) s.fmt.run l) (st.want u c) h
      s.modFmt (fun f => { f with cur := SMap.set (fun _ => 0) f.cur l r.1, run := SMap.set (fun _ => 0) f.run l r.2.1,
                                  narrowed := f.narrowed + r.2.2.toNat })) (s.modFmt (fun f => { f with narrowed := 0 }))

end Sys2Proof.Machine
end

