-- ==== Sys2Proof/Machine/TaskOps.lean ====
section
/-! DEFINITION. Event counters, signals, window entries and the end of a task (R230 to R247). -/

namespace Sys2Proof.Machine

/-! ### Counters and signals (R233 to R235) -/

/-- A counter: `k` is the counter field, die * 1024 + index. -/
def State.counter (s : State) (k : Nat) : Nat := SMap.get (fun _ => 0) s.tsk.cnt k
def State.setCounter (s : State) (k n : Nat) : State :=
  s.modTsk (fun t => { t with cnt := SMap.set (fun _ => 0) t.cnt k (n % 2 ^ 32) })

/-- Add to a counter: beyond 0xFFFF_FFFF it stays there, recorded and logged (R235). -/
def State.addCounter (s : State) (k n : Nat) : State :=
  if s.counter k + n < 2 ^ 32 then s.setCounter k (s.counter k + n)
  else
    let s := s.setCounter k (2 ^ 32 - 1)
    (s.setRegN R.TSK_OVF_INFO k).eventLog R.TSK_EVENTS 1 (0xA + k / 1024) 0 0 k

/-- A signal takes effect on its counter. -/
def State.takeSignal (s : State) (g : Signal) : State :=
  if g.set then s.setCounter g.counter g.value else s.addCounter g.counter g.value

/-- A signal of a task of die `d`: one to the other die is on its way (R234). -/
def State.signalFrom (d : Nat) (s : State) (g : Signal) : State :=
  if g.counter / 1024 = d then s.takeSignal g else s.modTsk (fun t => { t with remote := t.remote ++ [g] })

/-! ### Window entries -/

/-- The tasks of a die's window, by slot. -/
def State.window (s : State) (d : Nat) : List (Nat × TaskEnt) :=
  s.tsk.win.filterMap (fun p => if p.1 / 4096 = d then p.2.map (fun t => (p.1 % 4096, t)) else none)

/-- Whether both windows are empty. -/
def State.windowsEmpty (s : State) : Bool := (s.window 0).isEmpty && (s.window 1).isEmpty

/-- A wait is satisfied (R233). -/
def State.waitOk (s : State) (w : Wait) : Bool := decide (w.threshold ≤ s.counter w.counter)

/-- A waiting task is ready when all its waits are satisfied. -/
def State.taskReady (s : State) (t : TaskEnt) : Bool := decide (t.prog = .waiting) && t.waits.all s.waitOk

/-- An engine ends a task: it completes once TASK_COMPLETE takes it, with error status also where a read of it failed (R254). -/
def State.endTask (s : State) (d slot : Nat) (err : Bool) : State :=
  match s.task (d * 4096 + slot) with
  | some t => s.setTask (d * 4096 + slot) (some { t with prog := .done (err || t.err) })
  | none => s

/-- One part of a task ends, with an error or without; after the last one the task ends, with an error where a part had one. -/
def State.endPart (s : State) (d slot : Nat) (bad : Bool) : State :=
  match s.task (d * 4096 + slot) with
  | some t =>
    if t.remain ≤ 1 then s.setTask (d * 4096 + slot) (some { t with remain := 0, err := t.err || bad, prog := .done (t.err || bad) })
    else s.setTask (d * 4096 + slot) (some { t with remain := t.remain - 1, err := t.err || bad })
  | none => s

/-- A task has read the ranges: units corrected are counted, the uncorrectable ones it met are noted, and it will complete with error status
(R254). -/
def State.taskRead (s : State) (d slot : Nat) (l : List (Nat × Nat)) : State :=
  let s := s.ceNotes (l.flatMap (fun r => s.mem.softIn r.1 r.2))
  let us := l.flatMap (fun r => s.mem.badIn r.1 r.2)
  if us.isEmpty then s
  else
    let s := s.ueNotes us
    match s.task (d * 4096 + slot) with
    | some t => s.setTask (d * 4096 + slot) (some { t with err := true })
    | none => s

/-- Some part of a task failed. -/
def State.taskBad (s : State) (d slot : Nat) : Bool := (s.task (d * 4096 + slot)).elim false (·.err)

/-- The token of the context a task serves is reported as failed (R244). -/
def State.failToken (s : State) (t : TaskEnt) : State :=
  match t.launch with
  | .gen _ _ h => s.setCtx h { s.ctx h with failed := true }
  | _ => s

/-- What an error status does (R244). -/
def State.taskError (s : State) (d slot : Nat) (t : TaskEnt) : State :=
  let s := (s.incReg (R.TSK_ERR_CNT d) 1).eventLog R.TSK_EVENTS 0 (0xA + d) 1 t.kind (slot + t.kind * 2 ^ 16 + t.graph * 2 ^ 24)
  let s := if t.isStep && s.regB R.TSK_CTRL 1 then s.setRegB R.STEP_CTRL 8 true else s
  s.failToken t

/-- The task completes: its signals take effect unless discarded, in one cycle, so its SETs before its adds (R234 items 1 and 2); its entry is freed (R234, R236, R244). -/
def State.completeTask (s : State) (d slot : Nat) (t : TaskEnt) (err : Bool) : State :=
  let s := if err then s.taskError d slot t else s
  let s := if t.discard then s else (t.signals.filter (·.set) ++ t.signals.filter (!·.set)).foldl (State.signalFrom d) s
  let s := s.setTask (d * 4096 + slot) none
  if s.tsk.flushing && s.windowsEmpty then s.modTsk (fun x => { x with flushing := false }) else s

/-- The lowest free entry of a window. -/
def State.freeSlot (s : State) (d : Nat) : Option Nat :=
  (List.range 4096).find? (fun i => decide (s.task (d * 4096 + i) = none))

/-- Remove every undispatched task that `p` holds of, without its signals; let the others that `q` holds of run with signals
discarded. -/
def TskSt.cancel (t : TskSt) (p : TaskEnt → Bool) : TskSt :=
  { t with win := t.win.filterMap (fun e => match e.2 with
      | some x =>
        if p x then (if x.prog = .waiting then none else some (e.1, some { x with discard := true }))
        else some e
      | none => some e) }

end Sys2Proof.Machine
end

