-- ==== Sys2Proof/Machine/StepOps.lean ====
section
/-! DEFINITION. What step control does in common: the step record, the history appends, applying a decision (R30, R35, R38, R45,
R66, R225, R245), finding an abort reason (R29, R223, R224), sending tokens. -/

namespace Sys2Proof.Machine

/-- Group size and ring position; a module that trains alone is a group of one (R27). -/
def State.groupN (s : State) : Nat := max 1 s.red.n
def State.epoch (s : State) : Nat := (s.reg R.RED_EPOCH).toNat
/-- The step number of the attempt in progress or that follows (R216). -/
def State.stepNum (s : State) : Nat := s.pair R.STEP_COUNT + 1
/-- Its attempt number: from a decision on, that of the attempt that follows (R216). -/
def State.attNum (s : State) : Nat := s.stp.nextAtt.getD s.stp.attempt
/-- Training is idle while a context handle is OPEN or CLOSING: PHASE reads SERVING (R389). -/
def State.phaseNow (s : State) : Phase :=
  if decide (s.stp.phase = .idle) && !s.mem.handles.isEmpty then .serving else s.stp.phase
/-- IDLE, HELD or HALTED, the phases in which the host may write state (R24, R202, R205). -/
def State.quiet (s : State) : Bool :=
  decide (s.phaseNow = .idle) || decide (s.phaseNow = .held) || decide (s.phaseNow = .halted)

/-- The group is HELD or HALTED (R390). -/
def State.halted (s : State) : Bool := decide (s.stp.phase = .held) || decide (s.stp.phase = .halted)

/-! ### The step record (R45, R46, R422) -/

/-- The 32 trim entries of a scale-log slot. -/
def State.trimWords (s : State) : List Word :=
  (List.range 16).flatMap (fun n => [BitVec.ofNat 32 (0xFFFFF000 + n), BitVec.ofNat 32 (s.kao n).trimVer])

/-- The scale byte a tensor used in the attempt, for tensors that have one (R46, R211, R212); a remainder tensor has the scale bytes of
its blocks alone (R194). -/
def State.scaleUsed (s : State) (e : FmtEnt) : Option Nat :=
  match Fmt.ofCode e.code with
  | none => none
  | some f =>
    if s.upd.table.any (fun t => t.rem == e.tensor) then none
    else if f.scaled then some (s.fmt.view.exp e.tensor + 127).toNat
    else if f = .i24 ∨ f = .i32 then
      (if s.fnHost 4 then SMap.find s.fmt.wireScale e.tensor else some (s.fmt.view.exp e.tensor + 127).toNat)
    else none

/-- The used entries of the attempt's scale-log slot. -/
def State.scaleWords (s : State) : List Word :=
  (s.trimWords ++ s.fmt.view.table.filterMap (fun e =>
    (s.scaleUsed e).map (fun b => BitVec.ofNat 32 (e.tensor * 256 + b % 256)))).take 4096

/-- The layers that run in digital fallback, and those whose image set marks measured shadow. -/
def State.fbCount (s : State) : Nat := (s.layerList.filter s.layerFb).length
def State.msCount (s : State) : Nat :=
  (s.layerList.filter (fun l => (s.layerPos l).any (fun p => (s.pos p.1 p.2).msUse))).length
/-- The checkpoint-only layers of the module (R261). -/
def State.ckptCount (s : State) : Nat :=
  ((List.range 2).flatMap (fun d => (SMap.get (fun _ => []) s.mem.plan d).filter (fun p => decide (p.2 = .ckpt)))).length

/-- The record of the open attempt. -/
def State.mkRecord (s : State) (step outcome reason voter : Nat) : RecEnt :=
  let c := s.stp.cnt
  { seq := s.stp.recSeq + 1, step := step, attempt := s.stp.attempt, outcome := outcome, pos := s.red.pos, n := s.groupN,
    reason := reason, voter := voter, phase := s.fmt.phase, imgSeq := (s.reg R.STEP_IMG_SEQ).toNat, trim := (s.kao 0).trimVer,
    hash := s.imageHash, tFirst := s.stp.startTime, tDec := s.time, stepSize := s.reg R.UPD_STEP_SIZE_USED, duty := s.stp.duty,
    formats := s.fmt.cur, fbLayers := s.fbCount, msLayers := s.msCount, ckLayers := s.ckptCount, buckets := c.buckets,
    sat := c.sat, clips := c.clips, clamps := c.clamps, nan := c.nan, inf := c.inf, marked := c.marked,
    red := c.exact.toNat + 2 * c.reorderStall.toNat + 4 * c.flightStall.toNat, scale := s.scaleWords }

/-- The index after STEP_REC_HEAD. -/
def State.nextRec (s : State) : Nat := ((s.reg R.STEP_REC_HEAD).toNat + 1) % 4096

/-- The draft of the record is written before the member votes (R47). -/
def State.draftRecord (s : State) : State :=
  (s.setRecord s.nextRec (s.mkRecord s.stepNum 0 0 0xFF)).modStp (fun x => { x with drafted := true })

/-- Write a record at the next index and advance STEP_REC_HEAD. -/
def State.writeRecord (s : State) (r : RecEnt) : State :=
  let i := s.nextRec
  ((s.setRecord i r).setRegN R.STEP_REC_HEAD i).modStp (fun x => { x with recSeq := r.seq })

/-! ### History appends and statistics (R66, R75) -/

/-- The history of a tensor: 16 values, at start-up each the initial amax (R66). -/
def FmtSt.histOf (f : FmtSt) (e : FmtEnt) : List Nat := SMap.get (fun _ => List.replicate 16 e.amax) f.hist e.tensor

/-- Every history shifts by one entry; entry 0 takes the attempt's amax. -/
def FmtSt.append (f : FmtSt) : FmtSt :=
  { f with
    hist := f.view.table.foldl (fun h e =>
      SMap.insert e.tensor ((SMap.get (fun _ => 0) f.amax e.tensor :: f.histOf e).take 16) h) f.hist
    amax := []
    wireScale := []
    stats := f.statsNow
    statsNow := [] }

/-- The 35 counts of a layer's record. -/
def LayerStat.bytes (l : LayerStat) : List Byte :=
  leBytes 8 l.n ++ (List.range 32).flatMap (fun i => leBytes 8 (SMap.get (fun _ => 0) l.bins i)) ++ leBytes 8 l.oc ++ leBytes 8 l.oc3

/-- The layer statistics go to the statistics area. -/
def State.writeStats (s : State) : State :=
  s.fmt.view.gradLayers.foldl (fun s l =>
    s.hbmWrite (s.fmt.statBase + 280 * l) (SMap.get (fun _ => {}) s.fmt.statsNow l : LayerStat).bytes) s

/-- The counts of a committed or skipped attempt enter the range tracker's window; those of an aborted one are dropped (R35, R94). -/
def State.trackerTake (s : State) (keep : Bool) : State :=
  s.modArr (fun a => { a with mat := a.mat.map (fun p =>
    (p.1, if keep then { p.2 with clips := p.2.clips + p.2.aClips, conv := p.2.conv + p.2.aConv, peak := max p.2.peak p.2.aPeak,
                                  aClips := 0, aConv := 0, aPeak := 0, due := true }
          else { p.2 with aClips := 0, aConv := 0, aPeak := 0 })) })

/-- Appends of a committed or skipped attempt. -/
def State.appendAll (s : State) : State := (s.writeStats.modFmt FmtSt.append).trackerTake true

/-! ### What an abort ends (R225, R245) -/

/-- Channels discard the attempt's buckets; they start anew with the next attempt. -/
def State.resetChannels (s : State) : State :=
  s.modRed (fun r => { r with chan := (List.range 8).foldl (fun m c =>
    let x := SMap.get (fun _ => {}) m c
    SMap.set (fun _ => {}) m c { x with sendPt := 0, deliverPt := 0, flight := [], holdWindow := false, holdFlight := false }) r.chan })

/-- The update units forget the attempt. -/
def State.resetUpdates (s : State) : State :=
  (List.range 2).foldl (fun s d =>
    let u := s.updD d
    s.setUpd d { u with inbuf := [], stopped := false, skip := false, nf := 0, complete := false }) s

/-- A slice's slot on its core is free again. -/
def CoreSt.dropTile (c : CoreSt) (t : Nat) : CoreSt := { c with tiles := c.tiles.filter (· ≠ t) }

/-- A task of the attempt in progress. -/
def State.ofAttempt (s : State) (t : Option TaskEnt) : Bool := match t with
  | some e => e.isStep && decide (e.tag = some (s.stepNum, s.stp.attempt))
  | none => false

/-- Converters release the slices of the attempt that they hold. -/
def State.releaseSlices (s : State) : State :=
  (List.range 16).foldl (fun s k =>
    match SMap.get (fun _ => none) s.mxe.conv k with
    | none => s
    | some c =>
      if s.ofAttempt (s.task (k / 8 * 4096 + c.slot)) then
        s.modMxe (fun m =>
          let ck := k / 8 * 128 + c.core
          { m with conv := SMap.set (fun _ => none) m.conv k none,
                   core := SMap.set (fun _ => {}) m.core ck ((SMap.get (fun _ => ({} : CoreSt)) m.core ck).dropTile c.tile),
                   ready := m.ready.erase ck })
      else s) s

/-- Tasks of the aborted attempt: undispatched ones are removed, dispatched ones run with signals discarded (R245). -/
def State.cancelTasks (s : State) : State :=
  let tag := some (s.stepNum, s.stp.attempt)
  let s := s.modTsk (fun t =>
    let t := t.cancel (fun e => e.isStep && decide (e.tag = tag))
    { t with launchQ := t.launchQ.filter (fun l => l.tag ≠ tag),
             streamer := t.streamer.bind (fun x => if x.launch.tag = tag then none else some x) })
  s.event R.TSK_EVENTS 5

/-! ### Applying a decision -/

/-- The attempt is decided: its votes and tokens are forgotten, the epoch counts (R205). -/
def State.closeAttempt (s : State) (dec : Decision) (step att reason voter : Nat) (hold : Bool) : State :=
  let rec_ : DecRec := { step := step, attempt := att, epoch := s.epoch, decision := dec, reason := reason, voter := voter, hold := hold }
  let s := s.modStp (fun x => { x with
    isOpen := false, voted := false, firstSent := false, waitToken := none, abort := none, heldReq := none, skipVote := false,
    fixed := none, secondSent := false, queried := false, seen := [], drafted := false, decisions := x.decisions ++ [rec_],
    nfEvent := x.nfEvent || decide (dec = .abort) || decide (0 < x.cnt.nan + x.cnt.inf + x.cnt.marked + x.cnt.nonfinite) })
  s.setRegN R.RED_EPOCH ((s.epoch + 1) % 2 ^ 32)

/-- What follows a decision: HALTED, HELD, IDLE or the step boundary (R36, R39, R40, R420); a member that rests takes no part in it, so
HELD is not entered on it. DEDUCED: what a decision notes of a hold is that its token carried HOLD; a member's own HOLD shows in GROUP_HOLD
at once (State.viewDuty). -/
def State.afterDecision (s : State) (dec : Decision) (hold rest : Bool) : State :=
  let fresh := decide (dec ≠ .abort)
  let limit := s.regF R.STEP_CTRL 23 16
  let haltSkip := decide (dec = .skip) && decide (limit ≠ 0) && decide (limit ≤ s.stp.skips)
  let haltRep := decide (dec = .abort) && (s.fnHost 5 || decide (s.regF R.STEP_CTRL 3 0 ≤ s.stp.attempt))
  let held := hold && !haltSkip && !haltRep
  let idle := fresh && !haltSkip && !held && !(s.regB R.TSK_STEP_GRAPH 31)
  let s := s.when haltSkip (fun s => s.eventLog R.STEP_EVENTS 4 9 4 0 s.stp.skips)
  let s := s.when (held && !rest) (fun s => s.event R.STEP_EVENTS 6)
  s.modStp (fun x => { x with
    groupHold := hold
    phase := if haltSkip then .halted else if held then .held else if idle then .idle else .boundary
    halt := if haltSkip then some .skipLimit else if haltRep then some .exhausted else none
    haltAttempt := x.attempt
    due := if idle then none else some (if fresh || decide (x.due = some .new) then .new else .again)
    nextAtt := some (if fresh then 0 else x.attempt + 1) })

/-- A projection pass as it starts: its threshold, RESCALE_EN and the marked positions are fixed (R199, R201). -/
def State.passRun (s : State) (r : ProjRun) : ProjRun :=
  if r.thr.isSome then r
  else { r with thr := some (if r.hyst then f32Add 0x3F000000 (s.pol R.UPD_PROJ_HYST) else 0x3F000000), rescale := s.polB R.UPD_CTRL 2
                marks := (s.arr.pos.filter (fun x => x.2.mark)).map (·.1), start := s.time }

/-- The projection pass of a commit becomes due on a die: it starts at the commit, unless EN is 0 or a command pass runs (R198, R202). -/
def State.passDue (s : State) (d step : Nat) : State :=
  let u := s.updD d
  let r : ProjRun := { step := step, hyst := true }
  s.setUpd d { u with projWait := u.projWait ++ [if s.regB R.UPD_CTRL 0 && u.proj.isNone && u.projWait.isEmpty then s.passRun r else r] }

/-- Commit (R30): the copies swap, the counters advance, the record is finalised; histories append, a projection pass is due. -/
def State.applyCommit (s : State) (step : Nat) : State :=
  let s := s.modStp (fun x => { x with copySel := !x.copySel, skips := 0 })
  let s := s.setPair R.STEP_COUNT step
  let s := s.setRegN R.STEP_COMMIT_SEQ (((s.reg R.STEP_COMMIT_SEQ).toNat + 1) % 2 ^ 32)
  let s := (s.writeRecord (s.mkRecord step 1 0 0xFF)).event R.STEP_EVENTS 0
  let s := s.appendAll.resetUpdates
  (List.range 2).foldl (fun s d => s.passDue d step) s

/-- Skip (R38).  CONSEC_SKIPS stays at 255 where a further skip follows (DESIGN CHOICE: R39 does not say what a 256th skip gives). -/
def State.applySkip (s : State) : State :=
  let s := s.modStp (fun x => { x with skips := min 255 (x.skips + 1) })
  let s := (s.writeRecord (s.mkRecord s.stepNum 3 0 0xFF)).event R.STEP_EVENTS 2
  s.appendAll.resetUpdates.spoilWriteCopy

/-- A die's stash: its size in bytes. -/
def State.stashSize (s : State) (d : Nat) : Nat := (s.pol (R.MEM_STASH_SIZE d)).toNat * 2 ^ 20

/-- The stash contents of an aborted attempt are discarded (R263): the bytes written there become open. -/
def State.discardStash (s : State) : State :=
  let x := s.draw
  (List.range 2).foldl (fun s d =>
    let b := s.pair (R.MEM_STASH_BASE d) / 4096 * 4096
    ((SMap.keys s.mem.hbm).filter (fun k => decide (b ≤ k) && decide (k < b + s.stashSize d) && !(s.mem.bad.contains (k / 32)))).foldl
      (fun s k => s.hbmWrite k [Config.freeByte x.1 k]) s) x.2

/-- Reduction frames of this member that are queued on its links and not begun are not sent (R216, R225). -/
def State.dropRing (s : State) : State :=
  (List.range 18).foldl (fun s l =>
    s.setLnk l { s.lnk l with queue := (s.lnk l).queue.filter (fun f => f.typ ≠ 2) }) s

/-- The record of an aborted attempt: its conversion counts are withdrawn (R35). -/
def State.abortRecord (s : State) (reason voter : Nat) : RecEnt :=
  { s.mkRecord s.stepNum 2 reason voter with sat := 0, clamps := 0 }

/-- Abort (R35, R225, R245), with adoption of position 0's step and attempt numbers where the steps differ (R226). -/
def State.applyAbort (s : State) (step att reason voter : Nat) : State :=
  let s := ((s.writeRecord (s.abortRecord reason voter)).eventLog R.STEP_EVENTS 1 9 4 0 (reason + s.stp.attempt * 2 ^ 16))
  let s := s.cancelTasks.releaseSlices.dropRing
  let s := (s.modFmt (fun f => { f with amax := [], statsNow := [], wireScale := [] })).trackerTake false
  let s := s.resetUpdates.spoilWriteCopy.discardStash
  if step = s.stepNum then s
  else
    let s := (s.setPair R.STEP_COUNT (step - 1)).modStp (fun x => { x with attempt := att })
    s.eventLog R.RED_EVENTS 4 0x12 4 0 step

/-- A phase in which no attempt runs on this member. -/
def Phase.rest : Phase → Bool
  | .idle | .held | .halted => true
  | _ => false

/-- Apply a decision on the attempt (R30, R38, R225); a member that rests in IDLE, HELD or HALTED while the group decides stays there. -/
def State.applyDecision (s : State) (dec : Decision) (step att reason voter : Nat) (hold : Bool) : State :=
  let old := s.stp
  let s := match dec with
    | .commit => s.applyCommit step
    | .skip => s.applySkip
    | .abort => s.applyAbort step att reason voter
  let s := ((s.closeAttempt dec step att reason voter hold).resetChannels).afterDecision dec hold old.phase.rest
  if old.phase.rest then s.modStp (fun x => { x with phase := old.phase, halt := old.halt, due := old.due }) else s

/-! ### Tokens (R27, R28, R286, R287) -/

/-- The module ID at a ring position. -/
def State.moduleAt (s : State) (p : Nat) : Nat := s.red.order.getD (p % s.groupN) 0

/-- A COMMIT frame goes to the successor on the lowest-numbered UP link toward it; where none is UP it waits (R424). -/
def State.sendToken (s : State) (t : Token) : State :=
  let m := s.moduleAt (s.red.pos + 1)
  let f : Frame := ⟨4, 0, s.me, 0xFF, Token.bytes t⟩
  s.sendPartner m f

/-- This member's votes added to a first-pass token (R27, R28). -/
def State.vote (s : State) (t : Token) : Token :=
  let own := s.stp.abort
  { t with
    abort := t.abort || own.isSome
    skip := t.skip || s.stp.skipVote
    hold := t.hold || s.regB R.STEP_CTRL 8
    firstVoter := if t.abort then t.firstVoter else if own.isSome then s.red.pos else t.firstVoter
    reason := if t.abort then t.reason else own.getD t.reason }

/-- The first-pass token of position 0, with a held request's voter (R28, R29). -/
def State.firstToken (s : State) : Token :=
  let t := s.vote { step := s.stepNum, epoch := s.epoch, attempt := s.attNum, gid := s.red.gid, size := s.groupN }
  match s.stp.heldReq with
  | some r => if t.abort then t else { t with abort := true, firstVoter := r.2, reason := r.1 }
  | none => t

/-- Position 0 sends the first pass. -/
def State.sendFirst (s : State) : State :=
  (s.sendToken s.firstToken).modStp (fun x => { x with firstSent := true, voted := true })

/-! ### Finding an abort reason (R29, R223, R224) -/

/-- Open the attempt that follows for its decision alone, on a member that has not begun it. -/
def State.openFor (s : State) : State :=
  if s.stp.isOpen then s
  else s.modStp (fun x => { x with isOpen := true, attempt := s.attNum, nextAtt := none, startTime := 0, cnt := {},
                                   duty := s.reg R.DUTY_SPLIT_USED })

/-- The RED_EVENTS bit of a reason, if it has one. -/
def abortBit : Nat → Option Nat
  | 1 => some 0 | 2 => some 1 | 3 => some 2 | 4 => some 3 | 7 => some 10 | _ => none

/-- The vote or request that a first reason leads to. -/
def State.castAbort (s : State) (code : Nat) : State :=
  let s := (s.modStp (fun x => { x with abort := some code })).dropRing
  if s.groupN ≤ 1 then s.applyDecision .abort s.stepNum s.stp.attempt code s.red.pos (s.regB R.STEP_CTRL 8)
  else if s.red.pos = 0 then
    (if s.stp.firstSent then s.modStp (fun x => { x with heldReq := some (x.heldReq.getD (code, 0)) }) else s.sendFirst)
  else
    match s.stp.waitToken with
    | some t => (s.sendToken (s.vote t)).modStp (fun x => { x with waitToken := none, voted := true })
    | none =>
      (s.sendCtrl (s.moduleAt 0) 1 { step := s.stepNum, attempt := s.stp.attempt, epoch := s.epoch, reason := code, pos := s.red.pos,
                                     src := s.me }).modStp (fun x => { x with voted := true })

/-- An abort reason is found: code and detail, bucket sequence number, sender of the message. The first one of the attempt votes; later
ones, and those found after the decision, are only recorded (R224). In the step boundary the vote is one on the attempt that follows
(R216). -/
def State.findAbort (s : State) (code detail seq sender : Nat) : State :=
  let full := code * 256 + detail
  let s := (s.setReg R.RED_LAST_ABORT (packFields [(24, sender), (0, full)])).setRegN R.RED_LAST_SEQ seq
  let s := s.when (decide (code = 4)) (fun s => s.incReg R.RED_CHECK_CNT 1)
  let cls := if code = 4 then 3 else 4
  let s := match abortBit code with
    | some b => s.eventLog R.RED_EVENTS b 0x12 cls code (full + seq * 2 ^ 32)
    | none => s.log 0x12 cls 0xFF code (full + seq * 2 ^ 32)
  if s.stp.abort.isSome || s.stp.fixed.isSome then s
  else if s.stp.isOpen then s.castAbort full
  else if s.stp.nextAtt.isSome && decide (1 < s.groupN) then s.openFor.castAbort full
  else s

end Sys2Proof.Machine
end

