-- ==== Sys2Proof/Machine/Arrays.lean ====
section
/-! DEFINITION. Meanings of the forward-pass commands of the Kaolin dies (chapter 03): group requests, admission, the end of a pass,
the range tracker, the pass governor, clip counters. -/

namespace Sys2Proof.Machine

/-! ### Input records (R57, R83) -/

/-- The activation format of an input width. -/
def intFmt : Nat → Fmt | 2 => .int2 | 3 => .int3 | 8 => .int8 | _ => .int4

/-- Bytes of one input vector, and of an input record of a chain of `c` vectors. -/
def MatEnt.vecBytes (e : MatEnt) : Nat := (intFmt e.width).bytesFor e.k
def MatEnt.recBytes (e : MatEnt) (c : Nat) : Nat := 16 + c * e.vecBytes

/-- An INTb block as its scale byte and its integers. -/
def intBlock (w : Nat) (bs : List Byte) : Nat × List Int :=
  let v := ofLe ((bs.drop 1).take (4 * w))
  ((bs.getD 0 0).toNat, (List.range 32).map (fun i => sext w (v >>> (w * i))))

/-- The blocks of vector `i` of a record. -/
def MatEnt.blocksOf (e : MatEnt) (rec_ : List Byte) (i : Nat) : List (Nat × List Int) :=
  (chunks ((intFmt e.width).blockBytes) (sliceB rec_ (16 + i * e.vecBytes) e.vecBytes)).map (intBlock e.width)

/-- The inputs of a combine group: rows `lo` to `lo + n - 1` of the matrix. -/
def MatEnt.groupRows (e : MatEnt) (g : Nat) : Nat × Nat :=
  let lo := 16 * g * e.h
  (lo, min (16 * e.h) (e.k - lo))

/-- Scale bytes of the blocks that feed a group, over all chained vectors. -/
def MatEnt.groupScales (e : MatEnt) (rec_ : List Byte) (c g : Nat) : List Nat :=
  let r := e.groupRows g
  (List.range c).flatMap (fun i =>
    let b := e.blocksOf rec_ i
    ((List.range b.length).filter (fun k => decide (k * 32 < r.1 + r.2) && decide (r.1 < (k + 1) * 32))).map (fun k => (b.getD k (0, [])).1))

/-- An integer rounded half to even after division by 2^k. -/
def rneDiv (n : Int) (k : Nat) : Int :=
  let m := (roundShift .rne n.natAbs (-(k : Int)) : Int)
  if n < 0 then -m else m

/-- The aligned inputs of vector `i` (R83), by matrix row. -/
def MatEnt.aligned (e : MatEnt) (rec_ : List Byte) (i eIn : Nat) : List Int :=
  (e.blocksOf rec_ i).flatMap (fun b => b.2.map (fun n => rneDiv n (eIn - b.1)))

/-! ### Readout (R85, R86) -/

/-- Bits of the conversion. -/
def readBits (ng : Nat) : Nat := ((List.range 9).find? (fun k => decide (15 * ng + 1 ≤ 2 ^ k))).getD 9
/-- LSB exponent for RANGE 0. -/
def lsbBase (ng : Nat) : Int :=
  if ng ≤ 34 then 0 else if ng ≤ 68 then 1 else if ng ≤ 136 then 2 else if ng ≤ 272 then 3 else if ng ≤ 545 then 4 else 5
/-- LSB exponent e. -/
def lsbExp (ng range : Nat) : Int := if ng ≤ 34 then 0 else lsbBase ng - (range : Int)

/-- Conversion of `y` in units of 1/256 level: the code, and whether it is clipped (R86, R87). -/
def convert (bits : Nat) (e : Int) (y : Nat) : Nat × Bool :=
  let q := 2 ^ (e + 8).toNat
  let top := 2 ^ bits - 1
  let fl := y / q
  let r := y % q
  let k := if 2 * r > q ∨ (2 * r = q ∧ fl % 2 = 1) then fl + 1 else fl
  (min top k, decide ((2 * top + 1) * q < 2 * y))

/-- The RANGE of a matrix for work that runs under a view (R95). -/
def MatSt.rangeFor (m : MatSt) (view : Nat) : Nat := match m.prev with
  | some (r, v) => if view < v then r else m.cur
  | none => m.cur

/-! ### Governor (R96) -/

/-- The RANGE for a group request: of the attempt, or of the token's view. -/
def MatSt.reqRange (m : MatSt) (q : PassReq) : Nat := if q.training then m.train else m.rangeFor q.view

/-- Array slots held on a die. -/
def State.activeSlots (s : State) (k : Nat) : Nat :=
  (((s.kao k).running.map (fun r => r.arrays.length)).sum)
    + (s.arr.phys.filter (fun p => decide (p.1 / 1632 = k) && (decide (p.2.use = .calibration) || decide (p.2.use = .readback)))).length

/-- The effective cap. -/
def State.effCap (s : State) (k : Nat) : Nat :=
  min (max 1 (min 768 (s.regF (R.ARR_GOV_CAP k) 9 0))) (s.kao k).loopCap

/-- Keep PEAK_ACTIVE. -/
def State.notePeak (s : State) (k : Nat) : State :=
  s.setRegF (R.ARR_GOV_STATUS k) 9 0 (max (s.regF (R.ARR_GOV_STATUS k) 9 0) (s.activeSlots k))

/-! ### Results -/

/-- The result of a group with one canonical NaN per weight column (R63, R99). -/
def nanResult (cols : Nat) : List Byte := (List.replicate cols [0xC0#8, 0x7F#8]).flatten

/-- A group of a task ends: its result is written at its address, its task has one part less. -/
def State.groupDone (s : State) (q : PassReq) (bytes : List Byte) (bad : Bool) : State :=
  (s.hbmWrite q.dest bytes).endPart q.die q.slot bad

/-- A group request that cannot run (R99). -/
def State.badRequest (s : State) (k : Nat) (q : PassReq) (bytes : List Byte) : State :=
  (s.eventLog (R.ARR_EVENTS k) 5 (0x20 + k) 1 0 (q.mat + q.slot * 2 ^ 16)).groupDone q bytes true

/-- The first forward pass of an attempt fixes its time (R45). -/
def State.noteFirst (s : State) (q : PassReq) : State :=
  if q.training && s.stp.isOpen && decide (s.stp.startTime = 0) then s.modStp (fun x => { x with startTime := s.time }) else s

/-! ### Digital fallback of an array request (R174) -/

/-- A position runs in fallback for work under a view. -/
def PosSt.fbFor (p : PosSt) (view : Nat) : Bool := ((p.fbWas.find? (fun x => decide (view < x.1))).map (·.2)).getD p.fb

/-- The segments of a group: the whole group, or its row blocks for INT8. -/
def MatEnt.segments (e : MatEnt) (g : Nat) : List (List Nat) :=
  let rows := fun (rb : Nat) => (List.range (e.rows rb)).map (fun r => rb * e.h + r)
  if e.width = 8 then (e.grpBlocks g).map rows else [(e.grpBlocks g).flatMap rows]

/-- Wrap to INT24. -/
def wrap24 (z : Int) : Int := sext 24 (toTwos 24 z)

/-- The FP32 result of one weight column of a group from the shadow codes that work under a view reads (R174). -/
def State.fbSum (s : State) (view : Nat) (e : MatEnt) (xs : List (List Int)) (g j eIn : Nat) : Word :=
  let d := fun (seg : List Nat) => xs.foldl (fun a x => seg.foldl (fun a r =>
    wrap24 (a + x.getD r 0 * (codeOf (s.viewByte view (s.codeAddr s.arr.shadow e r j))).1)) a) 0
  let t := (e.segments g).foldl (fun t seg => f32Add t (toF32 (XNum.ofInt (d seg)))) 0
  let t := f32Mul t (toF32 (fp16 (s.viewNum view (s.scaleAddr s.arr.shadow e j))))
  toF32 ((f32 t).scale ((eIn : Int) - 127))

/-- The result in BF16. -/
def State.fbColumn (s : State) (view : Nat) (e : MatEnt) (xs : List (List Int)) (g j eIn : Nat) : Nat :=
  toBf16 (f32 (s.fbSum view e xs g j eIn))

/-- Illegal codes in `n` weight columns from `j` of a group: code mode saturates them and counts each as a narrow-format saturation (R58).
DESIGN CHOICE: the spec does not say how often one code counts; it counts once for every product that reads it. -/
def State.fbIllegal (s : State) (view : Nat) (e : MatEnt) (g j n : Nat) : Nat :=
  ((List.range n).map (fun c => ((e.segments g).flatten.filter (fun r =>
    (codeOf (s.viewByte view (s.codeAddr s.arr.shadow e r (j + c)))).2)).length)).sum

/-- Saturations of the matrix engine of die `d` (R58, R62). -/
def State.noteSat (s : State) (d : Nat) (own : Bool) (n : Nat) : State :=
  ((s.incPair (R.MXE_SAT_CNT d) n).when (decide (0 < n)) (fun s => s.event (R.MXE_EVENTS d) 2)).when own
    (fun s => s.modCnt (fun k => { k with sat := k.sat + n }))

/-- A group in digital fallback: served by the matrix engine. -/
def State.fbGroup (s : State) (k : Nat) (e : MatEnt) (q : PassReq) : State :=
  let sc := e.groupScales q.input q.chain q.grp
  if sc.contains 0xFF then
    ((s.incReg (R.ARR_NAN_CNT k) 1).noteFirst q).groupDone q (nanResult (e.cols q.cb)) false
  else
    let eIn := sc.foldl max 0
    let xs := (List.range q.chain).map (fun i => e.aligned q.input i eIn)
    let out := (List.range (e.cols q.cb)).flatMap (fun c => leBytes 2 (s.fbColumn q.view e xs q.grp (512 * q.cb + c) eIn))
    let s := s.noteSat q.die (s.inAttempt (s.task (q.die * 4096 + q.slot))) (s.fbIllegal q.view e q.grp (512 * q.cb) (e.cols q.cb))
    (s.noteFirst q).groupDone q out false

/-! ### Group requests -/

/-- Some position of a matrix waits for codes from the host: requests that name the matrix are refused (R132). -/
def State.matWaits (s : State) (e : MatEnt) : Bool := (List.range e.count).any (fun i => (s.pos e.die (e.first + i)).waitHost)

/-- GROUP_REQUEST (R97 to R99): the next request of the die link. DESIGN CHOICE: the spec gives the 16-byte header of an input record no
layout; its first 4 bytes are the length of the whole record, little-endian, and another value there is a record of the wrong length.
DESIGN CHOICE: a request refused because the host has still to write codes (R132) answers one NaN per weight column. -/
def groupRequest (k : Nat) (s : State) : State :=
  match (s.kao k).link with
  | [] => s
  | q :: rest =>
    let pop := s.setKao k { s.kao k with link := rest }
    match s.matAt k q.mat with
    | none => pop.badRequest k q []
    | some e =>
      let ps := (e.grpBlocks q.grp).map (fun rb => e.posOf q.cb rb)
      if s.reqChain e q < q.chain ∨ q.input.length ≠ e.recBytes q.chain ∨ leAt q.input 0 4 ≠ e.recBytes q.chain
          ∨ s.matWaits e then
        pop.badRequest k q (nanResult (e.cols q.cb))
      else if ps.any (fun p => (s.pos k p).fbFor q.view) then pop.fbGroup k e q
      else if 4096 ≤ (s.kao k).queue.length then s.event (R.ARR_EVENTS k) 0
      else
        let s := pop.setKao k { pop.kao k with queue := (pop.kao k).queue ++ [{ q with born := pop.time }] }
        s.when (decide (4096 ≤ (s.kao k).queue.length)) (fun s => s.event (R.ARR_EVENTS k) 0)

def execGroupRequest (k : Kaolin) (s : State) : Answer := .next (groupRequest k.val s)

/-! ### Admission (R97, R98, R108) -/

/-- The arrays of a request. -/
def State.reqArrays (s : State) (k : Nat) (q : PassReq) : List Nat :=
  match s.matAt k q.mat with
  | some e => (e.grpBlocks q.grp).filterMap (fun rb => s.physFor k (e.posOf q.cb rb) q.view)
  | none => []

def State.allIdle (s : State) (k : Nat) (l : List Nat) : Bool :=
  l.all (fun a => decide ((s.phys k a).use = .idle) && !(s.phys k a).forced)

/-- Idle arrays that wait for a forced calibration read: each takes the next free slot (R108). -/
def State.forcedIdle (s : State) (k : Nat) : Nat :=
  (s.arr.phys.filter (fun p => decide (p.1 / 1632 = k) && p.2.forced && decide (p.2.use = .idle))).length

/-- Room for `g` more slots. -/
def State.capRoom (s : State) (k g : Nat) : Bool := decide (s.activeSlots k + s.forcedIdle k + g ≤ s.effCap k)

/-- The entry of the window that is admitted next, if any: its index in the window. -/
def State.admitFrom (s : State) (k : Nat) : List Nat → Bool → Nat → List PassReq → Option Nat
  | _, _, _, [] => none
  | busy, oldest, i, q :: rest =>
    let a := s.reqArrays k q
    if s.allIdle k a && a.all (fun x => !busy.contains x) then
      (if s.capRoom k a.length then some i
       else if oldest then none
       else State.admitFrom s k (busy ++ a) false (i + 1) rest)
    else State.admitFrom s k (busy ++ a) false (i + 1) rest

def State.lookahead (s : State) (k : Nat) : Nat := max 1 (min 32 (s.regF (R.ARR_CTRL k) 13 8))

/-- The next entry to admit. -/
def State.admitNext (s : State) (k : Nat) : Option Nat :=
  if s.regB (R.ARR_CTRL k) 0 && decide ((s.kao k).running.length + (s.kao k).results < 256) then
    s.admitFrom k [] true 0 ((s.kao k).queue.take (s.lookahead k))
  else none

/-- Mark the use of arrays. -/
def State.useArrays (s : State) (k : Nat) (l : List Nat) (u : ArrUse) : State :=
  l.foldl (fun s a => s.setPhys k a { s.phys k a with use := u }) s

/-- PASS_ADMIT (R97): the pass latches its LSB, its bits, the trim bank of its attempt or token and the junction temperature. -/
def passAdmit (k : Nat) (temp : Word) (s : State) : State :=
  match s.admitNext k with
  | none => s
  | some i =>
    match (s.kao k).queue[i]? with
    | none => s
    | some q =>
      match s.matAt k q.mat with
      | none => s
      | some e =>
        let ng := e.ng q.grp
        let run : PassRun := { req := q, arrays := s.reqArrays k q, lsb := (lsbExp ng ((s.mat k q.mat).reqRange q) + 8).toNat,
                               bits := readBits ng, bank := (s.kao k).bankFor q.view, temp := temp }
        let s := s.setKao k { s.kao k with queue := (s.kao k).queue.eraseIdx i, running := (s.kao k).running ++ [run] }
        let s := ((s.useArrays k run.arrays .pass).notePeak k).noteFirst q
        s.when (decide (256 ≤ (s.kao k).running.length + (s.kao k).results)) (fun s => s.event (R.ARR_EVENTS k) 1)

def execPassAdmit (k : Kaolin) (temp : Word) (s : State) : Answer := .next (passAdmit k.val temp s)

/-! ### The end of a pass (R84, R86 to R90) -/

/-- The ideal count of a column in a bit plane, in units of 1/256 level. -/
def PhysSt.ideal (a : PhysSt) (x : List Nat) (p m : Nat) : Nat :=
  256 * ((List.range x.length).foldl (fun t r => if (x.getD r 0).testBit p then t + a.level r m else t) 0)

/-- What a column of an array gives over the planes: shift-add result, clips, largest code. -/
structure ColSum where
  acc : Int := 0
  clips : Nat := 0
  peak : Nat := 0
deriving DecidableEq, Repr

/-- The shift-add of one physical column (R88), from the conversions of the planes, top plane first. -/
def colSum (w : Nat) (ks : List (Nat × Bool)) : ColSum :=
  (List.range w).foldl (fun (c : ColSum) i =>
    let k := ks.getD i (0, false)
    { acc := if i = 0 then -(k.1 : Int) else wrap24 (2 * c.acc + k.1), clips := c.clips + k.2.toNat, peak := max c.peak k.1 }) {}

/-- A reading that differs from the ideal count: vector, array, plane, physical column, and the count in units of 1/256 level. -/
def readingKey (v a p m : Nat) : Nat := ((v * 16 + a) * 8 + p) * 1024 + m

/-- The conversions of one physical column. -/
def State.columnOf (s : State) (k : Nat) (run : PassRun) (w v ai m : Nat) (x : List Nat) (y : SMap Nat) : ColSum :=
  let a := s.phys k (run.arrays.getD ai 0)
  colSum w ((List.range w).map (fun i =>
    let p := w - 1 - i
    convert run.bits ((run.lsb : Int) - 8) ((SMap.find y (readingKey v ai p m)).getD (a.ideal x p m))))

/-- The trimmed and scaled result of a weight column (R90). -/
def trimResult (t : TrimEnt) (d : Int) (e : Int) (temp : Word) (scale eIn : Nat) : Nat :=
  let v := f32Sub (toF32 ((XNum.ofInt d).scale e)) (toF32 (fp16 t.off))
  let gf := f32Mul (toF32 (fp16 t.gain)) (f32Add f32One' (f32Mul (toF32 (fp16 t.tc)) (f32Sub temp (toF32 (fp16 t.t0)))))
  let v := f32Mul (f32Mul v gf) (toF32 (fp16 scale))
  toBf16 (f32 (toF32 ((f32 v).scale ((eIn : Int) - 127))))
where
  f32One' : Word := 0x3F800000

/-- Add clipped conversions of a physical column to its column group's counter (R87). -/
def State.addClip (s : State) (k a m n : Nat) : State :=
  if n = 0 then s
  else
    let x := s.phys k a
    let old := SMap.get (fun _ => 0) x.clipg (m / 8)
    let s := s.setPhys k a { x with clipg := SMap.set (fun _ => 0) x.clipg (m / 8) (min 0xFFFF (old + n)) }
    let s := (s.incPair (R.ARR_CLIP_CNT k) n).event (R.ARR_EVENTS k) 3
    s.when (decide (0xFFFF ≤ old + n)) (fun s => s.event (R.ARR_EVENTS k) 4)

/-- DESIGN CHOICE: a matrix that training and generation use at once has one window: the counts of both enter it.
The counts of a group pass enter the tracker's window and the attempt's record; of a task no longer in the attempt, none do. -/
def State.noteConv (s : State) (k : Nat) (q : PassReq) (clips conv peak : Nat) : State :=
  let m := s.mat k q.mat
  if q.training then
    if s.inAttempt (s.task (q.die * 4096 + q.slot)) then
      (s.setMat k q.mat { m with aClips := m.aClips + clips, aConv := m.aConv + conv, aPeak := max m.aPeak peak }).modCnt
        (fun c => { c with clips := c.clips + clips })
    else s
  else s.setMat k q.mat { m with clips := m.clips + clips, conv := m.conv + conv, peak := max m.peak peak, passes := m.passes + q.chain }

/-- PASS_COMPLETE (R87 to R91): running pass `i` of the die ends; `y` lists the column counts, in units of 1/256 level, that differ from
those of ideal cells (an analogue outcome, which comes from outside). DESIGN CHOICE: of a chain in which one vector has a block of scale
0xFF, no vector is converted, the whole request answers NaN and ARR_NAN_CNT rises once; the spec speaks of one pass. -/
def passComplete (k i : Nat) (y : SMap Nat) (s : State) : State :=
  match (s.kao k).running[i]? with
  | none => s
  | some run =>
    let q := run.req
    match s.matAt k q.mat with
    | none => s
    | some e =>
      let s := s.setKao k { s.kao k with running := (s.kao k).running.eraseIdx i }
      let s := (s.useArrays k run.arrays .idle).incPair (R.ARR_PASS_CNT k) (run.arrays.length * q.chain)
      let sc := e.groupScales q.input q.chain q.grp
      let cols := e.cols q.cb
      if sc.contains 0xFF then
        (((s.incReg (R.ARR_NAN_CNT k) 1).event (R.ARR_EVENTS k) 2).noteConv k q 0 0 0).groupDone q (nanResult cols) false
      else
        let eIn := sc.foldl max 0
        let blocks := e.grpBlocks q.grp
        let xs := (List.range q.chain).map (fun v =>
          let x := e.aligned q.input v eIn
          blocks.map (fun rb => (List.range (e.rows rb)).map (fun r => toTwos e.width (x.getD (rb * e.h + r) 0))))
        let sum := fun (v ai m : Nat) => s.columnOf k run e.width v ai m ((xs.getD v []).getD ai []) y
        let idx := (List.range q.chain).flatMap (fun v => (List.range blocks.length).map (fun ai => (v, ai)))
        let dOf := fun (j : Nat) => idx.foldl (fun t p => wrap24 (t + ((sum p.1 p.2 (2 * j)).acc - (sum p.1 p.2 (2 * j + 1)).acc))) 0
        let bank := if run.bank then (s.kao k).bank1 else (s.kao k).bank0
        let a0 := s.phys k (run.arrays.getD 0 0)
        let out := (List.range cols).flatMap (fun j =>
          leBytes 2 (trimResult (SMap.get (fun _ => {}) bank (e.trimKey q.cb q.grp j)) (dOf j) ((run.lsb : Int) - 8) run.temp (a0.scale j) eIn))
        let all := idx.flatMap (fun p => (List.range (2 * cols)).map (fun m => (p.2, m, sum p.1 p.2 m)))
        let s' := all.foldl (fun t c => t.addClip k (run.arrays.getD c.1 0) c.2.1 c.2.2.clips) s
        let s' := s'.noteConv k q ((all.map (fun c => c.2.2.clips)).sum) (all.length * e.width)
          ((all.map (fun c => c.2.2.peak)).foldl max 0)
        s'.groupDone q out false

def execPassComplete (k : Kaolin) (i : Nat) (y : List (Nat × Nat)) (s : State) : Answer := .next (passComplete k.val i y s)

/-! ### The range tracker (R94, R95) -/

/-- A new pending RANGE or chain limit: with training idle it holds from each context's next token on, where no context still uses an
earlier one; otherwise it waits until every token in flight has ended (R95, R390), in HELD and HALTED with none in flight not at all. -/
def State.pendRange (s : State) (k idx r : Nat) (c : Option Nat) : State :=
  let v := s.arr.view + 1
  let s := (s.setMat k idx { s.mat k idx with range := r, pendChain := c, pendView := v, pendHeld := s.halted }).modArr
    (fun a => { a with view := v })
  if (s.mat k idx).rangeDue && (decide (s.stp.phase = .idle) || (s.halted && !s.olderToken v)) then s.takeRange k idx v else s

/-- The evaluation of R94 on a matrix: its new pending RANGE and run. -/
def trackerStep (rclip hold : Nat) (m : MatSt) : Nat × Nat :=
  if m.conv = 0 then (m.range, 0)
  else if m.conv < m.clips * 2 ^ rclip ∧ 0 < m.range then (m.range - 1, 0)
  else if m.peak < 256 ∧ m.range < 4 then (if hold ≤ m.run + 1 then (m.range + 1, 0) else (m.range, m.run + 1))
  else (m.range, 0)

/-- RANGE_TRACKER_EVAL (R94): at the end of a window; in host-assisted mode only the counts start anew. -/
def rangeTrackerEval (k idx : Nat) (s : State) : State :=
  match s.matAt k idx with
  | none => s
  | some e =>
    let m := s.mat k idx
    let c := R.ARR_RANGE_CTRL k
    if 35 ≤ e.ng 0 ∧ (m.due ∨ 4096 * max 1 (s.polF c 15 0) ≤ m.passes) then
      let r := if s.fnHost 2 then (m.range, m.run) else trackerStep (max 1 (s.polF c 31 24)) (max 1 (s.polF c 23 16)) m
      let s := s.setMat k idx { m with run := r.2, clips := 0, conv := 0, peak := 0, passes := 0, due := false }
      if r.1 = m.range then s else s.pendRange k idx r.1 m.pendChain
    else s

def execRangeTrackerEval (k : Kaolin) (idx : Nat) (s : State) : Answer := .next (rangeTrackerEval k.val idx s)

/-- A chain limit that can wrap on the arrays of the matrix (R89). -/
def chainRisk (e : MatEnt) (c : Nat) : Bool := decide (8388607 / (min 16 e.rb * (2 ^ e.width - 1) * 511) < c)

/-- RANGE_DATA_WRITE (R95). -/
def rangeDataWrite (rq : Requester) (k : Nat) (v : Word) (s : State) : State :=
  let idx := s.regF (R.ARR_RANGE_SEL k) 10 0
  match s.matAt k idx with
  | none => s
  | some e =>
    let m := s.mat k idx
    let r := fld v 2 0
    let c := fld v 15 8
    let now := s.chainLimit e
    if s.fnHost 2 then
      let s := s.when (decide (4 < r)) (fun s => s.refuseWrite rq (R.ARR_RANGE_DATA k) v 0)
      let c := max 1 c
      let s := s.when (chainRisk e c) (fun s => s.event (R.ARR_EVENTS k) 7)
      let old := m.pendChain.getD m.chain
      if min 4 r = m.range ∧ c = old then s else s.pendRange k idx (min 4 r) (if c = m.chain then none else some c)
    else if r = m.range ∧ c = now then s
    else s.refuseWrite rq (R.ARR_RANGE_DATA k) v 1

def execRangeDataWrite (rq : Requester) (k : Kaolin) (v : Word) (s : State) : Answer := .next (rangeDataWrite rq k.val v s)

/-! ### Governor and clip-counter registers -/

/-- ARR_GOV_STATUS as it reads: EFFECTIVE_CAP and PEAK_ACTIVE (R96). -/
def State.govStatus (s : State) (k : Nat) : Word := packFields [(16, s.effCap k), (0, s.regF (R.ARR_GOV_STATUS k) 9 0)]

/-- GOV_STATUS_READ: PEAK_ACTIVE clears. -/
def govStatusRead (rq : Requester) (k : Nat) (s : State) : State :=
  (s.emit (.reply rq (R.ARR_GOV_STATUS k) (s.govStatus k))).setRegF (R.ARR_GOV_STATUS k) 9 0 0

def execGovStatusRead (rq : Requester) (k : Kaolin) (s : State) : Answer := .next (govStatusRead rq k.val s)

/-- CLIPG_CLR: a write of ARR_CTRL with CLIPG_CLR clears every column-group counter of the die; its other fields are written (R87). -/
def clipgClr (k : Nat) (v : Word) (s : State) : State :=
  let s := s.setReg (R.ARR_CTRL k) (v &&& 0x3F01#32)
  if bitOf v 1 then
    s.modArr (fun a => { a with phys := a.phys.filterMap (fun p =>
      if p.1 / 1632 = k then (let x := { p.2 with clipg := [] }; if x = {} then none else some (p.1, x)) else some p) })
  else s

def execClipgClr (k : Kaolin) (v : Word) (s : State) : Answer := .next (clipgClr k.val v s)

/-- ARR_CLIPG_DATA of the selected array and group. -/
def State.clipgData (s : State) (k : Nat) : Nat :=
  let a := s.regF (R.ARR_CLIPG_SEL k) 10 0
  if a < 1632 then SMap.get (fun _ => 0) (s.phys k a).clipg (s.regF (R.ARR_CLIPG_SEL k) 22 16) else 0

/-- CLIPG_DATA_READ (R87): the count is returned and cleared. -/
def clipgDataRead (rq : Requester) (k : Nat) (s : State) : State :=
  let a := s.regF (R.ARR_CLIPG_SEL k) 10 0
  let s' := s.emit (.reply rq (R.ARR_CLIPG_DATA k) (BitVec.ofNat 32 (s.clipgData k)))
  if a < 1632 then
    let x := s.phys k a
    s'.setPhys k a { x with clipg := SMap.set (fun _ => 0) x.clipg (s.regF (R.ARR_CLIPG_SEL k) 22 16) 0 }
  else s'

def execClipgDataRead (rq : Requester) (k : Kaolin) (s : State) : Answer := .next (clipgDataRead rq k.val s)

end Sys2Proof.Machine
end

