-- ==== Sys2Proof/Machine/SnpOps.lean ====
section
/-! DEFINITION. Snapshot triggers: leads (R371), the trigger queue (R373) and flooding (R292). -/

namespace Sys2Proof.Machine

/-- LOCAL_LEAD in nanoseconds; 0 is treated as 1 (R371). -/
def State.localLead (s : State) : Nat := 10 * max 1 (s.regF R.SNP_CTRL 23 16)
/-- TRIG_LEAD in nanoseconds (R292). -/
def State.trigLead (s : State) : Nat := 1000 * s.regF R.EZL_TIME_CFG 31 16
/-- The lead of a trigger (R371). -/
def State.leadOf (s : State) (flood : Bool) : Nat := if flood then s.trigLead else s.localLead

/-- Two times within 1 microsecond of one another. -/
def nearTime (a b : Nat) : Bool := decide (a - b ≤ 1000) && decide (b - a ≤ 1000)

/-- Put a trigger into the queue in order of T. -/
def insertTrig (x : Trig) : List Trig → List Trig
  | [] => [x]
  | y :: r => if x.t < y.t then x :: y :: r else y :: insertTrig x r

/-- Merge a trigger into a queue that holds one within 1 microsecond of it: the entry keeps the earlier T and the class and number of
the first trigger (R373). -/
def mergeTrig (x : Trig) : List Trig → List Trig
  | [] => []
  | y :: r => if nearTime x.t y.t then { y with t := min x.t y.t, merged := true, late := y.late || x.late } :: r
              else y :: mergeTrig x r

/-- A trigger reaches the SNP block (R373): dropped while EN is 0; late after its T; merged, queued, or dropped with QUEUE_FULL. -/
def State.queueTrig (s : State) (x : Trig) : State :=
  if !s.regB R.SNP_CTRL 0 then s
  else
    let x := { x with late := decide (x.t < s.time) }
    let s := if x.late then s.event R.SNP_EVENTS 2 else s
    if s.snp.queue.any (fun y => nearTime x.t y.t) then s.modSnp (fun p => { p with queue := mergeTrig x p.queue })
    else if s.snp.queue.length < 8 then s.modSnp (fun p => { p with queue := insertTrig x p.queue })
    else s.eventLog R.SNP_EVENTS 4 5 1 0 0

/-- Raise a trigger of this module (R371): it takes the module's next number and is flooded where asked, whatever EN; this module's own SNP
block drops it while EN is 0 (R373). -/
def State.raiseTrig (s : State) (cls t : Nat) (flood : Bool) : State :=
  let num := s.snp.num
  let s := s.modSnp (fun p => { p with num := (num + 1) % 256 })
  let s := s.modEzl (fun e => { e with seen := SMap.set (fun _ => none) e.seen s.me (some num) })
  let s := if flood then s.flood none ⟨5, 0, s.me, 0xFF, TrigFrame.bytes ⟨t, s.me, num, cls⟩⟩ else s
  s.queueTrig { t := t, cls := cls, origin := s.me, num := num }

end Sys2Proof.Machine
end

