-- ==== Sys2Proof/Machine/ErrLog.lean ====
section
/-! DEFINITION. The error log's writer (R381, R382, R385) and the check units (R379, R380). -/

namespace Sys2Proof.Machine

/-- The 32 bytes of a log entry with its sequence number and check value (R381). -/
def LogEnt.bytes (e : LogEnt) (seq : Nat) : List Byte :=
  let b := leBytes 4 seq ++ leBytes 8 e.time ++ [byteOf e.blk, byteOf e.cls, byteOf e.bit, byteOf e.cause] ++ leBytes 12 e.detail
  b ++ leBytes 4 (crc32c b)

/-- Write one entry into the ring (R381): an unread entry it overwrites is lost. -/
def State.writeLog (s : State) (e : LogEnt) : State :=
  let seq := (s.reg R.ERR_WR_SEQ).toNat
  let ahead := (seq + 2 ^ 32 - (s.reg R.ERR_RD_SEQ).toNat) % 2 ^ 32
  let s := if decide (1024 ≤ ahead) && decide (ahead < 2 ^ 31) then (s.incReg R.ERR_LOST_CNT 1).event R.ERR_EVENTS 0 else s
  let s := s.modErr (fun q => { q with ring := SMap.set (fun _ => 0) q.ring (seq % 1024) (ofLe (e.bytes seq)) })
  s.setRegN R.ERR_WR_SEQ ((seq + 1) % 2 ^ 32)

/-- An entry of class `c` has reached the log (R385): an error-class trigger in hardware mode of function 11, CLASS_ENTRY in
host-assisted mode. -/
def State.classEntry (s : State) (c : Nat) : State :=
  if s.fnHost 11 then (if s.regB R.ERR_CTRL c then s.event R.ERR_EVENTS 2 else s)
  else if s.regB R.SNP_CTRL (8 + c) then
    let fl := s.regB R.SNP_CTRL 1
    s.raiseTrig (0x10 + c) (s.time + s.leadOf fl) fl
  else s

/-- ERROR_LOG_WRITE (R382): the oldest queued entry enters the ring. -/
def errorLogWrite (s : State) : State :=
  match s.err.queue with
  | [] => s
  | e :: rest => ((s.modErr (fun q => { q with queue := rest })).writeLog e).classEntry e.cls

def execErrorLogWrite (s : State) : Answer := .next (errorLogWrite s)

/-! ### Check units -/

/-- LEN of a command: 0 and 5 to 7 are treated as 4. -/
def chkLen (n : Nat) : Nat := if decide (1 ≤ n) && decide (n ≤ 4) then n else 4

/-- A write from a requester that does not own the unit: discarded and counted (R380). -/
def State.chkForeign (s : State) : State := (s.incReg R.CHK_FOREIGN_CNT 1).event R.CHK_EVENTS 0

/-- Apply `f` to a unit the requester owns, or count a foreign write (R380). -/
def State.chkOwned (s : State) (rq : Requester) (u : Nat) (f : ChkUnit → ChkUnit) : State :=
  if (s.chkU u).owner = some rq then s.setChk u (f (s.chkU u)) else s.chkForeign

/-- CHK_CLAIM (R380): a free unit goes to the requester; a unit that is owned by another keeps its owner. -/
def chkClaim (rq : Requester) (u len : Nat) (s : State) : State :=
  let c := s.chkU u
  if c.owner = none ∨ c.owner = some rq then s.setChk u { c with owner := some rq, len := chkLen len } else s

def execChkClaim (rq : Requester) (u : Fin 16) (len : Nat) (s : State) : Answer := .next (chkClaim rq u.val len s)

/-- CHK_RELEASE (R380): the owner frees the unit. -/
def chkRelease (rq : Requester) (u len : Nat) (s : State) : State := s.chkOwned rq u (fun c => { c with owner := none, len := chkLen len })

def execChkRelease (rq : Requester) (u : Fin 16) (len : Nat) (s : State) : Answer := .next (chkRelease rq u.val len s)

/-- CHK_INIT (R379): the running value becomes 0xFFFF_FFFF. -/
def chkInit (rq : Requester) (u len : Nat) (s : State) : State :=
  s.chkOwned rq u (fun c => { c with value := 0xFFFFFFFF, len := chkLen len })

def execChkInit (rq : Requester) (u : Fin 16) (len : Nat) (s : State) : Answer := .next (chkInit rq u.val len s)

/-- CHK_DATA_WRITE (R379): LEN bytes of the word, bits [7:0] first, enter the CRC; LEN returns to 4. -/
def chkDataWrite (rq : Requester) (u : Nat) (v : Word) (s : State) : State :=
  s.chkOwned rq u (fun c => { c with value := crcFeed c.value (leBytes c.len v.toNat), len := 4 })

def execChkDataWrite (rq : Requester) (u : Fin 16) (v : Word) (s : State) : Answer := .next (chkDataWrite rq u.val v s)

/-- CHK_VALUE_WRITE (R379): the running value is set. -/
def chkValueWrite (rq : Requester) (u : Nat) (v : Word) (s : State) : State := s.chkOwned rq u (fun c => { c with value := v.toNat })

def execChkValueWrite (rq : Requester) (u : Fin 16) (v : Word) (s : State) : Answer := .next (chkValueWrite rq u.val v s)

end Sys2Proof.Machine
end

