-- ==== Sys2Proof/Machine/IrqOps.lean ====
section
/-! DEFINITION. Operations of the interrupt controllers: source inputs (R316), pending bits (R317), eligibility (R319), offers
(R320) and service. -/

namespace Sys2Proof.Machine

/-- Any EVENTS bit enabled in the register beside it. -/
def State.anyEvent (s : State) (ev en : Nat) : Bool := ((s.reg ev) &&& (s.reg en)) ≠ 0

/-- The input level of a source of a die (R316): the level of event bits; a reserved or edge source has no level. -/
def State.srcLevel (s : State) (d src : Nat) : Bool :=
  if decide (32 ≤ src) && decide (src < 288) then
    let k := (src - 32) / 32 + 8 * d
    let i := (src - 32) % 32
    if i < 8 then s.regB (R.ARR_EVENTS k) i
    else if decide (16 ≤ i) && decide (i < 29) then s.regB (R.ARR_DRIFT_EVENTS k) (i - 16)
    else false
  else if src = 16 then s.anyEvent (R.VEC_FLAGS_ACC d) (R.VEC_FLAG_IRQ_EN d)
  else if src = 17 then s.anyEvent (R.MXE_EVENTS d) (R.MXE_IRQ_EN d)
  else if d ≠ 0 then false
  else if src < 10 then s.regB R.STEP_EVENTS src
  else match src with
    | 18 => s.anyEvent R.UPD_EVENTS R.UPD_IRQ_EN
    | 19 => s.anyEvent R.RED_EVENTS R.RED_IRQ_EN
    | 20 => s.anyEvent R.TSK_EVENTS R.TSK_IRQ_EN
    | 21 => s.anyEvent R.MEM_EVENTS R.MEM_IRQ_EN
    | 22 => s.anyEvent R.EZL_EVENTS R.EZL_IRQ_EN
    | 23 => s.anyEvent R.HIF_EVENTS R.HIF_IRQ_EN
    | 24 => s.anyEvent R.PWR_EVENTS R.PWR_IRQ_EN
    | 25 => s.anyEvent R.SNP_EVENTS R.SNP_IRQ_EN
    | 26 => s.anyEvent R.CHK_EVENTS R.CHK_IRQ_EN
    | 27 => s.anyEvent R.ERR_EVENTS R.ERR_IRQ_EN
    | 28 => s.anyEvent R.IMG_EVENTS R.IMG_IRQ_EN
    | _ => false

/-- Sources whose sense is fixed at rising edge (R316, R317). -/
def senseFixed (src : Nat) : Bool := (decide (432 ≤ src) && decide (src < 436)) || decide (448 ≤ src)

/-- Reset value of IRQ_SRC_CFG of a source: SENSE per the source map; HOST and VECTOR of the MSI-X sources. -/
def irqCfgReset (src : Nat) : Word :=
  let rising := (decide (288 ≤ src) && decide (src < 304)) || senseFixed src
  packFields [(30, if rising then 1 else 0), (28, if 448 ≤ src then 1 else 0), (22, if 448 ≤ src then src - 448 else 0)]

/-- IRQ_SRC_CFG of a source. -/
def IrqSt.cfgOf (q : IrqSt) (src : Nat) : Word := SMap.get irqCfgReset q.cfg src
/-- What the controller keeps for a local core. -/
def IrqSt.coreOf (q : IrqSt) (c : Nat) : IrqCore := SMap.get (fun _ => {}) q.core c
def IrqSt.setCore (q : IrqSt) (c : Nat) (k : IrqCore) : IrqSt := { q with core := SMap.set (fun _ => {}) q.core c k }
/-- Moderation of a group. -/
def IrqSt.holdOf (q : IrqSt) (g : Nat) : HoldSt := SMap.get (fun _ => {}) q.hold g
def IrqSt.setHold (q : IrqSt) (g : Nat) (h : HoldSt) : IrqSt := { q with hold := SMap.set (fun _ => {}) q.hold g h }
def IrqSt.sense (q : IrqSt) (src : Nat) : Nat := fld (q.cfgOf src) 31 30
def IrqSt.setPend (q : IrqSt) (src : Nat) (b : Bool) : IrqSt :=
  { q with pend := if b then q.pend ||| (1#512 <<< src) else q.pend &&& ~~~(1#512 <<< src) }

/-- A source in service on a core of the die or for the host. -/
def IrqSt.inService (q : IrqSt) (src : Nat) : Bool :=
  q.host.getLsbD src || (List.range 4).any (fun c => (q.coreOf c).cur == src || (q.coreOf c).curf == src)

/-- A hardware edge on a source sets its pending bit (R317, R324, R311). -/
def State.irqFire (s : State) (d src : Nat) : State := s.setIrq d ((s.irqD d).setPend src true)

/-- The pending bit as the controller sees it: a level source whose input has fallen since it was set is not pending (R317). -/
def State.irqPending (s : State) (d src : Nat) : Bool :=
  let q := s.irqD d
  q.pend.getLsbD src && !(decide (q.sense src = 0) && q.raw.getLsbD src && !s.srcLevel d src)

/-- Eligible sources (R319). -/
def State.irqEligible (s : State) (d src : Nat) : Bool :=
  let q := s.irqD d
  s.irqPending d src && s.regB (R.IRQ_EN d (src / 32)) (src % 32) && !q.inService src
    && s.regB (R.IRQ_CTRL d) 0 && !(q.holdOf (src / 16)).run

/-- Whether a source names a local core (R319, R324, R328): an enabled core in TARGET, or the fixed core of a KERSEY source. -/
def State.irqNames (s : State) (d src c : Nat) : Bool :=
  let cfg := (s.irqD d).cfgOf src
  s.regB (R.IRQ_CTRL d) (4 + c) && !bitOf cfg 28
    && (if decide (432 ≤ src) && decide (src < 436) then decide (src = 432 + c) else bitOf cfg c)

/-- The source offered to a local core: the lowest eligible fast one when it holds no fast source, else the lowest eligible normal
one when it holds nothing (R320). -/
def State.irqOffer (s : State) (d c : Nat) : Option Nat :=
  let q := s.irqD d
  let k := q.coreOf c
  let fast := fun (src : Nat) => bitOf (q.cfgOf src) 29
  let pick := fun (f : Bool) => (List.range 512).find? (fun src =>
    q.pend.getLsbD src && fast src == f && s.irqNames d src c && s.irqEligible d src)
  match (if k.curf = 0x3FF then pick true else none) with
  | some x => some x
  | none => if decide (k.cur = 0x3FF) && decide (k.curf = 0x3FF) then pick false else none

/-- The hold-off a group loads: HOLDOFF in host-assisted mode of function 14, else h (R326, R327). -/
def State.holdValue (s : State) (d g : Nat) : Nat :=
  if s.fnHost 14 then s.regF (R.IRQ_HOLD d g) 15 0 else ((s.irqD d).holdOf g).h

/-- A delivery of a source of a group: it is counted, and the hold-off timer loads (R326). -/
def State.irqDelivered (s : State) (d src : Nat) : State :=
  let g := src / 16
  let q := s.irqD d
  let h := q.holdOf g
  let v := s.holdValue d g
  s.setIrq d (q.setHold g { h with run := decide (0 < v), n := h.n + 1, h := v, since := s.time, us := v })

/-- End of service: a level source whose input is still high becomes pending again (R323). -/
def State.irqRelevel (s : State) (d src : Nat) : State :=
  let q := s.irqD d
  if decide (q.sense src = 0) && s.srcLevel d src then
    s.setIrq d { (q.setPend src true) with raw := q.raw ||| (1#512 <<< src) }
  else s

/-- A claim answered 0x3FF (R321). -/
def State.irqSpurious (s : State) (d : Nat) : State :=
  (s.incReg (R.IRQ_SPUR_CNT d) 1).eventLog (R.IRQ_EVENTS d) 0 (2 + d) 0 0 0

/-- A local core takes a source into service (R321). -/
def State.irqTake (s : State) (d c src : Nat) : State :=
  let q := s.irqD d
  let k := q.coreOf c
  let k' := if bitOf (q.cfgOf src) 29 then { k with curf := src } else { k with cur := src }
  (s.setIrq d ((q.setPend src false).setCore c k')).irqDelivered d src

/-- The vector address of a claim (R322). -/
def State.irqVector (s : State) (d c : Nat) (src : Option Nat) : Nat :=
  match src with
  | none => (s.reg (R.IRQ_SPUR_VEC d)).toNat / 16 * 16
  | some x =>
    let q := s.irqD d
    if decide (432 ≤ x) && decide (x < 436) then (q.coreOf c).entry
    else if bitOf (q.cfgOf x) 29 then (s.reg (R.IRQ_VBASE_F d)).toNat / 16 * 16 + 16 * x
    else (s.reg (R.IRQ_VBASE_N d)).toNat / 16 * 16 + 16 * x

/-- The cores of a die whose fast handlers have ended service return: each is in its normal bank again (R322). -/
def IrqSt.returned (q : IrqSt) : IrqSt :=
  (List.range 4).foldl (fun q c => if (q.coreOf c).back then q.setCore c { q.coreOf c with fastBank := false, back := false } else q) q

/-- The returns of both dies' cores. -/
def State.coreReturns (s : State) : State := [0, 1].foldl (fun s d => s.setIrq d (s.irqD d).returned) s

/-- IRQ_SRC_CFG a source went into service for the host with (R328). -/
def IrqSt.liveOf (q : IrqSt) (src : Nat) : Word := SMap.get (fun _ => 0) q.live src

/-- A source goes into service for the host; its message is still to be issued (R325). -/
def IrqSt.serve (q : IrqSt) (src : Nat) : IrqSt :=
  { (q.setPend src false) with
    host := q.host ||| (1#512 <<< src), held := q.held ||| (1#512 <<< src), live := SMap.set (fun _ => 0) q.live src (q.cfgOf src) }

/-- A source's message is issued: an edge source leaves service (R325). -/
def IrqSt.issue (q : IrqSt) (src : Nat) : IrqSt :=
  { q with
    held := q.held &&& ~~~(1#512 <<< src)
    host := if fld (q.liveOf src) 31 30 = 0 then q.host else q.host &&& ~~~(1#512 <<< src) }

/-- The sources of a die whose message of a vector is still to be issued. -/
def IrqSt.awaiting (q : IrqSt) (vec : Nat) : List Nat :=
  (List.range 512).filter (fun src => q.held.getLsbD src && decide (fld (q.liveOf src) 27 22 = vec))

/-- The message of a vector has been issued: every source that waited for it, on a die with EN 1, is delivered (R325, R326, R328). -/
def State.irqMsgIssued (s : State) (vec : Nat) : State :=
  [0, 1].foldl (fun s d =>
    (if s.regB (R.IRQ_CTRL d) 0 then (s.irqD d).awaiting vec else []).foldl (fun s src => (s.setIrq d ((s.irqD d).issue src)).irqDelivered d src) s) s

/-- Every group's h is loaded with HOLDOFF and its count starts anew: a mode change of function 14 (R327). -/
def State.loadHolds (s : State) : State :=
  (List.range 64).foldl (fun s i =>
    let q := s.irqD (i / 32)
    s.setIrq (i / 32) (q.setHold (i % 32) { (q.holdOf (i % 32)) with h := s.regF (R.IRQ_HOLD (i / 32) (i % 32)) 15 0, n := 0 })) s

end Sys2Proof.Machine
end

