-- ==== Sys2Proof/Machine/HostOps.lean ====
section
/-! DEFINITION. Writes to host memory and MSI-X messages, directly at the PCIe port or, on a member of a relayed pod, as RELAY
HOST_WRITE frames to the head (R293, R311, R313). -/

namespace Sys2Proof.Machine

/-- What the PCIe port is to the host (R294): class code and revision, largest payload and read request, outstanding read requests. -/
def pcieClassCode : Nat := 0x120000
def pcieRevision : Nat := 0xB0
def pcieMaxPayload : Nat := 512
def pcieMaxRead : Nat := 4096
def pcieMaxReads : Nat := 4096

/-- A pod of 16, 32 or 64 modules uses the head's port alone (R293). -/
def State.relayed (s : State) : Bool := decide (4 ≤ s.ezl.pod.size)
/-- This module writes to the host through the head. -/
def State.viaHead (s : State) : Bool := s.relayed && decide (s.me ≠ s.ezl.pod.head)

/-- Bytes of a die's spill buffer in host memory; a member of a relayed pod has none (R262, R313). -/
def State.spillSize (s : State) (d : Nat) : Nat := if s.viaHead then 0 else (s.reg (R.MEM_SPILL_SIZE d)).toNat * 2 ^ 20

/-- Write bytes to host memory; through the head in frames of at most 4,096 bytes. -/
def State.hostWrite (s : State) (addr : Nat) (bytes : List Byte) : State :=
  if s.viaHead then
    let parts := chunks 4096 bytes
    (List.range parts.length).foldl (fun s i =>
      let b := parts.getD i []
      s.sendRouted ⟨7, 0, s.me, s.ezl.pod.head, RelayHdr.bytes ⟨4, 0, 0, b.length, addr + 4096 * i⟩ ++ b⟩) s
  else s.emit (.hostWrite addr bytes)

/-- An entry word of the MSI-X table: word 0 to 3 of vector `v`. -/
def State.msixWord (s : State) (v w : Nat) : Word := s.reg (R.MSIX_TABLE (4 * v + w))
def State.msixMasked (s : State) (v : Nat) : Bool := bitOf (s.msixWord v 3) 0

/-- IRQ_CTRL.EN stops the message of a vector: sources wait for it, on dies with EN 0 alone (R328). -/
def State.msgStopped (s : State) (v : Nat) : Bool :=
  let l := [0, 1].filter (fun d => !((s.irqD d).awaiting v).isEmpty)
  !l.isEmpty && l.all (fun d => !s.regB (R.IRQ_CTRL d) 0)

/-- Issue the message of a vector, or set its pending bit where it is masked (R311). -/
def State.msixSend (s : State) (v : Nat) : State :=
  if s.msixMasked v then s.setRegB (R.MSIX_PBA (v / 32)) (v % 32) true
  else
    let a := (s.msixWord v 0).toNat + (s.msixWord v 1).toNat * 2 ^ 32
    let d := (s.msixWord v 2).toNat
    let s := if s.viaHead then s.hostWrite a (leBytes 4 d) else s.emit (.msix v a d)
    s.irqMsgIssued v

/-- A vector is raised (R311, R316): its source on Damask 0 sees a rising edge. -/
def State.raiseVector (s : State) (v : Nat) : State := s.irqFire 0 (448 + v)

end Sys2Proof.Machine
end

