-- ==== Sys2Proof/Machine/Boundary.lean ====
section
/-! DEFINITION. Step and token boundaries: the pending changes take effect in the order of R14, the constants of the step are
formed (R187, R190 to R192), the stash plan is fixed (R260, R262), the attempt starts (R241, R420). -/

namespace Sys2Proof.Machine

/-! ### The format policy (R13, R192) -/

/-- The registers of them that generation uses. -/
def genPolicyRegs : List Nat :=
  [R.DUTY_XT_BASE, R.DUTY_XT_BASE + 4]
    ++ (List.range 16).flatMap (fun d =>
      [R.ARR_RANGE_CTRL d, R.ARR_DRIFT_CFG d, R.ARR_REFRESH_CFG d, R.ARR_MS_MASK d 0, R.ARR_MS_MASK d 1, R.ARR_MS_MASK d 2,
       R.ARR_MS_MASK d 3])

/-- Registers, by address, whose writes are format-policy changes and need no range check. -/
def policyRegs : List Nat :=
  [R.STEP_FMT_CTRL, R.STEP_FMT_THRESH, R.STEP_SR_SEED, R.STEP_SR_SEED + 4, R.UPD_CTRL, R.UPD_NF_LIMIT, R.UPD_SCHED_CFG, R.RED_CTRL,
   R.RED_DEADLINE, R.MEM_STASH_SIZE 0, R.MEM_STASH_SIZE 1, R.TSK_STEP_GRAPH, R.DUTY_GF_BASE, R.DUTY_GF_BASE + 4] ++ genPolicyRegs

def f32Half : Word := 0x3F000000
def f32One : Word := 0x3F800000

/-- An FP32 value is finite and at least 0. -/
def f32NonNeg (w : Word) : Bool := (f32 w).isFinite && XNum.le XNum.zero (f32 w)
def f32Pos (w : Word) : Bool := (f32 w).isFinite && XNum.lt XNum.zero (f32 w)

/-- The parameter registers with the range each must lie in (R192). -/
def paramRegs : List (Nat × (Word → Bool)) :=
  [(R.UPD_BETA1, fun w => f32NonNeg w && XNum.lt (f32 w) (f32 f32One)), (R.UPD_BETA2, fun w => f32NonNeg w && XNum.lt (f32 w) (f32 f32One)),
   (R.UPD_KAPPA, f32Pos), (R.UPD_DECAY, f32NonNeg), (R.UPD_GRAD_MULT, f32Pos),
   (R.UPD_PROJ_HYST, fun w => f32NonNeg w && XNum.le (f32 w) (f32 f32Half))]

/-- The policy value of a register becomes the value last written. -/
def State.takePol (s : State) (a : Nat) : State := { s with policy := SMap.set regReset s.policy a (s.reg a) }

/-- A parameter outside its range does not take effect (R192). -/
def State.badParam (s : State) (a : Nat) : State := s.eventLog R.UPD_EVENTS 1 0x10 1 0 (a + (s.reg a).toNat * 2 ^ 32)

/-- The format policy takes effect. -/
def State.takePolicy (s : State) : State :=
  let wasThree := decide (s.polF R.UPD_CTRL 7 6 = 3)
  let s := policyRegs.foldl State.takePol s
  let s := paramRegs.foldl (fun s p => if p.2 (s.reg p.1) then s.takePol p.1 else s.badParam p.1) s
  s.when (decide (s.polF R.UPD_CTRL 7 6 = 3) && !wasThree) (fun s => s.log 0x10 1 0xFF 1 3)

/-- CLAMP_DIS is in effect: it is set in force and function 4 is in host-assisted mode (R212, R213). -/
def State.clampDis (s : State) : Bool := s.polB R.RED_CTRL 1 && s.fnHost 4

/-! ### DUTY_SPLIT (R249, R250) -/

/-- Masks of DUTY_SPLIT bits by where their functions take effect: new-step boundary, per context, duty boundary. -/
def dutyStepMask : Nat := 0b11011100
def dutyCtxMask : Nat := 0b1000000000010
def dutyBoundMask : Nat := 0b10111100100000

/-- The bits of `mask` change to their pending value. -/
def State.dutySet (s : State) (mask : Nat) : State :=
  let p := (s.reg R.DUTY_SPLIT).toNat
  let u := (s.reg R.DUTY_SPLIT_USED).toNat
  s.setRegN R.DUTY_SPLIT_USED ((u &&& (0x3FFF ^^^ mask)) ||| (p &&& mask &&& 0x3FFF))

/-- Every context's token in flight runs under the pending mode of functions 2 and 13, and so does training. -/
def State.dutyCtxDone (s : State) (fn : Nat) : Bool :=
  let want := s.regB R.DUTY_SPLIT (fn - 1)
  (s.polB R.DUTY_SPLIT_USED (fn - 1) == want)
    && s.mem.ctx.all (fun c => !c.2.inTok || (if fn = 2 then c.2.f2 else c.2.f13) == want)

/-- Functions 2 and 13 show as changed once they have changed for every context. -/
def State.dutyCtx (s : State) : State :=
  [2, 13].foldl (fun s fn => if s.dutyCtxDone fn then s.dutySet (2 ^ (fn - 1)) else s) s

/-- Training takes its modes of functions 2 and 13. -/
def State.dutyTrain (s : State) : State :=
  { s with policy := SMap.set regReset s.policy R.DUTY_SPLIT_USED (s.reg R.DUTY_SPLIT) }

/-- The duty boundary falls where every token in flight began after the last write of DUTY_SPLIT; function 1 needs empty windows. -/
def State.dutyBound (s : State) : State :=
  if s.olderToken s.tsk.dutyView then s
  else
    let was := s.fnHost 14
    let s := s.dutySet dutyBoundMask
    let s := if s.fnHost 14 = was then s else s.loadHolds
    if s.windowsEmpty then s.dutySet 1 else s

/-- A duty boundary may fall outside a step boundary: with training idle, and in HELD or HALTED for a DUTY_SPLIT written there (R249, R390). -/
def State.dutyNow (s : State) : Bool := decide (s.stp.phase = .idle) || (s.halted && s.tsk.dutyHeld)

/-- A change of function 1 is pending: no further launch is submitted (R250). -/
def State.orderPending (s : State) : Bool := s.regB R.DUTY_SPLIT 0 != s.regB R.DUTY_SPLIT_USED 0

/-- A change of function 1 for which launches wait takes effect, in every phase, once both windows have drained (R250). -/
def State.orderBound (s : State) : State :=
  if s.orderPending && s.windowsEmpty && !s.tsk.launchQ.isEmpty then s.dutySet 1 else s

/-- What has become pending while the group is HELD or HALTED: a RANGE change every context has passed (R390); training goes on with the
RANGE of its attempt (R95). -/
def State.heldPoint (s : State) : State :=
  let v := s.arr.view + 1
  ((s.rangeChanges v true).modArr (fun a => { a with view := v })).releaseOld

/-! ### Step size and constants (R187, R190, R191) -/

/-- The step size of the schedule table for step `t` (R191). -/
def State.schedAlpha (s : State) (t : Nat) : Word :=
  let e := fun (i : Nat) => SMap.get (fun _ => 0) s.upd.sched i
  let st := max 1 (s.polF R.UPD_SCHED_CFG 31 16)
  let i := (t - 1) / st
  if 4095 ≤ i then e 4095
  else if s.polB R.UPD_SCHED_CFG 0 then
    let f := f32Div (toF32 (XNum.ofNat ((t - 1) % st))) (toF32 (XNum.ofNat st))
    f32Fma f (f32Sub (e (i + 1)) (e i)) (e i)
  else e i

/-- The step size takes effect. -/
def State.takeStepSize (s : State) (t : Nat) : State :=
  let host := s.fnHost 8
  let s := s.when (host && !s.upd.fresh) (fun s => s.event R.UPD_EVENTS 0)
  let a := if host then (if s.upd.fresh then s.reg R.UPD_STEP_SIZE else s.reg R.UPD_STEP_SIZE_USED) else s.schedAlpha t
  let s := if f32NonNeg a then s.setReg R.UPD_STEP_SIZE_USED a
    else s.eventLog R.UPD_EVENTS 1 0x10 1 0 (R.UPD_STEP_SIZE + a.toNat * 2 ^ 32)
  s.modUpd (fun u => { u with fresh := false })

/-- pow64 of R187: every FP64 multiplication rounds to nearest even; 64 bits of `t` at most. -/
def pow64 : Nat → Nat → Nat → Nat → Nat
  | 0, _, _, p => p
  | fuel + 1, b, t, p =>
    if t = 0 then p
    else
      let mul := fun (x y : Nat) => FF.fp64.encode (XNum.mul (FF.fp64.decode x) (FF.fp64.decode y))
      pow64 fuel (mul b b) (t / 2) (if t % 2 = 1 then mul p b else p)

/-- FP64 one, and an FP32 value widened to FP64. -/
def f64One : XNum := XNum.ofNat 1
def widen64 (w : Word) : Nat := FF.fp64.encode (f32 w)

/-- 1 - p in FP64. -/
def oneMinus64 (p : Nat) : XNum := FF.fp64.decode (FF.fp64.encode (XNum.sub f64One (FF.fp64.decode p)))

/-- The constants of a state-table entry for step `t` (R187). -/
def State.constsOf (s : State) (t : Nat) (e : StateEnt) : StepConst :=
  let alpha := f32Mul (s.reg R.UPD_STEP_SIZE_USED) e.rho
  if s.polB R.UPD_CTRL 1 && decide (e.alg ≠ 2) then
    let p := fun (a : Nat) => oneMinus64 (pow64 64 (widen64 (s.pol a)) t (FF.fp64.encode f64One))
    let r := fun (x : XNum) => toF32 (FF.fp64.decode (FF.fp64.encode (XNum.div f64One x)))
    { alpha := alpha, a1 := r (p R.UPD_BETA1)
      a2 := r (FF.fp64.decode (FF.fp64.encode (XNum.sqrt (p R.UPD_BETA2)))) }
  else { alpha := alpha }

def State.formConsts (s : State) (t : Nat) : State := s.modUpd (fun u => { u with consts := u.table.map (s.constsOf t) })

/-! ### The stash plan (R260, R262) -/

/-- The plan of R260 for rows in forward order: `size` bytes of stash, `used` assigned, `spill` bytes left in the spill buffer (none
outside host-assisted mode of function 7), `short` once a layer has failed. -/
def stashPlan (tok size : Nat) (host : Bool) : Nat → Nat → Bool → List StashRow → List (Nat × StashKind)
  | _, _, _, [] => []
  | used, spill, short, r :: rest =>
    let f := r.full * tok
    let c := r.ckpt * tok
    let later := (rest.map (fun x => x.ckpt * tok)).sum
    if !short && decide (used + f + later ≤ size) then (r.layer, .full) :: stashPlan tok size host (used + f) spill false rest
    else if host && decide (f ≤ spill) then (r.layer, .spill) :: stashPlan tok size host (used + c) (spill - f) true rest
    else (r.layer, .ckpt) :: stashPlan tok size host (used + c) spill true rest

/-- A change of the stash table in HBM takes effect; the rows keep their layers and dies, and their sizes are open. -/
def State.takeStash (s : State) : State :=
  let b := s.hbm s.mem.stashAt s.mem.stashImg.length
  if b = s.mem.stashImg then s
  else s.modMem (fun m => { m with
    stashImg := b, stashTokens := Config.stashTokens b
    stashTab := m.stashTab.zipIdx.map (fun p => { p.1 with full := (Config.stashRow b p.2).1, ckpt := (Config.stashRow b p.2).2 }) })

/-- The rows of a die in forward order, and whether their checkpoints alone exceed the stash. -/
def State.stashRows (s : State) (d : Nat) : List StashRow :=
  (s.mem.stashTab.filter (fun r => r.die == d)).insertionSort (fun a b => a.layer ≤ b.layer)
def State.stashShort (s : State) (d : Nat) : Bool :=
  decide (s.stashSize d < ((s.stashRows d).map (fun r => r.ckpt * s.mem.stashTokens)).sum)

/-- Both dies fix their plan. -/
def State.formStash (s : State) : State :=
  let s := (List.range 2).foldl (fun s d =>
    let p := stashPlan s.mem.stashTokens (s.stashSize d) (s.fnHost 7) 0 (s.spillSize d) false (s.stashRows d)
    let s := s.modMem (fun m => { m with plan := SMap.set (fun _ => []) m.plan d p })
    let s := s.when (p.any (fun x => decide (x.2 = .ckpt))) (fun s => s.event R.MEM_EVENTS 8)
    s.when (p.any (fun x => decide (x.2 = .spill))) (fun s => s.event R.MEM_EVENTS 7)) s
  s.modMem (fun m => { m with planFault := s.stashShort 0 || s.stashShort 1 })

/-! ### Boundaries -/

/-- The full new-step boundary for step `t` (R14, R420). -/
def State.newStep (s : State) (t : Nat) : State :=
  let v := s.arr.view + 1
  let before := s
  let s := s.imageChanges v
  let s := s.trimChanges before v
  let s := ((s.takePolicy.msRefresh).rangeChanges v false).trainRanges
  let s := ((s.dutySet dutyStepMask).dutyTrain.dutyCtx).dutyBound
  let s := s.when (s.clampDis && !before.clampDis) (fun s => s.event R.RED_EVENTS 9)
  let host := s.regB R.DUTY_SPLIT 1
  let s := if host then s.logHostExp else s
  let wasNormal := decide (s.fmt.phase = 0)
  let s := (s.phaseStep t).gradFormats wasNormal
  let s := s.modFmt (fun f => { f with began := true })
  let s := s.modFmt (fun f => { f with view := s.formView host false true })
  let s := (s.takeStepSize t).formConsts t
  let s := s.takeStash.formStash
  ((s.imageSeq before).modArr (fun a => { a with view := v })).releaseOld

/-- What takes effect for generation at a token boundary while no training runs (R13, R70, R112, R124). -/
def State.genPoint (s : State) : State :=
  let v := s.arr.view + 1
  let before := s
  let s := s.imageChanges v
  let s := s.trimChanges before v
  let s := ((genPolicyRegs.foldl State.takePol s).msRefresh).rangeChanges v false
  let s := s.dutyTrain
  ((s.imageSeq before).modArr (fun a => { a with view := v })).releaseOld

/-- A channel whose link was removed moves to the next UP link of its die in the same direction, in ascending ID order (R283). -/
def State.nextLink (s : State) (l : Nat) : Nat :=
  if (s.lnk l).st = .removed then
    let c := (portLinks (l % 6)).filter (fun x => decide (x / 9 = l / 9) && decide ((s.lnk x).st = .up))
    match c.find? (fun x => decide (l < x)) with
    | some x => x
    | none => c.headD l
  else l

def State.moveChannels (s : State) : State :=
  (List.range 8).foldl (fun s c =>
    let x := s.chan c
    s.setChan c { x with succLink := s.nextLink x.succLink, predLink := s.nextLink x.predLink }) s

/-- The link of a channel of the ring that is removed, if any. -/
def State.lostLink (s : State) : Option Nat :=
  if s.groupN ≤ 1 then none
  else (List.range 8).findSome? (fun c =>
    if s.regB R.RED_CTRL (8 + c) then
      [(s.chan c).succLink, (s.chan c).predLink].find? (fun l => decide ((s.lnk l).st = .removed))
    else none)

/-- An attempt starts: its counts are cleared and the step graph is launched (R241); a stash plan fault (R260) or a channel without a
link (R283) aborts it at once. -/
def State.startAttempt (s : State) (att : Nat) : State :=
  let s := s.modStp (fun x => { x with
    phase := .forward, attempt := att, nextAtt := none, isOpen := true, due := none, halt := none, startTime := 0,
    duty := s.reg R.DUTY_SPLIT_USED, cnt := { exact := !s.clampDis } })
  let s := (s.modMxe (fun m => { m with gradOut := [], ready := [] })).modFmt (fun f => { f with wireScale := [] })
  if s.mem.planFault then
    ((s.eventLog R.MEM_EVENTS 9 0x13 1 0 0).setRegB R.STEP_CTRL 8 true).findAbort 7 0xFF 0xFFFFFFFF 0xFF
  else match s.lostLink with
    | some l => s.findAbort 6 l 0xFFFFFFFF 0xFF
    | none => s.modTsk (fun t => { t with launchQ := t.launchQ ++ [{ graph := s.polF R.TSK_STEP_GRAPH 7 0, src := .stepControl,
                                                                     tag := some (s.stepNum, att) }] })

/-- The launch queue has a free entry (R241). -/
def State.launchFree (s : State) : Bool := decide (s.tsk.launchQ.length < 16)

/-- TRAINING_START (R420). -/
def trainingStart (s : State) : State :=
  if decide (s.stp.phase = .idle) && s.regB R.TSK_STEP_GRAPH 31 && s.regB R.TSK_CTRL 0 && s.red.formed && s.launchFree then
    (s.newStep s.stepNum).startAttempt 0
  else s

def execTrainingStart (s : State) : Answer := .next (trainingStart s)

/-- The repeats are exhausted: the member enters HALTED (R36). -/
def State.exhaust (s : State) : State :=
  (s.eventLog R.STEP_EVENTS 3 9 4 0 s.stp.attempt).modStp (fun x => { x with phase := .halted })

/-- NEW_STEP_BOUNDARY (R14, R420): with STEP_EN 0 the member enters IDLE instead; where an abort found in the boundary exhausts the repeats,
HALTED (R36). -/
def newStepBoundary (s : State) : State :=
  if s.stp.phase = .boundary ∧ s.stp.due = some .new then
    if s.stp.halt = some .exhausted then s.exhaust
    else if !s.regB R.TSK_STEP_GRAPH 31 then s.modStp (fun x => { x with phase := .idle, due := none })
    else if s.launchFree then (s.newStep s.stepNum).startAttempt s.attNum
    else s
  else s

def execNewStepBoundary (s : State) : Answer := .next (newStepBoundary s)

/-- Some task of the aborted attempt has not ended. -/
def State.abortedTasks (s : State) : Bool := s.tsk.win.any (fun p => match p.2 with
  | some t => t.isStep && t.discard
  | none => false)

/-- REPEAT_BOUNDARY (R36, R245): none of the pending changes takes effect (R13), and the attempt runs under the stash plan of its step. -/
def repeatBoundary (s : State) : State :=
  if s.stp.phase = .boundary ∧ s.stp.due = some .again ∧ !s.abortedTasks then
    if s.stp.halt = some .exhausted then s.exhaust
    else if s.launchFree then s.moveChannels.startAttempt s.attNum
    else s
  else s

def execRepeatBoundary (s : State) : Answer := .next (repeatBoundary s)

end Sys2Proof.Machine
end

