-- ==== Sys2Proof/Machine/RegOps.lean ====
section
/-! DEFINITION. Writes and reads of register fields by access type (R5, R6, R7, R9). -/

namespace Sys2Proof.Machine

/-- Key of a requester's use of a pair: the address of the _LO half. -/
def pairKey (rq : Requester) (a : Nat) : Nat := rq.code * 2 ^ 32 + a

/-- A write of _LO waits for the requester's write of _HI (R6). -/
def State.loWrite (s : State) (rq : Requester) (a : Nat) (v : Word) : State :=
  { s with pairLo := SMap.set (fun _ => none) s.pairLo (pairKey rq a) (some v) }

/-- The lower half that a write of _HI uses: the requester's unused _LO write, else 0 (R6). -/
def State.loHeld (s : State) (rq : Requester) (a : Nat) : Word := (SMap.get (fun _ => none) s.pairLo (pairKey rq a)).getD 0

/-- The _LO write is used up. -/
def State.loUsed (s : State) (rq : Requester) (a : Nat) : State :=
  { s with pairLo := SMap.set (fun _ => none) s.pairLo (pairKey rq a) none }

/-- A write of _HI: both halves take effect at once. -/
def State.hiWrite (s : State) (rq : Requester) (a : Nat) (lo hi : Nat) (v : Word) : State :=
  (((s.setReg a (s.loHeld rq a &&& BitVec.ofNat 32 lo)).setReg (a + 4) (v &&& BitVec.ofNat 32 hi))).loUsed rq a

/-- A read of _LO keeps the upper half for the requester's next read of _HI (R7). -/
def State.capture (s : State) (rq : Requester) (a : Nat) (hi : Word) : State :=
  { s with pairCap := SMap.set (fun _ => none) s.pairCap (pairKey rq a) (some hi) }

/-- The upper half kept for the requester, if any. -/
def State.captured (s : State) (rq : Requester) (a : Nat) : Option Word := SMap.get (fun _ => none) s.pairCap (pairKey rq a)

def State.capUsed (s : State) (rq : Requester) (a : Nat) : State :=
  { s with pairCap := SMap.set (fun _ => none) s.pairCap (pairKey rq a) none }

end Sys2Proof.Machine
end

