-- ==== Sys2Proof/Machine/TwillConv.lean ====
section
/-! DEFINITION. Meanings of the Twill conversion, quantisation, packing and tensor-exponent instructions (R145 to R149). -/

namespace Sys2Proof.Machine

/-! ### FCVT (R145) -/

/-- A half of a lane replaced. -/
def withHalf (l : Word) (hi : Bool) (v : Nat) : Word := if hi then setFld l 31 16 v else setFld l 15 0 v

/-- FP32 to INT32: NaN gives 0 and a value out of range the nearest end, each with INVALID. -/
def cvtInt (c : Nat) (x : XNum) : Nat × Nat :=
  match x with
  | .nan => (0, flNV)
  | .inf n => (if n then 2 ^ 31 else 2 ^ 31 - 1, flNV)
  | .fin n m e =>
    let z := XNum.roundInt (ctlRnd c n) (.fin n m e)
    if z < -(2 ^ 31) then (2 ^ 31, flNV)
    else if 2 ^ 31 - 1 < z then (2 ^ 31 - 1, flNV)
    else (toTwos 32 z, if XNum.eq (XNum.ofInt z) (.fin n m e) then 0 else flNX)

/-- The element type each selector's source has. -/
def fcvtType (sel : Nat) : Nat :=
  match sel with
  | 0 | 1 | 4 => 0
  | 2 | 3 => 1
  | 5 => 2
  | _ => 3

/-- The element of lane `i` whose mask bit governs the conversion: for 16-bit sources the half that the selector names. -/
def fcvtElem (sel i : Nat) : Nat :=
  match sel with
  | 2 | 6 => 2 * i
  | 3 | 7 => 2 * i + 1
  | _ => i

/-- The result of lane `i`: the whole lane, or the half that forms 0 and 1 write, with flags. -/
def fcvtLane (sel : Nat) (w : TwillWord) (l : Word) : Nat × Nat :=
  let c := w.ctl.val
  match sel with
  | 0 | 1 => roundF FF.bf16 c true (readF FF.fp32 c l.toNat)
  | 2 => (FF.fp32.encode (readF FF.bf16 c (l.toNat % 65536)), 0)
  | 3 => (FF.fp32.encode (readF FF.bf16 c (l.toNat / 65536)), 0)
  | 4 => cvtInt c (readF FF.fp32 c l.toNat)
  | 5 => roundF FF.fp32 c true (XNum.ofInt (sext 32 l.toNat))
  | 6 => (toTwos 32 (sext 16 (l.toNat % 65536)), 0)
  | _ => (toTwos 32 (sext 16 (l.toNat / 65536)), 0)

/-- FCVT (R145): the selector is imm[3:0]; the element type field must name the source type. -/
def fcvt (d u : Nat) (w : TwillWord) (s : State) : State :=
  let sel := w.imm.toNat % 16
  if sel < 8 then
    twRun d u 0x40 [fcvtType sel] w s (fun w x =>
      let half := decide (sel < 2)
      let hi := decide (sel = 1)
      let res := fun (i : Nat) => fcvtLane sel w (x.lane w.s1.val i)
      let lane := fun (i : Nat) =>
        let old := x.lane w.d.val i
        if x.active w (fcvtElem sel i) then (if half then withHalf old hi (res i).1 else BitVec.ofNat 32 (res i).1)
        else if w.zero then (if half then withHalf old hi 0 else 0) else old
      (x.setLanes w.d.val lane,
       (List.range 64).foldl (fun a i => if x.active w (fcvtElem sel i) then a ||| (res i).2 else a) 0))
  else twIllegal d u 0x40 s

def execFcvt (d : Die) (u : Fin 32) (w : TwillWord) (s : State) : Answer := .next (twIssue d.val u.val 0x40 w s (fun _ s => fcvt d.val u.val w s))

/-! ### QCVT (R146, R147) -/

/-- The marker of a non-finite input. -/
def qMarker : Nat := 0x80000000

/-- The code widths QCVT and VPACKB take. -/
def qWidth (b : Nat) : Bool := b == 2 || b == 3 || b == 4 || b == 8

/-- The step number whose seeds are drawn: STEP_COUNT + 1 (R65). -/
def State.stepNo (s : State) : Nat := s.pair R.STEP_COUNT + 1

/-- The seed in force. -/
def State.srSeed (s : State) : Nat := s.polPair R.STEP_SR_SEED

/-- The code of one lane, with its flags and whether it clamped, underflowed or was non-finite. -/
def qElem (b : Nat) (r : Rnd) (x : XNum) (ex : Int) : Nat × Nat × Nat × Nat × Nat :=
  match x with
  | .fin n m e =>
    let z := XNum.roundInt r ((XNum.fin n m e).scale (-ex))
    let lim : Int := 2 ^ (b - 1) - 1
    let q := clampInt (-lim) lim z
    let sat := decide (q ≠ z)
    let ufl := decide (m ≠ 0) && decide (z = 0)
    let inex := !(XNum.eq (XNum.ofInt z) ((XNum.fin n m e).scale (-ex)))
    (toTwos 32 q, (if sat then flSat else 0) ||| (if ufl then flUF else 0) ||| (if inex then flNX else 0), sat.toNat, ufl.toNat, 0)
  | _ => (qMarker, flNV, 0, 0, 1)

/-- The sum over the active lanes. -/
def UnitSt.sumActive (x : UnitSt) (w : TwillWord) (f : Nat → Nat) : Nat :=
  (List.range 64).foldl (fun a e => if x.active w e then a + f e else a) 0

/-- QCVT (R146): stochastic rounding under code 0b111 needs SR_OK, otherwise it rounds to nearest and sets ILLEGAL (R147). -/
def qcvt (d u : Nat) (w : TwillWord) (s : State) : State :=
  let b := w.imm.toNat % 16
  if qWidth b && decide (w.ty = 0) then
    let k := d * 32 + u
    let sr := decide (w.ctl = 7) && (s.unit k).srOk
    let s := if decide (w.ctl = 7) && !sr then twIllMark d u 0x41 s else s
    let x := s.unit k
    let seed := s.srSeed
    let step := s.stepNo
    let res := fun (e : Nat) =>
      let v := readF FF.fp32 w.ctl.val (x.elem w w.s1.val e)
      let r := if sr then .sr (srUniform seed step x.srTensor ((x.srHi * 2 ^ 32 + x.srBase + e) % 2 ^ 40))
        else ctlRnd (if w.ctl = 7 then 0 else w.ctl.val) v.isNeg
      qElem b r v (sext 32 (x.elem w w.s2.val e))
    let sat := x.sumActive w (fun e => (res e).2.2.1)
    let ufl := x.sumActive w (fun e => (res e).2.2.2.1)
    let nf := x.sumActive w (fun e => (res e).2.2.2.2)
    let own := s.inAttempt (s.unitTask d u)
    let s := ((s.incPair (R.VEC_SAT_CNT d) sat).incPair (R.VEC_UFL_CNT d) ufl).incReg (R.VEC_NF_CNT d) nf
    let s := s.when own (fun s => s.modCnt (fun c => { c with sat := c.sat + sat + ufl + nf, nonfinite := c.nonfinite + nf }))
    twDone d u (ctlNoFlag w.ctl.val) (x.orFlags w (fun e => (res e).2.1)) (x.setElems w (fun e => (res e).1)) s
  else twIllegal d u 0x41 s

def execQcvt (d : Die) (u : Fin 32) (w : TwillWord) (s : State) : Answer := .next (twIssue d.val u.val 0x41 w s (fun _ s => qcvt d.val u.val w s))

/-! ### VPACKB (R148) -/

/-- The scale byte of a block and whether it was clamped. -/
def packScale (z : Int) : Nat × Bool :=
  let t := z + 127
  ((clampInt 0 254 t).toNat, decide (clampInt 0 254 t ≠ t))

/-- One packed block from lanes 32k to 32k + 31. -/
def packBlock (b : Nat) (x : UnitSt) (w : TwillWord) (k : Nat) : List Byte :=
  let lanes := (List.range 32).map (fun i => 32 * k + i)
  let bad := lanes.any (fun e => x.active w e && decide (x.elem w w.s1.val e = qMarker))
  if bad then 0xFF#8 :: List.replicate (4 * b) 0
  else
    let codes := lanes.map (fun e => if x.active w e then x.elem w w.s1.val e % 2 ^ b else 0)
    byteOf (packScale (sext 32 (x.elem w w.s2.val (32 * k)))).1 :: leBytes (4 * b) (packElems b codes)

/-- The register whose byte string is given, the rest zero. -/
def bytesLane (bs : List Byte) (i : Nat) : Word := BitVec.ofNat 32 (leAt bs (4 * i) 4)

/-- VPACKB (R148). DESIGN CHOICE: a clamp of the scale counts and sets SATURATE also where a marker lane makes the block's scale 0xFF, and where
lane 32k is inactive. -/
def vpackb (d u : Nat) (w : TwillWord) (s : State) : State :=
  let b := w.imm.toNat % 16
  if qWidth b then
    let x := s.unit (d * 32 + u)
    let blocks := (List.range 2).filter (fun k => decide (32 * k < x.vl))
    let clamps := (blocks.filter (fun k => (packScale (sext 32 (x.elem w w.s2.val (32 * k)))).2)).length
    let s := if w.ty = 2 then (s.incPair (R.VEC_SAT_CNT d) clamps).when (s.inAttempt (s.unitTask d u))
        (fun s => s.modCnt (fun c => { c with sat := c.sat + clamps })) else s
    twRun d u 0x42 [2] w s (fun w x =>
      (x.setLanes w.d.val (bytesLane (blocks.flatMap (packBlock b x w))), if 0 < clamps then flSat else 0))
  else twIllegal d u 0x42 s

def execVpackb (d : Die) (u : Fin 32) (w : TwillWord) (s : State) : Answer := .next (twIssue d.val u.val 0x42 w s (fun _ s => vpackb d.val u.val w s))

/-! ### VGETX and VAMAX (R149) -/

/-- VGETX: the exponent in force for the task's attempt or token; an absent tensor sets ILLEGAL and returns 0. -/
def vgetx (d u : Nat) (w : TwillWord) (s : State) : State :=
  let t := w.imm.toNat % 2 ^ 24
  let v := s.fmtOf (s.unitTask d u)
  if w.ty = 2 then
    let known := (v.find t).isSome
    let s := if known then s else twIllMark d u 0x43 s
    twRun d u 0x43 [2] w s (fun w x => (x.setElems w (fun _ => if known then toTwos 32 (v.exp t) else 0), 0))
  else twIllegal d u 0x43 s

def execVgetx (d : Die) (u : Fin 32) (w : TwillWord) (s : State) : Answer := .next (twIssue d.val u.val 0x43 w s (fun _ s => vgetx d.val u.val w s))

/-- The largest finite magnitude among the active lanes, FP32 code. -/
def amaxOf (x : UnitSt) (w : TwillWord) : Nat :=
  (List.range 64).foldl (fun a e =>
    let m := x.elem w w.s1.val e % 2 ^ 31
    if x.active w e && decide (m < FF.fp32.infCode) && (!(ctlFlush w.ctl.val) || decide (2 ^ 23 ≤ m)) then max a m else a) 0

/-- VAMAX: folded into the attempt's amax; discarded in generation (R149). -/
def vamax (d u : Nat) (w : TwillWord) (s : State) : State :=
  let t := w.imm.toNat % 2 ^ 24
  if w.ty = 0 then
    let tk := s.unitTask d u
    let known := ((s.fmtOf tk).find t).isSome
    let s := if known then s.when (s.inAttempt tk) (fun s => s.foldAmax t (amaxOf (s.unit (d * 32 + u)) w))
      else twIllMark d u 0x44 s
    twRun d u 0x44 [0] w s (fun _ x => (x, 0))
  else twIllegal d u 0x44 s

def execVamax (d : Die) (u : Fin 32) (w : TwillWord) (s : State) : Answer := .next (twIssue d.val u.val 0x44 w s (fun _ s => vamax d.val u.val w s))

end Sys2Proof.Machine
end

