-- ==== Sys2Proof/Machine/MatOps.lean ====
section
/-! DEFINITION. The products of the matrix engine: descriptors (R168, R169), operands (R162, R163), summation (R164 to R166), the output
stage (R170), code mode and measured shadow (R172, R173), digital fallback (R174), the gradient converter (R177, R211, R212, R228). -/

namespace Sys2Proof.Machine

/-! ### Shapes and descriptors -/

/-- M, N, K and chunk length L of a tile shape (R164). -/
def shapeDims : Nat → Nat × Nat × Nat × Nat
  | 0 => (128, 128, 128, 32) | 1 => (128, 128, 64, 32) | 2 => (64, 256, 128, 32) | 3 => (512, 32, 128, 32) | 4 => (32, 512, 128, 32)
  | 5 => (128, 128, 64, 16) | 6 => (128, 128, 64, 16) | _ => (128, 64, 128, 16)
def shapeM (h : Nat) : Nat := (shapeDims h).1
def shapeN (h : Nat) : Nat := (shapeDims h).2.1
def shapeL (h : Nat) : Nat := (shapeDims h).2.2.2
/-- A transposed, B transposed. -/
def shapeTa (h : Nat) : Bool := h == 5 || h == 7
def shapeTb (h : Nat) : Bool := h == 6 || h == 7

/-- The 64 bytes of a product descriptor (R168). -/
def descOf (b : List Byte) : Desc :=
  let g := fun (o k : Nat) => leAt b o k
  let mode := g 0 1 % 8
  let mat := g 0x2A 2
  let coded := decide (1 ≤ mode) && decide (mode ≤ 3)
  { mode := mode, shape := g 1 1 % 8, fa := g 2 1 % 16, ta := (g 2 1).testBit 4, fb := g 3 1 % 16, tb := (g 3 1).testBit 4
    m := g 4 4, n := g 8 4, k := g 0xC 4, a := g 0x10 8, b := g 0x18 8, out := g 0x20 8, fo := g 0x28 1 % 16
    tout := (g 0x28 1).testBit 4, dual := (g 0x28 1).testBit 5, accIn := (g 0x29 1).testBit 0, stats := (g 0x29 1).testBit 1
    mat := mat, mult := BitVec.ofNat 32 (g 0x2C 4), tensor := g 0x30 4 / 256, out2 := g 0x34 8, grad := g 0x3C 4 / 256
    chan := g 0x3C 4 % 8
    reserved := decide (g 0 1 / 8 ≠ 0) || decide (g 1 1 / 8 ≠ 0) || decide (g 2 1 / 32 ≠ 0) || decide (g 3 1 / 32 ≠ 0)
      || decide (g 0x28 1 / 64 ≠ 0) || decide (g 0x29 1 / 4 ≠ 0) || decide (g 0x30 4 % 256 ≠ 0) || decide (g 0x3C 4 / 8 % 32 ≠ 0)
      || (if coded then decide (mat / 2 ^ 14 ≠ 0) else decide (mat ≠ 0xFFFF)) }

def Desc.fmtA (x : Desc) : Fmt := (Fmt.ofCode x.fa).getD .bf16
def Desc.fmtB (x : Desc) : Fmt := (Fmt.ofCode x.fb).getD .bf16
def Desc.fmtO (x : Desc) : Fmt := (Fmt.ofCode x.fo).getD .fp32
/-- The mode names a matrix of the array map. -/
def Desc.coded (x : Desc) : Bool := decide (1 ≤ x.mode) && decide (x.mode ≤ 3)
/-- The matrix a descriptor of die `d` names. -/
def State.descMat (s : State) (d : Nat) (x : Desc) : Option MatEnt := s.matAt (8 * d + x.mat / 2048 % 8) (x.mat % 2048)

/-- Bytes of one contiguous line, and of a whole operand or output. -/
def lineBytes (f : Fmt) (n : Nat) : Nat := f.bytesFor n
def Desc.aBytes (x : Desc) : Nat := if x.ta then x.k * lineBytes x.fmtA x.m else x.m * lineBytes x.fmtA x.k
def Desc.bBytes (x : Desc) : Nat := if x.tb then x.k * lineBytes x.fmtB x.n else x.n * lineBytes x.fmtB x.k
def Desc.oBytes (x : Desc) (t : Bool) : Nat := if t then x.n * lineBytes x.fmtO x.m else x.m * lineBytes x.fmtO x.n

/-- An operand format (R161): not FP32 and no wire integer. -/
def operandOk (c : Nat) : Bool := decide (1 ≤ c) && decide (c ≤ 13)
/-- The formats of each mode are allowed (R161, R168, R170). DEDUCED: where the table of modes fixes B as codes of the image set, the format
code of B is that of array codes, 0xD, for measured codes too, which have no code of their own; FALLBACK results are BF16 (R174), so its
output format is BF16. -/
def Desc.formatsOk (x : Desc) : Bool :=
  match x.mode with
  | 0 => operandOk x.fa && operandOk x.fb && decide (x.fo ≤ 12)
  | 4 => operandOk x.fa && operandOk x.fb
  | 3 => decide (9 ≤ x.fa) && decide (x.fa ≤ 12) && decide (x.fb = 13) && decide (x.fo = 1)
  | _ => decide (2 ≤ x.fa) && decide (x.fa ≤ 8) && decide (x.fb = 13) && decide (x.fo ≤ 12)

/-- The shapes of each mode. -/
def shapeOk (mode h : Nat) : Bool := match mode with
  | 1 | 2 => h == 6
  | 3 => h == 0 || h == 1
  | _ => true

def rangeOk (n : Nat) : Bool := decide (1 ≤ n) && decide (n ≤ 16777216)

/-- The dimensions are in range. -/
def Desc.dimsOk (x : Desc) : Bool := rangeOk x.m && rangeOk x.n && rangeOk x.k

/-- Bytes a fallback product writes: 2 per weight column and combine group (R174). -/
def State.fbBytes (s : State) (d : Nat) (x : Desc) : Nat := match s.descMat d x with
  | some e => 2 * x.m * e.n * e.groups
  | none => 0

/-- The addresses lie in HBM. -/
def State.addrsOk (s : State) (d : Nat) (x : Desc) : Bool :=
  inHbm x.a x.aBytes && (x.coded || inHbm x.b x.bBytes)
    && (decide (x.mode = 4) || (if x.mode = 3 then inHbm x.out (s.fbBytes d x) else inHbm x.out (x.oBytes x.tout)))
    && (!x.dual || decide (x.mode = 4) || (if x.mode = 3 then inHbm x.out2 (s.fbBytes d x) else inHbm x.out2 (x.oBytes (!x.tout))))

/-- Why the module refuses a descriptor, as MXE_FAULT.CAUSE has it; the lowest cause where several hold (R169). -/
def State.descFault (s : State) (d : Nat) (x : Desc) : Option Nat :=
  if 4 < x.mode then some 1
  else if !shapeOk x.mode x.shape then some 2
  else if !x.formatsOk then some 3
  else if x.ta != shapeTa x.shape || x.tb != shapeTb x.shape then some 4
  else if x.coded && (s.descMat d x).isNone then some 5
  else if !s.addrsOk d x then some 6
  else if !x.dimsOk then some 7
  else if x.reserved then some 8
  else if x.mode = 4 ∧ x.chan / 4 ≠ d then some 9
  else none

/-! ### Gradient formats that the module chooses (R76, R77) -/

/-- The format in which an operand is read: an activation gradient of the attempt in the format in which it was written. -/
def State.readCode (s : State) (a code : Nat) : Nat :=
  if 2 ≤ code ∧ code ≤ 8 then
    ((s.mxe.gradOut.find? (fun r => decide (r.1 ≤ a) && decide (a < r.1 + r.2.1))).map (·.2.2)).getD code
  else code

/-- The format chosen for an output that is an activation gradient, if the step has one. -/
def State.outCode (s : State) (x : Desc) : Option Nat :=
  if 2 ≤ x.fo ∧ x.fo ≤ 8 ∧ x.mode < 3 then
    match s.fmt.view.find x.tensor with
    | some e => if e.actGrad && decide (e.layer < 128) then gradCode (SMap.get (fun _ => 0) s.fmt.cur e.layer) else none
    | none => none
  else none

/-- A descriptor of the attempt with the gradient formats of the step in place of those it names. DESIGN CHOICE: the spec does not say how
the chosen format meets the format fields of a descriptor; an output in a narrow format takes it, and operands take it where they read it. -/
def State.stepDesc (s : State) (x : Desc) : Desc :=
  { x with fa := if x.mode = 3 then x.fa else s.readCode x.a x.fa, fb := if x.coded then x.fb else s.readCode x.b x.fb,
           fo := (s.outCode x).getD x.fo }

/-- Where the descriptor writes: address and bytes. -/
def State.descOuts (s : State) (d : Nat) (x : Desc) : List (Nat × Nat) :=
  if x.mode = 4 then []
  else if x.mode = 3 then (x.out, s.fbBytes d x) :: (if x.dual then [(x.out2, s.fbBytes d x)] else [])
  else (x.out, x.oBytes x.tout) :: (if x.dual then [(x.out2, x.oBytes (!x.tout))] else [])

/-- Two byte ranges overlap. -/
def meets (p q : Nat × Nat) : Bool := decide (p.1 < q.1 + q.2) && decide (q.1 < p.1 + p.2)

/-- The attempt's activation gradients in a chosen format, after a descriptor (as it stands in the graph: `x0`) has taken its formats. -/
def State.noteGrad (s : State) (d : Nat) (x0 x : Desc) : State :=
  let outs := s.descOuts d x
  s.modMxe (fun m => { m with gradOut := m.gradOut.filter (fun r => !(outs.any (meets (r.1, r.2.1))))
    ++ (if (s.outCode x0).isSome then outs.map (fun o => (o.1, o.2, x.fo)) else []) })

/-! ### Tiles -/

def Desc.gridM (x : Desc) : Nat := (x.m + shapeM x.shape - 1) / shapeM x.shape
def Desc.gridN (x : Desc) : Nat := (x.n + shapeN x.shape - 1) / shapeN x.shape
def Desc.tiles (x : Desc) : Nat := x.gridM * x.gridN
/-- First row and column of a tile, and its rows and columns. -/
def Desc.tileRow (x : Desc) (t : Nat) : Nat := t / x.gridN * shapeM x.shape
def Desc.tileCol (x : Desc) (t : Nat) : Nat := t % x.gridN * shapeN x.shape
def Desc.tileRows (x : Desc) (t : Nat) : Nat := min (shapeM x.shape) (x.m - x.tileRow t)
def Desc.tileCols (x : Desc) (t : Nat) : Nat := min (shapeN x.shape) (x.n - x.tileCol t)
/-- Slots of a core (R167). -/
def Desc.slots (x : Desc) : Nat := if x.shape = 7 then 16 else if x.mode = 3 then 10 else 8
/-- Full-grid K-steps of a tile. -/
def Desc.ksteps (x : Desc) : Nat :=
  let n := (x.k + shapeL x.shape - 1) / shapeL x.shape * shapeL x.shape
  if x.shape = 7 then n / 2 else n

/-! ### Operands and summation -/

/-- The exact value of element `i` of line `row` of an operand (R162). DESIGN CHOICE: an illegal array code (R58) of an operand of format 0xD in
a mode of no codes reads as +15 or -15, as in code mode, and is not counted. -/
def MemSt.elemAt (m : MemSt) (f : Fmt) (base stride row i : Nat) : XNum :=
  let line := base + row * stride
  if f.scaled then (decodeBlockNum f (m.bytes (line + i / 32 * f.blockBytes) f.blockBytes)).getD (i % 32) .zero
  else match f with
    | .bf16 => bf16 (m.num (line + 2 * i) 2)
    | .code => XNum.ofInt (codeOf (m.byte (line + i))).1
    | _ => FF.fp32.decode (m.num (line + 4 * i) 4)

def Desc.elemA (x : Desc) (m : MemSt) (i k : Nat) : XNum :=
  if x.ta then m.elemAt x.fmtA x.a (lineBytes x.fmtA x.m) k i else m.elemAt x.fmtA x.a (lineBytes x.fmtA x.k) i k
def Desc.elemB (x : Desc) (m : MemSt) (k j : Nat) : XNum :=
  if x.tb then m.elemAt x.fmtB x.b (lineBytes x.fmtB x.n) k j else m.elemAt x.fmtB x.b (lineBytes x.fmtB x.k) j k

/-- Four times the code, or the measured code, of weight (r, c) of a matrix for a backward product (R172, R173) under a view; a free value
outside the matrix. -/
def State.backCode (s : State) (view : Nat) (e : MatEnt) (ms : Bool) (r c : Nat) : Int :=
  let p := e.posOf (c / 512) (r / e.h)
  if e.k ≤ r ∨ e.n ≤ c then Config.outCode (2048 * e.die + e.idx) r c
  else if ms && (s.pos e.die p).msUse then sext 8 (s.mem.byte (s.codeAddr s.arr.measured e r c)).toNat
  else 4 * (codeOf (s.viewByte view (s.codeAddr s.arr.shadow e r c))).1

/-- The column scale of weight column c for a product under a view; a free value outside the matrix. -/
def State.backScale (s : State) (view : Nat) (e : MatEnt) (c : Nat) : XNum :=
  fp16 (if e.n ≤ c then Config.outScale (2048 * e.die + e.idx) c else s.viewNum view (s.scaleAddr s.arr.shadow e c))

/-- One product of output element (i, j) at contraction index k: exact. -/
def State.term (s : State) (view d : Nat) (x : Desc) (i j k : Nat) : XNum :=
  if x.coded then
    match s.descMat d x with
    | some e => XNum.mul (XNum.mul (x.elemA s.mem i k) (s.backScale view e k))
        ((XNum.ofInt (s.backCode view e (decide (x.mode = 2)) j k)).scale (-2))
    | none => .nan
  else XNum.mul (x.elemA s.mem i k) (x.elemB s.mem k j)

/-- One chunk added into the accumulator: an exact zero sum leaves it; the count is of overflows (R165, R166). -/
def addChunk (a : Word × Nat) (t : XNum) : Word × Nat :=
  if t.isZero then a
  else
    let r := toF32 (XNum.add (f32 a.1) t)
    (r, a.2 + (if (f32 a.1).isFinite && t.isFinite && (f32 r).isInf then 1 else 0))

/-- The sum of an output element over the contraction in chunks of `l`, with its overflows. -/
def dotChunks (l k : Nat) (init : Word) (t : Nat → XNum) : Word × Nat :=
  (List.range ((k + l - 1) / l)).foldl (fun a c =>
    addChunk a ((List.range (min l (k - c * l))).foldl (fun z i => XNum.add z (t (c * l + i))) XNum.zero)) (init, 0)

/-- The initial accumulator value under ACC_IN: the FP32 output element. DESIGN CHOICE: the spec does not say what ACC_IN reads where the
output format is not FP32; it reads FP32 elements laid out from the output address. -/
def State.accInit (s : State) (x : Desc) (i j : Nat) : Word :=
  if x.accIn && decide (x.mode ≠ 4) then
    BitVec.ofNat 32 (if x.tout then s.hbmNum (x.out + (j * x.m + i) * 4) 4 else s.hbmNum (x.out + (i * x.n + j) * 4) 4)
  else 0

/-- The accumulator value of an output element. -/
def State.product (s : State) (view d : Nat) (x : Desc) (i j : Nat) : Word × Nat :=
  dotChunks (shapeL x.shape) x.k (s.accInit x i j) (s.term view d x i j)

/-- The view under which a task's products read the image set: its token's, or the attempt's (R18, R19). -/
def State.viewOfTask (s : State) (t : Option TaskEnt) : Nat := match t with
  | some e => (match e.launch with
    | .gen _ _ h => (s.ctx h).view
    | _ => s.arr.view)
  | none => s.arr.view

/-! ### The output stage (R170) -/

/-- Stochastic rounding of an element of a tensor, or rounding to nearest (R64, R65). -/
def State.rndOf (s : State) (e : Option FmtEnt) (index : Nat) : Rnd := match e with
  | some e => if e.sr then .sr (srUniform s.srSeed s.stepNo e.tensor (index % 2 ^ 40)) else .rne
  | none => .rne

/-- The bytes of one line of a tile in the output format: values with their row-major indices in the output. -/
def State.outLine (s : State) (v : FmtView) (x : Desc) (vals : List Word) (idx : Nat → Nat) : List Byte × EncCount :=
  let e := v.find x.tensor
  encodeElems x.fmtO (v.exp x.tensor) (e.elim false (·.descent)) (fun p => s.rndOf e (idx p)) 0 (vals.map f32)

/-- Bytes before element `i` of a line. -/
def lineOff (f : Fmt) (i : Nat) : Nat := if f.scaled then i / 32 * f.blockBytes else i * f.blockBytes

/-- Write a tile, or its transpose, at an output address; `g` gives the values by row and column of the output. -/
def State.writeTile (s : State) (v : FmtView) (x : Desc) (t : Nat) (out : Nat) (tr : Bool) (g : Nat → Nat → Word) : State × EncCount :=
  let r0 := x.tileRow t
  let c0 := x.tileCol t
  let nr := x.tileRows t
  let nc := x.tileCols t
  if tr then
    (List.range nc).foldl (fun a c =>
      let l := s.outLine v x ((List.range nr).map (fun r => g (r0 + r) (c0 + c))) (fun p => (r0 + p) * x.n + (c0 + c))
      (a.1.hbmWrite (out + (c0 + c) * lineBytes x.fmtO x.m + lineOff x.fmtO r0) l.1, a.2.add l.2)) (s, {})
  else
    (List.range nr).foldl (fun a r =>
      let l := s.outLine v x ((List.range nc).map (fun c => g (r0 + r) (c0 + c))) (fun p => (r0 + r) * x.n + (c0 + p))
      (a.1.hbmWrite (out + (r0 + r) * lineBytes x.fmtO x.n + lineOff x.fmtO c0) l.1, a.2.add l.2)) (s, {})

/-- The ceiling A * 2^H of a tensor's scale (R67, R75). -/
def FmtSt.ceiling (f : FmtSt) (e : FmtEnt) : XNum :=
  let h := (SMap.get (fun _ => List.replicate 16 e.amax) f.hist e.tensor).take e.hist
  let a := maxFinite (h.map (fun w => FF.fp32.decode w))
  (if a.isZero then FF.fp32.decode e.amax else a).scale e.headroom

/-- floor(log2) of a finite nonzero magnitude. -/
def xlog : XNum → Int
  | .fin _ m e => lg m e
  | _ => 0

/-- The statistics of one block (R75); OC and OC3 count infinite elements too, which exceed every ceiling. -/
def LayerStat.block (l : LayerStat) (top : XNum) (b : List XNum) : LayerStat :=
  let fin := b.filter (fun v => v.isFinite && !v.isZero)
  let big := xlog (maxFinite b)
  let oc := (b.filter (fun v => (v.isFinite || v.isInf) && XNum.lt top v.abs)).length
  { n := l.n + fin.length
    bins := fin.foldl (fun m v =>
      let i := min 31 (big - xlog v).toNat
      SMap.set (fun _ => 0) m i (SMap.get (fun _ => 0) m i + 1)) l.bins
    oc := l.oc + oc
    oc3 := l.oc3 + (oc - 2) }

/-- STATS: the amax of the output tensor, and the layer statistics of an activation gradient (R66, R75), over the blocks of the output at the
first address, which run along its contiguous dimension. DESIGN CHOICE: with DUAL the output has two block orientations and the spec does
not say whose blocks the statistics use. -/
def State.tileStats (s : State) (v : FmtView) (x : Desc) (t : Nat) (g : Nat → Nat → Word) : State :=
  let at_ := fun (r c : Nat) => f32 (g (x.tileRow t + r) (x.tileCol t + c))
  let rows := if x.tout then (List.range (x.tileCols t)).map (fun c => (List.range (x.tileRows t)).map (fun r => at_ r c))
    else (List.range (x.tileRows t)).map (fun r => (List.range (x.tileCols t)).map (fun c => at_ r c))
  let s := s.foldAmax x.tensor (FF.fp32.encode (maxFinite rows.flatten))
  match v.find x.tensor with
  | some e =>
    if e.actGrad && decide (e.layer < 128) then
      let st := (rows.flatMap (chunks 32)).foldl (fun l b => LayerStat.block l (s.fmt.ceiling e) b)
        (SMap.get (fun _ => ({} : LayerStat)) s.fmt.statsNow e.layer)
      s.modFmt (fun f => { f with statsNow := SMap.set (fun _ => {}) f.statsNow e.layer st })
    else s
  | none => s

/-- Illegal codes that a tile of a code-mode product reads (R58). DESIGN CHOICE: the spec does not say how often an illegal code counts; it
counts once for every output tile that reads it, and in MSHADOW mode also where measured codes stand in its place. -/
def State.illegalCodes (s : State) (view d : Nat) (x : Desc) (t : Nat) : Nat :=
  if x.mode = 1 ∨ x.mode = 2 then
    match s.descMat d x with
    | some e => ((List.range (min (x.tileCols t) (e.k - x.tileCol t))).map (fun c => ((List.range (min x.k e.n)).filter (fun k =>
        (codeOf (s.viewByte view (s.codeAddr s.arr.shadow e (x.tileCol t + c) k))).2)).length)).sum
    | none => 0
  else 0

/-- The counts of a conversion reach the die's counters and, in the attempt, the step record, whose field 0x88 all three feed. -/
def State.noteEnc (s : State) (d : Nat) (own : Bool) (c : EncCount) (nf : Nat) : State :=
  let s := ((s.incPair (R.MXE_SAT_CNT d) c.sat).incPair (R.MXE_UFL_CNT d) c.ufl).incReg (R.MXE_NF_CNT d) nf
  let s := s.when (decide (0 < c.sat)) (fun s => s.event (R.MXE_EVENTS d) 2)
  s.when own (fun s => s.addEnc { c with sat := c.sat + c.ufl + nf })

/-- Overflows of the accumulation (R166). -/
def State.noteOvf (s : State) (d n : Nat) : State :=
  s.when (decide (0 < n)) (fun s => (s.incReg (R.MXE_OVF_CNT d) n).event (R.MXE_EVENTS d) 1)

/-- An output tile of FP, CODE or MSHADOW mode leaves its core. DEDUCED: with DUAL each orientation holds the same values t in blocks along
its own contiguous dimension (R163); the bytes are the same where both have the same block exponents. -/
def State.tileOut (s : State) (d : Nat) (task : Option TaskEnt) (x : Desc) (t : Nat) : State :=
  let view := s.viewOfTask task
  let g := fun (i j : Nat) => f32Mul (s.product view d x i j).1 x.mult
  let cells := (List.range (x.tileRows t)).flatMap (fun r => (List.range (x.tileCols t)).map (fun c => (x.tileRow t + r, x.tileCol t + c)))
  let ovf := (cells.map (fun p => (s.product view d x p.1 p.2).2)).sum
  let nf := (cells.filter (fun p => !(f32 (g p.1 p.2)).isFinite)).length
  let v := s.fmtOf task
  let own := s.inAttempt task
  let bad := s.illegalCodes view d x t
  let w := s.writeTile v x t x.out x.tout g
  let s' := if x.dual then (w.1.writeTile v x t x.out2 (!x.tout) g).1 else w.1
  let s' := s'.noteEnc d own { w.2 with sat := w.2.sat + bad } nf
  let s' := s'.noteOvf d ovf
  s'.when (x.stats && own) (fun s => s.tileStats v x t g)

/-! ### Digital fallback (R174) -/

/-- One input vector of a fallback product, as an input record of one vector: the K elements of line `i` of operand A, and zeros where the
matrix has more rows. -/
def State.fbInput (s : State) (e : MatEnt) (x : Desc) (i : Nat) : List Byte :=
  List.replicate 16 0 ++ sliceB (s.hbm (x.a + i * lineBytes x.fmtA x.k) (lineBytes x.fmtA x.k)) 0 e.vecBytes

/-- Offset of a weight column's result of a group in a vector's results: column blocks, then groups, then columns. DESIGN CHOICE: the spec
gives the results at the result address no layout; no header stands before them. -/
def MatEnt.resultOff (e : MatEnt) (j g : Nat) : Nat :=
  2 * (512 * (j / 512) * e.groups + g * e.cols (j / 512) + j % 512)

/-- The bits of an input width in a descriptor of FALLBACK mode. -/
def Desc.fbWidth (x : Desc) : Nat := match x.fmtA with | .int2 => 2 | .int3 => 3 | .int8 => 8 | _ => 4

/-- The result of output row `i`, weight column `j` and combine group `g` before its rounding to BF16, and whether a block of scale 0xFF makes
it NaN. DEDUCED: the multiplier of R170 applies to it as to every output. -/
def State.fbResult (s : State) (view : Nat) (e : MatEnt) (x : Desc) (i g j : Nat) : Word × Bool :=
  let rec_ := s.fbInput e x i
  let sc := e.groupScales rec_ 1 g
  let eIn := sc.foldl max 0
  if sc.contains 0xFF then (0x7FC00000, true) else (f32Mul (s.fbSum view e [e.aligned rec_ 0 eIn] g j eIn) x.mult, false)

/-- Where the result of a row, group and weight column lies: its row's results are contiguous or, transposed, the rows of one result are. -/
def Desc.fbAddr (x : Desc) (e : MatEnt) (out : Nat) (tr : Bool) (i g j : Nat) : Nat :=
  if tr then out + e.resultOff j g * x.m + 2 * i else out + i * (2 * e.n * e.groups) + e.resultOff j g

/-- A fallback tile: the results of its rows and of the weight columns of the matrix, for every combine group, from the descriptor's own input
width. STATS, DUAL and transposition act as on every output (R170). -/
def State.fbTile (s : State) (d : Nat) (task : Option TaskEnt) (e0 : MatEnt) (x : Desc) (t : Nat) : State :=
  let k := 8 * d + x.mat / 2048 % 8
  let e := { e0 with width := x.fbWidth }
  let view := s.viewOfTask task
  let own := s.inAttempt task
  let cols := min (x.tileCols t) (e.n - x.tileCol t)
  let rows := (List.range (x.tileRows t)).map (fun r => x.tileRow t + r)
  let grps := List.range e.groups
  let cells := rows.flatMap (fun i => grps.flatMap (fun g => (List.range cols).map (fun c => (i, g, x.tileCol t + c))))
  let put := fun (s' : State) (out : Nat) (tr : Bool) => cells.foldl (fun s' q =>
    s'.hbmWrite (x.fbAddr e out tr q.1 q.2.1 q.2.2) (leBytes 2 (toBf16 (f32 (s.fbResult view e x q.1 q.2.1 q.2.2).1)))) s'
  let nans := if x.tileCol t % 512 = 0 then
      ((rows.flatMap (fun i => grps.map (fun g => (i, g)))).filter (fun q => (s.fbResult view e x q.1 q.2 (x.tileCol t)).2)).length else 0
  let nf := (cells.filter (fun q => !(f32 (s.fbResult view e x q.1 q.2.1 q.2.2).1).isFinite)).length
  let bad := (grps.map (fun g => s.fbIllegal view e g (x.tileCol t) cols)).sum
  let s' := put s x.out x.tout
  let s' := if x.dual then put s' x.out2 (!x.tout) else s'
  let s' := (s'.incReg (R.ARR_NAN_CNT k) nans).noteEnc d own { sat := bad } nf
  s'.when (x.stats && own) (fun s' => grps.foldl (fun s' g => s'.tileStats (s.fmtOf task) x t (fun i j => (s.fbResult view e x i g j).1)) s')

/-! ### The gradient converter (R177, R211, R212, R228) -/

/-- The state-table entry that holds a row of a gradient tensor on a die (R181), with its index. -/
def UpdSt.entryOf (u : UpdSt) (d grad row : Nat) : Option (Nat × StateEnt) :=
  ((List.range u.table.length).zip u.table).find? (fun p =>
    p.2.grad == grad && p.2.die == d && decide (p.2.first ≤ row) && decide (row < p.2.first + p.2.rows))

/-- The bucket-table entry of a state-table entry (R206, R208). -/
def RedSt.entryOf (r : RedSt) (grad first : Nat) : Option BucketEnt := r.table.find? (fun b => b.tensor == grad && b.row == first)

/-- Blocks of the state-table entry behind a bucket-table entry. -/
def State.bucketBlocks (s : State) (b : BucketEnt) : Nat :=
  match s.upd.table.find? (fun e => e.grad == b.tensor && e.first == b.row) with
  | some e => e.blocks
  | none => 0

/-- Position of a block's byte in the exponent table (R212). -/
def State.xtabPos (s : State) : List BucketEnt → Nat → Nat → Nat
  | [], _, _ => 0
  | b :: bs, grad, first => if b.tensor = grad ∧ b.row = first then 0 else s.bucketBlocks b + State.xtabPos s bs grad first

/-- The exponent X of a gradient block, and whether the host's value was clamped; a block of a slice beyond the tensor's grid has no byte in
the host's table and carries nothing: it takes the least exponent. -/
def State.gradExp (s : State) (e : StateEnt) (row col : Nat) : Int × Bool :=
  if s.fnHost 4 then
    if e.first + 32 * e.brows ≤ row ∨ 32 * e.bcols ≤ col then (-127, false) else
    let o := s.xtabPos s.red.table e.grad e.first + (row - e.first) / 32 * e.bcols + col / 32
    let z := sext 8 (s.hbmNum (s.pair R.RED_XTAB_BASE / 4096 * 4096 + o) 1)
    (max (-127) z, decide (z < -127))
  else (s.fmt.view.exp e.grad, false)

/-- The wire format of a gradient tensor is I32. -/
def State.wire32 (s : State) (grad : Nat) : Bool := match s.fmt.view.find grad with
  | some e => e.code == 15
  | none => false
def wireBits (i32 : Bool) : Nat := if i32 then 32 else 24

/-- Clamping is enabled (R211, R212). -/
def State.clampOn (s : State) : Bool := !(s.fnHost 4 && s.polB R.RED_CTRL 1)

/-- One element: the wire integer, whether it clamped, and its kind (0 finite, 1 NaN, 2 +inf, 3 -inf). -/
def State.convElem (s : State) (e : StateEnt) (x : Int) (row col : Nat) (v : Word) : Int × Bool × Nat :=
  match f32 v with
  | .nan => (0, false, 1)
  | .inf n => (0, false, if n then 3 else 2)
  | .fin n m ex =>
    let z := XNum.roundInt (s.rndOf (s.fmt.view.find e.grad) (row * e.cols + col)) ((XNum.fin n m ex).scale (-x))
    let w := s.wire32 e.grad
    if s.clampOn then
      let c := clampInt (-(wireBound w)) (wireBound w) z
      (c, decide (c ≠ z), 0)
    else (sext (wireBits w) (toTwos (wireBits w) z), false, 0)

/-- One 32 x 32 block of a slice: its record and its clamps. -/
def State.convBlock (s : State) (e : StateEnt) (row col : Nat) (g : Nat → Nat → Word) : BlockRec × Nat × Nat × Bool :=
  let x := s.gradExp e row col
  let els := (List.range 1024).map (fun i => (i, s.convElem e x.1 (row + i / 32) (col + i % 32) (g (row + i / 32) (col + i % 32))))
  let nf := els.filter (fun p => decide (p.2.2.2 ≠ 0))
  let marked := decide (4 < nf.length)
  ({ scale := (x.1 + 127).toNat, marked := marked, list := if marked then [] else nf.map (fun p => (p.1, p.2.2.2)),
     v := (els.filter (fun p => decide (p.2.1 ≠ 0))).map (fun p => (p.1, p.2.1)) },
   (els.filter (fun p => p.2.2.1)).length, nf.length, x.2)

end Sys2Proof.Machine
end

