-- ==== Sys2Proof/Machine/RingOps.lean ====
section
/-! DEFINITION. The reduction channels: bucket plan (R206 to R208), window and in-flight bound (R218), messages (R214, R215), the sum of a
hop and the merge of lists (R213, R228). -/

namespace Sys2Proof.Machine

/-! ### The plan -/

/-- Slices across, and slices in all, of a bucket-table entry (R207). -/
def State.sliceCols (s : State) (b : BucketEnt) : Nat :=
  match s.upd.table.find? (fun e => e.grad == b.tensor && e.first == b.row) with
  | some e => (e.cols + shapeN b.shape - 1) / shapeN b.shape
  | none => 0
def State.sliceCount (s : State) (b : BucketEnt) : Nat :=
  match s.upd.table.find? (fun e => e.grad == b.tensor && e.first == b.row) with
  | some e => ((e.rows + shapeM b.shape - 1) / shapeM b.shape) * s.sliceCols b
  | none => 0
/-- Blocks of a slice: 16, or 8 for shape 7. -/
def sliceBlocks (shape : Nat) : Nat := shapeM shape / 32 * (shapeN shape / 32)

/-- The slice number of a slice at a row and column of the gradient tensor. -/
def State.sliceNo (s : State) (b : BucketEnt) (row col : Nat) : Nat :=
  (row - b.row) / shapeM b.shape * s.sliceCols b + col / shapeN b.shape

/-- The bucket-table entry that a bucket of a channel belongs to. -/
def RedSt.bucketEnt (r : RedSt) (c seq : Nat) : Option BucketEnt :=
  r.table.find? (fun b => b.channel == c && decide (b.first ≤ seq) && decide (seq < b.first + b.count))

/-- The slices of a bucket, and its blocks. -/
def State.bucketSlices (s : State) (b : BucketEnt) (seq : Nat) : List Nat :=
  let lo := 4 * (seq - b.first)
  (List.range (min 4 (s.sliceCount b - lo))).map (fun i => lo + i)
def State.bucketLen (s : State) (b : BucketEnt) (seq : Nat) : Nat := (s.bucketSlices b seq).length * sliceBlocks b.shape

/-- The block of the state-table entry's block grid behind block `i` of a bucket; none where it lies beyond the grid (R207). -/
def State.bucketBlock (s : State) (b : BucketEnt) (e : StateEnt) (seq i : Nat) : Option Nat :=
  let per := sliceBlocks b.shape
  let sl := 4 * (seq - b.first) + i / per
  let j := i % per
  let bc := shapeN b.shape / 32
  let r := sl / s.sliceCols b * (shapeM b.shape / 32) + j / bc
  let c := sl % s.sliceCols b * bc + j % bc
  if r < e.brows ∧ c < e.bcols then some (r * e.bcols + c) else none

/-! ### Buckets of a channel -/

def ChanSt.bucket (c : ChanSt) (seq : Nat) : BucketSt := (c.flight.find? (fun b => b.seq == seq)).getD { seq := seq }
def ChanSt.setBucket (c : ChanSt) (b : BucketSt) : ChanSt :=
  if c.flight.any (fun x => x.seq == b.seq) then { c with flight := c.flight.map (fun x => if x.seq = b.seq then b else x) }
  else { c with flight := c.flight ++ [b] }
def ChanSt.dropBucket (c : ChanSt) (seq : Nat) : ChanSt := { c with flight := c.flight.filter (fun b => b.seq ≠ seq) }
/-- Buckets in flight: some slice of them has been accepted. -/
def ChanSt.inFlight (c : ChanSt) : Nat := (c.flight.filter (fun b => !b.slices.isEmpty)).length

/-- Own records of a bucket in block order. -/
def State.ownRecs (s : State) (b : BucketEnt) (x : BucketSt) : List BlockRec :=
  (s.bucketSlices b x.seq).flatMap (fun n => match x.slices.find? (fun p => p.1 == n) with
    | some p => p.2
    | none => [])

/-- Records of chunk `c` of a list of records: the blocks whose number is `c` modulo `n`. -/
def chunkRecs (n c : Nat) (l : List BlockRec) : List BlockRec :=
  ((List.range l.length).filter (fun i => decide (i % n = c))).map (fun i => l.getD i {})

/-- Every chunk of a bucket with blocks is stored; in a group of one the own contribution is the result (R210, R219). -/
def State.reduced (s : State) (b : BucketEnt) (x : BucketSt) : Bool :=
  if s.groupN ≤ 1 then x.ownDone
  else (List.range (min s.groupN (s.bucketLen b x.seq))).all (fun c => x.chunks.any (fun p => p.1 == c))

/-- The reduced record of block `i` of a bucket. -/
def State.reducedRec (s : State) (b : BucketEnt) (x : BucketSt) (i : Nat) : BlockRec :=
  if s.groupN ≤ 1 then (s.ownRecs b x).getD i {}
  else match x.chunks.find? (fun p => p.1 == i % s.groupN) with
    | some p => p.2.getD (i / s.groupN) {}
    | none => {}

/-- A channel takes messages and slices. -/
def State.chanOn (s : State) (c : Nat) : Bool := s.regB R.RED_CTRL 0 && s.regB R.RED_CTRL (8 + c)

/-- Why a channel cannot take a slice of a bucket: beyond the window, 32 buckets in flight (R218). -/
def State.sliceHold (s : State) (c seq : Nat) : Bool × Bool :=
  let x := s.chan c
  (decide (seq < x.sendPt) || decide (x.sendPt + 7 < seq), (x.bucket seq).slices.isEmpty && decide (32 ≤ x.inFlight))

/-- A converter other than that of cluster `k` holds a slice of channel `c`. -/
def State.otherHold (s : State) (k c : Nat) : Bool :=
  s.mxe.conv.any (fun p => decide (p.1 ≠ k) && (match p.2 with | some v => v.held && v.chan == c | none => false))

/-- Record why the converter of cluster `k` holds a slice, or that it holds none, beside what others hold (R179, R218). -/
def State.noteHold (s : State) (k c : Nat) (h : Bool × Bool) : State :=
  let x := s.chan c
  let o := s.otherHold k c
  let d := k / 8
  let s := s.setChan c { x with holdWindow := h.1 || (o && x.holdWindow), holdFlight := h.2 || (o && x.holdFlight) }
  let s := s.when h.1 (fun s => (s.event R.RED_EVENTS 5).modCnt (fun k => { k with reorderStall := true }))
  let s := s.when h.2 (fun s => (s.event R.RED_EVENTS 6).modCnt (fun k => { k with flightStall := true }))
  s.when (h.1 || h.2) (fun s => s.event (R.MXE_EVENTS d) 4)

/-! ### Messages (R214, R215) -/

/-- The integers of a block record. -/
def BlockRec.val (r : BlockRec) (i : Nat) : Int := match r.v.find? (fun p => p.1 == i) with
  | some p => p.2
  | none => 0
/-- A block record from all its integers. -/
def BlockRec.withVals (r : BlockRec) (f : Nat → Int) : BlockRec :=
  { r with v := ((List.range 1024).map (fun i => (i, f i))).filter (fun p => decide (p.2 ≠ 0)) }

/-- The bytes of a block record on the wire. -/
def blockBytes (i32 : Bool) (r : BlockRec) : List Byte :=
  let k := wireBits i32 / 8
  let ents := r.list.map (fun p => leBytes 2 (0x8000 + p.2 * 2 ^ 10 + p.1))
  [byteOf r.scale, byteOf ((if r.marked then 0x80 else 0) + r.list.length)] ++ (ents.flatten ++ List.replicate (8 - 2 * r.list.length) 0)
    ++ List.replicate 6 0 ++ (List.range 1024).flatMap (fun i => leBytes k (toTwos (wireBits i32) (BlockRec.val r i)))

/-- The CRC-32C of a message's records. -/
def recsCrc (i32 : Bool) (l : List BlockRec) : Nat := crc32c (l.flatMap (blockBytes i32))

/-- The bytes of a message. -/
def msgBytes (m : RingMsg) : List Byte :=
  leBytes 4 m.seq ++ leBytes 4 m.epoch ++ leBytes 8 m.step ++ [byteOf m.attempt, byteOf (m.fmt + 16 * m.phase), byteOf m.channel, byteOf m.sender,
    byteOf m.n, byteOf m.chunk, byteOf m.contrib, byteOf m.recs.length] ++ leBytes 4 (m.tensor * 256 + m.gid) ++ leBytes 4 m.crc
    ++ m.recs.flatMap (blockBytes (m.fmt == 15))

/-- Send a message to the successor on a channel; a member that has voted ABORT sends none (R216, R283). -/
def State.sendMsg (s : State) (c : Nat) (m : RingMsg) : State :=
  if s.stp.abort.isSome || m.recs.isEmpty then s
  else s.sendOn (s.chan c).succLink ⟨2, c, s.me, 0xFF, msgBytes m⟩

/-- A message of this member for a bucket. -/
def State.ownMsg (s : State) (c seq chunk : Nat) (b : BucketEnt) (recs : List BlockRec) : RingMsg :=
  let i := s.wire32 b.tensor
  { seq := seq, epoch := s.epoch, step := s.stepNum, attempt := s.attNum, fmt := if i then 15 else 14, phase := 1, channel := c,
    sender := s.red.pos, n := s.groupN, chunk := chunk, contrib := 1, tensor := b.tensor, gid := s.red.gid, crc := recsCrc i recs,
    recs := recs }

/-! ### Sums (R213, R216, R228) -/

/-- Kinds of equal positions: NaN where either is NaN or the infinities differ. -/
def mergeKind (a b : Nat) : Nat := if a = b then a else 1

/-- The merge of the lists of two records. -/
def mergeLists (a b : List (Nat × Nat)) : List (Nat × Nat) :=
  (List.range 1024).filterMap (fun i => match a.find? (fun p => p.1 == i), b.find? (fun p => p.1 == i) with
    | some x, some y => some (i, mergeKind x.2 y.2)
    | some x, none => some x
    | none, some y => some y
    | none, none => none)

/-- The sum of two block records, modulo the wire width. -/
def addRec (i32 : Bool) (x y : BlockRec) : BlockRec :=
  let w := wireBits i32
  let l := mergeLists x.list y.list
  let marked := x.marked || y.marked || decide (4 < l.length)
  let r : BlockRec := { x with marked := marked, list := if marked then [] else l }
  BlockRec.withVals r (fun i => sext w (toTwos w (BlockRec.val x i + BlockRec.val y i)))

/-- The wire value of a decoded element of a reduced record (R186, R229). -/
def recElem (r : BlockRec) (i : Nat) : Word :=
  if r.marked then 0x7FC00000
  else match r.list.find? (fun p => p.1 == i) with
    | some p => if p.2 = 1 then 0x7FC00000 else if p.2 = 2 then 0x7F800000 else 0xFF800000
    | none => toF32 ((XNum.ofInt (BlockRec.val r i)).scale ((r.scale : Int) - 127))

end Sys2Proof.Machine
end

