-- ==== Sys2Proof/Machine/Matrix.lean ====
section
/-! DEFINITION. Meanings of the matrix engine's commands (chapter 06). -/

namespace Sys2Proof.Machine

/-! ### Cores, clusters, converters -/

def State.core (s : State) (k : Nat) : CoreSt := SMap.get (fun _ => {}) s.mxe.core k
def State.setCore (s : State) (k : Nat) (x : CoreSt) : State :=
  s.modMxe (fun m => { m with core := SMap.set (fun _ => {}) m.core k x })
def State.cluster (s : State) (k : Nat) : List DescRun := SMap.get (fun _ => []) s.mxe.clus k
def State.setCluster (s : State) (k : Nat) (x : List DescRun) : State :=
  s.modMxe (fun m => { m with clus := SMap.set (fun _ => []) m.clus k x })
def State.conv (s : State) (k : Nat) : Option ConvSlice := SMap.get (fun _ => none) s.mxe.conv k
def State.setConv (s : State) (k : Nat) (x : Option ConvSlice) : State :=
  s.modMxe (fun m => { m with conv := SMap.set (fun _ => none) m.conv k x })

/-- The cluster of core `c` of die `d`. -/
def clusKey (d c : Nat) : Nat := d * 8 + c / 16

def State.runOf (s : State) (k slot : Nat) : Option DescRun := (s.cluster k).find? (fun r => r.slot == slot)
def State.setRun (s : State) (k : Nat) (r : DescRun) : State :=
  s.setCluster k ((s.cluster k).map (fun x => if x.slot = r.slot then r else x))

/-- Another descriptor in progress on the module whose outputs meet those given: its key and its outputs. -/
def State.rivals (s : State) (key : Nat) (outs : List (Nat × Nat)) : List (Nat × List (Nat × Nat)) :=
  ((List.range 16).flatMap (fun k => (s.cluster k).map (fun r => (k / 8 * 4096 + r.slot, s.descOuts (k / 8) r.desc)))).filter (fun p =>
    decide (p.1 ≠ key) && p.2.any (fun o => outs.any (meets o)))

/-- A descriptor that has written ends: its outputs are remembered while a descriptor in progress overlaps them (R171). -/
def State.notePast (s : State) (k : Nat) (r : DescRun) : State :=
  let key := k / 8 * 4096 + r.slot
  let outs := s.descOuts (k / 8) r.desc
  let ks := (s.rivals key outs).map (·.1)
  s.modMxe (fun m => { m with
    past := ((m.past.map (fun p => (p.1, p.2.1, p.2.2.filter (· ≠ key)))).filter (fun p => !p.2.2.isEmpty))
      ++ (if r.next = 0 ∨ ks.isEmpty then [] else [(key, outs, ks)]) })

/-- A descriptor ends. -/
def State.dropRun (s : State) (k slot : Nat) : State :=
  let s := match s.runOf k slot with
    | some r => s.notePast k r
    | none => s
  s.setCluster k ((s.cluster k).filter (fun x => x.slot ≠ slot))

/-- A core is enabled. -/
def State.coreOn (s : State) (d c : Nat) : Bool := s.regB (R.MXE_CORE_EN d (c / 32)) (c % 32)

/-- The core has work of its descriptor left: tiles in progress, or tiles of it not handed out. -/
def State.coreBusy (s : State) (d c : Nat) : Bool :=
  let x := s.core (d * 128 + c)
  match x.slot with
  | some sl => !x.tiles.isEmpty || (match s.runOf (clusKey d c) sl with
    | some r => decide (r.next < r.desc.tiles)
    | none => false)
  | none => false

/-! ### Acceptance (R167, R169, R208) -/

/-- A descriptor is refused: recorded, logged, its task ends with error status. -/
def State.refuseDesc (s : State) (d c : Nat) (r : DescRun) (cause : Nat) : State :=
  let s := s.setReg (R.MXE_FAULT d) (packFields [(25, c), (16, r.desc.mode), (8, r.desc.shape), (0, cause)])
  let s := s.eventLog (R.MXE_EVENTS d) 0 (0xE + d) 1 cause r.slot
  (s.dropRun (clusKey d c) r.slot).endTask d r.slot true

/-- A WGRAD descriptor that the bucket table does not plan. -/
def State.unplanned (s : State) (d : Nat) (x : Desc) : Bool :=
  match s.upd.entryOf d x.grad (x.out % 2 ^ 32) with
  | some (_, e) => (match s.red.entryOf x.grad e.first with
    | some b => !(b.channel == x.chan && b.shape == x.shape)
    | none => true)
  | none => true

/-- Hand the next tile of a descriptor to a core. -/
def State.giveTile (s : State) (d c : Nat) (r : DescRun) : State :=
  let x := s.core (d * 128 + c)
  let old := decide (x.slot = some r.slot)
  let s := s.setCore (d * 128 + c) { slot := some r.slot, mode := r.desc.mode, shape := r.desc.shape, slots := r.desc.slots,
                                     tiles := (if old then x.tiles else []) ++ [r.next] }
  s.setRun (clusKey d c) { r with next := r.next + 1 }

/-- Why a descriptor that no core has accepted yet is refused. -/
def State.runFault (s : State) (d : Nat) (r : DescRun) : Option Nat := if r.next = 0 then s.descFault d r.desc else none

/-- DESCRIPTOR_ACCEPT (R167, R169): the core takes the next tile of its descriptor while a slot is free, or, all its slots free, accepts the
next descriptor of its cluster. -/
def descriptorAccept (d c : Nat) (s : State) : State :=
  let k := clusKey d c
  let x := s.core (d * 128 + c)
  if s.coreBusy d c then
    match x.slot.bind (s.runOf k) with
    | some r => if r.next < r.desc.tiles ∧ x.tiles.length < x.slots then s.giveTile d c r else s
    | none => s
  else if s.coreOn d c && s.regB (R.MXE_CTRL d) 0 then
    match (s.cluster k).find? (fun r => decide (r.next < r.desc.tiles) || (s.runFault d r).isSome) with
    | none => s
    | some r =>
      match s.runFault d r with
      | some cause => s.refuseDesc d c r cause
      | none =>
        if decide (r.desc.mode = 4) && s.unplanned d r.desc then
          (((s.dropRun k r.slot).endTask d r.slot true)).findAbort 7 r.desc.chan 0xFFFFFFFF 0xFF
        else s.giveTile d c r
  else s

def execDescriptorAccept (d : Die) (c : Fin 128) (s : State) : Answer := .next (descriptorAccept d.val c.val s)

/-! ### Tiles -/

/-- A tile leaves its core. -/
def State.dropTile (s : State) (d c t : Nat) : State :=
  let s := s.setCore (d * 128 + c) ((s.core (d * 128 + c)).dropTile t)
  let s := s.modMxe (fun m => { m with ready := m.ready.erase (d * 128 + c) })
  if s.coreBusy d c then s else s.setCore (d * 128 + c) { s.core (d * 128 + c) with slot := none }

/-- A tile of a descriptor is finished; after the last one its task ends. -/
def State.finishTile (s : State) (d k slot : Nat) : State :=
  match s.runOf k slot with
  | some r => if r.desc.tiles ≤ r.done + 1 then (s.dropRun k slot).endTask d slot false else s.setRun k { r with done := r.done + 1 }
  | none => s

/-- The operand lines of a tile are read: those of its rows and columns, or the whole operand where it is transposed the other way. -/
def State.noteOperands (s : State) (d : Nat) (x : Desc) (t : Nat) : State :=
  let la := lineBytes x.fmtA x.k
  let lb := lineBytes x.fmtB x.k
  let s := if x.ta then s.noteRead d x.a x.aBytes else s.noteRead d (x.a + x.tileRow t * la) (x.tileRows t * la)
  if x.coded then s
  else if x.tb then s.noteRead d x.b x.bBytes else s.noteRead d (x.b + x.tileCol t * lb) (x.tileCols t * lb)

/-- The ranges of HBM that a tile reads: its operands, the codes of its matrix, the accumulator's start values. -/
def State.tileReads (s : State) (d : Nat) (x : Desc) (t : Nat) : List (Nat × Nat) :=
  let la := lineBytes x.fmtA x.k
  let lb := lineBytes x.fmtB x.k
  let a := if x.ta then (x.a, x.aBytes) else (x.a + x.tileRow t * la, x.tileRows t * la)
  let b := if x.coded then (match s.descMat d x with
      | some e =>
        if x.mode = 3 then (List.range (x.tileCols t)).map (fun c => (s.codeAddr s.arr.shadow e 0 (x.tileCol t + c), e.k))
        else (List.range e.n).map (fun j => (s.codeAddr s.arr.shadow e (x.tileCol t) j, x.tileCols t))
      | none => [])
    else [if x.tb then (x.b, x.bBytes) else (x.b + x.tileCol t * lb, x.tileCols t * lb)]
  let o := if x.accIn && decide (x.mode ≠ 4) then
      (if x.tout then (List.range (x.tileCols t)).map (fun c => (x.out + ((x.tileCol t + c) * x.m + x.tileRow t) * 4, x.tileRows t * 4))
       else (List.range (x.tileRows t)).map (fun r => (x.out + ((x.tileRow t + r) * x.n + x.tileCol t) * 4, x.tileCols t * 4)))
    else []
  a :: (b ++ o)

/-- A tile of a task reads its operands: stream lines are released, uncorrectable units met are noted and fail the task (R254, R258). -/
def State.readTile (s : State) (d slot : Nat) (x : Desc) (t : Nat) : State :=
  (s.noteOperands d x t).taskRead d slot (s.tileReads d x t)

/-! ### Outputs that overlap (R171) -/

/-- The descriptor whose bytes a 32-byte unit holds that outputs of several descriptors overlap: the spec does not define which. -/
def ownerOf (u key : Nat) (l : List (Nat × List (Nat × Nat))) : Nat :=
  let ks := (l.filter (fun p => p.2.any (meets (32 * u, 32)))).map (·.1)
  if Config.freeBit u then ks.foldl max key else ks.foldl min key

/-- The units of an output that another unordered descriptor also writes hold the bytes of one of the writers (R171): those that are not this
descriptor's stay as they were before its tile (`old`). -/
def State.keepRivals (s old : State) (d slot : Nat) (x : Desc) : State :=
  let key := d * 4096 + slot
  let outs := s.descOuts d x
  let l := s.rivals key outs ++ (s.mxe.past.filter (fun p => p.2.2.contains key)).map (fun p => (p.1, p.2.1))
  if l.isEmpty then s
  else
    (outs.flatMap (fun o => (List.range (o.2 / 32 + 2)).map (fun i => o.1 / 32 + i))).foldl (fun t u =>
      if outs.any (meets (32 * u, 32)) && ownerOf u key l ≠ key then t.hbmWrite (32 * u) (old.hbm (32 * u) 32) else t) s

/-- TILE_OUTPUT (R170): the oldest tile in progress of a core leaves through the output stage. -/
def tileOutput (d c : Nat) (s : State) : State :=
  let x := s.core (d * 128 + c)
  match x.slot, x.tiles with
  | some sl, t :: _ =>
    match s.runOf (clusKey d c) sl with
    | some r =>
      if r.desc.mode = 4 then s
      else
        let s := s.readTile d sl r.desc t
        let s' := if r.desc.mode = 3 then (match s.descMat d r.desc with
            | some e => s.fbTile d (s.task (d * 4096 + sl)) e r.desc t
            | none => s)
          else s.tileOut d (s.task (d * 4096 + sl)) r.desc t
        (((s'.keepRivals s d sl r.desc).incPair (R.MXE_KSTEP_CNT d) r.desc.ksteps).finishTile d (clusKey d c) sl).dropTile d c t
    | none => s
  | _, _ => s

def execTileOutput (d : Die) (c : Fin 128) (s : State) : Answer := .next (tileOutput d.val c.val s)

/-- ACC_STALL (R167): a core whose slots are all held has stalled for a number of cycles. -/
def accStall (d c cycles : Nat) (s : State) : State :=
  let x := s.core (d * 128 + c)
  if x.slot.isSome ∧ x.slots ≤ x.tiles.length then
    (s.incPair (R.MXE_STALL_CNT d) cycles).when (decide (1024 < cycles)) (fun s => s.event (R.MXE_EVENTS d) 3)
  else s

def execAccStall (d : Die) (c : Fin 128) (cycles : Nat) (s : State) : Answer := .next (accStall d.val c.val cycles s)

/-- MATRIX_CANCEL (R245): a MATRIX task of an aborted attempt stops, frees its slots and completes as cancelled. -/
def matrixCancel (d slot : Nat) (s : State) : State :=
  match s.task (d * 4096 + slot) with
  | some t =>
    if t.kind = 1 ∧ t.isStep ∧ t.discard ∧ t.prog = .running then
      let s := (List.range 8).foldl (fun s i => s.dropRun (d * 8 + i) slot) s
      let s := (List.range 8).foldl (fun s i => match s.conv (d * 8 + i) with
        | some v => if v.slot = slot then s.setConv (d * 8 + i) none else s
        | none => s) s
      let s := (List.range 128).foldl (fun s c =>
        if (s.core (d * 128 + c)).slot = some slot then
          (s.setCore (d * 128 + c) { s.core (d * 128 + c) with slot := none, tiles := [] }).modMxe (fun m =>
            { m with ready := m.ready.filter (· ≠ d * 128 + c) })
        else s) s
      s.endTask d slot false
    else s
  | none => s

def execMatrixCancel (d : Die) (slot : Fin 4096) (s : State) : Answer := .next (matrixCancel d.val slot.val s)

/-! ### The gradient converter (R176 to R179) -/

/-- The oldest slice of a core. -/
def State.coreSlice (s : State) (d c : Nat) : Option (Nat × DescRun × Nat) :=
  let x := s.core (d * 128 + c)
  match x.slot, x.tiles with
  | some sl, t :: _ => (match s.runOf (clusKey d c) sl with
    | some r => if r.desc.mode = 4 then some (c, r, t) else none
    | none => none)
  | _, _ => none

/-- The slice that the converter of a cluster takes next: the one that became ready first (R178). -/
def State.sliceCore (s : State) (d cl : Nat) : Option (Nat × DescRun × Nat) :=
  s.mxe.ready.findSome? (fun q => if q / 16 = 8 * d + cl then s.coreSlice d (q % 128) else none)

/-- A core whose next slice has become ready: it holds one that is not counted yet. -/
def State.sliceReady (s : State) (d c : Nat) : State :=
  if (s.coreSlice d c).isSome && decide (s.mxe.ready.count (d * 128 + c) < (s.core (d * 128 + c)).tiles.length) then
    s.modMxe (fun m => { m with ready := m.ready ++ [d * 128 + c] })
  else s

/-- The slices of a cluster that have become ready, cycle by cycle; of one cycle the lower core number goes first (R178). -/
def State.slicesReady (s : State) (d cl : Nat) (l : List (List Nat)) : State :=
  l.foldl (fun s cyc => ((List.range 16).filter (fun i => cyc.contains i)).foldl (fun s i => s.sliceReady d (16 * cl + i)) s) s

/-- Overflows of the accumulation of a slice (R166). -/
def State.sliceOvf (s : State) (view d : Nat) (x : Desc) (t : Nat) : Nat :=
  ((List.range (x.tileRows t)).flatMap (fun r => (List.range (x.tileCols t)).map (fun c =>
    (s.product view d x (x.tileRow t + r) (x.tileCol t + c)).2))).sum

/-- The blocks of a slice, in row-major order, with the clamps, the non-finite elements and whether an exponent was clamped. -/
def State.convSlice (s : State) (view d : Nat) (x : Desc) (e : StateEnt) (t : Nat) : List (BlockRec × Nat × Nat × Bool) :=
  let row0 := x.out % 2 ^ 32 + x.tileRow t
  let col0 := x.out / 2 ^ 32 + x.tileCol t
  let g := fun (row col : Nat) =>
    let i := row - x.out % 2 ^ 32
    let j := col - x.out / 2 ^ 32
    if i < x.m ∧ j < x.n then (s.product view d x i j).1 else 0
  let nc := shapeN x.shape / 32
  (List.range (sliceBlocks x.shape)).map (fun b => s.convBlock e (row0 + b / nc * 32) (col0 + b % nc * 32) g)

/-- The task of a descriptor belongs to an aborted attempt, whose slices are released (R225, R245). -/
def State.released (s : State) (d slot : Nat) : Bool := match s.task (d * 4096 + slot) with
  | some t => t.discard
  | none => false

/-- SLICE_CONVERT (R177), after the slices that `l` names have become ready. The slice keeps its slot until the channel accepts it (R178,
R179); a slice of an aborted attempt is not converted. -/
def sliceConvert (d cl : Nat) (l : List (List Nat)) (s : State) : State :=
  let s := s.slicesReady d cl l
  let k := d * 8 + cl
  match s.conv k, s.sliceCore d cl with
  | none, some (c, r, t) =>
    let x := r.desc
    if s.released d r.slot then s
    else match s.upd.entryOf d x.grad (x.out % 2 ^ 32) with
    | none => s
    | some (_, e) =>
      match s.red.entryOf x.grad e.first with
      | none => s
      | some b =>
        let own := s.inAttempt (s.task (d * 4096 + r.slot))
        let view := s.viewOfTask (s.task (d * 4096 + r.slot))
        let bs := s.convSlice view d x e t
        let clamps := (bs.map (fun p => p.2.1)).sum
        let nf := (bs.map (fun p => p.2.2.1)).sum
        let row := x.out % 2 ^ 32 + x.tileRow t
        let col := x.out / 2 ^ 32 + x.tileCol t
        let seq := b.first + s.sliceNo b row col / 4
        let hold := s.sliceHold x.chan seq
        let held := hold.1 || hold.2 || !s.chanOn x.chan
        let top := (bs.map (fun p => p.1.scale)).foldl max 0
        let s := s.readTile d r.slot x t
        let s := (((s.incPair (R.MXE_CLAMP_CNT d) clamps).incReg (R.MXE_NF_CNT d) nf).noteOvf d (s.sliceOvf view d x t)).incPair
          (R.MXE_KSTEP_CNT d) x.ksteps
        let s := s.when own (fun s => (s.modCnt (fun q => { q with clamps := q.clamps + clamps, sat := q.sat + nf })).modFmt (fun f =>
          { f with wireScale := SMap.insert x.grad (max top (SMap.get (fun _ => 0) f.wireScale x.grad)) f.wireScale }))
        let s := (bs.filter (fun p => p.2.2.2)).foldl (fun s _ => s.eventLog R.RED_EVENTS 11 0x12 1 0 x.grad) s
        let s := s.setConv k (some { slot := r.slot, core := c, tile := t, chan := x.chan, grad := x.grad, row := row, col := col,
                                     recs := bs.map (·.1), held := held })
        if held then s.noteHold k x.chan hold else s
  | _, _ => s

def execSliceConvert (d : Die) (q : ConvTurn) (s : State) : Answer := .next (sliceConvert d.val q.cl.val q.ready s)

/-- Add a slice to its bucket; the own contribution is complete with the last one (R221). -/
def State.addSlice (s : State) (c seq n : Nat) (b : BucketEnt) (recs : List BlockRec) : State :=
  let x := (s.chan c).bucket seq
  let sl := x.slices ++ [(n, recs)]
  let full := (s.bucketSlices b seq).all (fun i => sl.any (fun p => p.1 == i))
  s.setChan c ((s.chan c).setBucket { x with slices := sl, ownDone := full, ownAt := if full then some s.time else x.ownAt })

/-- The bucket-table entry and the slice number of the slice that a converter of die `d` offers. -/
def State.offered (s : State) (d : Nat) (v : ConvSlice) : Option (BucketEnt × Nat) :=
  match s.upd.entryOf d v.grad v.row with
  | none => none
  | some (_, e) => (s.red.entryOf v.grad e.first).map (fun b => (b, s.sliceNo b v.row v.col))

/-- A converter that comes to hold the slice it offers, since its channel can accept it no more (R179). -/
def State.holdNow (s : State) (k : Nat) : State :=
  match s.conv k with
  | none => s
  | some v =>
    match s.offered (k / 8) v with
    | none => s
    | some (b, n) =>
      let hold := s.sliceHold v.chan (b.first + n / 4)
      if !v.held && (hold.1 || hold.2) then (s.setConv k (some { v with held := true })).noteHold k v.chan hold else s

/-- Every converter whose channel is full holds its slice. -/
def State.holdsNow (s : State) : State := (List.range 16).foldl State.holdNow s

/-- SLICE_ACCEPT (R218): the channel takes the slice the converter offers, or the converter goes on holding it with its slot (R179);
`cycles` is how long it has held it. A slice of an aborted attempt is released (R225). -/
def sliceAccept (d cl cycles : Nat) (s : State) : State :=
  let k := d * 8 + cl
  match s.conv k with
  | none => s
  | some v =>
    match s.offered d v with
    | none => s
    | some (b, n) =>
      let seq := b.first + n / 4
      let hold := s.sliceHold v.chan seq
      let no := hold.1 || hold.2 || !s.chanOn v.chan
      let s := s.incReg (R.RED_CHk_STALL_CNT v.chan) (if v.held || no then cycles else 0)
      if s.released d v.slot then (s.setConv k none).dropTile d v.core v.tile
      else if no then (s.setConv k (some { v with held := true })).noteHold k v.chan hold
      else
        let s := ((s.addSlice v.chan seq n b v.recs).setConv k none).noteHold k v.chan (false, false)
        ((s.dropTile d v.core v.tile).finishTile d k v.slot).holdsNow

def execSliceAccept (d : Die) (cl : Fin 8) (cycles : Nat) (s : State) : Answer := .next (sliceAccept d.val cl.val cycles s)

end Sys2Proof.Machine
end

