-- ==== Sys2Proof/Machine/Ring.lean ====
section
/-! DEFINITION. Meanings of the reduction ring's commands (R205, R216 to R222) and of FORM. -/

namespace Sys2Proof.Machine

/-! ### Messages (R216) -/

/-- The checks of a message of the right attempt on channel `c`. -/
def State.msgOk (s : State) (c : Nat) (m : RingMsg) : Bool :=
  let n := s.groupN
  let want := (s.red.pos + 2 * n - m.chunk - 2) % n + 1
  decide (m.gid = s.red.gid) && decide (m.n = n) && decide (m.sender = (s.red.pos + n - 1) % n) && decide (m.chunk < n)
    && decide (recsCrc (m.fmt == 15) m.recs = m.crc) && decide (m.channel = c)
    && (match s.red.bucketEnt c m.seq with
      | some b => decide (m.fmt = (if s.wire32 b.tensor then 15 else 14)) && decide (m.tensor = b.tensor)
      | none => false)
    && (if m.phase = 1 then decide (m.contrib = want) else decide (m.phase = 2) && decide (m.contrib = n))

/-- Store a reduced chunk. -/
def State.storeChunk (s : State) (c seq chunk : Nat) (recs : List BlockRec) : State :=
  let x := (s.chan c).bucket seq
  s.setChan c ((s.chan c).setBucket { x with chunks := x.chunks.filter (fun p => p.1 ≠ chunk) ++ [(chunk, recs)] })

/-- RING_MESSAGE (R216): the checks; a gather chunk is stored and passed on, a reduce message waits for the own contribution.
A group of one has no messages (R210). -/
def ringMessage (c : Nat) (m : RingMsg) (s : State) : State :=
  let s := s.takeRx 2 (fun f => f.startsWith (msgBytes m))
  if !s.chanOn c || decide (s.groupN ≤ 1) then s
  else if m.epoch < s.epoch then s.incReg R.RED_STALE_CNT 1
  else if s.epoch < m.epoch ∨ m.step ≠ s.stepNum ∨ m.attempt ≠ s.attNum then s.findAbort 3 c m.seq m.sender
  else if !s.msgOk c m then s.findAbort 4 c m.seq m.sender
  else
    let x := (s.chan c).bucket m.seq
    if m.phase = 1 then
      s.setChan c ((s.chan c).setBucket { x with waiting := x.waiting ++ [m], opened := some (x.opened.getD s.time) })
    else
      let s := s.storeChunk c m.seq m.chunk m.recs
      if (s.red.pos + 1) % s.groupN ≠ m.chunk then s.sendMsg c { m with sender := s.red.pos } else s

def execRingMessage (c : Fin 8) (m : RingMsg) (s : State) : Answer := .next (ringMessage c.val m s)

/-- The first bucket of a channel with a reduce message that waits and its own contribution complete. -/
def ChanSt.hopReady (c : ChanSt) : Option (BucketSt × RingMsg) :=
  c.flight.findSome? (fun b => if b.ownDone then b.waiting.head?.map (fun m => (b, m)) else none)

/-- REDUCE_HOP_ADD (R216): the message's records are summed with the own ones and passed on, or stored as the reduced chunk. -/
def reduceHopAdd (c : Nat) (s : State) : State :=
  match (s.chan c).hopReady with
  | none => s
  | some (x, m) =>
    let s := s.setChan c ((s.chan c).setBucket { x with waiting := x.waiting.drop 1 })
    match s.red.bucketEnt c m.seq with
    | none => s
    | some b =>
      let own := chunkRecs s.groupN m.chunk (s.ownRecs b x)
      if own.length ≠ m.recs.length ∨ (List.zip m.recs own).any (fun p => decide (p.1.scale ≠ p.2.scale)) then
        s.findAbort 4 c m.seq m.sender
      else
        let i := s.wire32 b.tensor
        let recs := (List.zip m.recs own).map (fun p => addRec i p.1 p.2)
        let m := { m with recs := recs, contrib := m.contrib + 1, sender := s.red.pos, crc := recsCrc i recs }
        if m.chunk = s.red.pos then (s.storeChunk c m.seq m.chunk recs).sendMsg c { m with phase := 2 } else s.sendMsg c m

def execReduceHopAdd (c : Fin 8) (s : State) : Answer := .next (reduceHopAdd c.val s)

/-- BUCKET_SEND (R218): the bucket at the send point starts its chunk; the send point advances. -/
def bucketSend (c : Nat) (s : State) : State :=
  let q := (s.chan c).sendPt
  let x := (s.chan c).bucket q
  match s.red.bucketEnt c q with
  | none => s
  | some b =>
    if x.ownDone && s.chanOn c then
      let n := s.groupN
      let s' := s.setChan c (({ s.chan c with sendPt := q + 1 }).setBucket
        { x with sent := true, opened := if n ≤ 1 then x.opened else some (x.opened.getD s.time) })
      let ch := (s.red.pos + n - 1) % n
      if n ≤ 1 then s' else s'.sendMsg c (s.ownMsg c q ch b (chunkRecs n ch (s.ownRecs b x)))
    else s

def execBucketSend (c : Fin 8) (s : State) : Answer := .next (bucketSend c.val s)

/-- What the delivery of a reduced record counts (R229). -/
def State.noteRec (s : State) (r : BlockRec) : State :=
  let nan := (r.list.filter (fun p => decide (p.2 = 1))).length
  let s := s.modCnt (fun k => { k with nan := k.nan + nan, inf := k.inf + (r.list.length - nan), marked := k.marked + r.marked.toNat })
  let s := s.when (!r.list.isEmpty) (fun s => s.event R.RED_EVENTS 7)
  s.when r.marked (fun s => s.event R.RED_EVENTS 8)

/-- The largest finite magnitude of the decoded elements of a record, as an FP32 code (R211). -/
def recAmax (r : BlockRec) : Nat :=
  if r.marked then 0 else FF.fp32.encode (maxFinite ((List.range 1024).map (fun i => f32 (recElem r i))))

/-- BUCKET_DELIVER (R219): the bucket at the deliver point, once reduced, goes to the update unit; its counts and its amax are taken. -/
def bucketDeliver (c : Nat) (s : State) : State :=
  let q := (s.chan c).deliverPt
  let x := (s.chan c).bucket q
  match s.red.bucketEnt c q with
  | none => s
  | some b =>
    if s.reduced b x && !x.delivering && decide (q < (s.chan c).sendPt) then
      let s := s.setChan c ((s.chan c).setBucket { x with delivering := true })
      (List.range (s.bucketLen b q)).foldl (fun s i =>
        let r := s.reducedRec b x i
        (s.noteRec r).foldAmax b.tensor (recAmax r)) s
    else s

def execBucketDeliver (c : Fin 8) (s : State) : Answer := .next (bucketDeliver c.val s)

/-- DEADLINE (R221): a bucket opened DEADLINE ms ago and its own contribution is incomplete. -/
def deadline (c seq : Nat) (s : State) : State :=
  let x := (s.chan c).bucket seq
  if x.opened.isSome ∧ !x.ownDone ∧ 1 < s.groupN then s.findAbort 1 c seq 0xFF else s

def execDeadline (c : Fin 8) (seq : Nat) (s : State) : Answer := .next (deadline c.val seq s)

/-- RING_TIMEOUT (R222): the ring timer of a bucket has run out and it is not reduced. -/
def ringTimeout (c seq : Nat) (s : State) : State :=
  let x := (s.chan c).bucket seq
  match s.red.bucketEnt c seq with
  | some b => if x.ownDone ∧ !s.reduced b x ∧ 1 < s.groupN then s.findAbort 2 c seq 0xFF else s
  | none => s

def execRingTimeout (c : Fin 8) (seq : Nat) (s : State) : Answer := .next (ringTimeout c.val seq s)

/-! ### FORM (R205, R32) -/

/-- The group is formed: the epoch is 0. -/
def State.formGroup (s : State) : State :=
  ((s.modRed (fun r => { r with formed := true })).setRegN R.RED_EPOCH 0).modStp (fun x => { x with decisions := [], seen := [], groupHold := false })

/-- FORM: in IDLE, HELD or HALTED, or on a member that waits undecided. -/
def form (rq : Requester) (v : Word) (s : State) : State :=
  if s.quiet then s.formGroup.resetChannels
  else if decide (s.red.pos ≠ 0) && s.stp.voted && s.stp.isOpen && s.stp.queried then
    let s := s.applyAbort s.stepNum s.stp.attempt 0 0xFF
    let s := (s.closeAttempt .abort s.stepNum s.stp.attempt 0 0xFF false).resetChannels
    (s.modStp (fun x => { x with phase := .idle, due := none, halt := none, nextAtt := none, ready := false })).formGroup
  else s.refuseWrite rq R.RED_CMD v 0

def execForm (rq : Requester) (v : Word) (s : State) : Answer := .next (form rq v s)

end Sys2Proof.Machine
end

