-- ==== Sys2Proof/Machine/HifOps.lean ====
section
/-! DEFINITION. Queue pairs (R302 to R310, R313): entries and their checks, which entry starts next, completion entries. -/

namespace Sys2Proof.Machine

/-! ### Queues and entries -/

def State.queue (s : State) (q : Nat) : QueueSt := SMap.get (fun _ => {}) s.hif.q q
def State.setQueue (s : State) (q : Nat) (x : QueueSt) : State :=
  s.modHif (fun h => { h with q := SMap.set (fun _ => {}) h.q q x })

/-- DEPTH: 0 and 1 count as 2, values above 4,096 as 4,096. -/
def QueueSt.depth (x : QueueSt) : Nat := max 2 (min 4096 (fld x.cfg 12 0))
/-- TYPE: 0 control, 1 data, 2 generation. -/
def QueueSt.kind (x : QueueSt) : Nat := fld x.cfg 30 29
def QueueSt.inWindow (x : QueueSt) : Bool := bitOf x.cfg 28
def QueueSt.vector (x : QueueSt) : Nat := fld x.cfg 21 16
/-- Completions that the host has not consumed. -/
def QueueSt.used (x : QueueSt) : Nat := (x.cqTail + x.depth - x.cqHead) % x.depth
/-- The CQ holds DEPTH - 1 unconsumed entries (R308). -/
def QueueSt.full (x : QueueSt) : Bool := decide (x.depth - 1 ≤ x.used)

def QEnt.op (e : QEnt) : Nat := leAt e.bytes 0 1
def QEnt.fence (e : QEnt) : Bool := (leAt e.bytes 1 1).testBit 0
def QEnt.check (e : QEnt) : Bool := (leAt e.bytes 1 1).testBit 1
def QEnt.signals (e : QEnt) : Bool := (leAt e.bytes 1 1).testBit 2
def QEnt.cid (e : QEnt) : Nat := leAt e.bytes 2 2
def QEnt.target (e : QEnt) : Nat := leAt e.bytes 4 1
def QEnt.opA (e : QEnt) : Nat := leAt e.bytes 8 8
def QEnt.opB (e : QEnt) : Nat := leAt e.bytes 0x10 8
def QEnt.len (e : QEnt) : Nat := leAt e.bytes 0x18 4
def QEnt.opC (e : QEnt) : Nat := leAt e.bytes 0x1C 4
def QEnt.sig (e : QEnt) : Nat := leAt e.bytes 0x20 4
def QEnt.handle (e : QEnt) : Nat := e.opC % 65536
def QEnt.graph (e : QEnt) : Nat := e.opC / 65536 % 256

/-- A signal entry (R231). -/
def signalOf (n : Nat) : Signal := { set := n.testBit 30, counter := bitsOf n 26 16, value := bitsOf n 15 0 }
/-- The queue type an opcode belongs to: 3 for any; none for an unknown opcode (R306). -/
def opKind : Nat → Option Nat
  | 0 => some 3 | 1 => some 1 | 2 => some 1 | 0x10 => some 2 | 0x20 => some 0 | 0x21 => some 0 | 0x22 => some 0 | _ => none

/-- Operands in range, reserved fields zero (R305, R306). -/
def QEnt.fieldsOk (e : QEnt) : Bool :=
  let dat := decide (4 ≤ e.len) && decide (e.len ≤ 16777216) && decide (e.len % 4 = 0)
  decide (leAt e.bytes 1 1 < 8) && decide (leAt e.bytes 5 3 = 0) && decide (leAt e.bytes 0x24 28 = 0)
    && (!(e.signals || decide (e.op = 0x22)) || decide (bitsOf e.sig 29 27 = 0))
    && (match e.op with
      | 1 => dat && inHbm e.opB e.len
      | 2 => dat && inHbm e.opA e.len
      | 0x10 => decide (e.len ≤ 65536) && inHbm e.opB e.len && decide (e.opC < 2 ^ 24)
      | 0x20 => decide (e.opC < 256)
      | 0x21 => decide (bitsOf e.opC 27 16 = 0) && decide (1 ≤ e.opC / 2 ^ 28) && decide (e.opC / 2 ^ 28 ≤ 3)
      | _ => true)

/-- The head of a relayed pod. -/
def State.isHead (s : State) : Bool := s.relayed && decide (s.me = s.ezl.pod.head)
/-- The entry is for this module. -/
def State.targetsMe (s : State) (e : QEnt) : Bool := decide (e.target = 0xFF) || decide (e.target = s.me)

/-- The target is present and permitted (R313): this module, or for a data entry on the head a member of the pod; a member
has no WRITE_HBM. -/
def State.targetOk (s : State) (e : QEnt) : Bool :=
  if s.targetsMe e then !(decide (e.op = 1) && s.viaHead)
  else s.isHead && (decide (e.op = 1) || decide (e.op = 2)) && decide (e.target < podModules s.ezl.pod.size)

/-- The status with which a bad entry completes: the lowest code that applies. -/
def State.entryFault (s : State) (x : QueueSt) (e : QEnt) : Option Nat :=
  match opKind e.op with
  | none => some 1
  | some k =>
    if k ≠ 3 ∧ k ≠ x.kind then some 1
    else if !e.fieldsOk then some 2
    else if !s.targetOk e then some 3
    else none

/-! ### Starting -/

/-- A free DMA engine of a die. -/
def State.freeEngine (s : State) (d : Nat) : Option Nat :=
  (List.range 16).find? (fun i => decide (SMap.get (fun _ => none) s.tsk.dma (d * 16 + i) = none))

/-- A token of the handle is in flight: in the context, or as a started entry of a queue. -/
def State.tokenOut (s : State) (h : Nat) : Bool :=
  (s.ctx h).inTok || s.hif.q.any (fun p => p.2.fetched.any (fun e => e.started && decide (e.op = 0x10) && decide (e.handle = h)))

/-- The index of the entry of a queue that starts next (R304); none while the queue is stalled or disabled. -/
def State.startable (s : State) (q : Nat) : Option Nat :=
  let x := s.queue q
  if !x.en || x.full || !x.ready.isEmpty then none
  else match x.kind with
    | 0 => (match x.fetched with
      | e :: _ => if e.started then none else some 0
      | [] => none)
    | 1 => (match x.fetched.findIdx? (fun e => !e.started) with
      | some i => (match x.fetched[i]? with
        | some e =>
          if e.fence && decide (i ≠ 0) then none
          else if (s.freeEngine 0).isNone && (s.entryFault x e).isNone && decide (e.op ≠ 0) then none
          else some i
        | none => none)
      | none => none)
    | _ => x.fetched.zipIdx.findSome? (fun p =>
        let first := !((x.fetched.take p.2).any (fun e => !e.started && decide (e.op = 0x10) && decide (e.handle = p.1.handle)))
        if !p.1.started && ((s.entryFault x p.1).isSome || decide (p.1.op ≠ 0x10) || (first && !s.tokenOut p.1.handle)) then some p.2
        else none)

/-- The entry that starts next, where it is of opcode `op` and not bad. -/
def State.nextOp (s : State) (q op : Nat) : Option (Nat × QEnt) :=
  match s.startable q with
  | some i => (match (s.queue q).fetched[i]? with
    | some e => if e.op = op ∧ s.entryFault (s.queue q) e = none then some (i, e) else none
    | none => none)
  | none => none

/-- Replace an entry that a queue has fetched. -/
def State.setEnt (s : State) (q i : Nat) (e : QEnt) : State :=
  s.setQueue q { s.queue q with fetched := (s.queue q).fetched.set i e }

/-! ### Completion (R308, R309) -/

/-- The 64 bytes of a CQ entry. -/
def State.cqBytes (s : State) (q : Nat) (phase : Bool) (e : QEnt) : List Byte :=
  let f := e.fin.getD (0, 0, 0, 0)
  leBytes 2 e.cid ++ leBytes 1 q ++ leBytes 1 phase.toNat ++ leBytes 2 e.head ++ leBytes 1 f.1 ++ leBytes 1 s.me ++ leBytes 4 f.2.1
    ++ leBytes 4 f.2.2.1 ++ leBytes 8 e.doneAt ++ (List.range 16).flatMap (fun i => leBytes 2 (e.trims.getD i 0)) ++ leBytes 4 f.2.2.2
    ++ leBytes 4 0

/-- Post the oldest completion that waits, where the CQ has room. -/
def State.postOne (s : State) (q : Nat) : State :=
  let x := s.queue q
  match x.ready with
  | [] => s
  | e :: rest =>
    if x.full then s
    else
      let s := s.hostWrite (x.cq / 4096 * 4096 + 64 * x.cqTail) (s.cqBytes q x.phase e)
      let last := decide (x.cqTail + 1 = x.depth)
      (s.setQueue q { x with ready := rest, cqTail := if last then 0 else x.cqTail + 1, phase := x.phase != last }).raiseVector x.vector

/-- Post every completion that the CQ has room for. -/
def State.postAll (s : State) (q : Nat) : State := (s.queue q).ready.foldl (fun s _ => s.postOne q) s

/-- The signal of an entry, applied as an EXT signal at its completion. -/
def State.entrySignal (s : State) (e : QEnt) : State :=
  if e.signals && e.sig.testBit 31 then s.takeSignal (signalOf e.sig) else s

/-- An entry completes: its signal is applied, its completion is posted or waits for room. -/
def State.completeEntry (s : State) (q i status w8 wC crc : Nat) : State :=
  match (s.queue q).fetched[i]? with
  | none => s
  | some e =>
    let x := s.queue q
    let s := s.setQueue q { x with fetched := x.fetched.eraseIdx i, ready := x.ready ++ [{ e with fin := some (status, w8, wC, crc), doneAt := s.time }] }
    ((s.entrySignal e).postAll q).when (decide (status = 4)) (fun s => s.event R.HIF_EVENTS 3)

/-- The HIF_EVENTS bit of a fault cause (R381). -/
def hifBit : Nat → Nat
  | 1 => 1
  | 2 => 0
  | 4 => 3
  | 5 => 5
  | 6 => 6
  | 7 => 8
  | _ => 0xFF

/-- The class of a fault cause (R384): PARTNER for errors of the host, a CQ not consumed and relay failures, else REFUSED. -/
def hifClass (cause : Nat) : Nat := if cause = 4 ∨ cause = 6 ∨ cause = 7 then 2 else 1

/-- Record a host-interface fault (R314). -/
def State.hifFault (s : State) (cause q detail : Nat) : State :=
  (s.setReg R.HIF_FAULT (packFields [(26, q), (0, cause)])).log 1 (hifClass cause) (hifBit cause) cause detail

/-- One bad entry that would start completes instead. -/
def State.settleOne (s : State) (q : Nat) : State :=
  match s.startable q with
  | none => s
  | some i =>
    match (s.queue q).fetched[i]? with
    | none => s
    | some e =>
      match s.entryFault (s.queue q) e with
      | some st => (s.hifFault 3 q (e.cid + st * 2 ^ 16)).completeEntry q i st 0 0 0
      | none => s

/-- Bad entries complete as their turn comes. -/
def State.settle (s : State) (q : Nat) : State := (s.queue q).fetched.foldl (fun s _ => s.settleOne q) s

/-- Every queue is looked at again: a token or an engine came free. -/
def State.settleAll (s : State) : State := (List.range 64).foldl State.settle s

/-- The started entry of a queue that a launch came from: a LAUNCH entry with its command identifier, a GEN entry of its handle too. -/
def State.findEnt (s : State) (q cid : Nat) (h : Option Nat) : Option Nat :=
  (s.queue q).fetched.findIdx? (fun e => e.started && decide (e.cid = cid) && e.fin.isNone
    && (match h with
      | none => decide (e.op = 0x20)
      | some x => decide (e.op = 0x10) && decide (e.handle = x)))

/-- A launch has been streamed, or could not start (R241, R242): the LAUNCH entry completes; a GEN entry whose launch fails completes with
REFUSED and its token ends. -/
def State.launchOver (s : State) (src : LaunchSrc) (ok : Bool) : State :=
  match src with
  | .command q cid => (match s.findEnt q cid none with
    | some i => (s.completeEntry q i (if ok then 0 else 8) 0 0 0).settle q
    | none => s)
  | .gen q cid h =>
    if ok then s
    else
      let s := s.setCtx h { s.ctx h with inTok := false, sel := none, failed := false }
      (match s.findEnt q cid (some h) with
      | some i => (s.completeEntry q i 8 0 0 0).settle q
      | none => s)
  | _ => s

/-! ### Disabling (R302, R314) -/

/-- Entries not yet started complete with ABORTED. -/
def State.abortUnstarted (s : State) (q : Nat) : State :=
  (s.queue q).fetched.foldl (fun s _ => match (s.queue q).fetched.findIdx? (fun e => !e.started) with
    | some i => s.completeEntry q i 9 0 0 0
    | none => s) s

/-- The queue fetches no further entry. -/
def State.disableQueue (s : State) (q : Nat) : State :=
  let x := s.queue q
  (s.setQueue q { x with en := false, cfg := setBit x.cfg 31 false }).abortUnstarted q

/-- A host error on a request of the module: counted, recorded, logged (R314). -/
def State.hostFault (s : State) (q : Nat) : State := (s.incReg R.HIF_HOST_ERR_CNT 1).hifFault 4 q 0

/-- A host error on a request of a queue counts toward its limit. -/
def State.hostError (s : State) (q : Nat) : State :=
  let s := s.hostFault q
  s.setQueue q { s.queue q with errs := (s.queue q).errs ++ [s.time] }

end Sys2Proof.Machine
end

