-- ==== Sys2Proof/Machine/Streams.lean ====
section
/-! DEFINITION. Graphs and submission (R231, R232, R240 to R243), launches, counters written by software (R234), FLUSH (R247),
deadlock reports (R246) and the duty split (R249, R250). -/

namespace Sys2Proof.Machine

/-! ### Task entries (R231, R232) -/

/-- Bytes of a payload by kind; none for an illegal kind. -/
def payloadLen : Nat → Option Nat
  | 0 => some 0 | 1 => some 64 | 2 => some 24 | 3 => some 32 | 4 => some 48 | 5 => some 16 | 6 => some 0 | _ => none

/-- A target in the range of its kind. -/
def targetOk (kind die t : Nat) : Bool := match kind with
  | 0 => decide (t = 0)
  | 1 => decide (t < 256)
  | 2 => decide (1 ≤ t) && decide (t ≤ 32)
  | 3 => decide (t < 16) && decide (t / 8 = die)
  | 4 => decide (t < 16)
  | 5 => decide (t < 4)
  | 6 => decide (t < 64)
  | _ => false

def waitOf (b : List Byte) (i : Nat) : Option Wait :=
  let c := leAt b (8 + 8 * i + 4) 2
  if c.testBit 15 then some { threshold := leAt b (8 + 8 * i) 4, ext := c.testBit 14, counter := bitsOf c 10 0 } else none

/-- The reserved bits of a wait or a signal entry. -/
def waitClean (b : List Byte) (i : Nat) : Bool := decide (bitsOf (leAt b (8 + 8 * i + 4) 2) 13 11 = 0) && decide (leAt b (8 + 8 * i + 6) 2 = 0)
def signalClean (b : List Byte) (i : Nat) : Bool := decide (bitsOf (leAt b (0x28 + 4 * i) 4) 29 27 = 0)

/-- A task entry from its 64 bytes, with its die. -/
def taskOf (b : List Byte) : Nat × TaskEnt :=
  let kind := leAt b 0 1 % 16
  let die := leAt b 1 1 % 2
  let target := leAt b 2 2
  let len := leAt b 4 4
  let clean := decide (leAt b 0 1 < 16) && decide (leAt b 1 1 < 2) && [0, 1, 2, 3].all (waitClean b) && [0, 1, 2, 3].all (signalClean b)
  (die, { kind := kind, target := target, payLen := len, payAddr := leAt b 0x38 8, waits := [0, 1, 2, 3].filterMap (waitOf b)
          signals := ([0, 1, 2, 3].map (fun i => leAt b (0x28 + 4 * i) 4)).filterMap (fun n =>
            if n.testBit 31 then some (signalOf n) else none)
          malformed := !(clean && targetOk kind die target && decide (payloadLen kind = some len)) })

/-! ### Launches (R240 to R242) -/

/-- Queue a launch: dropped, recorded and logged where the queue is full (R241). -/
def State.addLaunch (s : State) (l : Launch) : State :=
  if s.launchFree then s.modTsk (fun t => { t with launchQ := t.launchQ ++ [l] }) else s.eventLog R.TSK_EVENTS 4 0xA 1 0 l.graph

/-- TSK_LAUNCH (R241). -/
def tskLaunch (rq : Requester) (v : Word) (s : State) : State :=
  s.addLaunch { graph := fld v 7 0, src := match rq with | .kersey c => .firmware c.val | .host => .host }

def execTskLaunch (rq : Requester) (v : Word) (s : State) : Answer := .next (tskLaunch rq v s)

/-- Zero `n` counters from `k`. -/
def State.zeroCounters (s : State) (k n : Nat) : State := (List.range n).foldl (fun s i => s.setCounter (k + i) 0) s

/-- The address a table entry gives, where entry and header lie in HBM. -/
def graphPlace (t a : Nat) : Option Nat := if inHbm t 8 ∧ a ≠ 0 ∧ inHbm a 32 then some a else none

/-- The address of a graph's header: none for no graph, or for one that does not lie in HBM. -/
def State.graphAt (s : State) (g : Nat) : Option Nat :=
  let t := s.pair R.TSK_GRAPH_BASE / 2048 * 2048 + 8 * g
  graphPlace t (s.hbmNum t 8)

/-- A header in its ranges. -/
def headerFits (g : Nat) (b : List Byte) : Bool :=
  let n := leAt b 0 4
  decide (1 ≤ n) && decide (n ≤ 1048576) && decide (leAt b 4 1 = g) && decide (leAt b 5 1 < 2) && decide (leAt b 6 2 = 0)
    && decide (leAt b 8 2 + leAt b 0xA 2 ≤ 1024) && decide (leAt b 0xC 2 + leAt b 0xE 2 ≤ 1024) && decide (leAt b 0x18 8 = 0)
    && inHbm (leAt b 0x10 8) (64 * n)

/-- The header at an address is in its ranges. -/
def State.headerOk (s : State) (g a : Nat) : Bool := headerFits g (s.hbm a 32)

/-- Write the next task of the graph into the window of its die; blocked where that window is full (R242). -/
def State.streamOne (s : State) : State :=
  match s.tsk.streamer with
  | none => s
  | some x =>
    if x.count ≤ x.next then s
    else
      let r := taskOf (s.hbm (x.base + 64 * x.next) 64)
      match s.freeSlot r.1 with
      | none => (s.modTsk (fun t => { t with streamer := some { x with blocked := true } })).when (!x.blocked) (fun s => s.event R.TSK_EVENTS 3)
      | some sl =>
        let s := s.readNotes (x.base + 64 * x.next) 64
        let s := s.setTask (r.1 * 4096 + sl) (some { r.2 with age := s.tsk.age, graph := x.launch.graph, isStep := x.isStep,
                                                               launch := x.launch.src, tag := if x.isStep then x.launch.tag else none })
        let s := s.when r.2.malformed (fun s => s.event R.TSK_EVENTS 7)
        s.modTsk (fun t => { t with age := t.age + 1, streamer := some { x with next := x.next + 1, blocked := false } })

/-- Stream until the graph ends or a window is full. -/
def State.streamFuel : Nat → State → State
  | 0, s => s
  | n + 1, s =>
    match s.tsk.streamer with
    | none => s
    | some x =>
      if x.count ≤ x.next then (s.modTsk (fun t => { t with streamer := none })).launchOver x.launch.src true
      else
        let s' := s.streamOne
        match s'.tsk.streamer with
        | some y => if y.blocked then s' else State.streamFuel n s'
        | none => s'

def State.stream (s : State) : State := match s.tsk.streamer with
  | some x => State.streamFuel (x.count - x.next + 1) s
  | none => s

/-- The tag of a STEP graph: that of its launch, or, launched otherwise, that of the attempt. -/
def State.tagged (s : State) (l : Launch) (b : List Byte) : Launch :=
  { l with tag := l.tag.orElse (fun _ => if leAt b 5 1 = 1 then some (s.stepNum, s.attNum) else none) }

/-- Zero the counter ranges a header names on both dies and make its launch the one being streamed. -/
def State.openStream (s : State) (l : Launch) (b : List Byte) : State :=
  let s := (s.zeroCounters (leAt b 8 2) (leAt b 0xA 2)).zeroCounters (1024 + leAt b 0xC 2) (leAt b 0xE 2)
  s.modTsk (fun t => { t with streamer := some { launch := s.tagged l b, count := leAt b 0 4, base := leAt b 0x10 8, isStep := decide (leAt b 5 1 = 1),
                                                 next := 0, blocked := false } })

/-- Begin with a launch whose graph stands at an address: one that is absent or ill-formed ends it, a good one is streamed (R241). -/
def State.beginAt (s : State) (l : Launch) (at_ : Option Nat) : State := match at_ with
  | none => (s.eventLog R.TSK_EVENTS 6 0xA 1 0 l.graph).launchOver l.src false
  | some a => (s.openStream l (s.hbm a 32)).stream

/-- What the reads of a table entry and of the header it names report. -/
def State.notesAt (s : State) (t : Nat) (h : Option Nat) : State := match h with
  | some a => (s.readNotes t 8).readNotes a 32
  | none => s.readNotes t 8

/-- What the reads of a graph's table entry and header report. -/
def State.graphNotes (s : State) (g : Nat) : State := s.notesAt (s.pair R.TSK_GRAPH_BASE / 2048 * 2048 + 8 * g) (s.graphAt g)

/-- Begin with a launch. -/
def State.beginLaunch (s : State) (l : Launch) : State :=
  (s.graphNotes l.graph).beginAt l ((s.graphAt l.graph).filter (s.headerOk l.graph))

/-- GRAPH_STREAM (R241, R242): the oldest launch, while none is being streamed. -/
def graphStream (s : State) : State :=
  match s.tsk.streamer, s.tsk.launchQ with
  | none, l :: rest =>
    if s.regB R.TSK_CTRL 2 && !s.orderPending && !s.tsk.flushing then (s.modTsk (fun t => { t with launchQ := rest })).beginLaunch l
    else s
  | _, _ => s

def execGraphStream (s : State) : Answer := .next (graphStream s)

/-- STREAM_RESUME (R242). -/
def streamResume (s : State) : State := match s.tsk.streamer with
  | some x => if x.blocked then s.stream else s
  | none => s

def execStreamResume (s : State) : Answer := .next (streamResume s)

/-! ### Counters (R234) -/

/-- REMOTE_SIGNAL: the oldest signal on its way to the other die arrives. -/
def remoteSignal (s : State) : State := match s.tsk.remote with
  | g :: rest => (s.modTsk (fun t => { t with remote := rest })).takeSignal g
  | [] => s

def execRemoteSignal (s : State) : Answer := .next (remoteSignal s)

def State.selCounter (s : State) : Nat := s.regF R.TSK_CNT_SEL 10 0

def execCntValueWrite (_rq : Requester) (v : Word) (s : State) : Answer := .next (s.setCounter s.selCounter v.toNat)
def execCntAddWrite (_rq : Requester) (v : Word) (s : State) : Answer := .next (s.addCounter s.selCounter (fld v 15 0))

/-! ### FLUSH and deadlock (R246, R247) -/

/-- The handle of a generation launch. -/
def LaunchSrc.handle : LaunchSrc → Option Nat
  | .gen _ _ h => some h
  | _ => none

/-- The contexts whose token a flush takes work from. -/
def State.flushHandles (s : State) : List Nat :=
  (s.tsk.launchQ.filterMap (fun l => l.src.handle)) ++ (s.tsk.streamer.elim [] (fun x => x.launch.src.handle.toList))
    ++ s.tsk.win.filterMap (fun p => p.2.bind (fun t => t.launch.handle))

/-- FLUSH (R247). -/
def flush (rq : Requester) (s : State) : State :=
  if s.quiet || decide (s.phaseNow = .serving) then
    let lost := s.tsk.launchQ.map (·.src) ++ (s.tsk.streamer.elim [] (fun x => [x.launch.src]))
    let s := s.flushHandles.foldl (fun s h => s.setCtx h { s.ctx h with failed := true }) s
    let s := s.modTsk (fun t =>
      let t := t.cancel (fun _ => true)
      { t with launchQ := [], streamer := none, flushing := true })
    let s := lost.foldl (fun s l => match l with
      | .command _ _ => s.launchOver l false
      | _ => s) s
    if s.windowsEmpty then s.modTsk (fun t => { t with flushing := false }) else s
  else s.refuseWrite rq R.TSK_CMD 1 0

def execFlush (rq : Requester) (s : State) : Answer := .next (flush rq s)

/-- The first unsatisfied wait of a task. -/
def State.openWait (s : State) (t : TaskEnt) : Option Wait := t.waits.find? (fun w => !s.waitOk w)

/-- The oldest task of a list. -/
def oldestIn (l : List (Nat × TaskEnt)) : Option (Nat × TaskEnt) := l.foldl (fun b p => match b with
    | none => some p
    | some x => if p.2.age < x.2.age then some p else some x) none

/-- The oldest task of a window that waits: one whose waits are not all satisfied, or, where there is none, one that no engine accepts. -/
def State.oldestWaiting (s : State) (d : Nat) : Option (Nat × TaskEnt) :=
  let l := (s.window d).filter (fun p => decide (p.2.prog = .waiting))
  (oldestIn (l.filter (fun p => (s.openWait p.2).isSome))).orElse (fun _ => oldestIn l)

/-- The first wait of a task that is not satisfied, as TSK_DL_INFO names it: for a task that has none the spec names no counter, and the
field is a free value. -/
def State.dlCounter (s : State) (t : TaskEnt) : Nat × State := match s.openWait t with
  | some w => (w.counter, s)
  | none => let x := s.draw; ((Config.freeByte x.1 0).toNat + (Config.freeByte x.1 1).toNat * 256, x.2)

/-- A die is stalled (R246). -/
def State.dieStalled (s : State) (d : Nat) : Bool :=
  !(s.window d).isEmpty && (s.window d).all (fun p => decide (p.2.prog = .waiting))
    && !(s.tsk.remote.any (fun g => decide (g.counter / 1024 = d)))
    && (s.window d).all (fun p =>
      let o := p.2.waits.filter (fun w => !s.waitOk w)
      o.isEmpty || o.any (fun w => !w.ext))

/-- DEADLOCK (R246): the die has been stalled for TIMEOUT µs. -/
def deadlock (d : Nat) (s : State) : State :=
  if s.regF R.TSK_DL_CFG 15 0 ≠ 0 ∧ s.dieStalled d then
    match s.oldestWaiting d with
    | none => s
    | some (sl, t) =>
      let c := s.dlCounter t
      let w := (s.freeSlot d).isNone && (s.tsk.streamer.elim false (·.blocked))
      (c.2.setReg R.TSK_DL_INFO (packFields [(31, d), (30, w.toNat), (16, sl), (0, c.1 % 2048)])).eventLog R.TSK_EVENTS 2 (0xA + d) 4 0
        (sl + c.1 % 2048 * 2 ^ 16)
  else s

def execDeadlock (d : Die) (s : State) : Answer := .next (deadlock d.val s)

/-! ### The duty split (R249, R250) -/

/-- DUTY_SPLIT_WRITE: the modes become pending; contexts that begin a token from here on run after the write. -/
def dutySplitWrite (v : Word) (s : State) : State :=
  let n := s.arr.view + 1
  ((s.setReg R.DUTY_SPLIT (v &&& 0x3FFF#32)).modArr (fun a => { a with view := n })).modTsk
    (fun t => { t with dutyView := n, dutyHeld := s.halted })

def execDutySplitWrite (_rq : Requester) (v : Word) (s : State) : Answer := .next (dutySplitWrite v s)

/-- DUTY_BOUNDARY: outside training, once every token in flight began after the write; for function 1 also where launches wait for it. -/
def dutyBoundary (s : State) : State := (if s.dutyNow then s.dutyBound else s).orderBound

def execDutyBoundary (s : State) : Answer := .next (dutyBoundary s)

end Sys2Proof.Machine
end

