-- ==== Sys2Proof/Machine/Drift.lean ====
section
/-! DEFINITION. Meanings of the drift monitor's commands (chapter 04): calibration reads, fits, trim publication, refresh triggers, host
readback. -/

namespace Sys2Proof.Machine

/-! ### Calibration reads (R106 to R108) -/

/-- The active arrays of a die: those that serve a position of the array map. -/
def State.activeArrays (s : State) (k : Nat) : List Nat :=
  (s.allPos.filter (fun q => q.1 == k)).filterMap (fun q => s.physOf k q.2)

/-- The entries in the admission window. -/
def State.admitWindow (s : State) (k : Nat) : List PassReq := (s.kao k).queue.take (s.lookahead k)

/-- A forward entry of the window waits for cap room. -/
def State.capWait (s : State) (k : Nat) : Bool :=
  (s.admitWindow k).any (fun q =>
    let a := s.reqArrays k q
    s.allIdle k a && !s.capRoom k a.length)

/-- Calibration reads and readbacks running on the die. -/
def State.calRunning (s : State) (k : Nat) : Nat :=
  (s.arr.phys.filter (fun p => decide (p.1 / 1632 = k) && (decide (p.2.use = .calibration) || decide (p.2.use = .readback)))).length

/-- Calibration reads and readbacks at once. -/
def State.calPar (s : State) (k : Nat) : Nat := max 1 (min 16 (s.regF (R.ARR_DRIFT_CTRL k) 12 8))

/-- The conditions of R107 on one array, for a calibration read or a readback segment (R129). -/
def State.monitorMay (s : State) (k a : Nat) : Bool :=
  decide ((s.phys k a).use = .idle) && !((s.admitWindow k).any (fun q => (s.reqArrays k q).contains a))
    && s.capRoom k 1 && !s.capWait k && decide (s.calRunning k < s.calPar k)

/-- The array with the oldest last read; the lower number on a tie. -/
def State.oldestRead (s : State) (k : Nat) (l : List Nat) : Option Nat :=
  l.foldl (fun b a => match b with
    | none => some a
    | some x =>
      if (s.phys k a).lastRead < (s.phys k x).lastRead ∨ ((s.phys k a).lastRead = (s.phys k x).lastRead ∧ a < x) then some a else some x) none

/-- The next array that a calibration read takes: a forced one that is idle, as soon as a slot is free, else one that R107 allows. -/
def State.calNext (s : State) (k : Nat) : Option Nat :=
  let act := s.activeArrays k
  match s.oldestRead k (act.filter (fun a => (s.phys k a).forced && decide ((s.phys k a).use = .idle))) with
  | some a => if s.activeSlots k < s.effCap k then some a else none
  | none => s.oldestRead k (act.filter (fun a => s.monitorMay k a))

/-- CAL_READ_START (R107, R108). -/
def calReadStart (k : Nat) (s : State) : State :=
  if s.regB (R.ARR_DRIFT_CTRL k) 0 then
    match s.calNext k with
    | some a => (s.setPhys k a { s.phys k a with use := .calibration, forced := false, lastRead := s.time }).notePeak k
    | none => s
  else s

def execCalReadStart (k : Kaolin) (s : State) : Answer := .next (calReadStart k.val s)

/-- The cell levels of the 8 calibration columns: the pairs +15, +5, -5, -15. -/
def calLevels : List Nat := [15, 0, 5, 0, 0, 5, 0, 15]
/-- The row counts of the 4 patterns. -/
def calRows : List Nat := [128, 256, 512, 1024]

/-- The 32 codes of a calibration read, 8 per pattern, of the converter's 12 bits with an LSB of 4 level units (R106); a conversion that is
not given has the code of its ideal value. -/
def calCodes (codes : List Nat) : List Nat :=
  (List.range 32).map (fun i => min 4095 (codes.getD i (calRows.getD (i / 8) 0 * calLevels.getD (i % 8) 0 / 4)))

/-- CAL_READ_COMPLETE (R106): the converter's codes, 8 per pattern, and the junction temperature reach the monitor. -/
def calReadComplete (k a : Nat) (codes : List Nat) (t : Word) (s : State) : State :=
  let x := s.phys k a
  if x.use = .calibration then
    s.setPhys k a { x with
      use := .idle, readN := x.readN + 1
      reads := x.reads ++ [{ odd := decide (x.readN % 2 = 1), codes := calCodes codes, t := t }] }
  else s

def execCalReadComplete (k : Kaolin) (a : Nat) (codes : List Nat) (t : Word) (s : State) : Answer :=
  .next (calReadComplete k.val a codes t s)

/-- FORCED_READ (R108): CAL_FORCE ms have passed without a read of an active array. -/
def forcedRead (k a : Nat) (s : State) : State :=
  let x := s.phys k a
  if decide (s.polF (R.ARR_DRIFT_CFG k) 15 0 ≠ 0) && s.regB (R.ARR_DRIFT_CTRL k) 0 && (s.activeArrays k).contains a
      && decide (x.use ≠ .calibration) && !x.forced then
    (s.setPhys k a { x with forced := true }).event (R.ARR_DRIFT_EVENTS k) 8
  else s

def execForcedRead (k : Kaolin) (a : Nat) (s : State) : Answer := .next (forcedRead k.val a s)

/-- CAL_STARVED (R108). -/
def calStarved (k a : Nat) (s : State) : State :=
  if (s.activeArrays k).contains a then s.event (R.ARR_DRIFT_EVENTS k) 9 else s

def execCalStarved (k : Kaolin) (a : Nat) (s : State) : Answer := .next (calStarved k.val a s)

/-! ### The fit (R109) -/

def f32OfNat (n : Nat) : Word := toF32 (XNum.ofNat n)

/-- The points of a read with a positive ideal level: (n * L, 4 * code). -/
def CalRead.points (r : CalRead) : List (Word × Word) :=
  (List.range 4).flatMap (fun p => ((List.range 8).filter (fun c => decide (0 < calLevels.getD c 0))).map (fun c =>
    (f32OfNat (calRows.getD p 0 * calLevels.getD c 0), f32OfNat (4 * r.codes.getD (8 * p + c) 0))))

/-- The readings of one calibration column. -/
def CalRead.column (r : CalRead) (c : Nat) : List Word := (List.range 4).map (fun p => f32OfNat (4 * r.codes.getD (8 * p + c) 0))

def meanF32 (l : List Word) : Word := f32Div (sumF32 l) (f32OfNat l.length)

/-- Slope of the least-squares line of `y` against `x`. -/
def slopeF32 (l : List (Word × Word)) : Word :=
  let n := f32OfNat l.length
  let sx := sumF32 (l.map (·.1))
  let sy := sumF32 (l.map (·.2))
  let sxx := sumF32 (l.map (fun p => f32Mul p.1 p.1))
  let sxy := sumF32 (l.map (fun p => f32Mul p.1 p.2))
  f32Div (f32Sub (f32Mul n sxy) (f32Mul sx sy)) (f32Sub (f32Mul n sxx) (f32Mul sx sx))

/-- Greatest and least of FP32 values. -/
def maxF32 (l : List Word) : Word := l.foldl (fun a b => if XNum.lt (f32 a) (f32 b) then b else a) (l.headD 0)
def minF32 (l : List Word) : Word := l.foldl (fun a b => if XNum.lt (f32 b) (f32 a) then b else a) (l.headD 0)

/-- The fit of an array over the reads of its window; its sums are cleared (R109). DESIGN CHOICE: of an array without a record, g_ref is 1
and delta_ref, eps_v and the Tm of verify are 0; the spec gives none. -/
def PhysSt.fitNow (a : PhysSt) : PhysSt :=
  let pts := a.reads.flatMap CalRead.points
  let g := slopeF32 pts
  let n := f32OfNat pts.length
  let o := f32Div (f32Sub (sumF32 (pts.map (·.2))) (f32Mul g (sumF32 (pts.map (·.1))))) n
  let sq := fun (p : Word × Word) =>
    let d := f32Sub p.2 (f32Add (f32Mul g p.1) o)
    f32Mul d d
  let rho := f32Div (f32Sqrt (f32Div (sumF32 (pts.map sq)) n)) (f32Sqrt (f32Div (sumF32 (pts.map (fun p => f32Mul p.1 p.1))) n))
  let zp := meanF32 (a.reads.flatMap (fun r => CalRead.column r 6))
  let zn := meanF32 (a.reads.flatMap (fun r => CalRead.column r 1))
  let tm := meanF32 (a.reads.map (·.t))
  let h := (a.hist ++ [(g, tm)]).drop ((a.hist.length + 1) - 8)
  let ts := h.map (·.2)
  let wide := XNum.le (XNum.ofNat 5) (f32 (f32Sub (maxF32 ts) (minF32 ts)))
  let tc := if wide then f32Sub 0 (f32Div (slopeF32 (h.map (fun p => (p.2, p.1)))) (meanF32 (h.map (·.1)))) else a.tc
  let c := f32Div (match a.record with | some r => r.gref | none => 0x3F800000) g
  let eps := f32Sqrt (f32Add (f32Mul a.epsV a.epsV) (f32Mul rho rho))
  { a with reads := [], hist := h, tc := tc, fit := some { g := g, dd := f32Sub zp zn, tm := tm, c := c, eps := eps } }

/-- Reads of a window. -/
def State.calWindow (s : State) (k : Nat) : Nat := max 8 (s.polF (R.ARR_DRIFT_CFG k) 31 24)

/-- What a new estimate triggers for the position an array serves (R113, R124). -/
def State.estimateTriggers (s : State) (k a : Nat) : State :=
  let e := (s.phys k a).epsHat
  match (s.allPos.filter (fun q => q.1 == k)).find? (fun q => decide (s.physOf k q.2 = some a)) with
  | none => s
  | some q =>
    let s := s.when (epsAtLeast e (s.errLimit k)) (fun s => s.event (R.ARR_DRIFT_EVENTS k) 10)
    s.when (epsAtLeast e (s.refreshThresh k) && !s.fnHost 6) (fun s => s.queueJob k q.2 3)

/-- ARRAY_FIT (R109). -/
def arrayFit (k a : Nat) (s : State) : State :=
  if s.calWindow k ≤ (s.phys k a).reads.length then (s.setPhys k a (s.phys k a).fitNow).estimateTriggers k a else s

def execArrayFit (k : Kaolin) (a : Nat) (s : State) : Answer := .next (arrayFit k.val a s)

/-! ### Trim publication (R111, R112) -/

/-- A new entry differs from the one in force by more than R111 allows. -/
def trimMoved (n : Nat) (x y : TrimEnt) : Bool :=
  let half : XNum := .fin false 1 (-1)
  XNum.lt ((XNum.ofNat 1).scale (-(n : Int))) ((XNum.div (fp16 y.gain) (fp16 x.gain)).sub (XNum.ofNat 1)).abs
    || XNum.lt half ((fp16 y.off).sub (fp16 x.off)).abs || decide (x.tc ≠ y.tc) || decide (x.t0 ≠ y.t0)

/-- The conditions of R111 for publication. -/
def State.publishDue (s : State) (k : Nat) : Bool :=
  let n := max 1 (s.polF (R.ARR_DRIFT_CFG k) 23 16)
  let now := (s.kao k).bankInForce
  let new := s.trimSet k
  (s.readyList.any (fun x => x.1 == k))
    || (SMap.keys now ++ SMap.keys new).any (fun j =>
      trimMoved n (SMap.get (fun _ => {}) now j) (SMap.get (fun _ => {}) new j))

/-- TRIM_PUBLICATION (R111, R112). -/
def trimPublication (k : Nat) (s : State) : State :=
  if s.regB (R.ARR_DRIFT_CTRL k) 0 && !s.fnHost 6 && ((s.kao k).held).isNone && s.publishDue k then s.publish k else s

def execTrimPublication (k : Kaolin) (s : State) : Answer := .next (trimPublication k.val s)

/-! ### ARR_PROG_CMD -/

/-- A write of ARR_PROG_CMD: the command field over the position. -/
def progWord (cmd pos : Nat) : Word := packFields [(28, cmd), (0, pos % 2048)]

/-- A command for a position absent from the array map, or one the rules refuse, is ignored and logged. -/
def State.refuseProg (s : State) (rq : Requester) (k cmd pos cause : Nat) : State :=
  s.refuseWrite rq (R.ARR_PROG_CMD k) (progWord cmd pos) cause

/-- PUBLISH (R112): only in host-assisted mode of function 6; nothing is published while a bank is held. -/
def publishCmd (rq : Requester) (k pos : Nat) (s : State) : State :=
  if s.fnHost 6 then (if s.regB (R.ARR_DRIFT_CTRL k) 0 && ((s.kao k).held).isNone then s.publish k else s)
  else s.refuseProg rq k 2 pos 1

def execPublish (rq : Requester) (k : Kaolin) (pos : Nat) (s : State) : Answer := .next (publishCmd rq k.val pos s)

/-- REFRESH (R113, R114). -/
def refreshCmd (rq : Requester) (k pos : Nat) (s : State) : State :=
  if (s.posMat k pos).isSome then s.queueJob k pos 3 else s.refuseProg rq k 1 pos 0

def execRefresh (rq : Requester) (k : Kaolin) (pos : Nat) (s : State) : Answer := .next (refreshCmd rq k.val pos s)

/-- The job queued for a position is one that LOAD calls for. -/
def State.markLoad (s : State) (d p : Nat) : State :=
  s.setKao d { s.kao d with jobs := (s.kao d).jobs.map (fun j => if j.pos = p then { j with load := true } else j) }

/-- LOAD (R132): for a position that waits for codes from the host. -/
def loadCmd (rq : Requester) (k pos : Nat) (s : State) : State :=
  if (s.posMat k pos).isNone then s.refuseProg rq k 3 pos 0
  else if (s.pos k pos).unconf && (s.pos k pos).waitHost then (s.queueJob k pos 1).markLoad k pos
  else s.refuseProg rq k 3 pos 1

def execLoad (rq : Requester) (k : Kaolin) (pos : Nat) (s : State) : Answer := .next (loadCmd rq k.val pos s)

/-- READBACK (R127, R129): 130 segments of the position's array are to be read, 1,024 data rows and 16 metadata rows. -/
def readbackCmd (rq : Requester) (k pos : Nat) (s : State) : State :=
  if (s.posMat k pos).isNone then s.refuseProg rq k 4 pos 0
  else s.setPos k pos { s.pos k pos with readback := 1040 }

def execReadback (rq : Requester) (k : Kaolin) (pos : Nat) (s : State) : Answer := .next (readbackCmd rq k.val pos s)

/-- The address of physical column `m` of row `r` of a position in the diagnostic readback area. -/
def State.diagAddr (s : State) (k pos r m : Nat) : Nat := s.arr.diag + ((k * 1536 + pos) * 1040 + r) * 1024 + m

/-- The drift monitor wants an array for a calibration read, which goes before a readback (R100, R108). -/
def State.calWants (s : State) (k a : Nat) : Bool :=
  (s.phys k a).forced || (s.regB (R.ARR_DRIFT_CTRL k) 0 && decide (s.calNext k = some a))

/-- READBACK_SEGMENT (R127, R129): the next 8 rows; `lv` lists the conversions, in units of 1/32 level by row of the segment * 1024 +
physical column, that differ from those of ideal cells. Each is rounded to the nearest quarter level. -/
def readbackSegment (k pos : Nat) (lv : List (Nat × Nat)) (s : State) : State :=
  let p := s.pos k pos
  match s.physOf k pos with
  | some a =>
    if 0 < p.readback ∧ s.monitorMay k a ∧ !s.calWants k a then
      let x := s.phys k a
      let r0 := 1040 - p.readback
      let s := (s.setPhys k a { x with use := .readback }).notePeak k
      let s := s.setPhys k a { s.phys k a with use := .idle }
      let bytes := (List.range 8192).map (fun i =>
        byteOf (nearQuarter ((SMap.find lv i).getD (32 * x.rowLevel (r0 + i / 1024) (i % 1024)))))
      (s.hbmWrite (s.diagAddr k pos r0 0) bytes).setPos k pos { p with readback := p.readback - 8 }
    else s
  | none => s

def execReadbackSegment (k : Kaolin) (pos : Nat) (lv : List (Nat × Nat)) (s : State) : Answer := .next (readbackSegment k.val pos lv s)

/-- Seconds of powered age of an image. -/
def State.imageAge (s : State) (k pos : Nat) : Nat := match (s.physAt k pos).record with
  | some r => (s.reg R.PWR_POWERED).toNat - r.powered
  | none => 0

/-- REFRESH_AGE_EXPIRY (R113): class 4, in hardware mode of function 6. -/
def refreshAgeExpiry (k pos : Nat) (s : State) : State :=
  let days := s.polF (R.ARR_REFRESH_CFG k) 15 8
  if (s.posMat k pos).isSome ∧ days ≠ 0 ∧ days * 86400 ≤ s.imageAge k pos ∧ !s.fnHost 6 then s.queueJob k pos 4 else s

def execRefreshAgeExpiry (k : Kaolin) (pos : Nat) (s : State) : Answer := .next (refreshAgeExpiry k.val pos s)

end Sys2Proof.Machine
end

