-- ==== Sys2Proof/Machine/Tasks.lean ====
section
/-! DEFINITION. Dispatch (R237 to R239) and completion (R234, R236, R244) of tasks, and the end of a KERSEY call (R324). -/

namespace Sys2Proof.Machine

/-! ### What each kind needs (R239) -/

/-- The cluster can accept a descriptor: every descriptor it has is handed out, and an enabled core is free. -/
def State.clusterFree (s : State) (d c : Nat) : Bool :=
  s.regB (R.MXE_CTRL d) 0 && (s.cluster (d * 8 + c)).all (fun r => decide (r.desc.tiles ≤ r.next))
    && (List.range 16).any (fun i => s.coreOn d (16 * c + i) && !s.coreBusy d (16 * c + i))

/-- The lowest cluster of a mask that can accept; mask 0 is every cluster. -/
def State.pickCluster (s : State) (d mask : Nat) : Option Nat :=
  (List.range 8).find? (fun c => (decide (mask = 0) || mask.testBit c) && s.clusterFree d c)

/-- The free enabled units of a die, in ascending order. -/
def State.freeUnits (s : State) (d : Nat) : List Nat :=
  (List.range 32).filter (fun u => s.regB (R.VEC_UNIT_EN d) u && (s.unit (d * 32 + u)).slot.isNone)

/-- Bytes of the input buffer of a Kaolin die that input records hold: one record per task (R98). -/
def State.inputHeld (s : State) (k : Nat) : Nat :=
  let x := s.kao k
  let l := x.link ++ x.queue ++ x.running.map (·.req)
  (l.foldl (fun (a : List (Nat × Nat) × Nat) q =>
    if a.1.contains (q.die, q.slot) then a else (a.1 ++ [(q.die, q.slot)], a.2 + q.input.length)) ([], 0)).2

/-- The input record of an ARRAY task: as many bytes as the matrix and the chain call for. -/
def State.arrayInput (s : State) (k : Nat) (pay : List Byte) : List Byte :=
  let a := leAt pay 0 8
  match s.matAt k (leAt pay 0x10 2) with
  | some e => s.hbm a (e.recBytes (leAt pay 0x12 1))
  | none => []

/-- The die link takes the requests of an ARRAY task (R98, R239). -/
def State.linkFree (s : State) (k : Nat) (pay : List Byte) : Bool :=
  (s.kao k).link.isEmpty && decide ((s.kao k).queue.length < 4096)
    && decide (s.inputHeld k + (s.arrayInput k pay).length ≤ 4194304)

/-- The prefetcher that a DMA payload names, for a STREAM. -/
def streamOf (pay : List Byte) : Option Nat := if leAt pay 0 1 % 8 = 1 then some (leAt pay 1 1 % 64) else none

/-- A prefetcher of a die runs a stream, or a dispatched STREAM task that an engine holds names it (R258). -/
def State.pfTaken (s : State) (d p : Nat) : Bool :=
  (SMap.get (fun _ => none) s.mem.pf (d * 64 + p)).elim false (fun x => x.slot.isSome)
    || s.tsk.dma.any (fun x => decide (x.1 / 16 = d) && x.2.elim false (fun sl =>
      (s.task (d * 4096 + sl)).elim false (fun t => decide (streamOf (s.hbm t.payAddr 48) = some p))))

/-- The engine of a task can accept it. -/
def State.canAccept (s : State) (d : Nat) (t : TaskEnt) : Bool :=
  if t.malformed then true
  else match t.kind with
    | 1 => (s.pickCluster d t.target).isSome
    | 2 => decide (t.target ≤ (s.freeUnits d).length)
    | 3 => s.linkFree t.target (s.hbm t.payAddr 32)
    | 4 => s.regB R.MEM_CTRL 0 && decide (SMap.get (fun _ => none) s.tsk.dma (d * 16 + t.target) = none)
        && (match streamOf (s.hbm t.payAddr 48) with
          | some p => !(s.pfTaken d p)
          | none => true)
    | 5 => (((s.irqD d).coreOf t.target).task).isNone
    | _ => true

/-! ### Dispatch (R237, R238) -/

/-- The task that is dispatched next for an engine class: in hardware mode the oldest ready one whose engine can accept it; in
host-assisted mode of function 1 the oldest undispatched task of the die, once it is ready. -/
def State.nextTask (s : State) (d kind : Nat) : Option (Nat × TaskEnt) :=
  let w := (s.window d).filter (fun p => decide (p.2.prog = .waiting))
  let ok := fun (p : Nat × TaskEnt) => decide (p.2.kind = kind) && s.taskReady p.2 && s.canAccept d p.2
  if s.fnHost 1 then (oldestIn w).filter ok else oldestIn (w.filter ok)

/-- The number under which a task's work runs: its context's, or the present one. -/
def State.taskView (s : State) (t : TaskEnt) : Nat × Nat := match t.launch with
  | .gen _ _ h => ((s.ctx h).view, (s.ctx h).seq)
  | _ => (s.arr.view, (s.reg R.STEP_IMG_SEQ).toNat)

/-- The group requests of an ARRAY task, in ascending combine-group order. -/
def State.arrayReqs (s : State) (d slot : Nat) (t : TaskEnt) (pay : List Byte) : List PassReq :=
  let k := t.target
  let idx := leAt pay 0x10 2
  let v := s.taskView t
  let q := fun (cb g off : Nat) => PassReq.mk idx cb g v.1 v.2 t.isStep d slot (leAt pay 0x12 1) (s.arrayInput k pay) (leAt pay 8 8 + off) 0
  match s.matAt k idx with
  | some e => (List.range e.cbs).flatMap (fun cb => (List.range e.groups).map (fun g => q cb g (e.resultOff (512 * cb) g)))
  | none => [q 0 0 0]

/-- Load a program into a unit unless it is resident, and start it (R239). -/
def State.startUnit (s : State) (d u slot addr n base : Nat) : State :=
  let x := s.unit (d * 32 + u)
  let same := decide (x.resident = some addr) && decide (x.ibuf.length = n)
  let code := if same then x.ibuf else (List.range n).map (fun i => s.hbmNum (addr + 8 * i) 8)
  let s := s.when (!same) (fun s => s.taskRead d slot [(addr, 8 * n)])
  s.setUnit (d * 32 + u) { x with ibuf := code, resident := some addr, base := base % 2 ^ 32, pc := 0, slot := some slot, bar := none, past := [] }

/-- A TWILL payload without a legal program, or with a reserved field that is not zero. -/
def twillBad (pay : List Byte) : Bool :=
  let n := leAt pay 8 2
  decide (n = 0) || decide (2048 < n) || decide (leAt pay 0xA 2 ≠ 0) || decide (leAt pay 0x14 4 ≠ 0)
    || !(inHbm (leAt pay 0 8) (8 * n))

/-- A malformed entry ends without any work (R232). -/
def State.endMalformed (s : State) (d slot : Nat) : State := (s.event R.TSK_EVENTS 7).endTask d slot true

/-- A TWILL task starts on the lowest free units. -/
def State.startTwill (s : State) (d slot : Nat) (t : TaskEnt) : State :=
  let pay := s.hbm t.payAddr 24
  if twillBad pay then s.endMalformed d slot
  else
    let us := (s.freeUnits d).take t.target
    let s := s.modVec (fun v => { v with status := SMap.set (fun _ => 0) v.status (d * 4096 + slot) 0 })
    us.zipIdx.foldl (fun s p => s.startUnit d p.1 slot (leAt pay 0 8) (leAt pay 8 2) (leAt pay 0xC 4 + p.2 * leAt pay 0x10 4)) s

/-- An ARRAY task sends its group requests over the die link. -/
def State.startArray (s : State) (d slot : Nat) (t : TaskEnt) : State :=
  let pay := s.hbm t.payAddr 32
  if leAt pay 0x13 13 ≠ 0 then s.endMalformed d slot
  else
    let r := s.arrayReqs d slot t pay
    let s := s.noteRead d (leAt pay 0 8) (s.arrayInput t.target pay).length
    let s := s.setTask (d * 4096 + slot) (some { t with prog := .running, remain := r.length })
    let s := s.taskRead d slot [(leAt pay 0 8, (s.arrayInput t.target pay).length)]
    s.setKao t.target { s.kao t.target with link := (s.kao t.target).link ++ r }

/-- The first backward product of an attempt begins its backward pass. -/
def State.notePhase (s : State) (t : TaskEnt) (mode : Nat) : State :=
  if s.ofAttempt (some t) && decide (s.stp.phase = .forward) && (decide (mode = 1) || decide (mode = 2) || decide (mode = 4)) then
    s.modStp (fun x => { x with phase := .backward })
  else s

/-- A MATRIX task gives its descriptor to a cluster; one of the attempt with the gradient formats of the step (R76, R77). -/
def State.startMatrix (s : State) (d slot : Nat) (t : TaskEnt) : State :=
  match s.pickCluster d t.target with
  | none => s
  | some c =>
    let x0 := descOf (s.hbm t.payAddr 64)
    let own := s.ofAttempt (some t)
    let x := if own then s.stepDesc x0 else x0
    let s := s.when own (fun s => s.noteGrad d x0 x)
    (s.setCluster (d * 8 + c) (s.cluster (d * 8 + c) ++ [{ desc := x, slot := slot, next := 0, done := 0 }])).notePhase t x.mode

/-- A KERSEY task calls the firmware of its core (R324). -/
def State.startKersey (s : State) (d slot : Nat) (t : TaskEnt) : State :=
  let pay := s.hbm t.payAddr 16
  if leAt pay 0xC 4 ≠ 0 then s.endMalformed d slot
  else
    let q := s.irqD d
    (s.setIrq d (q.setCore t.target { q.coreOf t.target with karg := leAt pay 4 8, entry := leAt pay 0 4, task := some slot })).irqFire d
      (432 + t.target)

/-- The copy that a token's first task reads state from is fixed (R391). -/
def State.noteToken (s : State) (t : TaskEnt) : State := match t.launch with
  | .gen _ _ h => if (s.ctx h).sel.isNone then s.setCtx h { s.ctx h with sel := some s.stp.copySel } else s
  | _ => s

/-- Hand a task to its engine. -/
def State.startTask (s : State) (d slot : Nat) (t : TaskEnt) : State :=
  if t.malformed then s.endTask d slot true
  else match t.kind with
    | 1 => s.startMatrix d slot t
    | 2 => s.startTwill d slot t
    | 3 => s.startArray d slot t
    | 4 => s.modTsk (fun x => { x with dma := SMap.set (fun _ => none) x.dma (d * 16 + t.target) (some slot) })
    | 5 => s.startKersey d slot t
    | 6 => s.raiseVector t.target
    | _ => s.endTask d slot false

/-- A dispatched task as its payload is read. DESIGN CHOICE: one whose payload holds an uncorrectable unit ends with error status (R254)
without any work. -/
def State.readPayload (s : State) (d slot : Nat) (t : TaskEnt) : State :=
  let n := if t.malformed then 0 else t.payLen
  let s' := s.readNotes t.payAddr n
  if (s.mem.badIn t.payAddr n).isEmpty then (s'.noteToken t).startTask d slot t else s'.endTask d slot true

/-- TASK_DISPATCH (R237 to R239). -/
def taskDispatch (d kind : Nat) (s : State) : State :=
  if s.regB R.TSK_CTRL 0 then
    match s.nextTask d kind with
    | none => s
    | some (slot, t) =>
      let t' := { t with prog := TaskProg.running, remain := if t.kind = 2 then t.target else 0 }
      let s := (s.setTask (d * 4096 + slot) (some t')).incPair (R.TSK_DISPATCH_CNT d) 1
      s.readPayload d slot t'
  else s

def execTaskDispatch (d : Die) (kind : Fin 16) (s : State) : Answer := .next (taskDispatch d.val kind.val s)

/-! ### Completion (R236) -/

/-- How a task has ended, if it has: a HOST task once the message of its vector has been issued. -/
def State.taskOver (s : State) (t : TaskEnt) : Option Bool := match t.prog with
  | .done e => some e
  | .running =>
    if t.kind = 6 ∧ !t.malformed then
      (if (s.irqD 0).pend.getLsbD (448 + t.target) || (s.irqD 0).host.getLsbD (448 + t.target) then none else some false)
    else none
  | .waiting => none

/-- No MATRIX task of the attempt is left, in a window or still to stream. -/
def State.matrixOver (s : State) : Bool :=
  !(s.tsk.win.any (fun p => s.ofAttempt p.2 && (match p.2 with | some t => decide (t.kind = 1) | none => false)))
    && !(s.tsk.streamer.elim false (fun x => x.isStep)) && !(s.tsk.launchQ.any (fun l => l.tag.isSome))

/-- TASK_COMPLETE. -/
def taskComplete (d slot : Nat) (s : State) : State :=
  match s.task (d * 4096 + slot) with
  | none => s
  | some t =>
    match s.taskOver t with
    | none => s
    | some err =>
      let back := decide (t.kind = 1) && s.ofAttempt (some t) && decide (s.stp.phase = .backward)
      let s := s.completeTask d slot t err
      if back && s.matrixOver then s.modStp (fun x => { x with phase := .update }) else s

def execTaskComplete (d : Die) (slot : Fin 4096) (s : State) : Answer := .next (taskComplete d.val slot.val s)

/-- KDONE (R324): the KERSEY task of a core ends; without one the write is ignored and logged. -/
def kdone (rq : Requester) (d c : Nat) (err : Bool) (s : State) : State :=
  let q := s.irqD d
  match (q.coreOf c).task with
  | some slot => (s.setIrq d (q.setCore c { q.coreOf c with task := none })).endTask d slot err
  | none => s.eventLog (R.IRQ_EVENTS d) 2 (2 + d) 1 0 (writeDetail rq (R.IRQ_Cc_KDONE d c) (BitVec.ofNat 32 err.toNat))

def execKdone (rq : Requester) (d : Die) (core : Fin 4) (err : Bool) (s : State) : Answer := .next (kdone rq d.val core.val err s)

end Sys2Proof.Machine
end

