-- ==== Sys2Proof/Machine/Dma.lean ====
section
/-! DEFINITION. DMA tasks and stream prefetchers (R256 to R258, R262). -/

namespace Sys2Proof.Machine

/-! ### Payloads (R256) -/

/-- A DMA payload. -/
structure DmaPay where
  op : Nat := 0
  append : Bool := false
  strip : Bool := false
  pf : Nat := 0
  len : Nat := 0
  src : Nat := 0
  dst : Nat := 0
  stride : Nat := 0
  rows : Nat := 1
  handle : Nat := 0
  layer : Nat := 0
  silt : Bool := false
  first : Nat := 0
  count : Nat := 0
  clean : Bool := true
deriving DecidableEq, Repr

def dmaOf (b : List Byte) : DmaPay :=
  let o := leAt b 0 1
  let h := leAt b 0x20 4
  { op := o % 8, append := o.testBit 3, strip := o.testBit 4, pf := leAt b 1 1 % 64, len := leAt b 4 4, src := leAt b 8 8
    dst := leAt b 0x10 8, stride := leAt b 0x18 4, rows := max 1 (leAt b 0x1C 4), handle := bitsOf h 15 0, layer := bitsOf h 22 16
    silt := h.testBit 23, first := leAt b 0x24 4, count := leAt b 0x28 4
    clean := decide (o < 32) && (if o % 8 = 1 then decide (leAt b 1 1 < 64) else decide (leAt b 1 1 = 0)) && decide (leAt b 2 2 = 0)
      && decide (bitsOf h 31 24 = 0) && decide (leAt b 0x2C 4 = 0) }

/-- The task that a DMA engine runs: its slot and its payload. -/
def State.dmaTask (s : State) (d e : Nat) : Option (Nat × DmaPay) :=
  match SMap.get (fun _ => none) s.tsk.dma (d * 16 + e) with
  | some slot => (match s.task (d * 4096 + slot) with
    | some t => some (slot, dmaOf (s.hbm t.payAddr 48))
    | none => none)
  | none => none

/-- The engine is free again. -/
def State.freeDma (s : State) (d e : Nat) : State :=
  s.modTsk (fun x => { x with dma := SMap.set (fun _ => none) x.dma (d * 16 + e) none })

/-- A DMA task ends. -/
def State.endDma (s : State) (d e slot : Nat) (err : Bool) : State := (s.freeDma d e).endTask d slot err

/-- A DMA fault: recorded, and the task ends with error status (R257). -/
def State.dmaFault (s : State) (d e slot cause : Nat) : State :=
  ((s.setReg (R.MEM_DMA_FAULT d) (packFields [(28, e), (0, cause)])).event R.MEM_EVENTS 1).endDma d e slot true

/-- The fault of a payload before any transfer: illegal operation, or a reserved field that is not zero. -/
def DmaPay.fault (p : DmaPay) : Option Nat := if 5 ≤ p.op then some 1 else if !p.clean then some 3 else none

/-- The lines of a payload's rows: `n` bytes each from the source, at the stride, or one after the other. -/
def DmaPay.rowAt (p : DmaPay) (n i : Nat) : Nat := p.src + i * (if p.stride = 0 then n else p.stride)

/-! ### Check options (R257, R310) -/

/-- The bytes to write, and whether the check failed: the last 4 bytes stripped and compared, the CRC-32C appended. -/
def DmaPay.checked (p : DmaPay) (bs : List Byte) : List Byte × Bool :=
  let body := if p.strip then bs.take (bs.length - 4) else bs
  let bad := p.strip && decide (ofLe (bs.drop (bs.length - 4)) ≠ crc32c body ∨ bs.length < 4)
  (if p.append then body ++ leBytes 4 (crc32c body) else body, bad)

/-- How many bytes a transfer of `n` source bytes writes. -/
def DmaPay.outLen (p : DmaPay) (n : Nat) : Nat := (if p.strip then n - 4 else n) + if p.append then 4 else 0

/-- The end of a transfer whose bytes are written: a failed check is a fault. -/
def State.dmaEnd (s : State) (d e slot : Nat) (bad : Bool) : State := if bad then s.dmaFault d e slot 4 else s.endDma d e slot false

/-- The source rows of a COPY: the bytes, the state after, whether an uncorrectable unit was met. -/
def State.readRows (s : State) (d : Nat) (p : DmaPay) (n : Nat) : List Byte × State × Bool :=
  (List.range p.rows).foldl (fun a i =>
    let r := a.2.1.hbmRead (p.rowAt n i) n
    (a.1 ++ r.1, r.2.1.noteRead d (p.rowAt n i) n, a.2.2 || r.2.2)) ([], s, false)

def DmaPay.rowsInHbm (p : DmaPay) (n : Nat) : Bool := inHbm (p.rowAt n 0) n && inHbm (p.rowAt n (p.rows - 1)) n

/-- DMA_COPY (R257): the rows of the source go to the destination, one after the other. -/
def dmaCopy (d e : Nat) (s : State) : State :=
  match s.dmaTask d e with
  | none => s
  | some (slot, p) =>
    match p.fault with
    | some c => s.dmaFault d e slot c
    | none =>
      if p.op ≠ 0 then s
      else if !p.rowsInHbm p.len || !inHbm p.dst (p.outLen (p.len * p.rows)) then s.dmaFault d e slot 2
      else
        let r := s.readRows d p p.len
        if r.2.2 then r.2.1.endDma d e slot true
        else
          let w := p.checked r.1
          (r.2.1.hbmWrite p.dst w.1).dmaEnd d e slot w.2

def execDmaCopy (d : Die) (e : Fin 16) (s : State) : Answer := .next (dmaCopy d.val e.val s)

/-! ### Spill (R262) -/

/-- A host address range of a die's spill buffer; members of a relayed pod have none (R313). -/
def State.spillOk (s : State) (d a n : Nat) : Bool :=
  let b := s.pair (R.MEM_SPILL_BASE d) / 4096 * 4096
  decide (b ≤ a) && decide (a + n ≤ b + s.spillSize d)

/-- DMA_SPILL_OUT: a stash record goes to the spill buffer in host memory. -/
def dmaSpillOut (d e : Nat) (s : State) : State :=
  match s.dmaTask d e with
  | none => s
  | some (slot, p) =>
    match p.fault with
    | some c => s.dmaFault d e slot c
    | none =>
      if p.op ≠ 2 then s
      else if !inHbm p.src p.len || !s.spillOk d p.dst (p.outLen p.len) then s.dmaFault d e slot 2
      else if !s.hif.linkUp then s.dmaFault d e slot 5
      else
        let r := s.hbmRead p.src p.len
        if r.2.2 then r.2.1.endDma d e slot true
        else
          let w := p.checked r.1
          ((r.2.1.noteRead d p.src p.len).hostWrite p.dst w.1).dmaEnd d e slot w.2

def execDmaSpillOut (d : Die) (e : Fin 16) (s : State) : Answer := .next (dmaSpillOut d.val e.val s)

/-- DMA_SPILL_IN: the bytes the host returns for a spilled record, or its error. -/
def dmaSpillIn (d e : Nat) (data : List Byte) (err : Bool) (s : State) : State :=
  match s.dmaTask d e with
  | none => s
  | some (slot, p) =>
    match p.fault with
    | some c => s.dmaFault d e slot c
    | none =>
      if p.op ≠ 3 then s
      else if !s.spillOk d p.src p.len || !inHbm p.dst (p.outLen p.len) then s.dmaFault d e slot 2
      else if err || !s.hif.linkUp then (s.when err (fun s => s.hostFault 0)).dmaFault d e slot 5
      else
        let w := p.checked (sliceB data 0 p.len)
        (s.hbmWrite p.dst w.1).dmaEnd d e slot w.2

def execDmaSpillIn (d : Die) (e : Fin 16) (data : List Byte) (err : Bool) (s : State) : Answer :=
  .next (dmaSpillIn d.val e.val data err s)

/-! ### Streams (R258) -/

/-- A handle's entry of the handle table (R267). -/
def State.handleAddr (s : State) (h : Nat) : Nat := s.pair R.MEM_SILT_TBL / 4096 * 4096 + 32 * h
def State.handleState (s : State) (h : Nat) : Nat := s.hbmNum (s.handleAddr h) 1
def State.handleLayers (s : State) (h : Nat) : Nat := s.hbmNum (s.handleAddr h + 1) 1
def State.handleTokens (s : State) (h : Nat) : Nat := s.hbmNum (s.handleAddr h + 4) 4
def State.handleRows (s : State) (h : Nat) : Nat := s.hbmNum (s.handleAddr h + 8) 4
def State.handleDir (s : State) (h : Nat) : Nat := s.hbmNum (s.handleAddr h + 0x10) 8

/-- The page entry of a handle's row and layer: where it lies, and its value. -/
def State.pageAddr (s : State) (h row layer : Nat) : Nat := s.handleDir h + row * (4 * s.handleLayers h) + 4 * layer
def State.pageEnt (s : State) (h row layer : Nat) : Nat := s.hbmNum (s.pageAddr h row layer) 4

/-- Where page slot `i` of a die lies (R264). -/
def State.slotAddr (s : State) (d i : Nat) : Nat := s.pair (R.MEM_SILT_AREA d) / 4096 * 4096 + i * 81920
def pageDie (n : Nat) : Nat := bitsOf n 30 30
def pageSlot (n : Nat) : Nat := bitsOf n 21 0

/-- The directory rows of a token range: none for an empty one. -/
def DmaPay.pageRows (p : DmaPay) : List Nat :=
  if p.count = 0 then [] else (List.range ((p.first + p.count + 63) / 64 - p.first / 64)).map (fun i => p.first / 64 + i)

/-- Where the pages of a SILT stream lie that are on its own die. -/
def State.streamPages (s : State) (d : Nat) (p : DmaPay) : List Nat :=
  p.pageRows.filterMap (fun r =>
    let n := s.pageEnt p.handle r p.layer
    if n.testBit 31 && decide (pageDie n = d) then some (s.slotAddr d (pageSlot n)) else none)

/-- The 256-byte lines of a stream, each once: its rows by address, or the Silt pages on its own die, header and records. -/
def State.streamLines (s : State) (d : Nat) (p : DmaPay) : List Nat :=
  if p.silt then (s.streamPages d p).flatMap (fun a => (List.range 301).map (fun k => a / 256 + k))
  else ((List.range p.rows).flatMap (fun i =>
    let a := p.rowAt 256 i
    (List.range ((a + 511) / 256 - a / 256)).map (fun k => a / 256 + k))).dedup

/-- What a STREAM task itself reads of a SILT stream: the handle's entry and its page entries. -/
def State.streamReads (s : State) (p : DmaPay) : List (Nat × Nat) :=
  if p.silt then (s.handleAddr p.handle, 32) :: p.pageRows.map (fun r => (s.pageAddr p.handle r p.layer, 4)) else []

/-- DMA_STREAM: the stream goes to its prefetcher and the engine is free; with PF_EN 0, or nothing to fetch, the task ends at once. -/
def dmaStream (d e : Nat) (s : State) : State :=
  match s.dmaTask d e with
  | none => s
  | some (slot, p) =>
    match p.fault with
    | some c => s.dmaFault d e slot c
    | none =>
      if p.op ≠ 1 then s
      else if !p.silt && !p.rowsInHbm 256 then s.dmaFault d e slot 2
      else
        let l := s.streamLines d p
        let short := if p.silt then (s.streamPages d p).map (fun a => a / 256 + 300) else []
        let s := s.taskRead d slot (s.streamReads p)
        if !(s.regB R.MEM_CTRL 1) || l.isEmpty then s.endDma d e slot false
        else
          let x : StreamSt := { lines := l, short := short, lead := p.len * 1024, die := d, slot := some slot }
          (s.freeDma d e).modMem (fun m => { m with pf := SMap.set (fun _ => none) m.pf (d * 64 + p.pf) (some x) })

def execDmaStream (d : Die) (e : Fin 16) (s : State) : Answer := .next (dmaStream d.val e.val s)

/-- Lines that the stream partition of a die has, and lines resident in it (R255). -/
def State.pfRoom (s : State) (d : Nat) : Nat := min 12 (s.regF (R.MEM_CACHE_CFG d) 3 0) * 56320
def State.pfHeld (s : State) (d : Nat) : Nat :=
  (s.mem.pf.map (fun p => if p.1 / 64 = d then p.2.elim 0 StreamSt.resident else 0)).sum

/-- The index of the lowest line of a stream that no consumer has read. -/
def StreamSt.unread (x : StreamSt) : Nat := ((List.range x.lines.length).find? (fun i => !x.done.contains i)).getD x.lines.length

/-- PREFETCHER_FETCH: the next line, within the lead and the room of the partition; with the last one the task ends. -/
def prefetcherFetch (d p : Nat) (s : State) : State :=
  match SMap.get (fun _ => none) s.mem.pf (d * 64 + p) with
  | none => s
  | some x =>
    match x.slot with
    | none => s
    | some slot =>
      let ahead := decide (x.lead = 0) || decide ((x.fetched + 1 - x.unread) * 256 ≤ x.lead)
      if s.regB R.MEM_CTRL 1 && decide (x.fetched < x.lines.length) && ahead && decide (s.pfHeld d < s.pfRoom d) then
        let l := x.lines.getD x.fetched 0
        let s := s.taskRead d slot [(l * 256, if x.short.contains l then 64 else 256)]
        let last := decide (x.fetched + 1 = x.lines.length)
        let y := { x with fetched := x.fetched + 1, slot := if last then none else some slot }
        let s := s.modMem (fun m => { m with pf := SMap.set (fun _ => none) m.pf (d * 64 + p) (some y) })
        if last then s.endTask d slot false else s
      else s

def execPrefetcherFetch (d : Die) (p : Fin 64) (s : State) : Answer := .next (prefetcherFetch d.val p.val s)

end Sys2Proof.Machine
end

