-- ==== Sys2Proof/Machine/Silt.lean ====
section
/-! DEFINITION. The Silt context store (R264 to R271) and the token boundary (R19, R249, R269, R307). -/

namespace Sys2Proof.Machine

/-! ### Page slots (R264, R268) -/

def State.silt (s : State) (d : Nat) : SiltFree := SMap.get (fun _ => {}) s.mem.silt d
def State.setSilt (s : State) (d : Nat) (x : SiltFree) : State :=
  s.modMem (fun m => { m with silt := SMap.set (fun _ => {}) m.silt d x })

/-- Free page slots of a die. -/
def SiltFree.free (x : SiltFree) : Nat := x.slots - x.fresh + x.back.length

/-- Take a slot: slots never used in ascending order, then those that came back, oldest first. -/
def SiltFree.take (x : SiltFree) : Option (Nat × SiltFree) :=
  if x.fresh < x.slots then some (x.fresh, { x with fresh := x.fresh + 1 })
  else match x.back with
    | i :: rest => some (i, { x with back := rest })
    | [] => none

/-- A slot returns to its die's free list. -/
def State.giveSlot (s : State) (n : Nat) : State :=
  let d := pageDie n
  s.setSilt d { s.silt d with back := (s.silt d).back ++ [pageSlot n] }

/-- SILT_SLOTS_WRITE (R264): the free list is rebuilt while no handle is OPEN or CLOSING. -/
def siltSlotsWrite (rq : Requester) (d : Nat) (v : Word) (s : State) : State :=
  if s.mem.handles.isEmpty then (s.setReg (R.MEM_SILT_SLOTS d) (v &&& 0x3FFFFF#32)).setSilt d { slots := fld v 21 0, fresh := 0, back := [] }
  else s.refuseWrite rq (R.MEM_SILT_SLOTS d) v 0

def execSiltSlotsWrite (rq : Requester) (d : Die) (v : Word) (s : State) : Answer := .next (siltSlotsWrite rq d.val v s)

/-! ### Records (R265, R266) -/

/-- The 64 header bytes of a page. -/
def pageHeader (h layer valid first : Nat) : List Byte :=
  let b := leBytes 2 h ++ leBytes 1 layer ++ leBytes 1 valid ++ leBytes 4 first ++ List.replicate 52 0
  b ++ leBytes 4 (crc32c b)

/-- A block of a record before the shared budget: its block exponent and its values. -/
structure SiltBlk where
  x : Int := 0
  vals : List XNum := []

/-- The blocks of a record under a format view: 32 of the key tensor, 32 of the value tensor. -/
def siltBlocks (v : FmtView) (key value : Nat) (vals : List XNum) : List SiltBlk :=
  (chunks 32 vals).zipIdx.map (fun p =>
    let t := if p.2 < 32 then key else value
    { x := blockExp .gauze4 (v.exp t) ((v.find t).elim false (·.descent)) p.1, vals := p.1 })

/-- The outliers of a block; none where a non-finite value blanks it. -/
def SiltBlk.outs (b : SiltBlk) : List Nat :=
  if b.vals.all XNum.isFinite then outliers .gauze4 (b.vals.map (XNum.scale (-b.x))) else []

/-- Insert into a list of (magnitude, place) by falling magnitude; an equal magnitude goes after the places before it. -/
def insertMag (m : XNum) (k : Nat × Nat) : List (XNum × Nat × Nat) → List (XNum × Nat × Nat)
  | [] => [(m, k)]
  | y :: ys => if XNum.lt y.1 m then (m, k) :: y :: ys else y :: insertMag m k ys

/-- The 48 outliers of greatest magnitude of a record, by block and position (R266). -/
def siltKeep (bs : List SiltBlk) : List (Nat × Nat) :=
  let all := bs.zipIdx.flatMap (fun p => p.1.outs.map (fun i => ((p.1.vals.getD i XNum.zero).abs, p.2, i)))
  ((all.foldl (fun l q => insertMag q.1 q.2 l) []).take 48).map (·.2)

/-- The blocks of a record with the outliers that have room, and what their conversions count. -/
def siltEncode (bs : List SiltBlk) : List (List Byte × EncCount) :=
  let keep := siltKeep bs
  bs.zipIdx.map (fun p => encodeBlockK .gauze4 p.1.x rneAt (fun i => keep.contains (p.2, i)) p.1.vals)

/-- The counts of a record's conversion (R56, R62, R266). -/
def siltCounts (bs : List SiltBlk) : EncCount := (siltEncode bs).foldl (fun c b => c.add b.2) {}

/-- The 1,200 bytes of a record: blocks of 17 bytes, counts, entries. -/
def siltRecord (bs : List SiltBlk) : List Byte :=
  let enc := (siltEncode bs).map (·.1)
  let side := enc.map (fun b => (chunks 2 (b.drop 17)).filter (fun e => (e.getD 0 0).toNat.testBit 7))
  let counts := (List.range 16).map (fun i => byteOf ((List.range 4).foldl (fun a j => a + (side.getD (4 * i + j) []).length * 4 ^ j) 0))
  enc.flatMap (·.take 17) ++ counts ++ sliceB (side.flatMap List.flatten) 0 96

/-! ### SILT_PUT (R266, R268, R271) -/

/-- The mode of function 13 for a context: its token's, or the one in force. -/
def State.hostPages (s : State) (h : Nat) : Bool := if (s.ctx h).inTok then (s.ctx h).f13 else s.fnHost 13

/-- The format view for a handle's record. -/
def State.viewOf (s : State) (h : Nat) : FmtView := if (s.ctx h).inTok then (s.ctx h).fmt else s.fmt.view

/-- Why a put cannot be made, with its event bit where it has one. -/
inductive PutFault where
  | none
  | event (bit : Nat)
  | closed
deriving DecidableEq, Repr

/-- Allocate a page from die `b` mod 2, or from the other die (R268): the page entry, or none where both lists are empty. -/
def State.allocPage (s : State) (row : Nat) : Option (Nat × State) :=
  let d := row % 2
  match (s.silt d).take with
  | some (i, x) => some (2 ^ 31 + d * 2 ^ 30 + i, s.setSilt d x)
  | none =>
    match (s.silt (1 - d)).take with
    | some (i, x) => some (2 ^ 31 + (1 - d) * 2 ^ 30 + i, (s.setSilt (1 - d) x).event R.MEM_EVENTS 2)
    | none => none

/-- The page of a token and layer, allocated where the put calls for it. -/
def State.pageFor (s : State) (h row layer off : Nat) : Sum PutFault (Nat × State) :=
  let n := s.pageEnt h row layer
  if s.handleState h ≠ 1 then .inl .closed
  else if s.handleRows h ≤ row then .inl (.event 4)
  else if s.handleLayers h ≤ layer then .inl (.event 5)
  else if s.hostPages h then
    (if n.testBit 31 && decide (pageSlot n < s.regF (R.MEM_SILT_SLOTS (pageDie n)) 21 0) then .inr (n, s) else .inl (.event 5))
  else if n.testBit 31 then .inr (n, s)
  else if off ≠ 0 then .inl (.event 5)
  else match s.allocPage row with
    | some (m, s') => .inr (m, s'.hbmWrite (s.pageAddr h row layer) (leBytes 4 m))
    | none => .inl (.event 3)

/-- The token of a handle is reported as failed. -/
def State.failHandle (s : State) (h : Nat) : State := s.setCtx h { s.ctx h with failed := true }

/-- The source bytes of a put are encoded into the record of its token in page `n`; the page's header counts the token, and the context
notes the layer (R266, R268, R269). -/
def State.putRecord (s : State) (task key value : Nat) (p : DmaPay) (n : Nat) (src : List Byte) : State :=
  let a := s.slotAddr (pageDie n) (pageSlot n)
  let off := p.first % 64
  let bs := siltBlocks (s.viewOf p.handle) key value ((chunks 4 src).map (fun b => FF.fp32.decode (ofLe b)))
  let s := (s.hbmWrite (a + 64 + 1200 * off) (siltRecord bs)).when (s.inAttempt (s.task task)) (fun s => s.addEnc (siltCounts bs))
  let s := s.hbmWrite a (pageHeader p.handle p.layer (off + 1) (64 * (p.first / 64)))
  let c := s.ctx p.handle
  if c.inTok && decide (p.first = s.handleTokens p.handle) && !c.layers.contains p.layer then
    s.setCtx p.handle { c with layers := c.layers ++ [p.layer] }
  else s

/-- SILT_PUT: 2,048 FP32 values at the source become the record of a token and layer; `key` and `value` are its tensors. -/
def siltPut (d e key value : Nat) (s : State) : State :=
  match s.dmaTask d e with
  | none => s
  | some (slot, p) =>
    match p.fault with
    | some c => s.dmaFault d e slot c
    | none =>
      if p.op ≠ 4 then s
      else if !inHbm p.src 8192 then s.dmaFault d e slot 2
      else
        let row := p.first / 64
        let off := p.first % 64
        let s := s.taskRead d slot [(s.handleAddr p.handle, 32), (s.pageAddr p.handle row p.layer, 4)]
        match s.pageFor p.handle row p.layer off with
        | .inl f =>
          let s := match f with
            | .event b => s.event R.MEM_EVENTS b
            | _ => s
          (s.failHandle p.handle).endDma d e slot true
        | .inr (n, s) =>
          let r := s.hbmRead p.src 8192
          if r.2.2 then r.2.1.endDma d e slot true
          else ((r.2.1.noteRead d p.src 8192).putRecord (d * 4096 + slot) key value p n r.1).endDma d e slot false

def execSiltPut (d : Die) (e : Fin 16) (key value : Nat) (s : State) : Answer := .next (siltPut d.val e.val key value s)

/-! ### Silt commands (R270) -/

/-- Clear a page entry; in hardware mode its slot returns. -/
def State.freePage (s : State) (h row layer : Nat) : State :=
  let n := s.pageEnt h row layer
  let s := s.readNotes (s.pageAddr h row layer) 4
  let s' := if n.testBit 31 && !s.hostPages h then s.giveSlot n else s
  s'.hbmWrite (s.pageAddr h row layer) [0, 0, 0, 0]

/-- Free the pages of rows `a` to `b` - 1. -/
def State.freeRows (s : State) (h a b : Nat) : State :=
  (List.range (b - a)).foldl (fun s i => (List.range (s.handleLayers h)).foldl (fun s l => s.freePage h (a + i) l) s) s

/-- CLOSE ends: every page is freed, the handle is FREE. -/
def State.closeHandle (s : State) (h : Nat) : State :=
  let s := (s.freeRows h 0 (s.handleRows h)).hbmWrite (s.handleAddr h) [0]
  (s.modMem (fun m => { m with handles := m.handles.filter (· ≠ h) })).setCtx h {}

/-- The valid count of a page is lowered. -/
def State.lowerPage (s : State) (h row layer valid : Nat) : State :=
  let n := s.pageEnt h row layer
  let s := s.readNotes (s.pageAddr h row layer) 4
  if n.testBit 31 then
    let a := s.slotAddr (pageDie n) (pageSlot n)
    s.hbmWrite a (pageHeader h layer (min valid (s.hbmNum (a + 3) 1)) (64 * row))
  else s

/-- TRUNCATE takes effect. -/
def State.truncateHandle (s : State) (h count : Nat) : State :=
  if count < s.handleTokens h then
    let s := s.hbmWrite (s.handleAddr h + 4) (leBytes 4 count)
    let s := s.freeRows h ((count + 63) / 64) (s.handleRows h)
    if count % 64 = 0 then s
    else (List.range (s.handleLayers h)).foldl (fun s l => s.lowerPage h (count / 64) l (count % 64)) s
  else s

def State.siltPend (s : State) (h : Nat) (p : SiltPend) : State := match p with
  | .close => s.closeHandle h
  | .truncate n => s.truncateHandle h n

/-- The pending Silt commands of a handle take effect. -/
def State.siltPends (s : State) (h : Nat) : State :=
  let l := (s.ctx h).pend
  l.foldl (fun s p => s.siltPend h p) (s.setCtx h { s.ctx h with pend := [] })

/-- A Silt command to a handle with a token in flight waits for its token boundary. -/
def State.siltLater (s : State) (h : Nat) (p : SiltPend) : State :=
  if (s.ctx h).inTok then s.setCtx h { s.ctx h with pend := (s.ctx h).pend ++ [p] } else s.siltPend h p

/-- OPEN: the entry is written and its directory rows are cleared. -/
def State.openHandle (s : State) (h arg : Nat) : State :=
  let cap := max 1 (min 16384 arg)
  let l := s.mem.layers
  let dir := s.handleDir h
  let s := s.hbmWrite (s.handleAddr h) (leBytes 1 1 ++ leBytes 1 l ++ leBytes 2 0 ++ leBytes 4 0 ++ leBytes 4 cap)
  let s := s.hbmWrite dir (List.replicate (cap * 4 * l) 0)
  (s.modMem (fun m => { m with handles := m.handles ++ [h] })).setCtx h {}

/-- The effect of a Silt command, and whether it is accepted: 1 OPEN, 2 CLOSE, 3 TRUNCATE. -/
def State.siltDo (s : State) (cmd h arg : Nat) : State × Bool :=
  let st := s.handleState h
  let s := s.readNotes (s.handleAddr h) 32
  match cmd with
  | 1 => if st = 0 then (s.openHandle h arg, true) else (s, false)
  | 2 => if st = 1 then ((s.hbmWrite (s.handleAddr h) [2]).siltLater h .close, true) else (s, false)
  | _ => if st = 1 then (s.siltLater h (.truncate arg), true) else (s, false)

/-- A Silt command from the register, or from the entry of a control queue that starts next; a refused one is recorded and logged. -/
def siltCmd (cmd : Nat) (src : SiltSrc) (s : State) : State :=
  match src with
  | .reg rq h =>
    let r := s.siltDo cmd (h % 65536) (s.reg R.MEM_SILT_ARG).toNat
    if r.2 then r.1
    else (r.1.event R.MEM_EVENTS 6).refuseBit rq R.MEM_SILT_CMD (packFields [(28, cmd), (0, h % 65536)]) 0 6
  | .queue q =>
    match s.nextOp q.val 0x21 with
    | none => s
    | some (i, e) =>
      if e.opC / 2 ^ 28 ≠ cmd then s
      else
        let r := (s.setEnt q.val i { e with started := true }).siltDo cmd e.handle (e.opA % 2 ^ 32)
        let s := if r.2 then r.1 else r.1.eventLog R.MEM_EVENTS 6 0x13 1 0 (e.handle + cmd * 2 ^ 28)
        (s.completeEntry q.val i (if r.2 then 0 else 8) 0 0 0).settle q.val

def execSiltOpen (src : SiltSrc) (s : State) : Answer := .next (siltCmd 1 src s)
def execSiltClose (src : SiltSrc) (s : State) : Answer := .next (siltCmd 2 src s)
def execSiltTruncate (src : SiltSrc) (s : State) : Answer := .next (siltCmd 3 src s)

/-! ### The token boundary (R19, R249, R269, R307) -/

/-- Work of a handle's token is left: a launch, a graph being streamed, or a task. -/
def State.tokenWork (s : State) (h : Nat) : Bool :=
  s.tsk.launchQ.any (fun l => decide (l.src.handle = some h)) || (s.tsk.streamer.elim false (fun x => decide (x.launch.src.handle = some h)))
    || s.tsk.win.any (fun p => p.2.elim false (fun t => decide (t.launch.handle = some h)))

/-- The started GEN entry of a handle: queue and place. -/
def State.genEnt (s : State) (h : Nat) : Option (Nat × Nat) :=
  s.hif.q.findSome? (fun p => (p.2.fetched.findIdx? (fun e => e.started && decide (e.op = 0x10) && decide (e.handle = h) && e.fin.isNone)).map
    (fun i => (p.1, i)))

/-- The GEN entry of a token that has ended: status, token count and image-set sequence number. -/
def State.finToken (s : State) (h : Nat) (failed : Bool) (seq : Nat) : State :=
  match s.genEnt h with
  | none => s
  | some (q, i) =>
    match (s.queue q).fetched[i]? with
    | some e => s.setEnt q i { e with fin := some (if failed then 7 else 0, s.handleTokens h, seq, 0) }
    | none => s

/-- The token of a handle ends: the token count rises once every layer of the token is written. -/
def State.endToken (s : State) (h : Nat) : State :=
  let c := s.ctx h
  let n := s.handleTokens h
  let full := !c.failed && decide (s.handleLayers h ≠ 0) && decide (s.handleLayers h ≤ c.layers.length)
  let s := if full then s.hbmWrite (s.handleAddr h + 4) (leBytes 4 (n + 1)) else s
  let s := s.finToken h c.failed c.seq
  s.setCtx h { c with inTok := false, sel := none, failed := false, layers := [] }

/-- TOKEN_BOUNDARY: a context whose launch has no work left finishes its token; pending changes take effect for it. -/
def tokenBoundary (h : Nat) (s : State) : State :=
  if (s.ctx h).inTok && !s.tokenWork h then
    let s := (s.endToken h).siltPends h
    let s := if s.stp.phase = .idle then s.genPoint else if s.halted then s.heldPoint else s.releaseOld
    let s := if s.dutyNow then s.dutyBound else s
    s.dutyCtx
  else s

def execTokenBoundary (h : Nat) (s : State) : Answer := .next (tokenBoundary h s)

end Sys2Proof.Machine
end

