-- ==== Sys2Proof/Machine/Window.lean ====
section
/-! DEFINITION. Meanings of host accesses to the committed-state window and the step-record ring (R23 to R26, R45, R202). -/

namespace Sys2Proof.Machine

/-- The logical-state-space address of window byte 0. -/
def State.winBase (s : State) : Nat := s.pair R.STEP_WIN_BASE

/-- Size of the committed-state window, of the step-record ring behind it, and of ring and scale logs together. -/
def winSize : Nat := 0x3C0000000
def winRing : Nat := 0x100000
def winLogs : Nat := 0x4100000

/-- A byte of the committed copy by its logical address, zero where the space holds no state (R23, R24). -/
def State.stateByte (s : State) (o : Nat) : Byte := if s.upd.holds o then s.committed.byte o else 0

/-- A byte of the step-record ring or the scale logs, by its offset behind the committed-state window; the rest is reserved. -/
def State.recordByte (s : State) (q : Nat) : Byte :=
  if q < winRing then (s.record (q / 256)).bytes.getD (q % 256) 0
  else if q < winLogs then (s.record ((q - winRing) / 16384)).slotByte ((q - winRing) % 16384)
  else 0

/-- `n` bytes from offset `off` of the step-control windows of BAR2. -/
def State.winRead (s : State) (off n : Nat) : List Byte :=
  (List.range n).map (fun i =>
    if off + i < winSize then s.stateByte (s.winBase + off + i) else s.recordByte (off + i - winSize))

/-- COMMITTED_WINDOW_READ (R23). -/
def committedWindowRead (off len : Nat) (s : State) : State :=
  if s.ready then s.emit (.hostData (s.winRead off len) false) else s.unassignedRead len

def execCommittedWindowRead (off len : Nat) (s : State) : Answer := .next (committedWindowRead off len s)

/-- Write both copies from logical address `o`, but for bytes that hold no state (R24). -/
def State.writeCopies : State → Nat → List Byte → State
  | s, _, [] => s
  | s, o, b :: bs =>
    State.writeCopies (if s.upd.holds o then
      s.modMem (fun m => { m with copy0 := m.copy0.set o b, copy1 := m.copy1.set o b }) else s) (o + 1) bs

/-- A die that runs a projection pass while the write touches master weights, of whichever entry (R202). -/
def State.heldBy (s : State) (o : Nat) (bs : List Byte) : Option Nat :=
  (List.range 2).find? (fun d => (s.updD d).proj.isSome && (List.range bs.length).any (fun i =>
    match s.upd.locate (o + i) with
    | some (e, x) => decide (x < 4096 * e.blocks)
    | none => false))

/-- A host write of state: one that touches master weights is held while a projection pass runs, on whichever die (R202). -/
def State.holdOrWrite (s : State) (o : Nat) (bs : List Byte) : State := match s.heldBy o bs with
  | some d => s.setUpd d { s.updD d with heldWrites := (s.updD d).heldWrites ++ [(o, bs)] }
  | none => s.writeCopies o bs

/-- STEP_RECORD_RING_WRITE (R45): discarded and logged. -/
def stepRecordRingWrite (off : Nat) (bs : List Byte) (s : State) : State :=
  if s.ready then s.log 9 1 0xFF 1 (off + bs.length * 2 ^ 64) else s.unassignedWrite off bs.length

/-- COMMITTED_WINDOW_WRITE (R24): both copies in IDLE, HELD or HALTED, held while a projection pass reads the master weights;
discarded, recorded and logged in any other phase.  Bytes beyond the logical state space are discarded in every phase (R23), as are
those of the reserved part of the windows; the record ring and the scale logs refuse writes (R45). -/
def committedWindowWrite (off : Nat) (bs : List Byte) (s : State) : State :=
  let o := s.winBase + off
  if !s.ready then s.unassignedWrite off bs.length
  else if winSize ≤ off then (if off < winSize + winLogs then stepRecordRingWrite off bs s else s)
  else if s.upd.space ≤ o then s
  else if s.quiet then s.holdOrWrite o bs
  else s.eventLog R.STEP_EVENTS 9 9 1 0 off

def execCommittedWindowWrite (off : Nat) (bs : List Byte) (s : State) : Answer := .next (committedWindowWrite off bs s)

def execStepRecordRingWrite (off : Nat) (bs : List Byte) (s : State) : Answer := .next (stepRecordRingWrite off bs s)

end Sys2Proof.Machine
end

