-- ==== Sys2Proof/Machine/HostIf.lean ====
section
/-! DEFINITION. Meanings of the host interface's commands: queues (R302 to R310), apertures (R297 to R301), the link and its resets (R294 to
R296, R314, R315, R408), MSI-X (R311). -/

namespace Sys2Proof.Machine

/-! ### Doorbells (R303) -/

/-- A doorbell write that is ignored. -/
def State.badDoorbell (s : State) (q v : Nat) : State := (s.event R.HIF_EVENTS 0).hifFault 2 q v

/-- SQ_TAIL_DOORBELL. -/
def sqTailDoorbell (q v : Nat) (s : State) : State :=
  if !s.ready then s.unassignedWrite (8 * q) 4
  else if (s.queue q).en && decide (v < (s.queue q).depth) then s.setQueue q { s.queue q with sqTail := v }
  else s.badDoorbell q v

def execSqTailDoorbell (q : Fin 64) (v : Nat) (s : State) : Answer := .next (sqTailDoorbell q.val v s)

/-- CQ_HEAD_DOORBELL: slots are free; completions that waited for room are posted. -/
def cqHeadDoorbell (q v : Nat) (s : State) : State :=
  if !s.ready then s.unassignedWrite (8 * q + 4) 4
  else if (s.queue q).en && decide (v < (s.queue q).depth) then
    ((s.setQueue q { s.queue q with cqHead := v }).postAll q).settle q
  else s.badDoorbell q v

def execCqHeadDoorbell (q : Fin 64) (v : Nat) (s : State) : Answer := .next (cqHeadDoorbell q.val v s)

/-! ### Fetch (R304) -/

/-- A queue with an entry to fetch. -/
def State.mayFetch (s : State) (q : Nat) : Bool :=
  let x := s.queue q
  x.en && decide (x.sqHead ≠ x.sqTail) && (x.inWindow || (s.hif.linkUp && !s.viaHead))

/-- The queue that is fetched from next: control queues first, then ascending from the one after the queue served last. -/
def State.nextFetch (s : State) : Option Nat :=
  let order := (List.range 64).map (fun i => (s.hif.last + 1 + i) % 64)
  match order.find? (fun q => s.mayFetch q && decide ((s.queue q).kind = 0)) with
  | some q => some q
  | none => order.find? s.mayFetch

/-- The base of the SQ window. -/
def State.sqWin (s : State) : Nat := s.pair R.HIF_SQWIN_BASE / 4194304 * 4194304

/-- SQ_FETCH: the next entry, from the SQ window (whose uncorrectable units are counted, R254) or as the host returns it; a host error leaves
it unfetched. -/
def sqFetch (bytes : List Byte) (err : Bool) (s : State) : State :=
  if s.regB R.HIF_CTRL 0 then
    match s.nextFetch with
    | none => s
    | some q =>
      let x := s.queue q
      let s := s.modHif (fun h => { h with last := q })
      if err && !x.inWindow then s.hostError q
      else
        let b := if x.inWindow then s.hbm (s.sqWin + x.sq / 4096 * 4096 + 64 * x.sqHead) 64 else sliceB bytes 0 64
        let hd := (x.sqHead + 1) % x.depth
        ((s.when x.inWindow (fun s => s.readNotes (s.sqWin + x.sq / 4096 * 4096 + 64 * x.sqHead) 64)).setQueue q
          { x with sqHead := hd, fetched := x.fetched ++ [{ bytes := b, head := hd }] }).settle q
  else s

def execSqFetch (bytes : List Byte) (err : Bool) (s : State) : Answer := .next (sqFetch bytes err s)

/-! ### Protected ranges (R300) -/

/-- A GiB of HBM lies in a protected range; with `wr`, in one that does not accept writes now. -/
def State.protGiB (s : State) (wr : Bool) (g : Nat) : Bool :=
  s.hif.prot.any (fun p => bitOf p.2 31 && decide (fld p.2 9 0 ≤ g) && decide (g ≤ fld p.2 25 16)
    && !(wr && bitOf p.2 30 && s.quiet))

/-- Some byte of an access lies in a protected range. -/
def State.protected_ (s : State) (wr : Bool) (a n : Nat) : Bool :=
  (List.range ((a + n + 2 ^ 30 - 1) / 2 ^ 30 - a / 2 ^ 30)).any (fun i => s.protGiB wr (a / 2 ^ 30 + i))

/-- A protected access is recorded. -/
def State.noteProt (s : State) (q a : Nat) : State := (s.event R.HIF_EVENTS 5).hifFault 5 q a

/-! ### Data entries (R306, R309, R310) -/

/-- Send bytes to a module's HBM, or with bit 63 set to the head's host memory, in DATA frames of at most 65,536 bytes (R293). -/
def State.sendData (s : State) (dst addr : Nat) (bytes : List Byte) : State :=
  (chunks 65536 bytes).zipIdx.foldl (fun s p =>
    s.sendRouted ⟨1, 0, s.me, dst, leBytes 8 (addr + 65536 * p.2) ++ leBytes 4 p.1.length ++ p.1⟩) s

/-- A DMA engine of Damask 0 starts a data entry. -/
def State.startData (s : State) (q i eng : Nat) (e : QEnt) (fin : Nat × Nat × Nat × Nat) : State :=
  (s.setEnt q i { e with started := true, engine := some eng, fin := some fin }).modTsk (fun t =>
    { t with dma := SMap.set (fun _ => none) t.dma eng (some (1048576 + q)) })

/-- Where the push area lies (R340, R341). -/
def State.pushBase (s : State) : Nat := if s.img.stage = 0xC then 0 else s.pair R.IMG_PUSH_BASE / 2 ^ 27 * 2 ^ 27

/-- A byte of HBM lies in the push area while a command of R340 or R341 runs (R342). -/
def State.pushHeld (s : State) (a : Nat) : Bool := s.img.cmd.isSome && decide (s.pushBase ≤ a) && decide (a < s.pushBase + 2 ^ 27)

/-- Host bytes go to HBM, but for those that `ok` leaves out and those of the push area while a command runs, which are logged. -/
def State.hostStore (s : State) (ok : Nat → Bool) (a : Nat) (bytes : List Byte) : State :=
  let idx := (List.range bytes.length).map (fun i => a + i)
  if idx.all (fun x => ok x && !s.pushHeld x) then s.hostHbmWrite a bytes
  else
    let t := (bytes.zipIdx.filter (fun p => ok (a + p.2) && !s.pushHeld (a + p.2))).foldl (fun s p => s.hbmWrite (a + p.2) [p.1]) s
    (t.logBadSr a bytes.length).when (idx.any s.pushHeld) (fun t => t.log 8 1 0xFF 1 (a + bytes.length * 2 ^ 64))

/-- WRITE_HBM: the host's data, or what arrived of it before an error of the host. -/
def writeHbm (q : Nat) (data : List Byte) (err : Option Nat) (s : State) : State :=
  match s.nextOp q 1, s.freeEngine 0 with
  | some (i, e), some eng =>
    let n := if e.check then e.len - 4 else e.len
    let all := sliceB data 0 e.len
    if !s.targetsMe e then
      (match err with
        | some k => ((s.sendData e.target e.opB (all.take (min k n))).hostError q).startData q i eng e (4, min k n, 0, 0)
        | none =>
          let bad := e.check && decide (ofLe (all.drop n) ≠ crc32c (all.take n))
          (s.sendData e.target e.opB (all.take n)).startData q i eng e (if bad then 6 else 0, n, 0, if e.check then crc32c (all.take n) else 0))
    else if s.protected_ true e.opB n then (s.noteProt q e.opB).startData q i eng e (10, 0, 0, 0)
    else match err with
      | some k => ((s.hostStore (fun _ => true) e.opB (all.take (min k n))).hostError q).startData q i eng e (4, min k n, 0, 0)
      | none =>
        let bad := e.check && decide (ofLe (all.drop n) ≠ crc32c (all.take n))
        (s.hostStore (fun _ => true) e.opB (all.take n)).startData q i eng e (if bad then 6 else 0, n, 0, if e.check then crc32c (all.take n) else 0)
  | _, _ => s

def execWriteHbm (q : Fin 64) (data : List Byte) (err : Option Nat) (s : State) : Answer := .next (writeHbm q.val data err s)

/-- READ_HBM: HBM data, with its CRC-32C behind it when CHECK is set; a member sends it to the head (R313).
DESIGN CHOICE: on the head an entry may name a member as target, and the spec gives no frame that fetches its bytes: they are free values. -/
def readHbm (q : Nat) (s : State) : State :=
  match s.nextOp q 2, s.freeEngine 0 with
  | some (i, e), some eng =>
    if !s.targetsMe e then
      let x := s.draw
      let out := (List.range e.len).map (Config.freeByte x.1)
      let c := crc32c out
      (x.2.emit (.hostWrite e.opB (if e.check then out ++ leBytes 4 c else out))).startData q i eng e (0, e.len, 0, if e.check then c else 0)
    else if s.protected_ false e.opA e.len then (s.noteProt q e.opA).startData q i eng e (10, 0, 0, 0)
    else
      let r := s.hbmRead e.opA e.len
      if r.2.2 then r.2.1.startData q i eng e (5, 0, 0, 0)
      else
        let c := crc32c r.1
        let out := if e.check then r.1 ++ leBytes 4 c else r.1
        let s := if r.2.1.viaHead then r.2.1.sendData s.ezl.pod.head (2 ^ 63 + e.opB) out else r.2.1.emit (.hostWrite e.opB out)
        s.startData q i eng e (0, e.len, 0, if e.check then c else 0)
  | _, _ => s

def execReadHbm (q : Fin 64) (s : State) : Answer := .next (readHbm q.val s)

/-- HOST_DMA_COMPLETE: entry `i` of a queue whose transfer has ended completes. -/
def hostDmaComplete (q i : Nat) (s : State) : State :=
  match (s.queue q).fetched[i]? with
  | none => s
  | some e =>
    match e.engine, e.fin with
    | some g, some f =>
      ((s.modTsk (fun t => { t with dma := SMap.set (fun _ => none) t.dma g none })).completeEntry q i f.1 f.2.1 f.2.2.1 f.2.2.2).settle q
    | _, _ => s

def execHostDmaComplete (q : Fin 64) (i : Nat) (s : State) : Answer := .next (hostDmaComplete q.val i s)

/-! ### NOP, SIGNAL, LAUNCH -/

/-- HOST_NOP. -/
def hostNop (q : Nat) (s : State) : State := match s.nextOp q 0 with
  | some (i, _) => (s.completeEntry q i 0 0 0 0).settle q
  | none => s

def execHostNop (q : Fin 64) (s : State) : Answer := .next (hostNop q.val s)

/-- SIGNAL: the signal field is applied, once. -/
def signal (q : Nat) (s : State) : State := match s.nextOp q 0x22 with
  | some (i, e) => (((if e.signals then s else s.entrySignal { e with bytes := e.bytes.set 1 4 })).completeEntry q i 0 0 0 0).settle q
  | none => s

def execSignal (q : Fin 64) (s : State) : Answer := .next (signal q.val s)

/-- LAUNCH (R241): the launch is queued; the entry waits while the launch queue is full. -/
def launch (q : Nat) (s : State) : State := match s.nextOp q 0x20 with
  | some (i, e) =>
    if s.launchFree then (s.setEnt q i { e with started := true }).addLaunch { graph := e.opC % 256, src := .command q e.cid } else s
  | none => s

def execLaunch (q : Fin 64) (s : State) : Answer := .next (launch q.val s)

/-! ### GEN (R307) -/

/-- A token of a handle begins: what it runs under is fixed, with the host's exponents as they stand now (R13, R71). -/
def State.beginToken (s : State) (h : Nat) : State :=
  let f2 := s.regB R.DUTY_SPLIT 1
  let s := if f2 then s.logHostExp else s
  s.setCtx h { s.ctx h with inTok := true, view := s.arr.view, seq := (s.reg R.STEP_IMG_SEQ).toNat, sel := none, fmt := s.formView f2 true false,
                            f2 := f2, f13 := s.regB R.DUTY_SPLIT 12, failed := false, layers := [] }

/-- GEN: while training is idle, what is pending for generation takes effect; then the entry is written and its graph launched. -/
def gen (q : Nat) (s : State) : State := match s.nextOp q 0x10 with
  | some (i, e) =>
    if s.launchFree then
      let s := if s.stp.phase = .idle then s.genPoint else s
      let s := (s.beginToken e.handle).dutyCtx
      let s := s.hbmWrite (s.pair R.HIF_GEN_AREA / 4096 * 4096 + e.handle * 64) e.bytes
      let s := s.setEnt q i { e with started := true, trims := (List.range 16).map (fun k => (s.kao k).trimVer % 65536) }
      s.addLaunch { graph := e.graph, src := .gen q e.cid e.handle }
    else s
  | none => s

def execGen (q : Fin 64) (s : State) : Answer := .next (gen q.val s)

/-- GEN_RESULT_COPY: the token of entry `i` has ended; the result goes to the host unless the token failed. -/
def genResultCopy (q i : Nat) (s : State) : State :=
  match (s.queue q).fetched[i]? with
  | none => s
  | some e =>
    if e.op ≠ 0x10 then s
    else match e.fin with
      | none => s
      | some f =>
        if f.1 ≠ 0 ∨ e.len = 0 then (s.completeEntry q i f.1 f.2.1 f.2.2.1 0).settle q
        else
          let r := s.hbmRead e.opB e.len
          if r.2.2 then (r.2.1.completeEntry q i 5 f.2.1 f.2.2.1 0).settle q
          else
            let s := if r.2.1.viaHead then r.2.1.sendData s.ezl.pod.head (2 ^ 63 + e.opA) r.1 else r.2.1.emit (.hostWrite e.opA r.1)
            (s.completeEntry q i 0 f.2.1 f.2.2.1 (if e.check then crc32c r.1 else 0)).settle q

def execGenResultCopy (q : Fin 64) (i : Nat) (s : State) : Answer := .next (genResultCopy q.val i s)

/-! ### Give-up thresholds (R308, R314) -/

/-- A queue is disabled by the module. -/
def State.giveUp (s : State) (q : Nat) : State := (s.disableQueue q).event R.HIF_EVENTS 7

/-- CQ_STALL: the CQ has been stalled for longer than CQ_STALL_LIMIT. -/
def cqStall (q : Nat) (s : State) : State :=
  if (s.queue q).en && (s.queue q).full && decide (s.regF R.HIF_CTRL 31 16 ≠ 0) then
    ((s.giveUp q).event R.HIF_EVENTS 6).hifFault 6 q 0
  else s

def execCqStall (q : Fin 64) (s : State) : Answer := .next (cqStall q.val s)

/-- HOST_ERROR_LIMIT: 64 host errors on a queue within 1 s. -/
def hostErrorLimit (q : Nat) (s : State) : State :=
  if (s.queue q).en && decide (64 ≤ ((s.queue q).errs.filter (fun t => decide (s.time < t + 1000000000))).length) then
    (s.giveUp q).hifFault 4 q 0
  else s

def execHostErrorLimit (q : Fin 64) (s : State) : Answer := .next (hostErrorLimit q.val s)

/-! ### Configuration (R302) -/

/-- A configuration write to an enabled queue is ignored and logged. -/
def State.badConfig (s : State) (rq : Requester) (q off : Nat) (v : Word) : State :=
  (s.setReg R.HIF_FAULT (packFields [(26, q), (0, 8)])).refuseWrite rq off v 8

/-- The SQ of a queue fits the SQ window, where it lies there. -/
def QueueSt.fits (x : QueueSt) : Bool := !x.inWindow || decide (x.sq / 4096 * 4096 + 64 * x.depth ≤ 4194304)

/-- Q_CFG_WRITE: on an enabled queue only EN can be cleared; enabling starts the queue anew. Reserved bits read as zero (R5). -/
def qCfgWrite (rq : Requester) (v : Word) (s : State) : State :=
  let q := s.regF R.HIF_Q_SEL 5 0
  let x := s.queue q
  if x.en then (if bitOf v 31 then s.badConfig rq q R.HIF_Q_CFG v else s.disableQueue q)
  else if fld v 30 29 = 3 then s.refuseWrite rq R.HIF_Q_CFG v 0
  else
    let y := { x with cfg := v &&& 0xF03F1FFF#32 }
    if !bitOf v 31 then s.setQueue q y
    else if !y.fits || !x.fetched.isEmpty then (s.setQueue q { y with cfg := setBit y.cfg 31 false }).refuseWrite rq R.HIF_Q_CFG v 0
    else s.setQueue q { y with en := true, sqHead := 0, sqTail := 0, cqTail := 0, cqHead := 0, phase := true, ready := [], errs := [] }

def execQCfgWrite (rq : Requester) (v : Word) (s : State) : Answer := .next (qCfgWrite rq v s)

/-! ### MSI-X (R311) -/

/-- MSIX_UNMASK: the mask bit of a vector is cleared; a pending message is sent, unless IRQ_CTRL.EN stops it (R328). -/
def msixUnmask (v : Nat) (s : State) : State :=
  let s := s.setRegB (R.MSIX_TABLE (4 * v + 3)) 0 false
  if s.regB (R.MSIX_PBA (v / 32)) (v % 32) && !s.msgStopped v then (s.setRegB (R.MSIX_PBA (v / 32)) (v % 32) false).msixSend v else s

def execMsixUnmask (_rq : Requester) (v : Fin 64) (s : State) : Answer := .next (msixUnmask v.val s)

/-- With IRQ_CTRL.EN set, the messages that it stopped are sent, of vectors that are not masked (R328). -/
def State.sendHeld (s : State) (d : Nat) : State :=
  (List.range 64).foldl (fun s v =>
    if bitOf (s.reg (R.IRQ_CTRL d)) 0 && !s.msixMasked v && !((s.irqD d).awaiting v).isEmpty then
      (s.setRegB (R.MSIX_PBA (v / 32)) (v % 32) false).msixSend v
    else s) s

/-! ### Apertures (R299 to R301, R340) -/

/-- The aperture base in force. -/
def State.aperBase (s : State) : Nat := min 0x8400000000 (s.pair R.HIF_APER_BASE / 2 ^ 30 * 2 ^ 30)

/-- Where a BAR2 aperture access goes: in the image-fault state the push area alone. -/
def State.aperAddr (s : State) (off len : Nat) : Option Nat :=
  if s.ready then (if off + len ≤ 0xC00000000 then some (s.aperBase + off) else none)
  else if s.img.stage = 0xC ∧ off + len ≤ 0x8000000 then some off
  else none

/-- The reply to a read that meets uncorrectable units: each 32-byte unit completes for itself, the bad ones poisoned (R301). -/
def State.emitUnits (s : State) (us : List Nat) (a : Nat) (bs : List Byte) : State :=
  (List.range ((a + bs.length - 1) / 32 + 1 - a / 32)).foldl (fun s i =>
    let u := a / 32 + i
    let lo := max a (32 * u) - a
    s.emit (.hostData ((bs.drop lo).take (min (a + bs.length) (32 * u + 32) - a - lo)) (us.contains u))) s

/-- What a host read of HBM gives: the bytes, those of protected ranges zero (R300). -/
def State.hostBytes (s : State) (a n : Nat) : List Byte :=
  if s.protected_ false a n then
    (List.range n).map (fun i => if s.protGiB false ((a + i) / 2 ^ 30) then 0 else s.mem.byte (a + i))
  else s.hbm a n

/-- The uncorrectable units that it meets outside protected ranges. -/
def State.hostBad (s : State) (a n : Nat) : List Nat :=
  (s.mem.badIn a n).filter (fun u => !(s.protected_ false a n && s.protGiB false (u * 32 / 2 ^ 30)))

/-- The units that it corrects outside protected ranges. -/
def State.hostSoft (s : State) (a n : Nat) : List Nat :=
  (s.mem.softIn a n).filter (fun u => !(s.protected_ false a n && s.protGiB false (u * 32 / 2 ^ 30)))

/-- What it reports: a protected range, units corrected, and uncorrectable units (R254, R300). -/
def State.noteHostRead (s : State) (a n : Nat) : State :=
  ((s.when (s.protected_ false a n) (fun t => t.noteProt 0 a)).ceNotes (s.hostSoft a n)).ueNotes (s.hostBad a n)

/-- A host read of HBM that is answered here: a read that meets uncorrectable units is answered unit by unit (R301). -/
def State.hostRead (s : State) (a len : Nat) : State :=
  let t := s.noteHostRead a len
  if (s.hostBad a len).isEmpty then t.emit (.hostData (s.hostBytes a len) false)
  else (t.event R.HIF_EVENTS 4).emitUnits (s.hostBad a len) a (s.hostBytes a len)

/-- APERTURE_READ. -/
def apertureRead (off len : Nat) (s : State) : State :=
  match s.aperAddr off len with
  | none => s.unassignedRead len
  | some a => s.hostRead a len

def execApertureRead (off len : Nat) (s : State) : Answer := .next (apertureRead off len s)

/-- A host write to HBM: the bytes of protected ranges are discarded and reported, unless the range accepts writes now (R300). -/
def State.hostPut (s : State) (a : Nat) (bytes : List Byte) : State :=
  (s.when (s.protected_ true a bytes.length) (fun s => s.noteProt 0 a)).hostStore (fun x => !s.protGiB true (x / 2 ^ 30)) a bytes

/-- A host read of HBM that is answered through the head. -/
def State.hostTake (s : State) (a n : Nat) : List Byte × State := (s.hostBytes a n, s.noteHostRead a n)

/-- APERTURE_WRITE: bytes of protected ranges are discarded, unless the range accepts writes now. -/
def apertureWrite (off : Nat) (bytes : List Byte) (s : State) : State :=
  match s.aperAddr off bytes.length with
  | none => s.unassignedWrite off bytes.length
  | some a => s.hostPut a bytes

def execApertureWrite (off : Nat) (bytes : List Byte) (s : State) : Answer := .next (apertureWrite off bytes s)

/-! ### Accesses that break R4 (R298) -/

/-- An access of `len` bytes at `off` breaks R4; the MSI-X table and pending bits also take aligned accesses of 8 bytes. -/
def accessBad (k : BadAccess) (off len : Nat) : Bool :=
  let msix := decide (k = .bar0) && ((decide (0x11000 ≤ off) && decide (off < 0x11400)) || (decide (0x11800 ≤ off) && decide (off < 0x11808)))
  !(decide (len = 4) && decide (off % 4 = 0)) && !(msix && decide (len = 8) && decide (off % 8 = 0))

/-- Such an access is recorded. -/
def State.noteBad (s : State) (off : Nat) : State := ((s.event R.HIF_EVENTS 1).hifFault 1 0 off).incReg R.HIF_UR_CNT 1

/-- It is answered with Unsupported Request, a write reported as that error. -/
def State.badAnswer (s : State) (off : Nat) (write : Bool) : State := (s.noteBad off).emit (if write then .aer else .hostUr)

/-- SNAPSHOT_WINDOW_WRITE (R370): discarded and logged; one that breaks R4 is answered as such (R298). -/
def snapshotWindowWrite (off : Nat) (bytes : List Byte) (s : State) : State :=
  if accessBad .bar0 (0x1000000 + off) bytes.length then s.badAnswer (0x1000000 + off) true
  else s.log 5 1 0xFF 1 (off + ofLe (bytes.take 4) * 2 ^ 32 + 8 * 2 ^ 64)

def execSnapshotWindowWrite (off : Nat) (bytes : List Byte) (s : State) : Answer := .next (snapshotWindowWrite off bytes s)

/-- SQ_WINDOW_ACCESS (R302): a host access to the BAR4 SQ window. -/
def sqWindowAccess (off len : Nat) (wr : Option (List Byte)) (s : State) : State :=
  if 4194304 < off + len ∨ accessBad .sqWindow off len then s.badAnswer off wr.isSome
  else if !s.ready then (match wr with | some _ => s.unassignedWrite (0x400000 + off) len | none => s.unassignedRead len)
  else match wr with
    | some b => s.hostPut (s.sqWin + off) (sliceB b 0 len)
    | none => s.hostRead (s.sqWin + off) len

def execSqWindowAccess (off len : Nat) (wr : Option (List Byte)) (s : State) : Answer := .next (sqWindowAccess off len wr s)

/-- MALFORMED_TLP (R314): answered with AER, logged; the spec names no cause for HIF_FAULT, so its CAUSE is a free value. -/
def malformedTlp (s : State) : State :=
  let x := s.draw
  ((x.2.setReg R.HIF_FAULT (packFields [(0, (Config.freeByte x.1 0).toNat)])).log 1 2 0xFF 0 0).emit .aer

def execMalformedTlp (s : State) : Answer := .next (malformedTlp s)

/-! ### The link and its resets (R295, R296, R315, R331, R408) -/

/-- DMA engines that move host data are free; the entries end without a completion. -/
def State.dropHostDma (s : State) : State :=
  s.modTsk (fun t => { t with dma := t.dma.filter (fun p => match p.2 with
    | some x => decide (x < 1048576)
    | none => false) })

/-- The entries that launches came from are gone: a queue number of 64 names none, so what such a launch comes to ends no newer entry. -/
def LaunchSrc.orphan : LaunchSrc → LaunchSrc
  | .command _ c => .command 64 c
  | .gen _ c h => .gen 64 c h
  | x => x

def State.orphanLaunches (s : State) : State :=
  s.modTsk (fun t => { t with launchQ := t.launchQ.map (fun l => { l with src := l.src.orphan })
                              streamer := t.streamer.map (fun x => { x with launch := { x.launch with src := x.launch.src.orphan } }) })

/-- Registers of the host interface that an FLR resets: all of the block but HIF_STATUS. -/
def hifReset (a : Nat) : Bool := decide (0x10000 ≤ a) && decide (a < 0x12000) && decide (a ≠ R.HIF_STATUS)

/-- FUNCTION_LEVEL_RESET (R296). -/
def functionLevelReset (s : State) : State :=
  let s := { s with regs := s.regs.filter (fun p => !hifReset p.1), pairLo := s.pairLo.filter (fun p => !hifReset (p.1 % 2 ^ 32)) }
  (s.dropHostDma.orphanLaunches.modHif (fun h => { h with q := [], prot := [], page := [], last := 63 })).event R.HIF_EVENTS 9

def execFunctionLevelReset (s : State) : Answer := .next (functionLevelReset s)

/-- PCIE_LINK_UP (R295): the link trains at a rate code, a width and a mode, after the ROM stage and while PERST_N is deasserted. -/
def pcieLinkUp (rate width : Nat) (flit : Bool) (s : State) : State :=
  if s.hif.perst || decide (s.img.stage ≤ 1) then s
  else
    let s := (s.modHif (fun h => { h with linkUp := true })).setReg R.HIF_STATUS
      (packFields [(31, 1), (30, flit.toNat), (27, rate % 8), (23, width % 16)])
    if rate < 6 ∨ width < 8 then s.eventLog R.HIF_EVENTS 10 1 6 0 (rate + width * 256) else s

def execPcieLinkUp (rate width : Nat) (flit : Bool) (s : State) : Answer := .next (pcieLinkUp rate width flit s)

/-- PCIE_LINK_DOWN (R315): every queue is disabled, with nothing posted. -/
def pcieLinkDown (s : State) : State :=
  let any := s.hif.q.any (fun p => p.2.en)
  let s := s.dropHostDma.orphanLaunches.modHif (fun h => { h with
    linkUp := false
    q := h.q.map (fun p => (p.1, { p.2 with en := false, cfg := setBit p.2.cfg 31 false, fetched := [], ready := [] })) })
  let s := (s.setReg R.HIF_STATUS 0).eventLog R.HIF_EVENTS 2 1 6 0 0
  s.when any (fun s => s.event R.HIF_EVENTS 7)

def execPcieLinkDown (s : State) : Answer := .next (pcieLinkDown s)

/-- PERST_ASSERT (R408): after the ROM stage, a Function Level Reset together with a link-down. -/
def perstAssert (s : State) : State :=
  let s := s.modHif (fun h => { h with perst := true })
  if s.img.stage ≤ 1 then s else pcieLinkDown (functionLevelReset s)

def execPerstAssert (s : State) : Answer := .next (perstAssert s)

/-- PERST_DEASSERT (R331): link training may start. -/
def perstDeassert (s : State) : State := s.modHif (fun h => { h with perst := false })

def execPerstDeassert (s : State) : Answer := .next (perstDeassert s)

end Sys2Proof.Machine
end

