-- ==== Sys2Proof/Machine/Irq.lean ====
section
/-! DEFINITION. Meanings of the interrupt-controller commands (R316 to R328), but for KDONE. -/

namespace Sys2Proof.Machine

/-- IRQ_SOURCE_PENDING (R317): the source's input reaches the controller; the pending bit is set by the configured sense, and a
level source whose input has fallen is pending no more. -/
def irqSourcePending (d src : Nat) (s : State) : State :=
  let q := s.irqD d
  let now := s.srcLevel d src
  let old := q.raw.getLsbD src
  let q' := { q with raw := if now then q.raw ||| (1#512 <<< src) else q.raw &&& ~~~(1#512 <<< src) }
  let set := match q.sense src with
    | 0 => now && !q.inService src
    | 1 => now && !old
    | 2 => !now && old
    | _ => now != old
  if set then s.setIrq d (q'.setPend src true)
  else if decide (q.sense src = 0) && old && !now then s.setIrq d (q'.setPend src false)
  else s.setIrq d q'

def execIrqSourcePending (d : Die) (src : Nat) (s : State) : Answer :=
  .next (if src < 512 then irqSourcePending d.val src s else s)

/-- IRQ_CLAIM (R321, R322): the core claims the source it was offered; it wins when the source is still offered, jumps to the vector
and, for a fast source, switches to its fast bank; otherwise it receives 0x3FF. -/
def irqClaim (d c src : Nat) (s : State) : State :=
  if s.irqOffer d c = some src then
    let fast := bitOf ((s.irqD d).cfgOf src) 29
    let v := s.irqVector d c (some src)
    let s := s.irqTake d c src
    let q := s.irqD d
    let k := q.coreOf c
    s.setIrq d (q.setCore c { k with pc := v, fastBank := fast || k.fastBank, back := k.back && !fast })
  else
    let s := s.irqSpurious d
    let q := s.irqD d
    s.setIrq d (q.setCore c { (q.coreOf c) with pc := s.irqVector d c none })

def execIrqClaim (d : Die) (core : Fin 4) (src : Nat) (s : State) : Answer := .next (irqClaim d.val core.val src s)

/-- CLAIM_READ (R323): claims the source offered to the core, without a jump; returns its number, or 0x3FF. -/
def claimRead (rq : Requester) (d c : Nat) (s : State) : State :=
  let a := R.IRQ_Cc_CLAIM d c
  match s.irqOffer d c with
  | some src => (s.irqTake d c src).emit (.reply rq a (BitVec.ofNat 32 src))
  | none => (s.irqSpurious d).emit (.reply rq a 0x3FF#32)

def execClaimRead (rq : Requester) (d : Die) (core : Fin 4) (s : State) : Answer := .next (claimRead rq d.val core.val s)

/-- A register write naming a source that is not in service is ignored and logged (R323, R325). -/
def eoiBad (rq : Requester) (d a src : Nat) (s : State) : State :=
  s.eventLog (R.IRQ_EVENTS d) 1 (2 + d) 1 0 (writeDetail rq a (BitVec.ofNat 32 src))

/-- IRQ_EOI (R323); of a fast source, the core returns to its normal bank with the next nanosecond that passes (R322). -/
def irqEoi (rq : Requester) (d c src : Nat) (s : State) : State :=
  let q := s.irqD d
  let k := q.coreOf c
  if k.curf = src ∧ src < 512 then
    (s.setIrq d (q.setCore c { k with curf := 0x3FF, back := true })).irqRelevel d src
  else if k.cur = src ∧ src < 512 then (s.setIrq d (q.setCore c { k with cur := 0x3FF })).irqRelevel d src
  else eoiBad rq d (R.IRQ_Cc_EOI d c) src s

def execIrqEoi (rq : Requester) (d : Die) (core : Fin 4) (src : Nat) (s : State) : Answer :=
  .next (irqEoi rq d.val core.val (src % 512) s)

/-- HOST_EOI (R325): ends host service of a level source. -/
def hostEoi (rq : Requester) (d src : Nat) (s : State) : State :=
  let q := s.irqD d
  if q.host.getLsbD src then
    if fld (q.liveOf src) 31 30 = 0 then (s.setIrq d { q with host := q.host &&& ~~~(1#512 <<< src) }).irqRelevel d src else s
  else eoiBad rq d (R.IRQ_HOST_EOI d) src s

def execHostEoi (rq : Requester) (d : Die) (src : Nat) (s : State) : Answer := .next (hostEoi rq d.val (src % 512) s)

/-- Sources set by software that are level sources with their input low: what they hold of the input is low too. -/
def State.softLow (s : State) (d k : Nat) (v : Word) : List Nat :=
  ((List.range 32).filter (fun i => bitOf v i && decide ((s.irqD d).sense (32 * k + i) = 0) && !s.srcLevel d (32 * k + i))).map (32 * k + ·)

/-- IRQ_PEND_WRITE (R318): each 1 sets the pending bit of source 32k + i, a level source's whether or not its input is high. -/
def irqPendWrite (d k : Nat) (v : Word) (s : State) : State :=
  let q := s.irqD d
  s.setIrq d { q with pend := q.pend ||| ((v.setWidth 512) <<< (32 * k))
                      raw := (s.softLow d k v).foldl (fun r i => r &&& ~~~(1#512 <<< i)) q.raw }

def execIrqPendWrite (_rq : Requester) (d : Die) (k : Fin 16) (v : Word) (s : State) : Answer :=
  .next (irqPendWrite d.val k.val v s)

/-- IRQ_PCLR_WRITE (R318): each 1 clears the pending bit; a level source whose input is high and that is not in service is pending
again. -/
def irqPclrWrite (d k : Nat) (v : Word) (s : State) : State :=
  let q := s.irqD d
  let s := s.setIrq d { q with pend := q.pend &&& ~~~((v.setWidth 512) <<< (32 * k)) }
  (List.range 32).foldl (fun s i =>
    if bitOf v i && !(s.irqD d).inService (32 * k + i) then s.irqRelevel d (32 * k + i) else s) s

def execIrqPclrWrite (_rq : Requester) (d : Die) (k : Fin 16) (v : Word) (s : State) : Answer :=
  .next (irqPclrWrite d.val k.val v s)

/-- IRQ_HOST_MESSAGE (R325): an eligible source with HOST set goes into service for the host and its message is issued, at once or when its
vector is unmasked. -/
def irqHostMessage (d src : Nat) (s : State) : State :=
  let q := s.irqD d
  if bitOf (q.cfgOf src) 28 && s.irqEligible d src then
    (s.setIrq d (q.serve src)).msixSend (fld (q.cfgOf src) 27 22)
  else s

def execIrqHostMessage (d : Die) (src : Nat) (s : State) : Answer :=
  .next (if src < 512 then irqHostMessage d.val src s else s)

/-- HOLDOFF_EXPIRY (R326): the group leaves hold-off. -/
def execHoldoffExpiry (d : Die) (g : Fin 32) (s : State) : Answer :=
  let q := s.irqD d.val
  .next (s.setIrq d.val (q.setHold g.val { (q.holdOf g.val) with run := false }))

/-- One group's moderation (R327). -/
def moderate (d : Nat) (s : State) (g : Nat) : State :=
  let q := s.irqD d
  let h := q.holdOf g
  let base := s.regF (R.IRQ_HOLD d g) 15 0
  let top := max base (s.regF (R.IRQ_HOLD d g) 31 16)
  let hi := s.regF (R.IRQ_MOD_CFG d) 31 16
  let lo := s.regF (R.IRQ_MOD_CFG d) 15 0
  let h' := if hi < h.n then min top (max 1 (2 * h.h)) else if h.n < lo then max base (h.h / 2) else h.h
  s.setIrq d (q.setHold g { h with h := h', n := 0 })

/-- The count of deliveries of one group starts anew. -/
def clearCount (d : Nat) (s : State) (g : Nat) : State := s.setIrq d ((s.irqD d).setHold g { (s.irqD d).holdOf g with n := 0 })

/-- MODERATION_TICK (R327): a millisecond has passed; in hardware mode of function 14 every group's hold-off is doubled, halved or kept. -/
def execModerationTick (d : Die) (s : State) : Answer :=
  .next ((List.range 32).foldl (if s.fnHost 14 then clearCount d.val else moderate d.val) s)

end Sys2Proof.Machine
end

