-- ==== Sys2Proof/Machine/PodTime.lean ====
section
/-! DEFINITION. Pod time (R290, R291) and snapshot triggers received over the links (R292). Offsets in eighths of a nanosecond. -/

namespace Sys2Proof.Machine

/-- The ports toward the master in force, from the highest dimension in which the coordinates differ (R290). -/
def parentPorts (size here master : Nat) : List Nat :=
  let d := podDims size
  let a := podCoord size here
  let b := podCoord size master
  let port := fun (k n x y : Nat) => match ringDir n x y with
    | 0 => ([] : List Nat)
    | r => [2 * k + (r - 1)]
  port 2 d.2.2 a.2.2 b.2.2 ++ port 1 d.2.1 a.2.1 b.2.1 ++ port 0 d.1 a.1 b.1

/-- The lowest UP link to a module that the pod configuration places at one end of it, through either port. -/
def State.upLinkFor (s : State) (m : Nat) : Option Nat :=
  (List.range 18).find? (fun l => decide ((s.lnk l).st = .up) && decide (portPartner s.ezl.pod.size s.me (l % 6) = some m))

/-- The link to the parent: the lowest UP link to the first partner in those directions that has one; none on the master and where no
parent is reachable (R290, R291). -/
def State.parentLink (s : State) : Option Nat :=
  (parentPorts s.ezl.pod.size s.me s.ezl.pod.master).findSome? (fun q => (portPartner s.ezl.pod.size s.me q).bind s.upLinkFor)

/-- The exchange runs on a link: the parent's, or one that retrains with the parent of the last exchange at its end (R290, R424). -/
def State.exchangeOn (s : State) (l : Nat) : Bool :=
  s.regB R.EZL_CTRL 1 && (decide (s.parentLink = some l)
    || (decide ((s.lnk l).st = .retrain) && decide (s.ezl.tim.parent = some (s.lnk l).peer)))

/-- A change of parent is logged (R291). -/
def State.noteParent (s : State) (m : Nat) : State :=
  let old := s.ezl.tim.parent
  let s := s.modTim (fun t => { t with parent := some m })
  if old.isSome && decide (old ≠ some m) then s.log 0x15 6 0xFF 0 m else s

/-- A stamp of this module: its pod time, with the quarter of a nanosecond that the command names. -/
def State.stamp (s : State) (q : Nat) : Nat := 4 * s.ezl.tim.now + q % 4

/-- Hops to the master. -/
def podHops (size a b : Nat) : Nat :=
  let d := podDims size
  let p := podCoord size a
  let q := podCoord size b
  let h := fun (n x y : Nat) => min ((y + n - x) % n) ((x + n - y) % n)
  h d.1 p.1 q.1 + h d.2.1 p.2.1 q.2.1 + h d.2.2 p.2.2 q.2.2

/-- SYNC_PERIOD in microseconds; 0 is treated as 1. -/
def State.syncPeriod (s : State) : Nat := max 1 (s.regF R.EZL_TIME_CFG 15 8)

/-- TIME_SYNC_PERIOD (R290): the parent starts an exchange on an UP link, stamped t1. -/
def execTimeSyncPeriod (l : LinkId) (t1 : Nat) (s : State) : Answer :=
  .next (if (s.lnk l.val).st = .up ∧ s.regB R.EZL_CTRL 1 then s.sendOn l.val ⟨6, 0, s.me, 0xFF, timeBytes 1 (s.stamp t1)⟩ else s)

/-- SYNC (R290): the child stamps the arrival t2 and sends DELAY_REQ stamped t3. -/
def execSync (l : LinkId) (t1 t2 t3 : Nat) (s : State) : Answer :=
  let s := s.takeRx 6 (fun f => f.startsWith (timeBytes 1 t1))
  .next (if s.exchangeOn l.val then
      ((s.noteParent (s.lnk l.val).peer).modTim (fun t => { t with t1 := t1, t2 := s.stamp t2, t3 := s.stamp t3 })).sendOn l.val
        ⟨6, 0, s.me, 0xFF, timeBytes 2 (s.stamp t3)⟩
    else s)

/-- DELAY_REQ (R290): the parent stamps the arrival t4 and returns it. -/
def execDelayReq (l : LinkId) (t3 t4 : Nat) (s : State) : Answer :=
  let s := s.takeRx 6 (fun f => f.startsWith (timeBytes 2 t3))
  .next (if ((s.lnk l.val).st = .up ∨ (s.lnk l.val).st = .retrain) ∧ s.regB R.EZL_CTRL 1 then
      s.sendOn l.val ⟨6, 0, s.me, 0xFF, timeBytes 3 (s.stamp t4)⟩ else s)

/-- The correction of R290 for an offset in eighths of a nanosecond. -/
def TimeSt.correct (t : TimeSt) (period : Nat) (off : Int) : TimeSt :=
  let rate := clampInt (-200000000) 200000000 (t.rate - (off * 62500000) / (period : Int))
  let good := if -8 ≤ off ∧ off ≤ 8 then min 8 (t.good + 1) else 0
  let t := { t with rate := rate, offset := off, good := good, locked := decide (good = 8), holdover := false }
  if off < -8000 then { t with now := (t.now + ((-off) / 8).toNat) % 2 ^ 64, slew := 0, left := 0, lead := 0 }
  else if 8000 < off then { t with lead := off, slew := 0, left := 0 }
  else { t with slew := -off, span := 1000 * period, left := 1000 * period, slewAcc := 0, lead := 0 }

/-- DELAY_RESP (R290): the child forms its offset, corrects its rate and its pod time. -/
def execDelayResp (l : LinkId) (t4 : Nat) (s : State) : Answer :=
  let s := s.takeRx 6 (fun f => f.startsWith (timeBytes 3 t4))
  .next (if s.exchangeOn l.val then
      let t := s.ezl.tim
      let off : Int := ((t.t2 : Int) - t.t1) - ((t4 : Int) - t.t3)
      s.modTim (fun t => t.correct s.syncPeriod off)
    else s)

/-- Another module becomes time master; every change is logged (R291). -/
def State.takeMaster (s : State) (m : Nat) : State :=
  if m = s.ezl.pod.master then s
  else (s.modEzl (fun e => { e with pod := { e.pod with master := m } })).eventLog R.EZL_EVENTS 6 0x15 6 0 m

/-- HOLDOVER (R291): without a parent for HOLDOVER ms, LOCKED clears, TIME_UNLOCKED is set, and TIME_MASTER_LOST goes to the partners; a module
that reaches no other becomes its own master. -/
def holdover (s : State) : State :=
  if s.me ≠ s.ezl.pod.master ∧ s.parentLink = none then
    let s := s.modTim (fun t => { t with locked := false, good := 0, holdover := true })
    let s := s.eventLog R.EZL_EVENTS 5 0x15 6 0 0
    if (List.range 18).any (fun l => decide ((s.lnk l).st = .up)) then
      (List.range 18).foldl (fun s l =>
        if (s.lnk l).st = .up then s.sendOn l ⟨3, 0, s.me, (s.lnk l).peer, ctrlBytes 6 { pos := s.me }⟩ else s) s
    else s.takeMaster s.me
  else s

def execHoldover (s : State) : Answer := .next (holdover s)

/-- TIME_MASTER_LOST (R291): the module with the lowest ID among those still reachable becomes master; every change is logged. -/
def timeMasterLost (src lowest : Nat) (s : State) : State :=
  (s.takeRx 3 (fun f => f.src == src && f.startsWith [6])).takeMaster lowest

def execTimeMasterLost (src lowest : Nat) (s : State) : Answer := .next (timeMasterLost src lowest s)

/-- TRIGGER_FRAME (R292): the first copy of an origin's number is queued for capture and forwarded on every other UP link; a copy
whose number equals the last one seen from that origin is dropped. -/
def triggerFrame (l : Nat) (f : TrigFrame) (s : State) : State :=
  let s := s.takeRx 5 (fun x => x.startsWith (TrigFrame.bytes f))
  if SMap.get (fun _ => none) s.ezl.seen f.origin = some f.num then s
  else
    let s := s.modEzl (fun e => { e with seen := SMap.set (fun _ => none) e.seen f.origin (some f.num) })
    let s := s.event R.EZL_EVENTS 7
    let s := s.flood (some l) ⟨5, 0, f.origin, 0xFF, (TrigFrame.bytes f)⟩
    s.queueTrig { t := f.t, cls := f.cls, origin := f.origin, num := f.num, remote := true }

def execTriggerFrame (l : LinkId) (f : TrigFrame) (s : State) : Answer := .next (triggerFrame l.val f s)

/-- One nanosecond of pod time (R290): at half rate while the module is ahead, with the correction of the last exchange spread over
SYNC_PERIOD, and with the accumulated rate correction. -/
def TimeSt.tick (t : TimeSt) : TimeSt :=
  let acc := t.acc + t.rate
  let extra : Int := if 1000000000000 ≤ acc then 1 else if acc ≤ -1000000000000 then -1 else 0
  let acc' := acc - extra * 1000000000000
  let base : Int := if 0 < t.lead then (if t.half then 0 else 1) else 1
  let sa := t.slewAcc + if 0 < t.left then t.slew else 0
  let sl : Int := if 0 < t.left ∧ 8 * (t.span : Int) ≤ sa then 1 else if 0 < t.left ∧ sa ≤ -8 * (t.span : Int) then -1 else 0
  let adv := (max 0 (base + sl + extra)).toNat
  { t with now := (t.now + adv) % 2 ^ 64, acc := acc', half := !t.half && decide (0 < t.lead),
           lead := if 0 < t.lead && t.half then t.lead - 8 else t.lead, slewAcc := sa - sl * (8 * t.span), left := t.left - 1 }

end Sys2Proof.Machine
end

