-- ==== Sys2Proof/Machine/ArrFit.lean ====
section
/-! DEFINITION. The calibration vector set and the normalised column error (R105), the verify characterisation of a programmed array
(R109), and the verify of one row (R116). -/

namespace Sys2Proof.Machine

/-! ### The calibration vector set (R105) -/

/-- Element `i` of calibration vector `v`. -/
def calInput (v i : Nat) : Int := ((15 * srUniform 0 0 0xFFFFFF (1024 * v + i) / 65536 : Nat) : Int) - 7

/-- Calibration vector `v` as its rows are driven, in INT4. -/
def calDrive (v : Nat) : List Nat := (List.range 1024).map (fun i => toTwos 4 (calInput v i))

/-- The converted shift-add result of a physical column for vector `v`: 1,024 rows, RANGE 1; `y` lists the counts that differ from those of
ideal cells. -/
def PhysSt.calSum (a : PhysSt) (y : SMap Nat) (v m : Nat) : Int :=
  (colSum 4 ((List.range 4).map (fun i =>
    convert (readBits 1024) (lsbExp 1024 1) ((SMap.find y ((4 * v + (3 - i)) * 1024 + m)).getD (a.ideal (calDrive v) (3 - i) m))))).acc

/-- The analogue value of weight column `j` before trims, in level units. -/
def PhysSt.calAnalogue (a : PhysSt) (y : SMap Nat) (v j : Nat) : Int :=
  2 ^ (lsbExp 1024 1).toNat * (a.calSum y v (2 * j) - a.calSum y v (2 * j + 1))

/-- The ideal value, from the target codes. -/
def PhysSt.calIdeal (a : PhysSt) (v j : Nat) : Int :=
  (List.range 1024).foldl (fun t r => t + calInput v r * codeVal (a.code r j)) 0

/-- Analogue and ideal value of a weight column over the vector set. -/
def PhysSt.calPairs (a : PhysSt) (y : SMap Nat) (j : Nat) : List (Int × Int) :=
  (List.range 256).map (fun v => (a.calAnalogue y v j, a.calIdeal v j))

/-- A weight column whose codes are all zero. -/
def PhysSt.blankCol (a : PhysSt) (j : Nat) : Bool := (List.range 1024).all (fun r => a.code r j == 0)

/-! ### Verify gain and offset, and the error (R105, R109) -/

def sumInt (l : List Int) : Int := l.foldl (fun a b => a + b) 0

/-- The FP16 gain and offset of the least-squares line ideal = gain * (analogue - off). DESIGN CHOICE: the sums are exact and each result
is rounded once; a column to which no line fits takes free values. -/
def fitColumn (l : List (Int × Int)) : Nat × Nat :=
  let n : Int := l.length
  let a := sumInt (l.map (·.1))
  let i := sumInt (l.map (·.2))
  let ai := n * sumInt (l.map (fun p => p.1 * p.2)) - a * i
  let aa := n * sumInt (l.map (fun p => p.1 * p.1)) - a * a
  if ai = 0 ∨ aa = 0 then (Config.blankGain.toNat, Config.blankOff.toNat)
  else (toFp16 (XNum.div (XNum.ofInt ai) (XNum.ofInt aa)), toFp16 (XNum.div (XNum.ofInt (ai * a - aa * i)) (XNum.ofInt (n * ai))))

/-- The analogue value after the trim step of R90, before the column scale; verify takes place at T0. -/
def calTrimmed (c : Nat × Nat) (z : Int) : Word :=
  f32Mul (f32Sub (toF32 (XNum.ofInt z)) (toF32 (fp16 c.2))) (toF32 (fp16 c.1))

def sumX (l : List XNum) : XNum := l.foldl XNum.add XNum.zero

/-- The normalised error of a weight column, FP32: the standard deviation of trimmed less ideal over the root mean square of the ideal.
DESIGN CHOICE: the standard deviation is that of the 256 values themselves, and the quotient is rounded once. -/
def colError (c : Nat × Nat) (l : List (Int × Int)) : Word :=
  let n := XNum.ofNat l.length
  let d := l.map (fun p => (f32 (calTrimmed c p.1)).sub (XNum.ofInt p.2))
  let var := (n.mul (sumX (d.map (fun x => x.mul x)))).sub ((sumX d).mul (sumX d))
  toF32 (XNum.div var (n.mul (XNum.ofInt (sumInt (l.map (fun p => p.2 * p.2)))))).sqrt

/-- Insert a positive FP32 value into an ascending list. -/
def insertWord (w : Word) : List Word → List Word
  | [] => [w]
  | x :: xs => if w.toNat ≤ x.toNat then w :: x :: xs else x :: insertWord w xs

/-- The median. DESIGN CHOICE: of an even number of values, the mean of the two in the middle. -/
def medianF32 (l : List Word) : Word :=
  let s := l.foldr insertWord []
  let h := s.length / 2
  if s.length % 2 = 1 then s.getD h 0 else f32Mul 0x3F000000 (f32Add (s.getD (h - 1) 0) (s.getD h 0))

/-- The verify characterisation: gain and offset of every weight column, and the array's error, FP16 (a free value where every column is
excluded). -/
structure VerifyOut where
  gain : SMap Nat := []
  off : SMap Nat := []
  eps : Nat := 0
deriving DecidableEq, Repr

def PhysSt.verify (a : PhysSt) (y : SMap Nat) : VerifyOut :=
  let fits := (List.range 512).map (fun j => (j, if a.blankCol j then (Config.blankGain.toNat, Config.blankOff.toNat) else fitColumn (a.calPairs y j)))
  let errs := (fits.filter (fun p => !a.blankCol p.1)).map (fun p => colError p.2 (a.calPairs y p.1))
  { gain := mapOf 0x3C00 (fits.map (fun p => (p.1, p.2.1)))
    off := mapOf 0 (fits.map (fun p => (p.1, p.2.2)))
    eps := if errs.isEmpty then Config.blankEps.toNat else toFp16 (f32 (medianF32 errs)) }

/-! ### The verify of one row (R116) -/

/-- What the pulses and verify reads of a row come to. -/
structure RowEnd where
  pulsed : Bool := false
  marginal : Nat := 0
  failed : Bool := false
  /-- the last verify read: cells off their target, in units of 1/32 level -/
  dev : List (Nat × Int) := []
deriving DecidableEq, Repr

/-- Every cell lies within a quarter level of its target. -/
def inTol (l : List (Nat × Int)) : Bool := l.all (fun p => decide (p.2.natAbs ≤ 8))

/-- Up to six cycles of pulse and verify: the row ends with the first verify read whose cells are all within tolerance, or with the one after
the sixth cycle. A verify read that is not given finds every cell at its target. -/
def rowEnd (reads : RowReads) : RowEnd :=
  let i := ((List.range 7).find? (fun i => inTol (reads.getD i []))).getD 6
  let l := reads.getD i []
  { pulsed := decide (0 < i), marginal := (l.filter (fun p => decide (8 < p.2.natAbs) && decide (p.2.natAbs ≤ 32))).length,
    failed := l.any (fun p => decide (32 < p.2.natAbs)), dev := l }

/-- The measured level of a cell after programming, in quarter levels: its target and how far the last verify read lies from it. -/
def RowEnd.quarters (o : RowEnd) (target m : Nat) : Int := nearQuarter (32 * (target : Int) + (SMap.find o.dev m).getD 0).toNat

end Sys2Proof.Machine
end

