-- ==== Sys2Proof/Machine/Prog.lean ====
section
/-! DEFINITION. Meanings of the programming engine's commands (R113 to R119, R132, R419) and of the power-up sweep (R130 to R132, R418). -/

namespace Sys2Proof.Machine

/-! ### Starting a job (R115) -/

/-- A position is programmed in place: its layer is in fallback, or it waits for codes from the host. -/
def PosSt.inPlace (p : PosSt) : Bool := p.fb || p.waitHost

/-- Some token in flight still runs a position of a layer in fallback on its array (R125). -/
def State.leaving (s : State) (p : PosSt) : Bool := p.fb && s.mem.ctx.any (fun c => c.2.inTok && !p.fbFor c.2.view)

/-- A job can start now: a marked refresh waits for its projection; standby programming waits until every context has left the arrays; a
rescaled position is programmed in place only; other jobs need a FREE spare. What still runs on the array ends first (R123). -/
def State.jobReady (s : State) (k : Nat) (j : Job) : Bool :=
  let p := s.pos k j.pos
  let waits := j.refresh && p.mark && decide (3 ≤ j.cls)
  if waits then false
  else if p.inPlace then
    (match s.physOf k j.pos with
     | some a => decide ((s.phys k a).use = .idle) && !s.leaving p
     | none => false)
  else !p.rescaled && decide ((s.tile k (j.pos / 16)).spare = .free)
    && decide ((s.phys k (17 * (j.pos / 16) + (s.tile k (j.pos / 16)).slot)).use = .idle)

/-- The order of R115: class, then the larger lag, then the older trigger, then the lower position. -/
def State.jobBefore (s : State) (k : Nat) (x y : Job) : Bool :=
  let lx := s.posLag k x.pos
  let ly := s.posLag k y.pos
  decide (x.cls < y.cls) || (decide (x.cls = y.cls) && (decide (ly < lx) || (decide (lx = ly) &&
    (decide (x.age < y.age) || (decide (x.age = y.age) && decide (x.pos < y.pos))))))

/-- The best job of a tile that can start. -/
def State.bestJob (s : State) (k t : Nat) : Option Job :=
  ((s.kao k).jobs.filter (fun j => decide (j.pos / 16 = t) && s.jobReady k j)).foldl (fun b j => match b with
    | none => some j
    | some x => if s.jobBefore k j x then some j else some x) none

/-- Tiles that program. -/
def State.busyTiles (s : State) (k : Nat) : Nat :=
  (s.arr.tile.filter (fun t => decide (t.1 / 96 = k) && t.2.job.isSome)).length

def State.progTiles (s : State) (k : Nat) : Nat := max 1 (min 32 (s.regF (R.ARR_DRIFT_CTRL k) 21 16))

/-- The lowest tile with a job to start. -/
def State.nextTile (s : State) (k : Nat) : Option (Nat × Job) :=
  (List.range 96).findSome? (fun t => if (s.tile k t).job.isSome then none else (s.bestJob k t).map (fun j => (t, j)))

/-- The area that holds the codes of a job. -/
def State.jobArea (s : State) (fromShadow : Bool) : Nat := if fromShadow then s.arr.shadow else s.arr.target

/-- The code byte that row `r`, weight column `c` of a position's array gets: 0 beyond the matrix. -/
def State.jobCode (s : State) (k pos : Nat) (fromShadow : Bool) (r c : Nat) : Byte :=
  match s.posMat k pos with
  | some (e, cb, rb) =>
    if r < e.rows rb ∧ c < e.cols cb then s.mem.byte (s.codeAddr (s.jobArea fromShadow) e (rb * e.h + r) (512 * cb + c)) else 0
  | none => 0

/-- Rows of an array that do not hold the job's codes. -/
def State.staleRows (s : State) (k pos a : Nat) (fromShadow : Bool) : List Nat :=
  (List.range 1024).filter (fun r => (List.range 512).any (fun c => (s.phys k a).code r c != s.jobCode k pos fromShadow r c))

/-- PROG_JOB_START (R115): a job on the spare writes every row, one in place the changed rows (R200). Codes of LOAD and of the image carry
STEP_COUNT, those of a projection its step (R418). -/
def progJobStart (k : Nat) (s : State) : State :=
  if s.regB (R.ARR_DRIFT_CTRL k) 1 && decide (s.busyTiles k < s.progTiles k) then
    match s.nextTile k with
    | none => s
    | some (t, j) =>
      let p := s.pos k j.pos
      let ts := s.tile k t
      let slot := if p.inPlace then p.slot.getD 16 else ts.slot
      let shadow := j.load || s.fromShadow k j.pos
      let rows := if p.inPlace then
          (List.range 1024).filter (fun r => p.changed.contains r || (s.staleRows k j.pos (17 * t + slot) shadow).contains r)
        else List.range 1024
      let run : RunJob := { job := { j with fromShadow := shadow }, slot := slot, inPlace := p.inPlace, rows := rows,
                            version := (p.version + 1) % 2 ^ 32, step := if shadow then s.pair R.STEP_COUNT else p.projStep }
      let s := s.setKao k { s.kao k with jobs := (s.kao k).jobs.filter (fun x => x ≠ j) }
      let s := s.setPos k j.pos { p with changed := [] }
      let s := s.setPhys k (17 * t + slot) { s.phys k (17 * t + slot) with use := .programming }
      s.setTile k t { ts with job := some run, spare := if p.inPlace then ts.spare else .prog }
  else s

def execProgJobStart (k : Kaolin) (s : State) : Answer := .next (progJobStart k.val s)

/-! ### Rows (R116, R117) -/

/-- The job of a tile goes back to the queue. -/
def State.requeue (s : State) (k t : Nat) (cls : Nat) : State :=
  match (s.tile k t).job with
  | some r =>
    let s := s.setTile k t { s.tile k t with job := none }
    let s := s.setPhys k (17 * t + r.slot) { s.phys k (17 * t + r.slot) with use := .idle }
    let jobs := (s.kao k).jobs
    let old := jobs.find? (fun j => j.pos == r.job.pos)
    let new := match old with
      | some j => { r.job with cls := min cls j.cls, age := min r.job.age j.age, refresh := r.job.refresh || j.refresh,
                               load := r.job.load || j.load, fromShadow := r.job.fromShadow && j.fromShadow }
      | none => { r.job with cls := cls }
    s.setKao k { s.kao k with jobs := jobs.filter (fun j => j.pos ≠ r.job.pos) ++ [new] }
  | none => s

/-- The spare of a tile is retired: the tile enters NONE. -/
def State.retireSpare (s : State) (k t slot : Nat) : State :=
  ((s.retireArray k t slot).enterNone k t).log (0x20 + k) 5 4 0 (17 * t + slot)

/-- A row holds an illegal code (R58). -/
def State.rowIllegal (s : State) (k pos : Nat) (fromShadow : Bool) (r : Nat) : Bool :=
  (List.range 512).any (fun c => (codeOf (s.jobCode k pos fromShadow r c)).2)

/-- Row `r` of an array takes a row of codes. -/
def PhysSt.setRow (x : PhysSt) (r : Nat) (code : Nat → Byte) : PhysSt :=
  { x with codes := (List.range 512).foldl (fun m c => SMap.set (fun _ => 0) m (r * 512 + c) (code c)) x.codes }

/-- The measured codes of a row after its last verify read, and its write count (R117, R128). -/
def PhysSt.rowDone (x : PhysSt) (r : Nat) (o : RowEnd) : PhysSt :=
  { x with
    meas := (List.range 512).foldl (fun m c => SMap.set (fun _ => 0) m (r * 512 + c)
      (o.quarters (x.level r (2 * c)) (2 * c) - o.quarters (x.level r (2 * c + 1)) (2 * c + 1) - 4 * codeVal (x.code r c))) x.meas
    writes := if o.pulsed then SMap.set (fun _ => 0) x.writes r (SMap.get (fun _ => 0) x.writes r + 1) else x.writes }

/-- The array of a job after row `r` of it is written and verified. -/
def State.rowWritten (s : State) (k t : Nat) (run : RunJob) (r : Nat) (reads : RowReads) : PhysSt :=
  ((s.phys k (17 * t + run.slot)).setRow r (s.jobCode k run.job.pos run.job.fromShadow r)).rowDone r (rowEnd reads)

/-- The array `y` of a job holds the row written, and `rest` is left to write. -/
def State.rowLeft (s : State) (k t : Nat) (run : RunJob) (rest : List Nat) (reads : RowReads) (y : PhysSt) : State :=
  let o := rowEnd reads
  let s := (s.setPhys k (17 * t + run.slot) y).when o.pulsed (fun s => s.incPair (R.ARR_ROWPROG k) 1)
  s.setTile k t { s.tile k t with job := some { run with rows := rest, failed := run.failed || o.failed,
                                                          marginal := run.marginal + o.marginal } }

/-- PROG_ROW (R116, R117): the next row of a tile's job; what its verify reads find comes from outside. DESIGN CHOICE: a row that a job
writes anew, after a failure or for a newer projection, counts a write each time it is pulsed. -/
def progRow (k t : Nat) (reads : RowReads) (s : State) : State :=
  match (s.tile k t).job with
  | none => s
  | some run =>
    match run.rows with
    | [] => s
    | r :: rest =>
      if s.rowIllegal k run.job.pos run.job.fromShadow r then
        (s.setTile k t { s.tile k t with job := some { run with rows := rest, failed := true } }).log (0x20 + k) 1 0xFF 1
          (run.job.pos + r * 2 ^ 16)
      else if !run.inPlace && (s.rowWritten k t run r reads).worn then
        (((s.rowLeft k t run rest reads (s.rowWritten k t run r reads)).requeue k t run.job.cls).retireSpare k t run.slot).event
          (R.ARR_DRIFT_EVENTS k) 12
      else s.rowLeft k t run rest reads (s.rowWritten k t run r reads)

def execProgRow (k : Kaolin) (t : Fin 96) (v0 v1 v2 : VerifyRead) (vs : RowReads) (s : State) : Answer :=
  .next (progRow k.val t.val (v0 :: v1 :: v2 :: vs) s)

/-! ### The end of a job (R118, R119, R419) -/

/-- The hash of an array's codes (R119). -/
def PhysSt.codeHash (a : PhysSt) : List Byte := sha256 ((List.range 524288).map (fun i => SMap.get (fun _ => 0) a.codes i))

/-- The array after a job has passed: it is characterised (R105, R109) and its metadata rows are written. DESIGN CHOICE: the temperature
coefficient in the record is the one that the array already had; the spec does not say how one is found at programming. -/
def State.programmed (s : State) (k t : Nat) (run : RunJob) (f : VerifyFit) : PhysSt :=
  let x := s.phys k (17 * t + run.slot)
  let scales := match s.posMat k run.job.pos with
    | some (e, cb, _) => (List.range (e.cols cb)).foldl (fun m c =>
        SMap.set (fun _ => 0x3C00) m c (s.hbmNum (s.scaleAddr (s.jobArea run.job.fromShadow) e (512 * cb + c)) 2)) []
    | none => []
  let v := x.verify f.y
  let r : ArrRec := { pos := run.job.pos, version := run.version, step := run.step, hash := x.codeHash, epsV := v.eps, tm := f.tm,
                      gref := f.gref, dref := f.dref, tc := x.tc, powered := (s.reg R.PWR_POWERED).toNat,
                      maxW := (x.writes.map (·.2)).foldl max 0, metaW := (x.record.getD {}).metaW + 1, marginal := run.marginal,
                      retired := false }
  { x with scales := scales, vgain := v.gain, voff := v.off, record := some r, use := .idle, confirmed := true,
           reads := [], hist := [], fit := none }

/-- A job passed, and the array is as given. LOAD confirms the position (R132). -/
def State.jobPass (s : State) (k t : Nat) (run : RunJob) (x : PhysSt) : State :=
  let pos := run.job.pos
  let s := s.setPhys k (17 * t + run.slot) x
  if run.inPlace then
    let s := s.setTile k t { s.tile k t with job := none }
    if (s.pos k pos).waitHost && run.job.load then s.setPos k pos { s.pos k pos with unconf := false } else s
  else s.setTile k t { s.tile k t with job := none, spare := .ready, ready := some (pos, run.job.refresh) }

/-- The tile's spare becomes the array of a position that lost its own, at once or when it is FREE; the job is queued again in place, as one
of LOAD where it was one (R419, R132). -/
def State.takeSpare (s : State) (k t : Nat) (job : Job) : State :=
  let ts := s.tile k t
  let pos := job.pos
  let again := fun (s : State) => (s.queueJob k pos 1).when job.load (fun s => s.markLoad k pos)
  match ts.spare with
  | .free | .ready | .prog =>
    let s := s.setPos k pos { s.pos k pos with slot := some ts.slot }
    again (s.enterNone k t)
  | .drain => again (s.setPos k pos { s.pos k pos with slot := none })
  | .none => (s.setPos k pos { s.pos k pos with slot := none }).event (R.ARR_DRIFT_EVENTS k) 5

/-- A job failed verify: the first time it is retried on the same array, the second time the array is retired. -/
def State.jobFail (s : State) (k t : Nat) (run : RunJob) : State :=
  if !run.retried then
    s.setTile k t { s.tile k t with job := some { run with retried := true, failed := false, marginal := 0, rows := List.range 1024 } }
  else
    let s := (s.event (R.ARR_DRIFT_EVENTS k) 3).event (R.ARR_DRIFT_EVENTS k) 4
    if run.inPlace then
      let s := s.setTile k t { s.tile k t with job := none }
      let s := s.setPhys k (17 * t + run.slot) { s.phys k (17 * t + run.slot) with use := .idle }
      let s := (s.retireArray k t run.slot).log (0x20 + k) 5 4 0 (17 * t + run.slot)
      s.takeSpare k t run.job
    else (s.requeue k t run.job.cls).retireSpare k t run.slot

/-- The end of a job whose data rows have all passed: the array is characterised; unless its verify error is too large, the metadata rows
are written and verified as data rows are (R116, R118, R119). -/
def State.jobVerify (s : State) (k t : Nat) (run : RunJob) (f : VerifyFit) (ends : List RowEnd) : State :=
  let x := s.programmed k t run f
  if epsAtLeast x.epsV (s.refreshThresh k) then s.jobFail k t run
  else
    let s := s.incPair (R.ARR_ROWPROG k) (ends.filter (·.pulsed)).length
    if ends.any (·.failed) then s.jobFail k t run else s.jobPass k t run x

/-- PROG_JOB_COMPLETE (R118): all rows are written and none changed since; `metaReads` are the verify reads of the metadata rows. -/
def progJobComplete (k t : Nat) (f : VerifyFit) (metaReads : List RowReads) (s : State) : State :=
  match (s.tile k t).job with
  | none => s
  | some run =>
    let p := s.pos k run.job.pos
    if !run.failed && (!run.rows.isEmpty) then s
    else if !run.failed && !p.changed.isEmpty && !run.job.fromShadow then
      (s.setPos k run.job.pos { p with changed := [] }).setTile k t
        { s.tile k t with job := some { run with rows := p.changed, step := p.projStep } }
    else if run.failed then s.jobFail k t run
    else s.jobVerify k t run f ((metaReads.take 16).map rowEnd)

def execProgJobComplete (k : Kaolin) (t : Fin 96) (f : VerifyFit) (metaReads : List RowReads) (s : State) : Answer :=
  .next (progJobComplete k.val t.val f metaReads s)

/-! ### The power-up sweep (R130 to R132, R418) -/

/-- An array confirms: it has a record, is not retired, and its codes have the record's hash. -/
def PhysSt.confirms (x : PhysSt) : Bool := match x.record with
  | some r => !r.retired && decide (x.codeHash = r.hash)
  | none => false

/-- An array as the sweep reads it: metadata rows, data rows, and after a mismatch of the hash the data rows once more (R130). -/
def SweepRead.array (x : PhysSt) (r : SweepRead) : PhysSt :=
  let m := x.withMeta r.metaRows
  if (m.withCells r.cells).confirms || m.record.isNone then m.withCells r.cells else m.withCells r.again

/-- A calibration read with all its codes, of the converter's 12 bits. -/
def clampRead (r : CalRead) : CalRead := { r with codes := calCodes r.codes }

/-- The 8 calibration reads of the sweep; one that is not given finds ideal cells. -/
def sweepReads (reads : List CalRead) : List CalRead :=
  (List.range 8).map (fun i => clampRead (reads.getD i { odd := decide (i % 2 = 1), codes := [], t := (reads.headD {}).t }))

/-- The array after its sweep: what it holds, whether it confirms, and its fit over 8 calibration reads (R130, R131). `seen` is what it held
without power; without it the array holds what `State` holds. -/
def PhysSt.sweptNow (x : PhysSt) (seen : Option SweepRead) (reads : List CalRead) (now : Nat) : PhysSt :=
  let x := match seen with
    | some r => SweepRead.array x r
    | none => x
  let x := { x with tc := (match x.record with | some r => r.tc | none => 0), hist := [], fit := none, confirmed := x.confirms,
                    reads := sweepReads reads }
  { x.fitNow with readN := x.readN + 8, lastRead := now }

/-- A confirmed array of a tile serves a position. -/
def State.tileConfirms (s : State) (k t pos : Nat) : Bool :=
  (List.range 17).any (fun i =>
    let x := s.phys k (17 * t + i)
    x.confirmed && (match x.record with | some r => decide (r.pos = pos) | none => false))

/-- SWEEP_ARRAY (R130): one array of a die in the sweep; its position is confirmed where a confirmed array of its tile names it. -/
def sweepArray (k a : Nat) (seen : Option SweepRead) (reads : List CalRead) (s : State) : State :=
  if s.img.stage = 9 ∧ (s.kao k).swept.testBit a = false then
    let x := (s.phys k a).sweptNow seen reads s.time
    let s := (s.setPhys k a x).setKao k { s.kao k with swept := (s.kao k).swept + 2 ^ a }
    match x.record with
    | some r =>
      if (s.posMat k r.pos).isSome && !r.retired then
        s.setPos k r.pos { s.pos k r.pos with unconf := !(s.tileConfirms k (a / 17) r.pos) }
      else s
    | none => s
  else s

def execSweepArray (k : Kaolin) (a : Fin 1632) (seen : Option SweepRead) (reads : List CalRead) (s : State) : Answer :=
  .next (sweepArray k.val a.val seen reads s)

/-- Every array of every die has been swept. -/
def State.sweptAll (s : State) : Bool := (List.range 16).all (fun d => decide ((s.kao d).swept = 2 ^ 1632 - 1))

/-- The slots of a tile whose record names a position: the confirmed ones first, then the newest version. -/
def State.holderOf (s : State) (k pos : Nat) : Option Nat :=
  let t := pos / 16
  ((List.range 17).filter (fun i => match (s.phys k (17 * t + i)).record with
    | some r => decide (r.pos = pos) && !r.retired
    | none => false)).foldl (fun b i => match b with
      | none => some i
      | some j =>
        let x := s.phys k (17 * t + i)
        let y := s.phys k (17 * t + j)
        let vx := (x.record.getD {}).version
        let vy := (y.record.getD {}).version
        if (x.confirmed && !y.confirmed) || (x.confirmed == y.confirmed && decide (vy < vx)) then some i else some j) none

/-- The arrays of one tile after the sweep: each position keeps the array whose record names it; the others take the arrays left, in
ascending order; the last one left is the spare, and one at end of life is retired (R117). -/
def State.placeTile (s : State) (k t : Nat) : State :=
  let held := (List.range 16).map (fun i => s.holderOf k (16 * t + i))
  let dead := (List.range 17).filter (fun i => match (s.phys k (17 * t + i)).record with | some r => r.retired | none => false)
  let left := (List.range 17).filter (fun i => !(held.contains (some i)) && !(dead.contains i))
  let r := (List.range 16).foldl (fun (a : State × List Nat) i =>
    match held.getD i none with
    | some x => (a.1.setPos k (16 * t + i) { a.1.pos k (16 * t + i) with slot := some x, prev := none }, a.2)
    | none => (a.1.setPos k (16 * t + i) { a.1.pos k (16 * t + i) with slot := a.2.head?, prev := none }, a.2.drop 1)) (s, left)
  match r.2.head? with
  | none => r.1.setTile k t { spare := .none, slot := 31, retired := dead.length }
  | some x =>
    let s := r.1.setTile k t { spare := .free, slot := x, retired := dead.length }
    if (s.phys k (17 * t + x)).worn then (s.retireSpare k t x).event (R.ARR_DRIFT_EVENTS k) 12 else s

/-- One position after the sweep (R131, R132, R418). -/
def State.sweepPos (s : State) (k pos : Nat) : State :=
  let x := s.physAt k pos
  let r := x.record.getD {}
  let named := match x.record with | some r => decide (r.pos = pos) | none => false
  let ok := x.confirmed && named
  let img := match s.posMat k pos with
    | some (e, _, _) => s.arr.imageCodes.contains (e.die, e.idx)
    | none => false
  let p := s.pos k pos
  let s := s.setPos k pos { p with version := if named then r.version else 0, step := if named then r.step else 0,
                                   projStep := if named then r.step else 0, unconf := !ok, waitHost := !ok && !img, msValid := ok,
                                   msUse := false, fb := false, fbWas := [], cause := 0, changed := [], mark := false, rescaled := false,
                                   noProj := !ok }
  let s := if ok then s.shadowFrom k pos x else s.event (R.ARR_DRIFT_EVENTS k) 11
  s.copyArea s.arr.shadow s.arr.target k pos

/-- The cause for which a layer starts in fallback: 3 unconfirmed with image codes, 2 a confirmed array at the error limit. DESIGN CHOICE:
where both hold it is 3. -/
def State.startCause (s : State) (layer : Nat) : Option Nat :=
  let l := s.layerPos layer
  if l.any (fun q => (s.pos q.1 q.2).unconf && !(s.pos q.1 q.2).waitHost) then some 3
  else if l.any (fun q => !(s.pos q.1 q.2).unconf && epsAtLeast (s.physAt q.1 q.2).epsHat (s.errLimit q.1)) then some 2
  else none

/-- The end of the sweep: the initial image set (R17, R131, R132, R418) and the trim sets formed from it. -/
def State.sweepEnd (s : State) : State :=
  let s := (List.range 1536).foldl (fun s i => s.placeTile (i / 96) (i % 96)) s
  let s := s.allPos.foldl (fun s q => s.sweepPos q.1 q.2) s
  let s := s.unitList.foldl (fun s l => match s.startCause l with
    | some c => s.fbEnter s.arr.view l c
    | none => s) s
  let s := s.allPos.foldl (fun s q => if (s.pos q.1 q.2).unconf then s else match s.physOf q.1 q.2 with
    | some a => s.estimateTriggers q.1 a
    | none => s) s
  (List.range 16).foldl (fun s d => s.setKao d { s.kao d with bank0 := s.trimSet d, bank1 := [], bankSel := false, published := false,
                                                               held := none, swept := 0 }) s

end Sys2Proof.Machine
end

