-- ==== Sys2Proof/Machine/StepControl.lean ====
section
/-! DEFINITION. Meanings of the step-control commands of a replica group: readiness, commit tokens, abort requests, timeouts, queries
(R27 to R33, R287 to R289), holds (R40), and host decisions (R41, R42, R422). -/

namespace Sys2Proof.Machine

/-! ### Readiness and voting (R27, R28) -/

/-- Buckets per attempt of a channel (R208). -/
def State.chanPlan (s : State) (c : Nat) : Nat := ((s.red.table.filter (fun e => e.channel == c)).map (·.count)).sum

/-- Every bucket of the attempt has been delivered and every block written (R27, R185, R219). -/
def State.partsDone (s : State) : Bool :=
  (List.range 8).all (fun c => decide (s.chanPlan c ≤ (s.chan c).deliverPt))
    && (List.range 2).all (fun d => !(s.upd.table.any (fun e => e.die == d)) || (s.updD d).complete)

/-- Forward the first-pass token that waits here, with this member's votes. -/
def State.forwardWait (s : State) : State :=
  match s.stp.waitToken with
  | some t => (s.sendToken (s.vote t)).modStp (fun x => { x with waitToken := none, voted := true })
  | none => s

/-- A ready member forwards the waiting token; a SKIP flag that disagrees with its own evaluation is an abort reason (R29, R223). -/
def State.readyForward (s : State) : State :=
  match s.stp.waitToken with
  | some t =>
    if !t.abort && s.stp.abort.isNone && (t.skip != s.stp.skipVote) then s.findAbort 5 0 0xFFFFFFFF 0xFF else s.forwardWait
  | none => s

/-- MEMBER_READY (R27): the draft record is written, then the member votes. -/
def memberReady (s : State) : State :=
  if s.stp.isOpen && !s.stp.drafted && s.stp.fixed.isNone && s.partsDone then
    let skip := (s.updD 0).skip || (s.updD 1).skip
    let s := s.draftRecord.modStp (fun x => { x with phase := .vote, skipVote := skip })
    let s := s.when skip (fun s => s.event R.UPD_EVENTS 4)
    if s.groupN ≤ 1 then
      s.applyDecision (if skip then .skip else .commit) s.stepNum s.stp.attempt 0 0xFF (s.regB R.STEP_CTRL 8)
    else if s.red.pos = 0 then (if s.stp.firstSent then s else s.sendFirst)
    else s.readyForward
  else s

def execMemberReady (s : State) : Answer := .next (memberReady s)

/-! ### Commit tokens (R28, R30, R226, R287) -/

/-- A token that names this member's epoch, step and attempt (R216, R287). -/
def State.tokenMatches (s : State) (step epoch att : Nat) : Bool :=
  decide (epoch = s.epoch) && decide (step = s.stepNum) && decide (att = s.attNum)

/-- The same frame again (R287). -/
def Token.same (a b : Token) : Bool := a.step == b.step && a.attempt == b.attempt && a.epoch == b.epoch && a.second == b.second

/-- Position 0 fixes the decision and sends the second pass (R28). -/
def State.fixDecision (s : State) (dec : Decision) (t : Token) : State :=
  let r : DecRec := { step := s.stepNum, attempt := s.attNum, epoch := s.epoch, decision := dec, reason := t.reason,
                      voter := t.firstVoter, hold := t.hold }
  let s := s.modStp (fun x =>
    { x with fixed := some r, phase := if x.phase.rest then x.phase else .decided, secondSent := true })
  s.sendToken { t with second := true, decision := some dec }

/-- The first pass is back at position 0 (R28, R29). -/
def State.firstReturned (s : State) (t : Token) : State :=
  if s.stp.fixed.isSome then s
  else
    let s := if !t.abort && s.stp.heldReq.isNone && s.stp.abort.isNone && s.stp.drafted && (t.skip != s.stp.skipVote) then
        s.findAbort 5 0 0xFFFFFFFF 0xFF
      else s
    let t := if t.abort then t else match s.stp.heldReq with
      | some r => { t with abort := true, reason := r.1, firstVoter := r.2 }
      | none => t
    s.fixDecision (if t.abort then .abort else if t.skip then .skip else .commit) t

/-- A first-pass token of this attempt reaches a member (R27). -/
def State.firstForward (s : State) (t : Token) : State :=
  let s := s.modStp (fun x => { x with waitToken := some t })
  if t.abort then s.openFor.forwardWait
  else if s.stp.isOpen && s.stp.abort.isSome then s.forwardWait
  else if s.stp.isOpen && s.stp.drafted then s.readyForward
  else s

/-- FIRST_PASS_TOKEN (R27, R28, R287). -/
def firstPassToken (t : Token) (s : State) : State :=
  let s := s.takeRx 4 (fun f => f.startsWith (Token.bytes t))
  if t.gid ≠ s.red.gid ∨ t.size ≠ s.groupN then s.event R.EZL_EVENTS 9
  else if t.epoch < s.epoch ∨ s.stp.seen.any (Token.same t) then s
  else
    let s := s.modStp (fun x => { x with seen := x.seen ++ [t] })
    if s.tokenMatches t.step t.epoch t.attempt then
      (if s.red.pos = 0 then (if s.stp.firstSent then s.firstReturned t else s) else s.firstForward t)
    else
      let s := if s.red.pos = 0 then s else s.modStp (fun x => { x with waitToken := some t })
      let s := s.findAbort 3 0xFF 0xFFFFFFFF 0xFF
      match s.stp.waitToken with
      | some w =>
        let w' := if w.abort then w else { w with abort := true, reason := 0x3FF, firstVoter := s.red.pos }
        (s.modStp (fun x => { x with waitToken := some w' })).forwardWait
      | none => s

def execFirstPassToken (t : Token) (s : State) : Answer := .next (firstPassToken t s)

/-- Apply a decision that position 0 has fixed, as a second pass carries it (R28, R226): one that names another step or attempt and
is no abort ends the own attempt with STEP_MISMATCH. -/
def State.takeDecision (s : State) (dec : Decision) (step epoch att reason voter : Nat) (hold : Bool) : State :=
  if s.tokenMatches step epoch att || decide (dec = .abort) then
    s.openFor.applyDecision dec step att reason voter hold
  else
    let s := (s.setReg R.RED_LAST_ABORT (packFields [(24, 0xFF), (0, 0x3FF)])).setRegN R.RED_LAST_SEQ 0xFFFFFFFF
    let s := s.eventLog R.RED_EVENTS 2 0x12 4 3 0xFF
    s.openFor.applyDecision .abort s.stepNum s.attNum 0x3FF s.red.pos hold

/-- SECOND_PASS_TOKEN (R28, R30). DEDUCED: a pass of another step, attempt or epoch ends at position 0, where it is a step-counter mismatch
(R287). -/
def secondPassToken (t : Token) (s : State) : State :=
  let s := s.takeRx 4 (fun f => f.startsWith (Token.bytes t))
  if t.gid ≠ s.red.gid ∨ t.size ≠ s.groupN then s.event R.EZL_EVENTS 9
  else if t.epoch < s.epoch ∨ s.stp.seen.any (Token.same t) then s
  else
    let s := s.modStp (fun x => { x with seen := x.seen ++ [t] })
    if s.red.pos = 0 then
      if s.tokenMatches t.step t.epoch t.attempt then
        (match s.stp.fixed with
         | some r => s.applyDecision r.decision r.step r.attempt r.reason r.voter r.hold
         | none => s)
      else s.findAbort 3 0xFF 0xFFFFFFFF 0xFF
    else match t.decision with
      | some d => (s.takeDecision d t.step t.epoch t.attempt t.reason t.firstVoter t.hold).sendToken t
      | none => s

def execSecondPassToken (t : Token) (s : State) : Answer := .next (secondPassToken t s)

/-! ### Abort requests (R29, R289) -/

/-- ABORT_REQUEST (R29): before the first pass it is sent at once with ABORT; while it is out the request is held; after the decision
is fixed it is logged. -/
def abortRequest (c : CtrlMsg) (s : State) : State :=
  let s := s.takeRx 3 (fun f => f.startsWith (ctrlBytes 1 c))
  if s.red.pos ≠ 0 ∨ s.groupN ≤ 1 then s
  else if c.epoch < s.epoch ∨ s.stp.fixed.isSome then s.log 9 1 0xFF c.reason c.pos
  else if s.stp.firstSent then s.modStp (fun x => { x with heldReq := some (x.heldReq.getD (c.reason, c.pos)) })
  else (s.openFor.modStp (fun x => { x with heldReq := some (c.reason, c.pos) })).sendFirst

def execAbortRequest (c : CtrlMsg) (s : State) : Answer := .next (abortRequest c s)

/-- ABORT_REQUEST_TIMEOUT (R289): position 0 decides abort without waiting for the first pass. -/
def abortRequestTimeout (s : State) : State :=
  if s.red.pos = 0 ∧ s.stp.firstSent ∧ s.stp.fixed.isNone ∧ (s.stp.heldReq.isSome ∨ s.stp.abort.isSome) then
    s.fixDecision .abort { s.firstToken with abort := true }
  else s

def execAbortRequestTimeout (s : State) : Answer := .next (abortRequestTimeout s)

/-! ### Lost decisions (R32, R33, R289) -/

/-- COMMIT_TIMEOUT (R32): a voted member asks position 0; the first query of the attempt is recorded. -/
def commitTimeout (s : State) : State :=
  if s.stp.isOpen ∧ s.stp.voted ∧ s.red.pos ≠ 0 ∧ 1 < s.groupN then
    let s := if s.stp.queried then s
      else (s.eventLog R.STEP_EVENTS 5 9 4 0 s.stp.attempt).modStp (fun x =>
        { x with queried := true, phase := if x.phase.rest then x.phase else .decided })
    s.sendCtrl (s.moduleAt 0) 2 { step := s.stepNum, attempt := s.attNum, epoch := s.epoch, src := s.me }
  else s

def execCommitTimeout (s : State) : Answer := .next (commitTimeout s)

/-- What a reply or a direct decision carries. -/
def DecRec.ctrl (r : DecRec) (me : Nat) : CtrlMsg :=
  { step := r.step, attempt := r.attempt, epoch := r.epoch, reason := r.reason, pos := r.voter, decision := some r.decision, src := me }

/-- Position 0 sends a frame to every other member by routing. -/
def State.sendMembers (s : State) (c : CtrlMsg) : State :=
  ((List.range s.groupN).drop 1).foldl (fun s p => s.sendCtrl (s.moduleAt p) 4 c) s

/-- SECOND_PASS_TIMEOUT (R33). -/
def secondPassTimeout (s : State) : State :=
  match s.stp.fixed with
  | some r =>
    if s.red.pos = 0 ∧ s.stp.secondSent then
      let s := s.eventLog R.STEP_EVENTS 5 9 4 0 s.stp.attempt
      let s := s.applyDecision r.decision r.step r.attempt r.reason r.voter r.hold
      s.sendMembers (r.ctrl s.me)
    else s
  | none => s

def execSecondPassTimeout (s : State) : Answer := .next (secondPassTimeout s)

/-- DECISION_QUERY (R289): answered once the decision of the named attempt is fixed. -/
def decisionQuery (c : CtrlMsg) (s : State) : State :=
  let s := s.takeRx 3 (fun f => f.src == c.src && f.startsWith (ctrlBytes 2 c))
  if s.red.pos ≠ 0 then s
  else match (s.stp.fixed.toList ++ s.stp.decisions).find? (fun r =>
      decide (r.step = c.step) && decide (r.attempt = c.attempt) && decide (r.epoch = c.epoch)) with
    | some r => s.sendCtrl c.src 3 (r.ctrl s.me)
    | none => s

def execDecisionQuery (c : CtrlMsg) (s : State) : Answer := .next (decisionQuery c s)

/-- DECISION_REPLY (R32). -/
def decisionReply (c : CtrlMsg) (s : State) : State :=
  let s := s.takeRx 3 (fun f => f.src == c.src && f.startsWith (ctrlBytes 3 c))
  match c.decision with
  | some d =>
    if s.red.pos ≠ 0 ∧ s.stp.isOpen ∧ s.stp.voted ∧ s.epoch ≤ c.epoch then
      s.takeDecision d c.step c.epoch c.attempt c.reason c.pos (s.regB R.STEP_CTRL 8)
    else s
  | none => s

def execDecisionReply (c : CtrlMsg) (s : State) : Answer := .next (decisionReply c s)

/-! ### Holds and host decisions (R40 to R42, R422) -/

/-- GROUP_HOLD_RELEASE (R40). -/
def groupHoldRelease (s : State) : State :=
  if s.regB R.STEP_CTRL 8 then s
  else
    let s := s.modStp (fun x => { x with groupHold := false })
    if s.stp.phase = .held then s.modStp (fun x => { x with phase := .boundary }) else s

def execGroupHoldRelease (s : State) : Answer := .next (groupHoldRelease s)

/-- HALTED ends: the step boundary follows, in HELD while some member holds (R40). -/
def State.leaveHalt (s : State) (due : Boundary) : State :=
  let held := s.stp.groupHold || s.regB R.STEP_CTRL 8
  let s := s.when held (fun s => s.event R.STEP_EVENTS 6)
  s.modStp (fun x => { x with phase := if held then .held else .boundary, groupHold := held, due := some due, halt := none })

/-- The record of a host skip (R422). -/
def State.hostSkipRecord (s : State) (ran : Bool) : RecEnt :=
  { s.mkRecord s.stepNum 4 0 0xFF with
    attempt := if ran then s.stp.haltAttempt else 0
    tFirst := 0, duty := if ran then s.stp.duty else s.reg R.DUTY_SPLIT_USED
    fbLayers := 0, msLayers := 0, ckLayers := 0, buckets := 0, sat := 0, clips := 0, clamps := 0, nan := 0, inf := 0,
    marked := 0, red := 0, scale := s.trimWords }

/-- A host decision for skip on a member (R41). -/
def State.hostSkip (s : State) : State :=
  let s := (s.writeRecord (s.hostSkipRecord (decide (s.stp.halt = some .exhausted)))).event R.STEP_EVENTS 2
  let s := s.setRegN R.RED_EPOCH ((s.epoch + 1) % 2 ^ 32)
  (s.modStp (fun x => { x with skips := min 255 (x.skips + 1), nextAtt := some 0 })).leaveHalt .new

/-- A host decision for repeat on a member (R41): after exhausted repeats the boundary at which it halted, after the skip limit the next step. -/
def State.hostRepeat (s : State) : State :=
  s.leaveHalt (if s.stp.halt = some .exhausted ∧ s.stp.due ≠ some .new then .again else .new)

/-- DECISION_DIRECT (R33): stale for a member that has applied the decision; in HALTED it carries a decision of the host. -/
def decisionDirect (c : CtrlMsg) (s : State) : State :=
  let s := s.takeRx 3 (fun f => f.src == c.src && f.startsWith (ctrlBytes 4 c))
  if s.red.pos = 0 ∨ c.epoch < s.epoch then s
  else if decide (s.stp.phase = .halted) && !s.stp.isOpen && decide (c.decision ≠ some .abort) then
    (match c.decision with
     | some .skip => s.hostSkip
     | none => s.hostRepeat
     | _ => s)
  else match c.decision with
    | some d =>
      if s.stp.isOpen || decide (d = .abort) then
        s.takeDecision d c.step c.epoch c.attempt c.reason c.pos (s.regB R.STEP_CTRL 8)
      else s
    | none => s

def execDecisionDirect (c : CtrlMsg) (s : State) : Answer := .next (decisionDirect c s)

/-- STEP_DECIDE takes effect only in HALTED on ring position 0 (R41, R42). -/
def State.mayDecide (s : State) : Bool := decide (s.stp.phase = .halted) && decide (s.red.pos = 0)

/-- A host decision of position 0 reaches the members. -/
def State.hostFrame (s : State) (d : Option Decision) : CtrlMsg :=
  { step := s.stepNum, attempt := s.stp.attempt, epoch := s.epoch, decision := d, src := s.me }

def stepDecideNone (rq : Requester) (s : State) : State := if s.mayDecide then s else s.refuseWrite rq R.STEP_DECIDE 0 0
def execStepDecideNone (rq : Requester) (s : State) : Answer := .next (stepDecideNone rq s)

/-- STEP_DECIDE 0b01 (R41, R42). -/
def stepDecideRepeat (rq : Requester) (s : State) : State :=
  if s.mayDecide then
    (if s.stp.halt = some .exhausted ∧ 255 ≤ s.stp.attempt then s.refuseWrite rq R.STEP_DECIDE 1 1
     else (s.sendMembers (s.hostFrame none)).hostRepeat)
  else s.refuseWrite rq R.STEP_DECIDE 1 0

def execStepDecideRepeat (rq : Requester) (s : State) : Answer := .next (stepDecideRepeat rq s)

/-- STEP_DECIDE 0b10 (R41). -/
def stepDecideSkip (rq : Requester) (s : State) : State :=
  if s.mayDecide then (s.sendMembers (s.hostFrame (some .skip))).hostSkip else s.refuseWrite rq R.STEP_DECIDE 2 0

def execStepDecideSkip (rq : Requester) (s : State) : Answer := .next (stepDecideSkip rq s)

/-- STEP_DECIDE 0b11 (R41): the group stays HALTED. -/
def stepDecideStop (rq : Requester) (s : State) : State := if s.mayDecide then s else s.refuseWrite rq R.STEP_DECIDE 3 0

def execStepDecideStop (rq : Requester) (s : State) : Answer := .next (stepDecideStop rq s)

end Sys2Proof.Machine
end

