-- ==== Sys2Proof/Machine/Views.lean ====
section
/-! DEFINITION. What every register reads (R398 and the field tables of the chapters): registers that show other state of their block are
formed from it; every other register reads its stored value. -/

namespace Sys2Proof.Machine

/-- A register from a number. -/
def wordN (n : Nat) : Word := BitVec.ofNat 32 n
/-- The lower (`hi` false) or upper half of a 64-bit value. -/
def halfOf (n : Nat) (hi : Bool) : Word := if hi then wordN (n / 2 ^ 32 % 2 ^ 32) else wordN (n % 2 ^ 32)
/-- One bit per index where `p` holds, 32 bits from index `a`. -/
def bitMap (a : Nat) (p : Nat → Bool) : Word := wordN ((List.range 32).foldl (fun w i => if p (a + i) then w + 2 ^ i else w) 0)
/-- The number of members of a list for which `p` holds. -/
def countIf {α : Type} (l : List α) (p : α → Bool) : Nat := (l.filter p).length

/-! ### Identity, image -/

/-- A copy of the identity store whose CRC-32C matches (R343). -/
def idValid (bs : List Byte) : Bool := decide (bs.length = 4096) && decide (leAt bs 0xFFC 4 = crc32c (bs.take 0xFFC))
/-- The copy of the identity store in use. -/
def ImgSt.idStore (i : ImgSt) : List Byte := if idValid i.idA then i.idA else if idValid i.idB then i.idB else []

def State.viewId (s : State) (off : Nat) : Word :=
  if off < 0x1000 then wordN (leAt s.img.idStore off 4)
  else packFields [(1, (idValid s.img.idB).toNat), (0, (idValid s.img.idA).toNat)]

/-- The attestation engine signs, or reserves leaves (R346, R348). -/
def AttSt.busy (a : AttSt) : Bool := a.req.isSome || (a.avail && decide (a.limit ≤ a.next))

def State.viewImg (s : State) (off : Nat) : Option Word := match off with
  | 0x00 => some (packFields [(8, s.regF R.IMG_STATUS 19 8), (4, s.img.pushed.toNat), (0, s.img.stage)])
  | 0x20 => some (packFields [(31, s.img.cmd.isSome.toNat), (0, s.regF R.IMG_FLASH_STATUS 7 0)])
  | 0x24 => some (packFields [(31, s.img.att.avail.toNat), (30, s.img.att.busy.toNat), (0, s.img.att.cause)])
  | 0x30 => some (halfOf s.img.att.next false)
  | 0x34 => some (halfOf s.img.att.next true)
  | _ => none

/-! ### Host interface -/

/-- HIF_Q_STATUS of a queue (R302, R308). -/
def State.queueStatus (s : State) (q : Nat) : Word :=
  let x := s.queue q
  packFields [(31, x.en.toNat), (30, x.fetched.isEmpty.toNat), (29, x.full.toNat), (12, x.sqHead), (0, x.cqTail)]

def State.viewHif (s : State) (off : Nat) : Option Word :=
  let x := s.queue (s.regF R.HIF_Q_SEL 5 0)
  match off with
  | 0x24 => some (SMap.get (fun _ => 0) s.hif.prot (s.regF R.HIF_PROT_SEL 2 0))
  | 0x2C => some x.cfg
  | 0x30 => some (halfOf x.sq false)
  | 0x34 => some (halfOf x.sq true)
  | 0x38 => some (halfOf x.cq false)
  | 0x3C => some (halfOf x.cq true)
  | 0x40 => some (s.queueStatus (s.regF R.HIF_Q_SEL 5 0))
  | 0x48 => some (SMap.get (fun _ => 0) s.hif.page (s.regF R.HIF_RELAY_SEL 5 0))
  | _ => none

/-! ### Interrupts -/

def State.viewIrq (s : State) (d off : Nat) : Option Word :=
  let q := s.irqD d
  let k := off % 0x40 / 4
  if off = 0x04 then some (wordN (countIf (List.range 512) q.pend.getLsbD))
  else if off = 0x10 then some (q.cfgOf (s.regF (R.IRQ_SRC_SEL d) 8 0))
  else if 0x100 ≤ off ∧ off < 0x140 then some (bitMap (32 * k) q.pend.getLsbD)
  else if 0x1C0 ≤ off ∧ off < 0x200 then some (bitMap (32 * k) q.inService)
  else if 0x200 ≤ off ∧ off < 0x240 then some (bitMap (32 * k) (s.srcLevel d))
  else if 0x380 ≤ off ∧ off < 0x400 then some (wordN (s.holdValue d ((off - 0x380) / 4)))
  else if 0x400 ≤ off ∧ off < 0x480 then
    let c := (off - 0x400) / 0x20
    match off % 0x20 with
    | 0x00 => some (wordN (q.coreOf c).cur)
    | 0x04 => some (wordN (q.coreOf c).curf)
    | 0x08 => some (wordN ((s.irqOffer d c).getD 0x3FF))
    | 0x10 => some (halfOf (q.coreOf c).karg false)
    | 0x14 => some (halfOf (q.coreOf c).karg true)
    | _ => none
  else none

/-! ### Supplies and housekeeping -/

/-- Positions of a channel: 8 on channels 5 and 6, 16 on channels 7 and 8, else one. -/
def posCount (ch : Nat) : Nat := if ch = 5 ∨ ch = 6 then 8 else if ch = 7 ∨ ch = 8 then 16 else 1

def PwrSt.measOf (p : PwrSt) (ch pos : Nat) : MeasEnt := SMap.get (fun _ => {}) p.meas (ch * 16 + pos)

/-- HKA_MEAS of a channel and position: AGE in rounds and the corrected code. -/
def PwrSt.measWord (p : PwrSt) (ch pos : Nat) : Word :=
  let m := p.measOf ch (if posCount ch = 1 then 0 else pos % posCount ch)
  packFields [(16, min 65535 (p.round - m.round)), (0, toTwos 16 m.value)]

def PwrSt.dutyOf (p : PwrSt) (d : Nat) : Nat := SMap.get (fun _ => 16) p.duty d

def State.viewPwr (s : State) (off : Nat) : Option Word :=
  let p := s.pwr
  match off with
  | 0x04 => some (packFields [(31, p.aGood.toNat), (30, p.bGood.toNat), (29, p.activeB.toNat), (28, p.holdup.toNat),
                              (27, p.unstable.toNat)])
  | 0x2C => some (packFields [(12, p.pcap), (4, p.dutyOf 0), (0, p.dutyOf 1 - 1)])
  | 0x108 => some (packFields [(28, p.data.1), (24, p.data.2.1), (17, p.valid.toNat), (16, p.ovr.toNat), (0, p.data.2.2)])
  | 0x110 => some (p.measWord (s.regF R.HKA_MEAS_SEL 3 0) (s.regF R.HKA_MEAS_SEL 7 4))
  | _ => none

/-! ### Snapshot, checks, error log -/

def State.bank (s : State) (b : Nat) : Bank := SMap.get (fun _ => {}) s.snp.banks b

/-- A latched capture has not drained yet (R375). -/
def State.draining (s : State) : Bool := [0, 1].any (fun b => (s.bank b).busy && (s.bank b).latched)

def State.viewSnp (s : State) (off : Nat) : Option Word :=
  if off = 0x04 then
    some (packFields [(31, s.draining.toNat), (30, (s.bank 1).busy.toNat), (29, (s.bank 0).busy.toNat), (28, s.snp.view),
                      (0, s.snp.queue.length)])
  else none

def State.viewChk (s : State) (off : Nat) : Option Word :=
  if 0x100 ≤ off ∧ off < 0x300 then
    let c := s.chkU ((off - 0x100) / 0x20)
    match off % 0x20 with
    | 0x08 => some (wordN c.value)
    | 0x0C => some (wordN (c.value ^^^ 0xFFFFFFFF))
    | 0x10 => some (packFields [(31, c.owner.isSome.toNat), (24, (c.owner.map Requester.code).getD 0xF)])
    | _ => none
  else none

def State.viewErr (s : State) (off : Nat) : Option Word :=
  if 0x8000 ≤ off then
    some (wordN (SMap.get (fun _ => 0) s.err.ring ((off - 0x8000) / 32) / 2 ^ (8 * (off % 32)) % 2 ^ 32))
  else none

/-! ### Tasks, Twill, matrix engine -/

/-- Ready tasks of a die that are not dispatched. -/
def State.readyTasks (s : State) (d : Nat) : Nat := countIf (s.window d) (fun p => s.taskReady p.2)

def State.viewTsk (s : State) (d off : Nat) : Option Word := match off with
  | 0x1C =>
    let x := s.tsk.streamer
    some (packFields [(31, x.isSome.toNat), (30, (x.elim false (·.blocked)).toNat), (29, s.tsk.flushing.toNat),
                      (16, 16 - s.tsk.launchQ.length), (8, x.elim 0 (·.launch.graph))])
  | 0x30 => some (wordN (s.counter (s.regF R.TSK_CNT_SEL 10 0)))
  | 0x100 =>
    let n := (s.window d).length
    some (packFields [(31, (decide (4096 ≤ n)).toNat), (16, n), (0, s.readyTasks d)])
  | _ => none

/-- VEC_UNIT_STATE and VEC_UNIT_FLAGS of a unit. -/
def UnitSt.stateWord (u : UnitSt) : Word := packFields [(31, u.slot.isSome.toNat), (30, u.srOk.toNat), (16, u.vl), (0, u.pc)]
def UnitSt.flagWord (u : UnitSt) : Word := packFields [(0, u.flags % 1024)]

def State.viewVec (s : State) (d off : Nat) : Option Word :=
  let u := s.unit (d * 32 + s.regF (R.VEC_UNIT_SEL d) 4 0)
  match off with
  | 0x04 => some (wordN (countIf (List.range 32) (fun i => (s.unit (d * 32 + i)).slot.isSome)))
  | 0x14 => some u.stateWord
  | 0x18 => some u.flagWord
  | 0x1C => some (packFields [(8, u.srTensor), (0, u.srHi)])
  | 0x20 => some (wordN u.srBase)
  | _ => none

/-- The slices of a core that the converter of its cluster holds. -/
def State.coreHeld (s : State) (d c : Nat) : Nat := match s.conv (clusKey d c) with
  | some x => (x.held && decide (x.core = c)).toNat
  | none => 0

/-- A core waits for a free slot (R167). -/
def State.coreStalled (s : State) (d c : Nat) : Bool :=
  let x := s.core (d * 128 + c)
  s.coreBusy d c && decide (x.slots ≤ x.tiles.length) && (match x.slot.bind (s.runOf (clusKey d c)) with
    | some r => decide (r.next < r.desc.tiles)
    | none => false)

/-- MXE_CORE_STATE of a core; the fields of the last descriptor stay once it has ended. -/
def State.coreWord (s : State) (d c : Nat) : Word :=
  let x := s.core (d * 128 + c)
  if x = {} then 0
  else packFields [(31, (s.coreBusy d c).toNat), (30, (s.coreStalled d c).toNat), (27, x.mode), (24, x.shape), (16, x.slots),
                   (8, x.tiles.length), (0, s.coreHeld d c)]

def State.viewMxe (s : State) (d off : Nat) : Option Word := match off with
  | 0x04 => some (packFields [(16, ((List.range 8).any (fun k => (s.conv (d * 8 + k)).elim false (·.held))).toNat),
                              (8, countIf (List.range 128) (s.coreStalled d)), (0, countIf (List.range 128) (s.coreBusy d))])
  | 0x58 => some (s.coreWord d (s.regF (R.MXE_CORE_SEL d) 6 0))
  | _ => none

/-! ### Update, reduction, memory -/

/-- UPD_STATUS of a die. -/
def State.updStatus (s : State) (d : Nat) : Word :=
  let u := s.updD d
  packFields [(31, (!u.inbuf.isEmpty).toNat), (30, u.proj.isSome.toNat), (29, u.skip.toNat), (0, u.inbuf.length)]

def State.viewUpd (s : State) (d off : Nat) : Option Word := match off with
  | 0x04 => some (s.updStatus d)
  | 0x3C => some (SMap.get (fun _ => 0) s.upd.sched (s.regF R.UPD_SCHED_IDX 11 0))
  | _ => none

/-- Buckets of the reorder window whose own contribution is complete and not sent (R218). -/
def ChanSt.waiting (x : ChanSt) : List Nat :=
  (List.range 8).filter (fun i => x.flight.any (fun b => decide (b.seq = x.sendPt + i) && b.ownDone && !b.sent))

def State.viewRed (s : State) (off : Nat) : Option Word :=
  if off = 0x04 then
    some (if s.red.loaded then packFields [(24, s.red.gid), (16, s.red.n), (8, s.red.pos), (7, s.red.formed.toNat)] else 0)
  else if 0x100 ≤ off ∧ off < 0x200 then
    let c := (off - 0x100) / 0x20
    let x := s.chan c
    match off % 0x20 with
    | 0x00 => some (packFields [(24, x.inFlight), (16, x.waiting.length), (1, x.holdFlight.toNat), (0, x.holdWindow.toNat)])
    | 0x04 => some (wordN x.sendPt)
    | 0x08 => some (wordN x.deliverPt)
    | 0x0C => some (wordN (s.chanPlan c))
    | _ => none
  else none

def State.viewMem (s : State) (d off : Nat) : Option Word := match off with
  | 0x1C => some (wordN s.mem.handles.length)
  | 0x110 =>
    let p := SMap.get (fun _ => []) s.mem.plan d
    let n := fun (k : StashKind) => countIf p (fun x => decide (x.2 = k))
    some (packFields [(24, n .full % 256), (16, n .spill % 256), (8, n .ckpt % 256)])
  | 0x12C => some (wordN ((s.silt d).free % 2 ^ 22))
  | _ => none

/-! ### Links -/

def LState.code : LState → Nat
  | .down => 0 | .training => 1 | .up => 2 | .retrain => 3 | .removed => 4 | .unused => 5

/-- EZL_TIME_STATUS (R290, R291): OFFSET in ns, from eighths, saturating. -/
def State.timeStatus (s : State) : Word :=
  let t := s.ezl.tim
  let master := decide (s.me = s.ezl.pod.master)
  packFields [(31, t.locked.toNat), (30, (t.holdover || (!master && s.parentLink.isNone)).toNat), (16, podHops s.ezl.pod.size s.me s.ezl.pod.master % 256),
              (8, if master then 0x1F else s.parentLink.getD 0x1F), (0, toTwos 8 (clampInt (-128) 127 (t.offset.tdiv 8)))]

def State.viewEzl (s : State) (off : Nat) : Option Word :=
  let lk := fun (p : LState) => wordN ((List.range 18).foldl (fun w l => if (s.lnk l).st = p then w + 2 ^ (14 + l) else w) 0)
  if off = 0x04 then some (lk .up)
  else if off = 0x10 then
    let p := s.ezl.pod
    some (if s.red.loaded then
      packFields [(16, p.id), (10, p.me), (9, (decide (p.me = p.head)).toNat), (8, (decide (p.me = p.master)).toNat), (0, p.size)] else 0)
  else if off = 0x1C then some (if s.red.loaded then s.timeStatus else 0x1F00)
  else if off = 0x20 then some (halfOf s.time false)
  else if off = 0x24 then some (halfOf s.time true)
  else if off = 0x2C then some (lk .removed)
  else if off = 0x30 then some (wordN s.ezl.relayOut.length)
  else if 0x100 ≤ off ∧ off < 0x580 ∧ off % 0x40 = 0 then
    let k := s.lnk ((off - 0x100) / 0x40)
    some (packFields [(29, k.st.code), (16, k.peer), (11, k.peerLink), (0, k.replay.length)])
  else none

/-! ### Kaolin dies -/

/-- Milliseconds since a calibration read of an active array, the largest, saturating. -/
def State.calAgeMax (s : State) (k : Nat) : Nat :=
  ((s.activeArrays k).map (fun a => min 65535 ((s.time - (s.phys k a).lastRead) / 1000000))).foldl max 0

/-- ARR_TILE_STATE of a tile (R120). -/
def State.tileWord (s : State) (k t : Nat) : Word :=
  let x := s.tile k t
  packFields [(29, x.spare.code), (24, if x.spare = .none then 0x1F else x.slot), (16, x.retired),
              (0, (x.job.map (fun j => j.job.pos)).getD 0x7FF)]

/-- ARR_POS_STATE of a position of the array map. -/
def State.posWord (s : State) (k p : Nat) : Word :=
  let x := s.pos k p
  let queued := (s.kao k).jobs.any (fun j => decide (j.pos = p))
    || (s.tile k (p / 16)).job.elim false (fun j => decide (j.job.pos = p))
  let hat := if x.slot.isSome then epsUnits (s.physAt k p).epsHat else 0
  let ver := if x.slot.isSome then epsUnits (s.physAt k p).epsV else 0
  packFields [(24, hat), (16, ver), (8, min 255 (s.posLag k p)), (7, x.fb.toNat), (5, x.cause), (4, x.msValid.toNat), (3, queued.toNat),
              (2, x.unconf.toNat), (1, (s.standbyCurrent k p).toNat)]

/-- The die link is back-pressured (R98): the pass queue is full, or the input buffer cannot take the record of the oldest ARRAY task that
waits for the die. -/
def State.backPressure (s : State) (k : Nat) : Bool :=
  let wait := (s.window 0 ++ s.window 1).filter (fun p => decide (p.2.prog = .waiting) && decide (p.2.kind = 3) && decide (p.2.target = k)
    && s.taskReady p.2)
  decide (4096 ≤ (s.kao k).queue.length)
    || (oldestIn wait).elim false (fun p => decide (4194304 < s.inputHeld k + (s.arrayInput k (s.hbm p.2.payAddr 32)).length))

/-- Array registers. DESIGN CHOICE: ARR_RANGE_DATA.PEAK shows the peak of the counts that have entered the window (R94); those of an open
attempt enter it with its decision. -/
def State.viewArr (s : State) (k off : Nat) : Option Word :=
  let d := s.kao k
  match off with
  | 0x04 => some (packFields [(31, (s.backPressure k).toNat), (30, (decide (256 ≤ d.running.length + d.results)).toNat), (16, d.queue.length),
                              (0, s.activeSlots k)])
  | 0x10 => some (s.govStatus k)
  | 0x30 =>
    let i := s.regF (R.ARR_RANGE_SEL k) 10 0
    some (match s.matAt k i with
      | none => 0
      | some e =>
        let m := s.mat k i
        packFields [(23, m.peak), (8, if s.fnHost 2 then m.pendChain.getD m.chain else s.chainLimit e), (4, m.train), (0, m.range)])
  | 0x38 => some (wordN (s.clipgData k))
  | 0x10C => some (packFields [(31, d.held.isSome.toNat), (30, d.published.toNat),
                               (16, countIf s.layerList (fun l => s.layerFb l && (s.layerPos l).any (fun p => decide (p.1 = k)))),
                               (0, s.calAgeMax k)])
  | 0x118 => some (packFields [(31, (s.allPos.any (fun p => decide (p.1 = k) && (s.pos p.1 p.2).unconf)).toNat),
                               (16, s.busyTiles k), (0, d.jobs.length)])
  | 0x120 =>
    let t := s.regF (R.ARR_TILE_SEL k) 6 0
    some (if t < 96 then s.tileWord k t else 0)
  | 0x128 =>
    let p := s.regF (R.ARR_POS_SEL k) 10 0
    some (if (s.posMat k p).isSome then s.posWord k p else 0)
  | 0x12C =>
    let p := s.regF (R.ARR_POS_SEL k) 10 0
    some (if (s.posMat k p).isSome then wordN (s.pos k p).version else 0)
  | _ => none

/-! ### Step control -/

/-- A context runs its token under another mode of function 2 or 13 than the one written. -/
def State.dutyCtxWait (s : State) (fn : Nat) : Bool :=
  s.mem.ctx.any (fun c => c.2.inTok && (if fn = 2 then c.2.f2 else c.2.f13) != s.regB R.DUTY_SPLIT (fn - 1))

/-- Training still has another mode of function 2 or 13 than the one written. -/
def State.dutyTrainWait (s : State) (fn : Nat) : Bool := s.polB R.DUTY_SPLIT_USED (fn - 1) != s.regB R.DUTY_SPLIT (fn - 1)

/-- DUTY_STATUS.PENDING: the functions whose mode in force, for training or for some context, is not the one written (R249). -/
def State.dutyPending (s : State) : Word :=
  ((s.reg R.DUTY_SPLIT ^^^ s.reg R.DUTY_SPLIT_USED) &&& 0x3FFF#32)
    ||| packFields [(12, (s.dutyCtxWait 13 || s.dutyTrainWait 13).toNat), (1, (s.dutyCtxWait 2 || s.dutyTrainWait 2).toNat)]

/-- DUTY and step-control registers. DEDUCED: GROUP_HOLD shows this member's own HOLD at once, and the hold of others once a decided token
carried it. -/
def State.viewDuty (s : State) (off : Nat) : Option Word := match off with
  | 0x08 => some s.dutyPending
  | 0x10C => some (packFields [(24, s.stp.attempt), (16, s.stp.skips), (7, s.stp.copySel.toNat), (6, (s.stp.groupHold || s.regB R.STEP_CTRL 8).toNat),
                               (0, s.phaseNow.code)])
  | 0x120 => some (wordN (s.kao (s.regF R.STEP_CTRL 31 28)).trimVer)
  | 0x204 => some (packFields [(30, s.fmt.phase), (16, s.fmt.recoveryLeft), (0, s.fmt.narrowed)])
  | _ => none

/-! ### Every register -/

/-- The computed value of a register of a block, if its block forms it. -/
def State.viewOf? (s : State) (b : Blk) (off : Nat) : Option Word := match b with
  | .id => some (s.viewId off)
  | .hif => s.viewHif off
  | .irq d => s.viewIrq d off
  | .pwr => s.viewPwr off
  | .snp => s.viewSnp off
  | .chk => s.viewChk off
  | .err => s.viewErr off
  | .img => s.viewImg off
  | .tsk d => s.viewTsk d off
  | .vec d => s.viewVec d off
  | .mxe d => s.viewMxe d off
  | .upd d => s.viewUpd d off
  | .red => s.viewRed off
  | .mem d => s.viewMem d off
  | .ezl => s.viewEzl off
  | .arr k => s.viewArr k off
  | .duty => s.viewDuty off

/-- What a read of an address of the register space shows: an unassigned address and a WO register read zero (R9, R399). -/
def State.view (s : State) (a : Nat) : Word :=
  let a := canonAddr a
  match rowAt a with
  | none => 0
  | some (b, off, r) => if r.acc = .wo then 0 else (s.viewOf? b off).getD (s.reg a)

end Sys2Proof.Machine
end

