-- ==== Sys2Proof/Machine/ImgOps.lean ====
section
/-! DEFINITION. The Ozoon image (R334 to R338): layout, LMS verification (RFC 8554), checks of every section, and loading. -/

namespace Sys2Proof.Machine

/-! ### LMS_SHA256_M32_H10 with LMOTS_SHA256_N32_W4 -/

/-- A 4-bit digit of a byte string, high nibble first. -/
def nibble (bs : List Byte) (i : Nat) : Nat :=
  let b := (bs.getD (i / 2) 0).toNat
  if i % 2 = 0 then b / 16 else b % 16

/-- The 67 digits signed for a message hash: its 64 nibbles, then 3 of the checksum. -/
def lmotsDigits (q : List Byte) : List Nat :=
  let d := (List.range 64).map (nibble q)
  let c := beBytes 2 ((d.map (15 - ·)).sum * 16)
  d ++ (List.range 3).map (nibble c)

/-- The chain of one digit, from step `a` up to step `b`. -/
def lmotsRun (pre : List Byte) (y : List Byte) (a b : Nat) : List Byte :=
  (List.range (b - a)).foldl (fun t j => sha256 (pre ++ [byteOf (a + j)] ++ t)) y

/-- The chain of one digit, from step `a` up to step 15. -/
def lmotsChain (pre : List Byte) (y : List Byte) (a : Nat) : List Byte := lmotsRun pre y a 15

/-- The LM-OTS public key that a signature (C and 67 chain values) of a message leads to. -/
def lmotsKey (id : List Byte) (q : Nat) (c : List Byte) (ys : List Byte) (msg : List Byte) : List Byte :=
  let pre := id ++ beBytes 4 q
  let d := lmotsDigits (sha256 (pre ++ beBytes 2 0x8181 ++ c ++ msg))
  let z := (List.range 67).flatMap (fun i => lmotsChain (pre ++ beBytes 2 i) (sliceB ys (32 * i) 32) (d.getD i 0))
  sha256 (pre ++ beBytes 2 0x8080 ++ z)

/-- The root that a path of 10 hashes leads to. -/
def lmsRoot (id : List Byte) (q : Nat) (kc path : List Byte) : List Byte :=
  let leaf := sha256 (id ++ beBytes 4 (1024 + q) ++ beBytes 2 0x8282 ++ kc)
  ((List.range 10).foldl (fun (x : Nat × List Byte) i =>
    let p := sliceB path (32 * i) 32
    let t := if x.1 % 2 = 1 then p ++ x.2 else x.2 ++ p
    (x.1 / 2, sha256 (id ++ beBytes 4 (x.1 / 2) ++ beBytes 2 0x8383 ++ t))) (1024 + q, leaf)).2

/-- lms_verify of a 56-byte public key, a message and a 2,508-byte signature (PRESUMED: RFC 8554, as R336 names its types). -/
def lmsVerify (key msg sig : List Byte) : Bool :=
  let id := sliceB key 8 16
  let q := ofBe (sliceB sig 0 4)
  decide (key.length = 56) && decide (sig.length = 2508)
    && decide (ofBe (sliceB key 0 4) = 6) && decide (ofBe (sliceB key 4 4) = 3)
    && decide (q < 1024) && decide (ofBe (sliceB sig 4 4) = 3) && decide (ofBe (sliceB sig 2184 4) = 6)
    && decide (lmsRoot id q (lmotsKey id q (sliceB sig 8 32) (sliceB sig 40 2144) msg) (sliceB sig 2188 320) = sliceB key 24 32)

/-! ### HSS signing (R344, R345)

DEDUCED: the seed of RFC 8554, Appendix A, is the device secret, for both levels; the trees differ in their identifiers. -/

/-- Element `i` of the LM-OTS key `q` of a tree. -/
def lmotsSecret (id seed : List Byte) (q i : Nat) : List Byte := sha256 (id ++ beBytes 4 q ++ beBytes 2 i ++ [0xFF#8] ++ seed)

/-- The LM-OTS public key `q`. -/
def lmotsPublic (id seed : List Byte) (q : Nat) : List Byte :=
  let pre := id ++ beBytes 4 q
  sha256 (pre ++ beBytes 2 0x8080 ++ (List.range 67).flatMap (fun i => lmotsRun (pre ++ beBytes 2 i) (lmotsSecret id seed q i) 0 15))

/-- The LM-OTS signature of a message with key `q` and randomizer `c`. -/
def lmotsSign (id seed c : List Byte) (q : Nat) (msg : List Byte) : List Byte :=
  let pre := id ++ beBytes 4 q
  let d := lmotsDigits (sha256 (pre ++ beBytes 2 0x8181 ++ c ++ msg))
  beBytes 4 3 ++ c ++ (List.range 67).flatMap (fun i => lmotsRun (pre ++ beBytes 2 i) (lmotsSecret id seed q i) 0 (d.getD i 0))

/-- Node `r` of a tree of height `h`, at a level counted from its leaves. -/
def lmsNode (id seed : List Byte) (h : Nat) : Nat → Nat → List Byte
  | 0, r => sha256 (id ++ beBytes 4 r ++ beBytes 2 0x8282 ++ lmotsPublic id seed (r - 2 ^ h))
  | k + 1, r => sha256 (id ++ beBytes 4 r ++ beBytes 2 0x8383 ++ lmsNode id seed h k (2 * r) ++ lmsNode id seed h k (2 * r + 1))

/-- The type code of a tree of height 10 or 15. -/
def lmsType (h : Nat) : Nat := if h = 10 then 6 else 7

/-- The 56-byte public key of a tree. -/
def lmsPublic (id seed : List Byte) (h : Nat) : List Byte := beBytes 4 (lmsType h) ++ beBytes 4 3 ++ id ++ lmsNode id seed h h 1

/-- The LMS signature of a message with leaf `q`. -/
def lmsSign (id seed c : List Byte) (h q : Nat) (msg : List Byte) : List Byte :=
  beBytes 4 q ++ lmotsSign id seed c q msg ++ beBytes 4 (lmsType h)
    ++ (List.range h).flatMap (fun k => lmsNode id seed h k (((2 ^ h + q) / 2 ^ k) ^^^ 1))

/-- The 60-byte HSS public key of a secret, whose top tree has identifier `id`. -/
def hssPublic (sec id : List Byte) : List Byte := beBytes 4 2 ++ lmsPublic id sec 10

/-- The HSS signature of a message with leaf index `q` (R345, R348): the top tree signs the lower tree's key, which signs the message. -/
def hssSignature (sec id : List Byte) (q : Nat) (msg : List Byte) : List Byte :=
  let top := q / 32768
  let low := sliceB (Config.hssLowerId sec top) 0 16
  let pub := lmsPublic low sec 15
  let c := fun level k => sliceB (Config.hssRandom sec level k) 0 32
  beBytes 4 1 ++ lmsSign id sec (c 0 top) 10 top pub ++ pub ++ lmsSign low sec (c 1 q) 15 (q % 32768) msg

/-! ### Check values of stored data (R344, R346, R377) -/

/-- Helper data is valid. DESIGN CHOICE: the last 4 bytes of its area hold the CRC-32C of the bytes before them. -/
def helperOk (b : List Byte) : Bool := decide (b.length = 65536) && decide (leAt b 65532 4 = crc32c (b.take 65532))

/-- The 16 bytes of a leaf record. -/
def leafRec (seq leaf : Nat) : List Byte :=
  let b := leBytes 4 seq ++ leBytes 4 leaf ++ leBytes 4 0
  b ++ leBytes 4 (crc32c b)

/-- The sequence number and leaf index of a copy whose check value matches. -/
def leafOf (b : List Byte) : Option (Nat × Nat) :=
  if b.length = 16 ∧ leAt b 12 4 = crc32c (b.take 12) then some (leAt b 0 4, leAt b 4 4) else none

/-! ### The image memory (R333) -/

/-- The size of the image area. -/
def ImgSt.area (i : ImgSt) : Nat := i.cap - 262144

/-- Bytes of the image area that WRITE_IMAGE has erased; what is not programmed reads 0xFF. -/
def ImgSt.flashBytes (i : ImgSt) (a n : Nat) : List Byte :=
  (List.range n).map (fun k => ((SMap.get (fun _ => ([] : List Byte)) i.flash ((a + k) / 65536)).drop ((a + k) % 65536)).headD 0xFF)

/-- The image that lies there: as many bytes as its header names, at most the area. -/
def ImgSt.stored (i : ImgSt) : List Byte := i.flashBytes 0 (min i.area (leAt (i.flashBytes 8 4) 0 4))

/-! ### Header and sections (R334, R335) -/

/-- A section-table entry. -/
structure Sec where
  typ : Nat := 0
  res : Nat := 0
  mask : Nat := 0
  off : Nat := 0
  len : Nat := 0
  load : Nat := 0
  hash : List Byte := []
deriving DecidableEq, Repr

def secOf (b : List Byte) : Sec :=
  { typ := leAt b 0 1, res := leAt b 1 1 + leAt b 0xC 4 + leAt b 0x38 8, mask := leAt b 2 2, off := leAt b 4 4, len := leAt b 8 4,
    load := leAt b 0x10 8, hash := sliceB b 0x18 32 }

def imgCount (img : List Byte) : Nat := leAt img 6 2
def imgSecs (img : List Byte) : List Sec := (List.range (imgCount img)).map (fun i => secOf (sliceB img (0x100 + 64 * i) 64))
/-- The signed block: header and section table. -/
def imgSigned (img : List Byte) : List Byte := img.take (0x100 + 64 * imgCount img)
def imgSize (img : List Byte) : Nat := leAt img 8 4
def imgKind (img : List Byte) : Nat := leAt img 0x10 1
def imgSigBlock (img : List Byte) : List Byte := sliceB img (leAt img 0x14 4) (leAt img 0x18 4)
def imgBody (img : List Byte) (x : Sec) : List Byte := sliceB img x.off x.len
/-- The section of a type, if any. -/
def imgSec (img : List Byte) (t : Nat) : Option Sec := (imgSecs img).find? (fun x => x.typ == t)
def imgTable (img : List Byte) (t : Nat) : List Byte := match imgSec img t with
  | some x => imgBody img x
  | none => []

/-- Header magic, version, stepping and ranges are right. -/
def imgHeaderOk (img : List Byte) : Bool :=
  decide (0x100 ≤ img.length) && decide (leAt img 0 4 = 0x4F5A4F4E) && decide (leAt img 4 2 = 1) && decide (1 ≤ imgCount img)
    && decide (imgCount img ≤ 64) && decide (imgSize img ≤ 134217728) && decide (imgSize img ≤ img.length)
    && (decide (imgKind img = 1) || decide (imgKind img = 2)) && decide (leAt img 0x11 1 = 0xB0) && decide (leAt img 0x12 2 = 0)
    && decide (leAt img 0x18 4 = (if imgKind img = 1 then 5136 else 7740)) && decide (leAt img 0x14 4 % 4096 = 0)
    && decide (0x100 + 64 * imgCount img ≤ leAt img 0x14 4) && decide (leAt img 0x14 4 + leAt img 0x18 4 ≤ imgSize img)
    && (sliceB img 0x1C 228).all (· == 0)

/-- The owner certificate of an owner image. -/
def ownerCert (img : List Byte) : List Byte := sliceB (imgSigBlock img) 2628 96

/-- The first failure of the header and signature checks (R337): its cause code. -/
def State.sigFault (s : State) (img : List Byte) : Option Nat :=
  let b := imgSigBlock img
  let root := sliceB b 0 56
  let cert := sliceB b 56 64
  let owner := decide (imgKind img = 2)
  let oc := ownerCert img
  let bound := sliceB oc 20 16
  let key := if owner then sliceB oc 40 56 else sliceB cert 8 56
  if !imgHeaderOk img then some 3
  else if !(sha256 root == sliceB s.img.idStore 0x150 32) then some 4
  else if !lmsVerify root cert (sliceB b 120 2508) then some 5
  else if owner && !lmsVerify (sliceB cert 8 56) oc (sliceB b 2724 2508) then some 6
  else if owner && !(bound.all (· == 0)) && !(bound == sliceB s.img.idStore 0x10 16) then some 6
  else if !lmsVerify key (imgSigned img) (sliceB b (if owner then 5232 else 2628) 2508) then some 5
  else none

/-- Two sections overlap in the image. -/
def Sec.overlaps (x y : Sec) : Bool := decide (0 < x.len) && decide (0 < y.len) && decide (x.off < y.off + y.len) && decide (y.off < x.off + x.len)

/-- The number of sections of a type. -/
def secCount (l : List Sec) (t : Nat) : Nat := countIf l (fun x => decide (x.typ = t))

/-- The section list breaks R335, or a section lies outside the image: the index of the first such section. -/
def secListFault (img : List Byte) : Option Nat :=
  let l := imgSecs img
  let bad := fun i =>
    let x := l.getD i {}
    decide (x.typ = 0) || decide (0xC < x.typ) || decide (x.res ≠ 0)
      || (decide (x.typ ≠ 1) && decide (x.mask ≠ 0)) || decide (x.off % 4096 ≠ 0) || decide (x.off < 0x100 + 64 * l.length)
      || decide (imgSize img < x.off + x.len)
      || (decide (x.typ ≠ 1) && decide (hbmSize < x.load + x.len))
      || (decide (x.typ = 1) && (decide (x.mask = 0) || decide (256 ≤ x.mask)))
      || (List.range i).any (fun j => let y := l.getD j {}
        y.overlaps x || (decide (y.typ = x.typ) && decide (2 ≤ x.typ) && decide (x.typ ≤ 0xA)) || (decide (y.typ = 1) && decide (x.typ = 1)
          && decide (y.mask &&& x.mask ≠ 0)))
  match (List.range l.length).find? bad with
  | some i => some i
  | none =>
    if secCount l 2 = 1 ∧ secCount l 4 = 1 ∧ secCount l 5 = 1 ∧ secCount l 9 = 1 ∧ l.any (fun x => decide (x.typ = 1) && x.mask.testBit 0) then none
    else some 0

/-! ### Tables (R337, section checks) -/

/-- Fixed-size entries of a table. -/
def entriesOf (k : Nat) (b : List Byte) : List (List Byte) := (List.range (b.length / k)).map (fun i => sliceB b (k * i) k)

/-- An FP32 code is finite and greater than 0. -/
def f32Positive (n : Nat) : Bool := f32Pos (BitVec.ofNat 32 n)

def stateEntOf (b : List Byte) : StateEnt :=
  let f := leAt b 0x14 1
  let d := bitsOf f 3 3
  { tensor := leAt b 0 4 / 256, grad := leAt b 4 4 / 256, rem := leAt b 8 4 / 256, rows := leAt b 0xC 4, cols := leAt b 0x10 4, alg := f % 4,
    decay := f.testBit 2, die := d, kaolin := 8 * d + leAt b 0x15 1 % 8, mat := leAt b 0x16 2, rho := BitVec.ofNat 32 (leAt b 0x18 4),
    first := leAt b 0x1C 4 }

def stateTableOf (img : List Byte) : List StateEnt := (entriesOf 32 (imgTable img 6)).map stateEntOf

def bucketEntOf (b : List Byte) : BucketEnt :=
  { tensor := leAt b 0 4 / 256, channel := leAt b 0 1 % 8, row := leAt b 4 4, first := leAt b 8 4, shape := bitsOf (leAt b 0xC 4) 30 28,
    count := leAt b 0xC 4 % 2 ^ 28 }

def bucketTableOf (img : List Byte) : List BucketEnt := (entriesOf 16 (imgTable img 7)).map bucketEntOf

def widthOf : Nat → Nat | 0 => 2 | 1 => 3 | 2 => 4 | _ => 8

def matEntOf (b : List Byte) : MatEnt :=
  { idx := leAt b 0 2, layer := leAt b 2 1, die := leAt b 3 1, k := leAt b 4 4, n := leAt b 8 4, h := leAt b 0xC 2,
    width := widthOf (leAt b 0xE 1 % 4), range := leAt b 0xF 1 % 8, first := leAt b 0x10 2, chain := leAt b 0x12 1,
    scaleOff := leAt b 0x14 4, tensor := leAt b 0x18 4 / 256 }

/-- Matrix entries of the array-map section, which follow its 16-byte header. -/
def mapCount (b : List Byte) : Nat := leAt b 0 4
def mapOfBytes (b : List Byte) : List MatEnt := (List.range (mapCount b)).map (fun i => matEntOf (sliceB b (16 + 32 * i) 32))
/-- The column-scale area, which follows the matrix entries. -/
def mapScales (b : List Byte) : List Byte := sliceB b (16 + 32 * mapCount b) (leAt b 8 4)

/-- The array map keeps R102 to R104. DESIGN CHOICE: the bits of an entry that the spec calls reserved without saying that they are zero (0x0E
[7:2], 0x0F [7:3], 0x18 [7:0]) must be zero as well. -/
def mapOk (b : List Byte) : Bool :=
  let l := mapOfBytes b
  let raw := fun i => sliceB b (16 + 32 * i) 32
  let sc := mapScales b
  decide (leAt b 4 2 = 1) && decide (leAt b 6 2 = 0) && decide (leAt b 0xC 4 = 0) && decide (b.length = 16 + 32 * mapCount b + leAt b 8 4)
    && (List.range l.length).all (fun i =>
      let e := l.getD i {}
      let r := raw i
      decide (e.idx < 1536) && (decide (e.layer < 128) || decide (e.layer = 0xFF)) && decide (e.die < 16) && decide (1 ≤ e.k)
        && decide (e.k ≤ 16777216) && decide (1 ≤ e.n) && decide (e.n ≤ 786432) && decide (1 ≤ e.h) && decide (e.h ≤ 1024)
        && decide (leAt r 0xE 1 < 4) && decide (leAt r 0xF 1 ≤ 4) && decide (1 ≤ e.chain) && decide (e.chain ≤ 4)
        && decide (leAt r 0x13 1 = 0) && decide (leAt r 0x18 1 = 0) && decide (leAt r 0x1C 4 = 0)
        && decide (e.first + e.count ≤ 1536) && decide (e.scaleOff + 2 * e.n ≤ sc.length)
        && (List.range e.n).all (fun j => decide (leAt sc (e.scaleOff + 2 * j) 2 % 0x8000 < 0x7C00))
        && (List.range i).all (fun j =>
          let x := l.getD j {}
          decide (x.die ≠ e.die) || (decide (x.idx ≠ e.idx)
            && (decide (x.first + x.count ≤ e.first) || decide (e.first + e.count ≤ x.first)))))

/-- The identifier that the markers of a scale-log slot use (R46). -/
def markerTensor : Nat := 0xFFFFF0

/-- The format table keeps R46, R64, R72 and R78. -/
def fmtTableOk (img b : List Byte) : Bool :=
  let u : UpdSt := { table := stateTableOf img }
  let l := (entriesOf 16 b).map fmtEntry
  decide (b.length % 16 = 0)
    && (List.range l.length).all (fun i =>
      let e := l.getD i {}
      let r := sliceB b (16 * i) 16
      f32Positive e.amax && (decide (e.layer < 128) || decide (e.layer = 0xFFFF)) && (!e.sr || u.srAllowed e)
        && decide (bitsOf (leAt r 0 1) 7 4 = 0) && decide (bitsOf (leAt r 5 1) 4 3 = 0) && decide (leAt r 0xC 4 = 0)
        && (Fmt.ofCode e.code).isSome && decide (e.tensor ≠ markerTensor) && (decide (i = 0) || decide ((l.getD (i - 1) {}).tensor < e.tensor)))

/-- The entries of one tensor cover its rows without overlap or gap (R181): each starts at row 0 or where another of them ends. -/
def rowsOk (t : List StateEnt) (e : StateEnt) : Bool :=
  let l := t.filter (fun x => decide (x.tensor = e.tensor))
  (decide (e.first = 0) || l.any (fun x => decide (x.first + x.rows = e.first)))
    && decide (countIf l (fun x => decide (x.first < e.first + e.rows) && decide (e.first < x.first + x.rows)) = 1)
    && l.all (fun x => decide (x.grad = e.grad) && decide (x.rem = e.rem))

/-- `n` bytes of HBM as the image's sections load them, the last section that covers an address giving its byte; 0 where none does. -/
def imgHbm (img : List Byte) (a n : Nat) : List Byte :=
  let l := (imgSecs img).filter (fun x => decide (x.typ ≠ 1))
  (List.range n).map (fun i => match l.reverse.find? (fun x => decide (x.load ≤ a + i) && decide (a + i < x.load + x.len)) with
    | some x => (img.drop (x.off + (a + i - x.load))).headD 0
    | none => 0)

/-- The WGRAD descriptors of the image's graphs with their dies (R168, R231, R240). -/
def graphWgrads (img : List Byte) : List (Nat × Desc) := match imgSec img 3 with
  | none => []
  | some x => (List.range 256).flatMap (fun g => match graphPlace (x.load + 8 * g) (leAt (imgHbm img (x.load + 8 * g) 8) 0 8) with
    | none => []
    | some a =>
      let h := imgHbm img a 32
      if headerFits g h then
        (List.range (leAt h 0 4)).filterMap (fun i =>
          let e := taskOf (imgHbm img (leAt h 0x10 8 + 64 * i) 64)
          let y := descOf (imgHbm img e.2.payAddr 64)
          if e.2.kind = 1 ∧ !e.2.malformed ∧ y.mode = 4 then some (e.1, y) else none)
      else [])

/-- The graph table keeps R240: every graph it names has a header in HBM, in its ranges. -/
def graphTableOk (img : List Byte) (x : Sec) : Bool :=
  decide (2048 ≤ x.len) && (List.range 256).all (fun g =>
    let a := leAt (imgHbm img (x.load + 8 * g) 8) 0 8
    decide (a = 0) || (match graphPlace (x.load + 8 * g) a with
      | some h => headerFits g (imgHbm img h 32)
      | none => false))

/-- Every WGRAD of the image's graphs runs on a die that holds an entry of its gradient tensor (R181). -/
def wgradsOk (img : List Byte) (t : List StateEnt) : Bool :=
  (graphWgrads img).all (fun p => t.any (fun e => decide (e.grad = p.2.grad) && decide (e.die = p.1)))

/-- The state table keeps R46, R181 and R211. -/
def stateTableOk (img b : List Byte) : Bool :=
  let t := stateTableOf img
  let m := mapOfBytes (imgTable img 5)
  let f := (entriesOf 16 (imgTable img 4)).map fmtEntry
  decide (b.length % 32 = 0) && wgradsOk img t
    && (List.range t.length).all (fun i =>
      let e := t.getD i {}
      let r := sliceB b (32 * i) 32
      decide (e.alg < 3) && decide (leAt r 0 1 = 0) && decide (leAt r 4 1 = 0) && decide (leAt r 8 1 = 0) && decide (leAt r 0x14 1 < 16)
        && decide (leAt r 0x15 1 < 8) && (decide (e.mat ≠ 0xFFFF) || decide (leAt r 0x15 1 = 0))
        && decide (1 ≤ e.rows) && decide (e.rows ≤ 16777216) && decide (1 ≤ e.cols) && decide (e.cols ≤ 16777216)
        && (decide (e.mat = 0xFFFF) || m.any (fun x => decide (x.die = e.kaolin) && decide (x.idx = e.mat)))
        && f32NonNeg e.rho && rowsOk t e
        && decide (e.tensor ≠ markerTensor) && decide (e.grad ≠ markerTensor) && decide (e.rem ≠ markerTensor)
        && f.any (fun x => decide (x.tensor = e.grad) && (decide (x.code = 14) || decide (x.code = 15))))

/-- Buckets that the tile grid of an entry needs (R207). -/
def bucketsOf (e : StateEnt) (shape : Nat) : Nat :=
  ((e.rows + shapeM shape - 1) / shapeM shape * ((e.cols + shapeN shape - 1) / shapeN shape) + 3) / 4

/-- The bucket table keeps R208. -/
def bucketTableOk (img b : List Byte) : Bool :=
  let t := stateTableOf img
  let l := bucketTableOf img
  decide (b.length % 16 = 0)
    && (List.range l.length).all (fun i =>
      let x := l.getD i {}
      let r := sliceB b (16 * i) 16
      decide (bitsOf (leAt r 0 1) 7 3 = 0) && decide (leAt r 0xC 4 < 2 ^ 31) && shapeOk 4 x.shape
        && (match t.find? (fun e => decide (e.grad = x.tensor) && decide (e.first = x.row)) with
          | some e => decide (x.count = bucketsOf e x.shape)
          | none => false)
        && t.any (fun e => decide (e.grad = x.tensor) && decide (e.die = x.channel / 4))
        && (List.range i).all (fun j => let y := l.getD j {}
          !(decide (y.tensor = x.tensor) && decide (y.row = x.row)))
        && (decide (x.first = 0) || l.any (fun y => decide (y.channel = x.channel) && decide (y.first + y.count = x.first)))
        && decide (countIf l (fun y => decide (y.channel = x.channel) && decide (y.first < x.first + x.count)
          && decide (x.first < y.first + y.count)) = 1))
    && t.all (fun e => l.any (fun x => decide (x.tensor = e.grad) && decide (x.row = e.first)))

/-- The links of the ring lead to the successor and the predecessor, on the die of each channel (R204, R285). -/
def ringLinksOk (p : ImgPlain) : Bool :=
  let at_ := fun (i : Nat) => p.order.getD (i % p.n) 0
  decide (p.n ≤ 1) || (List.range 8).all (fun c =>
    let ok := fun (l m : Nat) => decide (l < 18) && decide (l / 9 = c / 4) && decide (portPartner p.pod.size p.pod.me (l % 6) = some m)
    ok (p.succ.getD c 18) (at_ (p.pos + 1)) && ok (p.pred.getD c 18) (at_ (p.pos + p.n - 1)))

/-- The pod and ring configuration keep R203, R284 and R285. -/
def podOk (p : ImgPlain) : Bool :=
  let m := podModules p.pod.size
  decide (p.pod.size ≤ 6) && decide (p.pod.me < m) && decide (p.pod.head < m) && decide (p.pod.master < m) && decide (p.pod.id < 65536)
    && decide (p.gid < 256) && decide (1 ≤ p.n) && decide (p.n ≤ 64) && decide (p.order.length = p.n) && decide (p.pos < p.n)
    && p.order.all (fun x => decide (x < m)) && decide p.order.Nodup && decide (p.order.getD p.pos 0 = p.pod.me)
    && (decide (p.n = 1) || (List.range p.n).all (fun i =>
      (List.range 6).any (fun q => decide (portPartner p.pod.size (p.order.getD i 0) q = some (p.order.getD ((i + 1) % p.n) 0)))))
    && ringLinksOk p

/-- The stash table covers every layer of the array map where there are state tensors (R259, R335). -/
def stashOk (img : List Byte) (p : ImgPlain) : Bool :=
  let m := mapOfBytes (imgTable img 5)
  decide ((stateTableOf img).length = 0)
    || m.all (fun e => decide (e.layer = 0xFF) || p.stash.any (fun r => decide (r.1 = e.layer)))

/-- A byte value of an array code (R58). -/
def codeByteOk (b : Byte) : Bool := decide (b.toNat ≤ 0x0F) || decide (0xF1 ≤ b.toNat)

/-- A register-initialisation record. -/
def recOf (i : Nat) (b : List Byte) : InitRec :=
  { op := leAt b 0 1, phase := leAt b 1 1, off := leAt b 4 4, val := leAt b 8 4, mask := leAt b 0xC 4, num := i }

def recsOf (img : List Byte) : List InitRec :=
  let b := imgTable img 2
  (List.range (b.length / 16)).map (fun i => recOf i (sliceB b (16 * i) 16))

/-- The first record that fails the check of R338. -/
def recFault (img : List Byte) : Option Nat :=
  let b := imgTable img 2
  (recsOf img).findIdx? (fun r =>
    decide (r.op = 0) || decide (4 < r.op) || decide (3 < r.phase) || decide (leAt (sliceB b (16 * r.num) 16) 2 2 ≠ 0)
      || (decide (r.op = 4) && decide (10000 < r.val)) || (rowAt (canonAddr r.off)).isNone)

/-- The check of a section by its type; a table that R208 or R259 needs and that is absent counts with the state table. -/
def secCheck (img : List Byte) (p : ImgPlain) (x : Sec) : Bool :=
  let b := imgBody img x
  match x.typ with
  | 1 => decide (x.len ≤ 524288) && decide (x.load + x.len ≤ 524288)
  | 2 => decide (x.len % 16 = 0)
  | 3 => graphTableOk img x
  | 4 => fmtTableOk img b
  | 5 => mapOk b
  | 6 => stateTableOk img b && (decide (b.length = 0) || ((imgSec img 7).isSome && (imgSec img 8).isSome))
  | 7 => bucketTableOk img b
  | 8 => stashOk img p
  | 9 => podOk p
  | 0xA => decide (x.len = 16384)
  | 0xB => b.all codeByteOk
  | _ => true

/-- The first failure of the section checks (R335, R337, R338): cause and index. -/
def contentFault (img : List Byte) (p : ImgPlain) : Option (Nat × Nat) :=
  let l := imgSecs img
  let perm := leAt (ownerCert img) 36 4
  match secListFault img with
  | some i => some (7, i)
  | none =>
    match (List.range l.length).findSome? (fun i =>
      let x := l.getD i {}
      if sha256 (imgBody img x) ≠ x.hash then some (7, i)
      else if imgKind img = 2 ∧ perm.testBit x.typ = false then some (6, i)
      else if secCheck img p x then none
      else some (8, i)) with
    | some f => some f
    | none => (recFault img).map (fun i => (9, i))

/-! ### Loading -/

/-- What the tables and the plain configuration put into the module's own registers and tables. -/
def State.loadConfig (s : State) (img : List Byte) (p : ImgPlain) : State :=
  let s := s.modEzl (fun e => { e with pod := p.pod,
                                       link := (List.range 18).foldl (fun m l =>
                                         let k := SMap.get (fun _ => ({} : LinkSt)) m l
                                         if (portPartner p.pod.size p.pod.me (l % 6)).isSome then m
                                         else SMap.set (fun _ => ({} : LinkSt)) m l { k with st := .unused }) e.link })
  let s := s.modRed (fun r => { r with loaded := true, gid := p.gid, n := p.n, pos := p.pos, order := p.order, table := bucketTableOf img,
                                       chan := (List.range 8).foldl (fun m c => SMap.set (fun _ => ({} : ChanSt)) m c
                                         { succLink := p.succ.getD c 0, predLink := p.pred.getD c 0 }) r.chan })
  let sch := imgTable img 0xA
  let s := s.modUpd (fun u => { u with table := stateTableOf img,
                                       sched := (List.range 4096).foldl (fun m i =>
                                         SMap.set (fun _ => (0 : Word)) m i (BitVec.ofNat 32 (leAt sch (4 * i) 4))) [] })
  let m := mapOfBytes (imgTable img 5)
  let s := s.modArr (fun a => { a with map := m, shadow := p.shadow, target := p.target, measured := p.measured, diag := p.diag,
                                       imageCodes := p.codes,
                                       mat := m.foldl (fun x e => SMap.set (fun _ => ({} : MatSt)) x (e.die * 2048 + e.idx)
                                         { range := e.range, cur := e.range, chain := e.chain, train := e.range, trainChain := e.chain }) [] })
  let f := (imgSec img 4).getD {}
  let s := s.modFmt (fun t => { t with base := f.load, count := f.len / 16, statBase := p.statBase })
  let t := imgSec img 8
  s.modMem (fun x => { x with stashTokens := p.stashTokens, stashAt := t.elim 0 (·.load), stashImg := imgTable img 8,
                              stashTab := p.stash.map (fun r => ⟨r.1, r.2.1, r.2.2.1, r.2.2.2⟩),
                              layers := max 1 (((m.map (·.layer)).filter (· ≠ 0xFF)).dedup).length })

/-- The sections that name HBM are copied to HBM. -/
def State.loadHbm (s : State) (img : List Byte) : State :=
  (imgSecs img).foldl (fun s x => if x.typ = 1 then s else s.hbmWrite x.load (imgBody img x)) s

/-- Firmware goes into the SRAM of the cores that its mask names. -/
def State.loadFirmware (s : State) (img : List Byte) : State :=
  (imgSecs img).foldl (fun s x => if x.typ ≠ 1 then s
    else
      let b := imgBody img x
      (List.range 8).foldl (fun s c => if x.mask.testBit c then
        s.modImg (fun i => { i with sram := (List.range b.length).foldl (fun m j =>
          SMap.set (fun _ => (0 : Byte)) m (c * 2 ^ 19 + x.load + j) (b.getD j 0)) i.sram }) else s) s) s

/-- The running image: serial, signer kind, hashes, records. -/
def State.takeImage (s : State) (img : List Byte) (p : ImgPlain) : State :=
  let h := sha256 (imgSigned img)
  let s := s.modImg (fun i => { i with plain := p, recs := recsOf img, serial := leAt img 0xC 4, kind := imgKind img,
                                       ownerHash := if imgKind img = 2 then sha256 (ownerCert img) else List.replicate 32 0 })
  ((List.range 8).foldl (fun s k => s.setRegN (R.IMG_HASH k) (leAt h (4 * k) 4)) s).loadConfig img p

end Sys2Proof.Machine
end

