-- ==== Sys2Proof/Machine/PwrOps.lean ====
section
/-! DEFINITION. Operations of the supplies and the housekeeping block (chapter 15): events and the alert pin, switch-over, the powered-time
count, what survives a loss of power, measured quantities, coolant duties, SMBus answers. -/

namespace Sys2Proof.Machine

/-! ### Events -/

/-- Set a PWR_EVENTS bit; an enabled event asserts SMB_ALERT_N again after an alert response released it (R366). -/
def State.pwrEvent (s : State) (i : Nat) : State :=
  (s.event R.PWR_EVENTS i).when (s.regB R.PWR_ALERT_EN i) (fun s => s.modPwr (fun p => { p with alertDone := false }))

/-- An event that is also logged in class POWER. -/
def State.pwrEventLog (s : State) (i cause detail : Nat) : State := (s.pwrEvent i).log 4 7 i cause detail

/-- SMB_ALERT_N is asserted: an enabled event, or a trip, and no alert response since (R362, R366). -/
def State.alertPin (s : State) : Bool :=
  (((s.reg R.PWR_EVENTS &&& s.reg R.PWR_ALERT_EN) ≠ 0) || s.pwr.tripping) && !s.pwr.alertDone

/-- The housekeeping block is powered: since supply good, and in the hardware-fault state that a rail left it in (R354, R366). -/
def State.housed (s : State) : Bool := s.pwr.rails || decide (s.img.stage = 0xD)

/-! ### Inputs (R349 to R353) -/

def PwrSt.good (p : PwrSt) (b : Bool) : Bool := if b then p.bGood else p.aGood
def PwrSt.setGood (p : PwrSt) (b v : Bool) : PwrSt := if b then { p with bGood := v } else { p with aGood := v }

/-- Switch over to input `b` (R353): cause 1 automatic, 2 return, 3 command. -/
def State.switchTo (s : State) (b : Bool) (cause : Nat) : State :=
  let old := s.pwr.activeB
  let s := (s.modPwr (fun p => { p with activeB := b })).incReg R.PWR_SWITCH_CNT 1
  s.pwrEventLog 1 cause (old.toNat + b.toNat * 2 ^ 8 + cause * 2 ^ 16 + s.time * 2 ^ 32)

/-! ### Powered time and loss of power (R351, R355) -/

/-- The bytes of a stored copy of the powered-time count. -/
def countRec (n : Nat) : List Byte := leBytes 4 n ++ leBytes 4 (crc32c (leBytes 4 n))

/-- The count of a copy whose check value matches. -/
def countOf (b : List Byte) : Option Nat := if b.length = 8 ∧ leAt b 4 4 = crc32c (b.take 4) then some (leAt b 0 4) else none

/-- The count that the copies give: the higher one of the valid copies. DESIGN CHOICE: 0 where neither is valid. -/
def PwrSt.stored (p : PwrSt) : Nat := max ((countOf p.storeA).getD 0) ((countOf p.storeB).getD 0)

/-- Copy A is the older one: it is invalid, or both are valid and it does not hold the higher count. -/
def PwrSt.olderA (p : PwrSt) : Bool := match countOf p.storeA, countOf p.storeB with
  | none, _ => true
  | some _, none => false
  | some a, some b => decide (a ≤ b)

/-- Write the older copy of the powered-time count; a write that is cut off leaves that copy invalid. -/
def State.savePowered (s : State) (ok : Bool) : State :=
  let b := if ok then countRec (s.reg R.PWR_POWERED).toNat else []
  s.modPwr (fun p => if p.olderA then { p with storeA := b, sinceSave := 0 } else { p with storeB := b, sinceSave := 0 })

/-- The powered-time count is taken from the stored copies (R355). -/
def State.loadPowered (s : State) : State := s.setRegN R.PWR_POWERED s.pwr.stored

/-- What an array keeps without power: its cells and its metadata rows. -/
def PhysSt.unpowered (x : PhysSt) : PhysSt :=
  { codes := x.codes, meas := x.meas, scales := x.scales, vgain := x.vgain, voff := x.voff, writes := x.writes, record := x.record }

/-- The arrays of an unpowered module. -/
def ArrSt.unpowered (a : ArrSt) : ArrSt :=
  { phys := a.phys.filterMap (fun p => if p.2.unpowered = {} then none else some (p.1, p.2.unpowered)) }

/-- Every rail is off (R351, R362): arrays, identity store, image memory, leaf records and the stored powered counts keep their contents; everything else
is as at reset.  The inputs, the straps, the trip latch with THERMTRIP_N (R414) and PERST_N lie outside the rails. -/
def State.powerOff (s : State) (latched : Bool) : State :=
  { arr := s.arr.unpowered,
    img := { idA := s.img.idA, idB := s.img.idB, lock := s.img.lock, cap := s.img.cap, wrote := s.img.wrote, flash := s.img.flash,
             att := { leafA := s.img.att.leafA, leafB := s.img.att.leafB } },
    pwr := { aGood := s.pwr.aGood, bGood := s.pwr.bGood, activeB := s.pwr.activeB, latched := latched, therm := latched, storeA := s.pwr.storeA,
             storeB := s.pwr.storeB },
    hif := { perst := s.hif.perst }, out := s.out, free := s.free, pending := s.pending }

/-! ### Measured quantities (R356, R357) -/

/-- An integer quotient rounded to nearest even, for a positive divisor. -/
def rneQuot (n : Int) (d : Nat) : Int :=
  let q := n / (d : Int)
  let r := 2 * (n % (d : Int))
  if r < (d : Int) then q else if (d : Int) < r then q + 1 else if q % 2 = 0 then q else q + 1

/-- A channel that converts a signed code. -/
def signedCh (ch : Nat) : Bool := decide (9 ≤ ch) && decide (ch ≤ 11) || decide (ch = 14)
/-- A raw code of a channel, limited to the converter's range. -/
def rawCode (ch : Nat) (raw : Int) : Int := if signedCh ch then clampInt (-2048) 2047 raw else clampInt 0 4095 raw

/-- Corrected code of the measurement table. -/
def State.meas (s : State) (ch pos : Nat) : Int := (SMap.get (fun _ => ({} : MeasEnt)) s.pwr.meas (ch * 16 + pos)).value

/-- The corrected code of a conversion (R357); with v = z the spec states no result: a free value. -/
def State.corrected (s : State) (raw : Int) : Int × State :=
  let v := s.pwr.v - s.pwr.z
  if v = 0 then (sext 16 ((Config.freeByte s.free 0).toNat + (Config.freeByte s.free 1).toNat * 256), { s with free := s.free + 1 })
  else if 0 < v then (rneQuot ((raw - s.pwr.z) * 2400) v.natAbs, s)
  else (rneQuot (-((raw - s.pwr.z) * 2400)) v.natAbs, s)

/-- A temperature code of channel 7, 8 or 13 is at or above `t` °C. -/
def hotAt (n : Int) (t : Int) : Bool := decide (16 * (t + 64) ≤ n)

/-- Input power in units of 256 µW: voltage code of the active input times current code. -/
def State.powerCode (s : State) : Int := s.meas (if s.pwr.activeB then 2 else 1) 0 * s.meas 3 0
/-- Input power exceeds `w` watts. -/
def State.powerAbove (s : State) (w : Nat) : Bool := decide (((w * 1000000 : Nat) : Int) < s.powerCode * 256)

/-- The dies of the module by channel and position: Damask dies and HBM stacks on channel 7, Kaolin dies on channel 8. -/
def diePositions : List (Nat × Nat) :=
  (List.range 14).map (fun i => (7, i)) ++ (List.range 16).map (fun i => (8, i))
/-- The hottest die's code. -/
def State.hottest (s : State) : Int := (diePositions.map (fun p => s.meas p.1 p.2)).foldl max (s.meas 7 0)

/-! ### Coolant outputs (R364) -/

/-- A duty field in units of 4/1,023; 255 gives 1,023. -/
def dutyUnits (n : Nat) : Nat := if n = 255 then 1023 else 4 * n

def State.pwmMax (s : State) (o : Nat) : Nat := dutyUnits (s.regF (R.PWR_PWM_CURVE o) 7 0)

/-- The duty at a temperature given in sixteenths of a degree. -/
def State.pwmCurve (s : State) (o : Nat) (t : Int) : Nat :=
  let lo := 16 * s.regF (R.PWR_PWM_CURVE o) 31 24
  let hi := 16 * s.regF (R.PWR_PWM_CURVE o) 23 16
  let dmin := 4 * s.regF (R.PWR_PWM_CURVE o) 15 8
  let dmax := s.pwmMax o
  if hi ≤ lo ∨ (hi : Int) ≤ t then dmax
  else if t ≤ (lo : Int) then dmin
  else (((dmin : Int) * ((hi : Int) - lo) + ((dmax : Int) - dmin) * (t - lo)) / ((hi : Int) - lo)).toNat

/-- The duty that sources 1 and 2 give now, in a loop period. -/
def State.pwmLoop (s : State) (o : Nat) : Nat :=
  if s.regF (R.PWR_PWM_CFG o) 31 30 = 1 then s.pwmCurve o (400 + 4 * s.meas 10 0) else s.pwmCurve o (s.hottest - 1024)

/-- The duty that an output drives. -/
def State.pwmDuty (s : State) (o : Nat) : Nat :=
  let src := s.regF (R.PWR_PWM_CFG o) 31 30
  if !s.pwr.pwmSet.contains o || (decide (src = 1) && s.pwr.faulty.contains 10) || s.pwr.holdup || s.pwr.tripping then s.pwmMax o
  else if src = 0 then s.pwmMax o
  else if src = 3 then s.regF (R.PWR_PWM_CFG o) 9 0
  else SMap.get (fun _ => s.pwmMax o) s.pwr.pwm o

/-- An output pin (R364, R412): high-impedance while the housekeeping block is unpowered; else the fraction of a period, in 1/1,023, for which it
is high, with INVERT for which it is low. -/
def State.pwmPin (s : State) (o : Nat) : Option Nat :=
  if s.housed then some (if s.regB (R.PWR_PWM_CFG o) 29 then 1023 - s.pwmDuty o else s.pwmDuty o) else none

/-! ### Pins of the power stages and of the image memory (R362, R407, R414) -/

/-- THERMTRIP_N is low: since a trip, and for as long as its latch holds. -/
def State.thermPin (s : State) : Bool := s.pwr.therm

/-- XSPI_RESET_N is low: from supply good until the IMAGE stage begins. -/
def State.xspiReset (s : State) : Bool := s.pwr.rails && decide (s.img.stage < 3)

/-- PRESENT_N is low: tied to ground on the module. -/
def presentPin : Bool := true

/-! ### SMBus (R366) -/

/-- The packet error code: CRC-8 with polynomial x^8 + x^2 + x + 1 (PRESUMED: SMBus 3.2). -/
def crc8Bit (c : Nat) : Nat := if 128 ≤ c then ((c * 2) ^^^ 0x107) % 256 else c * 2
def crc8 (bs : List Byte) : Nat :=
  bs.foldl (fun c b => crc8Bit (crc8Bit (crc8Bit (crc8Bit (crc8Bit (crc8Bit (crc8Bit (crc8Bit (c ^^^ b.toNat))))))))) 0

/-- The target's address byte for writes; reads add 1. -/
def PwrSt.smbAddr (p : PwrSt) : Nat := 2 * (0x40 + p.addr % 8)

/-- The target answers: it is powered (R366). -/
def State.smbOn (s : State) : Bool := s.housed

/-- Answer a read command with its data and PEC. -/
def State.smbAnswer (s : State) (code : Nat) (data : List Byte) : State :=
  if s.smbOn then
    let a := s.pwr.smbAddr
    let s := s.modPwr (fun p => { p with smbCmd := code, smbByte := a + 1 })
    s.emit (.smb (data ++ [byteOf (crc8 ([byteOf a, byteOf code, byteOf (a + 1)] ++ data))]))
  else s

/-- A word value, little-endian; a signed one in two's complement. -/
def smbWord (z : Int) : List Byte := leBytes 2 (toTwos 16 z)
/-- A block read: the byte count, then the bytes. -/
def smbBlock (bs : List Byte) : List Byte := byteOf bs.length :: bs

/-- A die temperature in 0.1 °C, rounded down. -/
def tenths (n : Int) : Int := 10 * n / 16 - 640
/-- A coolant temperature in 0.1 °C, rounded down. -/
def coolTenths (n : Int) : Int := 250 + 10 * n / 4

end Sys2Proof.Machine
end

