-- ==== Sys2Proof/Machine/Power.lean ====
section
/-! DEFINITION. Meanings of the supply, housekeeping, governor and SMBus commands (chapter 15). -/

namespace Sys2Proof.Machine

/-! ### Supplies -/

/-- INPUT_GOOD (R349 to R351): `b` names input B.  An input that comes back in hold-up, or while the active one is bad, takes the load. -/
def inputGood (b : Bool) (s : State) : State :=
  let s := s.modPwr (fun p => p.setGood b true)
  if s.pwr.good s.pwr.activeB && decide (s.pwr.activeB ≠ b) then s
  else
    let s := s.modPwr (fun p => { p with holdup := false })
    if s.pwr.activeB = b then s
    else if s.housed then s.switchTo b 1
    else s.modPwr (fun p => { p with activeB := b })

def execInputGood (b : Bool) (s : State) : Answer := .next (inputGood b s)

/-- INPUT_LOSS (R349, R350): an input stops being good; the other one takes the load where it is good. -/
def inputLoss (b : Bool) (s : State) : State :=
  if s.pwr.good b then
    let s := (s.modPwr (fun p => p.setGood b false)).pwrEvent 0
    if decide (s.pwr.activeB = b) && s.pwr.good (!b) then
      (if s.housed then s.switchTo (!b) 1 else s.modPwr (fun p => { p with activeB := !b }))
    else s
  else s

def execInputLoss (b : Bool) (s : State) : Answer := .next (inputLoss b s)

/-- HOLDUP (R351): neither input is good. -/
def holdup (s : State) : State :=
  if s.pwr.aGood || s.pwr.bGood || s.pwr.holdup || !s.housed then s
  else
    let s := (s.modPwr (fun p => { p with holdup := true })).pwrEventLog 2 0 0
    (s.raiseTrig 0x04 (s.time + s.localLead) false).savePowered true

def execHoldup (s : State) : Answer := .next (holdup s)

/-- HOLDUP_EXHAUSTED (R351): the hold-up voltage is below 38 V; a trip that has begun leaves the power stages latched off (R362). -/
def execHoldupExhausted (s : State) : Answer := .next (if s.pwr.holdup then s.powerOff (s.pwr.latched || s.pwr.tripping) else s)

/-- RETURN_TO_A (R352): A has been good for RETURN_DELAY s; the 8th return within 10 min makes A unstable. -/
def returnToA (s : State) : State :=
  if !s.fnHost 9 && s.pwr.activeB && s.pwr.aGood && !s.pwr.unstable then
    let s := s.switchTo false 2
    let l := s.pwr.returns.filter (fun t => decide (s.time < t + 600000000000)) ++ [s.time]
    let s := s.modPwr (fun p => { p with returns := l })
    if 8 ≤ l.length then (s.modPwr (fun p => { p with unstable := true })).pwrEventLog 4 0 0 else s
  else s

def execReturnToA (s : State) : Answer := .next (returnToA s)

/-- SELECT_A and SELECT_B (R352): ignored in hardware mode of function 9; refused when the target input is not good. -/
def selectInput (rq : Requester) (b : Bool) (s : State) : State :=
  let v : Word := if b then 2 else 1
  if !s.fnHost 9 then s.refuseWrite rq R.PWR_CMD v 1
  else if !s.pwr.good b then (s.refuseBit rq R.PWR_CMD v 2 3).pwrEvent 3
  else if s.pwr.activeB = b then s
  else s.switchTo b 3

def execSelectA (rq : Requester) (s : State) : Answer := .next (selectInput rq false s)
def execSelectB (rq : Requester) (s : State) : Answer := .next (selectInput rq true s)

/-- CLEAR_UNSTABLE (R352). -/
def clearUnstable (s : State) : State :=
  (s.modPwr (fun p => { p with unstable := false, returns := [] })).setRegB R.PWR_EVENTS 4 false

def execClearUnstable (_rq : Requester) (s : State) : Answer := .next (clearUnstable s)

/-- SUPPLY_GOOD (R354): every rail has been in regulation for 1 ms; start-up begins, the straps are read and the powered-time count comes
from the copy with the higher count. -/
def supplyGood (addr : Nat) (s : State) : State :=
  if s.housed || s.pwr.latched || !(s.pwr.aGood || s.pwr.bGood) then s
  else ((s.modPwr (fun p => { p with rails := true, addr := addr % 8 })).loadPowered).modImg (fun i => { i with stage := 1, worked := false })

def execSupplyGood (smbAddr : Nat) (s : State) : Answer := .next (supplyGood smbAddr s)

/-- The hardware-fault state (R330): cause 0x0A HBM or 0x0B DIE, with the failing stack or die. -/
def State.hardwareFault (s : State) (cause unit : Nat) : State :=
  ((s.linksDown.modImg (fun i => { i with stage := 0xD, worked := false })).setReg R.IMG_FAULT (packFields [(24, cause), (16, unit % 256)])).eventLog
    R.IMG_EVENTS 0 8 5 cause unit

/-- RAIL_TIMEOUT (R354); the housekeeping block runs and holds the stored powered-time count. -/
def execRailTimeout (die : Nat) (s : State) : Answer :=
  .next (if s.housed || s.pwr.latched || !(s.pwr.aGood || s.pwr.bGood) then s else s.loadPowered.hardwareFault 0x0B die)

/-- POWERED_SECOND (R355). -/
def execPoweredSecond (s : State) : Answer :=
  .next (if s.pwr.rails then
      (s.setRegN R.PWR_POWERED (((s.reg R.PWR_POWERED).toNat + 1) % 2 ^ 32)).modPwr (fun p => { p with sinceSave := p.sinceSave + 1 })
    else s)

/-- POWERED_COUNT_SAVE (R355): every 3,600 s; `ok` is false when power is lost during the write. -/
def execPoweredCountSave (ok : Bool) (s : State) : Answer :=
  .next (if s.pwr.rails && decide (3600 ≤ s.pwr.sinceSave) then s.savePowered ok else s)

/-! ### Housekeeping converter -/

/-- A software result lands in HKA_DATA (R358, R359). -/
def State.softResult (s : State) (ch pos : Nat) (raw : Int) : State :=
  let code := toTwos 12 raw
  let res := if s.regB R.HKA_CFG 0 then code * 16 else if signedCh ch then toTwos 16 raw else code
  let s := if s.pwr.valid then (s.modPwr (fun p => { p with ovr := true })).pwrEvent 10 else s
  s.modPwr (fun p => { p with data := (ch, pos, res), valid := true })

/-- A software conversion takes this slot: one is due and the last slot was the scan's. -/
def State.softDue (s : State) : Option ConvReq := match s.pwr.conv with
  | some c => if !s.pwr.swLast && decide (c.due ≤ s.time) then some c else none
  | none => none

/-- A thermal trip begins (R362). -/
def State.trip (s : State) (ch pos : Nat) : State :=
  if s.pwr.tripping then s
  else
    let s := (s.pwrEventLog 7 ch pos).modPwr (fun p => { p with therm := true, tripping := true, alertDone := false,
                                                                duty := SMap.set (fun _ => 16) (SMap.set (fun _ => 16) p.duty 0 4) 1 4 })
    ((List.range 16).foldl (fun s k => s.setRegB (R.ARR_CTRL k) 0 false) s).pwrEvent 5

/-- The trip temperature of a position, if it has one. -/
def State.critOf (s : State) (ch pos : Nat) : Option Nat :=
  if ch = 8 then some (min 105 (s.regF R.PWR_CRIT_CFG 31 24))
  else if ch = 7 ∧ pos < 2 then some (min 110 (s.regF R.PWR_CRIT_CFG 23 16))
  else if ch = 7 ∧ pos < 14 then some (min 105 (s.regF R.PWR_CRIT_CFG 15 8))
  else none

/-- Two scans of a position in a row at or above its trip temperature trip the module (R362). -/
def State.checkTrip (s : State) (ch pos : Nat) (n : Int) : State := match s.critOf ch pos with
  | none => s
  | some t =>
    let k := ch * 16 + pos
    let c := if hotAt n t then min 2 (SMap.get (fun _ => 0) s.pwr.hot k + 1) else 0
    let s := s.modPwr (fun p => { p with hot := SMap.set (fun _ => 0) p.hot k c })
    if c = 2 then s.trip ch pos else s

/-- The coolant warning (R365); a faulty bridge is left out. -/
def State.coolantWarn (s : State) : State :=
  let inlet := s.meas 9 0
  let hotIn := !s.pwr.faulty.contains 9 && decide (4 * ((s.regF R.PWR_COOLANT_CFG 15 8 : Nat) : Int) < inlet + 100)
  let diff := !s.pwr.faulty.contains 9 && !s.pwr.faulty.contains 10
    && decide (4 * ((s.regF R.PWR_COOLANT_CFG 7 0 : Nat) : Int) < s.meas 10 0 - inlet)
  if hotIn || diff then (if s.regB R.PWR_EVENTS 8 then s.pwrEvent 8 else s.pwrEventLog 8 0 0) else s

/-- Rounds at full scale of a coolant bridge (R365); a bridge that leaves full scale is no longer faulty. -/
def State.bridgeScale (s : State) (ch : Nat) (raw : Int) : State :=
  if 9 ≤ ch ∧ ch ≤ 11 then
    let full := decide (raw = -2048) || decide (raw = 2047)
    s.modPwr (fun p => { p with full := SMap.set (fun _ => 0) p.full ch (if full then min 4 (SMap.get (fun _ => 0) p.full ch + 1) else 0),
                                faulty := if full then p.faulty else p.faulty.filter (· ≠ ch) })
  else s

/-- A scan conversion of the next channel (R357). -/
def State.scanResult (s : State) (raw : Int) : State :=
  let ch := s.pwr.chan
  let pos := s.pwr.round % posCount ch
  let raw := rawCode ch raw
  let s := s.modPwr (fun p => if ch = 14 then { p with z := raw } else if ch = 0 then { p with v := raw } else p)
  let n := s.corrected raw
  let s := n.2.modPwr (fun p => { p with meas := SMap.set (fun _ => ({} : MeasEnt)) p.meas (ch * 16 + pos) ⟨n.1, p.round⟩, swLast := false,
                                         chan := (ch + 1) % 16, round := if ch = 15 then p.round + 1 else p.round })
  ((s.bridgeScale ch raw).checkTrip ch pos n.1).when (decide (ch = 9) || decide (ch = 10)) State.coolantWarn

/-- HKA_CONVERSION (R357 to R359): a slot ends with a raw code of the converter. -/
def hkaConversion (raw : Int) (s : State) : State := match s.softDue with
  | some c =>
    let s := s.softResult c.chan c.pos (rawCode c.chan raw)
    let rest := if c.left ≤ 1 then none else some { c with left := c.left - 1, due := s.time + c.interval * 1000 }
    s.modPwr (fun p => { p with swLast := true, conv := if p.convNext.isSome then p.convNext else rest, convNext := none })
  | none => s.scanResult raw

def execHkaConversion (raw : Int) (s : State) : Answer := .next (hkaConversion raw s)

/-- SENSOR_FAULT (R365): a bridge at full scale for 4 rounds. -/
def sensorFault (ch : Nat) (s : State) : State :=
  if 4 ≤ SMap.get (fun _ => 0) s.pwr.full ch ∧ !s.pwr.faulty.contains ch then
    (s.modPwr (fun p => { p with faulty := p.faulty ++ [ch] })).pwrEventLog 9 ch 0
  else s

def execSensorFault (ch : Nat) (s : State) : Answer := .next (sensorFault ch s)

/-- HKA_CONV_WRITE (R358): the request runs, after the conversion that an earlier one has under way. -/
def hkaConvWrite (v : Word) (s : State) : State :=
  let ch := fld v 3 0
  let c : ConvReq := { chan := ch, pos := if posCount ch = 1 then 0 else fld v 7 4 % posCount ch, left := fld v 31 24 + 1, interval := fld v 23 16,
                       due := s.time }
  s.modPwr (fun p => if s.softDue.isSome then { p with convNext := some c } else { p with conv := some c, convNext := none })

def execHkaConvWrite (_rq : Requester) (v : Word) (s : State) : Answer := .next (hkaConvWrite v s)

/-- HKA_DATA_READ (R359): the result is returned, then VALID and OVR clear. -/
def hkaDataRead (rq : Requester) (s : State) : State :=
  (s.emit (.reply rq R.HKA_DATA (s.view R.HKA_DATA))).modPwr (fun p => { p with valid := false, ovr := false })

def execHkaDataRead (rq : Requester) (s : State) : Answer := .next (hkaDataRead rq s)

/-- TRIP_POWER_OFF (R362). -/
def execTripPowerOff (s : State) : Answer := .next (if s.pwr.tripping then s.powerOff true else s)

/-- TRIP_LATCH_RELEASE (R362): both inputs have been below 30 V for 1 s. -/
def execTripLatchRelease (s : State) : Answer :=
  .next (if s.pwr.aGood || s.pwr.bGood then s else s.modPwr (fun p => { p with latched := false, therm := p.tripping && p.therm }))

/-! ### The governor (R360, R363) -/

/-- FLOOR. -/
def State.capFloor (s : State) : Nat := max 1 (s.regF R.PWR_THERM_CFG 7 0)
/-- PWR_LIMIT, limited to 1,000 to 2,800 W. -/
def State.powerLimit (s : State) : Nat := max 1000 (min 2800 (s.regF R.PWR_LIMIT 11 0))

/-- The power part of a loop period. -/
def State.powerLoop (s : State) : State :=
  let isOver := s.powerAbove 2800
  let p := s.pwr
  let hw := !s.fnHost 10
  let floor := s.capFloor
  let s := s.modPwr (fun p => { p with above := isOver })
  if isOver && p.above then (s.modPwr (fun p => { p with pcap := floor, pduty := 8, calm := 0 })).pwrEventLog 6 0 0
  else if hw && s.powerAbove s.powerLimit then
    s.modPwr (fun p => if floor < p.pcap then { p with pcap := max floor (p.pcap - max 8 (p.pcap / 8)), calm := 0 }
      else { p with pduty := max 4 (p.pduty - 1), calm := 0 })
  else if hw && decide (s.powerCode * 256 < ((s.powerLimit : Nat) : Int) * 1000000 - ((s.regF R.PWR_LOOP_CFG 31 24 : Nat) : Int) * 1000000) then
    (if max 1 (s.regF R.PWR_LOOP_CFG 23 16) ≤ p.calm + 1 then
      s.modPwr (fun p => if p.pduty < 16 then { p with pduty := p.pduty + 1, calm := 0 }
        else { p with pcap := min 768 (p.pcap + 16), calm := 0 })
    else s.modPwr (fun p => { p with calm := p.calm + 1 }))
  else s.modPwr (fun p => { p with calm := 0 })

/-- The loop cap of a Kaolin die. -/
def State.kaolinLoop (s : State) (k : Nat) : State :=
  let t := ((s.regF R.PWR_THERM_CFG 31 24 : Nat) : Int)
  let n := s.meas 8 k
  let c := SMap.get (fun _ => 768) s.pwr.tcap k
  let c' := if hotAt n t then max s.capFloor (c / 2) else if !hotAt n (t - 5) then min 768 (c + 16) else c
  let base := if s.fnHost 10 then min s.pwr.pcap (max 1 (min 768 (s.regF R.PWR_HOST_CAP 25 16))) else s.pwr.pcap
  (s.modPwr (fun p => { p with tcap := SMap.set (fun _ => 768) p.tcap k c' })).setKao k { s.kao k with loopCap := min base c' }

/-- The duty of a Damask die, with its own 6 HBM stacks. -/
def State.damaskLoop (s : State) (d : Nat) : State :=
  let td := ((s.regF R.PWR_THERM_CFG 23 16 : Nat) : Int)
  let th := ((s.regF R.PWR_THERM_CFG 15 8 : Nat) : Int)
  let hbm := (List.range 6).map (fun i => s.meas 7 (2 + 6 * d + i))
  let c := SMap.get (fun _ => 16) s.pwr.tduty d
  let c' := if hotAt (s.meas 7 d) td || hbm.any (hotAt · th) then max 4 (c - 1)
    else if !hotAt (s.meas 7 d) (td - 5) && hbm.all (fun n => !hotAt n (th - 5)) then min 16 (c + 1)
    else c
  let base := if s.fnHost 10 then min s.pwr.pduty (max 4 (min 16 (s.regF R.PWR_HOST_CAP 4 0))) else s.pwr.pduty
  s.modPwr (fun p => { p with tduty := SMap.set (fun _ => 16) p.tduty d c', duty := SMap.set (fun _ => 16) p.duty d (min base c') })

/-- A loop cap lies below ARR_GOV_CAP, or a duty below 16. -/
def State.throttled (s : State) : Bool :=
  (List.range 16).any (fun k => decide ((s.kao k).loopCap < max 1 (min 768 (s.regF (R.ARR_GOV_CAP k) 9 0))))
    || (List.range 2).any (fun d => decide (s.pwr.dutyOf d < 16))

/-- The coolant outputs of sources 1 and 2 take their duties. -/
def State.pwmUpdate (s : State) : State :=
  (List.range 2).foldl (fun s o =>
    let m := s.regF (R.PWR_PWM_CFG o) 31 30
    if m = 1 ∨ m = 2 then s.modPwr (fun p => { p with pwm := SMap.insert o (s.pwmLoop o) p.pwm }) else s) s

/-- GOVERNOR_LOOP (R360, R363, R364); once a trip has begun, the duties stay at 4 until the rails turn off. -/
def governorLoop (s : State) : State :=
  if !s.housed || s.pwr.tripping then s
  else
    let s := (List.range 16).foldl State.kaolinLoop s.powerLoop
    let s := (List.range 2).foldl State.damaskLoop s
    (s.when s.throttled (fun s => s.pwrEvent 5)).pwmUpdate

def execGovernorLoop (s : State) : Answer := .next (governorLoop s)

/-! ### SMBus telemetry (R366) -/

/-- The status word of command 0x00. -/
def State.smbStatus (s : State) : Nat :=
  (packFields [(0, s.pwr.aGood.toNat), (1, s.pwr.bGood.toNat), (2, s.pwr.activeB.toNat), (3, s.pwr.holdup.toNat), (4, s.throttled.toNat),
    (5, s.pwr.tripping.toNat), (6, (decide (s.img.stage = 0xC)).toNat), (7, (decide (s.img.stage = 0xD)).toNat), (8, s.ready.toNat)]).toNat

def execSmbStatusRead (s : State) : Answer := .next (s.smbAnswer 0x00 (leBytes 2 s.smbStatus))
def execSmbInputPowerRead (s : State) : Answer := .next (s.smbAnswer 0x01 (smbWord (s.powerCode * 256 / 1000000)))
def execSmbInputAVoltageRead (s : State) : Answer := .next (s.smbAnswer 0x02 (smbWord (s.meas 1 0 * 16 / 10)))
def execSmbInputBVoltageRead (s : State) : Answer := .next (s.smbAnswer 0x03 (smbWord (s.meas 2 0 * 16 / 10)))
def execSmbInputCurrentRead (s : State) : Answer := .next (s.smbAnswer 0x04 (smbWord (s.meas 3 0 * 16 / 10)))
def execSmbHottestDieRead (s : State) : Answer := .next (s.smbAnswer 0x05 (smbWord (tenths s.hottest)))
def execSmbCoolantInletRead (s : State) : Answer := .next (s.smbAnswer 0x06 (smbWord (coolTenths (s.meas 9 0))))
def execSmbCoolantOutletRead (s : State) : Answer := .next (s.smbAnswer 0x07 (smbWord (coolTenths (s.meas 10 0))))
def execSmbPwm0DutyRead (s : State) : Answer := .next (s.smbAnswer 0x08 (leBytes 2 (s.pwmDuty 0)))
def execSmbPwm1DutyRead (s : State) : Answer := .next (s.smbAnswer 0x09 (leBytes 2 (s.pwmDuty 1)))
def execSmbEventsRead (s : State) : Answer := .next (s.smbAnswer 0x0A (leBytes 2 (s.reg R.PWR_EVENTS).toNat))

def execSmbTemperaturesRead (s : State) : Answer :=
  .next (s.smbAnswer 0x20 (smbBlock ((List.range 16).flatMap (fun i => smbWord (tenths (s.meas 7 i)))
    ++ (List.range 16).flatMap (fun i => smbWord (tenths (s.meas 8 i))))))

def execSmbIdentityRead (s : State) : Answer :=
  .next (s.smbAnswer 0x21 (smbBlock (sliceB s.img.idStore 0x10 16 ++ sliceB s.img.idStore 4 8)))

/-- SMB_ALERT_RESPONSE: the asserting module answers with its address, and SMB_ALERT_N is released. -/
def execSmbAlertResponse (s : State) : Answer :=
  .next (if s.smbOn && s.alertPin then
      let a := byteOf s.pwr.smbAddr
      (s.modPwr (fun p => { p with alertDone := true, smbByte := 0x19 })).emit (.smb [a, byteOf (crc8 [0x19, a])])
    else s)

/-- SMB_INVALID_COMMAND: a write, an unknown command or, with `pec`, a wrong PEC byte is NACKed and logged (R386). -/
def execSmbInvalidCommand (code : Nat) (pec : Bool) (s : State) : Answer :=
  .next (if s.smbOn then
      ((s.modPwr (fun p => { p with smbCmd := code % 256, smbByte := p.smbAddr, smbPec := p.smbPec + pec.toNat })).log 0x16 2 0xFF (1 + pec.toNat)
        (code % 256)).emit .smbNack
    else s)

/-- SMB_CLK_LOW_TIMEOUT: the bus is released, and the event is logged. -/
def execSmbClkLowTimeout (s : State) : Answer :=
  .next (if s.smbOn then (s.modPwr (fun p => { p with smbRel := p.smbRel + 1 })).log 0x16 2 0xFF 0 0 else s)

end Sys2Proof.Machine
end

