-- ==== Sys2Proof/Machine/Image.lean ====
section
/-! DEFINITION. Meanings of the start-up stages (R329 to R333), of boot from a pushed image and image update (R340 to R342, R378), and of
attestation (R344 to R348). -/

namespace Sys2Proof.Machine

/-! ### Stages -/

/-- The image-fault state (R330): the cause, and the failing section or record. -/
def State.imageFault (s : State) (cause index : Nat) : State :=
  ((s.linksDown.modImg (fun i => { i with stage := 0xC, worked := false })).setReg R.IMG_FAULT (packFields [(24, cause), (0, index % 65536)])).eventLog
    R.IMG_EVENTS 0 8 (if cause = 2 then 5 else 2) cause index

/-- Start-up goes on to a stage. -/
def State.toStage (s : State) (k : Nat) : State := s.modImg (fun i => { i with stage := k, worked := false })

/-- ROM_STAGE. -/
def romStage (s : State) : State := if s.pwr.rails ∧ s.img.stage = 1 then s.toStage 2 else s

def execRomStage (s : State) : Answer := .next (romStage s)

/-- Attestation becomes unavailable, with a cause (R345 to R348). -/
def State.attLost (s : State) (cause : Nat) : State :=
  let t := (s.modImg (fun i => { i with att := { i.att with avail := false, cause := cause, req := none } })).event R.IMG_EVENTS 5
  t.when s.img.att.req.isSome (fun t => t.event R.IMG_EVENTS 4)

/-- A start-up reads the identity store's copies (R343): the first one finds what assembly wrote; later, a copy that reads otherwise than the
locked cells were written is unreadable. -/
def ImgSt.readId (i : ImgSt) (seen : Option (List Byte × List Byte)) : ImgSt :=
  match seen, i.lock with
  | some x, none => { i with idA := x.1, idB := x.2, lock := some x }
  | some x, some l => { i with idA := if x.1 = l.1 then x.1 else [], idB := if x.2 = l.2 then x.2 else [] }
  | none, some l => { i with idA := l.1, idB := l.2 }
  | none, none => i

/-- IDENTITY_STAGE (R343, R344): the copies read, where they differ from what the module holds, and the read of the fingerprint array. -/
def identityStage (seen : Option (List Byte × List Byte)) (finger : List Byte) (s : State) : State :=
  if s.img.stage ≠ 2 then s
  else
    let s := s.modImg (fun i => i.readId seen)
    if !idValid s.img.idA && !idValid s.img.idB then s.imageFault 2 0
    else (s.modImg (fun i => { i with att := { i.att with finger := finger } })).toStage 3

def execIdentityStage (seen : Option (List Byte × List Byte)) (finger : List Byte) (s : State) : Answer := .next (identityStage seen finger s)

/-- SFDP_TIMEOUT (R332): no device answers. -/
def execSfdpTimeout (s : State) : Answer :=
  .next (if s.img.stage = 3 then (s.modImg (fun i => { i with cap := 0 })).imageFault 1 0 else s)

/-- The device secret is formed (R344): the fingerprint's read is corrected with copy A of the helper data where its check value matches, and
with copy B otherwise. DEDUCED: with neither copy valid no secret is formed, and attestation is unavailable with cause SECRET. -/
def State.formSecret (s : State) (a b : List Byte) : State :=
  match if helperOk a then some a else if helperOk b then some b else none with
  | some h => s.modImg (fun i => { i with att := { i.att with finger := [], secret := some (sha256 (Config.corrected i.att.finger h)) } })
  | none => s.attLost 2

/-- IMAGE_STAGE (R332, R333, R337): the helper data and the image are read, and the image's signatures are checked.  Once WRITE_IMAGE has erased
the image area, what start-up reads is what that command left there. -/
def imageStage (image : List Byte) (dev : FlashSeen) (s : State) : State :=
  if s.img.stage ≠ 3 then s
  else
    let s := ((s.modImg (fun i => { i with cap := dev.cap })).when (!dev.fast) (fun s => s.event R.IMG_EVENTS 1)).formSecret dev.helperA dev.helperB
    let img := if s.img.wrote then s.img.stored else image.take s.img.area
    let s := s.modImg (fun i => { i with cache := img })
    match s.sigFault img with
    | some c => s.imageFault c 0
    | none => s.toStage 4

def execImageStage (image : List Byte) (dev : FlashSeen) (s : State) : Answer := .next (imageStage image dev s)

/-- VERIFY_STAGE (R337). -/
def verifyStage (p : ImgPlain) (s : State) : State :=
  if s.img.stage ≠ 4 then s
  else match contentFault s.img.cache p with
    | some f => s.imageFault f.1 f.2
    | none => (s.takeImage s.img.cache p).toStage 5

def execVerifyStage (p : ImgPlain) (s : State) : Answer := .next (verifyStage p s)

/-- FIRMWARE_STAGE. -/
def execFirmwareStage (s : State) : Answer := .next (if s.img.stage = 5 then (s.loadFirmware s.img.cache).toStage 6 else s)

/-- The phase whose records run in a stage. -/
def phaseOf : Nat → Option Nat
  | 6 => some 0 | 7 => some 1 | 8 => some 2 | 0xA => some 3 | _ => none

/-- A record of the stage's phase has not run. -/
def State.recPending (s : State) : Bool := s.img.recs.any (fun r => decide (some r.phase = phaseOf s.img.stage))

/-- What the records so far have written is in force for the work of start-up; what a new-step boundary checks or logs as it takes effect, a
parameter (R192) or an NF_POLICY of 0b11 (R195), waits for one. -/
def State.takeQuiet (s : State) : State :=
  let s := (policyRegs.filter (fun a => decide (a ≠ R.UPD_CTRL) || decide (s.regF R.UPD_CTRL 7 6 ≠ 3))).foldl State.takePol s
  paramRegs.foldl (fun s p => s.when (p.2 (s.reg p.1)) (fun s => s.takePol p.1)) s

/-- A stage ends once its own work and the records of its phase are done. -/
def State.stageDone (s : State) : State :=
  if s.img.worked && !s.recPending && decide (6 ≤ s.img.stage) && decide (s.img.stage ≤ 8) then s.takeQuiet.toStage (s.img.stage + 1) else s

/-- RECORDS_STAGE: the records of phase 0 have run. -/
def recordsStage (s : State) : State :=
  if s.img.stage = 6 ∧ s.recPending = false then (s.modImg (fun i => { i with worked := true })).stageDone else s

def execRecordsStage (s : State) : Answer := .next (recordsStage s)

/-- A failure of start-up's hardware (R330): training of a stack in the HBM stage, a die that does not answer in any stage, the loading of a part
of the image in the FIRMWARE or the HBM stage. -/
def State.startFail (s : State) (f : StartFail) : State := match f with
  | .stack u => if s.img.stage = 7 ∧ s.img.worked = false then s.hardwareFault 0x0A u else s
  | .die d => if 2 ≤ s.img.stage ∧ s.img.stage ≤ 0xA then s.hardwareFault 0x0B d else s
  | .part i => if s.img.stage = 5 ∨ (s.img.stage = 7 ∧ s.img.worked = false) then s.imageFault 7 i else s

/-- HBM_STAGE: training has ended, sections go to HBM, then the records of phase 1 run; `failed` names what fails instead. -/
def hbmStage (failed : Option StartFail) (s : State) : State := match failed with
  | some f => s.startFail f
  | none => if s.img.stage ≠ 7 || s.img.worked then s
    else ((s.loadHbm s.img.cache).modImg (fun i => { i with worked := true })).stageDone

def execHbmStage (failed : Option StartFail) (s : State) : Answer := .next (hbmStage failed s)

/-- LINKS_STAGE: link training has ended; then the records of phase 2 run. -/
def linksStage (s : State) : State :=
  if s.img.stage ≠ 8 || s.img.worked then s else (s.modImg (fun i => { i with worked := true })).stageDone

def execLinksStage (s : State) : Answer := .next (linksStage s)

/-- SWEEP_STAGE (R130 to R132): the end of the sweep, once every array of every die has been treated. -/
def execSweepStage (s : State) : Answer := .next (if s.img.stage = 9 ∧ s.sweptAll then s.sweepEnd.toStage 0xA else s)

/-- FINAL_STAGE: the records of phase 3 have run; the group is formed; READY, `ms` milliseconds after supply good. -/
def finalStage (ms : Nat) (s : State) : State :=
  if s.img.stage = 0xA ∧ s.recPending = false then
    ((s.formGroup.takePolicy.formatsStart.setRegF R.IMG_STATUS 19 8 (min 4095 ms)).modStp (fun x => { x with phase := .idle })).toStage 0xB
  else s

def execFinalStage (ms : Nat) (s : State) : Answer := .next (finalStage ms s)

/-! ### Pushed images -/

/-- A command of IMG_CMD starts, where its state allows it and none runs (R340 to R342). -/
def State.imgCommand (s : State) (rq : Requester) (c : Nat) (ok : Bool) : State :=
  if ok && s.img.cmd.isNone then s.modImg (fun i => { i with cmd := some c, sectors := [], again := false })
  else s.refuseWrite rq R.IMG_CMD (BitVec.ofNat 32 c) 0

def bootPushed (rq : Requester) (s : State) : State := s.imgCommand rq 1 (decide (s.img.stage = 0xC))
def verifyPushed (rq : Requester) (s : State) : State := s.imgCommand rq 2 s.ready
def writeImage (rq : Requester) (s : State) : State := s.imgCommand rq 3 (s.ready || decide (s.img.stage = 0xC))

def execBootPushed (rq : Requester) (s : State) : Answer := .next (bootPushed rq s)
def execVerifyPushed (rq : Requester) (s : State) : Answer := .next (verifyPushed rq s)
def execWriteImage (rq : Requester) (s : State) : Answer := .next (writeImage rq s)

/-- The pushed image. -/
def State.pushedImage (s : State) : List Byte := s.hbm s.pushBase (min (s.reg R.IMG_PUSH_LEN).toNat (2 ^ 27))

/-- A command of R341 ends with a result. -/
def State.flashEnd (s : State) (res : Nat) : State :=
  ((s.modImg (fun i => { i with cmd := none, sectors := [], again := false })).setRegF R.IMG_FLASH_STATUS 7 0 res).event R.IMG_EVENTS 2

/-- The pushed bytes of a 64 KiB sector. -/
def State.sectorBytes (s : State) (i : Nat) : List Byte := (s.pushedImage.drop (65536 * i)).take 65536

/-- A sector of the image area is programmed with the pushed bytes; `again` erases it first. -/
def State.programSector (s : State) (i : Nat) (again : Bool) : State :=
  if 65536 * (i + 1) ≤ s.img.area then
    (s.when again (fun s => s.emit (.imageErase (65536 * i)))).emit (.imageProgram (65536 * i) (s.sectorBytes i))
  else s

/-- Every sector of the image area is erased (R341); the helper areas are not. -/
def State.eraseArea (s : State) : State :=
  ((List.range (s.img.area / 65536)).foldl (fun s i => s.emit (.imageErase (65536 * i))) s).modImg (fun i => { i with wrote := true, flash := [] })

/-- The sectors of an image in the order WRITE_IMAGE programs them.  DEDUCED from R342, by which an image that a power loss leaves incomplete
fails in its header or its signatures: the sector that holds the header is programmed last. -/
def sectorOrder (n : Nat) : List Nat := (List.range n).tail ++ [0]

/-- The first failure of an image under R337. -/
def State.imageCheck (s : State) (img : List Byte) (p : ImgPlain) : Nat := match s.sigFault img with
  | some c => c
  | none => match contentFault img p with
    | some f => f.1
    | none => 0

/-- PUSHED_IMAGE_VERIFIED (R340, R341): a boot goes on from the FIRMWARE stage, a write starts with the first sector. -/
def pushedImageVerified (p : ImgPlain) (s : State) : State :=
  let img := s.pushedImage
  let res := s.imageCheck img p
  match s.img.cmd with
  | some 1 =>
    let s := (s.modImg (fun i => { i with cmd := none })).setRegF R.IMG_FLASH_STATUS 7 0 res
    if res = 0 then
      (((s.modImg (fun i => { i with cache := img, pushed := true })).takeImage img p).when
        (decide (s.img.att.secret = none) && decide (s.img.att.cause = 1)) (fun s => s.attLost 2)).toStage 5
    else s
  | some 2 => s.flashEnd res
  | some 3 =>
    if !s.img.sectors.isEmpty then s
    else if res ≠ 0 then s.flashEnd res
    else if s.img.area < img.length then s.flashEnd (if s.img.cap = 0 then 1 else 3)
    else
      let l := sectorOrder ((img.length + 65535) / 65536)
      (s.eraseArea.modImg (fun i => { i with sectors := l, again := false })).programSector (l.headD 0) false
  | _ => s

def execPushedImageVerified (p : ImgPlain) (s : State) : Answer := .next (pushedImageVerified p s)

/-- SECTOR_PROGRAM (R378): the sector reads back as `back`; where its check value is not that of the pushed bytes, the sector is programmed once
more, and a second mismatch ends the command; both are logged (R386). -/
def sectorProgram (back : List Byte) (s : State) : State := match s.img.sectors with
  | [] => s
  | i :: rest =>
    let s := s.modImg (fun x => { x with flash := SMap.set (fun _ => ([] : List Byte)) x.flash i back })
    if crc32c back = crc32c (s.sectorBytes i) then
      match rest with
      | [] => s.flashEnd 0
      | j :: _ => (s.modImg (fun x => { x with sectors := rest, again := false })).programSector j false
    else if s.img.again then (s.flashEnd 7).log 8 2 2 7 i
    else ((s.modImg (fun x => { x with again := true, flash := SMap.set (fun _ => ([] : List Byte)) x.flash i [] })).log 8 2 0xFF 7 i).programSector
      i true

def execSectorProgram (back : List Byte) (s : State) : Answer := .next (sectorProgram back s)

/-! ### Attestation -/

/-- LEAF_RESERVATION (R346, R347): the other copy is written at most twice; the next 256 leaves are usable once it verifies. -/
def leafReservation (first second : Bool) (s : State) : State :=
  let a := s.img.att
  if a.secret.isNone || decide (a.next < a.limit) || decide (4 ≤ a.cause) then s
  else
    let useA := match leafOf a.leafA, leafOf a.leafB with
      | some x, some y => decide (y.1 ≤ x.1)
      | some _, none => true
      | none, _ => false
    let cur := leafOf (if useA then a.leafA else a.leafB)
    match cur with
    | none => s.attLost 4
    | some c =>
      if 33554432 ≤ c.2 then s.attLost 5
      else
        let new := if first || second then leafRec (c.1 + 1) (c.2 + 256) else []
        let s := s.modImg (fun i => { i with att := if useA then { i.att with leafB := new } else { i.att with leafA := new } })
        if first || second then s.modImg (fun i => { i with att := { i.att with next := c.2, limit := c.2 + 256 } })
        else s.attLost 4

def execLeafReservation (first second : Bool) (s : State) : Answer := .next (leafReservation first second s)

/-- ATTESTATION_KEY_BUILD (R345): the trees are built, the top one under the identifier `treeId`, which the spec does not derive; the public key
must be that of the identity store. -/
def attestationKeyBuild (treeId : List Byte) (s : State) : State := match s.img.att.secret with
  | none => s
  | some sec =>
    if s.ready && decide (s.img.att.cause = 1) then
      if hssPublic sec treeId = sliceB s.img.idStore 0x170 60 then
        s.modImg (fun i => { i with att := { i.att with built := true, treeId := treeId, avail := true, cause := 0 } })
      else s.attLost 3
    else s

def execAttestationKeyBuild (treeId : List Byte) (s : State) : Answer := .next (attestationKeyBuild treeId s)

/-- ATT_REQUEST (R348, R6): the write of IMG_ATT_REQ_HI submits the request block's address. -/
def attRequest (rq : Requester) (v : Word) (s : State) : State :=
  let s := s.hiWrite rq R.IMG_ATT_REQ 0xFFFFFFFF 0xFFFFFFFF v
  if s.img.att.avail && s.img.att.req.isNone then
    s.modImg (fun i => { i with att := { i.att with req := some (s.pair R.IMG_ATT_REQ / 64 * 64) } })
  else s.event R.IMG_EVENTS 4

def execAttRequest (rq : Requester) (v : Word) (s : State) : Answer := .next (attRequest rq v s)

/-- Image-set hash of the newest step record; zero without one. -/
def State.newestHash (s : State) : List Byte :=
  if s.stp.recSeq = 0 then List.replicate 32 0 else hashBytes (s.record (s.reg R.STEP_REC_HEAD).toNat).hash

/-- Bytes 0x000 to 0x0FF of a report. -/
def State.reportBody (s : State) (nonce : List Byte) : List Byte :=
  leBytes 4 1 ++ leBytes 4 5492 ++ nonce ++ leBytes 8 s.img.att.next ++ leBytes 8 s.time ++ leBytes 8 (s.pair R.STEP_COUNT)
    ++ leBytes 4 (s.reg R.STEP_IMG_SEQ).toNat ++ leBytes 4 s.img.serial ++ leBytes 2 s.ezl.pod.id ++ leBytes 1 s.ezl.pod.me
    ++ leBytes 1 s.img.kind ++ leBytes 4 0 ++ sha256 s.img.idStore
    ++ (List.range 8).flatMap (fun k => leBytes 4 (s.reg (R.IMG_HASH k)).toNat)
    ++ sliceB s.img.ownerHash 0 32 ++ s.newestHash ++ List.replicate 48 0

/-- REPORT_SIGNED (R348): the report is written and its leaf is used up. -/
def reportSigned (s : State) : State := match s.img.att.req with
  | none => s
  | some a =>
    if s.img.att.avail && decide (s.img.att.next < s.img.att.limit) then
      let r := s.hbmRead a 32
      let body := s.reportBody r.1
      let s := r.2.1.hbmWrite (a + 64) (body ++ hssSignature (s.img.att.secret.getD []) s.img.att.treeId s.img.att.next body)
      (s.modImg (fun i => { i with att := { i.att with req := none, next := i.att.next + 1 } })).event R.IMG_EVENTS 3
    else s

def execReportSigned (s : State) : Answer := .next (reportSigned s)

end Sys2Proof.Machine
end

