-- ==== Sys2Proof/Machine/Links.lean ====
section
/-! DEFINITION. Meanings of the link commands (R272 to R283): receiving flits, acknowledgements and NAKs, retraining, removal. -/

namespace Sys2Proof.Machine

/-! ### Removal -/

/-- The frames that flits of a replay buffer belong to, one for each frame: a frame begins with its first flit, or, where that is
acknowledged, with the first flit of its type and channel that is left. -/
def replayFrames : List (Nat × Nat) → List Flit → List Frame
  | _, [] => []
  | seen, f :: r =>
    let key := (f.frame.typ, f.frame.stream)
    if f.first || !(seen.contains key) then f.frame :: replayFrames (key :: seen) r else replayFrames seen r

/-- The COMMIT, CONTROL and TRIGGER frames a removed link must send again (R283): those with a flit in the replay buffer, then those
queued and not begun. -/
def LinkSt.toResend (k : LinkSt) : List Frame :=
  let want := fun (f : Frame) => f.typ == 3 || f.typ == 4 || f.typ == 5
  (replayFrames [] k.replay ++ k.queue).filter want

/-- The partner of a link: the one the pod configuration names, which is the one it trains with. -/
def State.partnerOf (s : State) (l : Nat) : Nat := (portPartner s.ezl.pod.size s.me (l % 6)).getD (s.lnk l).peer

/-- A frame left on a removed link to module `m` goes out again: by another link to `m`, or by its route (R283). -/
def State.reroute (m : Nat) (s : State) (f : Frame) : State :=
  if f.dst = 0xFF then
    (match s.upLinkTo m with
     | some l => s.sendOn l f
     | none => if f.typ = 4 then s.holdFrame (some m) f else s)
  else s.sendRouted f

/-- Remove a link (R283): its frames of the resent types move to another UP link to the partner or are routed again, every other frame
is lost, LINK_DOWN goes to the partner, the removal is reported, and a group whose channel used the link aborts. -/
def removeLink (l : Nat) (s : State) : State :=
  let k := s.lnk l
  if k.st = .removed ∨ k.st = .unused then s
  else
    let frames := k.toResend
    let m := s.partnerOf l
    let s := s.setLnk l { k with st := .removed, replay := [], queue := [], cur := [], parts := [], nakOwed := none, nakOut := none }
    let s := frames.foldl (State.reroute m) s
    let s := if m ≠ s.me then s.sendCtrl m 5 { pos := l } else s
    let s := s.eventLog R.EZL_EVENTS 1 0x15 6 0 l
    let used := s.red.formed && (List.range 8).any (fun c =>
      s.regB R.RED_CTRL (8 + c) && ((s.chan c).succLink == l || (s.chan c).predLink == l))
    if used && decide (1 < s.red.n) then s.findAbort 6 l 0xFFFFFFFF 0xFF else s

/-! ### Retraining -/

/-- A frame that is bound to its link: REDUCTION and TIME_SYNC (R424). -/
def Frame.bound (f : Frame) : Bool := decide (f.typ = 2) || decide (f.typ = 6)

/-- Enter RETRAIN: the replay buffer is kept (R280), and so are the frames begun and those bound to the link; routed and flooded frames that
are not begun go by a link that is UP, or wait for one (R424). -/
def enterRetrain (l : Nat) (s : State) : State :=
  let k := s.lnk l
  let s := (s.setLnk l { k with st := .retrain, attempts := 0, retrainTimes := k.retrainTimes ++ [s.time],
                                queue := k.queue.filter Frame.bound }).linkCount (R.EZL_Ll_RETRAIN_CNT l)
  (k.queue.filter (fun f => !f.bound)).foldl (State.reroute (s.partnerOf l)) s

/-- Events of a list of pod times within the last `w` nanoseconds. -/
def State.recent (s : State) (w : Nat) (l : List Nat) : Nat := (l.filter (fun t => decide (s.time < t + w))).length

/-- LINK_SILENCE (R282): no flit for 10 microseconds puts an UP link into RETRAIN. -/
def linkSilence (l : Nat) (s : State) : State := if (s.lnk l).st = .up then enterRetrain l s else s

def execLinkSilence (l : LinkId) (s : State) : Answer := .next (linkSilence l.val s)

/-- RETRAIN_THRESHOLD (R282); the give-up is logged (R386). -/
def retrainThreshold (l : Nat) (s : State) : State :=
  let k := s.lnk l
  if k.st = .up ∧ max 1 (s.regF R.EZL_THRESH 31 24) ≤ s.recent 1000000 k.nakTimes then
    if s.fnHost 12 then s.event R.EZL_EVENTS 10 else (enterRetrain l s).log 0x15 6 0 1 l
  else s

def execRetrainThreshold (l : LinkId) (s : State) : Answer := .next (retrainThreshold l.val s)

/-- REMOVE_THRESHOLD (R282): retrains, protocol NAKs or replays of one flit have reached their limit. -/
def removeThreshold (l : Nat) (s : State) : State :=
  let k := s.lnk l
  let limit := decide (max 1 (s.regF R.EZL_THRESH 23 16) ≤ s.recent 1000000000 k.retrainTimes)
    || decide (max 1 (s.regF R.EZL_THRESH 15 0) ≤ s.recent 1000000000 k.protoTimes)
    || k.replay.any (fun f => decide (64 ≤ f.replays))
  if (k.st = .up ∨ k.st = .retrain) ∧ limit then removeLink l s else s

def execRemoveThreshold (l : LinkId) (s : State) : Answer := .next (removeThreshold l.val s)

/-- Drop from the replay buffer every flit up to an acknowledged sequence number. -/
def dropAcked (a : Nat) (r : List Flit) : List Flit :=
  if r.any (fun f => f.seq == a) then (r.dropWhile (fun f => f.seq != a)).drop 1 else r

/-- Resend every flit of the replay buffer from a sequence number on, in order, and count them. -/
def State.replayFrom (s : State) (l seq : Nat) : State :=
  let k := s.lnk l
  let keep := k.replay.takeWhile (fun f => f.seq != seq)
  let again := (k.replay.dropWhile (fun f => f.seq != seq)).map (fun f => { f with replays := f.replays + 1 })
  let s := s.setLnk l { k with replay := keep ++ again }
  let s := s.incReg (R.EZL_Ll_REPLAY_CNT l) again.length
  again.foldl (fun s f => s.resend l f) s

/-- RETRAIN_ATTEMPT (R280): success brings the link UP and replays from the partner's last acknowledgement; the third failure removes
the link. -/
def retrainAttempt (l : Nat) (ok : Bool) (ack : Nat) (s : State) : State :=
  let k := s.lnk l
  if k.st = .retrain then
    if ok then
      let r := dropAcked ack k.replay
      let s := s.setLnk l { k with st := .up, attempts := 0, replay := r, nakOut := none, nakOwed := none, parts := k.parts }
      let s := s.event R.EZL_EVENTS 0
      let s := match r with
        | [] => s
        | f :: _ => s.replayFrom l f.seq
      (s.pump l).sendWaiting
    else if k.attempts + 1 < 3 then s.setLnk l { k with attempts := k.attempts + 1 }
    else removeLink l s
  else s

def execRetrainAttempt (l : LinkId) (ok : Bool) (partnerAck : Nat) (s : State) : Answer :=
  .next (retrainAttempt l.val ok partnerAck s)

/-- LINK_TRAINING (R280): UP with full credits (R277), DOWN with TRAIN_FAIL, or REMOVED with MISWIRED where the module or the link
at the other end is not the one the pod configuration names (R411). -/
def linkTraining (l : Nat) (r : TrainResult) (s : State) : State :=
  let k := s.lnk l
  if k.st = .training ∧ s.img.stage < 0xC then
    match r with
    | .failed => (s.setLnk l { k with st := .down }).eventLog R.EZL_EVENTS 3 0x15 6 0 l
    | .partner pid m pl =>
      if pid = s.ezl.pod.id ∧ portPartner s.ezl.pod.size s.me (l % 6) = some m ∧ pl = linkPartner l then
        let k := { k with st := .up, peer := m, peerLink := pl, txSeq := 0, rxSeq := 0, replay := [], cur := [], parts := [],
                          credits := classBuffer, rxCred := classBuffer, freed := [0, 0, 0, 0], nakOut := none,
                          nakOwed := none, attempts := 0, unacked := 0, lastRed := none }
        ((s.setLnk l k).pump l).sendWaiting
      else (s.setLnk l { k with st := .removed, peer := m, peerLink := pl }).eventLog R.EZL_EVENTS 2 0x15 6 0 l
  else s

def execLinkTraining (l : LinkId) (r : TrainResult) (s : State) : Answer := .next (linkTraining l.val r s)

/-- A command of EZL_CMD that names no link or a link in the wrong state is ignored and logged (R282). -/
def ezlRefuse (rq : Requester) (cmd l : Nat) (s : State) : State :=
  s.refuseWrite rq R.EZL_CMD (packFields [(28, cmd), (0, l)]) 0

/-- RETRAIN (R282). -/
def cmdRetrain (rq : Requester) (l : Nat) (s : State) : State :=
  if l < 18 ∧ (s.lnk l).st = .up then enterRetrain l s else ezlRefuse rq 1 l s

def execRetrain (rq : Requester) (l : Nat) (s : State) : Answer := .next (cmdRetrain rq l s)

/-- REMOVE (R282). -/
def cmdRemove (rq : Requester) (l : Nat) (s : State) : State := if l < 18 then removeLink l s else ezlRefuse rq 2 l s

def execRemove (rq : Requester) (l : Nat) (s : State) : Answer := .next (cmdRemove rq l s)

/-- RESTORE (R280): training of a removed link starts. -/
def cmdRestore (rq : Requester) (l : Nat) (s : State) : State :=
  if l < 18 then
    let k := s.lnk l
    if k.st = .removed ∧ s.img.stage < 0xC then s.setLnk l { k with st := .training, attempts := 0 } else s
  else ezlRefuse rq 3 l s

def execRestore (rq : Requester) (l : Nat) (s : State) : Answer := .next (cmdRestore rq l s)

/-- LINK_DOWN (R283): the end of the link that the sender names is removed. -/
def linkDown (src l : Nat) (s : State) : State :=
  let s := s.takeRx 3 (fun f => f.src == src && f.startsWith (ctrlBytes 5 { pos := l }))
  match (List.range 18).find? (fun j => decide (portPartner s.ezl.pod.size s.me (j % 6) = some src) && decide (linkPartner j = l)
      && decide ((s.lnk j).st ≠ .removed) && decide ((s.lnk j).st ≠ .unused)) with
  | some j => removeLink j s
  | none => s

def execLinkDown (src l : Nat) (s : State) : Answer := .next (linkDown src l s)

/-! ### Receiving flits -/

/-- The header fields of a received flit (R274). -/
structure FlitHdr where
  typ : Nat
  first : Bool
  last : Bool
  stream : Nat
  src : Nat
  dst : Nat
  seq : Nat
  ack : Nat
  nak : Nat
  credit : Nat
  nakSeq : Nat
  len : Nat
  podId : Nat
  reserved : Bool
deriving DecidableEq, Repr

def parseFlit (b : List Byte) : FlitHdr :=
  let n := fun (o k : Nat) => leAt b o k
  { typ := n 0 1 % 16, first := (n 0 1).testBit 4, last := (n 0 1).testBit 5, stream := n 1 1 % 8, src := n 2 1 % 64, dst := n 3 1,
    seq := n 4 2, ack := n 6 2, nak := n 8 1, credit := n 9 1, nakSeq := n 10 2, len := n 12 2, podId := n 14 2,
    reserved := decide (n 0 1 / 64 ≠ 0) || decide (n 1 1 / 8 ≠ 0) || decide (n 2 1 / 64 ≠ 0)
      || (decide (n 0 1 % 16 ≠ 2) && decide (n 1 1 % 8 ≠ 0)) }

/-- A complete frame that R281 calls MALFORMED: a control operation code (R288), a relay operation (R293) or a trigger class (R372)
that does not exist. -/
def frameBad (typ : Nat) (pay : List Byte) : Bool :=
  let b0 := leAt pay 0 1
  match typ with
  | 3 => decide (b0 = 0) || decide (7 ≤ b0)
  | 5 => let c := leAt pay 10 1; !((decide (1 ≤ c) && decide (c ≤ 4)) || (decide (0x10 ≤ c) && decide (c ≤ 0x17)))
  | 7 => decide (b0 = 0) || decide (5 ≤ b0)
  | _ => false

/-- Send a NAK: recorded, attached to the next flit, which is an IDLE flit sent at once. -/
def State.sendNak (s : State) (l reason seq : Nat) : State :=
  let k := s.lnk l
  let replayable := decide (reason ≤ 2)
  let k' := { k with
    nakOwed := some (reason, seq)
    nakOut := if replayable then some (reason, seq) else k.nakOut
    nakTimes := if replayable then k.nakTimes ++ [s.time] else k.nakTimes
    protoTimes := if replayable then k.protoTimes else k.protoTimes ++ [s.time] }
  let s := s.setLnk l k'
  let s := s.setReg (R.EZL_Ll_LAST_NAK l) (setFld (setFld (s.reg (R.EZL_Ll_LAST_NAK l)) 31 24 reason) 15 0 seq)
  let s := if replayable then s
    else ((s.linkCount (R.EZL_Ll_PROTO_CNT l)).eventLog R.EZL_EVENTS 4 0x15 2 reason l)
  s.sendIdle l

/-- Act on the acknowledgement, the credits and the NAK that a flit carries (R276, R277, R281). -/
def State.flitNews (s : State) (l : Nat) (h : FlitHdr) : State :=
  let k := s.lnk l
  let c := h.credit / 64
  let cr := min (classBuffer.getD c 0) (k.credits.getD c 0 + 4 * (h.credit % 64))
  let s := s.setLnk l { k with replay := dropAcked h.ack k.replay, credits := k.credits.set c cr }
  let s := if h.nak = 0 then s
    else
      let s := s.setRegF (R.EZL_Ll_LAST_NAK l) 23 16 h.nak
      if h.nak ≤ 2 then s.replayFrom l h.nakSeq
      else
        let k := s.lnk l
        let s := s.setLnk l { k with protoTimes := k.protoTimes ++ [s.time] }
        (s.linkCount (R.EZL_Ll_PROTO_CNT l)).eventLog R.EZL_EVENTS 4 0x15 2 h.nak (l + 256)
  s.pump l

/-- Routing through a port would use a REMOVED link: one of its links is removed and no other is UP or trains. -/
def State.portRemoved (s : State) (q : Nat) : Bool :=
  (portLinks q).any (fun l => decide ((s.lnk l).st = .removed))
    && (portLinks q).all (fun l => decide ((s.lnk l).st ≠ .up) && !(s.trains l))

/-- The protocol fault of an accepted flit, if any (R281). -/
def State.flitFault (s : State) (l : Nat) (h : FlitHdr) : Option Nat :=
  let k := s.lnk l
  let part := k.parts.find? (fun p => p.typ == h.typ && p.stream == h.stream)
  let order := match part with
    | some _ => h.first
    | none => !h.first
  if 8 ≤ h.typ then some 3
  else if h.reserved || decide (h.len = 0) || decide (236 < h.len) || order || decide (h.podId ≠ s.ezl.pod.id) then some 4
  else if k.rxCred.getD (frameClass h.typ) 0 = 0 then some 5
  else if h.dst ≠ 0xFF ∧ (podModules s.ezl.pod.size ≤ h.dst
      ∨ (h.dst ≠ s.me ∧ (routePort s.ezl.pod.size s.me h.dst).elim false s.portRemoved)) then some 6
  else none

/-- A whole frame has arrived: for this module or its link partner it waits for its command; otherwise it is routed on (R279). -/
def State.frameDone (s : State) (l : Nat) (f : Frame) : State :=
  if f.dst = 0xFF ∨ f.dst = s.me then s.modEzl (fun e => { e with rxDone := e.rxDone ++ [(l, f)] })
  else s.sendRouted f

/-- A RELAY frame's first flit carries an operation code other than 1 to 4 (R293). -/
def badRelayOp (h : FlitHdr) (pay : List Byte) : Bool :=
  decide (h.typ = 7) && h.first && (decide (leAt pay 0 1 = 0) || decide (4 < leAt pay 0 1))

/-- An in-sequence flit: it is counted as freed, checked, and joined to its frame (R275, R281). -/
def State.flitAccept (s : State) (l : Nat) (h : FlitHdr) (pay : List Byte) : State :=
  let fault := match s.flitFault l h with
    | some c => some c
    | none => if badRelayOp h pay then some 4 else none
  let k := s.lnk l
  let c := frameClass h.typ
  let k := { k with rxSeq := (k.rxSeq + 1) % 65536, nakOut := none, unacked := k.unacked + 1,
                    freed := k.freed.set c (k.freed.getD c 0 + 1), rxCred := k.rxCred.set c (k.rxCred.getD c 0 - 1) }
  let same := fun (p : RxPart) => p.typ == h.typ && p.stream == h.stream
  let others := k.parts.filter (fun p => !same p)
  let dead := (k.parts.find? same).elim false (·.dead)
  match fault with
  | some r =>
    if dead && decide (r = 4) then
      s.setLnk l { k with parts := if h.last then others else k.parts }
    else
      (s.setLnk l { k with parts := if h.last then others
                                    else others ++ [{ typ := h.typ, stream := h.stream, dead := true }] }).sendNak l r h.seq
  | none =>
    if dead then s.setLnk l { k with parts := if h.last then others else k.parts }
    else
      let have_ := ((k.parts.find? same).elim [] (·.bytes)) ++ pay
      if h.last then
        let s := s.setLnk l { k with parts := others }
        if frameBad h.typ have_ then s.sendNak l 4 h.seq
        else s.frameDone l ⟨h.typ, h.stream, h.src, h.dst, have_⟩
      else s.setLnk l { k with parts := others ++ [⟨h.typ, h.stream, h.src, h.dst, have_, false⟩] }

/-- An acknowledgement is owed for 64 received flits: it leaves at once (R276). -/
def State.ackOwed (s : State) (l : Nat) : State := if 64 ≤ (s.lnk l).unacked then s.sendIdle l else s

/-- FLIT_RECEIVE (R276). -/
def flitReceive (l : Nat) (bytes : List Byte) (s : State) : State :=
  let k := s.lnk l
  if k.st ≠ .up then s
  else if crc32c (sliceB bytes 0 252) ≠ leAt bytes 252 4 then
    let s := s.linkCount (R.EZL_Ll_CRC_CNT l)
    if k.nakOut.isSome then s else s.sendNak l 1 k.rxSeq
  else
    let h := parseFlit bytes
    let s := s.flitNews l h
    if h.typ = 0 then s
    else
      let want := (s.lnk l).rxSeq
      if h.seq = want then (s.flitAccept l h (sliceB bytes 16 h.len)).ackOwed l
      else if (want + 65536 - h.seq) % 65536 < 32768 then s.sendIdle l
      else if (s.lnk l).nakOut.isSome then s
      else s.sendNak l 2 want

def execFlitReceive (l : LinkId) (bytes : List Byte) (s : State) : Answer := .next (flitReceive l.val bytes s)

/-- IDLE_FLIT_TIMER (R276): an UP link with nothing else to send sends an IDLE flit. -/
def execIdleFlitTimer (l : LinkId) (s : State) : Answer :=
  .next (if (s.lnk l.val).st = .up then s.sendIdle l.val else s)

/-- NAK_REPEAT (R276): the NAK is sent again; it counts again (R282). -/
def nakRepeat (l : Nat) (s : State) : State :=
  match (s.lnk l).st, (s.lnk l).nakOut with
  | .up, some (r, q) => s.sendNak l r q
  | _, _ => s

def execNakRepeat (l : LinkId) (s : State) : Answer := .next (nakRepeat l.val s)

end Sys2Proof.Machine
end

