-- ==== Sys2Proof/Machine/Snapshot.lean ====
section
/-! DEFINITION. Snapshot capture (R368 to R376, R403, R404): triggers, captures, state words, draining. -/

namespace Sys2Proof.Machine

/-! ### State words (R403) -/

/-- The measurement table in the order of its state words. -/
def measOrder : List (Nat × Nat) := (List.range 16).flatMap (fun ch => (List.range (posCount ch)).map (fun p => (ch, p)))

def State.wordHif (s : State) (off : Nat) : Option Word := if 0x100 ≤ off ∧ off < 0x200 then some (s.queueStatus ((off - 0x100) / 4)) else none

def State.wordIrq (s : State) (d off : Nat) : Option Word :=
  if 0x500 ≤ off ∧ off < 0x580 then
    let h := (s.irqD d).holdOf ((off - 0x500) / 4)
    some (wordN (if h.run then h.us - (s.time - h.since) / 1000 else 0))
  else none

def State.wordPwr (s : State) (off : Nat) : Option Word :=
  if 0x200 ≤ off ∧ off < 0x2F0 then
    let m := measOrder.getD ((off - 0x200) / 4) (0, 0)
    some (s.pwr.measWord m.1 m.2)
  else if off = 0x300 then some (wordN s.pwr.pcap)
  else if 0x304 ≤ off ∧ off < 0x344 then some (wordN (SMap.get (fun _ => 768) s.pwr.tcap ((off - 0x304) / 4)))
  else match off with
    | 0x344 => some (wordN (SMap.get (fun _ => 16) s.pwr.tduty 0))
    | 0x348 => some (wordN (SMap.get (fun _ => 16) s.pwr.tduty 1))
    | 0x34C => some (wordN s.pwr.calm)
    | 0x400 => some (wordN s.pwr.smbCmd)
    | 0x404 => some (wordN s.pwr.smbByte)
    | 0x408 => some (wordN s.pwr.smbPec)
    | 0x40C => some (wordN s.pwr.smbRel)
    | _ => none

def State.wordDuty (s : State) (off : Nat) : Option Word := match off with
  | 0x300 => some (halfOf s.stepNum false)
  | 0x304 => some (halfOf s.stepNum true)
  | 0x308 => some (packFields [(24, s.stp.attempt), (2, s.stp.abort.isSome.toNat), (1, s.stp.skipVote.toNat),
                               (0, (s.regB R.STEP_CTRL 8).toNat)])
  | 0x30C => some s.dutyPending
  | 0x310 => some (s.reg R.RED_EPOCH)
  | _ => none

def State.wordTsk (s : State) (d off : Nat) : Option Word :=
  if d = 0 ∧ 0x200 ≤ off ∧ off < 0x210 then
    let i := off - 0x200
    let g := fun n => (s.tsk.launchQ.map (·.graph)).getD (i + n) 0
    some (packFields [(0, g 0), (8, g 1), (16, g 2), (24, g 3)])
  else if off = 0x210 then some (wordN (s.tsk.streamer.elim 0 (·.next)))
  else if off = 0x214 then
    some (match s.oldestWaiting d with
      | none => 0
      | some (sl, t) => packFields [(16, sl), (0, (s.openWait t).elim 0 (·.counter))])
  else none

def State.wordVec (s : State) (d off : Nat) : Option Word :=
  if 0x100 ≤ off ∧ off < 0x200 then
    let u := s.unit (d * 32 + (off - 0x100) / 8)
    some (if off % 8 = 0 then u.stateWord else u.flagWord)
  else none

def State.wordMxe (s : State) (d off : Nat) : Option Word := if 0x100 ≤ off ∧ off < 0x300 then some (s.coreWord d ((off - 0x100) / 4)) else none

/-- The projection element index of a die: elements of the pass taken since it started, at 256 per DCLK cycle of 1.9 GHz (R198). DEDUCED: it
counts over the entries of the pass, and reads 0 while none runs. -/
def State.projIndex (s : State) (d : Nat) : Nat := match (s.updD d).proj with
  | some r => min (((s.upd.table.filter (fun e => decide (e.die = d) && decide (e.mat ≠ 0xFFFF))).map (fun e => e.rows * e.cols)).sum)
      ((s.time - r.start) * 19 / 10 * 256)
  | none => 0

def State.wordUpd (s : State) (d off : Nat) : Option Word :=
  let u := s.updD d
  match off with
  | 0x200 => some (wordN u.inbuf.length)
  | 0x204 => some (wordN (u.inbuf.head?.elim 0 (·.ent)))
  | 0x208 => some (wordN (u.inbuf.head?.elim 0 (·.blk)))
  | 0x20C => some (wordN (s.projIndex d))
  | 0x210 => if d = 1 then some (s.updStatus 1) else none
  | _ => none

def State.wordRed (s : State) (off : Nat) : Option Word :=
  if 0x200 ≤ off ∧ off < 0x280 then
    let x := s.chan ((off - 0x200) / 0x10)
    match off % 0x10 with
    | 0x0 => some (wordN ((x.waiting.map (2 ^ ·)).sum))
    | 0x4 => some (wordN x.sendPt)
    | 0x8 => some (wordN (x.bucket x.deliverPt).chunks.length)
    | _ =>
      let t := x.flight.filterMap (·.opened)
      some (wordN (if t.isEmpty then 0 else (s.time - t.foldl min s.time) / 1000))
  else none

def State.wordMem (s : State) (d off : Nat) : Option Word :=
  if 0x200 ≤ off ∧ off < 0x300 then
    some (match SMap.get (fun _ => none) s.mem.pf (d * 64 + (off - 0x200) / 4) with
      | some x => packFields [(31, 1), (0, x.resident * 256 / 1024)]
      | none => 0)
  else none

def State.wordEzl (s : State) (off : Nat) : Option Word :=
  if 0x600 ≤ off ∧ off < 0x690 then
    let k := s.lnk ((off - 0x600) / 8)
    some (if off % 8 = 0 then packFields [(16, k.txSeq), (0, k.rxSeq)]
      else packFields ((List.range 4).map (fun c => (8 * c, min 255 (k.credits.getD c 0 / 4)))))
  else none

def State.wordArr (s : State) (k off : Nat) : Option Word :=
  let d := s.kao k
  if 0x200 ≤ off ∧ off < 0x228 then
    let i := (off - 0x200) / 4 * 10
    some (packFields ((List.range 10).map (fun j => (3 * j, if i + j < 96 then (s.tile k (i + j)).spare.code else 0))))
  else if off = 0x240 then some (packFields [(0, d.bankSel.toNat), (1, d.held.isSome.toNat)])
  else if off = 0x244 then
    some (match d.queue.head? with
      | some q => packFields [(16, q.mat), (0, min 65535 ((s.time - q.born) * 8 / 5))]
      | none => 0)
  else none

/-- A state word of a block. -/
def State.stateWord (s : State) (b : Blk) (off : Nat) : Option Word := match b with
  | .hif => s.wordHif off
  | .irq d => s.wordIrq d off
  | .pwr => s.wordPwr off
  | .duty => s.wordDuty off
  | .tsk d => s.wordTsk d off
  | .vec d => s.wordVec d off
  | .mxe d => s.wordMxe d off
  | .upd d => s.wordUpd d off
  | .red => s.wordRed off
  | .mem d => s.wordMem d off
  | .ezl => s.wordEzl off
  | .arr k => s.wordArr k off
  | _ => none

/-- The snapshot ranges of R403 in ascending address: block code, first address, words. -/
def snapRangesLow : List (Nat × Nat × Nat) :=
  [(0x00, 0x1000, 1), (0x01, 0x10000, 128), (0x02, 0x20000, 352), (0x03, 0x28000, 352), (0x04, 0x30000, 212), (0x16, 0x30400, 4),
   (0x05, 0x40000, 14), (0x06, 0x50000, 192), (0x07, 0x60000, 7), (0x08, 0x80000, 72), (0x0A, 0x100000, 192), (0x0B, 0x108100, 128),
   (0x0C, 0x120000, 128), (0x0D, 0x128000, 128), (0x0E, 0x140000, 192), (0x0F, 0x148000, 192), (0x10, 0x160000, 132), (0x11, 0x168100, 69)]
def snapRangesHigh : List (Nat × Nat × Nat) :=
  [(0x12, 0x180000, 160), (0x13, 0x1A0000, 192), (0x14, 0x1A8100, 128), (0x15, 0x1C0000, 420)].append
    (((List.range 16).map (fun n => (0x20 + n, 0x200000 + n * 0x10000, 192))).append [(0x09, 0x300000, 208)])
def snapRanges : List (Nat × Nat × Nat) := snapRangesLow.append snapRangesHigh

/-- The codes in ascending order, with their ranges: the order of the records (R375). -/
def snapOrder : List (Nat × Nat × Nat) := (List.range 0x30).filterMap (fun c => snapRanges.find? (fun r => r.1 == c))

/-- What a capture latches at an address of a snapshot range. -/
def State.snapWord (s : State) (a : Nat) : Word := match locate a with
  | some (b, off) => (s.stateWord b off).getD (s.view a)
  | none => 0

/-- Every nonzero word of every range, by address. -/
def State.snapAll (s : State) : SMap Word :=
  snapRanges.flatMap (fun r => (List.range r.2.2).filterMap (fun i =>
    let w := s.snapWord (r.2.1 + 4 * i)
    if w = 0 then none else some (r.2.1 + 4 * i, w)))

/-- A read of the snapshot window at offset `a` from its start: the view bank (R370). -/
def State.snapRead (s : State) (a : Nat) : Word := SMap.get (fun _ => 0) (s.bank s.snp.view).words a

/-! ### Triggers and captures -/

/-- SNP_TRIG_FIRE (R371). -/
def snpTrigFire (rq : Requester) (v : Word) (s : State) : State :=
  if bitOf v 0 then
    let fl := bitOf v 2
    s.raiseTrig (if rq = .host then 0x01 else 0x02) (if bitOf v 1 then s.time + s.leadOf fl else s.pair R.SNP_TRIG_T) fl
  else s

def execSnpTrigFire (rq : Requester) (v : Word) (s : State) : Answer := .next (snpTrigFire rq v s)

/-- CAPT_IN (R371): a rising edge, stamped at `edge`. -/
def execCaptIn (edge : Nat) (s : State) : Answer :=
  let fl := s.regB R.SNP_CTRL 1
  .next (s.raiseTrig 0x03 (edge + s.leadOf fl) fl)

def State.setBank (s : State) (b : Nat) (x : Bank) : State := s.modSnp (fun p => { p with banks := SMap.set (fun _ => ({} : Bank)) p.banks b x })

/-- The bank of the next capture cannot take it (R369, R370). -/
def State.bankTaken (s : State) (b : Nat) : Bool := (s.bank b).busy || (s.regB R.SNP_CTRL 4 && decide (s.snp.view = b))

/-- Ring size in bytes (R375). -/
def State.snpRing (s : State) : Nat := s.regF R.SNP_RING_SIZE 15 0 * 2 ^ 20

/-- Latch bound of a block after T in quarter ns (R367).  Housekeeping (PWR_, HKA_ and the SMBus target) runs at HCLK, IRQ_ at KCLK, ARR_ at ACLK
and EZL_ at LCLK; the blocks of the Damask dies at DCLK.  DEDUCED: HIF_ takes PCLK's bound and MEM_ MCLK's; ID_ and IMG_, whose domain the
spec does not name, take the widest one. -/
def latchBound (code : Nat) : Nat :=
  if code = 0 ∨ code = 4 ∨ code = 8 ∨ code = 0x16 then 48
  else if 1 ≤ code ∧ code ≤ 3 then 12
  else if code = 0x13 ∨ code = 0x14 then 11
  else 10

/-- The latch edges of the blocks in record order, each at or after `t` and within its bound (R368). -/
def latchEdges (t : Nat) (lat : List Nat) : List Nat :=
  snapOrder.zipIdx.map (fun p => max (4 * t) (min (4 * t + latchBound p.1.1) (lat.getD p.2 (4 * t))))

/-- CAPTURE (R368, R369, R374): the oldest trigger whose T has come; `lat` gives each block's latch edge in quarter ns. With EN 0 nothing is
captured (R373). -/
def capture (lat : List Nat) (s : State) : State := match s.snp.queue with
  | [] => s
  | t :: rest =>
    if s.regB R.SNP_CTRL 0 = false ∨ s.time < t.t then s
    else
      let k := (s.reg R.SNP_SEQ).toNat
      let b := k % 2
      let words := s.snapAll
      let s := (s.modSnp (fun p => { p with queue := rest })).setRegN R.SNP_SEQ ((k + 1) % 2 ^ 32)
      if s.bankTaken b then (s.incReg R.SNP_MISS_CNT 1).eventLog R.SNP_EVENTS 1 5 1 0 k
      else
        let edges := latchEdges (if t.late then s.time else t.t) lat
        let s := s.setBank b { busy := decide (0 < s.snpRing), latched := true, trig := t, lat := edges, seq := k, words := words }
        let s := s.modSnp (fun p => if s.regB R.SNP_CTRL 4 then p else { p with view := b })
        s.modSnp (fun p => { p with captOut := p.captOut || s.regB R.SNP_CTRL 3 })

def execCapture (lat : List Nat) (s : State) : Answer := .next (capture lat s)

/-- The bank of the newest capture that every block has latched. -/
def State.newestBank (s : State) : Nat :=
  if (s.bank 1).latched && (!(s.bank 0).latched || decide ((s.bank 0).seq < (s.bank 1).seq)) then 1 else 0

/-- Once HOLD_VIEW is clear, the view bank is that of the newest capture again (R370). -/
def State.freeView (s : State) : State := if s.regB R.SNP_CTRL 4 then s else s.modSnp (fun p => { p with view := s.newestBank })

/-- While SNP_CTRL.EN is 0, triggers are dropped without an entry and CAPT_OUT is low (R373). -/
def State.snpOff (s : State) : State := if s.regB R.SNP_CTRL 0 then s else s.modSnp (fun p => { p with queue := [], captOut := false })

/-- CAPT_OUT_PULSE_END (R374). -/
def execCaptOutPulseEnd (s : State) : Answer := .next (s.modSnp (fun p => { p with captOut := false }))

/-! ### Draining (R375, R376) -/

/-- Length of the record of a block of `n` words. -/
def snapLen (n : Nat) : Nat := (64 + 4 * n + 4 + 63) / 64 * 64

/-- The record of block `r`, the `i`th of the capture; `last` marks the last one. -/
def State.snapRecord (s : State) (x : Bank) (b i : Nat) (r : Nat × Nat × Nat) (last : Bool) : List Byte :=
  let len := snapLen r.2.2
  let t := x.trig
  let flags := t.late.toNat + 2 * t.merged.toNat + 4 * last.toNat + 8 * (decide (t.origin ≠ s.me)).toNat
  let head := leBytes 4 len ++ leBytes 4 x.seq ++ leBytes 8 t.t ++ leBytes 8 (x.lat.getD i (4 * t.t))
    ++ [byteOf r.1, byteOf t.cls, byteOf flags, byteOf t.origin, byteOf t.num, byteOf b] ++ leBytes 2 i
    ++ leBytes 4 r.2.1 ++ leBytes 4 r.2.2 ++ List.replicate 24 0
  let words := (List.range r.2.2).flatMap (fun j => leBytes 4 (SMap.get (fun _ => (0 : Word)) x.words (r.2.1 + 4 * j)).toNat)
  let body := padTo (len - 4) (head ++ words)
  body ++ leBytes 4 (crc32c body)

/-- Every record of a capture, in order. -/
def State.snapRecords (s : State) (x : Bank) (b : Nat) : List Byte :=
  (List.range snapOrder.length).flatMap (fun i => s.snapRecord x b i (snapOrder.getD i (0, 0, 0)) (decide (i + 1 = snapOrder.length)))

/-- Write bytes into the snapshot ring from offset `o`, wrapping at its end. -/
def State.ringWrite (s : State) (o : Nat) (bs : List Byte) : State :=
  let base := s.pair R.SNP_RING_BASE / 2 ^ 20 * 2 ^ 20
  let fit := s.snpRing - o
  (s.hbmWrite (base + o) (bs.take fit)).hbmWrite base (bs.drop fit)

/-- The latched bank that drains next: that of the older capture. -/
def State.drainNext (s : State) : Option Nat :=
  let due := fun b => (s.bank b).busy && (s.bank b).latched
  match due 0, due 1 with
  | true, true => some (if (s.bank 0).seq ≤ (s.bank 1).seq then 0 else 1)
  | true, false => some 0
  | false, true => some 1
  | false, false => none

/-- DRAIN (R375). -/
def drain (s : State) : State := match s.drainNext with
  | none => s
  | some b =>
    let x := s.bank b
    let recs := s.snapRecords x b
    let size := s.snpRing
    let wr := (s.reg R.SNP_RING_WR).toNat
    let room := ((s.reg R.SNP_RING_RD).toNat + 2 * size - wr - 1) % size
    let s := s.setBank b { x with busy := false }
    if size = 0 ∨ room < recs.length then (s.event R.SNP_EVENTS 3).incReg R.SNP_MISS_CNT 1
    else ((s.ringWrite wr recs).setRegN R.SNP_RING_WR ((wr + recs.length) % size)).event R.SNP_EVENTS 0

def execDrain (s : State) : Answer := .next (drain s)

/-- SNP_RING_SIZE_WRITE (R375). -/
def snpRingSizeWrite (rq : Requester) (v : Word) (s : State) : State :=
  if s.draining then s.refuseWrite rq R.SNP_RING_SIZE v 0
  else ((s.setRegF R.SNP_RING_SIZE 15 0 (fld v 15 0)).setRegN R.SNP_RING_WR 0).setRegN R.SNP_RING_RD 0

def execSnpRingSizeWrite (rq : Requester) (v : Word) (s : State) : Answer := .next (snpRingSizeWrite rq v s)

end Sys2Proof.Machine
end

