-- ==== Sys2Proof/Machine/UpdOps.lean ====
section
/-! DEFINITION. The arithmetic of the update unit: one element (R186, R188, R195), the remainder of a block (R194), a block under the
non-finite policy (R195, R196, R423), and one projected weight (R199, R201). -/

namespace Sys2Proof.Machine

/-! ### One element (R186, R188, R195) -/

/-- What an element's update gives: new master weight and moments, the carried error, and whether the element is non-finite. -/
structure ElemRes where
  w : Word := 0
  m : Word := 0
  v : Word := 0
  e : Word := 0
  bad : Bool := false

def f32Finite (w : Word) : Bool := (f32 w).isFinite
def f32Neg (w : Word) : Word := toF32 (f32 w).neg

/-- The decoded remainder r * 2^(Rold - 127); a code of -128 or a scale byte of 0xFF reads 0 (R194). -/
def remDecode (code : Byte) (scale : Nat) : Word :=
  if code.toNat = 128 ∨ scale = 255 then 0 else toF32 ((XNum.ofInt (sext 8 code.toNat)).scale ((scale : Int) - 127))

/-- The error of the sum of two words, exact (R188). -/
def twoSumErr (a b : Word) : Word := toF32 (((f32 a).add (f32 b)).sub (f32 (f32Add a b)))

/-- The equations of R188, in their order; an unused moment is written as zero (R189). -/
def updElem (s : State) (e : StateEnt) (k : StepConst) (g w m v rdec : Word) : ElemRes :=
  let b1 := s.pol R.UPD_BETA1
  let b2 := s.pol R.UPD_BETA2
  let m' := if e.alg = 2 then 0 else f32Fma b1 (f32Sub m g) g
  let q := f32Mul g g
  let v' := if e.alg = 0 then f32Fma b2 (f32Sub v q) q else 0
  let y := match e.alg with
    | 0 => f32Div (f32Mul m' k.a1) (f32Fma (f32Sqrt v') k.a2 (s.pol R.UPD_KAPPA))
    | 1 => f32Mul m' k.a1
    | _ => g
  let y := if e.decay then f32Fma (s.pol R.UPD_DECAY) w y else y
  let u := f32Add (f32Neg (f32Mul k.alpha y)) rdec
  let w' := f32Add w u
  let bad := !(f32Finite g) || !(f32Finite w) || !(f32Finite w') || (decide (e.alg ≠ 2) && !(f32Finite m && f32Finite m'))
    || (decide (e.alg = 0) && !(f32Finite v && f32Finite v'))
  { w := w', m := m', v := v', e := if bad then 0 else twoSumErr w u, bad := bad }

/-! ### The remainder of a block (R194) -/

/-- The block exponent R before it is held at -127, and as used. -/
def remExp (a : XNum) : Int := smallestExp a (127, 0)

/-- Scale byte, codes and underflows of a block's errors; positions outside the tensor carry 0. -/
def remEncode (rnd : Nat → Rnd) (es : List Word) : Nat × List Int × Nat :=
  let a := maxFinite (es.map f32)
  if a.isZero then (0, es.map (fun _ => 0), 0)
  else
    let r := max (-127) (remExp a)
    let codes := es.zipIdx.map (fun p => XNum.roundInt (rnd p.2) ((f32 p.1).scale (-r)))
    let lost := if remExp a < -127 then ((es.zip codes).filter (fun p => !(f32 p.1).isZero && decide (p.2 = 0))).length else 0
    ((r + 127).toNat, codes, lost)

/-! ### A block (R184, R195, R196, R423) -/

/-- A word of an entry's state in a copy. -/
def CopyMem.word (c : CopyMem) (o : Nat) : Word := BitVec.ofNat 32 (ofLe (c.read o 4))

/-- The gradient of an element after the multiplier (R186). -/
def State.gradOf (s : State) (r : BlockRec) (i : Nat) : Word := f32Mul (recElem r i) (s.pol R.UPD_GRAD_MULT)

/-- The positions of a block that lie in the tensor. -/
def StateEnt.posIn (e : StateEnt) (blk : Nat) : List Nat := (List.range 1024).filter (e.inside blk)

/-- The row-major index of an element in its tensor. -/
def StateEnt.elemIndex (e : StateEnt) (blk el : Nat) : Nat :=
  (e.first + blk / e.bcols * 32 + el / 32) * e.cols + (blk % e.bcols * 32 + el % 32)

/-- The results of a block's elements under the skip-element choice: position, result, decoded remainder. -/
def State.blockElems (s : State) (base : Nat) (e : StateEnt) (k : StepConst) (x : BlkIn) : List (Nat × ElemRes × Word) :=
  let c := s.committed
  let sc := (c.byte (base + e.partOff 4 x.blk 0)).toNat
  (e.posIn x.blk).map (fun i =>
    let rd := remDecode (c.byte (base + e.partOff 3 x.blk i)) sc
    (i, updElem s e k (s.gradOf x.body i) (c.word (base + e.partOff 0 x.blk i)) (c.word (base + e.partOff 1 x.blk i))
      (c.word (base + e.partOff 2 x.blk i)) rd, rd))

/-- Elements whose remainder in the committed copy decodes as 0 because of its code or its block's scale byte (R194). -/
def State.badRem (s : State) (base : Nat) (e : StateEnt) (x : BlkIn) : Nat :=
  let c := s.committed
  if (c.byte (base + e.partOff 4 x.blk 0)).toNat = 255 then (e.posIn x.blk).length
  else ((e.posIn x.blk).filter (fun i => decide ((c.byte (base + e.partOff 3 x.blk i)).toNat = 128))).length

/-- Write bytes to the write copy. -/
def State.writeNew (s : State) (o : Nat) (bs : List Byte) : State :=
  s.modMem (fun m => m.setCopy (!s.stp.copySel) ((m.copy (!s.stp.copySel)).write o bs))

/-- A word part of a block: the values by position, zero outside the tensor. -/
def partBytes (f : Nat → Option Word) : List Byte := (List.range 1024).flatMap (fun i => leBytes 4 ((f i).getD 0).toNat)

/-- Write a block: master weights, moments, remainder codes, scale byte. -/
def State.writeBlock (s : State) (base : Nat) (e : StateEnt) (blk : Nat) (w m v : Nat → Option Word) (r : Nat → Option Byte) (sc : Nat) :
    State :=
  let s := s.writeNew (base + e.partOff 0 blk 0) (partBytes w)
  let s := s.writeNew (base + e.partOff 1 blk 0) (partBytes m)
  let s := s.writeNew (base + e.partOff 2 blk 0) (partBytes v)
  let s := s.writeNew (base + e.partOff 3 blk 0) ((List.range 1024).map (fun i => (r i).getD 0))
  s.writeNew (base + e.partOff 4 blk 0) [byteOf sc]

/-- The value at a position of a list of positions. -/
def atPos (l : List (Nat × α)) (i : Nat) : Option α := (l.find? (fun p => p.1 == i)).map (·.2)

/-- A block written with its results, the elements marked bad with their committed values (skip element). -/
def State.storeBlock (s : State) (d : Nat) (base : Nat) (e : StateEnt) (x : BlkIn) (l : List (Nat × ElemRes × Word)) : State :=
  let c := s.committed
  let old := fun (part i : Nat) => c.word (base + e.partOff part x.blk i)
  let w := l.map (fun p => (p.1, if p.2.1.bad then old 0 p.1 else p.2.1.w))
  let m := l.map (fun p => (p.1, if p.2.1.bad && decide (e.alg ≠ 2) then old 1 p.1 else p.2.1.m))
  let v := l.map (fun p => (p.1, if p.2.1.bad && decide (e.alg = 0) then old 2 p.1 else p.2.1.v))
  let es := (List.range 1024).map (fun i => match atPos l i with
    | some q => if q.1.bad then q.2 else q.1.e
    | none => 0)
  let fe := s.fmt.view.find e.rem
  let r := remEncode (fun i => s.rndOf fe (e.elemIndex x.blk i)) es
  let s := s.writeBlock base e x.blk (atPos w) (fun i => if e.alg = 2 then none else atPos m i) (fun i => if e.alg = 0 then atPos v i else none)
    (fun i => some (byteOf (toTwos 8 (r.2.1.getD i 0)))) r.1
  (s.incReg (R.UPD_REM_UFL_CNT d) r.2.2).incPair (R.UPD_ELEM_CNT d) l.length

/-- A block written with its committed values (skip block). -/
def State.keepBlock (s : State) (d : Nat) (base : Nat) (e : StateEnt) (x : BlkIn) : State :=
  let c := s.committed
  let at_ := fun (part i : Nat) => if e.inside x.blk i then some (c.word (base + e.partOff part x.blk i)) else none
  let s := s.writeBlock base e x.blk (at_ 0) (fun i => if e.alg = 2 then none else at_ 1 i) (fun i => if e.alg = 0 then at_ 2 i else none)
    (fun i => if e.inside x.blk i then some (c.byte (base + e.partOff 3 x.blk i)) else none) (c.byte (base + e.partOff 4 x.blk 0)).toNat
  s.incPair (R.UPD_ELEM_CNT d) (e.posIn x.blk).length

/-- The non-finite policy in force: 1 skip block, 2 skip element, anything else skip step (R195). -/
def State.nfPolicy (s : State) : Nat := s.polF R.UPD_CTRL 7 6

/-- The unit writes no further block of the attempt and will vote SKIP. -/
def State.stopUpdates (s : State) (d : Nat) : State := s.setUpd d { s.updD d with stopped := true, skip := true }

/-- A block after writing has stopped is counted by its gradients alone (R423). -/
def State.countBlock (s : State) (d : Nat) (e : StateEnt) (x : BlkIn) : State :=
  let n := ((e.posIn x.blk).filter (fun i => !(f32Finite (s.gradOf x.body i)))).length
  if n = 0 then s
  else
    let s := s.event R.UPD_EVENTS 3
    if s.nfPolicy = 1 then (s.incReg (R.UPD_NF_BLOCK_CNT d) 1).incReg (R.UPD_NF_ELEM_CNT d) 1024
    else s.incReg (R.UPD_NF_ELEM_CNT d) n

/-- `n` more elements are handled under the policy; true where they exceed the limit (R196). -/
def State.overLimit (s : State) (d n : Nat) : Bool :=
  let lim := (s.pol R.UPD_NF_LIMIT).toNat
  decide (lim ≠ 0) && decide (lim < (s.updD d).nf + n)

/-- A block with non-finite elements under the policy. -/
def State.badBlock (s : State) (d base : Nat) (e : StateEnt) (x : BlkIn) (l : List (Nat × ElemRes × Word)) : State :=
  let n := (l.filter (fun p => p.2.1.bad)).length
  let s := s.event R.UPD_EVENTS 3
  let h := if s.nfPolicy = 1 then 1024 else n
  let s' := (s.incReg (R.UPD_NF_ELEM_CNT d) h).when (decide (s.nfPolicy = 1)) (fun s => s.incReg (R.UPD_NF_BLOCK_CNT d) 1)
  if s.nfPolicy = 1 ∨ s.nfPolicy = 2 then
    let s'' := s'.setUpd d { s'.updD d with nf := (s'.updD d).nf + h }
    if s'.overLimit d h then (s''.event R.UPD_EVENTS 5).stopUpdates d
    else if s.nfPolicy = 1 then s''.keepBlock d base e x
    else s''.storeBlock d base e x l
  else s'.stopUpdates d

/-- The update of one block that is read (R188, R194, R195). -/
def State.updateBlock (s : State) (d base : Nat) (e : StateEnt) (k : StepConst) (x : BlkIn) : State :=
  let l := s.blockElems base e k x
  let z := s.badRem base e x
  let s := if z = 0 then s else (s.incReg (R.UPD_NF_ELEM_CNT d) z).log (0x10 + d) 3 0xFF 0 (e.tensor + x.blk * 2 ^ 32)
  if l.any (fun p => p.2.1.bad) then s.badBlock d base e x l else s.storeBlock d base e x l

/-! ### One projected weight (R199, R201) -/

/-- The code of a weight; `thr` is none where the scale was chosen anew (no hysteresis). True where the weight is not finite. -/
def projCode (thr : Option Word) (w s : Word) (old : Int) : Int × Bool :=
  let x := f32 (f32Div w s)
  if !(f32Finite w) then (old, true)
  else match x with
    | .nan => (old, false)
    | .inf n => (if n then -15 else 15, false)
    | .fin _ _ _ =>
      let near := match thr with
        | some t => XNum.le (XNum.sub x (XNum.ofInt old)).abs (f32 t)
        | none => false
      (if near then old else clampInt (-15) 15 (XNum.roundInt .rne x), false)

/-- The smallest FP32 value at least the quotient of two non-negative words. -/
def f32DivUp (a b : Word) : Word :=
  let q := f32Div a b
  if XNum.lt ((f32 q).mul (f32 b)) (f32 a) then BitVec.ofNat 32 (q.toNat + 1) else q

/-- The smallest normal FP16 value that is at least a non-negative FP32 value, at most 65,504; true where it was limited. -/
def scaleOf (x : Word) : Nat × Bool :=
  let c := toFp16 (f32 x)
  let c := if XNum.lt (fp16 c) (f32 x) then c + 1 else c
  if 0x7C00 ≤ c then (0x7BFF, true) else (max 0x0400 c, false)

/-- 14.5 in FP32. -/
def f32FourteenHalf : Word := 0x41680000

/-- The scale that R201 chooses for a column of finite weights. -/
def newScale (old : Nat) (ws : List Word) : Nat × Bool :=
  let a := maxFinite (ws.map f32)
  if a.isZero then (old, false) else scaleOf (f32DivUp (toF32 a) f32FourteenHalf)

end Sys2Proof.Machine
end

