-- ==== Sys2Proof/Machine/Update.lean ====
section
/-! DEFINITION. Meanings of the update unit's commands: blocks (R183 to R185, R188), projection (R198 to R202), step size and schedule
table (R190, R191). -/

namespace Sys2Proof.Machine

/-! ### Blocks -/

/-- The lowest channel of a die that offers a block: its bucket at the deliver point is being delivered. -/
def State.offering (s : State) (d : Nat) : Option (Nat × BucketEnt × BucketSt) :=
  [4 * d, 4 * d + 1, 4 * d + 2, 4 * d + 3].findSome? (fun c =>
    let q := (s.chan c).deliverPt
    let x := (s.chan c).bucket q
    match s.red.bucketEnt c q with
    | some b => if x.delivering && decide (x.taken < s.bucketLen b q) then some (c, b, x) else none
    | none => none)

/-- The unit may accept blocks: it is enabled and no projection pass runs or waits (R198). -/
def State.accepting (s : State) (d : Nat) : Bool :=
  s.regB R.UPD_CTRL 0 && decide ((s.updD d).inbuf.length < 64) && (s.updD d).proj.isNone && (s.updD d).projWait.isEmpty

/-- The state-table entry of a bucket-table entry, with its number. -/
def UpdSt.entryFor (u : UpdSt) (b : BucketEnt) : Option (Nat × StateEnt) :=
  match u.table.findIdx? (fun e => e.grad == b.tensor && e.first == b.row) with
  | some i => (u.table[i]?).map (fun e => (i, e))
  | none => none

/-- A delivered bucket leaves the channel; it counts as reduced (R219). -/
def State.bucketTaken (s : State) (c seq : Nat) : State :=
  let s := s.setChan c { (s.chan c).dropBucket seq with deliverPt := (s.chan c).deliverPt + 1 }
  (s.incPair (R.RED_CHk_BUCKETS c) 1).modCnt (fun k => { k with buckets := k.buckets + 1 })

/-- BLOCK_ACCEPT (R183): the lowest channel with a block gives it; a block beyond the grid of its tensor is discarded (R207). -/
def blockAccept (d : Nat) (s : State) : State :=
  if s.accepting d then
    match s.offering d with
    | none => s
    | some (c, b, x) =>
      let body := s.reducedRec b x x.taken
      let u := match s.upd.entryFor b with
        | some (i, e) => (match s.bucketBlock b e x.seq x.taken with
          | some k => [BlkIn.mk i k body]
          | none => [])
        | none => []
      let last := decide (x.taken + 1 = s.bucketLen b x.seq)
      let s := s.setUpd d { s.updD d with inbuf := (s.updD d).inbuf ++ u }
      if last then s.bucketTaken c x.seq else s.setChan c ((s.chan c).setBucket { x with taken := x.taken + 1 })
  else s

def execBlockAccept (d : Die) (s : State) : Answer := .next (blockAccept d.val s)

/-- A token that began before the last commit still reads the copy that the update would write (R391). -/
def State.oldReader (s : State) : Bool :=
  s.mem.ctx.any (fun c => c.2.inTok && (match c.2.sel with
    | some x => x != s.stp.copySel
    | none => false))

/-- BLOCK_UPDATE (R188): the oldest block in the buffer. -/
def blockUpdate (d : Nat) (s : State) : State :=
  if s.oldReader || (s.updD d).proj.isSome || !(s.updD d).projWait.isEmpty then s
  else match (s.updD d).inbuf with
    | [] => s
    | x :: rest =>
      let s := s.setUpd d { s.updD d with inbuf := rest }
      match s.upd.table[x.ent]? with
      | none => s
      | some e =>
        if (s.updD d).stopped then s.countBlock d e x
        else s.updateBlock d (s.upd.baseOf x.ent) e (s.upd.consts.getD x.ent {}) x

def execBlockUpdate (d : Die) (s : State) : Answer := .next (blockUpdate d.val s)

/-- UPDATE_COMPLETE (R185): every bucket of the die's channels is delivered and every block handled. -/
def updateComplete (d : Nat) (s : State) : State :=
  let done := [4 * d, 4 * d + 1, 4 * d + 2, 4 * d + 3].all (fun c => decide (s.chanPlan c ≤ (s.chan c).deliverPt))
  if s.stp.isOpen && done && (s.updD d).inbuf.isEmpty then s.setUpd d { s.updD d with complete := true } else s

def execUpdateComplete (d : Die) (s : State) : Answer := .next (updateComplete d.val s)

/-! ### Projection -/

/-- PROJECTION_START (R198): the oldest pass that waits goes on, while EN is 1 and none runs. -/
def projectionStart (d : Nat) (s : State) : State :=
  if s.regB R.UPD_CTRL 0 && (s.updD d).proj.isNone then
    match (s.updD d).projWait with
    | [] => s
    | r :: rest => s.setUpd d { s.updD d with proj := some (s.passRun r), projWait := rest }
  else s

def execProjectionStart (d : Die) (s : State) : Answer := .next (projectionStart d.val s)

/-- The committed master weight at a row and column of an entry. -/
def State.masterAt (s : State) (base : Nat) (e : StateEnt) (row col : Nat) : Word :=
  s.committed.word (base + e.partOff 0 (row / 32 * e.bcols + col / 32) (row % 32 * 32 + col % 32))

/-- Positions of a column block. -/
def MatEnt.blockPos (m : MatEnt) (cb : Nat) : List Nat := (List.range m.rb).map (m.posOf cb)

/-- Whether the pass re-chooses the scales of a column block (R201). -/
def ProjRun.rescales (run : ProjRun) (m : MatEnt) (cb : Nat) : Bool :=
  run.rescale && (m.blockPos cb).any (fun p => run.marks.contains (m.die * 1536 + p))

/-- The scales of a column block are chosen anew over all rows of the matrix; its positions become rescaled. -/
def State.rescale (s : State) (base : Nat) (e : StateEnt) (m : MatEnt) (cb : Nat) : State :=
  let s := (List.range (m.cols cb)).foldl (fun s c =>
    let j := 512 * cb + c
    let a := s.scaleAddr s.arr.target m j
    let ws := ((List.range (min m.k e.rows)).map (fun k => s.masterAt base e k j)).filter f32Finite
    let n := newScale (s.hbmNum a 2) ws
    (s.hbmWrite a (leBytes 2 n.1)).when n.2 (fun s => s.event R.UPD_EVENTS 8)) s
  ((m.blockPos cb).foldl (fun s p => s.setPos m.die p { s.pos m.die p with rescaled := true }) s).event R.UPD_EVENTS 9

/-- The codes of one position (R199): the new state and the rows that changed. -/
def State.projectCells (s : State) (d : Nat) (base : Nat) (e : StateEnt) (m : MatEnt) (cb rb : Nat) (thr : Option Word) :
    State × List Nat :=
  ((posCells m cb rb).filter (fun q => decide (q.2.2.1 < e.rows) && decide (q.2.2.2 < e.cols))).foldl (fun a q =>
    let s := a.1
    let t := s.codeAddr s.arr.target m q.2.2.1 q.2.2.2
    let old := (codeOf (s.mem.byte t)).1
    let sc := toF32 (fp16 (s.hbmNum (s.scaleAddr s.arr.target m q.2.2.2) 2))
    let n := projCode thr (s.masterAt base e q.2.2.1 q.2.2.2) sc old
    let s := s.when n.2 (fun s => (s.incReg (R.UPD_PROJ_NAN_CNT d) 1).event R.UPD_EVENTS 7)
    if n.1 = old then (s, a.2)
    else ((s.hbmWrite t [byteOf (toTwos 8 n.1)]).incPair (R.UPD_PROJ_CHG_CNT d) 1, if a.2.contains q.1 then a.2 else a.2 ++ [q.1])) (s, [])

/-- An array that is to serve the position later has the target codes: its image step advances. -/
def State.advanceArray (s : State) (k p a step : Nat) : State :=
  let x := s.phys k a
  match x.record with
  | some r => if decide (r.pos = p) && s.physIsTarget k p x then s.setPhys k a { x with record := some { r with step := step } } else s
  | none => s

/-- A position of a pass is finished (R200): a change queues it, or is a trigger of the job that writes its targets (R113), or its image
steps advance. -/
def State.projectedPos (s : State) (k p : Nat) (run : ProjRun) (chg : List Nat) : State :=
  let x := s.pos k p
  let step := run.step
  let s := s.setPos k p { x with projStep := step, noProj := false, mark := x.mark && !run.marks.contains (k * 1536 + p), changed := x.changed ++ chg.filter (fun r => !x.changed.contains r) }
  if chg.isEmpty then
    let s := if s.areasAgree s.arr.shadow s.arr.target k p then s.setPos k p { s.pos k p with step := step } else s
    let t := s.tile k (p / 16)
    let s := match t.ready with
      | some q => if q.1 = p then s.advanceArray k p (17 * (p / 16) + t.slot) step else s
      | none => s
    if x.fb then (match s.physOf k p with | some a => s.advanceArray k p a step | none => s) else s
  else
    match (s.tile k (p / 16)).job with
    | some r =>
      if r.job.pos = p ∧ !r.job.fromShadow then
        s.setTile k (p / 16) { s.tile k (p / 16) with job := some { r with job := { r.job with cls := min r.job.cls 2 } } }
      else s.queueJob k p 2
    | none => s.queueJob k p 2

/-- One entry of a pass. -/
def State.projectEntry (s : State) (d : Nat) (run : ProjRun) (base : Nat) (e : StateEnt) : State :=
  match s.matAt e.kaolin e.mat with
  | none => s
  | some m =>
    (List.range m.cbs).foldl (fun s cb =>
      let anew := run.rescales m cb
      let s := if anew then s.rescale base e m cb else s
      let thr := if anew then none else run.thr
      (List.range m.rb).foldl (fun s rb =>
        let r := s.projectCells d base e m cb rb thr
        r.1.projectedPos m.die (m.posOf cb rb) run r.2) s) s

/-- The whole pass over the entries of a die. -/
def State.projectDie (s : State) (d : Nat) (run : ProjRun) : State :=
  (s.upd.table.zipIdx.filter (fun p => decide (p.1.die = d) && decide (p.1.mat ≠ 0xFFFF))).foldl
    (fun s p => s.projectEntry d run (s.upd.baseOf p.2) p.1) s

/-- PROJECTION_DONE (R199 to R202): the targets are written, changed positions queued; host writes held meanwhile are made. -/
def projectionDone (d : Nat) (s : State) : State :=
  match (s.updD d).proj with
  | none => s
  | some run =>
    let s := ((s.projectDie d run).setPair R.UPD_PROJ_STEP run.step).event R.UPD_EVENTS 6
    let held := (s.updD d).heldWrites
    let s := s.setUpd d { s.updD d with proj := none, heldWrites := [] }
    held.foldl (fun s w => s.holdOrWrite w.1 w.2) s

def execProjectionDone (d : Die) (s : State) : Answer := .next (projectionDone d.val s)

/-- A command pass on both dies; it starts at once where it may (R202). -/
def projectCmd (rq : Requester) (hyst : Bool) (s : State) : State :=
  if s.quiet then
    [0, 1].foldl (fun s d =>
      projectionStart d (s.setUpd d { s.updD d with projWait := (s.updD d).projWait ++ [{ step := s.pair R.STEP_COUNT, hyst := hyst }] })) s
  else s.refuseWrite rq R.UPD_CMD (if hyst then 1 else 2) 0

def execProject (rq : Requester) (s : State) : Answer := .next (projectCmd rq true s)
def execProjectNohyst (rq : Requester) (s : State) : Answer := .next (projectCmd rq false s)

/-! ### Schedule table and step size (R190, R191) -/

def State.schedIdx (s : State) : Nat := s.regF R.UPD_SCHED_IDX 11 0

/-- SCHED_DATA_ACCESS: the addressed entry is read or written; the index advances. -/
def schedDataAccess (rq : Requester) (wr : Option Word) (s : State) : State :=
  let i := s.schedIdx
  let s := match wr with
    | some v => s.modUpd (fun u => { u with sched := SMap.set (fun _ => 0) u.sched i v })
    | none => s.emit (.reply rq R.UPD_SCHED_DATA (SMap.get (fun _ => 0) s.upd.sched i))
  s.setRegF R.UPD_SCHED_IDX 11 0 ((i + 1) % 4096)

def execSchedDataAccess (rq : Requester) (wr : Option Word) (s : State) : Answer := .next (schedDataAccess rq wr s)

/-- STEP_SIZE_WRITE: taken in host-assisted mode of function 8, ignored in hardware mode. -/
def stepSizeWrite (rq : Requester) (v : Word) (s : State) : State :=
  if s.fnHost 8 then (s.setReg R.UPD_STEP_SIZE v).modUpd (fun u => { u with fresh := true })
  else (s.refuseBit rq R.UPD_STEP_SIZE v 0 2).event R.UPD_EVENTS 2

def execStepSizeWrite (rq : Requester) (v : Word) (s : State) : Answer := .next (stepSizeWrite rq v s)

end Sys2Proof.Machine
end

