-- ==== Sys2Proof/Machine/BarAccess.lean ====
section
/-! DEFINITION. Writes and reads of BAR0 by the host or a Kersey core: every register with the effect its block gives it; 64-bit pairs
(R6, R7), unassigned addresses (R399), the snapshot window (R370), the time before READY (R331). -/

namespace Sys2Proof.Machine

/-! ### Writes -/

/-- A write by access type (R9). -/
def State.rowWrite (s : State) (rq : Requester) (a off : Nat) (r : RegRow) (v : Word) : State :=
  match r.acc with
  | .rw =>
    if r.pair then (if r.isHi off then s.hiWrite rq (a - 4) r.rw r.rwHi v else s.loWrite rq a v)
    else s.setReg a ((s.reg a &&& ~~~wordN r.rw) ||| (v &&& wordN r.rw))
  | .w1c => s.setReg a (s.reg a &&& ~~~(v &&& wordN r.w1c))
  | _ => s

/-- A value or command that the field does not take is ignored and logged. -/
def State.badWrite (s : State) (rq : Requester) (a : Nat) (v : Word) : State := s.refuseWrite rq a v 0

/-- The pair that a write of _HI forms. -/
def State.pairNew (s : State) (rq : Requester) (a : Nat) (v : Word) : Nat := (s.loHeld rq a).toNat + v.toNat * 2 ^ 32

/-- A write of HIF_Q_SQ_BASE or HIF_Q_CQ_BASE (R302). DESIGN CHOICE: a refused one, too, uses up the requester's held _LO write (R6 does not say). -/
def State.queueBase (s : State) (rq : Requester) (off : Nat) (v : Word) : State :=
  let q := s.regF R.HIF_Q_SEL 5 0
  let x := s.queue q
  let a := 0x10000 + off - 4
  let n := s.pairNew rq a v
  if x.en then (s.badConfig rq q (0x10000 + off) v).loUsed rq a
  else (s.setQueue q (if off = 0x34 then { x with sq := n } else { x with cq := n })).loUsed rq a

/-- Host interface (chapter 12). DESIGN CHOICE: a refused write of HIF_SQWIN_BASE_HI uses up the requester's held _LO write (R6 does not say). -/
def State.writeHif (s : State) (rq : Requester) (off : Nat) (v : Word) : Option State :=
  let a := 0x10000 + off
  match off with
  | 0x14 =>
    let s := s.hiWrite rq R.HIF_APER_BASE 0xC0000000 0xFFFFFFFF v
    some (s.when (decide (0x8400000000 < s.pair R.HIF_APER_BASE)) (fun s => s.badWrite rq a v))
  | 0x24 => some (s.modHif (fun h => { h with prot := SMap.set (fun _ => 0) h.prot (s.regF R.HIF_PROT_SEL 2 0) (v &&& 0xC3FF03FF#32) }))
  | 0x2C => some (qCfgWrite rq (v &&& 0xF03F1FFF#32) s)
  | 0x34 => some (s.queueBase rq 0x34 v)
  | 0x3C => some (s.queueBase rq 0x3C v)
  | 0x48 => some (s.modHif (fun h => { h with page := SMap.set (fun _ => 0) h.page (s.regF R.HIF_RELAY_SEL 5 0) (v &&& 0x03FF00FF#32) }))
  | 0x5C => if s.hif.q.any (fun p => p.2.en && p.2.inWindow) then some ((s.badWrite rq a v).loUsed rq R.HIF_SQWIN_BASE) else none
  | _ =>
    if 0x1000 ≤ off ∧ off < 0x1400 ∧ off % 16 = 12 then
      some (if bitOf v 0 then s.setReg a 1 else msixUnmask ((off - 0x1000) / 16) s)
    else none

/-- IRQ_SRC_CFG: the sense of fixed sources and the vector of MSI-X sources stay (R317). -/
def srcCfgValue (src : Nat) (old v : Word) : Word :=
  let w := v &&& 0xFFC0000F#32
  let w := if senseFixed src then setFld w 31 30 (fld old 31 30) else w
  if 448 ≤ src then setFld w 27 22 (src - 448) else w

/-- Interrupt controllers (chapter 13). -/
def State.writeIrq (s : State) (rq : Requester) (d off : Nat) (v : Word) : Option State :=
  let q := s.irqD d
  if off = 0x10 then
    let src := s.regF (R.IRQ_SRC_SEL d) 8 0
    some (s.setIrq d { q with cfg := SMap.set irqCfgReset q.cfg src (srcCfgValue src (q.cfgOf src) v) })
  else if off = 0x24 then some (hostEoi rq d (fld v 8 0) s)
  else if 0x100 ≤ off ∧ off < 0x140 then some (irqPendWrite d ((off - 0x100) / 4) v s)
  else if 0x140 ≤ off ∧ off < 0x180 then some (irqPclrWrite d ((off - 0x140) / 4) v s)
  else if 0x400 ≤ off ∧ off < 0x480 then
    let c := (off - 0x400) / 0x20
    match off % 0x20 with
    | 0x0C => some (irqEoi rq d c (fld v 8 0) s)
    | 0x18 => some (kdone rq d c (bitOf v 0) s)
    | _ => none
  else none

/-- Supplies and housekeeping (chapter 15). -/
def State.writePwr (s : State) (rq : Requester) (off : Nat) (v : Word) : Option State := match off with
  | 0x14 => some (match fld v 3 0 with
    | 0 => s
    | 1 => selectInput rq false s
    | 2 => selectInput rq true s
    | 3 => clearUnstable s
    | _ => s.badWrite rq R.PWR_CMD v)
  | 0x104 => some (hkaConvWrite v s)
  | _ => none

/-- A write of PWR_PWMk_CFG or _CURVE sets the output from then on (R364). -/
def State.notePwm (s : State) (b : Blk) (off : Nat) : State :=
  if b = .pwr ∧ 0x38 ≤ off ∧ off < 0x48 then
    let k := off / 4 % 2
    s.modPwr (fun p => if p.pwmSet.contains k then p else { p with pwmSet := p.pwmSet ++ [k] })
  else s

/-- A write of SNP_CTRL, ARR_GOV_CAP or IRQ_CTRL: the view bank (R370) and the trigger queue (R373), THROTTLE (R360) and messages that EN stopped (R328) follow. -/
def State.noteCtrl (s : State) (b : Blk) (off : Nat) : State := match b with
  | .snp => if off = 0 then s.freeView.snpOff else s
  | .irq d => if off = 0 then s.sendHeld d else s
  | .arr _ => if off = 0x0C then s.when s.throttled (fun s => s.pwrEvent 5) else s
  | _ => s

/-- Snapshot block (chapter 16). -/
def State.writeSnp (s : State) (rq : Requester) (off : Nat) (v : Word) : Option State := match off with
  | 0x18 => some (snpTrigFire rq v s)
  | 0x24 => some (snpRingSizeWrite rq v s)
  | 0x2C => if s.snpRing ≤ v.toNat then some (s.badWrite rq R.SNP_RING_RD v) else none
  | _ => none

/-- Check units (chapter 16). -/
def State.writeChk (s : State) (rq : Requester) (off : Nat) (v : Word) : Option State :=
  if 0x100 ≤ off ∧ off < 0x300 then
    let u := (off - 0x100) / 0x20
    let len := fld v 2 0
    match off % 0x20 with
    | 0x00 => some (match fld v 31 28 with
      | 0 => s.chkOwned rq u (fun c => { c with len := chkLen len })
      | 1 => chkClaim rq u len s
      | 2 => chkRelease rq u len s
      | 3 => chkInit rq u len s
      | _ => s.badWrite rq (0x50000 + off) v)
    | 0x04 => some (chkDataWrite rq u v s)
    | 0x08 => some (chkValueWrite rq u v s)
    | _ => none
  else none

/-- Image block (chapter 14). -/
def State.writeImg (s : State) (rq : Requester) (off : Nat) (v : Word) : Option State := match off with
  | 0x10 => some (match fld v 3 0 with
    | 0 => s.when s.img.cmd.isSome (fun s => s.refuseWrite rq R.IMG_CMD v 0)
    | 1 => bootPushed rq s
    | 2 => verifyPushed rq s
    | 3 => writeImage rq s
    | _ => s.badWrite rq R.IMG_CMD v)
  | 0x2C => some (attRequest rq v s)
  | _ => none

/-- Task engines (chapter 09). -/
def State.writeTsk (s : State) (rq : Requester) (off : Nat) (v : Word) : Option State := match off with
  | 0x18 => some (tskLaunch rq v s)
  | 0x20 => some (match fld v 3 0 with
    | 0 => s
    | 1 => flush rq s
    | _ => s.badWrite rq R.TSK_CMD v)
  | 0x30 => some (s.setCounter s.selCounter v.toNat)
  | 0x34 => some (s.addCounter s.selCounter (fld v 15 0))
  | _ => none

/-- Update units (chapter 07). -/
def State.writeUpd (s : State) (rq : Requester) (off : Nat) (v : Word) : Option State := match off with
  | 0x10 => some (stepSizeWrite rq v s)
  | 0x3C => some (schedDataAccess rq (some v) s)
  | 0x40 => some (match fld v 3 0 with
    | 0 => s
    | 1 => projectCmd rq true s
    | 2 => projectCmd rq false s
    | _ => s.badWrite rq R.UPD_CMD v)
  | _ => none

/-- Reduction (chapter 08). -/
def State.writeRed (s : State) (rq : Requester) (off : Nat) (v : Word) : Option State := match off with
  | 0x18 => some (match fld v 3 0 with
    | 0 => s
    | 1 => form rq v s
    | _ => s.badWrite rq R.RED_CMD v)
  | _ => none

/-- Memory (chapter 10). -/
def State.writeMem (s : State) (rq : Requester) (d off : Nat) (v : Word) : Option State := match off with
  | 0x14 => some (match fld v 31 28 with
    | 0 => s
    | 1 => siltCmd 1 (.reg rq (fld v 15 0)) s
    | 2 => siltCmd 2 (.reg rq (fld v 15 0)) s
    | 3 => siltCmd 3 (.reg rq (fld v 15 0)) s
    | _ => s.badWrite rq R.MEM_SILT_CMD v)
  | 0x128 => some (siltSlotsWrite rq d v s)
  | _ => none

/-- EZL_CTRL: a link that is DOWN trains once EN and its LINK_EN bit are set (R280); after start-up only where one of them was clear. -/
def State.ezlCtrl (s : State) (v : Word) : State :=
  let old := s.reg R.EZL_CTRL
  let w := v &&& 0xFFFFC003#32
  (List.range 18).foldl (fun s l =>
    if bitOf w 0 && bitOf w (14 + l) && decide ((s.lnk l).st = .down) && decide (s.img.stage < 0xC)
        && (decide (s.img.stage < 0xB) || !(bitOf old 0 && bitOf old (14 + l))) then
      s.setLnk l { s.lnk l with st := .training, attempts := 0 }
    else s) (s.setReg R.EZL_CTRL w)

/-- Eczil (chapter 11). -/
def State.writeEzl (s : State) (rq : Requester) (off : Nat) (v : Word) : Option State := match off with
  | 0x00 => some (s.ezlCtrl v)
  | 0x28 => some (match fld v 31 28 with
    | 0 => s
    | 1 => cmdRetrain rq (fld v 4 0) s
    | 2 => cmdRemove rq (fld v 4 0) s
    | 3 => cmdRestore rq (fld v 4 0) s
    | _ => s.badWrite rq R.EZL_CMD v)
  | _ => none

/-- Kaolin dies (chapters 03 and 04). -/
def State.writeArr (s : State) (rq : Requester) (k off : Nat) (v : Word) : Option State := match off with
  | 0x00 => some (clipgClr k v s)
  | 0x30 => some (rangeDataWrite rq k v s)
  | 0x114 =>
    let p := fld v 10 0
    some (match fld v 31 28 with
      | 0 => s
      | 1 => refreshCmd rq k p s
      | 2 => if (s.posMat k p).isNone then s.refuseProg rq k 2 p 0 else publishCmd rq k p s
      | 3 => loadCmd rq k p s
      | 4 => readbackCmd rq k p s
      | c => s.refuseProg rq k c p 0)
  | _ => none

/-- Step control (chapters 01 and 17). DESIGN CHOICE: a refused write of STEP_COUNT_HI uses up the requester's held _LO write (R6 does not say). -/
def State.writeDuty (s : State) (rq : Requester) (off : Nat) (v : Word) : Option State := match off with
  | 0x00 => some (dutySplitWrite v s)
  | 0x104 => if s.phaseNow = .idle ∨ s.phaseNow = .held then none
    else some ((s.badWrite rq (R.STEP_COUNT + 4) v).loUsed rq R.STEP_COUNT)
  | 0x124 => some (match fld v 1 0 with
    | 0 => stepDecideNone rq s
    | 1 => stepDecideRepeat rq s
    | 2 => stepDecideSkip rq s
    | _ => stepDecideStop rq s)
  | _ => none

/-- The effect of a write that is more than its field rules, if the register has one. -/
def State.writeSpecial (s : State) (rq : Requester) (b : Blk) (off : Nat) (v : Word) : Option State := match b with
  | .hif => s.writeHif rq off v
  | .irq d => s.writeIrq rq d off v
  | .pwr => s.writePwr rq off v
  | .snp => s.writeSnp rq off v
  | .chk => s.writeChk rq off v
  | .img => s.writeImg rq off v
  | .tsk _ => s.writeTsk rq off v
  | .upd _ => s.writeUpd rq off v
  | .red => s.writeRed rq off v
  | .mem d => s.writeMem rq d off v
  | .ezl => s.writeEzl rq off v
  | .arr k => s.writeArr rq k off v
  | .duty => s.writeDuty rq off v
  | _ => none

/-- The snapshot window (R370). -/
def inSnapWindow (a : Nat) : Bool := decide (0x1000000 ≤ a) && decide (a < 0x2000000)

/-- Before READY and in the fault states the host reaches the ID_, IMG_, HIF_ and ERR_ blocks alone (R331). -/
def State.blocked (s : State) (rq : Requester) (a : Nat) : Bool :=
  decide (rq = .host) && !s.ready && (match locate a with
    | some (b, _) => !(decide (b = .id) || decide (b = .img) || decide (b = .hif) || decide (b = .err))
    | none => true)

/-- A write of a word to a BAR0 address. -/
def State.writeBar0 (s : State) (rq : Requester) (a : Nat) (v : Word) : State :=
  if s.blocked rq a then s.refuseWrite rq a v 1
  else if inSnapWindow a then s.log 5 1 0xFF 1 (writeDetail rq a v)
  else
    let c := canonAddr a
    match rowAt c with
    | none => s.refuseWrite rq a v 1
    | some (b, off, r) => match s.writeSpecial rq b off v with
      | some t => t
      | none => ((s.rowWrite rq c off r v).notePwm b off).noteCtrl b off

/-! ### Reads -/

/-- What a read of an RC register changes; its reply is not sent twice. -/
def State.readEffect (s : State) (rq : Requester) (b : Blk) (off : Nat) : State :=
  let t := match b with
    | .irq d => if 0x400 ≤ off ∧ off < 0x480 ∧ off % 0x20 = 8 then claimRead rq d ((off - 0x400) / 0x20) s else s
    | .pwr => if off = 0x108 then hkaDataRead rq s else s
    | .upd _ => if off = 0x3C then schedDataAccess rq none s else s
    | .arr k => if off = 0x10 then govStatusRead rq k s else if off = 0x38 then clipgDataRead rq k s else s
    | _ => s
  { t with out := s.out }

/-- A read of a BAR0 address: the word and the state after (R7, R9, R370, R399). -/
def State.readBar0 (s : State) (rq : Requester) (a : Nat) : Word × State :=
  if s.blocked rq a then (0, s)
  else if inSnapWindow a then (s.snapRead (a - 0x1000000), s)
  else
    let c := canonAddr a
    match rowAt c with
    | none => (0, s)
    | some (b, off, r) =>
      if r.pair then
        if r.isHi off then ((s.captured rq (c - 4)).getD (s.view c), s.capUsed rq (c - 4)) else (s.view c, s.capture rq c (s.view (c + 4)))
      else (s.view c, s.readEffect rq b off)

/-! ### Commands -/

/-- REGISTER_WRITE. -/
def execRegisterWrite (rq : Requester) (off : Nat) (v : Word) (s : State) : Answer := .next (s.writeBar0 rq off v)

/-- An address is the _LO half of a pair. -/
def isPairLo (a : Nat) : Bool := match rowAt (canonAddr a) with
  | some (_, off, r) => r.pair && !r.isHi off
  | none => false

/-- PAIR_LO_READ. -/
def pairLoRead (rq : Requester) (off : Nat) (s : State) : State :=
  if isPairLo off then let r := s.readBar0 rq off; r.2.emit (.reply rq off r.1) else s

def execPairLoRead (rq : Requester) (off : Nat) (s : State) : Answer := .next (pairLoRead rq off s)

/-- No register, register array or window occupies an address, or it is answered so (R331, R399). -/
def State.unassigned (s : State) (rq : Requester) (a : Nat) : Bool := s.blocked rq a || (!inSnapWindow a && (rowAt (canonAddr a)).isNone)

/-- UNASSIGNED_ACCESS. -/
def unassignedAccess (rq : Requester) (off : Nat) (wr : Option Word) (s : State) : State :=
  if s.unassigned rq off then (match wr with
    | some v => s.refuseWrite rq off v 1
    | none => s.emit (.reply rq off 0))
  else s

def execUnassignedAccess (rq : Requester) (off : Nat) (wr : Option Word) (s : State) : Answer := .next (unassignedAccess rq off wr s)

end Sys2Proof.Machine
end

