-- ==== Sys2Proof/Machine/Records.lean ====
section
/-! DEFINITION. Meanings of the register-initialisation records (R338): each is an access by Kersey 0 in its phase's stage. -/

namespace Sys2Proof.Machine

/-- The record that runs next: records run once the stage's own work is done, in phases 0 and 3 from the stage's start. -/
def State.nextInit (s : State) (op : Nat) : Option InitRec :=
  if s.img.worked ∨ s.img.stage = 6 ∨ s.img.stage = 0xA then
    match s.img.recs.find? (fun r => decide (some r.phase = phaseOf s.img.stage)) with
    | some r => if r.op = op then some r else none
    | none => none
  else none

/-- A record has run. -/
def State.recRun (s : State) (r : InitRec) : State :=
  (s.modImg (fun i => { i with recs := i.recs.filter (fun x => decide (x.num ≠ r.num)) })).stageDone

/-- Kersey 0. -/
def kersey0 : Requester := .kersey 0

/-- RECORD_WRITE. -/
def recordWrite (s : State) : State := match s.nextInit 1 with
  | some r => (s.writeBar0 kersey0 r.off (wordN r.val)).recRun r
  | none => s

def execRecordWrite (s : State) : Answer := .next (recordWrite s)

/-- RECORD_MODIFY: (old AND NOT mask) OR value. -/
def recordModify (s : State) : State := match s.nextInit 2 with
  | some r =>
    let x := s.readBar0 kersey0 r.off
    (x.2.writeBar0 kersey0 r.off ((x.1 &&& ~~~wordN r.mask) ||| wordN r.val)).recRun r
  | none => s

def execRecordModify (s : State) : Answer := .next (recordModify s)

/-- RECORD_POLL: one read; the record ends when the masked word equals the value. -/
def recordPoll (s : State) : State := match s.nextInit 3 with
  | some r =>
    let x := s.readBar0 kersey0 r.off
    if x.1 &&& wordN r.mask = wordN r.val then x.2.recRun r else x.2
  | none => s

def execRecordPoll (s : State) : Answer := .next (recordPoll s)

/-- POLL_TIMEOUT: 10 ms without a match are an image fault. -/
def execPollTimeout (s : State) : Answer := .next (match s.nextInit 3 with
  | some r => s.imageFault 9 r.num
  | none => s)

/-- RECORD_DELAY: the wait has ended. -/
def execRecordDelay (s : State) : Answer := .next (match s.nextInit 4 with
  | some r => s.recRun r
  | none => s)

end Sys2Proof.Machine
end

