-- ==== Sys2Proof/Machine/Relay.lean ====
section
/-! DEFINITION. Meanings of relayed host traffic (R293, R312, R313, R315) and DATA frames. -/

namespace Sys2Proof.Machine

/-- The address bit that marks a BAR4 offset in a relay header (DESIGN CHOICE: R293 gives one offset field for both BARs). -/
def relayBar4 : Nat := 2 ^ 63

/-- A relay failure is recorded (R314). -/
def State.relayError (s : State) (detail : Nat) : State := (s.event R.HIF_EVENTS 8).hifFault 7 0 detail

/-- A relay read or write frame to a member. -/
def State.sendRelay (s : State) (m : Nat) (h : RelayHdr) (bytes : List Byte) : State :=
  s.sendRouted ⟨7, 0, s.me, m, (RelayHdr.bytes h) ++ bytes⟩

/-! ### At the head -/

/-- A window access with which the head answers Unsupported Request (R312). -/
def State.windowBad (s : State) (m len : Nat) : Bool :=
  !s.isHead || !s.regB R.HIF_CTRL 1 || decide (m = s.me) || decide (podModules s.ezl.pod.size ≤ m) || decide (len < 4) || decide (4096 < len)

/-- The address at the member of offset `off` of half `win` of its window. -/
def State.windowAddr (s : State) (m win off : Nat) : Nat :=
  let pg := SMap.get (fun _ => (0 : Word)) s.hif.page m
  if win = 0 then fld pg 25 16 * 65536 + off % 65536 else relayBar4 + fld pg 7 0 * 65536 + off % 65536

/-- A tag that no read uses, one whose completion may still arrive among them. -/
def State.freeTag (s : State) : Nat :=
  let used := (s.ezl.relayOut ++ s.ezl.relayWait ++ s.ezl.relayLate).map (·.tag)
  ((List.range (used.length + 1)).find? (fun t => !used.contains t)).getD 0

/-- The oldest read that waits goes out while fewer than 256 are outstanding. -/
def State.relayNext (s : State) : State := match s.ezl.relayWait with
  | r :: rest =>
    if s.ezl.relayOut.length < 256 then
      (s.modEzl (fun e => { e with relayWait := rest, relayOut := e.relayOut ++ [r] })).sendRelay r.mem r.hdr []
    else s
  | [] => s

/-- RELAY_WINDOW_ACCESS. -/
def relayWindowAccess (m win off : Nat) (wr : Option (List Byte)) (len : Nat) (s : State) : State :=
  if !s.ready then (match wr with
    | some _ => s.unassignedWrite (0x800000 + m * 0x20000 + win % 2 * 65536 + off) len
    | none => s.unassignedRead len)
  else if s.windowBad m len then
    ((s.relayError (off + m * 2 ^ 32)).incReg R.HIF_UR_CNT 1).emit (if wr.isSome then .aer else .hostUr)
  else
    let a := s.windowAddr m win off
    match wr with
    | some b => s.sendRelay m ⟨2, 0, 0, len, a⟩ (sliceB b 0 len)
    | none =>
      let t := s.freeTag
      (s.modEzl (fun e => { e with relayWait := e.relayWait ++ [{ tag := t, mem := m, hdr := ⟨1, 0, t, len, a⟩ }] })).relayNext

def execRelayWindowAccess (mem win off : Nat) (wr : Option (List Byte)) (len : Nat) (s : State) : Answer :=
  .next (relayWindowAccess mem win off wr len s)

/-- An outstanding read has ended; the next one may go out. -/
def State.relayOver (s : State) (r : RelayRead) : State :=
  (s.modEzl (fun e => { e with relayOut := e.relayOut.erase r })).relayNext

/-- RELAY_COMPLETION: the member's data or status completes the host read; a late completion is discarded and logged. -/
def relayCompletion (src : Nat) (h : RelayHdr) (bytes : List Byte) (s : State) : State :=
  let s := s.takeRx 7 (fun f => f.src == src && f.startsWith (RelayHdr.bytes h))
  match s.ezl.relayOut.find? (fun r => decide (r.tag = h.tag) && decide (r.mem = src)) with
  | none =>
    (s.modEzl (fun e => { e with relayLate := e.relayLate.filter (fun r => !(decide (r.tag = h.tag) && decide (r.mem = src))) })).log
      0x15 0 0xFF 0 (h.tag + src * 2 ^ 16)
  | some r =>
    let t := s.relayOver r
    match h.status with
    | 0 => t.emit (.hostData (sliceB bytes 0 r.hdr.len) false)
    | 1 => ((t.relayError (h.tag + src * 2 ^ 16)).incReg R.HIF_UR_CNT 1).emit .hostUr
    | 2 => (t.relayError (h.tag + src * 2 ^ 16)).emit .hostCa
    | k => (t.relayError (h.tag + src * 2 ^ 16)).emit (.hostStatus k)

def execRelayCompletion (src : Nat) (h : RelayHdr) (bytes : List Byte) (s : State) : Answer := .next (relayCompletion src h bytes s)

/-- RELAY_TIMEOUT: a read without a completion for 1 ms ends with status timeout. -/
def relayTimeout (tag : Nat) (s : State) : State := match s.ezl.relayOut.find? (fun r => decide (r.tag = tag)) with
  | none => s
  | some r =>
    let s := (s.relayOver r).modEzl (fun e => { e with relayLate := e.relayLate ++ [r] })
    ((s.event R.EZL_EVENTS 8).relayError (tag + r.mem * 2 ^ 16)).emit .hostCa

def execRelayTimeout (tag : Nat) (s : State) : Answer := .next (relayTimeout tag s)

/-- A member's write to host memory, at the head: discarded and counted while the link is down (R315). -/
def State.memberWrite (s : State) (addr : Nat) (bytes : List Byte) : State :=
  if !s.isHead then s
  else if s.hif.linkUp then s.emit (.hostWrite addr bytes)
  else s.incReg R.HIF_HOST_ERR_CNT 1

/-- RELAY_HOST_WRITE. -/
def relayHostWrite (src : Nat) (h : RelayHdr) (bytes : List Byte) (s : State) : State :=
  (s.takeRx 7 (fun f => f.src == src && f.startsWith (RelayHdr.bytes h))).memberWrite h.addr (sliceB bytes 0 h.len)

def execRelayHostWrite (src : Nat) (h : RelayHdr) (bytes : List Byte) (s : State) : Answer := .next (relayHostWrite src h bytes s)

/-- DATA_FRAME: into HBM; with address bit 63 set, at the head, to host memory. -/
def dataFrame (src addr : Nat) (bytes : List Byte) (s : State) : State :=
  let s := s.takeRx 1 (fun f => f.src == src && f.startsWith (leBytes 8 addr ++ leBytes 4 bytes.length))
  if addr.testBit 63 then s.memberWrite (addr % 2 ^ 63) bytes else s.hostPut addr bytes

def execDataFrame (src addr : Nat) (bytes : List Byte) (s : State) : Answer := .next (dataFrame src addr bytes s)

/-! ### Accesses of BAR0 and BAR4 (R297, R298) -/

/-- A write to the doorbell page of BAR4: a doorbell, or a reserved address. -/
def State.doorbellPage (s : State) (o : Nat) (b : List Byte) : State :=
  if o < 0x200 then (if o % 8 = 0 then sqTailDoorbell (o / 8) (leAt b 0 4) s else cqHeadDoorbell (o / 8) (leAt b 0 4) s)
  else s.unassignedWrite o b.length

/-- Words of BAR0, read one after the other. -/
def State.readWords (s : State) (a n : Nat) : List Byte × State :=
  (List.range n).foldl (fun (x : List Byte × State) i =>
    let w := x.2.readBar0 .host (a + 4 * i)
    (x.1 ++ leBytes 4 w.1.toNat, w.2)) ([], s)

/-- Words of BAR0, written one after the other. -/
def State.writeWords (s : State) (a : Nat) (b : List Byte) : State :=
  (List.range (b.length / 4)).foldl (fun s i => s.writeBar0 .host (a + 4 * i) (wordN (leAt b (4 * i) 4))) s

/-- BAR0_BAD_ACCESS: an access that breaks R4 is refused (R298). One that does not is performed where no other command stands for it: 8
bytes of the MSI-X table or its pending bits, and the doorbell page of BAR4, which reads zero. -/
def bar0BadAccess (k : BadAccess) (off len : Nat) (wr : Option (List Byte)) (s : State) : State :=
  if accessBad k off len then s.badAnswer off wr.isSome
  else match k with
    | .bar0 =>
      if len = 8 then (match wr with
        | some b => s.writeWords off (sliceB b 0 8)
        | none => let r := s.readWords off 2; r.2.emit (.hostData r.1 false))
      else s
    | .doorbell =>
      if 0x400000 ≤ off then s
      else match wr with
        | some b => s.doorbellPage off (sliceB b 0 len)
        | none => s.unassignedRead len
    | .sqWindow => s

def execBar0BadAccess (kind : BadAccess) (off len : Nat) (wr : Option (List Byte)) (s : State) : Answer :=
  .next (bar0BadAccess kind off len wr s)

/-! ### At the member -/

/-- A read that is answered with bytes. -/
def gotBytes (r : List Byte × State) : Option (List Byte) × State := (some r.1, r.2)

/-- A read at offset `o` of a member's BAR4, which is HBM address `a`: `beyond` the BAR it is unsupported, its `blank` part reads zero. -/
def State.bar4Read (s : State) (o len a : Nat) (beyond blank : Bool) : Option (List Byte) × State :=
  if beyond then (none, (s.relayError o).incReg R.HIF_UR_CNT 1)
  else if accessBad .doorbell o len then (none, s.noteBad o)
  else if blank then (some (List.replicate len 0), s)
  else gotBytes (s.hostTake a len)

/-- A relayed read, answered as the local BAR would: none for Unsupported Request. -/
def State.memberRead (s : State) (addr len : Nat) : Option (List Byte) × State :=
  if addr < relayBar4 then
    if accessBad .bar0 addr len then (none, s.noteBad addr)
    else
      let r := s.readWords addr (len / 4)
      (some r.1, r.2)
  else
    let o := addr - relayBar4
    s.bar4Read o len (s.sqWin + (o - 0x400000)) (decide (0x800000 ≤ o)) (decide (o < 0x400000) || !s.ready)

/-- RELAY_READ: answered with a COMPLETION. -/
def relayRead (src : Nat) (h : RelayHdr) (s : State) : State :=
  let s := s.takeRx 7 (fun f => f.src == src && f.startsWith (RelayHdr.bytes h))
  let r := s.memberRead h.addr h.len
  match r.1 with
  | some b => r.2.sendRelay src ⟨3, 0, h.tag, h.len, h.addr⟩ b
  | none => r.2.sendRelay src ⟨3, 1, h.tag, h.len, h.addr⟩ []

def execRelayRead (src : Nat) (h : RelayHdr) (s : State) : Answer := .next (relayRead src h s)

/-- A relayed write, applied as the local BAR would. -/
def State.memberApply (s : State) (addr : Nat) (b : List Byte) : State :=
  if addr < relayBar4 then
    if accessBad .bar0 addr b.length then s.noteBad addr
    else s.writeWords addr b
  else
    let o := addr - relayBar4
    if 0x800000 ≤ o then (s.relayError o).incReg R.HIF_UR_CNT 1
    else if accessBad .doorbell o b.length then s.noteBad o
    else if s.ready = false then s.unassignedWrite o b.length
    else if 0x400000 ≤ o then s.hostPut (s.sqWin + (o - 0x400000)) b
    else s.doorbellPage o b

/-- RELAY_WRITE. -/
def relayWrite (src : Nat) (h : RelayHdr) (bytes : List Byte) (s : State) : State :=
  (s.takeRx 7 (fun f => f.src == src && f.startsWith (RelayHdr.bytes h))).memberApply h.addr (sliceB bytes 0 h.len)

def execRelayWrite (src : Nat) (h : RelayHdr) (bytes : List Byte) (s : State) : Answer := .next (relayWrite src h bytes s)

end Sys2Proof.Machine
end

