-- ==== Sys2Proof/Machine/TwillBound.lean ====
section
/-! DEFINITION. The error bounds of the special functions (R159): enclosures of 2^x, log2 x, 1/√x and tanh x, and the FP32 result within the
bound that the machine's own function gives. An ulp is the spacing of FP32 numbers at the exact result. -/

namespace Sys2Proof.Machine

/-- Fraction bits of the enclosures. -/
def sfBits : Nat := 128

/-- Over the first `n` bits of the fraction `f`, the product of 2^(2^-i) for the bits that are 1; `c` is 2^(2^(1-i)). -/
def pow2Go : Nat → Nat → Nat → Nat → Nat
  | 0, _, _, acc => acc
  | n + 1, c, f, acc =>
    let r := XNum.isqrt (c * 2 ^ sfBits)
    if 2 ^ sfBits ≤ 2 * f then pow2Go n r (2 * f - 2 ^ sfBits) (acc * r / 2 ^ sfBits) else pow2Go n r (2 * f) acc

/-- 2^(z / 2^128) lies between the two. -/
def pow2Near (z : Int) : XNum × XNum :=
  let k := Int.fdiv z ((2 ^ sfBits : Nat) : Int)
  if k < -400 then (.fin false 0 0, .fin false 1 (-400))
  else
    let a := pow2Go 80 (2 ^ (sfBits + 1)) (Int.fmod z ((2 ^ sfBits : Nat) : Int)).toNat (2 ^ sfBits)
    (.fin false a (k - sfBits), .fin false (a + 2 ^ 51) (k - sfBits))

/-- The first `n` binary digits of log2 y, y in [1, 2), after those in `acc`. -/
def log2Go : Nat → Nat → Nat → Nat
  | 0, _, acc => acc
  | n + 1, y, acc =>
    let q := y * y / 2 ^ sfBits
    if 2 ^ (sfBits + 1) ≤ q then log2Go n (q / 2) (2 * acc + 1) else log2Go n q (2 * acc)

/-- log2 (m * 2^e) lies between the two. -/
def log2Near (m : Nat) (e : Int) : XNum × XNum :=
  let z : Int := lg m e * ((2 ^ 64 : Nat) : Int) + (log2Go 64 (m * 2 ^ (sfBits - Nat.log2 m)) 0 : Nat)
  ((XNum.ofInt z).scale (-64), (XNum.ofInt (z + 2)).scale (-64))

/-- 1/√x, x positive, lies between the two. -/
def rsqrtNear (x : XNum) : XNum × XNum :=
  let y := XNum.div (.fin false 1 0) (XNum.sqrt x)
  (XNum.sub y (y.scale (-80)), XNum.add y (y.scale (-80)))

/-- log2 of Euler's number in units of 2^-128. -/
def log2e : Nat := 0x171547652B82FE1777D0FFDA0D23A7D11

/-- tanh x, x positive, lies between the two: (t - 1) / (t + 1) for t = 2^(2 x log2 e). -/
def tanhNear (m : Nat) (e : Int) : XNum × XNum :=
  let t := pow2Near (XNum.floorInt (.fin false (m * log2e) (e + 1)))
  let one : XNum := .fin false 1 0
  let g := fun (y : XNum) => XNum.div (XNum.sub y one) (XNum.add y one)
  (g t.1, g t.2)

/-- `n` ulp of FP32 at a number. -/
def ulps (n : Nat) : XNum → XNum
  | .fin _ m e => .fin false n (if m = 0 then FF.fp32.qmin else quantum 24 FF.fp32.qmin m e)
  | x => x

/-- The FP32 code `v` where it lies within `b` of the enclosed number, otherwise the code nearest to that number: the codes it gives for
all `v` are those the bound allows. -/
def sfWithin (b : XNum) (r : XNum × XNum) (v : Nat) : Nat :=
  let x := FF.fp32.decode v
  if XNum.le (XNum.sub r.1 b) x && XNum.le x (XNum.add r.2 b) then v else FF.fp32.encode r.1

/-- EXP2 of a finite number below 128: within 1 ulp. -/
def exp2Open (x : XNum) : Nat :=
  let r := pow2Near (XNum.floorInt (x.scale sfBits))
  sfWithin (ulps 1 r.2) r (Config.exp2 (FF.fp32.encode x)).toNat

/-- LOG2 of a positive number: within 2^-22 for inputs in [0.5, 2], elsewhere within 1 ulp. -/
def log2Open (m : Nat) (e : Int) : Nat :=
  let x : XNum := .fin false m e
  let r := log2Near m e
  let near := XNum.le (.fin false 1 (-1)) x && XNum.le x (.fin false 1 1)
  sfWithin (if near then .fin false 1 (-22) else ulps 1 r.2) r (Config.log2 (FF.fp32.encode x)).toNat

/-- RSQRT of a positive number: within 1 ulp. -/
def rsqrtOpen (x : XNum) : Nat :=
  let r := rsqrtNear x
  sfWithin (ulps 1 r.2) r (Config.rsqrt (FF.fp32.encode x)).toNat

/-- TANH of a finite number: within 2 ulp. -/
def tanhOpen (n : Bool) (m : Nat) (e : Int) : Nat :=
  let r := tanhNear m e
  let q := if n then (r.2.neg, r.1.neg) else r
  sfWithin (ulps 2 r.2) q (Config.tanh (FF.fp32.encode (.fin n m e))).toNat

end Sys2Proof.Machine
end

