-- ==== Sys2Proof/Machine/TwillFloat.lean ====
section
/-! DEFINITION. Meanings of the Twill floating-point and compare instructions (R143, R144, R159). -/

namespace Sys2Proof.Machine

/-- Element `e` of source 1, source 2 and the destination as numbers, and the immediate. -/
def UnitSt.fs1 (x : UnitSt) (w : TwillWord) (e : Nat) : XNum := readF w.ff w.ctl.val (x.elem w w.s1.val e)
def UnitSt.fs2 (x : UnitSt) (w : TwillWord) (e : Nat) : XNum := readF w.ff w.ctl.val (x.elem w w.s2.val e)
def UnitSt.fd (x : UnitSt) (w : TwillWord) (e : Nat) : XNum := readF w.ff w.ctl.val (x.elem w w.d.val e)

/-- Round an arithmetic result, with INVALID where it is a NaN made from numbers. -/
def fpOut (w : TwillWord) (ins : List XNum) (x : XNum) : Nat × Nat :=
  let r := roundF w.ff w.ctl.val true x
  (r.1, r.2 ||| invalidIf ins x)

/-- Sum, product and fused multiply-add as FADD, FSUB, FMUL and FFMA form them. -/
def fpAdd (w : TwillWord) (a b : XNum) : Nat × Nat := fpOut w [a, b] (addDir w.ctl.val a b)
def fpMul (w : TwillWord) (a b : XNum) : Nat × Nat := fpOut w [a, b] (XNum.mul a b)
def fpFma (w : TwillWord) (a b c : XNum) : Nat × Nat := fpOut w [a, b, c] (addDir w.ctl.val (XNum.mul a b) c)

/-- The immediate of element `e` as a number. -/
def fImm (w : TwillWord) (e : Nat) : XNum := readF w.ff w.ctl.val (w.immE e)

/-- FADD.VV (R143). -/
def execFaddVv (d : Die) (u : Fin 32) (w : TwillWord) (s : State) : Answer :=
  .next (twIssue d.val u.val 0x10 w s (fun op s => twElems d.val u.val op [0, 1] w s (fun w x e => fpAdd w (x.fs1 w e) (x.fs2 w e))))

/-- FADD.VI (R143). -/
def execFaddVi (d : Die) (u : Fin 32) (w : TwillWord) (s : State) : Answer :=
  .next (twIssue d.val u.val 0x11 w s (fun op s => twElems d.val u.val op [0, 1] w s (fun w x e => fpAdd w (x.fs1 w e) (fImm w e))))

/-- FSUB.VV (R143). -/
def execFsubVv (d : Die) (u : Fin 32) (w : TwillWord) (s : State) : Answer :=
  .next (twIssue d.val u.val 0x12 w s (fun op s => twElems d.val u.val op [0, 1] w s (fun w x e => fpAdd w (x.fs1 w e) (x.fs2 w e).neg)))

/-- FSUB.VI (R143). -/
def execFsubVi (d : Die) (u : Fin 32) (w : TwillWord) (s : State) : Answer :=
  .next (twIssue d.val u.val 0x13 w s (fun op s => twElems d.val u.val op [0, 1] w s (fun w x e => fpAdd w (x.fs1 w e) (fImm w e).neg)))

/-- FMUL.VV (R143). -/
def execFmulVv (d : Die) (u : Fin 32) (w : TwillWord) (s : State) : Answer :=
  .next (twIssue d.val u.val 0x14 w s (fun op s => twElems d.val u.val op [0, 1] w s (fun w x e => fpMul w (x.fs1 w e) (x.fs2 w e))))

/-- FMUL.VI (R143). -/
def execFmulVi (d : Die) (u : Fin 32) (w : TwillWord) (s : State) : Answer :=
  .next (twIssue d.val u.val 0x15 w s (fun op s => twElems d.val u.val op [0, 1] w s (fun w x e => fpMul w (x.fs1 w e) (fImm w e))))

/-- FFMA.VVV: s1 * s2 + d (R143). -/
def execFfmaVvv (d : Die) (u : Fin 32) (w : TwillWord) (s : State) : Answer :=
  .next (twIssue d.val u.val 0x16 w s (fun op s => twElems d.val u.val op [0, 1] w s (fun w x e => fpFma w (x.fs1 w e) (x.fs2 w e) (x.fd w e))))

/-- FFMA.VVI: s1 * s2 + imm (R143). -/
def execFfmaVvi (d : Die) (u : Fin 32) (w : TwillWord) (s : State) : Answer :=
  .next (twIssue d.val u.val 0x17 w s (fun op s => twElems d.val u.val op [0, 1] w s (fun w x e => fpFma w (x.fs1 w e) (x.fs2 w e) (fImm w e))))

/-- FFMA.VIV: s1 * imm + s2 (R143). -/
def execFfmaViv (d : Die) (u : Fin 32) (w : TwillWord) (s : State) : Answer :=
  .next (twIssue d.val u.val 0x18 w s (fun op s => twElems d.val u.val op [0, 1] w s (fun w x e => fpFma w (x.fs1 w e) (fImm w e) (x.fs2 w e))))

/-- The code of a number the format holds exactly. -/
def fpKeep (w : TwillWord) (x : XNum) : Nat := w.ff.encode x

/-- The larger (`big`) or smaller of two numbers: a NaN gives the canonical NaN, equal values give the first (R143). -/
def fpPick (w : TwillWord) (big : Bool) (a b : XNum) : Nat :=
  if a.isNan || b.isNan then w.ff.qnan
  else if (if big then XNum.lt a b else XNum.lt b a) then fpKeep w b else fpKeep w a

/-- A code with a subnormal read as zero of its sign when subnormals are flushed. -/
def flushCode (w : TwillWord) (c : Nat) : Nat :=
  if ctlFlush w.ctl.val && decide (c % w.ff.signBit < 2 ^ w.ff.mb) then c / w.ff.signBit * w.ff.signBit else c

/-- FMAX (R143). -/
def execFmax (d : Die) (u : Fin 32) (w : TwillWord) (s : State) : Answer :=
  .next (twIssue d.val u.val 0x19 w s (fun op s => twElems d.val u.val op [0, 1] w s (fun w x e => (fpPick w true (x.fs1 w e) (x.fs2 w e), 0))))

/-- FMIN (R143). -/
def execFmin (d : Die) (u : Fin 32) (w : TwillWord) (s : State) : Answer :=
  .next (twIssue d.val u.val 0x1A w s (fun op s => twElems d.val u.val op [0, 1] w s (fun w x e => (fpPick w false (x.fs1 w e) (x.fs2 w e), 0))))

/-- FABS: clears the sign bit, of a NaN too (R143). -/
def execFabs (d : Die) (u : Fin 32) (w : TwillWord) (s : State) : Answer :=
  .next (twIssue d.val u.val 0x1B w s (fun op s => twElems d.val u.val op [0, 1] w s (fun w x e => (flushCode w (x.elem w w.s1.val e) % w.ff.signBit, 0))))

/-- FNEG: inverts the sign bit, of a NaN too (R143). -/
def execFneg (d : Die) (u : Fin 32) (w : TwillWord) (s : State) : Answer :=
  .next (twIssue d.val u.val 0x1C w s (fun op s => twElems d.val u.val op [0, 1] w s (fun w x e => ((flushCode w (x.elem w w.s1.val e) + w.ff.signBit) % (2 * w.ff.signBit), 0))))

/-! ### Compares (R144) -/

/-- A floating compare condition; false on a NaN but for NE and UNORD. -/
def fCond (c : Nat) (a b : XNum) : Bool :=
  let un := a.isNan || b.isNan
  match c with
  | 0 => XNum.eq a b
  | 1 => !(XNum.eq a b)
  | 2 => XNum.lt a b
  | 3 => XNum.le a b
  | 4 => XNum.lt b a
  | 5 => XNum.le b a
  | 6 => un
  | _ => !un

/-- A signed integer compare condition. -/
def iCond (c : Nat) (a b : Int) : Bool :=
  match c with
  | 0 => decide (a = b)
  | 1 => decide (a ≠ b)
  | 2 => decide (a < b)
  | 3 => decide (a ≤ b)
  | 4 => decide (b < a)
  | _ => decide (b ≤ a)

/-- A compare: the mask bits of the active elements from `f`, inactive ones kept or zeroed; on 32-bit elements bits 64 to 127 clear.
Destination bits [4:3] must be zero and the condition must suit the type (R139, R144). -/
def twCompare (d u op : Nat) (tys : List Nat) (w : TwillWord) (s : State) (f : UnitSt → Nat → Bool) : State :=
  if tys.contains w.ty.val && decide (w.d.val < 8) && (w.isFloat || decide (w.ctl.val < 6)) then
    let x := s.unit (d * 32 + u)
    let old := x.maskR w.d.val
    let bits := (List.range w.elems).foldl (fun a e =>
      let b := if x.active w e then f x e else if w.zero then false else old.testBit e
      if b then a + 2 ^ e else a) 0
    twDone d u false 0 (x.setMask w.d.val bits) s
  else twIllegal d u op s

/-- A compare reads its operands without flushing: its control field holds the condition. -/
def UnitSt.fc (x : UnitSt) (w : TwillWord) (r e : Nat) : XNum := w.ff.decode (x.elem w r e)

/-- FCMP.VV (R144). -/
def execFcmpVv (d : Die) (u : Fin 32) (w : TwillWord) (s : State) : Answer :=
  .next (twIssue d.val u.val 0x30 w s (fun op s => twCompare d.val u.val op [0, 1] w s (fun x e => fCond w.ctl.val (x.fc w w.s1.val e) (x.fc w w.s2.val e))))

/-- FCMP.VI (R144). -/
def execFcmpVi (d : Die) (u : Fin 32) (w : TwillWord) (s : State) : Answer :=
  .next (twIssue d.val u.val 0x31 w s (fun op s => twCompare d.val u.val op [0, 1] w s (fun x e => fCond w.ctl.val (x.fc w w.s1.val e) (w.ff.decode (w.immE e)))))

/-- ICMP.VV (R144). -/
def execIcmpVv (d : Die) (u : Fin 32) (w : TwillWord) (s : State) : Answer :=
  .next (twIssue d.val u.val 0x32 w s (fun op s => twCompare d.val u.val op [2, 3] w s (fun x e => iCond w.ctl.val (sext w.bits (x.elem w w.s1.val e)) (sext w.bits (x.elem w w.s2.val e)))))

/-- ICMP.VI (R144). -/
def execIcmpVi (d : Die) (u : Fin 32) (w : TwillWord) (s : State) : Answer :=
  .next (twIssue d.val u.val 0x33 w s (fun op s => twCompare d.val u.val op [2, 3] w s (fun x e => iCond w.ctl.val (sext w.bits (x.elem w w.s1.val e)) (sext w.bits (w.immE e)))))

/-! ### Special functions (R159) -/

/-- An FP32 result value with flags, for an FP32 input: NaN gives the canonical NaN without a flag. -/
def sfNan : Nat × Nat := (FF.fp32.qnan, 0)

/-- Whether |x| = 2^k for an integer k. -/
def isPow2 : XNum → Bool
  | .fin _ m _ => decide (0 < m) && decide (2 ^ Nat.log2 m = m)
  | _ => false

/-- The flags of a result whose value the spec leaves open within a bound: OF where it is infinite, UF where tiny and inexact, NX where
inexact. -/
def sfFlags (v : Nat) (exact : Bool) : Nat :=
  let mag := v % 2 ^ 31
  if FF.fp32.infCode ≤ mag then flOF ||| flNX
  else if exact then 0
  else if mag < 2 ^ 23 then flUF ||| flNX else flNX

/-- EXP2: the value is open within 1 ulp (R159); exact only for an integer input whose power the result equals. -/
def sfExp2 (x : XNum) : Nat × Nat :=
  match x with
  | .nan => sfNan
  | .inf n => (if n then 0 else FF.fp32.infCode, 0)
  | .fin n m e =>
    if XNum.le (.fin false 1 7) (.fin n m e) then (FF.fp32.infCode, flOF ||| flNX)
    else
      let v := exp2Open x
      let z := XNum.floorInt x
      (v, sfFlags v (XNum.eq (XNum.ofInt z) x && XNum.eq (FF.fp32.decode v) (.fin false 1 z)))

/-- LOG2: special results of R159; otherwise open within its bound. -/
def sfLog2 (x : XNum) : Nat × Nat :=
  match x with
  | .nan => sfNan
  | .inf n => if n then (FF.fp32.qnan, flNV) else (FF.fp32.infCode, 0)
  | .fin n m e =>
    if m = 0 then (FF.fp32.infCode + FF.fp32.signBit, flDZ)
    else if n then (FF.fp32.qnan, flNV)
    else if XNum.eq x (.fin false 1 0) then (0, 0)
    else
      let v := log2Open m e
      let exact := isPow2 x && XNum.eq (FF.fp32.decode v) (XNum.ofInt (lg m e))
      (v, if exact then 0 else flNX)

/-- RCP: correctly rounded (R159). -/
def sfRcp (c : Nat) (x : XNum) : Nat × Nat :=
  match x with
  | .nan => sfNan
  | .inf n => (FF.fp32.withSign n 0, 0)
  | .fin n m e =>
    if m = 0 then (FF.fp32.withSign n FF.fp32.infCode, flDZ)
    else roundF FF.fp32 c false (XNum.div (.fin false 1 0) (.fin n m e))

/-- RSQRT: special results of R159; otherwise open within 1 ulp. -/
def sfRsqrt (x : XNum) : Nat × Nat :=
  match x with
  | .nan => sfNan
  | .inf n => if n then (FF.fp32.qnan, flNV) else (0, 0)
  | .fin n m e =>
    if m = 0 then (FF.fp32.withSign n FF.fp32.infCode, flDZ)
    else if n then (FF.fp32.qnan, flNV)
    else
      let v := rsqrtOpen x
      let exact := isPow2 x && decide (lg m e % 2 = 0) && XNum.eq (FF.fp32.decode v) (.fin false 1 (-(lg m e) / 2))
      (v, if exact then 0 else flNX)

/-- TANH: special results of R159; otherwise open within 2 ulp. -/
def sfTanh (x : XNum) : Nat × Nat :=
  match x with
  | .nan => sfNan
  | .inf n => (FF.fp32.withSign n 0x3F800000, 0)
  | .fin n m e =>
    if XNum.lt (.fin false m e) (.fin false 1 (-12)) then
      let v := FF.fp32.encode x
      (v, sfFlags v (decide (m = 0)))
    else if XNum.le (XNum.ratio 901 100) (.fin false m e) then (FF.fp32.withSign n 0x3F800000, flNX)
    else
      let v := tanhOpen n m e
      (v, sfFlags v false)

/-- A special function on an element: BF16 forms round the FP32 result to BF16; a subnormal result is flushed where the control code
says so. -/
def sfElem (w : TwillWord) (f : XNum → Nat × Nat) (x : XNum) : Nat × Nat :=
  let r := f x
  let q := roundF w.ff w.ctl.val false (FF.fp32.decode r.1)
  (q.1, q.2 ||| r.2)

/-- EXP2 (R159). -/
def execExp2 (d : Die) (u : Fin 32) (w : TwillWord) (s : State) : Answer :=
  .next (twIssue d.val u.val 0x48 w s (fun op s => twElems d.val u.val op [0, 1] w s (fun w x e => sfElem w sfExp2 (x.fs1 w e))))

/-- LOG2 (R159). -/
def execLog2 (d : Die) (u : Fin 32) (w : TwillWord) (s : State) : Answer :=
  .next (twIssue d.val u.val 0x49 w s (fun op s => twElems d.val u.val op [0, 1] w s (fun w x e => sfElem w sfLog2 (x.fs1 w e))))

/-- RCP (R159). -/
def execRcp (d : Die) (u : Fin 32) (w : TwillWord) (s : State) : Answer :=
  .next (twIssue d.val u.val 0x4A w s (fun op s => twElems d.val u.val op [0, 1] w s (fun w x e => sfElem w (sfRcp w.ctl.val) (x.fs1 w e))))

/-- RSQRT (R159). -/
def execRsqrt (d : Die) (u : Fin 32) (w : TwillWord) (s : State) : Answer :=
  .next (twIssue d.val u.val 0x4B w s (fun op s => twElems d.val u.val op [0, 1] w s (fun w x e => sfElem w sfRsqrt (x.fs1 w e))))

/-- TANH (R159). -/
def execTanh (d : Die) (u : Fin 32) (w : TwillWord) (s : State) : Answer :=
  .next (twIssue d.val u.val 0x4C w s (fun op s => twElems d.val u.val op [0, 1] w s (fun w x e => sfElem w sfTanh (x.fs1 w e))))

end Sys2Proof.Machine
end

