-- ==== Sys2Proof/Machine/TwillInt.lean ====
section
/-! DEFINITION. Meanings of the Twill integer, mask, select and set-up instructions (R143, R147). -/

namespace Sys2Proof.Machine

/-- NOP (R143). -/
def execNop (d : Die) (u : Fin 32) (w : TwillWord) (s : State) : Answer :=
  .next (twIssue d.val u.val 0x00 w s (fun op s => twRun d.val u.val op [0, 1, 2, 3] w s (fun _ x => (x, 0))))

/-- VSETVL: 0 is treated as 1, values above 64 as 64 (R143). -/
def execVsetvl (d : Die) (u : Fin 32) (w : TwillWord) (s : State) : Answer :=
  .next (twIssue d.val u.val 0x01 w s (fun op s => twRun d.val u.val op [0, 1, 2, 3] w s (fun w x =>
    ({ x with vl := max 1 (min 64 (w.imm.toNat % 128)) }, 0))))

/-- VSETSR: the tensor and the high index bits; SR_OK from the format table's entry (R147). -/
def execVsetsr (d : Die) (u : Fin 32) (w : TwillWord) (s : State) : Answer :=
  let t := w.imm.toNat / 256
  let ok := ((s.fmtOf (s.unitTask d.val u.val)).find t).elim false (·.sr)
  .next (twIssue d.val u.val 0x02 w s (fun op s => twRun d.val u.val op [0, 1, 2, 3] w s (fun w x =>
    ({ x with srTensor := t, srHi := w.imm.toNat % 256, srOk := ok }, 0))))

/-- VSETSRI (R143). -/
def execVsetsri (d : Die) (u : Fin 32) (w : TwillWord) (s : State) : Answer :=
  .next (twIssue d.val u.val 0x03 w s (fun op s => twRun d.val u.val op [0, 1, 2, 3] w s (fun w x => ({ x with srBase := w.imm.toNat }, 0))))

/-- Signed elements of source 1, source 2 and the immediate. -/
def UnitSt.is1 (x : UnitSt) (w : TwillWord) (e : Nat) : Int := sext w.bits (x.elem w w.s1.val e)
def UnitSt.is2 (x : UnitSt) (w : TwillWord) (e : Nat) : Int := sext w.bits (x.elem w w.s2.val e)

/-- An integer result wrapped to the element (R143). -/
def iOut (w : TwillWord) (z : Int) : Nat × Nat := (toTwos w.bits z, 0)

/-- The shift amount: imm[4:0] for INT32, imm[3:0] for INT16. -/
def shAmt (w : TwillWord) : Nat := if w.half then w.imm.toNat % 16 else w.imm.toNat % 32

/-- VIOTA: each element's index (R143). -/
def execViota (d : Die) (u : Fin 32) (w : TwillWord) (s : State) : Answer :=
  .next (twIssue d.val u.val 0x04 w s (fun op s => twElems d.val u.val op [2, 3] w s (fun w x e => (let _ := w; let _ := x; (e, 0)))))

/-- IADD.VV (R143). -/
def execIaddVv (d : Die) (u : Fin 32) (w : TwillWord) (s : State) : Answer :=
  .next (twIssue d.val u.val 0x20 w s (fun op s => twElems d.val u.val op [2, 3] w s (fun w x e => iOut w (x.is1 w e + x.is2 w e))))

/-- IADD.VI (R143). -/
def execIaddVi (d : Die) (u : Fin 32) (w : TwillWord) (s : State) : Answer :=
  .next (twIssue d.val u.val 0x21 w s (fun op s => twElems d.val u.val op [2, 3] w s (fun w x e => iOut w (x.is1 w e + sext w.bits (w.immE e)))))

/-- ISUB.VV (R143). -/
def execIsub (d : Die) (u : Fin 32) (w : TwillWord) (s : State) : Answer :=
  .next (twIssue d.val u.val 0x22 w s (fun op s => twElems d.val u.val op [2, 3] w s (fun w x e => iOut w (x.is1 w e - x.is2 w e))))

/-- IMUL.VV: the low half (R143). -/
def execImul (d : Die) (u : Fin 32) (w : TwillWord) (s : State) : Answer :=
  .next (twIssue d.val u.val 0x23 w s (fun op s => twElems d.val u.val op [2, 3] w s (fun w x e => iOut w (x.is1 w e * x.is2 w e))))

/-- IMAX, signed (R143). -/
def execImax (d : Die) (u : Fin 32) (w : TwillWord) (s : State) : Answer :=
  .next (twIssue d.val u.val 0x24 w s (fun op s => twElems d.val u.val op [2, 3] w s (fun w x e => iOut w (max (x.is1 w e) (x.is2 w e)))))

/-- IMIN, signed (R143). -/
def execImin (d : Die) (u : Fin 32) (w : TwillWord) (s : State) : Answer :=
  .next (twIssue d.val u.val 0x25 w s (fun op s => twElems d.val u.val op [2, 3] w s (fun w x e => iOut w (min (x.is1 w e) (x.is2 w e)))))

/-- AND (R143). -/
def execVand (d : Die) (u : Fin 32) (w : TwillWord) (s : State) : Answer :=
  .next (twIssue d.val u.val 0x26 w s (fun op s => twElems d.val u.val op [2, 3] w s (fun w x e => (x.elem w w.s1.val e &&& x.elem w w.s2.val e, 0))))

/-- OR (R143). -/
def execVor (d : Die) (u : Fin 32) (w : TwillWord) (s : State) : Answer :=
  .next (twIssue d.val u.val 0x27 w s (fun op s => twElems d.val u.val op [2, 3] w s (fun w x e => (x.elem w w.s1.val e ||| x.elem w w.s2.val e, 0))))

/-- XOR (R143). -/
def execVxor (d : Die) (u : Fin 32) (w : TwillWord) (s : State) : Answer :=
  .next (twIssue d.val u.val 0x28 w s (fun op s => twElems d.val u.val op [2, 3] w s (fun w x e => (x.elem w w.s1.val e ^^^ x.elem w w.s2.val e, 0))))

/-- SHL (R143). -/
def execShl (d : Die) (u : Fin 32) (w : TwillWord) (s : State) : Answer :=
  .next (twIssue d.val u.val 0x29 w s (fun op s => twElems d.val u.val op [2, 3] w s (fun w x e => (x.elem w w.s1.val e <<< shAmt w, 0))))

/-- SHRA, arithmetic (R143). -/
def execShra (d : Die) (u : Fin 32) (w : TwillWord) (s : State) : Answer :=
  .next (twIssue d.val u.val 0x2A w s (fun op s => twElems d.val u.val op [2, 3] w s (fun w x e => iOut w (x.is1 w e >>> shAmt w))))

/-- SHRL, logical (R143). -/
def execShrl (d : Die) (u : Fin 32) (w : TwillWord) (s : State) : Answer :=
  .next (twIssue d.val u.val 0x2B w s (fun op s => twElems d.val u.val op [2, 3] w s (fun w x e => (x.elem w w.s1.val e >>> shAmt w, 0))))

/-- A mask instruction over 128 bits: bits [2:0] of the register fields name mask registers (R139). -/
def twMask (d u op : Nat) (w : TwillWord) (s : State) (f : Nat → Nat → Nat) : State :=
  twRun d u op [0, 1, 2, 3] w s (fun w x => (x.setMask (w.d.val % 8) (f (x.maskR (w.s1.val % 8)) (x.maskR (w.s2.val % 8))), 0))

/-- MAND (R143). -/
def execMand (d : Die) (u : Fin 32) (w : TwillWord) (s : State) : Answer := .next (twIssue d.val u.val 0x34 w s (fun op s => twMask d.val u.val op w s (fun a b => a &&& b)))
/-- MOR (R143). -/
def execMor (d : Die) (u : Fin 32) (w : TwillWord) (s : State) : Answer := .next (twIssue d.val u.val 0x35 w s (fun op s => twMask d.val u.val op w s (fun a b => a ||| b)))
/-- MXOR (R143). -/
def execMxor (d : Die) (u : Fin 32) (w : TwillWord) (s : State) : Answer := .next (twIssue d.val u.val 0x36 w s (fun op s => twMask d.val u.val op w s (fun a b => a ^^^ b)))
/-- MANDN: s1 AND NOT s2 (R143). -/
def execMandn (d : Die) (u : Fin 32) (w : TwillWord) (s : State) : Answer :=
  .next (twIssue d.val u.val 0x37 w s (fun op s => twMask d.val u.val op w s (fun a b => a &&& ((2 ^ 128 - 1) ^^^ b))))

/-- VSEL: s1 where the mask bit is 1, otherwise s2, for the elements below VL (R143). DESIGN CHOICE: as every move of
whole lanes (type any), it moves the bits of float subnormals unchanged under the flush codes; R141 does not name moves. -/
def execVsel (d : Die) (u : Fin 32) (w : TwillWord) (s : State) : Answer :=
  .next (twIssue d.val u.val 0x38 w s (fun op s => twRun d.val u.val op [0, 1, 2, 3] w s (fun w x =>
    (x.setElems { w with m := 0 } (fun e =>
      if (x.maskR w.m.val).testBit e then x.elem w w.s1.val e else x.elem w w.s2.val e), 0))))

/-- An instruction word that is illegal without an instruction of the table (R142): its opcode is absent. A word whose opcode is in the table
but whose type, selector or field is not legal is the command of that instruction. -/
def twIllegalOp (d u op : Nat) (s : State) : State := if s.issuesOp d u op && !(twOpcode op) then twIllegal d u op s else s

/-- TWILL_ILLEGAL: an absent opcode (R142). -/
def execTwillIllegal (d : Die) (u : Fin 32) (op : Fin 256) (s : State) : Answer := .next (twIllegalOp d.val u.val op.val s)

end Sys2Proof.Machine
end

