-- ==== Sys2Proof/Machine/TwillMem.lean ====
section
/-! DEFINITION. Meanings of the Twill loads, stores and barriers (R150, R151). -/

namespace Sys2Proof.Machine

/-- A byte of unit memory or of the die's exchange memory. -/
def State.twByte (s : State) (d u : Nat) (exch : Bool) (a : Nat) : Byte :=
  if exch then SMap.get (fun _ => 0) s.mem.exch (d * 2 ^ 22 + a)
  else SMap.get (fun _ => 0) (s.unit (d * 32 + u)).mem a

def State.setTwByte (s : State) (d u : Nat) (exch : Bool) (a : Nat) (b : Byte) : State :=
  if exch then s.modMem (fun m => { m with exch := SMap.set (fun _ => 0) m.exch (d * 2 ^ 22 + a) b })
  else
    let x := s.unit (d * 32 + u)
    s.setUnit (d * 32 + u) { x with mem := SMap.set (fun _ => 0) x.mem a b }

/-- The operands of a load or store: byte count, exchange memory, address, size of the memory (R150). -/
def TwillWord.memOp (w : TwillWord) (x : UnitSt) : Nat × Bool × Nat × Nat :=
  let i := w.imm.toNat
  let exch := i.testBit 23
  let off := i % 2 ^ 23
  let c := i / 2 ^ 24
  let a := if exch then off else x.base + off
  (c, exch, if c = 0 then a / 4 * 4 else a, if exch then 2 ^ 22 else 2 ^ 18)

/-- Lanes that a load or store with c = 0 moves. -/
def UnitSt.memLanes (x : UnitSt) (w : TwillWord) : List Nat := (List.range 64).filter (x.laneActive w)

/-- Whether the access would reach beyond the memory. -/
def memBeyond (x : UnitSt) (w : TwillWord) (c a size : Nat) : Bool :=
  if c = 0 then (x.memLanes w).any (fun i => decide (size < a + 4 * i + 4)) else decide (size < a + c)

/-- An access out of range: MEM_RANGE, recorded and logged; nothing moves. -/
def twMemRange (d u op : Nat) (w : TwillWord) (s : State) : State :=
  let s := twFault d u op 1 s
  twDone d u (ctlNoFlag w.ctl.val) flMem (s.unit (d * 32 + u)) s

/-- VLD (R150). -/
def vld (d u : Nat) (w : TwillWord) (s : State) : State :=
  let s := if w.ctl = 7 then twIllMark d u 0x08 s else s
  let x := s.unit (d * 32 + u)
  let p := TwillWord.memOp w x
  let c := p.1
  let a := p.2.2.1
  if memBeyond x w c a p.2.2.2 then twMemRange d u 0x08 w s
  else
    let rd := fun (k n : Nat) => BitVec.ofNat 32 (ofLe ((List.range n).map (fun j => s.twByte d u p.2.1 (a + k + j))))
    let lane := fun (i : Nat) =>
      let old := if w.zero then 0 else x.lane w.d.val i
      if c = 0 then (if x.laneActive w i then rd (4 * i) 4 else old)
      else if 4 * i + 4 ≤ c then rd (4 * i) 4
      else if 4 * i < c then
        let n := c - 4 * i
        setFld old (8 * n - 1) 0 (rd (4 * i) n).toNat
      else old
    twDone d u (ctlNoFlag w.ctl.val) 0 (x.setLanes w.d.val lane) s

def execVld (d : Die) (u : Fin 32) (w : TwillWord) (s : State) : Answer := .next (twIssue d.val u.val 0x08 w s (fun _ s => vld d.val u.val w s))

/-- VST (R150): source 1 is stored. -/
def vst (d u : Nat) (w : TwillWord) (s : State) : State :=
  let s := if w.ctl = 7 then twIllMark d u 0x09 s else s
  let x := s.unit (d * 32 + u)
  let p := TwillWord.memOp w x
  let c := p.1
  let a := p.2.2.1
  if memBeyond x w c a p.2.2.2 then twMemRange d u 0x09 w s
  else
    let byteAt := fun (k : Nat) => byteOf ((x.lane w.s1.val (k / 4)).toNat / 2 ^ (8 * (k % 4)))
    let ks := if c = 0 then (x.memLanes w).flatMap (fun i => [4 * i, 4 * i + 1, 4 * i + 2, 4 * i + 3]) else List.range c
    let s := ks.foldl (fun s k => s.setTwByte d u p.2.1 (a + k) (byteAt k)) s
    twDone d u (ctlNoFlag w.ctl.val) 0 (s.unit (d * 32 + u)) s

def execVst (d : Die) (u : Fin 32) (w : TwillWord) (s : State) : Answer := .next (twIssue d.val u.val 0x09 w s (fun _ s => vst d.val u.val w s))

/-- VBAR: the unit waits at barrier imm[7:0] (R151). -/
def vbar (d u : Nat) (w : TwillWord) (s : State) : State :=
  let s := if w.ctl = 7 then twIllMark d u 0x0A s else s
  s.setUnit (d * 32 + u) { s.unit (d * 32 + u) with bar := some (w.imm.toNat % 256) }

def execVbar (d : Die) (u : Fin 32) (w : TwillWord) (s : State) : Answer := .next (twIssue d.val u.val 0x0A w s (fun _ s => vbar d.val u.val w s))

/-- Leave the barrier: the program goes on after its VBAR. -/
def barLeave (d : Nat) (s : State) (u : Nat) : State :=
  twAdvance d u (s.setUnit (d * 32 + u) { s.unit (d * 32 + u) with bar := none })

/-- The unit has issued its VBAR with number `n`: it waits there, or it has left by a timeout. -/
def UnitSt.reached (x : UnitSt) (n : Nat) : Bool := decide (x.bar = some n) || x.past.contains n

/-- A unit passes a barrier that all have reached: one that waits there goes on, one that left it before forgets it. -/
def barPass (d n : Nat) (s : State) (u : Nat) : State :=
  let x := s.unit (d * 32 + u)
  if x.bar = some n then barLeave d s u else s.setUnit (d * 32 + u) { x with past := x.past.erase n }

/-- BARRIER_RELEASE: every unit of the task has issued VBAR with the number, and all go on (R151). -/
def barrierRelease (d slot n : Nat) (s : State) : State :=
  let us := (List.range 32).filter (fun u => decide ((s.unit (d * 32 + u)).slot = some slot))
  if !us.isEmpty && us.all (fun u => (s.unit (d * 32 + u)).reached n) then us.foldl (barPass d n) s else s

def execBarrierRelease (d : Die) (slot : Fin 4096) (n : Fin 256) (s : State) : Answer :=
  .next (barrierRelease d.val slot.val n.val s)

/-- BARRIER_TIMEOUT: a VBAR not released within 65,536 cycles releases, sets ILLEGAL and records BAR_TIMEOUT (R151); for the other units
this unit has issued its VBAR. -/
def barrierTimeout (d u : Nat) (s : State) : State :=
  match (s.unit (d * 32 + u)).bar with
  | some n =>
    let s := twFault d u 0x0A 2 s
    let x := s.unit (d * 32 + u)
    barLeave d (s.setUnit (d * 32 + u) { x with flags := x.flags ||| flIll, past := x.past ++ [n] }) u
  | none => s

def execBarrierTimeout (d : Die) (u : Fin 32) (s : State) : Answer := .next (barrierTimeout d.val u.val s)

end Sys2Proof.Machine
end

