-- ==== Sys2Proof/Machine/TwillReduce.lean ====
section
/-! DEFINITION. Meanings of the Twill reductions and permutations (R153 to R158). -/

namespace Sys2Proof.Machine

/-! ### Reductions -/

/-- An element as a reduction widens it: BF16 to FP32, INT16 to INT32 (R153). -/
def UnitSt.wide (x : UnitSt) (w : TwillWord) (e : Nat) : Nat :=
  let c := x.elem w w.s1.val e
  if w.isFloat then
    (if w.ty = 1 then
      (let v := if ctlFlush w.ctl.val && decide (c % 2 ^ 15 < 2 ^ 7) then c / 2 ^ 15 * 2 ^ 15 else c
       v * 65536)
     else if ctlFlush w.ctl.val && decide (c % 2 ^ 31 < 2 ^ 23) then c / 2 ^ 31 * 2 ^ 31 else c)
  else toTwos 32 (sext w.bits c)

/-- left + right with one rounding (FP32), or modulo 2^32; with flags. DEDUCED: infinity minus infinity sets no INVALID, since the flag column of
R143 leaves it out for the sums. -/
def sumTwo (w : TwillWord) (a b : Nat) : Nat × Nat :=
  if w.isFloat then
    let r := roundF FF.fp32 w.ctl.val false (XNum.add (readF FF.fp32 w.ctl.val a) (readF FF.fp32 w.ctl.val b))
    r
  else ((a + b) % 2 ^ 32, 0)

/-- A node of the tree: absent, or a value with the flags met below it. -/
abbrev SumNode := Option (Nat × Nat)

def joinNode (w : TwillWord) (a b : SumNode) : SumNode :=
  match a, b with
  | none, y => y
  | x, none => x
  | some x, some y =>
    let r := sumTwo w x.1 y.1
    some (r.1, r.2 ||| x.2 ||| y.2)

/-- One level of the tree: adjacent pairs combine. -/
def treeLevel (w : TwillWord) : List SumNode → List SumNode
  | a :: b :: rest => joinNode w a b :: treeLevel w rest
  | l => l

def treeLevels (w : TwillWord) : Nat → List SumNode → List SumNode
  | 0, l => l
  | n + 1, l => treeLevels w n (treeLevel w l)

/-- Write a reduction's value and second word to lanes 0 and 1; lanes 2 to 63 are kept or zeroed (R156). -/
def UnitSt.setRed (x : UnitSt) (w : TwillWord) (v c : Nat) : UnitSt :=
  x.setLanes w.d.val (fun i =>
    if i = 0 then BitVec.ofNat 32 v else if i = 1 then BitVec.ofNat 32 c
    else if w.zero then 0 else x.lane w.d.val i)

/-- The active elements in ascending order. -/
def UnitSt.actives (x : UnitSt) (w : TwillWord) : List Nat := (List.range w.elems).filter (x.active w)

/-- RSUMT: the fixed pairwise tree, 6 levels over 64 elements or 7 over 128 (R153). -/
def rsumt (w : TwillWord) (x : UnitSt) : UnitSt × Nat :=
  let leaves := (List.range w.elems).map (fun e => if x.active w e then some (x.wide w e, 0) else none)
  match (treeLevels w (if w.half then 7 else 6) leaves).head? with
  | some (some r) => (x.setRed w r.1 (x.actives w).length, r.2)
  | _ => (x.setRed w 0 0, flEmpty)

/-- RSUMS: strictly ascending (R154). -/
def rsums (w : TwillWord) (x : UnitSt) : UnitSt × Nat :=
  match x.actives w with
  | [] => (x.setRed w 0 0, flEmpty)
  | e :: es =>
    let r := es.foldl (fun (a : Nat × Nat) i =>
      let t := sumTwo w a.1 (x.wide w i)
      (t.1, t.2 ||| a.2)) (x.wide w e, 0)
    (x.setRed w r.1 (es.length + 1), r.2)

/-- RMAX (`big`) or RMIN: the extreme and its index, ties to the lowest, a NaN wins (R155); the empty results are those of R156. -/
def rext (big : Bool) (w : TwillWord) (x : UnitSt) : UnitSt × Nat :=
  let acts := x.actives w
  let val := fun (e : Nat) => x.wide w e
  if acts = [] then
    let v := if w.isFloat then (if big then 0xFF800000 else 0x7F800000) else (if big then 0x80000000 else 0x7FFFFFFF)
    (x.setRed w v 0xFFFF, flEmpty)
  else if w.isFloat then
    match acts.find? (fun e => (f32 (BitVec.ofNat 32 (val e))).isNan) with
    | some e => (x.setRed w 0x7FC00000 e, 0)
    | none =>
      let best := acts.foldl (fun b e =>
        let p := f32 (BitVec.ofNat 32 (val b))
        let q := f32 (BitVec.ofNat 32 (val e))
        if (if big then XNum.lt p q else XNum.lt q p) then e else b) (acts.headD 0)
      (x.setRed w (val best) best, 0)
  else
    let best := acts.foldl (fun b e =>
      let p := sext 32 (val b)
      let q := sext 32 (val e)
      if (if big then decide (p < q) else decide (q < p)) then e else b) (acts.headD 0)
    (x.setRed w (val best) best, 0)

/-- RSUMT (R153). -/
def execRsumt (d : Die) (u : Fin 32) (w : TwillWord) (s : State) : Answer :=
  .next (twIssue d.val u.val 0x50 w s (fun op s => twRun d.val u.val op [0, 1, 2, 3] w s rsumt))

/-- RSUMS (R154). -/
def execRsums (d : Die) (u : Fin 32) (w : TwillWord) (s : State) : Answer :=
  .next (twIssue d.val u.val 0x51 w s (fun op s => twRun d.val u.val op [0, 1, 2, 3] w s rsums))

/-- RMAX (R155). -/
def execRmax (d : Die) (u : Fin 32) (w : TwillWord) (s : State) : Answer :=
  .next (twIssue d.val u.val 0x52 w s (fun op s => twRun d.val u.val op [0, 1, 2, 3] w s (rext true)))

/-- RMIN (R155). -/
def execRmin (d : Die) (u : Fin 32) (w : TwillWord) (s : State) : Answer :=
  .next (twIssue d.val u.val 0x53 w s (fun op s => twRun d.val u.val op [0, 1, 2, 3] w s (rext false)))

/-! ### Permutations (R158) -/

/-- Move whole lanes: lane `i` takes source lane `src i`; an index at or beyond VL makes it zero or keeps it, and sets PERM_RANGE. -/
def permute (src : UnitSt → TwillWord → Nat → Nat) (w : TwillWord) (x : UnitSt) : UnitSt × Nat :=
  let beyond := fun (i : Nat) => decide (x.vl ≤ src x w i)
  (x.setLanes w.d.val (fun i =>
     if x.laneActive w i && !(beyond i) then x.lane w.s1.val (src x w i)
     else if w.zero then 0 else x.lane w.d.val i),
   if (List.range 64).any (fun i => x.laneActive w i && beyond i) then flPerm else 0)

/-- VPERM. -/
def execVperm (d : Die) (u : Fin 32) (w : TwillWord) (s : State) : Answer :=
  .next (twIssue d.val u.val 0x58 w s (fun op s => twRun d.val u.val op [0, 1, 2, 3] w s (permute (fun x w i => (x.lane w.s2.val i).toNat))))

/-- VSPLAT. -/
def execVsplat (d : Die) (u : Fin 32) (w : TwillWord) (s : State) : Answer :=
  .next (twIssue d.val u.val 0x59 w s (fun op s => twRun d.val u.val op [0, 1, 2, 3] w s (permute (fun _ w _ => w.imm.toNat % 128))))

/-- VSLIDEDN. -/
def execVslidedn (d : Die) (u : Fin 32) (w : TwillWord) (s : State) : Answer :=
  .next (twIssue d.val u.val 0x5A w s (fun op s => twRun d.val u.val op [0, 1, 2, 3] w s (permute (fun _ w i => i + w.imm.toNat % 128))))

/-- VSLIDEUP: an index below 0 is a large unsigned value. -/
def execVslideup (d : Die) (u : Fin 32) (w : TwillWord) (s : State) : Answer :=
  .next (twIssue d.val u.val 0x5B w s (fun op s => twRun d.val u.val op [0, 1, 2, 3] w s
    (permute (fun _ w i => if w.imm.toNat % 128 ≤ i then i - w.imm.toNat % 128 else 2 ^ 32 + i - w.imm.toNat % 128))))

end Sys2Proof.Machine
end

