-- ==== Sys2Proof/Machine/Dispatch.lean ====
section
/-! DEFINITION. The meaning of every command: one arm per constructor of `Instr`, each one direct call. -/

namespace Sys2Proof.Machine

def exec (i : Instr) (s : State) : Host.Outcome State Fault Refusal :=
  match i with
  | .registerWrite rq off v => Sys2Proof.Machine.execRegisterWrite rq off v s
  | .pairLoRead rq off => Sys2Proof.Machine.execPairLoRead rq off s
  | .unassignedAccess rq off wr => Sys2Proof.Machine.execUnassignedAccess rq off wr s
  | .bar0BadAccess kind off len wr => Sys2Proof.Machine.execBar0BadAccess kind off len wr s
  | .trainingStart => Sys2Proof.Machine.execTrainingStart s
  | .newStepBoundary => Sys2Proof.Machine.execNewStepBoundary s
  | .repeatBoundary => Sys2Proof.Machine.execRepeatBoundary s
  | .memberReady => Sys2Proof.Machine.execMemberReady s
  | .firstPassToken t => Sys2Proof.Machine.execFirstPassToken t s
  | .secondPassToken t => Sys2Proof.Machine.execSecondPassToken t s
  | .groupHoldRelease => Sys2Proof.Machine.execGroupHoldRelease s
  | .abortRequest c => Sys2Proof.Machine.execAbortRequest c s
  | .abortRequestTimeout => Sys2Proof.Machine.execAbortRequestTimeout s
  | .commitTimeout => Sys2Proof.Machine.execCommitTimeout s
  | .secondPassTimeout => Sys2Proof.Machine.execSecondPassTimeout s
  | .decisionQuery c => Sys2Proof.Machine.execDecisionQuery c s
  | .decisionReply c => Sys2Proof.Machine.execDecisionReply c s
  | .decisionDirect c => Sys2Proof.Machine.execDecisionDirect c s
  | .committedWindowRead off len => Sys2Proof.Machine.execCommittedWindowRead off len s
  | .committedWindowWrite off bytes => Sys2Proof.Machine.execCommittedWindowWrite off bytes s
  | .stepRecordRingWrite off bytes => Sys2Proof.Machine.execStepRecordRingWrite off bytes s
  | .stepDecideNone rq => Sys2Proof.Machine.execStepDecideNone rq s
  | .stepDecideRepeat rq => Sys2Proof.Machine.execStepDecideRepeat rq s
  | .stepDecideSkip rq => Sys2Proof.Machine.execStepDecideSkip rq s
  | .stepDecideStop rq => Sys2Proof.Machine.execStepDecideStop rq s
  | .tokenBoundary h => Sys2Proof.Machine.execTokenBoundary h s
  | .groupRequest k => Sys2Proof.Machine.execGroupRequest k s
  | .passAdmit k temp => Sys2Proof.Machine.execPassAdmit k temp s
  | .passComplete k pos y => Sys2Proof.Machine.execPassComplete k pos y s
  | .rangeTrackerEval k idx => Sys2Proof.Machine.execRangeTrackerEval k idx s
  | .govStatusRead rq k => Sys2Proof.Machine.execGovStatusRead rq k s
  | .clipgClr k v => Sys2Proof.Machine.execClipgClr k v s
  | .clipgDataRead rq k => Sys2Proof.Machine.execClipgDataRead rq k s
  | .rangeDataWrite rq k v => Sys2Proof.Machine.execRangeDataWrite rq k v s
  | .calReadStart k => Sys2Proof.Machine.execCalReadStart k s
  | .calReadComplete k a codes t => Sys2Proof.Machine.execCalReadComplete k a codes t s
  | .forcedRead k a => Sys2Proof.Machine.execForcedRead k a s
  | .calStarved k a => Sys2Proof.Machine.execCalStarved k a s
  | .arrayFit k a => Sys2Proof.Machine.execArrayFit k a s
  | .trimPublication k => Sys2Proof.Machine.execTrimPublication k s
  | .publish rq k pos => Sys2Proof.Machine.execPublish rq k pos s
  | .refresh rq k pos => Sys2Proof.Machine.execRefresh rq k pos s
  | .load rq k pos => Sys2Proof.Machine.execLoad rq k pos s
  | .readback rq k pos => Sys2Proof.Machine.execReadback rq k pos s
  | .readbackSegment k pos lv => Sys2Proof.Machine.execReadbackSegment k pos lv s
  | .refreshAgeExpiry k pos => Sys2Proof.Machine.execRefreshAgeExpiry k pos s
  | .progJobStart k => Sys2Proof.Machine.execProgJobStart k s
  | .progRow k t v0 v1 v2 vs => Sys2Proof.Machine.execProgRow k t v0 v1 v2 vs s
  | .progJobComplete k t f metaReads => Sys2Proof.Machine.execProgJobComplete k t f metaReads s
  | .sweepArray k a seen reads => Sys2Proof.Machine.execSweepArray k a seen reads s
  | .nop d u w => Sys2Proof.Machine.execNop d u w s
  | .vsetvl d u w => Sys2Proof.Machine.execVsetvl d u w s
  | .vsetsr d u w => Sys2Proof.Machine.execVsetsr d u w s
  | .vsetsri d u w => Sys2Proof.Machine.execVsetsri d u w s
  | .viota d u w => Sys2Proof.Machine.execViota d u w s
  | .vld d u w => Sys2Proof.Machine.execVld d u w s
  | .vst d u w => Sys2Proof.Machine.execVst d u w s
  | .vbar d u w => Sys2Proof.Machine.execVbar d u w s
  | .barrierRelease d slot n => Sys2Proof.Machine.execBarrierRelease d slot n s
  | .barrierTimeout d u => Sys2Proof.Machine.execBarrierTimeout d u s
  | .faddVv d u w => Sys2Proof.Machine.execFaddVv d u w s
  | .faddVi d u w => Sys2Proof.Machine.execFaddVi d u w s
  | .fsubVv d u w => Sys2Proof.Machine.execFsubVv d u w s
  | .fsubVi d u w => Sys2Proof.Machine.execFsubVi d u w s
  | .fmulVv d u w => Sys2Proof.Machine.execFmulVv d u w s
  | .fmulVi d u w => Sys2Proof.Machine.execFmulVi d u w s
  | .ffmaVvv d u w => Sys2Proof.Machine.execFfmaVvv d u w s
  | .ffmaVvi d u w => Sys2Proof.Machine.execFfmaVvi d u w s
  | .ffmaViv d u w => Sys2Proof.Machine.execFfmaViv d u w s
  | .fmax d u w => Sys2Proof.Machine.execFmax d u w s
  | .fmin d u w => Sys2Proof.Machine.execFmin d u w s
  | .fabs d u w => Sys2Proof.Machine.execFabs d u w s
  | .fneg d u w => Sys2Proof.Machine.execFneg d u w s
  | .iaddVv d u w => Sys2Proof.Machine.execIaddVv d u w s
  | .iaddVi d u w => Sys2Proof.Machine.execIaddVi d u w s
  | .isub d u w => Sys2Proof.Machine.execIsub d u w s
  | .imul d u w => Sys2Proof.Machine.execImul d u w s
  | .imax d u w => Sys2Proof.Machine.execImax d u w s
  | .imin d u w => Sys2Proof.Machine.execImin d u w s
  | .vand d u w => Sys2Proof.Machine.execVand d u w s
  | .vor d u w => Sys2Proof.Machine.execVor d u w s
  | .vxor d u w => Sys2Proof.Machine.execVxor d u w s
  | .shl d u w => Sys2Proof.Machine.execShl d u w s
  | .shra d u w => Sys2Proof.Machine.execShra d u w s
  | .shrl d u w => Sys2Proof.Machine.execShrl d u w s
  | .fcmpVv d u w => Sys2Proof.Machine.execFcmpVv d u w s
  | .fcmpVi d u w => Sys2Proof.Machine.execFcmpVi d u w s
  | .icmpVv d u w => Sys2Proof.Machine.execIcmpVv d u w s
  | .icmpVi d u w => Sys2Proof.Machine.execIcmpVi d u w s
  | .mand d u w => Sys2Proof.Machine.execMand d u w s
  | .mor d u w => Sys2Proof.Machine.execMor d u w s
  | .mxor d u w => Sys2Proof.Machine.execMxor d u w s
  | .mandn d u w => Sys2Proof.Machine.execMandn d u w s
  | .vsel d u w => Sys2Proof.Machine.execVsel d u w s
  | .fcvt d u w => Sys2Proof.Machine.execFcvt d u w s
  | .qcvt d u w => Sys2Proof.Machine.execQcvt d u w s
  | .vpackb d u w => Sys2Proof.Machine.execVpackb d u w s
  | .vgetx d u w => Sys2Proof.Machine.execVgetx d u w s
  | .vamax d u w => Sys2Proof.Machine.execVamax d u w s
  | .exp2 d u w => Sys2Proof.Machine.execExp2 d u w s
  | .log2 d u w => Sys2Proof.Machine.execLog2 d u w s
  | .rcp d u w => Sys2Proof.Machine.execRcp d u w s
  | .rsqrt d u w => Sys2Proof.Machine.execRsqrt d u w s
  | .tanh d u w => Sys2Proof.Machine.execTanh d u w s
  | .rsumt d u w => Sys2Proof.Machine.execRsumt d u w s
  | .rsums d u w => Sys2Proof.Machine.execRsums d u w s
  | .rmax d u w => Sys2Proof.Machine.execRmax d u w s
  | .rmin d u w => Sys2Proof.Machine.execRmin d u w s
  | .vperm d u w => Sys2Proof.Machine.execVperm d u w s
  | .vsplat d u w => Sys2Proof.Machine.execVsplat d u w s
  | .vslidedn d u w => Sys2Proof.Machine.execVslidedn d u w s
  | .vslideup d u w => Sys2Proof.Machine.execVslideup d u w s
  | .twillIllegal d u op => Sys2Proof.Machine.execTwillIllegal d u op s
  | .descriptorAccept d c => Sys2Proof.Machine.execDescriptorAccept d c s
  | .tileOutput d c => Sys2Proof.Machine.execTileOutput d c s
  | .accStall d c cycles => Sys2Proof.Machine.execAccStall d c cycles s
  | .sliceConvert d q => Sys2Proof.Machine.execSliceConvert d q s
  | .sliceAccept d cl cycles => Sys2Proof.Machine.execSliceAccept d cl cycles s
  | .matrixCancel d slot => Sys2Proof.Machine.execMatrixCancel d slot s
  | .blockAccept d => Sys2Proof.Machine.execBlockAccept d s
  | .blockUpdate d => Sys2Proof.Machine.execBlockUpdate d s
  | .updateComplete d => Sys2Proof.Machine.execUpdateComplete d s
  | .projectionStart d => Sys2Proof.Machine.execProjectionStart d s
  | .projectionDone d => Sys2Proof.Machine.execProjectionDone d s
  | .project rq => Sys2Proof.Machine.execProject rq s
  | .projectNohyst rq => Sys2Proof.Machine.execProjectNohyst rq s
  | .schedDataAccess rq wr => Sys2Proof.Machine.execSchedDataAccess rq wr s
  | .stepSizeWrite rq v => Sys2Proof.Machine.execStepSizeWrite rq v s
  | .form rq v => Sys2Proof.Machine.execForm rq v s
  | .ringMessage c m => Sys2Proof.Machine.execRingMessage c m s
  | .reduceHopAdd c => Sys2Proof.Machine.execReduceHopAdd c s
  | .bucketSend c => Sys2Proof.Machine.execBucketSend c s
  | .bucketDeliver c => Sys2Proof.Machine.execBucketDeliver c s
  | .deadline c seq => Sys2Proof.Machine.execDeadline c seq s
  | .ringTimeout c seq => Sys2Proof.Machine.execRingTimeout c seq s
  | .tskLaunch rq v => Sys2Proof.Machine.execTskLaunch rq v s
  | .graphStream => Sys2Proof.Machine.execGraphStream s
  | .streamResume => Sys2Proof.Machine.execStreamResume s
  | .taskDispatch d kind => Sys2Proof.Machine.execTaskDispatch d kind s
  | .taskComplete d slot => Sys2Proof.Machine.execTaskComplete d slot s
  | .remoteSignal => Sys2Proof.Machine.execRemoteSignal s
  | .cntValueWrite rq v => Sys2Proof.Machine.execCntValueWrite rq v s
  | .cntAddWrite rq v => Sys2Proof.Machine.execCntAddWrite rq v s
  | .flush rq => Sys2Proof.Machine.execFlush rq s
  | .deadlock d => Sys2Proof.Machine.execDeadlock d s
  | .dutySplitWrite rq v => Sys2Proof.Machine.execDutySplitWrite rq v s
  | .dutyBoundary => Sys2Proof.Machine.execDutyBoundary s
  | .dmaCopy d e => Sys2Proof.Machine.execDmaCopy d e s
  | .dmaStream d e => Sys2Proof.Machine.execDmaStream d e s
  | .prefetcherFetch d p => Sys2Proof.Machine.execPrefetcherFetch d p s
  | .dmaSpillOut d e => Sys2Proof.Machine.execDmaSpillOut d e s
  | .dmaSpillIn d e data err => Sys2Proof.Machine.execDmaSpillIn d e data err s
  | .siltPut d e key value => Sys2Proof.Machine.execSiltPut d e key value s
  | .siltOpen src => Sys2Proof.Machine.execSiltOpen src s
  | .siltClose src => Sys2Proof.Machine.execSiltClose src s
  | .siltTruncate src => Sys2Proof.Machine.execSiltTruncate src s
  | .siltSlotsWrite rq d v => Sys2Proof.Machine.execSiltSlotsWrite rq d v s
  | .flitReceive l bytes => Sys2Proof.Machine.execFlitReceive l bytes s
  | .idleFlitTimer l => Sys2Proof.Machine.execIdleFlitTimer l s
  | .nakRepeat l => Sys2Proof.Machine.execNakRepeat l s
  | .linkSilence l => Sys2Proof.Machine.execLinkSilence l s
  | .retrainThreshold l => Sys2Proof.Machine.execRetrainThreshold l s
  | .removeThreshold l => Sys2Proof.Machine.execRemoveThreshold l s
  | .retrainAttempt l ok partnerAck => Sys2Proof.Machine.execRetrainAttempt l ok partnerAck s
  | .linkTraining l r => Sys2Proof.Machine.execLinkTraining l r s
  | .retrain rq l => Sys2Proof.Machine.execRetrain rq l s
  | .remove rq l => Sys2Proof.Machine.execRemove rq l s
  | .restore rq l => Sys2Proof.Machine.execRestore rq l s
  | .linkDown src l => Sys2Proof.Machine.execLinkDown src l s
  | .timeMasterLost src lowest => Sys2Proof.Machine.execTimeMasterLost src lowest s
  | .timeSyncPeriod l t1 => Sys2Proof.Machine.execTimeSyncPeriod l t1 s
  | .sync l t1 t2 t3 => Sys2Proof.Machine.execSync l t1 t2 t3 s
  | .delayReq l t3 t4 => Sys2Proof.Machine.execDelayReq l t3 t4 s
  | .delayResp l t4 => Sys2Proof.Machine.execDelayResp l t4 s
  | .holdover => Sys2Proof.Machine.execHoldover s
  | .triggerFrame l f => Sys2Proof.Machine.execTriggerFrame l f s
  | .relayWindowAccess mem win off wr len => Sys2Proof.Machine.execRelayWindowAccess mem win off wr len s
  | .relayRead src h => Sys2Proof.Machine.execRelayRead src h s
  | .relayWrite src h bytes => Sys2Proof.Machine.execRelayWrite src h bytes s
  | .relayCompletion src h bytes => Sys2Proof.Machine.execRelayCompletion src h bytes s
  | .relayHostWrite src h bytes => Sys2Proof.Machine.execRelayHostWrite src h bytes s
  | .relayTimeout tag => Sys2Proof.Machine.execRelayTimeout tag s
  | .dataFrame src addr bytes => Sys2Proof.Machine.execDataFrame src addr bytes s
  | .sqTailDoorbell q v => Sys2Proof.Machine.execSqTailDoorbell q v s
  | .cqHeadDoorbell q v => Sys2Proof.Machine.execCqHeadDoorbell q v s
  | .sqFetch bytes err => Sys2Proof.Machine.execSqFetch bytes err s
  | .hostNop q => Sys2Proof.Machine.execHostNop q s
  | .writeHbm q data err => Sys2Proof.Machine.execWriteHbm q data err s
  | .readHbm q => Sys2Proof.Machine.execReadHbm q s
  | .hostDmaComplete q idx => Sys2Proof.Machine.execHostDmaComplete q idx s
  | .gen q => Sys2Proof.Machine.execGen q s
  | .genResultCopy q idx => Sys2Proof.Machine.execGenResultCopy q idx s
  | .launch q => Sys2Proof.Machine.execLaunch q s
  | .signal q => Sys2Proof.Machine.execSignal q s
  | .cqStall q => Sys2Proof.Machine.execCqStall q s
  | .hostErrorLimit q => Sys2Proof.Machine.execHostErrorLimit q s
  | .qCfgWrite rq v => Sys2Proof.Machine.execQCfgWrite rq v s
  | .msixUnmask rq v => Sys2Proof.Machine.execMsixUnmask rq v s
  | .apertureRead off len => Sys2Proof.Machine.execApertureRead off len s
  | .apertureWrite off bytes => Sys2Proof.Machine.execApertureWrite off bytes s
  | .snapshotWindowWrite off bytes => Sys2Proof.Machine.execSnapshotWindowWrite off bytes s
  | .functionLevelReset => Sys2Proof.Machine.execFunctionLevelReset s
  | .pcieLinkUp rate width flit => Sys2Proof.Machine.execPcieLinkUp rate width flit s
  | .pcieLinkDown => Sys2Proof.Machine.execPcieLinkDown s
  | .perstAssert => Sys2Proof.Machine.execPerstAssert s
  | .perstDeassert => Sys2Proof.Machine.execPerstDeassert s
  | .irqSourcePending d src => Sys2Proof.Machine.execIrqSourcePending d src s
  | .irqClaim d core src => Sys2Proof.Machine.execIrqClaim d core src s
  | .claimRead rq d core => Sys2Proof.Machine.execClaimRead rq d core s
  | .irqEoi rq d core src => Sys2Proof.Machine.execIrqEoi rq d core src s
  | .hostEoi rq d src => Sys2Proof.Machine.execHostEoi rq d src s
  | .irqPendWrite rq d k v => Sys2Proof.Machine.execIrqPendWrite rq d k v s
  | .irqPclrWrite rq d k v => Sys2Proof.Machine.execIrqPclrWrite rq d k v s
  | .irqHostMessage d src => Sys2Proof.Machine.execIrqHostMessage d src s
  | .kdone rq d core err => Sys2Proof.Machine.execKdone rq d core err s
  | .holdoffExpiry d g => Sys2Proof.Machine.execHoldoffExpiry d g s
  | .moderationTick d => Sys2Proof.Machine.execModerationTick d s
  | .supplyGood smbAddr => Sys2Proof.Machine.execSupplyGood smbAddr s
  | .railTimeout die => Sys2Proof.Machine.execRailTimeout die s
  | .romStage => Sys2Proof.Machine.execRomStage s
  | .identityStage seen finger => Sys2Proof.Machine.execIdentityStage seen finger s
  | .sfdpTimeout => Sys2Proof.Machine.execSfdpTimeout s
  | .imageStage image dev => Sys2Proof.Machine.execImageStage image dev s
  | .verifyStage p => Sys2Proof.Machine.execVerifyStage p s
  | .firmwareStage => Sys2Proof.Machine.execFirmwareStage s
  | .recordsStage => Sys2Proof.Machine.execRecordsStage s
  | .hbmStage failed => Sys2Proof.Machine.execHbmStage failed s
  | .linksStage => Sys2Proof.Machine.execLinksStage s
  | .sweepStage => Sys2Proof.Machine.execSweepStage s
  | .finalStage ms => Sys2Proof.Machine.execFinalStage ms s
  | .recordWrite => Sys2Proof.Machine.execRecordWrite s
  | .recordModify => Sys2Proof.Machine.execRecordModify s
  | .recordPoll => Sys2Proof.Machine.execRecordPoll s
  | .pollTimeout => Sys2Proof.Machine.execPollTimeout s
  | .recordDelay => Sys2Proof.Machine.execRecordDelay s
  | .bootPushed rq => Sys2Proof.Machine.execBootPushed rq s
  | .verifyPushed rq => Sys2Proof.Machine.execVerifyPushed rq s
  | .writeImage rq => Sys2Proof.Machine.execWriteImage rq s
  | .sectorProgram back => Sys2Proof.Machine.execSectorProgram back s
  | .leafReservation first second => Sys2Proof.Machine.execLeafReservation first second s
  | .attestationKeyBuild treeId => Sys2Proof.Machine.execAttestationKeyBuild treeId s
  | .attRequest rq v => Sys2Proof.Machine.execAttRequest rq v s
  | .reportSigned => Sys2Proof.Machine.execReportSigned s
  | .inputGood b => Sys2Proof.Machine.execInputGood b s
  | .inputLoss b => Sys2Proof.Machine.execInputLoss b s
  | .holdup => Sys2Proof.Machine.execHoldup s
  | .holdupExhausted => Sys2Proof.Machine.execHoldupExhausted s
  | .returnToA => Sys2Proof.Machine.execReturnToA s
  | .selectA rq => Sys2Proof.Machine.execSelectA rq s
  | .selectB rq => Sys2Proof.Machine.execSelectB rq s
  | .clearUnstable rq => Sys2Proof.Machine.execClearUnstable rq s
  | .poweredSecond => Sys2Proof.Machine.execPoweredSecond s
  | .poweredCountSave ok => Sys2Proof.Machine.execPoweredCountSave ok s
  | .hkaConversion raw => Sys2Proof.Machine.execHkaConversion raw s
  | .sensorFault ch => Sys2Proof.Machine.execSensorFault ch s
  | .tripPowerOff => Sys2Proof.Machine.execTripPowerOff s
  | .tripLatchRelease => Sys2Proof.Machine.execTripLatchRelease s
  | .hkaConvWrite rq v => Sys2Proof.Machine.execHkaConvWrite rq v s
  | .hkaDataRead rq => Sys2Proof.Machine.execHkaDataRead rq s
  | .governorLoop => Sys2Proof.Machine.execGovernorLoop s
  | .smbStatusRead => Sys2Proof.Machine.execSmbStatusRead s
  | .smbInputPowerRead => Sys2Proof.Machine.execSmbInputPowerRead s
  | .smbInputAVoltageRead => Sys2Proof.Machine.execSmbInputAVoltageRead s
  | .smbInputBVoltageRead => Sys2Proof.Machine.execSmbInputBVoltageRead s
  | .smbInputCurrentRead => Sys2Proof.Machine.execSmbInputCurrentRead s
  | .smbHottestDieRead => Sys2Proof.Machine.execSmbHottestDieRead s
  | .smbCoolantInletRead => Sys2Proof.Machine.execSmbCoolantInletRead s
  | .smbCoolantOutletRead => Sys2Proof.Machine.execSmbCoolantOutletRead s
  | .smbPwm0DutyRead => Sys2Proof.Machine.execSmbPwm0DutyRead s
  | .smbPwm1DutyRead => Sys2Proof.Machine.execSmbPwm1DutyRead s
  | .smbEventsRead => Sys2Proof.Machine.execSmbEventsRead s
  | .smbTemperaturesRead => Sys2Proof.Machine.execSmbTemperaturesRead s
  | .smbIdentityRead => Sys2Proof.Machine.execSmbIdentityRead s
  | .smbAlertResponse => Sys2Proof.Machine.execSmbAlertResponse s
  | .smbInvalidCommand code pec => Sys2Proof.Machine.execSmbInvalidCommand code pec s
  | .smbClkLowTimeout => Sys2Proof.Machine.execSmbClkLowTimeout s
  | .snpTrigFire rq v => Sys2Proof.Machine.execSnpTrigFire rq v s
  | .captIn edge => Sys2Proof.Machine.execCaptIn edge s
  | .capture lat => Sys2Proof.Machine.execCapture lat s
  | .captOutPulseEnd => Sys2Proof.Machine.execCaptOutPulseEnd s
  | .drain => Sys2Proof.Machine.execDrain s
  | .snpRingSizeWrite rq v => Sys2Proof.Machine.execSnpRingSizeWrite rq v s
  | .chkClaim rq u len => Sys2Proof.Machine.execChkClaim rq u len s
  | .chkRelease rq u len => Sys2Proof.Machine.execChkRelease rq u len s
  | .chkInit rq u len => Sys2Proof.Machine.execChkInit rq u len s
  | .chkDataWrite rq u v => Sys2Proof.Machine.execChkDataWrite rq u v s
  | .chkValueWrite rq u v => Sys2Proof.Machine.execChkValueWrite rq u v s
  | .errorLogWrite => Sys2Proof.Machine.execErrorLogWrite s
  | .pushedImageVerified p => Sys2Proof.Machine.execPushedImageVerified p s
  | .sqWindowAccess off len wr => Sys2Proof.Machine.execSqWindowAccess off len wr s
  | .malformedTlp => Sys2Proof.Machine.execMalformedTlp s

end Sys2Proof.Machine
end

