-- ==== Sys2Proof/Safety.lean ====
section
/-! DEFINITION. What claims say of a state: the canonical form of its memories and maps, and the ranges its modes keep. -/

namespace Sys2Proof.Machine

/-- The canonical form of HBM: addresses strictly rising, no listed byte equal to what an unlisted address reads as. -/
def hbmWf (h : SMap Byte) : Bool := SMap.wf (fun _ => 0) h
/-- HBM holds its canonical form. -/
def MemSt.wf (m : MemSt) : Bool := hbmWf m.hbm

/-- HBM lists no address outside the module's HBM (R252). -/
def MemSt.inRange (m : MemSt) : Prop := ∀ p ∈ m.hbm, p.1 < hbmSize

/-- The invariant that every step keeps: HBM in its canonical form, the input queue of the error log within its 64 entries (R382), the
trigger queue within its 8 (R373). -/
def State.sound (s : State) : Bool := s.mem.wf && decide (s.err.queue.length ≤ 64) && decide (s.snp.queue.length ≤ 8)

/-- A run is safe when no step of it faults or is refused. -/
def safeRun (n : Nat) (s : State) : Prop := ∃ t, Host.Core.run Sys2Proof.core n s = .next t

/-- Unit `u` of a die runs no task, or its program goes on after the instruction at its PC. -/
def State.midProgram (s : State) (d u : Nat) : Bool :=
  (s.unit (d * 32 + u)).slot.isNone || decide ((s.unit (d * 32 + u)).pc + 1 < (s.unit (d * 32 + u)).ibuf.length)

/-- From `s` to `t` unit `k` became `y`; every other unit and the rest of the state stayed. -/
def stepsUnit (s t : State) (k : Nat) (y : UnitSt) : Prop :=
  t.unit k = y ∧ (∀ j, j ≠ k → t.unit j = s.unit j) ∧ t = s.modVec (fun v => { v with unit := t.vec.unit })

/-- From `s` to `t` one Twill instruction wrote its destination register and nothing else: its active elements are those of `f`, its
inactive ones are kept, or zero where the word says so (R136); the unit steps on; flags `fl` are set unless the control code keeps
them (R140); every other register, mask, memory and unit, and the rest of the state, are as before. -/
def twGives (d u : Nat) (w : TwillWord) (s t : State) (f : Nat → Nat) (fl : Nat) : Prop :=
  (∀ e < w.elems, (t.unit (d * 32 + u)).elem w w.d.val e =
    if (s.unit (d * 32 + u)).active w e then f e % 2 ^ w.bits else if w.zero then 0 else (s.unit (d * 32 + u)).elem w w.d.val e) ∧
  (∀ r i, i < 64 → r ≠ w.d.val → (t.unit (d * 32 + u)).lane r i = (s.unit (d * 32 + u)).lane r i) ∧
  stepsUnit s t (d * 32 + u) { s.unit (d * 32 + u) with
    v := (t.unit (d * 32 + u)).v, pc := ((s.unit (d * 32 + u)).pc + 1) % 2048,
    flags := if ctlNoFlag w.ctl.val then (s.unit (d * 32 + u)).flags else (s.unit (d * 32 + u)).flags ||| fl }

/-- As `twGives`, for an instruction that writes whole lanes: lane `i` of the destination becomes `g i`. -/
def twLanes (d u : Nat) (w : TwillWord) (s t : State) (g : Nat → Word) (fl : Nat) : Prop :=
  (∀ i < 64, (t.unit (d * 32 + u)).lane w.d.val i = g i) ∧
  (∀ r i, i < 64 → r ≠ w.d.val → (t.unit (d * 32 + u)).lane r i = (s.unit (d * 32 + u)).lane r i) ∧
  stepsUnit s t (d * 32 + u) { s.unit (d * 32 + u) with
    v := (t.unit (d * 32 + u)).v, pc := ((s.unit (d * 32 + u)).pc + 1) % 2048,
    flags := if ctlNoFlag w.ctl.val then (s.unit (d * 32 + u)).flags else (s.unit (d * 32 + u)).flags ||| fl }

/-- From `s` to `t` one Twill instruction wrote mask register `r` (not M0, R134), bit `e` of it being `p e`, and nothing else but its
step to the next instruction. -/
def twMaskOf (d u r : Nat) (s t : State) (p : Nat → Bool) : Prop :=
  (∀ e, ((t.unit (d * 32 + u)).maskR r).testBit e = p e) ∧
  (∀ q, q ≠ r → (t.unit (d * 32 + u)).maskR q = (s.unit (d * 32 + u)).maskR q) ∧
  stepsUnit s t (d * 32 + u) { s.unit (d * 32 + u) with m := (t.unit (d * 32 + u)).m, pc := ((s.unit (d * 32 + u)).pc + 1) % 2048 }

end Sys2Proof.Machine
end

