-- ==== Sys2Proof/Certificates/Slice0/Obligations.lean ====
section
/-! DEFINITION. The statements for the provers: what the commands do, which states they lead to, what they leave unchanged. -/

open Sys2Proof Sys2Proof.Machine

/-- The queue of commands is first in, first out, and one step takes one command (assumption log, the entry on the queue). -/
def Obligations.StepRunsTheFrontCommand : Prop :=
  (∀ (c : Instr) (s : State),
    step (s.push c) = exec c s) ∧
  (∀ (c : Instr) (rest : List Instr) (s : State),
    (s.pending = c :: rest) → 
    step s = exec c { s with pending := rest })

/-- Every one of the 291 commands leaves the rest of the queue as it was and answers a next state (the queue is the model's own, log entry on the queue). -/
def Obligations.StepLeavesTheRestQueued : Prop :=
  ∀ (c : Instr) (rest : List Instr) (s : State),
    (s.pending = c :: rest) → 
    ∃ t, step s = .next t ∧ t.pending = rest

/-- Pod time is a 64-bit counter at 1 GHz (R290); the switch back of the bank at the return that follows an EOI (R322). An idle step as one nanosecond is the model's choice (log 3), and so is the time of the return (log 41). -/
def Obligations.StepOnEmptyQueuePassesTime : Prop :=
  (∀ (s : State),
    (s.pending = []) → 
    step s = .next { s.coreReturns with ezl := { s.ezl with tim := s.ezl.tim.tick } }) ∧
  (∀ (s : State) (d c : Nat),
    (d < 2) → (c < 4) → 
    (s.coreReturns.irqD d).coreOf c = (if ((s.irqD d).coreOf c).back then { (s.irqD d).coreOf c with fastBank := false, back := false } else (s.irqD d).coreOf c) ∧ { s.coreReturns with irq := s.irq } = s) ∧
  (∀ (s : State),
    (s.pending = []) → (s.ezl.tim.rate = 0) → (s.ezl.tim.slew = 0) → (s.ezl.tim.acc = 0) → (s.ezl.tim.half = false) → (s.time + 1 < 2 ^ 64) → 
    ∃ t, step s = .next t ∧ t.time = s.time + 1 ∧ t.regs = s.regs ∧ t.out = s.out)

/-- R8: the reset column of each register table gives the value after power-up reset. What a read gives is formed from the block's state (State.view), so the statement ties the reset values of that state to the tables. -/
def Obligations.EveryRegisterReadsItsResetValue : Prop :=
  (∀ (a off : Nat) (b : Blk) (r : RegRow),
    (rowAt a = some (b, off, r)) → 
    State.reset.view a = regReset a ∧ (regReset a = BitVec.ofNat 32 r.reset ∨ (0x11000 ≤ a ∧ a < 0x11400 ∧ a % 16 = 12 ∧ regReset a = 1#32))) ∧
  (∀ p ∈ ([(0x10000, 0x3E80000#32), (0x1000C, 0x5EC#32), (0x1002C, 0x2#32), (0x10040, 0x40000000#32), (0x1100C, 0x1#32), (0x20020, 0x3E80064#32), (0x28020, 0x3E80064#32), (0x20300, 0xFFFF0000#32), (0x20400, 0x3FF#32), (0x30000, 0x10000#32), (0x3000C, 0x3F7#32), (0x30010, 0x3C5#32), (0x30018, 0xA28#32), (0x3001C, 0x320A0064#32), (0x30020, 0x5F645F40#32), (0x30024, 0x696E6900#32), (0x30028, 0x3000010#32), (0x3002C, 0x30010F#32), (0x30038, 0x67FF#32), (0x30040, 0x285040FF#32), (0x30048, 0x2D0F#32), (0x40000, 0xAF000#32), (0x4000C, 0x1E#32), (0x50108, 0xFFFFFFFF#32), (0x50110, 0xF000000#32), (0x60000, 0xF4#32), (0x60008, 0x7#32), (0x80000, 0x1#32), (0x80008, 0x2D#32), (0x80024, 0x1#32), (0x100000, 0x2#32), (0x100008, 0xC7#32), (0x10001C, 0x100000#32), (0x100024, 0x3E8#32), (0x12000C, 0x300#32), (0x120014, 0x400000#32), (0x14000C, 0x21#32), (0x160000, 0x6#32), (0x16000C, 0x33#32), (0x160018, 0x3F666666#32), (0x16001C, 0x3F7FBE77#32), (0x160020, 0x322BCC77#32), (0x160028, 0x3F800000#32), (0x16002C, 0x3DCCCCCD#32), (0x160034, 0x10000#32), (0x18000C, 0x41F#32), (0x180010, 0x20032#32), (0x18001C, 0xFF000000#32), (0x180020, 0xFFFFFFFF#32), (0x1A0008, 0x23B#32), (0x1A0100, 0x8#32), (0x1C000C, 0x72E#32), (0x1C0014, 0x10040100#32), (0x1C0018, 0x8100A#32), (0x1C001C, 0x1F00#32), (0x200000, 0x2000#32), (0x20000C, 0x200#32), (0x200010, 0x2000000#32), (0x200028, 0xE100010#32), (0x200100, 0x201000#32), (0x200104, 0x400A0032#32), (0x200108, 0x78C81C04#32), (0x200120, 0x100007FF#32), (0x300108, 0x81003#32), (0x300118, 0xFFF#32), (0x300200, 0x7D01F40#32), (0x300208, 0xA100800#32)] : List (Nat × Word)), State.reset.view p.1 = p.2)

/-- R8, R329 (stages), R14 (phases), R280 (links). The spec gives no reset value for HBM (log 9), array positions (log 14), credits (log 19), pod time (log 20), pending interrupts (log 22) and the ring (log 27): the model's choices. -/
def Obligations.ResetState : Prop :=
  State.reset.img.stage = 1 ∧ State.reset.stp.phase = .idle ∧ State.reset.stp.attempt = 0 ∧ State.reset.stp.groupHold = false ∧ (∀ l, (State.reset.lnk l).st = .down) ∧
  State.reset.mem.handles = [] ∧ (∀ k, State.reset.task k = none) ∧ (∀ c, (State.reset.chan c).flight = []) ∧ (∀ d, (State.reset.irqD d).pend = 0) ∧
  (∀ l, (State.reset.lnk l).credits = [0, 0, 0, 0]) ∧ (∀ k, (State.reset.unit k).slot = none ∧ (State.reset.unit k).bar = none) ∧ (∀ k, State.reset.cluster k = []) ∧
  (∀ d, (State.reset.kao d).queue = [] ∧ (State.reset.kao d).running = []) ∧ (∀ d p, (State.reset.pos d p).unconf = false) ∧
  State.reset.err.queue = [] ∧ State.reset.snp.queue = [] ∧ State.reset.out = [] ∧ State.reset.pending = [] ∧ State.reset.time = 0 ∧ (∀ a, State.reset.mem.byte a = 0)

/-- The first half of the invariant that every step keeps. -/
def Obligations.ResetIsSound : Prop :=
  State.reset.sound = true

/-- R382: the log's input queue has 64 entries and drops what finds it full. R373: the trigger queue holds 8. The canonical form makes equal memories equal data. -/
def Obligations.EveryStepKeepsSound : Prop :=
  ∀ (s t : State),
    (s.sound = true) → (step s = .next t) → 
    t.sound = true

/-- The homes of the state: each kind has one read and one write, on which the other statements rest. -/
def Obligations.NamedOperationsReadBack : Prop :=
  (∀ (s : State) (a b : Nat) (v : Word),
    (s.setReg a v).reg a = v ∧ (b ≠ a → (s.setReg a v).reg b = s.reg b)) ∧
  (∀ (s : State) (a b : Nat) (x : QueueSt),
    (s.setQueue a x).queue a = x ∧ (b ≠ a → (s.setQueue a x).queue b = s.queue b)) ∧
  (∀ (s : State) (a b : Nat) (x : Option TaskEnt),
    (s.setTask a x).task a = x ∧ (b ≠ a → (s.setTask a x).task b = s.task b)) ∧
  (∀ (s : State) (a b : Nat) (x : UnitSt),
    (s.setUnit a x).unit a = x ∧ (b ≠ a → (s.setUnit a x).unit b = s.unit b)) ∧
  (∀ (s : State) (a b : Nat) (x : ChanSt),
    (s.setChan a x).chan a = x ∧ (b ≠ a → (s.setChan a x).chan b = s.chan b)) ∧
  (∀ (s : State) (a b : Nat) (x : UpdDie),
    (s.setUpd a x).updD a = x ∧ (b ≠ a → (s.setUpd a x).updD b = s.updD b)) ∧
  (∀ (s : State) (a b : Nat) (x : CtxSt),
    (s.setCtx a x).ctx a = x ∧ (b ≠ a → (s.setCtx a x).ctx b = s.ctx b)) ∧
  (∀ (s : State) (a b : Nat) (x : IrqSt),
    (s.setIrq a x).irqD a = x ∧ (b ≠ a → (s.setIrq a x).irqD b = s.irqD b)) ∧
  (∀ (s : State) (a b : Nat) (x : LinkSt),
    (s.setLnk a x).lnk a = x ∧ (b ≠ a → (s.setLnk a x).lnk b = s.lnk b)) ∧
  (∀ (s : State) (a b : Nat) (x : ChkUnit),
    (s.setChk a x).chkU a = x ∧ (b ≠ a → (s.setChk a x).chkU b = s.chkU b))

/-- R9 (access types), R6 (pairs), R400 (a write to RO or RC has no effect). The effects of the writes of SNP_CTRL (log 268, 284), IRQ_CTRL (log 291) and ARR_GOV_CAP (log 269) are inferred: the model's choices. -/
def Obligations.RegisterWriteFollowsAccessType : Prop :=
  (∀ (s : State) (rq : Requester) (off o : Nat) (v : Word) (b : Blk) (r : RegRow),
    (s.blocked rq off = false) → (inSnapWindow off = false) → (rowAt (canonAddr off) = some (b, o, r)) → (s.writeSpecial rq b o v = none) → (b ≠ .pwr ∨ o < 0x38 ∨ 0x48 ≤ o) → ((match b with | .snp => decide (o = 0) | .irq _ => decide (o = 0) | .arr _ => decide (o = 0xC) | _ => false) = false) → (r.pair = false) → (r.acc = .rw) → 
    exec (.registerWrite rq off v) s = .next (s.setReg (canonAddr off) ((s.reg (canonAddr off) &&& ~~~wordN r.rw) ||| (v &&& wordN r.rw)))) ∧
  (∀ (s : State) (rq : Requester) (off o : Nat) (v : Word) (b : Blk) (r : RegRow),
    (s.blocked rq off = false) → (inSnapWindow off = false) → (rowAt (canonAddr off) = some (b, o, r)) → (s.writeSpecial rq b o v = none) → (b ≠ .pwr ∨ o < 0x38 ∨ 0x48 ≤ o) → ((match b with | .snp => decide (o = 0) | .irq _ => decide (o = 0) | .arr _ => decide (o = 0xC) | _ => false) = false) → (r.acc = .w1c) → 
    exec (.registerWrite rq off v) s = .next (s.setReg (canonAddr off) (s.reg (canonAddr off) &&& ~~~(v &&& wordN r.w1c)))) ∧
  (∀ (s : State) (rq : Requester) (off o : Nat) (v : Word) (b : Blk) (r : RegRow),
    (s.blocked rq off = false) → (inSnapWindow off = false) → (rowAt (canonAddr off) = some (b, o, r)) → (s.writeSpecial rq b o v = none) → (b ≠ .pwr ∨ o < 0x38 ∨ 0x48 ≤ o) → ((match b with | .snp => decide (o = 0) | .irq _ => decide (o = 0) | .arr _ => decide (o = 0xC) | _ => false) = false) → (r.acc = .ro ∨ r.acc = .rc) → 
    exec (.registerWrite rq off v) s = .next s) ∧
  (∀ (s : State) (rq : Requester) (off o : Nat) (v : Word) (b : Blk) (r : RegRow),
    (s.blocked rq off = false) → (inSnapWindow off = false) → (rowAt (canonAddr off) = some (b, o, r)) → (s.writeSpecial rq b o v = none) → (b ≠ .pwr ∨ o < 0x38 ∨ 0x48 ≤ o) → ((match b with | .snp => decide (o = 0) | .irq _ => decide (o = 0) | .arr _ => decide (o = 0xC) | _ => false) = false) → (r.pair = true) → (r.isHi o = false) → (r.acc = .rw) → 
    exec (.registerWrite rq off v) s = .next (s.loWrite rq (canonAddr off) v)) ∧
  (∀ (s : State) (rq : Requester) (off o : Nat) (v : Word) (b : Blk) (r : RegRow),
    (s.blocked rq off = false) → (inSnapWindow off = false) → (rowAt (canonAddr off) = some (b, o, r)) → (s.writeSpecial rq b o v = none) → (b ≠ .pwr ∨ o < 0x38 ∨ 0x48 ≤ o) → ((match b with | .snp => decide (o = 0) | .irq _ => decide (o = 0) | .arr _ => decide (o = 0xC) | _ => false) = false) → (r.pair = true) → (r.isHi o = true) → (r.acc = .rw) → 
    exec (.registerWrite rq off v) s = .next (((s.setReg (canonAddr off - 4) (s.loHeld rq (canonAddr off - 4) &&& wordN r.rw)).setReg (canonAddr off - 4 + 4) (v &&& wordN r.rwHi)).loUsed rq (canonAddr off - 4))) ∧
  (∀ (s : State) (rq : Requester) (v : Word),
    (s.blocked rq R.SNP_CTRL = false) → 
    ∃ t, t = s.setReg R.SNP_CTRL ((s.reg R.SNP_CTRL &&& ~~~wordN 0xFFFF1B) ||| (v &&& wordN 0xFFFF1B)) ∧ exec (.registerWrite rq R.SNP_CTRL v) s = .next t.freeView.snpOff ∧ (t.freeView.snp.view = if t.regB R.SNP_CTRL 4 then s.snp.view else t.newestBank) ∧ t.freeView.snpOff.snp.view = t.freeView.snp.view ∧ t.freeView.snpOff.regs = t.regs ∧ (t.freeView.snpOff.snp.queue = if t.regB R.SNP_CTRL 0 then s.snp.queue else []) ∧ (t.freeView.snpOff.snp.captOut = (t.regB R.SNP_CTRL 0 && s.snp.captOut))) ∧
  (∀ (s : State) (rq : Requester) (off o : Nat) (v : Word) (r : RegRow),
    (s.blocked rq off = false) → (inSnapWindow off = false) → (rowAt (canonAddr off) = some (.pwr, o, r)) → (0x38 ≤ o) → (o < 0x48) → (r.pair = false) → (r.acc = .rw) → 
    exec (.registerWrite rq off v) s = .next ((s.setReg (canonAddr off) ((s.reg (canonAddr off) &&& ~~~wordN r.rw) ||| (v &&& wordN r.rw))).modPwr (fun p => if p.pwmSet.contains (o / 4 % 2) then p else { p with pwmSet := p.pwmSet ++ [o / 4 % 2] }))) ∧
  (∀ (s : State) (rq : Requester) (d : Fin 2) (v : Word),
    (s.blocked rq (R.IRQ_CTRL d) = false) → 
    exec (.registerWrite rq (R.IRQ_CTRL d) v) s = .next ((s.setReg (R.IRQ_CTRL d) ((s.reg (R.IRQ_CTRL d) &&& ~~~wordN 0xF1) ||| (v &&& wordN 0xF1))).sendHeld d)) ∧
  (∀ (s : State) (rq : Requester) (k : Fin 16) (v : Word),
    (s.blocked rq (R.ARR_GOV_CAP k) = false) → 
    ∃ t, t = s.setReg (R.ARR_GOV_CAP k) ((s.reg (R.ARR_GOV_CAP k) &&& ~~~wordN 0x3FF) ||| (v &&& wordN 0x3FF)) ∧ exec (.registerWrite rq (R.ARR_GOV_CAP k) v) s = .next (if t.throttled then t.pwrEvent 5 else t)) ∧
  (∀ (s : State) (rq : Requester) (a : Nat) (v w : Word),
    ((s.loWrite rq a v).loWrite rq a w).loHeld rq a = w ∧ ((s.loWrite rq a v).loUsed rq a).loHeld rq a = 0)

/-- R7: each requester has its own read capture for 64-bit pairs. -/
def Obligations.PairReadCaptures : Prop :=
  (∀ (s : State) (rq : Requester) (off o : Nat) (b : Blk) (r : RegRow),
    (s.blocked rq off = false) → (inSnapWindow off = false) → (rowAt (canonAddr off) = some (b, o, r)) → (r.pair = true) → (r.isHi o = false) → 
    exec (.pairLoRead rq off) s = .next ((s.capture rq (canonAddr off) (s.view (canonAddr off + 4))).emit (.reply rq off (s.view (canonAddr off))))) ∧
  (∀ (s : State) (rq : Requester) (off o : Nat) (b : Blk) (r : RegRow) (w : Word),
    (s.blocked rq off = false) → (inSnapWindow off = false) → (rowAt (canonAddr off) = some (b, o, r)) → (r.pair = true) → (r.isHi o = true) → 
    ((s.capture rq (canonAddr off - 4) w).readBar0 rq off).1 = w ∧ ((s.capture rq (canonAddr off - 4) w).readBar0 rq off).2.captured rq (canonAddr off - 4) = none ∧ (s.captured rq (canonAddr off - 4) = none → (s.readBar0 rq off).1 = s.view (canonAddr off))) ∧
  (∀ (s : State) (rq q : Requester) (a b : Nat) (w : Word),
    (rq ≠ q) → (a < 2 ^ 32) → (b < 2 ^ 32) → 
    (s.capture rq a w).captured q b = s.captured q b ∧ (s.capUsed rq a).captured q b = s.captured q b)

/-- R298, R302, R331, R399. Inferred, so the model's choices: block code 0x07 outside every span (log 204), the UR count of a discarded write (log 133), doorbell reads as zero (log 180), what the accepted accesses of BAR0_BAD_ACCESS do (log 261), bad units of the SQ window (log 264). -/
def Obligations.UnassignedAndBadAccesses : Prop :=
  (∀ (s : State) (rq : Requester) (off : Nat),
    (isPairLo off = false) → 
    exec (.pairLoRead rq off) s = .next s) ∧
  (∀ (s : State) (rq : Requester) (off : Nat),
    (s.unassigned rq off = true) → 
    exec (.unassignedAccess rq off none) s = .next (s.emit (.reply rq off 0))) ∧
  (∀ (s : State) (rq : Requester) (off : Nat) (v : Word) (b : Blk) (o : Nat),
    (s.unassigned rq off = true) → (locate off = some (b, o)) → (s.err.queue.length < 64) → 
    exec (.unassignedAccess rq off (some v)) s = .next { s with err := { s.err with queue := s.err.queue ++ [⟨s.time, b.code, 1, 0xFF, 1, off + v.toNat * 2 ^ 32 + rq.code * 2 ^ 64⟩] } }) ∧
  (∀ (s : State) (rq : Requester) (off : Nat) (v : Word),
    (s.unassigned rq off = true) → (locate off = none) → (s.err.queue.length < 64) → 
    exec (.unassignedAccess rq off (some v)) s = .next { s with err := { s.err with queue := s.err.queue ++ [⟨s.time, 7, 1, 0xFF, 1, off + v.toNat * 2 ^ 32 + rq.code * 2 ^ 64⟩] } }) ∧
  (∀ (s : State) (k : BadAccess) (off len : Nat) (w : Option (List Byte)),
    (¬(len = 4 ∧ off % 4 = 0)) → (¬(k = .bar0 ∧ (0x11000 ≤ off ∧ off < 0x11400 ∨ 0x11800 ≤ off ∧ off < 0x11808) ∧ len = 8 ∧ off % 8 = 0)) → 
    exec (.bar0BadAccess k off len w) s = .next ((((s.event R.HIF_EVENTS 1).hifFault 1 0 off).incReg R.HIF_UR_CNT 1).emit (if w.isSome then .aer else .hostUr))) ∧
  (∀ (s : State) (k : BadAccess) (off : Nat) (w : Option (List Byte)),
    (off % 4 = 0) → (k ≠ .doorbell ∨ 0x400000 ≤ off) → 
    exec (.bar0BadAccess k off 4 w) s = .next s) ∧
  (∀ (s : State) (off : Nat) (bs : List Byte),
    (off % 8 = 0) → (0x11000 ≤ off ∧ off < 0x11400 ∨ 0x11800 ≤ off ∧ off < 0x11808) → (bs.length = 8) → 
    exec (.bar0BadAccess .bar0 off 8 (some bs)) s = .next ((s.writeBar0 .host off (wordN (leAt bs 0 4))).writeBar0 .host (off + 4) (wordN (leAt bs 4 4)))) ∧
  (∀ (s : State) (off : Nat),
    (off % 8 = 0) → (0x11000 ≤ off ∧ off < 0x11400 ∨ 0x11800 ≤ off ∧ off < 0x11808) → 
    exec (.bar0BadAccess .bar0 off 8 none) s = .next ((s.readWords off 2).2.emit (.hostData (s.readWords off 2).1 false))) ∧
  (∀ (s : State) (off : Nat) (bs : List Byte),
    (off % 4 = 0) → (off < 0x400000) → (bs.length = 4) → 
    exec (.bar0BadAccess .doorbell off 4 none) s = .next (s.unassignedRead 4) ∧
   exec (.bar0BadAccess .doorbell off 4 (some bs)) s = .next (if off < 0x200 then (if off % 8 = 0 then sqTailDoorbell (off / 8) (leAt bs 0 4) s else cqHeadDoorbell (off / 8) (leAt bs 0 4) s) else s.unassignedWrite off 4)) ∧
  (∀ (s : State) (off : Nat),
    (s.ready = true) → (off % 4 = 0) → (off + 4 ≤ 4194304) → (s.protected_ false (s.sqWin + off) 4 = false) → (s.mem.badIn (s.sqWin + off) 4 = []) → (s.mem.softIn (s.sqWin + off) 4 = []) → 
    exec (.sqWindowAccess off 4 none) s = .next (s.emit (.hostData (s.hbm (s.sqWin + off) 4) false))) ∧
  (∀ (s : State) (off : Nat),
    (s.ready = true) → (off % 4 = 0) → (off + 4 ≤ 4194304) → 
    exec (.sqWindowAccess off 4 none) s = .next (s.hostRead (s.sqWin + off) 4)) ∧
  (∀ (s : State) (off : Nat) (bs : List Byte),
    (s.ready = true) → (off % 4 = 0) → (off + 4 ≤ 4194304) → (bs.length = 4) → 
    exec (.sqWindowAccess off 4 (some bs)) s = .next (s.hostPut (s.sqWin + off) bs)) ∧
  (∀ (s : State) (a : Nat) (bs : List Byte),
    (s.protected_ true a bs.length = false) → (∀ x, s.protGiB true x = false) → (s.img.cmd = none) → 
    s.hostPut a bs = s.hostHbmWrite a bs)

/-- R14, R17, R20, R187, R191, R192, R241, R249, R420. The model's choices it rests on: a boundary without a free launch-queue entry waits (log 73), the conditions of a command that fail leave the state (log 5), the bank of a trim set flips when swaps and a published set meet (log 68). -/
def Obligations.TrainingStartsAtANewStepBoundary : Prop :=
  (∀ (s : State),
    (s.stp.phase = .idle) → (s.regB R.TSK_STEP_GRAPH 31 = true) → (s.regB R.TSK_CTRL 0 = true) → (s.red.formed = true) → (s.launchFree = true) → 
    exec .trainingStart s = .next ((s.newStep s.stepNum).startAttempt 0)) ∧
  (∀ (s : State),
    (s.stp.phase ≠ .idle) → 
    exec .trainingStart s = .next s) ∧
  (∀ (s : State),
    (s.stp.phase = .boundary) → (s.stp.due = some .new) → (s.stp.halt ≠ some .exhausted) → (s.regB R.TSK_STEP_GRAPH 31 = true) → (s.launchFree = true) → 
    exec .newStepBoundary s = .next ((s.newStep s.stepNum).startAttempt s.attNum)) ∧
  (∀ (s : State),
    (s.stp.phase = .boundary) → (s.stp.due = some .new) → (s.stp.halt = some .exhausted) → 
    ∃ t, exec .newStepBoundary s = .next t ∧ t.stp.phase = .halted ∧ t.regB R.STEP_EVENTS 3 = true ∧ t.tsk = s.tsk ∧ t.mem = s.mem ∧ t.arr = s.arr) ∧
  (∀ (s : State),
    (s.stp.phase = .boundary) → (s.stp.due = some .new) → (s.stp.halt ≠ some .exhausted) → (s.regB R.TSK_STEP_GRAPH 31 = false) → 
    exec .newStepBoundary s = .next { s with stp := { s.stp with phase := .idle, due := none } }) ∧
  (∀ (s : State),
    (s.stp.phase ≠ .boundary ∨ s.stp.due ≠ some .new) → 
    exec .newStepBoundary s = .next s) ∧
  (∀ (u : State) (a : Nat),
    (u.mem.planFault = false) → (u.lostLink = none) → 
    ∃ t, u.startAttempt a = t ∧ t.stp.phase = .forward ∧ t.stp.attempt = a ∧ t.stp.isOpen = true ∧ t.stp.due = none ∧
    t.tsk.launchQ = u.tsk.launchQ ++ [{ graph := u.polF R.TSK_STEP_GRAPH 7 0, src := .stepControl, tag := some (u.stepNum, a) }] ∧
    t.regs = u.regs ∧ t.mem = u.mem ∧ t.arr = u.arr ∧ t.upd = u.upd ∧ t.fmt = { u.fmt with wireScale := [] } ∧ t.mxe = { u.mxe with gradOut := [], ready := [] }) ∧
  (∀ (u : State) (a : Nat),
    (u.mem.planFault = true) → 
    ∃ (v t : State), u.startAttempt a = t ∧ t = v.findAbort 7 0xFF 0xFFFFFFFF 0xFF ∧ v.stp.phase = .forward ∧ v.stp.attempt = a ∧ v.stp.isOpen = true ∧ v.regB R.STEP_CTRL 8 = true ∧ v.regB R.MEM_EVENTS 9 = true ∧ v.tsk = u.tsk ∧ v.mem = u.mem) ∧
  (∀ (s : State) (n a : Nat),
    (a ∈ policyRegs) → 
    ∃ t, s.newStep n = t ∧ t.pol a = s.reg a) ∧
  (∀ (s : State) (n : Nat) (a : Nat),
    (a ∈ [R.UPD_BETA1, R.UPD_BETA2, R.UPD_KAPPA, R.UPD_DECAY, R.UPD_GRAD_MULT, R.UPD_PROJ_HYST]) → 
    ∃ t, s.newStep n = t ∧ t.pol a = (if (if a = R.UPD_BETA1 ∨ a = R.UPD_BETA2 then f32NonNeg (s.reg a) && XNum.lt (f32 (s.reg a)) (f32 f32One) else if a = R.UPD_DECAY then f32NonNeg (s.reg a)
      else if a = R.UPD_PROJ_HYST then f32NonNeg (s.reg a) && XNum.le (f32 (s.reg a)) (f32 f32Half) else f32Pos (s.reg a)) then s.reg a else s.pol a)) ∧
  (∀ (s : State) (n i : Nat),
    (i ∈ [2, 3, 4, 6, 7]) → 
    ∃ t, s.newStep n = t ∧ t.regB R.DUTY_SPLIT_USED i = s.regB R.DUTY_SPLIT i ∧ t.arr.view = s.arr.view + 1 ∧ t.fmt.began = true) ∧
  (∀ (s : State) (n : Nat),
    (s.regB R.DUTY_SPLIT 7 = true) → (s.upd.fresh = true) → (f32NonNeg (s.reg R.UPD_STEP_SIZE) = true) → 
    ∃ t, s.newStep n = t ∧ t.reg R.UPD_STEP_SIZE_USED = s.reg R.UPD_STEP_SIZE ∧ t.upd.fresh = false) ∧
  (∀ (s : State) (n : Nat),
    (s.regB R.DUTY_SPLIT 7 = true) → (s.upd.fresh = false) → 
    ∃ t, s.newStep n = t ∧ t.reg R.UPD_STEP_SIZE_USED = s.reg R.UPD_STEP_SIZE_USED ∧ t.regB R.UPD_EVENTS 0 = true) ∧
  (∀ (s : State) (n : Nat),
    (s.regB R.DUTY_SPLIT 7 = false) → 
    ∃ t, s.newStep n = t ∧ (f32NonNeg (t.schedAlpha n) = true → t.reg R.UPD_STEP_SIZE_USED = t.schedAlpha n) ∧ (f32NonNeg (t.schedAlpha n) = false → t.reg R.UPD_STEP_SIZE_USED = s.reg R.UPD_STEP_SIZE_USED) ∧
    t.upd.sched = s.upd.sched) ∧
  (∀ (s : State) (n : Nat),
    (s.upd.table ≠ []) → 
    ∃ t, s.newStep n = t ∧ t.upd.consts = s.upd.table.map (t.constsOf n) ∧ t.upd.table = s.upd.table) ∧
  (∀ (s : State) (n : Nat),
    (s.stp.nfEvent = false) → 
    ∃ t, s.newStep n = t ∧ t.fmt.recoveryLeft = s.fmt.recoveryLeft - 1 ∧ t.stp.nfEvent = false ∧
    t.fmt.phase = (if t.polB R.STEP_FMT_CTRL 0 then 2 else if n ≤ t.polF R.STEP_FMT_CTRL 31 16 then 1 else if 1 < s.fmt.recoveryLeft then 3 else 0)) ∧
  (∀ (s : State) (n d : Nat),
    (d < 16) → ((s.kao d).held = none) → ((s.kao d).published = true) → 
    ∃ t, s.newStep n = t ∧ (t.kao d).trimVer = ((s.kao d).trimVer + 1) % 2 ^ 32 ∧ (t.kao d).bankSel = !(s.kao d).bankSel ∧ (t.kao d).published = false ∧ t.regB R.STEP_EVENTS 8 = true) ∧
  (∀ (s : State) (n d : Nat),
    (d < 16) → ((s.kao d).held ≠ none) → 
    ∃ t, s.newStep n = t ∧ (t.kao d).trimVer = (s.kao d).trimVer ∧ (t.kao d).bankSel = (s.kao d).bankSel ∧ (t.kao d).published = (s.kao d).published) ∧
  (∀ (s : State) (n : Nat),
    ∃ t, s.newStep n = t ∧ t.reg R.STEP_IMG_SEQ = (if t.imageView = s.imageView then s.reg R.STEP_IMG_SEQ else s.reg R.STEP_IMG_SEQ + 1) ∧ (t.imageView ≠ s.imageView → t.regB R.STEP_EVENTS 7 = true)) ∧
  (∀ (s : State) (n : Nat),
    ∃ (a b : State), a = s.imageChanges (s.arr.view + 1) ∧ b = a.trimChanges s (s.arr.view + 1) ∧ (∀ d, ((s.newStep n).kao d).trimVer = (b.kao d).trimVer) ∧ (∀ d p, (b.pos d p).version = (a.pos d p).version) ∧ b.policy = s.policy)

/-- R13, R36: a repeat runs under the same choices, and where the repeats are exhausted the member halts. The model's choice: a boundary without a free launch-queue entry waits (log 73). A command whose condition fails changes nothing (log 5). -/
def Obligations.RepeatBoundaryTakesNoPendingChange : Prop :=
  (∀ (s : State),
    (s.stp.phase = .boundary) → (s.stp.due = some .again) → (s.abortedTasks = false) → (s.stp.halt ≠ some .exhausted) → (s.launchFree = true) → (s.mem.planFault = false) → (s.moveChannels.lostLink = none) → 
    ∃ t, exec .repeatBoundary s = .next t ∧ t.stp.phase = .forward ∧ t.stp.attempt = s.attNum ∧ t.policy = s.policy ∧ t.fmt = { s.fmt with wireScale := [] } ∧ t.arr = s.arr ∧ t.upd = s.upd ∧ t.mem = s.mem ∧ t.regs = s.regs) ∧
  (∀ (s : State),
    (s.stp.phase = .boundary) → (s.stp.due = some .again) → (s.abortedTasks = false) → (s.stp.halt = some .exhausted) → 
    ∃ t, exec .repeatBoundary s = .next t ∧ t.stp.phase = .halted ∧ t.regB R.STEP_EVENTS 3 = true ∧ t.tsk = s.tsk ∧ t.mem = s.mem ∧ t.arr = s.arr) ∧
  (∀ (s : State),
    (s.stp.halt ≠ some .exhausted) → (s.launchFree = false) → 
    exec .repeatBoundary s = .next s) ∧
  (∀ (s : State),
    (¬ (s.stp.phase = .boundary ∧ s.stp.due = some .again ∧ s.abortedTasks = false)) → 
    exec .repeatBoundary s = .next s)

/-- R30 (commit), R35 (abort), R36 (repeats), R38 (skip), R39 (skip limit), R40 (hold), R45 (record), R205 (epoch), R216 (numbers). The model's choices: 255 consecutive skips stay 255 (log 213), the counts that an abort withdraws from its record (log 289). A command whose condition fails changes nothing (log 5). -/
def Obligations.CommitSkipAndAbort : Prop :=
  (∀ (s : State) (step att reason voter : Nat) (hold : Bool),
    (s.stp.phase.rest = false) → (step < 2 ^ 64) → 
    ∃ t, s.applyDecision .commit step att reason voter hold = t ∧ t.stp.copySel = (!s.stp.copySel) ∧ t.pair R.STEP_COUNT = step ∧
    t.reg R.STEP_COMMIT_SEQ = s.reg R.STEP_COMMIT_SEQ + 1 ∧ t.reg R.RED_EPOCH = s.reg R.RED_EPOCH + 1 ∧ (t.reg R.STEP_REC_HEAD).toNat = s.nextRec ∧ t.stp.skips = 0 ∧
    t.stp.isOpen = false ∧ t.stp.voted = false ∧ t.stp.waitToken = none ∧ t.stp.abort = none ∧ t.stp.nextAtt = some 0 ∧ t.mem.copy0 = s.mem.copy0 ∧ t.mem.copy1 = s.mem.copy1) ∧
  (∀ (s : State) (step att reason voter : Nat) (hold : Bool),
    (s.stp.phase.rest = false) → 
    ∃ t, s.applyDecision .skip step att reason voter hold = t ∧ t.stp.copySel = s.stp.copySel ∧ t.pair R.STEP_COUNT = s.pair R.STEP_COUNT ∧
    t.reg R.STEP_COMMIT_SEQ = s.reg R.STEP_COMMIT_SEQ ∧ t.reg R.RED_EPOCH = s.reg R.RED_EPOCH + 1 ∧ (t.reg R.STEP_REC_HEAD).toNat = s.nextRec ∧ t.stp.skips = min 255 (s.stp.skips + 1) ∧
    t.stp.isOpen = false ∧ t.stp.voted = false ∧ t.stp.waitToken = none ∧ t.stp.abort = none ∧ t.stp.nextAtt = some 0 ∧ t.committed = s.committed) ∧
  (∀ (s : State) (step att reason voter : Nat) (hold : Bool),
    (s.stp.phase.rest = false) → (step = s.stepNum) → (att = s.stp.attempt) → 
    ∃ t, s.applyDecision .abort step att reason voter hold = t ∧ t.stp.copySel = s.stp.copySel ∧ t.pair R.STEP_COUNT = s.pair R.STEP_COUNT ∧
    t.reg R.STEP_COMMIT_SEQ = s.reg R.STEP_COMMIT_SEQ ∧ t.reg R.RED_EPOCH = s.reg R.RED_EPOCH + 1 ∧ (t.reg R.STEP_REC_HEAD).toNat = s.nextRec ∧ t.stp.skips = s.stp.skips ∧
    t.stp.isOpen = false ∧ t.stp.voted = false ∧ t.stp.waitToken = none ∧ t.stp.abort = none ∧ t.stp.nextAtt = some (s.stp.attempt + 1) ∧ t.committed = s.committed) ∧
  (∀ (s : State) (step att reason voter : Nat) (hold : Bool),
    (s.stp.phase.rest = false) → 
    ∃ t, s.applyDecision .commit step att reason voter hold = t ∧ t.regB R.STEP_EVENTS 0 = true ∧ t.stp.groupHold = hold ∧ t.stp.halt = none ∧ (hold = true → t.regB R.STEP_EVENTS 6 = true) ∧
    t.stp.phase = (if hold then .held else if s.regB R.TSK_STEP_GRAPH 31 then .boundary else .idle) ∧ t.stp.due = (if hold || s.regB R.TSK_STEP_GRAPH 31 then some .new else none)) ∧
  (∀ (s : State) (step att reason voter : Nat) (hold : Bool) (limit : Nat),
    (s.stp.phase.rest = false) → (limit = s.regF R.STEP_CTRL 23 16) → 
    ∃ t, s.applyDecision .skip step att reason voter hold = t ∧ t.regB R.STEP_EVENTS 2 = true ∧ t.stp.groupHold = hold ∧
    (limit ≠ 0 → limit ≤ s.stp.skips + 1 → t.stp.phase = .halted ∧ t.stp.halt = some .skipLimit ∧ t.stp.due = some .new ∧ t.regB R.STEP_EVENTS 4 = true) ∧
    (limit = 0 ∨ s.stp.skips + 1 < limit → t.stp.halt = none ∧ (hold = true → t.regB R.STEP_EVENTS 6 = true) ∧
      t.stp.phase = (if hold then .held else if s.regB R.TSK_STEP_GRAPH 31 then .boundary else .idle) ∧ t.stp.due = (if hold || s.regB R.TSK_STEP_GRAPH 31 then some .new else none))) ∧
  (∀ (s : State) (step att reason voter : Nat) (hold : Bool) (last : Bool),
    (s.stp.phase.rest = false) → (step = s.stepNum) → (last = (s.fnHost 5 || decide (s.regF R.STEP_CTRL 3 0 ≤ s.stp.attempt))) → 
    ∃ t, s.applyDecision .abort step att reason voter hold = t ∧ t.regB R.STEP_EVENTS 1 = true ∧ t.stp.groupHold = hold ∧ t.stp.halt = (if last then some .exhausted else none) ∧
    t.stp.phase = (if hold && !last then .held else .boundary) ∧ (hold = true → last = false → t.regB R.STEP_EVENTS 6 = true) ∧ t.stp.due = some (if s.stp.due = some .new then .new else .again)) ∧
  (∀ (s : State) (step att reason voter : Nat) (hold : Bool),
    (s.stp.phase.rest = false) → 
    ∃ t, s.applyDecision .commit step att reason voter hold = t ∧ (SMap.get (fun _ => {}) t.mem.records s.nextRec : RecEnt).seq = s.stp.recSeq + 1 ∧ (SMap.get (fun _ => {}) t.mem.records s.nextRec : RecEnt).outcome = 1 ∧ (SMap.get (fun _ => {}) t.mem.records s.nextRec : RecEnt).attempt = s.stp.attempt ∧ (SMap.get (fun _ => {}) t.mem.records s.nextRec : RecEnt).pos = s.red.pos ∧ (SMap.get (fun _ => {}) t.mem.records s.nextRec : RecEnt).n = s.groupN ∧ (SMap.get (fun _ => {}) t.mem.records s.nextRec : RecEnt).phase = s.fmt.phase ∧ (SMap.get (fun _ => {}) t.mem.records s.nextRec : RecEnt).hash = s.imageHash ∧ (SMap.get (fun _ => {}) t.mem.records s.nextRec : RecEnt).tFirst = s.stp.startTime ∧ (SMap.get (fun _ => {}) t.mem.records s.nextRec : RecEnt).duty = s.stp.duty ∧ (SMap.get (fun _ => {}) t.mem.records s.nextRec : RecEnt).stepSize = s.reg R.UPD_STEP_SIZE_USED ∧ (SMap.get (fun _ => {}) t.mem.records s.nextRec : RecEnt).buckets = s.stp.cnt.buckets ∧ (SMap.get (fun _ => {}) t.mem.records s.nextRec : RecEnt).step = step ∧ (SMap.get (fun _ => {}) t.mem.records s.nextRec : RecEnt).reason = 0 ∧ (SMap.get (fun _ => {}) t.mem.records s.nextRec : RecEnt).voter = 0xFF ∧ (SMap.get (fun _ => {}) t.mem.records s.nextRec : RecEnt).sat = s.stp.cnt.sat ∧ (SMap.get (fun _ => {}) t.mem.records s.nextRec : RecEnt).clamps = s.stp.cnt.clamps ∧ (SMap.get (fun _ => {}) t.mem.records s.nextRec : RecEnt).nan = s.stp.cnt.nan ∧ (SMap.get (fun _ => {}) t.mem.records s.nextRec : RecEnt).inf = s.stp.cnt.inf) ∧
  (∀ (s : State) (step att reason voter : Nat) (hold : Bool),
    (s.stp.phase.rest = false) → 
    ∃ t, s.applyDecision .skip step att reason voter hold = t ∧ (SMap.get (fun _ => {}) t.mem.records s.nextRec : RecEnt).seq = s.stp.recSeq + 1 ∧ (SMap.get (fun _ => {}) t.mem.records s.nextRec : RecEnt).outcome = 3 ∧ (SMap.get (fun _ => {}) t.mem.records s.nextRec : RecEnt).attempt = s.stp.attempt ∧ (SMap.get (fun _ => {}) t.mem.records s.nextRec : RecEnt).pos = s.red.pos ∧ (SMap.get (fun _ => {}) t.mem.records s.nextRec : RecEnt).n = s.groupN ∧ (SMap.get (fun _ => {}) t.mem.records s.nextRec : RecEnt).phase = s.fmt.phase ∧ (SMap.get (fun _ => {}) t.mem.records s.nextRec : RecEnt).hash = s.imageHash ∧ (SMap.get (fun _ => {}) t.mem.records s.nextRec : RecEnt).tFirst = s.stp.startTime ∧ (SMap.get (fun _ => {}) t.mem.records s.nextRec : RecEnt).duty = s.stp.duty ∧ (SMap.get (fun _ => {}) t.mem.records s.nextRec : RecEnt).stepSize = s.reg R.UPD_STEP_SIZE_USED ∧ (SMap.get (fun _ => {}) t.mem.records s.nextRec : RecEnt).buckets = s.stp.cnt.buckets ∧ (SMap.get (fun _ => {}) t.mem.records s.nextRec : RecEnt).step = s.stepNum ∧ (SMap.get (fun _ => {}) t.mem.records s.nextRec : RecEnt).reason = 0 ∧ (SMap.get (fun _ => {}) t.mem.records s.nextRec : RecEnt).voter = 0xFF ∧ (SMap.get (fun _ => {}) t.mem.records s.nextRec : RecEnt).sat = s.stp.cnt.sat ∧ (SMap.get (fun _ => {}) t.mem.records s.nextRec : RecEnt).clamps = s.stp.cnt.clamps) ∧
  (∀ (s : State) (step att reason voter : Nat) (hold : Bool),
    (s.stp.phase.rest = false) → 
    ∃ t, s.applyDecision .abort step att reason voter hold = t ∧ (SMap.get (fun _ => {}) t.mem.records s.nextRec : RecEnt).seq = s.stp.recSeq + 1 ∧ (SMap.get (fun _ => {}) t.mem.records s.nextRec : RecEnt).outcome = 2 ∧ (SMap.get (fun _ => {}) t.mem.records s.nextRec : RecEnt).attempt = s.stp.attempt ∧ (SMap.get (fun _ => {}) t.mem.records s.nextRec : RecEnt).pos = s.red.pos ∧ (SMap.get (fun _ => {}) t.mem.records s.nextRec : RecEnt).n = s.groupN ∧ (SMap.get (fun _ => {}) t.mem.records s.nextRec : RecEnt).phase = s.fmt.phase ∧ (SMap.get (fun _ => {}) t.mem.records s.nextRec : RecEnt).hash = s.imageHash ∧ (SMap.get (fun _ => {}) t.mem.records s.nextRec : RecEnt).tFirst = s.stp.startTime ∧ (SMap.get (fun _ => {}) t.mem.records s.nextRec : RecEnt).duty = s.stp.duty ∧ (SMap.get (fun _ => {}) t.mem.records s.nextRec : RecEnt).stepSize = s.reg R.UPD_STEP_SIZE_USED ∧ (SMap.get (fun _ => {}) t.mem.records s.nextRec : RecEnt).buckets = s.stp.cnt.buckets ∧ (SMap.get (fun _ => {}) t.mem.records s.nextRec : RecEnt).step = s.stepNum ∧ (SMap.get (fun _ => {}) t.mem.records s.nextRec : RecEnt).reason = reason ∧ (SMap.get (fun _ => {}) t.mem.records s.nextRec : RecEnt).voter = voter ∧ (SMap.get (fun _ => {}) t.mem.records s.nextRec : RecEnt).sat = 0 ∧ (SMap.get (fun _ => {}) t.mem.records s.nextRec : RecEnt).clamps = 0 ∧ (SMap.get (fun _ => {}) t.mem.records s.nextRec : RecEnt).nan = s.stp.cnt.nan ∧ (SMap.get (fun _ => {}) t.mem.records s.nextRec : RecEnt).inf = s.stp.cnt.inf)

/-- R27, R28, R47. The model's choice: PHASE shows VOTE until the decision (log 192). A command whose condition fails changes nothing (log 5). -/
def Obligations.ReadyMemberVotes : Prop :=
  (∀ (s : State),
    (s.stp.isOpen = true) → (s.stp.drafted = false) → (s.stp.fixed = none) → (s.partsDone = true) → ((s.updD 0).skip = false) → ((s.updD 1).skip = false) → (s.groupN ≤ 1) → 
    ∃ u, u = s.draftRecord.modStp (fun x => { x with phase := .vote, skipVote := false }) ∧ u.stp.drafted = true ∧ exec .memberReady s = .next (u.applyDecision .commit u.stepNum u.stp.attempt 0 0xFF (u.regB R.STEP_CTRL 8))) ∧
  (∀ (s : State),
    (s.stp.isOpen = true) → (s.stp.drafted = false) → (s.stp.fixed = none) → (s.partsDone = true) → ((s.updD 0).skip = true ∨ (s.updD 1).skip = true) → (s.groupN ≤ 1) → 
    ∃ u, u = (s.draftRecord.modStp (fun x => { x with phase := .vote, skipVote := true })).event R.UPD_EVENTS 4 ∧ exec .memberReady s = .next (u.applyDecision .skip u.stepNum u.stp.attempt 0 0xFF (u.regB R.STEP_CTRL 8))) ∧
  (∀ (s : State),
    (s.stp.isOpen = true) → (s.stp.drafted = false) → (s.stp.fixed = none) → (s.partsDone = true) → (1 < s.groupN) → (s.red.pos = 0) → (s.stp.firstSent = false) → 
    ∃ (u t : State), exec .memberReady s = .next t ∧ t = (u.sendToken u.firstToken).modStp (fun x => { x with firstSent := true, voted := true }) ∧ u.stp.drafted = true ∧ u.stp.phase = .vote ∧ u.stp.skipVote = ((s.updD 0).skip || (s.updD 1).skip) ∧ u.red = s.red ∧ u.mem = s.draftRecord.mem ∧ t.stp.copySel = s.stp.copySel) ∧
  (∀ (s : State),
    (s.stp.isOpen = true) → (s.stp.drafted = false) → (s.stp.fixed = none) → (s.partsDone = true) → (1 < s.groupN) → (s.red.pos ≠ 0) → (s.stp.waitToken = none) → 
    ∃ t, exec .memberReady s = .next t ∧ t.stp.voted = s.stp.voted ∧ t.stp.drafted = true ∧ t.stp.phase = .vote ∧ t.out = s.out) ∧
  (∀ (s : State),
    (s.stp.isOpen = false ∨ s.stp.drafted = true ∨ s.stp.fixed.isSome = true ∨ s.partsDone = false) → 
    exec .memberReady s = .next s)

/-- R27, R28, R29, R30, R216, R226, R287. The model's choices: a member that forwards a token with ABORT has voted (log 77), and a second pass of another epoch, step or attempt at position 0 is a step-counter mismatch (log 288). A command whose condition fails changes nothing (log 5). -/
def Obligations.CommitTokensPassTheRing : Prop :=
  (∀ (s : State) (t : Token),
    (t.gid ≠ s.red.gid ∨ t.size ≠ s.groupN) → 
    exec (.firstPassToken t) s = .next ((s.takeRx 4 (fun f => f.startsWith (Token.bytes t))).event R.EZL_EVENTS 9) ∧ exec (.secondPassToken t) s = .next ((s.takeRx 4 (fun f => f.startsWith (Token.bytes t))).event R.EZL_EVENTS 9)) ∧
  (∀ (s : State) (t : Token),
    (t.gid = s.red.gid) → (t.size = s.groupN) → (t.epoch < s.epoch ∨ s.stp.seen.any (Token.same t) = true) → 
    exec (.firstPassToken t) s = .next (s.takeRx 4 (fun f => f.startsWith (Token.bytes t))) ∧ exec (.secondPassToken t) s = .next (s.takeRx 4 (fun f => f.startsWith (Token.bytes t)))) ∧
  (∀ (s : State) (t : Token),
    (t.gid = s.red.gid) → (t.size = s.groupN) → (t.epoch = s.epoch) → (s.stp.seen.any (Token.same t) = false) → (t.step = s.stepNum) → (t.attempt = s.attNum) → (s.red.pos = 0) → (s.stp.firstSent = true) → (s.stp.fixed = none) → (s.stp.heldReq = none) → (s.stp.abort = none) → (t.skip = s.stp.skipVote) → 
    ∃ (v u : State), exec (.firstPassToken t) s = .next u ∧ u = v.sendToken { t with second := true, decision := some (if t.abort then .abort else if t.skip then .skip else .commit) } ∧ v.red = s.red ∧ v.ezl.link = s.ezl.link ∧ u.stp.secondSent = true ∧ u.stp.copySel = s.stp.copySel ∧ u.mem = s.mem ∧
    u.stp.fixed = some { step := s.stepNum, attempt := s.attNum, epoch := s.epoch, decision := if t.abort then .abort else if t.skip then .skip else .commit, reason := t.reason, voter := t.firstVoter, hold := t.hold }) ∧
  (∀ (s : State) (t : Token) (r : Nat × Nat),
    (t.gid = s.red.gid) → (t.size = s.groupN) → (t.epoch = s.epoch) → (s.stp.seen.any (Token.same t) = false) → (t.step = s.stepNum) → (t.attempt = s.attNum) → (s.red.pos = 0) → (s.stp.firstSent = true) → (s.stp.fixed = none) → (s.stp.heldReq = some r) → (t.abort = false) → 
    ∃ (v u : State), exec (.firstPassToken t) s = .next u ∧ u = v.sendToken { t with abort := true, reason := r.1, firstVoter := r.2, second := true, decision := some .abort } ∧ v.red = s.red ∧ u.stp.secondSent = true ∧ u.stp.copySel = s.stp.copySel ∧ u.mem = s.mem ∧
    u.stp.fixed = some { step := s.stepNum, attempt := s.attNum, epoch := s.epoch, decision := .abort, reason := r.1, voter := r.2, hold := t.hold }) ∧
  (∀ (s : State) (t : Token),
    (t.gid = s.red.gid) → (t.size = s.groupN) → (t.epoch = s.epoch) → (s.stp.seen.any (Token.same t) = false) → (t.step = s.stepNum) → (t.attempt = s.attNum) → (s.red.pos ≠ 0) → (s.stp.isOpen = true) → (s.stp.drafted = true) → (s.stp.abort = none) → (t.abort = false) → (t.skip = s.stp.skipVote) → 
    ∃ (v u : State), exec (.firstPassToken t) s = .next u ∧ u = (v.sendToken { t with hold := t.hold || s.regB R.STEP_CTRL 8 }).modStp (fun x => { x with waitToken := none, voted := true }) ∧ v.red = s.red ∧ u.stp.voted = true ∧ u.stp.waitToken = none ∧ u.stp.copySel = s.stp.copySel ∧ u.mem = s.mem) ∧
  (∀ (s : State) (t : Token),
    (t.gid = s.red.gid) → (t.size = s.groupN) → (t.epoch = s.epoch) → (s.stp.seen.any (Token.same t) = false) → (t.step = s.stepNum) → (t.attempt = s.attNum) → (s.red.pos ≠ 0) → (s.stp.isOpen = true) → (s.stp.drafted = false) → (s.stp.abort = none) → (t.abort = false) → 
    ∃ u, exec (.firstPassToken t) s = .next u ∧ u.stp = { s.stp with seen := s.stp.seen ++ [t], waitToken := some t } ∧ u.out = s.out ∧ u.regs = s.regs ∧ u.mem = s.mem) ∧
  (∀ (s : State) (t : Token) (code : Nat),
    (t.gid = s.red.gid) → (t.size = s.groupN) → (t.epoch = s.epoch) → (s.stp.seen.any (Token.same t) = false) → (t.step = s.stepNum) → (t.attempt = s.attNum) → (s.red.pos ≠ 0) → (s.stp.isOpen = true) → (s.stp.abort = some code) → (t.abort = false) → 
    ∃ (v u : State), exec (.firstPassToken t) s = .next u ∧ u = (v.sendToken { t with abort := true, reason := code, firstVoter := s.red.pos, skip := t.skip || s.stp.skipVote, hold := t.hold || s.regB R.STEP_CTRL 8 }).modStp (fun x => { x with waitToken := none, voted := true }) ∧ v.red = s.red ∧ u.stp.voted = true ∧ u.stp.waitToken = none ∧ u.mem = s.mem) ∧
  (∀ (s : State) (t : Token),
    (t.gid = s.red.gid) → (t.size = s.groupN) → (t.epoch = s.epoch) → (s.stp.seen.any (Token.same t) = false) → (t.step = s.stepNum) → (t.attempt = s.attNum) → (s.red.pos ≠ 0) → (t.abort = true) → 
    ∃ (v u : State), exec (.firstPassToken t) s = .next u ∧ u = (v.sendToken { t with skip := t.skip || s.stp.skipVote, hold := t.hold || s.regB R.STEP_CTRL 8 }).modStp (fun x => { x with waitToken := none, voted := true }) ∧ v.red = s.red ∧ u.stp.voted = true ∧ u.stp.waitToken = none ∧ u.mem = s.mem) ∧
  (∀ (s : State) (t : Token),
    (t.gid = s.red.gid) → (t.size = s.groupN) → (t.epoch = s.epoch) → (s.stp.seen.any (Token.same t) = false) → (t.step = s.stepNum) → (t.attempt = s.attNum) → (s.red.pos ≠ 0) → (s.stp.isOpen = true) → (s.stp.drafted = true) → (s.stp.abort = none) → (t.abort = false) → (t.skip ≠ s.stp.skipVote) → 
    ∃ (v u : State), exec (.firstPassToken t) s = .next u ∧ u = (v.sendToken { t with abort := true, reason := 0x500, firstVoter := s.red.pos, skip := t.skip || s.stp.skipVote, hold := t.hold || s.regB R.STEP_CTRL 8 }).modStp (fun x => { x with waitToken := none, voted := true }) ∧ v.red = s.red ∧ u.stp.abort = some 0x500 ∧ u.stp.voted = true) ∧
  (∀ (s : State) (t : Token),
    (t.gid = s.red.gid) → (t.size = s.groupN) → (s.epoch ≤ t.epoch) → (s.stp.seen.any (Token.same t) = false) → (s.red.pos = 0) → (t.step ≠ s.stepNum ∨ t.attempt ≠ s.attNum ∨ t.epoch ≠ s.epoch) → 
    ∃ u, u = (s.takeRx 4 (fun f => f.startsWith (Token.bytes t))).modStp (fun x => { x with seen := x.seen ++ [t] }) ∧ exec (.secondPassToken t) s = .next (u.findAbort 3 0xFF 0xFFFFFFFF 0xFF)) ∧
  (∀ (s : State) (t : Token) (d : Decision),
    (t.gid = s.red.gid) → (t.size = s.groupN) → (s.epoch ≤ t.epoch) → (s.stp.seen.any (Token.same t) = false) → (s.red.pos ≠ 0) → (t.decision = some d) → 
    ∃ u, u = (s.takeRx 4 (fun f => f.startsWith (Token.bytes t))).modStp (fun x => { x with seen := x.seen ++ [t] }) ∧ exec (.secondPassToken t) s = .next ((u.takeDecision d t.step t.epoch t.attempt t.reason t.firstVoter t.hold).sendToken t)) ∧
  (∀ (s : State) (t : Token) (r : DecRec),
    (t.gid = s.red.gid) → (t.size = s.groupN) → (t.epoch = s.epoch) → (s.stp.seen.any (Token.same t) = false) → (s.red.pos = 0) → (s.stp.fixed = some r) → (t.step = s.stepNum) → (t.attempt = s.attNum) → 
    ∃ u, u = (s.takeRx 4 (fun f => f.startsWith (Token.bytes t))).modStp (fun x => { x with seen := x.seen ++ [t] }) ∧ exec (.secondPassToken t) s = .next (u.applyDecision r.decision r.step r.attempt r.reason r.voter r.hold)) ∧
  (∀ (s : State) (d : Decision) (step epoch att reason voter : Nat) (hold : Bool),
    (epoch = s.epoch) → (step = s.stepNum) → (att = s.attNum) → (s.stp.isOpen = true) → 
    s.takeDecision d step epoch att reason voter hold = s.applyDecision d step att reason voter hold)

/-- R29, R32, R33, R289. The model's choice: the abort timeout also runs for a request that started the pass and for position 0's own reason (log 78). A command whose condition fails changes nothing (log 5), and a timer command stands for its elapsed time (log 4). -/
def Obligations.AbortRequestsAndTimeouts : Prop :=
  (∀ (s : State) (c : CtrlMsg),
    (s.red.pos = 0) → (1 < s.groupN) → (c.epoch < s.epoch ∨ s.stp.fixed.isSome = true) → 
    exec (.abortRequest c) s = .next ((s.takeRx 3 (fun f => f.startsWith (ctrlBytes 1 c))).log 9 1 0xFF c.reason c.pos)) ∧
  (∀ (s : State) (c : CtrlMsg),
    (s.red.pos = 0) → (1 < s.groupN) → (s.epoch ≤ c.epoch) → (s.stp.fixed = none) → (s.stp.firstSent = true) → 
    ∃ t, exec (.abortRequest c) s = .next t ∧ t.stp = { s.stp with heldReq := some (s.stp.heldReq.getD (c.reason, c.pos)) } ∧ t.regs = s.regs ∧ t.out = s.out ∧ t.mem = s.mem) ∧
  (∀ (s : State) (c : CtrlMsg),
    (s.red.pos = 0) → (1 < s.groupN) → (s.epoch ≤ c.epoch) → (s.stp.fixed = none) → (s.stp.firstSent = false) → 
    ∃ (u t : State) (k : Token), exec (.abortRequest c) s = .next t ∧ t = (u.sendToken k).modStp (fun x => { x with firstSent := true, voted := true }) ∧ u.red = s.red ∧ k.abort = true ∧ (s.stp.abort = none → k.reason = c.reason ∧ k.firstVoter = c.pos) ∧
    k.step = s.stepNum ∧ k.attempt = s.attNum ∧ k.epoch = s.epoch ∧ k.gid = s.red.gid ∧ k.size = s.groupN ∧ k.second = false ∧ t.stp.heldReq = some (c.reason, c.pos) ∧ t.stp.firstSent = true ∧ t.stp.isOpen = true ∧ t.stp.copySel = s.stp.copySel ∧ t.mem = s.mem) ∧
  (∀ (s : State),
    (s.red.pos = 0) → (s.stp.firstSent = true) → (s.stp.fixed = none) → (s.stp.heldReq ≠ none ∨ s.stp.abort ≠ none) → 
    ∃ (u t : State), exec .abortRequestTimeout s = .next t ∧ t = u.sendToken { s.firstToken with abort := true, second := true, decision := some .abort } ∧ u.red = s.red ∧ u.ezl = s.ezl ∧ (∃ r, t.stp.fixed = some r ∧ r.decision = .abort ∧ r.step = s.stepNum ∧ r.attempt = s.attNum) ∧ t.stp.secondSent = true ∧ t.stp.copySel = s.stp.copySel ∧ t.mem = s.mem) ∧
  (∀ (s : State),
    (s.red.pos ≠ 0 ∨ s.stp.firstSent = false ∨ s.stp.fixed.isSome = true) → 
    exec .abortRequestTimeout s = .next s) ∧
  (∀ (s : State),
    (s.stp.isOpen = true) → (s.stp.voted = true) → (s.red.pos ≠ 0) → (1 < s.groupN) → (s.stp.phase.rest = false) → 
    ∃ (u t : State), exec .commitTimeout s = .next t ∧ t = u.sendCtrl (s.moduleAt 0) 2 { step := s.stepNum, attempt := s.attNum, epoch := s.epoch, src := s.me } ∧ u.ezl = s.ezl ∧ (s.stp.queried = true → u = s) ∧ (s.stp.queried = false → t.regB R.STEP_EVENTS 5 = true) ∧ t.stp.queried = true ∧ (s.stp.queried = false → t.stp.phase = .decided) ∧ t.stp.copySel = s.stp.copySel ∧ t.stp.isOpen = true ∧ t.mem = s.mem) ∧
  (∀ (s : State),
    (s.stp.isOpen = false ∨ s.stp.voted = false ∨ s.red.pos = 0) → 
    exec .commitTimeout s = .next s) ∧
  (∀ (s : State) (r : DecRec),
    (s.red.pos = 0) → (s.stp.fixed = some r) → (s.stp.secondSent = true) → 
    ∃ u, u = s.eventLog R.STEP_EVENTS 5 9 4 0 s.stp.attempt ∧ exec .secondPassTimeout s = .next ((u.applyDecision r.decision r.step r.attempt r.reason r.voter r.hold).sendMembers (r.ctrl (u.applyDecision r.decision r.step r.attempt r.reason r.voter r.hold).me))) ∧
  (∀ (s : State),
    (s.stp.fixed = none) → 
    exec .secondPassTimeout s = .next s)

/-- R32, R33, R41, R226, R289. The model's choices: a direct decision taken in HALTED stands for the host's skip or repeat (log 80), and the member's own HOLD_REQ bit is the HOLD of a reply or direct decision (log 79). A command whose condition fails changes nothing (log 5). -/
def Obligations.DecisionQueriesAndReplies : Prop :=
  (∀ (s : State) (c : CtrlMsg) (r : DecRec),
    (s.red.pos = 0) → ((s.stp.fixed.toList ++ s.stp.decisions).find? (fun r => decide (r.step = c.step) && decide (r.attempt = c.attempt) && decide (r.epoch = c.epoch)) = some r) → 
    ∃ u, u = s.takeRx 3 (fun f => f.src == c.src && f.startsWith (ctrlBytes 2 c)) ∧ exec (.decisionQuery c) s = .next (u.sendCtrl c.src 3 (r.ctrl u.me))) ∧
  (∀ (s : State) (c : CtrlMsg),
    (s.red.pos ≠ 0 ∨ (s.stp.fixed.toList ++ s.stp.decisions).find? (fun r => decide (r.step = c.step) && decide (r.attempt = c.attempt) && decide (r.epoch = c.epoch)) = none) → 
    exec (.decisionQuery c) s = .next (s.takeRx 3 (fun f => f.src == c.src && f.startsWith (ctrlBytes 2 c)))) ∧
  (∀ (s : State) (c : CtrlMsg) (d : Decision),
    (c.decision = some d) → (s.red.pos ≠ 0) → (s.stp.isOpen = true) → (s.stp.voted = true) → (s.epoch ≤ c.epoch) → 
    ∃ u, u = s.takeRx 3 (fun f => f.src == c.src && f.startsWith (ctrlBytes 3 c)) ∧ exec (.decisionReply c) s = .next (u.takeDecision d c.step c.epoch c.attempt c.reason c.pos (u.regB R.STEP_CTRL 8))) ∧
  (∀ (s : State) (c : CtrlMsg) (d : Decision),
    (c.decision = some d) → (s.red.pos ≠ 0) → (s.epoch ≤ c.epoch) → (s.stp.isOpen = true) → 
    ∃ u, u = s.takeRx 3 (fun f => f.src == c.src && f.startsWith (ctrlBytes 4 c)) ∧ exec (.decisionDirect c) s = .next (u.takeDecision d c.step c.epoch c.attempt c.reason c.pos (u.regB R.STEP_CTRL 8))) ∧
  (∀ (s : State) (c : CtrlMsg) (d : Decision),
    (c.decision = some d) → (d ≠ .abort) → (s.stp.isOpen = false) → (s.stp.phase ≠ .halted) → 
    exec (.decisionDirect c) s = .next (s.takeRx 3 (fun f => f.src == c.src && f.startsWith (ctrlBytes 4 c)))) ∧
  (∀ (s : State) (c : CtrlMsg),
    (s.red.pos ≠ 0) → (s.epoch ≤ c.epoch) → (s.stp.isOpen = false) → (s.stp.phase = .halted) → 
    ∃ u, u = s.takeRx 3 (fun f => f.src == c.src && f.startsWith (ctrlBytes 4 c)) ∧ (c.decision = some .skip → exec (.decisionDirect c) s = .next u.hostSkip) ∧ (c.decision = none → exec (.decisionDirect c) s = .next u.hostRepeat))

/-- R40, R41, R42, R422. The model's choices: the members hear the host's skip or repeat by a direct decision (log 80), a host skip raises RED_EPOCH (log 81), 255 consecutive skips stay 255 (log 213), a group that holds goes to HELD from HALTED, and GROUP_HOLD is set by a decision or by leaving HALTED alone (log 277). A command whose condition fails changes nothing (log 5). -/
def Obligations.HoldsAndHostDecisions : Prop :=
  (∀ (s : State),
    (s.regB R.STEP_CTRL 8 = false) → 
    exec .groupHoldRelease s = .next { s with stp := { s.stp with groupHold := false, phase := if s.stp.phase = .held then .boundary else s.stp.phase } }) ∧
  (∀ (s : State),
    (s.regB R.STEP_CTRL 8 = true) → 
    exec .groupHoldRelease s = .next s) ∧
  (∀ (s : State) (rq : Requester),
    (s.stp.phase = .halted) → (s.red.pos = 0) → 
    exec (.stepDecideNone rq) s = .next s ∧ exec (.stepDecideStop rq) s = .next s) ∧
  (∀ (s : State) (rq : Requester),
    (s.stp.phase = .halted) → (s.red.pos = 0) → (s.stp.halt ≠ some .exhausted ∨ s.stp.attempt < 255) → 
    ∃ (u t : State), u = s.sendMembers (s.hostFrame none) ∧ exec (.stepDecideRepeat rq) s = .next t ∧ t = u.hostRepeat ∧ t.stp.groupHold = (s.stp.groupHold || s.regB R.STEP_CTRL 8) ∧ t.stp.phase = (if s.stp.groupHold || s.regB R.STEP_CTRL 8 then .held else .boundary) ∧ t.stp.halt = none ∧ t.stp.due = some (if s.stp.halt = some .exhausted then .again else .new) ∧ t.stp.copySel = s.stp.copySel ∧ t.mem = s.mem) ∧
  (∀ (s : State) (rq : Requester),
    (s.stp.phase = .halted) → (s.red.pos = 0) → (s.stp.halt = some .exhausted) → (255 ≤ s.stp.attempt) → 
    exec (.stepDecideRepeat rq) s = .next (s.refuseWrite rq R.STEP_DECIDE 1 1)) ∧
  (∀ (s : State) (rq : Requester),
    (s.stp.phase = .halted) → (s.red.pos = 0) → 
    ∃ (u t : State), u = s.sendMembers (s.hostFrame (some .skip)) ∧ exec (.stepDecideSkip rq) s = .next t ∧ t = u.hostSkip ∧ t.reg R.RED_EPOCH = s.reg R.RED_EPOCH + 1 ∧ (t.reg R.STEP_REC_HEAD).toNat = s.nextRec ∧ t.stp.groupHold = (s.stp.groupHold || s.regB R.STEP_CTRL 8) ∧ t.stp.phase = (if s.stp.groupHold || s.regB R.STEP_CTRL 8 then .held else .boundary) ∧ t.stp.halt = none ∧ t.stp.due = some .new ∧ t.stp.skips = min 255 (s.stp.skips + 1) ∧ t.stp.nextAtt = some 0 ∧ t.stp.copySel = s.stp.copySel ∧ t.stp.recSeq = s.stp.recSeq + 1 ∧ t.mem.copy0 = s.mem.copy0 ∧ t.mem.copy1 = s.mem.copy1) ∧
  (∀ (s : State) (rq : Requester),
    (s.stp.phase ≠ .halted ∨ s.red.pos ≠ 0) → 
    exec (.stepDecideNone rq) s = .next (s.refuseWrite rq R.STEP_DECIDE 0 0) ∧ exec (.stepDecideRepeat rq) s = .next (s.refuseWrite rq R.STEP_DECIDE 1 0) ∧
    exec (.stepDecideSkip rq) s = .next (s.refuseWrite rq R.STEP_DECIDE 2 0) ∧ exec (.stepDecideStop rq) s = .next (s.refuseWrite rq R.STEP_DECIDE 3 0))

/-- R23, R24, R26, R45, R202. The model's choices: a write with one byte that a pass uses is held whole (log 86), while the pass of either die over it runs (log 274). A command whose condition fails changes nothing (log 5). -/
def Obligations.CommittedWindow : Prop :=
  (∀ (s : State) (off len : Nat),
    (s.ready = true) → 
    exec (.committedWindowRead off len) s = .next (s.emit (.hostData ((List.range len).map (fun i =>
      if off + i < 0x3C0000000 then (if s.upd.holds (s.winBase + off + i) then s.committed.byte (s.winBase + off + i) else 0) else s.recordByte (off + i - 0x3C0000000))) false))) ∧
  (∀ (s : State) (off : Nat) (bs : List Byte),
    (s.ready = true) → (s.quiet = true) → (off < 0x3C0000000) → (s.winBase + off < s.upd.space) → (s.heldBy (s.winBase + off) bs = none) → 
    exec (.committedWindowWrite off bs) s = .next (s.writeCopies (s.winBase + off) bs)) ∧
  (∀ (s : State) (off : Nat) (bs : List Byte) (d : Nat),
    (s.ready = true) → (s.quiet = true) → (off < 0x3C0000000) → (s.winBase + off < s.upd.space) → (s.heldBy (s.winBase + off) bs = some d) → 
    exec (.committedWindowWrite off bs) s = .next (s.setUpd d { s.updD d with heldWrites := (s.updD d).heldWrites ++ [(s.winBase + off, bs)] })) ∧
  (∀ (s : State) (off : Nat) (bs : List Byte),
    (s.ready = true) → (off < 0x3C0000000) → (s.upd.space ≤ s.winBase + off) → 
    exec (.committedWindowWrite off bs) s = .next s) ∧
  (∀ (s : State) (o : Nat) (bs : List Byte),
    ∃ t, s.writeCopies o bs = t ∧ t.mem.hbm = s.mem.hbm ∧ t.regs = s.regs ∧ t.stp = s.stp ∧ t.upd = s.upd ∧
    (∀ x, t.mem.copy0.byte x = (if o ≤ x ∧ x < o + bs.length ∧ s.upd.holds x = true then bs.getD (x - o) 0 else s.mem.copy0.byte x) ∧ t.mem.copy1.byte x = (if o ≤ x ∧ x < o + bs.length ∧ s.upd.holds x = true then bs.getD (x - o) 0 else s.mem.copy1.byte x))) ∧
  (∀ (s : State) (off : Nat) (bs : List Byte),
    (s.ready = true) → (s.quiet = false) → (off < 0x3C0000000) → (s.winBase + off < s.upd.space) → 
    exec (.committedWindowWrite off bs) s = .next (s.eventLog R.STEP_EVENTS 9 9 1 0 off)) ∧
  (∀ (s : State) (off : Nat) (bs : List Byte),
    (s.ready = true) → 
    exec (.stepRecordRingWrite off bs) s = .next (s.log 9 1 0xFF 1 (off + bs.length * 2 ^ 64)) ∧
    (0x3C0000000 ≤ off → off < 0x3C4100000 → exec (.committedWindowWrite off bs) s = .next (s.log 9 1 0xFF 1 (off + bs.length * 2 ^ 64))))

/-- R85 to R87: the analogue-to-digital conversion of a column. The model's choice is the unit: counts in 1/256 level (log 197). -/
def Obligations.AdcConversionRounds : Prop :=
  (∀ (bits : Nat) (e : Int) (y : Nat),
    (convert bits e y).1 ≤ 2 ^ bits - 1 ∧ ((convert bits e y).2 = false → 2 * ((convert bits e y).1 * 2 ^ (e + 8).toNat) ≤ 2 * y + 2 ^ (e + 8).toNat ∧ 2 * y ≤ 2 * ((convert bits e y).1 * 2 ^ (e + 8).toNat) + 2 ^ (e + 8).toNat) ∧
    ((convert bits e y).2 = true → (convert bits e y).1 = 2 ^ bits - 1)) ∧
  (∀ (bits : Nat) (e : Int) (f : Nat),
    (0 < (e + 8).toNat) → (f + 1 ≤ 2 ^ bits - 1) → 
    (convert bits e (f * 2 ^ (e + 8).toNat + 2 ^ (e + 8).toNat / 2)).1 = f + f % 2) ∧
  (∀ (n : Nat),
    (1 ≤ n) → (n ≤ 1024) → 
    readBits n = (if n = 1 then 4 else if n = 2 then 5 else if n ≤ 4 then 6 else if n ≤ 8 then 7 else if n ≤ 17 then 8 else 9)) ∧
  (∀ (n range : Nat),
    (1 ≤ n) → (n ≤ 1024) → 
    lsbExp n range = (if n ≤ 34 then 0 else (if n ≤ 68 then 1 else if n ≤ 136 then 2 else if n ≤ 272 then 3 else if n ≤ 545 then 4 else 5) - (range : Int)))

/-- R63, R86 to R91, R97 to R99, R132. The model's choices: a chain with a NaN block scale converts no vector and counts once (log 220), the header of an input record (log 221), results leave at completion (log 242), a refused request gives one NaN per weight column also under R132 (log 281), a position confirmed by LOAD waits as R132 says; conversions not listed in the operand are those of ideal cells (log 196). A command whose condition fails changes nothing (log 5). -/
def Obligations.GroupRequestsAndPasses : Prop :=
  (∀ (s : State) (k : Kaolin),
    ((s.kao k).link = []) → 
    exec (.groupRequest k) s = .next s) ∧
  (∀ (s : State) (k : Kaolin) (q : PassReq) (rest : List PassReq),
    ((s.kao k).link = q :: rest) → (s.matAt k q.mat = none) → 
    exec (.groupRequest k) s = .next ((s.setKao k { s.kao k with link := rest }).badRequest k q [])) ∧
  (∀ (s : State) (k : Kaolin) (q : PassReq) (rest : List PassReq) (e : MatEnt),
    ((s.kao k).link = q :: rest) → (s.matAt k q.mat = some e) → (s.reqChain e q < q.chain ∨ q.input.length ≠ e.recBytes q.chain ∨ leAt q.input 0 4 ≠ e.recBytes q.chain ∨ s.matWaits e = true) → 
    exec (.groupRequest k) s = .next ((s.setKao k { s.kao k with link := rest }).badRequest k q (nanResult (e.cols q.cb)))) ∧
  (∀ (s : State) (k : Kaolin) (q : PassReq) (rest : List PassReq) (e : MatEnt),
    ((s.kao k).link = q :: rest) → (s.matAt k q.mat = some e) → (q.chain ≤ s.reqChain e q) → (q.input.length = e.recBytes q.chain) → (leAt q.input 0 4 = e.recBytes q.chain) → (s.matWaits e = false) → (((e.grpBlocks q.grp).map (fun rb => e.posOf q.cb rb)).any (fun p => (s.pos k p).fbFor q.view) = true) → 
    exec (.groupRequest k) s = .next ((s.setKao k { s.kao k with link := rest }).fbGroup k e q)) ∧
  (∀ (s : State) (k : Kaolin) (q : PassReq) (rest : List PassReq) (e : MatEnt),
    ((s.kao k).link = q :: rest) → (s.matAt k q.mat = some e) → (q.chain ≤ s.reqChain e q) → (q.input.length = e.recBytes q.chain) → (leAt q.input 0 4 = e.recBytes q.chain) → (s.matWaits e = false) → (((e.grpBlocks q.grp).map (fun rb => e.posOf q.cb rb)).any (fun p => (s.pos k p).fbFor q.view) = false) → ((s.kao k).queue.length < 4095) → 
    exec (.groupRequest k) s = .next ((s.setKao k { s.kao k with link := rest }).setKao k { (s.setKao k { s.kao k with link := rest }).kao k with queue := ((s.setKao k { s.kao k with link := rest }).kao k).queue ++ [{ q with born := s.time }] })) ∧
  (∀ (s : State) (k : Kaolin) (q : PassReq) (rest : List PassReq) (e : MatEnt),
    ((s.kao k).link = q :: rest) → (s.matAt k q.mat = some e) → (q.chain ≤ s.reqChain e q) → (q.input.length = e.recBytes q.chain) → (leAt q.input 0 4 = e.recBytes q.chain) → (s.matWaits e = false) → (((e.grpBlocks q.grp).map (fun rb => e.posOf q.cb rb)).any (fun p => (s.pos k p).fbFor q.view) = false) → ((s.kao k).queue.length = 4095) → 
    exec (.groupRequest k) s = .next (((s.setKao k { s.kao k with link := rest }).setKao k { (s.setKao k { s.kao k with link := rest }).kao k with queue := ((s.setKao k { s.kao k with link := rest }).kao k).queue ++ [{ q with born := s.time }] }).event (R.ARR_EVENTS k) 0)) ∧
  (∀ (s : State) (k : Kaolin) (q : PassReq) (rest : List PassReq) (e : MatEnt),
    ((s.kao k).link = q :: rest) → (s.matAt k q.mat = some e) → (q.chain ≤ s.reqChain e q) → (q.input.length = e.recBytes q.chain) → (leAt q.input 0 4 = e.recBytes q.chain) → (s.matWaits e = false) → (((e.grpBlocks q.grp).map (fun rb => e.posOf q.cb rb)).any (fun p => (s.pos k p).fbFor q.view) = false) → (4096 ≤ (s.kao k).queue.length) → 
    exec (.groupRequest k) s = .next (s.event (R.ARR_EVENTS k) 0)) ∧
  (∀ (s : State) (k : Kaolin) (temp : Word),
    (s.admitNext k = none) → 
    exec (.passAdmit k temp) s = .next s) ∧
  (∀ (s : State) (k : Kaolin) (temp : Word) (i : Nat) (q : PassReq) (e : MatEnt),
    (s.admitNext k = some i) → ((s.kao k).queue[i]? = some q) → (s.matAt k q.mat = some e) → 
    ∃ t, exec (.passAdmit k temp) s = .next t ∧ (t.kao k).queue = (s.kao k).queue.eraseIdx i ∧
    (t.kao k).running = (s.kao k).running ++ [{ req := q, arrays := s.reqArrays k q, lsb := (lsbExp (e.ng q.grp) ((s.mat k q.mat).reqRange q) + 8).toNat, bits := readBits (e.ng q.grp), bank := (s.kao k).bankFor q.view, temp := temp }] ∧ (∀ a, a ∈ s.reqArrays k q → (t.phys k a).use = .pass) ∧ t.mem = s.mem ∧ t.out = s.out) ∧
  (∀ (s : State) (k : Kaolin),
    (s.regB (R.ARR_CTRL k) 0 = false ∨ 256 ≤ (s.kao k).running.length + (s.kao k).results) → 
    s.admitNext k = none) ∧
  (∀ (s : State) (k : Kaolin) (q : PassReq) (rest : List PassReq),
    (s.regB (R.ARR_CTRL k) 0 = true) → ((s.kao k).running.length + (s.kao k).results < 256) → ((s.kao k).queue = q :: rest) → (s.allIdle k (s.reqArrays k q) = true) → 
    s.admitNext k = (if s.capRoom k (s.reqArrays k q).length then some 0 else none)) ∧
  (∀ (s : State) (k : Kaolin) (i : Nat) (q : PassReq),
    (s.admitNext k = some i) → ((s.kao k).queue[i]? = some q) → 
    i < s.lookahead k ∧ s.allIdle k (s.reqArrays k q) = true ∧ s.capRoom k (s.reqArrays k q).length = true ∧
    (∀ j r, j < i → (s.kao k).queue[j]? = some r → ∀ a ∈ s.reqArrays k q, a ∉ s.reqArrays k r) ∧
    (∀ r, 0 < i → (s.kao k).queue[0]? = some r → s.allIdle k (s.reqArrays k r) = false) ∧
    (∀ j r, j < i → (s.kao k).queue[j]? = some r → s.allIdle k (s.reqArrays k r) = true → s.capRoom k (s.reqArrays k r).length = true → ∃ l o, l < j ∧ (s.kao k).queue[l]? = some o ∧ ∃ a ∈ s.reqArrays k r, a ∈ s.reqArrays k o)) ∧
  (∀ (w : Nat) (ks : List (Nat × Bool)),
    (0 < w) → (w ≤ 8) → (∀ x ∈ ks, x.1 ≤ 511) → 
    (colSum w ks).acc = (((List.range w).drop 1).map (fun i => 2 ^ (w - 1 - i) * ((ks.getD i (0, false)).1 : Int))).sum - 2 ^ (w - 1) * ((ks.getD 0 (0, false)).1 : Int) ∧
    (colSum w ks).clips = ((List.range w).filter (fun i => (ks.getD i (0, false)).2)).length) ∧
  (∀ (s : State) (k : Kaolin) (i : Nat) (y : List (Nat × Nat)) (run : PassRun) (e : MatEnt),
    ((s.kao k).running[i]? = some run) → (s.matAt k run.req.mat = some e) → ((e.groupScales run.req.input run.req.chain run.req.grp).contains 0xFF = false) → 
    ∃ (u v : State) (out : List Byte) (d : Nat → Int), v = ((s.setKao k { s.kao k with running := (s.kao k).running.eraseIdx i }).useArrays k run.arrays .idle).incPair (R.ARR_PASS_CNT k) (run.arrays.length * run.req.chain) ∧ exec (.passComplete k i y) s = .next (u.groupDone run.req out false) ∧ out.length = 2 * e.cols run.req.cb ∧
    (∀ j, j < e.cols run.req.cb → leAt out (2 * j) 2 = (trimResult (SMap.get (fun _ => {}) (if run.bank then (s.kao k).bank1 else (s.kao k).bank0) (e.trimKey run.req.cb run.req.grp j)) (d j) ((run.lsb : Int) - 8) run.temp ((v.phys k (run.arrays.getD 0 0)).scale j) ((e.groupScales run.req.input run.req.chain run.req.grp).foldl max 0)) % 65536) ∧
    (∀ j, -2 ^ 23 ≤ d j ∧ d j < 2 ^ 23 ∧ (d j - ((List.range run.req.chain).flatMap (fun x => (List.range (e.grpBlocks run.req.grp).length).map (fun a => 
      (v.columnOf k run e.width x a (2 * j) ((List.range (e.rows ((e.grpBlocks run.req.grp).getD a 0))).map (fun r => toTwos e.width ((e.aligned run.req.input x ((e.groupScales run.req.input run.req.chain run.req.grp).foldl max 0)).getD ((e.grpBlocks run.req.grp).getD a 0 * e.h + r) 0))) y).acc -
      (v.columnOf k run e.width x a (2 * j + 1) ((List.range (e.rows ((e.grpBlocks run.req.grp).getD a 0))).map (fun r => toTwos e.width ((e.aligned run.req.input x ((e.groupScales run.req.input run.req.chain run.req.grp).foldl max 0)).getD ((e.grpBlocks run.req.grp).getD a 0 * e.h + r) 0))) y).acc))).sum) % 2 ^ 24 = 0)) ∧
  (∀ (s : State) (k : Kaolin) (i : Nat) (y : List (Nat × Nat)) (run : PassRun) (e : MatEnt),
    ((s.kao k).running[i]? = some run) → (s.matAt k run.req.mat = some e) → ((e.groupScales run.req.input run.req.chain run.req.grp).contains 0xFF = false) → 
    ∃ t, exec (.passComplete k i y) s = .next t ∧ (t.kao k).running = (s.kao k).running.eraseIdx i ∧ t.pair (R.ARR_PASS_CNT k) = (s.pair (R.ARR_PASS_CNT k) + run.arrays.length * run.req.chain) % 2 ^ 64 ∧ (∀ a, a ∈ run.arrays → (t.phys k a).use = .idle) ∧ t.stp.phase = s.stp.phase ∧ t.out = s.out) ∧
  (∀ (s : State) (k : Kaolin) (i : Nat) (y : List (Nat × Nat)) (run : PassRun) (e : MatEnt),
    ((s.kao k).running[i]? = some run) → (s.matAt k run.req.mat = some e) → ((e.groupScales run.req.input run.req.chain run.req.grp).contains 0xFF = true) → 
    ∃ u, u = ((s.setKao k { s.kao k with running := (s.kao k).running.eraseIdx i }).useArrays k run.arrays .idle).incPair (R.ARR_PASS_CNT k) (run.arrays.length * run.req.chain) ∧
    exec (.passComplete k i y) s = .next ((((u.incReg (R.ARR_NAN_CNT k) 1).event (R.ARR_EVENTS k) 2).noteConv k run.req 0 0 0).groupDone run.req (nanResult (e.cols run.req.cb)) false)) ∧
  (∀ (s : State) (k : Kaolin) (i : Nat) (y : List (Nat × Nat)),
    ((s.kao k).running[i]? = none) → 
    exec (.passComplete k i y) s = .next s)

/-- R87, R94 to R96, R390. The model's choices: when a pending RANGE holds for which context and which view older tokens keep (log 244, 293), the value shown while changes wait (log 18), one window for training and generation (log 280). A command whose condition fails changes nothing (log 5). -/
def Obligations.RangesAndArrayCounters : Prop :=
  (∀ (s : State) (k : Kaolin) (idx : Nat) (e : MatEnt),
    (s.matAt k idx = some e) → (35 ≤ e.ng 0) → ((s.mat k idx).due = true) → (s.fnHost 2 = false) → 
    ∃ u, u = s.setMat k idx { s.mat k idx with run := (trackerStep (max 1 (s.polF (R.ARR_RANGE_CTRL k) 31 24)) (max 1 (s.polF (R.ARR_RANGE_CTRL k) 23 16)) (s.mat k idx)).2, clips := 0, conv := 0, peak := 0, passes := 0, due := false } ∧
    exec (.rangeTrackerEval k idx) s = .next (if (trackerStep (max 1 (s.polF (R.ARR_RANGE_CTRL k) 31 24)) (max 1 (s.polF (R.ARR_RANGE_CTRL k) 23 16)) (s.mat k idx)).1 = (s.mat k idx).range then u else u.pendRange k idx (trackerStep (max 1 (s.polF (R.ARR_RANGE_CTRL k) 31 24)) (max 1 (s.polF (R.ARR_RANGE_CTRL k) 23 16)) (s.mat k idx)).1 (s.mat k idx).pendChain)) ∧
  (∀ (rclip hold : Nat) (m : MatSt),
    (m.range ≤ 4) → 
    (trackerStep rclip hold m).1 ≤ 4 ∧ (0 < m.conv → m.conv < m.clips * 2 ^ rclip → 0 < m.range → (trackerStep rclip hold m).1 = m.range - 1) ∧
    (0 < m.conv → m.clips * 2 ^ rclip ≤ m.conv → 256 ≤ m.peak → (trackerStep rclip hold m).1 = m.range) ∧ (0 < m.conv → m.clips * 2 ^ rclip ≤ m.conv → m.peak < 256 → m.range < 4 → (trackerStep rclip hold m).1 = if hold ≤ m.run + 1 then m.range + 1 else m.range)) ∧
  (∀ (s : State) (k : Kaolin) (idx : Nat) (e : MatEnt),
    (s.matAt k idx = some e) → ((s.mat k idx).due = false) → ((s.mat k idx).passes < 4096) → 
    exec (.rangeTrackerEval k idx) s = .next s) ∧
  (∀ (s : State) (k : Kaolin) (rq : Requester) (v : Word) (e : MatEnt),
    (s.matAt k (s.regF (R.ARR_RANGE_SEL k) 10 0) = some e) → (s.fnHost 2 = false) → 
    exec (.rangeDataWrite rq k v) s = .next (if fld v 2 0 = (s.mat k (s.regF (R.ARR_RANGE_SEL k) 10 0)).range ∧ fld v 15 8 = s.chainLimit e then s else s.refuseWrite rq (R.ARR_RANGE_DATA k) v 1)) ∧
  (∀ (s : State) (k : Kaolin) (rq : Requester) (v : Word) (e : MatEnt),
    (s.matAt k (s.regF (R.ARR_RANGE_SEL k) 10 0) = some e) → (s.fnHost 2 = true) → (fld v 2 0 ≤ 4) → ((s.stp.phase ≠ .idle ∧ s.halted = false) ∨ (s.mat k (s.regF (R.ARR_RANGE_SEL k) 10 0)).prev.isSome = true) → ((s.mat k (s.regF (R.ARR_RANGE_SEL k) 10 0)).range ≠ fld v 2 0) → 
    ∃ t, exec (.rangeDataWrite rq k v) s = .next t ∧ (t.mat k (s.regF (R.ARR_RANGE_SEL k) 10 0)).range = fld v 2 0 ∧ (t.mat k (s.regF (R.ARR_RANGE_SEL k) 10 0)).pendChain = (if max 1 (fld v 15 8) = (s.mat k (s.regF (R.ARR_RANGE_SEL k) 10 0)).chain then none else some (max 1 (fld v 15 8))) ∧ (t.mat k (s.regF (R.ARR_RANGE_SEL k) 10 0)).cur = (s.mat k (s.regF (R.ARR_RANGE_SEL k) 10 0)).cur ∧ (t.mat k (s.regF (R.ARR_RANGE_SEL k) 10 0)).chain = (s.mat k (s.regF (R.ARR_RANGE_SEL k) 10 0)).chain ∧ (t.mat k (s.regF (R.ARR_RANGE_SEL k) 10 0)).train = (s.mat k (s.regF (R.ARR_RANGE_SEL k) 10 0)).train ∧ t.arr.view = s.arr.view + 1 ∧ t.mem = s.mem) ∧
  (∀ (s : State) (k : Kaolin) (rq : Requester) (v : Word) (e : MatEnt),
    (s.matAt k (s.regF (R.ARR_RANGE_SEL k) 10 0) = some e) → (s.fnHost 2 = true) → (fld v 2 0 ≤ 4) → (s.stp.phase = .idle) → ((s.mat k (s.regF (R.ARR_RANGE_SEL k) 10 0)).prev = none) → ((s.mat k (s.regF (R.ARR_RANGE_SEL k) 10 0)).range ≠ fld v 2 0) → ((s.mat k (s.regF (R.ARR_RANGE_SEL k) 10 0)).cur ≠ fld v 2 0) → 
    ∃ t, exec (.rangeDataWrite rq k v) s = .next t ∧ (∀ view, view ≤ s.arr.view → (t.mat k (s.regF (R.ARR_RANGE_SEL k) 10 0)).rangeFor view = (s.mat k (s.regF (R.ARR_RANGE_SEL k) 10 0)).cur) ∧ (t.mat k (s.regF (R.ARR_RANGE_SEL k) 10 0)).rangeFor t.arr.view = fld v 2 0 ∧ t.arr.view = s.arr.view + 1 ∧ t.regB (R.ARR_EVENTS k) 6 = true ∧ t.mem = s.mem) ∧
  (∀ (s : State) (k : Kaolin) (rq : Requester) (v : Word) (e : MatEnt),
    (s.matAt k (s.regF (R.ARR_RANGE_SEL k) 10 0) = some e) → (s.fnHost 2 = true) → (fld v 2 0 ≤ 4) → (s.halted = true) → ((s.mat k (s.regF (R.ARR_RANGE_SEL k) 10 0)).prev = none) → ((s.mat k (s.regF (R.ARR_RANGE_SEL k) 10 0)).range ≠ fld v 2 0) → ((s.mat k (s.regF (R.ARR_RANGE_SEL k) 10 0)).cur ≠ fld v 2 0) → (s.mem.ctx = []) → 
    ∃ t, exec (.rangeDataWrite rq k v) s = .next t ∧ (t.mat k (s.regF (R.ARR_RANGE_SEL k) 10 0)).cur = fld v 2 0 ∧ (t.mat k (s.regF (R.ARR_RANGE_SEL k) 10 0)).train = (s.mat k (s.regF (R.ARR_RANGE_SEL k) 10 0)).train ∧ t.regB (R.ARR_EVENTS k) 6 = true ∧ t.mem = s.mem) ∧
  (∀ (s : State) (n : Nat) (e : MatEnt),
    (e ∈ s.arr.map) → 
    ∃ t, s.newStep n = t ∧ (t.mat e.die e.idx).train = (t.mat e.die e.idx).cur) ∧
  (∀ (s : State) (k : Kaolin) (rq : Requester),
    exec (.govStatusRead rq k) s = .next ((s.emit (.reply rq (R.ARR_GOV_STATUS k) (packFields [(16, s.effCap k), (0, s.regF (R.ARR_GOV_STATUS k) 9 0)]))).setRegF (R.ARR_GOV_STATUS k) 9 0 0)) ∧
  (∀ (s : State) (k : Kaolin) (v : Word),
    (bitOf v 1 = false) → 
    exec (.clipgClr k v) s = .next (s.setReg (R.ARR_CTRL k) (v &&& 0x3F01#32))) ∧
  (∀ (s : State) (k : Kaolin) (v : Word) (a g : Nat),
    (bitOf v 1 = true) → (a < 1632) → 
    ∃ t, exec (.clipgClr k v) s = .next t ∧ SMap.get (fun _ => 0) (t.phys k a).clipg g = 0 ∧ t.reg (R.ARR_CTRL k) = v &&& 0x3F01#32 ∧ t.mem = s.mem) ∧
  (∀ (s : State) (k : Kaolin) (rq : Requester),
    (s.regF (R.ARR_CLIPG_SEL k) 10 0 < 1632) → 
    ∃ u, u = s.emit (.reply rq (R.ARR_CLIPG_DATA k) (BitVec.ofNat 32 (SMap.get (fun _ => 0) (s.phys k (s.regF (R.ARR_CLIPG_SEL k) 10 0)).clipg (s.regF (R.ARR_CLIPG_SEL k) 22 16)))) ∧
    exec (.clipgDataRead rq k) s = .next (u.setPhys k (s.regF (R.ARR_CLIPG_SEL k) 10 0) { s.phys k (s.regF (R.ARR_CLIPG_SEL k) 10 0) with clipg := SMap.set (fun _ => 0) (s.phys k (s.regF (R.ARR_CLIPG_SEL k) 10 0)).clipg (s.regF (R.ARR_CLIPG_SEL k) 22 16) 0 }))

/-- R106 to R108. The model's choices: which arrays are active (log 87), the order of the calibration columns (log 88), the ideal code of a conversion not given (log 241). A command whose condition fails changes nothing (log 5). -/
def Obligations.CalibrationReads : Prop :=
  (∀ (s : State) (k : Kaolin) (a : Nat),
    (s.calNext k = some a) → 
    a ∈ s.activeArrays k ∧ (s.phys k a).use = .idle ∧ ((s.phys k a).forced = false → s.monitorMay k a = true) ∧ ((s.phys k a).forced = true → s.activeSlots k < s.effCap k)) ∧
  (∀ (s : State) (k : Kaolin) (a b : Nat),
    (s.calNext k = some a) → (b ∈ s.activeArrays k) → ((s.phys k b).forced = true) → ((s.phys k b).use = .idle) → 
    (s.phys k a).forced = true ∧ ((s.phys k a).lastRead < (s.phys k b).lastRead ∨ ((s.phys k a).lastRead = (s.phys k b).lastRead ∧ a ≤ b))) ∧
  (∀ (s : State) (k : Kaolin) (a b : Nat),
    (s.calNext k = some a) → ((s.phys k a).forced = false) → (b ∈ s.activeArrays k) → (s.monitorMay k b = true) → 
    (s.phys k a).lastRead < (s.phys k b).lastRead ∨ ((s.phys k a).lastRead = (s.phys k b).lastRead ∧ a ≤ b)) ∧
  (∀ (s : State) (k : Kaolin) (a : Nat),
    (s.monitorMay k a = true) → 
    (s.phys k a).use = .idle ∧ (∀ q ∈ s.admitWindow k, a ∉ s.reqArrays k q) ∧ s.activeSlots k < s.effCap k ∧ s.capWait k = false ∧ s.calRunning k < s.calPar k) ∧
  (∀ (s : State) (k : Kaolin) (a : Nat),
    (s.regB (R.ARR_DRIFT_CTRL k) 0 = true) → (s.calNext k = some a) → 
    exec (.calReadStart k) s = .next ((s.setPhys k a { s.phys k a with use := .calibration, forced := false, lastRead := s.time }).notePeak k)) ∧
  (∀ (s : State) (k : Kaolin),
    (s.regB (R.ARR_DRIFT_CTRL k) 0 = false ∨ s.calNext k = none) → 
    exec (.calReadStart k) s = .next s) ∧
  (∀ (s : State) (k : Kaolin) (a : Nat) (codes : List Nat) (t : Word),
    ((s.phys k a).use = .calibration) → 
    exec (.calReadComplete k a codes t) s = .next (s.setPhys k a { s.phys k a with use := .idle, readN := (s.phys k a).readN + 1, reads := (s.phys k a).reads ++ [{ odd := decide ((s.phys k a).readN % 2 = 1), codes := (List.range 32).map (fun i => min 4095 (codes.getD i ([128, 256, 512, 1024].getD (i / 8) 0 * [15, 0, 5, 0, 0, 5, 0, 15].getD (i % 8) 0 / 4))), t := t }] })) ∧
  (∀ (s : State) (k : Kaolin) (a : Nat) (codes : List Nat) (t : Word),
    ((s.phys k a).use ≠ .calibration) → 
    exec (.calReadComplete k a codes t) s = .next s) ∧
  (∀ (s : State) (k : Kaolin) (a : Nat),
    (s.polF (R.ARR_DRIFT_CFG k) 15 0 ≠ 0) → (s.regB (R.ARR_DRIFT_CTRL k) 0 = true) → ((s.activeArrays k).contains a = true) → ((s.phys k a).use ≠ .calibration) → ((s.phys k a).forced = false) → 
    exec (.forcedRead k a) s = .next ((s.setPhys k a { s.phys k a with forced := true }).event (R.ARR_DRIFT_EVENTS k) 8)) ∧
  (∀ (s : State) (k : Kaolin) (a : Nat),
    (s.polF (R.ARR_DRIFT_CFG k) 15 0 = 0 ∨ (s.activeArrays k).contains a = false) → 
    exec (.forcedRead k a) s = .next s) ∧
  (∀ (s : State) (k : Kaolin) (a : Nat),
    ((s.activeArrays k).contains a = true) → 
    exec (.calStarved k a) s = .next (s.event (R.ARR_DRIFT_EVENTS k) 9)) ∧
  (∀ (s : State) (k : Kaolin) (a : Nat),
    ((s.activeArrays k).contains a = false) → 
    exec (.calStarved k a) s = .next s)

/-- R109, R111, R112. The model's choices: g_ref, delta_ref, eps_v and Tm of an array without a record copy (log 283), a column whose sums give no fit (log 234), the trim bank with a swap in host mode (log 68). A command whose condition fails changes nothing (log 5). -/
def Obligations.FitsAndTrimPublication : Prop :=
  (∀ (s : State) (k : Kaolin) (a : Nat),
    (s.calWindow k ≤ (s.phys k a).reads.length) → 
    exec (.arrayFit k a) s = .next ((s.setPhys k a (s.phys k a).fitNow).estimateTriggers k a)) ∧
  (∀ (s : State) (k : Kaolin) (a : Nat),
    ((s.phys k a).reads.length < s.calWindow k) → 
    exec (.arrayFit k a) s = .next s) ∧
  (∀ (x : PhysSt),
    (x.hist.length ≤ 8) → 
    x.fitNow.reads = [] ∧ x.fitNow.fit.isSome ∧ x.fitNow.hist.length ≤ 8 ∧ x.fitNow.codes = x.codes ∧ x.fitNow.record = x.record ∧ x.fitNow.use = x.use) ∧
  (∀ (s : State) (k : Kaolin),
    (s.regB (R.ARR_DRIFT_CTRL k) 0 = true) → (s.fnHost 6 = false) → ((s.kao k).held = none) → (s.publishDue k = true) → 
    exec (.trimPublication k) s = .next (s.publish k)) ∧
  (∀ (s : State) (k : Kaolin),
    (s.regB (R.ARR_DRIFT_CTRL k) 0 = false ∨ s.fnHost 6 = true ∨ (s.kao k).held ≠ none) → 
    exec (.trimPublication k) s = .next s) ∧
  (∀ (s : State) (k : Kaolin) (rq : Requester) (pos : Nat),
    (s.fnHost 6 = true) → (s.regB (R.ARR_DRIFT_CTRL k) 0 = true) → ((s.kao k).held = none) → 
    exec (.publish rq k pos) s = .next (s.publish k)) ∧
  (∀ (s : State) (k : Kaolin) (rq : Requester) (pos : Nat),
    (s.fnHost 6 = false) → 
    exec (.publish rq k pos) s = .next (s.refuseProg rq k 2 pos 1)) ∧
  (∀ (s : State) (k : Kaolin) (rq : Requester) (pos : Nat) (v : Nat),
    (s.fnHost 6 = true) → ((s.kao k).held = some v) → 
    exec (.publish rq k pos) s = .next s) ∧
  (∀ (s : State) (d : Nat),
    ((s.publish d).kao d).published = true ∧ ((s.publish d).kao d).bankInForce = (s.kao d).bankInForce ∧ ((s.publish d).kao d).otherBank = s.trimSet d)

/-- R113, R114, R129, R132. The model's choices: the layout of the diagnostic area (log 91), a segment that starts and completes in one command (log 92), readings to the nearest quarter level with ties to even (log 239), which array it yields to (log 243), what a merged job keeps (log 246). A command whose condition fails changes nothing (log 5). -/
def Obligations.ProgrammingTriggersAndReadback : Prop :=
  (∀ (s : State) (k : Kaolin) (rq : Requester) (pos : Nat),
    ((s.posMat k pos).isSome = true) → 
    exec (.refresh rq k pos) s = .next (s.queueJob k pos 3)) ∧
  (∀ (s : State) (d p cls : Nat),
    ∃ t, s.queueJob d p cls = t ∧ ((t.kao d).jobs.any (fun j => decide (j.pos = p) && decide (j.cls ≤ if (s.pos d p).fb then 1 else cls) && (j.refresh || !(decide (cls = 3) || decide (cls = 4))))) = true ∧ t.mem = s.mem ∧ t.out = s.out ∧ t.arr.phys = s.arr.phys ∧ (t.kao d).jobs.length ≤ (s.kao d).jobs.length + 1 ∧ (((s.kao d).jobs.any (fun j => decide (j.pos = p))) = true → (t.kao d).jobs.length = (s.kao d).jobs.length)) ∧
  (∀ (s : State) (k : Kaolin) (rq : Requester) (pos : Nat),
    (s.posMat k pos = none) → 
    exec (.refresh rq k pos) s = .next (s.refuseProg rq k 1 pos 0) ∧ exec (.load rq k pos) s = .next (s.refuseProg rq k 3 pos 0) ∧ exec (.readback rq k pos) s = .next (s.refuseProg rq k 4 pos 0) ∧ exec (.refreshAgeExpiry k pos) s = .next s) ∧
  (∀ (s : State) (k : Kaolin) (rq : Requester) (pos : Nat),
    ((s.posMat k pos).isSome = true) → ((s.pos k pos).unconf = true) → ((s.pos k pos).waitHost = true) → 
    exec (.load rq k pos) s = .next ((s.queueJob k pos 1).markLoad k pos)) ∧
  (∀ (s : State) (k : Kaolin) (rq : Requester) (pos : Nat),
    ((s.posMat k pos).isSome = true) → ((s.pos k pos).waitHost = false) → 
    exec (.load rq k pos) s = .next (s.refuseProg rq k 3 pos 1)) ∧
  (∀ (s : State) (k : Kaolin) (rq : Requester) (pos : Nat),
    ((s.posMat k pos).isSome = true) → 
    exec (.readback rq k pos) s = .next (s.setPos k pos { s.pos k pos with readback := 1040 })) ∧
  (∀ (s : State) (k : Kaolin) (pos : Nat) (e : MatEnt) (c b : Nat),
    (s.posMat k pos = some (e, c, b)) → (s.polF (R.ARR_REFRESH_CFG k) 15 8 ≠ 0) → (s.polF (R.ARR_REFRESH_CFG k) 15 8 * 86400 ≤ s.imageAge k pos) → (s.fnHost 6 = false) → 
    exec (.refreshAgeExpiry k pos) s = .next (s.queueJob k pos 4)) ∧
  (∀ (s : State) (k : Kaolin) (pos a : Nat) (lv : List (Nat × Nat)),
    (s.physOf k pos = some a) → (0 < (s.pos k pos).readback) → (s.monitorMay k a = true) → (s.calWants k a = false) → 
    ∃ t, exec (.readbackSegment k pos lv) s = .next t ∧ (t.pos k pos).readback = (s.pos k pos).readback - 8 ∧ (t.phys k a).use = .idle ∧
    (∀ x, x < s.diagAddr k pos (1040 - (s.pos k pos).readback) 0 ∨ s.diagAddr k pos (1040 - (s.pos k pos).readback) 0 + 8192 ≤ x → t.mem.byte x = s.mem.byte x) ∧
    (∀ i, i < 8192 → s.diagAddr k pos (1040 - (s.pos k pos).readback) 0 + i < hbmSize → t.mem.byte (s.diagAddr k pos (1040 - (s.pos k pos).readback) 0 + i) = byteOf (nearQuarter ((SMap.find lv i).getD (32 * (s.phys k a).rowLevel (1040 - (s.pos k pos).readback + i / 1024) (i % 1024))))) ∧ (t.phys k a).codes = (s.phys k a).codes)

/-- R113, R115 to R119, R132, R419. The model's choices: the verify reads are operands (log 240), which rows a job in place writes (log 90), rows written anew count again (log 225), the marginal count is that of the data rows (log 226), VERIFY_FAIL at the second failure (log 194). A command whose condition fails changes nothing (log 5). -/
def Obligations.ProgrammingJobs : Prop :=
  (∀ (s : State) (k : Kaolin) (t : Nat) (j : Job),
    (s.regB (R.ARR_DRIFT_CTRL k) 1 = true) → (s.busyTiles k < s.progTiles k) → (s.nextTile k = some (t, j)) → 
    ∃ (u : State) (r : RunJob), exec (.progJobStart k) s = .next u ∧ (u.tile k t).job = some r ∧ r.job.pos = j.pos ∧ r.job.cls = j.cls ∧ r.inPlace = (s.pos k j.pos).inPlace ∧ r.version = ((s.pos k j.pos).version + 1) % 2 ^ 32 ∧ r.retried = false ∧ r.failed = false ∧
    (r.inPlace = false → r.rows = List.range 1024 ∧ r.slot = (s.tile k t).slot ∧ (u.tile k t).spare = .prog) ∧
    (r.inPlace = true → r.slot = (s.pos k j.pos).slot.getD 16 ∧ r.rows = (List.range 1024).filter (fun x => (s.pos k j.pos).changed.contains x || (s.staleRows k j.pos (17 * t + r.slot) r.job.fromShadow).contains x)) ∧
    (u.kao k).jobs = (s.kao k).jobs.filter (fun x => x ≠ j) ∧ (u.phys k (17 * t + r.slot)).use = .programming ∧ (u.phys k (17 * t + r.slot)).codes = (s.phys k (17 * t + r.slot)).codes ∧ u.mem = s.mem ∧ u.regs = s.regs) ∧
  (∀ (s : State) (k : Kaolin),
    (s.regB (R.ARR_DRIFT_CTRL k) 1 = false ∨ s.progTiles k ≤ s.busyTiles k ∨ s.nextTile k = none) → 
    exec (.progJobStart k) s = .next s) ∧
  (∀ (reads : RowReads) (i : Nat),
    (i ≤ 6) → (∀ j < i, inTol (reads.getD j []) = false) → (i = 6 ∨ inTol (reads.getD i []) = true) → 
    rowEnd reads = { pulsed := decide (0 < i), marginal := ((reads.getD i []).filter (fun p => decide (8 < p.2.natAbs) && decide (p.2.natAbs ≤ 32))).length, failed := (reads.getD i []).any (fun p => decide (32 < p.2.natAbs)), dev := reads.getD i [] }) ∧
  (∀ (s : State) (k : Kaolin) (t : Fin 96) (v0 v1 v2 : VerifyRead) (vs : RowReads) (run : RunJob) (r : Nat) (rest : List Nat),
    ((s.tile k t).job = some run) → (run.rows = r :: rest) → (s.rowIllegal k run.job.pos run.job.fromShadow r = false) → (run.inPlace = true) → 
    ∃ u, exec (.progRow k t v0 v1 v2 vs) s = .next u ∧ (u.tile k t).job = some { run with rows := rest, failed := run.failed || (rowEnd (v0 :: v1 :: v2 :: vs)).failed, marginal := run.marginal + (rowEnd (v0 :: v1 :: v2 :: vs)).marginal } ∧
    (∀ x c, c < 512 → (u.phys k (17 * t + run.slot)).code x c = if x = r then s.jobCode k run.job.pos run.job.fromShadow r c else (s.phys k (17 * t + run.slot)).code x c) ∧
    (∀ x, SMap.get (fun _ => 0) (u.phys k (17 * t + run.slot)).writes x = SMap.get (fun _ => 0) (s.phys k (17 * t + run.slot)).writes x + if x = r ∧ (rowEnd (v0 :: v1 :: v2 :: vs)).pulsed = true then 1 else 0) ∧
    (u.pair (R.ARR_ROWPROG k) = if (rowEnd (v0 :: v1 :: v2 :: vs)).pulsed then (s.pair (R.ARR_ROWPROG k) + 1) % 2 ^ 64 else s.pair (R.ARR_ROWPROG k)) ∧ u.mem = s.mem ∧ u.out = s.out) ∧
  (∀ (s : State) (k : Kaolin) (t : Fin 96) (v0 v1 v2 : VerifyRead) (vs : RowReads) (run : RunJob) (r : Nat) (rest : List Nat),
    ((s.tile k t).job = some run) → (run.rows = r :: rest) → (s.rowIllegal k run.job.pos run.job.fromShadow r = false) → (run.inPlace = false) → 
    ∃ (u : State) (y : PhysSt) (v : State), exec (.progRow k t v0 v1 v2 vs) s = .next u ∧ (v.phys k (17 * t + run.slot)) = y ∧
    (∀ x c, c < 512 → y.code x c = if x = r then s.jobCode k run.job.pos run.job.fromShadow r c else (s.phys k (17 * t + run.slot)).code x c) ∧
    (∀ x, SMap.get (fun _ => 0) y.writes x = SMap.get (fun _ => 0) (s.phys k (17 * t + run.slot)).writes x + if x = r ∧ (rowEnd (v0 :: v1 :: v2 :: vs)).pulsed = true then 1 else 0) ∧
    (v.tile k t).job = some { run with rows := rest, failed := run.failed || (rowEnd (v0 :: v1 :: v2 :: vs)).failed, marginal := run.marginal + (rowEnd (v0 :: v1 :: v2 :: vs)).marginal } ∧ v.mem = s.mem ∧ v.out = s.out ∧
    (y.worn = false → u = v) ∧ (y.worn = true → u = ((v.requeue k t run.job.cls).retireSpare k t run.slot).event (R.ARR_DRIFT_EVENTS k) 12)) ∧
  (∀ (s : State) (k : Kaolin) (t : Fin 96) (v0 v1 v2 : VerifyRead) (vs : RowReads) (run : RunJob) (r : Nat) (rest : List Nat),
    ((s.tile k t).job = some run) → (run.rows = r :: rest) → (s.rowIllegal k run.job.pos run.job.fromShadow r = true) → 
    exec (.progRow k t v0 v1 v2 vs) s = .next ((s.setTile k t { s.tile k t with job := some { run with rows := rest, failed := true } }).log (0x20 + k) 1 0xFF 1 (run.job.pos + r * 2 ^ 16))) ∧
  (∀ (s : State) (k : Kaolin) (t : Fin 96) (v0 v1 v2 : VerifyRead) (vs : RowReads),
    ((s.tile k t).job = none ∨ ∃ run ∈ (s.tile k t).job, run.rows = []) → 
    exec (.progRow k t v0 v1 v2 vs) s = .next s) ∧
  (∀ (s : State) (k : Kaolin) (t : Fin 96) (f : VerifyFit) (mr : List RowReads) (run : RunJob),
    ((s.tile k t).job = some run) → (run.failed = false) → (run.rows ≠ []) → 
    exec (.progJobComplete k t f mr) s = .next s) ∧
  (∀ (s : State) (k : Kaolin) (t : Fin 96) (f : VerifyFit) (mr : List RowReads) (run : RunJob),
    ((s.tile k t).job = some run) → (run.failed = false) → (run.rows = []) → ((s.pos k run.job.pos).changed ≠ []) → (run.job.fromShadow = false) → 
    exec (.progJobComplete k t f mr) s = .next ((s.setPos k run.job.pos { s.pos k run.job.pos with changed := [] }).setTile k t { s.tile k t with job := some { run with rows := (s.pos k run.job.pos).changed, step := (s.pos k run.job.pos).projStep } })) ∧
  (∀ (s : State) (k : Kaolin) (t : Fin 96) (f : VerifyFit) (mr : List RowReads) (run : RunJob),
    ((s.tile k t).job = some run) → (run.failed = true) → 
    exec (.progJobComplete k t f mr) s = .next (s.jobFail k t run)) ∧
  (∀ (s : State) (k : Kaolin) (t : Fin 96) (f : VerifyFit) (mr : List RowReads) (run : RunJob),
    ((s.tile k t).job = some run) → (run.failed = false) → (run.rows = []) → ((s.pos k run.job.pos).changed = [] ∨ run.job.fromShadow = true) → 
    ∃ x, x = s.programmed k t run f ∧ exec (.progJobComplete k t f mr) s = .next (if epsAtLeast x.epsV (s.refreshThresh k) then s.jobFail k t run
      else if ((mr.take 16).map rowEnd).any (·.failed) then (s.incPair (R.ARR_ROWPROG k) (((mr.take 16).map rowEnd).filter (·.pulsed)).length).jobFail k t run
      else (s.incPair (R.ARR_ROWPROG k) (((mr.take 16).map rowEnd).filter (·.pulsed)).length).jobPass k t run x)) ∧
  (∀ (s : State) (k t : Nat) (run : RunJob) (f : VerifyFit),
    ∃ r, (s.programmed k t run f).record = some r ∧ r.pos = run.job.pos ∧ r.version = run.version ∧ r.step = run.step ∧ r.hash = (s.phys k (17 * t + run.slot)).codeHash ∧ r.epsV = ((s.phys k (17 * t + run.slot)).verify f.y).eps ∧ r.retired = false ∧ r.marginal = run.marginal ∧ (s.programmed k t run f).codes = (s.phys k (17 * t + run.slot)).codes ∧ (s.programmed k t run f).use = .idle ∧ (s.programmed k t run f).confirmed = true) ∧
  (∀ (s : State) (k t : Nat) (run : RunJob) (x : PhysSt),
    (run.inPlace = false) → 
    ∃ u, s.jobPass k t run x = u ∧ (u.tile k t).job = none ∧ (u.tile k t).spare = .ready ∧ (u.tile k t).ready = some (run.job.pos, run.job.refresh) ∧ u.phys k (17 * t + run.slot) = x) ∧
  (∀ (s : State) (k t : Nat) (run : RunJob) (x : PhysSt),
    (run.inPlace = true) → 
    ∃ u, s.jobPass k t run x = u ∧ (u.tile k t).job = none ∧ (u.tile k t).spare = (s.tile k t).spare ∧ u.phys k (17 * t + run.slot) = x ∧
    (u.pos k run.job.pos).unconf = ((s.pos k run.job.pos).unconf && !((s.pos k run.job.pos).waitHost && run.job.load))) ∧
  (∀ (s : State) (k t : Nat) (run : RunJob),
    (run.retried = false) → 
    s.jobFail k t run = s.setTile k t { s.tile k t with job := some { run with retried := true, failed := false, marginal := 0, rows := List.range 1024 } }) ∧
  (∀ (s : State) (k t : Nat) (run : RunJob),
    (run.retried = true) → (run.inPlace = false) → ((s.tile k t).job = some run) → 
    ∃ u, s.jobFail k t run = u ∧ (u.tile k t).job = none ∧ (u.tile k t).spare = .none ∧ (u.tile k t).retired = (s.tile k t).retired + 1 ∧ ((u.phys k (17 * t + run.slot)).record.map (·.retired)) = some true ∧ ((u.kao k).jobs.any (fun j => j.pos == run.job.pos)) = true ∧ u.regB (R.ARR_DRIFT_EVENTS k) 3 = true ∧ u.regB (R.ARR_DRIFT_EVENTS k) 4 = true) ∧
  (∀ (s : State) (k t : Nat) (run : RunJob),
    (run.retried = true) → (run.inPlace = true) → ((s.tile k t).job = some run) → ((s.tile k t).spare = .free ∨ (s.tile k t).spare = .ready ∨ (s.tile k t).spare = .prog) → 
    ∃ u, s.jobFail k t run = u ∧ (u.tile k t).job = none ∧ (u.tile k t).spare = .none ∧ (u.tile k t).retired = (s.tile k t).retired + 1 ∧ (u.pos k run.job.pos).slot = some (s.tile k t).slot ∧ ((u.phys k (17 * t + run.slot)).record.map (·.retired)) = some true ∧ (u.phys k (17 * t + run.slot)).use = .idle ∧ ((u.kao k).jobs.any (fun j => j.pos == run.job.pos)) = true ∧ u.regB (R.ARR_DRIFT_EVENTS k) 3 = true ∧ u.regB (R.ARR_DRIFT_EVENTS k) 4 = true) ∧
  (∀ (s : State) (k t : Nat) (run : RunJob),
    (run.retried = true) → (run.inPlace = true) → ((s.tile k t).job = some run) → ((s.tile k t).spare = .none) → 
    ∃ u, s.jobFail k t run = u ∧ (u.tile k t).job = none ∧ (u.tile k t).spare = .none ∧ (u.tile k t).retired = (s.tile k t).retired + 1 ∧ (u.pos k run.job.pos).slot = none ∧ ((u.phys k (17 * t + run.slot)).record.map (·.retired)) = some true ∧ u.regB (R.ARR_DRIFT_EVENTS k) 3 = true ∧ u.regB (R.ARR_DRIFT_EVENTS k) 4 = true ∧ u.regB (R.ARR_DRIFT_EVENTS k) 5 = true)

/-- R135, R136, R139, R143. The model's choices: the issue rule for a command of the table and the wrap of the PC (log 62), and imm[3:0] as the shift count of odd INT16 elements too (log 56). -/
def Obligations.IntegerInstructions : Prop :=
  (∀ (s : State) (d : Die) (u : Fin 32) (w : TwillWord) (x : UnitSt),
    (s.midProgram d u = true) → (w.isFloat = false) → (w.ctl ≠ 7) → (s.unit (d * 32 + u) = x) → 
    (∃ t, exec (.viota d u w) s = .next t ∧ (s.issues d u 0x04 w = true → twGives d u w s t (fun e => e) 0) ∧ (s.issues d u 0x04 w = false → t = s)) ∧
    (∃ t, exec (.iaddVv d u w) s = .next t ∧ (s.issues d u 0x20 w = true → twGives d u w s t (fun e => toTwos w.bits (x.is1 w e + x.is2 w e)) 0) ∧ (s.issues d u 0x20 w = false → t = s)) ∧
    (∃ t, exec (.iaddVi d u w) s = .next t ∧ (s.issues d u 0x21 w = true → twGives d u w s t (fun e => toTwos w.bits (x.is1 w e + sext w.bits (w.immE e))) 0) ∧ (s.issues d u 0x21 w = false → t = s)) ∧
    (∃ t, exec (.isub d u w) s = .next t ∧ (s.issues d u 0x22 w = true → twGives d u w s t (fun e => toTwos w.bits (x.is1 w e - x.is2 w e)) 0) ∧ (s.issues d u 0x22 w = false → t = s)) ∧
    (∃ t, exec (.imul d u w) s = .next t ∧ (s.issues d u 0x23 w = true → twGives d u w s t (fun e => toTwos w.bits (x.is1 w e * x.is2 w e)) 0) ∧ (s.issues d u 0x23 w = false → t = s)) ∧
    (∃ t, exec (.imax d u w) s = .next t ∧ (s.issues d u 0x24 w = true → twGives d u w s t (fun e => toTwos w.bits (max (x.is1 w e) (x.is2 w e))) 0) ∧ (s.issues d u 0x24 w = false → t = s)) ∧
    (∃ t, exec (.imin d u w) s = .next t ∧ (s.issues d u 0x25 w = true → twGives d u w s t (fun e => toTwos w.bits (min (x.is1 w e) (x.is2 w e))) 0) ∧ (s.issues d u 0x25 w = false → t = s)) ∧
    (∃ t, exec (.vand d u w) s = .next t ∧ (s.issues d u 0x26 w = true → twGives d u w s t (fun e => x.elem w w.s1.val e &&& x.elem w w.s2.val e) 0) ∧ (s.issues d u 0x26 w = false → t = s)) ∧
    (∃ t, exec (.vor d u w) s = .next t ∧ (s.issues d u 0x27 w = true → twGives d u w s t (fun e => x.elem w w.s1.val e ||| x.elem w w.s2.val e) 0) ∧ (s.issues d u 0x27 w = false → t = s)) ∧
    (∃ t, exec (.vxor d u w) s = .next t ∧ (s.issues d u 0x28 w = true → twGives d u w s t (fun e => x.elem w w.s1.val e ^^^ x.elem w w.s2.val e) 0) ∧ (s.issues d u 0x28 w = false → t = s)) ∧
    (∃ t, exec (.shl d u w) s = .next t ∧ (s.issues d u 0x29 w = true → twGives d u w s t (fun e => x.elem w w.s1.val e <<< shAmt w) 0) ∧ (s.issues d u 0x29 w = false → t = s)) ∧
    (∃ t, exec (.shra d u w) s = .next t ∧ (s.issues d u 0x2A w = true → twGives d u w s t (fun e => toTwos w.bits ((x.is1 w e) >>> shAmt w)) 0) ∧ (s.issues d u 0x2A w = false → t = s)) ∧
    (∃ t, exec (.shrl d u w) s = .next t ∧ (s.issues d u 0x2B w = true → twGives d u w s t (fun e => x.elem w w.s1.val e >>> shAmt w) 0) ∧ (s.issues d u 0x2B w = false → t = s))) ∧
  (∀ (w : TwillWord) (z : Int),
    (toTwos w.bits z : Int) = z % 2 ^ w.bits ∧ toTwos w.bits z < 2 ^ w.bits)

/-- R50, R140, R141, R143. The model's choices: the issue rule for a command of the table and the wrap of the PC (log 62), the flags kept under the NOFLAG codes (log 63), tininess after rounding (log 54), FFMA with a NaN operand sets no INVALID (log 55). -/
def Obligations.FloatingPointInstructions : Prop :=
  (∀ (s : State) (d : Die) (u : Fin 32) (w : TwillWord) (x : UnitSt),
    (s.midProgram d u = true) → (w.isFloat = true) → (w.ctl ≠ 7) → (s.unit (d * 32 + u) = x) → 
    (∃ t, exec (.faddVv d u w) s = .next t ∧ (s.issues d u 0x10 w = true → twGives d u w s t (fun e => (fpAdd w (x.fs1 w e) (x.fs2 w e)).1) (x.orFlags w (fun e => (fpAdd w (x.fs1 w e) (x.fs2 w e)).2))) ∧ (s.issues d u 0x10 w = false → t = s)) ∧
    (∃ t, exec (.faddVi d u w) s = .next t ∧ (s.issues d u 0x11 w = true → twGives d u w s t (fun e => (fpAdd w (x.fs1 w e) (fImm w e)).1) (x.orFlags w (fun e => (fpAdd w (x.fs1 w e) (fImm w e)).2))) ∧ (s.issues d u 0x11 w = false → t = s)) ∧
    (∃ t, exec (.fsubVv d u w) s = .next t ∧ (s.issues d u 0x12 w = true → twGives d u w s t (fun e => (fpAdd w (x.fs1 w e) (x.fs2 w e).neg).1) (x.orFlags w (fun e => (fpAdd w (x.fs1 w e) (x.fs2 w e).neg).2))) ∧ (s.issues d u 0x12 w = false → t = s)) ∧
    (∃ t, exec (.fsubVi d u w) s = .next t ∧ (s.issues d u 0x13 w = true → twGives d u w s t (fun e => (fpAdd w (x.fs1 w e) (fImm w e).neg).1) (x.orFlags w (fun e => (fpAdd w (x.fs1 w e) (fImm w e).neg).2))) ∧ (s.issues d u 0x13 w = false → t = s)) ∧
    (∃ t, exec (.fmulVv d u w) s = .next t ∧ (s.issues d u 0x14 w = true → twGives d u w s t (fun e => (fpMul w (x.fs1 w e) (x.fs2 w e)).1) (x.orFlags w (fun e => (fpMul w (x.fs1 w e) (x.fs2 w e)).2))) ∧ (s.issues d u 0x14 w = false → t = s)) ∧
    (∃ t, exec (.fmulVi d u w) s = .next t ∧ (s.issues d u 0x15 w = true → twGives d u w s t (fun e => (fpMul w (x.fs1 w e) (fImm w e)).1) (x.orFlags w (fun e => (fpMul w (x.fs1 w e) (fImm w e)).2))) ∧ (s.issues d u 0x15 w = false → t = s)) ∧
    (∃ t, exec (.ffmaVvv d u w) s = .next t ∧ (s.issues d u 0x16 w = true → twGives d u w s t (fun e => (fpFma w (x.fs1 w e) (x.fs2 w e) (x.fd w e)).1) (x.orFlags w (fun e => (fpFma w (x.fs1 w e) (x.fs2 w e) (x.fd w e)).2))) ∧ (s.issues d u 0x16 w = false → t = s)) ∧
    (∃ t, exec (.ffmaVvi d u w) s = .next t ∧ (s.issues d u 0x17 w = true → twGives d u w s t (fun e => (fpFma w (x.fs1 w e) (x.fs2 w e) (fImm w e)).1) (x.orFlags w (fun e => (fpFma w (x.fs1 w e) (x.fs2 w e) (fImm w e)).2))) ∧ (s.issues d u 0x17 w = false → t = s)) ∧
    (∃ t, exec (.ffmaViv d u w) s = .next t ∧ (s.issues d u 0x18 w = true → twGives d u w s t (fun e => (fpFma w (x.fs1 w e) (fImm w e) (x.fs2 w e)).1) (x.orFlags w (fun e => (fpFma w (x.fs1 w e) (fImm w e) (x.fs2 w e)).2))) ∧ (s.issues d u 0x18 w = false → t = s)) ∧
    (∃ t, exec (.fmax d u w) s = .next t ∧ (s.issues d u 0x19 w = true → twGives d u w s t (fun e => fpPick w true (x.fs1 w e) (x.fs2 w e)) 0) ∧ (s.issues d u 0x19 w = false → t = s)) ∧
    (∃ t, exec (.fmin d u w) s = .next t ∧ (s.issues d u 0x1A w = true → twGives d u w s t (fun e => fpPick w false (x.fs1 w e) (x.fs2 w e)) 0) ∧ (s.issues d u 0x1A w = false → t = s)) ∧
    (∃ t, exec (.fabs d u w) s = .next t ∧ (s.issues d u 0x1B w = true → twGives d u w s t (fun e => flushCode w (x.elem w w.s1.val e) % w.ff.signBit) 0) ∧ (s.issues d u 0x1B w = false → t = s)) ∧
    (∃ t, exec (.fneg d u w) s = .next t ∧ (s.issues d u 0x1C w = true → twGives d u w s t (fun e => (flushCode w (x.elem w w.s1.val e) + w.ff.signBit) % (2 * w.ff.signBit)) 0) ∧ (s.issues d u 0x1C w = false → t = s))) ∧
  (∀ (w : TwillWord) (a b : XNum),
    (w.ctl = 0) → 
    (fpMul w a b).1 = w.ff.encode (XNum.mul a b) ∧ (fpAdd w a b).1 = w.ff.encode (addDir 0 a b)) ∧
  (∀ (w : TwillWord) (b : XNum) (n : Bool) (m : Nat) (e : Int),
    (m = 0) → 
    fpAdd w .nan b = (w.ff.qnan, 0) ∧ fpAdd w b .nan = (w.ff.qnan, 0) ∧ fpMul w .nan b = (w.ff.qnan, 0) ∧ fpMul w b .nan = (w.ff.qnan, 0) ∧
    fpAdd w (.inf n) (.inf (!n)) = (w.ff.qnan, flNV) ∧ fpMul w (.inf n) (.fin n m e) = (w.ff.qnan, flNV))

/-- R159. The model's choices: the issue rule for a command of the table and the wrap of the PC (log 62), the free values within the bounds (log 53), the flags kept under the NOFLAG codes (log 63). -/
def Obligations.SpecialFunctions : Prop :=
  (∀ (s : State) (d : Die) (u : Fin 32) (w : TwillWord) (x : UnitSt),
    (s.midProgram d u = true) → (w.isFloat = true) → (w.ctl ≠ 7) → (s.unit (d * 32 + u) = x) → 
    (∃ t, exec (.exp2 d u w) s = .next t ∧ (s.issues d u 0x48 w = true → twGives d u w s t (fun e => (sfElem w sfExp2 (x.fs1 w e)).1) (x.orFlags w (fun e => (sfElem w sfExp2 (x.fs1 w e)).2))) ∧ (s.issues d u 0x48 w = false → t = s)) ∧
    (∃ t, exec (.log2 d u w) s = .next t ∧ (s.issues d u 0x49 w = true → twGives d u w s t (fun e => (sfElem w sfLog2 (x.fs1 w e)).1) (x.orFlags w (fun e => (sfElem w sfLog2 (x.fs1 w e)).2))) ∧ (s.issues d u 0x49 w = false → t = s)) ∧
    (∃ t, exec (.rcp d u w) s = .next t ∧ (s.issues d u 0x4A w = true → twGives d u w s t (fun e => (sfElem w (sfRcp w.ctl.val) (x.fs1 w e)).1) (x.orFlags w (fun e => (sfElem w (sfRcp w.ctl.val) (x.fs1 w e)).2))) ∧ (s.issues d u 0x4A w = false → t = s)) ∧
    (∃ t, exec (.rsqrt d u w) s = .next t ∧ (s.issues d u 0x4B w = true → twGives d u w s t (fun e => (sfElem w sfRsqrt (x.fs1 w e)).1) (x.orFlags w (fun e => (sfElem w sfRsqrt (x.fs1 w e)).2))) ∧ (s.issues d u 0x4B w = false → t = s)) ∧
    (∃ t, exec (.tanh d u w) s = .next t ∧ (s.issues d u 0x4C w = true → twGives d u w s t (fun e => (sfElem w sfTanh (x.fs1 w e)).1) (x.orFlags w (fun e => (sfElem w sfTanh (x.fs1 w e)).2))) ∧ (s.issues d u 0x4C w = false → t = s))) ∧
  (∀ (n : Bool) (m : Nat) (e : Int) (c : Nat),
    (0 < m) → 
    sfExp2 (.inf true) = (0, 0) ∧ sfExp2 (.inf false) = (0x7F800000, 0) ∧ (XNum.le (.fin false 1 7) (.fin n m e) = true → sfExp2 (.fin n m e) = (0x7F800000, flOF ||| flNX)) ∧
    sfLog2 (.fin n 0 e) = (0xFF800000, flDZ) ∧ sfLog2 (.fin true m e) = (0x7FC00000, flNV) ∧ sfLog2 (.inf true) = (0x7FC00000, flNV) ∧ sfLog2 (.inf false) = (0x7F800000, 0) ∧ sfLog2 (.fin false 1 0) = (0, 0) ∧
    sfRcp c (.fin false 0 e) = (0x7F800000, flDZ) ∧ sfRcp c (.fin true 0 e) = (0xFF800000, flDZ) ∧ sfRcp c (.inf false) = (0, 0) ∧ sfRcp c (.inf true) = (0x80000000, 0) ∧ sfRcp c (.fin n m e) = roundF FF.fp32 c false (XNum.div (.fin false 1 0) (.fin n m e)) ∧
    sfRsqrt (.fin false 0 e) = (0x7F800000, flDZ) ∧ sfRsqrt (.fin true 0 e) = (0xFF800000, flDZ) ∧ sfRsqrt (.fin true m e) = (0x7FC00000, flNV) ∧ sfRsqrt (.inf false) = (0, 0) ∧
    sfTanh (.inf false) = (0x3F800000, 0) ∧ sfTanh (.inf true) = (0xBF800000, 0) ∧ sfExp2 .nan = (0x7FC00000, 0) ∧ sfLog2 .nan = (0x7FC00000, 0) ∧ sfRcp c .nan = (0x7FC00000, 0) ∧ sfRsqrt .nan = (0x7FC00000, 0) ∧ sfTanh .nan = (0x7FC00000, 0)) ∧
  (∀ (n : Bool) (m : Nat) (e : Int),
    (XNum.le (XNum.ratio 901 100) (.fin false m e) = true) → (XNum.lt (.fin false m e) (.fin false 1 (-12)) = false) → 
    sfTanh (.fin n m e) = (if n then 0xBF800000 else 0x3F800000, flNX)) ∧
  (∀ (m : Nat) (e : Int),
    (0 < m) → (XNum.le (.fin false 1 7) (.fin false m e) = false) → (XNum.eq (.fin false m e) (.fin false 1 0) = false) → 
    (∀ n, (∃ v, (sfExp2 (.fin n m e)).1 = sfWithin (ulps 1 (pow2Near (XNum.floorInt ((XNum.fin n m e).scale sfBits))).2) (pow2Near (XNum.floorInt ((XNum.fin n m e).scale sfBits))) v) ∨ XNum.le (.fin false 1 7) (.fin n m e) = true) ∧
    (∃ v, (sfLog2 (.fin false m e)).1 = sfWithin (if XNum.le (.fin false 1 (-1)) (.fin false m e) && XNum.le (.fin false m e) (.fin false 1 1) then .fin false 1 (-22) else ulps 1 (log2Near m e).2) (log2Near m e) v) ∧
    (∃ v, (sfRsqrt (.fin false m e)).1 = sfWithin (ulps 1 (rsqrtNear (.fin false m e)).2) (rsqrtNear (.fin false m e)) v)) ∧
  (∀ (n : Bool) (m : Nat) (e : Int),
    (XNum.le (XNum.ratio 901 100) (.fin false m e) = false) → (XNum.lt (.fin false m e) (.fin false 1 (-12)) = false) → 
    ∃ v, (sfTanh (.fin n m e)).1 = sfWithin (ulps 2 (tanhNear m e).2) (if n then ((tanhNear m e).2.neg, (tanhNear m e).1.neg) else tanhNear m e) v) ∧
  (∀ (b : XNum) (r : XNum × XNum) (v : Nat),
    (XNum.le (XNum.sub r.1 b) (FF.fp32.decode (sfWithin b r v)) = true ∧ XNum.le (FF.fp32.decode (sfWithin b r v)) (XNum.add r.2 b) = true) ∨ sfWithin b r v = FF.fp32.encode r.1)

/-- R134, R139, R143, R144. The model's choices: the issue rule for a command of the table and the wrap of the PC (log 62), whole-lane moves of a float type do not flush (log 286). -/
def Obligations.ComparesAndMasks : Prop :=
  (∀ (s : State) (d : Die) (u : Fin 32) (w : TwillWord) (x : UnitSt),
    (s.midProgram d u = true) → (w.isFloat = true) → (w.d.val < 8) → (w.d.val ≠ 0) → (s.unit (d * 32 + u) = x) → 
    (∃ t, exec (.fcmpVv d u w) s = .next t ∧ (s.issues d u 0x30 w = true → twMaskOf d u w.d.val s t (fun e => decide (e < w.elems) && (if x.active w e then fCond w.ctl.val (x.fc w w.s1.val e) (x.fc w w.s2.val e) else if w.zero then false else (x.maskR w.d.val).testBit e))) ∧ (s.issues d u 0x30 w = false → t = s)) ∧
    (∃ t, exec (.fcmpVi d u w) s = .next t ∧ (s.issues d u 0x31 w = true → twMaskOf d u w.d.val s t (fun e => decide (e < w.elems) && (if x.active w e then fCond w.ctl.val (x.fc w w.s1.val e) (w.ff.decode (w.immE e)) else if w.zero then false else (x.maskR w.d.val).testBit e))) ∧ (s.issues d u 0x31 w = false → t = s))) ∧
  (∀ (s : State) (d : Die) (u : Fin 32) (w : TwillWord) (x : UnitSt),
    (s.midProgram d u = true) → (w.isFloat = false) → (w.ctl.val < 6) → (w.d.val < 8) → (w.d.val ≠ 0) → (s.unit (d * 32 + u) = x) → 
    (∃ t, exec (.icmpVv d u w) s = .next t ∧ (s.issues d u 0x32 w = true → twMaskOf d u w.d.val s t (fun e => decide (e < w.elems) && (if x.active w e then iCond w.ctl.val (sext w.bits (x.elem w w.s1.val e)) (sext w.bits (x.elem w w.s2.val e)) else if w.zero then false else (x.maskR w.d.val).testBit e))) ∧ (s.issues d u 0x32 w = false → t = s)) ∧
    (∃ t, exec (.icmpVi d u w) s = .next t ∧ (s.issues d u 0x33 w = true → twMaskOf d u w.d.val s t (fun e => decide (e < w.elems) && (if x.active w e then iCond w.ctl.val (sext w.bits (x.elem w w.s1.val e)) (sext w.bits (w.immE e)) else if w.zero then false else (x.maskR w.d.val).testBit e))) ∧ (s.issues d u 0x33 w = false → t = s))) ∧
  (∀ (s : State) (d : Die) (u : Fin 32) (w : TwillWord) (x : UnitSt),
    (s.midProgram d u = true) → (w.d.val = 0) → (s.unit (d * 32 + u) = x) → 
    (w.isFloat = true → (∃ t, exec (.fcmpVv d u w) s = .next t ∧ (s.issues d u 0x30 w = true → stepsUnit s t (d * 32 + u) { x with pc := (x.pc + 1) % 2048 }) ∧ (s.issues d u 0x30 w = false → t = s)) ∧ (∃ t, exec (.fcmpVi d u w) s = .next t ∧ (s.issues d u 0x31 w = true → stepsUnit s t (d * 32 + u) { x with pc := (x.pc + 1) % 2048 }) ∧ (s.issues d u 0x31 w = false → t = s))) ∧
    (w.isFloat = false → w.ctl.val < 6 → (∃ t, exec (.icmpVv d u w) s = .next t ∧ (s.issues d u 0x32 w = true → stepsUnit s t (d * 32 + u) { x with pc := (x.pc + 1) % 2048 }) ∧ (s.issues d u 0x32 w = false → t = s)) ∧ (∃ t, exec (.icmpVi d u w) s = .next t ∧ (s.issues d u 0x33 w = true → stepsUnit s t (d * 32 + u) { x with pc := (x.pc + 1) % 2048 }) ∧ (s.issues d u 0x33 w = false → t = s)))) ∧
  (∀ (c : Nat) (a : XNum),
    (c < 8) → 
    fCond c .nan a = decide (c = 1 ∨ c = 6) ∧ fCond c a .nan = decide (c = 1 ∨ c = 6)) ∧
  (∀ (s : State) (d : Die) (u : Fin 32) (w : TwillWord) (x : UnitSt),
    (s.midProgram d u = true) → (w.ctl ≠ 7) → (w.d.val % 8 ≠ 0) → (s.unit (d * 32 + u) = x) → 
    (∃ t, exec (.mand d u w) s = .next t ∧ (s.issues d u 0x34 w = true → twMaskOf d u (w.d.val % 8) s t (fun e => decide (e < 128) && ((x.maskR (w.s1.val % 8)).testBit e && (x.maskR (w.s2.val % 8)).testBit e))) ∧ (s.issues d u 0x34 w = false → t = s)) ∧
    (∃ t, exec (.mor d u w) s = .next t ∧ (s.issues d u 0x35 w = true → twMaskOf d u (w.d.val % 8) s t (fun e => decide (e < 128) && ((x.maskR (w.s1.val % 8)).testBit e || (x.maskR (w.s2.val % 8)).testBit e))) ∧ (s.issues d u 0x35 w = false → t = s)) ∧
    (∃ t, exec (.mxor d u w) s = .next t ∧ (s.issues d u 0x36 w = true → twMaskOf d u (w.d.val % 8) s t (fun e => decide (e < 128) && ((x.maskR (w.s1.val % 8)).testBit e != (x.maskR (w.s2.val % 8)).testBit e))) ∧ (s.issues d u 0x36 w = false → t = s)) ∧
    (∃ t, exec (.mandn d u w) s = .next t ∧ (s.issues d u 0x37 w = true → twMaskOf d u (w.d.val % 8) s t (fun e => decide (e < 128) && ((x.maskR (w.s1.val % 8)).testBit e && !(x.maskR (w.s2.val % 8)).testBit e))) ∧ (s.issues d u 0x37 w = false → t = s))) ∧
  (∀ (s : State) (d : Die) (u : Fin 32) (w : TwillWord) (x : UnitSt),
    (s.midProgram d u = true) → (w.ctl ≠ 7) → (w.d.val % 8 = 0) → (s.unit (d * 32 + u) = x) → 
    (∃ t, exec (.mand d u w) s = .next t ∧ (s.issues d u 0x34 w = true → stepsUnit s t (d * 32 + u) { x with pc := (x.pc + 1) % 2048 }) ∧ (s.issues d u 0x34 w = false → t = s)) ∧ (∃ t, exec (.mor d u w) s = .next t ∧ (s.issues d u 0x35 w = true → stepsUnit s t (d * 32 + u) { x with pc := (x.pc + 1) % 2048 }) ∧ (s.issues d u 0x35 w = false → t = s)) ∧ (∃ t, exec (.mxor d u w) s = .next t ∧ (s.issues d u 0x36 w = true → stepsUnit s t (d * 32 + u) { x with pc := (x.pc + 1) % 2048 }) ∧ (s.issues d u 0x36 w = false → t = s)) ∧ (∃ t, exec (.mandn d u w) s = .next t ∧ (s.issues d u 0x37 w = true → stepsUnit s t (d * 32 + u) { x with pc := (x.pc + 1) % 2048 }) ∧ (s.issues d u 0x37 w = false → t = s))) ∧
  (∀ (s : State) (d : Die) (u : Fin 32) (w : TwillWord) (x : UnitSt),
    (s.midProgram d u = true) → (w.ctl ≠ 7) → (s.unit (d * 32 + u) = x) → 
    ∃ t, exec (.vsel d u w) s = .next t ∧ (s.issues d u 0x38 w = true → twGives d u { w with m := 0 } s t (fun e => if (x.maskR w.m.val).testBit e then x.elem w w.s1.val e else x.elem w w.s2.val e) 0) ∧ (s.issues d u 0x38 w = false → t = s))

/-- R142, R143, R147, R152. The model's choices: the issue rule for a command of the table and the wrap of the PC (log 62), and the fields of the log entry of a fault (log 65). -/
def Obligations.TwillSetupAndIllegal : Prop :=
  (∀ (s : State) (d : Die) (u : Fin 32) (w : TwillWord) (x : UnitSt),
    (s.midProgram d u = true) → (w.ctl ≠ 7) → (s.unit (d * 32 + u) = x) → 
    (∃ t, exec (.nop d u w) s = .next t ∧ (s.issues d u 0x00 w = true → stepsUnit s t (d * 32 + u) { x with pc := (x.pc + 1) % 2048 }) ∧ (s.issues d u 0x00 w = false → t = s)) ∧
    (∃ t, exec (.vsetvl d u w) s = .next t ∧ (s.issues d u 0x01 w = true → stepsUnit s t (d * 32 + u) { x with vl := max 1 (min 64 (w.imm.toNat % 128)), pc := (x.pc + 1) % 2048 }) ∧ (s.issues d u 0x01 w = false → t = s)) ∧
    (∃ t, exec (.vsetsri d u w) s = .next t ∧ (s.issues d u 0x03 w = true → stepsUnit s t (d * 32 + u) { x with srBase := w.imm.toNat, pc := (x.pc + 1) % 2048 }) ∧ (s.issues d u 0x03 w = false → t = s)) ∧
    (∃ t, exec (.vsetsr d u w) s = .next t ∧ (s.issues d u 0x02 w = true → stepsUnit s t (d * 32 + u) { x with srTensor := w.imm.toNat / 256, srHi := w.imm.toNat % 256, srOk := ((s.fmtOf (s.unitTask d u)).find (w.imm.toNat / 256)).elim false (·.sr), pc := (x.pc + 1) % 2048 }) ∧ (s.issues d u 0x02 w = false → t = s))) ∧
  (∀ (s : State) (d : Die) (u : Fin 32) (op : Fin 256) (x : UnitSt),
    (s.midProgram d u = true) → (s.unit (d * 32 + u) = x) → (twOpcode op = false) → 
    ∃ t, exec (.twillIllegal d u op) s = .next t ∧ (s.issuesOp d u op = true → t.unit (d * 32 + u) = { x with flags := x.flags ||| flIll, pc := (x.pc + 1) % 2048 } ∧
    t.reg (R.VEC_FAULT d) = packFields [(27, u.val), (16, x.pc), (8, 0), (0, op.val)] ∧ t.mem = s.mem ∧ t.vec.status = s.vec.status) ∧ (s.issuesOp d u op = false → t = s)) ∧
  (∀ (s : State) (d : Die) (u : Fin 32) (op : Fin 256),
    (twOpcode op = true) → 
    exec (.twillIllegal d u op) s = .next s) ∧
  (∀ (s : State) (d : Die) (u : Fin 32) (w : TwillWord) (x : UnitSt) (sl : Nat),
    (w.ctl ≠ 7) → (s.unit (d * 32 + u) = x) → (x.slot = some sl) → (x.ibuf.length ≤ x.pc + 1) → 
    ∃ t, exec (.nop d u w) s = .next t ∧ (s.issues d u 0x00 w = true → (t.unit (d * 32 + u)).slot = none ∧ (t.unit (d * 32 + u)).flags = 0 ∧ t.reg (R.VEC_FLAGS_ACC d) = s.reg (R.VEC_FLAGS_ACC d) ||| BitVec.ofNat 32 x.flags ∧ SMap.get (fun _ => 0) t.vec.status (d * 4096 + sl) = SMap.get (fun _ => 0) s.vec.status (d * 4096 + sl) ||| x.flags ∧ t.mem = s.mem) ∧ (s.issues d u 0x00 w = false → t = s)) ∧
  (∀ (s : State) (d : Die) (u : Fin 32) (w : TwillWord) (x : UnitSt),
    (w.ctl = 7) → (s.unit (d * 32 + u) = x) → (s.midProgram d u = true) → 
    ∃ t, exec (.nop d u w) s = .next t ∧ (s.issues d u 0x00 w = true → t.unit (d * 32 + u) = { x with flags := x.flags ||| flIll, pc := (x.pc + 1) % 2048 } ∧ t.reg (R.VEC_FAULT d) = packFields [(27, u.val), (16, x.pc), (8, 0), (0, 0)]) ∧ (s.issues d u 0x00 w = false → t = s))

/-- R145 to R149. The model's choices: the issue rule for a command of the table and the wrap of the PC (log 62), which mask element governs a conversion of halves (log 58), what enters the saturation count of the attempt (log 64), VAMAX outside an attempt (log 66), scale clamps of marker lanes (log 285). -/
def Obligations.ConversionsAndPacking : Prop :=
  (∀ (s : State) (d : Die) (u : Fin 32) (w : TwillWord) (x : UnitSt),
    (s.midProgram d u = true) → (w.ctl ≠ 7) → (s.unit (d * 32 + u) = x) → (w.imm.toNat % 16 < 8) → (w.ty.val = fcvtType (w.imm.toNat % 16)) → 
    ∃ t, exec (.fcvt d u w) s = .next t ∧ (s.issues d u 0x40 w = true → ∃ fl, twLanes d u w s t (fun i => if x.active w (fcvtElem (w.imm.toNat % 16) i) then (if w.imm.toNat % 16 < 2 then withHalf (x.lane w.d.val i) (decide (w.imm.toNat % 16 = 1)) (fcvtLane (w.imm.toNat % 16) w (x.lane w.s1.val i)).1 else BitVec.ofNat 32 (fcvtLane (w.imm.toNat % 16) w (x.lane w.s1.val i)).1) else if w.zero then (if w.imm.toNat % 16 < 2 then withHalf (x.lane w.d.val i) (decide (w.imm.toNat % 16 = 1)) 0 else 0) else x.lane w.d.val i) fl) ∧ (s.issues d u 0x40 w = false → t = s)) ∧
  (∀ (s : State) (d : Die) (u : Fin 32) (w : TwillWord) (x : UnitSt),
    (8 ≤ w.imm.toNat % 16) → 
    exec (.fcvt d u w) s = .next (if s.issues d u 0x40 w then twIllegal d u 0x40 s else s)) ∧
  (∀ (s : State) (d : Die) (u : Fin 32) (w : TwillWord) (x : UnitSt),
    (w.imm.toNat % 16 < 8) → (w.ty.val ≠ fcvtType (w.imm.toNat % 16)) → 
    exec (.fcvt d u w) s = .next (if s.issues d u 0x40 w then twIllegal d u 0x40 s else s)) ∧
  (∀ (s : State) (d : Die) (u : Fin 32) (w : TwillWord) (x : UnitSt),
    (s.unit (d * 32 + u) = x) → (w.ty ≠ 2) → 
    exec (.vgetx d u w) s = .next (if s.issues d u 0x43 w then twIllegal d u 0x43 s else s) ∧ exec (.vpackb d u w) s = .next (if s.issues d u 0x42 w then twIllegal d u 0x42 s else s)) ∧
  (∀ (s : State) (d : Die) (u : Fin 32) (w : TwillWord) (x : UnitSt),
    (s.unit (d * 32 + u) = x) → (w.ty ≠ 0) → 
    exec (.vamax d u w) s = .next (if s.issues d u 0x44 w then twIllegal d u 0x44 s else s)) ∧
  (∀ (c : Nat) (n : Bool) (m : Nat) (e : Int),
    (-(2 ^ 31) ≤ XNum.roundInt (ctlRnd c n) (.fin n m e)) → (XNum.roundInt (ctlRnd c n) (.fin n m e) ≤ 2 ^ 31 - 1) → 
    (cvtInt c (.fin n m e)).1 = toTwos 32 (XNum.roundInt (ctlRnd c n) (.fin n m e)) ∧ cvtInt c .nan = (0, flNV) ∧ cvtInt c (.inf true) = (2 ^ 31, flNV) ∧ cvtInt c (.inf false) = (2 ^ 31 - 1, flNV)) ∧
  (∀ (s : State) (d : Die) (u : Fin 32) (w : TwillWord) (x : UnitSt),
    (s.midProgram d u = true) → (w.ctl ≠ 7) → (s.unit (d * 32 + u) = x) → (qWidth (w.imm.toNat % 16) = true) → (w.ty = 0) → 
    ∃ t, exec (.qcvt d u w) s = .next t ∧ (s.issues d u 0x41 w = true → (∀ e < 64, (t.unit (d * 32 + u)).elem w w.d.val e = if x.active w e then (qElem (w.imm.toNat % 16) (ctlRnd w.ctl.val (readF FF.fp32 w.ctl.val (x.elem w w.s1.val e)).isNeg) (readF FF.fp32 w.ctl.val (x.elem w w.s1.val e)) (sext 32 (x.elem w w.s2.val e))).1 % 2 ^ 32 else if w.zero then 0 else x.elem w w.d.val e) ∧
    t.pair (R.VEC_SAT_CNT d) = (s.pair (R.VEC_SAT_CNT d) + x.sumActive w (fun e => (qElem (w.imm.toNat % 16) (ctlRnd w.ctl.val (readF FF.fp32 w.ctl.val (x.elem w w.s1.val e)).isNeg) (readF FF.fp32 w.ctl.val (x.elem w w.s1.val e)) (sext 32 (x.elem w w.s2.val e))).2.2.1)) % 2 ^ 64 ∧ t.pair (R.VEC_UFL_CNT d) = (s.pair (R.VEC_UFL_CNT d) + x.sumActive w (fun e => (qElem (w.imm.toNat % 16) (ctlRnd w.ctl.val (readF FF.fp32 w.ctl.val (x.elem w w.s1.val e)).isNeg) (readF FF.fp32 w.ctl.val (x.elem w w.s1.val e)) (sext 32 (x.elem w w.s2.val e))).2.2.2.1)) % 2 ^ 64 ∧ t.mem = s.mem) ∧ (s.issues d u 0x41 w = false → t = s)) ∧
  (∀ (s : State) (d : Die) (u : Fin 32) (w : TwillWord) (x : UnitSt),
    (s.midProgram d u = true) → (w.ctl = 7) → (x.srOk = true) → (s.unit (d * 32 + u) = x) → (qWidth (w.imm.toNat % 16) = true) → (w.ty = 0) → 
    ∃ t, exec (.qcvt d u w) s = .next t ∧ (s.issues d u 0x41 w = true → (∀ e < 64, (t.unit (d * 32 + u)).elem w w.d.val e = if x.active w e then (qElem (w.imm.toNat % 16) (.sr (srUniform s.srSeed s.stepNo x.srTensor ((x.srHi * 2 ^ 32 + x.srBase + e) % 2 ^ 40))) (readF FF.fp32 7 (x.elem w w.s1.val e)) (sext 32 (x.elem w w.s2.val e))).1 % 2 ^ 32 else if w.zero then 0 else x.elem w w.d.val e) ∧
    t.pair (R.VEC_SAT_CNT d) = (s.pair (R.VEC_SAT_CNT d) + x.sumActive w (fun e => (qElem (w.imm.toNat % 16) (.sr (srUniform s.srSeed s.stepNo x.srTensor ((x.srHi * 2 ^ 32 + x.srBase + e) % 2 ^ 40))) (readF FF.fp32 7 (x.elem w w.s1.val e)) (sext 32 (x.elem w w.s2.val e))).2.2.1)) % 2 ^ 64 ∧ t.pair (R.VEC_UFL_CNT d) = (s.pair (R.VEC_UFL_CNT d) + x.sumActive w (fun e => (qElem (w.imm.toNat % 16) (.sr (srUniform s.srSeed s.stepNo x.srTensor ((x.srHi * 2 ^ 32 + x.srBase + e) % 2 ^ 40))) (readF FF.fp32 7 (x.elem w w.s1.val e)) (sext 32 (x.elem w w.s2.val e))).2.2.2.1)) % 2 ^ 64 ∧ t.mem = s.mem) ∧ (s.issues d u 0x41 w = false → t = s)) ∧
  (∀ (s : State) (d : Die) (u : Fin 32) (w : TwillWord) (x : UnitSt),
    (s.midProgram d u = true) → (w.ctl ≠ 7) → (s.unit (d * 32 + u) = x) → (qWidth (w.imm.toNat % 16) = true) → (w.ty = 0) → (s.inAttempt (s.unitTask d u) = true) → 
    ∃ t, exec (.qcvt d u w) s = .next t ∧ (s.issues d u 0x41 w = true → t.stp.cnt.sat = s.stp.cnt.sat + x.sumActive w (fun e => (qElem (w.imm.toNat % 16) (ctlRnd w.ctl.val (readF FF.fp32 w.ctl.val (x.elem w w.s1.val e)).isNeg) (readF FF.fp32 w.ctl.val (x.elem w w.s1.val e)) (sext 32 (x.elem w w.s2.val e))).2.2.1) + x.sumActive w (fun e => (qElem (w.imm.toNat % 16) (ctlRnd w.ctl.val (readF FF.fp32 w.ctl.val (x.elem w w.s1.val e)).isNeg) (readF FF.fp32 w.ctl.val (x.elem w w.s1.val e)) (sext 32 (x.elem w w.s2.val e))).2.2.2.1) + x.sumActive w (fun e => (qElem (w.imm.toNat % 16) (ctlRnd w.ctl.val (readF FF.fp32 w.ctl.val (x.elem w w.s1.val e)).isNeg) (readF FF.fp32 w.ctl.val (x.elem w w.s1.val e)) (sext 32 (x.elem w w.s2.val e))).2.2.2.2) ∧ t.stp.cnt.nonfinite = s.stp.cnt.nonfinite + x.sumActive w (fun e => (qElem (w.imm.toNat % 16) (ctlRnd w.ctl.val (readF FF.fp32 w.ctl.val (x.elem w w.s1.val e)).isNeg) (readF FF.fp32 w.ctl.val (x.elem w w.s1.val e)) (sext 32 (x.elem w w.s2.val e))).2.2.2.2)) ∧ (s.issues d u 0x41 w = false → t = s)) ∧
  (∀ (b : Nat) (r : Rnd) (n : Bool) (m : Nat) (e ex : Int),
    (1 ≤ b) → 
    (qElem b r (.fin n m e) ex).1 = toTwos 32 (max (-(2 ^ (b - 1) - 1)) (min (2 ^ (b - 1) - 1) (XNum.roundInt r ((XNum.fin n m e).scale (-ex))))) ∧ (qElem b r .nan ex).1 = 0x80000000 ∧ (qElem b r (.inf n) ex).1 = 0x80000000 ∧ (qElem b r .nan ex).2.1 = flNV) ∧
  (∀ (s : State) (d : Die) (u : Fin 32) (w : TwillWord) (x : UnitSt),
    (s.unit (d * 32 + u) = x) → (qWidth (w.imm.toNat % 16) = false ∨ w.ty ≠ 0) → 
    exec (.qcvt d u w) s = .next (if s.issues d u 0x41 w then twIllegal d u 0x41 s else s)) ∧
  (∀ (s : State) (d : Die) (u : Fin 32) (w : TwillWord) (x : UnitSt),
    (s.midProgram d u = true) → (w.ctl ≠ 7) → (s.unit (d * 32 + u) = x) → (qWidth (w.imm.toNat % 16) = true) → (w.ty = 2) → 
    ∃ t, exec (.vpackb d u w) s = .next t ∧ (s.issues d u 0x42 w = true → (∀ i < 64, (t.unit (d * 32 + u)).lane w.d.val i = bytesLane (((List.range 2).filter (fun k => decide (32 * k < x.vl))).flatMap (packBlock (w.imm.toNat % 16) x w)) i) ∧
    t.pair (R.VEC_SAT_CNT d) = (s.pair (R.VEC_SAT_CNT d) + (((List.range 2).filter (fun k => decide (32 * k < x.vl))).filter (fun k => (packScale (sext 32 (x.elem w w.s2.val (32 * k)))).2)).length) % 2 ^ 64 ∧ t.mem = s.mem) ∧ (s.issues d u 0x42 w = false → t = s)) ∧
  (∀ (b k : Nat) (x : UnitSt) (w : TwillWord),
    (((List.range 32).map (fun i => 32 * k + i)).any (fun e => x.active w e && decide (x.elem w w.s1.val e = 0x80000000)) = true) → 
    packBlock b x w k = 0xFF#8 :: List.replicate (4 * b) 0) ∧
  (∀ (s : State) (d : Die) (u : Fin 32) (w : TwillWord) (x : UnitSt),
    (s.unit (d * 32 + u) = x) → (qWidth (w.imm.toNat % 16) = false) → 
    exec (.vpackb d u w) s = .next (if s.issues d u 0x42 w then twIllegal d u 0x42 s else s)) ∧
  (∀ (s : State) (d : Die) (u : Fin 32) (w : TwillWord) (x : UnitSt),
    (s.midProgram d u = true) → (w.ctl ≠ 7) → (s.unit (d * 32 + u) = x) → (w.ty = 2) → (((s.fmtOf (s.unitTask d u)).find (w.imm.toNat % 2 ^ 24)).isSome = true) → 
    ∃ t, exec (.vgetx d u w) s = .next t ∧ (s.issues d u 0x43 w = true → twGives d u w s t (fun _ => toTwos 32 ((s.fmtOf (s.unitTask d u)).exp (w.imm.toNat % 2 ^ 24))) 0) ∧ (s.issues d u 0x43 w = false → t = s)) ∧
  (∀ (s : State) (d : Die) (u : Fin 32) (w : TwillWord) (x : UnitSt),
    (s.midProgram d u = true) → (w.ctl ≠ 7) → (s.unit (d * 32 + u) = x) → (w.ty = 0) → (((s.fmtOf (s.unitTask d u)).find (w.imm.toNat % 2 ^ 24)).isSome = true) → (s.inAttempt (s.unitTask d u) = true) → 
    ∃ t, exec (.vamax d u w) s = .next t ∧ (s.issues d u 0x44 w = true → SMap.get (fun _ => 0) t.fmt.amax (w.imm.toNat % 2 ^ 24) = max (SMap.get (fun _ => 0) s.fmt.amax (w.imm.toNat % 2 ^ 24)) (amaxOf x w) ∧ (t.unit (d * 32 + u)).v = x.v ∧ t.regs = s.regs ∧ t.mem = s.mem) ∧ (s.issues d u 0x44 w = false → t = s)) ∧
  (∀ (s : State) (d : Die) (u : Fin 32) (w : TwillWord) (x : UnitSt),
    (s.midProgram d u = true) → (w.ctl ≠ 7) → (s.unit (d * 32 + u) = x) → (w.ty = 0) → (((s.fmtOf (s.unitTask d u)).find (w.imm.toNat % 2 ^ 24)).isSome = true) → (s.inAttempt (s.unitTask d u) = false) → 
    ∃ t, exec (.vamax d u w) s = .next t ∧ (s.issues d u 0x44 w = true → stepsUnit s t (d * 32 + u) { x with pc := (x.pc + 1) % 2048 }) ∧ (s.issues d u 0x44 w = false → t = s))

/-- R150, R151. The model's choices: the issue rule for a command of the table and the wrap of the PC (log 62), alignment and lanes of 16-bit types (log 60, 61), what a barrier time-out counts as (log 270). A command whose condition fails changes nothing (log 5), and a timer command stands for its elapsed time (log 4). -/
def Obligations.LoadsStoresBarriers : Prop :=
  (∀ (s : State) (d : Die) (u : Fin 32) (w : TwillWord) (x : UnitSt) (ex : Bool) (a size : Nat),
    (s.midProgram d u = true) → (w.ctl ≠ 7) → (s.unit (d * 32 + u) = x) → (TwillWord.memOp w x = (0, ex, a, size)) → (memBeyond x w 0 a size = false) → 
    ∃ t, exec (.vld d u w) s = .next t ∧ (s.issues d u 0x08 w = true → twLanes d u w s t (fun i => if x.laneActive w i then BitVec.ofNat 32 (ofLe ((List.range 4).map (fun j => s.twByte d u ex (a + 4 * i + j)))) else if w.zero then 0 else x.lane w.d.val i) 0) ∧ (s.issues d u 0x08 w = false → t = s)) ∧
  (∀ (s : State) (d : Die) (u : Fin 32) (w : TwillWord) (x : UnitSt) (c : Nat) (ex : Bool) (a size : Nat),
    (s.midProgram d u = true) → (w.ctl ≠ 7) → (s.unit (d * 32 + u) = x) → (TwillWord.memOp w x = (c, ex, a, size)) → (0 < c) → (a + c ≤ size) → 
    ∃ t, exec (.vld d u w) s = .next t ∧ (s.issues d u 0x08 w = true → ∀ i < 64, (4 * i + 4 ≤ c → (t.unit (d * 32 + u)).lane w.d.val i = BitVec.ofNat 32 (ofLe ((List.range 4).map (fun j => s.twByte d u ex (a + 4 * i + j))))) ∧ (4 * i < c → c < 4 * i + 4 → (t.unit (d * 32 + u)).lane w.d.val i = setFld (if w.zero then 0 else x.lane w.d.val i) (8 * (c - 4 * i) - 1) 0 (BitVec.ofNat 32 (ofLe ((List.range (c - 4 * i)).map (fun j => s.twByte d u ex (a + 4 * i + j))))).toNat) ∧ (c ≤ 4 * i → (t.unit (d * 32 + u)).lane w.d.val i = if w.zero then 0 else x.lane w.d.val i)) ∧ (s.issues d u 0x08 w = false → t = s)) ∧
  (∀ (s : State) (d : Die) (u : Fin 32) (w : TwillWord) (x : UnitSt) (c : Nat) (ex : Bool) (a size : Nat),
    (s.midProgram d u = true) → (w.ctl ≠ 7) → (s.unit (d * 32 + u) = x) → (TwillWord.memOp w x = (c, ex, a, size)) → (memBeyond x w c a size = true) → 
    (∃ t, exec (.vld d u w) s = .next t ∧ (s.issues d u 0x08 w = true → (t.unit (d * 32 + u)).v = x.v ∧ t.reg (R.VEC_FAULT d) = packFields [(27, u.val), (16, x.pc), (8, 1), (0, 0x08)] ∧ (t.unit (d * 32 + u)).flags = (if ctlNoFlag w.ctl.val then x.flags else x.flags ||| flMem)) ∧ (s.issues d u 0x08 w = false → t = s)) ∧
    (∃ t, exec (.vst d u w) s = .next t ∧ (s.issues d u 0x09 w = true → (t.unit (d * 32 + u)).mem = x.mem ∧ t.mem = s.mem ∧ t.reg (R.VEC_FAULT d) = packFields [(27, u.val), (16, x.pc), (8, 1), (0, 0x09)] ∧ (t.unit (d * 32 + u)).flags = (if ctlNoFlag w.ctl.val then x.flags else x.flags ||| flMem)) ∧ (s.issues d u 0x09 w = false → t = s))) ∧
  (∀ (s : State) (d : Die) (u : Fin 32) (w : TwillWord) (x : UnitSt) (c : Nat) (ex : Bool) (a size : Nat),
    (s.midProgram d u = true) → (w.ctl ≠ 7) → (s.unit (d * 32 + u) = x) → (TwillWord.memOp w x = (c, ex, a, size)) → (0 < c) → (a + c ≤ size) → 
    ∃ t, exec (.vst d u w) s = .next t ∧ (s.issues d u 0x09 w = true → (∀ b, t.twByte d u ex b = if a ≤ b ∧ b < a + c then byteOf ((x.lane w.s1.val ((b - a) / 4)).toNat / 2 ^ (8 * ((b - a) % 4))) else s.twByte d u ex b) ∧ t.mem.hbm = s.mem.hbm ∧ t.regs = s.regs) ∧ (s.issues d u 0x09 w = false → t = s)) ∧
  (∀ (s : State) (d : Die) (u : Fin 32) (w : TwillWord) (x : UnitSt) (ex : Bool) (a size : Nat),
    (s.midProgram d u = true) → (w.ctl ≠ 7) → (s.unit (d * 32 + u) = x) → (TwillWord.memOp w x = (0, ex, a, size)) → (memBeyond x w 0 a size = false) → 
    ∃ t, exec (.vst d u w) s = .next t ∧ (s.issues d u 0x09 w = true → (∀ i < 64, x.laneActive w i = true → ∀ j < 4, t.twByte d u ex (a + 4 * i + j) = byteOf ((x.lane w.s1.val i).toNat / 2 ^ (8 * j))) ∧
    (∀ b, (∀ i < 64, x.laneActive w i = true → b < a + 4 * i ∨ a + 4 * i + 4 ≤ b) → t.twByte d u ex b = s.twByte d u ex b) ∧ t.mem.hbm = s.mem.hbm ∧ t.regs = s.regs) ∧ (s.issues d u 0x09 w = false → t = s)) ∧
  (∀ (s : State) (d : Die) (u : Fin 32) (w : TwillWord) (x : UnitSt),
    (w.ctl ≠ 7) → (s.unit (d * 32 + u) = x) → 
    exec (.vbar d u w) s = .next (if s.issues d u 0x0A w then s.setUnit (d * 32 + u) { x with bar := some (w.imm.toNat % 256) } else s)) ∧
  (∀ (s : State) (d : Die) (slot : Fin 4096) (n : Fin 256) (us : List Nat),
    ((List.range 32).filter (fun u => decide ((s.unit (d * 32 + u)).slot = some slot.val)) = us) → (us ≠ []) → (∀ u ∈ us, (s.unit (d * 32 + u)).reached n = true) → (∀ u ∈ us, s.midProgram d u = true) → 
    ∃ t, exec (.barrierRelease d slot n) s = .next t ∧ (∀ u ∈ us, t.unit (d * 32 + u) = if (s.unit (d * 32 + u)).bar = some n.val then { s.unit (d * 32 + u) with bar := none, pc := ((s.unit (d * 32 + u)).pc + 1) % 2048 } else { s.unit (d * 32 + u) with past := (s.unit (d * 32 + u)).past.erase n }) ∧ t.mem = s.mem ∧ t.regs = s.regs) ∧
  (∀ (s : State) (d : Die) (slot : Fin 4096) (n : Fin 256) (u : Nat),
    (u < 32) → ((s.unit (d * 32 + u)).slot = some slot.val) → ((s.unit (d * 32 + u)).reached n = false) → 
    exec (.barrierRelease d slot n) s = .next s) ∧
  (∀ (s : State) (d : Die) (u : Fin 32) (x : UnitSt) (n : Nat),
    (s.midProgram d u = true) → (s.unit (d * 32 + u) = x) → (x.bar = some n) → 
    ∃ t, exec (.barrierTimeout d u) s = .next t ∧ t.unit (d * 32 + u) = { x with bar := none, past := x.past ++ [n], flags := x.flags ||| flIll, pc := (x.pc + 1) % 2048 } ∧ t.reg (R.VEC_FAULT d) = packFields [(27, u.val), (16, x.pc), (8, 2), (0, 0x0A)] ∧ t.mem = s.mem) ∧
  (∀ (s : State) (d : Die) (u : Fin 32),
    ((s.unit (d * 32 + u)).bar = none) → 
    exec (.barrierTimeout d u) s = .next s)

/-- R153 to R156, R158. The model's choices: the issue rule for a command of the table and the wrap of the PC (log 62), reductions round to nearest even under every control code (log 57), infinity minus infinity in a sum sets no INVALID (log 287). -/
def Obligations.ReductionsAndPermutations : Prop :=
  (∀ (s : State) (d : Die) (u : Fin 32) (w : TwillWord) (x : UnitSt),
    (s.midProgram d u = true) → (w.ctl ≠ 7) → (s.unit (d * 32 + u) = x) → 
    (∃ t, exec (.rsumt d u w) s = .next t ∧ (s.issues d u 0x50 w = true → ∃ v c fl, (rsumt w x) = (x.setRed w v c, fl) ∧ twLanes d u w s t (fun i => if i = 0 then BitVec.ofNat 32 v else if i = 1 then BitVec.ofNat 32 c else if w.zero then 0 else x.lane w.d.val i) fl) ∧ (s.issues d u 0x50 w = false → t = s)) ∧
    (∃ t, exec (.rsums d u w) s = .next t ∧ (s.issues d u 0x51 w = true → ∃ v c fl, (rsums w x) = (x.setRed w v c, fl) ∧ twLanes d u w s t (fun i => if i = 0 then BitVec.ofNat 32 v else if i = 1 then BitVec.ofNat 32 c else if w.zero then 0 else x.lane w.d.val i) fl) ∧ (s.issues d u 0x51 w = false → t = s)) ∧
    (∃ t, exec (.rmax d u w) s = .next t ∧ (s.issues d u 0x52 w = true → ∃ v c fl, (rext true w x) = (x.setRed w v c, fl) ∧ twLanes d u w s t (fun i => if i = 0 then BitVec.ofNat 32 v else if i = 1 then BitVec.ofNat 32 c else if w.zero then 0 else x.lane w.d.val i) fl) ∧ (s.issues d u 0x52 w = false → t = s)) ∧
    (∃ t, exec (.rmin d u w) s = .next t ∧ (s.issues d u 0x53 w = true → ∃ v c fl, (rext false w x) = (x.setRed w v c, fl) ∧ twLanes d u w s t (fun i => if i = 0 then BitVec.ofNat 32 v else if i = 1 then BitVec.ofNat 32 c else if w.zero then 0 else x.lane w.d.val i) fl) ∧ (s.issues d u 0x53 w = false → t = s))) ∧
  (∀ (w : TwillWord) (x : UnitSt),
    (w.isFloat = false) → 
    (rsums w x).1 = x.setRed w (((x.actives w).map (x.wide w)).sum % 2 ^ 32) (x.actives w).length ∧ (rsumt w x).1 = (rsums w x).1) ∧
  (∀ (w : TwillWord) (x : UnitSt) (e0 : Nat),
    (w.isFloat = false) → (e0 ∈ x.actives w) → 
    (∃ b ∈ x.actives w, rext true w x = (x.setRed w (x.wide w b) b, 0) ∧ ∀ e ∈ x.actives w, sext 32 (x.wide w e) < sext 32 (x.wide w b) ∨ (sext 32 (x.wide w e) = sext 32 (x.wide w b) ∧ b ≤ e)) ∧
    (∃ b ∈ x.actives w, rext false w x = (x.setRed w (x.wide w b) b, 0) ∧ ∀ e ∈ x.actives w, sext 32 (x.wide w b) < sext 32 (x.wide w e) ∨ (sext 32 (x.wide w e) = sext 32 (x.wide w b) ∧ b ≤ e))) ∧
  (∀ (w : TwillWord) (x : UnitSt),
    (x.actives w = []) → 
    rsums w x = (x.setRed w 0 0, flEmpty) ∧ rext true w x = (x.setRed w (if w.isFloat then 0xFF800000 else 0x80000000) 0xFFFF, flEmpty) ∧ rext false w x = (x.setRed w (if w.isFloat then 0x7F800000 else 0x7FFFFFFF) 0xFFFF, flEmpty)) ∧
  (∀ (s : State) (d : Die) (u : Fin 32) (w : TwillWord) (x : UnitSt),
    (s.midProgram d u = true) → (w.ctl ≠ 7) → (s.unit (d * 32 + u) = x) → 
    (∃ t, exec (.vperm d u w) s = .next t ∧ (s.issues d u 0x58 w = true → ∃ fl, twLanes d u w s t (fun i => if x.laneActive w i = true ∧ ((x.lane w.s2.val i).toNat) < x.vl then x.lane w.s1.val ((x.lane w.s2.val i).toNat) else if w.zero then 0 else x.lane w.d.val i) fl ∧ (fl = if (List.range 64).any (fun i => x.laneActive w i && decide (x.vl ≤ ((x.lane w.s2.val i).toNat))) then flPerm else 0)) ∧ (s.issues d u 0x58 w = false → t = s)) ∧
    (∃ t, exec (.vsplat d u w) s = .next t ∧ (s.issues d u 0x59 w = true → ∃ fl, twLanes d u w s t (fun i => if x.laneActive w i = true ∧ (w.imm.toNat % 128) < x.vl then x.lane w.s1.val (w.imm.toNat % 128) else if w.zero then 0 else x.lane w.d.val i) fl ∧ (fl = if (List.range 64).any (fun i => x.laneActive w i && decide (x.vl ≤ (w.imm.toNat % 128))) then flPerm else 0)) ∧ (s.issues d u 0x59 w = false → t = s)) ∧
    (∃ t, exec (.vslidedn d u w) s = .next t ∧ (s.issues d u 0x5A w = true → ∃ fl, twLanes d u w s t (fun i => if x.laneActive w i = true ∧ (i + w.imm.toNat % 128) < x.vl then x.lane w.s1.val (i + w.imm.toNat % 128) else if w.zero then 0 else x.lane w.d.val i) fl ∧ (fl = if (List.range 64).any (fun i => x.laneActive w i && decide (x.vl ≤ (i + w.imm.toNat % 128))) then flPerm else 0)) ∧ (s.issues d u 0x5A w = false → t = s)) ∧
    (∃ t, exec (.vslideup d u w) s = .next t ∧ (s.issues d u 0x5B w = true → ∃ fl, twLanes d u w s t (fun i => if x.laneActive w i = true ∧ (if w.imm.toNat % 128 ≤ i then i - w.imm.toNat % 128 else 2 ^ 32 + i - w.imm.toNat % 128) < x.vl then x.lane w.s1.val (if w.imm.toNat % 128 ≤ i then i - w.imm.toNat % 128 else 2 ^ 32 + i - w.imm.toNat % 128) else if w.zero then 0 else x.lane w.d.val i) fl ∧ (fl = if (List.range 64).any (fun i => x.laneActive w i && decide (x.vl ≤ (if w.imm.toNat % 128 ≤ i then i - w.imm.toNat % 128 else 2 ^ 32 + i - w.imm.toNat % 128))) then flPerm else 0)) ∧ (s.issues d u 0x5B w = false → t = s)))

/-- R164, R167 to R169. The model's choices: when a cluster accepts a descriptor (log 117), the format codes of coded modes (log 227). A command whose condition fails changes nothing (log 5). -/
def Obligations.MatrixDescriptors : Prop :=
  (∀ (s : State) (d : Die) (c : Fin 128) (r : DescRun),
    (s.coreBusy d c = false) → (s.coreOn d c = true) → (s.regB (R.MXE_CTRL d) 0 = true) → ((s.cluster (clusKey d c)).find? (fun r => decide (r.next < r.desc.tiles) || (s.runFault d r).isSome) = some r) → (s.runFault d r = none) → 
    exec (.descriptorAccept d c) s = .next (if r.desc.mode = 4 ∧ s.unplanned d r.desc = true then (((s.dropRun (clusKey d c) r.slot).endTask d r.slot true)).findAbort 7 r.desc.chan 0xFFFFFFFF 0xFF else s.giveTile d c r)) ∧
  (∀ (s : State) (d : Die) (c : Fin 128) (r : DescRun),
    (s.runOf (clusKey d c) r.slot = some r) → 
    ∃ t, s.giveTile d c r = t ∧ (t.core (d * 128 + c)).slot = some r.slot ∧ (t.core (d * 128 + c)).tiles = (if (s.core (d * 128 + c)).slot = some r.slot then (s.core (d * 128 + c)).tiles else []) ++ [r.next] ∧ (t.core (d * 128 + c)).slots = r.desc.slots ∧ t.runOf (clusKey d c) r.slot = some { r with next := r.next + 1 } ∧ t.mem = s.mem) ∧
  (∀ (s : State) (d : Die) (c : Fin 128) (r : DescRun),
    (s.coreBusy d c = true) → ((s.core (d * 128 + c)).slot.bind (s.runOf (clusKey d c)) = some r) → 
    exec (.descriptorAccept d c) s = .next (if r.next < r.desc.tiles ∧ (s.core (d * 128 + c)).tiles.length < (s.core (d * 128 + c)).slots then s.giveTile d c r else s)) ∧
  (∀ (s : State) (d : Die) (c : Fin 128),
    (s.coreBusy d c = false) → (s.coreOn d c = false ∨ s.regB (R.MXE_CTRL d) 0 = false) → 
    exec (.descriptorAccept d c) s = .next s) ∧
  (∀ (s : State) (d : Die) (c : Fin 128) (r : DescRun) (cause : Nat),
    (s.coreBusy d c = false) → (s.coreOn d c = true) → (s.regB (R.MXE_CTRL d) 0 = true) → ((s.cluster (clusKey d c)).find? (fun r => decide (r.next < r.desc.tiles) || (s.runFault d r).isSome) = some r) → (s.runFault d r = some cause) → 
    ∃ t, exec (.descriptorAccept d c) s = .next t ∧ t.reg (R.MXE_FAULT d) = packFields [(25, c.val), (16, r.desc.mode), (8, r.desc.shape), (0, cause)] ∧ t.regB (R.MXE_EVENTS d) 0 = true ∧ t.runOf (clusKey d c) r.slot = none ∧ t.mem = s.mem) ∧
  (∀ (s : State) (d : Nat) (x : Desc),
    (s.descFault d x = none ↔ x.mode ≤ 4 ∧ shapeOk x.mode x.shape = true ∧ x.formatsOk = true ∧ (x.ta = shapeTa x.shape ∧ x.tb = shapeTb x.shape) ∧ (x.coded = true → (s.descMat d x).isSome = true) ∧ s.addrsOk d x = true ∧ x.dimsOk = true ∧ x.reserved = false ∧ (x.mode = 4 → x.chan / 4 = d)) ∧
    (s.descFault d x = some 1 ↔ ¬ (x.mode ≤ 4)) ∧
    (s.descFault d x = some 2 ↔ x.mode ≤ 4 ∧ ¬ (shapeOk x.mode x.shape = true)) ∧
    (s.descFault d x = some 3 ↔ x.mode ≤ 4 ∧ shapeOk x.mode x.shape = true ∧ ¬ (x.formatsOk = true)) ∧
    (s.descFault d x = some 4 ↔ x.mode ≤ 4 ∧ shapeOk x.mode x.shape = true ∧ x.formatsOk = true ∧ ¬ ((x.ta = shapeTa x.shape ∧ x.tb = shapeTb x.shape))) ∧
    (s.descFault d x = some 5 ↔ x.mode ≤ 4 ∧ shapeOk x.mode x.shape = true ∧ x.formatsOk = true ∧ (x.ta = shapeTa x.shape ∧ x.tb = shapeTb x.shape) ∧ ¬ ((x.coded = true → (s.descMat d x).isSome = true))) ∧
    (s.descFault d x = some 6 ↔ x.mode ≤ 4 ∧ shapeOk x.mode x.shape = true ∧ x.formatsOk = true ∧ (x.ta = shapeTa x.shape ∧ x.tb = shapeTb x.shape) ∧ (x.coded = true → (s.descMat d x).isSome = true) ∧ ¬ (s.addrsOk d x = true)) ∧
    (s.descFault d x = some 7 ↔ x.mode ≤ 4 ∧ shapeOk x.mode x.shape = true ∧ x.formatsOk = true ∧ (x.ta = shapeTa x.shape ∧ x.tb = shapeTb x.shape) ∧ (x.coded = true → (s.descMat d x).isSome = true) ∧ s.addrsOk d x = true ∧ ¬ (x.dimsOk = true)) ∧
    (s.descFault d x = some 8 ↔ x.mode ≤ 4 ∧ shapeOk x.mode x.shape = true ∧ x.formatsOk = true ∧ (x.ta = shapeTa x.shape ∧ x.tb = shapeTb x.shape) ∧ (x.coded = true → (s.descMat d x).isSome = true) ∧ s.addrsOk d x = true ∧ x.dimsOk = true ∧ ¬ (x.reserved = false)) ∧
    (s.descFault d x = some 9 ↔ x.mode ≤ 4 ∧ shapeOk x.mode x.shape = true ∧ x.formatsOk = true ∧ (x.ta = shapeTa x.shape ∧ x.tb = shapeTb x.shape) ∧ (x.coded = true → (s.descMat d x).isSome = true) ∧ s.addrsOk d x = true ∧ x.dimsOk = true ∧ x.reserved = false ∧ ¬ ((x.mode = 4 → x.chan / 4 = d))) ∧ (∀ n, s.descFault d x = some n → 1 ≤ n ∧ n ≤ 9))

/-- R165 to R167, R170, R245. The model's choices: a tile reads its operands when its output is written (log 31), codes outside the matrix (log 229), which writer an overlap keeps (log 232). A command whose condition fails changes nothing (log 5). -/
def Obligations.MatrixOutputAndCancel : Prop :=
  (∀ (s : State) (d : Die) (c : Fin 128) (sl t : Nat) (rest : List Nat) (r : DescRun),
    ((s.core (d * 128 + c)).slot = some sl) → ((s.core (d * 128 + c)).tiles = t :: rest) → (s.runOf (clusKey d c) sl = some r) → (r.desc.mode < 3) → 
    ∃ s1 : State, s1 = s.readTile d sl r.desc t ∧ exec (.tileOutput d c) s = .next (((((s1.tileOut d (s1.task (d * 4096 + sl)) r.desc t).keepRivals s1 d sl r.desc).incPair (R.MXE_KSTEP_CNT d) r.desc.ksteps).finishTile d (clusKey d c) sl).dropTile d c t)) ∧
  (∀ (s : State) (d : Die) (c : Fin 128) (sl t : Nat) (rest : List Nat) (r : DescRun),
    ((s.core (d * 128 + c)).slot = some sl) → ((s.core (d * 128 + c)).tiles = t :: rest) → (s.runOf (clusKey d c) sl = some r) → (r.desc.mode ≠ 4) → (t ∉ rest) → 
    ∃ u, exec (.tileOutput d c) s = .next u ∧ (u.core (d * 128 + c)).tiles = rest ∧ u.pair (R.MXE_KSTEP_CNT d) = (s.pair (R.MXE_KSTEP_CNT d) + r.desc.ksteps) % 2 ^ 64 ∧ (r.done + 1 < r.desc.tiles → u.runOf (clusKey d c) sl = some { r with done := r.done + 1 }) ∧ (r.desc.tiles ≤ r.done + 1 → u.runOf (clusKey d c) sl = none)) ∧
  (∀ (s : State) (d : Die) (c : Fin 128) (sl : Nat) (r : DescRun),
    ((s.core (d * 128 + c)).slot = some sl) → (s.runOf (clusKey d c) sl = some r) → (r.desc.mode = 4) → 
    exec (.tileOutput d c) s = .next s) ∧
  (∀ (s : State) (d : Die) (c : Fin 128),
    ((s.core (d * 128 + c)).slot = none ∨ (s.core (d * 128 + c)).tiles = []) → 
    exec (.tileOutput d c) s = .next s) ∧
  (∀ (s : State) (d : Nat) (task : Option TaskEnt) (x : Desc) (t : Nat),
    (x.fo = 0) → (x.tout = false) → (x.dual = false) → (x.out + x.m * x.n * 4 ≤ hbmSize) → (t < x.tiles) → (0 < x.m ∧ 0 < x.n) → 
    (∀ r < x.tileRows t, ∀ c < x.tileCols t, (s.tileOut d task x t).hbmNum (x.out + ((x.tileRow t + r) * x.n + (x.tileCol t + c)) * 4) 4 = (f32Mul (s.product (s.viewOfTask task) d x (x.tileRow t + r) (x.tileCol t + c)).1 x.mult).toNat) ∧
    (∀ a, a < x.out ∨ x.out + x.m * x.n * 4 ≤ a → (s.tileOut d task x t).mem.byte a = s.mem.byte a)) ∧
  (∀ (a : Word) (n : Nat) (t : XNum),
    (t.isZero = true → addChunk (a, n) t = (a, n)) ∧ (t.isZero = false → (addChunk (a, n) t).1 = toF32 (XNum.add (f32 a) t))) ∧
  (∀ (s : State) (d : Die) (c : Fin 128) (n : Nat),
    ((s.core (d * 128 + c)).slot.isSome = true) → ((s.core (d * 128 + c)).slots ≤ (s.core (d * 128 + c)).tiles.length) → 
    ∃ t, exec (.accStall d c n) s = .next t ∧ t.pair (R.MXE_STALL_CNT d) = (s.pair (R.MXE_STALL_CNT d) + n) % 2 ^ 64 ∧ (1024 < n → t.regB (R.MXE_EVENTS d) 3 = true) ∧ t.mem = s.mem ∧ t.mxe = s.mxe) ∧
  (∀ (s : State) (d : Die) (c : Fin 128) (n : Nat),
    ((s.core (d * 128 + c)).slot = none) → 
    exec (.accStall d c n) s = .next s) ∧
  (∀ (s : State) (d : Die) (slot : Fin 4096) (t : TaskEnt),
    (s.task (d * 4096 + slot) = some t) → (t.kind = 1) → (t.isStep = true) → (t.discard = true) → (t.prog = .running) → 
    ∃ u, exec (.matrixCancel d slot) s = .next u ∧ u.task (d * 4096 + slot) = some { t with prog := .done false } ∧ (∀ i < 8, u.runOf (d * 8 + i) slot = none) ∧ (∀ c < 128, (u.core (d * 128 + c)).slot ≠ some slot.val) ∧ u.mem = s.mem ∧ u.regs = s.regs) ∧
  (∀ (s : State) (d : Die) (slot : Fin 4096),
    (s.task (d * 4096 + slot) = none) → 
    exec (.matrixCancel d slot) s = .next s)

/-- R177 to R179, R218, R225. The model's choices: the command names the slices that have become ready (log 247), and when a slot is free (log 248). A command whose condition fails changes nothing (log 5). -/
def Obligations.GradientSlices : Prop :=
  (∀ (s w : State) (d : Die) (q : ConvTurn) (c t i : Nat) (r : DescRun) (e : StateEnt) (b : BucketEnt),
    (w = s.slicesReady d q.cl q.ready) → (w.conv (d * 8 + q.cl) = none) → (w.sliceCore d q.cl = some (c, r, t)) → (w.upd.entryOf d r.desc.grad (r.desc.out % 2 ^ 32) = some (i, e)) → (w.red.entryOf r.desc.grad e.first = some b) → (w.released d r.slot = false) → 
    ∃ u, exec (.sliceConvert d q) s = .next u ∧ (∃ v, u.conv (d * 8 + q.cl) = some v ∧ v.slot = r.slot ∧ v.core = c ∧ v.tile = t ∧ v.chan = r.desc.chan ∧ v.grad = r.desc.grad ∧ v.recs = (w.convSlice (w.viewOfTask (w.task (d * 4096 + r.slot))) d r.desc e t).map (·.1)) ∧
    u.pair (R.MXE_CLAMP_CNT d) = (w.pair (R.MXE_CLAMP_CNT d) + ((w.convSlice (w.viewOfTask (w.task (d * 4096 + r.slot))) d r.desc e t).map (fun p => p.2.1)).sum) % 2 ^ 64 ∧ u.pair (R.MXE_OVF_CNT d) = (w.pair (R.MXE_OVF_CNT d) + w.sliceOvf (w.viewOfTask (w.task (d * 4096 + r.slot))) d r.desc t) % 2 ^ 64 ∧ (u.core (d * 128 + c)) = w.core (d * 128 + c) ∧ u.mem.hbm = s.mem.hbm) ∧
  (∀ (s w : State) (d : Die) (q : ConvTurn) (v : ConvSlice),
    (w = s.slicesReady d q.cl q.ready) → (w.conv (d * 8 + q.cl) = some v) → 
    exec (.sliceConvert d q) s = .next w) ∧
  (∀ (s w : State) (d : Die) (q : ConvTurn),
    (w = s.slicesReady d q.cl q.ready) → (w.sliceCore d q.cl = none) → 
    exec (.sliceConvert d q) s = .next w) ∧
  (∀ (s : State) (d cl : Nat) (l : List (List Nat)),
    ∃ w, s.slicesReady d cl l = w ∧ s.mxe.ready <+: w.mxe.ready ∧ w = { s with mxe := { s.mxe with ready := w.mxe.ready } }) ∧
  (∀ (s : State) (d cl a b : Nat),
    (a < b) → (b < 16) → (d < 2) → (cl < 8) → ((s.coreSlice d (16 * cl + a)).isSome = true) → ((s.coreSlice d (16 * cl + b)).isSome = true) → (s.mxe.ready.count (d * 128 + (16 * cl + a)) < (s.core (d * 128 + (16 * cl + a))).tiles.length) → (s.mxe.ready.count (d * 128 + (16 * cl + b)) < (s.core (d * 128 + (16 * cl + b))).tiles.length) → 
    (s.slicesReady d cl [[a, b]]).mxe.ready = s.mxe.ready ++ [d * 128 + (16 * cl + a), d * 128 + (16 * cl + b)] ∧ (s.slicesReady d cl [[b, a]]).mxe.ready = s.mxe.ready ++ [d * 128 + (16 * cl + a), d * 128 + (16 * cl + b)] ∧
    (s.slicesReady d cl [[b], [a]]).mxe.ready = s.mxe.ready ++ [d * 128 + (16 * cl + b), d * 128 + (16 * cl + a)]) ∧
  (∀ (s : State) (d cl c : Nat) (rest : List Nat),
    (s.mxe.ready = (d * 128 + (16 * cl + c)) :: rest) → (c < 16) → (cl < 8) → ((s.coreSlice d (16 * cl + c)).isSome = true) → 
    s.sliceCore d cl = s.coreSlice d (16 * cl + c)) ∧
  (∀ (s : State) (d : Die) (cl : Fin 8) (n : Nat),
    (s.conv (d * 8 + cl) = none) → 
    exec (.sliceAccept d cl n) s = .next s) ∧
  (∀ (s : State) (d : Die) (cl : Fin 8) (n i : Nat) (v : ConvSlice) (e : StateEnt) (b : BucketEnt),
    (s.conv (d * 8 + cl) = some v) → (s.upd.entryOf d v.grad v.row = some (i, e)) → (s.red.entryOf v.grad e.first = some b) → (s.released d v.slot = false) → (s.chanOn v.chan = true) → (s.sliceHold v.chan (b.first + s.sliceNo b v.row v.col / 4) = (false, false)) → 
    ∃ u, exec (.sliceAccept d cl n) s = .next u ∧ u.conv (d * 8 + cl) = none ∧ ((u.chan v.chan).bucket (b.first + s.sliceNo b v.row v.col / 4)).slices = ((s.chan v.chan).bucket (b.first + s.sliceNo b v.row v.col / 4)).slices ++ [(s.sliceNo b v.row v.col, v.recs)] ∧ (u.core (d * 128 + v.core)).tiles = (s.core (d * 128 + v.core)).tiles.filter (fun t => decide (t ≠ v.tile)) ∧ u.mem = s.mem ∧ u.out = s.out) ∧
  (∀ (s : State) (d : Die) (cl : Fin 8) (n i : Nat) (v : ConvSlice) (e : StateEnt) (b : BucketEnt),
    (s.conv (d * 8 + cl) = some v) → (s.upd.entryOf d v.grad v.row = some (i, e)) → (s.red.entryOf v.grad e.first = some b) → (s.released d v.slot = false) → (s.chanOn v.chan = false ∨ (s.sliceHold v.chan (b.first + s.sliceNo b v.row v.col / 4)).1 = true ∨ (s.sliceHold v.chan (b.first + s.sliceNo b v.row v.col / 4)).2 = true) → 
    exec (.sliceAccept d cl n) s = .next (((s.incReg (R.RED_CHk_STALL_CNT v.chan) n).setConv (d * 8 + cl) (some { v with held := true })).noteHold (d * 8 + cl) v.chan (s.sliceHold v.chan (b.first + s.sliceNo b v.row v.col / 4)))) ∧
  (∀ (s : State) (d : Die) (cl : Fin 8) (n i : Nat) (v : ConvSlice) (e : StateEnt) (b : BucketEnt),
    (s.conv (d * 8 + cl) = some v) → (s.upd.entryOf d v.grad v.row = some (i, e)) → (s.red.entryOf v.grad e.first = some b) → (s.released d v.slot = true) → 
    ∃ x, exec (.sliceAccept d cl n) s = .next (((s.incReg (R.RED_CHk_STALL_CNT v.chan) x).setConv (d * 8 + cl) none).dropTile d v.core v.tile) ∧ (x = n ∨ x = 0)) ∧
  (∀ (s w : State) (d : Die) (q : ConvTurn) (c t : Nat) (r : DescRun),
    (w = s.slicesReady d q.cl q.ready) → (w.conv (d * 8 + q.cl) = none) → (w.sliceCore d q.cl = some (c, r, t)) → (w.released d r.slot = true) → 
    exec (.sliceConvert d q) s = .next w)

/-- R183 to R186, R188, R195, R391, R423. The model's choices: what a skipped or unused element keeps (log 99), the limit of non-finite elements by die and block (log 100, 206). A command whose condition fails changes nothing (log 5). -/
def Obligations.UpdateBlocks : Prop :=
  (∀ (s : State) (d : Die) (c : Nat) (b : BucketEnt) (x : BucketSt),
    (s.accepting d = true) → (s.offering d = some (c, b, x)) → (x.taken + 1 ≠ s.bucketLen b x.seq) → 
    ∃ t, exec (.blockAccept d) s = .next t ∧ (t.updD d).inbuf.length ≤ (s.updD d).inbuf.length + 1 ∧ (s.updD d).inbuf <+: (t.updD d).inbuf ∧ ((t.chan c).bucket x.seq).taken = x.taken + 1 ∧ t.mem = s.mem ∧ t.regs = s.regs) ∧
  (∀ (s : State) (d : Die) (c : Nat) (b : BucketEnt) (x : BucketSt),
    (s.accepting d = true) → (s.offering d = some (c, b, x)) → (x.taken + 1 = s.bucketLen b x.seq) → 
    ∃ t, exec (.blockAccept d) s = .next t ∧ (t.chan c).deliverPt = (s.chan c).deliverPt + 1 ∧ t.pair (R.RED_CHk_BUCKETS c) = (s.pair (R.RED_CHk_BUCKETS c) + 1) % 2 ^ 64 ∧ (s.updD d).inbuf <+: (t.updD d).inbuf ∧ t.mem = s.mem) ∧
  (∀ (s : State) (d : Die),
    (s.accepting d = false ∨ s.offering d = none) → 
    exec (.blockAccept d) s = .next s) ∧
  (∀ (s : State) (d : Die) (x : BlkIn) (rest : List BlkIn) (e : StateEnt),
    ((s.oldReader || (s.updD d).proj.isSome || !(s.updD d).projWait.isEmpty) = false) → ((s.updD d).inbuf = x :: rest) → (s.upd.table[x.ent]? = some e) → 
    ∃ u, u = s.setUpd d { s.updD d with inbuf := rest } ∧ exec (.blockUpdate d) s = .next (if (s.updD d).stopped then u.countBlock d e x else u.updateBlock d (u.upd.baseOf x.ent) e (u.upd.consts.getD x.ent {}) x)) ∧
  (∀ (s : State) (d : Die),
    ((s.oldReader || (s.updD d).proj.isSome || !(s.updD d).projWait.isEmpty) = true ∨ (s.updD d).inbuf = []) → 
    exec (.blockUpdate d) s = .next s) ∧
  (∀ (s : State) (e : StateEnt) (k : StepConst) (g w m v r : Word),
    (e.decay = false) → 
    (e.alg = 2 → (updElem s e k g w m v r).w = f32Add w (f32Add (f32Neg (f32Mul k.alpha g)) r) ∧ (updElem s e k g w m v r).m = 0) ∧
    (e.alg = 1 → (updElem s e k g w m v r).m = f32Fma (s.pol R.UPD_BETA1) (f32Sub m g) g ∧ (updElem s e k g w m v r).w = f32Add w (f32Add (f32Neg (f32Mul k.alpha (f32Mul (updElem s e k g w m v r).m k.a1))) r)) ∧
    (e.alg = 0 → (updElem s e k g w m v r).v = f32Fma (s.pol R.UPD_BETA2) (f32Sub v (f32Mul g g)) (f32Mul g g) ∧ (updElem s e k g w m v r).w = f32Add w (f32Add (f32Neg (f32Mul k.alpha (f32Div (f32Mul (updElem s e k g w m v r).m k.a1) (f32Fma (f32Sqrt (updElem s e k g w m v r).v) k.a2 (s.pol R.UPD_KAPPA))))) r))) ∧
  (∀ (s : State) (d base : Nat) (e : StateEnt) (x : BlkIn) (l : List (Nat × ElemRes × Word)),
    (d < 2) → (s.nfPolicy ≠ 1) → (s.nfPolicy ≠ 2) → 
    ∃ t, s.badBlock d base e x l = t ∧ (t.updD d).stopped = true ∧ (t.updD d).skip = true ∧ t.mem = s.mem ∧ t.regB R.UPD_EVENTS 3 = true) ∧
  (∀ (s : State) (d : Die),
    (s.stp.isOpen = true) → ([4 * d.val, 4 * d.val + 1, 4 * d.val + 2, 4 * d.val + 3].all (fun c => decide (s.chanPlan c ≤ (s.chan c).deliverPt)) = true) → ((s.updD d).inbuf = []) → 
    exec (.updateComplete d) s = .next (s.setUpd d { s.updD d with complete := true })) ∧
  (∀ (s : State) (d : Die),
    (s.stp.isOpen = false ∨ (s.updD d).inbuf ≠ []) → 
    exec (.updateComplete d) s = .next s)

/-- R190, R191, R198, R199, R201, R202. The model's choices: a pass reads and writes at PROJECTION_DONE (log 106), what the step of a pass sets (log 105), which pass consumes a mark (log 107), which writes are held (log 86, 274). A command whose condition fails changes nothing (log 5). -/
def Obligations.ProjectionAndSchedule : Prop :=
  (∀ (s : State) (rq : Requester),
    (s.quiet = false) → 
    exec (.project rq) s = .next (s.refuseWrite rq R.UPD_CMD 1 0) ∧ exec (.projectNohyst rq) s = .next (s.refuseWrite rq R.UPD_CMD 2 0)) ∧
  (∀ (s : State) (rq : Requester),
    (s.quiet = true) → (s.regB R.UPD_CTRL 0 = true) → ((s.updD 0).proj = none) → ((s.updD 1).proj = none) → ((s.updD 0).projWait = []) → ((s.updD 1).projWait = []) → 
    (∃ t, exec (.project rq) s = .next t ∧ (t.updD 0).proj = some (s.passRun { step := s.pair R.STEP_COUNT, hyst := true }) ∧ (t.updD 1).proj = some (s.passRun { step := s.pair R.STEP_COUNT, hyst := true }) ∧ t.mem = s.mem ∧ t.regs = s.regs) ∧
    (∃ t, exec (.projectNohyst rq) s = .next t ∧ (t.updD 0).proj = some (s.passRun { step := s.pair R.STEP_COUNT, hyst := false }) ∧ (t.updD 1).proj = some (s.passRun { step := s.pair R.STEP_COUNT, hyst := false }) ∧ t.mem = s.mem ∧ t.regs = s.regs)) ∧
  (∀ (s : State) (d : Die) (r : ProjRun) (rest : List ProjRun),
    (s.regB R.UPD_CTRL 0 = true) → ((s.updD d).proj = none) → ((s.updD d).projWait = r :: rest) → 
    exec (.projectionStart d) s = .next (s.setUpd d { s.updD d with proj := some (s.passRun r), projWait := rest })) ∧
  (∀ (s : State) (d : Die),
    (s.regB R.UPD_CTRL 0 = false ∨ (s.updD d).proj.isSome = true ∨ (s.updD d).projWait = []) → 
    exec (.projectionStart d) s = .next s) ∧
  (∀ (s : State) (r : ProjRun),
    (r.thr = none) → 
    (s.passRun r).thr = some (if r.hyst then f32Add 0x3F000000 (s.pol R.UPD_PROJ_HYST) else 0x3F000000) ∧ (s.passRun r).rescale = s.polB R.UPD_CTRL 2 ∧ (s.passRun r).step = r.step ∧ (s.passRun r).start = s.time ∧ (∀ m, m ∈ (s.passRun r).marks ↔ ∃ q ∈ s.arr.pos, q.1 = m ∧ q.2.mark = true)) ∧
  (∀ (s : State) (d : Die) (run : ProjRun),
    ((s.updD d).proj = some run) → 
    ∃ t, exec (.projectionDone d) s = .next t ∧ (t.updD d).proj = none ∧ (t.updD d).heldWrites = [] ∧ t.pair R.UPD_PROJ_STEP = run.step % 2 ^ 64 ∧ t.regB R.UPD_EVENTS 6 = true) ∧
  (∀ (s : State) (d : Die),
    ((s.updD d).proj = none) → 
    exec (.projectionDone d) s = .next s) ∧
  (∀ (thr : Option Word) (w sc : Word) (old : Int) (n : Bool) (m : Nat) (e : Int),
    (f32Finite w = true) → (f32 (f32Div w sc) = .fin n m e) → (-15 ≤ old ∧ old ≤ 15) → 
    (projCode thr w sc old).2 = false ∧ -15 ≤ (projCode thr w sc old).1 ∧ (projCode thr w sc old).1 ≤ 15 ∧
    (thr = none → (projCode thr w sc old).1 = clampInt (-15) 15 (XNum.roundInt .rne (.fin n m e))) ∧
    (∀ t, thr = some t → (projCode thr w sc old).1 = if XNum.le (XNum.sub (.fin n m e) (XNum.ofInt old)).abs (f32 t) then old else clampInt (-15) 15 (XNum.roundInt .rne (.fin n m e)))) ∧
  (∀ (thr : Option Word) (w sc : Word) (old : Int),
    (f32Finite w = false) → 
    projCode thr w sc old = (old, true)) ∧
  (∀ (s : State) (rq : Requester) (v : Word),
    (s.schedIdx < 4096) → 
    (∃ t, exec (.schedDataAccess rq (some v)) s = .next t ∧ SMap.get (fun _ => 0) t.upd.sched s.schedIdx = v ∧ t.schedIdx = (s.schedIdx + 1) % 4096 ∧ t.out = s.out ∧ t.mem = s.mem) ∧
    (∃ t, exec (.schedDataAccess rq none) s = .next t ∧ t.out = s.out ++ [.reply rq R.UPD_SCHED_DATA (SMap.get (fun _ => 0) s.upd.sched s.schedIdx)] ∧ t.schedIdx = (s.schedIdx + 1) % 4096 ∧ t.upd = s.upd)) ∧
  (∀ (s : State) (rq : Requester) (v : Word),
    (s.fnHost 8 = true) → 
    ∃ t, exec (.stepSizeWrite rq v) s = .next t ∧ t.reg R.UPD_STEP_SIZE = v ∧ t.upd.fresh = true ∧ t.mem = s.mem) ∧
  (∀ (s : State) (rq : Requester) (v : Word),
    (s.fnHost 8 = false) → 
    exec (.stepSizeWrite rq v) s = .next ((s.refuseBit rq R.UPD_STEP_SIZE v 0 2).event R.UPD_EVENTS 2))

/-- R213, R216, R228. The model's choices: in the step boundary a vote is one on the attempt that follows (log 249). A command whose condition fails changes nothing (log 5). -/
def Obligations.RingMessages : Prop :=
  (∀ (s u : State) (c : Fin 8) (m : RingMsg),
    (s.takeRx 2 (fun f => f.startsWith (msgBytes m)) = u) → (u.chanOn c = false ∨ u.groupN ≤ 1) → 
    exec (.ringMessage c m) s = .next u) ∧
  (∀ (s u : State) (c : Fin 8) (m : RingMsg),
    (s.takeRx 2 (fun f => f.startsWith (msgBytes m)) = u) → (u.chanOn c = true) → (1 < u.groupN) → (m.epoch < u.epoch) → 
    exec (.ringMessage c m) s = .next (u.incReg R.RED_STALE_CNT 1)) ∧
  (∀ (s u : State) (c : Fin 8) (m : RingMsg),
    (s.takeRx 2 (fun f => f.startsWith (msgBytes m)) = u) → (u.chanOn c = true) → (1 < u.groupN) → (u.epoch < m.epoch ∨ (m.epoch = u.epoch ∧ (m.step ≠ u.stepNum ∨ m.attempt ≠ u.attNum))) → 
    exec (.ringMessage c m) s = .next (u.findAbort 3 c m.seq m.sender)) ∧
  (∀ (s u : State) (c : Fin 8) (m : RingMsg),
    (s.takeRx 2 (fun f => f.startsWith (msgBytes m)) = u) → (u.chanOn c = true) → (1 < u.groupN) → (m.epoch = u.epoch) → (m.step = u.stepNum) → (m.attempt = u.attNum) → (u.msgOk c m = false) → 
    exec (.ringMessage c m) s = .next (u.findAbort 4 c m.seq m.sender)) ∧
  (∀ (s u : State) (c : Fin 8) (m : RingMsg),
    (s.takeRx 2 (fun f => f.startsWith (msgBytes m)) = u) → (u.chanOn c = true) → (1 < u.groupN) → (m.epoch = u.epoch) → (m.step = u.stepNum) → (m.attempt = u.attNum) → (u.msgOk c m = true) → (m.phase = 1) → 
    ∃ t, exec (.ringMessage c m) s = .next t ∧ ((t.chan c).bucket m.seq).waiting = ((u.chan c).bucket m.seq).waiting ++ [m] ∧ ((t.chan c).bucket m.seq).slices = ((u.chan c).bucket m.seq).slices ∧ ((t.chan c).bucket m.seq).opened.isSome = true ∧ t.mem = u.mem ∧ t.regs = u.regs) ∧
  (∀ (s u : State) (c : Fin 8) (m : RingMsg),
    (s.takeRx 2 (fun f => f.startsWith (msgBytes m)) = u) → (u.chanOn c = true) → (1 < u.groupN) → (m.epoch = u.epoch) → (m.step = u.stepNum) → (m.attempt = u.attNum) → (u.msgOk c m = true) → (m.phase = 2) → 
    exec (.ringMessage c m) s = .next (if (u.red.pos + 1) % u.groupN ≠ m.chunk then (u.storeChunk c m.seq m.chunk m.recs).sendMsg c { m with sender := u.red.pos } else u.storeChunk c m.seq m.chunk m.recs)) ∧
  (∀ (s : State) (c : Nat) (q k : Nat) (l : List BlockRec),
    ∃ t, s.storeChunk c q k l = t ∧ ((t.chan c).bucket q).chunks = ((s.chan c).bucket q).chunks.filter (fun p => p.1 ≠ k) ++ [(k, l)] ∧ ((t.chan c).bucket q).slices = ((s.chan c).bucket q).slices) ∧
  (∀ (s : State) (c : Fin 8),
    ((s.chan c).hopReady = none) → 
    exec (.reduceHopAdd c) s = .next s) ∧
  (∀ (s : State) (c : Fin 8) (x : BucketSt) (m : RingMsg) (b : BucketEnt) (own : List BlockRec),
    ((s.chan c).hopReady = some (x, m)) → (s.red.bucketEnt c m.seq = some b) → (chunkRecs s.groupN m.chunk (s.ownRecs b x) = own) → (own.length ≠ m.recs.length ∨ (List.zip m.recs own).any (fun p => decide (p.1.scale ≠ p.2.scale)) = true) → 
    exec (.reduceHopAdd c) s = .next ((s.setChan c ((s.chan c).setBucket { x with waiting := x.waiting.drop 1 })).findAbort 4 c m.seq m.sender)) ∧
  (∀ (s : State) (c : Fin 8) (x : BucketSt) (m : RingMsg) (b : BucketEnt) (own recs : List BlockRec),
    ((s.chan c).hopReady = some (x, m)) → (s.red.bucketEnt c m.seq = some b) → (chunkRecs s.groupN m.chunk (s.ownRecs b x) = own) → (own.length = m.recs.length) → ((List.zip m.recs own).any (fun p => decide (p.1.scale ≠ p.2.scale)) = false) → ((List.zip m.recs own).map (fun p => addRec (s.wire32 b.tensor) p.1 p.2) = recs) → 
    ∃ u q, u = s.setChan c ((s.chan c).setBucket { x with waiting := x.waiting.drop 1 }) ∧ q = { m with recs := recs, contrib := m.contrib + 1, sender := s.red.pos, crc := recsCrc (s.wire32 b.tensor) recs } ∧
    exec (.reduceHopAdd c) s = .next (if m.chunk = s.red.pos then (u.storeChunk c m.seq m.chunk recs).sendMsg c { q with phase := 2 } else u.sendMsg c q)) ∧
  (∀ (w : Bool) (x y : BlockRec) (i : Nat),
    (i < 1024) → 
    BlockRec.val (addRec w x y) i = sext (wireBits w) (toTwos (wireBits w) (BlockRec.val x i + BlockRec.val y i)) ∧ ((addRec w x y).marked = true ↔ x.marked = true ∨ y.marked = true ∨ 4 < (mergeLists x.list y.list).length))

/-- R205, R218, R219, R221, R222. The model's choices: turns of the channels that share a link (log 257). A command whose condition fails changes nothing (log 5), and a timer command stands for its elapsed time (log 4). -/
def Obligations.BucketsAndTimers : Prop :=
  (∀ (s : State) (c : Fin 8) (b : BucketEnt),
    (s.red.bucketEnt c (s.chan c).sendPt = some b) → (((s.chan c).bucket (s.chan c).sendPt).ownDone = true) → (s.chanOn c = true) → (s.groupN ≤ 1) → 
    ∃ t, exec (.bucketSend c) s = .next t ∧ (t.chan c).sendPt = (s.chan c).sendPt + 1 ∧ ((t.chan c).bucket (s.chan c).sendPt).sent = true ∧ ((t.chan c).bucket (s.chan c).sendPt).slices = ((s.chan c).bucket (s.chan c).sendPt).slices ∧ t.mem = s.mem ∧ t.out = s.out) ∧
  (∀ (s : State) (c : Fin 8) (b : BucketEnt),
    (s.red.bucketEnt c (s.chan c).sendPt = some b) → (((s.chan c).bucket (s.chan c).sendPt).ownDone = true) → (s.chanOn c = true) → (1 < s.groupN) → 
    ∃ u, u = s.setChan c (({ s.chan c with sendPt := (s.chan c).sendPt + 1 }).setBucket { (s.chan c).bucket (s.chan c).sendPt with sent := true, opened := some (((s.chan c).bucket (s.chan c).sendPt).opened.getD s.time) }) ∧
    exec (.bucketSend c) s = .next (u.sendMsg c (s.ownMsg c (s.chan c).sendPt ((s.red.pos + s.groupN - 1) % s.groupN) b (chunkRecs s.groupN ((s.red.pos + s.groupN - 1) % s.groupN) (s.ownRecs b ((s.chan c).bucket (s.chan c).sendPt)))))) ∧
  (∀ (s : State) (c : Fin 8),
    (s.red.bucketEnt c (s.chan c).sendPt = none ∨ ((s.chan c).bucket (s.chan c).sendPt).ownDone = false ∨ s.chanOn c = false) → 
    exec (.bucketSend c) s = .next s) ∧
  (∀ (s : State) (c : Fin 8) (b : BucketEnt),
    (s.red.bucketEnt c (s.chan c).deliverPt = some b) → (s.reduced b ((s.chan c).bucket (s.chan c).deliverPt) = true) → (((s.chan c).bucket (s.chan c).deliverPt).delivering = false) → ((s.chan c).deliverPt < (s.chan c).sendPt) → 
    ∃ t, exec (.bucketDeliver c) s = .next t ∧ ((t.chan c).bucket (s.chan c).deliverPt).delivering = true ∧ (t.chan c).deliverPt = (s.chan c).deliverPt ∧ t.mem = s.mem ∧ t.out = s.out) ∧
  (∀ (s : State) (c : Fin 8),
    (s.red.bucketEnt c (s.chan c).deliverPt = none ∨ ((s.chan c).bucket (s.chan c).deliverPt).delivering = true ∨ (s.chan c).sendPt ≤ (s.chan c).deliverPt) → 
    exec (.bucketDeliver c) s = .next s) ∧
  (∀ (s : State) (c : Fin 8) (q : Nat),
    (((s.chan c).bucket q).opened.isSome = true) → (((s.chan c).bucket q).ownDone = false) → (1 < s.groupN) → 
    exec (.deadline c q) s = .next (s.findAbort 1 c q 0xFF)) ∧
  (∀ (s : State) (c : Fin 8) (q : Nat),
    (((s.chan c).bucket q).opened = none ∨ ((s.chan c).bucket q).ownDone = true ∨ s.groupN ≤ 1) → 
    exec (.deadline c q) s = .next s) ∧
  (∀ (s : State) (c : Fin 8) (q : Nat) (b : BucketEnt),
    (s.red.bucketEnt c q = some b) → (((s.chan c).bucket q).ownDone = true) → (s.reduced b ((s.chan c).bucket q) = false) → (1 < s.groupN) → 
    exec (.ringTimeout c q) s = .next (s.findAbort 2 c q 0xFF)) ∧
  (∀ (s : State) (c : Fin 8) (q : Nat),
    (s.red.bucketEnt c q = none ∨ ((s.chan c).bucket q).ownDone = false ∨ s.groupN ≤ 1) → 
    exec (.ringTimeout c q) s = .next s) ∧
  (∀ (s : State) (rq : Requester) (v : Word),
    (s.quiet = true) → 
    ∃ t, exec (.form rq v) s = .next t ∧ t.red.formed = true ∧ t.reg R.RED_EPOCH = 0 ∧ (∀ c < 8, (t.chan c).flight = [] ∧ (t.chan c).sendPt = 0 ∧ (t.chan c).deliverPt = 0) ∧ t.red.order = s.red.order ∧ t.mem = s.mem ∧ t.out = s.out) ∧
  (∀ (s : State) (rq : Requester) (v : Word),
    (s.quiet = false) → (s.red.pos = 0 ∨ s.stp.voted = false ∨ s.stp.isOpen = false ∨ s.stp.queried = false) → 
    exec (.form rq v) s = .next (s.refuseWrite rq R.RED_CMD v 0))

/-- R231, R232, R240 to R243, R247. The model's choices: FLUSH and host launches (log 119), launches that a change of function 1 blocks (log 253), the class of a dropped launch (log 45). A command whose condition fails changes nothing (log 5). -/
def Obligations.GraphsAndLaunches : Prop :=
  (∀ (s : State) (rq : Requester) (v : Word),
    (s.tsk.launchQ.length < 16) → 
    ∃ t, exec (.tskLaunch rq v) s = .next t ∧ (∃ l, t.tsk.launchQ = s.tsk.launchQ ++ [l] ∧ l.graph = fld v 7 0) ∧ t.mem = s.mem ∧ t.regs = s.regs) ∧
  (∀ (s : State) (rq : Requester) (v : Word),
    (16 ≤ s.tsk.launchQ.length) → 
    exec (.tskLaunch rq v) s = .next (s.eventLog R.TSK_EVENTS 4 0xA 1 0 (fld v 7 0))) ∧
  (∀ (s : State),
    (s.tsk.streamer.isSome = true ∨ s.tsk.launchQ = [] ∨ s.regB R.TSK_CTRL 2 = false ∨ s.orderPending = true ∨ s.tsk.flushing = true) → 
    exec (.graphStream) s = .next s) ∧
  (∀ (s : State) (l : Launch) (rest : List Launch),
    (s.tsk.streamer = none) → (s.tsk.launchQ = l :: rest) → (s.regB R.TSK_CTRL 2 = true) → (s.orderPending = false) → (s.tsk.flushing = false) → ((s.graphAt l.graph).filter (s.headerOk l.graph) = none) → 
    exec (.graphStream) s = .next (((s.modTsk (fun t => { t with launchQ := rest })).eventLog R.TSK_EVENTS 6 0xA 1 0 l.graph).launchOver l.src false)) ∧
  (∀ (s : State) (l : Launch) (rest : List Launch) (a : Nat),
    (s.tsk.streamer = none) → (s.tsk.launchQ = l :: rest) → (s.regB R.TSK_CTRL 2 = true) → (s.orderPending = false) → (s.tsk.flushing = false) → ((s.graphAt l.graph).filter (s.headerOk l.graph) = some a) → 
    ∃ u x, u = ((s.modTsk (fun t => { t with launchQ := rest })).zeroCounters (leAt (s.hbm a 32) 8 2) (leAt (s.hbm a 32) 0xA 2)).zeroCounters (1024 + leAt (s.hbm a 32) 0xC 2) (leAt (s.hbm a 32) 0xE 2) ∧
    x.count = leAt (s.hbm a 32) 0 4 ∧ x.base = leAt (s.hbm a 32) 0x10 8 ∧ x.isStep = decide (leAt (s.hbm a 32) 5 1 = 1) ∧ x.next = 0 ∧ x.launch.graph = l.graph ∧
    exec (.graphStream) s = .next (u.modTsk (fun t => { t with streamer := some x })).stream) ∧
  (∀ (s : State) (x : StreamerSt) (d sl : Nat) (e : TaskEnt),
    (s.tsk.streamer = some x) → (x.next < x.count) → (taskOf (s.hbm (x.base + 64 * x.next) 64) = (d, e)) → (s.freeSlot d = some sl) → 
    ∃ t, s.streamOne = t ∧ (∃ f, t.task (d * 4096 + sl) = some f ∧ f.kind = e.kind ∧ f.target = e.target ∧ f.waits = e.waits ∧ f.signals = e.signals ∧ f.prog = e.prog ∧ f.graph = x.launch.graph ∧ f.isStep = x.isStep) ∧ (t.tsk.streamer.map (·.next)) = some (x.next + 1) ∧ t.mem = s.mem) ∧
  (∀ (s : State) (x : StreamerSt),
    (s.tsk.streamer = some x) → 
    exec (.streamResume) s = .next (if x.blocked then s.stream else s)) ∧
  (∀ (s : State),
    (s.tsk.streamer = none) → 
    exec (.streamResume) s = .next s) ∧
  (∀ (s : State) (rq : Requester),
    (s.quiet = true ∨ s.phaseNow = .serving) → 
    ∃ t, exec (.flush rq) s = .next t ∧ t.tsk.launchQ = [] ∧ t.tsk.streamer = none ∧ t.mem.hbm = s.mem.hbm) ∧
  (∀ (s : State) (rq : Requester),
    (s.quiet = false) → (s.phaseNow ≠ .serving) → 
    exec (.flush rq) s = .next (s.refuseWrite rq R.TSK_CMD 1 0))

/-- R19, R233 to R239, R244, R246, R249, R250. The model's choices: malformed tasks (log 112), when a HOST task ends (log 113), what an ARRAY dispatch needs (log 120), SETs before adds (log 252), the deadlock report (log 118), duty bits with idle contexts, 2 and 13 (log 84, 85), blocked launches (log 253), bad units of a payload (log 292). A command whose condition fails changes nothing (log 5). -/
def Obligations.TasksAndCounters : Prop :=
  (∀ (s : State) (d : Die) (kind : Fin 16) (sl : Nat) (t : TaskEnt),
    (s.regB R.TSK_CTRL 0 = true) → (s.nextTask d kind = some (sl, t)) → 
    ∃ t2 u n v, t2 = { t with prog := TaskProg.running, remain := if t.kind = 2 then t.target else 0 } ∧ u = (s.setTask (d * 4096 + sl) (some t2)).incPair (R.TSK_DISPATCH_CNT d) 1 ∧ n = (if t.malformed then 0 else t.payLen) ∧ v = u.readNotes t.payAddr n ∧
    exec (.taskDispatch d kind) s = .next (if (u.mem.badIn t.payAddr n).isEmpty then (v.noteToken t2).startTask d sl t2 else v.endTask d sl true)) ∧
  (∀ (s : State) (d slot : Nat) (t : TaskEnt),
    (t.malformed = true) → 
    s.startTask d slot t = s.endTask d slot true) ∧
  (∀ (s : State) (d : Die) (kind : Fin 16) (sl : Nat) (t : TaskEnt),
    (s.regB R.TSK_CTRL 0 = true) → (s.nextTask d kind = some (sl, t)) → (t.kind = 0) → 
    ∃ u, exec (.taskDispatch d kind) s = .next u ∧ (u.task (d * 4096 + sl)).map (·.prog) = some (.done t.malformed) ∧ u.pair (R.TSK_DISPATCH_CNT d) = (s.pair (R.TSK_DISPATCH_CNT d) + 1) % 2 ^ 64 ∧ u.mem.hbm = s.mem.hbm) ∧
  (∀ (s : State) (d : Die) (kind : Fin 16),
    (s.regB R.TSK_CTRL 0 = false ∨ s.nextTask d kind = none) → 
    exec (.taskDispatch d kind) s = .next s) ∧
  (∀ (s : State) (d kind sl : Nat) (t : TaskEnt),
    (s.nextTask d kind = some (sl, t)) → 
    t.kind = kind ∧ s.taskReady t = true ∧ s.canAccept d t = true ∧ (sl, t) ∈ s.window d) ∧
  (∀ (s : State) (d : Die) (slot : Fin 4096) (t : TaskEnt),
    (s.task (d * 4096 + slot) = some t) → (s.taskOver t = some false) → (t.discard = true ∨ t.signals = []) → 
    ∃ u, exec (.taskComplete d slot) s = .next u ∧ u.task (d * 4096 + slot) = none ∧ u.tsk.cnt = s.tsk.cnt ∧ u.mem = s.mem ∧ u.regs = s.regs) ∧
  (∀ (s : State) (d : Die) (slot : Fin 4096) (t : TaskEnt),
    (s.task (d * 4096 + slot) = some t) → (s.taskOver t = some false) → (t.discard = false) → 
    ∃ u v, exec (.taskComplete d slot) s = .next u ∧ v = (t.signals.filter (·.set) ++ t.signals.filter (!·.set)).foldl (State.signalFrom d) s ∧ u.task (d * 4096 + slot) = none ∧ u.tsk.cnt = v.tsk.cnt ∧ u.tsk.remote = v.tsk.remote ∧ u.mem = v.mem) ∧
  (∀ (s : State) (d : Die) (slot : Fin 4096),
    (s.task (d * 4096 + slot) = none ∨ ∃ t, s.task (d * 4096 + slot) = some t ∧ s.taskOver t = none) → 
    exec (.taskComplete d slot) s = .next s) ∧
  (∀ (s : State) (g : Signal) (rest : List Signal),
    (s.tsk.remote = g :: rest) → 
    exec (.remoteSignal) s = .next ((s.modTsk (fun t => { t with remote := rest })).takeSignal g)) ∧
  (∀ (s : State),
    (s.tsk.remote = []) → 
    exec (.remoteSignal) s = .next s) ∧
  (∀ (s : State) (rq : Requester) (v : Word),
    (s.counter s.selCounter + fld v 15 0 < 2 ^ 32) → 
    (∃ t, exec (.cntValueWrite rq v) s = .next t ∧ t.counter s.selCounter = v.toNat ∧ t.mem = s.mem ∧ t.regs = s.regs) ∧ (∃ t, exec (.cntAddWrite rq v) s = .next t ∧ t.counter s.selCounter = s.counter s.selCounter + fld v 15 0 ∧ t.mem = s.mem ∧ t.regs = s.regs)) ∧
  (∀ (s : State) (rq : Requester) (v : Word),
    (2 ^ 32 ≤ s.counter s.selCounter + fld v 15 0) → 
    ∃ t, exec (.cntAddWrite rq v) s = .next t ∧ t.counter s.selCounter = 2 ^ 32 - 1 ∧ t.regB R.TSK_EVENTS 1 = true ∧ t.reg R.TSK_OVF_INFO = BitVec.ofNat 32 s.selCounter) ∧
  (∀ (s : State) (d : Die) (sl : Nat) (t : TaskEnt),
    (s.regF R.TSK_DL_CFG 15 0 ≠ 0) → (s.dieStalled d = true) → (s.oldestWaiting d = some (sl, t)) → 
    ∃ u, exec (.deadlock d) s = .next u ∧ u.regB R.TSK_EVENTS 2 = true ∧ fld (u.reg R.TSK_DL_INFO) 31 31 = d.val ∧ fld (u.reg R.TSK_DL_INFO) 27 16 = sl % 4096 ∧ fld (u.reg R.TSK_DL_INFO) 15 11 = 0 ∧ (∀ g, s.openWait t = some g → fld (u.reg R.TSK_DL_INFO) 10 0 = g.counter % 2048) ∧ u.tsk = s.tsk ∧ u.mem = s.mem) ∧
  (∀ (s : State) (d : Die),
    (s.regF R.TSK_DL_CFG 15 0 = 0 ∨ s.dieStalled d = false) → 
    exec (.deadlock d) s = .next s) ∧
  (∀ (s : State) (rq : Requester) (v : Word),
    ∃ t, exec (.dutySplitWrite rq v) s = .next t ∧ t.reg R.DUTY_SPLIT = v &&& 0x3FFF#32 ∧ t.arr.view = s.arr.view + 1 ∧ t.tsk.dutyView = s.arr.view + 1 ∧ t.mem = s.mem) ∧
  (∀ (s : State),
    exec (.dutyBoundary) s = .next (if s.stp.phase = .idle ∨ (s.halted = true ∧ s.tsk.dutyHeld = true) then s.dutyBound else s).orderBound) ∧
  (∀ (s : State),
    (s.orderPending = true) → (s.tsk.launchQ ≠ []) → 
    s.orderBound = if s.windowsEmpty then s.dutySet 1 else s) ∧
  (∀ (s : State),
    (s.orderPending = false ∨ s.tsk.launchQ = []) → 
    s.orderBound = s) ∧
  (∀ (s : State),
    (s.olderToken s.tsk.dutyView = true) → 
    s.dutyBound = s) ∧
  (∀ (s : State) (h : Nat),
    ((s.ctx h).inTok = false ∨ s.tokenWork h = true) → 
    exec (.tokenBoundary h) s = .next s) ∧
  (∀ (s : State) (h : Nat),
    ((s.ctx h).inTok = true) → (s.tokenWork h = false) → 
    ∃ t, exec (.tokenBoundary h) s = .next t ∧ (t.ctx h).inTok = false ∧ (t.ctx h).sel = none ∧ (t.ctx h).layers = [])

/-- R256, R257, R258, R262, R310. The model's choices: COPY and STREAM rows (log 108, 109), the engine of a stream and who consumes it (log 110, 111). A command whose condition fails changes nothing (log 5). -/
def Obligations.DmaTransfers : Prop :=
  (∀ (s : State) (d : Die) (e : Fin 16) (data : List Byte) (err : Bool) (key value : Nat),
    (s.dmaTask d e = none) → 
    exec (.dmaCopy d e) s = .next s ∧ exec (.dmaStream d e) s = .next s ∧ exec (.dmaSpillOut d e) s = .next s ∧ exec (.dmaSpillIn d e data err) s = .next s ∧ exec (.siltPut d e key value) s = .next s) ∧
  (∀ (s : State) (d : Die) (e : Fin 16) (slot : Nat) (p : DmaPay) (data : List Byte) (err : Bool) (key value c : Nat),
    (s.dmaTask d e = some (slot, p)) → (p.fault = some c) → 
    exec (.dmaCopy d e) s = .next (s.dmaFault d e slot c) ∧ exec (.dmaStream d e) s = .next (s.dmaFault d e slot c) ∧ exec (.dmaSpillOut d e) s = .next (s.dmaFault d e slot c) ∧ exec (.dmaSpillIn d e data err) s = .next (s.dmaFault d e slot c) ∧ exec (.siltPut d e key value) s = .next (s.dmaFault d e slot c)) ∧
  (∀ (s : State) (d : Die) (e : Fin 16) (slot : Nat) (p : DmaPay) (c : Nat) (t : TaskEnt),
    (s.task (d * 4096 + slot) = some t) → (c < 16) → 
    ∃ u, s.dmaFault d e slot c = u ∧ u.reg (R.MEM_DMA_FAULT d) = packFields [(28, e.val), (0, c)] ∧ u.regB R.MEM_EVENTS 1 = true ∧ (u.task (d * 4096 + slot)).map (·.prog) = some (.done true) ∧ u.dmaTask d e = none ∧ u.mem = s.mem ∧ u.out = s.out) ∧
  (∀ (s : State) (d : Die) (e : Fin 16) (slot : Nat) (p : DmaPay),
    (s.dmaTask d e = some (slot, p)) → (p.fault = none) → (p.op = 0) → (p.rowsInHbm p.len = false ∨ inHbm p.dst (p.outLen (p.len * p.rows)) = false) → 
    exec (.dmaCopy d e) s = .next (s.dmaFault d e slot 2)) ∧
  (∀ (s : State) (d : Die) (e : Fin 16) (slot : Nat) (p : DmaPay) (u : State) (bs w : List Byte),
    (s.dmaTask d e = some (slot, p)) → (p.fault = none) → (p.op = 0) → (p.rowsInHbm p.len = true) → (inHbm p.dst (p.outLen (p.len * p.rows)) = true) → (s.readRows d p p.len = (bs, u, false)) → (p.checked bs = (w, false)) → 
    ∃ t, exec (.dmaCopy d e) s = .next t ∧ t = (u.hbmWrite p.dst w).endDma d e slot false ∧ (∀ i < w.length, t.mem.byte (p.dst + i) = w.getD i 0) ∧ (∀ a, a < p.dst ∨ p.dst + w.length ≤ a → t.mem.byte a = s.mem.byte a) ∧ (t.task (d * 4096 + slot)).map (·.prog) = some (.done false) ∧ t.dmaTask d e = none ∧ t.out = s.out ∧ t.arr = s.arr ∧ t.stp = s.stp) ∧
  (∀ (s : State) (d : Die) (e : Fin 16) (slot : Nat) (p : DmaPay) (u : State) (bs w : List Byte),
    (s.dmaTask d e = some (slot, p)) → (p.fault = none) → (p.op = 0) → (p.rowsInHbm p.len = true) → (inHbm p.dst (p.outLen (p.len * p.rows)) = true) → (s.readRows d p p.len = (bs, u, false)) → (p.checked bs = (w, true)) → 
    exec (.dmaCopy d e) s = .next ((u.hbmWrite p.dst w).dmaFault d e slot 4)) ∧
  (∀ (p q : DmaPay) (bs : List Byte),
    (p.append = true) → (p.strip = false) → (q.append = false) → (q.strip = true) → 
    (p.checked bs).2 = false ∧ q.checked (p.checked bs).1 = (bs, false)) ∧
  (∀ (s : State) (d : Die) (e : Fin 16) (slot : Nat) (p : DmaPay) (u : State) (bs w : List Byte) (bad : Bool),
    (s.dmaTask d e = some (slot, p)) → (p.fault = none) → (p.op = 2) → (inHbm p.src p.len = true) → (s.spillOk d p.dst (p.outLen p.len) = true) → (s.hif.linkUp = true) → (s.hbmRead p.src p.len = (bs, u, false)) → (p.checked bs = (w, bad)) → 
    exec (.dmaSpillOut d e) s = .next (((u.noteRead d p.src p.len).hostWrite p.dst w).dmaEnd d e slot bad)) ∧
  (∀ (s : State) (d : Die) (e : Fin 16) (slot : Nat) (p : DmaPay) (data w : List Byte) (bad : Bool),
    (s.dmaTask d e = some (slot, p)) → (p.fault = none) → (p.op = 3) → (s.spillOk d p.src p.len = true) → (inHbm p.dst (p.outLen p.len) = true) → (s.hif.linkUp = true) → (p.checked (sliceB data 0 p.len) = (w, bad)) → 
    exec (.dmaSpillIn d e data false) s = .next ((s.hbmWrite p.dst w).dmaEnd d e slot bad) ∧ exec (.dmaSpillIn d e data true) s = .next ((s.hostFault 0).dmaFault d e slot 5)) ∧
  (∀ (s : State) (d : Die) (e : Fin 16) (slot : Nat) (p : DmaPay) (u : State) (l : List Nat),
    (s.dmaTask d e = some (slot, p)) → (p.fault = none) → (p.op = 1) → (p.silt = true ∨ p.rowsInHbm 256 = true) → (s.streamLines d p = l) → (l ≠ []) → (s.taskRead d slot (s.streamReads p) = u) → (u.regB R.MEM_CTRL 1 = true) → 
    ∃ t, exec (.dmaStream d e) s = .next t ∧ (∃ x, SMap.get (fun _ => none) t.mem.pf (d * 64 + p.pf) = some x ∧ x.lines = l ∧ x.lead = 1024 * p.len ∧ x.fetched = 0 ∧ x.done = [] ∧ x.slot = some slot) ∧ t.dmaTask d e = none ∧ t.task (d * 4096 + slot) = u.task (d * 4096 + slot) ∧ t.mem.hbm = s.mem.hbm) ∧
  (∀ (s : State) (d : Die) (e : Fin 16) (slot : Nat) (p : DmaPay) (u : State),
    (s.dmaTask d e = some (slot, p)) → (p.fault = none) → (p.op = 1) → (p.silt = true ∨ p.rowsInHbm 256 = true) → (s.taskRead d slot (s.streamReads p) = u) → (s.streamLines d p = [] ∨ u.regB R.MEM_CTRL 1 = false) → 
    exec (.dmaStream d e) s = .next (u.endDma d e slot false)) ∧
  (∀ (s : State) (d : Die) (p : Fin 64),
    (SMap.get (fun _ => none) s.mem.pf (d * 64 + p) = none) → 
    exec (.prefetcherFetch d p) s = .next s) ∧
  (∀ (s : State) (d : Die) (p : Fin 64) (x : StreamSt) (slot : Nat),
    (SMap.get (fun _ => none) s.mem.pf (d * 64 + p) = some x) → (x.slot = some slot) → (s.regB R.MEM_CTRL 1 = true) → (x.fetched < x.lines.length) → (x.lead = 0 ∨ (x.fetched + 1 - x.unread) * 256 ≤ x.lead) → (s.pfHeld d < s.pfRoom d) → 
    ∃ t u, exec (.prefetcherFetch d p) s = .next t ∧ u = s.taskRead d slot [(x.lines.getD x.fetched 0 * 256, if x.short.contains (x.lines.getD x.fetched 0) then 64 else 256)] ∧ (∃ y, SMap.get (fun _ => none) t.mem.pf (d * 64 + p) = some y ∧ y.fetched = x.fetched + 1 ∧ y.lines = x.lines ∧ y.slot = if x.fetched + 1 = x.lines.length then none else some slot) ∧ (x.fetched + 1 ≠ x.lines.length → t.tsk = u.tsk) ∧ t.regs = u.regs ∧ t.mem.hbm = s.mem.hbm) ∧
  (∀ (s : State) (d slot : Nat) (l : List (Nat × Nat)) (t : TaskEnt),
    ((l.flatMap (fun r => s.mem.badIn r.1 r.2)) ≠ []) → (s.task (d * 4096 + slot) = some t) → 
    ∃ u, s.taskRead d slot l = u ∧ u.taskBad d slot = true ∧ u.mem = s.mem)

/-- R264, R266, R268, R270, R271. The model's choices: puts without a page (log 121), outliers and source (log 122, 123), commands when idle (log 124), the number of layers (log 126). A command whose condition fails changes nothing (log 5). -/
def Obligations.SiltStore : Prop :=
  (∀ (s : State) (rq : Requester) (d : Die) (v : Word),
    (s.mem.handles = []) → 
    ∃ t, exec (.siltSlotsWrite rq d v) s = .next t ∧ t.silt d = { slots := fld v 21 0, fresh := 0, back := [] } ∧ t.reg (R.MEM_SILT_SLOTS d) = v &&& 0x3FFFFF#32 ∧ t.mem.hbm = s.mem.hbm ∧ t.out = s.out) ∧
  (∀ (s : State) (rq : Requester) (d : Die) (v : Word),
    (s.mem.handles ≠ []) → 
    exec (.siltSlotsWrite rq d v) s = .next (s.refuseWrite rq (R.MEM_SILT_SLOTS d) v 0)) ∧
  (∀ (x : SiltFree),
    (x.fresh < x.slots) → 
    x.take = some (x.fresh, { x with fresh := x.fresh + 1 }) ∧ x.free = (match x.take with | some r => r.2.free + 1 | none => 0)) ∧
  (∀ (x : SiltFree),
    (x.slots ≤ x.fresh) → 
    x.take = (match x.back with | i :: rest => some (i, { x with back := rest }) | [] => none)) ∧
  (∀ (s : State) (row i : Nat) (x : SiltFree),
    ((s.silt (row % 2)).take = none) → ((s.silt (1 - row % 2)).take = some (i, x)) → 
    s.allocPage row = some (2 ^ 31 + (1 - row % 2) * 2 ^ 30 + i, (s.setSilt (1 - row % 2) x).event R.MEM_EVENTS 2)) ∧
  (∀ (s : State) (rq : Requester) (h a n : Nat),
    (s.handleState (h % 65536) = 0) → (s.handleAddr (h % 65536) = a) → (4 * s.mem.layers * max 1 (min 16384 (s.reg R.MEM_SILT_ARG).toNat) = n) → (a + 12 ≤ s.handleDir (h % 65536) ∨ s.handleDir (h % 65536) + n ≤ a) → (a + 12 ≤ hbmSize) → 
    ∃ t, exec (.siltOpen (.reg rq h)) s = .next t ∧ t.hbm a 12 = leBytes 1 1 ++ leBytes 1 s.mem.layers ++ leBytes 2 0 ++ leBytes 4 0 ++ leBytes 4 (max 1 (min 16384 (s.reg R.MEM_SILT_ARG).toNat)) ∧ (∀ i < n, s.handleDir (h % 65536) + i < hbmSize → t.mem.byte (s.handleDir (h % 65536) + i) = 0) ∧ (∀ x, (x < a ∨ a + 12 ≤ x) → (x < s.handleDir (h % 65536) ∨ s.handleDir (h % 65536) + n ≤ x) → t.mem.byte x = s.mem.byte x) ∧ t.mem.handles = s.mem.handles ++ [h % 65536] ∧ t.ctx (h % 65536) = {} ∧ t.regs = s.regs ∧ t.out = s.out) ∧
  (∀ (s : State) (rq : Requester) (h : Nat),
    (s.handleState (h % 65536) ≠ 0) → 
    ∃ u, u = s.readNotes (s.handleAddr (h % 65536)) 32 ∧ exec (.siltOpen (.reg rq h)) s = .next ((u.event R.MEM_EVENTS 6).refuseBit rq R.MEM_SILT_CMD (packFields [(28, 1), (0, h % 65536)]) 0 6)) ∧
  (∀ (s : State) (rq : Requester) (h : Nat),
    (s.handleState (h % 65536) ≠ 1) → 
    ∃ u, u = s.readNotes (s.handleAddr (h % 65536)) 32 ∧ exec (.siltClose (.reg rq h)) s = .next ((u.event R.MEM_EVENTS 6).refuseBit rq R.MEM_SILT_CMD (packFields [(28, 2), (0, h % 65536)]) 0 6) ∧
    exec (.siltTruncate (.reg rq h)) s = .next ((u.event R.MEM_EVENTS 6).refuseBit rq R.MEM_SILT_CMD (packFields [(28, 3), (0, h % 65536)]) 0 6)) ∧
  (∀ (s : State) (rq : Requester) (h : Nat),
    (s.handleState (h % 65536) = 1) → ((s.ctx (h % 65536)).inTok = false) → 
    ∃ u, u = s.readNotes (s.handleAddr (h % 65536)) 32 ∧ exec (.siltClose (.reg rq h)) s = .next ((u.hbmWrite (u.handleAddr (h % 65536)) [2]).closeHandle (h % 65536)) ∧
    exec (.siltTruncate (.reg rq h)) s = .next (u.truncateHandle (h % 65536) (s.reg R.MEM_SILT_ARG).toNat)) ∧
  (∀ (s : State) (rq : Requester) (h : Nat),
    (s.handleState (h % 65536) = 1) → ((s.ctx (h % 65536)).inTok = true) → 
    ∃ u, u = s.readNotes (s.handleAddr (h % 65536)) 32 ∧ (∃ t, exec (.siltTruncate (.reg rq h)) s = .next t ∧ (t.ctx (h % 65536)).pend = (s.ctx (h % 65536)).pend ++ [.truncate (s.reg R.MEM_SILT_ARG).toNat] ∧ t.mem.hbm = s.mem.hbm ∧ t.mem.handles = s.mem.handles ∧ t.regs = u.regs) ∧
    (∃ t, exec (.siltClose (.reg rq h)) s = .next t ∧ (t.ctx (h % 65536)).pend = (s.ctx (h % 65536)).pend ++ [.close] ∧ t.mem.hbm = (u.hbmWrite (u.handleAddr (h % 65536)) [2]).mem.hbm ∧ t.mem.handles = s.mem.handles ∧ t.regs = u.regs)) ∧
  (∀ (s : State) (h : Nat),
    ((s.ctx h).inTok = true) → (s.tokenWork h = false) → 
    ∃ v w, v = (s.endToken h).siltPends h ∧ w = (if v.stp.phase = .idle then v.genPoint else if v.halted then v.heldPoint else v.releaseOld) ∧ exec (.tokenBoundary h) s = .next (if w.dutyNow then w.dutyBound else w).dutyCtx) ∧
  (∀ (s : State) (h n : Nat),
    ((s.ctx h).pend = [.close] → s.siltPends h = (s.setCtx h { s.ctx h with pend := [] }).closeHandle h) ∧ ((s.ctx h).pend = [.truncate n] → s.siltPends h = (s.setCtx h { s.ctx h with pend := [] }).truncateHandle h n) ∧ ((s.endToken h).ctx h).inTok = false) ∧
  (∀ (s : State) (h : Nat),
    ∃ t, s.closeHandle h = t ∧ t.mem.handles = s.mem.handles.filter (· ≠ h) ∧ t.ctx h = {} ∧ t.regs = s.regs ∧ t.out = s.out) ∧
  (∀ (s : State) (h n : Nat),
    (s.handleTokens h ≤ n) → 
    s.truncateHandle h n = s) ∧
  (∀ (s : State) (q : Fin 64),
    (s.nextOp q 0x21 = none) → 
    exec (.siltOpen (.queue q)) s = .next s ∧ exec (.siltClose (.queue q)) s = .next s ∧ exec (.siltTruncate (.queue q)) s = .next s) ∧
  (∀ (s : State) (d : Die) (e : Fin 16) (slot : Nat) (p : DmaPay) (key value : Nat) (u : State),
    (s.dmaTask d e = some (slot, p)) → (p.fault = none) → (p.op = 4) → (inHbm p.src 8192 = true) → (s.taskRead d slot [(s.handleAddr p.handle, 32), (s.pageAddr p.handle (p.first / 64) p.layer, 4)] = u) → (u.handleState p.handle ≠ 1) → 
    exec (.siltPut d e key value) s = .next ((u.failHandle p.handle).endDma d e slot true)) ∧
  (∀ (s : State) (d : Die) (e : Fin 16) (slot : Nat) (p : DmaPay) (key value n a o : Nat) (q u v : State) (bs r : List Byte),
    (s.dmaTask d e = some (slot, p)) → (p.fault = none) → (p.op = 4) → (inHbm p.src 8192 = true) → (s.taskRead d slot [(s.handleAddr p.handle, 32), (s.pageAddr p.handle (p.first / 64) p.layer, 4)] = q) → (q.pageFor p.handle (p.first / 64) p.layer (p.first % 64) = .inr (n, u)) → (u.hbmRead p.src 8192 = (bs, v, false)) → (u.slotAddr (pageDie n) (pageSlot n) = a) → (a + 64 + 1200 * (p.first % 64) = o) → (siltRecord (siltBlocks (u.viewOf p.handle) key value ((chunks 4 bs).map (fun b => FF.fp32.decode (ofLe b)))) = r) → (a + 64 ≤ hbmSize) → 
    ∃ t, exec (.siltPut d e key value) s = .next t ∧ (∀ i < r.length, o + i < hbmSize → t.mem.byte (o + i) = r.getD i 0) ∧ t.hbm a 64 = pageHeader p.handle p.layer (p.first % 64 + 1) (64 * (p.first / 64)) ∧ (∀ x, (x < a ∨ a + 64 ≤ x) → (x < o ∨ o + r.length ≤ x) → t.mem.byte x = u.mem.byte x) ∧ t.out = u.out ∧ t.arr = s.arr)

/-- R274: the layout of a flit; built by the sender, parsed by the receiver. -/
def Obligations.FlitRoundTrip : Prop :=
  ∀ (typ stream src dst seq ack nak credit nakSeq pid : Nat) (first last : Bool) (pay bs : List Byte),
    (typ < 16) → (stream < 8 ∧ (typ = 2 ∨ stream = 0)) → (src < 64) → (dst < 256) → (seq < 2 ^ 16) → (ack < 2 ^ 16) → (nak < 256) → (credit < 256) → (nakSeq < 2 ^ 16) → (pid < 2 ^ 16) → (pay.length ≤ 236) → (flitBytes typ stream src dst seq ack nak credit nakSeq pid first last pay = bs) → 
    bs.length = 256 ∧ crc32c (sliceB bs 0 252) = leAt bs 252 4 ∧ sliceB bs 16 pay.length = pay ∧
    parseFlit bs = { typ := typ, first := first, last := last, stream := stream, src := src, dst := dst, seq := seq, ack := ack, nak := nak, credit := credit, nakSeq := nakSeq, len := pay.length, podId := pid, reserved := false }

/-- R275, R276, R281. The model's choices: accepted flits leave the receive buffer at once (log 52), a RELAY frame of another operation is malformed (log 182). A command whose condition fails changes nothing (log 5), and a timer command stands for its elapsed time (log 4). -/
def Obligations.FlitsAndAcknowledgements : Prop :=
  (∀ (s : State) (l : LinkId) (bs : List Byte),
    ((s.lnk l).st ≠ .up) → 
    exec (.flitReceive l bs) s = .next s) ∧
  (∀ (s : State) (l : LinkId) (bs : List Byte),
    ((s.lnk l).st = .up) → (crc32c (sliceB bs 0 252) ≠ leAt bs 252 4) → 
    exec (.flitReceive l bs) s = .next (if (s.lnk l).nakOut.isSome then s.linkCount (R.EZL_Ll_CRC_CNT l) else (s.linkCount (R.EZL_Ll_CRC_CNT l)).sendNak l 1 (s.lnk l).rxSeq)) ∧
  (∀ (s : State) (l : LinkId) (bs : List Byte) (h : FlitHdr) (u : State),
    ((s.lnk l).st = .up) → (crc32c (sliceB bs 0 252) = leAt bs 252 4) → (parseFlit bs = h) → (s.flitNews l h = u) → 
    exec (.flitReceive l bs) s = .next (if h.typ = 0 then u else if h.seq = (u.lnk l).rxSeq then (u.flitAccept l h (sliceB bs 16 h.len)).ackOwed l
      else if ((u.lnk l).rxSeq + 65536 - h.seq) % 65536 < 32768 then u.sendIdle l else if (u.lnk l).nakOut.isSome then u else u.sendNak l 2 (u.lnk l).rxSeq)) ∧
  (∀ (s u : State) (l : LinkId) (h : FlitHdr) (pay : List Byte),
    (s.flitFault l h = none) → (badRelayOp h pay = false) → ((s.lnk l).parts = []) → (h.last = true) → (frameBad h.typ pay = false) → (h.dst = 0xFF ∨ h.dst = s.me) → (s.flitAccept l h pay = u) → 
    u.ezl.rxDone = s.ezl.rxDone ++ [(l.val, ⟨h.typ, h.stream, h.src, h.dst, pay⟩)] ∧ (u.lnk l).rxSeq = ((s.lnk l).rxSeq + 1) % 65536 ∧ (u.lnk l).nakOut = none ∧ (u.lnk l).unacked = (s.lnk l).unacked + 1 ∧ u.regs = s.regs ∧ u.out = s.out) ∧
  (∀ (s : State) (l : LinkId) (bs : List Byte),
    ∃ t, exec (.flitReceive l bs) s = .next t ∧ t.mem = s.mem ∧ t.arr = s.arr ∧ t.tsk = s.tsk ∧ t.stp = s.stp ∧ t.red = s.red ∧ t.upd = s.upd ∧ t.mxe = s.mxe ∧ t.hif = s.hif ∧ t.policy = s.policy) ∧
  (∀ (s : State) (l : LinkId),
    (64 ≤ (s.lnk l).unacked → s.ackOwed l = s.sendIdle l ∧ ((s.sendIdle l).lnk l).unacked = 0) ∧ ((s.lnk l).unacked < 64 → s.ackOwed l = s)) ∧
  (∀ (s : State) (l : LinkId),
    ((s.lnk l).st = .up) → 
    exec (.idleFlitTimer l) s = .next (s.sendIdle l)) ∧
  (∀ (s : State) (l : LinkId),
    ((s.lnk l).freed = [0, 0, 0, 0]) → 
    ∃ t, s.sendIdle l = t ∧ t.out = s.out ++ [.flit l.val (flitBytes 0 0 s.me 0xFF 0 (((s.lnk l).rxSeq + 65535) % 65536) ((s.lnk l).nakOwed.getD (0, 0)).1 0 ((s.lnk l).nakOwed.getD (0, 0)).2 s.ezl.pod.id false false [])] ∧ (t.lnk l).nakOwed = none ∧ t.pair (R.EZL_Ll_FLITS l) = (s.pair (R.EZL_Ll_FLITS l) + 1) % 2 ^ 64 ∧ t.mem = s.mem) ∧
  (∀ (s : State) (l : LinkId),
    ((s.lnk l).st ≠ .up) → 
    exec (.idleFlitTimer l) s = .next s ∧ exec (.nakRepeat l) s = .next s) ∧
  (∀ (s : State) (l : LinkId) (r q : Nat),
    ((s.lnk l).st = .up) → ((s.lnk l).nakOut = some (r, q)) → 
    exec (.nakRepeat l) s = .next (s.sendNak l r q)) ∧
  (∀ (s : State) (l : LinkId),
    ((s.lnk l).st = .up) → ((s.lnk l).nakOut = none) → 
    exec (.nakRepeat l) s = .next s)

/-- R277, R280, R282, R283. The model's choices: the ports that meet (log 39), when retrains count (log 49), REMOVE and RESTORE elsewhere (log 50), the start of training (log 51), the next link of a channel (log 82), frames that wait (log 256). A command whose condition fails changes nothing (log 5), and a timer command stands for its elapsed time (log 4). -/
def Obligations.LinksTrainAndFall : Prop :=
  (∀ (s : State) (l : LinkId) (rq : Requester),
    ((s.lnk l).st = .up) → 
    ∃ t, exec (.linkSilence l) s = .next t ∧ exec (.retrain rq l) s = .next t ∧ (t.lnk l).st = .retrain ∧ (t.lnk l).replay = (s.lnk l).replay ∧ (t.lnk l).queue = (s.lnk l).queue.filter Frame.bound ∧ (t.lnk l).attempts = 0 ∧ t.reg (R.EZL_Ll_RETRAIN_CNT l) = BitVec.ofNat 32 (min (2 ^ 32 - 1) ((s.reg (R.EZL_Ll_RETRAIN_CNT l)).toNat + 1)) ∧ t.mem = s.mem ∧ ((∀ f ∈ (s.lnk l).queue, f.bound = true) → t.out = s.out)) ∧
  (∀ (s : State) (l : LinkId),
    ((s.lnk l).st ≠ .up) → 
    exec (.linkSilence l) s = .next s ∧ exec (.retrainThreshold l) s = .next s) ∧
  (∀ (s : State) (rq : Requester) (l : Nat),
    (18 ≤ l ∨ (s.lnk l).st ≠ .up) → 
    exec (.retrain rq l) s = .next (s.refuseWrite rq R.EZL_CMD (packFields [(28, 1), (0, l)]) 0)) ∧
  (∀ (s : State) (l : LinkId),
    ((s.lnk l).st = .up) → (max 1 (s.regF R.EZL_THRESH 31 24) ≤ s.recent 1000000 (s.lnk l).nakTimes) → 
    exec (.retrainThreshold l) s = .next (if s.fnHost 12 then s.event R.EZL_EVENTS 10 else (enterRetrain l s).log 0x15 6 0 1 l)) ∧
  (∀ (s : State) (l : LinkId),
    ((s.lnk l).st = .up ∨ (s.lnk l).st = .retrain) → (max 1 (s.regF R.EZL_THRESH 23 16) ≤ s.recent 1000000000 (s.lnk l).retrainTimes ∨ max 1 (s.regF R.EZL_THRESH 15 0) ≤ s.recent 1000000000 (s.lnk l).protoTimes ∨ ∃ f ∈ (s.lnk l).replay, 64 ≤ f.replays) → 
    exec (.removeThreshold l) s = .next (removeLink l s)) ∧
  (∀ (s : State) (l : LinkId),
    ((s.lnk l).st ≠ .up) → ((s.lnk l).st ≠ .retrain) → 
    exec (.removeThreshold l) s = .next s) ∧
  (∀ (s : State) (l : LinkId) (ack : Nat),
    ((s.lnk l).st = .retrain) → 
    ∃ u : State, u = (s.setLnk l { s.lnk l with st := .up, attempts := 0, replay := dropAcked ack (s.lnk l).replay, nakOut := none, nakOwed := none }).event R.EZL_EVENTS 0 ∧
    exec (.retrainAttempt l true ack) s = .next (((match dropAcked ack (s.lnk l).replay with | [] => u | f :: _ => u.replayFrom l f.seq).pump l).sendWaiting)) ∧
  (∀ (s : State) (l : LinkId) (ack : Nat),
    ((s.lnk l).st = .retrain) → 
    exec (.retrainAttempt l false ack) s = .next (if (s.lnk l).attempts < 2 then s.setLnk l { s.lnk l with attempts := (s.lnk l).attempts + 1 } else removeLink l s)) ∧
  (∀ (s : State) (l : LinkId) (ok : Bool) (ack : Nat) (r : TrainResult),
    ((s.lnk l).st = .down) → 
    exec (.retrainAttempt l ok ack) s = .next s ∧ exec (.linkTraining l r) s = .next s) ∧
  (∀ (s : State) (l : LinkId) (m pl : Nat),
    ((s.lnk l).st = .training) → (s.img.stage < 12) → (portPartner s.ezl.pod.size s.me (l % 6) = some m) → (linkPartner l = pl) → 
    exec (.linkTraining l (.partner s.ezl.pod.id m pl)) s = .next (((s.setLnk l { s.lnk l with st := .up, peer := m, peerLink := pl, txSeq := 0, rxSeq := 0, replay := [], cur := [], parts := [], credits := [64, 64, 512, 256], rxCred := [64, 64, 512, 256], freed := [0, 0, 0, 0], nakOut := none, nakOwed := none, attempts := 0, unacked := 0, lastRed := none }).pump l).sendWaiting)) ∧
  (∀ (s : State) (l : LinkId) (pid m pl : Nat),
    ((s.lnk l).st = .training) → (s.img.stage < 12) → (pid ≠ s.ezl.pod.id ∨ portPartner s.ezl.pod.size s.me (l % 6) ≠ some m ∨ pl ≠ linkPartner l) → 
    exec (.linkTraining l (.partner pid m pl)) s = .next ((s.setLnk l { s.lnk l with st := .removed, peer := m, peerLink := pl }).eventLog R.EZL_EVENTS 2 0x15 6 0 l)) ∧
  (∀ (s : State) (l : LinkId),
    ((s.lnk l).st = .training) → (s.img.stage < 12) → 
    exec (.linkTraining l .failed) s = .next ((s.setLnk l { s.lnk l with st := .down }).eventLog R.EZL_EVENTS 3 0x15 6 0 l)) ∧
  (∀ (s : State) (l : LinkId) (rq : Requester),
    ((s.lnk l).st ≠ .unused) → 
    ∃ t, exec (.remove rq l) s = .next t ∧ t = removeLink l s ∧ (t.lnk l).st = .removed ∧ t.mem.hbm = s.mem.hbm) ∧
  (∀ (s : State) (l : LinkId),
    ((s.lnk l).st = .removed ∨ (s.lnk l).st = .unused) → 
    removeLink l s = s) ∧
  (∀ (s : State) (rq : Requester) (l : Nat),
    (18 ≤ l) → 
    exec (.remove rq l) s = .next (s.refuseWrite rq R.EZL_CMD (packFields [(28, 2), (0, l)]) 0) ∧ exec (.restore rq l) s = .next (s.refuseWrite rq R.EZL_CMD (packFields [(28, 3), (0, l)]) 0)) ∧
  (∀ (s : State) (l : LinkId) (rq : Requester) (r : TrainResult),
    (12 ≤ s.img.stage) → 
    exec (.linkTraining l r) s = .next s ∧ exec (.restore rq l) s = .next s) ∧
  (∀ (s : State) (l : LinkId) (rq : Requester),
    exec (.restore rq l) s = .next (if (s.lnk l).st = .removed ∧ s.img.stage < 12 then s.setLnk l { s.lnk l with st := .training, attempts := 0 } else s)) ∧
  (∀ (s u : State) (src l j : Nat),
    (s.takeRx 3 (fun f => f.src == src && f.startsWith (ctrlBytes 5 { pos := l })) = u) → ((List.range 18).find? (fun j => decide (portPartner u.ezl.pod.size u.me (j % 6) = some src) && decide (linkPartner j = l) && decide ((u.lnk j).st ≠ .removed) && decide ((u.lnk j).st ≠ .unused)) = some j) → 
    exec (.linkDown src l) s = .next (removeLink j u)) ∧
  (∀ (s u : State) (src l : Nat),
    (s.takeRx 3 (fun f => f.src == src && f.startsWith (ctrlBytes 5 { pos := l })) = u) → ((List.range 18).find? (fun j => decide (portPartner u.ezl.pod.size u.me (j % 6) = some src) && decide (linkPartner j = l) && decide ((u.lnk j).st ≠ .removed) && decide ((u.lnk j).st ≠ .unused)) = none) → 
    exec (.linkDown src l) s = .next u)

/-- R290, R291, R292. The model's choices: frame layouts (log 34, 36), units of the rate (log 37), the slew (log 38), classes (log 46), the lost time master (log 48), own time stamps (log 259). A command whose condition fails changes nothing (log 5), and a timer command stands for its elapsed time (log 4). -/
def Obligations.PodTimeExchanges : Prop :=
  (∀ (s : State) (l : LinkId) (t1 : Nat),
    exec (.timeSyncPeriod l t1) s = .next (if (s.lnk l).st = .up ∧ s.regB R.EZL_CTRL 1 = true then s.sendOn l ⟨6, 0, s.me, 0xFF, timeBytes 1 (4 * s.ezl.tim.now + t1 % 4)⟩ else s)) ∧
  (∀ (s u : State) (l : LinkId) (t1 t2 t3 : Nat),
    (s.takeRx 6 (fun f => f.startsWith (timeBytes 1 t1)) = u) → (u.regB R.EZL_CTRL 1 = true) → (u.parentLink = some l.val) → 
    exec (.sync l t1 t2 t3) s = .next (((u.noteParent (u.lnk l).peer).modTim (fun t => { t with t1 := t1, t2 := 4 * u.ezl.tim.now + t2 % 4, t3 := 4 * u.ezl.tim.now + t3 % 4 })).sendOn l ⟨6, 0, u.me, 0xFF, timeBytes 2 (4 * u.ezl.tim.now + t3 % 4)⟩)) ∧
  (∀ (s : State) (m : Nat),
    ∃ t, s.noteParent m = t ∧ t.ezl.tim.parent = some m ∧ t.ezl.tim.now = s.ezl.tim.now ∧ t.mem = s.mem ∧ (s.ezl.tim.parent = some m → t = s) ∧ (∀ o, s.ezl.tim.parent = some o → o ≠ m → t = (s.modTim (fun t => { t with parent := some m })).log 0x15 6 0xFF 0 m)) ∧
  (∀ (s u : State) (l : LinkId) (t3 t4 : Nat),
    (s.takeRx 6 (fun f => f.startsWith (timeBytes 2 t3)) = u) → 
    exec (.delayReq l t3 t4) s = .next (if ((u.lnk l).st = .up ∨ (u.lnk l).st = .retrain) ∧ u.regB R.EZL_CTRL 1 = true then u.sendOn l ⟨6, 0, u.me, 0xFF, timeBytes 3 (4 * u.ezl.tim.now + t4 % 4)⟩ else u)) ∧
  (∀ (s u : State) (l : LinkId) (t1 t2 t3 t4 : Nat),
    (s.takeRx 6 (fun f => f.startsWith (timeBytes 3 t4)) = u) → 
    exec (.delayResp l t4) s = .next (if u.exchangeOn l then u.modTim (fun t => t.correct u.syncPeriod (((u.ezl.tim.t2 : Int) - u.ezl.tim.t1) - ((t4 : Int) - u.ezl.tim.t3))) else u)) ∧
  (∀ (s u : State) (l : LinkId) (t1 t2 t3 : Nat),
    (s.takeRx 6 (fun f => f.startsWith (timeBytes 1 t1)) = u) → (u.exchangeOn l = false) → 
    exec (.sync l t1 t2 t3) s = .next u) ∧
  (∀ (t u : TimeSt) (p : Nat) (off : Int),
    (t.correct p off = u) → 
    u.offset = off ∧ -200000000 ≤ u.rate ∧ u.rate ≤ 200000000 ∧ u.holdover = false ∧ (u.locked = true ↔ u.good = 8) ∧ u.good = (if -8 ≤ off ∧ off ≤ 8 then min 8 (t.good + 1) else 0) ∧ (-8000 ≤ off → u.now = t.now) ∧ (-8000 ≤ off ∧ off ≤ 8000 → u.slew = -off ∧ u.span = 1000 * p ∧ u.left = 1000 * p ∧ u.lead = 0) ∧ (8000 < off → u.lead = off ∧ u.slew = 0)) ∧
  (∀ (t : TimeSt) (p : Nat) (off : Int),
    (off < -8000) → 
    (t.correct p off).now = (t.now + ((-off) / 8).toNat) % 2 ^ 64) ∧
  (∀ (t : TimeSt),
    (t.rate = 0) → (t.acc = 0) → (t.left = 0) → (t.lead = 0) → 
    t.tick.now = (t.now + 1) % 2 ^ 64 ∧ t.tick.left = 0 ∧ t.tick.lead = 0) ∧
  (∀ (s : State),
    (s.me ≠ s.ezl.pod.master) → (s.parentLink = none) → 
    ∃ t, exec (.holdover) s = .next t ∧ t.ezl.tim.locked = false ∧ t.ezl.tim.holdover = true ∧ t.ezl.tim.now = s.ezl.tim.now ∧ t.regB R.EZL_EVENTS 5 = true ∧ ((∀ l < 18, (s.lnk l).st ≠ .up) → t.ezl.pod.master = s.me ∧ t.regB R.EZL_EVENTS 6 = true) ∧ ((∃ l : LinkId, (s.lnk l).st = .up) → t.ezl.pod = s.ezl.pod) ∧ t.mem = s.mem ∧ t.stp = s.stp) ∧
  (∀ (s : State),
    (s.me = s.ezl.pod.master ∨ s.parentLink ≠ none) → 
    exec (.holdover) s = .next s) ∧
  (∀ (s u : State) (src low : Nat),
    (s.takeRx 3 (fun f => f.src == src && f.startsWith [6]) = u) → (low ≠ u.ezl.pod.master) → 
    ∃ t, exec (.timeMasterLost src low) s = .next t ∧ t.ezl.pod.master = low ∧ t.ezl.pod.me = u.ezl.pod.me ∧ t.regB R.EZL_EVENTS 6 = true ∧ t.ezl.link = u.ezl.link ∧ t.mem = s.mem) ∧
  (∀ (s u : State) (src : Nat),
    (s.takeRx 3 (fun f => f.src == src && f.startsWith [6]) = u) → 
    exec (.timeMasterLost src u.ezl.pod.master) s = .next u) ∧
  (∀ (s u : State) (l : LinkId) (f : TrigFrame),
    (s.takeRx 5 (fun x => x.startsWith (TrigFrame.bytes f)) = u) → (SMap.get (fun _ => none) u.ezl.seen f.origin ≠ some f.num) → 
    ∃ t, exec (.triggerFrame l f) s = .next t ∧ SMap.get (fun _ => none) t.ezl.seen f.origin = some f.num ∧ (u.regB R.SNP_CTRL 0 = true → u.snp.queue = [] → t.snp.queue = [{ t := f.t, cls := f.cls, origin := f.origin, num := f.num, remote := true, late := decide (f.t < u.time) }]) ∧ t.mem = s.mem ∧ t.stp = s.stp) ∧
  (∀ (s u : State) (l : LinkId) (f : TrigFrame),
    (s.takeRx 5 (fun x => x.startsWith (TrigFrame.bytes f)) = u) → (SMap.get (fun _ => none) u.ezl.seen f.origin = some f.num) → 
    exec (.triggerFrame l f) s = .next u)

/-- R293, R312 to R315. The model's choices: log 177 to 179, 181, 183, 262. A command whose condition fails changes nothing (log 5), and a timer command stands for its elapsed time (log 4). -/
def Obligations.RelayedTraffic : Prop :=
  (∀ (s : State) (m win off len : Nat) (w : Option (List Byte)),
    (s.ready = true) → (s.windowBad m len = true) → 
    exec (.relayWindowAccess m win off w len) s = .next (((s.relayError (off + m * 2 ^ 32)).incReg R.HIF_UR_CNT 1).emit (if w.isSome then .aer else .hostUr))) ∧
  (∀ (s : State) (m win off len : Nat) (b : List Byte),
    (s.ready = true) → (s.windowBad m len = false) → 
    exec (.relayWindowAccess m win off (some b) len) s = .next (s.sendRelay m ⟨2, 0, 0, len, s.windowAddr m win off⟩ (sliceB b 0 len))) ∧
  (∀ (s : State) (m win off len : Nat),
    (s.ready = true) → (s.windowBad m len = false) → (s.ezl.relayWait = []) → (s.ezl.relayOut.length < 256) → 
    ∃ t, exec (.relayWindowAccess m win off none len) s = .next t ∧ t.ezl.relayOut = s.ezl.relayOut ++ [{ tag := s.freeTag, mem := m, hdr := ⟨1, 0, s.freeTag, len, s.windowAddr m win off⟩ }] ∧ t.ezl.relayWait = [] ∧ t.mem = s.mem) ∧
  (∀ (s : State),
    (∀ r ∈ s.ezl.relayOut ++ s.ezl.relayWait ++ s.ezl.relayLate, r.tag ≠ s.freeTag)) ∧
  (∀ (s : State) (m win off len : Nat) (w : Option (List Byte)),
    (s.ready = false) → 
    exec (.relayWindowAccess m win off w len) s = .next (match w with | some _ => s.unassignedWrite (0x800000 + m * 0x20000 + win % 2 * 65536 + off) len | none => s.unassignedRead len)) ∧
  (∀ (s u : State) (src : Nat) (h : RelayHdr) (b : List Byte) (r : RelayRead),
    (s.takeRx 7 (fun f => f.src == src && f.startsWith (RelayHdr.bytes h)) = u) → (u.ezl.relayOut.find? (fun r => decide (r.tag = h.tag) && decide (r.mem = src)) = some r) → 
    exec (.relayCompletion src h b) s = .next (if h.status = 0 then (u.relayOver r).emit (.hostData (sliceB b 0 r.hdr.len) false) else if h.status = 1 then (((u.relayOver r).relayError (h.tag + src * 2 ^ 16)).incReg R.HIF_UR_CNT 1).emit .hostUr else ((u.relayOver r).relayError (h.tag + src * 2 ^ 16)).emit (if h.status = 2 then .hostCa else .hostStatus h.status))) ∧
  (∀ (s u : State) (src : Nat) (h : RelayHdr) (b : List Byte),
    (s.takeRx 7 (fun f => f.src == src && f.startsWith (RelayHdr.bytes h)) = u) → (u.ezl.relayOut.find? (fun r => decide (r.tag = h.tag) && decide (r.mem = src)) = none) → 
    exec (.relayCompletion src h b) s = .next ((u.modEzl (fun e => { e with relayLate := e.relayLate.filter (fun r => !(decide (r.tag = h.tag) && decide (r.mem = src))) })).log 0x15 0 0xFF 0 (h.tag + src * 2 ^ 16))) ∧
  (∀ (s : State) (tag : Nat) (r : RelayRead),
    (s.ezl.relayOut.find? (fun r => decide (r.tag = tag)) = some r) → 
    exec (.relayTimeout tag) s = .next (((((s.relayOver r).modEzl (fun e => { e with relayLate := e.relayLate ++ [r] })).event R.EZL_EVENTS 8).relayError (tag + r.mem * 2 ^ 16)).emit .hostCa)) ∧
  (∀ (s : State) (tag : Nat),
    (s.ezl.relayOut.find? (fun r => decide (r.tag = tag)) = none) → 
    exec (.relayTimeout tag) s = .next s) ∧
  (∀ (s u : State) (src : Nat) (h : RelayHdr) (b : List Byte),
    (s.takeRx 7 (fun f => f.src == src && f.startsWith (RelayHdr.bytes h)) = u) → 
    exec (.relayHostWrite src h b) s = .next (if u.isHead = false then u else if u.hif.linkUp then u.emit (.hostWrite h.addr (sliceB b 0 h.len)) else u.incReg R.HIF_HOST_ERR_CNT 1)) ∧
  (∀ (s u : State) (src a : Nat) (b : List Byte),
    (s.takeRx 1 (fun f => f.src == src && f.startsWith (leBytes 8 a ++ leBytes 4 b.length)) = u) → (a + b.length ≤ hbmSize) → (∀ x, s.protGiB true x = false) → (s.img.cmd = none) → ((s.updD 0).proj = none) → ((s.updD 1).proj = none) → 
    ∃ t, exec (.dataFrame src a b) s = .next t ∧ t = u.hostPut a b ∧ (∀ i < b.length, t.mem.byte (a + i) = b.getD i 0) ∧ (∀ x, x < a ∨ a + b.length ≤ x → t.mem.byte x = s.mem.byte x) ∧ t.out = s.out) ∧
  (∀ (s u : State) (src a : Nat) (b : List Byte),
    (s.takeRx 1 (fun f => f.src == src && f.startsWith (leBytes 8 (a + 2 ^ 63) ++ leBytes 4 b.length)) = u) → (a < 2 ^ 63) → 
    exec (.dataFrame src (a + 2 ^ 63) b) s = .next (u.memberWrite a b)) ∧
  (∀ (s u v : State) (src : Nat) (h : RelayHdr) (o : Option (List Byte)),
    (s.takeRx 7 (fun f => f.src == src && f.startsWith (RelayHdr.bytes h)) = u) → (u.memberRead h.addr h.len = (o, v)) → 
    exec (.relayRead src h) s = .next (match o with | some b => v.sendRelay src ⟨3, 0, h.tag, h.len, h.addr⟩ b | none => v.sendRelay src ⟨3, 1, h.tag, h.len, h.addr⟩ [])) ∧
  (∀ (s : State) (a : Nat),
    (a < 2 ^ 63) → (a % 4 = 0) → 
    s.memberRead a 4 = (some (leBytes 4 (s.readBar0 .host a).1.toNat), (s.readBar0 .host a).2) ∧ (∀ b : List Byte, b.length = 4 → s.memberApply a b = s.writeBar0 .host a (wordN (leAt b 0 4)))) ∧
  (∀ (s u : State) (src : Nat) (h : RelayHdr) (b : List Byte),
    (s.takeRx 7 (fun f => f.src == src && f.startsWith (RelayHdr.bytes h)) = u) → 
    exec (.relayWrite src h b) s = .next (u.memberApply h.addr (sliceB b 0 h.len)))

/-- R302, R303, R304, R306, R308, R314. The model's choices: bad entries (log 128), an SQ fetch error (log 129), when a signal acts (log 130), queue enable (log 131), SQ window reads (log 264), the completion time (log 265), STALLED of a disabled queue (log 266). A command whose condition fails changes nothing (log 5), and a timer command stands for its elapsed time (log 4). -/
def Obligations.HostQueues : Prop :=
  (∀ (s : State) (q : Fin 64) (v : Nat),
    (s.ready = true) → ((s.queue q).en = true) → (v < (s.queue q).depth) → 
    exec (.sqTailDoorbell q v) s = .next (s.setQueue q { s.queue q with sqTail := v })) ∧
  (∀ (s : State) (q : Fin 64) (v : Nat),
    (s.ready = true) → ((s.queue q).en = true) → (v < (s.queue q).depth) → ((s.queue q).ready = []) → ((s.queue q).fetched = []) → 
    exec (.cqHeadDoorbell q v) s = .next (s.setQueue q { s.queue q with cqHead := v })) ∧
  (∀ (s : State) (q : Fin 64) (v : Nat),
    (s.ready = true) → ((s.queue q).en = false ∨ (s.queue q).depth ≤ v) → 
    exec (.sqTailDoorbell q v) s = .next (s.badDoorbell q v) ∧ exec (.cqHeadDoorbell q v) s = .next (s.badDoorbell q v)) ∧
  (∀ (s : State) (q : Fin 64) (v : Nat),
    (s.ready = false) → 
    exec (.sqTailDoorbell q v) s = .next (s.unassignedWrite (8 * q) 4) ∧ exec (.cqHeadDoorbell q v) s = .next (s.unassignedWrite (8 * q + 4) 4)) ∧
  (∀ (s : State) (q : Nat) (e : QEnt) (rest : List QEnt),
    ((s.queue q).ready = e :: rest) → ((s.queue q).full = false) → ((s.queue q).cqTail < (s.queue q).depth) → (s.viaHead = false) → 
    ∃ t, s.postOne q = t ∧ (t.queue q).ready = rest ∧ (t.queue q).cqTail = ((s.queue q).cqTail + 1) % (s.queue q).depth ∧ ((t.queue q).phase = (s.queue q).phase ↔ (s.queue q).cqTail + 1 ≠ (s.queue q).depth) ∧ t.out = s.out ++ [.hostWrite ((s.queue q).cq / 4096 * 4096 + 64 * (s.queue q).cqTail) (s.cqBytes q (s.queue q).phase e)] ∧ t.mem = s.mem ∧ t.regs = s.regs) ∧
  (∀ (s : State) (q : Fin 64) (i : Nat) (e : QEnt) (st : Nat),
    ((s.queue q).fetched[i]? = some e) → ((s.queue q).ready = []) → ((s.queue q).full = false) → ((s.queue q).cqTail < (s.queue q).depth) → (e.signals = false) → (s.viaHead = false) → (st ≠ 4) → 
    ∃ t, s.completeEntry q i st 0 0 0 = t ∧ (t.queue q).fetched = (s.queue q).fetched.eraseIdx i ∧ (t.queue q).ready = [] ∧ (t.queue q).cqTail = ((s.queue q).cqTail + 1) % (s.queue q).depth ∧ t.out.length = s.out.length + 1 ∧ t.mem = s.mem ∧ t.regs = s.regs) ∧
  (∀ (s : State) (q : Fin 64) (i : Nat) (e : QEnt),
    (s.nextOp q 0 = some (i, e)) → 
    exec (.hostNop q) s = .next ((s.completeEntry q i 0 0 0 0).settle q)) ∧
  (∀ (s : State) (q : Fin 64) (i : Nat) (e : QEnt),
    (s.nextOp q 0x22 = some (i, e)) → 
    exec (.signal q) s = .next (((if e.signals then s else s.entrySignal { e with bytes := e.bytes.set 1 4 }).completeEntry q i 0 0 0 0).settle q)) ∧
  (∀ (s : State) (q : Fin 64) (i : Nat) (e : QEnt),
    (s.nextOp q 0x20 = some (i, e)) → (s.launchFree = true) → 
    ∃ t, exec (.launch q) s = .next t ∧ (∃ l, t.tsk.launchQ = s.tsk.launchQ ++ [l] ∧ l.graph = e.opC % 256 ∧ l.src = .command q e.cid) ∧ (t.queue q).fetched = (s.queue q).fetched.set i { e with started := true } ∧ t.mem = s.mem ∧ t.regs = s.regs ∧ t.out = s.out) ∧
  (∀ (s : State) (q : Fin 64),
    (s.nextOp q 0 = none) → (s.nextOp q 0x22 = none) → (s.nextOp q 0x20 = none ∨ s.launchFree = false) → 
    exec (.hostNop q) s = .next s ∧ exec (.signal q) s = .next s ∧ exec (.launch q) s = .next s) ∧
  (∀ (s : State) (bs : List Byte) (err : Bool),
    (s.regB R.HIF_CTRL 0 = false ∨ s.nextFetch = none) → 
    exec (.sqFetch bs err) s = .next s) ∧
  (∀ (s : State) (q : Nat) (x : QueueSt) (bs b : List Byte) (err : Bool) (u : State),
    (s.regB R.HIF_CTRL 0 = true) → (s.nextFetch = some q) → (s.queue q = x) → (err = false ∨ x.inWindow = true) → ((if x.inWindow then s.hbm (s.sqWin + x.sq / 4096 * 4096 + 64 * x.sqHead) 64 else sliceB bs 0 64) = b) → (s.modHif (fun h => { h with last := q }) = u) → 
    exec (.sqFetch bs err) s = .next (((if x.inWindow then u.readNotes (s.sqWin + x.sq / 4096 * 4096 + 64 * x.sqHead) 64 else u).setQueue q { x with sqHead := (x.sqHead + 1) % x.depth, fetched := x.fetched ++ [{ bytes := b, head := (x.sqHead + 1) % x.depth }] }).settle q)) ∧
  (∀ (s : State) (q : Nat) (bs : List Byte),
    (s.regB R.HIF_CTRL 0 = true) → (s.nextFetch = some q) → ((s.queue q).inWindow = false) → 
    exec (.sqFetch bs true) s = .next ((s.modHif (fun h => { h with last := q })).hostError q)) ∧
  (∀ (s : State) (rq : Requester) (v : Word) (q : Nat) (x : QueueSt),
    (s.regF R.HIF_Q_SEL 5 0 = q) → (s.queue q = x) → (x.en = true) → 
    exec (.qCfgWrite rq v) s = .next (if bitOf v 31 then s.badConfig rq q R.HIF_Q_CFG v else s.disableQueue q)) ∧
  (∀ (s : State) (rq : Requester) (v : Word) (q : Nat) (x : QueueSt) (w : Word),
    (s.regF R.HIF_Q_SEL 5 0 = q) → (s.queue q = x) → (x.en = false) → (fld v 30 29 ≠ 3) → (bitOf v 31 = true) → (v &&& 0xF03F1FFF#32 = w) → (({ x with cfg := w } : QueueSt).fits = true) → (x.fetched = []) → 
    exec (.qCfgWrite rq v) s = .next (s.setQueue q { x with cfg := w, en := true, sqHead := 0, sqTail := 0, cqTail := 0, cqHead := 0, phase := true, ready := [], errs := [] })) ∧
  (∀ (s : State) (rq : Requester) (v : Word) (q : Nat) (x : QueueSt) (w : Word),
    (s.regF R.HIF_Q_SEL 5 0 = q) → (s.queue q = x) → (x.en = false) → (fld v 30 29 ≠ 3) → (bitOf v 31 = true) → (v &&& 0xF03F1FFF#32 = w) → (({ x with cfg := w } : QueueSt).fits = false ∨ x.fetched ≠ []) → 
    exec (.qCfgWrite rq v) s = .next ((s.setQueue q { x with cfg := setBit w 31 false }).refuseWrite rq R.HIF_Q_CFG v 0)) ∧
  (∀ (s : State) (rq : Requester) (v : Word),
    ((s.queue (s.regF R.HIF_Q_SEL 5 0)).en = false) → 
    (fld v 30 29 = 3 → exec (.qCfgWrite rq v) s = .next (s.refuseWrite rq R.HIF_Q_CFG v 0)) ∧ (fld v 30 29 ≠ 3 → bitOf v 31 = false → exec (.qCfgWrite rq v) s = .next (s.setQueue (s.regF R.HIF_Q_SEL 5 0) { s.queue (s.regF R.HIF_Q_SEL 5 0) with cfg := v &&& 0xF03F1FFF#32 }))) ∧
  (∀ (s : State) (q : Fin 64),
    ((s.queue q).en = true) → ((s.queue q).full = true) → (s.regF R.HIF_CTRL 31 16 ≠ 0) → 
    exec (.cqStall q) s = .next ((((s.disableQueue q).event R.HIF_EVENTS 7).event R.HIF_EVENTS 6).hifFault 6 q 0)) ∧
  (∀ (s : State) (q : Fin 64),
    ((s.queue q).en = true) → (64 ≤ ((s.queue q).errs.filter (fun t => decide (s.time < t + 1000000000))).length) → 
    exec (.hostErrorLimit q) s = .next (((s.disableQueue q).event R.HIF_EVENTS 7).hifFault 4 q 0)) ∧
  (∀ (s : State) (q : Fin 64),
    ((s.queue q).en = false) → 
    exec (.cqStall q) s = .next s ∧ exec (.hostErrorLimit q) s = .next s)

/-- R300, R306, R307, R309, R310. The model's choices: format choices refused (log 74), GEN with training idle (log 127), GEN copies and protection (log 135), protection of other ways (log 136), engines of host data (log 137), READ_HBM of a member (log 260). A command whose condition fails changes nothing (log 5). -/
def Obligations.HostDataAndGeneration : Prop :=
  (∀ (s : State) (q : Fin 64) (i : Nat) (e : QEnt) (g : Nat) (data : List Byte),
    (s.nextOp q 1 = some (i, e)) → (s.freeEngine 0 = some g) → (s.targetsMe e = true) → (s.protected_ true e.opB e.len = false) → (e.check = false) → (s.img.cmd = none) → 
    ∃ t, exec (.writeHbm q data none) s = .next t ∧ (∀ k < e.len, t.mem.byte (e.opB + k) = data.getD k 0) ∧ (∀ x, x < e.opB ∨ e.opB + e.len ≤ x → t.mem.byte x = s.mem.byte x) ∧ (t.queue q).fetched = (s.queue q).fetched.set i { e with started := true, engine := some g, fin := some (0, e.len, 0, 0) } ∧ SMap.get (fun _ => none) t.tsk.dma g = some (1048576 + q) ∧ t.out = s.out ∧ (t.fmtTable.all (fun x => !x.sr || s.upd.srAllowed x) = true → t.regs = s.regs ∧ t.err = s.err)) ∧
  (∀ (s : State) (q : Fin 64) (i : Nat) (e : QEnt) (g : Nat) (data d : List Byte) (n : Nat),
    (s.nextOp q 1 = some (i, e)) → (s.freeEngine 0 = some g) → (s.targetsMe e = true) → (e.check = true) → (e.len - 4 = n) → (s.protected_ true e.opB n = false) → (sliceB data 0 e.len = d) → 
    exec (.writeHbm q data none) s = .next ((s.hostStore (fun _ => true) e.opB (d.take n)).startData q i g e (if ofLe (d.drop n) = crc32c (d.take n) then 0 else 6, n, 0, crc32c (d.take n)))) ∧
  (∀ (s : State) (a : Nat) (bs : List Byte) (k : Nat),
    (s.img.cmd = some k) → 
    (∀ x, s.pushBase ≤ x → x < s.pushBase + 2 ^ 27 → (s.hostStore (fun _ => true) a bs).mem.byte x = s.mem.byte x) ∧ (a + bs.length ≤ s.pushBase ∨ s.pushBase + 2 ^ 27 ≤ a → s.hostStore (fun _ => true) a bs = s.hostHbmWrite a bs)) ∧
  (∀ (s : State) (q : Fin 64) (i : Nat) (e : QEnt) (g : Nat) (data : List Byte) (err : Option Nat),
    (s.nextOp q 1 = some (i, e)) → (s.freeEngine 0 = some g) → (s.targetsMe e = true) → (s.protected_ true e.opB (if e.check then e.len - 4 else e.len) = true) → 
    exec (.writeHbm q data err) s = .next ((s.noteProt q e.opB).startData q i g e (10, 0, 0, 0))) ∧
  (∀ (s : State) (q : Fin 64) (i : Nat) (e : QEnt) (g : Nat) (data : List Byte) (k : Nat),
    (s.nextOp q 1 = some (i, e)) → (s.freeEngine 0 = some g) → (s.targetsMe e = true) → (e.check = false) → (s.protected_ true e.opB e.len = false) → 
    exec (.writeHbm q data (some k)) s = .next (((s.hostStore (fun _ => true) e.opB ((sliceB data 0 e.len).take (min k e.len))).hostError q).startData q i g e (4, min k e.len, 0, 0))) ∧
  (∀ (s : State) (q : Fin 64) (i : Nat) (e : QEnt) (g : Nat),
    (s.nextOp q 2 = some (i, e)) → (s.freeEngine 0 = some g) → (s.targetsMe e = true) → (s.protected_ false e.opA e.len = true) → 
    exec (.readHbm q) s = .next ((s.noteProt q e.opA).startData q i g e (10, 0, 0, 0))) ∧
  (∀ (s : State) (q : Fin 64) (i : Nat) (e : QEnt) (g : Nat),
    (s.nextOp q 2 = some (i, e)) → (s.freeEngine 0 = some g) → (s.targetsMe e = true) → (s.protected_ false e.opA e.len = false) → (s.mem.badIn e.opA e.len = []) → (s.viaHead = false) → 
    ∃ t, exec (.readHbm q) s = .next t ∧ t.out = s.out ++ [.hostWrite e.opB (if e.check then s.hbm e.opA e.len ++ leBytes 4 (crc32c (s.hbm e.opA e.len)) else s.hbm e.opA e.len)] ∧ (t.queue q).fetched = (s.queue q).fetched.set i { e with started := true, engine := some g, fin := some (0, e.len, 0, if e.check then crc32c (s.hbm e.opA e.len) else 0) } ∧ t.mem = s.mem ∧ t.regs = (s.readNotes e.opA e.len).regs) ∧
  (∀ (s : State) (q : Fin 64) (i : Nat) (e : QEnt) (g : Nat) (us : List Nat),
    (s.nextOp q 2 = some (i, e)) → (s.freeEngine 0 = some g) → (s.targetsMe e = true) → (s.protected_ false e.opA e.len = false) → (s.mem.badIn e.opA e.len = us) → (us ≠ []) → 
    exec (.readHbm q) s = .next ((s.readNotes e.opA e.len).startData q i g e (5, 0, 0, 0))) ∧
  (∀ (s : State) (q : Fin 64) (i : Nat) (e : QEnt) (g : Nat),
    (s.nextOp q 2 = some (i, e)) → (s.freeEngine 0 = some g) → (s.targetsMe e = false) → (e.check = false) → 
    exec (.readHbm q) s = .next ((s.draw.2.emit (.hostWrite e.opB ((List.range e.len).map (Config.freeByte s.draw.1)))).startData q i g e (0, e.len, 0, 0))) ∧
  (∀ (s : State) (q : Fin 64) (data : List Byte) (err : Option Nat),
    ((s.nextOp q 1 = none ∧ s.nextOp q 2 = none) ∨ s.freeEngine 0 = none) → 
    exec (.writeHbm q data err) s = .next s ∧ exec (.readHbm q) s = .next s) ∧
  (∀ (s : State) (q : Fin 64) (i : Nat) (e : QEnt) (g : Nat) (f : Nat × Nat × Nat × Nat),
    ((s.queue q).fetched[i]? = some e) → (e.engine = some g) → (e.fin = some f) → 
    exec (.hostDmaComplete q i) s = .next (((s.modTsk (fun t => { t with dma := SMap.set (fun _ => none) t.dma g none })).completeEntry q i f.1 f.2.1 f.2.2.1 f.2.2.2).settle q)) ∧
  (∀ (s : State) (q : Fin 64) (i : Nat),
    ((s.queue q).fetched[i]? = none) → 
    exec (.hostDmaComplete q i) s = .next s ∧ exec (.genResultCopy q i) s = .next s) ∧
  (∀ (s : State) (q : Fin 64) (i : Nat) (e : QEnt),
    (s.nextOp q 0x10 = some (i, e)) → (s.launchFree = true) → (s.stp.phase = .idle) → 
    ∃ t, exec (.gen q) s = .next t ∧ (t.ctx e.handle).inTok = true ∧ (t.ctx e.handle).failed = false ∧ (∃ l, t.tsk.launchQ = s.tsk.launchQ ++ [l] ∧ l.graph = e.graph ∧ l.src = .gen q e.cid e.handle) ∧ t.out = s.out ∧ t.upd = s.upd ∧ t.red = s.red) ∧
  (∀ (s : State) (q : Fin 64),
    (s.nextOp q 0x10 = none ∨ s.launchFree = false) → 
    exec (.gen q) s = .next s) ∧
  (∀ (s : State) (q : Fin 64) (i : Nat) (e : QEnt) (f : Nat × Nat × Nat × Nat),
    ((s.queue q).fetched[i]? = some e) → (e.op = 0x10) → (e.fin = some f) → (f.1 ≠ 0 ∨ e.len = 0) → 
    exec (.genResultCopy q i) s = .next ((s.completeEntry q i f.1 f.2.1 f.2.2.1 0).settle q)) ∧
  (∀ (s : State) (q : Fin 64) (i : Nat) (e : QEnt) (f : Nat × Nat × Nat × Nat) (u : State),
    ((s.queue q).fetched[i]? = some e) → (e.op = 0x10) → (e.fin = some f) → (f.1 = 0) → (e.len ≠ 0) → (s.mem.badIn e.opB e.len = []) → (s.readNotes e.opB e.len = u) → (u.viaHead = false) → 
    exec (.genResultCopy q i) s = .next (((u.emit (.hostWrite e.opA (s.hbm e.opB e.len))).completeEntry q i 0 f.2.1 f.2.2.1 (if e.check then crc32c (s.hbm e.opB e.len) else 0)).settle q))

/-- R295, R296, R299 to R301, R311, R314, R315, R370, R408. The model's choices: malformed TLP (log 132), what an FLR keeps (log 134), protection of other ways (log 136), uncorrectable units (log 264), messages held by a mask (log 267) or by EN (log 291). A command whose condition fails changes nothing (log 5). -/
def Obligations.AperturesAndResets : Prop :=
  (∀ (s : State) (off len : Nat),
    (s.aperAddr off len = none) → 
    exec (.apertureRead off len) s = .next (s.emit (.hostData (List.replicate len 0) false))) ∧
  (∀ (s : State) (off len a : Nat),
    (s.aperAddr off len = some a) → (s.protected_ false a len = false) → (s.mem.badIn a len = []) → 
    exec (.apertureRead off len) s = .next ((s.ceNotes (s.mem.softIn a len)).emit (.hostData (s.hbm a len) false))) ∧
  (∀ (s : State) (off len a : Nat) (us : List Nat),
    (s.aperAddr off len = some a) → (s.protected_ false a len = false) → (s.mem.badIn a len = us) → (us ≠ []) → 
    exec (.apertureRead off len) s = .next ((((s.ceNotes (s.mem.softIn a len)).ueNotes us).event R.HIF_EVENTS 4).emitUnits us a (s.hbm a len))) ∧
  (∀ (s : State) (us : List Nat) (a u n m : Nat) (x y : List Byte),
    (a + n = 32 * (u + 1)) → (a / 32 = u) → (0 < n) → (0 < m) → (m ≤ 32) → (x.length = n) → (y.length = m) → 
    s.emitUnits us a (x ++ y) = (s.emit (.hostData x (us.contains u))).emit (.hostData y (us.contains (u + 1)))) ∧
  (∀ (s : State) (off len a : Nat),
    (s.aperAddr off len = some a) → (s.protected_ false a len = true) → (s.mem.badIn a len = []) → 
    exec (.apertureRead off len) s = .next (((s.noteProt 0 a).ceNotes (s.hostSoft a len)).emit (.hostData ((List.range len).map (fun i => if s.protGiB false ((a + i) / 2 ^ 30) then 0 else s.mem.byte (a + i))) false))) ∧
  (∀ (s : State) (off : Nat) (bs : List Byte),
    (s.aperAddr off bs.length = none) → 
    exec (.apertureWrite off bs) s = .next (s.unassignedWrite off bs.length)) ∧
  (∀ (s : State) (off a : Nat) (bs : List Byte),
    (s.aperAddr off bs.length = some a) → (a + bs.length ≤ hbmSize) → (s.protected_ true a bs.length = false) → (s.img.cmd = none) → 
    ∃ t, exec (.apertureWrite off bs) s = .next t ∧ (∀ k < bs.length, t.mem.byte (a + k) = bs.getD k 0) ∧ (∀ x, x < a ∨ a + bs.length ≤ x → t.mem.byte x = s.mem.byte x) ∧ t.out = s.out ∧ (t.fmtTable.all (fun x => !x.sr || s.upd.srAllowed x) = true → t.regs = s.regs ∧ t.err = s.err)) ∧
  (∀ (s : State) (off a : Nat) (bs : List Byte),
    (s.aperAddr off bs.length = some a) → (s.protected_ true a bs.length = true) → 
    ∃ t, exec (.apertureWrite off bs) s = .next t ∧ (∀ x, s.protGiB true (x / 2 ^ 30) = true → t.mem.byte x = s.mem.byte x) ∧ t.regB R.HIF_EVENTS 5 = true ∧ t.out = s.out) ∧
  (∀ (s : State) (rq : Requester) (v : Fin 64) (u : State),
    (s.setRegB (R.MSIX_TABLE (4 * v + 3)) 0 false = u) → 
    exec (.msixUnmask rq v) s = .next (if u.regB (R.MSIX_PBA (v / 32)) (v % 32) = true ∧ u.msgStopped v = false then (u.setRegB (R.MSIX_PBA (v / 32)) (v % 32) false).msixSend v else u) ∧ u.msixMasked v = false) ∧
  (∀ (s : State) (v : Nat),
    s.msgStopped v = true ↔ ((s.irqD 0).awaiting v ≠ [] ∨ (s.irqD 1).awaiting v ≠ []) ∧ ((s.irqD 0).awaiting v ≠ [] → s.regB (R.IRQ_CTRL 0) 0 = false) ∧ ((s.irqD 1).awaiting v ≠ [] → s.regB (R.IRQ_CTRL 1) 0 = false)) ∧
  (∀ (s : State) (v : Nat),
    (s.msixMasked v = false) → (s.viaHead = false) → 
    ∃ t, s.msixSend v = t ∧ t.out = s.out ++ [.msix v ((s.msixWord v 0).toNat + (s.msixWord v 1).toNat * 2 ^ 32) (s.msixWord v 2).toNat] ∧ t.mem = s.mem ∧ t.regs = s.regs) ∧
  (∀ (s : State) (off : Nat) (bs : List Byte),
    (bs.length = 4) → (off % 4 = 0) → (s.err.queue.length < 64) → 
    ∃ t, exec (.snapshotWindowWrite off bs) s = .next t ∧ t.err.queue = s.err.queue ++ [⟨s.time, 5, 1, 0xFF, 1, off + ofLe (bs.take 4) * 2 ^ 32 + 8 * 2 ^ 64⟩] ∧ t.snp = s.snp ∧ t.mem = s.mem ∧ t.regs = s.regs ∧ t.out = s.out) ∧
  (∀ (s : State) (off : Nat) (bs : List Byte),
    (bs.length ≠ 4 ∨ off % 4 ≠ 0) → 
    exec (.snapshotWindowWrite off bs) s = .next ((s.noteBad (0x1000000 + off)).emit .aer)) ∧
  (∀ (s : State),
    ∃ t, exec (.functionLevelReset) s = .next t ∧ (∀ q, t.queue q = {}) ∧ (∀ a, hifReset a = true → a ≠ R.HIF_EVENTS → t.reg a = State.reset.reg a) ∧ (∀ a, hifReset a = false → t.reg a = s.reg a) ∧ t.regB R.HIF_EVENTS 9 = true ∧ t.mem = s.mem ∧ t.stp = s.stp ∧ t.arr = s.arr ∧ t.err = s.err) ∧
  (∀ (s : State) (r w : Nat) (f : Bool),
    (s.hif.perst = true ∨ s.img.stage ≤ 1) → 
    exec (.pcieLinkUp r w f) s = .next s) ∧
  (∀ (s : State) (r w : Nat) (f : Bool),
    (s.hif.perst = false) → (1 < s.img.stage) → (6 ≤ r) → (8 ≤ w) → 
    ∃ t, exec (.pcieLinkUp r w f) s = .next t ∧ t.hif.linkUp = true ∧ t.reg R.HIF_STATUS = packFields [(31, 1), (30, f.toNat), (27, r % 8), (23, w % 16)] ∧ t.err = s.err ∧ t.mem = s.mem) ∧
  (∀ (s : State) (r w : Nat) (f : Bool),
    (s.hif.perst = false) → (1 < s.img.stage) → (r < 6 ∨ w < 8) → 
    ∃ t, exec (.pcieLinkUp r w f) s = .next t ∧ t.hif.linkUp = true ∧ t.regB R.HIF_EVENTS 10 = true ∧ t.mem = s.mem) ∧
  (∀ (s : State),
    ∃ t, exec (.pcieLinkDown) s = .next t ∧ t.hif.linkUp = false ∧ (∀ q, (t.queue q).en = false ∧ (t.queue q).fetched = [] ∧ (t.queue q).ready = []) ∧ t.reg R.HIF_STATUS = 0 ∧ t.regB R.HIF_EVENTS 2 = true ∧ t.mem = s.mem ∧ t.out = s.out) ∧
  (∀ (s : State),
    (1 < s.img.stage) → 
    exec (.perstAssert) s = .next (pcieLinkDown (functionLevelReset (s.modHif (fun h => { h with perst := true }))))) ∧
  (∀ (s : State),
    exec (.perstDeassert) s = .next (s.modHif (fun h => { h with perst := false })) ∧ (s.img.stage ≤ 1 → exec (.perstAssert) s = .next (s.modHif (fun h => { h with perst := true })))) ∧
  (∀ (s : State),
    ∃ t, exec (.malformedTlp) s = .next t ∧ t.reg R.HIF_FAULT = packFields [(0, (Config.freeByte s.free 0).toNat)] ∧ t.out = s.out ++ [.aer] ∧ t.free = s.free + 1 ∧ t.mem = s.mem ∧ t.hif = s.hif)

/-- R317, R318, R320 to R327. The model's choices: a level that falls (log 33), a claim without an offer (log 40), the return after an EOI (log 41), HOST_EOI of an edge source (log 42), the configuration in service (log 47), KDONE and firmware (log 202), messages held by a mask (log 267), moderation counts (log 306). A command whose condition fails changes nothing (log 5), and a timer command stands for its elapsed time (log 4). -/
def Obligations.InterruptControllers : Prop :=
  (∀ (s : State) (d : Die) (src : Nat),
    (src < 512) → 
    ∃ t, exec (.irqSourcePending d src) s = .next t ∧ (t.irqD d).raw.getLsbD src = s.srcLevel d src ∧ (∀ x < 512, x ≠ src → (t.irqD d).pend.getLsbD x = (s.irqD d).pend.getLsbD x) ∧ ((s.irqD d).sense src = 1 → (t.irqD d).pend.getLsbD src = ((s.irqD d).pend.getLsbD src || (s.srcLevel d src && !(s.irqD d).raw.getLsbD src))) ∧ ((s.irqD d).sense src = 2 → (t.irqD d).pend.getLsbD src = ((s.irqD d).pend.getLsbD src || (!s.srcLevel d src && (s.irqD d).raw.getLsbD src))) ∧ ((s.irqD d).sense src = 0 → s.srcLevel d src = true → (s.irqD d).inService src = false → (t.irqD d).pend.getLsbD src = true) ∧ ((s.irqD d).sense src = 0 → (s.irqD d).raw.getLsbD src = true → s.srcLevel d src = false → (t.irqD d).pend.getLsbD src = false) ∧ t.regs = s.regs ∧ t.mem = s.mem) ∧
  (∀ (s : State) (d : Die) (core : Fin 4) (src : Nat),
    (s.irqOffer d core = some src) → 
    ∃ t, exec (.irqClaim d core src) s = .next t ∧ ((t.irqD d).coreOf core).pc = s.irqVector d core (some src) ∧ (if bitOf ((s.irqD d).cfgOf src) 29 then ((t.irqD d).coreOf core).curf = src ∧ ((t.irqD d).coreOf core).fastBank = true else ((t.irqD d).coreOf core).cur = src) ∧ (t.irqD d).pend.getLsbD src = false ∧ ((t.irqD d).holdOf (src / 16)).n = ((s.irqD d).holdOf (src / 16)).n + 1 ∧ t.regs = s.regs ∧ t.out = s.out ∧ t.mem = s.mem) ∧
  (∀ (s : State) (d : Die) (core : Fin 4) (src : Nat),
    (s.irqOffer d core ≠ some src) → 
    ∃ t, exec (.irqClaim d core src) s = .next t ∧ ((t.irqD d).coreOf core).pc = (s.reg (R.IRQ_SPUR_VEC d)).toNat / 16 * 16 ∧ (t.irqD d).pend = (s.irqD d).pend ∧ ((t.irqD d).coreOf core).cur = ((s.irqD d).coreOf core).cur ∧ t.regB (R.IRQ_EVENTS d) 0 = true ∧ t.reg (R.IRQ_SPUR_CNT d) = BitVec.ofNat 32 (min (2 ^ 32 - 1) ((s.reg (R.IRQ_SPUR_CNT d)).toNat + 1)) ∧ t.mem = s.mem) ∧
  (∀ (s : State) (rq : Requester) (d : Die) (core : Fin 4) (src : Nat),
    (s.irqOffer d core = some src) → 
    exec (.claimRead rq d core) s = .next ((s.irqTake d core src).emit (.reply rq (R.IRQ_Cc_CLAIM d core) (BitVec.ofNat 32 src)))) ∧
  (∀ (s : State) (rq : Requester) (d : Die) (core : Fin 4),
    (s.irqOffer d core = none) → 
    exec (.claimRead rq d core) s = .next ((s.irqSpurious d).emit (.reply rq (R.IRQ_Cc_CLAIM d core) 0x3FF#32))) ∧
  (∀ (s : State) (rq : Requester) (d : Die) (core : Fin 4) (src : Nat),
    (src < 512) → (((s.irqD d).coreOf core).curf = src) → 
    ∃ t, exec (.irqEoi rq d core src) s = .next t ∧ ((t.irqD d).coreOf core).curf = 0x3FF ∧ ((t.irqD d).coreOf core).back = true ∧ ((t.irqD d).coreOf core).fastBank = ((s.irqD d).coreOf core).fastBank ∧ ((t.irqD d).coreOf core).cur = ((s.irqD d).coreOf core).cur ∧ ((s.irqD d).sense src = 0 → s.srcLevel d src = true → (t.irqD d).pend.getLsbD src = true) ∧ ((s.irqD d).sense src ≠ 0 → (t.irqD d).pend = (s.irqD d).pend) ∧ t.regs = s.regs ∧ t.out = s.out) ∧
  (∀ (s : State) (d : Die) (core : Fin 4),
    (s.pending = []) → 
    ∃ t, step s = .next t ∧ ((t.irqD d).coreOf core).fastBank = (((s.irqD d).coreOf core).fastBank && !((s.irqD d).coreOf core).back) ∧ (t.irqD d).pend = (s.irqD d).pend ∧ t.regs = s.regs) ∧
  (∀ (s : State) (rq : Requester) (d : Die) (core : Fin 4) (src : Nat),
    (src < 512) → (((s.irqD d).coreOf core).curf ≠ src) → (((s.irqD d).coreOf core).cur = src) → 
    ∃ t, exec (.irqEoi rq d core src) s = .next t ∧ ((t.irqD d).coreOf core).cur = 0x3FF ∧ ((s.irqD d).sense src = 0 → s.srcLevel d src = true → (t.irqD d).pend.getLsbD src = true) ∧ ((s.irqD d).sense src ≠ 0 → (t.irqD d).pend = (s.irqD d).pend) ∧ t.regs = s.regs ∧ t.out = s.out) ∧
  (∀ (s : State) (rq : Requester) (d : Die) (core : Fin 4) (src : Nat),
    (src < 512) → (((s.irqD d).coreOf core).curf ≠ src) → (((s.irqD d).coreOf core).cur ≠ src) → 
    exec (.irqEoi rq d core src) s = .next (s.eventLog (R.IRQ_EVENTS d) 1 (2 + d) 1 0 (writeDetail rq (R.IRQ_Cc_EOI d core) (BitVec.ofNat 32 src)))) ∧
  (∀ (s : State) (rq : Requester) (d : Die) (src : Nat),
    (src < 512) → ((s.irqD d).host.getLsbD src = true) → 
    ∃ t, exec (.hostEoi rq d src) s = .next t ∧ (fld ((s.irqD d).liveOf src) 31 30 = 0 → (t.irqD d).host.getLsbD src = false ∧ ((s.irqD d).sense src = 0 → s.srcLevel d src = true → (t.irqD d).pend.getLsbD src = true)) ∧ (fld ((s.irqD d).liveOf src) 31 30 ≠ 0 → t = s) ∧ t.regs = s.regs ∧ t.out = s.out) ∧
  (∀ (s : State) (rq : Requester) (d : Die) (src : Nat),
    (src < 512) → ((s.irqD d).host.getLsbD src = false) → 
    exec (.hostEoi rq d src) s = .next (s.eventLog (R.IRQ_EVENTS d) 1 (2 + d) 1 0 (writeDetail rq (R.IRQ_HOST_EOI d) (BitVec.ofNat 32 src)))) ∧
  (∀ (s : State) (rq : Requester) (d : Die) (k : Fin 16) (v : Word),
    ∃ t, exec (.irqPendWrite rq d k v) s = .next t ∧ (∀ x < 512, (t.irqD d).pend.getLsbD x = ((s.irqD d).pend.getLsbD x || (decide (x / 32 = k) && bitOf v (x % 32)))) ∧ (∀ x < 512, x / 32 = k → bitOf v (x % 32) = true → t.irqPending d x = true) ∧ t.regs = s.regs ∧ t.out = s.out) ∧
  (∀ (s : State) (rq : Requester) (d : Die) (k : Fin 16) (v : Word),
    ∃ t, exec (.irqPclrWrite rq d k v) s = .next t ∧ (∀ x < 512, x / 32 ≠ k ∨ bitOf v (x % 32) = false → (t.irqD d).pend.getLsbD x = (s.irqD d).pend.getLsbD x) ∧ (∀ x < 512, x / 32 = k → bitOf v (x % 32) = true → ((t.irqD d).pend.getLsbD x = true ↔ (s.irqD d).sense x = 0 ∧ s.srcLevel d x = true ∧ (s.irqD d).inService x = false)) ∧ t.regs = s.regs ∧ t.out = s.out) ∧
  (∀ (s : State) (d : Die) (src : Nat),
    (src < 512) → (bitOf ((s.irqD d).cfgOf src) 28 = true) → (s.irqEligible d src = true) → 
    exec (.irqHostMessage d src) s = .next ((s.setIrq d ((s.irqD d).serve src)).msixSend (fld ((s.irqD d).cfgOf src) 27 22)) ∧ ((s.irqD d).serve src).host.getLsbD src = true ∧ ((s.irqD d).serve src).pend.getLsbD src = false ∧ ((s.irqD d).serve src).liveOf src = (s.irqD d).cfgOf src) ∧
  (∀ (s : State) (d : Die) (src : Nat) (vec : Nat),
    (src < 512) → (bitOf ((s.irqD d).cfgOf src) 28 = true) → (s.irqEligible d src = true) → (fld ((s.irqD d).cfgOf src) 27 22 = vec) → (s.msixMasked vec = false) → (s.viaHead = false) → 
    ∃ t, exec (.irqHostMessage d src) s = .next t ∧ ((t.irqD d).host.getLsbD src = decide ((s.irqD d).sense src = 0)) ∧ ((t.irqD d).holdOf (src / 16)).n > ((s.irqD d).holdOf (src / 16)).n ∧ t.out.length = s.out.length + 1 ∧ t.mem = s.mem ∧ t.regs = s.regs) ∧
  (∀ (s : State) (d : Die) (src : Nat),
    (512 ≤ src ∨ bitOf ((s.irqD d).cfgOf src) 28 = false ∨ s.irqEligible d src = false) → 
    exec (.irqHostMessage d src) s = .next s) ∧
  (∀ (s : State) (rq : Requester) (d : Die) (core : Fin 4) (err : Bool) (slot : Nat) (t : TaskEnt),
    (((s.irqD d).coreOf core).task = some slot) → (s.task (d * 4096 + slot) = some t) → 
    ∃ u, exec (.kdone rq d core err) s = .next u ∧ (u.task (d * 4096 + slot)).map (·.prog) = some (.done err) ∧ ((u.irqD d).coreOf core).task = none ∧ u.regs = s.regs ∧ u.mem = s.mem) ∧
  (∀ (s : State) (rq : Requester) (d : Die) (core : Fin 4) (err : Bool),
    (((s.irqD d).coreOf core).task = none) → 
    exec (.kdone rq d core err) s = .next (s.eventLog (R.IRQ_EVENTS d) 2 (2 + d) 1 0 (writeDetail rq (R.IRQ_Cc_KDONE d core) (BitVec.ofNat 32 err.toNat)))) ∧
  (∀ (s : State) (d : Die) (g : Fin 32),
    ∃ t, exec (.holdoffExpiry d g) s = .next t ∧ ((t.irqD d).holdOf g).run = false ∧ ((t.irqD d).holdOf g).h = ((s.irqD d).holdOf g).h ∧ (∀ x, x ≠ g → (t.irqD d).holdOf x = (s.irqD d).holdOf x) ∧ (t.irqD d).pend = (s.irqD d).pend ∧ t.regs = s.regs) ∧
  (∀ (s : State) (d : Die),
    (s.fnHost 14 = true) → 
    ∃ t, exec (.moderationTick d) s = .next t ∧ (∀ g < 32, (t.irqD d).holdOf g = { (s.irqD d).holdOf g with n := 0 }) ∧ (t.irqD d).pend = (s.irqD d).pend ∧ t.regs = s.regs ∧ t.out = s.out) ∧
  (∀ (s : State) (d : Die) (g : Fin 32) (base top h n : Nat),
    (s.fnHost 14 = false) → (s.regF (R.IRQ_HOLD d g) 15 0 = base) → (max base (s.regF (R.IRQ_HOLD d g) 31 16) = top) → (((s.irqD d).holdOf g).h = h) → (((s.irqD d).holdOf g).n = n) → 
    ∃ t, exec (.moderationTick d) s = .next t ∧ ((t.irqD d).holdOf g).n = 0 ∧ ((t.irqD d).holdOf g).run = ((s.irqD d).holdOf g).run ∧ ((t.irqD d).holdOf g).h = (if s.regF (R.IRQ_MOD_CFG d) 31 16 < n then min top (max 1 (2 * h)) else if n < s.regF (R.IRQ_MOD_CFG d) 15 0 then max base (h / 2) else h) ∧ t.regs = s.regs ∧ t.out = s.out)

/-- R130, R132, R329 to R333, R338, R354. The model's choices: the sweep (log 95 to 98, 273), policy in start-up (log 163), the rail that fails (log 169), records (log 175, 176), helper data (log 294), the lock of the identity store (log 296), the capacity (log 297), failures of HBM_STAGE (log 299), the housekeeping block after RAIL_TIMEOUT (log 301), the count without a valid copy (log 149). A command whose condition fails changes nothing (log 5), and a timer command stands for its elapsed time (log 4). -/
def Obligations.StartUp : Prop :=
  (∀ (s : State) (a : Nat),
    (s.housed = false) → (s.pwr.latched = false) → (s.pwr.aGood = true ∨ s.pwr.bGood = true) → 
    ∃ t, exec (.supplyGood a) s = .next t ∧ t.pwr.rails = true ∧ t.pwr.addr = a % 8 ∧ t.img.stage = 1 ∧ t.reg R.PWR_POWERED = BitVec.ofNat 32 s.pwr.stored ∧ t.mem = s.mem ∧ t.arr = s.arr) ∧
  (∀ (p : PwrSt) (m n : Nat),
    (m < 2 ^ 32) → (n < 2 ^ 32) → (p.storeA = countRec m) → (p.storeB = countRec n ∨ p.storeB = []) → 
    p.stored = if p.storeB = [] then m else max m n) ∧
  (∀ (s : State) (a : Nat),
    (s.housed = true ∨ s.pwr.latched = true ∨ (s.pwr.aGood = false ∧ s.pwr.bGood = false)) → 
    exec (.supplyGood a) s = .next s ∧ exec (.railTimeout a) s = .next s) ∧
  (∀ (s : State) (a : Nat),
    (s.housed = false) → (s.pwr.latched = false) → (s.pwr.aGood = true ∨ s.pwr.bGood = true) → 
    ∃ t, exec (.railTimeout a) s = .next t ∧ t.img.stage = 0xD ∧ t.housed = true ∧ t.reg R.PWR_POWERED = BitVec.ofNat 32 s.pwr.stored ∧ t.reg R.IMG_FAULT = packFields [(24, 0x0B), (16, a % 256)] ∧ t.regB R.IMG_EVENTS 0 = true ∧ t.mem = s.mem ∧ t.pwr = s.pwr) ∧
  (∀ (s : State) (cause i : Nat),
    ∃ t, s.imageFault cause i = t ∧ t.img.stage = 0xC ∧ t.reg R.IMG_FAULT = packFields [(24, cause), (0, i % 65536)] ∧ t.regB R.IMG_EVENTS 0 = true ∧ (∀ l < 18, (t.lnk l).st ≠ .training) ∧ t.mem = s.mem ∧ t.out = s.out) ∧
  (∀ (s : State),
    (s.pwr.rails = true) → (s.img.stage = 1) → 
    exec (.romStage) s = .next (s.toStage 2)) ∧
  (∀ (s : State) (seen : Option (List Byte × List Byte)) (fin : List Byte),
    (s.img.stage = 2) → 
    ∃ u, u = s.modImg (fun i => i.readId seen) ∧
    exec (.identityStage seen fin) s = .next (if idValid u.img.idA = false ∧ idValid u.img.idB = false then u.imageFault 2 0 else (u.modImg (fun i => { i with att := { i.att with finger := fin } })).toStage 3)) ∧
  (∀ (i : ImgSt) (x l : List Byte × List Byte),
    (i.lock = none → (i.readId (some x)).idA = x.1 ∧ (i.readId (some x)).idB = x.2 ∧ (i.readId (some x)).lock = some x) ∧ (i.lock = some l → (i.readId (some x)).lock = some l ∧ ((i.readId (some x)).idA = l.1 ∨ (i.readId (some x)).idA = []) ∧ ((i.readId (some x)).idB = l.2 ∨ (i.readId (some x)).idB = []))) ∧
  (∀ (s : State),
    (s.img.stage = 3) → 
    exec (.sfdpTimeout) s = .next ((s.modImg (fun i => { i with cap := 0 })).imageFault 1 0)) ∧
  (∀ (s u v : State) (img : List Byte) (dev : FlashSeen),
    (s.img.stage = 3) → (((s.modImg (fun i => { i with cap := dev.cap })).when (!dev.fast) (fun s => s.event R.IMG_EVENTS 1)).formSecret dev.helperA dev.helperB = v) → (v.modImg (fun i => { i with cache := if v.img.wrote then v.img.stored else img.take v.img.area }) = u) → 
    exec (.imageStage img dev) s = .next (match u.sigFault u.img.cache with | some c => u.imageFault c 0 | none => u.toStage 4)) ∧
  (∀ (s : State) (a b : List Byte),
    (helperOk a = true → s.formSecret a b = s.modImg (fun i => { i with att := { i.att with finger := [], secret := some (sha256 (Config.corrected i.att.finger a)) } })) ∧ (helperOk a = false → helperOk b = true → s.formSecret a b = s.modImg (fun i => { i with att := { i.att with finger := [], secret := some (sha256 (Config.corrected i.att.finger b)) } })) ∧ (helperOk a = false → helperOk b = false → s.formSecret a b = s.attLost 2)) ∧
  (∀ (s : State) (p : ImgPlain),
    (s.img.stage = 4) → 
    exec (.verifyStage p) s = .next (match contentFault s.img.cache p with | some f => s.imageFault f.1 f.2 | none => (s.takeImage s.img.cache p).toStage 5)) ∧
  (∀ (s : State),
    (s.img.stage = 5) → 
    exec (.firmwareStage) s = .next ((s.loadFirmware s.img.cache).toStage 6)) ∧
  (∀ (s : State),
    (s.img.stage = 6) → (s.recPending = false) → 
    ∃ t, exec (.recordsStage) s = .next t ∧ t.img.stage = 7 ∧ t.img.worked = false ∧ t.mem.hbm = s.mem.hbm ∧ t.regs = s.regs ∧ t.out = s.out) ∧
  (∀ (s : State),
    (s.img.stage = 7) → (s.img.worked = false) → 
    (∀ u, exec (.hbmStage (some (.stack u))) s = .next (s.hardwareFault 0x0A u)) ∧ exec (.hbmStage none) s = .next (((s.loadHbm s.img.cache).modImg (fun i => { i with worked := true })).stageDone)) ∧
  (∀ (s : State) (k : Nat),
    (s.img.stage = 5 ∨ (s.img.stage = 7 ∧ s.img.worked = false)) → 
    exec (.hbmStage (some (.part k))) s = .next (s.imageFault 7 k)) ∧
  (∀ (s : State) (d : Nat),
    (2 ≤ s.img.stage) → (s.img.stage ≤ 0xA) → 
    exec (.hbmStage (some (.die d))) s = .next (s.hardwareFault 0x0B d)) ∧
  (∀ (s : State),
    (s.img.stage = 8) → (s.img.worked = false) → (s.recPending = false) → 
    ∃ t, exec (.linksStage) s = .next t ∧ t.img.stage = 9 ∧ t.mem.hbm = s.mem.hbm ∧ t.regs = s.regs ∧ t.out = s.out) ∧
  (∀ (s : State),
    (s.img.stage = 9) → 
    ((∀ k < 16, (s.kao k).swept = 2 ^ 1632 - 1) → exec (.sweepStage) s = .next (s.sweepEnd.toStage 0xA)) ∧ (∀ k < 16, (s.kao k).swept ≠ 2 ^ 1632 - 1 → exec (.sweepStage) s = .next s)) ∧
  (∀ (s : State) (ms : Nat),
    (s.img.stage = 0xA) → (s.recPending = false) → 
    ∃ t, exec (.finalStage ms) s = .next t ∧ t.img.stage = 0xB ∧ t.ready = true ∧ t.stp.phase = .idle ∧ t.regF R.IMG_STATUS 19 8 = min 4095 ms ∧ t.red.formed = true) ∧
  (∀ (s : State) (seen : Option (List Byte × List Byte)) (fin img : List Byte) (dev : FlashSeen) (p : ImgPlain) (u : Option StartFail) (ms : Nat),
    (s.img.stage = 0xB) → (s.img.worked = false) → 
    exec (.romStage) s = .next s ∧ exec (.identityStage seen fin) s = .next s ∧ exec (.sfdpTimeout) s = .next s ∧ exec (.imageStage img dev) s = .next s ∧ exec (.verifyStage p) s = .next s ∧ exec (.firmwareStage) s = .next s ∧ exec (.recordsStage) s = .next s ∧ exec (.hbmStage u) s = .next s ∧ exec (.linksStage) s = .next s ∧ exec (.sweepStage) s = .next s ∧ exec (.finalStage ms) s = .next s ∧ exec (.recordWrite) s = .next s ∧ exec (.recordModify) s = .next s ∧ exec (.recordPoll) s = .next s ∧ exec (.pollTimeout) s = .next s ∧ exec (.recordDelay) s = .next s) ∧
  (∀ (s : State) (r : InitRec),
    (s.nextInit 1 = some r) → 
    exec (.recordWrite) s = .next ((s.writeBar0 (.kersey 0) r.off (wordN r.val)).recRun r)) ∧
  (∀ (s : State) (r : InitRec) (x : Word × State),
    (s.nextInit 2 = some r) → (s.readBar0 (.kersey 0) r.off = x) → 
    exec (.recordModify) s = .next ((x.2.writeBar0 (.kersey 0) r.off ((x.1 &&& ~~~wordN r.mask) ||| wordN r.val)).recRun r)) ∧
  (∀ (s : State) (r : InitRec) (x : Word × State),
    (s.nextInit 3 = some r) → (s.readBar0 (.kersey 0) r.off = x) → 
    exec (.recordPoll) s = .next (if x.1 &&& wordN r.mask = wordN r.val then x.2.recRun r else x.2) ∧ exec (.pollTimeout) s = .next (s.imageFault 9 r.num)) ∧
  (∀ (s : State) (r : InitRec),
    (s.nextInit 4 = some r) → 
    ∃ t, exec (.recordDelay) s = .next t ∧ t = s.recRun r ∧ t.img.recs = s.img.recs.filter (fun x => decide (x.num ≠ r.num)) ∧ t.mem = s.mem) ∧
  (∀ (s : State) (k : Kaolin) (a : Fin 1632) (seen : Option SweepRead) (reads : List CalRead),
    (s.img.stage = 9) → ((s.kao k).swept.testBit a = false) → 
    ∃ t, exec (.sweepArray k a seen reads) s = .next t ∧ (t.phys k a).readN = (s.phys k a).readN + 8 ∧ (t.phys k a).lastRead = s.time ∧ (t.phys k a).fit.isSome = true ∧ (t.phys k a).reads = [] ∧ (t.kao k).swept = (s.kao k).swept + 2 ^ a.val ∧ t.mem = s.mem ∧ t.regs = s.regs) ∧
  (∀ (s : State) (k : Kaolin) (a : Fin 1632) (reads : List CalRead),
    (s.img.stage = 9) → ((s.kao k).swept.testBit a = false) → 
    ∃ t, exec (.sweepArray k a none reads) s = .next t ∧ (t.phys k a).codes = (s.phys k a).codes ∧ (t.phys k a).record = (s.phys k a).record ∧ (t.phys k a).confirmed = (s.phys k a).confirms) ∧
  (∀ (x : PhysSt) (r : ArrRec),
    (x.record = some r) → 
    x.confirms = (!r.retired && decide (x.codeHash = r.hash))) ∧
  (∀ (s : State) (k : Kaolin) (a : Fin 1632) (reads : List CalRead),
    (s.img.stage = 9) → ((s.kao k).swept.testBit a = false) → ((s.phys k a).record = none) → 
    ∃ t, exec (.sweepArray k a none reads) s = .next t ∧ t.arr.pos = s.arr.pos ∧ (t.phys k a).confirmed = false) ∧
  (∀ (s : State) (k : Kaolin) (a : Fin 1632) (reads : List CalRead) (r : ArrRec),
    (s.img.stage = 9) → ((s.kao k).swept.testBit a = false) → ((s.phys k a).record = some r) → (r.retired = false) → ((s.posMat k r.pos).isSome = true) → 
    ∃ t, exec (.sweepArray k a none reads) s = .next t ∧ (t.pos k r.pos).unconf = !(t.tileConfirms k (a / 17) r.pos) ∧ ((s.phys k a).confirms = true → (t.pos k r.pos).unconf = false) ∧ (∀ p, p ≠ r.pos → t.pos k p = s.pos k p)) ∧
  (∀ (s : State) (k : Kaolin) (a : Fin 1632) (seen : Option SweepRead) (reads : List CalRead),
    (s.img.stage ≠ 9 ∨ (s.kao k).swept.testBit a = true) → 
    exec (.sweepArray k a seen reads) s = .next s)

/-- R340 to R342, R345 to R348, R378. The model's choices: the image area (log 161, 298, 308), IMG_FAULT (log 162), FLASH_DONE (log 170), the pushed length (log 171), leaf copies and reservation (log 172, 174), a lost attestation (log 173), signatures (log 166, 295), a pushed boot without a secret (log 309). A command whose condition fails changes nothing (log 5). -/
def Obligations.PushedImagesAndAttestation : Prop :=
  (∀ (s : State) (rq : Requester),
    (s.img.cmd = none) → (s.img.stage = 0xC) → 
    (∃ t, exec (.bootPushed rq) s = .next t ∧ t.img.cmd = some 1 ∧ t.img.stage = 0xC ∧ t.mem = s.mem ∧ t.regs = s.regs) ∧ (∃ t, exec (.writeImage rq) s = .next t ∧ t.img.cmd = some 3 ∧ t.img.sectors = [] ∧ t.mem = s.mem ∧ t.regs = s.regs) ∧ exec (.verifyPushed rq) s = .next (s.refuseWrite rq R.IMG_CMD 2 0)) ∧
  (∀ (s : State) (rq : Requester),
    (s.img.cmd = none) → (s.img.stage = 0xB) → 
    (∃ t, exec (.verifyPushed rq) s = .next t ∧ t.img.cmd = some 2 ∧ t.mem = s.mem ∧ t.regs = s.regs) ∧ (∃ t, exec (.writeImage rq) s = .next t ∧ t.img.cmd = some 3 ∧ t.mem = s.mem) ∧ exec (.bootPushed rq) s = .next (s.refuseWrite rq R.IMG_CMD 1 0)) ∧
  (∀ (s : State) (rq : Requester),
    (s.img.cmd.isSome = true) → 
    exec (.bootPushed rq) s = .next (s.refuseWrite rq R.IMG_CMD 1 0) ∧ exec (.verifyPushed rq) s = .next (s.refuseWrite rq R.IMG_CMD 2 0) ∧ exec (.writeImage rq) s = .next (s.refuseWrite rq R.IMG_CMD 3 0)) ∧
  (∀ (s : State) (p : ImgPlain) (img : List Byte) (res : Nat),
    (s.pushedImage = img) → (s.imageCheck img p = res) → (s.img.cmd = some 1) → 
    ∃ u, u = (s.modImg (fun i => { i with cmd := none })).setRegF R.IMG_FLASH_STATUS 7 0 res ∧ exec (.pushedImageVerified p) s = .next (if res = 0 then (((u.modImg (fun i => { i with cache := img, pushed := true })).takeImage img p).when (decide (u.img.att.secret = none) && decide (u.img.att.cause = 1)) (fun s => s.attLost 2)).toStage 5 else u)) ∧
  (∀ (s : State) (p : ImgPlain) (img : List Byte) (res : Nat),
    (s.pushedImage = img) → (s.imageCheck img p = res) → (s.img.sectors = []) → 
    (s.img.cmd = some 2 → exec (.pushedImageVerified p) s = .next (s.flashEnd res)) ∧ (s.img.cmd = some 3 → exec (.pushedImageVerified p) s = .next (if res ≠ 0 then s.flashEnd res else if s.img.area < img.length then s.flashEnd (if s.img.cap = 0 then 1 else 3) else (s.eraseArea.modImg (fun i => { i with sectors := sectorOrder ((img.length + 65535) / 65536), again := false })).programSector ((sectorOrder ((img.length + 65535) / 65536)).headD 0) false)) ∧ (s.img.cmd = none → exec (.pushedImageVerified p) s = .next s)) ∧
  (∀ (s : State) (i : Nat) (rest : List Nat) (back : List Byte),
    (s.img.sectors = i :: rest) → 
    ∃ u, u = s.modImg (fun x => { x with flash := SMap.set (fun _ => ([] : List Byte)) x.flash i back }) ∧
    exec (.sectorProgram back) s = .next (if crc32c back = crc32c (s.sectorBytes i) then (match rest with | [] => u.flashEnd 0 | j :: _ => (u.modImg (fun x => { x with sectors := rest, again := false })).programSector j false)
      else if s.img.again then (u.flashEnd 7).log 8 2 2 7 i
      else ((u.modImg (fun x => { x with again := true, flash := SMap.set (fun _ => ([] : List Byte)) x.flash i [] })).log 8 2 0xFF 7 i).programSector i true)) ∧
  (∀ (s : State) (back : List Byte),
    (s.img.sectors = []) → 
    exec (.sectorProgram back) s = .next s) ∧
  (∀ (s : State),
    ∃ t, s.eraseArea = t ∧ t.out = s.out ++ (List.range (s.img.area / 65536)).map (fun i => .imageErase (65536 * i)) ∧ t.img = { s.img with wrote := true, flash := [] } ∧ t.mem = s.mem ∧ t.regs = s.regs) ∧
  (∀ (n : Nat),
    (0 < n) → 
    sectorOrder n = (List.range (n - 1)).map (· + 1) ++ [0]) ∧
  (∀ (s : State) (res : Nat),
    (res < 256) → 
    ∃ t, s.flashEnd res = t ∧ t.img.cmd = none ∧ t.img.sectors = [] ∧ t.regF R.IMG_FLASH_STATUS 7 0 = res ∧ t.regB R.IMG_EVENTS 2 = true ∧ t.mem = s.mem ∧ t.out = s.out) ∧
  (∀ (s : State) (i : Nat) (again : Bool),
    ∃ t, s.programSector i again = t ∧ (65536 * (i + 1) ≤ s.img.area → t.out = s.out ++ (if again then [.imageErase (65536 * i)] else []) ++ [.imageProgram (65536 * i) ((s.pushedImage.drop (65536 * i)).take 65536)]) ∧ (s.img.area < 65536 * (i + 1) → t = s) ∧ t.mem = s.mem ∧ t.regs = s.regs) ∧
  (∀ (s : State) (f1 f2 : Bool) (sq lf : Nat),
    (s.img.att.secret.isSome = true) → (s.img.att.limit ≤ s.img.att.next) → (s.img.att.cause < 4) → (leafOf s.img.att.leafA = some (sq, lf)) → (leafOf s.img.att.leafB = none) → (lf < 33554432) → 
    ∃ t, exec (.leafReservation f1 f2) s = .next t ∧ t.img.att.leafA = s.img.att.leafA ∧ (f1 || f2 → t.img.att.leafB = leafRec (sq + 1) (lf + 256) ∧ t.img.att.next = lf ∧ t.img.att.limit = lf + 256 ∧ t.regs = s.regs) ∧ (¬(f1 || f2) → t.img.att.leafB = [] ∧ t.img.att.avail = false ∧ t.img.att.cause = 4) ∧ t.mem = s.mem) ∧
  (∀ (q l : Nat),
    (q < 2 ^ 32) → (l < 2 ^ 32) → 
    leafOf (leafRec q l) = some (q, l) ∧ (leafRec q l).length = 16) ∧
  (∀ (s : State) (f1 f2 : Bool),
    (s.img.att.secret = none ∨ s.img.att.next < s.img.att.limit ∨ 4 ≤ s.img.att.cause) → 
    exec (.leafReservation f1 f2) s = .next s) ∧
  (∀ (s : State) (sec treeId : List Byte),
    (s.ready = true) → (s.img.att.secret = some sec) → (s.img.att.cause = 1) → 
    exec (.attestationKeyBuild treeId) s = .next (if hssPublic sec treeId = sliceB s.img.idStore 0x170 60 then s.modImg (fun i => { i with att := { i.att with built := true, treeId := treeId, avail := true, cause := 0 } }) else s.attLost 3)) ∧
  (∀ (s : State) (treeId : List Byte),
    (s.ready = false ∨ s.img.att.secret = none ∨ s.img.att.cause ≠ 1) → 
    exec (.attestationKeyBuild treeId) s = .next s) ∧
  (∀ (s : State) (cause : Nat),
    ∃ t, s.attLost cause = t ∧ t.img.att.avail = false ∧ t.img.att.cause = cause ∧ t.img.att.req = none ∧ t.regB R.IMG_EVENTS 5 = true ∧ (s.img.att.req.isSome = true → t.regB R.IMG_EVENTS 4 = true) ∧ t.mem = s.mem ∧ t.out = s.out) ∧
  (∀ (s u : State) (rq : Requester) (v : Word),
    (s.hiWrite rq R.IMG_ATT_REQ 0xFFFFFFFF 0xFFFFFFFF v = u) → 
    exec (.attRequest rq v) s = .next (if u.img.att.avail = true ∧ u.img.att.req = none then u.modImg (fun i => { i with att := { i.att with req := some (u.pair R.IMG_ATT_REQ / 64 * 64) } }) else u.event R.IMG_EVENTS 4)) ∧
  (∀ (s : State) (a : Nat) (body : List Byte),
    (s.img.att.req = some a) → (s.img.att.avail = true) → (s.img.att.next < s.img.att.limit) → (s.mem.badIn a 32 = []) → (s.reportBody (s.hbm a 32) = body) → 
    ∃ t, exec (.reportSigned) s = .next t ∧ (∀ i < body.length, a + 64 + i < hbmSize → t.mem.byte (a + 64 + i) = body.getD i 0) ∧ (∀ i < (hssSignature (s.img.att.secret.getD []) s.img.att.treeId s.img.att.next body).length, a + 64 + body.length + i < hbmSize → t.mem.byte (a + 64 + body.length + i) = (hssSignature (s.img.att.secret.getD []) s.img.att.treeId s.img.att.next body).getD i 0) ∧ (∀ x, x < a + 64 → t.mem.byte x = s.mem.byte x) ∧ t.img.att.req = none ∧ t.img.att.next = s.img.att.next + 1 ∧ t.regB R.IMG_EVENTS 3 = true ∧ t.out = s.out) ∧
  (∀ (s : State),
    (s.img.att.req = none ∨ s.img.att.avail = false ∨ s.img.att.limit ≤ s.img.att.next) → 
    exec (.reportSigned) s = .next s)

/-- R349 to R365, R412, R414; log entries 138, 147, 149 to 151, 153, 269, 300 to 303. Also log 144 (bridge recovery), 148 (v = z), 152 (outputs before records), 145 (the log entry of a switch-over). A command whose condition fails changes nothing (log 5), and a timer command stands for its elapsed time (log 4). -/
def Obligations.InputsAndHousekeeping : Prop :=
  (∀ (s : State) (b : Bool),
    (s.pwr.good s.pwr.activeB = true) → (s.pwr.activeB ≠ b) → 
    exec (.inputGood b) s = .next (s.modPwr (fun p => p.setGood b true))) ∧
  (∀ (s : State) (b : Bool),
    (s.pwr.activeB = b) → (s.housed = true) → 
    ∃ t, exec (.inputGood b) s = .next t ∧ t.pwr.good b = true ∧ t.pwr.activeB = b ∧ t.pwr.holdup = false ∧ t.mem = s.mem ∧ t.regs = s.regs) ∧
  (∀ (s : State) (b : Bool),
    (s.pwr.activeB = !b) → (s.pwr.good (!b) = false) → (s.housed = true) → 
    ∃ t, exec (.inputGood b) s = .next t ∧ t.pwr.good b = true ∧ t.pwr.activeB = b ∧ t.pwr.holdup = false ∧ t.regB R.PWR_EVENTS 1 = true ∧ t.reg R.PWR_SWITCH_CNT = BitVec.ofNat 32 (min (2 ^ 32 - 1) ((s.reg R.PWR_SWITCH_CNT).toNat + 1)) ∧ t.mem = s.mem) ∧
  (∀ (s : State) (b : Bool),
    (s.pwr.good b = true) → (s.pwr.activeB = b) → (s.pwr.good (!b) = true) → (s.housed = true) → 
    ∃ t, exec (.inputLoss b) s = .next t ∧ t.pwr.good b = false ∧ t.pwr.activeB = (!b) ∧ t.regB R.PWR_EVENTS 0 = true ∧ t.regB R.PWR_EVENTS 1 = true ∧ t.mem = s.mem) ∧
  (∀ (s : State) (b : Bool),
    (s.pwr.good b = false) → 
    exec (.inputLoss b) s = .next s) ∧
  (∀ (s : State),
    (s.pwr.aGood = false) → (s.pwr.bGood = false) → (s.pwr.holdup = false) → (s.housed = true) → 
    ∃ t, exec (.holdup) s = .next t ∧ t.pwr.holdup = true ∧ (if s.pwr.olderA = true then t.pwr.storeA = countRec (s.reg R.PWR_POWERED).toNat ∧ t.pwr.storeB = s.pwr.storeB else t.pwr.storeB = countRec (s.reg R.PWR_POWERED).toNat ∧ t.pwr.storeA = s.pwr.storeA) ∧ t.regB R.PWR_EVENTS 2 = true ∧ t.mem = s.mem) ∧
  (∀ (s : State),
    (s.pwr.aGood = true ∨ s.pwr.bGood = true ∨ s.pwr.holdup = true ∨ s.housed = false) → 
    exec (.holdup) s = .next s) ∧
  (∀ (s : State) (l : Bool),
    ∃ t, s.powerOff l = t ∧ t.pwr.rails = false ∧ t.pwr.latched = l ∧ t.thermPin = l ∧ t.pwr.storeA = s.pwr.storeA ∧ t.pwr.storeB = s.pwr.storeB ∧ t.img.stage = 1 ∧ t.img.idA = s.img.idA ∧ t.mem = State.reset.mem ∧ (∀ a, t.reg a = State.reset.reg a)) ∧
  (∀ (s : State) (l : Bool) (k a : Nat),
    ((s.arr.phys.map (·.1)).Nodup) → 
    ((s.powerOff l).phys k a).codes = (s.phys k a).codes ∧ ((s.powerOff l).phys k a).record = (s.phys k a).record) ∧
  (∀ (s : State),
    exec (.holdupExhausted) s = .next (if s.pwr.holdup then s.powerOff (s.pwr.latched || s.pwr.tripping) else s) ∧ exec (.tripPowerOff) s = .next (if s.pwr.tripping then s.powerOff true else s) ∧ exec (.tripLatchRelease) s = .next (if s.pwr.aGood || s.pwr.bGood then s else s.modPwr (fun p => { p with latched := false, therm := p.tripping && p.therm }))) ∧
  (∀ (s : State),
    (s.fnHost 9 = false) → (s.pwr.activeB = true) → (s.pwr.aGood = true) → (s.pwr.unstable = false) → ((s.pwr.returns.filter (fun t => decide (s.time < t + 600000000000))).length < 7) → 
    ∃ t, exec (.returnToA) s = .next t ∧ t.pwr.activeB = false ∧ t.pwr.unstable = false ∧ t.regB R.PWR_EVENTS 1 = true ∧ t.mem = s.mem) ∧
  (∀ (s : State),
    (s.fnHost 9 = true ∨ s.pwr.activeB = false ∨ s.pwr.aGood = false ∨ s.pwr.unstable = true) → 
    exec (.returnToA) s = .next s) ∧
  (∀ (s : State) (rq : Requester),
    (s.fnHost 9 = true) → 
    exec (.selectA rq) s = .next (if s.pwr.aGood then (if s.pwr.activeB then s.switchTo false 3 else s) else (s.refuseBit rq R.PWR_CMD 1 2 3).pwrEvent 3) ∧ exec (.selectB rq) s = .next (if s.pwr.bGood then (if s.pwr.activeB then s else s.switchTo true 3) else (s.refuseBit rq R.PWR_CMD 2 2 3).pwrEvent 3)) ∧
  (∀ (s : State) (rq : Requester),
    (s.fnHost 9 = false) → 
    exec (.selectA rq) s = .next (s.refuseWrite rq R.PWR_CMD 1 1) ∧ exec (.selectB rq) s = .next (s.refuseWrite rq R.PWR_CMD 2 1)) ∧
  (∀ (s : State) (rq : Requester),
    ∃ t, exec (.clearUnstable rq) s = .next t ∧ t.pwr.unstable = false ∧ t.pwr.returns = [] ∧ t.regB R.PWR_EVENTS 4 = false ∧ (∀ a, a ≠ R.PWR_EVENTS → t.reg a = s.reg a) ∧ t.mem = s.mem) ∧
  (∀ (s : State),
    (s.pwr.rails = true) → 
    ∃ t, exec (.poweredSecond) s = .next t ∧ t.reg R.PWR_POWERED = s.reg R.PWR_POWERED + 1 ∧ t.pwr.sinceSave = s.pwr.sinceSave + 1 ∧ (∀ a, a ≠ R.PWR_POWERED → t.reg a = s.reg a) ∧ t.mem = s.mem) ∧
  (∀ (s : State),
    (s.pwr.rails = true) → (3600 ≤ s.pwr.sinceSave) → 
    ∃ t, exec (.poweredCountSave true) s = .next t ∧ (if s.pwr.olderA = true then t.pwr.storeA = countRec (s.reg R.PWR_POWERED).toNat ∧ t.pwr.storeB = s.pwr.storeB else t.pwr.storeB = countRec (s.reg R.PWR_POWERED).toNat ∧ t.pwr.storeA = s.pwr.storeA) ∧ t.pwr.sinceSave = 0 ∧ t.regs = s.regs ∧ t.mem = s.mem) ∧
  (∀ (n m : Nat) (p : PwrSt),
    (n < 2 ^ 32) → (m < 2 ^ 32) → (p.storeB = countRec m) → 
    countOf (countRec n) = some n ∧ (p.storeA = countRec n → (p.olderA = true ↔ n ≤ m)) ∧ (p.storeA = [] → p.olderA = true)) ∧
  (∀ (s : State) (ok : Bool),
    (s.pwr.rails = false ∨ s.pwr.sinceSave < 3600) → 
    exec (.poweredCountSave ok) s = .next s) ∧
  (∀ (s : State) (raw : Int),
    (s.softDue = none) → 
    exec (.hkaConversion raw) s = .next (s.scanResult raw)) ∧
  (∀ (s : State) (raw : Int) (c : ConvReq),
    (s.softDue = some c) → 
    ∃ t, exec (.hkaConversion raw) s = .next t ∧ t.pwr.valid = true ∧ t.pwr.data.1 = c.chan ∧ t.pwr.data.2.1 = c.pos ∧ t.pwr.swLast = true ∧ t.pwr.conv = (if s.pwr.convNext.isSome then s.pwr.convNext else if c.left ≤ 1 then none else some { c with left := c.left - 1, due := s.time + c.interval * 1000 }) ∧ t.pwr.convNext = none ∧ t.pwr.meas = s.pwr.meas ∧ t.mem = s.mem) ∧
  (∀ (s : State) (raw : Int),
    ∃ t, s.scanResult raw = t ∧ t.pwr.chan = (s.pwr.chan + 1) % 16 ∧ t.pwr.round = (if s.pwr.chan = 15 then s.pwr.round + 1 else s.pwr.round) ∧ t.mem = s.mem ∧ t.out = s.out) ∧
  (∀ (s : State) (rq : Requester) (v : Word),
    ∃ t, exec (.hkaConvWrite rq v) s = .next t ∧ (∃ c : ConvReq, (if s.softDue.isSome then t.pwr.convNext = some c ∧ t.pwr.conv = s.pwr.conv else t.pwr.conv = some c ∧ t.pwr.convNext = none) ∧ c.chan = fld v 3 0 ∧ c.left = fld v 31 24 + 1 ∧ c.interval = fld v 23 16 ∧ c.due = s.time ∧ c.pos < max 1 (posCount (fld v 3 0))) ∧ t.regs = s.regs ∧ t.mem = s.mem) ∧
  (∀ (s : State) (rq : Requester),
    ∃ t, exec (.hkaDataRead rq) s = .next t ∧ t.out = s.out ++ [.reply rq R.HKA_DATA (s.view R.HKA_DATA)] ∧ t.pwr.valid = false ∧ t.pwr.ovr = false ∧ t.pwr.data = s.pwr.data ∧ t.regs = s.regs ∧ t.mem = s.mem) ∧
  (∀ (s : State) (ch : Nat),
    (4 ≤ SMap.get (fun _ => 0) s.pwr.full ch) → (s.pwr.faulty.contains ch = false) → 
    ∃ t, exec (.sensorFault ch) s = .next t ∧ t.pwr.faulty = s.pwr.faulty ++ [ch] ∧ t.regB R.PWR_EVENTS 9 = true ∧ t.mem = s.mem) ∧
  (∀ (s : State) (ch : Nat),
    (SMap.get (fun _ => 0) s.pwr.full ch < 4 ∨ s.pwr.faulty.contains ch = true) → 
    exec (.sensorFault ch) s = .next s) ∧
  (∀ (s : State) (ch pos : Nat),
    (s.pwr.tripping = false) → 
    ∃ t, s.trip ch pos = t ∧ t.pwr.tripping = true ∧ t.pwr.therm = true ∧ t.pwr.dutyOf 0 = 4 ∧ t.pwr.dutyOf 1 = 4 ∧ (∀ k < 16, t.regB (R.ARR_CTRL k) 0 = false) ∧ t.thermPin = true ∧ t.regB R.PWR_EVENTS 7 = true ∧ t.regB R.PWR_EVENTS 5 = true ∧ t.mem = s.mem) ∧
  (∀ (s : State),
    (s.housed = false ∨ s.pwr.tripping = true) → 
    exec (.governorLoop) s = .next s) ∧
  (∀ (s : State) (k d : Nat),
    (s.housed = true) → (s.pwr.tripping = false) → (∀ x, SMap.get (fun _ => 768) s.pwr.tcap x ≤ 768 ∧ 1 ≤ SMap.get (fun _ => 768) s.pwr.tcap x) → (s.pwr.pcap ≤ 768 ∧ 1 ≤ s.pwr.pcap) → (k < 16) → (d < 2) → 
    ∃ t, exec (.governorLoop) s = .next t ∧ 1 ≤ (t.kao k).loopCap ∧ (t.kao k).loopCap ≤ 768 ∧ t.pwr.dutyOf d ≤ t.pwr.pduty ∧ t.mem = s.mem ∧ t.stp = s.stp ∧ t.out = s.out) ∧
  (∀ (s : State) (o : Nat),
    s.pwmPin o = (if s.housed = false then none else some (if s.regB (R.PWR_PWM_CFG o) 29 = true then 1023 - s.pwmDuty o else s.pwmDuty o)) ∧ (s.pwr.holdup = true ∨ s.pwr.tripping = true ∨ s.pwr.pwmSet.contains o = false → s.pwmDuty o = s.pwmMax o) ∧ (s.pwr.holdup = false → s.pwr.tripping = false → s.pwr.pwmSet.contains o = true → s.regF (R.PWR_PWM_CFG o) 31 30 = 3 → s.pwmDuty o = s.regF (R.PWR_PWM_CFG o) 9 0)) ∧
  (∀ (s : State) (o : Nat) (t : Int) (lo hi : Nat),
    (lo = 16 * s.regF (R.PWR_PWM_CURVE o) 31 24) → (hi = 16 * s.regF (R.PWR_PWM_CURVE o) 23 16) → 
    (hi ≤ lo ∨ (hi : Int) ≤ t → s.pwmCurve o t = s.pwmMax o) ∧ (lo < hi → t ≤ lo → s.pwmCurve o t = 4 * s.regF (R.PWR_PWM_CURVE o) 15 8))

/-- R366, R386; log entries 139 to 142. The PEC byte is left open here. A command whose condition fails changes nothing (log 5), and a timer command stands for its elapsed time (log 4). -/
def Obligations.SmbusTelemetry : Prop :=
  (∀ (s : State),
    (s.smbOn = true) → 
    ∃ t, exec (.smbStatusRead) s = .next t ∧ (∃ pec : Byte, t.out = s.out ++ [.smb (leBytes 2 s.smbStatus ++ [pec])]) ∧ t.pwr.smbCmd = 0x00 ∧ t.mem = s.mem ∧ t.regs = s.regs) ∧
  (∀ (s : State),
    (s.smbOn = true) → 
    ∃ t, exec (.smbInputPowerRead) s = .next t ∧ (∃ pec : Byte, t.out = s.out ++ [.smb (smbWord (s.powerCode * 256 / 1000000) ++ [pec])]) ∧ t.pwr.smbCmd = 0x01 ∧ t.mem = s.mem ∧ t.regs = s.regs) ∧
  (∀ (s : State),
    (s.smbOn = true) → 
    ∃ t, exec (.smbInputAVoltageRead) s = .next t ∧ (∃ pec : Byte, t.out = s.out ++ [.smb (smbWord (s.meas 1 0 * 16 / 10) ++ [pec])]) ∧ t.pwr.smbCmd = 0x02 ∧ t.mem = s.mem ∧ t.regs = s.regs) ∧
  (∀ (s : State),
    (s.smbOn = true) → 
    ∃ t, exec (.smbInputBVoltageRead) s = .next t ∧ (∃ pec : Byte, t.out = s.out ++ [.smb (smbWord (s.meas 2 0 * 16 / 10) ++ [pec])]) ∧ t.pwr.smbCmd = 0x03 ∧ t.mem = s.mem ∧ t.regs = s.regs) ∧
  (∀ (s : State),
    (s.smbOn = true) → 
    ∃ t, exec (.smbInputCurrentRead) s = .next t ∧ (∃ pec : Byte, t.out = s.out ++ [.smb (smbWord (s.meas 3 0 * 16 / 10) ++ [pec])]) ∧ t.pwr.smbCmd = 0x04 ∧ t.mem = s.mem ∧ t.regs = s.regs) ∧
  (∀ (s : State),
    (s.smbOn = true) → 
    ∃ t, exec (.smbHottestDieRead) s = .next t ∧ (∃ pec : Byte, t.out = s.out ++ [.smb (smbWord (10 * s.hottest / 16 - 640) ++ [pec])]) ∧ t.pwr.smbCmd = 0x05 ∧ t.mem = s.mem ∧ t.regs = s.regs) ∧
  (∀ (s : State),
    (s.smbOn = true) → 
    ∃ t, exec (.smbCoolantInletRead) s = .next t ∧ (∃ pec : Byte, t.out = s.out ++ [.smb (smbWord (250 + 10 * s.meas 9 0 / 4) ++ [pec])]) ∧ t.pwr.smbCmd = 0x06 ∧ t.mem = s.mem ∧ t.regs = s.regs) ∧
  (∀ (s : State),
    (s.smbOn = true) → 
    ∃ t, exec (.smbCoolantOutletRead) s = .next t ∧ (∃ pec : Byte, t.out = s.out ++ [.smb (smbWord (250 + 10 * s.meas 10 0 / 4) ++ [pec])]) ∧ t.pwr.smbCmd = 0x07 ∧ t.mem = s.mem ∧ t.regs = s.regs) ∧
  (∀ (s : State),
    (s.smbOn = true) → 
    ∃ t, exec (.smbPwm0DutyRead) s = .next t ∧ (∃ pec : Byte, t.out = s.out ++ [.smb (leBytes 2 (s.pwmDuty 0) ++ [pec])]) ∧ t.pwr.smbCmd = 0x08 ∧ t.mem = s.mem ∧ t.regs = s.regs) ∧
  (∀ (s : State),
    (s.smbOn = true) → 
    ∃ t, exec (.smbPwm1DutyRead) s = .next t ∧ (∃ pec : Byte, t.out = s.out ++ [.smb (leBytes 2 (s.pwmDuty 1) ++ [pec])]) ∧ t.pwr.smbCmd = 0x09 ∧ t.mem = s.mem ∧ t.regs = s.regs) ∧
  (∀ (s : State),
    (s.smbOn = true) → 
    ∃ t, exec (.smbEventsRead) s = .next t ∧ (∃ pec : Byte, t.out = s.out ++ [.smb (leBytes 2 (s.reg R.PWR_EVENTS).toNat ++ [pec])]) ∧ t.pwr.smbCmd = 0x0A ∧ t.mem = s.mem ∧ t.regs = s.regs) ∧
  (∀ (s : State),
    (s.smbOn = true) → 
    ∃ t, exec (.smbTemperaturesRead) s = .next t ∧ (∃ pec : Byte, t.out = s.out ++ [.smb (smbBlock ((List.range 16).flatMap (fun i => smbWord (tenths (s.meas 7 i))) ++ (List.range 16).flatMap (fun i => smbWord (tenths (s.meas 8 i)))) ++ [pec])]) ∧ t.pwr.smbCmd = 0x20 ∧ t.mem = s.mem ∧ t.regs = s.regs) ∧
  (∀ (s : State),
    (s.smbOn = true) → 
    ∃ t, exec (.smbIdentityRead) s = .next t ∧ (∃ pec : Byte, t.out = s.out ++ [.smb (smbBlock (sliceB s.img.idStore 0x10 16 ++ sliceB s.img.idStore 4 8) ++ [pec])]) ∧ t.pwr.smbCmd = 0x21 ∧ t.mem = s.mem ∧ t.regs = s.regs) ∧
  (∀ (s : State),
    (s.smbOn = true) → (s.alertPin = true) → 
    ∃ t, exec (.smbAlertResponse) s = .next t ∧ (∃ pec : Byte, t.out = s.out ++ [.smb [byteOf s.pwr.smbAddr, pec]]) ∧ t.alertPin = false ∧ t.mem = s.mem ∧ t.regs = s.regs) ∧
  (∀ (s : State),
    (s.smbOn = false ∨ s.alertPin = false) → 
    exec (.smbAlertResponse) s = .next s) ∧
  (∀ (s : State) (code : Nat) (pec : Bool),
    (s.smbOn = true) → (s.err.queue.length < 64) → 
    ∃ t, exec (.smbInvalidCommand code pec) s = .next t ∧ t.out = s.out ++ [.smbNack] ∧ t.pwr.smbPec = s.pwr.smbPec + (if pec then 1 else 0) ∧ t.err.queue = s.err.queue ++ [⟨s.time, 0x16, 2, 0xFF, if pec then 2 else 1, code % 256⟩] ∧ t.mem = s.mem ∧ t.regs = s.regs) ∧
  (∀ (s : State),
    (s.smbOn = true) → (s.err.queue.length < 64) → 
    ∃ t, exec (.smbClkLowTimeout) s = .next t ∧ t.pwr.smbRel = s.pwr.smbRel + 1 ∧ t.err.queue = s.err.queue ++ [⟨s.time, 0x16, 2, 0xFF, 0, 0⟩] ∧ t.mem = s.mem ∧ t.regs = s.regs) ∧
  (∀ (s : State) (code : Nat) (pec : Bool),
    (s.smbOn = false) → 
    exec (.smbInvalidCommand code pec) s = .next s ∧ exec (.smbClkLowTimeout) s = .next s ∧ exec (.smbStatusRead) s = .next s ∧ exec (.smbInputPowerRead) s = .next s ∧ exec (.smbInputAVoltageRead) s = .next s ∧ exec (.smbInputBVoltageRead) s = .next s ∧ exec (.smbInputCurrentRead) s = .next s ∧ exec (.smbHottestDieRead) s = .next s ∧ exec (.smbCoolantInletRead) s = .next s ∧ exec (.smbCoolantOutletRead) s = .next s ∧ exec (.smbPwm0DutyRead) s = .next s ∧ exec (.smbPwm1DutyRead) s = .next s ∧ exec (.smbEventsRead) s = .next s ∧ exec (.smbTemperaturesRead) s = .next s ∧ exec (.smbIdentityRead) s = .next s)

/-- R368 to R371, R373 to R375, R379 to R382, R385; log entries 155, 268, 284. Also log 43 (lost claim), 45 (classes), 154 (capture number), 156 (words in progress), 187 (LEN). A command whose condition fails changes nothing (log 5), and a timer command stands for its elapsed time (log 4). -/
def Obligations.SnapshotsChecksAndLog : Prop :=
  (∀ (s : State) (rq : Requester) (v : Word),
    exec (.snpTrigFire rq v) s = .next (if bitOf v 0 then s.raiseTrig (if rq = .host then 0x01 else 0x02) (if bitOf v 1 then s.time + s.leadOf (bitOf v 2) else s.pair R.SNP_TRIG_T) (bitOf v 2) else s)) ∧
  (∀ (s : State) (e : Nat),
    exec (.captIn e) s = .next (s.raiseTrig 0x03 (e + s.leadOf (s.regB R.SNP_CTRL 1)) (s.regB R.SNP_CTRL 1))) ∧
  (∀ (s : State) (cls t : Nat),
    (s.regB R.SNP_CTRL 0 = true) → (s.snp.queue = []) → 
    ∃ u, s.raiseTrig cls t false = u ∧ u.snp.queue = [{ t := t, cls := cls, origin := s.me, num := s.snp.num, late := decide (t < s.time) }] ∧ u.snp.num = (s.snp.num + 1) % 256 ∧ u.mem = s.mem ∧ u.out = s.out) ∧
  (∀ (s u v : State) (cls t : Nat) (f : Bool),
    ((s.modSnp (fun p => { p with num := (s.snp.num + 1) % 256 })).modEzl (fun e => { e with seen := SMap.set (fun _ => none) e.seen s.me (some s.snp.num) }) = u) → ((if f = true then u.flood none ⟨5, 0, s.me, 0xFF, TrigFrame.bytes ⟨t, s.me, s.snp.num, cls⟩⟩ else u) = v) → 
    s.raiseTrig cls t f = v.queueTrig { t := t, cls := cls, origin := v.me, num := s.snp.num }) ∧
  (∀ (s : State) (x : Trig),
    (s.regB R.SNP_CTRL 0 = false) → 
    s.queueTrig x = s ∧ s.snpOff.snp.queue = [] ∧ s.snpOff.snp.captOut = false ∧ (∀ lat, exec (.capture lat) s = .next s)) ∧
  (∀ (t i : Nat) (lat : List Nat),
    (latchEdges t lat).length = snapOrder.length ∧ (i < snapOrder.length → 4 * t ≤ (latchEdges t lat).getD i 0 ∧ (latchEdges t lat).getD i 0 ≤ 4 * t + latchBound (snapOrder.getD i (0, 0, 0)).1)) ∧
  (∀ (s : State) (lat : List Nat) (t : Trig) (rest : List Trig),
    (s.regB R.SNP_CTRL 0 = true) → (s.snp.queue = t :: rest) → (t.t ≤ s.time) → (s.bankTaken ((s.reg R.SNP_SEQ).toNat % 2) = false) → 
    ∃ u, exec (.capture lat) s = .next u ∧ u.snp.queue = rest ∧ (u.bank ((s.reg R.SNP_SEQ).toNat % 2)).latched = true ∧ (u.bank ((s.reg R.SNP_SEQ).toNat % 2)).words = s.snapAll ∧ (u.bank ((s.reg R.SNP_SEQ).toNat % 2)).lat = latchEdges (if t.late then s.time else t.t) lat ∧ (u.bank ((s.reg R.SNP_SEQ).toNat % 2)).trig = t ∧ (u.bank ((s.reg R.SNP_SEQ).toNat % 2)).seq = (s.reg R.SNP_SEQ).toNat ∧ u.reg R.SNP_SEQ = s.reg R.SNP_SEQ + 1 ∧ u.mem = s.mem ∧ u.out = s.out) ∧
  (∀ (s : State) (lat : List Nat) (t : Trig) (rest : List Trig),
    (s.regB R.SNP_CTRL 0 = true) → (s.snp.queue = t :: rest) → (t.t ≤ s.time) → (s.bankTaken ((s.reg R.SNP_SEQ).toNat % 2) = true) → 
    ∃ u, exec (.capture lat) s = .next u ∧ u.snp.queue = rest ∧ u.snp.banks = s.snp.banks ∧ u.regB R.SNP_EVENTS 1 = true ∧ u.reg R.SNP_SEQ = s.reg R.SNP_SEQ + 1 ∧ u.mem = s.mem) ∧
  (∀ (s : State) (lat : List Nat),
    (s.snp.queue = [] ∨ ∃ t rest, s.snp.queue = t :: rest ∧ s.time < t.t) → 
    exec (.capture lat) s = .next s) ∧
  (∀ (s : State),
    (s.regB R.SNP_CTRL 4 = false) → 
    s.freeView.snp.view = s.newestBank ∧ s.freeView.snp.banks = s.snp.banks ∧ s.freeView.regs = s.regs) ∧
  (∀ (s : State),
    ∃ t, exec (.captOutPulseEnd) s = .next t ∧ t.snp.captOut = false ∧ t.snp.banks = s.snp.banks ∧ t.regs = s.regs ∧ t.mem = s.mem) ∧
  (∀ (s : State),
    (s.drainNext = none) → 
    exec (.drain) s = .next s) ∧
  (∀ (s : State) (b wr sz : Nat) (x : Bank) (recs : List Byte),
    (s.drainNext = some b) → (s.bank b = x) → (s.snapRecords x b = recs) → (s.snpRing = sz) → ((s.reg R.SNP_RING_WR).toNat = wr) → 
    exec (.drain) s = .next (if sz = 0 ∨ ((s.reg R.SNP_RING_RD).toNat + 2 * sz - wr - 1) % sz < recs.length then ((s.setBank b { x with busy := false }).event R.SNP_EVENTS 3).incReg R.SNP_MISS_CNT 1 else (((s.setBank b { x with busy := false }).ringWrite wr recs).setRegN R.SNP_RING_WR ((wr + recs.length) % sz)).event R.SNP_EVENTS 0)) ∧
  (∀ (s : State) (rq : Requester) (v : Word),
    (s.draining = true) → 
    exec (.snpRingSizeWrite rq v) s = .next (s.refuseWrite rq R.SNP_RING_SIZE v 0)) ∧
  (∀ (s : State) (rq : Requester) (v : Word),
    (s.draining = false) → 
    ∃ t, exec (.snpRingSizeWrite rq v) s = .next t ∧ t.regF R.SNP_RING_SIZE 15 0 = fld v 15 0 ∧ t.reg R.SNP_RING_WR = 0 ∧ t.reg R.SNP_RING_RD = 0 ∧ t.mem = s.mem ∧ t.snp = s.snp) ∧
  (∀ (s : State) (rq : Requester) (u : Fin 16) (len : Nat),
    ((s.chkU u).owner = none ∨ (s.chkU u).owner = some rq) → 
    ∃ t, exec (.chkClaim rq u len) s = .next t ∧ (t.chkU u).owner = some rq ∧ (t.chkU u).value = (s.chkU u).value ∧ (t.chkU u).len = (if 1 ≤ len ∧ len ≤ 4 then len else 4) ∧ (∀ x, x ≠ u → t.chkU x = s.chkU x) ∧ t.regs = s.regs ∧ t.mem = s.mem) ∧
  (∀ (s : State) (rq : Requester) (u : Fin 16) (len : Nat),
    ((s.chkU u).owner ≠ none) → ((s.chkU u).owner ≠ some rq) → 
    exec (.chkClaim rq u len) s = .next s) ∧
  (∀ (s : State) (rq : Requester) (u : Fin 16) (len : Nat) (v : Word) (c : ChkUnit),
    (s.chkU u = c) → (c.owner = some rq) → 
    exec (.chkRelease rq u len) s = .next (s.setChk u { c with owner := none, len := chkLen len }) ∧ exec (.chkInit rq u len) s = .next (s.setChk u { c with value := 0xFFFFFFFF, len := chkLen len }) ∧ exec (.chkDataWrite rq u v) s = .next (s.setChk u { c with value := crcFeed c.value (leBytes c.len v.toNat), len := 4 }) ∧ exec (.chkValueWrite rq u v) s = .next (s.setChk u { c with value := v.toNat })) ∧
  (∀ (s : State) (rq : Requester) (u : Fin 16) (len : Nat) (v : Word),
    ((s.chkU u).owner ≠ some rq) → 
    exec (.chkRelease rq u len) s = .next s.chkForeign ∧ exec (.chkInit rq u len) s = .next s.chkForeign ∧ exec (.chkDataWrite rq u v) s = .next s.chkForeign ∧ exec (.chkValueWrite rq u v) s = .next s.chkForeign) ∧
  (∀ (v : Nat) (a b : List Byte),
    crcFeed (crcFeed v a) b = crcFeed v (a ++ b)) ∧
  (∀ (s : State),
    (s.err.queue = []) → 
    exec (.errorLogWrite) s = .next s) ∧
  (∀ (s : State) (e : LogEnt) (rest : List LogEnt) (n : Nat),
    (s.err.queue = e :: rest) → (s.fnHost 11 = true) → ((s.reg R.ERR_WR_SEQ).toNat = n) → 
    ∃ t, exec (.errorLogWrite) s = .next t ∧ t.err.queue = rest ∧ SMap.get (fun _ => 0) t.err.ring (n % 1024) = ofLe (LogEnt.bytes e n) ∧ t.reg R.ERR_WR_SEQ = s.reg R.ERR_WR_SEQ + 1 ∧ (∀ i, i ≠ n % 1024 → SMap.get (fun _ => 0) t.err.ring i = SMap.get (fun _ => 0) s.err.ring i) ∧ t.mem = s.mem ∧ t.out = s.out)
end

