-- ==== Sys2Proof/Laws/FrameBase.lean ====
section
/-! SUPPORT. What the operations and meanings leave as it was: of each, every field of the state that it never changes (the operations that every family shares first).  A lemma X_frame is a conjunction over the fields; a proof brings it in as a
hypothesis and gives that to simp. -/

set_option linter.unusedSimpArgs false
set_option linter.unusedTactic false
set_option linter.unnecessarySeqFocus false
set_option linter.unreachableTactic false
set_option linter.unusedVariables false

namespace Sys2Proof.Machine

@[simp] theorem State.foldl_regs {α : Type} (f : State → α → State) (h : ∀ s x, (f s x).regs = s.regs) (l : List α) (s : State) : (l.foldl f s).regs = s.regs := by
  induction l generalizing s with
  | nil => rfl
  | cons x l ih => simp only [List.foldl_cons, ih, h]

theorem State.foldl_proj_regs {α β : Type} (π : β → State) (f : β → α → β) (h : ∀ a x, (π (f a x)).regs = (π a).regs) (l : List α) (a : β) :
    (π (l.foldl f a)).regs = (π a).regs := by
  induction l generalizing a with
  | nil => rfl
  | cons x l ih => simp only [List.foldl_cons, ih, h]

@[simp] theorem State.ite_regs (c : Prop) [Decidable c] (a b : State) : (if c then a else b).regs = if c then a.regs else b.regs := by split <;> rfl


@[simp] theorem State.foldl_pairLo {α : Type} (f : State → α → State) (h : ∀ s x, (f s x).pairLo = s.pairLo) (l : List α) (s : State) : (l.foldl f s).pairLo = s.pairLo := by
  induction l generalizing s with
  | nil => rfl
  | cons x l ih => simp only [List.foldl_cons, ih, h]

theorem State.foldl_proj_pairLo {α β : Type} (π : β → State) (f : β → α → β) (h : ∀ a x, (π (f a x)).pairLo = (π a).pairLo) (l : List α) (a : β) :
    (π (l.foldl f a)).pairLo = (π a).pairLo := by
  induction l generalizing a with
  | nil => rfl
  | cons x l ih => simp only [List.foldl_cons, ih, h]

@[simp] theorem State.ite_pairLo (c : Prop) [Decidable c] (a b : State) : (if c then a else b).pairLo = if c then a.pairLo else b.pairLo := by split <;> rfl


@[simp] theorem State.foldl_pairCap {α : Type} (f : State → α → State) (h : ∀ s x, (f s x).pairCap = s.pairCap) (l : List α) (s : State) : (l.foldl f s).pairCap = s.pairCap := by
  induction l generalizing s with
  | nil => rfl
  | cons x l ih => simp only [List.foldl_cons, ih, h]

theorem State.foldl_proj_pairCap {α β : Type} (π : β → State) (f : β → α → β) (h : ∀ a x, (π (f a x)).pairCap = (π a).pairCap) (l : List α) (a : β) :
    (π (l.foldl f a)).pairCap = (π a).pairCap := by
  induction l generalizing a with
  | nil => rfl
  | cons x l ih => simp only [List.foldl_cons, ih, h]

@[simp] theorem State.ite_pairCap (c : Prop) [Decidable c] (a b : State) : (if c then a else b).pairCap = if c then a.pairCap else b.pairCap := by split <;> rfl


@[simp] theorem State.foldl_out {α : Type} (f : State → α → State) (h : ∀ s x, (f s x).out = s.out) (l : List α) (s : State) : (l.foldl f s).out = s.out := by
  induction l generalizing s with
  | nil => rfl
  | cons x l ih => simp only [List.foldl_cons, ih, h]

theorem State.foldl_proj_out {α β : Type} (π : β → State) (f : β → α → β) (h : ∀ a x, (π (f a x)).out = (π a).out) (l : List α) (a : β) :
    (π (l.foldl f a)).out = (π a).out := by
  induction l generalizing a with
  | nil => rfl
  | cons x l ih => simp only [List.foldl_cons, ih, h]

@[simp] theorem State.ite_out (c : Prop) [Decidable c] (a b : State) : (if c then a else b).out = if c then a.out else b.out := by split <;> rfl


@[simp] theorem State.foldl_free {α : Type} (f : State → α → State) (h : ∀ s x, (f s x).free = s.free) (l : List α) (s : State) : (l.foldl f s).free = s.free := by
  induction l generalizing s with
  | nil => rfl
  | cons x l ih => simp only [List.foldl_cons, ih, h]

theorem State.foldl_proj_free {α β : Type} (π : β → State) (f : β → α → β) (h : ∀ a x, (π (f a x)).free = (π a).free) (l : List α) (a : β) :
    (π (l.foldl f a)).free = (π a).free := by
  induction l generalizing a with
  | nil => rfl
  | cons x l ih => simp only [List.foldl_cons, ih, h]

@[simp] theorem State.ite_free (c : Prop) [Decidable c] (a b : State) : (if c then a else b).free = if c then a.free else b.free := by split <;> rfl


@[simp] theorem State.foldl_policy {α : Type} (f : State → α → State) (h : ∀ s x, (f s x).policy = s.policy) (l : List α) (s : State) : (l.foldl f s).policy = s.policy := by
  induction l generalizing s with
  | nil => rfl
  | cons x l ih => simp only [List.foldl_cons, ih, h]

theorem State.foldl_proj_policy {α β : Type} (π : β → State) (f : β → α → β) (h : ∀ a x, (π (f a x)).policy = (π a).policy) (l : List α) (a : β) :
    (π (l.foldl f a)).policy = (π a).policy := by
  induction l generalizing a with
  | nil => rfl
  | cons x l ih => simp only [List.foldl_cons, ih, h]

@[simp] theorem State.ite_policy (c : Prop) [Decidable c] (a b : State) : (if c then a else b).policy = if c then a.policy else b.policy := by split <;> rfl


@[simp] theorem State.foldl_err {α : Type} (f : State → α → State) (h : ∀ s x, (f s x).err = s.err) (l : List α) (s : State) : (l.foldl f s).err = s.err := by
  induction l generalizing s with
  | nil => rfl
  | cons x l ih => simp only [List.foldl_cons, ih, h]

theorem State.foldl_proj_err {α β : Type} (π : β → State) (f : β → α → β) (h : ∀ a x, (π (f a x)).err = (π a).err) (l : List α) (a : β) :
    (π (l.foldl f a)).err = (π a).err := by
  induction l generalizing a with
  | nil => rfl
  | cons x l ih => simp only [List.foldl_cons, ih, h]

@[simp] theorem State.ite_err (c : Prop) [Decidable c] (a b : State) : (if c then a else b).err = if c then a.err else b.err := by split <;> rfl


@[simp] theorem State.foldl_chk {α : Type} (f : State → α → State) (h : ∀ s x, (f s x).chk = s.chk) (l : List α) (s : State) : (l.foldl f s).chk = s.chk := by
  induction l generalizing s with
  | nil => rfl
  | cons x l ih => simp only [List.foldl_cons, ih, h]

theorem State.foldl_proj_chk {α β : Type} (π : β → State) (f : β → α → β) (h : ∀ a x, (π (f a x)).chk = (π a).chk) (l : List α) (a : β) :
    (π (l.foldl f a)).chk = (π a).chk := by
  induction l generalizing a with
  | nil => rfl
  | cons x l ih => simp only [List.foldl_cons, ih, h]

@[simp] theorem State.ite_chk (c : Prop) [Decidable c] (a b : State) : (if c then a else b).chk = if c then a.chk else b.chk := by split <;> rfl


@[simp] theorem State.foldl_snp {α : Type} (f : State → α → State) (h : ∀ s x, (f s x).snp = s.snp) (l : List α) (s : State) : (l.foldl f s).snp = s.snp := by
  induction l generalizing s with
  | nil => rfl
  | cons x l ih => simp only [List.foldl_cons, ih, h]

theorem State.foldl_proj_snp {α β : Type} (π : β → State) (f : β → α → β) (h : ∀ a x, (π (f a x)).snp = (π a).snp) (l : List α) (a : β) :
    (π (l.foldl f a)).snp = (π a).snp := by
  induction l generalizing a with
  | nil => rfl
  | cons x l ih => simp only [List.foldl_cons, ih, h]

@[simp] theorem State.ite_snp (c : Prop) [Decidable c] (a b : State) : (if c then a else b).snp = if c then a.snp else b.snp := by split <;> rfl


@[simp] theorem State.foldl_irq {α : Type} (f : State → α → State) (h : ∀ s x, (f s x).irq = s.irq) (l : List α) (s : State) : (l.foldl f s).irq = s.irq := by
  induction l generalizing s with
  | nil => rfl
  | cons x l ih => simp only [List.foldl_cons, ih, h]

theorem State.foldl_proj_irq {α β : Type} (π : β → State) (f : β → α → β) (h : ∀ a x, (π (f a x)).irq = (π a).irq) (l : List α) (a : β) :
    (π (l.foldl f a)).irq = (π a).irq := by
  induction l generalizing a with
  | nil => rfl
  | cons x l ih => simp only [List.foldl_cons, ih, h]

@[simp] theorem State.ite_irq (c : Prop) [Decidable c] (a b : State) : (if c then a else b).irq = if c then a.irq else b.irq := by split <;> rfl


@[simp] theorem State.foldl_ezl {α : Type} (f : State → α → State) (h : ∀ s x, (f s x).ezl = s.ezl) (l : List α) (s : State) : (l.foldl f s).ezl = s.ezl := by
  induction l generalizing s with
  | nil => rfl
  | cons x l ih => simp only [List.foldl_cons, ih, h]

theorem State.foldl_proj_ezl {α β : Type} (π : β → State) (f : β → α → β) (h : ∀ a x, (π (f a x)).ezl = (π a).ezl) (l : List α) (a : β) :
    (π (l.foldl f a)).ezl = (π a).ezl := by
  induction l generalizing a with
  | nil => rfl
  | cons x l ih => simp only [List.foldl_cons, ih, h]

@[simp] theorem State.ite_ezl (c : Prop) [Decidable c] (a b : State) : (if c then a else b).ezl = if c then a.ezl else b.ezl := by split <;> rfl


@[simp] theorem State.foldl_stp {α : Type} (f : State → α → State) (h : ∀ s x, (f s x).stp = s.stp) (l : List α) (s : State) : (l.foldl f s).stp = s.stp := by
  induction l generalizing s with
  | nil => rfl
  | cons x l ih => simp only [List.foldl_cons, ih, h]

theorem State.foldl_proj_stp {α β : Type} (π : β → State) (f : β → α → β) (h : ∀ a x, (π (f a x)).stp = (π a).stp) (l : List α) (a : β) :
    (π (l.foldl f a)).stp = (π a).stp := by
  induction l generalizing a with
  | nil => rfl
  | cons x l ih => simp only [List.foldl_cons, ih, h]

@[simp] theorem State.ite_stp (c : Prop) [Decidable c] (a b : State) : (if c then a else b).stp = if c then a.stp else b.stp := by split <;> rfl


@[simp] theorem State.foldl_fmt {α : Type} (f : State → α → State) (h : ∀ s x, (f s x).fmt = s.fmt) (l : List α) (s : State) : (l.foldl f s).fmt = s.fmt := by
  induction l generalizing s with
  | nil => rfl
  | cons x l ih => simp only [List.foldl_cons, ih, h]

theorem State.foldl_proj_fmt {α β : Type} (π : β → State) (f : β → α → β) (h : ∀ a x, (π (f a x)).fmt = (π a).fmt) (l : List α) (a : β) :
    (π (l.foldl f a)).fmt = (π a).fmt := by
  induction l generalizing a with
  | nil => rfl
  | cons x l ih => simp only [List.foldl_cons, ih, h]

@[simp] theorem State.ite_fmt (c : Prop) [Decidable c] (a b : State) : (if c then a else b).fmt = if c then a.fmt else b.fmt := by split <;> rfl


@[simp] theorem State.foldl_arr {α : Type} (f : State → α → State) (h : ∀ s x, (f s x).arr = s.arr) (l : List α) (s : State) : (l.foldl f s).arr = s.arr := by
  induction l generalizing s with
  | nil => rfl
  | cons x l ih => simp only [List.foldl_cons, ih, h]

theorem State.foldl_proj_arr {α β : Type} (π : β → State) (f : β → α → β) (h : ∀ a x, (π (f a x)).arr = (π a).arr) (l : List α) (a : β) :
    (π (l.foldl f a)).arr = (π a).arr := by
  induction l generalizing a with
  | nil => rfl
  | cons x l ih => simp only [List.foldl_cons, ih, h]

@[simp] theorem State.ite_arr (c : Prop) [Decidable c] (a b : State) : (if c then a else b).arr = if c then a.arr else b.arr := by split <;> rfl


@[simp] theorem State.foldl_vec {α : Type} (f : State → α → State) (h : ∀ s x, (f s x).vec = s.vec) (l : List α) (s : State) : (l.foldl f s).vec = s.vec := by
  induction l generalizing s with
  | nil => rfl
  | cons x l ih => simp only [List.foldl_cons, ih, h]

theorem State.foldl_proj_vec {α β : Type} (π : β → State) (f : β → α → β) (h : ∀ a x, (π (f a x)).vec = (π a).vec) (l : List α) (a : β) :
    (π (l.foldl f a)).vec = (π a).vec := by
  induction l generalizing a with
  | nil => rfl
  | cons x l ih => simp only [List.foldl_cons, ih, h]

@[simp] theorem State.ite_vec (c : Prop) [Decidable c] (a b : State) : (if c then a else b).vec = if c then a.vec else b.vec := by split <;> rfl


@[simp] theorem State.foldl_mxe {α : Type} (f : State → α → State) (h : ∀ s x, (f s x).mxe = s.mxe) (l : List α) (s : State) : (l.foldl f s).mxe = s.mxe := by
  induction l generalizing s with
  | nil => rfl
  | cons x l ih => simp only [List.foldl_cons, ih, h]

theorem State.foldl_proj_mxe {α β : Type} (π : β → State) (f : β → α → β) (h : ∀ a x, (π (f a x)).mxe = (π a).mxe) (l : List α) (a : β) :
    (π (l.foldl f a)).mxe = (π a).mxe := by
  induction l generalizing a with
  | nil => rfl
  | cons x l ih => simp only [List.foldl_cons, ih, h]

@[simp] theorem State.ite_mxe (c : Prop) [Decidable c] (a b : State) : (if c then a else b).mxe = if c then a.mxe else b.mxe := by split <;> rfl


@[simp] theorem State.foldl_upd {α : Type} (f : State → α → State) (h : ∀ s x, (f s x).upd = s.upd) (l : List α) (s : State) : (l.foldl f s).upd = s.upd := by
  induction l generalizing s with
  | nil => rfl
  | cons x l ih => simp only [List.foldl_cons, ih, h]

theorem State.foldl_proj_upd {α β : Type} (π : β → State) (f : β → α → β) (h : ∀ a x, (π (f a x)).upd = (π a).upd) (l : List α) (a : β) :
    (π (l.foldl f a)).upd = (π a).upd := by
  induction l generalizing a with
  | nil => rfl
  | cons x l ih => simp only [List.foldl_cons, ih, h]

@[simp] theorem State.ite_upd (c : Prop) [Decidable c] (a b : State) : (if c then a else b).upd = if c then a.upd else b.upd := by split <;> rfl


@[simp] theorem State.foldl_red {α : Type} (f : State → α → State) (h : ∀ s x, (f s x).red = s.red) (l : List α) (s : State) : (l.foldl f s).red = s.red := by
  induction l generalizing s with
  | nil => rfl
  | cons x l ih => simp only [List.foldl_cons, ih, h]

theorem State.foldl_proj_red {α β : Type} (π : β → State) (f : β → α → β) (h : ∀ a x, (π (f a x)).red = (π a).red) (l : List α) (a : β) :
    (π (l.foldl f a)).red = (π a).red := by
  induction l generalizing a with
  | nil => rfl
  | cons x l ih => simp only [List.foldl_cons, ih, h]

@[simp] theorem State.ite_red (c : Prop) [Decidable c] (a b : State) : (if c then a else b).red = if c then a.red else b.red := by split <;> rfl


@[simp] theorem State.foldl_tsk {α : Type} (f : State → α → State) (h : ∀ s x, (f s x).tsk = s.tsk) (l : List α) (s : State) : (l.foldl f s).tsk = s.tsk := by
  induction l generalizing s with
  | nil => rfl
  | cons x l ih => simp only [List.foldl_cons, ih, h]

theorem State.foldl_proj_tsk {α β : Type} (π : β → State) (f : β → α → β) (h : ∀ a x, (π (f a x)).tsk = (π a).tsk) (l : List α) (a : β) :
    (π (l.foldl f a)).tsk = (π a).tsk := by
  induction l generalizing a with
  | nil => rfl
  | cons x l ih => simp only [List.foldl_cons, ih, h]

@[simp] theorem State.ite_tsk (c : Prop) [Decidable c] (a b : State) : (if c then a else b).tsk = if c then a.tsk else b.tsk := by split <;> rfl


@[simp] theorem State.foldl_mem {α : Type} (f : State → α → State) (h : ∀ s x, (f s x).mem = s.mem) (l : List α) (s : State) : (l.foldl f s).mem = s.mem := by
  induction l generalizing s with
  | nil => rfl
  | cons x l ih => simp only [List.foldl_cons, ih, h]

theorem State.foldl_proj_mem {α β : Type} (π : β → State) (f : β → α → β) (h : ∀ a x, (π (f a x)).mem = (π a).mem) (l : List α) (a : β) :
    (π (l.foldl f a)).mem = (π a).mem := by
  induction l generalizing a with
  | nil => rfl
  | cons x l ih => simp only [List.foldl_cons, ih, h]

@[simp] theorem State.ite_mem (c : Prop) [Decidable c] (a b : State) : (if c then a else b).mem = if c then a.mem else b.mem := by split <;> rfl


@[simp] theorem State.foldl_hif {α : Type} (f : State → α → State) (h : ∀ s x, (f s x).hif = s.hif) (l : List α) (s : State) : (l.foldl f s).hif = s.hif := by
  induction l generalizing s with
  | nil => rfl
  | cons x l ih => simp only [List.foldl_cons, ih, h]

theorem State.foldl_proj_hif {α β : Type} (π : β → State) (f : β → α → β) (h : ∀ a x, (π (f a x)).hif = (π a).hif) (l : List α) (a : β) :
    (π (l.foldl f a)).hif = (π a).hif := by
  induction l generalizing a with
  | nil => rfl
  | cons x l ih => simp only [List.foldl_cons, ih, h]

@[simp] theorem State.ite_hif (c : Prop) [Decidable c] (a b : State) : (if c then a else b).hif = if c then a.hif else b.hif := by split <;> rfl


@[simp] theorem State.foldl_img {α : Type} (f : State → α → State) (h : ∀ s x, (f s x).img = s.img) (l : List α) (s : State) : (l.foldl f s).img = s.img := by
  induction l generalizing s with
  | nil => rfl
  | cons x l ih => simp only [List.foldl_cons, ih, h]

theorem State.foldl_proj_img {α β : Type} (π : β → State) (f : β → α → β) (h : ∀ a x, (π (f a x)).img = (π a).img) (l : List α) (a : β) :
    (π (l.foldl f a)).img = (π a).img := by
  induction l generalizing a with
  | nil => rfl
  | cons x l ih => simp only [List.foldl_cons, ih, h]

@[simp] theorem State.ite_img (c : Prop) [Decidable c] (a b : State) : (if c then a else b).img = if c then a.img else b.img := by split <;> rfl


@[simp] theorem State.foldl_pwr {α : Type} (f : State → α → State) (h : ∀ s x, (f s x).pwr = s.pwr) (l : List α) (s : State) : (l.foldl f s).pwr = s.pwr := by
  induction l generalizing s with
  | nil => rfl
  | cons x l ih => simp only [List.foldl_cons, ih, h]

theorem State.foldl_proj_pwr {α β : Type} (π : β → State) (f : β → α → β) (h : ∀ a x, (π (f a x)).pwr = (π a).pwr) (l : List α) (a : β) :
    (π (l.foldl f a)).pwr = (π a).pwr := by
  induction l generalizing a with
  | nil => rfl
  | cons x l ih => simp only [List.foldl_cons, ih, h]

@[simp] theorem State.ite_pwr (c : Prop) [Decidable c] (a b : State) : (if c then a else b).pwr = if c then a.pwr else b.pwr := by split <;> rfl


@[simp] theorem State.foldl_pending {α : Type} (f : State → α → State) (h : ∀ s x, (f s x).pending = s.pending) (l : List α) (s : State) : (l.foldl f s).pending = s.pending := by
  induction l generalizing s with
  | nil => rfl
  | cons x l ih => simp only [List.foldl_cons, ih, h]

theorem State.foldl_proj_pending {α β : Type} (π : β → State) (f : β → α → β) (h : ∀ a x, (π (f a x)).pending = (π a).pending) (l : List α) (a : β) :
    (π (l.foldl f a)).pending = (π a).pending := by
  induction l generalizing a with
  | nil => rfl
  | cons x l ih => simp only [List.foldl_cons, ih, h]

@[simp] theorem State.ite_pending (c : Prop) [Decidable c] (a b : State) : (if c then a else b).pending = if c then a.pending else b.pending := by split <;> rfl


@[simp] theorem State.when_regs (s : State) (c : Bool) (f : State → State) (h : (f s).regs = s.regs) : (s.when c f).regs = s.regs := by
  unfold State.when; split <;> simp [h]

@[simp] theorem State.when_pairLo (s : State) (c : Bool) (f : State → State) (h : (f s).pairLo = s.pairLo) : (s.when c f).pairLo = s.pairLo := by
  unfold State.when; split <;> simp [h]

@[simp] theorem State.when_pairCap (s : State) (c : Bool) (f : State → State) (h : (f s).pairCap = s.pairCap) : (s.when c f).pairCap = s.pairCap := by
  unfold State.when; split <;> simp [h]

@[simp] theorem State.when_out (s : State) (c : Bool) (f : State → State) (h : (f s).out = s.out) : (s.when c f).out = s.out := by
  unfold State.when; split <;> simp [h]

@[simp] theorem State.when_free (s : State) (c : Bool) (f : State → State) (h : (f s).free = s.free) : (s.when c f).free = s.free := by
  unfold State.when; split <;> simp [h]

@[simp] theorem State.when_policy (s : State) (c : Bool) (f : State → State) (h : (f s).policy = s.policy) : (s.when c f).policy = s.policy := by
  unfold State.when; split <;> simp [h]

@[simp] theorem State.when_err (s : State) (c : Bool) (f : State → State) (h : (f s).err = s.err) : (s.when c f).err = s.err := by
  unfold State.when; split <;> simp [h]

@[simp] theorem State.when_chk (s : State) (c : Bool) (f : State → State) (h : (f s).chk = s.chk) : (s.when c f).chk = s.chk := by
  unfold State.when; split <;> simp [h]

@[simp] theorem State.when_snp (s : State) (c : Bool) (f : State → State) (h : (f s).snp = s.snp) : (s.when c f).snp = s.snp := by
  unfold State.when; split <;> simp [h]

@[simp] theorem State.when_irq (s : State) (c : Bool) (f : State → State) (h : (f s).irq = s.irq) : (s.when c f).irq = s.irq := by
  unfold State.when; split <;> simp [h]

@[simp] theorem State.when_ezl (s : State) (c : Bool) (f : State → State) (h : (f s).ezl = s.ezl) : (s.when c f).ezl = s.ezl := by
  unfold State.when; split <;> simp [h]

@[simp] theorem State.when_stp (s : State) (c : Bool) (f : State → State) (h : (f s).stp = s.stp) : (s.when c f).stp = s.stp := by
  unfold State.when; split <;> simp [h]

@[simp] theorem State.when_fmt (s : State) (c : Bool) (f : State → State) (h : (f s).fmt = s.fmt) : (s.when c f).fmt = s.fmt := by
  unfold State.when; split <;> simp [h]

@[simp] theorem State.when_arr (s : State) (c : Bool) (f : State → State) (h : (f s).arr = s.arr) : (s.when c f).arr = s.arr := by
  unfold State.when; split <;> simp [h]

@[simp] theorem State.when_vec (s : State) (c : Bool) (f : State → State) (h : (f s).vec = s.vec) : (s.when c f).vec = s.vec := by
  unfold State.when; split <;> simp [h]

@[simp] theorem State.when_mxe (s : State) (c : Bool) (f : State → State) (h : (f s).mxe = s.mxe) : (s.when c f).mxe = s.mxe := by
  unfold State.when; split <;> simp [h]

@[simp] theorem State.when_upd (s : State) (c : Bool) (f : State → State) (h : (f s).upd = s.upd) : (s.when c f).upd = s.upd := by
  unfold State.when; split <;> simp [h]

@[simp] theorem State.when_red (s : State) (c : Bool) (f : State → State) (h : (f s).red = s.red) : (s.when c f).red = s.red := by
  unfold State.when; split <;> simp [h]

@[simp] theorem State.when_tsk (s : State) (c : Bool) (f : State → State) (h : (f s).tsk = s.tsk) : (s.when c f).tsk = s.tsk := by
  unfold State.when; split <;> simp [h]

@[simp] theorem State.when_mem (s : State) (c : Bool) (f : State → State) (h : (f s).mem = s.mem) : (s.when c f).mem = s.mem := by
  unfold State.when; split <;> simp [h]

@[simp] theorem State.when_hif (s : State) (c : Bool) (f : State → State) (h : (f s).hif = s.hif) : (s.when c f).hif = s.hif := by
  unfold State.when; split <;> simp [h]

@[simp] theorem State.when_img (s : State) (c : Bool) (f : State → State) (h : (f s).img = s.img) : (s.when c f).img = s.img := by
  unfold State.when; split <;> simp [h]

@[simp] theorem State.when_pwr (s : State) (c : Bool) (f : State → State) (h : (f s).pwr = s.pwr) : (s.when c f).pwr = s.pwr := by
  unfold State.when; split <;> simp [h]

@[simp] theorem State.when_pending (s : State) (c : Bool) (f : State → State) (h : (f s).pending = s.pending) : (s.when c f).pending = s.pending := by
  unfold State.when; split <;> simp [h]


theorem State.setReg_frame (s : State) (a : Nat) (v : Word) :
    (State.setReg s a v).pairLo = s.pairLo ∧ (State.setReg s a v).pairCap = s.pairCap ∧ (State.setReg s a v).out = s.out ∧ (State.setReg s a v).free = s.free ∧ (State.setReg s a v).policy = s.policy ∧ (State.setReg s a v).err = s.err ∧ (State.setReg s a v).chk = s.chk ∧ (State.setReg s a v).snp = s.snp ∧ (State.setReg s a v).irq = s.irq ∧ (State.setReg s a v).ezl = s.ezl ∧ (State.setReg s a v).stp = s.stp ∧ (State.setReg s a v).fmt = s.fmt ∧ (State.setReg s a v).arr = s.arr ∧ (State.setReg s a v).vec = s.vec ∧ (State.setReg s a v).mxe = s.mxe ∧ (State.setReg s a v).upd = s.upd ∧ (State.setReg s a v).red = s.red ∧ (State.setReg s a v).tsk = s.tsk ∧ (State.setReg s a v).mem = s.mem ∧ (State.setReg s a v).hif = s.hif ∧ (State.setReg s a v).img = s.img ∧ (State.setReg s a v).pwr = s.pwr ∧ (State.setReg s a v).pending = s.pending := by
  exact ⟨rfl, rfl, rfl, rfl, rfl, rfl, rfl, rfl, rfl, rfl, rfl, rfl, rfl, rfl, rfl, rfl, rfl, rfl, rfl, rfl, rfl, rfl, rfl⟩


theorem State.setRegN_frame (s : State) (a n : Nat) :
    (State.setRegN s a n).pairLo = s.pairLo ∧ (State.setRegN s a n).pairCap = s.pairCap ∧ (State.setRegN s a n).out = s.out ∧ (State.setRegN s a n).free = s.free ∧ (State.setRegN s a n).policy = s.policy ∧ (State.setRegN s a n).err = s.err ∧ (State.setRegN s a n).chk = s.chk ∧ (State.setRegN s a n).snp = s.snp ∧ (State.setRegN s a n).irq = s.irq ∧ (State.setRegN s a n).ezl = s.ezl ∧ (State.setRegN s a n).stp = s.stp ∧ (State.setRegN s a n).fmt = s.fmt ∧ (State.setRegN s a n).arr = s.arr ∧ (State.setRegN s a n).vec = s.vec ∧ (State.setRegN s a n).mxe = s.mxe ∧ (State.setRegN s a n).upd = s.upd ∧ (State.setRegN s a n).red = s.red ∧ (State.setRegN s a n).tsk = s.tsk ∧ (State.setRegN s a n).mem = s.mem ∧ (State.setRegN s a n).hif = s.hif ∧ (State.setRegN s a n).img = s.img ∧ (State.setRegN s a n).pwr = s.pwr ∧ (State.setRegN s a n).pending = s.pending := by
  have fr1 := @State.setReg_frame
  simp [State.setRegN, fr1]


theorem State.setRegF_frame (s : State) (a hi lo n : Nat) :
    (State.setRegF s a hi lo n).pairLo = s.pairLo ∧ (State.setRegF s a hi lo n).pairCap = s.pairCap ∧ (State.setRegF s a hi lo n).out = s.out ∧ (State.setRegF s a hi lo n).free = s.free ∧ (State.setRegF s a hi lo n).policy = s.policy ∧ (State.setRegF s a hi lo n).err = s.err ∧ (State.setRegF s a hi lo n).chk = s.chk ∧ (State.setRegF s a hi lo n).snp = s.snp ∧ (State.setRegF s a hi lo n).irq = s.irq ∧ (State.setRegF s a hi lo n).ezl = s.ezl ∧ (State.setRegF s a hi lo n).stp = s.stp ∧ (State.setRegF s a hi lo n).fmt = s.fmt ∧ (State.setRegF s a hi lo n).arr = s.arr ∧ (State.setRegF s a hi lo n).vec = s.vec ∧ (State.setRegF s a hi lo n).mxe = s.mxe ∧ (State.setRegF s a hi lo n).upd = s.upd ∧ (State.setRegF s a hi lo n).red = s.red ∧ (State.setRegF s a hi lo n).tsk = s.tsk ∧ (State.setRegF s a hi lo n).mem = s.mem ∧ (State.setRegF s a hi lo n).hif = s.hif ∧ (State.setRegF s a hi lo n).img = s.img ∧ (State.setRegF s a hi lo n).pwr = s.pwr ∧ (State.setRegF s a hi lo n).pending = s.pending := by
  have fr1 := @State.setReg_frame
  simp [State.setRegF, fr1]


theorem State.setRegB_frame (s : State) (a i : Nat) (b : Bool) :
    (State.setRegB s a i b).pairLo = s.pairLo ∧ (State.setRegB s a i b).pairCap = s.pairCap ∧ (State.setRegB s a i b).out = s.out ∧ (State.setRegB s a i b).free = s.free ∧ (State.setRegB s a i b).policy = s.policy ∧ (State.setRegB s a i b).err = s.err ∧ (State.setRegB s a i b).chk = s.chk ∧ (State.setRegB s a i b).snp = s.snp ∧ (State.setRegB s a i b).irq = s.irq ∧ (State.setRegB s a i b).ezl = s.ezl ∧ (State.setRegB s a i b).stp = s.stp ∧ (State.setRegB s a i b).fmt = s.fmt ∧ (State.setRegB s a i b).arr = s.arr ∧ (State.setRegB s a i b).vec = s.vec ∧ (State.setRegB s a i b).mxe = s.mxe ∧ (State.setRegB s a i b).upd = s.upd ∧ (State.setRegB s a i b).red = s.red ∧ (State.setRegB s a i b).tsk = s.tsk ∧ (State.setRegB s a i b).mem = s.mem ∧ (State.setRegB s a i b).hif = s.hif ∧ (State.setRegB s a i b).img = s.img ∧ (State.setRegB s a i b).pwr = s.pwr ∧ (State.setRegB s a i b).pending = s.pending := by
  have fr1 := @State.setReg_frame
  simp [State.setRegB, fr1]


theorem State.incReg_frame (s : State) (a n : Nat) :
    (State.incReg s a n).pairLo = s.pairLo ∧ (State.incReg s a n).pairCap = s.pairCap ∧ (State.incReg s a n).out = s.out ∧ (State.incReg s a n).free = s.free ∧ (State.incReg s a n).policy = s.policy ∧ (State.incReg s a n).err = s.err ∧ (State.incReg s a n).chk = s.chk ∧ (State.incReg s a n).snp = s.snp ∧ (State.incReg s a n).irq = s.irq ∧ (State.incReg s a n).ezl = s.ezl ∧ (State.incReg s a n).stp = s.stp ∧ (State.incReg s a n).fmt = s.fmt ∧ (State.incReg s a n).arr = s.arr ∧ (State.incReg s a n).vec = s.vec ∧ (State.incReg s a n).mxe = s.mxe ∧ (State.incReg s a n).upd = s.upd ∧ (State.incReg s a n).red = s.red ∧ (State.incReg s a n).tsk = s.tsk ∧ (State.incReg s a n).mem = s.mem ∧ (State.incReg s a n).hif = s.hif ∧ (State.incReg s a n).img = s.img ∧ (State.incReg s a n).pwr = s.pwr ∧ (State.incReg s a n).pending = s.pending := by
  have fr1 := @State.setRegN_frame
  simp [State.incReg, fr1]


theorem State.setPair_frame (s : State) (a n : Nat) :
    (State.setPair s a n).pairLo = s.pairLo ∧ (State.setPair s a n).pairCap = s.pairCap ∧ (State.setPair s a n).out = s.out ∧ (State.setPair s a n).free = s.free ∧ (State.setPair s a n).policy = s.policy ∧ (State.setPair s a n).err = s.err ∧ (State.setPair s a n).chk = s.chk ∧ (State.setPair s a n).snp = s.snp ∧ (State.setPair s a n).irq = s.irq ∧ (State.setPair s a n).ezl = s.ezl ∧ (State.setPair s a n).stp = s.stp ∧ (State.setPair s a n).fmt = s.fmt ∧ (State.setPair s a n).arr = s.arr ∧ (State.setPair s a n).vec = s.vec ∧ (State.setPair s a n).mxe = s.mxe ∧ (State.setPair s a n).upd = s.upd ∧ (State.setPair s a n).red = s.red ∧ (State.setPair s a n).tsk = s.tsk ∧ (State.setPair s a n).mem = s.mem ∧ (State.setPair s a n).hif = s.hif ∧ (State.setPair s a n).img = s.img ∧ (State.setPair s a n).pwr = s.pwr ∧ (State.setPair s a n).pending = s.pending := by
  have fr1 := @State.setRegN_frame
  simp [State.setPair, fr1]


theorem State.incPair_frame (s : State) (a n : Nat) :
    (State.incPair s a n).pairLo = s.pairLo ∧ (State.incPair s a n).pairCap = s.pairCap ∧ (State.incPair s a n).out = s.out ∧ (State.incPair s a n).free = s.free ∧ (State.incPair s a n).policy = s.policy ∧ (State.incPair s a n).err = s.err ∧ (State.incPair s a n).chk = s.chk ∧ (State.incPair s a n).snp = s.snp ∧ (State.incPair s a n).irq = s.irq ∧ (State.incPair s a n).ezl = s.ezl ∧ (State.incPair s a n).stp = s.stp ∧ (State.incPair s a n).fmt = s.fmt ∧ (State.incPair s a n).arr = s.arr ∧ (State.incPair s a n).vec = s.vec ∧ (State.incPair s a n).mxe = s.mxe ∧ (State.incPair s a n).upd = s.upd ∧ (State.incPair s a n).red = s.red ∧ (State.incPair s a n).tsk = s.tsk ∧ (State.incPair s a n).mem = s.mem ∧ (State.incPair s a n).hif = s.hif ∧ (State.incPair s a n).img = s.img ∧ (State.incPair s a n).pwr = s.pwr ∧ (State.incPair s a n).pending = s.pending := by
  have fr1 := @State.setPair_frame
  simp [State.incPair, fr1]


theorem State.event_frame (s : State) (a i : Nat) :
    (State.event s a i).pairLo = s.pairLo ∧ (State.event s a i).pairCap = s.pairCap ∧ (State.event s a i).out = s.out ∧ (State.event s a i).free = s.free ∧ (State.event s a i).policy = s.policy ∧ (State.event s a i).err = s.err ∧ (State.event s a i).chk = s.chk ∧ (State.event s a i).snp = s.snp ∧ (State.event s a i).irq = s.irq ∧ (State.event s a i).ezl = s.ezl ∧ (State.event s a i).stp = s.stp ∧ (State.event s a i).fmt = s.fmt ∧ (State.event s a i).arr = s.arr ∧ (State.event s a i).vec = s.vec ∧ (State.event s a i).mxe = s.mxe ∧ (State.event s a i).upd = s.upd ∧ (State.event s a i).red = s.red ∧ (State.event s a i).tsk = s.tsk ∧ (State.event s a i).mem = s.mem ∧ (State.event s a i).hif = s.hif ∧ (State.event s a i).img = s.img ∧ (State.event s a i).pwr = s.pwr ∧ (State.event s a i).pending = s.pending := by
  have fr1 := @State.setRegB_frame
  simp [State.event, fr1]


theorem State.modErr_frame (s : State) (f : ErrSt → ErrSt) :
    (State.modErr s f).regs = s.regs ∧ (State.modErr s f).pairLo = s.pairLo ∧ (State.modErr s f).pairCap = s.pairCap ∧ (State.modErr s f).out = s.out ∧ (State.modErr s f).free = s.free ∧ (State.modErr s f).policy = s.policy ∧ (State.modErr s f).chk = s.chk ∧ (State.modErr s f).snp = s.snp ∧ (State.modErr s f).irq = s.irq ∧ (State.modErr s f).ezl = s.ezl ∧ (State.modErr s f).stp = s.stp ∧ (State.modErr s f).fmt = s.fmt ∧ (State.modErr s f).arr = s.arr ∧ (State.modErr s f).vec = s.vec ∧ (State.modErr s f).mxe = s.mxe ∧ (State.modErr s f).upd = s.upd ∧ (State.modErr s f).red = s.red ∧ (State.modErr s f).tsk = s.tsk ∧ (State.modErr s f).mem = s.mem ∧ (State.modErr s f).hif = s.hif ∧ (State.modErr s f).img = s.img ∧ (State.modErr s f).pwr = s.pwr ∧ (State.modErr s f).pending = s.pending := by
  exact ⟨rfl, rfl, rfl, rfl, rfl, rfl, rfl, rfl, rfl, rfl, rfl, rfl, rfl, rfl, rfl, rfl, rfl, rfl, rfl, rfl, rfl, rfl, rfl⟩


theorem State.modSnp_frame (s : State) (f : SnpSt → SnpSt) :
    (State.modSnp s f).regs = s.regs ∧ (State.modSnp s f).pairLo = s.pairLo ∧ (State.modSnp s f).pairCap = s.pairCap ∧ (State.modSnp s f).out = s.out ∧ (State.modSnp s f).free = s.free ∧ (State.modSnp s f).policy = s.policy ∧ (State.modSnp s f).err = s.err ∧ (State.modSnp s f).chk = s.chk ∧ (State.modSnp s f).irq = s.irq ∧ (State.modSnp s f).ezl = s.ezl ∧ (State.modSnp s f).stp = s.stp ∧ (State.modSnp s f).fmt = s.fmt ∧ (State.modSnp s f).arr = s.arr ∧ (State.modSnp s f).vec = s.vec ∧ (State.modSnp s f).mxe = s.mxe ∧ (State.modSnp s f).upd = s.upd ∧ (State.modSnp s f).red = s.red ∧ (State.modSnp s f).tsk = s.tsk ∧ (State.modSnp s f).mem = s.mem ∧ (State.modSnp s f).hif = s.hif ∧ (State.modSnp s f).img = s.img ∧ (State.modSnp s f).pwr = s.pwr ∧ (State.modSnp s f).pending = s.pending := by
  exact ⟨rfl, rfl, rfl, rfl, rfl, rfl, rfl, rfl, rfl, rfl, rfl, rfl, rfl, rfl, rfl, rfl, rfl, rfl, rfl, rfl, rfl, rfl, rfl⟩


theorem State.modEzl_frame (s : State) (f : EzlSt → EzlSt) :
    (State.modEzl s f).regs = s.regs ∧ (State.modEzl s f).pairLo = s.pairLo ∧ (State.modEzl s f).pairCap = s.pairCap ∧ (State.modEzl s f).out = s.out ∧ (State.modEzl s f).free = s.free ∧ (State.modEzl s f).policy = s.policy ∧ (State.modEzl s f).err = s.err ∧ (State.modEzl s f).chk = s.chk ∧ (State.modEzl s f).snp = s.snp ∧ (State.modEzl s f).irq = s.irq ∧ (State.modEzl s f).stp = s.stp ∧ (State.modEzl s f).fmt = s.fmt ∧ (State.modEzl s f).arr = s.arr ∧ (State.modEzl s f).vec = s.vec ∧ (State.modEzl s f).mxe = s.mxe ∧ (State.modEzl s f).upd = s.upd ∧ (State.modEzl s f).red = s.red ∧ (State.modEzl s f).tsk = s.tsk ∧ (State.modEzl s f).mem = s.mem ∧ (State.modEzl s f).hif = s.hif ∧ (State.modEzl s f).img = s.img ∧ (State.modEzl s f).pwr = s.pwr ∧ (State.modEzl s f).pending = s.pending := by
  exact ⟨rfl, rfl, rfl, rfl, rfl, rfl, rfl, rfl, rfl, rfl, rfl, rfl, rfl, rfl, rfl, rfl, rfl, rfl, rfl, rfl, rfl, rfl, rfl⟩


theorem State.modTim_frame (s : State) (f : TimeSt → TimeSt) :
    (State.modTim s f).regs = s.regs ∧ (State.modTim s f).pairLo = s.pairLo ∧ (State.modTim s f).pairCap = s.pairCap ∧ (State.modTim s f).out = s.out ∧ (State.modTim s f).free = s.free ∧ (State.modTim s f).policy = s.policy ∧ (State.modTim s f).err = s.err ∧ (State.modTim s f).chk = s.chk ∧ (State.modTim s f).snp = s.snp ∧ (State.modTim s f).irq = s.irq ∧ (State.modTim s f).stp = s.stp ∧ (State.modTim s f).fmt = s.fmt ∧ (State.modTim s f).arr = s.arr ∧ (State.modTim s f).vec = s.vec ∧ (State.modTim s f).mxe = s.mxe ∧ (State.modTim s f).upd = s.upd ∧ (State.modTim s f).red = s.red ∧ (State.modTim s f).tsk = s.tsk ∧ (State.modTim s f).mem = s.mem ∧ (State.modTim s f).hif = s.hif ∧ (State.modTim s f).img = s.img ∧ (State.modTim s f).pwr = s.pwr ∧ (State.modTim s f).pending = s.pending := by
  exact ⟨rfl, rfl, rfl, rfl, rfl, rfl, rfl, rfl, rfl, rfl, rfl, rfl, rfl, rfl, rfl, rfl, rfl, rfl, rfl, rfl, rfl, rfl, rfl⟩


theorem State.modStp_frame (s : State) (f : StepSt → StepSt) :
    (State.modStp s f).regs = s.regs ∧ (State.modStp s f).pairLo = s.pairLo ∧ (State.modStp s f).pairCap = s.pairCap ∧ (State.modStp s f).out = s.out ∧ (State.modStp s f).free = s.free ∧ (State.modStp s f).policy = s.policy ∧ (State.modStp s f).err = s.err ∧ (State.modStp s f).chk = s.chk ∧ (State.modStp s f).snp = s.snp ∧ (State.modStp s f).irq = s.irq ∧ (State.modStp s f).ezl = s.ezl ∧ (State.modStp s f).fmt = s.fmt ∧ (State.modStp s f).arr = s.arr ∧ (State.modStp s f).vec = s.vec ∧ (State.modStp s f).mxe = s.mxe ∧ (State.modStp s f).upd = s.upd ∧ (State.modStp s f).red = s.red ∧ (State.modStp s f).tsk = s.tsk ∧ (State.modStp s f).mem = s.mem ∧ (State.modStp s f).hif = s.hif ∧ (State.modStp s f).img = s.img ∧ (State.modStp s f).pwr = s.pwr ∧ (State.modStp s f).pending = s.pending := by
  exact ⟨rfl, rfl, rfl, rfl, rfl, rfl, rfl, rfl, rfl, rfl, rfl, rfl, rfl, rfl, rfl, rfl, rfl, rfl, rfl, rfl, rfl, rfl, rfl⟩


theorem State.modFmt_frame (s : State) (f : FmtSt → FmtSt) :
    (State.modFmt s f).regs = s.regs ∧ (State.modFmt s f).pairLo = s.pairLo ∧ (State.modFmt s f).pairCap = s.pairCap ∧ (State.modFmt s f).out = s.out ∧ (State.modFmt s f).free = s.free ∧ (State.modFmt s f).policy = s.policy ∧ (State.modFmt s f).err = s.err ∧ (State.modFmt s f).chk = s.chk ∧ (State.modFmt s f).snp = s.snp ∧ (State.modFmt s f).irq = s.irq ∧ (State.modFmt s f).ezl = s.ezl ∧ (State.modFmt s f).stp = s.stp ∧ (State.modFmt s f).arr = s.arr ∧ (State.modFmt s f).vec = s.vec ∧ (State.modFmt s f).mxe = s.mxe ∧ (State.modFmt s f).upd = s.upd ∧ (State.modFmt s f).red = s.red ∧ (State.modFmt s f).tsk = s.tsk ∧ (State.modFmt s f).mem = s.mem ∧ (State.modFmt s f).hif = s.hif ∧ (State.modFmt s f).img = s.img ∧ (State.modFmt s f).pwr = s.pwr ∧ (State.modFmt s f).pending = s.pending := by
  exact ⟨rfl, rfl, rfl, rfl, rfl, rfl, rfl, rfl, rfl, rfl, rfl, rfl, rfl, rfl, rfl, rfl, rfl, rfl, rfl, rfl, rfl, rfl, rfl⟩


theorem State.modArr_frame (s : State) (f : ArrSt → ArrSt) :
    (State.modArr s f).regs = s.regs ∧ (State.modArr s f).pairLo = s.pairLo ∧ (State.modArr s f).pairCap = s.pairCap ∧ (State.modArr s f).out = s.out ∧ (State.modArr s f).free = s.free ∧ (State.modArr s f).policy = s.policy ∧ (State.modArr s f).err = s.err ∧ (State.modArr s f).chk = s.chk ∧ (State.modArr s f).snp = s.snp ∧ (State.modArr s f).irq = s.irq ∧ (State.modArr s f).ezl = s.ezl ∧ (State.modArr s f).stp = s.stp ∧ (State.modArr s f).fmt = s.fmt ∧ (State.modArr s f).vec = s.vec ∧ (State.modArr s f).mxe = s.mxe ∧ (State.modArr s f).upd = s.upd ∧ (State.modArr s f).red = s.red ∧ (State.modArr s f).tsk = s.tsk ∧ (State.modArr s f).mem = s.mem ∧ (State.modArr s f).hif = s.hif ∧ (State.modArr s f).img = s.img ∧ (State.modArr s f).pwr = s.pwr ∧ (State.modArr s f).pending = s.pending := by
  exact ⟨rfl, rfl, rfl, rfl, rfl, rfl, rfl, rfl, rfl, rfl, rfl, rfl, rfl, rfl, rfl, rfl, rfl, rfl, rfl, rfl, rfl, rfl, rfl⟩


theorem State.modVec_frame (s : State) (f : VecSt → VecSt) :
    (State.modVec s f).regs = s.regs ∧ (State.modVec s f).pairLo = s.pairLo ∧ (State.modVec s f).pairCap = s.pairCap ∧ (State.modVec s f).out = s.out ∧ (State.modVec s f).free = s.free ∧ (State.modVec s f).policy = s.policy ∧ (State.modVec s f).err = s.err ∧ (State.modVec s f).chk = s.chk ∧ (State.modVec s f).snp = s.snp ∧ (State.modVec s f).irq = s.irq ∧ (State.modVec s f).ezl = s.ezl ∧ (State.modVec s f).stp = s.stp ∧ (State.modVec s f).fmt = s.fmt ∧ (State.modVec s f).arr = s.arr ∧ (State.modVec s f).mxe = s.mxe ∧ (State.modVec s f).upd = s.upd ∧ (State.modVec s f).red = s.red ∧ (State.modVec s f).tsk = s.tsk ∧ (State.modVec s f).mem = s.mem ∧ (State.modVec s f).hif = s.hif ∧ (State.modVec s f).img = s.img ∧ (State.modVec s f).pwr = s.pwr ∧ (State.modVec s f).pending = s.pending := by
  exact ⟨rfl, rfl, rfl, rfl, rfl, rfl, rfl, rfl, rfl, rfl, rfl, rfl, rfl, rfl, rfl, rfl, rfl, rfl, rfl, rfl, rfl, rfl, rfl⟩


theorem State.modMxe_frame (s : State) (f : MxeSt → MxeSt) :
    (State.modMxe s f).regs = s.regs ∧ (State.modMxe s f).pairLo = s.pairLo ∧ (State.modMxe s f).pairCap = s.pairCap ∧ (State.modMxe s f).out = s.out ∧ (State.modMxe s f).free = s.free ∧ (State.modMxe s f).policy = s.policy ∧ (State.modMxe s f).err = s.err ∧ (State.modMxe s f).chk = s.chk ∧ (State.modMxe s f).snp = s.snp ∧ (State.modMxe s f).irq = s.irq ∧ (State.modMxe s f).ezl = s.ezl ∧ (State.modMxe s f).stp = s.stp ∧ (State.modMxe s f).fmt = s.fmt ∧ (State.modMxe s f).arr = s.arr ∧ (State.modMxe s f).vec = s.vec ∧ (State.modMxe s f).upd = s.upd ∧ (State.modMxe s f).red = s.red ∧ (State.modMxe s f).tsk = s.tsk ∧ (State.modMxe s f).mem = s.mem ∧ (State.modMxe s f).hif = s.hif ∧ (State.modMxe s f).img = s.img ∧ (State.modMxe s f).pwr = s.pwr ∧ (State.modMxe s f).pending = s.pending := by
  exact ⟨rfl, rfl, rfl, rfl, rfl, rfl, rfl, rfl, rfl, rfl, rfl, rfl, rfl, rfl, rfl, rfl, rfl, rfl, rfl, rfl, rfl, rfl, rfl⟩


theorem State.modUpd_frame (s : State) (f : UpdSt → UpdSt) :
    (State.modUpd s f).regs = s.regs ∧ (State.modUpd s f).pairLo = s.pairLo ∧ (State.modUpd s f).pairCap = s.pairCap ∧ (State.modUpd s f).out = s.out ∧ (State.modUpd s f).free = s.free ∧ (State.modUpd s f).policy = s.policy ∧ (State.modUpd s f).err = s.err ∧ (State.modUpd s f).chk = s.chk ∧ (State.modUpd s f).snp = s.snp ∧ (State.modUpd s f).irq = s.irq ∧ (State.modUpd s f).ezl = s.ezl ∧ (State.modUpd s f).stp = s.stp ∧ (State.modUpd s f).fmt = s.fmt ∧ (State.modUpd s f).arr = s.arr ∧ (State.modUpd s f).vec = s.vec ∧ (State.modUpd s f).mxe = s.mxe ∧ (State.modUpd s f).red = s.red ∧ (State.modUpd s f).tsk = s.tsk ∧ (State.modUpd s f).mem = s.mem ∧ (State.modUpd s f).hif = s.hif ∧ (State.modUpd s f).img = s.img ∧ (State.modUpd s f).pwr = s.pwr ∧ (State.modUpd s f).pending = s.pending := by
  exact ⟨rfl, rfl, rfl, rfl, rfl, rfl, rfl, rfl, rfl, rfl, rfl, rfl, rfl, rfl, rfl, rfl, rfl, rfl, rfl, rfl, rfl, rfl, rfl⟩


theorem State.modRed_frame (s : State) (f : RedSt → RedSt) :
    (State.modRed s f).regs = s.regs ∧ (State.modRed s f).pairLo = s.pairLo ∧ (State.modRed s f).pairCap = s.pairCap ∧ (State.modRed s f).out = s.out ∧ (State.modRed s f).free = s.free ∧ (State.modRed s f).policy = s.policy ∧ (State.modRed s f).err = s.err ∧ (State.modRed s f).chk = s.chk ∧ (State.modRed s f).snp = s.snp ∧ (State.modRed s f).irq = s.irq ∧ (State.modRed s f).ezl = s.ezl ∧ (State.modRed s f).stp = s.stp ∧ (State.modRed s f).fmt = s.fmt ∧ (State.modRed s f).arr = s.arr ∧ (State.modRed s f).vec = s.vec ∧ (State.modRed s f).mxe = s.mxe ∧ (State.modRed s f).upd = s.upd ∧ (State.modRed s f).tsk = s.tsk ∧ (State.modRed s f).mem = s.mem ∧ (State.modRed s f).hif = s.hif ∧ (State.modRed s f).img = s.img ∧ (State.modRed s f).pwr = s.pwr ∧ (State.modRed s f).pending = s.pending := by
  exact ⟨rfl, rfl, rfl, rfl, rfl, rfl, rfl, rfl, rfl, rfl, rfl, rfl, rfl, rfl, rfl, rfl, rfl, rfl, rfl, rfl, rfl, rfl, rfl⟩


theorem State.modTsk_frame (s : State) (f : TskSt → TskSt) :
    (State.modTsk s f).regs = s.regs ∧ (State.modTsk s f).pairLo = s.pairLo ∧ (State.modTsk s f).pairCap = s.pairCap ∧ (State.modTsk s f).out = s.out ∧ (State.modTsk s f).free = s.free ∧ (State.modTsk s f).policy = s.policy ∧ (State.modTsk s f).err = s.err ∧ (State.modTsk s f).chk = s.chk ∧ (State.modTsk s f).snp = s.snp ∧ (State.modTsk s f).irq = s.irq ∧ (State.modTsk s f).ezl = s.ezl ∧ (State.modTsk s f).stp = s.stp ∧ (State.modTsk s f).fmt = s.fmt ∧ (State.modTsk s f).arr = s.arr ∧ (State.modTsk s f).vec = s.vec ∧ (State.modTsk s f).mxe = s.mxe ∧ (State.modTsk s f).upd = s.upd ∧ (State.modTsk s f).red = s.red ∧ (State.modTsk s f).mem = s.mem ∧ (State.modTsk s f).hif = s.hif ∧ (State.modTsk s f).img = s.img ∧ (State.modTsk s f).pwr = s.pwr ∧ (State.modTsk s f).pending = s.pending := by
  exact ⟨rfl, rfl, rfl, rfl, rfl, rfl, rfl, rfl, rfl, rfl, rfl, rfl, rfl, rfl, rfl, rfl, rfl, rfl, rfl, rfl, rfl, rfl, rfl⟩


theorem State.modMem_frame (s : State) (f : MemSt → MemSt) :
    (State.modMem s f).regs = s.regs ∧ (State.modMem s f).pairLo = s.pairLo ∧ (State.modMem s f).pairCap = s.pairCap ∧ (State.modMem s f).out = s.out ∧ (State.modMem s f).free = s.free ∧ (State.modMem s f).policy = s.policy ∧ (State.modMem s f).err = s.err ∧ (State.modMem s f).chk = s.chk ∧ (State.modMem s f).snp = s.snp ∧ (State.modMem s f).irq = s.irq ∧ (State.modMem s f).ezl = s.ezl ∧ (State.modMem s f).stp = s.stp ∧ (State.modMem s f).fmt = s.fmt ∧ (State.modMem s f).arr = s.arr ∧ (State.modMem s f).vec = s.vec ∧ (State.modMem s f).mxe = s.mxe ∧ (State.modMem s f).upd = s.upd ∧ (State.modMem s f).red = s.red ∧ (State.modMem s f).tsk = s.tsk ∧ (State.modMem s f).hif = s.hif ∧ (State.modMem s f).img = s.img ∧ (State.modMem s f).pwr = s.pwr ∧ (State.modMem s f).pending = s.pending := by
  exact ⟨rfl, rfl, rfl, rfl, rfl, rfl, rfl, rfl, rfl, rfl, rfl, rfl, rfl, rfl, rfl, rfl, rfl, rfl, rfl, rfl, rfl, rfl, rfl⟩


theorem State.modHif_frame (s : State) (f : HifSt → HifSt) :
    (State.modHif s f).regs = s.regs ∧ (State.modHif s f).pairLo = s.pairLo ∧ (State.modHif s f).pairCap = s.pairCap ∧ (State.modHif s f).out = s.out ∧ (State.modHif s f).free = s.free ∧ (State.modHif s f).policy = s.policy ∧ (State.modHif s f).err = s.err ∧ (State.modHif s f).chk = s.chk ∧ (State.modHif s f).snp = s.snp ∧ (State.modHif s f).irq = s.irq ∧ (State.modHif s f).ezl = s.ezl ∧ (State.modHif s f).stp = s.stp ∧ (State.modHif s f).fmt = s.fmt ∧ (State.modHif s f).arr = s.arr ∧ (State.modHif s f).vec = s.vec ∧ (State.modHif s f).mxe = s.mxe ∧ (State.modHif s f).upd = s.upd ∧ (State.modHif s f).red = s.red ∧ (State.modHif s f).tsk = s.tsk ∧ (State.modHif s f).mem = s.mem ∧ (State.modHif s f).img = s.img ∧ (State.modHif s f).pwr = s.pwr ∧ (State.modHif s f).pending = s.pending := by
  exact ⟨rfl, rfl, rfl, rfl, rfl, rfl, rfl, rfl, rfl, rfl, rfl, rfl, rfl, rfl, rfl, rfl, rfl, rfl, rfl, rfl, rfl, rfl, rfl⟩


theorem State.modImg_frame (s : State) (f : ImgSt → ImgSt) :
    (State.modImg s f).regs = s.regs ∧ (State.modImg s f).pairLo = s.pairLo ∧ (State.modImg s f).pairCap = s.pairCap ∧ (State.modImg s f).out = s.out ∧ (State.modImg s f).free = s.free ∧ (State.modImg s f).policy = s.policy ∧ (State.modImg s f).err = s.err ∧ (State.modImg s f).chk = s.chk ∧ (State.modImg s f).snp = s.snp ∧ (State.modImg s f).irq = s.irq ∧ (State.modImg s f).ezl = s.ezl ∧ (State.modImg s f).stp = s.stp ∧ (State.modImg s f).fmt = s.fmt ∧ (State.modImg s f).arr = s.arr ∧ (State.modImg s f).vec = s.vec ∧ (State.modImg s f).mxe = s.mxe ∧ (State.modImg s f).upd = s.upd ∧ (State.modImg s f).red = s.red ∧ (State.modImg s f).tsk = s.tsk ∧ (State.modImg s f).mem = s.mem ∧ (State.modImg s f).hif = s.hif ∧ (State.modImg s f).pwr = s.pwr ∧ (State.modImg s f).pending = s.pending := by
  exact ⟨rfl, rfl, rfl, rfl, rfl, rfl, rfl, rfl, rfl, rfl, rfl, rfl, rfl, rfl, rfl, rfl, rfl, rfl, rfl, rfl, rfl, rfl, rfl⟩


theorem State.modPwr_frame (s : State) (f : PwrSt → PwrSt) :
    (State.modPwr s f).regs = s.regs ∧ (State.modPwr s f).pairLo = s.pairLo ∧ (State.modPwr s f).pairCap = s.pairCap ∧ (State.modPwr s f).out = s.out ∧ (State.modPwr s f).free = s.free ∧ (State.modPwr s f).policy = s.policy ∧ (State.modPwr s f).err = s.err ∧ (State.modPwr s f).chk = s.chk ∧ (State.modPwr s f).snp = s.snp ∧ (State.modPwr s f).irq = s.irq ∧ (State.modPwr s f).ezl = s.ezl ∧ (State.modPwr s f).stp = s.stp ∧ (State.modPwr s f).fmt = s.fmt ∧ (State.modPwr s f).arr = s.arr ∧ (State.modPwr s f).vec = s.vec ∧ (State.modPwr s f).mxe = s.mxe ∧ (State.modPwr s f).upd = s.upd ∧ (State.modPwr s f).red = s.red ∧ (State.modPwr s f).tsk = s.tsk ∧ (State.modPwr s f).mem = s.mem ∧ (State.modPwr s f).hif = s.hif ∧ (State.modPwr s f).img = s.img ∧ (State.modPwr s f).pending = s.pending := by
  exact ⟨rfl, rfl, rfl, rfl, rfl, rfl, rfl, rfl, rfl, rfl, rfl, rfl, rfl, rfl, rfl, rfl, rfl, rfl, rfl, rfl, rfl, rfl, rfl⟩


theorem State.setUnit_frame (s : State) (k : Nat) (x : UnitSt) :
    (State.setUnit s k x).regs = s.regs ∧ (State.setUnit s k x).pairLo = s.pairLo ∧ (State.setUnit s k x).pairCap = s.pairCap ∧ (State.setUnit s k x).out = s.out ∧ (State.setUnit s k x).free = s.free ∧ (State.setUnit s k x).policy = s.policy ∧ (State.setUnit s k x).err = s.err ∧ (State.setUnit s k x).chk = s.chk ∧ (State.setUnit s k x).snp = s.snp ∧ (State.setUnit s k x).irq = s.irq ∧ (State.setUnit s k x).ezl = s.ezl ∧ (State.setUnit s k x).stp = s.stp ∧ (State.setUnit s k x).fmt = s.fmt ∧ (State.setUnit s k x).arr = s.arr ∧ (State.setUnit s k x).mxe = s.mxe ∧ (State.setUnit s k x).upd = s.upd ∧ (State.setUnit s k x).red = s.red ∧ (State.setUnit s k x).tsk = s.tsk ∧ (State.setUnit s k x).mem = s.mem ∧ (State.setUnit s k x).hif = s.hif ∧ (State.setUnit s k x).img = s.img ∧ (State.setUnit s k x).pwr = s.pwr ∧ (State.setUnit s k x).pending = s.pending := by
  exact ⟨rfl, rfl, rfl, rfl, rfl, rfl, rfl, rfl, rfl, rfl, rfl, rfl, rfl, rfl, rfl, rfl, rfl, rfl, rfl, rfl, rfl, rfl, rfl⟩


theorem State.setTask_frame (s : State) (k : Nat) (t : Option TaskEnt) :
    (State.setTask s k t).regs = s.regs ∧ (State.setTask s k t).pairLo = s.pairLo ∧ (State.setTask s k t).pairCap = s.pairCap ∧ (State.setTask s k t).out = s.out ∧ (State.setTask s k t).free = s.free ∧ (State.setTask s k t).policy = s.policy ∧ (State.setTask s k t).err = s.err ∧ (State.setTask s k t).chk = s.chk ∧ (State.setTask s k t).snp = s.snp ∧ (State.setTask s k t).irq = s.irq ∧ (State.setTask s k t).ezl = s.ezl ∧ (State.setTask s k t).stp = s.stp ∧ (State.setTask s k t).fmt = s.fmt ∧ (State.setTask s k t).arr = s.arr ∧ (State.setTask s k t).vec = s.vec ∧ (State.setTask s k t).mxe = s.mxe ∧ (State.setTask s k t).upd = s.upd ∧ (State.setTask s k t).red = s.red ∧ (State.setTask s k t).mem = s.mem ∧ (State.setTask s k t).hif = s.hif ∧ (State.setTask s k t).img = s.img ∧ (State.setTask s k t).pwr = s.pwr ∧ (State.setTask s k t).pending = s.pending := by
  exact ⟨rfl, rfl, rfl, rfl, rfl, rfl, rfl, rfl, rfl, rfl, rfl, rfl, rfl, rfl, rfl, rfl, rfl, rfl, rfl, rfl, rfl, rfl, rfl⟩


theorem State.setChan_frame (s : State) (c : Nat) (x : ChanSt) :
    (State.setChan s c x).regs = s.regs ∧ (State.setChan s c x).pairLo = s.pairLo ∧ (State.setChan s c x).pairCap = s.pairCap ∧ (State.setChan s c x).out = s.out ∧ (State.setChan s c x).free = s.free ∧ (State.setChan s c x).policy = s.policy ∧ (State.setChan s c x).err = s.err ∧ (State.setChan s c x).chk = s.chk ∧ (State.setChan s c x).snp = s.snp ∧ (State.setChan s c x).irq = s.irq ∧ (State.setChan s c x).ezl = s.ezl ∧ (State.setChan s c x).stp = s.stp ∧ (State.setChan s c x).fmt = s.fmt ∧ (State.setChan s c x).arr = s.arr ∧ (State.setChan s c x).vec = s.vec ∧ (State.setChan s c x).mxe = s.mxe ∧ (State.setChan s c x).upd = s.upd ∧ (State.setChan s c x).tsk = s.tsk ∧ (State.setChan s c x).mem = s.mem ∧ (State.setChan s c x).hif = s.hif ∧ (State.setChan s c x).img = s.img ∧ (State.setChan s c x).pwr = s.pwr ∧ (State.setChan s c x).pending = s.pending := by
  exact ⟨rfl, rfl, rfl, rfl, rfl, rfl, rfl, rfl, rfl, rfl, rfl, rfl, rfl, rfl, rfl, rfl, rfl, rfl, rfl, rfl, rfl, rfl, rfl⟩


theorem State.setUpd_frame (s : State) (d : Nat) (x : UpdDie) :
    (State.setUpd s d x).regs = s.regs ∧ (State.setUpd s d x).pairLo = s.pairLo ∧ (State.setUpd s d x).pairCap = s.pairCap ∧ (State.setUpd s d x).out = s.out ∧ (State.setUpd s d x).free = s.free ∧ (State.setUpd s d x).policy = s.policy ∧ (State.setUpd s d x).err = s.err ∧ (State.setUpd s d x).chk = s.chk ∧ (State.setUpd s d x).snp = s.snp ∧ (State.setUpd s d x).irq = s.irq ∧ (State.setUpd s d x).ezl = s.ezl ∧ (State.setUpd s d x).stp = s.stp ∧ (State.setUpd s d x).fmt = s.fmt ∧ (State.setUpd s d x).arr = s.arr ∧ (State.setUpd s d x).vec = s.vec ∧ (State.setUpd s d x).mxe = s.mxe ∧ (State.setUpd s d x).red = s.red ∧ (State.setUpd s d x).tsk = s.tsk ∧ (State.setUpd s d x).mem = s.mem ∧ (State.setUpd s d x).hif = s.hif ∧ (State.setUpd s d x).img = s.img ∧ (State.setUpd s d x).pwr = s.pwr ∧ (State.setUpd s d x).pending = s.pending := by
  exact ⟨rfl, rfl, rfl, rfl, rfl, rfl, rfl, rfl, rfl, rfl, rfl, rfl, rfl, rfl, rfl, rfl, rfl, rfl, rfl, rfl, rfl, rfl, rfl⟩


theorem State.setCtx_frame (s : State) (h : Nat) (x : CtxSt) :
    (State.setCtx s h x).regs = s.regs ∧ (State.setCtx s h x).pairLo = s.pairLo ∧ (State.setCtx s h x).pairCap = s.pairCap ∧ (State.setCtx s h x).out = s.out ∧ (State.setCtx s h x).free = s.free ∧ (State.setCtx s h x).policy = s.policy ∧ (State.setCtx s h x).err = s.err ∧ (State.setCtx s h x).chk = s.chk ∧ (State.setCtx s h x).snp = s.snp ∧ (State.setCtx s h x).irq = s.irq ∧ (State.setCtx s h x).ezl = s.ezl ∧ (State.setCtx s h x).stp = s.stp ∧ (State.setCtx s h x).fmt = s.fmt ∧ (State.setCtx s h x).arr = s.arr ∧ (State.setCtx s h x).vec = s.vec ∧ (State.setCtx s h x).mxe = s.mxe ∧ (State.setCtx s h x).upd = s.upd ∧ (State.setCtx s h x).red = s.red ∧ (State.setCtx s h x).tsk = s.tsk ∧ (State.setCtx s h x).hif = s.hif ∧ (State.setCtx s h x).img = s.img ∧ (State.setCtx s h x).pwr = s.pwr ∧ (State.setCtx s h x).pending = s.pending := by
  exact ⟨rfl, rfl, rfl, rfl, rfl, rfl, rfl, rfl, rfl, rfl, rfl, rfl, rfl, rfl, rfl, rfl, rfl, rfl, rfl, rfl, rfl, rfl, rfl⟩


theorem State.modCnt_frame (s : State) (f : AttemptCnt → AttemptCnt) :
    (State.modCnt s f).regs = s.regs ∧ (State.modCnt s f).pairLo = s.pairLo ∧ (State.modCnt s f).pairCap = s.pairCap ∧ (State.modCnt s f).out = s.out ∧ (State.modCnt s f).free = s.free ∧ (State.modCnt s f).policy = s.policy ∧ (State.modCnt s f).err = s.err ∧ (State.modCnt s f).chk = s.chk ∧ (State.modCnt s f).snp = s.snp ∧ (State.modCnt s f).irq = s.irq ∧ (State.modCnt s f).ezl = s.ezl ∧ (State.modCnt s f).fmt = s.fmt ∧ (State.modCnt s f).arr = s.arr ∧ (State.modCnt s f).vec = s.vec ∧ (State.modCnt s f).mxe = s.mxe ∧ (State.modCnt s f).upd = s.upd ∧ (State.modCnt s f).red = s.red ∧ (State.modCnt s f).tsk = s.tsk ∧ (State.modCnt s f).mem = s.mem ∧ (State.modCnt s f).hif = s.hif ∧ (State.modCnt s f).img = s.img ∧ (State.modCnt s f).pwr = s.pwr ∧ (State.modCnt s f).pending = s.pending := by
  exact ⟨rfl, rfl, rfl, rfl, rfl, rfl, rfl, rfl, rfl, rfl, rfl, rfl, rfl, rfl, rfl, rfl, rfl, rfl, rfl, rfl, rfl, rfl, rfl⟩


theorem State.setChk_frame (s : State) (u : Nat) (c : ChkUnit) :
    (State.setChk s u c).regs = s.regs ∧ (State.setChk s u c).pairLo = s.pairLo ∧ (State.setChk s u c).pairCap = s.pairCap ∧ (State.setChk s u c).out = s.out ∧ (State.setChk s u c).free = s.free ∧ (State.setChk s u c).policy = s.policy ∧ (State.setChk s u c).err = s.err ∧ (State.setChk s u c).snp = s.snp ∧ (State.setChk s u c).irq = s.irq ∧ (State.setChk s u c).ezl = s.ezl ∧ (State.setChk s u c).stp = s.stp ∧ (State.setChk s u c).fmt = s.fmt ∧ (State.setChk s u c).arr = s.arr ∧ (State.setChk s u c).vec = s.vec ∧ (State.setChk s u c).mxe = s.mxe ∧ (State.setChk s u c).upd = s.upd ∧ (State.setChk s u c).red = s.red ∧ (State.setChk s u c).tsk = s.tsk ∧ (State.setChk s u c).mem = s.mem ∧ (State.setChk s u c).hif = s.hif ∧ (State.setChk s u c).img = s.img ∧ (State.setChk s u c).pwr = s.pwr ∧ (State.setChk s u c).pending = s.pending := by
  exact ⟨rfl, rfl, rfl, rfl, rfl, rfl, rfl, rfl, rfl, rfl, rfl, rfl, rfl, rfl, rfl, rfl, rfl, rfl, rfl, rfl, rfl, rfl, rfl⟩


theorem State.setIrq_frame (s : State) (d : Nat) (q : IrqSt) :
    (State.setIrq s d q).regs = s.regs ∧ (State.setIrq s d q).pairLo = s.pairLo ∧ (State.setIrq s d q).pairCap = s.pairCap ∧ (State.setIrq s d q).out = s.out ∧ (State.setIrq s d q).free = s.free ∧ (State.setIrq s d q).policy = s.policy ∧ (State.setIrq s d q).err = s.err ∧ (State.setIrq s d q).chk = s.chk ∧ (State.setIrq s d q).snp = s.snp ∧ (State.setIrq s d q).ezl = s.ezl ∧ (State.setIrq s d q).stp = s.stp ∧ (State.setIrq s d q).fmt = s.fmt ∧ (State.setIrq s d q).arr = s.arr ∧ (State.setIrq s d q).vec = s.vec ∧ (State.setIrq s d q).mxe = s.mxe ∧ (State.setIrq s d q).upd = s.upd ∧ (State.setIrq s d q).red = s.red ∧ (State.setIrq s d q).tsk = s.tsk ∧ (State.setIrq s d q).mem = s.mem ∧ (State.setIrq s d q).hif = s.hif ∧ (State.setIrq s d q).img = s.img ∧ (State.setIrq s d q).pwr = s.pwr ∧ (State.setIrq s d q).pending = s.pending := by
  exact ⟨rfl, rfl, rfl, rfl, rfl, rfl, rfl, rfl, rfl, rfl, rfl, rfl, rfl, rfl, rfl, rfl, rfl, rfl, rfl, rfl, rfl, rfl, rfl⟩


theorem State.setLnk_frame (s : State) (l : Nat) (k : LinkSt) :
    (State.setLnk s l k).regs = s.regs ∧ (State.setLnk s l k).pairLo = s.pairLo ∧ (State.setLnk s l k).pairCap = s.pairCap ∧ (State.setLnk s l k).out = s.out ∧ (State.setLnk s l k).free = s.free ∧ (State.setLnk s l k).policy = s.policy ∧ (State.setLnk s l k).err = s.err ∧ (State.setLnk s l k).chk = s.chk ∧ (State.setLnk s l k).snp = s.snp ∧ (State.setLnk s l k).irq = s.irq ∧ (State.setLnk s l k).stp = s.stp ∧ (State.setLnk s l k).fmt = s.fmt ∧ (State.setLnk s l k).arr = s.arr ∧ (State.setLnk s l k).vec = s.vec ∧ (State.setLnk s l k).mxe = s.mxe ∧ (State.setLnk s l k).upd = s.upd ∧ (State.setLnk s l k).red = s.red ∧ (State.setLnk s l k).tsk = s.tsk ∧ (State.setLnk s l k).mem = s.mem ∧ (State.setLnk s l k).hif = s.hif ∧ (State.setLnk s l k).img = s.img ∧ (State.setLnk s l k).pwr = s.pwr ∧ (State.setLnk s l k).pending = s.pending := by
  exact ⟨rfl, rfl, rfl, rfl, rfl, rfl, rfl, rfl, rfl, rfl, rfl, rfl, rfl, rfl, rfl, rfl, rfl, rfl, rfl, rfl, rfl, rfl, rfl⟩


theorem State.emit_frame (s : State) (o : Out) :
    (State.emit s o).regs = s.regs ∧ (State.emit s o).pairLo = s.pairLo ∧ (State.emit s o).pairCap = s.pairCap ∧ (State.emit s o).free = s.free ∧ (State.emit s o).policy = s.policy ∧ (State.emit s o).err = s.err ∧ (State.emit s o).chk = s.chk ∧ (State.emit s o).snp = s.snp ∧ (State.emit s o).irq = s.irq ∧ (State.emit s o).ezl = s.ezl ∧ (State.emit s o).stp = s.stp ∧ (State.emit s o).fmt = s.fmt ∧ (State.emit s o).arr = s.arr ∧ (State.emit s o).vec = s.vec ∧ (State.emit s o).mxe = s.mxe ∧ (State.emit s o).upd = s.upd ∧ (State.emit s o).red = s.red ∧ (State.emit s o).tsk = s.tsk ∧ (State.emit s o).mem = s.mem ∧ (State.emit s o).hif = s.hif ∧ (State.emit s o).img = s.img ∧ (State.emit s o).pwr = s.pwr ∧ (State.emit s o).pending = s.pending := by
  exact ⟨rfl, rfl, rfl, rfl, rfl, rfl, rfl, rfl, rfl, rfl, rfl, rfl, rfl, rfl, rfl, rfl, rfl, rfl, rfl, rfl, rfl, rfl, rfl⟩


theorem State.logEnt_frame (s : State) (e : LogEnt) :
    (State.logEnt s e).pairLo = s.pairLo ∧ (State.logEnt s e).pairCap = s.pairCap ∧ (State.logEnt s e).out = s.out ∧ (State.logEnt s e).free = s.free ∧ (State.logEnt s e).policy = s.policy ∧ (State.logEnt s e).chk = s.chk ∧ (State.logEnt s e).snp = s.snp ∧ (State.logEnt s e).irq = s.irq ∧ (State.logEnt s e).ezl = s.ezl ∧ (State.logEnt s e).stp = s.stp ∧ (State.logEnt s e).fmt = s.fmt ∧ (State.logEnt s e).arr = s.arr ∧ (State.logEnt s e).vec = s.vec ∧ (State.logEnt s e).mxe = s.mxe ∧ (State.logEnt s e).upd = s.upd ∧ (State.logEnt s e).red = s.red ∧ (State.logEnt s e).tsk = s.tsk ∧ (State.logEnt s e).mem = s.mem ∧ (State.logEnt s e).hif = s.hif ∧ (State.logEnt s e).img = s.img ∧ (State.logEnt s e).pwr = s.pwr ∧ (State.logEnt s e).pending = s.pending := by
  have fr1 := @State.event_frame
  have fr2 := @State.incReg_frame
  have fr3 := @State.modErr_frame
  simp [State.logEnt, fr1, fr2, fr3]


theorem State.log_frame (s : State) (blk cls bit cause detail : Nat) :
    (State.log s blk cls bit cause detail).pairLo = s.pairLo ∧ (State.log s blk cls bit cause detail).pairCap = s.pairCap ∧ (State.log s blk cls bit cause detail).out = s.out ∧ (State.log s blk cls bit cause detail).free = s.free ∧ (State.log s blk cls bit cause detail).policy = s.policy ∧ (State.log s blk cls bit cause detail).chk = s.chk ∧ (State.log s blk cls bit cause detail).snp = s.snp ∧ (State.log s blk cls bit cause detail).irq = s.irq ∧ (State.log s blk cls bit cause detail).ezl = s.ezl ∧ (State.log s blk cls bit cause detail).stp = s.stp ∧ (State.log s blk cls bit cause detail).fmt = s.fmt ∧ (State.log s blk cls bit cause detail).arr = s.arr ∧ (State.log s blk cls bit cause detail).vec = s.vec ∧ (State.log s blk cls bit cause detail).mxe = s.mxe ∧ (State.log s blk cls bit cause detail).upd = s.upd ∧ (State.log s blk cls bit cause detail).red = s.red ∧ (State.log s blk cls bit cause detail).tsk = s.tsk ∧ (State.log s blk cls bit cause detail).mem = s.mem ∧ (State.log s blk cls bit cause detail).hif = s.hif ∧ (State.log s blk cls bit cause detail).img = s.img ∧ (State.log s blk cls bit cause detail).pwr = s.pwr ∧ (State.log s blk cls bit cause detail).pending = s.pending := by
  have fr1 := @State.logEnt_frame
  simp [State.log, fr1]


theorem State.eventLog_frame (s : State) (a i blk cls cause detail : Nat) :
    (State.eventLog s a i blk cls cause detail).pairLo = s.pairLo ∧ (State.eventLog s a i blk cls cause detail).pairCap = s.pairCap ∧ (State.eventLog s a i blk cls cause detail).out = s.out ∧ (State.eventLog s a i blk cls cause detail).free = s.free ∧ (State.eventLog s a i blk cls cause detail).policy = s.policy ∧ (State.eventLog s a i blk cls cause detail).chk = s.chk ∧ (State.eventLog s a i blk cls cause detail).snp = s.snp ∧ (State.eventLog s a i blk cls cause detail).irq = s.irq ∧ (State.eventLog s a i blk cls cause detail).ezl = s.ezl ∧ (State.eventLog s a i blk cls cause detail).stp = s.stp ∧ (State.eventLog s a i blk cls cause detail).fmt = s.fmt ∧ (State.eventLog s a i blk cls cause detail).arr = s.arr ∧ (State.eventLog s a i blk cls cause detail).vec = s.vec ∧ (State.eventLog s a i blk cls cause detail).mxe = s.mxe ∧ (State.eventLog s a i blk cls cause detail).upd = s.upd ∧ (State.eventLog s a i blk cls cause detail).red = s.red ∧ (State.eventLog s a i blk cls cause detail).tsk = s.tsk ∧ (State.eventLog s a i blk cls cause detail).mem = s.mem ∧ (State.eventLog s a i blk cls cause detail).hif = s.hif ∧ (State.eventLog s a i blk cls cause detail).img = s.img ∧ (State.eventLog s a i blk cls cause detail).pwr = s.pwr ∧ (State.eventLog s a i blk cls cause detail).pending = s.pending := by
  have fr1 := @State.event_frame
  have fr2 := @State.log_frame
  simp [State.eventLog, fr1, fr2]


theorem State.refuseBit_frame (s : State) (rq : Requester) (off : Nat) (v : Word) (cause bit : Nat) :
    (State.refuseBit s rq off v cause bit).pairLo = s.pairLo ∧ (State.refuseBit s rq off v cause bit).pairCap = s.pairCap ∧ (State.refuseBit s rq off v cause bit).out = s.out ∧ (State.refuseBit s rq off v cause bit).free = s.free ∧ (State.refuseBit s rq off v cause bit).policy = s.policy ∧ (State.refuseBit s rq off v cause bit).chk = s.chk ∧ (State.refuseBit s rq off v cause bit).snp = s.snp ∧ (State.refuseBit s rq off v cause bit).irq = s.irq ∧ (State.refuseBit s rq off v cause bit).ezl = s.ezl ∧ (State.refuseBit s rq off v cause bit).stp = s.stp ∧ (State.refuseBit s rq off v cause bit).fmt = s.fmt ∧ (State.refuseBit s rq off v cause bit).arr = s.arr ∧ (State.refuseBit s rq off v cause bit).vec = s.vec ∧ (State.refuseBit s rq off v cause bit).mxe = s.mxe ∧ (State.refuseBit s rq off v cause bit).upd = s.upd ∧ (State.refuseBit s rq off v cause bit).red = s.red ∧ (State.refuseBit s rq off v cause bit).tsk = s.tsk ∧ (State.refuseBit s rq off v cause bit).mem = s.mem ∧ (State.refuseBit s rq off v cause bit).hif = s.hif ∧ (State.refuseBit s rq off v cause bit).img = s.img ∧ (State.refuseBit s rq off v cause bit).pwr = s.pwr ∧ (State.refuseBit s rq off v cause bit).pending = s.pending := by
  have fr1 := @State.log_frame
  simp [State.refuseBit, fr1]


theorem State.refuseWrite_frame (s : State) (rq : Requester) (off : Nat) (v : Word) (cause : Nat) :
    (State.refuseWrite s rq off v cause).pairLo = s.pairLo ∧ (State.refuseWrite s rq off v cause).pairCap = s.pairCap ∧ (State.refuseWrite s rq off v cause).out = s.out ∧ (State.refuseWrite s rq off v cause).free = s.free ∧ (State.refuseWrite s rq off v cause).policy = s.policy ∧ (State.refuseWrite s rq off v cause).chk = s.chk ∧ (State.refuseWrite s rq off v cause).snp = s.snp ∧ (State.refuseWrite s rq off v cause).irq = s.irq ∧ (State.refuseWrite s rq off v cause).ezl = s.ezl ∧ (State.refuseWrite s rq off v cause).stp = s.stp ∧ (State.refuseWrite s rq off v cause).fmt = s.fmt ∧ (State.refuseWrite s rq off v cause).arr = s.arr ∧ (State.refuseWrite s rq off v cause).vec = s.vec ∧ (State.refuseWrite s rq off v cause).mxe = s.mxe ∧ (State.refuseWrite s rq off v cause).upd = s.upd ∧ (State.refuseWrite s rq off v cause).red = s.red ∧ (State.refuseWrite s rq off v cause).tsk = s.tsk ∧ (State.refuseWrite s rq off v cause).mem = s.mem ∧ (State.refuseWrite s rq off v cause).hif = s.hif ∧ (State.refuseWrite s rq off v cause).img = s.img ∧ (State.refuseWrite s rq off v cause).pwr = s.pwr ∧ (State.refuseWrite s rq off v cause).pending = s.pending := by
  have fr1 := @State.refuseBit_frame
  have fr2 := @State.log_frame
  simp [State.refuseWrite, fr1, fr2]


theorem State.draw_frame (s : State) :
    (State.draw s).2.regs = s.regs ∧ (State.draw s).2.pairLo = s.pairLo ∧ (State.draw s).2.pairCap = s.pairCap ∧ (State.draw s).2.out = s.out ∧ (State.draw s).2.policy = s.policy ∧ (State.draw s).2.err = s.err ∧ (State.draw s).2.chk = s.chk ∧ (State.draw s).2.snp = s.snp ∧ (State.draw s).2.irq = s.irq ∧ (State.draw s).2.ezl = s.ezl ∧ (State.draw s).2.stp = s.stp ∧ (State.draw s).2.fmt = s.fmt ∧ (State.draw s).2.arr = s.arr ∧ (State.draw s).2.vec = s.vec ∧ (State.draw s).2.mxe = s.mxe ∧ (State.draw s).2.upd = s.upd ∧ (State.draw s).2.red = s.red ∧ (State.draw s).2.tsk = s.tsk ∧ (State.draw s).2.mem = s.mem ∧ (State.draw s).2.hif = s.hif ∧ (State.draw s).2.img = s.img ∧ (State.draw s).2.pwr = s.pwr ∧ (State.draw s).2.pending = s.pending := by
  exact ⟨rfl, rfl, rfl, rfl, rfl, rfl, rfl, rfl, rfl, rfl, rfl, rfl, rfl, rfl, rfl, rfl, rfl, rfl, rfl, rfl, rfl, rfl, rfl⟩


theorem State.unassignedRead_frame (s : State) (len : Nat) :
    (State.unassignedRead s len).regs = s.regs ∧ (State.unassignedRead s len).pairLo = s.pairLo ∧ (State.unassignedRead s len).pairCap = s.pairCap ∧ (State.unassignedRead s len).free = s.free ∧ (State.unassignedRead s len).policy = s.policy ∧ (State.unassignedRead s len).err = s.err ∧ (State.unassignedRead s len).chk = s.chk ∧ (State.unassignedRead s len).snp = s.snp ∧ (State.unassignedRead s len).irq = s.irq ∧ (State.unassignedRead s len).ezl = s.ezl ∧ (State.unassignedRead s len).stp = s.stp ∧ (State.unassignedRead s len).fmt = s.fmt ∧ (State.unassignedRead s len).arr = s.arr ∧ (State.unassignedRead s len).vec = s.vec ∧ (State.unassignedRead s len).mxe = s.mxe ∧ (State.unassignedRead s len).upd = s.upd ∧ (State.unassignedRead s len).red = s.red ∧ (State.unassignedRead s len).tsk = s.tsk ∧ (State.unassignedRead s len).mem = s.mem ∧ (State.unassignedRead s len).hif = s.hif ∧ (State.unassignedRead s len).img = s.img ∧ (State.unassignedRead s len).pwr = s.pwr ∧ (State.unassignedRead s len).pending = s.pending := by
  have fr1 := @State.emit_frame
  simp [State.unassignedRead, fr1]


theorem State.unassignedWrite_frame (s : State) (off len : Nat) :
    (State.unassignedWrite s off len).pairLo = s.pairLo ∧ (State.unassignedWrite s off len).pairCap = s.pairCap ∧ (State.unassignedWrite s off len).out = s.out ∧ (State.unassignedWrite s off len).free = s.free ∧ (State.unassignedWrite s off len).policy = s.policy ∧ (State.unassignedWrite s off len).chk = s.chk ∧ (State.unassignedWrite s off len).snp = s.snp ∧ (State.unassignedWrite s off len).irq = s.irq ∧ (State.unassignedWrite s off len).ezl = s.ezl ∧ (State.unassignedWrite s off len).stp = s.stp ∧ (State.unassignedWrite s off len).fmt = s.fmt ∧ (State.unassignedWrite s off len).arr = s.arr ∧ (State.unassignedWrite s off len).vec = s.vec ∧ (State.unassignedWrite s off len).mxe = s.mxe ∧ (State.unassignedWrite s off len).upd = s.upd ∧ (State.unassignedWrite s off len).red = s.red ∧ (State.unassignedWrite s off len).tsk = s.tsk ∧ (State.unassignedWrite s off len).mem = s.mem ∧ (State.unassignedWrite s off len).hif = s.hif ∧ (State.unassignedWrite s off len).img = s.img ∧ (State.unassignedWrite s off len).pwr = s.pwr ∧ (State.unassignedWrite s off len).pending = s.pending := by
  have fr1 := @State.log_frame
  simp [State.unassignedWrite, fr1]


theorem State.hbmWrite_frame (s : State) (a : Nat) (bs : List Byte) :
    (State.hbmWrite s a bs).regs = s.regs ∧ (State.hbmWrite s a bs).pairLo = s.pairLo ∧ (State.hbmWrite s a bs).pairCap = s.pairCap ∧ (State.hbmWrite s a bs).out = s.out ∧ (State.hbmWrite s a bs).free = s.free ∧ (State.hbmWrite s a bs).policy = s.policy ∧ (State.hbmWrite s a bs).err = s.err ∧ (State.hbmWrite s a bs).chk = s.chk ∧ (State.hbmWrite s a bs).snp = s.snp ∧ (State.hbmWrite s a bs).irq = s.irq ∧ (State.hbmWrite s a bs).ezl = s.ezl ∧ (State.hbmWrite s a bs).stp = s.stp ∧ (State.hbmWrite s a bs).fmt = s.fmt ∧ (State.hbmWrite s a bs).arr = s.arr ∧ (State.hbmWrite s a bs).vec = s.vec ∧ (State.hbmWrite s a bs).mxe = s.mxe ∧ (State.hbmWrite s a bs).upd = s.upd ∧ (State.hbmWrite s a bs).red = s.red ∧ (State.hbmWrite s a bs).tsk = s.tsk ∧ (State.hbmWrite s a bs).hif = s.hif ∧ (State.hbmWrite s a bs).img = s.img ∧ (State.hbmWrite s a bs).pwr = s.pwr ∧ (State.hbmWrite s a bs).pending = s.pending := by
  have fr1 := @State.modMem_frame
  simp [State.hbmWrite, fr1]


theorem State.ceNote_frame (s : State) (u : Nat) :
    (State.ceNote s u).pairLo = s.pairLo ∧ (State.ceNote s u).pairCap = s.pairCap ∧ (State.ceNote s u).out = s.out ∧ (State.ceNote s u).free = s.free ∧ (State.ceNote s u).policy = s.policy ∧ (State.ceNote s u).err = s.err ∧ (State.ceNote s u).chk = s.chk ∧ (State.ceNote s u).snp = s.snp ∧ (State.ceNote s u).irq = s.irq ∧ (State.ceNote s u).ezl = s.ezl ∧ (State.ceNote s u).stp = s.stp ∧ (State.ceNote s u).fmt = s.fmt ∧ (State.ceNote s u).arr = s.arr ∧ (State.ceNote s u).vec = s.vec ∧ (State.ceNote s u).mxe = s.mxe ∧ (State.ceNote s u).upd = s.upd ∧ (State.ceNote s u).red = s.red ∧ (State.ceNote s u).tsk = s.tsk ∧ (State.ceNote s u).mem = s.mem ∧ (State.ceNote s u).hif = s.hif ∧ (State.ceNote s u).img = s.img ∧ (State.ceNote s u).pwr = s.pwr ∧ (State.ceNote s u).pending = s.pending := by
  have fr1 := @State.incReg_frame
  simp [State.ceNote, fr1]


theorem State.ceNotes_frame (s : State) (us : List Nat) :
    (State.ceNotes s us).pairLo = s.pairLo ∧ (State.ceNotes s us).pairCap = s.pairCap ∧ (State.ceNotes s us).out = s.out ∧ (State.ceNotes s us).free = s.free ∧ (State.ceNotes s us).policy = s.policy ∧ (State.ceNotes s us).err = s.err ∧ (State.ceNotes s us).chk = s.chk ∧ (State.ceNotes s us).snp = s.snp ∧ (State.ceNotes s us).irq = s.irq ∧ (State.ceNotes s us).ezl = s.ezl ∧ (State.ceNotes s us).stp = s.stp ∧ (State.ceNotes s us).fmt = s.fmt ∧ (State.ceNotes s us).arr = s.arr ∧ (State.ceNotes s us).vec = s.vec ∧ (State.ceNotes s us).mxe = s.mxe ∧ (State.ceNotes s us).upd = s.upd ∧ (State.ceNotes s us).red = s.red ∧ (State.ceNotes s us).tsk = s.tsk ∧ (State.ceNotes s us).mem = s.mem ∧ (State.ceNotes s us).hif = s.hif ∧ (State.ceNotes s us).img = s.img ∧ (State.ceNotes s us).pwr = s.pwr ∧ (State.ceNotes s us).pending = s.pending := by
  have fr1 := @State.ceNote_frame
  simp [State.ceNotes, fr1]


theorem State.ueNote_frame (s : State) (u : Nat) :
    (State.ueNote s u).pairLo = s.pairLo ∧ (State.ueNote s u).pairCap = s.pairCap ∧ (State.ueNote s u).out = s.out ∧ (State.ueNote s u).free = s.free ∧ (State.ueNote s u).policy = s.policy ∧ (State.ueNote s u).chk = s.chk ∧ (State.ueNote s u).snp = s.snp ∧ (State.ueNote s u).irq = s.irq ∧ (State.ueNote s u).ezl = s.ezl ∧ (State.ueNote s u).stp = s.stp ∧ (State.ueNote s u).fmt = s.fmt ∧ (State.ueNote s u).arr = s.arr ∧ (State.ueNote s u).vec = s.vec ∧ (State.ueNote s u).mxe = s.mxe ∧ (State.ueNote s u).upd = s.upd ∧ (State.ueNote s u).red = s.red ∧ (State.ueNote s u).tsk = s.tsk ∧ (State.ueNote s u).mem = s.mem ∧ (State.ueNote s u).hif = s.hif ∧ (State.ueNote s u).img = s.img ∧ (State.ueNote s u).pwr = s.pwr ∧ (State.ueNote s u).pending = s.pending := by
  have fr1 := @State.eventLog_frame
  have fr2 := @State.incReg_frame
  have fr3 := @State.setPair_frame
  simp [State.ueNote, fr1, fr2, fr3]


theorem State.ueNotes_frame (s : State) (us : List Nat) :
    (State.ueNotes s us).pairLo = s.pairLo ∧ (State.ueNotes s us).pairCap = s.pairCap ∧ (State.ueNotes s us).out = s.out ∧ (State.ueNotes s us).free = s.free ∧ (State.ueNotes s us).policy = s.policy ∧ (State.ueNotes s us).chk = s.chk ∧ (State.ueNotes s us).snp = s.snp ∧ (State.ueNotes s us).irq = s.irq ∧ (State.ueNotes s us).ezl = s.ezl ∧ (State.ueNotes s us).stp = s.stp ∧ (State.ueNotes s us).fmt = s.fmt ∧ (State.ueNotes s us).arr = s.arr ∧ (State.ueNotes s us).vec = s.vec ∧ (State.ueNotes s us).mxe = s.mxe ∧ (State.ueNotes s us).upd = s.upd ∧ (State.ueNotes s us).red = s.red ∧ (State.ueNotes s us).tsk = s.tsk ∧ (State.ueNotes s us).mem = s.mem ∧ (State.ueNotes s us).hif = s.hif ∧ (State.ueNotes s us).img = s.img ∧ (State.ueNotes s us).pwr = s.pwr ∧ (State.ueNotes s us).pending = s.pending := by
  have fr1 := @State.ueNote_frame
  simp [State.ueNotes, fr1]


theorem State.readNotes_frame (s : State) (a n : Nat) :
    (State.readNotes s a n).pairLo = s.pairLo ∧ (State.readNotes s a n).pairCap = s.pairCap ∧ (State.readNotes s a n).out = s.out ∧ (State.readNotes s a n).free = s.free ∧ (State.readNotes s a n).policy = s.policy ∧ (State.readNotes s a n).chk = s.chk ∧ (State.readNotes s a n).snp = s.snp ∧ (State.readNotes s a n).irq = s.irq ∧ (State.readNotes s a n).ezl = s.ezl ∧ (State.readNotes s a n).stp = s.stp ∧ (State.readNotes s a n).fmt = s.fmt ∧ (State.readNotes s a n).arr = s.arr ∧ (State.readNotes s a n).vec = s.vec ∧ (State.readNotes s a n).mxe = s.mxe ∧ (State.readNotes s a n).upd = s.upd ∧ (State.readNotes s a n).red = s.red ∧ (State.readNotes s a n).tsk = s.tsk ∧ (State.readNotes s a n).mem = s.mem ∧ (State.readNotes s a n).hif = s.hif ∧ (State.readNotes s a n).img = s.img ∧ (State.readNotes s a n).pwr = s.pwr ∧ (State.readNotes s a n).pending = s.pending := by
  have fr1 := @State.ceNotes_frame
  have fr2 := @State.ueNotes_frame
  simp [State.readNotes, fr1, fr2]


theorem State.hbmRead_frame (s : State) (a n : Nat) :
    (State.hbmRead s a n).2.1.pairLo = s.pairLo ∧ (State.hbmRead s a n).2.1.pairCap = s.pairCap ∧ (State.hbmRead s a n).2.1.out = s.out ∧ (State.hbmRead s a n).2.1.free = s.free ∧ (State.hbmRead s a n).2.1.policy = s.policy ∧ (State.hbmRead s a n).2.1.chk = s.chk ∧ (State.hbmRead s a n).2.1.snp = s.snp ∧ (State.hbmRead s a n).2.1.irq = s.irq ∧ (State.hbmRead s a n).2.1.ezl = s.ezl ∧ (State.hbmRead s a n).2.1.stp = s.stp ∧ (State.hbmRead s a n).2.1.fmt = s.fmt ∧ (State.hbmRead s a n).2.1.arr = s.arr ∧ (State.hbmRead s a n).2.1.vec = s.vec ∧ (State.hbmRead s a n).2.1.mxe = s.mxe ∧ (State.hbmRead s a n).2.1.upd = s.upd ∧ (State.hbmRead s a n).2.1.red = s.red ∧ (State.hbmRead s a n).2.1.tsk = s.tsk ∧ (State.hbmRead s a n).2.1.mem = s.mem ∧ (State.hbmRead s a n).2.1.hif = s.hif ∧ (State.hbmRead s a n).2.1.img = s.img ∧ (State.hbmRead s a n).2.1.pwr = s.pwr ∧ (State.hbmRead s a n).2.1.pending = s.pending := by
  have fr1 := @State.readNotes_frame
  have fr2 := @State.ueNote_frame
  unfold State.hbmRead; (repeat' split) <;> simp [fr1, fr2]


theorem State.noteRead_frame (s : State) (d a n : Nat) :
    (State.noteRead s d a n).pairLo = s.pairLo ∧ (State.noteRead s d a n).pairCap = s.pairCap ∧ (State.noteRead s d a n).out = s.out ∧ (State.noteRead s d a n).free = s.free ∧ (State.noteRead s d a n).policy = s.policy ∧ (State.noteRead s d a n).err = s.err ∧ (State.noteRead s d a n).chk = s.chk ∧ (State.noteRead s d a n).snp = s.snp ∧ (State.noteRead s d a n).irq = s.irq ∧ (State.noteRead s d a n).ezl = s.ezl ∧ (State.noteRead s d a n).stp = s.stp ∧ (State.noteRead s d a n).fmt = s.fmt ∧ (State.noteRead s d a n).arr = s.arr ∧ (State.noteRead s d a n).vec = s.vec ∧ (State.noteRead s d a n).mxe = s.mxe ∧ (State.noteRead s d a n).upd = s.upd ∧ (State.noteRead s d a n).red = s.red ∧ (State.noteRead s d a n).tsk = s.tsk ∧ (State.noteRead s d a n).hif = s.hif ∧ (State.noteRead s d a n).img = s.img ∧ (State.noteRead s d a n).pwr = s.pwr ∧ (State.noteRead s d a n).pending = s.pending := by
  have fr1 := @State.incReg_frame
  have fr2 := @State.modMem_frame
  simp [State.noteRead, fr1, fr2]


theorem State.spoilWriteCopy_frame (s : State) :
    (State.spoilWriteCopy s).pairLo = s.pairLo ∧ (State.spoilWriteCopy s).pairCap = s.pairCap ∧ (State.spoilWriteCopy s).out = s.out ∧ (State.spoilWriteCopy s).chk = s.chk ∧ (State.spoilWriteCopy s).snp = s.snp ∧ (State.spoilWriteCopy s).irq = s.irq ∧ (State.spoilWriteCopy s).ezl = s.ezl ∧ (State.spoilWriteCopy s).stp = s.stp ∧ (State.spoilWriteCopy s).fmt = s.fmt ∧ (State.spoilWriteCopy s).vec = s.vec ∧ (State.spoilWriteCopy s).mxe = s.mxe ∧ (State.spoilWriteCopy s).upd = s.upd ∧ (State.spoilWriteCopy s).red = s.red ∧ (State.spoilWriteCopy s).img = s.img ∧ (State.spoilWriteCopy s).pwr = s.pwr ∧ (State.spoilWriteCopy s).pending = s.pending := by
  have fr1 := @State.draw_frame
  have fr2 := @State.modMem_frame
  simp [State.spoilWriteCopy, fr1, fr2]


theorem State.setRecord_frame (s : State) (i : Nat) (r : RecEnt) :
    (State.setRecord s i r).regs = s.regs ∧ (State.setRecord s i r).pairLo = s.pairLo ∧ (State.setRecord s i r).pairCap = s.pairCap ∧ (State.setRecord s i r).out = s.out ∧ (State.setRecord s i r).free = s.free ∧ (State.setRecord s i r).policy = s.policy ∧ (State.setRecord s i r).err = s.err ∧ (State.setRecord s i r).chk = s.chk ∧ (State.setRecord s i r).snp = s.snp ∧ (State.setRecord s i r).irq = s.irq ∧ (State.setRecord s i r).ezl = s.ezl ∧ (State.setRecord s i r).stp = s.stp ∧ (State.setRecord s i r).fmt = s.fmt ∧ (State.setRecord s i r).arr = s.arr ∧ (State.setRecord s i r).vec = s.vec ∧ (State.setRecord s i r).mxe = s.mxe ∧ (State.setRecord s i r).upd = s.upd ∧ (State.setRecord s i r).red = s.red ∧ (State.setRecord s i r).tsk = s.tsk ∧ (State.setRecord s i r).hif = s.hif ∧ (State.setRecord s i r).img = s.img ∧ (State.setRecord s i r).pwr = s.pwr ∧ (State.setRecord s i r).pending = s.pending := by
  have fr1 := @State.modMem_frame
  simp [State.setRecord, fr1]


theorem State.setMat_frame (s : State) (die idx : Nat) (x : MatSt) :
    (State.setMat s die idx x).regs = s.regs ∧ (State.setMat s die idx x).pairLo = s.pairLo ∧ (State.setMat s die idx x).pairCap = s.pairCap ∧ (State.setMat s die idx x).out = s.out ∧ (State.setMat s die idx x).free = s.free ∧ (State.setMat s die idx x).policy = s.policy ∧ (State.setMat s die idx x).err = s.err ∧ (State.setMat s die idx x).chk = s.chk ∧ (State.setMat s die idx x).snp = s.snp ∧ (State.setMat s die idx x).irq = s.irq ∧ (State.setMat s die idx x).ezl = s.ezl ∧ (State.setMat s die idx x).stp = s.stp ∧ (State.setMat s die idx x).fmt = s.fmt ∧ (State.setMat s die idx x).vec = s.vec ∧ (State.setMat s die idx x).mxe = s.mxe ∧ (State.setMat s die idx x).upd = s.upd ∧ (State.setMat s die idx x).red = s.red ∧ (State.setMat s die idx x).tsk = s.tsk ∧ (State.setMat s die idx x).mem = s.mem ∧ (State.setMat s die idx x).hif = s.hif ∧ (State.setMat s die idx x).img = s.img ∧ (State.setMat s die idx x).pwr = s.pwr ∧ (State.setMat s die idx x).pending = s.pending := by
  have fr1 := @State.modArr_frame
  simp [State.setMat, fr1]


theorem State.setPos_frame (s : State) (die p : Nat) (x : PosSt) :
    (State.setPos s die p x).regs = s.regs ∧ (State.setPos s die p x).pairLo = s.pairLo ∧ (State.setPos s die p x).pairCap = s.pairCap ∧ (State.setPos s die p x).out = s.out ∧ (State.setPos s die p x).free = s.free ∧ (State.setPos s die p x).policy = s.policy ∧ (State.setPos s die p x).err = s.err ∧ (State.setPos s die p x).chk = s.chk ∧ (State.setPos s die p x).snp = s.snp ∧ (State.setPos s die p x).irq = s.irq ∧ (State.setPos s die p x).ezl = s.ezl ∧ (State.setPos s die p x).stp = s.stp ∧ (State.setPos s die p x).fmt = s.fmt ∧ (State.setPos s die p x).vec = s.vec ∧ (State.setPos s die p x).mxe = s.mxe ∧ (State.setPos s die p x).upd = s.upd ∧ (State.setPos s die p x).red = s.red ∧ (State.setPos s die p x).tsk = s.tsk ∧ (State.setPos s die p x).mem = s.mem ∧ (State.setPos s die p x).hif = s.hif ∧ (State.setPos s die p x).img = s.img ∧ (State.setPos s die p x).pwr = s.pwr ∧ (State.setPos s die p x).pending = s.pending := by
  have fr1 := @State.modArr_frame
  simp [State.setPos, fr1]


theorem State.setTile_frame (s : State) (die t : Nat) (x : TileSt) :
    (State.setTile s die t x).regs = s.regs ∧ (State.setTile s die t x).pairLo = s.pairLo ∧ (State.setTile s die t x).pairCap = s.pairCap ∧ (State.setTile s die t x).out = s.out ∧ (State.setTile s die t x).free = s.free ∧ (State.setTile s die t x).policy = s.policy ∧ (State.setTile s die t x).err = s.err ∧ (State.setTile s die t x).chk = s.chk ∧ (State.setTile s die t x).snp = s.snp ∧ (State.setTile s die t x).irq = s.irq ∧ (State.setTile s die t x).ezl = s.ezl ∧ (State.setTile s die t x).stp = s.stp ∧ (State.setTile s die t x).fmt = s.fmt ∧ (State.setTile s die t x).vec = s.vec ∧ (State.setTile s die t x).mxe = s.mxe ∧ (State.setTile s die t x).upd = s.upd ∧ (State.setTile s die t x).red = s.red ∧ (State.setTile s die t x).tsk = s.tsk ∧ (State.setTile s die t x).mem = s.mem ∧ (State.setTile s die t x).hif = s.hif ∧ (State.setTile s die t x).img = s.img ∧ (State.setTile s die t x).pwr = s.pwr ∧ (State.setTile s die t x).pending = s.pending := by
  have fr1 := @State.modArr_frame
  simp [State.setTile, fr1]


theorem State.setPhys_frame (s : State) (die p : Nat) (x : PhysSt) :
    (State.setPhys s die p x).regs = s.regs ∧ (State.setPhys s die p x).pairLo = s.pairLo ∧ (State.setPhys s die p x).pairCap = s.pairCap ∧ (State.setPhys s die p x).out = s.out ∧ (State.setPhys s die p x).free = s.free ∧ (State.setPhys s die p x).policy = s.policy ∧ (State.setPhys s die p x).err = s.err ∧ (State.setPhys s die p x).chk = s.chk ∧ (State.setPhys s die p x).snp = s.snp ∧ (State.setPhys s die p x).irq = s.irq ∧ (State.setPhys s die p x).ezl = s.ezl ∧ (State.setPhys s die p x).stp = s.stp ∧ (State.setPhys s die p x).fmt = s.fmt ∧ (State.setPhys s die p x).vec = s.vec ∧ (State.setPhys s die p x).mxe = s.mxe ∧ (State.setPhys s die p x).upd = s.upd ∧ (State.setPhys s die p x).red = s.red ∧ (State.setPhys s die p x).tsk = s.tsk ∧ (State.setPhys s die p x).mem = s.mem ∧ (State.setPhys s die p x).hif = s.hif ∧ (State.setPhys s die p x).img = s.img ∧ (State.setPhys s die p x).pwr = s.pwr ∧ (State.setPhys s die p x).pending = s.pending := by
  have fr1 := @State.modArr_frame
  simp [State.setPhys, fr1]


theorem State.setKao_frame (s : State) (die : Nat) (x : KaolinSt) :
    (State.setKao s die x).regs = s.regs ∧ (State.setKao s die x).pairLo = s.pairLo ∧ (State.setKao s die x).pairCap = s.pairCap ∧ (State.setKao s die x).out = s.out ∧ (State.setKao s die x).free = s.free ∧ (State.setKao s die x).policy = s.policy ∧ (State.setKao s die x).err = s.err ∧ (State.setKao s die x).chk = s.chk ∧ (State.setKao s die x).snp = s.snp ∧ (State.setKao s die x).irq = s.irq ∧ (State.setKao s die x).ezl = s.ezl ∧ (State.setKao s die x).stp = s.stp ∧ (State.setKao s die x).fmt = s.fmt ∧ (State.setKao s die x).vec = s.vec ∧ (State.setKao s die x).mxe = s.mxe ∧ (State.setKao s die x).upd = s.upd ∧ (State.setKao s die x).red = s.red ∧ (State.setKao s die x).tsk = s.tsk ∧ (State.setKao s die x).mem = s.mem ∧ (State.setKao s die x).hif = s.hif ∧ (State.setKao s die x).img = s.img ∧ (State.setKao s die x).pwr = s.pwr ∧ (State.setKao s die x).pending = s.pending := by
  have fr1 := @State.modArr_frame
  simp [State.setKao, fr1]


theorem State.keepOld_frame (s : State) (v d p : Nat) :
    (State.keepOld s v d p).regs = s.regs ∧ (State.keepOld s v d p).pairLo = s.pairLo ∧ (State.keepOld s v d p).pairCap = s.pairCap ∧ (State.keepOld s v d p).out = s.out ∧ (State.keepOld s v d p).free = s.free ∧ (State.keepOld s v d p).policy = s.policy ∧ (State.keepOld s v d p).err = s.err ∧ (State.keepOld s v d p).chk = s.chk ∧ (State.keepOld s v d p).snp = s.snp ∧ (State.keepOld s v d p).irq = s.irq ∧ (State.keepOld s v d p).ezl = s.ezl ∧ (State.keepOld s v d p).stp = s.stp ∧ (State.keepOld s v d p).fmt = s.fmt ∧ (State.keepOld s v d p).vec = s.vec ∧ (State.keepOld s v d p).mxe = s.mxe ∧ (State.keepOld s v d p).upd = s.upd ∧ (State.keepOld s v d p).red = s.red ∧ (State.keepOld s v d p).tsk = s.tsk ∧ (State.keepOld s v d p).mem = s.mem ∧ (State.keepOld s v d p).hif = s.hif ∧ (State.keepOld s v d p).img = s.img ∧ (State.keepOld s v d p).pwr = s.pwr ∧ (State.keepOld s v d p).pending = s.pending := by
  have fr1 := @State.modArr_frame
  unfold State.keepOld; (repeat' split) <;> simp [fr1]


theorem State.setCounter_frame (s : State) (k n : Nat) :
    (State.setCounter s k n).regs = s.regs ∧ (State.setCounter s k n).pairLo = s.pairLo ∧ (State.setCounter s k n).pairCap = s.pairCap ∧ (State.setCounter s k n).out = s.out ∧ (State.setCounter s k n).free = s.free ∧ (State.setCounter s k n).policy = s.policy ∧ (State.setCounter s k n).err = s.err ∧ (State.setCounter s k n).chk = s.chk ∧ (State.setCounter s k n).snp = s.snp ∧ (State.setCounter s k n).irq = s.irq ∧ (State.setCounter s k n).ezl = s.ezl ∧ (State.setCounter s k n).stp = s.stp ∧ (State.setCounter s k n).fmt = s.fmt ∧ (State.setCounter s k n).arr = s.arr ∧ (State.setCounter s k n).vec = s.vec ∧ (State.setCounter s k n).mxe = s.mxe ∧ (State.setCounter s k n).upd = s.upd ∧ (State.setCounter s k n).red = s.red ∧ (State.setCounter s k n).mem = s.mem ∧ (State.setCounter s k n).hif = s.hif ∧ (State.setCounter s k n).img = s.img ∧ (State.setCounter s k n).pwr = s.pwr ∧ (State.setCounter s k n).pending = s.pending := by
  have fr1 := @State.modTsk_frame
  simp [State.setCounter, fr1]


theorem State.addCounter_frame (s : State) (k n : Nat) :
    (State.addCounter s k n).pairLo = s.pairLo ∧ (State.addCounter s k n).pairCap = s.pairCap ∧ (State.addCounter s k n).out = s.out ∧ (State.addCounter s k n).free = s.free ∧ (State.addCounter s k n).policy = s.policy ∧ (State.addCounter s k n).chk = s.chk ∧ (State.addCounter s k n).snp = s.snp ∧ (State.addCounter s k n).irq = s.irq ∧ (State.addCounter s k n).ezl = s.ezl ∧ (State.addCounter s k n).stp = s.stp ∧ (State.addCounter s k n).fmt = s.fmt ∧ (State.addCounter s k n).arr = s.arr ∧ (State.addCounter s k n).vec = s.vec ∧ (State.addCounter s k n).mxe = s.mxe ∧ (State.addCounter s k n).upd = s.upd ∧ (State.addCounter s k n).red = s.red ∧ (State.addCounter s k n).mem = s.mem ∧ (State.addCounter s k n).hif = s.hif ∧ (State.addCounter s k n).img = s.img ∧ (State.addCounter s k n).pwr = s.pwr ∧ (State.addCounter s k n).pending = s.pending := by
  have fr1 := @State.eventLog_frame
  have fr2 := @State.setCounter_frame
  have fr3 := @State.setRegN_frame
  simp [State.addCounter, fr1, fr2, fr3]


theorem State.takeSignal_frame (s : State) (g : Signal) :
    (State.takeSignal s g).pairLo = s.pairLo ∧ (State.takeSignal s g).pairCap = s.pairCap ∧ (State.takeSignal s g).out = s.out ∧ (State.takeSignal s g).free = s.free ∧ (State.takeSignal s g).policy = s.policy ∧ (State.takeSignal s g).chk = s.chk ∧ (State.takeSignal s g).snp = s.snp ∧ (State.takeSignal s g).irq = s.irq ∧ (State.takeSignal s g).ezl = s.ezl ∧ (State.takeSignal s g).stp = s.stp ∧ (State.takeSignal s g).fmt = s.fmt ∧ (State.takeSignal s g).arr = s.arr ∧ (State.takeSignal s g).vec = s.vec ∧ (State.takeSignal s g).mxe = s.mxe ∧ (State.takeSignal s g).upd = s.upd ∧ (State.takeSignal s g).red = s.red ∧ (State.takeSignal s g).mem = s.mem ∧ (State.takeSignal s g).hif = s.hif ∧ (State.takeSignal s g).img = s.img ∧ (State.takeSignal s g).pwr = s.pwr ∧ (State.takeSignal s g).pending = s.pending := by
  have fr1 := @State.addCounter_frame
  have fr2 := @State.setCounter_frame
  simp [State.takeSignal, fr1, fr2]


theorem State.signalFrom_frame (d : Nat) (s : State) (g : Signal) :
    (State.signalFrom d s g).pairLo = s.pairLo ∧ (State.signalFrom d s g).pairCap = s.pairCap ∧ (State.signalFrom d s g).out = s.out ∧ (State.signalFrom d s g).free = s.free ∧ (State.signalFrom d s g).policy = s.policy ∧ (State.signalFrom d s g).chk = s.chk ∧ (State.signalFrom d s g).snp = s.snp ∧ (State.signalFrom d s g).irq = s.irq ∧ (State.signalFrom d s g).ezl = s.ezl ∧ (State.signalFrom d s g).stp = s.stp ∧ (State.signalFrom d s g).fmt = s.fmt ∧ (State.signalFrom d s g).arr = s.arr ∧ (State.signalFrom d s g).vec = s.vec ∧ (State.signalFrom d s g).mxe = s.mxe ∧ (State.signalFrom d s g).upd = s.upd ∧ (State.signalFrom d s g).red = s.red ∧ (State.signalFrom d s g).mem = s.mem ∧ (State.signalFrom d s g).hif = s.hif ∧ (State.signalFrom d s g).img = s.img ∧ (State.signalFrom d s g).pwr = s.pwr ∧ (State.signalFrom d s g).pending = s.pending := by
  have fr1 := @State.modTsk_frame
  have fr2 := @State.takeSignal_frame
  simp [State.signalFrom, fr1, fr2]


theorem State.endTask_frame (s : State) (d slot : Nat) (err : Bool) :
    (State.endTask s d slot err).regs = s.regs ∧ (State.endTask s d slot err).pairLo = s.pairLo ∧ (State.endTask s d slot err).pairCap = s.pairCap ∧ (State.endTask s d slot err).out = s.out ∧ (State.endTask s d slot err).free = s.free ∧ (State.endTask s d slot err).policy = s.policy ∧ (State.endTask s d slot err).err = s.err ∧ (State.endTask s d slot err).chk = s.chk ∧ (State.endTask s d slot err).snp = s.snp ∧ (State.endTask s d slot err).irq = s.irq ∧ (State.endTask s d slot err).ezl = s.ezl ∧ (State.endTask s d slot err).stp = s.stp ∧ (State.endTask s d slot err).fmt = s.fmt ∧ (State.endTask s d slot err).arr = s.arr ∧ (State.endTask s d slot err).vec = s.vec ∧ (State.endTask s d slot err).mxe = s.mxe ∧ (State.endTask s d slot err).upd = s.upd ∧ (State.endTask s d slot err).red = s.red ∧ (State.endTask s d slot err).mem = s.mem ∧ (State.endTask s d slot err).hif = s.hif ∧ (State.endTask s d slot err).img = s.img ∧ (State.endTask s d slot err).pwr = s.pwr ∧ (State.endTask s d slot err).pending = s.pending := by
  have fr1 := @State.setTask_frame
  unfold State.endTask; (repeat' split) <;> simp [fr1]


theorem State.endPart_frame (s : State) (d slot : Nat) (bad : Bool) :
    (State.endPart s d slot bad).regs = s.regs ∧ (State.endPart s d slot bad).pairLo = s.pairLo ∧ (State.endPart s d slot bad).pairCap = s.pairCap ∧ (State.endPart s d slot bad).out = s.out ∧ (State.endPart s d slot bad).free = s.free ∧ (State.endPart s d slot bad).policy = s.policy ∧ (State.endPart s d slot bad).chk = s.chk ∧ (State.endPart s d slot bad).snp = s.snp ∧ (State.endPart s d slot bad).irq = s.irq ∧ (State.endPart s d slot bad).ezl = s.ezl ∧ (State.endPart s d slot bad).stp = s.stp ∧ (State.endPart s d slot bad).fmt = s.fmt ∧ (State.endPart s d slot bad).arr = s.arr ∧ (State.endPart s d slot bad).vec = s.vec ∧ (State.endPart s d slot bad).mxe = s.mxe ∧ (State.endPart s d slot bad).upd = s.upd ∧ (State.endPart s d slot bad).red = s.red ∧ (State.endPart s d slot bad).mem = s.mem ∧ (State.endPart s d slot bad).hif = s.hif ∧ (State.endPart s d slot bad).img = s.img ∧ (State.endPart s d slot bad).pwr = s.pwr ∧ (State.endPart s d slot bad).pending = s.pending := by
  have fr1 := @State.setTask_frame
  unfold State.endPart; (repeat' split) <;> simp [fr1]


theorem State.taskRead_frame (s : State) (d slot : Nat) (l : List (Nat × Nat)) :
    (State.taskRead s d slot l).pairLo = s.pairLo ∧ (State.taskRead s d slot l).pairCap = s.pairCap ∧ (State.taskRead s d slot l).out = s.out ∧ (State.taskRead s d slot l).free = s.free ∧ (State.taskRead s d slot l).policy = s.policy ∧ (State.taskRead s d slot l).chk = s.chk ∧ (State.taskRead s d slot l).snp = s.snp ∧ (State.taskRead s d slot l).irq = s.irq ∧ (State.taskRead s d slot l).ezl = s.ezl ∧ (State.taskRead s d slot l).stp = s.stp ∧ (State.taskRead s d slot l).fmt = s.fmt ∧ (State.taskRead s d slot l).arr = s.arr ∧ (State.taskRead s d slot l).vec = s.vec ∧ (State.taskRead s d slot l).mxe = s.mxe ∧ (State.taskRead s d slot l).upd = s.upd ∧ (State.taskRead s d slot l).red = s.red ∧ (State.taskRead s d slot l).mem = s.mem ∧ (State.taskRead s d slot l).hif = s.hif ∧ (State.taskRead s d slot l).img = s.img ∧ (State.taskRead s d slot l).pwr = s.pwr ∧ (State.taskRead s d slot l).pending = s.pending := by
  have fr1 := @State.ceNotes_frame
  have fr2 := @State.setTask_frame
  have fr3 := @State.ueNotes_frame
  unfold State.taskRead; dsimp only; (repeat' split) <;> simp [fr1, fr2, fr3]


theorem State.failToken_frame (s : State) (t : TaskEnt) :
    (State.failToken s t).regs = s.regs ∧ (State.failToken s t).pairLo = s.pairLo ∧ (State.failToken s t).pairCap = s.pairCap ∧ (State.failToken s t).out = s.out ∧ (State.failToken s t).free = s.free ∧ (State.failToken s t).policy = s.policy ∧ (State.failToken s t).err = s.err ∧ (State.failToken s t).chk = s.chk ∧ (State.failToken s t).snp = s.snp ∧ (State.failToken s t).irq = s.irq ∧ (State.failToken s t).ezl = s.ezl ∧ (State.failToken s t).stp = s.stp ∧ (State.failToken s t).fmt = s.fmt ∧ (State.failToken s t).arr = s.arr ∧ (State.failToken s t).vec = s.vec ∧ (State.failToken s t).mxe = s.mxe ∧ (State.failToken s t).upd = s.upd ∧ (State.failToken s t).red = s.red ∧ (State.failToken s t).tsk = s.tsk ∧ (State.failToken s t).hif = s.hif ∧ (State.failToken s t).img = s.img ∧ (State.failToken s t).pwr = s.pwr ∧ (State.failToken s t).pending = s.pending := by
  have fr1 := @State.setCtx_frame
  unfold State.failToken; (repeat' split) <;> simp [fr1]


theorem State.taskError_frame (s : State) (d slot : Nat) (t : TaskEnt) :
    (State.taskError s d slot t).pairLo = s.pairLo ∧ (State.taskError s d slot t).pairCap = s.pairCap ∧ (State.taskError s d slot t).out = s.out ∧ (State.taskError s d slot t).free = s.free ∧ (State.taskError s d slot t).policy = s.policy ∧ (State.taskError s d slot t).chk = s.chk ∧ (State.taskError s d slot t).snp = s.snp ∧ (State.taskError s d slot t).irq = s.irq ∧ (State.taskError s d slot t).ezl = s.ezl ∧ (State.taskError s d slot t).stp = s.stp ∧ (State.taskError s d slot t).fmt = s.fmt ∧ (State.taskError s d slot t).arr = s.arr ∧ (State.taskError s d slot t).vec = s.vec ∧ (State.taskError s d slot t).mxe = s.mxe ∧ (State.taskError s d slot t).upd = s.upd ∧ (State.taskError s d slot t).red = s.red ∧ (State.taskError s d slot t).tsk = s.tsk ∧ (State.taskError s d slot t).hif = s.hif ∧ (State.taskError s d slot t).img = s.img ∧ (State.taskError s d slot t).pwr = s.pwr ∧ (State.taskError s d slot t).pending = s.pending := by
  have fr1 := @State.eventLog_frame
  have fr2 := @State.failToken_frame
  have fr3 := @State.incReg_frame
  have fr4 := @State.setRegB_frame
  simp [State.taskError, fr1, fr2, fr3, fr4]


theorem State.completeTask_frame (s : State) (d slot : Nat) (t : TaskEnt) (err : Bool) :
    (State.completeTask s d slot t err).pairLo = s.pairLo ∧ (State.completeTask s d slot t err).pairCap = s.pairCap ∧ (State.completeTask s d slot t err).out = s.out ∧ (State.completeTask s d slot t err).free = s.free ∧ (State.completeTask s d slot t err).policy = s.policy ∧ (State.completeTask s d slot t err).chk = s.chk ∧ (State.completeTask s d slot t err).snp = s.snp ∧ (State.completeTask s d slot t err).irq = s.irq ∧ (State.completeTask s d slot t err).ezl = s.ezl ∧ (State.completeTask s d slot t err).stp = s.stp ∧ (State.completeTask s d slot t err).fmt = s.fmt ∧ (State.completeTask s d slot t err).arr = s.arr ∧ (State.completeTask s d slot t err).vec = s.vec ∧ (State.completeTask s d slot t err).mxe = s.mxe ∧ (State.completeTask s d slot t err).upd = s.upd ∧ (State.completeTask s d slot t err).red = s.red ∧ (State.completeTask s d slot t err).hif = s.hif ∧ (State.completeTask s d slot t err).img = s.img ∧ (State.completeTask s d slot t err).pwr = s.pwr ∧ (State.completeTask s d slot t err).pending = s.pending := by
  have fr1 := @State.modTsk_frame
  have fr2 := @State.setTask_frame
  have fr3 := @State.signalFrom_frame
  have fr4 := @State.taskError_frame
  simp [State.completeTask, fr1, fr2, fr3, fr4]


theorem State.sendFlit_frame (s : State) (l typ stream src dst seq : Nat) (first last : Bool) (pay : List Byte) :
    (State.sendFlit s l typ stream src dst seq first last pay).pairLo = s.pairLo ∧ (State.sendFlit s l typ stream src dst seq first last pay).pairCap = s.pairCap ∧ (State.sendFlit s l typ stream src dst seq first last pay).free = s.free ∧ (State.sendFlit s l typ stream src dst seq first last pay).policy = s.policy ∧ (State.sendFlit s l typ stream src dst seq first last pay).err = s.err ∧ (State.sendFlit s l typ stream src dst seq first last pay).chk = s.chk ∧ (State.sendFlit s l typ stream src dst seq first last pay).snp = s.snp ∧ (State.sendFlit s l typ stream src dst seq first last pay).irq = s.irq ∧ (State.sendFlit s l typ stream src dst seq first last pay).stp = s.stp ∧ (State.sendFlit s l typ stream src dst seq first last pay).fmt = s.fmt ∧ (State.sendFlit s l typ stream src dst seq first last pay).arr = s.arr ∧ (State.sendFlit s l typ stream src dst seq first last pay).vec = s.vec ∧ (State.sendFlit s l typ stream src dst seq first last pay).mxe = s.mxe ∧ (State.sendFlit s l typ stream src dst seq first last pay).upd = s.upd ∧ (State.sendFlit s l typ stream src dst seq first last pay).red = s.red ∧ (State.sendFlit s l typ stream src dst seq first last pay).tsk = s.tsk ∧ (State.sendFlit s l typ stream src dst seq first last pay).mem = s.mem ∧ (State.sendFlit s l typ stream src dst seq first last pay).hif = s.hif ∧ (State.sendFlit s l typ stream src dst seq first last pay).img = s.img ∧ (State.sendFlit s l typ stream src dst seq first last pay).pwr = s.pwr ∧ (State.sendFlit s l typ stream src dst seq first last pay).pending = s.pending := by
  have fr1 := @State.emit_frame
  have fr2 := @State.incPair_frame
  have fr3 := @State.setLnk_frame
  simp [State.sendFlit, fr1, fr2, fr3]


theorem State.sendIdle_frame (s : State) (l : Nat) :
    (State.sendIdle s l).pairLo = s.pairLo ∧ (State.sendIdle s l).pairCap = s.pairCap ∧ (State.sendIdle s l).free = s.free ∧ (State.sendIdle s l).policy = s.policy ∧ (State.sendIdle s l).err = s.err ∧ (State.sendIdle s l).chk = s.chk ∧ (State.sendIdle s l).snp = s.snp ∧ (State.sendIdle s l).irq = s.irq ∧ (State.sendIdle s l).stp = s.stp ∧ (State.sendIdle s l).fmt = s.fmt ∧ (State.sendIdle s l).arr = s.arr ∧ (State.sendIdle s l).vec = s.vec ∧ (State.sendIdle s l).mxe = s.mxe ∧ (State.sendIdle s l).upd = s.upd ∧ (State.sendIdle s l).red = s.red ∧ (State.sendIdle s l).tsk = s.tsk ∧ (State.sendIdle s l).mem = s.mem ∧ (State.sendIdle s l).hif = s.hif ∧ (State.sendIdle s l).img = s.img ∧ (State.sendIdle s l).pwr = s.pwr ∧ (State.sendIdle s l).pending = s.pending := by
  have fr1 := @State.sendFlit_frame
  simp [State.sendIdle, fr1]


theorem State.resend_frame (s : State) (l : Nat) (f : Flit) :
    (State.resend s l f).pairLo = s.pairLo ∧ (State.resend s l f).pairCap = s.pairCap ∧ (State.resend s l f).free = s.free ∧ (State.resend s l f).policy = s.policy ∧ (State.resend s l f).err = s.err ∧ (State.resend s l f).chk = s.chk ∧ (State.resend s l f).snp = s.snp ∧ (State.resend s l f).irq = s.irq ∧ (State.resend s l f).stp = s.stp ∧ (State.resend s l f).fmt = s.fmt ∧ (State.resend s l f).arr = s.arr ∧ (State.resend s l f).vec = s.vec ∧ (State.resend s l f).mxe = s.mxe ∧ (State.resend s l f).upd = s.upd ∧ (State.resend s l f).red = s.red ∧ (State.resend s l f).tsk = s.tsk ∧ (State.resend s l f).mem = s.mem ∧ (State.resend s l f).hif = s.hif ∧ (State.resend s l f).img = s.img ∧ (State.resend s l f).pwr = s.pwr ∧ (State.resend s l f).pending = s.pending := by
  have fr1 := @State.sendFlit_frame
  simp [State.resend, fr1]


theorem State.pumpOne_frame (s : State) (l : Nat) :
    (State.pumpOne s l).pairLo = s.pairLo ∧ (State.pumpOne s l).pairCap = s.pairCap ∧ (State.pumpOne s l).free = s.free ∧ (State.pumpOne s l).policy = s.policy ∧ (State.pumpOne s l).err = s.err ∧ (State.pumpOne s l).chk = s.chk ∧ (State.pumpOne s l).snp = s.snp ∧ (State.pumpOne s l).irq = s.irq ∧ (State.pumpOne s l).stp = s.stp ∧ (State.pumpOne s l).fmt = s.fmt ∧ (State.pumpOne s l).arr = s.arr ∧ (State.pumpOne s l).vec = s.vec ∧ (State.pumpOne s l).mxe = s.mxe ∧ (State.pumpOne s l).upd = s.upd ∧ (State.pumpOne s l).red = s.red ∧ (State.pumpOne s l).tsk = s.tsk ∧ (State.pumpOne s l).mem = s.mem ∧ (State.pumpOne s l).hif = s.hif ∧ (State.pumpOne s l).img = s.img ∧ (State.pumpOne s l).pwr = s.pwr ∧ (State.pumpOne s l).pending = s.pending := by
  have fr1 := @State.sendFlit_frame
  have fr2 := @State.setLnk_frame
  unfold State.pumpOne; dsimp only; (repeat' split) <;> simp [fr1, fr2]


@[simp] theorem State.pumpFuel_pairLo (n l : Nat) (s : State) : (State.pumpFuel n l s).pairLo = s.pairLo := by
  have fr1 := @State.pumpOne_frame
  induction n generalizing s with
  | zero => rfl
  | succ n ih => simp only [State.pumpFuel]; split <;> simp [ih, fr1]

@[simp] theorem State.pump_pairLo (s : State) (l : Nat) : (s.pump l).pairLo = s.pairLo := by
  simp [State.pump]

@[simp] theorem State.pumpFuel_pairCap (n l : Nat) (s : State) : (State.pumpFuel n l s).pairCap = s.pairCap := by
  have fr1 := @State.pumpOne_frame
  induction n generalizing s with
  | zero => rfl
  | succ n ih => simp only [State.pumpFuel]; split <;> simp [ih, fr1]

@[simp] theorem State.pump_pairCap (s : State) (l : Nat) : (s.pump l).pairCap = s.pairCap := by
  simp [State.pump]

@[simp] theorem State.pumpFuel_free (n l : Nat) (s : State) : (State.pumpFuel n l s).free = s.free := by
  have fr1 := @State.pumpOne_frame
  induction n generalizing s with
  | zero => rfl
  | succ n ih => simp only [State.pumpFuel]; split <;> simp [ih, fr1]

@[simp] theorem State.pump_free (s : State) (l : Nat) : (s.pump l).free = s.free := by
  simp [State.pump]

@[simp] theorem State.pumpFuel_policy (n l : Nat) (s : State) : (State.pumpFuel n l s).policy = s.policy := by
  have fr1 := @State.pumpOne_frame
  induction n generalizing s with
  | zero => rfl
  | succ n ih => simp only [State.pumpFuel]; split <;> simp [ih, fr1]

@[simp] theorem State.pump_policy (s : State) (l : Nat) : (s.pump l).policy = s.policy := by
  simp [State.pump]

@[simp] theorem State.pumpFuel_err (n l : Nat) (s : State) : (State.pumpFuel n l s).err = s.err := by
  have fr1 := @State.pumpOne_frame
  induction n generalizing s with
  | zero => rfl
  | succ n ih => simp only [State.pumpFuel]; split <;> simp [ih, fr1]

@[simp] theorem State.pump_err (s : State) (l : Nat) : (s.pump l).err = s.err := by
  simp [State.pump]

@[simp] theorem State.pumpFuel_chk (n l : Nat) (s : State) : (State.pumpFuel n l s).chk = s.chk := by
  have fr1 := @State.pumpOne_frame
  induction n generalizing s with
  | zero => rfl
  | succ n ih => simp only [State.pumpFuel]; split <;> simp [ih, fr1]

@[simp] theorem State.pump_chk (s : State) (l : Nat) : (s.pump l).chk = s.chk := by
  simp [State.pump]

@[simp] theorem State.pumpFuel_snp (n l : Nat) (s : State) : (State.pumpFuel n l s).snp = s.snp := by
  have fr1 := @State.pumpOne_frame
  induction n generalizing s with
  | zero => rfl
  | succ n ih => simp only [State.pumpFuel]; split <;> simp [ih, fr1]

@[simp] theorem State.pump_snp (s : State) (l : Nat) : (s.pump l).snp = s.snp := by
  simp [State.pump]

@[simp] theorem State.pumpFuel_irq (n l : Nat) (s : State) : (State.pumpFuel n l s).irq = s.irq := by
  have fr1 := @State.pumpOne_frame
  induction n generalizing s with
  | zero => rfl
  | succ n ih => simp only [State.pumpFuel]; split <;> simp [ih, fr1]

@[simp] theorem State.pump_irq (s : State) (l : Nat) : (s.pump l).irq = s.irq := by
  simp [State.pump]

@[simp] theorem State.pumpFuel_stp (n l : Nat) (s : State) : (State.pumpFuel n l s).stp = s.stp := by
  have fr1 := @State.pumpOne_frame
  induction n generalizing s with
  | zero => rfl
  | succ n ih => simp only [State.pumpFuel]; split <;> simp [ih, fr1]

@[simp] theorem State.pump_stp (s : State) (l : Nat) : (s.pump l).stp = s.stp := by
  simp [State.pump]

@[simp] theorem State.pumpFuel_fmt (n l : Nat) (s : State) : (State.pumpFuel n l s).fmt = s.fmt := by
  have fr1 := @State.pumpOne_frame
  induction n generalizing s with
  | zero => rfl
  | succ n ih => simp only [State.pumpFuel]; split <;> simp [ih, fr1]

@[simp] theorem State.pump_fmt (s : State) (l : Nat) : (s.pump l).fmt = s.fmt := by
  simp [State.pump]

@[simp] theorem State.pumpFuel_arr (n l : Nat) (s : State) : (State.pumpFuel n l s).arr = s.arr := by
  have fr1 := @State.pumpOne_frame
  induction n generalizing s with
  | zero => rfl
  | succ n ih => simp only [State.pumpFuel]; split <;> simp [ih, fr1]

@[simp] theorem State.pump_arr (s : State) (l : Nat) : (s.pump l).arr = s.arr := by
  simp [State.pump]

@[simp] theorem State.pumpFuel_vec (n l : Nat) (s : State) : (State.pumpFuel n l s).vec = s.vec := by
  have fr1 := @State.pumpOne_frame
  induction n generalizing s with
  | zero => rfl
  | succ n ih => simp only [State.pumpFuel]; split <;> simp [ih, fr1]

@[simp] theorem State.pump_vec (s : State) (l : Nat) : (s.pump l).vec = s.vec := by
  simp [State.pump]

@[simp] theorem State.pumpFuel_mxe (n l : Nat) (s : State) : (State.pumpFuel n l s).mxe = s.mxe := by
  have fr1 := @State.pumpOne_frame
  induction n generalizing s with
  | zero => rfl
  | succ n ih => simp only [State.pumpFuel]; split <;> simp [ih, fr1]

@[simp] theorem State.pump_mxe (s : State) (l : Nat) : (s.pump l).mxe = s.mxe := by
  simp [State.pump]

@[simp] theorem State.pumpFuel_upd (n l : Nat) (s : State) : (State.pumpFuel n l s).upd = s.upd := by
  have fr1 := @State.pumpOne_frame
  induction n generalizing s with
  | zero => rfl
  | succ n ih => simp only [State.pumpFuel]; split <;> simp [ih, fr1]

@[simp] theorem State.pump_upd (s : State) (l : Nat) : (s.pump l).upd = s.upd := by
  simp [State.pump]

@[simp] theorem State.pumpFuel_red (n l : Nat) (s : State) : (State.pumpFuel n l s).red = s.red := by
  have fr1 := @State.pumpOne_frame
  induction n generalizing s with
  | zero => rfl
  | succ n ih => simp only [State.pumpFuel]; split <;> simp [ih, fr1]

@[simp] theorem State.pump_red (s : State) (l : Nat) : (s.pump l).red = s.red := by
  simp [State.pump]

@[simp] theorem State.pumpFuel_tsk (n l : Nat) (s : State) : (State.pumpFuel n l s).tsk = s.tsk := by
  have fr1 := @State.pumpOne_frame
  induction n generalizing s with
  | zero => rfl
  | succ n ih => simp only [State.pumpFuel]; split <;> simp [ih, fr1]

@[simp] theorem State.pump_tsk (s : State) (l : Nat) : (s.pump l).tsk = s.tsk := by
  simp [State.pump]

@[simp] theorem State.pumpFuel_mem (n l : Nat) (s : State) : (State.pumpFuel n l s).mem = s.mem := by
  have fr1 := @State.pumpOne_frame
  induction n generalizing s with
  | zero => rfl
  | succ n ih => simp only [State.pumpFuel]; split <;> simp [ih, fr1]

@[simp] theorem State.pump_mem (s : State) (l : Nat) : (s.pump l).mem = s.mem := by
  simp [State.pump]

@[simp] theorem State.pumpFuel_hif (n l : Nat) (s : State) : (State.pumpFuel n l s).hif = s.hif := by
  have fr1 := @State.pumpOne_frame
  induction n generalizing s with
  | zero => rfl
  | succ n ih => simp only [State.pumpFuel]; split <;> simp [ih, fr1]

@[simp] theorem State.pump_hif (s : State) (l : Nat) : (s.pump l).hif = s.hif := by
  simp [State.pump]

@[simp] theorem State.pumpFuel_img (n l : Nat) (s : State) : (State.pumpFuel n l s).img = s.img := by
  have fr1 := @State.pumpOne_frame
  induction n generalizing s with
  | zero => rfl
  | succ n ih => simp only [State.pumpFuel]; split <;> simp [ih, fr1]

@[simp] theorem State.pump_img (s : State) (l : Nat) : (s.pump l).img = s.img := by
  simp [State.pump]

@[simp] theorem State.pumpFuel_pwr (n l : Nat) (s : State) : (State.pumpFuel n l s).pwr = s.pwr := by
  have fr1 := @State.pumpOne_frame
  induction n generalizing s with
  | zero => rfl
  | succ n ih => simp only [State.pumpFuel]; split <;> simp [ih, fr1]

@[simp] theorem State.pump_pwr (s : State) (l : Nat) : (s.pump l).pwr = s.pwr := by
  simp [State.pump]

@[simp] theorem State.pumpFuel_pending (n l : Nat) (s : State) : (State.pumpFuel n l s).pending = s.pending := by
  have fr1 := @State.pumpOne_frame
  induction n generalizing s with
  | zero => rfl
  | succ n ih => simp only [State.pumpFuel]; split <;> simp [ih, fr1]

@[simp] theorem State.pump_pending (s : State) (l : Nat) : (s.pump l).pending = s.pending := by
  simp [State.pump]


theorem State.sendOn_frame (s : State) (l : Nat) (f : Frame) :
    (State.sendOn s l f).pairLo = s.pairLo ∧ (State.sendOn s l f).pairCap = s.pairCap ∧ (State.sendOn s l f).free = s.free ∧ (State.sendOn s l f).policy = s.policy ∧ (State.sendOn s l f).err = s.err ∧ (State.sendOn s l f).chk = s.chk ∧ (State.sendOn s l f).snp = s.snp ∧ (State.sendOn s l f).irq = s.irq ∧ (State.sendOn s l f).stp = s.stp ∧ (State.sendOn s l f).fmt = s.fmt ∧ (State.sendOn s l f).arr = s.arr ∧ (State.sendOn s l f).vec = s.vec ∧ (State.sendOn s l f).mxe = s.mxe ∧ (State.sendOn s l f).upd = s.upd ∧ (State.sendOn s l f).red = s.red ∧ (State.sendOn s l f).tsk = s.tsk ∧ (State.sendOn s l f).mem = s.mem ∧ (State.sendOn s l f).hif = s.hif ∧ (State.sendOn s l f).img = s.img ∧ (State.sendOn s l f).pwr = s.pwr ∧ (State.sendOn s l f).pending = s.pending := by
  have fr1 := @State.setLnk_frame
  simp [State.sendOn, fr1]


theorem State.holdFrame_frame (s : State) (m : Option Nat) (f : Frame) :
    (State.holdFrame s m f).regs = s.regs ∧ (State.holdFrame s m f).pairLo = s.pairLo ∧ (State.holdFrame s m f).pairCap = s.pairCap ∧ (State.holdFrame s m f).out = s.out ∧ (State.holdFrame s m f).free = s.free ∧ (State.holdFrame s m f).policy = s.policy ∧ (State.holdFrame s m f).err = s.err ∧ (State.holdFrame s m f).chk = s.chk ∧ (State.holdFrame s m f).snp = s.snp ∧ (State.holdFrame s m f).irq = s.irq ∧ (State.holdFrame s m f).stp = s.stp ∧ (State.holdFrame s m f).fmt = s.fmt ∧ (State.holdFrame s m f).arr = s.arr ∧ (State.holdFrame s m f).vec = s.vec ∧ (State.holdFrame s m f).mxe = s.mxe ∧ (State.holdFrame s m f).upd = s.upd ∧ (State.holdFrame s m f).red = s.red ∧ (State.holdFrame s m f).tsk = s.tsk ∧ (State.holdFrame s m f).mem = s.mem ∧ (State.holdFrame s m f).hif = s.hif ∧ (State.holdFrame s m f).img = s.img ∧ (State.holdFrame s m f).pwr = s.pwr ∧ (State.holdFrame s m f).pending = s.pending := by
  have fr1 := @State.modEzl_frame
  simp [State.holdFrame, fr1]


theorem State.sendRouted_frame (s : State) (f : Frame) :
    (State.sendRouted s f).pairLo = s.pairLo ∧ (State.sendRouted s f).pairCap = s.pairCap ∧ (State.sendRouted s f).free = s.free ∧ (State.sendRouted s f).policy = s.policy ∧ (State.sendRouted s f).err = s.err ∧ (State.sendRouted s f).chk = s.chk ∧ (State.sendRouted s f).snp = s.snp ∧ (State.sendRouted s f).irq = s.irq ∧ (State.sendRouted s f).stp = s.stp ∧ (State.sendRouted s f).fmt = s.fmt ∧ (State.sendRouted s f).arr = s.arr ∧ (State.sendRouted s f).vec = s.vec ∧ (State.sendRouted s f).mxe = s.mxe ∧ (State.sendRouted s f).upd = s.upd ∧ (State.sendRouted s f).red = s.red ∧ (State.sendRouted s f).tsk = s.tsk ∧ (State.sendRouted s f).mem = s.mem ∧ (State.sendRouted s f).hif = s.hif ∧ (State.sendRouted s f).img = s.img ∧ (State.sendRouted s f).pwr = s.pwr ∧ (State.sendRouted s f).pending = s.pending := by
  have fr1 := @State.holdFrame_frame
  have fr2 := @State.sendOn_frame
  unfold State.sendRouted; (repeat' split) <;> simp [fr1, fr2]


theorem State.sendPartner_frame (s : State) (m : Nat) (f : Frame) :
    (State.sendPartner s m f).pairLo = s.pairLo ∧ (State.sendPartner s m f).pairCap = s.pairCap ∧ (State.sendPartner s m f).free = s.free ∧ (State.sendPartner s m f).policy = s.policy ∧ (State.sendPartner s m f).err = s.err ∧ (State.sendPartner s m f).chk = s.chk ∧ (State.sendPartner s m f).snp = s.snp ∧ (State.sendPartner s m f).irq = s.irq ∧ (State.sendPartner s m f).stp = s.stp ∧ (State.sendPartner s m f).fmt = s.fmt ∧ (State.sendPartner s m f).arr = s.arr ∧ (State.sendPartner s m f).vec = s.vec ∧ (State.sendPartner s m f).mxe = s.mxe ∧ (State.sendPartner s m f).upd = s.upd ∧ (State.sendPartner s m f).red = s.red ∧ (State.sendPartner s m f).tsk = s.tsk ∧ (State.sendPartner s m f).mem = s.mem ∧ (State.sendPartner s m f).hif = s.hif ∧ (State.sendPartner s m f).img = s.img ∧ (State.sendPartner s m f).pwr = s.pwr ∧ (State.sendPartner s m f).pending = s.pending := by
  have fr1 := @State.holdFrame_frame
  have fr2 := @State.sendOn_frame
  unfold State.sendPartner; (repeat' split) <;> simp [fr1, fr2]


theorem State.flood_frame (s : State) (except : Option Nat) (f : Frame) :
    (State.flood s except f).pairLo = s.pairLo ∧ (State.flood s except f).pairCap = s.pairCap ∧ (State.flood s except f).free = s.free ∧ (State.flood s except f).policy = s.policy ∧ (State.flood s except f).err = s.err ∧ (State.flood s except f).chk = s.chk ∧ (State.flood s except f).snp = s.snp ∧ (State.flood s except f).irq = s.irq ∧ (State.flood s except f).stp = s.stp ∧ (State.flood s except f).fmt = s.fmt ∧ (State.flood s except f).arr = s.arr ∧ (State.flood s except f).vec = s.vec ∧ (State.flood s except f).mxe = s.mxe ∧ (State.flood s except f).upd = s.upd ∧ (State.flood s except f).red = s.red ∧ (State.flood s except f).tsk = s.tsk ∧ (State.flood s except f).mem = s.mem ∧ (State.flood s except f).hif = s.hif ∧ (State.flood s except f).img = s.img ∧ (State.flood s except f).pwr = s.pwr ∧ (State.flood s except f).pending = s.pending := by
  have fr1 := @State.sendOn_frame
  simp [State.flood, fr1]


theorem State.sendOwed_frame (s : State) (p : Option Nat × Frame) :
    (State.sendOwed s p).pairLo = s.pairLo ∧ (State.sendOwed s p).pairCap = s.pairCap ∧ (State.sendOwed s p).free = s.free ∧ (State.sendOwed s p).policy = s.policy ∧ (State.sendOwed s p).err = s.err ∧ (State.sendOwed s p).chk = s.chk ∧ (State.sendOwed s p).snp = s.snp ∧ (State.sendOwed s p).irq = s.irq ∧ (State.sendOwed s p).stp = s.stp ∧ (State.sendOwed s p).fmt = s.fmt ∧ (State.sendOwed s p).arr = s.arr ∧ (State.sendOwed s p).vec = s.vec ∧ (State.sendOwed s p).mxe = s.mxe ∧ (State.sendOwed s p).upd = s.upd ∧ (State.sendOwed s p).red = s.red ∧ (State.sendOwed s p).tsk = s.tsk ∧ (State.sendOwed s p).mem = s.mem ∧ (State.sendOwed s p).hif = s.hif ∧ (State.sendOwed s p).img = s.img ∧ (State.sendOwed s p).pwr = s.pwr ∧ (State.sendOwed s p).pending = s.pending := by
  have fr1 := @State.sendPartner_frame
  have fr2 := @State.sendRouted_frame
  unfold State.sendOwed; (repeat' split) <;> simp [fr1, fr2]


theorem State.sendWaiting_frame (s : State) :
    (State.sendWaiting s).pairLo = s.pairLo ∧ (State.sendWaiting s).pairCap = s.pairCap ∧ (State.sendWaiting s).free = s.free ∧ (State.sendWaiting s).policy = s.policy ∧ (State.sendWaiting s).err = s.err ∧ (State.sendWaiting s).chk = s.chk ∧ (State.sendWaiting s).snp = s.snp ∧ (State.sendWaiting s).irq = s.irq ∧ (State.sendWaiting s).stp = s.stp ∧ (State.sendWaiting s).fmt = s.fmt ∧ (State.sendWaiting s).arr = s.arr ∧ (State.sendWaiting s).vec = s.vec ∧ (State.sendWaiting s).mxe = s.mxe ∧ (State.sendWaiting s).upd = s.upd ∧ (State.sendWaiting s).red = s.red ∧ (State.sendWaiting s).tsk = s.tsk ∧ (State.sendWaiting s).mem = s.mem ∧ (State.sendWaiting s).hif = s.hif ∧ (State.sendWaiting s).img = s.img ∧ (State.sendWaiting s).pwr = s.pwr ∧ (State.sendWaiting s).pending = s.pending := by
  have fr1 := @State.modEzl_frame
  have fr2 := @State.sendOwed_frame
  simp only [State.sendWaiting]; (repeat' split) <;> simp [fr1, fr2]


theorem State.linksDown_frame (s : State) :
    (State.linksDown s).regs = s.regs ∧ (State.linksDown s).pairLo = s.pairLo ∧ (State.linksDown s).pairCap = s.pairCap ∧ (State.linksDown s).out = s.out ∧ (State.linksDown s).free = s.free ∧ (State.linksDown s).policy = s.policy ∧ (State.linksDown s).err = s.err ∧ (State.linksDown s).chk = s.chk ∧ (State.linksDown s).snp = s.snp ∧ (State.linksDown s).irq = s.irq ∧ (State.linksDown s).stp = s.stp ∧ (State.linksDown s).fmt = s.fmt ∧ (State.linksDown s).arr = s.arr ∧ (State.linksDown s).vec = s.vec ∧ (State.linksDown s).mxe = s.mxe ∧ (State.linksDown s).upd = s.upd ∧ (State.linksDown s).red = s.red ∧ (State.linksDown s).tsk = s.tsk ∧ (State.linksDown s).mem = s.mem ∧ (State.linksDown s).hif = s.hif ∧ (State.linksDown s).img = s.img ∧ (State.linksDown s).pwr = s.pwr ∧ (State.linksDown s).pending = s.pending := by
  have fr1 := @State.setLnk_frame
  simp [State.linksDown, fr1]


theorem State.sendCtrl_frame (s : State) (dst op : Nat) (c : CtrlMsg) :
    (State.sendCtrl s dst op c).pairLo = s.pairLo ∧ (State.sendCtrl s dst op c).pairCap = s.pairCap ∧ (State.sendCtrl s dst op c).free = s.free ∧ (State.sendCtrl s dst op c).policy = s.policy ∧ (State.sendCtrl s dst op c).err = s.err ∧ (State.sendCtrl s dst op c).chk = s.chk ∧ (State.sendCtrl s dst op c).snp = s.snp ∧ (State.sendCtrl s dst op c).irq = s.irq ∧ (State.sendCtrl s dst op c).stp = s.stp ∧ (State.sendCtrl s dst op c).fmt = s.fmt ∧ (State.sendCtrl s dst op c).arr = s.arr ∧ (State.sendCtrl s dst op c).vec = s.vec ∧ (State.sendCtrl s dst op c).mxe = s.mxe ∧ (State.sendCtrl s dst op c).upd = s.upd ∧ (State.sendCtrl s dst op c).red = s.red ∧ (State.sendCtrl s dst op c).tsk = s.tsk ∧ (State.sendCtrl s dst op c).mem = s.mem ∧ (State.sendCtrl s dst op c).hif = s.hif ∧ (State.sendCtrl s dst op c).img = s.img ∧ (State.sendCtrl s dst op c).pwr = s.pwr ∧ (State.sendCtrl s dst op c).pending = s.pending := by
  have fr1 := @State.sendRouted_frame
  simp [State.sendCtrl, fr1]


theorem State.takeRx_frame (s : State) (typ : Nat) (p : Frame → Bool) :
    (State.takeRx s typ p).regs = s.regs ∧ (State.takeRx s typ p).pairLo = s.pairLo ∧ (State.takeRx s typ p).pairCap = s.pairCap ∧ (State.takeRx s typ p).out = s.out ∧ (State.takeRx s typ p).free = s.free ∧ (State.takeRx s typ p).policy = s.policy ∧ (State.takeRx s typ p).err = s.err ∧ (State.takeRx s typ p).chk = s.chk ∧ (State.takeRx s typ p).snp = s.snp ∧ (State.takeRx s typ p).irq = s.irq ∧ (State.takeRx s typ p).stp = s.stp ∧ (State.takeRx s typ p).fmt = s.fmt ∧ (State.takeRx s typ p).arr = s.arr ∧ (State.takeRx s typ p).vec = s.vec ∧ (State.takeRx s typ p).mxe = s.mxe ∧ (State.takeRx s typ p).upd = s.upd ∧ (State.takeRx s typ p).red = s.red ∧ (State.takeRx s typ p).tsk = s.tsk ∧ (State.takeRx s typ p).mem = s.mem ∧ (State.takeRx s typ p).hif = s.hif ∧ (State.takeRx s typ p).img = s.img ∧ (State.takeRx s typ p).pwr = s.pwr ∧ (State.takeRx s typ p).pending = s.pending := by
  have fr1 := @State.modEzl_frame
  unfold State.takeRx; (repeat' split) <;> simp [fr1]


theorem State.linkCount_frame (s : State) (a : Nat) :
    (State.linkCount s a).pairLo = s.pairLo ∧ (State.linkCount s a).pairCap = s.pairCap ∧ (State.linkCount s a).out = s.out ∧ (State.linkCount s a).free = s.free ∧ (State.linkCount s a).policy = s.policy ∧ (State.linkCount s a).err = s.err ∧ (State.linkCount s a).chk = s.chk ∧ (State.linkCount s a).snp = s.snp ∧ (State.linkCount s a).irq = s.irq ∧ (State.linkCount s a).ezl = s.ezl ∧ (State.linkCount s a).stp = s.stp ∧ (State.linkCount s a).fmt = s.fmt ∧ (State.linkCount s a).arr = s.arr ∧ (State.linkCount s a).vec = s.vec ∧ (State.linkCount s a).mxe = s.mxe ∧ (State.linkCount s a).upd = s.upd ∧ (State.linkCount s a).red = s.red ∧ (State.linkCount s a).tsk = s.tsk ∧ (State.linkCount s a).mem = s.mem ∧ (State.linkCount s a).hif = s.hif ∧ (State.linkCount s a).img = s.img ∧ (State.linkCount s a).pwr = s.pwr ∧ (State.linkCount s a).pending = s.pending := by
  have fr1 := @State.incReg_frame
  simp [State.linkCount, fr1]


theorem twFault_frame (d u op cause : Nat) (s : State) :
    (twFault d u op cause s).pairLo = s.pairLo ∧ (twFault d u op cause s).pairCap = s.pairCap ∧ (twFault d u op cause s).out = s.out ∧ (twFault d u op cause s).free = s.free ∧ (twFault d u op cause s).policy = s.policy ∧ (twFault d u op cause s).chk = s.chk ∧ (twFault d u op cause s).snp = s.snp ∧ (twFault d u op cause s).irq = s.irq ∧ (twFault d u op cause s).ezl = s.ezl ∧ (twFault d u op cause s).stp = s.stp ∧ (twFault d u op cause s).fmt = s.fmt ∧ (twFault d u op cause s).arr = s.arr ∧ (twFault d u op cause s).vec = s.vec ∧ (twFault d u op cause s).mxe = s.mxe ∧ (twFault d u op cause s).upd = s.upd ∧ (twFault d u op cause s).red = s.red ∧ (twFault d u op cause s).tsk = s.tsk ∧ (twFault d u op cause s).mem = s.mem ∧ (twFault d u op cause s).hif = s.hif ∧ (twFault d u op cause s).img = s.img ∧ (twFault d u op cause s).pwr = s.pwr ∧ (twFault d u op cause s).pending = s.pending := by
  have fr1 := @State.log_frame
  have fr2 := @State.setReg_frame
  simp [twFault, fr1, fr2]


theorem unitEnd_frame (d u : Nat) (s : State) :
    (unitEnd d u s).pairLo = s.pairLo ∧ (unitEnd d u s).pairCap = s.pairCap ∧ (unitEnd d u s).out = s.out ∧ (unitEnd d u s).free = s.free ∧ (unitEnd d u s).policy = s.policy ∧ (unitEnd d u s).err = s.err ∧ (unitEnd d u s).chk = s.chk ∧ (unitEnd d u s).snp = s.snp ∧ (unitEnd d u s).irq = s.irq ∧ (unitEnd d u s).ezl = s.ezl ∧ (unitEnd d u s).stp = s.stp ∧ (unitEnd d u s).fmt = s.fmt ∧ (unitEnd d u s).arr = s.arr ∧ (unitEnd d u s).mxe = s.mxe ∧ (unitEnd d u s).upd = s.upd ∧ (unitEnd d u s).red = s.red ∧ (unitEnd d u s).mem = s.mem ∧ (unitEnd d u s).hif = s.hif ∧ (unitEnd d u s).img = s.img ∧ (unitEnd d u s).pwr = s.pwr ∧ (unitEnd d u s).pending = s.pending := by
  have fr1 := @State.modVec_frame
  have fr2 := @State.setReg_frame
  have fr3 := @State.setTask_frame
  have fr4 := @State.setUnit_frame
  unfold unitEnd; dsimp only; (repeat' split) <;> simp [fr1, fr2, fr3, fr4]


theorem twAdvance_frame (d u : Nat) (s : State) :
    (twAdvance d u s).pairLo = s.pairLo ∧ (twAdvance d u s).pairCap = s.pairCap ∧ (twAdvance d u s).out = s.out ∧ (twAdvance d u s).free = s.free ∧ (twAdvance d u s).policy = s.policy ∧ (twAdvance d u s).err = s.err ∧ (twAdvance d u s).chk = s.chk ∧ (twAdvance d u s).snp = s.snp ∧ (twAdvance d u s).irq = s.irq ∧ (twAdvance d u s).ezl = s.ezl ∧ (twAdvance d u s).stp = s.stp ∧ (twAdvance d u s).fmt = s.fmt ∧ (twAdvance d u s).arr = s.arr ∧ (twAdvance d u s).mxe = s.mxe ∧ (twAdvance d u s).upd = s.upd ∧ (twAdvance d u s).red = s.red ∧ (twAdvance d u s).mem = s.mem ∧ (twAdvance d u s).hif = s.hif ∧ (twAdvance d u s).img = s.img ∧ (twAdvance d u s).pwr = s.pwr ∧ (twAdvance d u s).pending = s.pending := by
  have fr1 := @State.setUnit_frame
  have fr2 := @unitEnd_frame
  simp [twAdvance, fr1, fr2]


@[simp] theorem twIssue_regs (d u op : Nat) (w : TwillWord) (s : State) (f : Nat → State → State) (h : (f op s).regs = s.regs) : (twIssue d u op w s f).regs = s.regs := by
  unfold twIssue; split <;> simp [h]

@[simp] theorem twIssue_pairLo (d u op : Nat) (w : TwillWord) (s : State) (f : Nat → State → State) (h : (f op s).pairLo = s.pairLo) : (twIssue d u op w s f).pairLo = s.pairLo := by
  unfold twIssue; split <;> simp [h]

@[simp] theorem twIssue_pairCap (d u op : Nat) (w : TwillWord) (s : State) (f : Nat → State → State) (h : (f op s).pairCap = s.pairCap) : (twIssue d u op w s f).pairCap = s.pairCap := by
  unfold twIssue; split <;> simp [h]

@[simp] theorem twIssue_out (d u op : Nat) (w : TwillWord) (s : State) (f : Nat → State → State) (h : (f op s).out = s.out) : (twIssue d u op w s f).out = s.out := by
  unfold twIssue; split <;> simp [h]

@[simp] theorem twIssue_free (d u op : Nat) (w : TwillWord) (s : State) (f : Nat → State → State) (h : (f op s).free = s.free) : (twIssue d u op w s f).free = s.free := by
  unfold twIssue; split <;> simp [h]

@[simp] theorem twIssue_policy (d u op : Nat) (w : TwillWord) (s : State) (f : Nat → State → State) (h : (f op s).policy = s.policy) : (twIssue d u op w s f).policy = s.policy := by
  unfold twIssue; split <;> simp [h]

@[simp] theorem twIssue_err (d u op : Nat) (w : TwillWord) (s : State) (f : Nat → State → State) (h : (f op s).err = s.err) : (twIssue d u op w s f).err = s.err := by
  unfold twIssue; split <;> simp [h]

@[simp] theorem twIssue_chk (d u op : Nat) (w : TwillWord) (s : State) (f : Nat → State → State) (h : (f op s).chk = s.chk) : (twIssue d u op w s f).chk = s.chk := by
  unfold twIssue; split <;> simp [h]

@[simp] theorem twIssue_snp (d u op : Nat) (w : TwillWord) (s : State) (f : Nat → State → State) (h : (f op s).snp = s.snp) : (twIssue d u op w s f).snp = s.snp := by
  unfold twIssue; split <;> simp [h]

@[simp] theorem twIssue_irq (d u op : Nat) (w : TwillWord) (s : State) (f : Nat → State → State) (h : (f op s).irq = s.irq) : (twIssue d u op w s f).irq = s.irq := by
  unfold twIssue; split <;> simp [h]

@[simp] theorem twIssue_ezl (d u op : Nat) (w : TwillWord) (s : State) (f : Nat → State → State) (h : (f op s).ezl = s.ezl) : (twIssue d u op w s f).ezl = s.ezl := by
  unfold twIssue; split <;> simp [h]

@[simp] theorem twIssue_stp (d u op : Nat) (w : TwillWord) (s : State) (f : Nat → State → State) (h : (f op s).stp = s.stp) : (twIssue d u op w s f).stp = s.stp := by
  unfold twIssue; split <;> simp [h]

@[simp] theorem twIssue_fmt (d u op : Nat) (w : TwillWord) (s : State) (f : Nat → State → State) (h : (f op s).fmt = s.fmt) : (twIssue d u op w s f).fmt = s.fmt := by
  unfold twIssue; split <;> simp [h]

@[simp] theorem twIssue_arr (d u op : Nat) (w : TwillWord) (s : State) (f : Nat → State → State) (h : (f op s).arr = s.arr) : (twIssue d u op w s f).arr = s.arr := by
  unfold twIssue; split <;> simp [h]

@[simp] theorem twIssue_vec (d u op : Nat) (w : TwillWord) (s : State) (f : Nat → State → State) (h : (f op s).vec = s.vec) : (twIssue d u op w s f).vec = s.vec := by
  unfold twIssue; split <;> simp [h]

@[simp] theorem twIssue_mxe (d u op : Nat) (w : TwillWord) (s : State) (f : Nat → State → State) (h : (f op s).mxe = s.mxe) : (twIssue d u op w s f).mxe = s.mxe := by
  unfold twIssue; split <;> simp [h]

@[simp] theorem twIssue_upd (d u op : Nat) (w : TwillWord) (s : State) (f : Nat → State → State) (h : (f op s).upd = s.upd) : (twIssue d u op w s f).upd = s.upd := by
  unfold twIssue; split <;> simp [h]

@[simp] theorem twIssue_red (d u op : Nat) (w : TwillWord) (s : State) (f : Nat → State → State) (h : (f op s).red = s.red) : (twIssue d u op w s f).red = s.red := by
  unfold twIssue; split <;> simp [h]

@[simp] theorem twIssue_tsk (d u op : Nat) (w : TwillWord) (s : State) (f : Nat → State → State) (h : (f op s).tsk = s.tsk) : (twIssue d u op w s f).tsk = s.tsk := by
  unfold twIssue; split <;> simp [h]

@[simp] theorem twIssue_mem (d u op : Nat) (w : TwillWord) (s : State) (f : Nat → State → State) (h : (f op s).mem = s.mem) : (twIssue d u op w s f).mem = s.mem := by
  unfold twIssue; split <;> simp [h]

@[simp] theorem twIssue_hif (d u op : Nat) (w : TwillWord) (s : State) (f : Nat → State → State) (h : (f op s).hif = s.hif) : (twIssue d u op w s f).hif = s.hif := by
  unfold twIssue; split <;> simp [h]

@[simp] theorem twIssue_img (d u op : Nat) (w : TwillWord) (s : State) (f : Nat → State → State) (h : (f op s).img = s.img) : (twIssue d u op w s f).img = s.img := by
  unfold twIssue; split <;> simp [h]

@[simp] theorem twIssue_pwr (d u op : Nat) (w : TwillWord) (s : State) (f : Nat → State → State) (h : (f op s).pwr = s.pwr) : (twIssue d u op w s f).pwr = s.pwr := by
  unfold twIssue; split <;> simp [h]

@[simp] theorem twIssue_pending (d u op : Nat) (w : TwillWord) (s : State) (f : Nat → State → State) (h : (f op s).pending = s.pending) : (twIssue d u op w s f).pending = s.pending := by
  unfold twIssue; split <;> simp [h]


theorem twDone_frame (d u : Nat) (noFlag : Bool) (fl : Nat) (x : UnitSt) (s : State) :
    (twDone d u noFlag fl x s).pairLo = s.pairLo ∧ (twDone d u noFlag fl x s).pairCap = s.pairCap ∧ (twDone d u noFlag fl x s).out = s.out ∧ (twDone d u noFlag fl x s).free = s.free ∧ (twDone d u noFlag fl x s).policy = s.policy ∧ (twDone d u noFlag fl x s).err = s.err ∧ (twDone d u noFlag fl x s).chk = s.chk ∧ (twDone d u noFlag fl x s).snp = s.snp ∧ (twDone d u noFlag fl x s).irq = s.irq ∧ (twDone d u noFlag fl x s).ezl = s.ezl ∧ (twDone d u noFlag fl x s).stp = s.stp ∧ (twDone d u noFlag fl x s).fmt = s.fmt ∧ (twDone d u noFlag fl x s).arr = s.arr ∧ (twDone d u noFlag fl x s).mxe = s.mxe ∧ (twDone d u noFlag fl x s).upd = s.upd ∧ (twDone d u noFlag fl x s).red = s.red ∧ (twDone d u noFlag fl x s).mem = s.mem ∧ (twDone d u noFlag fl x s).hif = s.hif ∧ (twDone d u noFlag fl x s).img = s.img ∧ (twDone d u noFlag fl x s).pwr = s.pwr ∧ (twDone d u noFlag fl x s).pending = s.pending := by
  have fr1 := @State.setUnit_frame
  have fr2 := @twAdvance_frame
  simp [twDone, fr1, fr2]


theorem twIllegal_frame (d u op : Nat) (s : State) :
    (twIllegal d u op s).pairLo = s.pairLo ∧ (twIllegal d u op s).pairCap = s.pairCap ∧ (twIllegal d u op s).out = s.out ∧ (twIllegal d u op s).free = s.free ∧ (twIllegal d u op s).policy = s.policy ∧ (twIllegal d u op s).chk = s.chk ∧ (twIllegal d u op s).snp = s.snp ∧ (twIllegal d u op s).irq = s.irq ∧ (twIllegal d u op s).ezl = s.ezl ∧ (twIllegal d u op s).stp = s.stp ∧ (twIllegal d u op s).fmt = s.fmt ∧ (twIllegal d u op s).arr = s.arr ∧ (twIllegal d u op s).mxe = s.mxe ∧ (twIllegal d u op s).upd = s.upd ∧ (twIllegal d u op s).red = s.red ∧ (twIllegal d u op s).mem = s.mem ∧ (twIllegal d u op s).hif = s.hif ∧ (twIllegal d u op s).img = s.img ∧ (twIllegal d u op s).pwr = s.pwr ∧ (twIllegal d u op s).pending = s.pending := by
  have fr1 := @State.setUnit_frame
  have fr2 := @twAdvance_frame
  have fr3 := @twFault_frame
  simp [twIllegal, fr1, fr2, fr3]


theorem twIllMark_frame (d u op : Nat) (s : State) :
    (twIllMark d u op s).pairLo = s.pairLo ∧ (twIllMark d u op s).pairCap = s.pairCap ∧ (twIllMark d u op s).out = s.out ∧ (twIllMark d u op s).free = s.free ∧ (twIllMark d u op s).policy = s.policy ∧ (twIllMark d u op s).chk = s.chk ∧ (twIllMark d u op s).snp = s.snp ∧ (twIllMark d u op s).irq = s.irq ∧ (twIllMark d u op s).ezl = s.ezl ∧ (twIllMark d u op s).stp = s.stp ∧ (twIllMark d u op s).fmt = s.fmt ∧ (twIllMark d u op s).arr = s.arr ∧ (twIllMark d u op s).mxe = s.mxe ∧ (twIllMark d u op s).upd = s.upd ∧ (twIllMark d u op s).red = s.red ∧ (twIllMark d u op s).tsk = s.tsk ∧ (twIllMark d u op s).mem = s.mem ∧ (twIllMark d u op s).hif = s.hif ∧ (twIllMark d u op s).img = s.img ∧ (twIllMark d u op s).pwr = s.pwr ∧ (twIllMark d u op s).pending = s.pending := by
  have fr1 := @State.setUnit_frame
  have fr2 := @twFault_frame
  simp [twIllMark, fr1, fr2]


theorem twRun_frame (d u op : Nat) (tys : List Nat) (w : TwillWord) (s : State) (f : TwillWord → UnitSt → UnitSt × Nat) :
    (twRun d u op tys w s f).pairLo = s.pairLo ∧ (twRun d u op tys w s f).pairCap = s.pairCap ∧ (twRun d u op tys w s f).out = s.out ∧ (twRun d u op tys w s f).free = s.free ∧ (twRun d u op tys w s f).policy = s.policy ∧ (twRun d u op tys w s f).chk = s.chk ∧ (twRun d u op tys w s f).snp = s.snp ∧ (twRun d u op tys w s f).irq = s.irq ∧ (twRun d u op tys w s f).ezl = s.ezl ∧ (twRun d u op tys w s f).stp = s.stp ∧ (twRun d u op tys w s f).fmt = s.fmt ∧ (twRun d u op tys w s f).arr = s.arr ∧ (twRun d u op tys w s f).mxe = s.mxe ∧ (twRun d u op tys w s f).upd = s.upd ∧ (twRun d u op tys w s f).red = s.red ∧ (twRun d u op tys w s f).mem = s.mem ∧ (twRun d u op tys w s f).hif = s.hif ∧ (twRun d u op tys w s f).img = s.img ∧ (twRun d u op tys w s f).pwr = s.pwr ∧ (twRun d u op tys w s f).pending = s.pending := by
  have fr1 := @twDone_frame
  have fr2 := @twIllMark_frame
  have fr3 := @twIllegal_frame
  simp [twRun, fr1, fr2, fr3]


theorem twElems_frame (d u op : Nat) (tys : List Nat) (w : TwillWord) (s : State) (f : TwillWord → UnitSt → Nat → Nat × Nat) :
    (twElems d u op tys w s f).pairLo = s.pairLo ∧ (twElems d u op tys w s f).pairCap = s.pairCap ∧ (twElems d u op tys w s f).out = s.out ∧ (twElems d u op tys w s f).free = s.free ∧ (twElems d u op tys w s f).policy = s.policy ∧ (twElems d u op tys w s f).chk = s.chk ∧ (twElems d u op tys w s f).snp = s.snp ∧ (twElems d u op tys w s f).irq = s.irq ∧ (twElems d u op tys w s f).ezl = s.ezl ∧ (twElems d u op tys w s f).stp = s.stp ∧ (twElems d u op tys w s f).fmt = s.fmt ∧ (twElems d u op tys w s f).arr = s.arr ∧ (twElems d u op tys w s f).mxe = s.mxe ∧ (twElems d u op tys w s f).upd = s.upd ∧ (twElems d u op tys w s f).red = s.red ∧ (twElems d u op tys w s f).mem = s.mem ∧ (twElems d u op tys w s f).hif = s.hif ∧ (twElems d u op tys w s f).img = s.img ∧ (twElems d u op tys w s f).pwr = s.pwr ∧ (twElems d u op tys w s f).pending = s.pending := by
  have fr1 := @twRun_frame
  simp [twElems, fr1]


theorem State.foldAmax_frame (s : State) (tensor code : Nat) :
    (State.foldAmax s tensor code).regs = s.regs ∧ (State.foldAmax s tensor code).pairLo = s.pairLo ∧ (State.foldAmax s tensor code).pairCap = s.pairCap ∧ (State.foldAmax s tensor code).out = s.out ∧ (State.foldAmax s tensor code).free = s.free ∧ (State.foldAmax s tensor code).policy = s.policy ∧ (State.foldAmax s tensor code).err = s.err ∧ (State.foldAmax s tensor code).chk = s.chk ∧ (State.foldAmax s tensor code).snp = s.snp ∧ (State.foldAmax s tensor code).irq = s.irq ∧ (State.foldAmax s tensor code).ezl = s.ezl ∧ (State.foldAmax s tensor code).stp = s.stp ∧ (State.foldAmax s tensor code).arr = s.arr ∧ (State.foldAmax s tensor code).vec = s.vec ∧ (State.foldAmax s tensor code).mxe = s.mxe ∧ (State.foldAmax s tensor code).upd = s.upd ∧ (State.foldAmax s tensor code).red = s.red ∧ (State.foldAmax s tensor code).tsk = s.tsk ∧ (State.foldAmax s tensor code).mem = s.mem ∧ (State.foldAmax s tensor code).hif = s.hif ∧ (State.foldAmax s tensor code).img = s.img ∧ (State.foldAmax s tensor code).pwr = s.pwr ∧ (State.foldAmax s tensor code).pending = s.pending := by
  have fr1 := @State.modFmt_frame
  simp [State.foldAmax, fr1]


theorem State.logBadSr_frame (s : State) (a n : Nat) :
    (State.logBadSr s a n).pairLo = s.pairLo ∧ (State.logBadSr s a n).pairCap = s.pairCap ∧ (State.logBadSr s a n).out = s.out ∧ (State.logBadSr s a n).free = s.free ∧ (State.logBadSr s a n).policy = s.policy ∧ (State.logBadSr s a n).chk = s.chk ∧ (State.logBadSr s a n).snp = s.snp ∧ (State.logBadSr s a n).irq = s.irq ∧ (State.logBadSr s a n).ezl = s.ezl ∧ (State.logBadSr s a n).stp = s.stp ∧ (State.logBadSr s a n).fmt = s.fmt ∧ (State.logBadSr s a n).arr = s.arr ∧ (State.logBadSr s a n).vec = s.vec ∧ (State.logBadSr s a n).mxe = s.mxe ∧ (State.logBadSr s a n).upd = s.upd ∧ (State.logBadSr s a n).red = s.red ∧ (State.logBadSr s a n).tsk = s.tsk ∧ (State.logBadSr s a n).mem = s.mem ∧ (State.logBadSr s a n).hif = s.hif ∧ (State.logBadSr s a n).img = s.img ∧ (State.logBadSr s a n).pwr = s.pwr ∧ (State.logBadSr s a n).pending = s.pending := by
  have fr1 := @State.log_frame
  simp [State.logBadSr, fr1]


theorem State.hostHbmWrite_frame (s : State) (a : Nat) (bs : List Byte) :
    (State.hostHbmWrite s a bs).pairLo = s.pairLo ∧ (State.hostHbmWrite s a bs).pairCap = s.pairCap ∧ (State.hostHbmWrite s a bs).out = s.out ∧ (State.hostHbmWrite s a bs).free = s.free ∧ (State.hostHbmWrite s a bs).policy = s.policy ∧ (State.hostHbmWrite s a bs).chk = s.chk ∧ (State.hostHbmWrite s a bs).snp = s.snp ∧ (State.hostHbmWrite s a bs).irq = s.irq ∧ (State.hostHbmWrite s a bs).ezl = s.ezl ∧ (State.hostHbmWrite s a bs).stp = s.stp ∧ (State.hostHbmWrite s a bs).fmt = s.fmt ∧ (State.hostHbmWrite s a bs).arr = s.arr ∧ (State.hostHbmWrite s a bs).vec = s.vec ∧ (State.hostHbmWrite s a bs).mxe = s.mxe ∧ (State.hostHbmWrite s a bs).upd = s.upd ∧ (State.hostHbmWrite s a bs).red = s.red ∧ (State.hostHbmWrite s a bs).tsk = s.tsk ∧ (State.hostHbmWrite s a bs).hif = s.hif ∧ (State.hostHbmWrite s a bs).img = s.img ∧ (State.hostHbmWrite s a bs).pwr = s.pwr ∧ (State.hostHbmWrite s a bs).pending = s.pending := by
  have fr1 := @State.hbmWrite_frame
  have fr2 := @State.logBadSr_frame
  simp [State.hostHbmWrite, fr1, fr2]


theorem State.addEnc_frame (s : State) (c : EncCount) :
    (State.addEnc s c).regs = s.regs ∧ (State.addEnc s c).pairLo = s.pairLo ∧ (State.addEnc s c).pairCap = s.pairCap ∧ (State.addEnc s c).out = s.out ∧ (State.addEnc s c).free = s.free ∧ (State.addEnc s c).policy = s.policy ∧ (State.addEnc s c).err = s.err ∧ (State.addEnc s c).chk = s.chk ∧ (State.addEnc s c).snp = s.snp ∧ (State.addEnc s c).irq = s.irq ∧ (State.addEnc s c).ezl = s.ezl ∧ (State.addEnc s c).fmt = s.fmt ∧ (State.addEnc s c).arr = s.arr ∧ (State.addEnc s c).vec = s.vec ∧ (State.addEnc s c).mxe = s.mxe ∧ (State.addEnc s c).upd = s.upd ∧ (State.addEnc s c).red = s.red ∧ (State.addEnc s c).tsk = s.tsk ∧ (State.addEnc s c).mem = s.mem ∧ (State.addEnc s c).hif = s.hif ∧ (State.addEnc s c).img = s.img ∧ (State.addEnc s c).pwr = s.pwr ∧ (State.addEnc s c).pending = s.pending := by
  have fr1 := @State.modCnt_frame
  simp [State.addEnc, fr1]


theorem State.formatsStart_frame (s : State) :
    (State.formatsStart s).regs = s.regs ∧ (State.formatsStart s).pairLo = s.pairLo ∧ (State.formatsStart s).pairCap = s.pairCap ∧ (State.formatsStart s).out = s.out ∧ (State.formatsStart s).free = s.free ∧ (State.formatsStart s).policy = s.policy ∧ (State.formatsStart s).err = s.err ∧ (State.formatsStart s).chk = s.chk ∧ (State.formatsStart s).snp = s.snp ∧ (State.formatsStart s).irq = s.irq ∧ (State.formatsStart s).ezl = s.ezl ∧ (State.formatsStart s).stp = s.stp ∧ (State.formatsStart s).arr = s.arr ∧ (State.formatsStart s).vec = s.vec ∧ (State.formatsStart s).mxe = s.mxe ∧ (State.formatsStart s).upd = s.upd ∧ (State.formatsStart s).red = s.red ∧ (State.formatsStart s).tsk = s.tsk ∧ (State.formatsStart s).mem = s.mem ∧ (State.formatsStart s).hif = s.hif ∧ (State.formatsStart s).img = s.img ∧ (State.formatsStart s).pwr = s.pwr ∧ (State.formatsStart s).pending = s.pending := by
  have fr1 := @State.modFmt_frame
  simp [State.formatsStart, fr1]


theorem State.logHostExp_frame (s : State) :
    (State.logHostExp s).pairLo = s.pairLo ∧ (State.logHostExp s).pairCap = s.pairCap ∧ (State.logHostExp s).out = s.out ∧ (State.logHostExp s).free = s.free ∧ (State.logHostExp s).policy = s.policy ∧ (State.logHostExp s).chk = s.chk ∧ (State.logHostExp s).snp = s.snp ∧ (State.logHostExp s).irq = s.irq ∧ (State.logHostExp s).ezl = s.ezl ∧ (State.logHostExp s).stp = s.stp ∧ (State.logHostExp s).fmt = s.fmt ∧ (State.logHostExp s).arr = s.arr ∧ (State.logHostExp s).vec = s.vec ∧ (State.logHostExp s).mxe = s.mxe ∧ (State.logHostExp s).upd = s.upd ∧ (State.logHostExp s).red = s.red ∧ (State.logHostExp s).tsk = s.tsk ∧ (State.logHostExp s).mem = s.mem ∧ (State.logHostExp s).hif = s.hif ∧ (State.logHostExp s).img = s.img ∧ (State.logHostExp s).pwr = s.pwr ∧ (State.logHostExp s).pending = s.pending := by
  have fr1 := @State.log_frame
  simp [State.logHostExp, fr1]


theorem State.phaseStep_frame (s : State) (step : Nat) :
    (State.phaseStep s step).regs = s.regs ∧ (State.phaseStep s step).pairLo = s.pairLo ∧ (State.phaseStep s step).pairCap = s.pairCap ∧ (State.phaseStep s step).out = s.out ∧ (State.phaseStep s step).free = s.free ∧ (State.phaseStep s step).policy = s.policy ∧ (State.phaseStep s step).err = s.err ∧ (State.phaseStep s step).chk = s.chk ∧ (State.phaseStep s step).snp = s.snp ∧ (State.phaseStep s step).irq = s.irq ∧ (State.phaseStep s step).ezl = s.ezl ∧ (State.phaseStep s step).arr = s.arr ∧ (State.phaseStep s step).vec = s.vec ∧ (State.phaseStep s step).mxe = s.mxe ∧ (State.phaseStep s step).upd = s.upd ∧ (State.phaseStep s step).red = s.red ∧ (State.phaseStep s step).tsk = s.tsk ∧ (State.phaseStep s step).mem = s.mem ∧ (State.phaseStep s step).hif = s.hif ∧ (State.phaseStep s step).img = s.img ∧ (State.phaseStep s step).pwr = s.pwr ∧ (State.phaseStep s step).pending = s.pending := by
  have fr1 := @State.modFmt_frame
  have fr2 := @State.modStp_frame
  simp [State.phaseStep, fr1, fr2]


theorem State.gradFormats_frame (s : State) (entered : Bool) :
    (State.gradFormats s entered).pairLo = s.pairLo ∧ (State.gradFormats s entered).pairCap = s.pairCap ∧ (State.gradFormats s entered).out = s.out ∧ (State.gradFormats s entered).free = s.free ∧ (State.gradFormats s entered).policy = s.policy ∧ (State.gradFormats s entered).chk = s.chk ∧ (State.gradFormats s entered).snp = s.snp ∧ (State.gradFormats s entered).irq = s.irq ∧ (State.gradFormats s entered).ezl = s.ezl ∧ (State.gradFormats s entered).stp = s.stp ∧ (State.gradFormats s entered).arr = s.arr ∧ (State.gradFormats s entered).vec = s.vec ∧ (State.gradFormats s entered).mxe = s.mxe ∧ (State.gradFormats s entered).upd = s.upd ∧ (State.gradFormats s entered).red = s.red ∧ (State.gradFormats s entered).tsk = s.tsk ∧ (State.gradFormats s entered).mem = s.mem ∧ (State.gradFormats s entered).hif = s.hif ∧ (State.gradFormats s entered).img = s.img ∧ (State.gradFormats s entered).pwr = s.pwr ∧ (State.gradFormats s entered).pending = s.pending := by
  have fr1 := @State.log_frame
  have fr2 := @State.modFmt_frame
  simp [State.gradFormats, fr1, fr2]


theorem State.draftRecord_frame (s : State) :
    (State.draftRecord s).regs = s.regs ∧ (State.draftRecord s).pairLo = s.pairLo ∧ (State.draftRecord s).pairCap = s.pairCap ∧ (State.draftRecord s).out = s.out ∧ (State.draftRecord s).free = s.free ∧ (State.draftRecord s).policy = s.policy ∧ (State.draftRecord s).err = s.err ∧ (State.draftRecord s).chk = s.chk ∧ (State.draftRecord s).snp = s.snp ∧ (State.draftRecord s).irq = s.irq ∧ (State.draftRecord s).ezl = s.ezl ∧ (State.draftRecord s).fmt = s.fmt ∧ (State.draftRecord s).arr = s.arr ∧ (State.draftRecord s).vec = s.vec ∧ (State.draftRecord s).mxe = s.mxe ∧ (State.draftRecord s).upd = s.upd ∧ (State.draftRecord s).red = s.red ∧ (State.draftRecord s).tsk = s.tsk ∧ (State.draftRecord s).hif = s.hif ∧ (State.draftRecord s).img = s.img ∧ (State.draftRecord s).pwr = s.pwr ∧ (State.draftRecord s).pending = s.pending := by
  have fr1 := @State.modStp_frame
  have fr2 := @State.setRecord_frame
  simp [State.draftRecord, fr1, fr2]


theorem State.writeRecord_frame (s : State) (r : RecEnt) :
    (State.writeRecord s r).pairLo = s.pairLo ∧ (State.writeRecord s r).pairCap = s.pairCap ∧ (State.writeRecord s r).out = s.out ∧ (State.writeRecord s r).free = s.free ∧ (State.writeRecord s r).policy = s.policy ∧ (State.writeRecord s r).err = s.err ∧ (State.writeRecord s r).chk = s.chk ∧ (State.writeRecord s r).snp = s.snp ∧ (State.writeRecord s r).irq = s.irq ∧ (State.writeRecord s r).ezl = s.ezl ∧ (State.writeRecord s r).fmt = s.fmt ∧ (State.writeRecord s r).arr = s.arr ∧ (State.writeRecord s r).vec = s.vec ∧ (State.writeRecord s r).mxe = s.mxe ∧ (State.writeRecord s r).upd = s.upd ∧ (State.writeRecord s r).red = s.red ∧ (State.writeRecord s r).tsk = s.tsk ∧ (State.writeRecord s r).hif = s.hif ∧ (State.writeRecord s r).img = s.img ∧ (State.writeRecord s r).pwr = s.pwr ∧ (State.writeRecord s r).pending = s.pending := by
  have fr1 := @State.modStp_frame
  have fr2 := @State.setRecord_frame
  have fr3 := @State.setRegN_frame
  simp [State.writeRecord, fr1, fr2, fr3]


theorem State.writeStats_frame (s : State) :
    (State.writeStats s).regs = s.regs ∧ (State.writeStats s).pairLo = s.pairLo ∧ (State.writeStats s).pairCap = s.pairCap ∧ (State.writeStats s).out = s.out ∧ (State.writeStats s).free = s.free ∧ (State.writeStats s).policy = s.policy ∧ (State.writeStats s).err = s.err ∧ (State.writeStats s).chk = s.chk ∧ (State.writeStats s).snp = s.snp ∧ (State.writeStats s).irq = s.irq ∧ (State.writeStats s).ezl = s.ezl ∧ (State.writeStats s).stp = s.stp ∧ (State.writeStats s).fmt = s.fmt ∧ (State.writeStats s).arr = s.arr ∧ (State.writeStats s).vec = s.vec ∧ (State.writeStats s).mxe = s.mxe ∧ (State.writeStats s).upd = s.upd ∧ (State.writeStats s).red = s.red ∧ (State.writeStats s).tsk = s.tsk ∧ (State.writeStats s).hif = s.hif ∧ (State.writeStats s).img = s.img ∧ (State.writeStats s).pwr = s.pwr ∧ (State.writeStats s).pending = s.pending := by
  have fr1 := @State.hbmWrite_frame
  simp [State.writeStats, fr1]


theorem State.trackerTake_frame (s : State) (keep : Bool) :
    (State.trackerTake s keep).regs = s.regs ∧ (State.trackerTake s keep).pairLo = s.pairLo ∧ (State.trackerTake s keep).pairCap = s.pairCap ∧ (State.trackerTake s keep).out = s.out ∧ (State.trackerTake s keep).free = s.free ∧ (State.trackerTake s keep).policy = s.policy ∧ (State.trackerTake s keep).err = s.err ∧ (State.trackerTake s keep).chk = s.chk ∧ (State.trackerTake s keep).snp = s.snp ∧ (State.trackerTake s keep).irq = s.irq ∧ (State.trackerTake s keep).ezl = s.ezl ∧ (State.trackerTake s keep).stp = s.stp ∧ (State.trackerTake s keep).fmt = s.fmt ∧ (State.trackerTake s keep).vec = s.vec ∧ (State.trackerTake s keep).mxe = s.mxe ∧ (State.trackerTake s keep).upd = s.upd ∧ (State.trackerTake s keep).red = s.red ∧ (State.trackerTake s keep).tsk = s.tsk ∧ (State.trackerTake s keep).mem = s.mem ∧ (State.trackerTake s keep).hif = s.hif ∧ (State.trackerTake s keep).img = s.img ∧ (State.trackerTake s keep).pwr = s.pwr ∧ (State.trackerTake s keep).pending = s.pending := by
  have fr1 := @State.modArr_frame
  simp [State.trackerTake, fr1]


theorem State.appendAll_frame (s : State) :
    (State.appendAll s).regs = s.regs ∧ (State.appendAll s).pairLo = s.pairLo ∧ (State.appendAll s).pairCap = s.pairCap ∧ (State.appendAll s).out = s.out ∧ (State.appendAll s).free = s.free ∧ (State.appendAll s).policy = s.policy ∧ (State.appendAll s).err = s.err ∧ (State.appendAll s).chk = s.chk ∧ (State.appendAll s).snp = s.snp ∧ (State.appendAll s).irq = s.irq ∧ (State.appendAll s).ezl = s.ezl ∧ (State.appendAll s).stp = s.stp ∧ (State.appendAll s).vec = s.vec ∧ (State.appendAll s).mxe = s.mxe ∧ (State.appendAll s).upd = s.upd ∧ (State.appendAll s).red = s.red ∧ (State.appendAll s).tsk = s.tsk ∧ (State.appendAll s).hif = s.hif ∧ (State.appendAll s).img = s.img ∧ (State.appendAll s).pwr = s.pwr ∧ (State.appendAll s).pending = s.pending := by
  have fr1 := @State.modFmt_frame
  have fr2 := @State.trackerTake_frame
  have fr3 := @State.writeStats_frame
  simp [State.appendAll, fr1, fr2, fr3]


theorem State.resetChannels_frame (s : State) :
    (State.resetChannels s).regs = s.regs ∧ (State.resetChannels s).pairLo = s.pairLo ∧ (State.resetChannels s).pairCap = s.pairCap ∧ (State.resetChannels s).out = s.out ∧ (State.resetChannels s).free = s.free ∧ (State.resetChannels s).policy = s.policy ∧ (State.resetChannels s).err = s.err ∧ (State.resetChannels s).chk = s.chk ∧ (State.resetChannels s).snp = s.snp ∧ (State.resetChannels s).irq = s.irq ∧ (State.resetChannels s).ezl = s.ezl ∧ (State.resetChannels s).stp = s.stp ∧ (State.resetChannels s).fmt = s.fmt ∧ (State.resetChannels s).arr = s.arr ∧ (State.resetChannels s).vec = s.vec ∧ (State.resetChannels s).mxe = s.mxe ∧ (State.resetChannels s).upd = s.upd ∧ (State.resetChannels s).tsk = s.tsk ∧ (State.resetChannels s).mem = s.mem ∧ (State.resetChannels s).hif = s.hif ∧ (State.resetChannels s).img = s.img ∧ (State.resetChannels s).pwr = s.pwr ∧ (State.resetChannels s).pending = s.pending := by
  have fr1 := @State.modRed_frame
  simp [State.resetChannels, fr1]


theorem State.resetUpdates_frame (s : State) :
    (State.resetUpdates s).regs = s.regs ∧ (State.resetUpdates s).pairLo = s.pairLo ∧ (State.resetUpdates s).pairCap = s.pairCap ∧ (State.resetUpdates s).out = s.out ∧ (State.resetUpdates s).free = s.free ∧ (State.resetUpdates s).policy = s.policy ∧ (State.resetUpdates s).err = s.err ∧ (State.resetUpdates s).chk = s.chk ∧ (State.resetUpdates s).snp = s.snp ∧ (State.resetUpdates s).irq = s.irq ∧ (State.resetUpdates s).ezl = s.ezl ∧ (State.resetUpdates s).stp = s.stp ∧ (State.resetUpdates s).fmt = s.fmt ∧ (State.resetUpdates s).arr = s.arr ∧ (State.resetUpdates s).vec = s.vec ∧ (State.resetUpdates s).mxe = s.mxe ∧ (State.resetUpdates s).red = s.red ∧ (State.resetUpdates s).tsk = s.tsk ∧ (State.resetUpdates s).mem = s.mem ∧ (State.resetUpdates s).hif = s.hif ∧ (State.resetUpdates s).img = s.img ∧ (State.resetUpdates s).pwr = s.pwr ∧ (State.resetUpdates s).pending = s.pending := by
  have fr1 := @State.setUpd_frame
  simp [State.resetUpdates, fr1]


@[simp] theorem State.releaseSlices_regs (s : State) : (State.releaseSlices s).regs = s.regs := by
  have fr1 := @State.modMxe_frame
  unfold State.releaseSlices
  refine State.foldl_regs _ (fun s k => ?_) _ _
  (repeat' split) <;> simp [fr1]

@[simp] theorem State.releaseSlices_pairLo (s : State) : (State.releaseSlices s).pairLo = s.pairLo := by
  have fr1 := @State.modMxe_frame
  unfold State.releaseSlices
  refine State.foldl_pairLo _ (fun s k => ?_) _ _
  (repeat' split) <;> simp [fr1]

@[simp] theorem State.releaseSlices_pairCap (s : State) : (State.releaseSlices s).pairCap = s.pairCap := by
  have fr1 := @State.modMxe_frame
  unfold State.releaseSlices
  refine State.foldl_pairCap _ (fun s k => ?_) _ _
  (repeat' split) <;> simp [fr1]

@[simp] theorem State.releaseSlices_out (s : State) : (State.releaseSlices s).out = s.out := by
  have fr1 := @State.modMxe_frame
  unfold State.releaseSlices
  refine State.foldl_out _ (fun s k => ?_) _ _
  (repeat' split) <;> simp [fr1]

@[simp] theorem State.releaseSlices_free (s : State) : (State.releaseSlices s).free = s.free := by
  have fr1 := @State.modMxe_frame
  unfold State.releaseSlices
  refine State.foldl_free _ (fun s k => ?_) _ _
  (repeat' split) <;> simp [fr1]

@[simp] theorem State.releaseSlices_policy (s : State) : (State.releaseSlices s).policy = s.policy := by
  have fr1 := @State.modMxe_frame
  unfold State.releaseSlices
  refine State.foldl_policy _ (fun s k => ?_) _ _
  (repeat' split) <;> simp [fr1]

@[simp] theorem State.releaseSlices_err (s : State) : (State.releaseSlices s).err = s.err := by
  have fr1 := @State.modMxe_frame
  unfold State.releaseSlices
  refine State.foldl_err _ (fun s k => ?_) _ _
  (repeat' split) <;> simp [fr1]

@[simp] theorem State.releaseSlices_chk (s : State) : (State.releaseSlices s).chk = s.chk := by
  have fr1 := @State.modMxe_frame
  unfold State.releaseSlices
  refine State.foldl_chk _ (fun s k => ?_) _ _
  (repeat' split) <;> simp [fr1]

@[simp] theorem State.releaseSlices_snp (s : State) : (State.releaseSlices s).snp = s.snp := by
  have fr1 := @State.modMxe_frame
  unfold State.releaseSlices
  refine State.foldl_snp _ (fun s k => ?_) _ _
  (repeat' split) <;> simp [fr1]

@[simp] theorem State.releaseSlices_irq (s : State) : (State.releaseSlices s).irq = s.irq := by
  have fr1 := @State.modMxe_frame
  unfold State.releaseSlices
  refine State.foldl_irq _ (fun s k => ?_) _ _
  (repeat' split) <;> simp [fr1]

@[simp] theorem State.releaseSlices_ezl (s : State) : (State.releaseSlices s).ezl = s.ezl := by
  have fr1 := @State.modMxe_frame
  unfold State.releaseSlices
  refine State.foldl_ezl _ (fun s k => ?_) _ _
  (repeat' split) <;> simp [fr1]

@[simp] theorem State.releaseSlices_stp (s : State) : (State.releaseSlices s).stp = s.stp := by
  have fr1 := @State.modMxe_frame
  unfold State.releaseSlices
  refine State.foldl_stp _ (fun s k => ?_) _ _
  (repeat' split) <;> simp [fr1]

@[simp] theorem State.releaseSlices_fmt (s : State) : (State.releaseSlices s).fmt = s.fmt := by
  have fr1 := @State.modMxe_frame
  unfold State.releaseSlices
  refine State.foldl_fmt _ (fun s k => ?_) _ _
  (repeat' split) <;> simp [fr1]

@[simp] theorem State.releaseSlices_arr (s : State) : (State.releaseSlices s).arr = s.arr := by
  have fr1 := @State.modMxe_frame
  unfold State.releaseSlices
  refine State.foldl_arr _ (fun s k => ?_) _ _
  (repeat' split) <;> simp [fr1]

@[simp] theorem State.releaseSlices_vec (s : State) : (State.releaseSlices s).vec = s.vec := by
  have fr1 := @State.modMxe_frame
  unfold State.releaseSlices
  refine State.foldl_vec _ (fun s k => ?_) _ _
  (repeat' split) <;> simp [fr1]

@[simp] theorem State.releaseSlices_upd (s : State) : (State.releaseSlices s).upd = s.upd := by
  have fr1 := @State.modMxe_frame
  unfold State.releaseSlices
  refine State.foldl_upd _ (fun s k => ?_) _ _
  (repeat' split) <;> simp [fr1]

@[simp] theorem State.releaseSlices_red (s : State) : (State.releaseSlices s).red = s.red := by
  have fr1 := @State.modMxe_frame
  unfold State.releaseSlices
  refine State.foldl_red _ (fun s k => ?_) _ _
  (repeat' split) <;> simp [fr1]

@[simp] theorem State.releaseSlices_tsk (s : State) : (State.releaseSlices s).tsk = s.tsk := by
  have fr1 := @State.modMxe_frame
  unfold State.releaseSlices
  refine State.foldl_tsk _ (fun s k => ?_) _ _
  (repeat' split) <;> simp [fr1]

@[simp] theorem State.releaseSlices_mem (s : State) : (State.releaseSlices s).mem = s.mem := by
  have fr1 := @State.modMxe_frame
  unfold State.releaseSlices
  refine State.foldl_mem _ (fun s k => ?_) _ _
  (repeat' split) <;> simp [fr1]

@[simp] theorem State.releaseSlices_hif (s : State) : (State.releaseSlices s).hif = s.hif := by
  have fr1 := @State.modMxe_frame
  unfold State.releaseSlices
  refine State.foldl_hif _ (fun s k => ?_) _ _
  (repeat' split) <;> simp [fr1]

@[simp] theorem State.releaseSlices_img (s : State) : (State.releaseSlices s).img = s.img := by
  have fr1 := @State.modMxe_frame
  unfold State.releaseSlices
  refine State.foldl_img _ (fun s k => ?_) _ _
  (repeat' split) <;> simp [fr1]

@[simp] theorem State.releaseSlices_pwr (s : State) : (State.releaseSlices s).pwr = s.pwr := by
  have fr1 := @State.modMxe_frame
  unfold State.releaseSlices
  refine State.foldl_pwr _ (fun s k => ?_) _ _
  (repeat' split) <;> simp [fr1]

@[simp] theorem State.releaseSlices_pending (s : State) : (State.releaseSlices s).pending = s.pending := by
  have fr1 := @State.modMxe_frame
  unfold State.releaseSlices
  refine State.foldl_pending _ (fun s k => ?_) _ _
  (repeat' split) <;> simp [fr1]


theorem State.cancelTasks_frame (s : State) :
    (State.cancelTasks s).pairLo = s.pairLo ∧ (State.cancelTasks s).pairCap = s.pairCap ∧ (State.cancelTasks s).out = s.out ∧ (State.cancelTasks s).free = s.free ∧ (State.cancelTasks s).policy = s.policy ∧ (State.cancelTasks s).err = s.err ∧ (State.cancelTasks s).chk = s.chk ∧ (State.cancelTasks s).snp = s.snp ∧ (State.cancelTasks s).irq = s.irq ∧ (State.cancelTasks s).ezl = s.ezl ∧ (State.cancelTasks s).stp = s.stp ∧ (State.cancelTasks s).fmt = s.fmt ∧ (State.cancelTasks s).arr = s.arr ∧ (State.cancelTasks s).vec = s.vec ∧ (State.cancelTasks s).mxe = s.mxe ∧ (State.cancelTasks s).upd = s.upd ∧ (State.cancelTasks s).red = s.red ∧ (State.cancelTasks s).mem = s.mem ∧ (State.cancelTasks s).hif = s.hif ∧ (State.cancelTasks s).img = s.img ∧ (State.cancelTasks s).pwr = s.pwr ∧ (State.cancelTasks s).pending = s.pending := by
  have fr1 := @State.event_frame
  have fr2 := @State.modTsk_frame
  simp [State.cancelTasks, fr1, fr2]


theorem State.closeAttempt_frame (s : State) (dec : Decision) (step att reason voter : Nat) (hold : Bool) :
    (State.closeAttempt s dec step att reason voter hold).pairLo = s.pairLo ∧ (State.closeAttempt s dec step att reason voter hold).pairCap = s.pairCap ∧ (State.closeAttempt s dec step att reason voter hold).out = s.out ∧ (State.closeAttempt s dec step att reason voter hold).free = s.free ∧ (State.closeAttempt s dec step att reason voter hold).policy = s.policy ∧ (State.closeAttempt s dec step att reason voter hold).err = s.err ∧ (State.closeAttempt s dec step att reason voter hold).chk = s.chk ∧ (State.closeAttempt s dec step att reason voter hold).snp = s.snp ∧ (State.closeAttempt s dec step att reason voter hold).irq = s.irq ∧ (State.closeAttempt s dec step att reason voter hold).ezl = s.ezl ∧ (State.closeAttempt s dec step att reason voter hold).fmt = s.fmt ∧ (State.closeAttempt s dec step att reason voter hold).arr = s.arr ∧ (State.closeAttempt s dec step att reason voter hold).vec = s.vec ∧ (State.closeAttempt s dec step att reason voter hold).mxe = s.mxe ∧ (State.closeAttempt s dec step att reason voter hold).upd = s.upd ∧ (State.closeAttempt s dec step att reason voter hold).red = s.red ∧ (State.closeAttempt s dec step att reason voter hold).tsk = s.tsk ∧ (State.closeAttempt s dec step att reason voter hold).mem = s.mem ∧ (State.closeAttempt s dec step att reason voter hold).hif = s.hif ∧ (State.closeAttempt s dec step att reason voter hold).img = s.img ∧ (State.closeAttempt s dec step att reason voter hold).pwr = s.pwr ∧ (State.closeAttempt s dec step att reason voter hold).pending = s.pending := by
  have fr1 := @State.modStp_frame
  have fr2 := @State.setRegN_frame
  simp [State.closeAttempt, fr1, fr2]


theorem State.afterDecision_frame (s : State) (dec : Decision) (hold rest : Bool) :
    (State.afterDecision s dec hold rest).pairLo = s.pairLo ∧ (State.afterDecision s dec hold rest).pairCap = s.pairCap ∧ (State.afterDecision s dec hold rest).out = s.out ∧ (State.afterDecision s dec hold rest).free = s.free ∧ (State.afterDecision s dec hold rest).policy = s.policy ∧ (State.afterDecision s dec hold rest).chk = s.chk ∧ (State.afterDecision s dec hold rest).snp = s.snp ∧ (State.afterDecision s dec hold rest).irq = s.irq ∧ (State.afterDecision s dec hold rest).ezl = s.ezl ∧ (State.afterDecision s dec hold rest).fmt = s.fmt ∧ (State.afterDecision s dec hold rest).arr = s.arr ∧ (State.afterDecision s dec hold rest).vec = s.vec ∧ (State.afterDecision s dec hold rest).mxe = s.mxe ∧ (State.afterDecision s dec hold rest).upd = s.upd ∧ (State.afterDecision s dec hold rest).red = s.red ∧ (State.afterDecision s dec hold rest).tsk = s.tsk ∧ (State.afterDecision s dec hold rest).mem = s.mem ∧ (State.afterDecision s dec hold rest).hif = s.hif ∧ (State.afterDecision s dec hold rest).img = s.img ∧ (State.afterDecision s dec hold rest).pwr = s.pwr ∧ (State.afterDecision s dec hold rest).pending = s.pending := by
  have fr1 := @State.event_frame
  have fr2 := @State.eventLog_frame
  have fr3 := @State.modStp_frame
  simp [State.afterDecision, fr1, fr2, fr3]


theorem State.passDue_frame (s : State) (d step : Nat) :
    (State.passDue s d step).regs = s.regs ∧ (State.passDue s d step).pairLo = s.pairLo ∧ (State.passDue s d step).pairCap = s.pairCap ∧ (State.passDue s d step).out = s.out ∧ (State.passDue s d step).free = s.free ∧ (State.passDue s d step).policy = s.policy ∧ (State.passDue s d step).err = s.err ∧ (State.passDue s d step).chk = s.chk ∧ (State.passDue s d step).snp = s.snp ∧ (State.passDue s d step).irq = s.irq ∧ (State.passDue s d step).ezl = s.ezl ∧ (State.passDue s d step).stp = s.stp ∧ (State.passDue s d step).fmt = s.fmt ∧ (State.passDue s d step).arr = s.arr ∧ (State.passDue s d step).vec = s.vec ∧ (State.passDue s d step).mxe = s.mxe ∧ (State.passDue s d step).red = s.red ∧ (State.passDue s d step).tsk = s.tsk ∧ (State.passDue s d step).mem = s.mem ∧ (State.passDue s d step).hif = s.hif ∧ (State.passDue s d step).img = s.img ∧ (State.passDue s d step).pwr = s.pwr ∧ (State.passDue s d step).pending = s.pending := by
  have fr1 := @State.setUpd_frame
  simp [State.passDue, fr1]


theorem State.applyCommit_frame (s : State) (step : Nat) :
    (State.applyCommit s step).pairLo = s.pairLo ∧ (State.applyCommit s step).pairCap = s.pairCap ∧ (State.applyCommit s step).out = s.out ∧ (State.applyCommit s step).free = s.free ∧ (State.applyCommit s step).policy = s.policy ∧ (State.applyCommit s step).err = s.err ∧ (State.applyCommit s step).chk = s.chk ∧ (State.applyCommit s step).snp = s.snp ∧ (State.applyCommit s step).irq = s.irq ∧ (State.applyCommit s step).ezl = s.ezl ∧ (State.applyCommit s step).vec = s.vec ∧ (State.applyCommit s step).mxe = s.mxe ∧ (State.applyCommit s step).red = s.red ∧ (State.applyCommit s step).tsk = s.tsk ∧ (State.applyCommit s step).hif = s.hif ∧ (State.applyCommit s step).img = s.img ∧ (State.applyCommit s step).pwr = s.pwr ∧ (State.applyCommit s step).pending = s.pending := by
  have fr1 := @State.appendAll_frame
  have fr2 := @State.event_frame
  have fr3 := @State.modStp_frame
  have fr4 := @State.passDue_frame
  have fr5 := @State.resetUpdates_frame
  have fr6 := @State.setPair_frame
  have fr7 := @State.setRegN_frame
  have fr8 := @State.writeRecord_frame
  have fr9 := @State.setUpd_frame
  simp [State.applyCommit, fr1, fr2, fr3, fr4, fr5, fr6, fr7, fr8, fr9]


theorem State.applySkip_frame (s : State) :
    (State.applySkip s).pairLo = s.pairLo ∧ (State.applySkip s).pairCap = s.pairCap ∧ (State.applySkip s).out = s.out ∧ (State.applySkip s).chk = s.chk ∧ (State.applySkip s).snp = s.snp ∧ (State.applySkip s).irq = s.irq ∧ (State.applySkip s).ezl = s.ezl ∧ (State.applySkip s).vec = s.vec ∧ (State.applySkip s).mxe = s.mxe ∧ (State.applySkip s).red = s.red ∧ (State.applySkip s).img = s.img ∧ (State.applySkip s).pwr = s.pwr ∧ (State.applySkip s).pending = s.pending := by
  have fr1 := @State.appendAll_frame
  have fr2 := @State.event_frame
  have fr3 := @State.modStp_frame
  have fr4 := @State.resetUpdates_frame
  have fr5 := @State.spoilWriteCopy_frame
  have fr6 := @State.writeRecord_frame
  simp [State.applySkip, fr1, fr2, fr3, fr4, fr5, fr6]


theorem State.discardStash_frame (s : State) :
    (State.discardStash s).regs = s.regs ∧ (State.discardStash s).pairLo = s.pairLo ∧ (State.discardStash s).pairCap = s.pairCap ∧ (State.discardStash s).out = s.out ∧ (State.discardStash s).policy = s.policy ∧ (State.discardStash s).err = s.err ∧ (State.discardStash s).chk = s.chk ∧ (State.discardStash s).snp = s.snp ∧ (State.discardStash s).irq = s.irq ∧ (State.discardStash s).ezl = s.ezl ∧ (State.discardStash s).stp = s.stp ∧ (State.discardStash s).fmt = s.fmt ∧ (State.discardStash s).arr = s.arr ∧ (State.discardStash s).vec = s.vec ∧ (State.discardStash s).mxe = s.mxe ∧ (State.discardStash s).upd = s.upd ∧ (State.discardStash s).red = s.red ∧ (State.discardStash s).tsk = s.tsk ∧ (State.discardStash s).hif = s.hif ∧ (State.discardStash s).img = s.img ∧ (State.discardStash s).pwr = s.pwr ∧ (State.discardStash s).pending = s.pending := by
  have fr1 := @State.draw_frame
  have fr2 := @State.hbmWrite_frame
  simp [State.discardStash, fr1, fr2]


theorem State.dropRing_frame (s : State) :
    (State.dropRing s).regs = s.regs ∧ (State.dropRing s).pairLo = s.pairLo ∧ (State.dropRing s).pairCap = s.pairCap ∧ (State.dropRing s).out = s.out ∧ (State.dropRing s).free = s.free ∧ (State.dropRing s).policy = s.policy ∧ (State.dropRing s).err = s.err ∧ (State.dropRing s).chk = s.chk ∧ (State.dropRing s).snp = s.snp ∧ (State.dropRing s).irq = s.irq ∧ (State.dropRing s).stp = s.stp ∧ (State.dropRing s).fmt = s.fmt ∧ (State.dropRing s).arr = s.arr ∧ (State.dropRing s).vec = s.vec ∧ (State.dropRing s).mxe = s.mxe ∧ (State.dropRing s).upd = s.upd ∧ (State.dropRing s).red = s.red ∧ (State.dropRing s).tsk = s.tsk ∧ (State.dropRing s).mem = s.mem ∧ (State.dropRing s).hif = s.hif ∧ (State.dropRing s).img = s.img ∧ (State.dropRing s).pwr = s.pwr ∧ (State.dropRing s).pending = s.pending := by
  have fr1 := @State.setLnk_frame
  simp [State.dropRing, fr1]


theorem State.applyAbort_frame (s : State) (step att reason voter : Nat) :
    (State.applyAbort s step att reason voter).pairLo = s.pairLo ∧ (State.applyAbort s step att reason voter).pairCap = s.pairCap ∧ (State.applyAbort s step att reason voter).out = s.out ∧ (State.applyAbort s step att reason voter).chk = s.chk ∧ (State.applyAbort s step att reason voter).snp = s.snp ∧ (State.applyAbort s step att reason voter).irq = s.irq ∧ (State.applyAbort s step att reason voter).vec = s.vec ∧ (State.applyAbort s step att reason voter).red = s.red ∧ (State.applyAbort s step att reason voter).img = s.img ∧ (State.applyAbort s step att reason voter).pwr = s.pwr ∧ (State.applyAbort s step att reason voter).pending = s.pending := by
  have fr1 := @State.cancelTasks_frame
  have fr2 := @State.discardStash_frame
  have fr3 := @State.dropRing_frame
  have fr4 := @State.eventLog_frame
  have fr5 := @State.modFmt_frame
  have fr6 := @State.modStp_frame
  have fr7 := @State.resetUpdates_frame
  have fr8 := @State.setPair_frame
  have fr9 := @State.spoilWriteCopy_frame
  have fr10 := @State.trackerTake_frame
  have fr11 := @State.writeRecord_frame
  simp [State.applyAbort, fr1, fr2, fr3, fr4, fr5, fr6, fr7, fr8, fr9, fr10, fr11]


theorem State.applyDecision_frame (s : State) (dec : Decision) (step att reason voter : Nat) (hold : Bool) :
    (State.applyDecision s dec step att reason voter hold).pairLo = s.pairLo ∧ (State.applyDecision s dec step att reason voter hold).pairCap = s.pairCap ∧ (State.applyDecision s dec step att reason voter hold).out = s.out ∧ (State.applyDecision s dec step att reason voter hold).chk = s.chk ∧ (State.applyDecision s dec step att reason voter hold).snp = s.snp ∧ (State.applyDecision s dec step att reason voter hold).irq = s.irq ∧ (State.applyDecision s dec step att reason voter hold).vec = s.vec ∧ (State.applyDecision s dec step att reason voter hold).img = s.img ∧ (State.applyDecision s dec step att reason voter hold).pwr = s.pwr ∧ (State.applyDecision s dec step att reason voter hold).pending = s.pending := by
  have fr1 := @State.afterDecision_frame
  have fr2 := @State.applyAbort_frame
  have fr3 := @State.applyCommit_frame
  have fr4 := @State.applySkip_frame
  have fr5 := @State.closeAttempt_frame
  have fr6 := @State.modStp_frame
  have fr7 := @State.resetChannels_frame
  unfold State.applyDecision; (repeat' split) <;> simp [fr1, fr2, fr3, fr4, fr5, fr6, fr7]


theorem State.sendToken_frame (s : State) (t : Token) :
    (State.sendToken s t).pairLo = s.pairLo ∧ (State.sendToken s t).pairCap = s.pairCap ∧ (State.sendToken s t).free = s.free ∧ (State.sendToken s t).policy = s.policy ∧ (State.sendToken s t).err = s.err ∧ (State.sendToken s t).chk = s.chk ∧ (State.sendToken s t).snp = s.snp ∧ (State.sendToken s t).irq = s.irq ∧ (State.sendToken s t).stp = s.stp ∧ (State.sendToken s t).fmt = s.fmt ∧ (State.sendToken s t).arr = s.arr ∧ (State.sendToken s t).vec = s.vec ∧ (State.sendToken s t).mxe = s.mxe ∧ (State.sendToken s t).upd = s.upd ∧ (State.sendToken s t).red = s.red ∧ (State.sendToken s t).tsk = s.tsk ∧ (State.sendToken s t).mem = s.mem ∧ (State.sendToken s t).hif = s.hif ∧ (State.sendToken s t).img = s.img ∧ (State.sendToken s t).pwr = s.pwr ∧ (State.sendToken s t).pending = s.pending := by
  have fr1 := @State.sendPartner_frame
  have fr2 := @State.sendOn_frame
  unfold State.sendToken; dsimp only; (repeat' split) <;> simp [fr1, fr2]

end Sys2Proof.Machine
end

