-- ==== Sys2Proof/Laws/FrameSteps.lean ====
section
/-! SUPPORT. What the operations and meanings leave as it was: of each, every field of the state that it never changes, continued. -/

set_option linter.unusedSimpArgs false
set_option linter.unusedTactic false
set_option linter.unnecessarySeqFocus false
set_option linter.unreachableTactic false
set_option linter.unusedVariables false

namespace Sys2Proof.Machine

theorem State.sendFirst_frame (s : State) :
    (State.sendFirst s).pairLo = s.pairLo ∧ (State.sendFirst s).pairCap = s.pairCap ∧ (State.sendFirst s).free = s.free ∧ (State.sendFirst s).policy = s.policy ∧ (State.sendFirst s).err = s.err ∧ (State.sendFirst s).chk = s.chk ∧ (State.sendFirst s).snp = s.snp ∧ (State.sendFirst s).irq = s.irq ∧ (State.sendFirst s).fmt = s.fmt ∧ (State.sendFirst s).arr = s.arr ∧ (State.sendFirst s).vec = s.vec ∧ (State.sendFirst s).mxe = s.mxe ∧ (State.sendFirst s).upd = s.upd ∧ (State.sendFirst s).red = s.red ∧ (State.sendFirst s).tsk = s.tsk ∧ (State.sendFirst s).mem = s.mem ∧ (State.sendFirst s).hif = s.hif ∧ (State.sendFirst s).img = s.img ∧ (State.sendFirst s).pwr = s.pwr ∧ (State.sendFirst s).pending = s.pending := by
  have fr1 := @State.modStp_frame
  have fr2 := @State.sendToken_frame
  simp [State.sendFirst, fr1, fr2]


theorem State.openFor_frame (s : State) :
    (State.openFor s).regs = s.regs ∧ (State.openFor s).pairLo = s.pairLo ∧ (State.openFor s).pairCap = s.pairCap ∧ (State.openFor s).out = s.out ∧ (State.openFor s).free = s.free ∧ (State.openFor s).policy = s.policy ∧ (State.openFor s).err = s.err ∧ (State.openFor s).chk = s.chk ∧ (State.openFor s).snp = s.snp ∧ (State.openFor s).irq = s.irq ∧ (State.openFor s).ezl = s.ezl ∧ (State.openFor s).fmt = s.fmt ∧ (State.openFor s).arr = s.arr ∧ (State.openFor s).vec = s.vec ∧ (State.openFor s).mxe = s.mxe ∧ (State.openFor s).upd = s.upd ∧ (State.openFor s).red = s.red ∧ (State.openFor s).tsk = s.tsk ∧ (State.openFor s).mem = s.mem ∧ (State.openFor s).hif = s.hif ∧ (State.openFor s).img = s.img ∧ (State.openFor s).pwr = s.pwr ∧ (State.openFor s).pending = s.pending := by
  have fr1 := @State.modStp_frame
  simp [State.openFor, fr1]


theorem State.castAbort_frame (s : State) (code : Nat) :
    (State.castAbort s code).pairLo = s.pairLo ∧ (State.castAbort s code).pairCap = s.pairCap ∧ (State.castAbort s code).chk = s.chk ∧ (State.castAbort s code).snp = s.snp ∧ (State.castAbort s code).irq = s.irq ∧ (State.castAbort s code).vec = s.vec ∧ (State.castAbort s code).img = s.img ∧ (State.castAbort s code).pwr = s.pwr ∧ (State.castAbort s code).pending = s.pending := by
  have fr1 := @State.applyDecision_frame
  have fr2 := @State.dropRing_frame
  have fr3 := @State.modStp_frame
  have fr4 := @State.sendCtrl_frame
  have fr5 := @State.sendFirst_frame
  have fr6 := @State.sendToken_frame
  unfold State.castAbort; dsimp only; (repeat' split) <;> simp [fr1, fr2, fr3, fr4, fr5, fr6]


theorem State.findAbort_frame (s : State) (code detail seq sender : Nat) :
    (State.findAbort s code detail seq sender).pairLo = s.pairLo ∧ (State.findAbort s code detail seq sender).pairCap = s.pairCap ∧ (State.findAbort s code detail seq sender).chk = s.chk ∧ (State.findAbort s code detail seq sender).snp = s.snp ∧ (State.findAbort s code detail seq sender).irq = s.irq ∧ (State.findAbort s code detail seq sender).vec = s.vec ∧ (State.findAbort s code detail seq sender).img = s.img ∧ (State.findAbort s code detail seq sender).pwr = s.pwr ∧ (State.findAbort s code detail seq sender).pending = s.pending := by
  have fr1 := @State.castAbort_frame
  have fr2 := @State.eventLog_frame
  have fr3 := @State.incReg_frame
  have fr4 := @State.log_frame
  have fr5 := @State.openFor_frame
  have fr6 := @State.setReg_frame
  have fr7 := @State.setRegN_frame
  unfold State.findAbort; (repeat' split) <;> simp [fr1, fr2, fr3, fr4, fr5, fr6, fr7]


theorem State.copyArea_frame (s : State) (x y d p : Nat) :
    (State.copyArea s x y d p).regs = s.regs ∧ (State.copyArea s x y d p).pairLo = s.pairLo ∧ (State.copyArea s x y d p).pairCap = s.pairCap ∧ (State.copyArea s x y d p).out = s.out ∧ (State.copyArea s x y d p).free = s.free ∧ (State.copyArea s x y d p).policy = s.policy ∧ (State.copyArea s x y d p).err = s.err ∧ (State.copyArea s x y d p).chk = s.chk ∧ (State.copyArea s x y d p).snp = s.snp ∧ (State.copyArea s x y d p).irq = s.irq ∧ (State.copyArea s x y d p).ezl = s.ezl ∧ (State.copyArea s x y d p).stp = s.stp ∧ (State.copyArea s x y d p).fmt = s.fmt ∧ (State.copyArea s x y d p).arr = s.arr ∧ (State.copyArea s x y d p).vec = s.vec ∧ (State.copyArea s x y d p).mxe = s.mxe ∧ (State.copyArea s x y d p).upd = s.upd ∧ (State.copyArea s x y d p).red = s.red ∧ (State.copyArea s x y d p).tsk = s.tsk ∧ (State.copyArea s x y d p).hif = s.hif ∧ (State.copyArea s x y d p).img = s.img ∧ (State.copyArea s x y d p).pwr = s.pwr ∧ (State.copyArea s x y d p).pending = s.pending := by
  have fr1 := @State.hbmWrite_frame
  unfold State.copyArea; (repeat' split) <;> simp [fr1]


theorem State.shadowFrom_frame (s : State) (d p : Nat) (a : PhysSt) :
    (State.shadowFrom s d p a).regs = s.regs ∧ (State.shadowFrom s d p a).pairLo = s.pairLo ∧ (State.shadowFrom s d p a).pairCap = s.pairCap ∧ (State.shadowFrom s d p a).out = s.out ∧ (State.shadowFrom s d p a).free = s.free ∧ (State.shadowFrom s d p a).policy = s.policy ∧ (State.shadowFrom s d p a).err = s.err ∧ (State.shadowFrom s d p a).chk = s.chk ∧ (State.shadowFrom s d p a).snp = s.snp ∧ (State.shadowFrom s d p a).irq = s.irq ∧ (State.shadowFrom s d p a).ezl = s.ezl ∧ (State.shadowFrom s d p a).stp = s.stp ∧ (State.shadowFrom s d p a).fmt = s.fmt ∧ (State.shadowFrom s d p a).arr = s.arr ∧ (State.shadowFrom s d p a).vec = s.vec ∧ (State.shadowFrom s d p a).mxe = s.mxe ∧ (State.shadowFrom s d p a).upd = s.upd ∧ (State.shadowFrom s d p a).red = s.red ∧ (State.shadowFrom s d p a).tsk = s.tsk ∧ (State.shadowFrom s d p a).hif = s.hif ∧ (State.shadowFrom s d p a).img = s.img ∧ (State.shadowFrom s d p a).pwr = s.pwr ∧ (State.shadowFrom s d p a).pending = s.pending := by
  have fr1 := @State.hbmWrite_frame
  unfold State.shadowFrom; (repeat' split) <;> simp [fr1]


theorem State.publish_frame (s : State) (d : Nat) :
    (State.publish s d).pairLo = s.pairLo ∧ (State.publish s d).pairCap = s.pairCap ∧ (State.publish s d).out = s.out ∧ (State.publish s d).free = s.free ∧ (State.publish s d).policy = s.policy ∧ (State.publish s d).err = s.err ∧ (State.publish s d).chk = s.chk ∧ (State.publish s d).snp = s.snp ∧ (State.publish s d).irq = s.irq ∧ (State.publish s d).ezl = s.ezl ∧ (State.publish s d).stp = s.stp ∧ (State.publish s d).fmt = s.fmt ∧ (State.publish s d).vec = s.vec ∧ (State.publish s d).mxe = s.mxe ∧ (State.publish s d).upd = s.upd ∧ (State.publish s d).red = s.red ∧ (State.publish s d).tsk = s.tsk ∧ (State.publish s d).mem = s.mem ∧ (State.publish s d).hif = s.hif ∧ (State.publish s d).img = s.img ∧ (State.publish s d).pwr = s.pwr ∧ (State.publish s d).pending = s.pending := by
  have fr1 := @State.event_frame
  have fr2 := @State.setKao_frame
  simp [State.publish, fr1, fr2]


theorem State.queueJob_frame (s : State) (d p cls0 : Nat) :
    (State.queueJob s d p cls0).pairLo = s.pairLo ∧ (State.queueJob s d p cls0).pairCap = s.pairCap ∧ (State.queueJob s d p cls0).out = s.out ∧ (State.queueJob s d p cls0).free = s.free ∧ (State.queueJob s d p cls0).policy = s.policy ∧ (State.queueJob s d p cls0).err = s.err ∧ (State.queueJob s d p cls0).chk = s.chk ∧ (State.queueJob s d p cls0).snp = s.snp ∧ (State.queueJob s d p cls0).irq = s.irq ∧ (State.queueJob s d p cls0).ezl = s.ezl ∧ (State.queueJob s d p cls0).stp = s.stp ∧ (State.queueJob s d p cls0).fmt = s.fmt ∧ (State.queueJob s d p cls0).vec = s.vec ∧ (State.queueJob s d p cls0).mxe = s.mxe ∧ (State.queueJob s d p cls0).upd = s.upd ∧ (State.queueJob s d p cls0).red = s.red ∧ (State.queueJob s d p cls0).tsk = s.tsk ∧ (State.queueJob s d p cls0).mem = s.mem ∧ (State.queueJob s d p cls0).hif = s.hif ∧ (State.queueJob s d p cls0).img = s.img ∧ (State.queueJob s d p cls0).pwr = s.pwr ∧ (State.queueJob s d p cls0).pending = s.pending := by
  have fr1 := @State.event_frame
  have fr2 := @State.modArr_frame
  have fr3 := @State.setKao_frame
  have fr4 := @State.setPos_frame
  unfold State.queueJob; dsimp only; (repeat' split) <;> simp [fr1, fr2, fr3, fr4]


theorem State.retireArray_frame (s : State) (d tile slot : Nat) :
    (State.retireArray s d tile slot).regs = s.regs ∧ (State.retireArray s d tile slot).pairLo = s.pairLo ∧ (State.retireArray s d tile slot).pairCap = s.pairCap ∧ (State.retireArray s d tile slot).out = s.out ∧ (State.retireArray s d tile slot).free = s.free ∧ (State.retireArray s d tile slot).policy = s.policy ∧ (State.retireArray s d tile slot).err = s.err ∧ (State.retireArray s d tile slot).chk = s.chk ∧ (State.retireArray s d tile slot).snp = s.snp ∧ (State.retireArray s d tile slot).irq = s.irq ∧ (State.retireArray s d tile slot).ezl = s.ezl ∧ (State.retireArray s d tile slot).stp = s.stp ∧ (State.retireArray s d tile slot).fmt = s.fmt ∧ (State.retireArray s d tile slot).vec = s.vec ∧ (State.retireArray s d tile slot).mxe = s.mxe ∧ (State.retireArray s d tile slot).upd = s.upd ∧ (State.retireArray s d tile slot).red = s.red ∧ (State.retireArray s d tile slot).tsk = s.tsk ∧ (State.retireArray s d tile slot).mem = s.mem ∧ (State.retireArray s d tile slot).hif = s.hif ∧ (State.retireArray s d tile slot).img = s.img ∧ (State.retireArray s d tile slot).pwr = s.pwr ∧ (State.retireArray s d tile slot).pending = s.pending := by
  have fr1 := @State.setPhys_frame
  have fr2 := @State.setTile_frame
  simp [State.retireArray, fr1, fr2]


theorem State.enterNone_frame (s : State) (d t : Nat) :
    (State.enterNone s d t).pairLo = s.pairLo ∧ (State.enterNone s d t).pairCap = s.pairCap ∧ (State.enterNone s d t).out = s.out ∧ (State.enterNone s d t).free = s.free ∧ (State.enterNone s d t).policy = s.policy ∧ (State.enterNone s d t).err = s.err ∧ (State.enterNone s d t).chk = s.chk ∧ (State.enterNone s d t).snp = s.snp ∧ (State.enterNone s d t).irq = s.irq ∧ (State.enterNone s d t).ezl = s.ezl ∧ (State.enterNone s d t).stp = s.stp ∧ (State.enterNone s d t).fmt = s.fmt ∧ (State.enterNone s d t).vec = s.vec ∧ (State.enterNone s d t).mxe = s.mxe ∧ (State.enterNone s d t).upd = s.upd ∧ (State.enterNone s d t).red = s.red ∧ (State.enterNone s d t).tsk = s.tsk ∧ (State.enterNone s d t).mem = s.mem ∧ (State.enterNone s d t).hif = s.hif ∧ (State.enterNone s d t).img = s.img ∧ (State.enterNone s d t).pwr = s.pwr ∧ (State.enterNone s d t).pending = s.pending := by
  have fr1 := @State.event_frame
  have fr2 := @State.setTile_frame
  simp [State.enterNone, fr1, fr2]


theorem State.releasePos_frame (s : State) (k : Nat) :
    (State.releasePos s k).pairLo = s.pairLo ∧ (State.releasePos s k).pairCap = s.pairCap ∧ (State.releasePos s k).out = s.out ∧ (State.releasePos s k).free = s.free ∧ (State.releasePos s k).policy = s.policy ∧ (State.releasePos s k).chk = s.chk ∧ (State.releasePos s k).snp = s.snp ∧ (State.releasePos s k).irq = s.irq ∧ (State.releasePos s k).ezl = s.ezl ∧ (State.releasePos s k).stp = s.stp ∧ (State.releasePos s k).fmt = s.fmt ∧ (State.releasePos s k).vec = s.vec ∧ (State.releasePos s k).mxe = s.mxe ∧ (State.releasePos s k).upd = s.upd ∧ (State.releasePos s k).red = s.red ∧ (State.releasePos s k).tsk = s.tsk ∧ (State.releasePos s k).mem = s.mem ∧ (State.releasePos s k).hif = s.hif ∧ (State.releasePos s k).img = s.img ∧ (State.releasePos s k).pwr = s.pwr ∧ (State.releasePos s k).pending = s.pending := by
  have fr1 := @State.enterNone_frame
  have fr2 := @State.event_frame
  have fr3 := @State.log_frame
  have fr4 := @State.queueJob_frame
  have fr5 := @State.retireArray_frame
  have fr6 := @State.setPos_frame
  have fr7 := @State.setTile_frame
  unfold State.releasePos; dsimp only; (repeat' split) <;> simp [fr1, fr2, fr3, fr4, fr5, fr6, fr7]


theorem State.releaseRanges_frame (s : State) :
    (State.releaseRanges s).regs = s.regs ∧ (State.releaseRanges s).pairLo = s.pairLo ∧ (State.releaseRanges s).pairCap = s.pairCap ∧ (State.releaseRanges s).out = s.out ∧ (State.releaseRanges s).free = s.free ∧ (State.releaseRanges s).policy = s.policy ∧ (State.releaseRanges s).err = s.err ∧ (State.releaseRanges s).chk = s.chk ∧ (State.releaseRanges s).snp = s.snp ∧ (State.releaseRanges s).irq = s.irq ∧ (State.releaseRanges s).ezl = s.ezl ∧ (State.releaseRanges s).stp = s.stp ∧ (State.releaseRanges s).fmt = s.fmt ∧ (State.releaseRanges s).vec = s.vec ∧ (State.releaseRanges s).mxe = s.mxe ∧ (State.releaseRanges s).upd = s.upd ∧ (State.releaseRanges s).red = s.red ∧ (State.releaseRanges s).tsk = s.tsk ∧ (State.releaseRanges s).mem = s.mem ∧ (State.releaseRanges s).hif = s.hif ∧ (State.releaseRanges s).img = s.img ∧ (State.releaseRanges s).pwr = s.pwr ∧ (State.releaseRanges s).pending = s.pending := by
  have fr1 := @State.modArr_frame
  simp [State.releaseRanges, fr1]


@[simp] theorem State.releaseOld_pairLo (s : State) : (State.releaseOld s).pairLo = s.pairLo := by
  have fr1 := @State.modArr_frame
  have fr2 := @State.releasePos_frame
  have fr3 := @State.releaseRanges_frame
  have fr4 := @State.setKao_frame
  have e : ∀ (t : State) f, (t.modArr f).pairLo = t.pairLo := fun _ _ => rfl
  have e2 : ∀ (t : State), t.releaseRanges.pairLo = t.pairLo := by intro t; simp [fr1, fr2, fr3, fr4]
  unfold State.releaseOld; dsimp only
  rw [e, e2, State.foldl_pairLo, State.foldl_pairLo]
  all_goals (intro s x; (repeat' split) <;> simp [fr1, fr2, fr3, fr4])

@[simp] theorem State.releaseOld_pairCap (s : State) : (State.releaseOld s).pairCap = s.pairCap := by
  have fr1 := @State.modArr_frame
  have fr2 := @State.releasePos_frame
  have fr3 := @State.releaseRanges_frame
  have fr4 := @State.setKao_frame
  have e : ∀ (t : State) f, (t.modArr f).pairCap = t.pairCap := fun _ _ => rfl
  have e2 : ∀ (t : State), t.releaseRanges.pairCap = t.pairCap := by intro t; simp [fr1, fr2, fr3, fr4]
  unfold State.releaseOld; dsimp only
  rw [e, e2, State.foldl_pairCap, State.foldl_pairCap]
  all_goals (intro s x; (repeat' split) <;> simp [fr1, fr2, fr3, fr4])

@[simp] theorem State.releaseOld_out (s : State) : (State.releaseOld s).out = s.out := by
  have fr1 := @State.modArr_frame
  have fr2 := @State.releasePos_frame
  have fr3 := @State.releaseRanges_frame
  have fr4 := @State.setKao_frame
  have e : ∀ (t : State) f, (t.modArr f).out = t.out := fun _ _ => rfl
  have e2 : ∀ (t : State), t.releaseRanges.out = t.out := by intro t; simp [fr1, fr2, fr3, fr4]
  unfold State.releaseOld; dsimp only
  rw [e, e2, State.foldl_out, State.foldl_out]
  all_goals (intro s x; (repeat' split) <;> simp [fr1, fr2, fr3, fr4])

@[simp] theorem State.releaseOld_free (s : State) : (State.releaseOld s).free = s.free := by
  have fr1 := @State.modArr_frame
  have fr2 := @State.releasePos_frame
  have fr3 := @State.releaseRanges_frame
  have fr4 := @State.setKao_frame
  have e : ∀ (t : State) f, (t.modArr f).free = t.free := fun _ _ => rfl
  have e2 : ∀ (t : State), t.releaseRanges.free = t.free := by intro t; simp [fr1, fr2, fr3, fr4]
  unfold State.releaseOld; dsimp only
  rw [e, e2, State.foldl_free, State.foldl_free]
  all_goals (intro s x; (repeat' split) <;> simp [fr1, fr2, fr3, fr4])

@[simp] theorem State.releaseOld_policy (s : State) : (State.releaseOld s).policy = s.policy := by
  have fr1 := @State.modArr_frame
  have fr2 := @State.releasePos_frame
  have fr3 := @State.releaseRanges_frame
  have fr4 := @State.setKao_frame
  have e : ∀ (t : State) f, (t.modArr f).policy = t.policy := fun _ _ => rfl
  have e2 : ∀ (t : State), t.releaseRanges.policy = t.policy := by intro t; simp [fr1, fr2, fr3, fr4]
  unfold State.releaseOld; dsimp only
  rw [e, e2, State.foldl_policy, State.foldl_policy]
  all_goals (intro s x; (repeat' split) <;> simp [fr1, fr2, fr3, fr4])

@[simp] theorem State.releaseOld_chk (s : State) : (State.releaseOld s).chk = s.chk := by
  have fr1 := @State.modArr_frame
  have fr2 := @State.releasePos_frame
  have fr3 := @State.releaseRanges_frame
  have fr4 := @State.setKao_frame
  have e : ∀ (t : State) f, (t.modArr f).chk = t.chk := fun _ _ => rfl
  have e2 : ∀ (t : State), t.releaseRanges.chk = t.chk := by intro t; simp [fr1, fr2, fr3, fr4]
  unfold State.releaseOld; dsimp only
  rw [e, e2, State.foldl_chk, State.foldl_chk]
  all_goals (intro s x; (repeat' split) <;> simp [fr1, fr2, fr3, fr4])

@[simp] theorem State.releaseOld_snp (s : State) : (State.releaseOld s).snp = s.snp := by
  have fr1 := @State.modArr_frame
  have fr2 := @State.releasePos_frame
  have fr3 := @State.releaseRanges_frame
  have fr4 := @State.setKao_frame
  have e : ∀ (t : State) f, (t.modArr f).snp = t.snp := fun _ _ => rfl
  have e2 : ∀ (t : State), t.releaseRanges.snp = t.snp := by intro t; simp [fr1, fr2, fr3, fr4]
  unfold State.releaseOld; dsimp only
  rw [e, e2, State.foldl_snp, State.foldl_snp]
  all_goals (intro s x; (repeat' split) <;> simp [fr1, fr2, fr3, fr4])

@[simp] theorem State.releaseOld_irq (s : State) : (State.releaseOld s).irq = s.irq := by
  have fr1 := @State.modArr_frame
  have fr2 := @State.releasePos_frame
  have fr3 := @State.releaseRanges_frame
  have fr4 := @State.setKao_frame
  have e : ∀ (t : State) f, (t.modArr f).irq = t.irq := fun _ _ => rfl
  have e2 : ∀ (t : State), t.releaseRanges.irq = t.irq := by intro t; simp [fr1, fr2, fr3, fr4]
  unfold State.releaseOld; dsimp only
  rw [e, e2, State.foldl_irq, State.foldl_irq]
  all_goals (intro s x; (repeat' split) <;> simp [fr1, fr2, fr3, fr4])

@[simp] theorem State.releaseOld_ezl (s : State) : (State.releaseOld s).ezl = s.ezl := by
  have fr1 := @State.modArr_frame
  have fr2 := @State.releasePos_frame
  have fr3 := @State.releaseRanges_frame
  have fr4 := @State.setKao_frame
  have e : ∀ (t : State) f, (t.modArr f).ezl = t.ezl := fun _ _ => rfl
  have e2 : ∀ (t : State), t.releaseRanges.ezl = t.ezl := by intro t; simp [fr1, fr2, fr3, fr4]
  unfold State.releaseOld; dsimp only
  rw [e, e2, State.foldl_ezl, State.foldl_ezl]
  all_goals (intro s x; (repeat' split) <;> simp [fr1, fr2, fr3, fr4])

@[simp] theorem State.releaseOld_stp (s : State) : (State.releaseOld s).stp = s.stp := by
  have fr1 := @State.modArr_frame
  have fr2 := @State.releasePos_frame
  have fr3 := @State.releaseRanges_frame
  have fr4 := @State.setKao_frame
  have e : ∀ (t : State) f, (t.modArr f).stp = t.stp := fun _ _ => rfl
  have e2 : ∀ (t : State), t.releaseRanges.stp = t.stp := by intro t; simp [fr1, fr2, fr3, fr4]
  unfold State.releaseOld; dsimp only
  rw [e, e2, State.foldl_stp, State.foldl_stp]
  all_goals (intro s x; (repeat' split) <;> simp [fr1, fr2, fr3, fr4])

@[simp] theorem State.releaseOld_fmt (s : State) : (State.releaseOld s).fmt = s.fmt := by
  have fr1 := @State.modArr_frame
  have fr2 := @State.releasePos_frame
  have fr3 := @State.releaseRanges_frame
  have fr4 := @State.setKao_frame
  have e : ∀ (t : State) f, (t.modArr f).fmt = t.fmt := fun _ _ => rfl
  have e2 : ∀ (t : State), t.releaseRanges.fmt = t.fmt := by intro t; simp [fr1, fr2, fr3, fr4]
  unfold State.releaseOld; dsimp only
  rw [e, e2, State.foldl_fmt, State.foldl_fmt]
  all_goals (intro s x; (repeat' split) <;> simp [fr1, fr2, fr3, fr4])

@[simp] theorem State.releaseOld_vec (s : State) : (State.releaseOld s).vec = s.vec := by
  have fr1 := @State.modArr_frame
  have fr2 := @State.releasePos_frame
  have fr3 := @State.releaseRanges_frame
  have fr4 := @State.setKao_frame
  have e : ∀ (t : State) f, (t.modArr f).vec = t.vec := fun _ _ => rfl
  have e2 : ∀ (t : State), t.releaseRanges.vec = t.vec := by intro t; simp [fr1, fr2, fr3, fr4]
  unfold State.releaseOld; dsimp only
  rw [e, e2, State.foldl_vec, State.foldl_vec]
  all_goals (intro s x; (repeat' split) <;> simp [fr1, fr2, fr3, fr4])

@[simp] theorem State.releaseOld_mxe (s : State) : (State.releaseOld s).mxe = s.mxe := by
  have fr1 := @State.modArr_frame
  have fr2 := @State.releasePos_frame
  have fr3 := @State.releaseRanges_frame
  have fr4 := @State.setKao_frame
  have e : ∀ (t : State) f, (t.modArr f).mxe = t.mxe := fun _ _ => rfl
  have e2 : ∀ (t : State), t.releaseRanges.mxe = t.mxe := by intro t; simp [fr1, fr2, fr3, fr4]
  unfold State.releaseOld; dsimp only
  rw [e, e2, State.foldl_mxe, State.foldl_mxe]
  all_goals (intro s x; (repeat' split) <;> simp [fr1, fr2, fr3, fr4])

@[simp] theorem State.releaseOld_upd (s : State) : (State.releaseOld s).upd = s.upd := by
  have fr1 := @State.modArr_frame
  have fr2 := @State.releasePos_frame
  have fr3 := @State.releaseRanges_frame
  have fr4 := @State.setKao_frame
  have e : ∀ (t : State) f, (t.modArr f).upd = t.upd := fun _ _ => rfl
  have e2 : ∀ (t : State), t.releaseRanges.upd = t.upd := by intro t; simp [fr1, fr2, fr3, fr4]
  unfold State.releaseOld; dsimp only
  rw [e, e2, State.foldl_upd, State.foldl_upd]
  all_goals (intro s x; (repeat' split) <;> simp [fr1, fr2, fr3, fr4])

@[simp] theorem State.releaseOld_red (s : State) : (State.releaseOld s).red = s.red := by
  have fr1 := @State.modArr_frame
  have fr2 := @State.releasePos_frame
  have fr3 := @State.releaseRanges_frame
  have fr4 := @State.setKao_frame
  have e : ∀ (t : State) f, (t.modArr f).red = t.red := fun _ _ => rfl
  have e2 : ∀ (t : State), t.releaseRanges.red = t.red := by intro t; simp [fr1, fr2, fr3, fr4]
  unfold State.releaseOld; dsimp only
  rw [e, e2, State.foldl_red, State.foldl_red]
  all_goals (intro s x; (repeat' split) <;> simp [fr1, fr2, fr3, fr4])

@[simp] theorem State.releaseOld_tsk (s : State) : (State.releaseOld s).tsk = s.tsk := by
  have fr1 := @State.modArr_frame
  have fr2 := @State.releasePos_frame
  have fr3 := @State.releaseRanges_frame
  have fr4 := @State.setKao_frame
  have e : ∀ (t : State) f, (t.modArr f).tsk = t.tsk := fun _ _ => rfl
  have e2 : ∀ (t : State), t.releaseRanges.tsk = t.tsk := by intro t; simp [fr1, fr2, fr3, fr4]
  unfold State.releaseOld; dsimp only
  rw [e, e2, State.foldl_tsk, State.foldl_tsk]
  all_goals (intro s x; (repeat' split) <;> simp [fr1, fr2, fr3, fr4])

@[simp] theorem State.releaseOld_mem (s : State) : (State.releaseOld s).mem = s.mem := by
  have fr1 := @State.modArr_frame
  have fr2 := @State.releasePos_frame
  have fr3 := @State.releaseRanges_frame
  have fr4 := @State.setKao_frame
  have e : ∀ (t : State) f, (t.modArr f).mem = t.mem := fun _ _ => rfl
  have e2 : ∀ (t : State), t.releaseRanges.mem = t.mem := by intro t; simp [fr1, fr2, fr3, fr4]
  unfold State.releaseOld; dsimp only
  rw [e, e2, State.foldl_mem, State.foldl_mem]
  all_goals (intro s x; (repeat' split) <;> simp [fr1, fr2, fr3, fr4])

@[simp] theorem State.releaseOld_hif (s : State) : (State.releaseOld s).hif = s.hif := by
  have fr1 := @State.modArr_frame
  have fr2 := @State.releasePos_frame
  have fr3 := @State.releaseRanges_frame
  have fr4 := @State.setKao_frame
  have e : ∀ (t : State) f, (t.modArr f).hif = t.hif := fun _ _ => rfl
  have e2 : ∀ (t : State), t.releaseRanges.hif = t.hif := by intro t; simp [fr1, fr2, fr3, fr4]
  unfold State.releaseOld; dsimp only
  rw [e, e2, State.foldl_hif, State.foldl_hif]
  all_goals (intro s x; (repeat' split) <;> simp [fr1, fr2, fr3, fr4])

@[simp] theorem State.releaseOld_img (s : State) : (State.releaseOld s).img = s.img := by
  have fr1 := @State.modArr_frame
  have fr2 := @State.releasePos_frame
  have fr3 := @State.releaseRanges_frame
  have fr4 := @State.setKao_frame
  have e : ∀ (t : State) f, (t.modArr f).img = t.img := fun _ _ => rfl
  have e2 : ∀ (t : State), t.releaseRanges.img = t.img := by intro t; simp [fr1, fr2, fr3, fr4]
  unfold State.releaseOld; dsimp only
  rw [e, e2, State.foldl_img, State.foldl_img]
  all_goals (intro s x; (repeat' split) <;> simp [fr1, fr2, fr3, fr4])

@[simp] theorem State.releaseOld_pwr (s : State) : (State.releaseOld s).pwr = s.pwr := by
  have fr1 := @State.modArr_frame
  have fr2 := @State.releasePos_frame
  have fr3 := @State.releaseRanges_frame
  have fr4 := @State.setKao_frame
  have e : ∀ (t : State) f, (t.modArr f).pwr = t.pwr := fun _ _ => rfl
  have e2 : ∀ (t : State), t.releaseRanges.pwr = t.pwr := by intro t; simp [fr1, fr2, fr3, fr4]
  unfold State.releaseOld; dsimp only
  rw [e, e2, State.foldl_pwr, State.foldl_pwr]
  all_goals (intro s x; (repeat' split) <;> simp [fr1, fr2, fr3, fr4])

@[simp] theorem State.releaseOld_pending (s : State) : (State.releaseOld s).pending = s.pending := by
  have fr1 := @State.modArr_frame
  have fr2 := @State.releasePos_frame
  have fr3 := @State.releaseRanges_frame
  have fr4 := @State.setKao_frame
  have e : ∀ (t : State) f, (t.modArr f).pending = t.pending := fun _ _ => rfl
  have e2 : ∀ (t : State), t.releaseRanges.pending = t.pending := by intro t; simp [fr1, fr2, fr3, fr4]
  unfold State.releaseOld; dsimp only
  rw [e, e2, State.foldl_pending, State.foldl_pending]
  all_goals (intro s x; (repeat' split) <;> simp [fr1, fr2, fr3, fr4])


theorem State.swapTile_frame (s : State) (d t p v : Nat) :
    (State.swapTile s d t p v).pairLo = s.pairLo ∧ (State.swapTile s d t p v).pairCap = s.pairCap ∧ (State.swapTile s d t p v).out = s.out ∧ (State.swapTile s d t p v).free = s.free ∧ (State.swapTile s d t p v).policy = s.policy ∧ (State.swapTile s d t p v).err = s.err ∧ (State.swapTile s d t p v).chk = s.chk ∧ (State.swapTile s d t p v).snp = s.snp ∧ (State.swapTile s d t p v).irq = s.irq ∧ (State.swapTile s d t p v).ezl = s.ezl ∧ (State.swapTile s d t p v).stp = s.stp ∧ (State.swapTile s d t p v).fmt = s.fmt ∧ (State.swapTile s d t p v).vec = s.vec ∧ (State.swapTile s d t p v).mxe = s.mxe ∧ (State.swapTile s d t p v).upd = s.upd ∧ (State.swapTile s d t p v).red = s.red ∧ (State.swapTile s d t p v).tsk = s.tsk ∧ (State.swapTile s d t p v).hif = s.hif ∧ (State.swapTile s d t p v).img = s.img ∧ (State.swapTile s d t p v).pwr = s.pwr ∧ (State.swapTile s d t p v).pending = s.pending := by
  have fr1 := @State.event_frame
  have fr2 := @State.keepOld_frame
  have fr3 := @State.setPhys_frame
  have fr4 := @State.setPos_frame
  have fr5 := @State.setTile_frame
  have fr6 := @State.shadowFrom_frame
  unfold State.swapTile; dsimp only; (repeat' split) <;> simp [fr1, fr2, fr3, fr4, fr5, fr6]


theorem State.swapAll_frame (s : State) (v : Nat) (out : List Nat) :
    (State.swapAll s v out).pairLo = s.pairLo ∧ (State.swapAll s v out).pairCap = s.pairCap ∧ (State.swapAll s v out).out = s.out ∧ (State.swapAll s v out).free = s.free ∧ (State.swapAll s v out).policy = s.policy ∧ (State.swapAll s v out).err = s.err ∧ (State.swapAll s v out).chk = s.chk ∧ (State.swapAll s v out).snp = s.snp ∧ (State.swapAll s v out).irq = s.irq ∧ (State.swapAll s v out).ezl = s.ezl ∧ (State.swapAll s v out).stp = s.stp ∧ (State.swapAll s v out).fmt = s.fmt ∧ (State.swapAll s v out).vec = s.vec ∧ (State.swapAll s v out).mxe = s.mxe ∧ (State.swapAll s v out).upd = s.upd ∧ (State.swapAll s v out).red = s.red ∧ (State.swapAll s v out).tsk = s.tsk ∧ (State.swapAll s v out).hif = s.hif ∧ (State.swapAll s v out).img = s.img ∧ (State.swapAll s v out).pwr = s.pwr ∧ (State.swapAll s v out).pending = s.pending := by
  have fr1 := @State.setTile_frame
  have fr2 := @State.swapTile_frame
  simp [State.swapAll, fr1, fr2]


theorem State.takeTargets_frame (s : State) (v d p : Nat) :
    (State.takeTargets s v d p).regs = s.regs ∧ (State.takeTargets s v d p).pairLo = s.pairLo ∧ (State.takeTargets s v d p).pairCap = s.pairCap ∧ (State.takeTargets s v d p).out = s.out ∧ (State.takeTargets s v d p).free = s.free ∧ (State.takeTargets s v d p).policy = s.policy ∧ (State.takeTargets s v d p).err = s.err ∧ (State.takeTargets s v d p).chk = s.chk ∧ (State.takeTargets s v d p).snp = s.snp ∧ (State.takeTargets s v d p).irq = s.irq ∧ (State.takeTargets s v d p).ezl = s.ezl ∧ (State.takeTargets s v d p).stp = s.stp ∧ (State.takeTargets s v d p).fmt = s.fmt ∧ (State.takeTargets s v d p).vec = s.vec ∧ (State.takeTargets s v d p).mxe = s.mxe ∧ (State.takeTargets s v d p).upd = s.upd ∧ (State.takeTargets s v d p).red = s.red ∧ (State.takeTargets s v d p).tsk = s.tsk ∧ (State.takeTargets s v d p).hif = s.hif ∧ (State.takeTargets s v d p).img = s.img ∧ (State.takeTargets s v d p).pwr = s.pwr ∧ (State.takeTargets s v d p).pending = s.pending := by
  have fr1 := @State.copyArea_frame
  have fr2 := @State.keepOld_frame
  have fr3 := @State.setPos_frame
  unfold State.takeTargets; (repeat' split) <;> simp [fr1, fr2, fr3]


theorem State.fbEnter_frame (s : State) (v layer cause : Nat) :
    (State.fbEnter s v layer cause).pairLo = s.pairLo ∧ (State.fbEnter s v layer cause).pairCap = s.pairCap ∧ (State.fbEnter s v layer cause).out = s.out ∧ (State.fbEnter s v layer cause).free = s.free ∧ (State.fbEnter s v layer cause).policy = s.policy ∧ (State.fbEnter s v layer cause).err = s.err ∧ (State.fbEnter s v layer cause).chk = s.chk ∧ (State.fbEnter s v layer cause).snp = s.snp ∧ (State.fbEnter s v layer cause).irq = s.irq ∧ (State.fbEnter s v layer cause).ezl = s.ezl ∧ (State.fbEnter s v layer cause).stp = s.stp ∧ (State.fbEnter s v layer cause).fmt = s.fmt ∧ (State.fbEnter s v layer cause).vec = s.vec ∧ (State.fbEnter s v layer cause).mxe = s.mxe ∧ (State.fbEnter s v layer cause).upd = s.upd ∧ (State.fbEnter s v layer cause).red = s.red ∧ (State.fbEnter s v layer cause).tsk = s.tsk ∧ (State.fbEnter s v layer cause).hif = s.hif ∧ (State.fbEnter s v layer cause).img = s.img ∧ (State.fbEnter s v layer cause).pwr = s.pwr ∧ (State.fbEnter s v layer cause).pending = s.pending := by
  have fr1 := @State.event_frame
  have fr2 := @State.queueJob_frame
  have fr3 := @State.setPos_frame
  have fr4 := @State.takeTargets_frame
  simp [State.fbEnter, fr1, fr2, fr3, fr4]


theorem State.fbFollow_frame (s : State) (v d p : Nat) :
    (State.fbFollow s v d p).pairLo = s.pairLo ∧ (State.fbFollow s v d p).pairCap = s.pairCap ∧ (State.fbFollow s v d p).out = s.out ∧ (State.fbFollow s v d p).free = s.free ∧ (State.fbFollow s v d p).policy = s.policy ∧ (State.fbFollow s v d p).err = s.err ∧ (State.fbFollow s v d p).chk = s.chk ∧ (State.fbFollow s v d p).snp = s.snp ∧ (State.fbFollow s v d p).irq = s.irq ∧ (State.fbFollow s v d p).ezl = s.ezl ∧ (State.fbFollow s v d p).stp = s.stp ∧ (State.fbFollow s v d p).fmt = s.fmt ∧ (State.fbFollow s v d p).vec = s.vec ∧ (State.fbFollow s v d p).mxe = s.mxe ∧ (State.fbFollow s v d p).upd = s.upd ∧ (State.fbFollow s v d p).red = s.red ∧ (State.fbFollow s v d p).tsk = s.tsk ∧ (State.fbFollow s v d p).hif = s.hif ∧ (State.fbFollow s v d p).img = s.img ∧ (State.fbFollow s v d p).pwr = s.pwr ∧ (State.fbFollow s v d p).pending = s.pending := by
  have fr1 := @State.queueJob_frame
  have fr2 := @State.setPos_frame
  have fr3 := @State.takeTargets_frame
  unfold State.fbFollow; (repeat' split) <;> simp [fr1, fr2, fr3]


theorem State.fbExit_frame (s : State) (v layer : Nat) :
    (State.fbExit s v layer).pairLo = s.pairLo ∧ (State.fbExit s v layer).pairCap = s.pairCap ∧ (State.fbExit s v layer).out = s.out ∧ (State.fbExit s v layer).free = s.free ∧ (State.fbExit s v layer).policy = s.policy ∧ (State.fbExit s v layer).err = s.err ∧ (State.fbExit s v layer).chk = s.chk ∧ (State.fbExit s v layer).snp = s.snp ∧ (State.fbExit s v layer).irq = s.irq ∧ (State.fbExit s v layer).ezl = s.ezl ∧ (State.fbExit s v layer).stp = s.stp ∧ (State.fbExit s v layer).fmt = s.fmt ∧ (State.fbExit s v layer).vec = s.vec ∧ (State.fbExit s v layer).mxe = s.mxe ∧ (State.fbExit s v layer).upd = s.upd ∧ (State.fbExit s v layer).red = s.red ∧ (State.fbExit s v layer).tsk = s.tsk ∧ (State.fbExit s v layer).hif = s.hif ∧ (State.fbExit s v layer).img = s.img ∧ (State.fbExit s v layer).pwr = s.pwr ∧ (State.fbExit s v layer).pending = s.pending := by
  have fr1 := @State.event_frame
  have fr2 := @State.keepOld_frame
  have fr3 := @State.setPos_frame
  have fr4 := @State.shadowFrom_frame
  simp [State.fbExit, fr1, fr2, fr3, fr4]


theorem State.loadedIn_frame (s : State) (v : Nat) :
    (State.loadedIn s v).pairLo = s.pairLo ∧ (State.loadedIn s v).pairCap = s.pairCap ∧ (State.loadedIn s v).out = s.out ∧ (State.loadedIn s v).free = s.free ∧ (State.loadedIn s v).policy = s.policy ∧ (State.loadedIn s v).err = s.err ∧ (State.loadedIn s v).chk = s.chk ∧ (State.loadedIn s v).snp = s.snp ∧ (State.loadedIn s v).irq = s.irq ∧ (State.loadedIn s v).ezl = s.ezl ∧ (State.loadedIn s v).stp = s.stp ∧ (State.loadedIn s v).fmt = s.fmt ∧ (State.loadedIn s v).vec = s.vec ∧ (State.loadedIn s v).mxe = s.mxe ∧ (State.loadedIn s v).upd = s.upd ∧ (State.loadedIn s v).red = s.red ∧ (State.loadedIn s v).tsk = s.tsk ∧ (State.loadedIn s v).hif = s.hif ∧ (State.loadedIn s v).img = s.img ∧ (State.loadedIn s v).pwr = s.pwr ∧ (State.loadedIn s v).pending = s.pending := by
  have fr1 := @State.copyArea_frame
  have fr2 := @State.keepOld_frame
  have fr3 := @State.queueJob_frame
  have fr4 := @State.setPos_frame
  have fr5 := @State.shadowFrom_frame
  simp [State.loadedIn, fr1, fr2, fr3, fr4, fr5]


theorem State.imageChanges_frame (s : State) (v : Nat) :
    (State.imageChanges s v).pairLo = s.pairLo ∧ (State.imageChanges s v).pairCap = s.pairCap ∧ (State.imageChanges s v).out = s.out ∧ (State.imageChanges s v).free = s.free ∧ (State.imageChanges s v).policy = s.policy ∧ (State.imageChanges s v).err = s.err ∧ (State.imageChanges s v).chk = s.chk ∧ (State.imageChanges s v).snp = s.snp ∧ (State.imageChanges s v).irq = s.irq ∧ (State.imageChanges s v).ezl = s.ezl ∧ (State.imageChanges s v).stp = s.stp ∧ (State.imageChanges s v).fmt = s.fmt ∧ (State.imageChanges s v).vec = s.vec ∧ (State.imageChanges s v).mxe = s.mxe ∧ (State.imageChanges s v).upd = s.upd ∧ (State.imageChanges s v).red = s.red ∧ (State.imageChanges s v).tsk = s.tsk ∧ (State.imageChanges s v).hif = s.hif ∧ (State.imageChanges s v).img = s.img ∧ (State.imageChanges s v).pwr = s.pwr ∧ (State.imageChanges s v).pending = s.pending := by
  have fr1 := @State.fbEnter_frame
  have fr2 := @State.fbExit_frame
  have fr3 := @State.fbFollow_frame
  have fr4 := @State.loadedIn_frame
  have fr5 := @State.swapAll_frame
  simp [State.imageChanges, fr1, fr2, fr3, fr4, fr5]


theorem State.trimChanges_frame (s before : State) (v : Nat) :
    (State.trimChanges s before v).pairLo = s.pairLo ∧ (State.trimChanges s before v).pairCap = s.pairCap ∧ (State.trimChanges s before v).out = s.out ∧ (State.trimChanges s before v).free = s.free ∧ (State.trimChanges s before v).policy = s.policy ∧ (State.trimChanges s before v).err = s.err ∧ (State.trimChanges s before v).chk = s.chk ∧ (State.trimChanges s before v).snp = s.snp ∧ (State.trimChanges s before v).irq = s.irq ∧ (State.trimChanges s before v).ezl = s.ezl ∧ (State.trimChanges s before v).stp = s.stp ∧ (State.trimChanges s before v).fmt = s.fmt ∧ (State.trimChanges s before v).vec = s.vec ∧ (State.trimChanges s before v).mxe = s.mxe ∧ (State.trimChanges s before v).upd = s.upd ∧ (State.trimChanges s before v).red = s.red ∧ (State.trimChanges s before v).tsk = s.tsk ∧ (State.trimChanges s before v).mem = s.mem ∧ (State.trimChanges s before v).hif = s.hif ∧ (State.trimChanges s before v).img = s.img ∧ (State.trimChanges s before v).pwr = s.pwr ∧ (State.trimChanges s before v).pending = s.pending := by
  have fr1 := @State.event_frame
  have fr2 := @State.setKao_frame
  simp [State.trimChanges, fr1, fr2]


theorem State.msRefresh_frame (s : State) :
    (State.msRefresh s).regs = s.regs ∧ (State.msRefresh s).pairLo = s.pairLo ∧ (State.msRefresh s).pairCap = s.pairCap ∧ (State.msRefresh s).out = s.out ∧ (State.msRefresh s).free = s.free ∧ (State.msRefresh s).policy = s.policy ∧ (State.msRefresh s).err = s.err ∧ (State.msRefresh s).chk = s.chk ∧ (State.msRefresh s).snp = s.snp ∧ (State.msRefresh s).irq = s.irq ∧ (State.msRefresh s).ezl = s.ezl ∧ (State.msRefresh s).stp = s.stp ∧ (State.msRefresh s).fmt = s.fmt ∧ (State.msRefresh s).vec = s.vec ∧ (State.msRefresh s).mxe = s.mxe ∧ (State.msRefresh s).upd = s.upd ∧ (State.msRefresh s).red = s.red ∧ (State.msRefresh s).tsk = s.tsk ∧ (State.msRefresh s).mem = s.mem ∧ (State.msRefresh s).hif = s.hif ∧ (State.msRefresh s).img = s.img ∧ (State.msRefresh s).pwr = s.pwr ∧ (State.msRefresh s).pending = s.pending := by
  have fr1 := @State.setPos_frame
  simp [State.msRefresh, fr1]


theorem State.takeRange_frame (s : State) (k idx v : Nat) :
    (State.takeRange s k idx v).pairLo = s.pairLo ∧ (State.takeRange s k idx v).pairCap = s.pairCap ∧ (State.takeRange s k idx v).out = s.out ∧ (State.takeRange s k idx v).free = s.free ∧ (State.takeRange s k idx v).policy = s.policy ∧ (State.takeRange s k idx v).err = s.err ∧ (State.takeRange s k idx v).chk = s.chk ∧ (State.takeRange s k idx v).snp = s.snp ∧ (State.takeRange s k idx v).irq = s.irq ∧ (State.takeRange s k idx v).ezl = s.ezl ∧ (State.takeRange s k idx v).stp = s.stp ∧ (State.takeRange s k idx v).fmt = s.fmt ∧ (State.takeRange s k idx v).vec = s.vec ∧ (State.takeRange s k idx v).mxe = s.mxe ∧ (State.takeRange s k idx v).upd = s.upd ∧ (State.takeRange s k idx v).red = s.red ∧ (State.takeRange s k idx v).tsk = s.tsk ∧ (State.takeRange s k idx v).mem = s.mem ∧ (State.takeRange s k idx v).hif = s.hif ∧ (State.takeRange s k idx v).img = s.img ∧ (State.takeRange s k idx v).pwr = s.pwr ∧ (State.takeRange s k idx v).pending = s.pending := by
  have fr1 := @State.event_frame
  have fr2 := @State.setMat_frame
  simp [State.takeRange, fr1, fr2]


@[simp] theorem State.rangeChanges_pairLo (s : State) (v : Nat) (held : Bool) : (State.rangeChanges s v held).pairLo = s.pairLo := by
  have fr1 := @State.releaseRanges_frame
  have fr2 := @State.takeRange_frame
  unfold State.rangeChanges
  rw [State.foldl_pairLo _ (by intro s k; dsimp only; (repeat' split) <;> simp [fr1, fr2])]
  simp [fr1, fr2]

@[simp] theorem State.rangeChanges_pairCap (s : State) (v : Nat) (held : Bool) : (State.rangeChanges s v held).pairCap = s.pairCap := by
  have fr1 := @State.releaseRanges_frame
  have fr2 := @State.takeRange_frame
  unfold State.rangeChanges
  rw [State.foldl_pairCap _ (by intro s k; dsimp only; (repeat' split) <;> simp [fr1, fr2])]
  simp [fr1, fr2]

@[simp] theorem State.rangeChanges_out (s : State) (v : Nat) (held : Bool) : (State.rangeChanges s v held).out = s.out := by
  have fr1 := @State.releaseRanges_frame
  have fr2 := @State.takeRange_frame
  unfold State.rangeChanges
  rw [State.foldl_out _ (by intro s k; dsimp only; (repeat' split) <;> simp [fr1, fr2])]
  simp [fr1, fr2]

@[simp] theorem State.rangeChanges_free (s : State) (v : Nat) (held : Bool) : (State.rangeChanges s v held).free = s.free := by
  have fr1 := @State.releaseRanges_frame
  have fr2 := @State.takeRange_frame
  unfold State.rangeChanges
  rw [State.foldl_free _ (by intro s k; dsimp only; (repeat' split) <;> simp [fr1, fr2])]
  simp [fr1, fr2]

@[simp] theorem State.rangeChanges_policy (s : State) (v : Nat) (held : Bool) : (State.rangeChanges s v held).policy = s.policy := by
  have fr1 := @State.releaseRanges_frame
  have fr2 := @State.takeRange_frame
  unfold State.rangeChanges
  rw [State.foldl_policy _ (by intro s k; dsimp only; (repeat' split) <;> simp [fr1, fr2])]
  simp [fr1, fr2]

@[simp] theorem State.rangeChanges_err (s : State) (v : Nat) (held : Bool) : (State.rangeChanges s v held).err = s.err := by
  have fr1 := @State.releaseRanges_frame
  have fr2 := @State.takeRange_frame
  unfold State.rangeChanges
  rw [State.foldl_err _ (by intro s k; dsimp only; (repeat' split) <;> simp [fr1, fr2])]
  simp [fr1, fr2]

@[simp] theorem State.rangeChanges_chk (s : State) (v : Nat) (held : Bool) : (State.rangeChanges s v held).chk = s.chk := by
  have fr1 := @State.releaseRanges_frame
  have fr2 := @State.takeRange_frame
  unfold State.rangeChanges
  rw [State.foldl_chk _ (by intro s k; dsimp only; (repeat' split) <;> simp [fr1, fr2])]
  simp [fr1, fr2]

@[simp] theorem State.rangeChanges_snp (s : State) (v : Nat) (held : Bool) : (State.rangeChanges s v held).snp = s.snp := by
  have fr1 := @State.releaseRanges_frame
  have fr2 := @State.takeRange_frame
  unfold State.rangeChanges
  rw [State.foldl_snp _ (by intro s k; dsimp only; (repeat' split) <;> simp [fr1, fr2])]
  simp [fr1, fr2]

@[simp] theorem State.rangeChanges_irq (s : State) (v : Nat) (held : Bool) : (State.rangeChanges s v held).irq = s.irq := by
  have fr1 := @State.releaseRanges_frame
  have fr2 := @State.takeRange_frame
  unfold State.rangeChanges
  rw [State.foldl_irq _ (by intro s k; dsimp only; (repeat' split) <;> simp [fr1, fr2])]
  simp [fr1, fr2]

@[simp] theorem State.rangeChanges_ezl (s : State) (v : Nat) (held : Bool) : (State.rangeChanges s v held).ezl = s.ezl := by
  have fr1 := @State.releaseRanges_frame
  have fr2 := @State.takeRange_frame
  unfold State.rangeChanges
  rw [State.foldl_ezl _ (by intro s k; dsimp only; (repeat' split) <;> simp [fr1, fr2])]
  simp [fr1, fr2]

@[simp] theorem State.rangeChanges_stp (s : State) (v : Nat) (held : Bool) : (State.rangeChanges s v held).stp = s.stp := by
  have fr1 := @State.releaseRanges_frame
  have fr2 := @State.takeRange_frame
  unfold State.rangeChanges
  rw [State.foldl_stp _ (by intro s k; dsimp only; (repeat' split) <;> simp [fr1, fr2])]
  simp [fr1, fr2]

@[simp] theorem State.rangeChanges_fmt (s : State) (v : Nat) (held : Bool) : (State.rangeChanges s v held).fmt = s.fmt := by
  have fr1 := @State.releaseRanges_frame
  have fr2 := @State.takeRange_frame
  unfold State.rangeChanges
  rw [State.foldl_fmt _ (by intro s k; dsimp only; (repeat' split) <;> simp [fr1, fr2])]
  simp [fr1, fr2]

@[simp] theorem State.rangeChanges_vec (s : State) (v : Nat) (held : Bool) : (State.rangeChanges s v held).vec = s.vec := by
  have fr1 := @State.releaseRanges_frame
  have fr2 := @State.takeRange_frame
  unfold State.rangeChanges
  rw [State.foldl_vec _ (by intro s k; dsimp only; (repeat' split) <;> simp [fr1, fr2])]
  simp [fr1, fr2]

@[simp] theorem State.rangeChanges_mxe (s : State) (v : Nat) (held : Bool) : (State.rangeChanges s v held).mxe = s.mxe := by
  have fr1 := @State.releaseRanges_frame
  have fr2 := @State.takeRange_frame
  unfold State.rangeChanges
  rw [State.foldl_mxe _ (by intro s k; dsimp only; (repeat' split) <;> simp [fr1, fr2])]
  simp [fr1, fr2]

@[simp] theorem State.rangeChanges_upd (s : State) (v : Nat) (held : Bool) : (State.rangeChanges s v held).upd = s.upd := by
  have fr1 := @State.releaseRanges_frame
  have fr2 := @State.takeRange_frame
  unfold State.rangeChanges
  rw [State.foldl_upd _ (by intro s k; dsimp only; (repeat' split) <;> simp [fr1, fr2])]
  simp [fr1, fr2]

@[simp] theorem State.rangeChanges_red (s : State) (v : Nat) (held : Bool) : (State.rangeChanges s v held).red = s.red := by
  have fr1 := @State.releaseRanges_frame
  have fr2 := @State.takeRange_frame
  unfold State.rangeChanges
  rw [State.foldl_red _ (by intro s k; dsimp only; (repeat' split) <;> simp [fr1, fr2])]
  simp [fr1, fr2]

@[simp] theorem State.rangeChanges_tsk (s : State) (v : Nat) (held : Bool) : (State.rangeChanges s v held).tsk = s.tsk := by
  have fr1 := @State.releaseRanges_frame
  have fr2 := @State.takeRange_frame
  unfold State.rangeChanges
  rw [State.foldl_tsk _ (by intro s k; dsimp only; (repeat' split) <;> simp [fr1, fr2])]
  simp [fr1, fr2]

@[simp] theorem State.rangeChanges_mem (s : State) (v : Nat) (held : Bool) : (State.rangeChanges s v held).mem = s.mem := by
  have fr1 := @State.releaseRanges_frame
  have fr2 := @State.takeRange_frame
  unfold State.rangeChanges
  rw [State.foldl_mem _ (by intro s k; dsimp only; (repeat' split) <;> simp [fr1, fr2])]
  simp [fr1, fr2]

@[simp] theorem State.rangeChanges_hif (s : State) (v : Nat) (held : Bool) : (State.rangeChanges s v held).hif = s.hif := by
  have fr1 := @State.releaseRanges_frame
  have fr2 := @State.takeRange_frame
  unfold State.rangeChanges
  rw [State.foldl_hif _ (by intro s k; dsimp only; (repeat' split) <;> simp [fr1, fr2])]
  simp [fr1, fr2]

@[simp] theorem State.rangeChanges_img (s : State) (v : Nat) (held : Bool) : (State.rangeChanges s v held).img = s.img := by
  have fr1 := @State.releaseRanges_frame
  have fr2 := @State.takeRange_frame
  unfold State.rangeChanges
  rw [State.foldl_img _ (by intro s k; dsimp only; (repeat' split) <;> simp [fr1, fr2])]
  simp [fr1, fr2]

@[simp] theorem State.rangeChanges_pwr (s : State) (v : Nat) (held : Bool) : (State.rangeChanges s v held).pwr = s.pwr := by
  have fr1 := @State.releaseRanges_frame
  have fr2 := @State.takeRange_frame
  unfold State.rangeChanges
  rw [State.foldl_pwr _ (by intro s k; dsimp only; (repeat' split) <;> simp [fr1, fr2])]
  simp [fr1, fr2]

@[simp] theorem State.rangeChanges_pending (s : State) (v : Nat) (held : Bool) : (State.rangeChanges s v held).pending = s.pending := by
  have fr1 := @State.releaseRanges_frame
  have fr2 := @State.takeRange_frame
  unfold State.rangeChanges
  rw [State.foldl_pending _ (by intro s k; dsimp only; (repeat' split) <;> simp [fr1, fr2])]
  simp [fr1, fr2]


theorem State.trainRanges_frame (s : State) :
    (State.trainRanges s).regs = s.regs ∧ (State.trainRanges s).pairLo = s.pairLo ∧ (State.trainRanges s).pairCap = s.pairCap ∧ (State.trainRanges s).out = s.out ∧ (State.trainRanges s).free = s.free ∧ (State.trainRanges s).policy = s.policy ∧ (State.trainRanges s).err = s.err ∧ (State.trainRanges s).chk = s.chk ∧ (State.trainRanges s).snp = s.snp ∧ (State.trainRanges s).irq = s.irq ∧ (State.trainRanges s).ezl = s.ezl ∧ (State.trainRanges s).stp = s.stp ∧ (State.trainRanges s).fmt = s.fmt ∧ (State.trainRanges s).vec = s.vec ∧ (State.trainRanges s).mxe = s.mxe ∧ (State.trainRanges s).upd = s.upd ∧ (State.trainRanges s).red = s.red ∧ (State.trainRanges s).tsk = s.tsk ∧ (State.trainRanges s).mem = s.mem ∧ (State.trainRanges s).hif = s.hif ∧ (State.trainRanges s).img = s.img ∧ (State.trainRanges s).pwr = s.pwr ∧ (State.trainRanges s).pending = s.pending := by
  have fr1 := @State.setMat_frame
  simp [State.trainRanges, fr1]


theorem State.imageSeq_frame (s before : State) :
    (State.imageSeq s before).pairLo = s.pairLo ∧ (State.imageSeq s before).pairCap = s.pairCap ∧ (State.imageSeq s before).out = s.out ∧ (State.imageSeq s before).free = s.free ∧ (State.imageSeq s before).policy = s.policy ∧ (State.imageSeq s before).err = s.err ∧ (State.imageSeq s before).chk = s.chk ∧ (State.imageSeq s before).snp = s.snp ∧ (State.imageSeq s before).irq = s.irq ∧ (State.imageSeq s before).ezl = s.ezl ∧ (State.imageSeq s before).stp = s.stp ∧ (State.imageSeq s before).fmt = s.fmt ∧ (State.imageSeq s before).arr = s.arr ∧ (State.imageSeq s before).vec = s.vec ∧ (State.imageSeq s before).mxe = s.mxe ∧ (State.imageSeq s before).upd = s.upd ∧ (State.imageSeq s before).red = s.red ∧ (State.imageSeq s before).tsk = s.tsk ∧ (State.imageSeq s before).mem = s.mem ∧ (State.imageSeq s before).hif = s.hif ∧ (State.imageSeq s before).img = s.img ∧ (State.imageSeq s before).pwr = s.pwr ∧ (State.imageSeq s before).pending = s.pending := by
  have fr1 := @State.event_frame
  have fr2 := @State.setRegN_frame
  simp [State.imageSeq, fr1, fr2]


theorem State.notePeak_frame (s : State) (k : Nat) :
    (State.notePeak s k).pairLo = s.pairLo ∧ (State.notePeak s k).pairCap = s.pairCap ∧ (State.notePeak s k).out = s.out ∧ (State.notePeak s k).free = s.free ∧ (State.notePeak s k).policy = s.policy ∧ (State.notePeak s k).err = s.err ∧ (State.notePeak s k).chk = s.chk ∧ (State.notePeak s k).snp = s.snp ∧ (State.notePeak s k).irq = s.irq ∧ (State.notePeak s k).ezl = s.ezl ∧ (State.notePeak s k).stp = s.stp ∧ (State.notePeak s k).fmt = s.fmt ∧ (State.notePeak s k).arr = s.arr ∧ (State.notePeak s k).vec = s.vec ∧ (State.notePeak s k).mxe = s.mxe ∧ (State.notePeak s k).upd = s.upd ∧ (State.notePeak s k).red = s.red ∧ (State.notePeak s k).tsk = s.tsk ∧ (State.notePeak s k).mem = s.mem ∧ (State.notePeak s k).hif = s.hif ∧ (State.notePeak s k).img = s.img ∧ (State.notePeak s k).pwr = s.pwr ∧ (State.notePeak s k).pending = s.pending := by
  have fr1 := @State.setRegF_frame
  simp [State.notePeak, fr1]


theorem State.groupDone_frame (s : State) (q : PassReq) (bytes : List Byte) (bad : Bool) :
    (State.groupDone s q bytes bad).regs = s.regs ∧ (State.groupDone s q bytes bad).pairLo = s.pairLo ∧ (State.groupDone s q bytes bad).pairCap = s.pairCap ∧ (State.groupDone s q bytes bad).out = s.out ∧ (State.groupDone s q bytes bad).free = s.free ∧ (State.groupDone s q bytes bad).policy = s.policy ∧ (State.groupDone s q bytes bad).chk = s.chk ∧ (State.groupDone s q bytes bad).snp = s.snp ∧ (State.groupDone s q bytes bad).irq = s.irq ∧ (State.groupDone s q bytes bad).ezl = s.ezl ∧ (State.groupDone s q bytes bad).stp = s.stp ∧ (State.groupDone s q bytes bad).fmt = s.fmt ∧ (State.groupDone s q bytes bad).arr = s.arr ∧ (State.groupDone s q bytes bad).vec = s.vec ∧ (State.groupDone s q bytes bad).mxe = s.mxe ∧ (State.groupDone s q bytes bad).upd = s.upd ∧ (State.groupDone s q bytes bad).red = s.red ∧ (State.groupDone s q bytes bad).hif = s.hif ∧ (State.groupDone s q bytes bad).img = s.img ∧ (State.groupDone s q bytes bad).pwr = s.pwr ∧ (State.groupDone s q bytes bad).pending = s.pending := by
  have fr1 := @State.endPart_frame
  have fr2 := @State.hbmWrite_frame
  simp [State.groupDone, fr1, fr2]


theorem State.badRequest_frame (s : State) (k : Nat) (q : PassReq) (bytes : List Byte) :
    (State.badRequest s k q bytes).pairLo = s.pairLo ∧ (State.badRequest s k q bytes).pairCap = s.pairCap ∧ (State.badRequest s k q bytes).out = s.out ∧ (State.badRequest s k q bytes).free = s.free ∧ (State.badRequest s k q bytes).policy = s.policy ∧ (State.badRequest s k q bytes).chk = s.chk ∧ (State.badRequest s k q bytes).snp = s.snp ∧ (State.badRequest s k q bytes).irq = s.irq ∧ (State.badRequest s k q bytes).ezl = s.ezl ∧ (State.badRequest s k q bytes).stp = s.stp ∧ (State.badRequest s k q bytes).fmt = s.fmt ∧ (State.badRequest s k q bytes).arr = s.arr ∧ (State.badRequest s k q bytes).vec = s.vec ∧ (State.badRequest s k q bytes).mxe = s.mxe ∧ (State.badRequest s k q bytes).upd = s.upd ∧ (State.badRequest s k q bytes).red = s.red ∧ (State.badRequest s k q bytes).hif = s.hif ∧ (State.badRequest s k q bytes).img = s.img ∧ (State.badRequest s k q bytes).pwr = s.pwr ∧ (State.badRequest s k q bytes).pending = s.pending := by
  have fr1 := @State.eventLog_frame
  have fr2 := @State.groupDone_frame
  simp [State.badRequest, fr1, fr2]


theorem State.noteFirst_frame (s : State) (q : PassReq) :
    (State.noteFirst s q).regs = s.regs ∧ (State.noteFirst s q).pairLo = s.pairLo ∧ (State.noteFirst s q).pairCap = s.pairCap ∧ (State.noteFirst s q).out = s.out ∧ (State.noteFirst s q).free = s.free ∧ (State.noteFirst s q).policy = s.policy ∧ (State.noteFirst s q).err = s.err ∧ (State.noteFirst s q).chk = s.chk ∧ (State.noteFirst s q).snp = s.snp ∧ (State.noteFirst s q).irq = s.irq ∧ (State.noteFirst s q).ezl = s.ezl ∧ (State.noteFirst s q).fmt = s.fmt ∧ (State.noteFirst s q).arr = s.arr ∧ (State.noteFirst s q).vec = s.vec ∧ (State.noteFirst s q).mxe = s.mxe ∧ (State.noteFirst s q).upd = s.upd ∧ (State.noteFirst s q).red = s.red ∧ (State.noteFirst s q).tsk = s.tsk ∧ (State.noteFirst s q).mem = s.mem ∧ (State.noteFirst s q).hif = s.hif ∧ (State.noteFirst s q).img = s.img ∧ (State.noteFirst s q).pwr = s.pwr ∧ (State.noteFirst s q).pending = s.pending := by
  have fr1 := @State.modStp_frame
  simp [State.noteFirst, fr1]


theorem State.noteSat_frame (s : State) (d : Nat) (own : Bool) (n : Nat) :
    (State.noteSat s d own n).pairLo = s.pairLo ∧ (State.noteSat s d own n).pairCap = s.pairCap ∧ (State.noteSat s d own n).out = s.out ∧ (State.noteSat s d own n).free = s.free ∧ (State.noteSat s d own n).policy = s.policy ∧ (State.noteSat s d own n).err = s.err ∧ (State.noteSat s d own n).chk = s.chk ∧ (State.noteSat s d own n).snp = s.snp ∧ (State.noteSat s d own n).irq = s.irq ∧ (State.noteSat s d own n).ezl = s.ezl ∧ (State.noteSat s d own n).fmt = s.fmt ∧ (State.noteSat s d own n).arr = s.arr ∧ (State.noteSat s d own n).vec = s.vec ∧ (State.noteSat s d own n).mxe = s.mxe ∧ (State.noteSat s d own n).upd = s.upd ∧ (State.noteSat s d own n).red = s.red ∧ (State.noteSat s d own n).tsk = s.tsk ∧ (State.noteSat s d own n).mem = s.mem ∧ (State.noteSat s d own n).hif = s.hif ∧ (State.noteSat s d own n).img = s.img ∧ (State.noteSat s d own n).pwr = s.pwr ∧ (State.noteSat s d own n).pending = s.pending := by
  have fr1 := @State.event_frame
  have fr2 := @State.incPair_frame
  have fr3 := @State.modCnt_frame
  simp [State.noteSat, fr1, fr2, fr3]


theorem State.fbGroup_frame (s : State) (k : Nat) (e : MatEnt) (q : PassReq) :
    (State.fbGroup s k e q).pairLo = s.pairLo ∧ (State.fbGroup s k e q).pairCap = s.pairCap ∧ (State.fbGroup s k e q).out = s.out ∧ (State.fbGroup s k e q).free = s.free ∧ (State.fbGroup s k e q).policy = s.policy ∧ (State.fbGroup s k e q).chk = s.chk ∧ (State.fbGroup s k e q).snp = s.snp ∧ (State.fbGroup s k e q).irq = s.irq ∧ (State.fbGroup s k e q).ezl = s.ezl ∧ (State.fbGroup s k e q).fmt = s.fmt ∧ (State.fbGroup s k e q).arr = s.arr ∧ (State.fbGroup s k e q).vec = s.vec ∧ (State.fbGroup s k e q).mxe = s.mxe ∧ (State.fbGroup s k e q).upd = s.upd ∧ (State.fbGroup s k e q).red = s.red ∧ (State.fbGroup s k e q).hif = s.hif ∧ (State.fbGroup s k e q).img = s.img ∧ (State.fbGroup s k e q).pwr = s.pwr ∧ (State.fbGroup s k e q).pending = s.pending := by
  have fr1 := @State.groupDone_frame
  have fr2 := @State.incReg_frame
  have fr3 := @State.noteFirst_frame
  have fr4 := @State.noteSat_frame
  simp [State.fbGroup, fr1, fr2, fr3, fr4]


theorem groupRequest_frame (k : Nat) (s : State) :
    (groupRequest k s).pairLo = s.pairLo ∧ (groupRequest k s).pairCap = s.pairCap ∧ (groupRequest k s).out = s.out ∧ (groupRequest k s).free = s.free ∧ (groupRequest k s).policy = s.policy ∧ (groupRequest k s).chk = s.chk ∧ (groupRequest k s).snp = s.snp ∧ (groupRequest k s).irq = s.irq ∧ (groupRequest k s).ezl = s.ezl ∧ (groupRequest k s).fmt = s.fmt ∧ (groupRequest k s).vec = s.vec ∧ (groupRequest k s).mxe = s.mxe ∧ (groupRequest k s).upd = s.upd ∧ (groupRequest k s).red = s.red ∧ (groupRequest k s).hif = s.hif ∧ (groupRequest k s).img = s.img ∧ (groupRequest k s).pwr = s.pwr ∧ (groupRequest k s).pending = s.pending := by
  have fr1 := @State.badRequest_frame
  have fr2 := @State.event_frame
  have fr3 := @State.fbGroup_frame
  have fr4 := @State.setKao_frame
  unfold groupRequest; (repeat' split) <;> simp [fr1, fr2, fr3, fr4]


theorem State.useArrays_frame (s : State) (k : Nat) (l : List Nat) (u : ArrUse) :
    (State.useArrays s k l u).regs = s.regs ∧ (State.useArrays s k l u).pairLo = s.pairLo ∧ (State.useArrays s k l u).pairCap = s.pairCap ∧ (State.useArrays s k l u).out = s.out ∧ (State.useArrays s k l u).free = s.free ∧ (State.useArrays s k l u).policy = s.policy ∧ (State.useArrays s k l u).err = s.err ∧ (State.useArrays s k l u).chk = s.chk ∧ (State.useArrays s k l u).snp = s.snp ∧ (State.useArrays s k l u).irq = s.irq ∧ (State.useArrays s k l u).ezl = s.ezl ∧ (State.useArrays s k l u).stp = s.stp ∧ (State.useArrays s k l u).fmt = s.fmt ∧ (State.useArrays s k l u).vec = s.vec ∧ (State.useArrays s k l u).mxe = s.mxe ∧ (State.useArrays s k l u).upd = s.upd ∧ (State.useArrays s k l u).red = s.red ∧ (State.useArrays s k l u).tsk = s.tsk ∧ (State.useArrays s k l u).mem = s.mem ∧ (State.useArrays s k l u).hif = s.hif ∧ (State.useArrays s k l u).img = s.img ∧ (State.useArrays s k l u).pwr = s.pwr ∧ (State.useArrays s k l u).pending = s.pending := by
  have fr1 := @State.setPhys_frame
  simp [State.useArrays, fr1]


theorem passAdmit_frame (k : Nat) (temp : Word) (s : State) :
    (passAdmit k temp s).pairLo = s.pairLo ∧ (passAdmit k temp s).pairCap = s.pairCap ∧ (passAdmit k temp s).out = s.out ∧ (passAdmit k temp s).free = s.free ∧ (passAdmit k temp s).policy = s.policy ∧ (passAdmit k temp s).err = s.err ∧ (passAdmit k temp s).chk = s.chk ∧ (passAdmit k temp s).snp = s.snp ∧ (passAdmit k temp s).irq = s.irq ∧ (passAdmit k temp s).ezl = s.ezl ∧ (passAdmit k temp s).fmt = s.fmt ∧ (passAdmit k temp s).vec = s.vec ∧ (passAdmit k temp s).mxe = s.mxe ∧ (passAdmit k temp s).upd = s.upd ∧ (passAdmit k temp s).red = s.red ∧ (passAdmit k temp s).tsk = s.tsk ∧ (passAdmit k temp s).mem = s.mem ∧ (passAdmit k temp s).hif = s.hif ∧ (passAdmit k temp s).img = s.img ∧ (passAdmit k temp s).pwr = s.pwr ∧ (passAdmit k temp s).pending = s.pending := by
  have fr1 := @State.event_frame
  have fr2 := @State.noteFirst_frame
  have fr3 := @State.notePeak_frame
  have fr4 := @State.setKao_frame
  have fr5 := @State.useArrays_frame
  unfold passAdmit; (repeat' split) <;> simp [fr1, fr2, fr3, fr4, fr5]


theorem State.addClip_frame (s : State) (k a m n : Nat) :
    (State.addClip s k a m n).pairLo = s.pairLo ∧ (State.addClip s k a m n).pairCap = s.pairCap ∧ (State.addClip s k a m n).out = s.out ∧ (State.addClip s k a m n).free = s.free ∧ (State.addClip s k a m n).policy = s.policy ∧ (State.addClip s k a m n).err = s.err ∧ (State.addClip s k a m n).chk = s.chk ∧ (State.addClip s k a m n).snp = s.snp ∧ (State.addClip s k a m n).irq = s.irq ∧ (State.addClip s k a m n).ezl = s.ezl ∧ (State.addClip s k a m n).stp = s.stp ∧ (State.addClip s k a m n).fmt = s.fmt ∧ (State.addClip s k a m n).vec = s.vec ∧ (State.addClip s k a m n).mxe = s.mxe ∧ (State.addClip s k a m n).upd = s.upd ∧ (State.addClip s k a m n).red = s.red ∧ (State.addClip s k a m n).tsk = s.tsk ∧ (State.addClip s k a m n).mem = s.mem ∧ (State.addClip s k a m n).hif = s.hif ∧ (State.addClip s k a m n).img = s.img ∧ (State.addClip s k a m n).pwr = s.pwr ∧ (State.addClip s k a m n).pending = s.pending := by
  have fr1 := @State.event_frame
  have fr2 := @State.incPair_frame
  have fr3 := @State.setPhys_frame
  simp [State.addClip, fr1, fr2, fr3]


theorem State.noteConv_frame (s : State) (k : Nat) (q : PassReq) (clips conv peak : Nat) :
    (State.noteConv s k q clips conv peak).regs = s.regs ∧ (State.noteConv s k q clips conv peak).pairLo = s.pairLo ∧ (State.noteConv s k q clips conv peak).pairCap = s.pairCap ∧ (State.noteConv s k q clips conv peak).out = s.out ∧ (State.noteConv s k q clips conv peak).free = s.free ∧ (State.noteConv s k q clips conv peak).policy = s.policy ∧ (State.noteConv s k q clips conv peak).err = s.err ∧ (State.noteConv s k q clips conv peak).chk = s.chk ∧ (State.noteConv s k q clips conv peak).snp = s.snp ∧ (State.noteConv s k q clips conv peak).irq = s.irq ∧ (State.noteConv s k q clips conv peak).ezl = s.ezl ∧ (State.noteConv s k q clips conv peak).fmt = s.fmt ∧ (State.noteConv s k q clips conv peak).vec = s.vec ∧ (State.noteConv s k q clips conv peak).mxe = s.mxe ∧ (State.noteConv s k q clips conv peak).upd = s.upd ∧ (State.noteConv s k q clips conv peak).red = s.red ∧ (State.noteConv s k q clips conv peak).tsk = s.tsk ∧ (State.noteConv s k q clips conv peak).mem = s.mem ∧ (State.noteConv s k q clips conv peak).hif = s.hif ∧ (State.noteConv s k q clips conv peak).img = s.img ∧ (State.noteConv s k q clips conv peak).pwr = s.pwr ∧ (State.noteConv s k q clips conv peak).pending = s.pending := by
  have fr1 := @State.modCnt_frame
  have fr2 := @State.setMat_frame
  simp [State.noteConv, fr1, fr2]


theorem passComplete_frame (k i : Nat) (y : SMap Nat) (s : State) :
    (passComplete k i y s).pairLo = s.pairLo ∧ (passComplete k i y s).pairCap = s.pairCap ∧ (passComplete k i y s).out = s.out ∧ (passComplete k i y s).free = s.free ∧ (passComplete k i y s).policy = s.policy ∧ (passComplete k i y s).chk = s.chk ∧ (passComplete k i y s).snp = s.snp ∧ (passComplete k i y s).irq = s.irq ∧ (passComplete k i y s).ezl = s.ezl ∧ (passComplete k i y s).fmt = s.fmt ∧ (passComplete k i y s).vec = s.vec ∧ (passComplete k i y s).mxe = s.mxe ∧ (passComplete k i y s).upd = s.upd ∧ (passComplete k i y s).red = s.red ∧ (passComplete k i y s).hif = s.hif ∧ (passComplete k i y s).img = s.img ∧ (passComplete k i y s).pwr = s.pwr ∧ (passComplete k i y s).pending = s.pending := by
  have fr1 := @State.addClip_frame
  have fr2 := @State.event_frame
  have fr3 := @State.groupDone_frame
  have fr4 := @State.incPair_frame
  have fr5 := @State.incReg_frame
  have fr6 := @State.noteConv_frame
  have fr7 := @State.setKao_frame
  have fr8 := @State.useArrays_frame
  unfold passComplete; dsimp only; (repeat' split) <;> simp [fr1, fr2, fr3, fr4, fr5, fr6, fr7, fr8]


theorem State.pendRange_frame (s : State) (k idx r : Nat) (c : Option Nat) :
    (State.pendRange s k idx r c).pairLo = s.pairLo ∧ (State.pendRange s k idx r c).pairCap = s.pairCap ∧ (State.pendRange s k idx r c).out = s.out ∧ (State.pendRange s k idx r c).free = s.free ∧ (State.pendRange s k idx r c).policy = s.policy ∧ (State.pendRange s k idx r c).err = s.err ∧ (State.pendRange s k idx r c).chk = s.chk ∧ (State.pendRange s k idx r c).snp = s.snp ∧ (State.pendRange s k idx r c).irq = s.irq ∧ (State.pendRange s k idx r c).ezl = s.ezl ∧ (State.pendRange s k idx r c).stp = s.stp ∧ (State.pendRange s k idx r c).fmt = s.fmt ∧ (State.pendRange s k idx r c).vec = s.vec ∧ (State.pendRange s k idx r c).mxe = s.mxe ∧ (State.pendRange s k idx r c).upd = s.upd ∧ (State.pendRange s k idx r c).red = s.red ∧ (State.pendRange s k idx r c).tsk = s.tsk ∧ (State.pendRange s k idx r c).mem = s.mem ∧ (State.pendRange s k idx r c).hif = s.hif ∧ (State.pendRange s k idx r c).img = s.img ∧ (State.pendRange s k idx r c).pwr = s.pwr ∧ (State.pendRange s k idx r c).pending = s.pending := by
  have fr1 := @State.modArr_frame
  have fr2 := @State.setMat_frame
  have fr3 := @State.takeRange_frame
  simp [State.pendRange, fr1, fr2, fr3]


theorem rangeTrackerEval_frame (k idx : Nat) (s : State) :
    (rangeTrackerEval k idx s).pairLo = s.pairLo ∧ (rangeTrackerEval k idx s).pairCap = s.pairCap ∧ (rangeTrackerEval k idx s).out = s.out ∧ (rangeTrackerEval k idx s).free = s.free ∧ (rangeTrackerEval k idx s).policy = s.policy ∧ (rangeTrackerEval k idx s).err = s.err ∧ (rangeTrackerEval k idx s).chk = s.chk ∧ (rangeTrackerEval k idx s).snp = s.snp ∧ (rangeTrackerEval k idx s).irq = s.irq ∧ (rangeTrackerEval k idx s).ezl = s.ezl ∧ (rangeTrackerEval k idx s).stp = s.stp ∧ (rangeTrackerEval k idx s).fmt = s.fmt ∧ (rangeTrackerEval k idx s).vec = s.vec ∧ (rangeTrackerEval k idx s).mxe = s.mxe ∧ (rangeTrackerEval k idx s).upd = s.upd ∧ (rangeTrackerEval k idx s).red = s.red ∧ (rangeTrackerEval k idx s).tsk = s.tsk ∧ (rangeTrackerEval k idx s).mem = s.mem ∧ (rangeTrackerEval k idx s).hif = s.hif ∧ (rangeTrackerEval k idx s).img = s.img ∧ (rangeTrackerEval k idx s).pwr = s.pwr ∧ (rangeTrackerEval k idx s).pending = s.pending := by
  have fr1 := @State.pendRange_frame
  have fr2 := @State.setMat_frame
  unfold rangeTrackerEval; (repeat' split) <;> simp [fr1, fr2]


theorem rangeDataWrite_frame (rq : Requester) (k : Nat) (v : Word) (s : State) :
    (rangeDataWrite rq k v s).pairLo = s.pairLo ∧ (rangeDataWrite rq k v s).pairCap = s.pairCap ∧ (rangeDataWrite rq k v s).out = s.out ∧ (rangeDataWrite rq k v s).free = s.free ∧ (rangeDataWrite rq k v s).policy = s.policy ∧ (rangeDataWrite rq k v s).chk = s.chk ∧ (rangeDataWrite rq k v s).snp = s.snp ∧ (rangeDataWrite rq k v s).irq = s.irq ∧ (rangeDataWrite rq k v s).ezl = s.ezl ∧ (rangeDataWrite rq k v s).stp = s.stp ∧ (rangeDataWrite rq k v s).fmt = s.fmt ∧ (rangeDataWrite rq k v s).vec = s.vec ∧ (rangeDataWrite rq k v s).mxe = s.mxe ∧ (rangeDataWrite rq k v s).upd = s.upd ∧ (rangeDataWrite rq k v s).red = s.red ∧ (rangeDataWrite rq k v s).tsk = s.tsk ∧ (rangeDataWrite rq k v s).mem = s.mem ∧ (rangeDataWrite rq k v s).hif = s.hif ∧ (rangeDataWrite rq k v s).img = s.img ∧ (rangeDataWrite rq k v s).pwr = s.pwr ∧ (rangeDataWrite rq k v s).pending = s.pending := by
  have fr1 := @State.event_frame
  have fr2 := @State.pendRange_frame
  have fr3 := @State.refuseWrite_frame
  have fr4 := @State.setMat_frame
  unfold rangeDataWrite; dsimp only; (repeat' split) <;> simp [fr1, fr2, fr3, fr4]


theorem govStatusRead_frame (rq : Requester) (k : Nat) (s : State) :
    (govStatusRead rq k s).pairLo = s.pairLo ∧ (govStatusRead rq k s).pairCap = s.pairCap ∧ (govStatusRead rq k s).free = s.free ∧ (govStatusRead rq k s).policy = s.policy ∧ (govStatusRead rq k s).err = s.err ∧ (govStatusRead rq k s).chk = s.chk ∧ (govStatusRead rq k s).snp = s.snp ∧ (govStatusRead rq k s).irq = s.irq ∧ (govStatusRead rq k s).ezl = s.ezl ∧ (govStatusRead rq k s).stp = s.stp ∧ (govStatusRead rq k s).fmt = s.fmt ∧ (govStatusRead rq k s).arr = s.arr ∧ (govStatusRead rq k s).vec = s.vec ∧ (govStatusRead rq k s).mxe = s.mxe ∧ (govStatusRead rq k s).upd = s.upd ∧ (govStatusRead rq k s).red = s.red ∧ (govStatusRead rq k s).tsk = s.tsk ∧ (govStatusRead rq k s).mem = s.mem ∧ (govStatusRead rq k s).hif = s.hif ∧ (govStatusRead rq k s).img = s.img ∧ (govStatusRead rq k s).pwr = s.pwr ∧ (govStatusRead rq k s).pending = s.pending := by
  have fr1 := @State.emit_frame
  have fr2 := @State.setRegF_frame
  simp [govStatusRead, fr1, fr2]


theorem clipgClr_frame (k : Nat) (v : Word) (s : State) :
    (clipgClr k v s).pairLo = s.pairLo ∧ (clipgClr k v s).pairCap = s.pairCap ∧ (clipgClr k v s).out = s.out ∧ (clipgClr k v s).free = s.free ∧ (clipgClr k v s).policy = s.policy ∧ (clipgClr k v s).err = s.err ∧ (clipgClr k v s).chk = s.chk ∧ (clipgClr k v s).snp = s.snp ∧ (clipgClr k v s).irq = s.irq ∧ (clipgClr k v s).ezl = s.ezl ∧ (clipgClr k v s).stp = s.stp ∧ (clipgClr k v s).fmt = s.fmt ∧ (clipgClr k v s).vec = s.vec ∧ (clipgClr k v s).mxe = s.mxe ∧ (clipgClr k v s).upd = s.upd ∧ (clipgClr k v s).red = s.red ∧ (clipgClr k v s).tsk = s.tsk ∧ (clipgClr k v s).mem = s.mem ∧ (clipgClr k v s).hif = s.hif ∧ (clipgClr k v s).img = s.img ∧ (clipgClr k v s).pwr = s.pwr ∧ (clipgClr k v s).pending = s.pending := by
  have fr1 := @State.modArr_frame
  have fr2 := @State.setReg_frame
  simp [clipgClr, fr1, fr2]


theorem clipgDataRead_frame (rq : Requester) (k : Nat) (s : State) :
    (clipgDataRead rq k s).regs = s.regs ∧ (clipgDataRead rq k s).pairLo = s.pairLo ∧ (clipgDataRead rq k s).pairCap = s.pairCap ∧ (clipgDataRead rq k s).free = s.free ∧ (clipgDataRead rq k s).policy = s.policy ∧ (clipgDataRead rq k s).err = s.err ∧ (clipgDataRead rq k s).chk = s.chk ∧ (clipgDataRead rq k s).snp = s.snp ∧ (clipgDataRead rq k s).irq = s.irq ∧ (clipgDataRead rq k s).ezl = s.ezl ∧ (clipgDataRead rq k s).stp = s.stp ∧ (clipgDataRead rq k s).fmt = s.fmt ∧ (clipgDataRead rq k s).vec = s.vec ∧ (clipgDataRead rq k s).mxe = s.mxe ∧ (clipgDataRead rq k s).upd = s.upd ∧ (clipgDataRead rq k s).red = s.red ∧ (clipgDataRead rq k s).tsk = s.tsk ∧ (clipgDataRead rq k s).mem = s.mem ∧ (clipgDataRead rq k s).hif = s.hif ∧ (clipgDataRead rq k s).img = s.img ∧ (clipgDataRead rq k s).pwr = s.pwr ∧ (clipgDataRead rq k s).pending = s.pending := by
  have fr1 := @State.emit_frame
  have fr2 := @State.setPhys_frame
  simp [clipgDataRead, fr1, fr2]


theorem State.loWrite_frame (s : State) (rq : Requester) (a : Nat) (v : Word) :
    (State.loWrite s rq a v).regs = s.regs ∧ (State.loWrite s rq a v).pairCap = s.pairCap ∧ (State.loWrite s rq a v).out = s.out ∧ (State.loWrite s rq a v).free = s.free ∧ (State.loWrite s rq a v).policy = s.policy ∧ (State.loWrite s rq a v).err = s.err ∧ (State.loWrite s rq a v).chk = s.chk ∧ (State.loWrite s rq a v).snp = s.snp ∧ (State.loWrite s rq a v).irq = s.irq ∧ (State.loWrite s rq a v).ezl = s.ezl ∧ (State.loWrite s rq a v).stp = s.stp ∧ (State.loWrite s rq a v).fmt = s.fmt ∧ (State.loWrite s rq a v).arr = s.arr ∧ (State.loWrite s rq a v).vec = s.vec ∧ (State.loWrite s rq a v).mxe = s.mxe ∧ (State.loWrite s rq a v).upd = s.upd ∧ (State.loWrite s rq a v).red = s.red ∧ (State.loWrite s rq a v).tsk = s.tsk ∧ (State.loWrite s rq a v).mem = s.mem ∧ (State.loWrite s rq a v).hif = s.hif ∧ (State.loWrite s rq a v).img = s.img ∧ (State.loWrite s rq a v).pwr = s.pwr ∧ (State.loWrite s rq a v).pending = s.pending := by
  exact ⟨rfl, rfl, rfl, rfl, rfl, rfl, rfl, rfl, rfl, rfl, rfl, rfl, rfl, rfl, rfl, rfl, rfl, rfl, rfl, rfl, rfl, rfl, rfl⟩


theorem State.loUsed_frame (s : State) (rq : Requester) (a : Nat) :
    (State.loUsed s rq a).regs = s.regs ∧ (State.loUsed s rq a).pairCap = s.pairCap ∧ (State.loUsed s rq a).out = s.out ∧ (State.loUsed s rq a).free = s.free ∧ (State.loUsed s rq a).policy = s.policy ∧ (State.loUsed s rq a).err = s.err ∧ (State.loUsed s rq a).chk = s.chk ∧ (State.loUsed s rq a).snp = s.snp ∧ (State.loUsed s rq a).irq = s.irq ∧ (State.loUsed s rq a).ezl = s.ezl ∧ (State.loUsed s rq a).stp = s.stp ∧ (State.loUsed s rq a).fmt = s.fmt ∧ (State.loUsed s rq a).arr = s.arr ∧ (State.loUsed s rq a).vec = s.vec ∧ (State.loUsed s rq a).mxe = s.mxe ∧ (State.loUsed s rq a).upd = s.upd ∧ (State.loUsed s rq a).red = s.red ∧ (State.loUsed s rq a).tsk = s.tsk ∧ (State.loUsed s rq a).mem = s.mem ∧ (State.loUsed s rq a).hif = s.hif ∧ (State.loUsed s rq a).img = s.img ∧ (State.loUsed s rq a).pwr = s.pwr ∧ (State.loUsed s rq a).pending = s.pending := by
  exact ⟨rfl, rfl, rfl, rfl, rfl, rfl, rfl, rfl, rfl, rfl, rfl, rfl, rfl, rfl, rfl, rfl, rfl, rfl, rfl, rfl, rfl, rfl, rfl⟩


theorem State.hiWrite_frame (s : State) (rq : Requester) (a : Nat) (lo hi : Nat) (v : Word) :
    (State.hiWrite s rq a lo hi v).pairCap = s.pairCap ∧ (State.hiWrite s rq a lo hi v).out = s.out ∧ (State.hiWrite s rq a lo hi v).free = s.free ∧ (State.hiWrite s rq a lo hi v).policy = s.policy ∧ (State.hiWrite s rq a lo hi v).err = s.err ∧ (State.hiWrite s rq a lo hi v).chk = s.chk ∧ (State.hiWrite s rq a lo hi v).snp = s.snp ∧ (State.hiWrite s rq a lo hi v).irq = s.irq ∧ (State.hiWrite s rq a lo hi v).ezl = s.ezl ∧ (State.hiWrite s rq a lo hi v).stp = s.stp ∧ (State.hiWrite s rq a lo hi v).fmt = s.fmt ∧ (State.hiWrite s rq a lo hi v).arr = s.arr ∧ (State.hiWrite s rq a lo hi v).vec = s.vec ∧ (State.hiWrite s rq a lo hi v).mxe = s.mxe ∧ (State.hiWrite s rq a lo hi v).upd = s.upd ∧ (State.hiWrite s rq a lo hi v).red = s.red ∧ (State.hiWrite s rq a lo hi v).tsk = s.tsk ∧ (State.hiWrite s rq a lo hi v).mem = s.mem ∧ (State.hiWrite s rq a lo hi v).hif = s.hif ∧ (State.hiWrite s rq a lo hi v).img = s.img ∧ (State.hiWrite s rq a lo hi v).pwr = s.pwr ∧ (State.hiWrite s rq a lo hi v).pending = s.pending := by
  have fr1 := @State.loUsed_frame
  have fr2 := @State.setReg_frame
  simp [State.hiWrite, fr1, fr2]


theorem State.capture_frame (s : State) (rq : Requester) (a : Nat) (hi : Word) :
    (State.capture s rq a hi).regs = s.regs ∧ (State.capture s rq a hi).pairLo = s.pairLo ∧ (State.capture s rq a hi).out = s.out ∧ (State.capture s rq a hi).free = s.free ∧ (State.capture s rq a hi).policy = s.policy ∧ (State.capture s rq a hi).err = s.err ∧ (State.capture s rq a hi).chk = s.chk ∧ (State.capture s rq a hi).snp = s.snp ∧ (State.capture s rq a hi).irq = s.irq ∧ (State.capture s rq a hi).ezl = s.ezl ∧ (State.capture s rq a hi).stp = s.stp ∧ (State.capture s rq a hi).fmt = s.fmt ∧ (State.capture s rq a hi).arr = s.arr ∧ (State.capture s rq a hi).vec = s.vec ∧ (State.capture s rq a hi).mxe = s.mxe ∧ (State.capture s rq a hi).upd = s.upd ∧ (State.capture s rq a hi).red = s.red ∧ (State.capture s rq a hi).tsk = s.tsk ∧ (State.capture s rq a hi).mem = s.mem ∧ (State.capture s rq a hi).hif = s.hif ∧ (State.capture s rq a hi).img = s.img ∧ (State.capture s rq a hi).pwr = s.pwr ∧ (State.capture s rq a hi).pending = s.pending := by
  exact ⟨rfl, rfl, rfl, rfl, rfl, rfl, rfl, rfl, rfl, rfl, rfl, rfl, rfl, rfl, rfl, rfl, rfl, rfl, rfl, rfl, rfl, rfl, rfl⟩


theorem State.capUsed_frame (s : State) (rq : Requester) (a : Nat) :
    (State.capUsed s rq a).regs = s.regs ∧ (State.capUsed s rq a).pairLo = s.pairLo ∧ (State.capUsed s rq a).out = s.out ∧ (State.capUsed s rq a).free = s.free ∧ (State.capUsed s rq a).policy = s.policy ∧ (State.capUsed s rq a).err = s.err ∧ (State.capUsed s rq a).chk = s.chk ∧ (State.capUsed s rq a).snp = s.snp ∧ (State.capUsed s rq a).irq = s.irq ∧ (State.capUsed s rq a).ezl = s.ezl ∧ (State.capUsed s rq a).stp = s.stp ∧ (State.capUsed s rq a).fmt = s.fmt ∧ (State.capUsed s rq a).arr = s.arr ∧ (State.capUsed s rq a).vec = s.vec ∧ (State.capUsed s rq a).mxe = s.mxe ∧ (State.capUsed s rq a).upd = s.upd ∧ (State.capUsed s rq a).red = s.red ∧ (State.capUsed s rq a).tsk = s.tsk ∧ (State.capUsed s rq a).mem = s.mem ∧ (State.capUsed s rq a).hif = s.hif ∧ (State.capUsed s rq a).img = s.img ∧ (State.capUsed s rq a).pwr = s.pwr ∧ (State.capUsed s rq a).pending = s.pending := by
  exact ⟨rfl, rfl, rfl, rfl, rfl, rfl, rfl, rfl, rfl, rfl, rfl, rfl, rfl, rfl, rfl, rfl, rfl, rfl, rfl, rfl, rfl, rfl, rfl⟩


theorem State.irqFire_frame (s : State) (d src : Nat) :
    (State.irqFire s d src).regs = s.regs ∧ (State.irqFire s d src).pairLo = s.pairLo ∧ (State.irqFire s d src).pairCap = s.pairCap ∧ (State.irqFire s d src).out = s.out ∧ (State.irqFire s d src).free = s.free ∧ (State.irqFire s d src).policy = s.policy ∧ (State.irqFire s d src).err = s.err ∧ (State.irqFire s d src).chk = s.chk ∧ (State.irqFire s d src).snp = s.snp ∧ (State.irqFire s d src).ezl = s.ezl ∧ (State.irqFire s d src).stp = s.stp ∧ (State.irqFire s d src).fmt = s.fmt ∧ (State.irqFire s d src).arr = s.arr ∧ (State.irqFire s d src).vec = s.vec ∧ (State.irqFire s d src).mxe = s.mxe ∧ (State.irqFire s d src).upd = s.upd ∧ (State.irqFire s d src).red = s.red ∧ (State.irqFire s d src).tsk = s.tsk ∧ (State.irqFire s d src).mem = s.mem ∧ (State.irqFire s d src).hif = s.hif ∧ (State.irqFire s d src).img = s.img ∧ (State.irqFire s d src).pwr = s.pwr ∧ (State.irqFire s d src).pending = s.pending := by
  have fr1 := @State.setIrq_frame
  simp [State.irqFire, fr1]


theorem State.irqDelivered_frame (s : State) (d src : Nat) :
    (State.irqDelivered s d src).regs = s.regs ∧ (State.irqDelivered s d src).pairLo = s.pairLo ∧ (State.irqDelivered s d src).pairCap = s.pairCap ∧ (State.irqDelivered s d src).out = s.out ∧ (State.irqDelivered s d src).free = s.free ∧ (State.irqDelivered s d src).policy = s.policy ∧ (State.irqDelivered s d src).err = s.err ∧ (State.irqDelivered s d src).chk = s.chk ∧ (State.irqDelivered s d src).snp = s.snp ∧ (State.irqDelivered s d src).ezl = s.ezl ∧ (State.irqDelivered s d src).stp = s.stp ∧ (State.irqDelivered s d src).fmt = s.fmt ∧ (State.irqDelivered s d src).arr = s.arr ∧ (State.irqDelivered s d src).vec = s.vec ∧ (State.irqDelivered s d src).mxe = s.mxe ∧ (State.irqDelivered s d src).upd = s.upd ∧ (State.irqDelivered s d src).red = s.red ∧ (State.irqDelivered s d src).tsk = s.tsk ∧ (State.irqDelivered s d src).mem = s.mem ∧ (State.irqDelivered s d src).hif = s.hif ∧ (State.irqDelivered s d src).img = s.img ∧ (State.irqDelivered s d src).pwr = s.pwr ∧ (State.irqDelivered s d src).pending = s.pending := by
  have fr1 := @State.setIrq_frame
  simp [State.irqDelivered, fr1]


theorem State.irqRelevel_frame (s : State) (d src : Nat) :
    (State.irqRelevel s d src).regs = s.regs ∧ (State.irqRelevel s d src).pairLo = s.pairLo ∧ (State.irqRelevel s d src).pairCap = s.pairCap ∧ (State.irqRelevel s d src).out = s.out ∧ (State.irqRelevel s d src).free = s.free ∧ (State.irqRelevel s d src).policy = s.policy ∧ (State.irqRelevel s d src).err = s.err ∧ (State.irqRelevel s d src).chk = s.chk ∧ (State.irqRelevel s d src).snp = s.snp ∧ (State.irqRelevel s d src).ezl = s.ezl ∧ (State.irqRelevel s d src).stp = s.stp ∧ (State.irqRelevel s d src).fmt = s.fmt ∧ (State.irqRelevel s d src).arr = s.arr ∧ (State.irqRelevel s d src).vec = s.vec ∧ (State.irqRelevel s d src).mxe = s.mxe ∧ (State.irqRelevel s d src).upd = s.upd ∧ (State.irqRelevel s d src).red = s.red ∧ (State.irqRelevel s d src).tsk = s.tsk ∧ (State.irqRelevel s d src).mem = s.mem ∧ (State.irqRelevel s d src).hif = s.hif ∧ (State.irqRelevel s d src).img = s.img ∧ (State.irqRelevel s d src).pwr = s.pwr ∧ (State.irqRelevel s d src).pending = s.pending := by
  have fr1 := @State.setIrq_frame
  simp [State.irqRelevel, fr1]


theorem State.irqSpurious_frame (s : State) (d : Nat) :
    (State.irqSpurious s d).pairLo = s.pairLo ∧ (State.irqSpurious s d).pairCap = s.pairCap ∧ (State.irqSpurious s d).out = s.out ∧ (State.irqSpurious s d).free = s.free ∧ (State.irqSpurious s d).policy = s.policy ∧ (State.irqSpurious s d).chk = s.chk ∧ (State.irqSpurious s d).snp = s.snp ∧ (State.irqSpurious s d).irq = s.irq ∧ (State.irqSpurious s d).ezl = s.ezl ∧ (State.irqSpurious s d).stp = s.stp ∧ (State.irqSpurious s d).fmt = s.fmt ∧ (State.irqSpurious s d).arr = s.arr ∧ (State.irqSpurious s d).vec = s.vec ∧ (State.irqSpurious s d).mxe = s.mxe ∧ (State.irqSpurious s d).upd = s.upd ∧ (State.irqSpurious s d).red = s.red ∧ (State.irqSpurious s d).tsk = s.tsk ∧ (State.irqSpurious s d).mem = s.mem ∧ (State.irqSpurious s d).hif = s.hif ∧ (State.irqSpurious s d).img = s.img ∧ (State.irqSpurious s d).pwr = s.pwr ∧ (State.irqSpurious s d).pending = s.pending := by
  have fr1 := @State.eventLog_frame
  have fr2 := @State.incReg_frame
  simp [State.irqSpurious, fr1, fr2]


theorem State.irqTake_frame (s : State) (d c src : Nat) :
    (State.irqTake s d c src).regs = s.regs ∧ (State.irqTake s d c src).pairLo = s.pairLo ∧ (State.irqTake s d c src).pairCap = s.pairCap ∧ (State.irqTake s d c src).out = s.out ∧ (State.irqTake s d c src).free = s.free ∧ (State.irqTake s d c src).policy = s.policy ∧ (State.irqTake s d c src).err = s.err ∧ (State.irqTake s d c src).chk = s.chk ∧ (State.irqTake s d c src).snp = s.snp ∧ (State.irqTake s d c src).ezl = s.ezl ∧ (State.irqTake s d c src).stp = s.stp ∧ (State.irqTake s d c src).fmt = s.fmt ∧ (State.irqTake s d c src).arr = s.arr ∧ (State.irqTake s d c src).vec = s.vec ∧ (State.irqTake s d c src).upd = s.upd ∧ (State.irqTake s d c src).red = s.red ∧ (State.irqTake s d c src).tsk = s.tsk ∧ (State.irqTake s d c src).mem = s.mem ∧ (State.irqTake s d c src).hif = s.hif ∧ (State.irqTake s d c src).img = s.img ∧ (State.irqTake s d c src).pwr = s.pwr ∧ (State.irqTake s d c src).pending = s.pending := by
  have fr1 := @State.irqDelivered_frame
  have fr2 := @State.setIrq_frame
  simp [State.irqTake, fr1, fr2]


theorem State.coreReturns_frame (s : State) :
    (State.coreReturns s).regs = s.regs ∧ (State.coreReturns s).pairLo = s.pairLo ∧ (State.coreReturns s).pairCap = s.pairCap ∧ (State.coreReturns s).out = s.out ∧ (State.coreReturns s).free = s.free ∧ (State.coreReturns s).policy = s.policy ∧ (State.coreReturns s).err = s.err ∧ (State.coreReturns s).chk = s.chk ∧ (State.coreReturns s).snp = s.snp ∧ (State.coreReturns s).ezl = s.ezl ∧ (State.coreReturns s).stp = s.stp ∧ (State.coreReturns s).fmt = s.fmt ∧ (State.coreReturns s).arr = s.arr ∧ (State.coreReturns s).vec = s.vec ∧ (State.coreReturns s).mxe = s.mxe ∧ (State.coreReturns s).upd = s.upd ∧ (State.coreReturns s).red = s.red ∧ (State.coreReturns s).tsk = s.tsk ∧ (State.coreReturns s).mem = s.mem ∧ (State.coreReturns s).hif = s.hif ∧ (State.coreReturns s).img = s.img ∧ (State.coreReturns s).pwr = s.pwr ∧ (State.coreReturns s).pending = s.pending := by
  have fr1 := @State.setIrq_frame
  simp [State.coreReturns, fr1]


theorem State.irqMsgIssued_frame (s : State) (vec : Nat) :
    (State.irqMsgIssued s vec).regs = s.regs ∧ (State.irqMsgIssued s vec).pairLo = s.pairLo ∧ (State.irqMsgIssued s vec).pairCap = s.pairCap ∧ (State.irqMsgIssued s vec).out = s.out ∧ (State.irqMsgIssued s vec).free = s.free ∧ (State.irqMsgIssued s vec).policy = s.policy ∧ (State.irqMsgIssued s vec).err = s.err ∧ (State.irqMsgIssued s vec).chk = s.chk ∧ (State.irqMsgIssued s vec).snp = s.snp ∧ (State.irqMsgIssued s vec).ezl = s.ezl ∧ (State.irqMsgIssued s vec).stp = s.stp ∧ (State.irqMsgIssued s vec).fmt = s.fmt ∧ (State.irqMsgIssued s vec).arr = s.arr ∧ (State.irqMsgIssued s vec).vec = s.vec ∧ (State.irqMsgIssued s vec).mxe = s.mxe ∧ (State.irqMsgIssued s vec).upd = s.upd ∧ (State.irqMsgIssued s vec).red = s.red ∧ (State.irqMsgIssued s vec).tsk = s.tsk ∧ (State.irqMsgIssued s vec).mem = s.mem ∧ (State.irqMsgIssued s vec).hif = s.hif ∧ (State.irqMsgIssued s vec).img = s.img ∧ (State.irqMsgIssued s vec).pwr = s.pwr ∧ (State.irqMsgIssued s vec).pending = s.pending := by
  have fr1 := @State.irqDelivered_frame
  have fr2 := @State.setIrq_frame
  simp [State.irqMsgIssued, fr1, fr2]


theorem State.loadHolds_frame (s : State) :
    (State.loadHolds s).regs = s.regs ∧ (State.loadHolds s).pairLo = s.pairLo ∧ (State.loadHolds s).pairCap = s.pairCap ∧ (State.loadHolds s).out = s.out ∧ (State.loadHolds s).free = s.free ∧ (State.loadHolds s).policy = s.policy ∧ (State.loadHolds s).err = s.err ∧ (State.loadHolds s).chk = s.chk ∧ (State.loadHolds s).snp = s.snp ∧ (State.loadHolds s).ezl = s.ezl ∧ (State.loadHolds s).stp = s.stp ∧ (State.loadHolds s).fmt = s.fmt ∧ (State.loadHolds s).arr = s.arr ∧ (State.loadHolds s).vec = s.vec ∧ (State.loadHolds s).mxe = s.mxe ∧ (State.loadHolds s).upd = s.upd ∧ (State.loadHolds s).red = s.red ∧ (State.loadHolds s).tsk = s.tsk ∧ (State.loadHolds s).mem = s.mem ∧ (State.loadHolds s).hif = s.hif ∧ (State.loadHolds s).img = s.img ∧ (State.loadHolds s).pwr = s.pwr ∧ (State.loadHolds s).pending = s.pending := by
  have fr1 := @State.setIrq_frame
  simp [State.loadHolds, fr1]


theorem State.hostWrite_frame (s : State) (addr : Nat) (bytes : List Byte) :
    (State.hostWrite s addr bytes).pairLo = s.pairLo ∧ (State.hostWrite s addr bytes).pairCap = s.pairCap ∧ (State.hostWrite s addr bytes).free = s.free ∧ (State.hostWrite s addr bytes).policy = s.policy ∧ (State.hostWrite s addr bytes).err = s.err ∧ (State.hostWrite s addr bytes).chk = s.chk ∧ (State.hostWrite s addr bytes).snp = s.snp ∧ (State.hostWrite s addr bytes).irq = s.irq ∧ (State.hostWrite s addr bytes).stp = s.stp ∧ (State.hostWrite s addr bytes).fmt = s.fmt ∧ (State.hostWrite s addr bytes).arr = s.arr ∧ (State.hostWrite s addr bytes).vec = s.vec ∧ (State.hostWrite s addr bytes).mxe = s.mxe ∧ (State.hostWrite s addr bytes).upd = s.upd ∧ (State.hostWrite s addr bytes).red = s.red ∧ (State.hostWrite s addr bytes).tsk = s.tsk ∧ (State.hostWrite s addr bytes).mem = s.mem ∧ (State.hostWrite s addr bytes).hif = s.hif ∧ (State.hostWrite s addr bytes).img = s.img ∧ (State.hostWrite s addr bytes).pwr = s.pwr ∧ (State.hostWrite s addr bytes).pending = s.pending := by
  have fr1 := @State.emit_frame
  have fr2 := @State.sendRouted_frame
  simp [State.hostWrite, fr1, fr2]


theorem State.msixSend_frame (s : State) (v : Nat) :
    (State.msixSend s v).pairLo = s.pairLo ∧ (State.msixSend s v).pairCap = s.pairCap ∧ (State.msixSend s v).free = s.free ∧ (State.msixSend s v).policy = s.policy ∧ (State.msixSend s v).err = s.err ∧ (State.msixSend s v).chk = s.chk ∧ (State.msixSend s v).snp = s.snp ∧ (State.msixSend s v).stp = s.stp ∧ (State.msixSend s v).fmt = s.fmt ∧ (State.msixSend s v).arr = s.arr ∧ (State.msixSend s v).vec = s.vec ∧ (State.msixSend s v).mxe = s.mxe ∧ (State.msixSend s v).upd = s.upd ∧ (State.msixSend s v).red = s.red ∧ (State.msixSend s v).tsk = s.tsk ∧ (State.msixSend s v).mem = s.mem ∧ (State.msixSend s v).hif = s.hif ∧ (State.msixSend s v).img = s.img ∧ (State.msixSend s v).pwr = s.pwr ∧ (State.msixSend s v).pending = s.pending := by
  have fr1 := @State.emit_frame
  have fr2 := @State.hostWrite_frame
  have fr3 := @State.irqMsgIssued_frame
  have fr4 := @State.setRegB_frame
  simp [State.msixSend, fr1, fr2, fr3, fr4]


theorem State.raiseVector_frame (s : State) (v : Nat) :
    (State.raiseVector s v).regs = s.regs ∧ (State.raiseVector s v).pairLo = s.pairLo ∧ (State.raiseVector s v).pairCap = s.pairCap ∧ (State.raiseVector s v).out = s.out ∧ (State.raiseVector s v).free = s.free ∧ (State.raiseVector s v).policy = s.policy ∧ (State.raiseVector s v).err = s.err ∧ (State.raiseVector s v).chk = s.chk ∧ (State.raiseVector s v).snp = s.snp ∧ (State.raiseVector s v).ezl = s.ezl ∧ (State.raiseVector s v).stp = s.stp ∧ (State.raiseVector s v).fmt = s.fmt ∧ (State.raiseVector s v).arr = s.arr ∧ (State.raiseVector s v).vec = s.vec ∧ (State.raiseVector s v).mxe = s.mxe ∧ (State.raiseVector s v).upd = s.upd ∧ (State.raiseVector s v).red = s.red ∧ (State.raiseVector s v).tsk = s.tsk ∧ (State.raiseVector s v).mem = s.mem ∧ (State.raiseVector s v).hif = s.hif ∧ (State.raiseVector s v).img = s.img ∧ (State.raiseVector s v).pwr = s.pwr ∧ (State.raiseVector s v).pending = s.pending := by
  have fr1 := @State.irqFire_frame
  simp [State.raiseVector, fr1]


theorem State.setQueue_frame (s : State) (q : Nat) (x : QueueSt) :
    (State.setQueue s q x).regs = s.regs ∧ (State.setQueue s q x).pairLo = s.pairLo ∧ (State.setQueue s q x).pairCap = s.pairCap ∧ (State.setQueue s q x).out = s.out ∧ (State.setQueue s q x).free = s.free ∧ (State.setQueue s q x).policy = s.policy ∧ (State.setQueue s q x).err = s.err ∧ (State.setQueue s q x).chk = s.chk ∧ (State.setQueue s q x).snp = s.snp ∧ (State.setQueue s q x).irq = s.irq ∧ (State.setQueue s q x).ezl = s.ezl ∧ (State.setQueue s q x).stp = s.stp ∧ (State.setQueue s q x).fmt = s.fmt ∧ (State.setQueue s q x).arr = s.arr ∧ (State.setQueue s q x).vec = s.vec ∧ (State.setQueue s q x).mxe = s.mxe ∧ (State.setQueue s q x).upd = s.upd ∧ (State.setQueue s q x).red = s.red ∧ (State.setQueue s q x).tsk = s.tsk ∧ (State.setQueue s q x).mem = s.mem ∧ (State.setQueue s q x).img = s.img ∧ (State.setQueue s q x).pwr = s.pwr ∧ (State.setQueue s q x).pending = s.pending := by
  have fr1 := @State.modHif_frame
  simp [State.setQueue, fr1]


theorem State.setEnt_frame (s : State) (q i : Nat) (e : QEnt) :
    (State.setEnt s q i e).regs = s.regs ∧ (State.setEnt s q i e).pairLo = s.pairLo ∧ (State.setEnt s q i e).pairCap = s.pairCap ∧ (State.setEnt s q i e).out = s.out ∧ (State.setEnt s q i e).free = s.free ∧ (State.setEnt s q i e).policy = s.policy ∧ (State.setEnt s q i e).err = s.err ∧ (State.setEnt s q i e).chk = s.chk ∧ (State.setEnt s q i e).snp = s.snp ∧ (State.setEnt s q i e).irq = s.irq ∧ (State.setEnt s q i e).ezl = s.ezl ∧ (State.setEnt s q i e).stp = s.stp ∧ (State.setEnt s q i e).fmt = s.fmt ∧ (State.setEnt s q i e).arr = s.arr ∧ (State.setEnt s q i e).vec = s.vec ∧ (State.setEnt s q i e).mxe = s.mxe ∧ (State.setEnt s q i e).upd = s.upd ∧ (State.setEnt s q i e).red = s.red ∧ (State.setEnt s q i e).tsk = s.tsk ∧ (State.setEnt s q i e).mem = s.mem ∧ (State.setEnt s q i e).img = s.img ∧ (State.setEnt s q i e).pwr = s.pwr ∧ (State.setEnt s q i e).pending = s.pending := by
  have fr1 := @State.setQueue_frame
  simp [State.setEnt, fr1]


theorem State.postOne_frame (s : State) (q : Nat) :
    (State.postOne s q).pairLo = s.pairLo ∧ (State.postOne s q).pairCap = s.pairCap ∧ (State.postOne s q).free = s.free ∧ (State.postOne s q).policy = s.policy ∧ (State.postOne s q).err = s.err ∧ (State.postOne s q).chk = s.chk ∧ (State.postOne s q).snp = s.snp ∧ (State.postOne s q).stp = s.stp ∧ (State.postOne s q).fmt = s.fmt ∧ (State.postOne s q).arr = s.arr ∧ (State.postOne s q).vec = s.vec ∧ (State.postOne s q).mxe = s.mxe ∧ (State.postOne s q).upd = s.upd ∧ (State.postOne s q).red = s.red ∧ (State.postOne s q).tsk = s.tsk ∧ (State.postOne s q).mem = s.mem ∧ (State.postOne s q).img = s.img ∧ (State.postOne s q).pwr = s.pwr ∧ (State.postOne s q).pending = s.pending := by
  have fr1 := @State.hostWrite_frame
  have fr2 := @State.raiseVector_frame
  have fr3 := @State.setQueue_frame
  unfold State.postOne; dsimp only; (repeat' split) <;> simp [fr1, fr2, fr3]


theorem State.postAll_frame (s : State) (q : Nat) :
    (State.postAll s q).pairLo = s.pairLo ∧ (State.postAll s q).pairCap = s.pairCap ∧ (State.postAll s q).free = s.free ∧ (State.postAll s q).policy = s.policy ∧ (State.postAll s q).err = s.err ∧ (State.postAll s q).chk = s.chk ∧ (State.postAll s q).snp = s.snp ∧ (State.postAll s q).stp = s.stp ∧ (State.postAll s q).fmt = s.fmt ∧ (State.postAll s q).arr = s.arr ∧ (State.postAll s q).vec = s.vec ∧ (State.postAll s q).mxe = s.mxe ∧ (State.postAll s q).upd = s.upd ∧ (State.postAll s q).red = s.red ∧ (State.postAll s q).tsk = s.tsk ∧ (State.postAll s q).mem = s.mem ∧ (State.postAll s q).img = s.img ∧ (State.postAll s q).pwr = s.pwr ∧ (State.postAll s q).pending = s.pending := by
  have fr1 := @State.postOne_frame
  simp [State.postAll, fr1]


theorem State.entrySignal_frame (s : State) (e : QEnt) :
    (State.entrySignal s e).pairLo = s.pairLo ∧ (State.entrySignal s e).pairCap = s.pairCap ∧ (State.entrySignal s e).out = s.out ∧ (State.entrySignal s e).free = s.free ∧ (State.entrySignal s e).policy = s.policy ∧ (State.entrySignal s e).chk = s.chk ∧ (State.entrySignal s e).snp = s.snp ∧ (State.entrySignal s e).irq = s.irq ∧ (State.entrySignal s e).ezl = s.ezl ∧ (State.entrySignal s e).stp = s.stp ∧ (State.entrySignal s e).fmt = s.fmt ∧ (State.entrySignal s e).arr = s.arr ∧ (State.entrySignal s e).vec = s.vec ∧ (State.entrySignal s e).mxe = s.mxe ∧ (State.entrySignal s e).upd = s.upd ∧ (State.entrySignal s e).red = s.red ∧ (State.entrySignal s e).mem = s.mem ∧ (State.entrySignal s e).hif = s.hif ∧ (State.entrySignal s e).img = s.img ∧ (State.entrySignal s e).pwr = s.pwr ∧ (State.entrySignal s e).pending = s.pending := by
  have fr1 := @State.takeSignal_frame
  simp [State.entrySignal, fr1]


theorem State.completeEntry_frame (s : State) (q i status w8 wC crc : Nat) :
    (State.completeEntry s q i status w8 wC crc).pairLo = s.pairLo ∧ (State.completeEntry s q i status w8 wC crc).pairCap = s.pairCap ∧ (State.completeEntry s q i status w8 wC crc).free = s.free ∧ (State.completeEntry s q i status w8 wC crc).policy = s.policy ∧ (State.completeEntry s q i status w8 wC crc).chk = s.chk ∧ (State.completeEntry s q i status w8 wC crc).snp = s.snp ∧ (State.completeEntry s q i status w8 wC crc).stp = s.stp ∧ (State.completeEntry s q i status w8 wC crc).fmt = s.fmt ∧ (State.completeEntry s q i status w8 wC crc).arr = s.arr ∧ (State.completeEntry s q i status w8 wC crc).vec = s.vec ∧ (State.completeEntry s q i status w8 wC crc).mxe = s.mxe ∧ (State.completeEntry s q i status w8 wC crc).upd = s.upd ∧ (State.completeEntry s q i status w8 wC crc).red = s.red ∧ (State.completeEntry s q i status w8 wC crc).mem = s.mem ∧ (State.completeEntry s q i status w8 wC crc).img = s.img ∧ (State.completeEntry s q i status w8 wC crc).pwr = s.pwr ∧ (State.completeEntry s q i status w8 wC crc).pending = s.pending := by
  have fr1 := @State.entrySignal_frame
  have fr2 := @State.event_frame
  have fr3 := @State.postAll_frame
  have fr4 := @State.setQueue_frame
  unfold State.completeEntry; (repeat' split) <;> simp [fr1, fr2, fr3, fr4]


theorem State.hifFault_frame (s : State) (cause q detail : Nat) :
    (State.hifFault s cause q detail).pairLo = s.pairLo ∧ (State.hifFault s cause q detail).pairCap = s.pairCap ∧ (State.hifFault s cause q detail).out = s.out ∧ (State.hifFault s cause q detail).free = s.free ∧ (State.hifFault s cause q detail).policy = s.policy ∧ (State.hifFault s cause q detail).chk = s.chk ∧ (State.hifFault s cause q detail).snp = s.snp ∧ (State.hifFault s cause q detail).irq = s.irq ∧ (State.hifFault s cause q detail).ezl = s.ezl ∧ (State.hifFault s cause q detail).stp = s.stp ∧ (State.hifFault s cause q detail).fmt = s.fmt ∧ (State.hifFault s cause q detail).arr = s.arr ∧ (State.hifFault s cause q detail).vec = s.vec ∧ (State.hifFault s cause q detail).mxe = s.mxe ∧ (State.hifFault s cause q detail).upd = s.upd ∧ (State.hifFault s cause q detail).red = s.red ∧ (State.hifFault s cause q detail).tsk = s.tsk ∧ (State.hifFault s cause q detail).mem = s.mem ∧ (State.hifFault s cause q detail).hif = s.hif ∧ (State.hifFault s cause q detail).img = s.img ∧ (State.hifFault s cause q detail).pwr = s.pwr ∧ (State.hifFault s cause q detail).pending = s.pending := by
  have fr1 := @State.log_frame
  have fr2 := @State.setReg_frame
  simp [State.hifFault, fr1, fr2]


theorem State.settleOne_frame (s : State) (q : Nat) :
    (State.settleOne s q).pairLo = s.pairLo ∧ (State.settleOne s q).pairCap = s.pairCap ∧ (State.settleOne s q).free = s.free ∧ (State.settleOne s q).policy = s.policy ∧ (State.settleOne s q).chk = s.chk ∧ (State.settleOne s q).snp = s.snp ∧ (State.settleOne s q).stp = s.stp ∧ (State.settleOne s q).fmt = s.fmt ∧ (State.settleOne s q).arr = s.arr ∧ (State.settleOne s q).vec = s.vec ∧ (State.settleOne s q).mxe = s.mxe ∧ (State.settleOne s q).upd = s.upd ∧ (State.settleOne s q).red = s.red ∧ (State.settleOne s q).mem = s.mem ∧ (State.settleOne s q).img = s.img ∧ (State.settleOne s q).pwr = s.pwr ∧ (State.settleOne s q).pending = s.pending := by
  have fr1 := @State.completeEntry_frame
  have fr2 := @State.hifFault_frame
  unfold State.settleOne; (repeat' split) <;> simp [fr1, fr2]


theorem State.settle_frame (s : State) (q : Nat) :
    (State.settle s q).pairLo = s.pairLo ∧ (State.settle s q).pairCap = s.pairCap ∧ (State.settle s q).free = s.free ∧ (State.settle s q).policy = s.policy ∧ (State.settle s q).chk = s.chk ∧ (State.settle s q).snp = s.snp ∧ (State.settle s q).stp = s.stp ∧ (State.settle s q).fmt = s.fmt ∧ (State.settle s q).arr = s.arr ∧ (State.settle s q).vec = s.vec ∧ (State.settle s q).mxe = s.mxe ∧ (State.settle s q).upd = s.upd ∧ (State.settle s q).red = s.red ∧ (State.settle s q).mem = s.mem ∧ (State.settle s q).img = s.img ∧ (State.settle s q).pwr = s.pwr ∧ (State.settle s q).pending = s.pending := by
  have fr1 := @State.settleOne_frame
  simp [State.settle, fr1]


theorem State.settleAll_frame (s : State) :
    (State.settleAll s).pairLo = s.pairLo ∧ (State.settleAll s).pairCap = s.pairCap ∧ (State.settleAll s).free = s.free ∧ (State.settleAll s).policy = s.policy ∧ (State.settleAll s).chk = s.chk ∧ (State.settleAll s).snp = s.snp ∧ (State.settleAll s).stp = s.stp ∧ (State.settleAll s).fmt = s.fmt ∧ (State.settleAll s).arr = s.arr ∧ (State.settleAll s).vec = s.vec ∧ (State.settleAll s).mxe = s.mxe ∧ (State.settleAll s).upd = s.upd ∧ (State.settleAll s).red = s.red ∧ (State.settleAll s).mem = s.mem ∧ (State.settleAll s).img = s.img ∧ (State.settleAll s).pwr = s.pwr ∧ (State.settleAll s).pending = s.pending := by
  have fr1 := @State.settle_frame
  simp [State.settleAll, fr1]


theorem State.launchOver_frame (s : State) (src : LaunchSrc) (ok : Bool) :
    (State.launchOver s src ok).pairLo = s.pairLo ∧ (State.launchOver s src ok).pairCap = s.pairCap ∧ (State.launchOver s src ok).free = s.free ∧ (State.launchOver s src ok).policy = s.policy ∧ (State.launchOver s src ok).chk = s.chk ∧ (State.launchOver s src ok).snp = s.snp ∧ (State.launchOver s src ok).stp = s.stp ∧ (State.launchOver s src ok).fmt = s.fmt ∧ (State.launchOver s src ok).arr = s.arr ∧ (State.launchOver s src ok).vec = s.vec ∧ (State.launchOver s src ok).mxe = s.mxe ∧ (State.launchOver s src ok).upd = s.upd ∧ (State.launchOver s src ok).red = s.red ∧ (State.launchOver s src ok).img = s.img ∧ (State.launchOver s src ok).pwr = s.pwr ∧ (State.launchOver s src ok).pending = s.pending := by
  have fr1 := @State.completeEntry_frame
  have fr2 := @State.setCtx_frame
  have fr3 := @State.settle_frame
  unfold State.launchOver; dsimp only; (repeat' split) <;> simp [fr1, fr2, fr3]


@[simp] theorem State.abortUnstarted_pairLo (s : State) (q : Nat) : (State.abortUnstarted s q).pairLo = s.pairLo := by
  have fr1 := @State.completeEntry_frame
  unfold State.abortUnstarted
  refine State.foldl_pairLo _ (fun s k => ?_) _ _
  (repeat' split) <;> simp [fr1]

@[simp] theorem State.abortUnstarted_pairCap (s : State) (q : Nat) : (State.abortUnstarted s q).pairCap = s.pairCap := by
  have fr1 := @State.completeEntry_frame
  unfold State.abortUnstarted
  refine State.foldl_pairCap _ (fun s k => ?_) _ _
  (repeat' split) <;> simp [fr1]

@[simp] theorem State.abortUnstarted_free (s : State) (q : Nat) : (State.abortUnstarted s q).free = s.free := by
  have fr1 := @State.completeEntry_frame
  unfold State.abortUnstarted
  refine State.foldl_free _ (fun s k => ?_) _ _
  (repeat' split) <;> simp [fr1]

@[simp] theorem State.abortUnstarted_policy (s : State) (q : Nat) : (State.abortUnstarted s q).policy = s.policy := by
  have fr1 := @State.completeEntry_frame
  unfold State.abortUnstarted
  refine State.foldl_policy _ (fun s k => ?_) _ _
  (repeat' split) <;> simp [fr1]

@[simp] theorem State.abortUnstarted_chk (s : State) (q : Nat) : (State.abortUnstarted s q).chk = s.chk := by
  have fr1 := @State.completeEntry_frame
  unfold State.abortUnstarted
  refine State.foldl_chk _ (fun s k => ?_) _ _
  (repeat' split) <;> simp [fr1]

@[simp] theorem State.abortUnstarted_snp (s : State) (q : Nat) : (State.abortUnstarted s q).snp = s.snp := by
  have fr1 := @State.completeEntry_frame
  unfold State.abortUnstarted
  refine State.foldl_snp _ (fun s k => ?_) _ _
  (repeat' split) <;> simp [fr1]

@[simp] theorem State.abortUnstarted_stp (s : State) (q : Nat) : (State.abortUnstarted s q).stp = s.stp := by
  have fr1 := @State.completeEntry_frame
  unfold State.abortUnstarted
  refine State.foldl_stp _ (fun s k => ?_) _ _
  (repeat' split) <;> simp [fr1]

@[simp] theorem State.abortUnstarted_fmt (s : State) (q : Nat) : (State.abortUnstarted s q).fmt = s.fmt := by
  have fr1 := @State.completeEntry_frame
  unfold State.abortUnstarted
  refine State.foldl_fmt _ (fun s k => ?_) _ _
  (repeat' split) <;> simp [fr1]

@[simp] theorem State.abortUnstarted_arr (s : State) (q : Nat) : (State.abortUnstarted s q).arr = s.arr := by
  have fr1 := @State.completeEntry_frame
  unfold State.abortUnstarted
  refine State.foldl_arr _ (fun s k => ?_) _ _
  (repeat' split) <;> simp [fr1]

@[simp] theorem State.abortUnstarted_vec (s : State) (q : Nat) : (State.abortUnstarted s q).vec = s.vec := by
  have fr1 := @State.completeEntry_frame
  unfold State.abortUnstarted
  refine State.foldl_vec _ (fun s k => ?_) _ _
  (repeat' split) <;> simp [fr1]

@[simp] theorem State.abortUnstarted_mxe (s : State) (q : Nat) : (State.abortUnstarted s q).mxe = s.mxe := by
  have fr1 := @State.completeEntry_frame
  unfold State.abortUnstarted
  refine State.foldl_mxe _ (fun s k => ?_) _ _
  (repeat' split) <;> simp [fr1]

@[simp] theorem State.abortUnstarted_upd (s : State) (q : Nat) : (State.abortUnstarted s q).upd = s.upd := by
  have fr1 := @State.completeEntry_frame
  unfold State.abortUnstarted
  refine State.foldl_upd _ (fun s k => ?_) _ _
  (repeat' split) <;> simp [fr1]

@[simp] theorem State.abortUnstarted_red (s : State) (q : Nat) : (State.abortUnstarted s q).red = s.red := by
  have fr1 := @State.completeEntry_frame
  unfold State.abortUnstarted
  refine State.foldl_red _ (fun s k => ?_) _ _
  (repeat' split) <;> simp [fr1]

@[simp] theorem State.abortUnstarted_mem (s : State) (q : Nat) : (State.abortUnstarted s q).mem = s.mem := by
  have fr1 := @State.completeEntry_frame
  unfold State.abortUnstarted
  refine State.foldl_mem _ (fun s k => ?_) _ _
  (repeat' split) <;> simp [fr1]

@[simp] theorem State.abortUnstarted_img (s : State) (q : Nat) : (State.abortUnstarted s q).img = s.img := by
  have fr1 := @State.completeEntry_frame
  unfold State.abortUnstarted
  refine State.foldl_img _ (fun s k => ?_) _ _
  (repeat' split) <;> simp [fr1]

@[simp] theorem State.abortUnstarted_pwr (s : State) (q : Nat) : (State.abortUnstarted s q).pwr = s.pwr := by
  have fr1 := @State.completeEntry_frame
  unfold State.abortUnstarted
  refine State.foldl_pwr _ (fun s k => ?_) _ _
  (repeat' split) <;> simp [fr1]

@[simp] theorem State.abortUnstarted_pending (s : State) (q : Nat) : (State.abortUnstarted s q).pending = s.pending := by
  have fr1 := @State.completeEntry_frame
  unfold State.abortUnstarted
  refine State.foldl_pending _ (fun s k => ?_) _ _
  (repeat' split) <;> simp [fr1]


theorem State.disableQueue_frame (s : State) (q : Nat) :
    (State.disableQueue s q).pairLo = s.pairLo ∧ (State.disableQueue s q).pairCap = s.pairCap ∧ (State.disableQueue s q).free = s.free ∧ (State.disableQueue s q).policy = s.policy ∧ (State.disableQueue s q).chk = s.chk ∧ (State.disableQueue s q).snp = s.snp ∧ (State.disableQueue s q).stp = s.stp ∧ (State.disableQueue s q).fmt = s.fmt ∧ (State.disableQueue s q).arr = s.arr ∧ (State.disableQueue s q).vec = s.vec ∧ (State.disableQueue s q).mxe = s.mxe ∧ (State.disableQueue s q).upd = s.upd ∧ (State.disableQueue s q).red = s.red ∧ (State.disableQueue s q).mem = s.mem ∧ (State.disableQueue s q).img = s.img ∧ (State.disableQueue s q).pwr = s.pwr ∧ (State.disableQueue s q).pending = s.pending := by
  have fr1 := @State.setQueue_frame
  simp [State.disableQueue, fr1]


theorem State.hostFault_frame (s : State) (q : Nat) :
    (State.hostFault s q).pairLo = s.pairLo ∧ (State.hostFault s q).pairCap = s.pairCap ∧ (State.hostFault s q).out = s.out ∧ (State.hostFault s q).free = s.free ∧ (State.hostFault s q).policy = s.policy ∧ (State.hostFault s q).chk = s.chk ∧ (State.hostFault s q).snp = s.snp ∧ (State.hostFault s q).irq = s.irq ∧ (State.hostFault s q).ezl = s.ezl ∧ (State.hostFault s q).stp = s.stp ∧ (State.hostFault s q).fmt = s.fmt ∧ (State.hostFault s q).arr = s.arr ∧ (State.hostFault s q).vec = s.vec ∧ (State.hostFault s q).mxe = s.mxe ∧ (State.hostFault s q).upd = s.upd ∧ (State.hostFault s q).red = s.red ∧ (State.hostFault s q).tsk = s.tsk ∧ (State.hostFault s q).mem = s.mem ∧ (State.hostFault s q).hif = s.hif ∧ (State.hostFault s q).img = s.img ∧ (State.hostFault s q).pwr = s.pwr ∧ (State.hostFault s q).pending = s.pending := by
  have fr1 := @State.hifFault_frame
  have fr2 := @State.incReg_frame
  simp [State.hostFault, fr1, fr2]


theorem State.hostError_frame (s : State) (q : Nat) :
    (State.hostError s q).pairLo = s.pairLo ∧ (State.hostError s q).pairCap = s.pairCap ∧ (State.hostError s q).out = s.out ∧ (State.hostError s q).free = s.free ∧ (State.hostError s q).policy = s.policy ∧ (State.hostError s q).chk = s.chk ∧ (State.hostError s q).snp = s.snp ∧ (State.hostError s q).irq = s.irq ∧ (State.hostError s q).ezl = s.ezl ∧ (State.hostError s q).stp = s.stp ∧ (State.hostError s q).fmt = s.fmt ∧ (State.hostError s q).arr = s.arr ∧ (State.hostError s q).vec = s.vec ∧ (State.hostError s q).mxe = s.mxe ∧ (State.hostError s q).upd = s.upd ∧ (State.hostError s q).red = s.red ∧ (State.hostError s q).tsk = s.tsk ∧ (State.hostError s q).mem = s.mem ∧ (State.hostError s q).img = s.img ∧ (State.hostError s q).pwr = s.pwr ∧ (State.hostError s q).pending = s.pending := by
  have fr1 := @State.hostFault_frame
  have fr2 := @State.setQueue_frame
  have fr3 := @State.hifFault_frame
  have fr4 := @State.incReg_frame
  simp [State.hostError, fr1, fr2, fr3, fr4]


theorem State.takePol_frame (s : State) (a : Nat) :
    (State.takePol s a).regs = s.regs ∧ (State.takePol s a).pairLo = s.pairLo ∧ (State.takePol s a).pairCap = s.pairCap ∧ (State.takePol s a).out = s.out ∧ (State.takePol s a).free = s.free ∧ (State.takePol s a).err = s.err ∧ (State.takePol s a).chk = s.chk ∧ (State.takePol s a).snp = s.snp ∧ (State.takePol s a).irq = s.irq ∧ (State.takePol s a).ezl = s.ezl ∧ (State.takePol s a).stp = s.stp ∧ (State.takePol s a).fmt = s.fmt ∧ (State.takePol s a).arr = s.arr ∧ (State.takePol s a).vec = s.vec ∧ (State.takePol s a).mxe = s.mxe ∧ (State.takePol s a).upd = s.upd ∧ (State.takePol s a).red = s.red ∧ (State.takePol s a).tsk = s.tsk ∧ (State.takePol s a).mem = s.mem ∧ (State.takePol s a).hif = s.hif ∧ (State.takePol s a).img = s.img ∧ (State.takePol s a).pwr = s.pwr ∧ (State.takePol s a).pending = s.pending := by
  exact ⟨rfl, rfl, rfl, rfl, rfl, rfl, rfl, rfl, rfl, rfl, rfl, rfl, rfl, rfl, rfl, rfl, rfl, rfl, rfl, rfl, rfl, rfl, rfl⟩


theorem State.badParam_frame (s : State) (a : Nat) :
    (State.badParam s a).pairLo = s.pairLo ∧ (State.badParam s a).pairCap = s.pairCap ∧ (State.badParam s a).out = s.out ∧ (State.badParam s a).free = s.free ∧ (State.badParam s a).policy = s.policy ∧ (State.badParam s a).chk = s.chk ∧ (State.badParam s a).snp = s.snp ∧ (State.badParam s a).irq = s.irq ∧ (State.badParam s a).ezl = s.ezl ∧ (State.badParam s a).stp = s.stp ∧ (State.badParam s a).fmt = s.fmt ∧ (State.badParam s a).arr = s.arr ∧ (State.badParam s a).vec = s.vec ∧ (State.badParam s a).mxe = s.mxe ∧ (State.badParam s a).upd = s.upd ∧ (State.badParam s a).red = s.red ∧ (State.badParam s a).tsk = s.tsk ∧ (State.badParam s a).mem = s.mem ∧ (State.badParam s a).hif = s.hif ∧ (State.badParam s a).img = s.img ∧ (State.badParam s a).pwr = s.pwr ∧ (State.badParam s a).pending = s.pending := by
  have fr1 := @State.eventLog_frame
  simp [State.badParam, fr1]


theorem State.takePolicy_frame (s : State) :
    (State.takePolicy s).pairLo = s.pairLo ∧ (State.takePolicy s).pairCap = s.pairCap ∧ (State.takePolicy s).out = s.out ∧ (State.takePolicy s).free = s.free ∧ (State.takePolicy s).chk = s.chk ∧ (State.takePolicy s).snp = s.snp ∧ (State.takePolicy s).irq = s.irq ∧ (State.takePolicy s).ezl = s.ezl ∧ (State.takePolicy s).stp = s.stp ∧ (State.takePolicy s).fmt = s.fmt ∧ (State.takePolicy s).arr = s.arr ∧ (State.takePolicy s).vec = s.vec ∧ (State.takePolicy s).mxe = s.mxe ∧ (State.takePolicy s).upd = s.upd ∧ (State.takePolicy s).red = s.red ∧ (State.takePolicy s).tsk = s.tsk ∧ (State.takePolicy s).mem = s.mem ∧ (State.takePolicy s).hif = s.hif ∧ (State.takePolicy s).img = s.img ∧ (State.takePolicy s).pwr = s.pwr ∧ (State.takePolicy s).pending = s.pending := by
  have fr1 := @State.badParam_frame
  have fr2 := @State.log_frame
  have fr3 := @State.takePol_frame
  have fr4 := @State.event_frame
  simp [State.takePolicy, fr1, fr2, fr3, fr4]


theorem State.dutySet_frame (s : State) (mask : Nat) :
    (State.dutySet s mask).pairLo = s.pairLo ∧ (State.dutySet s mask).pairCap = s.pairCap ∧ (State.dutySet s mask).out = s.out ∧ (State.dutySet s mask).free = s.free ∧ (State.dutySet s mask).policy = s.policy ∧ (State.dutySet s mask).err = s.err ∧ (State.dutySet s mask).chk = s.chk ∧ (State.dutySet s mask).snp = s.snp ∧ (State.dutySet s mask).irq = s.irq ∧ (State.dutySet s mask).ezl = s.ezl ∧ (State.dutySet s mask).stp = s.stp ∧ (State.dutySet s mask).fmt = s.fmt ∧ (State.dutySet s mask).arr = s.arr ∧ (State.dutySet s mask).vec = s.vec ∧ (State.dutySet s mask).mxe = s.mxe ∧ (State.dutySet s mask).upd = s.upd ∧ (State.dutySet s mask).red = s.red ∧ (State.dutySet s mask).tsk = s.tsk ∧ (State.dutySet s mask).mem = s.mem ∧ (State.dutySet s mask).hif = s.hif ∧ (State.dutySet s mask).img = s.img ∧ (State.dutySet s mask).pwr = s.pwr ∧ (State.dutySet s mask).pending = s.pending := by
  have fr1 := @State.setRegN_frame
  simp [State.dutySet, fr1]


theorem State.dutyCtx_frame (s : State) :
    (State.dutyCtx s).pairLo = s.pairLo ∧ (State.dutyCtx s).pairCap = s.pairCap ∧ (State.dutyCtx s).out = s.out ∧ (State.dutyCtx s).free = s.free ∧ (State.dutyCtx s).policy = s.policy ∧ (State.dutyCtx s).err = s.err ∧ (State.dutyCtx s).chk = s.chk ∧ (State.dutyCtx s).snp = s.snp ∧ (State.dutyCtx s).irq = s.irq ∧ (State.dutyCtx s).ezl = s.ezl ∧ (State.dutyCtx s).stp = s.stp ∧ (State.dutyCtx s).fmt = s.fmt ∧ (State.dutyCtx s).arr = s.arr ∧ (State.dutyCtx s).vec = s.vec ∧ (State.dutyCtx s).mxe = s.mxe ∧ (State.dutyCtx s).upd = s.upd ∧ (State.dutyCtx s).red = s.red ∧ (State.dutyCtx s).tsk = s.tsk ∧ (State.dutyCtx s).mem = s.mem ∧ (State.dutyCtx s).hif = s.hif ∧ (State.dutyCtx s).img = s.img ∧ (State.dutyCtx s).pwr = s.pwr ∧ (State.dutyCtx s).pending = s.pending := by
  have fr1 := @State.dutySet_frame
  simp [State.dutyCtx, fr1]


theorem State.dutyTrain_frame (s : State) :
    (State.dutyTrain s).regs = s.regs ∧ (State.dutyTrain s).pairLo = s.pairLo ∧ (State.dutyTrain s).pairCap = s.pairCap ∧ (State.dutyTrain s).out = s.out ∧ (State.dutyTrain s).free = s.free ∧ (State.dutyTrain s).err = s.err ∧ (State.dutyTrain s).chk = s.chk ∧ (State.dutyTrain s).snp = s.snp ∧ (State.dutyTrain s).irq = s.irq ∧ (State.dutyTrain s).ezl = s.ezl ∧ (State.dutyTrain s).stp = s.stp ∧ (State.dutyTrain s).fmt = s.fmt ∧ (State.dutyTrain s).arr = s.arr ∧ (State.dutyTrain s).vec = s.vec ∧ (State.dutyTrain s).mxe = s.mxe ∧ (State.dutyTrain s).upd = s.upd ∧ (State.dutyTrain s).red = s.red ∧ (State.dutyTrain s).tsk = s.tsk ∧ (State.dutyTrain s).mem = s.mem ∧ (State.dutyTrain s).hif = s.hif ∧ (State.dutyTrain s).img = s.img ∧ (State.dutyTrain s).pwr = s.pwr ∧ (State.dutyTrain s).pending = s.pending := by
  exact ⟨rfl, rfl, rfl, rfl, rfl, rfl, rfl, rfl, rfl, rfl, rfl, rfl, rfl, rfl, rfl, rfl, rfl, rfl, rfl, rfl, rfl, rfl, rfl⟩


theorem State.dutyBound_frame (s : State) :
    (State.dutyBound s).pairLo = s.pairLo ∧ (State.dutyBound s).pairCap = s.pairCap ∧ (State.dutyBound s).out = s.out ∧ (State.dutyBound s).free = s.free ∧ (State.dutyBound s).policy = s.policy ∧ (State.dutyBound s).err = s.err ∧ (State.dutyBound s).chk = s.chk ∧ (State.dutyBound s).snp = s.snp ∧ (State.dutyBound s).ezl = s.ezl ∧ (State.dutyBound s).stp = s.stp ∧ (State.dutyBound s).fmt = s.fmt ∧ (State.dutyBound s).arr = s.arr ∧ (State.dutyBound s).vec = s.vec ∧ (State.dutyBound s).mxe = s.mxe ∧ (State.dutyBound s).upd = s.upd ∧ (State.dutyBound s).red = s.red ∧ (State.dutyBound s).tsk = s.tsk ∧ (State.dutyBound s).mem = s.mem ∧ (State.dutyBound s).hif = s.hif ∧ (State.dutyBound s).img = s.img ∧ (State.dutyBound s).pwr = s.pwr ∧ (State.dutyBound s).pending = s.pending := by
  have fr1 := @State.dutySet_frame
  have fr2 := @State.loadHolds_frame
  simp [State.dutyBound, fr1, fr2]


theorem State.orderBound_frame (s : State) :
    (State.orderBound s).pairLo = s.pairLo ∧ (State.orderBound s).pairCap = s.pairCap ∧ (State.orderBound s).out = s.out ∧ (State.orderBound s).free = s.free ∧ (State.orderBound s).policy = s.policy ∧ (State.orderBound s).err = s.err ∧ (State.orderBound s).chk = s.chk ∧ (State.orderBound s).snp = s.snp ∧ (State.orderBound s).irq = s.irq ∧ (State.orderBound s).ezl = s.ezl ∧ (State.orderBound s).stp = s.stp ∧ (State.orderBound s).fmt = s.fmt ∧ (State.orderBound s).arr = s.arr ∧ (State.orderBound s).vec = s.vec ∧ (State.orderBound s).mxe = s.mxe ∧ (State.orderBound s).upd = s.upd ∧ (State.orderBound s).red = s.red ∧ (State.orderBound s).tsk = s.tsk ∧ (State.orderBound s).mem = s.mem ∧ (State.orderBound s).hif = s.hif ∧ (State.orderBound s).img = s.img ∧ (State.orderBound s).pwr = s.pwr ∧ (State.orderBound s).pending = s.pending := by
  have fr1 := @State.dutySet_frame
  simp [State.orderBound, fr1]


theorem State.heldPoint_frame (s : State) :
    (State.heldPoint s).pairLo = s.pairLo ∧ (State.heldPoint s).pairCap = s.pairCap ∧ (State.heldPoint s).out = s.out ∧ (State.heldPoint s).free = s.free ∧ (State.heldPoint s).policy = s.policy ∧ (State.heldPoint s).chk = s.chk ∧ (State.heldPoint s).snp = s.snp ∧ (State.heldPoint s).irq = s.irq ∧ (State.heldPoint s).ezl = s.ezl ∧ (State.heldPoint s).stp = s.stp ∧ (State.heldPoint s).fmt = s.fmt ∧ (State.heldPoint s).vec = s.vec ∧ (State.heldPoint s).mxe = s.mxe ∧ (State.heldPoint s).upd = s.upd ∧ (State.heldPoint s).red = s.red ∧ (State.heldPoint s).tsk = s.tsk ∧ (State.heldPoint s).mem = s.mem ∧ (State.heldPoint s).hif = s.hif ∧ (State.heldPoint s).img = s.img ∧ (State.heldPoint s).pwr = s.pwr ∧ (State.heldPoint s).pending = s.pending := by
  have fr1 := @State.modArr_frame
  simp [State.heldPoint, fr1]


theorem State.takeStepSize_frame (s : State) (t : Nat) :
    (State.takeStepSize s t).pairLo = s.pairLo ∧ (State.takeStepSize s t).pairCap = s.pairCap ∧ (State.takeStepSize s t).out = s.out ∧ (State.takeStepSize s t).free = s.free ∧ (State.takeStepSize s t).policy = s.policy ∧ (State.takeStepSize s t).chk = s.chk ∧ (State.takeStepSize s t).snp = s.snp ∧ (State.takeStepSize s t).irq = s.irq ∧ (State.takeStepSize s t).ezl = s.ezl ∧ (State.takeStepSize s t).stp = s.stp ∧ (State.takeStepSize s t).fmt = s.fmt ∧ (State.takeStepSize s t).arr = s.arr ∧ (State.takeStepSize s t).vec = s.vec ∧ (State.takeStepSize s t).mxe = s.mxe ∧ (State.takeStepSize s t).red = s.red ∧ (State.takeStepSize s t).tsk = s.tsk ∧ (State.takeStepSize s t).mem = s.mem ∧ (State.takeStepSize s t).hif = s.hif ∧ (State.takeStepSize s t).img = s.img ∧ (State.takeStepSize s t).pwr = s.pwr ∧ (State.takeStepSize s t).pending = s.pending := by
  have fr1 := @State.event_frame
  have fr2 := @State.eventLog_frame
  have fr3 := @State.modUpd_frame
  have fr4 := @State.setReg_frame
  simp [State.takeStepSize, fr1, fr2, fr3, fr4]


theorem State.formConsts_frame (s : State) (t : Nat) :
    (State.formConsts s t).regs = s.regs ∧ (State.formConsts s t).pairLo = s.pairLo ∧ (State.formConsts s t).pairCap = s.pairCap ∧ (State.formConsts s t).out = s.out ∧ (State.formConsts s t).free = s.free ∧ (State.formConsts s t).policy = s.policy ∧ (State.formConsts s t).err = s.err ∧ (State.formConsts s t).chk = s.chk ∧ (State.formConsts s t).snp = s.snp ∧ (State.formConsts s t).irq = s.irq ∧ (State.formConsts s t).ezl = s.ezl ∧ (State.formConsts s t).stp = s.stp ∧ (State.formConsts s t).fmt = s.fmt ∧ (State.formConsts s t).arr = s.arr ∧ (State.formConsts s t).vec = s.vec ∧ (State.formConsts s t).mxe = s.mxe ∧ (State.formConsts s t).red = s.red ∧ (State.formConsts s t).tsk = s.tsk ∧ (State.formConsts s t).mem = s.mem ∧ (State.formConsts s t).hif = s.hif ∧ (State.formConsts s t).img = s.img ∧ (State.formConsts s t).pwr = s.pwr ∧ (State.formConsts s t).pending = s.pending := by
  have fr1 := @State.modUpd_frame
  simp [State.formConsts, fr1]


theorem State.takeStash_frame (s : State) :
    (State.takeStash s).regs = s.regs ∧ (State.takeStash s).pairLo = s.pairLo ∧ (State.takeStash s).pairCap = s.pairCap ∧ (State.takeStash s).out = s.out ∧ (State.takeStash s).free = s.free ∧ (State.takeStash s).policy = s.policy ∧ (State.takeStash s).err = s.err ∧ (State.takeStash s).chk = s.chk ∧ (State.takeStash s).snp = s.snp ∧ (State.takeStash s).irq = s.irq ∧ (State.takeStash s).ezl = s.ezl ∧ (State.takeStash s).stp = s.stp ∧ (State.takeStash s).fmt = s.fmt ∧ (State.takeStash s).arr = s.arr ∧ (State.takeStash s).vec = s.vec ∧ (State.takeStash s).mxe = s.mxe ∧ (State.takeStash s).upd = s.upd ∧ (State.takeStash s).red = s.red ∧ (State.takeStash s).tsk = s.tsk ∧ (State.takeStash s).hif = s.hif ∧ (State.takeStash s).img = s.img ∧ (State.takeStash s).pwr = s.pwr ∧ (State.takeStash s).pending = s.pending := by
  have fr1 := @State.modMem_frame
  simp [State.takeStash, fr1]


theorem State.formStash_frame (s : State) :
    (State.formStash s).pairLo = s.pairLo ∧ (State.formStash s).pairCap = s.pairCap ∧ (State.formStash s).out = s.out ∧ (State.formStash s).free = s.free ∧ (State.formStash s).policy = s.policy ∧ (State.formStash s).err = s.err ∧ (State.formStash s).chk = s.chk ∧ (State.formStash s).snp = s.snp ∧ (State.formStash s).irq = s.irq ∧ (State.formStash s).ezl = s.ezl ∧ (State.formStash s).stp = s.stp ∧ (State.formStash s).fmt = s.fmt ∧ (State.formStash s).arr = s.arr ∧ (State.formStash s).vec = s.vec ∧ (State.formStash s).mxe = s.mxe ∧ (State.formStash s).upd = s.upd ∧ (State.formStash s).red = s.red ∧ (State.formStash s).tsk = s.tsk ∧ (State.formStash s).hif = s.hif ∧ (State.formStash s).img = s.img ∧ (State.formStash s).pwr = s.pwr ∧ (State.formStash s).pending = s.pending := by
  have fr1 := @State.event_frame
  have fr2 := @State.modMem_frame
  simp [State.formStash, fr1, fr2]


theorem State.newStep_frame (s : State) (t : Nat) :
    (State.newStep s t).pairLo = s.pairLo ∧ (State.newStep s t).pairCap = s.pairCap ∧ (State.newStep s t).out = s.out ∧ (State.newStep s t).free = s.free ∧ (State.newStep s t).chk = s.chk ∧ (State.newStep s t).snp = s.snp ∧ (State.newStep s t).ezl = s.ezl ∧ (State.newStep s t).vec = s.vec ∧ (State.newStep s t).mxe = s.mxe ∧ (State.newStep s t).red = s.red ∧ (State.newStep s t).tsk = s.tsk ∧ (State.newStep s t).hif = s.hif ∧ (State.newStep s t).img = s.img ∧ (State.newStep s t).pwr = s.pwr ∧ (State.newStep s t).pending = s.pending := by
  have fr1 := @State.dutyBound_frame
  have fr2 := @State.dutyCtx_frame
  have fr3 := @State.dutySet_frame
  have fr4 := @State.dutyTrain_frame
  have fr5 := @State.event_frame
  have fr6 := @State.formConsts_frame
  have fr7 := @State.formStash_frame
  have fr8 := @State.gradFormats_frame
  have fr9 := @State.imageChanges_frame
  have fr10 := @State.imageSeq_frame
  have fr11 := @State.logHostExp_frame
  have fr12 := @State.modArr_frame
  have fr13 := @State.modFmt_frame
  have fr14 := @State.msRefresh_frame
  have fr15 := @State.phaseStep_frame
  have fr16 := @State.takePolicy_frame
  have fr17 := @State.takeStash_frame
  have fr18 := @State.takeStepSize_frame
  have fr19 := @State.trainRanges_frame
  have fr20 := @State.trimChanges_frame
  simp only [State.newStep]; (repeat' split) <;> simp [fr1, fr2, fr3, fr4, fr5, fr6, fr7, fr8, fr9, fr10, fr11, fr12, fr13, fr14, fr15, fr16, fr17, fr18, fr19, fr20]


theorem State.genPoint_frame (s : State) :
    (State.genPoint s).pairLo = s.pairLo ∧ (State.genPoint s).pairCap = s.pairCap ∧ (State.genPoint s).out = s.out ∧ (State.genPoint s).free = s.free ∧ (State.genPoint s).chk = s.chk ∧ (State.genPoint s).snp = s.snp ∧ (State.genPoint s).irq = s.irq ∧ (State.genPoint s).ezl = s.ezl ∧ (State.genPoint s).stp = s.stp ∧ (State.genPoint s).fmt = s.fmt ∧ (State.genPoint s).vec = s.vec ∧ (State.genPoint s).mxe = s.mxe ∧ (State.genPoint s).upd = s.upd ∧ (State.genPoint s).red = s.red ∧ (State.genPoint s).tsk = s.tsk ∧ (State.genPoint s).hif = s.hif ∧ (State.genPoint s).img = s.img ∧ (State.genPoint s).pwr = s.pwr ∧ (State.genPoint s).pending = s.pending := by
  have fr1 := @State.dutyTrain_frame
  have fr2 := @State.imageChanges_frame
  have fr3 := @State.imageSeq_frame
  have fr4 := @State.modArr_frame
  have fr5 := @State.msRefresh_frame
  have fr6 := @State.takePol_frame
  have fr7 := @State.trimChanges_frame
  simp [State.genPoint, fr1, fr2, fr3, fr4, fr5, fr6, fr7]


theorem State.moveChannels_frame (s : State) :
    (State.moveChannels s).regs = s.regs ∧ (State.moveChannels s).pairLo = s.pairLo ∧ (State.moveChannels s).pairCap = s.pairCap ∧ (State.moveChannels s).out = s.out ∧ (State.moveChannels s).free = s.free ∧ (State.moveChannels s).policy = s.policy ∧ (State.moveChannels s).err = s.err ∧ (State.moveChannels s).chk = s.chk ∧ (State.moveChannels s).snp = s.snp ∧ (State.moveChannels s).irq = s.irq ∧ (State.moveChannels s).ezl = s.ezl ∧ (State.moveChannels s).stp = s.stp ∧ (State.moveChannels s).fmt = s.fmt ∧ (State.moveChannels s).arr = s.arr ∧ (State.moveChannels s).vec = s.vec ∧ (State.moveChannels s).mxe = s.mxe ∧ (State.moveChannels s).upd = s.upd ∧ (State.moveChannels s).tsk = s.tsk ∧ (State.moveChannels s).mem = s.mem ∧ (State.moveChannels s).hif = s.hif ∧ (State.moveChannels s).img = s.img ∧ (State.moveChannels s).pwr = s.pwr ∧ (State.moveChannels s).pending = s.pending := by
  have fr1 := @State.setChan_frame
  simp [State.moveChannels, fr1]


theorem State.startAttempt_frame (s : State) (att : Nat) :
    (State.startAttempt s att).pairLo = s.pairLo ∧ (State.startAttempt s att).pairCap = s.pairCap ∧ (State.startAttempt s att).chk = s.chk ∧ (State.startAttempt s att).snp = s.snp ∧ (State.startAttempt s att).irq = s.irq ∧ (State.startAttempt s att).vec = s.vec ∧ (State.startAttempt s att).img = s.img ∧ (State.startAttempt s att).pwr = s.pwr ∧ (State.startAttempt s att).pending = s.pending := by
  have fr1 := @State.eventLog_frame
  have fr2 := @State.findAbort_frame
  have fr3 := @State.modFmt_frame
  have fr4 := @State.modMxe_frame
  have fr5 := @State.modStp_frame
  have fr6 := @State.modTsk_frame
  have fr7 := @State.setRegB_frame
  unfold State.startAttempt; dsimp only; (repeat' split) <;> simp [fr1, fr2, fr3, fr4, fr5, fr6, fr7]


theorem trainingStart_frame (s : State) :
    (trainingStart s).pairLo = s.pairLo ∧ (trainingStart s).pairCap = s.pairCap ∧ (trainingStart s).chk = s.chk ∧ (trainingStart s).snp = s.snp ∧ (trainingStart s).vec = s.vec ∧ (trainingStart s).img = s.img ∧ (trainingStart s).pwr = s.pwr ∧ (trainingStart s).pending = s.pending := by
  have fr1 := @State.newStep_frame
  have fr2 := @State.startAttempt_frame
  simp [trainingStart, fr1, fr2]


theorem State.exhaust_frame (s : State) :
    (State.exhaust s).pairLo = s.pairLo ∧ (State.exhaust s).pairCap = s.pairCap ∧ (State.exhaust s).out = s.out ∧ (State.exhaust s).free = s.free ∧ (State.exhaust s).policy = s.policy ∧ (State.exhaust s).chk = s.chk ∧ (State.exhaust s).snp = s.snp ∧ (State.exhaust s).irq = s.irq ∧ (State.exhaust s).ezl = s.ezl ∧ (State.exhaust s).fmt = s.fmt ∧ (State.exhaust s).arr = s.arr ∧ (State.exhaust s).vec = s.vec ∧ (State.exhaust s).mxe = s.mxe ∧ (State.exhaust s).upd = s.upd ∧ (State.exhaust s).red = s.red ∧ (State.exhaust s).tsk = s.tsk ∧ (State.exhaust s).mem = s.mem ∧ (State.exhaust s).hif = s.hif ∧ (State.exhaust s).img = s.img ∧ (State.exhaust s).pwr = s.pwr ∧ (State.exhaust s).pending = s.pending := by
  have fr1 := @State.eventLog_frame
  have fr2 := @State.modStp_frame
  simp [State.exhaust, fr1, fr2]


theorem newStepBoundary_frame (s : State) :
    (newStepBoundary s).pairLo = s.pairLo ∧ (newStepBoundary s).pairCap = s.pairCap ∧ (newStepBoundary s).chk = s.chk ∧ (newStepBoundary s).snp = s.snp ∧ (newStepBoundary s).vec = s.vec ∧ (newStepBoundary s).img = s.img ∧ (newStepBoundary s).pwr = s.pwr ∧ (newStepBoundary s).pending = s.pending := by
  have fr1 := @State.exhaust_frame
  have fr2 := @State.modStp_frame
  have fr3 := @State.newStep_frame
  have fr4 := @State.startAttempt_frame
  simp [newStepBoundary, fr1, fr2, fr3, fr4]


theorem repeatBoundary_frame (s : State) :
    (repeatBoundary s).pairLo = s.pairLo ∧ (repeatBoundary s).pairCap = s.pairCap ∧ (repeatBoundary s).chk = s.chk ∧ (repeatBoundary s).snp = s.snp ∧ (repeatBoundary s).irq = s.irq ∧ (repeatBoundary s).vec = s.vec ∧ (repeatBoundary s).img = s.img ∧ (repeatBoundary s).pwr = s.pwr ∧ (repeatBoundary s).pending = s.pending := by
  have fr1 := @State.exhaust_frame
  have fr2 := @State.moveChannels_frame
  have fr3 := @State.startAttempt_frame
  have fr4 := @State.eventLog_frame
  have fr5 := @State.formStash_frame
  have fr6 := @State.modStp_frame
  have fr7 := @State.takePol_frame
  simp [repeatBoundary, fr1, fr2, fr3, fr4, fr5, fr6, fr7]


theorem State.addLaunch_frame (s : State) (l : Launch) :
    (State.addLaunch s l).pairLo = s.pairLo ∧ (State.addLaunch s l).pairCap = s.pairCap ∧ (State.addLaunch s l).out = s.out ∧ (State.addLaunch s l).free = s.free ∧ (State.addLaunch s l).policy = s.policy ∧ (State.addLaunch s l).chk = s.chk ∧ (State.addLaunch s l).snp = s.snp ∧ (State.addLaunch s l).irq = s.irq ∧ (State.addLaunch s l).ezl = s.ezl ∧ (State.addLaunch s l).stp = s.stp ∧ (State.addLaunch s l).fmt = s.fmt ∧ (State.addLaunch s l).arr = s.arr ∧ (State.addLaunch s l).vec = s.vec ∧ (State.addLaunch s l).mxe = s.mxe ∧ (State.addLaunch s l).upd = s.upd ∧ (State.addLaunch s l).red = s.red ∧ (State.addLaunch s l).mem = s.mem ∧ (State.addLaunch s l).hif = s.hif ∧ (State.addLaunch s l).img = s.img ∧ (State.addLaunch s l).pwr = s.pwr ∧ (State.addLaunch s l).pending = s.pending := by
  have fr1 := @State.eventLog_frame
  have fr2 := @State.modTsk_frame
  simp [State.addLaunch, fr1, fr2]


theorem tskLaunch_frame (rq : Requester) (v : Word) (s : State) :
    (tskLaunch rq v s).pairLo = s.pairLo ∧ (tskLaunch rq v s).pairCap = s.pairCap ∧ (tskLaunch rq v s).out = s.out ∧ (tskLaunch rq v s).free = s.free ∧ (tskLaunch rq v s).policy = s.policy ∧ (tskLaunch rq v s).chk = s.chk ∧ (tskLaunch rq v s).snp = s.snp ∧ (tskLaunch rq v s).irq = s.irq ∧ (tskLaunch rq v s).ezl = s.ezl ∧ (tskLaunch rq v s).stp = s.stp ∧ (tskLaunch rq v s).fmt = s.fmt ∧ (tskLaunch rq v s).arr = s.arr ∧ (tskLaunch rq v s).vec = s.vec ∧ (tskLaunch rq v s).mxe = s.mxe ∧ (tskLaunch rq v s).upd = s.upd ∧ (tskLaunch rq v s).red = s.red ∧ (tskLaunch rq v s).mem = s.mem ∧ (tskLaunch rq v s).hif = s.hif ∧ (tskLaunch rq v s).img = s.img ∧ (tskLaunch rq v s).pwr = s.pwr ∧ (tskLaunch rq v s).pending = s.pending := by
  have fr1 := @State.addLaunch_frame
  simp [tskLaunch, fr1]


theorem State.zeroCounters_frame (s : State) (k n : Nat) :
    (State.zeroCounters s k n).regs = s.regs ∧ (State.zeroCounters s k n).pairLo = s.pairLo ∧ (State.zeroCounters s k n).pairCap = s.pairCap ∧ (State.zeroCounters s k n).out = s.out ∧ (State.zeroCounters s k n).free = s.free ∧ (State.zeroCounters s k n).policy = s.policy ∧ (State.zeroCounters s k n).err = s.err ∧ (State.zeroCounters s k n).chk = s.chk ∧ (State.zeroCounters s k n).snp = s.snp ∧ (State.zeroCounters s k n).irq = s.irq ∧ (State.zeroCounters s k n).ezl = s.ezl ∧ (State.zeroCounters s k n).stp = s.stp ∧ (State.zeroCounters s k n).fmt = s.fmt ∧ (State.zeroCounters s k n).arr = s.arr ∧ (State.zeroCounters s k n).vec = s.vec ∧ (State.zeroCounters s k n).mxe = s.mxe ∧ (State.zeroCounters s k n).upd = s.upd ∧ (State.zeroCounters s k n).red = s.red ∧ (State.zeroCounters s k n).mem = s.mem ∧ (State.zeroCounters s k n).hif = s.hif ∧ (State.zeroCounters s k n).img = s.img ∧ (State.zeroCounters s k n).pwr = s.pwr ∧ (State.zeroCounters s k n).pending = s.pending := by
  have fr1 := @State.setCounter_frame
  simp [State.zeroCounters, fr1]


theorem State.streamOne_frame (s : State) :
    (State.streamOne s).pairLo = s.pairLo ∧ (State.streamOne s).pairCap = s.pairCap ∧ (State.streamOne s).out = s.out ∧ (State.streamOne s).free = s.free ∧ (State.streamOne s).policy = s.policy ∧ (State.streamOne s).chk = s.chk ∧ (State.streamOne s).snp = s.snp ∧ (State.streamOne s).irq = s.irq ∧ (State.streamOne s).ezl = s.ezl ∧ (State.streamOne s).stp = s.stp ∧ (State.streamOne s).fmt = s.fmt ∧ (State.streamOne s).arr = s.arr ∧ (State.streamOne s).vec = s.vec ∧ (State.streamOne s).mxe = s.mxe ∧ (State.streamOne s).upd = s.upd ∧ (State.streamOne s).red = s.red ∧ (State.streamOne s).mem = s.mem ∧ (State.streamOne s).img = s.img ∧ (State.streamOne s).pwr = s.pwr ∧ (State.streamOne s).pending = s.pending := by
  have fr1 := @State.event_frame
  have fr2 := @State.modTsk_frame
  have fr3 := @State.readNotes_frame
  have fr4 := @State.setTask_frame
  unfold State.streamOne; dsimp only; (repeat' split) <;> simp [fr1, fr2, fr3, fr4]


@[simp] theorem State.streamFuel_pairLo (n : Nat) (s : State) : (State.streamFuel n s).pairLo = s.pairLo := by
  have fr1 := @State.launchOver_frame
  have fr2 := @State.modTsk_frame
  have fr3 := @State.streamOne_frame
  induction n generalizing s with
  | zero => rfl
  | succ n ih => simp only [State.streamFuel]; (repeat' split) <;> simp [ih, fr1, fr2, fr3]

@[simp] theorem State.stream_pairLo (s : State) : (s.stream).pairLo = s.pairLo := by
  unfold State.stream; split <;> simp

@[simp] theorem State.streamFuel_pairCap (n : Nat) (s : State) : (State.streamFuel n s).pairCap = s.pairCap := by
  have fr1 := @State.launchOver_frame
  have fr2 := @State.modTsk_frame
  have fr3 := @State.streamOne_frame
  induction n generalizing s with
  | zero => rfl
  | succ n ih => simp only [State.streamFuel]; (repeat' split) <;> simp [ih, fr1, fr2, fr3]

@[simp] theorem State.stream_pairCap (s : State) : (s.stream).pairCap = s.pairCap := by
  unfold State.stream; split <;> simp

@[simp] theorem State.streamFuel_free (n : Nat) (s : State) : (State.streamFuel n s).free = s.free := by
  have fr1 := @State.launchOver_frame
  have fr2 := @State.modTsk_frame
  have fr3 := @State.streamOne_frame
  induction n generalizing s with
  | zero => rfl
  | succ n ih => simp only [State.streamFuel]; (repeat' split) <;> simp [ih, fr1, fr2, fr3]

@[simp] theorem State.stream_free (s : State) : (s.stream).free = s.free := by
  unfold State.stream; split <;> simp

@[simp] theorem State.streamFuel_policy (n : Nat) (s : State) : (State.streamFuel n s).policy = s.policy := by
  have fr1 := @State.launchOver_frame
  have fr2 := @State.modTsk_frame
  have fr3 := @State.streamOne_frame
  induction n generalizing s with
  | zero => rfl
  | succ n ih => simp only [State.streamFuel]; (repeat' split) <;> simp [ih, fr1, fr2, fr3]

@[simp] theorem State.stream_policy (s : State) : (s.stream).policy = s.policy := by
  unfold State.stream; split <;> simp

@[simp] theorem State.streamFuel_chk (n : Nat) (s : State) : (State.streamFuel n s).chk = s.chk := by
  have fr1 := @State.launchOver_frame
  have fr2 := @State.modTsk_frame
  have fr3 := @State.streamOne_frame
  induction n generalizing s with
  | zero => rfl
  | succ n ih => simp only [State.streamFuel]; (repeat' split) <;> simp [ih, fr1, fr2, fr3]

@[simp] theorem State.stream_chk (s : State) : (s.stream).chk = s.chk := by
  unfold State.stream; split <;> simp

@[simp] theorem State.streamFuel_snp (n : Nat) (s : State) : (State.streamFuel n s).snp = s.snp := by
  have fr1 := @State.launchOver_frame
  have fr2 := @State.modTsk_frame
  have fr3 := @State.streamOne_frame
  induction n generalizing s with
  | zero => rfl
  | succ n ih => simp only [State.streamFuel]; (repeat' split) <;> simp [ih, fr1, fr2, fr3]

@[simp] theorem State.stream_snp (s : State) : (s.stream).snp = s.snp := by
  unfold State.stream; split <;> simp

@[simp] theorem State.streamFuel_stp (n : Nat) (s : State) : (State.streamFuel n s).stp = s.stp := by
  have fr1 := @State.launchOver_frame
  have fr2 := @State.modTsk_frame
  have fr3 := @State.streamOne_frame
  induction n generalizing s with
  | zero => rfl
  | succ n ih => simp only [State.streamFuel]; (repeat' split) <;> simp [ih, fr1, fr2, fr3]

@[simp] theorem State.stream_stp (s : State) : (s.stream).stp = s.stp := by
  unfold State.stream; split <;> simp

@[simp] theorem State.streamFuel_fmt (n : Nat) (s : State) : (State.streamFuel n s).fmt = s.fmt := by
  have fr1 := @State.launchOver_frame
  have fr2 := @State.modTsk_frame
  have fr3 := @State.streamOne_frame
  induction n generalizing s with
  | zero => rfl
  | succ n ih => simp only [State.streamFuel]; (repeat' split) <;> simp [ih, fr1, fr2, fr3]

@[simp] theorem State.stream_fmt (s : State) : (s.stream).fmt = s.fmt := by
  unfold State.stream; split <;> simp

@[simp] theorem State.streamFuel_arr (n : Nat) (s : State) : (State.streamFuel n s).arr = s.arr := by
  have fr1 := @State.launchOver_frame
  have fr2 := @State.modTsk_frame
  have fr3 := @State.streamOne_frame
  induction n generalizing s with
  | zero => rfl
  | succ n ih => simp only [State.streamFuel]; (repeat' split) <;> simp [ih, fr1, fr2, fr3]

@[simp] theorem State.stream_arr (s : State) : (s.stream).arr = s.arr := by
  unfold State.stream; split <;> simp

@[simp] theorem State.streamFuel_vec (n : Nat) (s : State) : (State.streamFuel n s).vec = s.vec := by
  have fr1 := @State.launchOver_frame
  have fr2 := @State.modTsk_frame
  have fr3 := @State.streamOne_frame
  induction n generalizing s with
  | zero => rfl
  | succ n ih => simp only [State.streamFuel]; (repeat' split) <;> simp [ih, fr1, fr2, fr3]

@[simp] theorem State.stream_vec (s : State) : (s.stream).vec = s.vec := by
  unfold State.stream; split <;> simp

@[simp] theorem State.streamFuel_mxe (n : Nat) (s : State) : (State.streamFuel n s).mxe = s.mxe := by
  have fr1 := @State.launchOver_frame
  have fr2 := @State.modTsk_frame
  have fr3 := @State.streamOne_frame
  induction n generalizing s with
  | zero => rfl
  | succ n ih => simp only [State.streamFuel]; (repeat' split) <;> simp [ih, fr1, fr2, fr3]

@[simp] theorem State.stream_mxe (s : State) : (s.stream).mxe = s.mxe := by
  unfold State.stream; split <;> simp

@[simp] theorem State.streamFuel_upd (n : Nat) (s : State) : (State.streamFuel n s).upd = s.upd := by
  have fr1 := @State.launchOver_frame
  have fr2 := @State.modTsk_frame
  have fr3 := @State.streamOne_frame
  induction n generalizing s with
  | zero => rfl
  | succ n ih => simp only [State.streamFuel]; (repeat' split) <;> simp [ih, fr1, fr2, fr3]

@[simp] theorem State.stream_upd (s : State) : (s.stream).upd = s.upd := by
  unfold State.stream; split <;> simp

@[simp] theorem State.streamFuel_red (n : Nat) (s : State) : (State.streamFuel n s).red = s.red := by
  have fr1 := @State.launchOver_frame
  have fr2 := @State.modTsk_frame
  have fr3 := @State.streamOne_frame
  induction n generalizing s with
  | zero => rfl
  | succ n ih => simp only [State.streamFuel]; (repeat' split) <;> simp [ih, fr1, fr2, fr3]

@[simp] theorem State.stream_red (s : State) : (s.stream).red = s.red := by
  unfold State.stream; split <;> simp

@[simp] theorem State.streamFuel_img (n : Nat) (s : State) : (State.streamFuel n s).img = s.img := by
  have fr1 := @State.launchOver_frame
  have fr2 := @State.modTsk_frame
  have fr3 := @State.streamOne_frame
  induction n generalizing s with
  | zero => rfl
  | succ n ih => simp only [State.streamFuel]; (repeat' split) <;> simp [ih, fr1, fr2, fr3]

@[simp] theorem State.stream_img (s : State) : (s.stream).img = s.img := by
  unfold State.stream; split <;> simp

@[simp] theorem State.streamFuel_pwr (n : Nat) (s : State) : (State.streamFuel n s).pwr = s.pwr := by
  have fr1 := @State.launchOver_frame
  have fr2 := @State.modTsk_frame
  have fr3 := @State.streamOne_frame
  induction n generalizing s with
  | zero => rfl
  | succ n ih => simp only [State.streamFuel]; (repeat' split) <;> simp [ih, fr1, fr2, fr3]

@[simp] theorem State.stream_pwr (s : State) : (s.stream).pwr = s.pwr := by
  unfold State.stream; split <;> simp

@[simp] theorem State.streamFuel_pending (n : Nat) (s : State) : (State.streamFuel n s).pending = s.pending := by
  have fr1 := @State.launchOver_frame
  have fr2 := @State.modTsk_frame
  have fr3 := @State.streamOne_frame
  induction n generalizing s with
  | zero => rfl
  | succ n ih => simp only [State.streamFuel]; (repeat' split) <;> simp [ih, fr1, fr2, fr3]

@[simp] theorem State.stream_pending (s : State) : (s.stream).pending = s.pending := by
  unfold State.stream; split <;> simp


theorem State.openStream_frame (s : State) (l : Launch) (b : List Byte) :
    (State.openStream s l b).pairLo = s.pairLo ∧ (State.openStream s l b).pairCap = s.pairCap ∧ (State.openStream s l b).out = s.out ∧ (State.openStream s l b).free = s.free ∧ (State.openStream s l b).policy = s.policy ∧ (State.openStream s l b).chk = s.chk ∧ (State.openStream s l b).snp = s.snp ∧ (State.openStream s l b).irq = s.irq ∧ (State.openStream s l b).ezl = s.ezl ∧ (State.openStream s l b).stp = s.stp ∧ (State.openStream s l b).fmt = s.fmt ∧ (State.openStream s l b).arr = s.arr ∧ (State.openStream s l b).vec = s.vec ∧ (State.openStream s l b).mxe = s.mxe ∧ (State.openStream s l b).upd = s.upd ∧ (State.openStream s l b).red = s.red ∧ (State.openStream s l b).mem = s.mem ∧ (State.openStream s l b).img = s.img ∧ (State.openStream s l b).pwr = s.pwr ∧ (State.openStream s l b).pending = s.pending := by
  have fr1 := @State.modTsk_frame
  have fr2 := @State.zeroCounters_frame
  unfold State.openStream; (repeat' split) <;> simp [fr1, fr2]


theorem State.beginAt_frame (s : State) (l : Launch) (at_ : Option Nat) :
    (State.beginAt s l at_).pairLo = s.pairLo ∧ (State.beginAt s l at_).pairCap = s.pairCap ∧ (State.beginAt s l at_).free = s.free ∧ (State.beginAt s l at_).policy = s.policy ∧ (State.beginAt s l at_).chk = s.chk ∧ (State.beginAt s l at_).snp = s.snp ∧ (State.beginAt s l at_).stp = s.stp ∧ (State.beginAt s l at_).fmt = s.fmt ∧ (State.beginAt s l at_).arr = s.arr ∧ (State.beginAt s l at_).vec = s.vec ∧ (State.beginAt s l at_).mxe = s.mxe ∧ (State.beginAt s l at_).upd = s.upd ∧ (State.beginAt s l at_).red = s.red ∧ (State.beginAt s l at_).img = s.img ∧ (State.beginAt s l at_).pwr = s.pwr ∧ (State.beginAt s l at_).pending = s.pending := by
  have fr1 := @State.eventLog_frame
  have fr2 := @State.launchOver_frame
  have fr3 := @State.openStream_frame
  unfold State.beginAt; (repeat' split) <;> simp [fr1, fr2, fr3]


theorem State.notesAt_frame (s : State) (t : Nat) (h : Option Nat) :
    (State.notesAt s t h).pairLo = s.pairLo ∧ (State.notesAt s t h).pairCap = s.pairCap ∧ (State.notesAt s t h).out = s.out ∧ (State.notesAt s t h).free = s.free ∧ (State.notesAt s t h).policy = s.policy ∧ (State.notesAt s t h).chk = s.chk ∧ (State.notesAt s t h).snp = s.snp ∧ (State.notesAt s t h).irq = s.irq ∧ (State.notesAt s t h).ezl = s.ezl ∧ (State.notesAt s t h).stp = s.stp ∧ (State.notesAt s t h).fmt = s.fmt ∧ (State.notesAt s t h).arr = s.arr ∧ (State.notesAt s t h).vec = s.vec ∧ (State.notesAt s t h).mxe = s.mxe ∧ (State.notesAt s t h).upd = s.upd ∧ (State.notesAt s t h).red = s.red ∧ (State.notesAt s t h).tsk = s.tsk ∧ (State.notesAt s t h).mem = s.mem ∧ (State.notesAt s t h).hif = s.hif ∧ (State.notesAt s t h).img = s.img ∧ (State.notesAt s t h).pwr = s.pwr ∧ (State.notesAt s t h).pending = s.pending := by
  have fr1 := @State.readNotes_frame
  unfold State.notesAt; (repeat' split) <;> simp [fr1]


theorem State.graphNotes_frame (s : State) (g : Nat) :
    (State.graphNotes s g).pairLo = s.pairLo ∧ (State.graphNotes s g).pairCap = s.pairCap ∧ (State.graphNotes s g).out = s.out ∧ (State.graphNotes s g).free = s.free ∧ (State.graphNotes s g).policy = s.policy ∧ (State.graphNotes s g).chk = s.chk ∧ (State.graphNotes s g).snp = s.snp ∧ (State.graphNotes s g).irq = s.irq ∧ (State.graphNotes s g).ezl = s.ezl ∧ (State.graphNotes s g).stp = s.stp ∧ (State.graphNotes s g).fmt = s.fmt ∧ (State.graphNotes s g).arr = s.arr ∧ (State.graphNotes s g).vec = s.vec ∧ (State.graphNotes s g).mxe = s.mxe ∧ (State.graphNotes s g).upd = s.upd ∧ (State.graphNotes s g).red = s.red ∧ (State.graphNotes s g).tsk = s.tsk ∧ (State.graphNotes s g).mem = s.mem ∧ (State.graphNotes s g).hif = s.hif ∧ (State.graphNotes s g).img = s.img ∧ (State.graphNotes s g).pwr = s.pwr ∧ (State.graphNotes s g).pending = s.pending := by
  have fr1 := @State.notesAt_frame
  unfold State.graphNotes
  generalize s.pair R.TSK_GRAPH_BASE / 2048 * 2048 + 8 * g = a
  generalize s.graphAt g = h
  simp [fr1]


theorem State.beginLaunch_frame (s : State) (l : Launch) :
    (State.beginLaunch s l).pairLo = s.pairLo ∧ (State.beginLaunch s l).pairCap = s.pairCap ∧ (State.beginLaunch s l).free = s.free ∧ (State.beginLaunch s l).policy = s.policy ∧ (State.beginLaunch s l).chk = s.chk ∧ (State.beginLaunch s l).snp = s.snp ∧ (State.beginLaunch s l).stp = s.stp ∧ (State.beginLaunch s l).fmt = s.fmt ∧ (State.beginLaunch s l).arr = s.arr ∧ (State.beginLaunch s l).vec = s.vec ∧ (State.beginLaunch s l).mxe = s.mxe ∧ (State.beginLaunch s l).upd = s.upd ∧ (State.beginLaunch s l).red = s.red ∧ (State.beginLaunch s l).img = s.img ∧ (State.beginLaunch s l).pwr = s.pwr ∧ (State.beginLaunch s l).pending = s.pending := by
  have fr1 := @State.beginAt_frame
  have fr2 := @State.graphNotes_frame
  simp only [State.beginLaunch]; (repeat' split) <;> simp [fr1, fr2]


theorem graphStream_frame (s : State) :
    (graphStream s).pairLo = s.pairLo ∧ (graphStream s).pairCap = s.pairCap ∧ (graphStream s).free = s.free ∧ (graphStream s).policy = s.policy ∧ (graphStream s).chk = s.chk ∧ (graphStream s).snp = s.snp ∧ (graphStream s).stp = s.stp ∧ (graphStream s).fmt = s.fmt ∧ (graphStream s).arr = s.arr ∧ (graphStream s).vec = s.vec ∧ (graphStream s).mxe = s.mxe ∧ (graphStream s).upd = s.upd ∧ (graphStream s).red = s.red ∧ (graphStream s).img = s.img ∧ (graphStream s).pwr = s.pwr ∧ (graphStream s).pending = s.pending := by
  have fr1 := @State.beginLaunch_frame
  have fr2 := @State.modTsk_frame
  unfold graphStream; (repeat' split) <;> simp [fr1, fr2]


theorem streamResume_frame (s : State) :
    (streamResume s).pairLo = s.pairLo ∧ (streamResume s).pairCap = s.pairCap ∧ (streamResume s).free = s.free ∧ (streamResume s).policy = s.policy ∧ (streamResume s).chk = s.chk ∧ (streamResume s).snp = s.snp ∧ (streamResume s).stp = s.stp ∧ (streamResume s).fmt = s.fmt ∧ (streamResume s).arr = s.arr ∧ (streamResume s).vec = s.vec ∧ (streamResume s).mxe = s.mxe ∧ (streamResume s).upd = s.upd ∧ (streamResume s).red = s.red ∧ (streamResume s).img = s.img ∧ (streamResume s).pwr = s.pwr ∧ (streamResume s).pending = s.pending := by
  unfold streamResume; (repeat' split) <;> simp


theorem remoteSignal_frame (s : State) :
    (remoteSignal s).pairLo = s.pairLo ∧ (remoteSignal s).pairCap = s.pairCap ∧ (remoteSignal s).out = s.out ∧ (remoteSignal s).free = s.free ∧ (remoteSignal s).policy = s.policy ∧ (remoteSignal s).chk = s.chk ∧ (remoteSignal s).snp = s.snp ∧ (remoteSignal s).irq = s.irq ∧ (remoteSignal s).ezl = s.ezl ∧ (remoteSignal s).stp = s.stp ∧ (remoteSignal s).fmt = s.fmt ∧ (remoteSignal s).arr = s.arr ∧ (remoteSignal s).vec = s.vec ∧ (remoteSignal s).mxe = s.mxe ∧ (remoteSignal s).upd = s.upd ∧ (remoteSignal s).red = s.red ∧ (remoteSignal s).mem = s.mem ∧ (remoteSignal s).hif = s.hif ∧ (remoteSignal s).img = s.img ∧ (remoteSignal s).pwr = s.pwr ∧ (remoteSignal s).pending = s.pending := by
  have fr1 := @State.modTsk_frame
  have fr2 := @State.takeSignal_frame
  unfold remoteSignal; (repeat' split) <;> simp [fr1, fr2]


@[simp] theorem flush_pairLo (rq : Requester) (s : State) : (flush rq s).pairLo = s.pairLo := by
  have fr1 := @State.launchOver_frame
  have fr2 := @State.modTsk_frame
  have fr3 := @State.refuseWrite_frame
  have fr4 := @State.setCtx_frame
  have e : ∀ (t : State) f, (t.modTsk f).pairLo = t.pairLo := fun _ _ => rfl
  unfold flush; dsimp only
  split
  · split
    all_goals
      try rw [e]
      rw [State.foldl_pairLo _ (by intro s x; split <;> simp [fr1, fr2, fr3, fr4])]
      simp [fr1, fr2, fr3, fr4]
  · simp [fr1, fr2, fr3, fr4]

@[simp] theorem flush_pairCap (rq : Requester) (s : State) : (flush rq s).pairCap = s.pairCap := by
  have fr1 := @State.launchOver_frame
  have fr2 := @State.modTsk_frame
  have fr3 := @State.refuseWrite_frame
  have fr4 := @State.setCtx_frame
  have e : ∀ (t : State) f, (t.modTsk f).pairCap = t.pairCap := fun _ _ => rfl
  unfold flush; dsimp only
  split
  · split
    all_goals
      try rw [e]
      rw [State.foldl_pairCap _ (by intro s x; split <;> simp [fr1, fr2, fr3, fr4])]
      simp [fr1, fr2, fr3, fr4]
  · simp [fr1, fr2, fr3, fr4]

@[simp] theorem flush_free (rq : Requester) (s : State) : (flush rq s).free = s.free := by
  have fr1 := @State.launchOver_frame
  have fr2 := @State.modTsk_frame
  have fr3 := @State.refuseWrite_frame
  have fr4 := @State.setCtx_frame
  have e : ∀ (t : State) f, (t.modTsk f).free = t.free := fun _ _ => rfl
  unfold flush; dsimp only
  split
  · split
    all_goals
      try rw [e]
      rw [State.foldl_free _ (by intro s x; split <;> simp [fr1, fr2, fr3, fr4])]
      simp [fr1, fr2, fr3, fr4]
  · simp [fr1, fr2, fr3, fr4]

@[simp] theorem flush_policy (rq : Requester) (s : State) : (flush rq s).policy = s.policy := by
  have fr1 := @State.launchOver_frame
  have fr2 := @State.modTsk_frame
  have fr3 := @State.refuseWrite_frame
  have fr4 := @State.setCtx_frame
  have e : ∀ (t : State) f, (t.modTsk f).policy = t.policy := fun _ _ => rfl
  unfold flush; dsimp only
  split
  · split
    all_goals
      try rw [e]
      rw [State.foldl_policy _ (by intro s x; split <;> simp [fr1, fr2, fr3, fr4])]
      simp [fr1, fr2, fr3, fr4]
  · simp [fr1, fr2, fr3, fr4]

@[simp] theorem flush_chk (rq : Requester) (s : State) : (flush rq s).chk = s.chk := by
  have fr1 := @State.launchOver_frame
  have fr2 := @State.modTsk_frame
  have fr3 := @State.refuseWrite_frame
  have fr4 := @State.setCtx_frame
  have e : ∀ (t : State) f, (t.modTsk f).chk = t.chk := fun _ _ => rfl
  unfold flush; dsimp only
  split
  · split
    all_goals
      try rw [e]
      rw [State.foldl_chk _ (by intro s x; split <;> simp [fr1, fr2, fr3, fr4])]
      simp [fr1, fr2, fr3, fr4]
  · simp [fr1, fr2, fr3, fr4]

@[simp] theorem flush_snp (rq : Requester) (s : State) : (flush rq s).snp = s.snp := by
  have fr1 := @State.launchOver_frame
  have fr2 := @State.modTsk_frame
  have fr3 := @State.refuseWrite_frame
  have fr4 := @State.setCtx_frame
  have e : ∀ (t : State) f, (t.modTsk f).snp = t.snp := fun _ _ => rfl
  unfold flush; dsimp only
  split
  · split
    all_goals
      try rw [e]
      rw [State.foldl_snp _ (by intro s x; split <;> simp [fr1, fr2, fr3, fr4])]
      simp [fr1, fr2, fr3, fr4]
  · simp [fr1, fr2, fr3, fr4]

@[simp] theorem flush_stp (rq : Requester) (s : State) : (flush rq s).stp = s.stp := by
  have fr1 := @State.launchOver_frame
  have fr2 := @State.modTsk_frame
  have fr3 := @State.refuseWrite_frame
  have fr4 := @State.setCtx_frame
  have e : ∀ (t : State) f, (t.modTsk f).stp = t.stp := fun _ _ => rfl
  unfold flush; dsimp only
  split
  · split
    all_goals
      try rw [e]
      rw [State.foldl_stp _ (by intro s x; split <;> simp [fr1, fr2, fr3, fr4])]
      simp [fr1, fr2, fr3, fr4]
  · simp [fr1, fr2, fr3, fr4]

@[simp] theorem flush_fmt (rq : Requester) (s : State) : (flush rq s).fmt = s.fmt := by
  have fr1 := @State.launchOver_frame
  have fr2 := @State.modTsk_frame
  have fr3 := @State.refuseWrite_frame
  have fr4 := @State.setCtx_frame
  have e : ∀ (t : State) f, (t.modTsk f).fmt = t.fmt := fun _ _ => rfl
  unfold flush; dsimp only
  split
  · split
    all_goals
      try rw [e]
      rw [State.foldl_fmt _ (by intro s x; split <;> simp [fr1, fr2, fr3, fr4])]
      simp [fr1, fr2, fr3, fr4]
  · simp [fr1, fr2, fr3, fr4]

@[simp] theorem flush_arr (rq : Requester) (s : State) : (flush rq s).arr = s.arr := by
  have fr1 := @State.launchOver_frame
  have fr2 := @State.modTsk_frame
  have fr3 := @State.refuseWrite_frame
  have fr4 := @State.setCtx_frame
  have e : ∀ (t : State) f, (t.modTsk f).arr = t.arr := fun _ _ => rfl
  unfold flush; dsimp only
  split
  · split
    all_goals
      try rw [e]
      rw [State.foldl_arr _ (by intro s x; split <;> simp [fr1, fr2, fr3, fr4])]
      simp [fr1, fr2, fr3, fr4]
  · simp [fr1, fr2, fr3, fr4]

@[simp] theorem flush_vec (rq : Requester) (s : State) : (flush rq s).vec = s.vec := by
  have fr1 := @State.launchOver_frame
  have fr2 := @State.modTsk_frame
  have fr3 := @State.refuseWrite_frame
  have fr4 := @State.setCtx_frame
  have e : ∀ (t : State) f, (t.modTsk f).vec = t.vec := fun _ _ => rfl
  unfold flush; dsimp only
  split
  · split
    all_goals
      try rw [e]
      rw [State.foldl_vec _ (by intro s x; split <;> simp [fr1, fr2, fr3, fr4])]
      simp [fr1, fr2, fr3, fr4]
  · simp [fr1, fr2, fr3, fr4]

@[simp] theorem flush_mxe (rq : Requester) (s : State) : (flush rq s).mxe = s.mxe := by
  have fr1 := @State.launchOver_frame
  have fr2 := @State.modTsk_frame
  have fr3 := @State.refuseWrite_frame
  have fr4 := @State.setCtx_frame
  have e : ∀ (t : State) f, (t.modTsk f).mxe = t.mxe := fun _ _ => rfl
  unfold flush; dsimp only
  split
  · split
    all_goals
      try rw [e]
      rw [State.foldl_mxe _ (by intro s x; split <;> simp [fr1, fr2, fr3, fr4])]
      simp [fr1, fr2, fr3, fr4]
  · simp [fr1, fr2, fr3, fr4]

@[simp] theorem flush_upd (rq : Requester) (s : State) : (flush rq s).upd = s.upd := by
  have fr1 := @State.launchOver_frame
  have fr2 := @State.modTsk_frame
  have fr3 := @State.refuseWrite_frame
  have fr4 := @State.setCtx_frame
  have e : ∀ (t : State) f, (t.modTsk f).upd = t.upd := fun _ _ => rfl
  unfold flush; dsimp only
  split
  · split
    all_goals
      try rw [e]
      rw [State.foldl_upd _ (by intro s x; split <;> simp [fr1, fr2, fr3, fr4])]
      simp [fr1, fr2, fr3, fr4]
  · simp [fr1, fr2, fr3, fr4]

@[simp] theorem flush_red (rq : Requester) (s : State) : (flush rq s).red = s.red := by
  have fr1 := @State.launchOver_frame
  have fr2 := @State.modTsk_frame
  have fr3 := @State.refuseWrite_frame
  have fr4 := @State.setCtx_frame
  have e : ∀ (t : State) f, (t.modTsk f).red = t.red := fun _ _ => rfl
  unfold flush; dsimp only
  split
  · split
    all_goals
      try rw [e]
      rw [State.foldl_red _ (by intro s x; split <;> simp [fr1, fr2, fr3, fr4])]
      simp [fr1, fr2, fr3, fr4]
  · simp [fr1, fr2, fr3, fr4]

@[simp] theorem flush_img (rq : Requester) (s : State) : (flush rq s).img = s.img := by
  have fr1 := @State.launchOver_frame
  have fr2 := @State.modTsk_frame
  have fr3 := @State.refuseWrite_frame
  have fr4 := @State.setCtx_frame
  have e : ∀ (t : State) f, (t.modTsk f).img = t.img := fun _ _ => rfl
  unfold flush; dsimp only
  split
  · split
    all_goals
      try rw [e]
      rw [State.foldl_img _ (by intro s x; split <;> simp [fr1, fr2, fr3, fr4])]
      simp [fr1, fr2, fr3, fr4]
  · simp [fr1, fr2, fr3, fr4]

@[simp] theorem flush_pwr (rq : Requester) (s : State) : (flush rq s).pwr = s.pwr := by
  have fr1 := @State.launchOver_frame
  have fr2 := @State.modTsk_frame
  have fr3 := @State.refuseWrite_frame
  have fr4 := @State.setCtx_frame
  have e : ∀ (t : State) f, (t.modTsk f).pwr = t.pwr := fun _ _ => rfl
  unfold flush; dsimp only
  split
  · split
    all_goals
      try rw [e]
      rw [State.foldl_pwr _ (by intro s x; split <;> simp [fr1, fr2, fr3, fr4])]
      simp [fr1, fr2, fr3, fr4]
  · simp [fr1, fr2, fr3, fr4]

@[simp] theorem flush_pending (rq : Requester) (s : State) : (flush rq s).pending = s.pending := by
  have fr1 := @State.launchOver_frame
  have fr2 := @State.modTsk_frame
  have fr3 := @State.refuseWrite_frame
  have fr4 := @State.setCtx_frame
  have e : ∀ (t : State) f, (t.modTsk f).pending = t.pending := fun _ _ => rfl
  unfold flush; dsimp only
  split
  · split
    all_goals
      try rw [e]
      rw [State.foldl_pending _ (by intro s x; split <;> simp [fr1, fr2, fr3, fr4])]
      simp [fr1, fr2, fr3, fr4]
  · simp [fr1, fr2, fr3, fr4]

end Sys2Proof.Machine
end

