-- ==== Sys2Proof/Laws/FrameHost.lean ====
section
/-! SUPPORT. What the operations and meanings leave as it was: of each, every field of the state that it never changes, continued. -/

set_option linter.unusedSimpArgs false
set_option linter.unusedTactic false
set_option linter.unnecessarySeqFocus false
set_option linter.unreachableTactic false
set_option linter.unusedVariables false

namespace Sys2Proof.Machine

theorem State.dlCounter_frame (s : State) (t : TaskEnt) :
    (State.dlCounter s t).2.regs = s.regs ∧ (State.dlCounter s t).2.pairLo = s.pairLo ∧ (State.dlCounter s t).2.pairCap = s.pairCap ∧ (State.dlCounter s t).2.out = s.out ∧ (State.dlCounter s t).2.policy = s.policy ∧ (State.dlCounter s t).2.err = s.err ∧ (State.dlCounter s t).2.chk = s.chk ∧ (State.dlCounter s t).2.snp = s.snp ∧ (State.dlCounter s t).2.irq = s.irq ∧ (State.dlCounter s t).2.ezl = s.ezl ∧ (State.dlCounter s t).2.stp = s.stp ∧ (State.dlCounter s t).2.fmt = s.fmt ∧ (State.dlCounter s t).2.arr = s.arr ∧ (State.dlCounter s t).2.vec = s.vec ∧ (State.dlCounter s t).2.mxe = s.mxe ∧ (State.dlCounter s t).2.upd = s.upd ∧ (State.dlCounter s t).2.red = s.red ∧ (State.dlCounter s t).2.tsk = s.tsk ∧ (State.dlCounter s t).2.mem = s.mem ∧ (State.dlCounter s t).2.hif = s.hif ∧ (State.dlCounter s t).2.img = s.img ∧ (State.dlCounter s t).2.pwr = s.pwr ∧ (State.dlCounter s t).2.pending = s.pending := by
  have fr1 := @State.draw_frame
  unfold State.dlCounter; (repeat' split) <;> simp [fr1]


theorem deadlock_frame (d : Nat) (s : State) :
    (deadlock d s).pairLo = s.pairLo ∧ (deadlock d s).pairCap = s.pairCap ∧ (deadlock d s).out = s.out ∧ (deadlock d s).policy = s.policy ∧ (deadlock d s).chk = s.chk ∧ (deadlock d s).snp = s.snp ∧ (deadlock d s).irq = s.irq ∧ (deadlock d s).ezl = s.ezl ∧ (deadlock d s).stp = s.stp ∧ (deadlock d s).fmt = s.fmt ∧ (deadlock d s).arr = s.arr ∧ (deadlock d s).vec = s.vec ∧ (deadlock d s).mxe = s.mxe ∧ (deadlock d s).upd = s.upd ∧ (deadlock d s).red = s.red ∧ (deadlock d s).tsk = s.tsk ∧ (deadlock d s).mem = s.mem ∧ (deadlock d s).hif = s.hif ∧ (deadlock d s).img = s.img ∧ (deadlock d s).pwr = s.pwr ∧ (deadlock d s).pending = s.pending := by
  have fr1 := @State.dlCounter_frame
  have fr2 := @State.eventLog_frame
  have fr3 := @State.setReg_frame
  unfold deadlock; (repeat' split) <;> simp [fr1, fr2, fr3]


theorem dutySplitWrite_frame (v : Word) (s : State) :
    (dutySplitWrite v s).pairLo = s.pairLo ∧ (dutySplitWrite v s).pairCap = s.pairCap ∧ (dutySplitWrite v s).out = s.out ∧ (dutySplitWrite v s).free = s.free ∧ (dutySplitWrite v s).policy = s.policy ∧ (dutySplitWrite v s).err = s.err ∧ (dutySplitWrite v s).chk = s.chk ∧ (dutySplitWrite v s).snp = s.snp ∧ (dutySplitWrite v s).irq = s.irq ∧ (dutySplitWrite v s).ezl = s.ezl ∧ (dutySplitWrite v s).stp = s.stp ∧ (dutySplitWrite v s).fmt = s.fmt ∧ (dutySplitWrite v s).vec = s.vec ∧ (dutySplitWrite v s).mxe = s.mxe ∧ (dutySplitWrite v s).upd = s.upd ∧ (dutySplitWrite v s).red = s.red ∧ (dutySplitWrite v s).mem = s.mem ∧ (dutySplitWrite v s).hif = s.hif ∧ (dutySplitWrite v s).img = s.img ∧ (dutySplitWrite v s).pwr = s.pwr ∧ (dutySplitWrite v s).pending = s.pending := by
  have fr1 := @State.modArr_frame
  have fr2 := @State.modTsk_frame
  have fr3 := @State.setReg_frame
  simp [dutySplitWrite, fr1, fr2, fr3]


theorem dutyBoundary_frame (s : State) :
    (dutyBoundary s).pairLo = s.pairLo ∧ (dutyBoundary s).pairCap = s.pairCap ∧ (dutyBoundary s).out = s.out ∧ (dutyBoundary s).free = s.free ∧ (dutyBoundary s).policy = s.policy ∧ (dutyBoundary s).err = s.err ∧ (dutyBoundary s).chk = s.chk ∧ (dutyBoundary s).snp = s.snp ∧ (dutyBoundary s).ezl = s.ezl ∧ (dutyBoundary s).stp = s.stp ∧ (dutyBoundary s).fmt = s.fmt ∧ (dutyBoundary s).arr = s.arr ∧ (dutyBoundary s).vec = s.vec ∧ (dutyBoundary s).mxe = s.mxe ∧ (dutyBoundary s).upd = s.upd ∧ (dutyBoundary s).red = s.red ∧ (dutyBoundary s).tsk = s.tsk ∧ (dutyBoundary s).mem = s.mem ∧ (dutyBoundary s).hif = s.hif ∧ (dutyBoundary s).img = s.img ∧ (dutyBoundary s).pwr = s.pwr ∧ (dutyBoundary s).pending = s.pending := by
  have fr1 := @State.dutyBound_frame
  have fr2 := @State.orderBound_frame
  simp [dutyBoundary, fr1, fr2]


theorem fcvt_frame (d u : Nat) (w : TwillWord) (s : State) :
    (fcvt d u w s).pairLo = s.pairLo ∧ (fcvt d u w s).pairCap = s.pairCap ∧ (fcvt d u w s).out = s.out ∧ (fcvt d u w s).free = s.free ∧ (fcvt d u w s).policy = s.policy ∧ (fcvt d u w s).chk = s.chk ∧ (fcvt d u w s).snp = s.snp ∧ (fcvt d u w s).irq = s.irq ∧ (fcvt d u w s).ezl = s.ezl ∧ (fcvt d u w s).stp = s.stp ∧ (fcvt d u w s).fmt = s.fmt ∧ (fcvt d u w s).arr = s.arr ∧ (fcvt d u w s).mxe = s.mxe ∧ (fcvt d u w s).upd = s.upd ∧ (fcvt d u w s).red = s.red ∧ (fcvt d u w s).mem = s.mem ∧ (fcvt d u w s).hif = s.hif ∧ (fcvt d u w s).img = s.img ∧ (fcvt d u w s).pwr = s.pwr ∧ (fcvt d u w s).pending = s.pending := by
  have fr1 := @twIllegal_frame
  have fr2 := @twRun_frame
  simp [fcvt, fr1, fr2]


theorem qcvt_frame (d u : Nat) (w : TwillWord) (s : State) :
    (qcvt d u w s).pairLo = s.pairLo ∧ (qcvt d u w s).pairCap = s.pairCap ∧ (qcvt d u w s).out = s.out ∧ (qcvt d u w s).free = s.free ∧ (qcvt d u w s).policy = s.policy ∧ (qcvt d u w s).chk = s.chk ∧ (qcvt d u w s).snp = s.snp ∧ (qcvt d u w s).irq = s.irq ∧ (qcvt d u w s).ezl = s.ezl ∧ (qcvt d u w s).fmt = s.fmt ∧ (qcvt d u w s).arr = s.arr ∧ (qcvt d u w s).mxe = s.mxe ∧ (qcvt d u w s).upd = s.upd ∧ (qcvt d u w s).red = s.red ∧ (qcvt d u w s).mem = s.mem ∧ (qcvt d u w s).hif = s.hif ∧ (qcvt d u w s).img = s.img ∧ (qcvt d u w s).pwr = s.pwr ∧ (qcvt d u w s).pending = s.pending := by
  have fr1 := @State.incPair_frame
  have fr2 := @State.incReg_frame
  have fr3 := @State.modCnt_frame
  have fr4 := @twDone_frame
  have fr5 := @twIllMark_frame
  have fr6 := @twIllegal_frame
  simp [qcvt, fr1, fr2, fr3, fr4, fr5, fr6]


theorem vpackb_frame (d u : Nat) (w : TwillWord) (s : State) :
    (vpackb d u w s).pairLo = s.pairLo ∧ (vpackb d u w s).pairCap = s.pairCap ∧ (vpackb d u w s).out = s.out ∧ (vpackb d u w s).free = s.free ∧ (vpackb d u w s).policy = s.policy ∧ (vpackb d u w s).chk = s.chk ∧ (vpackb d u w s).snp = s.snp ∧ (vpackb d u w s).irq = s.irq ∧ (vpackb d u w s).ezl = s.ezl ∧ (vpackb d u w s).fmt = s.fmt ∧ (vpackb d u w s).arr = s.arr ∧ (vpackb d u w s).mxe = s.mxe ∧ (vpackb d u w s).upd = s.upd ∧ (vpackb d u w s).red = s.red ∧ (vpackb d u w s).mem = s.mem ∧ (vpackb d u w s).hif = s.hif ∧ (vpackb d u w s).img = s.img ∧ (vpackb d u w s).pwr = s.pwr ∧ (vpackb d u w s).pending = s.pending := by
  have fr1 := @State.incPair_frame
  have fr2 := @State.modCnt_frame
  have fr3 := @twIllegal_frame
  have fr4 := @twRun_frame
  simp [vpackb, fr1, fr2, fr3, fr4]


theorem vgetx_frame (d u : Nat) (w : TwillWord) (s : State) :
    (vgetx d u w s).pairLo = s.pairLo ∧ (vgetx d u w s).pairCap = s.pairCap ∧ (vgetx d u w s).out = s.out ∧ (vgetx d u w s).free = s.free ∧ (vgetx d u w s).policy = s.policy ∧ (vgetx d u w s).chk = s.chk ∧ (vgetx d u w s).snp = s.snp ∧ (vgetx d u w s).irq = s.irq ∧ (vgetx d u w s).ezl = s.ezl ∧ (vgetx d u w s).stp = s.stp ∧ (vgetx d u w s).fmt = s.fmt ∧ (vgetx d u w s).arr = s.arr ∧ (vgetx d u w s).mxe = s.mxe ∧ (vgetx d u w s).upd = s.upd ∧ (vgetx d u w s).red = s.red ∧ (vgetx d u w s).mem = s.mem ∧ (vgetx d u w s).hif = s.hif ∧ (vgetx d u w s).img = s.img ∧ (vgetx d u w s).pwr = s.pwr ∧ (vgetx d u w s).pending = s.pending := by
  have fr1 := @twIllMark_frame
  have fr2 := @twIllegal_frame
  have fr3 := @twRun_frame
  simp [vgetx, fr1, fr2, fr3]


theorem vamax_frame (d u : Nat) (w : TwillWord) (s : State) :
    (vamax d u w s).pairLo = s.pairLo ∧ (vamax d u w s).pairCap = s.pairCap ∧ (vamax d u w s).out = s.out ∧ (vamax d u w s).free = s.free ∧ (vamax d u w s).policy = s.policy ∧ (vamax d u w s).chk = s.chk ∧ (vamax d u w s).snp = s.snp ∧ (vamax d u w s).irq = s.irq ∧ (vamax d u w s).ezl = s.ezl ∧ (vamax d u w s).stp = s.stp ∧ (vamax d u w s).arr = s.arr ∧ (vamax d u w s).mxe = s.mxe ∧ (vamax d u w s).upd = s.upd ∧ (vamax d u w s).red = s.red ∧ (vamax d u w s).mem = s.mem ∧ (vamax d u w s).hif = s.hif ∧ (vamax d u w s).img = s.img ∧ (vamax d u w s).pwr = s.pwr ∧ (vamax d u w s).pending = s.pending := by
  have fr1 := @State.foldAmax_frame
  have fr2 := @twIllMark_frame
  have fr3 := @twIllegal_frame
  have fr4 := @twRun_frame
  simp [vamax, fr1, fr2, fr3, fr4]


theorem State.noteGrad_frame (s : State) (d : Nat) (x0 x : Desc) :
    (State.noteGrad s d x0 x).regs = s.regs ∧ (State.noteGrad s d x0 x).pairLo = s.pairLo ∧ (State.noteGrad s d x0 x).pairCap = s.pairCap ∧ (State.noteGrad s d x0 x).out = s.out ∧ (State.noteGrad s d x0 x).free = s.free ∧ (State.noteGrad s d x0 x).policy = s.policy ∧ (State.noteGrad s d x0 x).err = s.err ∧ (State.noteGrad s d x0 x).chk = s.chk ∧ (State.noteGrad s d x0 x).snp = s.snp ∧ (State.noteGrad s d x0 x).irq = s.irq ∧ (State.noteGrad s d x0 x).ezl = s.ezl ∧ (State.noteGrad s d x0 x).stp = s.stp ∧ (State.noteGrad s d x0 x).fmt = s.fmt ∧ (State.noteGrad s d x0 x).arr = s.arr ∧ (State.noteGrad s d x0 x).vec = s.vec ∧ (State.noteGrad s d x0 x).upd = s.upd ∧ (State.noteGrad s d x0 x).red = s.red ∧ (State.noteGrad s d x0 x).tsk = s.tsk ∧ (State.noteGrad s d x0 x).mem = s.mem ∧ (State.noteGrad s d x0 x).hif = s.hif ∧ (State.noteGrad s d x0 x).img = s.img ∧ (State.noteGrad s d x0 x).pwr = s.pwr ∧ (State.noteGrad s d x0 x).pending = s.pending := by
  have fr1 := @State.modMxe_frame
  simp [State.noteGrad, fr1]


@[simp] theorem State.writeTile_regs (s : State) (v : FmtView) (x : Desc) (t : Nat) (out : Nat) (tr : Bool) (g : Nat → Nat → Word) :
    (State.writeTile s v x t out tr g).1.regs = s.regs := by
  have fr1 := @State.hbmWrite_frame
  unfold State.writeTile; dsimp only
  split <;> exact State.foldl_proj_regs (fun (a : State × EncCount) => a.1) _ (by intro a x; simp [fr1]) _ _

@[simp] theorem State.writeTile_pairLo (s : State) (v : FmtView) (x : Desc) (t : Nat) (out : Nat) (tr : Bool) (g : Nat → Nat → Word) :
    (State.writeTile s v x t out tr g).1.pairLo = s.pairLo := by
  have fr1 := @State.hbmWrite_frame
  unfold State.writeTile; dsimp only
  split <;> exact State.foldl_proj_pairLo (fun (a : State × EncCount) => a.1) _ (by intro a x; simp [fr1]) _ _

@[simp] theorem State.writeTile_pairCap (s : State) (v : FmtView) (x : Desc) (t : Nat) (out : Nat) (tr : Bool) (g : Nat → Nat → Word) :
    (State.writeTile s v x t out tr g).1.pairCap = s.pairCap := by
  have fr1 := @State.hbmWrite_frame
  unfold State.writeTile; dsimp only
  split <;> exact State.foldl_proj_pairCap (fun (a : State × EncCount) => a.1) _ (by intro a x; simp [fr1]) _ _

@[simp] theorem State.writeTile_out (s : State) (v : FmtView) (x : Desc) (t : Nat) (out : Nat) (tr : Bool) (g : Nat → Nat → Word) :
    (State.writeTile s v x t out tr g).1.out = s.out := by
  have fr1 := @State.hbmWrite_frame
  unfold State.writeTile; dsimp only
  split <;> exact State.foldl_proj_out (fun (a : State × EncCount) => a.1) _ (by intro a x; simp [fr1]) _ _

@[simp] theorem State.writeTile_free (s : State) (v : FmtView) (x : Desc) (t : Nat) (out : Nat) (tr : Bool) (g : Nat → Nat → Word) :
    (State.writeTile s v x t out tr g).1.free = s.free := by
  have fr1 := @State.hbmWrite_frame
  unfold State.writeTile; dsimp only
  split <;> exact State.foldl_proj_free (fun (a : State × EncCount) => a.1) _ (by intro a x; simp [fr1]) _ _

@[simp] theorem State.writeTile_policy (s : State) (v : FmtView) (x : Desc) (t : Nat) (out : Nat) (tr : Bool) (g : Nat → Nat → Word) :
    (State.writeTile s v x t out tr g).1.policy = s.policy := by
  have fr1 := @State.hbmWrite_frame
  unfold State.writeTile; dsimp only
  split <;> exact State.foldl_proj_policy (fun (a : State × EncCount) => a.1) _ (by intro a x; simp [fr1]) _ _

@[simp] theorem State.writeTile_err (s : State) (v : FmtView) (x : Desc) (t : Nat) (out : Nat) (tr : Bool) (g : Nat → Nat → Word) :
    (State.writeTile s v x t out tr g).1.err = s.err := by
  have fr1 := @State.hbmWrite_frame
  unfold State.writeTile; dsimp only
  split <;> exact State.foldl_proj_err (fun (a : State × EncCount) => a.1) _ (by intro a x; simp [fr1]) _ _

@[simp] theorem State.writeTile_chk (s : State) (v : FmtView) (x : Desc) (t : Nat) (out : Nat) (tr : Bool) (g : Nat → Nat → Word) :
    (State.writeTile s v x t out tr g).1.chk = s.chk := by
  have fr1 := @State.hbmWrite_frame
  unfold State.writeTile; dsimp only
  split <;> exact State.foldl_proj_chk (fun (a : State × EncCount) => a.1) _ (by intro a x; simp [fr1]) _ _

@[simp] theorem State.writeTile_snp (s : State) (v : FmtView) (x : Desc) (t : Nat) (out : Nat) (tr : Bool) (g : Nat → Nat → Word) :
    (State.writeTile s v x t out tr g).1.snp = s.snp := by
  have fr1 := @State.hbmWrite_frame
  unfold State.writeTile; dsimp only
  split <;> exact State.foldl_proj_snp (fun (a : State × EncCount) => a.1) _ (by intro a x; simp [fr1]) _ _

@[simp] theorem State.writeTile_irq (s : State) (v : FmtView) (x : Desc) (t : Nat) (out : Nat) (tr : Bool) (g : Nat → Nat → Word) :
    (State.writeTile s v x t out tr g).1.irq = s.irq := by
  have fr1 := @State.hbmWrite_frame
  unfold State.writeTile; dsimp only
  split <;> exact State.foldl_proj_irq (fun (a : State × EncCount) => a.1) _ (by intro a x; simp [fr1]) _ _

@[simp] theorem State.writeTile_ezl (s : State) (v : FmtView) (x : Desc) (t : Nat) (out : Nat) (tr : Bool) (g : Nat → Nat → Word) :
    (State.writeTile s v x t out tr g).1.ezl = s.ezl := by
  have fr1 := @State.hbmWrite_frame
  unfold State.writeTile; dsimp only
  split <;> exact State.foldl_proj_ezl (fun (a : State × EncCount) => a.1) _ (by intro a x; simp [fr1]) _ _

@[simp] theorem State.writeTile_stp (s : State) (v : FmtView) (x : Desc) (t : Nat) (out : Nat) (tr : Bool) (g : Nat → Nat → Word) :
    (State.writeTile s v x t out tr g).1.stp = s.stp := by
  have fr1 := @State.hbmWrite_frame
  unfold State.writeTile; dsimp only
  split <;> exact State.foldl_proj_stp (fun (a : State × EncCount) => a.1) _ (by intro a x; simp [fr1]) _ _

@[simp] theorem State.writeTile_fmt (s : State) (v : FmtView) (x : Desc) (t : Nat) (out : Nat) (tr : Bool) (g : Nat → Nat → Word) :
    (State.writeTile s v x t out tr g).1.fmt = s.fmt := by
  have fr1 := @State.hbmWrite_frame
  unfold State.writeTile; dsimp only
  split <;> exact State.foldl_proj_fmt (fun (a : State × EncCount) => a.1) _ (by intro a x; simp [fr1]) _ _

@[simp] theorem State.writeTile_arr (s : State) (v : FmtView) (x : Desc) (t : Nat) (out : Nat) (tr : Bool) (g : Nat → Nat → Word) :
    (State.writeTile s v x t out tr g).1.arr = s.arr := by
  have fr1 := @State.hbmWrite_frame
  unfold State.writeTile; dsimp only
  split <;> exact State.foldl_proj_arr (fun (a : State × EncCount) => a.1) _ (by intro a x; simp [fr1]) _ _

@[simp] theorem State.writeTile_vec (s : State) (v : FmtView) (x : Desc) (t : Nat) (out : Nat) (tr : Bool) (g : Nat → Nat → Word) :
    (State.writeTile s v x t out tr g).1.vec = s.vec := by
  have fr1 := @State.hbmWrite_frame
  unfold State.writeTile; dsimp only
  split <;> exact State.foldl_proj_vec (fun (a : State × EncCount) => a.1) _ (by intro a x; simp [fr1]) _ _

@[simp] theorem State.writeTile_mxe (s : State) (v : FmtView) (x : Desc) (t : Nat) (out : Nat) (tr : Bool) (g : Nat → Nat → Word) :
    (State.writeTile s v x t out tr g).1.mxe = s.mxe := by
  have fr1 := @State.hbmWrite_frame
  unfold State.writeTile; dsimp only
  split <;> exact State.foldl_proj_mxe (fun (a : State × EncCount) => a.1) _ (by intro a x; simp [fr1]) _ _

@[simp] theorem State.writeTile_upd (s : State) (v : FmtView) (x : Desc) (t : Nat) (out : Nat) (tr : Bool) (g : Nat → Nat → Word) :
    (State.writeTile s v x t out tr g).1.upd = s.upd := by
  have fr1 := @State.hbmWrite_frame
  unfold State.writeTile; dsimp only
  split <;> exact State.foldl_proj_upd (fun (a : State × EncCount) => a.1) _ (by intro a x; simp [fr1]) _ _

@[simp] theorem State.writeTile_red (s : State) (v : FmtView) (x : Desc) (t : Nat) (out : Nat) (tr : Bool) (g : Nat → Nat → Word) :
    (State.writeTile s v x t out tr g).1.red = s.red := by
  have fr1 := @State.hbmWrite_frame
  unfold State.writeTile; dsimp only
  split <;> exact State.foldl_proj_red (fun (a : State × EncCount) => a.1) _ (by intro a x; simp [fr1]) _ _

@[simp] theorem State.writeTile_tsk (s : State) (v : FmtView) (x : Desc) (t : Nat) (out : Nat) (tr : Bool) (g : Nat → Nat → Word) :
    (State.writeTile s v x t out tr g).1.tsk = s.tsk := by
  have fr1 := @State.hbmWrite_frame
  unfold State.writeTile; dsimp only
  split <;> exact State.foldl_proj_tsk (fun (a : State × EncCount) => a.1) _ (by intro a x; simp [fr1]) _ _

@[simp] theorem State.writeTile_hif (s : State) (v : FmtView) (x : Desc) (t : Nat) (out : Nat) (tr : Bool) (g : Nat → Nat → Word) :
    (State.writeTile s v x t out tr g).1.hif = s.hif := by
  have fr1 := @State.hbmWrite_frame
  unfold State.writeTile; dsimp only
  split <;> exact State.foldl_proj_hif (fun (a : State × EncCount) => a.1) _ (by intro a x; simp [fr1]) _ _

@[simp] theorem State.writeTile_img (s : State) (v : FmtView) (x : Desc) (t : Nat) (out : Nat) (tr : Bool) (g : Nat → Nat → Word) :
    (State.writeTile s v x t out tr g).1.img = s.img := by
  have fr1 := @State.hbmWrite_frame
  unfold State.writeTile; dsimp only
  split <;> exact State.foldl_proj_img (fun (a : State × EncCount) => a.1) _ (by intro a x; simp [fr1]) _ _

@[simp] theorem State.writeTile_pwr (s : State) (v : FmtView) (x : Desc) (t : Nat) (out : Nat) (tr : Bool) (g : Nat → Nat → Word) :
    (State.writeTile s v x t out tr g).1.pwr = s.pwr := by
  have fr1 := @State.hbmWrite_frame
  unfold State.writeTile; dsimp only
  split <;> exact State.foldl_proj_pwr (fun (a : State × EncCount) => a.1) _ (by intro a x; simp [fr1]) _ _

@[simp] theorem State.writeTile_pending (s : State) (v : FmtView) (x : Desc) (t : Nat) (out : Nat) (tr : Bool) (g : Nat → Nat → Word) :
    (State.writeTile s v x t out tr g).1.pending = s.pending := by
  have fr1 := @State.hbmWrite_frame
  unfold State.writeTile; dsimp only
  split <;> exact State.foldl_proj_pending (fun (a : State × EncCount) => a.1) _ (by intro a x; simp [fr1]) _ _


theorem State.tileStats_frame (s : State) (v : FmtView) (x : Desc) (t : Nat) (g : Nat → Nat → Word) :
    (State.tileStats s v x t g).regs = s.regs ∧ (State.tileStats s v x t g).pairLo = s.pairLo ∧ (State.tileStats s v x t g).pairCap = s.pairCap ∧ (State.tileStats s v x t g).out = s.out ∧ (State.tileStats s v x t g).free = s.free ∧ (State.tileStats s v x t g).policy = s.policy ∧ (State.tileStats s v x t g).err = s.err ∧ (State.tileStats s v x t g).chk = s.chk ∧ (State.tileStats s v x t g).snp = s.snp ∧ (State.tileStats s v x t g).irq = s.irq ∧ (State.tileStats s v x t g).ezl = s.ezl ∧ (State.tileStats s v x t g).stp = s.stp ∧ (State.tileStats s v x t g).arr = s.arr ∧ (State.tileStats s v x t g).vec = s.vec ∧ (State.tileStats s v x t g).mxe = s.mxe ∧ (State.tileStats s v x t g).upd = s.upd ∧ (State.tileStats s v x t g).red = s.red ∧ (State.tileStats s v x t g).tsk = s.tsk ∧ (State.tileStats s v x t g).mem = s.mem ∧ (State.tileStats s v x t g).hif = s.hif ∧ (State.tileStats s v x t g).img = s.img ∧ (State.tileStats s v x t g).pwr = s.pwr ∧ (State.tileStats s v x t g).pending = s.pending := by
  have fr1 := @State.foldAmax_frame
  have fr2 := @State.modFmt_frame
  unfold State.tileStats; (repeat' split) <;> simp [fr1, fr2]


theorem State.noteEnc_frame (s : State) (d : Nat) (own : Bool) (c : EncCount) (nf : Nat) :
    (State.noteEnc s d own c nf).pairLo = s.pairLo ∧ (State.noteEnc s d own c nf).pairCap = s.pairCap ∧ (State.noteEnc s d own c nf).out = s.out ∧ (State.noteEnc s d own c nf).free = s.free ∧ (State.noteEnc s d own c nf).policy = s.policy ∧ (State.noteEnc s d own c nf).err = s.err ∧ (State.noteEnc s d own c nf).chk = s.chk ∧ (State.noteEnc s d own c nf).snp = s.snp ∧ (State.noteEnc s d own c nf).irq = s.irq ∧ (State.noteEnc s d own c nf).ezl = s.ezl ∧ (State.noteEnc s d own c nf).fmt = s.fmt ∧ (State.noteEnc s d own c nf).arr = s.arr ∧ (State.noteEnc s d own c nf).vec = s.vec ∧ (State.noteEnc s d own c nf).mxe = s.mxe ∧ (State.noteEnc s d own c nf).upd = s.upd ∧ (State.noteEnc s d own c nf).red = s.red ∧ (State.noteEnc s d own c nf).tsk = s.tsk ∧ (State.noteEnc s d own c nf).mem = s.mem ∧ (State.noteEnc s d own c nf).hif = s.hif ∧ (State.noteEnc s d own c nf).img = s.img ∧ (State.noteEnc s d own c nf).pwr = s.pwr ∧ (State.noteEnc s d own c nf).pending = s.pending := by
  have fr1 := @State.addEnc_frame
  have fr2 := @State.event_frame
  have fr3 := @State.incPair_frame
  have fr4 := @State.incReg_frame
  have fr5 := @State.modCnt_frame
  simp [State.noteEnc, fr1, fr2, fr3, fr4, fr5]


theorem State.noteOvf_frame (s : State) (d n : Nat) :
    (State.noteOvf s d n).pairLo = s.pairLo ∧ (State.noteOvf s d n).pairCap = s.pairCap ∧ (State.noteOvf s d n).out = s.out ∧ (State.noteOvf s d n).free = s.free ∧ (State.noteOvf s d n).policy = s.policy ∧ (State.noteOvf s d n).err = s.err ∧ (State.noteOvf s d n).chk = s.chk ∧ (State.noteOvf s d n).snp = s.snp ∧ (State.noteOvf s d n).irq = s.irq ∧ (State.noteOvf s d n).ezl = s.ezl ∧ (State.noteOvf s d n).stp = s.stp ∧ (State.noteOvf s d n).fmt = s.fmt ∧ (State.noteOvf s d n).arr = s.arr ∧ (State.noteOvf s d n).vec = s.vec ∧ (State.noteOvf s d n).mxe = s.mxe ∧ (State.noteOvf s d n).upd = s.upd ∧ (State.noteOvf s d n).red = s.red ∧ (State.noteOvf s d n).tsk = s.tsk ∧ (State.noteOvf s d n).mem = s.mem ∧ (State.noteOvf s d n).hif = s.hif ∧ (State.noteOvf s d n).img = s.img ∧ (State.noteOvf s d n).pwr = s.pwr ∧ (State.noteOvf s d n).pending = s.pending := by
  have fr1 := @State.event_frame
  have fr2 := @State.incReg_frame
  simp [State.noteOvf, fr1, fr2]


theorem State.tileOut_frame (s : State) (d : Nat) (task : Option TaskEnt) (x : Desc) (t : Nat) :
    (State.tileOut s d task x t).pairLo = s.pairLo ∧ (State.tileOut s d task x t).pairCap = s.pairCap ∧ (State.tileOut s d task x t).out = s.out ∧ (State.tileOut s d task x t).free = s.free ∧ (State.tileOut s d task x t).policy = s.policy ∧ (State.tileOut s d task x t).err = s.err ∧ (State.tileOut s d task x t).chk = s.chk ∧ (State.tileOut s d task x t).snp = s.snp ∧ (State.tileOut s d task x t).irq = s.irq ∧ (State.tileOut s d task x t).ezl = s.ezl ∧ (State.tileOut s d task x t).arr = s.arr ∧ (State.tileOut s d task x t).vec = s.vec ∧ (State.tileOut s d task x t).mxe = s.mxe ∧ (State.tileOut s d task x t).upd = s.upd ∧ (State.tileOut s d task x t).red = s.red ∧ (State.tileOut s d task x t).tsk = s.tsk ∧ (State.tileOut s d task x t).hif = s.hif ∧ (State.tileOut s d task x t).img = s.img ∧ (State.tileOut s d task x t).pwr = s.pwr ∧ (State.tileOut s d task x t).pending = s.pending := by
  have fr1 := @State.noteEnc_frame
  have fr2 := @State.noteOvf_frame
  have fr3 := @State.tileStats_frame
  have fr4 := @State.event_frame
  have fr5 := @State.incReg_frame
  simp [State.tileOut, fr1, fr2, fr3, fr4, fr5]


theorem State.fbTile_frame (s : State) (d : Nat) (task : Option TaskEnt) (e0 : MatEnt) (x : Desc) (t : Nat) :
    (State.fbTile s d task e0 x t).pairLo = s.pairLo ∧ (State.fbTile s d task e0 x t).pairCap = s.pairCap ∧ (State.fbTile s d task e0 x t).out = s.out ∧ (State.fbTile s d task e0 x t).free = s.free ∧ (State.fbTile s d task e0 x t).policy = s.policy ∧ (State.fbTile s d task e0 x t).err = s.err ∧ (State.fbTile s d task e0 x t).chk = s.chk ∧ (State.fbTile s d task e0 x t).snp = s.snp ∧ (State.fbTile s d task e0 x t).irq = s.irq ∧ (State.fbTile s d task e0 x t).ezl = s.ezl ∧ (State.fbTile s d task e0 x t).arr = s.arr ∧ (State.fbTile s d task e0 x t).vec = s.vec ∧ (State.fbTile s d task e0 x t).mxe = s.mxe ∧ (State.fbTile s d task e0 x t).upd = s.upd ∧ (State.fbTile s d task e0 x t).red = s.red ∧ (State.fbTile s d task e0 x t).tsk = s.tsk ∧ (State.fbTile s d task e0 x t).hif = s.hif ∧ (State.fbTile s d task e0 x t).img = s.img ∧ (State.fbTile s d task e0 x t).pwr = s.pwr ∧ (State.fbTile s d task e0 x t).pending = s.pending := by
  have fr1 := @State.hbmWrite_frame
  have fr2 := @State.incReg_frame
  have fr3 := @State.noteEnc_frame
  have fr4 := @State.tileStats_frame
  simp [State.fbTile, fr1, fr2, fr3, fr4]


theorem State.noteHold_frame (s : State) (k c : Nat) (h : Bool × Bool) :
    (State.noteHold s k c h).pairLo = s.pairLo ∧ (State.noteHold s k c h).pairCap = s.pairCap ∧ (State.noteHold s k c h).out = s.out ∧ (State.noteHold s k c h).free = s.free ∧ (State.noteHold s k c h).policy = s.policy ∧ (State.noteHold s k c h).err = s.err ∧ (State.noteHold s k c h).chk = s.chk ∧ (State.noteHold s k c h).snp = s.snp ∧ (State.noteHold s k c h).irq = s.irq ∧ (State.noteHold s k c h).ezl = s.ezl ∧ (State.noteHold s k c h).fmt = s.fmt ∧ (State.noteHold s k c h).arr = s.arr ∧ (State.noteHold s k c h).vec = s.vec ∧ (State.noteHold s k c h).mxe = s.mxe ∧ (State.noteHold s k c h).upd = s.upd ∧ (State.noteHold s k c h).tsk = s.tsk ∧ (State.noteHold s k c h).mem = s.mem ∧ (State.noteHold s k c h).hif = s.hif ∧ (State.noteHold s k c h).img = s.img ∧ (State.noteHold s k c h).pwr = s.pwr ∧ (State.noteHold s k c h).pending = s.pending := by
  have fr1 := @State.event_frame
  have fr2 := @State.modCnt_frame
  have fr3 := @State.setChan_frame
  simp [State.noteHold, fr1, fr2, fr3]


theorem State.sendMsg_frame (s : State) (c : Nat) (m : RingMsg) :
    (State.sendMsg s c m).pairLo = s.pairLo ∧ (State.sendMsg s c m).pairCap = s.pairCap ∧ (State.sendMsg s c m).free = s.free ∧ (State.sendMsg s c m).policy = s.policy ∧ (State.sendMsg s c m).err = s.err ∧ (State.sendMsg s c m).chk = s.chk ∧ (State.sendMsg s c m).snp = s.snp ∧ (State.sendMsg s c m).irq = s.irq ∧ (State.sendMsg s c m).stp = s.stp ∧ (State.sendMsg s c m).fmt = s.fmt ∧ (State.sendMsg s c m).arr = s.arr ∧ (State.sendMsg s c m).vec = s.vec ∧ (State.sendMsg s c m).mxe = s.mxe ∧ (State.sendMsg s c m).upd = s.upd ∧ (State.sendMsg s c m).red = s.red ∧ (State.sendMsg s c m).tsk = s.tsk ∧ (State.sendMsg s c m).mem = s.mem ∧ (State.sendMsg s c m).hif = s.hif ∧ (State.sendMsg s c m).img = s.img ∧ (State.sendMsg s c m).pwr = s.pwr ∧ (State.sendMsg s c m).pending = s.pending := by
  have fr1 := @State.sendOn_frame
  simp [State.sendMsg, fr1]


theorem State.setCore_frame (s : State) (k : Nat) (x : CoreSt) :
    (State.setCore s k x).regs = s.regs ∧ (State.setCore s k x).pairLo = s.pairLo ∧ (State.setCore s k x).pairCap = s.pairCap ∧ (State.setCore s k x).out = s.out ∧ (State.setCore s k x).free = s.free ∧ (State.setCore s k x).policy = s.policy ∧ (State.setCore s k x).err = s.err ∧ (State.setCore s k x).chk = s.chk ∧ (State.setCore s k x).snp = s.snp ∧ (State.setCore s k x).irq = s.irq ∧ (State.setCore s k x).ezl = s.ezl ∧ (State.setCore s k x).stp = s.stp ∧ (State.setCore s k x).fmt = s.fmt ∧ (State.setCore s k x).arr = s.arr ∧ (State.setCore s k x).vec = s.vec ∧ (State.setCore s k x).upd = s.upd ∧ (State.setCore s k x).red = s.red ∧ (State.setCore s k x).tsk = s.tsk ∧ (State.setCore s k x).mem = s.mem ∧ (State.setCore s k x).hif = s.hif ∧ (State.setCore s k x).img = s.img ∧ (State.setCore s k x).pwr = s.pwr ∧ (State.setCore s k x).pending = s.pending := by
  have fr1 := @State.modMxe_frame
  simp [State.setCore, fr1]


theorem State.setCluster_frame (s : State) (k : Nat) (x : List DescRun) :
    (State.setCluster s k x).regs = s.regs ∧ (State.setCluster s k x).pairLo = s.pairLo ∧ (State.setCluster s k x).pairCap = s.pairCap ∧ (State.setCluster s k x).out = s.out ∧ (State.setCluster s k x).free = s.free ∧ (State.setCluster s k x).policy = s.policy ∧ (State.setCluster s k x).err = s.err ∧ (State.setCluster s k x).chk = s.chk ∧ (State.setCluster s k x).snp = s.snp ∧ (State.setCluster s k x).irq = s.irq ∧ (State.setCluster s k x).ezl = s.ezl ∧ (State.setCluster s k x).stp = s.stp ∧ (State.setCluster s k x).fmt = s.fmt ∧ (State.setCluster s k x).arr = s.arr ∧ (State.setCluster s k x).vec = s.vec ∧ (State.setCluster s k x).upd = s.upd ∧ (State.setCluster s k x).red = s.red ∧ (State.setCluster s k x).tsk = s.tsk ∧ (State.setCluster s k x).mem = s.mem ∧ (State.setCluster s k x).hif = s.hif ∧ (State.setCluster s k x).img = s.img ∧ (State.setCluster s k x).pwr = s.pwr ∧ (State.setCluster s k x).pending = s.pending := by
  have fr1 := @State.modMxe_frame
  simp [State.setCluster, fr1]


theorem State.setConv_frame (s : State) (k : Nat) (x : Option ConvSlice) :
    (State.setConv s k x).regs = s.regs ∧ (State.setConv s k x).pairLo = s.pairLo ∧ (State.setConv s k x).pairCap = s.pairCap ∧ (State.setConv s k x).out = s.out ∧ (State.setConv s k x).free = s.free ∧ (State.setConv s k x).policy = s.policy ∧ (State.setConv s k x).err = s.err ∧ (State.setConv s k x).chk = s.chk ∧ (State.setConv s k x).snp = s.snp ∧ (State.setConv s k x).irq = s.irq ∧ (State.setConv s k x).ezl = s.ezl ∧ (State.setConv s k x).stp = s.stp ∧ (State.setConv s k x).fmt = s.fmt ∧ (State.setConv s k x).arr = s.arr ∧ (State.setConv s k x).vec = s.vec ∧ (State.setConv s k x).upd = s.upd ∧ (State.setConv s k x).red = s.red ∧ (State.setConv s k x).tsk = s.tsk ∧ (State.setConv s k x).mem = s.mem ∧ (State.setConv s k x).hif = s.hif ∧ (State.setConv s k x).img = s.img ∧ (State.setConv s k x).pwr = s.pwr ∧ (State.setConv s k x).pending = s.pending := by
  have fr1 := @State.modMxe_frame
  simp [State.setConv, fr1]


theorem State.setRun_frame (s : State) (k : Nat) (r : DescRun) :
    (State.setRun s k r).regs = s.regs ∧ (State.setRun s k r).pairLo = s.pairLo ∧ (State.setRun s k r).pairCap = s.pairCap ∧ (State.setRun s k r).out = s.out ∧ (State.setRun s k r).free = s.free ∧ (State.setRun s k r).policy = s.policy ∧ (State.setRun s k r).err = s.err ∧ (State.setRun s k r).chk = s.chk ∧ (State.setRun s k r).snp = s.snp ∧ (State.setRun s k r).irq = s.irq ∧ (State.setRun s k r).ezl = s.ezl ∧ (State.setRun s k r).stp = s.stp ∧ (State.setRun s k r).fmt = s.fmt ∧ (State.setRun s k r).arr = s.arr ∧ (State.setRun s k r).vec = s.vec ∧ (State.setRun s k r).upd = s.upd ∧ (State.setRun s k r).red = s.red ∧ (State.setRun s k r).tsk = s.tsk ∧ (State.setRun s k r).mem = s.mem ∧ (State.setRun s k r).hif = s.hif ∧ (State.setRun s k r).img = s.img ∧ (State.setRun s k r).pwr = s.pwr ∧ (State.setRun s k r).pending = s.pending := by
  have fr1 := @State.setCluster_frame
  simp [State.setRun, fr1]


theorem State.notePast_frame (s : State) (k : Nat) (r : DescRun) :
    (State.notePast s k r).regs = s.regs ∧ (State.notePast s k r).pairLo = s.pairLo ∧ (State.notePast s k r).pairCap = s.pairCap ∧ (State.notePast s k r).out = s.out ∧ (State.notePast s k r).free = s.free ∧ (State.notePast s k r).policy = s.policy ∧ (State.notePast s k r).err = s.err ∧ (State.notePast s k r).chk = s.chk ∧ (State.notePast s k r).snp = s.snp ∧ (State.notePast s k r).irq = s.irq ∧ (State.notePast s k r).ezl = s.ezl ∧ (State.notePast s k r).stp = s.stp ∧ (State.notePast s k r).fmt = s.fmt ∧ (State.notePast s k r).arr = s.arr ∧ (State.notePast s k r).vec = s.vec ∧ (State.notePast s k r).upd = s.upd ∧ (State.notePast s k r).red = s.red ∧ (State.notePast s k r).tsk = s.tsk ∧ (State.notePast s k r).mem = s.mem ∧ (State.notePast s k r).hif = s.hif ∧ (State.notePast s k r).img = s.img ∧ (State.notePast s k r).pwr = s.pwr ∧ (State.notePast s k r).pending = s.pending := by
  have fr1 := @State.modMxe_frame
  simp [State.notePast, fr1]


theorem State.dropRun_frame (s : State) (k slot : Nat) :
    (State.dropRun s k slot).regs = s.regs ∧ (State.dropRun s k slot).pairLo = s.pairLo ∧ (State.dropRun s k slot).pairCap = s.pairCap ∧ (State.dropRun s k slot).out = s.out ∧ (State.dropRun s k slot).free = s.free ∧ (State.dropRun s k slot).policy = s.policy ∧ (State.dropRun s k slot).err = s.err ∧ (State.dropRun s k slot).chk = s.chk ∧ (State.dropRun s k slot).snp = s.snp ∧ (State.dropRun s k slot).irq = s.irq ∧ (State.dropRun s k slot).ezl = s.ezl ∧ (State.dropRun s k slot).stp = s.stp ∧ (State.dropRun s k slot).fmt = s.fmt ∧ (State.dropRun s k slot).arr = s.arr ∧ (State.dropRun s k slot).vec = s.vec ∧ (State.dropRun s k slot).upd = s.upd ∧ (State.dropRun s k slot).red = s.red ∧ (State.dropRun s k slot).tsk = s.tsk ∧ (State.dropRun s k slot).mem = s.mem ∧ (State.dropRun s k slot).hif = s.hif ∧ (State.dropRun s k slot).img = s.img ∧ (State.dropRun s k slot).pwr = s.pwr ∧ (State.dropRun s k slot).pending = s.pending := by
  have fr1 := @State.notePast_frame
  have fr2 := @State.setCluster_frame
  unfold State.dropRun; (repeat' split) <;> simp [fr1, fr2]


theorem State.refuseDesc_frame (s : State) (d c : Nat) (r : DescRun) (cause : Nat) :
    (State.refuseDesc s d c r cause).pairLo = s.pairLo ∧ (State.refuseDesc s d c r cause).pairCap = s.pairCap ∧ (State.refuseDesc s d c r cause).out = s.out ∧ (State.refuseDesc s d c r cause).free = s.free ∧ (State.refuseDesc s d c r cause).policy = s.policy ∧ (State.refuseDesc s d c r cause).chk = s.chk ∧ (State.refuseDesc s d c r cause).snp = s.snp ∧ (State.refuseDesc s d c r cause).irq = s.irq ∧ (State.refuseDesc s d c r cause).ezl = s.ezl ∧ (State.refuseDesc s d c r cause).stp = s.stp ∧ (State.refuseDesc s d c r cause).fmt = s.fmt ∧ (State.refuseDesc s d c r cause).arr = s.arr ∧ (State.refuseDesc s d c r cause).vec = s.vec ∧ (State.refuseDesc s d c r cause).upd = s.upd ∧ (State.refuseDesc s d c r cause).red = s.red ∧ (State.refuseDesc s d c r cause).mem = s.mem ∧ (State.refuseDesc s d c r cause).hif = s.hif ∧ (State.refuseDesc s d c r cause).img = s.img ∧ (State.refuseDesc s d c r cause).pwr = s.pwr ∧ (State.refuseDesc s d c r cause).pending = s.pending := by
  have fr1 := @State.dropRun_frame
  have fr2 := @State.endTask_frame
  have fr3 := @State.eventLog_frame
  have fr4 := @State.setReg_frame
  simp [State.refuseDesc, fr1, fr2, fr3, fr4]


theorem State.giveTile_frame (s : State) (d c : Nat) (r : DescRun) :
    (State.giveTile s d c r).regs = s.regs ∧ (State.giveTile s d c r).pairLo = s.pairLo ∧ (State.giveTile s d c r).pairCap = s.pairCap ∧ (State.giveTile s d c r).out = s.out ∧ (State.giveTile s d c r).free = s.free ∧ (State.giveTile s d c r).policy = s.policy ∧ (State.giveTile s d c r).err = s.err ∧ (State.giveTile s d c r).chk = s.chk ∧ (State.giveTile s d c r).snp = s.snp ∧ (State.giveTile s d c r).irq = s.irq ∧ (State.giveTile s d c r).ezl = s.ezl ∧ (State.giveTile s d c r).stp = s.stp ∧ (State.giveTile s d c r).fmt = s.fmt ∧ (State.giveTile s d c r).arr = s.arr ∧ (State.giveTile s d c r).vec = s.vec ∧ (State.giveTile s d c r).upd = s.upd ∧ (State.giveTile s d c r).red = s.red ∧ (State.giveTile s d c r).tsk = s.tsk ∧ (State.giveTile s d c r).mem = s.mem ∧ (State.giveTile s d c r).hif = s.hif ∧ (State.giveTile s d c r).img = s.img ∧ (State.giveTile s d c r).pwr = s.pwr ∧ (State.giveTile s d c r).pending = s.pending := by
  have fr1 := @State.setCore_frame
  have fr2 := @State.setRun_frame
  simp [State.giveTile, fr1, fr2]


theorem descriptorAccept_frame (d c : Nat) (s : State) :
    (descriptorAccept d c s).pairLo = s.pairLo ∧ (descriptorAccept d c s).pairCap = s.pairCap ∧ (descriptorAccept d c s).chk = s.chk ∧ (descriptorAccept d c s).snp = s.snp ∧ (descriptorAccept d c s).irq = s.irq ∧ (descriptorAccept d c s).vec = s.vec ∧ (descriptorAccept d c s).img = s.img ∧ (descriptorAccept d c s).pwr = s.pwr ∧ (descriptorAccept d c s).pending = s.pending := by
  have fr1 := @State.dropRun_frame
  have fr2 := @State.endTask_frame
  have fr3 := @State.findAbort_frame
  have fr4 := @State.giveTile_frame
  have fr5 := @State.refuseDesc_frame
  unfold descriptorAccept; dsimp only; (repeat' split) <;> simp [fr1, fr2, fr3, fr4, fr5]


theorem State.dropTile_frame (s : State) (d c t : Nat) :
    (State.dropTile s d c t).regs = s.regs ∧ (State.dropTile s d c t).pairLo = s.pairLo ∧ (State.dropTile s d c t).pairCap = s.pairCap ∧ (State.dropTile s d c t).out = s.out ∧ (State.dropTile s d c t).free = s.free ∧ (State.dropTile s d c t).policy = s.policy ∧ (State.dropTile s d c t).err = s.err ∧ (State.dropTile s d c t).chk = s.chk ∧ (State.dropTile s d c t).snp = s.snp ∧ (State.dropTile s d c t).irq = s.irq ∧ (State.dropTile s d c t).ezl = s.ezl ∧ (State.dropTile s d c t).stp = s.stp ∧ (State.dropTile s d c t).fmt = s.fmt ∧ (State.dropTile s d c t).arr = s.arr ∧ (State.dropTile s d c t).vec = s.vec ∧ (State.dropTile s d c t).upd = s.upd ∧ (State.dropTile s d c t).red = s.red ∧ (State.dropTile s d c t).tsk = s.tsk ∧ (State.dropTile s d c t).mem = s.mem ∧ (State.dropTile s d c t).hif = s.hif ∧ (State.dropTile s d c t).img = s.img ∧ (State.dropTile s d c t).pwr = s.pwr ∧ (State.dropTile s d c t).pending = s.pending := by
  have fr1 := @State.modMxe_frame
  have fr2 := @State.setCore_frame
  simp [State.dropTile, fr1, fr2]


theorem State.finishTile_frame (s : State) (d k slot : Nat) :
    (State.finishTile s d k slot).regs = s.regs ∧ (State.finishTile s d k slot).pairLo = s.pairLo ∧ (State.finishTile s d k slot).pairCap = s.pairCap ∧ (State.finishTile s d k slot).out = s.out ∧ (State.finishTile s d k slot).free = s.free ∧ (State.finishTile s d k slot).policy = s.policy ∧ (State.finishTile s d k slot).err = s.err ∧ (State.finishTile s d k slot).chk = s.chk ∧ (State.finishTile s d k slot).snp = s.snp ∧ (State.finishTile s d k slot).irq = s.irq ∧ (State.finishTile s d k slot).ezl = s.ezl ∧ (State.finishTile s d k slot).stp = s.stp ∧ (State.finishTile s d k slot).fmt = s.fmt ∧ (State.finishTile s d k slot).arr = s.arr ∧ (State.finishTile s d k slot).vec = s.vec ∧ (State.finishTile s d k slot).upd = s.upd ∧ (State.finishTile s d k slot).red = s.red ∧ (State.finishTile s d k slot).mem = s.mem ∧ (State.finishTile s d k slot).hif = s.hif ∧ (State.finishTile s d k slot).img = s.img ∧ (State.finishTile s d k slot).pwr = s.pwr ∧ (State.finishTile s d k slot).pending = s.pending := by
  have fr1 := @State.dropRun_frame
  have fr2 := @State.endTask_frame
  have fr3 := @State.setRun_frame
  unfold State.finishTile; (repeat' split) <;> simp [fr1, fr2, fr3]


theorem State.noteOperands_frame (s : State) (d : Nat) (x : Desc) (t : Nat) :
    (State.noteOperands s d x t).pairLo = s.pairLo ∧ (State.noteOperands s d x t).pairCap = s.pairCap ∧ (State.noteOperands s d x t).out = s.out ∧ (State.noteOperands s d x t).free = s.free ∧ (State.noteOperands s d x t).policy = s.policy ∧ (State.noteOperands s d x t).err = s.err ∧ (State.noteOperands s d x t).chk = s.chk ∧ (State.noteOperands s d x t).snp = s.snp ∧ (State.noteOperands s d x t).irq = s.irq ∧ (State.noteOperands s d x t).ezl = s.ezl ∧ (State.noteOperands s d x t).stp = s.stp ∧ (State.noteOperands s d x t).fmt = s.fmt ∧ (State.noteOperands s d x t).arr = s.arr ∧ (State.noteOperands s d x t).vec = s.vec ∧ (State.noteOperands s d x t).mxe = s.mxe ∧ (State.noteOperands s d x t).upd = s.upd ∧ (State.noteOperands s d x t).red = s.red ∧ (State.noteOperands s d x t).tsk = s.tsk ∧ (State.noteOperands s d x t).hif = s.hif ∧ (State.noteOperands s d x t).img = s.img ∧ (State.noteOperands s d x t).pwr = s.pwr ∧ (State.noteOperands s d x t).pending = s.pending := by
  have fr1 := @State.noteRead_frame
  simp [State.noteOperands, fr1]


theorem State.readTile_frame (s : State) (d slot : Nat) (x : Desc) (t : Nat) :
    (State.readTile s d slot x t).pairLo = s.pairLo ∧ (State.readTile s d slot x t).pairCap = s.pairCap ∧ (State.readTile s d slot x t).out = s.out ∧ (State.readTile s d slot x t).free = s.free ∧ (State.readTile s d slot x t).policy = s.policy ∧ (State.readTile s d slot x t).chk = s.chk ∧ (State.readTile s d slot x t).snp = s.snp ∧ (State.readTile s d slot x t).irq = s.irq ∧ (State.readTile s d slot x t).ezl = s.ezl ∧ (State.readTile s d slot x t).stp = s.stp ∧ (State.readTile s d slot x t).fmt = s.fmt ∧ (State.readTile s d slot x t).arr = s.arr ∧ (State.readTile s d slot x t).vec = s.vec ∧ (State.readTile s d slot x t).mxe = s.mxe ∧ (State.readTile s d slot x t).upd = s.upd ∧ (State.readTile s d slot x t).red = s.red ∧ (State.readTile s d slot x t).hif = s.hif ∧ (State.readTile s d slot x t).img = s.img ∧ (State.readTile s d slot x t).pwr = s.pwr ∧ (State.readTile s d slot x t).pending = s.pending := by
  have fr1 := @State.noteOperands_frame
  have fr2 := @State.taskRead_frame
  simp [State.readTile, fr1, fr2]


theorem State.keepRivals_frame (s old : State) (d slot : Nat) (x : Desc) :
    (State.keepRivals s old d slot x).regs = s.regs ∧ (State.keepRivals s old d slot x).pairLo = s.pairLo ∧ (State.keepRivals s old d slot x).pairCap = s.pairCap ∧ (State.keepRivals s old d slot x).out = s.out ∧ (State.keepRivals s old d slot x).free = s.free ∧ (State.keepRivals s old d slot x).policy = s.policy ∧ (State.keepRivals s old d slot x).err = s.err ∧ (State.keepRivals s old d slot x).chk = s.chk ∧ (State.keepRivals s old d slot x).snp = s.snp ∧ (State.keepRivals s old d slot x).irq = s.irq ∧ (State.keepRivals s old d slot x).ezl = s.ezl ∧ (State.keepRivals s old d slot x).stp = s.stp ∧ (State.keepRivals s old d slot x).fmt = s.fmt ∧ (State.keepRivals s old d slot x).arr = s.arr ∧ (State.keepRivals s old d slot x).vec = s.vec ∧ (State.keepRivals s old d slot x).mxe = s.mxe ∧ (State.keepRivals s old d slot x).upd = s.upd ∧ (State.keepRivals s old d slot x).red = s.red ∧ (State.keepRivals s old d slot x).tsk = s.tsk ∧ (State.keepRivals s old d slot x).hif = s.hif ∧ (State.keepRivals s old d slot x).img = s.img ∧ (State.keepRivals s old d slot x).pwr = s.pwr ∧ (State.keepRivals s old d slot x).pending = s.pending := by
  have fr1 := @State.hbmWrite_frame
  simp [State.keepRivals, fr1]


theorem tileOutput_frame (d c : Nat) (s : State) :
    (tileOutput d c s).pairLo = s.pairLo ∧ (tileOutput d c s).pairCap = s.pairCap ∧ (tileOutput d c s).out = s.out ∧ (tileOutput d c s).free = s.free ∧ (tileOutput d c s).policy = s.policy ∧ (tileOutput d c s).chk = s.chk ∧ (tileOutput d c s).snp = s.snp ∧ (tileOutput d c s).irq = s.irq ∧ (tileOutput d c s).ezl = s.ezl ∧ (tileOutput d c s).arr = s.arr ∧ (tileOutput d c s).vec = s.vec ∧ (tileOutput d c s).upd = s.upd ∧ (tileOutput d c s).red = s.red ∧ (tileOutput d c s).hif = s.hif ∧ (tileOutput d c s).img = s.img ∧ (tileOutput d c s).pwr = s.pwr ∧ (tileOutput d c s).pending = s.pending := by
  have fr1 := @State.dropTile_frame
  have fr2 := @State.fbTile_frame
  have fr3 := @State.finishTile_frame
  have fr4 := @State.incPair_frame
  have fr5 := @State.keepRivals_frame
  have fr6 := @State.readTile_frame
  have fr7 := @State.tileOut_frame
  simp only [tileOutput]; (repeat' split) <;> simp [fr1, fr2, fr3, fr4, fr5, fr6, fr7]


theorem accStall_frame (d c cycles : Nat) (s : State) :
    (accStall d c cycles s).pairLo = s.pairLo ∧ (accStall d c cycles s).pairCap = s.pairCap ∧ (accStall d c cycles s).out = s.out ∧ (accStall d c cycles s).free = s.free ∧ (accStall d c cycles s).policy = s.policy ∧ (accStall d c cycles s).err = s.err ∧ (accStall d c cycles s).chk = s.chk ∧ (accStall d c cycles s).snp = s.snp ∧ (accStall d c cycles s).irq = s.irq ∧ (accStall d c cycles s).ezl = s.ezl ∧ (accStall d c cycles s).stp = s.stp ∧ (accStall d c cycles s).fmt = s.fmt ∧ (accStall d c cycles s).arr = s.arr ∧ (accStall d c cycles s).vec = s.vec ∧ (accStall d c cycles s).mxe = s.mxe ∧ (accStall d c cycles s).upd = s.upd ∧ (accStall d c cycles s).red = s.red ∧ (accStall d c cycles s).tsk = s.tsk ∧ (accStall d c cycles s).mem = s.mem ∧ (accStall d c cycles s).hif = s.hif ∧ (accStall d c cycles s).img = s.img ∧ (accStall d c cycles s).pwr = s.pwr ∧ (accStall d c cycles s).pending = s.pending := by
  have fr1 := @State.event_frame
  have fr2 := @State.incPair_frame
  simp [accStall, fr1, fr2]


@[simp] theorem matrixCancel_regs (d slot : Nat) (s : State) : (matrixCancel d slot s).regs = s.regs := by
  have fr1 := @State.dropRun_frame
  have fr2 := @State.endTask_frame
  have fr3 := @State.modMxe_frame
  have fr4 := @State.setConv_frame
  have fr5 := @State.setCore_frame
  unfold matrixCancel
  split
  · split
    · dsimp only
      have e : ∀ (t : State) a b c, (t.endTask a b c).regs = t.regs := by intros; simp [fr1, fr2, fr3, fr4, fr5]
      rw [e, State.foldl_regs, State.foldl_regs, State.foldl_regs]
      all_goals (intro s x; (repeat' split) <;> simp [fr1, fr2, fr3, fr4, fr5])
    · rfl
  · rfl

@[simp] theorem matrixCancel_pairLo (d slot : Nat) (s : State) : (matrixCancel d slot s).pairLo = s.pairLo := by
  have fr1 := @State.dropRun_frame
  have fr2 := @State.endTask_frame
  have fr3 := @State.modMxe_frame
  have fr4 := @State.setConv_frame
  have fr5 := @State.setCore_frame
  unfold matrixCancel
  split
  · split
    · dsimp only
      have e : ∀ (t : State) a b c, (t.endTask a b c).pairLo = t.pairLo := by intros; simp [fr1, fr2, fr3, fr4, fr5]
      rw [e, State.foldl_pairLo, State.foldl_pairLo, State.foldl_pairLo]
      all_goals (intro s x; (repeat' split) <;> simp [fr1, fr2, fr3, fr4, fr5])
    · rfl
  · rfl

@[simp] theorem matrixCancel_pairCap (d slot : Nat) (s : State) : (matrixCancel d slot s).pairCap = s.pairCap := by
  have fr1 := @State.dropRun_frame
  have fr2 := @State.endTask_frame
  have fr3 := @State.modMxe_frame
  have fr4 := @State.setConv_frame
  have fr5 := @State.setCore_frame
  unfold matrixCancel
  split
  · split
    · dsimp only
      have e : ∀ (t : State) a b c, (t.endTask a b c).pairCap = t.pairCap := by intros; simp [fr1, fr2, fr3, fr4, fr5]
      rw [e, State.foldl_pairCap, State.foldl_pairCap, State.foldl_pairCap]
      all_goals (intro s x; (repeat' split) <;> simp [fr1, fr2, fr3, fr4, fr5])
    · rfl
  · rfl

@[simp] theorem matrixCancel_out (d slot : Nat) (s : State) : (matrixCancel d slot s).out = s.out := by
  have fr1 := @State.dropRun_frame
  have fr2 := @State.endTask_frame
  have fr3 := @State.modMxe_frame
  have fr4 := @State.setConv_frame
  have fr5 := @State.setCore_frame
  unfold matrixCancel
  split
  · split
    · dsimp only
      have e : ∀ (t : State) a b c, (t.endTask a b c).out = t.out := by intros; simp [fr1, fr2, fr3, fr4, fr5]
      rw [e, State.foldl_out, State.foldl_out, State.foldl_out]
      all_goals (intro s x; (repeat' split) <;> simp [fr1, fr2, fr3, fr4, fr5])
    · rfl
  · rfl

@[simp] theorem matrixCancel_free (d slot : Nat) (s : State) : (matrixCancel d slot s).free = s.free := by
  have fr1 := @State.dropRun_frame
  have fr2 := @State.endTask_frame
  have fr3 := @State.modMxe_frame
  have fr4 := @State.setConv_frame
  have fr5 := @State.setCore_frame
  unfold matrixCancel
  split
  · split
    · dsimp only
      have e : ∀ (t : State) a b c, (t.endTask a b c).free = t.free := by intros; simp [fr1, fr2, fr3, fr4, fr5]
      rw [e, State.foldl_free, State.foldl_free, State.foldl_free]
      all_goals (intro s x; (repeat' split) <;> simp [fr1, fr2, fr3, fr4, fr5])
    · rfl
  · rfl

@[simp] theorem matrixCancel_policy (d slot : Nat) (s : State) : (matrixCancel d slot s).policy = s.policy := by
  have fr1 := @State.dropRun_frame
  have fr2 := @State.endTask_frame
  have fr3 := @State.modMxe_frame
  have fr4 := @State.setConv_frame
  have fr5 := @State.setCore_frame
  unfold matrixCancel
  split
  · split
    · dsimp only
      have e : ∀ (t : State) a b c, (t.endTask a b c).policy = t.policy := by intros; simp [fr1, fr2, fr3, fr4, fr5]
      rw [e, State.foldl_policy, State.foldl_policy, State.foldl_policy]
      all_goals (intro s x; (repeat' split) <;> simp [fr1, fr2, fr3, fr4, fr5])
    · rfl
  · rfl

@[simp] theorem matrixCancel_err (d slot : Nat) (s : State) : (matrixCancel d slot s).err = s.err := by
  have fr1 := @State.dropRun_frame
  have fr2 := @State.endTask_frame
  have fr3 := @State.modMxe_frame
  have fr4 := @State.setConv_frame
  have fr5 := @State.setCore_frame
  unfold matrixCancel
  split
  · split
    · dsimp only
      have e : ∀ (t : State) a b c, (t.endTask a b c).err = t.err := by intros; simp [fr1, fr2, fr3, fr4, fr5]
      rw [e, State.foldl_err, State.foldl_err, State.foldl_err]
      all_goals (intro s x; (repeat' split) <;> simp [fr1, fr2, fr3, fr4, fr5])
    · rfl
  · rfl

@[simp] theorem matrixCancel_chk (d slot : Nat) (s : State) : (matrixCancel d slot s).chk = s.chk := by
  have fr1 := @State.dropRun_frame
  have fr2 := @State.endTask_frame
  have fr3 := @State.modMxe_frame
  have fr4 := @State.setConv_frame
  have fr5 := @State.setCore_frame
  unfold matrixCancel
  split
  · split
    · dsimp only
      have e : ∀ (t : State) a b c, (t.endTask a b c).chk = t.chk := by intros; simp [fr1, fr2, fr3, fr4, fr5]
      rw [e, State.foldl_chk, State.foldl_chk, State.foldl_chk]
      all_goals (intro s x; (repeat' split) <;> simp [fr1, fr2, fr3, fr4, fr5])
    · rfl
  · rfl

@[simp] theorem matrixCancel_snp (d slot : Nat) (s : State) : (matrixCancel d slot s).snp = s.snp := by
  have fr1 := @State.dropRun_frame
  have fr2 := @State.endTask_frame
  have fr3 := @State.modMxe_frame
  have fr4 := @State.setConv_frame
  have fr5 := @State.setCore_frame
  unfold matrixCancel
  split
  · split
    · dsimp only
      have e : ∀ (t : State) a b c, (t.endTask a b c).snp = t.snp := by intros; simp [fr1, fr2, fr3, fr4, fr5]
      rw [e, State.foldl_snp, State.foldl_snp, State.foldl_snp]
      all_goals (intro s x; (repeat' split) <;> simp [fr1, fr2, fr3, fr4, fr5])
    · rfl
  · rfl

@[simp] theorem matrixCancel_irq (d slot : Nat) (s : State) : (matrixCancel d slot s).irq = s.irq := by
  have fr1 := @State.dropRun_frame
  have fr2 := @State.endTask_frame
  have fr3 := @State.modMxe_frame
  have fr4 := @State.setConv_frame
  have fr5 := @State.setCore_frame
  unfold matrixCancel
  split
  · split
    · dsimp only
      have e : ∀ (t : State) a b c, (t.endTask a b c).irq = t.irq := by intros; simp [fr1, fr2, fr3, fr4, fr5]
      rw [e, State.foldl_irq, State.foldl_irq, State.foldl_irq]
      all_goals (intro s x; (repeat' split) <;> simp [fr1, fr2, fr3, fr4, fr5])
    · rfl
  · rfl

@[simp] theorem matrixCancel_ezl (d slot : Nat) (s : State) : (matrixCancel d slot s).ezl = s.ezl := by
  have fr1 := @State.dropRun_frame
  have fr2 := @State.endTask_frame
  have fr3 := @State.modMxe_frame
  have fr4 := @State.setConv_frame
  have fr5 := @State.setCore_frame
  unfold matrixCancel
  split
  · split
    · dsimp only
      have e : ∀ (t : State) a b c, (t.endTask a b c).ezl = t.ezl := by intros; simp [fr1, fr2, fr3, fr4, fr5]
      rw [e, State.foldl_ezl, State.foldl_ezl, State.foldl_ezl]
      all_goals (intro s x; (repeat' split) <;> simp [fr1, fr2, fr3, fr4, fr5])
    · rfl
  · rfl

@[simp] theorem matrixCancel_stp (d slot : Nat) (s : State) : (matrixCancel d slot s).stp = s.stp := by
  have fr1 := @State.dropRun_frame
  have fr2 := @State.endTask_frame
  have fr3 := @State.modMxe_frame
  have fr4 := @State.setConv_frame
  have fr5 := @State.setCore_frame
  unfold matrixCancel
  split
  · split
    · dsimp only
      have e : ∀ (t : State) a b c, (t.endTask a b c).stp = t.stp := by intros; simp [fr1, fr2, fr3, fr4, fr5]
      rw [e, State.foldl_stp, State.foldl_stp, State.foldl_stp]
      all_goals (intro s x; (repeat' split) <;> simp [fr1, fr2, fr3, fr4, fr5])
    · rfl
  · rfl

@[simp] theorem matrixCancel_fmt (d slot : Nat) (s : State) : (matrixCancel d slot s).fmt = s.fmt := by
  have fr1 := @State.dropRun_frame
  have fr2 := @State.endTask_frame
  have fr3 := @State.modMxe_frame
  have fr4 := @State.setConv_frame
  have fr5 := @State.setCore_frame
  unfold matrixCancel
  split
  · split
    · dsimp only
      have e : ∀ (t : State) a b c, (t.endTask a b c).fmt = t.fmt := by intros; simp [fr1, fr2, fr3, fr4, fr5]
      rw [e, State.foldl_fmt, State.foldl_fmt, State.foldl_fmt]
      all_goals (intro s x; (repeat' split) <;> simp [fr1, fr2, fr3, fr4, fr5])
    · rfl
  · rfl

@[simp] theorem matrixCancel_arr (d slot : Nat) (s : State) : (matrixCancel d slot s).arr = s.arr := by
  have fr1 := @State.dropRun_frame
  have fr2 := @State.endTask_frame
  have fr3 := @State.modMxe_frame
  have fr4 := @State.setConv_frame
  have fr5 := @State.setCore_frame
  unfold matrixCancel
  split
  · split
    · dsimp only
      have e : ∀ (t : State) a b c, (t.endTask a b c).arr = t.arr := by intros; simp [fr1, fr2, fr3, fr4, fr5]
      rw [e, State.foldl_arr, State.foldl_arr, State.foldl_arr]
      all_goals (intro s x; (repeat' split) <;> simp [fr1, fr2, fr3, fr4, fr5])
    · rfl
  · rfl

@[simp] theorem matrixCancel_vec (d slot : Nat) (s : State) : (matrixCancel d slot s).vec = s.vec := by
  have fr1 := @State.dropRun_frame
  have fr2 := @State.endTask_frame
  have fr3 := @State.modMxe_frame
  have fr4 := @State.setConv_frame
  have fr5 := @State.setCore_frame
  unfold matrixCancel
  split
  · split
    · dsimp only
      have e : ∀ (t : State) a b c, (t.endTask a b c).vec = t.vec := by intros; simp [fr1, fr2, fr3, fr4, fr5]
      rw [e, State.foldl_vec, State.foldl_vec, State.foldl_vec]
      all_goals (intro s x; (repeat' split) <;> simp [fr1, fr2, fr3, fr4, fr5])
    · rfl
  · rfl

@[simp] theorem matrixCancel_upd (d slot : Nat) (s : State) : (matrixCancel d slot s).upd = s.upd := by
  have fr1 := @State.dropRun_frame
  have fr2 := @State.endTask_frame
  have fr3 := @State.modMxe_frame
  have fr4 := @State.setConv_frame
  have fr5 := @State.setCore_frame
  unfold matrixCancel
  split
  · split
    · dsimp only
      have e : ∀ (t : State) a b c, (t.endTask a b c).upd = t.upd := by intros; simp [fr1, fr2, fr3, fr4, fr5]
      rw [e, State.foldl_upd, State.foldl_upd, State.foldl_upd]
      all_goals (intro s x; (repeat' split) <;> simp [fr1, fr2, fr3, fr4, fr5])
    · rfl
  · rfl

@[simp] theorem matrixCancel_red (d slot : Nat) (s : State) : (matrixCancel d slot s).red = s.red := by
  have fr1 := @State.dropRun_frame
  have fr2 := @State.endTask_frame
  have fr3 := @State.modMxe_frame
  have fr4 := @State.setConv_frame
  have fr5 := @State.setCore_frame
  unfold matrixCancel
  split
  · split
    · dsimp only
      have e : ∀ (t : State) a b c, (t.endTask a b c).red = t.red := by intros; simp [fr1, fr2, fr3, fr4, fr5]
      rw [e, State.foldl_red, State.foldl_red, State.foldl_red]
      all_goals (intro s x; (repeat' split) <;> simp [fr1, fr2, fr3, fr4, fr5])
    · rfl
  · rfl

@[simp] theorem matrixCancel_mem (d slot : Nat) (s : State) : (matrixCancel d slot s).mem = s.mem := by
  have fr1 := @State.dropRun_frame
  have fr2 := @State.endTask_frame
  have fr3 := @State.modMxe_frame
  have fr4 := @State.setConv_frame
  have fr5 := @State.setCore_frame
  unfold matrixCancel
  split
  · split
    · dsimp only
      have e : ∀ (t : State) a b c, (t.endTask a b c).mem = t.mem := by intros; simp [fr1, fr2, fr3, fr4, fr5]
      rw [e, State.foldl_mem, State.foldl_mem, State.foldl_mem]
      all_goals (intro s x; (repeat' split) <;> simp [fr1, fr2, fr3, fr4, fr5])
    · rfl
  · rfl

@[simp] theorem matrixCancel_hif (d slot : Nat) (s : State) : (matrixCancel d slot s).hif = s.hif := by
  have fr1 := @State.dropRun_frame
  have fr2 := @State.endTask_frame
  have fr3 := @State.modMxe_frame
  have fr4 := @State.setConv_frame
  have fr5 := @State.setCore_frame
  unfold matrixCancel
  split
  · split
    · dsimp only
      have e : ∀ (t : State) a b c, (t.endTask a b c).hif = t.hif := by intros; simp [fr1, fr2, fr3, fr4, fr5]
      rw [e, State.foldl_hif, State.foldl_hif, State.foldl_hif]
      all_goals (intro s x; (repeat' split) <;> simp [fr1, fr2, fr3, fr4, fr5])
    · rfl
  · rfl

@[simp] theorem matrixCancel_img (d slot : Nat) (s : State) : (matrixCancel d slot s).img = s.img := by
  have fr1 := @State.dropRun_frame
  have fr2 := @State.endTask_frame
  have fr3 := @State.modMxe_frame
  have fr4 := @State.setConv_frame
  have fr5 := @State.setCore_frame
  unfold matrixCancel
  split
  · split
    · dsimp only
      have e : ∀ (t : State) a b c, (t.endTask a b c).img = t.img := by intros; simp [fr1, fr2, fr3, fr4, fr5]
      rw [e, State.foldl_img, State.foldl_img, State.foldl_img]
      all_goals (intro s x; (repeat' split) <;> simp [fr1, fr2, fr3, fr4, fr5])
    · rfl
  · rfl

@[simp] theorem matrixCancel_pwr (d slot : Nat) (s : State) : (matrixCancel d slot s).pwr = s.pwr := by
  have fr1 := @State.dropRun_frame
  have fr2 := @State.endTask_frame
  have fr3 := @State.modMxe_frame
  have fr4 := @State.setConv_frame
  have fr5 := @State.setCore_frame
  unfold matrixCancel
  split
  · split
    · dsimp only
      have e : ∀ (t : State) a b c, (t.endTask a b c).pwr = t.pwr := by intros; simp [fr1, fr2, fr3, fr4, fr5]
      rw [e, State.foldl_pwr, State.foldl_pwr, State.foldl_pwr]
      all_goals (intro s x; (repeat' split) <;> simp [fr1, fr2, fr3, fr4, fr5])
    · rfl
  · rfl

@[simp] theorem matrixCancel_pending (d slot : Nat) (s : State) : (matrixCancel d slot s).pending = s.pending := by
  have fr1 := @State.dropRun_frame
  have fr2 := @State.endTask_frame
  have fr3 := @State.modMxe_frame
  have fr4 := @State.setConv_frame
  have fr5 := @State.setCore_frame
  unfold matrixCancel
  split
  · split
    · dsimp only
      have e : ∀ (t : State) a b c, (t.endTask a b c).pending = t.pending := by intros; simp [fr1, fr2, fr3, fr4, fr5]
      rw [e, State.foldl_pending, State.foldl_pending, State.foldl_pending]
      all_goals (intro s x; (repeat' split) <;> simp [fr1, fr2, fr3, fr4, fr5])
    · rfl
  · rfl


theorem State.sliceReady_frame (s : State) (d c : Nat) :
    (State.sliceReady s d c).regs = s.regs ∧ (State.sliceReady s d c).pairLo = s.pairLo ∧ (State.sliceReady s d c).pairCap = s.pairCap ∧ (State.sliceReady s d c).out = s.out ∧ (State.sliceReady s d c).free = s.free ∧ (State.sliceReady s d c).policy = s.policy ∧ (State.sliceReady s d c).err = s.err ∧ (State.sliceReady s d c).chk = s.chk ∧ (State.sliceReady s d c).snp = s.snp ∧ (State.sliceReady s d c).irq = s.irq ∧ (State.sliceReady s d c).ezl = s.ezl ∧ (State.sliceReady s d c).stp = s.stp ∧ (State.sliceReady s d c).fmt = s.fmt ∧ (State.sliceReady s d c).arr = s.arr ∧ (State.sliceReady s d c).vec = s.vec ∧ (State.sliceReady s d c).upd = s.upd ∧ (State.sliceReady s d c).red = s.red ∧ (State.sliceReady s d c).tsk = s.tsk ∧ (State.sliceReady s d c).mem = s.mem ∧ (State.sliceReady s d c).hif = s.hif ∧ (State.sliceReady s d c).img = s.img ∧ (State.sliceReady s d c).pwr = s.pwr ∧ (State.sliceReady s d c).pending = s.pending := by
  have fr1 := @State.modMxe_frame
  simp [State.sliceReady, fr1]


theorem State.slicesReady_frame (s : State) (d cl : Nat) (l : List (List Nat)) :
    (State.slicesReady s d cl l).regs = s.regs ∧ (State.slicesReady s d cl l).pairLo = s.pairLo ∧ (State.slicesReady s d cl l).pairCap = s.pairCap ∧ (State.slicesReady s d cl l).out = s.out ∧ (State.slicesReady s d cl l).free = s.free ∧ (State.slicesReady s d cl l).policy = s.policy ∧ (State.slicesReady s d cl l).err = s.err ∧ (State.slicesReady s d cl l).chk = s.chk ∧ (State.slicesReady s d cl l).snp = s.snp ∧ (State.slicesReady s d cl l).irq = s.irq ∧ (State.slicesReady s d cl l).ezl = s.ezl ∧ (State.slicesReady s d cl l).stp = s.stp ∧ (State.slicesReady s d cl l).fmt = s.fmt ∧ (State.slicesReady s d cl l).arr = s.arr ∧ (State.slicesReady s d cl l).vec = s.vec ∧ (State.slicesReady s d cl l).upd = s.upd ∧ (State.slicesReady s d cl l).red = s.red ∧ (State.slicesReady s d cl l).tsk = s.tsk ∧ (State.slicesReady s d cl l).mem = s.mem ∧ (State.slicesReady s d cl l).hif = s.hif ∧ (State.slicesReady s d cl l).img = s.img ∧ (State.slicesReady s d cl l).pwr = s.pwr ∧ (State.slicesReady s d cl l).pending = s.pending := by
  have fr1 := @State.sliceReady_frame
  simp [State.slicesReady, fr1]


theorem sliceConvert_frame (d cl : Nat) (l : List (List Nat)) (s : State) :
    (sliceConvert d cl l s).pairLo = s.pairLo ∧ (sliceConvert d cl l s).pairCap = s.pairCap ∧ (sliceConvert d cl l s).out = s.out ∧ (sliceConvert d cl l s).free = s.free ∧ (sliceConvert d cl l s).policy = s.policy ∧ (sliceConvert d cl l s).chk = s.chk ∧ (sliceConvert d cl l s).snp = s.snp ∧ (sliceConvert d cl l s).irq = s.irq ∧ (sliceConvert d cl l s).ezl = s.ezl ∧ (sliceConvert d cl l s).arr = s.arr ∧ (sliceConvert d cl l s).vec = s.vec ∧ (sliceConvert d cl l s).upd = s.upd ∧ (sliceConvert d cl l s).hif = s.hif ∧ (sliceConvert d cl l s).img = s.img ∧ (sliceConvert d cl l s).pwr = s.pwr ∧ (sliceConvert d cl l s).pending = s.pending := by
  have fr1 := @State.eventLog_frame
  have fr2 := @State.incPair_frame
  have fr3 := @State.incReg_frame
  have fr4 := @State.modCnt_frame
  have fr5 := @State.modFmt_frame
  have fr6 := @State.noteHold_frame
  have fr7 := @State.noteOvf_frame
  have fr8 := @State.readTile_frame
  have fr9 := @State.setConv_frame
  have fr10 := @State.slicesReady_frame
  have fr11 := @State.dropTile_frame
  have fr12 := @State.noteOperands_frame
  unfold sliceConvert; dsimp only; (repeat' split) <;> simp [fr1, fr2, fr3, fr4, fr5, fr6, fr7, fr8, fr9, fr10, fr11, fr12]


theorem State.addSlice_frame (s : State) (c seq n : Nat) (b : BucketEnt) (recs : List BlockRec) :
    (State.addSlice s c seq n b recs).regs = s.regs ∧ (State.addSlice s c seq n b recs).pairLo = s.pairLo ∧ (State.addSlice s c seq n b recs).pairCap = s.pairCap ∧ (State.addSlice s c seq n b recs).out = s.out ∧ (State.addSlice s c seq n b recs).free = s.free ∧ (State.addSlice s c seq n b recs).policy = s.policy ∧ (State.addSlice s c seq n b recs).err = s.err ∧ (State.addSlice s c seq n b recs).chk = s.chk ∧ (State.addSlice s c seq n b recs).snp = s.snp ∧ (State.addSlice s c seq n b recs).irq = s.irq ∧ (State.addSlice s c seq n b recs).ezl = s.ezl ∧ (State.addSlice s c seq n b recs).stp = s.stp ∧ (State.addSlice s c seq n b recs).fmt = s.fmt ∧ (State.addSlice s c seq n b recs).arr = s.arr ∧ (State.addSlice s c seq n b recs).vec = s.vec ∧ (State.addSlice s c seq n b recs).mxe = s.mxe ∧ (State.addSlice s c seq n b recs).upd = s.upd ∧ (State.addSlice s c seq n b recs).tsk = s.tsk ∧ (State.addSlice s c seq n b recs).mem = s.mem ∧ (State.addSlice s c seq n b recs).hif = s.hif ∧ (State.addSlice s c seq n b recs).img = s.img ∧ (State.addSlice s c seq n b recs).pwr = s.pwr ∧ (State.addSlice s c seq n b recs).pending = s.pending := by
  have fr1 := @State.setChan_frame
  simp [State.addSlice, fr1]


theorem State.holdNow_frame (s : State) (k : Nat) :
    (State.holdNow s k).pairLo = s.pairLo ∧ (State.holdNow s k).pairCap = s.pairCap ∧ (State.holdNow s k).out = s.out ∧ (State.holdNow s k).free = s.free ∧ (State.holdNow s k).policy = s.policy ∧ (State.holdNow s k).err = s.err ∧ (State.holdNow s k).chk = s.chk ∧ (State.holdNow s k).snp = s.snp ∧ (State.holdNow s k).irq = s.irq ∧ (State.holdNow s k).ezl = s.ezl ∧ (State.holdNow s k).fmt = s.fmt ∧ (State.holdNow s k).arr = s.arr ∧ (State.holdNow s k).vec = s.vec ∧ (State.holdNow s k).upd = s.upd ∧ (State.holdNow s k).tsk = s.tsk ∧ (State.holdNow s k).mem = s.mem ∧ (State.holdNow s k).hif = s.hif ∧ (State.holdNow s k).img = s.img ∧ (State.holdNow s k).pwr = s.pwr ∧ (State.holdNow s k).pending = s.pending := by
  have fr1 := @State.noteHold_frame
  have fr2 := @State.setConv_frame
  unfold State.holdNow; (repeat' split) <;> simp [fr1, fr2]


theorem State.holdsNow_frame (s : State) :
    (State.holdsNow s).pairLo = s.pairLo ∧ (State.holdsNow s).pairCap = s.pairCap ∧ (State.holdsNow s).out = s.out ∧ (State.holdsNow s).free = s.free ∧ (State.holdsNow s).policy = s.policy ∧ (State.holdsNow s).err = s.err ∧ (State.holdsNow s).chk = s.chk ∧ (State.holdsNow s).snp = s.snp ∧ (State.holdsNow s).irq = s.irq ∧ (State.holdsNow s).ezl = s.ezl ∧ (State.holdsNow s).fmt = s.fmt ∧ (State.holdsNow s).arr = s.arr ∧ (State.holdsNow s).vec = s.vec ∧ (State.holdsNow s).upd = s.upd ∧ (State.holdsNow s).tsk = s.tsk ∧ (State.holdsNow s).mem = s.mem ∧ (State.holdsNow s).hif = s.hif ∧ (State.holdsNow s).img = s.img ∧ (State.holdsNow s).pwr = s.pwr ∧ (State.holdsNow s).pending = s.pending := by
  have fr1 := @State.holdNow_frame
  simp [State.holdsNow, fr1]


theorem sliceAccept_frame (d cl cycles : Nat) (s : State) :
    (sliceAccept d cl cycles s).pairLo = s.pairLo ∧ (sliceAccept d cl cycles s).pairCap = s.pairCap ∧ (sliceAccept d cl cycles s).out = s.out ∧ (sliceAccept d cl cycles s).free = s.free ∧ (sliceAccept d cl cycles s).policy = s.policy ∧ (sliceAccept d cl cycles s).err = s.err ∧ (sliceAccept d cl cycles s).chk = s.chk ∧ (sliceAccept d cl cycles s).snp = s.snp ∧ (sliceAccept d cl cycles s).irq = s.irq ∧ (sliceAccept d cl cycles s).ezl = s.ezl ∧ (sliceAccept d cl cycles s).fmt = s.fmt ∧ (sliceAccept d cl cycles s).arr = s.arr ∧ (sliceAccept d cl cycles s).vec = s.vec ∧ (sliceAccept d cl cycles s).upd = s.upd ∧ (sliceAccept d cl cycles s).mem = s.mem ∧ (sliceAccept d cl cycles s).hif = s.hif ∧ (sliceAccept d cl cycles s).img = s.img ∧ (sliceAccept d cl cycles s).pwr = s.pwr ∧ (sliceAccept d cl cycles s).pending = s.pending := by
  have fr1 := @State.addSlice_frame
  have fr2 := @State.dropTile_frame
  have fr3 := @State.finishTile_frame
  have fr4 := @State.holdsNow_frame
  have fr5 := @State.incReg_frame
  have fr6 := @State.noteHold_frame
  have fr7 := @State.setConv_frame
  have fr8 := @State.setChan_frame
  unfold sliceAccept; dsimp only; (repeat' split) <;> simp [fr1, fr2, fr3, fr4, fr5, fr6, fr7, fr8]


theorem State.startUnit_frame (s : State) (d u slot addr n base : Nat) :
    (State.startUnit s d u slot addr n base).pairLo = s.pairLo ∧ (State.startUnit s d u slot addr n base).pairCap = s.pairCap ∧ (State.startUnit s d u slot addr n base).out = s.out ∧ (State.startUnit s d u slot addr n base).free = s.free ∧ (State.startUnit s d u slot addr n base).policy = s.policy ∧ (State.startUnit s d u slot addr n base).chk = s.chk ∧ (State.startUnit s d u slot addr n base).snp = s.snp ∧ (State.startUnit s d u slot addr n base).irq = s.irq ∧ (State.startUnit s d u slot addr n base).ezl = s.ezl ∧ (State.startUnit s d u slot addr n base).stp = s.stp ∧ (State.startUnit s d u slot addr n base).fmt = s.fmt ∧ (State.startUnit s d u slot addr n base).arr = s.arr ∧ (State.startUnit s d u slot addr n base).mxe = s.mxe ∧ (State.startUnit s d u slot addr n base).upd = s.upd ∧ (State.startUnit s d u slot addr n base).red = s.red ∧ (State.startUnit s d u slot addr n base).mem = s.mem ∧ (State.startUnit s d u slot addr n base).hif = s.hif ∧ (State.startUnit s d u slot addr n base).img = s.img ∧ (State.startUnit s d u slot addr n base).pwr = s.pwr ∧ (State.startUnit s d u slot addr n base).pending = s.pending := by
  have fr1 := @State.setUnit_frame
  have fr2 := @State.taskRead_frame
  simp [State.startUnit, fr1, fr2]


theorem State.endMalformed_frame (s : State) (d slot : Nat) :
    (State.endMalformed s d slot).pairLo = s.pairLo ∧ (State.endMalformed s d slot).pairCap = s.pairCap ∧ (State.endMalformed s d slot).out = s.out ∧ (State.endMalformed s d slot).free = s.free ∧ (State.endMalformed s d slot).policy = s.policy ∧ (State.endMalformed s d slot).err = s.err ∧ (State.endMalformed s d slot).chk = s.chk ∧ (State.endMalformed s d slot).snp = s.snp ∧ (State.endMalformed s d slot).irq = s.irq ∧ (State.endMalformed s d slot).ezl = s.ezl ∧ (State.endMalformed s d slot).stp = s.stp ∧ (State.endMalformed s d slot).fmt = s.fmt ∧ (State.endMalformed s d slot).arr = s.arr ∧ (State.endMalformed s d slot).vec = s.vec ∧ (State.endMalformed s d slot).mxe = s.mxe ∧ (State.endMalformed s d slot).upd = s.upd ∧ (State.endMalformed s d slot).red = s.red ∧ (State.endMalformed s d slot).mem = s.mem ∧ (State.endMalformed s d slot).hif = s.hif ∧ (State.endMalformed s d slot).img = s.img ∧ (State.endMalformed s d slot).pwr = s.pwr ∧ (State.endMalformed s d slot).pending = s.pending := by
  have fr1 := @State.endTask_frame
  have fr2 := @State.event_frame
  simp [State.endMalformed, fr1, fr2]


theorem State.startTwill_frame (s : State) (d slot : Nat) (t : TaskEnt) :
    (State.startTwill s d slot t).pairLo = s.pairLo ∧ (State.startTwill s d slot t).pairCap = s.pairCap ∧ (State.startTwill s d slot t).out = s.out ∧ (State.startTwill s d slot t).free = s.free ∧ (State.startTwill s d slot t).policy = s.policy ∧ (State.startTwill s d slot t).chk = s.chk ∧ (State.startTwill s d slot t).snp = s.snp ∧ (State.startTwill s d slot t).irq = s.irq ∧ (State.startTwill s d slot t).ezl = s.ezl ∧ (State.startTwill s d slot t).stp = s.stp ∧ (State.startTwill s d slot t).fmt = s.fmt ∧ (State.startTwill s d slot t).arr = s.arr ∧ (State.startTwill s d slot t).mxe = s.mxe ∧ (State.startTwill s d slot t).upd = s.upd ∧ (State.startTwill s d slot t).red = s.red ∧ (State.startTwill s d slot t).mem = s.mem ∧ (State.startTwill s d slot t).hif = s.hif ∧ (State.startTwill s d slot t).img = s.img ∧ (State.startTwill s d slot t).pwr = s.pwr ∧ (State.startTwill s d slot t).pending = s.pending := by
  have fr1 := @State.endMalformed_frame
  have fr2 := @State.modVec_frame
  have fr3 := @State.startUnit_frame
  simp [State.startTwill, fr1, fr2, fr3]


theorem State.startArray_frame (s : State) (d slot : Nat) (t : TaskEnt) :
    (State.startArray s d slot t).pairLo = s.pairLo ∧ (State.startArray s d slot t).pairCap = s.pairCap ∧ (State.startArray s d slot t).out = s.out ∧ (State.startArray s d slot t).free = s.free ∧ (State.startArray s d slot t).policy = s.policy ∧ (State.startArray s d slot t).chk = s.chk ∧ (State.startArray s d slot t).snp = s.snp ∧ (State.startArray s d slot t).irq = s.irq ∧ (State.startArray s d slot t).ezl = s.ezl ∧ (State.startArray s d slot t).stp = s.stp ∧ (State.startArray s d slot t).fmt = s.fmt ∧ (State.startArray s d slot t).vec = s.vec ∧ (State.startArray s d slot t).mxe = s.mxe ∧ (State.startArray s d slot t).upd = s.upd ∧ (State.startArray s d slot t).red = s.red ∧ (State.startArray s d slot t).hif = s.hif ∧ (State.startArray s d slot t).img = s.img ∧ (State.startArray s d slot t).pwr = s.pwr ∧ (State.startArray s d slot t).pending = s.pending := by
  have fr1 := @State.endMalformed_frame
  have fr2 := @State.noteRead_frame
  have fr3 := @State.setKao_frame
  have fr4 := @State.setTask_frame
  have fr5 := @State.taskRead_frame
  simp [State.startArray, fr1, fr2, fr3, fr4, fr5]


theorem State.notePhase_frame (s : State) (t : TaskEnt) (mode : Nat) :
    (State.notePhase s t mode).regs = s.regs ∧ (State.notePhase s t mode).pairLo = s.pairLo ∧ (State.notePhase s t mode).pairCap = s.pairCap ∧ (State.notePhase s t mode).out = s.out ∧ (State.notePhase s t mode).free = s.free ∧ (State.notePhase s t mode).policy = s.policy ∧ (State.notePhase s t mode).err = s.err ∧ (State.notePhase s t mode).chk = s.chk ∧ (State.notePhase s t mode).snp = s.snp ∧ (State.notePhase s t mode).irq = s.irq ∧ (State.notePhase s t mode).ezl = s.ezl ∧ (State.notePhase s t mode).fmt = s.fmt ∧ (State.notePhase s t mode).arr = s.arr ∧ (State.notePhase s t mode).vec = s.vec ∧ (State.notePhase s t mode).mxe = s.mxe ∧ (State.notePhase s t mode).upd = s.upd ∧ (State.notePhase s t mode).red = s.red ∧ (State.notePhase s t mode).tsk = s.tsk ∧ (State.notePhase s t mode).mem = s.mem ∧ (State.notePhase s t mode).hif = s.hif ∧ (State.notePhase s t mode).img = s.img ∧ (State.notePhase s t mode).pwr = s.pwr ∧ (State.notePhase s t mode).pending = s.pending := by
  have fr1 := @State.modStp_frame
  simp [State.notePhase, fr1]


theorem State.startMatrix_frame (s : State) (d slot : Nat) (t : TaskEnt) :
    (State.startMatrix s d slot t).regs = s.regs ∧ (State.startMatrix s d slot t).pairLo = s.pairLo ∧ (State.startMatrix s d slot t).pairCap = s.pairCap ∧ (State.startMatrix s d slot t).out = s.out ∧ (State.startMatrix s d slot t).free = s.free ∧ (State.startMatrix s d slot t).policy = s.policy ∧ (State.startMatrix s d slot t).err = s.err ∧ (State.startMatrix s d slot t).chk = s.chk ∧ (State.startMatrix s d slot t).snp = s.snp ∧ (State.startMatrix s d slot t).irq = s.irq ∧ (State.startMatrix s d slot t).ezl = s.ezl ∧ (State.startMatrix s d slot t).fmt = s.fmt ∧ (State.startMatrix s d slot t).arr = s.arr ∧ (State.startMatrix s d slot t).vec = s.vec ∧ (State.startMatrix s d slot t).upd = s.upd ∧ (State.startMatrix s d slot t).red = s.red ∧ (State.startMatrix s d slot t).tsk = s.tsk ∧ (State.startMatrix s d slot t).mem = s.mem ∧ (State.startMatrix s d slot t).hif = s.hif ∧ (State.startMatrix s d slot t).img = s.img ∧ (State.startMatrix s d slot t).pwr = s.pwr ∧ (State.startMatrix s d slot t).pending = s.pending := by
  have fr1 := @State.noteGrad_frame
  have fr2 := @State.notePhase_frame
  have fr3 := @State.setCluster_frame
  unfold State.startMatrix; (repeat' split) <;> simp [fr1, fr2, fr3]


theorem State.startKersey_frame (s : State) (d slot : Nat) (t : TaskEnt) :
    (State.startKersey s d slot t).pairLo = s.pairLo ∧ (State.startKersey s d slot t).pairCap = s.pairCap ∧ (State.startKersey s d slot t).out = s.out ∧ (State.startKersey s d slot t).free = s.free ∧ (State.startKersey s d slot t).policy = s.policy ∧ (State.startKersey s d slot t).err = s.err ∧ (State.startKersey s d slot t).chk = s.chk ∧ (State.startKersey s d slot t).snp = s.snp ∧ (State.startKersey s d slot t).ezl = s.ezl ∧ (State.startKersey s d slot t).stp = s.stp ∧ (State.startKersey s d slot t).fmt = s.fmt ∧ (State.startKersey s d slot t).arr = s.arr ∧ (State.startKersey s d slot t).vec = s.vec ∧ (State.startKersey s d slot t).upd = s.upd ∧ (State.startKersey s d slot t).red = s.red ∧ (State.startKersey s d slot t).mem = s.mem ∧ (State.startKersey s d slot t).hif = s.hif ∧ (State.startKersey s d slot t).img = s.img ∧ (State.startKersey s d slot t).pwr = s.pwr ∧ (State.startKersey s d slot t).pending = s.pending := by
  have fr1 := @State.endMalformed_frame
  have fr2 := @State.irqFire_frame
  have fr3 := @State.setCore_frame
  have fr4 := @State.setIrq_frame
  simp [State.startKersey, fr1, fr2, fr3, fr4]


theorem State.noteToken_frame (s : State) (t : TaskEnt) :
    (State.noteToken s t).regs = s.regs ∧ (State.noteToken s t).pairLo = s.pairLo ∧ (State.noteToken s t).pairCap = s.pairCap ∧ (State.noteToken s t).out = s.out ∧ (State.noteToken s t).free = s.free ∧ (State.noteToken s t).policy = s.policy ∧ (State.noteToken s t).err = s.err ∧ (State.noteToken s t).chk = s.chk ∧ (State.noteToken s t).snp = s.snp ∧ (State.noteToken s t).irq = s.irq ∧ (State.noteToken s t).ezl = s.ezl ∧ (State.noteToken s t).stp = s.stp ∧ (State.noteToken s t).fmt = s.fmt ∧ (State.noteToken s t).arr = s.arr ∧ (State.noteToken s t).vec = s.vec ∧ (State.noteToken s t).mxe = s.mxe ∧ (State.noteToken s t).upd = s.upd ∧ (State.noteToken s t).red = s.red ∧ (State.noteToken s t).tsk = s.tsk ∧ (State.noteToken s t).hif = s.hif ∧ (State.noteToken s t).img = s.img ∧ (State.noteToken s t).pwr = s.pwr ∧ (State.noteToken s t).pending = s.pending := by
  have fr1 := @State.setCtx_frame
  unfold State.noteToken; (repeat' split) <;> simp [fr1]


theorem State.startTask_frame (s : State) (d slot : Nat) (t : TaskEnt) :
    (State.startTask s d slot t).pairLo = s.pairLo ∧ (State.startTask s d slot t).pairCap = s.pairCap ∧ (State.startTask s d slot t).out = s.out ∧ (State.startTask s d slot t).free = s.free ∧ (State.startTask s d slot t).policy = s.policy ∧ (State.startTask s d slot t).chk = s.chk ∧ (State.startTask s d slot t).snp = s.snp ∧ (State.startTask s d slot t).ezl = s.ezl ∧ (State.startTask s d slot t).fmt = s.fmt ∧ (State.startTask s d slot t).upd = s.upd ∧ (State.startTask s d slot t).red = s.red ∧ (State.startTask s d slot t).hif = s.hif ∧ (State.startTask s d slot t).img = s.img ∧ (State.startTask s d slot t).pwr = s.pwr ∧ (State.startTask s d slot t).pending = s.pending := by
  have fr1 := @State.endTask_frame
  have fr2 := @State.modTsk_frame
  have fr3 := @State.raiseVector_frame
  have fr4 := @State.startArray_frame
  have fr5 := @State.startKersey_frame
  have fr6 := @State.startMatrix_frame
  have fr7 := @State.startTwill_frame
  unfold State.startTask; (repeat' split) <;> simp [fr1, fr2, fr3, fr4, fr5, fr6, fr7]


theorem State.readPayload_frame (s : State) (d slot : Nat) (t : TaskEnt) :
    (State.readPayload s d slot t).pairLo = s.pairLo ∧ (State.readPayload s d slot t).pairCap = s.pairCap ∧ (State.readPayload s d slot t).out = s.out ∧ (State.readPayload s d slot t).free = s.free ∧ (State.readPayload s d slot t).policy = s.policy ∧ (State.readPayload s d slot t).chk = s.chk ∧ (State.readPayload s d slot t).snp = s.snp ∧ (State.readPayload s d slot t).ezl = s.ezl ∧ (State.readPayload s d slot t).fmt = s.fmt ∧ (State.readPayload s d slot t).upd = s.upd ∧ (State.readPayload s d slot t).red = s.red ∧ (State.readPayload s d slot t).hif = s.hif ∧ (State.readPayload s d slot t).img = s.img ∧ (State.readPayload s d slot t).pwr = s.pwr ∧ (State.readPayload s d slot t).pending = s.pending := by
  have fr1 := @State.endTask_frame
  have fr2 := @State.noteToken_frame
  have fr3 := @State.readNotes_frame
  have fr4 := @State.startTask_frame
  simp [State.readPayload, fr1, fr2, fr3, fr4]


theorem taskDispatch_frame (d kind : Nat) (s : State) :
    (taskDispatch d kind s).pairLo = s.pairLo ∧ (taskDispatch d kind s).pairCap = s.pairCap ∧ (taskDispatch d kind s).out = s.out ∧ (taskDispatch d kind s).free = s.free ∧ (taskDispatch d kind s).policy = s.policy ∧ (taskDispatch d kind s).chk = s.chk ∧ (taskDispatch d kind s).snp = s.snp ∧ (taskDispatch d kind s).ezl = s.ezl ∧ (taskDispatch d kind s).fmt = s.fmt ∧ (taskDispatch d kind s).upd = s.upd ∧ (taskDispatch d kind s).red = s.red ∧ (taskDispatch d kind s).hif = s.hif ∧ (taskDispatch d kind s).img = s.img ∧ (taskDispatch d kind s).pwr = s.pwr ∧ (taskDispatch d kind s).pending = s.pending := by
  have fr1 := @State.incPair_frame
  have fr2 := @State.readPayload_frame
  have fr3 := @State.setTask_frame
  have fr4 := @State.noteToken_frame
  have fr5 := @State.startTask_frame
  unfold taskDispatch; (repeat' split) <;> simp [fr1, fr2, fr3, fr4, fr5]


theorem taskComplete_frame (d slot : Nat) (s : State) :
    (taskComplete d slot s).pairLo = s.pairLo ∧ (taskComplete d slot s).pairCap = s.pairCap ∧ (taskComplete d slot s).out = s.out ∧ (taskComplete d slot s).free = s.free ∧ (taskComplete d slot s).policy = s.policy ∧ (taskComplete d slot s).chk = s.chk ∧ (taskComplete d slot s).snp = s.snp ∧ (taskComplete d slot s).irq = s.irq ∧ (taskComplete d slot s).ezl = s.ezl ∧ (taskComplete d slot s).fmt = s.fmt ∧ (taskComplete d slot s).arr = s.arr ∧ (taskComplete d slot s).vec = s.vec ∧ (taskComplete d slot s).mxe = s.mxe ∧ (taskComplete d slot s).upd = s.upd ∧ (taskComplete d slot s).red = s.red ∧ (taskComplete d slot s).hif = s.hif ∧ (taskComplete d slot s).img = s.img ∧ (taskComplete d slot s).pwr = s.pwr ∧ (taskComplete d slot s).pending = s.pending := by
  have fr1 := @State.completeTask_frame
  have fr2 := @State.modStp_frame
  unfold taskComplete; (repeat' split) <;> simp [fr1, fr2]


theorem kdone_frame (rq : Requester) (d c : Nat) (err : Bool) (s : State) :
    (kdone rq d c err s).pairLo = s.pairLo ∧ (kdone rq d c err s).pairCap = s.pairCap ∧ (kdone rq d c err s).out = s.out ∧ (kdone rq d c err s).free = s.free ∧ (kdone rq d c err s).policy = s.policy ∧ (kdone rq d c err s).chk = s.chk ∧ (kdone rq d c err s).snp = s.snp ∧ (kdone rq d c err s).ezl = s.ezl ∧ (kdone rq d c err s).stp = s.stp ∧ (kdone rq d c err s).fmt = s.fmt ∧ (kdone rq d c err s).arr = s.arr ∧ (kdone rq d c err s).vec = s.vec ∧ (kdone rq d c err s).upd = s.upd ∧ (kdone rq d c err s).red = s.red ∧ (kdone rq d c err s).mem = s.mem ∧ (kdone rq d c err s).hif = s.hif ∧ (kdone rq d c err s).img = s.img ∧ (kdone rq d c err s).pwr = s.pwr ∧ (kdone rq d c err s).pending = s.pending := by
  have fr1 := @State.endTask_frame
  have fr2 := @State.eventLog_frame
  have fr3 := @State.setCore_frame
  have fr4 := @State.setIrq_frame
  unfold kdone; dsimp only; (repeat' split) <;> simp [fr1, fr2, fr3, fr4]


theorem State.freeDma_frame (s : State) (d e : Nat) :
    (State.freeDma s d e).regs = s.regs ∧ (State.freeDma s d e).pairLo = s.pairLo ∧ (State.freeDma s d e).pairCap = s.pairCap ∧ (State.freeDma s d e).out = s.out ∧ (State.freeDma s d e).free = s.free ∧ (State.freeDma s d e).policy = s.policy ∧ (State.freeDma s d e).err = s.err ∧ (State.freeDma s d e).chk = s.chk ∧ (State.freeDma s d e).snp = s.snp ∧ (State.freeDma s d e).irq = s.irq ∧ (State.freeDma s d e).ezl = s.ezl ∧ (State.freeDma s d e).stp = s.stp ∧ (State.freeDma s d e).fmt = s.fmt ∧ (State.freeDma s d e).arr = s.arr ∧ (State.freeDma s d e).vec = s.vec ∧ (State.freeDma s d e).mxe = s.mxe ∧ (State.freeDma s d e).upd = s.upd ∧ (State.freeDma s d e).red = s.red ∧ (State.freeDma s d e).mem = s.mem ∧ (State.freeDma s d e).hif = s.hif ∧ (State.freeDma s d e).img = s.img ∧ (State.freeDma s d e).pwr = s.pwr ∧ (State.freeDma s d e).pending = s.pending := by
  have fr1 := @State.modTsk_frame
  simp [State.freeDma, fr1]


theorem State.endDma_frame (s : State) (d e slot : Nat) (err : Bool) :
    (State.endDma s d e slot err).regs = s.regs ∧ (State.endDma s d e slot err).pairLo = s.pairLo ∧ (State.endDma s d e slot err).pairCap = s.pairCap ∧ (State.endDma s d e slot err).out = s.out ∧ (State.endDma s d e slot err).free = s.free ∧ (State.endDma s d e slot err).policy = s.policy ∧ (State.endDma s d e slot err).err = s.err ∧ (State.endDma s d e slot err).chk = s.chk ∧ (State.endDma s d e slot err).snp = s.snp ∧ (State.endDma s d e slot err).irq = s.irq ∧ (State.endDma s d e slot err).ezl = s.ezl ∧ (State.endDma s d e slot err).stp = s.stp ∧ (State.endDma s d e slot err).fmt = s.fmt ∧ (State.endDma s d e slot err).arr = s.arr ∧ (State.endDma s d e slot err).vec = s.vec ∧ (State.endDma s d e slot err).mxe = s.mxe ∧ (State.endDma s d e slot err).upd = s.upd ∧ (State.endDma s d e slot err).red = s.red ∧ (State.endDma s d e slot err).mem = s.mem ∧ (State.endDma s d e slot err).hif = s.hif ∧ (State.endDma s d e slot err).img = s.img ∧ (State.endDma s d e slot err).pwr = s.pwr ∧ (State.endDma s d e slot err).pending = s.pending := by
  have fr1 := @State.endTask_frame
  have fr2 := @State.freeDma_frame
  simp [State.endDma, fr1, fr2]


theorem State.dmaFault_frame (s : State) (d e slot cause : Nat) :
    (State.dmaFault s d e slot cause).pairLo = s.pairLo ∧ (State.dmaFault s d e slot cause).pairCap = s.pairCap ∧ (State.dmaFault s d e slot cause).out = s.out ∧ (State.dmaFault s d e slot cause).free = s.free ∧ (State.dmaFault s d e slot cause).policy = s.policy ∧ (State.dmaFault s d e slot cause).err = s.err ∧ (State.dmaFault s d e slot cause).chk = s.chk ∧ (State.dmaFault s d e slot cause).snp = s.snp ∧ (State.dmaFault s d e slot cause).irq = s.irq ∧ (State.dmaFault s d e slot cause).ezl = s.ezl ∧ (State.dmaFault s d e slot cause).stp = s.stp ∧ (State.dmaFault s d e slot cause).fmt = s.fmt ∧ (State.dmaFault s d e slot cause).arr = s.arr ∧ (State.dmaFault s d e slot cause).vec = s.vec ∧ (State.dmaFault s d e slot cause).mxe = s.mxe ∧ (State.dmaFault s d e slot cause).upd = s.upd ∧ (State.dmaFault s d e slot cause).red = s.red ∧ (State.dmaFault s d e slot cause).mem = s.mem ∧ (State.dmaFault s d e slot cause).hif = s.hif ∧ (State.dmaFault s d e slot cause).img = s.img ∧ (State.dmaFault s d e slot cause).pwr = s.pwr ∧ (State.dmaFault s d e slot cause).pending = s.pending := by
  have fr1 := @State.endDma_frame
  have fr2 := @State.event_frame
  have fr3 := @State.setReg_frame
  simp [State.dmaFault, fr1, fr2, fr3]


theorem State.dmaEnd_frame (s : State) (d e slot : Nat) (bad : Bool) :
    (State.dmaEnd s d e slot bad).pairLo = s.pairLo ∧ (State.dmaEnd s d e slot bad).pairCap = s.pairCap ∧ (State.dmaEnd s d e slot bad).out = s.out ∧ (State.dmaEnd s d e slot bad).free = s.free ∧ (State.dmaEnd s d e slot bad).policy = s.policy ∧ (State.dmaEnd s d e slot bad).err = s.err ∧ (State.dmaEnd s d e slot bad).chk = s.chk ∧ (State.dmaEnd s d e slot bad).snp = s.snp ∧ (State.dmaEnd s d e slot bad).irq = s.irq ∧ (State.dmaEnd s d e slot bad).ezl = s.ezl ∧ (State.dmaEnd s d e slot bad).stp = s.stp ∧ (State.dmaEnd s d e slot bad).fmt = s.fmt ∧ (State.dmaEnd s d e slot bad).arr = s.arr ∧ (State.dmaEnd s d e slot bad).vec = s.vec ∧ (State.dmaEnd s d e slot bad).mxe = s.mxe ∧ (State.dmaEnd s d e slot bad).upd = s.upd ∧ (State.dmaEnd s d e slot bad).red = s.red ∧ (State.dmaEnd s d e slot bad).mem = s.mem ∧ (State.dmaEnd s d e slot bad).hif = s.hif ∧ (State.dmaEnd s d e slot bad).img = s.img ∧ (State.dmaEnd s d e slot bad).pwr = s.pwr ∧ (State.dmaEnd s d e slot bad).pending = s.pending := by
  have fr1 := @State.dmaFault_frame
  have fr2 := @State.endDma_frame
  simp [State.dmaEnd, fr1, fr2]


@[simp] theorem State.readRows_pairLo (s : State) (d : Nat) (p : DmaPay) (n : Nat) : (State.readRows s d p n).2.1.pairLo = s.pairLo := by
  have fr1 := @State.hbmRead_frame
  have fr2 := @State.noteRead_frame
  unfold State.readRows
  exact State.foldl_proj_pairLo (fun (a : List Byte × State × Bool) => a.2.1) _ (by intro a x; simp [fr1, fr2]) _ _

@[simp] theorem State.readRows_pairCap (s : State) (d : Nat) (p : DmaPay) (n : Nat) : (State.readRows s d p n).2.1.pairCap = s.pairCap := by
  have fr1 := @State.hbmRead_frame
  have fr2 := @State.noteRead_frame
  unfold State.readRows
  exact State.foldl_proj_pairCap (fun (a : List Byte × State × Bool) => a.2.1) _ (by intro a x; simp [fr1, fr2]) _ _

@[simp] theorem State.readRows_out (s : State) (d : Nat) (p : DmaPay) (n : Nat) : (State.readRows s d p n).2.1.out = s.out := by
  have fr1 := @State.hbmRead_frame
  have fr2 := @State.noteRead_frame
  unfold State.readRows
  exact State.foldl_proj_out (fun (a : List Byte × State × Bool) => a.2.1) _ (by intro a x; simp [fr1, fr2]) _ _

@[simp] theorem State.readRows_free (s : State) (d : Nat) (p : DmaPay) (n : Nat) : (State.readRows s d p n).2.1.free = s.free := by
  have fr1 := @State.hbmRead_frame
  have fr2 := @State.noteRead_frame
  unfold State.readRows
  exact State.foldl_proj_free (fun (a : List Byte × State × Bool) => a.2.1) _ (by intro a x; simp [fr1, fr2]) _ _

@[simp] theorem State.readRows_policy (s : State) (d : Nat) (p : DmaPay) (n : Nat) : (State.readRows s d p n).2.1.policy = s.policy := by
  have fr1 := @State.hbmRead_frame
  have fr2 := @State.noteRead_frame
  unfold State.readRows
  exact State.foldl_proj_policy (fun (a : List Byte × State × Bool) => a.2.1) _ (by intro a x; simp [fr1, fr2]) _ _

@[simp] theorem State.readRows_chk (s : State) (d : Nat) (p : DmaPay) (n : Nat) : (State.readRows s d p n).2.1.chk = s.chk := by
  have fr1 := @State.hbmRead_frame
  have fr2 := @State.noteRead_frame
  unfold State.readRows
  exact State.foldl_proj_chk (fun (a : List Byte × State × Bool) => a.2.1) _ (by intro a x; simp [fr1, fr2]) _ _

@[simp] theorem State.readRows_snp (s : State) (d : Nat) (p : DmaPay) (n : Nat) : (State.readRows s d p n).2.1.snp = s.snp := by
  have fr1 := @State.hbmRead_frame
  have fr2 := @State.noteRead_frame
  unfold State.readRows
  exact State.foldl_proj_snp (fun (a : List Byte × State × Bool) => a.2.1) _ (by intro a x; simp [fr1, fr2]) _ _

@[simp] theorem State.readRows_irq (s : State) (d : Nat) (p : DmaPay) (n : Nat) : (State.readRows s d p n).2.1.irq = s.irq := by
  have fr1 := @State.hbmRead_frame
  have fr2 := @State.noteRead_frame
  unfold State.readRows
  exact State.foldl_proj_irq (fun (a : List Byte × State × Bool) => a.2.1) _ (by intro a x; simp [fr1, fr2]) _ _

@[simp] theorem State.readRows_ezl (s : State) (d : Nat) (p : DmaPay) (n : Nat) : (State.readRows s d p n).2.1.ezl = s.ezl := by
  have fr1 := @State.hbmRead_frame
  have fr2 := @State.noteRead_frame
  unfold State.readRows
  exact State.foldl_proj_ezl (fun (a : List Byte × State × Bool) => a.2.1) _ (by intro a x; simp [fr1, fr2]) _ _

@[simp] theorem State.readRows_stp (s : State) (d : Nat) (p : DmaPay) (n : Nat) : (State.readRows s d p n).2.1.stp = s.stp := by
  have fr1 := @State.hbmRead_frame
  have fr2 := @State.noteRead_frame
  unfold State.readRows
  exact State.foldl_proj_stp (fun (a : List Byte × State × Bool) => a.2.1) _ (by intro a x; simp [fr1, fr2]) _ _

@[simp] theorem State.readRows_fmt (s : State) (d : Nat) (p : DmaPay) (n : Nat) : (State.readRows s d p n).2.1.fmt = s.fmt := by
  have fr1 := @State.hbmRead_frame
  have fr2 := @State.noteRead_frame
  unfold State.readRows
  exact State.foldl_proj_fmt (fun (a : List Byte × State × Bool) => a.2.1) _ (by intro a x; simp [fr1, fr2]) _ _

@[simp] theorem State.readRows_arr (s : State) (d : Nat) (p : DmaPay) (n : Nat) : (State.readRows s d p n).2.1.arr = s.arr := by
  have fr1 := @State.hbmRead_frame
  have fr2 := @State.noteRead_frame
  unfold State.readRows
  exact State.foldl_proj_arr (fun (a : List Byte × State × Bool) => a.2.1) _ (by intro a x; simp [fr1, fr2]) _ _

@[simp] theorem State.readRows_vec (s : State) (d : Nat) (p : DmaPay) (n : Nat) : (State.readRows s d p n).2.1.vec = s.vec := by
  have fr1 := @State.hbmRead_frame
  have fr2 := @State.noteRead_frame
  unfold State.readRows
  exact State.foldl_proj_vec (fun (a : List Byte × State × Bool) => a.2.1) _ (by intro a x; simp [fr1, fr2]) _ _

@[simp] theorem State.readRows_mxe (s : State) (d : Nat) (p : DmaPay) (n : Nat) : (State.readRows s d p n).2.1.mxe = s.mxe := by
  have fr1 := @State.hbmRead_frame
  have fr2 := @State.noteRead_frame
  unfold State.readRows
  exact State.foldl_proj_mxe (fun (a : List Byte × State × Bool) => a.2.1) _ (by intro a x; simp [fr1, fr2]) _ _

@[simp] theorem State.readRows_upd (s : State) (d : Nat) (p : DmaPay) (n : Nat) : (State.readRows s d p n).2.1.upd = s.upd := by
  have fr1 := @State.hbmRead_frame
  have fr2 := @State.noteRead_frame
  unfold State.readRows
  exact State.foldl_proj_upd (fun (a : List Byte × State × Bool) => a.2.1) _ (by intro a x; simp [fr1, fr2]) _ _

@[simp] theorem State.readRows_red (s : State) (d : Nat) (p : DmaPay) (n : Nat) : (State.readRows s d p n).2.1.red = s.red := by
  have fr1 := @State.hbmRead_frame
  have fr2 := @State.noteRead_frame
  unfold State.readRows
  exact State.foldl_proj_red (fun (a : List Byte × State × Bool) => a.2.1) _ (by intro a x; simp [fr1, fr2]) _ _

@[simp] theorem State.readRows_tsk (s : State) (d : Nat) (p : DmaPay) (n : Nat) : (State.readRows s d p n).2.1.tsk = s.tsk := by
  have fr1 := @State.hbmRead_frame
  have fr2 := @State.noteRead_frame
  unfold State.readRows
  exact State.foldl_proj_tsk (fun (a : List Byte × State × Bool) => a.2.1) _ (by intro a x; simp [fr1, fr2]) _ _

@[simp] theorem State.readRows_hif (s : State) (d : Nat) (p : DmaPay) (n : Nat) : (State.readRows s d p n).2.1.hif = s.hif := by
  have fr1 := @State.hbmRead_frame
  have fr2 := @State.noteRead_frame
  unfold State.readRows
  exact State.foldl_proj_hif (fun (a : List Byte × State × Bool) => a.2.1) _ (by intro a x; simp [fr1, fr2]) _ _

@[simp] theorem State.readRows_img (s : State) (d : Nat) (p : DmaPay) (n : Nat) : (State.readRows s d p n).2.1.img = s.img := by
  have fr1 := @State.hbmRead_frame
  have fr2 := @State.noteRead_frame
  unfold State.readRows
  exact State.foldl_proj_img (fun (a : List Byte × State × Bool) => a.2.1) _ (by intro a x; simp [fr1, fr2]) _ _

@[simp] theorem State.readRows_pwr (s : State) (d : Nat) (p : DmaPay) (n : Nat) : (State.readRows s d p n).2.1.pwr = s.pwr := by
  have fr1 := @State.hbmRead_frame
  have fr2 := @State.noteRead_frame
  unfold State.readRows
  exact State.foldl_proj_pwr (fun (a : List Byte × State × Bool) => a.2.1) _ (by intro a x; simp [fr1, fr2]) _ _

@[simp] theorem State.readRows_pending (s : State) (d : Nat) (p : DmaPay) (n : Nat) : (State.readRows s d p n).2.1.pending = s.pending := by
  have fr1 := @State.hbmRead_frame
  have fr2 := @State.noteRead_frame
  unfold State.readRows
  exact State.foldl_proj_pending (fun (a : List Byte × State × Bool) => a.2.1) _ (by intro a x; simp [fr1, fr2]) _ _


theorem dmaCopy_frame (d e : Nat) (s : State) :
    (dmaCopy d e s).pairLo = s.pairLo ∧ (dmaCopy d e s).pairCap = s.pairCap ∧ (dmaCopy d e s).out = s.out ∧ (dmaCopy d e s).free = s.free ∧ (dmaCopy d e s).policy = s.policy ∧ (dmaCopy d e s).chk = s.chk ∧ (dmaCopy d e s).snp = s.snp ∧ (dmaCopy d e s).irq = s.irq ∧ (dmaCopy d e s).ezl = s.ezl ∧ (dmaCopy d e s).stp = s.stp ∧ (dmaCopy d e s).fmt = s.fmt ∧ (dmaCopy d e s).arr = s.arr ∧ (dmaCopy d e s).vec = s.vec ∧ (dmaCopy d e s).mxe = s.mxe ∧ (dmaCopy d e s).upd = s.upd ∧ (dmaCopy d e s).red = s.red ∧ (dmaCopy d e s).hif = s.hif ∧ (dmaCopy d e s).img = s.img ∧ (dmaCopy d e s).pwr = s.pwr ∧ (dmaCopy d e s).pending = s.pending := by
  have fr1 := @State.dmaEnd_frame
  have fr2 := @State.dmaFault_frame
  have fr3 := @State.endDma_frame
  have fr4 := @State.hbmWrite_frame
  unfold dmaCopy; (repeat' split) <;> simp [fr1, fr2, fr3, fr4]


theorem dmaSpillOut_frame (d e : Nat) (s : State) :
    (dmaSpillOut d e s).pairLo = s.pairLo ∧ (dmaSpillOut d e s).pairCap = s.pairCap ∧ (dmaSpillOut d e s).free = s.free ∧ (dmaSpillOut d e s).policy = s.policy ∧ (dmaSpillOut d e s).chk = s.chk ∧ (dmaSpillOut d e s).snp = s.snp ∧ (dmaSpillOut d e s).irq = s.irq ∧ (dmaSpillOut d e s).stp = s.stp ∧ (dmaSpillOut d e s).fmt = s.fmt ∧ (dmaSpillOut d e s).arr = s.arr ∧ (dmaSpillOut d e s).vec = s.vec ∧ (dmaSpillOut d e s).mxe = s.mxe ∧ (dmaSpillOut d e s).upd = s.upd ∧ (dmaSpillOut d e s).red = s.red ∧ (dmaSpillOut d e s).hif = s.hif ∧ (dmaSpillOut d e s).img = s.img ∧ (dmaSpillOut d e s).pwr = s.pwr ∧ (dmaSpillOut d e s).pending = s.pending := by
  have fr1 := @State.dmaEnd_frame
  have fr2 := @State.dmaFault_frame
  have fr3 := @State.endDma_frame
  have fr4 := @State.hbmRead_frame
  have fr5 := @State.hostWrite_frame
  have fr6 := @State.noteRead_frame
  unfold dmaSpillOut; (repeat' split) <;> simp [fr1, fr2, fr3, fr4, fr5, fr6]


theorem dmaSpillIn_frame (d e : Nat) (data : List Byte) (err : Bool) (s : State) :
    (dmaSpillIn d e data err s).pairLo = s.pairLo ∧ (dmaSpillIn d e data err s).pairCap = s.pairCap ∧ (dmaSpillIn d e data err s).out = s.out ∧ (dmaSpillIn d e data err s).free = s.free ∧ (dmaSpillIn d e data err s).policy = s.policy ∧ (dmaSpillIn d e data err s).chk = s.chk ∧ (dmaSpillIn d e data err s).snp = s.snp ∧ (dmaSpillIn d e data err s).irq = s.irq ∧ (dmaSpillIn d e data err s).ezl = s.ezl ∧ (dmaSpillIn d e data err s).stp = s.stp ∧ (dmaSpillIn d e data err s).fmt = s.fmt ∧ (dmaSpillIn d e data err s).arr = s.arr ∧ (dmaSpillIn d e data err s).vec = s.vec ∧ (dmaSpillIn d e data err s).mxe = s.mxe ∧ (dmaSpillIn d e data err s).upd = s.upd ∧ (dmaSpillIn d e data err s).red = s.red ∧ (dmaSpillIn d e data err s).hif = s.hif ∧ (dmaSpillIn d e data err s).img = s.img ∧ (dmaSpillIn d e data err s).pwr = s.pwr ∧ (dmaSpillIn d e data err s).pending = s.pending := by
  have fr1 := @State.dmaEnd_frame
  have fr2 := @State.dmaFault_frame
  have fr3 := @State.hbmWrite_frame
  have fr4 := @State.hostFault_frame
  unfold dmaSpillIn; (repeat' split) <;> simp [fr1, fr2, fr3, fr4]


theorem dmaStream_frame (d e : Nat) (s : State) :
    (dmaStream d e s).pairLo = s.pairLo ∧ (dmaStream d e s).pairCap = s.pairCap ∧ (dmaStream d e s).out = s.out ∧ (dmaStream d e s).free = s.free ∧ (dmaStream d e s).policy = s.policy ∧ (dmaStream d e s).chk = s.chk ∧ (dmaStream d e s).snp = s.snp ∧ (dmaStream d e s).irq = s.irq ∧ (dmaStream d e s).ezl = s.ezl ∧ (dmaStream d e s).stp = s.stp ∧ (dmaStream d e s).fmt = s.fmt ∧ (dmaStream d e s).arr = s.arr ∧ (dmaStream d e s).vec = s.vec ∧ (dmaStream d e s).mxe = s.mxe ∧ (dmaStream d e s).upd = s.upd ∧ (dmaStream d e s).red = s.red ∧ (dmaStream d e s).hif = s.hif ∧ (dmaStream d e s).img = s.img ∧ (dmaStream d e s).pwr = s.pwr ∧ (dmaStream d e s).pending = s.pending := by
  have fr1 := @State.dmaFault_frame
  have fr2 := @State.endDma_frame
  have fr3 := @State.freeDma_frame
  have fr4 := @State.modMem_frame
  have fr5 := @State.taskRead_frame
  unfold dmaStream; (repeat' split) <;> simp [fr1, fr2, fr3, fr4, fr5]


theorem prefetcherFetch_frame (d p : Nat) (s : State) :
    (prefetcherFetch d p s).pairLo = s.pairLo ∧ (prefetcherFetch d p s).pairCap = s.pairCap ∧ (prefetcherFetch d p s).out = s.out ∧ (prefetcherFetch d p s).free = s.free ∧ (prefetcherFetch d p s).policy = s.policy ∧ (prefetcherFetch d p s).chk = s.chk ∧ (prefetcherFetch d p s).snp = s.snp ∧ (prefetcherFetch d p s).irq = s.irq ∧ (prefetcherFetch d p s).ezl = s.ezl ∧ (prefetcherFetch d p s).stp = s.stp ∧ (prefetcherFetch d p s).fmt = s.fmt ∧ (prefetcherFetch d p s).arr = s.arr ∧ (prefetcherFetch d p s).vec = s.vec ∧ (prefetcherFetch d p s).mxe = s.mxe ∧ (prefetcherFetch d p s).upd = s.upd ∧ (prefetcherFetch d p s).red = s.red ∧ (prefetcherFetch d p s).hif = s.hif ∧ (prefetcherFetch d p s).img = s.img ∧ (prefetcherFetch d p s).pwr = s.pwr ∧ (prefetcherFetch d p s).pending = s.pending := by
  have fr1 := @State.endTask_frame
  have fr2 := @State.modMem_frame
  have fr3 := @State.taskRead_frame
  unfold prefetcherFetch; (repeat' split) <;> simp [fr1, fr2, fr3]


theorem State.setSilt_frame (s : State) (d : Nat) (x : SiltFree) :
    (State.setSilt s d x).regs = s.regs ∧ (State.setSilt s d x).pairLo = s.pairLo ∧ (State.setSilt s d x).pairCap = s.pairCap ∧ (State.setSilt s d x).out = s.out ∧ (State.setSilt s d x).free = s.free ∧ (State.setSilt s d x).policy = s.policy ∧ (State.setSilt s d x).err = s.err ∧ (State.setSilt s d x).chk = s.chk ∧ (State.setSilt s d x).snp = s.snp ∧ (State.setSilt s d x).irq = s.irq ∧ (State.setSilt s d x).ezl = s.ezl ∧ (State.setSilt s d x).stp = s.stp ∧ (State.setSilt s d x).fmt = s.fmt ∧ (State.setSilt s d x).arr = s.arr ∧ (State.setSilt s d x).vec = s.vec ∧ (State.setSilt s d x).mxe = s.mxe ∧ (State.setSilt s d x).upd = s.upd ∧ (State.setSilt s d x).red = s.red ∧ (State.setSilt s d x).tsk = s.tsk ∧ (State.setSilt s d x).hif = s.hif ∧ (State.setSilt s d x).img = s.img ∧ (State.setSilt s d x).pwr = s.pwr ∧ (State.setSilt s d x).pending = s.pending := by
  have fr1 := @State.modMem_frame
  simp [State.setSilt, fr1]


theorem State.giveSlot_frame (s : State) (n : Nat) :
    (State.giveSlot s n).regs = s.regs ∧ (State.giveSlot s n).pairLo = s.pairLo ∧ (State.giveSlot s n).pairCap = s.pairCap ∧ (State.giveSlot s n).out = s.out ∧ (State.giveSlot s n).free = s.free ∧ (State.giveSlot s n).policy = s.policy ∧ (State.giveSlot s n).err = s.err ∧ (State.giveSlot s n).chk = s.chk ∧ (State.giveSlot s n).snp = s.snp ∧ (State.giveSlot s n).irq = s.irq ∧ (State.giveSlot s n).ezl = s.ezl ∧ (State.giveSlot s n).stp = s.stp ∧ (State.giveSlot s n).fmt = s.fmt ∧ (State.giveSlot s n).arr = s.arr ∧ (State.giveSlot s n).vec = s.vec ∧ (State.giveSlot s n).mxe = s.mxe ∧ (State.giveSlot s n).upd = s.upd ∧ (State.giveSlot s n).red = s.red ∧ (State.giveSlot s n).tsk = s.tsk ∧ (State.giveSlot s n).hif = s.hif ∧ (State.giveSlot s n).img = s.img ∧ (State.giveSlot s n).pwr = s.pwr ∧ (State.giveSlot s n).pending = s.pending := by
  have fr1 := @State.setSilt_frame
  simp [State.giveSlot, fr1]


theorem siltSlotsWrite_frame (rq : Requester) (d : Nat) (v : Word) (s : State) :
    (siltSlotsWrite rq d v s).pairLo = s.pairLo ∧ (siltSlotsWrite rq d v s).pairCap = s.pairCap ∧ (siltSlotsWrite rq d v s).out = s.out ∧ (siltSlotsWrite rq d v s).free = s.free ∧ (siltSlotsWrite rq d v s).policy = s.policy ∧ (siltSlotsWrite rq d v s).chk = s.chk ∧ (siltSlotsWrite rq d v s).snp = s.snp ∧ (siltSlotsWrite rq d v s).irq = s.irq ∧ (siltSlotsWrite rq d v s).ezl = s.ezl ∧ (siltSlotsWrite rq d v s).stp = s.stp ∧ (siltSlotsWrite rq d v s).fmt = s.fmt ∧ (siltSlotsWrite rq d v s).arr = s.arr ∧ (siltSlotsWrite rq d v s).vec = s.vec ∧ (siltSlotsWrite rq d v s).mxe = s.mxe ∧ (siltSlotsWrite rq d v s).upd = s.upd ∧ (siltSlotsWrite rq d v s).red = s.red ∧ (siltSlotsWrite rq d v s).tsk = s.tsk ∧ (siltSlotsWrite rq d v s).hif = s.hif ∧ (siltSlotsWrite rq d v s).img = s.img ∧ (siltSlotsWrite rq d v s).pwr = s.pwr ∧ (siltSlotsWrite rq d v s).pending = s.pending := by
  have fr1 := @State.refuseWrite_frame
  have fr2 := @State.setReg_frame
  have fr3 := @State.setSilt_frame
  simp [siltSlotsWrite, fr1, fr2, fr3]


theorem State.failHandle_frame (s : State) (h : Nat) :
    (State.failHandle s h).regs = s.regs ∧ (State.failHandle s h).pairLo = s.pairLo ∧ (State.failHandle s h).pairCap = s.pairCap ∧ (State.failHandle s h).out = s.out ∧ (State.failHandle s h).free = s.free ∧ (State.failHandle s h).policy = s.policy ∧ (State.failHandle s h).err = s.err ∧ (State.failHandle s h).chk = s.chk ∧ (State.failHandle s h).snp = s.snp ∧ (State.failHandle s h).irq = s.irq ∧ (State.failHandle s h).ezl = s.ezl ∧ (State.failHandle s h).stp = s.stp ∧ (State.failHandle s h).fmt = s.fmt ∧ (State.failHandle s h).arr = s.arr ∧ (State.failHandle s h).vec = s.vec ∧ (State.failHandle s h).mxe = s.mxe ∧ (State.failHandle s h).upd = s.upd ∧ (State.failHandle s h).red = s.red ∧ (State.failHandle s h).tsk = s.tsk ∧ (State.failHandle s h).hif = s.hif ∧ (State.failHandle s h).img = s.img ∧ (State.failHandle s h).pwr = s.pwr ∧ (State.failHandle s h).pending = s.pending := by
  have fr1 := @State.setCtx_frame
  simp [State.failHandle, fr1]


theorem State.putRecord_frame (s : State) (task key value : Nat) (p : DmaPay) (n : Nat) (src : List Byte) :
    (State.putRecord s task key value p n src).regs = s.regs ∧ (State.putRecord s task key value p n src).pairLo = s.pairLo ∧ (State.putRecord s task key value p n src).pairCap = s.pairCap ∧ (State.putRecord s task key value p n src).out = s.out ∧ (State.putRecord s task key value p n src).free = s.free ∧ (State.putRecord s task key value p n src).policy = s.policy ∧ (State.putRecord s task key value p n src).err = s.err ∧ (State.putRecord s task key value p n src).chk = s.chk ∧ (State.putRecord s task key value p n src).snp = s.snp ∧ (State.putRecord s task key value p n src).irq = s.irq ∧ (State.putRecord s task key value p n src).ezl = s.ezl ∧ (State.putRecord s task key value p n src).fmt = s.fmt ∧ (State.putRecord s task key value p n src).arr = s.arr ∧ (State.putRecord s task key value p n src).vec = s.vec ∧ (State.putRecord s task key value p n src).mxe = s.mxe ∧ (State.putRecord s task key value p n src).upd = s.upd ∧ (State.putRecord s task key value p n src).red = s.red ∧ (State.putRecord s task key value p n src).tsk = s.tsk ∧ (State.putRecord s task key value p n src).hif = s.hif ∧ (State.putRecord s task key value p n src).img = s.img ∧ (State.putRecord s task key value p n src).pwr = s.pwr ∧ (State.putRecord s task key value p n src).pending = s.pending := by
  have fr1 := @State.addEnc_frame
  have fr2 := @State.hbmWrite_frame
  have fr3 := @State.setCtx_frame
  simp [State.putRecord, fr1, fr2, fr3]


theorem State.allocPage_pairLo {s : State} {row : Nat} {r : Nat × State} (h : s.allocPage row = some r) : r.2.pairLo = s.pairLo := by
  have fr1 := @State.dmaFault_frame
  have fr2 := @State.endDma_frame
  have fr3 := @State.event_frame
  have fr4 := @State.failHandle_frame
  have fr5 := @State.hbmRead_frame
  have fr6 := @State.noteRead_frame
  have fr7 := @State.putRecord_frame
  have fr8 := @State.taskRead_frame
  have fr9 := @State.setSilt_frame
  unfold State.allocPage at h; dsimp only at h
  (repeat' split at h) <;> first | (simp [fr1, fr2, fr3, fr4, fr5, fr6, fr7, fr8, fr9] at h; done) | (injection h with h; subst h; simp [fr1, fr2, fr3, fr4, fr5, fr6, fr7, fr8, fr9])

theorem State.pageFor_pairLo {s t : State} {h row layer off n : Nat} (e : s.pageFor h row layer off = .inr (n, t)) : t.pairLo = s.pairLo := by
  have fr1 := @State.dmaFault_frame
  have fr2 := @State.endDma_frame
  have fr3 := @State.event_frame
  have fr4 := @State.failHandle_frame
  have fr5 := @State.hbmRead_frame
  have fr6 := @State.noteRead_frame
  have fr7 := @State.putRecord_frame
  have fr8 := @State.taskRead_frame
  have fr9 := @State.hbmWrite_frame
  unfold State.pageFor at e; dsimp only at e
  (repeat' split at e) <;> first
    | (simp [fr1, fr2, fr3, fr4, fr5, fr6, fr7, fr8, fr9] at e; done)
    | (injection e with e; injection e with e1 e2; subst e2; rfl)
    | (next ha => injection e with e; injection e with e1 e2; subst e2; have := State.allocPage_pairLo ha; simpa [fr1, fr2, fr3, fr4, fr5, fr6, fr7, fr8, fr9] using this)

@[simp] theorem siltPut_pairLo (d e key value : Nat) (s : State) : (siltPut d e key value s).pairLo = s.pairLo := by
  have fr1 := @State.dmaFault_frame
  have fr2 := @State.endDma_frame
  have fr3 := @State.event_frame
  have fr4 := @State.failHandle_frame
  have fr5 := @State.hbmRead_frame
  have fr6 := @State.noteRead_frame
  have fr7 := @State.putRecord_frame
  have fr8 := @State.taskRead_frame
  have fr9 := @State.hbmWrite_frame
  have fr10 := @State.setCtx_frame
  unfold siltPut
  split
  · rfl
  · split
    · simp [fr1, fr2, fr3, fr4, fr5, fr6, fr7, fr8, fr9, fr10]
    · split
      · rfl
      · split
        · simp [fr1, fr2, fr3, fr4, fr5, fr6, fr7, fr8, fr9, fr10]
        · dsimp only
          split
          · have e1 : ∀ (t : State) a b c f, (t.endDma a b c f).pairLo = t.pairLo := by intros; simp [fr1, fr2, fr3, fr4, fr5, fr6, fr7, fr8, fr9, fr10]
            have e2 : ∀ (t : State) a, (t.failHandle a).pairLo = t.pairLo := by intros; simp [fr1, fr2, fr3, fr4, fr5, fr6, fr7, fr8, fr9, fr10]
            rw [e1, e2]; split <;> simp [fr1, fr2, fr3, fr4, fr5, fr6, fr7, fr8, fr9, fr10]
          · next hp =>
            have := State.pageFor_pairLo hp
            (repeat' split) <;> simp [this, fr1, fr2, fr3, fr4, fr5, fr6, fr7, fr8, fr9, fr10]

theorem State.allocPage_pairCap {s : State} {row : Nat} {r : Nat × State} (h : s.allocPage row = some r) : r.2.pairCap = s.pairCap := by
  have fr1 := @State.dmaFault_frame
  have fr2 := @State.endDma_frame
  have fr3 := @State.event_frame
  have fr4 := @State.failHandle_frame
  have fr5 := @State.hbmRead_frame
  have fr6 := @State.noteRead_frame
  have fr7 := @State.putRecord_frame
  have fr8 := @State.taskRead_frame
  have fr9 := @State.setSilt_frame
  unfold State.allocPage at h; dsimp only at h
  (repeat' split at h) <;> first | (simp [fr1, fr2, fr3, fr4, fr5, fr6, fr7, fr8, fr9] at h; done) | (injection h with h; subst h; simp [fr1, fr2, fr3, fr4, fr5, fr6, fr7, fr8, fr9])

theorem State.pageFor_pairCap {s t : State} {h row layer off n : Nat} (e : s.pageFor h row layer off = .inr (n, t)) : t.pairCap = s.pairCap := by
  have fr1 := @State.dmaFault_frame
  have fr2 := @State.endDma_frame
  have fr3 := @State.event_frame
  have fr4 := @State.failHandle_frame
  have fr5 := @State.hbmRead_frame
  have fr6 := @State.noteRead_frame
  have fr7 := @State.putRecord_frame
  have fr8 := @State.taskRead_frame
  have fr9 := @State.hbmWrite_frame
  unfold State.pageFor at e; dsimp only at e
  (repeat' split at e) <;> first
    | (simp [fr1, fr2, fr3, fr4, fr5, fr6, fr7, fr8, fr9] at e; done)
    | (injection e with e; injection e with e1 e2; subst e2; rfl)
    | (next ha => injection e with e; injection e with e1 e2; subst e2; have := State.allocPage_pairCap ha; simpa [fr1, fr2, fr3, fr4, fr5, fr6, fr7, fr8, fr9] using this)

@[simp] theorem siltPut_pairCap (d e key value : Nat) (s : State) : (siltPut d e key value s).pairCap = s.pairCap := by
  have fr1 := @State.dmaFault_frame
  have fr2 := @State.endDma_frame
  have fr3 := @State.event_frame
  have fr4 := @State.failHandle_frame
  have fr5 := @State.hbmRead_frame
  have fr6 := @State.noteRead_frame
  have fr7 := @State.putRecord_frame
  have fr8 := @State.taskRead_frame
  have fr9 := @State.hbmWrite_frame
  have fr10 := @State.setCtx_frame
  unfold siltPut
  split
  · rfl
  · split
    · simp [fr1, fr2, fr3, fr4, fr5, fr6, fr7, fr8, fr9, fr10]
    · split
      · rfl
      · split
        · simp [fr1, fr2, fr3, fr4, fr5, fr6, fr7, fr8, fr9, fr10]
        · dsimp only
          split
          · have e1 : ∀ (t : State) a b c f, (t.endDma a b c f).pairCap = t.pairCap := by intros; simp [fr1, fr2, fr3, fr4, fr5, fr6, fr7, fr8, fr9, fr10]
            have e2 : ∀ (t : State) a, (t.failHandle a).pairCap = t.pairCap := by intros; simp [fr1, fr2, fr3, fr4, fr5, fr6, fr7, fr8, fr9, fr10]
            rw [e1, e2]; split <;> simp [fr1, fr2, fr3, fr4, fr5, fr6, fr7, fr8, fr9, fr10]
          · next hp =>
            have := State.pageFor_pairCap hp
            (repeat' split) <;> simp [this, fr1, fr2, fr3, fr4, fr5, fr6, fr7, fr8, fr9, fr10]

theorem State.allocPage_out {s : State} {row : Nat} {r : Nat × State} (h : s.allocPage row = some r) : r.2.out = s.out := by
  have fr1 := @State.dmaFault_frame
  have fr2 := @State.endDma_frame
  have fr3 := @State.event_frame
  have fr4 := @State.failHandle_frame
  have fr5 := @State.hbmRead_frame
  have fr6 := @State.noteRead_frame
  have fr7 := @State.putRecord_frame
  have fr8 := @State.taskRead_frame
  have fr9 := @State.setSilt_frame
  unfold State.allocPage at h; dsimp only at h
  (repeat' split at h) <;> first | (simp [fr1, fr2, fr3, fr4, fr5, fr6, fr7, fr8, fr9] at h; done) | (injection h with h; subst h; simp [fr1, fr2, fr3, fr4, fr5, fr6, fr7, fr8, fr9])

theorem State.pageFor_out {s t : State} {h row layer off n : Nat} (e : s.pageFor h row layer off = .inr (n, t)) : t.out = s.out := by
  have fr1 := @State.dmaFault_frame
  have fr2 := @State.endDma_frame
  have fr3 := @State.event_frame
  have fr4 := @State.failHandle_frame
  have fr5 := @State.hbmRead_frame
  have fr6 := @State.noteRead_frame
  have fr7 := @State.putRecord_frame
  have fr8 := @State.taskRead_frame
  have fr9 := @State.hbmWrite_frame
  unfold State.pageFor at e; dsimp only at e
  (repeat' split at e) <;> first
    | (simp [fr1, fr2, fr3, fr4, fr5, fr6, fr7, fr8, fr9] at e; done)
    | (injection e with e; injection e with e1 e2; subst e2; rfl)
    | (next ha => injection e with e; injection e with e1 e2; subst e2; have := State.allocPage_out ha; simpa [fr1, fr2, fr3, fr4, fr5, fr6, fr7, fr8, fr9] using this)

@[simp] theorem siltPut_out (d e key value : Nat) (s : State) : (siltPut d e key value s).out = s.out := by
  have fr1 := @State.dmaFault_frame
  have fr2 := @State.endDma_frame
  have fr3 := @State.event_frame
  have fr4 := @State.failHandle_frame
  have fr5 := @State.hbmRead_frame
  have fr6 := @State.noteRead_frame
  have fr7 := @State.putRecord_frame
  have fr8 := @State.taskRead_frame
  have fr9 := @State.hbmWrite_frame
  have fr10 := @State.setCtx_frame
  unfold siltPut
  split
  · rfl
  · split
    · simp [fr1, fr2, fr3, fr4, fr5, fr6, fr7, fr8, fr9, fr10]
    · split
      · rfl
      · split
        · simp [fr1, fr2, fr3, fr4, fr5, fr6, fr7, fr8, fr9, fr10]
        · dsimp only
          split
          · have e1 : ∀ (t : State) a b c f, (t.endDma a b c f).out = t.out := by intros; simp [fr1, fr2, fr3, fr4, fr5, fr6, fr7, fr8, fr9, fr10]
            have e2 : ∀ (t : State) a, (t.failHandle a).out = t.out := by intros; simp [fr1, fr2, fr3, fr4, fr5, fr6, fr7, fr8, fr9, fr10]
            rw [e1, e2]; split <;> simp [fr1, fr2, fr3, fr4, fr5, fr6, fr7, fr8, fr9, fr10]
          · next hp =>
            have := State.pageFor_out hp
            (repeat' split) <;> simp [this, fr1, fr2, fr3, fr4, fr5, fr6, fr7, fr8, fr9, fr10]

theorem State.allocPage_free {s : State} {row : Nat} {r : Nat × State} (h : s.allocPage row = some r) : r.2.free = s.free := by
  have fr1 := @State.dmaFault_frame
  have fr2 := @State.endDma_frame
  have fr3 := @State.event_frame
  have fr4 := @State.failHandle_frame
  have fr5 := @State.hbmRead_frame
  have fr6 := @State.noteRead_frame
  have fr7 := @State.putRecord_frame
  have fr8 := @State.taskRead_frame
  have fr9 := @State.setSilt_frame
  unfold State.allocPage at h; dsimp only at h
  (repeat' split at h) <;> first | (simp [fr1, fr2, fr3, fr4, fr5, fr6, fr7, fr8, fr9] at h; done) | (injection h with h; subst h; simp [fr1, fr2, fr3, fr4, fr5, fr6, fr7, fr8, fr9])

theorem State.pageFor_free {s t : State} {h row layer off n : Nat} (e : s.pageFor h row layer off = .inr (n, t)) : t.free = s.free := by
  have fr1 := @State.dmaFault_frame
  have fr2 := @State.endDma_frame
  have fr3 := @State.event_frame
  have fr4 := @State.failHandle_frame
  have fr5 := @State.hbmRead_frame
  have fr6 := @State.noteRead_frame
  have fr7 := @State.putRecord_frame
  have fr8 := @State.taskRead_frame
  have fr9 := @State.hbmWrite_frame
  unfold State.pageFor at e; dsimp only at e
  (repeat' split at e) <;> first
    | (simp [fr1, fr2, fr3, fr4, fr5, fr6, fr7, fr8, fr9] at e; done)
    | (injection e with e; injection e with e1 e2; subst e2; rfl)
    | (next ha => injection e with e; injection e with e1 e2; subst e2; have := State.allocPage_free ha; simpa [fr1, fr2, fr3, fr4, fr5, fr6, fr7, fr8, fr9] using this)

@[simp] theorem siltPut_free (d e key value : Nat) (s : State) : (siltPut d e key value s).free = s.free := by
  have fr1 := @State.dmaFault_frame
  have fr2 := @State.endDma_frame
  have fr3 := @State.event_frame
  have fr4 := @State.failHandle_frame
  have fr5 := @State.hbmRead_frame
  have fr6 := @State.noteRead_frame
  have fr7 := @State.putRecord_frame
  have fr8 := @State.taskRead_frame
  have fr9 := @State.hbmWrite_frame
  have fr10 := @State.setCtx_frame
  unfold siltPut
  split
  · rfl
  · split
    · simp [fr1, fr2, fr3, fr4, fr5, fr6, fr7, fr8, fr9, fr10]
    · split
      · rfl
      · split
        · simp [fr1, fr2, fr3, fr4, fr5, fr6, fr7, fr8, fr9, fr10]
        · dsimp only
          split
          · have e1 : ∀ (t : State) a b c f, (t.endDma a b c f).free = t.free := by intros; simp [fr1, fr2, fr3, fr4, fr5, fr6, fr7, fr8, fr9, fr10]
            have e2 : ∀ (t : State) a, (t.failHandle a).free = t.free := by intros; simp [fr1, fr2, fr3, fr4, fr5, fr6, fr7, fr8, fr9, fr10]
            rw [e1, e2]; split <;> simp [fr1, fr2, fr3, fr4, fr5, fr6, fr7, fr8, fr9, fr10]
          · next hp =>
            have := State.pageFor_free hp
            (repeat' split) <;> simp [this, fr1, fr2, fr3, fr4, fr5, fr6, fr7, fr8, fr9, fr10]

theorem State.allocPage_policy {s : State} {row : Nat} {r : Nat × State} (h : s.allocPage row = some r) : r.2.policy = s.policy := by
  have fr1 := @State.dmaFault_frame
  have fr2 := @State.endDma_frame
  have fr3 := @State.event_frame
  have fr4 := @State.failHandle_frame
  have fr5 := @State.hbmRead_frame
  have fr6 := @State.noteRead_frame
  have fr7 := @State.putRecord_frame
  have fr8 := @State.taskRead_frame
  have fr9 := @State.setSilt_frame
  unfold State.allocPage at h; dsimp only at h
  (repeat' split at h) <;> first | (simp [fr1, fr2, fr3, fr4, fr5, fr6, fr7, fr8, fr9] at h; done) | (injection h with h; subst h; simp [fr1, fr2, fr3, fr4, fr5, fr6, fr7, fr8, fr9])

theorem State.pageFor_policy {s t : State} {h row layer off n : Nat} (e : s.pageFor h row layer off = .inr (n, t)) : t.policy = s.policy := by
  have fr1 := @State.dmaFault_frame
  have fr2 := @State.endDma_frame
  have fr3 := @State.event_frame
  have fr4 := @State.failHandle_frame
  have fr5 := @State.hbmRead_frame
  have fr6 := @State.noteRead_frame
  have fr7 := @State.putRecord_frame
  have fr8 := @State.taskRead_frame
  have fr9 := @State.hbmWrite_frame
  unfold State.pageFor at e; dsimp only at e
  (repeat' split at e) <;> first
    | (simp [fr1, fr2, fr3, fr4, fr5, fr6, fr7, fr8, fr9] at e; done)
    | (injection e with e; injection e with e1 e2; subst e2; rfl)
    | (next ha => injection e with e; injection e with e1 e2; subst e2; have := State.allocPage_policy ha; simpa [fr1, fr2, fr3, fr4, fr5, fr6, fr7, fr8, fr9] using this)

@[simp] theorem siltPut_policy (d e key value : Nat) (s : State) : (siltPut d e key value s).policy = s.policy := by
  have fr1 := @State.dmaFault_frame
  have fr2 := @State.endDma_frame
  have fr3 := @State.event_frame
  have fr4 := @State.failHandle_frame
  have fr5 := @State.hbmRead_frame
  have fr6 := @State.noteRead_frame
  have fr7 := @State.putRecord_frame
  have fr8 := @State.taskRead_frame
  have fr9 := @State.hbmWrite_frame
  have fr10 := @State.setCtx_frame
  unfold siltPut
  split
  · rfl
  · split
    · simp [fr1, fr2, fr3, fr4, fr5, fr6, fr7, fr8, fr9, fr10]
    · split
      · rfl
      · split
        · simp [fr1, fr2, fr3, fr4, fr5, fr6, fr7, fr8, fr9, fr10]
        · dsimp only
          split
          · have e1 : ∀ (t : State) a b c f, (t.endDma a b c f).policy = t.policy := by intros; simp [fr1, fr2, fr3, fr4, fr5, fr6, fr7, fr8, fr9, fr10]
            have e2 : ∀ (t : State) a, (t.failHandle a).policy = t.policy := by intros; simp [fr1, fr2, fr3, fr4, fr5, fr6, fr7, fr8, fr9, fr10]
            rw [e1, e2]; split <;> simp [fr1, fr2, fr3, fr4, fr5, fr6, fr7, fr8, fr9, fr10]
          · next hp =>
            have := State.pageFor_policy hp
            (repeat' split) <;> simp [this, fr1, fr2, fr3, fr4, fr5, fr6, fr7, fr8, fr9, fr10]

theorem State.allocPage_chk {s : State} {row : Nat} {r : Nat × State} (h : s.allocPage row = some r) : r.2.chk = s.chk := by
  have fr1 := @State.dmaFault_frame
  have fr2 := @State.endDma_frame
  have fr3 := @State.event_frame
  have fr4 := @State.failHandle_frame
  have fr5 := @State.hbmRead_frame
  have fr6 := @State.noteRead_frame
  have fr7 := @State.putRecord_frame
  have fr8 := @State.taskRead_frame
  have fr9 := @State.setSilt_frame
  unfold State.allocPage at h; dsimp only at h
  (repeat' split at h) <;> first | (simp [fr1, fr2, fr3, fr4, fr5, fr6, fr7, fr8, fr9] at h; done) | (injection h with h; subst h; simp [fr1, fr2, fr3, fr4, fr5, fr6, fr7, fr8, fr9])

theorem State.pageFor_chk {s t : State} {h row layer off n : Nat} (e : s.pageFor h row layer off = .inr (n, t)) : t.chk = s.chk := by
  have fr1 := @State.dmaFault_frame
  have fr2 := @State.endDma_frame
  have fr3 := @State.event_frame
  have fr4 := @State.failHandle_frame
  have fr5 := @State.hbmRead_frame
  have fr6 := @State.noteRead_frame
  have fr7 := @State.putRecord_frame
  have fr8 := @State.taskRead_frame
  have fr9 := @State.hbmWrite_frame
  unfold State.pageFor at e; dsimp only at e
  (repeat' split at e) <;> first
    | (simp [fr1, fr2, fr3, fr4, fr5, fr6, fr7, fr8, fr9] at e; done)
    | (injection e with e; injection e with e1 e2; subst e2; rfl)
    | (next ha => injection e with e; injection e with e1 e2; subst e2; have := State.allocPage_chk ha; simpa [fr1, fr2, fr3, fr4, fr5, fr6, fr7, fr8, fr9] using this)

@[simp] theorem siltPut_chk (d e key value : Nat) (s : State) : (siltPut d e key value s).chk = s.chk := by
  have fr1 := @State.dmaFault_frame
  have fr2 := @State.endDma_frame
  have fr3 := @State.event_frame
  have fr4 := @State.failHandle_frame
  have fr5 := @State.hbmRead_frame
  have fr6 := @State.noteRead_frame
  have fr7 := @State.putRecord_frame
  have fr8 := @State.taskRead_frame
  have fr9 := @State.hbmWrite_frame
  have fr10 := @State.setCtx_frame
  unfold siltPut
  split
  · rfl
  · split
    · simp [fr1, fr2, fr3, fr4, fr5, fr6, fr7, fr8, fr9, fr10]
    · split
      · rfl
      · split
        · simp [fr1, fr2, fr3, fr4, fr5, fr6, fr7, fr8, fr9, fr10]
        · dsimp only
          split
          · have e1 : ∀ (t : State) a b c f, (t.endDma a b c f).chk = t.chk := by intros; simp [fr1, fr2, fr3, fr4, fr5, fr6, fr7, fr8, fr9, fr10]
            have e2 : ∀ (t : State) a, (t.failHandle a).chk = t.chk := by intros; simp [fr1, fr2, fr3, fr4, fr5, fr6, fr7, fr8, fr9, fr10]
            rw [e1, e2]; split <;> simp [fr1, fr2, fr3, fr4, fr5, fr6, fr7, fr8, fr9, fr10]
          · next hp =>
            have := State.pageFor_chk hp
            (repeat' split) <;> simp [this, fr1, fr2, fr3, fr4, fr5, fr6, fr7, fr8, fr9, fr10]

theorem State.allocPage_snp {s : State} {row : Nat} {r : Nat × State} (h : s.allocPage row = some r) : r.2.snp = s.snp := by
  have fr1 := @State.dmaFault_frame
  have fr2 := @State.endDma_frame
  have fr3 := @State.event_frame
  have fr4 := @State.failHandle_frame
  have fr5 := @State.hbmRead_frame
  have fr6 := @State.noteRead_frame
  have fr7 := @State.putRecord_frame
  have fr8 := @State.taskRead_frame
  have fr9 := @State.setSilt_frame
  unfold State.allocPage at h; dsimp only at h
  (repeat' split at h) <;> first | (simp [fr1, fr2, fr3, fr4, fr5, fr6, fr7, fr8, fr9] at h; done) | (injection h with h; subst h; simp [fr1, fr2, fr3, fr4, fr5, fr6, fr7, fr8, fr9])

theorem State.pageFor_snp {s t : State} {h row layer off n : Nat} (e : s.pageFor h row layer off = .inr (n, t)) : t.snp = s.snp := by
  have fr1 := @State.dmaFault_frame
  have fr2 := @State.endDma_frame
  have fr3 := @State.event_frame
  have fr4 := @State.failHandle_frame
  have fr5 := @State.hbmRead_frame
  have fr6 := @State.noteRead_frame
  have fr7 := @State.putRecord_frame
  have fr8 := @State.taskRead_frame
  have fr9 := @State.hbmWrite_frame
  unfold State.pageFor at e; dsimp only at e
  (repeat' split at e) <;> first
    | (simp [fr1, fr2, fr3, fr4, fr5, fr6, fr7, fr8, fr9] at e; done)
    | (injection e with e; injection e with e1 e2; subst e2; rfl)
    | (next ha => injection e with e; injection e with e1 e2; subst e2; have := State.allocPage_snp ha; simpa [fr1, fr2, fr3, fr4, fr5, fr6, fr7, fr8, fr9] using this)

@[simp] theorem siltPut_snp (d e key value : Nat) (s : State) : (siltPut d e key value s).snp = s.snp := by
  have fr1 := @State.dmaFault_frame
  have fr2 := @State.endDma_frame
  have fr3 := @State.event_frame
  have fr4 := @State.failHandle_frame
  have fr5 := @State.hbmRead_frame
  have fr6 := @State.noteRead_frame
  have fr7 := @State.putRecord_frame
  have fr8 := @State.taskRead_frame
  have fr9 := @State.hbmWrite_frame
  have fr10 := @State.setCtx_frame
  unfold siltPut
  split
  · rfl
  · split
    · simp [fr1, fr2, fr3, fr4, fr5, fr6, fr7, fr8, fr9, fr10]
    · split
      · rfl
      · split
        · simp [fr1, fr2, fr3, fr4, fr5, fr6, fr7, fr8, fr9, fr10]
        · dsimp only
          split
          · have e1 : ∀ (t : State) a b c f, (t.endDma a b c f).snp = t.snp := by intros; simp [fr1, fr2, fr3, fr4, fr5, fr6, fr7, fr8, fr9, fr10]
            have e2 : ∀ (t : State) a, (t.failHandle a).snp = t.snp := by intros; simp [fr1, fr2, fr3, fr4, fr5, fr6, fr7, fr8, fr9, fr10]
            rw [e1, e2]; split <;> simp [fr1, fr2, fr3, fr4, fr5, fr6, fr7, fr8, fr9, fr10]
          · next hp =>
            have := State.pageFor_snp hp
            (repeat' split) <;> simp [this, fr1, fr2, fr3, fr4, fr5, fr6, fr7, fr8, fr9, fr10]

theorem State.allocPage_irq {s : State} {row : Nat} {r : Nat × State} (h : s.allocPage row = some r) : r.2.irq = s.irq := by
  have fr1 := @State.dmaFault_frame
  have fr2 := @State.endDma_frame
  have fr3 := @State.event_frame
  have fr4 := @State.failHandle_frame
  have fr5 := @State.hbmRead_frame
  have fr6 := @State.noteRead_frame
  have fr7 := @State.putRecord_frame
  have fr8 := @State.taskRead_frame
  have fr9 := @State.setSilt_frame
  unfold State.allocPage at h; dsimp only at h
  (repeat' split at h) <;> first | (simp [fr1, fr2, fr3, fr4, fr5, fr6, fr7, fr8, fr9] at h; done) | (injection h with h; subst h; simp [fr1, fr2, fr3, fr4, fr5, fr6, fr7, fr8, fr9])

theorem State.pageFor_irq {s t : State} {h row layer off n : Nat} (e : s.pageFor h row layer off = .inr (n, t)) : t.irq = s.irq := by
  have fr1 := @State.dmaFault_frame
  have fr2 := @State.endDma_frame
  have fr3 := @State.event_frame
  have fr4 := @State.failHandle_frame
  have fr5 := @State.hbmRead_frame
  have fr6 := @State.noteRead_frame
  have fr7 := @State.putRecord_frame
  have fr8 := @State.taskRead_frame
  have fr9 := @State.hbmWrite_frame
  unfold State.pageFor at e; dsimp only at e
  (repeat' split at e) <;> first
    | (simp [fr1, fr2, fr3, fr4, fr5, fr6, fr7, fr8, fr9] at e; done)
    | (injection e with e; injection e with e1 e2; subst e2; rfl)
    | (next ha => injection e with e; injection e with e1 e2; subst e2; have := State.allocPage_irq ha; simpa [fr1, fr2, fr3, fr4, fr5, fr6, fr7, fr8, fr9] using this)

@[simp] theorem siltPut_irq (d e key value : Nat) (s : State) : (siltPut d e key value s).irq = s.irq := by
  have fr1 := @State.dmaFault_frame
  have fr2 := @State.endDma_frame
  have fr3 := @State.event_frame
  have fr4 := @State.failHandle_frame
  have fr5 := @State.hbmRead_frame
  have fr6 := @State.noteRead_frame
  have fr7 := @State.putRecord_frame
  have fr8 := @State.taskRead_frame
  have fr9 := @State.hbmWrite_frame
  have fr10 := @State.setCtx_frame
  unfold siltPut
  split
  · rfl
  · split
    · simp [fr1, fr2, fr3, fr4, fr5, fr6, fr7, fr8, fr9, fr10]
    · split
      · rfl
      · split
        · simp [fr1, fr2, fr3, fr4, fr5, fr6, fr7, fr8, fr9, fr10]
        · dsimp only
          split
          · have e1 : ∀ (t : State) a b c f, (t.endDma a b c f).irq = t.irq := by intros; simp [fr1, fr2, fr3, fr4, fr5, fr6, fr7, fr8, fr9, fr10]
            have e2 : ∀ (t : State) a, (t.failHandle a).irq = t.irq := by intros; simp [fr1, fr2, fr3, fr4, fr5, fr6, fr7, fr8, fr9, fr10]
            rw [e1, e2]; split <;> simp [fr1, fr2, fr3, fr4, fr5, fr6, fr7, fr8, fr9, fr10]
          · next hp =>
            have := State.pageFor_irq hp
            (repeat' split) <;> simp [this, fr1, fr2, fr3, fr4, fr5, fr6, fr7, fr8, fr9, fr10]

theorem State.allocPage_ezl {s : State} {row : Nat} {r : Nat × State} (h : s.allocPage row = some r) : r.2.ezl = s.ezl := by
  have fr1 := @State.dmaFault_frame
  have fr2 := @State.endDma_frame
  have fr3 := @State.event_frame
  have fr4 := @State.failHandle_frame
  have fr5 := @State.hbmRead_frame
  have fr6 := @State.noteRead_frame
  have fr7 := @State.putRecord_frame
  have fr8 := @State.taskRead_frame
  have fr9 := @State.setSilt_frame
  unfold State.allocPage at h; dsimp only at h
  (repeat' split at h) <;> first | (simp [fr1, fr2, fr3, fr4, fr5, fr6, fr7, fr8, fr9] at h; done) | (injection h with h; subst h; simp [fr1, fr2, fr3, fr4, fr5, fr6, fr7, fr8, fr9])

theorem State.pageFor_ezl {s t : State} {h row layer off n : Nat} (e : s.pageFor h row layer off = .inr (n, t)) : t.ezl = s.ezl := by
  have fr1 := @State.dmaFault_frame
  have fr2 := @State.endDma_frame
  have fr3 := @State.event_frame
  have fr4 := @State.failHandle_frame
  have fr5 := @State.hbmRead_frame
  have fr6 := @State.noteRead_frame
  have fr7 := @State.putRecord_frame
  have fr8 := @State.taskRead_frame
  have fr9 := @State.hbmWrite_frame
  unfold State.pageFor at e; dsimp only at e
  (repeat' split at e) <;> first
    | (simp [fr1, fr2, fr3, fr4, fr5, fr6, fr7, fr8, fr9] at e; done)
    | (injection e with e; injection e with e1 e2; subst e2; rfl)
    | (next ha => injection e with e; injection e with e1 e2; subst e2; have := State.allocPage_ezl ha; simpa [fr1, fr2, fr3, fr4, fr5, fr6, fr7, fr8, fr9] using this)

@[simp] theorem siltPut_ezl (d e key value : Nat) (s : State) : (siltPut d e key value s).ezl = s.ezl := by
  have fr1 := @State.dmaFault_frame
  have fr2 := @State.endDma_frame
  have fr3 := @State.event_frame
  have fr4 := @State.failHandle_frame
  have fr5 := @State.hbmRead_frame
  have fr6 := @State.noteRead_frame
  have fr7 := @State.putRecord_frame
  have fr8 := @State.taskRead_frame
  have fr9 := @State.hbmWrite_frame
  have fr10 := @State.setCtx_frame
  unfold siltPut
  split
  · rfl
  · split
    · simp [fr1, fr2, fr3, fr4, fr5, fr6, fr7, fr8, fr9, fr10]
    · split
      · rfl
      · split
        · simp [fr1, fr2, fr3, fr4, fr5, fr6, fr7, fr8, fr9, fr10]
        · dsimp only
          split
          · have e1 : ∀ (t : State) a b c f, (t.endDma a b c f).ezl = t.ezl := by intros; simp [fr1, fr2, fr3, fr4, fr5, fr6, fr7, fr8, fr9, fr10]
            have e2 : ∀ (t : State) a, (t.failHandle a).ezl = t.ezl := by intros; simp [fr1, fr2, fr3, fr4, fr5, fr6, fr7, fr8, fr9, fr10]
            rw [e1, e2]; split <;> simp [fr1, fr2, fr3, fr4, fr5, fr6, fr7, fr8, fr9, fr10]
          · next hp =>
            have := State.pageFor_ezl hp
            (repeat' split) <;> simp [this, fr1, fr2, fr3, fr4, fr5, fr6, fr7, fr8, fr9, fr10]

theorem State.allocPage_fmt {s : State} {row : Nat} {r : Nat × State} (h : s.allocPage row = some r) : r.2.fmt = s.fmt := by
  have fr1 := @State.dmaFault_frame
  have fr2 := @State.endDma_frame
  have fr3 := @State.event_frame
  have fr4 := @State.failHandle_frame
  have fr5 := @State.hbmRead_frame
  have fr6 := @State.noteRead_frame
  have fr7 := @State.putRecord_frame
  have fr8 := @State.taskRead_frame
  have fr9 := @State.setSilt_frame
  unfold State.allocPage at h; dsimp only at h
  (repeat' split at h) <;> first | (simp [fr1, fr2, fr3, fr4, fr5, fr6, fr7, fr8, fr9] at h; done) | (injection h with h; subst h; simp [fr1, fr2, fr3, fr4, fr5, fr6, fr7, fr8, fr9])

theorem State.pageFor_fmt {s t : State} {h row layer off n : Nat} (e : s.pageFor h row layer off = .inr (n, t)) : t.fmt = s.fmt := by
  have fr1 := @State.dmaFault_frame
  have fr2 := @State.endDma_frame
  have fr3 := @State.event_frame
  have fr4 := @State.failHandle_frame
  have fr5 := @State.hbmRead_frame
  have fr6 := @State.noteRead_frame
  have fr7 := @State.putRecord_frame
  have fr8 := @State.taskRead_frame
  have fr9 := @State.hbmWrite_frame
  unfold State.pageFor at e; dsimp only at e
  (repeat' split at e) <;> first
    | (simp [fr1, fr2, fr3, fr4, fr5, fr6, fr7, fr8, fr9] at e; done)
    | (injection e with e; injection e with e1 e2; subst e2; rfl)
    | (next ha => injection e with e; injection e with e1 e2; subst e2; have := State.allocPage_fmt ha; simpa [fr1, fr2, fr3, fr4, fr5, fr6, fr7, fr8, fr9] using this)

@[simp] theorem siltPut_fmt (d e key value : Nat) (s : State) : (siltPut d e key value s).fmt = s.fmt := by
  have fr1 := @State.dmaFault_frame
  have fr2 := @State.endDma_frame
  have fr3 := @State.event_frame
  have fr4 := @State.failHandle_frame
  have fr5 := @State.hbmRead_frame
  have fr6 := @State.noteRead_frame
  have fr7 := @State.putRecord_frame
  have fr8 := @State.taskRead_frame
  have fr9 := @State.hbmWrite_frame
  have fr10 := @State.setCtx_frame
  unfold siltPut
  split
  · rfl
  · split
    · simp [fr1, fr2, fr3, fr4, fr5, fr6, fr7, fr8, fr9, fr10]
    · split
      · rfl
      · split
        · simp [fr1, fr2, fr3, fr4, fr5, fr6, fr7, fr8, fr9, fr10]
        · dsimp only
          split
          · have e1 : ∀ (t : State) a b c f, (t.endDma a b c f).fmt = t.fmt := by intros; simp [fr1, fr2, fr3, fr4, fr5, fr6, fr7, fr8, fr9, fr10]
            have e2 : ∀ (t : State) a, (t.failHandle a).fmt = t.fmt := by intros; simp [fr1, fr2, fr3, fr4, fr5, fr6, fr7, fr8, fr9, fr10]
            rw [e1, e2]; split <;> simp [fr1, fr2, fr3, fr4, fr5, fr6, fr7, fr8, fr9, fr10]
          · next hp =>
            have := State.pageFor_fmt hp
            (repeat' split) <;> simp [this, fr1, fr2, fr3, fr4, fr5, fr6, fr7, fr8, fr9, fr10]

theorem State.allocPage_arr {s : State} {row : Nat} {r : Nat × State} (h : s.allocPage row = some r) : r.2.arr = s.arr := by
  have fr1 := @State.dmaFault_frame
  have fr2 := @State.endDma_frame
  have fr3 := @State.event_frame
  have fr4 := @State.failHandle_frame
  have fr5 := @State.hbmRead_frame
  have fr6 := @State.noteRead_frame
  have fr7 := @State.putRecord_frame
  have fr8 := @State.taskRead_frame
  have fr9 := @State.setSilt_frame
  unfold State.allocPage at h; dsimp only at h
  (repeat' split at h) <;> first | (simp [fr1, fr2, fr3, fr4, fr5, fr6, fr7, fr8, fr9] at h; done) | (injection h with h; subst h; simp [fr1, fr2, fr3, fr4, fr5, fr6, fr7, fr8, fr9])

theorem State.pageFor_arr {s t : State} {h row layer off n : Nat} (e : s.pageFor h row layer off = .inr (n, t)) : t.arr = s.arr := by
  have fr1 := @State.dmaFault_frame
  have fr2 := @State.endDma_frame
  have fr3 := @State.event_frame
  have fr4 := @State.failHandle_frame
  have fr5 := @State.hbmRead_frame
  have fr6 := @State.noteRead_frame
  have fr7 := @State.putRecord_frame
  have fr8 := @State.taskRead_frame
  have fr9 := @State.hbmWrite_frame
  unfold State.pageFor at e; dsimp only at e
  (repeat' split at e) <;> first
    | (simp [fr1, fr2, fr3, fr4, fr5, fr6, fr7, fr8, fr9] at e; done)
    | (injection e with e; injection e with e1 e2; subst e2; rfl)
    | (next ha => injection e with e; injection e with e1 e2; subst e2; have := State.allocPage_arr ha; simpa [fr1, fr2, fr3, fr4, fr5, fr6, fr7, fr8, fr9] using this)

@[simp] theorem siltPut_arr (d e key value : Nat) (s : State) : (siltPut d e key value s).arr = s.arr := by
  have fr1 := @State.dmaFault_frame
  have fr2 := @State.endDma_frame
  have fr3 := @State.event_frame
  have fr4 := @State.failHandle_frame
  have fr5 := @State.hbmRead_frame
  have fr6 := @State.noteRead_frame
  have fr7 := @State.putRecord_frame
  have fr8 := @State.taskRead_frame
  have fr9 := @State.hbmWrite_frame
  have fr10 := @State.setCtx_frame
  unfold siltPut
  split
  · rfl
  · split
    · simp [fr1, fr2, fr3, fr4, fr5, fr6, fr7, fr8, fr9, fr10]
    · split
      · rfl
      · split
        · simp [fr1, fr2, fr3, fr4, fr5, fr6, fr7, fr8, fr9, fr10]
        · dsimp only
          split
          · have e1 : ∀ (t : State) a b c f, (t.endDma a b c f).arr = t.arr := by intros; simp [fr1, fr2, fr3, fr4, fr5, fr6, fr7, fr8, fr9, fr10]
            have e2 : ∀ (t : State) a, (t.failHandle a).arr = t.arr := by intros; simp [fr1, fr2, fr3, fr4, fr5, fr6, fr7, fr8, fr9, fr10]
            rw [e1, e2]; split <;> simp [fr1, fr2, fr3, fr4, fr5, fr6, fr7, fr8, fr9, fr10]
          · next hp =>
            have := State.pageFor_arr hp
            (repeat' split) <;> simp [this, fr1, fr2, fr3, fr4, fr5, fr6, fr7, fr8, fr9, fr10]

theorem State.allocPage_vec {s : State} {row : Nat} {r : Nat × State} (h : s.allocPage row = some r) : r.2.vec = s.vec := by
  have fr1 := @State.dmaFault_frame
  have fr2 := @State.endDma_frame
  have fr3 := @State.event_frame
  have fr4 := @State.failHandle_frame
  have fr5 := @State.hbmRead_frame
  have fr6 := @State.noteRead_frame
  have fr7 := @State.putRecord_frame
  have fr8 := @State.taskRead_frame
  have fr9 := @State.setSilt_frame
  unfold State.allocPage at h; dsimp only at h
  (repeat' split at h) <;> first | (simp [fr1, fr2, fr3, fr4, fr5, fr6, fr7, fr8, fr9] at h; done) | (injection h with h; subst h; simp [fr1, fr2, fr3, fr4, fr5, fr6, fr7, fr8, fr9])

theorem State.pageFor_vec {s t : State} {h row layer off n : Nat} (e : s.pageFor h row layer off = .inr (n, t)) : t.vec = s.vec := by
  have fr1 := @State.dmaFault_frame
  have fr2 := @State.endDma_frame
  have fr3 := @State.event_frame
  have fr4 := @State.failHandle_frame
  have fr5 := @State.hbmRead_frame
  have fr6 := @State.noteRead_frame
  have fr7 := @State.putRecord_frame
  have fr8 := @State.taskRead_frame
  have fr9 := @State.hbmWrite_frame
  unfold State.pageFor at e; dsimp only at e
  (repeat' split at e) <;> first
    | (simp [fr1, fr2, fr3, fr4, fr5, fr6, fr7, fr8, fr9] at e; done)
    | (injection e with e; injection e with e1 e2; subst e2; rfl)
    | (next ha => injection e with e; injection e with e1 e2; subst e2; have := State.allocPage_vec ha; simpa [fr1, fr2, fr3, fr4, fr5, fr6, fr7, fr8, fr9] using this)

@[simp] theorem siltPut_vec (d e key value : Nat) (s : State) : (siltPut d e key value s).vec = s.vec := by
  have fr1 := @State.dmaFault_frame
  have fr2 := @State.endDma_frame
  have fr3 := @State.event_frame
  have fr4 := @State.failHandle_frame
  have fr5 := @State.hbmRead_frame
  have fr6 := @State.noteRead_frame
  have fr7 := @State.putRecord_frame
  have fr8 := @State.taskRead_frame
  have fr9 := @State.hbmWrite_frame
  have fr10 := @State.setCtx_frame
  unfold siltPut
  split
  · rfl
  · split
    · simp [fr1, fr2, fr3, fr4, fr5, fr6, fr7, fr8, fr9, fr10]
    · split
      · rfl
      · split
        · simp [fr1, fr2, fr3, fr4, fr5, fr6, fr7, fr8, fr9, fr10]
        · dsimp only
          split
          · have e1 : ∀ (t : State) a b c f, (t.endDma a b c f).vec = t.vec := by intros; simp [fr1, fr2, fr3, fr4, fr5, fr6, fr7, fr8, fr9, fr10]
            have e2 : ∀ (t : State) a, (t.failHandle a).vec = t.vec := by intros; simp [fr1, fr2, fr3, fr4, fr5, fr6, fr7, fr8, fr9, fr10]
            rw [e1, e2]; split <;> simp [fr1, fr2, fr3, fr4, fr5, fr6, fr7, fr8, fr9, fr10]
          · next hp =>
            have := State.pageFor_vec hp
            (repeat' split) <;> simp [this, fr1, fr2, fr3, fr4, fr5, fr6, fr7, fr8, fr9, fr10]

theorem State.allocPage_mxe {s : State} {row : Nat} {r : Nat × State} (h : s.allocPage row = some r) : r.2.mxe = s.mxe := by
  have fr1 := @State.dmaFault_frame
  have fr2 := @State.endDma_frame
  have fr3 := @State.event_frame
  have fr4 := @State.failHandle_frame
  have fr5 := @State.hbmRead_frame
  have fr6 := @State.noteRead_frame
  have fr7 := @State.putRecord_frame
  have fr8 := @State.taskRead_frame
  have fr9 := @State.setSilt_frame
  unfold State.allocPage at h; dsimp only at h
  (repeat' split at h) <;> first | (simp [fr1, fr2, fr3, fr4, fr5, fr6, fr7, fr8, fr9] at h; done) | (injection h with h; subst h; simp [fr1, fr2, fr3, fr4, fr5, fr6, fr7, fr8, fr9])

theorem State.pageFor_mxe {s t : State} {h row layer off n : Nat} (e : s.pageFor h row layer off = .inr (n, t)) : t.mxe = s.mxe := by
  have fr1 := @State.dmaFault_frame
  have fr2 := @State.endDma_frame
  have fr3 := @State.event_frame
  have fr4 := @State.failHandle_frame
  have fr5 := @State.hbmRead_frame
  have fr6 := @State.noteRead_frame
  have fr7 := @State.putRecord_frame
  have fr8 := @State.taskRead_frame
  have fr9 := @State.hbmWrite_frame
  unfold State.pageFor at e; dsimp only at e
  (repeat' split at e) <;> first
    | (simp [fr1, fr2, fr3, fr4, fr5, fr6, fr7, fr8, fr9] at e; done)
    | (injection e with e; injection e with e1 e2; subst e2; rfl)
    | (next ha => injection e with e; injection e with e1 e2; subst e2; have := State.allocPage_mxe ha; simpa [fr1, fr2, fr3, fr4, fr5, fr6, fr7, fr8, fr9] using this)

@[simp] theorem siltPut_mxe (d e key value : Nat) (s : State) : (siltPut d e key value s).mxe = s.mxe := by
  have fr1 := @State.dmaFault_frame
  have fr2 := @State.endDma_frame
  have fr3 := @State.event_frame
  have fr4 := @State.failHandle_frame
  have fr5 := @State.hbmRead_frame
  have fr6 := @State.noteRead_frame
  have fr7 := @State.putRecord_frame
  have fr8 := @State.taskRead_frame
  have fr9 := @State.hbmWrite_frame
  have fr10 := @State.setCtx_frame
  unfold siltPut
  split
  · rfl
  · split
    · simp [fr1, fr2, fr3, fr4, fr5, fr6, fr7, fr8, fr9, fr10]
    · split
      · rfl
      · split
        · simp [fr1, fr2, fr3, fr4, fr5, fr6, fr7, fr8, fr9, fr10]
        · dsimp only
          split
          · have e1 : ∀ (t : State) a b c f, (t.endDma a b c f).mxe = t.mxe := by intros; simp [fr1, fr2, fr3, fr4, fr5, fr6, fr7, fr8, fr9, fr10]
            have e2 : ∀ (t : State) a, (t.failHandle a).mxe = t.mxe := by intros; simp [fr1, fr2, fr3, fr4, fr5, fr6, fr7, fr8, fr9, fr10]
            rw [e1, e2]; split <;> simp [fr1, fr2, fr3, fr4, fr5, fr6, fr7, fr8, fr9, fr10]
          · next hp =>
            have := State.pageFor_mxe hp
            (repeat' split) <;> simp [this, fr1, fr2, fr3, fr4, fr5, fr6, fr7, fr8, fr9, fr10]

theorem State.allocPage_upd {s : State} {row : Nat} {r : Nat × State} (h : s.allocPage row = some r) : r.2.upd = s.upd := by
  have fr1 := @State.dmaFault_frame
  have fr2 := @State.endDma_frame
  have fr3 := @State.event_frame
  have fr4 := @State.failHandle_frame
  have fr5 := @State.hbmRead_frame
  have fr6 := @State.noteRead_frame
  have fr7 := @State.putRecord_frame
  have fr8 := @State.taskRead_frame
  have fr9 := @State.setSilt_frame
  unfold State.allocPage at h; dsimp only at h
  (repeat' split at h) <;> first | (simp [fr1, fr2, fr3, fr4, fr5, fr6, fr7, fr8, fr9] at h; done) | (injection h with h; subst h; simp [fr1, fr2, fr3, fr4, fr5, fr6, fr7, fr8, fr9])

theorem State.pageFor_upd {s t : State} {h row layer off n : Nat} (e : s.pageFor h row layer off = .inr (n, t)) : t.upd = s.upd := by
  have fr1 := @State.dmaFault_frame
  have fr2 := @State.endDma_frame
  have fr3 := @State.event_frame
  have fr4 := @State.failHandle_frame
  have fr5 := @State.hbmRead_frame
  have fr6 := @State.noteRead_frame
  have fr7 := @State.putRecord_frame
  have fr8 := @State.taskRead_frame
  have fr9 := @State.hbmWrite_frame
  unfold State.pageFor at e; dsimp only at e
  (repeat' split at e) <;> first
    | (simp [fr1, fr2, fr3, fr4, fr5, fr6, fr7, fr8, fr9] at e; done)
    | (injection e with e; injection e with e1 e2; subst e2; rfl)
    | (next ha => injection e with e; injection e with e1 e2; subst e2; have := State.allocPage_upd ha; simpa [fr1, fr2, fr3, fr4, fr5, fr6, fr7, fr8, fr9] using this)

@[simp] theorem siltPut_upd (d e key value : Nat) (s : State) : (siltPut d e key value s).upd = s.upd := by
  have fr1 := @State.dmaFault_frame
  have fr2 := @State.endDma_frame
  have fr3 := @State.event_frame
  have fr4 := @State.failHandle_frame
  have fr5 := @State.hbmRead_frame
  have fr6 := @State.noteRead_frame
  have fr7 := @State.putRecord_frame
  have fr8 := @State.taskRead_frame
  have fr9 := @State.hbmWrite_frame
  have fr10 := @State.setCtx_frame
  unfold siltPut
  split
  · rfl
  · split
    · simp [fr1, fr2, fr3, fr4, fr5, fr6, fr7, fr8, fr9, fr10]
    · split
      · rfl
      · split
        · simp [fr1, fr2, fr3, fr4, fr5, fr6, fr7, fr8, fr9, fr10]
        · dsimp only
          split
          · have e1 : ∀ (t : State) a b c f, (t.endDma a b c f).upd = t.upd := by intros; simp [fr1, fr2, fr3, fr4, fr5, fr6, fr7, fr8, fr9, fr10]
            have e2 : ∀ (t : State) a, (t.failHandle a).upd = t.upd := by intros; simp [fr1, fr2, fr3, fr4, fr5, fr6, fr7, fr8, fr9, fr10]
            rw [e1, e2]; split <;> simp [fr1, fr2, fr3, fr4, fr5, fr6, fr7, fr8, fr9, fr10]
          · next hp =>
            have := State.pageFor_upd hp
            (repeat' split) <;> simp [this, fr1, fr2, fr3, fr4, fr5, fr6, fr7, fr8, fr9, fr10]

theorem State.allocPage_red {s : State} {row : Nat} {r : Nat × State} (h : s.allocPage row = some r) : r.2.red = s.red := by
  have fr1 := @State.dmaFault_frame
  have fr2 := @State.endDma_frame
  have fr3 := @State.event_frame
  have fr4 := @State.failHandle_frame
  have fr5 := @State.hbmRead_frame
  have fr6 := @State.noteRead_frame
  have fr7 := @State.putRecord_frame
  have fr8 := @State.taskRead_frame
  have fr9 := @State.setSilt_frame
  unfold State.allocPage at h; dsimp only at h
  (repeat' split at h) <;> first | (simp [fr1, fr2, fr3, fr4, fr5, fr6, fr7, fr8, fr9] at h; done) | (injection h with h; subst h; simp [fr1, fr2, fr3, fr4, fr5, fr6, fr7, fr8, fr9])

theorem State.pageFor_red {s t : State} {h row layer off n : Nat} (e : s.pageFor h row layer off = .inr (n, t)) : t.red = s.red := by
  have fr1 := @State.dmaFault_frame
  have fr2 := @State.endDma_frame
  have fr3 := @State.event_frame
  have fr4 := @State.failHandle_frame
  have fr5 := @State.hbmRead_frame
  have fr6 := @State.noteRead_frame
  have fr7 := @State.putRecord_frame
  have fr8 := @State.taskRead_frame
  have fr9 := @State.hbmWrite_frame
  unfold State.pageFor at e; dsimp only at e
  (repeat' split at e) <;> first
    | (simp [fr1, fr2, fr3, fr4, fr5, fr6, fr7, fr8, fr9] at e; done)
    | (injection e with e; injection e with e1 e2; subst e2; rfl)
    | (next ha => injection e with e; injection e with e1 e2; subst e2; have := State.allocPage_red ha; simpa [fr1, fr2, fr3, fr4, fr5, fr6, fr7, fr8, fr9] using this)

@[simp] theorem siltPut_red (d e key value : Nat) (s : State) : (siltPut d e key value s).red = s.red := by
  have fr1 := @State.dmaFault_frame
  have fr2 := @State.endDma_frame
  have fr3 := @State.event_frame
  have fr4 := @State.failHandle_frame
  have fr5 := @State.hbmRead_frame
  have fr6 := @State.noteRead_frame
  have fr7 := @State.putRecord_frame
  have fr8 := @State.taskRead_frame
  have fr9 := @State.hbmWrite_frame
  have fr10 := @State.setCtx_frame
  unfold siltPut
  split
  · rfl
  · split
    · simp [fr1, fr2, fr3, fr4, fr5, fr6, fr7, fr8, fr9, fr10]
    · split
      · rfl
      · split
        · simp [fr1, fr2, fr3, fr4, fr5, fr6, fr7, fr8, fr9, fr10]
        · dsimp only
          split
          · have e1 : ∀ (t : State) a b c f, (t.endDma a b c f).red = t.red := by intros; simp [fr1, fr2, fr3, fr4, fr5, fr6, fr7, fr8, fr9, fr10]
            have e2 : ∀ (t : State) a, (t.failHandle a).red = t.red := by intros; simp [fr1, fr2, fr3, fr4, fr5, fr6, fr7, fr8, fr9, fr10]
            rw [e1, e2]; split <;> simp [fr1, fr2, fr3, fr4, fr5, fr6, fr7, fr8, fr9, fr10]
          · next hp =>
            have := State.pageFor_red hp
            (repeat' split) <;> simp [this, fr1, fr2, fr3, fr4, fr5, fr6, fr7, fr8, fr9, fr10]

theorem State.allocPage_hif {s : State} {row : Nat} {r : Nat × State} (h : s.allocPage row = some r) : r.2.hif = s.hif := by
  have fr1 := @State.dmaFault_frame
  have fr2 := @State.endDma_frame
  have fr3 := @State.event_frame
  have fr4 := @State.failHandle_frame
  have fr5 := @State.hbmRead_frame
  have fr6 := @State.noteRead_frame
  have fr7 := @State.putRecord_frame
  have fr8 := @State.taskRead_frame
  have fr9 := @State.setSilt_frame
  unfold State.allocPage at h; dsimp only at h
  (repeat' split at h) <;> first | (simp [fr1, fr2, fr3, fr4, fr5, fr6, fr7, fr8, fr9] at h; done) | (injection h with h; subst h; simp [fr1, fr2, fr3, fr4, fr5, fr6, fr7, fr8, fr9])

theorem State.pageFor_hif {s t : State} {h row layer off n : Nat} (e : s.pageFor h row layer off = .inr (n, t)) : t.hif = s.hif := by
  have fr1 := @State.dmaFault_frame
  have fr2 := @State.endDma_frame
  have fr3 := @State.event_frame
  have fr4 := @State.failHandle_frame
  have fr5 := @State.hbmRead_frame
  have fr6 := @State.noteRead_frame
  have fr7 := @State.putRecord_frame
  have fr8 := @State.taskRead_frame
  have fr9 := @State.hbmWrite_frame
  unfold State.pageFor at e; dsimp only at e
  (repeat' split at e) <;> first
    | (simp [fr1, fr2, fr3, fr4, fr5, fr6, fr7, fr8, fr9] at e; done)
    | (injection e with e; injection e with e1 e2; subst e2; rfl)
    | (next ha => injection e with e; injection e with e1 e2; subst e2; have := State.allocPage_hif ha; simpa [fr1, fr2, fr3, fr4, fr5, fr6, fr7, fr8, fr9] using this)

@[simp] theorem siltPut_hif (d e key value : Nat) (s : State) : (siltPut d e key value s).hif = s.hif := by
  have fr1 := @State.dmaFault_frame
  have fr2 := @State.endDma_frame
  have fr3 := @State.event_frame
  have fr4 := @State.failHandle_frame
  have fr5 := @State.hbmRead_frame
  have fr6 := @State.noteRead_frame
  have fr7 := @State.putRecord_frame
  have fr8 := @State.taskRead_frame
  have fr9 := @State.hbmWrite_frame
  have fr10 := @State.setCtx_frame
  unfold siltPut
  split
  · rfl
  · split
    · simp [fr1, fr2, fr3, fr4, fr5, fr6, fr7, fr8, fr9, fr10]
    · split
      · rfl
      · split
        · simp [fr1, fr2, fr3, fr4, fr5, fr6, fr7, fr8, fr9, fr10]
        · dsimp only
          split
          · have e1 : ∀ (t : State) a b c f, (t.endDma a b c f).hif = t.hif := by intros; simp [fr1, fr2, fr3, fr4, fr5, fr6, fr7, fr8, fr9, fr10]
            have e2 : ∀ (t : State) a, (t.failHandle a).hif = t.hif := by intros; simp [fr1, fr2, fr3, fr4, fr5, fr6, fr7, fr8, fr9, fr10]
            rw [e1, e2]; split <;> simp [fr1, fr2, fr3, fr4, fr5, fr6, fr7, fr8, fr9, fr10]
          · next hp =>
            have := State.pageFor_hif hp
            (repeat' split) <;> simp [this, fr1, fr2, fr3, fr4, fr5, fr6, fr7, fr8, fr9, fr10]

theorem State.allocPage_img {s : State} {row : Nat} {r : Nat × State} (h : s.allocPage row = some r) : r.2.img = s.img := by
  have fr1 := @State.dmaFault_frame
  have fr2 := @State.endDma_frame
  have fr3 := @State.event_frame
  have fr4 := @State.failHandle_frame
  have fr5 := @State.hbmRead_frame
  have fr6 := @State.noteRead_frame
  have fr7 := @State.putRecord_frame
  have fr8 := @State.taskRead_frame
  have fr9 := @State.setSilt_frame
  unfold State.allocPage at h; dsimp only at h
  (repeat' split at h) <;> first | (simp [fr1, fr2, fr3, fr4, fr5, fr6, fr7, fr8, fr9] at h; done) | (injection h with h; subst h; simp [fr1, fr2, fr3, fr4, fr5, fr6, fr7, fr8, fr9])

theorem State.pageFor_img {s t : State} {h row layer off n : Nat} (e : s.pageFor h row layer off = .inr (n, t)) : t.img = s.img := by
  have fr1 := @State.dmaFault_frame
  have fr2 := @State.endDma_frame
  have fr3 := @State.event_frame
  have fr4 := @State.failHandle_frame
  have fr5 := @State.hbmRead_frame
  have fr6 := @State.noteRead_frame
  have fr7 := @State.putRecord_frame
  have fr8 := @State.taskRead_frame
  have fr9 := @State.hbmWrite_frame
  unfold State.pageFor at e; dsimp only at e
  (repeat' split at e) <;> first
    | (simp [fr1, fr2, fr3, fr4, fr5, fr6, fr7, fr8, fr9] at e; done)
    | (injection e with e; injection e with e1 e2; subst e2; rfl)
    | (next ha => injection e with e; injection e with e1 e2; subst e2; have := State.allocPage_img ha; simpa [fr1, fr2, fr3, fr4, fr5, fr6, fr7, fr8, fr9] using this)

@[simp] theorem siltPut_img (d e key value : Nat) (s : State) : (siltPut d e key value s).img = s.img := by
  have fr1 := @State.dmaFault_frame
  have fr2 := @State.endDma_frame
  have fr3 := @State.event_frame
  have fr4 := @State.failHandle_frame
  have fr5 := @State.hbmRead_frame
  have fr6 := @State.noteRead_frame
  have fr7 := @State.putRecord_frame
  have fr8 := @State.taskRead_frame
  have fr9 := @State.hbmWrite_frame
  have fr10 := @State.setCtx_frame
  unfold siltPut
  split
  · rfl
  · split
    · simp [fr1, fr2, fr3, fr4, fr5, fr6, fr7, fr8, fr9, fr10]
    · split
      · rfl
      · split
        · simp [fr1, fr2, fr3, fr4, fr5, fr6, fr7, fr8, fr9, fr10]
        · dsimp only
          split
          · have e1 : ∀ (t : State) a b c f, (t.endDma a b c f).img = t.img := by intros; simp [fr1, fr2, fr3, fr4, fr5, fr6, fr7, fr8, fr9, fr10]
            have e2 : ∀ (t : State) a, (t.failHandle a).img = t.img := by intros; simp [fr1, fr2, fr3, fr4, fr5, fr6, fr7, fr8, fr9, fr10]
            rw [e1, e2]; split <;> simp [fr1, fr2, fr3, fr4, fr5, fr6, fr7, fr8, fr9, fr10]
          · next hp =>
            have := State.pageFor_img hp
            (repeat' split) <;> simp [this, fr1, fr2, fr3, fr4, fr5, fr6, fr7, fr8, fr9, fr10]

theorem State.allocPage_pwr {s : State} {row : Nat} {r : Nat × State} (h : s.allocPage row = some r) : r.2.pwr = s.pwr := by
  have fr1 := @State.dmaFault_frame
  have fr2 := @State.endDma_frame
  have fr3 := @State.event_frame
  have fr4 := @State.failHandle_frame
  have fr5 := @State.hbmRead_frame
  have fr6 := @State.noteRead_frame
  have fr7 := @State.putRecord_frame
  have fr8 := @State.taskRead_frame
  have fr9 := @State.setSilt_frame
  unfold State.allocPage at h; dsimp only at h
  (repeat' split at h) <;> first | (simp [fr1, fr2, fr3, fr4, fr5, fr6, fr7, fr8, fr9] at h; done) | (injection h with h; subst h; simp [fr1, fr2, fr3, fr4, fr5, fr6, fr7, fr8, fr9])

theorem State.pageFor_pwr {s t : State} {h row layer off n : Nat} (e : s.pageFor h row layer off = .inr (n, t)) : t.pwr = s.pwr := by
  have fr1 := @State.dmaFault_frame
  have fr2 := @State.endDma_frame
  have fr3 := @State.event_frame
  have fr4 := @State.failHandle_frame
  have fr5 := @State.hbmRead_frame
  have fr6 := @State.noteRead_frame
  have fr7 := @State.putRecord_frame
  have fr8 := @State.taskRead_frame
  have fr9 := @State.hbmWrite_frame
  unfold State.pageFor at e; dsimp only at e
  (repeat' split at e) <;> first
    | (simp [fr1, fr2, fr3, fr4, fr5, fr6, fr7, fr8, fr9] at e; done)
    | (injection e with e; injection e with e1 e2; subst e2; rfl)
    | (next ha => injection e with e; injection e with e1 e2; subst e2; have := State.allocPage_pwr ha; simpa [fr1, fr2, fr3, fr4, fr5, fr6, fr7, fr8, fr9] using this)

@[simp] theorem siltPut_pwr (d e key value : Nat) (s : State) : (siltPut d e key value s).pwr = s.pwr := by
  have fr1 := @State.dmaFault_frame
  have fr2 := @State.endDma_frame
  have fr3 := @State.event_frame
  have fr4 := @State.failHandle_frame
  have fr5 := @State.hbmRead_frame
  have fr6 := @State.noteRead_frame
  have fr7 := @State.putRecord_frame
  have fr8 := @State.taskRead_frame
  have fr9 := @State.hbmWrite_frame
  have fr10 := @State.setCtx_frame
  unfold siltPut
  split
  · rfl
  · split
    · simp [fr1, fr2, fr3, fr4, fr5, fr6, fr7, fr8, fr9, fr10]
    · split
      · rfl
      · split
        · simp [fr1, fr2, fr3, fr4, fr5, fr6, fr7, fr8, fr9, fr10]
        · dsimp only
          split
          · have e1 : ∀ (t : State) a b c f, (t.endDma a b c f).pwr = t.pwr := by intros; simp [fr1, fr2, fr3, fr4, fr5, fr6, fr7, fr8, fr9, fr10]
            have e2 : ∀ (t : State) a, (t.failHandle a).pwr = t.pwr := by intros; simp [fr1, fr2, fr3, fr4, fr5, fr6, fr7, fr8, fr9, fr10]
            rw [e1, e2]; split <;> simp [fr1, fr2, fr3, fr4, fr5, fr6, fr7, fr8, fr9, fr10]
          · next hp =>
            have := State.pageFor_pwr hp
            (repeat' split) <;> simp [this, fr1, fr2, fr3, fr4, fr5, fr6, fr7, fr8, fr9, fr10]

theorem State.allocPage_pending {s : State} {row : Nat} {r : Nat × State} (h : s.allocPage row = some r) : r.2.pending = s.pending := by
  have fr1 := @State.dmaFault_frame
  have fr2 := @State.endDma_frame
  have fr3 := @State.event_frame
  have fr4 := @State.failHandle_frame
  have fr5 := @State.hbmRead_frame
  have fr6 := @State.noteRead_frame
  have fr7 := @State.putRecord_frame
  have fr8 := @State.taskRead_frame
  have fr9 := @State.setSilt_frame
  unfold State.allocPage at h; dsimp only at h
  (repeat' split at h) <;> first | (simp [fr1, fr2, fr3, fr4, fr5, fr6, fr7, fr8, fr9] at h; done) | (injection h with h; subst h; simp [fr1, fr2, fr3, fr4, fr5, fr6, fr7, fr8, fr9])

theorem State.pageFor_pending {s t : State} {h row layer off n : Nat} (e : s.pageFor h row layer off = .inr (n, t)) : t.pending = s.pending := by
  have fr1 := @State.dmaFault_frame
  have fr2 := @State.endDma_frame
  have fr3 := @State.event_frame
  have fr4 := @State.failHandle_frame
  have fr5 := @State.hbmRead_frame
  have fr6 := @State.noteRead_frame
  have fr7 := @State.putRecord_frame
  have fr8 := @State.taskRead_frame
  have fr9 := @State.hbmWrite_frame
  unfold State.pageFor at e; dsimp only at e
  (repeat' split at e) <;> first
    | (simp [fr1, fr2, fr3, fr4, fr5, fr6, fr7, fr8, fr9] at e; done)
    | (injection e with e; injection e with e1 e2; subst e2; rfl)
    | (next ha => injection e with e; injection e with e1 e2; subst e2; have := State.allocPage_pending ha; simpa [fr1, fr2, fr3, fr4, fr5, fr6, fr7, fr8, fr9] using this)

@[simp] theorem siltPut_pending (d e key value : Nat) (s : State) : (siltPut d e key value s).pending = s.pending := by
  have fr1 := @State.dmaFault_frame
  have fr2 := @State.endDma_frame
  have fr3 := @State.event_frame
  have fr4 := @State.failHandle_frame
  have fr5 := @State.hbmRead_frame
  have fr6 := @State.noteRead_frame
  have fr7 := @State.putRecord_frame
  have fr8 := @State.taskRead_frame
  have fr9 := @State.hbmWrite_frame
  have fr10 := @State.setCtx_frame
  unfold siltPut
  split
  · rfl
  · split
    · simp [fr1, fr2, fr3, fr4, fr5, fr6, fr7, fr8, fr9, fr10]
    · split
      · rfl
      · split
        · simp [fr1, fr2, fr3, fr4, fr5, fr6, fr7, fr8, fr9, fr10]
        · dsimp only
          split
          · have e1 : ∀ (t : State) a b c f, (t.endDma a b c f).pending = t.pending := by intros; simp [fr1, fr2, fr3, fr4, fr5, fr6, fr7, fr8, fr9, fr10]
            have e2 : ∀ (t : State) a, (t.failHandle a).pending = t.pending := by intros; simp [fr1, fr2, fr3, fr4, fr5, fr6, fr7, fr8, fr9, fr10]
            rw [e1, e2]; split <;> simp [fr1, fr2, fr3, fr4, fr5, fr6, fr7, fr8, fr9, fr10]
          · next hp =>
            have := State.pageFor_pending hp
            (repeat' split) <;> simp [this, fr1, fr2, fr3, fr4, fr5, fr6, fr7, fr8, fr9, fr10]

end Sys2Proof.Machine
end

