-- ==== Sys2Proof/Laws/FrameArrays.lean ====
section
/-! SUPPORT. What the operations and meanings leave as it was: of each, every field of the state that it never changes, continued. -/

set_option linter.unusedSimpArgs false
set_option linter.unusedTactic false
set_option linter.unnecessarySeqFocus false
set_option linter.unreachableTactic false
set_option linter.unusedVariables false

namespace Sys2Proof.Machine

theorem State.freePage_frame (s : State) (h row layer : Nat) :
    (State.freePage s h row layer).pairLo = s.pairLo ∧ (State.freePage s h row layer).pairCap = s.pairCap ∧ (State.freePage s h row layer).out = s.out ∧ (State.freePage s h row layer).free = s.free ∧ (State.freePage s h row layer).policy = s.policy ∧ (State.freePage s h row layer).chk = s.chk ∧ (State.freePage s h row layer).snp = s.snp ∧ (State.freePage s h row layer).irq = s.irq ∧ (State.freePage s h row layer).ezl = s.ezl ∧ (State.freePage s h row layer).stp = s.stp ∧ (State.freePage s h row layer).fmt = s.fmt ∧ (State.freePage s h row layer).arr = s.arr ∧ (State.freePage s h row layer).vec = s.vec ∧ (State.freePage s h row layer).mxe = s.mxe ∧ (State.freePage s h row layer).upd = s.upd ∧ (State.freePage s h row layer).red = s.red ∧ (State.freePage s h row layer).tsk = s.tsk ∧ (State.freePage s h row layer).hif = s.hif ∧ (State.freePage s h row layer).img = s.img ∧ (State.freePage s h row layer).pwr = s.pwr ∧ (State.freePage s h row layer).pending = s.pending := by
  have fr1 := @State.giveSlot_frame
  have fr2 := @State.hbmWrite_frame
  have fr3 := @State.readNotes_frame
  simp [State.freePage, fr1, fr2, fr3]


theorem State.freeRows_frame (s : State) (h a b : Nat) :
    (State.freeRows s h a b).pairLo = s.pairLo ∧ (State.freeRows s h a b).pairCap = s.pairCap ∧ (State.freeRows s h a b).out = s.out ∧ (State.freeRows s h a b).free = s.free ∧ (State.freeRows s h a b).policy = s.policy ∧ (State.freeRows s h a b).chk = s.chk ∧ (State.freeRows s h a b).snp = s.snp ∧ (State.freeRows s h a b).irq = s.irq ∧ (State.freeRows s h a b).ezl = s.ezl ∧ (State.freeRows s h a b).stp = s.stp ∧ (State.freeRows s h a b).fmt = s.fmt ∧ (State.freeRows s h a b).arr = s.arr ∧ (State.freeRows s h a b).vec = s.vec ∧ (State.freeRows s h a b).mxe = s.mxe ∧ (State.freeRows s h a b).upd = s.upd ∧ (State.freeRows s h a b).red = s.red ∧ (State.freeRows s h a b).tsk = s.tsk ∧ (State.freeRows s h a b).hif = s.hif ∧ (State.freeRows s h a b).img = s.img ∧ (State.freeRows s h a b).pwr = s.pwr ∧ (State.freeRows s h a b).pending = s.pending := by
  have fr1 := @State.freePage_frame
  simp [State.freeRows, fr1]


theorem State.closeHandle_frame (s : State) (h : Nat) :
    (State.closeHandle s h).pairLo = s.pairLo ∧ (State.closeHandle s h).pairCap = s.pairCap ∧ (State.closeHandle s h).out = s.out ∧ (State.closeHandle s h).free = s.free ∧ (State.closeHandle s h).policy = s.policy ∧ (State.closeHandle s h).chk = s.chk ∧ (State.closeHandle s h).snp = s.snp ∧ (State.closeHandle s h).irq = s.irq ∧ (State.closeHandle s h).ezl = s.ezl ∧ (State.closeHandle s h).stp = s.stp ∧ (State.closeHandle s h).fmt = s.fmt ∧ (State.closeHandle s h).arr = s.arr ∧ (State.closeHandle s h).vec = s.vec ∧ (State.closeHandle s h).mxe = s.mxe ∧ (State.closeHandle s h).upd = s.upd ∧ (State.closeHandle s h).red = s.red ∧ (State.closeHandle s h).tsk = s.tsk ∧ (State.closeHandle s h).hif = s.hif ∧ (State.closeHandle s h).img = s.img ∧ (State.closeHandle s h).pwr = s.pwr ∧ (State.closeHandle s h).pending = s.pending := by
  have fr1 := @State.freeRows_frame
  have fr2 := @State.hbmWrite_frame
  have fr3 := @State.modMem_frame
  have fr4 := @State.setCtx_frame
  simp [State.closeHandle, fr1, fr2, fr3, fr4]


theorem State.lowerPage_frame (s : State) (h row layer valid : Nat) :
    (State.lowerPage s h row layer valid).pairLo = s.pairLo ∧ (State.lowerPage s h row layer valid).pairCap = s.pairCap ∧ (State.lowerPage s h row layer valid).out = s.out ∧ (State.lowerPage s h row layer valid).free = s.free ∧ (State.lowerPage s h row layer valid).policy = s.policy ∧ (State.lowerPage s h row layer valid).chk = s.chk ∧ (State.lowerPage s h row layer valid).snp = s.snp ∧ (State.lowerPage s h row layer valid).irq = s.irq ∧ (State.lowerPage s h row layer valid).ezl = s.ezl ∧ (State.lowerPage s h row layer valid).stp = s.stp ∧ (State.lowerPage s h row layer valid).fmt = s.fmt ∧ (State.lowerPage s h row layer valid).arr = s.arr ∧ (State.lowerPage s h row layer valid).vec = s.vec ∧ (State.lowerPage s h row layer valid).mxe = s.mxe ∧ (State.lowerPage s h row layer valid).upd = s.upd ∧ (State.lowerPage s h row layer valid).red = s.red ∧ (State.lowerPage s h row layer valid).tsk = s.tsk ∧ (State.lowerPage s h row layer valid).hif = s.hif ∧ (State.lowerPage s h row layer valid).img = s.img ∧ (State.lowerPage s h row layer valid).pwr = s.pwr ∧ (State.lowerPage s h row layer valid).pending = s.pending := by
  have fr1 := @State.hbmWrite_frame
  have fr2 := @State.readNotes_frame
  simp [State.lowerPage, fr1, fr2]


theorem State.truncateHandle_frame (s : State) (h count : Nat) :
    (State.truncateHandle s h count).pairLo = s.pairLo ∧ (State.truncateHandle s h count).pairCap = s.pairCap ∧ (State.truncateHandle s h count).out = s.out ∧ (State.truncateHandle s h count).free = s.free ∧ (State.truncateHandle s h count).policy = s.policy ∧ (State.truncateHandle s h count).chk = s.chk ∧ (State.truncateHandle s h count).snp = s.snp ∧ (State.truncateHandle s h count).irq = s.irq ∧ (State.truncateHandle s h count).ezl = s.ezl ∧ (State.truncateHandle s h count).stp = s.stp ∧ (State.truncateHandle s h count).fmt = s.fmt ∧ (State.truncateHandle s h count).arr = s.arr ∧ (State.truncateHandle s h count).vec = s.vec ∧ (State.truncateHandle s h count).mxe = s.mxe ∧ (State.truncateHandle s h count).upd = s.upd ∧ (State.truncateHandle s h count).red = s.red ∧ (State.truncateHandle s h count).tsk = s.tsk ∧ (State.truncateHandle s h count).hif = s.hif ∧ (State.truncateHandle s h count).img = s.img ∧ (State.truncateHandle s h count).pwr = s.pwr ∧ (State.truncateHandle s h count).pending = s.pending := by
  have fr1 := @State.freeRows_frame
  have fr2 := @State.hbmWrite_frame
  have fr3 := @State.lowerPage_frame
  simp [State.truncateHandle, fr1, fr2, fr3]


theorem State.siltPend_frame (s : State) (h : Nat) (p : SiltPend) :
    (State.siltPend s h p).pairLo = s.pairLo ∧ (State.siltPend s h p).pairCap = s.pairCap ∧ (State.siltPend s h p).out = s.out ∧ (State.siltPend s h p).free = s.free ∧ (State.siltPend s h p).policy = s.policy ∧ (State.siltPend s h p).chk = s.chk ∧ (State.siltPend s h p).snp = s.snp ∧ (State.siltPend s h p).irq = s.irq ∧ (State.siltPend s h p).ezl = s.ezl ∧ (State.siltPend s h p).stp = s.stp ∧ (State.siltPend s h p).fmt = s.fmt ∧ (State.siltPend s h p).arr = s.arr ∧ (State.siltPend s h p).vec = s.vec ∧ (State.siltPend s h p).mxe = s.mxe ∧ (State.siltPend s h p).upd = s.upd ∧ (State.siltPend s h p).red = s.red ∧ (State.siltPend s h p).tsk = s.tsk ∧ (State.siltPend s h p).hif = s.hif ∧ (State.siltPend s h p).img = s.img ∧ (State.siltPend s h p).pwr = s.pwr ∧ (State.siltPend s h p).pending = s.pending := by
  have fr1 := @State.closeHandle_frame
  have fr2 := @State.truncateHandle_frame
  unfold State.siltPend; (repeat' split) <;> simp [fr1, fr2]


theorem State.siltPends_frame (s : State) (h : Nat) :
    (State.siltPends s h).pairLo = s.pairLo ∧ (State.siltPends s h).pairCap = s.pairCap ∧ (State.siltPends s h).out = s.out ∧ (State.siltPends s h).free = s.free ∧ (State.siltPends s h).policy = s.policy ∧ (State.siltPends s h).chk = s.chk ∧ (State.siltPends s h).snp = s.snp ∧ (State.siltPends s h).irq = s.irq ∧ (State.siltPends s h).ezl = s.ezl ∧ (State.siltPends s h).stp = s.stp ∧ (State.siltPends s h).fmt = s.fmt ∧ (State.siltPends s h).arr = s.arr ∧ (State.siltPends s h).vec = s.vec ∧ (State.siltPends s h).mxe = s.mxe ∧ (State.siltPends s h).upd = s.upd ∧ (State.siltPends s h).red = s.red ∧ (State.siltPends s h).tsk = s.tsk ∧ (State.siltPends s h).hif = s.hif ∧ (State.siltPends s h).img = s.img ∧ (State.siltPends s h).pwr = s.pwr ∧ (State.siltPends s h).pending = s.pending := by
  have fr1 := @State.setCtx_frame
  have fr2 := @State.siltPend_frame
  simp [State.siltPends, fr1, fr2]


theorem State.siltLater_frame (s : State) (h : Nat) (p : SiltPend) :
    (State.siltLater s h p).pairLo = s.pairLo ∧ (State.siltLater s h p).pairCap = s.pairCap ∧ (State.siltLater s h p).out = s.out ∧ (State.siltLater s h p).free = s.free ∧ (State.siltLater s h p).policy = s.policy ∧ (State.siltLater s h p).chk = s.chk ∧ (State.siltLater s h p).snp = s.snp ∧ (State.siltLater s h p).irq = s.irq ∧ (State.siltLater s h p).ezl = s.ezl ∧ (State.siltLater s h p).stp = s.stp ∧ (State.siltLater s h p).fmt = s.fmt ∧ (State.siltLater s h p).arr = s.arr ∧ (State.siltLater s h p).vec = s.vec ∧ (State.siltLater s h p).mxe = s.mxe ∧ (State.siltLater s h p).upd = s.upd ∧ (State.siltLater s h p).red = s.red ∧ (State.siltLater s h p).tsk = s.tsk ∧ (State.siltLater s h p).hif = s.hif ∧ (State.siltLater s h p).img = s.img ∧ (State.siltLater s h p).pwr = s.pwr ∧ (State.siltLater s h p).pending = s.pending := by
  have fr1 := @State.setCtx_frame
  have fr2 := @State.siltPend_frame
  simp [State.siltLater, fr1, fr2]


theorem State.openHandle_frame (s : State) (h arg : Nat) :
    (State.openHandle s h arg).regs = s.regs ∧ (State.openHandle s h arg).pairLo = s.pairLo ∧ (State.openHandle s h arg).pairCap = s.pairCap ∧ (State.openHandle s h arg).out = s.out ∧ (State.openHandle s h arg).free = s.free ∧ (State.openHandle s h arg).policy = s.policy ∧ (State.openHandle s h arg).err = s.err ∧ (State.openHandle s h arg).chk = s.chk ∧ (State.openHandle s h arg).snp = s.snp ∧ (State.openHandle s h arg).irq = s.irq ∧ (State.openHandle s h arg).ezl = s.ezl ∧ (State.openHandle s h arg).stp = s.stp ∧ (State.openHandle s h arg).fmt = s.fmt ∧ (State.openHandle s h arg).arr = s.arr ∧ (State.openHandle s h arg).vec = s.vec ∧ (State.openHandle s h arg).mxe = s.mxe ∧ (State.openHandle s h arg).upd = s.upd ∧ (State.openHandle s h arg).red = s.red ∧ (State.openHandle s h arg).tsk = s.tsk ∧ (State.openHandle s h arg).hif = s.hif ∧ (State.openHandle s h arg).img = s.img ∧ (State.openHandle s h arg).pwr = s.pwr ∧ (State.openHandle s h arg).pending = s.pending := by
  have fr1 := @State.hbmWrite_frame
  have fr2 := @State.modMem_frame
  have fr3 := @State.setCtx_frame
  simp [State.openHandle, fr1, fr2, fr3]


theorem State.siltDo_frame (s : State) (cmd h arg : Nat) :
    (State.siltDo s cmd h arg).1.pairLo = s.pairLo ∧ (State.siltDo s cmd h arg).1.pairCap = s.pairCap ∧ (State.siltDo s cmd h arg).1.out = s.out ∧ (State.siltDo s cmd h arg).1.free = s.free ∧ (State.siltDo s cmd h arg).1.policy = s.policy ∧ (State.siltDo s cmd h arg).1.chk = s.chk ∧ (State.siltDo s cmd h arg).1.snp = s.snp ∧ (State.siltDo s cmd h arg).1.irq = s.irq ∧ (State.siltDo s cmd h arg).1.ezl = s.ezl ∧ (State.siltDo s cmd h arg).1.stp = s.stp ∧ (State.siltDo s cmd h arg).1.fmt = s.fmt ∧ (State.siltDo s cmd h arg).1.arr = s.arr ∧ (State.siltDo s cmd h arg).1.vec = s.vec ∧ (State.siltDo s cmd h arg).1.mxe = s.mxe ∧ (State.siltDo s cmd h arg).1.upd = s.upd ∧ (State.siltDo s cmd h arg).1.red = s.red ∧ (State.siltDo s cmd h arg).1.tsk = s.tsk ∧ (State.siltDo s cmd h arg).1.hif = s.hif ∧ (State.siltDo s cmd h arg).1.img = s.img ∧ (State.siltDo s cmd h arg).1.pwr = s.pwr ∧ (State.siltDo s cmd h arg).1.pending = s.pending := by
  have fr1 := @State.hbmWrite_frame
  have fr2 := @State.openHandle_frame
  have fr3 := @State.readNotes_frame
  have fr4 := @State.siltLater_frame
  unfold State.siltDo; dsimp only; (repeat' split) <;> simp [fr1, fr2, fr3, fr4]


theorem siltCmd_frame (cmd : Nat) (src : SiltSrc) (s : State) :
    (siltCmd cmd src s).pairLo = s.pairLo ∧ (siltCmd cmd src s).pairCap = s.pairCap ∧ (siltCmd cmd src s).free = s.free ∧ (siltCmd cmd src s).policy = s.policy ∧ (siltCmd cmd src s).chk = s.chk ∧ (siltCmd cmd src s).snp = s.snp ∧ (siltCmd cmd src s).stp = s.stp ∧ (siltCmd cmd src s).fmt = s.fmt ∧ (siltCmd cmd src s).arr = s.arr ∧ (siltCmd cmd src s).vec = s.vec ∧ (siltCmd cmd src s).mxe = s.mxe ∧ (siltCmd cmd src s).upd = s.upd ∧ (siltCmd cmd src s).red = s.red ∧ (siltCmd cmd src s).img = s.img ∧ (siltCmd cmd src s).pwr = s.pwr ∧ (siltCmd cmd src s).pending = s.pending := by
  have fr1 := @State.completeEntry_frame
  have fr2 := @State.event_frame
  have fr3 := @State.eventLog_frame
  have fr4 := @State.refuseBit_frame
  have fr5 := @State.setEnt_frame
  have fr6 := @State.settle_frame
  have fr7 := @State.siltDo_frame
  have fr8 := @State.refuseWrite_frame
  unfold siltCmd; (repeat' split) <;> simp [fr1, fr2, fr3, fr4, fr5, fr6, fr7, fr8]


theorem State.finToken_frame (s : State) (h : Nat) (failed : Bool) (seq : Nat) :
    (State.finToken s h failed seq).regs = s.regs ∧ (State.finToken s h failed seq).pairLo = s.pairLo ∧ (State.finToken s h failed seq).pairCap = s.pairCap ∧ (State.finToken s h failed seq).out = s.out ∧ (State.finToken s h failed seq).free = s.free ∧ (State.finToken s h failed seq).policy = s.policy ∧ (State.finToken s h failed seq).err = s.err ∧ (State.finToken s h failed seq).chk = s.chk ∧ (State.finToken s h failed seq).snp = s.snp ∧ (State.finToken s h failed seq).irq = s.irq ∧ (State.finToken s h failed seq).ezl = s.ezl ∧ (State.finToken s h failed seq).stp = s.stp ∧ (State.finToken s h failed seq).fmt = s.fmt ∧ (State.finToken s h failed seq).arr = s.arr ∧ (State.finToken s h failed seq).vec = s.vec ∧ (State.finToken s h failed seq).mxe = s.mxe ∧ (State.finToken s h failed seq).upd = s.upd ∧ (State.finToken s h failed seq).red = s.red ∧ (State.finToken s h failed seq).tsk = s.tsk ∧ (State.finToken s h failed seq).mem = s.mem ∧ (State.finToken s h failed seq).img = s.img ∧ (State.finToken s h failed seq).pwr = s.pwr ∧ (State.finToken s h failed seq).pending = s.pending := by
  have fr1 := @State.setEnt_frame
  unfold State.finToken; (repeat' split) <;> simp [fr1]


theorem State.endToken_frame (s : State) (h : Nat) :
    (State.endToken s h).regs = s.regs ∧ (State.endToken s h).pairLo = s.pairLo ∧ (State.endToken s h).pairCap = s.pairCap ∧ (State.endToken s h).out = s.out ∧ (State.endToken s h).free = s.free ∧ (State.endToken s h).policy = s.policy ∧ (State.endToken s h).err = s.err ∧ (State.endToken s h).chk = s.chk ∧ (State.endToken s h).snp = s.snp ∧ (State.endToken s h).irq = s.irq ∧ (State.endToken s h).ezl = s.ezl ∧ (State.endToken s h).stp = s.stp ∧ (State.endToken s h).fmt = s.fmt ∧ (State.endToken s h).arr = s.arr ∧ (State.endToken s h).vec = s.vec ∧ (State.endToken s h).mxe = s.mxe ∧ (State.endToken s h).upd = s.upd ∧ (State.endToken s h).red = s.red ∧ (State.endToken s h).tsk = s.tsk ∧ (State.endToken s h).img = s.img ∧ (State.endToken s h).pwr = s.pwr ∧ (State.endToken s h).pending = s.pending := by
  have fr1 := @State.finToken_frame
  have fr2 := @State.hbmWrite_frame
  have fr3 := @State.setCtx_frame
  simp [State.endToken, fr1, fr2, fr3]


theorem tokenBoundary_frame (h : Nat) (s : State) :
    (tokenBoundary h s).pairLo = s.pairLo ∧ (tokenBoundary h s).pairCap = s.pairCap ∧ (tokenBoundary h s).out = s.out ∧ (tokenBoundary h s).free = s.free ∧ (tokenBoundary h s).chk = s.chk ∧ (tokenBoundary h s).snp = s.snp ∧ (tokenBoundary h s).ezl = s.ezl ∧ (tokenBoundary h s).stp = s.stp ∧ (tokenBoundary h s).fmt = s.fmt ∧ (tokenBoundary h s).vec = s.vec ∧ (tokenBoundary h s).mxe = s.mxe ∧ (tokenBoundary h s).upd = s.upd ∧ (tokenBoundary h s).red = s.red ∧ (tokenBoundary h s).tsk = s.tsk ∧ (tokenBoundary h s).img = s.img ∧ (tokenBoundary h s).pwr = s.pwr ∧ (tokenBoundary h s).pending = s.pending := by
  have fr1 := @State.dutyBound_frame
  have fr2 := @State.dutyCtx_frame
  have fr3 := @State.endToken_frame
  have fr4 := @State.genPoint_frame
  have fr5 := @State.heldPoint_frame
  have fr6 := @State.siltPends_frame
  simp [tokenBoundary, fr1, fr2, fr3, fr4, fr5, fr6]


theorem committedWindowRead_frame (off len : Nat) (s : State) :
    (committedWindowRead off len s).regs = s.regs ∧ (committedWindowRead off len s).pairLo = s.pairLo ∧ (committedWindowRead off len s).pairCap = s.pairCap ∧ (committedWindowRead off len s).free = s.free ∧ (committedWindowRead off len s).policy = s.policy ∧ (committedWindowRead off len s).err = s.err ∧ (committedWindowRead off len s).chk = s.chk ∧ (committedWindowRead off len s).snp = s.snp ∧ (committedWindowRead off len s).irq = s.irq ∧ (committedWindowRead off len s).ezl = s.ezl ∧ (committedWindowRead off len s).stp = s.stp ∧ (committedWindowRead off len s).fmt = s.fmt ∧ (committedWindowRead off len s).arr = s.arr ∧ (committedWindowRead off len s).vec = s.vec ∧ (committedWindowRead off len s).mxe = s.mxe ∧ (committedWindowRead off len s).upd = s.upd ∧ (committedWindowRead off len s).red = s.red ∧ (committedWindowRead off len s).tsk = s.tsk ∧ (committedWindowRead off len s).mem = s.mem ∧ (committedWindowRead off len s).hif = s.hif ∧ (committedWindowRead off len s).img = s.img ∧ (committedWindowRead off len s).pwr = s.pwr ∧ (committedWindowRead off len s).pending = s.pending := by
  have fr1 := @State.emit_frame
  have fr2 := @State.unassignedRead_frame
  simp [committedWindowRead, fr1, fr2]


@[simp] theorem State.writeCopies_regs (s : State) (o : Nat) (bs : List Byte) : (State.writeCopies s o bs).regs = s.regs := by
  induction bs generalizing s o with
  | nil => rfl
  | cons b bs ih => simp only [State.writeCopies, ih]; split <;> rfl

@[simp] theorem State.writeCopies_pairLo (s : State) (o : Nat) (bs : List Byte) : (State.writeCopies s o bs).pairLo = s.pairLo := by
  induction bs generalizing s o with
  | nil => rfl
  | cons b bs ih => simp only [State.writeCopies, ih]; split <;> rfl

@[simp] theorem State.writeCopies_pairCap (s : State) (o : Nat) (bs : List Byte) : (State.writeCopies s o bs).pairCap = s.pairCap := by
  induction bs generalizing s o with
  | nil => rfl
  | cons b bs ih => simp only [State.writeCopies, ih]; split <;> rfl

@[simp] theorem State.writeCopies_out (s : State) (o : Nat) (bs : List Byte) : (State.writeCopies s o bs).out = s.out := by
  induction bs generalizing s o with
  | nil => rfl
  | cons b bs ih => simp only [State.writeCopies, ih]; split <;> rfl

@[simp] theorem State.writeCopies_free (s : State) (o : Nat) (bs : List Byte) : (State.writeCopies s o bs).free = s.free := by
  induction bs generalizing s o with
  | nil => rfl
  | cons b bs ih => simp only [State.writeCopies, ih]; split <;> rfl

@[simp] theorem State.writeCopies_policy (s : State) (o : Nat) (bs : List Byte) : (State.writeCopies s o bs).policy = s.policy := by
  induction bs generalizing s o with
  | nil => rfl
  | cons b bs ih => simp only [State.writeCopies, ih]; split <;> rfl

@[simp] theorem State.writeCopies_err (s : State) (o : Nat) (bs : List Byte) : (State.writeCopies s o bs).err = s.err := by
  induction bs generalizing s o with
  | nil => rfl
  | cons b bs ih => simp only [State.writeCopies, ih]; split <;> rfl

@[simp] theorem State.writeCopies_chk (s : State) (o : Nat) (bs : List Byte) : (State.writeCopies s o bs).chk = s.chk := by
  induction bs generalizing s o with
  | nil => rfl
  | cons b bs ih => simp only [State.writeCopies, ih]; split <;> rfl

@[simp] theorem State.writeCopies_snp (s : State) (o : Nat) (bs : List Byte) : (State.writeCopies s o bs).snp = s.snp := by
  induction bs generalizing s o with
  | nil => rfl
  | cons b bs ih => simp only [State.writeCopies, ih]; split <;> rfl

@[simp] theorem State.writeCopies_irq (s : State) (o : Nat) (bs : List Byte) : (State.writeCopies s o bs).irq = s.irq := by
  induction bs generalizing s o with
  | nil => rfl
  | cons b bs ih => simp only [State.writeCopies, ih]; split <;> rfl

@[simp] theorem State.writeCopies_ezl (s : State) (o : Nat) (bs : List Byte) : (State.writeCopies s o bs).ezl = s.ezl := by
  induction bs generalizing s o with
  | nil => rfl
  | cons b bs ih => simp only [State.writeCopies, ih]; split <;> rfl

@[simp] theorem State.writeCopies_stp (s : State) (o : Nat) (bs : List Byte) : (State.writeCopies s o bs).stp = s.stp := by
  induction bs generalizing s o with
  | nil => rfl
  | cons b bs ih => simp only [State.writeCopies, ih]; split <;> rfl

@[simp] theorem State.writeCopies_fmt (s : State) (o : Nat) (bs : List Byte) : (State.writeCopies s o bs).fmt = s.fmt := by
  induction bs generalizing s o with
  | nil => rfl
  | cons b bs ih => simp only [State.writeCopies, ih]; split <;> rfl

@[simp] theorem State.writeCopies_arr (s : State) (o : Nat) (bs : List Byte) : (State.writeCopies s o bs).arr = s.arr := by
  induction bs generalizing s o with
  | nil => rfl
  | cons b bs ih => simp only [State.writeCopies, ih]; split <;> rfl

@[simp] theorem State.writeCopies_vec (s : State) (o : Nat) (bs : List Byte) : (State.writeCopies s o bs).vec = s.vec := by
  induction bs generalizing s o with
  | nil => rfl
  | cons b bs ih => simp only [State.writeCopies, ih]; split <;> rfl

@[simp] theorem State.writeCopies_mxe (s : State) (o : Nat) (bs : List Byte) : (State.writeCopies s o bs).mxe = s.mxe := by
  induction bs generalizing s o with
  | nil => rfl
  | cons b bs ih => simp only [State.writeCopies, ih]; split <;> rfl

@[simp] theorem State.writeCopies_upd (s : State) (o : Nat) (bs : List Byte) : (State.writeCopies s o bs).upd = s.upd := by
  induction bs generalizing s o with
  | nil => rfl
  | cons b bs ih => simp only [State.writeCopies, ih]; split <;> rfl

@[simp] theorem State.writeCopies_red (s : State) (o : Nat) (bs : List Byte) : (State.writeCopies s o bs).red = s.red := by
  induction bs generalizing s o with
  | nil => rfl
  | cons b bs ih => simp only [State.writeCopies, ih]; split <;> rfl

@[simp] theorem State.writeCopies_tsk (s : State) (o : Nat) (bs : List Byte) : (State.writeCopies s o bs).tsk = s.tsk := by
  induction bs generalizing s o with
  | nil => rfl
  | cons b bs ih => simp only [State.writeCopies, ih]; split <;> rfl

@[simp] theorem State.writeCopies_hif (s : State) (o : Nat) (bs : List Byte) : (State.writeCopies s o bs).hif = s.hif := by
  induction bs generalizing s o with
  | nil => rfl
  | cons b bs ih => simp only [State.writeCopies, ih]; split <;> rfl

@[simp] theorem State.writeCopies_img (s : State) (o : Nat) (bs : List Byte) : (State.writeCopies s o bs).img = s.img := by
  induction bs generalizing s o with
  | nil => rfl
  | cons b bs ih => simp only [State.writeCopies, ih]; split <;> rfl

@[simp] theorem State.writeCopies_pwr (s : State) (o : Nat) (bs : List Byte) : (State.writeCopies s o bs).pwr = s.pwr := by
  induction bs generalizing s o with
  | nil => rfl
  | cons b bs ih => simp only [State.writeCopies, ih]; split <;> rfl

@[simp] theorem State.writeCopies_pending (s : State) (o : Nat) (bs : List Byte) : (State.writeCopies s o bs).pending = s.pending := by
  induction bs generalizing s o with
  | nil => rfl
  | cons b bs ih => simp only [State.writeCopies, ih]; split <;> rfl

theorem State.holdOrWrite_frame (s : State) (o : Nat) (bs : List Byte) :
    (State.holdOrWrite s o bs).regs = s.regs ∧ (State.holdOrWrite s o bs).pairLo = s.pairLo ∧ (State.holdOrWrite s o bs).pairCap = s.pairCap ∧ (State.holdOrWrite s o bs).out = s.out ∧ (State.holdOrWrite s o bs).free = s.free ∧ (State.holdOrWrite s o bs).policy = s.policy ∧ (State.holdOrWrite s o bs).err = s.err ∧ (State.holdOrWrite s o bs).chk = s.chk ∧ (State.holdOrWrite s o bs).snp = s.snp ∧ (State.holdOrWrite s o bs).irq = s.irq ∧ (State.holdOrWrite s o bs).ezl = s.ezl ∧ (State.holdOrWrite s o bs).stp = s.stp ∧ (State.holdOrWrite s o bs).fmt = s.fmt ∧ (State.holdOrWrite s o bs).arr = s.arr ∧ (State.holdOrWrite s o bs).vec = s.vec ∧ (State.holdOrWrite s o bs).mxe = s.mxe ∧ (State.holdOrWrite s o bs).red = s.red ∧ (State.holdOrWrite s o bs).tsk = s.tsk ∧ (State.holdOrWrite s o bs).hif = s.hif ∧ (State.holdOrWrite s o bs).img = s.img ∧ (State.holdOrWrite s o bs).pwr = s.pwr ∧ (State.holdOrWrite s o bs).pending = s.pending := by
  have fr1 := @State.setUpd_frame
  simp only [State.holdOrWrite]; (repeat' split) <;> simp [fr1]


theorem stepRecordRingWrite_frame (off : Nat) (bs : List Byte) (s : State) :
    (stepRecordRingWrite off bs s).pairLo = s.pairLo ∧ (stepRecordRingWrite off bs s).pairCap = s.pairCap ∧ (stepRecordRingWrite off bs s).out = s.out ∧ (stepRecordRingWrite off bs s).free = s.free ∧ (stepRecordRingWrite off bs s).policy = s.policy ∧ (stepRecordRingWrite off bs s).chk = s.chk ∧ (stepRecordRingWrite off bs s).snp = s.snp ∧ (stepRecordRingWrite off bs s).irq = s.irq ∧ (stepRecordRingWrite off bs s).ezl = s.ezl ∧ (stepRecordRingWrite off bs s).stp = s.stp ∧ (stepRecordRingWrite off bs s).fmt = s.fmt ∧ (stepRecordRingWrite off bs s).arr = s.arr ∧ (stepRecordRingWrite off bs s).vec = s.vec ∧ (stepRecordRingWrite off bs s).mxe = s.mxe ∧ (stepRecordRingWrite off bs s).upd = s.upd ∧ (stepRecordRingWrite off bs s).red = s.red ∧ (stepRecordRingWrite off bs s).tsk = s.tsk ∧ (stepRecordRingWrite off bs s).mem = s.mem ∧ (stepRecordRingWrite off bs s).hif = s.hif ∧ (stepRecordRingWrite off bs s).img = s.img ∧ (stepRecordRingWrite off bs s).pwr = s.pwr ∧ (stepRecordRingWrite off bs s).pending = s.pending := by
  have fr1 := @State.log_frame
  have fr2 := @State.unassignedWrite_frame
  simp [stepRecordRingWrite, fr1, fr2]


@[simp] theorem committedWindowWrite_pairLo (off : Nat) (bs : List Byte) (s : State) : (committedWindowWrite off bs s).pairLo = s.pairLo := by
  have fr1 := @State.eventLog_frame
  have fr2 := @State.holdOrWrite_frame
  have fr3 := @State.unassignedWrite_frame
  have fr4 := @stepRecordRingWrite_frame
  have fr5 := @State.setUpd_frame
  unfold committedWindowWrite; dsimp only
  (repeat' split) <;> simp [fr1, fr2, fr3, fr4, fr5]

@[simp] theorem committedWindowWrite_pairCap (off : Nat) (bs : List Byte) (s : State) : (committedWindowWrite off bs s).pairCap = s.pairCap := by
  have fr1 := @State.eventLog_frame
  have fr2 := @State.holdOrWrite_frame
  have fr3 := @State.unassignedWrite_frame
  have fr4 := @stepRecordRingWrite_frame
  have fr5 := @State.setUpd_frame
  unfold committedWindowWrite; dsimp only
  (repeat' split) <;> simp [fr1, fr2, fr3, fr4, fr5]

@[simp] theorem committedWindowWrite_out (off : Nat) (bs : List Byte) (s : State) : (committedWindowWrite off bs s).out = s.out := by
  have fr1 := @State.eventLog_frame
  have fr2 := @State.holdOrWrite_frame
  have fr3 := @State.unassignedWrite_frame
  have fr4 := @stepRecordRingWrite_frame
  have fr5 := @State.setUpd_frame
  unfold committedWindowWrite; dsimp only
  (repeat' split) <;> simp [fr1, fr2, fr3, fr4, fr5]

@[simp] theorem committedWindowWrite_free (off : Nat) (bs : List Byte) (s : State) : (committedWindowWrite off bs s).free = s.free := by
  have fr1 := @State.eventLog_frame
  have fr2 := @State.holdOrWrite_frame
  have fr3 := @State.unassignedWrite_frame
  have fr4 := @stepRecordRingWrite_frame
  have fr5 := @State.setUpd_frame
  unfold committedWindowWrite; dsimp only
  (repeat' split) <;> simp [fr1, fr2, fr3, fr4, fr5]

@[simp] theorem committedWindowWrite_policy (off : Nat) (bs : List Byte) (s : State) : (committedWindowWrite off bs s).policy = s.policy := by
  have fr1 := @State.eventLog_frame
  have fr2 := @State.holdOrWrite_frame
  have fr3 := @State.unassignedWrite_frame
  have fr4 := @stepRecordRingWrite_frame
  have fr5 := @State.setUpd_frame
  unfold committedWindowWrite; dsimp only
  (repeat' split) <;> simp [fr1, fr2, fr3, fr4, fr5]

@[simp] theorem committedWindowWrite_chk (off : Nat) (bs : List Byte) (s : State) : (committedWindowWrite off bs s).chk = s.chk := by
  have fr1 := @State.eventLog_frame
  have fr2 := @State.holdOrWrite_frame
  have fr3 := @State.unassignedWrite_frame
  have fr4 := @stepRecordRingWrite_frame
  have fr5 := @State.setUpd_frame
  unfold committedWindowWrite; dsimp only
  (repeat' split) <;> simp [fr1, fr2, fr3, fr4, fr5]

@[simp] theorem committedWindowWrite_snp (off : Nat) (bs : List Byte) (s : State) : (committedWindowWrite off bs s).snp = s.snp := by
  have fr1 := @State.eventLog_frame
  have fr2 := @State.holdOrWrite_frame
  have fr3 := @State.unassignedWrite_frame
  have fr4 := @stepRecordRingWrite_frame
  have fr5 := @State.setUpd_frame
  unfold committedWindowWrite; dsimp only
  (repeat' split) <;> simp [fr1, fr2, fr3, fr4, fr5]

@[simp] theorem committedWindowWrite_irq (off : Nat) (bs : List Byte) (s : State) : (committedWindowWrite off bs s).irq = s.irq := by
  have fr1 := @State.eventLog_frame
  have fr2 := @State.holdOrWrite_frame
  have fr3 := @State.unassignedWrite_frame
  have fr4 := @stepRecordRingWrite_frame
  have fr5 := @State.setUpd_frame
  unfold committedWindowWrite; dsimp only
  (repeat' split) <;> simp [fr1, fr2, fr3, fr4, fr5]

@[simp] theorem committedWindowWrite_ezl (off : Nat) (bs : List Byte) (s : State) : (committedWindowWrite off bs s).ezl = s.ezl := by
  have fr1 := @State.eventLog_frame
  have fr2 := @State.holdOrWrite_frame
  have fr3 := @State.unassignedWrite_frame
  have fr4 := @stepRecordRingWrite_frame
  have fr5 := @State.setUpd_frame
  unfold committedWindowWrite; dsimp only
  (repeat' split) <;> simp [fr1, fr2, fr3, fr4, fr5]

@[simp] theorem committedWindowWrite_stp (off : Nat) (bs : List Byte) (s : State) : (committedWindowWrite off bs s).stp = s.stp := by
  have fr1 := @State.eventLog_frame
  have fr2 := @State.holdOrWrite_frame
  have fr3 := @State.unassignedWrite_frame
  have fr4 := @stepRecordRingWrite_frame
  have fr5 := @State.setUpd_frame
  unfold committedWindowWrite; dsimp only
  (repeat' split) <;> simp [fr1, fr2, fr3, fr4, fr5]

@[simp] theorem committedWindowWrite_fmt (off : Nat) (bs : List Byte) (s : State) : (committedWindowWrite off bs s).fmt = s.fmt := by
  have fr1 := @State.eventLog_frame
  have fr2 := @State.holdOrWrite_frame
  have fr3 := @State.unassignedWrite_frame
  have fr4 := @stepRecordRingWrite_frame
  have fr5 := @State.setUpd_frame
  unfold committedWindowWrite; dsimp only
  (repeat' split) <;> simp [fr1, fr2, fr3, fr4, fr5]

@[simp] theorem committedWindowWrite_arr (off : Nat) (bs : List Byte) (s : State) : (committedWindowWrite off bs s).arr = s.arr := by
  have fr1 := @State.eventLog_frame
  have fr2 := @State.holdOrWrite_frame
  have fr3 := @State.unassignedWrite_frame
  have fr4 := @stepRecordRingWrite_frame
  have fr5 := @State.setUpd_frame
  unfold committedWindowWrite; dsimp only
  (repeat' split) <;> simp [fr1, fr2, fr3, fr4, fr5]

@[simp] theorem committedWindowWrite_vec (off : Nat) (bs : List Byte) (s : State) : (committedWindowWrite off bs s).vec = s.vec := by
  have fr1 := @State.eventLog_frame
  have fr2 := @State.holdOrWrite_frame
  have fr3 := @State.unassignedWrite_frame
  have fr4 := @stepRecordRingWrite_frame
  have fr5 := @State.setUpd_frame
  unfold committedWindowWrite; dsimp only
  (repeat' split) <;> simp [fr1, fr2, fr3, fr4, fr5]

@[simp] theorem committedWindowWrite_mxe (off : Nat) (bs : List Byte) (s : State) : (committedWindowWrite off bs s).mxe = s.mxe := by
  have fr1 := @State.eventLog_frame
  have fr2 := @State.holdOrWrite_frame
  have fr3 := @State.unassignedWrite_frame
  have fr4 := @stepRecordRingWrite_frame
  have fr5 := @State.setUpd_frame
  unfold committedWindowWrite; dsimp only
  (repeat' split) <;> simp [fr1, fr2, fr3, fr4, fr5]

@[simp] theorem committedWindowWrite_red (off : Nat) (bs : List Byte) (s : State) : (committedWindowWrite off bs s).red = s.red := by
  have fr1 := @State.eventLog_frame
  have fr2 := @State.holdOrWrite_frame
  have fr3 := @State.unassignedWrite_frame
  have fr4 := @stepRecordRingWrite_frame
  have fr5 := @State.setUpd_frame
  unfold committedWindowWrite; dsimp only
  (repeat' split) <;> simp [fr1, fr2, fr3, fr4, fr5]

@[simp] theorem committedWindowWrite_tsk (off : Nat) (bs : List Byte) (s : State) : (committedWindowWrite off bs s).tsk = s.tsk := by
  have fr1 := @State.eventLog_frame
  have fr2 := @State.holdOrWrite_frame
  have fr3 := @State.unassignedWrite_frame
  have fr4 := @stepRecordRingWrite_frame
  have fr5 := @State.setUpd_frame
  unfold committedWindowWrite; dsimp only
  (repeat' split) <;> simp [fr1, fr2, fr3, fr4, fr5]

@[simp] theorem committedWindowWrite_hif (off : Nat) (bs : List Byte) (s : State) : (committedWindowWrite off bs s).hif = s.hif := by
  have fr1 := @State.eventLog_frame
  have fr2 := @State.holdOrWrite_frame
  have fr3 := @State.unassignedWrite_frame
  have fr4 := @stepRecordRingWrite_frame
  have fr5 := @State.setUpd_frame
  unfold committedWindowWrite; dsimp only
  (repeat' split) <;> simp [fr1, fr2, fr3, fr4, fr5]

@[simp] theorem committedWindowWrite_img (off : Nat) (bs : List Byte) (s : State) : (committedWindowWrite off bs s).img = s.img := by
  have fr1 := @State.eventLog_frame
  have fr2 := @State.holdOrWrite_frame
  have fr3 := @State.unassignedWrite_frame
  have fr4 := @stepRecordRingWrite_frame
  have fr5 := @State.setUpd_frame
  unfold committedWindowWrite; dsimp only
  (repeat' split) <;> simp [fr1, fr2, fr3, fr4, fr5]

@[simp] theorem committedWindowWrite_pwr (off : Nat) (bs : List Byte) (s : State) : (committedWindowWrite off bs s).pwr = s.pwr := by
  have fr1 := @State.eventLog_frame
  have fr2 := @State.holdOrWrite_frame
  have fr3 := @State.unassignedWrite_frame
  have fr4 := @stepRecordRingWrite_frame
  have fr5 := @State.setUpd_frame
  unfold committedWindowWrite; dsimp only
  (repeat' split) <;> simp [fr1, fr2, fr3, fr4, fr5]

@[simp] theorem committedWindowWrite_pending (off : Nat) (bs : List Byte) (s : State) : (committedWindowWrite off bs s).pending = s.pending := by
  have fr1 := @State.eventLog_frame
  have fr2 := @State.holdOrWrite_frame
  have fr3 := @State.unassignedWrite_frame
  have fr4 := @stepRecordRingWrite_frame
  have fr5 := @State.setUpd_frame
  unfold committedWindowWrite; dsimp only
  (repeat' split) <;> simp [fr1, fr2, fr3, fr4, fr5]


theorem State.badDoorbell_frame (s : State) (q v : Nat) :
    (State.badDoorbell s q v).pairLo = s.pairLo ∧ (State.badDoorbell s q v).pairCap = s.pairCap ∧ (State.badDoorbell s q v).out = s.out ∧ (State.badDoorbell s q v).free = s.free ∧ (State.badDoorbell s q v).policy = s.policy ∧ (State.badDoorbell s q v).chk = s.chk ∧ (State.badDoorbell s q v).snp = s.snp ∧ (State.badDoorbell s q v).irq = s.irq ∧ (State.badDoorbell s q v).ezl = s.ezl ∧ (State.badDoorbell s q v).stp = s.stp ∧ (State.badDoorbell s q v).fmt = s.fmt ∧ (State.badDoorbell s q v).arr = s.arr ∧ (State.badDoorbell s q v).vec = s.vec ∧ (State.badDoorbell s q v).mxe = s.mxe ∧ (State.badDoorbell s q v).upd = s.upd ∧ (State.badDoorbell s q v).red = s.red ∧ (State.badDoorbell s q v).tsk = s.tsk ∧ (State.badDoorbell s q v).mem = s.mem ∧ (State.badDoorbell s q v).hif = s.hif ∧ (State.badDoorbell s q v).img = s.img ∧ (State.badDoorbell s q v).pwr = s.pwr ∧ (State.badDoorbell s q v).pending = s.pending := by
  have fr1 := @State.event_frame
  have fr2 := @State.hifFault_frame
  simp [State.badDoorbell, fr1, fr2]


theorem sqTailDoorbell_frame (q v : Nat) (s : State) :
    (sqTailDoorbell q v s).pairLo = s.pairLo ∧ (sqTailDoorbell q v s).pairCap = s.pairCap ∧ (sqTailDoorbell q v s).out = s.out ∧ (sqTailDoorbell q v s).free = s.free ∧ (sqTailDoorbell q v s).policy = s.policy ∧ (sqTailDoorbell q v s).chk = s.chk ∧ (sqTailDoorbell q v s).snp = s.snp ∧ (sqTailDoorbell q v s).irq = s.irq ∧ (sqTailDoorbell q v s).ezl = s.ezl ∧ (sqTailDoorbell q v s).stp = s.stp ∧ (sqTailDoorbell q v s).fmt = s.fmt ∧ (sqTailDoorbell q v s).arr = s.arr ∧ (sqTailDoorbell q v s).vec = s.vec ∧ (sqTailDoorbell q v s).mxe = s.mxe ∧ (sqTailDoorbell q v s).upd = s.upd ∧ (sqTailDoorbell q v s).red = s.red ∧ (sqTailDoorbell q v s).tsk = s.tsk ∧ (sqTailDoorbell q v s).mem = s.mem ∧ (sqTailDoorbell q v s).img = s.img ∧ (sqTailDoorbell q v s).pwr = s.pwr ∧ (sqTailDoorbell q v s).pending = s.pending := by
  have fr1 := @State.badDoorbell_frame
  have fr2 := @State.setQueue_frame
  have fr3 := @State.unassignedWrite_frame
  simp [sqTailDoorbell, fr1, fr2, fr3]


theorem cqHeadDoorbell_frame (q v : Nat) (s : State) :
    (cqHeadDoorbell q v s).pairLo = s.pairLo ∧ (cqHeadDoorbell q v s).pairCap = s.pairCap ∧ (cqHeadDoorbell q v s).free = s.free ∧ (cqHeadDoorbell q v s).policy = s.policy ∧ (cqHeadDoorbell q v s).chk = s.chk ∧ (cqHeadDoorbell q v s).snp = s.snp ∧ (cqHeadDoorbell q v s).stp = s.stp ∧ (cqHeadDoorbell q v s).fmt = s.fmt ∧ (cqHeadDoorbell q v s).arr = s.arr ∧ (cqHeadDoorbell q v s).vec = s.vec ∧ (cqHeadDoorbell q v s).mxe = s.mxe ∧ (cqHeadDoorbell q v s).upd = s.upd ∧ (cqHeadDoorbell q v s).red = s.red ∧ (cqHeadDoorbell q v s).mem = s.mem ∧ (cqHeadDoorbell q v s).img = s.img ∧ (cqHeadDoorbell q v s).pwr = s.pwr ∧ (cqHeadDoorbell q v s).pending = s.pending := by
  have fr1 := @State.badDoorbell_frame
  have fr2 := @State.postAll_frame
  have fr3 := @State.setQueue_frame
  have fr4 := @State.settle_frame
  have fr5 := @State.unassignedWrite_frame
  simp [cqHeadDoorbell, fr1, fr2, fr3, fr4, fr5]


theorem sqFetch_frame (bytes : List Byte) (err : Bool) (s : State) :
    (sqFetch bytes err s).pairLo = s.pairLo ∧ (sqFetch bytes err s).pairCap = s.pairCap ∧ (sqFetch bytes err s).free = s.free ∧ (sqFetch bytes err s).policy = s.policy ∧ (sqFetch bytes err s).chk = s.chk ∧ (sqFetch bytes err s).snp = s.snp ∧ (sqFetch bytes err s).stp = s.stp ∧ (sqFetch bytes err s).fmt = s.fmt ∧ (sqFetch bytes err s).arr = s.arr ∧ (sqFetch bytes err s).vec = s.vec ∧ (sqFetch bytes err s).mxe = s.mxe ∧ (sqFetch bytes err s).upd = s.upd ∧ (sqFetch bytes err s).red = s.red ∧ (sqFetch bytes err s).mem = s.mem ∧ (sqFetch bytes err s).img = s.img ∧ (sqFetch bytes err s).pwr = s.pwr ∧ (sqFetch bytes err s).pending = s.pending := by
  have fr1 := @State.hostError_frame
  have fr2 := @State.modHif_frame
  have fr3 := @State.readNotes_frame
  have fr4 := @State.setQueue_frame
  have fr5 := @State.settle_frame
  unfold sqFetch; (repeat' split) <;> simp [fr1, fr2, fr3, fr4, fr5]


theorem State.noteProt_frame (s : State) (q a : Nat) :
    (State.noteProt s q a).pairLo = s.pairLo ∧ (State.noteProt s q a).pairCap = s.pairCap ∧ (State.noteProt s q a).out = s.out ∧ (State.noteProt s q a).free = s.free ∧ (State.noteProt s q a).policy = s.policy ∧ (State.noteProt s q a).chk = s.chk ∧ (State.noteProt s q a).snp = s.snp ∧ (State.noteProt s q a).irq = s.irq ∧ (State.noteProt s q a).ezl = s.ezl ∧ (State.noteProt s q a).stp = s.stp ∧ (State.noteProt s q a).fmt = s.fmt ∧ (State.noteProt s q a).arr = s.arr ∧ (State.noteProt s q a).vec = s.vec ∧ (State.noteProt s q a).mxe = s.mxe ∧ (State.noteProt s q a).upd = s.upd ∧ (State.noteProt s q a).red = s.red ∧ (State.noteProt s q a).tsk = s.tsk ∧ (State.noteProt s q a).mem = s.mem ∧ (State.noteProt s q a).hif = s.hif ∧ (State.noteProt s q a).img = s.img ∧ (State.noteProt s q a).pwr = s.pwr ∧ (State.noteProt s q a).pending = s.pending := by
  have fr1 := @State.event_frame
  have fr2 := @State.hifFault_frame
  simp [State.noteProt, fr1, fr2]


theorem State.sendData_frame (s : State) (dst addr : Nat) (bytes : List Byte) :
    (State.sendData s dst addr bytes).pairLo = s.pairLo ∧ (State.sendData s dst addr bytes).pairCap = s.pairCap ∧ (State.sendData s dst addr bytes).free = s.free ∧ (State.sendData s dst addr bytes).policy = s.policy ∧ (State.sendData s dst addr bytes).err = s.err ∧ (State.sendData s dst addr bytes).chk = s.chk ∧ (State.sendData s dst addr bytes).snp = s.snp ∧ (State.sendData s dst addr bytes).irq = s.irq ∧ (State.sendData s dst addr bytes).stp = s.stp ∧ (State.sendData s dst addr bytes).fmt = s.fmt ∧ (State.sendData s dst addr bytes).arr = s.arr ∧ (State.sendData s dst addr bytes).vec = s.vec ∧ (State.sendData s dst addr bytes).mxe = s.mxe ∧ (State.sendData s dst addr bytes).upd = s.upd ∧ (State.sendData s dst addr bytes).red = s.red ∧ (State.sendData s dst addr bytes).tsk = s.tsk ∧ (State.sendData s dst addr bytes).mem = s.mem ∧ (State.sendData s dst addr bytes).hif = s.hif ∧ (State.sendData s dst addr bytes).img = s.img ∧ (State.sendData s dst addr bytes).pwr = s.pwr ∧ (State.sendData s dst addr bytes).pending = s.pending := by
  have fr1 := @State.sendRouted_frame
  simp [State.sendData, fr1]


theorem State.startData_frame (s : State) (q i eng : Nat) (e : QEnt) (fin : Nat × Nat × Nat × Nat) :
    (State.startData s q i eng e fin).regs = s.regs ∧ (State.startData s q i eng e fin).pairLo = s.pairLo ∧ (State.startData s q i eng e fin).pairCap = s.pairCap ∧ (State.startData s q i eng e fin).out = s.out ∧ (State.startData s q i eng e fin).free = s.free ∧ (State.startData s q i eng e fin).policy = s.policy ∧ (State.startData s q i eng e fin).err = s.err ∧ (State.startData s q i eng e fin).chk = s.chk ∧ (State.startData s q i eng e fin).snp = s.snp ∧ (State.startData s q i eng e fin).irq = s.irq ∧ (State.startData s q i eng e fin).ezl = s.ezl ∧ (State.startData s q i eng e fin).stp = s.stp ∧ (State.startData s q i eng e fin).fmt = s.fmt ∧ (State.startData s q i eng e fin).arr = s.arr ∧ (State.startData s q i eng e fin).vec = s.vec ∧ (State.startData s q i eng e fin).mxe = s.mxe ∧ (State.startData s q i eng e fin).upd = s.upd ∧ (State.startData s q i eng e fin).red = s.red ∧ (State.startData s q i eng e fin).mem = s.mem ∧ (State.startData s q i eng e fin).img = s.img ∧ (State.startData s q i eng e fin).pwr = s.pwr ∧ (State.startData s q i eng e fin).pending = s.pending := by
  have fr1 := @State.modTsk_frame
  have fr2 := @State.setEnt_frame
  simp [State.startData, fr1, fr2]


theorem State.hostStore_frame (s : State) (ok : Nat → Bool) (a : Nat) (bytes : List Byte) :
    (State.hostStore s ok a bytes).pairLo = s.pairLo ∧ (State.hostStore s ok a bytes).pairCap = s.pairCap ∧ (State.hostStore s ok a bytes).out = s.out ∧ (State.hostStore s ok a bytes).free = s.free ∧ (State.hostStore s ok a bytes).policy = s.policy ∧ (State.hostStore s ok a bytes).chk = s.chk ∧ (State.hostStore s ok a bytes).snp = s.snp ∧ (State.hostStore s ok a bytes).irq = s.irq ∧ (State.hostStore s ok a bytes).ezl = s.ezl ∧ (State.hostStore s ok a bytes).stp = s.stp ∧ (State.hostStore s ok a bytes).fmt = s.fmt ∧ (State.hostStore s ok a bytes).arr = s.arr ∧ (State.hostStore s ok a bytes).vec = s.vec ∧ (State.hostStore s ok a bytes).mxe = s.mxe ∧ (State.hostStore s ok a bytes).upd = s.upd ∧ (State.hostStore s ok a bytes).red = s.red ∧ (State.hostStore s ok a bytes).tsk = s.tsk ∧ (State.hostStore s ok a bytes).hif = s.hif ∧ (State.hostStore s ok a bytes).img = s.img ∧ (State.hostStore s ok a bytes).pwr = s.pwr ∧ (State.hostStore s ok a bytes).pending = s.pending := by
  have fr1 := @State.hbmWrite_frame
  have fr2 := @State.hostHbmWrite_frame
  have fr3 := @State.log_frame
  have fr4 := @State.logBadSr_frame
  simp [State.hostStore, fr1, fr2, fr3, fr4]


theorem writeHbm_frame (q : Nat) (data : List Byte) (err : Option Nat) (s : State) :
    (writeHbm q data err s).pairLo = s.pairLo ∧ (writeHbm q data err s).pairCap = s.pairCap ∧ (writeHbm q data err s).free = s.free ∧ (writeHbm q data err s).policy = s.policy ∧ (writeHbm q data err s).chk = s.chk ∧ (writeHbm q data err s).snp = s.snp ∧ (writeHbm q data err s).irq = s.irq ∧ (writeHbm q data err s).stp = s.stp ∧ (writeHbm q data err s).fmt = s.fmt ∧ (writeHbm q data err s).arr = s.arr ∧ (writeHbm q data err s).vec = s.vec ∧ (writeHbm q data err s).mxe = s.mxe ∧ (writeHbm q data err s).upd = s.upd ∧ (writeHbm q data err s).red = s.red ∧ (writeHbm q data err s).img = s.img ∧ (writeHbm q data err s).pwr = s.pwr ∧ (writeHbm q data err s).pending = s.pending := by
  have fr1 := @State.hostError_frame
  have fr2 := @State.hostStore_frame
  have fr3 := @State.noteProt_frame
  have fr4 := @State.sendData_frame
  have fr5 := @State.startData_frame
  have fr6 := @State.hbmWrite_frame
  unfold writeHbm; dsimp only; (repeat' split) <;> simp [fr1, fr2, fr3, fr4, fr5, fr6]


theorem readHbm_frame (q : Nat) (s : State) :
    (readHbm q s).pairLo = s.pairLo ∧ (readHbm q s).pairCap = s.pairCap ∧ (readHbm q s).policy = s.policy ∧ (readHbm q s).chk = s.chk ∧ (readHbm q s).snp = s.snp ∧ (readHbm q s).irq = s.irq ∧ (readHbm q s).stp = s.stp ∧ (readHbm q s).fmt = s.fmt ∧ (readHbm q s).arr = s.arr ∧ (readHbm q s).vec = s.vec ∧ (readHbm q s).mxe = s.mxe ∧ (readHbm q s).upd = s.upd ∧ (readHbm q s).red = s.red ∧ (readHbm q s).mem = s.mem ∧ (readHbm q s).img = s.img ∧ (readHbm q s).pwr = s.pwr ∧ (readHbm q s).pending = s.pending := by
  have fr1 := @State.draw_frame
  have fr2 := @State.emit_frame
  have fr3 := @State.hbmRead_frame
  have fr4 := @State.hostWrite_frame
  have fr5 := @State.noteProt_frame
  have fr6 := @State.sendData_frame
  have fr7 := @State.startData_frame
  unfold readHbm; (repeat' split) <;> simp [fr1, fr2, fr3, fr4, fr5, fr6, fr7]


theorem hostDmaComplete_frame (q i : Nat) (s : State) :
    (hostDmaComplete q i s).pairLo = s.pairLo ∧ (hostDmaComplete q i s).pairCap = s.pairCap ∧ (hostDmaComplete q i s).free = s.free ∧ (hostDmaComplete q i s).policy = s.policy ∧ (hostDmaComplete q i s).chk = s.chk ∧ (hostDmaComplete q i s).snp = s.snp ∧ (hostDmaComplete q i s).stp = s.stp ∧ (hostDmaComplete q i s).fmt = s.fmt ∧ (hostDmaComplete q i s).arr = s.arr ∧ (hostDmaComplete q i s).vec = s.vec ∧ (hostDmaComplete q i s).mxe = s.mxe ∧ (hostDmaComplete q i s).upd = s.upd ∧ (hostDmaComplete q i s).red = s.red ∧ (hostDmaComplete q i s).mem = s.mem ∧ (hostDmaComplete q i s).img = s.img ∧ (hostDmaComplete q i s).pwr = s.pwr ∧ (hostDmaComplete q i s).pending = s.pending := by
  have fr1 := @State.completeEntry_frame
  have fr2 := @State.modTsk_frame
  have fr3 := @State.settle_frame
  unfold hostDmaComplete; (repeat' split) <;> simp [fr1, fr2, fr3]


theorem hostNop_frame (q : Nat) (s : State) :
    (hostNop q s).pairLo = s.pairLo ∧ (hostNop q s).pairCap = s.pairCap ∧ (hostNop q s).free = s.free ∧ (hostNop q s).policy = s.policy ∧ (hostNop q s).chk = s.chk ∧ (hostNop q s).snp = s.snp ∧ (hostNop q s).stp = s.stp ∧ (hostNop q s).fmt = s.fmt ∧ (hostNop q s).arr = s.arr ∧ (hostNop q s).vec = s.vec ∧ (hostNop q s).mxe = s.mxe ∧ (hostNop q s).upd = s.upd ∧ (hostNop q s).red = s.red ∧ (hostNop q s).mem = s.mem ∧ (hostNop q s).img = s.img ∧ (hostNop q s).pwr = s.pwr ∧ (hostNop q s).pending = s.pending := by
  have fr1 := @State.completeEntry_frame
  have fr2 := @State.settle_frame
  unfold hostNop; (repeat' split) <;> simp [fr1, fr2]


theorem signal_frame (q : Nat) (s : State) :
    (signal q s).pairLo = s.pairLo ∧ (signal q s).pairCap = s.pairCap ∧ (signal q s).free = s.free ∧ (signal q s).policy = s.policy ∧ (signal q s).chk = s.chk ∧ (signal q s).snp = s.snp ∧ (signal q s).stp = s.stp ∧ (signal q s).fmt = s.fmt ∧ (signal q s).arr = s.arr ∧ (signal q s).vec = s.vec ∧ (signal q s).mxe = s.mxe ∧ (signal q s).upd = s.upd ∧ (signal q s).red = s.red ∧ (signal q s).mem = s.mem ∧ (signal q s).img = s.img ∧ (signal q s).pwr = s.pwr ∧ (signal q s).pending = s.pending := by
  have fr1 := @State.completeEntry_frame
  have fr2 := @State.entrySignal_frame
  have fr3 := @State.settle_frame
  unfold signal; (repeat' split) <;> simp [fr1, fr2, fr3]


theorem launch_frame (q : Nat) (s : State) :
    (launch q s).pairLo = s.pairLo ∧ (launch q s).pairCap = s.pairCap ∧ (launch q s).out = s.out ∧ (launch q s).free = s.free ∧ (launch q s).policy = s.policy ∧ (launch q s).chk = s.chk ∧ (launch q s).snp = s.snp ∧ (launch q s).irq = s.irq ∧ (launch q s).ezl = s.ezl ∧ (launch q s).stp = s.stp ∧ (launch q s).fmt = s.fmt ∧ (launch q s).arr = s.arr ∧ (launch q s).vec = s.vec ∧ (launch q s).mxe = s.mxe ∧ (launch q s).upd = s.upd ∧ (launch q s).red = s.red ∧ (launch q s).mem = s.mem ∧ (launch q s).img = s.img ∧ (launch q s).pwr = s.pwr ∧ (launch q s).pending = s.pending := by
  have fr1 := @State.addLaunch_frame
  have fr2 := @State.setEnt_frame
  unfold launch; (repeat' split) <;> simp [fr1, fr2]


theorem State.beginToken_frame (s : State) (h : Nat) :
    (State.beginToken s h).pairLo = s.pairLo ∧ (State.beginToken s h).pairCap = s.pairCap ∧ (State.beginToken s h).out = s.out ∧ (State.beginToken s h).free = s.free ∧ (State.beginToken s h).policy = s.policy ∧ (State.beginToken s h).chk = s.chk ∧ (State.beginToken s h).snp = s.snp ∧ (State.beginToken s h).irq = s.irq ∧ (State.beginToken s h).ezl = s.ezl ∧ (State.beginToken s h).stp = s.stp ∧ (State.beginToken s h).fmt = s.fmt ∧ (State.beginToken s h).arr = s.arr ∧ (State.beginToken s h).vec = s.vec ∧ (State.beginToken s h).mxe = s.mxe ∧ (State.beginToken s h).upd = s.upd ∧ (State.beginToken s h).red = s.red ∧ (State.beginToken s h).tsk = s.tsk ∧ (State.beginToken s h).hif = s.hif ∧ (State.beginToken s h).img = s.img ∧ (State.beginToken s h).pwr = s.pwr ∧ (State.beginToken s h).pending = s.pending := by
  have fr1 := @State.logHostExp_frame
  have fr2 := @State.setCtx_frame
  simp [State.beginToken, fr1, fr2]


theorem gen_frame (q : Nat) (s : State) :
    (gen q s).pairLo = s.pairLo ∧ (gen q s).pairCap = s.pairCap ∧ (gen q s).out = s.out ∧ (gen q s).free = s.free ∧ (gen q s).chk = s.chk ∧ (gen q s).snp = s.snp ∧ (gen q s).irq = s.irq ∧ (gen q s).ezl = s.ezl ∧ (gen q s).stp = s.stp ∧ (gen q s).fmt = s.fmt ∧ (gen q s).vec = s.vec ∧ (gen q s).mxe = s.mxe ∧ (gen q s).upd = s.upd ∧ (gen q s).red = s.red ∧ (gen q s).img = s.img ∧ (gen q s).pwr = s.pwr ∧ (gen q s).pending = s.pending := by
  have fr1 := @State.addLaunch_frame
  have fr2 := @State.beginToken_frame
  have fr3 := @State.dutyCtx_frame
  have fr4 := @State.genPoint_frame
  have fr5 := @State.hbmWrite_frame
  have fr6 := @State.setEnt_frame
  unfold gen; (repeat' split) <;> simp [fr1, fr2, fr3, fr4, fr5, fr6]


theorem genResultCopy_frame (q i : Nat) (s : State) :
    (genResultCopy q i s).pairLo = s.pairLo ∧ (genResultCopy q i s).pairCap = s.pairCap ∧ (genResultCopy q i s).free = s.free ∧ (genResultCopy q i s).policy = s.policy ∧ (genResultCopy q i s).chk = s.chk ∧ (genResultCopy q i s).snp = s.snp ∧ (genResultCopy q i s).stp = s.stp ∧ (genResultCopy q i s).fmt = s.fmt ∧ (genResultCopy q i s).arr = s.arr ∧ (genResultCopy q i s).vec = s.vec ∧ (genResultCopy q i s).mxe = s.mxe ∧ (genResultCopy q i s).upd = s.upd ∧ (genResultCopy q i s).red = s.red ∧ (genResultCopy q i s).mem = s.mem ∧ (genResultCopy q i s).img = s.img ∧ (genResultCopy q i s).pwr = s.pwr ∧ (genResultCopy q i s).pending = s.pending := by
  have fr1 := @State.completeEntry_frame
  have fr2 := @State.emit_frame
  have fr3 := @State.hbmRead_frame
  have fr4 := @State.hostWrite_frame
  have fr5 := @State.sendData_frame
  have fr6 := @State.settle_frame
  unfold genResultCopy; (repeat' split) <;> simp [fr1, fr2, fr3, fr4, fr5, fr6]


theorem State.giveUp_frame (s : State) (q : Nat) :
    (State.giveUp s q).pairLo = s.pairLo ∧ (State.giveUp s q).pairCap = s.pairCap ∧ (State.giveUp s q).free = s.free ∧ (State.giveUp s q).policy = s.policy ∧ (State.giveUp s q).chk = s.chk ∧ (State.giveUp s q).snp = s.snp ∧ (State.giveUp s q).stp = s.stp ∧ (State.giveUp s q).fmt = s.fmt ∧ (State.giveUp s q).arr = s.arr ∧ (State.giveUp s q).vec = s.vec ∧ (State.giveUp s q).mxe = s.mxe ∧ (State.giveUp s q).upd = s.upd ∧ (State.giveUp s q).red = s.red ∧ (State.giveUp s q).mem = s.mem ∧ (State.giveUp s q).img = s.img ∧ (State.giveUp s q).pwr = s.pwr ∧ (State.giveUp s q).pending = s.pending := by
  have fr1 := @State.disableQueue_frame
  have fr2 := @State.event_frame
  simp [State.giveUp, fr1, fr2]


theorem cqStall_frame (q : Nat) (s : State) :
    (cqStall q s).pairLo = s.pairLo ∧ (cqStall q s).pairCap = s.pairCap ∧ (cqStall q s).free = s.free ∧ (cqStall q s).policy = s.policy ∧ (cqStall q s).chk = s.chk ∧ (cqStall q s).snp = s.snp ∧ (cqStall q s).stp = s.stp ∧ (cqStall q s).fmt = s.fmt ∧ (cqStall q s).arr = s.arr ∧ (cqStall q s).vec = s.vec ∧ (cqStall q s).mxe = s.mxe ∧ (cqStall q s).upd = s.upd ∧ (cqStall q s).red = s.red ∧ (cqStall q s).mem = s.mem ∧ (cqStall q s).img = s.img ∧ (cqStall q s).pwr = s.pwr ∧ (cqStall q s).pending = s.pending := by
  have fr1 := @State.event_frame
  have fr2 := @State.giveUp_frame
  have fr3 := @State.hifFault_frame
  simp [cqStall, fr1, fr2, fr3]


theorem hostErrorLimit_frame (q : Nat) (s : State) :
    (hostErrorLimit q s).pairLo = s.pairLo ∧ (hostErrorLimit q s).pairCap = s.pairCap ∧ (hostErrorLimit q s).free = s.free ∧ (hostErrorLimit q s).policy = s.policy ∧ (hostErrorLimit q s).chk = s.chk ∧ (hostErrorLimit q s).snp = s.snp ∧ (hostErrorLimit q s).stp = s.stp ∧ (hostErrorLimit q s).fmt = s.fmt ∧ (hostErrorLimit q s).arr = s.arr ∧ (hostErrorLimit q s).vec = s.vec ∧ (hostErrorLimit q s).mxe = s.mxe ∧ (hostErrorLimit q s).upd = s.upd ∧ (hostErrorLimit q s).red = s.red ∧ (hostErrorLimit q s).mem = s.mem ∧ (hostErrorLimit q s).img = s.img ∧ (hostErrorLimit q s).pwr = s.pwr ∧ (hostErrorLimit q s).pending = s.pending := by
  have fr1 := @State.giveUp_frame
  have fr2 := @State.hifFault_frame
  simp [hostErrorLimit, fr1, fr2]


theorem State.badConfig_frame (s : State) (rq : Requester) (q off : Nat) (v : Word) :
    (State.badConfig s rq q off v).pairLo = s.pairLo ∧ (State.badConfig s rq q off v).pairCap = s.pairCap ∧ (State.badConfig s rq q off v).out = s.out ∧ (State.badConfig s rq q off v).free = s.free ∧ (State.badConfig s rq q off v).policy = s.policy ∧ (State.badConfig s rq q off v).chk = s.chk ∧ (State.badConfig s rq q off v).snp = s.snp ∧ (State.badConfig s rq q off v).irq = s.irq ∧ (State.badConfig s rq q off v).ezl = s.ezl ∧ (State.badConfig s rq q off v).stp = s.stp ∧ (State.badConfig s rq q off v).fmt = s.fmt ∧ (State.badConfig s rq q off v).arr = s.arr ∧ (State.badConfig s rq q off v).vec = s.vec ∧ (State.badConfig s rq q off v).mxe = s.mxe ∧ (State.badConfig s rq q off v).upd = s.upd ∧ (State.badConfig s rq q off v).red = s.red ∧ (State.badConfig s rq q off v).tsk = s.tsk ∧ (State.badConfig s rq q off v).mem = s.mem ∧ (State.badConfig s rq q off v).hif = s.hif ∧ (State.badConfig s rq q off v).img = s.img ∧ (State.badConfig s rq q off v).pwr = s.pwr ∧ (State.badConfig s rq q off v).pending = s.pending := by
  have fr1 := @State.refuseWrite_frame
  have fr2 := @State.setReg_frame
  simp [State.badConfig, fr1, fr2]


theorem qCfgWrite_frame (rq : Requester) (v : Word) (s : State) :
    (qCfgWrite rq v s).pairLo = s.pairLo ∧ (qCfgWrite rq v s).pairCap = s.pairCap ∧ (qCfgWrite rq v s).free = s.free ∧ (qCfgWrite rq v s).policy = s.policy ∧ (qCfgWrite rq v s).chk = s.chk ∧ (qCfgWrite rq v s).snp = s.snp ∧ (qCfgWrite rq v s).stp = s.stp ∧ (qCfgWrite rq v s).fmt = s.fmt ∧ (qCfgWrite rq v s).arr = s.arr ∧ (qCfgWrite rq v s).vec = s.vec ∧ (qCfgWrite rq v s).mxe = s.mxe ∧ (qCfgWrite rq v s).upd = s.upd ∧ (qCfgWrite rq v s).red = s.red ∧ (qCfgWrite rq v s).mem = s.mem ∧ (qCfgWrite rq v s).img = s.img ∧ (qCfgWrite rq v s).pwr = s.pwr ∧ (qCfgWrite rq v s).pending = s.pending := by
  have fr1 := @State.badConfig_frame
  have fr2 := @State.disableQueue_frame
  have fr3 := @State.refuseWrite_frame
  have fr4 := @State.setQueue_frame
  simp [qCfgWrite, fr1, fr2, fr3, fr4]


theorem msixUnmask_frame (v : Nat) (s : State) :
    (msixUnmask v s).pairLo = s.pairLo ∧ (msixUnmask v s).pairCap = s.pairCap ∧ (msixUnmask v s).free = s.free ∧ (msixUnmask v s).policy = s.policy ∧ (msixUnmask v s).err = s.err ∧ (msixUnmask v s).chk = s.chk ∧ (msixUnmask v s).snp = s.snp ∧ (msixUnmask v s).stp = s.stp ∧ (msixUnmask v s).fmt = s.fmt ∧ (msixUnmask v s).arr = s.arr ∧ (msixUnmask v s).vec = s.vec ∧ (msixUnmask v s).mxe = s.mxe ∧ (msixUnmask v s).upd = s.upd ∧ (msixUnmask v s).red = s.red ∧ (msixUnmask v s).tsk = s.tsk ∧ (msixUnmask v s).mem = s.mem ∧ (msixUnmask v s).hif = s.hif ∧ (msixUnmask v s).img = s.img ∧ (msixUnmask v s).pwr = s.pwr ∧ (msixUnmask v s).pending = s.pending := by
  have fr1 := @State.msixSend_frame
  have fr2 := @State.setRegB_frame
  simp [msixUnmask, fr1, fr2]


theorem State.sendHeld_frame (s : State) (d : Nat) :
    (State.sendHeld s d).pairLo = s.pairLo ∧ (State.sendHeld s d).pairCap = s.pairCap ∧ (State.sendHeld s d).free = s.free ∧ (State.sendHeld s d).policy = s.policy ∧ (State.sendHeld s d).err = s.err ∧ (State.sendHeld s d).chk = s.chk ∧ (State.sendHeld s d).snp = s.snp ∧ (State.sendHeld s d).stp = s.stp ∧ (State.sendHeld s d).fmt = s.fmt ∧ (State.sendHeld s d).arr = s.arr ∧ (State.sendHeld s d).vec = s.vec ∧ (State.sendHeld s d).mxe = s.mxe ∧ (State.sendHeld s d).upd = s.upd ∧ (State.sendHeld s d).red = s.red ∧ (State.sendHeld s d).tsk = s.tsk ∧ (State.sendHeld s d).mem = s.mem ∧ (State.sendHeld s d).hif = s.hif ∧ (State.sendHeld s d).img = s.img ∧ (State.sendHeld s d).pwr = s.pwr ∧ (State.sendHeld s d).pending = s.pending := by
  have fr1 := @State.msixSend_frame
  have fr2 := @State.setRegB_frame
  simp [State.sendHeld, fr1, fr2]


theorem State.emitUnits_frame (s : State) (us : List Nat) (a : Nat) (bs : List Byte) :
    (State.emitUnits s us a bs).regs = s.regs ∧ (State.emitUnits s us a bs).pairLo = s.pairLo ∧ (State.emitUnits s us a bs).pairCap = s.pairCap ∧ (State.emitUnits s us a bs).free = s.free ∧ (State.emitUnits s us a bs).policy = s.policy ∧ (State.emitUnits s us a bs).err = s.err ∧ (State.emitUnits s us a bs).chk = s.chk ∧ (State.emitUnits s us a bs).snp = s.snp ∧ (State.emitUnits s us a bs).irq = s.irq ∧ (State.emitUnits s us a bs).ezl = s.ezl ∧ (State.emitUnits s us a bs).stp = s.stp ∧ (State.emitUnits s us a bs).fmt = s.fmt ∧ (State.emitUnits s us a bs).arr = s.arr ∧ (State.emitUnits s us a bs).vec = s.vec ∧ (State.emitUnits s us a bs).mxe = s.mxe ∧ (State.emitUnits s us a bs).upd = s.upd ∧ (State.emitUnits s us a bs).red = s.red ∧ (State.emitUnits s us a bs).tsk = s.tsk ∧ (State.emitUnits s us a bs).mem = s.mem ∧ (State.emitUnits s us a bs).hif = s.hif ∧ (State.emitUnits s us a bs).img = s.img ∧ (State.emitUnits s us a bs).pwr = s.pwr ∧ (State.emitUnits s us a bs).pending = s.pending := by
  have fr1 := @State.emit_frame
  simp [State.emitUnits, fr1]


theorem State.noteHostRead_frame (s : State) (a n : Nat) :
    (State.noteHostRead s a n).pairLo = s.pairLo ∧ (State.noteHostRead s a n).pairCap = s.pairCap ∧ (State.noteHostRead s a n).out = s.out ∧ (State.noteHostRead s a n).free = s.free ∧ (State.noteHostRead s a n).policy = s.policy ∧ (State.noteHostRead s a n).chk = s.chk ∧ (State.noteHostRead s a n).snp = s.snp ∧ (State.noteHostRead s a n).irq = s.irq ∧ (State.noteHostRead s a n).ezl = s.ezl ∧ (State.noteHostRead s a n).stp = s.stp ∧ (State.noteHostRead s a n).fmt = s.fmt ∧ (State.noteHostRead s a n).arr = s.arr ∧ (State.noteHostRead s a n).vec = s.vec ∧ (State.noteHostRead s a n).mxe = s.mxe ∧ (State.noteHostRead s a n).upd = s.upd ∧ (State.noteHostRead s a n).red = s.red ∧ (State.noteHostRead s a n).tsk = s.tsk ∧ (State.noteHostRead s a n).mem = s.mem ∧ (State.noteHostRead s a n).hif = s.hif ∧ (State.noteHostRead s a n).img = s.img ∧ (State.noteHostRead s a n).pwr = s.pwr ∧ (State.noteHostRead s a n).pending = s.pending := by
  have fr1 := @State.ceNotes_frame
  have fr2 := @State.noteProt_frame
  have fr3 := @State.ueNotes_frame
  simp [State.noteHostRead, fr1, fr2, fr3]


theorem State.hostRead_frame (s : State) (a len : Nat) :
    (State.hostRead s a len).pairLo = s.pairLo ∧ (State.hostRead s a len).pairCap = s.pairCap ∧ (State.hostRead s a len).free = s.free ∧ (State.hostRead s a len).policy = s.policy ∧ (State.hostRead s a len).chk = s.chk ∧ (State.hostRead s a len).snp = s.snp ∧ (State.hostRead s a len).irq = s.irq ∧ (State.hostRead s a len).ezl = s.ezl ∧ (State.hostRead s a len).stp = s.stp ∧ (State.hostRead s a len).fmt = s.fmt ∧ (State.hostRead s a len).arr = s.arr ∧ (State.hostRead s a len).vec = s.vec ∧ (State.hostRead s a len).mxe = s.mxe ∧ (State.hostRead s a len).upd = s.upd ∧ (State.hostRead s a len).red = s.red ∧ (State.hostRead s a len).tsk = s.tsk ∧ (State.hostRead s a len).mem = s.mem ∧ (State.hostRead s a len).hif = s.hif ∧ (State.hostRead s a len).img = s.img ∧ (State.hostRead s a len).pwr = s.pwr ∧ (State.hostRead s a len).pending = s.pending := by
  have fr1 := @State.emit_frame
  have fr2 := @State.emitUnits_frame
  have fr3 := @State.event_frame
  have fr4 := @State.noteHostRead_frame
  simp [State.hostRead, fr1, fr2, fr3, fr4]


theorem apertureRead_frame (off len : Nat) (s : State) :
    (apertureRead off len s).pairLo = s.pairLo ∧ (apertureRead off len s).pairCap = s.pairCap ∧ (apertureRead off len s).free = s.free ∧ (apertureRead off len s).policy = s.policy ∧ (apertureRead off len s).chk = s.chk ∧ (apertureRead off len s).snp = s.snp ∧ (apertureRead off len s).irq = s.irq ∧ (apertureRead off len s).ezl = s.ezl ∧ (apertureRead off len s).stp = s.stp ∧ (apertureRead off len s).fmt = s.fmt ∧ (apertureRead off len s).arr = s.arr ∧ (apertureRead off len s).vec = s.vec ∧ (apertureRead off len s).mxe = s.mxe ∧ (apertureRead off len s).upd = s.upd ∧ (apertureRead off len s).red = s.red ∧ (apertureRead off len s).tsk = s.tsk ∧ (apertureRead off len s).mem = s.mem ∧ (apertureRead off len s).hif = s.hif ∧ (apertureRead off len s).img = s.img ∧ (apertureRead off len s).pwr = s.pwr ∧ (apertureRead off len s).pending = s.pending := by
  have fr1 := @State.hostRead_frame
  have fr2 := @State.unassignedRead_frame
  unfold apertureRead; (repeat' split) <;> simp [fr1, fr2]


theorem State.hostPut_frame (s : State) (a : Nat) (bytes : List Byte) :
    (State.hostPut s a bytes).pairLo = s.pairLo ∧ (State.hostPut s a bytes).pairCap = s.pairCap ∧ (State.hostPut s a bytes).out = s.out ∧ (State.hostPut s a bytes).free = s.free ∧ (State.hostPut s a bytes).policy = s.policy ∧ (State.hostPut s a bytes).chk = s.chk ∧ (State.hostPut s a bytes).snp = s.snp ∧ (State.hostPut s a bytes).irq = s.irq ∧ (State.hostPut s a bytes).ezl = s.ezl ∧ (State.hostPut s a bytes).stp = s.stp ∧ (State.hostPut s a bytes).fmt = s.fmt ∧ (State.hostPut s a bytes).arr = s.arr ∧ (State.hostPut s a bytes).vec = s.vec ∧ (State.hostPut s a bytes).mxe = s.mxe ∧ (State.hostPut s a bytes).upd = s.upd ∧ (State.hostPut s a bytes).red = s.red ∧ (State.hostPut s a bytes).tsk = s.tsk ∧ (State.hostPut s a bytes).hif = s.hif ∧ (State.hostPut s a bytes).img = s.img ∧ (State.hostPut s a bytes).pwr = s.pwr ∧ (State.hostPut s a bytes).pending = s.pending := by
  have fr1 := @State.hostStore_frame
  have fr2 := @State.noteProt_frame
  simp [State.hostPut, fr1, fr2]


theorem State.hostTake_frame (s : State) (a n : Nat) :
    (State.hostTake s a n).2.pairLo = s.pairLo ∧ (State.hostTake s a n).2.pairCap = s.pairCap ∧ (State.hostTake s a n).2.out = s.out ∧ (State.hostTake s a n).2.free = s.free ∧ (State.hostTake s a n).2.policy = s.policy ∧ (State.hostTake s a n).2.chk = s.chk ∧ (State.hostTake s a n).2.snp = s.snp ∧ (State.hostTake s a n).2.irq = s.irq ∧ (State.hostTake s a n).2.ezl = s.ezl ∧ (State.hostTake s a n).2.stp = s.stp ∧ (State.hostTake s a n).2.fmt = s.fmt ∧ (State.hostTake s a n).2.arr = s.arr ∧ (State.hostTake s a n).2.vec = s.vec ∧ (State.hostTake s a n).2.mxe = s.mxe ∧ (State.hostTake s a n).2.upd = s.upd ∧ (State.hostTake s a n).2.red = s.red ∧ (State.hostTake s a n).2.tsk = s.tsk ∧ (State.hostTake s a n).2.mem = s.mem ∧ (State.hostTake s a n).2.hif = s.hif ∧ (State.hostTake s a n).2.img = s.img ∧ (State.hostTake s a n).2.pwr = s.pwr ∧ (State.hostTake s a n).2.pending = s.pending := by
  have fr1 := @State.noteHostRead_frame
  unfold State.hostTake; (repeat' split) <;> simp [fr1]


theorem apertureWrite_frame (off : Nat) (bytes : List Byte) (s : State) :
    (apertureWrite off bytes s).pairLo = s.pairLo ∧ (apertureWrite off bytes s).pairCap = s.pairCap ∧ (apertureWrite off bytes s).out = s.out ∧ (apertureWrite off bytes s).free = s.free ∧ (apertureWrite off bytes s).policy = s.policy ∧ (apertureWrite off bytes s).chk = s.chk ∧ (apertureWrite off bytes s).snp = s.snp ∧ (apertureWrite off bytes s).irq = s.irq ∧ (apertureWrite off bytes s).ezl = s.ezl ∧ (apertureWrite off bytes s).stp = s.stp ∧ (apertureWrite off bytes s).fmt = s.fmt ∧ (apertureWrite off bytes s).arr = s.arr ∧ (apertureWrite off bytes s).vec = s.vec ∧ (apertureWrite off bytes s).mxe = s.mxe ∧ (apertureWrite off bytes s).upd = s.upd ∧ (apertureWrite off bytes s).red = s.red ∧ (apertureWrite off bytes s).tsk = s.tsk ∧ (apertureWrite off bytes s).hif = s.hif ∧ (apertureWrite off bytes s).img = s.img ∧ (apertureWrite off bytes s).pwr = s.pwr ∧ (apertureWrite off bytes s).pending = s.pending := by
  have fr1 := @State.hostPut_frame
  have fr2 := @State.unassignedWrite_frame
  have fr3 := @State.hostStore_frame
  have fr4 := @State.noteProt_frame
  unfold apertureWrite; (repeat' split) <;> simp [fr1, fr2, fr3, fr4]


theorem State.noteBad_frame (s : State) (off : Nat) :
    (State.noteBad s off).pairLo = s.pairLo ∧ (State.noteBad s off).pairCap = s.pairCap ∧ (State.noteBad s off).out = s.out ∧ (State.noteBad s off).free = s.free ∧ (State.noteBad s off).policy = s.policy ∧ (State.noteBad s off).chk = s.chk ∧ (State.noteBad s off).snp = s.snp ∧ (State.noteBad s off).irq = s.irq ∧ (State.noteBad s off).ezl = s.ezl ∧ (State.noteBad s off).stp = s.stp ∧ (State.noteBad s off).fmt = s.fmt ∧ (State.noteBad s off).arr = s.arr ∧ (State.noteBad s off).vec = s.vec ∧ (State.noteBad s off).mxe = s.mxe ∧ (State.noteBad s off).upd = s.upd ∧ (State.noteBad s off).red = s.red ∧ (State.noteBad s off).tsk = s.tsk ∧ (State.noteBad s off).mem = s.mem ∧ (State.noteBad s off).hif = s.hif ∧ (State.noteBad s off).img = s.img ∧ (State.noteBad s off).pwr = s.pwr ∧ (State.noteBad s off).pending = s.pending := by
  have fr1 := @State.event_frame
  have fr2 := @State.hifFault_frame
  have fr3 := @State.incReg_frame
  simp [State.noteBad, fr1, fr2, fr3]


theorem State.badAnswer_frame (s : State) (off : Nat) (write : Bool) :
    (State.badAnswer s off write).pairLo = s.pairLo ∧ (State.badAnswer s off write).pairCap = s.pairCap ∧ (State.badAnswer s off write).free = s.free ∧ (State.badAnswer s off write).policy = s.policy ∧ (State.badAnswer s off write).chk = s.chk ∧ (State.badAnswer s off write).snp = s.snp ∧ (State.badAnswer s off write).irq = s.irq ∧ (State.badAnswer s off write).ezl = s.ezl ∧ (State.badAnswer s off write).stp = s.stp ∧ (State.badAnswer s off write).fmt = s.fmt ∧ (State.badAnswer s off write).arr = s.arr ∧ (State.badAnswer s off write).vec = s.vec ∧ (State.badAnswer s off write).mxe = s.mxe ∧ (State.badAnswer s off write).upd = s.upd ∧ (State.badAnswer s off write).red = s.red ∧ (State.badAnswer s off write).tsk = s.tsk ∧ (State.badAnswer s off write).mem = s.mem ∧ (State.badAnswer s off write).hif = s.hif ∧ (State.badAnswer s off write).img = s.img ∧ (State.badAnswer s off write).pwr = s.pwr ∧ (State.badAnswer s off write).pending = s.pending := by
  have fr1 := @State.emit_frame
  have fr2 := @State.noteBad_frame
  simp [State.badAnswer, fr1, fr2]


theorem snapshotWindowWrite_frame (off : Nat) (bytes : List Byte) (s : State) :
    (snapshotWindowWrite off bytes s).pairLo = s.pairLo ∧ (snapshotWindowWrite off bytes s).pairCap = s.pairCap ∧ (snapshotWindowWrite off bytes s).free = s.free ∧ (snapshotWindowWrite off bytes s).policy = s.policy ∧ (snapshotWindowWrite off bytes s).chk = s.chk ∧ (snapshotWindowWrite off bytes s).snp = s.snp ∧ (snapshotWindowWrite off bytes s).irq = s.irq ∧ (snapshotWindowWrite off bytes s).ezl = s.ezl ∧ (snapshotWindowWrite off bytes s).stp = s.stp ∧ (snapshotWindowWrite off bytes s).fmt = s.fmt ∧ (snapshotWindowWrite off bytes s).arr = s.arr ∧ (snapshotWindowWrite off bytes s).vec = s.vec ∧ (snapshotWindowWrite off bytes s).mxe = s.mxe ∧ (snapshotWindowWrite off bytes s).upd = s.upd ∧ (snapshotWindowWrite off bytes s).red = s.red ∧ (snapshotWindowWrite off bytes s).tsk = s.tsk ∧ (snapshotWindowWrite off bytes s).mem = s.mem ∧ (snapshotWindowWrite off bytes s).hif = s.hif ∧ (snapshotWindowWrite off bytes s).img = s.img ∧ (snapshotWindowWrite off bytes s).pwr = s.pwr ∧ (snapshotWindowWrite off bytes s).pending = s.pending := by
  have fr1 := @State.badAnswer_frame
  have fr2 := @State.log_frame
  simp [snapshotWindowWrite, fr1, fr2]


theorem sqWindowAccess_frame (off len : Nat) (wr : Option (List Byte)) (s : State) :
    (sqWindowAccess off len wr s).pairLo = s.pairLo ∧ (sqWindowAccess off len wr s).pairCap = s.pairCap ∧ (sqWindowAccess off len wr s).free = s.free ∧ (sqWindowAccess off len wr s).policy = s.policy ∧ (sqWindowAccess off len wr s).chk = s.chk ∧ (sqWindowAccess off len wr s).snp = s.snp ∧ (sqWindowAccess off len wr s).irq = s.irq ∧ (sqWindowAccess off len wr s).ezl = s.ezl ∧ (sqWindowAccess off len wr s).stp = s.stp ∧ (sqWindowAccess off len wr s).fmt = s.fmt ∧ (sqWindowAccess off len wr s).arr = s.arr ∧ (sqWindowAccess off len wr s).vec = s.vec ∧ (sqWindowAccess off len wr s).mxe = s.mxe ∧ (sqWindowAccess off len wr s).upd = s.upd ∧ (sqWindowAccess off len wr s).red = s.red ∧ (sqWindowAccess off len wr s).tsk = s.tsk ∧ (sqWindowAccess off len wr s).hif = s.hif ∧ (sqWindowAccess off len wr s).img = s.img ∧ (sqWindowAccess off len wr s).pwr = s.pwr ∧ (sqWindowAccess off len wr s).pending = s.pending := by
  have fr1 := @State.badAnswer_frame
  have fr2 := @State.hostPut_frame
  have fr3 := @State.hostRead_frame
  have fr4 := @State.unassignedRead_frame
  have fr5 := @State.unassignedWrite_frame
  have fr6 := @State.emit_frame
  have fr7 := @State.hostStore_frame
  unfold sqWindowAccess; (repeat' split) <;> simp [fr1, fr2, fr3, fr4, fr5, fr6, fr7]


theorem malformedTlp_frame (s : State) :
    (malformedTlp s).pairLo = s.pairLo ∧ (malformedTlp s).pairCap = s.pairCap ∧ (malformedTlp s).policy = s.policy ∧ (malformedTlp s).chk = s.chk ∧ (malformedTlp s).snp = s.snp ∧ (malformedTlp s).irq = s.irq ∧ (malformedTlp s).ezl = s.ezl ∧ (malformedTlp s).stp = s.stp ∧ (malformedTlp s).fmt = s.fmt ∧ (malformedTlp s).arr = s.arr ∧ (malformedTlp s).vec = s.vec ∧ (malformedTlp s).mxe = s.mxe ∧ (malformedTlp s).upd = s.upd ∧ (malformedTlp s).red = s.red ∧ (malformedTlp s).tsk = s.tsk ∧ (malformedTlp s).mem = s.mem ∧ (malformedTlp s).hif = s.hif ∧ (malformedTlp s).img = s.img ∧ (malformedTlp s).pwr = s.pwr ∧ (malformedTlp s).pending = s.pending := by
  have fr1 := @State.draw_frame
  have fr2 := @State.emit_frame
  have fr3 := @State.log_frame
  have fr4 := @State.setReg_frame
  simp [malformedTlp, fr1, fr2, fr3, fr4]


theorem State.dropHostDma_frame (s : State) :
    (State.dropHostDma s).regs = s.regs ∧ (State.dropHostDma s).pairLo = s.pairLo ∧ (State.dropHostDma s).pairCap = s.pairCap ∧ (State.dropHostDma s).out = s.out ∧ (State.dropHostDma s).free = s.free ∧ (State.dropHostDma s).policy = s.policy ∧ (State.dropHostDma s).err = s.err ∧ (State.dropHostDma s).chk = s.chk ∧ (State.dropHostDma s).snp = s.snp ∧ (State.dropHostDma s).irq = s.irq ∧ (State.dropHostDma s).ezl = s.ezl ∧ (State.dropHostDma s).stp = s.stp ∧ (State.dropHostDma s).fmt = s.fmt ∧ (State.dropHostDma s).arr = s.arr ∧ (State.dropHostDma s).vec = s.vec ∧ (State.dropHostDma s).mxe = s.mxe ∧ (State.dropHostDma s).upd = s.upd ∧ (State.dropHostDma s).red = s.red ∧ (State.dropHostDma s).mem = s.mem ∧ (State.dropHostDma s).hif = s.hif ∧ (State.dropHostDma s).img = s.img ∧ (State.dropHostDma s).pwr = s.pwr ∧ (State.dropHostDma s).pending = s.pending := by
  have fr1 := @State.modTsk_frame
  simp [State.dropHostDma, fr1]


theorem State.orphanLaunches_frame (s : State) :
    (State.orphanLaunches s).pairLo = s.pairLo ∧ (State.orphanLaunches s).pairCap = s.pairCap ∧ (State.orphanLaunches s).out = s.out ∧ (State.orphanLaunches s).free = s.free ∧ (State.orphanLaunches s).policy = s.policy ∧ (State.orphanLaunches s).chk = s.chk ∧ (State.orphanLaunches s).snp = s.snp ∧ (State.orphanLaunches s).irq = s.irq ∧ (State.orphanLaunches s).ezl = s.ezl ∧ (State.orphanLaunches s).stp = s.stp ∧ (State.orphanLaunches s).fmt = s.fmt ∧ (State.orphanLaunches s).arr = s.arr ∧ (State.orphanLaunches s).vec = s.vec ∧ (State.orphanLaunches s).mxe = s.mxe ∧ (State.orphanLaunches s).upd = s.upd ∧ (State.orphanLaunches s).red = s.red ∧ (State.orphanLaunches s).mem = s.mem ∧ (State.orphanLaunches s).img = s.img ∧ (State.orphanLaunches s).pwr = s.pwr ∧ (State.orphanLaunches s).pending = s.pending := by
  have fr1 := @State.modTsk_frame
  have fr2 := @launch_frame
  simp [State.orphanLaunches, fr1, fr2]


theorem functionLevelReset_frame (s : State) :
    (functionLevelReset s).pairCap = s.pairCap ∧ (functionLevelReset s).out = s.out ∧ (functionLevelReset s).free = s.free ∧ (functionLevelReset s).policy = s.policy ∧ (functionLevelReset s).chk = s.chk ∧ (functionLevelReset s).snp = s.snp ∧ (functionLevelReset s).irq = s.irq ∧ (functionLevelReset s).ezl = s.ezl ∧ (functionLevelReset s).stp = s.stp ∧ (functionLevelReset s).fmt = s.fmt ∧ (functionLevelReset s).arr = s.arr ∧ (functionLevelReset s).vec = s.vec ∧ (functionLevelReset s).mxe = s.mxe ∧ (functionLevelReset s).upd = s.upd ∧ (functionLevelReset s).red = s.red ∧ (functionLevelReset s).mem = s.mem ∧ (functionLevelReset s).img = s.img ∧ (functionLevelReset s).pwr = s.pwr ∧ (functionLevelReset s).pending = s.pending := by
  have fr1 := @State.dropHostDma_frame
  have fr2 := @State.event_frame
  have fr3 := @State.modHif_frame
  have fr4 := @State.orphanLaunches_frame
  simp [functionLevelReset, fr1, fr2, fr3, fr4]


theorem pcieLinkUp_frame (rate width : Nat) (flit : Bool) (s : State) :
    (pcieLinkUp rate width flit s).pairLo = s.pairLo ∧ (pcieLinkUp rate width flit s).pairCap = s.pairCap ∧ (pcieLinkUp rate width flit s).out = s.out ∧ (pcieLinkUp rate width flit s).free = s.free ∧ (pcieLinkUp rate width flit s).policy = s.policy ∧ (pcieLinkUp rate width flit s).chk = s.chk ∧ (pcieLinkUp rate width flit s).snp = s.snp ∧ (pcieLinkUp rate width flit s).irq = s.irq ∧ (pcieLinkUp rate width flit s).ezl = s.ezl ∧ (pcieLinkUp rate width flit s).stp = s.stp ∧ (pcieLinkUp rate width flit s).fmt = s.fmt ∧ (pcieLinkUp rate width flit s).arr = s.arr ∧ (pcieLinkUp rate width flit s).vec = s.vec ∧ (pcieLinkUp rate width flit s).mxe = s.mxe ∧ (pcieLinkUp rate width flit s).upd = s.upd ∧ (pcieLinkUp rate width flit s).red = s.red ∧ (pcieLinkUp rate width flit s).tsk = s.tsk ∧ (pcieLinkUp rate width flit s).mem = s.mem ∧ (pcieLinkUp rate width flit s).img = s.img ∧ (pcieLinkUp rate width flit s).pwr = s.pwr ∧ (pcieLinkUp rate width flit s).pending = s.pending := by
  have fr1 := @State.eventLog_frame
  have fr2 := @State.modHif_frame
  have fr3 := @State.setReg_frame
  simp [pcieLinkUp, fr1, fr2, fr3]


theorem pcieLinkDown_frame (s : State) :
    (pcieLinkDown s).pairLo = s.pairLo ∧ (pcieLinkDown s).pairCap = s.pairCap ∧ (pcieLinkDown s).out = s.out ∧ (pcieLinkDown s).free = s.free ∧ (pcieLinkDown s).policy = s.policy ∧ (pcieLinkDown s).chk = s.chk ∧ (pcieLinkDown s).snp = s.snp ∧ (pcieLinkDown s).irq = s.irq ∧ (pcieLinkDown s).ezl = s.ezl ∧ (pcieLinkDown s).stp = s.stp ∧ (pcieLinkDown s).fmt = s.fmt ∧ (pcieLinkDown s).arr = s.arr ∧ (pcieLinkDown s).vec = s.vec ∧ (pcieLinkDown s).mxe = s.mxe ∧ (pcieLinkDown s).upd = s.upd ∧ (pcieLinkDown s).red = s.red ∧ (pcieLinkDown s).mem = s.mem ∧ (pcieLinkDown s).img = s.img ∧ (pcieLinkDown s).pwr = s.pwr ∧ (pcieLinkDown s).pending = s.pending := by
  have fr1 := @State.dropHostDma_frame
  have fr2 := @State.event_frame
  have fr3 := @State.eventLog_frame
  have fr4 := @State.modHif_frame
  have fr5 := @State.orphanLaunches_frame
  have fr6 := @State.setReg_frame
  simp [pcieLinkDown, fr1, fr2, fr3, fr4, fr5, fr6]


theorem perstAssert_frame (s : State) :
    (perstAssert s).pairCap = s.pairCap ∧ (perstAssert s).out = s.out ∧ (perstAssert s).free = s.free ∧ (perstAssert s).policy = s.policy ∧ (perstAssert s).chk = s.chk ∧ (perstAssert s).snp = s.snp ∧ (perstAssert s).irq = s.irq ∧ (perstAssert s).ezl = s.ezl ∧ (perstAssert s).stp = s.stp ∧ (perstAssert s).fmt = s.fmt ∧ (perstAssert s).arr = s.arr ∧ (perstAssert s).vec = s.vec ∧ (perstAssert s).mxe = s.mxe ∧ (perstAssert s).upd = s.upd ∧ (perstAssert s).red = s.red ∧ (perstAssert s).mem = s.mem ∧ (perstAssert s).img = s.img ∧ (perstAssert s).pwr = s.pwr ∧ (perstAssert s).pending = s.pending := by
  have fr1 := @State.modHif_frame
  have fr2 := @functionLevelReset_frame
  have fr3 := @pcieLinkDown_frame
  simp [perstAssert, fr1, fr2, fr3]


theorem perstDeassert_frame (s : State) :
    (perstDeassert s).regs = s.regs ∧ (perstDeassert s).pairLo = s.pairLo ∧ (perstDeassert s).pairCap = s.pairCap ∧ (perstDeassert s).out = s.out ∧ (perstDeassert s).free = s.free ∧ (perstDeassert s).policy = s.policy ∧ (perstDeassert s).err = s.err ∧ (perstDeassert s).chk = s.chk ∧ (perstDeassert s).snp = s.snp ∧ (perstDeassert s).irq = s.irq ∧ (perstDeassert s).ezl = s.ezl ∧ (perstDeassert s).stp = s.stp ∧ (perstDeassert s).fmt = s.fmt ∧ (perstDeassert s).arr = s.arr ∧ (perstDeassert s).vec = s.vec ∧ (perstDeassert s).mxe = s.mxe ∧ (perstDeassert s).upd = s.upd ∧ (perstDeassert s).red = s.red ∧ (perstDeassert s).tsk = s.tsk ∧ (perstDeassert s).mem = s.mem ∧ (perstDeassert s).img = s.img ∧ (perstDeassert s).pwr = s.pwr ∧ (perstDeassert s).pending = s.pending := by
  have fr1 := @State.modHif_frame
  simp [perstDeassert, fr1]


theorem irqSourcePending_frame (d src : Nat) (s : State) :
    (irqSourcePending d src s).regs = s.regs ∧ (irqSourcePending d src s).pairLo = s.pairLo ∧ (irqSourcePending d src s).pairCap = s.pairCap ∧ (irqSourcePending d src s).out = s.out ∧ (irqSourcePending d src s).free = s.free ∧ (irqSourcePending d src s).policy = s.policy ∧ (irqSourcePending d src s).err = s.err ∧ (irqSourcePending d src s).chk = s.chk ∧ (irqSourcePending d src s).snp = s.snp ∧ (irqSourcePending d src s).ezl = s.ezl ∧ (irqSourcePending d src s).stp = s.stp ∧ (irqSourcePending d src s).fmt = s.fmt ∧ (irqSourcePending d src s).arr = s.arr ∧ (irqSourcePending d src s).vec = s.vec ∧ (irqSourcePending d src s).mxe = s.mxe ∧ (irqSourcePending d src s).upd = s.upd ∧ (irqSourcePending d src s).red = s.red ∧ (irqSourcePending d src s).tsk = s.tsk ∧ (irqSourcePending d src s).mem = s.mem ∧ (irqSourcePending d src s).hif = s.hif ∧ (irqSourcePending d src s).img = s.img ∧ (irqSourcePending d src s).pwr = s.pwr ∧ (irqSourcePending d src s).pending = s.pending := by
  have fr1 := @State.setIrq_frame
  simp [irqSourcePending, fr1]


theorem irqClaim_frame (d c src : Nat) (s : State) :
    (irqClaim d c src s).pairLo = s.pairLo ∧ (irqClaim d c src s).pairCap = s.pairCap ∧ (irqClaim d c src s).out = s.out ∧ (irqClaim d c src s).free = s.free ∧ (irqClaim d c src s).policy = s.policy ∧ (irqClaim d c src s).chk = s.chk ∧ (irqClaim d c src s).snp = s.snp ∧ (irqClaim d c src s).ezl = s.ezl ∧ (irqClaim d c src s).stp = s.stp ∧ (irqClaim d c src s).fmt = s.fmt ∧ (irqClaim d c src s).arr = s.arr ∧ (irqClaim d c src s).vec = s.vec ∧ (irqClaim d c src s).upd = s.upd ∧ (irqClaim d c src s).red = s.red ∧ (irqClaim d c src s).tsk = s.tsk ∧ (irqClaim d c src s).mem = s.mem ∧ (irqClaim d c src s).hif = s.hif ∧ (irqClaim d c src s).img = s.img ∧ (irqClaim d c src s).pwr = s.pwr ∧ (irqClaim d c src s).pending = s.pending := by
  have fr1 := @State.irqSpurious_frame
  have fr2 := @State.irqTake_frame
  have fr3 := @State.setCore_frame
  have fr4 := @State.setIrq_frame
  simp [irqClaim, fr1, fr2, fr3, fr4]


theorem claimRead_frame (rq : Requester) (d c : Nat) (s : State) :
    (claimRead rq d c s).pairLo = s.pairLo ∧ (claimRead rq d c s).pairCap = s.pairCap ∧ (claimRead rq d c s).free = s.free ∧ (claimRead rq d c s).policy = s.policy ∧ (claimRead rq d c s).chk = s.chk ∧ (claimRead rq d c s).snp = s.snp ∧ (claimRead rq d c s).ezl = s.ezl ∧ (claimRead rq d c s).stp = s.stp ∧ (claimRead rq d c s).fmt = s.fmt ∧ (claimRead rq d c s).arr = s.arr ∧ (claimRead rq d c s).vec = s.vec ∧ (claimRead rq d c s).upd = s.upd ∧ (claimRead rq d c s).red = s.red ∧ (claimRead rq d c s).tsk = s.tsk ∧ (claimRead rq d c s).mem = s.mem ∧ (claimRead rq d c s).hif = s.hif ∧ (claimRead rq d c s).img = s.img ∧ (claimRead rq d c s).pwr = s.pwr ∧ (claimRead rq d c s).pending = s.pending := by
  have fr1 := @State.emit_frame
  have fr2 := @State.irqSpurious_frame
  have fr3 := @State.irqTake_frame
  unfold claimRead; (repeat' split) <;> simp [fr1, fr2, fr3]


theorem eoiBad_frame (rq : Requester) (d a src : Nat) (s : State) :
    (eoiBad rq d a src s).pairLo = s.pairLo ∧ (eoiBad rq d a src s).pairCap = s.pairCap ∧ (eoiBad rq d a src s).out = s.out ∧ (eoiBad rq d a src s).free = s.free ∧ (eoiBad rq d a src s).policy = s.policy ∧ (eoiBad rq d a src s).chk = s.chk ∧ (eoiBad rq d a src s).snp = s.snp ∧ (eoiBad rq d a src s).irq = s.irq ∧ (eoiBad rq d a src s).ezl = s.ezl ∧ (eoiBad rq d a src s).stp = s.stp ∧ (eoiBad rq d a src s).fmt = s.fmt ∧ (eoiBad rq d a src s).arr = s.arr ∧ (eoiBad rq d a src s).vec = s.vec ∧ (eoiBad rq d a src s).mxe = s.mxe ∧ (eoiBad rq d a src s).upd = s.upd ∧ (eoiBad rq d a src s).red = s.red ∧ (eoiBad rq d a src s).tsk = s.tsk ∧ (eoiBad rq d a src s).mem = s.mem ∧ (eoiBad rq d a src s).hif = s.hif ∧ (eoiBad rq d a src s).img = s.img ∧ (eoiBad rq d a src s).pwr = s.pwr ∧ (eoiBad rq d a src s).pending = s.pending := by
  have fr1 := @State.eventLog_frame
  simp [eoiBad, fr1]


theorem irqEoi_frame (rq : Requester) (d c src : Nat) (s : State) :
    (irqEoi rq d c src s).pairLo = s.pairLo ∧ (irqEoi rq d c src s).pairCap = s.pairCap ∧ (irqEoi rq d c src s).out = s.out ∧ (irqEoi rq d c src s).free = s.free ∧ (irqEoi rq d c src s).policy = s.policy ∧ (irqEoi rq d c src s).chk = s.chk ∧ (irqEoi rq d c src s).snp = s.snp ∧ (irqEoi rq d c src s).ezl = s.ezl ∧ (irqEoi rq d c src s).stp = s.stp ∧ (irqEoi rq d c src s).fmt = s.fmt ∧ (irqEoi rq d c src s).arr = s.arr ∧ (irqEoi rq d c src s).vec = s.vec ∧ (irqEoi rq d c src s).upd = s.upd ∧ (irqEoi rq d c src s).red = s.red ∧ (irqEoi rq d c src s).tsk = s.tsk ∧ (irqEoi rq d c src s).mem = s.mem ∧ (irqEoi rq d c src s).hif = s.hif ∧ (irqEoi rq d c src s).img = s.img ∧ (irqEoi rq d c src s).pwr = s.pwr ∧ (irqEoi rq d c src s).pending = s.pending := by
  have fr1 := @State.irqRelevel_frame
  have fr2 := @State.setCore_frame
  have fr3 := @State.setIrq_frame
  have fr4 := @eoiBad_frame
  simp [irqEoi, fr1, fr2, fr3, fr4]


theorem hostEoi_frame (rq : Requester) (d src : Nat) (s : State) :
    (hostEoi rq d src s).pairLo = s.pairLo ∧ (hostEoi rq d src s).pairCap = s.pairCap ∧ (hostEoi rq d src s).out = s.out ∧ (hostEoi rq d src s).free = s.free ∧ (hostEoi rq d src s).policy = s.policy ∧ (hostEoi rq d src s).chk = s.chk ∧ (hostEoi rq d src s).snp = s.snp ∧ (hostEoi rq d src s).ezl = s.ezl ∧ (hostEoi rq d src s).stp = s.stp ∧ (hostEoi rq d src s).fmt = s.fmt ∧ (hostEoi rq d src s).arr = s.arr ∧ (hostEoi rq d src s).vec = s.vec ∧ (hostEoi rq d src s).mxe = s.mxe ∧ (hostEoi rq d src s).upd = s.upd ∧ (hostEoi rq d src s).red = s.red ∧ (hostEoi rq d src s).tsk = s.tsk ∧ (hostEoi rq d src s).mem = s.mem ∧ (hostEoi rq d src s).hif = s.hif ∧ (hostEoi rq d src s).img = s.img ∧ (hostEoi rq d src s).pwr = s.pwr ∧ (hostEoi rq d src s).pending = s.pending := by
  have fr1 := @State.irqRelevel_frame
  have fr2 := @State.setIrq_frame
  have fr3 := @eoiBad_frame
  simp [hostEoi, fr1, fr2, fr3]


theorem irqPendWrite_frame (d k : Nat) (v : Word) (s : State) :
    (irqPendWrite d k v s).regs = s.regs ∧ (irqPendWrite d k v s).pairLo = s.pairLo ∧ (irqPendWrite d k v s).pairCap = s.pairCap ∧ (irqPendWrite d k v s).out = s.out ∧ (irqPendWrite d k v s).free = s.free ∧ (irqPendWrite d k v s).policy = s.policy ∧ (irqPendWrite d k v s).err = s.err ∧ (irqPendWrite d k v s).chk = s.chk ∧ (irqPendWrite d k v s).snp = s.snp ∧ (irqPendWrite d k v s).ezl = s.ezl ∧ (irqPendWrite d k v s).stp = s.stp ∧ (irqPendWrite d k v s).fmt = s.fmt ∧ (irqPendWrite d k v s).arr = s.arr ∧ (irqPendWrite d k v s).vec = s.vec ∧ (irqPendWrite d k v s).mxe = s.mxe ∧ (irqPendWrite d k v s).upd = s.upd ∧ (irqPendWrite d k v s).red = s.red ∧ (irqPendWrite d k v s).tsk = s.tsk ∧ (irqPendWrite d k v s).mem = s.mem ∧ (irqPendWrite d k v s).hif = s.hif ∧ (irqPendWrite d k v s).img = s.img ∧ (irqPendWrite d k v s).pwr = s.pwr ∧ (irqPendWrite d k v s).pending = s.pending := by
  have fr1 := @State.setIrq_frame
  simp [irqPendWrite, fr1]


theorem irqPclrWrite_frame (d k : Nat) (v : Word) (s : State) :
    (irqPclrWrite d k v s).regs = s.regs ∧ (irqPclrWrite d k v s).pairLo = s.pairLo ∧ (irqPclrWrite d k v s).pairCap = s.pairCap ∧ (irqPclrWrite d k v s).out = s.out ∧ (irqPclrWrite d k v s).free = s.free ∧ (irqPclrWrite d k v s).policy = s.policy ∧ (irqPclrWrite d k v s).err = s.err ∧ (irqPclrWrite d k v s).chk = s.chk ∧ (irqPclrWrite d k v s).snp = s.snp ∧ (irqPclrWrite d k v s).ezl = s.ezl ∧ (irqPclrWrite d k v s).stp = s.stp ∧ (irqPclrWrite d k v s).fmt = s.fmt ∧ (irqPclrWrite d k v s).arr = s.arr ∧ (irqPclrWrite d k v s).vec = s.vec ∧ (irqPclrWrite d k v s).mxe = s.mxe ∧ (irqPclrWrite d k v s).upd = s.upd ∧ (irqPclrWrite d k v s).red = s.red ∧ (irqPclrWrite d k v s).tsk = s.tsk ∧ (irqPclrWrite d k v s).mem = s.mem ∧ (irqPclrWrite d k v s).hif = s.hif ∧ (irqPclrWrite d k v s).img = s.img ∧ (irqPclrWrite d k v s).pwr = s.pwr ∧ (irqPclrWrite d k v s).pending = s.pending := by
  have fr1 := @State.irqRelevel_frame
  have fr2 := @State.setIrq_frame
  simp [irqPclrWrite, fr1, fr2]


theorem irqHostMessage_frame (d src : Nat) (s : State) :
    (irqHostMessage d src s).pairLo = s.pairLo ∧ (irqHostMessage d src s).pairCap = s.pairCap ∧ (irqHostMessage d src s).free = s.free ∧ (irqHostMessage d src s).policy = s.policy ∧ (irqHostMessage d src s).err = s.err ∧ (irqHostMessage d src s).chk = s.chk ∧ (irqHostMessage d src s).snp = s.snp ∧ (irqHostMessage d src s).stp = s.stp ∧ (irqHostMessage d src s).fmt = s.fmt ∧ (irqHostMessage d src s).arr = s.arr ∧ (irqHostMessage d src s).vec = s.vec ∧ (irqHostMessage d src s).mxe = s.mxe ∧ (irqHostMessage d src s).upd = s.upd ∧ (irqHostMessage d src s).red = s.red ∧ (irqHostMessage d src s).tsk = s.tsk ∧ (irqHostMessage d src s).mem = s.mem ∧ (irqHostMessage d src s).hif = s.hif ∧ (irqHostMessage d src s).img = s.img ∧ (irqHostMessage d src s).pwr = s.pwr ∧ (irqHostMessage d src s).pending = s.pending := by
  have fr1 := @State.msixSend_frame
  have fr2 := @State.setIrq_frame
  have fr3 := @State.irqDelivered_frame
  simp [irqHostMessage, fr1, fr2, fr3]


theorem moderate_frame (d : Nat) (s : State) (g : Nat) :
    (moderate d s g).regs = s.regs ∧ (moderate d s g).pairLo = s.pairLo ∧ (moderate d s g).pairCap = s.pairCap ∧ (moderate d s g).out = s.out ∧ (moderate d s g).free = s.free ∧ (moderate d s g).policy = s.policy ∧ (moderate d s g).err = s.err ∧ (moderate d s g).chk = s.chk ∧ (moderate d s g).snp = s.snp ∧ (moderate d s g).ezl = s.ezl ∧ (moderate d s g).stp = s.stp ∧ (moderate d s g).fmt = s.fmt ∧ (moderate d s g).arr = s.arr ∧ (moderate d s g).vec = s.vec ∧ (moderate d s g).mxe = s.mxe ∧ (moderate d s g).upd = s.upd ∧ (moderate d s g).red = s.red ∧ (moderate d s g).tsk = s.tsk ∧ (moderate d s g).mem = s.mem ∧ (moderate d s g).hif = s.hif ∧ (moderate d s g).img = s.img ∧ (moderate d s g).pwr = s.pwr ∧ (moderate d s g).pending = s.pending := by
  have fr1 := @State.setIrq_frame
  simp [moderate, fr1]


theorem clearCount_frame (d : Nat) (s : State) (g : Nat) :
    (clearCount d s g).regs = s.regs ∧ (clearCount d s g).pairLo = s.pairLo ∧ (clearCount d s g).pairCap = s.pairCap ∧ (clearCount d s g).out = s.out ∧ (clearCount d s g).free = s.free ∧ (clearCount d s g).policy = s.policy ∧ (clearCount d s g).err = s.err ∧ (clearCount d s g).chk = s.chk ∧ (clearCount d s g).snp = s.snp ∧ (clearCount d s g).ezl = s.ezl ∧ (clearCount d s g).stp = s.stp ∧ (clearCount d s g).fmt = s.fmt ∧ (clearCount d s g).arr = s.arr ∧ (clearCount d s g).vec = s.vec ∧ (clearCount d s g).mxe = s.mxe ∧ (clearCount d s g).upd = s.upd ∧ (clearCount d s g).red = s.red ∧ (clearCount d s g).tsk = s.tsk ∧ (clearCount d s g).mem = s.mem ∧ (clearCount d s g).hif = s.hif ∧ (clearCount d s g).img = s.img ∧ (clearCount d s g).pwr = s.pwr ∧ (clearCount d s g).pending = s.pending := by
  have fr1 := @State.setIrq_frame
  simp [clearCount, fr1]


theorem State.queueTrig_frame (s : State) (x : Trig) :
    (State.queueTrig s x).pairLo = s.pairLo ∧ (State.queueTrig s x).pairCap = s.pairCap ∧ (State.queueTrig s x).out = s.out ∧ (State.queueTrig s x).free = s.free ∧ (State.queueTrig s x).policy = s.policy ∧ (State.queueTrig s x).chk = s.chk ∧ (State.queueTrig s x).irq = s.irq ∧ (State.queueTrig s x).ezl = s.ezl ∧ (State.queueTrig s x).stp = s.stp ∧ (State.queueTrig s x).fmt = s.fmt ∧ (State.queueTrig s x).arr = s.arr ∧ (State.queueTrig s x).vec = s.vec ∧ (State.queueTrig s x).mxe = s.mxe ∧ (State.queueTrig s x).upd = s.upd ∧ (State.queueTrig s x).red = s.red ∧ (State.queueTrig s x).tsk = s.tsk ∧ (State.queueTrig s x).mem = s.mem ∧ (State.queueTrig s x).hif = s.hif ∧ (State.queueTrig s x).img = s.img ∧ (State.queueTrig s x).pwr = s.pwr ∧ (State.queueTrig s x).pending = s.pending := by
  have fr1 := @State.event_frame
  have fr2 := @State.eventLog_frame
  have fr3 := @State.modSnp_frame
  simp [State.queueTrig, fr1, fr2, fr3]


theorem State.raiseTrig_frame (s : State) (cls t : Nat) (flood : Bool) :
    (State.raiseTrig s cls t flood).pairLo = s.pairLo ∧ (State.raiseTrig s cls t flood).pairCap = s.pairCap ∧ (State.raiseTrig s cls t flood).free = s.free ∧ (State.raiseTrig s cls t flood).policy = s.policy ∧ (State.raiseTrig s cls t flood).chk = s.chk ∧ (State.raiseTrig s cls t flood).irq = s.irq ∧ (State.raiseTrig s cls t flood).stp = s.stp ∧ (State.raiseTrig s cls t flood).fmt = s.fmt ∧ (State.raiseTrig s cls t flood).arr = s.arr ∧ (State.raiseTrig s cls t flood).vec = s.vec ∧ (State.raiseTrig s cls t flood).mxe = s.mxe ∧ (State.raiseTrig s cls t flood).upd = s.upd ∧ (State.raiseTrig s cls t flood).red = s.red ∧ (State.raiseTrig s cls t flood).tsk = s.tsk ∧ (State.raiseTrig s cls t flood).mem = s.mem ∧ (State.raiseTrig s cls t flood).hif = s.hif ∧ (State.raiseTrig s cls t flood).img = s.img ∧ (State.raiseTrig s cls t flood).pwr = s.pwr ∧ (State.raiseTrig s cls t flood).pending = s.pending := by
  have fr1 := @State.flood_frame
  have fr2 := @State.modEzl_frame
  have fr3 := @State.modSnp_frame
  have fr4 := @State.queueTrig_frame
  simp [State.raiseTrig, fr1, fr2, fr3, fr4]


theorem State.noteParent_frame (s : State) (m : Nat) :
    (State.noteParent s m).pairLo = s.pairLo ∧ (State.noteParent s m).pairCap = s.pairCap ∧ (State.noteParent s m).out = s.out ∧ (State.noteParent s m).free = s.free ∧ (State.noteParent s m).policy = s.policy ∧ (State.noteParent s m).chk = s.chk ∧ (State.noteParent s m).snp = s.snp ∧ (State.noteParent s m).irq = s.irq ∧ (State.noteParent s m).stp = s.stp ∧ (State.noteParent s m).fmt = s.fmt ∧ (State.noteParent s m).arr = s.arr ∧ (State.noteParent s m).vec = s.vec ∧ (State.noteParent s m).mxe = s.mxe ∧ (State.noteParent s m).upd = s.upd ∧ (State.noteParent s m).red = s.red ∧ (State.noteParent s m).tsk = s.tsk ∧ (State.noteParent s m).mem = s.mem ∧ (State.noteParent s m).hif = s.hif ∧ (State.noteParent s m).img = s.img ∧ (State.noteParent s m).pwr = s.pwr ∧ (State.noteParent s m).pending = s.pending := by
  have fr1 := @State.log_frame
  have fr2 := @State.modTim_frame
  simp [State.noteParent, fr1, fr2]


theorem State.takeMaster_frame (s : State) (m : Nat) :
    (State.takeMaster s m).pairLo = s.pairLo ∧ (State.takeMaster s m).pairCap = s.pairCap ∧ (State.takeMaster s m).out = s.out ∧ (State.takeMaster s m).free = s.free ∧ (State.takeMaster s m).policy = s.policy ∧ (State.takeMaster s m).chk = s.chk ∧ (State.takeMaster s m).snp = s.snp ∧ (State.takeMaster s m).irq = s.irq ∧ (State.takeMaster s m).stp = s.stp ∧ (State.takeMaster s m).fmt = s.fmt ∧ (State.takeMaster s m).arr = s.arr ∧ (State.takeMaster s m).vec = s.vec ∧ (State.takeMaster s m).mxe = s.mxe ∧ (State.takeMaster s m).upd = s.upd ∧ (State.takeMaster s m).red = s.red ∧ (State.takeMaster s m).tsk = s.tsk ∧ (State.takeMaster s m).mem = s.mem ∧ (State.takeMaster s m).hif = s.hif ∧ (State.takeMaster s m).img = s.img ∧ (State.takeMaster s m).pwr = s.pwr ∧ (State.takeMaster s m).pending = s.pending := by
  have fr1 := @State.eventLog_frame
  have fr2 := @State.modEzl_frame
  simp [State.takeMaster, fr1, fr2]


theorem holdover_frame (s : State) :
    (holdover s).pairLo = s.pairLo ∧ (holdover s).pairCap = s.pairCap ∧ (holdover s).free = s.free ∧ (holdover s).policy = s.policy ∧ (holdover s).chk = s.chk ∧ (holdover s).snp = s.snp ∧ (holdover s).irq = s.irq ∧ (holdover s).stp = s.stp ∧ (holdover s).fmt = s.fmt ∧ (holdover s).arr = s.arr ∧ (holdover s).vec = s.vec ∧ (holdover s).mxe = s.mxe ∧ (holdover s).upd = s.upd ∧ (holdover s).red = s.red ∧ (holdover s).tsk = s.tsk ∧ (holdover s).mem = s.mem ∧ (holdover s).hif = s.hif ∧ (holdover s).img = s.img ∧ (holdover s).pwr = s.pwr ∧ (holdover s).pending = s.pending := by
  have fr1 := @State.eventLog_frame
  have fr2 := @State.modTim_frame
  have fr3 := @State.sendOn_frame
  have fr4 := @State.takeMaster_frame
  simp [holdover, fr1, fr2, fr3, fr4]


theorem timeMasterLost_frame (src lowest : Nat) (s : State) :
    (timeMasterLost src lowest s).pairLo = s.pairLo ∧ (timeMasterLost src lowest s).pairCap = s.pairCap ∧ (timeMasterLost src lowest s).out = s.out ∧ (timeMasterLost src lowest s).free = s.free ∧ (timeMasterLost src lowest s).policy = s.policy ∧ (timeMasterLost src lowest s).chk = s.chk ∧ (timeMasterLost src lowest s).snp = s.snp ∧ (timeMasterLost src lowest s).irq = s.irq ∧ (timeMasterLost src lowest s).stp = s.stp ∧ (timeMasterLost src lowest s).fmt = s.fmt ∧ (timeMasterLost src lowest s).arr = s.arr ∧ (timeMasterLost src lowest s).vec = s.vec ∧ (timeMasterLost src lowest s).mxe = s.mxe ∧ (timeMasterLost src lowest s).upd = s.upd ∧ (timeMasterLost src lowest s).red = s.red ∧ (timeMasterLost src lowest s).tsk = s.tsk ∧ (timeMasterLost src lowest s).mem = s.mem ∧ (timeMasterLost src lowest s).hif = s.hif ∧ (timeMasterLost src lowest s).img = s.img ∧ (timeMasterLost src lowest s).pwr = s.pwr ∧ (timeMasterLost src lowest s).pending = s.pending := by
  have fr1 := @State.takeMaster_frame
  have fr2 := @State.takeRx_frame
  have fr3 := @State.eventLog_frame
  have fr4 := @State.modEzl_frame
  simp [timeMasterLost, fr1, fr2, fr3, fr4]


theorem triggerFrame_frame (l : Nat) (f : TrigFrame) (s : State) :
    (triggerFrame l f s).pairLo = s.pairLo ∧ (triggerFrame l f s).pairCap = s.pairCap ∧ (triggerFrame l f s).free = s.free ∧ (triggerFrame l f s).policy = s.policy ∧ (triggerFrame l f s).chk = s.chk ∧ (triggerFrame l f s).irq = s.irq ∧ (triggerFrame l f s).stp = s.stp ∧ (triggerFrame l f s).fmt = s.fmt ∧ (triggerFrame l f s).arr = s.arr ∧ (triggerFrame l f s).vec = s.vec ∧ (triggerFrame l f s).mxe = s.mxe ∧ (triggerFrame l f s).upd = s.upd ∧ (triggerFrame l f s).red = s.red ∧ (triggerFrame l f s).tsk = s.tsk ∧ (triggerFrame l f s).mem = s.mem ∧ (triggerFrame l f s).hif = s.hif ∧ (triggerFrame l f s).img = s.img ∧ (triggerFrame l f s).pwr = s.pwr ∧ (triggerFrame l f s).pending = s.pending := by
  have fr1 := @State.event_frame
  have fr2 := @State.flood_frame
  have fr3 := @State.modEzl_frame
  have fr4 := @State.queueTrig_frame
  have fr5 := @State.takeRx_frame
  simp [triggerFrame, fr1, fr2, fr3, fr4, fr5]


theorem State.forwardWait_frame (s : State) :
    (State.forwardWait s).pairLo = s.pairLo ∧ (State.forwardWait s).pairCap = s.pairCap ∧ (State.forwardWait s).free = s.free ∧ (State.forwardWait s).policy = s.policy ∧ (State.forwardWait s).err = s.err ∧ (State.forwardWait s).chk = s.chk ∧ (State.forwardWait s).snp = s.snp ∧ (State.forwardWait s).irq = s.irq ∧ (State.forwardWait s).fmt = s.fmt ∧ (State.forwardWait s).arr = s.arr ∧ (State.forwardWait s).vec = s.vec ∧ (State.forwardWait s).mxe = s.mxe ∧ (State.forwardWait s).upd = s.upd ∧ (State.forwardWait s).red = s.red ∧ (State.forwardWait s).tsk = s.tsk ∧ (State.forwardWait s).mem = s.mem ∧ (State.forwardWait s).hif = s.hif ∧ (State.forwardWait s).img = s.img ∧ (State.forwardWait s).pwr = s.pwr ∧ (State.forwardWait s).pending = s.pending := by
  have fr1 := @State.modStp_frame
  have fr2 := @State.sendToken_frame
  unfold State.forwardWait; (repeat' split) <;> simp [fr1, fr2]


theorem State.readyForward_frame (s : State) :
    (State.readyForward s).pairLo = s.pairLo ∧ (State.readyForward s).pairCap = s.pairCap ∧ (State.readyForward s).chk = s.chk ∧ (State.readyForward s).snp = s.snp ∧ (State.readyForward s).irq = s.irq ∧ (State.readyForward s).vec = s.vec ∧ (State.readyForward s).img = s.img ∧ (State.readyForward s).pwr = s.pwr ∧ (State.readyForward s).pending = s.pending := by
  have fr1 := @State.findAbort_frame
  have fr2 := @State.forwardWait_frame
  unfold State.readyForward; (repeat' split) <;> simp [fr1, fr2]


theorem memberReady_frame (s : State) :
    (memberReady s).pairLo = s.pairLo ∧ (memberReady s).pairCap = s.pairCap ∧ (memberReady s).chk = s.chk ∧ (memberReady s).snp = s.snp ∧ (memberReady s).irq = s.irq ∧ (memberReady s).vec = s.vec ∧ (memberReady s).img = s.img ∧ (memberReady s).pwr = s.pwr ∧ (memberReady s).pending = s.pending := by
  have fr1 := @State.applyDecision_frame
  have fr2 := @State.draftRecord_frame
  have fr3 := @State.event_frame
  have fr4 := @State.modStp_frame
  have fr5 := @State.readyForward_frame
  have fr6 := @State.sendFirst_frame
  simp [memberReady, fr1, fr2, fr3, fr4, fr5, fr6]


theorem State.fixDecision_frame (s : State) (dec : Decision) (t : Token) :
    (State.fixDecision s dec t).pairLo = s.pairLo ∧ (State.fixDecision s dec t).pairCap = s.pairCap ∧ (State.fixDecision s dec t).free = s.free ∧ (State.fixDecision s dec t).policy = s.policy ∧ (State.fixDecision s dec t).err = s.err ∧ (State.fixDecision s dec t).chk = s.chk ∧ (State.fixDecision s dec t).snp = s.snp ∧ (State.fixDecision s dec t).irq = s.irq ∧ (State.fixDecision s dec t).fmt = s.fmt ∧ (State.fixDecision s dec t).arr = s.arr ∧ (State.fixDecision s dec t).vec = s.vec ∧ (State.fixDecision s dec t).mxe = s.mxe ∧ (State.fixDecision s dec t).upd = s.upd ∧ (State.fixDecision s dec t).red = s.red ∧ (State.fixDecision s dec t).tsk = s.tsk ∧ (State.fixDecision s dec t).mem = s.mem ∧ (State.fixDecision s dec t).hif = s.hif ∧ (State.fixDecision s dec t).img = s.img ∧ (State.fixDecision s dec t).pwr = s.pwr ∧ (State.fixDecision s dec t).pending = s.pending := by
  have fr1 := @State.modStp_frame
  have fr2 := @State.sendToken_frame
  simp [State.fixDecision, fr1, fr2]


theorem State.firstReturned_frame (s : State) (t : Token) :
    (State.firstReturned s t).pairLo = s.pairLo ∧ (State.firstReturned s t).pairCap = s.pairCap ∧ (State.firstReturned s t).chk = s.chk ∧ (State.firstReturned s t).snp = s.snp ∧ (State.firstReturned s t).irq = s.irq ∧ (State.firstReturned s t).vec = s.vec ∧ (State.firstReturned s t).img = s.img ∧ (State.firstReturned s t).pwr = s.pwr ∧ (State.firstReturned s t).pending = s.pending := by
  have fr1 := @State.findAbort_frame
  have fr2 := @State.fixDecision_frame
  simp [State.firstReturned, fr1, fr2]


theorem State.firstForward_frame (s : State) (t : Token) :
    (State.firstForward s t).pairLo = s.pairLo ∧ (State.firstForward s t).pairCap = s.pairCap ∧ (State.firstForward s t).chk = s.chk ∧ (State.firstForward s t).snp = s.snp ∧ (State.firstForward s t).irq = s.irq ∧ (State.firstForward s t).vec = s.vec ∧ (State.firstForward s t).img = s.img ∧ (State.firstForward s t).pwr = s.pwr ∧ (State.firstForward s t).pending = s.pending := by
  have fr1 := @State.forwardWait_frame
  have fr2 := @State.modStp_frame
  have fr3 := @State.openFor_frame
  have fr4 := @State.readyForward_frame
  simp [State.firstForward, fr1, fr2, fr3, fr4]


theorem firstPassToken_frame (t : Token) (s : State) :
    (firstPassToken t s).pairLo = s.pairLo ∧ (firstPassToken t s).pairCap = s.pairCap ∧ (firstPassToken t s).chk = s.chk ∧ (firstPassToken t s).snp = s.snp ∧ (firstPassToken t s).irq = s.irq ∧ (firstPassToken t s).vec = s.vec ∧ (firstPassToken t s).img = s.img ∧ (firstPassToken t s).pwr = s.pwr ∧ (firstPassToken t s).pending = s.pending := by
  have fr1 := @State.event_frame
  have fr2 := @State.findAbort_frame
  have fr3 := @State.firstForward_frame
  have fr4 := @State.firstReturned_frame
  have fr5 := @State.forwardWait_frame
  have fr6 := @State.modStp_frame
  have fr7 := @State.takeRx_frame
  unfold firstPassToken; dsimp only; (repeat' split) <;> simp [fr1, fr2, fr3, fr4, fr5, fr6, fr7]


theorem State.takeDecision_frame (s : State) (dec : Decision) (step epoch att reason voter : Nat) (hold : Bool) :
    (State.takeDecision s dec step epoch att reason voter hold).pairLo = s.pairLo ∧ (State.takeDecision s dec step epoch att reason voter hold).pairCap = s.pairCap ∧ (State.takeDecision s dec step epoch att reason voter hold).out = s.out ∧ (State.takeDecision s dec step epoch att reason voter hold).chk = s.chk ∧ (State.takeDecision s dec step epoch att reason voter hold).snp = s.snp ∧ (State.takeDecision s dec step epoch att reason voter hold).irq = s.irq ∧ (State.takeDecision s dec step epoch att reason voter hold).vec = s.vec ∧ (State.takeDecision s dec step epoch att reason voter hold).img = s.img ∧ (State.takeDecision s dec step epoch att reason voter hold).pwr = s.pwr ∧ (State.takeDecision s dec step epoch att reason voter hold).pending = s.pending := by
  have fr1 := @State.applyDecision_frame
  have fr2 := @State.eventLog_frame
  have fr3 := @State.openFor_frame
  have fr4 := @State.setReg_frame
  have fr5 := @State.setRegN_frame
  simp [State.takeDecision, fr1, fr2, fr3, fr4, fr5]


theorem secondPassToken_frame (t : Token) (s : State) :
    (secondPassToken t s).pairLo = s.pairLo ∧ (secondPassToken t s).pairCap = s.pairCap ∧ (secondPassToken t s).chk = s.chk ∧ (secondPassToken t s).snp = s.snp ∧ (secondPassToken t s).irq = s.irq ∧ (secondPassToken t s).vec = s.vec ∧ (secondPassToken t s).img = s.img ∧ (secondPassToken t s).pwr = s.pwr ∧ (secondPassToken t s).pending = s.pending := by
  have fr1 := @State.applyDecision_frame
  have fr2 := @State.event_frame
  have fr3 := @State.findAbort_frame
  have fr4 := @State.modStp_frame
  have fr5 := @State.sendToken_frame
  have fr6 := @State.takeDecision_frame
  have fr7 := @State.takeRx_frame
  unfold secondPassToken; dsimp only; (repeat' split) <;> simp [fr1, fr2, fr3, fr4, fr5, fr6, fr7]


theorem abortRequest_frame (c : CtrlMsg) (s : State) :
    (abortRequest c s).pairLo = s.pairLo ∧ (abortRequest c s).pairCap = s.pairCap ∧ (abortRequest c s).free = s.free ∧ (abortRequest c s).policy = s.policy ∧ (abortRequest c s).chk = s.chk ∧ (abortRequest c s).snp = s.snp ∧ (abortRequest c s).irq = s.irq ∧ (abortRequest c s).fmt = s.fmt ∧ (abortRequest c s).arr = s.arr ∧ (abortRequest c s).vec = s.vec ∧ (abortRequest c s).mxe = s.mxe ∧ (abortRequest c s).upd = s.upd ∧ (abortRequest c s).red = s.red ∧ (abortRequest c s).tsk = s.tsk ∧ (abortRequest c s).mem = s.mem ∧ (abortRequest c s).hif = s.hif ∧ (abortRequest c s).img = s.img ∧ (abortRequest c s).pwr = s.pwr ∧ (abortRequest c s).pending = s.pending := by
  have fr1 := @State.log_frame
  have fr2 := @State.modStp_frame
  have fr3 := @State.openFor_frame
  have fr4 := @State.sendFirst_frame
  have fr5 := @State.takeRx_frame
  simp [abortRequest, fr1, fr2, fr3, fr4, fr5]


theorem abortRequestTimeout_frame (s : State) :
    (abortRequestTimeout s).pairLo = s.pairLo ∧ (abortRequestTimeout s).pairCap = s.pairCap ∧ (abortRequestTimeout s).free = s.free ∧ (abortRequestTimeout s).policy = s.policy ∧ (abortRequestTimeout s).err = s.err ∧ (abortRequestTimeout s).chk = s.chk ∧ (abortRequestTimeout s).snp = s.snp ∧ (abortRequestTimeout s).irq = s.irq ∧ (abortRequestTimeout s).fmt = s.fmt ∧ (abortRequestTimeout s).arr = s.arr ∧ (abortRequestTimeout s).vec = s.vec ∧ (abortRequestTimeout s).mxe = s.mxe ∧ (abortRequestTimeout s).upd = s.upd ∧ (abortRequestTimeout s).red = s.red ∧ (abortRequestTimeout s).tsk = s.tsk ∧ (abortRequestTimeout s).mem = s.mem ∧ (abortRequestTimeout s).hif = s.hif ∧ (abortRequestTimeout s).img = s.img ∧ (abortRequestTimeout s).pwr = s.pwr ∧ (abortRequestTimeout s).pending = s.pending := by
  have fr1 := @State.fixDecision_frame
  simp [abortRequestTimeout, fr1]


theorem commitTimeout_frame (s : State) :
    (commitTimeout s).pairLo = s.pairLo ∧ (commitTimeout s).pairCap = s.pairCap ∧ (commitTimeout s).free = s.free ∧ (commitTimeout s).policy = s.policy ∧ (commitTimeout s).chk = s.chk ∧ (commitTimeout s).snp = s.snp ∧ (commitTimeout s).irq = s.irq ∧ (commitTimeout s).fmt = s.fmt ∧ (commitTimeout s).arr = s.arr ∧ (commitTimeout s).vec = s.vec ∧ (commitTimeout s).mxe = s.mxe ∧ (commitTimeout s).upd = s.upd ∧ (commitTimeout s).red = s.red ∧ (commitTimeout s).tsk = s.tsk ∧ (commitTimeout s).mem = s.mem ∧ (commitTimeout s).hif = s.hif ∧ (commitTimeout s).img = s.img ∧ (commitTimeout s).pwr = s.pwr ∧ (commitTimeout s).pending = s.pending := by
  have fr1 := @State.eventLog_frame
  have fr2 := @State.modStp_frame
  have fr3 := @State.sendCtrl_frame
  simp [commitTimeout, fr1, fr2, fr3]


theorem State.sendMembers_frame (s : State) (c : CtrlMsg) :
    (State.sendMembers s c).pairLo = s.pairLo ∧ (State.sendMembers s c).pairCap = s.pairCap ∧ (State.sendMembers s c).free = s.free ∧ (State.sendMembers s c).policy = s.policy ∧ (State.sendMembers s c).err = s.err ∧ (State.sendMembers s c).chk = s.chk ∧ (State.sendMembers s c).snp = s.snp ∧ (State.sendMembers s c).irq = s.irq ∧ (State.sendMembers s c).stp = s.stp ∧ (State.sendMembers s c).fmt = s.fmt ∧ (State.sendMembers s c).arr = s.arr ∧ (State.sendMembers s c).vec = s.vec ∧ (State.sendMembers s c).mxe = s.mxe ∧ (State.sendMembers s c).upd = s.upd ∧ (State.sendMembers s c).red = s.red ∧ (State.sendMembers s c).tsk = s.tsk ∧ (State.sendMembers s c).mem = s.mem ∧ (State.sendMembers s c).hif = s.hif ∧ (State.sendMembers s c).img = s.img ∧ (State.sendMembers s c).pwr = s.pwr ∧ (State.sendMembers s c).pending = s.pending := by
  have fr1 := @State.sendCtrl_frame
  simp [State.sendMembers, fr1]


theorem secondPassTimeout_frame (s : State) :
    (secondPassTimeout s).pairLo = s.pairLo ∧ (secondPassTimeout s).pairCap = s.pairCap ∧ (secondPassTimeout s).chk = s.chk ∧ (secondPassTimeout s).snp = s.snp ∧ (secondPassTimeout s).irq = s.irq ∧ (secondPassTimeout s).vec = s.vec ∧ (secondPassTimeout s).img = s.img ∧ (secondPassTimeout s).pwr = s.pwr ∧ (secondPassTimeout s).pending = s.pending := by
  have fr1 := @State.applyDecision_frame
  have fr2 := @State.eventLog_frame
  have fr3 := @State.sendMembers_frame
  unfold secondPassTimeout; (repeat' split) <;> simp [fr1, fr2, fr3]


theorem decisionQuery_frame (c : CtrlMsg) (s : State) :
    (decisionQuery c s).pairLo = s.pairLo ∧ (decisionQuery c s).pairCap = s.pairCap ∧ (decisionQuery c s).free = s.free ∧ (decisionQuery c s).policy = s.policy ∧ (decisionQuery c s).err = s.err ∧ (decisionQuery c s).chk = s.chk ∧ (decisionQuery c s).snp = s.snp ∧ (decisionQuery c s).irq = s.irq ∧ (decisionQuery c s).stp = s.stp ∧ (decisionQuery c s).fmt = s.fmt ∧ (decisionQuery c s).arr = s.arr ∧ (decisionQuery c s).vec = s.vec ∧ (decisionQuery c s).mxe = s.mxe ∧ (decisionQuery c s).upd = s.upd ∧ (decisionQuery c s).red = s.red ∧ (decisionQuery c s).tsk = s.tsk ∧ (decisionQuery c s).mem = s.mem ∧ (decisionQuery c s).hif = s.hif ∧ (decisionQuery c s).img = s.img ∧ (decisionQuery c s).pwr = s.pwr ∧ (decisionQuery c s).pending = s.pending := by
  have fr1 := @State.sendCtrl_frame
  have fr2 := @State.takeRx_frame
  unfold decisionQuery; dsimp only; (repeat' split) <;> simp [fr1, fr2]


theorem decisionReply_frame (c : CtrlMsg) (s : State) :
    (decisionReply c s).pairLo = s.pairLo ∧ (decisionReply c s).pairCap = s.pairCap ∧ (decisionReply c s).out = s.out ∧ (decisionReply c s).chk = s.chk ∧ (decisionReply c s).snp = s.snp ∧ (decisionReply c s).irq = s.irq ∧ (decisionReply c s).vec = s.vec ∧ (decisionReply c s).img = s.img ∧ (decisionReply c s).pwr = s.pwr ∧ (decisionReply c s).pending = s.pending := by
  have fr1 := @State.takeDecision_frame
  have fr2 := @State.takeRx_frame
  unfold decisionReply; (repeat' split) <;> simp [fr1, fr2]


theorem groupHoldRelease_frame (s : State) :
    (groupHoldRelease s).regs = s.regs ∧ (groupHoldRelease s).pairLo = s.pairLo ∧ (groupHoldRelease s).pairCap = s.pairCap ∧ (groupHoldRelease s).out = s.out ∧ (groupHoldRelease s).free = s.free ∧ (groupHoldRelease s).policy = s.policy ∧ (groupHoldRelease s).err = s.err ∧ (groupHoldRelease s).chk = s.chk ∧ (groupHoldRelease s).snp = s.snp ∧ (groupHoldRelease s).irq = s.irq ∧ (groupHoldRelease s).ezl = s.ezl ∧ (groupHoldRelease s).fmt = s.fmt ∧ (groupHoldRelease s).arr = s.arr ∧ (groupHoldRelease s).vec = s.vec ∧ (groupHoldRelease s).mxe = s.mxe ∧ (groupHoldRelease s).upd = s.upd ∧ (groupHoldRelease s).red = s.red ∧ (groupHoldRelease s).tsk = s.tsk ∧ (groupHoldRelease s).mem = s.mem ∧ (groupHoldRelease s).hif = s.hif ∧ (groupHoldRelease s).img = s.img ∧ (groupHoldRelease s).pwr = s.pwr ∧ (groupHoldRelease s).pending = s.pending := by
  have fr1 := @State.modStp_frame
  simp [groupHoldRelease, fr1]


theorem State.leaveHalt_frame (s : State) (due : Boundary) :
    (State.leaveHalt s due).pairLo = s.pairLo ∧ (State.leaveHalt s due).pairCap = s.pairCap ∧ (State.leaveHalt s due).out = s.out ∧ (State.leaveHalt s due).free = s.free ∧ (State.leaveHalt s due).policy = s.policy ∧ (State.leaveHalt s due).err = s.err ∧ (State.leaveHalt s due).chk = s.chk ∧ (State.leaveHalt s due).snp = s.snp ∧ (State.leaveHalt s due).irq = s.irq ∧ (State.leaveHalt s due).ezl = s.ezl ∧ (State.leaveHalt s due).fmt = s.fmt ∧ (State.leaveHalt s due).arr = s.arr ∧ (State.leaveHalt s due).vec = s.vec ∧ (State.leaveHalt s due).mxe = s.mxe ∧ (State.leaveHalt s due).upd = s.upd ∧ (State.leaveHalt s due).red = s.red ∧ (State.leaveHalt s due).tsk = s.tsk ∧ (State.leaveHalt s due).mem = s.mem ∧ (State.leaveHalt s due).hif = s.hif ∧ (State.leaveHalt s due).img = s.img ∧ (State.leaveHalt s due).pwr = s.pwr ∧ (State.leaveHalt s due).pending = s.pending := by
  have fr1 := @State.event_frame
  have fr2 := @State.modStp_frame
  simp [State.leaveHalt, fr1, fr2]


theorem State.hostSkip_frame (s : State) :
    (State.hostSkip s).pairLo = s.pairLo ∧ (State.hostSkip s).pairCap = s.pairCap ∧ (State.hostSkip s).out = s.out ∧ (State.hostSkip s).free = s.free ∧ (State.hostSkip s).policy = s.policy ∧ (State.hostSkip s).err = s.err ∧ (State.hostSkip s).chk = s.chk ∧ (State.hostSkip s).snp = s.snp ∧ (State.hostSkip s).irq = s.irq ∧ (State.hostSkip s).ezl = s.ezl ∧ (State.hostSkip s).fmt = s.fmt ∧ (State.hostSkip s).arr = s.arr ∧ (State.hostSkip s).vec = s.vec ∧ (State.hostSkip s).mxe = s.mxe ∧ (State.hostSkip s).upd = s.upd ∧ (State.hostSkip s).red = s.red ∧ (State.hostSkip s).tsk = s.tsk ∧ (State.hostSkip s).hif = s.hif ∧ (State.hostSkip s).img = s.img ∧ (State.hostSkip s).pwr = s.pwr ∧ (State.hostSkip s).pending = s.pending := by
  have fr1 := @State.event_frame
  have fr2 := @State.leaveHalt_frame
  have fr3 := @State.modStp_frame
  have fr4 := @State.setRegN_frame
  have fr5 := @State.writeRecord_frame
  simp [State.hostSkip, fr1, fr2, fr3, fr4, fr5]


theorem State.hostRepeat_frame (s : State) :
    (State.hostRepeat s).pairLo = s.pairLo ∧ (State.hostRepeat s).pairCap = s.pairCap ∧ (State.hostRepeat s).out = s.out ∧ (State.hostRepeat s).free = s.free ∧ (State.hostRepeat s).policy = s.policy ∧ (State.hostRepeat s).err = s.err ∧ (State.hostRepeat s).chk = s.chk ∧ (State.hostRepeat s).snp = s.snp ∧ (State.hostRepeat s).irq = s.irq ∧ (State.hostRepeat s).ezl = s.ezl ∧ (State.hostRepeat s).fmt = s.fmt ∧ (State.hostRepeat s).arr = s.arr ∧ (State.hostRepeat s).vec = s.vec ∧ (State.hostRepeat s).mxe = s.mxe ∧ (State.hostRepeat s).upd = s.upd ∧ (State.hostRepeat s).red = s.red ∧ (State.hostRepeat s).tsk = s.tsk ∧ (State.hostRepeat s).mem = s.mem ∧ (State.hostRepeat s).hif = s.hif ∧ (State.hostRepeat s).img = s.img ∧ (State.hostRepeat s).pwr = s.pwr ∧ (State.hostRepeat s).pending = s.pending := by
  have fr1 := @State.leaveHalt_frame
  simp [State.hostRepeat, fr1]


theorem decisionDirect_frame (c : CtrlMsg) (s : State) :
    (decisionDirect c s).pairLo = s.pairLo ∧ (decisionDirect c s).pairCap = s.pairCap ∧ (decisionDirect c s).out = s.out ∧ (decisionDirect c s).chk = s.chk ∧ (decisionDirect c s).snp = s.snp ∧ (decisionDirect c s).irq = s.irq ∧ (decisionDirect c s).vec = s.vec ∧ (decisionDirect c s).img = s.img ∧ (decisionDirect c s).pwr = s.pwr ∧ (decisionDirect c s).pending = s.pending := by
  have fr1 := @State.hostRepeat_frame
  have fr2 := @State.hostSkip_frame
  have fr3 := @State.takeDecision_frame
  have fr4 := @State.takeRx_frame
  unfold decisionDirect; (repeat' split) <;> simp [fr1, fr2, fr3, fr4]


theorem stepDecideNone_frame (rq : Requester) (s : State) :
    (stepDecideNone rq s).pairLo = s.pairLo ∧ (stepDecideNone rq s).pairCap = s.pairCap ∧ (stepDecideNone rq s).out = s.out ∧ (stepDecideNone rq s).free = s.free ∧ (stepDecideNone rq s).policy = s.policy ∧ (stepDecideNone rq s).chk = s.chk ∧ (stepDecideNone rq s).snp = s.snp ∧ (stepDecideNone rq s).irq = s.irq ∧ (stepDecideNone rq s).ezl = s.ezl ∧ (stepDecideNone rq s).stp = s.stp ∧ (stepDecideNone rq s).fmt = s.fmt ∧ (stepDecideNone rq s).arr = s.arr ∧ (stepDecideNone rq s).vec = s.vec ∧ (stepDecideNone rq s).mxe = s.mxe ∧ (stepDecideNone rq s).upd = s.upd ∧ (stepDecideNone rq s).red = s.red ∧ (stepDecideNone rq s).tsk = s.tsk ∧ (stepDecideNone rq s).mem = s.mem ∧ (stepDecideNone rq s).hif = s.hif ∧ (stepDecideNone rq s).img = s.img ∧ (stepDecideNone rq s).pwr = s.pwr ∧ (stepDecideNone rq s).pending = s.pending := by
  have fr1 := @State.refuseWrite_frame
  simp [stepDecideNone, fr1]


theorem stepDecideRepeat_frame (rq : Requester) (s : State) :
    (stepDecideRepeat rq s).pairLo = s.pairLo ∧ (stepDecideRepeat rq s).pairCap = s.pairCap ∧ (stepDecideRepeat rq s).free = s.free ∧ (stepDecideRepeat rq s).policy = s.policy ∧ (stepDecideRepeat rq s).chk = s.chk ∧ (stepDecideRepeat rq s).snp = s.snp ∧ (stepDecideRepeat rq s).irq = s.irq ∧ (stepDecideRepeat rq s).fmt = s.fmt ∧ (stepDecideRepeat rq s).arr = s.arr ∧ (stepDecideRepeat rq s).vec = s.vec ∧ (stepDecideRepeat rq s).mxe = s.mxe ∧ (stepDecideRepeat rq s).upd = s.upd ∧ (stepDecideRepeat rq s).red = s.red ∧ (stepDecideRepeat rq s).tsk = s.tsk ∧ (stepDecideRepeat rq s).mem = s.mem ∧ (stepDecideRepeat rq s).hif = s.hif ∧ (stepDecideRepeat rq s).img = s.img ∧ (stepDecideRepeat rq s).pwr = s.pwr ∧ (stepDecideRepeat rq s).pending = s.pending := by
  have fr1 := @State.hostRepeat_frame
  have fr2 := @State.refuseWrite_frame
  have fr3 := @State.sendMembers_frame
  simp [stepDecideRepeat, fr1, fr2, fr3]


theorem stepDecideSkip_frame (rq : Requester) (s : State) :
    (stepDecideSkip rq s).pairLo = s.pairLo ∧ (stepDecideSkip rq s).pairCap = s.pairCap ∧ (stepDecideSkip rq s).free = s.free ∧ (stepDecideSkip rq s).policy = s.policy ∧ (stepDecideSkip rq s).chk = s.chk ∧ (stepDecideSkip rq s).snp = s.snp ∧ (stepDecideSkip rq s).irq = s.irq ∧ (stepDecideSkip rq s).fmt = s.fmt ∧ (stepDecideSkip rq s).arr = s.arr ∧ (stepDecideSkip rq s).vec = s.vec ∧ (stepDecideSkip rq s).mxe = s.mxe ∧ (stepDecideSkip rq s).upd = s.upd ∧ (stepDecideSkip rq s).red = s.red ∧ (stepDecideSkip rq s).tsk = s.tsk ∧ (stepDecideSkip rq s).hif = s.hif ∧ (stepDecideSkip rq s).img = s.img ∧ (stepDecideSkip rq s).pwr = s.pwr ∧ (stepDecideSkip rq s).pending = s.pending := by
  have fr1 := @State.hostSkip_frame
  have fr2 := @State.refuseWrite_frame
  have fr3 := @State.sendMembers_frame
  simp [stepDecideSkip, fr1, fr2, fr3]


theorem stepDecideStop_frame (rq : Requester) (s : State) :
    (stepDecideStop rq s).pairLo = s.pairLo ∧ (stepDecideStop rq s).pairCap = s.pairCap ∧ (stepDecideStop rq s).out = s.out ∧ (stepDecideStop rq s).free = s.free ∧ (stepDecideStop rq s).policy = s.policy ∧ (stepDecideStop rq s).chk = s.chk ∧ (stepDecideStop rq s).snp = s.snp ∧ (stepDecideStop rq s).irq = s.irq ∧ (stepDecideStop rq s).ezl = s.ezl ∧ (stepDecideStop rq s).stp = s.stp ∧ (stepDecideStop rq s).fmt = s.fmt ∧ (stepDecideStop rq s).arr = s.arr ∧ (stepDecideStop rq s).vec = s.vec ∧ (stepDecideStop rq s).mxe = s.mxe ∧ (stepDecideStop rq s).upd = s.upd ∧ (stepDecideStop rq s).red = s.red ∧ (stepDecideStop rq s).tsk = s.tsk ∧ (stepDecideStop rq s).mem = s.mem ∧ (stepDecideStop rq s).hif = s.hif ∧ (stepDecideStop rq s).img = s.img ∧ (stepDecideStop rq s).pwr = s.pwr ∧ (stepDecideStop rq s).pending = s.pending := by
  have fr1 := @State.refuseWrite_frame
  simp [stepDecideStop, fr1]


theorem calReadStart_frame (k : Nat) (s : State) :
    (calReadStart k s).pairLo = s.pairLo ∧ (calReadStart k s).pairCap = s.pairCap ∧ (calReadStart k s).out = s.out ∧ (calReadStart k s).free = s.free ∧ (calReadStart k s).policy = s.policy ∧ (calReadStart k s).err = s.err ∧ (calReadStart k s).chk = s.chk ∧ (calReadStart k s).snp = s.snp ∧ (calReadStart k s).irq = s.irq ∧ (calReadStart k s).ezl = s.ezl ∧ (calReadStart k s).stp = s.stp ∧ (calReadStart k s).fmt = s.fmt ∧ (calReadStart k s).vec = s.vec ∧ (calReadStart k s).mxe = s.mxe ∧ (calReadStart k s).upd = s.upd ∧ (calReadStart k s).red = s.red ∧ (calReadStart k s).tsk = s.tsk ∧ (calReadStart k s).mem = s.mem ∧ (calReadStart k s).hif = s.hif ∧ (calReadStart k s).img = s.img ∧ (calReadStart k s).pwr = s.pwr ∧ (calReadStart k s).pending = s.pending := by
  have fr1 := @State.notePeak_frame
  have fr2 := @State.setPhys_frame
  unfold calReadStart; (repeat' split) <;> simp [fr1, fr2]


theorem calReadComplete_frame (k a : Nat) (codes : List Nat) (t : Word) (s : State) :
    (calReadComplete k a codes t s).regs = s.regs ∧ (calReadComplete k a codes t s).pairLo = s.pairLo ∧ (calReadComplete k a codes t s).pairCap = s.pairCap ∧ (calReadComplete k a codes t s).out = s.out ∧ (calReadComplete k a codes t s).free = s.free ∧ (calReadComplete k a codes t s).policy = s.policy ∧ (calReadComplete k a codes t s).err = s.err ∧ (calReadComplete k a codes t s).chk = s.chk ∧ (calReadComplete k a codes t s).snp = s.snp ∧ (calReadComplete k a codes t s).irq = s.irq ∧ (calReadComplete k a codes t s).ezl = s.ezl ∧ (calReadComplete k a codes t s).stp = s.stp ∧ (calReadComplete k a codes t s).fmt = s.fmt ∧ (calReadComplete k a codes t s).vec = s.vec ∧ (calReadComplete k a codes t s).mxe = s.mxe ∧ (calReadComplete k a codes t s).upd = s.upd ∧ (calReadComplete k a codes t s).red = s.red ∧ (calReadComplete k a codes t s).tsk = s.tsk ∧ (calReadComplete k a codes t s).mem = s.mem ∧ (calReadComplete k a codes t s).hif = s.hif ∧ (calReadComplete k a codes t s).img = s.img ∧ (calReadComplete k a codes t s).pwr = s.pwr ∧ (calReadComplete k a codes t s).pending = s.pending := by
  have fr1 := @State.setPhys_frame
  simp [calReadComplete, fr1]


theorem forcedRead_frame (k a : Nat) (s : State) :
    (forcedRead k a s).pairLo = s.pairLo ∧ (forcedRead k a s).pairCap = s.pairCap ∧ (forcedRead k a s).out = s.out ∧ (forcedRead k a s).free = s.free ∧ (forcedRead k a s).policy = s.policy ∧ (forcedRead k a s).err = s.err ∧ (forcedRead k a s).chk = s.chk ∧ (forcedRead k a s).snp = s.snp ∧ (forcedRead k a s).irq = s.irq ∧ (forcedRead k a s).ezl = s.ezl ∧ (forcedRead k a s).stp = s.stp ∧ (forcedRead k a s).fmt = s.fmt ∧ (forcedRead k a s).vec = s.vec ∧ (forcedRead k a s).mxe = s.mxe ∧ (forcedRead k a s).upd = s.upd ∧ (forcedRead k a s).red = s.red ∧ (forcedRead k a s).tsk = s.tsk ∧ (forcedRead k a s).mem = s.mem ∧ (forcedRead k a s).hif = s.hif ∧ (forcedRead k a s).img = s.img ∧ (forcedRead k a s).pwr = s.pwr ∧ (forcedRead k a s).pending = s.pending := by
  have fr1 := @State.event_frame
  have fr2 := @State.setPhys_frame
  simp [forcedRead, fr1, fr2]


theorem calStarved_frame (k a : Nat) (s : State) :
    (calStarved k a s).pairLo = s.pairLo ∧ (calStarved k a s).pairCap = s.pairCap ∧ (calStarved k a s).out = s.out ∧ (calStarved k a s).free = s.free ∧ (calStarved k a s).policy = s.policy ∧ (calStarved k a s).err = s.err ∧ (calStarved k a s).chk = s.chk ∧ (calStarved k a s).snp = s.snp ∧ (calStarved k a s).irq = s.irq ∧ (calStarved k a s).ezl = s.ezl ∧ (calStarved k a s).stp = s.stp ∧ (calStarved k a s).fmt = s.fmt ∧ (calStarved k a s).arr = s.arr ∧ (calStarved k a s).vec = s.vec ∧ (calStarved k a s).mxe = s.mxe ∧ (calStarved k a s).upd = s.upd ∧ (calStarved k a s).red = s.red ∧ (calStarved k a s).tsk = s.tsk ∧ (calStarved k a s).mem = s.mem ∧ (calStarved k a s).hif = s.hif ∧ (calStarved k a s).img = s.img ∧ (calStarved k a s).pwr = s.pwr ∧ (calStarved k a s).pending = s.pending := by
  have fr1 := @State.event_frame
  simp [calStarved, fr1]


theorem State.estimateTriggers_frame (s : State) (k a : Nat) :
    (State.estimateTriggers s k a).pairLo = s.pairLo ∧ (State.estimateTriggers s k a).pairCap = s.pairCap ∧ (State.estimateTriggers s k a).out = s.out ∧ (State.estimateTriggers s k a).free = s.free ∧ (State.estimateTriggers s k a).policy = s.policy ∧ (State.estimateTriggers s k a).err = s.err ∧ (State.estimateTriggers s k a).chk = s.chk ∧ (State.estimateTriggers s k a).snp = s.snp ∧ (State.estimateTriggers s k a).irq = s.irq ∧ (State.estimateTriggers s k a).ezl = s.ezl ∧ (State.estimateTriggers s k a).stp = s.stp ∧ (State.estimateTriggers s k a).fmt = s.fmt ∧ (State.estimateTriggers s k a).vec = s.vec ∧ (State.estimateTriggers s k a).mxe = s.mxe ∧ (State.estimateTriggers s k a).upd = s.upd ∧ (State.estimateTriggers s k a).red = s.red ∧ (State.estimateTriggers s k a).tsk = s.tsk ∧ (State.estimateTriggers s k a).mem = s.mem ∧ (State.estimateTriggers s k a).hif = s.hif ∧ (State.estimateTriggers s k a).img = s.img ∧ (State.estimateTriggers s k a).pwr = s.pwr ∧ (State.estimateTriggers s k a).pending = s.pending := by
  have fr1 := @State.event_frame
  have fr2 := @State.queueJob_frame
  unfold State.estimateTriggers; (repeat' split) <;> simp [fr1, fr2]


theorem arrayFit_frame (k a : Nat) (s : State) :
    (arrayFit k a s).pairLo = s.pairLo ∧ (arrayFit k a s).pairCap = s.pairCap ∧ (arrayFit k a s).out = s.out ∧ (arrayFit k a s).free = s.free ∧ (arrayFit k a s).policy = s.policy ∧ (arrayFit k a s).err = s.err ∧ (arrayFit k a s).chk = s.chk ∧ (arrayFit k a s).snp = s.snp ∧ (arrayFit k a s).irq = s.irq ∧ (arrayFit k a s).ezl = s.ezl ∧ (arrayFit k a s).stp = s.stp ∧ (arrayFit k a s).fmt = s.fmt ∧ (arrayFit k a s).vec = s.vec ∧ (arrayFit k a s).mxe = s.mxe ∧ (arrayFit k a s).upd = s.upd ∧ (arrayFit k a s).red = s.red ∧ (arrayFit k a s).tsk = s.tsk ∧ (arrayFit k a s).mem = s.mem ∧ (arrayFit k a s).hif = s.hif ∧ (arrayFit k a s).img = s.img ∧ (arrayFit k a s).pwr = s.pwr ∧ (arrayFit k a s).pending = s.pending := by
  have fr1 := @State.estimateTriggers_frame
  have fr2 := @State.setPhys_frame
  simp [arrayFit, fr1, fr2]


theorem trimPublication_frame (k : Nat) (s : State) :
    (trimPublication k s).pairLo = s.pairLo ∧ (trimPublication k s).pairCap = s.pairCap ∧ (trimPublication k s).out = s.out ∧ (trimPublication k s).free = s.free ∧ (trimPublication k s).policy = s.policy ∧ (trimPublication k s).err = s.err ∧ (trimPublication k s).chk = s.chk ∧ (trimPublication k s).snp = s.snp ∧ (trimPublication k s).irq = s.irq ∧ (trimPublication k s).ezl = s.ezl ∧ (trimPublication k s).stp = s.stp ∧ (trimPublication k s).fmt = s.fmt ∧ (trimPublication k s).vec = s.vec ∧ (trimPublication k s).mxe = s.mxe ∧ (trimPublication k s).upd = s.upd ∧ (trimPublication k s).red = s.red ∧ (trimPublication k s).tsk = s.tsk ∧ (trimPublication k s).mem = s.mem ∧ (trimPublication k s).hif = s.hif ∧ (trimPublication k s).img = s.img ∧ (trimPublication k s).pwr = s.pwr ∧ (trimPublication k s).pending = s.pending := by
  have fr1 := @State.publish_frame
  simp [trimPublication, fr1]


theorem State.refuseProg_frame (s : State) (rq : Requester) (k cmd pos cause : Nat) :
    (State.refuseProg s rq k cmd pos cause).pairLo = s.pairLo ∧ (State.refuseProg s rq k cmd pos cause).pairCap = s.pairCap ∧ (State.refuseProg s rq k cmd pos cause).out = s.out ∧ (State.refuseProg s rq k cmd pos cause).free = s.free ∧ (State.refuseProg s rq k cmd pos cause).policy = s.policy ∧ (State.refuseProg s rq k cmd pos cause).chk = s.chk ∧ (State.refuseProg s rq k cmd pos cause).snp = s.snp ∧ (State.refuseProg s rq k cmd pos cause).irq = s.irq ∧ (State.refuseProg s rq k cmd pos cause).ezl = s.ezl ∧ (State.refuseProg s rq k cmd pos cause).stp = s.stp ∧ (State.refuseProg s rq k cmd pos cause).fmt = s.fmt ∧ (State.refuseProg s rq k cmd pos cause).arr = s.arr ∧ (State.refuseProg s rq k cmd pos cause).vec = s.vec ∧ (State.refuseProg s rq k cmd pos cause).mxe = s.mxe ∧ (State.refuseProg s rq k cmd pos cause).upd = s.upd ∧ (State.refuseProg s rq k cmd pos cause).red = s.red ∧ (State.refuseProg s rq k cmd pos cause).tsk = s.tsk ∧ (State.refuseProg s rq k cmd pos cause).mem = s.mem ∧ (State.refuseProg s rq k cmd pos cause).hif = s.hif ∧ (State.refuseProg s rq k cmd pos cause).img = s.img ∧ (State.refuseProg s rq k cmd pos cause).pwr = s.pwr ∧ (State.refuseProg s rq k cmd pos cause).pending = s.pending := by
  have fr1 := @State.refuseWrite_frame
  simp [State.refuseProg, fr1]


theorem publishCmd_frame (rq : Requester) (k pos : Nat) (s : State) :
    (publishCmd rq k pos s).pairLo = s.pairLo ∧ (publishCmd rq k pos s).pairCap = s.pairCap ∧ (publishCmd rq k pos s).out = s.out ∧ (publishCmd rq k pos s).free = s.free ∧ (publishCmd rq k pos s).policy = s.policy ∧ (publishCmd rq k pos s).chk = s.chk ∧ (publishCmd rq k pos s).snp = s.snp ∧ (publishCmd rq k pos s).irq = s.irq ∧ (publishCmd rq k pos s).ezl = s.ezl ∧ (publishCmd rq k pos s).stp = s.stp ∧ (publishCmd rq k pos s).fmt = s.fmt ∧ (publishCmd rq k pos s).vec = s.vec ∧ (publishCmd rq k pos s).mxe = s.mxe ∧ (publishCmd rq k pos s).upd = s.upd ∧ (publishCmd rq k pos s).red = s.red ∧ (publishCmd rq k pos s).tsk = s.tsk ∧ (publishCmd rq k pos s).mem = s.mem ∧ (publishCmd rq k pos s).hif = s.hif ∧ (publishCmd rq k pos s).img = s.img ∧ (publishCmd rq k pos s).pwr = s.pwr ∧ (publishCmd rq k pos s).pending = s.pending := by
  have fr1 := @State.publish_frame
  have fr2 := @State.refuseProg_frame
  simp [publishCmd, fr1, fr2]


theorem refreshCmd_frame (rq : Requester) (k pos : Nat) (s : State) :
    (refreshCmd rq k pos s).pairLo = s.pairLo ∧ (refreshCmd rq k pos s).pairCap = s.pairCap ∧ (refreshCmd rq k pos s).out = s.out ∧ (refreshCmd rq k pos s).free = s.free ∧ (refreshCmd rq k pos s).policy = s.policy ∧ (refreshCmd rq k pos s).chk = s.chk ∧ (refreshCmd rq k pos s).snp = s.snp ∧ (refreshCmd rq k pos s).irq = s.irq ∧ (refreshCmd rq k pos s).ezl = s.ezl ∧ (refreshCmd rq k pos s).stp = s.stp ∧ (refreshCmd rq k pos s).fmt = s.fmt ∧ (refreshCmd rq k pos s).vec = s.vec ∧ (refreshCmd rq k pos s).mxe = s.mxe ∧ (refreshCmd rq k pos s).upd = s.upd ∧ (refreshCmd rq k pos s).red = s.red ∧ (refreshCmd rq k pos s).tsk = s.tsk ∧ (refreshCmd rq k pos s).mem = s.mem ∧ (refreshCmd rq k pos s).hif = s.hif ∧ (refreshCmd rq k pos s).img = s.img ∧ (refreshCmd rq k pos s).pwr = s.pwr ∧ (refreshCmd rq k pos s).pending = s.pending := by
  have fr1 := @State.queueJob_frame
  have fr2 := @State.refuseProg_frame
  unfold refreshCmd; (repeat' split) <;> simp [fr1, fr2]


theorem State.markLoad_frame (s : State) (d p : Nat) :
    (State.markLoad s d p).regs = s.regs ∧ (State.markLoad s d p).pairLo = s.pairLo ∧ (State.markLoad s d p).pairCap = s.pairCap ∧ (State.markLoad s d p).out = s.out ∧ (State.markLoad s d p).free = s.free ∧ (State.markLoad s d p).policy = s.policy ∧ (State.markLoad s d p).err = s.err ∧ (State.markLoad s d p).chk = s.chk ∧ (State.markLoad s d p).snp = s.snp ∧ (State.markLoad s d p).irq = s.irq ∧ (State.markLoad s d p).ezl = s.ezl ∧ (State.markLoad s d p).stp = s.stp ∧ (State.markLoad s d p).fmt = s.fmt ∧ (State.markLoad s d p).vec = s.vec ∧ (State.markLoad s d p).mxe = s.mxe ∧ (State.markLoad s d p).upd = s.upd ∧ (State.markLoad s d p).red = s.red ∧ (State.markLoad s d p).tsk = s.tsk ∧ (State.markLoad s d p).mem = s.mem ∧ (State.markLoad s d p).hif = s.hif ∧ (State.markLoad s d p).img = s.img ∧ (State.markLoad s d p).pwr = s.pwr ∧ (State.markLoad s d p).pending = s.pending := by
  have fr1 := @State.setKao_frame
  simp [State.markLoad, fr1]


theorem loadCmd_frame (rq : Requester) (k pos : Nat) (s : State) :
    (loadCmd rq k pos s).pairLo = s.pairLo ∧ (loadCmd rq k pos s).pairCap = s.pairCap ∧ (loadCmd rq k pos s).out = s.out ∧ (loadCmd rq k pos s).free = s.free ∧ (loadCmd rq k pos s).policy = s.policy ∧ (loadCmd rq k pos s).chk = s.chk ∧ (loadCmd rq k pos s).snp = s.snp ∧ (loadCmd rq k pos s).irq = s.irq ∧ (loadCmd rq k pos s).ezl = s.ezl ∧ (loadCmd rq k pos s).stp = s.stp ∧ (loadCmd rq k pos s).fmt = s.fmt ∧ (loadCmd rq k pos s).vec = s.vec ∧ (loadCmd rq k pos s).mxe = s.mxe ∧ (loadCmd rq k pos s).upd = s.upd ∧ (loadCmd rq k pos s).red = s.red ∧ (loadCmd rq k pos s).tsk = s.tsk ∧ (loadCmd rq k pos s).mem = s.mem ∧ (loadCmd rq k pos s).hif = s.hif ∧ (loadCmd rq k pos s).img = s.img ∧ (loadCmd rq k pos s).pwr = s.pwr ∧ (loadCmd rq k pos s).pending = s.pending := by
  have fr1 := @State.markLoad_frame
  have fr2 := @State.queueJob_frame
  have fr3 := @State.refuseProg_frame
  simp [loadCmd, fr1, fr2, fr3]


theorem readbackCmd_frame (rq : Requester) (k pos : Nat) (s : State) :
    (readbackCmd rq k pos s).pairLo = s.pairLo ∧ (readbackCmd rq k pos s).pairCap = s.pairCap ∧ (readbackCmd rq k pos s).out = s.out ∧ (readbackCmd rq k pos s).free = s.free ∧ (readbackCmd rq k pos s).policy = s.policy ∧ (readbackCmd rq k pos s).chk = s.chk ∧ (readbackCmd rq k pos s).snp = s.snp ∧ (readbackCmd rq k pos s).irq = s.irq ∧ (readbackCmd rq k pos s).ezl = s.ezl ∧ (readbackCmd rq k pos s).stp = s.stp ∧ (readbackCmd rq k pos s).fmt = s.fmt ∧ (readbackCmd rq k pos s).vec = s.vec ∧ (readbackCmd rq k pos s).mxe = s.mxe ∧ (readbackCmd rq k pos s).upd = s.upd ∧ (readbackCmd rq k pos s).red = s.red ∧ (readbackCmd rq k pos s).tsk = s.tsk ∧ (readbackCmd rq k pos s).mem = s.mem ∧ (readbackCmd rq k pos s).hif = s.hif ∧ (readbackCmd rq k pos s).img = s.img ∧ (readbackCmd rq k pos s).pwr = s.pwr ∧ (readbackCmd rq k pos s).pending = s.pending := by
  have fr1 := @State.refuseProg_frame
  have fr2 := @State.setPos_frame
  simp [readbackCmd, fr1, fr2]


theorem readbackSegment_frame (k pos : Nat) (lv : List (Nat × Nat)) (s : State) :
    (readbackSegment k pos lv s).pairLo = s.pairLo ∧ (readbackSegment k pos lv s).pairCap = s.pairCap ∧ (readbackSegment k pos lv s).out = s.out ∧ (readbackSegment k pos lv s).free = s.free ∧ (readbackSegment k pos lv s).policy = s.policy ∧ (readbackSegment k pos lv s).err = s.err ∧ (readbackSegment k pos lv s).chk = s.chk ∧ (readbackSegment k pos lv s).snp = s.snp ∧ (readbackSegment k pos lv s).irq = s.irq ∧ (readbackSegment k pos lv s).ezl = s.ezl ∧ (readbackSegment k pos lv s).stp = s.stp ∧ (readbackSegment k pos lv s).fmt = s.fmt ∧ (readbackSegment k pos lv s).vec = s.vec ∧ (readbackSegment k pos lv s).mxe = s.mxe ∧ (readbackSegment k pos lv s).upd = s.upd ∧ (readbackSegment k pos lv s).red = s.red ∧ (readbackSegment k pos lv s).tsk = s.tsk ∧ (readbackSegment k pos lv s).hif = s.hif ∧ (readbackSegment k pos lv s).img = s.img ∧ (readbackSegment k pos lv s).pwr = s.pwr ∧ (readbackSegment k pos lv s).pending = s.pending := by
  have fr1 := @State.hbmWrite_frame
  have fr2 := @State.notePeak_frame
  have fr3 := @State.setPhys_frame
  have fr4 := @State.setPos_frame
  unfold readbackSegment; (repeat' split) <;> simp [fr1, fr2, fr3, fr4]


theorem refreshAgeExpiry_frame (k pos : Nat) (s : State) :
    (refreshAgeExpiry k pos s).pairLo = s.pairLo ∧ (refreshAgeExpiry k pos s).pairCap = s.pairCap ∧ (refreshAgeExpiry k pos s).out = s.out ∧ (refreshAgeExpiry k pos s).free = s.free ∧ (refreshAgeExpiry k pos s).policy = s.policy ∧ (refreshAgeExpiry k pos s).err = s.err ∧ (refreshAgeExpiry k pos s).chk = s.chk ∧ (refreshAgeExpiry k pos s).snp = s.snp ∧ (refreshAgeExpiry k pos s).irq = s.irq ∧ (refreshAgeExpiry k pos s).ezl = s.ezl ∧ (refreshAgeExpiry k pos s).stp = s.stp ∧ (refreshAgeExpiry k pos s).fmt = s.fmt ∧ (refreshAgeExpiry k pos s).vec = s.vec ∧ (refreshAgeExpiry k pos s).mxe = s.mxe ∧ (refreshAgeExpiry k pos s).upd = s.upd ∧ (refreshAgeExpiry k pos s).red = s.red ∧ (refreshAgeExpiry k pos s).tsk = s.tsk ∧ (refreshAgeExpiry k pos s).mem = s.mem ∧ (refreshAgeExpiry k pos s).hif = s.hif ∧ (refreshAgeExpiry k pos s).img = s.img ∧ (refreshAgeExpiry k pos s).pwr = s.pwr ∧ (refreshAgeExpiry k pos s).pending = s.pending := by
  have fr1 := @State.queueJob_frame
  unfold refreshAgeExpiry; (repeat' split) <;> simp [fr1]


theorem progJobStart_frame (k : Nat) (s : State) :
    (progJobStart k s).regs = s.regs ∧ (progJobStart k s).pairLo = s.pairLo ∧ (progJobStart k s).pairCap = s.pairCap ∧ (progJobStart k s).out = s.out ∧ (progJobStart k s).free = s.free ∧ (progJobStart k s).policy = s.policy ∧ (progJobStart k s).err = s.err ∧ (progJobStart k s).chk = s.chk ∧ (progJobStart k s).snp = s.snp ∧ (progJobStart k s).irq = s.irq ∧ (progJobStart k s).ezl = s.ezl ∧ (progJobStart k s).stp = s.stp ∧ (progJobStart k s).fmt = s.fmt ∧ (progJobStart k s).vec = s.vec ∧ (progJobStart k s).mxe = s.mxe ∧ (progJobStart k s).upd = s.upd ∧ (progJobStart k s).red = s.red ∧ (progJobStart k s).tsk = s.tsk ∧ (progJobStart k s).mem = s.mem ∧ (progJobStart k s).hif = s.hif ∧ (progJobStart k s).img = s.img ∧ (progJobStart k s).pwr = s.pwr ∧ (progJobStart k s).pending = s.pending := by
  have fr1 := @State.setKao_frame
  have fr2 := @State.setPhys_frame
  have fr3 := @State.setPos_frame
  have fr4 := @State.setTile_frame
  unfold progJobStart; (repeat' split) <;> simp [fr1, fr2, fr3, fr4]


theorem State.requeue_frame (s : State) (k t : Nat) (cls : Nat) :
    (State.requeue s k t cls).regs = s.regs ∧ (State.requeue s k t cls).pairLo = s.pairLo ∧ (State.requeue s k t cls).pairCap = s.pairCap ∧ (State.requeue s k t cls).out = s.out ∧ (State.requeue s k t cls).free = s.free ∧ (State.requeue s k t cls).policy = s.policy ∧ (State.requeue s k t cls).err = s.err ∧ (State.requeue s k t cls).chk = s.chk ∧ (State.requeue s k t cls).snp = s.snp ∧ (State.requeue s k t cls).irq = s.irq ∧ (State.requeue s k t cls).ezl = s.ezl ∧ (State.requeue s k t cls).stp = s.stp ∧ (State.requeue s k t cls).fmt = s.fmt ∧ (State.requeue s k t cls).vec = s.vec ∧ (State.requeue s k t cls).mxe = s.mxe ∧ (State.requeue s k t cls).upd = s.upd ∧ (State.requeue s k t cls).red = s.red ∧ (State.requeue s k t cls).tsk = s.tsk ∧ (State.requeue s k t cls).mem = s.mem ∧ (State.requeue s k t cls).hif = s.hif ∧ (State.requeue s k t cls).img = s.img ∧ (State.requeue s k t cls).pwr = s.pwr ∧ (State.requeue s k t cls).pending = s.pending := by
  have fr1 := @State.setKao_frame
  have fr2 := @State.setPhys_frame
  have fr3 := @State.setTile_frame
  unfold State.requeue; (repeat' split) <;> simp [fr1, fr2, fr3]


theorem State.retireSpare_frame (s : State) (k t slot : Nat) :
    (State.retireSpare s k t slot).pairLo = s.pairLo ∧ (State.retireSpare s k t slot).pairCap = s.pairCap ∧ (State.retireSpare s k t slot).out = s.out ∧ (State.retireSpare s k t slot).free = s.free ∧ (State.retireSpare s k t slot).policy = s.policy ∧ (State.retireSpare s k t slot).chk = s.chk ∧ (State.retireSpare s k t slot).snp = s.snp ∧ (State.retireSpare s k t slot).irq = s.irq ∧ (State.retireSpare s k t slot).ezl = s.ezl ∧ (State.retireSpare s k t slot).stp = s.stp ∧ (State.retireSpare s k t slot).fmt = s.fmt ∧ (State.retireSpare s k t slot).vec = s.vec ∧ (State.retireSpare s k t slot).mxe = s.mxe ∧ (State.retireSpare s k t slot).upd = s.upd ∧ (State.retireSpare s k t slot).red = s.red ∧ (State.retireSpare s k t slot).tsk = s.tsk ∧ (State.retireSpare s k t slot).mem = s.mem ∧ (State.retireSpare s k t slot).hif = s.hif ∧ (State.retireSpare s k t slot).img = s.img ∧ (State.retireSpare s k t slot).pwr = s.pwr ∧ (State.retireSpare s k t slot).pending = s.pending := by
  have fr1 := @State.enterNone_frame
  have fr2 := @State.log_frame
  have fr3 := @State.retireArray_frame
  have fr4 := @State.setTile_frame
  simp [State.retireSpare, fr1, fr2, fr3, fr4]


theorem State.rowLeft_frame (s : State) (k t : Nat) (run : RunJob) (rest : List Nat) (reads : RowReads) (y : PhysSt) :
    (State.rowLeft s k t run rest reads y).pairLo = s.pairLo ∧ (State.rowLeft s k t run rest reads y).pairCap = s.pairCap ∧ (State.rowLeft s k t run rest reads y).out = s.out ∧ (State.rowLeft s k t run rest reads y).free = s.free ∧ (State.rowLeft s k t run rest reads y).policy = s.policy ∧ (State.rowLeft s k t run rest reads y).err = s.err ∧ (State.rowLeft s k t run rest reads y).chk = s.chk ∧ (State.rowLeft s k t run rest reads y).snp = s.snp ∧ (State.rowLeft s k t run rest reads y).irq = s.irq ∧ (State.rowLeft s k t run rest reads y).ezl = s.ezl ∧ (State.rowLeft s k t run rest reads y).stp = s.stp ∧ (State.rowLeft s k t run rest reads y).fmt = s.fmt ∧ (State.rowLeft s k t run rest reads y).vec = s.vec ∧ (State.rowLeft s k t run rest reads y).mxe = s.mxe ∧ (State.rowLeft s k t run rest reads y).upd = s.upd ∧ (State.rowLeft s k t run rest reads y).red = s.red ∧ (State.rowLeft s k t run rest reads y).tsk = s.tsk ∧ (State.rowLeft s k t run rest reads y).mem = s.mem ∧ (State.rowLeft s k t run rest reads y).hif = s.hif ∧ (State.rowLeft s k t run rest reads y).img = s.img ∧ (State.rowLeft s k t run rest reads y).pwr = s.pwr ∧ (State.rowLeft s k t run rest reads y).pending = s.pending := by
  have fr1 := @State.incPair_frame
  have fr2 := @State.setPhys_frame
  have fr3 := @State.setTile_frame
  simp [State.rowLeft, fr1, fr2, fr3]


theorem progRow_frame (k t : Nat) (reads : RowReads) (s : State) :
    (progRow k t reads s).pairLo = s.pairLo ∧ (progRow k t reads s).pairCap = s.pairCap ∧ (progRow k t reads s).out = s.out ∧ (progRow k t reads s).free = s.free ∧ (progRow k t reads s).policy = s.policy ∧ (progRow k t reads s).chk = s.chk ∧ (progRow k t reads s).snp = s.snp ∧ (progRow k t reads s).irq = s.irq ∧ (progRow k t reads s).ezl = s.ezl ∧ (progRow k t reads s).stp = s.stp ∧ (progRow k t reads s).fmt = s.fmt ∧ (progRow k t reads s).vec = s.vec ∧ (progRow k t reads s).mxe = s.mxe ∧ (progRow k t reads s).upd = s.upd ∧ (progRow k t reads s).red = s.red ∧ (progRow k t reads s).tsk = s.tsk ∧ (progRow k t reads s).mem = s.mem ∧ (progRow k t reads s).hif = s.hif ∧ (progRow k t reads s).img = s.img ∧ (progRow k t reads s).pwr = s.pwr ∧ (progRow k t reads s).pending = s.pending := by
  have fr1 := @State.event_frame
  have fr2 := @State.log_frame
  have fr3 := @State.requeue_frame
  have fr4 := @State.retireSpare_frame
  have fr5 := @State.rowLeft_frame
  have fr6 := @State.setTile_frame
  have fr7 := @State.incPair_frame
  have fr8 := @State.setPhys_frame
  unfold progRow; (repeat' split) <;> simp [fr1, fr2, fr3, fr4, fr5, fr6, fr7, fr8]


theorem State.jobPass_frame (s : State) (k t : Nat) (run : RunJob) (x : PhysSt) :
    (State.jobPass s k t run x).regs = s.regs ∧ (State.jobPass s k t run x).pairLo = s.pairLo ∧ (State.jobPass s k t run x).pairCap = s.pairCap ∧ (State.jobPass s k t run x).out = s.out ∧ (State.jobPass s k t run x).free = s.free ∧ (State.jobPass s k t run x).policy = s.policy ∧ (State.jobPass s k t run x).err = s.err ∧ (State.jobPass s k t run x).chk = s.chk ∧ (State.jobPass s k t run x).snp = s.snp ∧ (State.jobPass s k t run x).irq = s.irq ∧ (State.jobPass s k t run x).ezl = s.ezl ∧ (State.jobPass s k t run x).stp = s.stp ∧ (State.jobPass s k t run x).fmt = s.fmt ∧ (State.jobPass s k t run x).vec = s.vec ∧ (State.jobPass s k t run x).mxe = s.mxe ∧ (State.jobPass s k t run x).upd = s.upd ∧ (State.jobPass s k t run x).red = s.red ∧ (State.jobPass s k t run x).tsk = s.tsk ∧ (State.jobPass s k t run x).mem = s.mem ∧ (State.jobPass s k t run x).hif = s.hif ∧ (State.jobPass s k t run x).img = s.img ∧ (State.jobPass s k t run x).pwr = s.pwr ∧ (State.jobPass s k t run x).pending = s.pending := by
  have fr1 := @State.setPhys_frame
  have fr2 := @State.setPos_frame
  have fr3 := @State.setTile_frame
  simp [State.jobPass, fr1, fr2, fr3]


theorem State.takeSpare_frame (s : State) (k t : Nat) (job : Job) :
    (State.takeSpare s k t job).pairLo = s.pairLo ∧ (State.takeSpare s k t job).pairCap = s.pairCap ∧ (State.takeSpare s k t job).out = s.out ∧ (State.takeSpare s k t job).free = s.free ∧ (State.takeSpare s k t job).policy = s.policy ∧ (State.takeSpare s k t job).err = s.err ∧ (State.takeSpare s k t job).chk = s.chk ∧ (State.takeSpare s k t job).snp = s.snp ∧ (State.takeSpare s k t job).irq = s.irq ∧ (State.takeSpare s k t job).ezl = s.ezl ∧ (State.takeSpare s k t job).stp = s.stp ∧ (State.takeSpare s k t job).fmt = s.fmt ∧ (State.takeSpare s k t job).vec = s.vec ∧ (State.takeSpare s k t job).mxe = s.mxe ∧ (State.takeSpare s k t job).upd = s.upd ∧ (State.takeSpare s k t job).red = s.red ∧ (State.takeSpare s k t job).tsk = s.tsk ∧ (State.takeSpare s k t job).mem = s.mem ∧ (State.takeSpare s k t job).hif = s.hif ∧ (State.takeSpare s k t job).img = s.img ∧ (State.takeSpare s k t job).pwr = s.pwr ∧ (State.takeSpare s k t job).pending = s.pending := by
  have fr1 := @State.enterNone_frame
  have fr2 := @State.event_frame
  have fr3 := @State.markLoad_frame
  have fr4 := @State.queueJob_frame
  have fr5 := @State.setPos_frame
  have fr6 := @State.setTile_frame
  unfold State.takeSpare; dsimp only; (repeat' split) <;> simp [fr1, fr2, fr3, fr4, fr5, fr6]


theorem State.jobFail_frame (s : State) (k t : Nat) (run : RunJob) :
    (State.jobFail s k t run).pairLo = s.pairLo ∧ (State.jobFail s k t run).pairCap = s.pairCap ∧ (State.jobFail s k t run).out = s.out ∧ (State.jobFail s k t run).free = s.free ∧ (State.jobFail s k t run).policy = s.policy ∧ (State.jobFail s k t run).chk = s.chk ∧ (State.jobFail s k t run).snp = s.snp ∧ (State.jobFail s k t run).irq = s.irq ∧ (State.jobFail s k t run).ezl = s.ezl ∧ (State.jobFail s k t run).stp = s.stp ∧ (State.jobFail s k t run).fmt = s.fmt ∧ (State.jobFail s k t run).vec = s.vec ∧ (State.jobFail s k t run).mxe = s.mxe ∧ (State.jobFail s k t run).upd = s.upd ∧ (State.jobFail s k t run).red = s.red ∧ (State.jobFail s k t run).tsk = s.tsk ∧ (State.jobFail s k t run).mem = s.mem ∧ (State.jobFail s k t run).hif = s.hif ∧ (State.jobFail s k t run).img = s.img ∧ (State.jobFail s k t run).pwr = s.pwr ∧ (State.jobFail s k t run).pending = s.pending := by
  have fr1 := @State.event_frame
  have fr2 := @State.log_frame
  have fr3 := @State.requeue_frame
  have fr4 := @State.retireArray_frame
  have fr5 := @State.retireSpare_frame
  have fr6 := @State.setPhys_frame
  have fr7 := @State.setTile_frame
  have fr8 := @State.takeSpare_frame
  simp [State.jobFail, fr1, fr2, fr3, fr4, fr5, fr6, fr7, fr8]


theorem State.jobVerify_frame (s : State) (k t : Nat) (run : RunJob) (f : VerifyFit) (ends : List RowEnd) :
    (State.jobVerify s k t run f ends).pairLo = s.pairLo ∧ (State.jobVerify s k t run f ends).pairCap = s.pairCap ∧ (State.jobVerify s k t run f ends).out = s.out ∧ (State.jobVerify s k t run f ends).free = s.free ∧ (State.jobVerify s k t run f ends).policy = s.policy ∧ (State.jobVerify s k t run f ends).chk = s.chk ∧ (State.jobVerify s k t run f ends).snp = s.snp ∧ (State.jobVerify s k t run f ends).irq = s.irq ∧ (State.jobVerify s k t run f ends).ezl = s.ezl ∧ (State.jobVerify s k t run f ends).stp = s.stp ∧ (State.jobVerify s k t run f ends).fmt = s.fmt ∧ (State.jobVerify s k t run f ends).vec = s.vec ∧ (State.jobVerify s k t run f ends).mxe = s.mxe ∧ (State.jobVerify s k t run f ends).upd = s.upd ∧ (State.jobVerify s k t run f ends).red = s.red ∧ (State.jobVerify s k t run f ends).tsk = s.tsk ∧ (State.jobVerify s k t run f ends).mem = s.mem ∧ (State.jobVerify s k t run f ends).hif = s.hif ∧ (State.jobVerify s k t run f ends).img = s.img ∧ (State.jobVerify s k t run f ends).pwr = s.pwr ∧ (State.jobVerify s k t run f ends).pending = s.pending := by
  have fr1 := @State.incPair_frame
  have fr2 := @State.jobFail_frame
  have fr3 := @State.jobPass_frame
  simp [State.jobVerify, fr1, fr2, fr3]


theorem progJobComplete_frame (k t : Nat) (f : VerifyFit) (metaReads : List RowReads) (s : State) :
    (progJobComplete k t f metaReads s).pairLo = s.pairLo ∧ (progJobComplete k t f metaReads s).pairCap = s.pairCap ∧ (progJobComplete k t f metaReads s).out = s.out ∧ (progJobComplete k t f metaReads s).free = s.free ∧ (progJobComplete k t f metaReads s).policy = s.policy ∧ (progJobComplete k t f metaReads s).chk = s.chk ∧ (progJobComplete k t f metaReads s).snp = s.snp ∧ (progJobComplete k t f metaReads s).irq = s.irq ∧ (progJobComplete k t f metaReads s).ezl = s.ezl ∧ (progJobComplete k t f metaReads s).stp = s.stp ∧ (progJobComplete k t f metaReads s).fmt = s.fmt ∧ (progJobComplete k t f metaReads s).vec = s.vec ∧ (progJobComplete k t f metaReads s).mxe = s.mxe ∧ (progJobComplete k t f metaReads s).upd = s.upd ∧ (progJobComplete k t f metaReads s).red = s.red ∧ (progJobComplete k t f metaReads s).tsk = s.tsk ∧ (progJobComplete k t f metaReads s).mem = s.mem ∧ (progJobComplete k t f metaReads s).hif = s.hif ∧ (progJobComplete k t f metaReads s).img = s.img ∧ (progJobComplete k t f metaReads s).pwr = s.pwr ∧ (progJobComplete k t f metaReads s).pending = s.pending := by
  have fr1 := @State.jobFail_frame
  have fr2 := @State.jobVerify_frame
  have fr3 := @State.setPos_frame
  have fr4 := @State.setTile_frame
  have fr5 := @State.incPair_frame
  have fr6 := @State.jobPass_frame
  unfold progJobComplete; (repeat' split) <;> simp [fr1, fr2, fr3, fr4, fr5, fr6]


theorem sweepArray_frame (k a : Nat) (seen : Option SweepRead) (reads : List CalRead) (s : State) :
    (sweepArray k a seen reads s).regs = s.regs ∧ (sweepArray k a seen reads s).pairLo = s.pairLo ∧ (sweepArray k a seen reads s).pairCap = s.pairCap ∧ (sweepArray k a seen reads s).out = s.out ∧ (sweepArray k a seen reads s).free = s.free ∧ (sweepArray k a seen reads s).policy = s.policy ∧ (sweepArray k a seen reads s).err = s.err ∧ (sweepArray k a seen reads s).chk = s.chk ∧ (sweepArray k a seen reads s).snp = s.snp ∧ (sweepArray k a seen reads s).irq = s.irq ∧ (sweepArray k a seen reads s).ezl = s.ezl ∧ (sweepArray k a seen reads s).stp = s.stp ∧ (sweepArray k a seen reads s).fmt = s.fmt ∧ (sweepArray k a seen reads s).vec = s.vec ∧ (sweepArray k a seen reads s).mxe = s.mxe ∧ (sweepArray k a seen reads s).upd = s.upd ∧ (sweepArray k a seen reads s).red = s.red ∧ (sweepArray k a seen reads s).tsk = s.tsk ∧ (sweepArray k a seen reads s).mem = s.mem ∧ (sweepArray k a seen reads s).hif = s.hif ∧ (sweepArray k a seen reads s).img = s.img ∧ (sweepArray k a seen reads s).pwr = s.pwr ∧ (sweepArray k a seen reads s).pending = s.pending := by
  have fr1 := @State.setKao_frame
  have fr2 := @State.setPhys_frame
  have fr3 := @State.setPos_frame
  have fr4 := @State.event_frame
  unfold sweepArray; dsimp only; (repeat' split) <;> simp [fr1, fr2, fr3, fr4]


@[simp] theorem State.placeTile_pairLo (s : State) (k t : Nat) : (State.placeTile s k t).pairLo = s.pairLo := by
  have fr1 := @State.event_frame
  have fr2 := @State.retireSpare_frame
  have fr3 := @State.setPos_frame
  have fr4 := @State.setTile_frame
  unfold State.placeTile; dsimp only
  have h : ∀ (s : State) (l : List Nat) (left : List Nat) (held : List (Option Nat)), (l.foldl (fun (a : State × List Nat) i =>
      match held.getD i none with
      | some x => (a.1.setPos k (16 * t + i) { a.1.pos k (16 * t + i) with slot := some x, prev := none }, a.2)
      | none => (a.1.setPos k (16 * t + i) { a.1.pos k (16 * t + i) with slot := a.2.head?, prev := none }, a.2.drop 1)) (s, left)).1.pairLo = s.pairLo :=
    fun s l left held => State.foldl_proj_pairLo (fun (a : State × List Nat) => a.1) _ (by intro a x; dsimp only; split <;> simp [fr1, fr2, fr3, fr4]) _ _
  have e : ∀ (t : State) a b c, (t.setTile a b c).pairLo = t.pairLo := by intros; simp [fr1, fr2, fr3, fr4]
  have e2 : ∀ (t : State) a b c, (t.retireSpare a b c).pairLo = t.pairLo := by intros; simp [fr1, fr2, fr3, fr4]
  have e3 : ∀ (t : State) a b, (t.event a b).pairLo = t.pairLo := by intros; simp [fr1, fr2, fr3, fr4]
  split
  · rw [e]; exact h _ _ _ _
  · split
    · rw [e3, e2, e]; exact h _ _ _ _
    · rw [e]; exact h _ _ _ _

@[simp] theorem State.placeTile_pairCap (s : State) (k t : Nat) : (State.placeTile s k t).pairCap = s.pairCap := by
  have fr1 := @State.event_frame
  have fr2 := @State.retireSpare_frame
  have fr3 := @State.setPos_frame
  have fr4 := @State.setTile_frame
  unfold State.placeTile; dsimp only
  have h : ∀ (s : State) (l : List Nat) (left : List Nat) (held : List (Option Nat)), (l.foldl (fun (a : State × List Nat) i =>
      match held.getD i none with
      | some x => (a.1.setPos k (16 * t + i) { a.1.pos k (16 * t + i) with slot := some x, prev := none }, a.2)
      | none => (a.1.setPos k (16 * t + i) { a.1.pos k (16 * t + i) with slot := a.2.head?, prev := none }, a.2.drop 1)) (s, left)).1.pairCap = s.pairCap :=
    fun s l left held => State.foldl_proj_pairCap (fun (a : State × List Nat) => a.1) _ (by intro a x; dsimp only; split <;> simp [fr1, fr2, fr3, fr4]) _ _
  have e : ∀ (t : State) a b c, (t.setTile a b c).pairCap = t.pairCap := by intros; simp [fr1, fr2, fr3, fr4]
  have e2 : ∀ (t : State) a b c, (t.retireSpare a b c).pairCap = t.pairCap := by intros; simp [fr1, fr2, fr3, fr4]
  have e3 : ∀ (t : State) a b, (t.event a b).pairCap = t.pairCap := by intros; simp [fr1, fr2, fr3, fr4]
  split
  · rw [e]; exact h _ _ _ _
  · split
    · rw [e3, e2, e]; exact h _ _ _ _
    · rw [e]; exact h _ _ _ _

@[simp] theorem State.placeTile_out (s : State) (k t : Nat) : (State.placeTile s k t).out = s.out := by
  have fr1 := @State.event_frame
  have fr2 := @State.retireSpare_frame
  have fr3 := @State.setPos_frame
  have fr4 := @State.setTile_frame
  unfold State.placeTile; dsimp only
  have h : ∀ (s : State) (l : List Nat) (left : List Nat) (held : List (Option Nat)), (l.foldl (fun (a : State × List Nat) i =>
      match held.getD i none with
      | some x => (a.1.setPos k (16 * t + i) { a.1.pos k (16 * t + i) with slot := some x, prev := none }, a.2)
      | none => (a.1.setPos k (16 * t + i) { a.1.pos k (16 * t + i) with slot := a.2.head?, prev := none }, a.2.drop 1)) (s, left)).1.out = s.out :=
    fun s l left held => State.foldl_proj_out (fun (a : State × List Nat) => a.1) _ (by intro a x; dsimp only; split <;> simp [fr1, fr2, fr3, fr4]) _ _
  have e : ∀ (t : State) a b c, (t.setTile a b c).out = t.out := by intros; simp [fr1, fr2, fr3, fr4]
  have e2 : ∀ (t : State) a b c, (t.retireSpare a b c).out = t.out := by intros; simp [fr1, fr2, fr3, fr4]
  have e3 : ∀ (t : State) a b, (t.event a b).out = t.out := by intros; simp [fr1, fr2, fr3, fr4]
  split
  · rw [e]; exact h _ _ _ _
  · split
    · rw [e3, e2, e]; exact h _ _ _ _
    · rw [e]; exact h _ _ _ _

@[simp] theorem State.placeTile_free (s : State) (k t : Nat) : (State.placeTile s k t).free = s.free := by
  have fr1 := @State.event_frame
  have fr2 := @State.retireSpare_frame
  have fr3 := @State.setPos_frame
  have fr4 := @State.setTile_frame
  unfold State.placeTile; dsimp only
  have h : ∀ (s : State) (l : List Nat) (left : List Nat) (held : List (Option Nat)), (l.foldl (fun (a : State × List Nat) i =>
      match held.getD i none with
      | some x => (a.1.setPos k (16 * t + i) { a.1.pos k (16 * t + i) with slot := some x, prev := none }, a.2)
      | none => (a.1.setPos k (16 * t + i) { a.1.pos k (16 * t + i) with slot := a.2.head?, prev := none }, a.2.drop 1)) (s, left)).1.free = s.free :=
    fun s l left held => State.foldl_proj_free (fun (a : State × List Nat) => a.1) _ (by intro a x; dsimp only; split <;> simp [fr1, fr2, fr3, fr4]) _ _
  have e : ∀ (t : State) a b c, (t.setTile a b c).free = t.free := by intros; simp [fr1, fr2, fr3, fr4]
  have e2 : ∀ (t : State) a b c, (t.retireSpare a b c).free = t.free := by intros; simp [fr1, fr2, fr3, fr4]
  have e3 : ∀ (t : State) a b, (t.event a b).free = t.free := by intros; simp [fr1, fr2, fr3, fr4]
  split
  · rw [e]; exact h _ _ _ _
  · split
    · rw [e3, e2, e]; exact h _ _ _ _
    · rw [e]; exact h _ _ _ _

@[simp] theorem State.placeTile_policy (s : State) (k t : Nat) : (State.placeTile s k t).policy = s.policy := by
  have fr1 := @State.event_frame
  have fr2 := @State.retireSpare_frame
  have fr3 := @State.setPos_frame
  have fr4 := @State.setTile_frame
  unfold State.placeTile; dsimp only
  have h : ∀ (s : State) (l : List Nat) (left : List Nat) (held : List (Option Nat)), (l.foldl (fun (a : State × List Nat) i =>
      match held.getD i none with
      | some x => (a.1.setPos k (16 * t + i) { a.1.pos k (16 * t + i) with slot := some x, prev := none }, a.2)
      | none => (a.1.setPos k (16 * t + i) { a.1.pos k (16 * t + i) with slot := a.2.head?, prev := none }, a.2.drop 1)) (s, left)).1.policy = s.policy :=
    fun s l left held => State.foldl_proj_policy (fun (a : State × List Nat) => a.1) _ (by intro a x; dsimp only; split <;> simp [fr1, fr2, fr3, fr4]) _ _
  have e : ∀ (t : State) a b c, (t.setTile a b c).policy = t.policy := by intros; simp [fr1, fr2, fr3, fr4]
  have e2 : ∀ (t : State) a b c, (t.retireSpare a b c).policy = t.policy := by intros; simp [fr1, fr2, fr3, fr4]
  have e3 : ∀ (t : State) a b, (t.event a b).policy = t.policy := by intros; simp [fr1, fr2, fr3, fr4]
  split
  · rw [e]; exact h _ _ _ _
  · split
    · rw [e3, e2, e]; exact h _ _ _ _
    · rw [e]; exact h _ _ _ _

@[simp] theorem State.placeTile_chk (s : State) (k t : Nat) : (State.placeTile s k t).chk = s.chk := by
  have fr1 := @State.event_frame
  have fr2 := @State.retireSpare_frame
  have fr3 := @State.setPos_frame
  have fr4 := @State.setTile_frame
  unfold State.placeTile; dsimp only
  have h : ∀ (s : State) (l : List Nat) (left : List Nat) (held : List (Option Nat)), (l.foldl (fun (a : State × List Nat) i =>
      match held.getD i none with
      | some x => (a.1.setPos k (16 * t + i) { a.1.pos k (16 * t + i) with slot := some x, prev := none }, a.2)
      | none => (a.1.setPos k (16 * t + i) { a.1.pos k (16 * t + i) with slot := a.2.head?, prev := none }, a.2.drop 1)) (s, left)).1.chk = s.chk :=
    fun s l left held => State.foldl_proj_chk (fun (a : State × List Nat) => a.1) _ (by intro a x; dsimp only; split <;> simp [fr1, fr2, fr3, fr4]) _ _
  have e : ∀ (t : State) a b c, (t.setTile a b c).chk = t.chk := by intros; simp [fr1, fr2, fr3, fr4]
  have e2 : ∀ (t : State) a b c, (t.retireSpare a b c).chk = t.chk := by intros; simp [fr1, fr2, fr3, fr4]
  have e3 : ∀ (t : State) a b, (t.event a b).chk = t.chk := by intros; simp [fr1, fr2, fr3, fr4]
  split
  · rw [e]; exact h _ _ _ _
  · split
    · rw [e3, e2, e]; exact h _ _ _ _
    · rw [e]; exact h _ _ _ _

@[simp] theorem State.placeTile_snp (s : State) (k t : Nat) : (State.placeTile s k t).snp = s.snp := by
  have fr1 := @State.event_frame
  have fr2 := @State.retireSpare_frame
  have fr3 := @State.setPos_frame
  have fr4 := @State.setTile_frame
  unfold State.placeTile; dsimp only
  have h : ∀ (s : State) (l : List Nat) (left : List Nat) (held : List (Option Nat)), (l.foldl (fun (a : State × List Nat) i =>
      match held.getD i none with
      | some x => (a.1.setPos k (16 * t + i) { a.1.pos k (16 * t + i) with slot := some x, prev := none }, a.2)
      | none => (a.1.setPos k (16 * t + i) { a.1.pos k (16 * t + i) with slot := a.2.head?, prev := none }, a.2.drop 1)) (s, left)).1.snp = s.snp :=
    fun s l left held => State.foldl_proj_snp (fun (a : State × List Nat) => a.1) _ (by intro a x; dsimp only; split <;> simp [fr1, fr2, fr3, fr4]) _ _
  have e : ∀ (t : State) a b c, (t.setTile a b c).snp = t.snp := by intros; simp [fr1, fr2, fr3, fr4]
  have e2 : ∀ (t : State) a b c, (t.retireSpare a b c).snp = t.snp := by intros; simp [fr1, fr2, fr3, fr4]
  have e3 : ∀ (t : State) a b, (t.event a b).snp = t.snp := by intros; simp [fr1, fr2, fr3, fr4]
  split
  · rw [e]; exact h _ _ _ _
  · split
    · rw [e3, e2, e]; exact h _ _ _ _
    · rw [e]; exact h _ _ _ _

@[simp] theorem State.placeTile_irq (s : State) (k t : Nat) : (State.placeTile s k t).irq = s.irq := by
  have fr1 := @State.event_frame
  have fr2 := @State.retireSpare_frame
  have fr3 := @State.setPos_frame
  have fr4 := @State.setTile_frame
  unfold State.placeTile; dsimp only
  have h : ∀ (s : State) (l : List Nat) (left : List Nat) (held : List (Option Nat)), (l.foldl (fun (a : State × List Nat) i =>
      match held.getD i none with
      | some x => (a.1.setPos k (16 * t + i) { a.1.pos k (16 * t + i) with slot := some x, prev := none }, a.2)
      | none => (a.1.setPos k (16 * t + i) { a.1.pos k (16 * t + i) with slot := a.2.head?, prev := none }, a.2.drop 1)) (s, left)).1.irq = s.irq :=
    fun s l left held => State.foldl_proj_irq (fun (a : State × List Nat) => a.1) _ (by intro a x; dsimp only; split <;> simp [fr1, fr2, fr3, fr4]) _ _
  have e : ∀ (t : State) a b c, (t.setTile a b c).irq = t.irq := by intros; simp [fr1, fr2, fr3, fr4]
  have e2 : ∀ (t : State) a b c, (t.retireSpare a b c).irq = t.irq := by intros; simp [fr1, fr2, fr3, fr4]
  have e3 : ∀ (t : State) a b, (t.event a b).irq = t.irq := by intros; simp [fr1, fr2, fr3, fr4]
  split
  · rw [e]; exact h _ _ _ _
  · split
    · rw [e3, e2, e]; exact h _ _ _ _
    · rw [e]; exact h _ _ _ _

@[simp] theorem State.placeTile_ezl (s : State) (k t : Nat) : (State.placeTile s k t).ezl = s.ezl := by
  have fr1 := @State.event_frame
  have fr2 := @State.retireSpare_frame
  have fr3 := @State.setPos_frame
  have fr4 := @State.setTile_frame
  unfold State.placeTile; dsimp only
  have h : ∀ (s : State) (l : List Nat) (left : List Nat) (held : List (Option Nat)), (l.foldl (fun (a : State × List Nat) i =>
      match held.getD i none with
      | some x => (a.1.setPos k (16 * t + i) { a.1.pos k (16 * t + i) with slot := some x, prev := none }, a.2)
      | none => (a.1.setPos k (16 * t + i) { a.1.pos k (16 * t + i) with slot := a.2.head?, prev := none }, a.2.drop 1)) (s, left)).1.ezl = s.ezl :=
    fun s l left held => State.foldl_proj_ezl (fun (a : State × List Nat) => a.1) _ (by intro a x; dsimp only; split <;> simp [fr1, fr2, fr3, fr4]) _ _
  have e : ∀ (t : State) a b c, (t.setTile a b c).ezl = t.ezl := by intros; simp [fr1, fr2, fr3, fr4]
  have e2 : ∀ (t : State) a b c, (t.retireSpare a b c).ezl = t.ezl := by intros; simp [fr1, fr2, fr3, fr4]
  have e3 : ∀ (t : State) a b, (t.event a b).ezl = t.ezl := by intros; simp [fr1, fr2, fr3, fr4]
  split
  · rw [e]; exact h _ _ _ _
  · split
    · rw [e3, e2, e]; exact h _ _ _ _
    · rw [e]; exact h _ _ _ _

@[simp] theorem State.placeTile_stp (s : State) (k t : Nat) : (State.placeTile s k t).stp = s.stp := by
  have fr1 := @State.event_frame
  have fr2 := @State.retireSpare_frame
  have fr3 := @State.setPos_frame
  have fr4 := @State.setTile_frame
  unfold State.placeTile; dsimp only
  have h : ∀ (s : State) (l : List Nat) (left : List Nat) (held : List (Option Nat)), (l.foldl (fun (a : State × List Nat) i =>
      match held.getD i none with
      | some x => (a.1.setPos k (16 * t + i) { a.1.pos k (16 * t + i) with slot := some x, prev := none }, a.2)
      | none => (a.1.setPos k (16 * t + i) { a.1.pos k (16 * t + i) with slot := a.2.head?, prev := none }, a.2.drop 1)) (s, left)).1.stp = s.stp :=
    fun s l left held => State.foldl_proj_stp (fun (a : State × List Nat) => a.1) _ (by intro a x; dsimp only; split <;> simp [fr1, fr2, fr3, fr4]) _ _
  have e : ∀ (t : State) a b c, (t.setTile a b c).stp = t.stp := by intros; simp [fr1, fr2, fr3, fr4]
  have e2 : ∀ (t : State) a b c, (t.retireSpare a b c).stp = t.stp := by intros; simp [fr1, fr2, fr3, fr4]
  have e3 : ∀ (t : State) a b, (t.event a b).stp = t.stp := by intros; simp [fr1, fr2, fr3, fr4]
  split
  · rw [e]; exact h _ _ _ _
  · split
    · rw [e3, e2, e]; exact h _ _ _ _
    · rw [e]; exact h _ _ _ _

@[simp] theorem State.placeTile_fmt (s : State) (k t : Nat) : (State.placeTile s k t).fmt = s.fmt := by
  have fr1 := @State.event_frame
  have fr2 := @State.retireSpare_frame
  have fr3 := @State.setPos_frame
  have fr4 := @State.setTile_frame
  unfold State.placeTile; dsimp only
  have h : ∀ (s : State) (l : List Nat) (left : List Nat) (held : List (Option Nat)), (l.foldl (fun (a : State × List Nat) i =>
      match held.getD i none with
      | some x => (a.1.setPos k (16 * t + i) { a.1.pos k (16 * t + i) with slot := some x, prev := none }, a.2)
      | none => (a.1.setPos k (16 * t + i) { a.1.pos k (16 * t + i) with slot := a.2.head?, prev := none }, a.2.drop 1)) (s, left)).1.fmt = s.fmt :=
    fun s l left held => State.foldl_proj_fmt (fun (a : State × List Nat) => a.1) _ (by intro a x; dsimp only; split <;> simp [fr1, fr2, fr3, fr4]) _ _
  have e : ∀ (t : State) a b c, (t.setTile a b c).fmt = t.fmt := by intros; simp [fr1, fr2, fr3, fr4]
  have e2 : ∀ (t : State) a b c, (t.retireSpare a b c).fmt = t.fmt := by intros; simp [fr1, fr2, fr3, fr4]
  have e3 : ∀ (t : State) a b, (t.event a b).fmt = t.fmt := by intros; simp [fr1, fr2, fr3, fr4]
  split
  · rw [e]; exact h _ _ _ _
  · split
    · rw [e3, e2, e]; exact h _ _ _ _
    · rw [e]; exact h _ _ _ _

@[simp] theorem State.placeTile_vec (s : State) (k t : Nat) : (State.placeTile s k t).vec = s.vec := by
  have fr1 := @State.event_frame
  have fr2 := @State.retireSpare_frame
  have fr3 := @State.setPos_frame
  have fr4 := @State.setTile_frame
  unfold State.placeTile; dsimp only
  have h : ∀ (s : State) (l : List Nat) (left : List Nat) (held : List (Option Nat)), (l.foldl (fun (a : State × List Nat) i =>
      match held.getD i none with
      | some x => (a.1.setPos k (16 * t + i) { a.1.pos k (16 * t + i) with slot := some x, prev := none }, a.2)
      | none => (a.1.setPos k (16 * t + i) { a.1.pos k (16 * t + i) with slot := a.2.head?, prev := none }, a.2.drop 1)) (s, left)).1.vec = s.vec :=
    fun s l left held => State.foldl_proj_vec (fun (a : State × List Nat) => a.1) _ (by intro a x; dsimp only; split <;> simp [fr1, fr2, fr3, fr4]) _ _
  have e : ∀ (t : State) a b c, (t.setTile a b c).vec = t.vec := by intros; simp [fr1, fr2, fr3, fr4]
  have e2 : ∀ (t : State) a b c, (t.retireSpare a b c).vec = t.vec := by intros; simp [fr1, fr2, fr3, fr4]
  have e3 : ∀ (t : State) a b, (t.event a b).vec = t.vec := by intros; simp [fr1, fr2, fr3, fr4]
  split
  · rw [e]; exact h _ _ _ _
  · split
    · rw [e3, e2, e]; exact h _ _ _ _
    · rw [e]; exact h _ _ _ _

@[simp] theorem State.placeTile_mxe (s : State) (k t : Nat) : (State.placeTile s k t).mxe = s.mxe := by
  have fr1 := @State.event_frame
  have fr2 := @State.retireSpare_frame
  have fr3 := @State.setPos_frame
  have fr4 := @State.setTile_frame
  unfold State.placeTile; dsimp only
  have h : ∀ (s : State) (l : List Nat) (left : List Nat) (held : List (Option Nat)), (l.foldl (fun (a : State × List Nat) i =>
      match held.getD i none with
      | some x => (a.1.setPos k (16 * t + i) { a.1.pos k (16 * t + i) with slot := some x, prev := none }, a.2)
      | none => (a.1.setPos k (16 * t + i) { a.1.pos k (16 * t + i) with slot := a.2.head?, prev := none }, a.2.drop 1)) (s, left)).1.mxe = s.mxe :=
    fun s l left held => State.foldl_proj_mxe (fun (a : State × List Nat) => a.1) _ (by intro a x; dsimp only; split <;> simp [fr1, fr2, fr3, fr4]) _ _
  have e : ∀ (t : State) a b c, (t.setTile a b c).mxe = t.mxe := by intros; simp [fr1, fr2, fr3, fr4]
  have e2 : ∀ (t : State) a b c, (t.retireSpare a b c).mxe = t.mxe := by intros; simp [fr1, fr2, fr3, fr4]
  have e3 : ∀ (t : State) a b, (t.event a b).mxe = t.mxe := by intros; simp [fr1, fr2, fr3, fr4]
  split
  · rw [e]; exact h _ _ _ _
  · split
    · rw [e3, e2, e]; exact h _ _ _ _
    · rw [e]; exact h _ _ _ _

@[simp] theorem State.placeTile_upd (s : State) (k t : Nat) : (State.placeTile s k t).upd = s.upd := by
  have fr1 := @State.event_frame
  have fr2 := @State.retireSpare_frame
  have fr3 := @State.setPos_frame
  have fr4 := @State.setTile_frame
  unfold State.placeTile; dsimp only
  have h : ∀ (s : State) (l : List Nat) (left : List Nat) (held : List (Option Nat)), (l.foldl (fun (a : State × List Nat) i =>
      match held.getD i none with
      | some x => (a.1.setPos k (16 * t + i) { a.1.pos k (16 * t + i) with slot := some x, prev := none }, a.2)
      | none => (a.1.setPos k (16 * t + i) { a.1.pos k (16 * t + i) with slot := a.2.head?, prev := none }, a.2.drop 1)) (s, left)).1.upd = s.upd :=
    fun s l left held => State.foldl_proj_upd (fun (a : State × List Nat) => a.1) _ (by intro a x; dsimp only; split <;> simp [fr1, fr2, fr3, fr4]) _ _
  have e : ∀ (t : State) a b c, (t.setTile a b c).upd = t.upd := by intros; simp [fr1, fr2, fr3, fr4]
  have e2 : ∀ (t : State) a b c, (t.retireSpare a b c).upd = t.upd := by intros; simp [fr1, fr2, fr3, fr4]
  have e3 : ∀ (t : State) a b, (t.event a b).upd = t.upd := by intros; simp [fr1, fr2, fr3, fr4]
  split
  · rw [e]; exact h _ _ _ _
  · split
    · rw [e3, e2, e]; exact h _ _ _ _
    · rw [e]; exact h _ _ _ _

@[simp] theorem State.placeTile_red (s : State) (k t : Nat) : (State.placeTile s k t).red = s.red := by
  have fr1 := @State.event_frame
  have fr2 := @State.retireSpare_frame
  have fr3 := @State.setPos_frame
  have fr4 := @State.setTile_frame
  unfold State.placeTile; dsimp only
  have h : ∀ (s : State) (l : List Nat) (left : List Nat) (held : List (Option Nat)), (l.foldl (fun (a : State × List Nat) i =>
      match held.getD i none with
      | some x => (a.1.setPos k (16 * t + i) { a.1.pos k (16 * t + i) with slot := some x, prev := none }, a.2)
      | none => (a.1.setPos k (16 * t + i) { a.1.pos k (16 * t + i) with slot := a.2.head?, prev := none }, a.2.drop 1)) (s, left)).1.red = s.red :=
    fun s l left held => State.foldl_proj_red (fun (a : State × List Nat) => a.1) _ (by intro a x; dsimp only; split <;> simp [fr1, fr2, fr3, fr4]) _ _
  have e : ∀ (t : State) a b c, (t.setTile a b c).red = t.red := by intros; simp [fr1, fr2, fr3, fr4]
  have e2 : ∀ (t : State) a b c, (t.retireSpare a b c).red = t.red := by intros; simp [fr1, fr2, fr3, fr4]
  have e3 : ∀ (t : State) a b, (t.event a b).red = t.red := by intros; simp [fr1, fr2, fr3, fr4]
  split
  · rw [e]; exact h _ _ _ _
  · split
    · rw [e3, e2, e]; exact h _ _ _ _
    · rw [e]; exact h _ _ _ _

@[simp] theorem State.placeTile_tsk (s : State) (k t : Nat) : (State.placeTile s k t).tsk = s.tsk := by
  have fr1 := @State.event_frame
  have fr2 := @State.retireSpare_frame
  have fr3 := @State.setPos_frame
  have fr4 := @State.setTile_frame
  unfold State.placeTile; dsimp only
  have h : ∀ (s : State) (l : List Nat) (left : List Nat) (held : List (Option Nat)), (l.foldl (fun (a : State × List Nat) i =>
      match held.getD i none with
      | some x => (a.1.setPos k (16 * t + i) { a.1.pos k (16 * t + i) with slot := some x, prev := none }, a.2)
      | none => (a.1.setPos k (16 * t + i) { a.1.pos k (16 * t + i) with slot := a.2.head?, prev := none }, a.2.drop 1)) (s, left)).1.tsk = s.tsk :=
    fun s l left held => State.foldl_proj_tsk (fun (a : State × List Nat) => a.1) _ (by intro a x; dsimp only; split <;> simp [fr1, fr2, fr3, fr4]) _ _
  have e : ∀ (t : State) a b c, (t.setTile a b c).tsk = t.tsk := by intros; simp [fr1, fr2, fr3, fr4]
  have e2 : ∀ (t : State) a b c, (t.retireSpare a b c).tsk = t.tsk := by intros; simp [fr1, fr2, fr3, fr4]
  have e3 : ∀ (t : State) a b, (t.event a b).tsk = t.tsk := by intros; simp [fr1, fr2, fr3, fr4]
  split
  · rw [e]; exact h _ _ _ _
  · split
    · rw [e3, e2, e]; exact h _ _ _ _
    · rw [e]; exact h _ _ _ _

@[simp] theorem State.placeTile_mem (s : State) (k t : Nat) : (State.placeTile s k t).mem = s.mem := by
  have fr1 := @State.event_frame
  have fr2 := @State.retireSpare_frame
  have fr3 := @State.setPos_frame
  have fr4 := @State.setTile_frame
  unfold State.placeTile; dsimp only
  have h : ∀ (s : State) (l : List Nat) (left : List Nat) (held : List (Option Nat)), (l.foldl (fun (a : State × List Nat) i =>
      match held.getD i none with
      | some x => (a.1.setPos k (16 * t + i) { a.1.pos k (16 * t + i) with slot := some x, prev := none }, a.2)
      | none => (a.1.setPos k (16 * t + i) { a.1.pos k (16 * t + i) with slot := a.2.head?, prev := none }, a.2.drop 1)) (s, left)).1.mem = s.mem :=
    fun s l left held => State.foldl_proj_mem (fun (a : State × List Nat) => a.1) _ (by intro a x; dsimp only; split <;> simp [fr1, fr2, fr3, fr4]) _ _
  have e : ∀ (t : State) a b c, (t.setTile a b c).mem = t.mem := by intros; simp [fr1, fr2, fr3, fr4]
  have e2 : ∀ (t : State) a b c, (t.retireSpare a b c).mem = t.mem := by intros; simp [fr1, fr2, fr3, fr4]
  have e3 : ∀ (t : State) a b, (t.event a b).mem = t.mem := by intros; simp [fr1, fr2, fr3, fr4]
  split
  · rw [e]; exact h _ _ _ _
  · split
    · rw [e3, e2, e]; exact h _ _ _ _
    · rw [e]; exact h _ _ _ _

@[simp] theorem State.placeTile_hif (s : State) (k t : Nat) : (State.placeTile s k t).hif = s.hif := by
  have fr1 := @State.event_frame
  have fr2 := @State.retireSpare_frame
  have fr3 := @State.setPos_frame
  have fr4 := @State.setTile_frame
  unfold State.placeTile; dsimp only
  have h : ∀ (s : State) (l : List Nat) (left : List Nat) (held : List (Option Nat)), (l.foldl (fun (a : State × List Nat) i =>
      match held.getD i none with
      | some x => (a.1.setPos k (16 * t + i) { a.1.pos k (16 * t + i) with slot := some x, prev := none }, a.2)
      | none => (a.1.setPos k (16 * t + i) { a.1.pos k (16 * t + i) with slot := a.2.head?, prev := none }, a.2.drop 1)) (s, left)).1.hif = s.hif :=
    fun s l left held => State.foldl_proj_hif (fun (a : State × List Nat) => a.1) _ (by intro a x; dsimp only; split <;> simp [fr1, fr2, fr3, fr4]) _ _
  have e : ∀ (t : State) a b c, (t.setTile a b c).hif = t.hif := by intros; simp [fr1, fr2, fr3, fr4]
  have e2 : ∀ (t : State) a b c, (t.retireSpare a b c).hif = t.hif := by intros; simp [fr1, fr2, fr3, fr4]
  have e3 : ∀ (t : State) a b, (t.event a b).hif = t.hif := by intros; simp [fr1, fr2, fr3, fr4]
  split
  · rw [e]; exact h _ _ _ _
  · split
    · rw [e3, e2, e]; exact h _ _ _ _
    · rw [e]; exact h _ _ _ _

@[simp] theorem State.placeTile_img (s : State) (k t : Nat) : (State.placeTile s k t).img = s.img := by
  have fr1 := @State.event_frame
  have fr2 := @State.retireSpare_frame
  have fr3 := @State.setPos_frame
  have fr4 := @State.setTile_frame
  unfold State.placeTile; dsimp only
  have h : ∀ (s : State) (l : List Nat) (left : List Nat) (held : List (Option Nat)), (l.foldl (fun (a : State × List Nat) i =>
      match held.getD i none with
      | some x => (a.1.setPos k (16 * t + i) { a.1.pos k (16 * t + i) with slot := some x, prev := none }, a.2)
      | none => (a.1.setPos k (16 * t + i) { a.1.pos k (16 * t + i) with slot := a.2.head?, prev := none }, a.2.drop 1)) (s, left)).1.img = s.img :=
    fun s l left held => State.foldl_proj_img (fun (a : State × List Nat) => a.1) _ (by intro a x; dsimp only; split <;> simp [fr1, fr2, fr3, fr4]) _ _
  have e : ∀ (t : State) a b c, (t.setTile a b c).img = t.img := by intros; simp [fr1, fr2, fr3, fr4]
  have e2 : ∀ (t : State) a b c, (t.retireSpare a b c).img = t.img := by intros; simp [fr1, fr2, fr3, fr4]
  have e3 : ∀ (t : State) a b, (t.event a b).img = t.img := by intros; simp [fr1, fr2, fr3, fr4]
  split
  · rw [e]; exact h _ _ _ _
  · split
    · rw [e3, e2, e]; exact h _ _ _ _
    · rw [e]; exact h _ _ _ _

@[simp] theorem State.placeTile_pwr (s : State) (k t : Nat) : (State.placeTile s k t).pwr = s.pwr := by
  have fr1 := @State.event_frame
  have fr2 := @State.retireSpare_frame
  have fr3 := @State.setPos_frame
  have fr4 := @State.setTile_frame
  unfold State.placeTile; dsimp only
  have h : ∀ (s : State) (l : List Nat) (left : List Nat) (held : List (Option Nat)), (l.foldl (fun (a : State × List Nat) i =>
      match held.getD i none with
      | some x => (a.1.setPos k (16 * t + i) { a.1.pos k (16 * t + i) with slot := some x, prev := none }, a.2)
      | none => (a.1.setPos k (16 * t + i) { a.1.pos k (16 * t + i) with slot := a.2.head?, prev := none }, a.2.drop 1)) (s, left)).1.pwr = s.pwr :=
    fun s l left held => State.foldl_proj_pwr (fun (a : State × List Nat) => a.1) _ (by intro a x; dsimp only; split <;> simp [fr1, fr2, fr3, fr4]) _ _
  have e : ∀ (t : State) a b c, (t.setTile a b c).pwr = t.pwr := by intros; simp [fr1, fr2, fr3, fr4]
  have e2 : ∀ (t : State) a b c, (t.retireSpare a b c).pwr = t.pwr := by intros; simp [fr1, fr2, fr3, fr4]
  have e3 : ∀ (t : State) a b, (t.event a b).pwr = t.pwr := by intros; simp [fr1, fr2, fr3, fr4]
  split
  · rw [e]; exact h _ _ _ _
  · split
    · rw [e3, e2, e]; exact h _ _ _ _
    · rw [e]; exact h _ _ _ _

@[simp] theorem State.placeTile_pending (s : State) (k t : Nat) : (State.placeTile s k t).pending = s.pending := by
  have fr1 := @State.event_frame
  have fr2 := @State.retireSpare_frame
  have fr3 := @State.setPos_frame
  have fr4 := @State.setTile_frame
  unfold State.placeTile; dsimp only
  have h : ∀ (s : State) (l : List Nat) (left : List Nat) (held : List (Option Nat)), (l.foldl (fun (a : State × List Nat) i =>
      match held.getD i none with
      | some x => (a.1.setPos k (16 * t + i) { a.1.pos k (16 * t + i) with slot := some x, prev := none }, a.2)
      | none => (a.1.setPos k (16 * t + i) { a.1.pos k (16 * t + i) with slot := a.2.head?, prev := none }, a.2.drop 1)) (s, left)).1.pending = s.pending :=
    fun s l left held => State.foldl_proj_pending (fun (a : State × List Nat) => a.1) _ (by intro a x; dsimp only; split <;> simp [fr1, fr2, fr3, fr4]) _ _
  have e : ∀ (t : State) a b c, (t.setTile a b c).pending = t.pending := by intros; simp [fr1, fr2, fr3, fr4]
  have e2 : ∀ (t : State) a b c, (t.retireSpare a b c).pending = t.pending := by intros; simp [fr1, fr2, fr3, fr4]
  have e3 : ∀ (t : State) a b, (t.event a b).pending = t.pending := by intros; simp [fr1, fr2, fr3, fr4]
  split
  · rw [e]; exact h _ _ _ _
  · split
    · rw [e3, e2, e]; exact h _ _ _ _
    · rw [e]; exact h _ _ _ _

end Sys2Proof.Machine
end

