-- ==== Sys2Proof/Laws/FrameTasks.lean ====
section
/-! SUPPORT. What the operations and meanings leave as it was: of each, every field of the state that it never changes, continued. -/

set_option linter.unusedSimpArgs false
set_option linter.unusedTactic false
set_option linter.unnecessarySeqFocus false
set_option linter.unreachableTactic false
set_option linter.unusedVariables false

namespace Sys2Proof.Machine

theorem State.sweepPos_frame (s : State) (k pos : Nat) :
    (State.sweepPos s k pos).pairLo = s.pairLo ∧ (State.sweepPos s k pos).pairCap = s.pairCap ∧ (State.sweepPos s k pos).out = s.out ∧ (State.sweepPos s k pos).free = s.free ∧ (State.sweepPos s k pos).policy = s.policy ∧ (State.sweepPos s k pos).err = s.err ∧ (State.sweepPos s k pos).chk = s.chk ∧ (State.sweepPos s k pos).snp = s.snp ∧ (State.sweepPos s k pos).irq = s.irq ∧ (State.sweepPos s k pos).ezl = s.ezl ∧ (State.sweepPos s k pos).stp = s.stp ∧ (State.sweepPos s k pos).fmt = s.fmt ∧ (State.sweepPos s k pos).vec = s.vec ∧ (State.sweepPos s k pos).mxe = s.mxe ∧ (State.sweepPos s k pos).upd = s.upd ∧ (State.sweepPos s k pos).red = s.red ∧ (State.sweepPos s k pos).tsk = s.tsk ∧ (State.sweepPos s k pos).hif = s.hif ∧ (State.sweepPos s k pos).img = s.img ∧ (State.sweepPos s k pos).pwr = s.pwr ∧ (State.sweepPos s k pos).pending = s.pending := by
  have fr1 := @State.copyArea_frame
  have fr2 := @State.event_frame
  have fr3 := @State.setPos_frame
  have fr4 := @State.shadowFrom_frame
  simp [State.sweepPos, fr1, fr2, fr3, fr4]


@[simp] theorem State.sweepEnd_pairLo (s : State) : (State.sweepEnd s).pairLo = s.pairLo := by
  have fr1 := @State.estimateTriggers_frame
  have fr2 := @State.fbEnter_frame
  have fr3 := @State.setKao_frame
  have fr4 := @State.sweepPos_frame
  unfold State.sweepEnd; dsimp only
  rw [State.foldl_pairLo, State.foldl_pairLo, State.foldl_pairLo, State.foldl_pairLo, State.foldl_pairLo]
  all_goals (intro s x; (repeat' split) <;> simp [fr1, fr2, fr3, fr4])

@[simp] theorem State.sweepEnd_pairCap (s : State) : (State.sweepEnd s).pairCap = s.pairCap := by
  have fr1 := @State.estimateTriggers_frame
  have fr2 := @State.fbEnter_frame
  have fr3 := @State.setKao_frame
  have fr4 := @State.sweepPos_frame
  unfold State.sweepEnd; dsimp only
  rw [State.foldl_pairCap, State.foldl_pairCap, State.foldl_pairCap, State.foldl_pairCap, State.foldl_pairCap]
  all_goals (intro s x; (repeat' split) <;> simp [fr1, fr2, fr3, fr4])

@[simp] theorem State.sweepEnd_out (s : State) : (State.sweepEnd s).out = s.out := by
  have fr1 := @State.estimateTriggers_frame
  have fr2 := @State.fbEnter_frame
  have fr3 := @State.setKao_frame
  have fr4 := @State.sweepPos_frame
  unfold State.sweepEnd; dsimp only
  rw [State.foldl_out, State.foldl_out, State.foldl_out, State.foldl_out, State.foldl_out]
  all_goals (intro s x; (repeat' split) <;> simp [fr1, fr2, fr3, fr4])

@[simp] theorem State.sweepEnd_free (s : State) : (State.sweepEnd s).free = s.free := by
  have fr1 := @State.estimateTriggers_frame
  have fr2 := @State.fbEnter_frame
  have fr3 := @State.setKao_frame
  have fr4 := @State.sweepPos_frame
  unfold State.sweepEnd; dsimp only
  rw [State.foldl_free, State.foldl_free, State.foldl_free, State.foldl_free, State.foldl_free]
  all_goals (intro s x; (repeat' split) <;> simp [fr1, fr2, fr3, fr4])

@[simp] theorem State.sweepEnd_policy (s : State) : (State.sweepEnd s).policy = s.policy := by
  have fr1 := @State.estimateTriggers_frame
  have fr2 := @State.fbEnter_frame
  have fr3 := @State.setKao_frame
  have fr4 := @State.sweepPos_frame
  unfold State.sweepEnd; dsimp only
  rw [State.foldl_policy, State.foldl_policy, State.foldl_policy, State.foldl_policy, State.foldl_policy]
  all_goals (intro s x; (repeat' split) <;> simp [fr1, fr2, fr3, fr4])

@[simp] theorem State.sweepEnd_chk (s : State) : (State.sweepEnd s).chk = s.chk := by
  have fr1 := @State.estimateTriggers_frame
  have fr2 := @State.fbEnter_frame
  have fr3 := @State.setKao_frame
  have fr4 := @State.sweepPos_frame
  unfold State.sweepEnd; dsimp only
  rw [State.foldl_chk, State.foldl_chk, State.foldl_chk, State.foldl_chk, State.foldl_chk]
  all_goals (intro s x; (repeat' split) <;> simp [fr1, fr2, fr3, fr4])

@[simp] theorem State.sweepEnd_snp (s : State) : (State.sweepEnd s).snp = s.snp := by
  have fr1 := @State.estimateTriggers_frame
  have fr2 := @State.fbEnter_frame
  have fr3 := @State.setKao_frame
  have fr4 := @State.sweepPos_frame
  unfold State.sweepEnd; dsimp only
  rw [State.foldl_snp, State.foldl_snp, State.foldl_snp, State.foldl_snp, State.foldl_snp]
  all_goals (intro s x; (repeat' split) <;> simp [fr1, fr2, fr3, fr4])

@[simp] theorem State.sweepEnd_irq (s : State) : (State.sweepEnd s).irq = s.irq := by
  have fr1 := @State.estimateTriggers_frame
  have fr2 := @State.fbEnter_frame
  have fr3 := @State.setKao_frame
  have fr4 := @State.sweepPos_frame
  unfold State.sweepEnd; dsimp only
  rw [State.foldl_irq, State.foldl_irq, State.foldl_irq, State.foldl_irq, State.foldl_irq]
  all_goals (intro s x; (repeat' split) <;> simp [fr1, fr2, fr3, fr4])

@[simp] theorem State.sweepEnd_ezl (s : State) : (State.sweepEnd s).ezl = s.ezl := by
  have fr1 := @State.estimateTriggers_frame
  have fr2 := @State.fbEnter_frame
  have fr3 := @State.setKao_frame
  have fr4 := @State.sweepPos_frame
  unfold State.sweepEnd; dsimp only
  rw [State.foldl_ezl, State.foldl_ezl, State.foldl_ezl, State.foldl_ezl, State.foldl_ezl]
  all_goals (intro s x; (repeat' split) <;> simp [fr1, fr2, fr3, fr4])

@[simp] theorem State.sweepEnd_stp (s : State) : (State.sweepEnd s).stp = s.stp := by
  have fr1 := @State.estimateTriggers_frame
  have fr2 := @State.fbEnter_frame
  have fr3 := @State.setKao_frame
  have fr4 := @State.sweepPos_frame
  unfold State.sweepEnd; dsimp only
  rw [State.foldl_stp, State.foldl_stp, State.foldl_stp, State.foldl_stp, State.foldl_stp]
  all_goals (intro s x; (repeat' split) <;> simp [fr1, fr2, fr3, fr4])

@[simp] theorem State.sweepEnd_fmt (s : State) : (State.sweepEnd s).fmt = s.fmt := by
  have fr1 := @State.estimateTriggers_frame
  have fr2 := @State.fbEnter_frame
  have fr3 := @State.setKao_frame
  have fr4 := @State.sweepPos_frame
  unfold State.sweepEnd; dsimp only
  rw [State.foldl_fmt, State.foldl_fmt, State.foldl_fmt, State.foldl_fmt, State.foldl_fmt]
  all_goals (intro s x; (repeat' split) <;> simp [fr1, fr2, fr3, fr4])

@[simp] theorem State.sweepEnd_vec (s : State) : (State.sweepEnd s).vec = s.vec := by
  have fr1 := @State.estimateTriggers_frame
  have fr2 := @State.fbEnter_frame
  have fr3 := @State.setKao_frame
  have fr4 := @State.sweepPos_frame
  unfold State.sweepEnd; dsimp only
  rw [State.foldl_vec, State.foldl_vec, State.foldl_vec, State.foldl_vec, State.foldl_vec]
  all_goals (intro s x; (repeat' split) <;> simp [fr1, fr2, fr3, fr4])

@[simp] theorem State.sweepEnd_mxe (s : State) : (State.sweepEnd s).mxe = s.mxe := by
  have fr1 := @State.estimateTriggers_frame
  have fr2 := @State.fbEnter_frame
  have fr3 := @State.setKao_frame
  have fr4 := @State.sweepPos_frame
  unfold State.sweepEnd; dsimp only
  rw [State.foldl_mxe, State.foldl_mxe, State.foldl_mxe, State.foldl_mxe, State.foldl_mxe]
  all_goals (intro s x; (repeat' split) <;> simp [fr1, fr2, fr3, fr4])

@[simp] theorem State.sweepEnd_upd (s : State) : (State.sweepEnd s).upd = s.upd := by
  have fr1 := @State.estimateTriggers_frame
  have fr2 := @State.fbEnter_frame
  have fr3 := @State.setKao_frame
  have fr4 := @State.sweepPos_frame
  unfold State.sweepEnd; dsimp only
  rw [State.foldl_upd, State.foldl_upd, State.foldl_upd, State.foldl_upd, State.foldl_upd]
  all_goals (intro s x; (repeat' split) <;> simp [fr1, fr2, fr3, fr4])

@[simp] theorem State.sweepEnd_red (s : State) : (State.sweepEnd s).red = s.red := by
  have fr1 := @State.estimateTriggers_frame
  have fr2 := @State.fbEnter_frame
  have fr3 := @State.setKao_frame
  have fr4 := @State.sweepPos_frame
  unfold State.sweepEnd; dsimp only
  rw [State.foldl_red, State.foldl_red, State.foldl_red, State.foldl_red, State.foldl_red]
  all_goals (intro s x; (repeat' split) <;> simp [fr1, fr2, fr3, fr4])

@[simp] theorem State.sweepEnd_tsk (s : State) : (State.sweepEnd s).tsk = s.tsk := by
  have fr1 := @State.estimateTriggers_frame
  have fr2 := @State.fbEnter_frame
  have fr3 := @State.setKao_frame
  have fr4 := @State.sweepPos_frame
  unfold State.sweepEnd; dsimp only
  rw [State.foldl_tsk, State.foldl_tsk, State.foldl_tsk, State.foldl_tsk, State.foldl_tsk]
  all_goals (intro s x; (repeat' split) <;> simp [fr1, fr2, fr3, fr4])

@[simp] theorem State.sweepEnd_hif (s : State) : (State.sweepEnd s).hif = s.hif := by
  have fr1 := @State.estimateTriggers_frame
  have fr2 := @State.fbEnter_frame
  have fr3 := @State.setKao_frame
  have fr4 := @State.sweepPos_frame
  unfold State.sweepEnd; dsimp only
  rw [State.foldl_hif, State.foldl_hif, State.foldl_hif, State.foldl_hif, State.foldl_hif]
  all_goals (intro s x; (repeat' split) <;> simp [fr1, fr2, fr3, fr4])

@[simp] theorem State.sweepEnd_img (s : State) : (State.sweepEnd s).img = s.img := by
  have fr1 := @State.estimateTriggers_frame
  have fr2 := @State.fbEnter_frame
  have fr3 := @State.setKao_frame
  have fr4 := @State.sweepPos_frame
  unfold State.sweepEnd; dsimp only
  rw [State.foldl_img, State.foldl_img, State.foldl_img, State.foldl_img, State.foldl_img]
  all_goals (intro s x; (repeat' split) <;> simp [fr1, fr2, fr3, fr4])

@[simp] theorem State.sweepEnd_pwr (s : State) : (State.sweepEnd s).pwr = s.pwr := by
  have fr1 := @State.estimateTriggers_frame
  have fr2 := @State.fbEnter_frame
  have fr3 := @State.setKao_frame
  have fr4 := @State.sweepPos_frame
  unfold State.sweepEnd; dsimp only
  rw [State.foldl_pwr, State.foldl_pwr, State.foldl_pwr, State.foldl_pwr, State.foldl_pwr]
  all_goals (intro s x; (repeat' split) <;> simp [fr1, fr2, fr3, fr4])

@[simp] theorem State.sweepEnd_pending (s : State) : (State.sweepEnd s).pending = s.pending := by
  have fr1 := @State.estimateTriggers_frame
  have fr2 := @State.fbEnter_frame
  have fr3 := @State.setKao_frame
  have fr4 := @State.sweepPos_frame
  unfold State.sweepEnd; dsimp only
  rw [State.foldl_pending, State.foldl_pending, State.foldl_pending, State.foldl_pending, State.foldl_pending]
  all_goals (intro s x; (repeat' split) <;> simp [fr1, fr2, fr3, fr4])


theorem State.storeChunk_frame (s : State) (c seq chunk : Nat) (recs : List BlockRec) :
    (State.storeChunk s c seq chunk recs).regs = s.regs ∧ (State.storeChunk s c seq chunk recs).pairLo = s.pairLo ∧ (State.storeChunk s c seq chunk recs).pairCap = s.pairCap ∧ (State.storeChunk s c seq chunk recs).out = s.out ∧ (State.storeChunk s c seq chunk recs).free = s.free ∧ (State.storeChunk s c seq chunk recs).policy = s.policy ∧ (State.storeChunk s c seq chunk recs).err = s.err ∧ (State.storeChunk s c seq chunk recs).chk = s.chk ∧ (State.storeChunk s c seq chunk recs).snp = s.snp ∧ (State.storeChunk s c seq chunk recs).irq = s.irq ∧ (State.storeChunk s c seq chunk recs).ezl = s.ezl ∧ (State.storeChunk s c seq chunk recs).stp = s.stp ∧ (State.storeChunk s c seq chunk recs).fmt = s.fmt ∧ (State.storeChunk s c seq chunk recs).arr = s.arr ∧ (State.storeChunk s c seq chunk recs).vec = s.vec ∧ (State.storeChunk s c seq chunk recs).mxe = s.mxe ∧ (State.storeChunk s c seq chunk recs).upd = s.upd ∧ (State.storeChunk s c seq chunk recs).tsk = s.tsk ∧ (State.storeChunk s c seq chunk recs).mem = s.mem ∧ (State.storeChunk s c seq chunk recs).hif = s.hif ∧ (State.storeChunk s c seq chunk recs).img = s.img ∧ (State.storeChunk s c seq chunk recs).pwr = s.pwr ∧ (State.storeChunk s c seq chunk recs).pending = s.pending := by
  have fr1 := @State.setChan_frame
  simp [State.storeChunk, fr1]


theorem ringMessage_frame (c : Nat) (m : RingMsg) (s : State) :
    (ringMessage c m s).pairLo = s.pairLo ∧ (ringMessage c m s).pairCap = s.pairCap ∧ (ringMessage c m s).chk = s.chk ∧ (ringMessage c m s).snp = s.snp ∧ (ringMessage c m s).irq = s.irq ∧ (ringMessage c m s).vec = s.vec ∧ (ringMessage c m s).img = s.img ∧ (ringMessage c m s).pwr = s.pwr ∧ (ringMessage c m s).pending = s.pending := by
  have fr1 := @State.findAbort_frame
  have fr2 := @State.incReg_frame
  have fr3 := @State.sendMsg_frame
  have fr4 := @State.setChan_frame
  have fr5 := @State.storeChunk_frame
  have fr6 := @State.takeRx_frame
  simp [ringMessage, fr1, fr2, fr3, fr4, fr5, fr6]


theorem reduceHopAdd_frame (c : Nat) (s : State) :
    (reduceHopAdd c s).pairLo = s.pairLo ∧ (reduceHopAdd c s).pairCap = s.pairCap ∧ (reduceHopAdd c s).chk = s.chk ∧ (reduceHopAdd c s).snp = s.snp ∧ (reduceHopAdd c s).irq = s.irq ∧ (reduceHopAdd c s).vec = s.vec ∧ (reduceHopAdd c s).img = s.img ∧ (reduceHopAdd c s).pwr = s.pwr ∧ (reduceHopAdd c s).pending = s.pending := by
  have fr1 := @State.findAbort_frame
  have fr2 := @State.sendMsg_frame
  have fr3 := @State.setChan_frame
  have fr4 := @State.storeChunk_frame
  unfold reduceHopAdd; dsimp only; (repeat' split) <;> simp [fr1, fr2, fr3, fr4]


theorem bucketSend_frame (c : Nat) (s : State) :
    (bucketSend c s).pairLo = s.pairLo ∧ (bucketSend c s).pairCap = s.pairCap ∧ (bucketSend c s).free = s.free ∧ (bucketSend c s).policy = s.policy ∧ (bucketSend c s).err = s.err ∧ (bucketSend c s).chk = s.chk ∧ (bucketSend c s).snp = s.snp ∧ (bucketSend c s).irq = s.irq ∧ (bucketSend c s).stp = s.stp ∧ (bucketSend c s).fmt = s.fmt ∧ (bucketSend c s).arr = s.arr ∧ (bucketSend c s).vec = s.vec ∧ (bucketSend c s).mxe = s.mxe ∧ (bucketSend c s).upd = s.upd ∧ (bucketSend c s).tsk = s.tsk ∧ (bucketSend c s).mem = s.mem ∧ (bucketSend c s).hif = s.hif ∧ (bucketSend c s).img = s.img ∧ (bucketSend c s).pwr = s.pwr ∧ (bucketSend c s).pending = s.pending := by
  have fr1 := @State.sendMsg_frame
  have fr2 := @State.setChan_frame
  unfold bucketSend; dsimp only; (repeat' split) <;> simp [fr1, fr2]


theorem State.noteRec_frame (s : State) (r : BlockRec) :
    (State.noteRec s r).pairLo = s.pairLo ∧ (State.noteRec s r).pairCap = s.pairCap ∧ (State.noteRec s r).out = s.out ∧ (State.noteRec s r).free = s.free ∧ (State.noteRec s r).policy = s.policy ∧ (State.noteRec s r).err = s.err ∧ (State.noteRec s r).chk = s.chk ∧ (State.noteRec s r).snp = s.snp ∧ (State.noteRec s r).irq = s.irq ∧ (State.noteRec s r).ezl = s.ezl ∧ (State.noteRec s r).fmt = s.fmt ∧ (State.noteRec s r).arr = s.arr ∧ (State.noteRec s r).vec = s.vec ∧ (State.noteRec s r).mxe = s.mxe ∧ (State.noteRec s r).upd = s.upd ∧ (State.noteRec s r).red = s.red ∧ (State.noteRec s r).tsk = s.tsk ∧ (State.noteRec s r).mem = s.mem ∧ (State.noteRec s r).hif = s.hif ∧ (State.noteRec s r).img = s.img ∧ (State.noteRec s r).pwr = s.pwr ∧ (State.noteRec s r).pending = s.pending := by
  have fr1 := @State.event_frame
  have fr2 := @State.modCnt_frame
  simp [State.noteRec, fr1, fr2]


theorem bucketDeliver_frame (c : Nat) (s : State) :
    (bucketDeliver c s).pairLo = s.pairLo ∧ (bucketDeliver c s).pairCap = s.pairCap ∧ (bucketDeliver c s).out = s.out ∧ (bucketDeliver c s).free = s.free ∧ (bucketDeliver c s).policy = s.policy ∧ (bucketDeliver c s).err = s.err ∧ (bucketDeliver c s).chk = s.chk ∧ (bucketDeliver c s).snp = s.snp ∧ (bucketDeliver c s).irq = s.irq ∧ (bucketDeliver c s).ezl = s.ezl ∧ (bucketDeliver c s).arr = s.arr ∧ (bucketDeliver c s).vec = s.vec ∧ (bucketDeliver c s).mxe = s.mxe ∧ (bucketDeliver c s).upd = s.upd ∧ (bucketDeliver c s).tsk = s.tsk ∧ (bucketDeliver c s).mem = s.mem ∧ (bucketDeliver c s).hif = s.hif ∧ (bucketDeliver c s).img = s.img ∧ (bucketDeliver c s).pwr = s.pwr ∧ (bucketDeliver c s).pending = s.pending := by
  have fr1 := @State.foldAmax_frame
  have fr2 := @State.noteRec_frame
  have fr3 := @State.setChan_frame
  unfold bucketDeliver; dsimp only; (repeat' split) <;> simp [fr1, fr2, fr3]


theorem deadline_frame (c seq : Nat) (s : State) :
    (deadline c seq s).pairLo = s.pairLo ∧ (deadline c seq s).pairCap = s.pairCap ∧ (deadline c seq s).chk = s.chk ∧ (deadline c seq s).snp = s.snp ∧ (deadline c seq s).irq = s.irq ∧ (deadline c seq s).vec = s.vec ∧ (deadline c seq s).img = s.img ∧ (deadline c seq s).pwr = s.pwr ∧ (deadline c seq s).pending = s.pending := by
  have fr1 := @State.findAbort_frame
  simp [deadline, fr1]


theorem ringTimeout_frame (c seq : Nat) (s : State) :
    (ringTimeout c seq s).pairLo = s.pairLo ∧ (ringTimeout c seq s).pairCap = s.pairCap ∧ (ringTimeout c seq s).chk = s.chk ∧ (ringTimeout c seq s).snp = s.snp ∧ (ringTimeout c seq s).irq = s.irq ∧ (ringTimeout c seq s).vec = s.vec ∧ (ringTimeout c seq s).img = s.img ∧ (ringTimeout c seq s).pwr = s.pwr ∧ (ringTimeout c seq s).pending = s.pending := by
  have fr1 := @State.findAbort_frame
  unfold ringTimeout; (repeat' split) <;> simp [fr1]


theorem State.formGroup_frame (s : State) :
    (State.formGroup s).pairLo = s.pairLo ∧ (State.formGroup s).pairCap = s.pairCap ∧ (State.formGroup s).out = s.out ∧ (State.formGroup s).free = s.free ∧ (State.formGroup s).policy = s.policy ∧ (State.formGroup s).err = s.err ∧ (State.formGroup s).chk = s.chk ∧ (State.formGroup s).snp = s.snp ∧ (State.formGroup s).irq = s.irq ∧ (State.formGroup s).ezl = s.ezl ∧ (State.formGroup s).fmt = s.fmt ∧ (State.formGroup s).arr = s.arr ∧ (State.formGroup s).vec = s.vec ∧ (State.formGroup s).mxe = s.mxe ∧ (State.formGroup s).upd = s.upd ∧ (State.formGroup s).tsk = s.tsk ∧ (State.formGroup s).mem = s.mem ∧ (State.formGroup s).hif = s.hif ∧ (State.formGroup s).img = s.img ∧ (State.formGroup s).pwr = s.pwr ∧ (State.formGroup s).pending = s.pending := by
  have fr1 := @State.modRed_frame
  have fr2 := @State.modStp_frame
  have fr3 := @State.setRegN_frame
  simp [State.formGroup, fr1, fr2, fr3]


theorem form_frame (rq : Requester) (v : Word) (s : State) :
    (form rq v s).pairLo = s.pairLo ∧ (form rq v s).pairCap = s.pairCap ∧ (form rq v s).out = s.out ∧ (form rq v s).chk = s.chk ∧ (form rq v s).snp = s.snp ∧ (form rq v s).irq = s.irq ∧ (form rq v s).vec = s.vec ∧ (form rq v s).img = s.img ∧ (form rq v s).pwr = s.pwr ∧ (form rq v s).pending = s.pending := by
  have fr1 := @State.applyAbort_frame
  have fr2 := @State.closeAttempt_frame
  have fr3 := @State.formGroup_frame
  have fr4 := @State.modStp_frame
  have fr5 := @State.refuseWrite_frame
  have fr6 := @State.resetChannels_frame
  simp [form, fr1, fr2, fr3, fr4, fr5, fr6]


theorem State.loadConfig_frame (s : State) (img : List Byte) (p : ImgPlain) :
    (State.loadConfig s img p).regs = s.regs ∧ (State.loadConfig s img p).pairLo = s.pairLo ∧ (State.loadConfig s img p).pairCap = s.pairCap ∧ (State.loadConfig s img p).out = s.out ∧ (State.loadConfig s img p).free = s.free ∧ (State.loadConfig s img p).policy = s.policy ∧ (State.loadConfig s img p).err = s.err ∧ (State.loadConfig s img p).chk = s.chk ∧ (State.loadConfig s img p).snp = s.snp ∧ (State.loadConfig s img p).irq = s.irq ∧ (State.loadConfig s img p).stp = s.stp ∧ (State.loadConfig s img p).vec = s.vec ∧ (State.loadConfig s img p).mxe = s.mxe ∧ (State.loadConfig s img p).tsk = s.tsk ∧ (State.loadConfig s img p).hif = s.hif ∧ (State.loadConfig s img p).img = s.img ∧ (State.loadConfig s img p).pwr = s.pwr ∧ (State.loadConfig s img p).pending = s.pending := by
  have fr1 := @State.modArr_frame
  have fr2 := @State.modEzl_frame
  have fr3 := @State.modFmt_frame
  have fr4 := @State.modMem_frame
  have fr5 := @State.modRed_frame
  have fr6 := @State.modUpd_frame
  simp [State.loadConfig, fr1, fr2, fr3, fr4, fr5, fr6]


theorem State.loadHbm_frame (s : State) (img : List Byte) :
    (State.loadHbm s img).regs = s.regs ∧ (State.loadHbm s img).pairLo = s.pairLo ∧ (State.loadHbm s img).pairCap = s.pairCap ∧ (State.loadHbm s img).out = s.out ∧ (State.loadHbm s img).free = s.free ∧ (State.loadHbm s img).policy = s.policy ∧ (State.loadHbm s img).err = s.err ∧ (State.loadHbm s img).chk = s.chk ∧ (State.loadHbm s img).snp = s.snp ∧ (State.loadHbm s img).irq = s.irq ∧ (State.loadHbm s img).ezl = s.ezl ∧ (State.loadHbm s img).stp = s.stp ∧ (State.loadHbm s img).fmt = s.fmt ∧ (State.loadHbm s img).arr = s.arr ∧ (State.loadHbm s img).vec = s.vec ∧ (State.loadHbm s img).mxe = s.mxe ∧ (State.loadHbm s img).upd = s.upd ∧ (State.loadHbm s img).red = s.red ∧ (State.loadHbm s img).tsk = s.tsk ∧ (State.loadHbm s img).hif = s.hif ∧ (State.loadHbm s img).img = s.img ∧ (State.loadHbm s img).pwr = s.pwr ∧ (State.loadHbm s img).pending = s.pending := by
  have fr1 := @State.hbmWrite_frame
  simp [State.loadHbm, fr1]


theorem State.loadFirmware_frame (s : State) (img : List Byte) :
    (State.loadFirmware s img).regs = s.regs ∧ (State.loadFirmware s img).pairLo = s.pairLo ∧ (State.loadFirmware s img).pairCap = s.pairCap ∧ (State.loadFirmware s img).out = s.out ∧ (State.loadFirmware s img).free = s.free ∧ (State.loadFirmware s img).policy = s.policy ∧ (State.loadFirmware s img).err = s.err ∧ (State.loadFirmware s img).chk = s.chk ∧ (State.loadFirmware s img).snp = s.snp ∧ (State.loadFirmware s img).irq = s.irq ∧ (State.loadFirmware s img).ezl = s.ezl ∧ (State.loadFirmware s img).stp = s.stp ∧ (State.loadFirmware s img).fmt = s.fmt ∧ (State.loadFirmware s img).arr = s.arr ∧ (State.loadFirmware s img).vec = s.vec ∧ (State.loadFirmware s img).mxe = s.mxe ∧ (State.loadFirmware s img).upd = s.upd ∧ (State.loadFirmware s img).red = s.red ∧ (State.loadFirmware s img).tsk = s.tsk ∧ (State.loadFirmware s img).mem = s.mem ∧ (State.loadFirmware s img).hif = s.hif ∧ (State.loadFirmware s img).pwr = s.pwr ∧ (State.loadFirmware s img).pending = s.pending := by
  have fr1 := @State.modImg_frame
  simp [State.loadFirmware, fr1]


theorem State.takeImage_frame (s : State) (img : List Byte) (p : ImgPlain) :
    (State.takeImage s img p).pairLo = s.pairLo ∧ (State.takeImage s img p).pairCap = s.pairCap ∧ (State.takeImage s img p).out = s.out ∧ (State.takeImage s img p).free = s.free ∧ (State.takeImage s img p).policy = s.policy ∧ (State.takeImage s img p).err = s.err ∧ (State.takeImage s img p).chk = s.chk ∧ (State.takeImage s img p).snp = s.snp ∧ (State.takeImage s img p).irq = s.irq ∧ (State.takeImage s img p).stp = s.stp ∧ (State.takeImage s img p).vec = s.vec ∧ (State.takeImage s img p).mxe = s.mxe ∧ (State.takeImage s img p).tsk = s.tsk ∧ (State.takeImage s img p).hif = s.hif ∧ (State.takeImage s img p).pwr = s.pwr ∧ (State.takeImage s img p).pending = s.pending := by
  have fr1 := @State.loadConfig_frame
  have fr2 := @State.modImg_frame
  have fr3 := @State.setRegN_frame
  simp [State.takeImage, fr1, fr2, fr3]


theorem State.pwrEvent_frame (s : State) (i : Nat) :
    (State.pwrEvent s i).pairLo = s.pairLo ∧ (State.pwrEvent s i).pairCap = s.pairCap ∧ (State.pwrEvent s i).out = s.out ∧ (State.pwrEvent s i).free = s.free ∧ (State.pwrEvent s i).policy = s.policy ∧ (State.pwrEvent s i).err = s.err ∧ (State.pwrEvent s i).chk = s.chk ∧ (State.pwrEvent s i).snp = s.snp ∧ (State.pwrEvent s i).irq = s.irq ∧ (State.pwrEvent s i).ezl = s.ezl ∧ (State.pwrEvent s i).stp = s.stp ∧ (State.pwrEvent s i).fmt = s.fmt ∧ (State.pwrEvent s i).arr = s.arr ∧ (State.pwrEvent s i).vec = s.vec ∧ (State.pwrEvent s i).mxe = s.mxe ∧ (State.pwrEvent s i).upd = s.upd ∧ (State.pwrEvent s i).red = s.red ∧ (State.pwrEvent s i).tsk = s.tsk ∧ (State.pwrEvent s i).mem = s.mem ∧ (State.pwrEvent s i).hif = s.hif ∧ (State.pwrEvent s i).img = s.img ∧ (State.pwrEvent s i).pending = s.pending := by
  have fr1 := @State.event_frame
  have fr2 := @State.modPwr_frame
  simp [State.pwrEvent, fr1, fr2]


theorem State.pwrEventLog_frame (s : State) (i cause detail : Nat) :
    (State.pwrEventLog s i cause detail).pairLo = s.pairLo ∧ (State.pwrEventLog s i cause detail).pairCap = s.pairCap ∧ (State.pwrEventLog s i cause detail).out = s.out ∧ (State.pwrEventLog s i cause detail).free = s.free ∧ (State.pwrEventLog s i cause detail).policy = s.policy ∧ (State.pwrEventLog s i cause detail).chk = s.chk ∧ (State.pwrEventLog s i cause detail).snp = s.snp ∧ (State.pwrEventLog s i cause detail).irq = s.irq ∧ (State.pwrEventLog s i cause detail).ezl = s.ezl ∧ (State.pwrEventLog s i cause detail).stp = s.stp ∧ (State.pwrEventLog s i cause detail).fmt = s.fmt ∧ (State.pwrEventLog s i cause detail).arr = s.arr ∧ (State.pwrEventLog s i cause detail).vec = s.vec ∧ (State.pwrEventLog s i cause detail).mxe = s.mxe ∧ (State.pwrEventLog s i cause detail).upd = s.upd ∧ (State.pwrEventLog s i cause detail).red = s.red ∧ (State.pwrEventLog s i cause detail).tsk = s.tsk ∧ (State.pwrEventLog s i cause detail).mem = s.mem ∧ (State.pwrEventLog s i cause detail).hif = s.hif ∧ (State.pwrEventLog s i cause detail).img = s.img ∧ (State.pwrEventLog s i cause detail).pending = s.pending := by
  have fr1 := @State.log_frame
  have fr2 := @State.pwrEvent_frame
  simp [State.pwrEventLog, fr1, fr2]


theorem State.switchTo_frame (s : State) (b : Bool) (cause : Nat) :
    (State.switchTo s b cause).pairLo = s.pairLo ∧ (State.switchTo s b cause).pairCap = s.pairCap ∧ (State.switchTo s b cause).out = s.out ∧ (State.switchTo s b cause).free = s.free ∧ (State.switchTo s b cause).policy = s.policy ∧ (State.switchTo s b cause).chk = s.chk ∧ (State.switchTo s b cause).snp = s.snp ∧ (State.switchTo s b cause).irq = s.irq ∧ (State.switchTo s b cause).ezl = s.ezl ∧ (State.switchTo s b cause).stp = s.stp ∧ (State.switchTo s b cause).fmt = s.fmt ∧ (State.switchTo s b cause).arr = s.arr ∧ (State.switchTo s b cause).vec = s.vec ∧ (State.switchTo s b cause).mxe = s.mxe ∧ (State.switchTo s b cause).upd = s.upd ∧ (State.switchTo s b cause).red = s.red ∧ (State.switchTo s b cause).tsk = s.tsk ∧ (State.switchTo s b cause).mem = s.mem ∧ (State.switchTo s b cause).hif = s.hif ∧ (State.switchTo s b cause).img = s.img ∧ (State.switchTo s b cause).pending = s.pending := by
  have fr1 := @State.incReg_frame
  have fr2 := @State.modPwr_frame
  have fr3 := @State.pwrEventLog_frame
  simp [State.switchTo, fr1, fr2, fr3]


theorem State.savePowered_frame (s : State) (ok : Bool) :
    (State.savePowered s ok).regs = s.regs ∧ (State.savePowered s ok).pairLo = s.pairLo ∧ (State.savePowered s ok).pairCap = s.pairCap ∧ (State.savePowered s ok).out = s.out ∧ (State.savePowered s ok).free = s.free ∧ (State.savePowered s ok).policy = s.policy ∧ (State.savePowered s ok).err = s.err ∧ (State.savePowered s ok).chk = s.chk ∧ (State.savePowered s ok).snp = s.snp ∧ (State.savePowered s ok).irq = s.irq ∧ (State.savePowered s ok).ezl = s.ezl ∧ (State.savePowered s ok).stp = s.stp ∧ (State.savePowered s ok).fmt = s.fmt ∧ (State.savePowered s ok).arr = s.arr ∧ (State.savePowered s ok).vec = s.vec ∧ (State.savePowered s ok).mxe = s.mxe ∧ (State.savePowered s ok).upd = s.upd ∧ (State.savePowered s ok).red = s.red ∧ (State.savePowered s ok).tsk = s.tsk ∧ (State.savePowered s ok).mem = s.mem ∧ (State.savePowered s ok).hif = s.hif ∧ (State.savePowered s ok).img = s.img ∧ (State.savePowered s ok).pending = s.pending := by
  have fr1 := @State.modPwr_frame
  simp [State.savePowered, fr1]


theorem State.loadPowered_frame (s : State) :
    (State.loadPowered s).pairLo = s.pairLo ∧ (State.loadPowered s).pairCap = s.pairCap ∧ (State.loadPowered s).out = s.out ∧ (State.loadPowered s).free = s.free ∧ (State.loadPowered s).policy = s.policy ∧ (State.loadPowered s).err = s.err ∧ (State.loadPowered s).chk = s.chk ∧ (State.loadPowered s).snp = s.snp ∧ (State.loadPowered s).irq = s.irq ∧ (State.loadPowered s).ezl = s.ezl ∧ (State.loadPowered s).stp = s.stp ∧ (State.loadPowered s).fmt = s.fmt ∧ (State.loadPowered s).arr = s.arr ∧ (State.loadPowered s).vec = s.vec ∧ (State.loadPowered s).mxe = s.mxe ∧ (State.loadPowered s).upd = s.upd ∧ (State.loadPowered s).red = s.red ∧ (State.loadPowered s).tsk = s.tsk ∧ (State.loadPowered s).mem = s.mem ∧ (State.loadPowered s).hif = s.hif ∧ (State.loadPowered s).img = s.img ∧ (State.loadPowered s).pwr = s.pwr ∧ (State.loadPowered s).pending = s.pending := by
  have fr1 := @State.setRegN_frame
  simp [State.loadPowered, fr1]


theorem State.powerOff_frame (s : State) (latched : Bool) :
    (State.powerOff s latched).out = s.out ∧ (State.powerOff s latched).free = s.free ∧ (State.powerOff s latched).pending = s.pending := by
  simp [State.powerOff]


theorem State.corrected_frame (s : State) (raw : Int) :
    (State.corrected s raw).2.regs = s.regs ∧ (State.corrected s raw).2.pairLo = s.pairLo ∧ (State.corrected s raw).2.pairCap = s.pairCap ∧ (State.corrected s raw).2.out = s.out ∧ (State.corrected s raw).2.policy = s.policy ∧ (State.corrected s raw).2.err = s.err ∧ (State.corrected s raw).2.chk = s.chk ∧ (State.corrected s raw).2.snp = s.snp ∧ (State.corrected s raw).2.irq = s.irq ∧ (State.corrected s raw).2.ezl = s.ezl ∧ (State.corrected s raw).2.stp = s.stp ∧ (State.corrected s raw).2.fmt = s.fmt ∧ (State.corrected s raw).2.arr = s.arr ∧ (State.corrected s raw).2.vec = s.vec ∧ (State.corrected s raw).2.mxe = s.mxe ∧ (State.corrected s raw).2.upd = s.upd ∧ (State.corrected s raw).2.red = s.red ∧ (State.corrected s raw).2.tsk = s.tsk ∧ (State.corrected s raw).2.mem = s.mem ∧ (State.corrected s raw).2.hif = s.hif ∧ (State.corrected s raw).2.img = s.img ∧ (State.corrected s raw).2.pwr = s.pwr ∧ (State.corrected s raw).2.pending = s.pending := by
  unfold State.corrected; dsimp only; (repeat' split) <;> simp


theorem State.smbAnswer_frame (s : State) (code : Nat) (data : List Byte) :
    (State.smbAnswer s code data).regs = s.regs ∧ (State.smbAnswer s code data).pairLo = s.pairLo ∧ (State.smbAnswer s code data).pairCap = s.pairCap ∧ (State.smbAnswer s code data).free = s.free ∧ (State.smbAnswer s code data).policy = s.policy ∧ (State.smbAnswer s code data).err = s.err ∧ (State.smbAnswer s code data).chk = s.chk ∧ (State.smbAnswer s code data).snp = s.snp ∧ (State.smbAnswer s code data).irq = s.irq ∧ (State.smbAnswer s code data).ezl = s.ezl ∧ (State.smbAnswer s code data).stp = s.stp ∧ (State.smbAnswer s code data).fmt = s.fmt ∧ (State.smbAnswer s code data).arr = s.arr ∧ (State.smbAnswer s code data).vec = s.vec ∧ (State.smbAnswer s code data).mxe = s.mxe ∧ (State.smbAnswer s code data).upd = s.upd ∧ (State.smbAnswer s code data).red = s.red ∧ (State.smbAnswer s code data).tsk = s.tsk ∧ (State.smbAnswer s code data).mem = s.mem ∧ (State.smbAnswer s code data).hif = s.hif ∧ (State.smbAnswer s code data).img = s.img ∧ (State.smbAnswer s code data).pending = s.pending := by
  have fr1 := @State.emit_frame
  have fr2 := @State.modPwr_frame
  simp [State.smbAnswer, fr1, fr2]


theorem inputGood_frame (b : Bool) (s : State) :
    (inputGood b s).pairLo = s.pairLo ∧ (inputGood b s).pairCap = s.pairCap ∧ (inputGood b s).free = s.free ∧ (inputGood b s).policy = s.policy ∧ (inputGood b s).chk = s.chk ∧ (inputGood b s).irq = s.irq ∧ (inputGood b s).stp = s.stp ∧ (inputGood b s).fmt = s.fmt ∧ (inputGood b s).arr = s.arr ∧ (inputGood b s).vec = s.vec ∧ (inputGood b s).mxe = s.mxe ∧ (inputGood b s).upd = s.upd ∧ (inputGood b s).red = s.red ∧ (inputGood b s).tsk = s.tsk ∧ (inputGood b s).mem = s.mem ∧ (inputGood b s).hif = s.hif ∧ (inputGood b s).img = s.img ∧ (inputGood b s).pending = s.pending := by
  have fr1 := @State.modPwr_frame
  have fr2 := @State.switchTo_frame
  simp [inputGood, fr1, fr2]


theorem inputLoss_frame (b : Bool) (s : State) :
    (inputLoss b s).pairLo = s.pairLo ∧ (inputLoss b s).pairCap = s.pairCap ∧ (inputLoss b s).out = s.out ∧ (inputLoss b s).free = s.free ∧ (inputLoss b s).policy = s.policy ∧ (inputLoss b s).chk = s.chk ∧ (inputLoss b s).snp = s.snp ∧ (inputLoss b s).irq = s.irq ∧ (inputLoss b s).ezl = s.ezl ∧ (inputLoss b s).stp = s.stp ∧ (inputLoss b s).fmt = s.fmt ∧ (inputLoss b s).arr = s.arr ∧ (inputLoss b s).vec = s.vec ∧ (inputLoss b s).mxe = s.mxe ∧ (inputLoss b s).upd = s.upd ∧ (inputLoss b s).red = s.red ∧ (inputLoss b s).tsk = s.tsk ∧ (inputLoss b s).mem = s.mem ∧ (inputLoss b s).hif = s.hif ∧ (inputLoss b s).img = s.img ∧ (inputLoss b s).pending = s.pending := by
  have fr1 := @State.modPwr_frame
  have fr2 := @State.pwrEvent_frame
  have fr3 := @State.switchTo_frame
  simp [inputLoss, fr1, fr2, fr3]


theorem holdup_frame (s : State) :
    (holdup s).pairLo = s.pairLo ∧ (holdup s).pairCap = s.pairCap ∧ (holdup s).free = s.free ∧ (holdup s).policy = s.policy ∧ (holdup s).chk = s.chk ∧ (holdup s).irq = s.irq ∧ (holdup s).stp = s.stp ∧ (holdup s).fmt = s.fmt ∧ (holdup s).arr = s.arr ∧ (holdup s).vec = s.vec ∧ (holdup s).mxe = s.mxe ∧ (holdup s).upd = s.upd ∧ (holdup s).red = s.red ∧ (holdup s).tsk = s.tsk ∧ (holdup s).mem = s.mem ∧ (holdup s).hif = s.hif ∧ (holdup s).img = s.img ∧ (holdup s).pending = s.pending := by
  have fr1 := @State.modPwr_frame
  have fr2 := @State.pwrEventLog_frame
  have fr3 := @State.raiseTrig_frame
  have fr4 := @State.savePowered_frame
  simp [holdup, fr1, fr2, fr3, fr4]


theorem returnToA_frame (s : State) :
    (returnToA s).pairLo = s.pairLo ∧ (returnToA s).pairCap = s.pairCap ∧ (returnToA s).out = s.out ∧ (returnToA s).free = s.free ∧ (returnToA s).policy = s.policy ∧ (returnToA s).chk = s.chk ∧ (returnToA s).snp = s.snp ∧ (returnToA s).irq = s.irq ∧ (returnToA s).ezl = s.ezl ∧ (returnToA s).stp = s.stp ∧ (returnToA s).fmt = s.fmt ∧ (returnToA s).arr = s.arr ∧ (returnToA s).vec = s.vec ∧ (returnToA s).mxe = s.mxe ∧ (returnToA s).upd = s.upd ∧ (returnToA s).red = s.red ∧ (returnToA s).tsk = s.tsk ∧ (returnToA s).mem = s.mem ∧ (returnToA s).hif = s.hif ∧ (returnToA s).img = s.img ∧ (returnToA s).pending = s.pending := by
  have fr1 := @State.modPwr_frame
  have fr2 := @State.pwrEventLog_frame
  have fr3 := @State.switchTo_frame
  simp [returnToA, fr1, fr2, fr3]


theorem selectInput_frame (rq : Requester) (b : Bool) (s : State) :
    (selectInput rq b s).pairLo = s.pairLo ∧ (selectInput rq b s).pairCap = s.pairCap ∧ (selectInput rq b s).out = s.out ∧ (selectInput rq b s).free = s.free ∧ (selectInput rq b s).policy = s.policy ∧ (selectInput rq b s).chk = s.chk ∧ (selectInput rq b s).snp = s.snp ∧ (selectInput rq b s).irq = s.irq ∧ (selectInput rq b s).ezl = s.ezl ∧ (selectInput rq b s).stp = s.stp ∧ (selectInput rq b s).fmt = s.fmt ∧ (selectInput rq b s).arr = s.arr ∧ (selectInput rq b s).vec = s.vec ∧ (selectInput rq b s).mxe = s.mxe ∧ (selectInput rq b s).upd = s.upd ∧ (selectInput rq b s).red = s.red ∧ (selectInput rq b s).tsk = s.tsk ∧ (selectInput rq b s).mem = s.mem ∧ (selectInput rq b s).hif = s.hif ∧ (selectInput rq b s).img = s.img ∧ (selectInput rq b s).pending = s.pending := by
  have fr1 := @State.pwrEvent_frame
  have fr2 := @State.refuseBit_frame
  have fr3 := @State.refuseWrite_frame
  have fr4 := @State.switchTo_frame
  simp [selectInput, fr1, fr2, fr3, fr4]


theorem clearUnstable_frame (s : State) :
    (clearUnstable s).pairLo = s.pairLo ∧ (clearUnstable s).pairCap = s.pairCap ∧ (clearUnstable s).out = s.out ∧ (clearUnstable s).free = s.free ∧ (clearUnstable s).policy = s.policy ∧ (clearUnstable s).err = s.err ∧ (clearUnstable s).chk = s.chk ∧ (clearUnstable s).snp = s.snp ∧ (clearUnstable s).irq = s.irq ∧ (clearUnstable s).ezl = s.ezl ∧ (clearUnstable s).stp = s.stp ∧ (clearUnstable s).fmt = s.fmt ∧ (clearUnstable s).arr = s.arr ∧ (clearUnstable s).vec = s.vec ∧ (clearUnstable s).mxe = s.mxe ∧ (clearUnstable s).upd = s.upd ∧ (clearUnstable s).red = s.red ∧ (clearUnstable s).tsk = s.tsk ∧ (clearUnstable s).mem = s.mem ∧ (clearUnstable s).hif = s.hif ∧ (clearUnstable s).img = s.img ∧ (clearUnstable s).pending = s.pending := by
  have fr1 := @State.modPwr_frame
  have fr2 := @State.setRegB_frame
  simp [clearUnstable, fr1, fr2]


theorem supplyGood_frame (addr : Nat) (s : State) :
    (supplyGood addr s).pairLo = s.pairLo ∧ (supplyGood addr s).pairCap = s.pairCap ∧ (supplyGood addr s).out = s.out ∧ (supplyGood addr s).free = s.free ∧ (supplyGood addr s).policy = s.policy ∧ (supplyGood addr s).err = s.err ∧ (supplyGood addr s).chk = s.chk ∧ (supplyGood addr s).snp = s.snp ∧ (supplyGood addr s).irq = s.irq ∧ (supplyGood addr s).ezl = s.ezl ∧ (supplyGood addr s).stp = s.stp ∧ (supplyGood addr s).fmt = s.fmt ∧ (supplyGood addr s).arr = s.arr ∧ (supplyGood addr s).vec = s.vec ∧ (supplyGood addr s).mxe = s.mxe ∧ (supplyGood addr s).upd = s.upd ∧ (supplyGood addr s).red = s.red ∧ (supplyGood addr s).tsk = s.tsk ∧ (supplyGood addr s).mem = s.mem ∧ (supplyGood addr s).hif = s.hif ∧ (supplyGood addr s).pending = s.pending := by
  have fr1 := @State.loadPowered_frame
  have fr2 := @State.modImg_frame
  have fr3 := @State.modPwr_frame
  have fr4 := @State.setRegN_frame
  simp [supplyGood, fr1, fr2, fr3, fr4]


theorem State.hardwareFault_frame (s : State) (cause unit : Nat) :
    (State.hardwareFault s cause unit).pairLo = s.pairLo ∧ (State.hardwareFault s cause unit).pairCap = s.pairCap ∧ (State.hardwareFault s cause unit).out = s.out ∧ (State.hardwareFault s cause unit).free = s.free ∧ (State.hardwareFault s cause unit).policy = s.policy ∧ (State.hardwareFault s cause unit).chk = s.chk ∧ (State.hardwareFault s cause unit).snp = s.snp ∧ (State.hardwareFault s cause unit).irq = s.irq ∧ (State.hardwareFault s cause unit).stp = s.stp ∧ (State.hardwareFault s cause unit).fmt = s.fmt ∧ (State.hardwareFault s cause unit).arr = s.arr ∧ (State.hardwareFault s cause unit).vec = s.vec ∧ (State.hardwareFault s cause unit).mxe = s.mxe ∧ (State.hardwareFault s cause unit).upd = s.upd ∧ (State.hardwareFault s cause unit).red = s.red ∧ (State.hardwareFault s cause unit).tsk = s.tsk ∧ (State.hardwareFault s cause unit).mem = s.mem ∧ (State.hardwareFault s cause unit).hif = s.hif ∧ (State.hardwareFault s cause unit).pwr = s.pwr ∧ (State.hardwareFault s cause unit).pending = s.pending := by
  have fr1 := @State.eventLog_frame
  have fr2 := @State.linksDown_frame
  have fr3 := @State.modImg_frame
  have fr4 := @State.setReg_frame
  simp [State.hardwareFault, fr1, fr2, fr3, fr4]


theorem State.softResult_frame (s : State) (ch pos : Nat) (raw : Int) :
    (State.softResult s ch pos raw).pairLo = s.pairLo ∧ (State.softResult s ch pos raw).pairCap = s.pairCap ∧ (State.softResult s ch pos raw).out = s.out ∧ (State.softResult s ch pos raw).free = s.free ∧ (State.softResult s ch pos raw).policy = s.policy ∧ (State.softResult s ch pos raw).err = s.err ∧ (State.softResult s ch pos raw).chk = s.chk ∧ (State.softResult s ch pos raw).snp = s.snp ∧ (State.softResult s ch pos raw).irq = s.irq ∧ (State.softResult s ch pos raw).ezl = s.ezl ∧ (State.softResult s ch pos raw).stp = s.stp ∧ (State.softResult s ch pos raw).fmt = s.fmt ∧ (State.softResult s ch pos raw).arr = s.arr ∧ (State.softResult s ch pos raw).vec = s.vec ∧ (State.softResult s ch pos raw).mxe = s.mxe ∧ (State.softResult s ch pos raw).upd = s.upd ∧ (State.softResult s ch pos raw).red = s.red ∧ (State.softResult s ch pos raw).tsk = s.tsk ∧ (State.softResult s ch pos raw).mem = s.mem ∧ (State.softResult s ch pos raw).hif = s.hif ∧ (State.softResult s ch pos raw).img = s.img ∧ (State.softResult s ch pos raw).pending = s.pending := by
  have fr1 := @State.modPwr_frame
  have fr2 := @State.pwrEvent_frame
  simp [State.softResult, fr1, fr2]


theorem State.trip_frame (s : State) (ch pos : Nat) :
    (State.trip s ch pos).pairLo = s.pairLo ∧ (State.trip s ch pos).pairCap = s.pairCap ∧ (State.trip s ch pos).out = s.out ∧ (State.trip s ch pos).free = s.free ∧ (State.trip s ch pos).policy = s.policy ∧ (State.trip s ch pos).chk = s.chk ∧ (State.trip s ch pos).snp = s.snp ∧ (State.trip s ch pos).irq = s.irq ∧ (State.trip s ch pos).ezl = s.ezl ∧ (State.trip s ch pos).stp = s.stp ∧ (State.trip s ch pos).fmt = s.fmt ∧ (State.trip s ch pos).arr = s.arr ∧ (State.trip s ch pos).vec = s.vec ∧ (State.trip s ch pos).mxe = s.mxe ∧ (State.trip s ch pos).upd = s.upd ∧ (State.trip s ch pos).red = s.red ∧ (State.trip s ch pos).tsk = s.tsk ∧ (State.trip s ch pos).mem = s.mem ∧ (State.trip s ch pos).hif = s.hif ∧ (State.trip s ch pos).img = s.img ∧ (State.trip s ch pos).pending = s.pending := by
  have fr1 := @State.modPwr_frame
  have fr2 := @State.pwrEvent_frame
  have fr3 := @State.pwrEventLog_frame
  have fr4 := @State.setRegB_frame
  simp [State.trip, fr1, fr2, fr3, fr4]


theorem State.checkTrip_frame (s : State) (ch pos : Nat) (n : Int) :
    (State.checkTrip s ch pos n).pairLo = s.pairLo ∧ (State.checkTrip s ch pos n).pairCap = s.pairCap ∧ (State.checkTrip s ch pos n).out = s.out ∧ (State.checkTrip s ch pos n).free = s.free ∧ (State.checkTrip s ch pos n).policy = s.policy ∧ (State.checkTrip s ch pos n).chk = s.chk ∧ (State.checkTrip s ch pos n).snp = s.snp ∧ (State.checkTrip s ch pos n).irq = s.irq ∧ (State.checkTrip s ch pos n).ezl = s.ezl ∧ (State.checkTrip s ch pos n).stp = s.stp ∧ (State.checkTrip s ch pos n).fmt = s.fmt ∧ (State.checkTrip s ch pos n).arr = s.arr ∧ (State.checkTrip s ch pos n).vec = s.vec ∧ (State.checkTrip s ch pos n).mxe = s.mxe ∧ (State.checkTrip s ch pos n).upd = s.upd ∧ (State.checkTrip s ch pos n).red = s.red ∧ (State.checkTrip s ch pos n).tsk = s.tsk ∧ (State.checkTrip s ch pos n).mem = s.mem ∧ (State.checkTrip s ch pos n).hif = s.hif ∧ (State.checkTrip s ch pos n).img = s.img ∧ (State.checkTrip s ch pos n).pending = s.pending := by
  have fr1 := @State.modPwr_frame
  have fr2 := @State.trip_frame
  unfold State.checkTrip; (repeat' split) <;> simp [fr1, fr2]


theorem State.coolantWarn_frame (s : State) :
    (State.coolantWarn s).pairLo = s.pairLo ∧ (State.coolantWarn s).pairCap = s.pairCap ∧ (State.coolantWarn s).out = s.out ∧ (State.coolantWarn s).free = s.free ∧ (State.coolantWarn s).policy = s.policy ∧ (State.coolantWarn s).chk = s.chk ∧ (State.coolantWarn s).snp = s.snp ∧ (State.coolantWarn s).irq = s.irq ∧ (State.coolantWarn s).ezl = s.ezl ∧ (State.coolantWarn s).stp = s.stp ∧ (State.coolantWarn s).fmt = s.fmt ∧ (State.coolantWarn s).arr = s.arr ∧ (State.coolantWarn s).vec = s.vec ∧ (State.coolantWarn s).mxe = s.mxe ∧ (State.coolantWarn s).upd = s.upd ∧ (State.coolantWarn s).red = s.red ∧ (State.coolantWarn s).tsk = s.tsk ∧ (State.coolantWarn s).mem = s.mem ∧ (State.coolantWarn s).hif = s.hif ∧ (State.coolantWarn s).img = s.img ∧ (State.coolantWarn s).pending = s.pending := by
  have fr1 := @State.pwrEvent_frame
  have fr2 := @State.pwrEventLog_frame
  simp [State.coolantWarn, fr1, fr2]


theorem State.bridgeScale_frame (s : State) (ch : Nat) (raw : Int) :
    (State.bridgeScale s ch raw).regs = s.regs ∧ (State.bridgeScale s ch raw).pairLo = s.pairLo ∧ (State.bridgeScale s ch raw).pairCap = s.pairCap ∧ (State.bridgeScale s ch raw).out = s.out ∧ (State.bridgeScale s ch raw).free = s.free ∧ (State.bridgeScale s ch raw).policy = s.policy ∧ (State.bridgeScale s ch raw).err = s.err ∧ (State.bridgeScale s ch raw).chk = s.chk ∧ (State.bridgeScale s ch raw).snp = s.snp ∧ (State.bridgeScale s ch raw).irq = s.irq ∧ (State.bridgeScale s ch raw).ezl = s.ezl ∧ (State.bridgeScale s ch raw).stp = s.stp ∧ (State.bridgeScale s ch raw).fmt = s.fmt ∧ (State.bridgeScale s ch raw).arr = s.arr ∧ (State.bridgeScale s ch raw).vec = s.vec ∧ (State.bridgeScale s ch raw).mxe = s.mxe ∧ (State.bridgeScale s ch raw).upd = s.upd ∧ (State.bridgeScale s ch raw).red = s.red ∧ (State.bridgeScale s ch raw).tsk = s.tsk ∧ (State.bridgeScale s ch raw).mem = s.mem ∧ (State.bridgeScale s ch raw).hif = s.hif ∧ (State.bridgeScale s ch raw).img = s.img ∧ (State.bridgeScale s ch raw).pending = s.pending := by
  have fr1 := @State.modPwr_frame
  simp [State.bridgeScale, fr1]


theorem State.scanResult_frame (s : State) (raw : Int) :
    (State.scanResult s raw).pairLo = s.pairLo ∧ (State.scanResult s raw).pairCap = s.pairCap ∧ (State.scanResult s raw).out = s.out ∧ (State.scanResult s raw).policy = s.policy ∧ (State.scanResult s raw).chk = s.chk ∧ (State.scanResult s raw).snp = s.snp ∧ (State.scanResult s raw).irq = s.irq ∧ (State.scanResult s raw).ezl = s.ezl ∧ (State.scanResult s raw).stp = s.stp ∧ (State.scanResult s raw).fmt = s.fmt ∧ (State.scanResult s raw).arr = s.arr ∧ (State.scanResult s raw).vec = s.vec ∧ (State.scanResult s raw).mxe = s.mxe ∧ (State.scanResult s raw).upd = s.upd ∧ (State.scanResult s raw).red = s.red ∧ (State.scanResult s raw).tsk = s.tsk ∧ (State.scanResult s raw).mem = s.mem ∧ (State.scanResult s raw).hif = s.hif ∧ (State.scanResult s raw).img = s.img ∧ (State.scanResult s raw).pending = s.pending := by
  have fr1 := @State.bridgeScale_frame
  have fr2 := @State.checkTrip_frame
  have fr3 := @State.coolantWarn_frame
  have fr4 := @State.corrected_frame
  have fr5 := @State.modPwr_frame
  simp [State.scanResult, fr1, fr2, fr3, fr4, fr5]


theorem hkaConversion_frame (raw : Int) (s : State) :
    (hkaConversion raw s).pairLo = s.pairLo ∧ (hkaConversion raw s).pairCap = s.pairCap ∧ (hkaConversion raw s).out = s.out ∧ (hkaConversion raw s).policy = s.policy ∧ (hkaConversion raw s).chk = s.chk ∧ (hkaConversion raw s).snp = s.snp ∧ (hkaConversion raw s).irq = s.irq ∧ (hkaConversion raw s).ezl = s.ezl ∧ (hkaConversion raw s).stp = s.stp ∧ (hkaConversion raw s).fmt = s.fmt ∧ (hkaConversion raw s).arr = s.arr ∧ (hkaConversion raw s).vec = s.vec ∧ (hkaConversion raw s).mxe = s.mxe ∧ (hkaConversion raw s).upd = s.upd ∧ (hkaConversion raw s).red = s.red ∧ (hkaConversion raw s).tsk = s.tsk ∧ (hkaConversion raw s).mem = s.mem ∧ (hkaConversion raw s).hif = s.hif ∧ (hkaConversion raw s).img = s.img ∧ (hkaConversion raw s).pending = s.pending := by
  have fr1 := @State.modPwr_frame
  have fr2 := @State.scanResult_frame
  have fr3 := @State.softResult_frame
  unfold hkaConversion; (repeat' split) <;> simp [fr1, fr2, fr3]


theorem sensorFault_frame (ch : Nat) (s : State) :
    (sensorFault ch s).pairLo = s.pairLo ∧ (sensorFault ch s).pairCap = s.pairCap ∧ (sensorFault ch s).out = s.out ∧ (sensorFault ch s).free = s.free ∧ (sensorFault ch s).policy = s.policy ∧ (sensorFault ch s).chk = s.chk ∧ (sensorFault ch s).snp = s.snp ∧ (sensorFault ch s).irq = s.irq ∧ (sensorFault ch s).ezl = s.ezl ∧ (sensorFault ch s).stp = s.stp ∧ (sensorFault ch s).fmt = s.fmt ∧ (sensorFault ch s).arr = s.arr ∧ (sensorFault ch s).vec = s.vec ∧ (sensorFault ch s).mxe = s.mxe ∧ (sensorFault ch s).upd = s.upd ∧ (sensorFault ch s).red = s.red ∧ (sensorFault ch s).tsk = s.tsk ∧ (sensorFault ch s).mem = s.mem ∧ (sensorFault ch s).hif = s.hif ∧ (sensorFault ch s).img = s.img ∧ (sensorFault ch s).pending = s.pending := by
  have fr1 := @State.modPwr_frame
  have fr2 := @State.pwrEventLog_frame
  simp [sensorFault, fr1, fr2]


theorem hkaConvWrite_frame (v : Word) (s : State) :
    (hkaConvWrite v s).regs = s.regs ∧ (hkaConvWrite v s).pairLo = s.pairLo ∧ (hkaConvWrite v s).pairCap = s.pairCap ∧ (hkaConvWrite v s).out = s.out ∧ (hkaConvWrite v s).free = s.free ∧ (hkaConvWrite v s).policy = s.policy ∧ (hkaConvWrite v s).err = s.err ∧ (hkaConvWrite v s).chk = s.chk ∧ (hkaConvWrite v s).snp = s.snp ∧ (hkaConvWrite v s).irq = s.irq ∧ (hkaConvWrite v s).ezl = s.ezl ∧ (hkaConvWrite v s).stp = s.stp ∧ (hkaConvWrite v s).fmt = s.fmt ∧ (hkaConvWrite v s).arr = s.arr ∧ (hkaConvWrite v s).vec = s.vec ∧ (hkaConvWrite v s).mxe = s.mxe ∧ (hkaConvWrite v s).upd = s.upd ∧ (hkaConvWrite v s).red = s.red ∧ (hkaConvWrite v s).tsk = s.tsk ∧ (hkaConvWrite v s).mem = s.mem ∧ (hkaConvWrite v s).hif = s.hif ∧ (hkaConvWrite v s).img = s.img ∧ (hkaConvWrite v s).pending = s.pending := by
  have fr1 := @State.modPwr_frame
  simp [hkaConvWrite, fr1]


theorem hkaDataRead_frame (rq : Requester) (s : State) :
    (hkaDataRead rq s).regs = s.regs ∧ (hkaDataRead rq s).pairLo = s.pairLo ∧ (hkaDataRead rq s).pairCap = s.pairCap ∧ (hkaDataRead rq s).free = s.free ∧ (hkaDataRead rq s).policy = s.policy ∧ (hkaDataRead rq s).err = s.err ∧ (hkaDataRead rq s).chk = s.chk ∧ (hkaDataRead rq s).snp = s.snp ∧ (hkaDataRead rq s).irq = s.irq ∧ (hkaDataRead rq s).ezl = s.ezl ∧ (hkaDataRead rq s).stp = s.stp ∧ (hkaDataRead rq s).fmt = s.fmt ∧ (hkaDataRead rq s).arr = s.arr ∧ (hkaDataRead rq s).vec = s.vec ∧ (hkaDataRead rq s).mxe = s.mxe ∧ (hkaDataRead rq s).upd = s.upd ∧ (hkaDataRead rq s).red = s.red ∧ (hkaDataRead rq s).tsk = s.tsk ∧ (hkaDataRead rq s).mem = s.mem ∧ (hkaDataRead rq s).hif = s.hif ∧ (hkaDataRead rq s).img = s.img ∧ (hkaDataRead rq s).pending = s.pending := by
  have fr1 := @State.emit_frame
  have fr2 := @State.modPwr_frame
  simp [hkaDataRead, fr1, fr2]


theorem State.powerLoop_frame (s : State) :
    (State.powerLoop s).pairLo = s.pairLo ∧ (State.powerLoop s).pairCap = s.pairCap ∧ (State.powerLoop s).out = s.out ∧ (State.powerLoop s).free = s.free ∧ (State.powerLoop s).policy = s.policy ∧ (State.powerLoop s).chk = s.chk ∧ (State.powerLoop s).snp = s.snp ∧ (State.powerLoop s).irq = s.irq ∧ (State.powerLoop s).ezl = s.ezl ∧ (State.powerLoop s).stp = s.stp ∧ (State.powerLoop s).fmt = s.fmt ∧ (State.powerLoop s).arr = s.arr ∧ (State.powerLoop s).vec = s.vec ∧ (State.powerLoop s).mxe = s.mxe ∧ (State.powerLoop s).upd = s.upd ∧ (State.powerLoop s).red = s.red ∧ (State.powerLoop s).tsk = s.tsk ∧ (State.powerLoop s).mem = s.mem ∧ (State.powerLoop s).hif = s.hif ∧ (State.powerLoop s).img = s.img ∧ (State.powerLoop s).pending = s.pending := by
  have fr1 := @State.modPwr_frame
  have fr2 := @State.pwrEventLog_frame
  simp [State.powerLoop, fr1, fr2]


theorem State.kaolinLoop_frame (s : State) (k : Nat) :
    (State.kaolinLoop s k).regs = s.regs ∧ (State.kaolinLoop s k).pairLo = s.pairLo ∧ (State.kaolinLoop s k).pairCap = s.pairCap ∧ (State.kaolinLoop s k).out = s.out ∧ (State.kaolinLoop s k).free = s.free ∧ (State.kaolinLoop s k).policy = s.policy ∧ (State.kaolinLoop s k).err = s.err ∧ (State.kaolinLoop s k).chk = s.chk ∧ (State.kaolinLoop s k).snp = s.snp ∧ (State.kaolinLoop s k).irq = s.irq ∧ (State.kaolinLoop s k).ezl = s.ezl ∧ (State.kaolinLoop s k).stp = s.stp ∧ (State.kaolinLoop s k).fmt = s.fmt ∧ (State.kaolinLoop s k).vec = s.vec ∧ (State.kaolinLoop s k).mxe = s.mxe ∧ (State.kaolinLoop s k).upd = s.upd ∧ (State.kaolinLoop s k).red = s.red ∧ (State.kaolinLoop s k).tsk = s.tsk ∧ (State.kaolinLoop s k).mem = s.mem ∧ (State.kaolinLoop s k).hif = s.hif ∧ (State.kaolinLoop s k).img = s.img ∧ (State.kaolinLoop s k).pending = s.pending := by
  have fr1 := @State.modPwr_frame
  have fr2 := @State.setKao_frame
  simp [State.kaolinLoop, fr1, fr2]


theorem State.damaskLoop_frame (s : State) (d : Nat) :
    (State.damaskLoop s d).regs = s.regs ∧ (State.damaskLoop s d).pairLo = s.pairLo ∧ (State.damaskLoop s d).pairCap = s.pairCap ∧ (State.damaskLoop s d).out = s.out ∧ (State.damaskLoop s d).free = s.free ∧ (State.damaskLoop s d).policy = s.policy ∧ (State.damaskLoop s d).err = s.err ∧ (State.damaskLoop s d).chk = s.chk ∧ (State.damaskLoop s d).snp = s.snp ∧ (State.damaskLoop s d).irq = s.irq ∧ (State.damaskLoop s d).ezl = s.ezl ∧ (State.damaskLoop s d).stp = s.stp ∧ (State.damaskLoop s d).fmt = s.fmt ∧ (State.damaskLoop s d).arr = s.arr ∧ (State.damaskLoop s d).vec = s.vec ∧ (State.damaskLoop s d).mxe = s.mxe ∧ (State.damaskLoop s d).upd = s.upd ∧ (State.damaskLoop s d).red = s.red ∧ (State.damaskLoop s d).tsk = s.tsk ∧ (State.damaskLoop s d).mem = s.mem ∧ (State.damaskLoop s d).hif = s.hif ∧ (State.damaskLoop s d).img = s.img ∧ (State.damaskLoop s d).pending = s.pending := by
  have fr1 := @State.modPwr_frame
  simp [State.damaskLoop, fr1]


theorem State.pwmUpdate_frame (s : State) :
    (State.pwmUpdate s).regs = s.regs ∧ (State.pwmUpdate s).pairLo = s.pairLo ∧ (State.pwmUpdate s).pairCap = s.pairCap ∧ (State.pwmUpdate s).out = s.out ∧ (State.pwmUpdate s).free = s.free ∧ (State.pwmUpdate s).policy = s.policy ∧ (State.pwmUpdate s).err = s.err ∧ (State.pwmUpdate s).chk = s.chk ∧ (State.pwmUpdate s).snp = s.snp ∧ (State.pwmUpdate s).irq = s.irq ∧ (State.pwmUpdate s).ezl = s.ezl ∧ (State.pwmUpdate s).stp = s.stp ∧ (State.pwmUpdate s).fmt = s.fmt ∧ (State.pwmUpdate s).arr = s.arr ∧ (State.pwmUpdate s).vec = s.vec ∧ (State.pwmUpdate s).mxe = s.mxe ∧ (State.pwmUpdate s).upd = s.upd ∧ (State.pwmUpdate s).red = s.red ∧ (State.pwmUpdate s).tsk = s.tsk ∧ (State.pwmUpdate s).mem = s.mem ∧ (State.pwmUpdate s).hif = s.hif ∧ (State.pwmUpdate s).img = s.img ∧ (State.pwmUpdate s).pending = s.pending := by
  have fr1 := @State.modPwr_frame
  simp [State.pwmUpdate, fr1]


theorem governorLoop_frame (s : State) :
    (governorLoop s).pairLo = s.pairLo ∧ (governorLoop s).pairCap = s.pairCap ∧ (governorLoop s).out = s.out ∧ (governorLoop s).free = s.free ∧ (governorLoop s).policy = s.policy ∧ (governorLoop s).chk = s.chk ∧ (governorLoop s).snp = s.snp ∧ (governorLoop s).irq = s.irq ∧ (governorLoop s).ezl = s.ezl ∧ (governorLoop s).stp = s.stp ∧ (governorLoop s).fmt = s.fmt ∧ (governorLoop s).vec = s.vec ∧ (governorLoop s).mxe = s.mxe ∧ (governorLoop s).upd = s.upd ∧ (governorLoop s).red = s.red ∧ (governorLoop s).tsk = s.tsk ∧ (governorLoop s).mem = s.mem ∧ (governorLoop s).hif = s.hif ∧ (governorLoop s).img = s.img ∧ (governorLoop s).pending = s.pending := by
  have fr1 := @State.damaskLoop_frame
  have fr2 := @State.kaolinLoop_frame
  have fr3 := @State.powerLoop_frame
  have fr4 := @State.pwmUpdate_frame
  have fr5 := @State.pwrEvent_frame
  simp [governorLoop, fr1, fr2, fr3, fr4, fr5]


theorem State.imageFault_frame (s : State) (cause index : Nat) :
    (State.imageFault s cause index).pairLo = s.pairLo ∧ (State.imageFault s cause index).pairCap = s.pairCap ∧ (State.imageFault s cause index).out = s.out ∧ (State.imageFault s cause index).free = s.free ∧ (State.imageFault s cause index).policy = s.policy ∧ (State.imageFault s cause index).chk = s.chk ∧ (State.imageFault s cause index).snp = s.snp ∧ (State.imageFault s cause index).irq = s.irq ∧ (State.imageFault s cause index).stp = s.stp ∧ (State.imageFault s cause index).fmt = s.fmt ∧ (State.imageFault s cause index).arr = s.arr ∧ (State.imageFault s cause index).vec = s.vec ∧ (State.imageFault s cause index).mxe = s.mxe ∧ (State.imageFault s cause index).upd = s.upd ∧ (State.imageFault s cause index).red = s.red ∧ (State.imageFault s cause index).tsk = s.tsk ∧ (State.imageFault s cause index).mem = s.mem ∧ (State.imageFault s cause index).hif = s.hif ∧ (State.imageFault s cause index).pwr = s.pwr ∧ (State.imageFault s cause index).pending = s.pending := by
  have fr1 := @State.eventLog_frame
  have fr2 := @State.linksDown_frame
  have fr3 := @State.modImg_frame
  have fr4 := @State.setReg_frame
  simp [State.imageFault, fr1, fr2, fr3, fr4]


theorem State.toStage_frame (s : State) (k : Nat) :
    (State.toStage s k).regs = s.regs ∧ (State.toStage s k).pairLo = s.pairLo ∧ (State.toStage s k).pairCap = s.pairCap ∧ (State.toStage s k).out = s.out ∧ (State.toStage s k).free = s.free ∧ (State.toStage s k).policy = s.policy ∧ (State.toStage s k).err = s.err ∧ (State.toStage s k).chk = s.chk ∧ (State.toStage s k).snp = s.snp ∧ (State.toStage s k).irq = s.irq ∧ (State.toStage s k).ezl = s.ezl ∧ (State.toStage s k).stp = s.stp ∧ (State.toStage s k).fmt = s.fmt ∧ (State.toStage s k).arr = s.arr ∧ (State.toStage s k).vec = s.vec ∧ (State.toStage s k).mxe = s.mxe ∧ (State.toStage s k).upd = s.upd ∧ (State.toStage s k).red = s.red ∧ (State.toStage s k).tsk = s.tsk ∧ (State.toStage s k).mem = s.mem ∧ (State.toStage s k).hif = s.hif ∧ (State.toStage s k).pwr = s.pwr ∧ (State.toStage s k).pending = s.pending := by
  have fr1 := @State.modImg_frame
  simp [State.toStage, fr1]


theorem romStage_frame (s : State) :
    (romStage s).regs = s.regs ∧ (romStage s).pairLo = s.pairLo ∧ (romStage s).pairCap = s.pairCap ∧ (romStage s).out = s.out ∧ (romStage s).free = s.free ∧ (romStage s).policy = s.policy ∧ (romStage s).err = s.err ∧ (romStage s).chk = s.chk ∧ (romStage s).snp = s.snp ∧ (romStage s).irq = s.irq ∧ (romStage s).ezl = s.ezl ∧ (romStage s).stp = s.stp ∧ (romStage s).fmt = s.fmt ∧ (romStage s).arr = s.arr ∧ (romStage s).vec = s.vec ∧ (romStage s).mxe = s.mxe ∧ (romStage s).upd = s.upd ∧ (romStage s).red = s.red ∧ (romStage s).tsk = s.tsk ∧ (romStage s).mem = s.mem ∧ (romStage s).hif = s.hif ∧ (romStage s).pwr = s.pwr ∧ (romStage s).pending = s.pending := by
  have fr1 := @State.toStage_frame
  simp [romStage, fr1]


theorem State.attLost_frame (s : State) (cause : Nat) :
    (State.attLost s cause).pairLo = s.pairLo ∧ (State.attLost s cause).pairCap = s.pairCap ∧ (State.attLost s cause).out = s.out ∧ (State.attLost s cause).free = s.free ∧ (State.attLost s cause).policy = s.policy ∧ (State.attLost s cause).err = s.err ∧ (State.attLost s cause).chk = s.chk ∧ (State.attLost s cause).snp = s.snp ∧ (State.attLost s cause).irq = s.irq ∧ (State.attLost s cause).ezl = s.ezl ∧ (State.attLost s cause).stp = s.stp ∧ (State.attLost s cause).fmt = s.fmt ∧ (State.attLost s cause).arr = s.arr ∧ (State.attLost s cause).vec = s.vec ∧ (State.attLost s cause).mxe = s.mxe ∧ (State.attLost s cause).upd = s.upd ∧ (State.attLost s cause).red = s.red ∧ (State.attLost s cause).tsk = s.tsk ∧ (State.attLost s cause).mem = s.mem ∧ (State.attLost s cause).hif = s.hif ∧ (State.attLost s cause).pwr = s.pwr ∧ (State.attLost s cause).pending = s.pending := by
  have fr1 := @State.event_frame
  have fr2 := @State.modImg_frame
  simp [State.attLost, fr1, fr2]


theorem identityStage_frame (seen : Option (List Byte × List Byte)) (finger : List Byte) (s : State) :
    (identityStage seen finger s).pairLo = s.pairLo ∧ (identityStage seen finger s).pairCap = s.pairCap ∧ (identityStage seen finger s).out = s.out ∧ (identityStage seen finger s).free = s.free ∧ (identityStage seen finger s).policy = s.policy ∧ (identityStage seen finger s).chk = s.chk ∧ (identityStage seen finger s).snp = s.snp ∧ (identityStage seen finger s).irq = s.irq ∧ (identityStage seen finger s).stp = s.stp ∧ (identityStage seen finger s).fmt = s.fmt ∧ (identityStage seen finger s).arr = s.arr ∧ (identityStage seen finger s).vec = s.vec ∧ (identityStage seen finger s).mxe = s.mxe ∧ (identityStage seen finger s).upd = s.upd ∧ (identityStage seen finger s).red = s.red ∧ (identityStage seen finger s).tsk = s.tsk ∧ (identityStage seen finger s).mem = s.mem ∧ (identityStage seen finger s).hif = s.hif ∧ (identityStage seen finger s).pwr = s.pwr ∧ (identityStage seen finger s).pending = s.pending := by
  have fr1 := @State.imageFault_frame
  have fr2 := @State.modImg_frame
  have fr3 := @State.toStage_frame
  have fr4 := @State.attLost_frame
  unfold identityStage; (repeat' split) <;> simp [fr1, fr2, fr3, fr4]


theorem State.formSecret_frame (s : State) (a b : List Byte) :
    (State.formSecret s a b).pairLo = s.pairLo ∧ (State.formSecret s a b).pairCap = s.pairCap ∧ (State.formSecret s a b).out = s.out ∧ (State.formSecret s a b).policy = s.policy ∧ (State.formSecret s a b).err = s.err ∧ (State.formSecret s a b).chk = s.chk ∧ (State.formSecret s a b).snp = s.snp ∧ (State.formSecret s a b).irq = s.irq ∧ (State.formSecret s a b).ezl = s.ezl ∧ (State.formSecret s a b).stp = s.stp ∧ (State.formSecret s a b).fmt = s.fmt ∧ (State.formSecret s a b).arr = s.arr ∧ (State.formSecret s a b).vec = s.vec ∧ (State.formSecret s a b).mxe = s.mxe ∧ (State.formSecret s a b).upd = s.upd ∧ (State.formSecret s a b).red = s.red ∧ (State.formSecret s a b).tsk = s.tsk ∧ (State.formSecret s a b).mem = s.mem ∧ (State.formSecret s a b).hif = s.hif ∧ (State.formSecret s a b).pwr = s.pwr ∧ (State.formSecret s a b).pending = s.pending := by
  have fr1 := @State.attLost_frame
  have fr2 := @State.corrected_frame
  have fr3 := @State.modImg_frame
  unfold State.formSecret; (repeat' split) <;> simp [fr1, fr2, fr3]


theorem imageStage_frame (image : List Byte) (dev : FlashSeen) (s : State) :
    (imageStage image dev s).pairLo = s.pairLo ∧ (imageStage image dev s).pairCap = s.pairCap ∧ (imageStage image dev s).out = s.out ∧ (imageStage image dev s).policy = s.policy ∧ (imageStage image dev s).chk = s.chk ∧ (imageStage image dev s).snp = s.snp ∧ (imageStage image dev s).irq = s.irq ∧ (imageStage image dev s).stp = s.stp ∧ (imageStage image dev s).fmt = s.fmt ∧ (imageStage image dev s).arr = s.arr ∧ (imageStage image dev s).vec = s.vec ∧ (imageStage image dev s).mxe = s.mxe ∧ (imageStage image dev s).upd = s.upd ∧ (imageStage image dev s).red = s.red ∧ (imageStage image dev s).tsk = s.tsk ∧ (imageStage image dev s).mem = s.mem ∧ (imageStage image dev s).hif = s.hif ∧ (imageStage image dev s).pwr = s.pwr ∧ (imageStage image dev s).pending = s.pending := by
  have fr1 := @State.event_frame
  have fr2 := @State.formSecret_frame
  have fr3 := @State.imageFault_frame
  have fr4 := @State.modImg_frame
  have fr5 := @State.toStage_frame
  unfold imageStage; dsimp only; (repeat' split) <;> simp [fr1, fr2, fr3, fr4, fr5]


theorem verifyStage_frame (p : ImgPlain) (s : State) :
    (verifyStage p s).pairLo = s.pairLo ∧ (verifyStage p s).pairCap = s.pairCap ∧ (verifyStage p s).out = s.out ∧ (verifyStage p s).free = s.free ∧ (verifyStage p s).policy = s.policy ∧ (verifyStage p s).chk = s.chk ∧ (verifyStage p s).snp = s.snp ∧ (verifyStage p s).irq = s.irq ∧ (verifyStage p s).stp = s.stp ∧ (verifyStage p s).vec = s.vec ∧ (verifyStage p s).mxe = s.mxe ∧ (verifyStage p s).tsk = s.tsk ∧ (verifyStage p s).hif = s.hif ∧ (verifyStage p s).pwr = s.pwr ∧ (verifyStage p s).pending = s.pending := by
  have fr1 := @State.imageFault_frame
  have fr2 := @State.takeImage_frame
  have fr3 := @State.toStage_frame
  unfold verifyStage; (repeat' split) <;> simp [fr1, fr2, fr3]


theorem State.takeQuiet_frame (s : State) :
    (State.takeQuiet s).regs = s.regs ∧ (State.takeQuiet s).pairLo = s.pairLo ∧ (State.takeQuiet s).pairCap = s.pairCap ∧ (State.takeQuiet s).out = s.out ∧ (State.takeQuiet s).free = s.free ∧ (State.takeQuiet s).err = s.err ∧ (State.takeQuiet s).chk = s.chk ∧ (State.takeQuiet s).snp = s.snp ∧ (State.takeQuiet s).irq = s.irq ∧ (State.takeQuiet s).ezl = s.ezl ∧ (State.takeQuiet s).stp = s.stp ∧ (State.takeQuiet s).fmt = s.fmt ∧ (State.takeQuiet s).arr = s.arr ∧ (State.takeQuiet s).vec = s.vec ∧ (State.takeQuiet s).mxe = s.mxe ∧ (State.takeQuiet s).upd = s.upd ∧ (State.takeQuiet s).red = s.red ∧ (State.takeQuiet s).tsk = s.tsk ∧ (State.takeQuiet s).mem = s.mem ∧ (State.takeQuiet s).hif = s.hif ∧ (State.takeQuiet s).img = s.img ∧ (State.takeQuiet s).pwr = s.pwr ∧ (State.takeQuiet s).pending = s.pending := by
  have fr1 := @State.takePol_frame
  simp [State.takeQuiet, fr1]


theorem State.stageDone_frame (s : State) :
    (State.stageDone s).regs = s.regs ∧ (State.stageDone s).pairLo = s.pairLo ∧ (State.stageDone s).pairCap = s.pairCap ∧ (State.stageDone s).out = s.out ∧ (State.stageDone s).free = s.free ∧ (State.stageDone s).err = s.err ∧ (State.stageDone s).chk = s.chk ∧ (State.stageDone s).snp = s.snp ∧ (State.stageDone s).irq = s.irq ∧ (State.stageDone s).ezl = s.ezl ∧ (State.stageDone s).stp = s.stp ∧ (State.stageDone s).fmt = s.fmt ∧ (State.stageDone s).arr = s.arr ∧ (State.stageDone s).vec = s.vec ∧ (State.stageDone s).mxe = s.mxe ∧ (State.stageDone s).upd = s.upd ∧ (State.stageDone s).red = s.red ∧ (State.stageDone s).tsk = s.tsk ∧ (State.stageDone s).mem = s.mem ∧ (State.stageDone s).hif = s.hif ∧ (State.stageDone s).pwr = s.pwr ∧ (State.stageDone s).pending = s.pending := by
  have fr1 := @State.takeQuiet_frame
  have fr2 := @State.toStage_frame
  simp [State.stageDone, fr1, fr2]


theorem recordsStage_frame (s : State) :
    (recordsStage s).regs = s.regs ∧ (recordsStage s).pairLo = s.pairLo ∧ (recordsStage s).pairCap = s.pairCap ∧ (recordsStage s).out = s.out ∧ (recordsStage s).free = s.free ∧ (recordsStage s).err = s.err ∧ (recordsStage s).chk = s.chk ∧ (recordsStage s).snp = s.snp ∧ (recordsStage s).irq = s.irq ∧ (recordsStage s).ezl = s.ezl ∧ (recordsStage s).stp = s.stp ∧ (recordsStage s).fmt = s.fmt ∧ (recordsStage s).arr = s.arr ∧ (recordsStage s).vec = s.vec ∧ (recordsStage s).mxe = s.mxe ∧ (recordsStage s).upd = s.upd ∧ (recordsStage s).red = s.red ∧ (recordsStage s).tsk = s.tsk ∧ (recordsStage s).mem = s.mem ∧ (recordsStage s).hif = s.hif ∧ (recordsStage s).pwr = s.pwr ∧ (recordsStage s).pending = s.pending := by
  have fr1 := @State.modImg_frame
  have fr2 := @State.stageDone_frame
  simp [recordsStage, fr1, fr2]


theorem State.startFail_frame (s : State) (f : StartFail) :
    (State.startFail s f).pairLo = s.pairLo ∧ (State.startFail s f).pairCap = s.pairCap ∧ (State.startFail s f).out = s.out ∧ (State.startFail s f).free = s.free ∧ (State.startFail s f).policy = s.policy ∧ (State.startFail s f).chk = s.chk ∧ (State.startFail s f).snp = s.snp ∧ (State.startFail s f).irq = s.irq ∧ (State.startFail s f).stp = s.stp ∧ (State.startFail s f).fmt = s.fmt ∧ (State.startFail s f).arr = s.arr ∧ (State.startFail s f).vec = s.vec ∧ (State.startFail s f).mxe = s.mxe ∧ (State.startFail s f).upd = s.upd ∧ (State.startFail s f).red = s.red ∧ (State.startFail s f).tsk = s.tsk ∧ (State.startFail s f).mem = s.mem ∧ (State.startFail s f).hif = s.hif ∧ (State.startFail s f).pwr = s.pwr ∧ (State.startFail s f).pending = s.pending := by
  have fr1 := @State.hardwareFault_frame
  have fr2 := @State.imageFault_frame
  unfold State.startFail; (repeat' split) <;> simp [fr1, fr2]


theorem hbmStage_frame (failed : Option StartFail) (s : State) :
    (hbmStage failed s).pairLo = s.pairLo ∧ (hbmStage failed s).pairCap = s.pairCap ∧ (hbmStage failed s).out = s.out ∧ (hbmStage failed s).free = s.free ∧ (hbmStage failed s).chk = s.chk ∧ (hbmStage failed s).snp = s.snp ∧ (hbmStage failed s).irq = s.irq ∧ (hbmStage failed s).stp = s.stp ∧ (hbmStage failed s).fmt = s.fmt ∧ (hbmStage failed s).arr = s.arr ∧ (hbmStage failed s).vec = s.vec ∧ (hbmStage failed s).mxe = s.mxe ∧ (hbmStage failed s).upd = s.upd ∧ (hbmStage failed s).red = s.red ∧ (hbmStage failed s).tsk = s.tsk ∧ (hbmStage failed s).hif = s.hif ∧ (hbmStage failed s).pwr = s.pwr ∧ (hbmStage failed s).pending = s.pending := by
  have fr1 := @State.loadHbm_frame
  have fr2 := @State.modImg_frame
  have fr3 := @State.stageDone_frame
  have fr4 := @State.startFail_frame
  simp only [hbmStage]; (repeat' split) <;> simp [fr1, fr2, fr3, fr4]


theorem linksStage_frame (s : State) :
    (linksStage s).regs = s.regs ∧ (linksStage s).pairLo = s.pairLo ∧ (linksStage s).pairCap = s.pairCap ∧ (linksStage s).out = s.out ∧ (linksStage s).free = s.free ∧ (linksStage s).err = s.err ∧ (linksStage s).chk = s.chk ∧ (linksStage s).snp = s.snp ∧ (linksStage s).irq = s.irq ∧ (linksStage s).ezl = s.ezl ∧ (linksStage s).stp = s.stp ∧ (linksStage s).fmt = s.fmt ∧ (linksStage s).arr = s.arr ∧ (linksStage s).vec = s.vec ∧ (linksStage s).mxe = s.mxe ∧ (linksStage s).upd = s.upd ∧ (linksStage s).red = s.red ∧ (linksStage s).tsk = s.tsk ∧ (linksStage s).mem = s.mem ∧ (linksStage s).hif = s.hif ∧ (linksStage s).pwr = s.pwr ∧ (linksStage s).pending = s.pending := by
  have fr1 := @State.modImg_frame
  have fr2 := @State.stageDone_frame
  simp [linksStage, fr1, fr2]


theorem finalStage_frame (ms : Nat) (s : State) :
    (finalStage ms s).pairLo = s.pairLo ∧ (finalStage ms s).pairCap = s.pairCap ∧ (finalStage ms s).out = s.out ∧ (finalStage ms s).free = s.free ∧ (finalStage ms s).chk = s.chk ∧ (finalStage ms s).snp = s.snp ∧ (finalStage ms s).irq = s.irq ∧ (finalStage ms s).ezl = s.ezl ∧ (finalStage ms s).arr = s.arr ∧ (finalStage ms s).vec = s.vec ∧ (finalStage ms s).mxe = s.mxe ∧ (finalStage ms s).upd = s.upd ∧ (finalStage ms s).tsk = s.tsk ∧ (finalStage ms s).mem = s.mem ∧ (finalStage ms s).hif = s.hif ∧ (finalStage ms s).pwr = s.pwr ∧ (finalStage ms s).pending = s.pending := by
  have fr1 := @State.formGroup_frame
  have fr2 := @State.formatsStart_frame
  have fr3 := @State.modStp_frame
  have fr4 := @State.setRegF_frame
  have fr5 := @State.takePolicy_frame
  have fr6 := @State.toStage_frame
  simp [finalStage, fr1, fr2, fr3, fr4, fr5, fr6]


theorem State.imgCommand_frame (s : State) (rq : Requester) (c : Nat) (ok : Bool) :
    (State.imgCommand s rq c ok).pairLo = s.pairLo ∧ (State.imgCommand s rq c ok).pairCap = s.pairCap ∧ (State.imgCommand s rq c ok).out = s.out ∧ (State.imgCommand s rq c ok).free = s.free ∧ (State.imgCommand s rq c ok).policy = s.policy ∧ (State.imgCommand s rq c ok).chk = s.chk ∧ (State.imgCommand s rq c ok).snp = s.snp ∧ (State.imgCommand s rq c ok).irq = s.irq ∧ (State.imgCommand s rq c ok).ezl = s.ezl ∧ (State.imgCommand s rq c ok).stp = s.stp ∧ (State.imgCommand s rq c ok).fmt = s.fmt ∧ (State.imgCommand s rq c ok).arr = s.arr ∧ (State.imgCommand s rq c ok).vec = s.vec ∧ (State.imgCommand s rq c ok).mxe = s.mxe ∧ (State.imgCommand s rq c ok).upd = s.upd ∧ (State.imgCommand s rq c ok).red = s.red ∧ (State.imgCommand s rq c ok).tsk = s.tsk ∧ (State.imgCommand s rq c ok).mem = s.mem ∧ (State.imgCommand s rq c ok).hif = s.hif ∧ (State.imgCommand s rq c ok).pwr = s.pwr ∧ (State.imgCommand s rq c ok).pending = s.pending := by
  have fr1 := @State.modImg_frame
  have fr2 := @State.refuseWrite_frame
  simp [State.imgCommand, fr1, fr2]


theorem bootPushed_frame (rq : Requester) (s : State) :
    (bootPushed rq s).pairLo = s.pairLo ∧ (bootPushed rq s).pairCap = s.pairCap ∧ (bootPushed rq s).out = s.out ∧ (bootPushed rq s).free = s.free ∧ (bootPushed rq s).policy = s.policy ∧ (bootPushed rq s).chk = s.chk ∧ (bootPushed rq s).snp = s.snp ∧ (bootPushed rq s).irq = s.irq ∧ (bootPushed rq s).ezl = s.ezl ∧ (bootPushed rq s).stp = s.stp ∧ (bootPushed rq s).fmt = s.fmt ∧ (bootPushed rq s).arr = s.arr ∧ (bootPushed rq s).vec = s.vec ∧ (bootPushed rq s).mxe = s.mxe ∧ (bootPushed rq s).upd = s.upd ∧ (bootPushed rq s).red = s.red ∧ (bootPushed rq s).tsk = s.tsk ∧ (bootPushed rq s).mem = s.mem ∧ (bootPushed rq s).hif = s.hif ∧ (bootPushed rq s).pwr = s.pwr ∧ (bootPushed rq s).pending = s.pending := by
  have fr1 := @State.imgCommand_frame
  simp [bootPushed, fr1]


theorem verifyPushed_frame (rq : Requester) (s : State) :
    (verifyPushed rq s).pairLo = s.pairLo ∧ (verifyPushed rq s).pairCap = s.pairCap ∧ (verifyPushed rq s).out = s.out ∧ (verifyPushed rq s).free = s.free ∧ (verifyPushed rq s).policy = s.policy ∧ (verifyPushed rq s).chk = s.chk ∧ (verifyPushed rq s).snp = s.snp ∧ (verifyPushed rq s).irq = s.irq ∧ (verifyPushed rq s).ezl = s.ezl ∧ (verifyPushed rq s).stp = s.stp ∧ (verifyPushed rq s).fmt = s.fmt ∧ (verifyPushed rq s).arr = s.arr ∧ (verifyPushed rq s).vec = s.vec ∧ (verifyPushed rq s).mxe = s.mxe ∧ (verifyPushed rq s).upd = s.upd ∧ (verifyPushed rq s).red = s.red ∧ (verifyPushed rq s).tsk = s.tsk ∧ (verifyPushed rq s).mem = s.mem ∧ (verifyPushed rq s).hif = s.hif ∧ (verifyPushed rq s).pwr = s.pwr ∧ (verifyPushed rq s).pending = s.pending := by
  have fr1 := @State.imgCommand_frame
  simp [verifyPushed, fr1]


theorem writeImage_frame (rq : Requester) (s : State) :
    (writeImage rq s).pairLo = s.pairLo ∧ (writeImage rq s).pairCap = s.pairCap ∧ (writeImage rq s).out = s.out ∧ (writeImage rq s).free = s.free ∧ (writeImage rq s).policy = s.policy ∧ (writeImage rq s).chk = s.chk ∧ (writeImage rq s).snp = s.snp ∧ (writeImage rq s).irq = s.irq ∧ (writeImage rq s).ezl = s.ezl ∧ (writeImage rq s).stp = s.stp ∧ (writeImage rq s).fmt = s.fmt ∧ (writeImage rq s).arr = s.arr ∧ (writeImage rq s).vec = s.vec ∧ (writeImage rq s).mxe = s.mxe ∧ (writeImage rq s).upd = s.upd ∧ (writeImage rq s).red = s.red ∧ (writeImage rq s).tsk = s.tsk ∧ (writeImage rq s).mem = s.mem ∧ (writeImage rq s).hif = s.hif ∧ (writeImage rq s).pwr = s.pwr ∧ (writeImage rq s).pending = s.pending := by
  have fr1 := @State.imgCommand_frame
  simp [writeImage, fr1]


theorem State.flashEnd_frame (s : State) (res : Nat) :
    (State.flashEnd s res).pairLo = s.pairLo ∧ (State.flashEnd s res).pairCap = s.pairCap ∧ (State.flashEnd s res).out = s.out ∧ (State.flashEnd s res).free = s.free ∧ (State.flashEnd s res).policy = s.policy ∧ (State.flashEnd s res).err = s.err ∧ (State.flashEnd s res).chk = s.chk ∧ (State.flashEnd s res).snp = s.snp ∧ (State.flashEnd s res).irq = s.irq ∧ (State.flashEnd s res).ezl = s.ezl ∧ (State.flashEnd s res).stp = s.stp ∧ (State.flashEnd s res).fmt = s.fmt ∧ (State.flashEnd s res).arr = s.arr ∧ (State.flashEnd s res).vec = s.vec ∧ (State.flashEnd s res).mxe = s.mxe ∧ (State.flashEnd s res).upd = s.upd ∧ (State.flashEnd s res).red = s.red ∧ (State.flashEnd s res).tsk = s.tsk ∧ (State.flashEnd s res).mem = s.mem ∧ (State.flashEnd s res).hif = s.hif ∧ (State.flashEnd s res).pwr = s.pwr ∧ (State.flashEnd s res).pending = s.pending := by
  have fr1 := @State.event_frame
  have fr2 := @State.modImg_frame
  have fr3 := @State.setRegF_frame
  simp [State.flashEnd, fr1, fr2, fr3]


theorem State.programSector_frame (s : State) (i : Nat) (again : Bool) :
    (State.programSector s i again).regs = s.regs ∧ (State.programSector s i again).pairLo = s.pairLo ∧ (State.programSector s i again).pairCap = s.pairCap ∧ (State.programSector s i again).free = s.free ∧ (State.programSector s i again).policy = s.policy ∧ (State.programSector s i again).err = s.err ∧ (State.programSector s i again).chk = s.chk ∧ (State.programSector s i again).snp = s.snp ∧ (State.programSector s i again).irq = s.irq ∧ (State.programSector s i again).ezl = s.ezl ∧ (State.programSector s i again).stp = s.stp ∧ (State.programSector s i again).fmt = s.fmt ∧ (State.programSector s i again).arr = s.arr ∧ (State.programSector s i again).vec = s.vec ∧ (State.programSector s i again).mxe = s.mxe ∧ (State.programSector s i again).upd = s.upd ∧ (State.programSector s i again).red = s.red ∧ (State.programSector s i again).tsk = s.tsk ∧ (State.programSector s i again).mem = s.mem ∧ (State.programSector s i again).hif = s.hif ∧ (State.programSector s i again).img = s.img ∧ (State.programSector s i again).pwr = s.pwr ∧ (State.programSector s i again).pending = s.pending := by
  have fr1 := @State.emit_frame
  simp [State.programSector, fr1]


theorem State.eraseArea_frame (s : State) :
    (State.eraseArea s).regs = s.regs ∧ (State.eraseArea s).pairLo = s.pairLo ∧ (State.eraseArea s).pairCap = s.pairCap ∧ (State.eraseArea s).free = s.free ∧ (State.eraseArea s).policy = s.policy ∧ (State.eraseArea s).err = s.err ∧ (State.eraseArea s).chk = s.chk ∧ (State.eraseArea s).snp = s.snp ∧ (State.eraseArea s).irq = s.irq ∧ (State.eraseArea s).ezl = s.ezl ∧ (State.eraseArea s).stp = s.stp ∧ (State.eraseArea s).fmt = s.fmt ∧ (State.eraseArea s).arr = s.arr ∧ (State.eraseArea s).vec = s.vec ∧ (State.eraseArea s).mxe = s.mxe ∧ (State.eraseArea s).upd = s.upd ∧ (State.eraseArea s).red = s.red ∧ (State.eraseArea s).tsk = s.tsk ∧ (State.eraseArea s).mem = s.mem ∧ (State.eraseArea s).hif = s.hif ∧ (State.eraseArea s).pwr = s.pwr ∧ (State.eraseArea s).pending = s.pending := by
  have fr1 := @State.emit_frame
  have fr2 := @State.modImg_frame
  simp [State.eraseArea, fr1, fr2]


theorem pushedImageVerified_frame (p : ImgPlain) (s : State) :
    (pushedImageVerified p s).pairLo = s.pairLo ∧ (pushedImageVerified p s).pairCap = s.pairCap ∧ (pushedImageVerified p s).free = s.free ∧ (pushedImageVerified p s).policy = s.policy ∧ (pushedImageVerified p s).err = s.err ∧ (pushedImageVerified p s).chk = s.chk ∧ (pushedImageVerified p s).snp = s.snp ∧ (pushedImageVerified p s).irq = s.irq ∧ (pushedImageVerified p s).stp = s.stp ∧ (pushedImageVerified p s).vec = s.vec ∧ (pushedImageVerified p s).mxe = s.mxe ∧ (pushedImageVerified p s).tsk = s.tsk ∧ (pushedImageVerified p s).hif = s.hif ∧ (pushedImageVerified p s).pwr = s.pwr ∧ (pushedImageVerified p s).pending = s.pending := by
  have fr1 := @State.attLost_frame
  have fr2 := @State.eraseArea_frame
  have fr3 := @State.flashEnd_frame
  have fr4 := @State.modImg_frame
  have fr5 := @State.programSector_frame
  have fr6 := @State.setRegF_frame
  have fr7 := @State.takeImage_frame
  have fr8 := @State.toStage_frame
  unfold pushedImageVerified; (repeat' split) <;> simp [fr1, fr2, fr3, fr4, fr5, fr6, fr7, fr8]


theorem sectorProgram_frame (back : List Byte) (s : State) :
    (sectorProgram back s).pairLo = s.pairLo ∧ (sectorProgram back s).pairCap = s.pairCap ∧ (sectorProgram back s).free = s.free ∧ (sectorProgram back s).policy = s.policy ∧ (sectorProgram back s).chk = s.chk ∧ (sectorProgram back s).snp = s.snp ∧ (sectorProgram back s).irq = s.irq ∧ (sectorProgram back s).ezl = s.ezl ∧ (sectorProgram back s).stp = s.stp ∧ (sectorProgram back s).fmt = s.fmt ∧ (sectorProgram back s).arr = s.arr ∧ (sectorProgram back s).vec = s.vec ∧ (sectorProgram back s).mxe = s.mxe ∧ (sectorProgram back s).upd = s.upd ∧ (sectorProgram back s).red = s.red ∧ (sectorProgram back s).tsk = s.tsk ∧ (sectorProgram back s).mem = s.mem ∧ (sectorProgram back s).hif = s.hif ∧ (sectorProgram back s).pwr = s.pwr ∧ (sectorProgram back s).pending = s.pending := by
  have fr1 := @State.flashEnd_frame
  have fr2 := @State.log_frame
  have fr3 := @State.modImg_frame
  have fr4 := @State.programSector_frame
  unfold sectorProgram; (repeat' split) <;> simp [fr1, fr2, fr3, fr4]


theorem leafReservation_frame (first second : Bool) (s : State) :
    (leafReservation first second s).pairLo = s.pairLo ∧ (leafReservation first second s).pairCap = s.pairCap ∧ (leafReservation first second s).out = s.out ∧ (leafReservation first second s).free = s.free ∧ (leafReservation first second s).policy = s.policy ∧ (leafReservation first second s).err = s.err ∧ (leafReservation first second s).chk = s.chk ∧ (leafReservation first second s).snp = s.snp ∧ (leafReservation first second s).irq = s.irq ∧ (leafReservation first second s).ezl = s.ezl ∧ (leafReservation first second s).stp = s.stp ∧ (leafReservation first second s).fmt = s.fmt ∧ (leafReservation first second s).arr = s.arr ∧ (leafReservation first second s).vec = s.vec ∧ (leafReservation first second s).mxe = s.mxe ∧ (leafReservation first second s).upd = s.upd ∧ (leafReservation first second s).red = s.red ∧ (leafReservation first second s).tsk = s.tsk ∧ (leafReservation first second s).mem = s.mem ∧ (leafReservation first second s).hif = s.hif ∧ (leafReservation first second s).pwr = s.pwr ∧ (leafReservation first second s).pending = s.pending := by
  have fr1 := @State.attLost_frame
  have fr2 := @State.modImg_frame
  unfold leafReservation; dsimp only; (repeat' split) <;> simp [fr1, fr2]


theorem attestationKeyBuild_frame (treeId : List Byte) (s : State) :
    (attestationKeyBuild treeId s).pairLo = s.pairLo ∧ (attestationKeyBuild treeId s).pairCap = s.pairCap ∧ (attestationKeyBuild treeId s).out = s.out ∧ (attestationKeyBuild treeId s).free = s.free ∧ (attestationKeyBuild treeId s).policy = s.policy ∧ (attestationKeyBuild treeId s).err = s.err ∧ (attestationKeyBuild treeId s).chk = s.chk ∧ (attestationKeyBuild treeId s).snp = s.snp ∧ (attestationKeyBuild treeId s).irq = s.irq ∧ (attestationKeyBuild treeId s).ezl = s.ezl ∧ (attestationKeyBuild treeId s).stp = s.stp ∧ (attestationKeyBuild treeId s).fmt = s.fmt ∧ (attestationKeyBuild treeId s).arr = s.arr ∧ (attestationKeyBuild treeId s).vec = s.vec ∧ (attestationKeyBuild treeId s).mxe = s.mxe ∧ (attestationKeyBuild treeId s).upd = s.upd ∧ (attestationKeyBuild treeId s).red = s.red ∧ (attestationKeyBuild treeId s).tsk = s.tsk ∧ (attestationKeyBuild treeId s).mem = s.mem ∧ (attestationKeyBuild treeId s).hif = s.hif ∧ (attestationKeyBuild treeId s).pwr = s.pwr ∧ (attestationKeyBuild treeId s).pending = s.pending := by
  have fr1 := @State.attLost_frame
  have fr2 := @State.modImg_frame
  unfold attestationKeyBuild; (repeat' split) <;> simp [fr1, fr2]


theorem attRequest_frame (rq : Requester) (v : Word) (s : State) :
    (attRequest rq v s).pairCap = s.pairCap ∧ (attRequest rq v s).out = s.out ∧ (attRequest rq v s).free = s.free ∧ (attRequest rq v s).policy = s.policy ∧ (attRequest rq v s).err = s.err ∧ (attRequest rq v s).chk = s.chk ∧ (attRequest rq v s).snp = s.snp ∧ (attRequest rq v s).irq = s.irq ∧ (attRequest rq v s).ezl = s.ezl ∧ (attRequest rq v s).stp = s.stp ∧ (attRequest rq v s).fmt = s.fmt ∧ (attRequest rq v s).arr = s.arr ∧ (attRequest rq v s).vec = s.vec ∧ (attRequest rq v s).mxe = s.mxe ∧ (attRequest rq v s).upd = s.upd ∧ (attRequest rq v s).red = s.red ∧ (attRequest rq v s).tsk = s.tsk ∧ (attRequest rq v s).mem = s.mem ∧ (attRequest rq v s).hif = s.hif ∧ (attRequest rq v s).pwr = s.pwr ∧ (attRequest rq v s).pending = s.pending := by
  have fr1 := @State.event_frame
  have fr2 := @State.hiWrite_frame
  have fr3 := @State.modImg_frame
  simp [attRequest, fr1, fr2, fr3]


theorem reportSigned_frame (s : State) :
    (reportSigned s).pairLo = s.pairLo ∧ (reportSigned s).pairCap = s.pairCap ∧ (reportSigned s).out = s.out ∧ (reportSigned s).free = s.free ∧ (reportSigned s).policy = s.policy ∧ (reportSigned s).chk = s.chk ∧ (reportSigned s).snp = s.snp ∧ (reportSigned s).irq = s.irq ∧ (reportSigned s).ezl = s.ezl ∧ (reportSigned s).stp = s.stp ∧ (reportSigned s).fmt = s.fmt ∧ (reportSigned s).arr = s.arr ∧ (reportSigned s).vec = s.vec ∧ (reportSigned s).mxe = s.mxe ∧ (reportSigned s).upd = s.upd ∧ (reportSigned s).red = s.red ∧ (reportSigned s).tsk = s.tsk ∧ (reportSigned s).hif = s.hif ∧ (reportSigned s).pwr = s.pwr ∧ (reportSigned s).pending = s.pending := by
  have fr1 := @State.event_frame
  have fr2 := @State.hbmRead_frame
  have fr3 := @State.hbmWrite_frame
  have fr4 := @State.modImg_frame
  unfold reportSigned; (repeat' split) <;> simp [fr1, fr2, fr3, fr4]


theorem snpTrigFire_frame (rq : Requester) (v : Word) (s : State) :
    (snpTrigFire rq v s).pairLo = s.pairLo ∧ (snpTrigFire rq v s).pairCap = s.pairCap ∧ (snpTrigFire rq v s).free = s.free ∧ (snpTrigFire rq v s).policy = s.policy ∧ (snpTrigFire rq v s).chk = s.chk ∧ (snpTrigFire rq v s).irq = s.irq ∧ (snpTrigFire rq v s).stp = s.stp ∧ (snpTrigFire rq v s).fmt = s.fmt ∧ (snpTrigFire rq v s).arr = s.arr ∧ (snpTrigFire rq v s).vec = s.vec ∧ (snpTrigFire rq v s).mxe = s.mxe ∧ (snpTrigFire rq v s).upd = s.upd ∧ (snpTrigFire rq v s).red = s.red ∧ (snpTrigFire rq v s).tsk = s.tsk ∧ (snpTrigFire rq v s).mem = s.mem ∧ (snpTrigFire rq v s).hif = s.hif ∧ (snpTrigFire rq v s).img = s.img ∧ (snpTrigFire rq v s).pwr = s.pwr ∧ (snpTrigFire rq v s).pending = s.pending := by
  have fr1 := @State.raiseTrig_frame
  simp [snpTrigFire, fr1]


theorem State.setBank_frame (s : State) (b : Nat) (x : Bank) :
    (State.setBank s b x).regs = s.regs ∧ (State.setBank s b x).pairLo = s.pairLo ∧ (State.setBank s b x).pairCap = s.pairCap ∧ (State.setBank s b x).out = s.out ∧ (State.setBank s b x).free = s.free ∧ (State.setBank s b x).policy = s.policy ∧ (State.setBank s b x).err = s.err ∧ (State.setBank s b x).chk = s.chk ∧ (State.setBank s b x).irq = s.irq ∧ (State.setBank s b x).ezl = s.ezl ∧ (State.setBank s b x).stp = s.stp ∧ (State.setBank s b x).fmt = s.fmt ∧ (State.setBank s b x).arr = s.arr ∧ (State.setBank s b x).vec = s.vec ∧ (State.setBank s b x).mxe = s.mxe ∧ (State.setBank s b x).upd = s.upd ∧ (State.setBank s b x).red = s.red ∧ (State.setBank s b x).tsk = s.tsk ∧ (State.setBank s b x).mem = s.mem ∧ (State.setBank s b x).hif = s.hif ∧ (State.setBank s b x).img = s.img ∧ (State.setBank s b x).pwr = s.pwr ∧ (State.setBank s b x).pending = s.pending := by
  have fr1 := @State.modSnp_frame
  simp [State.setBank, fr1]


theorem capture_frame (lat : List Nat) (s : State) :
    (capture lat s).pairLo = s.pairLo ∧ (capture lat s).pairCap = s.pairCap ∧ (capture lat s).out = s.out ∧ (capture lat s).free = s.free ∧ (capture lat s).policy = s.policy ∧ (capture lat s).chk = s.chk ∧ (capture lat s).irq = s.irq ∧ (capture lat s).ezl = s.ezl ∧ (capture lat s).stp = s.stp ∧ (capture lat s).fmt = s.fmt ∧ (capture lat s).arr = s.arr ∧ (capture lat s).vec = s.vec ∧ (capture lat s).mxe = s.mxe ∧ (capture lat s).upd = s.upd ∧ (capture lat s).red = s.red ∧ (capture lat s).tsk = s.tsk ∧ (capture lat s).mem = s.mem ∧ (capture lat s).hif = s.hif ∧ (capture lat s).img = s.img ∧ (capture lat s).pwr = s.pwr ∧ (capture lat s).pending = s.pending := by
  have fr1 := @State.eventLog_frame
  have fr2 := @State.incReg_frame
  have fr3 := @State.modSnp_frame
  have fr4 := @State.setBank_frame
  have fr5 := @State.setRegN_frame
  unfold capture; (repeat' split) <;> simp [fr1, fr2, fr3, fr4, fr5]


theorem State.freeView_frame (s : State) :
    (State.freeView s).regs = s.regs ∧ (State.freeView s).pairLo = s.pairLo ∧ (State.freeView s).pairCap = s.pairCap ∧ (State.freeView s).out = s.out ∧ (State.freeView s).free = s.free ∧ (State.freeView s).policy = s.policy ∧ (State.freeView s).err = s.err ∧ (State.freeView s).chk = s.chk ∧ (State.freeView s).irq = s.irq ∧ (State.freeView s).ezl = s.ezl ∧ (State.freeView s).stp = s.stp ∧ (State.freeView s).fmt = s.fmt ∧ (State.freeView s).arr = s.arr ∧ (State.freeView s).vec = s.vec ∧ (State.freeView s).mxe = s.mxe ∧ (State.freeView s).upd = s.upd ∧ (State.freeView s).red = s.red ∧ (State.freeView s).tsk = s.tsk ∧ (State.freeView s).mem = s.mem ∧ (State.freeView s).hif = s.hif ∧ (State.freeView s).img = s.img ∧ (State.freeView s).pwr = s.pwr ∧ (State.freeView s).pending = s.pending := by
  have fr1 := @State.modSnp_frame
  simp [State.freeView, fr1]


theorem State.snpOff_frame (s : State) :
    (State.snpOff s).regs = s.regs ∧ (State.snpOff s).pairLo = s.pairLo ∧ (State.snpOff s).pairCap = s.pairCap ∧ (State.snpOff s).out = s.out ∧ (State.snpOff s).free = s.free ∧ (State.snpOff s).policy = s.policy ∧ (State.snpOff s).err = s.err ∧ (State.snpOff s).chk = s.chk ∧ (State.snpOff s).irq = s.irq ∧ (State.snpOff s).ezl = s.ezl ∧ (State.snpOff s).stp = s.stp ∧ (State.snpOff s).fmt = s.fmt ∧ (State.snpOff s).arr = s.arr ∧ (State.snpOff s).vec = s.vec ∧ (State.snpOff s).mxe = s.mxe ∧ (State.snpOff s).upd = s.upd ∧ (State.snpOff s).red = s.red ∧ (State.snpOff s).tsk = s.tsk ∧ (State.snpOff s).mem = s.mem ∧ (State.snpOff s).hif = s.hif ∧ (State.snpOff s).img = s.img ∧ (State.snpOff s).pwr = s.pwr ∧ (State.snpOff s).pending = s.pending := by
  have fr1 := @State.modSnp_frame
  simp [State.snpOff, fr1]


theorem State.ringWrite_frame (s : State) (o : Nat) (bs : List Byte) :
    (State.ringWrite s o bs).regs = s.regs ∧ (State.ringWrite s o bs).pairLo = s.pairLo ∧ (State.ringWrite s o bs).pairCap = s.pairCap ∧ (State.ringWrite s o bs).out = s.out ∧ (State.ringWrite s o bs).free = s.free ∧ (State.ringWrite s o bs).policy = s.policy ∧ (State.ringWrite s o bs).err = s.err ∧ (State.ringWrite s o bs).chk = s.chk ∧ (State.ringWrite s o bs).snp = s.snp ∧ (State.ringWrite s o bs).irq = s.irq ∧ (State.ringWrite s o bs).ezl = s.ezl ∧ (State.ringWrite s o bs).stp = s.stp ∧ (State.ringWrite s o bs).fmt = s.fmt ∧ (State.ringWrite s o bs).arr = s.arr ∧ (State.ringWrite s o bs).vec = s.vec ∧ (State.ringWrite s o bs).mxe = s.mxe ∧ (State.ringWrite s o bs).upd = s.upd ∧ (State.ringWrite s o bs).red = s.red ∧ (State.ringWrite s o bs).tsk = s.tsk ∧ (State.ringWrite s o bs).hif = s.hif ∧ (State.ringWrite s o bs).img = s.img ∧ (State.ringWrite s o bs).pwr = s.pwr ∧ (State.ringWrite s o bs).pending = s.pending := by
  have fr1 := @State.hbmWrite_frame
  simp [State.ringWrite, fr1]


theorem drain_frame (s : State) :
    (drain s).pairLo = s.pairLo ∧ (drain s).pairCap = s.pairCap ∧ (drain s).out = s.out ∧ (drain s).free = s.free ∧ (drain s).policy = s.policy ∧ (drain s).err = s.err ∧ (drain s).chk = s.chk ∧ (drain s).irq = s.irq ∧ (drain s).ezl = s.ezl ∧ (drain s).stp = s.stp ∧ (drain s).fmt = s.fmt ∧ (drain s).arr = s.arr ∧ (drain s).vec = s.vec ∧ (drain s).mxe = s.mxe ∧ (drain s).upd = s.upd ∧ (drain s).red = s.red ∧ (drain s).tsk = s.tsk ∧ (drain s).hif = s.hif ∧ (drain s).img = s.img ∧ (drain s).pwr = s.pwr ∧ (drain s).pending = s.pending := by
  have fr1 := @State.event_frame
  have fr2 := @State.incReg_frame
  have fr3 := @State.ringWrite_frame
  have fr4 := @State.setBank_frame
  have fr5 := @State.setRegN_frame
  unfold drain; dsimp only; (repeat' split) <;> simp [fr1, fr2, fr3, fr4, fr5]


theorem snpRingSizeWrite_frame (rq : Requester) (v : Word) (s : State) :
    (snpRingSizeWrite rq v s).pairLo = s.pairLo ∧ (snpRingSizeWrite rq v s).pairCap = s.pairCap ∧ (snpRingSizeWrite rq v s).out = s.out ∧ (snpRingSizeWrite rq v s).free = s.free ∧ (snpRingSizeWrite rq v s).policy = s.policy ∧ (snpRingSizeWrite rq v s).chk = s.chk ∧ (snpRingSizeWrite rq v s).snp = s.snp ∧ (snpRingSizeWrite rq v s).irq = s.irq ∧ (snpRingSizeWrite rq v s).ezl = s.ezl ∧ (snpRingSizeWrite rq v s).stp = s.stp ∧ (snpRingSizeWrite rq v s).fmt = s.fmt ∧ (snpRingSizeWrite rq v s).arr = s.arr ∧ (snpRingSizeWrite rq v s).vec = s.vec ∧ (snpRingSizeWrite rq v s).mxe = s.mxe ∧ (snpRingSizeWrite rq v s).upd = s.upd ∧ (snpRingSizeWrite rq v s).red = s.red ∧ (snpRingSizeWrite rq v s).tsk = s.tsk ∧ (snpRingSizeWrite rq v s).mem = s.mem ∧ (snpRingSizeWrite rq v s).hif = s.hif ∧ (snpRingSizeWrite rq v s).img = s.img ∧ (snpRingSizeWrite rq v s).pwr = s.pwr ∧ (snpRingSizeWrite rq v s).pending = s.pending := by
  have fr1 := @State.refuseWrite_frame
  have fr2 := @State.setRegF_frame
  have fr3 := @State.setRegN_frame
  simp [snpRingSizeWrite, fr1, fr2, fr3]


theorem State.reroute_frame (m : Nat) (s : State) (f : Frame) :
    (State.reroute m s f).pairLo = s.pairLo ∧ (State.reroute m s f).pairCap = s.pairCap ∧ (State.reroute m s f).free = s.free ∧ (State.reroute m s f).policy = s.policy ∧ (State.reroute m s f).err = s.err ∧ (State.reroute m s f).chk = s.chk ∧ (State.reroute m s f).snp = s.snp ∧ (State.reroute m s f).irq = s.irq ∧ (State.reroute m s f).stp = s.stp ∧ (State.reroute m s f).fmt = s.fmt ∧ (State.reroute m s f).arr = s.arr ∧ (State.reroute m s f).vec = s.vec ∧ (State.reroute m s f).mxe = s.mxe ∧ (State.reroute m s f).upd = s.upd ∧ (State.reroute m s f).red = s.red ∧ (State.reroute m s f).tsk = s.tsk ∧ (State.reroute m s f).mem = s.mem ∧ (State.reroute m s f).hif = s.hif ∧ (State.reroute m s f).img = s.img ∧ (State.reroute m s f).pwr = s.pwr ∧ (State.reroute m s f).pending = s.pending := by
  have fr1 := @State.holdFrame_frame
  have fr2 := @State.sendOn_frame
  have fr3 := @State.sendRouted_frame
  unfold State.reroute; (repeat' split) <;> simp [fr1, fr2, fr3]


@[simp] theorem removeLink_pairLo (l : Nat) (s : State) : (removeLink l s).pairLo = s.pairLo := by
  have fr1 := @State.eventLog_frame
  have fr2 := @State.findAbort_frame
  have fr3 := @State.reroute_frame
  have fr4 := @State.sendCtrl_frame
  have fr5 := @State.setLnk_frame
  have fr6 := @State.sendOn_frame
  have fr7 := @State.sendRouted_frame
  unfold removeLink; dsimp only
  split
  · rfl
  · have e1 : ∀ (t : State) a b c d, (t.findAbort a b c d).pairLo = t.pairLo := by intros; simp [fr1, fr2, fr3, fr4, fr5, fr6, fr7]
    have e2 : ∀ (t : State) a b c d f g, (t.eventLog a b c d f g).pairLo = t.pairLo := by intros; simp [fr1, fr2, fr3, fr4, fr5, fr6, fr7]
    have e3 : ∀ (t : State) a b c, (t.sendCtrl a b c).pairLo = t.pairLo := by intros; simp [fr1, fr2, fr3, fr4, fr5, fr6, fr7]
    simp only [State.ite_pairLo, e1, e2, e3, ite_self]
    rw [State.foldl_pairLo _ (by intro s x; (repeat' split) <;> simp [fr1, fr2, fr3, fr4, fr5, fr6, fr7])]
    simp [fr1, fr2, fr3, fr4, fr5, fr6, fr7]

@[simp] theorem removeLink_pairCap (l : Nat) (s : State) : (removeLink l s).pairCap = s.pairCap := by
  have fr1 := @State.eventLog_frame
  have fr2 := @State.findAbort_frame
  have fr3 := @State.reroute_frame
  have fr4 := @State.sendCtrl_frame
  have fr5 := @State.setLnk_frame
  have fr6 := @State.sendOn_frame
  have fr7 := @State.sendRouted_frame
  unfold removeLink; dsimp only
  split
  · rfl
  · have e1 : ∀ (t : State) a b c d, (t.findAbort a b c d).pairCap = t.pairCap := by intros; simp [fr1, fr2, fr3, fr4, fr5, fr6, fr7]
    have e2 : ∀ (t : State) a b c d f g, (t.eventLog a b c d f g).pairCap = t.pairCap := by intros; simp [fr1, fr2, fr3, fr4, fr5, fr6, fr7]
    have e3 : ∀ (t : State) a b c, (t.sendCtrl a b c).pairCap = t.pairCap := by intros; simp [fr1, fr2, fr3, fr4, fr5, fr6, fr7]
    simp only [State.ite_pairCap, e1, e2, e3, ite_self]
    rw [State.foldl_pairCap _ (by intro s x; (repeat' split) <;> simp [fr1, fr2, fr3, fr4, fr5, fr6, fr7])]
    simp [fr1, fr2, fr3, fr4, fr5, fr6, fr7]

@[simp] theorem removeLink_chk (l : Nat) (s : State) : (removeLink l s).chk = s.chk := by
  have fr1 := @State.eventLog_frame
  have fr2 := @State.findAbort_frame
  have fr3 := @State.reroute_frame
  have fr4 := @State.sendCtrl_frame
  have fr5 := @State.setLnk_frame
  have fr6 := @State.sendOn_frame
  have fr7 := @State.sendRouted_frame
  unfold removeLink; dsimp only
  split
  · rfl
  · have e1 : ∀ (t : State) a b c d, (t.findAbort a b c d).chk = t.chk := by intros; simp [fr1, fr2, fr3, fr4, fr5, fr6, fr7]
    have e2 : ∀ (t : State) a b c d f g, (t.eventLog a b c d f g).chk = t.chk := by intros; simp [fr1, fr2, fr3, fr4, fr5, fr6, fr7]
    have e3 : ∀ (t : State) a b c, (t.sendCtrl a b c).chk = t.chk := by intros; simp [fr1, fr2, fr3, fr4, fr5, fr6, fr7]
    simp only [State.ite_chk, e1, e2, e3, ite_self]
    rw [State.foldl_chk _ (by intro s x; (repeat' split) <;> simp [fr1, fr2, fr3, fr4, fr5, fr6, fr7])]
    simp [fr1, fr2, fr3, fr4, fr5, fr6, fr7]

@[simp] theorem removeLink_snp (l : Nat) (s : State) : (removeLink l s).snp = s.snp := by
  have fr1 := @State.eventLog_frame
  have fr2 := @State.findAbort_frame
  have fr3 := @State.reroute_frame
  have fr4 := @State.sendCtrl_frame
  have fr5 := @State.setLnk_frame
  have fr6 := @State.sendOn_frame
  have fr7 := @State.sendRouted_frame
  unfold removeLink; dsimp only
  split
  · rfl
  · have e1 : ∀ (t : State) a b c d, (t.findAbort a b c d).snp = t.snp := by intros; simp [fr1, fr2, fr3, fr4, fr5, fr6, fr7]
    have e2 : ∀ (t : State) a b c d f g, (t.eventLog a b c d f g).snp = t.snp := by intros; simp [fr1, fr2, fr3, fr4, fr5, fr6, fr7]
    have e3 : ∀ (t : State) a b c, (t.sendCtrl a b c).snp = t.snp := by intros; simp [fr1, fr2, fr3, fr4, fr5, fr6, fr7]
    simp only [State.ite_snp, e1, e2, e3, ite_self]
    rw [State.foldl_snp _ (by intro s x; (repeat' split) <;> simp [fr1, fr2, fr3, fr4, fr5, fr6, fr7])]
    simp [fr1, fr2, fr3, fr4, fr5, fr6, fr7]

@[simp] theorem removeLink_irq (l : Nat) (s : State) : (removeLink l s).irq = s.irq := by
  have fr1 := @State.eventLog_frame
  have fr2 := @State.findAbort_frame
  have fr3 := @State.reroute_frame
  have fr4 := @State.sendCtrl_frame
  have fr5 := @State.setLnk_frame
  have fr6 := @State.sendOn_frame
  have fr7 := @State.sendRouted_frame
  unfold removeLink; dsimp only
  split
  · rfl
  · have e1 : ∀ (t : State) a b c d, (t.findAbort a b c d).irq = t.irq := by intros; simp [fr1, fr2, fr3, fr4, fr5, fr6, fr7]
    have e2 : ∀ (t : State) a b c d f g, (t.eventLog a b c d f g).irq = t.irq := by intros; simp [fr1, fr2, fr3, fr4, fr5, fr6, fr7]
    have e3 : ∀ (t : State) a b c, (t.sendCtrl a b c).irq = t.irq := by intros; simp [fr1, fr2, fr3, fr4, fr5, fr6, fr7]
    simp only [State.ite_irq, e1, e2, e3, ite_self]
    rw [State.foldl_irq _ (by intro s x; (repeat' split) <;> simp [fr1, fr2, fr3, fr4, fr5, fr6, fr7])]
    simp [fr1, fr2, fr3, fr4, fr5, fr6, fr7]

@[simp] theorem removeLink_vec (l : Nat) (s : State) : (removeLink l s).vec = s.vec := by
  have fr1 := @State.eventLog_frame
  have fr2 := @State.findAbort_frame
  have fr3 := @State.reroute_frame
  have fr4 := @State.sendCtrl_frame
  have fr5 := @State.setLnk_frame
  have fr6 := @State.sendOn_frame
  have fr7 := @State.sendRouted_frame
  unfold removeLink; dsimp only
  split
  · rfl
  · have e1 : ∀ (t : State) a b c d, (t.findAbort a b c d).vec = t.vec := by intros; simp [fr1, fr2, fr3, fr4, fr5, fr6, fr7]
    have e2 : ∀ (t : State) a b c d f g, (t.eventLog a b c d f g).vec = t.vec := by intros; simp [fr1, fr2, fr3, fr4, fr5, fr6, fr7]
    have e3 : ∀ (t : State) a b c, (t.sendCtrl a b c).vec = t.vec := by intros; simp [fr1, fr2, fr3, fr4, fr5, fr6, fr7]
    simp only [State.ite_vec, e1, e2, e3, ite_self]
    rw [State.foldl_vec _ (by intro s x; (repeat' split) <;> simp [fr1, fr2, fr3, fr4, fr5, fr6, fr7])]
    simp [fr1, fr2, fr3, fr4, fr5, fr6, fr7]

@[simp] theorem removeLink_img (l : Nat) (s : State) : (removeLink l s).img = s.img := by
  have fr1 := @State.eventLog_frame
  have fr2 := @State.findAbort_frame
  have fr3 := @State.reroute_frame
  have fr4 := @State.sendCtrl_frame
  have fr5 := @State.setLnk_frame
  have fr6 := @State.sendOn_frame
  have fr7 := @State.sendRouted_frame
  unfold removeLink; dsimp only
  split
  · rfl
  · have e1 : ∀ (t : State) a b c d, (t.findAbort a b c d).img = t.img := by intros; simp [fr1, fr2, fr3, fr4, fr5, fr6, fr7]
    have e2 : ∀ (t : State) a b c d f g, (t.eventLog a b c d f g).img = t.img := by intros; simp [fr1, fr2, fr3, fr4, fr5, fr6, fr7]
    have e3 : ∀ (t : State) a b c, (t.sendCtrl a b c).img = t.img := by intros; simp [fr1, fr2, fr3, fr4, fr5, fr6, fr7]
    simp only [State.ite_img, e1, e2, e3, ite_self]
    rw [State.foldl_img _ (by intro s x; (repeat' split) <;> simp [fr1, fr2, fr3, fr4, fr5, fr6, fr7])]
    simp [fr1, fr2, fr3, fr4, fr5, fr6, fr7]

@[simp] theorem removeLink_pwr (l : Nat) (s : State) : (removeLink l s).pwr = s.pwr := by
  have fr1 := @State.eventLog_frame
  have fr2 := @State.findAbort_frame
  have fr3 := @State.reroute_frame
  have fr4 := @State.sendCtrl_frame
  have fr5 := @State.setLnk_frame
  have fr6 := @State.sendOn_frame
  have fr7 := @State.sendRouted_frame
  unfold removeLink; dsimp only
  split
  · rfl
  · have e1 : ∀ (t : State) a b c d, (t.findAbort a b c d).pwr = t.pwr := by intros; simp [fr1, fr2, fr3, fr4, fr5, fr6, fr7]
    have e2 : ∀ (t : State) a b c d f g, (t.eventLog a b c d f g).pwr = t.pwr := by intros; simp [fr1, fr2, fr3, fr4, fr5, fr6, fr7]
    have e3 : ∀ (t : State) a b c, (t.sendCtrl a b c).pwr = t.pwr := by intros; simp [fr1, fr2, fr3, fr4, fr5, fr6, fr7]
    simp only [State.ite_pwr, e1, e2, e3, ite_self]
    rw [State.foldl_pwr _ (by intro s x; (repeat' split) <;> simp [fr1, fr2, fr3, fr4, fr5, fr6, fr7])]
    simp [fr1, fr2, fr3, fr4, fr5, fr6, fr7]

@[simp] theorem removeLink_pending (l : Nat) (s : State) : (removeLink l s).pending = s.pending := by
  have fr1 := @State.eventLog_frame
  have fr2 := @State.findAbort_frame
  have fr3 := @State.reroute_frame
  have fr4 := @State.sendCtrl_frame
  have fr5 := @State.setLnk_frame
  have fr6 := @State.sendOn_frame
  have fr7 := @State.sendRouted_frame
  unfold removeLink; dsimp only
  split
  · rfl
  · have e1 : ∀ (t : State) a b c d, (t.findAbort a b c d).pending = t.pending := by intros; simp [fr1, fr2, fr3, fr4, fr5, fr6, fr7]
    have e2 : ∀ (t : State) a b c d f g, (t.eventLog a b c d f g).pending = t.pending := by intros; simp [fr1, fr2, fr3, fr4, fr5, fr6, fr7]
    have e3 : ∀ (t : State) a b c, (t.sendCtrl a b c).pending = t.pending := by intros; simp [fr1, fr2, fr3, fr4, fr5, fr6, fr7]
    simp only [State.ite_pending, e1, e2, e3, ite_self]
    rw [State.foldl_pending _ (by intro s x; (repeat' split) <;> simp [fr1, fr2, fr3, fr4, fr5, fr6, fr7])]
    simp [fr1, fr2, fr3, fr4, fr5, fr6, fr7]


theorem enterRetrain_frame (l : Nat) (s : State) :
    (enterRetrain l s).pairLo = s.pairLo ∧ (enterRetrain l s).pairCap = s.pairCap ∧ (enterRetrain l s).free = s.free ∧ (enterRetrain l s).policy = s.policy ∧ (enterRetrain l s).err = s.err ∧ (enterRetrain l s).chk = s.chk ∧ (enterRetrain l s).snp = s.snp ∧ (enterRetrain l s).irq = s.irq ∧ (enterRetrain l s).stp = s.stp ∧ (enterRetrain l s).fmt = s.fmt ∧ (enterRetrain l s).arr = s.arr ∧ (enterRetrain l s).vec = s.vec ∧ (enterRetrain l s).mxe = s.mxe ∧ (enterRetrain l s).upd = s.upd ∧ (enterRetrain l s).red = s.red ∧ (enterRetrain l s).tsk = s.tsk ∧ (enterRetrain l s).mem = s.mem ∧ (enterRetrain l s).hif = s.hif ∧ (enterRetrain l s).img = s.img ∧ (enterRetrain l s).pwr = s.pwr ∧ (enterRetrain l s).pending = s.pending := by
  have fr1 := @State.linkCount_frame
  have fr2 := @State.reroute_frame
  have fr3 := @State.setLnk_frame
  simp [enterRetrain, fr1, fr2, fr3]


theorem linkSilence_frame (l : Nat) (s : State) :
    (linkSilence l s).pairLo = s.pairLo ∧ (linkSilence l s).pairCap = s.pairCap ∧ (linkSilence l s).free = s.free ∧ (linkSilence l s).policy = s.policy ∧ (linkSilence l s).err = s.err ∧ (linkSilence l s).chk = s.chk ∧ (linkSilence l s).snp = s.snp ∧ (linkSilence l s).irq = s.irq ∧ (linkSilence l s).stp = s.stp ∧ (linkSilence l s).fmt = s.fmt ∧ (linkSilence l s).arr = s.arr ∧ (linkSilence l s).vec = s.vec ∧ (linkSilence l s).mxe = s.mxe ∧ (linkSilence l s).upd = s.upd ∧ (linkSilence l s).red = s.red ∧ (linkSilence l s).tsk = s.tsk ∧ (linkSilence l s).mem = s.mem ∧ (linkSilence l s).hif = s.hif ∧ (linkSilence l s).img = s.img ∧ (linkSilence l s).pwr = s.pwr ∧ (linkSilence l s).pending = s.pending := by
  have fr1 := @enterRetrain_frame
  simp [linkSilence, fr1]


theorem retrainThreshold_frame (l : Nat) (s : State) :
    (retrainThreshold l s).pairLo = s.pairLo ∧ (retrainThreshold l s).pairCap = s.pairCap ∧ (retrainThreshold l s).free = s.free ∧ (retrainThreshold l s).policy = s.policy ∧ (retrainThreshold l s).chk = s.chk ∧ (retrainThreshold l s).snp = s.snp ∧ (retrainThreshold l s).irq = s.irq ∧ (retrainThreshold l s).stp = s.stp ∧ (retrainThreshold l s).fmt = s.fmt ∧ (retrainThreshold l s).arr = s.arr ∧ (retrainThreshold l s).vec = s.vec ∧ (retrainThreshold l s).mxe = s.mxe ∧ (retrainThreshold l s).upd = s.upd ∧ (retrainThreshold l s).red = s.red ∧ (retrainThreshold l s).tsk = s.tsk ∧ (retrainThreshold l s).mem = s.mem ∧ (retrainThreshold l s).hif = s.hif ∧ (retrainThreshold l s).img = s.img ∧ (retrainThreshold l s).pwr = s.pwr ∧ (retrainThreshold l s).pending = s.pending := by
  have fr1 := @State.event_frame
  have fr2 := @State.log_frame
  have fr3 := @enterRetrain_frame
  simp [retrainThreshold, fr1, fr2, fr3]


theorem removeThreshold_frame (l : Nat) (s : State) :
    (removeThreshold l s).pairLo = s.pairLo ∧ (removeThreshold l s).pairCap = s.pairCap ∧ (removeThreshold l s).chk = s.chk ∧ (removeThreshold l s).snp = s.snp ∧ (removeThreshold l s).irq = s.irq ∧ (removeThreshold l s).vec = s.vec ∧ (removeThreshold l s).img = s.img ∧ (removeThreshold l s).pwr = s.pwr ∧ (removeThreshold l s).pending = s.pending := by
  simp [removeThreshold]


theorem State.replayFrom_frame (s : State) (l seq : Nat) :
    (State.replayFrom s l seq).pairLo = s.pairLo ∧ (State.replayFrom s l seq).pairCap = s.pairCap ∧ (State.replayFrom s l seq).free = s.free ∧ (State.replayFrom s l seq).policy = s.policy ∧ (State.replayFrom s l seq).err = s.err ∧ (State.replayFrom s l seq).chk = s.chk ∧ (State.replayFrom s l seq).snp = s.snp ∧ (State.replayFrom s l seq).irq = s.irq ∧ (State.replayFrom s l seq).stp = s.stp ∧ (State.replayFrom s l seq).fmt = s.fmt ∧ (State.replayFrom s l seq).arr = s.arr ∧ (State.replayFrom s l seq).vec = s.vec ∧ (State.replayFrom s l seq).mxe = s.mxe ∧ (State.replayFrom s l seq).upd = s.upd ∧ (State.replayFrom s l seq).red = s.red ∧ (State.replayFrom s l seq).tsk = s.tsk ∧ (State.replayFrom s l seq).mem = s.mem ∧ (State.replayFrom s l seq).hif = s.hif ∧ (State.replayFrom s l seq).img = s.img ∧ (State.replayFrom s l seq).pwr = s.pwr ∧ (State.replayFrom s l seq).pending = s.pending := by
  have fr1 := @State.incReg_frame
  have fr2 := @State.resend_frame
  have fr3 := @State.setLnk_frame
  simp [State.replayFrom, fr1, fr2, fr3]


theorem retrainAttempt_frame (l : Nat) (ok : Bool) (ack : Nat) (s : State) :
    (retrainAttempt l ok ack s).pairLo = s.pairLo ∧ (retrainAttempt l ok ack s).pairCap = s.pairCap ∧ (retrainAttempt l ok ack s).chk = s.chk ∧ (retrainAttempt l ok ack s).snp = s.snp ∧ (retrainAttempt l ok ack s).irq = s.irq ∧ (retrainAttempt l ok ack s).vec = s.vec ∧ (retrainAttempt l ok ack s).img = s.img ∧ (retrainAttempt l ok ack s).pwr = s.pwr ∧ (retrainAttempt l ok ack s).pending = s.pending := by
  have fr1 := @State.event_frame
  have fr2 := @State.replayFrom_frame
  have fr3 := @State.sendWaiting_frame
  have fr4 := @State.setLnk_frame
  unfold retrainAttempt; dsimp only; (repeat' split) <;> simp [fr1, fr2, fr3, fr4]


theorem linkTraining_frame (l : Nat) (r : TrainResult) (s : State) :
    (linkTraining l r s).pairLo = s.pairLo ∧ (linkTraining l r s).pairCap = s.pairCap ∧ (linkTraining l r s).free = s.free ∧ (linkTraining l r s).policy = s.policy ∧ (linkTraining l r s).chk = s.chk ∧ (linkTraining l r s).snp = s.snp ∧ (linkTraining l r s).irq = s.irq ∧ (linkTraining l r s).stp = s.stp ∧ (linkTraining l r s).fmt = s.fmt ∧ (linkTraining l r s).arr = s.arr ∧ (linkTraining l r s).vec = s.vec ∧ (linkTraining l r s).mxe = s.mxe ∧ (linkTraining l r s).upd = s.upd ∧ (linkTraining l r s).red = s.red ∧ (linkTraining l r s).tsk = s.tsk ∧ (linkTraining l r s).mem = s.mem ∧ (linkTraining l r s).hif = s.hif ∧ (linkTraining l r s).img = s.img ∧ (linkTraining l r s).pwr = s.pwr ∧ (linkTraining l r s).pending = s.pending := by
  have fr1 := @State.eventLog_frame
  have fr2 := @State.sendWaiting_frame
  have fr3 := @State.setLnk_frame
  unfold linkTraining; (repeat' split) <;> simp [fr1, fr2, fr3]


theorem ezlRefuse_frame (rq : Requester) (cmd l : Nat) (s : State) :
    (ezlRefuse rq cmd l s).pairLo = s.pairLo ∧ (ezlRefuse rq cmd l s).pairCap = s.pairCap ∧ (ezlRefuse rq cmd l s).out = s.out ∧ (ezlRefuse rq cmd l s).free = s.free ∧ (ezlRefuse rq cmd l s).policy = s.policy ∧ (ezlRefuse rq cmd l s).chk = s.chk ∧ (ezlRefuse rq cmd l s).snp = s.snp ∧ (ezlRefuse rq cmd l s).irq = s.irq ∧ (ezlRefuse rq cmd l s).ezl = s.ezl ∧ (ezlRefuse rq cmd l s).stp = s.stp ∧ (ezlRefuse rq cmd l s).fmt = s.fmt ∧ (ezlRefuse rq cmd l s).arr = s.arr ∧ (ezlRefuse rq cmd l s).vec = s.vec ∧ (ezlRefuse rq cmd l s).mxe = s.mxe ∧ (ezlRefuse rq cmd l s).upd = s.upd ∧ (ezlRefuse rq cmd l s).red = s.red ∧ (ezlRefuse rq cmd l s).tsk = s.tsk ∧ (ezlRefuse rq cmd l s).mem = s.mem ∧ (ezlRefuse rq cmd l s).hif = s.hif ∧ (ezlRefuse rq cmd l s).img = s.img ∧ (ezlRefuse rq cmd l s).pwr = s.pwr ∧ (ezlRefuse rq cmd l s).pending = s.pending := by
  have fr1 := @State.refuseWrite_frame
  simp [ezlRefuse, fr1]


theorem cmdRetrain_frame (rq : Requester) (l : Nat) (s : State) :
    (cmdRetrain rq l s).pairLo = s.pairLo ∧ (cmdRetrain rq l s).pairCap = s.pairCap ∧ (cmdRetrain rq l s).free = s.free ∧ (cmdRetrain rq l s).policy = s.policy ∧ (cmdRetrain rq l s).chk = s.chk ∧ (cmdRetrain rq l s).snp = s.snp ∧ (cmdRetrain rq l s).irq = s.irq ∧ (cmdRetrain rq l s).stp = s.stp ∧ (cmdRetrain rq l s).fmt = s.fmt ∧ (cmdRetrain rq l s).arr = s.arr ∧ (cmdRetrain rq l s).vec = s.vec ∧ (cmdRetrain rq l s).mxe = s.mxe ∧ (cmdRetrain rq l s).upd = s.upd ∧ (cmdRetrain rq l s).red = s.red ∧ (cmdRetrain rq l s).tsk = s.tsk ∧ (cmdRetrain rq l s).mem = s.mem ∧ (cmdRetrain rq l s).hif = s.hif ∧ (cmdRetrain rq l s).img = s.img ∧ (cmdRetrain rq l s).pwr = s.pwr ∧ (cmdRetrain rq l s).pending = s.pending := by
  have fr1 := @enterRetrain_frame
  have fr2 := @ezlRefuse_frame
  simp [cmdRetrain, fr1, fr2]


theorem cmdRemove_frame (rq : Requester) (l : Nat) (s : State) :
    (cmdRemove rq l s).pairLo = s.pairLo ∧ (cmdRemove rq l s).pairCap = s.pairCap ∧ (cmdRemove rq l s).chk = s.chk ∧ (cmdRemove rq l s).snp = s.snp ∧ (cmdRemove rq l s).irq = s.irq ∧ (cmdRemove rq l s).vec = s.vec ∧ (cmdRemove rq l s).img = s.img ∧ (cmdRemove rq l s).pwr = s.pwr ∧ (cmdRemove rq l s).pending = s.pending := by
  have fr1 := @ezlRefuse_frame
  simp [cmdRemove, fr1]


theorem cmdRestore_frame (rq : Requester) (l : Nat) (s : State) :
    (cmdRestore rq l s).pairLo = s.pairLo ∧ (cmdRestore rq l s).pairCap = s.pairCap ∧ (cmdRestore rq l s).out = s.out ∧ (cmdRestore rq l s).free = s.free ∧ (cmdRestore rq l s).policy = s.policy ∧ (cmdRestore rq l s).chk = s.chk ∧ (cmdRestore rq l s).snp = s.snp ∧ (cmdRestore rq l s).irq = s.irq ∧ (cmdRestore rq l s).stp = s.stp ∧ (cmdRestore rq l s).fmt = s.fmt ∧ (cmdRestore rq l s).arr = s.arr ∧ (cmdRestore rq l s).vec = s.vec ∧ (cmdRestore rq l s).mxe = s.mxe ∧ (cmdRestore rq l s).upd = s.upd ∧ (cmdRestore rq l s).red = s.red ∧ (cmdRestore rq l s).tsk = s.tsk ∧ (cmdRestore rq l s).mem = s.mem ∧ (cmdRestore rq l s).hif = s.hif ∧ (cmdRestore rq l s).img = s.img ∧ (cmdRestore rq l s).pwr = s.pwr ∧ (cmdRestore rq l s).pending = s.pending := by
  have fr1 := @State.setLnk_frame
  have fr2 := @ezlRefuse_frame
  simp [cmdRestore, fr1, fr2]


theorem linkDown_frame (src l : Nat) (s : State) :
    (linkDown src l s).pairLo = s.pairLo ∧ (linkDown src l s).pairCap = s.pairCap ∧ (linkDown src l s).chk = s.chk ∧ (linkDown src l s).snp = s.snp ∧ (linkDown src l s).irq = s.irq ∧ (linkDown src l s).vec = s.vec ∧ (linkDown src l s).img = s.img ∧ (linkDown src l s).pwr = s.pwr ∧ (linkDown src l s).pending = s.pending := by
  have fr1 := @State.takeRx_frame
  unfold linkDown; dsimp only; (repeat' split) <;> simp [fr1]


theorem State.sendNak_frame (s : State) (l reason seq : Nat) :
    (State.sendNak s l reason seq).pairLo = s.pairLo ∧ (State.sendNak s l reason seq).pairCap = s.pairCap ∧ (State.sendNak s l reason seq).free = s.free ∧ (State.sendNak s l reason seq).policy = s.policy ∧ (State.sendNak s l reason seq).chk = s.chk ∧ (State.sendNak s l reason seq).snp = s.snp ∧ (State.sendNak s l reason seq).irq = s.irq ∧ (State.sendNak s l reason seq).stp = s.stp ∧ (State.sendNak s l reason seq).fmt = s.fmt ∧ (State.sendNak s l reason seq).arr = s.arr ∧ (State.sendNak s l reason seq).vec = s.vec ∧ (State.sendNak s l reason seq).mxe = s.mxe ∧ (State.sendNak s l reason seq).upd = s.upd ∧ (State.sendNak s l reason seq).red = s.red ∧ (State.sendNak s l reason seq).tsk = s.tsk ∧ (State.sendNak s l reason seq).mem = s.mem ∧ (State.sendNak s l reason seq).hif = s.hif ∧ (State.sendNak s l reason seq).img = s.img ∧ (State.sendNak s l reason seq).pwr = s.pwr ∧ (State.sendNak s l reason seq).pending = s.pending := by
  have fr1 := @State.eventLog_frame
  have fr2 := @State.linkCount_frame
  have fr3 := @State.sendIdle_frame
  have fr4 := @State.setLnk_frame
  have fr5 := @State.setReg_frame
  simp [State.sendNak, fr1, fr2, fr3, fr4, fr5]


theorem State.flitNews_frame (s : State) (l : Nat) (h : FlitHdr) :
    (State.flitNews s l h).pairLo = s.pairLo ∧ (State.flitNews s l h).pairCap = s.pairCap ∧ (State.flitNews s l h).free = s.free ∧ (State.flitNews s l h).policy = s.policy ∧ (State.flitNews s l h).chk = s.chk ∧ (State.flitNews s l h).snp = s.snp ∧ (State.flitNews s l h).irq = s.irq ∧ (State.flitNews s l h).stp = s.stp ∧ (State.flitNews s l h).fmt = s.fmt ∧ (State.flitNews s l h).arr = s.arr ∧ (State.flitNews s l h).vec = s.vec ∧ (State.flitNews s l h).mxe = s.mxe ∧ (State.flitNews s l h).upd = s.upd ∧ (State.flitNews s l h).red = s.red ∧ (State.flitNews s l h).tsk = s.tsk ∧ (State.flitNews s l h).mem = s.mem ∧ (State.flitNews s l h).hif = s.hif ∧ (State.flitNews s l h).img = s.img ∧ (State.flitNews s l h).pwr = s.pwr ∧ (State.flitNews s l h).pending = s.pending := by
  have fr1 := @State.eventLog_frame
  have fr2 := @State.linkCount_frame
  have fr3 := @State.replayFrom_frame
  have fr4 := @State.setLnk_frame
  have fr5 := @State.setRegF_frame
  simp [State.flitNews, fr1, fr2, fr3, fr4, fr5]


theorem State.frameDone_frame (s : State) (l : Nat) (f : Frame) :
    (State.frameDone s l f).pairLo = s.pairLo ∧ (State.frameDone s l f).pairCap = s.pairCap ∧ (State.frameDone s l f).free = s.free ∧ (State.frameDone s l f).policy = s.policy ∧ (State.frameDone s l f).err = s.err ∧ (State.frameDone s l f).chk = s.chk ∧ (State.frameDone s l f).snp = s.snp ∧ (State.frameDone s l f).irq = s.irq ∧ (State.frameDone s l f).stp = s.stp ∧ (State.frameDone s l f).fmt = s.fmt ∧ (State.frameDone s l f).arr = s.arr ∧ (State.frameDone s l f).vec = s.vec ∧ (State.frameDone s l f).mxe = s.mxe ∧ (State.frameDone s l f).upd = s.upd ∧ (State.frameDone s l f).red = s.red ∧ (State.frameDone s l f).tsk = s.tsk ∧ (State.frameDone s l f).mem = s.mem ∧ (State.frameDone s l f).hif = s.hif ∧ (State.frameDone s l f).img = s.img ∧ (State.frameDone s l f).pwr = s.pwr ∧ (State.frameDone s l f).pending = s.pending := by
  have fr1 := @State.modEzl_frame
  have fr2 := @State.sendRouted_frame
  simp [State.frameDone, fr1, fr2]


theorem State.flitAccept_frame (s : State) (l : Nat) (h : FlitHdr) (pay : List Byte) :
    (State.flitAccept s l h pay).pairLo = s.pairLo ∧ (State.flitAccept s l h pay).pairCap = s.pairCap ∧ (State.flitAccept s l h pay).free = s.free ∧ (State.flitAccept s l h pay).policy = s.policy ∧ (State.flitAccept s l h pay).chk = s.chk ∧ (State.flitAccept s l h pay).snp = s.snp ∧ (State.flitAccept s l h pay).irq = s.irq ∧ (State.flitAccept s l h pay).stp = s.stp ∧ (State.flitAccept s l h pay).fmt = s.fmt ∧ (State.flitAccept s l h pay).arr = s.arr ∧ (State.flitAccept s l h pay).vec = s.vec ∧ (State.flitAccept s l h pay).mxe = s.mxe ∧ (State.flitAccept s l h pay).upd = s.upd ∧ (State.flitAccept s l h pay).red = s.red ∧ (State.flitAccept s l h pay).tsk = s.tsk ∧ (State.flitAccept s l h pay).mem = s.mem ∧ (State.flitAccept s l h pay).hif = s.hif ∧ (State.flitAccept s l h pay).img = s.img ∧ (State.flitAccept s l h pay).pwr = s.pwr ∧ (State.flitAccept s l h pay).pending = s.pending := by
  have fr1 := @State.frameDone_frame
  have fr2 := @State.sendNak_frame
  have fr3 := @State.setLnk_frame
  unfold State.flitAccept; (repeat' split) <;> simp [fr1, fr2, fr3]


theorem State.ackOwed_frame (s : State) (l : Nat) :
    (State.ackOwed s l).pairLo = s.pairLo ∧ (State.ackOwed s l).pairCap = s.pairCap ∧ (State.ackOwed s l).free = s.free ∧ (State.ackOwed s l).policy = s.policy ∧ (State.ackOwed s l).err = s.err ∧ (State.ackOwed s l).chk = s.chk ∧ (State.ackOwed s l).snp = s.snp ∧ (State.ackOwed s l).irq = s.irq ∧ (State.ackOwed s l).stp = s.stp ∧ (State.ackOwed s l).fmt = s.fmt ∧ (State.ackOwed s l).arr = s.arr ∧ (State.ackOwed s l).vec = s.vec ∧ (State.ackOwed s l).mxe = s.mxe ∧ (State.ackOwed s l).upd = s.upd ∧ (State.ackOwed s l).red = s.red ∧ (State.ackOwed s l).tsk = s.tsk ∧ (State.ackOwed s l).mem = s.mem ∧ (State.ackOwed s l).hif = s.hif ∧ (State.ackOwed s l).img = s.img ∧ (State.ackOwed s l).pwr = s.pwr ∧ (State.ackOwed s l).pending = s.pending := by
  have fr1 := @State.sendIdle_frame
  simp [State.ackOwed, fr1]


theorem flitReceive_frame (l : Nat) (bytes : List Byte) (s : State) :
    (flitReceive l bytes s).pairLo = s.pairLo ∧ (flitReceive l bytes s).pairCap = s.pairCap ∧ (flitReceive l bytes s).free = s.free ∧ (flitReceive l bytes s).policy = s.policy ∧ (flitReceive l bytes s).chk = s.chk ∧ (flitReceive l bytes s).snp = s.snp ∧ (flitReceive l bytes s).irq = s.irq ∧ (flitReceive l bytes s).stp = s.stp ∧ (flitReceive l bytes s).fmt = s.fmt ∧ (flitReceive l bytes s).arr = s.arr ∧ (flitReceive l bytes s).vec = s.vec ∧ (flitReceive l bytes s).mxe = s.mxe ∧ (flitReceive l bytes s).upd = s.upd ∧ (flitReceive l bytes s).red = s.red ∧ (flitReceive l bytes s).tsk = s.tsk ∧ (flitReceive l bytes s).mem = s.mem ∧ (flitReceive l bytes s).hif = s.hif ∧ (flitReceive l bytes s).img = s.img ∧ (flitReceive l bytes s).pwr = s.pwr ∧ (flitReceive l bytes s).pending = s.pending := by
  have fr1 := @State.ackOwed_frame
  have fr2 := @State.flitAccept_frame
  have fr3 := @State.flitNews_frame
  have fr4 := @State.linkCount_frame
  have fr5 := @State.sendIdle_frame
  have fr6 := @State.sendNak_frame
  simp [flitReceive, fr1, fr2, fr3, fr4, fr5, fr6]


theorem nakRepeat_frame (l : Nat) (s : State) :
    (nakRepeat l s).pairLo = s.pairLo ∧ (nakRepeat l s).pairCap = s.pairCap ∧ (nakRepeat l s).free = s.free ∧ (nakRepeat l s).policy = s.policy ∧ (nakRepeat l s).chk = s.chk ∧ (nakRepeat l s).snp = s.snp ∧ (nakRepeat l s).irq = s.irq ∧ (nakRepeat l s).stp = s.stp ∧ (nakRepeat l s).fmt = s.fmt ∧ (nakRepeat l s).arr = s.arr ∧ (nakRepeat l s).vec = s.vec ∧ (nakRepeat l s).mxe = s.mxe ∧ (nakRepeat l s).upd = s.upd ∧ (nakRepeat l s).red = s.red ∧ (nakRepeat l s).tsk = s.tsk ∧ (nakRepeat l s).mem = s.mem ∧ (nakRepeat l s).hif = s.hif ∧ (nakRepeat l s).img = s.img ∧ (nakRepeat l s).pwr = s.pwr ∧ (nakRepeat l s).pending = s.pending := by
  have fr1 := @State.sendNak_frame
  unfold nakRepeat; (repeat' split) <;> simp [fr1]


theorem State.writeLog_frame (s : State) (e : LogEnt) :
    (State.writeLog s e).pairLo = s.pairLo ∧ (State.writeLog s e).pairCap = s.pairCap ∧ (State.writeLog s e).out = s.out ∧ (State.writeLog s e).free = s.free ∧ (State.writeLog s e).policy = s.policy ∧ (State.writeLog s e).chk = s.chk ∧ (State.writeLog s e).snp = s.snp ∧ (State.writeLog s e).irq = s.irq ∧ (State.writeLog s e).ezl = s.ezl ∧ (State.writeLog s e).stp = s.stp ∧ (State.writeLog s e).fmt = s.fmt ∧ (State.writeLog s e).arr = s.arr ∧ (State.writeLog s e).vec = s.vec ∧ (State.writeLog s e).mxe = s.mxe ∧ (State.writeLog s e).upd = s.upd ∧ (State.writeLog s e).red = s.red ∧ (State.writeLog s e).tsk = s.tsk ∧ (State.writeLog s e).mem = s.mem ∧ (State.writeLog s e).hif = s.hif ∧ (State.writeLog s e).img = s.img ∧ (State.writeLog s e).pwr = s.pwr ∧ (State.writeLog s e).pending = s.pending := by
  have fr1 := @State.event_frame
  have fr2 := @State.incReg_frame
  have fr3 := @State.modErr_frame
  have fr4 := @State.setRegN_frame
  simp [State.writeLog, fr1, fr2, fr3, fr4]


theorem State.classEntry_frame (s : State) (c : Nat) :
    (State.classEntry s c).pairLo = s.pairLo ∧ (State.classEntry s c).pairCap = s.pairCap ∧ (State.classEntry s c).free = s.free ∧ (State.classEntry s c).policy = s.policy ∧ (State.classEntry s c).chk = s.chk ∧ (State.classEntry s c).irq = s.irq ∧ (State.classEntry s c).stp = s.stp ∧ (State.classEntry s c).fmt = s.fmt ∧ (State.classEntry s c).arr = s.arr ∧ (State.classEntry s c).vec = s.vec ∧ (State.classEntry s c).mxe = s.mxe ∧ (State.classEntry s c).upd = s.upd ∧ (State.classEntry s c).red = s.red ∧ (State.classEntry s c).tsk = s.tsk ∧ (State.classEntry s c).mem = s.mem ∧ (State.classEntry s c).hif = s.hif ∧ (State.classEntry s c).img = s.img ∧ (State.classEntry s c).pwr = s.pwr ∧ (State.classEntry s c).pending = s.pending := by
  have fr1 := @State.event_frame
  have fr2 := @State.raiseTrig_frame
  simp [State.classEntry, fr1, fr2]


theorem errorLogWrite_frame (s : State) :
    (errorLogWrite s).pairLo = s.pairLo ∧ (errorLogWrite s).pairCap = s.pairCap ∧ (errorLogWrite s).free = s.free ∧ (errorLogWrite s).policy = s.policy ∧ (errorLogWrite s).chk = s.chk ∧ (errorLogWrite s).irq = s.irq ∧ (errorLogWrite s).stp = s.stp ∧ (errorLogWrite s).fmt = s.fmt ∧ (errorLogWrite s).arr = s.arr ∧ (errorLogWrite s).vec = s.vec ∧ (errorLogWrite s).mxe = s.mxe ∧ (errorLogWrite s).upd = s.upd ∧ (errorLogWrite s).red = s.red ∧ (errorLogWrite s).tsk = s.tsk ∧ (errorLogWrite s).mem = s.mem ∧ (errorLogWrite s).hif = s.hif ∧ (errorLogWrite s).img = s.img ∧ (errorLogWrite s).pwr = s.pwr ∧ (errorLogWrite s).pending = s.pending := by
  have fr1 := @State.classEntry_frame
  have fr2 := @State.modErr_frame
  have fr3 := @State.writeLog_frame
  unfold errorLogWrite; (repeat' split) <;> simp [fr1, fr2, fr3]


theorem State.chkForeign_frame (s : State) :
    (State.chkForeign s).pairLo = s.pairLo ∧ (State.chkForeign s).pairCap = s.pairCap ∧ (State.chkForeign s).out = s.out ∧ (State.chkForeign s).free = s.free ∧ (State.chkForeign s).policy = s.policy ∧ (State.chkForeign s).err = s.err ∧ (State.chkForeign s).chk = s.chk ∧ (State.chkForeign s).snp = s.snp ∧ (State.chkForeign s).irq = s.irq ∧ (State.chkForeign s).ezl = s.ezl ∧ (State.chkForeign s).stp = s.stp ∧ (State.chkForeign s).fmt = s.fmt ∧ (State.chkForeign s).arr = s.arr ∧ (State.chkForeign s).vec = s.vec ∧ (State.chkForeign s).mxe = s.mxe ∧ (State.chkForeign s).upd = s.upd ∧ (State.chkForeign s).red = s.red ∧ (State.chkForeign s).tsk = s.tsk ∧ (State.chkForeign s).mem = s.mem ∧ (State.chkForeign s).hif = s.hif ∧ (State.chkForeign s).img = s.img ∧ (State.chkForeign s).pwr = s.pwr ∧ (State.chkForeign s).pending = s.pending := by
  have fr1 := @State.event_frame
  have fr2 := @State.incReg_frame
  simp [State.chkForeign, fr1, fr2]


theorem State.chkOwned_frame (s : State) (rq : Requester) (u : Nat) (f : ChkUnit → ChkUnit) :
    (State.chkOwned s rq u f).pairLo = s.pairLo ∧ (State.chkOwned s rq u f).pairCap = s.pairCap ∧ (State.chkOwned s rq u f).out = s.out ∧ (State.chkOwned s rq u f).free = s.free ∧ (State.chkOwned s rq u f).policy = s.policy ∧ (State.chkOwned s rq u f).err = s.err ∧ (State.chkOwned s rq u f).snp = s.snp ∧ (State.chkOwned s rq u f).irq = s.irq ∧ (State.chkOwned s rq u f).ezl = s.ezl ∧ (State.chkOwned s rq u f).stp = s.stp ∧ (State.chkOwned s rq u f).fmt = s.fmt ∧ (State.chkOwned s rq u f).arr = s.arr ∧ (State.chkOwned s rq u f).vec = s.vec ∧ (State.chkOwned s rq u f).mxe = s.mxe ∧ (State.chkOwned s rq u f).upd = s.upd ∧ (State.chkOwned s rq u f).red = s.red ∧ (State.chkOwned s rq u f).tsk = s.tsk ∧ (State.chkOwned s rq u f).mem = s.mem ∧ (State.chkOwned s rq u f).hif = s.hif ∧ (State.chkOwned s rq u f).img = s.img ∧ (State.chkOwned s rq u f).pwr = s.pwr ∧ (State.chkOwned s rq u f).pending = s.pending := by
  have fr1 := @State.chkForeign_frame
  have fr2 := @State.setChk_frame
  simp [State.chkOwned, fr1, fr2]


theorem chkClaim_frame (rq : Requester) (u len : Nat) (s : State) :
    (chkClaim rq u len s).regs = s.regs ∧ (chkClaim rq u len s).pairLo = s.pairLo ∧ (chkClaim rq u len s).pairCap = s.pairCap ∧ (chkClaim rq u len s).out = s.out ∧ (chkClaim rq u len s).free = s.free ∧ (chkClaim rq u len s).policy = s.policy ∧ (chkClaim rq u len s).err = s.err ∧ (chkClaim rq u len s).snp = s.snp ∧ (chkClaim rq u len s).irq = s.irq ∧ (chkClaim rq u len s).ezl = s.ezl ∧ (chkClaim rq u len s).stp = s.stp ∧ (chkClaim rq u len s).fmt = s.fmt ∧ (chkClaim rq u len s).arr = s.arr ∧ (chkClaim rq u len s).vec = s.vec ∧ (chkClaim rq u len s).mxe = s.mxe ∧ (chkClaim rq u len s).upd = s.upd ∧ (chkClaim rq u len s).red = s.red ∧ (chkClaim rq u len s).tsk = s.tsk ∧ (chkClaim rq u len s).mem = s.mem ∧ (chkClaim rq u len s).hif = s.hif ∧ (chkClaim rq u len s).img = s.img ∧ (chkClaim rq u len s).pwr = s.pwr ∧ (chkClaim rq u len s).pending = s.pending := by
  have fr1 := @State.setChk_frame
  simp [chkClaim, fr1]


theorem chkRelease_frame (rq : Requester) (u len : Nat) (s : State) :
    (chkRelease rq u len s).pairLo = s.pairLo ∧ (chkRelease rq u len s).pairCap = s.pairCap ∧ (chkRelease rq u len s).out = s.out ∧ (chkRelease rq u len s).free = s.free ∧ (chkRelease rq u len s).policy = s.policy ∧ (chkRelease rq u len s).err = s.err ∧ (chkRelease rq u len s).snp = s.snp ∧ (chkRelease rq u len s).irq = s.irq ∧ (chkRelease rq u len s).ezl = s.ezl ∧ (chkRelease rq u len s).stp = s.stp ∧ (chkRelease rq u len s).fmt = s.fmt ∧ (chkRelease rq u len s).arr = s.arr ∧ (chkRelease rq u len s).vec = s.vec ∧ (chkRelease rq u len s).mxe = s.mxe ∧ (chkRelease rq u len s).upd = s.upd ∧ (chkRelease rq u len s).red = s.red ∧ (chkRelease rq u len s).tsk = s.tsk ∧ (chkRelease rq u len s).mem = s.mem ∧ (chkRelease rq u len s).hif = s.hif ∧ (chkRelease rq u len s).img = s.img ∧ (chkRelease rq u len s).pwr = s.pwr ∧ (chkRelease rq u len s).pending = s.pending := by
  have fr1 := @State.chkOwned_frame
  simp [chkRelease, fr1]


theorem chkInit_frame (rq : Requester) (u len : Nat) (s : State) :
    (chkInit rq u len s).pairLo = s.pairLo ∧ (chkInit rq u len s).pairCap = s.pairCap ∧ (chkInit rq u len s).out = s.out ∧ (chkInit rq u len s).free = s.free ∧ (chkInit rq u len s).policy = s.policy ∧ (chkInit rq u len s).err = s.err ∧ (chkInit rq u len s).snp = s.snp ∧ (chkInit rq u len s).irq = s.irq ∧ (chkInit rq u len s).ezl = s.ezl ∧ (chkInit rq u len s).stp = s.stp ∧ (chkInit rq u len s).fmt = s.fmt ∧ (chkInit rq u len s).arr = s.arr ∧ (chkInit rq u len s).vec = s.vec ∧ (chkInit rq u len s).mxe = s.mxe ∧ (chkInit rq u len s).upd = s.upd ∧ (chkInit rq u len s).red = s.red ∧ (chkInit rq u len s).tsk = s.tsk ∧ (chkInit rq u len s).mem = s.mem ∧ (chkInit rq u len s).hif = s.hif ∧ (chkInit rq u len s).img = s.img ∧ (chkInit rq u len s).pwr = s.pwr ∧ (chkInit rq u len s).pending = s.pending := by
  have fr1 := @State.chkOwned_frame
  simp [chkInit, fr1]


theorem chkDataWrite_frame (rq : Requester) (u : Nat) (v : Word) (s : State) :
    (chkDataWrite rq u v s).pairLo = s.pairLo ∧ (chkDataWrite rq u v s).pairCap = s.pairCap ∧ (chkDataWrite rq u v s).out = s.out ∧ (chkDataWrite rq u v s).free = s.free ∧ (chkDataWrite rq u v s).policy = s.policy ∧ (chkDataWrite rq u v s).err = s.err ∧ (chkDataWrite rq u v s).snp = s.snp ∧ (chkDataWrite rq u v s).irq = s.irq ∧ (chkDataWrite rq u v s).ezl = s.ezl ∧ (chkDataWrite rq u v s).stp = s.stp ∧ (chkDataWrite rq u v s).fmt = s.fmt ∧ (chkDataWrite rq u v s).arr = s.arr ∧ (chkDataWrite rq u v s).vec = s.vec ∧ (chkDataWrite rq u v s).mxe = s.mxe ∧ (chkDataWrite rq u v s).upd = s.upd ∧ (chkDataWrite rq u v s).red = s.red ∧ (chkDataWrite rq u v s).tsk = s.tsk ∧ (chkDataWrite rq u v s).mem = s.mem ∧ (chkDataWrite rq u v s).hif = s.hif ∧ (chkDataWrite rq u v s).img = s.img ∧ (chkDataWrite rq u v s).pwr = s.pwr ∧ (chkDataWrite rq u v s).pending = s.pending := by
  have fr1 := @State.chkOwned_frame
  simp [chkDataWrite, fr1]


theorem chkValueWrite_frame (rq : Requester) (u : Nat) (v : Word) (s : State) :
    (chkValueWrite rq u v s).pairLo = s.pairLo ∧ (chkValueWrite rq u v s).pairCap = s.pairCap ∧ (chkValueWrite rq u v s).out = s.out ∧ (chkValueWrite rq u v s).free = s.free ∧ (chkValueWrite rq u v s).policy = s.policy ∧ (chkValueWrite rq u v s).err = s.err ∧ (chkValueWrite rq u v s).snp = s.snp ∧ (chkValueWrite rq u v s).irq = s.irq ∧ (chkValueWrite rq u v s).ezl = s.ezl ∧ (chkValueWrite rq u v s).stp = s.stp ∧ (chkValueWrite rq u v s).fmt = s.fmt ∧ (chkValueWrite rq u v s).arr = s.arr ∧ (chkValueWrite rq u v s).vec = s.vec ∧ (chkValueWrite rq u v s).mxe = s.mxe ∧ (chkValueWrite rq u v s).upd = s.upd ∧ (chkValueWrite rq u v s).red = s.red ∧ (chkValueWrite rq u v s).tsk = s.tsk ∧ (chkValueWrite rq u v s).mem = s.mem ∧ (chkValueWrite rq u v s).hif = s.hif ∧ (chkValueWrite rq u v s).img = s.img ∧ (chkValueWrite rq u v s).pwr = s.pwr ∧ (chkValueWrite rq u v s).pending = s.pending := by
  have fr1 := @State.chkOwned_frame
  simp [chkValueWrite, fr1]


theorem State.writeNew_frame (s : State) (o : Nat) (bs : List Byte) :
    (State.writeNew s o bs).regs = s.regs ∧ (State.writeNew s o bs).pairLo = s.pairLo ∧ (State.writeNew s o bs).pairCap = s.pairCap ∧ (State.writeNew s o bs).out = s.out ∧ (State.writeNew s o bs).free = s.free ∧ (State.writeNew s o bs).policy = s.policy ∧ (State.writeNew s o bs).err = s.err ∧ (State.writeNew s o bs).chk = s.chk ∧ (State.writeNew s o bs).snp = s.snp ∧ (State.writeNew s o bs).irq = s.irq ∧ (State.writeNew s o bs).ezl = s.ezl ∧ (State.writeNew s o bs).stp = s.stp ∧ (State.writeNew s o bs).fmt = s.fmt ∧ (State.writeNew s o bs).arr = s.arr ∧ (State.writeNew s o bs).vec = s.vec ∧ (State.writeNew s o bs).mxe = s.mxe ∧ (State.writeNew s o bs).upd = s.upd ∧ (State.writeNew s o bs).red = s.red ∧ (State.writeNew s o bs).tsk = s.tsk ∧ (State.writeNew s o bs).hif = s.hif ∧ (State.writeNew s o bs).img = s.img ∧ (State.writeNew s o bs).pwr = s.pwr ∧ (State.writeNew s o bs).pending = s.pending := by
  have fr1 := @State.modMem_frame
  simp [State.writeNew, fr1]


theorem State.writeBlock_frame (s : State) (base : Nat) (e : StateEnt) (blk : Nat) (w m v : Nat → Option Word) (r : Nat → Option Byte) (sc : Nat) :
    (State.writeBlock s base e blk w m v r sc).regs = s.regs ∧ (State.writeBlock s base e blk w m v r sc).pairLo = s.pairLo ∧ (State.writeBlock s base e blk w m v r sc).pairCap = s.pairCap ∧ (State.writeBlock s base e blk w m v r sc).out = s.out ∧ (State.writeBlock s base e blk w m v r sc).free = s.free ∧ (State.writeBlock s base e blk w m v r sc).policy = s.policy ∧ (State.writeBlock s base e blk w m v r sc).err = s.err ∧ (State.writeBlock s base e blk w m v r sc).chk = s.chk ∧ (State.writeBlock s base e blk w m v r sc).snp = s.snp ∧ (State.writeBlock s base e blk w m v r sc).irq = s.irq ∧ (State.writeBlock s base e blk w m v r sc).ezl = s.ezl ∧ (State.writeBlock s base e blk w m v r sc).stp = s.stp ∧ (State.writeBlock s base e blk w m v r sc).fmt = s.fmt ∧ (State.writeBlock s base e blk w m v r sc).arr = s.arr ∧ (State.writeBlock s base e blk w m v r sc).vec = s.vec ∧ (State.writeBlock s base e blk w m v r sc).mxe = s.mxe ∧ (State.writeBlock s base e blk w m v r sc).upd = s.upd ∧ (State.writeBlock s base e blk w m v r sc).red = s.red ∧ (State.writeBlock s base e blk w m v r sc).tsk = s.tsk ∧ (State.writeBlock s base e blk w m v r sc).hif = s.hif ∧ (State.writeBlock s base e blk w m v r sc).img = s.img ∧ (State.writeBlock s base e blk w m v r sc).pwr = s.pwr ∧ (State.writeBlock s base e blk w m v r sc).pending = s.pending := by
  have fr1 := @State.writeNew_frame
  simp [State.writeBlock, fr1]


theorem State.storeBlock_frame (s : State) (d : Nat) (base : Nat) (e : StateEnt) (x : BlkIn) (l : List (Nat × ElemRes × Word)) :
    (State.storeBlock s d base e x l).pairLo = s.pairLo ∧ (State.storeBlock s d base e x l).pairCap = s.pairCap ∧ (State.storeBlock s d base e x l).out = s.out ∧ (State.storeBlock s d base e x l).free = s.free ∧ (State.storeBlock s d base e x l).policy = s.policy ∧ (State.storeBlock s d base e x l).err = s.err ∧ (State.storeBlock s d base e x l).chk = s.chk ∧ (State.storeBlock s d base e x l).snp = s.snp ∧ (State.storeBlock s d base e x l).irq = s.irq ∧ (State.storeBlock s d base e x l).ezl = s.ezl ∧ (State.storeBlock s d base e x l).stp = s.stp ∧ (State.storeBlock s d base e x l).fmt = s.fmt ∧ (State.storeBlock s d base e x l).arr = s.arr ∧ (State.storeBlock s d base e x l).vec = s.vec ∧ (State.storeBlock s d base e x l).mxe = s.mxe ∧ (State.storeBlock s d base e x l).upd = s.upd ∧ (State.storeBlock s d base e x l).red = s.red ∧ (State.storeBlock s d base e x l).tsk = s.tsk ∧ (State.storeBlock s d base e x l).hif = s.hif ∧ (State.storeBlock s d base e x l).img = s.img ∧ (State.storeBlock s d base e x l).pwr = s.pwr ∧ (State.storeBlock s d base e x l).pending = s.pending := by
  have fr1 := @State.incPair_frame
  have fr2 := @State.incReg_frame
  have fr3 := @State.writeBlock_frame
  simp [State.storeBlock, fr1, fr2, fr3]


theorem State.keepBlock_frame (s : State) (d : Nat) (base : Nat) (e : StateEnt) (x : BlkIn) :
    (State.keepBlock s d base e x).pairLo = s.pairLo ∧ (State.keepBlock s d base e x).pairCap = s.pairCap ∧ (State.keepBlock s d base e x).out = s.out ∧ (State.keepBlock s d base e x).free = s.free ∧ (State.keepBlock s d base e x).policy = s.policy ∧ (State.keepBlock s d base e x).err = s.err ∧ (State.keepBlock s d base e x).chk = s.chk ∧ (State.keepBlock s d base e x).snp = s.snp ∧ (State.keepBlock s d base e x).irq = s.irq ∧ (State.keepBlock s d base e x).ezl = s.ezl ∧ (State.keepBlock s d base e x).stp = s.stp ∧ (State.keepBlock s d base e x).fmt = s.fmt ∧ (State.keepBlock s d base e x).arr = s.arr ∧ (State.keepBlock s d base e x).vec = s.vec ∧ (State.keepBlock s d base e x).mxe = s.mxe ∧ (State.keepBlock s d base e x).upd = s.upd ∧ (State.keepBlock s d base e x).red = s.red ∧ (State.keepBlock s d base e x).tsk = s.tsk ∧ (State.keepBlock s d base e x).hif = s.hif ∧ (State.keepBlock s d base e x).img = s.img ∧ (State.keepBlock s d base e x).pwr = s.pwr ∧ (State.keepBlock s d base e x).pending = s.pending := by
  have fr1 := @State.incPair_frame
  have fr2 := @State.writeBlock_frame
  simp [State.keepBlock, fr1, fr2]


theorem State.stopUpdates_frame (s : State) (d : Nat) :
    (State.stopUpdates s d).regs = s.regs ∧ (State.stopUpdates s d).pairLo = s.pairLo ∧ (State.stopUpdates s d).pairCap = s.pairCap ∧ (State.stopUpdates s d).out = s.out ∧ (State.stopUpdates s d).free = s.free ∧ (State.stopUpdates s d).policy = s.policy ∧ (State.stopUpdates s d).err = s.err ∧ (State.stopUpdates s d).chk = s.chk ∧ (State.stopUpdates s d).snp = s.snp ∧ (State.stopUpdates s d).irq = s.irq ∧ (State.stopUpdates s d).ezl = s.ezl ∧ (State.stopUpdates s d).stp = s.stp ∧ (State.stopUpdates s d).fmt = s.fmt ∧ (State.stopUpdates s d).arr = s.arr ∧ (State.stopUpdates s d).vec = s.vec ∧ (State.stopUpdates s d).mxe = s.mxe ∧ (State.stopUpdates s d).red = s.red ∧ (State.stopUpdates s d).tsk = s.tsk ∧ (State.stopUpdates s d).mem = s.mem ∧ (State.stopUpdates s d).hif = s.hif ∧ (State.stopUpdates s d).img = s.img ∧ (State.stopUpdates s d).pwr = s.pwr ∧ (State.stopUpdates s d).pending = s.pending := by
  have fr1 := @State.setUpd_frame
  simp [State.stopUpdates, fr1]


theorem State.countBlock_frame (s : State) (d : Nat) (e : StateEnt) (x : BlkIn) :
    (State.countBlock s d e x).pairLo = s.pairLo ∧ (State.countBlock s d e x).pairCap = s.pairCap ∧ (State.countBlock s d e x).out = s.out ∧ (State.countBlock s d e x).free = s.free ∧ (State.countBlock s d e x).policy = s.policy ∧ (State.countBlock s d e x).err = s.err ∧ (State.countBlock s d e x).chk = s.chk ∧ (State.countBlock s d e x).snp = s.snp ∧ (State.countBlock s d e x).irq = s.irq ∧ (State.countBlock s d e x).ezl = s.ezl ∧ (State.countBlock s d e x).stp = s.stp ∧ (State.countBlock s d e x).fmt = s.fmt ∧ (State.countBlock s d e x).arr = s.arr ∧ (State.countBlock s d e x).vec = s.vec ∧ (State.countBlock s d e x).mxe = s.mxe ∧ (State.countBlock s d e x).upd = s.upd ∧ (State.countBlock s d e x).red = s.red ∧ (State.countBlock s d e x).tsk = s.tsk ∧ (State.countBlock s d e x).mem = s.mem ∧ (State.countBlock s d e x).hif = s.hif ∧ (State.countBlock s d e x).img = s.img ∧ (State.countBlock s d e x).pwr = s.pwr ∧ (State.countBlock s d e x).pending = s.pending := by
  have fr1 := @State.event_frame
  have fr2 := @State.incReg_frame
  simp [State.countBlock, fr1, fr2]


theorem State.badBlock_frame (s : State) (d base : Nat) (e : StateEnt) (x : BlkIn) (l : List (Nat × ElemRes × Word)) :
    (State.badBlock s d base e x l).pairLo = s.pairLo ∧ (State.badBlock s d base e x l).pairCap = s.pairCap ∧ (State.badBlock s d base e x l).out = s.out ∧ (State.badBlock s d base e x l).free = s.free ∧ (State.badBlock s d base e x l).policy = s.policy ∧ (State.badBlock s d base e x l).err = s.err ∧ (State.badBlock s d base e x l).chk = s.chk ∧ (State.badBlock s d base e x l).snp = s.snp ∧ (State.badBlock s d base e x l).irq = s.irq ∧ (State.badBlock s d base e x l).ezl = s.ezl ∧ (State.badBlock s d base e x l).stp = s.stp ∧ (State.badBlock s d base e x l).fmt = s.fmt ∧ (State.badBlock s d base e x l).arr = s.arr ∧ (State.badBlock s d base e x l).vec = s.vec ∧ (State.badBlock s d base e x l).mxe = s.mxe ∧ (State.badBlock s d base e x l).red = s.red ∧ (State.badBlock s d base e x l).tsk = s.tsk ∧ (State.badBlock s d base e x l).hif = s.hif ∧ (State.badBlock s d base e x l).img = s.img ∧ (State.badBlock s d base e x l).pwr = s.pwr ∧ (State.badBlock s d base e x l).pending = s.pending := by
  have fr1 := @State.event_frame
  have fr2 := @State.incReg_frame
  have fr3 := @State.keepBlock_frame
  have fr4 := @State.setUpd_frame
  have fr5 := @State.stopUpdates_frame
  have fr6 := @State.storeBlock_frame
  simp [State.badBlock, fr1, fr2, fr3, fr4, fr5, fr6]


theorem State.updateBlock_frame (s : State) (d base : Nat) (e : StateEnt) (k : StepConst) (x : BlkIn) :
    (State.updateBlock s d base e k x).pairLo = s.pairLo ∧ (State.updateBlock s d base e k x).pairCap = s.pairCap ∧ (State.updateBlock s d base e k x).out = s.out ∧ (State.updateBlock s d base e k x).free = s.free ∧ (State.updateBlock s d base e k x).policy = s.policy ∧ (State.updateBlock s d base e k x).chk = s.chk ∧ (State.updateBlock s d base e k x).snp = s.snp ∧ (State.updateBlock s d base e k x).irq = s.irq ∧ (State.updateBlock s d base e k x).ezl = s.ezl ∧ (State.updateBlock s d base e k x).stp = s.stp ∧ (State.updateBlock s d base e k x).fmt = s.fmt ∧ (State.updateBlock s d base e k x).arr = s.arr ∧ (State.updateBlock s d base e k x).vec = s.vec ∧ (State.updateBlock s d base e k x).mxe = s.mxe ∧ (State.updateBlock s d base e k x).red = s.red ∧ (State.updateBlock s d base e k x).tsk = s.tsk ∧ (State.updateBlock s d base e k x).hif = s.hif ∧ (State.updateBlock s d base e k x).img = s.img ∧ (State.updateBlock s d base e k x).pwr = s.pwr ∧ (State.updateBlock s d base e k x).pending = s.pending := by
  have fr1 := @State.badBlock_frame
  have fr2 := @State.incReg_frame
  have fr3 := @State.log_frame
  have fr4 := @State.storeBlock_frame
  simp [State.updateBlock, fr1, fr2, fr3, fr4]


theorem State.bucketTaken_frame (s : State) (c seq : Nat) :
    (State.bucketTaken s c seq).pairLo = s.pairLo ∧ (State.bucketTaken s c seq).pairCap = s.pairCap ∧ (State.bucketTaken s c seq).out = s.out ∧ (State.bucketTaken s c seq).free = s.free ∧ (State.bucketTaken s c seq).policy = s.policy ∧ (State.bucketTaken s c seq).err = s.err ∧ (State.bucketTaken s c seq).chk = s.chk ∧ (State.bucketTaken s c seq).snp = s.snp ∧ (State.bucketTaken s c seq).irq = s.irq ∧ (State.bucketTaken s c seq).ezl = s.ezl ∧ (State.bucketTaken s c seq).fmt = s.fmt ∧ (State.bucketTaken s c seq).arr = s.arr ∧ (State.bucketTaken s c seq).vec = s.vec ∧ (State.bucketTaken s c seq).mxe = s.mxe ∧ (State.bucketTaken s c seq).upd = s.upd ∧ (State.bucketTaken s c seq).tsk = s.tsk ∧ (State.bucketTaken s c seq).mem = s.mem ∧ (State.bucketTaken s c seq).hif = s.hif ∧ (State.bucketTaken s c seq).img = s.img ∧ (State.bucketTaken s c seq).pwr = s.pwr ∧ (State.bucketTaken s c seq).pending = s.pending := by
  have fr1 := @State.incPair_frame
  have fr2 := @State.modCnt_frame
  have fr3 := @State.setChan_frame
  simp [State.bucketTaken, fr1, fr2, fr3]


theorem blockAccept_frame (d : Nat) (s : State) :
    (blockAccept d s).pairLo = s.pairLo ∧ (blockAccept d s).pairCap = s.pairCap ∧ (blockAccept d s).out = s.out ∧ (blockAccept d s).free = s.free ∧ (blockAccept d s).policy = s.policy ∧ (blockAccept d s).err = s.err ∧ (blockAccept d s).chk = s.chk ∧ (blockAccept d s).snp = s.snp ∧ (blockAccept d s).irq = s.irq ∧ (blockAccept d s).ezl = s.ezl ∧ (blockAccept d s).fmt = s.fmt ∧ (blockAccept d s).arr = s.arr ∧ (blockAccept d s).vec = s.vec ∧ (blockAccept d s).mxe = s.mxe ∧ (blockAccept d s).tsk = s.tsk ∧ (blockAccept d s).mem = s.mem ∧ (blockAccept d s).hif = s.hif ∧ (blockAccept d s).img = s.img ∧ (blockAccept d s).pwr = s.pwr ∧ (blockAccept d s).pending = s.pending := by
  have fr1 := @State.bucketTaken_frame
  have fr2 := @State.setChan_frame
  have fr3 := @State.setUpd_frame
  unfold blockAccept; (repeat' split) <;> simp [fr1, fr2, fr3]


theorem blockUpdate_frame (d : Nat) (s : State) :
    (blockUpdate d s).pairLo = s.pairLo ∧ (blockUpdate d s).pairCap = s.pairCap ∧ (blockUpdate d s).out = s.out ∧ (blockUpdate d s).free = s.free ∧ (blockUpdate d s).policy = s.policy ∧ (blockUpdate d s).chk = s.chk ∧ (blockUpdate d s).snp = s.snp ∧ (blockUpdate d s).irq = s.irq ∧ (blockUpdate d s).ezl = s.ezl ∧ (blockUpdate d s).stp = s.stp ∧ (blockUpdate d s).fmt = s.fmt ∧ (blockUpdate d s).arr = s.arr ∧ (blockUpdate d s).vec = s.vec ∧ (blockUpdate d s).mxe = s.mxe ∧ (blockUpdate d s).red = s.red ∧ (blockUpdate d s).tsk = s.tsk ∧ (blockUpdate d s).hif = s.hif ∧ (blockUpdate d s).img = s.img ∧ (blockUpdate d s).pwr = s.pwr ∧ (blockUpdate d s).pending = s.pending := by
  have fr1 := @State.countBlock_frame
  have fr2 := @State.setUpd_frame
  have fr3 := @State.updateBlock_frame
  unfold blockUpdate; dsimp only; (repeat' split) <;> simp [fr1, fr2, fr3]


theorem updateComplete_frame (d : Nat) (s : State) :
    (updateComplete d s).regs = s.regs ∧ (updateComplete d s).pairLo = s.pairLo ∧ (updateComplete d s).pairCap = s.pairCap ∧ (updateComplete d s).out = s.out ∧ (updateComplete d s).free = s.free ∧ (updateComplete d s).policy = s.policy ∧ (updateComplete d s).err = s.err ∧ (updateComplete d s).chk = s.chk ∧ (updateComplete d s).snp = s.snp ∧ (updateComplete d s).irq = s.irq ∧ (updateComplete d s).ezl = s.ezl ∧ (updateComplete d s).stp = s.stp ∧ (updateComplete d s).fmt = s.fmt ∧ (updateComplete d s).arr = s.arr ∧ (updateComplete d s).vec = s.vec ∧ (updateComplete d s).mxe = s.mxe ∧ (updateComplete d s).red = s.red ∧ (updateComplete d s).tsk = s.tsk ∧ (updateComplete d s).mem = s.mem ∧ (updateComplete d s).hif = s.hif ∧ (updateComplete d s).img = s.img ∧ (updateComplete d s).pwr = s.pwr ∧ (updateComplete d s).pending = s.pending := by
  have fr1 := @State.setUpd_frame
  simp [updateComplete, fr1]


theorem projectionStart_frame (d : Nat) (s : State) :
    (projectionStart d s).regs = s.regs ∧ (projectionStart d s).pairLo = s.pairLo ∧ (projectionStart d s).pairCap = s.pairCap ∧ (projectionStart d s).out = s.out ∧ (projectionStart d s).free = s.free ∧ (projectionStart d s).policy = s.policy ∧ (projectionStart d s).err = s.err ∧ (projectionStart d s).chk = s.chk ∧ (projectionStart d s).snp = s.snp ∧ (projectionStart d s).irq = s.irq ∧ (projectionStart d s).ezl = s.ezl ∧ (projectionStart d s).stp = s.stp ∧ (projectionStart d s).fmt = s.fmt ∧ (projectionStart d s).arr = s.arr ∧ (projectionStart d s).vec = s.vec ∧ (projectionStart d s).mxe = s.mxe ∧ (projectionStart d s).red = s.red ∧ (projectionStart d s).tsk = s.tsk ∧ (projectionStart d s).mem = s.mem ∧ (projectionStart d s).hif = s.hif ∧ (projectionStart d s).img = s.img ∧ (projectionStart d s).pwr = s.pwr ∧ (projectionStart d s).pending = s.pending := by
  have fr1 := @State.setUpd_frame
  unfold projectionStart; (repeat' split) <;> simp [fr1]


theorem State.rescale_frame (s : State) (base : Nat) (e : StateEnt) (m : MatEnt) (cb : Nat) :
    (State.rescale s base e m cb).pairLo = s.pairLo ∧ (State.rescale s base e m cb).pairCap = s.pairCap ∧ (State.rescale s base e m cb).out = s.out ∧ (State.rescale s base e m cb).free = s.free ∧ (State.rescale s base e m cb).policy = s.policy ∧ (State.rescale s base e m cb).err = s.err ∧ (State.rescale s base e m cb).chk = s.chk ∧ (State.rescale s base e m cb).snp = s.snp ∧ (State.rescale s base e m cb).irq = s.irq ∧ (State.rescale s base e m cb).ezl = s.ezl ∧ (State.rescale s base e m cb).stp = s.stp ∧ (State.rescale s base e m cb).fmt = s.fmt ∧ (State.rescale s base e m cb).vec = s.vec ∧ (State.rescale s base e m cb).mxe = s.mxe ∧ (State.rescale s base e m cb).upd = s.upd ∧ (State.rescale s base e m cb).red = s.red ∧ (State.rescale s base e m cb).tsk = s.tsk ∧ (State.rescale s base e m cb).hif = s.hif ∧ (State.rescale s base e m cb).img = s.img ∧ (State.rescale s base e m cb).pwr = s.pwr ∧ (State.rescale s base e m cb).pending = s.pending := by
  have fr1 := @State.event_frame
  have fr2 := @State.hbmWrite_frame
  have fr3 := @State.setPos_frame
  simp [State.rescale, fr1, fr2, fr3]


@[simp] theorem State.projectCells_pairLo (s : State) (d : Nat) (base : Nat) (e : StateEnt) (m : MatEnt) (cb rb : Nat) (thr : Option Word) :
    (State.projectCells s d base e m cb rb thr).1.pairLo = s.pairLo := by
  have fr1 := @State.event_frame
  have fr2 := @State.hbmWrite_frame
  have fr3 := @State.incPair_frame
  have fr4 := @State.incReg_frame
  unfold State.projectCells
  refine State.foldl_proj_pairLo (fun (a : State × List Nat) => a.1) _ (fun a x => ?_) _ _
  dsimp only
  split <;> simp [fr1, fr2, fr3, fr4]

@[simp] theorem State.projectCells_pairCap (s : State) (d : Nat) (base : Nat) (e : StateEnt) (m : MatEnt) (cb rb : Nat) (thr : Option Word) :
    (State.projectCells s d base e m cb rb thr).1.pairCap = s.pairCap := by
  have fr1 := @State.event_frame
  have fr2 := @State.hbmWrite_frame
  have fr3 := @State.incPair_frame
  have fr4 := @State.incReg_frame
  unfold State.projectCells
  refine State.foldl_proj_pairCap (fun (a : State × List Nat) => a.1) _ (fun a x => ?_) _ _
  dsimp only
  split <;> simp [fr1, fr2, fr3, fr4]

@[simp] theorem State.projectCells_out (s : State) (d : Nat) (base : Nat) (e : StateEnt) (m : MatEnt) (cb rb : Nat) (thr : Option Word) :
    (State.projectCells s d base e m cb rb thr).1.out = s.out := by
  have fr1 := @State.event_frame
  have fr2 := @State.hbmWrite_frame
  have fr3 := @State.incPair_frame
  have fr4 := @State.incReg_frame
  unfold State.projectCells
  refine State.foldl_proj_out (fun (a : State × List Nat) => a.1) _ (fun a x => ?_) _ _
  dsimp only
  split <;> simp [fr1, fr2, fr3, fr4]

@[simp] theorem State.projectCells_free (s : State) (d : Nat) (base : Nat) (e : StateEnt) (m : MatEnt) (cb rb : Nat) (thr : Option Word) :
    (State.projectCells s d base e m cb rb thr).1.free = s.free := by
  have fr1 := @State.event_frame
  have fr2 := @State.hbmWrite_frame
  have fr3 := @State.incPair_frame
  have fr4 := @State.incReg_frame
  unfold State.projectCells
  refine State.foldl_proj_free (fun (a : State × List Nat) => a.1) _ (fun a x => ?_) _ _
  dsimp only
  split <;> simp [fr1, fr2, fr3, fr4]

@[simp] theorem State.projectCells_policy (s : State) (d : Nat) (base : Nat) (e : StateEnt) (m : MatEnt) (cb rb : Nat) (thr : Option Word) :
    (State.projectCells s d base e m cb rb thr).1.policy = s.policy := by
  have fr1 := @State.event_frame
  have fr2 := @State.hbmWrite_frame
  have fr3 := @State.incPair_frame
  have fr4 := @State.incReg_frame
  unfold State.projectCells
  refine State.foldl_proj_policy (fun (a : State × List Nat) => a.1) _ (fun a x => ?_) _ _
  dsimp only
  split <;> simp [fr1, fr2, fr3, fr4]

@[simp] theorem State.projectCells_err (s : State) (d : Nat) (base : Nat) (e : StateEnt) (m : MatEnt) (cb rb : Nat) (thr : Option Word) :
    (State.projectCells s d base e m cb rb thr).1.err = s.err := by
  have fr1 := @State.event_frame
  have fr2 := @State.hbmWrite_frame
  have fr3 := @State.incPair_frame
  have fr4 := @State.incReg_frame
  unfold State.projectCells
  refine State.foldl_proj_err (fun (a : State × List Nat) => a.1) _ (fun a x => ?_) _ _
  dsimp only
  split <;> simp [fr1, fr2, fr3, fr4]

@[simp] theorem State.projectCells_chk (s : State) (d : Nat) (base : Nat) (e : StateEnt) (m : MatEnt) (cb rb : Nat) (thr : Option Word) :
    (State.projectCells s d base e m cb rb thr).1.chk = s.chk := by
  have fr1 := @State.event_frame
  have fr2 := @State.hbmWrite_frame
  have fr3 := @State.incPair_frame
  have fr4 := @State.incReg_frame
  unfold State.projectCells
  refine State.foldl_proj_chk (fun (a : State × List Nat) => a.1) _ (fun a x => ?_) _ _
  dsimp only
  split <;> simp [fr1, fr2, fr3, fr4]

@[simp] theorem State.projectCells_snp (s : State) (d : Nat) (base : Nat) (e : StateEnt) (m : MatEnt) (cb rb : Nat) (thr : Option Word) :
    (State.projectCells s d base e m cb rb thr).1.snp = s.snp := by
  have fr1 := @State.event_frame
  have fr2 := @State.hbmWrite_frame
  have fr3 := @State.incPair_frame
  have fr4 := @State.incReg_frame
  unfold State.projectCells
  refine State.foldl_proj_snp (fun (a : State × List Nat) => a.1) _ (fun a x => ?_) _ _
  dsimp only
  split <;> simp [fr1, fr2, fr3, fr4]

@[simp] theorem State.projectCells_irq (s : State) (d : Nat) (base : Nat) (e : StateEnt) (m : MatEnt) (cb rb : Nat) (thr : Option Word) :
    (State.projectCells s d base e m cb rb thr).1.irq = s.irq := by
  have fr1 := @State.event_frame
  have fr2 := @State.hbmWrite_frame
  have fr3 := @State.incPair_frame
  have fr4 := @State.incReg_frame
  unfold State.projectCells
  refine State.foldl_proj_irq (fun (a : State × List Nat) => a.1) _ (fun a x => ?_) _ _
  dsimp only
  split <;> simp [fr1, fr2, fr3, fr4]

@[simp] theorem State.projectCells_ezl (s : State) (d : Nat) (base : Nat) (e : StateEnt) (m : MatEnt) (cb rb : Nat) (thr : Option Word) :
    (State.projectCells s d base e m cb rb thr).1.ezl = s.ezl := by
  have fr1 := @State.event_frame
  have fr2 := @State.hbmWrite_frame
  have fr3 := @State.incPair_frame
  have fr4 := @State.incReg_frame
  unfold State.projectCells
  refine State.foldl_proj_ezl (fun (a : State × List Nat) => a.1) _ (fun a x => ?_) _ _
  dsimp only
  split <;> simp [fr1, fr2, fr3, fr4]

@[simp] theorem State.projectCells_stp (s : State) (d : Nat) (base : Nat) (e : StateEnt) (m : MatEnt) (cb rb : Nat) (thr : Option Word) :
    (State.projectCells s d base e m cb rb thr).1.stp = s.stp := by
  have fr1 := @State.event_frame
  have fr2 := @State.hbmWrite_frame
  have fr3 := @State.incPair_frame
  have fr4 := @State.incReg_frame
  unfold State.projectCells
  refine State.foldl_proj_stp (fun (a : State × List Nat) => a.1) _ (fun a x => ?_) _ _
  dsimp only
  split <;> simp [fr1, fr2, fr3, fr4]

@[simp] theorem State.projectCells_fmt (s : State) (d : Nat) (base : Nat) (e : StateEnt) (m : MatEnt) (cb rb : Nat) (thr : Option Word) :
    (State.projectCells s d base e m cb rb thr).1.fmt = s.fmt := by
  have fr1 := @State.event_frame
  have fr2 := @State.hbmWrite_frame
  have fr3 := @State.incPair_frame
  have fr4 := @State.incReg_frame
  unfold State.projectCells
  refine State.foldl_proj_fmt (fun (a : State × List Nat) => a.1) _ (fun a x => ?_) _ _
  dsimp only
  split <;> simp [fr1, fr2, fr3, fr4]

@[simp] theorem State.projectCells_arr (s : State) (d : Nat) (base : Nat) (e : StateEnt) (m : MatEnt) (cb rb : Nat) (thr : Option Word) :
    (State.projectCells s d base e m cb rb thr).1.arr = s.arr := by
  have fr1 := @State.event_frame
  have fr2 := @State.hbmWrite_frame
  have fr3 := @State.incPair_frame
  have fr4 := @State.incReg_frame
  unfold State.projectCells
  refine State.foldl_proj_arr (fun (a : State × List Nat) => a.1) _ (fun a x => ?_) _ _
  dsimp only
  split <;> simp [fr1, fr2, fr3, fr4]

@[simp] theorem State.projectCells_vec (s : State) (d : Nat) (base : Nat) (e : StateEnt) (m : MatEnt) (cb rb : Nat) (thr : Option Word) :
    (State.projectCells s d base e m cb rb thr).1.vec = s.vec := by
  have fr1 := @State.event_frame
  have fr2 := @State.hbmWrite_frame
  have fr3 := @State.incPair_frame
  have fr4 := @State.incReg_frame
  unfold State.projectCells
  refine State.foldl_proj_vec (fun (a : State × List Nat) => a.1) _ (fun a x => ?_) _ _
  dsimp only
  split <;> simp [fr1, fr2, fr3, fr4]

@[simp] theorem State.projectCells_mxe (s : State) (d : Nat) (base : Nat) (e : StateEnt) (m : MatEnt) (cb rb : Nat) (thr : Option Word) :
    (State.projectCells s d base e m cb rb thr).1.mxe = s.mxe := by
  have fr1 := @State.event_frame
  have fr2 := @State.hbmWrite_frame
  have fr3 := @State.incPair_frame
  have fr4 := @State.incReg_frame
  unfold State.projectCells
  refine State.foldl_proj_mxe (fun (a : State × List Nat) => a.1) _ (fun a x => ?_) _ _
  dsimp only
  split <;> simp [fr1, fr2, fr3, fr4]

@[simp] theorem State.projectCells_upd (s : State) (d : Nat) (base : Nat) (e : StateEnt) (m : MatEnt) (cb rb : Nat) (thr : Option Word) :
    (State.projectCells s d base e m cb rb thr).1.upd = s.upd := by
  have fr1 := @State.event_frame
  have fr2 := @State.hbmWrite_frame
  have fr3 := @State.incPair_frame
  have fr4 := @State.incReg_frame
  unfold State.projectCells
  refine State.foldl_proj_upd (fun (a : State × List Nat) => a.1) _ (fun a x => ?_) _ _
  dsimp only
  split <;> simp [fr1, fr2, fr3, fr4]

@[simp] theorem State.projectCells_red (s : State) (d : Nat) (base : Nat) (e : StateEnt) (m : MatEnt) (cb rb : Nat) (thr : Option Word) :
    (State.projectCells s d base e m cb rb thr).1.red = s.red := by
  have fr1 := @State.event_frame
  have fr2 := @State.hbmWrite_frame
  have fr3 := @State.incPair_frame
  have fr4 := @State.incReg_frame
  unfold State.projectCells
  refine State.foldl_proj_red (fun (a : State × List Nat) => a.1) _ (fun a x => ?_) _ _
  dsimp only
  split <;> simp [fr1, fr2, fr3, fr4]

@[simp] theorem State.projectCells_tsk (s : State) (d : Nat) (base : Nat) (e : StateEnt) (m : MatEnt) (cb rb : Nat) (thr : Option Word) :
    (State.projectCells s d base e m cb rb thr).1.tsk = s.tsk := by
  have fr1 := @State.event_frame
  have fr2 := @State.hbmWrite_frame
  have fr3 := @State.incPair_frame
  have fr4 := @State.incReg_frame
  unfold State.projectCells
  refine State.foldl_proj_tsk (fun (a : State × List Nat) => a.1) _ (fun a x => ?_) _ _
  dsimp only
  split <;> simp [fr1, fr2, fr3, fr4]

@[simp] theorem State.projectCells_hif (s : State) (d : Nat) (base : Nat) (e : StateEnt) (m : MatEnt) (cb rb : Nat) (thr : Option Word) :
    (State.projectCells s d base e m cb rb thr).1.hif = s.hif := by
  have fr1 := @State.event_frame
  have fr2 := @State.hbmWrite_frame
  have fr3 := @State.incPair_frame
  have fr4 := @State.incReg_frame
  unfold State.projectCells
  refine State.foldl_proj_hif (fun (a : State × List Nat) => a.1) _ (fun a x => ?_) _ _
  dsimp only
  split <;> simp [fr1, fr2, fr3, fr4]

@[simp] theorem State.projectCells_img (s : State) (d : Nat) (base : Nat) (e : StateEnt) (m : MatEnt) (cb rb : Nat) (thr : Option Word) :
    (State.projectCells s d base e m cb rb thr).1.img = s.img := by
  have fr1 := @State.event_frame
  have fr2 := @State.hbmWrite_frame
  have fr3 := @State.incPair_frame
  have fr4 := @State.incReg_frame
  unfold State.projectCells
  refine State.foldl_proj_img (fun (a : State × List Nat) => a.1) _ (fun a x => ?_) _ _
  dsimp only
  split <;> simp [fr1, fr2, fr3, fr4]

@[simp] theorem State.projectCells_pwr (s : State) (d : Nat) (base : Nat) (e : StateEnt) (m : MatEnt) (cb rb : Nat) (thr : Option Word) :
    (State.projectCells s d base e m cb rb thr).1.pwr = s.pwr := by
  have fr1 := @State.event_frame
  have fr2 := @State.hbmWrite_frame
  have fr3 := @State.incPair_frame
  have fr4 := @State.incReg_frame
  unfold State.projectCells
  refine State.foldl_proj_pwr (fun (a : State × List Nat) => a.1) _ (fun a x => ?_) _ _
  dsimp only
  split <;> simp [fr1, fr2, fr3, fr4]

@[simp] theorem State.projectCells_pending (s : State) (d : Nat) (base : Nat) (e : StateEnt) (m : MatEnt) (cb rb : Nat) (thr : Option Word) :
    (State.projectCells s d base e m cb rb thr).1.pending = s.pending := by
  have fr1 := @State.event_frame
  have fr2 := @State.hbmWrite_frame
  have fr3 := @State.incPair_frame
  have fr4 := @State.incReg_frame
  unfold State.projectCells
  refine State.foldl_proj_pending (fun (a : State × List Nat) => a.1) _ (fun a x => ?_) _ _
  dsimp only
  split <;> simp [fr1, fr2, fr3, fr4]

end Sys2Proof.Machine
end

