-- ==== Sys2Proof/Laws/FrameStart.lean ====
section
/-! SUPPORT. What the operations and meanings leave as it was: of each, every field of the state that it never changes, continued. -/

set_option linter.unusedSimpArgs false
set_option linter.unusedTactic false
set_option linter.unnecessarySeqFocus false
set_option linter.unreachableTactic false
set_option linter.unusedVariables false

namespace Sys2Proof.Machine

theorem State.advanceArray_frame (s : State) (k p a step : Nat) :
    (State.advanceArray s k p a step).regs = s.regs ∧ (State.advanceArray s k p a step).pairLo = s.pairLo ∧ (State.advanceArray s k p a step).pairCap = s.pairCap ∧ (State.advanceArray s k p a step).out = s.out ∧ (State.advanceArray s k p a step).free = s.free ∧ (State.advanceArray s k p a step).policy = s.policy ∧ (State.advanceArray s k p a step).err = s.err ∧ (State.advanceArray s k p a step).chk = s.chk ∧ (State.advanceArray s k p a step).snp = s.snp ∧ (State.advanceArray s k p a step).irq = s.irq ∧ (State.advanceArray s k p a step).ezl = s.ezl ∧ (State.advanceArray s k p a step).stp = s.stp ∧ (State.advanceArray s k p a step).fmt = s.fmt ∧ (State.advanceArray s k p a step).vec = s.vec ∧ (State.advanceArray s k p a step).mxe = s.mxe ∧ (State.advanceArray s k p a step).upd = s.upd ∧ (State.advanceArray s k p a step).red = s.red ∧ (State.advanceArray s k p a step).tsk = s.tsk ∧ (State.advanceArray s k p a step).mem = s.mem ∧ (State.advanceArray s k p a step).hif = s.hif ∧ (State.advanceArray s k p a step).img = s.img ∧ (State.advanceArray s k p a step).pwr = s.pwr ∧ (State.advanceArray s k p a step).pending = s.pending := by
  have fr1 := @State.setPhys_frame
  unfold State.advanceArray; dsimp only; (repeat' split) <;> simp [fr1]


theorem State.projectedPos_frame (s : State) (k p : Nat) (run : ProjRun) (chg : List Nat) :
    (State.projectedPos s k p run chg).pairLo = s.pairLo ∧ (State.projectedPos s k p run chg).pairCap = s.pairCap ∧ (State.projectedPos s k p run chg).out = s.out ∧ (State.projectedPos s k p run chg).free = s.free ∧ (State.projectedPos s k p run chg).policy = s.policy ∧ (State.projectedPos s k p run chg).err = s.err ∧ (State.projectedPos s k p run chg).chk = s.chk ∧ (State.projectedPos s k p run chg).snp = s.snp ∧ (State.projectedPos s k p run chg).irq = s.irq ∧ (State.projectedPos s k p run chg).ezl = s.ezl ∧ (State.projectedPos s k p run chg).stp = s.stp ∧ (State.projectedPos s k p run chg).fmt = s.fmt ∧ (State.projectedPos s k p run chg).vec = s.vec ∧ (State.projectedPos s k p run chg).mxe = s.mxe ∧ (State.projectedPos s k p run chg).upd = s.upd ∧ (State.projectedPos s k p run chg).red = s.red ∧ (State.projectedPos s k p run chg).tsk = s.tsk ∧ (State.projectedPos s k p run chg).mem = s.mem ∧ (State.projectedPos s k p run chg).hif = s.hif ∧ (State.projectedPos s k p run chg).img = s.img ∧ (State.projectedPos s k p run chg).pwr = s.pwr ∧ (State.projectedPos s k p run chg).pending = s.pending := by
  have fr1 := @State.advanceArray_frame
  have fr2 := @State.queueJob_frame
  have fr3 := @State.setPos_frame
  have fr4 := @State.setTile_frame
  unfold State.projectedPos; dsimp only; (repeat' split) <;> simp [fr1, fr2, fr3, fr4]


theorem State.projectEntry_frame (s : State) (d : Nat) (run : ProjRun) (base : Nat) (e : StateEnt) :
    (State.projectEntry s d run base e).pairLo = s.pairLo ∧ (State.projectEntry s d run base e).pairCap = s.pairCap ∧ (State.projectEntry s d run base e).out = s.out ∧ (State.projectEntry s d run base e).free = s.free ∧ (State.projectEntry s d run base e).policy = s.policy ∧ (State.projectEntry s d run base e).err = s.err ∧ (State.projectEntry s d run base e).chk = s.chk ∧ (State.projectEntry s d run base e).snp = s.snp ∧ (State.projectEntry s d run base e).irq = s.irq ∧ (State.projectEntry s d run base e).ezl = s.ezl ∧ (State.projectEntry s d run base e).stp = s.stp ∧ (State.projectEntry s d run base e).fmt = s.fmt ∧ (State.projectEntry s d run base e).vec = s.vec ∧ (State.projectEntry s d run base e).mxe = s.mxe ∧ (State.projectEntry s d run base e).upd = s.upd ∧ (State.projectEntry s d run base e).red = s.red ∧ (State.projectEntry s d run base e).tsk = s.tsk ∧ (State.projectEntry s d run base e).hif = s.hif ∧ (State.projectEntry s d run base e).img = s.img ∧ (State.projectEntry s d run base e).pwr = s.pwr ∧ (State.projectEntry s d run base e).pending = s.pending := by
  have fr1 := @State.projectedPos_frame
  have fr2 := @State.rescale_frame
  unfold State.projectEntry; (repeat' split) <;> simp [fr1, fr2]


theorem State.projectDie_frame (s : State) (d : Nat) (run : ProjRun) :
    (State.projectDie s d run).pairLo = s.pairLo ∧ (State.projectDie s d run).pairCap = s.pairCap ∧ (State.projectDie s d run).out = s.out ∧ (State.projectDie s d run).free = s.free ∧ (State.projectDie s d run).policy = s.policy ∧ (State.projectDie s d run).err = s.err ∧ (State.projectDie s d run).chk = s.chk ∧ (State.projectDie s d run).snp = s.snp ∧ (State.projectDie s d run).irq = s.irq ∧ (State.projectDie s d run).ezl = s.ezl ∧ (State.projectDie s d run).stp = s.stp ∧ (State.projectDie s d run).fmt = s.fmt ∧ (State.projectDie s d run).vec = s.vec ∧ (State.projectDie s d run).mxe = s.mxe ∧ (State.projectDie s d run).upd = s.upd ∧ (State.projectDie s d run).red = s.red ∧ (State.projectDie s d run).tsk = s.tsk ∧ (State.projectDie s d run).hif = s.hif ∧ (State.projectDie s d run).img = s.img ∧ (State.projectDie s d run).pwr = s.pwr ∧ (State.projectDie s d run).pending = s.pending := by
  have fr1 := @State.projectEntry_frame
  simp [State.projectDie, fr1]


@[simp] theorem projectionDone_pairLo (d : Nat) (s : State) : (projectionDone d s).pairLo = s.pairLo := by
  have fr1 := @State.event_frame
  have fr2 := @State.holdOrWrite_frame
  have fr3 := @State.projectDie_frame
  have fr4 := @State.setPair_frame
  have fr5 := @State.setUpd_frame
  unfold projectionDone; dsimp only
  split
  · rfl
  · rw [State.foldl_pairLo _ (by intro s x; simp [fr1, fr2, fr3, fr4, fr5])]
    simp [fr1, fr2, fr3, fr4, fr5]

@[simp] theorem projectionDone_pairCap (d : Nat) (s : State) : (projectionDone d s).pairCap = s.pairCap := by
  have fr1 := @State.event_frame
  have fr2 := @State.holdOrWrite_frame
  have fr3 := @State.projectDie_frame
  have fr4 := @State.setPair_frame
  have fr5 := @State.setUpd_frame
  unfold projectionDone; dsimp only
  split
  · rfl
  · rw [State.foldl_pairCap _ (by intro s x; simp [fr1, fr2, fr3, fr4, fr5])]
    simp [fr1, fr2, fr3, fr4, fr5]

@[simp] theorem projectionDone_out (d : Nat) (s : State) : (projectionDone d s).out = s.out := by
  have fr1 := @State.event_frame
  have fr2 := @State.holdOrWrite_frame
  have fr3 := @State.projectDie_frame
  have fr4 := @State.setPair_frame
  have fr5 := @State.setUpd_frame
  unfold projectionDone; dsimp only
  split
  · rfl
  · rw [State.foldl_out _ (by intro s x; simp [fr1, fr2, fr3, fr4, fr5])]
    simp [fr1, fr2, fr3, fr4, fr5]

@[simp] theorem projectionDone_free (d : Nat) (s : State) : (projectionDone d s).free = s.free := by
  have fr1 := @State.event_frame
  have fr2 := @State.holdOrWrite_frame
  have fr3 := @State.projectDie_frame
  have fr4 := @State.setPair_frame
  have fr5 := @State.setUpd_frame
  unfold projectionDone; dsimp only
  split
  · rfl
  · rw [State.foldl_free _ (by intro s x; simp [fr1, fr2, fr3, fr4, fr5])]
    simp [fr1, fr2, fr3, fr4, fr5]

@[simp] theorem projectionDone_policy (d : Nat) (s : State) : (projectionDone d s).policy = s.policy := by
  have fr1 := @State.event_frame
  have fr2 := @State.holdOrWrite_frame
  have fr3 := @State.projectDie_frame
  have fr4 := @State.setPair_frame
  have fr5 := @State.setUpd_frame
  unfold projectionDone; dsimp only
  split
  · rfl
  · rw [State.foldl_policy _ (by intro s x; simp [fr1, fr2, fr3, fr4, fr5])]
    simp [fr1, fr2, fr3, fr4, fr5]

@[simp] theorem projectionDone_err (d : Nat) (s : State) : (projectionDone d s).err = s.err := by
  have fr1 := @State.event_frame
  have fr2 := @State.holdOrWrite_frame
  have fr3 := @State.projectDie_frame
  have fr4 := @State.setPair_frame
  have fr5 := @State.setUpd_frame
  unfold projectionDone; dsimp only
  split
  · rfl
  · rw [State.foldl_err _ (by intro s x; simp [fr1, fr2, fr3, fr4, fr5])]
    simp [fr1, fr2, fr3, fr4, fr5]

@[simp] theorem projectionDone_chk (d : Nat) (s : State) : (projectionDone d s).chk = s.chk := by
  have fr1 := @State.event_frame
  have fr2 := @State.holdOrWrite_frame
  have fr3 := @State.projectDie_frame
  have fr4 := @State.setPair_frame
  have fr5 := @State.setUpd_frame
  unfold projectionDone; dsimp only
  split
  · rfl
  · rw [State.foldl_chk _ (by intro s x; simp [fr1, fr2, fr3, fr4, fr5])]
    simp [fr1, fr2, fr3, fr4, fr5]

@[simp] theorem projectionDone_snp (d : Nat) (s : State) : (projectionDone d s).snp = s.snp := by
  have fr1 := @State.event_frame
  have fr2 := @State.holdOrWrite_frame
  have fr3 := @State.projectDie_frame
  have fr4 := @State.setPair_frame
  have fr5 := @State.setUpd_frame
  unfold projectionDone; dsimp only
  split
  · rfl
  · rw [State.foldl_snp _ (by intro s x; simp [fr1, fr2, fr3, fr4, fr5])]
    simp [fr1, fr2, fr3, fr4, fr5]

@[simp] theorem projectionDone_irq (d : Nat) (s : State) : (projectionDone d s).irq = s.irq := by
  have fr1 := @State.event_frame
  have fr2 := @State.holdOrWrite_frame
  have fr3 := @State.projectDie_frame
  have fr4 := @State.setPair_frame
  have fr5 := @State.setUpd_frame
  unfold projectionDone; dsimp only
  split
  · rfl
  · rw [State.foldl_irq _ (by intro s x; simp [fr1, fr2, fr3, fr4, fr5])]
    simp [fr1, fr2, fr3, fr4, fr5]

@[simp] theorem projectionDone_ezl (d : Nat) (s : State) : (projectionDone d s).ezl = s.ezl := by
  have fr1 := @State.event_frame
  have fr2 := @State.holdOrWrite_frame
  have fr3 := @State.projectDie_frame
  have fr4 := @State.setPair_frame
  have fr5 := @State.setUpd_frame
  unfold projectionDone; dsimp only
  split
  · rfl
  · rw [State.foldl_ezl _ (by intro s x; simp [fr1, fr2, fr3, fr4, fr5])]
    simp [fr1, fr2, fr3, fr4, fr5]

@[simp] theorem projectionDone_stp (d : Nat) (s : State) : (projectionDone d s).stp = s.stp := by
  have fr1 := @State.event_frame
  have fr2 := @State.holdOrWrite_frame
  have fr3 := @State.projectDie_frame
  have fr4 := @State.setPair_frame
  have fr5 := @State.setUpd_frame
  unfold projectionDone; dsimp only
  split
  · rfl
  · rw [State.foldl_stp _ (by intro s x; simp [fr1, fr2, fr3, fr4, fr5])]
    simp [fr1, fr2, fr3, fr4, fr5]

@[simp] theorem projectionDone_fmt (d : Nat) (s : State) : (projectionDone d s).fmt = s.fmt := by
  have fr1 := @State.event_frame
  have fr2 := @State.holdOrWrite_frame
  have fr3 := @State.projectDie_frame
  have fr4 := @State.setPair_frame
  have fr5 := @State.setUpd_frame
  unfold projectionDone; dsimp only
  split
  · rfl
  · rw [State.foldl_fmt _ (by intro s x; simp [fr1, fr2, fr3, fr4, fr5])]
    simp [fr1, fr2, fr3, fr4, fr5]

@[simp] theorem projectionDone_vec (d : Nat) (s : State) : (projectionDone d s).vec = s.vec := by
  have fr1 := @State.event_frame
  have fr2 := @State.holdOrWrite_frame
  have fr3 := @State.projectDie_frame
  have fr4 := @State.setPair_frame
  have fr5 := @State.setUpd_frame
  unfold projectionDone; dsimp only
  split
  · rfl
  · rw [State.foldl_vec _ (by intro s x; simp [fr1, fr2, fr3, fr4, fr5])]
    simp [fr1, fr2, fr3, fr4, fr5]

@[simp] theorem projectionDone_mxe (d : Nat) (s : State) : (projectionDone d s).mxe = s.mxe := by
  have fr1 := @State.event_frame
  have fr2 := @State.holdOrWrite_frame
  have fr3 := @State.projectDie_frame
  have fr4 := @State.setPair_frame
  have fr5 := @State.setUpd_frame
  unfold projectionDone; dsimp only
  split
  · rfl
  · rw [State.foldl_mxe _ (by intro s x; simp [fr1, fr2, fr3, fr4, fr5])]
    simp [fr1, fr2, fr3, fr4, fr5]

@[simp] theorem projectionDone_red (d : Nat) (s : State) : (projectionDone d s).red = s.red := by
  have fr1 := @State.event_frame
  have fr2 := @State.holdOrWrite_frame
  have fr3 := @State.projectDie_frame
  have fr4 := @State.setPair_frame
  have fr5 := @State.setUpd_frame
  unfold projectionDone; dsimp only
  split
  · rfl
  · rw [State.foldl_red _ (by intro s x; simp [fr1, fr2, fr3, fr4, fr5])]
    simp [fr1, fr2, fr3, fr4, fr5]

@[simp] theorem projectionDone_tsk (d : Nat) (s : State) : (projectionDone d s).tsk = s.tsk := by
  have fr1 := @State.event_frame
  have fr2 := @State.holdOrWrite_frame
  have fr3 := @State.projectDie_frame
  have fr4 := @State.setPair_frame
  have fr5 := @State.setUpd_frame
  unfold projectionDone; dsimp only
  split
  · rfl
  · rw [State.foldl_tsk _ (by intro s x; simp [fr1, fr2, fr3, fr4, fr5])]
    simp [fr1, fr2, fr3, fr4, fr5]

@[simp] theorem projectionDone_hif (d : Nat) (s : State) : (projectionDone d s).hif = s.hif := by
  have fr1 := @State.event_frame
  have fr2 := @State.holdOrWrite_frame
  have fr3 := @State.projectDie_frame
  have fr4 := @State.setPair_frame
  have fr5 := @State.setUpd_frame
  unfold projectionDone; dsimp only
  split
  · rfl
  · rw [State.foldl_hif _ (by intro s x; simp [fr1, fr2, fr3, fr4, fr5])]
    simp [fr1, fr2, fr3, fr4, fr5]

@[simp] theorem projectionDone_img (d : Nat) (s : State) : (projectionDone d s).img = s.img := by
  have fr1 := @State.event_frame
  have fr2 := @State.holdOrWrite_frame
  have fr3 := @State.projectDie_frame
  have fr4 := @State.setPair_frame
  have fr5 := @State.setUpd_frame
  unfold projectionDone; dsimp only
  split
  · rfl
  · rw [State.foldl_img _ (by intro s x; simp [fr1, fr2, fr3, fr4, fr5])]
    simp [fr1, fr2, fr3, fr4, fr5]

@[simp] theorem projectionDone_pwr (d : Nat) (s : State) : (projectionDone d s).pwr = s.pwr := by
  have fr1 := @State.event_frame
  have fr2 := @State.holdOrWrite_frame
  have fr3 := @State.projectDie_frame
  have fr4 := @State.setPair_frame
  have fr5 := @State.setUpd_frame
  unfold projectionDone; dsimp only
  split
  · rfl
  · rw [State.foldl_pwr _ (by intro s x; simp [fr1, fr2, fr3, fr4, fr5])]
    simp [fr1, fr2, fr3, fr4, fr5]

@[simp] theorem projectionDone_pending (d : Nat) (s : State) : (projectionDone d s).pending = s.pending := by
  have fr1 := @State.event_frame
  have fr2 := @State.holdOrWrite_frame
  have fr3 := @State.projectDie_frame
  have fr4 := @State.setPair_frame
  have fr5 := @State.setUpd_frame
  unfold projectionDone; dsimp only
  split
  · rfl
  · rw [State.foldl_pending _ (by intro s x; simp [fr1, fr2, fr3, fr4, fr5])]
    simp [fr1, fr2, fr3, fr4, fr5]


theorem projectCmd_frame (rq : Requester) (hyst : Bool) (s : State) :
    (projectCmd rq hyst s).pairLo = s.pairLo ∧ (projectCmd rq hyst s).pairCap = s.pairCap ∧ (projectCmd rq hyst s).out = s.out ∧ (projectCmd rq hyst s).free = s.free ∧ (projectCmd rq hyst s).policy = s.policy ∧ (projectCmd rq hyst s).chk = s.chk ∧ (projectCmd rq hyst s).snp = s.snp ∧ (projectCmd rq hyst s).irq = s.irq ∧ (projectCmd rq hyst s).ezl = s.ezl ∧ (projectCmd rq hyst s).stp = s.stp ∧ (projectCmd rq hyst s).fmt = s.fmt ∧ (projectCmd rq hyst s).arr = s.arr ∧ (projectCmd rq hyst s).vec = s.vec ∧ (projectCmd rq hyst s).mxe = s.mxe ∧ (projectCmd rq hyst s).red = s.red ∧ (projectCmd rq hyst s).tsk = s.tsk ∧ (projectCmd rq hyst s).mem = s.mem ∧ (projectCmd rq hyst s).hif = s.hif ∧ (projectCmd rq hyst s).img = s.img ∧ (projectCmd rq hyst s).pwr = s.pwr ∧ (projectCmd rq hyst s).pending = s.pending := by
  have fr1 := @State.refuseWrite_frame
  have fr2 := @State.setUpd_frame
  have fr3 := @projectionStart_frame
  simp [projectCmd, fr1, fr2, fr3]


theorem schedDataAccess_frame (rq : Requester) (wr : Option Word) (s : State) :
    (schedDataAccess rq wr s).pairLo = s.pairLo ∧ (schedDataAccess rq wr s).pairCap = s.pairCap ∧ (schedDataAccess rq wr s).free = s.free ∧ (schedDataAccess rq wr s).policy = s.policy ∧ (schedDataAccess rq wr s).err = s.err ∧ (schedDataAccess rq wr s).chk = s.chk ∧ (schedDataAccess rq wr s).snp = s.snp ∧ (schedDataAccess rq wr s).irq = s.irq ∧ (schedDataAccess rq wr s).ezl = s.ezl ∧ (schedDataAccess rq wr s).stp = s.stp ∧ (schedDataAccess rq wr s).fmt = s.fmt ∧ (schedDataAccess rq wr s).arr = s.arr ∧ (schedDataAccess rq wr s).vec = s.vec ∧ (schedDataAccess rq wr s).mxe = s.mxe ∧ (schedDataAccess rq wr s).red = s.red ∧ (schedDataAccess rq wr s).tsk = s.tsk ∧ (schedDataAccess rq wr s).mem = s.mem ∧ (schedDataAccess rq wr s).hif = s.hif ∧ (schedDataAccess rq wr s).img = s.img ∧ (schedDataAccess rq wr s).pwr = s.pwr ∧ (schedDataAccess rq wr s).pending = s.pending := by
  have fr1 := @State.emit_frame
  have fr2 := @State.modUpd_frame
  have fr3 := @State.setRegF_frame
  unfold schedDataAccess; (repeat' split) <;> simp [fr1, fr2, fr3]


theorem stepSizeWrite_frame (rq : Requester) (v : Word) (s : State) :
    (stepSizeWrite rq v s).pairLo = s.pairLo ∧ (stepSizeWrite rq v s).pairCap = s.pairCap ∧ (stepSizeWrite rq v s).out = s.out ∧ (stepSizeWrite rq v s).free = s.free ∧ (stepSizeWrite rq v s).policy = s.policy ∧ (stepSizeWrite rq v s).chk = s.chk ∧ (stepSizeWrite rq v s).snp = s.snp ∧ (stepSizeWrite rq v s).irq = s.irq ∧ (stepSizeWrite rq v s).ezl = s.ezl ∧ (stepSizeWrite rq v s).stp = s.stp ∧ (stepSizeWrite rq v s).fmt = s.fmt ∧ (stepSizeWrite rq v s).arr = s.arr ∧ (stepSizeWrite rq v s).vec = s.vec ∧ (stepSizeWrite rq v s).mxe = s.mxe ∧ (stepSizeWrite rq v s).red = s.red ∧ (stepSizeWrite rq v s).tsk = s.tsk ∧ (stepSizeWrite rq v s).mem = s.mem ∧ (stepSizeWrite rq v s).hif = s.hif ∧ (stepSizeWrite rq v s).img = s.img ∧ (stepSizeWrite rq v s).pwr = s.pwr ∧ (stepSizeWrite rq v s).pending = s.pending := by
  have fr1 := @State.event_frame
  have fr2 := @State.modUpd_frame
  have fr3 := @State.refuseBit_frame
  have fr4 := @State.setReg_frame
  have fr5 := @State.refuseWrite_frame
  simp [stepSizeWrite, fr1, fr2, fr3, fr4, fr5]


theorem State.rowWrite_frame (s : State) (rq : Requester) (a off : Nat) (r : RegRow) (v : Word) :
    (State.rowWrite s rq a off r v).pairCap = s.pairCap ∧ (State.rowWrite s rq a off r v).out = s.out ∧ (State.rowWrite s rq a off r v).free = s.free ∧ (State.rowWrite s rq a off r v).policy = s.policy ∧ (State.rowWrite s rq a off r v).err = s.err ∧ (State.rowWrite s rq a off r v).chk = s.chk ∧ (State.rowWrite s rq a off r v).snp = s.snp ∧ (State.rowWrite s rq a off r v).irq = s.irq ∧ (State.rowWrite s rq a off r v).ezl = s.ezl ∧ (State.rowWrite s rq a off r v).stp = s.stp ∧ (State.rowWrite s rq a off r v).fmt = s.fmt ∧ (State.rowWrite s rq a off r v).arr = s.arr ∧ (State.rowWrite s rq a off r v).vec = s.vec ∧ (State.rowWrite s rq a off r v).mxe = s.mxe ∧ (State.rowWrite s rq a off r v).upd = s.upd ∧ (State.rowWrite s rq a off r v).red = s.red ∧ (State.rowWrite s rq a off r v).tsk = s.tsk ∧ (State.rowWrite s rq a off r v).mem = s.mem ∧ (State.rowWrite s rq a off r v).hif = s.hif ∧ (State.rowWrite s rq a off r v).img = s.img ∧ (State.rowWrite s rq a off r v).pwr = s.pwr ∧ (State.rowWrite s rq a off r v).pending = s.pending := by
  have fr1 := @State.hiWrite_frame
  have fr2 := @State.loWrite_frame
  have fr3 := @State.setReg_frame
  unfold State.rowWrite; (repeat' split) <;> simp [fr1, fr2, fr3]


theorem State.badWrite_frame (s : State) (rq : Requester) (a : Nat) (v : Word) :
    (State.badWrite s rq a v).pairLo = s.pairLo ∧ (State.badWrite s rq a v).pairCap = s.pairCap ∧ (State.badWrite s rq a v).out = s.out ∧ (State.badWrite s rq a v).free = s.free ∧ (State.badWrite s rq a v).policy = s.policy ∧ (State.badWrite s rq a v).chk = s.chk ∧ (State.badWrite s rq a v).snp = s.snp ∧ (State.badWrite s rq a v).irq = s.irq ∧ (State.badWrite s rq a v).ezl = s.ezl ∧ (State.badWrite s rq a v).stp = s.stp ∧ (State.badWrite s rq a v).fmt = s.fmt ∧ (State.badWrite s rq a v).arr = s.arr ∧ (State.badWrite s rq a v).vec = s.vec ∧ (State.badWrite s rq a v).mxe = s.mxe ∧ (State.badWrite s rq a v).upd = s.upd ∧ (State.badWrite s rq a v).red = s.red ∧ (State.badWrite s rq a v).tsk = s.tsk ∧ (State.badWrite s rq a v).mem = s.mem ∧ (State.badWrite s rq a v).hif = s.hif ∧ (State.badWrite s rq a v).img = s.img ∧ (State.badWrite s rq a v).pwr = s.pwr ∧ (State.badWrite s rq a v).pending = s.pending := by
  have fr1 := @State.refuseWrite_frame
  simp [State.badWrite, fr1]


theorem State.queueBase_frame (s : State) (rq : Requester) (off : Nat) (v : Word) :
    (State.queueBase s rq off v).pairCap = s.pairCap ∧ (State.queueBase s rq off v).out = s.out ∧ (State.queueBase s rq off v).free = s.free ∧ (State.queueBase s rq off v).policy = s.policy ∧ (State.queueBase s rq off v).chk = s.chk ∧ (State.queueBase s rq off v).snp = s.snp ∧ (State.queueBase s rq off v).irq = s.irq ∧ (State.queueBase s rq off v).ezl = s.ezl ∧ (State.queueBase s rq off v).stp = s.stp ∧ (State.queueBase s rq off v).fmt = s.fmt ∧ (State.queueBase s rq off v).arr = s.arr ∧ (State.queueBase s rq off v).vec = s.vec ∧ (State.queueBase s rq off v).mxe = s.mxe ∧ (State.queueBase s rq off v).upd = s.upd ∧ (State.queueBase s rq off v).red = s.red ∧ (State.queueBase s rq off v).tsk = s.tsk ∧ (State.queueBase s rq off v).mem = s.mem ∧ (State.queueBase s rq off v).img = s.img ∧ (State.queueBase s rq off v).pwr = s.pwr ∧ (State.queueBase s rq off v).pending = s.pending := by
  have fr1 := @State.badConfig_frame
  have fr2 := @State.loUsed_frame
  have fr3 := @State.setQueue_frame
  simp [State.queueBase, fr1, fr2, fr3]


theorem State.notePwm_frame (s : State) (b : Blk) (off : Nat) :
    (State.notePwm s b off).regs = s.regs ∧ (State.notePwm s b off).pairLo = s.pairLo ∧ (State.notePwm s b off).pairCap = s.pairCap ∧ (State.notePwm s b off).out = s.out ∧ (State.notePwm s b off).free = s.free ∧ (State.notePwm s b off).policy = s.policy ∧ (State.notePwm s b off).err = s.err ∧ (State.notePwm s b off).chk = s.chk ∧ (State.notePwm s b off).snp = s.snp ∧ (State.notePwm s b off).irq = s.irq ∧ (State.notePwm s b off).ezl = s.ezl ∧ (State.notePwm s b off).stp = s.stp ∧ (State.notePwm s b off).fmt = s.fmt ∧ (State.notePwm s b off).arr = s.arr ∧ (State.notePwm s b off).vec = s.vec ∧ (State.notePwm s b off).mxe = s.mxe ∧ (State.notePwm s b off).upd = s.upd ∧ (State.notePwm s b off).red = s.red ∧ (State.notePwm s b off).tsk = s.tsk ∧ (State.notePwm s b off).mem = s.mem ∧ (State.notePwm s b off).hif = s.hif ∧ (State.notePwm s b off).img = s.img ∧ (State.notePwm s b off).pending = s.pending := by
  have fr1 := @State.modPwr_frame
  simp [State.notePwm, fr1]


theorem State.noteCtrl_frame (s : State) (b : Blk) (off : Nat) :
    (State.noteCtrl s b off).pairLo = s.pairLo ∧ (State.noteCtrl s b off).pairCap = s.pairCap ∧ (State.noteCtrl s b off).free = s.free ∧ (State.noteCtrl s b off).policy = s.policy ∧ (State.noteCtrl s b off).err = s.err ∧ (State.noteCtrl s b off).chk = s.chk ∧ (State.noteCtrl s b off).stp = s.stp ∧ (State.noteCtrl s b off).fmt = s.fmt ∧ (State.noteCtrl s b off).arr = s.arr ∧ (State.noteCtrl s b off).vec = s.vec ∧ (State.noteCtrl s b off).mxe = s.mxe ∧ (State.noteCtrl s b off).upd = s.upd ∧ (State.noteCtrl s b off).red = s.red ∧ (State.noteCtrl s b off).tsk = s.tsk ∧ (State.noteCtrl s b off).mem = s.mem ∧ (State.noteCtrl s b off).hif = s.hif ∧ (State.noteCtrl s b off).img = s.img ∧ (State.noteCtrl s b off).pending = s.pending := by
  have fr1 := @State.freeView_frame
  have fr2 := @State.pwrEvent_frame
  have fr3 := @State.sendHeld_frame
  have fr4 := @State.snpOff_frame
  unfold State.noteCtrl; (repeat' split) <;> simp [fr1, fr2, fr3, fr4]


theorem State.ezlCtrl_frame (s : State) (v : Word) :
    (State.ezlCtrl s v).pairLo = s.pairLo ∧ (State.ezlCtrl s v).pairCap = s.pairCap ∧ (State.ezlCtrl s v).out = s.out ∧ (State.ezlCtrl s v).free = s.free ∧ (State.ezlCtrl s v).policy = s.policy ∧ (State.ezlCtrl s v).err = s.err ∧ (State.ezlCtrl s v).chk = s.chk ∧ (State.ezlCtrl s v).snp = s.snp ∧ (State.ezlCtrl s v).irq = s.irq ∧ (State.ezlCtrl s v).stp = s.stp ∧ (State.ezlCtrl s v).fmt = s.fmt ∧ (State.ezlCtrl s v).arr = s.arr ∧ (State.ezlCtrl s v).vec = s.vec ∧ (State.ezlCtrl s v).mxe = s.mxe ∧ (State.ezlCtrl s v).upd = s.upd ∧ (State.ezlCtrl s v).red = s.red ∧ (State.ezlCtrl s v).tsk = s.tsk ∧ (State.ezlCtrl s v).mem = s.mem ∧ (State.ezlCtrl s v).hif = s.hif ∧ (State.ezlCtrl s v).img = s.img ∧ (State.ezlCtrl s v).pwr = s.pwr ∧ (State.ezlCtrl s v).pending = s.pending := by
  have fr1 := @State.setLnk_frame
  have fr2 := @State.setReg_frame
  simp [State.ezlCtrl, fr1, fr2]


theorem State.writeHif_pairCap {s t : State} {rq : Requester} {off : Nat} {v : Word} (h : s.writeHif rq off v = some t) : t.pairCap = s.pairCap := by
  have fr1 := @State.log_frame
  have fr2 := @State.noteCtrl_frame
  have fr3 := @State.notePwm_frame
  have fr4 := @State.refuseWrite_frame
  have fr5 := @State.rowWrite_frame
  have fr6 := @State.badWrite_frame
  have fr7 := @State.hiWrite_frame
  have fr8 := @State.loUsed_frame
  have fr9 := @State.modHif_frame
  have fr10 := @State.queueBase_frame
  have fr11 := @State.setReg_frame
  have fr12 := @msixUnmask_frame
  have fr13 := @qCfgWrite_frame
  unfold State.writeHif at h; try dsimp only at h
  (repeat' split at h) <;> first | (simp [fr1, fr2, fr3, fr4, fr5, fr6, fr7, fr8, fr9, fr10, fr11, fr12, fr13] at h; done) | (injection h with h; subst h; (repeat' split) <;> simp [fr1, fr2, fr3, fr4, fr5, fr6, fr7, fr8, fr9, fr10, fr11, fr12, fr13])

theorem State.writeIrq_pairCap {s t : State} {rq : Requester} {d off : Nat} {v : Word} (h : s.writeIrq rq d off v = some t) : t.pairCap = s.pairCap := by
  have fr1 := @State.log_frame
  have fr2 := @State.noteCtrl_frame
  have fr3 := @State.notePwm_frame
  have fr4 := @State.refuseWrite_frame
  have fr5 := @State.rowWrite_frame
  have fr6 := @State.setIrq_frame
  have fr7 := @hostEoi_frame
  have fr8 := @irqEoi_frame
  have fr9 := @irqPclrWrite_frame
  have fr10 := @irqPendWrite_frame
  have fr11 := @kdone_frame
  unfold State.writeIrq at h; try dsimp only at h
  (repeat' split at h) <;> first | (simp [fr1, fr2, fr3, fr4, fr5, fr6, fr7, fr8, fr9, fr10, fr11] at h; done) | (injection h with h; subst h; (repeat' split) <;> simp [fr1, fr2, fr3, fr4, fr5, fr6, fr7, fr8, fr9, fr10, fr11])

theorem State.writePwr_pairCap {s t : State} {rq : Requester} {off : Nat} {v : Word} (h : s.writePwr rq off v = some t) : t.pairCap = s.pairCap := by
  have fr1 := @State.log_frame
  have fr2 := @State.noteCtrl_frame
  have fr3 := @State.notePwm_frame
  have fr4 := @State.refuseWrite_frame
  have fr5 := @State.rowWrite_frame
  have fr6 := @State.badWrite_frame
  have fr7 := @clearUnstable_frame
  have fr8 := @hkaConvWrite_frame
  have fr9 := @selectInput_frame
  unfold State.writePwr at h; try dsimp only at h
  (repeat' split at h) <;> first | (simp [fr1, fr2, fr3, fr4, fr5, fr6, fr7, fr8, fr9] at h; done) | (injection h with h; subst h; (repeat' split) <;> simp [fr1, fr2, fr3, fr4, fr5, fr6, fr7, fr8, fr9])

theorem State.writeSnp_pairCap {s t : State} {rq : Requester} {off : Nat} {v : Word} (h : s.writeSnp rq off v = some t) : t.pairCap = s.pairCap := by
  have fr1 := @State.log_frame
  have fr2 := @State.noteCtrl_frame
  have fr3 := @State.notePwm_frame
  have fr4 := @State.refuseWrite_frame
  have fr5 := @State.rowWrite_frame
  have fr6 := @State.badWrite_frame
  have fr7 := @snpRingSizeWrite_frame
  have fr8 := @snpTrigFire_frame
  unfold State.writeSnp at h; try dsimp only at h
  (repeat' split at h) <;> first | (simp [fr1, fr2, fr3, fr4, fr5, fr6, fr7, fr8] at h; done) | (injection h with h; subst h; (repeat' split) <;> simp [fr1, fr2, fr3, fr4, fr5, fr6, fr7, fr8])

theorem State.writeChk_pairCap {s t : State} {rq : Requester} {off : Nat} {v : Word} (h : s.writeChk rq off v = some t) : t.pairCap = s.pairCap := by
  have fr1 := @State.log_frame
  have fr2 := @State.noteCtrl_frame
  have fr3 := @State.notePwm_frame
  have fr4 := @State.refuseWrite_frame
  have fr5 := @State.rowWrite_frame
  have fr6 := @State.badWrite_frame
  have fr7 := @State.chkOwned_frame
  have fr8 := @chkClaim_frame
  have fr9 := @chkDataWrite_frame
  have fr10 := @chkInit_frame
  have fr11 := @chkRelease_frame
  have fr12 := @chkValueWrite_frame
  unfold State.writeChk at h; try dsimp only at h
  (repeat' split at h) <;> first | (simp [fr1, fr2, fr3, fr4, fr5, fr6, fr7, fr8, fr9, fr10, fr11, fr12] at h; done) | (injection h with h; subst h; (repeat' split) <;> simp [fr1, fr2, fr3, fr4, fr5, fr6, fr7, fr8, fr9, fr10, fr11, fr12])

theorem State.writeImg_pairCap {s t : State} {rq : Requester} {off : Nat} {v : Word} (h : s.writeImg rq off v = some t) : t.pairCap = s.pairCap := by
  have fr1 := @State.log_frame
  have fr2 := @State.noteCtrl_frame
  have fr3 := @State.notePwm_frame
  have fr4 := @State.refuseWrite_frame
  have fr5 := @State.rowWrite_frame
  have fr6 := @State.badWrite_frame
  have fr7 := @attRequest_frame
  have fr8 := @bootPushed_frame
  have fr9 := @verifyPushed_frame
  have fr10 := @writeImage_frame
  unfold State.writeImg at h; try dsimp only at h
  (repeat' split at h) <;> first | (simp [fr1, fr2, fr3, fr4, fr5, fr6, fr7, fr8, fr9, fr10] at h; done) | (injection h with h; subst h; (repeat' split) <;> simp [fr1, fr2, fr3, fr4, fr5, fr6, fr7, fr8, fr9, fr10])

theorem State.writeTsk_pairCap {s t : State} {rq : Requester} {off : Nat} {v : Word} (h : s.writeTsk rq off v = some t) : t.pairCap = s.pairCap := by
  have fr1 := @State.log_frame
  have fr2 := @State.noteCtrl_frame
  have fr3 := @State.notePwm_frame
  have fr4 := @State.refuseWrite_frame
  have fr5 := @State.rowWrite_frame
  have fr6 := @State.addCounter_frame
  have fr7 := @State.badWrite_frame
  have fr8 := @State.setCounter_frame
  have fr9 := @tskLaunch_frame
  unfold State.writeTsk at h; try dsimp only at h
  (repeat' split at h) <;> first | (simp [fr1, fr2, fr3, fr4, fr5, fr6, fr7, fr8, fr9] at h; done) | (injection h with h; subst h; (repeat' split) <;> simp [fr1, fr2, fr3, fr4, fr5, fr6, fr7, fr8, fr9])

theorem State.writeUpd_pairCap {s t : State} {rq : Requester} {off : Nat} {v : Word} (h : s.writeUpd rq off v = some t) : t.pairCap = s.pairCap := by
  have fr1 := @State.log_frame
  have fr2 := @State.noteCtrl_frame
  have fr3 := @State.notePwm_frame
  have fr4 := @State.refuseWrite_frame
  have fr5 := @State.rowWrite_frame
  have fr6 := @State.badWrite_frame
  have fr7 := @projectCmd_frame
  have fr8 := @schedDataAccess_frame
  have fr9 := @stepSizeWrite_frame
  unfold State.writeUpd at h; try dsimp only at h
  (repeat' split at h) <;> first | (simp [fr1, fr2, fr3, fr4, fr5, fr6, fr7, fr8, fr9] at h; done) | (injection h with h; subst h; (repeat' split) <;> simp [fr1, fr2, fr3, fr4, fr5, fr6, fr7, fr8, fr9])

theorem State.writeRed_pairCap {s t : State} {rq : Requester} {off : Nat} {v : Word} (h : s.writeRed rq off v = some t) : t.pairCap = s.pairCap := by
  have fr1 := @State.log_frame
  have fr2 := @State.noteCtrl_frame
  have fr3 := @State.notePwm_frame
  have fr4 := @State.refuseWrite_frame
  have fr5 := @State.rowWrite_frame
  have fr6 := @State.badWrite_frame
  have fr7 := @form_frame
  unfold State.writeRed at h; try dsimp only at h
  (repeat' split at h) <;> first | (simp [fr1, fr2, fr3, fr4, fr5, fr6, fr7] at h; done) | (injection h with h; subst h; (repeat' split) <;> simp [fr1, fr2, fr3, fr4, fr5, fr6, fr7])

theorem State.writeMem_pairCap {s t : State} {rq : Requester} {d off : Nat} {v : Word} (h : s.writeMem rq d off v = some t) : t.pairCap = s.pairCap := by
  have fr1 := @State.log_frame
  have fr2 := @State.noteCtrl_frame
  have fr3 := @State.notePwm_frame
  have fr4 := @State.refuseWrite_frame
  have fr5 := @State.rowWrite_frame
  have fr6 := @State.badWrite_frame
  have fr7 := @siltCmd_frame
  have fr8 := @siltSlotsWrite_frame
  unfold State.writeMem at h; try dsimp only at h
  (repeat' split at h) <;> first | (simp [fr1, fr2, fr3, fr4, fr5, fr6, fr7, fr8] at h; done) | (injection h with h; subst h; (repeat' split) <;> simp [fr1, fr2, fr3, fr4, fr5, fr6, fr7, fr8])

theorem State.writeEzl_pairCap {s t : State} {rq : Requester} {off : Nat} {v : Word} (h : s.writeEzl rq off v = some t) : t.pairCap = s.pairCap := by
  have fr1 := @State.log_frame
  have fr2 := @State.noteCtrl_frame
  have fr3 := @State.notePwm_frame
  have fr4 := @State.refuseWrite_frame
  have fr5 := @State.rowWrite_frame
  have fr6 := @State.badWrite_frame
  have fr7 := @State.ezlCtrl_frame
  have fr8 := @cmdRemove_frame
  have fr9 := @cmdRestore_frame
  have fr10 := @cmdRetrain_frame
  unfold State.writeEzl at h; try dsimp only at h
  (repeat' split at h) <;> first | (simp [fr1, fr2, fr3, fr4, fr5, fr6, fr7, fr8, fr9, fr10] at h; done) | (injection h with h; subst h; (repeat' split) <;> simp [fr1, fr2, fr3, fr4, fr5, fr6, fr7, fr8, fr9, fr10])

theorem State.writeArr_pairCap {s t : State} {rq : Requester} {k off : Nat} {v : Word} (h : s.writeArr rq k off v = some t) : t.pairCap = s.pairCap := by
  have fr1 := @State.log_frame
  have fr2 := @State.noteCtrl_frame
  have fr3 := @State.notePwm_frame
  have fr4 := @State.refuseWrite_frame
  have fr5 := @State.rowWrite_frame
  have fr6 := @State.refuseProg_frame
  have fr7 := @clipgClr_frame
  have fr8 := @loadCmd_frame
  have fr9 := @publishCmd_frame
  have fr10 := @rangeDataWrite_frame
  have fr11 := @readbackCmd_frame
  have fr12 := @refreshCmd_frame
  unfold State.writeArr at h; try dsimp only at h
  (repeat' split at h) <;> first | (simp [fr1, fr2, fr3, fr4, fr5, fr6, fr7, fr8, fr9, fr10, fr11, fr12] at h; done) | (injection h with h; subst h; (repeat' split) <;> simp [fr1, fr2, fr3, fr4, fr5, fr6, fr7, fr8, fr9, fr10, fr11, fr12])

theorem State.writeDuty_pairCap {s t : State} {rq : Requester} {off : Nat} {v : Word} (h : s.writeDuty rq off v = some t) : t.pairCap = s.pairCap := by
  have fr1 := @State.log_frame
  have fr2 := @State.noteCtrl_frame
  have fr3 := @State.notePwm_frame
  have fr4 := @State.refuseWrite_frame
  have fr5 := @State.rowWrite_frame
  have fr6 := @State.badWrite_frame
  have fr7 := @State.loUsed_frame
  have fr8 := @dutySplitWrite_frame
  have fr9 := @stepDecideNone_frame
  have fr10 := @stepDecideRepeat_frame
  have fr11 := @stepDecideSkip_frame
  have fr12 := @stepDecideStop_frame
  unfold State.writeDuty at h; try dsimp only at h
  (repeat' split at h) <;> first | (simp [fr1, fr2, fr3, fr4, fr5, fr6, fr7, fr8, fr9, fr10, fr11, fr12] at h; done) | (injection h with h; subst h; (repeat' split) <;> simp [fr1, fr2, fr3, fr4, fr5, fr6, fr7, fr8, fr9, fr10, fr11, fr12])

theorem State.writeSpecial_pairCap {s t : State} {rq : Requester} {b : Blk} {off : Nat} {v : Word} (h : s.writeSpecial rq b off v = some t) : t.pairCap = s.pairCap := by
  have fr1 := @State.log_frame
  have fr2 := @State.noteCtrl_frame
  have fr3 := @State.notePwm_frame
  have fr4 := @State.refuseWrite_frame
  have fr5 := @State.rowWrite_frame
  unfold State.writeSpecial at h
  split at h
  · exact State.writeHif_pairCap h
  · exact State.writeIrq_pairCap h
  · exact State.writePwr_pairCap h
  · exact State.writeSnp_pairCap h
  · exact State.writeChk_pairCap h
  · exact State.writeImg_pairCap h
  · exact State.writeTsk_pairCap h
  · exact State.writeUpd_pairCap h
  · exact State.writeRed_pairCap h
  · exact State.writeMem_pairCap h
  · exact State.writeEzl_pairCap h
  · exact State.writeArr_pairCap h
  · exact State.writeDuty_pairCap h
  · simp at h

@[simp] theorem State.writeBar0_pairCap (s : State) (rq : Requester) (a : Nat) (v : Word) : (s.writeBar0 rq a v).pairCap = s.pairCap := by
  have fr1 := @State.log_frame
  have fr2 := @State.noteCtrl_frame
  have fr3 := @State.notePwm_frame
  have fr4 := @State.refuseWrite_frame
  have fr5 := @State.rowWrite_frame
  unfold State.writeBar0; dsimp only
  split
  · simp [fr1, fr2, fr3, fr4, fr5]
  · split
    · simp [fr1, fr2, fr3, fr4, fr5]
    · split
      · simp [fr1, fr2, fr3, fr4, fr5]
      · split
        · next h => exact State.writeSpecial_pairCap h
        · simp [fr1, fr2, fr3, fr4, fr5]

theorem State.writeHif_vec {s t : State} {rq : Requester} {off : Nat} {v : Word} (h : s.writeHif rq off v = some t) : t.vec = s.vec := by
  have fr1 := @State.log_frame
  have fr2 := @State.noteCtrl_frame
  have fr3 := @State.notePwm_frame
  have fr4 := @State.refuseWrite_frame
  have fr5 := @State.rowWrite_frame
  have fr6 := @State.badWrite_frame
  have fr7 := @State.hiWrite_frame
  have fr8 := @State.loUsed_frame
  have fr9 := @State.modHif_frame
  have fr10 := @State.queueBase_frame
  have fr11 := @State.setReg_frame
  have fr12 := @msixUnmask_frame
  have fr13 := @qCfgWrite_frame
  unfold State.writeHif at h; try dsimp only at h
  (repeat' split at h) <;> first | (simp [fr1, fr2, fr3, fr4, fr5, fr6, fr7, fr8, fr9, fr10, fr11, fr12, fr13] at h; done) | (injection h with h; subst h; (repeat' split) <;> simp [fr1, fr2, fr3, fr4, fr5, fr6, fr7, fr8, fr9, fr10, fr11, fr12, fr13])

theorem State.writeIrq_vec {s t : State} {rq : Requester} {d off : Nat} {v : Word} (h : s.writeIrq rq d off v = some t) : t.vec = s.vec := by
  have fr1 := @State.log_frame
  have fr2 := @State.noteCtrl_frame
  have fr3 := @State.notePwm_frame
  have fr4 := @State.refuseWrite_frame
  have fr5 := @State.rowWrite_frame
  have fr6 := @State.setIrq_frame
  have fr7 := @hostEoi_frame
  have fr8 := @irqEoi_frame
  have fr9 := @irqPclrWrite_frame
  have fr10 := @irqPendWrite_frame
  have fr11 := @kdone_frame
  unfold State.writeIrq at h; try dsimp only at h
  (repeat' split at h) <;> first | (simp [fr1, fr2, fr3, fr4, fr5, fr6, fr7, fr8, fr9, fr10, fr11] at h; done) | (injection h with h; subst h; (repeat' split) <;> simp [fr1, fr2, fr3, fr4, fr5, fr6, fr7, fr8, fr9, fr10, fr11])

theorem State.writePwr_vec {s t : State} {rq : Requester} {off : Nat} {v : Word} (h : s.writePwr rq off v = some t) : t.vec = s.vec := by
  have fr1 := @State.log_frame
  have fr2 := @State.noteCtrl_frame
  have fr3 := @State.notePwm_frame
  have fr4 := @State.refuseWrite_frame
  have fr5 := @State.rowWrite_frame
  have fr6 := @State.badWrite_frame
  have fr7 := @clearUnstable_frame
  have fr8 := @hkaConvWrite_frame
  have fr9 := @selectInput_frame
  unfold State.writePwr at h; try dsimp only at h
  (repeat' split at h) <;> first | (simp [fr1, fr2, fr3, fr4, fr5, fr6, fr7, fr8, fr9] at h; done) | (injection h with h; subst h; (repeat' split) <;> simp [fr1, fr2, fr3, fr4, fr5, fr6, fr7, fr8, fr9])

theorem State.writeSnp_vec {s t : State} {rq : Requester} {off : Nat} {v : Word} (h : s.writeSnp rq off v = some t) : t.vec = s.vec := by
  have fr1 := @State.log_frame
  have fr2 := @State.noteCtrl_frame
  have fr3 := @State.notePwm_frame
  have fr4 := @State.refuseWrite_frame
  have fr5 := @State.rowWrite_frame
  have fr6 := @State.badWrite_frame
  have fr7 := @snpRingSizeWrite_frame
  have fr8 := @snpTrigFire_frame
  unfold State.writeSnp at h; try dsimp only at h
  (repeat' split at h) <;> first | (simp [fr1, fr2, fr3, fr4, fr5, fr6, fr7, fr8] at h; done) | (injection h with h; subst h; (repeat' split) <;> simp [fr1, fr2, fr3, fr4, fr5, fr6, fr7, fr8])

theorem State.writeChk_vec {s t : State} {rq : Requester} {off : Nat} {v : Word} (h : s.writeChk rq off v = some t) : t.vec = s.vec := by
  have fr1 := @State.log_frame
  have fr2 := @State.noteCtrl_frame
  have fr3 := @State.notePwm_frame
  have fr4 := @State.refuseWrite_frame
  have fr5 := @State.rowWrite_frame
  have fr6 := @State.badWrite_frame
  have fr7 := @State.chkOwned_frame
  have fr8 := @chkClaim_frame
  have fr9 := @chkDataWrite_frame
  have fr10 := @chkInit_frame
  have fr11 := @chkRelease_frame
  have fr12 := @chkValueWrite_frame
  unfold State.writeChk at h; try dsimp only at h
  (repeat' split at h) <;> first | (simp [fr1, fr2, fr3, fr4, fr5, fr6, fr7, fr8, fr9, fr10, fr11, fr12] at h; done) | (injection h with h; subst h; (repeat' split) <;> simp [fr1, fr2, fr3, fr4, fr5, fr6, fr7, fr8, fr9, fr10, fr11, fr12])

theorem State.writeImg_vec {s t : State} {rq : Requester} {off : Nat} {v : Word} (h : s.writeImg rq off v = some t) : t.vec = s.vec := by
  have fr1 := @State.log_frame
  have fr2 := @State.noteCtrl_frame
  have fr3 := @State.notePwm_frame
  have fr4 := @State.refuseWrite_frame
  have fr5 := @State.rowWrite_frame
  have fr6 := @State.badWrite_frame
  have fr7 := @attRequest_frame
  have fr8 := @bootPushed_frame
  have fr9 := @verifyPushed_frame
  have fr10 := @writeImage_frame
  unfold State.writeImg at h; try dsimp only at h
  (repeat' split at h) <;> first | (simp [fr1, fr2, fr3, fr4, fr5, fr6, fr7, fr8, fr9, fr10] at h; done) | (injection h with h; subst h; (repeat' split) <;> simp [fr1, fr2, fr3, fr4, fr5, fr6, fr7, fr8, fr9, fr10])

theorem State.writeTsk_vec {s t : State} {rq : Requester} {off : Nat} {v : Word} (h : s.writeTsk rq off v = some t) : t.vec = s.vec := by
  have fr1 := @State.log_frame
  have fr2 := @State.noteCtrl_frame
  have fr3 := @State.notePwm_frame
  have fr4 := @State.refuseWrite_frame
  have fr5 := @State.rowWrite_frame
  have fr6 := @State.addCounter_frame
  have fr7 := @State.badWrite_frame
  have fr8 := @State.setCounter_frame
  have fr9 := @tskLaunch_frame
  unfold State.writeTsk at h; try dsimp only at h
  (repeat' split at h) <;> first | (simp [fr1, fr2, fr3, fr4, fr5, fr6, fr7, fr8, fr9] at h; done) | (injection h with h; subst h; (repeat' split) <;> simp [fr1, fr2, fr3, fr4, fr5, fr6, fr7, fr8, fr9])

theorem State.writeUpd_vec {s t : State} {rq : Requester} {off : Nat} {v : Word} (h : s.writeUpd rq off v = some t) : t.vec = s.vec := by
  have fr1 := @State.log_frame
  have fr2 := @State.noteCtrl_frame
  have fr3 := @State.notePwm_frame
  have fr4 := @State.refuseWrite_frame
  have fr5 := @State.rowWrite_frame
  have fr6 := @State.badWrite_frame
  have fr7 := @projectCmd_frame
  have fr8 := @schedDataAccess_frame
  have fr9 := @stepSizeWrite_frame
  unfold State.writeUpd at h; try dsimp only at h
  (repeat' split at h) <;> first | (simp [fr1, fr2, fr3, fr4, fr5, fr6, fr7, fr8, fr9] at h; done) | (injection h with h; subst h; (repeat' split) <;> simp [fr1, fr2, fr3, fr4, fr5, fr6, fr7, fr8, fr9])

theorem State.writeRed_vec {s t : State} {rq : Requester} {off : Nat} {v : Word} (h : s.writeRed rq off v = some t) : t.vec = s.vec := by
  have fr1 := @State.log_frame
  have fr2 := @State.noteCtrl_frame
  have fr3 := @State.notePwm_frame
  have fr4 := @State.refuseWrite_frame
  have fr5 := @State.rowWrite_frame
  have fr6 := @State.badWrite_frame
  have fr7 := @form_frame
  unfold State.writeRed at h; try dsimp only at h
  (repeat' split at h) <;> first | (simp [fr1, fr2, fr3, fr4, fr5, fr6, fr7] at h; done) | (injection h with h; subst h; (repeat' split) <;> simp [fr1, fr2, fr3, fr4, fr5, fr6, fr7])

theorem State.writeMem_vec {s t : State} {rq : Requester} {d off : Nat} {v : Word} (h : s.writeMem rq d off v = some t) : t.vec = s.vec := by
  have fr1 := @State.log_frame
  have fr2 := @State.noteCtrl_frame
  have fr3 := @State.notePwm_frame
  have fr4 := @State.refuseWrite_frame
  have fr5 := @State.rowWrite_frame
  have fr6 := @State.badWrite_frame
  have fr7 := @siltCmd_frame
  have fr8 := @siltSlotsWrite_frame
  unfold State.writeMem at h; try dsimp only at h
  (repeat' split at h) <;> first | (simp [fr1, fr2, fr3, fr4, fr5, fr6, fr7, fr8] at h; done) | (injection h with h; subst h; (repeat' split) <;> simp [fr1, fr2, fr3, fr4, fr5, fr6, fr7, fr8])

theorem State.writeEzl_vec {s t : State} {rq : Requester} {off : Nat} {v : Word} (h : s.writeEzl rq off v = some t) : t.vec = s.vec := by
  have fr1 := @State.log_frame
  have fr2 := @State.noteCtrl_frame
  have fr3 := @State.notePwm_frame
  have fr4 := @State.refuseWrite_frame
  have fr5 := @State.rowWrite_frame
  have fr6 := @State.badWrite_frame
  have fr7 := @State.ezlCtrl_frame
  have fr8 := @cmdRemove_frame
  have fr9 := @cmdRestore_frame
  have fr10 := @cmdRetrain_frame
  unfold State.writeEzl at h; try dsimp only at h
  (repeat' split at h) <;> first | (simp [fr1, fr2, fr3, fr4, fr5, fr6, fr7, fr8, fr9, fr10] at h; done) | (injection h with h; subst h; (repeat' split) <;> simp [fr1, fr2, fr3, fr4, fr5, fr6, fr7, fr8, fr9, fr10])

theorem State.writeArr_vec {s t : State} {rq : Requester} {k off : Nat} {v : Word} (h : s.writeArr rq k off v = some t) : t.vec = s.vec := by
  have fr1 := @State.log_frame
  have fr2 := @State.noteCtrl_frame
  have fr3 := @State.notePwm_frame
  have fr4 := @State.refuseWrite_frame
  have fr5 := @State.rowWrite_frame
  have fr6 := @State.refuseProg_frame
  have fr7 := @clipgClr_frame
  have fr8 := @loadCmd_frame
  have fr9 := @publishCmd_frame
  have fr10 := @rangeDataWrite_frame
  have fr11 := @readbackCmd_frame
  have fr12 := @refreshCmd_frame
  unfold State.writeArr at h; try dsimp only at h
  (repeat' split at h) <;> first | (simp [fr1, fr2, fr3, fr4, fr5, fr6, fr7, fr8, fr9, fr10, fr11, fr12] at h; done) | (injection h with h; subst h; (repeat' split) <;> simp [fr1, fr2, fr3, fr4, fr5, fr6, fr7, fr8, fr9, fr10, fr11, fr12])

theorem State.writeDuty_vec {s t : State} {rq : Requester} {off : Nat} {v : Word} (h : s.writeDuty rq off v = some t) : t.vec = s.vec := by
  have fr1 := @State.log_frame
  have fr2 := @State.noteCtrl_frame
  have fr3 := @State.notePwm_frame
  have fr4 := @State.refuseWrite_frame
  have fr5 := @State.rowWrite_frame
  have fr6 := @State.badWrite_frame
  have fr7 := @State.loUsed_frame
  have fr8 := @dutySplitWrite_frame
  have fr9 := @stepDecideNone_frame
  have fr10 := @stepDecideRepeat_frame
  have fr11 := @stepDecideSkip_frame
  have fr12 := @stepDecideStop_frame
  unfold State.writeDuty at h; try dsimp only at h
  (repeat' split at h) <;> first | (simp [fr1, fr2, fr3, fr4, fr5, fr6, fr7, fr8, fr9, fr10, fr11, fr12] at h; done) | (injection h with h; subst h; (repeat' split) <;> simp [fr1, fr2, fr3, fr4, fr5, fr6, fr7, fr8, fr9, fr10, fr11, fr12])

theorem State.writeSpecial_vec {s t : State} {rq : Requester} {b : Blk} {off : Nat} {v : Word} (h : s.writeSpecial rq b off v = some t) : t.vec = s.vec := by
  have fr1 := @State.log_frame
  have fr2 := @State.noteCtrl_frame
  have fr3 := @State.notePwm_frame
  have fr4 := @State.refuseWrite_frame
  have fr5 := @State.rowWrite_frame
  unfold State.writeSpecial at h
  split at h
  · exact State.writeHif_vec h
  · exact State.writeIrq_vec h
  · exact State.writePwr_vec h
  · exact State.writeSnp_vec h
  · exact State.writeChk_vec h
  · exact State.writeImg_vec h
  · exact State.writeTsk_vec h
  · exact State.writeUpd_vec h
  · exact State.writeRed_vec h
  · exact State.writeMem_vec h
  · exact State.writeEzl_vec h
  · exact State.writeArr_vec h
  · exact State.writeDuty_vec h
  · simp at h

@[simp] theorem State.writeBar0_vec (s : State) (rq : Requester) (a : Nat) (v : Word) : (s.writeBar0 rq a v).vec = s.vec := by
  have fr1 := @State.log_frame
  have fr2 := @State.noteCtrl_frame
  have fr3 := @State.notePwm_frame
  have fr4 := @State.refuseWrite_frame
  have fr5 := @State.rowWrite_frame
  unfold State.writeBar0; dsimp only
  split
  · simp [fr1, fr2, fr3, fr4, fr5]
  · split
    · simp [fr1, fr2, fr3, fr4, fr5]
    · split
      · simp [fr1, fr2, fr3, fr4, fr5]
      · split
        · next h => exact State.writeSpecial_vec h
        · simp [fr1, fr2, fr3, fr4, fr5]

theorem State.writeHif_pending {s t : State} {rq : Requester} {off : Nat} {v : Word} (h : s.writeHif rq off v = some t) : t.pending = s.pending := by
  have fr1 := @State.log_frame
  have fr2 := @State.noteCtrl_frame
  have fr3 := @State.notePwm_frame
  have fr4 := @State.refuseWrite_frame
  have fr5 := @State.rowWrite_frame
  have fr6 := @State.badWrite_frame
  have fr7 := @State.hiWrite_frame
  have fr8 := @State.loUsed_frame
  have fr9 := @State.modHif_frame
  have fr10 := @State.queueBase_frame
  have fr11 := @State.setReg_frame
  have fr12 := @msixUnmask_frame
  have fr13 := @qCfgWrite_frame
  unfold State.writeHif at h; try dsimp only at h
  (repeat' split at h) <;> first | (simp [fr1, fr2, fr3, fr4, fr5, fr6, fr7, fr8, fr9, fr10, fr11, fr12, fr13] at h; done) | (injection h with h; subst h; (repeat' split) <;> simp [fr1, fr2, fr3, fr4, fr5, fr6, fr7, fr8, fr9, fr10, fr11, fr12, fr13])

theorem State.writeIrq_pending {s t : State} {rq : Requester} {d off : Nat} {v : Word} (h : s.writeIrq rq d off v = some t) : t.pending = s.pending := by
  have fr1 := @State.log_frame
  have fr2 := @State.noteCtrl_frame
  have fr3 := @State.notePwm_frame
  have fr4 := @State.refuseWrite_frame
  have fr5 := @State.rowWrite_frame
  have fr6 := @State.setIrq_frame
  have fr7 := @hostEoi_frame
  have fr8 := @irqEoi_frame
  have fr9 := @irqPclrWrite_frame
  have fr10 := @irqPendWrite_frame
  have fr11 := @kdone_frame
  unfold State.writeIrq at h; try dsimp only at h
  (repeat' split at h) <;> first | (simp [fr1, fr2, fr3, fr4, fr5, fr6, fr7, fr8, fr9, fr10, fr11] at h; done) | (injection h with h; subst h; (repeat' split) <;> simp [fr1, fr2, fr3, fr4, fr5, fr6, fr7, fr8, fr9, fr10, fr11])

theorem State.writePwr_pending {s t : State} {rq : Requester} {off : Nat} {v : Word} (h : s.writePwr rq off v = some t) : t.pending = s.pending := by
  have fr1 := @State.log_frame
  have fr2 := @State.noteCtrl_frame
  have fr3 := @State.notePwm_frame
  have fr4 := @State.refuseWrite_frame
  have fr5 := @State.rowWrite_frame
  have fr6 := @State.badWrite_frame
  have fr7 := @clearUnstable_frame
  have fr8 := @hkaConvWrite_frame
  have fr9 := @selectInput_frame
  unfold State.writePwr at h; try dsimp only at h
  (repeat' split at h) <;> first | (simp [fr1, fr2, fr3, fr4, fr5, fr6, fr7, fr8, fr9] at h; done) | (injection h with h; subst h; (repeat' split) <;> simp [fr1, fr2, fr3, fr4, fr5, fr6, fr7, fr8, fr9])

theorem State.writeSnp_pending {s t : State} {rq : Requester} {off : Nat} {v : Word} (h : s.writeSnp rq off v = some t) : t.pending = s.pending := by
  have fr1 := @State.log_frame
  have fr2 := @State.noteCtrl_frame
  have fr3 := @State.notePwm_frame
  have fr4 := @State.refuseWrite_frame
  have fr5 := @State.rowWrite_frame
  have fr6 := @State.badWrite_frame
  have fr7 := @snpRingSizeWrite_frame
  have fr8 := @snpTrigFire_frame
  unfold State.writeSnp at h; try dsimp only at h
  (repeat' split at h) <;> first | (simp [fr1, fr2, fr3, fr4, fr5, fr6, fr7, fr8] at h; done) | (injection h with h; subst h; (repeat' split) <;> simp [fr1, fr2, fr3, fr4, fr5, fr6, fr7, fr8])

theorem State.writeChk_pending {s t : State} {rq : Requester} {off : Nat} {v : Word} (h : s.writeChk rq off v = some t) : t.pending = s.pending := by
  have fr1 := @State.log_frame
  have fr2 := @State.noteCtrl_frame
  have fr3 := @State.notePwm_frame
  have fr4 := @State.refuseWrite_frame
  have fr5 := @State.rowWrite_frame
  have fr6 := @State.badWrite_frame
  have fr7 := @State.chkOwned_frame
  have fr8 := @chkClaim_frame
  have fr9 := @chkDataWrite_frame
  have fr10 := @chkInit_frame
  have fr11 := @chkRelease_frame
  have fr12 := @chkValueWrite_frame
  unfold State.writeChk at h; try dsimp only at h
  (repeat' split at h) <;> first | (simp [fr1, fr2, fr3, fr4, fr5, fr6, fr7, fr8, fr9, fr10, fr11, fr12] at h; done) | (injection h with h; subst h; (repeat' split) <;> simp [fr1, fr2, fr3, fr4, fr5, fr6, fr7, fr8, fr9, fr10, fr11, fr12])

theorem State.writeImg_pending {s t : State} {rq : Requester} {off : Nat} {v : Word} (h : s.writeImg rq off v = some t) : t.pending = s.pending := by
  have fr1 := @State.log_frame
  have fr2 := @State.noteCtrl_frame
  have fr3 := @State.notePwm_frame
  have fr4 := @State.refuseWrite_frame
  have fr5 := @State.rowWrite_frame
  have fr6 := @State.badWrite_frame
  have fr7 := @attRequest_frame
  have fr8 := @bootPushed_frame
  have fr9 := @verifyPushed_frame
  have fr10 := @writeImage_frame
  unfold State.writeImg at h; try dsimp only at h
  (repeat' split at h) <;> first | (simp [fr1, fr2, fr3, fr4, fr5, fr6, fr7, fr8, fr9, fr10] at h; done) | (injection h with h; subst h; (repeat' split) <;> simp [fr1, fr2, fr3, fr4, fr5, fr6, fr7, fr8, fr9, fr10])

theorem State.writeTsk_pending {s t : State} {rq : Requester} {off : Nat} {v : Word} (h : s.writeTsk rq off v = some t) : t.pending = s.pending := by
  have fr1 := @State.log_frame
  have fr2 := @State.noteCtrl_frame
  have fr3 := @State.notePwm_frame
  have fr4 := @State.refuseWrite_frame
  have fr5 := @State.rowWrite_frame
  have fr6 := @State.addCounter_frame
  have fr7 := @State.badWrite_frame
  have fr8 := @State.setCounter_frame
  have fr9 := @tskLaunch_frame
  unfold State.writeTsk at h; try dsimp only at h
  (repeat' split at h) <;> first | (simp [fr1, fr2, fr3, fr4, fr5, fr6, fr7, fr8, fr9] at h; done) | (injection h with h; subst h; (repeat' split) <;> simp [fr1, fr2, fr3, fr4, fr5, fr6, fr7, fr8, fr9])

theorem State.writeUpd_pending {s t : State} {rq : Requester} {off : Nat} {v : Word} (h : s.writeUpd rq off v = some t) : t.pending = s.pending := by
  have fr1 := @State.log_frame
  have fr2 := @State.noteCtrl_frame
  have fr3 := @State.notePwm_frame
  have fr4 := @State.refuseWrite_frame
  have fr5 := @State.rowWrite_frame
  have fr6 := @State.badWrite_frame
  have fr7 := @projectCmd_frame
  have fr8 := @schedDataAccess_frame
  have fr9 := @stepSizeWrite_frame
  unfold State.writeUpd at h; try dsimp only at h
  (repeat' split at h) <;> first | (simp [fr1, fr2, fr3, fr4, fr5, fr6, fr7, fr8, fr9] at h; done) | (injection h with h; subst h; (repeat' split) <;> simp [fr1, fr2, fr3, fr4, fr5, fr6, fr7, fr8, fr9])

theorem State.writeRed_pending {s t : State} {rq : Requester} {off : Nat} {v : Word} (h : s.writeRed rq off v = some t) : t.pending = s.pending := by
  have fr1 := @State.log_frame
  have fr2 := @State.noteCtrl_frame
  have fr3 := @State.notePwm_frame
  have fr4 := @State.refuseWrite_frame
  have fr5 := @State.rowWrite_frame
  have fr6 := @State.badWrite_frame
  have fr7 := @form_frame
  unfold State.writeRed at h; try dsimp only at h
  (repeat' split at h) <;> first | (simp [fr1, fr2, fr3, fr4, fr5, fr6, fr7] at h; done) | (injection h with h; subst h; (repeat' split) <;> simp [fr1, fr2, fr3, fr4, fr5, fr6, fr7])

theorem State.writeMem_pending {s t : State} {rq : Requester} {d off : Nat} {v : Word} (h : s.writeMem rq d off v = some t) : t.pending = s.pending := by
  have fr1 := @State.log_frame
  have fr2 := @State.noteCtrl_frame
  have fr3 := @State.notePwm_frame
  have fr4 := @State.refuseWrite_frame
  have fr5 := @State.rowWrite_frame
  have fr6 := @State.badWrite_frame
  have fr7 := @siltCmd_frame
  have fr8 := @siltSlotsWrite_frame
  unfold State.writeMem at h; try dsimp only at h
  (repeat' split at h) <;> first | (simp [fr1, fr2, fr3, fr4, fr5, fr6, fr7, fr8] at h; done) | (injection h with h; subst h; (repeat' split) <;> simp [fr1, fr2, fr3, fr4, fr5, fr6, fr7, fr8])

theorem State.writeEzl_pending {s t : State} {rq : Requester} {off : Nat} {v : Word} (h : s.writeEzl rq off v = some t) : t.pending = s.pending := by
  have fr1 := @State.log_frame
  have fr2 := @State.noteCtrl_frame
  have fr3 := @State.notePwm_frame
  have fr4 := @State.refuseWrite_frame
  have fr5 := @State.rowWrite_frame
  have fr6 := @State.badWrite_frame
  have fr7 := @State.ezlCtrl_frame
  have fr8 := @cmdRemove_frame
  have fr9 := @cmdRestore_frame
  have fr10 := @cmdRetrain_frame
  unfold State.writeEzl at h; try dsimp only at h
  (repeat' split at h) <;> first | (simp [fr1, fr2, fr3, fr4, fr5, fr6, fr7, fr8, fr9, fr10] at h; done) | (injection h with h; subst h; (repeat' split) <;> simp [fr1, fr2, fr3, fr4, fr5, fr6, fr7, fr8, fr9, fr10])

theorem State.writeArr_pending {s t : State} {rq : Requester} {k off : Nat} {v : Word} (h : s.writeArr rq k off v = some t) : t.pending = s.pending := by
  have fr1 := @State.log_frame
  have fr2 := @State.noteCtrl_frame
  have fr3 := @State.notePwm_frame
  have fr4 := @State.refuseWrite_frame
  have fr5 := @State.rowWrite_frame
  have fr6 := @State.refuseProg_frame
  have fr7 := @clipgClr_frame
  have fr8 := @loadCmd_frame
  have fr9 := @publishCmd_frame
  have fr10 := @rangeDataWrite_frame
  have fr11 := @readbackCmd_frame
  have fr12 := @refreshCmd_frame
  unfold State.writeArr at h; try dsimp only at h
  (repeat' split at h) <;> first | (simp [fr1, fr2, fr3, fr4, fr5, fr6, fr7, fr8, fr9, fr10, fr11, fr12] at h; done) | (injection h with h; subst h; (repeat' split) <;> simp [fr1, fr2, fr3, fr4, fr5, fr6, fr7, fr8, fr9, fr10, fr11, fr12])

theorem State.writeDuty_pending {s t : State} {rq : Requester} {off : Nat} {v : Word} (h : s.writeDuty rq off v = some t) : t.pending = s.pending := by
  have fr1 := @State.log_frame
  have fr2 := @State.noteCtrl_frame
  have fr3 := @State.notePwm_frame
  have fr4 := @State.refuseWrite_frame
  have fr5 := @State.rowWrite_frame
  have fr6 := @State.badWrite_frame
  have fr7 := @State.loUsed_frame
  have fr8 := @dutySplitWrite_frame
  have fr9 := @stepDecideNone_frame
  have fr10 := @stepDecideRepeat_frame
  have fr11 := @stepDecideSkip_frame
  have fr12 := @stepDecideStop_frame
  unfold State.writeDuty at h; try dsimp only at h
  (repeat' split at h) <;> first | (simp [fr1, fr2, fr3, fr4, fr5, fr6, fr7, fr8, fr9, fr10, fr11, fr12] at h; done) | (injection h with h; subst h; (repeat' split) <;> simp [fr1, fr2, fr3, fr4, fr5, fr6, fr7, fr8, fr9, fr10, fr11, fr12])

theorem State.writeSpecial_pending {s t : State} {rq : Requester} {b : Blk} {off : Nat} {v : Word} (h : s.writeSpecial rq b off v = some t) : t.pending = s.pending := by
  have fr1 := @State.log_frame
  have fr2 := @State.noteCtrl_frame
  have fr3 := @State.notePwm_frame
  have fr4 := @State.refuseWrite_frame
  have fr5 := @State.rowWrite_frame
  unfold State.writeSpecial at h
  split at h
  · exact State.writeHif_pending h
  · exact State.writeIrq_pending h
  · exact State.writePwr_pending h
  · exact State.writeSnp_pending h
  · exact State.writeChk_pending h
  · exact State.writeImg_pending h
  · exact State.writeTsk_pending h
  · exact State.writeUpd_pending h
  · exact State.writeRed_pending h
  · exact State.writeMem_pending h
  · exact State.writeEzl_pending h
  · exact State.writeArr_pending h
  · exact State.writeDuty_pending h
  · simp at h

@[simp] theorem State.writeBar0_pending (s : State) (rq : Requester) (a : Nat) (v : Word) : (s.writeBar0 rq a v).pending = s.pending := by
  have fr1 := @State.log_frame
  have fr2 := @State.noteCtrl_frame
  have fr3 := @State.notePwm_frame
  have fr4 := @State.refuseWrite_frame
  have fr5 := @State.rowWrite_frame
  unfold State.writeBar0; dsimp only
  split
  · simp [fr1, fr2, fr3, fr4, fr5]
  · split
    · simp [fr1, fr2, fr3, fr4, fr5]
    · split
      · simp [fr1, fr2, fr3, fr4, fr5]
      · split
        · next h => exact State.writeSpecial_pending h
        · simp [fr1, fr2, fr3, fr4, fr5]


theorem State.readEffect_frame (s : State) (rq : Requester) (b : Blk) (off : Nat) :
    (State.readEffect s rq b off).pairLo = s.pairLo ∧ (State.readEffect s rq b off).pairCap = s.pairCap ∧ (State.readEffect s rq b off).free = s.free ∧ (State.readEffect s rq b off).policy = s.policy ∧ (State.readEffect s rq b off).chk = s.chk ∧ (State.readEffect s rq b off).snp = s.snp ∧ (State.readEffect s rq b off).ezl = s.ezl ∧ (State.readEffect s rq b off).stp = s.stp ∧ (State.readEffect s rq b off).fmt = s.fmt ∧ (State.readEffect s rq b off).vec = s.vec ∧ (State.readEffect s rq b off).red = s.red ∧ (State.readEffect s rq b off).tsk = s.tsk ∧ (State.readEffect s rq b off).mem = s.mem ∧ (State.readEffect s rq b off).hif = s.hif ∧ (State.readEffect s rq b off).img = s.img ∧ (State.readEffect s rq b off).pending = s.pending := by
  have fr1 := @claimRead_frame
  have fr2 := @clipgDataRead_frame
  have fr3 := @govStatusRead_frame
  have fr4 := @hkaDataRead_frame
  have fr5 := @schedDataAccess_frame
  unfold State.readEffect; (repeat' split) <;> simp [fr1, fr2, fr3, fr4, fr5]


theorem State.readBar0_frame (s : State) (rq : Requester) (a : Nat) :
    (State.readBar0 s rq a).2.pairLo = s.pairLo ∧ (State.readBar0 s rq a).2.free = s.free ∧ (State.readBar0 s rq a).2.policy = s.policy ∧ (State.readBar0 s rq a).2.chk = s.chk ∧ (State.readBar0 s rq a).2.snp = s.snp ∧ (State.readBar0 s rq a).2.ezl = s.ezl ∧ (State.readBar0 s rq a).2.stp = s.stp ∧ (State.readBar0 s rq a).2.fmt = s.fmt ∧ (State.readBar0 s rq a).2.vec = s.vec ∧ (State.readBar0 s rq a).2.red = s.red ∧ (State.readBar0 s rq a).2.tsk = s.tsk ∧ (State.readBar0 s rq a).2.mem = s.mem ∧ (State.readBar0 s rq a).2.hif = s.hif ∧ (State.readBar0 s rq a).2.img = s.img ∧ (State.readBar0 s rq a).2.pending = s.pending := by
  have fr1 := @State.capUsed_frame
  have fr2 := @State.capture_frame
  have fr3 := @State.readEffect_frame
  have fr4 := @capture_frame
  unfold State.readBar0; dsimp only; (repeat' split) <;> simp [fr1, fr2, fr3, fr4]


theorem pairLoRead_frame (rq : Requester) (off : Nat) (s : State) :
    (pairLoRead rq off s).pairLo = s.pairLo ∧ (pairLoRead rq off s).free = s.free ∧ (pairLoRead rq off s).policy = s.policy ∧ (pairLoRead rq off s).chk = s.chk ∧ (pairLoRead rq off s).snp = s.snp ∧ (pairLoRead rq off s).ezl = s.ezl ∧ (pairLoRead rq off s).stp = s.stp ∧ (pairLoRead rq off s).fmt = s.fmt ∧ (pairLoRead rq off s).vec = s.vec ∧ (pairLoRead rq off s).red = s.red ∧ (pairLoRead rq off s).tsk = s.tsk ∧ (pairLoRead rq off s).mem = s.mem ∧ (pairLoRead rq off s).hif = s.hif ∧ (pairLoRead rq off s).img = s.img ∧ (pairLoRead rq off s).pending = s.pending := by
  have fr1 := @State.emit_frame
  have fr2 := @State.readBar0_frame
  simp [pairLoRead, fr1, fr2]


theorem unassignedAccess_frame (rq : Requester) (off : Nat) (wr : Option Word) (s : State) :
    (unassignedAccess rq off wr s).pairLo = s.pairLo ∧ (unassignedAccess rq off wr s).pairCap = s.pairCap ∧ (unassignedAccess rq off wr s).free = s.free ∧ (unassignedAccess rq off wr s).policy = s.policy ∧ (unassignedAccess rq off wr s).chk = s.chk ∧ (unassignedAccess rq off wr s).snp = s.snp ∧ (unassignedAccess rq off wr s).irq = s.irq ∧ (unassignedAccess rq off wr s).ezl = s.ezl ∧ (unassignedAccess rq off wr s).stp = s.stp ∧ (unassignedAccess rq off wr s).fmt = s.fmt ∧ (unassignedAccess rq off wr s).arr = s.arr ∧ (unassignedAccess rq off wr s).vec = s.vec ∧ (unassignedAccess rq off wr s).mxe = s.mxe ∧ (unassignedAccess rq off wr s).upd = s.upd ∧ (unassignedAccess rq off wr s).red = s.red ∧ (unassignedAccess rq off wr s).tsk = s.tsk ∧ (unassignedAccess rq off wr s).mem = s.mem ∧ (unassignedAccess rq off wr s).hif = s.hif ∧ (unassignedAccess rq off wr s).img = s.img ∧ (unassignedAccess rq off wr s).pwr = s.pwr ∧ (unassignedAccess rq off wr s).pending = s.pending := by
  have fr1 := @State.emit_frame
  have fr2 := @State.refuseWrite_frame
  unfold unassignedAccess; (repeat' split) <;> simp [fr1, fr2]


theorem State.recRun_frame (s : State) (r : InitRec) :
    (State.recRun s r).regs = s.regs ∧ (State.recRun s r).pairLo = s.pairLo ∧ (State.recRun s r).pairCap = s.pairCap ∧ (State.recRun s r).out = s.out ∧ (State.recRun s r).free = s.free ∧ (State.recRun s r).err = s.err ∧ (State.recRun s r).chk = s.chk ∧ (State.recRun s r).snp = s.snp ∧ (State.recRun s r).irq = s.irq ∧ (State.recRun s r).ezl = s.ezl ∧ (State.recRun s r).stp = s.stp ∧ (State.recRun s r).fmt = s.fmt ∧ (State.recRun s r).arr = s.arr ∧ (State.recRun s r).vec = s.vec ∧ (State.recRun s r).mxe = s.mxe ∧ (State.recRun s r).upd = s.upd ∧ (State.recRun s r).red = s.red ∧ (State.recRun s r).tsk = s.tsk ∧ (State.recRun s r).mem = s.mem ∧ (State.recRun s r).hif = s.hif ∧ (State.recRun s r).pwr = s.pwr ∧ (State.recRun s r).pending = s.pending := by
  have fr1 := @State.modImg_frame
  have fr2 := @State.stageDone_frame
  simp [State.recRun, fr1, fr2]


theorem recordWrite_frame (s : State) :
    (recordWrite s).pairCap = s.pairCap ∧ (recordWrite s).vec = s.vec ∧ (recordWrite s).pending = s.pending := by
  have fr1 := @State.recRun_frame
  unfold recordWrite; (repeat' split) <;> simp [fr1]


theorem recordModify_frame (s : State) :
    (recordModify s).vec = s.vec ∧ (recordModify s).pending = s.pending := by
  have fr1 := @State.readBar0_frame
  have fr2 := @State.recRun_frame
  unfold recordModify; (repeat' split) <;> simp [fr1, fr2]


theorem recordPoll_frame (s : State) :
    (recordPoll s).pairLo = s.pairLo ∧ (recordPoll s).free = s.free ∧ (recordPoll s).chk = s.chk ∧ (recordPoll s).snp = s.snp ∧ (recordPoll s).ezl = s.ezl ∧ (recordPoll s).stp = s.stp ∧ (recordPoll s).fmt = s.fmt ∧ (recordPoll s).vec = s.vec ∧ (recordPoll s).red = s.red ∧ (recordPoll s).tsk = s.tsk ∧ (recordPoll s).mem = s.mem ∧ (recordPoll s).hif = s.hif ∧ (recordPoll s).pending = s.pending := by
  have fr1 := @State.readBar0_frame
  have fr2 := @State.recRun_frame
  unfold recordPoll; (repeat' split) <;> simp [fr1, fr2]


theorem State.relayError_frame (s : State) (detail : Nat) :
    (State.relayError s detail).pairLo = s.pairLo ∧ (State.relayError s detail).pairCap = s.pairCap ∧ (State.relayError s detail).out = s.out ∧ (State.relayError s detail).free = s.free ∧ (State.relayError s detail).policy = s.policy ∧ (State.relayError s detail).chk = s.chk ∧ (State.relayError s detail).snp = s.snp ∧ (State.relayError s detail).irq = s.irq ∧ (State.relayError s detail).ezl = s.ezl ∧ (State.relayError s detail).stp = s.stp ∧ (State.relayError s detail).fmt = s.fmt ∧ (State.relayError s detail).arr = s.arr ∧ (State.relayError s detail).vec = s.vec ∧ (State.relayError s detail).mxe = s.mxe ∧ (State.relayError s detail).upd = s.upd ∧ (State.relayError s detail).red = s.red ∧ (State.relayError s detail).tsk = s.tsk ∧ (State.relayError s detail).mem = s.mem ∧ (State.relayError s detail).hif = s.hif ∧ (State.relayError s detail).img = s.img ∧ (State.relayError s detail).pwr = s.pwr ∧ (State.relayError s detail).pending = s.pending := by
  have fr1 := @State.event_frame
  have fr2 := @State.hifFault_frame
  simp [State.relayError, fr1, fr2]


theorem State.sendRelay_frame (s : State) (m : Nat) (h : RelayHdr) (bytes : List Byte) :
    (State.sendRelay s m h bytes).pairLo = s.pairLo ∧ (State.sendRelay s m h bytes).pairCap = s.pairCap ∧ (State.sendRelay s m h bytes).free = s.free ∧ (State.sendRelay s m h bytes).policy = s.policy ∧ (State.sendRelay s m h bytes).err = s.err ∧ (State.sendRelay s m h bytes).chk = s.chk ∧ (State.sendRelay s m h bytes).snp = s.snp ∧ (State.sendRelay s m h bytes).irq = s.irq ∧ (State.sendRelay s m h bytes).stp = s.stp ∧ (State.sendRelay s m h bytes).fmt = s.fmt ∧ (State.sendRelay s m h bytes).arr = s.arr ∧ (State.sendRelay s m h bytes).vec = s.vec ∧ (State.sendRelay s m h bytes).mxe = s.mxe ∧ (State.sendRelay s m h bytes).upd = s.upd ∧ (State.sendRelay s m h bytes).red = s.red ∧ (State.sendRelay s m h bytes).tsk = s.tsk ∧ (State.sendRelay s m h bytes).mem = s.mem ∧ (State.sendRelay s m h bytes).hif = s.hif ∧ (State.sendRelay s m h bytes).img = s.img ∧ (State.sendRelay s m h bytes).pwr = s.pwr ∧ (State.sendRelay s m h bytes).pending = s.pending := by
  have fr1 := @State.sendRouted_frame
  simp [State.sendRelay, fr1]


theorem State.relayNext_frame (s : State) :
    (State.relayNext s).pairLo = s.pairLo ∧ (State.relayNext s).pairCap = s.pairCap ∧ (State.relayNext s).free = s.free ∧ (State.relayNext s).policy = s.policy ∧ (State.relayNext s).err = s.err ∧ (State.relayNext s).chk = s.chk ∧ (State.relayNext s).snp = s.snp ∧ (State.relayNext s).irq = s.irq ∧ (State.relayNext s).stp = s.stp ∧ (State.relayNext s).fmt = s.fmt ∧ (State.relayNext s).arr = s.arr ∧ (State.relayNext s).vec = s.vec ∧ (State.relayNext s).mxe = s.mxe ∧ (State.relayNext s).upd = s.upd ∧ (State.relayNext s).red = s.red ∧ (State.relayNext s).tsk = s.tsk ∧ (State.relayNext s).mem = s.mem ∧ (State.relayNext s).hif = s.hif ∧ (State.relayNext s).img = s.img ∧ (State.relayNext s).pwr = s.pwr ∧ (State.relayNext s).pending = s.pending := by
  have fr1 := @State.modEzl_frame
  have fr2 := @State.sendRelay_frame
  unfold State.relayNext; (repeat' split) <;> simp [fr1, fr2]


theorem relayWindowAccess_frame (m win off : Nat) (wr : Option (List Byte)) (len : Nat) (s : State) :
    (relayWindowAccess m win off wr len s).pairLo = s.pairLo ∧ (relayWindowAccess m win off wr len s).pairCap = s.pairCap ∧ (relayWindowAccess m win off wr len s).free = s.free ∧ (relayWindowAccess m win off wr len s).policy = s.policy ∧ (relayWindowAccess m win off wr len s).chk = s.chk ∧ (relayWindowAccess m win off wr len s).snp = s.snp ∧ (relayWindowAccess m win off wr len s).irq = s.irq ∧ (relayWindowAccess m win off wr len s).stp = s.stp ∧ (relayWindowAccess m win off wr len s).fmt = s.fmt ∧ (relayWindowAccess m win off wr len s).arr = s.arr ∧ (relayWindowAccess m win off wr len s).vec = s.vec ∧ (relayWindowAccess m win off wr len s).mxe = s.mxe ∧ (relayWindowAccess m win off wr len s).upd = s.upd ∧ (relayWindowAccess m win off wr len s).red = s.red ∧ (relayWindowAccess m win off wr len s).tsk = s.tsk ∧ (relayWindowAccess m win off wr len s).mem = s.mem ∧ (relayWindowAccess m win off wr len s).hif = s.hif ∧ (relayWindowAccess m win off wr len s).img = s.img ∧ (relayWindowAccess m win off wr len s).pwr = s.pwr ∧ (relayWindowAccess m win off wr len s).pending = s.pending := by
  have fr1 := @State.emit_frame
  have fr2 := @State.incReg_frame
  have fr3 := @State.modEzl_frame
  have fr4 := @State.relayError_frame
  have fr5 := @State.relayNext_frame
  have fr6 := @State.sendRelay_frame
  have fr7 := @State.unassignedRead_frame
  have fr8 := @State.unassignedWrite_frame
  unfold relayWindowAccess; (repeat' split) <;> simp [fr1, fr2, fr3, fr4, fr5, fr6, fr7, fr8]


theorem State.relayOver_frame (s : State) (r : RelayRead) :
    (State.relayOver s r).pairLo = s.pairLo ∧ (State.relayOver s r).pairCap = s.pairCap ∧ (State.relayOver s r).free = s.free ∧ (State.relayOver s r).policy = s.policy ∧ (State.relayOver s r).err = s.err ∧ (State.relayOver s r).chk = s.chk ∧ (State.relayOver s r).snp = s.snp ∧ (State.relayOver s r).irq = s.irq ∧ (State.relayOver s r).stp = s.stp ∧ (State.relayOver s r).fmt = s.fmt ∧ (State.relayOver s r).arr = s.arr ∧ (State.relayOver s r).vec = s.vec ∧ (State.relayOver s r).mxe = s.mxe ∧ (State.relayOver s r).upd = s.upd ∧ (State.relayOver s r).red = s.red ∧ (State.relayOver s r).tsk = s.tsk ∧ (State.relayOver s r).mem = s.mem ∧ (State.relayOver s r).hif = s.hif ∧ (State.relayOver s r).img = s.img ∧ (State.relayOver s r).pwr = s.pwr ∧ (State.relayOver s r).pending = s.pending := by
  have fr1 := @State.modEzl_frame
  have fr2 := @State.relayNext_frame
  simp [State.relayOver, fr1, fr2]


theorem relayCompletion_frame (src : Nat) (h : RelayHdr) (bytes : List Byte) (s : State) :
    (relayCompletion src h bytes s).pairLo = s.pairLo ∧ (relayCompletion src h bytes s).pairCap = s.pairCap ∧ (relayCompletion src h bytes s).free = s.free ∧ (relayCompletion src h bytes s).policy = s.policy ∧ (relayCompletion src h bytes s).chk = s.chk ∧ (relayCompletion src h bytes s).snp = s.snp ∧ (relayCompletion src h bytes s).irq = s.irq ∧ (relayCompletion src h bytes s).stp = s.stp ∧ (relayCompletion src h bytes s).fmt = s.fmt ∧ (relayCompletion src h bytes s).arr = s.arr ∧ (relayCompletion src h bytes s).vec = s.vec ∧ (relayCompletion src h bytes s).mxe = s.mxe ∧ (relayCompletion src h bytes s).upd = s.upd ∧ (relayCompletion src h bytes s).red = s.red ∧ (relayCompletion src h bytes s).tsk = s.tsk ∧ (relayCompletion src h bytes s).mem = s.mem ∧ (relayCompletion src h bytes s).hif = s.hif ∧ (relayCompletion src h bytes s).img = s.img ∧ (relayCompletion src h bytes s).pwr = s.pwr ∧ (relayCompletion src h bytes s).pending = s.pending := by
  have fr1 := @State.emit_frame
  have fr2 := @State.incReg_frame
  have fr3 := @State.log_frame
  have fr4 := @State.modEzl_frame
  have fr5 := @State.relayError_frame
  have fr6 := @State.relayOver_frame
  have fr7 := @State.takeRx_frame
  unfold relayCompletion; dsimp only; (repeat' split) <;> simp [fr1, fr2, fr3, fr4, fr5, fr6, fr7]


theorem relayTimeout_frame (tag : Nat) (s : State) :
    (relayTimeout tag s).pairLo = s.pairLo ∧ (relayTimeout tag s).pairCap = s.pairCap ∧ (relayTimeout tag s).free = s.free ∧ (relayTimeout tag s).policy = s.policy ∧ (relayTimeout tag s).chk = s.chk ∧ (relayTimeout tag s).snp = s.snp ∧ (relayTimeout tag s).irq = s.irq ∧ (relayTimeout tag s).stp = s.stp ∧ (relayTimeout tag s).fmt = s.fmt ∧ (relayTimeout tag s).arr = s.arr ∧ (relayTimeout tag s).vec = s.vec ∧ (relayTimeout tag s).mxe = s.mxe ∧ (relayTimeout tag s).upd = s.upd ∧ (relayTimeout tag s).red = s.red ∧ (relayTimeout tag s).tsk = s.tsk ∧ (relayTimeout tag s).mem = s.mem ∧ (relayTimeout tag s).hif = s.hif ∧ (relayTimeout tag s).img = s.img ∧ (relayTimeout tag s).pwr = s.pwr ∧ (relayTimeout tag s).pending = s.pending := by
  have fr1 := @State.emit_frame
  have fr2 := @State.event_frame
  have fr3 := @State.modEzl_frame
  have fr4 := @State.relayError_frame
  have fr5 := @State.relayOver_frame
  unfold relayTimeout; (repeat' split) <;> simp [fr1, fr2, fr3, fr4, fr5]


theorem State.memberWrite_frame (s : State) (addr : Nat) (bytes : List Byte) :
    (State.memberWrite s addr bytes).pairLo = s.pairLo ∧ (State.memberWrite s addr bytes).pairCap = s.pairCap ∧ (State.memberWrite s addr bytes).free = s.free ∧ (State.memberWrite s addr bytes).policy = s.policy ∧ (State.memberWrite s addr bytes).err = s.err ∧ (State.memberWrite s addr bytes).chk = s.chk ∧ (State.memberWrite s addr bytes).snp = s.snp ∧ (State.memberWrite s addr bytes).irq = s.irq ∧ (State.memberWrite s addr bytes).stp = s.stp ∧ (State.memberWrite s addr bytes).fmt = s.fmt ∧ (State.memberWrite s addr bytes).arr = s.arr ∧ (State.memberWrite s addr bytes).vec = s.vec ∧ (State.memberWrite s addr bytes).mxe = s.mxe ∧ (State.memberWrite s addr bytes).upd = s.upd ∧ (State.memberWrite s addr bytes).red = s.red ∧ (State.memberWrite s addr bytes).tsk = s.tsk ∧ (State.memberWrite s addr bytes).mem = s.mem ∧ (State.memberWrite s addr bytes).hif = s.hif ∧ (State.memberWrite s addr bytes).img = s.img ∧ (State.memberWrite s addr bytes).pwr = s.pwr ∧ (State.memberWrite s addr bytes).pending = s.pending := by
  have fr1 := @State.emit_frame
  have fr2 := @State.hostWrite_frame
  have fr3 := @State.incReg_frame
  simp [State.memberWrite, fr1, fr2, fr3]


theorem relayHostWrite_frame (src : Nat) (h : RelayHdr) (bytes : List Byte) (s : State) :
    (relayHostWrite src h bytes s).pairLo = s.pairLo ∧ (relayHostWrite src h bytes s).pairCap = s.pairCap ∧ (relayHostWrite src h bytes s).free = s.free ∧ (relayHostWrite src h bytes s).policy = s.policy ∧ (relayHostWrite src h bytes s).err = s.err ∧ (relayHostWrite src h bytes s).chk = s.chk ∧ (relayHostWrite src h bytes s).snp = s.snp ∧ (relayHostWrite src h bytes s).irq = s.irq ∧ (relayHostWrite src h bytes s).stp = s.stp ∧ (relayHostWrite src h bytes s).fmt = s.fmt ∧ (relayHostWrite src h bytes s).arr = s.arr ∧ (relayHostWrite src h bytes s).vec = s.vec ∧ (relayHostWrite src h bytes s).mxe = s.mxe ∧ (relayHostWrite src h bytes s).upd = s.upd ∧ (relayHostWrite src h bytes s).red = s.red ∧ (relayHostWrite src h bytes s).tsk = s.tsk ∧ (relayHostWrite src h bytes s).mem = s.mem ∧ (relayHostWrite src h bytes s).hif = s.hif ∧ (relayHostWrite src h bytes s).img = s.img ∧ (relayHostWrite src h bytes s).pwr = s.pwr ∧ (relayHostWrite src h bytes s).pending = s.pending := by
  have fr1 := @State.memberWrite_frame
  have fr2 := @State.takeRx_frame
  simp [relayHostWrite, fr1, fr2]


theorem dataFrame_frame (src addr : Nat) (bytes : List Byte) (s : State) :
    (dataFrame src addr bytes s).pairLo = s.pairLo ∧ (dataFrame src addr bytes s).pairCap = s.pairCap ∧ (dataFrame src addr bytes s).free = s.free ∧ (dataFrame src addr bytes s).policy = s.policy ∧ (dataFrame src addr bytes s).chk = s.chk ∧ (dataFrame src addr bytes s).snp = s.snp ∧ (dataFrame src addr bytes s).irq = s.irq ∧ (dataFrame src addr bytes s).stp = s.stp ∧ (dataFrame src addr bytes s).fmt = s.fmt ∧ (dataFrame src addr bytes s).arr = s.arr ∧ (dataFrame src addr bytes s).vec = s.vec ∧ (dataFrame src addr bytes s).mxe = s.mxe ∧ (dataFrame src addr bytes s).upd = s.upd ∧ (dataFrame src addr bytes s).red = s.red ∧ (dataFrame src addr bytes s).tsk = s.tsk ∧ (dataFrame src addr bytes s).hif = s.hif ∧ (dataFrame src addr bytes s).img = s.img ∧ (dataFrame src addr bytes s).pwr = s.pwr ∧ (dataFrame src addr bytes s).pending = s.pending := by
  have fr1 := @State.hostPut_frame
  have fr2 := @State.memberWrite_frame
  have fr3 := @State.takeRx_frame
  have fr4 := @State.hbmWrite_frame
  simp [dataFrame, fr1, fr2, fr3, fr4]


theorem State.doorbellPage_frame (s : State) (o : Nat) (b : List Byte) :
    (State.doorbellPage s o b).pairLo = s.pairLo ∧ (State.doorbellPage s o b).pairCap = s.pairCap ∧ (State.doorbellPage s o b).free = s.free ∧ (State.doorbellPage s o b).policy = s.policy ∧ (State.doorbellPage s o b).chk = s.chk ∧ (State.doorbellPage s o b).snp = s.snp ∧ (State.doorbellPage s o b).stp = s.stp ∧ (State.doorbellPage s o b).fmt = s.fmt ∧ (State.doorbellPage s o b).arr = s.arr ∧ (State.doorbellPage s o b).vec = s.vec ∧ (State.doorbellPage s o b).mxe = s.mxe ∧ (State.doorbellPage s o b).upd = s.upd ∧ (State.doorbellPage s o b).red = s.red ∧ (State.doorbellPage s o b).mem = s.mem ∧ (State.doorbellPage s o b).img = s.img ∧ (State.doorbellPage s o b).pwr = s.pwr ∧ (State.doorbellPage s o b).pending = s.pending := by
  have fr1 := @State.unassignedWrite_frame
  have fr2 := @cqHeadDoorbell_frame
  have fr3 := @sqTailDoorbell_frame
  simp [State.doorbellPage, fr1, fr2, fr3]


@[simp] theorem State.readWords_pairLo (s : State) (a n : Nat) : (s.readWords a n).2.pairLo = s.pairLo := by
  have fr1 := @State.readBar0_frame
  unfold State.readWords
  exact State.foldl_proj_pairLo (fun (x : List Byte × State) => x.2) _ (by intro a x; simp [fr1]) _ _

@[simp] theorem State.readWords_free (s : State) (a n : Nat) : (s.readWords a n).2.free = s.free := by
  have fr1 := @State.readBar0_frame
  unfold State.readWords
  exact State.foldl_proj_free (fun (x : List Byte × State) => x.2) _ (by intro a x; simp [fr1]) _ _

@[simp] theorem State.readWords_policy (s : State) (a n : Nat) : (s.readWords a n).2.policy = s.policy := by
  have fr1 := @State.readBar0_frame
  unfold State.readWords
  exact State.foldl_proj_policy (fun (x : List Byte × State) => x.2) _ (by intro a x; simp [fr1]) _ _

@[simp] theorem State.readWords_chk (s : State) (a n : Nat) : (s.readWords a n).2.chk = s.chk := by
  have fr1 := @State.readBar0_frame
  unfold State.readWords
  exact State.foldl_proj_chk (fun (x : List Byte × State) => x.2) _ (by intro a x; simp [fr1]) _ _

@[simp] theorem State.readWords_snp (s : State) (a n : Nat) : (s.readWords a n).2.snp = s.snp := by
  have fr1 := @State.readBar0_frame
  unfold State.readWords
  exact State.foldl_proj_snp (fun (x : List Byte × State) => x.2) _ (by intro a x; simp [fr1]) _ _

@[simp] theorem State.readWords_ezl (s : State) (a n : Nat) : (s.readWords a n).2.ezl = s.ezl := by
  have fr1 := @State.readBar0_frame
  unfold State.readWords
  exact State.foldl_proj_ezl (fun (x : List Byte × State) => x.2) _ (by intro a x; simp [fr1]) _ _

@[simp] theorem State.readWords_stp (s : State) (a n : Nat) : (s.readWords a n).2.stp = s.stp := by
  have fr1 := @State.readBar0_frame
  unfold State.readWords
  exact State.foldl_proj_stp (fun (x : List Byte × State) => x.2) _ (by intro a x; simp [fr1]) _ _

@[simp] theorem State.readWords_fmt (s : State) (a n : Nat) : (s.readWords a n).2.fmt = s.fmt := by
  have fr1 := @State.readBar0_frame
  unfold State.readWords
  exact State.foldl_proj_fmt (fun (x : List Byte × State) => x.2) _ (by intro a x; simp [fr1]) _ _

@[simp] theorem State.readWords_vec (s : State) (a n : Nat) : (s.readWords a n).2.vec = s.vec := by
  have fr1 := @State.readBar0_frame
  unfold State.readWords
  exact State.foldl_proj_vec (fun (x : List Byte × State) => x.2) _ (by intro a x; simp [fr1]) _ _

@[simp] theorem State.readWords_red (s : State) (a n : Nat) : (s.readWords a n).2.red = s.red := by
  have fr1 := @State.readBar0_frame
  unfold State.readWords
  exact State.foldl_proj_red (fun (x : List Byte × State) => x.2) _ (by intro a x; simp [fr1]) _ _

@[simp] theorem State.readWords_tsk (s : State) (a n : Nat) : (s.readWords a n).2.tsk = s.tsk := by
  have fr1 := @State.readBar0_frame
  unfold State.readWords
  exact State.foldl_proj_tsk (fun (x : List Byte × State) => x.2) _ (by intro a x; simp [fr1]) _ _

@[simp] theorem State.readWords_mem (s : State) (a n : Nat) : (s.readWords a n).2.mem = s.mem := by
  have fr1 := @State.readBar0_frame
  unfold State.readWords
  exact State.foldl_proj_mem (fun (x : List Byte × State) => x.2) _ (by intro a x; simp [fr1]) _ _

@[simp] theorem State.readWords_hif (s : State) (a n : Nat) : (s.readWords a n).2.hif = s.hif := by
  have fr1 := @State.readBar0_frame
  unfold State.readWords
  exact State.foldl_proj_hif (fun (x : List Byte × State) => x.2) _ (by intro a x; simp [fr1]) _ _

@[simp] theorem State.readWords_img (s : State) (a n : Nat) : (s.readWords a n).2.img = s.img := by
  have fr1 := @State.readBar0_frame
  unfold State.readWords
  exact State.foldl_proj_img (fun (x : List Byte × State) => x.2) _ (by intro a x; simp [fr1]) _ _

@[simp] theorem State.readWords_pending (s : State) (a n : Nat) : (s.readWords a n).2.pending = s.pending := by
  have fr1 := @State.readBar0_frame
  unfold State.readWords
  exact State.foldl_proj_pending (fun (x : List Byte × State) => x.2) _ (by intro a x; simp [fr1]) _ _


theorem State.writeWords_frame (s : State) (a : Nat) (b : List Byte) :
    (State.writeWords s a b).pairCap = s.pairCap ∧ (State.writeWords s a b).vec = s.vec ∧ (State.writeWords s a b).pending = s.pending := by
  simp [State.writeWords]


theorem bar0BadAccess_frame (k : BadAccess) (off len : Nat) (wr : Option (List Byte)) (s : State) :
    (bar0BadAccess k off len wr s).vec = s.vec ∧ (bar0BadAccess k off len wr s).pending = s.pending := by
  have fr1 := @State.badAnswer_frame
  have fr2 := @State.doorbellPage_frame
  have fr3 := @State.emit_frame
  have fr4 := @State.unassignedRead_frame
  have fr5 := @State.writeWords_frame
  unfold bar0BadAccess; (repeat' split) <;> simp [fr1, fr2, fr3, fr4, fr5]


@[simp] theorem State.bar4Read_pairLo (s : State) (o len a : Nat) (beyond blank : Bool) : (State.bar4Read s o len a beyond blank).2.pairLo = s.pairLo := by
  have fr1 := @State.hostTake_frame
  have fr2 := @State.incReg_frame
  have fr3 := @State.noteBad_frame
  have fr4 := @State.relayError_frame
  have e : ∀ r, (gotBytes r).2 = r.2 := fun _ => rfl
  unfold State.bar4Read
  (repeat' split) <;> simp [e, fr1, fr2, fr3, fr4]

@[simp] theorem State.bar4Read_pairCap (s : State) (o len a : Nat) (beyond blank : Bool) : (State.bar4Read s o len a beyond blank).2.pairCap = s.pairCap := by
  have fr1 := @State.hostTake_frame
  have fr2 := @State.incReg_frame
  have fr3 := @State.noteBad_frame
  have fr4 := @State.relayError_frame
  have e : ∀ r, (gotBytes r).2 = r.2 := fun _ => rfl
  unfold State.bar4Read
  (repeat' split) <;> simp [e, fr1, fr2, fr3, fr4]

@[simp] theorem State.bar4Read_out (s : State) (o len a : Nat) (beyond blank : Bool) : (State.bar4Read s o len a beyond blank).2.out = s.out := by
  have fr1 := @State.hostTake_frame
  have fr2 := @State.incReg_frame
  have fr3 := @State.noteBad_frame
  have fr4 := @State.relayError_frame
  have e : ∀ r, (gotBytes r).2 = r.2 := fun _ => rfl
  unfold State.bar4Read
  (repeat' split) <;> simp [e, fr1, fr2, fr3, fr4]

@[simp] theorem State.bar4Read_free (s : State) (o len a : Nat) (beyond blank : Bool) : (State.bar4Read s o len a beyond blank).2.free = s.free := by
  have fr1 := @State.hostTake_frame
  have fr2 := @State.incReg_frame
  have fr3 := @State.noteBad_frame
  have fr4 := @State.relayError_frame
  have e : ∀ r, (gotBytes r).2 = r.2 := fun _ => rfl
  unfold State.bar4Read
  (repeat' split) <;> simp [e, fr1, fr2, fr3, fr4]

@[simp] theorem State.bar4Read_policy (s : State) (o len a : Nat) (beyond blank : Bool) : (State.bar4Read s o len a beyond blank).2.policy = s.policy := by
  have fr1 := @State.hostTake_frame
  have fr2 := @State.incReg_frame
  have fr3 := @State.noteBad_frame
  have fr4 := @State.relayError_frame
  have e : ∀ r, (gotBytes r).2 = r.2 := fun _ => rfl
  unfold State.bar4Read
  (repeat' split) <;> simp [e, fr1, fr2, fr3, fr4]

@[simp] theorem State.bar4Read_chk (s : State) (o len a : Nat) (beyond blank : Bool) : (State.bar4Read s o len a beyond blank).2.chk = s.chk := by
  have fr1 := @State.hostTake_frame
  have fr2 := @State.incReg_frame
  have fr3 := @State.noteBad_frame
  have fr4 := @State.relayError_frame
  have e : ∀ r, (gotBytes r).2 = r.2 := fun _ => rfl
  unfold State.bar4Read
  (repeat' split) <;> simp [e, fr1, fr2, fr3, fr4]

@[simp] theorem State.bar4Read_snp (s : State) (o len a : Nat) (beyond blank : Bool) : (State.bar4Read s o len a beyond blank).2.snp = s.snp := by
  have fr1 := @State.hostTake_frame
  have fr2 := @State.incReg_frame
  have fr3 := @State.noteBad_frame
  have fr4 := @State.relayError_frame
  have e : ∀ r, (gotBytes r).2 = r.2 := fun _ => rfl
  unfold State.bar4Read
  (repeat' split) <;> simp [e, fr1, fr2, fr3, fr4]

@[simp] theorem State.bar4Read_irq (s : State) (o len a : Nat) (beyond blank : Bool) : (State.bar4Read s o len a beyond blank).2.irq = s.irq := by
  have fr1 := @State.hostTake_frame
  have fr2 := @State.incReg_frame
  have fr3 := @State.noteBad_frame
  have fr4 := @State.relayError_frame
  have e : ∀ r, (gotBytes r).2 = r.2 := fun _ => rfl
  unfold State.bar4Read
  (repeat' split) <;> simp [e, fr1, fr2, fr3, fr4]

@[simp] theorem State.bar4Read_ezl (s : State) (o len a : Nat) (beyond blank : Bool) : (State.bar4Read s o len a beyond blank).2.ezl = s.ezl := by
  have fr1 := @State.hostTake_frame
  have fr2 := @State.incReg_frame
  have fr3 := @State.noteBad_frame
  have fr4 := @State.relayError_frame
  have e : ∀ r, (gotBytes r).2 = r.2 := fun _ => rfl
  unfold State.bar4Read
  (repeat' split) <;> simp [e, fr1, fr2, fr3, fr4]

@[simp] theorem State.bar4Read_stp (s : State) (o len a : Nat) (beyond blank : Bool) : (State.bar4Read s o len a beyond blank).2.stp = s.stp := by
  have fr1 := @State.hostTake_frame
  have fr2 := @State.incReg_frame
  have fr3 := @State.noteBad_frame
  have fr4 := @State.relayError_frame
  have e : ∀ r, (gotBytes r).2 = r.2 := fun _ => rfl
  unfold State.bar4Read
  (repeat' split) <;> simp [e, fr1, fr2, fr3, fr4]

@[simp] theorem State.bar4Read_fmt (s : State) (o len a : Nat) (beyond blank : Bool) : (State.bar4Read s o len a beyond blank).2.fmt = s.fmt := by
  have fr1 := @State.hostTake_frame
  have fr2 := @State.incReg_frame
  have fr3 := @State.noteBad_frame
  have fr4 := @State.relayError_frame
  have e : ∀ r, (gotBytes r).2 = r.2 := fun _ => rfl
  unfold State.bar4Read
  (repeat' split) <;> simp [e, fr1, fr2, fr3, fr4]

@[simp] theorem State.bar4Read_arr (s : State) (o len a : Nat) (beyond blank : Bool) : (State.bar4Read s o len a beyond blank).2.arr = s.arr := by
  have fr1 := @State.hostTake_frame
  have fr2 := @State.incReg_frame
  have fr3 := @State.noteBad_frame
  have fr4 := @State.relayError_frame
  have e : ∀ r, (gotBytes r).2 = r.2 := fun _ => rfl
  unfold State.bar4Read
  (repeat' split) <;> simp [e, fr1, fr2, fr3, fr4]

@[simp] theorem State.bar4Read_vec (s : State) (o len a : Nat) (beyond blank : Bool) : (State.bar4Read s o len a beyond blank).2.vec = s.vec := by
  have fr1 := @State.hostTake_frame
  have fr2 := @State.incReg_frame
  have fr3 := @State.noteBad_frame
  have fr4 := @State.relayError_frame
  have e : ∀ r, (gotBytes r).2 = r.2 := fun _ => rfl
  unfold State.bar4Read
  (repeat' split) <;> simp [e, fr1, fr2, fr3, fr4]

@[simp] theorem State.bar4Read_mxe (s : State) (o len a : Nat) (beyond blank : Bool) : (State.bar4Read s o len a beyond blank).2.mxe = s.mxe := by
  have fr1 := @State.hostTake_frame
  have fr2 := @State.incReg_frame
  have fr3 := @State.noteBad_frame
  have fr4 := @State.relayError_frame
  have e : ∀ r, (gotBytes r).2 = r.2 := fun _ => rfl
  unfold State.bar4Read
  (repeat' split) <;> simp [e, fr1, fr2, fr3, fr4]

@[simp] theorem State.bar4Read_upd (s : State) (o len a : Nat) (beyond blank : Bool) : (State.bar4Read s o len a beyond blank).2.upd = s.upd := by
  have fr1 := @State.hostTake_frame
  have fr2 := @State.incReg_frame
  have fr3 := @State.noteBad_frame
  have fr4 := @State.relayError_frame
  have e : ∀ r, (gotBytes r).2 = r.2 := fun _ => rfl
  unfold State.bar4Read
  (repeat' split) <;> simp [e, fr1, fr2, fr3, fr4]

@[simp] theorem State.bar4Read_red (s : State) (o len a : Nat) (beyond blank : Bool) : (State.bar4Read s o len a beyond blank).2.red = s.red := by
  have fr1 := @State.hostTake_frame
  have fr2 := @State.incReg_frame
  have fr3 := @State.noteBad_frame
  have fr4 := @State.relayError_frame
  have e : ∀ r, (gotBytes r).2 = r.2 := fun _ => rfl
  unfold State.bar4Read
  (repeat' split) <;> simp [e, fr1, fr2, fr3, fr4]

@[simp] theorem State.bar4Read_tsk (s : State) (o len a : Nat) (beyond blank : Bool) : (State.bar4Read s o len a beyond blank).2.tsk = s.tsk := by
  have fr1 := @State.hostTake_frame
  have fr2 := @State.incReg_frame
  have fr3 := @State.noteBad_frame
  have fr4 := @State.relayError_frame
  have e : ∀ r, (gotBytes r).2 = r.2 := fun _ => rfl
  unfold State.bar4Read
  (repeat' split) <;> simp [e, fr1, fr2, fr3, fr4]

@[simp] theorem State.bar4Read_mem (s : State) (o len a : Nat) (beyond blank : Bool) : (State.bar4Read s o len a beyond blank).2.mem = s.mem := by
  have fr1 := @State.hostTake_frame
  have fr2 := @State.incReg_frame
  have fr3 := @State.noteBad_frame
  have fr4 := @State.relayError_frame
  have e : ∀ r, (gotBytes r).2 = r.2 := fun _ => rfl
  unfold State.bar4Read
  (repeat' split) <;> simp [e, fr1, fr2, fr3, fr4]

@[simp] theorem State.bar4Read_hif (s : State) (o len a : Nat) (beyond blank : Bool) : (State.bar4Read s o len a beyond blank).2.hif = s.hif := by
  have fr1 := @State.hostTake_frame
  have fr2 := @State.incReg_frame
  have fr3 := @State.noteBad_frame
  have fr4 := @State.relayError_frame
  have e : ∀ r, (gotBytes r).2 = r.2 := fun _ => rfl
  unfold State.bar4Read
  (repeat' split) <;> simp [e, fr1, fr2, fr3, fr4]

@[simp] theorem State.bar4Read_img (s : State) (o len a : Nat) (beyond blank : Bool) : (State.bar4Read s o len a beyond blank).2.img = s.img := by
  have fr1 := @State.hostTake_frame
  have fr2 := @State.incReg_frame
  have fr3 := @State.noteBad_frame
  have fr4 := @State.relayError_frame
  have e : ∀ r, (gotBytes r).2 = r.2 := fun _ => rfl
  unfold State.bar4Read
  (repeat' split) <;> simp [e, fr1, fr2, fr3, fr4]

@[simp] theorem State.bar4Read_pwr (s : State) (o len a : Nat) (beyond blank : Bool) : (State.bar4Read s o len a beyond blank).2.pwr = s.pwr := by
  have fr1 := @State.hostTake_frame
  have fr2 := @State.incReg_frame
  have fr3 := @State.noteBad_frame
  have fr4 := @State.relayError_frame
  have e : ∀ r, (gotBytes r).2 = r.2 := fun _ => rfl
  unfold State.bar4Read
  (repeat' split) <;> simp [e, fr1, fr2, fr3, fr4]

@[simp] theorem State.bar4Read_pending (s : State) (o len a : Nat) (beyond blank : Bool) : (State.bar4Read s o len a beyond blank).2.pending = s.pending := by
  have fr1 := @State.hostTake_frame
  have fr2 := @State.incReg_frame
  have fr3 := @State.noteBad_frame
  have fr4 := @State.relayError_frame
  have e : ∀ r, (gotBytes r).2 = r.2 := fun _ => rfl
  unfold State.bar4Read
  (repeat' split) <;> simp [e, fr1, fr2, fr3, fr4]


theorem State.memberRead_frame (s : State) (addr len : Nat) :
    (State.memberRead s addr len).2.pairLo = s.pairLo ∧ (State.memberRead s addr len).2.free = s.free ∧ (State.memberRead s addr len).2.policy = s.policy ∧ (State.memberRead s addr len).2.chk = s.chk ∧ (State.memberRead s addr len).2.snp = s.snp ∧ (State.memberRead s addr len).2.ezl = s.ezl ∧ (State.memberRead s addr len).2.stp = s.stp ∧ (State.memberRead s addr len).2.fmt = s.fmt ∧ (State.memberRead s addr len).2.vec = s.vec ∧ (State.memberRead s addr len).2.red = s.red ∧ (State.memberRead s addr len).2.tsk = s.tsk ∧ (State.memberRead s addr len).2.mem = s.mem ∧ (State.memberRead s addr len).2.hif = s.hif ∧ (State.memberRead s addr len).2.img = s.img ∧ (State.memberRead s addr len).2.pending = s.pending := by
  have fr1 := @State.noteBad_frame
  unfold State.memberRead; dsimp only; (repeat' split) <;> simp [fr1]


theorem relayRead_frame (src : Nat) (h : RelayHdr) (s : State) :
    (relayRead src h s).pairLo = s.pairLo ∧ (relayRead src h s).free = s.free ∧ (relayRead src h s).policy = s.policy ∧ (relayRead src h s).chk = s.chk ∧ (relayRead src h s).snp = s.snp ∧ (relayRead src h s).stp = s.stp ∧ (relayRead src h s).fmt = s.fmt ∧ (relayRead src h s).vec = s.vec ∧ (relayRead src h s).red = s.red ∧ (relayRead src h s).tsk = s.tsk ∧ (relayRead src h s).mem = s.mem ∧ (relayRead src h s).hif = s.hif ∧ (relayRead src h s).img = s.img ∧ (relayRead src h s).pending = s.pending := by
  have fr1 := @State.memberRead_frame
  have fr2 := @State.sendRelay_frame
  have fr3 := @State.takeRx_frame
  unfold relayRead; dsimp only; (repeat' split) <;> simp [fr1, fr2, fr3]


theorem State.memberApply_frame (s : State) (addr : Nat) (b : List Byte) :
    (State.memberApply s addr b).pairCap = s.pairCap ∧ (State.memberApply s addr b).vec = s.vec ∧ (State.memberApply s addr b).pending = s.pending := by
  have fr1 := @State.doorbellPage_frame
  have fr2 := @State.hostPut_frame
  have fr3 := @State.incReg_frame
  have fr4 := @State.noteBad_frame
  have fr5 := @State.relayError_frame
  have fr6 := @State.unassignedWrite_frame
  have fr7 := @State.writeWords_frame
  have fr8 := @State.hostStore_frame
  have fr9 := @cqHeadDoorbell_frame
  have fr10 := @sqTailDoorbell_frame
  simp [State.memberApply, fr1, fr2, fr3, fr4, fr5, fr6, fr7, fr8, fr9, fr10]


theorem relayWrite_frame (src : Nat) (h : RelayHdr) (bytes : List Byte) (s : State) :
    (relayWrite src h bytes s).pairCap = s.pairCap ∧ (relayWrite src h bytes s).vec = s.vec ∧ (relayWrite src h bytes s).pending = s.pending := by
  have fr1 := @State.memberApply_frame
  have fr2 := @State.takeRx_frame
  simp [relayWrite, fr1, fr2]


theorem twCompare_frame (d u op : Nat) (tys : List Nat) (w : TwillWord) (s : State) (f : UnitSt → Nat → Bool) :
    (twCompare d u op tys w s f).pairLo = s.pairLo ∧ (twCompare d u op tys w s f).pairCap = s.pairCap ∧ (twCompare d u op tys w s f).out = s.out ∧ (twCompare d u op tys w s f).free = s.free ∧ (twCompare d u op tys w s f).policy = s.policy ∧ (twCompare d u op tys w s f).chk = s.chk ∧ (twCompare d u op tys w s f).snp = s.snp ∧ (twCompare d u op tys w s f).irq = s.irq ∧ (twCompare d u op tys w s f).ezl = s.ezl ∧ (twCompare d u op tys w s f).stp = s.stp ∧ (twCompare d u op tys w s f).fmt = s.fmt ∧ (twCompare d u op tys w s f).arr = s.arr ∧ (twCompare d u op tys w s f).mxe = s.mxe ∧ (twCompare d u op tys w s f).upd = s.upd ∧ (twCompare d u op tys w s f).red = s.red ∧ (twCompare d u op tys w s f).mem = s.mem ∧ (twCompare d u op tys w s f).hif = s.hif ∧ (twCompare d u op tys w s f).img = s.img ∧ (twCompare d u op tys w s f).pwr = s.pwr ∧ (twCompare d u op tys w s f).pending = s.pending := by
  have fr1 := @twDone_frame
  have fr2 := @twIllegal_frame
  simp [twCompare, fr1, fr2]


theorem twMask_frame (d u op : Nat) (w : TwillWord) (s : State) (f : Nat → Nat → Nat) :
    (twMask d u op w s f).pairLo = s.pairLo ∧ (twMask d u op w s f).pairCap = s.pairCap ∧ (twMask d u op w s f).out = s.out ∧ (twMask d u op w s f).free = s.free ∧ (twMask d u op w s f).policy = s.policy ∧ (twMask d u op w s f).chk = s.chk ∧ (twMask d u op w s f).snp = s.snp ∧ (twMask d u op w s f).irq = s.irq ∧ (twMask d u op w s f).ezl = s.ezl ∧ (twMask d u op w s f).stp = s.stp ∧ (twMask d u op w s f).fmt = s.fmt ∧ (twMask d u op w s f).arr = s.arr ∧ (twMask d u op w s f).mxe = s.mxe ∧ (twMask d u op w s f).upd = s.upd ∧ (twMask d u op w s f).red = s.red ∧ (twMask d u op w s f).mem = s.mem ∧ (twMask d u op w s f).hif = s.hif ∧ (twMask d u op w s f).img = s.img ∧ (twMask d u op w s f).pwr = s.pwr ∧ (twMask d u op w s f).pending = s.pending := by
  have fr1 := @twRun_frame
  simp [twMask, fr1]


theorem twIllegalOp_frame (d u op : Nat) (s : State) :
    (twIllegalOp d u op s).pairLo = s.pairLo ∧ (twIllegalOp d u op s).pairCap = s.pairCap ∧ (twIllegalOp d u op s).out = s.out ∧ (twIllegalOp d u op s).free = s.free ∧ (twIllegalOp d u op s).policy = s.policy ∧ (twIllegalOp d u op s).chk = s.chk ∧ (twIllegalOp d u op s).snp = s.snp ∧ (twIllegalOp d u op s).irq = s.irq ∧ (twIllegalOp d u op s).ezl = s.ezl ∧ (twIllegalOp d u op s).stp = s.stp ∧ (twIllegalOp d u op s).fmt = s.fmt ∧ (twIllegalOp d u op s).arr = s.arr ∧ (twIllegalOp d u op s).mxe = s.mxe ∧ (twIllegalOp d u op s).upd = s.upd ∧ (twIllegalOp d u op s).red = s.red ∧ (twIllegalOp d u op s).mem = s.mem ∧ (twIllegalOp d u op s).hif = s.hif ∧ (twIllegalOp d u op s).img = s.img ∧ (twIllegalOp d u op s).pwr = s.pwr ∧ (twIllegalOp d u op s).pending = s.pending := by
  have fr1 := @twIllegal_frame
  simp [twIllegalOp, fr1]


theorem State.setTwByte_frame (s : State) (d u : Nat) (exch : Bool) (a : Nat) (b : Byte) :
    (State.setTwByte s d u exch a b).regs = s.regs ∧ (State.setTwByte s d u exch a b).pairLo = s.pairLo ∧ (State.setTwByte s d u exch a b).pairCap = s.pairCap ∧ (State.setTwByte s d u exch a b).out = s.out ∧ (State.setTwByte s d u exch a b).free = s.free ∧ (State.setTwByte s d u exch a b).policy = s.policy ∧ (State.setTwByte s d u exch a b).err = s.err ∧ (State.setTwByte s d u exch a b).chk = s.chk ∧ (State.setTwByte s d u exch a b).snp = s.snp ∧ (State.setTwByte s d u exch a b).irq = s.irq ∧ (State.setTwByte s d u exch a b).ezl = s.ezl ∧ (State.setTwByte s d u exch a b).stp = s.stp ∧ (State.setTwByte s d u exch a b).fmt = s.fmt ∧ (State.setTwByte s d u exch a b).arr = s.arr ∧ (State.setTwByte s d u exch a b).mxe = s.mxe ∧ (State.setTwByte s d u exch a b).upd = s.upd ∧ (State.setTwByte s d u exch a b).red = s.red ∧ (State.setTwByte s d u exch a b).tsk = s.tsk ∧ (State.setTwByte s d u exch a b).hif = s.hif ∧ (State.setTwByte s d u exch a b).img = s.img ∧ (State.setTwByte s d u exch a b).pwr = s.pwr ∧ (State.setTwByte s d u exch a b).pending = s.pending := by
  have fr1 := @State.modMem_frame
  have fr2 := @State.setUnit_frame
  simp [State.setTwByte, fr1, fr2]


theorem twMemRange_frame (d u op : Nat) (w : TwillWord) (s : State) :
    (twMemRange d u op w s).pairLo = s.pairLo ∧ (twMemRange d u op w s).pairCap = s.pairCap ∧ (twMemRange d u op w s).out = s.out ∧ (twMemRange d u op w s).free = s.free ∧ (twMemRange d u op w s).policy = s.policy ∧ (twMemRange d u op w s).chk = s.chk ∧ (twMemRange d u op w s).snp = s.snp ∧ (twMemRange d u op w s).irq = s.irq ∧ (twMemRange d u op w s).ezl = s.ezl ∧ (twMemRange d u op w s).stp = s.stp ∧ (twMemRange d u op w s).fmt = s.fmt ∧ (twMemRange d u op w s).arr = s.arr ∧ (twMemRange d u op w s).mxe = s.mxe ∧ (twMemRange d u op w s).upd = s.upd ∧ (twMemRange d u op w s).red = s.red ∧ (twMemRange d u op w s).mem = s.mem ∧ (twMemRange d u op w s).hif = s.hif ∧ (twMemRange d u op w s).img = s.img ∧ (twMemRange d u op w s).pwr = s.pwr ∧ (twMemRange d u op w s).pending = s.pending := by
  have fr1 := @twDone_frame
  have fr2 := @twFault_frame
  simp [twMemRange, fr1, fr2]


theorem vld_frame (d u : Nat) (w : TwillWord) (s : State) :
    (vld d u w s).pairLo = s.pairLo ∧ (vld d u w s).pairCap = s.pairCap ∧ (vld d u w s).out = s.out ∧ (vld d u w s).free = s.free ∧ (vld d u w s).policy = s.policy ∧ (vld d u w s).chk = s.chk ∧ (vld d u w s).snp = s.snp ∧ (vld d u w s).irq = s.irq ∧ (vld d u w s).ezl = s.ezl ∧ (vld d u w s).stp = s.stp ∧ (vld d u w s).fmt = s.fmt ∧ (vld d u w s).arr = s.arr ∧ (vld d u w s).mxe = s.mxe ∧ (vld d u w s).upd = s.upd ∧ (vld d u w s).red = s.red ∧ (vld d u w s).mem = s.mem ∧ (vld d u w s).hif = s.hif ∧ (vld d u w s).img = s.img ∧ (vld d u w s).pwr = s.pwr ∧ (vld d u w s).pending = s.pending := by
  have fr1 := @twDone_frame
  have fr2 := @twIllMark_frame
  have fr3 := @twMemRange_frame
  simp [vld, fr1, fr2, fr3]


theorem vst_frame (d u : Nat) (w : TwillWord) (s : State) :
    (vst d u w s).pairLo = s.pairLo ∧ (vst d u w s).pairCap = s.pairCap ∧ (vst d u w s).out = s.out ∧ (vst d u w s).free = s.free ∧ (vst d u w s).policy = s.policy ∧ (vst d u w s).chk = s.chk ∧ (vst d u w s).snp = s.snp ∧ (vst d u w s).irq = s.irq ∧ (vst d u w s).ezl = s.ezl ∧ (vst d u w s).stp = s.stp ∧ (vst d u w s).fmt = s.fmt ∧ (vst d u w s).arr = s.arr ∧ (vst d u w s).mxe = s.mxe ∧ (vst d u w s).upd = s.upd ∧ (vst d u w s).red = s.red ∧ (vst d u w s).hif = s.hif ∧ (vst d u w s).img = s.img ∧ (vst d u w s).pwr = s.pwr ∧ (vst d u w s).pending = s.pending := by
  have fr1 := @State.setTwByte_frame
  have fr2 := @twDone_frame
  have fr3 := @twIllMark_frame
  have fr4 := @twMemRange_frame
  simp [vst, fr1, fr2, fr3, fr4]


theorem vbar_frame (d u : Nat) (w : TwillWord) (s : State) :
    (vbar d u w s).pairLo = s.pairLo ∧ (vbar d u w s).pairCap = s.pairCap ∧ (vbar d u w s).out = s.out ∧ (vbar d u w s).free = s.free ∧ (vbar d u w s).policy = s.policy ∧ (vbar d u w s).chk = s.chk ∧ (vbar d u w s).snp = s.snp ∧ (vbar d u w s).irq = s.irq ∧ (vbar d u w s).ezl = s.ezl ∧ (vbar d u w s).stp = s.stp ∧ (vbar d u w s).fmt = s.fmt ∧ (vbar d u w s).arr = s.arr ∧ (vbar d u w s).mxe = s.mxe ∧ (vbar d u w s).upd = s.upd ∧ (vbar d u w s).red = s.red ∧ (vbar d u w s).tsk = s.tsk ∧ (vbar d u w s).mem = s.mem ∧ (vbar d u w s).hif = s.hif ∧ (vbar d u w s).img = s.img ∧ (vbar d u w s).pwr = s.pwr ∧ (vbar d u w s).pending = s.pending := by
  have fr1 := @State.setUnit_frame
  have fr2 := @twIllMark_frame
  simp [vbar, fr1, fr2]


theorem barLeave_frame (d : Nat) (s : State) (u : Nat) :
    (barLeave d s u).pairLo = s.pairLo ∧ (barLeave d s u).pairCap = s.pairCap ∧ (barLeave d s u).out = s.out ∧ (barLeave d s u).free = s.free ∧ (barLeave d s u).policy = s.policy ∧ (barLeave d s u).err = s.err ∧ (barLeave d s u).chk = s.chk ∧ (barLeave d s u).snp = s.snp ∧ (barLeave d s u).irq = s.irq ∧ (barLeave d s u).ezl = s.ezl ∧ (barLeave d s u).stp = s.stp ∧ (barLeave d s u).fmt = s.fmt ∧ (barLeave d s u).arr = s.arr ∧ (barLeave d s u).mxe = s.mxe ∧ (barLeave d s u).upd = s.upd ∧ (barLeave d s u).red = s.red ∧ (barLeave d s u).mem = s.mem ∧ (barLeave d s u).hif = s.hif ∧ (barLeave d s u).img = s.img ∧ (barLeave d s u).pwr = s.pwr ∧ (barLeave d s u).pending = s.pending := by
  have fr1 := @State.setUnit_frame
  have fr2 := @twAdvance_frame
  simp [barLeave, fr1, fr2]


theorem barPass_frame (d n : Nat) (s : State) (u : Nat) :
    (barPass d n s u).pairLo = s.pairLo ∧ (barPass d n s u).pairCap = s.pairCap ∧ (barPass d n s u).out = s.out ∧ (barPass d n s u).free = s.free ∧ (barPass d n s u).policy = s.policy ∧ (barPass d n s u).err = s.err ∧ (barPass d n s u).chk = s.chk ∧ (barPass d n s u).snp = s.snp ∧ (barPass d n s u).irq = s.irq ∧ (barPass d n s u).ezl = s.ezl ∧ (barPass d n s u).stp = s.stp ∧ (barPass d n s u).fmt = s.fmt ∧ (barPass d n s u).arr = s.arr ∧ (barPass d n s u).mxe = s.mxe ∧ (barPass d n s u).upd = s.upd ∧ (barPass d n s u).red = s.red ∧ (barPass d n s u).mem = s.mem ∧ (barPass d n s u).hif = s.hif ∧ (barPass d n s u).img = s.img ∧ (barPass d n s u).pwr = s.pwr ∧ (barPass d n s u).pending = s.pending := by
  have fr1 := @State.setUnit_frame
  have fr2 := @barLeave_frame
  simp [barPass, fr1, fr2]


theorem barrierRelease_frame (d slot n : Nat) (s : State) :
    (barrierRelease d slot n s).pairLo = s.pairLo ∧ (barrierRelease d slot n s).pairCap = s.pairCap ∧ (barrierRelease d slot n s).out = s.out ∧ (barrierRelease d slot n s).free = s.free ∧ (barrierRelease d slot n s).policy = s.policy ∧ (barrierRelease d slot n s).err = s.err ∧ (barrierRelease d slot n s).chk = s.chk ∧ (barrierRelease d slot n s).snp = s.snp ∧ (barrierRelease d slot n s).irq = s.irq ∧ (barrierRelease d slot n s).ezl = s.ezl ∧ (barrierRelease d slot n s).stp = s.stp ∧ (barrierRelease d slot n s).fmt = s.fmt ∧ (barrierRelease d slot n s).arr = s.arr ∧ (barrierRelease d slot n s).mxe = s.mxe ∧ (barrierRelease d slot n s).upd = s.upd ∧ (barrierRelease d slot n s).red = s.red ∧ (barrierRelease d slot n s).mem = s.mem ∧ (barrierRelease d slot n s).hif = s.hif ∧ (barrierRelease d slot n s).img = s.img ∧ (barrierRelease d slot n s).pwr = s.pwr ∧ (barrierRelease d slot n s).pending = s.pending := by
  have fr1 := @barPass_frame
  have fr2 := @barLeave_frame
  simp [barrierRelease, fr1, fr2]


theorem barrierTimeout_frame (d u : Nat) (s : State) :
    (barrierTimeout d u s).pairLo = s.pairLo ∧ (barrierTimeout d u s).pairCap = s.pairCap ∧ (barrierTimeout d u s).out = s.out ∧ (barrierTimeout d u s).free = s.free ∧ (barrierTimeout d u s).policy = s.policy ∧ (barrierTimeout d u s).chk = s.chk ∧ (barrierTimeout d u s).snp = s.snp ∧ (barrierTimeout d u s).irq = s.irq ∧ (barrierTimeout d u s).ezl = s.ezl ∧ (barrierTimeout d u s).stp = s.stp ∧ (barrierTimeout d u s).fmt = s.fmt ∧ (barrierTimeout d u s).arr = s.arr ∧ (barrierTimeout d u s).mxe = s.mxe ∧ (barrierTimeout d u s).upd = s.upd ∧ (barrierTimeout d u s).red = s.red ∧ (barrierTimeout d u s).mem = s.mem ∧ (barrierTimeout d u s).hif = s.hif ∧ (barrierTimeout d u s).img = s.img ∧ (barrierTimeout d u s).pwr = s.pwr ∧ (barrierTimeout d u s).pending = s.pending := by
  have fr1 := @State.setUnit_frame
  have fr2 := @barLeave_frame
  have fr3 := @twFault_frame
  unfold barrierTimeout; (repeat' split) <;> simp [fr1, fr2, fr3]


theorem State.tick_frame (s : State) :
    (State.tick s).regs = s.regs ∧ (State.tick s).pairLo = s.pairLo ∧ (State.tick s).pairCap = s.pairCap ∧ (State.tick s).out = s.out ∧ (State.tick s).free = s.free ∧ (State.tick s).policy = s.policy ∧ (State.tick s).err = s.err ∧ (State.tick s).chk = s.chk ∧ (State.tick s).snp = s.snp ∧ (State.tick s).stp = s.stp ∧ (State.tick s).fmt = s.fmt ∧ (State.tick s).arr = s.arr ∧ (State.tick s).vec = s.vec ∧ (State.tick s).mxe = s.mxe ∧ (State.tick s).upd = s.upd ∧ (State.tick s).red = s.red ∧ (State.tick s).tsk = s.tsk ∧ (State.tick s).mem = s.mem ∧ (State.tick s).hif = s.hif ∧ (State.tick s).img = s.img ∧ (State.tick s).pwr = s.pwr ∧ (State.tick s).pending = s.pending := by
  have fr1 := @State.coreReturns_frame
  have fr2 := @State.modTim_frame
  simp [State.tick, fr1, fr2]

end Sys2Proof.Machine
end

