-- ==== Sys2Proof/Laws/Hash.lean ====
section
/-! SUPPORT. The length of little-endian and big-endian byte strings and of a SHA-256 value. -/

namespace Sys2Proof.Machine

@[simp] theorem leBytes_length (k n : Nat) : (leBytes k n).length = k := by
  induction k generalizing n with
  | zero => rfl
  | succ k ih => simp [leBytes, ih]

@[simp] theorem beBytes_length (k n : Nat) : (beBytes k n).length = k := by simp [beBytes]

theorem shaRound_length (v : List Nat) (kw : Nat × Nat) : (shaRound v kw).length = v.length := by
  unfold shaRound; split <;> rfl

theorem shaRounds_length (l : List (Nat × Nat)) (v : List Nat) : (l.foldl shaRound v).length = v.length := by
  induction l generalizing v with
  | nil => rfl
  | cons x l ih => rw [List.foldl_cons, ih, shaRound_length]

theorem shaBlock_length (h : List Nat) (b : List Byte) : (shaBlock h b).length = h.length := by
  simp [shaBlock, shaRounds_length]

theorem shaBlocks_length (l : List (List Byte)) (h : List Nat) : (l.foldl shaBlock h).length = h.length := by
  induction l generalizing h with
  | nil => rfl
  | cons x l ih => rw [List.foldl_cons, ih, shaBlock_length]

/-- A SHA-256 value has 32 bytes. -/
@[simp] theorem sha256_length (bs : List Byte) : (sha256 bs).length = 32 := by
  simp only [sha256, List.length_flatMap, beBytes_length, List.map_const', List.sum_replicate, shaBlocks_length]
  rfl

end Sys2Proof.Machine
end

