-- ==== Sys2Proof/Laws/Map.lean ====
section
/-! SUPPORT. The laws of sparse maps: a read after a write, and the canonical form that every write keeps. -/

namespace Sys2Proof.Machine

variable {α : Type} [DecidableEq α] {d : Nat → α} {m : SMap α} {lo k j : Nat} {v : α}

/-- A map whose keys all lie above `k` does not list `k`. -/
theorem SMap.get_above (h : SMap.wfFrom d lo m = true) (hk : k < lo) : SMap.get d m k = d k := by
  induction m generalizing lo with
  | nil => rfl
  | cons p rest ih =>
    obtain ⟨i, w⟩ := p
    simp only [SMap.wfFrom, Bool.and_eq_true, decide_eq_true_eq] at h
    have hne : i ≠ k := by omega
    simp only [SMap.get, hne, if_false]
    exact ih h.2 (by omega)

/-- A weaker bound still holds. -/
theorem SMap.wfFrom_mono {hi : Nat} (h : SMap.wfFrom d hi m = true) (hl : lo ≤ hi) : SMap.wfFrom d lo m = true := by
  cases m with
  | nil => rfl
  | cons p rest =>
    simp only [SMap.wfFrom, Bool.and_eq_true, decide_eq_true_eq] at h ⊢
    exact ⟨⟨by omega, h.1.2⟩, h.2⟩

theorem SMap.wfFrom_insert (h : SMap.wfFrom d lo m = true) (hk : lo ≤ k) (hv : v ≠ d k) :
    SMap.wfFrom d lo (SMap.insert k v m) = true := by
  induction m generalizing lo with
  | nil => simp [SMap.insert, SMap.wfFrom, hk, hv]
  | cons p rest ih =>
    obtain ⟨i, w⟩ := p
    simp only [SMap.wfFrom, Bool.and_eq_true, decide_eq_true_eq] at h
    simp only [SMap.insert]
    split
    · simp only [SMap.wfFrom, Bool.and_eq_true, decide_eq_true_eq]
      exact ⟨⟨hk, hv⟩, ⟨by omega, h.1.2⟩, h.2⟩
    · split
      · subst_vars
        simp only [SMap.wfFrom, Bool.and_eq_true, decide_eq_true_eq]
        exact ⟨⟨hk, hv⟩, h.2⟩
      · simp only [SMap.wfFrom, Bool.and_eq_true, decide_eq_true_eq]
        exact ⟨h.1, ih h.2 (by omega)⟩

theorem SMap.wfFrom_erase (h : SMap.wfFrom d lo m = true) : SMap.wfFrom d lo (SMap.erase k m) = true := by
  induction m generalizing lo with
  | nil => rfl
  | cons p rest ih =>
    obtain ⟨i, w⟩ := p
    simp only [SMap.wfFrom, Bool.and_eq_true, decide_eq_true_eq] at h
    simp only [SMap.erase]
    split
    · exact SMap.wfFrom_mono (ih h.2) (by omega)
    · simp only [SMap.wfFrom, Bool.and_eq_true, decide_eq_true_eq]
      exact ⟨h.1, ih h.2⟩

/-- A write keeps the canonical form. -/
theorem SMap.wf_set (h : SMap.wf d m = true) : SMap.wf d (SMap.set d m k v) = true := by
  unfold SMap.set
  split
  · exact SMap.wfFrom_erase h
  · next hv => exact SMap.wfFrom_insert h (Nat.zero_le k) hv

omit [DecidableEq α] in
theorem SMap.get_insert_self : SMap.get d (SMap.insert k v m) k = v := by
  induction m with
  | nil => simp [SMap.insert, SMap.get]
  | cons p rest ih =>
    simp only [SMap.insert]
    split
    · simp [SMap.get]
    · split
      · simp [SMap.get]
      · next h => simp [SMap.get, Ne.symm h, ih]

omit [DecidableEq α] in
theorem SMap.get_insert_ne (hj : j ≠ k) : SMap.get d (SMap.insert k v m) j = SMap.get d m j := by
  induction m with
  | nil => simp [SMap.insert, SMap.get, Ne.symm hj]
  | cons p rest ih =>
    simp only [SMap.insert]
    split
    · simp [SMap.get, Ne.symm hj]
    · split
      · next h => subst h; simp [SMap.get, Ne.symm hj]
      · simp only [SMap.get, ih]

omit [DecidableEq α] in
theorem SMap.get_erase_ne (hj : j ≠ k) : SMap.get d (SMap.erase k m) j = SMap.get d m j := by
  induction m with
  | nil => rfl
  | cons p rest ih =>
    simp only [SMap.erase]
    split
    · next h => subst h; simp [SMap.get, Ne.symm hj, ih]
    · simp only [SMap.get, ih]

omit [DecidableEq α] in
theorem SMap.get_erase_self : SMap.get d (SMap.erase k m) k = d k := by
  induction m with
  | nil => rfl
  | cons p rest ih =>
    simp only [SMap.erase]
    split
    · exact ih
    · next h => simp [SMap.get, Ne.symm h, ih]

/-- A read after a write to the same key gives the value written. -/
@[simp] theorem SMap.get_set_self : SMap.get d (SMap.set d m k v) k = v := by
  unfold SMap.set
  split
  · next hv => rw [SMap.get_erase_self, hv]
  · exact SMap.get_insert_self

/-- A write leaves every other key as it was. -/
theorem SMap.get_set_ne (hj : j ≠ k) : SMap.get d (SMap.set d m k v) j = SMap.get d m j := by
  unfold SMap.set
  split
  · exact SMap.get_erase_ne hj
  · exact SMap.get_insert_ne hj

omit [DecidableEq α] in
/-- A read is the listed value, else what the key reads as unlisted. -/
theorem SMap.get_eq_find : SMap.get d m k = (SMap.find m k).getD (d k) := by
  induction m with
  | nil => rfl
  | cons p rest ih =>
    simp only [SMap.get, SMap.find]
    split
    · rfl
    · exact ih

end Sys2Proof.Machine
end

