-- ==== Sys2Proof/Laws/Keyed.lean ====
section
/-! SUPPORT. The keyed parts of the state: what is written for a key reads back, what is kept for another key stays, and a change of one
keyed part of the arrays leaves the others. -/

namespace Sys2Proof.Machine

variable (s : State)

@[simp] theorem State.mat_setMat (d i : Nat) (x : MatSt) : (s.setMat d i x).mat d i = x := by
  simp [State.mat, State.setMat, State.modArr]

theorem State.mat_setMat_ne {d i j : Nat} (x : MatSt) (h : j ≠ i) : (s.setMat d i x).mat d j = s.mat d j := by
  unfold State.mat State.setMat State.modArr; exact SMap.get_set_ne (by omega)

@[simp] theorem State.pos_setPos (d i : Nat) (x : PosSt) : (s.setPos d i x).pos d i = x := by
  simp [State.pos, State.setPos, State.modArr]

theorem State.pos_setPos_ne {d i j : Nat} (x : PosSt) (h : j ≠ i) : (s.setPos d i x).pos d j = s.pos d j := by
  unfold State.pos State.setPos State.modArr; exact SMap.get_set_ne (by omega)

@[simp] theorem State.tile_setTile (d i : Nat) (x : TileSt) : (s.setTile d i x).tile d i = x := by
  simp [State.tile, State.setTile, State.modArr]

theorem State.tile_setTile_ne {d i j : Nat} (x : TileSt) (h : j ≠ i) : (s.setTile d i x).tile d j = s.tile d j := by
  unfold State.tile State.setTile State.modArr; exact SMap.get_set_ne (by omega)

@[simp] theorem State.phys_setPhys (d i : Nat) (x : PhysSt) : (s.setPhys d i x).phys d i = x := by
  simp [State.phys, State.setPhys, State.modArr]

theorem State.phys_setPhys_ne {d i j : Nat} (x : PhysSt) (h : j ≠ i) : (s.setPhys d i x).phys d j = s.phys d j := by
  unfold State.phys State.setPhys State.modArr; exact SMap.get_set_ne (by omega)

@[simp] theorem State.kao_setKao (k : Nat) (x : KaolinSt) : (s.setKao k x).kao k = x := by
  simp [State.kao, State.setKao, State.modArr]

theorem State.kao_setKao_ne {k j : Nat} (x : KaolinSt) (h : j ≠ k) : (s.setKao k x).kao j = s.kao j := by
  unfold State.kao State.setKao State.modArr; exact SMap.get_set_ne h

@[simp] theorem State.queue_setQueue (k : Nat) (x : QueueSt) : (s.setQueue k x).queue k = x := by
  simp [State.queue, State.setQueue, State.modHif]

theorem State.queue_setQueue_ne {k j : Nat} (x : QueueSt) (h : j ≠ k) : (s.setQueue k x).queue j = s.queue j := by
  unfold State.queue State.setQueue State.modHif; exact SMap.get_set_ne h

@[simp] theorem State.core_setCore (k : Nat) (x : CoreSt) : (s.setCore k x).core k = x := by
  simp [State.core, State.setCore, State.modMxe]

theorem State.core_setCore_ne {k j : Nat} (x : CoreSt) (h : j ≠ k) : (s.setCore k x).core j = s.core j := by
  unfold State.core State.setCore State.modMxe; exact SMap.get_set_ne h

@[simp] theorem State.cluster_setCluster (k : Nat) (x : List DescRun) : (s.setCluster k x).cluster k = x := by
  simp [State.cluster, State.setCluster, State.modMxe]

theorem State.cluster_setCluster_ne {k j : Nat} (x : List DescRun) (h : j ≠ k) : (s.setCluster k x).cluster j = s.cluster j := by
  unfold State.cluster State.setCluster State.modMxe; exact SMap.get_set_ne h

@[simp] theorem State.conv_setConv (k : Nat) (x : Option ConvSlice) : (s.setConv k x).conv k = x := by
  simp [State.conv, State.setConv, State.modMxe]

theorem State.conv_setConv_ne {k j : Nat} (x : Option ConvSlice) (h : j ≠ k) : (s.setConv k x).conv j = s.conv j := by
  unfold State.conv State.setConv State.modMxe; exact SMap.get_set_ne h

@[simp] theorem State.task_setTask (k : Nat) (x : Option TaskEnt) : (s.setTask k x).task k = x := by
  simp [State.task, State.setTask, State.modTsk]

theorem State.task_setTask_ne {k j : Nat} (x : Option TaskEnt) (h : j ≠ k) : (s.setTask k x).task j = s.task j := by
  unfold State.task State.setTask State.modTsk; exact SMap.get_set_ne h

@[simp] theorem State.chan_setChan (k : Nat) (x : ChanSt) : (s.setChan k x).chan k = x := by
  simp [State.chan, State.setChan, State.modRed]

theorem State.chan_setChan_ne {k j : Nat} (x : ChanSt) (h : j ≠ k) : (s.setChan k x).chan j = s.chan j := by
  unfold State.chan State.setChan State.modRed; exact SMap.get_set_ne h

@[simp] theorem State.updD_setUpd (k : Nat) (x : UpdDie) : (s.setUpd k x).updD k = x := by
  simp [State.updD, State.setUpd, State.modUpd]

theorem State.updD_setUpd_ne {k j : Nat} (x : UpdDie) (h : j ≠ k) : (s.setUpd k x).updD j = s.updD j := by
  unfold State.updD State.setUpd State.modUpd; exact SMap.get_set_ne h

@[simp] theorem State.ctx_setCtx (k : Nat) (x : CtxSt) : (s.setCtx k x).ctx k = x := by
  simp [State.ctx, State.setCtx, State.modMem]

theorem State.ctx_setCtx_ne {k j : Nat} (x : CtxSt) (h : j ≠ k) : (s.setCtx k x).ctx j = s.ctx j := by
  unfold State.ctx State.setCtx State.modMem; exact SMap.get_set_ne h

@[simp] theorem State.chkU_setChk (k : Nat) (x : ChkUnit) : (s.setChk k x).chkU k = x := by
  simp [State.chkU, State.setChk]

theorem State.chkU_setChk_ne {k j : Nat} (x : ChkUnit) (h : j ≠ k) : (s.setChk k x).chkU j = s.chkU j := by
  unfold State.chkU State.setChk; exact SMap.get_set_ne h

@[simp] theorem State.irqD_setIrq (k : Nat) (x : IrqSt) : (s.setIrq k x).irqD k = x := by
  simp [State.irqD, State.setIrq]

theorem State.irqD_setIrq_ne {k j : Nat} (x : IrqSt) (h : j ≠ k) : (s.setIrq k x).irqD j = s.irqD j := by
  unfold State.irqD State.setIrq; exact SMap.get_set_ne h

@[simp] theorem State.lnk_setLnk (k : Nat) (x : LinkSt) : (s.setLnk k x).lnk k = x := by
  simp [State.lnk, State.setLnk, State.modEzl]

theorem State.lnk_setLnk_ne {k j : Nat} (x : LinkSt) (h : j ≠ k) : (s.setLnk k x).lnk j = s.lnk j := by
  unfold State.lnk State.setLnk State.modEzl; exact SMap.get_set_ne h

@[simp] theorem State.silt_setSilt (k : Nat) (x : SiltFree) : (s.setSilt k x).silt k = x := by
  simp [State.silt, State.setSilt, State.modMem]

theorem State.silt_setSilt_ne {k j : Nat} (x : SiltFree) (h : j ≠ k) : (s.setSilt k x).silt j = s.silt j := by
  unfold State.silt State.setSilt State.modMem; exact SMap.get_set_ne h

@[simp] theorem State.record_setRecord (k : Nat) (x : RecEnt) : (s.setRecord k x).record k = x := by
  simp [State.record, State.setRecord, State.modMem]

theorem State.record_setRecord_ne {k j : Nat} (x : RecEnt) (h : j ≠ k) : (s.setRecord k x).record j = s.record j := by
  unfold State.record State.setRecord State.modMem; exact SMap.get_set_ne h

/-! ### The parts of the arrays -/

@[simp] theorem State.pos_setMat (d i : Nat) (x : MatSt) : (s.setMat d i x).pos = s.pos := rfl
@[simp] theorem State.tile_setMat (d i : Nat) (x : MatSt) : (s.setMat d i x).tile = s.tile := rfl
@[simp] theorem State.phys_setMat (d i : Nat) (x : MatSt) : (s.setMat d i x).phys = s.phys := rfl
@[simp] theorem State.kao_setMat (d i : Nat) (x : MatSt) : (s.setMat d i x).kao = s.kao := rfl

@[simp] theorem State.mat_setPos (d i : Nat) (x : PosSt) : (s.setPos d i x).mat = s.mat := rfl
@[simp] theorem State.tile_setPos (d i : Nat) (x : PosSt) : (s.setPos d i x).tile = s.tile := rfl
@[simp] theorem State.phys_setPos (d i : Nat) (x : PosSt) : (s.setPos d i x).phys = s.phys := rfl
@[simp] theorem State.kao_setPos (d i : Nat) (x : PosSt) : (s.setPos d i x).kao = s.kao := rfl

@[simp] theorem State.mat_setTile (d i : Nat) (x : TileSt) : (s.setTile d i x).mat = s.mat := rfl
@[simp] theorem State.pos_setTile (d i : Nat) (x : TileSt) : (s.setTile d i x).pos = s.pos := rfl
@[simp] theorem State.phys_setTile (d i : Nat) (x : TileSt) : (s.setTile d i x).phys = s.phys := rfl
@[simp] theorem State.kao_setTile (d i : Nat) (x : TileSt) : (s.setTile d i x).kao = s.kao := rfl

@[simp] theorem State.mat_setPhys (d i : Nat) (x : PhysSt) : (s.setPhys d i x).mat = s.mat := rfl
@[simp] theorem State.pos_setPhys (d i : Nat) (x : PhysSt) : (s.setPhys d i x).pos = s.pos := rfl
@[simp] theorem State.tile_setPhys (d i : Nat) (x : PhysSt) : (s.setPhys d i x).tile = s.tile := rfl
@[simp] theorem State.kao_setPhys (d i : Nat) (x : PhysSt) : (s.setPhys d i x).kao = s.kao := rfl

@[simp] theorem State.mat_setKao (k : Nat) (x : KaolinSt) : (s.setKao k x).mat = s.mat := rfl
@[simp] theorem State.pos_setKao (k : Nat) (x : KaolinSt) : (s.setKao k x).pos = s.pos := rfl
@[simp] theorem State.tile_setKao (k : Nat) (x : KaolinSt) : (s.setKao k x).tile = s.tile := rfl
@[simp] theorem State.phys_setKao (k : Nat) (x : KaolinSt) : (s.setKao k x).phys = s.phys := rfl

/-! ### The parts of the matrix engine -/

@[simp] theorem State.cluster_setCore (k : Nat) (x : CoreSt) : (s.setCore k x).cluster = s.cluster := rfl
@[simp] theorem State.conv_setCore (k : Nat) (x : CoreSt) : (s.setCore k x).conv = s.conv := rfl
@[simp] theorem State.core_setCluster (k : Nat) (x : List DescRun) : (s.setCluster k x).core = s.core := rfl
@[simp] theorem State.conv_setCluster (k : Nat) (x : List DescRun) : (s.setCluster k x).conv = s.conv := rfl
@[simp] theorem State.core_setConv (k : Nat) (x : Option ConvSlice) : (s.setConv k x).core = s.core := rfl
@[simp] theorem State.cluster_setConv (k : Nat) (x : Option ConvSlice) : (s.setConv k x).cluster = s.cluster := rfl

end Sys2Proof.Machine
end

