-- ==== Sys2Proof/Laws/Memory.lean ====
section
/-! SUPPORT. The laws of HBM: every write keeps its canonical form, reset has it, a byte written reads back, every other byte stays. -/

namespace Sys2Proof.Machine

/-- Nothing is listed at reset. -/
theorem State.reset_wf : State.reset.mem.wf = true := by decide

theorem MemSt.setByte_wf {m : MemSt} (h : hbmWf m.hbm = true) (a : Nat) (b : Byte) : hbmWf (m.setByte a b).hbm = true := by
  unfold MemSt.setByte; split
  · unfold hbmWf at *; exact SMap.wf_set h
  · exact h

@[simp] theorem MemSt.write_wf {m : MemSt} (h : hbmWf m.hbm = true) (a : Nat) (bs : List Byte) : hbmWf (m.write a bs).hbm = true := by
  induction bs generalizing m a with
  | nil => exact h
  | cons b bs ih => exact ih (MemSt.setByte_wf h a b) _

/-- Every write to HBM keeps the canonical form. -/
theorem State.hbmWrite_wf {s : State} (h : s.mem.wf = true) (a : Nat) (bs : List Byte) : (s.hbmWrite a bs).mem.wf = true := MemSt.write_wf h a bs

/-- A byte written in range reads back. -/
theorem MemSt.byte_setByte {m : MemSt} {a : Nat} (h : a < hbmSize) (b : Byte) : (m.setByte a b).byte a = b := by
  simp [MemSt.byte, MemSt.setByte, h]

/-- A write of one byte leaves every other byte. -/
theorem MemSt.byte_setByte_ne {m : MemSt} {a x : Nat} (h : x ≠ a) (b : Byte) : (m.setByte a b).byte x = m.byte x := by
  unfold MemSt.byte MemSt.setByte; split
  · exact SMap.get_set_ne h
  · rfl

/-- A write leaves every byte outside it. -/
theorem MemSt.byte_write_out {m : MemSt} {a x : Nat} {bs : List Byte} (h : x < a ∨ a + bs.length ≤ x) : (m.write a bs).byte x = m.byte x := by
  induction bs generalizing m a with
  | nil => rfl
  | cons b bs ih =>
    simp only [MemSt.write]
    rw [ih (by simp only [List.length_cons] at h; omega), MemSt.byte_setByte_ne (by simp only [List.length_cons] at h; omega)]

/-- A write in range is read back byte by byte. -/
theorem MemSt.byte_write_in {m : MemSt} {a i : Nat} {bs : List Byte} (h : i < bs.length) (hr : a + i < hbmSize) : (m.write a bs).byte (a + i) = bs.getD i 0 := by
  induction bs generalizing m a i with
  | nil => simp at h
  | cons b bs ih =>
    cases i with
    | zero =>
      simp only [MemSt.write, Nat.add_zero]
      rw [MemSt.byte_write_out (by omega)]
      simpa using MemSt.byte_setByte (by simpa using hr) b
    | succ i =>
      simp only [MemSt.write, List.getD_cons_succ]
      have := ih (m := m.setByte a b) (a := a + 1) (i := i) (by simpa using h) (by omega)
      rw [← this]; congr 1; omega

/-- A write to HBM changes the bytes of HBM and their correctness, nothing else of the memories. -/
theorem MemSt.write_frame (m : MemSt) (a : Nat) (bs : List Byte) :
    (m.write a bs).copy0 = m.copy0 ∧ (m.write a bs).copy1 = m.copy1 ∧ (m.write a bs).records = m.records ∧ (m.write a bs).exch = m.exch ∧ (m.write a bs).pf = m.pf ∧ (m.write a bs).stashTokens = m.stashTokens ∧ (m.write a bs).stashTab = m.stashTab ∧ (m.write a bs).plan = m.plan ∧ (m.write a bs).planFault = m.planFault ∧ (m.write a bs).silt = m.silt ∧ (m.write a bs).handles = m.handles ∧ (m.write a bs).ctx = m.ctx ∧ (m.write a bs).layers = m.layers := by
  induction bs generalizing m a with
  | nil => simp [MemSt.write]
  | cons b bs ih =>
    have h := ih (m.setByte a b) (a + 1)
    have e : (m.setByte a b).copy0 = m.copy0 ∧ (m.setByte a b).copy1 = m.copy1 ∧ (m.setByte a b).records = m.records ∧ (m.setByte a b).exch = m.exch ∧ (m.setByte a b).pf = m.pf ∧ (m.setByte a b).stashTokens = m.stashTokens ∧ (m.setByte a b).stashTab = m.stashTab ∧ (m.setByte a b).plan = m.plan ∧ (m.setByte a b).planFault = m.planFault ∧ (m.setByte a b).silt = m.silt ∧ (m.setByte a b).handles = m.handles ∧ (m.setByte a b).ctx = m.ctx ∧ (m.setByte a b).layers = m.layers := by
      unfold MemSt.setByte; split <;> simp
    simp only [MemSt.write, h, e, and_self]

/-- What a context holds is not in HBM. -/
@[simp] theorem State.hbmWrite_ctx (s : State) (a : Nat) (bs : List Byte) (h : Nat) : (s.hbmWrite a bs).ctx h = s.ctx h := by
  have e : (s.hbmWrite a bs).mem.ctx = s.mem.ctx := (MemSt.write_frame s.mem a bs).2.2.2.2.2.2.2.2.2.2.2.1
  simp only [State.ctx, e]

/-- The streams of the prefetchers are not in HBM. -/
@[simp] theorem State.hbmWrite_pf (s : State) (a : Nat) (bs : List Byte) : (s.hbmWrite a bs).mem.pf = s.mem.pf :=
  (MemSt.write_frame s.mem a bs).2.2.2.2.1

/-- The open handles are not in HBM. -/
@[simp] theorem State.hbmWrite_handles (s : State) (a : Nat) (bs : List Byte) : (s.hbmWrite a bs).mem.handles = s.mem.handles :=
  (MemSt.write_frame s.mem a bs).2.2.2.2.2.2.2.2.2.2.1

/-! ### State copies -/

/-- A byte of a copy is a read of its map, unlisted bytes reading as the copy's generation has it (R22). -/
theorem CopyMem.byte_eq_get (c : CopyMem) (o : Nat) :
    c.byte o = SMap.get (fun o => if c.gen = 0 then 0 else Config.undefByte c.gen o) c.bytes o := by
  rw [SMap.get_eq_find]; unfold CopyMem.byte; cases SMap.find c.bytes o <;> rfl

/-- A byte written to a copy reads back. -/
@[simp] theorem CopyMem.byte_set (c : CopyMem) (o : Nat) (b : Byte) : (c.set o b).byte o = b := by
  obtain ⟨g, m⟩ := c
  rw [CopyMem.byte_eq_get]; unfold CopyMem.set
  by_cases h : g = 0
  · subst h; exact SMap.get_set_self
  · simp only [h, if_false]; exact SMap.get_insert_self

/-- Every other byte of the copy stays. -/
theorem CopyMem.byte_set_ne (c : CopyMem) {o x : Nat} (b : Byte) (h : x ≠ o) : (c.set o b).byte x = c.byte x := by
  obtain ⟨g, m⟩ := c
  rw [CopyMem.byte_eq_get, CopyMem.byte_eq_get]; unfold CopyMem.set
  by_cases hg : g = 0
  · subst hg; exact SMap.get_set_ne h
  · simp only [hg, if_false]; exact SMap.get_insert_ne h

end Sys2Proof.Machine
end

