-- ==== Sys2Proof/Laws/Regs.lean ====
section
/-! SUPPORT. Reads of the stored registers after the operations that write them. -/

namespace Sys2Proof.Machine

/-- A bit that is set reads set. -/
theorem bitOf_setBit_self {v : Word} {i : Nat} (h : i < 32) : bitOf (setBit v i true) i = true := by
  have hv := v.isLt
  simp only [bitOf, setBit, setFld, bitsOf, Nat.testBit_eq_decide_div_mod_eq, BitVec.toNat_ofNat, Nat.shiftRight_eq_div_pow]
  interval_cases i <;> norm_num <;> omega

variable (s : State) (a b : Nat)

/-- A register write reads back; every other register stays. -/
theorem State.reg_setReg (v : Word) : (s.setReg a v).reg b = if b = a then v else s.reg b := by
  split
  · next h => subst h; exact SMap.get_set_self
  · next h => exact SMap.get_set_ne h

theorem State.reg_setRegN (n : Nat) : (s.setRegN a n).reg b = if b = a then BitVec.ofNat 32 n else s.reg b := State.reg_setReg s a b _

theorem State.reg_setRegB (i : Nat) (x : Bool) : (s.setRegB a i x).reg b = if b = a then setBit (s.reg a) i x else s.reg b :=
  State.reg_setReg s a b _

theorem State.reg_event (i : Nat) : (s.event a i).reg b = if b = a then setBit (s.reg a) i true else s.reg b := State.reg_setReg s a b _

theorem State.reg_incReg (n : Nat) : (s.incReg a n).reg b = if b = a then BitVec.ofNat 32 (satAdd 32 (s.reg a).toNat n) else s.reg b :=
  State.reg_setReg s a b _

/-- A 64-bit pair reads back. -/
theorem State.pair_setPair {n : Nat} (h : n < 2 ^ 64) : (s.setPair a n).pair a = n := by
  unfold State.pair State.setPair
  rw [State.reg_setRegN, State.reg_setRegN, State.reg_setRegN, if_neg (by omega), if_pos rfl, if_pos rfl, BitVec.toNat_ofNat,
    BitVec.toNat_ofNat, Nat.mod_eq_of_lt (show n / 2 ^ 32 < 2 ^ 32 by omega)]
  omega

/-- A 64-bit counter counts modulo 2^64. -/
theorem State.pair_incPair (n : Nat) : (s.incPair a n).pair a = (s.pair a + n) % 2 ^ 64 := by
  have h : (s.pair a + n) % 2 ^ 64 < 2 ^ 64 := by omega
  exact State.pair_setPair s a h

/-- A 64-bit pair leaves every other register. -/
theorem State.reg_setPair {n : Nat} (h1 : b ≠ a) (h2 : b ≠ a + 4) : (s.setPair a n).reg b = s.reg b := by
  unfold State.setPair; rw [State.reg_setRegN, State.reg_setRegN, if_neg h2, if_neg h1]

/-- A log entry changes at most the registers of a full log queue. -/
theorem State.reg_logEnt {e : LogEnt} (h1 : b ≠ R.ERR_DROP_CNT) (h2 : b ≠ R.ERR_EVENTS) : (s.logEnt e).reg b = s.reg b := by
  unfold State.logEnt; split
  · rfl
  · rw [State.reg_event, if_neg h2, State.reg_incReg, if_neg h1]

theorem State.reg_log {blk cls bit cause detail : Nat} (h1 : b ≠ R.ERR_DROP_CNT) (h2 : b ≠ R.ERR_EVENTS) :
    (s.log blk cls bit cause detail).reg b = s.reg b := State.reg_logEnt s b h1 h2

theorem State.reg_eventLog {i blk cls cause detail : Nat} (h1 : b ≠ R.ERR_DROP_CNT) (h2 : b ≠ R.ERR_EVENTS) :
    (s.eventLog a i blk cls cause detail).reg b = if b = a then setBit (s.reg a) i true else s.reg b := by
  unfold State.eventLog; rw [State.reg_log _ _ h1 h2, State.reg_event]

/-- An event bit that is set and logged reads set. -/
theorem State.regB_eventLog {i blk cls cause detail : Nat} (hi : i < 32) (h1 : a ≠ R.ERR_DROP_CNT) (h2 : a ≠ R.ERR_EVENTS) :
    (s.eventLog a i blk cls cause detail).regB a i = true := by
  unfold State.regB; rw [State.reg_eventLog _ _ _ h1 h2, if_pos rfl]; exact bitOf_setBit_self hi

end Sys2Proof.Machine
end

