-- ==== Sys2Proof/Laws/Prog.lean ====
section
/-! SUPPORT. What writing and verifying one row does to the codes and write counts of an array, and where the verify of a row ends. -/

namespace Sys2Proof.Machine

/-- The codes of an array after its first `n` columns of row `r` are written. -/
theorem row_fold (code : Nat → Byte) (r r' c n : Nat) (hn : n ≤ 512) (hc : c < 512) (m : SMap Byte) :
    SMap.get (fun _ => 0) ((List.range n).foldl (fun m i => SMap.set (fun _ => 0) m (r * 512 + i) (code i)) m) (r' * 512 + c) =
      if r' = r ∧ c < n then code c else SMap.get (fun _ => 0) m (r' * 512 + c) := by
  induction n with
  | zero => simp
  | succ n ih =>
    rw [List.range_succ, List.foldl_append, List.foldl_cons, List.foldl_nil]
    by_cases h : r' * 512 + c = r * 512 + n
    · obtain ⟨rfl, rfl⟩ : r' = r ∧ c = n := by omega
      rw [SMap.get_set_self, if_pos ⟨rfl, by omega⟩]
    · rw [SMap.get_set_ne h, ih (by omega)]
      have : (r' = r ∧ c < n) ↔ (r' = r ∧ c < n + 1) := by omega
      simp only [this]

/-- A row written holds its codes; every other row keeps its own (R116). -/
theorem PhysSt.code_setRow (x : PhysSt) (r r' c : Nat) (code : Nat → Byte) (hc : c < 512) :
    (x.setRow r code).code r' c = if r' = r then code c else x.code r' c := by
  unfold PhysSt.code PhysSt.setRow
  simp only [row_fold code r r' c 512 (Nat.le_refl _) hc x.codes, hc, and_true]

/-- The verify of a row changes no code. -/
@[simp] theorem PhysSt.code_rowDone (x : PhysSt) (r r' c : Nat) (o : RowEnd) : (x.rowDone r o).code r' c = x.code r' c := by
  simp only [PhysSt.code, PhysSt.rowDone]

/-- A pulsed row counts one write, another row none (R117). -/
theorem PhysSt.writes_rowDone (x : PhysSt) (r r' : Nat) (o : RowEnd) :
    SMap.get (fun _ => 0) (x.rowDone r o).writes r' = SMap.get (fun _ => 0) x.writes r' + if r' = r ∧ o.pulsed then 1 else 0 := by
  have e : (x.rowDone r o).writes =
      if o.pulsed then SMap.set (fun _ => 0) x.writes r (SMap.get (fun _ => 0) x.writes r + 1) else x.writes := by
    simp only [PhysSt.rowDone]
  rw [e]
  by_cases hp : o.pulsed = true <;> by_cases h : r' = r
  · subst h; simp [hp]
  · simp [hp, h, SMap.get_set_ne h]
  · simp [hp]
  · simp [hp]

theorem rowEnd_find (reads : RowReads) (i : Nat) (hi : i ≤ 6) (hl : ∀ j < i, inTol (reads.getD j []) = false)
    (he : i = 6 ∨ inTol (reads.getD i []) = true) :
    ((List.range 7).find? (fun i => inTol (reads.getD i []))).getD 6 = i := by
  cases hf : (List.range 7).find? (fun i => inTol (reads.getD i [])) with
  | none =>
    rw [List.find?_eq_none] at hf
    rcases he with he | he
    · exact he.symm
    · exact absurd he (hf i (List.mem_range.2 (by omega)))
  | some j =>
    have hj := List.find?_some hf
    have hjm := List.mem_range.1 (List.mem_of_find?_eq_some hf)
    rcases Nat.lt_trichotomy j i with h | h | h
    · rw [hl j h] at hj; simp at hj
    · exact h
    · rcases he with he | he
      · omega
      · rw [List.find?_range_eq_some] at hf
        have := hf.2.2 i h
        rw [he] at this; simp at this

/-- What PROG_ROW does with a row of legal codes (R116, R117). -/
theorem progRow_legal {s : State} {k t : Nat} {run : RunJob} {r : Nat} {rest : List Nat} (reads : RowReads)
    (hj : (s.tile k t).job = some run) (hr : run.rows = r :: rest)
    (hl : s.rowIllegal k run.job.pos run.job.fromShadow r = false) :
    progRow k t reads s =
      if (!run.inPlace && (s.rowWritten k t run r reads).worn) = true then
        (((s.rowLeft k t run rest reads (s.rowWritten k t run r reads)).requeue k t run.job.cls).retireSpare k t run.slot).event
          (R.ARR_DRIFT_EVENTS k) 12
      else s.rowLeft k t run rest reads (s.rowWritten k t run r reads) := by
  simp only [progRow, hj, hr, hl, Bool.false_eq_true, if_false]

/-- The codes of an array after one row of it is written: the target codes there, every other row as before (R116). -/
theorem rowWritten_code (s : State) (k t : Nat) (run : RunJob) (r : Nat) (reads : RowReads) (x c : Nat) (hc : c < 512) :
    (s.rowWritten k t run r reads).code x c =
      if x = r then s.jobCode k run.job.pos run.job.fromShadow r c else (s.phys k (17 * t + run.slot)).code x c := by
  unfold State.rowWritten
  rw [PhysSt.code_rowDone, PhysSt.code_setRow _ _ _ _ _ hc]

/-- A pulsed row counts one write of that row (R117). -/
theorem rowWritten_writes (s : State) (k t : Nat) (run : RunJob) (r : Nat) (reads : RowReads) (x : Nat) :
    SMap.get (fun _ => 0) (s.rowWritten k t run r reads).writes x =
      SMap.get (fun _ => 0) (s.phys k (17 * t + run.slot)).writes x + if x = r ∧ (rowEnd reads).pulsed = true then 1 else 0 := by
  unfold State.rowWritten
  rw [PhysSt.writes_rowDone]; simp only [PhysSt.setRow]

theorem State.incPair_phys (s : State) (a n : Nat) : (s.incPair a n).phys = s.phys := by
  have e := State.incPair_frame s a n
  funext x y; simp only [State.phys, e]

/-- A counter that counts under a condition. -/
theorem State.pair_when_incPair (s : State) {u : State} (a : Nat) (h : u.pair a = s.pair a) (b : Bool) :
    (u.when b (fun s => s.incPair a 1)).pair a = if b then (s.pair a + 1) % 2 ^ 64 else s.pair a := by
  unfold State.when
  split
  · rw [State.pair_incPair, h]
  · exact h

section rowLeft

variable (s : State) (k t : Nat) (run : RunJob) (rest : List Nat) (reads : RowReads) (y : PhysSt)

/-- The job after a row. -/
theorem State.rowLeft_job : ((s.rowLeft k t run rest reads y).tile k t).job =
    some { run with rows := rest, failed := run.failed || (rowEnd reads).failed, marginal := run.marginal + (rowEnd reads).marginal } := by
  unfold State.rowLeft; dsimp only
  rw [State.tile_setTile]

/-- The array after a row. -/
theorem State.rowLeft_phys : (s.rowLeft k t run rest reads y).phys k (17 * t + run.slot) = y := by
  have e : ∀ (u : State) (b : Bool) (a n : Nat), (u.when b (fun s => s.incPair a n)).phys = u.phys := by
    intro u b a n; unfold State.when; split
    · exact State.incPair_phys _ _ _
    · rfl
  unfold State.rowLeft; dsimp only
  rw [State.phys_setTile, e, State.phys_setPhys]

/-- A row leaves memory and what goes out. -/
theorem State.rowLeft_keeps : (s.rowLeft k t run rest reads y).mem = s.mem ∧ (s.rowLeft k t run rest reads y).out = s.out := by
  unfold State.rowLeft; dsimp only
  cases (rowEnd reads).pulsed <;>
    simp only [State.when, if_true, Bool.false_eq_true, if_false, State.setTile_frame, State.setPhys_frame, State.incPair_frame, and_self]

/-- ARR_ROWPROG counts pulsed rows (R117). -/
theorem State.rowLeft_count : (s.rowLeft k t run rest reads y).pair (R.ARR_ROWPROG k) =
    if (rowEnd reads).pulsed then (s.pair (R.ARR_ROWPROG k) + 1) % 2 ^ 64 else s.pair (R.ARR_ROWPROG k) := by
  have e3 : (s.setPhys k (17 * t + run.slot) y).pair (R.ARR_ROWPROG k) = s.pair (R.ARR_ROWPROG k) := by
    simp only [State.pair, State.reg, State.setPhys_frame]
  have e2 : (s.rowLeft k t run rest reads y).pair (R.ARR_ROWPROG k) =
      ((s.setPhys k (17 * t + run.slot) y).when (rowEnd reads).pulsed (fun s => s.incPair (R.ARR_ROWPROG k) 1)).pair (R.ARR_ROWPROG k) := by
    simp only [State.rowLeft, State.pair, State.reg, State.setTile_frame]
  exact e2.trans (State.pair_when_incPair s _ e3 _)

end rowLeft

end Sys2Proof.Machine
end

