-- ==== Sys2Proof/Laws/Sound.lean ====
section
/-! SUPPORT. Every operation and every meaning keeps the invariant `State.sound`. -/

set_option linter.unusedVariables false
set_option linter.unusedSimpArgs false
set_option linter.unreachableTactic false
set_option linter.unusedTactic false
set_option linter.unnecessarySeqFocus false

namespace Sys2Proof.Machine

theorem State.sound_iff (s : State) : s.sound = true ↔ hbmWf s.mem.hbm = true ∧ s.err.queue.length ≤ 64 ∧ s.snp.queue.length ≤ 8 := by
  simp [State.sound, MemSt.wf, and_assoc]

/-- A state whose HBM, log queue and trigger queue are those of a sound state is sound. -/
theorem State.sound_same {s t : State} (h : s.sound = true) (h1 : t.mem.hbm = s.mem.hbm) (h2 : t.err.queue = s.err.queue)
    (h3 : t.snp.queue = s.snp.queue) : t.sound = true := by
  rw [State.sound_iff] at *; rw [h1, h2, h3]; exact h

@[simp] theorem State.sound_hbm {s : State} (h : s.sound = true) : hbmWf s.mem.hbm = true := ((State.sound_iff s).1 h).1
@[simp] theorem State.sound_err {s : State} (h : s.sound = true) : s.err.queue.length ≤ 64 := ((State.sound_iff s).1 h).2.1
@[simp] theorem State.sound_snp {s : State} (h : s.sound = true) : s.snp.queue.length ≤ 8 := ((State.sound_iff s).1 h).2.2

@[simp] theorem State.sound_mk (regs pairLo pairCap out free policy err chk snp irq ezl stp fmt arr vec mxe upd red tsk mem hif img pwr pending) :
    (State.mk regs pairLo pairCap out free policy err chk snp irq ezl stp fmt arr vec mxe upd red tsk mem hif img pwr pending).sound = true ↔
      hbmWf mem.hbm = true ∧ err.queue.length ≤ 64 ∧ snp.queue.length ≤ 8 := State.sound_iff _

@[simp] theorem State.foldl_sound {α : Type} {f : State → α → State} {l : List α} {s : State} (h : s.sound = true)
    (hf : ∀ s x, s.sound = true → (f s x).sound = true) : (l.foldl f s).sound = true := by
  induction l generalizing s with
  | nil => exact h
  | cons x l ih => exact ih (hf s x h)

theorem State.foldl_proj_sound {α β : Type} {π : β → State} {f : β → α → β} {l : List α} {a : β} (h : (π a).sound = true)
    (hf : ∀ a x, (π a).sound = true → (π (f a x)).sound = true) : (π (l.foldl f a)).sound = true := by
  induction l generalizing a with
  | nil => exact h
  | cons x l ih => exact ih (hf a x h)

@[simp] theorem State.ite_sound {c : Prop} [Decidable c] {a b : State} (ha : c → a.sound = true) (hb : ¬c → b.sound = true) :
    (if c then a else b).sound = true := by split <;> simp_all

@[simp] theorem State.when_sound {s : State} {c : Bool} {f : State → State} (h : s.sound = true) (hf : s.sound = true → (f s).sound = true) : (s.when c f).sound = true := by
  unfold State.when; split
  · exact hf h
  · exact h

@[simp] theorem State.setReg_sound {s : State} (h : s.sound = true) (a : Nat) (v : Word) : (State.setReg s a v).sound = true := by
  exact State.sound_same h rfl rfl rfl

@[simp] theorem State.setRegN_sound {s : State} (h : s.sound = true) (a n : Nat) : (State.setRegN s a n).sound = true := by
  simp (maxDischargeDepth := 40) [State.setRegN, h]

@[simp] theorem State.setRegF_sound {s : State} (h : s.sound = true) (a hi lo n : Nat) : (State.setRegF s a hi lo n).sound = true := by
  simp (maxDischargeDepth := 40) [State.setRegF, h]

@[simp] theorem State.setRegB_sound {s : State} (h : s.sound = true) (a i : Nat) (b : Bool) : (State.setRegB s a i b).sound = true := by
  simp (maxDischargeDepth := 40) [State.setRegB, h]

@[simp] theorem State.incReg_sound {s : State} (h : s.sound = true) (a n : Nat) : (State.incReg s a n).sound = true := by
  simp (maxDischargeDepth := 40) [State.incReg, h]

@[simp] theorem State.setPair_sound {s : State} (h : s.sound = true) (a n : Nat) : (State.setPair s a n).sound = true := by
  simp (maxDischargeDepth := 40) [State.setPair, h]

@[simp] theorem State.incPair_sound {s : State} (h : s.sound = true) (a n : Nat) : (State.incPair s a n).sound = true := by
  simp (maxDischargeDepth := 40) [State.incPair, h]

@[simp] theorem State.event_sound {s : State} (h : s.sound = true) (a i : Nat) : (State.event s a i).sound = true := by
  simp (maxDischargeDepth := 40) [State.event, h]

@[simp] theorem State.modErr_sound {s : State} {f} (h : s.sound = true) (hf : (f s.err).queue.length ≤ 64) : (s.modErr f).sound = true := by
  rw [State.sound_iff] at *; exact ⟨h.1, hf, h.2.2⟩

@[simp] theorem State.modSnp_sound {s : State} {f} (h : s.sound = true) (hf : (f s.snp).queue.length ≤ 8) : (s.modSnp f).sound = true := by
  rw [State.sound_iff] at *; exact ⟨h.1, h.2.1, hf⟩

@[simp] theorem State.modEzl_sound {s : State} (h : s.sound = true) (f : EzlSt → EzlSt) : (State.modEzl s f).sound = true := by
  exact State.sound_same h rfl rfl rfl

@[simp] theorem State.modTim_sound {s : State} (h : s.sound = true) (f : TimeSt → TimeSt) : (State.modTim s f).sound = true := by
  exact State.sound_same h rfl rfl rfl

@[simp] theorem State.modStp_sound {s : State} (h : s.sound = true) (f : StepSt → StepSt) : (State.modStp s f).sound = true := by
  exact State.sound_same h rfl rfl rfl

@[simp] theorem State.modFmt_sound {s : State} (h : s.sound = true) (f : FmtSt → FmtSt) : (State.modFmt s f).sound = true := by
  exact State.sound_same h rfl rfl rfl

@[simp] theorem State.modArr_sound {s : State} (h : s.sound = true) (f : ArrSt → ArrSt) : (State.modArr s f).sound = true := by
  exact State.sound_same h rfl rfl rfl

@[simp] theorem State.modVec_sound {s : State} (h : s.sound = true) (f : VecSt → VecSt) : (State.modVec s f).sound = true := by
  exact State.sound_same h rfl rfl rfl

@[simp] theorem State.modMxe_sound {s : State} (h : s.sound = true) (f : MxeSt → MxeSt) : (State.modMxe s f).sound = true := by
  exact State.sound_same h rfl rfl rfl

@[simp] theorem State.modUpd_sound {s : State} (h : s.sound = true) (f : UpdSt → UpdSt) : (State.modUpd s f).sound = true := by
  exact State.sound_same h rfl rfl rfl

@[simp] theorem State.modRed_sound {s : State} (h : s.sound = true) (f : RedSt → RedSt) : (State.modRed s f).sound = true := by
  exact State.sound_same h rfl rfl rfl

@[simp] theorem State.modTsk_sound {s : State} (h : s.sound = true) (f : TskSt → TskSt) : (State.modTsk s f).sound = true := by
  exact State.sound_same h rfl rfl rfl

@[simp] theorem State.modMem_sound {s : State} {f} (h : s.sound = true) (hf : hbmWf (f s.mem).hbm = true) : (s.modMem f).sound = true := by
  rw [State.sound_iff] at *; exact ⟨hf, h.2⟩

@[simp] theorem State.modHif_sound {s : State} (h : s.sound = true) (f : HifSt → HifSt) : (State.modHif s f).sound = true := by
  exact State.sound_same h rfl rfl rfl

@[simp] theorem State.modImg_sound {s : State} (h : s.sound = true) (f : ImgSt → ImgSt) : (State.modImg s f).sound = true := by
  exact State.sound_same h rfl rfl rfl

@[simp] theorem State.modPwr_sound {s : State} (h : s.sound = true) (f : PwrSt → PwrSt) : (State.modPwr s f).sound = true := by
  exact State.sound_same h rfl rfl rfl

@[simp] theorem State.setUnit_sound {s : State} (h : s.sound = true) (k : Nat) (x : UnitSt) : (State.setUnit s k x).sound = true := by
  exact State.sound_same h rfl rfl rfl

@[simp] theorem State.setTask_sound {s : State} (h : s.sound = true) (k : Nat) (t : Option TaskEnt) : (State.setTask s k t).sound = true := by
  exact State.sound_same h rfl rfl rfl

@[simp] theorem State.setChan_sound {s : State} (h : s.sound = true) (c : Nat) (x : ChanSt) : (State.setChan s c x).sound = true := by
  exact State.sound_same h rfl rfl rfl

@[simp] theorem State.setUpd_sound {s : State} (h : s.sound = true) (d : Nat) (x : UpdDie) : (State.setUpd s d x).sound = true := by
  exact State.sound_same h rfl rfl rfl

@[simp] theorem State.setCtx_sound {s : State} (hS : s.sound = true) (h : Nat) (x : CtxSt) : (State.setCtx s h x).sound = true := by
  exact State.sound_same hS rfl rfl rfl

@[simp] theorem State.modCnt_sound {s : State} (h : s.sound = true) (f : AttemptCnt → AttemptCnt) : (State.modCnt s f).sound = true := by
  exact State.sound_same h rfl rfl rfl

@[simp] theorem State.setChk_sound {s : State} (h : s.sound = true) (u : Nat) (c : ChkUnit) : (State.setChk s u c).sound = true := by
  exact State.sound_same h rfl rfl rfl

@[simp] theorem State.setIrq_sound {s : State} (h : s.sound = true) (d : Nat) (q : IrqSt) : (State.setIrq s d q).sound = true := by
  exact State.sound_same h rfl rfl rfl

@[simp] theorem State.setLnk_sound {s : State} (h : s.sound = true) (l : Nat) (k : LinkSt) : (State.setLnk s l k).sound = true := by
  exact State.sound_same h rfl rfl rfl

@[simp] theorem State.emit_sound {s : State} (h : s.sound = true) (o : Out) : (State.emit s o).sound = true := by
  exact State.sound_same h rfl rfl rfl

@[simp] theorem State.logEnt_sound {s : State} (h : s.sound = true) (e : LogEnt) : (s.logEnt e).sound = true := by
  unfold State.logEnt; split
  · exact State.modErr_sound h (by simp; omega)
  · simp (maxDischargeDepth := 40) [h]

@[simp] theorem State.log_sound {s : State} (h : s.sound = true) (blk cls bit cause detail : Nat) : (State.log s blk cls bit cause detail).sound = true := by
  simp (maxDischargeDepth := 40) [State.log, h]

@[simp] theorem State.eventLog_sound {s : State} (h : s.sound = true) (a i blk cls cause detail : Nat) : (State.eventLog s a i blk cls cause detail).sound = true := by
  simp (maxDischargeDepth := 40) [State.eventLog, h]

@[simp] theorem State.refuseBit_sound {s : State} (h : s.sound = true) (rq : Requester) (off : Nat) (v : Word) (cause bit : Nat) : (State.refuseBit s rq off v cause bit).sound = true := by
  simp (maxDischargeDepth := 40) [State.refuseBit, h]

@[simp] theorem State.refuseWrite_sound {s : State} (h : s.sound = true) (rq : Requester) (off : Nat) (v : Word) (cause : Nat) : (State.refuseWrite s rq off v cause).sound = true := by
  simp (maxDischargeDepth := 40) [State.refuseWrite, h]

@[simp] theorem State.draw_sound {s : State} (h : s.sound = true) : (State.draw s).2.sound = true := by
  exact State.sound_same h rfl rfl rfl

@[simp] theorem State.unassignedRead_sound {s : State} (h : s.sound = true) (len : Nat) : (State.unassignedRead s len).sound = true := by
  simp (maxDischargeDepth := 40) [State.unassignedRead, h]

@[simp] theorem State.unassignedWrite_sound {s : State} (h : s.sound = true) (off len : Nat) : (State.unassignedWrite s off len).sound = true := by
  simp (maxDischargeDepth := 40) [State.unassignedWrite, h]

@[simp] theorem State.hbmWrite_sound {s : State} (h : s.sound = true) (a : Nat) (bs : List Byte) : (State.hbmWrite s a bs).sound = true := by
  simp (maxDischargeDepth := 40) [State.hbmWrite, h]

@[simp] theorem State.ceNote_sound {s : State} (h : s.sound = true) (u : Nat) : (State.ceNote s u).sound = true := by
  simp (maxDischargeDepth := 40) [State.ceNote, h]

@[simp] theorem State.ceNotes_sound {s : State} (h : s.sound = true) (us : List Nat) : (State.ceNotes s us).sound = true := by
  unfold State.ceNotes; (repeat' split) <;> simp (maxDischargeDepth := 40) +contextual [h]

@[simp] theorem State.ueNote_sound {s : State} (h : s.sound = true) (u : Nat) : (State.ueNote s u).sound = true := by
  simp (maxDischargeDepth := 40) [State.ueNote, h]

@[simp] theorem State.ueNotes_sound {s : State} (h : s.sound = true) (us : List Nat) : (State.ueNotes s us).sound = true := by
  unfold State.ueNotes; (repeat' split) <;> simp (maxDischargeDepth := 40) +contextual [h]

@[simp] theorem State.readNotes_sound {s : State} (h : s.sound = true) (a n : Nat) : (State.readNotes s a n).sound = true := by
  simp (maxDischargeDepth := 40) [State.readNotes, h]

@[simp] theorem State.hbmRead_sound {s : State} (h : s.sound = true) (a n : Nat) : (State.hbmRead s a n).2.1.sound = true := by
  unfold State.hbmRead; (repeat' split) <;> simp (maxDischargeDepth := 40) [h]

@[simp] theorem State.noteRead_sound {s : State} (h : s.sound = true) (d a n : Nat) : (State.noteRead s d a n).sound = true := by
  simp (maxDischargeDepth := 40) [State.noteRead, h]

@[simp] theorem State.spoilWriteCopy_sound {s : State} (h : s.sound = true) : (State.spoilWriteCopy s).sound = true := by
  refine State.sound_same h ?_ ?_ ?_
  · unfold State.spoilWriteCopy MemSt.setCopy; simp only [State.draw, State.modMem]; split <;> rfl
  · rfl
  · rfl

@[simp] theorem State.setRecord_sound {s : State} (h : s.sound = true) (i : Nat) (r : RecEnt) : (State.setRecord s i r).sound = true := by
  simp (maxDischargeDepth := 40) [State.setRecord, h]

@[simp] theorem State.setMat_sound {s : State} (h : s.sound = true) (die idx : Nat) (x : MatSt) : (State.setMat s die idx x).sound = true := by
  simp (maxDischargeDepth := 40) [State.setMat, h]

@[simp] theorem State.setPos_sound {s : State} (h : s.sound = true) (die p : Nat) (x : PosSt) : (State.setPos s die p x).sound = true := by
  simp (maxDischargeDepth := 40) [State.setPos, h]

@[simp] theorem State.setTile_sound {s : State} (h : s.sound = true) (die t : Nat) (x : TileSt) : (State.setTile s die t x).sound = true := by
  simp (maxDischargeDepth := 40) [State.setTile, h]

@[simp] theorem State.setPhys_sound {s : State} (h : s.sound = true) (die p : Nat) (x : PhysSt) : (State.setPhys s die p x).sound = true := by
  simp (maxDischargeDepth := 40) [State.setPhys, h]

@[simp] theorem State.setKao_sound {s : State} (h : s.sound = true) (die : Nat) (x : KaolinSt) : (State.setKao s die x).sound = true := by
  simp (maxDischargeDepth := 40) [State.setKao, h]

@[simp] theorem State.keepOld_sound {s : State} (h : s.sound = true) (v d p : Nat) : (State.keepOld s v d p).sound = true := by
  unfold State.keepOld; (repeat' split) <;> simp (maxDischargeDepth := 40) [h]

@[simp] theorem State.setCounter_sound {s : State} (h : s.sound = true) (k n : Nat) : (State.setCounter s k n).sound = true := by
  simp (maxDischargeDepth := 40) [State.setCounter, h]

@[simp] theorem State.addCounter_sound {s : State} (h : s.sound = true) (k n : Nat) : (State.addCounter s k n).sound = true := by
  simp (maxDischargeDepth := 40) [State.addCounter, h]

@[simp] theorem State.takeSignal_sound {s : State} (h : s.sound = true) (g : Signal) : (State.takeSignal s g).sound = true := by
  simp (maxDischargeDepth := 40) [State.takeSignal, h]

@[simp] theorem State.signalFrom_sound (d : Nat) {s : State} (h : s.sound = true) (g : Signal) : (State.signalFrom d s g).sound = true := by
  simp (maxDischargeDepth := 40) [State.signalFrom, h]

@[simp] theorem State.endTask_sound {s : State} (h : s.sound = true) (d slot : Nat) (err : Bool) : (State.endTask s d slot err).sound = true := by
  unfold State.endTask; (repeat' split) <;> simp (maxDischargeDepth := 40) [h]

@[simp] theorem State.endPart_sound {s : State} (h : s.sound = true) (d slot : Nat) (bad : Bool) : (State.endPart s d slot bad).sound = true := by
  unfold State.endPart; (repeat' split) <;> simp (maxDischargeDepth := 40) [h]

@[simp] theorem State.taskRead_sound {s : State} (h : s.sound = true) (d slot : Nat) (l : List (Nat × Nat)) : (State.taskRead s d slot l).sound = true := by
  unfold State.taskRead; dsimp only; (repeat' split) <;> simp (maxDischargeDepth := 40) +contextual [h]

@[simp] theorem State.failToken_sound {s : State} (h : s.sound = true) (t : TaskEnt) : (State.failToken s t).sound = true := by
  unfold State.failToken; (repeat' split) <;> simp (maxDischargeDepth := 40) [h]

@[simp] theorem State.taskError_sound {s : State} (h : s.sound = true) (d slot : Nat) (t : TaskEnt) : (State.taskError s d slot t).sound = true := by
  simp (maxDischargeDepth := 40) [State.taskError, h]

@[simp] theorem State.completeTask_sound {s : State} (h : s.sound = true) (d slot : Nat) (t : TaskEnt) (err : Bool) : (State.completeTask s d slot t err).sound = true := by
  unfold State.completeTask; (repeat' split) <;> simp (maxDischargeDepth := 40) +contextual [h]

@[simp] theorem State.sendFlit_sound {s : State} (h : s.sound = true) (l typ stream src dst seq : Nat) (first last : Bool) (pay : List Byte) : (State.sendFlit s l typ stream src dst seq first last pay).sound = true := by
  simp (maxDischargeDepth := 40) [State.sendFlit, h]

@[simp] theorem State.sendIdle_sound {s : State} (h : s.sound = true) (l : Nat) : (State.sendIdle s l).sound = true := by
  simp (maxDischargeDepth := 40) [State.sendIdle, h]

@[simp] theorem State.resend_sound {s : State} (h : s.sound = true) (l : Nat) (f : Flit) : (State.resend s l f).sound = true := by
  simp (maxDischargeDepth := 40) [State.resend, h]

@[simp] theorem State.pumpOne_sound {s : State} (h : s.sound = true) (l : Nat) : (State.pumpOne s l).sound = true := by
  unfold State.pumpOne; dsimp only; (repeat' split) <;> simp (maxDischargeDepth := 40) +contextual [h]

@[simp] theorem State.pumpFuel_sound (n l : Nat) {s : State} (h : s.sound = true) : (State.pumpFuel n l s).sound = true := by
  induction n generalizing s with
  | zero => exact h
  | succ n ih => simp only [State.pumpFuel]; split <;> simp (maxDischargeDepth := 40) [ih, h]

@[simp] theorem State.pump_sound {s : State} (h : s.sound = true) (l : Nat) : (s.pump l).sound = true := by simp (maxDischargeDepth := 40) [State.pump, h]

@[simp] theorem State.sendOn_sound {s : State} (h : s.sound = true) (l : Nat) (f : Frame) : (State.sendOn s l f).sound = true := by
  simp (maxDischargeDepth := 40) [State.sendOn, h]

@[simp] theorem State.holdFrame_sound {s : State} (h : s.sound = true) (m : Option Nat) (f : Frame) : (State.holdFrame s m f).sound = true := by
  simp (maxDischargeDepth := 40) [State.holdFrame, h]

@[simp] theorem State.sendRouted_sound {s : State} (h : s.sound = true) (f : Frame) : (State.sendRouted s f).sound = true := by
  unfold State.sendRouted; (repeat' split) <;> simp (maxDischargeDepth := 40) [h]

@[simp] theorem State.sendPartner_sound {s : State} (h : s.sound = true) (m : Nat) (f : Frame) : (State.sendPartner s m f).sound = true := by
  unfold State.sendPartner; (repeat' split) <;> simp (maxDischargeDepth := 40) [h]

@[simp] theorem State.flood_sound {s : State} (h : s.sound = true) (except : Option Nat) (f : Frame) : (State.flood s except f).sound = true := by
  unfold State.flood; (repeat' split) <;> simp (maxDischargeDepth := 40) +contextual [h]

@[simp] theorem State.sendOwed_sound {s : State} (h : s.sound = true) (p : Option Nat × Frame) : (State.sendOwed s p).sound = true := by
  unfold State.sendOwed; (repeat' split) <;> simp (maxDischargeDepth := 40) [h]

@[simp] theorem State.sendWaiting_sound {s : State} (h : s.sound = true) : (State.sendWaiting s).sound = true := by
  unfold State.sendWaiting; (repeat' split) <;> simp (maxDischargeDepth := 40) +contextual [h]

@[simp] theorem State.linksDown_sound {s : State} (h : s.sound = true) : (State.linksDown s).sound = true := by
  unfold State.linksDown; (repeat' split) <;> simp (maxDischargeDepth := 40) +contextual [h]

@[simp] theorem State.sendCtrl_sound {s : State} (h : s.sound = true) (dst op : Nat) (c : CtrlMsg) : (State.sendCtrl s dst op c).sound = true := by
  simp (maxDischargeDepth := 40) [State.sendCtrl, h]

@[simp] theorem State.takeRx_sound {s : State} (h : s.sound = true) (typ : Nat) (p : Frame → Bool) : (State.takeRx s typ p).sound = true := by
  unfold State.takeRx; (repeat' split) <;> simp (maxDischargeDepth := 40) [h]

@[simp] theorem State.linkCount_sound {s : State} (h : s.sound = true) (a : Nat) : (State.linkCount s a).sound = true := by
  simp (maxDischargeDepth := 40) [State.linkCount, h]

@[simp] theorem twFault_sound (d u op cause : Nat) {s : State} (h : s.sound = true) : (twFault d u op cause s).sound = true := by
  simp (maxDischargeDepth := 40) [twFault, h]

@[simp] theorem unitEnd_sound (d u : Nat) {s : State} (h : s.sound = true) : (unitEnd d u s).sound = true := by
  unfold unitEnd; dsimp only; (repeat' split) <;> simp (maxDischargeDepth := 40) +contextual [h]

@[simp] theorem twAdvance_sound (d u : Nat) {s : State} (h : s.sound = true) : (twAdvance d u s).sound = true := by
  simp (maxDischargeDepth := 40) [twAdvance, h]

@[simp] theorem twIssue_sound (d u op : Nat) (w : TwillWord) {s : State} (h : s.sound = true) (f : Nat → State → State) (hf : (f op s).sound = true) :
    (twIssue d u op w s f).sound = true := by
  unfold twIssue; split
  · exact hf
  · exact h

@[simp] theorem twDone_sound (d u : Nat) (noFlag : Bool) (fl : Nat) (x : UnitSt) {s : State} (h : s.sound = true) : (twDone d u noFlag fl x s).sound = true := by
  simp (maxDischargeDepth := 40) [twDone, h]

@[simp] theorem twIllegal_sound (d u op : Nat) {s : State} (h : s.sound = true) : (twIllegal d u op s).sound = true := by
  simp (maxDischargeDepth := 40) [twIllegal, h]

@[simp] theorem twIllMark_sound (d u op : Nat) {s : State} (h : s.sound = true) : (twIllMark d u op s).sound = true := by
  simp (maxDischargeDepth := 40) [twIllMark, h]

@[simp] theorem twRun_sound (d u op : Nat) (tys : List Nat) (w : TwillWord) {s : State} (h : s.sound = true) (f : TwillWord → UnitSt → UnitSt × Nat) : (twRun d u op tys w s f).sound = true := by
  simp (maxDischargeDepth := 40) [twRun, h]

@[simp] theorem twElems_sound (d u op : Nat) (tys : List Nat) (w : TwillWord) {s : State} (h : s.sound = true) (f : TwillWord → UnitSt → Nat → Nat × Nat) : (twElems d u op tys w s f).sound = true := by
  simp (maxDischargeDepth := 40) [twElems, h]

@[simp] theorem State.foldAmax_sound {s : State} (h : s.sound = true) (tensor code : Nat) : (State.foldAmax s tensor code).sound = true := by
  simp (maxDischargeDepth := 40) [State.foldAmax, h]

@[simp] theorem State.logBadSr_sound {s : State} (h : s.sound = true) (a n : Nat) : (State.logBadSr s a n).sound = true := by
  unfold State.logBadSr; (repeat' split) <;> simp (maxDischargeDepth := 40) +contextual [h]

@[simp] theorem State.hostHbmWrite_sound {s : State} (h : s.sound = true) (a : Nat) (bs : List Byte) : (State.hostHbmWrite s a bs).sound = true := by
  unfold State.hostHbmWrite; (repeat' split) <;> simp (maxDischargeDepth := 40) [h]

@[simp] theorem State.addEnc_sound {s : State} (h : s.sound = true) (c : EncCount) : (State.addEnc s c).sound = true := by
  simp (maxDischargeDepth := 40) [State.addEnc, h]

@[simp] theorem State.formatsStart_sound {s : State} (h : s.sound = true) : (State.formatsStart s).sound = true := by
  simp (maxDischargeDepth := 40) [State.formatsStart, h]

@[simp] theorem State.logHostExp_sound {s : State} (h : s.sound = true) : (State.logHostExp s).sound = true := by
  unfold State.logHostExp; (repeat' split) <;> simp (maxDischargeDepth := 40) +contextual [h]

@[simp] theorem State.phaseStep_sound {s : State} (h : s.sound = true) (step : Nat) : (State.phaseStep s step).sound = true := by
  simp (maxDischargeDepth := 40) [State.phaseStep, h]

@[simp] theorem State.gradFormats_sound {s : State} (h : s.sound = true) (entered : Bool) : (State.gradFormats s entered).sound = true := by
  unfold State.gradFormats; (repeat' split) <;> simp (maxDischargeDepth := 40) +contextual [h]

@[simp] theorem State.draftRecord_sound {s : State} (h : s.sound = true) : (State.draftRecord s).sound = true := by
  simp (maxDischargeDepth := 40) [State.draftRecord, h]

@[simp] theorem State.writeRecord_sound {s : State} (h : s.sound = true) (r : RecEnt) : (State.writeRecord s r).sound = true := by
  simp (maxDischargeDepth := 40) [State.writeRecord, h]

@[simp] theorem State.writeStats_sound {s : State} (h : s.sound = true) : (State.writeStats s).sound = true := by
  unfold State.writeStats; (repeat' split) <;> simp (maxDischargeDepth := 40) +contextual [h]

@[simp] theorem State.trackerTake_sound {s : State} (h : s.sound = true) (keep : Bool) : (State.trackerTake s keep).sound = true := by
  simp (maxDischargeDepth := 40) [State.trackerTake, h]

@[simp] theorem State.appendAll_sound {s : State} (h : s.sound = true) : (State.appendAll s).sound = true := by
  simp (maxDischargeDepth := 40) [State.appendAll, h]

@[simp] theorem State.resetChannels_sound {s : State} (h : s.sound = true) : (State.resetChannels s).sound = true := by
  simp (maxDischargeDepth := 40) [State.resetChannels, h]

@[simp] theorem State.resetUpdates_sound {s : State} (h : s.sound = true) : (State.resetUpdates s).sound = true := by
  unfold State.resetUpdates; (repeat' split) <;> simp (maxDischargeDepth := 40) +contextual [h]

@[simp] theorem State.releaseSlices_sound {s : State} (h : s.sound = true)  : (State.releaseSlices s ).sound = true := by
  unfold State.releaseSlices
  refine State.foldl_sound h (fun s k hs => ?_)
  try dsimp only
  (repeat' split) <;> simp (maxDischargeDepth := 40) +contextual [hs]

@[simp] theorem State.cancelTasks_sound {s : State} (h : s.sound = true) : (State.cancelTasks s).sound = true := by
  simp (maxDischargeDepth := 40) [State.cancelTasks, h]

@[simp] theorem State.closeAttempt_sound {s : State} (h : s.sound = true) (dec : Decision) (step att reason voter : Nat) (hold : Bool) : (State.closeAttempt s dec step att reason voter hold).sound = true := by
  simp (maxDischargeDepth := 40) [State.closeAttempt, h]

@[simp] theorem State.afterDecision_sound {s : State} (h : s.sound = true) (dec : Decision) (hold rest : Bool) : (State.afterDecision s dec hold rest).sound = true := by
  simp (maxDischargeDepth := 40) [State.afterDecision, h]

@[simp] theorem State.passDue_sound {s : State} (h : s.sound = true) (d step : Nat) : (State.passDue s d step).sound = true := by
  simp (maxDischargeDepth := 40) [State.passDue, h]

@[simp] theorem State.applyCommit_sound {s : State} (h : s.sound = true) (step : Nat) : (State.applyCommit s step).sound = true := by
  unfold State.applyCommit; (repeat' split) <;> simp (maxDischargeDepth := 40) +contextual [h]

@[simp] theorem State.applySkip_sound {s : State} (h : s.sound = true) : (State.applySkip s).sound = true := by
  simp (maxDischargeDepth := 40) [State.applySkip, h]

@[simp] theorem State.discardStash_sound {s : State} (h : s.sound = true) : (State.discardStash s).sound = true := by
  unfold State.discardStash; (repeat' split) <;> simp (maxDischargeDepth := 40) +contextual [h]

@[simp] theorem State.dropRing_sound {s : State} (h : s.sound = true) : (State.dropRing s).sound = true := by
  unfold State.dropRing; (repeat' split) <;> simp (maxDischargeDepth := 40) +contextual [h]

@[simp] theorem State.applyAbort_sound {s : State} (h : s.sound = true) (step att reason voter : Nat) : (State.applyAbort s step att reason voter).sound = true := by
  simp (maxDischargeDepth := 40) [State.applyAbort, h]

@[simp] theorem State.applyDecision_sound {s : State} (h : s.sound = true) (dec : Decision) (step att reason voter : Nat) (hold : Bool) : (State.applyDecision s dec step att reason voter hold).sound = true := by
  unfold State.applyDecision; (repeat' split) <;> simp (maxDischargeDepth := 40) [h]

@[simp] theorem State.sendToken_sound {s : State} (h : s.sound = true) (t : Token) : (State.sendToken s t).sound = true := by
  unfold State.sendToken; dsimp only; (repeat' split) <;> simp (maxDischargeDepth := 40) +contextual [h]

@[simp] theorem State.sendFirst_sound {s : State} (h : s.sound = true) : (State.sendFirst s).sound = true := by
  simp (maxDischargeDepth := 40) [State.sendFirst, h]

@[simp] theorem State.openFor_sound {s : State} (h : s.sound = true) : (State.openFor s).sound = true := by
  simp (maxDischargeDepth := 40) [State.openFor, h]

@[simp] theorem State.castAbort_sound {s : State} (h : s.sound = true) (code : Nat) : (State.castAbort s code).sound = true := by
  unfold State.castAbort; dsimp only; (repeat' split) <;> simp (maxDischargeDepth := 40) +contextual [h]

@[simp] theorem State.findAbort_sound {s : State} (h : s.sound = true) (code detail seq sender : Nat) : (State.findAbort s code detail seq sender).sound = true := by
  unfold State.findAbort; (repeat' split) <;> simp (maxDischargeDepth := 40) [h]

@[simp] theorem State.copyArea_sound {s : State} (h : s.sound = true) (x y d p : Nat) : (State.copyArea s x y d p).sound = true := by
  unfold State.copyArea; (repeat' split) <;> simp (maxDischargeDepth := 40) +contextual [h]

@[simp] theorem State.shadowFrom_sound {s : State} (h : s.sound = true) (d p : Nat) (a : PhysSt) : (State.shadowFrom s d p a).sound = true := by
  unfold State.shadowFrom; (repeat' split) <;> simp (maxDischargeDepth := 40) +contextual [h]

@[simp] theorem State.publish_sound {s : State} (h : s.sound = true) (d : Nat) : (State.publish s d).sound = true := by
  simp (maxDischargeDepth := 40) [State.publish, h]

@[simp] theorem State.queueJob_sound {s : State} (h : s.sound = true) (d p cls0 : Nat) : (State.queueJob s d p cls0).sound = true := by
  unfold State.queueJob; dsimp only; (repeat' split) <;> simp (maxDischargeDepth := 40) +contextual [h]

@[simp] theorem State.retireArray_sound {s : State} (h : s.sound = true) (d tile slot : Nat) : (State.retireArray s d tile slot).sound = true := by
  simp (maxDischargeDepth := 40) [State.retireArray, h]

@[simp] theorem State.enterNone_sound {s : State} (h : s.sound = true) (d t : Nat) : (State.enterNone s d t).sound = true := by
  simp (maxDischargeDepth := 40) [State.enterNone, h]

@[simp] theorem State.releasePos_sound {s : State} (h : s.sound = true) (k : Nat) : (State.releasePos s k).sound = true := by
  unfold State.releasePos; dsimp only; (repeat' split) <;> simp (maxDischargeDepth := 40) +contextual [h]

@[simp] theorem State.releaseRanges_sound {s : State} (h : s.sound = true) : (State.releaseRanges s).sound = true := by
  simp (maxDischargeDepth := 40) [State.releaseRanges, h]

@[simp] theorem State.releaseOld_sound {s : State} (h : s.sound = true) : (State.releaseOld s).sound = true := by
  unfold State.releaseOld; dsimp only
  refine State.modArr_sound (State.releaseRanges_sound (State.foldl_sound (State.foldl_sound h ?_) ?_)) _
  all_goals (intro s x hs; (repeat' split) <;> simp (maxDischargeDepth := 40) [hs])

@[simp] theorem State.swapTile_sound {s : State} (h : s.sound = true) (d t p v : Nat) : (State.swapTile s d t p v).sound = true := by
  unfold State.swapTile; dsimp only; (repeat' split) <;> simp (maxDischargeDepth := 40) +contextual [h]

@[simp] theorem State.swapAll_sound {s : State} (h : s.sound = true) (v : Nat) (out : List Nat) : (State.swapAll s v out).sound = true := by
  unfold State.swapAll; (repeat' split) <;> simp (maxDischargeDepth := 40) +contextual [h]

@[simp] theorem State.takeTargets_sound {s : State} (h : s.sound = true) (v d p : Nat) : (State.takeTargets s v d p).sound = true := by
  simp (maxDischargeDepth := 40) [State.takeTargets, h]

@[simp] theorem State.fbEnter_sound {s : State} (h : s.sound = true) (v layer cause : Nat) : (State.fbEnter s v layer cause).sound = true := by
  unfold State.fbEnter; (repeat' split) <;> simp (maxDischargeDepth := 40) +contextual [h]

@[simp] theorem State.fbFollow_sound {s : State} (h : s.sound = true) (v d p : Nat) : (State.fbFollow s v d p).sound = true := by
  simp (maxDischargeDepth := 40) [State.fbFollow, h]

@[simp] theorem State.fbExit_sound {s : State} (h : s.sound = true) (v layer : Nat) : (State.fbExit s v layer).sound = true := by
  unfold State.fbExit; (repeat' split) <;> simp (maxDischargeDepth := 40) +contextual [h]

@[simp] theorem State.loadedIn_sound {s : State} (h : s.sound = true) (v : Nat) : (State.loadedIn s v).sound = true := by
  unfold State.loadedIn; (repeat' split) <;> simp (maxDischargeDepth := 40) +contextual [h]

@[simp] theorem State.imageChanges_sound {s : State} (h : s.sound = true) (v : Nat) : (State.imageChanges s v).sound = true := by
  unfold State.imageChanges; (repeat' split) <;> simp (maxDischargeDepth := 40) +contextual [h]

@[simp] theorem State.trimChanges_sound (s before : State) (v : Nat) (h : s.sound = true) : (State.trimChanges s before v).sound = true := by
  unfold State.trimChanges; (repeat' split) <;> simp (maxDischargeDepth := 40) +contextual [h]

@[simp] theorem State.msRefresh_sound {s : State} (h : s.sound = true) : (State.msRefresh s).sound = true := by
  unfold State.msRefresh; (repeat' split) <;> simp (maxDischargeDepth := 40) +contextual [h]

@[simp] theorem State.takeRange_sound {s : State} (h : s.sound = true) (k idx v : Nat) : (State.takeRange s k idx v).sound = true := by
  simp (maxDischargeDepth := 40) [State.takeRange, h]

@[simp] theorem State.rangeChanges_sound {s : State} (h : s.sound = true) (v : Nat) (held : Bool) : (State.rangeChanges s v held).sound = true := by
  unfold State.rangeChanges; (repeat' split) <;> simp (maxDischargeDepth := 40) +contextual [h]

@[simp] theorem State.trainRanges_sound {s : State} (h : s.sound = true) : (State.trainRanges s).sound = true := by
  unfold State.trainRanges; (repeat' split) <;> simp (maxDischargeDepth := 40) +contextual [h]

@[simp] theorem State.imageSeq_sound (s before : State) (h : s.sound = true) : (State.imageSeq s before).sound = true := by
  simp (maxDischargeDepth := 40) [State.imageSeq, h]

@[simp] theorem State.notePeak_sound {s : State} (h : s.sound = true) (k : Nat) : (State.notePeak s k).sound = true := by
  simp (maxDischargeDepth := 40) [State.notePeak, h]

@[simp] theorem State.groupDone_sound {s : State} (h : s.sound = true) (q : PassReq) (bytes : List Byte) (bad : Bool) : (State.groupDone s q bytes bad).sound = true := by
  simp (maxDischargeDepth := 40) [State.groupDone, h]

@[simp] theorem State.badRequest_sound {s : State} (h : s.sound = true) (k : Nat) (q : PassReq) (bytes : List Byte) : (State.badRequest s k q bytes).sound = true := by
  simp (maxDischargeDepth := 40) [State.badRequest, h]

@[simp] theorem State.noteFirst_sound {s : State} (h : s.sound = true) (q : PassReq) : (State.noteFirst s q).sound = true := by
  simp (maxDischargeDepth := 40) [State.noteFirst, h]

@[simp] theorem State.noteSat_sound {s : State} (h : s.sound = true) (d : Nat) (own : Bool) (n : Nat) : (State.noteSat s d own n).sound = true := by
  simp (maxDischargeDepth := 40) [State.noteSat, h]

@[simp] theorem State.fbGroup_sound {s : State} (h : s.sound = true) (k : Nat) (e : MatEnt) (q : PassReq) : (State.fbGroup s k e q).sound = true := by
  simp (maxDischargeDepth := 40) [State.fbGroup, h]

@[simp] theorem groupRequest_sound (k : Nat) {s : State} (h : s.sound = true) : (groupRequest k s).sound = true := by
  unfold groupRequest; (repeat' split) <;> simp (maxDischargeDepth := 40) [h]

@[simp] theorem State.useArrays_sound {s : State} (h : s.sound = true) (k : Nat) (l : List Nat) (u : ArrUse) : (State.useArrays s k l u).sound = true := by
  unfold State.useArrays; (repeat' split) <;> simp (maxDischargeDepth := 40) +contextual [h]

@[simp] theorem passAdmit_sound (k : Nat) (temp : Word) {s : State} (h : s.sound = true) : (passAdmit k temp s).sound = true := by
  unfold passAdmit; (repeat' split) <;> simp (maxDischargeDepth := 40) [h]

@[simp] theorem State.addClip_sound {s : State} (h : s.sound = true) (k a m n : Nat) : (State.addClip s k a m n).sound = true := by
  simp (maxDischargeDepth := 40) [State.addClip, h]

@[simp] theorem State.noteConv_sound {s : State} (h : s.sound = true) (k : Nat) (q : PassReq) (clips conv peak : Nat) : (State.noteConv s k q clips conv peak).sound = true := by
  simp (maxDischargeDepth := 40) [State.noteConv, h]

@[simp] theorem passComplete_sound (k i : Nat) (y : SMap Nat) {s : State} (h : s.sound = true) : (passComplete k i y s).sound = true := by
  unfold passComplete; dsimp only; (repeat' split) <;> simp (maxDischargeDepth := 40) +contextual [h]

@[simp] theorem State.pendRange_sound {s : State} (h : s.sound = true) (k idx r : Nat) (c : Option Nat) : (State.pendRange s k idx r c).sound = true := by
  simp (maxDischargeDepth := 40) [State.pendRange, h]

@[simp] theorem rangeTrackerEval_sound (k idx : Nat) {s : State} (h : s.sound = true) : (rangeTrackerEval k idx s).sound = true := by
  unfold rangeTrackerEval; (repeat' split) <;> simp (maxDischargeDepth := 40) [h]

@[simp] theorem rangeDataWrite_sound (rq : Requester) (k : Nat) (v : Word) {s : State} (h : s.sound = true) : (rangeDataWrite rq k v s).sound = true := by
  unfold rangeDataWrite; dsimp only; (repeat' split) <;> simp (maxDischargeDepth := 40) +contextual [h]

@[simp] theorem govStatusRead_sound (rq : Requester) (k : Nat) {s : State} (h : s.sound = true) : (govStatusRead rq k s).sound = true := by
  simp (maxDischargeDepth := 40) [govStatusRead, h]

@[simp] theorem clipgClr_sound (k : Nat) (v : Word) {s : State} (h : s.sound = true) : (clipgClr k v s).sound = true := by
  simp (maxDischargeDepth := 40) [clipgClr, h]

@[simp] theorem clipgDataRead_sound (rq : Requester) (k : Nat) {s : State} (h : s.sound = true) : (clipgDataRead rq k s).sound = true := by
  simp (maxDischargeDepth := 40) [clipgDataRead, h]

@[simp] theorem State.loWrite_sound {s : State} (h : s.sound = true) (rq : Requester) (a : Nat) (v : Word) : (State.loWrite s rq a v).sound = true := by
  exact State.sound_same h rfl rfl rfl

@[simp] theorem State.loUsed_sound {s : State} (h : s.sound = true) (rq : Requester) (a : Nat) : (State.loUsed s rq a).sound = true := by
  exact State.sound_same h rfl rfl rfl

@[simp] theorem State.hiWrite_sound {s : State} (h : s.sound = true) (rq : Requester) (a : Nat) (lo hi : Nat) (v : Word) : (State.hiWrite s rq a lo hi v).sound = true := by
  simp (maxDischargeDepth := 40) [State.hiWrite, h]

@[simp] theorem State.capture_sound {s : State} (h : s.sound = true) (rq : Requester) (a : Nat) (hi : Word) : (State.capture s rq a hi).sound = true := by
  exact State.sound_same h rfl rfl rfl

@[simp] theorem State.capUsed_sound {s : State} (h : s.sound = true) (rq : Requester) (a : Nat) : (State.capUsed s rq a).sound = true := by
  exact State.sound_same h rfl rfl rfl

@[simp] theorem State.irqFire_sound {s : State} (h : s.sound = true) (d src : Nat) : (State.irqFire s d src).sound = true := by
  simp (maxDischargeDepth := 40) [State.irqFire, h]

@[simp] theorem State.irqDelivered_sound {s : State} (h : s.sound = true) (d src : Nat) : (State.irqDelivered s d src).sound = true := by
  simp (maxDischargeDepth := 40) [State.irqDelivered, h]

@[simp] theorem State.irqRelevel_sound {s : State} (h : s.sound = true) (d src : Nat) : (State.irqRelevel s d src).sound = true := by
  simp (maxDischargeDepth := 40) [State.irqRelevel, h]

@[simp] theorem State.irqSpurious_sound {s : State} (h : s.sound = true) (d : Nat) : (State.irqSpurious s d).sound = true := by
  simp (maxDischargeDepth := 40) [State.irqSpurious, h]

@[simp] theorem State.irqTake_sound {s : State} (h : s.sound = true) (d c src : Nat) : (State.irqTake s d c src).sound = true := by
  simp (maxDischargeDepth := 40) [State.irqTake, h]

@[simp] theorem State.coreReturns_sound {s : State} (h : s.sound = true) : (State.coreReturns s).sound = true := by
  simp (maxDischargeDepth := 40) [State.coreReturns, h]

@[simp] theorem State.irqMsgIssued_sound {s : State} (h : s.sound = true) (vec : Nat) : (State.irqMsgIssued s vec).sound = true := by
  unfold State.irqMsgIssued; (repeat' split) <;> simp (maxDischargeDepth := 40) +contextual [h]

@[simp] theorem State.loadHolds_sound {s : State} (h : s.sound = true) : (State.loadHolds s).sound = true := by
  unfold State.loadHolds; (repeat' split) <;> simp (maxDischargeDepth := 40) +contextual [h]

@[simp] theorem State.hostWrite_sound {s : State} (h : s.sound = true) (addr : Nat) (bytes : List Byte) : (State.hostWrite s addr bytes).sound = true := by
  unfold State.hostWrite; (repeat' split) <;> simp (maxDischargeDepth := 40) +contextual [h]

@[simp] theorem State.msixSend_sound {s : State} (h : s.sound = true) (v : Nat) : (State.msixSend s v).sound = true := by
  simp (maxDischargeDepth := 40) [State.msixSend, h]

@[simp] theorem State.raiseVector_sound {s : State} (h : s.sound = true) (v : Nat) : (State.raiseVector s v).sound = true := by
  simp (maxDischargeDepth := 40) [State.raiseVector, h]

@[simp] theorem State.setQueue_sound {s : State} (h : s.sound = true) (q : Nat) (x : QueueSt) : (State.setQueue s q x).sound = true := by
  simp (maxDischargeDepth := 40) [State.setQueue, h]

@[simp] theorem State.setEnt_sound {s : State} (h : s.sound = true) (q i : Nat) (e : QEnt) : (State.setEnt s q i e).sound = true := by
  simp (maxDischargeDepth := 40) [State.setEnt, h]

@[simp] theorem State.postOne_sound {s : State} (h : s.sound = true) (q : Nat) : (State.postOne s q).sound = true := by
  unfold State.postOne; dsimp only; (repeat' split) <;> simp (maxDischargeDepth := 40) +contextual [h]

@[simp] theorem State.postAll_sound {s : State} (h : s.sound = true) (q : Nat) : (State.postAll s q).sound = true := by
  unfold State.postAll; (repeat' split) <;> simp (maxDischargeDepth := 40) +contextual [h]

@[simp] theorem State.entrySignal_sound {s : State} (h : s.sound = true) (e : QEnt) : (State.entrySignal s e).sound = true := by
  simp (maxDischargeDepth := 40) [State.entrySignal, h]

@[simp] theorem State.completeEntry_sound {s : State} (h : s.sound = true) (q i status w8 wC crc : Nat) : (State.completeEntry s q i status w8 wC crc).sound = true := by
  unfold State.completeEntry; (repeat' split) <;> simp (maxDischargeDepth := 40) [h]

@[simp] theorem State.hifFault_sound {s : State} (h : s.sound = true) (cause q detail : Nat) : (State.hifFault s cause q detail).sound = true := by
  simp (maxDischargeDepth := 40) [State.hifFault, h]

@[simp] theorem State.settleOne_sound {s : State} (h : s.sound = true) (q : Nat) : (State.settleOne s q).sound = true := by
  unfold State.settleOne; (repeat' split) <;> simp (maxDischargeDepth := 40) [h]

@[simp] theorem State.settle_sound {s : State} (h : s.sound = true) (q : Nat) : (State.settle s q).sound = true := by
  unfold State.settle; (repeat' split) <;> simp (maxDischargeDepth := 40) +contextual [h]

@[simp] theorem State.settleAll_sound {s : State} (h : s.sound = true) : (State.settleAll s).sound = true := by
  unfold State.settleAll; (repeat' split) <;> simp (maxDischargeDepth := 40) +contextual [h]

@[simp] theorem State.launchOver_sound {s : State} (h : s.sound = true) (src : LaunchSrc) (ok : Bool) : (State.launchOver s src ok).sound = true := by
  unfold State.launchOver
  split
  · split <;> simp [h]
  · split
    · exact h
    · extract_lets src s'
      have h2 : s'.sound = true := State.setCtx_sound h _ _
      split
      · exact State.settle_sound (State.completeEntry_sound h2 _ _ _ _ _ _) _
      · exact h2
  · exact h

@[simp] theorem State.abortUnstarted_sound {s : State} (h : s.sound = true) (q : Nat) : (State.abortUnstarted s q).sound = true := by
  unfold State.abortUnstarted
  refine State.foldl_sound h (fun s k hs => ?_)
  try dsimp only
  (repeat' split) <;> simp (maxDischargeDepth := 40) +contextual [hs]

@[simp] theorem State.disableQueue_sound {s : State} (h : s.sound = true) (q : Nat) : (State.disableQueue s q).sound = true := by
  simp (maxDischargeDepth := 40) [State.disableQueue, h]

@[simp] theorem State.hostFault_sound {s : State} (h : s.sound = true) (q : Nat) : (State.hostFault s q).sound = true := by
  simp (maxDischargeDepth := 40) [State.hostFault, h]

@[simp] theorem State.hostError_sound {s : State} (h : s.sound = true) (q : Nat) : (State.hostError s q).sound = true := by
  simp (maxDischargeDepth := 40) [State.hostError, h]

@[simp] theorem State.takePol_sound {s : State} (h : s.sound = true) (a : Nat) : (State.takePol s a).sound = true := by
  exact State.sound_same h rfl rfl rfl

@[simp] theorem State.badParam_sound {s : State} (h : s.sound = true) (a : Nat) : (State.badParam s a).sound = true := by
  simp (maxDischargeDepth := 40) [State.badParam, h]

@[simp] theorem State.takePolicy_sound {s : State} (h : s.sound = true) : (State.takePolicy s).sound = true := by
  unfold State.takePolicy; (repeat' split) <;> simp (maxDischargeDepth := 40) +contextual [h]

@[simp] theorem State.dutySet_sound {s : State} (h : s.sound = true) (mask : Nat) : (State.dutySet s mask).sound = true := by
  simp (maxDischargeDepth := 40) [State.dutySet, h]

@[simp] theorem State.dutyCtx_sound {s : State} (h : s.sound = true) : (State.dutyCtx s).sound = true := by
  simp (maxDischargeDepth := 40) [State.dutyCtx, h]

@[simp] theorem State.dutyTrain_sound {s : State} (h : s.sound = true) : (State.dutyTrain s).sound = true := by
  exact State.sound_same h rfl rfl rfl

@[simp] theorem State.dutyBound_sound {s : State} (h : s.sound = true) : (State.dutyBound s).sound = true := by
  simp (maxDischargeDepth := 40) [State.dutyBound, h]

@[simp] theorem State.orderBound_sound {s : State} (h : s.sound = true) : (State.orderBound s).sound = true := by
  simp (maxDischargeDepth := 40) [State.orderBound, h]

@[simp] theorem State.heldPoint_sound {s : State} (h : s.sound = true) : (State.heldPoint s).sound = true := by
  simp (maxDischargeDepth := 40) [State.heldPoint, h]

@[simp] theorem State.takeStepSize_sound {s : State} (h : s.sound = true) (t : Nat) : (State.takeStepSize s t).sound = true := by
  simp (maxDischargeDepth := 40) [State.takeStepSize, h]

@[simp] theorem State.formConsts_sound {s : State} (h : s.sound = true) (t : Nat) : (State.formConsts s t).sound = true := by
  simp (maxDischargeDepth := 40) [State.formConsts, h]

@[simp] theorem State.takeStash_sound {s : State} (h : s.sound = true) : (State.takeStash s).sound = true := by
  simp (maxDischargeDepth := 40) [State.takeStash, h]

@[simp] theorem State.formStash_sound {s : State} (h : s.sound = true) : (State.formStash s).sound = true := by
  unfold State.formStash; (repeat' split) <;> simp (maxDischargeDepth := 40) +contextual [h]

@[simp] theorem State.newStep_sound {s : State} (h : s.sound = true) (t : Nat) : (State.newStep s t).sound = true := by
  simp (maxDischargeDepth := 40) [State.newStep, h]

@[simp] theorem State.genPoint_sound {s : State} (h : s.sound = true) : (State.genPoint s).sound = true := by
  unfold State.genPoint; (repeat' split) <;> simp (maxDischargeDepth := 40) +contextual [h]

@[simp] theorem State.moveChannels_sound {s : State} (h : s.sound = true) : (State.moveChannels s).sound = true := by
  unfold State.moveChannels; (repeat' split) <;> simp (maxDischargeDepth := 40) +contextual [h]

@[simp] theorem State.startAttempt_sound {s : State} (h : s.sound = true) (att : Nat) : (State.startAttempt s att).sound = true := by
  unfold State.startAttempt; dsimp only; (repeat' split) <;> simp (maxDischargeDepth := 40) +contextual [h]

@[simp] theorem trainingStart_sound {s : State} (h : s.sound = true) : (trainingStart s).sound = true := by
  simp (maxDischargeDepth := 40) [trainingStart, h]

@[simp] theorem State.exhaust_sound {s : State} (h : s.sound = true) : (State.exhaust s).sound = true := by
  simp (maxDischargeDepth := 40) [State.exhaust, h]

@[simp] theorem newStepBoundary_sound {s : State} (h : s.sound = true) : (newStepBoundary s).sound = true := by
  simp (maxDischargeDepth := 40) [newStepBoundary, h]

@[simp] theorem repeatBoundary_sound {s : State} (h : s.sound = true) : (repeatBoundary s).sound = true := by
  simp (maxDischargeDepth := 40) [repeatBoundary, h]

@[simp] theorem State.addLaunch_sound {s : State} (h : s.sound = true) (l : Launch) : (State.addLaunch s l).sound = true := by
  simp (maxDischargeDepth := 40) [State.addLaunch, h]

@[simp] theorem tskLaunch_sound (rq : Requester) (v : Word) {s : State} (h : s.sound = true) : (tskLaunch rq v s).sound = true := by
  simp (maxDischargeDepth := 40) [tskLaunch, h]

@[simp] theorem State.zeroCounters_sound {s : State} (h : s.sound = true) (k n : Nat) : (State.zeroCounters s k n).sound = true := by
  unfold State.zeroCounters; (repeat' split) <;> simp (maxDischargeDepth := 40) +contextual [h]

@[simp] theorem State.streamOne_sound {s : State} (h : s.sound = true) : (State.streamOne s).sound = true := by
  unfold State.streamOne; dsimp only; (repeat' split) <;> simp (maxDischargeDepth := 40) +contextual [h]

@[simp] theorem State.streamFuel_sound (n : Nat) {s : State} (h : s.sound = true) : (State.streamFuel n s).sound = true := by
  induction n generalizing s with
  | zero => exact h
  | succ n ih => simp only [State.streamFuel]; (repeat' split) <;> simp (maxDischargeDepth := 40) [ih, h]

@[simp] theorem State.stream_sound {s : State} (h : s.sound = true) : (s.stream).sound = true := by unfold State.stream; split <;> simp (maxDischargeDepth := 40) [h]

@[simp] theorem State.openStream_sound {s : State} (h : s.sound = true) (l : Launch) (b : List Byte) : (State.openStream s l b).sound = true := by
  simp (maxDischargeDepth := 40) [State.openStream, h]

@[simp] theorem State.beginAt_sound {s : State} (h : s.sound = true) (l : Launch) (at_ : Option Nat) : (State.beginAt s l at_).sound = true := by
  unfold State.beginAt; (repeat' split) <;> simp (maxDischargeDepth := 40) [h]

@[simp] theorem State.notesAt_sound {s : State} (hS : s.sound = true) (t : Nat) (h : Option Nat) : (State.notesAt s t h).sound = true := by
  unfold State.notesAt; (repeat' split) <;> simp (maxDischargeDepth := 40) [hS]

@[simp] theorem State.graphNotes_sound {s : State} (h : s.sound = true) (g : Nat) : (State.graphNotes s g).sound = true := by
  simp (maxDischargeDepth := 40) [State.graphNotes, h]

@[simp] theorem State.beginLaunch_sound {s : State} (h : s.sound = true) (l : Launch) : (State.beginLaunch s l).sound = true := by
  simp (maxDischargeDepth := 40) [State.beginLaunch, h]

@[simp] theorem graphStream_sound {s : State} (h : s.sound = true) : (graphStream s).sound = true := by
  simp only [graphStream, State.beginLaunch]; split; (split <;> [skip; simp [h]]); (generalize Option.filter _ _ = o); cases o <;> simp (maxDischargeDepth := 40) +contextual [State.beginAt, State.openStream, h]; exact h

@[simp] theorem streamResume_sound {s : State} (h : s.sound = true) : (streamResume s).sound = true := by
  unfold streamResume; (repeat' split) <;> simp (maxDischargeDepth := 40) [h]

@[simp] theorem remoteSignal_sound {s : State} (h : s.sound = true) : (remoteSignal s).sound = true := by
  unfold remoteSignal; (repeat' split) <;> simp (maxDischargeDepth := 40) [h]

@[simp] theorem flush_sound (rq : Requester) {s : State} (h : s.sound = true) : (flush rq s).sound = true := by
  unfold flush; dsimp only
  split
  · have h1 : ∀ (l : List LaunchSrc) (s : State), s.sound = true → (l.foldl (fun s l => match l with | .command _ _ => s.launchOver l false | _ => s) s).sound = true :=
      fun l s hs => State.foldl_sound hs (by intro s x hs; split <;> simp (maxDischargeDepth := 40) [hs])
    split
    · refine State.modTsk_sound ?_ _
      apply h1; simp (maxDischargeDepth := 40) +contextual [h]
    · apply h1; simp (maxDischargeDepth := 40) +contextual [h]
  · simp (maxDischargeDepth := 40) [h]

@[simp] theorem State.dlCounter_sound {s : State} (h : s.sound = true) (t : TaskEnt) : (State.dlCounter s t).2.sound = true := by
  unfold State.dlCounter; (repeat' split) <;> simp (maxDischargeDepth := 40) [h]

@[simp] theorem deadlock_sound (d : Nat) {s : State} (h : s.sound = true) : (deadlock d s).sound = true := by
  unfold deadlock; (repeat' split) <;> simp (maxDischargeDepth := 40) [h]

@[simp] theorem dutySplitWrite_sound (v : Word) {s : State} (h : s.sound = true) : (dutySplitWrite v s).sound = true := by
  simp (maxDischargeDepth := 40) [dutySplitWrite, h]

@[simp] theorem dutyBoundary_sound {s : State} (h : s.sound = true) : (dutyBoundary s).sound = true := by
  simp (maxDischargeDepth := 40) [dutyBoundary, h]

@[simp] theorem fcvt_sound (d u : Nat) (w : TwillWord) {s : State} (h : s.sound = true) : (fcvt d u w s).sound = true := by
  simp (maxDischargeDepth := 40) [fcvt, h]

@[simp] theorem qcvt_sound (d u : Nat) (w : TwillWord) {s : State} (h : s.sound = true) : (qcvt d u w s).sound = true := by
  simp (maxDischargeDepth := 40) [qcvt, h]

@[simp] theorem vpackb_sound (d u : Nat) (w : TwillWord) {s : State} (h : s.sound = true) : (vpackb d u w s).sound = true := by
  simp (maxDischargeDepth := 40) [vpackb, h]

@[simp] theorem vgetx_sound (d u : Nat) (w : TwillWord) {s : State} (h : s.sound = true) : (vgetx d u w s).sound = true := by
  simp (maxDischargeDepth := 40) [vgetx, h]

@[simp] theorem vamax_sound (d u : Nat) (w : TwillWord) {s : State} (h : s.sound = true) : (vamax d u w s).sound = true := by
  simp (maxDischargeDepth := 40) [vamax, h]

@[simp] theorem State.noteGrad_sound {s : State} (h : s.sound = true) (d : Nat) (x0 x : Desc) : (State.noteGrad s d x0 x).sound = true := by
  simp (maxDischargeDepth := 40) [State.noteGrad, h]

@[simp] theorem State.writeTile_sound {s : State} (h : s.sound = true) (v : FmtView) (x : Desc) (t : Nat) (out : Nat) (tr : Bool) (g : Nat → Nat → Word) :
    (State.writeTile s v x t out tr g).1.sound = true := by
  unfold State.writeTile; dsimp only
  split <;> exact State.foldl_proj_sound (π := fun (a : State × EncCount) => a.1) h (by intro a x ha; simp (maxDischargeDepth := 40) [ha])

@[simp] theorem State.tileStats_sound {s : State} (h : s.sound = true) (v : FmtView) (x : Desc) (t : Nat) (g : Nat → Nat → Word) : (State.tileStats s v x t g).sound = true := by
  unfold State.tileStats; (repeat' split) <;> simp (maxDischargeDepth := 40) [h]

@[simp] theorem State.noteEnc_sound {s : State} (h : s.sound = true) (d : Nat) (own : Bool) (c : EncCount) (nf : Nat) : (State.noteEnc s d own c nf).sound = true := by
  simp (maxDischargeDepth := 40) [State.noteEnc, h]

@[simp] theorem State.noteOvf_sound {s : State} (h : s.sound = true) (d n : Nat) : (State.noteOvf s d n).sound = true := by
  simp (maxDischargeDepth := 40) [State.noteOvf, h]

@[simp] theorem State.tileOut_sound {s : State} (h : s.sound = true) (d : Nat) (task : Option TaskEnt) (x : Desc) (t : Nat) : (State.tileOut s d task x t).sound = true := by
  simp (maxDischargeDepth := 40) [State.tileOut, h]

@[simp] theorem State.fbTile_sound {s : State} (h : s.sound = true) (d : Nat) (task : Option TaskEnt) (e0 : MatEnt) (x : Desc) (t : Nat) : (State.fbTile s d task e0 x t).sound = true := by
  unfold State.fbTile; (repeat' split) <;> simp (maxDischargeDepth := 40) +contextual [h]

@[simp] theorem State.noteHold_sound {s : State} (hS : s.sound = true) (d c : Nat) (h : Bool × Bool) : (State.noteHold s d c h).sound = true := by
  simp (maxDischargeDepth := 40) [State.noteHold, hS]

@[simp] theorem State.sendMsg_sound {s : State} (h : s.sound = true) (c : Nat) (m : RingMsg) : (State.sendMsg s c m).sound = true := by
  simp (maxDischargeDepth := 40) [State.sendMsg, h]

@[simp] theorem State.setCore_sound {s : State} (h : s.sound = true) (k : Nat) (x : CoreSt) : (State.setCore s k x).sound = true := by
  simp (maxDischargeDepth := 40) [State.setCore, h]

@[simp] theorem State.setCluster_sound {s : State} (h : s.sound = true) (k : Nat) (x : List DescRun) : (State.setCluster s k x).sound = true := by
  simp (maxDischargeDepth := 40) [State.setCluster, h]

@[simp] theorem State.setConv_sound {s : State} (h : s.sound = true) (k : Nat) (x : Option ConvSlice) : (State.setConv s k x).sound = true := by
  simp (maxDischargeDepth := 40) [State.setConv, h]

@[simp] theorem State.setRun_sound {s : State} (h : s.sound = true) (k : Nat) (r : DescRun) : (State.setRun s k r).sound = true := by
  simp (maxDischargeDepth := 40) [State.setRun, h]

@[simp] theorem State.notePast_sound {s : State} (h : s.sound = true) (k : Nat) (r : DescRun) : (State.notePast s k r).sound = true := by
  simp (maxDischargeDepth := 40) [State.notePast, h]

@[simp] theorem State.dropRun_sound {s : State} (h : s.sound = true) (k slot : Nat) : (State.dropRun s k slot).sound = true := by
  unfold State.dropRun; (repeat' split) <;> simp (maxDischargeDepth := 40) [h]

@[simp] theorem State.refuseDesc_sound {s : State} (h : s.sound = true) (d c : Nat) (r : DescRun) (cause : Nat) : (State.refuseDesc s d c r cause).sound = true := by
  simp (maxDischargeDepth := 40) [State.refuseDesc, h]

@[simp] theorem State.giveTile_sound {s : State} (h : s.sound = true) (d c : Nat) (r : DescRun) : (State.giveTile s d c r).sound = true := by
  simp (maxDischargeDepth := 40) [State.giveTile, h]

@[simp] theorem descriptorAccept_sound (d c : Nat) {s : State} (h : s.sound = true) : (descriptorAccept d c s).sound = true := by
  unfold descriptorAccept; dsimp only; (repeat' split) <;> simp (maxDischargeDepth := 40) +contextual [h]

@[simp] theorem State.dropTile_sound {s : State} (h : s.sound = true) (d c t : Nat) : (State.dropTile s d c t).sound = true := by
  simp (maxDischargeDepth := 40) [State.dropTile, h]

@[simp] theorem State.finishTile_sound {s : State} (h : s.sound = true) (d k slot : Nat) : (State.finishTile s d k slot).sound = true := by
  unfold State.finishTile; (repeat' split) <;> simp (maxDischargeDepth := 40) [h]

@[simp] theorem State.noteOperands_sound {s : State} (h : s.sound = true) (d : Nat) (x : Desc) (t : Nat) : (State.noteOperands s d x t).sound = true := by
  simp (maxDischargeDepth := 40) [State.noteOperands, h]

@[simp] theorem State.readTile_sound {s : State} (h : s.sound = true) (d slot : Nat) (x : Desc) (t : Nat) : (State.readTile s d slot x t).sound = true := by
  simp (maxDischargeDepth := 40) [State.readTile, h]

@[simp] theorem State.keepRivals_sound (s old : State) (d slot : Nat) (x : Desc) (h : s.sound = true) : (State.keepRivals s old d slot x).sound = true := by
  unfold State.keepRivals; (repeat' split) <;> simp (maxDischargeDepth := 40) +contextual [h]

@[simp] theorem tileOutput_sound (d c : Nat) {s : State} (h : s.sound = true) : (tileOutput d c s).sound = true := by
  unfold tileOutput; dsimp only; (repeat' split) <;> simp (maxDischargeDepth := 40) +contextual [h]

@[simp] theorem accStall_sound (d c cycles : Nat) {s : State} (h : s.sound = true) : (accStall d c cycles s).sound = true := by
  simp (maxDischargeDepth := 40) [accStall, h]

@[simp] theorem matrixCancel_sound (d slot : Nat) {s : State} (h : s.sound = true) : (matrixCancel d slot s).sound = true := by
  unfold matrixCancel
  split
  · split
    · dsimp only
      refine State.endTask_sound (State.foldl_sound (State.foldl_sound (State.foldl_sound h ?_) ?_) ?_) _ _ _
      all_goals (intro s x hs; (repeat' split) <;> simp (maxDischargeDepth := 40) [hs])
    · exact h
  · exact h

@[simp] theorem State.sliceReady_sound {s : State} (h : s.sound = true) (d c : Nat) : (State.sliceReady s d c).sound = true := by
  simp (maxDischargeDepth := 40) [State.sliceReady, h]

@[simp] theorem State.slicesReady_sound {s : State} (h : s.sound = true) (d cl : Nat) (l : List (List Nat)) : (State.slicesReady s d cl l).sound = true := by
  unfold State.slicesReady; (repeat' split) <;> simp (maxDischargeDepth := 40) +contextual [h]

@[simp] theorem sliceConvert_sound (d cl : Nat) (l : List (List Nat)) {s : State} (h : s.sound = true) : (sliceConvert d cl l s).sound = true := by
  unfold sliceConvert; dsimp only; (repeat' split) <;> simp (maxDischargeDepth := 40) +contextual [h]

@[simp] theorem State.addSlice_sound {s : State} (h : s.sound = true) (c seq n : Nat) (b : BucketEnt) (recs : List BlockRec) : (State.addSlice s c seq n b recs).sound = true := by
  simp (maxDischargeDepth := 40) [State.addSlice, h]

@[simp] theorem State.holdNow_sound {s : State} (h : s.sound = true) (k : Nat) : (State.holdNow s k).sound = true := by
  unfold State.holdNow; (repeat' split) <;> simp (maxDischargeDepth := 40) [h]

@[simp] theorem State.holdsNow_sound {s : State} (h : s.sound = true) : (State.holdsNow s).sound = true := by
  unfold State.holdsNow; (repeat' split) <;> simp (maxDischargeDepth := 40) +contextual [h]

@[simp] theorem sliceAccept_sound (d cl cycles : Nat) {s : State} (h : s.sound = true) : (sliceAccept d cl cycles s).sound = true := by
  unfold sliceAccept; dsimp only; (repeat' split) <;> simp (maxDischargeDepth := 40) +contextual [h]

@[simp] theorem State.startUnit_sound {s : State} (h : s.sound = true) (d u slot addr n base : Nat) : (State.startUnit s d u slot addr n base).sound = true := by
  simp (maxDischargeDepth := 40) [State.startUnit, h]

@[simp] theorem State.endMalformed_sound {s : State} (h : s.sound = true) (d slot : Nat) : (State.endMalformed s d slot).sound = true := by
  simp (maxDischargeDepth := 40) [State.endMalformed, h]

@[simp] theorem State.startTwill_sound {s : State} (h : s.sound = true) (d slot : Nat) (t : TaskEnt) : (State.startTwill s d slot t).sound = true := by
  unfold State.startTwill; (repeat' split) <;> simp (maxDischargeDepth := 40) +contextual [h]

@[simp] theorem State.startArray_sound {s : State} (h : s.sound = true) (d slot : Nat) (t : TaskEnt) : (State.startArray s d slot t).sound = true := by
  simp (maxDischargeDepth := 40) [State.startArray, h]

@[simp] theorem State.notePhase_sound {s : State} (h : s.sound = true) (t : TaskEnt) (mode : Nat) : (State.notePhase s t mode).sound = true := by
  simp (maxDischargeDepth := 40) [State.notePhase, h]

@[simp] theorem State.startMatrix_sound {s : State} (h : s.sound = true) (d slot : Nat) (t : TaskEnt) : (State.startMatrix s d slot t).sound = true := by
  unfold State.startMatrix; (repeat' split) <;> simp (maxDischargeDepth := 40) [h]

@[simp] theorem State.startKersey_sound {s : State} (h : s.sound = true) (d slot : Nat) (t : TaskEnt) : (State.startKersey s d slot t).sound = true := by
  simp (maxDischargeDepth := 40) [State.startKersey, h]

@[simp] theorem State.noteToken_sound {s : State} (h : s.sound = true) (t : TaskEnt) : (State.noteToken s t).sound = true := by
  unfold State.noteToken; (repeat' split) <;> simp (maxDischargeDepth := 40) [h]

@[simp] theorem State.startTask_sound {s : State} (h : s.sound = true) (d slot : Nat) (t : TaskEnt) : (State.startTask s d slot t).sound = true := by
  unfold State.startTask; (repeat' split) <;> simp (maxDischargeDepth := 40) [h]

@[simp] theorem State.readPayload_sound {s : State} (h : s.sound = true) (d slot : Nat) (t : TaskEnt) : (State.readPayload s d slot t).sound = true := by
  simp (maxDischargeDepth := 40) [State.readPayload, h]

@[simp] theorem taskDispatch_sound (d kind : Nat) {s : State} (h : s.sound = true) : (taskDispatch d kind s).sound = true := by
  unfold taskDispatch; (repeat' split) <;> simp (maxDischargeDepth := 40) [h]

@[simp] theorem taskComplete_sound (d slot : Nat) {s : State} (h : s.sound = true) : (taskComplete d slot s).sound = true := by
  unfold taskComplete; (repeat' split) <;> simp (maxDischargeDepth := 40) [h]

@[simp] theorem kdone_sound (rq : Requester) (d c : Nat) (err : Bool) {s : State} (h : s.sound = true) : (kdone rq d c err s).sound = true := by
  unfold kdone; dsimp only; (repeat' split) <;> simp (maxDischargeDepth := 40) +contextual [h]

@[simp] theorem State.freeDma_sound {s : State} (h : s.sound = true) (d e : Nat) : (State.freeDma s d e).sound = true := by
  simp (maxDischargeDepth := 40) [State.freeDma, h]

@[simp] theorem State.endDma_sound {s : State} (h : s.sound = true) (d e slot : Nat) (err : Bool) : (State.endDma s d e slot err).sound = true := by
  simp (maxDischargeDepth := 40) [State.endDma, h]

@[simp] theorem State.dmaFault_sound {s : State} (h : s.sound = true) (d e slot cause : Nat) : (State.dmaFault s d e slot cause).sound = true := by
  simp (maxDischargeDepth := 40) [State.dmaFault, h]

@[simp] theorem State.dmaEnd_sound {s : State} (h : s.sound = true) (d e slot : Nat) (bad : Bool) : (State.dmaEnd s d e slot bad).sound = true := by
  simp (maxDischargeDepth := 40) [State.dmaEnd, h]

@[simp] theorem State.readRows_sound {s : State} (h : s.sound = true) (d : Nat) (p : DmaPay) (n : Nat) : (State.readRows s d p n).2.1.sound = true := by
  unfold State.readRows
  exact State.foldl_proj_sound (π := fun (a : List Byte × State × Bool) => a.2.1) h (by intro a x ha; simp (maxDischargeDepth := 40) [ha])

@[simp] theorem dmaCopy_sound (d e : Nat) {s : State} (h : s.sound = true) : (dmaCopy d e s).sound = true := by
  unfold dmaCopy; (repeat' split) <;> simp (maxDischargeDepth := 40) [h]

@[simp] theorem dmaSpillOut_sound (d e : Nat) {s : State} (h : s.sound = true) : (dmaSpillOut d e s).sound = true := by
  unfold dmaSpillOut; (repeat' split) <;> simp (maxDischargeDepth := 40) [h]

@[simp] theorem dmaSpillIn_sound (d e : Nat) (data : List Byte) (err : Bool) {s : State} (h : s.sound = true) : (dmaSpillIn d e data err s).sound = true := by
  unfold dmaSpillIn; (repeat' split) <;> simp (maxDischargeDepth := 40) [h]

@[simp] theorem dmaStream_sound (d e : Nat) {s : State} (h : s.sound = true) : (dmaStream d e s).sound = true := by
  unfold dmaStream; (repeat' split) <;> simp (maxDischargeDepth := 40) [h]

@[simp] theorem prefetcherFetch_sound (d p : Nat) {s : State} (h : s.sound = true) : (prefetcherFetch d p s).sound = true := by
  unfold prefetcherFetch; (repeat' split) <;> simp (maxDischargeDepth := 40) [h]

@[simp] theorem State.setSilt_sound {s : State} (h : s.sound = true) (d : Nat) (x : SiltFree) : (State.setSilt s d x).sound = true := by
  simp (maxDischargeDepth := 40) [State.setSilt, h]

@[simp] theorem State.giveSlot_sound {s : State} (h : s.sound = true) (n : Nat) : (State.giveSlot s n).sound = true := by
  simp (maxDischargeDepth := 40) [State.giveSlot, h]

@[simp] theorem siltSlotsWrite_sound (rq : Requester) (d : Nat) (v : Word) {s : State} (h : s.sound = true) : (siltSlotsWrite rq d v s).sound = true := by
  simp (maxDischargeDepth := 40) [siltSlotsWrite, h]

@[simp] theorem State.failHandle_sound {s : State} (hS : s.sound = true) (h : Nat) : (State.failHandle s h).sound = true := by
  simp (maxDischargeDepth := 40) [State.failHandle, hS]

@[simp] theorem State.putRecord_sound {s : State} (h : s.sound = true) (task key value : Nat) (p : DmaPay) (n : Nat) (src : List Byte) : (State.putRecord s task key value p n src).sound = true := by
  simp (maxDischargeDepth := 40) [State.putRecord, h]

theorem State.allocPage_sound {s : State} {row : Nat} {r : Nat × State} (hs : s.sound = true) (h : s.allocPage row = some r) : r.2.sound = true := by
  unfold State.allocPage at h; dsimp only at h
  (repeat' split at h) <;> first | (simp at h; done) | (injection h with h; subst h; simp (maxDischargeDepth := 40) [hs])

theorem State.pageFor_sound {s t : State} {h row layer off n : Nat} (hs : s.sound = true) (e : s.pageFor h row layer off = .inr (n, t)) : t.sound = true := by
  unfold State.pageFor at e; dsimp only at e
  (repeat' split at e) <;> first
    | (simp at e; done)
    | (injection e with e; injection e with e1 e2; subst e2; exact hs)
    | (next ha => injection e with e; injection e with e1 e2; subst e2; simp (maxDischargeDepth := 40) [State.allocPage_sound hs ha])

@[simp] theorem siltPut_sound (d e key value : Nat) {s : State} (hs : s.sound = true) : (siltPut d e key value s).sound = true := by
  unfold siltPut
  split
  · exact hs
  · split
    · simp (maxDischargeDepth := 40) [hs]
    · split
      · exact hs
      · split
        · simp (maxDischargeDepth := 40) [hs]
        · dsimp only
          generalize hx : State.taskRead s _ _ _ = x
          have hx' : x.sound = true := by subst hx; simp (maxDischargeDepth := 40) [hs]
          clear hx
          split
          · refine State.endDma_sound (State.failHandle_sound ?_ _) _ _ _ _; split <;> simp (maxDischargeDepth := 40) [hx']
          · next hp =>
            have := State.pageFor_sound hx' hp
            split <;> simp (maxDischargeDepth := 40) [this]

@[simp] theorem State.freePage_sound {s : State} (hS : s.sound = true) (h row layer : Nat) : (State.freePage s h row layer).sound = true := by
  simp (maxDischargeDepth := 40) [State.freePage, hS]

@[simp] theorem State.freeRows_sound {s : State} (hS : s.sound = true) (h a b : Nat) : (State.freeRows s h a b).sound = true := by
  unfold State.freeRows; (repeat' split) <;> simp (maxDischargeDepth := 40) +contextual [hS]

theorem State.dropHandle_sound {u : State} (hS : u.sound = true) (h : Nat) :
    ((u.modMem (fun m => { m with handles := m.handles.filter (· ≠ h) })).setCtx h {}).sound = true :=
  State.setCtx_sound (State.modMem_sound hS (State.sound_hbm hS)) _ _

@[simp] theorem State.closeHandle_sound {s : State} (hS : s.sound = true) (h : Nat) : (State.closeHandle s h).sound = true := by
  unfold State.closeHandle
  exact State.dropHandle_sound (State.hbmWrite_sound (State.freeRows_sound hS _ _ _) _ _) _

@[simp] theorem State.lowerPage_sound {s : State} (hS : s.sound = true) (h row layer valid : Nat) : (State.lowerPage s h row layer valid).sound = true := by
  simp (maxDischargeDepth := 40) [State.lowerPage, hS]

@[simp] theorem State.truncateHandle_sound {s : State} (hS : s.sound = true) (h count : Nat) : (State.truncateHandle s h count).sound = true := by
  unfold State.truncateHandle; (repeat' split) <;> simp (maxDischargeDepth := 40) +contextual [hS]

@[simp] theorem State.siltPend_sound {s : State} (hS : s.sound = true) (h : Nat) (p : SiltPend) : (State.siltPend s h p).sound = true := by
  unfold State.siltPend; (repeat' split) <;> simp (maxDischargeDepth := 40) [hS]

@[simp] theorem State.siltPends_sound {s : State} (hS : s.sound = true) (h : Nat) : (State.siltPends s h).sound = true := by
  unfold State.siltPends; (repeat' split) <;> simp (maxDischargeDepth := 40) +contextual [hS]

@[simp] theorem State.siltLater_sound {s : State} (hS : s.sound = true) (h : Nat) (p : SiltPend) : (State.siltLater s h p).sound = true := by
  simp (maxDischargeDepth := 40) [State.siltLater, hS]

@[simp] theorem State.openHandle_sound {s : State} (hS : s.sound = true) (h arg : Nat) : (State.openHandle s h arg).sound = true := by
  simp (maxDischargeDepth := 40) [State.openHandle, hS]

@[simp] theorem State.siltDo_sound {s : State} (hS : s.sound = true) (cmd h arg : Nat) : (State.siltDo s cmd h arg).1.sound = true := by
  unfold State.siltDo; dsimp only; (repeat' split) <;> simp (maxDischargeDepth := 40) +contextual [hS]

@[simp] theorem siltCmd_sound (cmd : Nat) (src : SiltSrc) {s : State} (h : s.sound = true) : (siltCmd cmd src s).sound = true := by
  unfold siltCmd; (repeat' split) <;> simp (maxDischargeDepth := 40) [h]

@[simp] theorem State.finToken_sound {s : State} (hS : s.sound = true) (h : Nat) (failed : Bool) (seq : Nat) : (State.finToken s h failed seq).sound = true := by
  unfold State.finToken; (repeat' split) <;> simp (maxDischargeDepth := 40) [hS]

@[simp] theorem State.endToken_sound {s : State} (hS : s.sound = true) (h : Nat) : (State.endToken s h).sound = true := by
  simp (maxDischargeDepth := 40) [State.endToken, hS]

@[simp] theorem tokenBoundary_sound (h : Nat) {s : State} (hS : s.sound = true) : (tokenBoundary h s).sound = true := by
  simp (maxDischargeDepth := 40) [tokenBoundary, hS]

@[simp] theorem committedWindowRead_sound (off len : Nat) {s : State} (h : s.sound = true) : (committedWindowRead off len s).sound = true := by
  simp (maxDischargeDepth := 40) [committedWindowRead, h]

@[simp] theorem State.writeCopies_sound {s : State} (h : s.sound = true) (o : Nat) (bs : List Byte) : (State.writeCopies s o bs).sound = true := by
  induction bs generalizing s o with
  | nil => exact h
  | cons b bs ih => exact ih (by split <;> simp (maxDischargeDepth := 40) [h]) _

@[simp] theorem State.holdOrWrite_sound {s : State} (h : s.sound = true) (o : Nat) (bs : List Byte) : (State.holdOrWrite s o bs).sound = true := by
  unfold State.holdOrWrite; split <;> simp (maxDischargeDepth := 40) [h]

@[simp] theorem stepRecordRingWrite_sound (off : Nat) (bs : List Byte) {s : State} (h : s.sound = true) : (stepRecordRingWrite off bs s).sound = true := by
  simp (maxDischargeDepth := 40) [stepRecordRingWrite, h]

@[simp] theorem committedWindowWrite_sound (off : Nat) (bs : List Byte) {s : State} (h : s.sound = true) : (committedWindowWrite off bs s).sound = true := by
  unfold committedWindowWrite; dsimp only
  (repeat' split) <;> simp (maxDischargeDepth := 40) [h]

@[simp] theorem State.badDoorbell_sound {s : State} (h : s.sound = true) (q v : Nat) : (State.badDoorbell s q v).sound = true := by
  simp (maxDischargeDepth := 40) [State.badDoorbell, h]

@[simp] theorem sqTailDoorbell_sound (q v : Nat) {s : State} (h : s.sound = true) : (sqTailDoorbell q v s).sound = true := by
  simp (maxDischargeDepth := 40) [sqTailDoorbell, h]

@[simp] theorem cqHeadDoorbell_sound (q v : Nat) {s : State} (h : s.sound = true) : (cqHeadDoorbell q v s).sound = true := by
  simp (maxDischargeDepth := 40) [cqHeadDoorbell, h]

@[simp] theorem sqFetch_sound (bytes : List Byte) (err : Bool) {s : State} (h : s.sound = true) : (sqFetch bytes err s).sound = true := by
  unfold sqFetch; (repeat' split) <;> simp (maxDischargeDepth := 40) [h]

@[simp] theorem State.noteProt_sound {s : State} (h : s.sound = true) (q a : Nat) : (State.noteProt s q a).sound = true := by
  simp (maxDischargeDepth := 40) [State.noteProt, h]

@[simp] theorem State.sendData_sound {s : State} (h : s.sound = true) (dst addr : Nat) (bytes : List Byte) : (State.sendData s dst addr bytes).sound = true := by
  unfold State.sendData; (repeat' split) <;> simp (maxDischargeDepth := 40) +contextual [h]

@[simp] theorem State.startData_sound {s : State} (h : s.sound = true) (q i eng : Nat) (e : QEnt) (fin : Nat × Nat × Nat × Nat) : (State.startData s q i eng e fin).sound = true := by
  simp (maxDischargeDepth := 40) [State.startData, h]

@[simp] theorem State.hostStore_sound {s : State} (h : s.sound = true) (ok : Nat → Bool) (a : Nat) (bytes : List Byte) : (State.hostStore s ok a bytes).sound = true := by
  unfold State.hostStore; (repeat' split) <;> simp (maxDischargeDepth := 40) +contextual [h]

@[simp] theorem writeHbm_sound (q : Nat) (data : List Byte) (err : Option Nat) {s : State} (h : s.sound = true) : (writeHbm q data err s).sound = true := by
  unfold writeHbm; (repeat' split) <;> simp (maxDischargeDepth := 40) [h]

@[simp] theorem readHbm_sound (q : Nat) {s : State} (h : s.sound = true) : (readHbm q s).sound = true := by
  unfold readHbm; (repeat' split) <;> simp (maxDischargeDepth := 40) [h]

@[simp] theorem hostDmaComplete_sound (q i : Nat) {s : State} (h : s.sound = true) : (hostDmaComplete q i s).sound = true := by
  unfold hostDmaComplete; (repeat' split) <;> simp (maxDischargeDepth := 40) [h]

@[simp] theorem hostNop_sound (q : Nat) {s : State} (h : s.sound = true) : (hostNop q s).sound = true := by
  unfold hostNop; (repeat' split) <;> simp (maxDischargeDepth := 40) [h]

@[simp] theorem signal_sound (q : Nat) {s : State} (h : s.sound = true) : (signal q s).sound = true := by
  unfold signal; (repeat' split) <;> simp (maxDischargeDepth := 40) [h]

@[simp] theorem launch_sound (q : Nat) {s : State} (h : s.sound = true) : (launch q s).sound = true := by
  unfold launch; (repeat' split) <;> simp (maxDischargeDepth := 40) [h]

@[simp] theorem State.beginToken_sound {s : State} (hS : s.sound = true) (h : Nat) : (State.beginToken s h).sound = true := by
  simp (maxDischargeDepth := 40) [State.beginToken, hS]

@[simp] theorem gen_sound (q : Nat) {s : State} (h : s.sound = true) : (gen q s).sound = true := by
  unfold gen; (repeat' split) <;> simp (maxDischargeDepth := 40) [h]

@[simp] theorem genResultCopy_sound (q i : Nat) {s : State} (h : s.sound = true) : (genResultCopy q i s).sound = true := by
  unfold genResultCopy; (repeat' split) <;> simp (maxDischargeDepth := 40) [h]

@[simp] theorem State.giveUp_sound {s : State} (h : s.sound = true) (q : Nat) : (State.giveUp s q).sound = true := by
  simp (maxDischargeDepth := 40) [State.giveUp, h]

@[simp] theorem cqStall_sound (q : Nat) {s : State} (h : s.sound = true) : (cqStall q s).sound = true := by
  simp (maxDischargeDepth := 40) [cqStall, h]

@[simp] theorem hostErrorLimit_sound (q : Nat) {s : State} (h : s.sound = true) : (hostErrorLimit q s).sound = true := by
  simp (maxDischargeDepth := 40) [hostErrorLimit, h]

@[simp] theorem State.badConfig_sound {s : State} (h : s.sound = true) (rq : Requester) (q off : Nat) (v : Word) : (State.badConfig s rq q off v).sound = true := by
  simp (maxDischargeDepth := 40) [State.badConfig, h]

@[simp] theorem qCfgWrite_sound (rq : Requester) (v : Word) {s : State} (h : s.sound = true) : (qCfgWrite rq v s).sound = true := by
  simp (maxDischargeDepth := 40) [qCfgWrite, h]

@[simp] theorem msixUnmask_sound (v : Nat) {s : State} (h : s.sound = true) : (msixUnmask v s).sound = true := by
  simp (maxDischargeDepth := 40) [msixUnmask, h]

@[simp] theorem State.sendHeld_sound {s : State} (h : s.sound = true) (d : Nat) : (State.sendHeld s d).sound = true := by
  unfold State.sendHeld; (repeat' split) <;> simp (maxDischargeDepth := 40) +contextual [h]

@[simp] theorem State.emitUnits_sound {s : State} (h : s.sound = true) (us : List Nat) (a : Nat) (bs : List Byte) : (State.emitUnits s us a bs).sound = true := by
  unfold State.emitUnits; (repeat' split) <;> simp (maxDischargeDepth := 40) +contextual [h]

@[simp] theorem State.noteHostRead_sound {s : State} (h : s.sound = true) (a n : Nat) : (State.noteHostRead s a n).sound = true := by
  simp (maxDischargeDepth := 40) [State.noteHostRead, h]

@[simp] theorem State.hostRead_sound {s : State} (h : s.sound = true) (a len : Nat) : (State.hostRead s a len).sound = true := by
  simp (maxDischargeDepth := 40) [State.hostRead, h]

@[simp] theorem apertureRead_sound (off len : Nat) {s : State} (h : s.sound = true) : (apertureRead off len s).sound = true := by
  unfold apertureRead; (repeat' split) <;> simp (maxDischargeDepth := 40) [h]

@[simp] theorem State.hostPut_sound {s : State} (h : s.sound = true) (a : Nat) (bytes : List Byte) : (State.hostPut s a bytes).sound = true := by
  simp (maxDischargeDepth := 40) [State.hostPut, h]

@[simp] theorem State.hostTake_sound {s : State} (h : s.sound = true) (a n : Nat) : (State.hostTake s a n).2.sound = true := by
  unfold State.hostTake; (repeat' split) <;> simp (maxDischargeDepth := 40) [h]

@[simp] theorem apertureWrite_sound (off : Nat) (bytes : List Byte) {s : State} (h : s.sound = true) : (apertureWrite off bytes s).sound = true := by
  unfold apertureWrite; (repeat' split) <;> simp (maxDischargeDepth := 40) [h]

@[simp] theorem State.noteBad_sound {s : State} (h : s.sound = true) (off : Nat) : (State.noteBad s off).sound = true := by
  simp (maxDischargeDepth := 40) [State.noteBad, h]

@[simp] theorem State.badAnswer_sound {s : State} (h : s.sound = true) (off : Nat) (write : Bool) : (State.badAnswer s off write).sound = true := by
  simp (maxDischargeDepth := 40) [State.badAnswer, h]

@[simp] theorem snapshotWindowWrite_sound (off : Nat) (bytes : List Byte) {s : State} (h : s.sound = true) : (snapshotWindowWrite off bytes s).sound = true := by
  simp (maxDischargeDepth := 40) [snapshotWindowWrite, h]

@[simp] theorem sqWindowAccess_sound (off len : Nat) (wr : Option (List Byte)) {s : State} (h : s.sound = true) : (sqWindowAccess off len wr s).sound = true := by
  unfold sqWindowAccess; (repeat' split) <;> simp (maxDischargeDepth := 40) [h]

@[simp] theorem malformedTlp_sound {s : State} (h : s.sound = true) : (malformedTlp s).sound = true := by
  simp (maxDischargeDepth := 40) [malformedTlp, h]

@[simp] theorem State.dropHostDma_sound {s : State} (h : s.sound = true) : (State.dropHostDma s).sound = true := by
  simp (maxDischargeDepth := 40) [State.dropHostDma, h]

@[simp] theorem State.orphanLaunches_sound {s : State} (h : s.sound = true) : (State.orphanLaunches s).sound = true := by
  simp (maxDischargeDepth := 40) [State.orphanLaunches, h]

@[simp] theorem functionLevelReset_sound {s : State} (h : s.sound = true) : (functionLevelReset s).sound = true := by
  simp (maxDischargeDepth := 40) [functionLevelReset, h]

@[simp] theorem pcieLinkUp_sound (rate width : Nat) (flit : Bool) {s : State} (h : s.sound = true) : (pcieLinkUp rate width flit s).sound = true := by
  simp (maxDischargeDepth := 40) [pcieLinkUp, h]

@[simp] theorem pcieLinkDown_sound {s : State} (h : s.sound = true) : (pcieLinkDown s).sound = true := by
  simp (maxDischargeDepth := 40) [pcieLinkDown, h]

@[simp] theorem perstAssert_sound {s : State} (h : s.sound = true) : (perstAssert s).sound = true := by
  simp (maxDischargeDepth := 40) [perstAssert, h]

@[simp] theorem perstDeassert_sound {s : State} (h : s.sound = true) : (perstDeassert s).sound = true := by
  simp (maxDischargeDepth := 40) [perstDeassert, h]

@[simp] theorem irqSourcePending_sound (d src : Nat) {s : State} (h : s.sound = true) : (irqSourcePending d src s).sound = true := by
  simp (maxDischargeDepth := 40) [irqSourcePending, h]

@[simp] theorem irqClaim_sound (d c src : Nat) {s : State} (h : s.sound = true) : (irqClaim d c src s).sound = true := by
  simp (maxDischargeDepth := 40) [irqClaim, h]

@[simp] theorem claimRead_sound (rq : Requester) (d c : Nat) {s : State} (h : s.sound = true) : (claimRead rq d c s).sound = true := by
  unfold claimRead; (repeat' split) <;> simp (maxDischargeDepth := 40) [h]

@[simp] theorem eoiBad_sound (rq : Requester) (d a src : Nat) {s : State} (h : s.sound = true) : (eoiBad rq d a src s).sound = true := by
  simp (maxDischargeDepth := 40) [eoiBad, h]

@[simp] theorem irqEoi_sound (rq : Requester) (d c src : Nat) {s : State} (h : s.sound = true) : (irqEoi rq d c src s).sound = true := by
  simp (maxDischargeDepth := 40) [irqEoi, h]

@[simp] theorem hostEoi_sound (rq : Requester) (d src : Nat) {s : State} (h : s.sound = true) : (hostEoi rq d src s).sound = true := by
  simp (maxDischargeDepth := 40) [hostEoi, h]

@[simp] theorem irqPendWrite_sound (d k : Nat) (v : Word) {s : State} (h : s.sound = true) : (irqPendWrite d k v s).sound = true := by
  simp (maxDischargeDepth := 40) [irqPendWrite, h]

@[simp] theorem irqPclrWrite_sound (d k : Nat) (v : Word) {s : State} (h : s.sound = true) : (irqPclrWrite d k v s).sound = true := by
  unfold irqPclrWrite; (repeat' split) <;> simp (maxDischargeDepth := 40) +contextual [h]

@[simp] theorem irqHostMessage_sound (d src : Nat) {s : State} (h : s.sound = true) : (irqHostMessage d src s).sound = true := by
  simp (maxDischargeDepth := 40) [irqHostMessage, h]

@[simp] theorem moderate_sound (d : Nat) {s : State} (h : s.sound = true) (g : Nat) : (moderate d s g).sound = true := by
  simp (maxDischargeDepth := 40) [moderate, h]

@[simp] theorem clearCount_sound (d : Nat) {s : State} (h : s.sound = true) (g : Nat) : (clearCount d s g).sound = true := by
  simp (maxDischargeDepth := 40) [clearCount, h]

theorem insertTrig_length (x : Trig) (l : List Trig) : (insertTrig x l).length = l.length + 1 := by
  induction l with
  | nil => rfl
  | cons y r ih => unfold insertTrig; split <;> simp_all

theorem mergeTrig_length (x : Trig) (l : List Trig) : (mergeTrig x l).length = l.length := by
  induction l with
  | nil => rfl
  | cons y r ih => unfold mergeTrig; split <;> simp_all

@[simp] theorem State.queueTrig_sound {s : State} (h : s.sound = true) (x : Trig) : (State.queueTrig s x).sound = true := by
  unfold State.queueTrig
  split
  · exact h
  · extract_lets x' s'
    have h2 : s'.sound = true := by unfold s'; split <;> simp [h]
    split
    · exact State.modSnp_sound h2 (by dsimp only; rw [mergeTrig_length]; exact State.sound_snp h2)
    · split
      · rename_i hq
        exact State.modSnp_sound h2 (by dsimp only; rw [insertTrig_length]; exact hq)
      · exact State.eventLog_sound h2 _ _ _ _ _ _

@[simp] theorem State.raiseTrig_sound {s : State} (h : s.sound = true) (cls t : Nat) (flood : Bool) : (State.raiseTrig s cls t flood).sound = true := by
  simp (maxDischargeDepth := 40) [State.raiseTrig, h]

@[simp] theorem State.noteParent_sound {s : State} (h : s.sound = true) (m : Nat) : (State.noteParent s m).sound = true := by
  simp (maxDischargeDepth := 40) [State.noteParent, h]

@[simp] theorem State.takeMaster_sound {s : State} (h : s.sound = true) (m : Nat) : (State.takeMaster s m).sound = true := by
  simp (maxDischargeDepth := 40) [State.takeMaster, h]

@[simp] theorem holdover_sound {s : State} (h : s.sound = true) : (holdover s).sound = true := by
  unfold holdover; (repeat' split) <;> simp (maxDischargeDepth := 40) +contextual [h]

@[simp] theorem timeMasterLost_sound (src lowest : Nat) {s : State} (h : s.sound = true) : (timeMasterLost src lowest s).sound = true := by
  simp (maxDischargeDepth := 40) [timeMasterLost, h]

@[simp] theorem triggerFrame_sound (l : Nat) (f : TrigFrame) {s : State} (h : s.sound = true) : (triggerFrame l f s).sound = true := by
  simp (maxDischargeDepth := 40) [triggerFrame, h]

@[simp] theorem State.forwardWait_sound {s : State} (h : s.sound = true) : (State.forwardWait s).sound = true := by
  unfold State.forwardWait; (repeat' split) <;> simp (maxDischargeDepth := 40) [h]

@[simp] theorem State.readyForward_sound {s : State} (h : s.sound = true) : (State.readyForward s).sound = true := by
  unfold State.readyForward; (repeat' split) <;> simp (maxDischargeDepth := 40) [h]

@[simp] theorem memberReady_sound {s : State} (h : s.sound = true) : (memberReady s).sound = true := by
  simp (maxDischargeDepth := 40) [memberReady, h]

@[simp] theorem State.fixDecision_sound {s : State} (h : s.sound = true) (dec : Decision) (t : Token) : (State.fixDecision s dec t).sound = true := by
  simp (maxDischargeDepth := 40) [State.fixDecision, h]

@[simp] theorem State.firstReturned_sound {s : State} (h : s.sound = true) (t : Token) : (State.firstReturned s t).sound = true := by
  simp (maxDischargeDepth := 40) [State.firstReturned, h]

@[simp] theorem State.firstForward_sound {s : State} (h : s.sound = true) (t : Token) : (State.firstForward s t).sound = true := by
  simp (maxDischargeDepth := 40) [State.firstForward, h]

@[simp] theorem firstPassToken_sound (t : Token) {s : State} (h : s.sound = true) : (firstPassToken t s).sound = true := by
  unfold firstPassToken; dsimp only; (repeat' split) <;> simp (maxDischargeDepth := 40) +contextual [h]

@[simp] theorem State.takeDecision_sound {s : State} (h : s.sound = true) (dec : Decision) (step epoch att reason voter : Nat) (hold : Bool) : (State.takeDecision s dec step epoch att reason voter hold).sound = true := by
  simp (maxDischargeDepth := 40) [State.takeDecision, h]

@[simp] theorem secondPassToken_sound (t : Token) {s : State} (h : s.sound = true) : (secondPassToken t s).sound = true := by
  unfold secondPassToken; dsimp only; (repeat' split) <;> simp (maxDischargeDepth := 40) +contextual [h]

@[simp] theorem abortRequest_sound (c : CtrlMsg) {s : State} (h : s.sound = true) : (abortRequest c s).sound = true := by
  simp (maxDischargeDepth := 40) [abortRequest, h]

@[simp] theorem abortRequestTimeout_sound {s : State} (h : s.sound = true) : (abortRequestTimeout s).sound = true := by
  simp (maxDischargeDepth := 40) [abortRequestTimeout, h]

@[simp] theorem commitTimeout_sound {s : State} (h : s.sound = true) : (commitTimeout s).sound = true := by
  simp (maxDischargeDepth := 40) [commitTimeout, h]

@[simp] theorem State.sendMembers_sound {s : State} (h : s.sound = true) (c : CtrlMsg) : (State.sendMembers s c).sound = true := by
  unfold State.sendMembers; (repeat' split) <;> simp (maxDischargeDepth := 40) +contextual [h]

@[simp] theorem secondPassTimeout_sound {s : State} (h : s.sound = true) : (secondPassTimeout s).sound = true := by
  unfold secondPassTimeout; (repeat' split) <;> simp (maxDischargeDepth := 40) [h]

@[simp] theorem decisionQuery_sound (c : CtrlMsg) {s : State} (h : s.sound = true) : (decisionQuery c s).sound = true := by
  unfold decisionQuery; dsimp only; (repeat' split) <;> simp (maxDischargeDepth := 40) +contextual [h]

@[simp] theorem decisionReply_sound (c : CtrlMsg) {s : State} (h : s.sound = true) : (decisionReply c s).sound = true := by
  unfold decisionReply; (repeat' split) <;> simp (maxDischargeDepth := 40) [h]

@[simp] theorem groupHoldRelease_sound {s : State} (h : s.sound = true) : (groupHoldRelease s).sound = true := by
  simp (maxDischargeDepth := 40) [groupHoldRelease, h]

@[simp] theorem State.leaveHalt_sound {s : State} (h : s.sound = true) (due : Boundary) : (State.leaveHalt s due).sound = true := by
  simp (maxDischargeDepth := 40) [State.leaveHalt, h]

@[simp] theorem State.hostSkip_sound {s : State} (h : s.sound = true) : (State.hostSkip s).sound = true := by
  simp (maxDischargeDepth := 40) [State.hostSkip, h]

@[simp] theorem State.hostRepeat_sound {s : State} (h : s.sound = true) : (State.hostRepeat s).sound = true := by
  simp (maxDischargeDepth := 40) [State.hostRepeat, h]

@[simp] theorem decisionDirect_sound (c : CtrlMsg) {s : State} (h : s.sound = true) : (decisionDirect c s).sound = true := by
  unfold decisionDirect; (repeat' split) <;> simp (maxDischargeDepth := 40) [h]

@[simp] theorem stepDecideNone_sound (rq : Requester) {s : State} (h : s.sound = true) : (stepDecideNone rq s).sound = true := by
  simp (maxDischargeDepth := 40) [stepDecideNone, h]

@[simp] theorem stepDecideRepeat_sound (rq : Requester) {s : State} (h : s.sound = true) : (stepDecideRepeat rq s).sound = true := by
  simp (maxDischargeDepth := 40) [stepDecideRepeat, h]

@[simp] theorem stepDecideSkip_sound (rq : Requester) {s : State} (h : s.sound = true) : (stepDecideSkip rq s).sound = true := by
  simp (maxDischargeDepth := 40) [stepDecideSkip, h]

@[simp] theorem stepDecideStop_sound (rq : Requester) {s : State} (h : s.sound = true) : (stepDecideStop rq s).sound = true := by
  simp (maxDischargeDepth := 40) [stepDecideStop, h]

@[simp] theorem calReadStart_sound (k : Nat) {s : State} (h : s.sound = true) : (calReadStart k s).sound = true := by
  unfold calReadStart; (repeat' split) <;> simp (maxDischargeDepth := 40) [h]

@[simp] theorem calReadComplete_sound (k a : Nat) (codes : List Nat) (t : Word) {s : State} (h : s.sound = true) : (calReadComplete k a codes t s).sound = true := by
  simp (maxDischargeDepth := 40) [calReadComplete, h]

@[simp] theorem forcedRead_sound (k a : Nat) {s : State} (h : s.sound = true) : (forcedRead k a s).sound = true := by
  simp (maxDischargeDepth := 40) [forcedRead, h]

@[simp] theorem calStarved_sound (k a : Nat) {s : State} (h : s.sound = true) : (calStarved k a s).sound = true := by
  simp (maxDischargeDepth := 40) [calStarved, h]

@[simp] theorem State.estimateTriggers_sound {s : State} (h : s.sound = true) (k a : Nat) : (State.estimateTriggers s k a).sound = true := by
  unfold State.estimateTriggers; (repeat' split) <;> simp (maxDischargeDepth := 40) [h]

@[simp] theorem arrayFit_sound (k a : Nat) {s : State} (h : s.sound = true) : (arrayFit k a s).sound = true := by
  simp (maxDischargeDepth := 40) [arrayFit, h]

@[simp] theorem trimPublication_sound (k : Nat) {s : State} (h : s.sound = true) : (trimPublication k s).sound = true := by
  simp (maxDischargeDepth := 40) [trimPublication, h]

@[simp] theorem State.refuseProg_sound {s : State} (h : s.sound = true) (rq : Requester) (k cmd pos cause : Nat) : (State.refuseProg s rq k cmd pos cause).sound = true := by
  simp (maxDischargeDepth := 40) [State.refuseProg, h]

@[simp] theorem publishCmd_sound (rq : Requester) (k pos : Nat) {s : State} (h : s.sound = true) : (publishCmd rq k pos s).sound = true := by
  simp (maxDischargeDepth := 40) [publishCmd, h]

@[simp] theorem refreshCmd_sound (rq : Requester) (k pos : Nat) {s : State} (h : s.sound = true) : (refreshCmd rq k pos s).sound = true := by
  simp (maxDischargeDepth := 40) [refreshCmd, h]

@[simp] theorem State.markLoad_sound {s : State} (h : s.sound = true) (d p : Nat) : (State.markLoad s d p).sound = true := by
  simp (maxDischargeDepth := 40) [State.markLoad, h]

@[simp] theorem loadCmd_sound (rq : Requester) (k pos : Nat) {s : State} (h : s.sound = true) : (loadCmd rq k pos s).sound = true := by
  simp (maxDischargeDepth := 40) [loadCmd, h]

@[simp] theorem readbackCmd_sound (rq : Requester) (k pos : Nat) {s : State} (h : s.sound = true) : (readbackCmd rq k pos s).sound = true := by
  simp (maxDischargeDepth := 40) [readbackCmd, h]

@[simp] theorem readbackSegment_sound (k pos : Nat) (lv : List (Nat × Nat)) {s : State} (h : s.sound = true) : (readbackSegment k pos lv s).sound = true := by
  unfold readbackSegment; (repeat' split) <;> simp (maxDischargeDepth := 40) [h]

@[simp] theorem refreshAgeExpiry_sound (k pos : Nat) {s : State} (h : s.sound = true) : (refreshAgeExpiry k pos s).sound = true := by
  simp (maxDischargeDepth := 40) [refreshAgeExpiry, h]

@[simp] theorem progJobStart_sound (k : Nat) {s : State} (h : s.sound = true) : (progJobStart k s).sound = true := by
  unfold progJobStart; (repeat' split) <;> simp (maxDischargeDepth := 40) [h]

@[simp] theorem State.requeue_sound {s : State} (h : s.sound = true) (k t : Nat) (cls : Nat) : (State.requeue s k t cls).sound = true := by
  unfold State.requeue; (repeat' split) <;> simp (maxDischargeDepth := 40) [h]

@[simp] theorem State.retireSpare_sound {s : State} (h : s.sound = true) (k t slot : Nat) : (State.retireSpare s k t slot).sound = true := by
  simp (maxDischargeDepth := 40) [State.retireSpare, h]

@[simp] theorem State.rowLeft_sound {s : State} (h : s.sound = true) (k t : Nat) (run : RunJob) (rest : List Nat) (reads : RowReads) (y : PhysSt) : (State.rowLeft s k t run rest reads y).sound = true := by
  simp (maxDischargeDepth := 40) [State.rowLeft, h]

@[simp] theorem progRow_sound (k t : Nat) (reads : RowReads) {s : State} (h : s.sound = true) : (progRow k t reads s).sound = true := by
  unfold progRow; (repeat' split) <;> simp (maxDischargeDepth := 40) [h]

@[simp] theorem State.jobPass_sound {s : State} (h : s.sound = true) (k t : Nat) (run : RunJob) (x : PhysSt) : (State.jobPass s k t run x).sound = true := by
  simp (maxDischargeDepth := 40) [State.jobPass, h]

@[simp] theorem State.takeSpare_sound {s : State} (h : s.sound = true) (k t : Nat) (job : Job) : (State.takeSpare s k t job).sound = true := by
  unfold State.takeSpare; dsimp only; (repeat' split) <;> simp (maxDischargeDepth := 40) +contextual [h]

@[simp] theorem State.jobFail_sound {s : State} (h : s.sound = true) (k t : Nat) (run : RunJob) : (State.jobFail s k t run).sound = true := by
  simp (maxDischargeDepth := 40) [State.jobFail, h]

@[simp] theorem State.jobVerify_sound {s : State} (h : s.sound = true) (k t : Nat) (run : RunJob) (f : VerifyFit) (ends : List RowEnd) : (State.jobVerify s k t run f ends).sound = true := by
  unfold State.jobVerify; (repeat' split) <;> simp (maxDischargeDepth := 40) [h]

@[simp] theorem progJobComplete_sound (k t : Nat) (f : VerifyFit) (metaReads : List RowReads) {s : State} (h : s.sound = true) : (progJobComplete k t f metaReads s).sound = true := by
  unfold progJobComplete; (repeat' split) <;> simp (maxDischargeDepth := 40) [h]

@[simp] theorem sweepArray_sound (k a : Nat) (seen : Option SweepRead) (reads : List CalRead) {s : State} (h : s.sound = true) : (sweepArray k a seen reads s).sound = true := by
  unfold sweepArray; dsimp only; (repeat' split) <;> simp (maxDischargeDepth := 40) +contextual [h]

@[simp] theorem State.placeTile_sound {s : State} (h : s.sound = true) (k t : Nat) : (State.placeTile s k t).sound = true := by
  unfold State.placeTile; dsimp only
  have h1 : ∀ (s : State) (l : List Nat) (left : List Nat) (held : List (Option Nat)), s.sound = true → (l.foldl (fun (a : State × List Nat) i =>
      match held.getD i none with
      | some x => (a.1.setPos k (16 * t + i) { a.1.pos k (16 * t + i) with slot := some x, prev := none }, a.2)
      | none => (a.1.setPos k (16 * t + i) { a.1.pos k (16 * t + i) with slot := a.2.head?, prev := none }, a.2.drop 1)) (s, left)).1.sound = true :=
    fun s l left held hs => State.foldl_proj_sound (π := fun (a : State × List Nat) => a.1) hs (by intro a x ha; dsimp only; split <;> simp (maxDischargeDepth := 40) [ha])
  split
  · exact State.setTile_sound (h1 _ _ _ _ h) _ _ _
  · split
    · exact State.event_sound (State.retireSpare_sound (State.setTile_sound (h1 _ _ _ _ h) _ _ _) _ _ _) _ _
    · exact State.setTile_sound (h1 _ _ _ _ h) _ _ _

@[simp] theorem State.sweepPos_sound {s : State} (h : s.sound = true) (k pos : Nat) : (State.sweepPos s k pos).sound = true := by
  simp (maxDischargeDepth := 40) [State.sweepPos, h]

@[simp] theorem State.sweepEnd_sound {s : State} (h : s.sound = true) : (State.sweepEnd s).sound = true := by
  unfold State.sweepEnd; dsimp only
  refine State.foldl_sound (State.foldl_sound (State.foldl_sound (State.foldl_sound (State.foldl_sound h ?_) ?_) ?_) ?_) ?_
  all_goals (intro s x hs; (repeat' split) <;> simp (maxDischargeDepth := 40) [hs])

@[simp] theorem State.storeChunk_sound {s : State} (h : s.sound = true) (c seq chunk : Nat) (recs : List BlockRec) : (State.storeChunk s c seq chunk recs).sound = true := by
  simp (maxDischargeDepth := 40) [State.storeChunk, h]

@[simp] theorem ringMessage_sound (c : Nat) (m : RingMsg) {s : State} (h : s.sound = true) : (ringMessage c m s).sound = true := by
  simp (maxDischargeDepth := 40) [ringMessage, h]

@[simp] theorem reduceHopAdd_sound (c : Nat) {s : State} (h : s.sound = true) : (reduceHopAdd c s).sound = true := by
  unfold reduceHopAdd; dsimp only; (repeat' split) <;> simp (maxDischargeDepth := 40) +contextual [h]

@[simp] theorem bucketSend_sound (c : Nat) {s : State} (h : s.sound = true) : (bucketSend c s).sound = true := by
  unfold bucketSend; dsimp only; (repeat' split) <;> simp (maxDischargeDepth := 40) +contextual [h]

@[simp] theorem State.noteRec_sound {s : State} (h : s.sound = true) (r : BlockRec) : (State.noteRec s r).sound = true := by
  simp (maxDischargeDepth := 40) [State.noteRec, h]

@[simp] theorem bucketDeliver_sound (c : Nat) {s : State} (h : s.sound = true) : (bucketDeliver c s).sound = true := by
  unfold bucketDeliver; dsimp only; (repeat' split) <;> simp (maxDischargeDepth := 40) +contextual [h]

@[simp] theorem deadline_sound (c seq : Nat) {s : State} (h : s.sound = true) : (deadline c seq s).sound = true := by
  simp (maxDischargeDepth := 40) [deadline, h]

@[simp] theorem ringTimeout_sound (c seq : Nat) {s : State} (h : s.sound = true) : (ringTimeout c seq s).sound = true := by
  unfold ringTimeout; (repeat' split) <;> simp (maxDischargeDepth := 40) [h]

@[simp] theorem State.formGroup_sound {s : State} (h : s.sound = true) : (State.formGroup s).sound = true := by
  simp (maxDischargeDepth := 40) [State.formGroup, h]

@[simp] theorem form_sound (rq : Requester) (v : Word) {s : State} (h : s.sound = true) : (form rq v s).sound = true := by
  simp (maxDischargeDepth := 40) [form, h]

@[simp] theorem State.loadConfig_sound {s : State} (h : s.sound = true) (img : List Byte) (p : ImgPlain) : (State.loadConfig s img p).sound = true := by
  simp (maxDischargeDepth := 40) [State.loadConfig, h]

end Sys2Proof.Machine
end

