-- ==== Sys2Proof/Laws/SoundMore.lean ====
section
/-! SUPPORT. Every operation and every meaning keeps the invariant `State.sound`, continued. -/

set_option linter.unusedVariables false
set_option linter.unusedSimpArgs false
set_option linter.unreachableTactic false
set_option linter.unusedTactic false
set_option linter.unnecessarySeqFocus false

namespace Sys2Proof.Machine

@[simp] theorem State.loadHbm_sound {s : State} (h : s.sound = true) (img : List Byte) : (State.loadHbm s img).sound = true := by
  unfold State.loadHbm; (repeat' split) <;> simp (maxDischargeDepth := 40) +contextual [h]

@[simp] theorem State.loadFirmware_sound {s : State} (h : s.sound = true) (img : List Byte) : (State.loadFirmware s img).sound = true := by
  unfold State.loadFirmware; (repeat' split) <;> simp (maxDischargeDepth := 40) +contextual [h]

@[simp] theorem State.takeImage_sound {s : State} (h : s.sound = true) (img : List Byte) (p : ImgPlain) : (State.takeImage s img p).sound = true := by
  unfold State.takeImage; (repeat' split) <;> simp (maxDischargeDepth := 40) +contextual [h]

@[simp] theorem State.pwrEvent_sound {s : State} (h : s.sound = true) (i : Nat) : (State.pwrEvent s i).sound = true := by
  simp (maxDischargeDepth := 40) [State.pwrEvent, h]

@[simp] theorem State.pwrEventLog_sound {s : State} (h : s.sound = true) (i cause detail : Nat) : (State.pwrEventLog s i cause detail).sound = true := by
  simp (maxDischargeDepth := 40) [State.pwrEventLog, h]

@[simp] theorem State.switchTo_sound {s : State} (h : s.sound = true) (b : Bool) (cause : Nat) : (State.switchTo s b cause).sound = true := by
  simp (maxDischargeDepth := 40) [State.switchTo, h]

@[simp] theorem State.savePowered_sound {s : State} (h : s.sound = true) (ok : Bool) : (State.savePowered s ok).sound = true := by
  simp (maxDischargeDepth := 40) [State.savePowered, h]

@[simp] theorem State.loadPowered_sound {s : State} (h : s.sound = true) : (State.loadPowered s).sound = true := by
  simp (maxDischargeDepth := 40) [State.loadPowered, h]

@[simp] theorem State.powerOff_sound {s : State} (h : s.sound = true) (latched : Bool) : (State.powerOff s latched).sound = true := by
  rfl

@[simp] theorem State.corrected_sound {s : State} (h : s.sound = true) (raw : Int) : (State.corrected s raw).2.sound = true := by
  unfold State.corrected; dsimp only; (repeat' split) <;> simp (maxDischargeDepth := 40) +contextual [h]

@[simp] theorem State.smbAnswer_sound {s : State} (h : s.sound = true) (code : Nat) (data : List Byte) : (State.smbAnswer s code data).sound = true := by
  simp (maxDischargeDepth := 40) [State.smbAnswer, h]

@[simp] theorem inputGood_sound (b : Bool) {s : State} (h : s.sound = true) : (inputGood b s).sound = true := by
  simp (maxDischargeDepth := 40) [inputGood, h]

@[simp] theorem inputLoss_sound (b : Bool) {s : State} (h : s.sound = true) : (inputLoss b s).sound = true := by
  simp (maxDischargeDepth := 40) [inputLoss, h]

@[simp] theorem holdup_sound {s : State} (h : s.sound = true) : (holdup s).sound = true := by
  simp (maxDischargeDepth := 40) [holdup, h]

@[simp] theorem returnToA_sound {s : State} (h : s.sound = true) : (returnToA s).sound = true := by
  simp (maxDischargeDepth := 40) [returnToA, h]

@[simp] theorem selectInput_sound (rq : Requester) (b : Bool) {s : State} (h : s.sound = true) : (selectInput rq b s).sound = true := by
  simp (maxDischargeDepth := 40) [selectInput, h]

@[simp] theorem clearUnstable_sound {s : State} (h : s.sound = true) : (clearUnstable s).sound = true := by
  simp (maxDischargeDepth := 40) [clearUnstable, h]

@[simp] theorem supplyGood_sound (addr : Nat) {s : State} (h : s.sound = true) : (supplyGood addr s).sound = true := by
  simp (maxDischargeDepth := 40) [supplyGood, h]

@[simp] theorem State.hardwareFault_sound {s : State} (h : s.sound = true) (cause unit : Nat) : (State.hardwareFault s cause unit).sound = true := by
  simp (maxDischargeDepth := 40) [State.hardwareFault, h]

@[simp] theorem State.softResult_sound {s : State} (h : s.sound = true) (ch pos : Nat) (raw : Int) : (State.softResult s ch pos raw).sound = true := by
  simp (maxDischargeDepth := 40) [State.softResult, h]

@[simp] theorem State.trip_sound {s : State} (h : s.sound = true) (ch pos : Nat) : (State.trip s ch pos).sound = true := by
  unfold State.trip; (repeat' split) <;> simp (maxDischargeDepth := 40) +contextual [h]

@[simp] theorem State.checkTrip_sound {s : State} (h : s.sound = true) (ch pos : Nat) (n : Int) : (State.checkTrip s ch pos n).sound = true := by
  unfold State.checkTrip; (repeat' split) <;> simp (maxDischargeDepth := 40) [h]

@[simp] theorem State.coolantWarn_sound {s : State} (h : s.sound = true) : (State.coolantWarn s).sound = true := by
  simp (maxDischargeDepth := 40) [State.coolantWarn, h]

@[simp] theorem State.bridgeScale_sound {s : State} (h : s.sound = true) (ch : Nat) (raw : Int) : (State.bridgeScale s ch raw).sound = true := by
  simp (maxDischargeDepth := 40) [State.bridgeScale, h]

@[simp] theorem State.scanResult_sound {s : State} (h : s.sound = true) (raw : Int) : (State.scanResult s raw).sound = true := by
  simp (maxDischargeDepth := 40) [State.scanResult, h]

@[simp] theorem hkaConversion_sound (raw : Int) {s : State} (h : s.sound = true) : (hkaConversion raw s).sound = true := by
  unfold hkaConversion; (repeat' split) <;> simp (maxDischargeDepth := 40) [h]

@[simp] theorem sensorFault_sound (ch : Nat) {s : State} (h : s.sound = true) : (sensorFault ch s).sound = true := by
  simp (maxDischargeDepth := 40) [sensorFault, h]

@[simp] theorem hkaConvWrite_sound (v : Word) {s : State} (h : s.sound = true) : (hkaConvWrite v s).sound = true := by
  simp (maxDischargeDepth := 40) [hkaConvWrite, h]

@[simp] theorem hkaDataRead_sound (rq : Requester) {s : State} (h : s.sound = true) : (hkaDataRead rq s).sound = true := by
  simp (maxDischargeDepth := 40) [hkaDataRead, h]

@[simp] theorem State.powerLoop_sound {s : State} (h : s.sound = true) : (State.powerLoop s).sound = true := by
  simp (maxDischargeDepth := 40) [State.powerLoop, h]

@[simp] theorem State.kaolinLoop_sound {s : State} (h : s.sound = true) (k : Nat) : (State.kaolinLoop s k).sound = true := by
  simp (maxDischargeDepth := 40) [State.kaolinLoop, h]

@[simp] theorem State.damaskLoop_sound {s : State} (h : s.sound = true) (d : Nat) : (State.damaskLoop s d).sound = true := by
  simp (maxDischargeDepth := 40) [State.damaskLoop, h]

@[simp] theorem State.pwmUpdate_sound {s : State} (h : s.sound = true) : (State.pwmUpdate s).sound = true := by
  unfold State.pwmUpdate; (repeat' split) <;> simp (maxDischargeDepth := 40) +contextual [h]

@[simp] theorem governorLoop_sound {s : State} (h : s.sound = true) : (governorLoop s).sound = true := by
  unfold governorLoop; (repeat' split) <;> simp (maxDischargeDepth := 40) +contextual [h]

@[simp] theorem State.imageFault_sound {s : State} (h : s.sound = true) (cause index : Nat) : (State.imageFault s cause index).sound = true := by
  simp (maxDischargeDepth := 40) [State.imageFault, h]

@[simp] theorem State.toStage_sound {s : State} (h : s.sound = true) (k : Nat) : (State.toStage s k).sound = true := by
  simp (maxDischargeDepth := 40) [State.toStage, h]

@[simp] theorem romStage_sound {s : State} (h : s.sound = true) : (romStage s).sound = true := by
  simp (maxDischargeDepth := 40) [romStage, h]

@[simp] theorem State.attLost_sound {s : State} (h : s.sound = true) (cause : Nat) : (State.attLost s cause).sound = true := by
  simp (maxDischargeDepth := 40) [State.attLost, h]

@[simp] theorem identityStage_sound (seen : Option (List Byte × List Byte)) (finger : List Byte) {s : State} (h : s.sound = true) : (identityStage seen finger s).sound = true := by
  simp (maxDischargeDepth := 40) [identityStage, h]

@[simp] theorem State.formSecret_sound {s : State} (h : s.sound = true) (a b : List Byte) : (State.formSecret s a b).sound = true := by
  unfold State.formSecret; (repeat' split) <;> simp (maxDischargeDepth := 40) [h]

@[simp] theorem imageStage_sound (image : List Byte) (dev : FlashSeen) {s : State} (h : s.sound = true) : (imageStage image dev s).sound = true := by
  unfold imageStage
  split
  · exact h
  · dsimp only
    generalize hx : State.formSecret _ _ _ = x
    have hs : x.sound = true := by subst hx; simp (maxDischargeDepth := 40) [h]
    clear hx
    split <;> simp (maxDischargeDepth := 40) [hs]

@[simp] theorem verifyStage_sound (p : ImgPlain) {s : State} (h : s.sound = true) : (verifyStage p s).sound = true := by
  unfold verifyStage; (repeat' split) <;> simp (maxDischargeDepth := 40) [h]

@[simp] theorem State.takeQuiet_sound {s : State} (h : s.sound = true) : (State.takeQuiet s).sound = true := by
  unfold State.takeQuiet; (repeat' split) <;> simp (maxDischargeDepth := 40) +contextual [h]

@[simp] theorem State.stageDone_sound {s : State} (h : s.sound = true) : (State.stageDone s).sound = true := by
  simp (maxDischargeDepth := 40) [State.stageDone, h]

@[simp] theorem recordsStage_sound {s : State} (h : s.sound = true) : (recordsStage s).sound = true := by
  simp (maxDischargeDepth := 40) [recordsStage, h]

@[simp] theorem State.startFail_sound {s : State} (h : s.sound = true) (f : StartFail) : (State.startFail s f).sound = true := by
  unfold State.startFail; (repeat' split) <;> simp (maxDischargeDepth := 40) [h]

@[simp] theorem hbmStage_sound (failed : Option StartFail) {s : State} (h : s.sound = true) : (hbmStage failed s).sound = true := by
  unfold hbmStage; (repeat' split) <;> simp (maxDischargeDepth := 40) [h]

@[simp] theorem linksStage_sound {s : State} (h : s.sound = true) : (linksStage s).sound = true := by
  simp (maxDischargeDepth := 40) [linksStage, h]

@[simp] theorem finalStage_sound (ms : Nat) {s : State} (h : s.sound = true) : (finalStage ms s).sound = true := by
  simp (maxDischargeDepth := 40) [finalStage, h]

@[simp] theorem State.imgCommand_sound {s : State} (h : s.sound = true) (rq : Requester) (c : Nat) (ok : Bool) : (State.imgCommand s rq c ok).sound = true := by
  simp (maxDischargeDepth := 40) [State.imgCommand, h]

@[simp] theorem bootPushed_sound (rq : Requester) {s : State} (h : s.sound = true) : (bootPushed rq s).sound = true := by
  simp (maxDischargeDepth := 40) [bootPushed, h]

@[simp] theorem verifyPushed_sound (rq : Requester) {s : State} (h : s.sound = true) : (verifyPushed rq s).sound = true := by
  simp (maxDischargeDepth := 40) [verifyPushed, h]

@[simp] theorem writeImage_sound (rq : Requester) {s : State} (h : s.sound = true) : (writeImage rq s).sound = true := by
  simp (maxDischargeDepth := 40) [writeImage, h]

@[simp] theorem State.flashEnd_sound {s : State} (h : s.sound = true) (res : Nat) : (State.flashEnd s res).sound = true := by
  simp (maxDischargeDepth := 40) [State.flashEnd, h]

@[simp] theorem State.programSector_sound {s : State} (h : s.sound = true) (i : Nat) (again : Bool) : (State.programSector s i again).sound = true := by
  simp (maxDischargeDepth := 40) [State.programSector, h]

@[simp] theorem State.eraseArea_sound {s : State} (h : s.sound = true) : (State.eraseArea s).sound = true := by
  unfold State.eraseArea; (repeat' split) <;> simp (maxDischargeDepth := 40) +contextual [h]

@[simp] theorem pushedImageVerified_sound (p : ImgPlain) {s : State} (h : s.sound = true) : (pushedImageVerified p s).sound = true := by
  unfold pushedImageVerified; (repeat' split) <;> simp (maxDischargeDepth := 40) [h]

@[simp] theorem sectorProgram_sound (back : List Byte) {s : State} (h : s.sound = true) : (sectorProgram back s).sound = true := by
  unfold sectorProgram; (repeat' split) <;> simp (maxDischargeDepth := 40) [h]

@[simp] theorem leafReservation_sound (first second : Bool) {s : State} (h : s.sound = true) : (leafReservation first second s).sound = true := by
  unfold leafReservation; dsimp only; (repeat' split) <;> simp (maxDischargeDepth := 40) +contextual [h]

@[simp] theorem attestationKeyBuild_sound (treeId : List Byte) {s : State} (h : s.sound = true) : (attestationKeyBuild treeId s).sound = true := by
  unfold attestationKeyBuild; (repeat' split) <;> simp (maxDischargeDepth := 40) [h]

@[simp] theorem attRequest_sound (rq : Requester) (v : Word) {s : State} (h : s.sound = true) : (attRequest rq v s).sound = true := by
  simp (maxDischargeDepth := 40) [attRequest, h]

@[simp] theorem reportSigned_sound {s : State} (h : s.sound = true) : (reportSigned s).sound = true := by
  unfold reportSigned; (repeat' split) <;> simp (maxDischargeDepth := 40) [h]

@[simp] theorem snpTrigFire_sound (rq : Requester) (v : Word) {s : State} (h : s.sound = true) : (snpTrigFire rq v s).sound = true := by
  simp (maxDischargeDepth := 40) [snpTrigFire, h]

@[simp] theorem State.setBank_sound {s : State} (h : s.sound = true) (b : Nat) (x : Bank) : (State.setBank s b x).sound = true := by
  simp (maxDischargeDepth := 40) [State.setBank, h]

@[simp] theorem capture_sound (lat : List Nat) {s : State} (h : s.sound = true) : (capture lat s).sound = true := by
  unfold capture
  split
  · exact h
  · rename_i t rest hq
    split
    · exact h
    · have hr : rest.length ≤ 8 := by have := State.sound_snp h; rw [hq] at this; simp at this; omega
      have h2 : ((s.modSnp (fun p => { p with queue := rest })).setRegN R.SNP_SEQ (((s.reg R.SNP_SEQ).toNat + 1) % 2 ^ 32)).sound = true :=
        State.setRegN_sound (State.modSnp_sound h hr) _ _
      dsimp only
      split
      · exact State.eventLog_sound (State.incReg_sound h2 _ _) _ _ _ _ _ _
      · have h3 : ∀ b x, ((((s.modSnp (fun p => { p with queue := rest })).setRegN R.SNP_SEQ (((s.reg R.SNP_SEQ).toNat + 1) % 2 ^ 32)).setBank b x)).sound = true :=
          fun b x => State.setBank_sound h2 b x
        refine State.modSnp_sound (State.modSnp_sound (h3 _ _) ?_) ?_
        · (repeat' split) <;> exact State.sound_snp (h3 _ _)
        · refine State.sound_snp (State.modSnp_sound (h3 _ _) ?_)
          (repeat' split) <;> exact State.sound_snp (h3 _ _)

@[simp] theorem State.freeView_sound {s : State} (h : s.sound = true) : (State.freeView s).sound = true := by
  simp (maxDischargeDepth := 40) [State.freeView, h]

@[simp] theorem State.snpOff_sound {s : State} (h : s.sound = true) : (State.snpOff s).sound = true := by
  simp (maxDischargeDepth := 40) [State.snpOff, h]

@[simp] theorem State.ringWrite_sound {s : State} (h : s.sound = true) (o : Nat) (bs : List Byte) : (State.ringWrite s o bs).sound = true := by
  simp (maxDischargeDepth := 40) [State.ringWrite, h]

@[simp] theorem drain_sound {s : State} (h : s.sound = true) : (drain s).sound = true := by
  unfold drain; (repeat' split) <;> simp (maxDischargeDepth := 40) [h]

@[simp] theorem snpRingSizeWrite_sound (rq : Requester) (v : Word) {s : State} (h : s.sound = true) : (snpRingSizeWrite rq v s).sound = true := by
  simp (maxDischargeDepth := 40) [snpRingSizeWrite, h]

@[simp] theorem State.reroute_sound (m : Nat) {s : State} (h : s.sound = true) (f : Frame) : (State.reroute m s f).sound = true := by
  unfold State.reroute; (repeat' split) <;> simp (maxDischargeDepth := 40) [h]

@[simp] theorem removeLink_sound (l : Nat) {s : State} (h : s.sound = true) : (removeLink l s).sound = true := by
  have h1 : ∀ (m : Nat) (fs : List Frame) (s : State), s.sound = true → (fs.foldl (State.reroute m) s).sound = true :=
    fun m fs s hs => State.foldl_sound hs (fun s x hs => State.reroute_sound m hs x)
  unfold removeLink; dsimp only
  split
  · exact h
  · refine State.ite_sound (fun _ => State.findAbort_sound (State.eventLog_sound (State.ite_sound (fun _ => State.sendCtrl_sound (h1 _ _ _ ?_) _ _ _) (fun _ => h1 _ _ _ ?_)) _ _ _ _ _ _) _ _ _ _) (fun _ => State.eventLog_sound (State.ite_sound (fun _ => State.sendCtrl_sound (h1 _ _ _ ?_) _ _ _) (fun _ => h1 _ _ _ ?_)) _ _ _ _ _ _) <;> simp (maxDischargeDepth := 40) [h]

@[simp] theorem enterRetrain_sound (l : Nat) {s : State} (h : s.sound = true) : (enterRetrain l s).sound = true := by
  unfold enterRetrain; (repeat' split) <;> simp (maxDischargeDepth := 40) +contextual [h]

@[simp] theorem linkSilence_sound (l : Nat) {s : State} (h : s.sound = true) : (linkSilence l s).sound = true := by
  simp (maxDischargeDepth := 40) [linkSilence, h]

@[simp] theorem retrainThreshold_sound (l : Nat) {s : State} (h : s.sound = true) : (retrainThreshold l s).sound = true := by
  simp (maxDischargeDepth := 40) [retrainThreshold, h]

@[simp] theorem removeThreshold_sound (l : Nat) {s : State} (h : s.sound = true) : (removeThreshold l s).sound = true := by
  simp (maxDischargeDepth := 40) [removeThreshold, h]

@[simp] theorem State.replayFrom_sound {s : State} (h : s.sound = true) (l seq : Nat) : (State.replayFrom s l seq).sound = true := by
  unfold State.replayFrom; (repeat' split) <;> simp (maxDischargeDepth := 40) +contextual [h]

@[simp] theorem retrainAttempt_sound (l : Nat) (ok : Bool) (ack : Nat) {s : State} (h : s.sound = true) : (retrainAttempt l ok ack s).sound = true := by
  unfold retrainAttempt; dsimp only; (repeat' split) <;> simp (maxDischargeDepth := 40) +contextual [h]

@[simp] theorem linkTraining_sound (l : Nat) (r : TrainResult) {s : State} (h : s.sound = true) : (linkTraining l r s).sound = true := by
  unfold linkTraining; (repeat' split) <;> simp (maxDischargeDepth := 40) [h]

@[simp] theorem ezlRefuse_sound (rq : Requester) (cmd l : Nat) {s : State} (h : s.sound = true) : (ezlRefuse rq cmd l s).sound = true := by
  simp (maxDischargeDepth := 40) [ezlRefuse, h]

@[simp] theorem cmdRetrain_sound (rq : Requester) (l : Nat) {s : State} (h : s.sound = true) : (cmdRetrain rq l s).sound = true := by
  simp (maxDischargeDepth := 40) [cmdRetrain, h]

@[simp] theorem cmdRemove_sound (rq : Requester) (l : Nat) {s : State} (h : s.sound = true) : (cmdRemove rq l s).sound = true := by
  simp (maxDischargeDepth := 40) [cmdRemove, h]

@[simp] theorem cmdRestore_sound (rq : Requester) (l : Nat) {s : State} (h : s.sound = true) : (cmdRestore rq l s).sound = true := by
  simp (maxDischargeDepth := 40) [cmdRestore, h]

@[simp] theorem linkDown_sound (src l : Nat) {s : State} (h : s.sound = true) : (linkDown src l s).sound = true := by
  unfold linkDown; dsimp only; (repeat' split) <;> simp (maxDischargeDepth := 40) +contextual [h]

@[simp] theorem State.sendNak_sound {s : State} (h : s.sound = true) (l reason seq : Nat) : (State.sendNak s l reason seq).sound = true := by
  simp (maxDischargeDepth := 40) [State.sendNak, h]

@[simp] theorem State.flitNews_sound {s : State} (hS : s.sound = true) (l : Nat) (h : FlitHdr) : (State.flitNews s l h).sound = true := by
  simp (maxDischargeDepth := 40) [State.flitNews, hS]

@[simp] theorem State.frameDone_sound {s : State} (h : s.sound = true) (l : Nat) (f : Frame) : (State.frameDone s l f).sound = true := by
  simp (maxDischargeDepth := 40) [State.frameDone, h]

@[simp] theorem State.flitAccept_sound {s : State} (hS : s.sound = true) (l : Nat) (h : FlitHdr) (pay : List Byte) : (State.flitAccept s l h pay).sound = true := by
  unfold State.flitAccept; (repeat' split) <;> simp (maxDischargeDepth := 40) [hS]

@[simp] theorem State.ackOwed_sound {s : State} (h : s.sound = true) (l : Nat) : (State.ackOwed s l).sound = true := by
  simp (maxDischargeDepth := 40) [State.ackOwed, h]

@[simp] theorem flitReceive_sound (l : Nat) (bytes : List Byte) {s : State} (h : s.sound = true) : (flitReceive l bytes s).sound = true := by
  simp (maxDischargeDepth := 40) [flitReceive, h]

@[simp] theorem nakRepeat_sound (l : Nat) {s : State} (h : s.sound = true) : (nakRepeat l s).sound = true := by
  unfold nakRepeat; (repeat' split) <;> simp (maxDischargeDepth := 40) [h]

@[simp] theorem State.writeLog_sound {s : State} (h : s.sound = true) (e : LogEnt) : (State.writeLog s e).sound = true := by
  unfold State.writeLog; dsimp only; (repeat' split) <;> simp (maxDischargeDepth := 40) +contextual [h]

@[simp] theorem State.classEntry_sound {s : State} (h : s.sound = true) (c : Nat) : (State.classEntry s c).sound = true := by
  simp (maxDischargeDepth := 40) [State.classEntry, h]

@[simp] theorem errorLogWrite_sound {s : State} (h : s.sound = true) : (errorLogWrite s).sound = true := by
  unfold errorLogWrite
  split
  · exact h
  · rename_i e rest he
    have h2 : (s.modErr (fun q => { q with queue := rest })).sound = true := by
      have := State.sound_err h; rw [he] at this; simp only [List.length_cons] at this
      exact State.modErr_sound h (by dsimp only; omega)
    simp [h2]

@[simp] theorem State.chkForeign_sound {s : State} (h : s.sound = true) : (State.chkForeign s).sound = true := by
  simp (maxDischargeDepth := 40) [State.chkForeign, h]

@[simp] theorem State.chkOwned_sound {s : State} (h : s.sound = true) (rq : Requester) (u : Nat) (f : ChkUnit → ChkUnit) : (State.chkOwned s rq u f).sound = true := by
  simp (maxDischargeDepth := 40) [State.chkOwned, h]

@[simp] theorem chkClaim_sound (rq : Requester) (u len : Nat) {s : State} (h : s.sound = true) : (chkClaim rq u len s).sound = true := by
  simp (maxDischargeDepth := 40) [chkClaim, h]

@[simp] theorem chkRelease_sound (rq : Requester) (u len : Nat) {s : State} (h : s.sound = true) : (chkRelease rq u len s).sound = true := by
  simp (maxDischargeDepth := 40) [chkRelease, h]

@[simp] theorem chkInit_sound (rq : Requester) (u len : Nat) {s : State} (h : s.sound = true) : (chkInit rq u len s).sound = true := by
  simp (maxDischargeDepth := 40) [chkInit, h]

@[simp] theorem chkDataWrite_sound (rq : Requester) (u : Nat) (v : Word) {s : State} (h : s.sound = true) : (chkDataWrite rq u v s).sound = true := by
  simp (maxDischargeDepth := 40) [chkDataWrite, h]

@[simp] theorem chkValueWrite_sound (rq : Requester) (u : Nat) (v : Word) {s : State} (h : s.sound = true) : (chkValueWrite rq u v s).sound = true := by
  simp (maxDischargeDepth := 40) [chkValueWrite, h]

@[simp] theorem State.writeNew_sound {s : State} (h : s.sound = true) (o : Nat) (bs : List Byte) : (State.writeNew s o bs).sound = true := by
  refine State.sound_same h ?_ rfl rfl
  unfold State.writeNew MemSt.setCopy; simp only [State.modMem]; split <;> rfl

@[simp] theorem State.writeBlock_sound {s : State} (h : s.sound = true) (base : Nat) (e : StateEnt) (blk : Nat) (w m v : Nat → Option Word) (r : Nat → Option Byte) (sc : Nat) : (State.writeBlock s base e blk w m v r sc).sound = true := by
  simp (maxDischargeDepth := 40) [State.writeBlock, h]

@[simp] theorem State.storeBlock_sound {s : State} (h : s.sound = true) (d : Nat) (base : Nat) (e : StateEnt) (x : BlkIn) (l : List (Nat × ElemRes × Word)) : (State.storeBlock s d base e x l).sound = true := by
  simp (maxDischargeDepth := 40) [State.storeBlock, h]

@[simp] theorem State.keepBlock_sound {s : State} (h : s.sound = true) (d : Nat) (base : Nat) (e : StateEnt) (x : BlkIn) : (State.keepBlock s d base e x).sound = true := by
  simp (maxDischargeDepth := 40) [State.keepBlock, h]

@[simp] theorem State.stopUpdates_sound {s : State} (h : s.sound = true) (d : Nat) : (State.stopUpdates s d).sound = true := by
  simp (maxDischargeDepth := 40) [State.stopUpdates, h]

@[simp] theorem State.countBlock_sound {s : State} (h : s.sound = true) (d : Nat) (e : StateEnt) (x : BlkIn) : (State.countBlock s d e x).sound = true := by
  simp (maxDischargeDepth := 40) [State.countBlock, h]

@[simp] theorem State.badBlock_sound {s : State} (h : s.sound = true) (d base : Nat) (e : StateEnt) (x : BlkIn) (l : List (Nat × ElemRes × Word)) : (State.badBlock s d base e x l).sound = true := by
  simp (maxDischargeDepth := 40) [State.badBlock, h]

@[simp] theorem State.updateBlock_sound {s : State} (h : s.sound = true) (d base : Nat) (e : StateEnt) (k : StepConst) (x : BlkIn) : (State.updateBlock s d base e k x).sound = true := by
  simp (maxDischargeDepth := 40) [State.updateBlock, h]

@[simp] theorem State.bucketTaken_sound {s : State} (h : s.sound = true) (c seq : Nat) : (State.bucketTaken s c seq).sound = true := by
  simp (maxDischargeDepth := 40) [State.bucketTaken, h]

@[simp] theorem blockAccept_sound (d : Nat) {s : State} (h : s.sound = true) : (blockAccept d s).sound = true := by
  unfold blockAccept; (repeat' split) <;> simp (maxDischargeDepth := 40) [h]

@[simp] theorem blockUpdate_sound (d : Nat) {s : State} (h : s.sound = true) : (blockUpdate d s).sound = true := by
  unfold blockUpdate; dsimp only; (repeat' split) <;> simp (maxDischargeDepth := 40) +contextual [h]

@[simp] theorem updateComplete_sound (d : Nat) {s : State} (h : s.sound = true) : (updateComplete d s).sound = true := by
  simp (maxDischargeDepth := 40) [updateComplete, h]

@[simp] theorem projectionStart_sound (d : Nat) {s : State} (h : s.sound = true) : (projectionStart d s).sound = true := by
  unfold projectionStart; (repeat' split) <;> simp (maxDischargeDepth := 40) [h]

@[simp] theorem State.rescale_sound {s : State} (h : s.sound = true) (base : Nat) (e : StateEnt) (m : MatEnt) (cb : Nat) : (State.rescale s base e m cb).sound = true := by
  unfold State.rescale; (repeat' split) <;> simp (maxDischargeDepth := 40) +contextual [h]

@[simp] theorem State.projectCells_sound {s : State} (h : s.sound = true) (d : Nat) (base : Nat) (e : StateEnt) (m : MatEnt) (cb rb : Nat) (thr : Option Word) :
    (State.projectCells s d base e m cb rb thr).1.sound = true := by
  unfold State.projectCells
  refine State.foldl_proj_sound (π := fun (a : State × List Nat) => a.1) h (fun a x ha => ?_)
  dsimp only
  split <;> simp (maxDischargeDepth := 40) +contextual [ha]

@[simp] theorem State.advanceArray_sound {s : State} (h : s.sound = true) (k p a step : Nat) : (State.advanceArray s k p a step).sound = true := by
  unfold State.advanceArray; dsimp only; (repeat' split) <;> simp (maxDischargeDepth := 40) +contextual [h]

@[simp] theorem State.projectedPos_sound {s : State} (h : s.sound = true) (k p : Nat) (run : ProjRun) (chg : List Nat) : (State.projectedPos s k p run chg).sound = true := by
  unfold State.projectedPos; dsimp only; (repeat' split) <;> simp (maxDischargeDepth := 40) +contextual [h]

@[simp] theorem State.projectEntry_sound {s : State} (h : s.sound = true) (d : Nat) (run : ProjRun) (base : Nat) (e : StateEnt) : (State.projectEntry s d run base e).sound = true := by
  unfold State.projectEntry; (repeat' split) <;> simp (maxDischargeDepth := 40) +contextual [h]

@[simp] theorem State.projectDie_sound {s : State} (h : s.sound = true) (d : Nat) (run : ProjRun) : (State.projectDie s d run).sound = true := by
  unfold State.projectDie; (repeat' split) <;> simp (maxDischargeDepth := 40) +contextual [h]

@[simp] theorem projectionDone_sound (d : Nat) {s : State} (h : s.sound = true) : (projectionDone d s).sound = true := by
  unfold projectionDone; dsimp only
  split
  · exact h
  · exact State.foldl_sound (by simp (maxDischargeDepth := 40) [h]) (fun s x hs => State.holdOrWrite_sound hs _ _)

@[simp] theorem projectCmd_sound (rq : Requester) (hyst : Bool) {s : State} (h : s.sound = true) : (projectCmd rq hyst s).sound = true := by
  simp (maxDischargeDepth := 40) [projectCmd, h]

@[simp] theorem schedDataAccess_sound (rq : Requester) (wr : Option Word) {s : State} (h : s.sound = true) : (schedDataAccess rq wr s).sound = true := by
  unfold schedDataAccess; (repeat' split) <;> simp (maxDischargeDepth := 40) [h]

@[simp] theorem stepSizeWrite_sound (rq : Requester) (v : Word) {s : State} (h : s.sound = true) : (stepSizeWrite rq v s).sound = true := by
  simp (maxDischargeDepth := 40) [stepSizeWrite, h]

@[simp] theorem State.rowWrite_sound {s : State} (h : s.sound = true) (rq : Requester) (a off : Nat) (r : RegRow) (v : Word) : (State.rowWrite s rq a off r v).sound = true := by
  unfold State.rowWrite; (repeat' split) <;> simp (maxDischargeDepth := 40) [h]

@[simp] theorem State.badWrite_sound {s : State} (h : s.sound = true) (rq : Requester) (a : Nat) (v : Word) : (State.badWrite s rq a v).sound = true := by
  simp (maxDischargeDepth := 40) [State.badWrite, h]

@[simp] theorem State.queueBase_sound {s : State} (h : s.sound = true) (rq : Requester) (off : Nat) (v : Word) : (State.queueBase s rq off v).sound = true := by
  simp (maxDischargeDepth := 40) [State.queueBase, h]

@[simp] theorem State.notePwm_sound {s : State} (h : s.sound = true) (b : Blk) (off : Nat) : (State.notePwm s b off).sound = true := by
  simp (maxDischargeDepth := 40) [State.notePwm, h]

@[simp] theorem State.noteCtrl_sound {s : State} (h : s.sound = true) (b : Blk) (off : Nat) : (State.noteCtrl s b off).sound = true := by
  unfold State.noteCtrl; (repeat' split) <;> simp (maxDischargeDepth := 40) [h]

@[simp] theorem State.ezlCtrl_sound {s : State} (h : s.sound = true) (v : Word) : (State.ezlCtrl s v).sound = true := by
  unfold State.ezlCtrl; (repeat' split) <;> simp (maxDischargeDepth := 40) +contextual [h]

theorem State.writeHif_sound {s t : State} (hs : s.sound = true) {rq : Requester} {off : Nat} {v : Word} (h : s.writeHif rq off v = some t) : t.sound = true := by
  unfold State.writeHif at h; try dsimp only at h
  (repeat' split at h) <;> first | (simp at h; done) | (injection h with h; subst h; (repeat' split) <;> simp (maxDischargeDepth := 40) +contextual [hs])

theorem State.writeIrq_sound {s t : State} (hs : s.sound = true) {rq : Requester} {d off : Nat} {v : Word} (h : s.writeIrq rq d off v = some t) : t.sound = true := by
  unfold State.writeIrq at h; try dsimp only at h
  (repeat' split at h) <;> first | (simp at h; done) | (injection h with h; subst h; (repeat' split) <;> simp (maxDischargeDepth := 40) +contextual [hs])

theorem State.writePwr_sound {s t : State} (hs : s.sound = true) {rq : Requester} {off : Nat} {v : Word} (h : s.writePwr rq off v = some t) : t.sound = true := by
  unfold State.writePwr at h; try dsimp only at h
  (repeat' split at h) <;> first | (simp at h; done) | (injection h with h; subst h; (repeat' split) <;> simp (maxDischargeDepth := 40) +contextual [hs])

theorem State.writeSnp_sound {s t : State} (hs : s.sound = true) {rq : Requester} {off : Nat} {v : Word} (h : s.writeSnp rq off v = some t) : t.sound = true := by
  unfold State.writeSnp at h; try dsimp only at h
  (repeat' split at h) <;> first | (simp at h; done) | (injection h with h; subst h; (repeat' split) <;> simp (maxDischargeDepth := 40) +contextual [hs])

theorem State.writeChk_sound {s t : State} (hs : s.sound = true) {rq : Requester} {off : Nat} {v : Word} (h : s.writeChk rq off v = some t) : t.sound = true := by
  unfold State.writeChk at h; try dsimp only at h
  (repeat' split at h) <;> first | (simp at h; done) | (injection h with h; subst h; (repeat' split) <;> simp (maxDischargeDepth := 40) +contextual [hs])

theorem State.writeImg_sound {s t : State} (hs : s.sound = true) {rq : Requester} {off : Nat} {v : Word} (h : s.writeImg rq off v = some t) : t.sound = true := by
  unfold State.writeImg at h; try dsimp only at h
  (repeat' split at h) <;> first | (simp at h; done) | (injection h with h; subst h; (repeat' split) <;> simp (maxDischargeDepth := 40) +contextual [hs])

theorem State.writeTsk_sound {s t : State} (hs : s.sound = true) {rq : Requester} {off : Nat} {v : Word} (h : s.writeTsk rq off v = some t) : t.sound = true := by
  unfold State.writeTsk at h; try dsimp only at h
  (repeat' split at h) <;> first | (simp at h; done) | (injection h with h; subst h; (repeat' split) <;> simp (maxDischargeDepth := 40) +contextual [hs])

theorem State.writeUpd_sound {s t : State} (hs : s.sound = true) {rq : Requester} {off : Nat} {v : Word} (h : s.writeUpd rq off v = some t) : t.sound = true := by
  unfold State.writeUpd at h; try dsimp only at h
  (repeat' split at h) <;> first | (simp at h; done) | (injection h with h; subst h; (repeat' split) <;> simp (maxDischargeDepth := 40) +contextual [hs])

theorem State.writeRed_sound {s t : State} (hs : s.sound = true) {rq : Requester} {off : Nat} {v : Word} (h : s.writeRed rq off v = some t) : t.sound = true := by
  unfold State.writeRed at h; try dsimp only at h
  (repeat' split at h) <;> first | (simp at h; done) | (injection h with h; subst h; (repeat' split) <;> simp (maxDischargeDepth := 40) +contextual [hs])

theorem State.writeMem_sound {s t : State} (hs : s.sound = true) {rq : Requester} {d off : Nat} {v : Word} (h : s.writeMem rq d off v = some t) : t.sound = true := by
  unfold State.writeMem at h; try dsimp only at h
  (repeat' split at h) <;> first | (simp at h; done) | (injection h with h; subst h; (repeat' split) <;> simp (maxDischargeDepth := 40) +contextual [hs])

theorem State.writeEzl_sound {s t : State} (hs : s.sound = true) {rq : Requester} {off : Nat} {v : Word} (h : s.writeEzl rq off v = some t) : t.sound = true := by
  unfold State.writeEzl at h; try dsimp only at h
  (repeat' split at h) <;> first | (simp at h; done) | (injection h with h; subst h; (repeat' split) <;> simp (maxDischargeDepth := 40) +contextual [hs])

theorem State.writeArr_sound {s t : State} (hs : s.sound = true) {rq : Requester} {k off : Nat} {v : Word} (h : s.writeArr rq k off v = some t) : t.sound = true := by
  unfold State.writeArr at h; try dsimp only at h
  (repeat' split at h) <;> first | (simp at h; done) | (injection h with h; subst h; (repeat' split) <;> simp (maxDischargeDepth := 40) +contextual [hs])

theorem State.writeDuty_sound {s t : State} (hs : s.sound = true) {rq : Requester} {off : Nat} {v : Word} (h : s.writeDuty rq off v = some t) : t.sound = true := by
  unfold State.writeDuty at h; try dsimp only at h
  (repeat' split at h) <;> first | (simp at h; done) | (injection h with h; subst h; (repeat' split) <;> simp (maxDischargeDepth := 40) +contextual [hs])

theorem State.writeSpecial_sound {s t : State} (hs : s.sound = true) {rq : Requester} {b : Blk} {off : Nat} {v : Word} (h : s.writeSpecial rq b off v = some t) : t.sound = true := by
  unfold State.writeSpecial at h
  split at h
  · exact State.writeHif_sound hs h
  · exact State.writeIrq_sound hs h
  · exact State.writePwr_sound hs h
  · exact State.writeSnp_sound hs h
  · exact State.writeChk_sound hs h
  · exact State.writeImg_sound hs h
  · exact State.writeTsk_sound hs h
  · exact State.writeUpd_sound hs h
  · exact State.writeRed_sound hs h
  · exact State.writeMem_sound hs h
  · exact State.writeEzl_sound hs h
  · exact State.writeArr_sound hs h
  · exact State.writeDuty_sound hs h
  · simp at h

@[simp] theorem State.writeBar0_sound {s : State} (hs : s.sound = true) (rq : Requester) (a : Nat) (v : Word) : (s.writeBar0 rq a v).sound = true := by
  unfold State.writeBar0; dsimp only
  split
  · simp (maxDischargeDepth := 40) [hs]
  · split
    · simp (maxDischargeDepth := 40) [hs]
    · split
      · simp (maxDischargeDepth := 40) [hs]
      · split
        · next h => exact State.writeSpecial_sound hs h
        · simp (maxDischargeDepth := 40) [hs]

@[simp] theorem State.readEffect_sound {s : State} (h : s.sound = true) (rq : Requester) (b : Blk) (off : Nat) : (State.readEffect s rq b off).sound = true := by
  simp (maxDischargeDepth := 40) +contextual [State.readEffect, h]; (repeat' split) <;> simp (maxDischargeDepth := 40) +contextual [h]

@[simp] theorem State.readBar0_sound {s : State} (h : s.sound = true) (rq : Requester) (a : Nat) : (State.readBar0 s rq a).2.sound = true := by
  unfold State.readBar0; dsimp only; (repeat' split) <;> simp (maxDischargeDepth := 40) +contextual [h]

@[simp] theorem pairLoRead_sound (rq : Requester) (off : Nat) {s : State} (h : s.sound = true) : (pairLoRead rq off s).sound = true := by
  simp (maxDischargeDepth := 40) [pairLoRead, h]

@[simp] theorem unassignedAccess_sound (rq : Requester) (off : Nat) (wr : Option Word) {s : State} (h : s.sound = true) : (unassignedAccess rq off wr s).sound = true := by
  unfold unassignedAccess; (repeat' split) <;> simp (maxDischargeDepth := 40) [h]

@[simp] theorem State.recRun_sound {s : State} (h : s.sound = true) (r : InitRec) : (State.recRun s r).sound = true := by
  simp (maxDischargeDepth := 40) [State.recRun, h]

@[simp] theorem recordWrite_sound {s : State} (h : s.sound = true) : (recordWrite s).sound = true := by
  unfold recordWrite; (repeat' split) <;> simp (maxDischargeDepth := 40) [h]

@[simp] theorem recordModify_sound {s : State} (h : s.sound = true) : (recordModify s).sound = true := by
  unfold recordModify; (repeat' split) <;> simp (maxDischargeDepth := 40) [h]

@[simp] theorem recordPoll_sound {s : State} (h : s.sound = true) : (recordPoll s).sound = true := by
  unfold recordPoll; (repeat' split) <;> simp (maxDischargeDepth := 40) [h]

@[simp] theorem State.relayError_sound {s : State} (h : s.sound = true) (detail : Nat) : (State.relayError s detail).sound = true := by
  simp (maxDischargeDepth := 40) [State.relayError, h]

@[simp] theorem State.sendRelay_sound {s : State} (hS : s.sound = true) (m : Nat) (h : RelayHdr) (bytes : List Byte) : (State.sendRelay s m h bytes).sound = true := by
  simp (maxDischargeDepth := 40) [State.sendRelay, hS]

@[simp] theorem State.relayNext_sound {s : State} (h : s.sound = true) : (State.relayNext s).sound = true := by
  unfold State.relayNext; (repeat' split) <;> simp (maxDischargeDepth := 40) [h]

@[simp] theorem relayWindowAccess_sound (m win off : Nat) (wr : Option (List Byte)) (len : Nat) {s : State} (h : s.sound = true) : (relayWindowAccess m win off wr len s).sound = true := by
  unfold relayWindowAccess; (repeat' split) <;> simp (maxDischargeDepth := 40) [h]

@[simp] theorem State.relayOver_sound {s : State} (h : s.sound = true) (r : RelayRead) : (State.relayOver s r).sound = true := by
  simp (maxDischargeDepth := 40) [State.relayOver, h]

@[simp] theorem relayCompletion_sound (src : Nat) (h : RelayHdr) (bytes : List Byte) {s : State} (hS : s.sound = true) : (relayCompletion src h bytes s).sound = true := by
  unfold relayCompletion; dsimp only; (repeat' split) <;> simp (maxDischargeDepth := 40) +contextual [hS]

@[simp] theorem relayTimeout_sound (tag : Nat) {s : State} (h : s.sound = true) : (relayTimeout tag s).sound = true := by
  unfold relayTimeout; (repeat' split) <;> simp (maxDischargeDepth := 40) [h]

@[simp] theorem State.memberWrite_sound {s : State} (h : s.sound = true) (addr : Nat) (bytes : List Byte) : (State.memberWrite s addr bytes).sound = true := by
  simp (maxDischargeDepth := 40) [State.memberWrite, h]

@[simp] theorem relayHostWrite_sound (src : Nat) (h : RelayHdr) (bytes : List Byte) {s : State} (hS : s.sound = true) : (relayHostWrite src h bytes s).sound = true := by
  simp (maxDischargeDepth := 40) [relayHostWrite, hS]

@[simp] theorem dataFrame_sound (src addr : Nat) (bytes : List Byte) {s : State} (h : s.sound = true) : (dataFrame src addr bytes s).sound = true := by
  simp (maxDischargeDepth := 40) [dataFrame, h]

@[simp] theorem State.doorbellPage_sound {s : State} (h : s.sound = true) (o : Nat) (b : List Byte) : (State.doorbellPage s o b).sound = true := by
  simp (maxDischargeDepth := 40) [State.doorbellPage, h]

@[simp] theorem State.readWords_sound {s : State} (h : s.sound = true) (a n : Nat) : (State.readWords s a n).2.sound = true := by
  unfold State.readWords
  exact State.foldl_proj_sound (π := fun (x : List Byte × State) => x.2) h (by intro a x ha; simp (maxDischargeDepth := 40) [ha])

@[simp] theorem State.writeWords_sound {s : State} (h : s.sound = true) (a : Nat) (b : List Byte) : (State.writeWords s a b).sound = true := by
  unfold State.writeWords; (repeat' split) <;> simp (maxDischargeDepth := 40) +contextual [h]

@[simp] theorem bar0BadAccess_sound (k : BadAccess) (off len : Nat) (wr : Option (List Byte)) {s : State} (h : s.sound = true) : (bar0BadAccess k off len wr s).sound = true := by
  unfold bar0BadAccess; (repeat' split) <;> simp (maxDischargeDepth := 40) [h]

@[simp] theorem State.bar4Read_sound {s : State} (h : s.sound = true) (o len a : Nat) (beyond blank : Bool) :
    (State.bar4Read s o len a beyond blank).2.sound = true := by
  have e : ∀ r, (gotBytes r).2 = r.2 := fun _ => rfl
  unfold State.bar4Read
  (repeat' split) <;> simp (maxDischargeDepth := 40) [e, h]

@[simp] theorem State.memberRead_sound {s : State} (h : s.sound = true) (addr len : Nat) : (State.memberRead s addr len).2.sound = true := by
  unfold State.memberRead; dsimp only
  (repeat' split) <;> simp (maxDischargeDepth := 40) [h]

@[simp] theorem relayRead_sound (src : Nat) (h : RelayHdr) {s : State} (hS : s.sound = true) : (relayRead src h s).sound = true := by
  unfold relayRead; dsimp only; (repeat' split) <;> simp (maxDischargeDepth := 40) +contextual [hS]

@[simp] theorem State.memberApply_sound {s : State} (h : s.sound = true) (addr : Nat) (b : List Byte) : (State.memberApply s addr b).sound = true := by
  unfold State.memberApply; (repeat' split) <;> simp (maxDischargeDepth := 40) +contextual [h]

@[simp] theorem relayWrite_sound (src : Nat) (h : RelayHdr) (bytes : List Byte) {s : State} (hS : s.sound = true) : (relayWrite src h bytes s).sound = true := by
  simp (maxDischargeDepth := 40) [relayWrite, hS]

@[simp] theorem twCompare_sound (d u op : Nat) (tys : List Nat) (w : TwillWord) {s : State} (h : s.sound = true) (f : UnitSt → Nat → Bool) : (twCompare d u op tys w s f).sound = true := by
  simp (maxDischargeDepth := 40) [twCompare, h]

@[simp] theorem twMask_sound (d u op : Nat) (w : TwillWord) {s : State} (h : s.sound = true) (f : Nat → Nat → Nat) : (twMask d u op w s f).sound = true := by
  simp (maxDischargeDepth := 40) [twMask, h]

@[simp] theorem twIllegalOp_sound (d u op : Nat) {s : State} (h : s.sound = true) : (twIllegalOp d u op s).sound = true := by
  simp (maxDischargeDepth := 40) [twIllegalOp, h]

@[simp] theorem State.setTwByte_sound {s : State} (h : s.sound = true) (d u : Nat) (exch : Bool) (a : Nat) (b : Byte) : (State.setTwByte s d u exch a b).sound = true := by
  unfold State.setTwByte
  split
  · exact State.sound_same h rfl rfl rfl
  · simp [h]

@[simp] theorem twMemRange_sound (d u op : Nat) (w : TwillWord) {s : State} (h : s.sound = true) : (twMemRange d u op w s).sound = true := by
  simp (maxDischargeDepth := 40) [twMemRange, h]

@[simp] theorem vld_sound (d u : Nat) (w : TwillWord) {s : State} (h : s.sound = true) : (vld d u w s).sound = true := by
  simp (maxDischargeDepth := 40) [vld, h]

@[simp] theorem vst_sound (d u : Nat) (w : TwillWord) {s : State} (h : s.sound = true) : (vst d u w s).sound = true := by
  unfold vst; (repeat' split) <;> simp (maxDischargeDepth := 40) +contextual [h]

@[simp] theorem vbar_sound (d u : Nat) (w : TwillWord) {s : State} (h : s.sound = true) : (vbar d u w s).sound = true := by
  simp (maxDischargeDepth := 40) [vbar, h]

@[simp] theorem barLeave_sound (d : Nat) {s : State} (h : s.sound = true) (u : Nat) : (barLeave d s u).sound = true := by
  simp (maxDischargeDepth := 40) [barLeave, h]

@[simp] theorem barPass_sound (d n : Nat) {s : State} (h : s.sound = true) (u : Nat) : (barPass d n s u).sound = true := by
  simp (maxDischargeDepth := 40) [barPass, h]

@[simp] theorem barrierRelease_sound (d slot n : Nat) {s : State} (h : s.sound = true) : (barrierRelease d slot n s).sound = true := by
  unfold barrierRelease; (repeat' split) <;> simp (maxDischargeDepth := 40) +contextual [h]

@[simp] theorem barrierTimeout_sound (d u : Nat) {s : State} (h : s.sound = true) : (barrierTimeout d u s).sound = true := by
  unfold barrierTimeout; (repeat' split) <;> simp (maxDischargeDepth := 40) [h]

@[simp] theorem State.tick_sound {s : State} (h : s.sound = true) : (State.tick s).sound = true := by
  simp (maxDischargeDepth := 40) [State.tick, h]

@[simp] theorem State.push_sound {s : State} (h : s.sound = true) (c : Sys2Proof.Instr) : (s.push c).sound = true := State.sound_same h rfl rfl rfl

end Sys2Proof.Machine
end

