-- ==== Sys2Proof/Laws/State.lean ====
section
/-! SUPPORT. What each update of `State` leaves as it was: one lemma per field, true by rfl. -/

namespace Sys2Proof.Machine

variable (s : State)

/-! ### setReg -/

@[simp] theorem State.setReg_pairLo (a : Nat) (v : Word) : (s.setReg a v).pairLo = s.pairLo := rfl
@[simp] theorem State.setReg_pairCap (a : Nat) (v : Word) : (s.setReg a v).pairCap = s.pairCap := rfl
@[simp] theorem State.setReg_out (a : Nat) (v : Word) : (s.setReg a v).out = s.out := rfl
@[simp] theorem State.setReg_free (a : Nat) (v : Word) : (s.setReg a v).free = s.free := rfl
@[simp] theorem State.setReg_policy (a : Nat) (v : Word) : (s.setReg a v).policy = s.policy := rfl
@[simp] theorem State.setReg_err (a : Nat) (v : Word) : (s.setReg a v).err = s.err := rfl
@[simp] theorem State.setReg_chk (a : Nat) (v : Word) : (s.setReg a v).chk = s.chk := rfl
@[simp] theorem State.setReg_snp (a : Nat) (v : Word) : (s.setReg a v).snp = s.snp := rfl
@[simp] theorem State.setReg_irq (a : Nat) (v : Word) : (s.setReg a v).irq = s.irq := rfl
@[simp] theorem State.setReg_ezl (a : Nat) (v : Word) : (s.setReg a v).ezl = s.ezl := rfl
@[simp] theorem State.setReg_stp (a : Nat) (v : Word) : (s.setReg a v).stp = s.stp := rfl
@[simp] theorem State.setReg_fmt (a : Nat) (v : Word) : (s.setReg a v).fmt = s.fmt := rfl
@[simp] theorem State.setReg_arr (a : Nat) (v : Word) : (s.setReg a v).arr = s.arr := rfl
@[simp] theorem State.setReg_vec (a : Nat) (v : Word) : (s.setReg a v).vec = s.vec := rfl
@[simp] theorem State.setReg_mxe (a : Nat) (v : Word) : (s.setReg a v).mxe = s.mxe := rfl
@[simp] theorem State.setReg_upd (a : Nat) (v : Word) : (s.setReg a v).upd = s.upd := rfl
@[simp] theorem State.setReg_red (a : Nat) (v : Word) : (s.setReg a v).red = s.red := rfl
@[simp] theorem State.setReg_tsk (a : Nat) (v : Word) : (s.setReg a v).tsk = s.tsk := rfl
@[simp] theorem State.setReg_mem (a : Nat) (v : Word) : (s.setReg a v).mem = s.mem := rfl
@[simp] theorem State.setReg_hif (a : Nat) (v : Word) : (s.setReg a v).hif = s.hif := rfl
@[simp] theorem State.setReg_img (a : Nat) (v : Word) : (s.setReg a v).img = s.img := rfl
@[simp] theorem State.setReg_pwr (a : Nat) (v : Word) : (s.setReg a v).pwr = s.pwr := rfl
@[simp] theorem State.setReg_pending (a : Nat) (v : Word) : (s.setReg a v).pending = s.pending := rfl

/-! ### emit -/

@[simp] theorem State.emit_regs (o : Out) : (s.emit o).regs = s.regs := rfl
@[simp] theorem State.emit_pairLo (o : Out) : (s.emit o).pairLo = s.pairLo := rfl
@[simp] theorem State.emit_pairCap (o : Out) : (s.emit o).pairCap = s.pairCap := rfl
@[simp] theorem State.emit_free (o : Out) : (s.emit o).free = s.free := rfl
@[simp] theorem State.emit_policy (o : Out) : (s.emit o).policy = s.policy := rfl
@[simp] theorem State.emit_err (o : Out) : (s.emit o).err = s.err := rfl
@[simp] theorem State.emit_chk (o : Out) : (s.emit o).chk = s.chk := rfl
@[simp] theorem State.emit_snp (o : Out) : (s.emit o).snp = s.snp := rfl
@[simp] theorem State.emit_irq (o : Out) : (s.emit o).irq = s.irq := rfl
@[simp] theorem State.emit_ezl (o : Out) : (s.emit o).ezl = s.ezl := rfl
@[simp] theorem State.emit_stp (o : Out) : (s.emit o).stp = s.stp := rfl
@[simp] theorem State.emit_fmt (o : Out) : (s.emit o).fmt = s.fmt := rfl
@[simp] theorem State.emit_arr (o : Out) : (s.emit o).arr = s.arr := rfl
@[simp] theorem State.emit_vec (o : Out) : (s.emit o).vec = s.vec := rfl
@[simp] theorem State.emit_mxe (o : Out) : (s.emit o).mxe = s.mxe := rfl
@[simp] theorem State.emit_upd (o : Out) : (s.emit o).upd = s.upd := rfl
@[simp] theorem State.emit_red (o : Out) : (s.emit o).red = s.red := rfl
@[simp] theorem State.emit_tsk (o : Out) : (s.emit o).tsk = s.tsk := rfl
@[simp] theorem State.emit_mem (o : Out) : (s.emit o).mem = s.mem := rfl
@[simp] theorem State.emit_hif (o : Out) : (s.emit o).hif = s.hif := rfl
@[simp] theorem State.emit_img (o : Out) : (s.emit o).img = s.img := rfl
@[simp] theorem State.emit_pwr (o : Out) : (s.emit o).pwr = s.pwr := rfl
@[simp] theorem State.emit_pending (o : Out) : (s.emit o).pending = s.pending := rfl

/-! ### takePol -/

@[simp] theorem State.takePol_regs (a : Nat) : (s.takePol a).regs = s.regs := rfl
@[simp] theorem State.takePol_pairLo (a : Nat) : (s.takePol a).pairLo = s.pairLo := rfl
@[simp] theorem State.takePol_pairCap (a : Nat) : (s.takePol a).pairCap = s.pairCap := rfl
@[simp] theorem State.takePol_out (a : Nat) : (s.takePol a).out = s.out := rfl
@[simp] theorem State.takePol_free (a : Nat) : (s.takePol a).free = s.free := rfl
@[simp] theorem State.takePol_err (a : Nat) : (s.takePol a).err = s.err := rfl
@[simp] theorem State.takePol_chk (a : Nat) : (s.takePol a).chk = s.chk := rfl
@[simp] theorem State.takePol_snp (a : Nat) : (s.takePol a).snp = s.snp := rfl
@[simp] theorem State.takePol_irq (a : Nat) : (s.takePol a).irq = s.irq := rfl
@[simp] theorem State.takePol_ezl (a : Nat) : (s.takePol a).ezl = s.ezl := rfl
@[simp] theorem State.takePol_stp (a : Nat) : (s.takePol a).stp = s.stp := rfl
@[simp] theorem State.takePol_fmt (a : Nat) : (s.takePol a).fmt = s.fmt := rfl
@[simp] theorem State.takePol_arr (a : Nat) : (s.takePol a).arr = s.arr := rfl
@[simp] theorem State.takePol_vec (a : Nat) : (s.takePol a).vec = s.vec := rfl
@[simp] theorem State.takePol_mxe (a : Nat) : (s.takePol a).mxe = s.mxe := rfl
@[simp] theorem State.takePol_upd (a : Nat) : (s.takePol a).upd = s.upd := rfl
@[simp] theorem State.takePol_red (a : Nat) : (s.takePol a).red = s.red := rfl
@[simp] theorem State.takePol_tsk (a : Nat) : (s.takePol a).tsk = s.tsk := rfl
@[simp] theorem State.takePol_mem (a : Nat) : (s.takePol a).mem = s.mem := rfl
@[simp] theorem State.takePol_hif (a : Nat) : (s.takePol a).hif = s.hif := rfl
@[simp] theorem State.takePol_img (a : Nat) : (s.takePol a).img = s.img := rfl
@[simp] theorem State.takePol_pwr (a : Nat) : (s.takePol a).pwr = s.pwr := rfl
@[simp] theorem State.takePol_pending (a : Nat) : (s.takePol a).pending = s.pending := rfl

/-! ### modErr -/

@[simp] theorem State.modErr_regs (f : ErrSt → ErrSt) : (s.modErr f).regs = s.regs := rfl
@[simp] theorem State.modErr_pairLo (f : ErrSt → ErrSt) : (s.modErr f).pairLo = s.pairLo := rfl
@[simp] theorem State.modErr_pairCap (f : ErrSt → ErrSt) : (s.modErr f).pairCap = s.pairCap := rfl
@[simp] theorem State.modErr_out (f : ErrSt → ErrSt) : (s.modErr f).out = s.out := rfl
@[simp] theorem State.modErr_free (f : ErrSt → ErrSt) : (s.modErr f).free = s.free := rfl
@[simp] theorem State.modErr_policy (f : ErrSt → ErrSt) : (s.modErr f).policy = s.policy := rfl
@[simp] theorem State.modErr_chk (f : ErrSt → ErrSt) : (s.modErr f).chk = s.chk := rfl
@[simp] theorem State.modErr_snp (f : ErrSt → ErrSt) : (s.modErr f).snp = s.snp := rfl
@[simp] theorem State.modErr_irq (f : ErrSt → ErrSt) : (s.modErr f).irq = s.irq := rfl
@[simp] theorem State.modErr_ezl (f : ErrSt → ErrSt) : (s.modErr f).ezl = s.ezl := rfl
@[simp] theorem State.modErr_stp (f : ErrSt → ErrSt) : (s.modErr f).stp = s.stp := rfl
@[simp] theorem State.modErr_fmt (f : ErrSt → ErrSt) : (s.modErr f).fmt = s.fmt := rfl
@[simp] theorem State.modErr_arr (f : ErrSt → ErrSt) : (s.modErr f).arr = s.arr := rfl
@[simp] theorem State.modErr_vec (f : ErrSt → ErrSt) : (s.modErr f).vec = s.vec := rfl
@[simp] theorem State.modErr_mxe (f : ErrSt → ErrSt) : (s.modErr f).mxe = s.mxe := rfl
@[simp] theorem State.modErr_upd (f : ErrSt → ErrSt) : (s.modErr f).upd = s.upd := rfl
@[simp] theorem State.modErr_red (f : ErrSt → ErrSt) : (s.modErr f).red = s.red := rfl
@[simp] theorem State.modErr_tsk (f : ErrSt → ErrSt) : (s.modErr f).tsk = s.tsk := rfl
@[simp] theorem State.modErr_mem (f : ErrSt → ErrSt) : (s.modErr f).mem = s.mem := rfl
@[simp] theorem State.modErr_hif (f : ErrSt → ErrSt) : (s.modErr f).hif = s.hif := rfl
@[simp] theorem State.modErr_img (f : ErrSt → ErrSt) : (s.modErr f).img = s.img := rfl
@[simp] theorem State.modErr_pwr (f : ErrSt → ErrSt) : (s.modErr f).pwr = s.pwr := rfl
@[simp] theorem State.modErr_pending (f : ErrSt → ErrSt) : (s.modErr f).pending = s.pending := rfl
@[simp] theorem State.modErr_self (f : ErrSt → ErrSt) : (s.modErr f).err = f s.err := rfl

/-! ### modSnp -/

@[simp] theorem State.modSnp_regs (f : SnpSt → SnpSt) : (s.modSnp f).regs = s.regs := rfl
@[simp] theorem State.modSnp_pairLo (f : SnpSt → SnpSt) : (s.modSnp f).pairLo = s.pairLo := rfl
@[simp] theorem State.modSnp_pairCap (f : SnpSt → SnpSt) : (s.modSnp f).pairCap = s.pairCap := rfl
@[simp] theorem State.modSnp_out (f : SnpSt → SnpSt) : (s.modSnp f).out = s.out := rfl
@[simp] theorem State.modSnp_free (f : SnpSt → SnpSt) : (s.modSnp f).free = s.free := rfl
@[simp] theorem State.modSnp_policy (f : SnpSt → SnpSt) : (s.modSnp f).policy = s.policy := rfl
@[simp] theorem State.modSnp_err (f : SnpSt → SnpSt) : (s.modSnp f).err = s.err := rfl
@[simp] theorem State.modSnp_chk (f : SnpSt → SnpSt) : (s.modSnp f).chk = s.chk := rfl
@[simp] theorem State.modSnp_irq (f : SnpSt → SnpSt) : (s.modSnp f).irq = s.irq := rfl
@[simp] theorem State.modSnp_ezl (f : SnpSt → SnpSt) : (s.modSnp f).ezl = s.ezl := rfl
@[simp] theorem State.modSnp_stp (f : SnpSt → SnpSt) : (s.modSnp f).stp = s.stp := rfl
@[simp] theorem State.modSnp_fmt (f : SnpSt → SnpSt) : (s.modSnp f).fmt = s.fmt := rfl
@[simp] theorem State.modSnp_arr (f : SnpSt → SnpSt) : (s.modSnp f).arr = s.arr := rfl
@[simp] theorem State.modSnp_vec (f : SnpSt → SnpSt) : (s.modSnp f).vec = s.vec := rfl
@[simp] theorem State.modSnp_mxe (f : SnpSt → SnpSt) : (s.modSnp f).mxe = s.mxe := rfl
@[simp] theorem State.modSnp_upd (f : SnpSt → SnpSt) : (s.modSnp f).upd = s.upd := rfl
@[simp] theorem State.modSnp_red (f : SnpSt → SnpSt) : (s.modSnp f).red = s.red := rfl
@[simp] theorem State.modSnp_tsk (f : SnpSt → SnpSt) : (s.modSnp f).tsk = s.tsk := rfl
@[simp] theorem State.modSnp_mem (f : SnpSt → SnpSt) : (s.modSnp f).mem = s.mem := rfl
@[simp] theorem State.modSnp_hif (f : SnpSt → SnpSt) : (s.modSnp f).hif = s.hif := rfl
@[simp] theorem State.modSnp_img (f : SnpSt → SnpSt) : (s.modSnp f).img = s.img := rfl
@[simp] theorem State.modSnp_pwr (f : SnpSt → SnpSt) : (s.modSnp f).pwr = s.pwr := rfl
@[simp] theorem State.modSnp_pending (f : SnpSt → SnpSt) : (s.modSnp f).pending = s.pending := rfl
@[simp] theorem State.modSnp_self (f : SnpSt → SnpSt) : (s.modSnp f).snp = f s.snp := rfl

/-! ### modEzl -/

@[simp] theorem State.modEzl_regs (f : EzlSt → EzlSt) : (s.modEzl f).regs = s.regs := rfl
@[simp] theorem State.modEzl_pairLo (f : EzlSt → EzlSt) : (s.modEzl f).pairLo = s.pairLo := rfl
@[simp] theorem State.modEzl_pairCap (f : EzlSt → EzlSt) : (s.modEzl f).pairCap = s.pairCap := rfl
@[simp] theorem State.modEzl_out (f : EzlSt → EzlSt) : (s.modEzl f).out = s.out := rfl
@[simp] theorem State.modEzl_free (f : EzlSt → EzlSt) : (s.modEzl f).free = s.free := rfl
@[simp] theorem State.modEzl_policy (f : EzlSt → EzlSt) : (s.modEzl f).policy = s.policy := rfl
@[simp] theorem State.modEzl_err (f : EzlSt → EzlSt) : (s.modEzl f).err = s.err := rfl
@[simp] theorem State.modEzl_chk (f : EzlSt → EzlSt) : (s.modEzl f).chk = s.chk := rfl
@[simp] theorem State.modEzl_snp (f : EzlSt → EzlSt) : (s.modEzl f).snp = s.snp := rfl
@[simp] theorem State.modEzl_irq (f : EzlSt → EzlSt) : (s.modEzl f).irq = s.irq := rfl
@[simp] theorem State.modEzl_stp (f : EzlSt → EzlSt) : (s.modEzl f).stp = s.stp := rfl
@[simp] theorem State.modEzl_fmt (f : EzlSt → EzlSt) : (s.modEzl f).fmt = s.fmt := rfl
@[simp] theorem State.modEzl_arr (f : EzlSt → EzlSt) : (s.modEzl f).arr = s.arr := rfl
@[simp] theorem State.modEzl_vec (f : EzlSt → EzlSt) : (s.modEzl f).vec = s.vec := rfl
@[simp] theorem State.modEzl_mxe (f : EzlSt → EzlSt) : (s.modEzl f).mxe = s.mxe := rfl
@[simp] theorem State.modEzl_upd (f : EzlSt → EzlSt) : (s.modEzl f).upd = s.upd := rfl
@[simp] theorem State.modEzl_red (f : EzlSt → EzlSt) : (s.modEzl f).red = s.red := rfl
@[simp] theorem State.modEzl_tsk (f : EzlSt → EzlSt) : (s.modEzl f).tsk = s.tsk := rfl
@[simp] theorem State.modEzl_mem (f : EzlSt → EzlSt) : (s.modEzl f).mem = s.mem := rfl
@[simp] theorem State.modEzl_hif (f : EzlSt → EzlSt) : (s.modEzl f).hif = s.hif := rfl
@[simp] theorem State.modEzl_img (f : EzlSt → EzlSt) : (s.modEzl f).img = s.img := rfl
@[simp] theorem State.modEzl_pwr (f : EzlSt → EzlSt) : (s.modEzl f).pwr = s.pwr := rfl
@[simp] theorem State.modEzl_pending (f : EzlSt → EzlSt) : (s.modEzl f).pending = s.pending := rfl
@[simp] theorem State.modEzl_self (f : EzlSt → EzlSt) : (s.modEzl f).ezl = f s.ezl := rfl

/-! ### modStp -/

@[simp] theorem State.modStp_regs (f : StepSt → StepSt) : (s.modStp f).regs = s.regs := rfl
@[simp] theorem State.modStp_pairLo (f : StepSt → StepSt) : (s.modStp f).pairLo = s.pairLo := rfl
@[simp] theorem State.modStp_pairCap (f : StepSt → StepSt) : (s.modStp f).pairCap = s.pairCap := rfl
@[simp] theorem State.modStp_out (f : StepSt → StepSt) : (s.modStp f).out = s.out := rfl
@[simp] theorem State.modStp_free (f : StepSt → StepSt) : (s.modStp f).free = s.free := rfl
@[simp] theorem State.modStp_policy (f : StepSt → StepSt) : (s.modStp f).policy = s.policy := rfl
@[simp] theorem State.modStp_err (f : StepSt → StepSt) : (s.modStp f).err = s.err := rfl
@[simp] theorem State.modStp_chk (f : StepSt → StepSt) : (s.modStp f).chk = s.chk := rfl
@[simp] theorem State.modStp_snp (f : StepSt → StepSt) : (s.modStp f).snp = s.snp := rfl
@[simp] theorem State.modStp_irq (f : StepSt → StepSt) : (s.modStp f).irq = s.irq := rfl
@[simp] theorem State.modStp_ezl (f : StepSt → StepSt) : (s.modStp f).ezl = s.ezl := rfl
@[simp] theorem State.modStp_fmt (f : StepSt → StepSt) : (s.modStp f).fmt = s.fmt := rfl
@[simp] theorem State.modStp_arr (f : StepSt → StepSt) : (s.modStp f).arr = s.arr := rfl
@[simp] theorem State.modStp_vec (f : StepSt → StepSt) : (s.modStp f).vec = s.vec := rfl
@[simp] theorem State.modStp_mxe (f : StepSt → StepSt) : (s.modStp f).mxe = s.mxe := rfl
@[simp] theorem State.modStp_upd (f : StepSt → StepSt) : (s.modStp f).upd = s.upd := rfl
@[simp] theorem State.modStp_red (f : StepSt → StepSt) : (s.modStp f).red = s.red := rfl
@[simp] theorem State.modStp_tsk (f : StepSt → StepSt) : (s.modStp f).tsk = s.tsk := rfl
@[simp] theorem State.modStp_mem (f : StepSt → StepSt) : (s.modStp f).mem = s.mem := rfl
@[simp] theorem State.modStp_hif (f : StepSt → StepSt) : (s.modStp f).hif = s.hif := rfl
@[simp] theorem State.modStp_img (f : StepSt → StepSt) : (s.modStp f).img = s.img := rfl
@[simp] theorem State.modStp_pwr (f : StepSt → StepSt) : (s.modStp f).pwr = s.pwr := rfl
@[simp] theorem State.modStp_pending (f : StepSt → StepSt) : (s.modStp f).pending = s.pending := rfl
@[simp] theorem State.modStp_self (f : StepSt → StepSt) : (s.modStp f).stp = f s.stp := rfl

/-! ### modFmt -/

@[simp] theorem State.modFmt_regs (f : FmtSt → FmtSt) : (s.modFmt f).regs = s.regs := rfl
@[simp] theorem State.modFmt_pairLo (f : FmtSt → FmtSt) : (s.modFmt f).pairLo = s.pairLo := rfl
@[simp] theorem State.modFmt_pairCap (f : FmtSt → FmtSt) : (s.modFmt f).pairCap = s.pairCap := rfl
@[simp] theorem State.modFmt_out (f : FmtSt → FmtSt) : (s.modFmt f).out = s.out := rfl
@[simp] theorem State.modFmt_free (f : FmtSt → FmtSt) : (s.modFmt f).free = s.free := rfl
@[simp] theorem State.modFmt_policy (f : FmtSt → FmtSt) : (s.modFmt f).policy = s.policy := rfl
@[simp] theorem State.modFmt_err (f : FmtSt → FmtSt) : (s.modFmt f).err = s.err := rfl
@[simp] theorem State.modFmt_chk (f : FmtSt → FmtSt) : (s.modFmt f).chk = s.chk := rfl
@[simp] theorem State.modFmt_snp (f : FmtSt → FmtSt) : (s.modFmt f).snp = s.snp := rfl
@[simp] theorem State.modFmt_irq (f : FmtSt → FmtSt) : (s.modFmt f).irq = s.irq := rfl
@[simp] theorem State.modFmt_ezl (f : FmtSt → FmtSt) : (s.modFmt f).ezl = s.ezl := rfl
@[simp] theorem State.modFmt_stp (f : FmtSt → FmtSt) : (s.modFmt f).stp = s.stp := rfl
@[simp] theorem State.modFmt_arr (f : FmtSt → FmtSt) : (s.modFmt f).arr = s.arr := rfl
@[simp] theorem State.modFmt_vec (f : FmtSt → FmtSt) : (s.modFmt f).vec = s.vec := rfl
@[simp] theorem State.modFmt_mxe (f : FmtSt → FmtSt) : (s.modFmt f).mxe = s.mxe := rfl
@[simp] theorem State.modFmt_upd (f : FmtSt → FmtSt) : (s.modFmt f).upd = s.upd := rfl
@[simp] theorem State.modFmt_red (f : FmtSt → FmtSt) : (s.modFmt f).red = s.red := rfl
@[simp] theorem State.modFmt_tsk (f : FmtSt → FmtSt) : (s.modFmt f).tsk = s.tsk := rfl
@[simp] theorem State.modFmt_mem (f : FmtSt → FmtSt) : (s.modFmt f).mem = s.mem := rfl
@[simp] theorem State.modFmt_hif (f : FmtSt → FmtSt) : (s.modFmt f).hif = s.hif := rfl
@[simp] theorem State.modFmt_img (f : FmtSt → FmtSt) : (s.modFmt f).img = s.img := rfl
@[simp] theorem State.modFmt_pwr (f : FmtSt → FmtSt) : (s.modFmt f).pwr = s.pwr := rfl
@[simp] theorem State.modFmt_pending (f : FmtSt → FmtSt) : (s.modFmt f).pending = s.pending := rfl
@[simp] theorem State.modFmt_self (f : FmtSt → FmtSt) : (s.modFmt f).fmt = f s.fmt := rfl

/-! ### modArr -/

@[simp] theorem State.modArr_regs (f : ArrSt → ArrSt) : (s.modArr f).regs = s.regs := rfl
@[simp] theorem State.modArr_pairLo (f : ArrSt → ArrSt) : (s.modArr f).pairLo = s.pairLo := rfl
@[simp] theorem State.modArr_pairCap (f : ArrSt → ArrSt) : (s.modArr f).pairCap = s.pairCap := rfl
@[simp] theorem State.modArr_out (f : ArrSt → ArrSt) : (s.modArr f).out = s.out := rfl
@[simp] theorem State.modArr_free (f : ArrSt → ArrSt) : (s.modArr f).free = s.free := rfl
@[simp] theorem State.modArr_policy (f : ArrSt → ArrSt) : (s.modArr f).policy = s.policy := rfl
@[simp] theorem State.modArr_err (f : ArrSt → ArrSt) : (s.modArr f).err = s.err := rfl
@[simp] theorem State.modArr_chk (f : ArrSt → ArrSt) : (s.modArr f).chk = s.chk := rfl
@[simp] theorem State.modArr_snp (f : ArrSt → ArrSt) : (s.modArr f).snp = s.snp := rfl
@[simp] theorem State.modArr_irq (f : ArrSt → ArrSt) : (s.modArr f).irq = s.irq := rfl
@[simp] theorem State.modArr_ezl (f : ArrSt → ArrSt) : (s.modArr f).ezl = s.ezl := rfl
@[simp] theorem State.modArr_stp (f : ArrSt → ArrSt) : (s.modArr f).stp = s.stp := rfl
@[simp] theorem State.modArr_fmt (f : ArrSt → ArrSt) : (s.modArr f).fmt = s.fmt := rfl
@[simp] theorem State.modArr_vec (f : ArrSt → ArrSt) : (s.modArr f).vec = s.vec := rfl
@[simp] theorem State.modArr_mxe (f : ArrSt → ArrSt) : (s.modArr f).mxe = s.mxe := rfl
@[simp] theorem State.modArr_upd (f : ArrSt → ArrSt) : (s.modArr f).upd = s.upd := rfl
@[simp] theorem State.modArr_red (f : ArrSt → ArrSt) : (s.modArr f).red = s.red := rfl
@[simp] theorem State.modArr_tsk (f : ArrSt → ArrSt) : (s.modArr f).tsk = s.tsk := rfl
@[simp] theorem State.modArr_mem (f : ArrSt → ArrSt) : (s.modArr f).mem = s.mem := rfl
@[simp] theorem State.modArr_hif (f : ArrSt → ArrSt) : (s.modArr f).hif = s.hif := rfl
@[simp] theorem State.modArr_img (f : ArrSt → ArrSt) : (s.modArr f).img = s.img := rfl
@[simp] theorem State.modArr_pwr (f : ArrSt → ArrSt) : (s.modArr f).pwr = s.pwr := rfl
@[simp] theorem State.modArr_pending (f : ArrSt → ArrSt) : (s.modArr f).pending = s.pending := rfl
@[simp] theorem State.modArr_self (f : ArrSt → ArrSt) : (s.modArr f).arr = f s.arr := rfl

/-! ### modVec -/

@[simp] theorem State.modVec_regs (f : VecSt → VecSt) : (s.modVec f).regs = s.regs := rfl
@[simp] theorem State.modVec_pairLo (f : VecSt → VecSt) : (s.modVec f).pairLo = s.pairLo := rfl
@[simp] theorem State.modVec_pairCap (f : VecSt → VecSt) : (s.modVec f).pairCap = s.pairCap := rfl
@[simp] theorem State.modVec_out (f : VecSt → VecSt) : (s.modVec f).out = s.out := rfl
@[simp] theorem State.modVec_free (f : VecSt → VecSt) : (s.modVec f).free = s.free := rfl
@[simp] theorem State.modVec_policy (f : VecSt → VecSt) : (s.modVec f).policy = s.policy := rfl
@[simp] theorem State.modVec_err (f : VecSt → VecSt) : (s.modVec f).err = s.err := rfl
@[simp] theorem State.modVec_chk (f : VecSt → VecSt) : (s.modVec f).chk = s.chk := rfl
@[simp] theorem State.modVec_snp (f : VecSt → VecSt) : (s.modVec f).snp = s.snp := rfl
@[simp] theorem State.modVec_irq (f : VecSt → VecSt) : (s.modVec f).irq = s.irq := rfl
@[simp] theorem State.modVec_ezl (f : VecSt → VecSt) : (s.modVec f).ezl = s.ezl := rfl
@[simp] theorem State.modVec_stp (f : VecSt → VecSt) : (s.modVec f).stp = s.stp := rfl
@[simp] theorem State.modVec_fmt (f : VecSt → VecSt) : (s.modVec f).fmt = s.fmt := rfl
@[simp] theorem State.modVec_arr (f : VecSt → VecSt) : (s.modVec f).arr = s.arr := rfl
@[simp] theorem State.modVec_mxe (f : VecSt → VecSt) : (s.modVec f).mxe = s.mxe := rfl
@[simp] theorem State.modVec_upd (f : VecSt → VecSt) : (s.modVec f).upd = s.upd := rfl
@[simp] theorem State.modVec_red (f : VecSt → VecSt) : (s.modVec f).red = s.red := rfl
@[simp] theorem State.modVec_tsk (f : VecSt → VecSt) : (s.modVec f).tsk = s.tsk := rfl
@[simp] theorem State.modVec_mem (f : VecSt → VecSt) : (s.modVec f).mem = s.mem := rfl
@[simp] theorem State.modVec_hif (f : VecSt → VecSt) : (s.modVec f).hif = s.hif := rfl
@[simp] theorem State.modVec_img (f : VecSt → VecSt) : (s.modVec f).img = s.img := rfl
@[simp] theorem State.modVec_pwr (f : VecSt → VecSt) : (s.modVec f).pwr = s.pwr := rfl
@[simp] theorem State.modVec_pending (f : VecSt → VecSt) : (s.modVec f).pending = s.pending := rfl
@[simp] theorem State.modVec_self (f : VecSt → VecSt) : (s.modVec f).vec = f s.vec := rfl

/-! ### modMxe -/

@[simp] theorem State.modMxe_regs (f : MxeSt → MxeSt) : (s.modMxe f).regs = s.regs := rfl
@[simp] theorem State.modMxe_pairLo (f : MxeSt → MxeSt) : (s.modMxe f).pairLo = s.pairLo := rfl
@[simp] theorem State.modMxe_pairCap (f : MxeSt → MxeSt) : (s.modMxe f).pairCap = s.pairCap := rfl
@[simp] theorem State.modMxe_out (f : MxeSt → MxeSt) : (s.modMxe f).out = s.out := rfl
@[simp] theorem State.modMxe_free (f : MxeSt → MxeSt) : (s.modMxe f).free = s.free := rfl
@[simp] theorem State.modMxe_policy (f : MxeSt → MxeSt) : (s.modMxe f).policy = s.policy := rfl
@[simp] theorem State.modMxe_err (f : MxeSt → MxeSt) : (s.modMxe f).err = s.err := rfl
@[simp] theorem State.modMxe_chk (f : MxeSt → MxeSt) : (s.modMxe f).chk = s.chk := rfl
@[simp] theorem State.modMxe_snp (f : MxeSt → MxeSt) : (s.modMxe f).snp = s.snp := rfl
@[simp] theorem State.modMxe_irq (f : MxeSt → MxeSt) : (s.modMxe f).irq = s.irq := rfl
@[simp] theorem State.modMxe_ezl (f : MxeSt → MxeSt) : (s.modMxe f).ezl = s.ezl := rfl
@[simp] theorem State.modMxe_stp (f : MxeSt → MxeSt) : (s.modMxe f).stp = s.stp := rfl
@[simp] theorem State.modMxe_fmt (f : MxeSt → MxeSt) : (s.modMxe f).fmt = s.fmt := rfl
@[simp] theorem State.modMxe_arr (f : MxeSt → MxeSt) : (s.modMxe f).arr = s.arr := rfl
@[simp] theorem State.modMxe_vec (f : MxeSt → MxeSt) : (s.modMxe f).vec = s.vec := rfl
@[simp] theorem State.modMxe_upd (f : MxeSt → MxeSt) : (s.modMxe f).upd = s.upd := rfl
@[simp] theorem State.modMxe_red (f : MxeSt → MxeSt) : (s.modMxe f).red = s.red := rfl
@[simp] theorem State.modMxe_tsk (f : MxeSt → MxeSt) : (s.modMxe f).tsk = s.tsk := rfl
@[simp] theorem State.modMxe_mem (f : MxeSt → MxeSt) : (s.modMxe f).mem = s.mem := rfl
@[simp] theorem State.modMxe_hif (f : MxeSt → MxeSt) : (s.modMxe f).hif = s.hif := rfl
@[simp] theorem State.modMxe_img (f : MxeSt → MxeSt) : (s.modMxe f).img = s.img := rfl
@[simp] theorem State.modMxe_pwr (f : MxeSt → MxeSt) : (s.modMxe f).pwr = s.pwr := rfl
@[simp] theorem State.modMxe_pending (f : MxeSt → MxeSt) : (s.modMxe f).pending = s.pending := rfl
@[simp] theorem State.modMxe_self (f : MxeSt → MxeSt) : (s.modMxe f).mxe = f s.mxe := rfl

/-! ### modUpd -/

@[simp] theorem State.modUpd_regs (f : UpdSt → UpdSt) : (s.modUpd f).regs = s.regs := rfl
@[simp] theorem State.modUpd_pairLo (f : UpdSt → UpdSt) : (s.modUpd f).pairLo = s.pairLo := rfl
@[simp] theorem State.modUpd_pairCap (f : UpdSt → UpdSt) : (s.modUpd f).pairCap = s.pairCap := rfl
@[simp] theorem State.modUpd_out (f : UpdSt → UpdSt) : (s.modUpd f).out = s.out := rfl
@[simp] theorem State.modUpd_free (f : UpdSt → UpdSt) : (s.modUpd f).free = s.free := rfl
@[simp] theorem State.modUpd_policy (f : UpdSt → UpdSt) : (s.modUpd f).policy = s.policy := rfl
@[simp] theorem State.modUpd_err (f : UpdSt → UpdSt) : (s.modUpd f).err = s.err := rfl
@[simp] theorem State.modUpd_chk (f : UpdSt → UpdSt) : (s.modUpd f).chk = s.chk := rfl
@[simp] theorem State.modUpd_snp (f : UpdSt → UpdSt) : (s.modUpd f).snp = s.snp := rfl
@[simp] theorem State.modUpd_irq (f : UpdSt → UpdSt) : (s.modUpd f).irq = s.irq := rfl
@[simp] theorem State.modUpd_ezl (f : UpdSt → UpdSt) : (s.modUpd f).ezl = s.ezl := rfl
@[simp] theorem State.modUpd_stp (f : UpdSt → UpdSt) : (s.modUpd f).stp = s.stp := rfl
@[simp] theorem State.modUpd_fmt (f : UpdSt → UpdSt) : (s.modUpd f).fmt = s.fmt := rfl
@[simp] theorem State.modUpd_arr (f : UpdSt → UpdSt) : (s.modUpd f).arr = s.arr := rfl
@[simp] theorem State.modUpd_vec (f : UpdSt → UpdSt) : (s.modUpd f).vec = s.vec := rfl
@[simp] theorem State.modUpd_mxe (f : UpdSt → UpdSt) : (s.modUpd f).mxe = s.mxe := rfl
@[simp] theorem State.modUpd_red (f : UpdSt → UpdSt) : (s.modUpd f).red = s.red := rfl
@[simp] theorem State.modUpd_tsk (f : UpdSt → UpdSt) : (s.modUpd f).tsk = s.tsk := rfl
@[simp] theorem State.modUpd_mem (f : UpdSt → UpdSt) : (s.modUpd f).mem = s.mem := rfl
@[simp] theorem State.modUpd_hif (f : UpdSt → UpdSt) : (s.modUpd f).hif = s.hif := rfl
@[simp] theorem State.modUpd_img (f : UpdSt → UpdSt) : (s.modUpd f).img = s.img := rfl
@[simp] theorem State.modUpd_pwr (f : UpdSt → UpdSt) : (s.modUpd f).pwr = s.pwr := rfl
@[simp] theorem State.modUpd_pending (f : UpdSt → UpdSt) : (s.modUpd f).pending = s.pending := rfl
@[simp] theorem State.modUpd_self (f : UpdSt → UpdSt) : (s.modUpd f).upd = f s.upd := rfl

/-! ### modRed -/

@[simp] theorem State.modRed_regs (f : RedSt → RedSt) : (s.modRed f).regs = s.regs := rfl
@[simp] theorem State.modRed_pairLo (f : RedSt → RedSt) : (s.modRed f).pairLo = s.pairLo := rfl
@[simp] theorem State.modRed_pairCap (f : RedSt → RedSt) : (s.modRed f).pairCap = s.pairCap := rfl
@[simp] theorem State.modRed_out (f : RedSt → RedSt) : (s.modRed f).out = s.out := rfl
@[simp] theorem State.modRed_free (f : RedSt → RedSt) : (s.modRed f).free = s.free := rfl
@[simp] theorem State.modRed_policy (f : RedSt → RedSt) : (s.modRed f).policy = s.policy := rfl
@[simp] theorem State.modRed_err (f : RedSt → RedSt) : (s.modRed f).err = s.err := rfl
@[simp] theorem State.modRed_chk (f : RedSt → RedSt) : (s.modRed f).chk = s.chk := rfl
@[simp] theorem State.modRed_snp (f : RedSt → RedSt) : (s.modRed f).snp = s.snp := rfl
@[simp] theorem State.modRed_irq (f : RedSt → RedSt) : (s.modRed f).irq = s.irq := rfl
@[simp] theorem State.modRed_ezl (f : RedSt → RedSt) : (s.modRed f).ezl = s.ezl := rfl
@[simp] theorem State.modRed_stp (f : RedSt → RedSt) : (s.modRed f).stp = s.stp := rfl
@[simp] theorem State.modRed_fmt (f : RedSt → RedSt) : (s.modRed f).fmt = s.fmt := rfl
@[simp] theorem State.modRed_arr (f : RedSt → RedSt) : (s.modRed f).arr = s.arr := rfl
@[simp] theorem State.modRed_vec (f : RedSt → RedSt) : (s.modRed f).vec = s.vec := rfl
@[simp] theorem State.modRed_mxe (f : RedSt → RedSt) : (s.modRed f).mxe = s.mxe := rfl
@[simp] theorem State.modRed_upd (f : RedSt → RedSt) : (s.modRed f).upd = s.upd := rfl
@[simp] theorem State.modRed_tsk (f : RedSt → RedSt) : (s.modRed f).tsk = s.tsk := rfl
@[simp] theorem State.modRed_mem (f : RedSt → RedSt) : (s.modRed f).mem = s.mem := rfl
@[simp] theorem State.modRed_hif (f : RedSt → RedSt) : (s.modRed f).hif = s.hif := rfl
@[simp] theorem State.modRed_img (f : RedSt → RedSt) : (s.modRed f).img = s.img := rfl
@[simp] theorem State.modRed_pwr (f : RedSt → RedSt) : (s.modRed f).pwr = s.pwr := rfl
@[simp] theorem State.modRed_pending (f : RedSt → RedSt) : (s.modRed f).pending = s.pending := rfl
@[simp] theorem State.modRed_self (f : RedSt → RedSt) : (s.modRed f).red = f s.red := rfl

/-! ### modTsk -/

@[simp] theorem State.modTsk_regs (f : TskSt → TskSt) : (s.modTsk f).regs = s.regs := rfl
@[simp] theorem State.modTsk_pairLo (f : TskSt → TskSt) : (s.modTsk f).pairLo = s.pairLo := rfl
@[simp] theorem State.modTsk_pairCap (f : TskSt → TskSt) : (s.modTsk f).pairCap = s.pairCap := rfl
@[simp] theorem State.modTsk_out (f : TskSt → TskSt) : (s.modTsk f).out = s.out := rfl
@[simp] theorem State.modTsk_free (f : TskSt → TskSt) : (s.modTsk f).free = s.free := rfl
@[simp] theorem State.modTsk_policy (f : TskSt → TskSt) : (s.modTsk f).policy = s.policy := rfl
@[simp] theorem State.modTsk_err (f : TskSt → TskSt) : (s.modTsk f).err = s.err := rfl
@[simp] theorem State.modTsk_chk (f : TskSt → TskSt) : (s.modTsk f).chk = s.chk := rfl
@[simp] theorem State.modTsk_snp (f : TskSt → TskSt) : (s.modTsk f).snp = s.snp := rfl
@[simp] theorem State.modTsk_irq (f : TskSt → TskSt) : (s.modTsk f).irq = s.irq := rfl
@[simp] theorem State.modTsk_ezl (f : TskSt → TskSt) : (s.modTsk f).ezl = s.ezl := rfl
@[simp] theorem State.modTsk_stp (f : TskSt → TskSt) : (s.modTsk f).stp = s.stp := rfl
@[simp] theorem State.modTsk_fmt (f : TskSt → TskSt) : (s.modTsk f).fmt = s.fmt := rfl
@[simp] theorem State.modTsk_arr (f : TskSt → TskSt) : (s.modTsk f).arr = s.arr := rfl
@[simp] theorem State.modTsk_vec (f : TskSt → TskSt) : (s.modTsk f).vec = s.vec := rfl
@[simp] theorem State.modTsk_mxe (f : TskSt → TskSt) : (s.modTsk f).mxe = s.mxe := rfl
@[simp] theorem State.modTsk_upd (f : TskSt → TskSt) : (s.modTsk f).upd = s.upd := rfl
@[simp] theorem State.modTsk_red (f : TskSt → TskSt) : (s.modTsk f).red = s.red := rfl
@[simp] theorem State.modTsk_mem (f : TskSt → TskSt) : (s.modTsk f).mem = s.mem := rfl
@[simp] theorem State.modTsk_hif (f : TskSt → TskSt) : (s.modTsk f).hif = s.hif := rfl
@[simp] theorem State.modTsk_img (f : TskSt → TskSt) : (s.modTsk f).img = s.img := rfl
@[simp] theorem State.modTsk_pwr (f : TskSt → TskSt) : (s.modTsk f).pwr = s.pwr := rfl
@[simp] theorem State.modTsk_pending (f : TskSt → TskSt) : (s.modTsk f).pending = s.pending := rfl
@[simp] theorem State.modTsk_self (f : TskSt → TskSt) : (s.modTsk f).tsk = f s.tsk := rfl

/-! ### modMem -/

@[simp] theorem State.modMem_regs (f : MemSt → MemSt) : (s.modMem f).regs = s.regs := rfl
@[simp] theorem State.modMem_pairLo (f : MemSt → MemSt) : (s.modMem f).pairLo = s.pairLo := rfl
@[simp] theorem State.modMem_pairCap (f : MemSt → MemSt) : (s.modMem f).pairCap = s.pairCap := rfl
@[simp] theorem State.modMem_out (f : MemSt → MemSt) : (s.modMem f).out = s.out := rfl
@[simp] theorem State.modMem_free (f : MemSt → MemSt) : (s.modMem f).free = s.free := rfl
@[simp] theorem State.modMem_policy (f : MemSt → MemSt) : (s.modMem f).policy = s.policy := rfl
@[simp] theorem State.modMem_err (f : MemSt → MemSt) : (s.modMem f).err = s.err := rfl
@[simp] theorem State.modMem_chk (f : MemSt → MemSt) : (s.modMem f).chk = s.chk := rfl
@[simp] theorem State.modMem_snp (f : MemSt → MemSt) : (s.modMem f).snp = s.snp := rfl
@[simp] theorem State.modMem_irq (f : MemSt → MemSt) : (s.modMem f).irq = s.irq := rfl
@[simp] theorem State.modMem_ezl (f : MemSt → MemSt) : (s.modMem f).ezl = s.ezl := rfl
@[simp] theorem State.modMem_stp (f : MemSt → MemSt) : (s.modMem f).stp = s.stp := rfl
@[simp] theorem State.modMem_fmt (f : MemSt → MemSt) : (s.modMem f).fmt = s.fmt := rfl
@[simp] theorem State.modMem_arr (f : MemSt → MemSt) : (s.modMem f).arr = s.arr := rfl
@[simp] theorem State.modMem_vec (f : MemSt → MemSt) : (s.modMem f).vec = s.vec := rfl
@[simp] theorem State.modMem_mxe (f : MemSt → MemSt) : (s.modMem f).mxe = s.mxe := rfl
@[simp] theorem State.modMem_upd (f : MemSt → MemSt) : (s.modMem f).upd = s.upd := rfl
@[simp] theorem State.modMem_red (f : MemSt → MemSt) : (s.modMem f).red = s.red := rfl
@[simp] theorem State.modMem_tsk (f : MemSt → MemSt) : (s.modMem f).tsk = s.tsk := rfl
@[simp] theorem State.modMem_hif (f : MemSt → MemSt) : (s.modMem f).hif = s.hif := rfl
@[simp] theorem State.modMem_img (f : MemSt → MemSt) : (s.modMem f).img = s.img := rfl
@[simp] theorem State.modMem_pwr (f : MemSt → MemSt) : (s.modMem f).pwr = s.pwr := rfl
@[simp] theorem State.modMem_pending (f : MemSt → MemSt) : (s.modMem f).pending = s.pending := rfl
@[simp] theorem State.modMem_self (f : MemSt → MemSt) : (s.modMem f).mem = f s.mem := rfl

/-! ### modHif -/

@[simp] theorem State.modHif_regs (f : HifSt → HifSt) : (s.modHif f).regs = s.regs := rfl
@[simp] theorem State.modHif_pairLo (f : HifSt → HifSt) : (s.modHif f).pairLo = s.pairLo := rfl
@[simp] theorem State.modHif_pairCap (f : HifSt → HifSt) : (s.modHif f).pairCap = s.pairCap := rfl
@[simp] theorem State.modHif_out (f : HifSt → HifSt) : (s.modHif f).out = s.out := rfl
@[simp] theorem State.modHif_free (f : HifSt → HifSt) : (s.modHif f).free = s.free := rfl
@[simp] theorem State.modHif_policy (f : HifSt → HifSt) : (s.modHif f).policy = s.policy := rfl
@[simp] theorem State.modHif_err (f : HifSt → HifSt) : (s.modHif f).err = s.err := rfl
@[simp] theorem State.modHif_chk (f : HifSt → HifSt) : (s.modHif f).chk = s.chk := rfl
@[simp] theorem State.modHif_snp (f : HifSt → HifSt) : (s.modHif f).snp = s.snp := rfl
@[simp] theorem State.modHif_irq (f : HifSt → HifSt) : (s.modHif f).irq = s.irq := rfl
@[simp] theorem State.modHif_ezl (f : HifSt → HifSt) : (s.modHif f).ezl = s.ezl := rfl
@[simp] theorem State.modHif_stp (f : HifSt → HifSt) : (s.modHif f).stp = s.stp := rfl
@[simp] theorem State.modHif_fmt (f : HifSt → HifSt) : (s.modHif f).fmt = s.fmt := rfl
@[simp] theorem State.modHif_arr (f : HifSt → HifSt) : (s.modHif f).arr = s.arr := rfl
@[simp] theorem State.modHif_vec (f : HifSt → HifSt) : (s.modHif f).vec = s.vec := rfl
@[simp] theorem State.modHif_mxe (f : HifSt → HifSt) : (s.modHif f).mxe = s.mxe := rfl
@[simp] theorem State.modHif_upd (f : HifSt → HifSt) : (s.modHif f).upd = s.upd := rfl
@[simp] theorem State.modHif_red (f : HifSt → HifSt) : (s.modHif f).red = s.red := rfl
@[simp] theorem State.modHif_tsk (f : HifSt → HifSt) : (s.modHif f).tsk = s.tsk := rfl
@[simp] theorem State.modHif_mem (f : HifSt → HifSt) : (s.modHif f).mem = s.mem := rfl
@[simp] theorem State.modHif_img (f : HifSt → HifSt) : (s.modHif f).img = s.img := rfl
@[simp] theorem State.modHif_pwr (f : HifSt → HifSt) : (s.modHif f).pwr = s.pwr := rfl
@[simp] theorem State.modHif_pending (f : HifSt → HifSt) : (s.modHif f).pending = s.pending := rfl
@[simp] theorem State.modHif_self (f : HifSt → HifSt) : (s.modHif f).hif = f s.hif := rfl

/-! ### modImg -/

@[simp] theorem State.modImg_regs (f : ImgSt → ImgSt) : (s.modImg f).regs = s.regs := rfl
@[simp] theorem State.modImg_pairLo (f : ImgSt → ImgSt) : (s.modImg f).pairLo = s.pairLo := rfl
@[simp] theorem State.modImg_pairCap (f : ImgSt → ImgSt) : (s.modImg f).pairCap = s.pairCap := rfl
@[simp] theorem State.modImg_out (f : ImgSt → ImgSt) : (s.modImg f).out = s.out := rfl
@[simp] theorem State.modImg_free (f : ImgSt → ImgSt) : (s.modImg f).free = s.free := rfl
@[simp] theorem State.modImg_policy (f : ImgSt → ImgSt) : (s.modImg f).policy = s.policy := rfl
@[simp] theorem State.modImg_err (f : ImgSt → ImgSt) : (s.modImg f).err = s.err := rfl
@[simp] theorem State.modImg_chk (f : ImgSt → ImgSt) : (s.modImg f).chk = s.chk := rfl
@[simp] theorem State.modImg_snp (f : ImgSt → ImgSt) : (s.modImg f).snp = s.snp := rfl
@[simp] theorem State.modImg_irq (f : ImgSt → ImgSt) : (s.modImg f).irq = s.irq := rfl
@[simp] theorem State.modImg_ezl (f : ImgSt → ImgSt) : (s.modImg f).ezl = s.ezl := rfl
@[simp] theorem State.modImg_stp (f : ImgSt → ImgSt) : (s.modImg f).stp = s.stp := rfl
@[simp] theorem State.modImg_fmt (f : ImgSt → ImgSt) : (s.modImg f).fmt = s.fmt := rfl
@[simp] theorem State.modImg_arr (f : ImgSt → ImgSt) : (s.modImg f).arr = s.arr := rfl
@[simp] theorem State.modImg_vec (f : ImgSt → ImgSt) : (s.modImg f).vec = s.vec := rfl
@[simp] theorem State.modImg_mxe (f : ImgSt → ImgSt) : (s.modImg f).mxe = s.mxe := rfl
@[simp] theorem State.modImg_upd (f : ImgSt → ImgSt) : (s.modImg f).upd = s.upd := rfl
@[simp] theorem State.modImg_red (f : ImgSt → ImgSt) : (s.modImg f).red = s.red := rfl
@[simp] theorem State.modImg_tsk (f : ImgSt → ImgSt) : (s.modImg f).tsk = s.tsk := rfl
@[simp] theorem State.modImg_mem (f : ImgSt → ImgSt) : (s.modImg f).mem = s.mem := rfl
@[simp] theorem State.modImg_hif (f : ImgSt → ImgSt) : (s.modImg f).hif = s.hif := rfl
@[simp] theorem State.modImg_pwr (f : ImgSt → ImgSt) : (s.modImg f).pwr = s.pwr := rfl
@[simp] theorem State.modImg_pending (f : ImgSt → ImgSt) : (s.modImg f).pending = s.pending := rfl
@[simp] theorem State.modImg_self (f : ImgSt → ImgSt) : (s.modImg f).img = f s.img := rfl

/-! ### modPwr -/

@[simp] theorem State.modPwr_regs (f : PwrSt → PwrSt) : (s.modPwr f).regs = s.regs := rfl
@[simp] theorem State.modPwr_pairLo (f : PwrSt → PwrSt) : (s.modPwr f).pairLo = s.pairLo := rfl
@[simp] theorem State.modPwr_pairCap (f : PwrSt → PwrSt) : (s.modPwr f).pairCap = s.pairCap := rfl
@[simp] theorem State.modPwr_out (f : PwrSt → PwrSt) : (s.modPwr f).out = s.out := rfl
@[simp] theorem State.modPwr_free (f : PwrSt → PwrSt) : (s.modPwr f).free = s.free := rfl
@[simp] theorem State.modPwr_policy (f : PwrSt → PwrSt) : (s.modPwr f).policy = s.policy := rfl
@[simp] theorem State.modPwr_err (f : PwrSt → PwrSt) : (s.modPwr f).err = s.err := rfl
@[simp] theorem State.modPwr_chk (f : PwrSt → PwrSt) : (s.modPwr f).chk = s.chk := rfl
@[simp] theorem State.modPwr_snp (f : PwrSt → PwrSt) : (s.modPwr f).snp = s.snp := rfl
@[simp] theorem State.modPwr_irq (f : PwrSt → PwrSt) : (s.modPwr f).irq = s.irq := rfl
@[simp] theorem State.modPwr_ezl (f : PwrSt → PwrSt) : (s.modPwr f).ezl = s.ezl := rfl
@[simp] theorem State.modPwr_stp (f : PwrSt → PwrSt) : (s.modPwr f).stp = s.stp := rfl
@[simp] theorem State.modPwr_fmt (f : PwrSt → PwrSt) : (s.modPwr f).fmt = s.fmt := rfl
@[simp] theorem State.modPwr_arr (f : PwrSt → PwrSt) : (s.modPwr f).arr = s.arr := rfl
@[simp] theorem State.modPwr_vec (f : PwrSt → PwrSt) : (s.modPwr f).vec = s.vec := rfl
@[simp] theorem State.modPwr_mxe (f : PwrSt → PwrSt) : (s.modPwr f).mxe = s.mxe := rfl
@[simp] theorem State.modPwr_upd (f : PwrSt → PwrSt) : (s.modPwr f).upd = s.upd := rfl
@[simp] theorem State.modPwr_red (f : PwrSt → PwrSt) : (s.modPwr f).red = s.red := rfl
@[simp] theorem State.modPwr_tsk (f : PwrSt → PwrSt) : (s.modPwr f).tsk = s.tsk := rfl
@[simp] theorem State.modPwr_mem (f : PwrSt → PwrSt) : (s.modPwr f).mem = s.mem := rfl
@[simp] theorem State.modPwr_hif (f : PwrSt → PwrSt) : (s.modPwr f).hif = s.hif := rfl
@[simp] theorem State.modPwr_img (f : PwrSt → PwrSt) : (s.modPwr f).img = s.img := rfl
@[simp] theorem State.modPwr_pending (f : PwrSt → PwrSt) : (s.modPwr f).pending = s.pending := rfl
@[simp] theorem State.modPwr_self (f : PwrSt → PwrSt) : (s.modPwr f).pwr = f s.pwr := rfl

/-! ### modTim -/

@[simp] theorem State.modTim_regs (f : TimeSt → TimeSt) : (s.modTim f).regs = s.regs := rfl
@[simp] theorem State.modTim_pairLo (f : TimeSt → TimeSt) : (s.modTim f).pairLo = s.pairLo := rfl
@[simp] theorem State.modTim_pairCap (f : TimeSt → TimeSt) : (s.modTim f).pairCap = s.pairCap := rfl
@[simp] theorem State.modTim_out (f : TimeSt → TimeSt) : (s.modTim f).out = s.out := rfl
@[simp] theorem State.modTim_free (f : TimeSt → TimeSt) : (s.modTim f).free = s.free := rfl
@[simp] theorem State.modTim_policy (f : TimeSt → TimeSt) : (s.modTim f).policy = s.policy := rfl
@[simp] theorem State.modTim_err (f : TimeSt → TimeSt) : (s.modTim f).err = s.err := rfl
@[simp] theorem State.modTim_chk (f : TimeSt → TimeSt) : (s.modTim f).chk = s.chk := rfl
@[simp] theorem State.modTim_snp (f : TimeSt → TimeSt) : (s.modTim f).snp = s.snp := rfl
@[simp] theorem State.modTim_irq (f : TimeSt → TimeSt) : (s.modTim f).irq = s.irq := rfl
@[simp] theorem State.modTim_stp (f : TimeSt → TimeSt) : (s.modTim f).stp = s.stp := rfl
@[simp] theorem State.modTim_fmt (f : TimeSt → TimeSt) : (s.modTim f).fmt = s.fmt := rfl
@[simp] theorem State.modTim_arr (f : TimeSt → TimeSt) : (s.modTim f).arr = s.arr := rfl
@[simp] theorem State.modTim_vec (f : TimeSt → TimeSt) : (s.modTim f).vec = s.vec := rfl
@[simp] theorem State.modTim_mxe (f : TimeSt → TimeSt) : (s.modTim f).mxe = s.mxe := rfl
@[simp] theorem State.modTim_upd (f : TimeSt → TimeSt) : (s.modTim f).upd = s.upd := rfl
@[simp] theorem State.modTim_red (f : TimeSt → TimeSt) : (s.modTim f).red = s.red := rfl
@[simp] theorem State.modTim_tsk (f : TimeSt → TimeSt) : (s.modTim f).tsk = s.tsk := rfl
@[simp] theorem State.modTim_mem (f : TimeSt → TimeSt) : (s.modTim f).mem = s.mem := rfl
@[simp] theorem State.modTim_hif (f : TimeSt → TimeSt) : (s.modTim f).hif = s.hif := rfl
@[simp] theorem State.modTim_img (f : TimeSt → TimeSt) : (s.modTim f).img = s.img := rfl
@[simp] theorem State.modTim_pwr (f : TimeSt → TimeSt) : (s.modTim f).pwr = s.pwr := rfl
@[simp] theorem State.modTim_pending (f : TimeSt → TimeSt) : (s.modTim f).pending = s.pending := rfl

/-! ### setChk -/

@[simp] theorem State.setChk_regs (u : Nat) (c : ChkUnit) : (s.setChk u c).regs = s.regs := rfl
@[simp] theorem State.setChk_pairLo (u : Nat) (c : ChkUnit) : (s.setChk u c).pairLo = s.pairLo := rfl
@[simp] theorem State.setChk_pairCap (u : Nat) (c : ChkUnit) : (s.setChk u c).pairCap = s.pairCap := rfl
@[simp] theorem State.setChk_out (u : Nat) (c : ChkUnit) : (s.setChk u c).out = s.out := rfl
@[simp] theorem State.setChk_free (u : Nat) (c : ChkUnit) : (s.setChk u c).free = s.free := rfl
@[simp] theorem State.setChk_policy (u : Nat) (c : ChkUnit) : (s.setChk u c).policy = s.policy := rfl
@[simp] theorem State.setChk_err (u : Nat) (c : ChkUnit) : (s.setChk u c).err = s.err := rfl
@[simp] theorem State.setChk_snp (u : Nat) (c : ChkUnit) : (s.setChk u c).snp = s.snp := rfl
@[simp] theorem State.setChk_irq (u : Nat) (c : ChkUnit) : (s.setChk u c).irq = s.irq := rfl
@[simp] theorem State.setChk_ezl (u : Nat) (c : ChkUnit) : (s.setChk u c).ezl = s.ezl := rfl
@[simp] theorem State.setChk_stp (u : Nat) (c : ChkUnit) : (s.setChk u c).stp = s.stp := rfl
@[simp] theorem State.setChk_fmt (u : Nat) (c : ChkUnit) : (s.setChk u c).fmt = s.fmt := rfl
@[simp] theorem State.setChk_arr (u : Nat) (c : ChkUnit) : (s.setChk u c).arr = s.arr := rfl
@[simp] theorem State.setChk_vec (u : Nat) (c : ChkUnit) : (s.setChk u c).vec = s.vec := rfl
@[simp] theorem State.setChk_mxe (u : Nat) (c : ChkUnit) : (s.setChk u c).mxe = s.mxe := rfl
@[simp] theorem State.setChk_upd (u : Nat) (c : ChkUnit) : (s.setChk u c).upd = s.upd := rfl
@[simp] theorem State.setChk_red (u : Nat) (c : ChkUnit) : (s.setChk u c).red = s.red := rfl
@[simp] theorem State.setChk_tsk (u : Nat) (c : ChkUnit) : (s.setChk u c).tsk = s.tsk := rfl
@[simp] theorem State.setChk_mem (u : Nat) (c : ChkUnit) : (s.setChk u c).mem = s.mem := rfl
@[simp] theorem State.setChk_hif (u : Nat) (c : ChkUnit) : (s.setChk u c).hif = s.hif := rfl
@[simp] theorem State.setChk_img (u : Nat) (c : ChkUnit) : (s.setChk u c).img = s.img := rfl
@[simp] theorem State.setChk_pwr (u : Nat) (c : ChkUnit) : (s.setChk u c).pwr = s.pwr := rfl
@[simp] theorem State.setChk_pending (u : Nat) (c : ChkUnit) : (s.setChk u c).pending = s.pending := rfl

/-! ### setIrq -/

@[simp] theorem State.setIrq_regs (d : Nat) (q : IrqSt) : (s.setIrq d q).regs = s.regs := rfl
@[simp] theorem State.setIrq_pairLo (d : Nat) (q : IrqSt) : (s.setIrq d q).pairLo = s.pairLo := rfl
@[simp] theorem State.setIrq_pairCap (d : Nat) (q : IrqSt) : (s.setIrq d q).pairCap = s.pairCap := rfl
@[simp] theorem State.setIrq_out (d : Nat) (q : IrqSt) : (s.setIrq d q).out = s.out := rfl
@[simp] theorem State.setIrq_free (d : Nat) (q : IrqSt) : (s.setIrq d q).free = s.free := rfl
@[simp] theorem State.setIrq_policy (d : Nat) (q : IrqSt) : (s.setIrq d q).policy = s.policy := rfl
@[simp] theorem State.setIrq_err (d : Nat) (q : IrqSt) : (s.setIrq d q).err = s.err := rfl
@[simp] theorem State.setIrq_chk (d : Nat) (q : IrqSt) : (s.setIrq d q).chk = s.chk := rfl
@[simp] theorem State.setIrq_snp (d : Nat) (q : IrqSt) : (s.setIrq d q).snp = s.snp := rfl
@[simp] theorem State.setIrq_ezl (d : Nat) (q : IrqSt) : (s.setIrq d q).ezl = s.ezl := rfl
@[simp] theorem State.setIrq_stp (d : Nat) (q : IrqSt) : (s.setIrq d q).stp = s.stp := rfl
@[simp] theorem State.setIrq_fmt (d : Nat) (q : IrqSt) : (s.setIrq d q).fmt = s.fmt := rfl
@[simp] theorem State.setIrq_arr (d : Nat) (q : IrqSt) : (s.setIrq d q).arr = s.arr := rfl
@[simp] theorem State.setIrq_vec (d : Nat) (q : IrqSt) : (s.setIrq d q).vec = s.vec := rfl
@[simp] theorem State.setIrq_mxe (d : Nat) (q : IrqSt) : (s.setIrq d q).mxe = s.mxe := rfl
@[simp] theorem State.setIrq_upd (d : Nat) (q : IrqSt) : (s.setIrq d q).upd = s.upd := rfl
@[simp] theorem State.setIrq_red (d : Nat) (q : IrqSt) : (s.setIrq d q).red = s.red := rfl
@[simp] theorem State.setIrq_tsk (d : Nat) (q : IrqSt) : (s.setIrq d q).tsk = s.tsk := rfl
@[simp] theorem State.setIrq_mem (d : Nat) (q : IrqSt) : (s.setIrq d q).mem = s.mem := rfl
@[simp] theorem State.setIrq_hif (d : Nat) (q : IrqSt) : (s.setIrq d q).hif = s.hif := rfl
@[simp] theorem State.setIrq_img (d : Nat) (q : IrqSt) : (s.setIrq d q).img = s.img := rfl
@[simp] theorem State.setIrq_pwr (d : Nat) (q : IrqSt) : (s.setIrq d q).pwr = s.pwr := rfl
@[simp] theorem State.setIrq_pending (d : Nat) (q : IrqSt) : (s.setIrq d q).pending = s.pending := rfl

/-! ### setLnk -/

@[simp] theorem State.setLnk_regs (l : Nat) (k : LinkSt) : (s.setLnk l k).regs = s.regs := rfl
@[simp] theorem State.setLnk_pairLo (l : Nat) (k : LinkSt) : (s.setLnk l k).pairLo = s.pairLo := rfl
@[simp] theorem State.setLnk_pairCap (l : Nat) (k : LinkSt) : (s.setLnk l k).pairCap = s.pairCap := rfl
@[simp] theorem State.setLnk_out (l : Nat) (k : LinkSt) : (s.setLnk l k).out = s.out := rfl
@[simp] theorem State.setLnk_free (l : Nat) (k : LinkSt) : (s.setLnk l k).free = s.free := rfl
@[simp] theorem State.setLnk_policy (l : Nat) (k : LinkSt) : (s.setLnk l k).policy = s.policy := rfl
@[simp] theorem State.setLnk_err (l : Nat) (k : LinkSt) : (s.setLnk l k).err = s.err := rfl
@[simp] theorem State.setLnk_chk (l : Nat) (k : LinkSt) : (s.setLnk l k).chk = s.chk := rfl
@[simp] theorem State.setLnk_snp (l : Nat) (k : LinkSt) : (s.setLnk l k).snp = s.snp := rfl
@[simp] theorem State.setLnk_irq (l : Nat) (k : LinkSt) : (s.setLnk l k).irq = s.irq := rfl
@[simp] theorem State.setLnk_stp (l : Nat) (k : LinkSt) : (s.setLnk l k).stp = s.stp := rfl
@[simp] theorem State.setLnk_fmt (l : Nat) (k : LinkSt) : (s.setLnk l k).fmt = s.fmt := rfl
@[simp] theorem State.setLnk_arr (l : Nat) (k : LinkSt) : (s.setLnk l k).arr = s.arr := rfl
@[simp] theorem State.setLnk_vec (l : Nat) (k : LinkSt) : (s.setLnk l k).vec = s.vec := rfl
@[simp] theorem State.setLnk_mxe (l : Nat) (k : LinkSt) : (s.setLnk l k).mxe = s.mxe := rfl
@[simp] theorem State.setLnk_upd (l : Nat) (k : LinkSt) : (s.setLnk l k).upd = s.upd := rfl
@[simp] theorem State.setLnk_red (l : Nat) (k : LinkSt) : (s.setLnk l k).red = s.red := rfl
@[simp] theorem State.setLnk_tsk (l : Nat) (k : LinkSt) : (s.setLnk l k).tsk = s.tsk := rfl
@[simp] theorem State.setLnk_mem (l : Nat) (k : LinkSt) : (s.setLnk l k).mem = s.mem := rfl
@[simp] theorem State.setLnk_hif (l : Nat) (k : LinkSt) : (s.setLnk l k).hif = s.hif := rfl
@[simp] theorem State.setLnk_img (l : Nat) (k : LinkSt) : (s.setLnk l k).img = s.img := rfl
@[simp] theorem State.setLnk_pwr (l : Nat) (k : LinkSt) : (s.setLnk l k).pwr = s.pwr := rfl
@[simp] theorem State.setLnk_pending (l : Nat) (k : LinkSt) : (s.setLnk l k).pending = s.pending := rfl

/-! ### setUnit -/

@[simp] theorem State.setUnit_regs (k : Nat) (x : UnitSt) : (s.setUnit k x).regs = s.regs := rfl
@[simp] theorem State.setUnit_pairLo (k : Nat) (x : UnitSt) : (s.setUnit k x).pairLo = s.pairLo := rfl
@[simp] theorem State.setUnit_pairCap (k : Nat) (x : UnitSt) : (s.setUnit k x).pairCap = s.pairCap := rfl
@[simp] theorem State.setUnit_out (k : Nat) (x : UnitSt) : (s.setUnit k x).out = s.out := rfl
@[simp] theorem State.setUnit_free (k : Nat) (x : UnitSt) : (s.setUnit k x).free = s.free := rfl
@[simp] theorem State.setUnit_policy (k : Nat) (x : UnitSt) : (s.setUnit k x).policy = s.policy := rfl
@[simp] theorem State.setUnit_err (k : Nat) (x : UnitSt) : (s.setUnit k x).err = s.err := rfl
@[simp] theorem State.setUnit_chk (k : Nat) (x : UnitSt) : (s.setUnit k x).chk = s.chk := rfl
@[simp] theorem State.setUnit_snp (k : Nat) (x : UnitSt) : (s.setUnit k x).snp = s.snp := rfl
@[simp] theorem State.setUnit_irq (k : Nat) (x : UnitSt) : (s.setUnit k x).irq = s.irq := rfl
@[simp] theorem State.setUnit_ezl (k : Nat) (x : UnitSt) : (s.setUnit k x).ezl = s.ezl := rfl
@[simp] theorem State.setUnit_stp (k : Nat) (x : UnitSt) : (s.setUnit k x).stp = s.stp := rfl
@[simp] theorem State.setUnit_fmt (k : Nat) (x : UnitSt) : (s.setUnit k x).fmt = s.fmt := rfl
@[simp] theorem State.setUnit_arr (k : Nat) (x : UnitSt) : (s.setUnit k x).arr = s.arr := rfl
@[simp] theorem State.setUnit_mxe (k : Nat) (x : UnitSt) : (s.setUnit k x).mxe = s.mxe := rfl
@[simp] theorem State.setUnit_upd (k : Nat) (x : UnitSt) : (s.setUnit k x).upd = s.upd := rfl
@[simp] theorem State.setUnit_red (k : Nat) (x : UnitSt) : (s.setUnit k x).red = s.red := rfl
@[simp] theorem State.setUnit_tsk (k : Nat) (x : UnitSt) : (s.setUnit k x).tsk = s.tsk := rfl
@[simp] theorem State.setUnit_mem (k : Nat) (x : UnitSt) : (s.setUnit k x).mem = s.mem := rfl
@[simp] theorem State.setUnit_hif (k : Nat) (x : UnitSt) : (s.setUnit k x).hif = s.hif := rfl
@[simp] theorem State.setUnit_img (k : Nat) (x : UnitSt) : (s.setUnit k x).img = s.img := rfl
@[simp] theorem State.setUnit_pwr (k : Nat) (x : UnitSt) : (s.setUnit k x).pwr = s.pwr := rfl
@[simp] theorem State.setUnit_pending (k : Nat) (x : UnitSt) : (s.setUnit k x).pending = s.pending := rfl

/-! ### setTask -/

@[simp] theorem State.setTask_regs (k : Nat) (t : Option TaskEnt) : (s.setTask k t).regs = s.regs := rfl
@[simp] theorem State.setTask_pairLo (k : Nat) (t : Option TaskEnt) : (s.setTask k t).pairLo = s.pairLo := rfl
@[simp] theorem State.setTask_pairCap (k : Nat) (t : Option TaskEnt) : (s.setTask k t).pairCap = s.pairCap := rfl
@[simp] theorem State.setTask_out (k : Nat) (t : Option TaskEnt) : (s.setTask k t).out = s.out := rfl
@[simp] theorem State.setTask_free (k : Nat) (t : Option TaskEnt) : (s.setTask k t).free = s.free := rfl
@[simp] theorem State.setTask_policy (k : Nat) (t : Option TaskEnt) : (s.setTask k t).policy = s.policy := rfl
@[simp] theorem State.setTask_err (k : Nat) (t : Option TaskEnt) : (s.setTask k t).err = s.err := rfl
@[simp] theorem State.setTask_chk (k : Nat) (t : Option TaskEnt) : (s.setTask k t).chk = s.chk := rfl
@[simp] theorem State.setTask_snp (k : Nat) (t : Option TaskEnt) : (s.setTask k t).snp = s.snp := rfl
@[simp] theorem State.setTask_irq (k : Nat) (t : Option TaskEnt) : (s.setTask k t).irq = s.irq := rfl
@[simp] theorem State.setTask_ezl (k : Nat) (t : Option TaskEnt) : (s.setTask k t).ezl = s.ezl := rfl
@[simp] theorem State.setTask_stp (k : Nat) (t : Option TaskEnt) : (s.setTask k t).stp = s.stp := rfl
@[simp] theorem State.setTask_fmt (k : Nat) (t : Option TaskEnt) : (s.setTask k t).fmt = s.fmt := rfl
@[simp] theorem State.setTask_arr (k : Nat) (t : Option TaskEnt) : (s.setTask k t).arr = s.arr := rfl
@[simp] theorem State.setTask_vec (k : Nat) (t : Option TaskEnt) : (s.setTask k t).vec = s.vec := rfl
@[simp] theorem State.setTask_mxe (k : Nat) (t : Option TaskEnt) : (s.setTask k t).mxe = s.mxe := rfl
@[simp] theorem State.setTask_upd (k : Nat) (t : Option TaskEnt) : (s.setTask k t).upd = s.upd := rfl
@[simp] theorem State.setTask_red (k : Nat) (t : Option TaskEnt) : (s.setTask k t).red = s.red := rfl
@[simp] theorem State.setTask_mem (k : Nat) (t : Option TaskEnt) : (s.setTask k t).mem = s.mem := rfl
@[simp] theorem State.setTask_hif (k : Nat) (t : Option TaskEnt) : (s.setTask k t).hif = s.hif := rfl
@[simp] theorem State.setTask_img (k : Nat) (t : Option TaskEnt) : (s.setTask k t).img = s.img := rfl
@[simp] theorem State.setTask_pwr (k : Nat) (t : Option TaskEnt) : (s.setTask k t).pwr = s.pwr := rfl
@[simp] theorem State.setTask_pending (k : Nat) (t : Option TaskEnt) : (s.setTask k t).pending = s.pending := rfl

/-! ### setChan -/

@[simp] theorem State.setChan_regs (c : Nat) (x : ChanSt) : (s.setChan c x).regs = s.regs := rfl
@[simp] theorem State.setChan_pairLo (c : Nat) (x : ChanSt) : (s.setChan c x).pairLo = s.pairLo := rfl
@[simp] theorem State.setChan_pairCap (c : Nat) (x : ChanSt) : (s.setChan c x).pairCap = s.pairCap := rfl
@[simp] theorem State.setChan_out (c : Nat) (x : ChanSt) : (s.setChan c x).out = s.out := rfl
@[simp] theorem State.setChan_free (c : Nat) (x : ChanSt) : (s.setChan c x).free = s.free := rfl
@[simp] theorem State.setChan_policy (c : Nat) (x : ChanSt) : (s.setChan c x).policy = s.policy := rfl
@[simp] theorem State.setChan_err (c : Nat) (x : ChanSt) : (s.setChan c x).err = s.err := rfl
@[simp] theorem State.setChan_chk (c : Nat) (x : ChanSt) : (s.setChan c x).chk = s.chk := rfl
@[simp] theorem State.setChan_snp (c : Nat) (x : ChanSt) : (s.setChan c x).snp = s.snp := rfl
@[simp] theorem State.setChan_irq (c : Nat) (x : ChanSt) : (s.setChan c x).irq = s.irq := rfl
@[simp] theorem State.setChan_ezl (c : Nat) (x : ChanSt) : (s.setChan c x).ezl = s.ezl := rfl
@[simp] theorem State.setChan_stp (c : Nat) (x : ChanSt) : (s.setChan c x).stp = s.stp := rfl
@[simp] theorem State.setChan_fmt (c : Nat) (x : ChanSt) : (s.setChan c x).fmt = s.fmt := rfl
@[simp] theorem State.setChan_arr (c : Nat) (x : ChanSt) : (s.setChan c x).arr = s.arr := rfl
@[simp] theorem State.setChan_vec (c : Nat) (x : ChanSt) : (s.setChan c x).vec = s.vec := rfl
@[simp] theorem State.setChan_mxe (c : Nat) (x : ChanSt) : (s.setChan c x).mxe = s.mxe := rfl
@[simp] theorem State.setChan_upd (c : Nat) (x : ChanSt) : (s.setChan c x).upd = s.upd := rfl
@[simp] theorem State.setChan_tsk (c : Nat) (x : ChanSt) : (s.setChan c x).tsk = s.tsk := rfl
@[simp] theorem State.setChan_mem (c : Nat) (x : ChanSt) : (s.setChan c x).mem = s.mem := rfl
@[simp] theorem State.setChan_hif (c : Nat) (x : ChanSt) : (s.setChan c x).hif = s.hif := rfl
@[simp] theorem State.setChan_img (c : Nat) (x : ChanSt) : (s.setChan c x).img = s.img := rfl
@[simp] theorem State.setChan_pwr (c : Nat) (x : ChanSt) : (s.setChan c x).pwr = s.pwr := rfl
@[simp] theorem State.setChan_pending (c : Nat) (x : ChanSt) : (s.setChan c x).pending = s.pending := rfl

/-! ### setUpd -/

@[simp] theorem State.setUpd_regs (d : Nat) (x : UpdDie) : (s.setUpd d x).regs = s.regs := rfl
@[simp] theorem State.setUpd_pairLo (d : Nat) (x : UpdDie) : (s.setUpd d x).pairLo = s.pairLo := rfl
@[simp] theorem State.setUpd_pairCap (d : Nat) (x : UpdDie) : (s.setUpd d x).pairCap = s.pairCap := rfl
@[simp] theorem State.setUpd_out (d : Nat) (x : UpdDie) : (s.setUpd d x).out = s.out := rfl
@[simp] theorem State.setUpd_free (d : Nat) (x : UpdDie) : (s.setUpd d x).free = s.free := rfl
@[simp] theorem State.setUpd_policy (d : Nat) (x : UpdDie) : (s.setUpd d x).policy = s.policy := rfl
@[simp] theorem State.setUpd_err (d : Nat) (x : UpdDie) : (s.setUpd d x).err = s.err := rfl
@[simp] theorem State.setUpd_chk (d : Nat) (x : UpdDie) : (s.setUpd d x).chk = s.chk := rfl
@[simp] theorem State.setUpd_snp (d : Nat) (x : UpdDie) : (s.setUpd d x).snp = s.snp := rfl
@[simp] theorem State.setUpd_irq (d : Nat) (x : UpdDie) : (s.setUpd d x).irq = s.irq := rfl
@[simp] theorem State.setUpd_ezl (d : Nat) (x : UpdDie) : (s.setUpd d x).ezl = s.ezl := rfl
@[simp] theorem State.setUpd_stp (d : Nat) (x : UpdDie) : (s.setUpd d x).stp = s.stp := rfl
@[simp] theorem State.setUpd_fmt (d : Nat) (x : UpdDie) : (s.setUpd d x).fmt = s.fmt := rfl
@[simp] theorem State.setUpd_arr (d : Nat) (x : UpdDie) : (s.setUpd d x).arr = s.arr := rfl
@[simp] theorem State.setUpd_vec (d : Nat) (x : UpdDie) : (s.setUpd d x).vec = s.vec := rfl
@[simp] theorem State.setUpd_mxe (d : Nat) (x : UpdDie) : (s.setUpd d x).mxe = s.mxe := rfl
@[simp] theorem State.setUpd_red (d : Nat) (x : UpdDie) : (s.setUpd d x).red = s.red := rfl
@[simp] theorem State.setUpd_tsk (d : Nat) (x : UpdDie) : (s.setUpd d x).tsk = s.tsk := rfl
@[simp] theorem State.setUpd_mem (d : Nat) (x : UpdDie) : (s.setUpd d x).mem = s.mem := rfl
@[simp] theorem State.setUpd_hif (d : Nat) (x : UpdDie) : (s.setUpd d x).hif = s.hif := rfl
@[simp] theorem State.setUpd_img (d : Nat) (x : UpdDie) : (s.setUpd d x).img = s.img := rfl
@[simp] theorem State.setUpd_pwr (d : Nat) (x : UpdDie) : (s.setUpd d x).pwr = s.pwr := rfl
@[simp] theorem State.setUpd_pending (d : Nat) (x : UpdDie) : (s.setUpd d x).pending = s.pending := rfl

/-! ### setCtx -/

@[simp] theorem State.setCtx_regs (h : Nat) (x : CtxSt) : (s.setCtx h x).regs = s.regs := rfl
@[simp] theorem State.setCtx_pairLo (h : Nat) (x : CtxSt) : (s.setCtx h x).pairLo = s.pairLo := rfl
@[simp] theorem State.setCtx_pairCap (h : Nat) (x : CtxSt) : (s.setCtx h x).pairCap = s.pairCap := rfl
@[simp] theorem State.setCtx_out (h : Nat) (x : CtxSt) : (s.setCtx h x).out = s.out := rfl
@[simp] theorem State.setCtx_free (h : Nat) (x : CtxSt) : (s.setCtx h x).free = s.free := rfl
@[simp] theorem State.setCtx_policy (h : Nat) (x : CtxSt) : (s.setCtx h x).policy = s.policy := rfl
@[simp] theorem State.setCtx_err (h : Nat) (x : CtxSt) : (s.setCtx h x).err = s.err := rfl
@[simp] theorem State.setCtx_chk (h : Nat) (x : CtxSt) : (s.setCtx h x).chk = s.chk := rfl
@[simp] theorem State.setCtx_snp (h : Nat) (x : CtxSt) : (s.setCtx h x).snp = s.snp := rfl
@[simp] theorem State.setCtx_irq (h : Nat) (x : CtxSt) : (s.setCtx h x).irq = s.irq := rfl
@[simp] theorem State.setCtx_ezl (h : Nat) (x : CtxSt) : (s.setCtx h x).ezl = s.ezl := rfl
@[simp] theorem State.setCtx_stp (h : Nat) (x : CtxSt) : (s.setCtx h x).stp = s.stp := rfl
@[simp] theorem State.setCtx_fmt (h : Nat) (x : CtxSt) : (s.setCtx h x).fmt = s.fmt := rfl
@[simp] theorem State.setCtx_arr (h : Nat) (x : CtxSt) : (s.setCtx h x).arr = s.arr := rfl
@[simp] theorem State.setCtx_vec (h : Nat) (x : CtxSt) : (s.setCtx h x).vec = s.vec := rfl
@[simp] theorem State.setCtx_mxe (h : Nat) (x : CtxSt) : (s.setCtx h x).mxe = s.mxe := rfl
@[simp] theorem State.setCtx_upd (h : Nat) (x : CtxSt) : (s.setCtx h x).upd = s.upd := rfl
@[simp] theorem State.setCtx_red (h : Nat) (x : CtxSt) : (s.setCtx h x).red = s.red := rfl
@[simp] theorem State.setCtx_tsk (h : Nat) (x : CtxSt) : (s.setCtx h x).tsk = s.tsk := rfl
@[simp] theorem State.setCtx_hif (h : Nat) (x : CtxSt) : (s.setCtx h x).hif = s.hif := rfl
@[simp] theorem State.setCtx_img (h : Nat) (x : CtxSt) : (s.setCtx h x).img = s.img := rfl
@[simp] theorem State.setCtx_pwr (h : Nat) (x : CtxSt) : (s.setCtx h x).pwr = s.pwr := rfl
@[simp] theorem State.setCtx_pending (h : Nat) (x : CtxSt) : (s.setCtx h x).pending = s.pending := rfl

/-! ### setQueue -/

@[simp] theorem State.setQueue_regs (q : Nat) (x : QueueSt) : (s.setQueue q x).regs = s.regs := rfl
@[simp] theorem State.setQueue_pairLo (q : Nat) (x : QueueSt) : (s.setQueue q x).pairLo = s.pairLo := rfl
@[simp] theorem State.setQueue_pairCap (q : Nat) (x : QueueSt) : (s.setQueue q x).pairCap = s.pairCap := rfl
@[simp] theorem State.setQueue_out (q : Nat) (x : QueueSt) : (s.setQueue q x).out = s.out := rfl
@[simp] theorem State.setQueue_free (q : Nat) (x : QueueSt) : (s.setQueue q x).free = s.free := rfl
@[simp] theorem State.setQueue_policy (q : Nat) (x : QueueSt) : (s.setQueue q x).policy = s.policy := rfl
@[simp] theorem State.setQueue_err (q : Nat) (x : QueueSt) : (s.setQueue q x).err = s.err := rfl
@[simp] theorem State.setQueue_chk (q : Nat) (x : QueueSt) : (s.setQueue q x).chk = s.chk := rfl
@[simp] theorem State.setQueue_snp (q : Nat) (x : QueueSt) : (s.setQueue q x).snp = s.snp := rfl
@[simp] theorem State.setQueue_irq (q : Nat) (x : QueueSt) : (s.setQueue q x).irq = s.irq := rfl
@[simp] theorem State.setQueue_ezl (q : Nat) (x : QueueSt) : (s.setQueue q x).ezl = s.ezl := rfl
@[simp] theorem State.setQueue_stp (q : Nat) (x : QueueSt) : (s.setQueue q x).stp = s.stp := rfl
@[simp] theorem State.setQueue_fmt (q : Nat) (x : QueueSt) : (s.setQueue q x).fmt = s.fmt := rfl
@[simp] theorem State.setQueue_arr (q : Nat) (x : QueueSt) : (s.setQueue q x).arr = s.arr := rfl
@[simp] theorem State.setQueue_vec (q : Nat) (x : QueueSt) : (s.setQueue q x).vec = s.vec := rfl
@[simp] theorem State.setQueue_mxe (q : Nat) (x : QueueSt) : (s.setQueue q x).mxe = s.mxe := rfl
@[simp] theorem State.setQueue_upd (q : Nat) (x : QueueSt) : (s.setQueue q x).upd = s.upd := rfl
@[simp] theorem State.setQueue_red (q : Nat) (x : QueueSt) : (s.setQueue q x).red = s.red := rfl
@[simp] theorem State.setQueue_tsk (q : Nat) (x : QueueSt) : (s.setQueue q x).tsk = s.tsk := rfl
@[simp] theorem State.setQueue_mem (q : Nat) (x : QueueSt) : (s.setQueue q x).mem = s.mem := rfl
@[simp] theorem State.setQueue_img (q : Nat) (x : QueueSt) : (s.setQueue q x).img = s.img := rfl
@[simp] theorem State.setQueue_pwr (q : Nat) (x : QueueSt) : (s.setQueue q x).pwr = s.pwr := rfl
@[simp] theorem State.setQueue_pending (q : Nat) (x : QueueSt) : (s.setQueue q x).pending = s.pending := rfl

/-! ### loWrite -/

@[simp] theorem State.loWrite_regs (rq : Requester) (a : Nat) (v : Word) : (s.loWrite rq a v).regs = s.regs := rfl
@[simp] theorem State.loWrite_pairCap (rq : Requester) (a : Nat) (v : Word) : (s.loWrite rq a v).pairCap = s.pairCap := rfl
@[simp] theorem State.loWrite_out (rq : Requester) (a : Nat) (v : Word) : (s.loWrite rq a v).out = s.out := rfl
@[simp] theorem State.loWrite_free (rq : Requester) (a : Nat) (v : Word) : (s.loWrite rq a v).free = s.free := rfl
@[simp] theorem State.loWrite_policy (rq : Requester) (a : Nat) (v : Word) : (s.loWrite rq a v).policy = s.policy := rfl
@[simp] theorem State.loWrite_err (rq : Requester) (a : Nat) (v : Word) : (s.loWrite rq a v).err = s.err := rfl
@[simp] theorem State.loWrite_chk (rq : Requester) (a : Nat) (v : Word) : (s.loWrite rq a v).chk = s.chk := rfl
@[simp] theorem State.loWrite_snp (rq : Requester) (a : Nat) (v : Word) : (s.loWrite rq a v).snp = s.snp := rfl
@[simp] theorem State.loWrite_irq (rq : Requester) (a : Nat) (v : Word) : (s.loWrite rq a v).irq = s.irq := rfl
@[simp] theorem State.loWrite_ezl (rq : Requester) (a : Nat) (v : Word) : (s.loWrite rq a v).ezl = s.ezl := rfl
@[simp] theorem State.loWrite_stp (rq : Requester) (a : Nat) (v : Word) : (s.loWrite rq a v).stp = s.stp := rfl
@[simp] theorem State.loWrite_fmt (rq : Requester) (a : Nat) (v : Word) : (s.loWrite rq a v).fmt = s.fmt := rfl
@[simp] theorem State.loWrite_arr (rq : Requester) (a : Nat) (v : Word) : (s.loWrite rq a v).arr = s.arr := rfl
@[simp] theorem State.loWrite_vec (rq : Requester) (a : Nat) (v : Word) : (s.loWrite rq a v).vec = s.vec := rfl
@[simp] theorem State.loWrite_mxe (rq : Requester) (a : Nat) (v : Word) : (s.loWrite rq a v).mxe = s.mxe := rfl
@[simp] theorem State.loWrite_upd (rq : Requester) (a : Nat) (v : Word) : (s.loWrite rq a v).upd = s.upd := rfl
@[simp] theorem State.loWrite_red (rq : Requester) (a : Nat) (v : Word) : (s.loWrite rq a v).red = s.red := rfl
@[simp] theorem State.loWrite_tsk (rq : Requester) (a : Nat) (v : Word) : (s.loWrite rq a v).tsk = s.tsk := rfl
@[simp] theorem State.loWrite_mem (rq : Requester) (a : Nat) (v : Word) : (s.loWrite rq a v).mem = s.mem := rfl
@[simp] theorem State.loWrite_hif (rq : Requester) (a : Nat) (v : Word) : (s.loWrite rq a v).hif = s.hif := rfl
@[simp] theorem State.loWrite_img (rq : Requester) (a : Nat) (v : Word) : (s.loWrite rq a v).img = s.img := rfl
@[simp] theorem State.loWrite_pwr (rq : Requester) (a : Nat) (v : Word) : (s.loWrite rq a v).pwr = s.pwr := rfl
@[simp] theorem State.loWrite_pending (rq : Requester) (a : Nat) (v : Word) : (s.loWrite rq a v).pending = s.pending := rfl

/-! ### loUsed -/

@[simp] theorem State.loUsed_regs (rq : Requester) (a : Nat) : (s.loUsed rq a).regs = s.regs := rfl
@[simp] theorem State.loUsed_pairCap (rq : Requester) (a : Nat) : (s.loUsed rq a).pairCap = s.pairCap := rfl
@[simp] theorem State.loUsed_out (rq : Requester) (a : Nat) : (s.loUsed rq a).out = s.out := rfl
@[simp] theorem State.loUsed_free (rq : Requester) (a : Nat) : (s.loUsed rq a).free = s.free := rfl
@[simp] theorem State.loUsed_policy (rq : Requester) (a : Nat) : (s.loUsed rq a).policy = s.policy := rfl
@[simp] theorem State.loUsed_err (rq : Requester) (a : Nat) : (s.loUsed rq a).err = s.err := rfl
@[simp] theorem State.loUsed_chk (rq : Requester) (a : Nat) : (s.loUsed rq a).chk = s.chk := rfl
@[simp] theorem State.loUsed_snp (rq : Requester) (a : Nat) : (s.loUsed rq a).snp = s.snp := rfl
@[simp] theorem State.loUsed_irq (rq : Requester) (a : Nat) : (s.loUsed rq a).irq = s.irq := rfl
@[simp] theorem State.loUsed_ezl (rq : Requester) (a : Nat) : (s.loUsed rq a).ezl = s.ezl := rfl
@[simp] theorem State.loUsed_stp (rq : Requester) (a : Nat) : (s.loUsed rq a).stp = s.stp := rfl
@[simp] theorem State.loUsed_fmt (rq : Requester) (a : Nat) : (s.loUsed rq a).fmt = s.fmt := rfl
@[simp] theorem State.loUsed_arr (rq : Requester) (a : Nat) : (s.loUsed rq a).arr = s.arr := rfl
@[simp] theorem State.loUsed_vec (rq : Requester) (a : Nat) : (s.loUsed rq a).vec = s.vec := rfl
@[simp] theorem State.loUsed_mxe (rq : Requester) (a : Nat) : (s.loUsed rq a).mxe = s.mxe := rfl
@[simp] theorem State.loUsed_upd (rq : Requester) (a : Nat) : (s.loUsed rq a).upd = s.upd := rfl
@[simp] theorem State.loUsed_red (rq : Requester) (a : Nat) : (s.loUsed rq a).red = s.red := rfl
@[simp] theorem State.loUsed_tsk (rq : Requester) (a : Nat) : (s.loUsed rq a).tsk = s.tsk := rfl
@[simp] theorem State.loUsed_mem (rq : Requester) (a : Nat) : (s.loUsed rq a).mem = s.mem := rfl
@[simp] theorem State.loUsed_hif (rq : Requester) (a : Nat) : (s.loUsed rq a).hif = s.hif := rfl
@[simp] theorem State.loUsed_img (rq : Requester) (a : Nat) : (s.loUsed rq a).img = s.img := rfl
@[simp] theorem State.loUsed_pwr (rq : Requester) (a : Nat) : (s.loUsed rq a).pwr = s.pwr := rfl
@[simp] theorem State.loUsed_pending (rq : Requester) (a : Nat) : (s.loUsed rq a).pending = s.pending := rfl

/-! ### capture -/

@[simp] theorem State.capture_regs (rq : Requester) (a : Nat) (hi : Word) : (State.capture s rq a hi).regs = s.regs := rfl
@[simp] theorem State.capture_pairLo (rq : Requester) (a : Nat) (hi : Word) : (State.capture s rq a hi).pairLo = s.pairLo := rfl
@[simp] theorem State.capture_out (rq : Requester) (a : Nat) (hi : Word) : (State.capture s rq a hi).out = s.out := rfl
@[simp] theorem State.capture_free (rq : Requester) (a : Nat) (hi : Word) : (State.capture s rq a hi).free = s.free := rfl
@[simp] theorem State.capture_policy (rq : Requester) (a : Nat) (hi : Word) : (State.capture s rq a hi).policy = s.policy := rfl
@[simp] theorem State.capture_err (rq : Requester) (a : Nat) (hi : Word) : (State.capture s rq a hi).err = s.err := rfl
@[simp] theorem State.capture_chk (rq : Requester) (a : Nat) (hi : Word) : (State.capture s rq a hi).chk = s.chk := rfl
@[simp] theorem State.capture_snp (rq : Requester) (a : Nat) (hi : Word) : (State.capture s rq a hi).snp = s.snp := rfl
@[simp] theorem State.capture_irq (rq : Requester) (a : Nat) (hi : Word) : (State.capture s rq a hi).irq = s.irq := rfl
@[simp] theorem State.capture_ezl (rq : Requester) (a : Nat) (hi : Word) : (State.capture s rq a hi).ezl = s.ezl := rfl
@[simp] theorem State.capture_stp (rq : Requester) (a : Nat) (hi : Word) : (State.capture s rq a hi).stp = s.stp := rfl
@[simp] theorem State.capture_fmt (rq : Requester) (a : Nat) (hi : Word) : (State.capture s rq a hi).fmt = s.fmt := rfl
@[simp] theorem State.capture_arr (rq : Requester) (a : Nat) (hi : Word) : (State.capture s rq a hi).arr = s.arr := rfl
@[simp] theorem State.capture_vec (rq : Requester) (a : Nat) (hi : Word) : (State.capture s rq a hi).vec = s.vec := rfl
@[simp] theorem State.capture_mxe (rq : Requester) (a : Nat) (hi : Word) : (State.capture s rq a hi).mxe = s.mxe := rfl
@[simp] theorem State.capture_upd (rq : Requester) (a : Nat) (hi : Word) : (State.capture s rq a hi).upd = s.upd := rfl
@[simp] theorem State.capture_red (rq : Requester) (a : Nat) (hi : Word) : (State.capture s rq a hi).red = s.red := rfl
@[simp] theorem State.capture_tsk (rq : Requester) (a : Nat) (hi : Word) : (State.capture s rq a hi).tsk = s.tsk := rfl
@[simp] theorem State.capture_mem (rq : Requester) (a : Nat) (hi : Word) : (State.capture s rq a hi).mem = s.mem := rfl
@[simp] theorem State.capture_hif (rq : Requester) (a : Nat) (hi : Word) : (State.capture s rq a hi).hif = s.hif := rfl
@[simp] theorem State.capture_img (rq : Requester) (a : Nat) (hi : Word) : (State.capture s rq a hi).img = s.img := rfl
@[simp] theorem State.capture_pwr (rq : Requester) (a : Nat) (hi : Word) : (State.capture s rq a hi).pwr = s.pwr := rfl
@[simp] theorem State.capture_pending (rq : Requester) (a : Nat) (hi : Word) : (State.capture s rq a hi).pending = s.pending := rfl

/-! ### capUsed -/

@[simp] theorem State.capUsed_regs (rq : Requester) (a : Nat) : (s.capUsed rq a).regs = s.regs := rfl
@[simp] theorem State.capUsed_pairLo (rq : Requester) (a : Nat) : (s.capUsed rq a).pairLo = s.pairLo := rfl
@[simp] theorem State.capUsed_out (rq : Requester) (a : Nat) : (s.capUsed rq a).out = s.out := rfl
@[simp] theorem State.capUsed_free (rq : Requester) (a : Nat) : (s.capUsed rq a).free = s.free := rfl
@[simp] theorem State.capUsed_policy (rq : Requester) (a : Nat) : (s.capUsed rq a).policy = s.policy := rfl
@[simp] theorem State.capUsed_err (rq : Requester) (a : Nat) : (s.capUsed rq a).err = s.err := rfl
@[simp] theorem State.capUsed_chk (rq : Requester) (a : Nat) : (s.capUsed rq a).chk = s.chk := rfl
@[simp] theorem State.capUsed_snp (rq : Requester) (a : Nat) : (s.capUsed rq a).snp = s.snp := rfl
@[simp] theorem State.capUsed_irq (rq : Requester) (a : Nat) : (s.capUsed rq a).irq = s.irq := rfl
@[simp] theorem State.capUsed_ezl (rq : Requester) (a : Nat) : (s.capUsed rq a).ezl = s.ezl := rfl
@[simp] theorem State.capUsed_stp (rq : Requester) (a : Nat) : (s.capUsed rq a).stp = s.stp := rfl
@[simp] theorem State.capUsed_fmt (rq : Requester) (a : Nat) : (s.capUsed rq a).fmt = s.fmt := rfl
@[simp] theorem State.capUsed_arr (rq : Requester) (a : Nat) : (s.capUsed rq a).arr = s.arr := rfl
@[simp] theorem State.capUsed_vec (rq : Requester) (a : Nat) : (s.capUsed rq a).vec = s.vec := rfl
@[simp] theorem State.capUsed_mxe (rq : Requester) (a : Nat) : (s.capUsed rq a).mxe = s.mxe := rfl
@[simp] theorem State.capUsed_upd (rq : Requester) (a : Nat) : (s.capUsed rq a).upd = s.upd := rfl
@[simp] theorem State.capUsed_red (rq : Requester) (a : Nat) : (s.capUsed rq a).red = s.red := rfl
@[simp] theorem State.capUsed_tsk (rq : Requester) (a : Nat) : (s.capUsed rq a).tsk = s.tsk := rfl
@[simp] theorem State.capUsed_mem (rq : Requester) (a : Nat) : (s.capUsed rq a).mem = s.mem := rfl
@[simp] theorem State.capUsed_hif (rq : Requester) (a : Nat) : (s.capUsed rq a).hif = s.hif := rfl
@[simp] theorem State.capUsed_img (rq : Requester) (a : Nat) : (s.capUsed rq a).img = s.img := rfl
@[simp] theorem State.capUsed_pwr (rq : Requester) (a : Nat) : (s.capUsed rq a).pwr = s.pwr := rfl
@[simp] theorem State.capUsed_pending (rq : Requester) (a : Nat) : (s.capUsed rq a).pending = s.pending := rfl

/-! ### logEnt -/

@[simp] theorem State.logEnt_pairLo (e : LogEnt) : (s.logEnt e).pairLo = s.pairLo := by
  unfold State.logEnt; split <;> rfl
@[simp] theorem State.logEnt_pairCap (e : LogEnt) : (s.logEnt e).pairCap = s.pairCap := by
  unfold State.logEnt; split <;> rfl
@[simp] theorem State.logEnt_out (e : LogEnt) : (s.logEnt e).out = s.out := by
  unfold State.logEnt; split <;> rfl
@[simp] theorem State.logEnt_free (e : LogEnt) : (s.logEnt e).free = s.free := by
  unfold State.logEnt; split <;> rfl
@[simp] theorem State.logEnt_policy (e : LogEnt) : (s.logEnt e).policy = s.policy := by
  unfold State.logEnt; split <;> rfl
@[simp] theorem State.logEnt_chk (e : LogEnt) : (s.logEnt e).chk = s.chk := by
  unfold State.logEnt; split <;> rfl
@[simp] theorem State.logEnt_snp (e : LogEnt) : (s.logEnt e).snp = s.snp := by
  unfold State.logEnt; split <;> rfl
@[simp] theorem State.logEnt_irq (e : LogEnt) : (s.logEnt e).irq = s.irq := by
  unfold State.logEnt; split <;> rfl
@[simp] theorem State.logEnt_ezl (e : LogEnt) : (s.logEnt e).ezl = s.ezl := by
  unfold State.logEnt; split <;> rfl
@[simp] theorem State.logEnt_stp (e : LogEnt) : (s.logEnt e).stp = s.stp := by
  unfold State.logEnt; split <;> rfl
@[simp] theorem State.logEnt_fmt (e : LogEnt) : (s.logEnt e).fmt = s.fmt := by
  unfold State.logEnt; split <;> rfl
@[simp] theorem State.logEnt_arr (e : LogEnt) : (s.logEnt e).arr = s.arr := by
  unfold State.logEnt; split <;> rfl
@[simp] theorem State.logEnt_vec (e : LogEnt) : (s.logEnt e).vec = s.vec := by
  unfold State.logEnt; split <;> rfl
@[simp] theorem State.logEnt_mxe (e : LogEnt) : (s.logEnt e).mxe = s.mxe := by
  unfold State.logEnt; split <;> rfl
@[simp] theorem State.logEnt_upd (e : LogEnt) : (s.logEnt e).upd = s.upd := by
  unfold State.logEnt; split <;> rfl
@[simp] theorem State.logEnt_red (e : LogEnt) : (s.logEnt e).red = s.red := by
  unfold State.logEnt; split <;> rfl
@[simp] theorem State.logEnt_tsk (e : LogEnt) : (s.logEnt e).tsk = s.tsk := by
  unfold State.logEnt; split <;> rfl
@[simp] theorem State.logEnt_mem (e : LogEnt) : (s.logEnt e).mem = s.mem := by
  unfold State.logEnt; split <;> rfl
@[simp] theorem State.logEnt_hif (e : LogEnt) : (s.logEnt e).hif = s.hif := by
  unfold State.logEnt; split <;> rfl
@[simp] theorem State.logEnt_img (e : LogEnt) : (s.logEnt e).img = s.img := by
  unfold State.logEnt; split <;> rfl
@[simp] theorem State.logEnt_pwr (e : LogEnt) : (s.logEnt e).pwr = s.pwr := by
  unfold State.logEnt; split <;> rfl
@[simp] theorem State.logEnt_pending (e : LogEnt) : (s.logEnt e).pending = s.pending := by
  unfold State.logEnt; split <;> rfl

/-! ### log -/

@[simp] theorem State.log_pairLo (blk cls bit cause detail : Nat) : (s.log blk cls bit cause detail).pairLo = s.pairLo := State.logEnt_pairLo s _
@[simp] theorem State.log_pairCap (blk cls bit cause detail : Nat) : (s.log blk cls bit cause detail).pairCap = s.pairCap := State.logEnt_pairCap s _
@[simp] theorem State.log_out (blk cls bit cause detail : Nat) : (s.log blk cls bit cause detail).out = s.out := State.logEnt_out s _
@[simp] theorem State.log_free (blk cls bit cause detail : Nat) : (s.log blk cls bit cause detail).free = s.free := State.logEnt_free s _
@[simp] theorem State.log_policy (blk cls bit cause detail : Nat) : (s.log blk cls bit cause detail).policy = s.policy := State.logEnt_policy s _
@[simp] theorem State.log_chk (blk cls bit cause detail : Nat) : (s.log blk cls bit cause detail).chk = s.chk := State.logEnt_chk s _
@[simp] theorem State.log_snp (blk cls bit cause detail : Nat) : (s.log blk cls bit cause detail).snp = s.snp := State.logEnt_snp s _
@[simp] theorem State.log_irq (blk cls bit cause detail : Nat) : (s.log blk cls bit cause detail).irq = s.irq := State.logEnt_irq s _
@[simp] theorem State.log_ezl (blk cls bit cause detail : Nat) : (s.log blk cls bit cause detail).ezl = s.ezl := State.logEnt_ezl s _
@[simp] theorem State.log_stp (blk cls bit cause detail : Nat) : (s.log blk cls bit cause detail).stp = s.stp := State.logEnt_stp s _
@[simp] theorem State.log_fmt (blk cls bit cause detail : Nat) : (s.log blk cls bit cause detail).fmt = s.fmt := State.logEnt_fmt s _
@[simp] theorem State.log_arr (blk cls bit cause detail : Nat) : (s.log blk cls bit cause detail).arr = s.arr := State.logEnt_arr s _
@[simp] theorem State.log_vec (blk cls bit cause detail : Nat) : (s.log blk cls bit cause detail).vec = s.vec := State.logEnt_vec s _
@[simp] theorem State.log_mxe (blk cls bit cause detail : Nat) : (s.log blk cls bit cause detail).mxe = s.mxe := State.logEnt_mxe s _
@[simp] theorem State.log_upd (blk cls bit cause detail : Nat) : (s.log blk cls bit cause detail).upd = s.upd := State.logEnt_upd s _
@[simp] theorem State.log_red (blk cls bit cause detail : Nat) : (s.log blk cls bit cause detail).red = s.red := State.logEnt_red s _
@[simp] theorem State.log_tsk (blk cls bit cause detail : Nat) : (s.log blk cls bit cause detail).tsk = s.tsk := State.logEnt_tsk s _
@[simp] theorem State.log_mem (blk cls bit cause detail : Nat) : (s.log blk cls bit cause detail).mem = s.mem := State.logEnt_mem s _
@[simp] theorem State.log_hif (blk cls bit cause detail : Nat) : (s.log blk cls bit cause detail).hif = s.hif := State.logEnt_hif s _
@[simp] theorem State.log_img (blk cls bit cause detail : Nat) : (s.log blk cls bit cause detail).img = s.img := State.logEnt_img s _
@[simp] theorem State.log_pwr (blk cls bit cause detail : Nat) : (s.log blk cls bit cause detail).pwr = s.pwr := State.logEnt_pwr s _
@[simp] theorem State.log_pending (blk cls bit cause detail : Nat) : (s.log blk cls bit cause detail).pending = s.pending := State.logEnt_pending s _

/-! ### eventLog -/

@[simp] theorem State.eventLog_pairLo (a i blk cls cause detail : Nat) : (s.eventLog a i blk cls cause detail).pairLo = s.pairLo := State.logEnt_pairLo (s.event a i) _
@[simp] theorem State.eventLog_pairCap (a i blk cls cause detail : Nat) : (s.eventLog a i blk cls cause detail).pairCap = s.pairCap := State.logEnt_pairCap (s.event a i) _
@[simp] theorem State.eventLog_out (a i blk cls cause detail : Nat) : (s.eventLog a i blk cls cause detail).out = s.out := State.logEnt_out (s.event a i) _
@[simp] theorem State.eventLog_free (a i blk cls cause detail : Nat) : (s.eventLog a i blk cls cause detail).free = s.free := State.logEnt_free (s.event a i) _
@[simp] theorem State.eventLog_policy (a i blk cls cause detail : Nat) : (s.eventLog a i blk cls cause detail).policy = s.policy := State.logEnt_policy (s.event a i) _
@[simp] theorem State.eventLog_chk (a i blk cls cause detail : Nat) : (s.eventLog a i blk cls cause detail).chk = s.chk := State.logEnt_chk (s.event a i) _
@[simp] theorem State.eventLog_snp (a i blk cls cause detail : Nat) : (s.eventLog a i blk cls cause detail).snp = s.snp := State.logEnt_snp (s.event a i) _
@[simp] theorem State.eventLog_irq (a i blk cls cause detail : Nat) : (s.eventLog a i blk cls cause detail).irq = s.irq := State.logEnt_irq (s.event a i) _
@[simp] theorem State.eventLog_ezl (a i blk cls cause detail : Nat) : (s.eventLog a i blk cls cause detail).ezl = s.ezl := State.logEnt_ezl (s.event a i) _
@[simp] theorem State.eventLog_stp (a i blk cls cause detail : Nat) : (s.eventLog a i blk cls cause detail).stp = s.stp := State.logEnt_stp (s.event a i) _
@[simp] theorem State.eventLog_fmt (a i blk cls cause detail : Nat) : (s.eventLog a i blk cls cause detail).fmt = s.fmt := State.logEnt_fmt (s.event a i) _
@[simp] theorem State.eventLog_arr (a i blk cls cause detail : Nat) : (s.eventLog a i blk cls cause detail).arr = s.arr := State.logEnt_arr (s.event a i) _
@[simp] theorem State.eventLog_vec (a i blk cls cause detail : Nat) : (s.eventLog a i blk cls cause detail).vec = s.vec := State.logEnt_vec (s.event a i) _
@[simp] theorem State.eventLog_mxe (a i blk cls cause detail : Nat) : (s.eventLog a i blk cls cause detail).mxe = s.mxe := State.logEnt_mxe (s.event a i) _
@[simp] theorem State.eventLog_upd (a i blk cls cause detail : Nat) : (s.eventLog a i blk cls cause detail).upd = s.upd := State.logEnt_upd (s.event a i) _
@[simp] theorem State.eventLog_red (a i blk cls cause detail : Nat) : (s.eventLog a i blk cls cause detail).red = s.red := State.logEnt_red (s.event a i) _
@[simp] theorem State.eventLog_tsk (a i blk cls cause detail : Nat) : (s.eventLog a i blk cls cause detail).tsk = s.tsk := State.logEnt_tsk (s.event a i) _
@[simp] theorem State.eventLog_mem (a i blk cls cause detail : Nat) : (s.eventLog a i blk cls cause detail).mem = s.mem := State.logEnt_mem (s.event a i) _
@[simp] theorem State.eventLog_hif (a i blk cls cause detail : Nat) : (s.eventLog a i blk cls cause detail).hif = s.hif := State.logEnt_hif (s.event a i) _
@[simp] theorem State.eventLog_img (a i blk cls cause detail : Nat) : (s.eventLog a i blk cls cause detail).img = s.img := State.logEnt_img (s.event a i) _
@[simp] theorem State.eventLog_pwr (a i blk cls cause detail : Nat) : (s.eventLog a i blk cls cause detail).pwr = s.pwr := State.logEnt_pwr (s.event a i) _
@[simp] theorem State.eventLog_pending (a i blk cls cause detail : Nat) : (s.eventLog a i blk cls cause detail).pending = s.pending := State.logEnt_pending (s.event a i) _

/-! ### refuseWrite -/

@[simp] theorem State.refuseWrite_pairLo (rq : Requester) (off : Nat) (v : Word) (cause : Nat) : (s.refuseWrite rq off v cause).pairLo = s.pairLo := State.logEnt_pairLo s _
@[simp] theorem State.refuseWrite_pairCap (rq : Requester) (off : Nat) (v : Word) (cause : Nat) : (s.refuseWrite rq off v cause).pairCap = s.pairCap := State.logEnt_pairCap s _
@[simp] theorem State.refuseWrite_out (rq : Requester) (off : Nat) (v : Word) (cause : Nat) : (s.refuseWrite rq off v cause).out = s.out := State.logEnt_out s _
@[simp] theorem State.refuseWrite_free (rq : Requester) (off : Nat) (v : Word) (cause : Nat) : (s.refuseWrite rq off v cause).free = s.free := State.logEnt_free s _
@[simp] theorem State.refuseWrite_policy (rq : Requester) (off : Nat) (v : Word) (cause : Nat) : (s.refuseWrite rq off v cause).policy = s.policy := State.logEnt_policy s _
@[simp] theorem State.refuseWrite_chk (rq : Requester) (off : Nat) (v : Word) (cause : Nat) : (s.refuseWrite rq off v cause).chk = s.chk := State.logEnt_chk s _
@[simp] theorem State.refuseWrite_snp (rq : Requester) (off : Nat) (v : Word) (cause : Nat) : (s.refuseWrite rq off v cause).snp = s.snp := State.logEnt_snp s _
@[simp] theorem State.refuseWrite_irq (rq : Requester) (off : Nat) (v : Word) (cause : Nat) : (s.refuseWrite rq off v cause).irq = s.irq := State.logEnt_irq s _
@[simp] theorem State.refuseWrite_ezl (rq : Requester) (off : Nat) (v : Word) (cause : Nat) : (s.refuseWrite rq off v cause).ezl = s.ezl := State.logEnt_ezl s _
@[simp] theorem State.refuseWrite_stp (rq : Requester) (off : Nat) (v : Word) (cause : Nat) : (s.refuseWrite rq off v cause).stp = s.stp := State.logEnt_stp s _
@[simp] theorem State.refuseWrite_fmt (rq : Requester) (off : Nat) (v : Word) (cause : Nat) : (s.refuseWrite rq off v cause).fmt = s.fmt := State.logEnt_fmt s _
@[simp] theorem State.refuseWrite_arr (rq : Requester) (off : Nat) (v : Word) (cause : Nat) : (s.refuseWrite rq off v cause).arr = s.arr := State.logEnt_arr s _
@[simp] theorem State.refuseWrite_vec (rq : Requester) (off : Nat) (v : Word) (cause : Nat) : (s.refuseWrite rq off v cause).vec = s.vec := State.logEnt_vec s _
@[simp] theorem State.refuseWrite_mxe (rq : Requester) (off : Nat) (v : Word) (cause : Nat) : (s.refuseWrite rq off v cause).mxe = s.mxe := State.logEnt_mxe s _
@[simp] theorem State.refuseWrite_upd (rq : Requester) (off : Nat) (v : Word) (cause : Nat) : (s.refuseWrite rq off v cause).upd = s.upd := State.logEnt_upd s _
@[simp] theorem State.refuseWrite_red (rq : Requester) (off : Nat) (v : Word) (cause : Nat) : (s.refuseWrite rq off v cause).red = s.red := State.logEnt_red s _
@[simp] theorem State.refuseWrite_tsk (rq : Requester) (off : Nat) (v : Word) (cause : Nat) : (s.refuseWrite rq off v cause).tsk = s.tsk := State.logEnt_tsk s _
@[simp] theorem State.refuseWrite_mem (rq : Requester) (off : Nat) (v : Word) (cause : Nat) : (s.refuseWrite rq off v cause).mem = s.mem := State.logEnt_mem s _
@[simp] theorem State.refuseWrite_hif (rq : Requester) (off : Nat) (v : Word) (cause : Nat) : (s.refuseWrite rq off v cause).hif = s.hif := State.logEnt_hif s _
@[simp] theorem State.refuseWrite_img (rq : Requester) (off : Nat) (v : Word) (cause : Nat) : (s.refuseWrite rq off v cause).img = s.img := State.logEnt_img s _
@[simp] theorem State.refuseWrite_pwr (rq : Requester) (off : Nat) (v : Word) (cause : Nat) : (s.refuseWrite rq off v cause).pwr = s.pwr := State.logEnt_pwr s _
@[simp] theorem State.refuseWrite_pending (rq : Requester) (off : Nat) (v : Word) (cause : Nat) : (s.refuseWrite rq off v cause).pending = s.pending := State.logEnt_pending s _

end Sys2Proof.Machine
end

