-- ==== Sys2Proof/Laws/Twill.lean ====
section
/-! SUPPORT. What a Twill instruction does through the operations its family shares: the lanes, elements and masks written, the rest of
the unit and of the state kept. -/

namespace Sys2Proof.Machine

theorem lanes_fold_ne {r r' i : Nat} (g : Nat → Word) (n : Nat) (hn : n ≤ 64) (hi : i < 64) (m : SMap Word) (h : r' ≠ r ∨ n ≤ i) :
    SMap.get (fun _ => 0) ((List.range n).foldl (fun m j => SMap.set (fun _ => 0) m (r * 64 + j) (g j)) m) (r' * 64 + i) =
      SMap.get (fun _ => 0) m (r' * 64 + i) := by
  induction n with
  | zero => rfl
  | succ n ih =>
    rw [List.range_succ, List.foldl_append, List.foldl_cons, List.foldl_nil, SMap.get_set_ne (by omega), ih (by omega) (by omega)]

theorem lanes_fold_self {r i : Nat} (g : Nat → Word) (n : Nat) (hn : n ≤ 64) (hi : i < n) (m : SMap Word) :
    SMap.get (fun _ => 0) ((List.range n).foldl (fun m j => SMap.set (fun _ => 0) m (r * 64 + j) (g j)) m) (r * 64 + i) = g i := by
  induction n with
  | zero => omega
  | succ n ih =>
    rw [List.range_succ, List.foldl_append, List.foldl_cons, List.foldl_nil]
    by_cases h : i = n
    · subst h; rw [SMap.get_set_self]
    · rw [SMap.get_set_ne (by omega), ih (by omega) (by omega)]

theorem UnitSt.lane_setLanes (x : UnitSt) (r : Nat) (g : Nat → Word) {i : Nat} (hi : i < 64) : (x.setLanes r g).lane r i = g i :=
  lanes_fold_self g 64 (Nat.le_refl _) hi x.v

theorem UnitSt.lane_setLanes_ne (x : UnitSt) {r r' : Nat} (g : Nat → Word) {i : Nat} (hi : i < 64) (h : r' ≠ r) :
    (x.setLanes r g).lane r' i = x.lane r' i :=
  lanes_fold_ne g 64 (Nat.le_refl _) hi x.v (Or.inl h)

theorem halves_low {a b : Nat} (ha : a < 65536) : (BitVec.ofNat 32 (a + b * 65536)).toNat % 65536 = a := by
  simp only [BitVec.toNat_ofNat]; omega

theorem halves_high {a b : Nat} (ha : a < 65536) (hb : b < 65536) : (BitVec.ofNat 32 (a + b * 65536)).toNat / 65536 = b := by
  simp only [BitVec.toNat_ofNat]; omega

theorem UnitSt.elem_word {w : TwillWord} (h : w.half = false) (x : UnitSt) (r e : Nat) : x.elem w r e = (x.lane r e).toNat := by
  simp [UnitSt.elem, h]

theorem UnitSt.elem_half {w : TwillWord} (h : w.half = true) (x : UnitSt) (r e : Nat) :
    x.elem w r e = if e % 2 = 0 then (x.lane r (e / 2)).toNat % 65536 else (x.lane r (e / 2)).toNat / 65536 := by
  simp [UnitSt.elem, h]

theorem UnitSt.elem_lt (x : UnitSt) (w : TwillWord) (r e : Nat) : x.elem w r e < 2 ^ w.bits := by
  unfold UnitSt.elem TwillWord.bits
  cases w.half
  · exact (x.lane r e).isLt
  · have := (x.lane r (e / 2)).isLt
    simp only [if_true]; split <;> omega

/-- Each element after a write of elements (R135, R136). -/
theorem UnitSt.elem_setElems (x : UnitSt) (w : TwillWord) (f : Nat → Nat) {e : Nat} (he : e < w.elems) :
    (x.setElems w f).elem w w.d.val e =
      if x.active w e then f e % 2 ^ w.bits else if w.zero then 0 else x.elem w w.d.val e := by
  have hlt : ∀ e, (if x.active w e then f e % 2 ^ w.bits else if w.zero then 0 else x.elem w w.d.val e) < 2 ^ w.bits := by
    intro e
    split
    · exact Nat.mod_lt _ (Nat.two_pow_pos _)
    · split
      · exact Nat.two_pow_pos _
      · exact x.elem_lt w _ e
  unfold UnitSt.setElems
  cases hh : w.half
  · have he' : e < 64 := by simpa [TwillWord.elems, hh] using he
    have h1 := hlt e
    have hb : w.bits = 32 := by simp [TwillWord.bits, hh]
    rw [hb] at h1
    rw [UnitSt.elem_word hh, UnitSt.lane_setLanes _ _ _ he', hb]
    simp only [Bool.false_eq_true, if_false, BitVec.toNat_ofNat]
    exact Nat.mod_eq_of_lt h1
  · have he' : e / 2 < 64 := by simp [TwillWord.elems, hh] at he; omega
    have h1 := hlt (2 * (e / 2))
    have h2 := hlt (2 * (e / 2) + 1)
    have hb : w.bits = 16 := by simp [TwillWord.bits, hh]
    rw [hb] at h1 h2
    rw [UnitSt.elem_half hh, UnitSt.lane_setLanes _ _ _ he', hb]
    simp only [if_true]
    split
    · rw [halves_low h1, show 2 * (e / 2) = e by omega]
    · rw [halves_high h1 h2, show 2 * (e / 2) + 1 = e by omega]

@[simp] theorem State.unit_setUnit (s : State) (k : Nat) (y : UnitSt) : (s.setUnit k y).unit k = y := by
  simp [State.unit, State.setUnit, State.modVec]

theorem State.unit_setUnit_ne (s : State) {k j : Nat} (y : UnitSt) (h : j ≠ k) : (s.setUnit k y).unit j = s.unit j := by
  simp [State.unit, State.setUnit, State.modVec, SMap.get_set_ne h]

/-- The end of an instruction whose program goes on. -/
theorem twDone_mid {s : State} {d u : Nat} (h : s.midProgram d u = true) (nf : Bool) (fl : Nat) (y : UnitSt)
    (h1 : y.slot = (s.unit (d * 32 + u)).slot) (h2 : y.pc = (s.unit (d * 32 + u)).pc) (h3 : y.ibuf = (s.unit (d * 32 + u)).ibuf) :
    stepsUnit s (twDone d u nf fl y s) (d * 32 + u) { y with flags := if nf then y.flags else y.flags ||| fl, pc := (y.pc + 1) % 2048 } := by
  have h5 : (y.slot.isSome && decide (y.ibuf.length ≤ y.pc + 1)) = false := by
    rw [h1, h2, h3]
    cases hs : (s.unit (d * 32 + u)).slot <;> simp_all [State.midProgram]
  unfold twDone twAdvance
  simp only [State.unit_setUnit, h5, Bool.false_eq_true, if_false]
  refine ⟨State.unit_setUnit _ _ _, fun j hj => ?_, rfl⟩
  rw [State.unit_setUnit_ne _ _ hj, State.unit_setUnit_ne _ _ hj]

/-- A change of a unit's registers alone is `twLanes` of the lanes it writes. -/
theorem twRun_lanes {s : State} {d u op : Nat} {tys : List Nat} {w : TwillWord} {f : TwillWord → UnitSt → UnitSt × Nat}
    (hm : s.midProgram d u = true) (ht : tys.contains w.ty.val = true) (hc : w.ctl ≠ 7) {g : Nat → Word}
    (hf : (f w (s.unit (d * 32 + u))).1 = (s.unit (d * 32 + u)).setLanes w.d.val g) :
    twLanes d u w s (twRun d u op tys w s f) g (f w (s.unit (d * 32 + u))).2 := by
  have h : twRun d u op tys w s f = twDone d u (ctlNoFlag w.ctl.val) (f w (s.unit (d * 32 + u))).2
      ((s.unit (d * 32 + u)).setLanes w.d.val g) s := by
    unfold twRun
    rw [if_pos ht]
    simp only [hc, decide_false, Bool.false_eq_true, if_false, hf]
  have hd := twDone_mid hm (ctlNoFlag w.ctl.val) (f w (s.unit (d * 32 + u))).2 ((s.unit (d * 32 + u)).setLanes w.d.val g) rfl rfl rfl
  rw [← h] at hd
  refine ⟨?_, ?_, ?_, hd.2⟩
  · intro i hi; rw [hd.1]; exact UnitSt.lane_setLanes _ _ _ hi
  · intro r i hi hr; rw [hd.1]; exact UnitSt.lane_setLanes_ne _ _ hi hr
  · rw [hd.1]; rfl

/-- An instruction whose result is a write of elements through a word with the same destination, type and control code (R135, R136). -/
theorem twRun_gives {s : State} {d u op : Nat} {tys : List Nat} {w w' : TwillWord} {f : TwillWord → UnitSt → UnitSt × Nat}
    {F : Nat → Nat} (hm : s.midProgram d u = true) (ht : tys.contains w.ty.val = true) (hc : w.ctl ≠ 7)
    (hd : w'.d = w.d) (hk : w'.ctl = w.ctl) (hf : (f w (s.unit (d * 32 + u))).1 = (s.unit (d * 32 + u)).setElems w' F) :
    twGives d u w' s (twRun d u op tys w s f) F (f w (s.unit (d * 32 + u))).2 := by
  obtain ⟨g, hg⟩ : ∃ g, (s.unit (d * 32 + u)).setElems w' F = (s.unit (d * 32 + u)).setLanes w.d.val g := by
    unfold UnitSt.setElems; rw [hd]; exact ⟨_, rfl⟩
  have h : twLanes d u w s (twRun d u op tys w s f) g _ := twRun_lanes hm ht hc (hf.trans hg)
  refine ⟨?_, by rw [hd]; exact h.2.1, by rw [hk]; exact h.2.2⟩
  intro e he
  rw [← UnitSt.elem_setElems (s.unit (d * 32 + u)) w' F he, hd]
  have hl : ∀ i < 64, ((twRun d u op tys w s f).unit (d * 32 + u)).lane w.d.val i =
      ((s.unit (d * 32 + u)).setElems w' F).lane w.d.val i := by
    intro i hi
    rw [h.1 i hi, hg, UnitSt.lane_setLanes _ _ _ hi]
  cases hh : w'.half
  · rw [UnitSt.elem_word hh, UnitSt.elem_word hh, hl e (by simpa [TwillWord.elems, hh] using he)]
  · rw [UnitSt.elem_half hh, UnitSt.elem_half hh, hl (e / 2) (by simp [TwillWord.elems, hh] at he; omega)]

/-- An element-wise instruction (R135, R136, R143). -/
theorem twElems_gives {s : State} {d u op : Nat} {tys : List Nat} {w : TwillWord} {f : TwillWord → UnitSt → Nat → Nat × Nat}
    (hm : s.midProgram d u = true) (ht : tys.contains w.ty.val = true) (hc : w.ctl ≠ 7) :
    twGives d u w s (twElems d u op tys w s f) (fun e => (f w (s.unit (d * 32 + u)) e).1)
      ((s.unit (d * 32 + u)).orFlags w (fun e => (f w (s.unit (d * 32 + u)) e).2)) :=
  twRun_gives (f := fun w x => (x.setElems w (fun e => (f w x e).1), x.orFlags w (fun e => (f w x e).2))) hm ht hc rfl rfl rfl

/-- A change of fields of the unit other than its program and its task. -/
theorem twRun_steps {s : State} {d u op : Nat} {tys : List Nat} {w : TwillWord} {f : TwillWord → UnitSt → UnitSt × Nat}
    (hm : s.midProgram d u = true) (ht : tys.contains w.ty.val = true) (hc : w.ctl ≠ 7) (hf : (f w (s.unit (d * 32 + u))).2 = 0)
    (h1 : (f w (s.unit (d * 32 + u))).1.slot = (s.unit (d * 32 + u)).slot) (h2 : (f w (s.unit (d * 32 + u))).1.pc = (s.unit (d * 32 + u)).pc)
    (h3 : (f w (s.unit (d * 32 + u))).1.ibuf = (s.unit (d * 32 + u)).ibuf) :
    stepsUnit s (twRun d u op tys w s f) (d * 32 + u) { (f w (s.unit (d * 32 + u))).1 with pc := ((s.unit (d * 32 + u)).pc + 1) % 2048 } := by
  have h : twRun d u op tys w s f = twDone d u (ctlNoFlag w.ctl.val) 0 (f w (s.unit (d * 32 + u))).1 s := by
    unfold twRun
    rw [if_pos ht]
    simp only [hc, decide_false, Bool.false_eq_true, if_false, hf]
  rw [h]
  have hd := twDone_mid hm (ctlNoFlag w.ctl.val) 0 (f w (s.unit (d * 32 + u))).1 h1 h2 h3
  rw [h2] at hd
  simpa using hd

/-- A mask instruction (R139, R143). -/
theorem twMask_gives {s : State} {d u op : Nat} {w : TwillWord} {f : Nat → Nat → Nat} {p : Bool → Bool → Bool}
    (hm : s.midProgram d u = true) (hc : w.ctl ≠ 7) (h0 : w.d.val % 8 ≠ 0)
    (hp : ∀ a b e, e < 128 → (f a b).testBit e = p (a.testBit e) (b.testBit e)) :
    twMaskOf d u (w.d.val % 8) s (twMask d u op w s f) (fun e => decide (e < 128) &&
      p (((s.unit (d * 32 + u)).maskR (w.s1.val % 8)).testBit e) (((s.unit (d * 32 + u)).maskR (w.s2.val % 8)).testBit e)) := by
  have hms : ∀ v, (s.unit (d * 32 + u)).setMask (w.d.val % 8) v =
      { s.unit (d * 32 + u) with m := SMap.set (fun _ => 0) (s.unit (d * 32 + u)).m (w.d.val % 8) (v % 2 ^ 128) } := by
    intro v; unfold UnitSt.setMask; rw [if_neg h0]
  have ht : [0, 1, 2, 3].contains w.ty.val = true := by
    have := w.ty.isLt; simp; omega
  have hd := twRun_steps (op := op) (f := fun w x => (x.setMask (w.d.val % 8) (f (x.maskR (w.s1.val % 8)) (x.maskR (w.s2.val % 8))), 0))
    hm ht hc rfl (by rw [hms]) (by rw [hms]) (by rw [hms])
  refine ⟨?_, ?_, ?_⟩
  · intro e
    unfold twMask
    rw [hd.1, hms]
    simp only [UnitSt.maskR, h0, if_false, SMap.get_set_self, Nat.testBit_mod_two_pow]
    by_cases he : e < 128
    · simp only [he, decide_true, Bool.true_and]; exact hp _ _ e he
    · simp [he]
  · intro r hr2
    unfold twMask
    rw [hd.1, hms]
    simp only [UnitSt.maskR]
    split
    · rfl
    · rw [SMap.get_set_ne hr2]
  · refine ⟨?_, hd.2⟩
    unfold twMask
    rw [hd.1, hms]

/-- Flags that no element raises. -/
theorem UnitSt.orFlags_zero (x : UnitSt) (w : TwillWord) : x.orFlags w (fun _ => 0) = 0 := by
  unfold UnitSt.orFlags
  simp only [Nat.or_zero, ite_self]
  generalize List.range w.elems = l
  induction l with
  | nil => rfl
  | cons y l ih => exact ih

/-- A number built bit by bit. -/
theorem bitSum_spec (p : Nat → Bool) (n : Nat) :
    (List.range n).foldl (fun a e => if p e then a + 2 ^ e else a) 0 < 2 ^ n ∧
      ∀ i, ((List.range n).foldl (fun a e => if p e then a + 2 ^ e else a) 0).testBit i = (decide (i < n) && p i) := by
  induction n with
  | zero => simp
  | succ n ih =>
    obtain ⟨h1, h2⟩ := ih
    rw [List.range_succ, List.foldl_append, List.foldl_cons, List.foldl_nil]
    generalize (List.range n).foldl (fun a e => if p e then a + 2 ^ e else a) 0 = a at h1 h2 ⊢
    have hp : 2 ^ (n + 1) = 2 ^ n + 2 ^ n := by rw [Nat.pow_succ]; omega
    cases hpn : p n
    · simp only [Bool.false_eq_true, if_false]
      refine ⟨by omega, fun i => ?_⟩
      rw [h2 i]
      by_cases hi : i = n
      · subst hi; simp [hpn]
      · have : (i < n) = (i < n + 1) := by apply propext; omega
        simp only [this]
    · simp only [if_true]
      refine ⟨by omega, fun i => ?_⟩
      have he : a + 2 ^ n = 2 ^ n * 1 ||| a := by rw [← Nat.two_pow_add_eq_or_of_lt h1]; omega
      rw [he, Nat.testBit_or, h2 i, Nat.mul_one, Nat.testBit_two_pow]
      by_cases hi : i = n
      · subst hi; simp [hpn]
      · have h3 : (i < n) = (i < n + 1) := by apply propext; omega
        have h4 : n ≠ i := fun h => hi h.symm
        simp [h3, h4]

/-- A compare (R139, R144): the mask register gets one bit per element, from the condition where the element is active. -/
theorem twCompare_gives {s : State} {d u op : Nat} {tys : List Nat} {w : TwillWord} {f : UnitSt → Nat → Bool}
    (hm : s.midProgram d u = true) (ht : tys.contains w.ty.val = true) (hd : w.d.val < 8) (h0 : w.d.val ≠ 0)
    (hc : w.isFloat = true ∨ w.ctl.val < 6) : twMaskOf d u w.d.val s (twCompare d u op tys w s f) (fun e =>
      decide (e < w.elems) && (if (s.unit (d * 32 + u)).active w e then f (s.unit (d * 32 + u)) e else
        if w.zero then false else ((s.unit (d * 32 + u)).maskR w.d.val).testBit e)) := by
  have hr : (tys.contains w.ty.val && decide (w.d.val < 8) && (w.isFloat || decide (w.ctl.val < 6))) = true := by
    rw [ht]; rcases hc with h | h <;> simp [hd, h]
  unfold twCompare
  rw [if_pos hr]
  obtain ⟨b1, b2⟩ := bitSum_spec (fun e => if (s.unit (d * 32 + u)).active w e then f (s.unit (d * 32 + u)) e else
        if w.zero then false else ((s.unit (d * 32 + u)).maskR w.d.val).testBit e) w.elems
  have hle : 2 ^ w.elems ≤ 2 ^ 128 := by unfold TwillWord.elems; split <;> decide
  dsimp only
  generalize (List.range w.elems).foldl (fun a e => if (if (s.unit (d * 32 + u)).active w e then f (s.unit (d * 32 + u)) e else
        if w.zero then false else ((s.unit (d * 32 + u)).maskR w.d.val).testBit e) = true then a + 2 ^ e else a) 0 = b at b1 b2 ⊢
  have hd2 := twDone_mid hm false 0 ((s.unit (d * 32 + u)).setMask w.d.val b) (by unfold UnitSt.setMask; split <;> rfl)
    (by unfold UnitSt.setMask; split <;> rfl) (by unfold UnitSt.setMask; split <;> rfl)
  have hms : (s.unit (d * 32 + u)).setMask w.d.val b = { s.unit (d * 32 + u) with m := SMap.set (fun _ => 0) (s.unit (d * 32 + u)).m w.d.val (b % 2 ^ 128) } := by
    unfold UnitSt.setMask; rw [if_neg h0]
  refine ⟨?_, ?_, ?_⟩
  · intro e
    rw [hd2.1, hms]
    refine Eq.trans ?_ (b2 e)
    simp only [UnitSt.maskR, h0, if_false, SMap.get_set_self]
    rw [Nat.mod_eq_of_lt (by omega)]
  · intro r hr2
    rw [hd2.1, hms]
    simp only [UnitSt.maskR]
    split
    · rfl
    · rw [SMap.get_set_ne hr2]
  · refine ⟨?_, hd2.2⟩
    rw [hd2.1, hms]
    simp

/-! ### Issue -/

/-- An instruction that the unit executes does its work. -/
theorem twIssue_of {d u op : Nat} {w : TwillWord} {s : State} (h : s.issues d u op w = true) (f : Nat → State → State) : twIssue d u op w s f = f op s := by
  simp [twIssue, h]

/-- An instruction that the unit does not execute changes nothing. -/
theorem twIssue_not {d u op : Nat} {w : TwillWord} {s : State} (h : s.issues d u op w = false) (f : Nat → State → State) : twIssue d u op w s f = s := by
  simp [twIssue, h]

/-- What an instruction that is executed keeps does not depend on whether it is executed. -/
theorem twIssue_keeps {α : Type} {d u op : Nat} {w : TwillWord} {s : State} {f : Nat → State → State} (g : State → α) (h : g (f op s) = g s) :
    g (twIssue d u op w s f) = g s := by
  unfold twIssue; split
  · exact h
  · rfl

end Sys2Proof.Machine
end

