-- ==== Sys2Proof/Tests/Base.lean ====
section
/-! SUPPORT. Small states from which the tests start. -/

namespace Sys2Proof.Tests

open Sys2Proof.Machine

/-- The reset state with start-up ended. -/
def up : State := { State.reset with img := { State.reset.img with stage := 0xB } }

/-- A formed group of one, enabled for training, at rest. -/
def solo : State := { (up.setReg R.TSK_CTRL 3#32).setReg R.TSK_STEP_GRAPH 0x80000005#32 with red := { loaded := true, formed := true, n := 1, order := [0] } }

/-- The same with an attempt open. -/
def soloRun : State := { solo with stp := { solo.stp with phase := .update, isOpen := true } }

/-- The same at a step boundary. -/
def atBoundary (b : Boundary) : State := { solo with stp := { solo.stp with phase := .boundary, due := some b } }

/-- A member of a group of two at a ring position, with an attempt open. -/
def member (p : Nat) : State :=
  { solo with red := { loaded := true, formed := true, n := 2, pos := p, order := [0, 1], gid := 7 }
              stp := { solo.stp with phase := .update, isOpen := true } }

/-- A commit token of the first attempt for that group. -/
def tok : Token := { step := 1, gid := 7, size := 2 }

/-- Ring position `p` halted after its repeats were used up. -/
def halted (p : Nat) : State := { member p with stp := { solo.stp with phase := .halted, halt := some .exhausted, attempt := 3 } }

/-- A matrix of one array, 16 rows by 8 weight columns. -/
def mat : MatEnt := { k := 16, n := 8 }

/-- A matrix with a group of more than 34 rows. -/
def wide : MatEnt := { k := 64, n := 8 }

/-- A group request for the small matrix: one input vector of zeros. -/
def req : PassReq := { input := leBytes 16 33 ++ List.replicate 17 0#8 }

/-- The matrix mapped to die 0, with one request on its link. -/
def oneReq : State := { (up.setKao 0 { link := [req] }) with arr := { (up.setKao 0 { link := [req] }).arr with map := [mat] } }

/-- The request queued, the arrays enabled. -/
def queued : State :=
  { ((up.setKao 0 { queue := [req] }).setReg (R.ARR_CTRL 0) 0x101#32) with
    arr := { ((up.setKao 0 { queue := [req] }).setReg (R.ARR_CTRL 0) 0x101#32).arr with map := [mat] } }

/-- The request in its pass. -/
def running : State :=
  { (up.setKao 0 { running := [{ req := req, arrays := [0], lsb := 8 }] }) with
    arr := { (up.setKao 0 { running := [{ req := req, arrays := [0], lsb := 8 }] }).arr with map := [mat] } }

/-- The same with a NaN block scale. -/
def nanRun : State :=
  { (up.setKao 0 { running := [{ req := { req with input := req.input.set 16 0xFF }, arrays := [0] }] }) with
    arr := { (up.setKao 0 { running := [{ req := { req with input := req.input.set 16 0xFF }, arrays := [0] }] }).arr with map := [mat] } }

/-- The wide matrix at the end of a tracker window. -/
def tracked : State := { up with arr := { up.arr with map := [wide], mat := [(0, { due := true })] } }

/-- The small matrix mapped, drift monitor and programming engine on. -/
def drift : State := ({ up with arr := { up.arr with map := [mat] } } : State).setReg (R.ARR_DRIFT_CTRL 0) 0x20103#32

/-- A programming job of tile 0 with its rows left to write. -/
def job (r : RunJob) : State := drift.setTile 0 0 { job := some r }

/-- A product of one element, BF16 by BF16 into FP32. -/
def desc : Desc := { fa := 1, fb := 1, a := 0, b := 256, out := 512, mult := 0x3F800000#32 }

/-- The product waits in cluster 0 of die 0; core 0 is enabled. -/
def mxe : State := ((up.setReg (R.MXE_CTRL 0) 1#32).setReg (R.MXE_CORE_EN 0 0) 1#32).setCluster 0 [{ desc := desc, slot := 3 }]

/-- A descriptor at work on core 0, its first tile handed out. -/
def atWork (x : Desc) : State := (mxe.setCluster 0 [{ desc := x, slot := 3, next := 1 }]).setCore 0 { slot := some 3, tiles := [0] }

/-- One gradient of one block, planned on channel 0 of a group of one. -/
def plan : State :=
  { up with upd := { up.upd with table := [{ grad := 9, rows := 32, cols := 32 }] }
            red := { loaded := true, n := 1, formed := true, order := [0], table := [{ tensor := 9, channel := 0, count := 1 }] } }

/-- A finished slice of that gradient on core 0. -/
def slice : State :=
  (plan.setCluster 0 [{ desc := { mode := 4, grad := 9, fa := 1, fb := 1 }, slot := 3, next := 1 }]).setCore 0 { slot := some 3, tiles := [0] }

/-- The slice in the converter of cluster 0, both parts of the channel enabled. -/
def offered : State := (slice.setReg R.RED_CTRL 0x101#32).setConv 0 (some { slot := 3, grad := 9 })

/-- The bucket of that gradient at the deliver point, the update unit enabled. -/
def delivered : State :=
  (plan.setReg R.UPD_CTRL 1#32).setChan 0 { flight := [{ delivering := true, ownDone := true }] }

/-- Ring position 0 of two with that gradient planned on channel 0, an attempt open. -/
def ring : State :=
  (({ plan with red := { loaded := true, n := 2, formed := true, order := [0, 1], gid := 7, table := [{ tensor := 9, channel := 0, count := 1 }] }
                stp := { plan.stp with phase := .update, isOpen := true, attempt := 1 } } : State).setReg R.RED_CTRL 0x101#32)

/-- A message of that bucket for ring position 0. -/
def msg : RingMsg := { step := 1, attempt := 1, fmt := 14, phase := 1, sender := 1, n := 2, contrib := 1, gid := 7, tensor := 9 }

/-- A task in slot 3 of die 0, the task engine enabled. -/
def tasked (t : TaskEnt) : State := (up.setReg R.TSK_CTRL 5#32).setTask 3 (some t)

/-- A context at work on a token. -/
def tokened : State := up.setCtx 2 { inTok := true }

/-- A DMA task in slot 3 of die 0 at work on engine 0, its payload at 8192. -/
def dmaWith (bs : List Byte) : State :=
  ((up.setTask 3 (some { payAddr := 8192 })).hbmWrite 8192 bs).modTsk (fun x => { x with dma := SMap.set (fun _ => none) x.dma 0 (some 3) })

/-- A spill buffer of 1 MiB at host address 4096, the host link up. -/
def spill (bs : List Byte) : State :=
  { ((dmaWith bs).setPair (R.MEM_SPILL_BASE 0) 4096).setReg (R.MEM_SPILL_SIZE 0) 1#32 with hif := { up.hif with linkUp := true } }

/-- A handle table at 4096 whose handle 1 is OPEN with two layers, 3 tokens and 4 rows, its directory at 65536; Silt pages from 1 MiB; a task as in `dmaWith`. -/
def silt (bs : List Byte) : State :=
  ((((((dmaWith bs).setPair R.MEM_SILT_TBL 4096).setPair (R.MEM_SILT_AREA 0) 0x100000).setReg (R.MEM_SILT_SLOTS 0) 8#32).setSilt 0 { slots := 8 }).hbmWrite 4128
    [1, 2, 0, 0, 3, 0, 0, 0, 4, 0, 0, 0]).hbmWrite 4146 [1]

/-- The payload of a put into handle 1. -/
def put : List Byte := [4] ++ List.replicate 31 0 ++ [1, 0, 0x80]

/-- That put, the page of row 0 and layer 0 of the handle in place. -/
def siltPage : State := (silt put).hbmWrite 65539 [0x80]

/-- The head of a relayed pod of 16, relaying, its host link up. -/
def headOf : State :=
  { up.setReg R.HIF_CTRL 3#32 with ezl := { up.ezl with pod := { up.ezl.pod with size := 4 } }, hif := { up.hif with linkUp := true } }

/-- Queue 0 of a type, enabled with depth 4, its one fetched entry begins with the bytes given; fetching on, host link up. -/
def hostQ (kind : Nat) (bs : List Byte) : State :=
  { (up.setReg R.HIF_CTRL 1#32) with
    hif := { up.hif with linkUp := true, q := [(0, { cfg := BitVec.ofNat 32 (2 ^ 31 + kind * 2 ^ 29 + 4), en := true, sqTail := 2, sqHead := 1, fetched := [{ bytes := bs, head := 1 }] })] } }

end Sys2Proof.Tests
end

