-- ==== Sys2Proof/Tests/Slice0.lean ====
section
/-! SUPPORT. Tests: ill-formed commands that the checks refuse, single steps with results worked out from the spec, and for every statement
with hypotheses a state and operands that meet them. -/

namespace Sys2Proof.Tests.Slice0

open Sys2Proof Sys2Proof.Machine
open Host (Outcome)

set_option Elab.async false

/-! ### Ill-formed commands -/

theorem test_wf_offsets : [Instr.registerWrite .host 2 0, Instr.pairLoRead .host (2 ^ 26), Instr.unassignedAccess .host 1 none, Instr.bar0BadAccess .bar0 0 0 none, Instr.bar0BadAccess .bar0 0 4097 (some [])].all (fun c => !Instr.wf c) = true := by decide

theorem test_wf_tokens : [Instr.firstPassToken { step := 2 ^ 64 }, Instr.firstPassToken { epoch := 2 ^ 32 }, Instr.firstPassToken { attempt := 256 }, Instr.firstPassToken { firstVoter := 256 }, Instr.firstPassToken { gid := 256 }, Instr.firstPassToken { reason := 65536 }, Instr.secondPassToken { size := 256 }].all (fun c => !Instr.wf c) = true := by decide

theorem test_wf_control_frames : [Instr.abortRequest { step := 2 ^ 64 }, Instr.decisionQuery { epoch := 2 ^ 32 }, Instr.decisionReply { attempt := 256 }, Instr.decisionDirect { reason := 65536 }, Instr.abortRequest { pos := 256 }, Instr.abortRequest { src := 64 }].all (fun c => !Instr.wf c) = true := by decide

theorem test_wf_windows : [Instr.committedWindowRead (2 ^ 34) 4, Instr.committedWindowWrite (2 ^ 34) [1], Instr.stepRecordRingWrite (2 ^ 34) [1], Instr.apertureRead (2 ^ 36) 4, Instr.apertureWrite (2 ^ 36) [1], Instr.snapshotWindowWrite (2 ^ 24) [], Instr.sqWindowAccess (2 ^ 22) 4 none].all (fun c => !Instr.wf c) = true := by decide

theorem test_wf_arrays : [Instr.passComplete 0 0 [(0, 65536)], Instr.rangeTrackerEval 0 1536, Instr.calReadComplete 0 1632 [] 0, Instr.calReadComplete 0 0 [4096] 0, Instr.forcedRead 0 1632, Instr.calStarved 0 1632, Instr.arrayFit 0 1632, Instr.publish .host 0 1536, Instr.refresh .host 0 1536, Instr.load .host 0 1536, Instr.readback .host 0 1536, Instr.readbackSegment 0 1536 [], Instr.refreshAgeExpiry 0 1536, Instr.progRow 0 0 [(1024, 1)] [] [] [], Instr.progRow 0 0 [] [] [] (List.replicate 5 [])].all (fun c => !Instr.wf c) = true := by decide

theorem test_wf_verify_fit : [Instr.progJobComplete 0 0 { tm := 65536 } [], Instr.progJobComplete 0 0 {} (List.replicate 17 [])].all (fun c => !Instr.wf c) = true := by decide

theorem test_wf_ring_messages : [Instr.ringMessage 0 { seq := 2 ^ 32 }, Instr.ringMessage 0 { epoch := 2 ^ 32 }, Instr.ringMessage 0 { step := 2 ^ 64 }, Instr.ringMessage 0 { attempt := 256 }, Instr.ringMessage 0 { fmt := 256 }, Instr.ringMessage 0 { sender := 256 }, Instr.ringMessage 0 { n := 256 }, Instr.ringMessage 0 { crc := 2 ^ 32 }, Instr.deadline 0 (2 ^ 32), Instr.ringTimeout 0 (2 ^ 32)].all (fun c => !Instr.wf c) = true := by decide

theorem test_wf_silt : [Instr.siltPut 0 0 (2 ^ 24) 0, Instr.siltPut 0 0 0 (2 ^ 24), Instr.siltOpen (.reg .host 65536), Instr.siltClose (.reg .host 65536), Instr.siltTruncate (.reg .host 65536), Instr.tokenBoundary 65536].all (fun c => !Instr.wf c) = true := by decide

theorem test_wf_links : [Instr.flitReceive 0 [], Instr.retrainAttempt 0 true 65536, Instr.retrain .host 32, Instr.remove .host 32, Instr.restore .host 32, Instr.linkDown 64 0, Instr.linkDown 0 18, Instr.timeMasterLost 64 0, Instr.timeMasterLost 0 64, Instr.triggerFrame 0 { t := 2 ^ 64 }, Instr.triggerFrame 0 { origin := 64 }, Instr.triggerFrame 0 { num := 256 }, Instr.triggerFrame 0 { cls := 256 }].all (fun c => !Instr.wf c) = true := by decide

theorem test_wf_relay : [Instr.relayWindowAccess 64 0 0 none 4, Instr.relayWindowAccess 0 2 0 none 4, Instr.relayWindowAccess 0 0 65536 none 4, Instr.relayRead 64 {}, Instr.relayRead 0 { op := 256 }, Instr.relayWrite 64 {} [], Instr.relayWrite 0 { status := 256 } [], Instr.relayCompletion 64 {} [], Instr.relayCompletion 0 { tag := 65536 } [], Instr.relayHostWrite 64 {} [], Instr.relayHostWrite 0 { len := 2 ^ 32 } [], Instr.relayRead 0 { addr := 2 ^ 64 }, Instr.relayTimeout 65536, Instr.dataFrame 64 0 [], Instr.dataFrame 0 (2 ^ 64) []].all (fun c => !Instr.wf c) = true := by decide

theorem test_wf_host : [Instr.sqTailDoorbell 0 (2 ^ 32), Instr.cqHeadDoorbell 0 (2 ^ 32), Instr.sqFetch [] false, Instr.pcieLinkUp 7 0 true, Instr.pcieLinkUp 0 16 true].all (fun c => !Instr.wf c) = true := by decide

theorem test_wf_interrupts : [Instr.irqSourcePending 0 512, Instr.irqClaim 0 0 512, Instr.irqEoi .host 0 0 512, Instr.hostEoi .host 0 512, Instr.irqHostMessage 0 512].all (fun c => !Instr.wf c) = true := by decide

theorem test_wf_start_up : [Instr.supplyGood 8, Instr.railTimeout 18, Instr.identityStage (some ([], [])) [], Instr.identityStage none [], Instr.imageStage [] ⟨true, 0, [], []⟩, Instr.hbmStage (some (.stack 12)), Instr.hbmStage (some (.die 18)), Instr.attestationKeyBuild [], Instr.sliceConvert 0 { ready := [[16]] }].all (fun c => !Instr.wf c) = true := by decide

theorem test_wf_power : [Instr.hkaConversion 2048, Instr.hkaConversion (-2049), Instr.sensorFault 16, Instr.smbInvalidCommand 256 true].all (fun c => !Instr.wf c) = true := by decide

theorem test_wf_check_units : [Instr.chkClaim .host 0 8, Instr.chkRelease .host 0 8, Instr.chkInit .host 0 8].all (fun c => !Instr.wf c) = true := by decide

theorem test_wf_data_frame_length (b : List Byte) (h : 65536 < b.length) : (Instr.dataFrame 0 0 b).wf = false := by
  simp [Instr.wf, h]

theorem test_wf_image_length (b : List Byte) (h : 134217728 < b.length) : (Instr.imageStage b ⟨true, 33554432, [], []⟩).wf = false := by
  simp [Instr.wf, h]

/-! ### Single operations, with results worked out by hand or from published check values -/

/-- The published check value of CRC-32C over the ASCII digits 1 to 9. -/
theorem test_crc32c_check : crc32c [0x31, 0x32, 0x33, 0x34, 0x35, 0x36, 0x37, 0x38, 0x39] = 0xE3069283 := by decide +kernel

/-- R279: on a ring of four, two steps either way tie and the positive direction is taken. -/
theorem test_ring_tie : ringDir 4 0 2 = 1 := by decide

/-- R279: three steps up are one step down. -/
theorem test_ring_down : ringDir 4 0 3 = 2 := by decide

/-- R279: x goes before y and z. -/
theorem test_route_x_first : routePort 6 0 21 = some 0 := by decide

/-- R284: module 21 of a pod of 64 has coordinates 1, 1, 1. -/
theorem test_coordinates : podCoord 6 21 = (1, 1, 1) := by decide

/-- No row of the table gives bits: no word spells a command. -/
theorem test_no_words : decodeTableWord 64 5 = none := by decide

/-! ### Witnesses -/

/-! ### StepRunsTheFrontCommand -/

theorem test_meets_StepRunsTheFrontCommand_2 : ∃ (c : Instr) (rest : List Instr) (s : State), (s.pending = c :: rest) :=
  ⟨.idleFlitTimer 0, [], State.reset.push (.idleFlitTimer 0), by decide +kernel⟩

/-! ### StepLeavesTheRestQueued -/

theorem test_meets_StepLeavesTheRestQueued_1 : ∃ (c : Instr) (rest : List Instr) (s : State), (s.pending = c :: rest) :=
  ⟨.trainingStart, [.holdover], { State.reset with pending := [.trainingStart, .holdover] }, by decide +kernel⟩

/-! ### StepOnEmptyQueuePassesTime -/

theorem test_meets_StepOnEmptyQueuePassesTime_1 : ∃ (s : State), (s.pending = []) :=
  ⟨State.reset, by decide +kernel⟩

theorem test_meets_StepOnEmptyQueuePassesTime_2 : ∃ (s : State) (d c : Nat), (d < 2) ∧ (c < 4) :=
  ⟨State.reset, 1, 3, by decide +kernel⟩

theorem test_meets_StepOnEmptyQueuePassesTime_3 : ∃ (s : State), (s.pending = []) ∧ (s.ezl.tim.rate = 0) ∧ (s.ezl.tim.slew = 0) ∧ (s.ezl.tim.acc = 0) ∧ (s.ezl.tim.half = false) ∧ (s.time + 1 < 2 ^ 64) :=
  ⟨State.reset, by decide +kernel⟩

/-! ### EveryRegisterReadsItsResetValue -/

theorem test_meets_EveryRegisterReadsItsResetValue_1 : ∃ (a off : Nat) (b : Blk) (r : RegRow), (rowAt a = some (b, off, r)) :=
  ⟨0x300208, 0x208, Blk.duty, ⟨0x208, 1, 0x4, .rw, 0xFFFFFF00, 0xFFFFFF00, 0x0, 0xA100800, false⟩, by decide +kernel⟩

/-! ### EveryStepKeepsSound -/

theorem test_meets_EveryStepKeepsSound_1 : ∃ (s t : State), (s.sound = true) ∧ (step s = .next t) :=
  ⟨State.reset, State.reset.tick, by exact ⟨by decide, rfl⟩⟩

theorem test_meets_EveryStepKeepsSound_1a : ∃ (s t : State), (s.sound = true) ∧ (step s = .next t) :=
  ⟨State.reset.push (.snapshotWindowWrite 0 [1, 2, 3, 4]), snapshotWindowWrite 0 [1, 2, 3, 4] State.reset, by exact ⟨by decide, rfl⟩⟩

/-! ### RegisterWriteFollowsAccessType -/

theorem test_meets_RegisterWriteFollowsAccessType_1 : ∃ (s : State) (rq : Requester) (off o : Nat) (v : Word) (b : Blk) (r : RegRow), (s.blocked rq off = false) ∧ (inSnapWindow off = false) ∧ (rowAt (canonAddr off) = some (b, o, r)) ∧ (s.writeSpecial rq b o v = none) ∧ (b ≠ .pwr ∨ o < 0x38 ∨ 0x48 ≤ o) ∧ ((match b with | .snp => decide (o = 0) | .irq _ => decide (o = 0) | .arr _ => decide (o = 0xC) | _ => false) = false) ∧ (r.pair = false) ∧ (r.acc = .rw) :=
  ⟨{ State.reset with img := { State.reset.img with stage := 0xB } }, .host, 0x30018, 0x18, 5, .pwr, ⟨0x18, 1, 0x4, .rw, 0xFFF, 0xFFF, 0x0, 0xA28, false⟩, by decide +kernel⟩

theorem test_meets_RegisterWriteFollowsAccessType_2 : ∃ (s : State) (rq : Requester) (off o : Nat) (v : Word) (b : Blk) (r : RegRow), (s.blocked rq off = false) ∧ (inSnapWindow off = false) ∧ (rowAt (canonAddr off) = some (b, o, r)) ∧ (s.writeSpecial rq b o v = none) ∧ (b ≠ .pwr ∨ o < 0x38 ∨ 0x48 ≤ o) ∧ ((match b with | .snp => decide (o = 0) | .irq _ => decide (o = 0) | .arr _ => decide (o = 0xC) | _ => false) = false) ∧ (r.acc = .w1c) :=
  ⟨{ State.reset with img := { State.reset.img with stage := 0xB } }, .kersey 3, 0x10008, 8, 5, .hif, ⟨0x8, 1, 0x4, .w1c, 0x0, 0x0, 0x7FF, 0x0, false⟩, by decide +kernel⟩

theorem test_meets_RegisterWriteFollowsAccessType_3 : ∃ (s : State) (rq : Requester) (off o : Nat) (v : Word) (b : Blk) (r : RegRow), (s.blocked rq off = false) ∧ (inSnapWindow off = false) ∧ (rowAt (canonAddr off) = some (b, o, r)) ∧ (s.writeSpecial rq b o v = none) ∧ (b ≠ .pwr ∨ o < 0x38 ∨ 0x48 ≤ o) ∧ ((match b with | .snp => decide (o = 0) | .irq _ => decide (o = 0) | .arr _ => decide (o = 0xC) | _ => false) = false) ∧ (r.acc = .ro ∨ r.acc = .rc) :=
  ⟨{ State.reset with img := { State.reset.img with stage := 0xB } }, .host, 0x300118, 0x118, 5, .duty, ⟨0x118, 1, 0x4, .ro, 0x0, 0x0, 0x0, 0xFFF, false⟩, by decide +kernel⟩

theorem test_meets_RegisterWriteFollowsAccessType_4 : ∃ (s : State) (rq : Requester) (off o : Nat) (v : Word) (b : Blk) (r : RegRow), (s.blocked rq off = false) ∧ (inSnapWindow off = false) ∧ (rowAt (canonAddr off) = some (b, o, r)) ∧ (s.writeSpecial rq b o v = none) ∧ (b ≠ .pwr ∨ o < 0x38 ∨ 0x48 ≤ o) ∧ ((match b with | .snp => decide (o = 0) | .irq _ => decide (o = 0) | .arr _ => decide (o = 0xC) | _ => false) = false) ∧ (r.pair = true) ∧ (r.isHi o = false) ∧ (r.acc = .rw) :=
  ⟨{ State.reset with img := { State.reset.img with stage := 0xB } }, .host, 0x10058, 0x58, 5, .hif, ⟨0x58, 1, 0x4, .rw, 0xFFC00000, 0xFFFFFFFF, 0x0, 0x0, true⟩, by decide +kernel⟩

theorem test_meets_RegisterWriteFollowsAccessType_5 : ∃ (s : State) (rq : Requester) (off o : Nat) (v : Word) (b : Blk) (r : RegRow), (s.blocked rq off = false) ∧ (inSnapWindow off = false) ∧ (rowAt (canonAddr off) = some (b, o, r)) ∧ (s.writeSpecial rq b o v = none) ∧ (b ≠ .pwr ∨ o < 0x38 ∨ 0x48 ≤ o) ∧ ((match b with | .snp => decide (o = 0) | .irq _ => decide (o = 0) | .arr _ => decide (o = 0xC) | _ => false) = false) ∧ (r.pair = true) ∧ (r.isHi o = true) ∧ (r.acc = .rw) :=
  ⟨{ State.reset with img := { State.reset.img with stage := 0xB } }, .host, 0x1005C, 0x5C, 5, .hif, ⟨0x58, 1, 0x4, .rw, 0xFFC00000, 0xFFFFFFFF, 0x0, 0x0, true⟩, by decide +kernel⟩

theorem test_meets_RegisterWriteFollowsAccessType_6 : ∃ (s : State) (rq : Requester) (v : Word), (s.blocked rq R.SNP_CTRL = false) :=
  ⟨State.reset, .kersey 0, 1, by decide +kernel⟩

theorem test_meets_RegisterWriteFollowsAccessType_7 : ∃ (s : State) (rq : Requester) (off o : Nat) (v : Word) (r : RegRow), (s.blocked rq off = false) ∧ (inSnapWindow off = false) ∧ (rowAt (canonAddr off) = some (.pwr, o, r)) ∧ (0x38 ≤ o) ∧ (o < 0x48) ∧ (r.pair = false) ∧ (r.acc = .rw) :=
  ⟨{ State.reset with img := { State.reset.img with stage := 0xB } }, .host, 0x30044, 0x44, 5, ⟨0x40, 2, 0x4, .rw, 0xFFFFFFFF, 0xFFFFFFFF, 0x0, 0x285040FF, false⟩, by decide +kernel⟩

theorem test_meets_RegisterWriteFollowsAccessType_8 : ∃ (s : State) (rq : Requester) (d : Fin 2) (v : Word), (s.blocked rq (R.IRQ_CTRL d) = false) :=
  ⟨State.reset, .kersey 0, 1, 1, by decide +kernel⟩

theorem test_meets_RegisterWriteFollowsAccessType_9 : ∃ (s : State) (rq : Requester) (k : Fin 16) (v : Word), (s.blocked rq (R.ARR_GOV_CAP k) = false) :=
  ⟨State.reset, .kersey 0, 3, 0x100, by decide +kernel⟩

/-! ### PairReadCaptures -/

theorem test_meets_PairReadCaptures_1 : ∃ (s : State) (rq : Requester) (off o : Nat) (b : Blk) (r : RegRow), (s.blocked rq off = false) ∧ (inSnapWindow off = false) ∧ (rowAt (canonAddr off) = some (b, o, r)) ∧ (r.pair = true) ∧ (r.isHi o = false) :=
  ⟨{ State.reset with img := { State.reset.img with stage := 0xB } }, .host, 0x10058, 0x58, .hif, ⟨0x58, 1, 0x4, .rw, 0xFFC00000, 0xFFFFFFFF, 0x0, 0x0, true⟩, by decide +kernel⟩

theorem test_meets_PairReadCaptures_2 : ∃ (s : State) (rq : Requester) (off o : Nat) (b : Blk) (r : RegRow) (w : Word), (s.blocked rq off = false) ∧ (inSnapWindow off = false) ∧ (rowAt (canonAddr off) = some (b, o, r)) ∧ (r.pair = true) ∧ (r.isHi o = true) :=
  ⟨{ State.reset with img := { State.reset.img with stage := 0xB } }, .host, 0x1005C, 0x5C, .hif, ⟨0x58, 1, 0x4, .rw, 0xFFC00000, 0xFFFFFFFF, 0x0, 0x0, true⟩, 9, by decide +kernel⟩

theorem test_meets_PairReadCaptures_3 : ∃ (s : State) (rq q : Requester) (a b : Nat) (w : Word), (rq ≠ q) ∧ (a < 2 ^ 32) ∧ (b < 2 ^ 32) :=
  ⟨State.reset, .host, .kersey 7, 0x10058, 0x10058, 5, by decide +kernel⟩

/-! ### UnassignedAndBadAccesses -/

theorem test_meets_UnassignedAndBadAccesses_1 : ∃ (s : State) (rq : Requester) (off : Nat), (isPairLo off = false) :=
  ⟨State.reset, .host, 0x1005C, by decide +kernel⟩

theorem test_meets_UnassignedAndBadAccesses_2 : ∃ (s : State) (rq : Requester) (off : Nat), (s.unassigned rq off = true) :=
  ⟨State.reset, .host, 0x2000, by decide +kernel⟩

theorem test_meets_UnassignedAndBadAccesses_3 : ∃ (s : State) (rq : Requester) (off : Nat) (v : Word) (b : Blk) (o : Nat), (s.unassigned rq off = true) ∧ (locate off = some (b, o)) ∧ (s.err.queue.length < 64) :=
  ⟨{ State.reset with img := { State.reset.img with stage := 0xB } }, .kersey 1, 0x1FFC, 7, .id, 0x1FFC, by decide +kernel⟩

theorem test_meets_UnassignedAndBadAccesses_4 : ∃ (s : State) (rq : Requester) (off : Nat) (v : Word), (s.unassigned rq off = true) ∧ (locate off = none) ∧ (s.err.queue.length < 64) :=
  ⟨{ State.reset with img := { State.reset.img with stage := 0xB } }, .host, 0x2000000, 7, by decide +kernel⟩

theorem test_meets_UnassignedAndBadAccesses_5 : ∃ (s : State) (k : BadAccess) (off len : Nat) (w : Option (List Byte)), (¬(len = 4 ∧ off % 4 = 0)) ∧ (¬(k = .bar0 ∧ (0x11000 ≤ off ∧ off < 0x11400 ∨ 0x11800 ≤ off ∧ off < 0x11808) ∧ len = 8 ∧ off % 8 = 0)) :=
  ⟨State.reset, .bar0, 0x10002, 4, (some [1, 2, 3, 4]), by decide +kernel⟩

theorem test_meets_UnassignedAndBadAccesses_5a : ∃ (s : State) (k : BadAccess) (off len : Nat) (w : Option (List Byte)), (¬(len = 4 ∧ off % 4 = 0)) ∧ (¬(k = .bar0 ∧ (0x11000 ≤ off ∧ off < 0x11400 ∨ 0x11800 ≤ off ∧ off < 0x11808) ∧ len = 8 ∧ off % 8 = 0)) :=
  ⟨State.reset, .bar0, 0x10000, 8, none, by decide +kernel⟩

theorem test_meets_UnassignedAndBadAccesses_5b : ∃ (s : State) (k : BadAccess) (off len : Nat) (w : Option (List Byte)), (¬(len = 4 ∧ off % 4 = 0)) ∧ (¬(k = .bar0 ∧ (0x11000 ≤ off ∧ off < 0x11400 ∨ 0x11800 ≤ off ∧ off < 0x11808) ∧ len = 8 ∧ off % 8 = 0)) :=
  ⟨State.reset, .doorbell, 0x0, 8, (some []), by decide +kernel⟩

theorem test_meets_UnassignedAndBadAccesses_6 : ∃ (s : State) (k : BadAccess) (off : Nat) (w : Option (List Byte)), (off % 4 = 0) ∧ (k ≠ .doorbell ∨ 0x400000 ≤ off) :=
  ⟨State.reset, .bar0, 0x10000, none, by decide +kernel⟩

theorem test_meets_UnassignedAndBadAccesses_7 : ∃ (s : State) (off : Nat) (bs : List Byte), (off % 8 = 0) ∧ (0x11000 ≤ off ∧ off < 0x11400 ∨ 0x11800 ≤ off ∧ off < 0x11808) ∧ (bs.length = 8) :=
  ⟨State.reset, 0x11000, [0, 0, 0, 1, 2, 3, 4, 5], by decide +kernel⟩

theorem test_meets_UnassignedAndBadAccesses_8 : ∃ (s : State) (off : Nat), (off % 8 = 0) ∧ (0x11000 ≤ off ∧ off < 0x11400 ∨ 0x11800 ≤ off ∧ off < 0x11808) :=
  ⟨State.reset, 0x11008, by decide +kernel⟩

theorem test_meets_UnassignedAndBadAccesses_9 : ∃ (s : State) (off : Nat) (bs : List Byte), (off % 4 = 0) ∧ (off < 0x400000) ∧ (bs.length = 4) :=
  ⟨State.reset, 0x1FC, [1, 0, 0, 0], by decide +kernel⟩

theorem test_meets_UnassignedAndBadAccesses_10 : ∃ (s : State) (off : Nat), (s.ready = true) ∧ (off % 4 = 0) ∧ (off + 4 ≤ 4194304) ∧ (s.protected_ false (s.sqWin + off) 4 = false) ∧ (s.mem.badIn (s.sqWin + off) 4 = []) ∧ (s.mem.softIn (s.sqWin + off) 4 = []) :=
  ⟨{ State.reset with img := { State.reset.img with stage := 0xB } }, 0x3FFFFC, by decide +kernel⟩

theorem test_meets_UnassignedAndBadAccesses_11 : ∃ (s : State) (off : Nat), (s.ready = true) ∧ (off % 4 = 0) ∧ (off + 4 ≤ 4194304) :=
  ⟨{ State.reset with img := { State.reset.img with stage := 0xB } }, 0x3FFFFC, by decide +kernel⟩

theorem test_meets_UnassignedAndBadAccesses_12 : ∃ (s : State) (off : Nat) (bs : List Byte), (s.ready = true) ∧ (off % 4 = 0) ∧ (off + 4 ≤ 4194304) ∧ (bs.length = 4) :=
  ⟨{ State.reset with img := { State.reset.img with stage := 0xB } }, 0, [1, 2, 3, 4], by decide +kernel⟩

theorem test_meets_UnassignedAndBadAccesses_13 : ∃ (s : State) (a : Nat) (bs : List Byte), (s.protected_ true a bs.length = false) ∧ (∀ x, s.protGiB true x = false) ∧ (s.img.cmd = none) :=
  ⟨State.reset, 5, [1, 2], by exact ⟨by decide +kernel, fun _ => rfl, rfl⟩⟩

/-! ### TrainingStartsAtANewStepBoundary -/

theorem test_meets_TrainingStartsAtANewStepBoundary_1 : ∃ (s : State), (s.stp.phase = .idle) ∧ (s.regB R.TSK_STEP_GRAPH 31 = true) ∧ (s.regB R.TSK_CTRL 0 = true) ∧ (s.red.formed = true) ∧ (s.launchFree = true) :=
  ⟨Tests.solo, by decide +kernel⟩

theorem test_meets_TrainingStartsAtANewStepBoundary_2 : ∃ (s : State), (s.stp.phase ≠ .idle) :=
  ⟨Tests.soloRun, by decide +kernel⟩

theorem test_meets_TrainingStartsAtANewStepBoundary_3 : ∃ (s : State), (s.stp.phase = .boundary) ∧ (s.stp.due = some .new) ∧ (s.stp.halt ≠ some .exhausted) ∧ (s.regB R.TSK_STEP_GRAPH 31 = true) ∧ (s.launchFree = true) :=
  ⟨Tests.atBoundary .new, by decide +kernel⟩

theorem test_meets_TrainingStartsAtANewStepBoundary_4 : ∃ (s : State), (s.stp.phase = .boundary) ∧ (s.stp.due = some .new) ∧ (s.stp.halt = some .exhausted) :=
  ⟨{ Tests.atBoundary .new with stp := { (Tests.atBoundary .new).stp with halt := some .exhausted } }, by decide +kernel⟩

theorem test_meets_TrainingStartsAtANewStepBoundary_5 : ∃ (s : State), (s.stp.phase = .boundary) ∧ (s.stp.due = some .new) ∧ (s.stp.halt ≠ some .exhausted) ∧ (s.regB R.TSK_STEP_GRAPH 31 = false) :=
  ⟨(Tests.atBoundary .new).setReg R.TSK_STEP_GRAPH 0#32, by decide +kernel⟩

theorem test_meets_TrainingStartsAtANewStepBoundary_6 : ∃ (s : State), (s.stp.phase ≠ .boundary ∨ s.stp.due ≠ some .new) :=
  ⟨Tests.atBoundary .again, by decide +kernel⟩

theorem test_meets_TrainingStartsAtANewStepBoundary_7 : ∃ (u : State) (a : Nat), (u.mem.planFault = false) ∧ (u.lostLink = none) :=
  ⟨Tests.solo, 0, by decide +kernel⟩

theorem test_meets_TrainingStartsAtANewStepBoundary_8 : ∃ (u : State) (a : Nat), (u.mem.planFault = true) :=
  ⟨{ Tests.solo with mem := { Tests.solo.mem with planFault := true } }, 0, by decide +kernel⟩

theorem test_meets_TrainingStartsAtANewStepBoundary_9 : ∃ (s : State) (n a : Nat), (a ∈ policyRegs) :=
  ⟨(Tests.solo.setReg R.UPD_CTRL 0x42#32), 1, R.UPD_CTRL, by decide +kernel⟩

theorem test_meets_TrainingStartsAtANewStepBoundary_10 : ∃ (s : State) (n : Nat) (a : Nat), (a ∈ [R.UPD_BETA1, R.UPD_BETA2, R.UPD_KAPPA, R.UPD_DECAY, R.UPD_GRAD_MULT, R.UPD_PROJ_HYST]) :=
  ⟨(Tests.solo.setReg R.UPD_BETA1 0x3F000000#32), 1, R.UPD_BETA1, by decide +kernel⟩

theorem test_meets_TrainingStartsAtANewStepBoundary_10a : ∃ (s : State) (n : Nat) (a : Nat), (a ∈ [R.UPD_BETA1, R.UPD_BETA2, R.UPD_KAPPA, R.UPD_DECAY, R.UPD_GRAD_MULT, R.UPD_PROJ_HYST]) :=
  ⟨(Tests.solo.setReg R.UPD_BETA2 0x3F800000#32), 1, R.UPD_BETA2, by decide +kernel⟩

theorem test_meets_TrainingStartsAtANewStepBoundary_10b : ∃ (s : State) (n : Nat) (a : Nat), (a ∈ [R.UPD_BETA1, R.UPD_BETA2, R.UPD_KAPPA, R.UPD_DECAY, R.UPD_GRAD_MULT, R.UPD_PROJ_HYST]) :=
  ⟨(Tests.solo.setReg R.UPD_PROJ_HYST 0x3F000000#32), 1, R.UPD_PROJ_HYST, by decide +kernel⟩

theorem test_meets_TrainingStartsAtANewStepBoundary_10c : ∃ (s : State) (n : Nat) (a : Nat), (a ∈ [R.UPD_BETA1, R.UPD_BETA2, R.UPD_KAPPA, R.UPD_DECAY, R.UPD_GRAD_MULT, R.UPD_PROJ_HYST]) :=
  ⟨(Tests.solo.setReg R.UPD_DECAY 0#32), 1, R.UPD_DECAY, by decide +kernel⟩

theorem test_meets_TrainingStartsAtANewStepBoundary_11 : ∃ (s : State) (n i : Nat), (i ∈ [2, 3, 4, 6, 7]) :=
  ⟨(Tests.solo.setReg R.DUTY_SPLIT 0x10#32), 1, 4, by decide +kernel⟩

theorem test_meets_TrainingStartsAtANewStepBoundary_12 : ∃ (s : State) (n : Nat), (s.regB R.DUTY_SPLIT 7 = true) ∧ (s.upd.fresh = true) ∧ (f32NonNeg (s.reg R.UPD_STEP_SIZE) = true) :=
  ⟨{ (Tests.solo.setReg R.DUTY_SPLIT 0x80#32).setReg R.UPD_STEP_SIZE 0x3F800000#32 with upd := { Tests.solo.upd with fresh := true } }, 1, by decide +kernel⟩

theorem test_meets_TrainingStartsAtANewStepBoundary_13 : ∃ (s : State) (n : Nat), (s.regB R.DUTY_SPLIT 7 = true) ∧ (s.upd.fresh = false) :=
  ⟨Tests.solo.setReg R.DUTY_SPLIT 0x80#32, 1, by decide +kernel⟩

theorem test_meets_TrainingStartsAtANewStepBoundary_14 : ∃ (s : State) (n : Nat), (s.regB R.DUTY_SPLIT 7 = false) :=
  ⟨{ Tests.solo with upd := { Tests.solo.upd with sched := [(0, 0x3F800000#32)] } }, 1, by decide +kernel⟩

theorem test_meets_TrainingStartsAtANewStepBoundary_15 : ∃ (s : State) (n : Nat), (s.upd.table ≠ []) :=
  ⟨{ Tests.solo with upd := { Tests.solo.upd with table := [{ rows := 16, cols := 16, mat := 0 }] } }, 1, by decide +kernel⟩

theorem test_meets_TrainingStartsAtANewStepBoundary_16 : ∃ (s : State) (n : Nat), (s.stp.nfEvent = false) :=
  ⟨Tests.solo.setReg R.STEP_FMT_CTRL 0x00020000#32, 1, by decide +kernel⟩

theorem test_meets_TrainingStartsAtANewStepBoundary_17 : ∃ (s : State) (n d : Nat), (d < 16) ∧ ((s.kao d).held = none) ∧ ((s.kao d).published = true) :=
  ⟨Tests.solo.setKao 3 { Tests.solo.kao 3 with published := true }, 1, 3, by decide +kernel⟩

theorem test_meets_TrainingStartsAtANewStepBoundary_18 : ∃ (s : State) (n d : Nat), (d < 16) ∧ ((s.kao d).held ≠ none) :=
  ⟨Tests.solo.setKao 3 { Tests.solo.kao 3 with published := true, held := some 0 }, 1, 3, by decide +kernel⟩

/-! ### RepeatBoundaryTakesNoPendingChange -/

theorem test_meets_RepeatBoundaryTakesNoPendingChange_1 : ∃ (s : State), (s.stp.phase = .boundary) ∧ (s.stp.due = some .again) ∧ (s.abortedTasks = false) ∧ (s.stp.halt ≠ some .exhausted) ∧ (s.launchFree = true) ∧ (s.mem.planFault = false) ∧ (s.moveChannels.lostLink = none) :=
  ⟨Tests.atBoundary .again, by decide +kernel⟩

theorem test_meets_RepeatBoundaryTakesNoPendingChange_2 : ∃ (s : State), (s.stp.phase = .boundary) ∧ (s.stp.due = some .again) ∧ (s.abortedTasks = false) ∧ (s.stp.halt = some .exhausted) :=
  ⟨{ Tests.atBoundary .again with stp := { (Tests.atBoundary .again).stp with halt := some .exhausted } }, by decide +kernel⟩

theorem test_meets_RepeatBoundaryTakesNoPendingChange_3 : ∃ (s : State), (s.stp.halt ≠ some .exhausted) ∧ (s.launchFree = false) :=
  ⟨(Tests.atBoundary .again).modTsk (fun t => { t with launchQ := List.replicate 16 {} }), by decide +kernel⟩

theorem test_meets_RepeatBoundaryTakesNoPendingChange_4 : ∃ (s : State), (¬ (s.stp.phase = .boundary ∧ s.stp.due = some .again ∧ s.abortedTasks = false)) :=
  ⟨Tests.atBoundary .new, by decide +kernel⟩

/-! ### CommitSkipAndAbort -/

theorem test_meets_CommitSkipAndAbort_1 : ∃ (s : State) (step att reason voter : Nat) (hold : Bool), (s.stp.phase.rest = false) ∧ (step < 2 ^ 64) :=
  ⟨Tests.soloRun, 1, 0, 0, 0xFF, false, by decide +kernel⟩

theorem test_meets_CommitSkipAndAbort_2 : ∃ (s : State) (step att reason voter : Nat) (hold : Bool), (s.stp.phase.rest = false) :=
  ⟨Tests.soloRun, 1, 0, 0, 0xFF, false, by decide +kernel⟩

theorem test_meets_CommitSkipAndAbort_3 : ∃ (s : State) (step att reason voter : Nat) (hold : Bool), (s.stp.phase.rest = false) ∧ (step = s.stepNum) ∧ (att = s.stp.attempt) :=
  ⟨Tests.soloRun, 1, 0, 0x300, 0, false, by decide +kernel⟩

theorem test_meets_CommitSkipAndAbort_4 : ∃ (s : State) (step att reason voter : Nat) (hold : Bool), (s.stp.phase.rest = false) :=
  ⟨Tests.soloRun, 1, 0, 0, 0xFF, false, by decide +kernel⟩

theorem test_meets_CommitSkipAndAbort_4a : ∃ (s : State) (step att reason voter : Nat) (hold : Bool), (s.stp.phase.rest = false) :=
  ⟨Tests.soloRun, 1, 0, 0, 0xFF, true, by decide +kernel⟩

theorem test_meets_CommitSkipAndAbort_4b : ∃ (s : State) (step att reason voter : Nat) (hold : Bool), (s.stp.phase.rest = false) :=
  ⟨(Tests.soloRun.setReg R.TSK_STEP_GRAPH 0#32), 1, 0, 0, 0xFF, false, by decide +kernel⟩

theorem test_meets_CommitSkipAndAbort_5 : ∃ (s : State) (step att reason voter : Nat) (hold : Bool) (limit : Nat), (s.stp.phase.rest = false) ∧ (limit = s.regF R.STEP_CTRL 23 16) :=
  ⟨Tests.soloRun, 1, 0, 0, 0xFF, false, 8, by decide +kernel⟩

theorem test_meets_CommitSkipAndAbort_5a : ∃ (s : State) (step att reason voter : Nat) (hold : Bool) (limit : Nat), (s.stp.phase.rest = false) ∧ (limit = s.regF R.STEP_CTRL 23 16) :=
  ⟨(Tests.soloRun.setReg R.STEP_CTRL 0x10000#32), 1, 0, 0, 0xFF, true, 1, by decide +kernel⟩

theorem test_meets_CommitSkipAndAbort_5b : ∃ (s : State) (step att reason voter : Nat) (hold : Bool) (limit : Nat), (s.stp.phase.rest = false) ∧ (limit = s.regF R.STEP_CTRL 23 16) :=
  ⟨(Tests.soloRun.setReg R.STEP_CTRL 0x0#32), 1, 0, 0, 0xFF, true, 0, by decide +kernel⟩

theorem test_meets_CommitSkipAndAbort_6 : ∃ (s : State) (step att reason voter : Nat) (hold : Bool) (last : Bool), (s.stp.phase.rest = false) ∧ (step = s.stepNum) ∧ (last = (s.fnHost 5 || decide (s.regF R.STEP_CTRL 3 0 ≤ s.stp.attempt))) :=
  ⟨Tests.soloRun, 1, 0, 0x300, 0, false, false, by decide +kernel⟩

theorem test_meets_CommitSkipAndAbort_6a : ∃ (s : State) (step att reason voter : Nat) (hold : Bool) (last : Bool), (s.stp.phase.rest = false) ∧ (step = s.stepNum) ∧ (last = (s.fnHost 5 || decide (s.regF R.STEP_CTRL 3 0 ≤ s.stp.attempt))) :=
  ⟨Tests.soloRun, 1, 0, 0x300, 0, true, false, by decide +kernel⟩

theorem test_meets_CommitSkipAndAbort_6b : ∃ (s : State) (step att reason voter : Nat) (hold : Bool) (last : Bool), (s.stp.phase.rest = false) ∧ (step = s.stepNum) ∧ (last = (s.fnHost 5 || decide (s.regF R.STEP_CTRL 3 0 ≤ s.stp.attempt))) :=
  ⟨{ Tests.soloRun with stp := { Tests.soloRun.stp with attempt := 3 } }, 1, 3, 0x300, 0, true, true, by decide +kernel⟩

theorem test_meets_CommitSkipAndAbort_6c : ∃ (s : State) (step att reason voter : Nat) (hold : Bool) (last : Bool), (s.stp.phase.rest = false) ∧ (step = s.stepNum) ∧ (last = (s.fnHost 5 || decide (s.regF R.STEP_CTRL 3 0 ≤ s.stp.attempt))) :=
  ⟨(Tests.soloRun.setReg R.DUTY_SPLIT_USED 0x10#32), 1, 0, 0x300, 0, false, true, by decide +kernel⟩

theorem test_meets_CommitSkipAndAbort_7 : ∃ (s : State) (step att reason voter : Nat) (hold : Bool), (s.stp.phase.rest = false) :=
  ⟨Tests.soloRun, 1, 0, 0, 0xFF, false, by decide +kernel⟩

theorem test_meets_CommitSkipAndAbort_8 : ∃ (s : State) (step att reason voter : Nat) (hold : Bool), (s.stp.phase.rest = false) :=
  ⟨Tests.soloRun, 1, 0, 0, 0xFF, false, by decide +kernel⟩

theorem test_meets_CommitSkipAndAbort_9 : ∃ (s : State) (step att reason voter : Nat) (hold : Bool), (s.stp.phase.rest = false) :=
  ⟨Tests.soloRun, 1, 0, 0x300, 0, false, by decide +kernel⟩

/-! ### ReadyMemberVotes -/

theorem test_meets_ReadyMemberVotes_1 : ∃ (s : State), (s.stp.isOpen = true) ∧ (s.stp.drafted = false) ∧ (s.stp.fixed = none) ∧ (s.partsDone = true) ∧ ((s.updD 0).skip = false) ∧ ((s.updD 1).skip = false) ∧ (s.groupN ≤ 1) :=
  ⟨Tests.soloRun, by decide +kernel⟩

theorem test_meets_ReadyMemberVotes_2 : ∃ (s : State), (s.stp.isOpen = true) ∧ (s.stp.drafted = false) ∧ (s.stp.fixed = none) ∧ (s.partsDone = true) ∧ ((s.updD 0).skip = true ∨ (s.updD 1).skip = true) ∧ (s.groupN ≤ 1) :=
  ⟨Tests.soloRun.setUpd 1 { skip := true, complete := true }, by decide +kernel⟩

theorem test_meets_ReadyMemberVotes_3 : ∃ (s : State), (s.stp.isOpen = true) ∧ (s.stp.drafted = false) ∧ (s.stp.fixed = none) ∧ (s.partsDone = true) ∧ (1 < s.groupN) ∧ (s.red.pos = 0) ∧ (s.stp.firstSent = false) :=
  ⟨Tests.member 0, by decide +kernel⟩

theorem test_meets_ReadyMemberVotes_4 : ∃ (s : State), (s.stp.isOpen = true) ∧ (s.stp.drafted = false) ∧ (s.stp.fixed = none) ∧ (s.partsDone = true) ∧ (1 < s.groupN) ∧ (s.red.pos ≠ 0) ∧ (s.stp.waitToken = none) :=
  ⟨Tests.member 1, by decide +kernel⟩

theorem test_meets_ReadyMemberVotes_5 : ∃ (s : State), (s.stp.isOpen = false ∨ s.stp.drafted = true ∨ s.stp.fixed.isSome = true ∨ s.partsDone = false) :=
  ⟨Tests.solo, by decide +kernel⟩

/-! ### CommitTokensPassTheRing -/

theorem test_meets_CommitTokensPassTheRing_1 : ∃ (s : State) (t : Token), (t.gid ≠ s.red.gid ∨ t.size ≠ s.groupN) :=
  ⟨Tests.member 0, { Tests.tok with gid := 8 }, by decide +kernel⟩

theorem test_meets_CommitTokensPassTheRing_1a : ∃ (s : State) (t : Token), (t.gid ≠ s.red.gid ∨ t.size ≠ s.groupN) :=
  ⟨Tests.member 0, { Tests.tok with size := 3 }, by decide +kernel⟩

theorem test_meets_CommitTokensPassTheRing_2 : ∃ (s : State) (t : Token), (t.gid = s.red.gid) ∧ (t.size = s.groupN) ∧ (t.epoch < s.epoch ∨ s.stp.seen.any (Token.same t) = true) :=
  ⟨(Tests.member 1).setReg R.RED_EPOCH 1#32, Tests.tok, by decide +kernel⟩

theorem test_meets_CommitTokensPassTheRing_2a : ∃ (s : State) (t : Token), (t.gid = s.red.gid) ∧ (t.size = s.groupN) ∧ (t.epoch < s.epoch ∨ s.stp.seen.any (Token.same t) = true) :=
  ⟨{ Tests.member 1 with stp := { (Tests.member 1).stp with seen := [Tests.tok] } }, Tests.tok, by decide +kernel⟩

theorem test_meets_CommitTokensPassTheRing_3 : ∃ (s : State) (t : Token), (t.gid = s.red.gid) ∧ (t.size = s.groupN) ∧ (t.epoch = s.epoch) ∧ (s.stp.seen.any (Token.same t) = false) ∧ (t.step = s.stepNum) ∧ (t.attempt = s.attNum) ∧ (s.red.pos = 0) ∧ (s.stp.firstSent = true) ∧ (s.stp.fixed = none) ∧ (s.stp.heldReq = none) ∧ (s.stp.abort = none) ∧ (t.skip = s.stp.skipVote) :=
  ⟨{ Tests.member 0 with stp := { (Tests.member 0).stp with firstSent := true, drafted := true } }, Tests.tok, by decide +kernel⟩

theorem test_meets_CommitTokensPassTheRing_4 : ∃ (s : State) (t : Token) (r : Nat × Nat), (t.gid = s.red.gid) ∧ (t.size = s.groupN) ∧ (t.epoch = s.epoch) ∧ (s.stp.seen.any (Token.same t) = false) ∧ (t.step = s.stepNum) ∧ (t.attempt = s.attNum) ∧ (s.red.pos = 0) ∧ (s.stp.firstSent = true) ∧ (s.stp.fixed = none) ∧ (s.stp.heldReq = some r) ∧ (t.abort = false) :=
  ⟨{ Tests.member 0 with stp := { (Tests.member 0).stp with firstSent := true, heldReq := some (0x300, 1) } }, Tests.tok, (0x300, 1), by decide +kernel⟩

theorem test_meets_CommitTokensPassTheRing_5 : ∃ (s : State) (t : Token), (t.gid = s.red.gid) ∧ (t.size = s.groupN) ∧ (t.epoch = s.epoch) ∧ (s.stp.seen.any (Token.same t) = false) ∧ (t.step = s.stepNum) ∧ (t.attempt = s.attNum) ∧ (s.red.pos ≠ 0) ∧ (s.stp.isOpen = true) ∧ (s.stp.drafted = true) ∧ (s.stp.abort = none) ∧ (t.abort = false) ∧ (t.skip = s.stp.skipVote) :=
  ⟨{ Tests.member 1 with stp := { (Tests.member 1).stp with drafted := true } }, Tests.tok, by decide +kernel⟩

theorem test_meets_CommitTokensPassTheRing_6 : ∃ (s : State) (t : Token), (t.gid = s.red.gid) ∧ (t.size = s.groupN) ∧ (t.epoch = s.epoch) ∧ (s.stp.seen.any (Token.same t) = false) ∧ (t.step = s.stepNum) ∧ (t.attempt = s.attNum) ∧ (s.red.pos ≠ 0) ∧ (s.stp.isOpen = true) ∧ (s.stp.drafted = false) ∧ (s.stp.abort = none) ∧ (t.abort = false) :=
  ⟨Tests.member 1, Tests.tok, by decide +kernel⟩

theorem test_meets_CommitTokensPassTheRing_7 : ∃ (s : State) (t : Token) (code : Nat), (t.gid = s.red.gid) ∧ (t.size = s.groupN) ∧ (t.epoch = s.epoch) ∧ (s.stp.seen.any (Token.same t) = false) ∧ (t.step = s.stepNum) ∧ (t.attempt = s.attNum) ∧ (s.red.pos ≠ 0) ∧ (s.stp.isOpen = true) ∧ (s.stp.abort = some code) ∧ (t.abort = false) :=
  ⟨{ Tests.member 1 with stp := { (Tests.member 1).stp with abort := some 0x300 } }, Tests.tok, 0x300, by decide +kernel⟩

theorem test_meets_CommitTokensPassTheRing_8 : ∃ (s : State) (t : Token), (t.gid = s.red.gid) ∧ (t.size = s.groupN) ∧ (t.epoch = s.epoch) ∧ (s.stp.seen.any (Token.same t) = false) ∧ (t.step = s.stepNum) ∧ (t.attempt = s.attNum) ∧ (s.red.pos ≠ 0) ∧ (t.abort = true) :=
  ⟨Tests.member 1, { Tests.tok with abort := true, reason := 0x300 }, by decide +kernel⟩

theorem test_meets_CommitTokensPassTheRing_8a : ∃ (s : State) (t : Token), (t.gid = s.red.gid) ∧ (t.size = s.groupN) ∧ (t.epoch = s.epoch) ∧ (s.stp.seen.any (Token.same t) = false) ∧ (t.step = s.stepNum) ∧ (t.attempt = s.attNum) ∧ (s.red.pos ≠ 0) ∧ (t.abort = true) :=
  ⟨{ Tests.member 1 with stp := { (Tests.member 1).stp with isOpen := false, nextAtt := some 0 } }, { Tests.tok with abort := true, reason := 0x300 }, by decide +kernel⟩

theorem test_meets_CommitTokensPassTheRing_9 : ∃ (s : State) (t : Token), (t.gid = s.red.gid) ∧ (t.size = s.groupN) ∧ (t.epoch = s.epoch) ∧ (s.stp.seen.any (Token.same t) = false) ∧ (t.step = s.stepNum) ∧ (t.attempt = s.attNum) ∧ (s.red.pos ≠ 0) ∧ (s.stp.isOpen = true) ∧ (s.stp.drafted = true) ∧ (s.stp.abort = none) ∧ (t.abort = false) ∧ (t.skip ≠ s.stp.skipVote) :=
  ⟨{ Tests.member 1 with stp := { (Tests.member 1).stp with drafted := true } }, { Tests.tok with skip := true }, by decide +kernel⟩

theorem test_meets_CommitTokensPassTheRing_10 : ∃ (s : State) (t : Token), (t.gid = s.red.gid) ∧ (t.size = s.groupN) ∧ (s.epoch ≤ t.epoch) ∧ (s.stp.seen.any (Token.same t) = false) ∧ (s.red.pos = 0) ∧ (t.step ≠ s.stepNum ∨ t.attempt ≠ s.attNum ∨ t.epoch ≠ s.epoch) :=
  ⟨Tests.member 0, { Tests.tok with second := true, decision := some .commit, epoch := 1 }, by decide +kernel⟩

theorem test_meets_CommitTokensPassTheRing_11 : ∃ (s : State) (t : Token) (d : Decision), (t.gid = s.red.gid) ∧ (t.size = s.groupN) ∧ (s.epoch ≤ t.epoch) ∧ (s.stp.seen.any (Token.same t) = false) ∧ (s.red.pos ≠ 0) ∧ (t.decision = some d) :=
  ⟨Tests.member 1, { Tests.tok with second := true, decision := some .commit }, .commit, by decide +kernel⟩

theorem test_meets_CommitTokensPassTheRing_12 : ∃ (s : State) (t : Token) (r : DecRec), (t.gid = s.red.gid) ∧ (t.size = s.groupN) ∧ (t.epoch = s.epoch) ∧ (s.stp.seen.any (Token.same t) = false) ∧ (s.red.pos = 0) ∧ (s.stp.fixed = some r) ∧ (t.step = s.stepNum) ∧ (t.attempt = s.attNum) :=
  ⟨{ Tests.member 0 with stp := { (Tests.member 0).stp with fixed := some { step := 1 } } }, { Tests.tok with second := true, decision := some .commit }, { step := 1 }, by decide +kernel⟩

theorem test_meets_CommitTokensPassTheRing_13 : ∃ (s : State) (d : Decision) (step epoch att reason voter : Nat) (hold : Bool), (epoch = s.epoch) ∧ (step = s.stepNum) ∧ (att = s.attNum) ∧ (s.stp.isOpen = true) :=
  ⟨Tests.member 1, .commit, 1, 0, 0, 0, 0xFF, false, by decide +kernel⟩

/-! ### AbortRequestsAndTimeouts -/

theorem test_meets_AbortRequestsAndTimeouts_1 : ∃ (s : State) (c : CtrlMsg), (s.red.pos = 0) ∧ (1 < s.groupN) ∧ (c.epoch < s.epoch ∨ s.stp.fixed.isSome = true) :=
  ⟨(Tests.member 0).setReg R.RED_EPOCH 1#32, { pos := 1, step := 1 }, by decide +kernel⟩

theorem test_meets_AbortRequestsAndTimeouts_1a : ∃ (s : State) (c : CtrlMsg), (s.red.pos = 0) ∧ (1 < s.groupN) ∧ (c.epoch < s.epoch ∨ s.stp.fixed.isSome = true) :=
  ⟨{ Tests.member 0 with stp := { (Tests.member 0).stp with fixed := some {} } }, { pos := 1, step := 1 }, by decide +kernel⟩

theorem test_meets_AbortRequestsAndTimeouts_2 : ∃ (s : State) (c : CtrlMsg), (s.red.pos = 0) ∧ (1 < s.groupN) ∧ (s.epoch ≤ c.epoch) ∧ (s.stp.fixed = none) ∧ (s.stp.firstSent = true) :=
  ⟨{ Tests.member 0 with stp := { (Tests.member 0).stp with firstSent := true } }, { pos := 1, step := 1 }, by decide +kernel⟩

theorem test_meets_AbortRequestsAndTimeouts_3 : ∃ (s : State) (c : CtrlMsg), (s.red.pos = 0) ∧ (1 < s.groupN) ∧ (s.epoch ≤ c.epoch) ∧ (s.stp.fixed = none) ∧ (s.stp.firstSent = false) :=
  ⟨Tests.member 0, { pos := 1, step := 1, reason := 0x300 }, by decide +kernel⟩

theorem test_meets_AbortRequestsAndTimeouts_4 : ∃ (s : State), (s.red.pos = 0) ∧ (s.stp.firstSent = true) ∧ (s.stp.fixed = none) ∧ (s.stp.heldReq ≠ none ∨ s.stp.abort ≠ none) :=
  ⟨{ Tests.member 0 with stp := { (Tests.member 0).stp with firstSent := true, heldReq := some (0x300, 1) } }, by decide +kernel⟩

theorem test_meets_AbortRequestsAndTimeouts_5 : ∃ (s : State), (s.red.pos ≠ 0 ∨ s.stp.firstSent = false ∨ s.stp.fixed.isSome = true) :=
  ⟨Tests.member 1, by decide +kernel⟩

theorem test_meets_AbortRequestsAndTimeouts_6 : ∃ (s : State), (s.stp.isOpen = true) ∧ (s.stp.voted = true) ∧ (s.red.pos ≠ 0) ∧ (1 < s.groupN) ∧ (s.stp.phase.rest = false) :=
  ⟨{ Tests.member 1 with stp := { (Tests.member 1).stp with voted := true } }, by decide +kernel⟩

theorem test_meets_AbortRequestsAndTimeouts_7 : ∃ (s : State), (s.stp.isOpen = false ∨ s.stp.voted = false ∨ s.red.pos = 0) :=
  ⟨Tests.member 0, by decide +kernel⟩

theorem test_meets_AbortRequestsAndTimeouts_8 : ∃ (s : State) (r : DecRec), (s.red.pos = 0) ∧ (s.stp.fixed = some r) ∧ (s.stp.secondSent = true) :=
  ⟨{ Tests.member 0 with stp := { (Tests.member 0).stp with fixed := some {}, secondSent := true } }, {}, by decide +kernel⟩

theorem test_meets_AbortRequestsAndTimeouts_9 : ∃ (s : State), (s.stp.fixed = none) :=
  ⟨Tests.member 0, by decide +kernel⟩

/-! ### DecisionQueriesAndReplies -/

theorem test_meets_DecisionQueriesAndReplies_1 : ∃ (s : State) (c : CtrlMsg) (r : DecRec), (s.red.pos = 0) ∧ ((s.stp.fixed.toList ++ s.stp.decisions).find? (fun r => decide (r.step = c.step) && decide (r.attempt = c.attempt) && decide (r.epoch = c.epoch)) = some r) :=
  ⟨{ Tests.member 0 with stp := { (Tests.member 0).stp with fixed := some { step := 1 } } }, { step := 1, src := 1 }, { step := 1 }, by decide +kernel⟩

theorem test_meets_DecisionQueriesAndReplies_2 : ∃ (s : State) (c : CtrlMsg), (s.red.pos ≠ 0 ∨ (s.stp.fixed.toList ++ s.stp.decisions).find? (fun r => decide (r.step = c.step) && decide (r.attempt = c.attempt) && decide (r.epoch = c.epoch)) = none) :=
  ⟨Tests.member 0, { step := 1, src := 1 }, by decide +kernel⟩

theorem test_meets_DecisionQueriesAndReplies_3 : ∃ (s : State) (c : CtrlMsg) (d : Decision), (c.decision = some d) ∧ (s.red.pos ≠ 0) ∧ (s.stp.isOpen = true) ∧ (s.stp.voted = true) ∧ (s.epoch ≤ c.epoch) :=
  ⟨{ Tests.member 1 with stp := { (Tests.member 1).stp with voted := true } }, { step := 1, src := 0, decision := some .commit }, .commit, by decide +kernel⟩

theorem test_meets_DecisionQueriesAndReplies_4 : ∃ (s : State) (c : CtrlMsg) (d : Decision), (c.decision = some d) ∧ (s.red.pos ≠ 0) ∧ (s.epoch ≤ c.epoch) ∧ (s.stp.isOpen = true) :=
  ⟨Tests.member 1, { step := 1, src := 0, decision := some .commit }, .commit, by decide +kernel⟩

theorem test_meets_DecisionQueriesAndReplies_5 : ∃ (s : State) (c : CtrlMsg) (d : Decision), (c.decision = some d) ∧ (d ≠ .abort) ∧ (s.stp.isOpen = false) ∧ (s.stp.phase ≠ .halted) :=
  ⟨Tests.solo, { decision := some .skip }, .skip, by decide +kernel⟩

theorem test_meets_DecisionQueriesAndReplies_6 : ∃ (s : State) (c : CtrlMsg), (s.red.pos ≠ 0) ∧ (s.epoch ≤ c.epoch) ∧ (s.stp.isOpen = false) ∧ (s.stp.phase = .halted) :=
  ⟨Tests.halted 1, { decision := some .skip }, by decide +kernel⟩

/-! ### HoldsAndHostDecisions -/

theorem test_meets_HoldsAndHostDecisions_1 : ∃ (s : State), (s.regB R.STEP_CTRL 8 = false) :=
  ⟨{ Tests.solo with stp := { Tests.solo.stp with phase := .held, groupHold := true } }, by decide +kernel⟩

theorem test_meets_HoldsAndHostDecisions_2 : ∃ (s : State), (s.regB R.STEP_CTRL 8 = true) :=
  ⟨Tests.solo.setReg R.STEP_CTRL 0x100#32, by decide +kernel⟩

theorem test_meets_HoldsAndHostDecisions_3 : ∃ (s : State) (rq : Requester), (s.stp.phase = .halted) ∧ (s.red.pos = 0) :=
  ⟨Tests.halted 0, .host, by decide +kernel⟩

theorem test_meets_HoldsAndHostDecisions_4 : ∃ (s : State) (rq : Requester), (s.stp.phase = .halted) ∧ (s.red.pos = 0) ∧ (s.stp.halt ≠ some .exhausted ∨ s.stp.attempt < 255) :=
  ⟨Tests.halted 0, .host, by decide +kernel⟩

theorem test_meets_HoldsAndHostDecisions_5 : ∃ (s : State) (rq : Requester), (s.stp.phase = .halted) ∧ (s.red.pos = 0) ∧ (s.stp.halt = some .exhausted) ∧ (255 ≤ s.stp.attempt) :=
  ⟨{ Tests.halted 0 with stp := { (Tests.halted 0).stp with attempt := 255 } }, .host, by decide +kernel⟩

theorem test_meets_HoldsAndHostDecisions_6 : ∃ (s : State) (rq : Requester), (s.stp.phase = .halted) ∧ (s.red.pos = 0) :=
  ⟨Tests.halted 0, .kersey 2, by decide +kernel⟩

theorem test_meets_HoldsAndHostDecisions_7 : ∃ (s : State) (rq : Requester), (s.stp.phase ≠ .halted ∨ s.red.pos ≠ 0) :=
  ⟨Tests.halted 1, .host, by decide +kernel⟩

theorem test_meets_HoldsAndHostDecisions_7a : ∃ (s : State) (rq : Requester), (s.stp.phase ≠ .halted ∨ s.red.pos ≠ 0) :=
  ⟨Tests.solo, .host, by decide +kernel⟩

/-! ### CommittedWindow -/

theorem test_meets_CommittedWindow_1 : ∃ (s : State) (off len : Nat), (s.ready = true) :=
  ⟨Tests.solo, 0, 4, by decide +kernel⟩

theorem test_meets_CommittedWindow_2 : ∃ (s : State) (off : Nat) (bs : List Byte), (s.ready = true) ∧ (s.quiet = true) ∧ (off < 0x3C0000000) ∧ (s.winBase + off < s.upd.space) ∧ (s.heldBy (s.winBase + off) bs = none) :=
  ⟨{ Tests.solo with upd := { Tests.solo.upd with table := [{ rows := 16, cols := 16, mat := 0 }] } }, 5, [1, 2], by decide +kernel⟩

theorem test_meets_CommittedWindow_3 : ∃ (s : State) (off : Nat) (bs : List Byte) (d : Nat), (s.ready = true) ∧ (s.quiet = true) ∧ (off < 0x3C0000000) ∧ (s.winBase + off < s.upd.space) ∧ (s.heldBy (s.winBase + off) bs = some d) :=
  ⟨({ Tests.solo with upd := { Tests.solo.upd with table := [{ rows := 16, cols := 16, mat := 0 }] } }).setUpd 0 { proj := some {} }, 5, [1, 2], 0, by decide +kernel⟩

theorem test_meets_CommittedWindow_4 : ∃ (s : State) (off : Nat) (bs : List Byte), (s.ready = true) ∧ (off < 0x3C0000000) ∧ (s.upd.space ≤ s.winBase + off) :=
  ⟨Tests.solo, 5, [1, 2], by decide +kernel⟩

theorem test_meets_CommittedWindow_4a : ∃ (s : State) (off : Nat) (bs : List Byte), (s.ready = true) ∧ (off < 0x3C0000000) ∧ (s.upd.space ≤ s.winBase + off) :=
  ⟨Tests.soloRun, 0, [1], by decide +kernel⟩

theorem test_meets_CommittedWindow_6 : ∃ (s : State) (off : Nat) (bs : List Byte), (s.ready = true) ∧ (s.quiet = false) ∧ (off < 0x3C0000000) ∧ (s.winBase + off < s.upd.space) :=
  ⟨{ Tests.soloRun with upd := { Tests.soloRun.upd with table := [{ rows := 16, cols := 16 }] } }, 5, [1, 2], by decide +kernel⟩

theorem test_meets_CommittedWindow_7 : ∃ (s : State) (off : Nat) (bs : List Byte), (s.ready = true) :=
  ⟨Tests.solo, 0x3C0000000, [1, 2], by decide +kernel⟩

/-! ### AdcConversionRounds -/

theorem test_meets_AdcConversionRounds_2 : ∃ (bits : Nat) (e : Int) (f : Nat), (0 < (e + 8).toNat) ∧ (f + 1 ≤ 2 ^ bits - 1) :=
  ⟨4, 0, 3, by decide +kernel⟩

theorem test_meets_AdcConversionRounds_3 : ∃ (n : Nat), (1 ≤ n) ∧ (n ≤ 1024) :=
  ⟨1, by decide +kernel⟩

theorem test_meets_AdcConversionRounds_3a : ∃ (n : Nat), (1 ≤ n) ∧ (n ≤ 1024) :=
  ⟨17, by decide +kernel⟩

theorem test_meets_AdcConversionRounds_3b : ∃ (n : Nat), (1 ≤ n) ∧ (n ≤ 1024) :=
  ⟨18, by decide +kernel⟩

theorem test_meets_AdcConversionRounds_3c : ∃ (n : Nat), (1 ≤ n) ∧ (n ≤ 1024) :=
  ⟨1024, by decide +kernel⟩

theorem test_meets_AdcConversionRounds_4 : ∃ (n range : Nat), (1 ≤ n) ∧ (n ≤ 1024) :=
  ⟨34, 4, by decide +kernel⟩

theorem test_meets_AdcConversionRounds_4a : ∃ (n range : Nat), (1 ≤ n) ∧ (n ≤ 1024) :=
  ⟨35, 0, by decide +kernel⟩

theorem test_meets_AdcConversionRounds_4b : ∃ (n range : Nat), (1 ≤ n) ∧ (n ≤ 1024) :=
  ⟨545, 2, by decide +kernel⟩

/-! ### GroupRequestsAndPasses -/

theorem test_meets_GroupRequestsAndPasses_1 : ∃ (s : State) (k : Kaolin), ((s.kao k).link = []) :=
  ⟨Tests.up, 0, by decide +kernel⟩

theorem test_meets_GroupRequestsAndPasses_2 : ∃ (s : State) (k : Kaolin) (q : PassReq) (rest : List PassReq), ((s.kao k).link = q :: rest) ∧ (s.matAt k q.mat = none) :=
  ⟨Tests.up.setKao 0 { link := [{ mat := 3 }] }, 0, { mat := 3 }, [], by decide +kernel⟩

theorem test_meets_GroupRequestsAndPasses_3 : ∃ (s : State) (k : Kaolin) (q : PassReq) (rest : List PassReq) (e : MatEnt), ((s.kao k).link = q :: rest) ∧ (s.matAt k q.mat = some e) ∧ (s.reqChain e q < q.chain ∨ q.input.length ≠ e.recBytes q.chain ∨ leAt q.input 0 4 ≠ e.recBytes q.chain ∨ s.matWaits e = true) :=
  ⟨{ Tests.up.setKao 0 { link := [{ chain := 2 }] } with arr := { (Tests.up.setKao 0 { link := [{ chain := 2 }] }).arr with map := [{ k := 16, n := 8 }] } }, 0, { chain := 2 }, [], { k := 16, n := 8 }, by decide +kernel⟩

theorem test_meets_GroupRequestsAndPasses_4 : ∃ (s : State) (k : Kaolin) (q : PassReq) (rest : List PassReq) (e : MatEnt), ((s.kao k).link = q :: rest) ∧ (s.matAt k q.mat = some e) ∧ (q.chain ≤ s.reqChain e q) ∧ (q.input.length = e.recBytes q.chain) ∧ (leAt q.input 0 4 = e.recBytes q.chain) ∧ (s.matWaits e = false) ∧ (((e.grpBlocks q.grp).map (fun rb => e.posOf q.cb rb)).any (fun p => (s.pos k p).fbFor q.view) = true) :=
  ⟨Tests.oneReq.setPos 0 0 { fb := true }, 0, Tests.req, [], Tests.mat, by decide +kernel⟩

theorem test_meets_GroupRequestsAndPasses_5 : ∃ (s : State) (k : Kaolin) (q : PassReq) (rest : List PassReq) (e : MatEnt), ((s.kao k).link = q :: rest) ∧ (s.matAt k q.mat = some e) ∧ (q.chain ≤ s.reqChain e q) ∧ (q.input.length = e.recBytes q.chain) ∧ (leAt q.input 0 4 = e.recBytes q.chain) ∧ (s.matWaits e = false) ∧ (((e.grpBlocks q.grp).map (fun rb => e.posOf q.cb rb)).any (fun p => (s.pos k p).fbFor q.view) = false) ∧ ((s.kao k).queue.length < 4095) :=
  ⟨Tests.oneReq, 0, Tests.req, [], Tests.mat, by decide +kernel⟩

theorem test_meets_GroupRequestsAndPasses_6 : ∃ (s : State) (k : Kaolin) (q : PassReq) (rest : List PassReq) (e : MatEnt), ((s.kao k).link = q :: rest) ∧ (s.matAt k q.mat = some e) ∧ (q.chain ≤ s.reqChain e q) ∧ (q.input.length = e.recBytes q.chain) ∧ (leAt q.input 0 4 = e.recBytes q.chain) ∧ (s.matWaits e = false) ∧ (((e.grpBlocks q.grp).map (fun rb => e.posOf q.cb rb)).any (fun p => (s.pos k p).fbFor q.view) = false) ∧ ((s.kao k).queue.length = 4095) :=
  ⟨Tests.oneReq.setKao 0 { link := [Tests.req], queue := List.replicate 4095 Tests.req }, 0, Tests.req, [], Tests.mat, by decide +kernel⟩

theorem test_meets_GroupRequestsAndPasses_7 : ∃ (s : State) (k : Kaolin) (q : PassReq) (rest : List PassReq) (e : MatEnt), ((s.kao k).link = q :: rest) ∧ (s.matAt k q.mat = some e) ∧ (q.chain ≤ s.reqChain e q) ∧ (q.input.length = e.recBytes q.chain) ∧ (leAt q.input 0 4 = e.recBytes q.chain) ∧ (s.matWaits e = false) ∧ (((e.grpBlocks q.grp).map (fun rb => e.posOf q.cb rb)).any (fun p => (s.pos k p).fbFor q.view) = false) ∧ (4096 ≤ (s.kao k).queue.length) :=
  ⟨Tests.oneReq.setKao 0 { link := [Tests.req], queue := List.replicate 4096 Tests.req }, 0, Tests.req, [], Tests.mat, by decide +kernel⟩

theorem test_meets_GroupRequestsAndPasses_8 : ∃ (s : State) (k : Kaolin) (temp : Word), (s.admitNext k = none) :=
  ⟨Tests.up, 0, 0, by decide +kernel⟩

theorem test_meets_GroupRequestsAndPasses_9 : ∃ (s : State) (k : Kaolin) (temp : Word) (i : Nat) (q : PassReq) (e : MatEnt), (s.admitNext k = some i) ∧ ((s.kao k).queue[i]? = some q) ∧ (s.matAt k q.mat = some e) :=
  ⟨Tests.queued, 0, 0x41C80000#32, 0, Tests.req, Tests.mat, by decide +kernel⟩

theorem test_meets_GroupRequestsAndPasses_10 : ∃ (s : State) (k : Kaolin), (s.regB (R.ARR_CTRL k) 0 = false ∨ 256 ≤ (s.kao k).running.length + (s.kao k).results) :=
  ⟨Tests.up, 0, by decide +kernel⟩

theorem test_meets_GroupRequestsAndPasses_10a : ∃ (s : State) (k : Kaolin), (s.regB (R.ARR_CTRL k) 0 = false ∨ 256 ≤ (s.kao k).running.length + (s.kao k).results) :=
  ⟨Tests.queued.setKao 0 { queue := [Tests.req], results := 256 }, 0, by decide +kernel⟩

theorem test_meets_GroupRequestsAndPasses_11 : ∃ (s : State) (k : Kaolin) (q : PassReq) (rest : List PassReq), (s.regB (R.ARR_CTRL k) 0 = true) ∧ ((s.kao k).running.length + (s.kao k).results < 256) ∧ ((s.kao k).queue = q :: rest) ∧ (s.allIdle k (s.reqArrays k q) = true) :=
  ⟨Tests.queued, 0, Tests.req, [], by decide +kernel⟩

theorem test_meets_GroupRequestsAndPasses_12 : ∃ (s : State) (k : Kaolin) (i : Nat) (q : PassReq), (s.admitNext k = some i) ∧ ((s.kao k).queue[i]? = some q) :=
  ⟨Tests.queued, 0, 0, Tests.req, by decide +kernel⟩

theorem test_meets_GroupRequestsAndPasses_13 : ∃ (w : Nat) (ks : List (Nat × Bool)), (0 < w) ∧ (w ≤ 8) ∧ (∀ x ∈ ks, x.1 ≤ 511) :=
  ⟨4, [(511, true), (511, false), (511, true), (511, false)], by decide +kernel⟩

theorem test_meets_GroupRequestsAndPasses_13a : ∃ (w : Nat) (ks : List (Nat × Bool)), (0 < w) ∧ (w ≤ 8) ∧ (∀ x ∈ ks, x.1 ≤ 511) :=
  ⟨8, List.replicate 8 (511, false), by decide +kernel⟩

theorem test_meets_GroupRequestsAndPasses_14 : ∃ (s : State) (k : Kaolin) (i : Nat) (y : List (Nat × Nat)) (run : PassRun) (e : MatEnt), ((s.kao k).running[i]? = some run) ∧ (s.matAt k run.req.mat = some e) ∧ ((e.groupScales run.req.input run.req.chain run.req.grp).contains 0xFF = false) :=
  ⟨Tests.running, 0, 0, [], { req := Tests.req, arrays := [0], lsb := 8 }, Tests.mat, by decide +kernel⟩

theorem test_meets_GroupRequestsAndPasses_15 : ∃ (s : State) (k : Kaolin) (i : Nat) (y : List (Nat × Nat)) (run : PassRun) (e : MatEnt), ((s.kao k).running[i]? = some run) ∧ (s.matAt k run.req.mat = some e) ∧ ((e.groupScales run.req.input run.req.chain run.req.grp).contains 0xFF = false) :=
  ⟨Tests.running, 0, 0, [], { req := Tests.req, arrays := [0], lsb := 8 }, Tests.mat, by decide +kernel⟩

theorem test_meets_GroupRequestsAndPasses_16 : ∃ (s : State) (k : Kaolin) (i : Nat) (y : List (Nat × Nat)) (run : PassRun) (e : MatEnt), ((s.kao k).running[i]? = some run) ∧ (s.matAt k run.req.mat = some e) ∧ ((e.groupScales run.req.input run.req.chain run.req.grp).contains 0xFF = true) :=
  ⟨Tests.nanRun, 0, 0, [], { req := { Tests.req with input := Tests.req.input.set 16 0xFF }, arrays := [0] }, Tests.mat, by decide +kernel⟩

theorem test_meets_GroupRequestsAndPasses_17 : ∃ (s : State) (k : Kaolin) (i : Nat) (y : List (Nat × Nat)), ((s.kao k).running[i]? = none) :=
  ⟨Tests.up, 0, 0, [], by decide +kernel⟩

/-! ### RangesAndArrayCounters -/

theorem test_meets_RangesAndArrayCounters_1 : ∃ (s : State) (k : Kaolin) (idx : Nat) (e : MatEnt), (s.matAt k idx = some e) ∧ (35 ≤ e.ng 0) ∧ ((s.mat k idx).due = true) ∧ (s.fnHost 2 = false) :=
  ⟨Tests.tracked, 0, 0, Tests.wide, by decide +kernel⟩

theorem test_meets_RangesAndArrayCounters_2 : ∃ (rclip hold : Nat) (m : MatSt), (m.range ≤ 4) :=
  ⟨14, 16, {}, by decide +kernel⟩

theorem test_meets_RangesAndArrayCounters_3 : ∃ (s : State) (k : Kaolin) (idx : Nat) (e : MatEnt), (s.matAt k idx = some e) ∧ ((s.mat k idx).due = false) ∧ ((s.mat k idx).passes < 4096) :=
  ⟨Tests.oneReq, 0, 0, Tests.mat, by decide +kernel⟩

theorem test_meets_RangesAndArrayCounters_4 : ∃ (s : State) (k : Kaolin) (rq : Requester) (v : Word) (e : MatEnt), (s.matAt k (s.regF (R.ARR_RANGE_SEL k) 10 0) = some e) ∧ (s.fnHost 2 = false) :=
  ⟨Tests.oneReq, 0, .host, 3, Tests.mat, by decide +kernel⟩

theorem test_meets_RangesAndArrayCounters_5 : ∃ (s : State) (k : Kaolin) (rq : Requester) (v : Word) (e : MatEnt), (s.matAt k (s.regF (R.ARR_RANGE_SEL k) 10 0) = some e) ∧ (s.fnHost 2 = true) ∧ (fld v 2 0 ≤ 4) ∧ ((s.stp.phase ≠ .idle ∧ s.halted = false) ∨ (s.mat k (s.regF (R.ARR_RANGE_SEL k) 10 0)).prev.isSome = true) ∧ ((s.mat k (s.regF (R.ARR_RANGE_SEL k) 10 0)).range ≠ fld v 2 0) :=
  ⟨(Tests.oneReq.setReg R.DUTY_SPLIT_USED 2#32).modStp (fun x => { x with phase := .forward }), 0, .host, 3, Tests.mat, by decide +kernel⟩

theorem test_meets_RangesAndArrayCounters_6 : ∃ (s : State) (k : Kaolin) (rq : Requester) (v : Word) (e : MatEnt), (s.matAt k (s.regF (R.ARR_RANGE_SEL k) 10 0) = some e) ∧ (s.fnHost 2 = true) ∧ (fld v 2 0 ≤ 4) ∧ (s.stp.phase = .idle) ∧ ((s.mat k (s.regF (R.ARR_RANGE_SEL k) 10 0)).prev = none) ∧ ((s.mat k (s.regF (R.ARR_RANGE_SEL k) 10 0)).range ≠ fld v 2 0) ∧ ((s.mat k (s.regF (R.ARR_RANGE_SEL k) 10 0)).cur ≠ fld v 2 0) :=
  ⟨Tests.oneReq.setReg R.DUTY_SPLIT_USED 2#32, 0, .host, 3, Tests.mat, by decide +kernel⟩

theorem test_meets_RangesAndArrayCounters_7 : ∃ (s : State) (k : Kaolin) (rq : Requester) (v : Word) (e : MatEnt), (s.matAt k (s.regF (R.ARR_RANGE_SEL k) 10 0) = some e) ∧ (s.fnHost 2 = true) ∧ (fld v 2 0 ≤ 4) ∧ (s.halted = true) ∧ ((s.mat k (s.regF (R.ARR_RANGE_SEL k) 10 0)).prev = none) ∧ ((s.mat k (s.regF (R.ARR_RANGE_SEL k) 10 0)).range ≠ fld v 2 0) ∧ ((s.mat k (s.regF (R.ARR_RANGE_SEL k) 10 0)).cur ≠ fld v 2 0) ∧ (s.mem.ctx = []) :=
  ⟨(Tests.oneReq.setReg R.DUTY_SPLIT_USED 2#32).modStp (fun x => { x with phase := .held }), 0, .host, 3, Tests.mat, by decide +kernel⟩

theorem test_meets_RangesAndArrayCounters_8 : ∃ (s : State) (n : Nat) (e : MatEnt), (e ∈ s.arr.map) :=
  ⟨{ Tests.oneReq with arr := { Tests.oneReq.arr with mat := [(0, { range := 2, cur := 1 })] } }, 1, Tests.mat, by decide +kernel⟩

theorem test_meets_RangesAndArrayCounters_10 : ∃ (s : State) (k : Kaolin) (v : Word), (bitOf v 1 = false) :=
  ⟨Tests.up, 0, 1, by decide +kernel⟩

theorem test_meets_RangesAndArrayCounters_11 : ∃ (s : State) (k : Kaolin) (v : Word) (a g : Nat), (bitOf v 1 = true) ∧ (a < 1632) :=
  ⟨Tests.up.setPhys 0 5 { clipg := [(3, 7)] }, 0, 2, 5, 3, by decide +kernel⟩

theorem test_meets_RangesAndArrayCounters_12 : ∃ (s : State) (k : Kaolin) (rq : Requester), (s.regF (R.ARR_CLIPG_SEL k) 10 0 < 1632) :=
  ⟨Tests.up, 0, .host, by decide +kernel⟩

/-! ### CalibrationReads -/

theorem test_meets_CalibrationReads_1 : ∃ (s : State) (k : Kaolin) (a : Nat), (s.calNext k = some a) :=
  ⟨Tests.drift, 0, 0, by decide +kernel⟩

theorem test_meets_CalibrationReads_2 : ∃ (s : State) (k : Kaolin) (a b : Nat), (s.calNext k = some a) ∧ (b ∈ s.activeArrays k) ∧ ((s.phys k b).forced = true) ∧ ((s.phys k b).use = .idle) :=
  ⟨Tests.drift.setPhys 0 0 { Tests.drift.phys 0 0 with forced := true }, 0, 0, 0, by decide +kernel⟩

theorem test_meets_CalibrationReads_3 : ∃ (s : State) (k : Kaolin) (a b : Nat), (s.calNext k = some a) ∧ ((s.phys k a).forced = false) ∧ (b ∈ s.activeArrays k) ∧ (s.monitorMay k b = true) :=
  ⟨Tests.drift, 0, 0, 0, by decide +kernel⟩

theorem test_meets_CalibrationReads_4 : ∃ (s : State) (k : Kaolin) (a : Nat), (s.monitorMay k a = true) :=
  ⟨Tests.drift, 0, 0, by decide +kernel⟩

theorem test_meets_CalibrationReads_5 : ∃ (s : State) (k : Kaolin) (a : Nat), (s.regB (R.ARR_DRIFT_CTRL k) 0 = true) ∧ (s.calNext k = some a) :=
  ⟨Tests.drift, 0, 0, by decide +kernel⟩

theorem test_meets_CalibrationReads_6 : ∃ (s : State) (k : Kaolin), (s.regB (R.ARR_DRIFT_CTRL k) 0 = false ∨ s.calNext k = none) :=
  ⟨Tests.up, 0, by decide +kernel⟩

theorem test_meets_CalibrationReads_7 : ∃ (s : State) (k : Kaolin) (a : Nat) (codes : List Nat) (t : Word), ((s.phys k a).use = .calibration) :=
  ⟨Tests.drift.setPhys 0 0 { use := .calibration }, 0, 0, [5], 0, by decide +kernel⟩

theorem test_meets_CalibrationReads_8 : ∃ (s : State) (k : Kaolin) (a : Nat) (codes : List Nat) (t : Word), ((s.phys k a).use ≠ .calibration) :=
  ⟨Tests.drift, 0, 0, [5], 0, by decide +kernel⟩

theorem test_meets_CalibrationReads_9 : ∃ (s : State) (k : Kaolin) (a : Nat), (s.polF (R.ARR_DRIFT_CFG k) 15 0 ≠ 0) ∧ (s.regB (R.ARR_DRIFT_CTRL k) 0 = true) ∧ ((s.activeArrays k).contains a = true) ∧ ((s.phys k a).use ≠ .calibration) ∧ ((s.phys k a).forced = false) :=
  ⟨{ Tests.drift with policy := [(R.ARR_DRIFT_CFG 0, 10#32)] }, 0, 0, by decide +kernel⟩

theorem test_meets_CalibrationReads_10 : ∃ (s : State) (k : Kaolin) (a : Nat), (s.polF (R.ARR_DRIFT_CFG k) 15 0 = 0 ∨ (s.activeArrays k).contains a = false) :=
  ⟨Tests.drift, 0, 7, by decide +kernel⟩

theorem test_meets_CalibrationReads_11 : ∃ (s : State) (k : Kaolin) (a : Nat), ((s.activeArrays k).contains a = true) :=
  ⟨Tests.drift, 0, 0, by decide +kernel⟩

theorem test_meets_CalibrationReads_12 : ∃ (s : State) (k : Kaolin) (a : Nat), ((s.activeArrays k).contains a = false) :=
  ⟨Tests.drift, 0, 9, by decide +kernel⟩

/-! ### FitsAndTrimPublication -/

theorem test_meets_FitsAndTrimPublication_1 : ∃ (s : State) (k : Kaolin) (a : Nat), (s.calWindow k ≤ (s.phys k a).reads.length) :=
  ⟨{ Tests.drift.setPhys 0 0 { reads := List.replicate 8 {} } with policy := [(R.ARR_DRIFT_CFG 0, 0#32)] }, 0, 0, by decide +kernel⟩

theorem test_meets_FitsAndTrimPublication_2 : ∃ (s : State) (k : Kaolin) (a : Nat), ((s.phys k a).reads.length < s.calWindow k) :=
  ⟨Tests.drift, 0, 0, by decide +kernel⟩

theorem test_meets_FitsAndTrimPublication_3 : ∃ (x : PhysSt), (x.hist.length ≤ 8) :=
  ⟨{}, by decide +kernel⟩

theorem test_meets_FitsAndTrimPublication_4 : ∃ (s : State) (k : Kaolin), (s.regB (R.ARR_DRIFT_CTRL k) 0 = true) ∧ (s.fnHost 6 = false) ∧ ((s.kao k).held = none) ∧ (s.publishDue k = true) :=
  ⟨Tests.drift.setTile 0 0 { spare := .ready, ready := some (0, false) }, 0, by decide +kernel⟩

theorem test_meets_FitsAndTrimPublication_5 : ∃ (s : State) (k : Kaolin), (s.regB (R.ARR_DRIFT_CTRL k) 0 = false ∨ s.fnHost 6 = true ∨ (s.kao k).held ≠ none) :=
  ⟨Tests.up, 0, by decide +kernel⟩

theorem test_meets_FitsAndTrimPublication_6 : ∃ (s : State) (k : Kaolin) (rq : Requester) (pos : Nat), (s.fnHost 6 = true) ∧ (s.regB (R.ARR_DRIFT_CTRL k) 0 = true) ∧ ((s.kao k).held = none) :=
  ⟨Tests.drift.setReg R.DUTY_SPLIT_USED 32#32, 0, .host, 0, by decide +kernel⟩

theorem test_meets_FitsAndTrimPublication_7 : ∃ (s : State) (k : Kaolin) (rq : Requester) (pos : Nat), (s.fnHost 6 = false) :=
  ⟨Tests.drift, 0, .host, 0, by decide +kernel⟩

theorem test_meets_FitsAndTrimPublication_8 : ∃ (s : State) (k : Kaolin) (rq : Requester) (pos : Nat) (v : Nat), (s.fnHost 6 = true) ∧ ((s.kao k).held = some v) :=
  ⟨(Tests.drift.setReg R.DUTY_SPLIT_USED 32#32).setKao 0 { held := some 3 }, 0, .host, 0, 3, by decide +kernel⟩

/-! ### ProgrammingTriggersAndReadback -/

theorem test_meets_ProgrammingTriggersAndReadback_1 : ∃ (s : State) (k : Kaolin) (rq : Requester) (pos : Nat), ((s.posMat k pos).isSome = true) :=
  ⟨Tests.drift, 0, .host, 0, by decide +kernel⟩

theorem test_meets_ProgrammingTriggersAndReadback_3 : ∃ (s : State) (k : Kaolin) (rq : Requester) (pos : Nat), (s.posMat k pos = none) :=
  ⟨Tests.drift, 0, .host, 99, by decide +kernel⟩

theorem test_meets_ProgrammingTriggersAndReadback_4 : ∃ (s : State) (k : Kaolin) (rq : Requester) (pos : Nat), ((s.posMat k pos).isSome = true) ∧ ((s.pos k pos).unconf = true) ∧ ((s.pos k pos).waitHost = true) :=
  ⟨Tests.drift.setPos 0 0 { unconf := true, waitHost := true }, 0, .host, 0, by decide +kernel⟩

theorem test_meets_ProgrammingTriggersAndReadback_5 : ∃ (s : State) (k : Kaolin) (rq : Requester) (pos : Nat), ((s.posMat k pos).isSome = true) ∧ ((s.pos k pos).waitHost = false) :=
  ⟨Tests.drift, 0, .host, 0, by decide +kernel⟩

theorem test_meets_ProgrammingTriggersAndReadback_6 : ∃ (s : State) (k : Kaolin) (rq : Requester) (pos : Nat), ((s.posMat k pos).isSome = true) :=
  ⟨Tests.drift, 0, .host, 0, by decide +kernel⟩

theorem test_meets_ProgrammingTriggersAndReadback_7 : ∃ (s : State) (k : Kaolin) (pos : Nat) (e : MatEnt) (c b : Nat), (s.posMat k pos = some (e, c, b)) ∧ (s.polF (R.ARR_REFRESH_CFG k) 15 8 ≠ 0) ∧ (s.polF (R.ARR_REFRESH_CFG k) 15 8 * 86400 ≤ s.imageAge k pos) ∧ (s.fnHost 6 = false) :=
  ⟨{ (Tests.drift.setPhys 0 0 { record := some {} }).setReg R.PWR_POWERED 86400#32 with policy := [(R.ARR_REFRESH_CFG 0, 0x100#32)] }, 0, 0, Tests.mat, 0, 0, by decide +kernel⟩

theorem test_meets_ProgrammingTriggersAndReadback_8 : ∃ (s : State) (k : Kaolin) (pos a : Nat) (lv : List (Nat × Nat)), (s.physOf k pos = some a) ∧ (0 < (s.pos k pos).readback) ∧ (s.monitorMay k a = true) ∧ (s.calWants k a = false) :=
  ⟨(Tests.drift.setPos 0 0 { readback := 8 }).setReg (R.ARR_DRIFT_CTRL 0) 0x20102#32, 0, 0, 0, [], by decide +kernel⟩

/-! ### ProgrammingJobs -/

theorem test_meets_ProgrammingJobs_1 : ∃ (s : State) (k : Kaolin) (t : Nat) (j : Job), (s.regB (R.ARR_DRIFT_CTRL k) 1 = true) ∧ (s.busyTiles k < s.progTiles k) ∧ (s.nextTile k = some (t, j)) :=
  ⟨Tests.drift.setKao 0 { jobs := [{ cls := 3 }] }, 0, 0, { cls := 3 }, by decide +kernel⟩

theorem test_meets_ProgrammingJobs_2 : ∃ (s : State) (k : Kaolin), (s.regB (R.ARR_DRIFT_CTRL k) 1 = false ∨ s.progTiles k ≤ s.busyTiles k ∨ s.nextTile k = none) :=
  ⟨Tests.up, 0, by decide +kernel⟩

theorem test_meets_ProgrammingJobs_3 : ∃ (reads : RowReads) (i : Nat), (i ≤ 6) ∧ (∀ j < i, inTol (reads.getD j []) = false) ∧ (i = 6 ∨ inTol (reads.getD i []) = true) :=
  ⟨[], 0, by decide +kernel⟩

theorem test_meets_ProgrammingJobs_3a : ∃ (reads : RowReads) (i : Nat), (i ≤ 6) ∧ (∀ j < i, inTol (reads.getD j []) = false) ∧ (i = 6 ∨ inTol (reads.getD i []) = true) :=
  ⟨[[(3, 9)], [(3, -8)]], 1, by decide +kernel⟩

theorem test_meets_ProgrammingJobs_3b : ∃ (reads : RowReads) (i : Nat), (i ≤ 6) ∧ (∀ j < i, inTol (reads.getD j []) = false) ∧ (i = 6 ∨ inTol (reads.getD i []) = true) :=
  ⟨List.replicate 7 [(3, 33)], 6, by decide +kernel⟩

theorem test_meets_ProgrammingJobs_4 : ∃ (s : State) (k : Kaolin) (t : Fin 96) (v0 v1 v2 : VerifyRead) (vs : RowReads) (run : RunJob) (r : Nat) (rest : List Nat), ((s.tile k t).job = some run) ∧ (run.rows = r :: rest) ∧ (s.rowIllegal k run.job.pos run.job.fromShadow r = false) ∧ (run.inPlace = true) :=
  ⟨Tests.job { inPlace := true, rows := [7], job := { fromShadow := true } }, 0, 0, [(3, 9)], [], [], [], { inPlace := true, rows := [7], job := { fromShadow := true } }, 7, [], by decide +kernel⟩

theorem test_meets_ProgrammingJobs_5 : ∃ (s : State) (k : Kaolin) (t : Fin 96) (v0 v1 v2 : VerifyRead) (vs : RowReads) (run : RunJob) (r : Nat) (rest : List Nat), ((s.tile k t).job = some run) ∧ (run.rows = r :: rest) ∧ (s.rowIllegal k run.job.pos run.job.fromShadow r = false) ∧ (run.inPlace = false) :=
  ⟨Tests.job { rows := [7], job := { fromShadow := true } }, 0, 0, [], [], [], [], { rows := [7], job := { fromShadow := true } }, 7, [], by decide +kernel⟩

theorem test_meets_ProgrammingJobs_6 : ∃ (s : State) (k : Kaolin) (t : Fin 96) (v0 v1 v2 : VerifyRead) (vs : RowReads) (run : RunJob) (r : Nat) (rest : List Nat), ((s.tile k t).job = some run) ∧ (run.rows = r :: rest) ∧ (s.rowIllegal k run.job.pos run.job.fromShadow r = true) :=
  ⟨(Tests.job { rows := [7] }).hbmWrite 7 [0x10], 0, 0, [], [], [], [], { rows := [7] }, 7, [], by decide +kernel⟩

theorem test_meets_ProgrammingJobs_7 : ∃ (s : State) (k : Kaolin) (t : Fin 96) (v0 v1 v2 : VerifyRead) (vs : RowReads), ((s.tile k t).job = none ∨ ∃ run ∈ (s.tile k t).job, run.rows = []) :=
  ⟨Tests.drift, 0, 0, [], [], [], [], by left; decide +kernel⟩

theorem test_meets_ProgrammingJobs_7a : ∃ (s : State) (k : Kaolin) (t : Fin 96) (v0 v1 v2 : VerifyRead) (vs : RowReads), ((s.tile k t).job = none ∨ ∃ run ∈ (s.tile k t).job, run.rows = []) :=
  ⟨Tests.job {}, 0, 0, [], [], [], [], by right; exact ⟨{}, by decide +kernel, by decide +kernel⟩⟩

theorem test_meets_ProgrammingJobs_8 : ∃ (s : State) (k : Kaolin) (t : Fin 96) (f : VerifyFit) (mr : List RowReads) (run : RunJob), ((s.tile k t).job = some run) ∧ (run.failed = false) ∧ (run.rows ≠ []) :=
  ⟨Tests.job { rows := [7] }, 0, 0, {}, [], { rows := [7] }, by decide +kernel⟩

theorem test_meets_ProgrammingJobs_9 : ∃ (s : State) (k : Kaolin) (t : Fin 96) (f : VerifyFit) (mr : List RowReads) (run : RunJob), ((s.tile k t).job = some run) ∧ (run.failed = false) ∧ (run.rows = []) ∧ ((s.pos k run.job.pos).changed ≠ []) ∧ (run.job.fromShadow = false) :=
  ⟨(Tests.job {}).setPos 0 0 { changed := [5] }, 0, 0, {}, [], {}, by decide +kernel⟩

theorem test_meets_ProgrammingJobs_10 : ∃ (s : State) (k : Kaolin) (t : Fin 96) (f : VerifyFit) (mr : List RowReads) (run : RunJob), ((s.tile k t).job = some run) ∧ (run.failed = true) :=
  ⟨Tests.job { failed := true }, 0, 0, {}, [], { failed := true }, by decide +kernel⟩

theorem test_meets_ProgrammingJobs_11 : ∃ (s : State) (k : Kaolin) (t : Fin 96) (f : VerifyFit) (mr : List RowReads) (run : RunJob), ((s.tile k t).job = some run) ∧ (run.failed = false) ∧ (run.rows = []) ∧ ((s.pos k run.job.pos).changed = [] ∨ run.job.fromShadow = true) :=
  ⟨Tests.job {}, 0, 0, {}, [], {}, by decide +kernel⟩

theorem test_meets_ProgrammingJobs_11a : ∃ (s : State) (k : Kaolin) (t : Fin 96) (f : VerifyFit) (mr : List RowReads) (run : RunJob), ((s.tile k t).job = some run) ∧ (run.failed = false) ∧ (run.rows = []) ∧ ((s.pos k run.job.pos).changed = [] ∨ run.job.fromShadow = true) :=
  ⟨(Tests.job { job := { fromShadow := true } }).setPos 0 0 { changed := [5] }, 0, 0, {}, [], { job := { fromShadow := true } }, by decide +kernel⟩

theorem test_meets_ProgrammingJobs_13 : ∃ (s : State) (k t : Nat) (run : RunJob) (x : PhysSt), (run.inPlace = false) :=
  ⟨Tests.job {}, 0, 0, {}, {}, by decide +kernel⟩

theorem test_meets_ProgrammingJobs_14 : ∃ (s : State) (k t : Nat) (run : RunJob) (x : PhysSt), (run.inPlace = true) :=
  ⟨Tests.job { inPlace := true }, 0, 0, { inPlace := true }, {}, by decide +kernel⟩

theorem test_meets_ProgrammingJobs_15 : ∃ (s : State) (k t : Nat) (run : RunJob), (run.retried = false) :=
  ⟨Tests.job {}, 0, 0, {}, by decide +kernel⟩

theorem test_meets_ProgrammingJobs_16 : ∃ (s : State) (k t : Nat) (run : RunJob), (run.retried = true) ∧ (run.inPlace = false) ∧ ((s.tile k t).job = some run) :=
  ⟨Tests.job { retried := true }, 0, 0, { retried := true }, by decide +kernel⟩

theorem test_meets_ProgrammingJobs_17 : ∃ (s : State) (k t : Nat) (run : RunJob), (run.retried = true) ∧ (run.inPlace = true) ∧ ((s.tile k t).job = some run) ∧ ((s.tile k t).spare = .free ∨ (s.tile k t).spare = .ready ∨ (s.tile k t).spare = .prog) :=
  ⟨Tests.job { retried := true, inPlace := true }, 0, 0, { retried := true, inPlace := true }, by decide +kernel⟩

theorem test_meets_ProgrammingJobs_18 : ∃ (s : State) (k t : Nat) (run : RunJob), (run.retried = true) ∧ (run.inPlace = true) ∧ ((s.tile k t).job = some run) ∧ ((s.tile k t).spare = .none) :=
  ⟨(Tests.job { retried := true, inPlace := true }).setTile 0 0 { job := some { retried := true, inPlace := true }, spare := .none }, 0, 0, { retried := true, inPlace := true }, by decide +kernel⟩

/-! ### IntegerInstructions -/

theorem test_meets_IntegerInstructions_1 : ∃ (s : State) (d : Die) (u : Fin 32) (w : TwillWord) (x : UnitSt), (s.midProgram d u = true) ∧ (w.isFloat = false) ∧ (w.ctl ≠ 7) ∧ (s.unit (d * 32 + u) = x) :=
  ⟨Tests.up, 0, 0, { ty := 2 }, {}, by decide +kernel⟩

/-! ### FloatingPointInstructions -/

theorem test_meets_FloatingPointInstructions_1 : ∃ (s : State) (d : Die) (u : Fin 32) (w : TwillWord) (x : UnitSt), (s.midProgram d u = true) ∧ (w.isFloat = true) ∧ (w.ctl ≠ 7) ∧ (s.unit (d * 32 + u) = x) :=
  ⟨Tests.up, 0, 0, {}, {}, by decide +kernel⟩

theorem test_meets_FloatingPointInstructions_2 : ∃ (w : TwillWord) (a b : XNum), (w.ctl = 0) :=
  ⟨{}, .nan, .nan, by decide +kernel⟩

theorem test_meets_FloatingPointInstructions_3 : ∃ (w : TwillWord) (b : XNum) (n : Bool) (m : Nat) (e : Int), (m = 0) :=
  ⟨{}, .nan, true, 0, 0, by decide +kernel⟩

/-! ### SpecialFunctions -/

theorem test_meets_SpecialFunctions_1 : ∃ (s : State) (d : Die) (u : Fin 32) (w : TwillWord) (x : UnitSt), (s.midProgram d u = true) ∧ (w.isFloat = true) ∧ (w.ctl ≠ 7) ∧ (s.unit (d * 32 + u) = x) :=
  ⟨Tests.up, 0, 0, {}, {}, by decide +kernel⟩

theorem test_meets_SpecialFunctions_2 : ∃ (n : Bool) (m : Nat) (e : Int) (c : Nat), (0 < m) :=
  ⟨false, 1, 0, 0, by decide +kernel⟩

theorem test_meets_SpecialFunctions_3 : ∃ (n : Bool) (m : Nat) (e : Int), (XNum.le (XNum.ratio 901 100) (.fin false m e) = true) ∧ (XNum.lt (.fin false m e) (.fin false 1 (-12)) = false) :=
  ⟨false, 16, 0, by decide +kernel⟩

theorem test_meets_SpecialFunctions_4 : ∃ (m : Nat) (e : Int), (0 < m) ∧ (XNum.le (.fin false 1 7) (.fin false m e) = false) ∧ (XNum.eq (.fin false m e) (.fin false 1 0) = false) :=
  ⟨3, 0, by decide +kernel⟩

theorem test_meets_SpecialFunctions_5 : ∃ (n : Bool) (m : Nat) (e : Int), (XNum.le (XNum.ratio 901 100) (.fin false m e) = false) ∧ (XNum.lt (.fin false m e) (.fin false 1 (-12)) = false) :=
  ⟨true, 3, 0, by decide +kernel⟩

/-! ### ComparesAndMasks -/

theorem test_meets_ComparesAndMasks_1 : ∃ (s : State) (d : Die) (u : Fin 32) (w : TwillWord) (x : UnitSt), (s.midProgram d u = true) ∧ (w.isFloat = true) ∧ (w.d.val < 8) ∧ (w.d.val ≠ 0) ∧ (s.unit (d * 32 + u) = x) :=
  ⟨Tests.up, 0, 0, { d := 1 }, {}, by decide +kernel⟩

theorem test_meets_ComparesAndMasks_2 : ∃ (s : State) (d : Die) (u : Fin 32) (w : TwillWord) (x : UnitSt), (s.midProgram d u = true) ∧ (w.isFloat = false) ∧ (w.ctl.val < 6) ∧ (w.d.val < 8) ∧ (w.d.val ≠ 0) ∧ (s.unit (d * 32 + u) = x) :=
  ⟨Tests.up, 0, 0, { d := 1, ty := 3 }, {}, by decide +kernel⟩

theorem test_meets_ComparesAndMasks_3 : ∃ (s : State) (d : Die) (u : Fin 32) (w : TwillWord) (x : UnitSt), (s.midProgram d u = true) ∧ (w.d.val = 0) ∧ (s.unit (d * 32 + u) = x) :=
  ⟨Tests.up, 0, 0, {}, {}, by decide +kernel⟩

theorem test_meets_ComparesAndMasks_4 : ∃ (c : Nat) (a : XNum), (c < 8) :=
  ⟨7, .nan, by decide +kernel⟩

theorem test_meets_ComparesAndMasks_5 : ∃ (s : State) (d : Die) (u : Fin 32) (w : TwillWord) (x : UnitSt), (s.midProgram d u = true) ∧ (w.ctl ≠ 7) ∧ (w.d.val % 8 ≠ 0) ∧ (s.unit (d * 32 + u) = x) :=
  ⟨Tests.up, 0, 0, { d := 1 }, {}, by decide +kernel⟩

theorem test_meets_ComparesAndMasks_6 : ∃ (s : State) (d : Die) (u : Fin 32) (w : TwillWord) (x : UnitSt), (s.midProgram d u = true) ∧ (w.ctl ≠ 7) ∧ (w.d.val % 8 = 0) ∧ (s.unit (d * 32 + u) = x) :=
  ⟨Tests.up, 0, 0, {}, {}, by decide +kernel⟩

theorem test_meets_ComparesAndMasks_7 : ∃ (s : State) (d : Die) (u : Fin 32) (w : TwillWord) (x : UnitSt), (s.midProgram d u = true) ∧ (w.ctl ≠ 7) ∧ (s.unit (d * 32 + u) = x) :=
  ⟨Tests.up, 0, 0, { m := 1 }, {}, by decide +kernel⟩

/-! ### TwillSetupAndIllegal -/

theorem test_meets_TwillSetupAndIllegal_1 : ∃ (s : State) (d : Die) (u : Fin 32) (w : TwillWord) (x : UnitSt), (s.midProgram d u = true) ∧ (w.ctl ≠ 7) ∧ (s.unit (d * 32 + u) = x) :=
  ⟨Tests.up, 0, 0, {}, {}, by decide +kernel⟩

theorem test_meets_TwillSetupAndIllegal_2 : ∃ (s : State) (d : Die) (u : Fin 32) (op : Fin 256) (x : UnitSt), (s.midProgram d u = true) ∧ (s.unit (d * 32 + u) = x) ∧ (twOpcode op = false) :=
  ⟨Tests.up, 0, 0, 0xFF, {}, by decide +kernel⟩

theorem test_meets_TwillSetupAndIllegal_3 : ∃ (s : State) (d : Die) (u : Fin 32) (op : Fin 256), (twOpcode op = true) :=
  ⟨Tests.up, 0, 0, 0x20, by decide +kernel⟩

theorem test_meets_TwillSetupAndIllegal_4 : ∃ (s : State) (d : Die) (u : Fin 32) (w : TwillWord) (x : UnitSt) (sl : Nat), (w.ctl ≠ 7) ∧ (s.unit (d * 32 + u) = x) ∧ (x.slot = some sl) ∧ (x.ibuf.length ≤ x.pc + 1) :=
  ⟨Tests.up.setUnit 0 { slot := some 3, flags := 5, ibuf := [0] }, 0, 0, {}, { slot := some 3, flags := 5, ibuf := [0] }, 3, by decide +kernel⟩

theorem test_meets_TwillSetupAndIllegal_5 : ∃ (s : State) (d : Die) (u : Fin 32) (w : TwillWord) (x : UnitSt), (w.ctl = 7) ∧ (s.unit (d * 32 + u) = x) ∧ (s.midProgram d u = true) :=
  ⟨Tests.up, 0, 0, { ctl := 7 }, {}, by decide +kernel⟩

/-! ### ConversionsAndPacking -/

theorem test_meets_ConversionsAndPacking_1 : ∃ (s : State) (d : Die) (u : Fin 32) (w : TwillWord) (x : UnitSt), (s.midProgram d u = true) ∧ (w.ctl ≠ 7) ∧ (s.unit (d * 32 + u) = x) ∧ (w.imm.toNat % 16 < 8) ∧ (w.ty.val = fcvtType (w.imm.toNat % 16)) :=
  ⟨Tests.up, 0, 0, {}, {}, by decide +kernel⟩

theorem test_meets_ConversionsAndPacking_2 : ∃ (s : State) (d : Die) (u : Fin 32) (w : TwillWord) (x : UnitSt), (8 ≤ w.imm.toNat % 16) :=
  ⟨Tests.up, 0, 0, { imm := 9 }, {}, by decide +kernel⟩

theorem test_meets_ConversionsAndPacking_3 : ∃ (s : State) (d : Die) (u : Fin 32) (w : TwillWord) (x : UnitSt), (w.imm.toNat % 16 < 8) ∧ (w.ty.val ≠ fcvtType (w.imm.toNat % 16)) :=
  ⟨Tests.up, 0, 0, { ty := 3 }, {}, by decide +kernel⟩

theorem test_meets_ConversionsAndPacking_4 : ∃ (s : State) (d : Die) (u : Fin 32) (w : TwillWord) (x : UnitSt), (s.unit (d * 32 + u) = x) ∧ (w.ty ≠ 2) :=
  ⟨Tests.up, 0, 0, {}, {}, by decide +kernel⟩

theorem test_meets_ConversionsAndPacking_5 : ∃ (s : State) (d : Die) (u : Fin 32) (w : TwillWord) (x : UnitSt), (s.unit (d * 32 + u) = x) ∧ (w.ty ≠ 0) :=
  ⟨Tests.up, 0, 0, { ty := 2 }, {}, by decide +kernel⟩

theorem test_meets_ConversionsAndPacking_6 : ∃ (c : Nat) (n : Bool) (m : Nat) (e : Int), (-(2 ^ 31) ≤ XNum.roundInt (ctlRnd c n) (.fin n m e)) ∧ (XNum.roundInt (ctlRnd c n) (.fin n m e) ≤ 2 ^ 31 - 1) :=
  ⟨0, false, 3, 0, by decide +kernel⟩

theorem test_meets_ConversionsAndPacking_7 : ∃ (s : State) (d : Die) (u : Fin 32) (w : TwillWord) (x : UnitSt), (s.midProgram d u = true) ∧ (w.ctl ≠ 7) ∧ (s.unit (d * 32 + u) = x) ∧ (qWidth (w.imm.toNat % 16) = true) ∧ (w.ty = 0) :=
  ⟨Tests.up, 0, 0, { imm := 4 }, {}, by decide +kernel⟩

theorem test_meets_ConversionsAndPacking_8 : ∃ (s : State) (d : Die) (u : Fin 32) (w : TwillWord) (x : UnitSt), (s.midProgram d u = true) ∧ (w.ctl = 7) ∧ (x.srOk = true) ∧ (s.unit (d * 32 + u) = x) ∧ (qWidth (w.imm.toNat % 16) = true) ∧ (w.ty = 0) :=
  ⟨Tests.up.setUnit 0 { srOk := true, v := [(3, 0x3F912345#32)] }, 0, 0, { ctl := 7, imm := 4, d := 2 }, { srOk := true, v := [(3, 0x3F912345#32)] }, by decide +kernel⟩

theorem test_meets_ConversionsAndPacking_9 : ∃ (s : State) (d : Die) (u : Fin 32) (w : TwillWord) (x : UnitSt), (s.midProgram d u = true) ∧ (w.ctl ≠ 7) ∧ (s.unit (d * 32 + u) = x) ∧ (qWidth (w.imm.toNat % 16) = true) ∧ (w.ty = 0) ∧ (s.inAttempt (s.unitTask d u) = true) :=
  ⟨{ (Tests.up.setUnit 0 { slot := some 3, ibuf := [0x4100000000000004, 0] }).setTask 3 (some { isStep := true }) with stp := { Tests.up.stp with isOpen := true } }, 0, 0, { imm := 4 }, { slot := some 3, ibuf := [0x4100000000000004, 0] }, by decide +kernel⟩

theorem test_meets_ConversionsAndPacking_10 : ∃ (b : Nat) (r : Rnd) (n : Bool) (m : Nat) (e ex : Int), (1 ≤ b) :=
  ⟨4, .rne, false, 1, 0, 0, by decide +kernel⟩

theorem test_meets_ConversionsAndPacking_11 : ∃ (s : State) (d : Die) (u : Fin 32) (w : TwillWord) (x : UnitSt), (s.unit (d * 32 + u) = x) ∧ (qWidth (w.imm.toNat % 16) = false ∨ w.ty ≠ 0) :=
  ⟨Tests.up, 0, 0, { imm := 5 }, {}, by decide +kernel⟩

theorem test_meets_ConversionsAndPacking_12 : ∃ (s : State) (d : Die) (u : Fin 32) (w : TwillWord) (x : UnitSt), (s.midProgram d u = true) ∧ (w.ctl ≠ 7) ∧ (s.unit (d * 32 + u) = x) ∧ (qWidth (w.imm.toNat % 16) = true) ∧ (w.ty = 2) :=
  ⟨Tests.up, 0, 0, { ty := 2, imm := 4, d := 2 }, {}, by decide +kernel⟩

theorem test_meets_ConversionsAndPacking_13 : ∃ (b k : Nat) (x : UnitSt) (w : TwillWord), (((List.range 32).map (fun i => 32 * k + i)).any (fun e => x.active w e && decide (x.elem w w.s1.val e = 0x80000000)) = true) :=
  ⟨4, 0, { v := [(0, 0x80000000#32)] }, { ty := 2 }, by decide +kernel⟩

theorem test_meets_ConversionsAndPacking_14 : ∃ (s : State) (d : Die) (u : Fin 32) (w : TwillWord) (x : UnitSt), (s.unit (d * 32 + u) = x) ∧ (qWidth (w.imm.toNat % 16) = false) :=
  ⟨Tests.up, 0, 0, { imm := 5 }, {}, by decide +kernel⟩

theorem test_meets_ConversionsAndPacking_15 : ∃ (s : State) (d : Die) (u : Fin 32) (w : TwillWord) (x : UnitSt), (s.midProgram d u = true) ∧ (w.ctl ≠ 7) ∧ (s.unit (d * 32 + u) = x) ∧ (w.ty = 2) ∧ (((s.fmtOf (s.unitTask d u)).find (w.imm.toNat % 2 ^ 24)).isSome = true) :=
  ⟨{ Tests.up with fmt := { Tests.up.fmt with view := { Tests.up.fmt.view with table := [{ tensor := 5 }] } } }, 0, 0, { ty := 2, imm := 5 }, {}, by decide +kernel⟩

theorem test_meets_ConversionsAndPacking_16 : ∃ (s : State) (d : Die) (u : Fin 32) (w : TwillWord) (x : UnitSt), (s.midProgram d u = true) ∧ (w.ctl ≠ 7) ∧ (s.unit (d * 32 + u) = x) ∧ (w.ty = 0) ∧ (((s.fmtOf (s.unitTask d u)).find (w.imm.toNat % 2 ^ 24)).isSome = true) ∧ (s.inAttempt (s.unitTask d u) = true) :=
  ⟨{ (Tests.up.setUnit 0 { slot := some 3, ibuf := [0x4400000000000005, 0] }).setTask 3 (some { isStep := true }) with stp := { Tests.up.stp with isOpen := true }, fmt := { Tests.up.fmt with view := { Tests.up.fmt.view with table := [{ tensor := 5 }] } } }, 0, 0, { imm := 5 }, { slot := some 3, ibuf := [0x4400000000000005, 0] }, by decide +kernel⟩

theorem test_meets_ConversionsAndPacking_17 : ∃ (s : State) (d : Die) (u : Fin 32) (w : TwillWord) (x : UnitSt), (s.midProgram d u = true) ∧ (w.ctl ≠ 7) ∧ (s.unit (d * 32 + u) = x) ∧ (w.ty = 0) ∧ (((s.fmtOf (s.unitTask d u)).find (w.imm.toNat % 2 ^ 24)).isSome = true) ∧ (s.inAttempt (s.unitTask d u) = false) :=
  ⟨{ Tests.up with fmt := { Tests.up.fmt with view := { Tests.up.fmt.view with table := [{ tensor := 5 }] } } }, 0, 0, { imm := 5 }, {}, by decide +kernel⟩

/-! ### LoadsStoresBarriers -/

theorem test_meets_LoadsStoresBarriers_1 : ∃ (s : State) (d : Die) (u : Fin 32) (w : TwillWord) (x : UnitSt) (ex : Bool) (a size : Nat), (s.midProgram d u = true) ∧ (w.ctl ≠ 7) ∧ (s.unit (d * 32 + u) = x) ∧ (TwillWord.memOp w x = (0, ex, a, size)) ∧ (memBeyond x w 0 a size = false) :=
  ⟨Tests.up, 0, 0, {}, {}, false, 0, 2 ^ 18, by decide +kernel⟩

theorem test_meets_LoadsStoresBarriers_2 : ∃ (s : State) (d : Die) (u : Fin 32) (w : TwillWord) (x : UnitSt) (c : Nat) (ex : Bool) (a size : Nat), (s.midProgram d u = true) ∧ (w.ctl ≠ 7) ∧ (s.unit (d * 32 + u) = x) ∧ (TwillWord.memOp w x = (c, ex, a, size)) ∧ (0 < c) ∧ (a + c ≤ size) :=
  ⟨Tests.up, 0, 0, { imm := 0x05000000 }, {}, 5, false, 0, 2 ^ 18, by decide +kernel⟩

theorem test_meets_LoadsStoresBarriers_3 : ∃ (s : State) (d : Die) (u : Fin 32) (w : TwillWord) (x : UnitSt) (c : Nat) (ex : Bool) (a size : Nat), (s.midProgram d u = true) ∧ (w.ctl ≠ 7) ∧ (s.unit (d * 32 + u) = x) ∧ (TwillWord.memOp w x = (c, ex, a, size)) ∧ (memBeyond x w c a size = true) :=
  ⟨Tests.up, 0, 0, { imm := 0x0503FFFF }, {}, 5, false, 0x3FFFF, 2 ^ 18, by decide +kernel⟩

theorem test_meets_LoadsStoresBarriers_4 : ∃ (s : State) (d : Die) (u : Fin 32) (w : TwillWord) (x : UnitSt) (c : Nat) (ex : Bool) (a size : Nat), (s.midProgram d u = true) ∧ (w.ctl ≠ 7) ∧ (s.unit (d * 32 + u) = x) ∧ (TwillWord.memOp w x = (c, ex, a, size)) ∧ (0 < c) ∧ (a + c ≤ size) :=
  ⟨Tests.up, 0, 0, { imm := 0x05000000 }, {}, 5, false, 0, 2 ^ 18, by decide +kernel⟩

theorem test_meets_LoadsStoresBarriers_5 : ∃ (s : State) (d : Die) (u : Fin 32) (w : TwillWord) (x : UnitSt) (ex : Bool) (a size : Nat), (s.midProgram d u = true) ∧ (w.ctl ≠ 7) ∧ (s.unit (d * 32 + u) = x) ∧ (TwillWord.memOp w x = (0, ex, a, size)) ∧ (memBeyond x w 0 a size = false) :=
  ⟨Tests.up, 0, 0, {}, {}, false, 0, 2 ^ 18, by decide +kernel⟩

theorem test_meets_LoadsStoresBarriers_6 : ∃ (s : State) (d : Die) (u : Fin 32) (w : TwillWord) (x : UnitSt), (w.ctl ≠ 7) ∧ (s.unit (d * 32 + u) = x) :=
  ⟨Tests.up, 0, 0, { imm := 9 }, {}, by decide +kernel⟩

theorem test_meets_LoadsStoresBarriers_7 : ∃ (s : State) (d : Die) (slot : Fin 4096) (n : Fin 256) (us : List Nat), ((List.range 32).filter (fun u => decide ((s.unit (d * 32 + u)).slot = some slot.val)) = us) ∧ (us ≠ []) ∧ (∀ u ∈ us, (s.unit (d * 32 + u)).reached n = true) ∧ (∀ u ∈ us, s.midProgram d u = true) :=
  ⟨(Tests.up.setUnit 2 { slot := some 3, bar := some 9, ibuf := [0, 0] }).setUnit 4 { slot := some 3, past := [9], ibuf := [0, 0] }, 0, 3, 9, [2, 4], by decide +kernel⟩

theorem test_meets_LoadsStoresBarriers_8 : ∃ (s : State) (d : Die) (slot : Fin 4096) (n : Fin 256) (u : Nat), (u < 32) ∧ ((s.unit (d * 32 + u)).slot = some slot.val) ∧ ((s.unit (d * 32 + u)).reached n = false) :=
  ⟨Tests.up.setUnit 2 { slot := some 3 }, 0, 3, 9, 2, by decide +kernel⟩

theorem test_meets_LoadsStoresBarriers_9 : ∃ (s : State) (d : Die) (u : Fin 32) (x : UnitSt) (n : Nat), (s.midProgram d u = true) ∧ (s.unit (d * 32 + u) = x) ∧ (x.bar = some n) :=
  ⟨Tests.up.setUnit 0 { bar := some 9 }, 0, 0, { bar := some 9 }, 9, by decide +kernel⟩

theorem test_meets_LoadsStoresBarriers_10 : ∃ (s : State) (d : Die) (u : Fin 32), ((s.unit (d * 32 + u)).bar = none) :=
  ⟨Tests.up, 0, 0, by decide +kernel⟩

/-! ### ReductionsAndPermutations -/

theorem test_meets_ReductionsAndPermutations_1 : ∃ (s : State) (d : Die) (u : Fin 32) (w : TwillWord) (x : UnitSt), (s.midProgram d u = true) ∧ (w.ctl ≠ 7) ∧ (s.unit (d * 32 + u) = x) :=
  ⟨Tests.up, 0, 0, {}, {}, by decide +kernel⟩

theorem test_meets_ReductionsAndPermutations_2 : ∃ (w : TwillWord) (x : UnitSt), (w.isFloat = false) :=
  ⟨{ ty := 2 }, {}, by decide +kernel⟩

theorem test_meets_ReductionsAndPermutations_3 : ∃ (w : TwillWord) (x : UnitSt) (e0 : Nat), (w.isFloat = false) ∧ (e0 ∈ x.actives w) :=
  ⟨{ ty := 2 }, {}, 0, by decide +kernel⟩

theorem test_meets_ReductionsAndPermutations_4 : ∃ (w : TwillWord) (x : UnitSt), (x.actives w = []) :=
  ⟨{}, { vl := 0 }, by decide +kernel⟩

theorem test_meets_ReductionsAndPermutations_5 : ∃ (s : State) (d : Die) (u : Fin 32) (w : TwillWord) (x : UnitSt), (s.midProgram d u = true) ∧ (w.ctl ≠ 7) ∧ (s.unit (d * 32 + u) = x) :=
  ⟨Tests.up, 0, 0, {}, {}, by decide +kernel⟩

/-! ### MatrixDescriptors -/

theorem test_meets_MatrixDescriptors_1 : ∃ (s : State) (d : Die) (c : Fin 128) (r : DescRun), (s.coreBusy d c = false) ∧ (s.coreOn d c = true) ∧ (s.regB (R.MXE_CTRL d) 0 = true) ∧ ((s.cluster (clusKey d c)).find? (fun r => decide (r.next < r.desc.tiles) || (s.runFault d r).isSome) = some r) ∧ (s.runFault d r = none) :=
  ⟨Tests.mxe, 0, 0, { desc := Tests.desc, slot := 3 }, by decide +kernel⟩

theorem test_meets_MatrixDescriptors_2 : ∃ (s : State) (d : Die) (c : Fin 128) (r : DescRun), (s.runOf (clusKey d c) r.slot = some r) :=
  ⟨Tests.mxe, 0, 0, { desc := Tests.desc, slot := 3 }, by decide +kernel⟩

theorem test_meets_MatrixDescriptors_3 : ∃ (s : State) (d : Die) (c : Fin 128) (r : DescRun), (s.coreBusy d c = true) ∧ ((s.core (d * 128 + c)).slot.bind (s.runOf (clusKey d c)) = some r) :=
  ⟨Tests.atWork Tests.desc, 0, 0, { desc := Tests.desc, slot := 3, next := 1 }, by decide +kernel⟩

theorem test_meets_MatrixDescriptors_4 : ∃ (s : State) (d : Die) (c : Fin 128), (s.coreBusy d c = false) ∧ (s.coreOn d c = false ∨ s.regB (R.MXE_CTRL d) 0 = false) :=
  ⟨Tests.up, 0, 0, by decide +kernel⟩

theorem test_meets_MatrixDescriptors_5 : ∃ (s : State) (d : Die) (c : Fin 128) (r : DescRun) (cause : Nat), (s.coreBusy d c = false) ∧ (s.coreOn d c = true) ∧ (s.regB (R.MXE_CTRL d) 0 = true) ∧ ((s.cluster (clusKey d c)).find? (fun r => decide (r.next < r.desc.tiles) || (s.runFault d r).isSome) = some r) ∧ (s.runFault d r = some cause) :=
  ⟨Tests.mxe.setCluster 0 [{ desc := { mode := 5 }, slot := 3 }], 0, 0, { desc := { mode := 5 }, slot := 3 }, 1, by decide +kernel⟩

/-! ### MatrixOutputAndCancel -/

theorem test_meets_MatrixOutputAndCancel_1 : ∃ (s : State) (d : Die) (c : Fin 128) (sl t : Nat) (rest : List Nat) (r : DescRun), ((s.core (d * 128 + c)).slot = some sl) ∧ ((s.core (d * 128 + c)).tiles = t :: rest) ∧ (s.runOf (clusKey d c) sl = some r) ∧ (r.desc.mode < 3) :=
  ⟨Tests.atWork Tests.desc, 0, 0, 3, 0, [], { desc := Tests.desc, slot := 3, next := 1 }, by decide +kernel⟩

theorem test_meets_MatrixOutputAndCancel_2 : ∃ (s : State) (d : Die) (c : Fin 128) (sl t : Nat) (rest : List Nat) (r : DescRun), ((s.core (d * 128 + c)).slot = some sl) ∧ ((s.core (d * 128 + c)).tiles = t :: rest) ∧ (s.runOf (clusKey d c) sl = some r) ∧ (r.desc.mode ≠ 4) ∧ (t ∉ rest) :=
  ⟨Tests.atWork Tests.desc, 0, 0, 3, 0, [], { desc := Tests.desc, slot := 3, next := 1 }, by decide +kernel⟩

theorem test_meets_MatrixOutputAndCancel_3 : ∃ (s : State) (d : Die) (c : Fin 128) (sl : Nat) (r : DescRun), ((s.core (d * 128 + c)).slot = some sl) ∧ (s.runOf (clusKey d c) sl = some r) ∧ (r.desc.mode = 4) :=
  ⟨Tests.atWork { Tests.desc with mode := 4 }, 0, 0, 3, { desc := { Tests.desc with mode := 4 }, slot := 3, next := 1 }, by decide +kernel⟩

theorem test_meets_MatrixOutputAndCancel_4 : ∃ (s : State) (d : Die) (c : Fin 128), ((s.core (d * 128 + c)).slot = none ∨ (s.core (d * 128 + c)).tiles = []) :=
  ⟨Tests.up, 0, 0, by decide +kernel⟩

theorem test_meets_MatrixOutputAndCancel_5 : ∃ (s : State) (d : Nat) (task : Option TaskEnt) (x : Desc) (t : Nat), (x.fo = 0) ∧ (x.tout = false) ∧ (x.dual = false) ∧ (x.out + x.m * x.n * 4 ≤ hbmSize) ∧ (t < x.tiles) ∧ (0 < x.m ∧ 0 < x.n) :=
  ⟨Tests.mxe, 0, none, Tests.desc, 0, by decide +kernel⟩

theorem test_meets_MatrixOutputAndCancel_7 : ∃ (s : State) (d : Die) (c : Fin 128) (n : Nat), ((s.core (d * 128 + c)).slot.isSome = true) ∧ ((s.core (d * 128 + c)).slots ≤ (s.core (d * 128 + c)).tiles.length) :=
  ⟨Tests.mxe.setCore 0 { slot := some 3, slots := 1, tiles := [0] }, 0, 0, 2000, by decide +kernel⟩

theorem test_meets_MatrixOutputAndCancel_8 : ∃ (s : State) (d : Die) (c : Fin 128) (n : Nat), ((s.core (d * 128 + c)).slot = none) :=
  ⟨Tests.mxe, 0, 0, 2000, by decide +kernel⟩

theorem test_meets_MatrixOutputAndCancel_9 : ∃ (s : State) (d : Die) (slot : Fin 4096) (t : TaskEnt), (s.task (d * 4096 + slot) = some t) ∧ (t.kind = 1) ∧ (t.isStep = true) ∧ (t.discard = true) ∧ (t.prog = .running) :=
  ⟨(Tests.atWork Tests.desc).setTask 3 (some { kind := 1, isStep := true, discard := true, prog := .running }), 0, 3, { kind := 1, isStep := true, discard := true, prog := .running }, by decide +kernel⟩

theorem test_meets_MatrixOutputAndCancel_10 : ∃ (s : State) (d : Die) (slot : Fin 4096), (s.task (d * 4096 + slot) = none) :=
  ⟨Tests.up, 0, 3, by decide +kernel⟩

/-! ### GradientSlices -/

theorem test_meets_GradientSlices_1 : ∃ (s w : State) (d : Die) (q : ConvTurn) (c t i : Nat) (r : DescRun) (e : StateEnt) (b : BucketEnt), (w = s.slicesReady d q.cl q.ready) ∧ (w.conv (d * 8 + q.cl) = none) ∧ (w.sliceCore d q.cl = some (c, r, t)) ∧ (w.upd.entryOf d r.desc.grad (r.desc.out % 2 ^ 32) = some (i, e)) ∧ (w.red.entryOf r.desc.grad e.first = some b) ∧ (w.released d r.slot = false) :=
  ⟨Tests.slice, _, 0, { ready := [[0]] }, 0, 0, 0, { desc := { mode := 4, grad := 9, fa := 1, fb := 1 }, slot := 3, next := 1 }, { grad := 9, rows := 32, cols := 32 }, { tensor := 9, channel := 0, count := 1 }, by exact ⟨rfl, by decide +kernel⟩⟩

theorem test_meets_GradientSlices_2 : ∃ (s w : State) (d : Die) (q : ConvTurn) (v : ConvSlice), (w = s.slicesReady d q.cl q.ready) ∧ (w.conv (d * 8 + q.cl) = some v) :=
  ⟨Tests.offered, _, 0, {}, { slot := 3, grad := 9 }, by exact ⟨rfl, by decide +kernel⟩⟩

theorem test_meets_GradientSlices_3 : ∃ (s w : State) (d : Die) (q : ConvTurn), (w = s.slicesReady d q.cl q.ready) ∧ (w.sliceCore d q.cl = none) :=
  ⟨Tests.up, _, 0, {}, by exact ⟨rfl, by decide +kernel⟩⟩

theorem test_meets_GradientSlices_5 : ∃ (s : State) (d cl a b : Nat), (a < b) ∧ (b < 16) ∧ (d < 2) ∧ (cl < 8) ∧ ((s.coreSlice d (16 * cl + a)).isSome = true) ∧ ((s.coreSlice d (16 * cl + b)).isSome = true) ∧ (s.mxe.ready.count (d * 128 + (16 * cl + a)) < (s.core (d * 128 + (16 * cl + a))).tiles.length) ∧ (s.mxe.ready.count (d * 128 + (16 * cl + b)) < (s.core (d * 128 + (16 * cl + b))).tiles.length) :=
  ⟨Tests.slice.setCore 5 { slot := some 3, tiles := [0] }, 0, 0, 0, 5, by decide +kernel⟩

theorem test_meets_GradientSlices_6 : ∃ (s : State) (d cl c : Nat) (rest : List Nat), (s.mxe.ready = (d * 128 + (16 * cl + c)) :: rest) ∧ (c < 16) ∧ (cl < 8) ∧ ((s.coreSlice d (16 * cl + c)).isSome = true) :=
  ⟨{ Tests.slice with mxe := { Tests.slice.mxe with ready := [0] } }, 0, 0, 0, [], by decide +kernel⟩

theorem test_meets_GradientSlices_7 : ∃ (s : State) (d : Die) (cl : Fin 8) (n : Nat), (s.conv (d * 8 + cl) = none) :=
  ⟨Tests.up, 0, 0, 5, by decide +kernel⟩

theorem test_meets_GradientSlices_8 : ∃ (s : State) (d : Die) (cl : Fin 8) (n i : Nat) (v : ConvSlice) (e : StateEnt) (b : BucketEnt), (s.conv (d * 8 + cl) = some v) ∧ (s.upd.entryOf d v.grad v.row = some (i, e)) ∧ (s.red.entryOf v.grad e.first = some b) ∧ (s.released d v.slot = false) ∧ (s.chanOn v.chan = true) ∧ (s.sliceHold v.chan (b.first + s.sliceNo b v.row v.col / 4) = (false, false)) :=
  ⟨Tests.offered, 0, 0, 5, 0, { slot := 3, grad := 9 }, { grad := 9, rows := 32, cols := 32 }, { tensor := 9, channel := 0, count := 1 }, by decide +kernel⟩

theorem test_meets_GradientSlices_9 : ∃ (s : State) (d : Die) (cl : Fin 8) (n i : Nat) (v : ConvSlice) (e : StateEnt) (b : BucketEnt), (s.conv (d * 8 + cl) = some v) ∧ (s.upd.entryOf d v.grad v.row = some (i, e)) ∧ (s.red.entryOf v.grad e.first = some b) ∧ (s.released d v.slot = false) ∧ (s.chanOn v.chan = false ∨ (s.sliceHold v.chan (b.first + s.sliceNo b v.row v.col / 4)).1 = true ∨ (s.sliceHold v.chan (b.first + s.sliceNo b v.row v.col / 4)).2 = true) :=
  ⟨Tests.offered.setReg R.RED_CTRL 0#32, 0, 0, 5, 0, { slot := 3, grad := 9 }, { grad := 9, rows := 32, cols := 32 }, { tensor := 9, channel := 0, count := 1 }, by decide +kernel⟩

theorem test_meets_GradientSlices_10 : ∃ (s : State) (d : Die) (cl : Fin 8) (n i : Nat) (v : ConvSlice) (e : StateEnt) (b : BucketEnt), (s.conv (d * 8 + cl) = some v) ∧ (s.upd.entryOf d v.grad v.row = some (i, e)) ∧ (s.red.entryOf v.grad e.first = some b) ∧ (s.released d v.slot = true) :=
  ⟨Tests.offered.setTask 3 (some { discard := true }), 0, 0, 5, 0, { slot := 3, grad := 9 }, { grad := 9, rows := 32, cols := 32 }, { tensor := 9, channel := 0, count := 1 }, by decide +kernel⟩

theorem test_meets_GradientSlices_11 : ∃ (s w : State) (d : Die) (q : ConvTurn) (c t : Nat) (r : DescRun), (w = s.slicesReady d q.cl q.ready) ∧ (w.conv (d * 8 + q.cl) = none) ∧ (w.sliceCore d q.cl = some (c, r, t)) ∧ (w.released d r.slot = true) :=
  ⟨Tests.slice.setTask 3 (some { discard := true }), _, 0, { ready := [[0]] }, 0, 0, { desc := { mode := 4, grad := 9, fa := 1, fb := 1 }, slot := 3, next := 1 }, by exact ⟨rfl, by decide +kernel⟩⟩

/-! ### UpdateBlocks -/

theorem test_meets_UpdateBlocks_1 : ∃ (s : State) (d : Die) (c : Nat) (b : BucketEnt) (x : BucketSt), (s.accepting d = true) ∧ (s.offering d = some (c, b, x)) ∧ (x.taken + 1 ≠ s.bucketLen b x.seq) :=
  ⟨Tests.delivered, 0, 0, { tensor := 9, channel := 0, count := 1 }, { delivering := true, ownDone := true }, by decide +kernel⟩

theorem test_meets_UpdateBlocks_2 : ∃ (s : State) (d : Die) (c : Nat) (b : BucketEnt) (x : BucketSt), (s.accepting d = true) ∧ (s.offering d = some (c, b, x)) ∧ (x.taken + 1 = s.bucketLen b x.seq) :=
  ⟨Tests.delivered.setChan 0 { flight := [{ delivering := true, ownDone := true, taken := 15 }] }, 0, 0, { tensor := 9, channel := 0, count := 1 }, { delivering := true, ownDone := true, taken := 15 }, by decide +kernel⟩

theorem test_meets_UpdateBlocks_3 : ∃ (s : State) (d : Die), (s.accepting d = false ∨ s.offering d = none) :=
  ⟨Tests.up, 0, by decide +kernel⟩

theorem test_meets_UpdateBlocks_4 : ∃ (s : State) (d : Die) (x : BlkIn) (rest : List BlkIn) (e : StateEnt), ((s.oldReader || (s.updD d).proj.isSome || !(s.updD d).projWait.isEmpty) = false) ∧ ((s.updD d).inbuf = x :: rest) ∧ (s.upd.table[x.ent]? = some e) :=
  ⟨Tests.plan.setUpd 0 { inbuf := [{}] }, 0, {}, [], { grad := 9, rows := 32, cols := 32 }, by decide +kernel⟩

theorem test_meets_UpdateBlocks_5 : ∃ (s : State) (d : Die), ((s.oldReader || (s.updD d).proj.isSome || !(s.updD d).projWait.isEmpty) = true ∨ (s.updD d).inbuf = []) :=
  ⟨Tests.up, 0, by decide +kernel⟩

theorem test_meets_UpdateBlocks_6 : ∃ (s : State) (e : StateEnt) (k : StepConst) (g w m v r : Word), (e.decay = false) :=
  ⟨Tests.up, { alg := 2 }, {}, 0, 0, 0, 0, 0, by decide +kernel⟩

theorem test_meets_UpdateBlocks_7 : ∃ (s : State) (d base : Nat) (e : StateEnt) (x : BlkIn) (l : List (Nat × ElemRes × Word)), (d < 2) ∧ (s.nfPolicy ≠ 1) ∧ (s.nfPolicy ≠ 2) :=
  ⟨Tests.up, 0, 0, {}, {}, [], by decide +kernel⟩

theorem test_meets_UpdateBlocks_8 : ∃ (s : State) (d : Die), (s.stp.isOpen = true) ∧ ([4 * d.val, 4 * d.val + 1, 4 * d.val + 2, 4 * d.val + 3].all (fun c => decide (s.chanPlan c ≤ (s.chan c).deliverPt)) = true) ∧ ((s.updD d).inbuf = []) :=
  ⟨Tests.soloRun, 0, by decide +kernel⟩

theorem test_meets_UpdateBlocks_9 : ∃ (s : State) (d : Die), (s.stp.isOpen = false ∨ (s.updD d).inbuf ≠ []) :=
  ⟨Tests.up, 0, by decide +kernel⟩

/-! ### ProjectionAndSchedule -/

theorem test_meets_ProjectionAndSchedule_1 : ∃ (s : State) (rq : Requester), (s.quiet = false) :=
  ⟨{ Tests.up with stp := { Tests.up.stp with phase := .update } }, .host, by decide +kernel⟩

theorem test_meets_ProjectionAndSchedule_2 : ∃ (s : State) (rq : Requester), (s.quiet = true) ∧ (s.regB R.UPD_CTRL 0 = true) ∧ ((s.updD 0).proj = none) ∧ ((s.updD 1).proj = none) ∧ ((s.updD 0).projWait = []) ∧ ((s.updD 1).projWait = []) :=
  ⟨Tests.up.setReg R.UPD_CTRL 1#32, .host, by decide +kernel⟩

theorem test_meets_ProjectionAndSchedule_3 : ∃ (s : State) (d : Die) (r : ProjRun) (rest : List ProjRun), (s.regB R.UPD_CTRL 0 = true) ∧ ((s.updD d).proj = none) ∧ ((s.updD d).projWait = r :: rest) :=
  ⟨(Tests.up.setReg R.UPD_CTRL 1#32).setUpd 0 { projWait := [{}] }, 0, {}, [], by decide +kernel⟩

theorem test_meets_ProjectionAndSchedule_4 : ∃ (s : State) (d : Die), (s.regB R.UPD_CTRL 0 = false ∨ (s.updD d).proj.isSome = true ∨ (s.updD d).projWait = []) :=
  ⟨Tests.up, 0, by decide +kernel⟩

theorem test_meets_ProjectionAndSchedule_5 : ∃ (s : State) (r : ProjRun), (r.thr = none) :=
  ⟨Tests.up, {}, by decide +kernel⟩

theorem test_meets_ProjectionAndSchedule_6 : ∃ (s : State) (d : Die) (run : ProjRun), ((s.updD d).proj = some run) :=
  ⟨Tests.up.setUpd 0 { proj := some { step := 4 } }, 0, { step := 4 }, by decide +kernel⟩

theorem test_meets_ProjectionAndSchedule_7 : ∃ (s : State) (d : Die), ((s.updD d).proj = none) :=
  ⟨Tests.up, 0, by decide +kernel⟩

theorem test_meets_ProjectionAndSchedule_8 : ∃ (thr : Option Word) (w sc : Word) (old : Int) (n : Bool) (m : Nat) (e : Int), (f32Finite w = true) ∧ (f32 (f32Div w sc) = .fin n m e) ∧ (-15 ≤ old ∧ old ≤ 15) :=
  ⟨none, 0x3F800000, 0x3F800000, 3, false, 8388608, -23, by decide +kernel⟩

theorem test_meets_ProjectionAndSchedule_9 : ∃ (thr : Option Word) (w sc : Word) (old : Int), (f32Finite w = false) :=
  ⟨none, 0x7FC00000, 0x3F800000, 3, by decide +kernel⟩

theorem test_meets_ProjectionAndSchedule_10 : ∃ (s : State) (rq : Requester) (v : Word), (s.schedIdx < 4096) :=
  ⟨Tests.up, .host, 5, by decide +kernel⟩

theorem test_meets_ProjectionAndSchedule_11 : ∃ (s : State) (rq : Requester) (v : Word), (s.fnHost 8 = true) :=
  ⟨Tests.up.setReg R.DUTY_SPLIT_USED 0x80#32, .host, 5, by decide +kernel⟩

theorem test_meets_ProjectionAndSchedule_12 : ∃ (s : State) (rq : Requester) (v : Word), (s.fnHost 8 = false) :=
  ⟨Tests.up, .host, 5, by decide +kernel⟩

/-! ### RingMessages -/

theorem test_meets_RingMessages_1 : ∃ (s u : State) (c : Fin 8) (m : RingMsg), (s.takeRx 2 (fun f => f.startsWith (msgBytes m)) = u) ∧ (u.chanOn c = false ∨ u.groupN ≤ 1) :=
  ⟨Tests.up, Tests.up, 0, Tests.msg, by decide +kernel⟩

theorem test_meets_RingMessages_2 : ∃ (s u : State) (c : Fin 8) (m : RingMsg), (s.takeRx 2 (fun f => f.startsWith (msgBytes m)) = u) ∧ (u.chanOn c = true) ∧ (1 < u.groupN) ∧ (m.epoch < u.epoch) :=
  ⟨Tests.ring.setReg R.RED_EPOCH 3#32, Tests.ring.setReg R.RED_EPOCH 3#32, 0, Tests.msg, by decide +kernel⟩

theorem test_meets_RingMessages_3 : ∃ (s u : State) (c : Fin 8) (m : RingMsg), (s.takeRx 2 (fun f => f.startsWith (msgBytes m)) = u) ∧ (u.chanOn c = true) ∧ (1 < u.groupN) ∧ (u.epoch < m.epoch ∨ (m.epoch = u.epoch ∧ (m.step ≠ u.stepNum ∨ m.attempt ≠ u.attNum))) :=
  ⟨Tests.ring, Tests.ring, 0, { Tests.msg with step := 2 }, by decide +kernel⟩

theorem test_meets_RingMessages_4 : ∃ (s u : State) (c : Fin 8) (m : RingMsg), (s.takeRx 2 (fun f => f.startsWith (msgBytes m)) = u) ∧ (u.chanOn c = true) ∧ (1 < u.groupN) ∧ (m.epoch = u.epoch) ∧ (m.step = u.stepNum) ∧ (m.attempt = u.attNum) ∧ (u.msgOk c m = false) :=
  ⟨Tests.ring, Tests.ring, 0, { Tests.msg with crc := 5 }, by decide +kernel⟩

theorem test_meets_RingMessages_5 : ∃ (s u : State) (c : Fin 8) (m : RingMsg), (s.takeRx 2 (fun f => f.startsWith (msgBytes m)) = u) ∧ (u.chanOn c = true) ∧ (1 < u.groupN) ∧ (m.epoch = u.epoch) ∧ (m.step = u.stepNum) ∧ (m.attempt = u.attNum) ∧ (u.msgOk c m = true) ∧ (m.phase = 1) :=
  ⟨Tests.ring, Tests.ring, 0, Tests.msg, by decide +kernel⟩

theorem test_meets_RingMessages_6 : ∃ (s u : State) (c : Fin 8) (m : RingMsg), (s.takeRx 2 (fun f => f.startsWith (msgBytes m)) = u) ∧ (u.chanOn c = true) ∧ (1 < u.groupN) ∧ (m.epoch = u.epoch) ∧ (m.step = u.stepNum) ∧ (m.attempt = u.attNum) ∧ (u.msgOk c m = true) ∧ (m.phase = 2) :=
  ⟨Tests.ring, Tests.ring, 0, { Tests.msg with phase := 2, contrib := 2 }, by decide +kernel⟩

theorem test_meets_RingMessages_8 : ∃ (s : State) (c : Fin 8), ((s.chan c).hopReady = none) :=
  ⟨Tests.ring, 0, by decide +kernel⟩

theorem test_meets_RingMessages_9 : ∃ (s : State) (c : Fin 8) (x : BucketSt) (m : RingMsg) (b : BucketEnt) (own : List BlockRec), ((s.chan c).hopReady = some (x, m)) ∧ (s.red.bucketEnt c m.seq = some b) ∧ (chunkRecs s.groupN m.chunk (s.ownRecs b x) = own) ∧ (own.length ≠ m.recs.length ∨ (List.zip m.recs own).any (fun p => decide (p.1.scale ≠ p.2.scale)) = true) :=
  ⟨Tests.ring.setChan 0 { flight := [{ ownDone := true, waiting := [{ Tests.msg with recs := [{}] }] }] }, 0, { ownDone := true, waiting := [{ Tests.msg with recs := [{}] }] }, { Tests.msg with recs := [{}] }, { tensor := 9, channel := 0, count := 1 }, [], by decide +kernel⟩

theorem test_meets_RingMessages_10 : ∃ (s : State) (c : Fin 8) (x : BucketSt) (m : RingMsg) (b : BucketEnt) (own recs : List BlockRec), ((s.chan c).hopReady = some (x, m)) ∧ (s.red.bucketEnt c m.seq = some b) ∧ (chunkRecs s.groupN m.chunk (s.ownRecs b x) = own) ∧ (own.length = m.recs.length) ∧ ((List.zip m.recs own).any (fun p => decide (p.1.scale ≠ p.2.scale)) = false) ∧ ((List.zip m.recs own).map (fun p => addRec (s.wire32 b.tensor) p.1 p.2) = recs) :=
  ⟨Tests.ring.setChan 0 { flight := [{ ownDone := true, waiting := [Tests.msg] }] }, 0, { ownDone := true, waiting := [Tests.msg] }, Tests.msg, { tensor := 9, channel := 0, count := 1 }, [], [], by decide +kernel⟩

theorem test_meets_RingMessages_11 : ∃ (w : Bool) (x y : BlockRec) (i : Nat), (i < 1024) :=
  ⟨false, {}, {}, 1023, by decide +kernel⟩

/-! ### BucketsAndTimers -/

theorem test_meets_BucketsAndTimers_1 : ∃ (s : State) (c : Fin 8) (b : BucketEnt), (s.red.bucketEnt c (s.chan c).sendPt = some b) ∧ (((s.chan c).bucket (s.chan c).sendPt).ownDone = true) ∧ (s.chanOn c = true) ∧ (s.groupN ≤ 1) :=
  ⟨(Tests.plan.setReg R.RED_CTRL 0x101#32).setChan 0 { flight := [{ ownDone := true }] }, 0, { tensor := 9, channel := 0, count := 1 }, by decide +kernel⟩

theorem test_meets_BucketsAndTimers_2 : ∃ (s : State) (c : Fin 8) (b : BucketEnt), (s.red.bucketEnt c (s.chan c).sendPt = some b) ∧ (((s.chan c).bucket (s.chan c).sendPt).ownDone = true) ∧ (s.chanOn c = true) ∧ (1 < s.groupN) :=
  ⟨Tests.ring.setChan 0 { flight := [{ ownDone := true }] }, 0, { tensor := 9, channel := 0, count := 1 }, by decide +kernel⟩

theorem test_meets_BucketsAndTimers_3 : ∃ (s : State) (c : Fin 8), (s.red.bucketEnt c (s.chan c).sendPt = none ∨ ((s.chan c).bucket (s.chan c).sendPt).ownDone = false ∨ s.chanOn c = false) :=
  ⟨Tests.up, 0, by decide +kernel⟩

theorem test_meets_BucketsAndTimers_4 : ∃ (s : State) (c : Fin 8) (b : BucketEnt), (s.red.bucketEnt c (s.chan c).deliverPt = some b) ∧ (s.reduced b ((s.chan c).bucket (s.chan c).deliverPt) = true) ∧ (((s.chan c).bucket (s.chan c).deliverPt).delivering = false) ∧ ((s.chan c).deliverPt < (s.chan c).sendPt) :=
  ⟨Tests.plan.setChan 0 { sendPt := 1, flight := [{ ownDone := true }] }, 0, { tensor := 9, channel := 0, count := 1 }, by decide +kernel⟩

theorem test_meets_BucketsAndTimers_5 : ∃ (s : State) (c : Fin 8), (s.red.bucketEnt c (s.chan c).deliverPt = none ∨ ((s.chan c).bucket (s.chan c).deliverPt).delivering = true ∨ (s.chan c).sendPt ≤ (s.chan c).deliverPt) :=
  ⟨Tests.up, 0, by decide +kernel⟩

theorem test_meets_BucketsAndTimers_6 : ∃ (s : State) (c : Fin 8) (q : Nat), (((s.chan c).bucket q).opened.isSome = true) ∧ (((s.chan c).bucket q).ownDone = false) ∧ (1 < s.groupN) :=
  ⟨Tests.ring.setChan 0 { flight := [{ opened := some 0 }] }, 0, 0, by decide +kernel⟩

theorem test_meets_BucketsAndTimers_7 : ∃ (s : State) (c : Fin 8) (q : Nat), (((s.chan c).bucket q).opened = none ∨ ((s.chan c).bucket q).ownDone = true ∨ s.groupN ≤ 1) :=
  ⟨Tests.up, 0, 0, by decide +kernel⟩

theorem test_meets_BucketsAndTimers_8 : ∃ (s : State) (c : Fin 8) (q : Nat) (b : BucketEnt), (s.red.bucketEnt c q = some b) ∧ (((s.chan c).bucket q).ownDone = true) ∧ (s.reduced b ((s.chan c).bucket q) = false) ∧ (1 < s.groupN) :=
  ⟨Tests.ring.setChan 0 { flight := [{ ownDone := true }] }, 0, 0, { tensor := 9, channel := 0, count := 1 }, by decide +kernel⟩

theorem test_meets_BucketsAndTimers_9 : ∃ (s : State) (c : Fin 8) (q : Nat), (s.red.bucketEnt c q = none ∨ ((s.chan c).bucket q).ownDone = false ∨ s.groupN ≤ 1) :=
  ⟨Tests.up, 0, 0, by decide +kernel⟩

theorem test_meets_BucketsAndTimers_10 : ∃ (s : State) (rq : Requester) (v : Word), (s.quiet = true) :=
  ⟨Tests.up, .host, 1, by decide +kernel⟩

theorem test_meets_BucketsAndTimers_11 : ∃ (s : State) (rq : Requester) (v : Word), (s.quiet = false) ∧ (s.red.pos = 0 ∨ s.stp.voted = false ∨ s.stp.isOpen = false ∨ s.stp.queried = false) :=
  ⟨Tests.soloRun, .host, 1, by decide +kernel⟩

/-! ### GraphsAndLaunches -/

theorem test_meets_GraphsAndLaunches_1 : ∃ (s : State) (rq : Requester) (v : Word), (s.tsk.launchQ.length < 16) :=
  ⟨Tests.up, .host, 5, by decide +kernel⟩

theorem test_meets_GraphsAndLaunches_2 : ∃ (s : State) (rq : Requester) (v : Word), (16 ≤ s.tsk.launchQ.length) :=
  ⟨{ Tests.up with tsk := { Tests.up.tsk with launchQ := List.replicate 16 {} } }, .host, 5, by decide +kernel⟩

theorem test_meets_GraphsAndLaunches_3 : ∃ (s : State), (s.tsk.streamer.isSome = true ∨ s.tsk.launchQ = [] ∨ s.regB R.TSK_CTRL 2 = false ∨ s.orderPending = true ∨ s.tsk.flushing = true) :=
  ⟨Tests.up, by decide +kernel⟩

theorem test_meets_GraphsAndLaunches_4 : ∃ (s : State) (l : Launch) (rest : List Launch), (s.tsk.streamer = none) ∧ (s.tsk.launchQ = l :: rest) ∧ (s.regB R.TSK_CTRL 2 = true) ∧ (s.orderPending = false) ∧ (s.tsk.flushing = false) ∧ ((s.graphAt l.graph).filter (s.headerOk l.graph) = none) :=
  ⟨{ Tests.up.setReg R.TSK_CTRL 5#32 with tsk := { Tests.up.tsk with launchQ := [{}] } }, {}, [], by decide +kernel⟩

theorem test_meets_GraphsAndLaunches_5 : ∃ (s : State) (l : Launch) (rest : List Launch) (a : Nat), (s.tsk.streamer = none) ∧ (s.tsk.launchQ = l :: rest) ∧ (s.regB R.TSK_CTRL 2 = true) ∧ (s.orderPending = false) ∧ (s.tsk.flushing = false) ∧ ((s.graphAt l.graph).filter (s.headerOk l.graph) = some a) :=
  ⟨{ (Tests.up.setReg R.TSK_CTRL 5#32).hbmWrite 8 (leBytes 8 4096) with tsk := { Tests.up.tsk with launchQ := [{ graph := 1 }] }, mem := { Tests.up.mem with hbm := ((Tests.up.hbmWrite 8 (leBytes 8 4096)).hbmWrite 4096 ([1, 0, 0, 0, 1, 0, 0, 0] ++ List.replicate 8 0 ++ [0, 0x20])).mem.hbm } }, { graph := 1 }, [], 4096, by decide +kernel⟩

theorem test_meets_GraphsAndLaunches_6 : ∃ (s : State) (x : StreamerSt) (d sl : Nat) (e : TaskEnt), (s.tsk.streamer = some x) ∧ (x.next < x.count) ∧ (taskOf (s.hbm (x.base + 64 * x.next) 64) = (d, e)) ∧ (s.freeSlot d = some sl) :=
  ⟨{ Tests.up with tsk := { Tests.up.tsk with streamer := some { count := 1, base := 8192 } } }, { count := 1, base := 8192 }, 0, 0, (taskOf (Tests.up.hbm 8192 64)).2, by decide +kernel⟩

theorem test_meets_GraphsAndLaunches_7 : ∃ (s : State) (x : StreamerSt), (s.tsk.streamer = some x) :=
  ⟨{ Tests.up with tsk := { Tests.up.tsk with streamer := some { blocked := true } } }, { blocked := true }, by decide +kernel⟩

theorem test_meets_GraphsAndLaunches_8 : ∃ (s : State), (s.tsk.streamer = none) :=
  ⟨Tests.up, by decide +kernel⟩

theorem test_meets_GraphsAndLaunches_9 : ∃ (s : State) (rq : Requester), (s.quiet = true ∨ s.phaseNow = .serving) :=
  ⟨Tests.up, .host, by decide +kernel⟩

theorem test_meets_GraphsAndLaunches_10 : ∃ (s : State) (rq : Requester), (s.quiet = false) ∧ (s.phaseNow ≠ .serving) :=
  ⟨Tests.soloRun, .host, by decide +kernel⟩

/-! ### TasksAndCounters -/

theorem test_meets_TasksAndCounters_1 : ∃ (s : State) (d : Die) (kind : Fin 16) (sl : Nat) (t : TaskEnt), (s.regB R.TSK_CTRL 0 = true) ∧ (s.nextTask d kind = some (sl, t)) :=
  ⟨Tests.tasked {}, 0, 0, 3, {}, by decide +kernel⟩

theorem test_meets_TasksAndCounters_2 : ∃ (s : State) (d slot : Nat) (t : TaskEnt), (t.malformed = true) :=
  ⟨Tests.up, 0, 3, { malformed := true }, by decide +kernel⟩

theorem test_meets_TasksAndCounters_3 : ∃ (s : State) (d : Die) (kind : Fin 16) (sl : Nat) (t : TaskEnt), (s.regB R.TSK_CTRL 0 = true) ∧ (s.nextTask d kind = some (sl, t)) ∧ (t.kind = 0) :=
  ⟨Tests.tasked {}, 0, 0, 3, {}, by decide +kernel⟩

theorem test_meets_TasksAndCounters_4 : ∃ (s : State) (d : Die) (kind : Fin 16), (s.regB R.TSK_CTRL 0 = false ∨ s.nextTask d kind = none) :=
  ⟨Tests.up, 0, 0, by decide +kernel⟩

theorem test_meets_TasksAndCounters_5 : ∃ (s : State) (d kind sl : Nat) (t : TaskEnt), (s.nextTask d kind = some (sl, t)) :=
  ⟨Tests.tasked {}, 0, 0, 3, {}, by decide +kernel⟩

theorem test_meets_TasksAndCounters_6 : ∃ (s : State) (d : Die) (slot : Fin 4096) (t : TaskEnt), (s.task (d * 4096 + slot) = some t) ∧ (s.taskOver t = some false) ∧ (t.discard = true ∨ t.signals = []) :=
  ⟨Tests.tasked { prog := .done false }, 0, 3, { prog := .done false }, by decide +kernel⟩

theorem test_meets_TasksAndCounters_7 : ∃ (s : State) (d : Die) (slot : Fin 4096) (t : TaskEnt), (s.task (d * 4096 + slot) = some t) ∧ (s.taskOver t = some false) ∧ (t.discard = false) :=
  ⟨Tests.up.setTask 3 (some { prog := .done false, signals := [{ counter := 5, value := 1 }] }), 0, 3, { prog := .done false, signals := [{ counter := 5, value := 1 }] }, by decide +kernel⟩

theorem test_meets_TasksAndCounters_8 : ∃ (s : State) (d : Die) (slot : Fin 4096), (s.task (d * 4096 + slot) = none ∨ ∃ t, s.task (d * 4096 + slot) = some t ∧ s.taskOver t = none) :=
  ⟨Tests.up, 0, 3, by exact Or.inl rfl⟩

theorem test_meets_TasksAndCounters_9 : ∃ (s : State) (g : Signal) (rest : List Signal), (s.tsk.remote = g :: rest) :=
  ⟨{ Tests.up with tsk := { Tests.up.tsk with remote := [{}] } }, {}, [], by decide +kernel⟩

theorem test_meets_TasksAndCounters_10 : ∃ (s : State), (s.tsk.remote = []) :=
  ⟨Tests.up, by decide +kernel⟩

theorem test_meets_TasksAndCounters_11 : ∃ (s : State) (rq : Requester) (v : Word), (s.counter s.selCounter + fld v 15 0 < 2 ^ 32) :=
  ⟨Tests.up, .host, 5, by decide +kernel⟩

theorem test_meets_TasksAndCounters_12 : ∃ (s : State) (rq : Requester) (v : Word), (2 ^ 32 ≤ s.counter s.selCounter + fld v 15 0) :=
  ⟨Tests.up.setCounter 0 0xFFFFFFFF, .host, 5, by decide +kernel⟩

theorem test_meets_TasksAndCounters_13 : ∃ (s : State) (d : Die) (sl : Nat) (t : TaskEnt), (s.regF R.TSK_DL_CFG 15 0 ≠ 0) ∧ (s.dieStalled d = true) ∧ (s.oldestWaiting d = some (sl, t)) :=
  ⟨(Tests.tasked { waits := [{ threshold := 5 }] }).setReg R.TSK_DL_CFG 9#32, 0, 3, { waits := [{ threshold := 5 }] }, by decide +kernel⟩

theorem test_meets_TasksAndCounters_14 : ∃ (s : State) (d : Die), (s.regF R.TSK_DL_CFG 15 0 = 0 ∨ s.dieStalled d = false) :=
  ⟨Tests.up, 0, by decide +kernel⟩

theorem test_meets_TasksAndCounters_17 : ∃ (s : State), (s.orderPending = true) ∧ (s.tsk.launchQ ≠ []) :=
  ⟨Tests.up.setReg R.DUTY_SPLIT 1#32 |>.modTsk (fun t => { t with launchQ := [{}] }), by decide +kernel⟩

theorem test_meets_TasksAndCounters_18 : ∃ (s : State), (s.orderPending = false ∨ s.tsk.launchQ = []) :=
  ⟨Tests.up, by decide +kernel⟩

theorem test_meets_TasksAndCounters_19 : ∃ (s : State), (s.olderToken s.tsk.dutyView = true) :=
  ⟨{ Tests.tokened with tsk := { Tests.up.tsk with dutyView := 4 } }, by decide +kernel⟩

theorem test_meets_TasksAndCounters_20 : ∃ (s : State) (h : Nat), ((s.ctx h).inTok = false ∨ s.tokenWork h = true) :=
  ⟨Tests.up, 2, by decide +kernel⟩

theorem test_meets_TasksAndCounters_21 : ∃ (s : State) (h : Nat), ((s.ctx h).inTok = true) ∧ (s.tokenWork h = false) :=
  ⟨Tests.tokened, 2, by decide +kernel⟩

/-! ### DmaTransfers -/

theorem test_meets_DmaTransfers_1 : ∃ (s : State) (d : Die) (e : Fin 16) (data : List Byte) (err : Bool) (key value : Nat), (s.dmaTask d e = none) :=
  ⟨Tests.up, 0, 0, [], false, 0, 0, by decide +kernel⟩

theorem test_meets_DmaTransfers_2 : ∃ (s : State) (d : Die) (e : Fin 16) (slot : Nat) (p : DmaPay) (data : List Byte) (err : Bool) (key value c : Nat), (s.dmaTask d e = some (slot, p)) ∧ (p.fault = some c) :=
  ⟨Tests.dmaWith [7], 0, 0, 3, dmaOf [7], [], false, 0, 0, 1, by decide +kernel⟩

theorem test_meets_DmaTransfers_3 : ∃ (s : State) (d : Die) (e : Fin 16) (slot : Nat) (p : DmaPay) (c : Nat) (t : TaskEnt), (s.task (d * 4096 + slot) = some t) ∧ (c < 16) :=
  ⟨Tests.dmaWith [7], 0, 0, 3, {}, 1, { payAddr := 8192 }, by decide +kernel⟩

theorem test_meets_DmaTransfers_4 : ∃ (s : State) (d : Die) (e : Fin 16) (slot : Nat) (p : DmaPay), (s.dmaTask d e = some (slot, p)) ∧ (p.fault = none) ∧ (p.op = 0) ∧ (p.rowsInHbm p.len = false ∨ inHbm p.dst (p.outLen (p.len * p.rows)) = false) :=
  ⟨Tests.dmaWith [0, 0, 0, 0, 4, 0, 0, 0, 0, 0, 0, 0, 0, 0, 0, 1], 0, 0, 3, dmaOf [0, 0, 0, 0, 4, 0, 0, 0, 0, 0, 0, 0, 0, 0, 0, 1], by decide +kernel⟩

theorem test_meets_DmaTransfers_5 : ∃ (s : State) (d : Die) (e : Fin 16) (slot : Nat) (p : DmaPay) (u : State) (bs w : List Byte), (s.dmaTask d e = some (slot, p)) ∧ (p.fault = none) ∧ (p.op = 0) ∧ (p.rowsInHbm p.len = true) ∧ (inHbm p.dst (p.outLen (p.len * p.rows)) = true) ∧ (s.readRows d p p.len = (bs, u, false)) ∧ (p.checked bs = (w, false)) :=
  ⟨Tests.dmaWith [0, 0, 0, 0, 4, 0, 0, 0, 0, 0, 0, 0, 0, 0, 0, 0, 0, 1], 0, 0, 3, dmaOf [0, 0, 0, 0, 4, 0, 0, 0, 0, 0, 0, 0, 0, 0, 0, 0, 0, 1], Tests.dmaWith [0, 0, 0, 0, 4, 0, 0, 0, 0, 0, 0, 0, 0, 0, 0, 0, 0, 1], [0, 0, 0, 0], [0, 0, 0, 0], by decide +kernel⟩

theorem test_meets_DmaTransfers_6 : ∃ (s : State) (d : Die) (e : Fin 16) (slot : Nat) (p : DmaPay) (u : State) (bs w : List Byte), (s.dmaTask d e = some (slot, p)) ∧ (p.fault = none) ∧ (p.op = 0) ∧ (p.rowsInHbm p.len = true) ∧ (inHbm p.dst (p.outLen (p.len * p.rows)) = true) ∧ (s.readRows d p p.len = (bs, u, false)) ∧ (p.checked bs = (w, true)) :=
  ⟨Tests.dmaWith (16 :: [0, 0, 0, 0, 5, 0, 0, 0, 0, 0, 0, 0, 0, 0, 0, 0, 0, 1].drop 1), 0, 0, 3, dmaOf (16 :: [0, 0, 0, 0, 5, 0, 0, 0, 0, 0, 0, 0, 0, 0, 0, 0, 0, 1].drop 1), Tests.dmaWith (16 :: [0, 0, 0, 0, 5, 0, 0, 0, 0, 0, 0, 0, 0, 0, 0, 0, 0, 1].drop 1), [0, 0, 0, 0, 0], [0], by decide +kernel⟩

theorem test_meets_DmaTransfers_7 : ∃ (p q : DmaPay) (bs : List Byte), (p.append = true) ∧ (p.strip = false) ∧ (q.append = false) ∧ (q.strip = true) :=
  ⟨{ append := true }, { strip := true }, [], by decide +kernel⟩

theorem test_meets_DmaTransfers_8 : ∃ (s : State) (d : Die) (e : Fin 16) (slot : Nat) (p : DmaPay) (u : State) (bs w : List Byte) (bad : Bool), (s.dmaTask d e = some (slot, p)) ∧ (p.fault = none) ∧ (p.op = 2) ∧ (inHbm p.src p.len = true) ∧ (s.spillOk d p.dst (p.outLen p.len) = true) ∧ (s.hif.linkUp = true) ∧ (s.hbmRead p.src p.len = (bs, u, false)) ∧ (p.checked bs = (w, bad)) :=
  ⟨Tests.spill [2, 0, 0, 0, 4, 0, 0, 0, 0, 0, 0, 0, 0, 0, 0, 0, 0, 0x20], 0, 0, 3, dmaOf [2, 0, 0, 0, 4, 0, 0, 0, 0, 0, 0, 0, 0, 0, 0, 0, 0, 0x20], Tests.spill [2, 0, 0, 0, 4, 0, 0, 0, 0, 0, 0, 0, 0, 0, 0, 0, 0, 0x20], [0, 0, 0, 0], [0, 0, 0, 0], false, by decide +kernel⟩

theorem test_meets_DmaTransfers_9 : ∃ (s : State) (d : Die) (e : Fin 16) (slot : Nat) (p : DmaPay) (data w : List Byte) (bad : Bool), (s.dmaTask d e = some (slot, p)) ∧ (p.fault = none) ∧ (p.op = 3) ∧ (s.spillOk d p.src p.len = true) ∧ (inHbm p.dst (p.outLen p.len) = true) ∧ (s.hif.linkUp = true) ∧ (p.checked (sliceB data 0 p.len) = (w, bad)) :=
  ⟨Tests.spill [3, 0, 0, 0, 4, 0, 0, 0, 0, 0x20, 0, 0, 0, 0, 0, 0, 0, 1], 0, 0, 3, dmaOf [3, 0, 0, 0, 4, 0, 0, 0, 0, 0x20, 0, 0, 0, 0, 0, 0, 0, 1], [1, 2, 3, 4], [1, 2, 3, 4], false, by decide +kernel⟩

theorem test_meets_DmaTransfers_10 : ∃ (s : State) (d : Die) (e : Fin 16) (slot : Nat) (p : DmaPay) (u : State) (l : List Nat), (s.dmaTask d e = some (slot, p)) ∧ (p.fault = none) ∧ (p.op = 1) ∧ (p.silt = true ∨ p.rowsInHbm 256 = true) ∧ (s.streamLines d p = l) ∧ (l ≠ []) ∧ (s.taskRead d slot (s.streamReads p) = u) ∧ (u.regB R.MEM_CTRL 1 = true) :=
  ⟨(Tests.dmaWith [1]).setReg R.MEM_CTRL 3#32, 0, 0, 3, dmaOf [1], (Tests.dmaWith [1]).setReg R.MEM_CTRL 3#32, [0], by decide +kernel⟩

theorem test_meets_DmaTransfers_11 : ∃ (s : State) (d : Die) (e : Fin 16) (slot : Nat) (p : DmaPay) (u : State), (s.dmaTask d e = some (slot, p)) ∧ (p.fault = none) ∧ (p.op = 1) ∧ (p.silt = true ∨ p.rowsInHbm 256 = true) ∧ (s.taskRead d slot (s.streamReads p) = u) ∧ (s.streamLines d p = [] ∨ u.regB R.MEM_CTRL 1 = false) :=
  ⟨(Tests.dmaWith [1]).setReg R.MEM_CTRL 0#32, 0, 0, 3, dmaOf [1], (Tests.dmaWith [1]).setReg R.MEM_CTRL 0#32, by decide +kernel⟩

theorem test_meets_DmaTransfers_12 : ∃ (s : State) (d : Die) (p : Fin 64), (SMap.get (fun _ => none) s.mem.pf (d * 64 + p) = none) :=
  ⟨Tests.up, 0, 0, by decide +kernel⟩

theorem test_meets_DmaTransfers_13 : ∃ (s : State) (d : Die) (p : Fin 64) (x : StreamSt) (slot : Nat), (SMap.get (fun _ => none) s.mem.pf (d * 64 + p) = some x) ∧ (x.slot = some slot) ∧ (s.regB R.MEM_CTRL 1 = true) ∧ (x.fetched < x.lines.length) ∧ (x.lead = 0 ∨ (x.fetched + 1 - x.unread) * 256 ≤ x.lead) ∧ (s.pfHeld d < s.pfRoom d) :=
  ⟨{ (Tests.up.setReg R.MEM_CTRL 3#32).setReg (R.MEM_CACHE_CFG 0) 8#32 with mem := { Tests.up.mem with pf := [(0, some { lines := [4, 5], slot := some 3 })] } }, 0, 0, { lines := [4, 5], slot := some 3 }, 3, by decide +kernel⟩

theorem test_meets_DmaTransfers_14 : ∃ (s : State) (d slot : Nat) (l : List (Nat × Nat)) (t : TaskEnt), ((l.flatMap (fun r => s.mem.badIn r.1 r.2)) ≠ []) ∧ (s.task (d * 4096 + slot) = some t) :=
  ⟨(Tests.up.setTask 3 (some {})).modMem (fun m => { m with bad := [1] }), 0, 3, [(0, 64)], {}, by decide +kernel⟩

/-! ### SiltStore -/

theorem test_meets_SiltStore_1 : ∃ (s : State) (rq : Requester) (d : Die) (v : Word), (s.mem.handles = []) :=
  ⟨Tests.up, .host, 0, 5, by decide +kernel⟩

theorem test_meets_SiltStore_2 : ∃ (s : State) (rq : Requester) (d : Die) (v : Word), (s.mem.handles ≠ []) :=
  ⟨{ Tests.up with mem := { Tests.up.mem with handles := [1] } }, .host, 0, 5, by decide +kernel⟩

theorem test_meets_SiltStore_3 : ∃ (x : SiltFree), (x.fresh < x.slots) :=
  ⟨{ slots := 8 }, by decide +kernel⟩

theorem test_meets_SiltStore_4 : ∃ (x : SiltFree), (x.slots ≤ x.fresh) :=
  ⟨{ back := [3] }, by decide +kernel⟩

theorem test_meets_SiltStore_5 : ∃ (s : State) (row i : Nat) (x : SiltFree), ((s.silt (row % 2)).take = none) ∧ ((s.silt (1 - row % 2)).take = some (i, x)) :=
  ⟨Tests.silt [], 1, 0, { slots := 8, fresh := 1 }, by decide +kernel⟩

theorem test_meets_SiltStore_6 : ∃ (s : State) (rq : Requester) (h a n : Nat), (s.handleState (h % 65536) = 0) ∧ (s.handleAddr (h % 65536) = a) ∧ (4 * s.mem.layers * max 1 (min 16384 (s.reg R.MEM_SILT_ARG).toNat) = n) ∧ (a + 12 ≤ s.handleDir (h % 65536) ∨ s.handleDir (h % 65536) + n ≤ a) ∧ (a + 12 ≤ hbmSize) :=
  ⟨Tests.silt [], .host, 2, 4160, 4, by decide +kernel⟩

theorem test_meets_SiltStore_7 : ∃ (s : State) (rq : Requester) (h : Nat), (s.handleState (h % 65536) ≠ 0) :=
  ⟨Tests.silt [], .host, 1, by decide +kernel⟩

theorem test_meets_SiltStore_8 : ∃ (s : State) (rq : Requester) (h : Nat), (s.handleState (h % 65536) ≠ 1) :=
  ⟨Tests.silt [], .host, 2, by decide +kernel⟩

theorem test_meets_SiltStore_9 : ∃ (s : State) (rq : Requester) (h : Nat), (s.handleState (h % 65536) = 1) ∧ ((s.ctx (h % 65536)).inTok = false) :=
  ⟨Tests.silt [], .host, 1, by decide +kernel⟩

theorem test_meets_SiltStore_10 : ∃ (s : State) (rq : Requester) (h : Nat), (s.handleState (h % 65536) = 1) ∧ ((s.ctx (h % 65536)).inTok = true) :=
  ⟨(Tests.silt []).setCtx 1 { inTok := true }, .host, 1, by decide +kernel⟩

theorem test_meets_SiltStore_11 : ∃ (s : State) (h : Nat), ((s.ctx h).inTok = true) ∧ (s.tokenWork h = false) :=
  ⟨Tests.tokened, 2, by decide +kernel⟩

theorem test_meets_SiltStore_14 : ∃ (s : State) (h n : Nat), (s.handleTokens h ≤ n) :=
  ⟨Tests.silt [], 1, 5, by decide +kernel⟩

theorem test_meets_SiltStore_15 : ∃ (s : State) (q : Fin 64), (s.nextOp q 0x21 = none) :=
  ⟨Tests.up, 0, by decide +kernel⟩

theorem test_meets_SiltStore_16 : ∃ (s : State) (d : Die) (e : Fin 16) (slot : Nat) (p : DmaPay) (key value : Nat) (u : State), (s.dmaTask d e = some (slot, p)) ∧ (p.fault = none) ∧ (p.op = 4) ∧ (inHbm p.src 8192 = true) ∧ (s.taskRead d slot [(s.handleAddr p.handle, 32), (s.pageAddr p.handle (p.first / 64) p.layer, 4)] = u) ∧ (u.handleState p.handle ≠ 1) :=
  ⟨Tests.silt ([4] ++ List.replicate 31 0 ++ [2]), 0, 0, 3, dmaOf ([4] ++ List.replicate 31 0 ++ [2]), 0, 0, Tests.silt ([4] ++ List.replicate 31 0 ++ [2]), by decide +kernel⟩

theorem test_meets_SiltStore_17 : ∃ (s : State) (d : Die) (e : Fin 16) (slot : Nat) (p : DmaPay) (key value n a o : Nat) (q u v : State) (bs r : List Byte), (s.dmaTask d e = some (slot, p)) ∧ (p.fault = none) ∧ (p.op = 4) ∧ (inHbm p.src 8192 = true) ∧ (s.taskRead d slot [(s.handleAddr p.handle, 32), (s.pageAddr p.handle (p.first / 64) p.layer, 4)] = q) ∧ (q.pageFor p.handle (p.first / 64) p.layer (p.first % 64) = .inr (n, u)) ∧ (u.hbmRead p.src 8192 = (bs, v, false)) ∧ (u.slotAddr (pageDie n) (pageSlot n) = a) ∧ (a + 64 + 1200 * (p.first % 64) = o) ∧ (siltRecord (siltBlocks (u.viewOf p.handle) key value ((chunks 4 bs).map (fun b => FF.fp32.decode (ofLe b)))) = r) ∧ (a + 64 ≤ hbmSize) :=
  ⟨Tests.siltPage, 0, 0, 3, dmaOf Tests.put, 0, 0, 0x80000000, 0x100000, 0x100040, Tests.siltPage, Tests.siltPage, Tests.siltPage, Tests.siltPage.hbm 0 8192, siltRecord (siltBlocks (Tests.siltPage.viewOf 1) 0 0 ((chunks 4 (Tests.siltPage.hbm 0 8192)).map (fun b => FF.fp32.decode (ofLe b)))), by 
  exact ⟨by decide +kernel, by decide +kernel, by decide +kernel, by decide +kernel, by decide +kernel, by decide +kernel, rfl, by decide +kernel, by decide +kernel, rfl, by decide +kernel⟩⟩

/-! ### FlitRoundTrip -/

theorem test_meets_FlitRoundTrip_1 : ∃ (typ stream src dst seq ack nak credit nakSeq pid : Nat) (first last : Bool) (pay bs : List Byte), (typ < 16) ∧ (stream < 8 ∧ (typ = 2 ∨ stream = 0)) ∧ (src < 64) ∧ (dst < 256) ∧ (seq < 2 ^ 16) ∧ (ack < 2 ^ 16) ∧ (nak < 256) ∧ (credit < 256) ∧ (nakSeq < 2 ^ 16) ∧ (pid < 2 ^ 16) ∧ (pay.length ≤ 236) ∧ (flitBytes typ stream src dst seq ack nak credit nakSeq pid first last pay = bs) :=
  ⟨2, 7, 63, 255, 65535, 65535, 255, 255, 65535, 65535, true, true, [1, 2], _, by exact ⟨by decide, by decide, by decide, by decide, by decide, by decide, by decide, by decide, by decide, by decide, by decide, rfl⟩⟩

/-! ### FlitsAndAcknowledgements -/

theorem test_meets_FlitsAndAcknowledgements_1 : ∃ (s : State) (l : LinkId) (bs : List Byte), ((s.lnk l).st ≠ .up) :=
  ⟨Tests.up, 0, [], by decide +kernel⟩

theorem test_meets_FlitsAndAcknowledgements_2 : ∃ (s : State) (l : LinkId) (bs : List Byte), ((s.lnk l).st = .up) ∧ (crc32c (sliceB bs 0 252) ≠ leAt bs 252 4) :=
  ⟨(Tests.up.setLnk 0 { st := .up, peer := 1 }), 0, [1], by decide +kernel⟩

theorem test_meets_FlitsAndAcknowledgements_3 : ∃ (s : State) (l : LinkId) (bs : List Byte) (h : FlitHdr) (u : State), ((s.lnk l).st = .up) ∧ (crc32c (sliceB bs 0 252) = leAt bs 252 4) ∧ (parseFlit bs = h) ∧ (s.flitNews l h = u) :=
  ⟨(Tests.up.setLnk 0 { st := .up, peer := 1 }), 0, flitBytes 3 0 1 255 0 65535 0 0 0 0 true true [2], _, _, by exact ⟨by decide +kernel, by decide +kernel, rfl, rfl⟩⟩

theorem test_meets_FlitsAndAcknowledgements_4 : ∃ (s u : State) (l : LinkId) (h : FlitHdr) (pay : List Byte), (s.flitFault l h = none) ∧ (badRelayOp h pay = false) ∧ ((s.lnk l).parts = []) ∧ (h.last = true) ∧ (frameBad h.typ pay = false) ∧ (h.dst = 0xFF ∨ h.dst = s.me) ∧ (s.flitAccept l h pay = u) :=
  ⟨Tests.up.setLnk 0 { st := .up, peer := 1, rxCred := classBuffer }, _, 0, parseFlit (flitBytes 3 0 1 255 0 65535 0 0 0 0 true true [2]), [2], by exact ⟨by decide +kernel, by decide +kernel, by decide +kernel, by decide +kernel, by decide +kernel, by decide +kernel, rfl⟩⟩

theorem test_meets_FlitsAndAcknowledgements_7 : ∃ (s : State) (l : LinkId), ((s.lnk l).st = .up) :=
  ⟨(Tests.up.setLnk 0 { st := .up, peer := 1 }), 0, by decide +kernel⟩

theorem test_meets_FlitsAndAcknowledgements_8 : ∃ (s : State) (l : LinkId), ((s.lnk l).freed = [0, 0, 0, 0]) :=
  ⟨(Tests.up.setLnk 0 { st := .up, peer := 1 }), 0, by decide +kernel⟩

theorem test_meets_FlitsAndAcknowledgements_9 : ∃ (s : State) (l : LinkId), ((s.lnk l).st ≠ .up) :=
  ⟨Tests.up, 0, by decide +kernel⟩

theorem test_meets_FlitsAndAcknowledgements_10 : ∃ (s : State) (l : LinkId) (r q : Nat), ((s.lnk l).st = .up) ∧ ((s.lnk l).nakOut = some (r, q)) :=
  ⟨Tests.up.setLnk 0 { st := .up, peer := 1, nakOut := some (1, 5) }, 0, 1, 5, by decide +kernel⟩

theorem test_meets_FlitsAndAcknowledgements_11 : ∃ (s : State) (l : LinkId), ((s.lnk l).st = .up) ∧ ((s.lnk l).nakOut = none) :=
  ⟨(Tests.up.setLnk 0 { st := .up, peer := 1 }), 0, by decide +kernel⟩

/-! ### LinksTrainAndFall -/

theorem test_meets_LinksTrainAndFall_1 : ∃ (s : State) (l : LinkId) (rq : Requester), ((s.lnk l).st = .up) :=
  ⟨(Tests.up.setLnk 0 { st := .up, peer := 1 }), 0, .host, by decide +kernel⟩

theorem test_meets_LinksTrainAndFall_2 : ∃ (s : State) (l : LinkId), ((s.lnk l).st ≠ .up) :=
  ⟨Tests.up, 0, by decide +kernel⟩

theorem test_meets_LinksTrainAndFall_3 : ∃ (s : State) (rq : Requester) (l : Nat), (18 ≤ l ∨ (s.lnk l).st ≠ .up) :=
  ⟨Tests.up, .host, 0, by decide +kernel⟩

theorem test_meets_LinksTrainAndFall_4 : ∃ (s : State) (l : LinkId), ((s.lnk l).st = .up) ∧ (max 1 (s.regF R.EZL_THRESH 31 24) ≤ s.recent 1000000 (s.lnk l).nakTimes) :=
  ⟨(Tests.up.setReg R.EZL_THRESH 0#32).setLnk 0 { st := .up, peer := 1, nakTimes := [0] }, 0, by decide +kernel⟩

theorem test_meets_LinksTrainAndFall_5 : ∃ (s : State) (l : LinkId), ((s.lnk l).st = .up ∨ (s.lnk l).st = .retrain) ∧ (max 1 (s.regF R.EZL_THRESH 23 16) ≤ s.recent 1000000000 (s.lnk l).retrainTimes ∨ max 1 (s.regF R.EZL_THRESH 15 0) ≤ s.recent 1000000000 (s.lnk l).protoTimes ∨ ∃ f ∈ (s.lnk l).replay, 64 ≤ f.replays) :=
  ⟨(Tests.up.setReg R.EZL_THRESH 0#32).setLnk 0 { st := .up, peer := 1, retrainTimes := [0] }, 0, by decide +kernel⟩

theorem test_meets_LinksTrainAndFall_6 : ∃ (s : State) (l : LinkId), ((s.lnk l).st ≠ .up) ∧ ((s.lnk l).st ≠ .retrain) :=
  ⟨Tests.up, 0, by decide +kernel⟩

theorem test_meets_LinksTrainAndFall_7 : ∃ (s : State) (l : LinkId) (ack : Nat), ((s.lnk l).st = .retrain) :=
  ⟨(Tests.up.setLnk 0 { st := .retrain, attempts := 2 }), 0, 0, by decide +kernel⟩

theorem test_meets_LinksTrainAndFall_8 : ∃ (s : State) (l : LinkId) (ack : Nat), ((s.lnk l).st = .retrain) :=
  ⟨(Tests.up.setLnk 0 { st := .retrain, attempts := 2 }), 0, 0, by decide +kernel⟩

theorem test_meets_LinksTrainAndFall_9 : ∃ (s : State) (l : LinkId) (ok : Bool) (ack : Nat) (r : TrainResult), ((s.lnk l).st = .down) :=
  ⟨Tests.up, 0, true, 0, .failed, by decide +kernel⟩

theorem test_meets_LinksTrainAndFall_10 : ∃ (s : State) (l : LinkId) (m pl : Nat), ((s.lnk l).st = .training) ∧ (s.img.stage < 12) ∧ (portPartner s.ezl.pod.size s.me (l % 6) = some m) ∧ (linkPartner l = pl) :=
  ⟨({ Tests.up with ezl := { Tests.up.ezl with pod := { Tests.up.ezl.pod with size := 1 } } } : State).setLnk 0 { st := .training }, 0, 1, 1, by decide +kernel⟩

theorem test_meets_LinksTrainAndFall_11 : ∃ (s : State) (l : LinkId) (pid m pl : Nat), ((s.lnk l).st = .training) ∧ (s.img.stage < 12) ∧ (pid ≠ s.ezl.pod.id ∨ portPartner s.ezl.pod.size s.me (l % 6) ≠ some m ∨ pl ≠ linkPartner l) :=
  ⟨Tests.up.setLnk 0 { st := .training }, 0, 99, 1, 5, by decide +kernel⟩

theorem test_meets_LinksTrainAndFall_11a : ∃ (s : State) (l : LinkId) (pid m pl : Nat), ((s.lnk l).st = .training) ∧ (s.img.stage < 12) ∧ (pid ≠ s.ezl.pod.id ∨ portPartner s.ezl.pod.size s.me (l % 6) ≠ some m ∨ pl ≠ linkPartner l) :=
  ⟨({ Tests.up with ezl := { Tests.up.ezl with pod := { Tests.up.ezl.pod with size := 1 } } } : State).setLnk 0 { st := .training }, 0, Tests.up.ezl.pod.id, 1, 5, by decide +kernel⟩

theorem test_meets_LinksTrainAndFall_12 : ∃ (s : State) (l : LinkId), ((s.lnk l).st = .training) ∧ (s.img.stage < 12) :=
  ⟨Tests.up.setLnk 0 { st := .training }, 0, by decide +kernel⟩

theorem test_meets_LinksTrainAndFall_13 : ∃ (s : State) (l : LinkId) (rq : Requester), ((s.lnk l).st ≠ .unused) :=
  ⟨(Tests.up.setLnk 0 { st := .up, peer := 1 }), 0, .host, by decide +kernel⟩

theorem test_meets_LinksTrainAndFall_14 : ∃ (s : State) (l : LinkId), ((s.lnk l).st = .removed ∨ (s.lnk l).st = .unused) :=
  ⟨Tests.up.setLnk 0 { st := .removed }, 0, by decide +kernel⟩

theorem test_meets_LinksTrainAndFall_15 : ∃ (s : State) (rq : Requester) (l : Nat), (18 ≤ l) :=
  ⟨Tests.up, .host, 18, by decide +kernel⟩

theorem test_meets_LinksTrainAndFall_16 : ∃ (s : State) (l : LinkId) (rq : Requester) (r : TrainResult), (12 ≤ s.img.stage) :=
  ⟨{ State.reset with img := { State.reset.img with stage := 13 } }, 0, .host, .failed, by decide +kernel⟩

theorem test_meets_LinksTrainAndFall_18 : ∃ (s u : State) (src l j : Nat), (s.takeRx 3 (fun f => f.src == src && f.startsWith (ctrlBytes 5 { pos := l })) = u) ∧ ((List.range 18).find? (fun j => decide (portPartner u.ezl.pod.size u.me (j % 6) = some src) && decide (linkPartner j = l) && decide ((u.lnk j).st ≠ .removed) && decide ((u.lnk j).st ≠ .unused)) = some j) :=
  ⟨({ Tests.up with ezl := { Tests.up.ezl with pod := { Tests.up.ezl.pod with size := 1 } } } : State).setLnk 0 { st := .training }, ({ Tests.up with ezl := { Tests.up.ezl with pod := { Tests.up.ezl.pod with size := 1 } } } : State).setLnk 0 { st := .training }, 1, 1, 0, by decide +kernel⟩

theorem test_meets_LinksTrainAndFall_19 : ∃ (s u : State) (src l : Nat), (s.takeRx 3 (fun f => f.src == src && f.startsWith (ctrlBytes 5 { pos := l })) = u) ∧ ((List.range 18).find? (fun j => decide (portPartner u.ezl.pod.size u.me (j % 6) = some src) && decide (linkPartner j = l) && decide ((u.lnk j).st ≠ .removed) && decide ((u.lnk j).st ≠ .unused)) = none) :=
  ⟨Tests.up, Tests.up, 1, 0, by decide +kernel⟩

/-! ### PodTimeExchanges -/

theorem test_meets_PodTimeExchanges_2 : ∃ (s u : State) (l : LinkId) (t1 t2 t3 : Nat), (s.takeRx 6 (fun f => f.startsWith (timeBytes 1 t1)) = u) ∧ (u.regB R.EZL_CTRL 1 = true) ∧ (u.parentLink = some l.val) :=
  ⟨(({ Tests.up with ezl := { Tests.up.ezl with pod := { Tests.up.ezl.pod with size := 1, me := 1, master := 0 } } } : State).setLnk 0 { st := .up, peer := 0 }).setReg R.EZL_CTRL 2#32, (({ Tests.up with ezl := { Tests.up.ezl with pod := { Tests.up.ezl.pod with size := 1, me := 1, master := 0 } } } : State).setLnk 0 { st := .up, peer := 0 }).setReg R.EZL_CTRL 2#32, 0, 5, 6, 7, by decide +kernel⟩

theorem test_meets_PodTimeExchanges_4 : ∃ (s u : State) (l : LinkId) (t3 t4 : Nat), (s.takeRx 6 (fun f => f.startsWith (timeBytes 2 t3)) = u) :=
  ⟨({ Tests.up with ezl := { Tests.up.ezl with pod := { Tests.up.ezl.pod with size := 1, me := 1, master := 0 } } } : State).setLnk 0 { st := .up, peer := 0 }, ({ Tests.up with ezl := { Tests.up.ezl with pod := { Tests.up.ezl.pod with size := 1, me := 1, master := 0 } } } : State).setLnk 0 { st := .up, peer := 0 }, 0, 5, 6, by decide +kernel⟩

theorem test_meets_PodTimeExchanges_5 : ∃ (s u : State) (l : LinkId) (t1 t2 t3 t4 : Nat), (s.takeRx 6 (fun f => f.startsWith (timeBytes 3 t4)) = u) :=
  ⟨({ Tests.up with ezl := { Tests.up.ezl with pod := { Tests.up.ezl.pod with size := 1, me := 1, master := 0 } } } : State).setLnk 0 { st := .up, peer := 0 }, ({ Tests.up with ezl := { Tests.up.ezl with pod := { Tests.up.ezl.pod with size := 1, me := 1, master := 0 } } } : State).setLnk 0 { st := .up, peer := 0 }, 0, 5, 6, 7, 8, by decide +kernel⟩

theorem test_meets_PodTimeExchanges_6 : ∃ (s u : State) (l : LinkId) (t1 t2 t3 : Nat), (s.takeRx 6 (fun f => f.startsWith (timeBytes 1 t1)) = u) ∧ (u.exchangeOn l = false) :=
  ⟨Tests.up, Tests.up, 0, 5, 6, 7, by decide +kernel⟩

theorem test_meets_PodTimeExchanges_7 : ∃ (t u : TimeSt) (p : Nat) (off : Int), (t.correct p off = u) :=
  ⟨{}, _, 125, 5, by rfl⟩

theorem test_meets_PodTimeExchanges_8 : ∃ (t : TimeSt) (p : Nat) (off : Int), (off < -8000) :=
  ⟨{}, 125, -9000, by decide +kernel⟩

theorem test_meets_PodTimeExchanges_9 : ∃ (t : TimeSt), (t.rate = 0) ∧ (t.acc = 0) ∧ (t.left = 0) ∧ (t.lead = 0) :=
  ⟨{}, by decide +kernel⟩

theorem test_meets_PodTimeExchanges_10 : ∃ (s : State), (s.me ≠ s.ezl.pod.master) ∧ (s.parentLink = none) :=
  ⟨{ Tests.up with ezl := { Tests.up.ezl with pod := { Tests.up.ezl.pod with size := 1, me := 1, master := 0 } } }, by decide +kernel⟩

theorem test_meets_PodTimeExchanges_11 : ∃ (s : State), (s.me = s.ezl.pod.master ∨ s.parentLink ≠ none) :=
  ⟨Tests.up, by decide +kernel⟩

theorem test_meets_PodTimeExchanges_12 : ∃ (s u : State) (src low : Nat), (s.takeRx 3 (fun f => f.src == src && f.startsWith [6]) = u) ∧ (low ≠ u.ezl.pod.master) :=
  ⟨Tests.up, Tests.up, 0, 3, by decide +kernel⟩

theorem test_meets_PodTimeExchanges_13 : ∃ (s u : State) (src : Nat), (s.takeRx 3 (fun f => f.src == src && f.startsWith [6]) = u) :=
  ⟨Tests.up, Tests.up, 0, by decide +kernel⟩

theorem test_meets_PodTimeExchanges_14 : ∃ (s u : State) (l : LinkId) (f : TrigFrame), (s.takeRx 5 (fun x => x.startsWith (TrigFrame.bytes f)) = u) ∧ (SMap.get (fun _ => none) u.ezl.seen f.origin ≠ some f.num) :=
  ⟨Tests.up.setReg R.SNP_CTRL 1#32, Tests.up.setReg R.SNP_CTRL 1#32, 0, {}, by decide +kernel⟩

theorem test_meets_PodTimeExchanges_15 : ∃ (s u : State) (l : LinkId) (f : TrigFrame), (s.takeRx 5 (fun x => x.startsWith (TrigFrame.bytes f)) = u) ∧ (SMap.get (fun _ => none) u.ezl.seen f.origin = some f.num) :=
  ⟨{ Tests.up with ezl := { Tests.up.ezl with seen := [(2, some 7)] } }, { Tests.up with ezl := { Tests.up.ezl with seen := [(2, some 7)] } }, 0, { origin := 2, num := 7 }, by decide +kernel⟩

/-! ### RelayedTraffic -/

theorem test_meets_RelayedTraffic_1 : ∃ (s : State) (m win off len : Nat) (w : Option (List Byte)), (s.ready = true) ∧ (s.windowBad m len = true) :=
  ⟨Tests.up, 70, 0, 0, 4, none, by decide +kernel⟩

theorem test_meets_RelayedTraffic_2 : ∃ (s : State) (m win off len : Nat) (b : List Byte), (s.ready = true) ∧ (s.windowBad m len = false) :=
  ⟨Tests.headOf, 1, 0, 0, 4, [], by decide +kernel⟩

theorem test_meets_RelayedTraffic_3 : ∃ (s : State) (m win off len : Nat), (s.ready = true) ∧ (s.windowBad m len = false) ∧ (s.ezl.relayWait = []) ∧ (s.ezl.relayOut.length < 256) :=
  ⟨Tests.headOf, 1, 0, 0, 4, by decide +kernel⟩

theorem test_meets_RelayedTraffic_5 : ∃ (s : State) (m win off len : Nat) (w : Option (List Byte)), (s.ready = false) :=
  ⟨State.reset, 1, 0, 0, 4, none, by decide +kernel⟩

theorem test_meets_RelayedTraffic_6 : ∃ (s u : State) (src : Nat) (h : RelayHdr) (b : List Byte) (r : RelayRead), (s.takeRx 7 (fun f => f.src == src && f.startsWith (RelayHdr.bytes h)) = u) ∧ (u.ezl.relayOut.find? (fun r => decide (r.tag = h.tag) && decide (r.mem = src)) = some r) :=
  ⟨{ Tests.up with ezl := { Tests.up.ezl with relayOut := [{ mem := 1 }] } }, { Tests.up with ezl := { Tests.up.ezl with relayOut := [{ mem := 1 }] } }, 1, {}, [], { mem := 1 }, by decide +kernel⟩

theorem test_meets_RelayedTraffic_7 : ∃ (s u : State) (src : Nat) (h : RelayHdr) (b : List Byte), (s.takeRx 7 (fun f => f.src == src && f.startsWith (RelayHdr.bytes h)) = u) ∧ (u.ezl.relayOut.find? (fun r => decide (r.tag = h.tag) && decide (r.mem = src)) = none) :=
  ⟨Tests.up, Tests.up, 1, {}, [], by decide +kernel⟩

theorem test_meets_RelayedTraffic_8 : ∃ (s : State) (tag : Nat) (r : RelayRead), (s.ezl.relayOut.find? (fun r => decide (r.tag = tag)) = some r) :=
  ⟨{ Tests.up with ezl := { Tests.up.ezl with relayOut := [{ mem := 1 }] } }, 0, { mem := 1 }, by decide +kernel⟩

theorem test_meets_RelayedTraffic_9 : ∃ (s : State) (tag : Nat), (s.ezl.relayOut.find? (fun r => decide (r.tag = tag)) = none) :=
  ⟨Tests.up, 0, by decide +kernel⟩

theorem test_meets_RelayedTraffic_10 : ∃ (s u : State) (src : Nat) (h : RelayHdr) (b : List Byte), (s.takeRx 7 (fun f => f.src == src && f.startsWith (RelayHdr.bytes h)) = u) :=
  ⟨Tests.headOf, Tests.headOf, 1, {}, [], by decide +kernel⟩

theorem test_meets_RelayedTraffic_11 : ∃ (s u : State) (src a : Nat) (b : List Byte), (s.takeRx 1 (fun f => f.src == src && f.startsWith (leBytes 8 a ++ leBytes 4 b.length)) = u) ∧ (a + b.length ≤ hbmSize) ∧ (∀ x, s.protGiB true x = false) ∧ (s.img.cmd = none) ∧ ((s.updD 0).proj = none) ∧ ((s.updD 1).proj = none) :=
  ⟨Tests.up, Tests.up, 1, 64, [1, 2], by exact ⟨by decide +kernel, by decide +kernel, fun _ => rfl, by decide +kernel, by decide +kernel, by decide +kernel⟩⟩

theorem test_meets_RelayedTraffic_12 : ∃ (s u : State) (src a : Nat) (b : List Byte), (s.takeRx 1 (fun f => f.src == src && f.startsWith (leBytes 8 (a + 2 ^ 63) ++ leBytes 4 b.length)) = u) ∧ (a < 2 ^ 63) :=
  ⟨Tests.headOf, Tests.headOf, 1, 64, [1, 2], by decide +kernel⟩

theorem test_meets_RelayedTraffic_13 : ∃ (s u v : State) (src : Nat) (h : RelayHdr) (o : Option (List Byte)), (s.takeRx 7 (fun f => f.src == src && f.startsWith (RelayHdr.bytes h)) = u) ∧ (u.memberRead h.addr h.len = (o, v)) :=
  ⟨Tests.up, Tests.up, (Tests.up.memberRead 0 4).2, 1, {}, (Tests.up.memberRead 0 4).1, by decide +kernel⟩

theorem test_meets_RelayedTraffic_14 : ∃ (s : State) (a : Nat), (a < 2 ^ 63) ∧ (a % 4 = 0) :=
  ⟨Tests.up, 0, by decide +kernel⟩

theorem test_meets_RelayedTraffic_15 : ∃ (s u : State) (src : Nat) (h : RelayHdr) (b : List Byte), (s.takeRx 7 (fun f => f.src == src && f.startsWith (RelayHdr.bytes h)) = u) :=
  ⟨Tests.up, Tests.up, 1, {}, [], by decide +kernel⟩

/-! ### HostQueues -/

theorem test_meets_HostQueues_1 : ∃ (s : State) (q : Fin 64) (v : Nat), (s.ready = true) ∧ ((s.queue q).en = true) ∧ (v < (s.queue q).depth) :=
  ⟨Tests.hostQ 0 [], 0, 3, by decide +kernel⟩

theorem test_meets_HostQueues_2 : ∃ (s : State) (q : Fin 64) (v : Nat), (s.ready = true) ∧ ((s.queue q).en = true) ∧ (v < (s.queue q).depth) ∧ ((s.queue q).ready = []) ∧ ((s.queue q).fetched = []) :=
  ⟨((Tests.hostQ 0 []).setQueue 0 { (Tests.hostQ 0 []).queue 0 with fetched := [] }), 0, 3, by decide +kernel⟩

theorem test_meets_HostQueues_3 : ∃ (s : State) (q : Fin 64) (v : Nat), (s.ready = true) ∧ ((s.queue q).en = false ∨ (s.queue q).depth ≤ v) :=
  ⟨Tests.hostQ 0 [], 0, 4, by decide +kernel⟩

theorem test_meets_HostQueues_4 : ∃ (s : State) (q : Fin 64) (v : Nat), (s.ready = false) :=
  ⟨State.reset, 0, 4, by decide +kernel⟩

theorem test_meets_HostQueues_5 : ∃ (s : State) (q : Nat) (e : QEnt) (rest : List QEnt), ((s.queue q).ready = e :: rest) ∧ ((s.queue q).full = false) ∧ ((s.queue q).cqTail < (s.queue q).depth) ∧ (s.viaHead = false) :=
  ⟨(Tests.hostQ 0 []).setQueue 0 { (Tests.hostQ 0 []).queue 0 with ready := [{}], cqTail := 3, cqHead := 3 }, 0, {}, [], by decide +kernel⟩

theorem test_meets_HostQueues_6 : ∃ (s : State) (q : Fin 64) (i : Nat) (e : QEnt) (st : Nat), ((s.queue q).fetched[i]? = some e) ∧ ((s.queue q).ready = []) ∧ ((s.queue q).full = false) ∧ ((s.queue q).cqTail < (s.queue q).depth) ∧ (e.signals = false) ∧ (s.viaHead = false) ∧ (st ≠ 4) :=
  ⟨Tests.hostQ 0 [], 0, 0, { head := 1 }, 0, by decide +kernel⟩

theorem test_meets_HostQueues_7 : ∃ (s : State) (q : Fin 64) (i : Nat) (e : QEnt), (s.nextOp q 0 = some (i, e)) :=
  ⟨Tests.hostQ 0 [], 0, 0, { head := 1 }, by decide +kernel⟩

theorem test_meets_HostQueues_8 : ∃ (s : State) (q : Fin 64) (i : Nat) (e : QEnt), (s.nextOp q 0x22 = some (i, e)) :=
  ⟨Tests.hostQ 0 [0x22], 0, 0, { bytes := [0x22], head := 1 }, by decide +kernel⟩

theorem test_meets_HostQueues_9 : ∃ (s : State) (q : Fin 64) (i : Nat) (e : QEnt), (s.nextOp q 0x20 = some (i, e)) ∧ (s.launchFree = true) :=
  ⟨Tests.hostQ 0 [0x20], 0, 0, { bytes := [0x20], head := 1 }, by decide +kernel⟩

theorem test_meets_HostQueues_10 : ∃ (s : State) (q : Fin 64), (s.nextOp q 0 = none) ∧ (s.nextOp q 0x22 = none) ∧ (s.nextOp q 0x20 = none ∨ s.launchFree = false) :=
  ⟨((Tests.hostQ 0 []).setQueue 0 { (Tests.hostQ 0 []).queue 0 with fetched := [] }), 0, by decide +kernel⟩

theorem test_meets_HostQueues_11 : ∃ (s : State) (bs : List Byte) (err : Bool), (s.regB R.HIF_CTRL 0 = false ∨ s.nextFetch = none) :=
  ⟨Tests.up, [], false, by decide +kernel⟩

theorem test_meets_HostQueues_12 : ∃ (s : State) (q : Nat) (x : QueueSt) (bs b : List Byte) (err : Bool) (u : State), (s.regB R.HIF_CTRL 0 = true) ∧ (s.nextFetch = some q) ∧ (s.queue q = x) ∧ (err = false ∨ x.inWindow = true) ∧ ((if x.inWindow then s.hbm (s.sqWin + x.sq / 4096 * 4096 + 64 * x.sqHead) 64 else sliceB bs 0 64) = b) ∧ (s.modHif (fun h => { h with last := q }) = u) :=
  ⟨Tests.hostQ 0 [], 0, (Tests.hostQ 0 []).queue 0, [], List.replicate 64 0, false, (Tests.hostQ 0 []).modHif (fun h => { h with last := 0 }), by decide +kernel⟩

theorem test_meets_HostQueues_13 : ∃ (s : State) (q : Nat) (bs : List Byte), (s.regB R.HIF_CTRL 0 = true) ∧ (s.nextFetch = some q) ∧ ((s.queue q).inWindow = false) :=
  ⟨Tests.hostQ 0 [], 0, [], by decide +kernel⟩

theorem test_meets_HostQueues_14 : ∃ (s : State) (rq : Requester) (v : Word) (q : Nat) (x : QueueSt), (s.regF R.HIF_Q_SEL 5 0 = q) ∧ (s.queue q = x) ∧ (x.en = true) :=
  ⟨Tests.hostQ 0 [], .host, 0, 0, (Tests.hostQ 0 []).queue 0, by decide +kernel⟩

theorem test_meets_HostQueues_15 : ∃ (s : State) (rq : Requester) (v : Word) (q : Nat) (x : QueueSt) (w : Word), (s.regF R.HIF_Q_SEL 5 0 = q) ∧ (s.queue q = x) ∧ (x.en = false) ∧ (fld v 30 29 ≠ 3) ∧ (bitOf v 31 = true) ∧ (v &&& 0xF03F1FFF#32 = w) ∧ (({ x with cfg := w } : QueueSt).fits = true) ∧ (x.fetched = []) :=
  ⟨Tests.up, .host, 0x80000004, 0, {}, 0x80000004, by decide +kernel⟩

theorem test_meets_HostQueues_16 : ∃ (s : State) (rq : Requester) (v : Word) (q : Nat) (x : QueueSt) (w : Word), (s.regF R.HIF_Q_SEL 5 0 = q) ∧ (s.queue q = x) ∧ (x.en = false) ∧ (fld v 30 29 ≠ 3) ∧ (bitOf v 31 = true) ∧ (v &&& 0xF03F1FFF#32 = w) ∧ (({ x with cfg := w } : QueueSt).fits = false ∨ x.fetched ≠ []) :=
  ⟨Tests.up.setQueue 0 { sq := 0x3FF000 }, .host, 0xB000FFFF, 0, { sq := 0x3FF000 }, 0xB0001FFF, by decide +kernel⟩

theorem test_meets_HostQueues_17 : ∃ (s : State) (rq : Requester) (v : Word), ((s.queue (s.regF R.HIF_Q_SEL 5 0)).en = false) :=
  ⟨Tests.up, .host, 4, by decide +kernel⟩

theorem test_meets_HostQueues_18 : ∃ (s : State) (q : Fin 64), ((s.queue q).en = true) ∧ ((s.queue q).full = true) ∧ (s.regF R.HIF_CTRL 31 16 ≠ 0) :=
  ⟨((Tests.hostQ 0 []).setReg R.HIF_CTRL 0x10001#32).setQueue 0 { (Tests.hostQ 0 []).queue 0 with cqTail := 3 }, 0, by decide +kernel⟩

theorem test_meets_HostQueues_19 : ∃ (s : State) (q : Fin 64), ((s.queue q).en = true) ∧ (64 ≤ ((s.queue q).errs.filter (fun t => decide (s.time < t + 1000000000))).length) :=
  ⟨(Tests.hostQ 0 []).setQueue 0 { (Tests.hostQ 0 []).queue 0 with errs := List.replicate 64 0 }, 0, by decide +kernel⟩

theorem test_meets_HostQueues_20 : ∃ (s : State) (q : Fin 64), ((s.queue q).en = false) :=
  ⟨Tests.up, 0, by decide +kernel⟩

/-! ### HostDataAndGeneration -/

theorem test_meets_HostDataAndGeneration_1 : ∃ (s : State) (q : Fin 64) (i : Nat) (e : QEnt) (g : Nat) (data : List Byte), (s.nextOp q 1 = some (i, e)) ∧ (s.freeEngine 0 = some g) ∧ (s.targetsMe e = true) ∧ (s.protected_ true e.opB e.len = false) ∧ (e.check = false) ∧ (s.img.cmd = none) :=
  ⟨Tests.hostQ 1 [1, 0, 0, 0, 0, 0, 0, 0, 0, 0, 0, 0, 0, 0, 0, 0, 64, 0, 0, 0, 0, 0, 0, 0, 4], 0, 0, { bytes := [1, 0, 0, 0, 0, 0, 0, 0, 0, 0, 0, 0, 0, 0, 0, 0, 64, 0, 0, 0, 0, 0, 0, 0, 4], head := 1 }, 0, [1, 2, 3, 4], by decide +kernel⟩

theorem test_meets_HostDataAndGeneration_2 : ∃ (s : State) (q : Fin 64) (i : Nat) (e : QEnt) (g : Nat) (data d : List Byte) (n : Nat), (s.nextOp q 1 = some (i, e)) ∧ (s.freeEngine 0 = some g) ∧ (s.targetsMe e = true) ∧ (e.check = true) ∧ (e.len - 4 = n) ∧ (s.protected_ true e.opB n = false) ∧ (sliceB data 0 e.len = d) :=
  ⟨Tests.hostQ 1 (([1, 2] ++ [1, 0, 0, 0, 0, 0, 0, 0, 0, 0, 0, 0, 0, 0, 0, 0, 64, 0, 0, 0, 0, 0, 0, 0, 4].drop 2 : List Byte).set 24 8), 0, 0, { bytes := (([1, 2] ++ [1, 0, 0, 0, 0, 0, 0, 0, 0, 0, 0, 0, 0, 0, 0, 0, 64, 0, 0, 0, 0, 0, 0, 0, 4].drop 2 : List Byte).set 24 8), head := 1 }, 0, [1, 2, 3, 4, 5, 6, 7, 8], [1, 2, 3, 4, 5, 6, 7, 8], 4, by decide +kernel⟩

theorem test_meets_HostDataAndGeneration_3 : ∃ (s : State) (a : Nat) (bs : List Byte) (k : Nat), (s.img.cmd = some k) :=
  ⟨{ Tests.up with img := { Tests.up.img with cmd := some 1 } }, 64, [1, 2], 1, by decide +kernel⟩

theorem test_meets_HostDataAndGeneration_4 : ∃ (s : State) (q : Fin 64) (i : Nat) (e : QEnt) (g : Nat) (data : List Byte) (err : Option Nat), (s.nextOp q 1 = some (i, e)) ∧ (s.freeEngine 0 = some g) ∧ (s.targetsMe e = true) ∧ (s.protected_ true e.opB (if e.check then e.len - 4 else e.len) = true) :=
  ⟨{ Tests.hostQ 1 [1, 0, 0, 0, 0, 0, 0, 0, 0, 0, 0, 0, 0, 0, 0, 0, 64, 0, 0, 0, 0, 0, 0, 0, 4] with hif := { (Tests.hostQ 1 [1, 0, 0, 0, 0, 0, 0, 0, 0, 0, 0, 0, 0, 0, 0, 0, 64, 0, 0, 0, 0, 0, 0, 0, 4]).hif with prot := [(0, 0x80000000)] } }, 0, 0, { bytes := [1, 0, 0, 0, 0, 0, 0, 0, 0, 0, 0, 0, 0, 0, 0, 0, 64, 0, 0, 0, 0, 0, 0, 0, 4], head := 1 }, 0, [], none, by decide +kernel⟩

theorem test_meets_HostDataAndGeneration_5 : ∃ (s : State) (q : Fin 64) (i : Nat) (e : QEnt) (g : Nat) (data : List Byte) (k : Nat), (s.nextOp q 1 = some (i, e)) ∧ (s.freeEngine 0 = some g) ∧ (s.targetsMe e = true) ∧ (e.check = false) ∧ (s.protected_ true e.opB e.len = false) :=
  ⟨Tests.hostQ 1 [1, 0, 0, 0, 0, 0, 0, 0, 0, 0, 0, 0, 0, 0, 0, 0, 64, 0, 0, 0, 0, 0, 0, 0, 4], 0, 0, { bytes := [1, 0, 0, 0, 0, 0, 0, 0, 0, 0, 0, 0, 0, 0, 0, 0, 64, 0, 0, 0, 0, 0, 0, 0, 4], head := 1 }, 0, [1, 2, 3, 4], 2, by decide +kernel⟩

theorem test_meets_HostDataAndGeneration_6 : ∃ (s : State) (q : Fin 64) (i : Nat) (e : QEnt) (g : Nat), (s.nextOp q 2 = some (i, e)) ∧ (s.freeEngine 0 = some g) ∧ (s.targetsMe e = true) ∧ (s.protected_ false e.opA e.len = true) :=
  ⟨{ Tests.hostQ 1 [2, 0, 0, 0, 0, 0, 0, 0, 64, 0, 0, 0, 0, 0, 0, 0, 0, 16, 0, 0, 0, 0, 0, 0, 4] with hif := { (Tests.hostQ 1 [2, 0, 0, 0, 0, 0, 0, 0, 64, 0, 0, 0, 0, 0, 0, 0, 0, 16, 0, 0, 0, 0, 0, 0, 4]).hif with prot := [(0, 0x80000000)] } }, 0, 0, { bytes := [2, 0, 0, 0, 0, 0, 0, 0, 64, 0, 0, 0, 0, 0, 0, 0, 0, 16, 0, 0, 0, 0, 0, 0, 4], head := 1 }, 0, by decide +kernel⟩

theorem test_meets_HostDataAndGeneration_7 : ∃ (s : State) (q : Fin 64) (i : Nat) (e : QEnt) (g : Nat), (s.nextOp q 2 = some (i, e)) ∧ (s.freeEngine 0 = some g) ∧ (s.targetsMe e = true) ∧ (s.protected_ false e.opA e.len = false) ∧ (s.mem.badIn e.opA e.len = []) ∧ (s.viaHead = false) :=
  ⟨Tests.hostQ 1 [2, 0, 0, 0, 0, 0, 0, 0, 64, 0, 0, 0, 0, 0, 0, 0, 0, 16, 0, 0, 0, 0, 0, 0, 4], 0, 0, { bytes := [2, 0, 0, 0, 0, 0, 0, 0, 64, 0, 0, 0, 0, 0, 0, 0, 0, 16, 0, 0, 0, 0, 0, 0, 4], head := 1 }, 0, by decide +kernel⟩

theorem test_meets_HostDataAndGeneration_8 : ∃ (s : State) (q : Fin 64) (i : Nat) (e : QEnt) (g : Nat) (us : List Nat), (s.nextOp q 2 = some (i, e)) ∧ (s.freeEngine 0 = some g) ∧ (s.targetsMe e = true) ∧ (s.protected_ false e.opA e.len = false) ∧ (s.mem.badIn e.opA e.len = us) ∧ (us ≠ []) :=
  ⟨{ Tests.hostQ 1 [2, 0, 0, 0, 0, 0, 0, 0, 64, 0, 0, 0, 0, 0, 0, 0, 0, 16, 0, 0, 0, 0, 0, 0, 4] with mem := { Tests.up.mem with bad := [2] } }, 0, 0, { bytes := [2, 0, 0, 0, 0, 0, 0, 0, 64, 0, 0, 0, 0, 0, 0, 0, 0, 16, 0, 0, 0, 0, 0, 0, 4], head := 1 }, 0, [2], by decide +kernel⟩

theorem test_meets_HostDataAndGeneration_9 : ∃ (s : State) (q : Fin 64) (i : Nat) (e : QEnt) (g : Nat), (s.nextOp q 2 = some (i, e)) ∧ (s.freeEngine 0 = some g) ∧ (s.targetsMe e = false) ∧ (e.check = false) :=
  ⟨{ Tests.hostQ 1 ([2, 0, 0, 0, 0, 0, 0, 0, 64, 0, 0, 0, 0, 0, 0, 0, 0, 16, 0, 0, 0, 0, 0, 0, 4].set 4 1) with ezl := { Tests.up.ezl with pod := { Tests.up.ezl.pod with size := 4 } } }, 0, 0, { bytes := ([2, 0, 0, 0, 0, 0, 0, 0, 64, 0, 0, 0, 0, 0, 0, 0, 0, 16, 0, 0, 0, 0, 0, 0, 4].set 4 1), head := 1 }, 0, by decide +kernel⟩

theorem test_meets_HostDataAndGeneration_10 : ∃ (s : State) (q : Fin 64) (data : List Byte) (err : Option Nat), ((s.nextOp q 1 = none ∧ s.nextOp q 2 = none) ∨ s.freeEngine 0 = none) :=
  ⟨Tests.up, 0, [], none, by decide +kernel⟩

theorem test_meets_HostDataAndGeneration_11 : ∃ (s : State) (q : Fin 64) (i : Nat) (e : QEnt) (g : Nat) (f : Nat × Nat × Nat × Nat), ((s.queue q).fetched[i]? = some e) ∧ (e.engine = some g) ∧ (e.fin = some f) :=
  ⟨(Tests.hostQ 1 []).setEnt 0 0 { started := true, engine := some 0, fin := some (0, 4, 0, 0) }, 0, 0, { started := true, engine := some 0, fin := some (0, 4, 0, 0) }, 0, (0, 4, 0, 0), by decide +kernel⟩

theorem test_meets_HostDataAndGeneration_12 : ∃ (s : State) (q : Fin 64) (i : Nat), ((s.queue q).fetched[i]? = none) :=
  ⟨Tests.up, 0, 0, by decide +kernel⟩

theorem test_meets_HostDataAndGeneration_13 : ∃ (s : State) (q : Fin 64) (i : Nat) (e : QEnt), (s.nextOp q 0x10 = some (i, e)) ∧ (s.launchFree = true) ∧ (s.stp.phase = .idle) :=
  ⟨Tests.hostQ 2 [16], 0, 0, { bytes := [16], head := 1 }, by decide +kernel⟩

theorem test_meets_HostDataAndGeneration_14 : ∃ (s : State) (q : Fin 64), (s.nextOp q 0x10 = none ∨ s.launchFree = false) :=
  ⟨Tests.up, 0, by decide +kernel⟩

theorem test_meets_HostDataAndGeneration_15 : ∃ (s : State) (q : Fin 64) (i : Nat) (e : QEnt) (f : Nat × Nat × Nat × Nat), ((s.queue q).fetched[i]? = some e) ∧ (e.op = 0x10) ∧ (e.fin = some f) ∧ (f.1 ≠ 0 ∨ e.len = 0) :=
  ⟨(Tests.hostQ 2 []).setEnt 0 0 { bytes := [16], started := true, fin := some (0, 4, 0, 0) }, 0, 0, { bytes := [16], started := true, fin := some (0, 4, 0, 0) }, (0, 4, 0, 0), by decide +kernel⟩

theorem test_meets_HostDataAndGeneration_16 : ∃ (s : State) (q : Fin 64) (i : Nat) (e : QEnt) (f : Nat × Nat × Nat × Nat) (u : State), ((s.queue q).fetched[i]? = some e) ∧ (e.op = 0x10) ∧ (e.fin = some f) ∧ (f.1 = 0) ∧ (e.len ≠ 0) ∧ (s.mem.badIn e.opB e.len = []) ∧ (s.readNotes e.opB e.len = u) ∧ (u.viaHead = false) :=
  ⟨(Tests.hostQ 2 []).setEnt 0 0 { bytes := (16 :: [1, 0, 0, 0, 0, 0, 0, 0, 0, 0, 0, 0, 0, 0, 0, 0, 64, 0, 0, 0, 0, 0, 0, 0, 4].drop 1), started := true, fin := some (0, 4, 0, 0) }, 0, 0, { bytes := (16 :: [1, 0, 0, 0, 0, 0, 0, 0, 0, 0, 0, 0, 0, 0, 0, 0, 64, 0, 0, 0, 0, 0, 0, 0, 4].drop 1), started := true, fin := some (0, 4, 0, 0) }, (0, 4, 0, 0), (Tests.hostQ 2 []).setEnt 0 0 { bytes := (16 :: [1, 0, 0, 0, 0, 0, 0, 0, 0, 0, 0, 0, 0, 0, 0, 0, 64, 0, 0, 0, 0, 0, 0, 0, 4].drop 1), started := true, fin := some (0, 4, 0, 0) }, by decide +kernel⟩

/-! ### AperturesAndResets -/

theorem test_meets_AperturesAndResets_1 : ∃ (s : State) (off len : Nat), (s.aperAddr off len = none) :=
  ⟨State.reset, 0, 4, by decide +kernel⟩

theorem test_meets_AperturesAndResets_2 : ∃ (s : State) (off len a : Nat), (s.aperAddr off len = some a) ∧ (s.protected_ false a len = false) ∧ (s.mem.badIn a len = []) :=
  ⟨Tests.up, 64, 4, 64, by decide +kernel⟩

theorem test_meets_AperturesAndResets_3 : ∃ (s : State) (off len a : Nat) (us : List Nat), (s.aperAddr off len = some a) ∧ (s.protected_ false a len = false) ∧ (s.mem.badIn a len = us) ∧ (us ≠ []) :=
  ⟨{ Tests.up with mem := { Tests.up.mem with bad := [2] } }, 60, 8, 60, [2], by decide +kernel⟩

theorem test_meets_AperturesAndResets_4 : ∃ (s : State) (us : List Nat) (a u n m : Nat) (x y : List Byte), (a + n = 32 * (u + 1)) ∧ (a / 32 = u) ∧ (0 < n) ∧ (0 < m) ∧ (m ≤ 32) ∧ (x.length = n) ∧ (y.length = m) :=
  ⟨Tests.up, [2], 60, 1, 4, 4, [1, 2, 3, 4], [5, 6, 7, 8], by decide +kernel⟩

theorem test_meets_AperturesAndResets_5 : ∃ (s : State) (off len a : Nat), (s.aperAddr off len = some a) ∧ (s.protected_ false a len = true) ∧ (s.mem.badIn a len = []) :=
  ⟨{ Tests.up with hif := { Tests.up.hif with prot := [(0, 0x80000000)] } }, 64, 4, 64, by decide +kernel⟩

theorem test_meets_AperturesAndResets_6 : ∃ (s : State) (off : Nat) (bs : List Byte), (s.aperAddr off bs.length = none) :=
  ⟨State.reset, 0, [1], by decide +kernel⟩

theorem test_meets_AperturesAndResets_7 : ∃ (s : State) (off a : Nat) (bs : List Byte), (s.aperAddr off bs.length = some a) ∧ (a + bs.length ≤ hbmSize) ∧ (s.protected_ true a bs.length = false) ∧ (s.img.cmd = none) :=
  ⟨Tests.up, 64, 64, [1, 2], by decide +kernel⟩

theorem test_meets_AperturesAndResets_8 : ∃ (s : State) (off a : Nat) (bs : List Byte), (s.aperAddr off bs.length = some a) ∧ (s.protected_ true a bs.length = true) :=
  ⟨{ Tests.up with hif := { Tests.up.hif with prot := [(0, 0x80000000)] } }, 64, 64, [1, 2], by decide +kernel⟩

theorem test_meets_AperturesAndResets_9 : ∃ (s : State) (rq : Requester) (v : Fin 64) (u : State), (s.setRegB (R.MSIX_TABLE (4 * v + 3)) 0 false = u) :=
  ⟨Tests.up, .host, 0, _, by rfl⟩

theorem test_meets_AperturesAndResets_11 : ∃ (s : State) (v : Nat), (s.msixMasked v = false) ∧ (s.viaHead = false) :=
  ⟨(Tests.up.setRegB (R.MSIX_TABLE 3) 0 false), 0, by decide +kernel⟩

theorem test_meets_AperturesAndResets_12 : ∃ (s : State) (off : Nat) (bs : List Byte), (bs.length = 4) ∧ (off % 4 = 0) ∧ (s.err.queue.length < 64) :=
  ⟨Tests.up, 64, [1, 0, 0, 0], by decide +kernel⟩

theorem test_meets_AperturesAndResets_13 : ∃ (s : State) (off : Nat) (bs : List Byte), (bs.length ≠ 4 ∨ off % 4 ≠ 0) :=
  ⟨Tests.up, 64, [1], by decide +kernel⟩

theorem test_meets_AperturesAndResets_13a : ∃ (s : State) (off : Nat) (bs : List Byte), (bs.length ≠ 4 ∨ off % 4 ≠ 0) :=
  ⟨Tests.up, 66, [1, 2, 3, 4], by decide +kernel⟩

theorem test_meets_AperturesAndResets_15 : ∃ (s : State) (r w : Nat) (f : Bool), (s.hif.perst = true ∨ s.img.stage ≤ 1) :=
  ⟨State.reset, 6, 8, true, by decide +kernel⟩

theorem test_meets_AperturesAndResets_16 : ∃ (s : State) (r w : Nat) (f : Bool), (s.hif.perst = false) ∧ (1 < s.img.stage) ∧ (6 ≤ r) ∧ (8 ≤ w) :=
  ⟨Tests.up, 6, 8, true, by decide +kernel⟩

theorem test_meets_AperturesAndResets_17 : ∃ (s : State) (r w : Nat) (f : Bool), (s.hif.perst = false) ∧ (1 < s.img.stage) ∧ (r < 6 ∨ w < 8) :=
  ⟨Tests.up, 5, 8, true, by decide +kernel⟩

theorem test_meets_AperturesAndResets_19 : ∃ (s : State), (1 < s.img.stage) :=
  ⟨Tests.up, by decide +kernel⟩

/-! ### InterruptControllers -/

theorem test_meets_InterruptControllers_1 : ∃ (s : State) (d : Die) (src : Nat), (src < 512) :=
  ⟨Tests.up, 0, 5, by decide +kernel⟩

theorem test_meets_InterruptControllers_2 : ∃ (s : State) (d : Die) (core : Fin 4) (src : Nat), (s.irqOffer d core = some src) :=
  ⟨((((Tests.up.setRegB (R.IRQ_CTRL 0) 0 true).setRegB (R.IRQ_CTRL 0) 4 true).setRegB (R.IRQ_EN 0 9) 12 true).setIrq 0 { pend := (1#512 <<< 300), cfg := [(300, 0x40000001)] }), 0, 0, 300, by decide +kernel⟩

theorem test_meets_InterruptControllers_3 : ∃ (s : State) (d : Die) (core : Fin 4) (src : Nat), (s.irqOffer d core ≠ some src) :=
  ⟨Tests.up, 0, 0, 300, by decide +kernel⟩

theorem test_meets_InterruptControllers_4 : ∃ (s : State) (rq : Requester) (d : Die) (core : Fin 4) (src : Nat), (s.irqOffer d core = some src) :=
  ⟨((((Tests.up.setRegB (R.IRQ_CTRL 0) 0 true).setRegB (R.IRQ_CTRL 0) 4 true).setRegB (R.IRQ_EN 0 9) 12 true).setIrq 0 { pend := (1#512 <<< 300), cfg := [(300, 0x40000001)] }), .kersey 0, 0, 0, 300, by decide +kernel⟩

theorem test_meets_InterruptControllers_5 : ∃ (s : State) (rq : Requester) (d : Die) (core : Fin 4), (s.irqOffer d core = none) :=
  ⟨Tests.up, .kersey 0, 0, 0, by decide +kernel⟩

theorem test_meets_InterruptControllers_6 : ∃ (s : State) (rq : Requester) (d : Die) (core : Fin 4) (src : Nat), (src < 512) ∧ (((s.irqD d).coreOf core).curf = src) :=
  ⟨(Tests.up.setIrq 0 { core := [(0, { curf := 300, fastBank := true })], cfg := [(300, 0x60000001)] }), .kersey 0, 0, 0, 300, by decide +kernel⟩

theorem test_meets_InterruptControllers_7 : ∃ (s : State) (d : Die) (core : Fin 4), (s.pending = []) :=
  ⟨(Tests.up.setIrq 0 { core := [(0, { back := true, fastBank := true })] }), 0, 0, by decide +kernel⟩

theorem test_meets_InterruptControllers_8 : ∃ (s : State) (rq : Requester) (d : Die) (core : Fin 4) (src : Nat), (src < 512) ∧ (((s.irqD d).coreOf core).curf ≠ src) ∧ (((s.irqD d).coreOf core).cur = src) :=
  ⟨(Tests.up.setIrq 0 { core := [(0, { cur := 300 })], cfg := [(300, 0x40000001)] }), .kersey 0, 0, 0, 300, by decide +kernel⟩

theorem test_meets_InterruptControllers_9 : ∃ (s : State) (rq : Requester) (d : Die) (core : Fin 4) (src : Nat), (src < 512) ∧ (((s.irqD d).coreOf core).curf ≠ src) ∧ (((s.irqD d).coreOf core).cur ≠ src) :=
  ⟨Tests.up, .kersey 0, 0, 0, 300, by decide +kernel⟩

theorem test_meets_InterruptControllers_10 : ∃ (s : State) (rq : Requester) (d : Die) (src : Nat), (src < 512) ∧ ((s.irqD d).host.getLsbD src = true) :=
  ⟨Tests.up.setIrq 0 { host := (1#512 <<< 20) }, .host, 0, 20, by decide +kernel⟩

theorem test_meets_InterruptControllers_11 : ∃ (s : State) (rq : Requester) (d : Die) (src : Nat), (src < 512) ∧ ((s.irqD d).host.getLsbD src = false) :=
  ⟨Tests.up, .host, 0, 20, by decide +kernel⟩

theorem test_meets_InterruptControllers_14 : ∃ (s : State) (d : Die) (src : Nat), (src < 512) ∧ (bitOf ((s.irqD d).cfgOf src) 28 = true) ∧ (s.irqEligible d src = true) :=
  ⟨((((Tests.up.setRegB (R.IRQ_CTRL 0) 0 true).setRegB (R.IRQ_CTRL 0) 4 true).setRegB (R.IRQ_EN 0 9) 12 true).setIrq 0 { pend := (1#512 <<< 300), cfg := [(300, 0x50000000)] }), 0, 300, by decide +kernel⟩

theorem test_meets_InterruptControllers_15 : ∃ (s : State) (d : Die) (src : Nat) (vec : Nat), (src < 512) ∧ (bitOf ((s.irqD d).cfgOf src) 28 = true) ∧ (s.irqEligible d src = true) ∧ (fld ((s.irqD d).cfgOf src) 27 22 = vec) ∧ (s.msixMasked vec = false) ∧ (s.viaHead = false) :=
  ⟨(((((Tests.up.setRegB (R.MSIX_TABLE 3) 0 false).setRegB (R.IRQ_CTRL 0) 0 true).setRegB (R.IRQ_CTRL 0) 4 true).setRegB (R.IRQ_EN 0 9) 12 true).setIrq 0 { pend := (1#512 <<< 300), cfg := [(300, 0x50000000)] }), 0, 300, 0, by decide +kernel⟩

theorem test_meets_InterruptControllers_16 : ∃ (s : State) (d : Die) (src : Nat), (512 ≤ src ∨ bitOf ((s.irqD d).cfgOf src) 28 = false ∨ s.irqEligible d src = false) :=
  ⟨Tests.up, 0, 600, by decide +kernel⟩

theorem test_meets_InterruptControllers_17 : ∃ (s : State) (rq : Requester) (d : Die) (core : Fin 4) (err : Bool) (slot : Nat) (t : TaskEnt), (((s.irqD d).coreOf core).task = some slot) ∧ (s.task (d * 4096 + slot) = some t) :=
  ⟨(Tests.tasked {}).setIrq 0 { core := [(0, { task := some 3 })] }, .kersey 0, 0, 0, true, 3, {}, by decide +kernel⟩

theorem test_meets_InterruptControllers_18 : ∃ (s : State) (rq : Requester) (d : Die) (core : Fin 4) (err : Bool), (((s.irqD d).coreOf core).task = none) :=
  ⟨Tests.up, .kersey 0, 0, 0, true, by decide +kernel⟩

theorem test_meets_InterruptControllers_20 : ∃ (s : State) (d : Die), (s.fnHost 14 = true) :=
  ⟨(Tests.up.setIrq 0 { hold := [(3, { n := 4, h := 5 })] }).setRegB R.DUTY_SPLIT_USED 13 true, 0, by decide +kernel⟩

theorem test_meets_InterruptControllers_21 : ∃ (s : State) (d : Die) (g : Fin 32) (base top h n : Nat), (s.fnHost 14 = false) ∧ (s.regF (R.IRQ_HOLD d g) 15 0 = base) ∧ (max base (s.regF (R.IRQ_HOLD d g) 31 16) = top) ∧ (((s.irqD d).holdOf g).h = h) ∧ (((s.irqD d).holdOf g).n = n) :=
  ⟨Tests.up, 0, 0, Tests.up.regF (R.IRQ_HOLD 0 0) 15 0, max (Tests.up.regF (R.IRQ_HOLD 0 0) 15 0) (Tests.up.regF (R.IRQ_HOLD 0 0) 31 16), ((Tests.up.irqD 0).holdOf 0).h, ((Tests.up.irqD 0).holdOf 0).n, by exact ⟨by decide +kernel, rfl, rfl, rfl, rfl⟩⟩

/-! ### StartUp -/

theorem test_meets_StartUp_1 : ∃ (s : State) (a : Nat), (s.housed = false) ∧ (s.pwr.latched = false) ∧ (s.pwr.aGood = true ∨ s.pwr.bGood = true) :=
  ⟨{ State.reset with pwr := { State.reset.pwr with aGood := true, rails := false } }, 3, by decide +kernel⟩

theorem test_meets_StartUp_2 : ∃ (p : PwrSt) (m n : Nat), (m < 2 ^ 32) ∧ (n < 2 ^ 32) ∧ (p.storeA = countRec m) ∧ (p.storeB = countRec n ∨ p.storeB = []) :=
  ⟨{ storeA := countRec 7, storeB := countRec 9 }, 7, 9, by decide +kernel⟩

theorem test_meets_StartUp_3 : ∃ (s : State) (a : Nat), (s.housed = true ∨ s.pwr.latched = true ∨ (s.pwr.aGood = false ∧ s.pwr.bGood = false)) :=
  ⟨{ Tests.up with pwr := { Tests.up.pwr with rails := true } }, 3, by decide +kernel⟩

theorem test_meets_StartUp_4 : ∃ (s : State) (a : Nat), (s.housed = false) ∧ (s.pwr.latched = false) ∧ (s.pwr.aGood = true ∨ s.pwr.bGood = true) :=
  ⟨{ State.reset with pwr := { State.reset.pwr with aGood := true, rails := false } }, 3, by decide +kernel⟩

theorem test_meets_StartUp_6 : ∃ (s : State), (s.pwr.rails = true) ∧ (s.img.stage = 1) :=
  ⟨{ { Tests.up with img := { Tests.up.img with stage := 1 } } with pwr := { Tests.up.pwr with rails := true } }, by decide +kernel⟩

theorem test_meets_StartUp_7 : ∃ (s : State) (seen : Option (List Byte × List Byte)) (fin : List Byte), (s.img.stage = 2) :=
  ⟨{ Tests.up with img := { Tests.up.img with stage := 2 } }, none, [], by decide +kernel⟩

theorem test_meets_StartUp_9 : ∃ (s : State), (s.img.stage = 3) :=
  ⟨{ Tests.up with img := { Tests.up.img with stage := 3 } }, by decide +kernel⟩

theorem test_meets_StartUp_10 : ∃ (s u v : State) (img : List Byte) (dev : FlashSeen), (s.img.stage = 3) ∧ (((s.modImg (fun i => { i with cap := dev.cap })).when (!dev.fast) (fun s => s.event R.IMG_EVENTS 1)).formSecret dev.helperA dev.helperB = v) ∧ (v.modImg (fun i => { i with cache := if v.img.wrote then v.img.stored else img.take v.img.area }) = u) :=
  ⟨{ Tests.up with img := { Tests.up.img with stage := 3 } }, _, _, [], ⟨true, 0, [], []⟩, by exact ⟨rfl, rfl, rfl⟩⟩

theorem test_meets_StartUp_12 : ∃ (s : State) (p : ImgPlain), (s.img.stage = 4) :=
  ⟨{ Tests.up with img := { Tests.up.img with stage := 4 } }, {}, by decide +kernel⟩

theorem test_meets_StartUp_13 : ∃ (s : State), (s.img.stage = 5) :=
  ⟨{ Tests.up with img := { Tests.up.img with stage := 5 } }, by decide +kernel⟩

theorem test_meets_StartUp_14 : ∃ (s : State), (s.img.stage = 6) ∧ (s.recPending = false) :=
  ⟨{ Tests.up with img := { Tests.up.img with stage := 6 } }, by decide +kernel⟩

theorem test_meets_StartUp_15 : ∃ (s : State), (s.img.stage = 7) ∧ (s.img.worked = false) :=
  ⟨{ Tests.up with img := { Tests.up.img with stage := 7 } }, by decide +kernel⟩

theorem test_meets_StartUp_16 : ∃ (s : State) (k : Nat), (s.img.stage = 5 ∨ (s.img.stage = 7 ∧ s.img.worked = false)) :=
  ⟨{ Tests.up with img := { Tests.up.img with stage := 5 } }, 3, by decide +kernel⟩

theorem test_meets_StartUp_17 : ∃ (s : State) (d : Nat), (2 ≤ s.img.stage) ∧ (s.img.stage ≤ 0xA) :=
  ⟨{ Tests.up with img := { Tests.up.img with stage := 2 } }, 3, by decide +kernel⟩

theorem test_meets_StartUp_17a : ∃ (s : State) (d : Nat), (2 ≤ s.img.stage) ∧ (s.img.stage ≤ 0xA) :=
  ⟨{ Tests.up with img := { Tests.up.img with stage := 0xA } }, 3, by decide +kernel⟩

theorem test_meets_StartUp_18 : ∃ (s : State), (s.img.stage = 8) ∧ (s.img.worked = false) ∧ (s.recPending = false) :=
  ⟨{ Tests.up with img := { Tests.up.img with stage := 8 } }, by decide +kernel⟩

theorem test_meets_StartUp_19 : ∃ (s : State), (s.img.stage = 9) :=
  ⟨{ Tests.up with img := { Tests.up.img with stage := 9 } }, by decide +kernel⟩

theorem test_meets_StartUp_20 : ∃ (s : State) (ms : Nat), (s.img.stage = 0xA) ∧ (s.recPending = false) :=
  ⟨{ Tests.up with img := { Tests.up.img with stage := 0xA } }, 5, by decide +kernel⟩

theorem test_meets_StartUp_21 : ∃ (s : State) (seen : Option (List Byte × List Byte)) (fin img : List Byte) (dev : FlashSeen) (p : ImgPlain) (u : Option StartFail) (ms : Nat), (s.img.stage = 0xB) ∧ (s.img.worked = false) :=
  ⟨Tests.up, none, [], [], ⟨true, 0, [], []⟩, {}, none, 5, by decide +kernel⟩

theorem test_meets_StartUp_22 : ∃ (s : State) (r : InitRec), (s.nextInit 1 = some r) :=
  ⟨{ Tests.up with img := { Tests.up.img with stage := 6, recs := [{ op := 1 }] } }, { op := 1 }, by decide +kernel⟩

theorem test_meets_StartUp_23 : ∃ (s : State) (r : InitRec) (x : Word × State), (s.nextInit 2 = some r) ∧ (s.readBar0 (.kersey 0) r.off = x) :=
  ⟨{ Tests.up with img := { Tests.up.img with stage := 6, recs := [{ op := 2 }] } }, { op := 2 }, _, by exact ⟨by decide +kernel, rfl⟩⟩

theorem test_meets_StartUp_24 : ∃ (s : State) (r : InitRec) (x : Word × State), (s.nextInit 3 = some r) ∧ (s.readBar0 (.kersey 0) r.off = x) :=
  ⟨{ Tests.up with img := { Tests.up.img with stage := 6, recs := [{ op := 3 }] } }, { op := 3 }, _, by exact ⟨by decide +kernel, rfl⟩⟩

theorem test_meets_StartUp_25 : ∃ (s : State) (r : InitRec), (s.nextInit 4 = some r) :=
  ⟨{ Tests.up with img := { Tests.up.img with stage := 6, recs := [{ op := 4 }] } }, { op := 4 }, by decide +kernel⟩

theorem test_meets_StartUp_26 : ∃ (s : State) (k : Kaolin) (a : Fin 1632) (seen : Option SweepRead) (reads : List CalRead), (s.img.stage = 9) ∧ ((s.kao k).swept.testBit a = false) :=
  ⟨(({ Tests.drift with img := { Tests.drift.img with stage := 9 } } : State)), 0, 0, none, [], by decide +kernel⟩

theorem test_meets_StartUp_27 : ∃ (s : State) (k : Kaolin) (a : Fin 1632) (reads : List CalRead), (s.img.stage = 9) ∧ ((s.kao k).swept.testBit a = false) :=
  ⟨(({ Tests.drift with img := { Tests.drift.img with stage := 9 } } : State)), 0, 0, [], by decide +kernel⟩

theorem test_meets_StartUp_28 : ∃ (x : PhysSt) (r : ArrRec), (x.record = some r) :=
  ⟨{ record := some {} }, {}, by decide +kernel⟩

theorem test_meets_StartUp_29 : ∃ (s : State) (k : Kaolin) (a : Fin 1632) (reads : List CalRead), (s.img.stage = 9) ∧ ((s.kao k).swept.testBit a = false) ∧ ((s.phys k a).record = none) :=
  ⟨(({ Tests.drift with img := { Tests.drift.img with stage := 9 } } : State)), 0, 0, [], by decide +kernel⟩

theorem test_meets_StartUp_30 : ∃ (s : State) (k : Kaolin) (a : Fin 1632) (reads : List CalRead) (r : ArrRec), (s.img.stage = 9) ∧ ((s.kao k).swept.testBit a = false) ∧ ((s.phys k a).record = some r) ∧ (r.retired = false) ∧ ((s.posMat k r.pos).isSome = true) :=
  ⟨(({ Tests.drift with img := { Tests.drift.img with stage := 9 } } : State).setPhys 0 0 { record := some { pos := 0 } }), 0, 0, [], { pos := 0 }, by exact ⟨rfl, by decide +kernel, by decide +kernel, rfl, by decide +kernel⟩⟩

theorem test_meets_StartUp_31 : ∃ (s : State) (k : Kaolin) (a : Fin 1632) (seen : Option SweepRead) (reads : List CalRead), (s.img.stage ≠ 9 ∨ (s.kao k).swept.testBit a = true) :=
  ⟨Tests.drift, 0, 0, none, [], by decide +kernel⟩

/-! ### PushedImagesAndAttestation -/

theorem test_meets_PushedImagesAndAttestation_1 : ∃ (s : State) (rq : Requester), (s.img.cmd = none) ∧ (s.img.stage = 0xC) :=
  ⟨{ Tests.up with img := { Tests.up.img with stage := 0xC } }, .host, by decide +kernel⟩

theorem test_meets_PushedImagesAndAttestation_2 : ∃ (s : State) (rq : Requester), (s.img.cmd = none) ∧ (s.img.stage = 0xB) :=
  ⟨Tests.up, .host, by decide +kernel⟩

theorem test_meets_PushedImagesAndAttestation_3 : ∃ (s : State) (rq : Requester), (s.img.cmd.isSome = true) :=
  ⟨{ Tests.up with img := { Tests.up.img with cmd := some 2 } }, .host, by decide +kernel⟩

theorem test_meets_PushedImagesAndAttestation_4 : ∃ (s : State) (p : ImgPlain) (img : List Byte) (res : Nat), (s.pushedImage = img) ∧ (s.imageCheck img p = res) ∧ (s.img.cmd = some 1) :=
  ⟨{ Tests.up with img := { Tests.up.img with stage := 0xC, cmd := some 1 } }, {}, _, _, by exact ⟨rfl, rfl, rfl⟩⟩

theorem test_meets_PushedImagesAndAttestation_5 : ∃ (s : State) (p : ImgPlain) (img : List Byte) (res : Nat), (s.pushedImage = img) ∧ (s.imageCheck img p = res) ∧ (s.img.sectors = []) :=
  ⟨Tests.up, {}, _, _, by exact ⟨rfl, rfl, rfl⟩⟩

theorem test_meets_PushedImagesAndAttestation_6 : ∃ (s : State) (i : Nat) (rest : List Nat) (back : List Byte), (s.img.sectors = i :: rest) :=
  ⟨{ Tests.up with img := { Tests.up.img with cmd := some 3, sectors := [0, 1] } }, 0, [1], [], by decide +kernel⟩

theorem test_meets_PushedImagesAndAttestation_7 : ∃ (s : State) (back : List Byte), (s.img.sectors = []) :=
  ⟨Tests.up, [], by decide +kernel⟩

theorem test_meets_PushedImagesAndAttestation_9 : ∃ (n : Nat), (0 < n) :=
  ⟨3, by decide +kernel⟩

theorem test_meets_PushedImagesAndAttestation_10 : ∃ (s : State) (res : Nat), (res < 256) :=
  ⟨Tests.up, 7, by decide +kernel⟩

theorem test_meets_PushedImagesAndAttestation_12 : ∃ (s : State) (f1 f2 : Bool) (sq lf : Nat), (s.img.att.secret.isSome = true) ∧ (s.img.att.limit ≤ s.img.att.next) ∧ (s.img.att.cause < 4) ∧ (leafOf s.img.att.leafA = some (sq, lf)) ∧ (leafOf s.img.att.leafB = none) ∧ (lf < 33554432) :=
  ⟨{ Tests.up with img := { Tests.up.img with att := { secret := some [] } } }, true, false, 0, 0, by decide +kernel⟩

theorem test_meets_PushedImagesAndAttestation_13 : ∃ (q l : Nat), (q < 2 ^ 32) ∧ (l < 2 ^ 32) :=
  ⟨5, 6, by decide +kernel⟩

theorem test_meets_PushedImagesAndAttestation_14 : ∃ (s : State) (f1 f2 : Bool), (s.img.att.secret = none ∨ s.img.att.next < s.img.att.limit ∨ 4 ≤ s.img.att.cause) :=
  ⟨Tests.up, true, false, by decide +kernel⟩

theorem test_meets_PushedImagesAndAttestation_15 : ∃ (s : State) (sec treeId : List Byte), (s.ready = true) ∧ (s.img.att.secret = some sec) ∧ (s.img.att.cause = 1) :=
  ⟨{ Tests.up with img := { Tests.up.img with att := { secret := some [] } } }, [], [], by decide +kernel⟩

theorem test_meets_PushedImagesAndAttestation_16 : ∃ (s : State) (treeId : List Byte), (s.ready = false ∨ s.img.att.secret = none ∨ s.img.att.cause ≠ 1) :=
  ⟨State.reset, [], by decide +kernel⟩

theorem test_meets_PushedImagesAndAttestation_18 : ∃ (s u : State) (rq : Requester) (v : Word), (s.hiWrite rq R.IMG_ATT_REQ 0xFFFFFFFF 0xFFFFFFFF v = u) :=
  ⟨Tests.up, _, .host, 0, by rfl⟩

theorem test_meets_PushedImagesAndAttestation_19 : ∃ (s : State) (a : Nat) (body : List Byte), (s.img.att.req = some a) ∧ (s.img.att.avail = true) ∧ (s.img.att.next < s.img.att.limit) ∧ (s.mem.badIn a 32 = []) ∧ (s.reportBody (s.hbm a 32) = body) :=
  ⟨{ Tests.up with img := { Tests.up.img with att := { secret := some [], avail := true, limit := 256, cause := 0, req := some 64 } } }, 64, _, by exact ⟨by decide +kernel, by decide +kernel, by decide +kernel, by decide +kernel, rfl⟩⟩

theorem test_meets_PushedImagesAndAttestation_20 : ∃ (s : State), (s.img.att.req = none ∨ s.img.att.avail = false ∨ s.img.att.limit ≤ s.img.att.next) :=
  ⟨Tests.up, by decide +kernel⟩

/-! ### InputsAndHousekeeping -/

theorem test_meets_InputsAndHousekeeping_1 : ∃ (s : State) (b : Bool), (s.pwr.good s.pwr.activeB = true) ∧ (s.pwr.activeB ≠ b) :=
  ⟨{ Tests.up with pwr := { Tests.up.pwr with aGood := true } }, true, by decide +kernel⟩

theorem test_meets_InputsAndHousekeeping_2 : ∃ (s : State) (b : Bool), (s.pwr.activeB = b) ∧ (s.housed = true) :=
  ⟨{ Tests.up with pwr := { Tests.up.pwr with rails := true, activeB := false, holdup := true } }, false, by decide +kernel⟩

theorem test_meets_InputsAndHousekeeping_3 : ∃ (s : State) (b : Bool), (s.pwr.activeB = !b) ∧ (s.pwr.good (!b) = false) ∧ (s.housed = true) :=
  ⟨{ Tests.up with pwr := { Tests.up.pwr with rails := true, aGood := false, bGood := false, activeB := false } }, true, by decide +kernel⟩

theorem test_meets_InputsAndHousekeeping_4 : ∃ (s : State) (b : Bool), (s.pwr.good b = true) ∧ (s.pwr.activeB = b) ∧ (s.pwr.good (!b) = true) ∧ (s.housed = true) :=
  ⟨{ Tests.up with pwr := { Tests.up.pwr with rails := true, aGood := true, bGood := true, activeB := false } }, false, by decide +kernel⟩

theorem test_meets_InputsAndHousekeeping_5 : ∃ (s : State) (b : Bool), (s.pwr.good b = false) :=
  ⟨{ Tests.up with pwr := { Tests.up.pwr with bGood := false } }, true, by decide +kernel⟩

theorem test_meets_InputsAndHousekeeping_6 : ∃ (s : State), (s.pwr.aGood = false) ∧ (s.pwr.bGood = false) ∧ (s.pwr.holdup = false) ∧ (s.housed = true) :=
  ⟨{ Tests.up with pwr := { Tests.up.pwr with rails := true, aGood := false, bGood := false } }, by decide +kernel⟩

theorem test_meets_InputsAndHousekeeping_7 : ∃ (s : State), (s.pwr.aGood = true ∨ s.pwr.bGood = true ∨ s.pwr.holdup = true ∨ s.housed = false) :=
  ⟨{ Tests.up with pwr := { Tests.up.pwr with aGood := true } }, by decide +kernel⟩

theorem test_meets_InputsAndHousekeeping_9 : ∃ (s : State) (l : Bool) (k a : Nat), ((s.arr.phys.map (·.1)).Nodup) :=
  ⟨Tests.drift, false, 0, 0, by decide +kernel⟩

theorem test_meets_InputsAndHousekeeping_11 : ∃ (s : State), (s.fnHost 9 = false) ∧ (s.pwr.activeB = true) ∧ (s.pwr.aGood = true) ∧ (s.pwr.unstable = false) ∧ ((s.pwr.returns.filter (fun t => decide (s.time < t + 600000000000))).length < 7) :=
  ⟨{ Tests.up with pwr := { Tests.up.pwr with activeB := true, aGood := true } }, by decide +kernel⟩

theorem test_meets_InputsAndHousekeeping_12 : ∃ (s : State), (s.fnHost 9 = true ∨ s.pwr.activeB = false ∨ s.pwr.aGood = false ∨ s.pwr.unstable = true) :=
  ⟨{ Tests.up with pwr := { Tests.up.pwr with activeB := false } }, by decide +kernel⟩

theorem test_meets_InputsAndHousekeeping_13 : ∃ (s : State) (rq : Requester), (s.fnHost 9 = true) :=
  ⟨Tests.up.setRegB R.DUTY_SPLIT_USED 8 true, .host, by decide +kernel⟩

theorem test_meets_InputsAndHousekeeping_14 : ∃ (s : State) (rq : Requester), (s.fnHost 9 = false) :=
  ⟨Tests.up, .host, by decide +kernel⟩

theorem test_meets_InputsAndHousekeeping_16 : ∃ (s : State), (s.pwr.rails = true) :=
  ⟨{ Tests.up with pwr := { Tests.up.pwr with rails := true } }, by decide +kernel⟩

theorem test_meets_InputsAndHousekeeping_17 : ∃ (s : State), (s.pwr.rails = true) ∧ (3600 ≤ s.pwr.sinceSave) :=
  ⟨{ Tests.up with pwr := { Tests.up.pwr with rails := true, sinceSave := 3600 } }, by decide +kernel⟩

theorem test_meets_InputsAndHousekeeping_18 : ∃ (n m : Nat) (p : PwrSt), (n < 2 ^ 32) ∧ (m < 2 ^ 32) ∧ (p.storeB = countRec m) :=
  ⟨5, 9, { storeA := countRec 5, storeB := countRec 9 }, by decide +kernel⟩

theorem test_meets_InputsAndHousekeeping_19 : ∃ (s : State) (ok : Bool), (s.pwr.rails = false ∨ s.pwr.sinceSave < 3600) :=
  ⟨{ Tests.up with pwr := { Tests.up.pwr with rails := false } }, true, by decide +kernel⟩

theorem test_meets_InputsAndHousekeeping_20 : ∃ (s : State) (raw : Int), (s.softDue = none) :=
  ⟨Tests.up, 100, by decide +kernel⟩

theorem test_meets_InputsAndHousekeeping_21 : ∃ (s : State) (raw : Int) (c : ConvReq), (s.softDue = some c) :=
  ⟨{ Tests.up with pwr := { Tests.up.pwr with conv := some { left := 1 } } }, 100, { left := 1 }, by decide +kernel⟩

theorem test_meets_InputsAndHousekeeping_25 : ∃ (s : State) (ch : Nat), (4 ≤ SMap.get (fun _ => 0) s.pwr.full ch) ∧ (s.pwr.faulty.contains ch = false) :=
  ⟨{ Tests.up with pwr := { Tests.up.pwr with full := [(9, 4)] } }, 9, by decide +kernel⟩

theorem test_meets_InputsAndHousekeeping_26 : ∃ (s : State) (ch : Nat), (SMap.get (fun _ => 0) s.pwr.full ch < 4 ∨ s.pwr.faulty.contains ch = true) :=
  ⟨Tests.up, 9, by decide +kernel⟩

theorem test_meets_InputsAndHousekeeping_27 : ∃ (s : State) (ch pos : Nat), (s.pwr.tripping = false) :=
  ⟨{ Tests.up with pwr := { Tests.up.pwr with rails := true } }, 8, 0, by decide +kernel⟩

theorem test_meets_InputsAndHousekeeping_28 : ∃ (s : State), (s.housed = false ∨ s.pwr.tripping = true) :=
  ⟨{ Tests.up with pwr := { Tests.up.pwr with rails := false } }, by decide +kernel⟩

theorem test_meets_InputsAndHousekeeping_29 : ∃ (s : State) (k d : Nat), (s.housed = true) ∧ (s.pwr.tripping = false) ∧ (∀ x, SMap.get (fun _ => 768) s.pwr.tcap x ≤ 768 ∧ 1 ≤ SMap.get (fun _ => 768) s.pwr.tcap x) ∧ (s.pwr.pcap ≤ 768 ∧ 1 ≤ s.pwr.pcap) ∧ (k < 16) ∧ (d < 2) :=
  ⟨{ Tests.up with pwr := { Tests.up.pwr with rails := true } }, 0, 0, by exact ⟨by decide, by decide, fun x => by simp [Tests.up, State.reset, SMap.get], by decide, by decide, by decide⟩⟩

theorem test_meets_InputsAndHousekeeping_31 : ∃ (s : State) (o : Nat) (t : Int) (lo hi : Nat), (lo = 16 * s.regF (R.PWR_PWM_CURVE o) 31 24) ∧ (hi = 16 * s.regF (R.PWR_PWM_CURVE o) 23 16) :=
  ⟨Tests.up, 0, 5, _, _, by exact ⟨rfl, rfl⟩⟩

/-! ### SmbusTelemetry -/

theorem test_meets_SmbusTelemetry_1 : ∃ (s : State), (s.smbOn = true) :=
  ⟨{ Tests.up with pwr := { Tests.up.pwr with rails := true } }, by decide +kernel⟩

theorem test_meets_SmbusTelemetry_2 : ∃ (s : State), (s.smbOn = true) :=
  ⟨{ Tests.up with pwr := { Tests.up.pwr with rails := true } }, by decide +kernel⟩

theorem test_meets_SmbusTelemetry_3 : ∃ (s : State), (s.smbOn = true) :=
  ⟨{ Tests.up with pwr := { Tests.up.pwr with rails := true } }, by decide +kernel⟩

theorem test_meets_SmbusTelemetry_4 : ∃ (s : State), (s.smbOn = true) :=
  ⟨{ Tests.up with pwr := { Tests.up.pwr with rails := true } }, by decide +kernel⟩

theorem test_meets_SmbusTelemetry_5 : ∃ (s : State), (s.smbOn = true) :=
  ⟨{ Tests.up with pwr := { Tests.up.pwr with rails := true } }, by decide +kernel⟩

theorem test_meets_SmbusTelemetry_6 : ∃ (s : State), (s.smbOn = true) :=
  ⟨{ Tests.up with pwr := { Tests.up.pwr with rails := true } }, by decide +kernel⟩

theorem test_meets_SmbusTelemetry_7 : ∃ (s : State), (s.smbOn = true) :=
  ⟨{ Tests.up with pwr := { Tests.up.pwr with rails := true } }, by decide +kernel⟩

theorem test_meets_SmbusTelemetry_8 : ∃ (s : State), (s.smbOn = true) :=
  ⟨{ Tests.up with pwr := { Tests.up.pwr with rails := true } }, by decide +kernel⟩

theorem test_meets_SmbusTelemetry_9 : ∃ (s : State), (s.smbOn = true) :=
  ⟨{ Tests.up with pwr := { Tests.up.pwr with rails := true } }, by decide +kernel⟩

theorem test_meets_SmbusTelemetry_10 : ∃ (s : State), (s.smbOn = true) :=
  ⟨{ Tests.up with pwr := { Tests.up.pwr with rails := true } }, by decide +kernel⟩

theorem test_meets_SmbusTelemetry_11 : ∃ (s : State), (s.smbOn = true) :=
  ⟨{ Tests.up with pwr := { Tests.up.pwr with rails := true } }, by decide +kernel⟩

theorem test_meets_SmbusTelemetry_12 : ∃ (s : State), (s.smbOn = true) :=
  ⟨{ Tests.up with pwr := { Tests.up.pwr with rails := true } }, by decide +kernel⟩

theorem test_meets_SmbusTelemetry_13 : ∃ (s : State), (s.smbOn = true) :=
  ⟨{ Tests.up with pwr := { Tests.up.pwr with rails := true } }, by decide +kernel⟩

theorem test_meets_SmbusTelemetry_14 : ∃ (s : State), (s.smbOn = true) ∧ (s.alertPin = true) :=
  ⟨{ Tests.up with pwr := { Tests.up.pwr with rails := true, tripping := true } }, by decide +kernel⟩

theorem test_meets_SmbusTelemetry_15 : ∃ (s : State), (s.smbOn = false ∨ s.alertPin = false) :=
  ⟨{ Tests.up with pwr := { Tests.up.pwr with rails := false } }, by decide +kernel⟩

theorem test_meets_SmbusTelemetry_16 : ∃ (s : State) (code : Nat) (pec : Bool), (s.smbOn = true) ∧ (s.err.queue.length < 64) :=
  ⟨{ Tests.up with pwr := { Tests.up.pwr with rails := true } }, 0x44, true, by decide +kernel⟩

theorem test_meets_SmbusTelemetry_17 : ∃ (s : State), (s.smbOn = true) ∧ (s.err.queue.length < 64) :=
  ⟨{ Tests.up with pwr := { Tests.up.pwr with rails := true } }, by decide +kernel⟩

theorem test_meets_SmbusTelemetry_18 : ∃ (s : State) (code : Nat) (pec : Bool), (s.smbOn = false) :=
  ⟨{ Tests.up with pwr := { Tests.up.pwr with rails := false } }, 1, true, by decide +kernel⟩

/-! ### SnapshotsChecksAndLog -/

theorem test_meets_SnapshotsChecksAndLog_3 : ∃ (s : State) (cls t : Nat), (s.regB R.SNP_CTRL 0 = true) ∧ (s.snp.queue = []) :=
  ⟨(Tests.up.setReg R.SNP_CTRL 1#32), 1, 5, by decide +kernel⟩

theorem test_meets_SnapshotsChecksAndLog_4 : ∃ (s u v : State) (cls t : Nat) (f : Bool), ((s.modSnp (fun p => { p with num := (s.snp.num + 1) % 256 })).modEzl (fun e => { e with seen := SMap.set (fun _ => none) e.seen s.me (some s.snp.num) }) = u) ∧ ((if f = true then u.flood none ⟨5, 0, s.me, 0xFF, TrigFrame.bytes ⟨t, s.me, s.snp.num, cls⟩⟩ else u) = v) :=
  ⟨Tests.up, _, _, 1, 5, true, by exact ⟨rfl, rfl⟩⟩

theorem test_meets_SnapshotsChecksAndLog_5 : ∃ (s : State) (x : Trig), (s.regB R.SNP_CTRL 0 = false) :=
  ⟨Tests.up.setReg R.SNP_CTRL 0#32, {}, by decide +kernel⟩

theorem test_meets_SnapshotsChecksAndLog_7 : ∃ (s : State) (lat : List Nat) (t : Trig) (rest : List Trig), (s.regB R.SNP_CTRL 0 = true) ∧ (s.snp.queue = t :: rest) ∧ (t.t ≤ s.time) ∧ (s.bankTaken ((s.reg R.SNP_SEQ).toNat % 2) = false) :=
  ⟨{ (Tests.up.setReg R.SNP_CTRL 1#32) with snp := { Tests.up.snp with queue := [{}] } }, [], {}, [], by decide +kernel⟩

theorem test_meets_SnapshotsChecksAndLog_8 : ∃ (s : State) (lat : List Nat) (t : Trig) (rest : List Trig), (s.regB R.SNP_CTRL 0 = true) ∧ (s.snp.queue = t :: rest) ∧ (t.t ≤ s.time) ∧ (s.bankTaken ((s.reg R.SNP_SEQ).toNat % 2) = true) :=
  ⟨({ (Tests.up.setReg R.SNP_CTRL 1#32) with snp := { Tests.up.snp with queue := [{}] } } : State).setBank 0 { busy := true }, [], {}, [], by decide +kernel⟩

theorem test_meets_SnapshotsChecksAndLog_9 : ∃ (s : State) (lat : List Nat), (s.snp.queue = [] ∨ ∃ t rest, s.snp.queue = t :: rest ∧ s.time < t.t) :=
  ⟨Tests.up, [], by exact Or.inl rfl⟩

theorem test_meets_SnapshotsChecksAndLog_10 : ∃ (s : State), (s.regB R.SNP_CTRL 4 = false) :=
  ⟨Tests.up, by decide +kernel⟩

theorem test_meets_SnapshotsChecksAndLog_12 : ∃ (s : State), (s.drainNext = none) :=
  ⟨Tests.up, by decide +kernel⟩

theorem test_meets_SnapshotsChecksAndLog_13 : ∃ (s : State) (b wr sz : Nat) (x : Bank) (recs : List Byte), (s.drainNext = some b) ∧ (s.bank b = x) ∧ (s.snapRecords x b = recs) ∧ (s.snpRing = sz) ∧ ((s.reg R.SNP_RING_WR).toNat = wr) :=
  ⟨Tests.up.setBank 0 { busy := true, latched := true }, 0, _, _, _, _, by exact ⟨by decide +kernel, rfl, rfl, rfl, rfl⟩⟩

theorem test_meets_SnapshotsChecksAndLog_14 : ∃ (s : State) (rq : Requester) (v : Word), (s.draining = true) :=
  ⟨(Tests.up.setReg R.SNP_RING_SIZE 1#32).setBank 0 { busy := true, latched := true }, .host, 1, by decide +kernel⟩

theorem test_meets_SnapshotsChecksAndLog_15 : ∃ (s : State) (rq : Requester) (v : Word), (s.draining = false) :=
  ⟨Tests.up, .host, 3, by decide +kernel⟩

theorem test_meets_SnapshotsChecksAndLog_16 : ∃ (s : State) (rq : Requester) (u : Fin 16) (len : Nat), ((s.chkU u).owner = none ∨ (s.chkU u).owner = some rq) :=
  ⟨Tests.up, .host, 3, 9, by decide +kernel⟩

theorem test_meets_SnapshotsChecksAndLog_17 : ∃ (s : State) (rq : Requester) (u : Fin 16) (len : Nat), ((s.chkU u).owner ≠ none) ∧ ((s.chkU u).owner ≠ some rq) :=
  ⟨Tests.up.setChk 3 { owner := some .host, len := 2 }, .kersey 1, 3, 4, by decide +kernel⟩

theorem test_meets_SnapshotsChecksAndLog_18 : ∃ (s : State) (rq : Requester) (u : Fin 16) (len : Nat) (v : Word) (c : ChkUnit), (s.chkU u = c) ∧ (c.owner = some rq) :=
  ⟨Tests.up.setChk 3 { owner := some .host, len := 2 }, .host, 3, 4, 7, { owner := some .host, len := 2 }, by decide +kernel⟩

theorem test_meets_SnapshotsChecksAndLog_19 : ∃ (s : State) (rq : Requester) (u : Fin 16) (len : Nat) (v : Word), ((s.chkU u).owner ≠ some rq) :=
  ⟨Tests.up.setChk 3 { owner := some .host, len := 2 }, .kersey 1, 3, 4, 7, by decide +kernel⟩

theorem test_meets_SnapshotsChecksAndLog_21 : ∃ (s : State), (s.err.queue = []) :=
  ⟨Tests.up, by decide +kernel⟩

theorem test_meets_SnapshotsChecksAndLog_22 : ∃ (s : State) (e : LogEnt) (rest : List LogEnt) (n : Nat), (s.err.queue = e :: rest) ∧ (s.fnHost 11 = true) ∧ ((s.reg R.ERR_WR_SEQ).toNat = n) :=
  ⟨{ Tests.up.setRegB R.DUTY_SPLIT_USED 10 true with err := { queue := [⟨5, 7, 1, 0xFF, 1, 9⟩] } }, ⟨5, 7, 1, 0xFF, 1, 9⟩, [], 0, by decide +kernel⟩

end Sys2Proof.Tests.Slice0
end

section
/-! The register map (R398, R399): which rows an address has, and what the registers read after power-up reset (R8). -/

namespace Sys2Proof.Machine

/-! ### Blocks and rows of an address -/

/-- The spans of the blocks ascend and do not overlap. -/
theorem blkTable_sorted : blkTable.Pairwise (fun x y => x.1 + x.2.1 ≤ y.1) := by decide

/-- In a list of ascending spans, an address is found in the span that holds it. -/
theorem find?_span {β : Type} {l : List (Nat × Nat × β)} (hl : l.Pairwise (fun x y => x.1 + x.2.1 ≤ y.1)) {p : Nat × Nat × β} (hp : p ∈ l)
    {a : Nat} (h1 : p.1 ≤ a) (h2 : a < p.1 + p.2.1) : l.find? (fun x => decide (x.1 ≤ a) && decide (a < x.1 + x.2.1)) = some p := by
  induction l with
  | nil => simp at hp
  | cons x l ih =>
    obtain ⟨hx, hl⟩ := List.pairwise_cons.1 hl
    rcases List.mem_cons.1 hp with rfl | hp
    · simp [h1, h2]
    · have := hx p hp
      rw [List.find?_cons_of_neg (by simp; omega), ih hl hp]

theorem locate_of_mem {base span a : Nat} {b : Blk} (hp : (base, span, b) ∈ blkTable) (h1 : base ≤ a) (h2 : a < base + span) :
    locate a = some (b, a - base) := by
  unfold locate
  rw [find?_span blkTable_sorted hp h1 h2]
  rfl

theorem mem_of_locate {a off : Nat} {b : Blk} (h : locate a = some (b, off)) :
    ∃ base span, (base, span, b) ∈ blkTable ∧ base ≤ a ∧ a < base + span ∧ off = a - base := by
  unfold locate at h
  obtain ⟨⟨base, span, b'⟩, hf, he⟩ := Option.map_eq_some_iff.1 h
  have hin := List.find?_some hf
  simp only [Bool.and_eq_true, decide_eq_true_eq] at hin
  simp only [Prod.mk.injEq] at he
  obtain ⟨rfl, rfl⟩ := he
  exact ⟨base, span, List.mem_of_find?_eq_some hf, hin.1, hin.2, rfl⟩

theorem rowAt_eq_some {a off : Nat} {b : Blk} {r : RegRow} :
    rowAt a = some (b, off, r) ↔ locate a = some (b, off) ∧ a % 4 = 0 ∧ b.rows.find? (·.holds off) = some r := by
  unfold rowAt
  cases hl : locate a with
  | none => simp
  | some p =>
    obtain ⟨b', off'⟩ := p
    by_cases ha : a % 4 = 0
    · simp only [ha, if_true, Option.map_eq_some_iff, Prod.mk.injEq, Option.some.injEq, true_and]
      constructor
      · rintro ⟨r', hr, rfl, rfl, rfl⟩; exact ⟨⟨rfl, rfl⟩, hr⟩
      · rintro ⟨⟨rfl, rfl⟩, hr⟩; exact ⟨r, hr, rfl, rfl, rfl⟩
    · simp [ha]

/-- The reset value of a register outside the MSI-X table is that of its row. -/
theorem regReset_of_rowAt {a off : Nat} {b : Blk} {r : RegRow} (h : rowAt a = some (b, off, r)) (hm : ¬(0x11000 ≤ a ∧ a < 0x11400)) :
    regReset a = BitVec.ofNat 32 r.reset := by
  unfold regReset
  rw [if_neg (by simpa using hm), h]

/-- An address of Damask 1 and the address 0x8000 below it have the same row, where the two blocks are of one kind (R398). -/
theorem rowAt_sub_of_alike {a off base : Nat} {b b₀ b₁ : Blk} {r : RegRow} (h : rowAt a = some (b, off, r))
    (h₀ : (base, 0x1000, b₀) ∈ blkTable) (h₁ : (base + 0x8000, 0x1000, b₁) ∈ blkTable) (hrows : b₀.rows = b₁.rows)
    (hb : 0x11400 ≤ base) (hl : base + 0x8000 ≤ a) (hh : a < base + 0x8100) :
    ∃ b', rowAt (a - 0x8000) = some (b', off, r) ∧ b'.rows = b.rows ∧ regReset (a - 0x8000) = regReset a := by
  obtain ⟨hloc, ha4, hf⟩ := rowAt_eq_some.1 h
  rw [locate_of_mem h₁ hl (by omega), Option.some.injEq, Prod.mk.injEq] at hloc
  obtain ⟨rfl, rfl⟩ := hloc
  have hrow : rowAt (a - 0x8000) = some (b₀, a - (base + 0x8000), r) := by
    refine rowAt_eq_some.2 ⟨?_, by omega, hrows ▸ hf⟩
    rw [locate_of_mem h₀ (by omega) (by omega), show a - 0x8000 - base = a - (base + 0x8000) by omega]
  exact ⟨b₀, hrow, hrows, by rw [regReset_of_rowAt hrow (by omega), regReset_of_rowAt h (by omega)]⟩

/-- The address that a register is stored under has the same row, of the same kind of block, with the same reset value (R398). -/
theorem rowAt_canonAddr {a off : Nat} {b : Blk} {r : RegRow} (h : rowAt a = some (b, off, r)) :
    ∃ b', rowAt (canonAddr a) = some (b', off, r) ∧ b'.rows = b.rows ∧ regReset (canonAddr a) = regReset a := by
  unfold canonAddr
  split
  · next hc =>
    simp only [Bool.and_eq_true, decide_eq_true_eq] at hc
    exact rowAt_sub_of_alike h (base := 0x100000) (b₀ := .tsk 0) (b₁ := .tsk 1) (by decide) (by decide) rfl (by omega) hc.1 hc.2
  split
  · next hc =>
    simp only [Bool.and_eq_true, decide_eq_true_eq] at hc
    exact rowAt_sub_of_alike h (base := 0x160000) (b₀ := .upd 0) (b₁ := .upd 1) (by decide) (by decide) rfl (by omega) hc.1.1 hc.1.2
  split
  · next hc =>
    simp only [Bool.and_eq_true, decide_eq_true_eq] at hc
    exact rowAt_sub_of_alike h (base := 0x1A0000) (b₀ := .mem 0) (b₁ := .mem 1) (by decide) (by decide) rfl (by omega) hc.1 hc.2
  · exact ⟨b, h, rfl, rfl⟩

/-! ### The registers with a reset value that is not zero -/

/-- The offsets of a block's registers whose reset value is not zero. -/
def Blk.setOffsets (b : Blk) : List Nat :=
  (b.rows.filter (fun r => decide (r.reset ≠ 0))).flatMap (fun r => (List.range r.cnt).map (fun i => r.off + i * r.stride))

/-- A row that is not of pairs holds the offsets of its registers only. -/
theorem RegRow.off_of_holds {r : RegRow} {off : Nat} (h : r.holds off = true) (hp : r.pair = false) :
    ∃ i < r.cnt, off = r.off + i * r.stride := by
  simp only [RegRow.holds, hp, Bool.false_and, Bool.or_false, Bool.and_eq_true, decide_eq_true_eq] at h
  obtain ⟨⟨hle, hi⟩, hm⟩ := h
  refine ⟨_, hi, ?_⟩
  have := Nat.div_add_mod' (off - r.off) r.stride
  omega

/-- No pair has a reset value other than zero. -/
theorem pair_eq_false_of_reset_ne_zero : ∀ p ∈ blkTable, ∀ r ∈ p.2.2.rows, r.reset ≠ 0 → r.pair = false := by decide

/-- Every other register of the block has reset value zero. -/
theorem reset_eq_zero {a off : Nat} {b : Blk} {r : RegRow} (h : rowAt a = some (b, off, r)) (hn : off ∉ b.setOffsets) : r.reset = 0 := by
  obtain ⟨hloc, -, hf⟩ := rowAt_eq_some.1 h
  obtain ⟨base, span, hmem, -⟩ := mem_of_locate hloc
  have hr := List.mem_of_find?_eq_some hf
  by_contra h0
  have hholds : r.holds off = true := List.find?_some (p := fun x : RegRow => x.holds off) hf
  obtain ⟨i, hi, rfl⟩ := RegRow.off_of_holds hholds (pair_eq_false_of_reset_ne_zero _ hmem r hr h0)
  exact hn (List.mem_flatMap.2 ⟨r, by simp [hr, h0], List.mem_map.2 ⟨i, by simpa using hi, rfl⟩⟩)

/-- What a read gives at reset of a register whose reset value is not zero. -/
theorem reset_view_set : ∀ p ∈ blkTable, ∀ off ∈ p.2.2.setOffsets, State.reset.view (p.1 + off) = regReset (p.1 + off) := by decide +kernel

/-! ### What a read of a keyed part gives at reset -/

@[simp] theorem State.reset_reg (a : Nat) : State.reset.reg a = regReset a := rfl
@[simp] theorem State.reset_unit (k : Nat) : State.reset.unit k = {} := rfl
@[simp] theorem State.reset_task (k : Nat) : State.reset.task k = none := rfl
@[simp] theorem State.reset_chan (k : Nat) : State.reset.chan k = {} := rfl
@[simp] theorem State.reset_updD (k : Nat) : State.reset.updD k = {} := rfl
@[simp] theorem State.reset_irqD_pend (d : Nat) : (State.reset.irqD d).pend = 0 := rfl
@[simp] theorem State.reset_irqD_host (d : Nat) : (State.reset.irqD d).host = 0 := rfl
@[simp] theorem State.reset_irqD_coreOf (d c : Nat) : (State.reset.irqD d).coreOf c = {} := rfl
@[simp] theorem State.reset_lnk (k : Nat) : State.reset.lnk k = {} := rfl
@[simp] theorem State.reset_kao (k : Nat) : State.reset.kao k = {} := rfl
@[simp] theorem State.reset_core (k : Nat) : State.reset.core k = {} := rfl
@[simp] theorem State.reset_cluster (k : Nat) : State.reset.cluster k = [] := rfl
@[simp] theorem State.reset_conv (k : Nat) : State.reset.conv k = none := rfl
@[simp] theorem State.reset_window (k : Nat) : State.reset.window k = [] := rfl
@[simp] theorem State.reset_silt (k : Nat) : State.reset.silt k = {} := rfl
@[simp] theorem State.reset_queue (k : Nat) : State.reset.queue k = {} := rfl
@[simp] theorem State.reset_chkU (u : Nat) : State.reset.chkU u = {} := rfl
@[simp] theorem State.reset_pos (d p : Nat) : State.reset.pos d p = posDefault (d * 1536 + p) := rfl
@[simp] theorem State.reset_phys (d a : Nat) : State.reset.phys d a = {} := rfl

/-! ### What the blocks form at reset where the reset value is zero -/

/-- The block forms no value, or zero. -/
def noneOrZero (o : Option Word) : Prop := o = none ∨ o = some 0

theorem noneOrZero_none : noneOrZero none := .inl rfl
theorem noneOrZero_zero : noneOrZero (some 0) := .inr rfl

/-- A map of bits of which none is set is zero. -/
theorem bitMap_eq_zero {a : Nat} {p : Nat → Bool} (h : ∀ i < 32, p (a + i) = false) : bitMap a p = 0 := by
  have hf : ∀ l : List Nat, (∀ i ∈ l, p (a + i) = false) → l.foldl (fun w i => if p (a + i) then w + 2 ^ i else w) 0 = 0 := by
    intro l
    induction l with
    | nil => exact fun _ => rfl
    | cons i l ih => intro hl; rw [List.foldl_cons, if_neg (by simp [hl i]), ih (fun j hj => hl j (List.mem_cons_of_mem i hj))]
  unfold bitMap
  rw [hf _ (fun i hi => h i (List.mem_range.1 hi))]
  rfl

theorem reset_viewId (off : Nat) : noneOrZero (some (State.reset.viewId off)) := by
  have hs : State.reset.img.idStore = [] := rfl
  unfold State.viewId
  split
  · rw [hs]; simp [leAt, sliceB, ofLe, wordN, noneOrZero]
  · exact .inr rfl

theorem reset_viewHif {off : Nat} (h : off ∉ Blk.hif.setOffsets) : noneOrZero (State.reset.viewHif off) := by
  unfold State.viewHif
  dsimp only
  split
  case h_2 => exact absurd (by decide) h
  case h_7 => exact absurd (by decide) h
  case h_9 => exact noneOrZero_none
  all_goals exact .inr rfl

theorem reset_srcLevel : ∀ d < 2, ∀ src < 512, State.reset.srcLevel d src = false := by decide +kernel

theorem reset_srcCfg : ∀ d < 2, State.reset.viewIrq d 0x10 = some 0 := by decide +kernel

theorem reset_inService {src : Nat} (d : Nat) (h : src < 512) : (State.reset.irqD d).inService src = false := by
  simp [IrqSt.inService, (show (1023 : Nat) ≠ src by omega)]

theorem reset_holdValue (d g : Nat) : State.reset.holdValue d g = 0 := by
  rw [State.holdValue, if_neg (by decide +kernel)]
  rfl

/-- No source is offered while none is pending. -/
theorem reset_irqOffer (d c : Nat) : State.reset.irqOffer d c = none := by
  have hf : (List.range 512).find? (fun _ => false) = none := by simp
  simp [State.irqOffer, hf]

theorem irq_setOffsets_core (d : Nat) :
    ∀ c < 4, ∀ j ∈ [0x00, 0x04, 0x08], 0x400 + 0x20 * c + j ∈ (Blk.irq d).setOffsets :=
  show ∀ c < 4, ∀ j ∈ [0x00, 0x04, 0x08], 0x400 + 0x20 * c + j ∈ (Blk.irq 0).setOffsets by decide

theorem reset_viewIrq {d off : Nat} (hd : d < 2) (h : off ∉ (Blk.irq d).setOffsets) : noneOrZero (State.reset.viewIrq d off) := by
  by_cases hcfg : off = 0x10
  · exact .inr (hcfg ▸ reset_srcCfg d hd)
  unfold State.viewIrq
  simp only [if_neg hcfg]
  split
  · have hf : (0#512 : BitVec 512).getLsbD = fun _ => false := by funext i; simp
    exact .inr (by simp [countIf, wordN, hf])
  split
  · exact .inr (congrArg some (bitMap_eq_zero fun i _ => by simp))
  split
  · exact .inr (congrArg some (bitMap_eq_zero fun i _ => reset_inService d (by omega)))
  split
  · exact .inr (congrArg some (bitMap_eq_zero fun i _ => reset_srcLevel d hd _ (by omega)))
  split
  · exact .inr (by rw [reset_holdValue]; rfl)
  split
  · next hcore =>
    have hset (j : Nat) (hj : j ∈ [0x00, 0x04, 0x08]) (hoff : off % 0x20 = j) : False := by
      refine h ?_
      rw [show off = 0x400 + 0x20 * ((off - 0x400) / 0x20) + j by omega]
      exact irq_setOffsets_core d _ (by omega) j hj
    split
    case h_1 ho => exact (hset _ (by decide) ho).elim
    case h_2 ho => exact (hset _ (by decide) ho).elim
    case h_3 ho => exact (hset _ (by decide) ho).elim
    case h_4 => simp only [State.reset_irqD_coreOf]; exact .inr rfl
    case h_5 => simp only [State.reset_irqD_coreOf]; exact .inr rfl
    case h_6 => exact noneOrZero_none
  · exact noneOrZero_none

theorem reset_viewPwr {off : Nat} (h : off ∉ Blk.pwr.setOffsets) : noneOrZero (State.reset.viewPwr off) := by
  unfold State.viewPwr
  dsimp only
  split
  case h_2 => exact absurd (by decide) h
  case h_5 => exact noneOrZero_none
  all_goals exact .inr rfl

theorem reset_viewSnp (off : Nat) : noneOrZero (State.reset.viewSnp off) := by
  unfold State.viewSnp
  split
  · exact .inr rfl
  · exact noneOrZero_none

theorem chk_setOffsets : ∀ u < 16, ∀ j ∈ [0x08, 0x10], 0x100 + 0x20 * u + j ∈ Blk.chk.setOffsets := by decide

theorem reset_viewChk {off : Nat} (h : off ∉ Blk.chk.setOffsets) : noneOrZero (State.reset.viewChk off) := by
  unfold State.viewChk
  split
  · next hunit =>
    have hset (j : Nat) (hj : j ∈ [0x08, 0x10]) (hoff : off % 0x20 = j) : False := by
      refine h ?_
      rw [show off = 0x100 + 0x20 * ((off - 0x100) / 0x20) + j by omega]
      exact chk_setOffsets _ (by omega) j hj
    simp only [State.reset_chkU]
    split
    case h_1 ho => exact (hset _ (by decide) ho).elim
    case h_2 => exact .inr rfl
    case h_3 ho => exact (hset _ (by decide) ho).elim
    case h_4 => exact noneOrZero_none
  · exact noneOrZero_none

theorem reset_viewErr (off : Nat) : noneOrZero (State.reset.viewErr off) := by
  unfold State.viewErr
  split
  · simp [State.reset, SMap.get, wordN, noneOrZero]
  · exact noneOrZero_none

theorem reset_viewImg {off : Nat} (h : off ∉ Blk.img.setOffsets) : noneOrZero (State.reset.viewImg off) := by
  unfold State.viewImg
  split
  case h_1 => exact absurd (by decide) h
  case h_3 => exact absurd (by decide) h
  case h_6 => exact noneOrZero_none
  all_goals exact .inr rfl

theorem reset_viewTsk {d off : Nat} (h : off ∉ (Blk.tsk d).setOffsets) : noneOrZero (State.reset.viewTsk d off) := by
  unfold State.viewTsk
  split
  case h_1 => exact absurd (show 0x1C ∈ (Blk.tsk 0).setOffsets by decide) h
  case h_2 => exact .inr rfl
  case h_3 => exact .inr (by simp [State.readyTasks, countIf, packFields])
  case h_4 => exact noneOrZero_none

theorem reset_viewVec {d off : Nat} (h : off ∉ (Blk.vec d).setOffsets) : noneOrZero (State.reset.viewVec d off) := by
  unfold State.viewVec
  simp only [State.reset_unit]
  split
  case h_2 => exact absurd (show 0x14 ∈ (Blk.vec 0).setOffsets by decide) h
  case h_6 => exact noneOrZero_none
  all_goals exact .inr rfl

theorem reset_viewMxe (d off : Nat) : noneOrZero (State.reset.viewMxe d off) := by
  have hb (c : Nat) : State.reset.coreBusy d c = false := rfl
  have hs (c : Nat) : State.reset.coreStalled d c = false := rfl
  unfold State.viewMxe
  split
  case h_1 => simp only [State.reset_conv, funext hb, funext hs]; exact .inr rfl
  case h_2 => exact .inr rfl
  case h_3 => exact noneOrZero_none

theorem reset_viewUpd (d off : Nat) : noneOrZero (State.reset.viewUpd d off) := by
  unfold State.viewUpd State.updStatus
  simp only [State.reset_updD]
  split
  case h_3 => exact noneOrZero_none
  all_goals exact .inr rfl

theorem reset_viewRed (off : Nat) : noneOrZero (State.reset.viewRed off) := by
  unfold State.viewRed
  simp only [State.reset_chan]
  split
  · exact .inr rfl
  split
  · split
    case h_5 => exact noneOrZero_none
    all_goals exact .inr rfl
  · exact noneOrZero_none

theorem reset_viewMem (d off : Nat) : noneOrZero (State.reset.viewMem d off) := by
  have hp : SMap.get (fun _ => []) State.reset.mem.plan d = [] := rfl
  unfold State.viewMem
  simp only [hp, State.reset_silt]
  split
  case h_4 => exact noneOrZero_none
  all_goals exact .inr rfl

theorem reset_viewEzl {off : Nat} (h : off ∉ Blk.ezl.setOffsets) : noneOrZero (State.reset.viewEzl off) := by
  have ho : off ≠ 0x1C := by rintro rfl; exact h (by decide)
  unfold State.viewEzl
  simp only [State.reset_lnk, if_neg ho]
  iterate 7
    split
    · exact .inr rfl
  exact noneOrZero_none

/-! With no array map and no array changed, a die holds nothing. -/

theorem reset_backPressure (k : Nat) : State.reset.backPressure k = false := by
  simp [State.backPressure, oldestIn]

theorem reset_activeSlots (k : Nat) : State.reset.activeSlots k = 0 := by
  have hp : State.reset.arr.phys = [] := rfl
  simp [State.activeSlots, hp]

theorem reset_clipgData (k : Nat) : State.reset.clipgData k = 0 := by
  simp [State.clipgData, SMap.get]

theorem reset_layerList : State.reset.layerList = [] := by
  simp [State.layerList, State.reset]

theorem reset_calAgeMax (k : Nat) : State.reset.calAgeMax k = 0 := by
  simp [State.calAgeMax, State.activeArrays, State.allPos, State.reset]

theorem reset_busyTiles (k : Nat) : State.reset.busyTiles k = 0 := by
  simp [State.busyTiles, State.reset]

theorem reset_viewArr {k off : Nat} (h : off ∉ (Blk.arr k).setOffsets) : noneOrZero (State.reset.viewArr k off) := by
  have hp : State.reset.allPos = [] := rfl
  unfold State.viewArr
  split
  case h_1 => exact .inr (by simp [packFields, reset_backPressure, reset_activeSlots])
  case h_2 => exact absurd (show 0x10 ∈ (Blk.arr 0).setOffsets by decide) h
  case h_3 => exact .inr rfl
  case h_4 => exact .inr (by rw [reset_clipgData]; rfl)
  case h_5 => exact .inr (by simp [packFields, countIf, reset_layerList, reset_calAgeMax])
  case h_6 => exact .inr (by simp [packFields, hp, reset_busyTiles])
  case h_7 => exact absurd (show 0x120 ∈ (Blk.arr 0).setOffsets by decide) h
  case h_8 => exact .inr rfl
  case h_9 => exact .inr rfl
  case h_10 => exact noneOrZero_none

theorem reset_viewDuty (off : Nat) : noneOrZero (State.reset.viewDuty off) := by
  unfold State.viewDuty
  split
  case h_5 => exact noneOrZero_none
  all_goals exact .inr rfl

/-- Where the reset value is zero, a block of the register map forms no value or zero at reset. -/
theorem reset_viewOf {base span : Nat} {b : Blk} (hb : (base, span, b) ∈ blkTable) {off : Nat} (h : off ∉ b.setOffsets) :
    noneOrZero (State.reset.viewOf? b off) := by
  cases b with
  | id => exact reset_viewId off
  | hif => exact reset_viewHif h
  | irq d =>
    have hd : d < 2 := by simp [blkTable, blkTableLow, blkTableArr] at hb; omega
    exact reset_viewIrq hd h
  | pwr => exact reset_viewPwr h
  | snp => exact reset_viewSnp off
  | chk => exact reset_viewChk h
  | err => exact reset_viewErr off
  | img => exact reset_viewImg h
  | tsk d => exact reset_viewTsk h
  | vec d => exact reset_viewVec h
  | mxe d => exact reset_viewMxe d off
  | upd d => exact reset_viewUpd d off
  | red => exact reset_viewRed off
  | mem d => exact reset_viewMem d off
  | ezl => exact reset_viewEzl h
  | arr k => exact reset_viewArr h
  | duty => exact reset_viewDuty off

/-! ### Reads at reset -/

/-- The MSI-X table holds the values that are written to it, and none of its registers is WO. -/
theorem msix_row {a off : Nat} {b : Blk} {r : RegRow} (h : rowAt a = some (b, off, r)) (h1 : 0x11000 ≤ a) (h2 : a < 0x11400) :
    b = .hif ∧ off = a - 0x10000 ∧ r.acc ≠ .wo := by
  obtain ⟨hl, -, hf⟩ := rowAt_eq_some.1 h
  rw [locate_of_mem (base := 0x10000) (span := 0x2000) (b := .hif) (by decide) (by omega) (by omega)] at hl
  simp only [Option.some.injEq, Prod.mk.injEq] at hl
  obtain ⟨rfl, rfl⟩ := hl
  have hacc : ∀ r ∈ Blk.hif.rows, r.acc ≠ .wo := by decide
  exact ⟨rfl, rfl, hacc r (List.mem_of_find?_eq_some hf)⟩

theorem viewHif_msix (s : State) {off : Nat} (h : 0x1000 ≤ off) : s.viewHif off = none := by
  unfold State.viewHif
  dsimp only
  split
  case h_9 => rfl
  all_goals omega

/-- Every register reads its reset value after reset (R8). -/
theorem reset_view_eq {a off : Nat} {b : Blk} {r : RegRow} (h : rowAt a = some (b, off, r)) : State.reset.view a = regReset a := by
  obtain ⟨base, span, hmem, hle, hlt, hoff⟩ := mem_of_locate (rowAt_eq_some.1 h).1
  by_cases hset : off ∈ b.setOffsets
  · have := reset_view_set _ hmem off hset
    rwa [show base + off = a by omega] at this
  · obtain ⟨b', hc, hrows, hreset⟩ := rowAt_canonAddr h
    have hset' : off ∉ b'.setOffsets := by unfold Blk.setOffsets at *; rwa [hrows]
    obtain ⟨_, _, hmem', -⟩ := mem_of_locate (rowAt_eq_some.1 hc).1
    rw [← hreset]
    simp only [State.view, hc, State.reset_reg]
    by_cases hx : 0x11000 ≤ canonAddr a ∧ canonAddr a < 0x11400
    · obtain ⟨rfl, ho, hacc⟩ := msix_row hc hx.1 hx.2
      rw [if_neg hacc, State.viewOf?, viewHif_msix _ (by omega)]
      rfl
    · have hz : regReset (canonAddr a) = 0 := by rw [regReset_of_rowAt hc hx, reset_eq_zero hc hset']; rfl
      rw [hz]
      rcases reset_viewOf hmem' hset' with hv | hv <;> simp [hv]

/-- The reset value of a register is that of its row, or 1 for the control word of an MSI-X vector. -/
theorem regReset_row {a off : Nat} {b : Blk} {r : RegRow} (h : rowAt a = some (b, off, r)) :
    regReset a = BitVec.ofNat 32 r.reset ∨ (0x11000 ≤ a ∧ a < 0x11400 ∧ a % 16 = 12 ∧ regReset a = 1#32) := by
  by_cases hx : 0x11000 ≤ a ∧ a < 0x11400
  · obtain ⟨rfl, ho, -⟩ := msix_row h hx.1 hx.2
    have hlow : ∀ o ∈ Blk.hif.setOffsets, o < 0x1000 := by decide
    rw [reset_eq_zero h (fun hm => by have := hlow off hm; omega)]
    unfold regReset
    rw [if_pos (by simpa using hx)]
    by_cases hv : a % 16 = 12
    · exact .inr ⟨hx.1, hx.2, hv, if_pos hv⟩
    · exact .inl (if_neg hv)
  · exact .inl (regReset_of_rowAt h hx)

end Sys2Proof.Machine
end

section
/-! Register accesses (R4 to R9): what a write or a read of an answered address does, the two halves of a pair, and the named reads and
writes of the state's keyed parts. -/

namespace Sys2Proof.Machine

/-! ### The two halves of a pair (R6, R7) -/

/-- Requesters have different codes below 9, so they never share a key. -/
theorem pairKey_ne {rq q : Requester} (h : rq ≠ q) {a b : Nat} (ha : a < 2 ^ 32) (hb : b < 2 ^ 32) : pairKey q b ≠ pairKey rq a := by
  have hc : rq.code ≠ q.code := by
    cases rq <;> cases q <;> simp_all [Requester.code, Fin.ext_iff] <;> omega
  unfold pairKey
  omega

@[simp] theorem State.captured_capture (s : State) (rq : Requester) (a : Nat) (w : Word) : (s.capture rq a w).captured rq a = some w := by
  simp [State.captured, State.capture]

@[simp] theorem State.captured_capUsed (s : State) (rq : Requester) (a : Nat) : (s.capUsed rq a).captured rq a = none := by
  simp [State.captured, State.capUsed]

theorem State.captured_capture_other (s : State) {rq q : Requester} (h : rq ≠ q) {a b : Nat} (ha : a < 2 ^ 32) (hb : b < 2 ^ 32) (w : Word) :
    (s.capture rq a w).captured q b = s.captured q b := by
  simp only [State.captured, State.capture, SMap.get_set_ne (α := Option Word) (pairKey_ne h ha hb)]

theorem State.captured_capUsed_other (s : State) {rq q : Requester} (h : rq ≠ q) {a b : Nat} (ha : a < 2 ^ 32) (hb : b < 2 ^ 32) :
    (s.capUsed rq a).captured q b = s.captured q b := by
  simp only [State.captured, State.capUsed, SMap.get_set_ne (α := Option Word) (pairKey_ne h ha hb)]

@[simp] theorem State.loHeld_loWrite (s : State) (rq : Requester) (a : Nat) (v : Word) : (s.loWrite rq a v).loHeld rq a = v := by
  simp [State.loHeld, State.loWrite]

@[simp] theorem State.loHeld_loUsed (s : State) (rq : Requester) (a : Nat) : (s.loUsed rq a).loHeld rq a = 0 := by
  simp [State.loHeld, State.loUsed]

/-! ### Accesses of an answered address -/

section Access
variable {s : State} {rq : Requester} {off o : Nat} {b : Blk} {r : RegRow}

/-- A write to an answered register without an effect of its own goes by its access type, and the notes follow. -/
theorem execRegisterWrite_row {v : Word} (hb : s.blocked rq off = false) (hw : inSnapWindow off = false)
    (hr : rowAt (canonAddr off) = some (b, o, r)) (hs : s.writeSpecial rq b o v = none) :
    exec (.registerWrite rq off v) s = .next (((s.rowWrite rq (canonAddr off) o r v).notePwm b o).noteCtrl b o) := by
  show Host.Outcome.next (s.writeBar0 rq off v) = _
  simp [State.writeBar0, hb, hw, hr, hs]

/-- What a read of either half of a pair gives, and what it leaves. -/
theorem State.readBar0_pair (hb : s.blocked rq off = false) (hw : inSnapWindow off = false)
    (hr : rowAt (canonAddr off) = some (b, o, r)) (hp : r.pair = true) :
    s.readBar0 rq off = if r.isHi o then ((s.captured rq (canonAddr off - 4)).getD (s.view (canonAddr off)), s.capUsed rq (canonAddr off - 4))
      else (s.view (canonAddr off), s.capture rq (canonAddr off) (s.view (canonAddr off + 4))) := by
  simp [State.readBar0, hb, hw, hr, hp]

/-- PAIR_LO_READ of the _LO half of a pair is a read of it, answered. -/
theorem execPairLoRead_lo (hr : rowAt (canonAddr off) = some (b, o, r)) (hp : r.pair = true) (hl : r.isHi o = false) :
    exec (.pairLoRead rq off) s = .next ((s.readBar0 rq off).2.emit (.reply rq off (s.readBar0 rq off).1)) := by
  show Host.Outcome.next (pairLoRead rq off s) = _
  simp [pairLoRead, isPairLo, hr, hp, hl]

end Access

/-! ### What a write notes beside the register -/

/-- The registers whose writes have effects through `State.noteCtrl`: SNP_CTRL, IRQ_CTRL and ARR_GOV_CAP. -/
def Blk.ctrlAt (b : Blk) (o : Nat) : Bool := match b with
  | .snp => decide (o = 0)
  | .irq _ => decide (o = 0)
  | .arr _ => decide (o = 0xC)
  | _ => false

theorem State.noteCtrl_eq_self (s : State) {b : Blk} {o : Nat} (h : b.ctrlAt o = false) : s.noteCtrl b o = s := by
  cases b <;> simp_all [Blk.ctrlAt, State.noteCtrl]

theorem State.notePwm_eq_self (s : State) {b : Blk} {o : Nat} (h : b ≠ .pwr ∨ o < 0x38 ∨ 0x48 ≤ o) : s.notePwm b o = s := by
  unfold State.notePwm
  rw [if_neg (by rintro ⟨hb, h1, h2⟩; rcases h with h | h | h <;> [exact h hb; omega; omega])]

/-- The output registers of the coolant pumps have no effect but their note (R364). -/
theorem State.writePwr_pwm (s : State) (rq : Requester) {o : Nat} (v : Word) (h1 : 0x38 ≤ o) (h2 : o < 0x48) : s.writePwr rq o v = none := by
  unfold State.writePwr
  split
  · omega
  · omega
  · rfl

/-- A write to a register without an effect of its own and without a note goes by its access type alone. -/
theorem execRegisterWrite_plain {s : State} {rq : Requester} {off o : Nat} {b : Blk} {r : RegRow} {v : Word} (hb : s.blocked rq off = false)
    (hw : inSnapWindow off = false) (hr : rowAt (canonAddr off) = some (b, o, r)) (hs : s.writeSpecial rq b o v = none)
    (hp : b ≠ .pwr ∨ o < 0x38 ∨ 0x48 ≤ o) (hc : b.ctrlAt o = false) :
    exec (.registerWrite rq off v) s = .next (s.rowWrite rq (canonAddr off) o r v) := by
  rw [execRegisterWrite_row hb hw hr hs, State.notePwm_eq_self _ hp, State.noteCtrl_eq_self _ hc]

/-- SNP_CTRL.HOLD_VIEW keeps the view bank; without it the view follows the newest capture (R370). -/
theorem State.freeView_snp (s : State) :
    s.freeView.snp = { s.snp with view := if s.regB R.SNP_CTRL 4 then s.snp.view else s.newestBank } := by
  unfold State.freeView; split <;> rfl

/-- SNP_CTRL.EN clear empties the trigger queue and holds CAPT_OUT low (R373). -/
theorem State.snpOff_snp (s : State) :
    s.snpOff.snp = { s.snp with
      queue := if s.regB R.SNP_CTRL 0 then s.snp.queue else [], captOut := s.regB R.SNP_CTRL 0 && s.snp.captOut } := by
  unfold State.snpOff; split <;> simp_all [State.modSnp]

theorem State.regB_freeView (s : State) (a i : Nat) : s.freeView.regB a i = s.regB a i := by
  unfold State.freeView; split <;> rfl

/-! ### The rows of the control registers with a note -/

theorem rowAt_snpCtrl : rowAt (canonAddr R.SNP_CTRL) = some (.snp, 0, ⟨0x0, 1, 0x4, .rw, 0xFFFF1B, 0xFFFF1B, 0x0, 0xAF000, false⟩) := by decide

theorem canonAddr_irqCtrl : ∀ d : Fin 2, canonAddr (R.IRQ_CTRL d) = R.IRQ_CTRL d := by decide

theorem rowAt_irqCtrl : ∀ d : Fin 2,
    rowAt (canonAddr (R.IRQ_CTRL d)) = some (.irq d, 0, ⟨0x0, 1, 0x4, .rw, 0xF1, 0xF1, 0x0, 0x0, false⟩) := by decide

theorem canonAddr_govCap : ∀ k : Fin 16, canonAddr (R.ARR_GOV_CAP k) = R.ARR_GOV_CAP k := by decide

theorem rowAt_govCap : ∀ k : Fin 16,
    rowAt (canonAddr (R.ARR_GOV_CAP k)) = some (.arr k, 0xC, ⟨0xC, 1, 0x4, .rw, 0x3FF, 0x3FF, 0x0, 0x200, false⟩) := by decide

theorem inSnapWindow_low {a : Nat} (h : a < 0x1000000) : inSnapWindow a = false := by
  rw [inSnapWindow, decide_eq_false (by omega), Bool.false_and]

/-! ### Writes by access type (R9) -/

section RowWrite
variable (s : State) (rq : Requester) (a o : Nat) {r : RegRow} (v : Word)

theorem State.rowWrite_rw (ha : r.acc = .rw) (hp : r.pair = false) :
    s.rowWrite rq a o r v = s.setReg a ((s.reg a &&& ~~~wordN r.rw) ||| (v &&& wordN r.rw)) := by
  simp [State.rowWrite, ha, hp]

theorem State.rowWrite_lo (ha : r.acc = .rw) (hp : r.pair = true) (hl : r.isHi o = false) : s.rowWrite rq a o r v = s.loWrite rq a v := by
  simp [State.rowWrite, ha, hp, hl]

theorem State.rowWrite_hi (ha : r.acc = .rw) (hp : r.pair = true) (hh : r.isHi o = true) :
    s.rowWrite rq a o r v = s.hiWrite rq (a - 4) r.rw r.rwHi v := by
  simp [State.rowWrite, ha, hp, hh]

theorem State.rowWrite_w1c (ha : r.acc = .w1c) : s.rowWrite rq a o r v = s.setReg a (s.reg a &&& ~~~(v &&& wordN r.w1c)) := by
  simp [State.rowWrite, ha]

theorem State.rowWrite_ro (ha : r.acc = .ro ∨ r.acc = .rc) : s.rowWrite rq a o r v = s := by
  rcases ha with ha | ha <;> simp [State.rowWrite, ha]

end RowWrite

end Sys2Proof.Machine
end

section
/-! The statements on the reset state, the named operations and register accesses (R4 to R9). -/

namespace Sys2Proof.Proofs
open Sys2Proof Sys2Proof.Machine

/-- Settles O4: a register whose reset value is not zero is one of a short list, computed; the others read zero, since no block forms anything
but zero for them while nothing is kept in the state. -/
theorem everyRegisterReadsItsResetValue : Obligations.EveryRegisterReadsItsResetValue :=
  ⟨fun _ _ _ _ h => ⟨reset_view_eq h, regReset_row h⟩, by decide +kernel⟩

/-- Settles O5: every part of the reset state is at the default of its structure, and what is kept by key lists nothing. -/
theorem resetState : Obligations.ResetState := by
  refine ⟨rfl, rfl, rfl, rfl, ?links, rfl, State.reset_task, ?channels, State.reset_irqD_pend, ?credits, ?units, State.reset_cluster, ?dies,
    ?positions, rfl, rfl, rfl, rfl, rfl, fun _ => rfl⟩
  case links => exact fun l => by rw [State.reset_lnk]
  case credits => exact fun l => by rw [State.reset_lnk]
  case channels => exact fun c => by rw [State.reset_chan]
  case units => exact fun k => by rw [State.reset_unit]; exact ⟨rfl, rfl⟩
  case dies => exact fun d => by rw [State.reset_kao]; exact ⟨rfl, rfl⟩
  case positions => exact fun d p => by rw [State.reset_pos, posDefault]

/-- Settles O8: a keyed part is one sparse map, and a write of a sparse map reads back and leaves every other key (`SMap.get_set_self`,
`SMap.get_set_ne`). -/
theorem namedOperationsReadBack : Obligations.NamedOperationsReadBack := by
  refine ⟨?registers, ?queues, ?tasks, ?units, ?channels, ?updateUnits, ?contexts, ?controllers, ?links, ?checkUnits⟩
  case registers => exact fun s a b v => ⟨by simp [State.reg_setReg], fun h => by simp [State.reg_setReg, h]⟩
  case queues => exact fun s a b x => ⟨State.queue_setQueue s a x, State.queue_setQueue_ne s x⟩
  case tasks => exact fun s a b x => ⟨State.task_setTask s a x, State.task_setTask_ne s x⟩
  case units => exact fun s a b x => ⟨SMap.get_set_self, SMap.get_set_ne⟩
  case channels => exact fun s a b x => ⟨State.chan_setChan s a x, State.chan_setChan_ne s x⟩
  case updateUnits => exact fun s a b x => ⟨State.updD_setUpd s a x, State.updD_setUpd_ne s x⟩
  case contexts => exact fun s a b x => ⟨State.ctx_setCtx s a x, State.ctx_setCtx_ne s x⟩
  case controllers => exact fun s a b x => ⟨State.irqD_setIrq s a x, State.irqD_setIrq_ne s x⟩
  case links => exact fun s a b x => ⟨State.lnk_setLnk s a x, State.lnk_setLnk_ne s x⟩
  case checkUnits => exact fun s a b x => ⟨State.chkU_setChk s a x, State.chkU_setChk_ne s x⟩

/-- Settles O10: a read of the lower half captures the upper one under the requester's own key, and the read of the upper half takes it. -/
theorem pairReadCaptures : Obligations.PairReadCaptures := by
  refine ⟨?lo, ?hi, ?others⟩
  case lo =>
    intro s rq off o b r hb hw hr hp hl
    rw [execPairLoRead_lo hr hp hl, State.readBar0_pair hb hw hr hp, hl]
    rfl
  case hi =>
    intro s rq off o b r w hb hw hr hp hh
    have hb' : (s.capture rq (canonAddr off - 4) w).blocked rq off = false := hb
    rw [State.readBar0_pair hb' hw hr hp, State.readBar0_pair hb hw hr hp, hh]
    exact ⟨by simp, by simp, fun hn => by simp [hn]⟩
  case others =>
    exact fun s rq q a b w hne ha hb => ⟨s.captured_capture_other hne ha hb w, s.captured_capUsed_other hne ha hb⟩

/-- Settles O9: a write without an effect of its own is `State.rowWrite` by the row's access type; of the registers with a note, the note
follows. -/
theorem registerWriteFollowsAccessType : Obligations.RegisterWriteFollowsAccessType := by
  refine ⟨?rw, ?w1c, ?ro, ?lo, ?hi, ?snpCtrl, ?pwm, ?irqCtrl, ?govCap, ?held⟩
  case rw =>
    intro s rq off o v b r hb hw hr hs hpw hc hp ha
    rw [execRegisterWrite_plain hb hw hr hs hpw hc, State.rowWrite_rw s rq _ o v ha hp]
  case w1c =>
    intro s rq off o v b r hb hw hr hs hpw hc ha
    rw [execRegisterWrite_plain hb hw hr hs hpw hc, State.rowWrite_w1c s rq _ o v ha]
  case ro =>
    intro s rq off o v b r hb hw hr hs hpw hc ha
    rw [execRegisterWrite_plain hb hw hr hs hpw hc, State.rowWrite_ro s rq _ o v ha]
  case lo =>
    intro s rq off o v b r hb hw hr hs hpw hc hp hl ha
    rw [execRegisterWrite_plain hb hw hr hs hpw hc, State.rowWrite_lo s rq _ o v ha hp hl]
  case hi =>
    intro s rq off o v b r hb hw hr hs hpw hc hp hh ha
    rw [execRegisterWrite_plain hb hw hr hs hpw hc, State.rowWrite_hi s rq _ o v ha hp hh]
    rfl
  case snpCtrl =>
    intro s rq v hb
    refine ⟨_, rfl, ?_⟩
    have hx := execRegisterWrite_row (v := v) hb (inSnapWindow_low (by decide)) rowAt_snpCtrl rfl
    rw [State.rowWrite_rw s rq _ 0 v rfl rfl, State.notePwm_eq_self _ (.inl (by decide))] at hx
    refine ⟨hx, ?_, ?_, ?_, ?_, ?_⟩
    · rw [State.freeView_snp, State.setReg_snp]
    · rw [State.snpOff_snp]
    · rw [(State.snpOff_frame _).1, (State.freeView_frame _).1]
    · rw [State.snpOff_snp, State.freeView_snp, State.regB_freeView, State.setReg_snp]
    · rw [State.snpOff_snp, State.freeView_snp, State.regB_freeView, State.setReg_snp]
  case pwm =>
    intro s rq off o v r hb hw hr h1 h2 hp ha
    rw [execRegisterWrite_row hb hw hr (s.writePwr_pwm rq v h1 h2), State.rowWrite_rw s rq _ o v ha hp, State.noteCtrl_eq_self _ rfl,
      State.notePwm, if_pos ⟨rfl, h1, h2⟩]
  case irqCtrl =>
    intro s rq d v hb
    rw [execRegisterWrite_row hb (inSnapWindow_low (by unfold R.IRQ_CTRL; omega)) (rowAt_irqCtrl d) rfl,
      State.rowWrite_rw s rq _ 0 v rfl rfl, State.notePwm_eq_self _ (.inr (.inl (by decide))), canonAddr_irqCtrl]
    rfl
  case govCap =>
    intro s rq k v hb
    refine ⟨_, rfl, ?_⟩
    rw [execRegisterWrite_row hb (inSnapWindow_low (by unfold R.ARR_GOV_CAP; omega)) (rowAt_govCap k) rfl,
      State.rowWrite_rw s rq _ 0xC v rfl rfl, State.notePwm_eq_self _ (.inr (.inl (by decide))), canonAddr_govCap]
    rfl
  case held => exact fun s rq a v w => ⟨State.loHeld_loWrite _ rq a w, State.loHeld_loUsed _ rq a⟩

end Sys2Proof.Proofs
end

section
/-! SUPPORT. The committed-state window: what a host write leaves of both state copies. -/

namespace Sys2Proof.Machine
open Sys2Proof

/-- The bytes of `bs`, written from address `o` on, over what `old` holds, at the addresses where `h` allows a write. -/
def overlay (h : Nat → Bool) (o : Nat) (bs : List Byte) (old : Nat → Byte) (x : Nat) : Byte :=
  if o ≤ x ∧ x < o + bs.length ∧ h x = true then bs.getD (x - o) 0 else old x

@[simp] theorem overlay_nil (h : Nat → Bool) (o : Nat) (old : Nat → Byte) : overlay h o [] old = old := by
  funext x; unfold overlay; rw [if_neg (by simp only [List.length_nil]; omega)]

/-- The first byte is written, then the others over it. -/
theorem overlay_cons (h : Nat → Bool) (o : Nat) (b : Byte) (bs : List Byte) (old : Nat → Byte) :
    overlay h o (b :: bs) old = overlay h (o + 1) bs (fun x => if x = o ∧ h o = true then b else old x) := by
  funext x
  simp only [overlay, List.length_cons]
  by_cases hx : x = o
  · subst hx
    by_cases hh : h x = true <;> simp [hh]
  · have hin : (o ≤ x ∧ x < o + (bs.length + 1) ∧ h x = true) ↔ o + 1 ≤ x ∧ x < o + 1 + bs.length ∧ h x = true := by
      rw [← and_assoc, ← and_assoc]; exact and_congr_left' (by omega)
    simp only [hin, hx, false_and, if_false]
    split
    · next hx' => rw [show x - o = (x - (o + 1)) + 1 by omega, List.getD_cons_succ]
    · rfl

/-- A write of both copies changes them alone, and each of them at the bytes that hold state (R24). -/
theorem State.writeCopies_spec (s : State) (o : Nat) (bs : List Byte) :
    (s.writeCopies o bs).mem.hbm = s.mem.hbm ∧ (s.writeCopies o bs).regs = s.regs ∧ (s.writeCopies o bs).stp = s.stp ∧
      (s.writeCopies o bs).upd = s.upd ∧ (s.writeCopies o bs).mem.copy0.byte = overlay s.upd.holds o bs s.mem.copy0.byte ∧
      (s.writeCopies o bs).mem.copy1.byte = overlay s.upd.holds o bs s.mem.copy1.byte := by
  induction bs generalizing s o with
  | nil => simp [State.writeCopies]
  | cons b bs ih =>
    have hset : ∀ c : CopyMem, (fun x => if x = o then b else c.byte x) = (c.set o b).byte := fun c => by
      funext x
      split
      · next h => rw [h, CopyMem.byte_set]
      · next h => rw [CopyMem.byte_set_ne c b h]
    rw [State.writeCopies, overlay_cons, overlay_cons]
    by_cases hh : s.upd.holds o = true
    · simpa [hh, hset, State.modMem] using ih (s.modMem fun m => { m with copy0 := m.copy0.set o b, copy1 := m.copy1.set o b }) (o + 1)
    · simpa [hh] using ih s (o + 1)
end Sys2Proof.Machine

namespace Sys2Proof.Proofs
open Sys2Proof Sys2Proof.Machine

/-- Settles O20: the branches of the two window commands; a host write stores byte by byte. -/
theorem committedWindow : Obligations.CommittedWindow := by
  refine ⟨?read, ?write, ?hold, ?beyond, ?copies, ?busy, ?ring⟩
  case read =>
    intro s off len hr
    show Host.Outcome.next (committedWindowRead off len s) = _
    rw [committedWindowRead, if_pos hr]
    rfl
  case write =>
    intro s off bs hr hq ho hs hh
    show Host.Outcome.next (committedWindowWrite off bs s) = _
    simp [committedWindowWrite, winSize, State.holdOrWrite, hr, hq, hh, Nat.not_le.2 ho, Nat.not_le.2 hs]
  case hold =>
    intro s off bs d hr hq ho hs hh
    show Host.Outcome.next (committedWindowWrite off bs s) = _
    simp [committedWindowWrite, winSize, State.holdOrWrite, hr, hq, hh, Nat.not_le.2 ho, Nat.not_le.2 hs]
  case beyond =>
    intro s off bs hr ho hs
    show Host.Outcome.next (committedWindowWrite off bs s) = _
    simp [committedWindowWrite, winSize, hr, hs, Nat.not_le.2 ho]
  case copies =>
    intro s o bs
    obtain ⟨hhbm, hregs, hstp, hupd, h0, h1⟩ := s.writeCopies_spec o bs
    exact ⟨_, rfl, hhbm, hregs, hstp, hupd, fun x => ⟨congrFun h0 x, congrFun h1 x⟩⟩
  case busy =>
    intro s off bs hr hq ho hs
    show Host.Outcome.next (committedWindowWrite off bs s) = _
    simp [committedWindowWrite, winSize, hr, hq, Nat.not_le.2 ho, Nat.not_le.2 hs]
  case ring =>
    intro s off bs hr
    have hring : stepRecordRingWrite off bs s = s.log 9 1 0xFF 1 (off + bs.length * 2 ^ 64) := if_pos hr
    refine ⟨congrArg Host.Outcome.next hring, fun h1 h2 => ?_⟩
    show Host.Outcome.next (committedWindowWrite off bs s) = _
    rw [committedWindowWrite, if_neg (by simp [hr]), if_pos (show winSize ≤ off from h1), if_pos (show off < winSize + winLogs from h2), hring]
end Sys2Proof.Proofs
end

section
/-! SUPPORT. Decision queries and replies; the start of an attempt and the repeat boundary. -/

namespace Sys2Proof.Machine
open Sys2Proof

section Received
variable (s : State) (typ : Nat) (p : Frame → Bool)

@[simp] theorem State.takeRx_regs : (s.takeRx typ p).regs = s.regs := by simp only [State.takeRx_frame]
@[simp] theorem State.takeRx_out : (s.takeRx typ p).out = s.out := by simp only [State.takeRx_frame]
@[simp] theorem State.takeRx_stp : (s.takeRx typ p).stp = s.stp := by simp only [State.takeRx_frame]
@[simp] theorem State.takeRx_red : (s.takeRx typ p).red = s.red := by simp only [State.takeRx_frame]
@[simp] theorem State.takeRx_mem : (s.takeRx typ p).mem = s.mem := by simp only [State.takeRx_frame]
@[simp] theorem State.takeRx_reg (a : Nat) : (s.takeRx typ p).reg a = s.reg a := by simp only [State.reg, State.takeRx_regs]
@[simp] theorem State.takeRx_regB (a i : Nat) : (s.takeRx typ p).regB a i = s.regB a i := by simp only [State.regB, State.takeRx_reg]
@[simp] theorem State.takeRx_epoch : (s.takeRx typ p).epoch = s.epoch := by simp only [State.epoch, State.takeRx_reg]
@[simp] theorem State.takeRx_groupN : (s.takeRx typ p).groupN = s.groupN := by simp only [State.groupN, State.takeRx_red]

end Received

/-! ### The start of an attempt and the end of the repeats -/

/-- A state as an attempt starts: it is open, and nothing of an earlier attempt is left (R241). -/
def State.attemptOpened (s : State) (att : Nat) : State :=
  ((s.modStp (fun x => { x with
    phase := .forward, attempt := att, nextAtt := none, isOpen := true, due := none, halt := none, startTime := 0,
    duty := s.reg R.DUTY_SPLIT_USED, cnt := { exact := !s.clampDis } })).modMxe
      (fun m => { m with gradOut := [], ready := [] })).modFmt (fun f => { f with wireScale := [] })

/-- With a stash plan that holds and every channel on a link, the attempt starts with the launch of the step graph. -/
theorem State.startAttempt_launches {u : State} {a : Nat} (hf : u.mem.planFault = false) (hl : u.lostLink = none) :
    u.startAttempt a = (u.attemptOpened a).modTsk (fun t => { t with launchQ := t.launchQ ++
      [{ graph := u.polF R.TSK_STEP_GRAPH 7 0, src := .stepControl, tag := some (u.stepNum, a) }] }) := by
  have hf' : (u.attemptOpened a).mem.planFault = false := hf
  have hl' : (u.attemptOpened a).lostLink = none := hl
  show (if (u.attemptOpened a).mem.planFault then _ else match (u.attemptOpened a).lostLink with | some _ => _ | none => _) = _
  rw [hf', hl']
  rfl

/-- With a plan that fails the attempt sets HOLD_REQ and is aborted. -/
theorem State.startAttempt_planFault {u : State} {a : Nat} (hf : u.mem.planFault = true) :
    u.startAttempt a =
      (((u.attemptOpened a).eventLog R.MEM_EVENTS 9 0x13 1 0 0).setRegB R.STEP_CTRL 8 true).findAbort 7 0xFF 0xFFFFFFFF 0xFF :=
  if_pos (show (u.attemptOpened a).mem.planFault = true from hf)

/-- Exhausted repeats halt the member with REPEAT_EXHAUSTED and start nothing (R36). -/
theorem State.exhaust_spec (s : State) :
    s.exhaust.stp.phase = .halted ∧ s.exhaust.regB R.STEP_EVENTS 3 = true ∧ s.exhaust.tsk = s.tsk ∧ s.exhaust.mem = s.mem ∧
      s.exhaust.arr = s.arr :=
  ⟨rfl, s.regB_eventLog _ (by decide) (by decide) (by decide), by simp [State.exhaust], by simp [State.exhaust], by simp [State.exhaust]⟩

end Sys2Proof.Machine

namespace Sys2Proof.Proofs
open Sys2Proof Sys2Proof.Machine

/-- Settles O18: taking the frame out of the receive list leaves what the conditions read, so each command takes the branch they name. -/
theorem decisionQueriesAndReplies : Obligations.DecisionQueriesAndReplies := by
  refine ⟨?answered, ?unanswered, ?reply, ?direct, ?stale, ?host⟩
  case answered =>
    intro s c r hp hf
    refine ⟨_, rfl, ?_⟩
    show Host.Outcome.next (decisionQuery c s) = _
    simp [decisionQuery, hp, hf]
  case unanswered =>
    intro s c h
    show Host.Outcome.next (decisionQuery c s) = _
    rcases h with hp | hf
    · simp [decisionQuery, hp]
    · by_cases hp : s.red.pos = 0 <;> simp [decisionQuery, hp, hf]
  case reply =>
    intro s c d hd hp ho hv he
    refine ⟨_, rfl, ?_⟩
    show Host.Outcome.next (decisionReply c s) = _
    simp [decisionReply, hd, hp, ho, hv, he]
  case direct =>
    intro s c d hd hp he ho
    refine ⟨_, rfl, ?_⟩
    show Host.Outcome.next (decisionDirect c s) = _
    simp [decisionDirect, hd, hp, ho, Nat.not_lt.2 he]
  case stale =>
    intro s c d hd ha ho hh
    show Host.Outcome.next (decisionDirect c s) = _
    simp [decisionDirect, hd, ha, ho, hh]
  case host =>
    intro s c hp he ho hh
    refine ⟨_, rfl, fun hd => ?_, fun hd => ?_⟩ <;> show Host.Outcome.next (decisionDirect c s) = _ <;>
      simp [decisionDirect, hd, hp, ho, hh, Nat.not_lt.2 he]

/-- Settles O13: a repeat moves channels off removed links and starts the attempt; neither takes a pending change. -/
theorem repeatBoundaryTakesNoPendingChange : Obligations.RepeatBoundaryTakesNoPendingChange := by
  refine ⟨?again, ?exhausted, ?full, ?other⟩
  case again =>
    intro s hp hd ht hh hl hf hlost
    refine ⟨s.moveChannels.startAttempt s.attNum, ?_, ?_⟩
    · show Host.Outcome.next (repeatBoundary s) = _
      simp [repeatBoundary, hp, hd, ht, hh, hl]
    · have hf' : s.moveChannels.mem.planFault = false := by simp only [State.moveChannels_frame, hf]
      rw [State.startAttempt_launches hf' hlost]
      simp [State.moveChannels_frame, State.attemptOpened]
  case exhausted =>
    intro s hp hd ht hh
    refine ⟨s.exhaust, ?_, ?_⟩
    · show Host.Outcome.next (repeatBoundary s) = _
      simp [repeatBoundary, hp, hd, ht, hh]
    · exact s.exhaust_spec
  case full =>
    intro s hh hl
    show Host.Outcome.next (repeatBoundary s) = _
    simp [repeatBoundary, hh, hl]
  case other =>
    intro s h
    show Host.Outcome.next (repeatBoundary s) = _
    have h' : ¬ (s.stp.phase = .boundary ∧ s.stp.due = some .again ∧ (!s.abortedTasks) = true) := by simpa using h
    rw [repeatBoundary, if_neg h']
end Sys2Proof.Proofs
end

section
/-! SUPPORT. The vote of a member that is ready. -/

namespace Sys2Proof.Machine
open Sys2Proof

/-! ### Readiness (R27, R47) -/

/-- A member as it has become ready with its own evaluation of the skip: the draft record is written, PHASE is VOTE. -/
def State.readied (s : State) (skip : Bool) : State :=
  (s.draftRecord.modStp (fun x => { x with phase := .vote, skipVote := skip })).when skip (fun s => s.event R.UPD_EVENTS 4)

section Ready
variable (s : State) (k : Bool)

@[simp] theorem State.readied_red : (s.readied k).red = s.red := by cases k <;> rfl
@[simp] theorem State.readied_out : (s.readied k).out = s.out := by cases k <;> rfl
@[simp] theorem State.readied_mem : (s.readied k).mem = s.draftRecord.mem := by cases k <;> rfl
@[simp] theorem State.readied_stp : (s.readied k).stp = { s.stp with drafted := true, phase := .vote, skipVote := k } := by cases k <;> rfl
@[simp] theorem State.readied_groupN : (s.readied k).groupN = s.groupN := by simp only [State.groupN, State.readied_red]

end Ready

/-- A member that becomes ready alone applies its decision; in a larger group position 0 sends the first pass and the others forward. -/
theorem memberReady_eq {s : State} {k : Bool} (ho : s.stp.isOpen = true) (hd : s.stp.drafted = false) (hf : s.stp.fixed = none)
    (hp : s.partsDone = true) (hk : ((s.updD 0).skip || (s.updD 1).skip) = k) :
    memberReady s =
      if s.groupN ≤ 1 then (s.readied k).applyDecision (if k then .skip else .commit) (s.readied k).stepNum (s.readied k).stp.attempt 0 0xFF
        ((s.readied k).regB R.STEP_CTRL 8)
      else if s.red.pos = 0 then (if s.stp.firstSent then s.readied k else (s.readied k).sendFirst)
      else (s.readied k).readyForward := by
  rw [← State.readied_groupN s k, ← State.readied_red s k, memberReady, if_pos (by simp [ho, hd, hf, hp]), hk]
  cases k <;> rfl

end Sys2Proof.Machine

namespace Sys2Proof.Proofs
open Sys2Proof Sys2Proof.Machine

/-- Settles O15: the branches of `memberReady_eq`. -/
theorem readyMemberVotes : Obligations.ReadyMemberVotes := by
  refine ⟨?commits, ?skips, ?first, ?waits, ?other⟩
  case commits =>
    intro s ho hd hf hp h0 h1 hn
    refine ⟨s.readied false, rfl, by simp, ?_⟩
    show Host.Outcome.next (memberReady s) = _
    rw [memberReady_eq ho hd hf hp (k := false) (by simp [h0, h1]), if_pos hn]
    rfl
  case skips =>
    intro s ho hd hf hp hk hn
    refine ⟨s.readied true, rfl, ?_⟩
    show Host.Outcome.next (memberReady s) = _
    rw [memberReady_eq ho hd hf hp (k := true) (by simpa using hk), if_pos hn]
    rfl
  case first =>
    intro s ho hd hf hp hn hpos hs
    refine ⟨s.readied _, _, ?_, rfl, by simp, by simp, by rw [State.readied_stp], by simp, by simp, ?_⟩
    · show Host.Outcome.next (memberReady s) = _
      rw [memberReady_eq ho hd hf hp rfl, if_neg (Nat.not_le.2 hn), if_pos hpos, hs]
      rfl
    · simp [State.sendToken_frame]
  case waits =>
    intro s ho hd hf hp hn hpos hw
    refine ⟨s.readied ((s.updD 0).skip || (s.updD 1).skip), ?_, by simp, by simp, by simp, by simp⟩
    show Host.Outcome.next (memberReady s) = _
    rw [memberReady_eq ho hd hf hp rfl, if_neg (Nat.not_le.2 hn), if_neg hpos, State.readyForward, State.readied_stp, hw]
  case other =>
    intro s h
    show Host.Outcome.next (memberReady s) = _
    rw [memberReady, if_neg]
    rcases h with h | h | h | h
    · simp [h]
    · simp [h]
    · simp [Option.isNone_eq_false_iff.2 h]
    · simp [h]
end Sys2Proof.Proofs
end

section
/-! SUPPORT. Abort requests and the timeouts of a lost token. -/

namespace Sys2Proof.Machine
open Sys2Proof

/-! ### Registers while frames are sent -/

/-- A step towards a module leaves by one of the six ports. -/
theorem routePort_lt {size here dst q : Nat} (h : routePort size here dst = some q) : q < 6 := by
  have hdir : ∀ n a b, ringDir n a b ≤ 2 := fun n a b => by
    unfold ringDir; split
    · omega
    · dsimp only; split <;> omega
  unfold routePort at h
  dsimp only at h
  split at h
  · cases h; have := hdir (podDims size).1 (podCoord size here).1 (podCoord size dst).1; omega
  · split at h
    · cases h; have := hdir (podDims size).2.1 (podCoord size here).2.1 (podCoord size dst).2.1; omega
    · split at h
      · cases h; have := hdir (podDims size).2.2 (podCoord size here).2.2 (podCoord size dst).2.2; omega
      · cases h

/-- The links of a port are among the 18. -/
theorem State.upLink_lt {s : State} {q l : Nat} (hq : q < 6) (h : s.upLink q = some l) : l < 18 := by
  have := List.mem_of_find?_eq_some h
  simp only [portLinks, List.mem_cons, List.not_mem_nil, or_false] at this
  omega

section Sending
variable {s : State} {l a : Nat}

/-- Sending a flit writes no register but the flit counter of its link. -/
theorem State.sendFlit_reg (hl : l < 18) (ha : a < 0x1C0118 ∨ 0x1C0560 ≤ a) (typ stream src dst seq : Nat) (first last : Bool)
    (pay : List Byte) : (s.sendFlit l typ stream src dst seq first last pay).reg a = s.reg a := by
  have h1 : a ≠ R.EZL_Ll_FLITS l := by unfold R.EZL_Ll_FLITS; omega
  have h2 : a ≠ R.EZL_Ll_FLITS l + 4 := by unfold R.EZL_Ll_FLITS; omega
  unfold State.sendFlit
  dsimp only
  rw [State.reg, State.emit_regs, ← State.reg, State.incPair, State.reg_setPair _ _ _ h1 h2]
  rfl

theorem State.pumpOne_reg (hl : l < 18) (ha : a < 0x1C0118 ∨ 0x1C0560 ≤ a) : (s.pumpOne l).reg a = s.reg a := by
  unfold State.pumpOne
  dsimp only
  split
  · split
    · rfl
    · exact State.sendFlit_reg hl ha ..
  · rfl

theorem State.pumpFuel_reg (hl : l < 18) (ha : a < 0x1C0118 ∨ 0x1C0560 ≤ a) (n : Nat) : (State.pumpFuel n l s).reg a = s.reg a := by
  induction n generalizing s with
  | zero => rfl
  | succ n ih =>
    rw [State.pumpFuel]
    split
    · rw [ih, State.pumpOne_reg hl ha]
    · rfl

theorem State.sendOn_reg (hl : l < 18) (ha : a < 0x1C0118 ∨ 0x1C0560 ≤ a) (f : Frame) : (s.sendOn l f).reg a = s.reg a :=
  State.pumpFuel_reg hl ha _

/-- A frame sent by its route writes no register but flit counters. -/
theorem State.sendCtrl_reg (ha : a < 0x1C0118 ∨ 0x1C0560 ≤ a) (dst op : Nat) (c : CtrlMsg) : (s.sendCtrl dst op c).reg a = s.reg a := by
  unfold State.sendCtrl State.sendRouted
  split
  · rfl
  · next q hq =>
    split
    · next l hl => exact State.sendOn_reg (State.upLink_lt (routePort_lt hq) hl) ha _
    · split <;> rfl

end Sending

@[simp] theorem State.sendToken_stp (s : State) (t : Token) : (s.sendToken t).stp = s.stp := by simp only [State.sendToken_frame]
@[simp] theorem State.sendToken_mem (s : State) (t : Token) : (s.sendToken t).mem = s.mem := by simp only [State.sendToken_frame]
@[simp] theorem State.sendCtrl_stp (s : State) (dst op : Nat) (c : CtrlMsg) : (s.sendCtrl dst op c).stp = s.stp := by
  simp only [State.sendCtrl_frame]
@[simp] theorem State.sendCtrl_mem (s : State) (dst op : Nat) (c : CtrlMsg) : (s.sendCtrl dst op c).mem = s.mem := by
  simp only [State.sendCtrl_frame]

/-! ### Opening the next attempt for its decision (R216) -/

section OpenFor
variable (s : State)

theorem State.openFor_eq : s.openFor = { s with stp := s.openFor.stp } := by unfold State.openFor; split <;> rfl
@[simp] theorem State.openFor_regs : s.openFor.regs = s.regs := by rw [State.openFor_eq]
@[simp] theorem State.openFor_red : s.openFor.red = s.red := by rw [State.openFor_eq]
@[simp] theorem State.openFor_mem : s.openFor.mem = s.mem := by rw [State.openFor_eq]

/-- The attempt keeps its number, its votes and the copies. -/
theorem State.openFor_stp : s.openFor.stp.isOpen = true ∧ s.openFor.attNum = s.attNum ∧ s.openFor.stp.abort = s.stp.abort ∧
    s.openFor.stp.skipVote = s.stp.skipVote ∧ s.openFor.stp.waitToken = s.stp.waitToken ∧ s.openFor.stp.copySel = s.stp.copySel := by
  unfold State.openFor; split
  · next h => simp [h]
  · simp [State.attNum]

end OpenFor

/-- The first-pass token names the attempt and its group; a held request without a reason of position 0's own gives its reason and member. -/
theorem State.firstToken_spec (s : State) : s.firstToken.step = s.stepNum ∧ s.firstToken.attempt = s.attNum ∧ s.firstToken.epoch = s.epoch ∧
    s.firstToken.gid = s.red.gid ∧ s.firstToken.size = s.groupN ∧ s.firstToken.second = false ∧
    (∀ r, s.stp.heldReq = some r → s.firstToken.abort = true ∧ (s.stp.abort = none → s.firstToken.reason = r.1 ∧ s.firstToken.firstVoter = r.2)) := by
  unfold State.firstToken
  cases hr : s.stp.heldReq <;> cases ha : s.stp.abort <;> simp [State.vote, ha]

/-- Position 0 fixes a decision in its step state alone and sends the second pass. -/
theorem State.fixDecision_spec (s : State) (dec : Decision) (t : Token) :
    ∃ u : State, s.fixDecision dec t = u.sendToken { t with second := true, decision := some dec } ∧ u.red = s.red ∧ u.ezl = s.ezl ∧
      u.mem = s.mem ∧ u.stp = { s.stp with
        fixed := some { step := s.stepNum, attempt := s.attNum, epoch := s.epoch, decision := dec, reason := t.reason, voter := t.firstVoter, hold := t.hold }
        phase := if s.stp.phase.rest then s.stp.phase else .decided, secondSent := true } :=
  ⟨_, rfl, rfl, rfl, rfl, rfl⟩

/-- The first query of an attempt is recorded (R32). -/
def State.queryNoted (s : State) : State :=
  (s.eventLog R.STEP_EVENTS 5 9 4 0 s.stp.attempt).modStp (fun x =>
    { x with queried := true, phase := if x.phase.rest then x.phase else .decided })

/-- A member that waits for a decision sends the query of its own attempt. -/
theorem commitTimeout_eq {s : State} (ho : s.stp.isOpen = true) (hv : s.stp.voted = true) (hp : s.red.pos ≠ 0) (hn : 1 < s.groupN) :
    commitTimeout s = (if s.stp.queried then s else s.queryNoted).sendCtrl (s.moduleAt 0) 2
      { step := s.stepNum, attempt := s.attNum, epoch := s.epoch, src := s.me } := by
  rw [commitTimeout, if_pos ⟨ho, hv, hp, hn⟩]
  by_cases hq : s.stp.queried = true
  · rw [if_pos hq, if_pos hq]
  · rw [if_neg hq, if_neg hq]
    show s.queryNoted.sendCtrl (s.queryNoted.moduleAt 0) 2
      { step := s.queryNoted.stepNum, attempt := s.queryNoted.attNum, epoch := s.queryNoted.epoch, src := s.queryNoted.me } = _
    have hreg : ∀ a, a ≠ R.ERR_DROP_CNT → a ≠ R.ERR_EVENTS → a ≠ R.STEP_EVENTS → s.queryNoted.reg a = s.reg a := fun a h1 h2 h3 =>
      (State.reg_eventLog s _ a h1 h2).trans (if_neg h3)
    have hstep : s.queryNoted.stepNum = s.stepNum := by
      simp only [State.stepNum, State.pair, hreg R.STEP_COUNT (by decide) (by decide) (by decide),
        hreg (R.STEP_COUNT + 4) (by decide) (by decide) (by decide)]
    have hepoch : s.queryNoted.epoch = s.epoch := by
      simp only [State.epoch, hreg R.RED_EPOCH (by decide) (by decide) (by decide)]
    rw [hstep, hepoch]
    simp [State.queryNoted, State.moduleAt, State.attNum, State.groupN, State.me]

end Sys2Proof.Machine

namespace Sys2Proof.Proofs
open Sys2Proof Sys2Proof.Machine

/-- Settles O17: the branches of the four commands; what is sent writes no register but flit counters. -/
theorem abortRequestsAndTimeouts : Obligations.AbortRequestsAndTimeouts := by
  refine ⟨?late, ?held, ?first, ?timeout, ?noTimeout, ?query, ?noQuery, ?second, ?noSecond⟩
  case late =>
    intro s c hp hn h
    show Host.Outcome.next (abortRequest c s) = _
    simp [abortRequest, hp, Nat.not_le.2 hn, h]
  case held =>
    intro s c hp hn he hf hs
    refine ⟨_, rfl, ?_⟩
    simp [abortRequest, hp, Nat.not_le.2 hn, Nat.not_lt.2 he, hf, hs]
  case first =>
    intro s c hp hn he hf hs
    let r := s.takeRx 3 (fun f => f.startsWith (ctrlBytes 1 c))
    let u := r.openFor.modStp (fun x => { x with heldReq := some (c.reason, c.pos) })
    obtain ⟨hopen, hatt, habort, -, -, hcopy⟩ := r.openFor_stp
    obtain ⟨kstep, katt, kepoch, kgid, ksize, ksecond, kreq⟩ := u.firstToken_spec
    obtain ⟨kabort, kreason⟩ := kreq _ rfl
    have hregs : u.regs = s.regs := by simp [u, r]
    have hred : u.red = s.red := by simp [u, r]
    refine ⟨u, u.sendFirst, u.firstToken, ?_, rfl, hred, kabort, fun h => kreason ?_, ?_, ?_, ?_, ?_, ?_, ksecond, ?_⟩
    · show Host.Outcome.next (abortRequest c s) = _
      simp [abortRequest, hp, Nat.not_le.2 hn, Nat.not_lt.2 he, hf, hs, u, r]
    · exact habort.trans (by rw [State.takeRx_stp, h])
    · simp [kstep, State.stepNum, State.pair, State.reg, hregs]
    · exact katt.trans (hatt.trans (by simp [r, State.attNum]))
    · simp [kepoch, State.epoch, State.reg, hregs]
    · rw [kgid, hred]
    · simp [ksize, State.groupN, hred]
    · simp [State.sendFirst, u, r, hopen, hcopy]
  case timeout =>
    intro s hp hs hf h
    obtain ⟨u, hfix, hred, hezl, hmem, hstp⟩ := s.fixDecision_spec .abort { s.firstToken with abort := true }
    refine ⟨u, _, ?_, rfl, hred, hezl, ?_⟩
    · show Host.Outcome.next (abortRequestTimeout s) = _
      rw [abortRequestTimeout, if_pos ⟨hp, hs, by simp [hf], by simpa [Option.isSome_iff_ne_none] using h⟩, hfix]
    · simp [hstp, hmem]
  case noTimeout =>
    intro s h
    show Host.Outcome.next (abortRequestTimeout s) = _
    rw [abortRequestTimeout, if_neg]
    rintro ⟨hp, hs, hf, -⟩
    rcases h with h | h | h
    · exact h hp
    · simp [h] at hs
    · simp [Option.isNone_iff_eq_none.1 hf] at h
  case query =>
    intro s ho hv hp hn hr
    have hc := commitTimeout_eq ho hv hp hn
    by_cases hq : s.stp.queried = true
    · refine ⟨s, _, congrArg Host.Outcome.next (hc.trans (by rw [if_pos hq])), rfl, rfl, fun _ => rfl, fun h => ?_, ?_⟩
      · exact absurd (hq.symm.trans h) (by decide)
      · simp [hq, ho]
    · refine ⟨s.queryNoted, _, congrArg Host.Outcome.next (hc.trans (by rw [if_neg hq])), rfl, ?_, fun h => absurd h hq, fun _ => ?_, ?_⟩
      · simp [State.queryNoted]
      · rw [State.regB, State.sendCtrl_reg (by decide)]
        exact State.regB_eventLog s _ (by decide) (by decide) (by decide)
      · simp [State.queryNoted, ho, hr]
  case noQuery =>
    intro s h
    show Host.Outcome.next (commitTimeout s) = _
    rw [commitTimeout, if_neg]
    rintro ⟨ho, hv, hp, -⟩
    simp [ho, hv, hp] at h
  case second =>
    intro s r hp hf hs
    refine ⟨_, rfl, ?_⟩
    show Host.Outcome.next (secondPassTimeout s) = _
    simp [secondPassTimeout, hp, hf, hs]
  case noSecond =>
    intro s hf
    show Host.Outcome.next (secondPassTimeout s) = _
    simp [secondPassTimeout, hf]
end Sys2Proof.Proofs
end

section
/-! SUPPORT. Counterexamples for the host's decisions in HALTED and for the tokens of the ring. -/

namespace Sys2Proof.Proofs
open Sys2Proof Sys2Proof.Machine

/-- A group of one that has halted at a new-step boundary, where an abort found in the boundary used up the repeats (R36). -/
def haltedAtNewStep : State :=
  { State.reset with stp := { State.reset.stp with phase := .halted, halt := some .exhausted, due := some .new } }

/-- Refutes O19: with exhausted repeats at a new-step boundary the host's repeat makes the new step due again, not the attempt
(`haltedAtNewStep`). -/
theorem not_holdsAndHostDecisions : ¬ Obligations.HoldsAndHostDecisions := by
  unfold Obligations.HoldsAndHostDecisions
  rintro ⟨-, -, -, hrepeat, -⟩
  obtain ⟨u, t, -, hexec, -, -, -, -, hdue, -⟩ := hrepeat haltedAtNewStep .host rfl rfl (.inr (by decide))
  have hnew : (stepDecideRepeat .host haltedAtNewStep).stp.due = some .new := by decide
  have ht : stepDecideRepeat .host haltedAtNewStep = t := Host.Outcome.next.inj hexec
  rw [ht, hdue] at hnew
  exact absurd hnew (by decide)

/-- Member 1 of a group of two with an attempt open, its record drafted, no abort reason and no skip vote, and a decision noted as
fixed. -/
def memberWithFixed : State :=
  { State.reset with
    red := { State.reset.red with n := 2, pos := 1 }
    stp := { State.reset.stp with isOpen := true, drafted := true, fixed := some {} } }

/-- A first-pass token of its attempt with a SKIP flag that disagrees. -/
def skipToken : Token := { step := 1, size := 2, skip := true }

/-- Refutes O16: where a decision is fixed, a SKIP flag that disagrees is recorded but leaves the member without an abort reason
(`memberWithFixed`, `skipToken`). -/
theorem not_commitTokensPassTheRing : ¬ Obligations.CommitTokensPassTheRing := by
  unfold Obligations.CommitTokensPassTheRing
  rintro ⟨-, -, -, -, -, -, -, -, hskip, -⟩
  obtain ⟨v, u, hexec, -, -, habort, -⟩ := hskip memberWithFixed skipToken rfl rfl (by decide) rfl (by decide) rfl (by decide) rfl rfl rfl rfl
    (by decide)
  have hnone : (firstPassToken skipToken memberWithFixed).stp.abort = none := by decide
  have hu : firstPassToken skipToken memberWithFixed = u := Host.Outcome.next.inj hexec
  rw [hu, habort] at hnone
  exact absurd hnone (by decide)
end Sys2Proof.Proofs
end

section
/-! SUPPORT. Counterexample for the completion of a task. -/

namespace Sys2Proof.Proofs
open Sys2Proof Sys2Proof.Machine

/-- A window with one waiting task of kind 0 that is well formed and carries an error mark. -/
def taskWithError : State := (State.reset.setReg R.TSK_CTRL 1#32).setTask 3 (some { err := true })

/-- Refutes O44: a dispatched task of kind 0 that carries an error mark ends with error status although it is well formed
(`taskWithError`). -/
theorem not_tasksAndCounters : ¬ Obligations.TasksAndCounters := by
  unfold Obligations.TasksAndCounters
  rintro ⟨-, -, hended, -⟩
  obtain ⟨u, hexec, hprog, -⟩ := hended taskWithError 0 0 3 { err := true } (by decide) (by decide) rfl
  have herr : ((taskDispatch 0 0 taskWithError).task 3).map (·.prog) = some (.done true) := by decide
  have hu : taskDispatch 0 0 taskWithError = u := Host.Outcome.next.inj hexec
  rw [hu] at herr
  exact absurd (herr.symm.trans hprog) (by decide)
end Sys2Proof.Proofs
end

section
/-! SUPPORT. What follows a decision, and the closing of its attempt. -/

namespace Sys2Proof.Machine
open Sys2Proof

/-! ### What a fold or a conditional step keeps -/

/-- What every step of a fold keeps, the fold keeps. -/
theorem foldl_keeps {α σ β : Type} (g : σ → β) {f : σ → α → σ} (h : ∀ s x, g (f s x) = g s) (l : List α) (s : σ) :
    g (l.foldl f s) = g s := by
  induction l generalizing s with
  | nil => rfl
  | cons x l ih => rw [List.foldl_cons, ih, h]

/-- What a step keeps, the step under a condition keeps. -/
theorem State.when_keeps {β : Type} (g : State → β) {s : State} {c : Bool} {f : State → State} (h : g (f s) = g s) :
    g (s.when c f) = g s := by
  cases c
  · rfl
  · exact h

/-! ### Bits of registers -/

/-- A set bit stays set when another bit is set. -/
theorem bitOf_setBit_of_bitOf {v : Word} {i j : Nat} (h : bitOf v i = true) : bitOf (setBit v j true) i = true := by
  have hv := v.isLt
  have hi : i < 32 := by
    by_contra hge
    have : v.toNat < 2 ^ i := lt_of_lt_of_le hv (Nat.pow_le_pow_right (by decide) (Nat.not_lt.1 hge))
    rw [bitOf, Nat.testBit_lt_two_pow this] at h
    exact absurd h (by decide)
  have hval : (setBit v j true).toNat = (v.toNat - v.toNat / 2 ^ j % 2 * 2 ^ j + 2 ^ j) % 2 ^ 32 := by
    simp [setBit, setFld, bitsOf, Nat.shiftRight_eq_div_pow]
  rw [bitOf, hval, Nat.testBit_mod_two_pow, decide_eq_true hi, Bool.true_and]
  rw [bitOf] at h
  generalize v.toNat = n at h ⊢
  rcases Nat.mod_two_eq_zero_or_one (n / 2 ^ j) with hb | hb
  · have hij : i ≠ j := fun e => by rw [e, Nat.testBit_eq_decide_div_mod_eq, hb] at h; exact absurd h (by decide)
    have hr : n % 2 ^ (j + 1) < 2 ^ j := by
      rw [Nat.mod_pow_succ, hb]
      simpa using Nat.mod_lt n (Nat.two_pow_pos j)
    have hn := Nat.div_add_mod n (2 ^ (j + 1))
    have hs : 2 ^ j + n % 2 ^ (j + 1) < 2 ^ (j + 1) := by have := Nat.pow_succ (n := 2) (m := j); omega
    rw [← hn, Nat.testBit_two_pow_mul_add _ (by omega : _ < 2 ^ (j + 1))] at h
    rw [hb, Nat.zero_mul, Nat.sub_zero, ← hn, Nat.add_assoc, Nat.add_comm (n % _), Nat.testBit_two_pow_mul_add _ hs]
    split at h
    · next hlt => rw [if_pos hlt, Nat.testBit_two_pow_add_gt (by omega)]; exact h
    · next hge => rw [if_neg hge]; exact h
  · have hle : 2 ^ j ≤ n := by
      by_contra hlt
      rw [Nat.div_eq_of_lt (Nat.not_le.1 hlt)] at hb
      exact absurd hb (by decide)
    rw [hb, Nat.one_mul, Nat.sub_add_cancel hle]
    exact h

/-- An event that is set stays set when another one is. -/
theorem State.regB_event_of_regB {s : State} {a b i j : Nat} (h : s.regB a i = true) : (s.event b j).regB a i = true := by
  unfold State.regB
  rw [State.reg_event]
  split
  · next hab => subst hab; exact bitOf_setBit_of_bitOf h
  · exact h

theorem State.regB_event_self (s : State) (a : Nat) {i : Nat} (hi : i < 32) : (s.event a i).regB a i = true := by
  unfold State.regB
  rw [State.reg_event, if_pos rfl]
  exact bitOf_setBit_self hi

theorem State.regB_eventLog_of_regB {s : State} {a b i j blk cls cause detail : Nat} (h1 : a ≠ R.ERR_DROP_CNT) (h2 : a ≠ R.ERR_EVENTS)
    (h : s.regB a i = true) : (s.eventLog b j blk cls cause detail).regB a i = true := by
  unfold State.regB State.eventLog
  rw [State.reg_log _ _ h1 h2]
  exact State.regB_event_of_regB h

/-! ### What follows a decision -/

section After
variable (s : State) (dec : Decision) (hold rest : Bool)

/-- A skip reaches SKIP_LIMIT (R39). -/
def State.haltsOnSkip : Bool :=
  decide (dec = .skip) && decide (s.regF R.STEP_CTRL 23 16 ≠ 0) && decide (s.regF R.STEP_CTRL 23 16 ≤ s.stp.skips)

/-- An abort exhausts the repeats (R36). -/
def State.haltsOnAbort : Bool := decide (dec = .abort) && (s.fnHost 5 || decide (s.regF R.STEP_CTRL 3 0 ≤ s.stp.attempt))

/-- The group holds after the decision (R40). -/
def State.holdsAfter : Bool := hold && !s.haltsOnSkip dec && !s.haltsOnAbort dec

/-- Training ends with the decision (R420). -/
def State.endsTraining : Bool :=
  decide (dec ≠ .abort) && !s.haltsOnSkip dec && !s.holdsAfter dec hold && !s.regB R.TSK_STEP_GRAPH 31

/-- The events of what follows a decision. -/
def State.afterNoted : State :=
  (s.when (s.haltsOnSkip dec) (fun s => s.eventLog R.STEP_EVENTS 4 9 4 0 s.stp.skips)).when (s.holdsAfter dec hold && !rest)
    (fun s => s.event R.STEP_EVENTS 6)

/-- The step state that follows a decision. -/
def State.afterStp : StepSt :=
  { s.stp with
    groupHold := hold
    phase := if s.haltsOnSkip dec then .halted else if s.holdsAfter dec hold then .held else if s.endsTraining dec hold then .idle else .boundary
    halt := if s.haltsOnSkip dec then some .skipLimit else if s.haltsOnAbort dec then some .exhausted else none
    haltAttempt := s.stp.attempt
    due := if s.endsTraining dec hold then none
      else some (if decide (dec ≠ .abort) || decide (s.stp.due = some .new) then .new else .again)
    nextAtt := some (if decide (dec ≠ .abort) then 0 else s.stp.attempt + 1) }

theorem State.afterNoted_stp : (s.afterNoted dec hold rest).stp = s.stp :=
  (State.when_keeps State.stp rfl).trans (State.when_keeps State.stp (State.eventLog_stp ..))

theorem State.afterNoted_mem : (s.afterNoted dec hold rest).mem = s.mem :=
  (State.when_keeps State.mem rfl).trans (State.when_keeps State.mem (State.eventLog_mem ..))

theorem State.afterDecision_eq : s.afterDecision dec hold rest = (s.afterNoted dec hold rest).modStp (fun _ => s.afterStp dec hold) := by
  rw [State.afterStp, ← s.afterNoted_stp dec hold rest]
  rfl

theorem State.afterDecision_stp : (s.afterDecision dec hold rest).stp = s.afterStp dec hold := by rw [State.afterDecision_eq]; rfl

theorem State.afterDecision_mem : (s.afterDecision dec hold rest).mem = s.mem := by
  rw [State.afterDecision_eq]; exact s.afterNoted_mem dec hold rest

/-- Of the registers, a decision's follow-up writes STEP_EVENTS alone, but for the counts of a full error log. -/
theorem State.afterDecision_reg {a : Nat} (h : a ≠ R.STEP_EVENTS) (h1 : a ≠ R.ERR_DROP_CNT) (h2 : a ≠ R.ERR_EVENTS) :
    (s.afterDecision dec hold rest).reg a = s.reg a := by
  rw [State.afterDecision_eq]
  exact (State.when_keeps (·.reg a) ((State.reg_event ..).trans (if_neg h))).trans
    (State.when_keeps (·.reg a) ((State.reg_eventLog _ _ _ h1 h2).trans (if_neg h)))

/-- Step events stay set, and SKIP_LIMIT and HELD are set where the group halts or holds. -/
theorem State.afterDecision_events :
    (∀ i, s.regB R.STEP_EVENTS i = true → (s.afterDecision dec hold rest).regB R.STEP_EVENTS i = true) ∧
      (s.haltsOnSkip dec = true → (s.afterDecision dec hold rest).regB R.STEP_EVENTS 4 = true) ∧
      (s.holdsAfter dec hold = true → rest = false → (s.afterDecision dec hold rest).regB R.STEP_EVENTS 6 = true) := by
  have hfirst : ∀ i, s.regB R.STEP_EVENTS i = true →
      (s.when (s.haltsOnSkip dec) (fun s => s.eventLog R.STEP_EVENTS 4 9 4 0 s.stp.skips)).regB R.STEP_EVENTS i = true := fun i h => by
    cases s.haltsOnSkip dec
    · exact h
    · exact State.regB_eventLog_of_regB (by decide) (by decide) h
  have hsecond : ∀ (t : State) i, t.regB R.STEP_EVENTS i = true →
      (t.when (s.holdsAfter dec hold && !rest) (fun s => s.event R.STEP_EVENTS 6)).regB R.STEP_EVENTS i = true := fun t i h => by
    cases s.holdsAfter dec hold && !rest
    · exact h
    · exact State.regB_event_of_regB h
  rw [State.afterDecision_eq]
  refine ⟨fun i h => hsecond _ i (hfirst i h), fun h => hsecond _ 4 ?_, fun h hr => ?_⟩
  · rw [h]
    exact State.regB_eventLog s _ (by decide) (by decide) (by decide)
  · show (s.afterNoted dec hold rest).regB R.STEP_EVENTS 6 = true
    rw [State.afterNoted, h, hr]
    exact State.regB_event_self _ _ (by decide)

end After

/-! ### Closing the attempt -/

section Closed
variable (s : State) (dec : Decision) (step att reason voter : Nat) (hold : Bool)

/-- The attempt is closed and its channels start anew. -/
def State.decided : State := (s.closeAttempt dec step att reason voter hold).resetChannels

theorem State.decided_regs : (s.decided dec step att reason voter hold).regs = (s.setRegN R.RED_EPOCH ((s.epoch + 1) % 2 ^ 32)).regs := by
  simp only [State.decided, State.resetChannels_frame]
  rfl

theorem State.decided_mem : (s.decided dec step att reason voter hold).mem = s.mem := by
  simp only [State.decided, State.resetChannels_frame]
  rfl

theorem State.decided_stp : (s.decided dec step att reason voter hold).stp = { s.stp with
    isOpen := false, voted := false, firstSent := false, waitToken := none, abort := none, heldReq := none, skipVote := false,
    fixed := none, secondSent := false, queried := false, seen := [], drafted := false
    decisions := s.stp.decisions ++ [{ step := step, attempt := att, epoch := s.epoch, decision := dec, reason := reason, voter := voter, hold := hold }]
    nfEvent := s.stp.nfEvent || decide (dec = .abort) ||
      decide (0 < s.stp.cnt.nan + s.stp.cnt.inf + s.stp.cnt.marked + s.stp.cnt.nonfinite) } := by
  simp only [State.decided, State.resetChannels_frame]
  rfl

theorem State.decided_reg {a : Nat} (h : a ≠ R.RED_EPOCH) : (s.decided dec step att reason voter hold).reg a = s.reg a := by
  rw [State.reg, State.decided_regs, ← State.reg, State.reg_setRegN, if_neg h]

theorem State.decided_epoch : (s.decided dec step att reason voter hold).reg R.RED_EPOCH = s.reg R.RED_EPOCH + 1 := by
  rw [State.reg, State.decided_regs, ← State.reg, State.reg_setRegN, if_pos rfl]
  exact BitVec.eq_of_toNat_eq (by simp [State.epoch])

end Closed
end Sys2Proof.Machine
end

section
/-! SUPPORT. What commit, skip and abort write before the attempt is closed. -/

namespace Sys2Proof.Machine
open Sys2Proof

/-! ### What a decision writes before the attempt is closed -/

/-- The registers that every decision may write: the step events, the record head, the task events and the counts of a full error log. -/
def decisionRegs : List Nat := [R.STEP_EVENTS, R.STEP_REC_HEAD, R.TSK_EVENTS, R.ERR_DROP_CNT, R.ERR_EVENTS]

theorem ne_of_notMem_decisionRegs {a : Nat} (h : a ∉ decisionRegs) :
    a ≠ R.STEP_EVENTS ∧ a ≠ R.STEP_REC_HEAD ∧ a ≠ R.TSK_EVENTS ∧ a ≠ R.ERR_DROP_CNT ∧ a ≠ R.ERR_EVENTS := by
  simpa only [decisionRegs, List.mem_cons, List.not_mem_nil, or_false, not_or] using h

/-- The memory of the committed view: both state copies and the step records. -/
def MemSt.view (m : MemSt) : CopyMem × CopyMem × SMap RecEnt := (m.copy0, m.copy1, m.records)

/-- `u` is `b` with record `r` written at the next index and step event `i` set; the committed copy is kept. -/
structure State.Recorded (b u : State) (r : RecEnt) (i : Nat) : Prop where
  reg : ∀ a, a ∉ decisionRegs → u.reg a = b.reg a
  head : (u.reg R.STEP_REC_HEAD).toNat = b.nextRec
  event : u.regB R.STEP_EVENTS i = true
  stp : u.stp = { b.stp with recSeq := r.seq }
  records : u.mem.records = SMap.set (fun _ => {}) b.mem.records b.nextRec r
  committed : u.committed = b.committed

theorem State.hbmWrite_view (s : State) (a : Nat) (bs : List Byte) : (s.hbmWrite a bs).mem.view = s.mem.view := by
  obtain ⟨h0, h1, hr, -⟩ := MemSt.write_frame s.mem a bs
  exact Prod.ext h0 (Prod.ext h1 hr)

theorem State.appendAll_view (s : State) : s.appendAll.mem.view = s.mem.view := by
  have h : s.appendAll.mem = s.writeStats.mem := by simp only [State.appendAll, State.trackerTake_frame, State.modFmt_frame]
  rw [h]
  exact foldl_keeps (fun s : State => s.mem.view) (fun s _ => State.hbmWrite_view s ..) _ s

theorem State.discardStash_view (s : State) : s.discardStash.mem.view = s.mem.view :=
  foldl_keeps (fun s : State => s.mem.view)
    (fun s _ => foldl_keeps (fun s : State => s.mem.view) (fun s _ => State.hbmWrite_view s ..) _ s) _ s.draw.2

theorem State.spoilWriteCopy_records (s : State) : s.spoilWriteCopy.mem.records = s.mem.records := by
  show (s.mem.setCopy _ _).records = _
  unfold MemSt.setCopy
  split <;> rfl

theorem State.spoilWriteCopy_committed (s : State) : s.spoilWriteCopy.committed = s.committed := by
  show (s.mem.setCopy (!s.stp.copySel) _).copy s.stp.copySel = s.mem.copy s.stp.copySel
  cases s.stp.copySel <;> rfl

/-- The committed copy is part of the committed view. -/
theorem State.committed_of_view {s t : State} (h : t.mem.view = s.mem.view) (hs : t.stp.copySel = s.stp.copySel) : t.committed = s.committed := by
  have h0 : t.mem.copy0 = s.mem.copy0 := congrArg Prod.fst h
  have h1 : t.mem.copy1 = s.mem.copy1 := congrArg (·.2.1) h
  rw [State.committed, MemSt.copy, h0, h1, hs]
  rfl

section Recorded
variable {b u v : State} {r : RecEnt} {i : Nat}

/-- What keeps registers, step state and committed view keeps a recorded decision. -/
theorem State.Recorded.keep (h : State.Recorded b u r i) (hregs : v.regs = u.regs) (hstp : v.stp = u.stp)
    (hview : v.mem.view = u.mem.view) : State.Recorded b v r i where
  reg a ha := (congrArg (SMap.get regReset · a) hregs).trans (h.reg a ha)
  head := (congrArg (fun m => (SMap.get regReset m R.STEP_REC_HEAD).toNat) hregs).trans h.head
  event := (congrArg (fun m => bitOf (SMap.get regReset m R.STEP_EVENTS) i) hregs).trans h.event
  stp := hstp.trans h.stp
  records := (congrArg (·.2.2) hview).trans h.records
  committed := (State.committed_of_view hview (congrArg StepSt.copySel hstp)).trans h.committed

/-- Spoiling the write copy keeps a recorded decision. -/
theorem State.Recorded.spoil (h : State.Recorded b u r i) : State.Recorded b u.spoilWriteCopy r i where
  reg := h.reg
  head := h.head
  event := h.event
  stp := h.stp
  records := u.spoilWriteCopy_records.trans h.records
  committed := u.spoilWriteCopy_committed.trans h.committed

/-- Dropping the tasks of the attempt keeps a recorded decision. -/
theorem State.Recorded.cancel (h : State.Recorded b u r i) : State.Recorded b u.cancelTasks r i where
  reg a ha := by
    obtain ⟨-, -, ht, -⟩ := ne_of_notMem_decisionRegs ha
    exact (State.reg_event ..).trans ((if_neg ht).trans (h.reg a ha))
  head := (congrArg BitVec.toNat ((State.reg_event ..).trans (if_neg (by decide)))).trans h.head
  event := State.regB_event_of_regB (s := u.modTsk _) h.event
  stp := h.stp
  records := h.records
  committed := h.committed

/-- Logging keeps a recorded decision. -/
theorem State.Recorded.log (h : State.Recorded b u r i) (blk cls bit cause detail : Nat) :
    State.Recorded b (u.log blk cls bit cause detail) r i where
  reg a ha := by
    obtain ⟨-, -, -, hd, he⟩ := ne_of_notMem_decisionRegs ha
    exact (State.reg_log _ _ hd he).trans (h.reg a ha)
  head := (congrArg BitVec.toNat (State.reg_log _ _ (by decide) (by decide))).trans h.head
  event := (congrArg (bitOf · i) (State.reg_log _ _ (by decide) (by decide))).trans h.event
  stp := (State.logEnt_stp ..).trans h.stp
  records := (congrArg MemSt.records (State.logEnt_mem ..)).trans h.records
  committed := (State.committed_of_view (congrArg MemSt.view (State.logEnt_mem ..)) (congrArg StepSt.copySel (State.logEnt_stp ..))).trans h.committed

/-- Histories, statistics and the update units' reset keep a recorded decision. -/
theorem State.Recorded.append (h : State.Recorded b u r i) : State.Recorded b u.appendAll.resetUpdates r i :=
  h.keep (by simp only [State.resetUpdates_frame, State.appendAll_frame]) (by simp only [State.resetUpdates_frame, State.appendAll_frame])
    ((congrArg MemSt.view (by simp only [State.resetUpdates_frame])).trans u.appendAll_view)

end Recorded

/-- Writing the record and its event records the decision. -/
theorem State.writeRecord_event_recorded (b : State) (r : RecEnt) {i : Nat} (hi : i < 32) :
    State.Recorded b ((b.writeRecord r).event R.STEP_EVENTS i) r i where
  reg a ha := by
    obtain ⟨h1, h2, -⟩ := ne_of_notMem_decisionRegs ha
    rw [State.reg_event, if_neg h1]
    exact (State.reg_setRegN ..).trans (if_neg h2)
  head := by
    rw [State.reg_event, if_neg (by decide)]
    refine (congrArg BitVec.toNat ((State.reg_setRegN ..).trans (if_pos rfl))).trans ?_
    rw [BitVec.toNat_ofNat, State.nextRec]
    omega
  event := State.regB_event_self _ _ hi
  stp := rfl
  records := rfl
  committed := rfl

/-! ### The three decisions -/

/-- The copies swap and the step is counted. -/
def State.copySwapped (s : State) (step : Nat) : State :=
  (s.modStp (fun x => { x with copySel := !x.copySel, skips := 0 })).setPair R.STEP_COUNT step

/-- The copies are swapped, the step and the commit counted. -/
def State.swapped (s : State) (step : Nat) : State :=
  (s.copySwapped step).setRegN R.STEP_COMMIT_SEQ ((((s.copySwapped step).reg R.STEP_COMMIT_SEQ).toNat + 1) % 2 ^ 32)

/-- The state with a skip counted. -/
def State.skipped (s : State) : State := s.modStp (fun x => { x with skips := min 255 (x.skips + 1) })

theorem State.applyCommit_eq (s : State) (step : Nat) : s.applyCommit step =
    (List.range 2).foldl (fun s d => s.passDue d step)
      (((s.swapped step).writeRecord ((s.swapped step).mkRecord step 1 0 0xFF)).event R.STEP_EVENTS 0).appendAll.resetUpdates := rfl

theorem State.applyCommit_recorded (s : State) (step : Nat) :
    State.Recorded (s.swapped step) (s.applyCommit step) ((s.swapped step).mkRecord step 1 0 0xFF) 0 := by
  rw [State.applyCommit_eq]
  refine ((State.writeRecord_event_recorded (s.swapped step) _ (by decide)).append).keep ?_ ?_ ?_
  · exact foldl_keeps State.regs (fun s d => by simp only [State.passDue_frame]) _ _
  · exact foldl_keeps State.stp (fun s d => by simp only [State.passDue_frame]) _ _
  · exact congrArg MemSt.view (foldl_keeps State.mem (fun s d => by simp only [State.passDue_frame]) _ _)

theorem State.applySkip_recorded (s : State) : State.Recorded s.skipped s.applySkip (s.skipped.mkRecord s.stepNum 3 0 0xFF) 2 :=
  ((State.writeRecord_event_recorded _ _ (by decide)).append).spoil

/-- What an abort ends on this member, but for the memory. -/
def State.attemptEnded (s : State) : State :=
  ((s.releaseSlices.dropRing.modFmt (fun f => { f with amax := [], statsNow := [], wireScale := [] })).trackerTake false).resetUpdates

theorem State.Recorded.ended {b u : State} {r : RecEnt} {i : Nat} (h : State.Recorded b u r i) : State.Recorded b u.attemptEnded r i := by
  refine h.keep ?_ ?_ (congrArg MemSt.view ?_) <;>
    simp only [State.attemptEnded, State.resetUpdates_frame, State.trackerTake_frame, State.modFmt_frame, State.dropRing_frame,
      State.releaseSlices_regs, State.releaseSlices_stp, State.releaseSlices_mem]

/-- An abort, before position 0's numbers are adopted. -/
def State.aborted (s : State) (reason voter : Nat) : State :=
  ((s.writeRecord (s.abortRecord reason voter)).eventLog R.STEP_EVENTS 1 9 4 0
    (reason + s.stp.attempt * 2 ^ 16)).cancelTasks.attemptEnded.spoilWriteCopy.discardStash

theorem State.aborted_recorded (s : State) (reason voter : Nat) :
    State.Recorded s (s.aborted reason voter) (s.abortRecord reason voter) 1 :=
  (((State.writeRecord_event_recorded s (s.abortRecord reason voter) (by decide)).log ..).cancel.ended.spoil).keep
    (by simp only [State.aborted, State.discardStash_frame, State.eventLog]) (by simp only [State.aborted, State.discardStash_frame, State.eventLog])
    (State.discardStash_view _)

/-- Position 0's step and attempt numbers are adopted (R226). -/
def State.adopted (s : State) (step att : Nat) : State :=
  ((s.setPair R.STEP_COUNT (step - 1)).modStp (fun x => { x with attempt := att })).eventLog R.RED_EVENTS 4 0x12 4 0 step

theorem State.adopted_mem (s : State) (step att : Nat) : (s.adopted step att).mem = s.mem := State.eventLog_mem ..

theorem State.applyAbort_eq (s : State) (step att reason voter : Nat) : s.applyAbort step att reason voter =
    if step = (s.aborted reason voter).stepNum then s.aborted reason voter else (s.aborted reason voter).adopted step att := rfl

theorem State.applyAbort_own {s : State} {step : Nat} (h : step = s.stepNum) (att reason voter : Nat) :
    s.applyAbort step att reason voter = s.aborted reason voter := by
  have hr := s.aborted_recorded reason voter
  have hn : (s.aborted reason voter).stepNum = s.stepNum := by
    rw [State.stepNum, State.pair, hr.reg _ (by decide), hr.reg _ (by decide)]
    rfl
  rw [State.applyAbort_eq, if_pos (h.trans hn.symm)]

theorem State.applyAbort_mem (s : State) (step att reason voter : Nat) :
    (s.applyAbort step att reason voter).mem = (s.aborted reason voter).mem := by
  rw [State.applyAbort_eq]
  split
  · rfl
  · exact State.adopted_mem ..

end Sys2Proof.Machine
end

section
/-! SUPPORT. The state after a decision. -/

namespace Sys2Proof.Machine
open Sys2Proof

/-! ### The decided state -/

/-- The attempt closed with a decision on a member that does not rest. -/
def State.concluded (u : State) (dec : Decision) (step att reason voter : Nat) (hold : Bool) : State :=
  (u.decided dec step att reason voter hold).afterDecision dec hold false

theorem State.applyDecision_of_active {s : State} (h : s.stp.phase.rest = false) (step att reason voter : Nat) (hold : Bool) :
    s.applyDecision .commit step att reason voter hold = (s.applyCommit step).concluded .commit step att reason voter hold ∧
      s.applyDecision .skip step att reason voter hold = s.applySkip.concluded .skip step att reason voter hold ∧
      s.applyDecision .abort step att reason voter hold = (s.applyAbort step att reason voter).concluded .abort step att reason voter hold := by
  refine ⟨?_, ?_, ?_⟩ <;>
  · simp only [State.applyDecision, h, Bool.false_eq_true, if_false]
    rfl

section Concluded
variable (u : State) (dec : Decision) (step att reason voter : Nat) (hold : Bool)

theorem State.concluded_stp : (u.concluded dec step att reason voter hold).stp = (u.decided dec step att reason voter hold).afterStp dec hold :=
  State.afterDecision_stp ..

theorem State.concluded_mem : (u.concluded dec step att reason voter hold).mem = u.mem :=
  (State.afterDecision_mem ..).trans (State.decided_mem ..)

theorem State.concluded_copySel : (u.concluded dec step att reason voter hold).stp.copySel = u.stp.copySel := by
  rw [State.concluded_stp, State.afterStp, State.decided_stp]

theorem State.concluded_committed : (u.concluded dec step att reason voter hold).committed = u.committed := by
  unfold State.committed
  rw [State.concluded_mem, State.concluded_copySel]

/-- The attempt is closed, its vote, token and abort reason forgotten; GROUP_HOLD is the decision's. -/
theorem State.concluded_closed : (u.concluded dec step att reason voter hold).stp.isOpen = false ∧
    (u.concluded dec step att reason voter hold).stp.voted = false ∧ (u.concluded dec step att reason voter hold).stp.waitToken = none ∧
    (u.concluded dec step att reason voter hold).stp.abort = none ∧ (u.concluded dec step att reason voter hold).stp.groupHold = hold := by
  rw [State.concluded_stp, State.afterStp, State.decided_stp]
  exact ⟨rfl, rfl, rfl, rfl, rfl⟩

end Concluded

section Recorded
variable {b u : State} {r : RecEnt} {i : Nat} (h : State.Recorded b u r i) (dec : Decision) (step att reason voter : Nat) (hold : Bool)
include h

theorem State.Recorded.concluded_reg {a : Nat} (ha : a ∉ decisionRegs) (he : a ≠ R.RED_EPOCH) :
    (u.concluded dec step att reason voter hold).reg a = b.reg a := by
  obtain ⟨h1, -, -, hd, hv⟩ := ne_of_notMem_decisionRegs ha
  exact (State.afterDecision_reg _ _ _ _ h1 hd hv).trans ((State.decided_reg _ _ _ _ _ _ _ he).trans (h.reg a ha))

theorem State.Recorded.concluded_epoch :
    (u.concluded dec step att reason voter hold).reg R.RED_EPOCH = b.reg R.RED_EPOCH + 1 := by
  rw [State.concluded, State.afterDecision_reg _ _ _ _ (by decide) (by decide) (by decide), State.decided_epoch, h.reg _ (by decide)]

theorem State.Recorded.concluded_head : ((u.concluded dec step att reason voter hold).reg R.STEP_REC_HEAD).toNat = b.nextRec := by
  rw [State.concluded, State.afterDecision_reg _ _ _ _ (by decide) (by decide) (by decide), State.decided_reg _ _ _ _ _ _ _ (by decide)]
  exact h.head

theorem State.Recorded.concluded_pair_stepCount :
    (u.concluded dec step att reason voter hold).pair R.STEP_COUNT = b.pair R.STEP_COUNT := by
  unfold State.pair
  rw [h.concluded_reg _ _ _ _ _ _ (by decide) (by decide), h.concluded_reg _ _ _ _ _ _ (by decide) (by decide)]

theorem State.Recorded.concluded_record :
    (SMap.get (fun _ => {}) (u.concluded dec step att reason voter hold).mem.records b.nextRec : RecEnt) = r := by
  rw [State.concluded_mem, h.records, SMap.get_set_self]

theorem State.Recorded.decided_reg {a : Nat} (ha : a ∉ decisionRegs) (he : a ≠ R.RED_EPOCH) :
    (u.decided dec step att reason voter hold).reg a = b.reg a := (State.decided_reg _ _ _ _ _ _ _ he).trans (h.reg a ha)

theorem State.Recorded.decided_haltsOnSkip : (u.decided dec step att reason voter hold).haltsOnSkip dec = b.haltsOnSkip dec := by
  unfold State.haltsOnSkip State.regF
  rw [h.decided_reg _ _ _ _ _ _ (by decide) (by decide), State.decided_stp, h.stp]

theorem State.Recorded.decided_haltsOnAbort : (u.decided dec step att reason voter hold).haltsOnAbort dec = b.haltsOnAbort dec := by
  unfold State.haltsOnAbort State.regF State.fnHost State.regB
  rw [h.decided_reg _ _ _ _ _ _ (by decide) (by decide), h.decided_reg _ _ _ _ _ _ (by decide) (by decide), State.decided_stp, h.stp]

theorem State.Recorded.decided_holdsAfter : (u.decided dec step att reason voter hold).holdsAfter dec hold = b.holdsAfter dec hold := by
  unfold State.holdsAfter
  rw [h.decided_haltsOnSkip, h.decided_haltsOnAbort]

theorem State.Recorded.decided_endsTraining : (u.decided dec step att reason voter hold).endsTraining dec hold = b.endsTraining dec hold := by
  unfold State.endsTraining State.regB
  rw [h.decided_haltsOnSkip, h.decided_holdsAfter, h.decided_reg _ _ _ _ _ _ (by decide) (by decide)]

/-- The phase, the halt and the boundary due after the decision are those that its base state gives. -/
theorem State.Recorded.concluded_next : (u.concluded dec step att reason voter hold).stp.phase = (b.afterStp dec hold).phase ∧
    (u.concluded dec step att reason voter hold).stp.halt = (b.afterStp dec hold).halt ∧
    (u.concluded dec step att reason voter hold).stp.due = (b.afterStp dec hold).due := by
  rw [State.concluded_stp]
  unfold State.afterStp
  rw [h.decided_haltsOnSkip, h.decided_haltsOnAbort, h.decided_holdsAfter, h.decided_endsTraining, State.decided_stp, h.stp]
  exact ⟨rfl, rfl, rfl⟩

/-- The copy selection and the skips are the base state's, and the next attempt follows its attempt. -/
theorem State.Recorded.concluded_counts : (u.concluded dec step att reason voter hold).stp.copySel = b.stp.copySel ∧
    (u.concluded dec step att reason voter hold).stp.skips = b.stp.skips ∧
    (u.concluded dec step att reason voter hold).stp.nextAtt = some (if decide (dec ≠ .abort) then 0 else b.stp.attempt + 1) := by
  rw [State.concluded_stp, State.afterStp, State.decided_stp, h.stp]
  exact ⟨rfl, rfl, rfl⟩

/-- The events after the decision: its own, SKIP_LIMIT and HELD. -/
theorem State.Recorded.concluded_events : (u.concluded dec step att reason voter hold).regB R.STEP_EVENTS i = true ∧
    (b.haltsOnSkip dec = true → (u.concluded dec step att reason voter hold).regB R.STEP_EVENTS 4 = true) ∧
    (b.holdsAfter dec hold = true → (u.concluded dec step att reason voter hold).regB R.STEP_EVENTS 6 = true) := by
  obtain ⟨hkeep, hskip, hheld⟩ := (u.decided dec step att reason voter hold).afterDecision_events dec hold false
  rw [h.decided_haltsOnSkip] at hskip
  rw [h.decided_holdsAfter] at hheld
  refine ⟨hkeep i ?_, hskip, fun hh => hheld hh rfl⟩
  unfold State.regB
  rw [State.decided_reg _ _ _ _ _ _ _ (by decide)]
  exact h.event

end Recorded

/-! ### The base states -/

theorem State.copySwapped_reg (s : State) {step a : Nat} (h1 : a ≠ R.STEP_COUNT) (h2 : a ≠ R.STEP_COUNT + 4) :
    (s.copySwapped step).reg a = s.reg a := State.reg_setPair _ _ _ h1 h2

theorem State.swapped_reg (s : State) {step a : Nat} (h1 : a ≠ R.STEP_COUNT) (h2 : a ≠ R.STEP_COUNT + 4) (h3 : a ≠ R.STEP_COMMIT_SEQ) :
    (s.swapped step).reg a = s.reg a := (State.reg_setRegN ..).trans ((if_neg h3).trans (s.copySwapped_reg h1 h2))

theorem State.swapped_commitSeq (s : State) (step : Nat) : (s.swapped step).reg R.STEP_COMMIT_SEQ = s.reg R.STEP_COMMIT_SEQ + 1 := by
  rw [State.swapped, State.reg_setRegN, if_pos rfl, State.copySwapped_reg _ (by decide) (by decide)]
  exact BitVec.eq_of_toNat_eq (by simp)

theorem State.swapped_pair (s : State) {step : Nat} (h : step < 2 ^ 64) : (s.swapped step).pair R.STEP_COUNT = step := by
  have hp : (s.swapped step).pair R.STEP_COUNT = (s.copySwapped step).pair R.STEP_COUNT := by
    unfold State.pair State.swapped
    rw [State.reg_setRegN, State.reg_setRegN, if_neg (by decide), if_neg (by decide)]
  exact hp.trans (State.pair_setPair _ _ h)

/-- The phase, the halt and the boundary due after a commit. -/
theorem State.afterStp_commit (b : State) (hold : Bool) : b.holdsAfter .commit hold = hold ∧ (b.afterStp .commit hold).halt = none ∧
    (b.afterStp .commit hold).phase = (if hold then .held else if b.regB R.TSK_STEP_GRAPH 31 then .boundary else .idle) ∧
    (b.afterStp .commit hold).due = (if hold || b.regB R.TSK_STEP_GRAPH 31 then some .new else none) := by
  cases hold <;> cases hg : b.regB R.TSK_STEP_GRAPH 31 <;>
    simp [State.afterStp, State.holdsAfter, State.endsTraining, State.haltsOnSkip, State.haltsOnAbort, hg]

/-- After a skip that does not reach SKIP_LIMIT. -/
theorem State.afterStp_skip {b : State} (hl : b.haltsOnSkip .skip = false) (hold : Bool) : b.holdsAfter .skip hold = hold ∧
    (b.afterStp .skip hold).halt = none ∧
    (b.afterStp .skip hold).phase = (if hold then .held else if b.regB R.TSK_STEP_GRAPH 31 then .boundary else .idle) ∧
    (b.afterStp .skip hold).due = (if hold || b.regB R.TSK_STEP_GRAPH 31 then some .new else none) := by
  cases hold <;> cases hg : b.regB R.TSK_STEP_GRAPH 31 <;>
    simp [State.afterStp, State.holdsAfter, State.endsTraining, hl, State.haltsOnAbort, hg]

/-- After a skip that reaches SKIP_LIMIT. -/
theorem State.afterStp_skip_halts {b : State} (hl : b.haltsOnSkip .skip = true) (hold : Bool) :
    (b.afterStp .skip hold).phase = .halted ∧ (b.afterStp .skip hold).halt = some .skipLimit ∧ (b.afterStp .skip hold).due = some .new := by
  simp [State.afterStp, State.endsTraining, hl]

/-- After an abort. -/
theorem State.afterStp_abort (b : State) (hold : Bool) : b.holdsAfter .abort hold = (hold && !b.haltsOnAbort .abort) ∧
    (b.afterStp .abort hold).halt = (if b.haltsOnAbort .abort then some .exhausted else none) ∧
    (b.afterStp .abort hold).phase = (if hold && !b.haltsOnAbort .abort then .held else .boundary) ∧
    (b.afterStp .abort hold).due = some (if b.stp.due = some .new then .new else .again) := by
  have hs : b.haltsOnSkip .abort = false := rfl
  have he : b.endsTraining .abort hold = false := rfl
  have hh : b.holdsAfter .abort hold = (hold && !b.haltsOnAbort .abort) := by rw [State.holdsAfter, hs, Bool.not_false, Bool.and_true]
  refine ⟨hh, ?_, ?_, ?_⟩
  · simp [State.afterStp, hs]
  · simp [State.afterStp, hs, hh, he]
  · simp [State.afterStp, he]

/-- A skip reaches the limit with its own count: 255 at most, and SKIP_LIMIT has 8 bits. -/
theorem State.skipped_haltsOnSkip (s : State) : s.skipped.haltsOnSkip .skip =
    (decide (s.regF R.STEP_CTRL 23 16 ≠ 0) && decide (s.regF R.STEP_CTRL 23 16 ≤ s.stp.skips + 1)) := by
  have hlim : s.regF R.STEP_CTRL 23 16 < 256 := Nat.mod_lt _ (by decide)
  have hle : s.regF R.STEP_CTRL 23 16 ≤ min 255 (s.stp.skips + 1) ↔ s.regF R.STEP_CTRL 23 16 ≤ s.stp.skips + 1 := by omega
  show (true && _ && decide (s.regF R.STEP_CTRL 23 16 ≤ min 255 (s.stp.skips + 1))) = _
  rw [Bool.true_and, decide_eq_decide.2 hle]
  rfl

theorem State.swapped_nextRec (s : State) (step : Nat) : (s.swapped step).nextRec = s.nextRec := by
  unfold State.nextRec
  rw [State.swapped_reg _ (by decide) (by decide) (by decide)]

/-- The hash of a record is that of the image set, which the positions give. -/
theorem State.mkRecord_hash (s : State) (step outcome reason voter : Nat) : (s.mkRecord step outcome reason voter).hash = s.imageHash := by
  unfold State.mkRecord
  with_reducible rfl

theorem State.abortRecord_hash (s : State) (reason voter : Nat) : (s.abortRecord reason voter).hash = s.imageHash := by
  simp only [State.abortRecord, State.mkRecord_hash]

theorem State.imageHash_congr {s t : State} (h : t.arr.pos = s.arr.pos) : t.imageHash = s.imageHash := by
  unfold State.imageHash State.imageBytes
  rw [h]

/-- A commit writes no byte of either copy. -/
theorem State.applyCommit_copies (s : State) (step : Nat) :
    (s.applyCommit step).mem.copy0 = s.mem.copy0 ∧ (s.applyCommit step).mem.copy1 = s.mem.copy1 := by
  have h : (s.applyCommit step).mem.view = (((s.swapped step).writeRecord ((s.swapped step).mkRecord step 1 0 0xFF)).event R.STEP_EVENTS 0).mem.view := by
    rw [State.applyCommit_eq]
    refine (congrArg MemSt.view (foldl_keeps State.mem (fun s d => by simp only [State.passDue_frame]) _ _)).trans ?_
    exact (congrArg MemSt.view (by simp only [State.resetUpdates_frame])).trans (State.appendAll_view _)
  exact ⟨congrArg Prod.fst h, congrArg (·.2.1) h⟩

end Sys2Proof.Machine

namespace Sys2Proof.Proofs
open Sys2Proof Sys2Proof.Machine

/-- Settles O14: a decision writes its record and event over a base state (the copies swapped, the skip counted, or the state itself),
then closes the attempt; what follows depends on the base state alone. -/
theorem commitSkipAndAbort : Obligations.CommitSkipAndAbort := by
  unfold Obligations.CommitSkipAndAbort
  refine ⟨?_, ?_, ?_, ?_, ?_, ?_, ?_, ?_, ?_⟩
  case refine_1 =>
    intro s step att reason voter hold hr hn
    obtain ⟨heq, -, -⟩ := State.applyDecision_of_active hr step att reason voter hold
    have h := s.applyCommit_recorded step
    obtain ⟨hopen, hvoted, htoken, habort, -⟩ := (s.applyCommit step).concluded_closed .commit step att reason voter hold
    obtain ⟨hcopy, hskips, hatt⟩ := h.concluded_counts .commit step att reason voter hold
    obtain ⟨h0, h1⟩ := s.applyCommit_copies step
    refine ⟨_, heq, hcopy, ?_, ?_, ?_, ?_, hskips, hopen, hvoted, htoken, habort,
      hatt, (congrArg MemSt.copy0 (State.concluded_mem ..)).trans h0,
      (congrArg MemSt.copy1 (State.concluded_mem ..)).trans h1⟩
    · exact (h.concluded_pair_stepCount ..).trans (s.swapped_pair hn)
    · exact (h.concluded_reg _ _ _ _ _ _ (by decide) (by decide)).trans (s.swapped_commitSeq step)
    · exact (h.concluded_epoch ..).trans (congrArg (· + 1) (s.swapped_reg (by decide) (by decide) (by decide)))
    · exact (h.concluded_head ..).trans (s.swapped_nextRec step)
  case refine_2 =>
    intro s step att reason voter hold hr
    obtain ⟨-, heq, -⟩ := State.applyDecision_of_active hr step att reason voter hold
    have h := s.applySkip_recorded
    obtain ⟨hopen, hvoted, htoken, habort, -⟩ := s.applySkip.concluded_closed .skip step att reason voter hold
    obtain ⟨hcopy, hskips, hatt⟩ := h.concluded_counts .skip step att reason voter hold
    exact ⟨_, heq, hcopy, h.concluded_pair_stepCount ..,
      h.concluded_reg _ _ _ _ _ _ (by decide) (by decide), h.concluded_epoch .., h.concluded_head ..,
      hskips, hopen, hvoted, htoken, habort, hatt,
      (State.concluded_committed ..).trans h.committed⟩
  case refine_3 =>
    intro s step att reason voter hold hr hstep _
    obtain ⟨-, -, heq⟩ := State.applyDecision_of_active hr step att reason voter hold
    rw [State.applyAbort_own hstep] at heq
    have h := s.aborted_recorded reason voter
    obtain ⟨hopen, hvoted, htoken, habort, -⟩ := (s.aborted reason voter).concluded_closed .abort step att reason voter hold
    obtain ⟨hcopy, hskips, hatt⟩ := h.concluded_counts .abort step att reason voter hold
    exact ⟨_, heq, hcopy, h.concluded_pair_stepCount ..,
      h.concluded_reg _ _ _ _ _ _ (by decide) (by decide), h.concluded_epoch .., h.concluded_head ..,
      hskips, hopen, hvoted, htoken, habort, hatt,
      (State.concluded_committed ..).trans h.committed⟩
  case refine_4 =>
    intro s step att reason voter hold hr
    obtain ⟨heq, -, -⟩ := State.applyDecision_of_active hr step att reason voter hold
    have h := s.applyCommit_recorded step
    obtain ⟨-, -, -, -, hgroup⟩ := (s.applyCommit step).concluded_closed .commit step att reason voter hold
    obtain ⟨hphase, hhalt, hdue⟩ := h.concluded_next .commit step att reason voter hold
    obtain ⟨hevent, -, hheld⟩ := h.concluded_events .commit step att reason voter hold
    obtain ⟨bheld, bhalt, bphase, bdue⟩ := (s.swapped step).afterStp_commit hold
    have hg : (s.swapped step).regB R.TSK_STEP_GRAPH 31 = s.regB R.TSK_STEP_GRAPH 31 :=
      congrArg (bitOf · 31) (s.swapped_reg (by decide) (by decide) (by decide))
    rw [hg] at bphase bdue
    exact ⟨_, heq, hevent, hgroup, hhalt.trans bhalt, fun hh => hheld (bheld.trans hh), hphase.trans bphase, hdue.trans bdue⟩
  case refine_5 =>
    intro s step att reason voter hold limit hr hlimit
    obtain ⟨-, heq, -⟩ := State.applyDecision_of_active hr step att reason voter hold
    have h := s.applySkip_recorded
    obtain ⟨-, -, -, -, hgroup⟩ := s.applySkip.concluded_closed .skip step att reason voter hold
    obtain ⟨hphase, hhalt, hdue⟩ := h.concluded_next .skip step att reason voter hold
    obtain ⟨hevent, hlim, hheld⟩ := h.concluded_events .skip step att reason voter hold
    refine ⟨_, heq, hevent, hgroup, fun hne hle => ?_, fun hor => ?_⟩
    · have hb : s.skipped.haltsOnSkip .skip = true := by
        rw [s.skipped_haltsOnSkip, ← hlimit, decide_eq_true hne, decide_eq_true hle]; rfl
      obtain ⟨bphase, bhalt, bdue⟩ := State.afterStp_skip_halts hb hold
      exact ⟨hphase.trans bphase, hhalt.trans bhalt, hdue.trans bdue, hlim hb⟩
    · have hb : s.skipped.haltsOnSkip .skip = false := by
        rw [s.skipped_haltsOnSkip, ← hlimit]
        rcases hor with h0 | hlt
        · rw [h0]; rfl
        · rw [decide_eq_false (Nat.not_le.2 hlt), Bool.and_false]
      obtain ⟨bheld, bhalt, bphase, bdue⟩ := State.afterStp_skip hb hold
      exact ⟨hhalt.trans bhalt, fun hh => hheld (bheld.trans hh), hphase.trans bphase, hdue.trans bdue⟩
  case refine_6 =>
    intro s step att reason voter hold last hr hstep hlast
    obtain ⟨-, -, heq⟩ := State.applyDecision_of_active hr step att reason voter hold
    rw [State.applyAbort_own hstep] at heq
    have h := s.aborted_recorded reason voter
    obtain ⟨-, -, -, -, hgroup⟩ := (s.aborted reason voter).concluded_closed .abort step att reason voter hold
    obtain ⟨hphase, hhalt, hdue⟩ := h.concluded_next .abort step att reason voter hold
    obtain ⟨hevent, -, hheld⟩ := h.concluded_events .abort step att reason voter hold
    obtain ⟨bheld, bhalt, bphase, bdue⟩ := s.afterStp_abort hold
    have hl : s.haltsOnAbort .abort = last := hlast.symm
    rw [hl] at bheld bhalt bphase
    exact ⟨_, heq, hevent, hgroup, hhalt.trans bhalt, hphase.trans bphase, fun hh hn => hheld (by rw [bheld, hh, hn]; rfl), hdue.trans bdue⟩
  case refine_7 =>
    intro s step att reason voter hold hr
    obtain ⟨heq, -, -⟩ := State.applyDecision_of_active hr step att reason voter hold
    have hrec := (s.applyCommit_recorded step).concluded_record .commit step att reason voter hold
    rw [s.swapped_nextRec] at hrec
    refine ⟨_, heq, ?_⟩
    rw [hrec]
    have hhash := ((s.swapped step).mkRecord_hash step 1 0 0xFF).trans (State.imageHash_congr rfl)
    exact ⟨rfl, rfl, rfl, rfl, rfl, rfl, hhash, rfl, rfl, s.swapped_reg (by decide) (by decide) (by decide), rfl, rfl, rfl, rfl, rfl, rfl,
      rfl, rfl⟩
  case refine_8 =>
    intro s step att reason voter hold hr
    obtain ⟨-, heq, -⟩ := State.applyDecision_of_active hr step att reason voter hold
    have hrec := s.applySkip_recorded.concluded_record .skip step att reason voter hold
    refine ⟨_, heq, ?_⟩
    rw [show s.skipped.nextRec = s.nextRec from rfl] at hrec
    rw [hrec]
    have hhash := (s.skipped.mkRecord_hash s.stepNum 3 0 0xFF).trans (State.imageHash_congr rfl)
    exact ⟨rfl, rfl, rfl, rfl, rfl, rfl, hhash, rfl, rfl, rfl, rfl, rfl, rfl, rfl, rfl, rfl⟩
  case refine_9 =>
    intro s step att reason voter hold hr
    obtain ⟨-, -, heq⟩ := State.applyDecision_of_active hr step att reason voter hold
    have hrec := (s.aborted_recorded reason voter).concluded_record .abort step att reason voter hold
    rw [State.concluded_mem, ← s.applyAbort_mem step att, ← State.concluded_mem _ .abort step att reason voter hold] at hrec
    refine ⟨_, heq, ?_⟩
    rw [hrec]
    have hhash := s.abortRecord_hash reason voter
    exact ⟨rfl, rfl, rfl, rfl, rfl, rfl, hhash, rfl, rfl, rfl, rfl, rfl, rfl, rfl, rfl, rfl, rfl, rfl⟩

end Sys2Proof.Proofs
end

section
/-! SUPPORT. What notes events alone: the image changes of a new-step boundary. -/

namespace Sys2Proof.Machine
open Sys2Proof

/-! ### What only notes events and keeps the trim sets in force -/

/-- The EVENTS registers that a new-step boundary may set bits of, for any number of a die, and the counts of a full error log. -/
def noteReg (a : Nat) : Bool :=
  decide (a % 0x8000 = 8) || decide (a % 0x10000 = 0x110) || [R.MEM_EVENTS, R.ERR_EVENTS, R.ERR_DROP_CNT].contains a

theorem noteReg_arrEvents (d : Nat) : noteReg (R.ARR_EVENTS d) = true := by
  have : R.ARR_EVENTS d % 0x8000 = 8 := by unfold R.ARR_EVENTS; omega
  simp [noteReg, this]

theorem noteReg_mxeEvents (d : Nat) : noteReg (R.MXE_EVENTS d) = true := by
  have : R.MXE_EVENTS d % 0x8000 = 8 := by unfold R.MXE_EVENTS; omega
  simp [noteReg, this]

theorem noteReg_driftEvents (d : Nat) : noteReg (R.ARR_DRIFT_EVENTS d) = true := by
  have : R.ARR_DRIFT_EVENTS d % 0x10000 = 0x110 := by unfold R.ARR_DRIFT_EVENTS; omega
  simp [noteReg, this]

/-- `t` differs from `s` in the registers by set event bits and by what is written to the registers `x` alone. -/
structure State.NotesBut (x : List Nat) (s t : State) : Prop where
  reg : ∀ a, noteReg a = false → a ∉ x → t.reg a = s.reg a
  set : ∀ a i, a ≠ R.ERR_DROP_CNT → a ≠ R.ERR_EVENTS → a ∉ x → s.regB a i = true → t.regB a i = true

section NotesBut
variable {x : List Nat} {s t u : State}

theorem State.NotesBut.refl (x : List Nat) (s : State) : s.NotesBut x s := ⟨fun _ _ _ => rfl, fun _ _ _ _ _ h => h⟩

theorem State.NotesBut.trans (h : State.NotesBut x s t) (h' : State.NotesBut x t u) : State.NotesBut x s u where
  reg a ha hx := (h'.reg a ha hx).trans (h.reg a ha hx)
  set a i h1 h2 hx hb := h'.set a i h1 h2 hx (h.set a i h1 h2 hx hb)

theorem State.NotesBut.mono {y : List Nat} (h : State.NotesBut x s t) (hxy : x ⊆ y) : State.NotesBut y s t where
  reg a ha hy := h.reg a ha fun hx => hy (hxy hx)
  set a i h1 h2 hy := h.set a i h1 h2 fun hx => hy (hxy hx)

/-- What keeps the registers keeps the relation. -/
theorem State.NotesBut.keep (h : State.NotesBut x s t) (hregs : u.regs = t.regs) : State.NotesBut x s u where
  reg a ha hx := (congrArg (SMap.get regReset · a) hregs).trans (h.reg a ha hx)
  set a i h1 h2 hx hb := (congrArg (fun m => bitOf (SMap.get regReset m a) i) hregs).trans (h.set a i h1 h2 hx hb)

theorem State.NotesBut.event (h : State.NotesBut x s t) {a : Nat} (ha : noteReg a = true) (i : Nat) : State.NotesBut x s (t.event a i) where
  reg b hb hx := by
    rw [State.reg_event, if_neg fun e => by rw [e, ha] at hb; exact absurd hb (by decide)]
    exact h.reg b hb hx
  set b j h1 h2 hx hb := State.regB_event_of_regB (h.set b j h1 h2 hx hb)

theorem State.NotesBut.log (h : State.NotesBut x s t) (blk cls bit cause detail : Nat) : State.NotesBut x s (t.log blk cls bit cause detail) where
  reg b hb hx := by
    rw [State.reg_log _ _ (fun e => by rw [e] at hb; exact absurd hb (by decide)) (fun e => by rw [e] at hb; exact absurd hb (by decide))]
    exact h.reg b hb hx
  set b j h1 h2 hx hb := by
    unfold State.regB
    rw [State.reg_log _ _ h1 h2]
    exact h.set b j h1 h2 hx hb

theorem State.NotesBut.setReg (h : State.NotesBut x s t) {a : Nat} (ha : a ∈ x) (v : Word) : State.NotesBut x s (t.setReg a v) where
  reg b hb hx := by
    rw [State.reg_setReg, if_neg (ne_of_mem_of_not_mem ha hx).symm]
    exact h.reg b hb hx
  set b j h1 h2 hx hb := by
    unfold State.regB
    rw [State.reg_setReg, if_neg (ne_of_mem_of_not_mem ha hx).symm]
    exact h.set b j h1 h2 hx hb

theorem State.NotesBut.when {f : State → State} (h : State.NotesBut x s t) (hf : ∀ t, State.NotesBut x t (f t)) (c : Bool) :
    State.NotesBut x s (t.when c f) := by
  cases c
  · exact h
  · exact h.trans (hf t)

theorem State.NotesBut.foldl {α : Type} {f : State → α → State} (h : State.NotesBut x s t) (hf : ∀ t y, State.NotesBut x t (f t y))
    (l : List α) : State.NotesBut x s (l.foldl f t) := by
  induction l generalizing t with
  | nil => exact h
  | cons y l ih => exact ih (h.trans (hf t y))

end NotesBut

/-- What a die shows of its trim sets. -/
def KaolinSt.trim (k : KaolinSt) : Nat × Bool × Bool × Option Nat := (k.trimVer, k.bankSel, k.published, k.held)

/-- `t` differs from `s` in the registers by set event bits alone, and its dies show the same trim sets. -/
structure State.Noted (s t : State) : Prop where
  notes : State.NotesBut [] s t
  trim : ∀ d, (t.kao d).trim = (s.kao d).trim

section Noted
variable {s t u : State}

theorem State.Noted.refl (s : State) : s.Noted s := ⟨State.NotesBut.refl [] s, fun _ => rfl⟩

theorem State.Noted.trans (h : s.Noted t) (h' : t.Noted u) : s.Noted u := ⟨h.notes.trans h'.notes, fun d => (h'.trim d).trans (h.trim d)⟩

/-- What keeps the registers and the dies keeps the relation. -/
theorem State.Noted.keep (h : s.Noted t) (hregs : u.regs = t.regs) (hkao : u.kao = t.kao) : s.Noted u :=
  ⟨h.notes.keep hregs, fun d => (congrArg (fun k => (k d).trim) hkao).trans (h.trim d)⟩

theorem State.kao_of_arr (h : u.arr = t.arr) : u.kao = t.kao := congrArg (fun a d => SMap.get (fun _ => {}) a.die d) h

theorem State.Noted.keepArr (h : s.Noted t) (hregs : u.regs = t.regs) (harr : u.arr = t.arr) : s.Noted u :=
  h.keep hregs (State.kao_of_arr harr)

theorem State.Noted.event (h : s.Noted t) {a : Nat} (ha : noteReg a = true) (i : Nat) : s.Noted (t.event a i) :=
  ⟨h.notes.event ha i, h.trim⟩

theorem State.Noted.log (h : s.Noted t) (blk cls bit cause detail : Nat) : s.Noted (t.log blk cls bit cause detail) :=
  ⟨h.notes.log .., fun d => (congrArg (fun k => (k d).trim) (State.kao_of_arr (State.logEnt_arr ..))).trans (h.trim d)⟩

theorem State.Noted.when {f : State → State} (h : s.Noted t) (hf : ∀ t, State.Noted t (f t)) (c : Bool) : s.Noted (t.when c f) := by
  cases c
  · exact h
  · exact h.trans (hf t)

theorem State.Noted.foldl {α : Type} {f : State → α → State} (h : s.Noted t) (hf : ∀ t y, State.Noted t (f t y)) (l : List α) :
    s.Noted (l.foldl f t) := by
  induction l generalizing t with
  | nil => exact h
  | cons y l ih => exact ih (h.trans (hf t y))

theorem State.Noted.setPos (h : s.Noted t) (d p : Nat) (x : PosSt) : s.Noted (t.setPos d p x) := h.keep rfl rfl
theorem State.Noted.setTile (h : s.Noted t) (d p : Nat) (x : TileSt) : s.Noted (t.setTile d p x) := h.keep rfl rfl
theorem State.Noted.setPhys (h : s.Noted t) (d p : Nat) (x : PhysSt) : s.Noted (t.setPhys d p x) := h.keep rfl rfl
theorem State.Noted.setMat (h : s.Noted t) (d p : Nat) (x : MatSt) : s.Noted (t.setMat d p x) := h.keep rfl rfl

theorem State.Noted.setKao (h : s.Noted t) (d : Nat) {x : KaolinSt} (hx : x.trim = (t.kao d).trim) : s.Noted (t.setKao d x) where
  notes := h.notes.keep rfl
  trim e := by
    by_cases he : e = d
    · rw [he, State.kao_setKao, hx]; exact h.trim d
    · rw [State.kao_setKao_ne _ _ he]; exact h.trim e

theorem State.Noted.keepOld (h : s.Noted t) (v d p : Nat) : s.Noted (t.keepOld v d p) := by
  refine h.keep (by simp only [State.keepOld_frame]) ?_
  unfold State.keepOld
  split
  · split <;> rfl
  · rfl

theorem State.Noted.copyArea (h : s.Noted t) (x y d p : Nat) : s.Noted (t.copyArea x y d p) :=
  h.keepArr (by simp only [State.copyArea_frame]) (by simp only [State.copyArea_frame])

theorem State.Noted.shadowFrom (h : s.Noted t) (d p : Nat) (a : PhysSt) : s.Noted (t.shadowFrom d p a) :=
  h.keepArr (by simp only [State.shadowFrom_frame]) (by simp only [State.shadowFrom_frame])

end Noted

/-- The events and the mark of a refresh job. -/
def State.refreshNoted (s : State) (d p : Nat) : State :=
  let s := s.event (R.ARR_DRIFT_EVENTS d) 1
  let s := s.when ((s.posMat d p).elim false (fun m => s.hasMaster m.1)) (fun s => s.setPos d p { s.pos d p with mark := true })
  s.when (decide ((s.tile d (p / 16)).spare = .none)) (fun s => s.event (R.ARR_DRIFT_EVENTS d) 5)

theorem State.refreshNoted_noted (s : State) (d p : Nat) : s.Noted (s.refreshNoted d p) :=
  ((((State.Noted.refl s).event (noteReg_driftEvents d) 1).when (fun t => (State.Noted.refl t).setPos ..) _).when
    (fun t => (State.Noted.refl t).event (noteReg_driftEvents d) 5) _)

/-- The state in which a job is queued, and the job list it is queued in. -/
theorem State.queueJob_eq (s : State) (d p cls0 : Nat) : ∃ (jobs : List Job) (age : Nat → Nat),
    s.queueJob d p cls0 = ((s.when (decide (cls0 = 3) || decide (cls0 = 4)) (fun s => s.refreshNoted d p)).setKao d
      { s.kao d with jobs := jobs }).modArr (fun a => { a with jobAge := age a.jobAge }) := by
  unfold State.queueJob
  dsimp only
  split
  · exact ⟨_, id, rfl⟩
  · exact ⟨_, (· + 1), rfl⟩

theorem State.queueJob_noted (s : State) (d p cls0 : Nat) : s.Noted (s.queueJob d p cls0) := by
  obtain ⟨jobs, age, heq⟩ := s.queueJob_eq d p cls0
  have hn : s.Noted (s.when (decide (cls0 = 3) || decide (cls0 = 4)) (fun s => s.refreshNoted d p)) :=
    (State.Noted.refl s).when (fun t => t.refreshNoted_noted d p) _
  rw [heq]
  exact (hn.setKao d (x := { s.kao d with jobs := jobs }) (hn.trim d).symm).keep rfl rfl

theorem State.takeTargets_noted (s : State) (v d p : Nat) : s.Noted (s.takeTargets v d p) := by
  unfold State.takeTargets
  split
  · exact State.Noted.refl s
  · exact (((State.Noted.refl s).keepOld ..).copyArea ..).setPos ..

theorem State.fbFollow_noted (s : State) (v d p : Nat) : s.Noted (s.fbFollow v d p) := by
  unfold State.fbFollow
  split
  · exact ((s.takeTargets_noted v d p).setPos ..).trans (State.queueJob_noted ..)
  · exact s.takeTargets_noted v d p

theorem State.fbExit_noted (s : State) (v layer : Nat) : s.Noted (s.fbExit v layer) := by
  unfold State.fbExit
  refine (State.Noted.refl s).foldl (fun t q => ?_) _
  dsimp only
  exact ((((State.Noted.refl t).keepOld ..).setPos ..).shadowFrom ..).event (noteReg_driftEvents q.1) 7

theorem State.fbEnter_noted (s : State) (v layer cause : Nat) : s.Noted (s.fbEnter v layer cause) := by
  unfold State.fbEnter
  refine (State.Noted.refl s).foldl (fun t q => ?_) _
  dsimp only
  refine (((((t.takeTargets_noted v q.1 q.2).setPos ..).when ?_ _).trans (State.queueJob_noted ..)).event (noteReg_driftEvents q.1) 6)
  exact fun u => (State.Noted.refl u).event (noteReg_mxeEvents _) 5

theorem State.swapTile_noted (s : State) (d t p v : Nat) : s.Noted (s.swapTile d t p v) := by
  unfold State.swapTile
  dsimp only
  refine ((State.Noted.setTile ?_ ..).shadowFrom ..).event (noteReg_driftEvents d) 2
  split
  · exact ((((State.Noted.refl s).keepOld ..).setPos ..).setPhys ..).setPhys ..
  · exact (((State.Noted.refl s).keepOld ..).setPos ..).setPhys ..

theorem State.swapAll_noted (s : State) (v : Nat) (out : List Nat) : s.Noted (s.swapAll v out) :=
  (State.Noted.refl s).foldl (fun t x => by
    split
    · exact State.swapTile_noted ..
    · exact (State.Noted.refl t).setTile ..) _

theorem State.loadedIn_noted (s : State) (v : Nat) : s.Noted (s.loadedIn v) :=
  (State.Noted.refl s).foldl (fun t q => by
    dsimp only
    split
    · exact ((((State.Noted.refl t).keepOld ..).setPos ..).shadowFrom ..).copyArea .. |>.when (fun u => u.queueJob_noted ..) _
    · exact State.Noted.refl t) _

/-- Swaps, fallback entries and exits note events and leave the trim sets. -/
theorem State.imageChanges_noted (s : State) (v : Nat) : s.Noted (s.imageChanges v) := by
  unfold State.imageChanges
  refine State.Noted.foldl (State.Noted.foldl ((s.loadedIn_noted v).trans (State.swapAll_noted ..)) (fun t x => State.fbEnter_noted ..) _)
    (fun t l => ?_) _
  dsimp only
  split
  · exact State.fbExit_noted ..
  · exact (State.Noted.refl t).foldl (fun u x => State.fbFollow_noted ..) _

end Sys2Proof.Machine
end

section
/-! SUPPORT. The trim changes of a new-step boundary. -/

namespace Sys2Proof.Machine
open Sys2Proof

/-! ### The trim sets at a boundary -/

/-- What every step of a fold over a list keeps, the fold keeps. -/
theorem foldl_keeps_of_mem {α σ β : Type} (g : σ → β) {f : σ → α → σ} {l : List α} (h : ∀ s, ∀ x ∈ l, g (f s x) = g s) (s : σ) :
    g (l.foldl f s) = g s := by
  induction l generalizing s with
  | nil => rfl
  | cons x l ih =>
    rw [List.foldl_cons, ih fun s y hy => h s y (List.mem_cons_of_mem x hy), h s x List.mem_cons_self]

/-- The positions of a die that swapped since `before`. -/
def State.swappedIn (s before : State) (d : Nat) : List (Nat × Nat) :=
  (s.allPos.filter (fun q => q.1 == d)).filter (fun q => decide ((s.pos d q.2).slot ≠ (before.pos d q.2).slot))

/-- The set of a die that comes into force: the published one, or the one in force, with the swapped groups formed anew. -/
def State.newTrim (s before : State) (d : Nat) : SMap TrimEnt :=
  (s.swappedIn before d).foldl (fun b q => match s.posMat d q.2 with
    | some (e, cb, rb) => s.trimGroup d e cb (rb / 16) b
    | none => b) (if (s.kao d).published then (s.kao d).otherBank else (s.kao d).bankInForce)

/-- A die with its former bank free and a published set or a swap. -/
def State.trimDue (s before : State) (d : Nat) : Bool := (s.kao d).held.isNone && ((s.kao d).published || !(s.swappedIn before d).isEmpty)

/-- The trim change of one die (R110 to R112). -/
def State.trimChange (s before : State) (v : Nat) (d : Nat) : State :=
  if s.trimDue before d then
    (s.setKao d { (s.kao d).setOther (s.newTrim before d) with
      bankSel := !(s.kao d).bankSel, trimVer := ((s.kao d).trimVer + 1) % 2 ^ 32, published := false, held := some v }).event R.STEP_EVENTS 8
  else s

theorem State.trimChanges_eq (s before : State) (v : Nat) : s.trimChanges before v = (List.range 16).foldl (fun s d => s.trimChange before v d) s := rfl

section TrimChange
variable (s before : State) (v d : Nat)

theorem State.trimChange_notes : State.NotesBut [] s (s.trimChange before v d) := by
  unfold State.trimChange
  split
  · refine State.NotesBut.event ?_ (by decide) 8
    exact (State.NotesBut.refl [] s).keep rfl
  · exact State.NotesBut.refl [] s

theorem State.trimChange_pos : (s.trimChange before v d).arr.pos = s.arr.pos := by
  unfold State.trimChange
  split <;> rfl

theorem State.trimChange_kao_ne {e : Nat} (h : e ≠ d) : (s.trimChange before v d).kao e = s.kao e := by
  unfold State.trimChange
  split
  · exact State.kao_setKao_ne _ _ h
  · rfl

/-- A die whose former bank is still held keeps its set. -/
theorem State.trimChange_held (h : (s.kao d).held ≠ none) : s.trimChange before v d = s := by
  refine if_neg ?_
  rw [State.trimDue, Option.isNone_eq_false_iff.2 (Option.isSome_iff_ne_none.2 h), Bool.false_and]
  decide

/-- A published set of a die whose former bank is free comes into force. -/
theorem State.trimChange_published (hh : (s.kao d).held = none) (hp : (s.kao d).published = true) :
    ((s.trimChange before v d).kao d).trim = (((s.kao d).trimVer + 1) % 2 ^ 32, !(s.kao d).bankSel, false, some v) ∧
      (s.trimChange before v d).regB R.STEP_EVENTS 8 = true := by
  have hdue : s.trimDue before d = true := by rw [State.trimDue, hh, hp]; rfl
  rw [State.trimChange, if_pos hdue]
  refine ⟨?_, State.regB_event_self _ _ (by decide)⟩
  exact congrArg KaolinSt.trim (State.kao_setKao ..)

theorem State.trimChanges_notes : State.NotesBut [] s (s.trimChanges before v) := by
  rw [State.trimChanges_eq]
  exact (State.NotesBut.refl [] s).foldl (fun t d => t.trimChange_notes before v d) _

theorem State.trimChanges_pos : (s.trimChanges before v).arr.pos = s.arr.pos := by
  rw [State.trimChanges_eq]
  generalize List.range 16 = l
  exact foldl_keeps (fun s : State => s.arr.pos) (fun t d => t.trimChange_pos before v d) _ s

/-- A die's trim set after all changes is that after its own change. -/
theorem State.trimChanges_die {d : Nat} (hd : d < 16) : ∃ a : State, a.kao d = s.kao d ∧
    (s.trimChanges before v).kao d = (a.trimChange before v d).kao d ∧ State.NotesBut [] (a.trimChange before v d) (s.trimChanges before v) := by
  obtain ⟨l, r, hlr⟩ := List.append_of_mem (List.mem_range.2 hd)
  have hnd : (l ++ d :: r).Nodup := hlr ▸ List.nodup_range
  obtain ⟨-, hdr, hdis⟩ := List.nodup_append.1 hnd
  have hl : ∀ e ∈ l, d ≠ e := fun e he h => hdis e he d List.mem_cons_self h.symm
  have hr : ∀ e ∈ r, d ≠ e := fun e he h => (List.nodup_cons.1 hdr).1 (h ▸ he)
  rw [State.trimChanges_eq, hlr, List.foldl_append, List.foldl_cons]
  exact ⟨_, foldl_keeps_of_mem (fun s : State => s.kao d) (fun t e he => t.trimChange_kao_ne before v e (hl e he)) s,
    foldl_keeps_of_mem (fun s : State => s.kao d) (fun t e he => t.trimChange_kao_ne before v e (hr e he)) _,
    (State.NotesBut.refl [] _).foldl (fun t e => t.trimChange_notes before v e) _⟩

end TrimChange

end Sys2Proof.Machine
end

section
/-! SUPPORT. The format policy and DUTY_SPLIT at a new-step boundary. -/

namespace Sys2Proof.Machine
open Sys2Proof

/-! ### The format policy takes effect -/

theorem State.pol_takePol (s : State) (a b : Nat) : (s.takePol b).pol a = if a = b then s.reg a else s.pol a := by
  split
  · next h => subst h; exact SMap.get_set_self
  · next h => exact SMap.get_set_ne h

theorem State.takePols_regs (s : State) (l : List Nat) : (l.foldl State.takePol s).regs = s.regs :=
  foldl_keeps State.regs State.takePol_regs l s

/-- The registers of a list take the value last written; the policy of any other stays. -/
theorem State.pol_takePols (s : State) (a : Nat) (l : List Nat) : (l.foldl State.takePol s).pol a = if a ∈ l then s.reg a else s.pol a := by
  induction l generalizing s with
  | nil => rw [if_neg List.not_mem_nil]; rfl
  | cons b l ih =>
    rw [List.foldl_cons, ih, State.pol_takePol]
    by_cases hl : a ∈ l
    · rw [if_pos hl, if_pos (List.mem_cons_of_mem b hl)]; rfl
    · simp only [hl, List.mem_cons, or_false, if_false]

/-- A parameter takes effect where it lies in its range. -/
def State.takeParam (s : State) (p : Nat × (Word → Bool)) : State := if p.2 (s.reg p.1) then s.takePol p.1 else s.badParam p.1

theorem State.takeParam_noted (s : State) (p : Nat × (Word → Bool)) : s.Noted (s.takeParam p) := by
  unfold State.takeParam
  split
  · exact (State.Noted.refl s).keep rfl rfl
  · exact ((State.Noted.refl s).event (by decide) 1).log ..

theorem State.pol_takeParam (s : State) (p : Nat × (Word → Bool)) (a : Nat) :
    (s.takeParam p).pol a = if a = p.1 ∧ p.2 (s.reg p.1) = true then s.reg a else s.pol a := by
  unfold State.takeParam
  split
  · next h => rw [State.pol_takePol]; simp only [h, and_true]
  · next h =>
    rw [if_neg fun hc => h hc.2]
    exact congrArg (SMap.get regReset · a) (State.logEnt_policy ..)

theorem State.pol_takeParams_of_notMem {l : List (Nat × (Word → Bool))} {a : Nat} (h : a ∉ l.map Prod.fst) (s : State) :
    (l.foldl State.takeParam s).pol a = s.pol a :=
  foldl_keeps_of_mem (fun s : State => s.pol a) (fun s p hp =>
    (s.pol_takeParam p a).trans (if_neg fun ⟨he, _⟩ => h (he ▸ List.mem_map_of_mem hp))) s

/-- A parameter of the list is in force as written where it lies in its range, and keeps its value in force otherwise. -/
theorem State.pol_takeParams {l : List (Nat × (Word → Bool))} (hnd : (l.map Prod.fst).Nodup) {a : Nat} {f : Word → Bool} (ha : (a, f) ∈ l)
    (hn : noteReg a = false) (s : State) : (l.foldl State.takeParam s).pol a = if f (s.reg a) then s.reg a else s.pol a := by
  induction l generalizing s with
  | nil => exact absurd ha List.not_mem_nil
  | cons p l ih =>
    obtain ⟨hp, hnd'⟩ := List.nodup_cons.1 hnd
    rw [List.foldl_cons]
    rcases List.mem_cons.1 ha with rfl | hmem
    · rw [State.pol_takeParams_of_notMem hp, State.pol_takeParam]
      simp only [true_and]
    · have hne : a ≠ p.1 := fun e => hp (e ▸ List.mem_map_of_mem hmem)
      have hpol : (s.takeParam p).pol a = s.pol a := (s.pol_takeParam p a).trans (if_neg fun ⟨he, _⟩ => hne he)
      rw [ih hnd' hmem, hpol, (s.takeParam_noted p).notes.reg a hn List.not_mem_nil]

/-- The state with every policy register and every parameter in range taken. -/
def State.policySet (s : State) : State := paramRegs.foldl State.takeParam (policyRegs.foldl State.takePol s)

theorem State.takePolicy_eq (s : State) : s.takePolicy =
    s.policySet.when (decide (s.policySet.polF R.UPD_CTRL 7 6 = 3) && !decide (s.polF R.UPD_CTRL 7 6 = 3)) (fun s => s.log 0x10 1 0xFF 1 3) := rfl

theorem State.takePolicy_policy (s : State) : s.takePolicy.policy = s.policySet.policy := by
  rw [State.takePolicy_eq]
  exact State.when_keeps State.policy (State.logEnt_policy ..)

theorem State.takePols_noted (s : State) (l : List Nat) : s.Noted (l.foldl State.takePol s) :=
  (State.Noted.refl s).foldl (fun t a => (State.Noted.refl t).keep (t.takePol_regs a) rfl) l

theorem State.takeParams_noted (s : State) (l : List (Nat × (Word → Bool))) : s.Noted (l.foldl State.takeParam s) :=
  (State.Noted.refl s).foldl State.takeParam_noted l

theorem State.policySet_noted (s : State) : s.Noted s.policySet := (s.takePols_noted policyRegs).trans (State.takeParams_noted _ paramRegs)

theorem State.takePolicy_noted (s : State) : s.Noted s.takePolicy := by
  rw [State.takePolicy_eq]
  exact s.policySet_noted.when (fun t => (State.Noted.refl t).log ..) _

theorem State.takePolicy_pol (s : State) (a : Nat) : s.takePolicy.pol a = s.policySet.pol a :=
  congrArg (SMap.get regReset · a) s.takePolicy_policy

/-- The parameters are neither event registers nor registers of the format policy. -/
theorem paramRegs_apart : ∀ a ∈ paramRegs.map Prod.fst, noteReg a = false ∧ a ∉ policyRegs := by decide

/-- A format-policy register is in force as written. -/
theorem State.takePolicy_pol_policy (s : State) {a : Nat} (ha : a ∈ policyRegs) : s.takePolicy.pol a = s.reg a := by
  have hp : a ∉ paramRegs.map Prod.fst := fun h => (paramRegs_apart a h).2 ha
  rw [State.takePolicy_pol, State.policySet, State.pol_takeParams_of_notMem hp, State.pol_takePols, if_pos ha]

/-- A parameter is in force as written where it lies in its range, and keeps its value in force otherwise. -/
theorem State.takePolicy_pol_param (s : State) {a : Nat} {f : Word → Bool} (ha : (a, f) ∈ paramRegs) :
    s.takePolicy.pol a = if f (s.reg a) then s.reg a else s.pol a := by
  have hfst : a ∈ paramRegs.map Prod.fst := List.mem_map_of_mem (f := Prod.fst) ha
  obtain ⟨hn, hp⟩ := paramRegs_apart a hfst
  have hreg : (policyRegs.foldl State.takePol s).reg a = s.reg a := congrArg (SMap.get regReset · a) (s.takePols_regs policyRegs)
  rw [State.takePolicy_pol, State.policySet, State.pol_takeParams (by decide) ha hn, State.pol_takePols, if_neg hp, hreg]

/-! ### DUTY_SPLIT -/

/-- The bits of the mask take the pending mode, the others keep the one in force. -/
theorem State.dutySet_bit (s : State) (mask : Nat) {i : Nat} (hi : i < 14) :
    (s.dutySet mask).regB R.DUTY_SPLIT_USED i = if mask.testBit i then s.regB R.DUTY_SPLIT i else s.regB R.DUTY_SPLIT_USED i := by
  have hones : (0x3FFF : Nat).testBit i = true := by
    rw [show (0x3FFF : Nat) = 2 ^ 14 - 1 from rfl, Nat.testBit_two_pow_sub_one, decide_eq_true hi]
  unfold State.regB State.dutySet bitOf
  rw [State.reg_setRegN, if_pos rfl, BitVec.toNat_ofNat, Nat.testBit_mod_two_pow, decide_eq_true (by omega), Bool.true_and,
    Nat.testBit_or, Nat.testBit_and, Nat.testBit_xor, Nat.testBit_and, Nat.testBit_and, hones]
  cases mask.testBit i <;> simp

/-- A change of bits that the mask leaves out keeps a bit in force. -/
theorem State.dutySet_bit_out (s : State) {mask i : Nat} (hi : i < 14) (hm : mask.testBit i = false) :
    (s.dutySet mask).regB R.DUTY_SPLIT_USED i = s.regB R.DUTY_SPLIT_USED i := by
  rw [s.dutySet_bit mask hi, hm]
  rfl

theorem State.dutySet_noted (s : State) (mask : Nat) : State.NotesBut [R.DUTY_SPLIT_USED] s (s.dutySet mask) :=
  (State.NotesBut.refl _ s).setReg List.mem_cons_self _

/-- A step of a duty change keeps the bits of the step mask in force. -/
def State.KeepsStepDuty (s t : State) : Prop :=
  State.NotesBut [R.DUTY_SPLIT_USED] s t ∧ ∀ i, i < 14 → dutyStepMask.testBit i = true → t.regB R.DUTY_SPLIT_USED i = s.regB R.DUTY_SPLIT_USED i

theorem State.KeepsStepDuty.trans {s t u : State} (h : s.KeepsStepDuty t) (h' : t.KeepsStepDuty u) : s.KeepsStepDuty u :=
  ⟨h.1.trans h'.1, fun i hi hm => (h'.2 i hi hm).trans (h.2 i hi hm)⟩

theorem State.KeepsStepDuty.of_regs {s t : State} (h : t.regs = s.regs) : s.KeepsStepDuty t :=
  ⟨(State.NotesBut.refl _ s).keep h, fun i _ _ => congrArg (fun m => bitOf (SMap.get regReset m R.DUTY_SPLIT_USED) i) h⟩

theorem State.KeepsStepDuty.dutySet (s : State) {mask : Nat} (h : dutyStepMask &&& mask = 0) : s.KeepsStepDuty (s.dutySet mask) := by
  refine ⟨s.dutySet_noted mask, fun i hi hm => s.dutySet_bit_out hi ?_⟩
  have hand : (dutyStepMask &&& mask).testBit i = false := by rw [h, Nat.zero_testBit]
  rwa [Nat.testBit_and, hm, Bool.true_and] at hand

theorem State.dutyCtx_keeps (s : State) : s.KeepsStepDuty s.dutyCtx := by
  have hstep : ∀ (t : State) (fn : Nat), dutyStepMask &&& 2 ^ (fn - 1) = 0 →
      t.KeepsStepDuty (if t.dutyCtxDone fn then t.dutySet (2 ^ (fn - 1)) else t) := fun t fn h => by
    split
    · exact State.KeepsStepDuty.dutySet t h
    · exact State.KeepsStepDuty.of_regs rfl
  exact (hstep s 2 (by decide)).trans (hstep _ 13 (by decide))

theorem State.dutyBound_keeps (s : State) : s.KeepsStepDuty s.dutyBound := by
  unfold State.dutyBound
  split
  · exact State.KeepsStepDuty.of_regs rfl
  · have hset := State.KeepsStepDuty.dutySet s (mask := dutyBoundMask) (by decide)
    have hload : s.KeepsStepDuty (if (s.dutySet dutyBoundMask).fnHost 14 = s.fnHost 14 then s.dutySet dutyBoundMask
        else (s.dutySet dutyBoundMask).loadHolds) := by
      split
      · exact hset
      · exact hset.trans (State.KeepsStepDuty.of_regs (by simp only [State.loadHolds_frame]))
    have hlast : ∀ u : State, u.KeepsStepDuty (if u.windowsEmpty then u.dutySet 1 else u) := fun u => by
      split
      · exact State.KeepsStepDuty.dutySet u (by decide)
      · exact State.KeepsStepDuty.of_regs rfl
    exact hload.trans (hlast _)

end Sys2Proof.Machine
end

section
/-! SUPPORT. What the release of older views leaves of the image set and of the trim sets. -/

namespace Sys2Proof.Machine
open Sys2Proof

/-! ### What a release leaves of the image set -/

/-- What the image set shows of a position. -/
def PosSt.shown (p : PosSt) : Nat × Bool × Bool := (p.version, p.fb, p.msUse)

/-- The array map, the view, and what the image set shows. -/
def State.shown (s : State) : List MatEnt × Nat × (Nat → Nat → Nat × Bool × Bool) := (s.arr.map, s.arr.view, fun d p => (s.pos d p).shown)

theorem State.imageView_of_shown {s t : State} (h : t.shown = s.shown) : t.imageView = s.imageView := by
  have hmap : t.arr.map = s.arr.map := congrArg (·.1) h
  have hpos : ∀ d p, (t.pos d p).shown = (s.pos d p).shown := fun d p => congrArg (fun x => x.2.2 d p) h
  unfold State.imageView
  rw [show t.allPos = s.allPos by unfold State.allPos; rw [hmap]]
  exact List.map_congr_left fun q _ => hpos q.1 q.2

theorem State.view_of_shown {s t : State} (h : t.shown = s.shown) : t.arr.view = s.arr.view := congrArg (·.2.1) h

theorem State.shown_of_arr {s t : State} (h : t.arr = s.arr) : t.shown = s.shown :=
  congrArg (fun a : ArrSt => (a.map, a.view, fun d p => (SMap.get posDefault a.pos (d * 1536 + p)).shown)) h

theorem State.shown_setPos (s : State) {d p : Nat} {x : PosSt} (h : x.shown = (s.pos d p).shown) : (s.setPos d p x).shown = s.shown := by
  refine Prod.ext rfl (Prod.ext rfl ?_)
  funext e q
  show ((s.setPos d p x).pos e q).shown = (s.pos e q).shown
  by_cases hk : e * 1536 + q = d * 1536 + p
  · have he : ∀ t : State, t.pos e q = t.pos d p := fun t => congrArg (SMap.get posDefault t.arr.pos) hk
    rw [he, he, State.pos_setPos, h]
  · exact congrArg PosSt.shown (SMap.get_set_ne hk)

/-- A die's trim version, bank selection and publication: what a release of its former bank leaves. -/
def KaolinSt.inForce (k : KaolinSt) : Nat × Bool × Bool := (k.trimVer, k.bankSel, k.published)

/-- `t` is `s` with events noted and held things released: trim sets in force, array map, view and image set are the same. -/
structure State.Released (s t : State) : Prop where
  notes : State.NotesBut [] s t
  trim : ∀ d, (t.kao d).inForce = (s.kao d).inForce
  shown : t.shown = s.shown

section Released
variable {s t u : State}

theorem State.Noted.inForce (h : s.Noted t) (d : Nat) : (t.kao d).inForce = (s.kao d).inForce :=
  congrArg (fun x : Nat × Bool × Bool × Option Nat => (x.1, x.2.1, x.2.2.1)) (h.trim d)

theorem State.Noted.released (h : s.Noted t) (hs : t.shown = s.shown) : s.Released t := ⟨h.notes, h.inForce, hs⟩

theorem State.Released.refl (s : State) : s.Released s := (State.Noted.refl s).released rfl

theorem State.Released.trans (h : s.Released t) (h' : t.Released u) : s.Released u :=
  ⟨h.notes.trans h'.notes, fun d => (h'.trim d).trans (h.trim d), h'.shown.trans h.shown⟩

theorem State.Released.when {f : State → State} (h : s.Released t) (hf : ∀ t, State.Released t (f t)) (c : Bool) : s.Released (t.when c f) := by
  cases c
  · exact h
  · exact h.trans (hf t)

theorem State.Released.foldl {α : Type} {f : State → α → State} (h : s.Released t) (hf : ∀ t y, State.Released t (f t y)) (l : List α) :
    s.Released (l.foldl f t) := by
  induction l generalizing t with
  | nil => exact h
  | cons y l ih => exact ih (h.trans (hf t y))

theorem State.Released.event (h : s.Released t) (d i : Nat) : s.Released (t.event (R.ARR_DRIFT_EVENTS d) i) :=
  h.trans (((State.Noted.refl t).event (noteReg_driftEvents d) i).released rfl)

theorem State.Released.setPos (h : s.Released t) {d p : Nat} {x : PosSt} (hx : x.shown = (t.pos d p).shown) : s.Released (t.setPos d p x) :=
  h.trans (((State.Noted.refl t).setPos d p x).released (t.shown_setPos hx))

theorem State.Released.setTile (h : s.Released t) (d p : Nat) (x : TileSt) : s.Released (t.setTile d p x) :=
  h.trans (((State.Noted.refl t).setTile d p x).released rfl)

theorem State.Released.log (h : s.Released t) (blk cls bit cause detail : Nat) : s.Released (t.log blk cls bit cause detail) :=
  h.trans (((State.Noted.refl t).log ..).released (State.shown_of_arr (State.logEnt_arr ..)))

theorem State.Released.retireArray (h : s.Released t) (d tile slot : Nat) : s.Released (t.retireArray d tile slot) :=
  h.trans ((((State.Noted.refl t).setPhys ..).setTile ..).released rfl)

theorem State.Released.enterNone (h : s.Released t) (d tile : Nat) : s.Released (t.enterNone d tile) :=
  (h.setTile ..).when (fun u => (State.Released.refl u).event d 5) _

theorem State.refreshNoted_shown (s : State) (d p : Nat) : (s.refreshNoted d p).shown = s.shown := by
  refine (State.when_keeps State.shown rfl).trans (State.when_keeps State.shown ?_)
  exact State.shown_setPos _ rfl

theorem State.queueJob_shown (s : State) (d p cls0 : Nat) : (s.queueJob d p cls0).shown = s.shown := by
  obtain ⟨jobs, age, heq⟩ := s.queueJob_eq d p cls0
  rw [heq]
  exact State.when_keeps State.shown (s.refreshNoted_shown d p)

theorem State.Released.queueJob (h : s.Released t) (d p cls0 : Nat) : s.Released (t.queueJob d p cls0) :=
  h.trans ((t.queueJob_noted d p cls0).released (t.queueJob_shown d p cls0))

end Released

theorem State.releasePos_released (s : State) (k : Nat) : s.Released (s.releasePos k) := by
  unfold State.releasePos
  dsimp only
  split
  · split
    · exact State.Released.refl s
    · have hprev : s.Released (s.setPos (k / 1536) (k % 1536) { s.pos (k / 1536) (k % 1536) with prev := none }) :=
        (State.Released.refl s).setPos rfl
      split
      · exact ((((hprev.retireArray ..).event ..).when (fun u => (State.Released.refl u).event (k / 1536) 5) _).enterNone ..).log ..
      · split
        · refine ((hprev.setPos ?_).enterNone ..).queueJob ..
          rfl
        · exact hprev.setTile ..
  · exact State.Released.refl s

/-- The former trim bank of a die is let go once no token uses it (R112). -/
def State.releaseBank (s : State) (d : Nat) : State :=
  match (s.kao d).held with
  | some v => if s.olderToken v then s else s.setKao d { s.kao d with held := none }
  | none => s

theorem State.releaseBank_released (s : State) (d : Nat) : s.Released (s.releaseBank d) := by
  unfold State.releaseBank
  split
  · split
    · exact State.Released.refl s
    · refine ⟨(State.NotesBut.refl [] s).keep rfl, fun e => ?_, rfl⟩
      by_cases he : e = d
      · rw [he, State.kao_setKao]; rfl
      · rw [State.kao_setKao_ne _ _ he]
  · exact State.Released.refl s

/-- Older RANGE values, fallback states and shadow codes are let go once no token uses them (R95, R124). -/
def State.releaseViews (s : State) : State :=
  s.releaseRanges.modArr (fun a => { a with
    pos := a.pos.map (fun p => (p.1, { p.2 with fbWas := p.2.fbWas.filter (fun x => s.olderToken x.1) }))
    old := a.old.filter (fun o => s.olderToken o.view) })

/-- A change of the listed values that keeps a part keeps that part of every value. -/
theorem SMap.get_map_keeps {α β : Type} (g : α → β) {f : α → α} (hf : ∀ x, g (f x) = g x) (d : Nat → α) (m : SMap α) (k : Nat) :
    g (SMap.get d (m.map (fun p => (p.1, f p.2))) k) = g (SMap.get d m k) := by
  induction m with
  | nil => rfl
  | cons p m ih =>
    obtain ⟨j, v⟩ := p
    rw [List.map_cons, SMap.get, SMap.get]
    split
    · exact hf v
    · exact ih

theorem State.releaseViews_released (s : State) : s.Released s.releaseViews :=
  ⟨(State.NotesBut.refl [] s).keep rfl, fun _ => rfl, Prod.ext rfl (Prod.ext rfl (funext fun _ => funext fun _ =>
    SMap.get_map_keeps PosSt.shown (f := fun x => { x with fbWas := x.fbWas.filter (fun y => s.olderToken y.1) }) (fun _ => rfl) posDefault s.arr.pos _))⟩

theorem State.releaseOld_eq (s : State) : s.releaseOld =
    ((List.range 16).foldl State.releaseBank ((SMap.keys s.arr.pos).foldl State.releasePos s)).releaseViews := rfl

theorem State.releaseOld_released (s : State) : s.Released s.releaseOld := by
  rw [State.releaseOld_eq]
  exact (((State.Released.refl s).foldl State.releasePos_released _).foldl State.releaseBank_released _).trans
    (State.releaseViews_released _)

end Sys2Proof.Machine
end

section
/-! SUPPORT. Gradient formats, step size, constants, stash plan and sequence number at a new-step boundary. -/

namespace Sys2Proof.Machine
open Sys2Proof

/-! ### The other parts of a new-step boundary -/

theorem State.msRefresh_noted (s : State) : s.Noted s.msRefresh := by
  unfold State.msRefresh
  refine (State.Noted.refl s).foldl (fun t q => ?_) _
  exact (State.Noted.refl t).setPos ..

theorem State.takeRange_noted (s : State) (k idx v : Nat) : s.Noted (s.takeRange k idx v) :=
  ((State.Noted.refl s).setMat ..).when (fun t => (State.Noted.refl t).event (noteReg_arrEvents k) 6) _

theorem State.rangeChanges_noted (s : State) (v : Nat) (held : Bool) : s.Noted (s.rangeChanges v held) := by
  unfold State.rangeChanges
  refine ((State.Noted.refl s).keep (u := s.releaseRanges) rfl rfl).foldl (fun t e => ?_) _
  dsimp only
  split
  · exact t.takeRange_noted ..
  · exact State.Noted.refl t

theorem State.trainRanges_noted (s : State) : s.Noted s.trainRanges := by
  unfold State.trainRanges
  refine (State.Noted.refl s).foldl (fun t e => ?_) _
  exact (State.Noted.refl t).setMat ..

theorem State.logHostExp_noted (s : State) : s.Noted s.logHostExp := by
  unfold State.logHostExp
  refine (State.Noted.refl s).foldl (fun t i => ?_) _
  split
  · exact (State.Noted.refl t).log ..
  · exact State.Noted.refl t

/-! ### The gradient formats -/

/-- The gradient phase, the recovery steps left and whether a boundary has been passed: what the choice of formats leaves. -/
def FmtSt.phases (f : FmtSt) : Nat × Nat × Bool := (f.phase, f.recoveryLeft, f.began)

/-- One layer's format as the host's table gives it (R77). -/
def State.hostGradFormat (s : State) (l : Nat) : State :=
  let v := s.hbmNum (s.polPair R.DUTY_GF_BASE + l) 1 % 4
  let old := SMap.get (fun _ => 0) s.fmt.cur l
  let w := if v = 0 then 1 else v
  let s := if v = 0 then s.log 9 1 0xFF 2 l else s
  s.modFmt (fun f => { f with cur := SMap.set (fun _ => 0) f.cur l w, narrowed := f.narrowed + (if gradWidth w < gradWidth old then 1 else 0) })

theorem State.hostGradFormat_noted (s : State) (l : Nat) : s.Noted (s.hostGradFormat l) := by
  unfold State.hostGradFormat
  dsimp only
  split
  · exact ((State.Noted.refl s).log ..).keep rfl rfl
  · exact (State.Noted.refl s).keep rfl rfl

theorem State.hostGradFormat_phases (s : State) (l : Nat) : (s.hostGradFormat l).fmt.phases = s.fmt.phases := by
  unfold State.hostGradFormat
  dsimp only
  split
  · have hlog : (s.log 9 1 0xFF 2 l).fmt.phases = s.fmt.phases := congrArg FmtSt.phases (State.logEnt_fmt ..)
    exact hlog
  · rfl

theorem State.gradFormats_noted (s : State) (entered : Bool) : s.Noted (s.gradFormats entered) := by
  unfold State.gradFormats
  dsimp only
  split
  · exact (State.Noted.refl s).keep rfl rfl
  · split
    · exact ((State.Noted.refl s).keep (u := s.modFmt _) rfl rfl).foldl State.hostGradFormat_noted _
    · split
      · exact (State.Noted.refl s).keep rfl rfl
      · refine ((State.Noted.refl s).keep (u := s.modFmt _) rfl rfl).foldl (fun t l => ?_) _
        exact (State.Noted.refl t).keep rfl rfl

theorem State.gradFormats_phases (s : State) (entered : Bool) : (s.gradFormats entered).fmt.phases = s.fmt.phases := by
  unfold State.gradFormats
  dsimp only
  split
  · rfl
  · split
    · exact foldl_keeps (fun s : State => s.fmt.phases) State.hostGradFormat_phases _ _
    · split
      · rfl
      · refine foldl_keeps (fun s : State => s.fmt.phases) (fun t l => ?_) _ _
        rfl

/-! ### The step size and the constants -/

/-- The step size that is to take effect for step `t`: the host's fresh one, the one in use, or the schedule's (R190, R191). -/
def State.stepSizeDue (s : State) (t : Nat) : Word :=
  if s.fnHost 8 then (if s.upd.fresh then s.reg R.UPD_STEP_SIZE else s.reg R.UPD_STEP_SIZE_USED) else s.schedAlpha t

/-- The event of a host that has written no fresh step size. -/
def State.staleNoted (s : State) : State := s.when (s.fnHost 8 && !s.upd.fresh) (fun s => s.event R.UPD_EVENTS 0)

theorem State.staleNoted_noted (s : State) : s.Noted s.staleNoted :=
  (State.Noted.refl s).when (fun t => (State.Noted.refl t).event (by decide) 0) _

theorem State.staleNoted_upd (s : State) : s.staleNoted.upd = s.upd := State.when_keeps State.upd rfl

theorem State.staleNoted_policy (s : State) : s.staleNoted.policy = s.policy := State.when_keeps State.policy rfl

theorem State.staleNoted_event {s : State} (hh : s.fnHost 8 = true) (hf : s.upd.fresh = false) : s.staleNoted.regB R.UPD_EVENTS 0 = true := by
  unfold State.staleNoted
  rw [hh, hf]
  exact State.regB_event_self _ _ (by decide)

theorem State.schedAlpha_congr {s u : State} (hp : u.policy = s.policy) (hs : u.upd.sched = s.upd.sched) (t : Nat) : u.schedAlpha t = s.schedAlpha t := by
  unfold State.schedAlpha State.polF State.polB State.pol
  rw [hp, hs]

theorem State.staleNoted_stepSizeDue (s : State) (t : Nat) :
    (if s.fnHost 8 then (if s.staleNoted.upd.fresh then s.staleNoted.reg R.UPD_STEP_SIZE else s.staleNoted.reg R.UPD_STEP_SIZE_USED)
      else s.staleNoted.schedAlpha t) = s.stepSizeDue t := by
  rw [s.staleNoted_upd, s.staleNoted_noted.notes.reg _ (by decide) List.not_mem_nil, s.staleNoted_noted.notes.reg _ (by decide) List.not_mem_nil,
    State.schedAlpha_congr s.staleNoted_policy (congrArg UpdSt.sched s.staleNoted_upd)]
  rfl

theorem State.takeStepSize_eq (s : State) (t : Nat) : s.takeStepSize t =
    (if f32NonNeg (s.stepSizeDue t) then s.staleNoted.setReg R.UPD_STEP_SIZE_USED (s.stepSizeDue t)
      else s.staleNoted.eventLog R.UPD_EVENTS 1 0x10 1 0 (R.UPD_STEP_SIZE + (s.stepSizeDue t).toNat * 2 ^ 32)).modUpd
      (fun u => { u with fresh := false }) := by
  rw [← s.staleNoted_stepSizeDue]
  rfl

theorem State.takeStepSize_notes (s : State) (t : Nat) : State.NotesBut [R.UPD_STEP_SIZE_USED] s (s.takeStepSize t) := by
  have hstale := s.staleNoted_noted.notes.mono (y := [R.UPD_STEP_SIZE_USED]) (List.nil_subset _)
  rw [State.takeStepSize_eq]
  split
  · exact (hstale.setReg List.mem_cons_self _).keep rfl
  · exact ((hstale.event (by decide) 1).log ..).keep rfl

/-- The step size in use is the one due where it is a number of at least 0, and else stays. -/
theorem State.takeStepSize_used (s : State) (t : Nat) : (s.takeStepSize t).reg R.UPD_STEP_SIZE_USED =
    if f32NonNeg (s.stepSizeDue t) then s.stepSizeDue t else s.reg R.UPD_STEP_SIZE_USED := by
  rw [State.takeStepSize_eq]
  split
  · exact (State.reg_setReg ..).trans (if_pos rfl)
  · have hlog := (s.staleNoted_noted.event (a := R.UPD_EVENTS) (by decide) 1).log 0x10 1 1 0
      (R.UPD_STEP_SIZE + (s.stepSizeDue t).toNat * 2 ^ 32)
    exact hlog.notes.reg _ (by decide) List.not_mem_nil

theorem State.takeStepSize_upd (s : State) (t : Nat) : (s.takeStepSize t).upd = { s.upd with fresh := false } := by
  rw [State.takeStepSize_eq, ← s.staleNoted_upd]
  split
  · rfl
  · exact congrArg (fun u : UpdSt => { u with fresh := false }) (State.eventLog_upd ..)

theorem State.takeStepSize_stale {s : State} (hh : s.fnHost 8 = true) (hf : s.upd.fresh = false) (t : Nat) :
    (s.takeStepSize t).regB R.UPD_EVENTS 0 = true := by
  have h := State.staleNoted_event hh hf
  rw [State.takeStepSize_eq]
  split
  · exact ((State.NotesBut.refl [R.UPD_STEP_SIZE_USED] s.staleNoted).setReg List.mem_cons_self _).set _ _ (by decide) (by decide) (by decide) h
  · exact State.regB_eventLog_of_regB (by decide) (by decide) h

theorem State.constsOf_congr {s u : State} (hp : u.policy = s.policy) (hr : u.reg R.UPD_STEP_SIZE_USED = s.reg R.UPD_STEP_SIZE_USED) (t : Nat) :
    u.constsOf t = s.constsOf t := by
  funext e
  unfold State.constsOf State.polB State.pol
  rw [hp, hr]

/-! ### The stash plan and the image-set sequence number -/

/-- A die fixes its plan (R260). -/
def State.planStash (s : State) (d : Nat) : State :=
  let p := stashPlan s.mem.stashTokens (s.stashSize d) (s.fnHost 7) 0 (s.spillSize d) false (s.stashRows d)
  let s := s.modMem (fun m => { m with plan := SMap.set (fun _ => []) m.plan d p })
  let s := s.when (p.any (fun x => decide (x.2 = .ckpt))) (fun s => s.event R.MEM_EVENTS 8)
  s.when (p.any (fun x => decide (x.2 = .spill))) (fun s => s.event R.MEM_EVENTS 7)

theorem State.planStash_notes (s : State) (d : Nat) : State.NotesBut [] s (s.planStash d) :=
  (((State.NotesBut.refl [] s).keep (u := s.modMem _) rfl).when (fun u => (State.NotesBut.refl [] u).event (by decide) 8) _).when
    (fun u => (State.NotesBut.refl [] u).event (by decide) 7) _

theorem State.formStash_eq (s : State) :
    s.formStash = ((List.range 2).foldl State.planStash s).modMem (fun m => { m with
      planFault := ((List.range 2).foldl State.planStash s).stashShort 0 || ((List.range 2).foldl State.planStash s).stashShort 1 }) := rfl

theorem State.NotesBut.modMem {x : List Nat} {s t : State} (h : State.NotesBut x s t) (f : MemSt → MemSt) : State.NotesBut x s (t.modMem f) :=
  h.keep rfl

theorem State.formStash_notes (s : State) : State.NotesBut [] s s.formStash := by
  rw [State.formStash_eq]
  exact ((State.NotesBut.refl [] s).foldl State.planStash_notes _).modMem _

theorem State.imageSeq_notes (s before : State) : State.NotesBut [R.STEP_IMG_SEQ] s (s.imageSeq before) := by
  unfold State.imageSeq
  split
  · exact State.NotesBut.refl _ s
  · exact ((State.NotesBut.refl _ s).setReg List.mem_cons_self _).event (by decide) 7

/-- The sequence number rises where the image set differs, with its event. -/
theorem State.imageSeq_seq (s before : State) : (s.imageSeq before).reg R.STEP_IMG_SEQ =
      (if s.imageView = before.imageView then s.reg R.STEP_IMG_SEQ else s.reg R.STEP_IMG_SEQ + 1) ∧
    (s.imageView ≠ before.imageView → (s.imageSeq before).regB R.STEP_EVENTS 7 = true) := by
  unfold State.imageSeq
  split
  · next h => exact ⟨rfl, fun hne => absurd h hne⟩
  · refine ⟨?_, fun _ => State.regB_event_self _ _ (by decide)⟩
    rw [State.reg_event, if_neg (by decide), State.reg_setRegN, if_pos rfl]
    exact BitVec.eq_of_toNat_eq (by simp)

end Sys2Proof.Machine
end

section
/-! SUPPORT. The stages of a new-step boundary in the order of R14. -/

namespace Sys2Proof.Machine
open Sys2Proof

/-! ### The stages of a new-step boundary (R14) -/

theorem State.dutyTrain_keeps (s : State) : s.KeepsStepDuty s.dutyTrain := State.KeepsStepDuty.of_regs rfl

/-- The arrays are at a view. -/
def State.withView (s : State) (v : Nat) : State := s.modArr (fun a => { a with view := v })

section WithView
variable (s : State) (v : Nat)

theorem State.withView_notes : State.NotesBut [] s (s.withView v) := (State.NotesBut.refl [] s).keep rfl
theorem State.withView_view : (s.withView v).arr.view = v := rfl
theorem State.withView_imageView : (s.withView v).imageView = s.imageView := rfl
theorem State.withView_kao : (s.withView v).kao = s.kao := rfl
theorem State.withView_frame : (s.withView v).policy = s.policy ∧ (s.withView v).upd = s.upd ∧ (s.withView v).fmt = s.fmt ∧
    (s.withView v).stp = s.stp := ⟨rfl, rfl, rfl, rfl⟩

end WithView

section Stages
variable (s : State) (n : Nat)

/-- The image changes and the trim changes have taken effect. -/
def State.arraysTaken : State := (s.imageChanges (s.arr.view + 1)).trimChanges s (s.arr.view + 1)

/-- The format policy, measured shadow and the RANGE values too. -/
def State.policyTaken : State := ((s.arraysTaken.takePolicy.msRefresh).rangeChanges (s.arr.view + 1) false).trainRanges

/-- DUTY_SPLIT too. -/
def State.dutyTaken : State := ((s.policyTaken.dutySet dutyStepMask).dutyTrain.dutyCtx).dutyBound

/-- The events of a clamp that is newly disabled and of the host's exponents. -/
def State.dutyNoted : State :=
  let u := s.dutyTaken.when (s.dutyTaken.clampDis && !s.clampDis) (fun s => s.event R.RED_EVENTS 9)
  if u.regB R.DUTY_SPLIT 1 then u.logHostExp else u

/-- The gradient phase and formats too. -/
def State.phaseTaken : State :=
  ((s.dutyNoted.phaseStep n).gradFormats (decide (s.dutyNoted.fmt.phase = 0))).modFmt (fun f => { f with began := true })

/-- The format view too. -/
def State.formatsTaken : State :=
  let host := (s.dutyTaken.when (s.dutyTaken.clampDis && !s.clampDis) (fun s => s.event R.RED_EVENTS 9)).regB R.DUTY_SPLIT 1
  (s.phaseTaken n).modFmt (fun f => { f with view := (s.phaseTaken n).formView host false true })

/-- The step size and the constants too. -/
def State.sizeTaken : State := ((s.formatsTaken n).takeStepSize n).formConsts n

/-- All but the sequence number of the image set and the view. -/
def State.choicesTaken : State := (s.sizeTaken n).takeStash.formStash

theorem State.newStep_eq : s.newStep n =
    (((s.choicesTaken n).imageSeq s).withView (s.arr.view + 1)).releaseOld := rfl

/-! The registers and the trim sets along the stages. -/

theorem State.arraysTaken_notes : State.NotesBut [] s s.arraysTaken :=
  (s.imageChanges_noted _).notes.trans (State.trimChanges_notes ..)

theorem State.policyTaken_noted : s.arraysTaken.Noted s.policyTaken :=
  (((s.arraysTaken.takePolicy_noted).trans (State.msRefresh_noted _)).trans (State.rangeChanges_noted ..)).trans (State.trainRanges_noted _)

theorem State.policyTaken_keeps : (s.policyTaken.dutySet dutyStepMask).KeepsStepDuty s.dutyTaken :=
  ((State.dutyTrain_keeps _).trans (State.dutyCtx_keeps _)).trans (State.dutyBound_keeps _)

theorem State.dutyTaken_notes : State.NotesBut [R.DUTY_SPLIT_USED] s.policyTaken s.dutyTaken :=
  (State.dutySet_noted ..).trans s.policyTaken_keeps.1

theorem State.dutyNoted_noted : s.dutyTaken.Noted s.dutyNoted := by
  have h := (State.Noted.refl s.dutyTaken).when (f := fun s => s.event R.RED_EVENTS 9) (fun t => (State.Noted.refl t).event (by decide) 9)
    (s.dutyTaken.clampDis && !s.clampDis)
  unfold State.dutyNoted
  dsimp only
  split
  · exact h.trans (State.logHostExp_noted _)
  · exact h

theorem State.formatsTaken_noted : s.dutyTaken.Noted (s.formatsTaken n) :=
  ((s.dutyNoted_noted.keep (u := s.dutyNoted.phaseStep n) rfl rfl).trans (State.gradFormats_noted ..)).keep rfl rfl

theorem State.sizeTaken_notes : State.NotesBut [R.UPD_STEP_SIZE_USED] (s.formatsTaken n) (s.sizeTaken n) :=
  ((s.formatsTaken n).takeStepSize_notes n).keep (by simp only [State.sizeTaken, State.formConsts_frame])

theorem State.choicesTaken_notes : State.NotesBut [] (s.sizeTaken n) (s.choicesTaken n) :=
  ((State.NotesBut.refl [] (s.sizeTaken n)).keep (by simp only [State.takeStash_frame])).trans (State.formStash_notes _)

theorem State.newStep_released : State.Released (((s.choicesTaken n).imageSeq s).withView (s.arr.view + 1)) (s.newStep n) := by
  rw [State.newStep_eq]
  exact State.releaseOld_released _

theorem State.newStep_notes : State.NotesBut [] ((s.choicesTaken n).imageSeq s) (s.newStep n) :=
  (State.withView_notes ..).trans (s.newStep_released n).notes

/-- From the step size on, only the sequence number of the image set is written. -/
theorem State.newStep_notes_sizeTaken : State.NotesBut [R.STEP_IMG_SEQ] (s.sizeTaken n) (s.newStep n) :=
  (((s.choicesTaken_notes n).mono (List.nil_subset _)).trans (State.imageSeq_notes ..)).trans ((s.newStep_notes n).mono (List.nil_subset _))

/-- Up to the step size, only the duty split is written. -/
theorem State.formatsTaken_notes : State.NotesBut [R.DUTY_SPLIT_USED] s (s.formatsTaken n) :=
  (((s.arraysTaken_notes.trans s.policyTaken_noted.notes).mono (List.nil_subset _)).trans s.dutyTaken_notes).trans
    ((s.formatsTaken_noted n).notes.mono (List.nil_subset _))

/-- The registers that a new-step boundary writes itself. -/
def newStepRegs : List Nat := [R.DUTY_SPLIT_USED, R.UPD_STEP_SIZE_USED, R.STEP_IMG_SEQ]

theorem State.newStep_notes_arraysTaken : State.NotesBut newStepRegs s.arraysTaken (s.newStep n) := by
  have h1 := (s.policyTaken_noted.notes.mono (List.nil_subset [R.DUTY_SPLIT_USED])).trans s.dutyTaken_notes
  have h2 := h1.trans ((s.formatsTaken_noted n).notes.mono (List.nil_subset _))
  exact ((h2.mono (by decide)).trans ((s.sizeTaken_notes n).mono (by decide))).trans ((s.newStep_notes_sizeTaken n).mono (by decide))

/-! The other parts of the state along the stages. -/

theorem State.arraysTaken_frame : s.arraysTaken.policy = s.policy ∧ s.arraysTaken.upd = s.upd ∧ s.arraysTaken.fmt = s.fmt ∧
    s.arraysTaken.stp = s.stp := by
  simp only [State.arraysTaken, State.trimChanges_frame, State.imageChanges_frame, and_self]

theorem State.policyTaken_frame : s.policyTaken.policy = s.arraysTaken.takePolicy.policy ∧ s.policyTaken.upd = s.upd ∧
    s.policyTaken.fmt = s.fmt ∧ s.policyTaken.stp = s.stp := by
  simp only [State.policyTaken, State.trainRanges_frame, State.rangeChanges_policy, State.rangeChanges_upd, State.rangeChanges_fmt,
    State.rangeChanges_stp, State.msRefresh_frame, State.takePolicy_frame, State.arraysTaken_frame, and_self]

theorem State.dutyTaken_frame : s.dutyTaken.policy = (s.policyTaken.dutySet dutyStepMask).dutyTrain.policy ∧ s.dutyTaken.upd = s.upd ∧
    s.dutyTaken.fmt = s.fmt ∧ s.dutyTaken.stp = s.stp ∧ s.dutyTaken.arr = s.policyTaken.arr := by
  simp only [State.dutyTaken, State.dutyBound_frame, State.dutyCtx_frame, State.dutyTrain_frame, State.dutySet_frame, State.policyTaken_frame, and_self]

theorem State.dutyNoted_frame : s.dutyNoted.policy = s.dutyTaken.policy ∧ s.dutyNoted.upd = s.upd ∧ s.dutyNoted.fmt = s.fmt ∧
    s.dutyNoted.stp = s.stp ∧ s.dutyNoted.arr = s.policyTaken.arr := by
  unfold State.dutyNoted
  dsimp only
  split <;> simp only [State.logHostExp_frame, State.when_policy, State.when_upd, State.when_fmt, State.when_stp, State.when_arr, State.event_frame,
    State.dutyTaken_frame, and_self]

theorem State.formatsTaken_frame : (s.formatsTaken n).policy = s.dutyTaken.policy ∧ (s.formatsTaken n).upd = s.upd ∧
    (s.formatsTaken n).arr = s.policyTaken.arr ∧ (s.formatsTaken n).stp = { s.stp with nfEvent := false } := by
  simp only [State.formatsTaken, State.phaseTaken, State.modFmt_frame, State.gradFormats_frame, State.phaseStep_frame, State.dutyNoted_frame,
    true_and]
  show { s.dutyNoted.stp with nfEvent := false } = _
  rw [(s.dutyNoted_frame).2.2.2.1]

theorem State.sizeTaken_frame : (s.sizeTaken n).policy = s.dutyTaken.policy ∧ (s.sizeTaken n).fmt = (s.formatsTaken n).fmt ∧
    (s.sizeTaken n).arr = s.policyTaken.arr ∧ (s.sizeTaken n).stp = { s.stp with nfEvent := false } := by
  simp only [State.sizeTaken, State.formConsts_frame, State.takeStepSize_frame, State.formatsTaken_frame, and_self]

theorem State.choicesTaken_frame : (s.choicesTaken n).policy = s.dutyTaken.policy ∧ (s.choicesTaken n).upd = (s.sizeTaken n).upd ∧
    (s.choicesTaken n).fmt = (s.formatsTaken n).fmt ∧ (s.choicesTaken n).arr = s.policyTaken.arr ∧
    (s.choicesTaken n).stp = { s.stp with nfEvent := false } := by
  simp only [State.choicesTaken, State.formStash_frame, State.takeStash_frame, State.sizeTaken_frame, and_self]

theorem State.newStep_taken : (s.newStep n).policy = s.dutyTaken.policy ∧ (s.newStep n).upd = (s.sizeTaken n).upd ∧
    (s.newStep n).fmt = (s.formatsTaken n).fmt ∧ (s.newStep n).stp = { s.stp with nfEvent := false } := by
  simp only [State.newStep_eq, State.releaseOld_policy, State.releaseOld_upd, State.releaseOld_fmt, State.releaseOld_stp, State.withView_frame,
    State.imageSeq_frame, State.choicesTaken_frame, and_self]

end Stages
end Sys2Proof.Machine
end

section
/-! SUPPORT. The state after a new-step boundary. -/

namespace Sys2Proof.Machine
open Sys2Proof

/-! ### What a new-step boundary leaves -/

theorem KaolinSt.trimVer_of_inForce {k k' : KaolinSt} (h : k.inForce = k'.inForce) : k.trimVer = k'.trimVer := congrArg Prod.fst h

theorem State.pos_of_arrPos {s t : State} (h : t.arr.pos = s.arr.pos) (d p : Nat) : t.pos d p = s.pos d p :=
  congrArg (SMap.get posDefault · (d * 1536 + p)) h

section NewStep
variable (s : State) (n : Nat)

/-- The policy in force is that taken after the image changes, but for DUTY_SPLIT. -/
theorem State.newStep_pol {a : Nat} (h : a ≠ R.DUTY_SPLIT_USED) : (s.newStep n).pol a = s.arraysTaken.takePolicy.pol a := by
  obtain ⟨hpol, -, -, -⟩ := s.newStep_taken n
  have hduty : (s.newStep n).pol a = s.policyTaken.pol a := by
    rw [State.pol, hpol, s.dutyTaken_frame.1]
    exact SMap.get_set_ne h
  exact hduty.trans (congrArg (SMap.get regReset · a) s.policyTaken_frame.1)

theorem policyRegs_apart : ∀ a ∈ policyRegs, a ≠ R.DUTY_SPLIT_USED ∧ noteReg a = false := by
  have h : policyRegs.all (fun a => decide (a ≠ R.DUTY_SPLIT_USED) && !noteReg a) = true := by rfl
  intro a ha
  simpa using List.all_eq_true.1 h a ha

/-- A parameter out of its range keeps its value in force. -/
theorem State.newStep_pol_param {a : Nat} {f : Word → Bool} (ha : (a, f) ∈ paramRegs) :
    (s.newStep n).pol a = if f (s.reg a) then s.reg a else s.pol a := by
  have hfst : a ∈ paramRegs.map Prod.fst := List.mem_map_of_mem (f := Prod.fst) ha
  obtain ⟨hnote, -⟩ := paramRegs_apart a hfst
  have hne : a ≠ R.DUTY_SPLIT_USED := (by decide : ∀ a ∈ paramRegs.map Prod.fst, a ≠ R.DUTY_SPLIT_USED) a hfst
  have hpol : s.arraysTaken.pol a = s.pol a := congrArg (SMap.get regReset · a) (s.arraysTaken_frame).1
  rw [s.newStep_pol n hne, State.takePolicy_pol_param _ ha, s.arraysTaken_notes.reg a hnote List.not_mem_nil, hpol]

/-- A function of the step mask takes its pending mode, and the rest of the boundary keeps it. -/
theorem State.formatsTaken_dutyBit {i : Nat} (hi : i < 14) (hm : dutyStepMask.testBit i = true) :
    (s.formatsTaken n).regB R.DUTY_SPLIT_USED i = s.regB R.DUTY_SPLIT i := by
  have hpending : s.policyTaken.reg R.DUTY_SPLIT = s.reg R.DUTY_SPLIT :=
    (s.arraysTaken_notes.trans s.policyTaken_noted.notes).reg _ (by decide) List.not_mem_nil
  calc (s.formatsTaken n).regB R.DUTY_SPLIT_USED i
      = s.dutyTaken.regB R.DUTY_SPLIT_USED i := congrArg (bitOf · i) ((s.formatsTaken_noted n).notes.reg _ (by decide) List.not_mem_nil)
    _ = (s.policyTaken.dutySet dutyStepMask).regB R.DUTY_SPLIT_USED i := s.policyTaken_keeps.2 i hi hm
    _ = s.policyTaken.regB R.DUTY_SPLIT i := by rw [State.dutySet_bit _ _ hi, hm, if_pos rfl]
    _ = s.regB R.DUTY_SPLIT i := congrArg (bitOf · i) hpending

theorem State.newStep_dutyBit {i : Nat} (hi : i < 14) (hm : dutyStepMask.testBit i = true) :
    (s.newStep n).regB R.DUTY_SPLIT_USED i = s.regB R.DUTY_SPLIT i := by
  have hsize : (s.newStep n).reg R.DUTY_SPLIT_USED = (s.formatsTaken n).reg R.DUTY_SPLIT_USED :=
    ((s.newStep_notes_sizeTaken n).reg _ (by decide) (by decide)).trans ((s.sizeTaken_notes n).reg _ (by decide) (by decide))
  exact (congrArg (bitOf · i) hsize).trans (s.formatsTaken_dutyBit n hi hm)

theorem State.newStep_view : (s.newStep n).arr.view = s.arr.view + 1 :=
  (State.view_of_shown (s.newStep_released n).shown).trans (State.withView_view ..)

/-- The image set is that of the choices taken. -/
theorem State.newStep_imageView : (s.newStep n).imageView = (s.choicesTaken n).imageView := by
  have harr : ((s.choicesTaken n).imageSeq s).arr = (s.choicesTaken n).arr := by simp only [State.imageSeq_frame]
  exact (State.imageView_of_shown (s.newStep_released n).shown).trans
    ((State.withView_imageView ..).trans (State.imageView_of_shown (State.shown_of_arr harr)))

/-- The trim sets in force are those after the trim changes. -/
theorem State.newStep_trim (d : Nat) : ((s.newStep n).kao d).inForce = (s.arraysTaken.kao d).inForce := by
  have harr : ((s.choicesTaken n).imageSeq s).arr = s.policyTaken.arr := by simp only [State.imageSeq_frame, State.choicesTaken_frame]
  have hkao := (State.withView_kao ((s.choicesTaken n).imageSeq s) (s.arr.view + 1)).trans (State.kao_of_arr harr)
  exact ((s.newStep_released n).trim d).trans ((congrArg (fun k => (k d).inForce) hkao).trans (s.policyTaken_noted.inForce d))

/-- The step size in use after the boundary. -/
theorem State.newStep_stepSize : (s.newStep n).reg R.UPD_STEP_SIZE_USED =
    if f32NonNeg ((s.formatsTaken n).stepSizeDue n) then (s.formatsTaken n).stepSizeDue n else s.reg R.UPD_STEP_SIZE_USED := by
  have hused : (s.formatsTaken n).reg R.UPD_STEP_SIZE_USED = s.reg R.UPD_STEP_SIZE_USED := (s.formatsTaken_notes n).reg _ (by decide) (by decide)
  have hconst : (s.sizeTaken n).reg R.UPD_STEP_SIZE_USED = ((s.formatsTaken n).takeStepSize n).reg R.UPD_STEP_SIZE_USED := rfl
  rw [(s.newStep_notes_sizeTaken n).reg _ (by decide) (by decide), hconst, State.takeStepSize_used, hused]

theorem State.newStep_upd : (s.newStep n).upd =
    { s.upd with fresh := false, consts := s.upd.table.map (((s.formatsTaken n).takeStepSize n).constsOf n) } := by
  obtain ⟨-, hupd, -, -⟩ := s.newStep_taken n
  obtain ⟨-, hfmt, -⟩ := s.formatsTaken_frame n
  rw [hupd, ← hfmt]
  have hsize := (s.formatsTaken n).takeStepSize_upd n
  have hconst : (s.sizeTaken n).upd = { ((s.formatsTaken n).takeStepSize n).upd with
    consts := ((s.formatsTaken n).takeStepSize n).upd.table.map (((s.formatsTaken n).takeStepSize n).constsOf n) } := rfl
  rw [hconst, hsize]

/-- Policy and schedule do not change after the formats are taken, so the schedule of the result gives the step's size. -/
theorem State.newStep_schedAlpha : (s.newStep n).schedAlpha n = (s.formatsTaken n).schedAlpha n := by
  obtain ⟨hpol, -, -, -⟩ := s.newStep_taken n
  obtain ⟨hfpol, hfupd, -⟩ := s.formatsTaken_frame n
  refine State.schedAlpha_congr (hpol.trans hfpol.symm) ?_ n
  rw [s.newStep_upd n, hfupd]

theorem State.newStep_constsOf : (s.newStep n).constsOf n = ((s.formatsTaken n).takeStepSize n).constsOf n := by
  obtain ⟨hpol, -, -, -⟩ := s.newStep_taken n
  obtain ⟨hspol, -⟩ := s.sizeTaken_frame n
  have hform : (s.sizeTaken n).constsOf n = ((s.formatsTaken n).takeStepSize n).constsOf n :=
    State.constsOf_congr (by simp only [State.sizeTaken, State.formConsts_frame]) rfl n
  exact (State.constsOf_congr (hpol.trans hspol.symm) ((s.newStep_notes_sizeTaken n).reg _ (by decide) (by decide)) n).trans hform

/-- The gradient phase of step `n` under the policy now in force, after a step without a nonfinite value or an abort (R73, R74). -/
theorem State.newStep_phases (h : s.stp.nfEvent = false) : (s.newStep n).fmt.phases =
    (if (s.newStep n).polB R.STEP_FMT_CTRL 0 then 2 else if n ≤ (s.newStep n).polF R.STEP_FMT_CTRL 31 16 then 1
      else if 0 < s.fmt.recoveryLeft - 1 then 3 else 0, s.fmt.recoveryLeft - 1, true) := by
  obtain ⟨hpol, -, hfmt, -⟩ := s.newStep_taken n
  obtain ⟨hdpol, -, hdfmt, hdstp, -⟩ := s.dutyNoted_frame
  have hkeep := (s.dutyNoted.phaseStep n).gradFormats_phases (decide (s.dutyNoted.fmt.phase = 0))
  have hphase : (s.newStep n).fmt.phases = ((s.dutyNoted.phaseStep n).fmt.phase, (s.dutyNoted.phaseStep n).fmt.recoveryLeft, true) := by
    rw [hfmt]
    exact congrArg (fun x : Nat × Nat × Bool => (x.1, x.2.1, true)) hkeep
  have hpols : ∀ a, (s.newStep n).pol a = s.dutyNoted.pol a := fun a => congrArg (SMap.get regReset · a) (hpol.trans hdpol.symm)
  rw [hphase, State.polB, State.polF, hpols]
  unfold State.phaseStep
  rw [hdstp, hdfmt, h]
  rfl

/-- A published trim set of a die whose former bank is free comes into force. -/
theorem State.newStep_published {d : Nat} (hd : d < 16) (hh : (s.kao d).held = none) (hp : (s.kao d).published = true) :
    ((s.newStep n).kao d).inForce = (((s.kao d).trimVer + 1) % 2 ^ 32, !(s.kao d).bankSel, false) ∧
      (s.newStep n).regB R.STEP_EVENTS 8 = true := by
  have htrim := (s.imageChanges_noted (s.arr.view + 1)).trim d
  obtain ⟨a, hkao, hdie, hnotes⟩ := (s.imageChanges (s.arr.view + 1)).trimChanges_die s (s.arr.view + 1) hd
  rw [← hkao] at htrim
  simp only [KaolinSt.trim, Prod.mk.injEq] at htrim
  obtain ⟨hver, hsel, hpub, hheld⟩ := htrim
  obtain ⟨hchange, hevent⟩ := a.trimChange_published s (s.arr.view + 1) d (hheld.trans hh) (hpub.trans hp)
  rw [hver, hsel] at hchange
  refine ⟨(s.newStep_trim n d).trans ?_, ?_⟩
  · exact (congrArg KaolinSt.inForce hdie).trans (congrArg (fun x : Nat × Bool × Bool × Option Nat => (x.1, x.2.1, x.2.2.1)) hchange)
  · exact (s.newStep_notes_arraysTaken n).set _ _ (by decide) (by decide) (by decide)
      (hnotes.set _ _ (by decide) (by decide) List.not_mem_nil hevent)

/-- A die whose former bank is still held keeps its trim set. -/
theorem State.newStep_held {d : Nat} (hd : d < 16) (hh : (s.kao d).held ≠ none) : ((s.newStep n).kao d).inForce = (s.kao d).inForce := by
  have himage := s.imageChanges_noted (s.arr.view + 1)
  have hheld : ((s.imageChanges (s.arr.view + 1)).kao d).held = (s.kao d).held :=
    congrArg (fun x : Nat × Bool × Bool × Option Nat => x.2.2.2) (himage.trim d)
  obtain ⟨a, hkao, hdie, -⟩ := (s.imageChanges (s.arr.view + 1)).trimChanges_die s (s.arr.view + 1) hd
  have hsame : a.trimChange s (s.arr.view + 1) d = a := State.trimChange_held _ _ _ _ (by rw [hkao, hheld]; exact hh)
  have hdie' : s.arraysTaken.kao d = (s.imageChanges (s.arr.view + 1)).kao d := hdie.trans (by rw [hsame, hkao])
  exact (s.newStep_trim n d).trans ((congrArg KaolinSt.inForce hdie').trans (himage.inForce d))

/-- STEP_IMG_SEQ counts a boundary that leaves another image set. -/
theorem State.newStep_imageSeq : (s.newStep n).reg R.STEP_IMG_SEQ =
      (if (s.newStep n).imageView = s.imageView then s.reg R.STEP_IMG_SEQ else s.reg R.STEP_IMG_SEQ + 1) ∧
    ((s.newStep n).imageView ≠ s.imageView → (s.newStep n).regB R.STEP_EVENTS 7 = true) := by
  have hseq : (s.choicesTaken n).reg R.STEP_IMG_SEQ = s.reg R.STEP_IMG_SEQ :=
    ((s.choicesTaken_notes n).reg _ (by decide) (by decide)).trans
      (((s.sizeTaken_notes n).reg _ (by decide) (by decide)).trans ((s.formatsTaken_notes n).reg _ (by decide) (by decide)))
  obtain ⟨hreg, hevent⟩ := (s.choicesTaken n).imageSeq_seq s
  rw [s.newStep_imageView n]
  refine ⟨?_, fun hne => (s.newStep_notes n).set _ _ (by decide) (by decide) List.not_mem_nil (hevent hne)⟩
  rw [(s.newStep_notes n).reg _ (by decide) List.not_mem_nil, hreg, hseq]

/-- The host's function 8 decides whose step size is due. -/
theorem State.formatsTaken_stepSizeDue : (s.formatsTaken n).stepSizeDue n =
    if s.regB R.DUTY_SPLIT 7 then (if s.upd.fresh then s.reg R.UPD_STEP_SIZE else s.reg R.UPD_STEP_SIZE_USED) else (s.newStep n).schedAlpha n := by
  have hhost : (s.formatsTaken n).fnHost 8 = s.regB R.DUTY_SPLIT 7 := s.formatsTaken_dutyBit n (by decide) (by decide)
  obtain ⟨-, hupd, -⟩ := s.formatsTaken_frame n
  rw [State.stepSizeDue, hhost, hupd, (s.formatsTaken_notes n).reg _ (by decide) (by decide), (s.formatsTaken_notes n).reg _ (by decide) (by decide),
    s.newStep_schedAlpha]

end NewStep
end Sys2Proof.Machine

namespace Sys2Proof.Proofs
open Sys2Proof Sys2Proof.Machine

/-- Settles O12: the boundary goes through its stages, of which each writes its own part; what a stage decides is kept by those after it. -/
theorem trainingStartsAtANewStepBoundary : Obligations.TrainingStartsAtANewStepBoundary := by
  unfold Obligations.TrainingStartsAtANewStepBoundary
  refine ⟨?start, ?notIdle, ?boundary, ?exhausted, ?disabled, ?notDue, ?launch, ?planFault, ?policy, ?param, ?duty, ?fresh, ?stale, ?sched,
    ?consts, ?phase, ?published, ?held, ?imageSeq, ?order⟩
  case start =>
    intro s hp hg hc hf hl
    show Host.Outcome.next (trainingStart s) = _
    simp [trainingStart, hp, hg, hc, hf, hl]
  case notIdle =>
    intro s hp
    show Host.Outcome.next (trainingStart s) = _
    simp [trainingStart, hp]
  case boundary =>
    intro s hp hd hh hg hl
    show Host.Outcome.next (newStepBoundary s) = _
    simp [newStepBoundary, hp, hd, hh, hg, hl]
  case exhausted =>
    intro s hp hd hh
    refine ⟨s.exhaust, ?_, s.exhaust_spec⟩
    show Host.Outcome.next (newStepBoundary s) = _
    simp [newStepBoundary, hp, hd, hh]
  case disabled =>
    intro s hp hd hh hg
    show Host.Outcome.next (newStepBoundary s) = _
    simp [newStepBoundary, hp, hd, hh, hg, State.modStp]
  case notDue =>
    intro s h
    show Host.Outcome.next (newStepBoundary s) = _
    have h' : ¬ (s.stp.phase = .boundary ∧ s.stp.due = some .new) := fun ⟨hp, hd⟩ => h.elim (· hp) (· hd)
    simp [newStepBoundary, h']
  case launch =>
    intro u a hf hl
    refine ⟨_, State.startAttempt_launches hf hl, ?_⟩
    exact ⟨rfl, rfl, rfl, rfl, rfl, rfl, rfl, rfl, rfl, rfl, rfl⟩
  case planFault =>
    intro u a hf
    have hstp := (u.attemptOpened a).eventLog_stp R.MEM_EVENTS 9 0x13 1 0 0
    refine ⟨_, _, State.startAttempt_planFault hf, rfl, congrArg StepSt.phase hstp, congrArg StepSt.attempt hstp, congrArg StepSt.isOpen hstp,
      ?_, ?_, (u.attemptOpened a).eventLog_tsk R.MEM_EVENTS 9 0x13 1 0 0, (u.attemptOpened a).eventLog_mem R.MEM_EVENTS 9 0x13 1 0 0⟩
    · rw [State.regB, State.reg_setRegB, if_pos rfl]
      exact bitOf_setBit_self (by decide)
    · rw [State.regB, State.reg_setRegB, if_neg (by decide)]
      exact State.regB_eventLog _ _ (by decide) (by decide) (by decide)
  case policy =>
    intro s n a ha
    refine ⟨_, rfl, ?_⟩
    obtain ⟨hne, hnote⟩ := policyRegs_apart a ha
    rw [s.newStep_pol n hne, State.takePolicy_pol_policy _ ha, s.arraysTaken_notes.reg a hnote List.not_mem_nil]
  case param =>
    intro s n a ha
    refine ⟨_, rfl, ?_⟩
    simp only [List.mem_cons, List.not_mem_nil, or_false] at ha
    rcases ha with rfl | rfl | rfl | rfl | rfl | rfl
    · exact s.newStep_pol_param n (.head _)
    · exact s.newStep_pol_param n (.tail _ (.head _))
    · exact s.newStep_pol_param n (.tail _ (.tail _ (.head _)))
    · exact s.newStep_pol_param n (.tail _ (.tail _ (.tail _ (.head _))))
    · exact s.newStep_pol_param n (.tail _ (.tail _ (.tail _ (.tail _ (.head _)))))
    · exact s.newStep_pol_param n (.tail _ (.tail _ (.tail _ (.tail _ (.tail _ (.head _))))))
  case duty =>
    intro s n i hi
    obtain ⟨hlt, hmask⟩ := (by decide : ∀ i ∈ [2, 3, 4, 6, 7], i < 14 ∧ dutyStepMask.testBit i = true) i hi
    obtain ⟨-, -, hfmt, -⟩ := s.newStep_taken n
    exact ⟨_, rfl, s.newStep_dutyBit n hlt hmask, s.newStep_view n, congrArg FmtSt.began hfmt⟩
  case fresh =>
    intro s n hd hf hnn
    have hdue : (s.formatsTaken n).stepSizeDue n = s.reg R.UPD_STEP_SIZE := by rw [s.formatsTaken_stepSizeDue n, hd, hf]; rfl
    refine ⟨_, rfl, ?_, ?_⟩
    · rw [s.newStep_stepSize n, hdue, hnn, if_pos rfl]
    · rw [s.newStep_upd n]
  case stale =>
    intro s n hd hf
    have hdue : (s.formatsTaken n).stepSizeDue n = s.reg R.UPD_STEP_SIZE_USED := by rw [s.formatsTaken_stepSizeDue n, hd, hf]; rfl
    refine ⟨_, rfl, ?_, ?_⟩
    · rw [s.newStep_stepSize n, hdue, ite_self]
    · have hhost : (s.formatsTaken n).fnHost 8 = true := (s.formatsTaken_dutyBit n (by decide) (by decide)).trans hd
      obtain ⟨-, hupd, -⟩ := s.formatsTaken_frame n
      have hstale := State.takeStepSize_stale hhost ((congrArg UpdSt.fresh hupd).trans hf) n
      exact (s.newStep_notes_sizeTaken n).set _ _ (by decide) (by decide) (by decide) hstale
  case sched =>
    intro s n hd
    have hdue : (s.formatsTaken n).stepSizeDue n = (s.newStep n).schedAlpha n := by rw [s.formatsTaken_stepSizeDue n, hd]; rfl
    refine ⟨_, rfl, fun h => ?_, fun h => ?_, ?_⟩
    · rw [s.newStep_stepSize n, hdue, h, if_pos rfl]
    · rw [s.newStep_stepSize n, hdue, h]; rfl
    · rw [s.newStep_upd n]
  case consts =>
    intro s n _
    refine ⟨_, rfl, ?_, ?_⟩
    · rw [s.newStep_constsOf n, s.newStep_upd n]
    · rw [s.newStep_upd n]
  case phase =>
    intro s n h
    obtain ⟨-, -, -, hstp⟩ := s.newStep_taken n
    have hphases := s.newStep_phases n h
    have hleft : 0 < s.fmt.recoveryLeft - 1 ↔ 1 < s.fmt.recoveryLeft := by omega
    simp only [FmtSt.phases, Prod.mk.injEq, hleft] at hphases
    obtain ⟨hphase, hrec, -⟩ := hphases
    exact ⟨_, rfl, hrec, congrArg StepSt.nfEvent hstp, hphase⟩
  case published =>
    intro s n d hd hh hp
    obtain ⟨htrim, hevent⟩ := s.newStep_published n hd hh hp
    simp only [KaolinSt.inForce, Prod.mk.injEq] at htrim
    obtain ⟨hver, hsel, hpub⟩ := htrim
    exact ⟨_, rfl, hver, hsel, hpub, hevent⟩
  case held =>
    intro s n d hd hh
    have htrim := s.newStep_held n hd hh
    simp only [KaolinSt.inForce, Prod.mk.injEq] at htrim
    exact ⟨_, rfl, htrim⟩
  case imageSeq =>
    intro s n
    exact ⟨_, rfl, s.newStep_imageSeq n⟩
  case order =>
    intro s n
    obtain ⟨hpol, -⟩ := s.arraysTaken_frame
    refine ⟨_, _, rfl, rfl, fun d => ?_, fun d p => ?_, hpol⟩
    · exact KaolinSt.trimVer_of_inForce (s.newStep_trim n d)
    · exact congrArg PosSt.version (State.pos_of_arrPos (State.trimChanges_pos (s.imageChanges (s.arr.view + 1)) s (s.arr.view + 1)) d p)

end Sys2Proof.Proofs
end

section
/-! SUPPORT. Floating-point arithmetic of the Twill units: an issued element-wise instruction, and one rounding of an exact result. -/

namespace Sys2Proof.Machine
open Sys2Proof

/-- The floating element types are those of the instructions of R143. -/
theorem TwillWord.floatTypes {w : TwillWord} (h : w.isFloat = true) : [0, 1].contains w.ty.val = true := by
  rcases (by simpa [TwillWord.isFloat] using h : w.ty = 0 ∨ w.ty = 1) with h | h <;> rw [h] <;> rfl

section Float
variable {s : State} {d u op : Nat} {w : TwillWord} {x : UnitSt}
  (hm : s.midProgram d u = true) (hw : w.isFloat = true) (hc : w.ctl ≠ 7) (hx : s.unit (d * 32 + u) = x)
include hm hw hc hx

/-- An element-wise floating-point instruction, where the unit issues it and where it does not (R135, R143). -/
theorem twFloat_gives (f : TwillWord → UnitSt → Nat → Nat × Nat) :
    (s.issues d u op w = true → twGives d u w s (twIssue d u op w s (fun op s => twElems d u op [0, 1] w s f))
      (fun e => (f w x e).1) (x.orFlags w (fun e => (f w x e).2))) ∧
    (s.issues d u op w = false → twIssue d u op w s (fun op s => twElems d u op [0, 1] w s f) = s) := by
  subst hx
  refine ⟨fun h => ?_, fun h => twIssue_not h _⟩
  rw [twIssue_of h]
  exact twElems_gives hm (TwillWord.floatTypes hw) hc

/-- One that raises no flag (R143). -/
theorem twFloat_quiet (f : TwillWord → UnitSt → Nat → Nat) :
    (s.issues d u op w = true → twGives d u w s (twIssue d u op w s (fun op s => twElems d u op [0, 1] w s (fun w x e => (f w x e, 0))))
      (f w x) 0) ∧
    (s.issues d u op w = false → twIssue d u op w s (fun op s => twElems d u op [0, 1] w s (fun w x e => (f w x e, 0))) = s) := by
  have h := twFloat_gives (op := op) hm hw hc hx (fun w x e => (f w x e, 0))
  rwa [x.orFlags_zero w] at h

end Float

/-! ### One rounding of the exact result (R143) -/

/-- Under control code 0 the result of an operation is the nearest code of the exact one. -/
theorem roundF_nearest (f : FF) (x : XNum) : (roundF f 0 true x).1 = f.encode x := by
  cases x with
  | nan => rfl
  | inf n => rfl
  | fin n m e =>
    simp only [roundF, FF.encode, FF.encodeR, ctlRnd, ctlFlush]
    by_cases h : f.infCode ≤ f.magCode .rne m e
    · simp [h]
    · simp [h, Nat.lt_of_not_le h]

/-- A result that is not a number is the canonical quiet NaN; it raises INVALID where no operand is one. -/
theorem fpOut_nan (w : TwillWord) (ins : List XNum) :
    fpOut w ins .nan = (w.ff.qnan, if ins.any XNum.isNan then 0 else flNV) := by
  cases h : ins.any XNum.isNan <;> simp [fpOut, roundF, invalidIf, XNum.isNan, h]

@[simp] theorem XNum.add_nan (a : XNum) : a.add .nan = .nan := by cases a <;> rfl
@[simp] theorem XNum.mul_nan (a : XNum) : a.mul .nan = .nan := by cases a <;> rfl
@[simp] theorem XNum.nan_add (a : XNum) : XNum.add .nan a = .nan := by cases a <;> rfl
@[simp] theorem XNum.nan_mul (a : XNum) : XNum.mul .nan a = .nan := by cases a <;> rfl

/-- A sum that is not a number stays so whatever the rounding direction. -/
theorem addDir_nan {c : Nat} {a b : XNum} (h : a.add b = .nan) : addDir c a b = .nan := by rw [addDir, h]

end Sys2Proof.Machine

namespace Sys2Proof.Proofs
open Sys2Proof Sys2Proof.Machine

/-- Settles O29: every form is an element-wise instruction of one sum, product, choice or sign change; the special operands go through
the exact sum and product. -/
theorem floatingPointInstructions : Obligations.FloatingPointInstructions := by
  refine ⟨?forms, ?nearest, ?special⟩
  case forms =>
    intro s d u w x hm hw hc hx
    exact ⟨⟨_, rfl, twFloat_gives hm hw hc hx fun w x e => fpAdd w (x.fs1 w e) (x.fs2 w e)⟩,
      ⟨_, rfl, twFloat_gives hm hw hc hx fun w x e => fpAdd w (x.fs1 w e) (fImm w e)⟩,
      ⟨_, rfl, twFloat_gives hm hw hc hx fun w x e => fpAdd w (x.fs1 w e) (x.fs2 w e).neg⟩,
      ⟨_, rfl, twFloat_gives hm hw hc hx fun w x e => fpAdd w (x.fs1 w e) (fImm w e).neg⟩,
      ⟨_, rfl, twFloat_gives hm hw hc hx fun w x e => fpMul w (x.fs1 w e) (x.fs2 w e)⟩,
      ⟨_, rfl, twFloat_gives hm hw hc hx fun w x e => fpMul w (x.fs1 w e) (fImm w e)⟩,
      ⟨_, rfl, twFloat_gives hm hw hc hx fun w x e => fpFma w (x.fs1 w e) (x.fs2 w e) (x.fd w e)⟩,
      ⟨_, rfl, twFloat_gives hm hw hc hx fun w x e => fpFma w (x.fs1 w e) (x.fs2 w e) (fImm w e)⟩,
      ⟨_, rfl, twFloat_gives hm hw hc hx fun w x e => fpFma w (x.fs1 w e) (fImm w e) (x.fs2 w e)⟩,
      ⟨_, rfl, twFloat_quiet hm hw hc hx fun w x e => fpPick w true (x.fs1 w e) (x.fs2 w e)⟩,
      ⟨_, rfl, twFloat_quiet hm hw hc hx fun w x e => fpPick w false (x.fs1 w e) (x.fs2 w e)⟩,
      ⟨_, rfl, twFloat_quiet hm hw hc hx fun w x e => flushCode w (x.elem w w.s1.val e) % w.ff.signBit⟩,
      ⟨_, rfl, twFloat_quiet hm hw hc hx fun w x e => (flushCode w (x.elem w w.s1.val e) + w.ff.signBit) % (2 * w.ff.signBit)⟩⟩
  case nearest =>
    intro w a b hc
    refine ⟨?_, ?_⟩
    · show (roundF w.ff w.ctl.val true (XNum.mul a b)).1 = _
      rw [hc]
      exact roundF_nearest ..
    · show (roundF w.ff w.ctl.val true (addDir w.ctl.val a b)).1 = _
      rw [hc]
      exact roundF_nearest ..
  case special =>
    intro w b n m e hz
    have hinf : XNum.add (.inf n) (.inf (!n)) = .nan := by cases n <;> rfl
    have hzero : XNum.mul (.inf n) (.fin n m e) = .nan := if_pos hz
    refine ⟨?_, ?_, ?_, ?_, ?_, ?_⟩
    · rw [fpAdd, addDir_nan (XNum.nan_add b), fpOut_nan]; rfl
    · rw [fpAdd, addDir_nan (XNum.add_nan b), fpOut_nan]; simp [XNum.isNan]
    · rw [fpMul, XNum.nan_mul, fpOut_nan]; rfl
    · rw [fpMul, XNum.mul_nan, fpOut_nan]; simp [XNum.isNan]
    · rw [fpAdd, addDir_nan hinf, fpOut_nan]; rfl
    · rw [fpMul, hzero, fpOut_nan]; rfl

end Sys2Proof.Proofs
end

section
/-! SUPPORT. INT24 sums, the shift-add of the planes, and the bytes of a group's result. -/

namespace Sys2Proof.Machine
open Sys2Proof

/-! ### INT24 (R90) -/

/-- INT24 is the balanced residue modulo 2^24. -/
theorem wrap24_eq_bmod (z : Int) : wrap24 z = z.bmod (2 ^ 24) := by
  simp only [wrap24, sext, toTwos, Int.bmod_def]
  omega

theorem wrap24_of_mem {z : Int} (h1 : -2 ^ 23 ≤ z) (h2 : z < 2 ^ 23) : wrap24 z = z := by
  rw [wrap24_eq_bmod, Int.bmod_def]
  omega

theorem wrap24_mem (z : Int) : -2 ^ 23 ≤ wrap24 z ∧ wrap24 z < 2 ^ 23 := by
  rw [wrap24_eq_bmod, Int.bmod_def]
  omega

theorem wrap24_sub_emod (z : Int) : (wrap24 z - z) % 2 ^ 24 = 0 := by
  rw [wrap24_eq_bmod, Int.bmod_def]
  omega

/-- A sum wrapped at each step is the whole sum wrapped once. -/
theorem foldl_wrap24 {α : Type} (g : α → Int) (l : List α) (z : Int) :
    l.foldl (fun t p => wrap24 (t + g p)) (wrap24 z) = wrap24 (z + (l.map g).sum) := by
  induction l generalizing z with
  | nil => simp
  | cons x l ih =>
    have hx : wrap24 (wrap24 z + g x) = wrap24 (z + g x) := by simp only [wrap24_eq_bmod, Int.bmod_add_bmod]
    rw [List.foldl_cons, hx, ih, List.map_cons, List.sum_cons, add_assoc]

/-! ### The shift-add of the planes (R88) -/

/-- The two's-complement number of `w` plane codes, top plane first. -/
def planeSum (w : Nat) (k : Nat → Nat) : Int :=
  (((List.range w).drop 1).map (fun i => 2 ^ (w - 1 - i) * (k i : Int))).sum - 2 ^ (w - 1) * (k 0 : Int)

theorem planeSum_one (k : Nat → Nat) : planeSum 1 k = -(k 0 : Int) := by simp [planeSum, List.range_succ]

/-- One plane more doubles the number. -/
theorem planeSum_succ (w : Nat) (k : Nat → Nat) : planeSum (w + 2) k = 2 * planeSum (w + 1) k + k (w + 1) := by
  have hdrop : (List.range (w + 2)).drop 1 = (List.range (w + 1)).drop 1 ++ [w + 1] := by
    rw [List.range_succ, List.drop_append_of_le_length (by simp)]
  have hdouble : ((List.range (w + 1)).drop 1).map (fun i => 2 ^ (w + 2 - 1 - i) * (k i : Int)) =
      ((List.range (w + 1)).drop 1).map (fun i => 2 * (2 ^ (w + 1 - 1 - i) * (k i : Int))) := by
    refine List.map_congr_left fun i hi => ?_
    have hlt : i < w + 1 := List.mem_range.1 (List.mem_of_mem_drop hi)
    rw [← mul_assoc, ← pow_succ', show w + 1 - 1 - i + 1 = w + 2 - 1 - i by omega]
  rw [planeSum, planeSum, hdrop, List.map_append, List.sum_append, hdouble, List.sum_map_mul_left]
  simp [pow_succ]
  ring

theorem planeSum_mem {w : Nat} (hw : w < 8) {k : Nat → Nat} (hk : ∀ i, k i ≤ 511) :
    -(511 * 2 ^ w) ≤ planeSum (w + 1) k ∧ planeSum (w + 1) k ≤ 511 * (2 ^ w - 1) := by
  induction w with
  | zero => have := hk 0; rw [planeSum_one]; omega
  | succ w ih =>
    obtain ⟨hlo, hhi⟩ := ih (by omega)
    have := hk (w + 1)
    rw [planeSum_succ, pow_succ]
    omega

/-- The code of plane `i`. -/
def planeCode (ks : List (Nat × Bool)) (i : Nat) : Nat := (ks.getD i (0, false)).1

theorem colSum_succ (w : Nat) (ks : List (Nat × Bool)) : colSum (w + 1) ks =
    { acc := if w = 0 then -(planeCode ks w : Int) else wrap24 (2 * (colSum w ks).acc + planeCode ks w)
      clips := (colSum w ks).clips + (ks.getD w (0, false)).2.toNat
      peak := max (colSum w ks).peak (planeCode ks w) } := by
  simp only [colSum, List.range_succ, List.foldl_append, List.foldl_cons, List.foldl_nil, planeCode]

/-- The shift-add of at most 8 planes of 9-bit codes does not wrap (R88). -/
theorem colSum_acc {w : Nat} (hw : w < 8) {ks : List (Nat × Bool)} (hk : ∀ i, planeCode ks i ≤ 511) :
    (colSum (w + 1) ks).acc = planeSum (w + 1) (planeCode ks) := by
  induction w with
  | zero => rw [colSum_succ, planeSum_one]; rfl
  | succ w ih =>
    obtain ⟨hlo, hhi⟩ := planeSum_mem (w := w) (by omega) hk
    have hpow : (2 : Int) ^ w ≤ 2 ^ 6 := pow_le_pow_right₀ (by decide) (by omega)
    have := hk (w + 1)
    rw [colSum_succ, if_neg (Nat.succ_ne_zero w), ih (by omega), planeSum_succ]
    exact wrap24_of_mem (by omega) (by omega)

theorem colSum_clips (w : Nat) (ks : List (Nat × Bool)) :
    (colSum w ks).clips = ((List.range w).filter (fun i => (ks.getD i (0, false)).2)).length := by
  induction w with
  | zero => rfl
  | succ w ih =>
    rw [colSum_succ, List.range_succ, List.filter_append, List.length_append, ih, List.filter_singleton]
    cases (ks.getD w (0, false)).2 <;> rfl

theorem planeCode_le {ks : List (Nat × Bool)} (h : ∀ x ∈ ks, x.1 ≤ 511) (i : Nat) : planeCode ks i ≤ 511 := by
  unfold planeCode
  by_cases hi : i < ks.length
  · rw [List.getD_eq_getElem _ _ hi]; exact h _ (List.getElem_mem hi)
  · rw [List.getD_eq_default _ _ (Nat.le_of_not_lt hi)]; omega

/-! ### The bytes of a group's result -/

/-- Two bytes read back as the low 16 bits of the number they were written from. -/
theorem ofLe_leBytes_two (n : Nat) : ofLe (leBytes 2 n) = n % 65536 := by
  simp only [leBytes, ofLe, byteOf, BitVec.toNat_ofNat]
  omega

theorem leAt_append_left {as bs : List Byte} {k : Nat} (h : as.length = k) : leAt (as ++ bs) 0 k = ofLe as := by
  simp [leAt, sliceB, ← h]

theorem leAt_append_right {as bs : List Byte} {n o k : Nat} (h : as.length = n) : leAt (as ++ bs) (n + o) k = leAt bs o k := by
  rw [leAt, leAt, sliceB, sliceB, ← h, List.drop_length_add_append]

/-- Number `j` of a string of 2-byte numbers. -/
theorem leAt_flatMap_leBytes (f : Nat → Nat) {n j : Nat} (h : j < n) :
    leAt ((List.range n).flatMap (fun j => leBytes 2 (f j))) (2 * j) 2 = f j % 65536 := by
  induction n generalizing f j with
  | zero => omega
  | succ n ih =>
    rw [List.range_succ_eq_map, List.flatMap_cons, List.flatMap_map]
    cases j with
    | zero => rw [Nat.mul_zero, leAt_append_left (leBytes_length ..), ofLe_leBytes_two]
    | succ j =>
      rw [show 2 * (j + 1) = 2 + 2 * j by ring, leAt_append_right (leBytes_length ..)]
      exact ih (fun j => f (j + 1)) (by omega)

theorem length_flatMap_leBytes (f : Nat → Nat) (n : Nat) : ((List.range n).flatMap (fun j => leBytes 2 (f j))).length = 2 * n := by
  simp [List.length_flatMap, mul_comm]

end Sys2Proof.Machine
end

section
/-! SUPPORT. Which entry of the pass queue is admitted (R97, R98). -/

namespace Sys2Proof.Machine
open Sys2Proof

/-- The arrays of a request are idle and none is in `busy`. -/
def State.fits (s : State) (k : Nat) (busy : List Nat) (q : PassReq) : Bool :=
  s.allIdle k (s.reqArrays k q) && (s.reqArrays k q).all (fun a => !busy.contains a)

/-- Cap room for the arrays of a request. -/
def State.roomFor (s : State) (k : Nat) (q : PassReq) : Bool := s.capRoom k (s.reqArrays k q).length

/-- Entry `j` of a list can run beside the arrays of `busy` and those of the older entries. -/
def State.canRun (s : State) (k : Nat) (busy : List Nat) (l : List PassReq) (j : Nat) : Prop :=
  ∃ q, l[j]? = some q ∧ s.fits k (busy ++ (l.take j).flatMap (s.reqArrays k)) q = true ∧ s.roomFor k q = true

section Admission
variable {s : State} {k : Nat} {busy : List Nat} {oldest : Bool} {i : Nat} {q : PassReq} {l : List PassReq}

theorem State.fits_iff : s.fits k busy q = true ↔ s.allIdle k (s.reqArrays k q) = true ∧ ∀ a ∈ s.reqArrays k q, a ∉ busy := by
  simp [State.fits]

theorem State.admitFrom_of_fits (hf : s.fits k busy q = true) : s.admitFrom k busy oldest i (q :: l) =
    if s.roomFor k q then some i else if oldest then none else s.admitFrom k (busy ++ s.reqArrays k q) false (i + 1) l := by
  rw [State.admitFrom]
  exact if_pos hf

theorem State.admitFrom_of_not_fits (hf : s.fits k busy q = false) :
    s.admitFrom k busy oldest i (q :: l) = s.admitFrom k (busy ++ s.reqArrays k q) false (i + 1) l := by
  rw [State.admitFrom]
  exact if_neg (Bool.eq_false_iff.1 hf)

theorem State.canRun_zero : s.canRun k busy (q :: l) 0 ↔ s.fits k busy q = true ∧ s.roomFor k q = true := by simp [State.canRun]

theorem State.canRun_succ {j : Nat} : s.canRun k busy (q :: l) (j + 1) ↔ s.canRun k (busy ++ s.reqArrays k q) l j := by
  simp [State.canRun, List.append_assoc]

/-- The entry admitted is the first that can run, and where it is not the oldest, the oldest lacks its arrays. -/
theorem State.admitFrom_some {n : Nat} (h : s.admitFrom k busy oldest i l = some n) :
    ∃ j, n = i + j ∧ j < l.length ∧ s.canRun k busy l j ∧ (∀ m < j, ¬ s.canRun k busy l m) ∧
      (oldest = true → 0 < j → ∀ r, l[0]? = some r → s.fits k busy r = false) := by
  induction l generalizing busy oldest i with
  | nil => cases h
  | cons q l ih =>
    have later (hq : ¬ s.canRun k busy (q :: l) 0) (hold : oldest = true → s.fits k busy q = false)
        (hl : s.admitFrom k (busy ++ s.reqArrays k q) false (i + 1) l = some n) :
        ∃ j, n = i + j ∧ j < (q :: l).length ∧ s.canRun k busy (q :: l) j ∧ (∀ m < j, ¬ s.canRun k busy (q :: l) m) ∧
          (oldest = true → 0 < j → ∀ r, (q :: l)[0]? = some r → s.fits k busy r = false) := by
      obtain ⟨j, hn, hlt, hrun, hfirst, -⟩ := ih hl
      refine ⟨j + 1, by omega, Nat.succ_lt_succ hlt, State.canRun_succ.2 hrun, fun m hm => ?_, fun ho _ r hr => ?_⟩
      · cases m with
        | zero => exact hq
        | succ m => exact fun hc => hfirst m (by omega) (State.canRun_succ.1 hc)
      · cases hr; exact hold ho
    cases hf : s.fits k busy q with
    | false =>
      rw [State.admitFrom_of_not_fits hf] at h
      exact later (fun hc => by rw [State.canRun_zero, hf] at hc; exact absurd hc.1 (by decide)) (fun _ => hf) h
    | true =>
      rw [State.admitFrom_of_fits hf] at h
      cases hr : s.roomFor k q with
      | true =>
        rw [if_pos hr] at h
        cases h
        exact ⟨0, rfl, Nat.succ_pos _, State.canRun_zero.2 ⟨hf, hr⟩, fun m hm => absurd hm (Nat.not_lt_zero m), fun _ h0 => absurd h0 (by decide)⟩
      | false =>
        rw [if_neg (Bool.eq_false_iff.1 hr)] at h
        cases oldest with
        | true => cases h
        | false => exact later (fun hc => by rw [State.canRun_zero, hr] at hc; exact absurd hc.2 (by decide)) (fun ho => absurd ho (by decide)) h

end Admission

section AdmitNext
variable {s : State} {k : Nat}

/-- With the arrays disabled or every result slot taken, nothing is admitted. -/
theorem State.admitNext_off (h : s.regB (R.ARR_CTRL k) 0 = false ∨ 256 ≤ (s.kao k).running.length + (s.kao k).results) : s.admitNext k = none := by
  refine if_neg fun hc => ?_
  obtain ⟨hen, hroom⟩ := Bool.and_eq_true_iff.1 hc
  rcases h with h | h
  · rw [h] at hen; exact absurd hen (by decide)
  · exact absurd (of_decide_eq_true hroom) (Nat.not_lt.2 h)

theorem State.admitNext_on (he : s.regB (R.ARR_CTRL k) 0 = true) (hr : (s.kao k).running.length + (s.kao k).results < 256) :
    s.admitNext k = s.admitFrom k [] true 0 ((s.kao k).queue.take (s.lookahead k)) :=
  if_pos (by rw [he, decide_eq_true hr]; rfl)

theorem State.lookahead_pos : 0 < s.lookahead k := lt_of_lt_of_le Nat.one_pos (le_max_left ..)

/-- An oldest entry with idle arrays waits for cap room alone. -/
theorem State.admitNext_oldest {q : PassReq} {rest : List PassReq} (he : s.regB (R.ARR_CTRL k) 0 = true)
    (hr : (s.kao k).running.length + (s.kao k).results < 256) (hq : (s.kao k).queue = q :: rest) (hi : s.allIdle k (s.reqArrays k q) = true) :
    s.admitNext k = if s.capRoom k (s.reqArrays k q).length then some 0 else none := by
  obtain ⟨n, hn⟩ := Nat.exists_eq_succ_of_ne_zero (s.lookahead_pos (k := k)).ne'
  rw [State.admitNext_on he hr, hq, hn, List.take_succ_cons, State.admitFrom_of_fits (State.fits_iff.2 ⟨hi, fun _ _ => List.not_mem_nil⟩)]
  rfl

/-- Entry `j` of the pass queue can run beside the older entries. -/
theorem State.canRun_queue {j n : Nat} (hj : j < n) {l : List PassReq} {q : PassReq} (hq : l[j]? = some q) :
    s.canRun k [] (l.take n) j ↔ s.allIdle k (s.reqArrays k q) = true ∧ s.roomFor k q = true ∧
      ∀ m o, m < j → l[m]? = some o → ∀ a ∈ s.reqArrays k q, a ∉ s.reqArrays k o := by
  have hmem : ∀ a, a ∈ ((l.take n).take j).flatMap (s.reqArrays k) ↔ ∃ m o, m < j ∧ l[m]? = some o ∧ a ∈ s.reqArrays k o := by
    intro a
    rw [List.take_take, Nat.min_eq_left hj.le, List.mem_flatMap]
    constructor
    · rintro ⟨o, ho, ha⟩
      obtain ⟨m, hm⟩ := List.mem_iff_getElem?.1 ho
      rw [List.getElem?_take] at hm
      split at hm
      · next hlt => exact ⟨m, o, hlt, hm, ha⟩
      · cases hm
    · rintro ⟨m, o, hlt, hm, ha⟩
      exact ⟨o, List.mem_iff_getElem?.2 ⟨m, by rw [List.getElem?_take, if_pos hlt, hm]⟩, ha⟩
  have hget : (l.take n)[j]? = some q := by rw [List.getElem?_take, if_pos hj, hq]
  simp only [State.canRun, hget, Option.some.injEq, exists_eq_left', List.nil_append, State.fits_iff, hmem]
  constructor
  · rintro ⟨⟨hi, hfree⟩, hr⟩
    exact ⟨hi, hr, fun m o hm ho a ha hao => hfree a ha ⟨m, o, hm, ho, hao⟩⟩
  · rintro ⟨hi, hr, hfree⟩
    exact ⟨⟨hi, fun a ha ⟨m, o, hm, ho, hao⟩ => hfree m o hm ho a ha hao⟩, hr⟩

/-- The entry admitted lies in the window and is its first that can run; where it is not the oldest, an array of the oldest is not idle. -/
theorem State.admitNext_some {i : Nat} {q : PassReq} (h : s.admitNext k = some i) (hq : (s.kao k).queue[i]? = some q) :
    i < s.lookahead k ∧ s.canRun k [] ((s.kao k).queue.take (s.lookahead k)) i ∧
      (∀ m < i, ¬ s.canRun k [] ((s.kao k).queue.take (s.lookahead k)) m) ∧
      (∀ r, 0 < i → (s.kao k).queue[0]? = some r → s.allIdle k (s.reqArrays k r) = false) := by
  unfold State.admitNext at h
  split at h
  · obtain ⟨j, hij, hlt, hrun, hfirst, hold⟩ := State.admitFrom_some h
    obtain rfl : j = i := by omega
    refine ⟨lt_of_lt_of_le hlt (List.length_take_le ..), hrun, hfirst, fun r h0 hr => ?_⟩
    have hfit := hold rfl h0 r (by rw [List.getElem?_take, if_pos s.lookahead_pos, hr])
    exact Bool.eq_false_iff.2 fun hi => Bool.eq_false_iff.1 hfit (State.fits_iff.2 ⟨hi, fun _ _ => List.not_mem_nil⟩)
  · cases h

end AdmitNext
end Sys2Proof.Machine
end

section
/-! SUPPORT. What a group request and the passes of a Kaolin die do to the state (R87 to R91, R97 to R99). -/

namespace Sys2Proof.Machine
open Sys2Proof

/-! ### Group requests -/

/-- The oldest request leaves the die link. -/
def State.popLink (s : State) (k : Nat) (rest : List PassReq) : State := s.setKao k { s.kao k with link := rest }

/-- A request joins the pass queue with the present pod time. -/
def State.enqueue (s : State) (k : Nat) (q : PassReq) : State :=
  s.setKao k { s.kao k with queue := (s.kao k).queue ++ [{ q with born := s.time }] }

/-- Some position of the request's group runs in fallback under its view. -/
def State.inFallback (s : State) (k : Nat) (e : MatEnt) (q : PassReq) : Bool :=
  ((e.grpBlocks q.grp).map (fun rb => e.posOf q.cb rb)).any (fun p => (s.pos k p).fbFor q.view)

section Request
variable {s : State} {k : Nat} {q : PassReq} {rest : List PassReq} {e : MatEnt} (hl : (s.kao k).link = q :: rest)
include hl

theorem groupRequest_unknown (hm : s.matAt k q.mat = none) : groupRequest k s = (s.popLink k rest).badRequest k q [] := by
  simp only [groupRequest, hl, hm, State.popLink]

theorem groupRequest_refused (hm : s.matAt k q.mat = some e)
    (h : s.reqChain e q < q.chain ∨ q.input.length ≠ e.recBytes q.chain ∨ leAt q.input 0 4 ≠ e.recBytes q.chain ∨ s.matWaits e = true) :
    groupRequest k s = (s.popLink k rest).badRequest k q (nanResult (e.cols q.cb)) := by
  simp only [groupRequest, hl, hm]
  exact if_pos h

section Sound
variable (hm : s.matAt k q.mat = some e) (hc : q.chain ≤ s.reqChain e q) (hn : q.input.length = e.recBytes q.chain)
  (hr : leAt q.input 0 4 = e.recBytes q.chain) (hw : s.matWaits e = false)
include hm hc hn hr hw

/-- A request that is not refused goes to the matrix engine, waits on the link, or joins the pass queue. -/
theorem groupRequest_taken : groupRequest k s =
    if s.inFallback k e q then (s.popLink k rest).fbGroup k e q
    else if 4096 ≤ (s.kao k).queue.length then s.event (R.ARR_EVENTS k) 0
    else ((s.popLink k rest).enqueue k q).when (decide (4096 ≤ (((s.popLink k rest).enqueue k q).kao k).queue.length))
      (fun s => s.event (R.ARR_EVENTS k) 0) := by
  have hok : ¬ (s.reqChain e q < q.chain ∨ q.input.length ≠ e.recBytes q.chain ∨ leAt q.input 0 4 ≠ e.recBytes q.chain ∨ s.matWaits e = true) := by
    rintro (h | h | h | h)
    · omega
    · exact h hn
    · exact h hr
    · rw [hw] at h; exact absurd h (by decide)
  simp only [groupRequest, hl, hm]
  exact if_neg hok

theorem groupRequest_fallback (hf : s.inFallback k e q = true) : groupRequest k s = (s.popLink k rest).fbGroup k e q := by
  rw [groupRequest_taken hl hm hc hn hr hw, if_pos hf]

variable (hf : s.inFallback k e q = false)
include hf

theorem groupRequest_full (h : 4096 ≤ (s.kao k).queue.length) : groupRequest k s = s.event (R.ARR_EVENTS k) 0 := by
  rw [groupRequest_taken hl hm hc hn hr hw, if_neg (Bool.eq_false_iff.1 hf), if_pos h]

/-- A request that finds room joins the pass queue; the one that fills it sets the event. -/
theorem groupRequest_joins (h : (s.kao k).queue.length < 4096) : groupRequest k s =
    ((s.popLink k rest).enqueue k q).when (decide (4095 ≤ (s.kao k).queue.length)) (fun s => s.event (R.ARR_EVENTS k) 0) := by
  have hlen : (((s.popLink k rest).enqueue k q).kao k).queue.length = (s.kao k).queue.length + 1 := by
    simp [State.enqueue, State.popLink]
  rw [groupRequest_taken hl hm hc hn hr hw, if_neg (Bool.eq_false_iff.1 hf), if_neg (Nat.not_le.2 h), hlen]
  exact congrArg (fun b => State.when _ b _) (decide_eq_decide.2 Nat.succ_le_succ_iff)

end Sound
end Request

/-! ### The use of arrays -/

theorem State.useArrays_cons (s : State) (k a : Nat) (l : List Nat) (u : ArrUse) :
    s.useArrays k (a :: l) u = (s.setPhys k a { s.phys k a with use := u }).useArrays k l u := rfl

@[simp] theorem State.useArrays_kao (s : State) (k : Nat) (l : List Nat) (u : ArrUse) : (s.useArrays k l u).kao = s.kao := by
  induction l generalizing s with
  | nil => rfl
  | cons a l ih => rw [State.useArrays_cons, ih, State.kao_setPhys]

theorem State.incPair_kao (s : State) (a n : Nat) : (s.incPair a n).kao = s.kao := by
  have hframe := s.incPair_frame a n
  funext x
  simp only [State.kao, hframe]

theorem State.use_setPhys (s : State) (k a b : Nat) (u : ArrUse) :
    ((s.setPhys k a { s.phys k a with use := u }).phys k b).use = if b = a then u else (s.phys k b).use := by
  split
  · next h => rw [h, State.phys_setPhys]
  · next h => rw [State.phys_setPhys_ne _ _ h]

theorem State.useArrays_use (s : State) (k : Nat) (l : List Nat) (u : ArrUse) (a : Nat) :
    ((s.useArrays k l u).phys k a).use = if a ∈ l then u else (s.phys k a).use := by
  induction l generalizing s with
  | nil => rfl
  | cons b l ih =>
    rw [State.useArrays_cons, ih, State.use_setPhys]
    by_cases hb : a = b <;> by_cases hl : a ∈ l <;> simp [hb, hl]

/-! ### Admission -/

section Admit
variable {s : State} {k i : Nat} {q : PassReq} {e : MatEnt}

/-- What an admitted request latches (R97, R112). -/
def State.latched (s : State) (k : Nat) (q : PassReq) (e : MatEnt) (temp : Word) : PassRun :=
  { req := q, arrays := s.reqArrays k q, lsb := (lsbExp (e.ng q.grp) ((s.mat k q.mat).reqRange q) + 8).toNat,
    bits := readBits (e.ng q.grp), bank := (s.kao k).bankFor q.view, temp := temp }

/-- Entry `i` of the pass queue becomes a running pass. -/
def State.startPass (s : State) (k i : Nat) (run : PassRun) : State :=
  (s.setKao k { s.kao k with queue := (s.kao k).queue.eraseIdx i, running := (s.kao k).running ++ [run] }).useArrays k run.arrays .pass

theorem passAdmit_none {temp : Word} (hn : s.admitNext k = none) : passAdmit k temp s = s := by simp only [passAdmit, hn]

/-- The arrays, the memory and the outputs. -/
def State.arrMemOut (s : State) : ArrSt × MemSt × List Out := (s.arr, s.mem, s.out)

theorem State.noteFirst_arrMemOut (s : State) (q : PassReq) : (s.noteFirst q).arrMemOut = s.arrMemOut := by
  unfold State.noteFirst
  split <;> rfl

theorem State.startPass_arrMemOut (s : State) (k i : Nat) (run : PassRun) :
    (s.startPass k i run).arrMemOut = ((s.startPass k i run).arr, s.mem, s.out) := by
  have hframe := State.useArrays_frame (s.setKao k { s.kao k with queue := (s.kao k).queue.eraseIdx i, running := (s.kao k).running ++ [run] })
    k run.arrays .pass
  simp only [State.arrMemOut, State.startPass, hframe]
  rfl

/-- An admission starts the pass; what it notes besides leaves the arrays, the memory and the outputs. -/
theorem passAdmit_some {temp : Word} (hn : s.admitNext k = some i) (hq : (s.kao k).queue[i]? = some q) (hm : s.matAt k q.mat = some e) :
    (passAdmit k temp s).arrMemOut = ((s.startPass k i (s.latched k q e temp)).arr, s.mem, s.out) :=
  calc (passAdmit k temp s).arrMemOut
      = (((s.startPass k i (s.latched k q e temp)).notePeak k).noteFirst q).arrMemOut := by
        simp only [passAdmit, hn, hq, hm]
        exact State.when_keeps State.arrMemOut rfl
    _ = (s.startPass k i (s.latched k q e temp)).arrMemOut := State.noteFirst_arrMemOut _ q
    _ = _ := s.startPass_arrMemOut k i _

end Admit

/-! ### What a completed pass leaves on its die -/

/-- What the end of a pass shows of a die: the passes that run, the use of each array, ARR_PASS_CNT, the step's phase, the outputs. -/
def State.passShown (s : State) (k : Nat) : List PassRun × (Nat → ArrUse) × Nat × Phase × List Out :=
  ((s.kao k).running, fun a => (s.phys k a).use, s.pair (R.ARR_PASS_CNT k), s.stp.phase, s.out)

section Shown
variable (s : State) (k : Nat)

theorem State.passShown_setReg {a : Nat} (h1 : a ≠ R.ARR_PASS_CNT k) (h2 : a ≠ R.ARR_PASS_CNT k + 4) (v : Word) :
    (s.setReg a v).passShown k = s.passShown k := by
  have hpair : (s.setReg a v).pair (R.ARR_PASS_CNT k) = s.pair (R.ARR_PASS_CNT k) := by
    rw [State.pair, State.reg_setReg, State.reg_setReg, if_neg h1.symm, if_neg h2.symm, State.pair]
  exact congrArg (fun n => ((s.kao k).running, fun a => (s.phys k a).use, n, s.stp.phase, s.out)) hpair

theorem State.passShown_setPhys {a : Nat} {x : PhysSt} (h : x.use = (s.phys k a).use) : (s.setPhys k a x).passShown k = s.passShown k := by
  have huse : (fun b => ((s.setPhys k a x).phys k b).use) = fun b => (s.phys k b).use := by
    funext b
    by_cases hb : b = a
    · rw [hb, State.phys_setPhys, h]
    · rw [State.phys_setPhys_ne _ _ hb]
  exact congrArg (fun u => ((s.kao k).running, u, s.pair (R.ARR_PASS_CNT k), s.stp.phase, s.out)) huse

theorem State.passShown_event (i : Nat) : (s.event (R.ARR_EVENTS k) i).passShown k = s.passShown k :=
  s.passShown_setReg k (by unfold R.ARR_EVENTS R.ARR_PASS_CNT; omega) (by unfold R.ARR_EVENTS R.ARR_PASS_CNT; omega) _

theorem State.passShown_nanCount (n : Nat) : (s.incReg (R.ARR_NAN_CNT k) n).passShown k = s.passShown k :=
  s.passShown_setReg k (by unfold R.ARR_NAN_CNT R.ARR_PASS_CNT; omega) (by unfold R.ARR_NAN_CNT R.ARR_PASS_CNT; omega) _

theorem State.passShown_clipCount (n : Nat) : (s.incPair (R.ARR_CLIP_CNT k) n).passShown k = s.passShown k :=
  (State.passShown_setReg _ k (by unfold R.ARR_CLIP_CNT R.ARR_PASS_CNT; omega) (by unfold R.ARR_CLIP_CNT R.ARR_PASS_CNT; omega) _).trans
    (State.passShown_setReg s k (by unfold R.ARR_CLIP_CNT R.ARR_PASS_CNT; omega) (by unfold R.ARR_CLIP_CNT R.ARR_PASS_CNT; omega) _)

theorem State.passShown_addClip (a m n : Nat) : (s.addClip k a m n).passShown k = s.passShown k := by
  unfold State.addClip
  split
  · rfl
  · refine (State.when_keeps (State.passShown · k) (State.passShown_event ..)).trans ?_
    rw [State.passShown_event, State.passShown_clipCount]
    exact s.passShown_setPhys k rfl

theorem State.passShown_noteConv (q : PassReq) (clips conv peak : Nat) : (s.noteConv k q clips conv peak).passShown k = s.passShown k := by
  unfold State.noteConv
  dsimp only
  split
  · split <;> rfl
  · rfl

theorem State.passShown_groupDone (q : PassReq) (bytes : List Byte) (bad : Bool) : (s.groupDone q bytes bad).passShown k = s.passShown k := by
  have hframe := s.groupDone_frame q bytes bad
  simp only [State.passShown, State.kao, State.phys, State.pair, State.reg, hframe]

end Shown

/-! ### The end of a pass -/

/-- Running pass `i` has ended, its arrays are free and its count is added (R89, R91). -/
def State.passEnded (s : State) (k i : Nat) (run : PassRun) : State :=
  ((s.setKao k { s.kao k with running := (s.kao k).running.eraseIdx i }).useArrays k run.arrays .idle).incPair (R.ARR_PASS_CNT k)
    (run.arrays.length * run.req.chain)

section Ended
variable (s : State) (k i : Nat) (run : PassRun)

theorem State.passEnded_kao : (s.passEnded k i run).kao k = { s.kao k with running := (s.kao k).running.eraseIdx i } := by
  rw [State.passEnded, State.incPair_kao, State.useArrays_kao, State.kao_setKao]

theorem State.passEnded_use {a : Nat} (h : a ∈ run.arrays) : ((s.passEnded k i run).phys k a).use = .idle := by
  rw [State.passEnded, State.incPair_phys, State.useArrays_use, if_pos h]

theorem State.passEnded_count : (s.passEnded k i run).pair (R.ARR_PASS_CNT k) =
    (s.pair (R.ARR_PASS_CNT k) + run.arrays.length * run.req.chain) % 2 ^ 64 := by
  have hframe := State.useArrays_frame (s.setKao k { s.kao k with running := (s.kao k).running.eraseIdx i }) k run.arrays .idle
  rw [State.passEnded, State.pair_incPair]
  simp only [State.pair, State.reg, hframe]
  rfl

theorem State.passEnded_frame : (s.passEnded k i run).stp = s.stp ∧ (s.passEnded k i run).out = s.out := by
  have hframe := State.useArrays_frame (s.setKao k { s.kao k with running := (s.kao k).running.eraseIdx i }) k run.arrays .idle
  have hcount := State.incPair_frame ((s.setKao k { s.kao k with running := (s.kao k).running.eraseIdx i }).useArrays k run.arrays .idle)
    (R.ARR_PASS_CNT k) (run.arrays.length * run.req.chain)
  simp only [State.passEnded, hcount, hframe]
  exact ⟨rfl, rfl⟩

end Ended

/-- E_in of a group (R83): the largest scale of the blocks that feed it. -/
def MatEnt.inputScale (e : MatEnt) (q : PassReq) : Nat := (e.groupScales q.input q.chain q.grp).foldl max 0

/-- What vector `x` of a chain drives into the rows of array `a` of a group. -/
def MatEnt.driven (e : MatEnt) (q : PassReq) (x a : Nat) : List Nat :=
  (List.range (e.rows ((e.grpBlocks q.grp).getD a 0))).map (fun r =>
    toTwos e.width ((e.aligned q.input x (e.inputScale q)).getD ((e.grpBlocks q.grp).getD a 0 * e.h + r) 0))

/-- The same of every vector and every array. -/
def MatEnt.drivenAll (e : MatEnt) (q : PassReq) : List (List (List Nat)) :=
  (List.range q.chain).map (fun v => (e.grpBlocks q.grp).map (fun rb => (List.range (e.rows rb)).map (fun r =>
    toTwos e.width ((e.aligned q.input v (e.inputScale q)).getD (rb * e.h + r) 0))))

theorem MatEnt.drivenAll_getD (e : MatEnt) (q : PassReq) {x a : Nat} (hx : x < q.chain) (ha : a < (e.grpBlocks q.grp).length) :
    ((e.drivenAll q).getD x []).getD a [] = e.driven q x a := by
  simp only [MatEnt.drivenAll, MatEnt.driven, List.getD_eq_getElem?_getD, List.getElem?_map, List.getElem?_range hx,
    List.getElem?_eq_getElem ha, Option.map_some, Option.getD_some]

/-- What vector `x` adds on array `a` to weight column `j`: the difference of its pair of physical columns (R89). -/
def State.pairDiff (s : State) (k : Nat) (run : PassRun) (e : MatEnt) (y : SMap Nat) (j x a : Nat) : Int :=
  (s.columnOf k run e.width x a (2 * j) (e.driven run.req x a) y).acc - (s.columnOf k run e.width x a (2 * j + 1) (e.driven run.req x a) y).acc

/-- The differences of weight column `j` over the vectors of the chain and the arrays of the group. -/
def State.pairDiffs (s : State) (k : Nat) (run : PassRun) (e : MatEnt) (y : SMap Nat) (j : Nat) : List Int :=
  (List.range run.req.chain).flatMap (fun x => (List.range (e.grpBlocks run.req.grp).length).map (s.pairDiff k run e y j x))

/-- The same difference, for a vector and an array of the whole list of drives. -/
def State.drivenDiff (s : State) (k : Nat) (run : PassRun) (e : MatEnt) (y : SMap Nat) (j : Nat) (p : Nat × Nat) : Int :=
  (s.columnOf k run e.width p.1 p.2 (2 * j) (((e.drivenAll run.req).getD p.1 []).getD p.2 []) y).acc -
    (s.columnOf k run e.width p.1 p.2 (2 * j + 1) (((e.drivenAll run.req).getD p.1 []).getD p.2 []) y).acc

/-- D of a weight column is the sum of its differences as INT24 (R90). -/
theorem State.foldl_drivenDiff (s : State) (k : Nat) (run : PassRun) (e : MatEnt) (y : SMap Nat) (j : Nat) :
    ((List.range run.req.chain).flatMap fun v => (List.range (e.grpBlocks run.req.grp).length).map fun ai => (v, ai)).foldl
      (fun t p => wrap24 (t + s.drivenDiff k run e y j p)) 0 = wrap24 (s.pairDiffs k run e y j).sum := by
  refine (foldl_wrap24 (s.drivenDiff k run e y j) _ 0).trans ?_
  rw [zero_add, List.map_flatMap]
  refine congrArg (fun l : List Int => wrap24 l.sum) (List.flatMap_congr fun x hx => ?_)
  rw [List.map_map]
  refine List.map_congr_left fun a ha => ?_
  simp only [Function.comp_apply, State.drivenDiff, e.drivenAll_getD run.req (List.mem_range.1 hx) (List.mem_range.1 ha), State.pairDiff]

/-- The trimmed and scaled result of weight column `j` (R90). -/
def State.passColumn (s : State) (k : Nat) (run : PassRun) (e : MatEnt) (y : SMap Nat) (j : Nat) : Nat :=
  trimResult (SMap.get (fun _ => {}) (if run.bank then (s.kao k).bank1 else (s.kao k).bank0) (e.trimKey run.req.cb run.req.grp j))
    (wrap24 (s.pairDiffs k run e y j).sum) ((run.lsb : Int) - 8) run.temp ((s.phys k (run.arrays.getD 0 0)).scale j) (e.inputScale run.req)

section Complete
variable {s : State} {k i : Nat} {y : List (Nat × Nat)} {run : PassRun} {e : MatEnt}

theorem passComplete_none (h : (s.kao k).running[i]? = none) : passComplete k i y s = s := by simp only [passComplete, h]

variable (hrun : (s.kao k).running[i]? = some run) (hm : s.matAt k run.req.mat = some e)
include hrun hm

theorem passComplete_nan (hsc : (e.groupScales run.req.input run.req.chain run.req.grp).contains 0xFF = true) : passComplete k i y s =
    ((((s.passEnded k i run).incReg (R.ARR_NAN_CNT k) 1).event (R.ARR_EVENTS k) 2).noteConv k run.req 0 0 0).groupDone run.req
      (nanResult (e.cols run.req.cb)) false := by
  simp only [passComplete, hrun, hm]
  exact if_pos hsc

/-- A pass without a NaN block scale writes its columns' results; what it counts besides does not show on the die (R87 to R90). -/
theorem passComplete_columns (hsc : (e.groupScales run.req.input run.req.chain run.req.grp).contains 0xFF = false) :
    ∃ u : State, passComplete k i y s = u.groupDone run.req
        ((List.range (e.cols run.req.cb)).flatMap (fun j => leBytes 2 ((s.passEnded k i run).passColumn k run e y j))) false ∧
      u.passShown k = (s.passEnded k i run).passShown k := by
  simp only [passComplete, hrun, hm]
  rw [if_neg (Bool.eq_false_iff.1 hsc)]
  refine ⟨_, congrArg (fun b => State.groupDone _ _ b _) (List.flatMap_congr fun j _ => ?_), ?_⟩
  · exact congrArg (fun d => leBytes 2 (trimResult _ d _ _ _ _)) (State.foldl_drivenDiff ..)
  · rw [State.passShown_noteConv]
    exact foldl_keeps (State.passShown · k) (fun _ _ => State.passShown_addClip ..) _ _

/-- Every completed pass shows its end on the die. -/
theorem passComplete_shown : (passComplete k i y s).passShown k = (s.passEnded k i run).passShown k := by
  cases hsc : (e.groupScales run.req.input run.req.chain run.req.grp).contains 0xFF with
  | true =>
    rw [passComplete_nan hrun hm hsc, State.passShown_groupDone, State.passShown_noteConv, State.passShown_event, State.passShown_nanCount]
  | false =>
    obtain ⟨u, hu, hshown⟩ := passComplete_columns (y := y) hrun hm hsc
    rw [hu, State.passShown_groupDone, hshown]

end Complete
end Sys2Proof.Machine

namespace Sys2Proof.Proofs
open Sys2Proof Sys2Proof.Machine
/-- Settles O22: the branches of the request, the first entry of the window that can run, and the columns of a completed pass. -/
theorem groupRequestsAndPasses : Obligations.GroupRequestsAndPasses := by
  refine ⟨?empty, ?unknown, ?refused, ?fallback, ?joins, ?fills, ?full, ?waits, ?admits, ?off, ?oldest, ?window, ?shiftAdd, ?columns,
    ?ended, ?nan, ?absent⟩
  case empty =>
    intro s k hl
    show Host.Outcome.next (groupRequest k s) = _
    simp only [groupRequest, hl]
  case unknown =>
    intro s k q rest hl hm
    exact congrArg Host.Outcome.next (groupRequest_unknown hl hm)
  case refused =>
    intro s k q rest e hl hm h
    exact congrArg Host.Outcome.next (groupRequest_refused hl hm h)
  case fallback =>
    intro s k q rest e hl hm hc hn hr hw hf
    exact congrArg Host.Outcome.next (groupRequest_fallback hl hm hc hn hr hw hf)
  case joins =>
    intro s k q rest e hl hm hc hn hr hw hf hlen
    have h := groupRequest_joins hl hm hc hn hr hw hf (by omega)
    rw [decide_eq_false (by omega)] at h
    exact congrArg Host.Outcome.next h
  case fills =>
    intro s k q rest e hl hm hc hn hr hw hf hlen
    have h := groupRequest_joins hl hm hc hn hr hw hf (by omega)
    rw [decide_eq_true (by omega)] at h
    exact congrArg Host.Outcome.next h
  case full =>
    intro s k q rest e hl hm hc hn hr hw hf hlen
    exact congrArg Host.Outcome.next (groupRequest_full hl hm hc hn hr hw hf hlen)
  case waits =>
    intro s k temp hn
    exact congrArg Host.Outcome.next (passAdmit_none hn)
  case admits =>
    intro s k temp i q e hn hq hm
    have hkeep := passAdmit_some (temp := temp) hn hq hm
    simp only [State.arrMemOut, Prod.mk.injEq] at hkeep
    obtain ⟨harr, hmem, hout⟩ := hkeep
    have hkao : (passAdmit k temp s).kao k = (s.startPass k i (s.latched k q e temp)).kao k := by simp only [State.kao, harr]
    have hphys : (passAdmit k temp s).phys k = (s.startPass k i (s.latched k q e temp)).phys k := by
      funext a
      simp only [State.phys, harr]
    rw [State.startPass, State.useArrays_kao, State.kao_setKao] at hkao
    refine ⟨passAdmit k temp s, rfl, congrArg KaolinSt.queue hkao, congrArg KaolinSt.running hkao, fun a ha => ?_, hmem, hout⟩
    rw [hphys, State.startPass, State.useArrays_use]
    exact if_pos ha
  case off =>
    intro s k h
    exact State.admitNext_off h
  case oldest =>
    intro s k q rest he hr hq hi
    exact State.admitNext_oldest he hr hq hi
  case window =>
    intro s k i q hn hq
    obtain ⟨hlt, hrun, hfirst, hold⟩ := State.admitNext_some hn hq
    obtain ⟨hi, hroom, hfree⟩ := (State.canRun_queue hlt hq).1 hrun
    refine ⟨hlt, hi, hroom, fun j r hj hr a ha => hfree j r hj hr a ha, hold, fun j r hj hr hidle hcap => ?_⟩
    by_contra hno
    refine hfirst j hj ((State.canRun_queue (hj.trans hlt) hr).2 ⟨hidle, hcap, fun l o hl ho a ha hao => ?_⟩)
    exact hno ⟨l, o, hl, ho, a, ha, hao⟩
  case shiftAdd =>
    intro w ks h0 h8 hk
    obtain ⟨n, rfl⟩ := Nat.exists_eq_succ_of_ne_zero h0.ne'
    exact ⟨colSum_acc (by omega) (planeCode_le hk), colSum_clips _ ks⟩
  case columns =>
    intro s k i y run e hrun hm hsc
    obtain ⟨u, hu, -⟩ := passComplete_columns (y := y) hrun hm hsc
    refine ⟨u, s.passEnded k i run, _, fun j => wrap24 ((s.passEnded k i run).pairDiffs k run e y j).sum, rfl,
      congrArg Host.Outcome.next hu, length_flatMap_leBytes .., fun j hj => ?_, fun j => ?_⟩
    · rw [leAt_flatMap_leBytes _ hj, State.passColumn, State.passEnded_kao]
      rfl
    · obtain ⟨hlo, hhi⟩ := wrap24_mem ((s.passEnded k i run).pairDiffs k run e y j).sum
      exact ⟨hlo, hhi, wrap24_sub_emod _⟩
  case ended =>
    intro s k i y run e hrun hm _
    have hshown := passComplete_shown (y := y) hrun hm
    simp only [State.passShown, Prod.mk.injEq] at hshown
    obtain ⟨hrunning, huse, hcount, hphase, hout⟩ := hshown
    obtain ⟨hstp, hout'⟩ := s.passEnded_frame k i run
    refine ⟨passComplete k i y s, rfl, ?_, hcount.trans (s.passEnded_count k i run), fun a ha => ?_, ?_, hout.trans hout'⟩
    · rw [hrunning, State.passEnded_kao]
    · exact (congrFun huse a).trans (s.passEnded_use k i run ha)
    · rw [hphase, hstp]
  case nan =>
    intro s k i y run e hrun hm hsc
    exact ⟨_, rfl, congrArg Host.Outcome.next (passComplete_nan hrun hm hsc)⟩
  case absent =>
    intro s k i y h
    exact congrArg Host.Outcome.next (passComplete_none h)

end Sys2Proof.Proofs
end

section
/-! SUPPORT. The analogue-to-digital conversion: the nearest code, the bits and the LSB (R85 to R87). -/

namespace Sys2Proof.Machine
open Sys2Proof

/-! ### The nearest code -/

/-- The multiple of `q` nearest to `y`, half way between two the even one (R86). -/
def nearestCode (q y : Nat) : Nat := if 2 * (y % q) > q ∨ (2 * (y % q) = q ∧ y / q % 2 = 1) then y / q + 1 else y / q

/-- A conversion is the nearest code up to full scale, clipped beyond half an LSB above full scale. -/
theorem convert_eq (bits : Nat) (e : Int) (y : Nat) : convert bits e y =
    (min (2 ^ bits - 1) (nearestCode (2 ^ (e + 8).toNat) y), decide ((2 * (2 ^ bits - 1) + 1) * 2 ^ (e + 8).toNat < 2 * y)) := rfl

section Nearest
variable {q : Nat} (hq : 0 < q)
include hq

theorem nearestCode_within_half (y : Nat) : 2 * (nearestCode q y * q) ≤ 2 * y + q ∧ 2 * y ≤ 2 * (nearestCode q y * q) + q := by
  have hy : y / q * q + y % q = y := Nat.div_add_mod' y q
  have hr : y % q < q := Nat.mod_lt y hq
  unfold nearestCode
  split
  · rw [Nat.add_mul, Nat.one_mul]; omega
  · omega

/-- Up to half an LSB above full scale, the code cut off at full scale is still within half an LSB. -/
theorem min_nearestCode_within_half {top y : Nat} (h : 2 * y ≤ (2 * top + 1) * q) :
    2 * (min top (nearestCode q y) * q) ≤ 2 * y + q ∧ 2 * y ≤ 2 * (min top (nearestCode q y) * q) + q := by
  obtain ⟨hlo, hhi⟩ := nearestCode_within_half hq y
  rcases Nat.le_total (nearestCode q y) top with hk | hk
  · rw [Nat.min_eq_right hk]
    exact ⟨hlo, hhi⟩
  · have hmul : top * q ≤ nearestCode q y * q := Nat.mul_le_mul_right q hk
    rw [Nat.add_mul, Nat.one_mul, Nat.mul_assoc] at h
    rw [Nat.min_eq_left hk]
    exact ⟨by omega, h⟩

/-- More than half an LSB above full scale, the nearest code is above it too. -/
theorem le_nearestCode {top y : Nat} (h : (2 * top + 1) * q < 2 * y) : top ≤ nearestCode q y := by
  obtain ⟨-, hhi⟩ := nearestCode_within_half hq y
  rw [Nat.add_mul, Nat.one_mul, Nat.mul_assoc] at h
  exact Nat.le_of_mul_le_mul_right (by omega : top * q ≤ nearestCode q y * q) hq

end Nearest

/-- Half way between two codes the nearest is the even one. -/
theorem nearestCode_half {p : Nat} (hp : 0 < p) (f : Nat) : nearestCode (2 ^ p) (f * 2 ^ p + 2 ^ p / 2) = f + f % 2 := by
  obtain ⟨p, rfl⟩ := Nat.exists_eq_succ_of_ne_zero hp.ne'
  have hpos : 0 < 2 ^ p := Nat.two_pow_pos p
  have hhalf : 2 ^ p.succ / 2 = 2 ^ p := by rw [pow_succ, Nat.mul_div_cancel _ (by decide)]
  have hlt : 2 ^ p < 2 ^ p.succ := by rw [pow_succ]; omega
  have hdiv : (f * 2 ^ p.succ + 2 ^ p) / 2 ^ p.succ = f := by
    rw [Nat.mul_comm, Nat.mul_add_div (by omega), Nat.div_eq_of_lt hlt, Nat.add_zero]
  have hmod : (f * 2 ^ p.succ + 2 ^ p) % 2 ^ p.succ = 2 ^ p := by rw [Nat.mul_add_mod', Nat.mod_eq_of_lt hlt]
  rw [hhalf, nearestCode, hdiv, hmod, pow_succ]
  split <;> omega

/-! ### Bits and LSB -/

/-- The conversion has the fewest bits, 9 at most, whose codes hold the 15 levels of every row (R85). -/
theorem readBits_of_lt {n k : Nat} (hk : k < 8) (hlo : 2 ^ k < 15 * n + 1) (hhi : 15 * n + 1 ≤ 2 ^ (k + 1)) : readBits n = k + 1 := by
  have hfind : (List.range 9).find? (fun i => decide (15 * n + 1 ≤ 2 ^ i)) = some (k + 1) := by
    rw [List.find?_range_eq_some]
    refine ⟨decide_eq_true hhi, List.mem_range.2 (by omega), fun j hj => ?_⟩
    have hpow : 2 ^ j ≤ 2 ^ k := Nat.pow_le_pow_right (by decide) (by omega)
    simpa using hpow.trans_lt hlo
  rw [readBits, hfind, Option.getD_some]

theorem readBits_of_gt {n : Nat} (h : 2 ^ 8 < 15 * n + 1) : readBits n = 9 := by
  have hfind : (List.range 9).find? (fun i => decide (15 * n + 1 ≤ 2 ^ i)) = none := by
    rw [List.find?_range_eq_none]
    intro j hj
    have hpow : 2 ^ j ≤ 2 ^ 8 := Nat.pow_le_pow_right (by decide) (by omega)
    simpa using hpow.trans_lt h
  rw [readBits, hfind, Option.getD_none]

/-- The bits for 1, 2, 3 to 4, 5 to 8, 9 to 17 and more active rows (R85). -/
theorem readBits_eq {n : Nat} (h : 1 ≤ n) : readBits n =
    if n = 1 then 4 else if n = 2 then 5 else if n ≤ 4 then 6 else if n ≤ 8 then 7 else if n ≤ 17 then 8 else 9 := by
  split_ifs with h1 h2 h4 h8 h17
  · exact readBits_of_lt (k := 3) (by decide) (by omega) (by omega)
  · exact readBits_of_lt (k := 4) (by decide) (by omega) (by omega)
  · exact readBits_of_lt (k := 5) (by decide) (by omega) (by omega)
  · exact readBits_of_lt (k := 6) (by decide) (by omega) (by omega)
  · exact readBits_of_lt (k := 7) (by decide) (by omega) (by omega)
  · exact readBits_of_gt (by omega)

/-- RANGE lowers the LSB of more than 34 active rows alone (R85, R86). -/
theorem lsbExp_eq (n range : Nat) : lsbExp n range = if n ≤ 34 then 0 else
    (if n ≤ 68 then 1 else if n ≤ 136 then 2 else if n ≤ 272 then 3 else if n ≤ 545 then 4 else 5) - (range : Int) := by
  rw [lsbExp, lsbBase]
  by_cases h : n ≤ 34
  · rw [if_pos h, if_pos h]
  · rw [if_neg h, if_neg h, if_neg h]

end Sys2Proof.Machine

namespace Sys2Proof.Proofs
open Sys2Proof Sys2Proof.Machine

/-- Settles O21: the nearest code is within half an LSB, and cutting it off at full scale moves a clipped conversion alone. -/
theorem adcConversionRounds : Obligations.AdcConversionRounds := by
  refine ⟨?rounds, ?half, ?bits, ?lsb⟩
  case rounds =>
    intro bits e y
    have hq : 0 < 2 ^ (e + 8).toNat := Nat.two_pow_pos _
    rw [convert_eq]
    refine ⟨Nat.min_le_left .., fun hfits => ?_, fun hclip => ?_⟩
    · exact min_nearestCode_within_half hq (Nat.le_of_not_lt (of_decide_eq_false hfits))
    · exact Nat.min_eq_left (le_nearestCode hq (of_decide_eq_true hclip))
  case half =>
    intro bits e f hp hf
    rw [convert_eq, nearestCode_half hp f]
    exact Nat.min_eq_right (by omega)
  case bits =>
    intro n h1 _
    exact readBits_eq h1
  case lsb =>
    intro n range _ _
    exact lsbExp_eq n range

end Sys2Proof.Proofs
end

section
/-! SUPPORT. A pending RANGE or chain limit, and when it takes effect (R95, R390). -/

namespace Sys2Proof.Machine
open Sys2Proof

/-! ### A pending RANGE -/

/-- The RANGE `r` and the chain limit `c` are pending under the next view. -/
def State.pended (s : State) (k idx r : Nat) (c : Option Nat) : State :=
  (s.setMat k idx { s.mat k idx with range := r, pendChain := c, pendView := s.arr.view + 1, pendHeld := s.halted }).withView (s.arr.view + 1)

section Pended
variable (s : State) (k idx r v : Nat) (c : Option Nat)

theorem State.pended_mat : (s.pended k idx r c).mat k idx =
    { s.mat k idx with range := r, pendChain := c, pendView := s.arr.view + 1, pendHeld := s.halted } := s.mat_setMat k idx _

theorem State.pendRange_eq : s.pendRange k idx r c =
    if ((s.pended k idx r c).mat k idx).rangeDue && (decide (s.stp.phase = .idle) || (s.halted && !s.olderToken (s.arr.view + 1))) then
      (s.pended k idx r c).takeRange k idx (s.arr.view + 1) else s.pended k idx r c := rfl

theorem State.pended_view : (s.pended k idx r c).arr.view = s.arr.view + 1 := rfl

theorem State.takeRange_mat : (s.takeRange k idx v).mat k idx =
    { s.mat k idx with cur := (s.mat k idx).range, prev := some ((s.mat k idx).cur, v), prevChain := (s.mat k idx).chain,
                       chain := (s.mat k idx).pendChain.getD (s.mat k idx).chain, pendChain := none } :=
  (State.when_keeps (State.mat · k idx) rfl).trans (s.mat_setMat k idx _)

theorem State.takeRange_view : (s.takeRange k idx v).arr.view = s.arr.view := State.when_keeps (fun t => t.arr.view) rfl

variable {s k idx v}

/-- A RANGE that changes is shown by its event. -/
theorem State.takeRange_event (h : (s.mat k idx).range ≠ (s.mat k idx).cur) : (s.takeRange k idx v).regB (R.ARR_EVENTS k) 6 = true := by
  rw [State.takeRange, decide_eq_true h]
  exact State.regB_event_self _ _ (by decide)

variable {r c}

/-- A change stays pending while training runs, or while an earlier change is in use (R95). -/
theorem State.pendRange_waits (h : (s.stp.phase ≠ .idle ∧ s.halted = false) ∨ (s.mat k idx).prev.isSome = true) :
    s.pendRange k idx r c = s.pended k idx r c := by
  rw [State.pendRange_eq]
  refine if_neg ?_
  rcases h with ⟨hphase, hhalted⟩ | hprev
  · rw [decide_eq_false hphase, hhalted, Bool.false_and, Bool.or_false, Bool.and_false]
    decide
  · have hnone : (s.mat k idx).prev.isNone = false := Option.isNone_eq_false_iff.2 hprev
    rw [State.pended_mat, MatSt.rangeDue, hnone, Bool.and_false, Bool.false_and]
    decide

/-- It takes effect with training idle, or in HELD and HALTED with no older token in flight (R95, R390). -/
theorem State.pendRange_takes (hprev : (s.mat k idx).prev = none) (hcur : (s.mat k idx).cur ≠ r)
    (h : s.stp.phase = .idle ∨ (s.halted = true ∧ s.olderToken (s.arr.view + 1) = false)) :
    s.pendRange k idx r c = (s.pended k idx r c).takeRange k idx (s.arr.view + 1) := by
  have hdue : ((s.pended k idx r c).mat k idx).rangeDue = true := by
    rw [State.pended_mat, MatSt.rangeDue, hprev, decide_eq_true hcur.symm]
    rfl
  rw [State.pendRange_eq, hdue]
  refine if_pos ?_
  rcases h with hidle | ⟨hhalted, hold⟩
  · rw [decide_eq_true hidle]
    rfl
  · rw [hhalted, hold]
    exact Bool.or_true _

end Pended

/-- A state in which the pending RANGE `r` of a matrix has taken effect under a new view: tokens of the views before keep the RANGE
before, and training keeps its own. -/
structure State.RangeTaken (s t : State) (k idx r : Nat) : Prop where
  cur : (t.mat k idx).cur = r
  prev : (t.mat k idx).prev = some ((s.mat k idx).cur, s.arr.view + 1)
  train : (t.mat k idx).train = (s.mat k idx).train
  view : t.arr.view = s.arr.view + 1
  event : t.regB (R.ARR_EVENTS k) 6 = true

theorem State.pendRange_taken {s : State} {k idx r : Nat} {c : Option Nat} (hprev : (s.mat k idx).prev = none) (hcur : (s.mat k idx).cur ≠ r)
    (h : s.stp.phase = .idle ∨ (s.halted = true ∧ s.olderToken (s.arr.view + 1) = false)) : s.RangeTaken (s.pendRange k idx r c) k idx r := by
  have hmat := s.pended_mat k idx r c
  rw [State.pendRange_takes hprev hcur h]
  have htake := (s.pended k idx r c).takeRange_mat k idx (s.arr.view + 1)
  rw [hmat] at htake
  refine ⟨by rw [htake], by rw [htake], by rw [htake], State.takeRange_view .., State.takeRange_event ?_⟩
  rw [hmat]
  exact hcur.symm

/-- The RANGE for a token's work follows the view under which the token began. -/
theorem State.RangeTaken.rangeFor {s t : State} {k idx r : Nat} (h : s.RangeTaken t k idx r) (view : Nat) :
    (t.mat k idx).rangeFor view = if view ≤ s.arr.view then (s.mat k idx).cur else r := by
  rw [MatSt.rangeFor, h.prev, h.cur]
  exact if_congr Nat.lt_succ_iff rfl rfl

/-! ### RANGE_DATA_WRITE (R95) -/

/-- The event of a chain limit that can wrap on the arrays of the matrix (R89). -/
def State.chainNoted (s : State) (k : Nat) (e : MatEnt) (c : Nat) : State := s.when (chainRisk e c) (fun s => s.event (R.ARR_EVENTS k) 7)

theorem State.chainNoted_frame (s : State) (k : Nat) (e : MatEnt) (c : Nat) :
    (s.chainNoted k e c).arr = s.arr ∧ (s.chainNoted k e c).stp = s.stp ∧ (s.chainNoted k e c).mem = s.mem := by
  simp [State.chainNoted, State.event_frame]

section RangeDataWrite
variable {s : State} {rq : Requester} {k : Nat} {v : Word} {e : MatEnt} (hm : s.matAt k (s.regF (R.ARR_RANGE_SEL k) 10 0) = some e)
include hm

/-- In hardware mode of function 2 the values in force alone may be written. -/
theorem rangeDataWrite_hardware (hf : s.fnHost 2 = false) : rangeDataWrite rq k v s =
    if fld v 2 0 = (s.mat k (s.regF (R.ARR_RANGE_SEL k) 10 0)).range ∧ fld v 15 8 = s.chainLimit e then s
    else s.refuseWrite rq (R.ARR_RANGE_DATA k) v 1 := by
  simp only [rangeDataWrite, hm, hf]
  exact if_neg Bool.false_ne_true

variable (hf : s.fnHost 2 = true) (hr : fld v 2 0 ≤ 4) (hne : (s.mat k (s.regF (R.ARR_RANGE_SEL k) 10 0)).range ≠ fld v 2 0)
include hf hr hne

/-- In host-assisted mode another RANGE becomes pending with the chain limit as written, at least 1. -/
theorem rangeDataWrite_host : rangeDataWrite rq k v s =
    (s.chainNoted k e (max 1 (fld v 15 8))).pendRange k (s.regF (R.ARR_RANGE_SEL k) 10 0) (fld v 2 0)
      (if max 1 (fld v 15 8) = (s.mat k (s.regF (R.ARR_RANGE_SEL k) 10 0)).chain then none else some (max 1 (fld v 15 8))) := by
  have hwhen : ∀ f, s.when (decide (4 < fld v 2 0)) f = s := fun f => by rw [decide_eq_false (Nat.not_lt.2 hr)]; rfl
  simp only [rangeDataWrite, hm, hf, hwhen, if_true, Nat.min_eq_right hr]
  exact if_neg fun h => hne h.1.symm

/-- With training idle, or in HELD and HALTED with no older token, it takes effect at once for generation. -/
theorem rangeDataWrite_taken (hprev : (s.mat k (s.regF (R.ARR_RANGE_SEL k) 10 0)).prev = none)
    (hcur : (s.mat k (s.regF (R.ARR_RANGE_SEL k) 10 0)).cur ≠ fld v 2 0)
    (h : s.stp.phase = .idle ∨ (s.halted = true ∧ s.olderToken (s.arr.view + 1) = false)) :
    s.RangeTaken (rangeDataWrite rq k v s) k (s.regF (R.ARR_RANGE_SEL k) 10 0) (fld v 2 0) := by
  obtain ⟨harr, hstp, hmem⟩ := s.chainNoted_frame k e (max 1 (fld v 15 8))
  rw [rangeDataWrite_host hm hf hr hne]
  have hmat : ∀ i, (s.chainNoted k e (max 1 (fld v 15 8))).mat k i = s.mat k i := fun i => by rw [State.mat, harr, State.mat]
  obtain ⟨h1, h2, h3, h4, h5⟩ := State.pendRange_taken (s := s.chainNoted k e (max 1 (fld v 15 8))) (c :=
      if max 1 (fld v 15 8) = (s.mat k (s.regF (R.ARR_RANGE_SEL k) 10 0)).chain then none else some (max 1 (fld v 15 8)))
    (by rw [hmat, hprev]) (by rw [hmat]; exact hcur) (by rw [State.halted, State.olderToken, hstp, hmem, harr]; exact h)
  rw [hmat, harr] at h2
  rw [hmat] at h3
  rw [harr] at h4
  exact ⟨h1, h2, h3, h4, h5⟩

end RangeDataWrite

/-! ### The range tracker (R94) -/

section Tracker
variable {rclip hold : Nat} {m : MatSt}

/-- An evaluation moves RANGE by one step at most, and not above 4. -/
theorem trackerStep_le (h : m.range ≤ 4) : (trackerStep rclip hold m).1 ≤ 4 := by
  unfold trackerStep
  split_ifs <;> dsimp only <;> omega

variable (hconv : 0 < m.conv)
include hconv

theorem trackerStep_clipped (hclip : m.conv < m.clips * 2 ^ rclip) (hr : 0 < m.range) : trackerStep rclip hold m = (m.range - 1, 0) := by
  rw [trackerStep, if_neg hconv.ne', if_pos ⟨hclip, hr⟩]

variable (hclip : m.clips * 2 ^ rclip ≤ m.conv)
include hclip

theorem trackerStep_wide (hpeak : 256 ≤ m.peak) : trackerStep rclip hold m = (m.range, 0) := by
  rw [trackerStep, if_neg hconv.ne', if_neg fun h => Nat.not_lt.2 hclip h.1, if_neg fun h => Nat.not_lt.2 hpeak h.1]

theorem trackerStep_narrow (hpeak : m.peak < 256) (hr : m.range < 4) :
    trackerStep rclip hold m = if hold ≤ m.run + 1 then (m.range + 1, 0) else (m.range, m.run + 1) := by
  rw [trackerStep, if_neg hconv.ne', if_neg fun h => Nat.not_lt.2 hclip h.1, if_pos ⟨hpeak, hr⟩]

end Tracker

section Eval
variable {s : State} {k idx : Nat} {e : MatEnt} (hm : s.matAt k idx = some e)
include hm

/-- The end of a window starts the counts anew; in hardware mode of function 2 a RANGE that moves becomes pending. -/
theorem rangeTrackerEval_due (hn : 35 ≤ e.ng 0) (hd : (s.mat k idx).due = true) (hf : s.fnHost 2 = false)
    {x : Nat × Nat} (hx : trackerStep (max 1 (s.polF (R.ARR_RANGE_CTRL k) 31 24)) (max 1 (s.polF (R.ARR_RANGE_CTRL k) 23 16)) (s.mat k idx) = x)
    {u : State} (hu : s.setMat k idx { s.mat k idx with run := x.2, clips := 0, conv := 0, peak := 0, passes := 0, due := false } = u) :
    rangeTrackerEval k idx s = if x.1 = (s.mat k idx).range then u else u.pendRange k idx x.1 (s.mat k idx).pendChain := by
  subst hu hx
  simp only [rangeTrackerEval, hm, hf]
  exact if_pos ⟨hn, Or.inl hd⟩

theorem rangeTrackerEval_open (hd : (s.mat k idx).due = false) (hp : (s.mat k idx).passes < 4096) : rangeTrackerEval k idx s = s := by
  simp only [rangeTrackerEval, hm, hd]
  refine if_neg fun ⟨_, h⟩ => ?_
  rcases h with h | h
  · exact Bool.false_ne_true h
  · omega

end Eval

end Sys2Proof.Machine
end

section
/-! SUPPORT. The RANGE of training at a new-step boundary (R14, R95). -/

namespace Sys2Proof.Machine
open Sys2Proof

/-! ### What keeps the array map and the state of every matrix -/

/-- The array map and what is kept of each matrix. -/
def State.matrices (s : State) : List MatEnt × SMap MatSt := (s.arr.map, s.arr.mat)

theorem State.mat_of_matrices {s t : State} (h : t.matrices = s.matrices) (d i : Nat) : t.mat d i = s.mat d i :=
  congrArg (fun x : List MatEnt × SMap MatSt => SMap.get (fun _ => {}) x.2 (d * 2048 + i)) h

theorem State.map_of_matrices {s t : State} (h : t.matrices = s.matrices) : t.arr.map = s.arr.map := congrArg Prod.fst h

theorem State.matrices_of_arr {s t : State} (h : t.arr = s.arr) : t.matrices = s.matrices := congrArg (fun a : ArrSt => (a.map, a.mat)) h

section Matrices
variable (s : State)

@[simp] theorem State.matrices_setPos (d p : Nat) (x : PosSt) : (s.setPos d p x).matrices = s.matrices := Prod.ext rfl rfl
@[simp] theorem State.matrices_setTile (d t : Nat) (x : TileSt) : (s.setTile d t x).matrices = s.matrices := Prod.ext rfl rfl
@[simp] theorem State.matrices_setPhys (d a : Nat) (x : PhysSt) : (s.setPhys d a x).matrices = s.matrices := Prod.ext rfl rfl
@[simp] theorem State.matrices_setKao (d : Nat) (x : KaolinSt) : (s.setKao d x).matrices = s.matrices := Prod.ext rfl rfl
@[simp] theorem State.matrices_event (a i : Nat) : (s.event a i).matrices = s.matrices := State.matrices_of_arr rfl

@[simp] theorem State.matrices_withView (v : Nat) : (s.withView v).matrices = s.matrices := Prod.ext rfl rfl

@[simp] theorem State.matrices_log (blk cls bit cause detail : Nat) : (s.log blk cls bit cause detail).matrices = s.matrices :=
  State.matrices_of_arr (State.logEnt_arr ..)

@[simp] theorem State.matrices_when {c : Bool} {f : State → State} (h : ∀ t, (f t).matrices = t.matrices) : (s.when c f).matrices = s.matrices :=
  State.when_keeps State.matrices (h s)

@[simp] theorem State.matrices_keepOld (v d p : Nat) : (s.keepOld v d p).matrices = s.matrices := by
  unfold State.keepOld
  split
  · split <;> rfl
  · rfl

@[simp] theorem State.matrices_copyArea (x y d p : Nat) : (s.copyArea x y d p).matrices = s.matrices :=
  State.matrices_of_arr (by simp only [State.copyArea_frame])

@[simp] theorem State.matrices_shadowFrom (d p : Nat) (a : PhysSt) : (s.shadowFrom d p a).matrices = s.matrices :=
  State.matrices_of_arr (by simp only [State.shadowFrom_frame])

@[simp] theorem State.matrices_queueJob (d p cls : Nat) : (s.queueJob d p cls).matrices = s.matrices := by
  obtain ⟨jobs, age, heq⟩ := s.queueJob_eq d p cls
  have hnoted : ∀ t : State, (t.refreshNoted d p).matrices = t.matrices := fun t => by simp [State.refreshNoted]
  rw [heq]
  exact s.matrices_when hnoted

@[simp] theorem State.matrices_takeTargets (v d p : Nat) : (s.takeTargets v d p).matrices = s.matrices := by
  unfold State.takeTargets
  split <;> simp

@[simp] theorem State.matrices_fbFollow (v d p : Nat) : (s.fbFollow v d p).matrices = s.matrices := by
  unfold State.fbFollow
  split <;> simp

@[simp] theorem State.matrices_fbExit (v layer : Nat) : (s.fbExit v layer).matrices = s.matrices := by
  unfold State.fbExit
  exact foldl_keeps State.matrices (fun t q => by simp) _ s

@[simp] theorem State.matrices_fbEnter (v layer cause : Nat) : (s.fbEnter v layer cause).matrices = s.matrices := by
  unfold State.fbEnter
  exact foldl_keeps State.matrices (fun t q => by simp) _ s

@[simp] theorem State.matrices_swapTile (d t p v : Nat) : (s.swapTile d t p v).matrices = s.matrices := by
  unfold State.swapTile
  dsimp only
  split <;> simp

@[simp] theorem State.matrices_swapAll (v : Nat) (out : List Nat) : (s.swapAll v out).matrices = s.matrices := by
  unfold State.swapAll
  exact foldl_keeps State.matrices (fun t x => by split <;> simp) _ s

@[simp] theorem State.matrices_loadedIn (v : Nat) : (s.loadedIn v).matrices = s.matrices := by
  unfold State.loadedIn
  exact foldl_keeps State.matrices (fun t q => by dsimp only; split <;> simp) _ s

/-- Swaps, fallback entries and exits keep the matrices. -/
@[simp] theorem State.matrices_imageChanges (v : Nat) : (s.imageChanges v).matrices = s.matrices := by
  unfold State.imageChanges
  refine (foldl_keeps State.matrices (fun t l => ?_) _ _).trans ((foldl_keeps State.matrices (fun t x => by simp) _ _).trans (by simp))
  dsimp only
  split
  · simp
  · exact foldl_keeps State.matrices (fun u x => by simp) _ t

@[simp] theorem State.matrices_trimChanges (before : State) (v : Nat) : (s.trimChanges before v).matrices = s.matrices := by
  rw [State.trimChanges_eq]
  refine foldl_keeps State.matrices (fun t d => ?_) _ s
  unfold State.trimChange
  split <;> simp

@[simp] theorem State.matrices_takePolicy : s.takePolicy.matrices = s.matrices :=
  State.matrices_of_arr (by simp only [State.takePolicy_frame])

@[simp] theorem State.matrices_msRefresh : s.msRefresh.matrices = s.matrices := by
  unfold State.msRefresh
  exact foldl_keeps State.matrices (fun t q => by simp) _ s

@[simp] theorem State.matrices_retireArray (d t x : Nat) : (s.retireArray d t x).matrices = s.matrices := Prod.ext rfl rfl

@[simp] theorem State.matrices_enterNone (d t : Nat) : (s.enterNone d t).matrices = s.matrices := by simp [State.enterNone]

theorem State.matrices_releasePos (k : Nat) : (s.releasePos k).matrices = s.matrices := by
  unfold State.releasePos
  dsimp only
  split
  · split
    · rfl
    · split
      · simp
      · split <;> simp
  · rfl

theorem State.matrices_releaseBank (d : Nat) : (s.releaseBank d).matrices = s.matrices := by
  unfold State.releaseBank
  split
  · split <;> simp
  · rfl

end Matrices

/-! ### The RANGE of training and the RANGE in force -/

/-- The RANGE of training and the one in force. -/
def MatSt.ranges (m : MatSt) : Nat × Nat := (m.train, m.cur)

/-- The RANGE before is let go once no token uses it. -/
def MatSt.release (s : State) (m : MatSt) : MatSt := match m.prev with
  | some (_, v) => if s.olderToken v then m else { m with prev := none }
  | none => m

theorem MatSt.release_ranges (s : State) (m : MatSt) : (m.release s).ranges = m.ranges := by
  unfold MatSt.release
  split
  · split <;> rfl
  · rfl

theorem State.releaseRanges_mat (s : State) (d i : Nat) : (s.releaseRanges.mat d i).ranges = (s.mat d i).ranges :=
  SMap.get_map_keeps MatSt.ranges (f := MatSt.release s) (MatSt.release_ranges s) _ s.arr.mat _

theorem State.releaseViews_mat (s : State) (d i : Nat) : (s.releaseViews.mat d i).ranges = (s.mat d i).ranges := s.releaseRanges_mat d i

theorem State.releaseOld_mat (s : State) (d i : Nat) : (s.releaseOld.mat d i).ranges = (s.mat d i).ranges := by
  have hkeep : ((List.range 16).foldl State.releaseBank ((SMap.keys s.arr.pos).foldl State.releasePos s)).matrices = s.matrices := by
    rw [foldl_keeps State.matrices State.matrices_releaseBank, foldl_keeps State.matrices State.matrices_releasePos]
  rw [State.releaseOld_eq, State.releaseViews_mat, State.mat_of_matrices hkeep]

/-! ### Training takes the RANGE in force -/

theorem State.map_rangeChanges (s : State) (v : Nat) (held : Bool) : (s.rangeChanges v held).arr.map = s.arr.map := by
  unfold State.rangeChanges
  refine foldl_keeps (fun t : State => t.arr.map) (fun t e => ?_) _ _
  dsimp only
  split
  · exact State.when_keeps (fun t => t.arr.map) rfl
  · rfl

/-- Training takes the RANGE and chain limit of one matrix. -/
def State.trainRange (s : State) (e : MatEnt) : State :=
  s.setMat e.die e.idx { s.mat e.die e.idx with train := (s.mat e.die e.idx).cur, trainChain := (s.mat e.die e.idx).chain }

/-- Training runs with the RANGE in force of a matrix. -/
def State.Trained (s : State) (d i : Nat) : Prop := (s.mat d i).train = (s.mat d i).cur

theorem State.Trained.of_ranges {s t : State} {d i : Nat} (h : s.Trained d i) (hr : (t.mat d i).ranges = (s.mat d i).ranges) : t.Trained d i := by
  simp only [MatSt.ranges, Prod.mk.injEq] at hr
  rw [State.Trained, hr.1, hr.2]
  exact h

theorem State.trainRange_trained (s : State) (e : MatEnt) : (s.trainRange e).Trained e.die e.idx := by
  rw [State.Trained, State.trainRange, State.mat_setMat]

/-- Another matrix of the map does not undo it. -/
theorem State.Trained.trainRange {s : State} {d i : Nat} (h : s.Trained d i) (e : MatEnt) : (s.trainRange e).Trained d i := by
  by_cases hk : d * 2048 + i = e.die * 2048 + e.idx
  · have hkey : ∀ t : State, t.mat d i = t.mat e.die e.idx := fun t => congrArg (SMap.get (fun _ => ({} : MatSt)) t.arr.mat) hk
    rw [State.Trained, hkey]
    exact s.trainRange_trained e
  · exact h.of_ranges (congrArg MatSt.ranges (SMap.get_set_ne hk))

theorem State.trainRanges_trained (s : State) {e : MatEnt} (he : e ∈ s.arr.map) : s.trainRanges.Trained e.die e.idx := by
  have hkeep : ∀ (l : List MatEnt) (t : State), t.Trained e.die e.idx → (l.foldl State.trainRange t).Trained e.die e.idx := fun l => by
    induction l with
    | nil => exact fun _ h => h
    | cons x l ih => exact fun t h => ih _ (h.trainRange x)
  obtain ⟨l, r, hlr⟩ := List.append_of_mem he
  show (s.arr.map.foldl State.trainRange s).Trained e.die e.idx
  rw [hlr, List.foldl_append, List.foldl_cons]
  exact hkeep r _ (State.trainRange_trained _ e)

theorem State.policyTaken_trained (s : State) {e : MatEnt} (he : e ∈ s.arr.map) : s.policyTaken.Trained e.die e.idx := by
  have harrays : s.arraysTaken.takePolicy.msRefresh.matrices = s.matrices := by simp [State.arraysTaken]
  unfold State.policyTaken
  refine State.trainRanges_trained _ ?_
  rw [State.map_rangeChanges, State.map_of_matrices harrays]
  exact he

/-- A new-step boundary makes the RANGE in force that of training (R95). -/
theorem State.newStep_trained (s : State) (n : Nat) {e : MatEnt} (he : e ∈ s.arr.map) : (s.newStep n).Trained e.die e.idx := by
  have harr : ((s.choicesTaken n).imageSeq s).arr = s.policyTaken.arr := by simp only [State.imageSeq_frame, State.choicesTaken_frame]
  have hview := (State.matrices_withView ((s.choicesTaken n).imageSeq s) (s.arr.view + 1)).trans (State.matrices_of_arr harr)
  refine (s.policyTaken_trained he).of_ranges ?_
  rw [State.newStep_eq, State.releaseOld_mat, State.mat_of_matrices hview]

end Sys2Proof.Machine
end

section
/-! SUPPORT. The clip counters of the column groups (R87). -/

namespace Sys2Proof.Machine
open Sys2Proof

/-- An array without its column-group counts; none where nothing else is kept of it. -/
def clearClips (k : Nat) (p : Nat × PhysSt) : Option (Nat × PhysSt) :=
  if p.1 / 1632 = k then (let x := { p.2 with clipg := [] }; if x = {} then none else some (p.1, x)) else some p

/-- After the clearing of a die, no array of it has counts. -/
theorem SMap.get_filterMap_clearClips (m : SMap PhysSt) {k i : Nat} (hi : i / 1632 = k) :
    (SMap.get (fun _ => {}) (m.filterMap (clearClips k)) i).clipg = [] := by
  induction m with
  | nil => rfl
  | cons p m ih =>
    obtain ⟨j, x⟩ := p
    by_cases hji : j = i
    · subst hji
      by_cases hx : ({ x with clipg := [] } : PhysSt) = {}
      · have hclear : clearClips k (j, x) = none := by rw [clearClips, if_pos hi]; exact if_pos hx
        rwa [List.filterMap_cons_none hclear]
      · have hclear : clearClips k (j, x) = some (j, { x with clipg := [] }) := by rw [clearClips, if_pos hi]; exact if_neg hx
        rw [List.filterMap_cons_some hclear, SMap.get, if_pos rfl]
    · cases hclear : clearClips k (j, x) with
      | none => rwa [List.filterMap_cons_none hclear]
      | some q =>
        have hq : q.1 = j := by
          unfold clearClips at hclear
          dsimp only at hclear
          split_ifs at hclear <;> cases hclear <;> rfl
        obtain ⟨j', y⟩ := q
        rw [List.filterMap_cons_some hclear, SMap.get, if_neg (fun h => hji (hq.symm.trans h))]
        exact ih

section ClipgClr
variable {k : Nat} {v : Word} (s : State)

theorem clipgClr_write (h : bitOf v 1 = false) : clipgClr k v s = s.setReg (R.ARR_CTRL k) (v &&& 0x3F01#32) := by
  simp only [clipgClr, h]
  exact if_neg Bool.false_ne_true

theorem clipgClr_clear (h : bitOf v 1 = true) : clipgClr k v s =
    (s.setReg (R.ARR_CTRL k) (v &&& 0x3F01#32)).modArr (fun a => { a with phys := a.phys.filterMap (clearClips k) }) := by
  rw [clipgClr, h]
  exact if_pos rfl

/-- A write with the bit set clears the counters of every array of the die. -/
theorem clipgClr_clipg (h : bitOf v 1 = true) {a : Nat} (ha : a < 1632) : ((clipgClr k v s).phys k a).clipg = [] := by
  rw [clipgClr_clear s h]
  exact SMap.get_filterMap_clearClips s.arr.phys (by omega)

theorem clipgClr_ctrl : (clipgClr k v s).reg (R.ARR_CTRL k) = v &&& 0x3F01#32 := by
  have hctrl : (s.setReg (R.ARR_CTRL k) (v &&& 0x3F01#32)).reg (R.ARR_CTRL k) = v &&& 0x3F01#32 := by rw [State.reg_setReg, if_pos rfl]
  cases h : bitOf v 1 with
  | false => rw [clipgClr_write s h, hctrl]
  | true => rw [clipgClr_clear s h]; exact hctrl

end ClipgClr

theorem clipgDataRead_eq {s : State} {rq : Requester} {k : Nat} (h : s.regF (R.ARR_CLIPG_SEL k) 10 0 < 1632) : clipgDataRead rq k s =
    (s.emit (.reply rq (R.ARR_CLIPG_DATA k) (BitVec.ofNat 32 (SMap.get (fun _ => 0) (s.phys k (s.regF (R.ARR_CLIPG_SEL k) 10 0)).clipg
      (s.regF (R.ARR_CLIPG_SEL k) 22 16))))).setPhys k (s.regF (R.ARR_CLIPG_SEL k) 10 0)
      { s.phys k (s.regF (R.ARR_CLIPG_SEL k) 10 0) with
        clipg := SMap.set (fun _ => 0) (s.phys k (s.regF (R.ARR_CLIPG_SEL k) 10 0)).clipg (s.regF (R.ARR_CLIPG_SEL k) 22 16) 0 } := by
  simp only [clipgDataRead, State.clipgData, h, if_true]

end Sys2Proof.Machine

namespace Sys2Proof.Proofs
open Sys2Proof Sys2Proof.Machine

/-- Settles O23: a pending RANGE takes effect or waits, training takes the RANGE in force at a new-step boundary, and the counters read and clear. -/
theorem rangesAndArrayCounters : Obligations.RangesAndArrayCounters := by
  refine ⟨?ends, ?tracker, ?within, ?hardware, ?waits, ?idle, ?halted, ?training, ?governor, ?control, ?clear, ?clipRead⟩
  case ends =>
    intro s k idx e hm hn hd hf
    exact ⟨_, rfl, congrArg Host.Outcome.next (rangeTrackerEval_due hm hn hd hf rfl rfl)⟩
  case tracker =>
    intro rclip hold m hr
    refine ⟨trackerStep_le hr, fun hconv hclip hpos => ?_, fun hconv hclip hpeak => ?_, fun hconv hclip hpeak hlt => ?_⟩
    · rw [trackerStep_clipped hconv hclip hpos]
    · rw [trackerStep_wide hconv hclip hpeak]
    · rw [trackerStep_narrow hconv hclip hpeak hlt, apply_ite Prod.fst]
  case within =>
    intro s k idx e hm hd hp
    exact congrArg Host.Outcome.next (rangeTrackerEval_open hm hd hp)
  case hardware =>
    intro s k rq v e hm hf
    exact congrArg Host.Outcome.next (rangeDataWrite_hardware hm hf)
  case waits =>
    intro s k rq v e hm hf hr hwait hne
    obtain ⟨harr, hstp, hmem⟩ := s.chainNoted_frame k e (max 1 (fld v 15 8))
    have hmat : (s.chainNoted k e (max 1 (fld v 15 8))).mat k (s.regF (R.ARR_RANGE_SEL k) 10 0) = s.mat k (s.regF (R.ARR_RANGE_SEL k) 10 0) := by
      rw [State.mat, harr, State.mat]
    have hpend := State.pendRange_waits (s := s.chainNoted k e (max 1 (fld v 15 8))) (r := fld v 2 0)
      (c := if max 1 (fld v 15 8) = (s.mat k (s.regF (R.ARR_RANGE_SEL k) 10 0)).chain then none else some (max 1 (fld v 15 8)))
      (by rw [hmat, State.halted, hstp]; exact hwait)
    refine ⟨_, congrArg Host.Outcome.next ((rangeDataWrite_host hm hf hr hne).trans hpend), ?_⟩
    rw [State.pended_mat, State.pended_view, hmat, harr]
    exact ⟨rfl, rfl, rfl, rfl, rfl, rfl, hmem⟩
  case idle =>
    intro s k rq v e hm hf hr hidle hprev hne hcur
    have htaken := rangeDataWrite_taken (rq := rq) hm hf hr hne hprev hcur (.inl hidle)
    refine ⟨_, rfl, fun view hview => ?_, ?_, htaken.view, htaken.event, by simp only [rangeDataWrite_frame]⟩
    · rw [htaken.rangeFor, if_pos hview]
    · rw [htaken.rangeFor]
      exact if_neg (Nat.not_le.2 (htaken.view ▸ Nat.lt_succ_self _))
  case halted =>
    intro s k rq v e hm hf hr hhalted hprev hne hcur hctx
    have hold : s.olderToken (s.arr.view + 1) = false := by rw [State.olderToken, hctx, List.any_nil]
    have htaken := rangeDataWrite_taken (rq := rq) hm hf hr hne hprev hcur (.inr ⟨hhalted, hold⟩)
    exact ⟨_, rfl, htaken.cur, htaken.train, htaken.event, by simp only [rangeDataWrite_frame]⟩
  case training =>
    intro s n e he
    exact ⟨_, rfl, s.newStep_trained n he⟩
  case governor =>
    intro s k rq
    rfl
  case control =>
    intro s k v h
    exact congrArg Host.Outcome.next (clipgClr_write s h)
  case clear =>
    intro s k v a g h ha
    refine ⟨_, rfl, ?_, clipgClr_ctrl s, by simp only [clipgClr_frame]⟩
    exact congrArg (fun m => SMap.get (fun _ => 0) m g) (clipgClr_clipg s h ha)
  case clipRead =>
    intro s k rq h
    exact ⟨_, rfl, congrArg Host.Outcome.next (clipgDataRead_eq h)⟩

end Sys2Proof.Proofs
end

section
/-! SUPPORT. Which array a calibration read takes, and the commands of calibration reads (R106 to R108). -/

namespace Sys2Proof.Machine
open Sys2Proof

/-! ### The order of calibration reads (R107, R108) -/

/-- Array `a` goes before array `b`: its last read is older, or as old with `a` not the higher number. -/
def State.readsBefore (s : State) (k a b : Nat) : Prop :=
  (s.phys k a).lastRead < (s.phys k b).lastRead ∨ ((s.phys k a).lastRead = (s.phys k b).lastRead ∧ a ≤ b)

section Order
variable {s : State} {k a b c : Nat} {l : List Nat}

theorem State.readsBefore.refl (s : State) (k a : Nat) : s.readsBefore k a a := .inr ⟨rfl, Nat.le_refl a⟩

theorem State.readsBefore.trans (h : s.readsBefore k a b) (h' : s.readsBefore k b c) : s.readsBefore k a c := by
  unfold State.readsBefore at *
  omega

/-- The earlier of two arrays. -/
def State.earlierRead (s : State) (k : Nat) (x a : Nat) : Nat :=
  if (s.phys k a).lastRead < (s.phys k x).lastRead ∨ ((s.phys k a).lastRead = (s.phys k x).lastRead ∧ a < x) then a else x

theorem State.earlierRead_before (s : State) (k x a : Nat) :
    s.readsBefore k (s.earlierRead k x a) x ∧ s.readsBefore k (s.earlierRead k x a) a := by
  unfold State.earlierRead State.readsBefore
  split <;> omega

theorem State.oldestRead_cons (s : State) (k x : Nat) (l : List Nat) :
    s.oldestRead k (x :: l) = some (l.foldl (s.earlierRead k) x) := by
  have hfold : ∀ (l : List Nat) (x : Nat), l.foldl (fun b a => match b with
      | none => some a
      | some x =>
        if (s.phys k a).lastRead < (s.phys k x).lastRead ∨ ((s.phys k a).lastRead = (s.phys k x).lastRead ∧ a < x) then some a else some x)
      (some x) = some (l.foldl (s.earlierRead k) x) := by
    intro l
    induction l with
    | nil => exact fun _ => rfl
    | cons a l ih =>
      intro x
      rw [List.foldl_cons, List.foldl_cons, ← ih, State.earlierRead]
      dsimp only
      rw [apply_ite some]
  exact hfold l x

theorem State.foldl_earlierRead (s : State) (k x : Nat) (l : List Nat) :
    l.foldl (s.earlierRead k) x ∈ x :: l ∧ ∀ b ∈ x :: l, s.readsBefore k (l.foldl (s.earlierRead k) x) b := by
  induction l generalizing x with
  | nil => simp [State.readsBefore.refl]
  | cons a l ih =>
    obtain ⟨hmem, hle⟩ := ih (s.earlierRead k x a)
    obtain ⟨hx, ha⟩ := s.earlierRead_before k x a
    have hfirst := hle _ List.mem_cons_self
    rw [List.foldl_cons]
    refine ⟨?_, fun b hb => ?_⟩
    · rcases List.mem_cons.1 hmem with h | h
      · rw [h, State.earlierRead]
        split <;> simp
      · exact List.mem_cons_of_mem _ (List.mem_cons_of_mem _ h)
    · rcases List.mem_cons.1 hb with rfl | hb
      · exact hfirst.trans hx
      · rcases List.mem_cons.1 hb with rfl | hb
        · exact hfirst.trans ha
        · exact hle b (List.mem_cons_of_mem _ hb)

theorem State.oldestRead_eq_none (h : s.oldestRead k l = none) : l = [] := by
  cases l with
  | nil => rfl
  | cons x l => rw [State.oldestRead_cons] at h; cases h

/-- The oldest read of a list is in it and goes before every array of it. -/
theorem State.oldestRead_spec (h : s.oldestRead k l = some a) : a ∈ l ∧ ∀ b ∈ l, s.readsBefore k a b := by
  cases l with
  | nil => cases h
  | cons x l =>
    rw [State.oldestRead_cons] at h
    cases h
    exact s.foldl_earlierRead k x l

end Order

/-! ### The next array of a calibration read -/

section CalNext
variable {s : State} {k a b : Nat}

/-- What R107 asks of an array that is not forced. -/
theorem State.monitorMay_spec (h : s.monitorMay k a = true) :
    (s.phys k a).use = .idle ∧ (∀ q ∈ s.admitWindow k, a ∉ s.reqArrays k q) ∧ s.activeSlots k < s.effCap k ∧ s.capWait k = false ∧
      s.calRunning k < s.calPar k := by
  simp only [State.monitorMay, State.capRoom, Bool.and_eq_true, decide_eq_true_eq, Bool.not_eq_true', List.any_eq_false,
    List.contains_iff_mem] at h
  obtain ⟨⟨⟨⟨hidle, hfree⟩, hroom⟩, hwait⟩, hpar⟩ := h
  exact ⟨hidle, hfree, by omega, hwait, hpar⟩

/-- Where a forced array is idle, the next array is the oldest of those and has a slot. -/
theorem State.calNext_forced (h : s.calNext k = some a) (hb : b ∈ s.activeArrays k) (hf : (s.phys k b).forced = true)
    (hi : (s.phys k b).use = .idle) :
    a ∈ s.activeArrays k ∧ (s.phys k a).forced = true ∧ (s.phys k a).use = .idle ∧ s.activeSlots k < s.effCap k ∧ s.readsBefore k a b := by
  have hbl : b ∈ (s.activeArrays k).filter (fun a => (s.phys k a).forced && decide ((s.phys k a).use = .idle)) := by
    simp [hb, hf, hi]
  unfold State.calNext at h
  dsimp only at h
  split at h
  · next x hx =>
    obtain ⟨hmem, hle⟩ := State.oldestRead_spec hx
    split at h
    · next hslot =>
      cases h
      simp only [List.mem_filter, Bool.and_eq_true, decide_eq_true_eq] at hmem
      obtain ⟨hact, hforced, hidle⟩ := hmem
      exact ⟨hact, hforced, hidle, hslot, hle b hbl⟩
    · cases h
  · next hx =>
    rw [State.oldestRead_eq_none hx] at hbl
    cases hbl

/-- Where no forced array is idle, the next array is the oldest of those that R107 allows. -/
theorem State.calNext_allowed (h : s.calNext k = some a) (hn : ∀ b ∈ s.activeArrays k, (s.phys k b).forced = true → (s.phys k b).use ≠ .idle) :
    a ∈ s.activeArrays k ∧ s.monitorMay k a = true ∧ ∀ b ∈ s.activeArrays k, s.monitorMay k b = true → s.readsBefore k a b := by
  have hnone : (s.activeArrays k).filter (fun a => (s.phys k a).forced && decide ((s.phys k a).use = .idle)) = [] := by
    simpa [List.filter_eq_nil_iff] using hn
  unfold State.calNext at h
  dsimp only at h
  rw [hnone] at h
  obtain ⟨hmem, hle⟩ := State.oldestRead_spec h
  rw [List.mem_filter] at hmem
  exact ⟨hmem.1, hmem.2, fun b hb hmay => hle b (List.mem_filter.2 ⟨hb, hmay⟩)⟩

/-- The next array is active and idle; a forced one needs a free slot, another one all that R107 asks. -/
theorem State.calNext_spec (h : s.calNext k = some a) :
    a ∈ s.activeArrays k ∧ (s.phys k a).use = .idle ∧ ((s.phys k a).forced = false → s.monitorMay k a = true) ∧
      ((s.phys k a).forced = true → s.activeSlots k < s.effCap k) := by
  by_cases hn : ∀ b ∈ s.activeArrays k, (s.phys k b).forced = true → (s.phys k b).use ≠ .idle
  · obtain ⟨hact, hmay, -⟩ := State.calNext_allowed h hn
    obtain ⟨hidle, -⟩ := State.monitorMay_spec hmay
    exact ⟨hact, hidle, fun _ => hmay, fun hf => absurd hidle (hn a hact hf)⟩
  · push Not at hn
    obtain ⟨b, hb, hf, hi⟩ := hn
    obtain ⟨hact, hforced, hidle, hslot, -⟩ := State.calNext_forced h hb hf hi
    exact ⟨hact, hidle, fun hfalse => absurd hforced (Bool.eq_false_iff.1 hfalse), fun _ => hslot⟩

end CalNext

/-! ### The commands -/

section Commands
variable {s : State} {k a : Nat}

theorem calReadStart_some (he : s.regB (R.ARR_DRIFT_CTRL k) 0 = true) (h : s.calNext k = some a) : calReadStart k s =
    (s.setPhys k a { s.phys k a with use := .calibration, forced := false, lastRead := s.time }).notePeak k := by
  simp only [calReadStart, he, h, if_true]

theorem calReadStart_none (h : s.regB (R.ARR_DRIFT_CTRL k) 0 = false ∨ s.calNext k = none) : calReadStart k s = s := by
  unfold calReadStart
  rcases h with h | h
  · rw [h]
    rfl
  · rw [h]
    exact ite_self s

theorem forcedRead_marks (hn : s.polF (R.ARR_DRIFT_CFG k) 15 0 ≠ 0) (he : s.regB (R.ARR_DRIFT_CTRL k) 0 = true)
    (ha : (s.activeArrays k).contains a = true) (hu : (s.phys k a).use ≠ .calibration) (hf : (s.phys k a).forced = false) :
    forcedRead k a s = (s.setPhys k a { s.phys k a with forced := true }).event (R.ARR_DRIFT_EVENTS k) 8 := by
  simp only [forcedRead, hn, he, ha, hu, hf, ne_eq, not_false_eq_true, decide_true, Bool.and_self, Bool.not_false, if_true]

theorem forcedRead_none (h : s.polF (R.ARR_DRIFT_CFG k) 15 0 = 0 ∨ (s.activeArrays k).contains a = false) : forcedRead k a s = s := by
  unfold forcedRead
  rcases h with h | h
  · rw [decide_eq_false (not_not.2 h)]
    rfl
  · rw [h, Bool.and_false]
    rfl

end Commands
end Sys2Proof.Machine

namespace Sys2Proof.Proofs
open Sys2Proof Sys2Proof.Machine

/-- Settles O24: the fold over the arrays finds the one whose last read is oldest, forced idle arrays first; the commands take the branch
their conditions name. -/
theorem calibrationReads : Obligations.CalibrationReads := by
  refine ⟨?next, ?forced, ?allowed, ?may, ?starts, ?waits, ?completes, ?notReading, ?marks, ?off, ?starved, ?unmapped⟩
  case next =>
    intro s k a h
    exact State.calNext_spec h
  case forced =>
    intro s k a b h hb hf hi
    obtain ⟨-, hforced, -, -, hbefore⟩ := State.calNext_forced h hb hf hi
    exact ⟨hforced, hbefore⟩
  case allowed =>
    intro s k a b h hfalse hb hmay
    refine (State.calNext_allowed h fun c hc hf hi => ?_).2.2 b hb hmay
    obtain ⟨-, hforced, -⟩ := State.calNext_forced h hc hf hi
    exact absurd hforced (Bool.eq_false_iff.1 hfalse)
  case may =>
    intro s k a h
    exact State.monitorMay_spec h
  case starts =>
    intro s k a he h
    exact congrArg Host.Outcome.next (calReadStart_some he h)
  case waits =>
    intro s k h
    exact congrArg Host.Outcome.next (calReadStart_none h)
  case completes =>
    intro s k a codes t h
    exact congrArg Host.Outcome.next (if_pos h)
  case notReading =>
    intro s k a codes t h
    exact congrArg Host.Outcome.next (if_neg h)
  case marks =>
    intro s k a hn he ha hu hf
    exact congrArg Host.Outcome.next (forcedRead_marks hn he ha hu hf)
  case off =>
    intro s k a h
    exact congrArg Host.Outcome.next (forcedRead_none h)
  case starved =>
    intro s k a h
    exact congrArg Host.Outcome.next (if_pos h)
  case unmapped =>
    intro s k a h
    exact congrArg Host.Outcome.next (if_neg (Bool.eq_false_iff.1 h))

end Sys2Proof.Proofs
end

section
/-! SUPPORT. The fit at the end of a calibration window, and the publication of a trim set (R109, R111, R112). -/

namespace Sys2Proof.Machine
open Sys2Proof

section Fit
variable (x : PhysSt)

/-- The history of fits is cut off at the last 8. -/
theorem PhysSt.fitNow_hist (h : x.hist.length ≤ 8) : x.fitNow.hist.length ≤ 8 := by
  simp only [PhysSt.fitNow, List.length_drop, List.length_append, List.length_singleton]
  omega

end Fit

section Publish
variable {s : State} {k : Nat} {rq : Requester} {pos : Nat}

theorem trimPublication_due (he : s.regB (R.ARR_DRIFT_CTRL k) 0 = true) (hf : s.fnHost 6 = false) (hh : (s.kao k).held = none)
    (hd : s.publishDue k = true) : trimPublication k s = s.publish k := by
  simp only [trimPublication, he, hf, hh, hd, Bool.not_false, Option.isNone_none, Bool.and_self, if_true]

theorem trimPublication_none (h : s.regB (R.ARR_DRIFT_CTRL k) 0 = false ∨ s.fnHost 6 = true ∨ (s.kao k).held ≠ none) :
    trimPublication k s = s := by
  refine if_neg ?_
  simp only [Bool.and_eq_true, Bool.not_eq_true', Option.isNone_iff_eq_none]
  rintro ⟨⟨⟨he, hf⟩, hh⟩, -⟩
  rcases h with h | h | h
  · exact absurd he (Bool.eq_false_iff.1 h)
  · exact absurd h (Bool.eq_false_iff.1 hf)
  · exact h hh

theorem publishCmd_host (hf : s.fnHost 6 = true) :
    publishCmd rq k pos s = if s.regB (R.ARR_DRIFT_CTRL k) 0 && ((s.kao k).held).isNone then s.publish k else s := by
  rw [publishCmd, hf]
  exact if_pos rfl

theorem publishCmd_hardware (hf : s.fnHost 6 = false) : publishCmd rq k pos s = s.refuseProg rq k 2 pos 1 := by
  rw [publishCmd, hf]
  exact if_neg Bool.false_ne_true

theorem KaolinSt.setOther_banks (x : KaolinSt) (b : SMap TrimEnt) :
    (x.setOther b).bankInForce = x.bankInForce ∧ (x.setOther b).otherBank = b := by
  unfold KaolinSt.setOther KaolinSt.bankInForce KaolinSt.otherBank
  cases x.bankSel <;> simp

theorem State.publish_kao (s : State) (d : Nat) : (s.publish d).kao d = { (s.kao d).setOther (s.trimSet d) with published := true } :=
  s.kao_setKao d _

end Publish
end Sys2Proof.Machine

namespace Sys2Proof.Proofs
open Sys2Proof Sys2Proof.Machine

/-- Settles O25: each command takes the branch its conditions name; a published set is written into the bank not in force. -/
theorem fitsAndTrimPublication : Obligations.FitsAndTrimPublication := by
  refine ⟨?fits, ?collects, ?fit, ?due, ?notDue, ?host, ?hardware, ?held, ?published⟩
  case fits =>
    intro s k a h
    exact congrArg Host.Outcome.next (if_pos h)
  case collects =>
    intro s k a h
    exact congrArg Host.Outcome.next (if_neg (Nat.not_le.2 h))
  case fit =>
    intro x h
    exact ⟨rfl, rfl, x.fitNow_hist h, rfl, rfl, rfl⟩
  case due =>
    intro s k he hf hh hd
    exact congrArg Host.Outcome.next (trimPublication_due he hf hh hd)
  case notDue =>
    intro s k h
    exact congrArg Host.Outcome.next (trimPublication_none h)
  case host =>
    intro s k rq pos hf he hh
    refine congrArg Host.Outcome.next ((publishCmd_host hf).trans ?_)
    rw [he, hh]
    rfl
  case hardware =>
    intro s k rq pos hf
    exact congrArg Host.Outcome.next (publishCmd_hardware hf)
  case held =>
    intro s k rq pos v hf hh
    refine congrArg Host.Outcome.next ((publishCmd_host hf).trans ?_)
    rw [hh, Option.isNone_some, Bool.and_false]
    rfl
  case published =>
    intro s d
    obtain ⟨hforce, hother⟩ := (s.kao d).setOther_banks (s.trimSet d)
    rw [State.publish_kao]
    exact ⟨rfl, hforce, hother⟩

end Sys2Proof.Proofs
end

section
/-! SUPPORT. The programming jobs of a die, and what queues one (R113, R114, R129, R132). -/

namespace Sys2Proof.Machine
open Sys2Proof

/-! ### Queueing a job -/

/-- The triggers of a refresh: the error estimate or REFRESH, and the age (classes 3 and 4). -/
def refreshClass (cls : Nat) : Bool := decide (cls = 3) || decide (cls = 4)

/-- The class of a job that a trigger queues; of a position in digital fallback it is 1. -/
def State.jobClass (s : State) (d p cls : Nat) : Nat := if (s.pos d p).fb then 1 else cls

/-- A queued job takes over a later trigger. -/
def Job.absorb (x : Job) (cls : Nat) (refresh shadow : Bool) : Job :=
  { x with cls := min x.cls cls, refresh := x.refresh || refresh, fromShadow := x.fromShadow && shadow }

/-- The job list of a die once a trigger of a position is queued. -/
def State.jobsWith (s : State) (d p cls : Nat) : List Job :=
  match (s.kao d).jobs.find? (fun j => j.pos == p) with
  | some j => (s.kao d).jobs.map (fun x => if x = j then x.absorb (s.jobClass d p cls) (refreshClass cls) (s.fromShadow d p) else x)
  | none => (s.kao d).jobs ++ [{ pos := p, cls := s.jobClass d p cls, age := s.arr.jobAge, refresh := refreshClass cls, fromShadow := s.fromShadow d p }]

/-- The job serves a trigger of its position: it is in its class or a lower one, and a refresh where the trigger was one. -/
def Job.serves (j : Job) (p bound : Nat) (refresh : Bool) : Prop := j.pos = p ∧ j.cls ≤ bound ∧ (refresh = true → j.refresh = true)

section Queue
variable (s : State) (d p cls : Nat)

/-- A trigger notes a refresh, and the die's jobs take it. -/
theorem State.queueJob_kao : (s.queueJob d p cls).kao d = { s.kao d with jobs := s.jobsWith d p cls } := by
  have hage : (s.when (refreshClass cls) (fun s => s.refreshNoted d p)).arr.jobAge = s.arr.jobAge :=
    State.when_keeps (fun t => t.arr.jobAge) ((State.when_keeps (fun t => t.arr.jobAge) rfl).trans (State.when_keeps (fun t => t.arr.jobAge) rfl))
  unfold State.queueJob State.jobsWith
  cases h : (s.kao d).jobs.find? (fun j => j.pos == p) with
  | some j =>
    simp only [h]
    exact State.kao_setKao ..
  | none =>
    simp only [h]
    rw [← hage]
    exact State.kao_setKao ..

/-- What the notes of a refresh, the job list and the age of jobs keep, queueing a job keeps. -/
theorem State.queueJob_keeps {β : Type} (g : State → β) (hnote : g (s.refreshNoted d p) = g s) (hkao : ∀ t x, g (State.setKao t d x) = g t)
    (hage : ∀ t (n : Nat → Nat), g (State.modArr t (fun a => { a with jobAge := n a.jobAge })) = g t) : g (s.queueJob d p cls) = g s := by
  obtain ⟨jobs, age, heq⟩ := s.queueJob_eq d p cls
  rw [heq, hage, hkao]
  exact State.when_keeps g hnote

theorem State.queueJob_phys : (s.queueJob d p cls).arr.phys = s.arr.phys :=
  s.queueJob_keeps d p cls (fun t => t.arr.phys)
    ((State.when_keeps (fun t => t.arr.phys) rfl).trans (State.when_keeps (fun t => t.arr.phys) rfl)) (fun _ _ => rfl) (fun _ _ => rfl)

/-- After a trigger its position has a job that serves it. -/
theorem State.jobsWith_serves : ∃ j ∈ s.jobsWith d p cls, j.serves p (s.jobClass d p cls) (refreshClass cls) := by
  unfold State.jobsWith
  split
  · next j hj =>
    have hpos : j.pos = p := by simpa using List.find?_some hj
    refine ⟨_, List.mem_map_of_mem (List.mem_of_find?_eq_some hj), ?_⟩
    rw [if_pos rfl]
    exact ⟨hpos, Nat.min_le_right .., fun h => by rw [Job.absorb, h, Bool.or_true]⟩
  · exact ⟨_, List.mem_append_right _ (List.mem_singleton_self _), rfl, Nat.le_refl _, id⟩

/-- A trigger adds a job only where its position has none. -/
theorem State.length_jobsWith : (s.jobsWith d p cls).length =
    if (s.kao d).jobs.any (fun j => decide (j.pos = p)) then (s.kao d).jobs.length else (s.kao d).jobs.length + 1 := by
  unfold State.jobsWith
  split
  · next j hj =>
    have hany : (s.kao d).jobs.any (fun j => decide (j.pos = p)) = true :=
      List.any_eq_true.2 ⟨j, List.mem_of_find?_eq_some hj, by simpa using List.find?_some hj⟩
    rw [hany, List.length_map]
    rfl
  · next hnone =>
    have hany : (s.kao d).jobs.any (fun j => decide (j.pos = p)) = false := by
      simpa [List.find?_eq_none] using hnone
    rw [hany, List.length_append]
    rfl

end Queue

/-! ### The commands of ARR_PROG_CMD -/

section Commands
variable {s : State} {rq : Requester} {k pos : Nat}

/-- A position that no matrix has is refused by every command, and the age trigger passes it by. -/
theorem progCmd_unmapped (h : s.posMat k pos = none) : refreshCmd rq k pos s = s.refuseProg rq k 1 pos 0 ∧
    loadCmd rq k pos s = s.refuseProg rq k 3 pos 0 ∧ readbackCmd rq k pos s = s.refuseProg rq k 4 pos 0 ∧ refreshAgeExpiry k pos s = s := by
  simp [refreshCmd, loadCmd, readbackCmd, refreshAgeExpiry, h]

theorem loadCmd_mapped (h : (s.posMat k pos).isSome = true) : loadCmd rq k pos s =
    if (s.pos k pos).unconf && (s.pos k pos).waitHost then (s.queueJob k pos 1).markLoad k pos else s.refuseProg rq k 3 pos 1 :=
  if_neg (by rw [Option.isNone_eq_false_iff.2 h]; exact Bool.false_ne_true)

theorem readbackCmd_mapped (h : (s.posMat k pos).isSome = true) :
    readbackCmd rq k pos s = s.setPos k pos { s.pos k pos with readback := 1040 } :=
  if_neg (by rw [Option.isNone_eq_false_iff.2 h]; exact Bool.false_ne_true)

end Commands

/-! ### A readback segment (R127, R129) -/

/-- The bytes of the next 8 rows of an array: its levels, or the conversions given for them, to the nearest quarter level. -/
def State.segmentBytes (s : State) (k pos a : Nat) (lv : List (Nat × Nat)) : List Byte :=
  (List.range 8192).map (fun i =>
    byteOf (nearQuarter ((SMap.find lv i).getD (32 * (s.phys k a).rowLevel (1040 - (s.pos k pos).readback + i / 1024) (i % 1024)))))

/-- An array is read and is idle again. -/
def State.arrayRead (s : State) (k a : Nat) : State :=
  let t := (s.setPhys k a { s.phys k a with use := .readback }).notePeak k
  t.setPhys k a { t.phys k a with use := .idle }

theorem State.arrayRead_phys (s : State) (k a : Nat) : (s.arrayRead k a).phys k a = { s.phys k a with use := .idle } := by
  have hread : ((s.setPhys k a { s.phys k a with use := .readback }).notePeak k).phys k a = { s.phys k a with use := .readback } :=
    s.phys_setPhys k a _
  rw [State.arrayRead, State.phys_setPhys, hread]

theorem State.segmentBytes_getD (s : State) (k pos a : Nat) (lv : List (Nat × Nat)) {i : Nat} (h : i < 8192) :
    (s.segmentBytes k pos a lv).getD i 0 =
      byteOf (nearQuarter ((SMap.find lv i).getD (32 * (s.phys k a).rowLevel (1040 - (s.pos k pos).readback + i / 1024) (i % 1024)))) := by
  rw [State.segmentBytes, List.getD_eq_getElem?_getD, List.getElem?_map, List.getElem?_range h]
  rfl

theorem State.length_segmentBytes (s : State) (k pos a : Nat) (lv : List (Nat × Nat)) : (s.segmentBytes k pos a lv).length = 8192 := by
  rw [State.segmentBytes, List.length_map, List.length_range]

section Segment
variable {s : State} {k pos a : Nat} {lv : List (Nat × Nat)} (ha : s.physOf k pos = some a) (hr : 0 < (s.pos k pos).readback)
  (hm : s.monitorMay k a = true) (hw : s.calWants k a = false)
include ha hr hm hw

theorem readbackSegment_reads : readbackSegment k pos lv s =
    ((s.arrayRead k a).hbmWrite (s.diagAddr k pos (1040 - (s.pos k pos).readback) 0) (s.segmentBytes k pos a lv)).setPos k pos
      { s.pos k pos with readback := (s.pos k pos).readback - 8 } := by
  simp only [readbackSegment, ha]
  exact if_pos ⟨hr, hm, by rw [hw]; rfl⟩

theorem readbackSegment_mem : (readbackSegment k pos lv s).mem =
    s.mem.write (s.diagAddr k pos (1040 - (s.pos k pos).readback) 0) (s.segmentBytes k pos a lv) := by
  have hmem : ∀ addr bs x, (((s.arrayRead k a).hbmWrite addr bs).setPos k pos x).mem = s.mem.write addr bs := fun _ _ _ => rfl
  rw [readbackSegment_reads ha hr hm hw, hmem]

end Segment

end Sys2Proof.Machine

namespace Sys2Proof.Proofs
open Sys2Proof Sys2Proof.Machine

/-- Settles O26: a trigger is taken over by the job of its position or queues one; a segment writes 8,192 bytes and no other. -/
theorem programmingTriggersAndReadback : Obligations.ProgrammingTriggersAndReadback := by
  refine ⟨?refresh, ?queued, ?unmapped, ?load, ?noLoad, ?readback, ?age, ?segment⟩
  case refresh =>
    intro s k rq pos h
    exact congrArg Host.Outcome.next (if_pos h)
  case queued =>
    intro s d p cls
    obtain ⟨j, hj, hpos, hcls, href⟩ := s.jobsWith_serves d p cls
    have hlen := s.length_jobsWith d p cls
    refine ⟨_, rfl, ?_, by simp only [State.queueJob_frame], by simp only [State.queueJob_frame], s.queueJob_phys d p cls, ?_, fun hany => ?_⟩
    · rw [State.queueJob_kao]
      refine List.any_eq_true.2 ⟨j, hj, ?_⟩
      rw [State.jobClass] at hcls
      rw [decide_eq_true hpos, decide_eq_true hcls]
      cases h : refreshClass cls with
      | true => rw [href h]; rfl
      | false => rw [refreshClass] at h; rw [h, Bool.not_false, Bool.or_true]; rfl
    · rw [State.queueJob_kao]
      dsimp only
      split at hlen <;> omega
    · rw [State.queueJob_kao]
      exact hlen.trans (if_pos hany)
  case unmapped =>
    intro s k rq pos h
    obtain ⟨hrefresh, hload, hread, hage⟩ := progCmd_unmapped (rq := rq) h
    exact ⟨congrArg Host.Outcome.next hrefresh, congrArg Host.Outcome.next hload, congrArg Host.Outcome.next hread,
      congrArg Host.Outcome.next hage⟩
  case load =>
    intro s k rq pos h hu hw
    refine congrArg Host.Outcome.next ((loadCmd_mapped h).trans (if_pos ?_))
    rw [hu, hw]
    rfl
  case noLoad =>
    intro s k rq pos h hw
    refine congrArg Host.Outcome.next ((loadCmd_mapped h).trans (if_neg ?_))
    rw [hw, Bool.and_false]
    exact Bool.false_ne_true
  case readback =>
    intro s k rq pos h
    exact congrArg Host.Outcome.next (readbackCmd_mapped h)
  case age =>
    intro s k pos e c b hm hd ha hf
    refine congrArg Host.Outcome.next (if_pos ⟨?_, hd, ha, ?_⟩)
    · rw [hm]
      rfl
    · rw [hf]
      rfl
  case segment =>
    intro s k pos a lv ha hr hm hw
    have hlen := s.length_segmentBytes k pos a lv
    have huse : ((s.arrayRead k a).phys k a).use = .idle := by rw [State.arrayRead_phys]
    have hcodes : ((s.arrayRead k a).phys k a).codes = (s.phys k a).codes := by rw [State.arrayRead_phys]
    have hmem := readbackSegment_mem (lv := lv) ha hr hm hw
    refine ⟨readbackSegment k pos lv s, rfl, ?_, ?_, fun x hx => ?_, fun i hi hin => ?_, ?_⟩
    · rw [readbackSegment_reads ha hr hm hw, State.pos_setPos]
    · rw [readbackSegment_reads ha hr hm hw]
      exact huse
    · rw [hmem, MemSt.byte_write_out (by rw [hlen]; exact hx)]
    · rw [hmem, MemSt.byte_write_in (by rw [hlen]; exact hi) hin, s.segmentBytes_getD k pos a lv hi]
    · rw [readbackSegment_reads ha hr hm hw]
      exact hcodes

end Sys2Proof.Proofs
end

section
/-! SUPPORT. A programming job from its start to its end: rows, retries, retirement (R113, R115 to R119, R132, R419). -/

namespace Sys2Proof.Machine
open Sys2Proof

/-! ### The start of a job (R115) -/

/-- The array that a job of a position writes: the position's own in place, else the spare of the tile. -/
def State.jobSlot (s : State) (k t : Nat) (j : Job) : Nat := if (s.pos k j.pos).inPlace then (s.pos k j.pos).slot.getD 16 else (s.tile k t).slot

/-- The codes of a job come from the shadow-code area. -/
def State.jobShadow (s : State) (k : Nat) (j : Job) : Bool := j.load || s.fromShadow k j.pos

/-- The rows that a job writes: all of the spare, in place the changed and the stale ones. -/
def State.jobRows (s : State) (k t : Nat) (j : Job) : List Nat :=
  if (s.pos k j.pos).inPlace then (List.range 1024).filter (fun r =>
    (s.pos k j.pos).changed.contains r || (s.staleRows k j.pos (17 * t + s.jobSlot k t j) (s.jobShadow k j)).contains r)
  else List.range 1024

/-- A queued job as it runs. -/
def State.runJob (s : State) (k t : Nat) (j : Job) : RunJob :=
  { job := { j with fromShadow := s.jobShadow k j }, slot := s.jobSlot k t j, inPlace := (s.pos k j.pos).inPlace, rows := s.jobRows k t j,
    version := ((s.pos k j.pos).version + 1) % 2 ^ 32, step := if s.jobShadow k j then s.pair R.STEP_COUNT else (s.pos k j.pos).projStep }

/-- A job has left the queue and runs in its tile. -/
def State.jobStarted (s : State) (k t : Nat) (j : Job) : State :=
  (((s.setKao k { s.kao k with jobs := (s.kao k).jobs.filter (fun x => x ≠ j) }).setPos k j.pos { s.pos k j.pos with changed := [] }).setPhys k
    (17 * t + s.jobSlot k t j) { s.phys k (17 * t + s.jobSlot k t j) with use := .programming }).setTile k t
      { s.tile k t with job := some (s.runJob k t j), spare := if (s.pos k j.pos).inPlace then (s.tile k t).spare else .prog }

section Start
variable {s : State} {k t : Nat} {j : Job}

theorem progJobStart_starts (he : s.regB (R.ARR_DRIFT_CTRL k) 1 = true) (hb : s.busyTiles k < s.progTiles k)
    (hn : s.nextTile k = some (t, j)) : progJobStart k s = s.jobStarted k t j := by
  simp only [progJobStart, he, hb, hn, decide_true, Bool.and_self, if_true]
  rfl

theorem progJobStart_waits (h : s.regB (R.ARR_DRIFT_CTRL k) 1 = false ∨ s.progTiles k ≤ s.busyTiles k ∨ s.nextTile k = none) :
    progJobStart k s = s := by
  unfold progJobStart
  rcases h with h | h | h
  · rw [h]
    rfl
  · rw [decide_eq_false (Nat.not_lt.2 h), Bool.and_false]
    rfl
  · rw [h]
    exact ite_self s

theorem State.jobStarted_tile : (s.jobStarted k t j).tile k t =
    { s.tile k t with job := some (s.runJob k t j), spare := if (s.pos k j.pos).inPlace then (s.tile k t).spare else .prog } :=
  State.tile_setTile ..

theorem State.jobStarted_kao : (s.jobStarted k t j).kao k = { s.kao k with jobs := (s.kao k).jobs.filter (fun x => x ≠ j) } := by
  rw [State.jobStarted, State.kao_setTile, State.kao_setPhys, State.kao_setPos, State.kao_setKao]

theorem State.jobStarted_phys : (s.jobStarted k t j).phys k (17 * t + s.jobSlot k t j) =
    { s.phys k (17 * t + s.jobSlot k t j) with use := .programming } :=
  State.phys_setPhys ..

theorem State.jobStarted_frame : (s.jobStarted k t j).mem = s.mem ∧ (s.jobStarted k t j).regs = s.regs := by
  simp only [State.jobStarted, State.setTile_frame, State.setPhys_frame, State.setPos_frame, State.setKao_frame, and_self]

end Start

/-! ### Rows (R116, R117) -/

section Row
variable {s : State} {k t : Nat} {run : RunJob} {r : Nat} {rest : List Nat} {reads : RowReads}

theorem progRow_illegal (hj : (s.tile k t).job = some run) (hr : run.rows = r :: rest)
    (hl : s.rowIllegal k run.job.pos run.job.fromShadow r = true) : progRow k t reads s =
      (s.setTile k t { s.tile k t with job := some { run with rows := rest, failed := true } }).log (0x20 + k) 1 0xFF 1
        (run.job.pos + r * 2 ^ 16) := by
  simp only [progRow, hj, hr, hl, if_true]

theorem progRow_none (h : (s.tile k t).job = none ∨ ∃ run ∈ (s.tile k t).job, run.rows = []) : progRow k t reads s = s := by
  rcases h with h | ⟨run, hrun, hrows⟩
  · simp only [progRow, h]
  · simp only [progRow, Option.mem_def.1 hrun, hrows]

end Row

/-! ### The end of a job (R118, R119) -/

section Complete
variable {s : State} {k t : Nat} {f : VerifyFit} {reads : List RowReads} {run : RunJob} (hj : (s.tile k t).job = some run)
include hj

theorem progJobComplete_failed (hf : run.failed = true) : progJobComplete k t f reads s = s.jobFail k t run := by
  simp [progJobComplete, hj, hf]

variable (hf : run.failed = false)
include hf

theorem progJobComplete_waits (hr : run.rows ≠ []) : progJobComplete k t f reads s = s := by
  simp [progJobComplete, hj, hf, hr]

variable (hr : run.rows = [])
include hr

theorem progJobComplete_changed (hc : (s.pos k run.job.pos).changed ≠ []) (hs : run.job.fromShadow = false) :
    progJobComplete k t f reads s = (s.setPos k run.job.pos { s.pos k run.job.pos with changed := [] }).setTile k t
      { s.tile k t with job := some { run with rows := (s.pos k run.job.pos).changed, step := (s.pos k run.job.pos).projStep } } := by
  simp [progJobComplete, hj, hf, hr, hc, hs]

theorem progJobComplete_verifies (hc : (s.pos k run.job.pos).changed = [] ∨ run.job.fromShadow = true) :
    progJobComplete k t f reads s = s.jobVerify k t run f ((reads.take 16).map rowEnd) := by
  simp only [progJobComplete, hj, hf, hr]
  refine (if_neg (by decide)).trans ((if_neg ?_).trans (if_neg Bool.false_ne_true))
  rcases hc with hc | hc <;> simp [hc]

end Complete

section Pass
variable {s : State} {k t : Nat} {run : RunJob} {x : PhysSt}

theorem State.jobPass_spare (hp : run.inPlace = false) : s.jobPass k t run x = (s.setPhys k (17 * t + run.slot) x).setTile k t
    { s.tile k t with job := none, spare := .ready, ready := some (run.job.pos, run.job.refresh) } := by
  rw [State.jobPass, hp]
  exact if_neg Bool.false_ne_true

theorem State.jobPass_inPlace (hp : run.inPlace = true) : s.jobPass k t run x =
    ((s.setPhys k (17 * t + run.slot) x).setTile k t { s.tile k t with job := none }).when ((s.pos k run.job.pos).waitHost && run.job.load)
      (fun u => u.setPos k run.job.pos { s.pos k run.job.pos with unconf := false }) := by
  rw [State.jobPass, hp]
  exact if_pos rfl

end Pass

/-! ### Retirement and the requeued job (R115, R118) -/

/-- The state of a retired array: its record is marked, and no forced read of it is due. -/
def PhysSt.retire (x : PhysSt) : PhysSt := { x with record := some { (x.record.getD {}) with retired := true }, forced := false }

section Retire
variable (s : State) (k t slot : Nat)

theorem State.tile_of_arr {s u : State} (h : u.arr = s.arr) (k t : Nat) : u.tile k t = s.tile k t := by rw [State.tile, h, State.tile]
theorem State.phys_of_arr {s u : State} (h : u.arr = s.arr) (k a : Nat) : u.phys k a = s.phys k a := by rw [State.phys, h, State.phys]
theorem State.pos_of_arr {s u : State} (h : u.arr = s.arr) (k p : Nat) : u.pos k p = s.pos k p := by rw [State.pos, h, State.pos]

theorem State.retireArray_tile : (s.retireArray k t slot).tile k t = { s.tile k t with retired := (s.tile k t).retired + 1 } :=
  State.tile_setTile ..

theorem State.retireArray_phys : (s.retireArray k t slot).phys k (17 * t + slot) = (s.phys k (17 * t + slot)).retire := State.phys_setPhys ..

theorem State.enterNone_tile : (s.enterNone k t).tile k t = { s.tile k t with spare := .none, slot := 31, ready := none } :=
  (State.when_keeps (State.tile · k t) rfl).trans (State.tile_setTile ..)

theorem State.enterNone_phys (a : Nat) : (s.enterNone k t).phys k a = s.phys k a := State.when_keeps (State.phys · k a) rfl
theorem State.enterNone_pos (p : Nat) : (s.enterNone k t).pos k p = s.pos k p := State.when_keeps (State.pos · k p) rfl
theorem State.enterNone_kao : (s.enterNone k t).kao = s.kao := State.when_keeps State.kao rfl

theorem State.enterNone_noted : s.Noted (s.enterNone k t) :=
  ((State.Noted.refl s).setTile ..).when (fun u => (State.Noted.refl u).event (noteReg_driftEvents k) 5) _

theorem State.retireArray_noted : s.Noted (s.retireArray k t slot) := ((State.Noted.refl s).setPhys ..).setTile ..

/-- A retired spare leaves its tile without one. -/
theorem State.retireSpare_tile : (s.retireSpare k t slot).tile k t =
    { s.tile k t with spare := .none, slot := 31, ready := none, retired := (s.tile k t).retired + 1 } := by
  rw [State.retireSpare, State.tile_of_arr (State.log_arr ..), State.enterNone_tile, State.retireArray_tile]

theorem State.retireSpare_phys : (s.retireSpare k t slot).phys k (17 * t + slot) = (s.phys k (17 * t + slot)).retire := by
  rw [State.retireSpare, State.phys_of_arr (State.log_arr ..), State.enterNone_phys, State.retireArray_phys]

theorem State.retireSpare_kao : (s.retireSpare k t slot).kao = s.kao := by
  rw [State.retireSpare, State.kao_of_arr (State.log_arr ..), State.enterNone_kao]
  rfl

theorem State.retireSpare_noted : s.Noted (s.retireSpare k t slot) :=
  ((s.retireArray_noted k t slot).trans (State.enterNone_noted ..)).log ..

end Retire

section Requeue
variable {s : State} {k t : Nat} {run : RunJob} (cls : Nat) (hj : (s.tile k t).job = some run)
include hj

/-- A requeued job leaves its tile and its array idle, and stands in the queue. -/
theorem State.requeue_eq : ∃ j : Job, j.pos = run.job.pos ∧ s.requeue k t cls =
    ((s.setTile k t { s.tile k t with job := none }).setPhys k (17 * t + run.slot) { s.phys k (17 * t + run.slot) with use := .idle }).setKao k
      { s.kao k with jobs := (s.kao k).jobs.filter (fun x => x.pos ≠ run.job.pos) ++ [j] } := by
  unfold State.requeue
  rw [hj]
  refine ⟨_, ?_, rfl⟩
  split <;> rfl

theorem State.requeue_tile : (s.requeue k t cls).tile k t = { s.tile k t with job := none } := by
  obtain ⟨j, -, heq⟩ := State.requeue_eq cls hj
  rw [heq]
  exact State.tile_setTile ..

theorem State.requeue_jobs : ((s.requeue k t cls).kao k).jobs.any (fun j => j.pos == run.job.pos) = true := by
  obtain ⟨j, hpos, heq⟩ := State.requeue_eq cls hj
  rw [heq, State.kao_setKao]
  exact List.any_eq_true.2 ⟨j, List.mem_append_right _ (List.mem_singleton_self j), beq_iff_eq.2 hpos⟩

end Requeue

/-! ### The second failure of a job (R118, R419) -/

/-- What a second failure notes: VERIFY_FAIL and SPARE_RETIRED. -/
def State.failNoted (s : State) (k : Nat) : State := (s.event (R.ARR_DRIFT_EVENTS k) 3).event (R.ARR_DRIFT_EVENTS k) 4

/-- A job in place has failed for good: its array is idle and retired. -/
def State.arrayLost (s : State) (k t : Nat) (run : RunJob) : State :=
  (((s.setTile k t { s.tile k t with job := none }).setPhys k (17 * t + run.slot) { s.phys k (17 * t + run.slot) with use := .idle }).retireArray
    k t run.slot).log (0x20 + k) 5 4 0 (17 * t + run.slot)

/-- A job of a position is queued again in place; one of LOAD stays one. -/
def State.queueAgain (s : State) (k : Nat) (job : Job) : State :=
  (s.queueJob k job.pos 1).when job.load (fun u => u.markLoad k job.pos)

section Fail
variable {s : State} {k t : Nat} {run : RunJob}

theorem State.jobFail_first (hr : run.retried = false) : s.jobFail k t run =
    s.setTile k t { s.tile k t with job := some { run with retried := true, failed := false, marginal := 0, rows := List.range 1024 } } := by
  rw [State.jobFail, hr]
  exact if_pos rfl

theorem State.jobFail_spare (hr : run.retried = true) (hp : run.inPlace = false) : s.jobFail k t run =
    ((s.failNoted k).requeue k t run.job.cls).retireSpare k t run.slot := by
  rw [State.jobFail, hr, hp]
  exact (if_neg (by decide)).trans (if_neg Bool.false_ne_true)

theorem State.jobFail_inPlace (hr : run.retried = true) (hp : run.inPlace = true) : s.jobFail k t run =
    ((s.failNoted k).arrayLost k t run).takeSpare k t run.job := by
  rw [State.jobFail, hr, hp]
  exact (if_neg (by decide)).trans (if_pos rfl)

/-- The events of a second failure stay set by what only notes events after them. -/
theorem State.Noted.failEvents {u : State} (h : (s.failNoted k).Noted u) :
    u.regB (R.ARR_DRIFT_EVENTS k) 3 = true ∧ u.regB (R.ARR_DRIFT_EVENTS k) 4 = true := by
  have h1 : R.ARR_DRIFT_EVENTS k ≠ R.ERR_DROP_CNT := by unfold R.ARR_DRIFT_EVENTS R.ERR_DROP_CNT; omega
  have h2 : R.ARR_DRIFT_EVENTS k ≠ R.ERR_EVENTS := by unfold R.ARR_DRIFT_EVENTS R.ERR_EVENTS; omega
  exact ⟨h.notes.set _ 3 h1 h2 (List.not_mem_nil) (State.regB_event_of_regB (State.regB_event_self _ _ (by decide))),
    h.notes.set _ 4 h1 h2 (List.not_mem_nil) (State.regB_event_self _ _ (by decide))⟩

theorem State.requeue_noted (cls : Nat) (hj : (s.tile k t).job = some run) : s.Noted (s.requeue k t cls) := by
  obtain ⟨j, -, heq⟩ := State.requeue_eq cls hj
  rw [heq]
  exact (((State.Noted.refl s).setTile ..).setPhys ..).setKao k rfl

end Fail

section Lost
variable (s : State) (k t : Nat) (run : RunJob)

theorem State.arrayLost_tile : (s.arrayLost k t run).tile k t = { s.tile k t with job := none, retired := (s.tile k t).retired + 1 } := by
  rw [State.arrayLost, State.tile_of_arr (State.log_arr ..), State.retireArray_tile, State.tile_setPhys, State.tile_setTile]

theorem State.arrayLost_phys : (s.arrayLost k t run).phys k (17 * t + run.slot) =
    PhysSt.retire { s.phys k (17 * t + run.slot) with use := .idle } := by
  rw [State.arrayLost, State.phys_of_arr (State.log_arr ..), State.retireArray_phys, State.phys_setPhys]

theorem State.arrayLost_noted : s.Noted (s.arrayLost k t run) :=
  ((((State.Noted.refl s).setTile ..).setPhys ..).trans (State.retireArray_noted ..)).log ..

end Lost

section Again
variable (s : State) (k : Nat) (job : Job)

/-- What the queue of jobs and the notes of a refresh do not change, a job queued again keeps. -/
theorem State.queueAgain_keeps {β : Type} (g : State → β) (hnote : g (s.refreshNoted k job.pos) = g s)
    (hkao : ∀ t x, g (State.setKao t k x) = g t) (hage : ∀ t (n : Nat → Nat), g (State.modArr t (fun a => { a with jobAge := n a.jobAge })) = g t) :
    g (s.queueAgain k job) = g s :=
  (State.when_keeps g (hkao ..)).trans (s.queueJob_keeps k job.pos 1 g hnote hkao hage)

theorem State.queueAgain_tile (t : Nat) : (s.queueAgain k job).tile k t = s.tile k t :=
  s.queueAgain_keeps k job (State.tile · k t)
    ((State.when_keeps (State.tile · k t) rfl).trans (State.when_keeps (State.tile · k t) rfl)) (fun _ _ => rfl) (fun _ _ => rfl)

theorem State.queueAgain_phys (a : Nat) : (s.queueAgain k job).phys k a = s.phys k a :=
  s.queueAgain_keeps k job (State.phys · k a)
    ((State.when_keeps (State.phys · k a) rfl).trans (State.when_keeps (State.phys · k a) rfl)) (fun _ _ => rfl) (fun _ _ => rfl)

theorem State.queueAgain_slot : ((s.queueAgain k job).pos k job.pos).slot = (s.pos k job.pos).slot := by
  have hmark : ∀ u : State, ((u.setPos k job.pos { u.pos k job.pos with mark := true }).pos k job.pos).slot = (u.pos k job.pos).slot := fun u => by
    rw [State.pos_setPos]
  refine s.queueAgain_keeps k job (fun u => (u.pos k job.pos).slot) ?_ (fun _ _ => rfl) (fun _ _ => rfl)
  refine (State.when_keeps (fun u => (u.pos k job.pos).slot) rfl).trans (State.when_keeps (fun u => (u.pos k job.pos).slot) (hmark _))

theorem State.queueAgain_jobs : ((s.queueAgain k job).kao k).jobs.any (fun j => j.pos == job.pos) = true := by
  have hqueued : ((s.queueJob k job.pos 1).kao k).jobs.any (fun j => j.pos == job.pos) = true := by
    obtain ⟨j, hj, hpos, -⟩ := s.jobsWith_serves k job.pos 1
    rw [State.queueJob_kao]
    exact List.any_eq_true.2 ⟨j, hj, beq_iff_eq.2 hpos⟩
  refine (State.when_keeps (fun u => (u.kao k).jobs.any (fun j => j.pos == job.pos)) ?_).trans hqueued
  have hmark : ∀ j : Job, ((if j.pos = job.pos then { j with load := true } else j).pos == job.pos) = (j.pos == job.pos) := fun j => by
    split <;> rfl
  rw [State.markLoad, State.kao_setKao, List.any_map]
  exact congrArg _ (funext hmark)

theorem State.queueAgain_noted : s.Noted (s.queueAgain k job) :=
  (s.queueJob_noted k job.pos 1).when (f := fun u => u.markLoad k job.pos) (fun u => (State.Noted.refl u).setKao k rfl) _

end Again

section Take
variable {s : State} {k t : Nat} {job : Job}

/-- A spare that is there becomes the array of the position, whose job is queued again (R419). -/
theorem State.takeSpare_spare (h : (s.tile k t).spare = .free ∨ (s.tile k t).spare = .ready ∨ (s.tile k t).spare = .prog) :
    s.takeSpare k t job =
      ((s.setPos k job.pos { s.pos k job.pos with slot := some (s.tile k t).slot }).enterNone k t).queueAgain k job := by
  unfold State.takeSpare
  rcases h with h | h | h <;> simp only [h] <;> rfl

/-- Without a spare the position has no array. -/
theorem State.takeSpare_none (h : (s.tile k t).spare = .none) :
    s.takeSpare k t job = (s.setPos k job.pos { s.pos k job.pos with slot := none }).event (R.ARR_DRIFT_EVENTS k) 5 := by
  simp only [State.takeSpare, h]

end Take
end Sys2Proof.Machine

namespace Sys2Proof.Proofs
open Sys2Proof Sys2Proof.Machine

/-- Settles O27: a job takes the branch its tile and its rows name; a second failure retires the array and queues the job again. -/
theorem programmingJobs : Obligations.ProgrammingJobs := by
  refine ⟨?starts, ?waits, ?rowEnds, ?rowInPlace, ?rowSpare, ?rowIllegal, ?rowNone, ?rowsLeft, ?changed, ?failed, ?verifies, ?programmed,
    ?passSpare, ?passInPlace, ?firstFailure, ?spareRetired, ?spareTaken, ?noSpare⟩
  case starts =>
    intro s k t j he hb hn
    have htile := State.jobStarted_tile (s := s) (k := k) (t := t) (j := j)
    refine ⟨s.jobStarted k t j, s.runJob k t j, congrArg Host.Outcome.next (progJobStart_starts he hb hn), by rw [htile], rfl, rfl, rfl, rfl,
      rfl, rfl, fun hp => ?_, fun hp => ?_, by rw [State.jobStarted_kao], ?_, ?_, State.jobStarted_frame⟩
    · change (s.pos k j.pos).inPlace = false at hp
      refine ⟨?_, ?_, ?_⟩
      · exact if_neg (Bool.eq_false_iff.1 hp)
      · exact if_neg (Bool.eq_false_iff.1 hp)
      · rw [htile]
        exact if_neg (Bool.eq_false_iff.1 hp)
    · change (s.pos k j.pos).inPlace = true at hp
      exact ⟨if_pos hp, if_pos hp⟩
    · exact congrArg PhysSt.use State.jobStarted_phys
    · change ((s.jobStarted k t j).phys k (17 * t + s.jobSlot k t j)).codes = (s.phys k (17 * t + s.jobSlot k t j)).codes
      rw [State.jobStarted_phys]
  case waits =>
    intro s k h
    exact congrArg Host.Outcome.next (progJobStart_waits h)
  case rowEnds =>
    intro reads i hi hl he
    simp only [rowEnd, rowEnd_find reads i hi hl he]
  case rowInPlace =>
    intro s k t v0 v1 v2 vs run r rest hj hr hl hp
    have hrow := progRow_legal (v0 :: v1 :: v2 :: vs) hj hr hl
    rw [hp] at hrow
    have hphys := s.rowLeft_phys k t run rest (v0 :: v1 :: v2 :: vs) (s.rowWritten k t run r (v0 :: v1 :: v2 :: vs))
    obtain ⟨hmem, hout⟩ := s.rowLeft_keeps k t run rest (v0 :: v1 :: v2 :: vs) (s.rowWritten k t run r (v0 :: v1 :: v2 :: vs))
    refine ⟨_, congrArg Host.Outcome.next (hrow.trans (if_neg (by simp))), State.rowLeft_job .., fun x c hc => ?_, fun x => ?_,
      State.rowLeft_count .., hmem, hout⟩
    · rw [hphys, rowWritten_code _ _ _ _ _ _ _ _ hc]
    · rw [hphys, rowWritten_writes]
  case rowSpare =>
    intro s k t v0 v1 v2 vs run r rest hj hr hl hp
    have hrow := progRow_legal (v0 :: v1 :: v2 :: vs) hj hr hl
    rw [hp, Bool.not_false, Bool.true_and] at hrow
    obtain ⟨hmem, hout⟩ := s.rowLeft_keeps k t run rest (v0 :: v1 :: v2 :: vs) (s.rowWritten k t run r (v0 :: v1 :: v2 :: vs))
    refine ⟨_, _, s.rowLeft k t run rest (v0 :: v1 :: v2 :: vs) (s.rowWritten k t run r (v0 :: v1 :: v2 :: vs)), congrArg Host.Outcome.next hrow,
      State.rowLeft_phys .., fun x c hc => rowWritten_code _ _ _ _ _ _ _ _ hc, fun x => rowWritten_writes .., State.rowLeft_job .., hmem, hout,
      fun hw => if_neg (Bool.eq_false_iff.1 hw), fun hw => if_pos hw⟩
  case rowIllegal =>
    intro s k t v0 v1 v2 vs run r rest hj hr hl
    exact congrArg Host.Outcome.next (progRow_illegal hj hr hl)
  case rowNone =>
    intro s k t v0 v1 v2 vs h
    exact congrArg Host.Outcome.next (progRow_none h)
  case rowsLeft =>
    intro s k t f mr run hj hf hr
    exact congrArg Host.Outcome.next (progJobComplete_waits hj hf hr)
  case changed =>
    intro s k t f mr run hj hf hr hc hs
    exact congrArg Host.Outcome.next (progJobComplete_changed hj hf hr hc hs)
  case failed =>
    intro s k t f mr run hj hf
    exact congrArg Host.Outcome.next (progJobComplete_failed hj hf)
  case verifies =>
    intro s k t f mr run hj hf hr hc
    exact ⟨_, rfl, congrArg Host.Outcome.next (progJobComplete_verifies hj hf hr hc)⟩
  case programmed =>
    intro s k t run f
    refine ⟨_, rfl, ?_⟩
    simp only [State.programmed, and_self]
  case passSpare =>
    intro s k t run x hp
    refine ⟨_, State.jobPass_spare hp, ?_⟩
    rw [State.tile_setTile, State.phys_setTile, State.phys_setPhys]
    exact ⟨rfl, rfl, rfl, rfl⟩
  case passInPlace =>
    intro s k t run x hp
    refine ⟨_, State.jobPass_inPlace hp, ?_, ?_, ?_, ?_⟩
    · refine (State.when_keeps (fun u => (u.tile k t).job) rfl).trans ?_
      rw [State.tile_setTile]
    · refine (State.when_keeps (fun u => (u.tile k t).spare) rfl).trans ?_
      rw [State.tile_setTile]
    · exact (State.when_keeps (fun u => u.phys k (17 * t + run.slot)) rfl).trans (s.phys_setPhys ..)
    · cases hc : ((s.pos k run.job.pos).waitHost && run.job.load) with
      | true => exact (congrArg PosSt.unconf (State.pos_setPos ..)).trans (Bool.and_false _).symm
      | false => exact (Bool.and_true _).symm
  case firstFailure =>
    intro s k t run hr
    exact State.jobFail_first hr
  case spareRetired =>
    intro s k t run hr hp hj
    have hj' : ((s.failNoted k).tile k t).job = some run := hj
    obtain ⟨hfail, hretired⟩ := ((State.requeue_noted run.job.cls hj').trans (State.retireSpare_noted _ k t run.slot)).failEvents
    refine ⟨_, State.jobFail_spare hr hp, ?_, ?_, ?_, ?_, ?_, hfail, hretired⟩
    · rw [State.retireSpare_tile, State.requeue_tile _ hj']
    · rw [State.retireSpare_tile]
    · rw [State.retireSpare_tile, State.requeue_tile _ hj']
      rfl
    · rw [State.retireSpare_phys]
      rfl
    · rw [State.retireSpare_kao]
      exact State.requeue_jobs _ hj'
  case spareTaken =>
    intro s k t run hr hp hj hspare
    have hlost := (s.failNoted k).arrayLost_tile k t run
    have htake := State.takeSpare_spare (s := (s.failNoted k).arrayLost k t run) (k := k) (t := t) (job := run.job) (by rw [hlost]; exact hspare)
    obtain ⟨hfail, hretired⟩ := (((((s.failNoted k).arrayLost_noted k t run).setPos ..).trans (State.enterNone_noted _ k t)).trans
      (State.queueAgain_noted _ k run.job)).failEvents
    refine ⟨_, (State.jobFail_inPlace hr hp).trans htake, ?_, ?_, ?_, ?_, ?_, ?_, State.queueAgain_jobs .., hfail, hretired⟩
    · rw [State.queueAgain_tile, State.enterNone_tile, State.tile_setPos, hlost]
    · rw [State.queueAgain_tile, State.enterNone_tile]
    · rw [State.queueAgain_tile, State.enterNone_tile, State.tile_setPos, hlost]
      rfl
    · rw [State.queueAgain_slot, State.enterNone_pos, State.pos_setPos, hlost]
      rfl
    · rw [State.queueAgain_phys, State.enterNone_phys, State.phys_setPos, State.arrayLost_phys]
      rfl
    · rw [State.queueAgain_phys, State.enterNone_phys, State.phys_setPos, State.arrayLost_phys]
      rfl
  case noSpare =>
    intro s k t run hr hp hj hspare
    have hlost := (s.failNoted k).arrayLost_tile k t run
    have htake := State.takeSpare_none (s := (s.failNoted k).arrayLost k t run) (k := k) (t := t) (job := run.job) (by rw [hlost]; exact hspare)
    have hphys := (s.failNoted k).arrayLost_phys k t run
    obtain ⟨hfail, hretired⟩ := ((((s.failNoted k).arrayLost_noted k t run).setPos ..).event (noteReg_driftEvents k) 5).failEvents
    refine ⟨_, (State.jobFail_inPlace hr hp).trans htake, congrArg TileSt.job hlost, (congrArg TileSt.spare hlost).trans hspare,
      congrArg TileSt.retired hlost, ?_, ?_, hfail, hretired, State.regB_event_self _ _ (by decide)⟩
    · exact congrArg PosSt.slot (State.pos_setPos ..)
    · exact congrArg (fun x : PhysSt => x.record.map (·.retired)) hphys

end Sys2Proof.Proofs
end

section
/-! SUPPORT. Numbers in bytes, fields of registers, and the CRC-32C of a stored count (R355, R380). -/

namespace Sys2Proof.Machine
open Sys2Proof

/-! ### Fields and bytes -/

/-- A field that is written reads back, cut to its width. -/
theorem fld_setFld_self {hi lo : Nat} (h : lo ≤ hi) (hh : hi < 32) (v : Word) (n : Nat) :
    fld (setFld v hi lo n) hi lo = n % 2 ^ (hi + 1 - lo) := by
  simp only [fld, setFld, bitsOf, BitVec.toNat_ofNat, Nat.shiftRight_eq_div_pow]
  have hword : 2 ^ 32 = 2 ^ lo * (2 ^ (hi + 1 - lo) * 2 ^ (31 - hi)) := by rw [← pow_add, ← pow_add]; congr 1; omega
  have hpos : 0 < 2 ^ lo := Nat.two_pow_pos lo
  generalize v.toNat = m, 2 ^ lo = p, 2 ^ (hi + 1 - lo) = w at *
  have hm : m = m % p + p * (m / p % w) + p * (w * (m / p / w)) := by
    rw [Nat.add_assoc, ← Nat.mul_add, Nat.mod_add_div, Nat.mod_add_div]
  have hcut : m - m / p % w * p + n % w * p = m % p + p * (w * (m / p / w) + n % w) := by
    rw [Nat.mul_comm (m / p % w), Nat.mul_comm (n % w), Nat.mul_add]
    omega
  rw [hcut, hword, Nat.mod_mul_right_div_self, Nat.mod_mul_right_mod, Nat.add_mul_div_left _ _ hpos, Nat.div_eq_of_lt (Nat.mod_lt _ hpos),
    Nat.zero_add, Nat.mul_add_mod, Nat.mod_mod]

theorem State.regF_setRegF_self (s : State) (a : Nat) {hi lo : Nat} (h : lo ≤ hi) (hh : hi < 32) (n : Nat) :
    (s.setRegF a hi lo n).regF a hi lo = n % 2 ^ (hi + 1 - lo) := by
  rw [State.regF, State.setRegF, State.reg_setReg, if_pos rfl, fld_setFld_self h hh]

theorem ofLe_leBytes (k n : Nat) : ofLe (leBytes k n) = n % 256 ^ k := by
  induction k generalizing n with
  | zero => rw [leBytes, ofLe, pow_zero, Nat.mod_one]
  | succ k ih =>
    have hpow : 256 ^ (k + 1) = 256 * 256 ^ k := pow_succ' 256 k
    rw [leBytes, ofLe, ih, byteOf, BitVec.toNat_ofNat, hpow, Nat.mod_mul]

/-! ### The CRC-32C of a string fits a word -/

theorem crcBit_lt {c : Nat} (h : c < 2 ^ 32) : crcBit c < 2 ^ 32 := by
  have hshift : c >>> 1 < 2 ^ 32 := by rw [Nat.shiftRight_eq_div_pow]; omega
  unfold crcBit
  split
  · exact Nat.xor_lt_two_pow hshift (by decide)
  · exact hshift

theorem crcByte_lt {c : Nat} (h : c < 2 ^ 32) (b : Byte) : crcByte c b < 2 ^ 32 := by
  have hb : b.toNat < 2 ^ 32 := b.isLt.trans (by decide)
  exact crcBit_lt (crcBit_lt (crcBit_lt (crcBit_lt (crcBit_lt (crcBit_lt (crcBit_lt (crcBit_lt (Nat.xor_lt_two_pow h hb))))))))

theorem crcFeed_lt {c : Nat} (h : c < 2 ^ 32) (bs : List Byte) : crcFeed c bs < 2 ^ 32 := by
  induction bs generalizing c with
  | nil => exact h
  | cons b bs ih => exact ih (crcByte_lt h b)

theorem crc32c_lt (bs : List Byte) : crc32c bs < 2 ^ 32 := Nat.xor_lt_two_pow (crcFeed_lt (by decide) bs) (by decide)

/-! ### The stored powered-time count (R355) -/

theorem countOf_countRec {n : Nat} (h : n < 2 ^ 32) : countOf (countRec n) = some n := by
  have hlen : (leBytes 4 n).length = 4 := leBytes_length 4 n
  have hcount : leAt (countRec n) 0 4 = n := by
    rw [countRec, leAt_append_left hlen, ofLe_leBytes]
    exact Nat.mod_eq_of_lt h
  have hcheck : leAt (countRec n) 4 4 = crc32c (leBytes 4 n) := by
    have hcut : leAt (leBytes 4 (crc32c (leBytes 4 n)) ++ []) 0 4 = crc32c (leBytes 4 n) := by
      rw [leAt_append_left (leBytes_length ..), ofLe_leBytes]
      exact Nat.mod_eq_of_lt (crc32c_lt _)
    rw [List.append_nil] at hcut
    exact (leAt_append_right (o := 0) hlen).trans hcut
  have htake : (countRec n).take 4 = leBytes 4 n := List.take_left' hlen
  have hfull : (countRec n).length = 8 := by rw [countRec, List.length_append, hlen, leBytes_length]
  rw [countOf, if_pos ⟨hfull, by rw [hcheck, htake]⟩, hcount]

theorem countRec_ne_nil (n : Nat) : countRec n ≠ [] := List.cons_ne_nil _ _

theorem PwrSt.stored_eq {p : PwrSt} {m n : Nat} (hm : m < 2 ^ 32) (hn : n < 2 ^ 32) (ha : p.storeA = countRec m)
    (hb : p.storeB = countRec n ∨ p.storeB = []) : p.stored = if p.storeB = [] then m else max m n := by
  have hnil : countOf [] = none := if_neg fun h => absurd h.1 (by decide)
  rw [PwrSt.stored, ha, countOf_countRec hm]
  rcases hb with hb | hb
  · rw [hb, countOf_countRec hn, if_neg (countRec_ne_nil n)]
    rfl
  · rw [hb, hnil, if_pos rfl]
    exact Nat.max_zero m

end Sys2Proof.Machine
end

section
/-! SUPPORT. The stages of start-up and their failures (R329 to R333, R354). -/

namespace Sys2Proof.Machine
open Sys2Proof

/-! ### A fault state (R330, R421) -/

/-- What the fault states have in common: no link trains, the fault is in IMG_FAULT, its event is set and logged. -/
def State.startFault (s : State) (stage : Nat) (fault : Word) (cls cause detail : Nat) : State :=
  ((s.linksDown.modImg (fun i => { i with stage := stage, worked := false })).setReg R.IMG_FAULT fault).eventLog R.IMG_EVENTS 0 8 cls cause detail

theorem State.hardwareFault_eq (s : State) (cause unit : Nat) :
    s.hardwareFault cause unit = s.startFault 0xD (packFields [(24, cause), (16, unit % 256)]) 5 cause unit := rfl

theorem State.imageFault_eq (s : State) (cause index : Nat) :
    s.imageFault cause index = s.startFault 0xC (packFields [(24, cause), (0, index % 65536)]) (if cause = 2 then 5 else 2) cause index := rfl

/-- A link that trains is DOWN again. -/
def State.linkDown (s : State) (l : Nat) : State := if (s.lnk l).st = .training then s.setLnk l { s.lnk l with st := .down } else s

theorem State.linkDown_lnk (s : State) (l : Nat) :
    ((s.linkDown l).lnk l).st ≠ .training ∧ ∀ j, j ≠ l → (s.linkDown l).lnk j = s.lnk j := by
  unfold State.linkDown
  split
  · refine ⟨?_, fun j hj => State.lnk_setLnk_ne _ _ hj⟩
    rw [State.lnk_setLnk]
    exact LState.noConfusion
  · next h => exact ⟨h, fun _ _ => rfl⟩

/-- With the links down none of them trains. -/
theorem State.linksDown_lnk (s : State) : ∀ l < 18, (s.linksDown.lnk l).st ≠ .training := by
  have hfold : ∀ n, ∀ l < n, (((List.range n).foldl State.linkDown s).lnk l).st ≠ .training := by
    intro n
    induction n with
    | zero => exact fun l hl => absurd hl (Nat.not_lt_zero l)
    | succ n ih =>
      intro l hl
      obtain ⟨hself, hother⟩ := ((List.range n).foldl State.linkDown s).linkDown_lnk n
      rw [List.range_succ, List.foldl_append, List.foldl_cons, List.foldl_nil]
      by_cases hln : l = n
      · rw [hln]
        exact hself
      · rw [hother l hln]
        exact ih l (by omega)
  exact hfold 18

section Fault
variable (s : State) (stage : Nat) (fault : Word) (cls cause detail : Nat)

theorem State.startFault_img : (s.startFault stage fault cls cause detail).img = { s.img with stage := stage, worked := false } := by
  have himg : s.linksDown.img = s.img := by simp only [State.linksDown_frame]
  rw [State.startFault, State.eventLog_img, ← himg]
  rfl

theorem State.startFault_reg {a : Nat} (h1 : a ≠ R.IMG_FAULT) (h2 : a ≠ R.IMG_EVENTS) (h3 : a ≠ R.ERR_DROP_CNT) (h4 : a ≠ R.ERR_EVENTS) :
    (s.startFault stage fault cls cause detail).reg a = s.reg a := by
  have hregs : (s.linksDown.modImg (fun i => { i with stage := stage, worked := false })).regs = s.regs := by
    simp only [State.modImg_frame, State.linksDown_frame]
  rw [State.startFault, State.reg_eventLog _ _ _ h3 h4, if_neg h2, State.reg_setReg, if_neg h1, State.reg, hregs, State.reg]

theorem State.startFault_fault : (s.startFault stage fault cls cause detail).reg R.IMG_FAULT = fault := by
  rw [State.startFault, State.reg_eventLog _ _ _ (by decide) (by decide), if_neg (by decide), State.reg_setReg, if_pos rfl]

theorem State.startFault_event : (s.startFault stage fault cls cause detail).regB R.IMG_EVENTS 0 = true :=
  State.regB_eventLog _ _ (by decide) (by decide) (by decide)

theorem State.startFault_links : ∀ l < 18, ((s.startFault stage fault cls cause detail).lnk l).st ≠ .training := by
  have hezl : (s.startFault stage fault cls cause detail).ezl = s.linksDown.ezl := by
    simp only [State.startFault, State.eventLog_ezl, State.setReg_ezl, State.modImg_ezl]
  intro l hl
  rw [State.lnk, hezl]
  exact s.linksDown_lnk l hl

theorem State.startFault_frame : (s.startFault stage fault cls cause detail).mem = s.mem ∧
    (s.startFault stage fault cls cause detail).out = s.out ∧ (s.startFault stage fault cls cause detail).pwr = s.pwr := by
  simp only [State.startFault, State.eventLog_frame, State.setReg_frame, State.modImg_frame, State.linksDown_frame, and_self]

end Fault

/-! ### Supply good (R354, R355) -/

/-- What holds the rails off: the housekeeping block runs already, a trip is latched, or no input is good. -/
def State.startBlocked (s : State) : Bool := s.housed || s.pwr.latched || !(s.pwr.aGood || s.pwr.bGood)

section Supply
variable {s : State}

theorem State.startBlocked_eq_false (hh : s.housed = false) (hl : s.pwr.latched = false) (hg : s.pwr.aGood = true ∨ s.pwr.bGood = true) :
    s.startBlocked = false := by
  rcases hg with hg | hg <;> simp [State.startBlocked, hh, hl, hg]

theorem State.startBlocked_eq_true (h : s.housed = true ∨ s.pwr.latched = true ∨ (s.pwr.aGood = false ∧ s.pwr.bGood = false)) :
    s.startBlocked = true := by
  rcases h with h | h | ⟨ha, hb⟩
  · simp [State.startBlocked, h]
  · simp [State.startBlocked, h]
  · simp [State.startBlocked, ha, hb]

theorem supplyGood_starts (addr : Nat) (h : s.startBlocked = false) : supplyGood addr s =
    ((s.modPwr (fun p => { p with rails := true, addr := addr % 8 })).loadPowered).modImg (fun i => { i with stage := 1, worked := false }) :=
  if_neg (Bool.eq_false_iff.1 h)

theorem supplyGood_blocked (addr : Nat) (h : s.startBlocked = true) : supplyGood addr s = s := if_pos h

theorem execRailTimeout_fails (die : Nat) (h : s.startBlocked = false) :
    execRailTimeout die s = .next (s.loadPowered.startFault 0xD (packFields [(24, 0x0B), (16, die % 256)]) 5 0x0B die) :=
  congrArg Host.Outcome.next ((if_neg (Bool.eq_false_iff.1 h)).trans (State.hardwareFault_eq ..))

theorem execRailTimeout_blocked (die : Nat) (h : s.startBlocked = true) : execRailTimeout die s = .next s :=
  congrArg Host.Outcome.next (if_pos h)

theorem State.loadPowered_reg (s : State) : s.loadPowered.reg R.PWR_POWERED = BitVec.ofNat 32 s.pwr.stored := by
  rw [State.loadPowered, State.reg_setRegN, if_pos rfl]

end Supply

/-! ### The read of the identity store and the device secret (R343, R344) -/

/-- What assembly wrote is fixed by the first read; a copy that reads otherwise later is unreadable. -/
theorem ImgSt.readId_lock (i : ImgSt) (x l : List Byte × List Byte) :
    (i.lock = none → (i.readId (some x)).idA = x.1 ∧ (i.readId (some x)).idB = x.2 ∧ (i.readId (some x)).lock = some x) ∧
      (i.lock = some l → (i.readId (some x)).lock = some l ∧ ((i.readId (some x)).idA = l.1 ∨ (i.readId (some x)).idA = []) ∧
        ((i.readId (some x)).idB = l.2 ∨ (i.readId (some x)).idB = [])) := by
  refine ⟨fun h => ?_, fun h => ?_⟩
  · simp only [ImgSt.readId, h, and_self]
  · simp only [ImgSt.readId, h, true_and]
    constructor <;> split <;> simp [*]

section Stages
variable {s : State}

theorem State.formSecret_eq (a b : List Byte) : s.formSecret a b =
    if helperOk a then s.modImg (fun i => { i with att := { i.att with finger := [], secret := some (sha256 (Config.corrected i.att.finger a)) } })
    else if helperOk b then s.modImg (fun i => { i with att := { i.att with finger := [], secret := some (sha256 (Config.corrected i.att.finger b)) } })
    else s.attLost 2 := by
  unfold State.formSecret
  cases helperOk a
  · cases helperOk b <;> rfl
  · rfl

theorem identityStage_eq (seen : Option (List Byte × List Byte)) (fin : List Byte) (h : s.img.stage = 2) :
    identityStage seen fin s = if idValid (s.img.readId seen).idA = false ∧ idValid (s.img.readId seen).idB = false then
      (s.modImg (fun i => i.readId seen)).imageFault 2 0
    else ((s.modImg (fun i => i.readId seen)).modImg (fun i => { i with att := { i.att with finger := fin } })).toStage 3 := by
  refine (if_neg (not_not.2 h)).trans (if_congr ?_ rfl rfl)
  rw [Bool.and_eq_true, Bool.not_eq_true', Bool.not_eq_true']
  exact Iff.rfl

/-! ### The end of a stage (R331) -/

/-- The stage after, with what the records have written in force. -/
def State.stageEnded (s : State) : State := (s.modImg (fun i => { i with worked := true })).takeQuiet.toStage (s.img.stage + 1)

theorem State.stageEnded_spec (s : State) : s.stageEnded.img.stage = s.img.stage + 1 ∧ s.stageEnded.img.worked = false ∧
    s.stageEnded.mem.hbm = s.mem.hbm ∧ s.stageEnded.regs = s.regs ∧ s.stageEnded.out = s.out := by
  simp only [State.stageEnded, State.toStage_frame, State.takeQuiet_frame, State.modImg_frame, and_self, and_true]
  exact ⟨rfl, rfl⟩

/-- Work that is done ends its stage where no record of its phase is left. -/
theorem State.workDone_ends (h6 : 6 ≤ s.img.stage) (h8 : s.img.stage ≤ 8) (hp : s.recPending = false) :
    (s.modImg (fun i => { i with worked := true })).stageDone = s.stageEnded := by
  refine if_pos ?_
  show (true && !s.recPending && decide (6 ≤ s.img.stage) && decide (s.img.stage ≤ 8)) = true
  rw [hp, decide_eq_true h6, decide_eq_true h8]
  rfl

theorem State.stageDone_recs (s : State) : s.stageDone.img.recs = s.img.recs := by
  unfold State.stageDone
  split
  · show s.takeQuiet.img.recs = s.img.recs
    simp only [State.takeQuiet_frame]
  · rfl

theorem recordsStage_ends (h : s.img.stage = 6) (hp : s.recPending = false) : recordsStage s = s.stageEnded :=
  (if_pos ⟨h, hp⟩).trans (State.workDone_ends (by omega) (by omega) hp)

theorem linksStage_ends (h : s.img.stage = 8) (hw : s.img.worked = false) (hp : s.recPending = false) : linksStage s = s.stageEnded := by
  refine (if_neg ?_).trans (State.workDone_ends (by omega) (by omega) hp)
  rw [decide_eq_false (not_not.2 h), hw]
  decide

theorem linksStage_off (h : s.img.stage ≠ 8) : linksStage s = s := by
  refine if_pos ?_
  rw [decide_eq_true h]
  rfl

theorem hbmStage_loads (h : s.img.stage = 7) (hw : s.img.worked = false) :
    hbmStage none s = ((s.loadHbm s.img.cache).modImg (fun i => { i with worked := true })).stageDone := by
  refine if_neg ?_
  rw [decide_eq_false (not_not.2 h), hw]
  decide

/-- In READY no failure of start-up's hardware is one. -/
theorem hbmStage_ready (h : s.img.stage = 0xB) (failed : Option StartFail) : hbmStage failed s = s := by
  cases failed with
  | none =>
    refine if_pos ?_
    rw [h]
    rfl
  | some f =>
    cases f <;> exact if_neg (by omega)

theorem State.sweptAll_iff : s.sweptAll = true ↔ ∀ k < 16, (s.kao k).swept = 2 ^ 1632 - 1 := by
  rw [State.sweptAll, List.all_eq_true]
  exact forall_congr' fun k => by rw [List.mem_range, decide_eq_true_eq]

/-! ### FINAL_STAGE -/

/-- Start-up has ended: READY, the group formed, training idle. -/
theorem finalStage_ready (ms : Nat) (h : s.img.stage = 0xA) (hp : s.recPending = false) :
    (finalStage ms s).img.stage = 0xB ∧ (finalStage ms s).stp.phase = .idle ∧ (finalStage ms s).regF R.IMG_STATUS 19 8 = min 4095 ms ∧
      (finalStage ms s).red.formed = true := by
  have heq : finalStage ms s = ((s.formGroup.takePolicy.formatsStart.setRegF R.IMG_STATUS 19 8 (min 4095 ms)).modStp
      (fun x => { x with phase := .idle })).toStage 0xB := if_pos ⟨h, hp⟩
  have htime := State.regF_setRegF_self s.formGroup.takePolicy.formatsStart R.IMG_STATUS (hi := 19) (lo := 8) (by decide) (by decide) (min 4095 ms)
  have hred : s.formGroup.takePolicy.formatsStart.red = s.formGroup.red := by simp only [State.formatsStart_frame, State.takePolicy_frame]
  rw [heq]
  refine ⟨rfl, rfl, htime.trans (Nat.mod_eq_of_lt (by omega)), ?_⟩
  exact congrArg RedSt.formed hred

/-! ### The records (R338) -/

/-- In READY no record runs. -/
theorem State.nextInit_ready (hs : s.img.stage = 0xB) (hw : s.img.worked = false) (op : Nat) : s.nextInit op = none := by
  refine if_neg ?_
  rw [hw, hs]
  decide

/-- Without a record that is next, no command of records does anything. -/
theorem records_none (h : ∀ op, s.nextInit op = none) : recordWrite s = s ∧ recordModify s = s ∧ recordPoll s = s ∧
    execPollTimeout s = .next s ∧ execRecordDelay s = .next s := by
  simp only [recordWrite, recordModify, recordPoll, execPollTimeout, execRecordDelay, h, and_self]

end Stages
end Sys2Proof.Machine
end

section
/-! SUPPORT. The power-up sweep of one array (R130 to R132). -/

namespace Sys2Proof.Machine
open Sys2Proof

/-! ### An array after its sweep -/

theorem SweepRead.array_readN (x : PhysSt) (r : SweepRead) : (SweepRead.array x r).readN = x.readN := by
  simp only [SweepRead.array]
  split <;> simp only [PhysSt.withCells, PhysSt.withMeta]

section Swept
variable (x : PhysSt) (seen : Option SweepRead) (reads : List CalRead) (now : Nat)

theorem PhysSt.sweptNow_readN : (x.sweptNow seen reads now).readN = x.readN + 8 := by
  cases seen with
  | none =>
    unfold PhysSt.sweptNow
    dsimp only
  | some r =>
    rw [← SweepRead.array_readN x r]
    unfold PhysSt.sweptNow
    dsimp only

theorem PhysSt.confirms_some {r : ArrRec} (h : x.record = some r) : x.confirms = (!r.retired && decide (x.codeHash = r.hash)) := by
  rw [PhysSt.confirms, h]

theorem PhysSt.confirms_none (h : x.record = none) : x.confirms = false := by
  rw [PhysSt.confirms, h]

end Swept

/-! ### SWEEP_ARRAY -/

/-- An array is swept, and its die counts it. -/
def State.arraySwept (s : State) (k a : Nat) (seen : Option SweepRead) (reads : List CalRead) : State :=
  (s.setPhys k a ((s.phys k a).sweptNow seen reads s.time)).setKao k { s.kao k with swept := (s.kao k).swept + 2 ^ a }

/-- A position is confirmed where a confirmed array of the tile names it. -/
def State.confirmPos (s : State) (k a p : Nat) : State := s.setPos k p { s.pos k p with unconf := !(s.tileConfirms k (a / 17) p) }

section Sweep
variable {s : State} {k a : Nat} {seen : Option SweepRead} {reads : List CalRead}

theorem State.arraySwept_phys : (s.arraySwept k a seen reads).phys k a = (s.phys k a).sweptNow seen reads s.time :=
  s.phys_setPhys k a _

theorem State.arraySwept_kao : (s.arraySwept k a seen reads).kao k = { s.kao k with swept := (s.kao k).swept + 2 ^ a } :=
  State.kao_setKao ..

/-- An array that confirms confirms the position its record names. -/
theorem State.arraySwept_confirms {r : ArrRec} (hr : (s.phys k a).record = some r) (hc : (s.phys k a).confirms = true) :
    (s.arraySwept k a none reads).tileConfirms k (a / 17) r.pos = true := by
  refine List.any_eq_true.2 ⟨a % 17, List.mem_range.2 (Nat.mod_lt a (by decide)), ?_⟩
  rw [Nat.div_add_mod, State.arraySwept_phys]
  have hrec : ((s.phys k a).sweptNow none reads s.time).record = some r := hr
  have hconf : ((s.phys k a).sweptNow none reads s.time).confirmed = true := hc
  simp only [hrec, hconf, decide_true, Bool.and_self]

theorem sweepArray_none (h : s.img.stage ≠ 9 ∨ (s.kao k).swept.testBit a = true) : sweepArray k a seen reads s = s := by
  refine if_neg ?_
  rintro ⟨hs, hb⟩
  rcases h with h | h
  · exact h hs
  · rw [h] at hb
    cases hb

variable (hs : s.img.stage = 9) (hb : (s.kao k).swept.testBit a = false)
include hs hb

theorem sweepArray_eq : sweepArray k a seen reads s = match ((s.phys k a).sweptNow seen reads s.time).record with
    | some r => if (s.posMat k r.pos).isSome && !r.retired then (s.arraySwept k a seen reads).confirmPos k a r.pos else s.arraySwept k a seen reads
    | none => s.arraySwept k a seen reads :=
  if_pos ⟨hs, hb⟩

/-- What the confirmation of a position keeps, the sweep of an array keeps. -/
theorem sweepArray_keeps {β : Type} (g : State → β) (h : ∀ t p x, g (State.setPos t k p x) = g t) :
    g (sweepArray k a seen reads s) = g (s.arraySwept k a seen reads) := by
  rw [sweepArray_eq hs hb]
  split
  · split
    · exact h ..
    · rfl
  · rfl

/-- An array without a record changes no position. -/
theorem sweepArray_blank (hr : (s.phys k a).record = none) : sweepArray k a none reads s = s.arraySwept k a none reads := by
  have hrec : ((s.phys k a).sweptNow none reads s.time).record = none := hr
  rw [sweepArray_eq hs hb, hrec]

/-- The position that the record of an array in use names is confirmed or not. -/
theorem sweepArray_named {r : ArrRec} (hr : (s.phys k a).record = some r) (hret : r.retired = false) (hm : (s.posMat k r.pos).isSome = true) :
    sweepArray k a none reads s = (s.arraySwept k a none reads).confirmPos k a r.pos := by
  have hrec : ((s.phys k a).sweptNow none reads s.time).record = some r := hr
  rw [sweepArray_eq hs hb, hrec]
  refine if_pos ?_
  rw [hm, hret]
  rfl

end Sweep
end Sys2Proof.Machine

namespace Sys2Proof.Proofs
open Sys2Proof Sys2Proof.Machine

/-- Settles O56: a command takes the branch its stage and its findings name; a fault state brings the links down; a swept array confirms the
position its record names. -/
theorem startUp : Obligations.StartUp := by
  refine ⟨?supply, ?stored, ?noSupply, ?railTimeout, ?imageFault, ?rom, ?identity, ?readId, ?sfdp, ?image, ?secret, ?verify, ?firmware,
    ?records, ?hbm, ?part, ?die, ?links, ?sweepStage, ?final, ?ready, ?write, ?modify, ?poll, ?delay, ?swept, ?sweptAsHeld, ?confirms,
    ?sweptBlank, ?sweptNamed, ?notSwept⟩
  case supply =>
    intro s a hh hl hg
    refine ⟨_, congrArg Host.Outcome.next (supplyGood_starts a (State.startBlocked_eq_false hh hl hg)), rfl, rfl, rfl, ?_, rfl, rfl⟩
    exact State.loadPowered_reg _
  case stored =>
    intro p m n hm hn ha hb
    exact PwrSt.stored_eq hm hn ha hb
  case noSupply =>
    intro s a h
    have hblocked := State.startBlocked_eq_true h
    exact ⟨congrArg Host.Outcome.next (supplyGood_blocked a hblocked), execRailTimeout_blocked a hblocked⟩
  case railTimeout =>
    intro s a hh hl hg
    have himg := s.loadPowered.startFault_img 0xD (packFields [(24, 0x0B), (16, a % 256)]) 5 0x0B a
    obtain ⟨hmem, -, hpwr⟩ := s.loadPowered.startFault_frame 0xD (packFields [(24, 0x0B), (16, a % 256)]) 5 0x0B a
    refine ⟨_, execRailTimeout_fails a (State.startBlocked_eq_false hh hl hg), by rw [himg], ?_, ?_, State.startFault_fault ..,
      State.startFault_event .., hmem, hpwr⟩
    · rw [State.housed, himg]
      exact Bool.or_true _
    · rw [State.startFault_reg _ _ _ _ _ _ (by decide) (by decide) (by decide) (by decide), State.loadPowered_reg]
  case imageFault =>
    intro s cause i
    obtain ⟨hmem, hout, -⟩ := s.startFault_frame 0xC (packFields [(24, cause), (0, i % 65536)]) (if cause = 2 then 5 else 2) cause i
    exact ⟨_, s.imageFault_eq cause i, by rw [State.startFault_img], State.startFault_fault .., State.startFault_event ..,
      s.startFault_links _ _ _ _ _, hmem, hout⟩
  case rom =>
    intro s hr hs
    exact congrArg Host.Outcome.next (if_pos ⟨hr, hs⟩)
  case identity =>
    intro s seen fin hs
    exact ⟨_, rfl, congrArg Host.Outcome.next (identityStage_eq seen fin hs)⟩
  case readId =>
    intro i x l
    exact i.readId_lock x l
  case sfdp =>
    intro s hs
    exact congrArg Host.Outcome.next (if_pos hs)
  case image =>
    intro s u v img dev hs hv hu
    subst hv hu
    exact congrArg Host.Outcome.next (if_neg (not_not.2 hs))
  case secret =>
    intro s a b
    refine ⟨fun ha => ?_, fun ha hb => ?_, fun ha hb => ?_⟩
    · rw [State.formSecret_eq, ha]
      rfl
    · rw [State.formSecret_eq, ha, hb]
      rfl
    · rw [State.formSecret_eq, ha, hb]
      rfl
  case verify =>
    intro s p hs
    exact congrArg Host.Outcome.next (if_neg (not_not.2 hs))
  case firmware =>
    intro s hs
    exact congrArg Host.Outcome.next (if_pos hs)
  case records =>
    intro s hs hp
    have hend := s.stageEnded_spec
    rw [hs] at hend
    exact ⟨_, congrArg Host.Outcome.next (recordsStage_ends hs hp), hend⟩
  case hbm =>
    intro s hs hw
    exact ⟨fun u => congrArg Host.Outcome.next (if_pos ⟨hs, hw⟩), congrArg Host.Outcome.next (hbmStage_loads hs hw)⟩
  case part =>
    intro s k h
    exact congrArg Host.Outcome.next (if_pos h)
  case die =>
    intro s d h2 hA
    exact congrArg Host.Outcome.next (if_pos ⟨h2, hA⟩)
  case links =>
    intro s hs hw hp
    obtain ⟨hstage, -, hhbm, hregs, hout⟩ := s.stageEnded_spec
    rw [hs] at hstage
    exact ⟨_, congrArg Host.Outcome.next (linksStage_ends hs hw hp), hstage, hhbm, hregs, hout⟩
  case sweepStage =>
    intro s hs
    refine ⟨fun hall => ?_, fun k hk hne => ?_⟩
    · exact congrArg Host.Outcome.next (if_pos ⟨hs, State.sweptAll_iff.2 hall⟩)
    · exact congrArg Host.Outcome.next (if_neg fun h => hne (State.sweptAll_iff.1 h.2 k hk))
  case final =>
    intro s ms hs hp
    obtain ⟨hstage, hphase, htime, hformed⟩ := finalStage_ready ms hs hp
    exact ⟨finalStage ms s, rfl, hstage, decide_eq_true hstage, hphase, htime, hformed⟩
  case ready =>
    intro s seen fin img dev p u ms hs hw
    have hne : ∀ n, n ≠ 0xB → s.img.stage ≠ n := fun n hn h => hn (h.symm.trans hs)
    obtain ⟨hwrite, hmodify, hpoll, htimeout, hdelay⟩ := records_none (State.nextInit_ready hs hw)
    exact ⟨congrArg Host.Outcome.next (if_neg fun h => hne 1 (by decide) h.2), congrArg Host.Outcome.next (if_pos (hne 2 (by decide))),
      congrArg Host.Outcome.next (if_neg (hne 3 (by decide))), congrArg Host.Outcome.next (if_pos (hne 3 (by decide))),
      congrArg Host.Outcome.next (if_pos (hne 4 (by decide))), congrArg Host.Outcome.next (if_neg (hne 5 (by decide))),
      congrArg Host.Outcome.next (if_neg fun h => hne 6 (by decide) h.1), congrArg Host.Outcome.next (hbmStage_ready hs u),
      congrArg Host.Outcome.next (linksStage_off (hne 8 (by decide))), congrArg Host.Outcome.next (if_neg fun h => hne 9 (by decide) h.1),
      congrArg Host.Outcome.next (if_neg fun h => hne 0xA (by decide) h.1), congrArg Host.Outcome.next hwrite,
      congrArg Host.Outcome.next hmodify, congrArg Host.Outcome.next hpoll, htimeout, hdelay⟩
  case write =>
    intro s r h
    show Host.Outcome.next (recordWrite s) = _
    simp only [recordWrite, h]
    rfl
  case modify =>
    intro s r x h hx
    subst hx
    show Host.Outcome.next (recordModify s) = _
    simp only [recordModify, h]
    rfl
  case poll =>
    intro s r x h hx
    subst hx
    show Host.Outcome.next (recordPoll s) = _ ∧ execPollTimeout s = _
    simp only [recordPoll, execPollTimeout, h, and_true]
    rfl
  case delay =>
    intro s r h
    have hrun : execRecordDelay s = Host.Outcome.next (s.recRun r) := by simp only [execRecordDelay, h]
    refine ⟨_, hrun, rfl, State.stageDone_recs _, ?_⟩
    simp only [State.recRun_frame]
  case swept =>
    intro s k a seen reads hs hb
    have hphys := (sweepArray_keeps hs hb (fun t => t.phys k a) (fun _ _ _ => rfl)).trans (State.arraySwept_phys (seen := seen) (reads := reads))
    have hkao := (sweepArray_keeps hs hb (fun t => t.kao k) (fun _ _ _ => rfl)).trans (State.arraySwept_kao (seen := seen) (reads := reads))
    refine ⟨sweepArray k a seen reads s, rfl, ?_, ?_, ?_, ?_, ?_, ?_, ?_⟩
    · exact (congrArg PhysSt.readN hphys).trans (PhysSt.sweptNow_readN ..)
    · exact congrArg PhysSt.lastRead hphys
    · exact congrArg (fun x : PhysSt => x.fit.isSome) hphys
    · exact congrArg PhysSt.reads hphys
    · exact congrArg KaolinSt.swept hkao
    · exact sweepArray_keeps hs hb State.mem (fun _ _ _ => rfl)
    · exact sweepArray_keeps hs hb State.regs (fun _ _ _ => rfl)
  case sweptAsHeld =>
    intro s k a reads hs hb
    have hphys := (sweepArray_keeps hs hb (fun t => t.phys k a) (fun _ _ _ => rfl)).trans (State.arraySwept_phys (seen := none) (reads := reads))
    refine ⟨sweepArray k a none reads s, rfl, ?_⟩
    rw [show (sweepArray k a none reads s).phys k a = _ from hphys]
    exact ⟨rfl, rfl, rfl⟩
  case confirms =>
    intro x r h
    exact x.confirms_some h
  case sweptBlank =>
    intro s k a reads hs hb hr
    refine ⟨_, congrArg Host.Outcome.next (sweepArray_blank hs hb hr), rfl, ?_⟩
    rw [State.arraySwept_phys]
    exact PhysSt.confirms_none _ hr
  case sweptNamed =>
    intro s k a reads r hs hb hr hret hm
    refine ⟨_, congrArg Host.Outcome.next (sweepArray_named hs hb hr hret hm), ?_, fun hc => ?_, fun p hp => ?_⟩
    · rw [State.confirmPos, State.pos_setPos]
      rfl
    · rw [State.confirmPos, State.pos_setPos]
      exact congrArg not (State.arraySwept_confirms hr hc)
    · exact State.pos_setPos_ne _ _ hp
  case notSwept =>
    intro s k a seen reads h
    exact congrArg Host.Outcome.next (sweepArray_none h)

end Sys2Proof.Proofs
end

section
/-! SUPPORT. Twill instructions where the unit issues them: integer elements, mask registers, and mask destination M0. -/

namespace Sys2Proof.Machine
open Sys2Proof

/-- The integer element types are those of the instructions of R143. -/
theorem TwillWord.intTypes {w : TwillWord} (h : w.isFloat = false) : [2, 3].contains w.ty.val = true := by
  obtain ⟨h0, h1⟩ : w.ty ≠ 0 ∧ w.ty ≠ 1 := by simpa [TwillWord.isFloat] using h
  have := w.ty.isLt
  simp only [List.contains_cons, List.contains_nil, Bool.or_false, Bool.or_eq_true, beq_iff_eq]
  omega

/-- Every element type is one of the four. -/
theorem TwillWord.anyType (w : TwillWord) : [0, 1, 2, 3].contains w.ty.val = true := by
  have := w.ty.isLt
  simp only [List.contains_cons, List.contains_nil, Bool.or_false, Bool.or_eq_true, beq_iff_eq]
  omega

/-- An instruction does its work where the unit issues it, and changes nothing where it does not. -/
theorem twIssue_split (P : State → Prop) {d u op : Nat} {w : TwillWord} {s : State} {f : Nat → State → State} (h : P (f op s)) :
    (s.issues d u op w = true → P (twIssue d u op w s f)) ∧ (s.issues d u op w = false → twIssue d u op w s f = s) :=
  ⟨fun hi => (twIssue_of hi f).symm ▸ h, fun hi => twIssue_not hi f⟩

section Integer
variable {s : State} {d u op : Nat} {w : TwillWord} {x : UnitSt}
  (hm : s.midProgram d u = true) (hw : w.isFloat = false) (hc : w.ctl ≠ 7) (hx : s.unit (d * 32 + u) = x)
include hm hw hc hx

/-- An element-wise integer instruction raises no flag (R135, R143). -/
theorem twInt_gives (f : TwillWord → UnitSt → Nat → Nat) :
    (s.issues d u op w = true → twGives d u w s (twIssue d u op w s (fun op s => twElems d u op [2, 3] w s (fun w x e => (f w x e, 0))))
      (f w x) 0) ∧
    (s.issues d u op w = false → twIssue d u op w s (fun op s => twElems d u op [2, 3] w s (fun w x e => (f w x e, 0))) = s) := by
  subst hx
  refine twIssue_split (fun t => twGives d u w s t (f w (s.unit (d * 32 + u))) 0) ?_
  have h := twElems_gives (op := op) (f := fun w x e => (f w x e, 0)) hm (TwillWord.intTypes hw) hc
  rwa [UnitSt.orFlags_zero] at h

end Integer

/-- A result wraps to the residue modulo the element size (R143). -/
theorem toTwos_wraps (n : Nat) (z : Int) : (toTwos n z : Int) = z % 2 ^ n ∧ toTwos n z < 2 ^ n := by
  have hp : (0 : Int) < ((2 ^ n : Nat) : Int) := by exact_mod_cast Nat.two_pow_pos n
  have h1 := Int.emod_nonneg z hp.ne'
  have h2 := Int.emod_lt_of_pos z hp
  have hz : (toTwos n z : Int) = z % ((2 ^ n : Nat) : Int) := Int.toNat_of_nonneg h1
  refine ⟨by rw [hz]; push_cast; rfl, ?_⟩
  omega

end Sys2Proof.Machine

namespace Sys2Proof.Proofs
open Sys2Proof Sys2Proof.Machine

/-- Settles O28: every form is an element-wise integer instruction of one function of its operands. -/
theorem integerInstructions : Obligations.IntegerInstructions := by
  refine ⟨?forms, ?wraps⟩
  case forms =>
    intro s d u w x hm hw hc hx
    exact ⟨⟨_, rfl, twInt_gives hm hw hc hx fun _ _ e => e⟩,
      ⟨_, rfl, twInt_gives hm hw hc hx fun w x e => toTwos w.bits (x.is1 w e + x.is2 w e)⟩,
      ⟨_, rfl, twInt_gives hm hw hc hx fun w x e => toTwos w.bits (x.is1 w e + sext w.bits (w.immE e))⟩,
      ⟨_, rfl, twInt_gives hm hw hc hx fun w x e => toTwos w.bits (x.is1 w e - x.is2 w e)⟩,
      ⟨_, rfl, twInt_gives hm hw hc hx fun w x e => toTwos w.bits (x.is1 w e * x.is2 w e)⟩,
      ⟨_, rfl, twInt_gives hm hw hc hx fun w x e => toTwos w.bits (max (x.is1 w e) (x.is2 w e))⟩,
      ⟨_, rfl, twInt_gives hm hw hc hx fun w x e => toTwos w.bits (min (x.is1 w e) (x.is2 w e))⟩,
      ⟨_, rfl, twInt_gives hm hw hc hx fun w x e => x.elem w w.s1.val e &&& x.elem w w.s2.val e⟩,
      ⟨_, rfl, twInt_gives hm hw hc hx fun w x e => x.elem w w.s1.val e ||| x.elem w w.s2.val e⟩,
      ⟨_, rfl, twInt_gives hm hw hc hx fun w x e => x.elem w w.s1.val e ^^^ x.elem w w.s2.val e⟩,
      ⟨_, rfl, twInt_gives hm hw hc hx fun w x e => x.elem w w.s1.val e <<< shAmt w⟩,
      ⟨_, rfl, twInt_gives hm hw hc hx fun w x e => toTwos w.bits (x.is1 w e >>> shAmt w)⟩,
      ⟨_, rfl, twInt_gives hm hw hc hx fun w x e => x.elem w w.s1.val e >>> shAmt w⟩⟩
  case wraps =>
    intro w z
    exact toTwos_wraps w.bits z

/-- Settles O30: every form is an element-wise instruction; the special operands take their branches, the open ones the value within the
bound. -/
theorem specialFunctions : Obligations.SpecialFunctions := by
  refine ⟨?forms, ?table, ?tanhLarge, ?openBound, ?tanhBound, ?within⟩
  case forms =>
    intro s d u w x hm hw hc hx
    exact ⟨⟨_, rfl, twFloat_gives hm hw hc hx fun w x e => sfElem w sfExp2 (x.fs1 w e)⟩,
      ⟨_, rfl, twFloat_gives hm hw hc hx fun w x e => sfElem w sfLog2 (x.fs1 w e)⟩,
      ⟨_, rfl, twFloat_gives hm hw hc hx fun w x e => sfElem w (sfRcp w.ctl.val) (x.fs1 w e)⟩,
      ⟨_, rfl, twFloat_gives hm hw hc hx fun w x e => sfElem w sfRsqrt (x.fs1 w e)⟩,
      ⟨_, rfl, twFloat_gives hm hw hc hx fun w x e => sfElem w sfTanh (x.fs1 w e)⟩⟩
  case table =>
    intro n m e c hpos
    have hm : m ≠ 0 := Nat.ne_of_gt hpos
    have exp2Large (h : XNum.le (.fin false 1 7) (.fin n m e) = true) : sfExp2 (.fin n m e) = (0x7F800000, flOF ||| flNX) := if_pos h
    have log2Neg : sfLog2 (.fin true m e) = (0x7FC00000, flNV) := if_neg hm
    have rcpFinite : sfRcp c (.fin n m e) = roundF FF.fp32 c false (XNum.div (.fin false 1 0) (.fin n m e)) := if_neg hm
    have rsqrtNeg : sfRsqrt (.fin true m e) = (0x7FC00000, flNV) := if_neg hm
    exact ⟨rfl, rfl, exp2Large, rfl, log2Neg, rfl, rfl, rfl, rfl, rfl, rfl, rfl, rcpFinite, rfl, rfl, rsqrtNeg, rfl, rfl, rfl,
      rfl, rfl, rfl, rfl, rfl⟩
  case tanhLarge =>
    intro n m e hle hlt
    simp only [sfTanh, hlt, hle]
    cases n <;> rfl
  case openBound =>
    intro m e hpos hlarge hone
    have hm : m ≠ 0 := Nat.ne_of_gt hpos
    refine ⟨fun n => ?_, ?_, ?_⟩
    · cases h : XNum.le (.fin false 1 7) (.fin n m e)
      · exact .inl ⟨_, by simp only [sfExp2, h, exp2Open]; rfl⟩
      · exact .inr rfl
    · exact ⟨_, by simp only [sfLog2, hm, hone, log2Open]; rfl⟩
    · exact ⟨_, by simp only [sfRsqrt, hm, rsqrtOpen]; rfl⟩
  case tanhBound =>
    intro n m e hle hlt
    exact ⟨_, by simp only [sfTanh, hle, hlt, tanhOpen]; rfl⟩
  case within =>
    intro b r v
    simp only [sfWithin, ← Bool.and_eq_true]
    split
    · next h => exact .inl h
    · exact .inr rfl

end Sys2Proof.Proofs
end

section
/-! SUPPORT. Compares and mask instructions with mask register M0 as destination, and compares of a NaN. -/

namespace Sys2Proof.Machine
open Sys2Proof

/-- A write to M0 is discarded (R134). -/
@[simp] theorem UnitSt.setMask_zero (x : UnitSt) (v : Nat) : x.setMask 0 v = x := if_pos rfl

section Discarded
variable {s : State} {d u op : Nat} {w : TwillWord} {x : UnitSt} (hm : s.midProgram d u = true) (hx : s.unit (d * 32 + u) = x)
include hm hx

/-- A compare whose destination is M0 only steps (R134, R144). -/
theorem twCompare_discarded {tys : List Nat} {f : UnitSt → Nat → Bool} (ht : tys.contains w.ty.val = true) (hd : w.d.val = 0)
    (hc : w.isFloat = true ∨ w.ctl.val < 6) :
    stepsUnit s (twCompare d u op tys w s f) (d * 32 + u) { x with pc := (x.pc + 1) % 2048 } := by
  have hr : (tys.contains w.ty.val && decide (w.d.val < 8) && (w.isFloat || decide (w.ctl.val < 6))) = true := by
    rw [ht, hd]; rcases hc with h | h <;> simp [h]
  have h := twDone_mid hm false 0 x (by rw [hx]) (by rw [hx]) (by rw [hx])
  unfold twCompare
  rw [if_pos hr]
  dsimp only
  rw [hd, UnitSt.setMask_zero, hx]
  simpa using h

/-- A mask instruction whose destination is M0 only steps (R134, R139). -/
theorem twMask_discarded {f : Nat → Nat → Nat} (hc : w.ctl ≠ 7) (hd : w.d.val % 8 = 0) :
    stepsUnit s (twMask d u op w s f) (d * 32 + u) { x with pc := (x.pc + 1) % 2048 } := by
  have hmask v : x.setMask (w.d.val % 8) v = x := by rw [hd, UnitSt.setMask_zero]
  have h := twRun_steps (op := op) (f := fun w x => (x.setMask (w.d.val % 8) (f (x.maskR (w.s1.val % 8)) (x.maskR (w.s2.val % 8))), 0))
    hm (TwillWord.anyType w) hc rfl (by rw [hx, hmask]) (by rw [hx, hmask]) (by rw [hx, hmask])
  simp only [hx, hmask] at h
  exact h

end Discarded

@[simp] theorem XNum.lt_nan (a : XNum) : a.lt .nan = false := by cases a <;> rfl
@[simp] theorem XNum.nan_lt (a : XNum) : XNum.lt .nan a = false := rfl
@[simp] theorem XNum.eq_nan (a : XNum) : a.eq .nan = false := by cases a <;> rfl
@[simp] theorem XNum.nan_eq (a : XNum) : XNum.eq .nan a = false := rfl

/-- A floating comparison with a NaN is false but for NE and UNORD (R144). -/
theorem fCond_nan {c : Nat} (hc : c < 8) (a : XNum) :
    fCond c .nan a = decide (c = 1 ∨ c = 6) ∧ fCond c a .nan = decide (c = 1 ∨ c = 6) := by
  interval_cases c <;> simp [fCond, XNum.le, XNum.isNan]

end Sys2Proof.Machine

namespace Sys2Proof.Proofs
open Sys2Proof Sys2Proof.Machine

/-- Settles O31: a compare or mask instruction writes the bits of one mask register, or none where that is M0; VSEL writes elements under
the mask M0. -/
theorem comparesAndMasks : Obligations.ComparesAndMasks := by
  refine ⟨?floatCompares, ?intCompares, ?comparesToM0, ?nan, ?masks, ?masksToM0, ?select⟩
  case floatCompares =>
    intro s d u w x hm hw hd h0 hx
    subst hx
    have gives op f := twCompare_gives (op := op) (f := f) hm (TwillWord.floatTypes hw) hd h0 (.inl hw)
    exact ⟨⟨_, rfl, twIssue_split (twMaskOf d u w.d.val s · _) (gives ..)⟩,
      ⟨_, rfl, twIssue_split (twMaskOf d u w.d.val s · _) (gives ..)⟩⟩
  case intCompares =>
    intro s d u w x hm hw hc hd h0 hx
    subst hx
    have gives op f := twCompare_gives (op := op) (f := f) hm (TwillWord.intTypes hw) hd h0 (.inr hc)
    exact ⟨⟨_, rfl, twIssue_split (twMaskOf d u w.d.val s · _) (gives ..)⟩,
      ⟨_, rfl, twIssue_split (twMaskOf d u w.d.val s · _) (gives ..)⟩⟩
  case comparesToM0 =>
    intro s d u w x hm hd hx
    refine ⟨fun hw => ?_, fun hw hc => ?_⟩
    · have steps op f := twCompare_discarded (op := op) (f := f) hm hx (TwillWord.floatTypes hw) hd (.inl hw)
      exact ⟨⟨_, rfl, twIssue_split (stepsUnit s · _ _) (steps ..)⟩, ⟨_, rfl, twIssue_split (stepsUnit s · _ _) (steps ..)⟩⟩
    · have steps op f := twCompare_discarded (op := op) (f := f) hm hx (TwillWord.intTypes hw) hd (.inr hc)
      exact ⟨⟨_, rfl, twIssue_split (stepsUnit s · _ _) (steps ..)⟩, ⟨_, rfl, twIssue_split (stepsUnit s · _ _) (steps ..)⟩⟩
  case nan =>
    intro c a hc
    exact fCond_nan hc a
  case masks =>
    intro s d u w x hm hc h0 hx
    subst hx
    have gives op f p hp := twMask_gives (op := op) (f := f) (p := p) hm hc h0 hp
    refine ⟨⟨_, rfl, twIssue_split (twMaskOf d u (w.d.val % 8) s · _) (gives _ _ (fun a b => a && b) fun a b e _ => Nat.testBit_and a b e)⟩,
      ⟨_, rfl, twIssue_split (twMaskOf d u (w.d.val % 8) s · _) (gives _ _ (fun a b => a || b) fun a b e _ => Nat.testBit_or a b e)⟩,
      ⟨_, rfl, twIssue_split (twMaskOf d u (w.d.val % 8) s · _) (gives _ _ (fun a b => a != b) fun a b e _ => Nat.testBit_xor a b e)⟩,
      ⟨_, rfl, twIssue_split (twMaskOf d u (w.d.val % 8) s · _) (gives _ _ (fun a b => a && !b) fun a b e he => ?_)⟩⟩
    rw [Nat.testBit_and, Nat.testBit_xor, Nat.testBit_two_pow_sub_one, decide_eq_true he, Bool.true_xor]
  case masksToM0 =>
    intro s d u w x hm hc hd hx
    have steps op f := twMask_discarded (op := op) (f := f) hm hx hc hd
    exact ⟨⟨_, rfl, twIssue_split (stepsUnit s · _ _) (steps ..)⟩, ⟨_, rfl, twIssue_split (stepsUnit s · _ _) (steps ..)⟩,
      ⟨_, rfl, twIssue_split (stepsUnit s · _ _) (steps ..)⟩, ⟨_, rfl, twIssue_split (stepsUnit s · _ _) (steps ..)⟩⟩
  case select =>
    intro s d u w x hm hc hx
    subst hx
    exact ⟨_, rfl, twIssue_split (twGives d u { w with m := 0 } s · _ 0)
      (twRun_gives (w' := { w with m := 0 }) hm (TwillWord.anyType w) hc rfl rfl rfl)⟩

end Sys2Proof.Proofs
end

section
/-! SUPPORT. Reductions and permutations: the shape of their results, integer sums in either order, the first extreme of a rising list. -/

namespace Sys2Proof.Machine
open Sys2Proof

/-! ### What is written (R156, R158) -/

section Lanes
variable {s : State} {d u op : Nat} {w : TwillWord} {x : UnitSt}
  (hm : s.midProgram d u = true) (hc : w.ctl ≠ 7) (hx : s.unit (d * 32 + u) = x)
include hm hc hx

/-- A reduction writes its value to lane 0 and its second word to lane 1 (R156). -/
theorem twReduce_gives {f : TwillWord → UnitSt → UnitSt × Nat} (hf : ∃ v c fl, f w x = (x.setRed w v c, fl)) :
    (s.issues d u op w = true → ∃ v c fl, f w x = (x.setRed w v c, fl) ∧
      twLanes d u w s (twIssue d u op w s (fun op s => twRun d u op [0, 1, 2, 3] w s f))
        (fun i => if i = 0 then BitVec.ofNat 32 v else if i = 1 then BitVec.ofNat 32 c else if w.zero then 0 else x.lane w.d.val i) fl) ∧
    (s.issues d u op w = false → twIssue d u op w s (fun op s => twRun d u op [0, 1, 2, 3] w s f) = s) := by
  obtain ⟨v, c, fl, hf⟩ := hf
  subst hx
  refine ⟨fun hi => ⟨v, c, fl, hf, ?_⟩, fun hi => twIssue_not hi _⟩
  rw [twIssue_of hi]
  have h := twRun_lanes (op := op) (f := f) hm (TwillWord.anyType w) hc (congrArg Prod.fst hf)
  rwa [hf] at h

/-- A permutation moves the lanes whose index is below VL, and sets PERM_RANGE for an active lane whose index is not (R158). -/
theorem twPermute_gives (src : UnitSt → TwillWord → Nat → Nat) :
    (s.issues d u op w = true → ∃ fl, twLanes d u w s (twIssue d u op w s (fun op s => twRun d u op [0, 1, 2, 3] w s (permute src)))
      (fun i => if x.laneActive w i = true ∧ src x w i < x.vl then x.lane w.s1.val (src x w i) else if w.zero then 0 else x.lane w.d.val i) fl ∧
      (fl = if (List.range 64).any (fun i => x.laneActive w i && decide (x.vl ≤ src x w i)) then flPerm else 0)) ∧
    (s.issues d u op w = false → twIssue d u op w s (fun op s => twRun d u op [0, 1, 2, 3] w s (permute src)) = s) := by
  subst hx
  refine ⟨fun hi => ?_, fun hi => twIssue_not hi _⟩
  rw [twIssue_of hi]
  refine ⟨_, twRun_lanes hm (TwillWord.anyType w) hc ?_, rfl⟩
  simp [permute]

end Lanes

/-- Each reduction writes lanes 0 and 1 and keeps or zeroes the rest (R156). -/
theorem rsumt_shape (w : TwillWord) (x : UnitSt) : ∃ v c fl, rsumt w x = (x.setRed w v c, fl) := by
  unfold rsumt
  dsimp only
  split <;> exact ⟨_, _, _, rfl⟩

theorem rsums_shape (w : TwillWord) (x : UnitSt) : ∃ v c fl, rsums w x = (x.setRed w v c, fl) := by
  unfold rsums
  split <;> exact ⟨_, _, _, rfl⟩

theorem rext_shape (big : Bool) (w : TwillWord) (x : UnitSt) : ∃ v c fl, rext big w x = (x.setRed w v c, fl) := by
  unfold rext
  dsimp only
  split
  · exact ⟨_, _, _, rfl⟩
  · split
    · split <;> exact ⟨_, _, _, rfl⟩
    · exact ⟨_, _, _, rfl⟩

/-! ### Integer sums (R153, R154) -/

/-- The sum modulo 2^32 of two words of which either may be absent. -/
def wordAdd : Option Nat → Option Nat → Option Nat
  | none, y => y
  | x, none => x
  | some a, some b => some ((a + b) % 2 ^ 32)

@[simp] theorem wordAdd_none (a : Option Nat) : wordAdd a none = a := by cases a <;> rfl

theorem wordAdd_assoc (a b c : Option Nat) : wordAdd (wordAdd a b) c = wordAdd a (wordAdd b c) := by
  cases a <;> cases b <;> cases c <;> simp [wordAdd, Nat.add_assoc]

/-- The sum of the values at the nodes of one level of the tree. -/
def nodeTotal (l : List SumNode) : Option Nat := l.foldr (fun a t => wordAdd (a.map Prod.fst) t) none

theorem nodeTotal_cons (a : SumNode) (l : List SumNode) : nodeTotal (a :: l) = wordAdd (a.map Prod.fst) (nodeTotal l) := rfl

theorem joinNode_value {w : TwillWord} (hw : w.isFloat = false) (a b : SumNode) :
    (joinNode w a b).map Prod.fst = wordAdd (a.map Prod.fst) (b.map Prod.fst) := by
  cases a <;> cases b <;> simp [joinNode, wordAdd, sumTwo, hw]

/-- A level of the tree keeps the integer sum. -/
theorem nodeTotal_treeLevel {w : TwillWord} (hw : w.isFloat = false) (l : List SumNode) : nodeTotal (treeLevel w l) = nodeTotal l := by
  fun_induction treeLevel w l with
  | case1 a b rest ih => rw [nodeTotal_cons, ih, joinNode_value hw, wordAdd_assoc]; rfl
  | case2 => rfl

theorem length_treeLevel {w : TwillWord} (l : List SumNode) {k : Nat} (h : l.length = 2 * k) : (treeLevel w l).length = k := by
  fun_induction treeLevel w l generalizing k with
  | case1 a b rest ih =>
    simp only [List.length_cons] at h ⊢
    rw [ih (k := k - 1) (by omega)]
    omega
  | case2 l hl =>
    match l, hl, h with
    | [], _, h => simp at h; simp [h]
    | [_], _, h => simp at h; omega
    | a :: b :: rest, hl, _ => exact absurd rfl (hl a b rest)

/-- The tree over 2^n leaves ends in one node, which holds their sum. -/
theorem treeLevels_root {w : TwillWord} (hw : w.isFloat = false) (n : Nat) {l : List SumNode} (h : l.length = 2 ^ n) :
    ∃ a, treeLevels w n l = [a] ∧ a.map Prod.fst = nodeTotal l := by
  induction n generalizing l with
  | zero =>
    obtain ⟨a, rfl⟩ := List.length_eq_one_iff.mp h
    exact ⟨a, rfl, (wordAdd_none _).symm⟩
  | succ n ih =>
    obtain ⟨a, ha, hv⟩ := ih (length_treeLevel l (h.trans (Nat.pow_succ' ..)))
    exact ⟨a, ha, hv.trans (nodeTotal_treeLevel hw l)⟩

/-- The leaves of the elements that satisfy `p` sum to the words of those elements. -/
theorem nodeTotal_leaves {g : Nat → Nat} (hg : ∀ e, g e < 2 ^ 32) (p : Nat → Bool) (l : List Nat) :
    nodeTotal (l.map (fun e => if p e then some (g e, 0) else none)) =
      if l.filter p = [] then none else some (((l.filter p).map g).sum % 2 ^ 32) := by
  induction l with
  | nil => rfl
  | cons e l ih =>
    have hlt := hg e
    rw [List.map_cons, nodeTotal_cons, ih]
    cases hp : p e
    · simp [hp, wordAdd]
    · by_cases hl : l.filter p = []
      · simpa [hp, hl] using (Nat.mod_eq_of_lt hlt).symm
      · simp [hp, hl, wordAdd]

theorem UnitSt.wide_lt {w : TwillWord} (hw : w.isFloat = false) (x : UnitSt) (e : Nat) : x.wide w e < 2 ^ 32 := by
  simp only [UnitSt.wide, hw]
  exact (toTwos_wraps 32 _).2

/-- One addition of RSUMS, with the flags met so far. -/
def UnitSt.sumStep (x : UnitSt) (w : TwillWord) (a : Nat × Nat) (i : Nat) : Nat × Nat :=
  ((sumTwo w a.1 (x.wide w i)).1, (sumTwo w a.1 (x.wide w i)).2 ||| a.2)

theorem UnitSt.sumStep_int {w : TwillWord} (hw : w.isFloat = false) (x : UnitSt) (a : Nat × Nat) (i : Nat) :
    (x.sumStep w a i).1 = (a.1 + x.wide w i) % 2 ^ 32 := by
  simp [UnitSt.sumStep, sumTwo, hw]

theorem UnitSt.sumFold_int {w : TwillWord} (hw : w.isFloat = false) (x : UnitSt) (es : List Nat) :
    ∀ a : Nat × Nat, a.1 < 2 ^ 32 → (es.foldl (x.sumStep w) a).1 = (a.1 + (es.map (x.wide w)).sum) % 2 ^ 32 := by
  induction es with
  | nil => exact fun a h => (Nat.mod_eq_of_lt h).symm
  | cons e es ih =>
    intro a _
    have hstep := x.sumStep_int hw a e
    rw [List.foldl_cons, ih _ (hstep ▸ Nat.mod_lt _ (Nat.two_pow_pos 32)), hstep, Nat.mod_add_mod, List.map_cons, List.sum_cons, Nat.add_assoc]

/-- RSUMS of integers: the sum modulo 2^32 of the widened active elements (R154). -/
theorem rsums_int {w : TwillWord} (hw : w.isFloat = false) (x : UnitSt) :
    (rsums w x).1 = x.setRed w (((x.actives w).map (x.wide w)).sum % 2 ^ 32) (x.actives w).length := by
  unfold rsums
  cases x.actives w with
  | nil => rfl
  | cons e es => exact congrArg (x.setRed w · _) (x.sumFold_int hw es (x.wide w e, 0) (x.wide_lt hw e))

/-- RSUMT of integers gives what RSUMS gives: the order does not matter (R153). -/
theorem rsumt_int {w : TwillWord} (hw : w.isFloat = false) (x : UnitSt) : (rsumt w x).1 = (rsums w x).1 := by
  have hlen : w.elems = 2 ^ (if w.half then 7 else 6) := by cases h : w.half <;> simp [TwillWord.elems, h]
  obtain ⟨a, ha, hv⟩ := treeLevels_root hw (if w.half then 7 else 6)
    (l := (List.range w.elems).map (fun e => if x.active w e then some (x.wide w e, 0) else none)) (by simp [hlen])
  rw [nodeTotal_leaves (x.wide_lt hw)] at hv
  change a.map Prod.fst = if x.actives w = [] then none else some (((x.actives w).map (x.wide w)).sum % 2 ^ 32) at hv
  rw [rsums_int hw]
  unfold rsumt
  dsimp only
  rw [ha]
  by_cases hnone : x.actives w = []
  · rw [if_pos hnone] at hv
    obtain rfl := Option.map_eq_none_iff.mp hv
    rw [hnone]
    rfl
  · rw [if_neg hnone] at hv
    obtain ⟨r, rfl, hr⟩ := Option.map_eq_some_iff.mp hv
    exact congrArg (x.setRed w · _) hr

/-! ### Extremes (R155) -/

/-- The element that a scan from the first one ends with, `better b e` saying that `e` takes over from `b`. -/
def scanBest (better : Nat → Nat → Bool) (l : List Nat) : Nat := l.foldl (fun b e => if better b e then e else b) (l.headD 0)

/-- A scan of a rising list from an element before it ends with the greatest key, at its lowest index. -/
theorem scan_first {better : Nat → Nat → Bool} {key : Nat → Int} (hk : ∀ b e, better b e = true ↔ key b < key e) (l : List Nat) :
    ∀ b, (b :: l).Pairwise (· < ·) → ∃ r ∈ b :: l, l.foldl (fun b e => if better b e then e else b) b = r ∧
      ∀ e ∈ b :: l, key e < key r ∨ (key e = key r ∧ r ≤ e) := by
  induction l with
  | nil => exact fun b _ => ⟨b, by simp, rfl, by simp⟩
  | cons e l ih =>
    intro b hs
    obtain ⟨hb, hel⟩ := List.pairwise_cons.mp hs
    obtain ⟨-, hl⟩ := List.pairwise_cons.mp hel
    have hbe : b < e := hb e (by simp)
    rw [List.foldl_cons]
    by_cases h : key b < key e
    · obtain ⟨r, hr, hf, hmax⟩ := ih e hel
      rw [if_pos ((hk b e).mpr h)]
      refine ⟨r, List.mem_cons_of_mem b hr, hf, List.forall_mem_cons.mpr ⟨?_, hmax⟩⟩
      have := hmax e (by simp)
      omega
    · obtain ⟨r, hr, hf, hmax⟩ := ih b (List.pairwise_cons.mpr ⟨fun a ha => hb a (List.mem_cons_of_mem e ha), hl⟩)
      obtain ⟨hmaxb, hmaxl⟩ := List.forall_mem_cons.mp hmax
      rw [if_neg (fun hbetter => h ((hk b e).mp hbetter))]
      refine ⟨r, ?_, hf, List.forall_mem_cons.mpr ⟨hmaxb, List.forall_mem_cons.mpr ⟨?_, hmaxl⟩⟩⟩
      · rcases List.mem_cons.mp hr with rfl | hr <;> simp [*]
      · omega

theorem scanBest_first {better : Nat → Nat → Bool} {key : Nat → Int} (hk : ∀ b e, better b e = true ↔ key b < key e) {l : List Nat}
    (hs : l.Pairwise (· < ·)) (hne : l ≠ []) :
    scanBest better l ∈ l ∧ ∀ e ∈ l, key e < key (scanBest better l) ∨ (key e = key (scanBest better l) ∧ scanBest better l ≤ e) := by
  obtain ⟨b, l, rfl⟩ := List.exists_cons_of_ne_nil hne
  obtain ⟨r, hr, hf, hmax⟩ := scan_first hk l b hs
  have hself : better b b = false := Bool.eq_false_iff.mpr fun h => lt_irrefl _ ((hk b b).mp h)
  have hbest : scanBest better (b :: l) = r := by simpa [scanBest, hself] using hf
  exact hbest ▸ ⟨hr, hmax⟩

theorem UnitSt.actives_rising (x : UnitSt) (w : TwillWord) : (x.actives w).Pairwise (· < ·) := List.pairwise_lt_range.filter _

/-- Element `e` takes over from `b` as the extreme so far. -/
def UnitSt.takesOver (big : Bool) (x : UnitSt) (w : TwillWord) (b e : Nat) : Bool :=
  if big then decide (sext 32 (x.wide w b) < sext 32 (x.wide w e)) else decide (sext 32 (x.wide w e) < sext 32 (x.wide w b))

/-- The key that grows towards the extreme. -/
def UnitSt.extKey (big : Bool) (x : UnitSt) (w : TwillWord) (e : Nat) : Int :=
  if big then sext 32 (x.wide w e) else -sext 32 (x.wide w e)

theorem UnitSt.takesOver_iff (big : Bool) (x : UnitSt) (w : TwillWord) (b e : Nat) :
    x.takesOver big w b e = true ↔ x.extKey big w b < x.extKey big w e := by
  cases big <;> simp [UnitSt.takesOver, UnitSt.extKey]

/-- RMAX and RMIN of integers scan the active elements. -/
theorem rext_int {w : TwillWord} (hw : w.isFloat = false) (big : Bool) {x : UnitSt} (h : x.actives w ≠ []) :
    rext big w x = (x.setRed w (x.wide w (scanBest (x.takesOver big w) (x.actives w))) (scanBest (x.takesOver big w) (x.actives w)), 0) := by
  simp only [rext, h, hw]
  rfl

/-- The extreme is that of an active element, the lowest where several have it (R155). -/
theorem rext_first {w : TwillWord} (hw : w.isFloat = false) (big : Bool) {x : UnitSt} (h : x.actives w ≠ []) :
    ∃ b ∈ x.actives w, rext big w x = (x.setRed w (x.wide w b) b, 0) ∧ ∀ e ∈ x.actives w,
      x.extKey big w e < x.extKey big w b ∨ (x.extKey big w e = x.extKey big w b ∧ b ≤ e) := by
  obtain ⟨hmem, hfirst⟩ := scanBest_first (x.takesOver_iff big w) (x.actives_rising w) h
  exact ⟨_, hmem, rext_int hw big h, hfirst⟩

end Sys2Proof.Machine

namespace Sys2Proof.Proofs
open Sys2Proof Sys2Proof.Machine

/-- Settles O35: reductions write two lanes, permutations whole lanes; a level of the tree keeps the integer sum, and the scan of the rising
active elements ends with the first extreme. -/
theorem reductionsAndPermutations : Obligations.ReductionsAndPermutations := by
  refine ⟨?reductions, ?sums, ?extremes, ?empty, ?permutations⟩
  case reductions =>
    intro s d u w x hm hc hx
    exact ⟨⟨_, rfl, twReduce_gives hm hc hx (rsumt_shape w x)⟩, ⟨_, rfl, twReduce_gives hm hc hx (rsums_shape w x)⟩,
      ⟨_, rfl, twReduce_gives hm hc hx (rext_shape true w x)⟩, ⟨_, rfl, twReduce_gives hm hc hx (rext_shape false w x)⟩⟩
  case sums =>
    intro w x hw
    exact ⟨rsums_int hw x, rsumt_int hw x⟩
  case extremes =>
    intro w x e0 hw he
    have hne := List.ne_nil_of_mem he
    refine ⟨rext_first hw true hne, ?_⟩
    obtain ⟨b, hb, hr, hfirst⟩ := rext_first hw false hne
    refine ⟨b, hb, hr, fun e he => (hfirst e he).imp ?_ (And.imp_left ?_)⟩
    · exact neg_lt_neg_iff.mp
    · exact neg_inj.mp
  case empty =>
    intro w x h
    refine ⟨?_, ?_, ?_⟩
    · simp only [rsums, h]
    · simp only [rext, h]; rfl
    · simp only [rext, h]; rfl
  case permutations =>
    intro s d u w x hm hc hx
    exact ⟨⟨_, rfl, twPermute_gives hm hc hx fun x w i => (x.lane w.s2.val i).toNat⟩,
      ⟨_, rfl, twPermute_gives hm hc hx fun _ w _ => w.imm.toNat % 128⟩,
      ⟨_, rfl, twPermute_gives hm hc hx fun _ w i => i + w.imm.toNat % 128⟩,
      ⟨_, rfl, twPermute_gives hm hc hx fun _ w i => if w.imm.toNat % 128 ≤ i then i - w.imm.toNat % 128 else 2 ^ 32 + i - w.imm.toNat % 128⟩⟩

end Sys2Proof.Proofs
end

section
/-! SUPPORT. Faults of a Twill unit, the step past an instruction and the end of a program (R141, R142, R152). -/

namespace Sys2Proof.Machine
open Sys2Proof

/-! ### What a step of one unit keeps -/

section Steps
variable {s t : State} {k : Nat} {y : UnitSt} (h : stepsUnit s t k y)
include h

theorem stepsUnit.mem : t.mem = s.mem := (congrArg State.mem h.2.2).trans rfl
theorem stepsUnit.regs : t.regs = s.regs := (congrArg State.regs h.2.2).trans rfl
theorem stepsUnit.fmt : t.fmt = s.fmt := (congrArg State.fmt h.2.2).trans rfl
theorem stepsUnit.stp : t.stp = s.stp := (congrArg State.stp h.2.2).trans rfl
theorem stepsUnit.status : t.vec.status = s.vec.status := congrArg (fun t => t.vec.status) h.2.2
theorem stepsUnit.reg (a : Nat) : t.reg a = s.reg a := congrArg (SMap.get regReset · a) h.regs
theorem stepsUnit.pair (a : Nat) : t.pair a = s.pair a := by rw [State.pair, h.reg, h.reg]; rfl

end Steps

section Advance
variable {s t : State} {d u : Nat}

/-- Whether a program goes on is read off the unit. -/
theorem State.midProgram_congr (h : t.unit (d * 32 + u) = s.unit (d * 32 + u)) : t.midProgram d u = s.midProgram d u := by
  rw [State.midProgram, h]; rfl

/-- The step of a unit that was set to `y`, where its program goes on. -/
theorem twAdvance_mid (hm : s.midProgram d u = true) (y : UnitSt) (h1 : y.slot = (s.unit (d * 32 + u)).slot)
    (h2 : y.pc = (s.unit (d * 32 + u)).pc) (h3 : y.ibuf = (s.unit (d * 32 + u)).ibuf) :
    stepsUnit s (twAdvance d u (s.setUnit (d * 32 + u) y)) (d * 32 + u) { y with pc := (y.pc + 1) % 2048 } :=
  twDone_mid hm true 0 y h1 h2 h3

/-- The step past the last instruction of a program ends it. -/
theorem twAdvance_end {y : UnitSt} {sl : Nat} (hs : y.slot = some sl) (hp : y.ibuf.length ≤ y.pc + 1) :
    twAdvance d u (s.setUnit (d * 32 + u) y) =
      unitEnd d u ((s.setUnit (d * 32 + u) y).setUnit (d * 32 + u) { y with pc := (y.pc + 1) % 2048 }) := by
  simp [twAdvance, hs, hp]

end Advance

/-- The state in which the flags of a unit are folded and the unit is free (R152), before its task counts it as ended. -/
def State.unitFreed (s : State) (d u sl : Nat) : State :=
  let x := s.unit (d * 32 + u)
  ((s.setReg (R.VEC_FLAGS_ACC d) (s.reg (R.VEC_FLAGS_ACC d) ||| BitVec.ofNat 32 x.flags)).modVec (fun v => { v with
    status := SMap.set (fun _ => 0) v.status (d * 4096 + sl) (SMap.get (fun _ => 0) v.status (d * 4096 + sl) ||| x.flags) })).setUnit
      (d * 32 + u) { x with flags := 0, slot := none, bar := none }

/-- The end of a program frees the unit; beyond that only its task changes. -/
theorem unitEnd_keeps {α : Type} {s : State} {d u sl : Nat} (hs : (s.unit (d * 32 + u)).slot = some sl) (g : State → α)
    (hg : ∀ t k e, g (State.setTask t k e) = g t) : g (unitEnd d u s) = g (s.unitFreed d u sl) := by
  unfold unitEnd
  simp only [hs]
  split
  · rfl
  · exact hg ..

/-! ### Faults -/

section Fault
variable (d u op cause : Nat) (s : State)

@[simp] theorem twFault_vec : (twFault d u op cause s).vec = s.vec := State.log_vec ..
@[simp] theorem twFault_mem : (twFault d u op cause s).mem = s.mem := State.log_mem ..
@[simp] theorem twFault_unit : (twFault d u op cause s).unit = s.unit := by funext k; rw [State.unit, twFault_vec]; rfl

/-- A fault is recorded in VEC_FAULT (R142, R150, R151). -/
theorem twFault_reg : (twFault d u op cause s).reg (R.VEC_FAULT d) =
    packFields [(27, u), (16, (s.unit (d * 32 + u)).pc), (8, cause), (0, op)] := by
  have h1 : R.VEC_FAULT d ≠ R.ERR_DROP_CNT := by unfold R.VEC_FAULT R.ERR_DROP_CNT; omega
  have h2 : R.VEC_FAULT d ≠ R.ERR_EVENTS := by unfold R.VEC_FAULT R.ERR_EVENTS; omega
  rw [twFault, State.reg_log _ _ h1 h2, State.reg_setReg, if_pos rfl]

@[simp] theorem twFault_mid : (twFault d u op cause s).midProgram d u = s.midProgram d u := State.midProgram_congr (by rw [twFault_unit])

/-- ILLEGAL marks the unit. -/
@[simp] theorem twIllMark_unit : (twIllMark d u op s).unit (d * 32 + u) =
    { s.unit (d * 32 + u) with flags := (s.unit (d * 32 + u)).flags ||| flIll } := by
  simp [twIllMark]

theorem twIllMark_reg : (twIllMark d u op s).reg (R.VEC_FAULT d) =
    packFields [(27, u), (16, (s.unit (d * 32 + u)).pc), (8, 0), (0, op)] := twFault_reg d u op 0 s

@[simp] theorem twIllMark_mid : (twIllMark d u op s).midProgram d u = s.midProgram d u := by simp [State.midProgram]

end Fault

/-- An illegal instruction sets ILLEGAL and steps (R142). -/
theorem twIllegal_mid {s : State} {d u op : Nat} {x : UnitSt} (hm : s.midProgram d u = true) (hx : s.unit (d * 32 + u) = x) :
    stepsUnit (twFault d u op 0 s) (twIllegal d u op s) (d * 32 + u) { x with flags := x.flags ||| flIll, pc := (x.pc + 1) % 2048 } := by
  subst hx
  have h := twAdvance_mid (s := twFault d u op 0 s) (d := d) (u := u) (by rw [twFault_mid, hm])
    { s.unit (d * 32 + u) with flags := (s.unit (d * 32 + u)).flags ||| flIll } (by simp) (by simp) (by simp)
  simpa [twIllegal] using h

/-- Under control code 0b111 an instruction is marked illegal and runs as under code 0 (R141). -/
theorem twRun_marked {s : State} {d u op : Nat} {tys : List Nat} {w : TwillWord} {f : TwillWord → UnitSt → UnitSt × Nat}
    (hc : w.ctl = 7) (ht : tys.contains w.ty.val = true) :
    twRun d u op tys w s f = twRun d u op tys { w with ctl := 0 } (twIllMark d u op s) f := by
  simp only [twRun, ht, hc, if_true, decide_true]
  rfl

/-- A set-up instruction changes fields of the unit other than its program and its task, where the unit issues it (R143). -/
theorem twRun_sets {s : State} {d u op : Nat} {w : TwillWord} {x : UnitSt} (hm : s.midProgram d u = true) (hc : w.ctl ≠ 7)
    (hx : s.unit (d * 32 + u) = x) (f : TwillWord → UnitSt → UnitSt) (h1 : (f w x).slot = x.slot) (h2 : (f w x).pc = x.pc)
    (h3 : (f w x).ibuf = x.ibuf) :
    (s.issues d u op w = true → stepsUnit s (twIssue d u op w s (fun op s => twRun d u op [0, 1, 2, 3] w s (fun w x => (f w x, 0))))
      (d * 32 + u) { f w x with pc := (x.pc + 1) % 2048 }) ∧
    (s.issues d u op w = false → twIssue d u op w s (fun op s => twRun d u op [0, 1, 2, 3] w s (fun w x => (f w x, 0))) = s) := by
  subst hx
  exact twIssue_split (stepsUnit s · _ _) (twRun_steps hm (TwillWord.anyType w) hc rfl h1 h2 h3)

end Sys2Proof.Machine

namespace Sys2Proof.Proofs
open Sys2Proof Sys2Proof.Machine

/-- Settles O32: set-up instructions change their field; a fault is recorded in VEC_FAULT; the end of a program folds the flags. -/
theorem twillSetupAndIllegal : Obligations.TwillSetupAndIllegal := by
  refine ⟨?setup, ?absent, ?listed, ?ends, ?marked⟩
  case setup =>
    intro s d u w x hm hc hx
    exact ⟨⟨_, rfl, twRun_sets hm hc hx (fun _ x => x) rfl rfl rfl⟩,
      ⟨_, rfl, twRun_sets hm hc hx (fun w x => { x with vl := max 1 (min 64 (w.imm.toNat % 128)) }) rfl rfl rfl⟩,
      ⟨_, rfl, twRun_sets hm hc hx (fun w x => { x with srBase := w.imm.toNat }) rfl rfl rfl⟩,
      ⟨_, rfl, twRun_sets hm hc hx (fun w' x => { x with
        srTensor := w.imm.toNat / 256, srHi := w'.imm.toNat % 256,
        srOk := ((s.fmtOf (s.unitTask d u)).find (w.imm.toNat / 256)).elim false (·.sr) }) rfl rfl rfl⟩⟩
  case absent =>
    intro s d u op x hm hx hop
    refine ⟨_, rfl, fun hi => ?_, fun hi => by simp [twIllegalOp, hi]⟩
    have hstep : stepsUnit (twFault d u op 0 s) _ _ _ := twIllegal_mid hm hx
    have hill : twIllegalOp d u op s = twIllegal d u op s := by simp [twIllegalOp, hi, hop]
    rw [hill]
    exact ⟨hstep.1, by rw [hstep.reg, twFault_reg, hx], hstep.mem.trans (twFault_mem ..),
      hstep.status.trans (congrArg VecSt.status (twFault_vec ..))⟩
  case listed =>
    intro s d u op hop
    show Host.Outcome.next (twIllegalOp d u op s) = _
    simp [twIllegalOp, hop]
  case ends =>
    intro s d u w x sl hc hx hs hp
    refine ⟨_, rfl, fun hi => ?_, fun hi => twIssue_not hi _⟩
    have hend : twRun d u 0x00 [0, 1, 2, 3] w s (fun _ x => (x, 0)) =
        unitEnd d u ((s.setUnit (d * 32 + u) x).setUnit (d * 32 + u) { x with pc := (x.pc + 1) % 2048 }) := by
      rw [← twAdvance_end hs hp, twRun, if_pos (TwillWord.anyType w)]
      simp [hc, hx, twDone]
    have hslot : (((s.setUnit (d * 32 + u) x).setUnit (d * 32 + u) { x with pc := (x.pc + 1) % 2048 }).unit (d * 32 + u)).slot = some sl := by
      rw [State.unit_setUnit, ← hs]
    rw [twIssue_of hi, hend]
    refine ⟨?_, ?_, ?_, ?_, ?_⟩
    · rw [unitEnd_keeps hslot (fun t => (t.unit (d * 32 + u)).slot) fun _ _ _ => rfl, State.unitFreed, State.unit_setUnit]
    · rw [unitEnd_keeps hslot (fun t => (t.unit (d * 32 + u)).flags) fun _ _ _ => rfl, State.unitFreed, State.unit_setUnit]
    · rw [unitEnd_keeps hslot (fun t => t.reg (R.VEC_FLAGS_ACC d)) fun _ _ _ => rfl, State.unitFreed, State.unit_setUnit]
      exact (State.reg_setReg ..).trans (if_pos rfl)
    · rw [unitEnd_keeps hslot (fun t => SMap.get (fun _ => 0) t.vec.status (d * 4096 + sl)) fun _ _ _ => rfl, State.unitFreed,
        State.unit_setUnit]
      exact SMap.get_set_self
    · exact unitEnd_keeps hslot State.mem fun _ _ _ => rfl
  case marked =>
    intro s d u w x hc hx hm
    subst hx
    refine ⟨_, rfl, fun hi => ?_, fun hi => twIssue_not hi _⟩
    rw [twIssue_of hi, twRun_marked hc (TwillWord.anyType w)]
    have hstep := twRun_steps (s := twIllMark d u 0x00 s) (d := d) (u := u) (op := 0x00) (w := { w with ctl := 0 }) (f := fun _ x => (x, 0))
      (by rw [twIllMark_mid, hm]) (TwillWord.anyType w) (show (0 : Fin 8) ≠ 7 by decide) rfl rfl rfl rfl
    refine ⟨?_, by rw [hstep.reg, twIllMark_reg]⟩
    rw [hstep.1, twIllMark_unit]

end Sys2Proof.Proofs
end

section
/-! SUPPORT. Conversions, quantisation, packing and tensor exponents of the Twill units (R145 to R149). -/

namespace Sys2Proof.Machine
open Sys2Proof

/-! ### Illegal forms (R142) -/

/-- An instruction whose work is `t`: the unit does it where it issues the instruction. -/
theorem twIssue_of_eq {d u op : Nat} {w : TwillWord} {s t : State} {f : Nat → State → State} (h : f op s = t) :
    twIssue d u op w s f = if s.issues d u op w then t else s := h ▸ rfl

theorem twRun_badType {d u op : Nat} {tys : List Nat} {w : TwillWord} {s : State} {f : TwillWord → UnitSt → UnitSt × Nat}
    (h : tys.contains w.ty.val = false) : twRun d u op tys w s f = twIllegal d u op s := if_neg (Bool.eq_false_iff.mp h)

theorem TwillWord.onlyType {w : TwillWord} {k : Nat} (h : w.ty.val ≠ k) : [k].contains w.ty.val = false := by simpa using h

theorem fcvt_badSelector {d u : Nat} {w : TwillWord} {s : State} (h : 8 ≤ w.imm.toNat % 16) : fcvt d u w s = twIllegal d u 0x40 s :=
  if_neg (Nat.not_lt.mpr h)

theorem fcvt_badType {d u : Nat} {w : TwillWord} {s : State} (h : w.imm.toNat % 16 < 8) (ht : w.ty.val ≠ fcvtType (w.imm.toNat % 16)) :
    fcvt d u w s = twIllegal d u 0x40 s := (if_pos h).trans (twRun_badType (TwillWord.onlyType ht))

theorem qcvt_illegal {d u : Nat} {w : TwillWord} {s : State} (h : qWidth (w.imm.toNat % 16) = false ∨ w.ty ≠ 0) :
    qcvt d u w s = twIllegal d u 0x41 s := if_neg (by rcases h with h | h <;> simp [h])

theorem vpackb_badWidth {d u : Nat} {w : TwillWord} {s : State} (h : qWidth (w.imm.toNat % 16) = false) :
    vpackb d u w s = twIllegal d u 0x42 s := if_neg (by simp [h])

theorem vpackb_badType {d u : Nat} {w : TwillWord} {s : State} (h : w.ty ≠ 2) : vpackb d u w s = twIllegal d u 0x42 s := by
  have ht : w.ty.val ≠ 2 := fun hv => h (Fin.ext hv)
  cases hq : qWidth (w.imm.toNat % 16)
  · exact vpackb_badWidth hq
  · simp only [vpackb, hq, h, if_true, if_false]
    exact twRun_badType (TwillWord.onlyType ht)

/-! ### FCVT (R145) -/

/-- Lane `i` of the destination of a conversion. -/
def UnitSt.converted (x : UnitSt) (sel : Nat) (w : TwillWord) (i : Nat) : Word :=
  if x.active w (fcvtElem sel i) then
    (if sel < 2 then withHalf (x.lane w.d.val i) (decide (sel = 1)) (fcvtLane sel w (x.lane w.s1.val i)).1
     else BitVec.ofNat 32 (fcvtLane sel w (x.lane w.s1.val i)).1)
  else if w.zero then (if sel < 2 then withHalf (x.lane w.d.val i) (decide (sel = 1)) 0 else 0) else x.lane w.d.val i

theorem fcvt_listed {d u : Nat} {w : TwillWord} {s : State} (h : w.imm.toNat % 16 < 8) :
    ∃ fl : TwillWord → UnitSt → Nat, fcvt d u w s = twRun d u 0x40 [fcvtType (w.imm.toNat % 16)] w s
      (fun w' x => (x.setLanes w'.d.val (x.converted (w.imm.toNat % 16) w'), fl w' x)) := by
  refine ⟨fun w' x => (List.range 64).foldl (fun a i => if x.active w' (fcvtElem (w.imm.toNat % 16) i)
    then a ||| (fcvtLane (w.imm.toNat % 16) w' (x.lane w'.s1.val i)).2 else a) 0, ?_⟩
  simp only [fcvt, h, if_true, decide_eq_true_eq]
  rfl

/-! ### QCVT (R146, R147) -/

/-- What is counted of a quantisation. -/
def State.quantCounted (s : State) (d u sat ufl nf : Nat) : State :=
  (((s.incPair (R.VEC_SAT_CNT d) sat).incPair (R.VEC_UFL_CNT d) ufl).incReg (R.VEC_NF_CNT d) nf).when (s.inAttempt (s.unitTask d u))
    (fun s => s.modCnt (fun c => { c with sat := c.sat + sat + ufl + nf, nonfinite := c.nonfinite + nf }))

/-- A 64-bit counter leaves every other pair. -/
theorem State.pair_incPair_ne {s : State} {a b n : Nat} (h1 : b ≠ a) (h2 : b ≠ a + 4) (h3 : b + 4 ≠ a) :
    (s.incPair a n).pair b = s.pair b := by
  rw [State.incPair, State.pair, State.reg_setPair _ _ _ h1 h2, State.reg_setPair _ _ _ h3 (by omega)]
  rfl

theorem State.pair_incReg_ne {s : State} {a b n : Nat} (h1 : b ≠ a) (h2 : b + 4 ≠ a) : (s.incReg a n).pair b = s.pair b := by
  rw [State.pair, State.reg_incReg, State.reg_incReg, if_neg h1, if_neg h2]
  rfl

/-- The statistics of the attempt are no registers. -/
theorem State.pair_modCnt (s : State) (f : AttemptCnt → AttemptCnt) (a : Nat) : (s.modCnt f).pair a = s.pair a := rfl

section Counted
variable (s : State) (d u sat ufl nf : Nat)

/-- A count changes registers, and of a task of the open attempt its statistics. -/
theorem State.quantCounted_frame : (s.quantCounted d u sat ufl nf).vec = s.vec ∧ (s.quantCounted d u sat ufl nf).mem = s.mem := by
  simp [State.quantCounted, State.modCnt_frame, State.incReg_frame, State.incPair_frame]

theorem State.quantCounted_unit (k : Nat) : (s.quantCounted d u sat ufl nf).unit k = s.unit k := by
  rw [State.unit, (s.quantCounted_frame ..).1]; rfl

theorem State.quantCounted_sat : (s.quantCounted d u sat ufl nf).pair (R.VEC_SAT_CNT d) = (s.pair (R.VEC_SAT_CNT d) + sat) % 2 ^ 64 := by
  rw [State.quantCounted, State.when_keeps (·.pair (R.VEC_SAT_CNT d)) (State.pair_modCnt ..),
    State.pair_incReg_ne, State.pair_incPair_ne, State.pair_incPair]
  all_goals (simp only [R.VEC_SAT_CNT, R.VEC_UFL_CNT, R.VEC_NF_CNT]; omega)

theorem State.quantCounted_ufl : (s.quantCounted d u sat ufl nf).pair (R.VEC_UFL_CNT d) = (s.pair (R.VEC_UFL_CNT d) + ufl) % 2 ^ 64 := by
  rw [State.quantCounted, State.when_keeps (·.pair (R.VEC_UFL_CNT d)) (State.pair_modCnt ..),
    State.pair_incReg_ne, State.pair_incPair, State.pair_incPair_ne]
  all_goals (simp only [R.VEC_SAT_CNT, R.VEC_UFL_CNT, R.VEC_NF_CNT]; omega)

/-- Of a task of the open attempt the counts enter the statistics of the attempt (R35). -/
theorem State.quantCounted_cnt (h : s.inAttempt (s.unitTask d u) = true) : (s.quantCounted d u sat ufl nf).stp.cnt =
    { s.stp.cnt with sat := s.stp.cnt.sat + sat + ufl + nf, nonfinite := s.stp.cnt.nonfinite + nf } := by
  rw [State.quantCounted, h]
  simp [State.when, State.modCnt, State.modStp, State.incReg_frame, State.incPair_frame]

end Counted

/-- The code of lane `e` with what is counted of it, under the rounding `rnd`. -/
def UnitSt.quantized (x : UnitSt) (w : TwillWord) (rnd : Nat → XNum → Rnd) (e : Nat) : Nat × Nat × Nat × Nat × Nat :=
  let v := readF FF.fp32 w.ctl.val (x.elem w w.s1.val e)
  qElem (w.imm.toNat % 16) (rnd e v) v (sext 32 (x.elem w w.s2.val e))

/-- The state after a quantisation under the rounding `rnd`. -/
def State.quantDone (s : State) (d u : Nat) (w : TwillWord) (rnd : Nat → XNum → Rnd) : State :=
  let x := s.unit (d * 32 + u)
  twDone d u (ctlNoFlag w.ctl.val) (x.orFlags w (fun e => (x.quantized w rnd e).2.1)) (x.setElems w (fun e => (x.quantized w rnd e).1))
    (s.quantCounted d u (x.sumActive w (fun e => (x.quantized w rnd e).2.2.1)) (x.sumActive w (fun e => (x.quantized w rnd e).2.2.2.1))
      (x.sumActive w (fun e => (x.quantized w rnd e).2.2.2.2)))

/-- QCVT rounds as its control code says. -/
theorem qcvt_coded {s : State} {d u : Nat} {w : TwillWord} (hq : qWidth (w.imm.toNat % 16) = true) (ht : w.ty = 0) (hc : w.ctl ≠ 7) :
    qcvt d u w s = s.quantDone d u w (fun _ v => ctlRnd w.ctl.val v.isNeg) := by
  simp only [qcvt, hq, ht, hc, decide_true, decide_false, Bool.and_true, Bool.false_and, Bool.not_false, if_true, if_false,
    Bool.false_eq_true, State.quantDone, State.quantCounted, UnitSt.quantized]

/-- Under code 0b111 with SR_OK it draws the uniform of R65 (R147). -/
theorem qcvt_stochastic {s : State} {d u : Nat} {w : TwillWord} {x : UnitSt} (hq : qWidth (w.imm.toNat % 16) = true) (ht : w.ty = 0)
    (hc : w.ctl = 7) (hx : s.unit (d * 32 + u) = x) (hsr : x.srOk = true) : qcvt d u w s = s.quantDone d u w
      (fun e _ => .sr (srUniform s.srSeed s.stepNo x.srTensor ((x.srHi * 2 ^ 32 + x.srBase + e) % 2 ^ 40))) := by
  subst hx
  simp only [qcvt, hq, ht, hc, hsr, decide_true, Bool.and_true, Bool.not_true, Bool.and_false, if_true, if_false,
    Bool.false_eq_true, State.quantDone, State.quantCounted, UnitSt.quantized]

section Quantized
variable {s : State} {d u : Nat} {w : TwillWord} {x : UnitSt} {rnd : Nat → XNum → Rnd}
  (hm : s.midProgram d u = true) (hx : s.unit (d * 32 + u) = x)
include hm hx

theorem quantDone_steps : stepsUnit (s.quantCounted d u (x.sumActive w (fun e => (x.quantized w rnd e).2.2.1))
      (x.sumActive w (fun e => (x.quantized w rnd e).2.2.2.1)) (x.sumActive w (fun e => (x.quantized w rnd e).2.2.2.2)))
    (s.quantDone d u w rnd) (d * 32 + u) { x.setElems w (fun e => (x.quantized w rnd e).1) with
      flags := if ctlNoFlag w.ctl.val then x.flags else x.flags ||| x.orFlags w (fun e => (x.quantized w rnd e).2.1),
      pc := (x.pc + 1) % 2048 } := by
  subst hx
  refine twDone_mid ?_ _ _ _ ?_ ?_ ?_
  · rw [State.midProgram_congr (State.quantCounted_unit ..), hm]
  all_goals rw [State.quantCounted_unit]; rfl

/-- A quantisation writes the codes of the active elements and counts the clamps and the underflows. -/
theorem quantDone_gives (ht : w.ty = 0) :
    (∀ e < 64, ((s.quantDone d u w rnd).unit (d * 32 + u)).elem w w.d.val e =
      if x.active w e then (x.quantized w rnd e).1 % 2 ^ 32 else if w.zero then 0 else x.elem w w.d.val e) ∧
    (s.quantDone d u w rnd).pair (R.VEC_SAT_CNT d) =
      (s.pair (R.VEC_SAT_CNT d) + x.sumActive w (fun e => (x.quantized w rnd e).2.2.1)) % 2 ^ 64 ∧
    (s.quantDone d u w rnd).pair (R.VEC_UFL_CNT d) =
      (s.pair (R.VEC_UFL_CNT d) + x.sumActive w (fun e => (x.quantized w rnd e).2.2.2.1)) % 2 ^ 64 ∧
    (s.quantDone d u w rnd).mem = s.mem := by
  have hstep := quantDone_steps (w := w) (rnd := rnd) hm hx
  have hhalf : w.half = false := by simp [TwillWord.half, ht]
  have hbits : w.bits = 32 := by simp [TwillWord.bits, hhalf]
  refine ⟨fun e he => ?_, ?_, ?_, ?_⟩
  · have h := x.elem_setElems w (fun e => (x.quantized w rnd e).1) (e := e) (by simpa [TwillWord.elems, hhalf] using he)
    rw [hbits] at h
    rw [hstep.1, ← h]
    rfl
  · rw [hstep.pair, State.quantCounted_sat]
  · rw [hstep.pair, State.quantCounted_ufl]
  · rw [hstep.mem, (s.quantCounted_frame ..).2]

end Quantized

/-! ### VPACKB (R148) -/

/-- What is counted of a packing. -/
def State.packCounted (s : State) (d u clamps : Nat) : State :=
  (s.incPair (R.VEC_SAT_CNT d) clamps).when (s.inAttempt (s.unitTask d u)) (fun s => s.modCnt (fun c => { c with sat := c.sat + clamps }))

section Packed
variable (s : State) (d u clamps : Nat)

theorem State.packCounted_frame : (s.packCounted d u clamps).vec = s.vec ∧ (s.packCounted d u clamps).mem = s.mem := by
  simp [State.packCounted, State.modCnt_frame, State.incPair_frame]

theorem State.packCounted_unit (k : Nat) : (s.packCounted d u clamps).unit k = s.unit k := by
  rw [State.unit, (s.packCounted_frame ..).1]; rfl

theorem State.packCounted_sat : (s.packCounted d u clamps).pair (R.VEC_SAT_CNT d) = (s.pair (R.VEC_SAT_CNT d) + clamps) % 2 ^ 64 := by
  rw [State.packCounted, State.when_keeps (·.pair (R.VEC_SAT_CNT d)) (State.pair_modCnt ..), State.pair_incPair]

end Packed

/-- The blocks that VL reaches, and how many of their scales are clamped. -/
def UnitSt.packed (x : UnitSt) : List Nat := (List.range 2).filter (fun k => decide (32 * k < x.vl))
def UnitSt.packClamps (x : UnitSt) (w : TwillWord) : Nat :=
  (x.packed.filter (fun k => (packScale (sext 32 (x.elem w w.s2.val (32 * k)))).2)).length

theorem vpackb_listed {s : State} {d u : Nat} {w : TwillWord} {x : UnitSt} (hq : qWidth (w.imm.toNat % 16) = true) (ht : w.ty = 2)
    (hx : s.unit (d * 32 + u) = x) : vpackb d u w s = twRun d u 0x42 [2] w (s.packCounted d u (x.packClamps w))
      (fun w' y => (y.setLanes w'.d.val (bytesLane (x.packed.flatMap (packBlock (w.imm.toNat % 16) y w'))),
        if 0 < x.packClamps w then flSat else 0)) := by
  subst hx
  simp only [vpackb, hq, ht, if_true]
  rfl

/-! ### VGETX and VAMAX (R149) -/

theorem vgetx_known {s : State} {d u : Nat} {w : TwillWord} (ht : w.ty = 2)
    (hk : ((s.fmtOf (s.unitTask d u)).find (w.imm.toNat % 2 ^ 24)).isSome = true) :
    vgetx d u w s = twRun d u 0x43 [2] w s
      (fun w' x => (x.setElems w' (fun _ => toTwos 32 ((s.fmtOf (s.unitTask d u)).exp (w.imm.toNat % 2 ^ 24))), 0)) := by
  simp only [vgetx, ht, hk, if_true]

theorem vamax_known {s : State} {d u : Nat} {w : TwillWord} (ht : w.ty = 0)
    (hk : ((s.fmtOf (s.unitTask d u)).find (w.imm.toNat % 2 ^ 24)).isSome = true) :
    vamax d u w s = twRun d u 0x44 [0] w (if s.inAttempt (s.unitTask d u) then
      s.foldAmax (w.imm.toNat % 2 ^ 24) (amaxOf (s.unit (d * 32 + u)) w) else s) (fun _ x => (x, 0)) := by
  simp only [vamax, ht, hk, if_true]
  rfl

end Sys2Proof.Machine

namespace Sys2Proof.Proofs
open Sys2Proof Sys2Proof.Machine

/-- Settles O33: each instruction counts first, which moves no register of the unit, and then writes its lanes or elements. -/
theorem conversionsAndPacking : Obligations.ConversionsAndPacking := by
  refine ⟨?fcvt, ?badSelector, ?fcvtType, ?intTypes, ?vamaxType, ?cvtInt, ?qcvt, ?qcvtStochastic, ?qcvtAttempt, ?qElem, ?qcvtIllegal,
    ?vpackb, ?marker, ?vpackbWidth, ?vgetx, ?vamaxAttempt, ?vamaxOutside⟩
  case fcvt =>
    intro s d u w x hm hc hx hsel ht
    subst hx
    obtain ⟨fl, hf⟩ := fcvt_listed (d := d) (u := u) (s := s) hsel
    refine ⟨_, rfl, fun hi => ⟨fl w (s.unit (d * 32 + u)), ?_⟩, fun hi => twIssue_not hi _⟩
    rw [twIssue_of hi, hf]
    exact twRun_lanes hm (by simp [ht]) hc rfl
  case badSelector =>
    intro s d u w x hsel
    exact congrArg Host.Outcome.next (twIssue_of_eq (fcvt_badSelector hsel))
  case fcvtType =>
    intro s d u w x hsel ht
    exact congrArg Host.Outcome.next (twIssue_of_eq (fcvt_badType hsel ht))
  case intTypes =>
    intro s d u w x hx ht
    exact ⟨congrArg Host.Outcome.next (twIssue_of_eq (if_neg ht)), congrArg Host.Outcome.next (twIssue_of_eq (vpackb_badType ht))⟩
  case vamaxType =>
    intro s d u w x hx ht
    exact congrArg Host.Outcome.next (twIssue_of_eq (if_neg ht))
  case cvtInt =>
    intro c n m e hlo hhi
    refine ⟨?_, rfl, rfl, rfl⟩
    simp only [cvtInt, Int.not_lt.mpr hlo, Int.not_lt.mpr hhi, if_false]
  case qcvt =>
    intro s d u w x hm hc hx hq ht
    refine ⟨_, rfl, fun hi => ?_, fun hi => twIssue_not hi _⟩
    rw [twIssue_of hi, qcvt_coded hq ht hc]
    exact quantDone_gives hm hx ht
  case qcvtStochastic =>
    intro s d u w x hm hc hsr hx hq ht
    refine ⟨_, rfl, fun hi => ?_, fun hi => twIssue_not hi _⟩
    rw [twIssue_of hi, qcvt_stochastic hq ht hc hx hsr]
    have h := quantDone_gives (rnd := fun e _ => .sr (srUniform s.srSeed s.stepNo x.srTensor ((x.srHi * 2 ^ 32 + x.srBase + e) % 2 ^ 40)))
      hm hx ht
    simp only [UnitSt.quantized, hc] at h
    exact h
  case qcvtAttempt =>
    intro s d u w x hm hc hx hq ht ha
    refine ⟨_, rfl, fun hi => ?_, fun hi => twIssue_not hi _⟩
    rw [twIssue_of hi, qcvt_coded hq ht hc, (quantDone_steps hm hx).stp, State.quantCounted_cnt _ _ _ _ _ _ ha]
    exact ⟨rfl, rfl⟩
  case qElem =>
    intro b r n m e ex _
    exact ⟨rfl, rfl, rfl, rfl⟩
  case qcvtIllegal =>
    intro s d u w x hx h
    exact congrArg Host.Outcome.next (twIssue_of_eq (qcvt_illegal h))
  case vpackb =>
    intro s d u w x hm hc hx hq ht
    refine ⟨_, rfl, fun hi => ?_, fun hi => twIssue_not hi _⟩
    rw [twIssue_of hi, vpackb_listed hq ht hx]
    have hunit := s.packCounted_unit d u (x.packClamps w) (d * 32 + u)
    have h := twRun_lanes (s := s.packCounted d u (x.packClamps w)) (d := d) (u := u) (op := 0x42) (tys := [2])
      (f := fun w' y => (y.setLanes w'.d.val (bytesLane (x.packed.flatMap (packBlock (w.imm.toNat % 16) y w'))),
        if 0 < x.packClamps w then flSat else 0))
      ((State.midProgram_congr hunit).trans hm) (by simp [ht]) hc rfl
    obtain ⟨hlanes, -, hstep⟩ := h
    rw [hunit, hx] at hlanes
    exact ⟨hlanes, (hstep.pair _).trans (s.packCounted_sat ..), hstep.mem.trans (s.packCounted_frame ..).2⟩
  case marker =>
    intro b k x w h
    exact if_pos h
  case vpackbWidth =>
    intro s d u w x hx hq
    exact congrArg Host.Outcome.next (twIssue_of_eq (vpackb_badWidth hq))
  case vgetx =>
    intro s d u w x hm hc hx ht hk
    refine ⟨_, rfl, twIssue_split (twGives d u w s · _ 0) ?_⟩
    rw [vgetx_known ht hk]
    exact twRun_gives hm (by simp [ht]) hc rfl rfl rfl
  case vamaxAttempt =>
    intro s d u w x hm hc hx ht hk ha
    refine ⟨_, rfl, fun hi => ?_, fun hi => twIssue_not hi _⟩
    rw [twIssue_of hi, vamax_known ht hk, if_pos ha]
    have h := twRun_steps (s := s.foldAmax (w.imm.toNat % 2 ^ 24) (amaxOf (s.unit (d * 32 + u)) w)) (d := d) (u := u) (op := 0x44)
      (tys := [0]) (f := fun _ x => (x, 0)) hm (by simp [ht]) hc rfl rfl rfl rfl
    subst hx
    refine ⟨?_, by rw [h.1]; rfl, h.regs, h.mem⟩
    exact (congrArg (fun f => SMap.get (fun _ => 0) f.amax (w.imm.toNat % 2 ^ 24)) h.fmt).trans SMap.get_set_self
  case vamaxOutside =>
    intro s d u w x hm hc hx ht hk ha
    subst hx
    refine ⟨_, rfl, twIssue_split (stepsUnit s · _ _) ?_⟩
    rw [vamax_known ht hk, if_neg (Bool.eq_false_iff.mp ha)]
    exact twRun_steps hm (by simp [ht]) hc rfl rfl rfl rfl

end Sys2Proof.Proofs
end

section
/-! SUPPORT. Loads, stores and barriers of the Twill units: bytes of a unit's memory or the exchange memory, accesses out of range, and the
units that pass a barrier (R150, R151). -/

namespace Sys2Proof.Machine
open Sys2Proof

/-! ### Bytes (R150) -/

section Bytes
variable (s : State) (d u : Nat) (ex : Bool) (a : Nat) (b : Byte)

/-- A store writes one byte of its memory. -/
theorem State.twByte_setTwByte (c : Nat) : (s.setTwByte d u ex a b).twByte d u ex c = if c = a then b else s.twByte d u ex c := by
  by_cases h : c = a
  · subst h
    cases ex <;> simp [State.setTwByte, State.twByte, State.modMem]
  · have hx : d * 2 ^ 22 + c ≠ d * 2 ^ 22 + a := by omega
    rw [if_neg h]
    cases ex
    · simp [State.setTwByte, State.twByte, SMap.get_set_ne h]
    · exact SMap.get_set_ne hx

theorem State.hbm_setTwByte : (s.setTwByte d u ex a b).mem.hbm = s.mem.hbm := by cases ex <;> rfl

/-- Of the unit only its memory changes. -/
theorem State.unit_setTwByte : (s.setTwByte d u ex a b).unit (d * 32 + u) =
    { s.unit (d * 32 + u) with mem := ((s.setTwByte d u ex a b).unit (d * 32 + u)).mem } := by
  cases ex
  · simp [State.setTwByte]
  · rfl

theorem State.midProgram_setTwByte : (s.setTwByte d u ex a b).midProgram d u = s.midProgram d u := by
  rw [State.midProgram, State.unit_setTwByte]
  rfl

end Bytes

/-- The bytes `f k` stored at the offsets `k` of a list. -/
def State.stored (s : State) (d u : Nat) (ex : Bool) (a : Nat) (f : Nat → Byte) (ks : List Nat) : State :=
  ks.foldl (fun s k => s.setTwByte d u ex (a + k) (f k)) s

section Stored
variable (s : State) (d u : Nat) (ex : Bool) (a : Nat) (f : Nat → Byte) (ks : List Nat)

/-- The bytes at the offsets of the list are stored, every other one stays. -/
theorem State.twByte_stored (c : Nat) : (s.stored d u ex a f ks).twByte d u ex c =
    if a ≤ c ∧ c - a ∈ ks then f (c - a) else s.twByte d u ex c := by
  induction ks generalizing s with
  | nil => simp [State.stored]
  | cons k ks ih =>
    have hcons : s.stored d u ex a f (k :: ks) = (s.setTwByte d u ex (a + k) (f k)).stored d u ex a f ks := rfl
    rw [hcons, ih, State.twByte_setTwByte]
    by_cases h : a ≤ c ∧ c - a ∈ ks
    · rw [if_pos h, if_pos ⟨h.1, List.mem_cons_of_mem k h.2⟩]
    · rw [if_neg h]
      by_cases hk : c = a + k
      · subst hk
        simp
      · have hne : ¬ (a ≤ c ∧ c - a ∈ k :: ks) := fun ⟨hle, hmem⟩ =>
          (List.mem_cons.mp hmem).elim (fun heq => hk (by omega)) fun hin => h ⟨hle, hin⟩
        rw [if_neg hk, if_neg hne]

theorem State.hbm_stored : (s.stored d u ex a f ks).mem.hbm = s.mem.hbm :=
  foldl_keeps (fun t => t.mem.hbm) (fun t _ => t.hbm_setTwByte ..) ks s

theorem State.regs_stored : (s.stored d u ex a f ks).regs = s.regs :=
  foldl_keeps State.regs (fun t k => (t.setTwByte_frame d u ex (a + k) (f k)).1) ks s

theorem State.midProgram_stored : (s.stored d u ex a f ks).midProgram d u = s.midProgram d u :=
  foldl_keeps (State.midProgram · d u) (fun t _ => t.midProgram_setTwByte ..) ks s

end Stored

/-- The step of a unit that keeps its memory keeps the bytes that loads read. -/
theorem stepsUnit.twByte {s t : State} {d u : Nat} {y : UnitSt} (h : stepsUnit s t (d * 32 + u) y)
    (hy : y.mem = (s.unit (d * 32 + u)).mem) (ex : Bool) (c : Nat) : t.twByte d u ex c = s.twByte d u ex c := by
  rw [State.twByte, State.twByte, h.1, hy, h.mem]

/-! ### Loads and stores -/

/-- Lane `i` after a load of `c` bytes, or of the active lanes where `c` is 0. -/
def State.loadedLane (s : State) (d u : Nat) (w : TwillWord) (x : UnitSt) (c : Nat) (ex : Bool) (a i : Nat) : Word :=
  let rd := fun (k n : Nat) => BitVec.ofNat 32 (ofLe ((List.range n).map (fun j => s.twByte d u ex (a + k + j))))
  let old := if w.zero then 0 else x.lane w.d.val i
  if c = 0 then (if x.laneActive w i then rd (4 * i) 4 else old)
  else if 4 * i + 4 ≤ c then rd (4 * i) 4
  else if 4 * i < c then setFld old (8 * (c - 4 * i) - 1) 0 (rd (4 * i) (c - 4 * i)).toNat
  else old

/-- The byte at offset `k` of a register. -/
def UnitSt.regByte (x : UnitSt) (r k : Nat) : Byte := byteOf ((x.lane r (k / 4)).toNat / 2 ^ (8 * (k % 4)))

/-- The offsets that a store of `c` bytes, or of the active lanes, writes. -/
def UnitSt.storeOffsets (x : UnitSt) (w : TwillWord) (c : Nat) : List Nat :=
  if c = 0 then (x.memLanes w).flatMap (fun i => [4 * i, 4 * i + 1, 4 * i + 2, 4 * i + 3]) else List.range c

theorem UnitSt.mem_storeOffsets {x : UnitSt} {w : TwillWord} {k : Nat} :
    k ∈ x.storeOffsets w 0 ↔ ∃ i < 64, x.laneActive w i = true ∧ 4 * i ≤ k ∧ k < 4 * i + 4 := by
  simp only [UnitSt.storeOffsets, if_true, List.mem_flatMap, UnitSt.memLanes, List.mem_filter, List.mem_range, List.mem_cons,
    List.not_mem_nil, or_false]
  refine exists_congr fun i => ⟨fun ⟨⟨hi, ha⟩, hk⟩ => ⟨hi, ha, by omega, by omega⟩,
    fun ⟨hi, ha, h1, h2⟩ => ⟨⟨hi, ha⟩, by omega⟩⟩

section Access
variable {s : State} {d u : Nat} {w : TwillWord} {x : UnitSt} {c : Nat} {ex : Bool} {a size : Nat}

/-- An access of `c` bytes within the memory. -/
theorem memBeyond_count (h0 : 0 < c) (h : a + c ≤ size) : memBeyond x w c a size = false := by
  rw [memBeyond, if_neg (Nat.ne_of_gt h0)]
  exact decide_eq_false (Nat.not_lt.mpr h)

variable (hc : w.ctl ≠ 7) (hx : s.unit (d * 32 + u) = x) (hp : TwillWord.memOp w x = (c, ex, a, size))
include hc hx hp

/-- A load within the memory writes the lanes of its destination. -/
theorem vld_within (hb : memBeyond x w c a size = false) : vld d u w s = twRun d u 0x08 [0, 1, 2, 3] w s
    (fun w y => (y.setLanes w.d.val (s.loadedLane d u w x c ex a), 0)) := by
  subst hx
  rw [twRun, if_pos (TwillWord.anyType w)]
  simp only [vld, hc, hp, hb, decide_false, if_false, Bool.false_eq_true]
  rfl

/-- A store within the memory writes bytes and steps. -/
theorem vst_within (hb : memBeyond x w c a size = false) : vst d u w s = twRun d u 0x09 [0, 1, 2, 3] w
    (s.stored d u ex a (x.regByte w.s1.val) (x.storeOffsets w c)) (fun _ y => (y, 0)) := by
  subst hx
  rw [twRun, if_pos (TwillWord.anyType w)]
  simp only [vst, hc, hp, hb, decide_false, if_false, Bool.false_eq_true]
  rfl

theorem vld_beyond (hb : memBeyond x w c a size = true) : vld d u w s = twMemRange d u 0x08 w s := by
  simp only [vld, hc, hx, hp, hb, if_false, if_true]

theorem vst_beyond (hb : memBeyond x w c a size = true) : vst d u w s = twMemRange d u 0x09 w s := by
  simp only [vst, hc, hx, hp, hb, if_false, if_true]

omit hp in
theorem vbar_waits : vbar d u w s = s.setUnit (d * 32 + u) { x with bar := some (w.imm.toNat % 256) } := by
  simp only [vbar, hc, hx, if_false]

/-- What a store leaves: the bytes it wrote, and all else of the memories and the registers. -/
theorem vst_stores (hm : s.midProgram d u = true) (hb : memBeyond x w c a size = false) :
    (∀ b, (vst d u w s).twByte d u ex b =
      if a ≤ b ∧ b - a ∈ x.storeOffsets w c then x.regByte w.s1.val (b - a) else s.twByte d u ex b) ∧
    (vst d u w s).mem.hbm = s.mem.hbm ∧ (vst d u w s).regs = s.regs := by
  have hstep := twRun_steps (s := s.stored d u ex a (x.regByte w.s1.val) (x.storeOffsets w c)) (op := 0x09) (f := fun _ y => (y, 0))
    ((s.midProgram_stored ..).trans hm) (TwillWord.anyType w) hc rfl rfl rfl rfl
  rw [vst_within hc hx hp hb]
  refine ⟨fun b => ?_, ?_, ?_⟩
  · rw [hstep.twByte rfl, State.twByte_stored]
  · rw [hstep.mem, State.hbm_stored]
  · rw [hstep.regs, State.regs_stored]

end Access

/-- An access beyond the memory sets MEM_RANGE and steps. -/
theorem twMemRange_mid {s : State} {d u op : Nat} {w : TwillWord} {x : UnitSt} (hm : s.midProgram d u = true)
    (hx : s.unit (d * 32 + u) = x) : stepsUnit (twFault d u op 1 s) (twMemRange d u op w s) (d * 32 + u)
      { x with flags := if ctlNoFlag w.ctl.val then x.flags else x.flags ||| flMem, pc := (x.pc + 1) % 2048 } := by
  have h := twDone_mid (s := twFault d u op 1 s) ((twFault_mid ..).trans hm) (ctlNoFlag w.ctl.val) flMem (s.unit (d * 32 + u))
    (by rw [twFault_unit]) (by rw [twFault_unit]) (by rw [twFault_unit])
  rw [twMemRange, twFault_unit, ← hx]
  exact h

/-! ### Barriers (R151) -/

theorem stepsUnit_setUnit (s : State) (k : Nat) (y : UnitSt) : stepsUnit s (s.setUnit k y) k y :=
  ⟨s.unit_setUnit k y, fun _ hj => s.unit_setUnit_ne y hj, rfl⟩

/-- A unit after it has passed barrier `n`. -/
def UnitSt.passed (x : UnitSt) (n : Nat) : UnitSt :=
  if x.bar = some n then { x with bar := none, pc := (x.pc + 1) % 2048 } else { x with past := x.past.erase n }

theorem barPass_mid {s : State} {d u : Nat} (hm : s.midProgram d u = true) (n : Nat) :
    stepsUnit s (barPass d n s u) (d * 32 + u) ((s.unit (d * 32 + u)).passed n) := by
  unfold barPass UnitSt.passed
  dsimp only
  split
  · exact twAdvance_mid hm _ rfl rfl rfl
  · exact stepsUnit_setUnit ..

/-- Distinct units of a die that pass a barrier in turn. -/
theorem barPass_all {d n : Nat} (us : List Nat) : ∀ (s : State), us.Nodup → (∀ u ∈ us, s.midProgram d u = true) →
    (∀ u ∈ us, (us.foldl (barPass d n) s).unit (d * 32 + u) = (s.unit (d * 32 + u)).passed n) ∧
    (∀ u ∉ us, (us.foldl (barPass d n) s).unit (d * 32 + u) = s.unit (d * 32 + u)) ∧
    (us.foldl (barPass d n) s).mem = s.mem ∧ (us.foldl (barPass d n) s).regs = s.regs := by
  induction us with
  | nil => exact fun s _ _ => ⟨by simp, by simp, rfl, rfl⟩
  | cons v us ih =>
    intro s hnd hm
    obtain ⟨hv, hnd⟩ := List.nodup_cons.mp hnd
    have hstep := barPass_mid (hm v (by simp)) n
    have hother u (hu : u ≠ v) : (barPass d n s v).unit (d * 32 + u) = s.unit (d * 32 + u) := hstep.2.1 _ (by omega)
    obtain ⟨hin, hout, hmem, hregs⟩ := ih (barPass d n s v) hnd fun u hu =>
      (State.midProgram_congr (hother u (fun h => hv (h ▸ hu)))).trans (hm u (List.mem_cons_of_mem v hu))
    rw [List.foldl_cons]
    refine ⟨fun u hu => ?_, fun u hu => ?_, hmem.trans hstep.mem, hregs.trans hstep.regs⟩
    · by_cases h : u = v
      · rw [h, hout v hv, hstep.1]
      · rw [hin u ((List.mem_cons.mp hu).resolve_left h), hother u h]
    · rw [hout u (List.not_mem_of_not_mem_cons hu), hother u (List.ne_of_not_mem_cons hu)]

/-- A barrier that some unit of the task has not reached is not released. -/
theorem barrierRelease_waits {s : State} {d slot n u : Nat} (hu : u < 32) (hs : (s.unit (d * 32 + u)).slot = some slot)
    (hr : (s.unit (d * 32 + u)).reached n = false) : barrierRelease d slot n s = s := by
  refine if_neg fun h => ?_
  obtain ⟨-, hall⟩ := Bool.and_eq_true_iff.mp h
  have := List.all_eq_true.mp hall u (List.mem_filter.mpr ⟨List.mem_range.mpr hu, decide_eq_true hs⟩)
  rw [hr] at this
  cases this

theorem barrierTimeout_leaves {s : State} {d u n : Nat} {x : UnitSt} (hm : s.midProgram d u = true) (hx : s.unit (d * 32 + u) = x)
    (hb : x.bar = some n) : ∃ v, v.mem = s.mem ∧ v.regs = (twFault d u 0x0A 2 s).regs ∧ stepsUnit v (barrierTimeout d u s) (d * 32 + u)
      { x with bar := none, past := x.past ++ [n], flags := x.flags ||| flIll, pc := (x.pc + 1) % 2048 } := by
  subst hx
  refine ⟨(twFault d u 0x0A 2 s).setUnit (d * 32 + u) { s.unit (d * 32 + u) with
    flags := (s.unit (d * 32 + u)).flags ||| flIll, past := (s.unit (d * 32 + u)).past ++ [n] }, twFault_mem .., rfl, ?_⟩
  simp only [barrierTimeout, hb, twFault_unit, barLeave, State.unit_setUnit]
  refine twAdvance_mid ?_ _ ?_ ?_ ?_
  · rw [State.midProgram, State.unit_setUnit]
    exact hm
  all_goals rw [State.unit_setUnit]

end Sys2Proof.Machine

namespace Sys2Proof.Proofs
open Sys2Proof Sys2Proof.Machine

/-- Settles O34: a load writes lanes, a store bytes at a list of offsets; the units of a barrier pass it one after another. -/
theorem loadsStoresBarriers : Obligations.LoadsStoresBarriers := by
  refine ⟨?loadLanes, ?loadBytes, ?beyond, ?storeBytes, ?storeLanes, ?waits, ?release, ?notAll, ?timeout, ?noBarrier⟩
  case loadLanes =>
    intro s d u w x ex a size hm hc hx hp hb
    subst hx
    refine ⟨_, rfl, twIssue_split (twLanes d u w s · _ 0) ?_⟩
    rw [vld_within hc rfl hp hb]
    exact twRun_lanes hm (TwillWord.anyType w) hc rfl
  case loadBytes =>
    intro s d u w x c ex a size hm hc hx hp h0 hr
    subst hx
    refine ⟨_, rfl, fun hi i hlt => ?_, fun hi => twIssue_not hi _⟩
    have hlane := (twRun_lanes (op := 0x08) (f := fun w y => (y.setLanes w.d.val (s.loadedLane d u w (s.unit (d * 32 + u)) c ex a), 0))
      hm (TwillWord.anyType w) hc rfl).1 i hlt
    rw [twIssue_of hi, vld_within hc rfl hp (memBeyond_count h0 hr), hlane]
    have hne : c ≠ 0 := Nat.ne_of_gt h0
    refine ⟨fun h => ?_, fun h1 h2 => ?_, fun h => ?_⟩
    · simp only [State.loadedLane, hne, h, if_true, if_false]
    · simp only [State.loadedLane, hne, h1, Nat.not_le.mpr h2, if_true, if_false]
    · simp only [State.loadedLane, hne, Nat.not_lt.mpr h, show ¬ 4 * i + 4 ≤ c by omega, if_false]
  case beyond =>
    intro s d u w x c ex a size hm hc hx hp hb
    have hstep op := twMemRange_mid (op := op) (w := w) hm hx
    refine ⟨⟨_, rfl, fun hi => ?_, fun hi => twIssue_not hi _⟩, ⟨_, rfl, fun hi => ?_, fun hi => twIssue_not hi _⟩⟩
    · rw [twIssue_of hi, vld_beyond hc hx hp hb, (hstep 0x08).reg, twFault_reg, (hstep 0x08).1, hx]
      exact ⟨rfl, rfl, rfl⟩
    · rw [twIssue_of hi, vst_beyond hc hx hp hb, (hstep 0x09).reg, twFault_reg, (hstep 0x09).1, (hstep 0x09).mem, hx]
      exact ⟨rfl, twFault_mem .., rfl, rfl⟩
  case storeBytes =>
    intro s d u w x c ex a size hm hc hx hp h0 hr
    obtain ⟨hbytes, hrest⟩ := vst_stores hc hx hp hm (memBeyond_count h0 hr)
    refine ⟨_, rfl, fun hi => ?_, fun hi => twIssue_not hi _⟩
    rw [twIssue_of hi]
    refine ⟨fun b => (hbytes b).trans ?_, hrest⟩
    have hmem : (a ≤ b ∧ b - a ∈ x.storeOffsets w c) ↔ (a ≤ b ∧ b < a + c) := by
      rw [UnitSt.storeOffsets, if_neg (Nat.ne_of_gt h0), List.mem_range]
      omega
    simp only [hmem]
    rfl
  case storeLanes =>
    intro s d u w x ex a size hm hc hx hp hb
    obtain ⟨hbytes, hrest⟩ := vst_stores hc hx hp hm hb
    refine ⟨_, rfl, fun hi => ?_, fun hi => twIssue_not hi _⟩
    rw [twIssue_of hi]
    refine ⟨fun i hlt hact j hj => ?_, fun b hout => ?_, hrest⟩
    · have hoff : a + 4 * i + j - a = 4 * i + j := by omega
      have hmem : 4 * i + j ∈ x.storeOffsets w 0 := UnitSt.mem_storeOffsets.mpr ⟨i, hlt, hact, by omega, by omega⟩
      rw [hbytes, hoff, if_pos ⟨by omega, hmem⟩, UnitSt.regByte, show (4 * i + j) / 4 = i by omega, show (4 * i + j) % 4 = j by omega]
    · rw [hbytes, if_neg]
      rintro ⟨hle, hmem⟩
      obtain ⟨i, hlt, hact, h1, h2⟩ := UnitSt.mem_storeOffsets.mp hmem
      have := hout i hlt hact
      omega
  case waits =>
    intro s d u w x hc hx
    exact congrArg Host.Outcome.next (twIssue_of_eq (vbar_waits hc hx))
  case release =>
    intro s d slot n us hus hne hreached hm
    subst hus
    obtain ⟨hin, -, hmem, hregs⟩ := barPass_all (n := n.val) _ s (List.nodup_range.filter _) hm
    refine ⟨_, congrArg Host.Outcome.next (if_pos ?_), hin, hmem, hregs⟩
    rw [Bool.and_eq_true]
    exact ⟨by simpa using hne, List.all_eq_true.mpr hreached⟩
  case notAll =>
    intro s d slot n u hu hs hr
    exact congrArg Host.Outcome.next (barrierRelease_waits hu hs hr)
  case timeout =>
    intro s d u x n hm hx hb
    obtain ⟨v, hmem, hregs, hstep⟩ := barrierTimeout_leaves hm hx hb
    refine ⟨_, rfl, hstep.1, ?_, hstep.mem.trans hmem⟩
    have hreg : v.reg (R.VEC_FAULT d) = (twFault d u 0x0A 2 s).reg (R.VEC_FAULT d) := congrArg (SMap.get regReset · _) hregs
    rw [hstep.reg, hreg, twFault_reg, hx]
  case noBarrier =>
    intro s d u hb
    show Host.Outcome.next (barrierTimeout d u s) = _
    simp only [barrierTimeout, hb]

end Sys2Proof.Proofs
end

section
/-! SUPPORT. The descriptors of a cluster, the tile handed to a core, the refusal of a descriptor and the order of its causes (R167 to R169). -/

namespace Sys2Proof.Machine
open Sys2Proof

/-! ### The descriptors of a cluster -/

section Runs
variable {s t : State} {k : Nat}

theorem State.runOf_congr (h : t.mxe = s.mxe) (slot : Nat) : t.runOf k slot = s.runOf k slot := by
  simp only [State.runOf, State.cluster, h]

/-- A descriptor that is replaced by one of the same slot reads back. -/
theorem State.runOf_setRun {r q : DescRun} (h : s.runOf k r.slot = some q) : (s.setRun k r).runOf k r.slot = some r := by
  have hq : (q.slot == r.slot) = true := List.find?_some (p := fun x : DescRun => x.slot == r.slot) h
  have hslot : ((fun x : DescRun => x.slot == r.slot) ∘ fun x => if x.slot = r.slot then r else x) = fun x => x.slot == r.slot := by
    funext x
    by_cases hx : x.slot = r.slot <;> simp [hx]
  rw [State.runOf] at h
  rw [State.runOf, State.setRun, State.cluster_setCluster, List.find?_map, hslot, h, Option.map_some, if_pos (beq_iff_eq.mp hq)]

/-- A descriptor that ends is no longer listed. -/
theorem State.runOf_dropRun (s : State) (k slot : Nat) : (s.dropRun k slot).runOf k slot = none := by
  rw [State.runOf, State.dropRun, State.cluster_setCluster, List.find?_eq_none]
  intro x hx
  simpa using (List.mem_filter.mp hx).2

theorem State.endTask_mxe (s : State) (d slot : Nat) (err : Bool) : (s.endTask d slot err).mxe = s.mxe := by simp [State.endTask_frame]

end Runs

/-! ### Tiles handed out and descriptors refused (R167, R169) -/

section Accept
variable {s : State} {d c : Nat} {r : DescRun}

theorem State.giveTile_core (s : State) (d c : Nat) (r : DescRun) : (s.giveTile d c r).core (d * 128 + c) =
    { slot := some r.slot, mode := r.desc.mode, shape := r.desc.shape, slots := r.desc.slots,
      tiles := (if (s.core (d * 128 + c)).slot = some r.slot then (s.core (d * 128 + c)).tiles else []) ++ [r.next] } := by
  rw [State.giveTile, State.setRun, State.core_setCluster, State.core_setCore]
  simp only [decide_eq_true_eq]

/-- A descriptor has handed out one tile more. -/
theorem State.giveTile_runOf (h : s.runOf (clusKey d c) r.slot = some r) :
    (s.giveTile d c r).runOf (clusKey d c) r.slot = some { r with next := r.next + 1 } :=
  State.runOf_setRun (r := { r with next := r.next + 1 }) (q := r) h

theorem State.giveTile_mem (s : State) (d c : Nat) (r : DescRun) : (s.giveTile d c r).mem = s.mem := rfl

/-- A core at work takes a tile where one is left and a slot is free. -/
theorem descriptorAccept_busy (hb : s.coreBusy d c = true) (hr : (s.core (d * 128 + c)).slot.bind (s.runOf (clusKey d c)) = some r) :
    descriptorAccept d c s =
      if r.next < r.desc.tiles ∧ (s.core (d * 128 + c)).tiles.length < (s.core (d * 128 + c)).slots then s.giveTile d c r else s := by
  simp only [descriptorAccept, hb, if_true, hr]

/-- An idle core that is not enabled takes nothing. -/
theorem descriptorAccept_off (hb : s.coreBusy d c = false) (h : s.coreOn d c = false ∨ s.regB (R.MXE_CTRL d) 0 = false) :
    descriptorAccept d c s = s := by
  have hoff : (s.coreOn d c && s.regB (R.MXE_CTRL d) 0) = false := Bool.and_eq_false_iff.mpr h
  simp only [descriptorAccept, hb, hoff, Bool.false_eq_true, if_false]

section Idle
variable (hb : s.coreBusy d c = false) (ho : s.coreOn d c = true) (he : s.regB (R.MXE_CTRL d) 0 = true)
  (hf : (s.cluster (clusKey d c)).find? (fun r => decide (r.next < r.desc.tiles) || (s.runFault d r).isSome) = some r)
include hb ho he hf

/-- An idle core accepts the first descriptor of its cluster with tiles left, or ends one that the plan does not have. -/
theorem descriptorAccept_takes (hn : s.runFault d r = none) : descriptorAccept d c s =
    if r.desc.mode = 4 ∧ s.unplanned d r.desc = true then
      ((s.dropRun (clusKey d c) r.slot).endTask d r.slot true).findAbort 7 r.desc.chan 0xFFFFFFFF 0xFF
    else s.giveTile d c r := by
  simp only [descriptorAccept, hb, ho, he, hf, hn, Bool.false_eq_true, if_false, Bool.and_self, if_true, Bool.and_eq_true, decide_eq_true_eq]

theorem descriptorAccept_refuses {cause : Nat} (hc : s.runFault d r = some cause) : descriptorAccept d c s = s.refuseDesc d c r cause := by
  simp only [descriptorAccept, hb, ho, he, hf, hc, Bool.false_eq_true, if_false, Bool.and_self, if_true]

end Idle

theorem State.refuseDesc_regs (s : State) (d c : Nat) (r : DescRun) (cause : Nat) : (s.refuseDesc d c r cause).regs =
    ((s.setReg (R.MXE_FAULT d) (packFields [(25, c), (16, r.desc.mode), (8, r.desc.shape), (0, cause)])).eventLog (R.MXE_EVENTS d) 0
      (0xE + d) 1 cause r.slot).regs := by
  simp [State.refuseDesc, State.endTask_frame, State.dropRun_frame]

theorem mxeEvents_ne (d : Nat) : R.MXE_EVENTS d ≠ R.ERR_DROP_CNT ∧ R.MXE_EVENTS d ≠ R.ERR_EVENTS := by
  unfold R.MXE_EVENTS R.ERR_DROP_CNT R.ERR_EVENTS; omega

theorem mxeFault_ne (d : Nat) : R.MXE_FAULT d ≠ R.ERR_DROP_CNT ∧ R.MXE_FAULT d ≠ R.ERR_EVENTS ∧ R.MXE_FAULT d ≠ R.MXE_EVENTS d := by
  unfold R.MXE_FAULT R.MXE_EVENTS R.ERR_DROP_CNT R.ERR_EVENTS; omega

/-- A refusal is recorded in MXE_FAULT. -/
theorem State.refuseDesc_fault (s : State) (d c : Nat) (r : DescRun) (cause : Nat) : (s.refuseDesc d c r cause).reg (R.MXE_FAULT d) =
    packFields [(25, c), (16, r.desc.mode), (8, r.desc.shape), (0, cause)] := by
  obtain ⟨h1, h2, h3⟩ := mxeFault_ne d
  rw [State.reg, State.refuseDesc_regs, ← State.reg, State.reg_eventLog _ _ _ h1 h2, if_neg h3, State.reg_setReg, if_pos rfl]

theorem State.refuseDesc_event (s : State) (d c : Nat) (r : DescRun) (cause : Nat) : (s.refuseDesc d c r cause).regB (R.MXE_EVENTS d) 0 = true := by
  obtain ⟨h1, h2⟩ := mxeEvents_ne d
  rw [State.regB, State.reg, State.refuseDesc_regs, ← State.reg, ← State.regB]
  exact State.regB_eventLog _ _ (by decide) h1 h2

theorem State.refuseDesc_runOf (s : State) (d c : Nat) (r : DescRun) (cause : Nat) :
    (s.refuseDesc d c r cause).runOf (clusKey d c) r.slot = none := by
  rw [State.refuseDesc, State.runOf_congr (State.endTask_mxe ..)]
  exact State.runOf_dropRun ..

theorem State.refuseDesc_mem (s : State) (d c : Nat) (r : DescRun) (cause : Nat) : (s.refuseDesc d c r cause).mem = s.mem := by
  simp [State.refuseDesc_frame]

end Accept

/-! ### The order of the causes (R169) -/

/-- The number of the first check that fails, the checks numbered from `n`. -/
def firstFailing : Nat → List Bool → Option Nat
  | _, [] => none
  | n, b :: l => if b then firstFailing (n + 1) l else some n

theorem firstFailing_nil (n : Nat) : firstFailing n [] = none := rfl

theorem firstFailing_cons (n : Nat) (b : Bool) (l : List Bool) :
    firstFailing n (b :: l) = if !b then some n else firstFailing (n + 1) l := by
  cases b <;> rfl

theorem firstFailing_eq_none {n : Nat} {l : List Bool} : firstFailing n l = none ↔ ∀ b ∈ l, b = true := by
  induction l generalizing n with
  | nil => simp [firstFailing_nil]
  | cons b l ih => cases b <;> simp [firstFailing_cons, ih]

theorem firstFailing_cons_eq_some {n m : Nat} {b : Bool} {l : List Bool} :
    firstFailing n (b :: l) = some m ↔ (b = false ∧ n = m) ∨ (b = true ∧ firstFailing (n + 1) l = some m) := by
  cases b <;> simp [firstFailing_cons]

theorem firstFailing_bounds {n m : Nat} {l : List Bool} (h : firstFailing n l = some m) : n ≤ m ∧ m < n + l.length := by
  induction l generalizing n with
  | nil => exact absurd h (by simp [firstFailing_nil])
  | cons b l ih =>
    rw [List.length_cons]
    rcases firstFailing_cons_eq_some.mp h with ⟨-, rfl⟩ | ⟨-, h⟩
    · omega
    · have := ih h
      omega

/-- What a descriptor has to meet, in the order of the causes of MXE_FAULT. -/
def State.descChecks (s : State) (d : Nat) (x : Desc) : List Bool :=
  [decide (x.mode ≤ 4), shapeOk x.mode x.shape, x.formatsOk, decide (x.ta = shapeTa x.shape ∧ x.tb = shapeTb x.shape),
   decide (x.coded = true → (s.descMat d x).isSome = true), s.addrsOk d x, x.dimsOk, !x.reserved, decide (x.mode = 4 → x.chan / 4 = d)]

/-- The module refuses a descriptor for the first check that fails. -/
theorem State.descFault_eq (s : State) (d : Nat) (x : Desc) : s.descFault d x = firstFailing 1 (s.descChecks d x) := by
  have h4 : (x.ta != shapeTa x.shape || x.tb != shapeTb x.shape) = !decide (x.ta = shapeTa x.shape ∧ x.tb = shapeTb x.shape) := by
    simp [bne, beq_eq_decide, Bool.decide_and]
  have h5 : (x.coded && (s.descMat d x).isNone) = !decide (x.coded = true → (s.descMat d x).isSome = true) := by
    cases x.coded <;> simp
  simp only [State.descFault, State.descChecks, firstFailing_cons, firstFailing_nil, h4, h5, Bool.not_not, Bool.not_eq_true',
    decide_eq_false_iff_not, Nat.not_le, Classical.not_imp]

end Sys2Proof.Machine

namespace Sys2Proof.Proofs
open Sys2Proof Sys2Proof.Machine

/-- Settles O36: the branches of `descriptorAccept`; a refusal writes its registers before its descriptor leaves; the causes are the numbers of
checks in order. -/
theorem matrixDescriptors : Obligations.MatrixDescriptors := by
  unfold Obligations.MatrixDescriptors
  refine ⟨?accepts, ?gives, ?busy, ?off, ?refuses, ?causes⟩
  case accepts =>
    intro s d c r hb ho he hf hn
    exact congrArg Host.Outcome.next (descriptorAccept_takes hb ho he hf hn)
  case gives =>
    intro s d c r hr
    refine ⟨_, rfl, ?_, ?_, ?_, State.giveTile_runOf hr, State.giveTile_mem ..⟩ <;> rw [State.giveTile_core]
  case busy =>
    intro s d c r hb hr
    exact congrArg Host.Outcome.next (descriptorAccept_busy hb hr)
  case off =>
    intro s d c hb h
    exact congrArg Host.Outcome.next (descriptorAccept_off hb h)
  case refuses =>
    intro s d c r cause hb ho he hf hc
    exact ⟨_, congrArg Host.Outcome.next (descriptorAccept_refuses hb ho he hf hc), State.refuseDesc_fault .., State.refuseDesc_event ..,
      State.refuseDesc_runOf .., State.refuseDesc_mem ..⟩
  case causes =>
    intro s d x
    rw [State.descFault_eq]
    refine ⟨?_, ?_, ?_, ?_, ?_, ?_, ?_, ?_, ?_, ?_, fun n h => ?_⟩
    case refine_11 =>
      have := firstFailing_bounds h
      simp only [State.descChecks, List.length_cons, List.length_nil] at this
      omega
    all_goals simp only [firstFailing_eq_none, firstFailing_cons_eq_some, firstFailing_nil, State.descChecks, List.forall_mem_cons,
      decide_eq_true_eq, decide_eq_false_iff_not, Bool.not_eq_true', Bool.not_eq_false', Bool.not_eq_true, Bool.not_eq_false, Nat.reduceAdd,
      Nat.reduceEqDiff, reduceCtorEq, and_true, and_false, or_false, false_or, OfNat.one_ne_ofNat, List.not_mem_nil, false_imp_iff, implies_true]

end Sys2Proof.Proofs
end

section
/-! SUPPORT. How a cancelled MATRIX task ends, with the counterexample for its status (R244, R245). -/

namespace Sys2Proof.Machine
open Sys2Proof

theorem State.endTask_task {s : State} {d slot : Nat} {t : TaskEnt} (h : s.task (d * 4096 + slot) = some t) (err : Bool) :
    (s.endTask d slot err).task (d * 4096 + slot) = some { t with prog := .done (err || t.err) } := by
  simp only [State.endTask, h, State.task_setTask]

/-- A cancelled task ends with the error mark that it carries: freeing its slots changes no task. -/
theorem matrixCancel_task {s : State} {d slot : Nat} {t : TaskEnt} (h : s.task (d * 4096 + slot) = some t) (hk : t.kind = 1)
    (hs : t.isStep = true) (hd : t.discard = true) (hp : t.prog = .running) :
    (matrixCancel d slot s).task (d * 4096 + slot) = some { t with prog := .done t.err } := by
  have hc : t.kind = 1 ∧ t.isStep = true ∧ t.discard = true ∧ t.prog = .running := ⟨hk, hs, hd, hp⟩
  simp only [matrixCancel, h, if_pos hc]
  refine State.endTask_task (err := false) (Eq.trans ?_ h)
  refine congrArg (fun x : TskSt => SMap.get (fun _ => none) x.win (d * 4096 + slot)) ?_
  rw [foldl_keeps State.tsk, foldl_keeps State.tsk, foldl_keeps State.tsk]
  · exact fun s i => by simp [State.dropRun_frame]
  · intro s i
    split
    · split <;> rfl
    · rfl
  · intro s c
    split <;> rfl

end Sys2Proof.Machine

namespace Sys2Proof.Proofs
open Sys2Proof Sys2Proof.Machine

/-- A running MATRIX task of an aborted attempt, of which a read has met an uncorrectable unit (R254). -/
def cancelledTask : TaskEnt := { kind := 1, isStep := true, discard := true, prog := .running, err := true }

/-- Refutes O37: a cancelled task that carries an error mark ends with error status (`cancelledTask`). -/
theorem not_matrixOutputAndCancel : ¬ Obligations.MatrixOutputAndCancel := by
  unfold Obligations.MatrixOutputAndCancel
  rintro ⟨-, -, -, -, -, -, -, -, hcancel, -⟩
  have ht : (State.reset.setTask 0 (some cancelledTask)).task 0 = some cancelledTask := State.task_setTask ..
  obtain ⟨u, hexec, hended, -⟩ := hcancel (State.reset.setTask 0 (some cancelledTask)) 0 0 cancelledTask ht rfl rfl rfl rfl
  have herr := matrixCancel_task (d := 0) (slot := 0) ht rfl rfl rfl rfl
  have hu : matrixCancel 0 0 (State.reset.setTask 0 (some cancelledTask)) = u := Host.Outcome.next.inj hexec
  rw [hu] at herr
  exact absurd (herr.symm.trans hended) (by decide)

end Sys2Proof.Proofs
end

section
/-! SUPPORT. The overflow counter of the matrix engine over the conversion of a slice, with a counterexample for its count (R166, R177). -/

namespace Sys2Proof.Machine
open Sys2Proof

/-! ### What leaves the overflow counters -/

/-- The place of the overflow counter in the registers of a die. -/
theorem ovfCnt_mod (d : Nat) : R.MXE_OVF_CNT d % 0x8000 = 0x48 := by unfold R.MXE_OVF_CNT; omega

theorem State.reg_event_ne (s : State) {a b : Nat} (h : a ≠ b) (i : Nat) : (s.event b i).reg a = s.reg a :=
  (State.reg_event s b a i).trans (if_neg h)

theorem State.reg_incPair_ne (s : State) {a b : Nat} (h1 : a ≠ b) (h2 : a ≠ b + 4) (n : Nat) : (s.incPair b n).reg a = s.reg a :=
  State.reg_setPair s b a h1 h2

theorem State.setConv_reg (s : State) (k : Nat) (x : Option ConvSlice) (a : Nat) : (s.setConv k x).reg a = s.reg a := rfl

/-- What the record of the attempt takes up is in no register. -/
theorem State.when_modCnt_reg (s : State) (own : Bool) (f : AttemptCnt → AttemptCnt) (g : FmtSt → FmtSt) (a : Nat) :
    (s.when own (fun s => (s.modCnt f).modFmt g)).reg a = s.reg a := by
  cases own <;> rfl

section OvfCnt
variable {a : Nat} (ha : a % 0x8000 = 0x48) (s : State)
include ha

theorem ovfCnt_ne_log : a ≠ R.ERR_DROP_CNT ∧ a ≠ R.ERR_EVENTS := by
  unfold R.ERR_DROP_CNT R.ERR_EVENTS; omega

theorem ovfCnt_ne_mem (d : Nat) : a ≠ R.MEM_EVENTS ∧ a ≠ R.MEM_PF_MISS_CNT d ∧ a ≠ R.MEM_CE_CNT d ∧ a ≠ R.MEM_UE_CNT d ∧
    a ≠ R.MEM_UE_ADDR d ∧ a ≠ R.MEM_UE_ADDR d + 4 := by
  unfold R.MEM_EVENTS R.MEM_PF_MISS_CNT R.MEM_CE_CNT R.MEM_UE_CNT R.MEM_UE_ADDR; omega

theorem ovfCnt_ne_mxe (d : Nat) : a ≠ R.MXE_EVENTS d ∧ a ≠ R.RED_EVENTS ∧ a ≠ R.MXE_NF_CNT d ∧ a ≠ R.MXE_KSTEP_CNT d ∧
    a ≠ R.MXE_KSTEP_CNT d + 4 ∧ a ≠ R.MXE_CLAMP_CNT d ∧ a ≠ R.MXE_CLAMP_CNT d + 4 := by
  unfold R.MXE_EVENTS R.RED_EVENTS R.MXE_NF_CNT R.MXE_KSTEP_CNT R.MXE_CLAMP_CNT; omega

theorem State.noteRead_reg_ovf (d b n : Nat) : (s.noteRead d b n).reg a = s.reg a := by
  obtain ⟨-, hpf, -⟩ := ovfCnt_ne_mem ha d
  unfold State.noteRead
  split
  · rfl
  · exact (State.reg_incReg _ _ _ _).trans (if_neg hpf)

theorem State.noteOperands_reg_ovf (d : Nat) (x : Desc) (t : Nat) : (s.noteOperands d x t).reg a = s.reg a := by
  unfold State.noteOperands
  dsimp only
  (repeat' split) <;> simp only [State.noteRead_reg_ovf ha]

theorem State.ceNotes_reg_ovf (us : List Nat) : (s.ceNotes us).reg a = s.reg a :=
  foldl_keeps (State.reg · a) (fun s _ => (State.reg_incReg s _ _ _).trans (if_neg (ovfCnt_ne_mem ha _).2.2.1)) us s

theorem State.ueNote_reg_ovf (u : Nat) : (s.ueNote u).reg a = s.reg a := by
  obtain ⟨hev, -, -, hcnt, haddr, haddr'⟩ := ovfCnt_ne_mem ha (dieOfAddr (u * 32))
  obtain ⟨hl1, hl2⟩ := ovfCnt_ne_log ha
  rw [State.ueNote, State.reg_eventLog _ _ _ hl1 hl2, if_neg hev, State.reg_setPair _ _ _ haddr haddr', State.reg_incReg, if_neg hcnt]

theorem State.taskRead_reg_ovf (d slot : Nat) (l : List (Nat × Nat)) : (s.taskRead d slot l).reg a = s.reg a := by
  have hue (t : State) (us : List Nat) : (t.ueNotes us).reg a = t.reg a := foldl_keeps (State.reg · a) (fun s u => State.ueNote_reg_ovf ha s u) us t
  unfold State.taskRead
  dsimp only
  split
  · exact State.ceNotes_reg_ovf ha s _
  · split <;> exact (hue _ _).trans (State.ceNotes_reg_ovf ha s _)

theorem State.readTile_reg_ovf (d slot : Nat) (x : Desc) (t : Nat) : (s.readTile d slot x t).reg a = s.reg a :=
  (State.taskRead_reg_ovf ha _ _ _ _).trans (State.noteOperands_reg_ovf ha _ _ _ _)

theorem State.noteHold_reg_ovf (k c : Nat) (hold : Bool × Bool) : (s.noteHold k c hold).reg a = s.reg a := by
  obtain ⟨hev, hred, -⟩ := ovfCnt_ne_mxe ha (k / 8)
  rw [State.noteHold, State.when_keeps (State.reg · a) (State.reg_event_ne _ hev _), State.when_keeps (State.reg · a) (State.reg_event_ne _ hred _),
    State.when_keeps (State.reg · a) (State.reg_event_ne _ hred _)]
  rfl

/-- The log entries of the host's exponents that were clamped. -/
theorem State.clampNotes_reg_ovf {α : Type} (grad : Nat) (l : List α) :
    (l.foldl (fun s _ => s.eventLog R.RED_EVENTS 11 0x12 1 0 grad) s).reg a = s.reg a := by
  obtain ⟨-, hred, -⟩ := ovfCnt_ne_mxe ha 0
  obtain ⟨hl1, hl2⟩ := ovfCnt_ne_log ha
  exact foldl_keeps (State.reg · a) (fun s _ => (State.reg_eventLog s _ _ hl1 hl2).trans (if_neg hred)) l s

end OvfCnt

/-! ### The count of a slice (R166) -/

/-- The overflow counter saturates. -/
theorem State.noteOvf_reg (s : State) (d n : Nat) : (s.noteOvf d n).reg (R.MXE_OVF_CNT d) =
    BitVec.ofNat 32 (satAdd 32 (s.reg (R.MXE_OVF_CNT d)).toNat n) := by
  obtain ⟨hev, -⟩ := ovfCnt_ne_mxe (ovfCnt_mod d) d
  rcases Nat.eq_zero_or_pos n with rfl | hn
  · have := (s.reg (R.MXE_OVF_CNT d)).isLt
    rw [satAdd, Nat.add_zero, Nat.min_eq_left (by omega), BitVec.ofNat_toNat, BitVec.setWidth_eq]
    rfl
  · rw [State.noteOvf, decide_eq_true hn]
    exact (State.reg_event_ne _ hev 1).trans ((State.reg_incReg ..).trans (if_pos rfl))

/-- A converted slice adds its overflows to a counter of 32 bits that saturates. -/
theorem sliceConvert_reg_ovf {s w : State} {d cl c t i : Nat} {l : List (List Nat)} {r : DescRun} {e : StateEnt} {b : BucketEnt}
    (hw : w = s.slicesReady d cl l) (hv : w.conv (d * 8 + cl) = none) (hc : w.sliceCore d cl = some (c, r, t))
    (he : w.upd.entryOf d r.desc.grad (r.desc.out % 2 ^ 32) = some (i, e)) (hb : w.red.entryOf r.desc.grad e.first = some b)
    (hr : w.released d r.slot = false) :
    (sliceConvert d cl l s).reg (R.MXE_OVF_CNT d) = BitVec.ofNat 32 (satAdd 32 (w.reg (R.MXE_OVF_CNT d)).toNat
      ((w.readTile d r.slot r.desc t).sliceOvf (w.viewOfTask (w.task (d * 4096 + r.slot))) d r.desc t)) := by
  have ha := ovfCnt_mod d
  obtain ⟨-, -, hnf, hk, hk', hcl, hcl'⟩ := ovfCnt_ne_mxe ha d
  subst hw
  set w := s.slicesReady d cl l with hw
  have hbefore (n m : Nat) : (((w.readTile d r.slot r.desc t).incPair (R.MXE_CLAMP_CNT d) n).incReg (R.MXE_NF_CNT d) m).reg
      (R.MXE_OVF_CNT d) = w.reg (R.MXE_OVF_CNT d) := by
    rw [State.reg_incReg, if_neg hnf, State.reg_incPair_ne _ hcl hcl', State.readTile_reg_ovf ha]
  simp only [sliceConvert, ← hw, hv, hc, he, hb, hr, Bool.false_eq_true, if_false]
  rw [apply_ite (State.reg · (R.MXE_OVF_CNT d)), State.noteHold_reg_ovf ha, ite_self, State.setConv_reg, State.clampNotes_reg_ovf ha,
    State.when_modCnt_reg, State.reg_incPair_ne _ hk hk', State.noteOvf_reg, hbefore]

end Sys2Proof.Machine

namespace Sys2Proof.Proofs
open Sys2Proof Sys2Proof.Machine

/-- A gradient descriptor of one element, the square of the BF16 value 0x7F7F, which lies beyond the range of FP32. -/
def squareOfMax : DescRun := { desc := { mode := 4, fa := 1, fb := 1, grad := 9 }, slot := 3, next := 1 }

/-- Core 0 holds its slice ready, its gradient tensor is planned, and the overflow counter stands at its end. -/
def sliceAtCounterEnd : State :=
  ({ State.reset with
      mxe := { clus := [(0, [squareOfMax])], core := [(0, { slot := some 3, mode := 4, tiles := [0] })], ready := [0] }
      upd := { table := [{ grad := 9, rows := 32, cols := 32 }] }
      red := { table := [{ tensor := 9, count := 1 }] } }.hbmWrite 0 [0x7F, 0x7F]).setReg (R.MXE_OVF_CNT 0) 0xFFFFFFFF

/-- The slice overflows once. -/
theorem sliceAtCounterEnd_overflows : (sliceAtCounterEnd.readTile 0 squareOfMax.slot squareOfMax.desc 0).sliceOvf
    (sliceAtCounterEnd.viewOfTask (sliceAtCounterEnd.task (0 * 4096 + squareOfMax.slot))) 0 squareOfMax.desc 0 = 1 := by
  decide

/-- Refutes O38: MXE_OVF_CNT is one register that saturates, not the lower half of a pair that counts modulo 2^64: at its end an overflow
leaves it as it is (`sliceAtCounterEnd`). -/
theorem not_gradientSlices : ¬ Obligations.GradientSlices := by
  unfold Obligations.GradientSlices
  rintro ⟨hconvert, -⟩
  have hc : sliceAtCounterEnd.sliceCore 0 0 = some (0, squareOfMax, 0) := by decide
  have he : sliceAtCounterEnd.upd.entryOf 0 9 0 = some (0, { grad := 9, rows := 32, cols := 32 }) := by decide
  have hb : sliceAtCounterEnd.red.entryOf 9 0 = some { tensor := 9, count := 1 } := by decide
  obtain ⟨u, hexec, -, -, hpair, -⟩ := hconvert sliceAtCounterEnd sliceAtCounterEnd 0 {} 0 0 0 squareOfMax _ _ rfl rfl hc he hb rfl
  have hu : sliceConvert 0 0 [] sliceAtCounterEnd = u := Host.Outcome.next.inj hexec
  have hstays : u.reg (R.MXE_OVF_CNT 0) = 0xFFFFFFFF := by
    have hcount := sliceConvert_reg_ovf (s := sliceAtCounterEnd) (w := sliceAtCounterEnd) (d := 0) (cl := 0) (l := []) rfl rfl hc he hb rfl
    rw [← hu, hcount, sliceAtCounterEnd_overflows]
    rfl
  have hcounts : (sliceAtCounterEnd.pair (R.MXE_OVF_CNT 0) + sliceAtCounterEnd.sliceOvf
      (sliceAtCounterEnd.viewOfTask (sliceAtCounterEnd.task 3)) 0 squareOfMax.desc 0) % 2 ^ 64 = 2 ^ 32 := by decide
  have hlow : u.pair (R.MXE_OVF_CNT 0) = 0xFFFFFFFF + (u.reg (R.MXE_OVF_CNT 0 + 4)).toNat * 2 ^ 32 := by rw [State.pair, hstays]; rfl
  have := hlow.symm.trans (hpair.trans hcounts)
  omega

end Sys2Proof.Proofs
end

section
/-! SUPPORT. The blocks that the update unit takes in and handles, and what an element's update gives (R183 to R188, R195). -/

namespace Sys2Proof.Machine
open Sys2Proof

/-! ### Buckets of a channel -/

/-- A bucket that is stored reads back, whether or not one of its number was listed. -/
theorem ChanSt.bucket_setBucket (c : ChanSt) (b : BucketSt) : (c.setBucket b).bucket b.seq = b := by
  unfold ChanSt.setBucket
  by_cases hlisted : c.flight.any (fun x => x.seq == b.seq) = true
  · have hseq : ((fun x : BucketSt => x.seq == b.seq) ∘ fun x => if x.seq = b.seq then b else x) = fun x => x.seq == b.seq := by
      funext x
      by_cases hx : x.seq = b.seq <;> simp [hx]
    obtain ⟨y, hy⟩ := Option.isSome_iff_exists.mp (List.find?_isSome.trans List.any_eq_true.symm |>.mpr hlisted)
    have hyseq : y.seq = b.seq := beq_iff_eq.mp (List.find?_some (p := fun x : BucketSt => x.seq == b.seq) hy)
    rw [if_pos hlisted, ChanSt.bucket, List.find?_map, hseq, hy, Option.map_some, Option.getD_some, if_pos hyseq]
  · have hnone : c.flight.find? (fun x => x.seq == b.seq) = none :=
      Option.not_isSome_iff_eq_none.mp fun h => hlisted (List.any_eq_true.mpr (List.find?_isSome.mp h))
    rw [if_neg hlisted, ChanSt.bucket, List.find?_append, hnone, Option.none_or, List.find?_singleton, if_pos (beq_self_eq_true b.seq),
      Option.getD_some]

section Taken
variable (s : State) (c seq : Nat)

/-- What leaves with a bucket is in its channel; the count of buckets is a register and a statistic. -/
theorem State.bucketTaken_red : (s.bucketTaken c seq).red =
    (s.setChan c { (s.chan c).dropBucket seq with deliverPt := (s.chan c).deliverPt + 1 }).red := by
  simp only [State.bucketTaken, State.modCnt_frame, State.incPair_frame]

/-- A delivered bucket moves the deliver point of its channel. -/
theorem State.bucketTaken_deliverPt : ((s.bucketTaken c seq).chan c).deliverPt = (s.chan c).deliverPt + 1 := by
  rw [State.chan, State.bucketTaken_red, ← State.chan, State.chan_setChan]

/-- A delivered bucket counts as reduced. -/
theorem State.bucketTaken_pair : (s.bucketTaken c seq).pair (R.RED_CHk_BUCKETS c) = (s.pair (R.RED_CHk_BUCKETS c) + 1) % 2 ^ 64 := by
  rw [State.bucketTaken, State.pair_modCnt, State.pair_incPair]
  rfl

theorem State.bucketTaken_updD (d : Nat) : (s.bucketTaken c seq).updD d = s.updD d := by
  simp only [State.updD, State.bucketTaken_frame]

theorem State.bucketTaken_mem : (s.bucketTaken c seq).mem = s.mem := by simp only [State.bucketTaken_frame]

end Taken

/-! ### BLOCK_ACCEPT (R183, R207) -/

/-- What the next block of a bucket brings into the buffer: nothing where it lies beyond the grid of its tensor. -/
def State.nextBlocks (s : State) (b : BucketEnt) (x : BucketSt) : List BlkIn :=
  match s.upd.entryFor b with
  | some (i, e) => (match s.bucketBlock b e x.seq x.taken with
    | some k => [BlkIn.mk i k (s.reducedRec b x x.taken)]
    | none => [])
  | none => []

theorem State.length_nextBlocks (s : State) (b : BucketEnt) (x : BucketSt) : (s.nextBlocks b x).length ≤ 1 := by
  unfold State.nextBlocks
  split
  · split <;> simp
  · simp

/-- The state with the next block of a bucket in the buffer. -/
def State.buffered (s : State) (d : Nat) (b : BucketEnt) (x : BucketSt) : State :=
  s.setUpd d { s.updD d with inbuf := (s.updD d).inbuf ++ s.nextBlocks b x }

theorem State.buffered_inbuf (s : State) (d : Nat) (b : BucketEnt) (x : BucketSt) :
    ((s.buffered d b x).updD d).inbuf = (s.updD d).inbuf ++ s.nextBlocks b x := by
  rw [State.buffered, State.updD_setUpd]

section Accept
variable {s : State} {d c : Nat} {b : BucketEnt} {x : BucketSt}

theorem blockAccept_eq (ha : s.accepting d = true) (ho : s.offering d = some (c, b, x)) : blockAccept d s =
    if x.taken + 1 = s.bucketLen b x.seq then (s.buffered d b x).bucketTaken c x.seq
    else (s.buffered d b x).setChan c ((s.chan c).setBucket { x with taken := x.taken + 1 }) := by
  simp only [blockAccept, if_pos ha, ho, decide_eq_true_eq]
  rfl

theorem blockAccept_idle (h : s.accepting d = false ∨ s.offering d = none) : blockAccept d s = s := by
  unfold blockAccept
  split
  · next ha =>
    have ho : s.offering d = none := h.resolve_left (by simp [ha])
    rw [ho]
  · rfl

end Accept

/-! ### BLOCK_UPDATE and UPDATE_COMPLETE (R185, R188, R391) -/

section Update
variable {s : State} {d : Nat}

theorem blockUpdate_eq {x : BlkIn} {rest : List BlkIn} {e : StateEnt}
    (hw : (s.oldReader || (s.updD d).proj.isSome || !(s.updD d).projWait.isEmpty) = false) (hb : (s.updD d).inbuf = x :: rest)
    (he : s.upd.table[x.ent]? = some e) : blockUpdate d s =
      if (s.updD d).stopped then (s.setUpd d { s.updD d with inbuf := rest }).countBlock d e x
      else (s.setUpd d { s.updD d with inbuf := rest }).updateBlock d ((s.setUpd d { s.updD d with inbuf := rest }).upd.baseOf x.ent) e
        ((s.setUpd d { s.updD d with inbuf := rest }).upd.consts.getD x.ent {}) x := by
  have ht : (s.setUpd d { s.updD d with inbuf := rest }).upd.table[x.ent]? = some e := he
  simp only [blockUpdate, hw, Bool.false_eq_true, if_false, hb, ht, State.updD_setUpd]

theorem blockUpdate_idle
    (h : (s.oldReader || (s.updD d).proj.isSome || !(s.updD d).projWait.isEmpty) = true ∨ (s.updD d).inbuf = []) : blockUpdate d s = s := by
  unfold blockUpdate
  split
  · rfl
  · next hw => rw [h.resolve_left hw]

theorem updateComplete_done (ho : s.stp.isOpen = true)
    (hc : [4 * d, 4 * d + 1, 4 * d + 2, 4 * d + 3].all (fun c => decide (s.chanPlan c ≤ (s.chan c).deliverPt)) = true)
    (hb : (s.updD d).inbuf = []) : updateComplete d s = s.setUpd d { s.updD d with complete := true } := by
  simp only [updateComplete, ho, hc, hb, List.isEmpty_nil, Bool.and_self, if_true]

theorem updateComplete_idle (h : s.stp.isOpen = false ∨ (s.updD d).inbuf ≠ []) : updateComplete d s = s := by
  refine if_neg fun hall => ?_
  simp only [Bool.and_eq_true, List.isEmpty_iff] at hall
  obtain ⟨⟨ho, -⟩, hb⟩ := hall
  exact h.elim (fun hn => Bool.false_ne_true (hn.symm.trans ho)) fun hn => hn hb

end Update

/-! ### One element (R188) -/

section Element
variable (s : State) {e : StateEnt} (k : StepConst) (g w m v r : Word)

/-- The plain algorithm: y is the gradient, and no moment is kept. -/
theorem updElem_plain (hd : e.decay = false) (ha : e.alg = 2) :
    (updElem s e k g w m v r).w = f32Add w (f32Add (f32Neg (f32Mul k.alpha g)) r) ∧ (updElem s e k g w m v r).m = 0 := by
  simp only [updElem, hd, ha, Bool.false_eq_true, if_false, if_true, and_self]

/-- The one-moment algorithm: y is the first moment times its bias factor. -/
theorem updElem_oneMoment (hd : e.decay = false) (ha : e.alg = 1) :
    (updElem s e k g w m v r).m = f32Fma (s.pol R.UPD_BETA1) (f32Sub m g) g ∧
      (updElem s e k g w m v r).w = f32Add w (f32Add (f32Neg (f32Mul k.alpha (f32Mul (updElem s e k g w m v r).m k.a1))) r) := by
  simp only [updElem, hd, ha, Bool.false_eq_true, if_false, OfNat.one_ne_ofNat, and_self]

/-- The two-moment algorithm: the first moment is divided by the root of the second. -/
theorem updElem_twoMoment (hd : e.decay = false) (ha : e.alg = 0) :
    (updElem s e k g w m v r).v = f32Fma (s.pol R.UPD_BETA2) (f32Sub v (f32Mul g g)) (f32Mul g g) ∧
      (updElem s e k g w m v r).w = f32Add w (f32Add (f32Neg (f32Mul k.alpha (f32Div (f32Mul (updElem s e k g w m v r).m k.a1)
        (f32Fma (f32Sqrt (updElem s e k g w m v r).v) k.a2 (s.pol R.UPD_KAPPA))))) r) := by
  simp only [updElem, hd, ha, Bool.false_eq_true, if_false, if_true, OfNat.zero_ne_ofNat, and_self]

end Element

/-! ### The skip-step policy (R195) -/

section BadBlock
variable {s : State} {d : Nat} (base : Nat) (e : StateEnt) (x : BlkIn) (l : List (Nat × ElemRes × Word))

/-- Under the skip-step policy the elements are counted and the unit stops: no block is written. -/
theorem State.badBlock_skipStep (h1 : s.nfPolicy ≠ 1) (h2 : s.nfPolicy ≠ 2) : s.badBlock d base e x l =
    ((s.event R.UPD_EVENTS 3).incReg (R.UPD_NF_ELEM_CNT d) (l.filter (fun p => p.2.1.bad)).length).stopUpdates d := by
  have hp : (s.event R.UPD_EVENTS 3).nfPolicy = s.nfPolicy := rfl
  simp only [State.badBlock, hp, h1, h2, or_self, if_false, decide_false, State.when, Bool.false_eq_true]

theorem State.stopUpdates_updD (s : State) (d : Nat) : (s.stopUpdates d).updD d = { s.updD d with stopped := true, skip := true } :=
  State.updD_setUpd ..

theorem State.badBlock_event (h1 : s.nfPolicy ≠ 1) (h2 : s.nfPolicy ≠ 2) :
    (s.badBlock d base e x l).regB R.UPD_EVENTS 3 = true := by
  have hne : R.UPD_EVENTS ≠ R.UPD_NF_ELEM_CNT d := by unfold R.UPD_EVENTS R.UPD_NF_ELEM_CNT; omega
  have hcount (n : Nat) : ((s.event R.UPD_EVENTS 3).incReg (R.UPD_NF_ELEM_CNT d) n).reg R.UPD_EVENTS = (s.event R.UPD_EVENTS 3).reg R.UPD_EVENTS := by
    rw [State.reg_incReg, if_neg hne]
  rw [State.badBlock_skipStep base e x l h1 h2]
  exact (congrArg (bitOf · 3) (hcount _)).trans (State.regB_event_self s _ (by decide))

end BadBlock

end Sys2Proof.Machine

namespace Sys2Proof.Proofs
open Sys2Proof Sys2Proof.Machine

/-- Settles O39: the branches of the three block commands; the elements follow the algorithm of their entry. -/
theorem updateBlocks : Obligations.UpdateBlocks := by
  unfold Obligations.UpdateBlocks
  refine ⟨?takes, ?takesLast, ?idle, ?updates, ?waits, ?element, ?skipStep, ?complete, ?incomplete⟩
  case takes =>
    intro s d c b x ha ho hlast
    have heq := (blockAccept_eq ha ho).trans (if_neg hlast)
    have hbuf := State.buffered_inbuf s d b x
    refine ⟨_, congrArg Host.Outcome.next heq, ?_, ⟨_, hbuf.symm⟩, ?_, rfl, rfl⟩
    · have hlen : ((s.buffered d b x).updD d).inbuf.length ≤ (s.updD d).inbuf.length + 1 := by
        rw [hbuf, List.length_append]
        exact Nat.add_le_add_left (s.length_nextBlocks b x) _
      exact hlen
    · rw [State.chan_setChan]
      exact congrArg BucketSt.taken (ChanSt.bucket_setBucket (s.chan c) { x with taken := x.taken + 1 })
  case takesLast =>
    intro s d c b x ha ho hlast
    have heq := (blockAccept_eq ha ho).trans (if_pos hlast)
    refine ⟨_, congrArg Host.Outcome.next heq, State.bucketTaken_deliverPt .., State.bucketTaken_pair .., ?_, State.bucketTaken_mem ..⟩
    rw [State.bucketTaken_updD, State.buffered_inbuf]
    exact List.prefix_append _ _
  case idle =>
    intro s d h
    exact congrArg Host.Outcome.next (blockAccept_idle h)
  case updates =>
    intro s d x rest e hw hb he
    exact ⟨_, rfl, congrArg Host.Outcome.next (blockUpdate_eq hw hb he)⟩
  case waits =>
    intro s d h
    exact congrArg Host.Outcome.next (blockUpdate_idle h)
  case element =>
    intro s e k g w m v r hd
    exact ⟨updElem_plain s k g w m v r hd, updElem_oneMoment s k g w m v r hd, updElem_twoMoment s k g w m v r hd⟩
  case skipStep =>
    intro s d base e x l _ h1 h2
    have heq := State.badBlock_skipStep (d := d) base e x l h1 h2
    refine ⟨_, rfl, ?_, ?_, ?_, State.badBlock_event base e x l h1 h2⟩
    · rw [heq, State.stopUpdates_updD]
    · rw [heq, State.stopUpdates_updD]
    · rw [heq]
      rfl
  case complete =>
    intro s d ho hc hb
    exact congrArg Host.Outcome.next (updateComplete_done ho hc hb)
  case incomplete =>
    intro s d h
    exact congrArg Host.Outcome.next (updateComplete_idle h)

end Sys2Proof.Proofs
end

section
/-! SUPPORT. Projection passes from command to end, the code of a weight, the schedule table (R190, R191, R198, R199, R202). -/

namespace Sys2Proof.Machine
open Sys2Proof

/-! ### A pass starts (R198, R199, R201, R202) -/

/-- What a pass fixes as it starts comes from the policy in force, the positions and pod time. -/
theorem State.passRun_congr {s t : State} (hp : t.policy = s.policy) (ha : t.arr = s.arr) (he : t.ezl = s.ezl) (r : ProjRun) :
    t.passRun r = s.passRun r := by
  simp only [State.passRun, State.pol, State.polB, State.time, hp, ha, he]

theorem State.passRun_eq {s : State} {r : ProjRun} (h : r.thr = none) : s.passRun r =
    { r with thr := some (if r.hyst then f32Add 0x3F000000 (s.pol R.UPD_PROJ_HYST) else 0x3F000000), rescale := s.polB R.UPD_CTRL 2,
             marks := (s.arr.pos.filter (fun x => x.2.mark)).map (·.1), start := s.time } :=
  if_neg (by simp [h])

/-- The marks that a pass fixes are those of the marked positions. -/
theorem State.mem_marks_passRun {s : State} {r : ProjRun} (h : r.thr = none) (m : Nat) :
    m ∈ (s.passRun r).marks ↔ ∃ q ∈ s.arr.pos, q.1 = m ∧ q.2.mark = true := by
  simp only [State.passRun_eq h, List.mem_map, List.mem_filter]
  exact exists_congr fun q => by rw [and_assoc, and_comm (a := q.2.mark = true)]

section Start
variable {s : State} {d : Nat}

theorem projectionStart_starts {r : ProjRun} {rest : List ProjRun} (he : s.regB R.UPD_CTRL 0 = true) (hp : (s.updD d).proj = none)
    (hw : (s.updD d).projWait = r :: rest) :
    projectionStart d s = s.setUpd d { s.updD d with proj := some (s.passRun r), projWait := rest } := by
  simp only [projectionStart, he, hp, hw, Option.isNone_none, Bool.and_self, if_true]

theorem projectionStart_idle (h : s.regB R.UPD_CTRL 0 = false ∨ (s.updD d).proj.isSome = true ∨ (s.updD d).projWait = []) :
    projectionStart d s = s := by
  unfold projectionStart
  split
  · next hon =>
    obtain ⟨he, hp⟩ := Bool.and_eq_true_iff.mp hon
    have hw : (s.updD d).projWait = [] :=
      (h.resolve_left (by simp [he])).resolve_left (by rw [Option.isNone_iff_eq_none.mp hp]; exact Bool.false_ne_true)
    rw [hw]
  · rfl

/-- A command pass on one die: it waits behind the others and starts where it may. -/
def State.commandPass (s : State) (hyst : Bool) (d : Nat) : State :=
  projectionStart d (s.setUpd d { s.updD d with projWait := (s.updD d).projWait ++ [{ step := s.pair R.STEP_COUNT, hyst := hyst }] })

theorem projectCmd_eq (rq : Requester) (hyst : Bool) (hq : s.quiet = true) :
    projectCmd rq hyst s = (s.commandPass hyst 0).commandPass hyst 1 := if_pos hq

theorem projectCmd_refused (rq : Requester) (hyst : Bool) (hq : s.quiet = false) :
    projectCmd rq hyst s = s.refuseWrite rq R.UPD_CMD (if hyst then 1 else 2) 0 := if_neg (by simp [hq])

theorem State.commandPass_frame (s : State) (hyst : Bool) (d : Nat) : (s.commandPass hyst d).regs = s.regs ∧
    (s.commandPass hyst d).policy = s.policy ∧ (s.commandPass hyst d).arr = s.arr ∧ (s.commandPass hyst d).ezl = s.ezl ∧
    (s.commandPass hyst d).mem = s.mem := by
  simp only [State.commandPass, projectionStart_frame, State.setUpd_frame, and_self]

/-- On a die where no pass runs or waits the pass of a command runs at once. -/
theorem State.commandPass_proj (hyst : Bool) (he : s.regB R.UPD_CTRL 0 = true) (hp : (s.updD d).proj = none)
    (hw : (s.updD d).projWait = []) :
    ((s.commandPass hyst d).updD d).proj = some (s.passRun { step := s.pair R.STEP_COUNT, hyst := hyst }) := by
  set t := s.setUpd d { s.updD d with projWait := (s.updD d).projWait ++ [{ step := s.pair R.STEP_COUNT, hyst := hyst }] } with ht
  have hdie : t.updD d = { s.updD d with projWait := [{ step := s.pair R.STEP_COUNT, hyst := hyst }] } := by
    rw [ht, State.updD_setUpd, hw, List.nil_append]
  have hstart := projectionStart_starts (s := t) he (by rw [hdie]; exact hp) (congrArg UpdDie.projWait hdie)
  rw [State.commandPass, ← ht, hstart, State.updD_setUpd]
  exact congrArg some (State.passRun_congr (s := s) rfl rfl rfl _)

/-- A pass on one die leaves the other. -/
theorem State.commandPass_updD_ne {e : Nat} (hyst : Bool) (h : e ≠ d) : (s.commandPass hyst d).updD e = s.updD e := by
  unfold State.commandPass projectionStart
  split
  · split
    · exact State.updD_setUpd_ne s _ h
    · rw [State.updD_setUpd_ne _ _ h, State.updD_setUpd_ne _ _ h]
  · exact State.updD_setUpd_ne s _ h

/-- Where no pass runs or waits on either die, a command starts one on both. -/
theorem projectCmd_starts (rq : Requester) (hyst : Bool) (hq : s.quiet = true) (he : s.regB R.UPD_CTRL 0 = true)
    (hp0 : (s.updD 0).proj = none) (hp1 : (s.updD 1).proj = none) (hw0 : (s.updD 0).projWait = []) (hw1 : (s.updD 1).projWait = []) :
    ((projectCmd rq hyst s).updD 0).proj = some (s.passRun { step := s.pair R.STEP_COUNT, hyst := hyst }) ∧
      ((projectCmd rq hyst s).updD 1).proj = some (s.passRun { step := s.pair R.STEP_COUNT, hyst := hyst }) ∧
      (projectCmd rq hyst s).mem = s.mem ∧ (projectCmd rq hyst s).regs = s.regs := by
  obtain ⟨hregs, hpol, harr, hezl, hmem⟩ := s.commandPass_frame hyst 0
  obtain ⟨hregs', -, -, -, hmem'⟩ := (s.commandPass hyst 0).commandPass_frame hyst 1
  have hreg (a : Nat) : (s.commandPass hyst 0).reg a = s.reg a := by rw [State.reg, hregs, ← State.reg]
  have hdie1 : (s.commandPass hyst 0).updD 1 = s.updD 1 := State.commandPass_updD_ne hyst (by decide)
  rw [projectCmd_eq rq hyst hq]
  refine ⟨?_, ?_, hmem'.trans hmem, hregs'.trans hregs⟩
  · rw [State.commandPass_updD_ne hyst (by decide), State.commandPass_proj hyst he hp0 hw0]
  · rw [State.commandPass_proj hyst ?_ (hdie1 ▸ hp1) (hdie1 ▸ hw1), State.passRun_congr hpol harr hezl, State.pair, hreg, hreg, ← State.pair]
    rw [State.regB, hreg, ← State.regB, he]

end Start

/-! ### A pass ends (R199, R202) -/

section Held
variable {s : State} {d : Nat}

/-- A write is held on a die whose pass runs. -/
theorem State.proj_isSome_of_heldBy {o i : Nat} {bs : List Byte} (h : s.heldBy o bs = some i) : (s.updD i).proj.isSome = true := by
  unfold State.heldBy at h
  have hi := List.find?_some h
  exact (Bool.and_eq_true_iff.mp hi).1

/-- A host write leaves a die on which no pass runs. -/
theorem State.holdOrWrite_updD (h : (s.updD d).proj = none) (o : Nat) (bs : List Byte) : (s.holdOrWrite o bs).updD d = s.updD d := by
  unfold State.holdOrWrite
  split
  · next i hi =>
    have hne : d ≠ i := by
      rintro rfl
      exact absurd (State.proj_isSome_of_heldBy hi) (by simp [h])
    exact State.updD_setUpd_ne s _ hne
  · obtain ⟨-, -, -, hupd, -⟩ := s.writeCopies_spec o bs
    rw [State.updD, hupd, ← State.updD]

/-- The writes held in a pass leave a die on which no pass runs. -/
theorem State.foldl_holdOrWrite_updD (l : List (Nat × List Byte)) (h : (s.updD d).proj = none) :
    (l.foldl (fun s w => s.holdOrWrite w.1 w.2) s).updD d = s.updD d := by
  induction l generalizing s with
  | nil => rfl
  | cons w l ih =>
    have hw := State.holdOrWrite_updD h w.1 w.2
    rw [List.foldl_cons, ih (by rw [hw, h]), hw]

theorem State.foldl_holdOrWrite_reg (s : State) (l : List (Nat × List Byte)) (a : Nat) :
    (l.foldl (fun s w => s.holdOrWrite w.1 w.2) s).reg a = s.reg a := by
  have hregs := foldl_keeps State.regs (fun (s : State) (w : Nat × List Byte) => (s.holdOrWrite_frame w.1 w.2).1) l s
  rw [State.reg, hregs, ← State.reg]

/-- The state in which the writes held in a pass are made: the pass has ended. -/
def State.projectionEnded (s : State) (d : Nat) (run : ProjRun) : State :=
  let u := ((s.projectDie d run).setPair R.UPD_PROJ_STEP run.step).event R.UPD_EVENTS 6
  u.setUpd d { u.updD d with proj := none, heldWrites := [] }

/-- The writes held when the pass is done. -/
def State.heldAtEnd (s : State) (d : Nat) (run : ProjRun) : List (Nat × List Byte) :=
  ((((s.projectDie d run).setPair R.UPD_PROJ_STEP run.step).event R.UPD_EVENTS 6).updD d).heldWrites

theorem projectionDone_eq {run : ProjRun} (h : (s.updD d).proj = some run) :
    projectionDone d s = (s.heldAtEnd d run).foldl (fun s w => s.holdOrWrite w.1 w.2) (s.projectionEnded d run) := by
  simp only [projectionDone, h]
  rfl

theorem projectionDone_idle (h : (s.updD d).proj = none) : projectionDone d s = s := by simp only [projectionDone, h]

theorem projectionDone_updD {run : ProjRun} (h : (s.updD d).proj = some run) :
    ((projectionDone d s).updD d).proj = none ∧ ((projectionDone d s).updD d).heldWrites = [] := by
  have hdie : ((s.projectionEnded d run).updD d).proj = none ∧ ((s.projectionEnded d run).updD d).heldWrites = [] := by
    rw [State.projectionEnded, State.updD_setUpd]
    exact ⟨rfl, rfl⟩
  rw [projectionDone_eq h, State.foldl_holdOrWrite_updD _ hdie.1]
  exact hdie

/-- A pair that is written keeps 64 bits of the number. -/
theorem State.pair_setPair_mod (s : State) (a n : Nat) : (s.setPair a n).pair a = n % 2 ^ 64 := by
  have hlow : BitVec.ofNat 32 (n % 2 ^ 64) = BitVec.ofNat 32 n := BitVec.eq_of_toNat_eq (by simp only [BitVec.toNat_ofNat]; omega)
  have hhigh : BitVec.ofNat 32 (n % 2 ^ 64 / 2 ^ 32) = BitVec.ofNat 32 (n / 2 ^ 32) :=
    BitVec.eq_of_toNat_eq (by simp only [BitVec.toNat_ofNat]; omega)
  have hcut : s.setPair a n = s.setPair a (n % 2 ^ 64) := by simp only [State.setPair, State.setRegN, hlow, hhigh]
  rw [hcut, State.pair_setPair s a (Nat.mod_lt n (by decide))]

/-- The step of the pass is recorded: a pair holds 64 bits of it. -/
theorem projectionDone_pair {run : ProjRun} (h : (s.updD d).proj = some run) :
    (projectionDone d s).pair R.UPD_PROJ_STEP = run.step % 2 ^ 64 := by
  have hreg {a : Nat} (ha : a ≠ R.UPD_EVENTS) :
      (projectionDone d s).reg a = ((s.projectDie d run).setPair R.UPD_PROJ_STEP run.step).reg a := by
    rw [projectionDone_eq h, State.foldl_holdOrWrite_reg]
    exact State.reg_event_ne _ ha 6
  rw [State.pair, hreg (by decide), hreg (by decide), ← State.pair, State.pair_setPair_mod]

theorem projectionDone_event {run : ProjRun} (h : (s.updD d).proj = some run) : (projectionDone d s).regB R.UPD_EVENTS 6 = true := by
  rw [State.regB, projectionDone_eq h, State.foldl_holdOrWrite_reg]
  exact State.regB_event_self _ _ (by decide)

end Held

/-! ### The code of a weight (R199) -/

theorem clampInt_bounds {lo hi : Int} (h : lo ≤ hi) (z : Int) : lo ≤ clampInt lo hi z ∧ clampInt lo hi z ≤ hi := by
  unfold clampInt
  omega

/-- The code of a finite weight with a finite quotient: kept within the threshold, else the nearest. -/
theorem projCode_finite {thr : Option Word} {w sc : Word} {old : Int} {n : Bool} {m : Nat} {e : Int} (hw : f32Finite w = true)
    (hx : f32 (f32Div w sc) = .fin n m e) : projCode thr w sc old =
      (if (thr.elim false fun t => XNum.le (XNum.sub (.fin n m e) (XNum.ofInt old)).abs (f32 t)) = true then old
        else clampInt (-15) 15 (XNum.roundInt .rne (.fin n m e)), false) := by
  simp only [projCode, hw, hx, Bool.not_true, Bool.false_eq_true, if_false]
  cases thr <;> rfl

theorem projCode_notFinite {w : Word} (thr : Option Word) (sc : Word) (old : Int) (hw : f32Finite w = false) :
    projCode thr w sc old = (old, true) := by
  simp only [projCode, hw, Bool.not_false, if_true]

/-! ### The schedule table (R190) -/

section Sched
variable (rq : Requester) (v : Word) (s : State)

theorem schedDataAccess_write : schedDataAccess rq (some v) s =
    (s.modUpd (fun u => { u with sched := SMap.set (fun _ => 0) u.sched s.schedIdx v })).setRegF R.UPD_SCHED_IDX 11 0
      ((s.schedIdx + 1) % 4096) := rfl

theorem schedDataAccess_read : schedDataAccess rq none s =
    (s.emit (.reply rq R.UPD_SCHED_DATA (SMap.get (fun _ => 0) s.upd.sched s.schedIdx))).setRegF R.UPD_SCHED_IDX 11 0
      ((s.schedIdx + 1) % 4096) := rfl

/-- Every access moves the index on, modulo the size of the table. -/
theorem schedDataAccess_schedIdx (wr : Option Word) : (schedDataAccess rq wr s).schedIdx = (s.schedIdx + 1) % 4096 :=
  (State.regF_setRegF_self _ R.UPD_SCHED_IDX (by decide) (by decide) _).trans (Nat.mod_mod _ 4096)

end Sched

theorem stepSizeWrite_taken {s : State} (rq : Requester) (v : Word) (h : s.fnHost 8 = true) :
    stepSizeWrite rq v s = (s.setReg R.UPD_STEP_SIZE v).modUpd (fun u => { u with fresh := true }) := if_pos h

theorem stepSizeWrite_refused {s : State} (rq : Requester) (v : Word) (h : s.fnHost 8 = false) :
    stepSizeWrite rq v s = (s.refuseBit rq R.UPD_STEP_SIZE v 0 2).event R.UPD_EVENTS 2 := if_neg (by simp [h])

end Sys2Proof.Machine

namespace Sys2Proof.Proofs
open Sys2Proof Sys2Proof.Machine

/-- Settles O40: the branches of the projection and schedule commands; the writes held in a pass leave its die and the registers. -/
theorem projectionAndSchedule : Obligations.ProjectionAndSchedule := by
  unfold Obligations.ProjectionAndSchedule
  refine ⟨?refused, ?commands, ?starts, ?startIdle, ?fixes, ?done, ?doneIdle, ?finite, ?notFinite, ?sched, ?taken, ?ignored⟩
  case refused =>
    intro s rq hq
    exact ⟨congrArg Host.Outcome.next (projectCmd_refused rq true hq), congrArg Host.Outcome.next (projectCmd_refused rq false hq)⟩
  case commands =>
    intro s rq hq he hp0 hp1 hw0 hw1
    exact ⟨⟨_, rfl, projectCmd_starts rq true hq he hp0 hp1 hw0 hw1⟩, ⟨_, rfl, projectCmd_starts rq false hq he hp0 hp1 hw0 hw1⟩⟩
  case starts =>
    intro s d r rest he hp hw
    exact congrArg Host.Outcome.next (projectionStart_starts he hp hw)
  case startIdle =>
    intro s d h
    exact congrArg Host.Outcome.next (projectionStart_idle h)
  case fixes =>
    intro s r hr
    refine ⟨?_, ?_, ?_, ?_, State.mem_marks_passRun hr⟩ <;> rw [State.passRun_eq hr]
  case done =>
    intro s d run h
    obtain ⟨hproj, hheld⟩ := projectionDone_updD h
    exact ⟨_, rfl, hproj, hheld, projectionDone_pair h, projectionDone_event h⟩
  case doneIdle =>
    intro s d h
    exact congrArg Host.Outcome.next (projectionDone_idle h)
  case finite =>
    intro thr w sc old n m e hw hx hold
    have hclamp := clampInt_bounds (lo := -15) (hi := 15) (by decide) (XNum.roundInt .rne (.fin n m e))
    rw [projCode_finite hw hx]
    refine ⟨rfl, ?_, ?_, ?_, ?_⟩
    · dsimp only
      split
      · exact hold.1
      · exact hclamp.1
    · dsimp only
      split
      · exact hold.2
      · exact hclamp.2
    · rintro rfl
      rfl
    · rintro t rfl
      rfl
  case notFinite =>
    intro thr w sc old hw
    exact projCode_notFinite thr sc old hw
  case sched =>
    intro s rq v _
    refine ⟨⟨_, rfl, ?_, schedDataAccess_schedIdx rq s (some v), rfl, rfl⟩, ⟨_, rfl, rfl, schedDataAccess_schedIdx rq s none, rfl⟩⟩
    rw [schedDataAccess_write]
    exact SMap.get_set_self
  case taken =>
    intro s rq v h
    refine ⟨_, congrArg Host.Outcome.next (stepSizeWrite_taken rq v h), ?_, rfl, rfl⟩
    exact (State.reg_setReg s _ _ v).trans (if_pos rfl)
  case ignored =>
    intro s rq v h
    exact congrArg Host.Outcome.next (stepSizeWrite_refused rq v h)

end Sys2Proof.Proofs
end

section
/-! SUPPORT. The buckets of a channel, the ways of a ring message, the sum of a hop (R213, R216, R228). -/

namespace Sys2Proof.Machine
open Sys2Proof

/-! ### Buckets of a channel -/

/-- A bucket is read under its own number, listed or not. -/
@[simp] theorem ChanSt.seq_bucket (c : ChanSt) (q : Nat) : (c.bucket q).seq = q := by
  unfold ChanSt.bucket
  cases hq : c.flight.find? (fun b => b.seq == q) with
  | none => rfl
  | some b => exact beq_iff_eq.mp (List.find?_some (p := fun b : BucketSt => b.seq == q) hq)

theorem State.bucket_setChan_setBucket (s : State) (k : Nat) (c : ChanSt) {b : BucketSt} {q : Nat} (h : b.seq = q) :
    ((s.setChan k (c.setBucket b)).chan k).bucket q = b := by
  rw [State.chan_setChan, ← h, ChanSt.bucket_setBucket]

/-- A bucket that is stored moves neither point of its channel. -/
theorem ChanSt.setBucket_points (c : ChanSt) (b : BucketSt) :
    (c.setBucket b).sendPt = c.sendPt ∧ (c.setBucket b).deliverPt = c.deliverPt := by
  unfold ChanSt.setBucket
  split <;> exact ⟨rfl, rfl⟩

section Written
variable (s : State) (k : Nat) (y : ChanSt)

/-- What a channel holds is no part of the group, the plan or the own records of a bucket. -/
@[simp] theorem State.groupN_setChan : (s.setChan k y).groupN = s.groupN := rfl
@[simp] theorem State.bucketEnt_setChan (c q : Nat) : (s.setChan k y).red.bucketEnt c q = s.red.bucketEnt c q := rfl
@[simp] theorem State.ownRecs_setChan (b : BucketEnt) (x : BucketSt) : (s.setChan k y).ownRecs b x = s.ownRecs b x := rfl

end Written

/-- A stored chunk replaces that of its number and leaves the slices. -/
theorem State.bucket_storeChunk (s : State) (c q k : Nat) (l : List BlockRec) : ((s.storeChunk c q k l).chan c).bucket q =
    { (s.chan c).bucket q with chunks := ((s.chan c).bucket q).chunks.filter (fun p => p.1 ≠ k) ++ [(k, l)] } :=
  State.bucket_setChan_setBucket s c (s.chan c) ((s.chan c).seq_bucket q)

/-! ### RING_MESSAGE (R216) -/

/-- The state in which a reduce message waits for the own contribution of its bucket, which it opens. -/
def State.joinWaiting (s : State) (c : Nat) (m : RingMsg) : State :=
  s.setChan c ((s.chan c).setBucket { (s.chan c).bucket m.seq with
    waiting := ((s.chan c).bucket m.seq).waiting ++ [m], opened := some (((s.chan c).bucket m.seq).opened.getD s.time) })

theorem State.bucket_joinWaiting (s : State) (c : Nat) (m : RingMsg) : ((s.joinWaiting c m).chan c).bucket m.seq =
    { (s.chan c).bucket m.seq with
      waiting := ((s.chan c).bucket m.seq).waiting ++ [m], opened := some (((s.chan c).bucket m.seq).opened.getD s.time) } :=
  State.bucket_setChan_setBucket s c (s.chan c) ((s.chan c).seq_bucket m.seq)

section Message
variable {s u : State} {c : Nat} {m : RingMsg} (hu : s.takeRx 2 (fun f => f.startsWith (msgBytes m)) = u)
include hu

theorem ringMessage_off (h : u.chanOn c = false ∨ u.groupN ≤ 1) : ringMessage c m s = u := by
  have hoff : (!u.chanOn c || decide (u.groupN ≤ 1)) = true := by simpa using h
  simp only [ringMessage, hu, hoff, if_true]

variable (hon : u.chanOn c = true) (hn : 1 < u.groupN)
include hon hn

/-- In a ring a channel that is on looks at the attempt of the message first, and then at its checks. -/
theorem ringMessage_on : ringMessage c m s =
    if m.epoch < u.epoch then u.incReg R.RED_STALE_CNT 1
    else if u.epoch < m.epoch ∨ m.step ≠ u.stepNum ∨ m.attempt ≠ u.attNum then u.findAbort 3 c m.seq m.sender
    else if !u.msgOk c m then u.findAbort 4 c m.seq m.sender
    else if m.phase = 1 then u.joinWaiting c m
    else if (u.red.pos + 1) % u.groupN ≠ m.chunk then (u.storeChunk c m.seq m.chunk m.recs).sendMsg c { m with sender := u.red.pos }
    else u.storeChunk c m.seq m.chunk m.recs := by
  have htaken : ¬(!u.chanOn c || decide (u.groupN ≤ 1)) = true := by simp [hon, hn]
  simp only [ringMessage, hu, if_neg htaken]
  rfl

theorem ringMessage_stale (he : m.epoch < u.epoch) : ringMessage c m s = u.incReg R.RED_STALE_CNT 1 := by
  rw [ringMessage_on hu hon hn, if_pos he]

theorem ringMessage_otherAttempt (h : u.epoch < m.epoch ∨ (m.epoch = u.epoch ∧ (m.step ≠ u.stepNum ∨ m.attempt ≠ u.attNum))) :
    ringMessage c m s = u.findAbort 3 c m.seq m.sender := by
  have hnew : ¬m.epoch < u.epoch := by omega
  rw [ringMessage_on hu hon hn, if_neg hnew, if_pos (h.imp_right And.right)]

variable (he : m.epoch = u.epoch) (hs : m.step = u.stepNum) (ha : m.attempt = u.attNum)
include he hs ha

/-- A message of the attempt in progress goes by its checks and its phase. -/
theorem ringMessage_current : ringMessage c m s =
    if !u.msgOk c m then u.findAbort 4 c m.seq m.sender
    else if m.phase = 1 then u.joinWaiting c m
    else if (u.red.pos + 1) % u.groupN ≠ m.chunk then (u.storeChunk c m.seq m.chunk m.recs).sendMsg c { m with sender := u.red.pos }
    else u.storeChunk c m.seq m.chunk m.recs := by
  rw [ringMessage_on hu hon hn, if_neg (by omega), if_neg (by omega)]

theorem ringMessage_bad (hok : u.msgOk c m = false) : ringMessage c m s = u.findAbort 4 c m.seq m.sender := by
  rw [ringMessage_current hu hon hn he hs ha, if_pos (by simp [hok])]

variable (hok : u.msgOk c m = true)
include hok

theorem ringMessage_reduce (hp : m.phase = 1) : ringMessage c m s = u.joinWaiting c m := by
  rw [ringMessage_current hu hon hn he hs ha, if_neg (by simp [hok]), if_pos hp]

theorem ringMessage_gather (hp : m.phase = 2) : ringMessage c m s =
    if (u.red.pos + 1) % u.groupN ≠ m.chunk then (u.storeChunk c m.seq m.chunk m.recs).sendMsg c { m with sender := u.red.pos }
    else u.storeChunk c m.seq m.chunk m.recs := by
  rw [ringMessage_current hu hon hn he hs ha, if_neg (by simp [hok]), if_neg (by omega)]

end Message

/-! ### REDUCE_HOP_ADD (R216) -/

/-- The state in which the first waiting message of a bucket has been taken up. -/
def State.takeWaiting (s : State) (c : Nat) (x : BucketSt) : State :=
  s.setChan c ((s.chan c).setBucket { x with waiting := x.waiting.drop 1 })

/-- The message a hop passes on: the sums of the records, one more contribution, this member as its sender. -/
def State.hopMsg (s : State) (m : RingMsg) (b : BucketEnt) (recs : List BlockRec) : RingMsg :=
  { m with recs := recs, contrib := m.contrib + 1, sender := s.red.pos, crc := recsCrc (s.wire32 b.tensor) recs }

/-- The sums of a message's records and the own ones. -/
def State.hopSums (s : State) (m : RingMsg) (b : BucketEnt) (own : List BlockRec) : List BlockRec :=
  (List.zip m.recs own).map (fun p => addRec (s.wire32 b.tensor) p.1 p.2)

section Hop
variable {s : State} {c : Nat}

theorem reduceHopAdd_none (h : (s.chan c).hopReady = none) : reduceHopAdd c s = s := by
  simp only [reduceHopAdd, h]

variable {x : BucketSt} {m : RingMsg} {b : BucketEnt} {own : List BlockRec} (h : (s.chan c).hopReady = some (x, m))
  (hb : s.red.bucketEnt c m.seq = some b) (hown : chunkRecs s.groupN m.chunk (s.ownRecs b x) = own)
include h hb hown

theorem reduceHopAdd_mismatch
    (hbad : own.length ≠ m.recs.length ∨ (List.zip m.recs own).any (fun p => decide (p.1.scale ≠ p.2.scale)) = true) :
    reduceHopAdd c s = (s.takeWaiting c x).findAbort 4 c m.seq m.sender := by
  simp only [reduceHopAdd, h, State.bucketEnt_setChan, hb, State.groupN_setChan, State.ownRecs_setChan, hown, if_pos hbad]
  rfl

theorem reduceHopAdd_sums (hlen : own.length = m.recs.length)
    (hscale : (List.zip m.recs own).any (fun p => decide (p.1.scale ≠ p.2.scale)) = false) : reduceHopAdd c s =
    if m.chunk = s.red.pos then
      ((s.takeWaiting c x).storeChunk c m.seq m.chunk (s.hopSums m b own)).sendMsg c
        { s.hopMsg m b (s.hopSums m b own) with phase := 2 }
    else (s.takeWaiting c x).sendMsg c (s.hopMsg m b (s.hopSums m b own)) := by
  have hgood : ¬(own.length ≠ m.recs.length ∨ (List.zip m.recs own).any (fun p => decide (p.1.scale ≠ p.2.scale)) = true) := by
    rw [hscale]
    simp [hlen]
  simp only [reduceHopAdd, h, State.bucketEnt_setChan, hb, State.groupN_setChan, State.ownRecs_setChan, hown, if_neg hgood]
  rfl

end Hop

/-! ### The sum of two records (R213, R228) -/

/-- A record made from all its integers reads each of them back; zeros are not listed. -/
theorem BlockRec.val_withVals (r : BlockRec) (f : Nat → Int) {i : Nat} (hi : i < 1024) :
    BlockRec.val (BlockRec.withVals r f) i = f i := by
  have hfind : (BlockRec.withVals r f).v.find? (fun p => p.1 == i) =
      ((List.range 1024).find? (fun j => decide (f j ≠ 0 ∧ j = i))).map (fun j => (j, f j)) := by
    rw [BlockRec.withVals, List.find?_filter, List.find?_map]
    simp only [Function.comp_def, decide_eq_true_eq, beq_iff_eq]
  rw [BlockRec.val, hfind]
  by_cases hz : f i = 0
  · have hnone : (List.range 1024).find? (fun j => decide (f j ≠ 0 ∧ j = i)) = none := by
      rw [List.find?_eq_none]
      rintro j - hj
      obtain ⟨hne, rfl⟩ := of_decide_eq_true hj
      exact hne hz
    rw [hnone]
    exact hz.symm
  · have hsome : (List.range 1024).find? (fun j => decide (f j ≠ 0 ∧ j = i)) = some i := by
      rw [List.find?_range_eq_some]
      refine ⟨decide_eq_true ⟨hz, rfl⟩, List.mem_range.mpr hi, fun j hj => ?_⟩
      simp [Nat.ne_of_lt hj]
    rw [hsome]
    rfl

theorem val_addRec (w : Bool) (x y : BlockRec) {i : Nat} (hi : i < 1024) :
    BlockRec.val (addRec w x y) i = sext (wireBits w) (toTwos (wireBits w) (BlockRec.val x i + BlockRec.val y i)) :=
  BlockRec.val_withVals _ _ hi

/-- A sum is marked where a part is, or where the merged list is too long. -/
theorem addRec_marked (w : Bool) (x y : BlockRec) :
    (addRec w x y).marked = true ↔ x.marked = true ∨ y.marked = true ∨ 4 < (mergeLists x.list y.list).length := by
  simp only [addRec, BlockRec.withVals, Bool.or_eq_true, decide_eq_true_eq, or_assoc]

end Sys2Proof.Machine

namespace Sys2Proof.Proofs
open Sys2Proof Sys2Proof.Machine

/-- Settles O41: a message takes the branch its attempt, its checks and its phase name; a hop stores or passes on the sums; a record made
from all its integers reads them back. -/
theorem ringMessages : Obligations.RingMessages := by
  unfold Obligations.RingMessages
  refine ⟨?off, ?stale, ?otherAttempt, ?bad, ?reduce, ?gather, ?stored, ?hopIdle, ?mismatch, ?hop, ?sum⟩
  case off =>
    intro s u c m hu h
    exact congrArg Host.Outcome.next (ringMessage_off hu h)
  case stale =>
    intro s u c m hu hon hn he
    exact congrArg Host.Outcome.next (ringMessage_stale hu hon hn he)
  case otherAttempt =>
    intro s u c m hu hon hn h
    exact congrArg Host.Outcome.next (ringMessage_otherAttempt hu hon hn h)
  case bad =>
    intro s u c m hu hon hn he hs ha hok
    exact congrArg Host.Outcome.next (ringMessage_bad hu hon hn he hs ha hok)
  case reduce =>
    intro s u c m hu hon hn he hs ha hok hp
    refine ⟨_, congrArg Host.Outcome.next (ringMessage_reduce hu hon hn he hs ha hok hp), ?_, ?_, ?_, rfl, rfl⟩ <;>
      rw [State.bucket_joinWaiting]
    rfl
  case gather =>
    intro s u c m hu hon hn he hs ha hok hp
    exact congrArg Host.Outcome.next (ringMessage_gather hu hon hn he hs ha hok hp)
  case stored =>
    intro s c q k l
    refine ⟨_, rfl, ?_, ?_⟩ <;> rw [State.bucket_storeChunk]
  case hopIdle =>
    intro s c h
    exact congrArg Host.Outcome.next (reduceHopAdd_none h)
  case mismatch =>
    intro s c x m b own h hb hown hbad
    exact congrArg Host.Outcome.next (reduceHopAdd_mismatch h hb hown hbad)
  case hop =>
    rintro s c x m b own _ h hb hown hlen hscale rfl
    exact ⟨_, _, rfl, rfl, congrArg Host.Outcome.next (reduceHopAdd_sums h hb hown hlen hscale)⟩
  case sum =>
    intro w x y i hi
    exact ⟨val_addRec w x y hi, addRec_marked w x y⟩

end Sys2Proof.Proofs
end

section
/-! SUPPORT. The buckets at the send and the deliver point, the two timers, FORM (R205, R218, R219, R221, R222). -/

namespace Sys2Proof.Machine
open Sys2Proof

/-! ### BUCKET_SEND (R218) -/

/-- The state in which the bucket at the send point is marked as sent, opened as given, and the send point has moved on. -/
def State.sentNext (s : State) (c : Nat) (opened : Option Nat) : State :=
  s.setChan c (({ s.chan c with sendPt := (s.chan c).sendPt + 1 }).setBucket
    { (s.chan c).bucket (s.chan c).sendPt with sent := true, opened := opened })

theorem State.sendPt_sentNext (s : State) (c : Nat) (opened : Option Nat) :
    ((s.sentNext c opened).chan c).sendPt = (s.chan c).sendPt + 1 := by
  rw [State.sentNext, State.chan_setChan, (ChanSt.setBucket_points _ _).1]

theorem State.bucket_sentNext (s : State) (c : Nat) (opened : Option Nat) : ((s.sentNext c opened).chan c).bucket (s.chan c).sendPt =
    { (s.chan c).bucket (s.chan c).sendPt with sent := true, opened := opened } :=
  State.bucket_setChan_setBucket s c _ ((s.chan c).seq_bucket (s.chan c).sendPt)

section Send
variable {s : State} {c : Nat} {b : BucketEnt}

theorem bucketSend_solo (hb : s.red.bucketEnt c (s.chan c).sendPt = some b)
    (hown : ((s.chan c).bucket (s.chan c).sendPt).ownDone = true) (hon : s.chanOn c = true) (hn : s.groupN ≤ 1) :
    bucketSend c s = s.sentNext c ((s.chan c).bucket (s.chan c).sendPt).opened := by
  have hready : (((s.chan c).bucket (s.chan c).sendPt).ownDone && s.chanOn c) = true := by simp [hown, hon]
  simp only [bucketSend, hb, if_pos hready, if_pos hn]
  rfl

/-- In a ring the chunk one place back from the own position goes first (R213). -/
theorem bucketSend_ring (hb : s.red.bucketEnt c (s.chan c).sendPt = some b)
    (hown : ((s.chan c).bucket (s.chan c).sendPt).ownDone = true) (hon : s.chanOn c = true) (hn : 1 < s.groupN) :
    bucketSend c s = (s.sentNext c (some (((s.chan c).bucket (s.chan c).sendPt).opened.getD s.time))).sendMsg c
      (s.ownMsg c (s.chan c).sendPt ((s.red.pos + s.groupN - 1) % s.groupN) b
        (chunkRecs s.groupN ((s.red.pos + s.groupN - 1) % s.groupN) (s.ownRecs b ((s.chan c).bucket (s.chan c).sendPt)))) := by
  have hready : (((s.chan c).bucket (s.chan c).sendPt).ownDone && s.chanOn c) = true := by simp [hown, hon]
  simp only [bucketSend, hb, if_pos hready, if_neg (Nat.not_le.mpr hn)]
  rfl

theorem bucketSend_idle (h : s.red.bucketEnt c (s.chan c).sendPt = none ∨ ((s.chan c).bucket (s.chan c).sendPt).ownDone = false ∨
    s.chanOn c = false) : bucketSend c s = s := by
  unfold bucketSend
  dsimp only
  split
  · rfl
  · next b hb =>
    have hwait : ¬(((s.chan c).bucket (s.chan c).sendPt).ownDone && s.chanOn c) = true := by
      rcases h with hnone | hown | hoff
      · simp [hnone] at hb
      · simp [hown]
      · simp [hoff]
    exact if_neg hwait

end Send

/-! ### BUCKET_DELIVER (R219) -/

/-- The state in which the bucket at the deliver point is being delivered. -/
def State.startDelivery (s : State) (c : Nat) : State :=
  s.setChan c ((s.chan c).setBucket { (s.chan c).bucket (s.chan c).deliverPt with delivering := true })

theorem State.deliverPt_startDelivery (s : State) (c : Nat) : ((s.startDelivery c).chan c).deliverPt = (s.chan c).deliverPt := by
  rw [State.startDelivery, State.chan_setChan, (ChanSt.setBucket_points _ _).2]

theorem State.bucket_startDelivery (s : State) (c : Nat) : ((s.startDelivery c).chan c).bucket (s.chan c).deliverPt =
    { (s.chan c).bucket (s.chan c).deliverPt with delivering := true } :=
  State.bucket_setChan_setBucket s c (s.chan c) ((s.chan c).seq_bucket (s.chan c).deliverPt)

section Deliver
variable {s : State} {c : Nat}

/-- What a delivery counts beside it is no part of the ring. -/
theorem bucketDeliver_red {b : BucketEnt} (hb : s.red.bucketEnt c (s.chan c).deliverPt = some b)
    (hr : s.reduced b ((s.chan c).bucket (s.chan c).deliverPt) = true) (hd : ((s.chan c).bucket (s.chan c).deliverPt).delivering = false)
    (hp : (s.chan c).deliverPt < (s.chan c).sendPt) : (bucketDeliver c s).red = (s.startDelivery c).red := by
  simp only [bucketDeliver, hb, hr, hd, hp, Bool.not_false, decide_true, Bool.and_self, if_true]
  exact foldl_keeps State.red (fun t i => by simp only [State.foldAmax_frame, State.noteRec_frame]) _ _

theorem bucketDeliver_idle (h : s.red.bucketEnt c (s.chan c).deliverPt = none ∨
    ((s.chan c).bucket (s.chan c).deliverPt).delivering = true ∨ (s.chan c).sendPt ≤ (s.chan c).deliverPt) : bucketDeliver c s = s := by
  unfold bucketDeliver
  dsimp only
  split
  · rfl
  · next b hb =>
    have hwait : ¬(s.reduced b ((s.chan c).bucket (s.chan c).deliverPt) && !((s.chan c).bucket (s.chan c).deliverPt).delivering &&
        decide ((s.chan c).deliverPt < (s.chan c).sendPt)) = true := by
      rcases h with hnone | hdel | hpt
      · simp [hnone] at hb
      · simp [hdel]
      · simp [hpt]
    exact if_neg hwait

end Deliver

/-! ### The timers (R221, R222) -/

section Timers
variable {s : State} {c q : Nat}

theorem deadline_aborts (ho : ((s.chan c).bucket q).opened.isSome = true) (hd : ((s.chan c).bucket q).ownDone = false)
    (hn : 1 < s.groupN) : deadline c q s = s.findAbort 1 c q 0xFF :=
  if_pos ⟨ho, by simp [hd], hn⟩

theorem deadline_idle (h : ((s.chan c).bucket q).opened = none ∨ ((s.chan c).bucket q).ownDone = true ∨ s.groupN ≤ 1) :
    deadline c q s = s := by
  refine if_neg ?_
  rintro ⟨ho, hd, hn⟩
  rcases h with hnone | hdone | hsolo
  · simp [hnone] at ho
  · simp [hdone] at hd
  · omega

theorem ringTimeout_aborts {b : BucketEnt} (hb : s.red.bucketEnt c q = some b) (hd : ((s.chan c).bucket q).ownDone = true)
    (hr : s.reduced b ((s.chan c).bucket q) = false) (hn : 1 < s.groupN) : ringTimeout c q s = s.findAbort 2 c q 0xFF := by
  simp only [ringTimeout, hb]
  exact if_pos ⟨hd, by simp [hr], hn⟩

theorem ringTimeout_idle (h : s.red.bucketEnt c q = none ∨ ((s.chan c).bucket q).ownDone = false ∨ s.groupN ≤ 1) :
    ringTimeout c q s = s := by
  unfold ringTimeout
  split
  · next b hb =>
    refine if_neg ?_
    rintro ⟨hd, -, hn⟩
    rcases h with hnone | hwait | hsolo
    · simp [hnone] at hb
    · simp [hwait] at hd
    · omega
  · rfl

end Timers

/-! ### FORM (R205) -/

/-- A fold over the first keys that changes each at its own key by a function of what stands there. -/
theorem SMap.get_foldl_range {α : Type} [DecidableEq α] (d : Nat → α) (f : α → α) (m : SMap α) (n k : Nat) :
    SMap.get d ((List.range n).foldl (fun m j => SMap.set d m j (f (SMap.get d m j))) m) k =
      if k < n then f (SMap.get d m k) else SMap.get d m k := by
  induction n with
  | zero => rfl
  | succ n ih =>
    rw [List.range_succ, List.foldl_append, List.foldl_cons, List.foldl_nil]
    by_cases hk : k = n
    · subst hk
      rw [SMap.get_set_self, ih, if_neg (Nat.lt_irrefl k), if_pos (Nat.lt_succ_self k)]
    · rw [SMap.get_set_ne hk, ih]
      exact if_congr (by omega) rfl rfl

/-- A channel as a group is formed or an attempt ends: its links are kept. -/
def ChanSt.emptied (x : ChanSt) : ChanSt :=
  { x with sendPt := 0, deliverPt := 0, flight := [], holdWindow := false, holdFlight := false }

theorem State.chan_resetChannels (s : State) {c : Nat} (h : c < 8) : s.resetChannels.chan c = (s.chan c).emptied := by
  have hfold := SMap.get_foldl_range (fun _ => ({} : ChanSt)) ChanSt.emptied s.red.chan 8 c
  rw [if_pos h] at hfold
  rw [State.chan, State.resetChannels, State.modRed]
  dsimp only [ChanSt.emptied] at hfold ⊢
  exact hfold

section Form
variable {s : State} (rq : Requester) (v : Word)

theorem form_quiet (h : s.quiet = true) : form rq v s = s.formGroup.resetChannels := if_pos h

theorem form_refused (h : s.quiet = false) (hw : s.red.pos = 0 ∨ s.stp.voted = false ∨ s.stp.isOpen = false ∨ s.stp.queried = false) :
    form rq v s = s.refuseWrite rq R.RED_CMD v 0 := by
  have hno : ¬(decide (s.red.pos ≠ 0) && s.stp.voted && s.stp.isOpen && s.stp.queried) = true := by
    rcases hw with hw | hw | hw | hw <;> simp [hw]
  exact (if_neg (by simp [h])).trans (if_neg hno)

end Form

theorem State.formGroup_epoch (s : State) : s.formGroup.resetChannels.reg R.RED_EPOCH = 0 := by
  have hregs : s.formGroup.resetChannels.regs = s.formGroup.regs := by simp only [State.resetChannels_frame]
  rw [State.reg, hregs, ← State.reg]
  exact (State.reg_setRegN (s.modRed fun r => { r with formed := true }) R.RED_EPOCH R.RED_EPOCH 0).trans (if_pos rfl)

end Sys2Proof.Machine

namespace Sys2Proof.Proofs
open Sys2Proof Sys2Proof.Machine

/-- Settles O42: each command takes the branch its conditions name; a stored bucket reads back, and what a delivery counts is no part of
the ring. -/
theorem bucketsAndTimers : Obligations.BucketsAndTimers := by
  unfold Obligations.BucketsAndTimers
  refine ⟨?solo, ?ring, ?sendIdle, ?deliver, ?deliverIdle, ?deadline, ?deadlineIdle, ?timeout, ?timeoutIdle, ?formed, ?refused⟩
  case solo =>
    intro s c b hb hown hon hn
    refine ⟨_, congrArg Host.Outcome.next (bucketSend_solo hb hown hon hn), State.sendPt_sentNext .., ?_, ?_, rfl, rfl⟩ <;>
      rw [State.bucket_sentNext]
  case ring =>
    intro s c b hb hown hon hn
    exact ⟨_, rfl, congrArg Host.Outcome.next (bucketSend_ring hb hown hon hn)⟩
  case sendIdle =>
    intro s c h
    exact congrArg Host.Outcome.next (bucketSend_idle h)
  case deliver =>
    intro s c b hb hr hd hp
    have hchan : (bucketDeliver c s).chan c = (s.startDelivery c).chan c := by
      rw [State.chan, bucketDeliver_red hb hr hd hp, ← State.chan]
    refine ⟨_, rfl, ?_, ?_, ?_, ?_⟩
    · rw [hchan, State.bucket_startDelivery]
    · rw [hchan, State.deliverPt_startDelivery]
    · simp only [bucketDeliver_frame]
    · simp only [bucketDeliver_frame]
  case deliverIdle =>
    intro s c h
    exact congrArg Host.Outcome.next (bucketDeliver_idle h)
  case deadline =>
    intro s c q ho hd hn
    exact congrArg Host.Outcome.next (deadline_aborts ho hd hn)
  case deadlineIdle =>
    intro s c q h
    exact congrArg Host.Outcome.next (deadline_idle h)
  case timeout =>
    intro s c q b hb hd hr hn
    exact congrArg Host.Outcome.next (ringTimeout_aborts hb hd hr hn)
  case timeoutIdle =>
    intro s c q h
    exact congrArg Host.Outcome.next (ringTimeout_idle h)
  case formed =>
    intro s rq v h
    refine ⟨_, congrArg Host.Outcome.next (form_quiet rq v h), rfl, s.formGroup_epoch, fun c hc => ?_, rfl, rfl, rfl⟩
    rw [State.chan_resetChannels _ hc]
    exact ⟨rfl, rfl, rfl⟩
  case refused =>
    intro s rq v h hw
    exact congrArg Host.Outcome.next (form_refused rq v h hw)

end Sys2Proof.Proofs
end

section
/-! SUPPORT. Counterexample for the launch of a graph that is absent (R241, R254). -/

namespace Sys2Proof.Proofs
open Sys2Proof Sys2Proof.Machine

/-- Streaming is enabled and graph 0 is launched; its table entry is zero, so the graph is absent, and lies in a unit of HBM with a
single-bit error (R254). -/
def launchOfSoftEntry : State :=
  { State.reset.setReg R.TSK_CTRL 4#32 with
    tsk := { State.reset.tsk with launchQ := [{}] }
    mem := { State.reset.mem with soft := [0] } }

/-- Refutes O43: the read of the table entry that shows a graph absent corrects the unit it lies in and counts that in MEM_CE_CNT, before
the launch ends with its event and log entry (`launchOfSoftEntry`). -/
theorem not_graphsAndLaunches : ¬ Obligations.GraphsAndLaunches := by
  unfold Obligations.GraphsAndLaunches
  rintro ⟨-, -, -, habsent, -⟩
  have hend : graphStream launchOfSoftEntry = _ :=
    Host.Outcome.next.inj (habsent launchOfSoftEntry {} [] rfl rfl (by decide) (by decide) rfl (by decide))
  have hcounted : (graphStream launchOfSoftEntry).reg (R.MEM_CE_CNT 0) = 1 := by decide
  have huncounted : (((launchOfSoftEntry.modTsk (fun t => { t with launchQ := [] })).eventLog R.TSK_EVENTS 6 0xA 1 0 0).launchOver
      .host false).reg (R.MEM_CE_CNT 0) = 0 := by decide
  rw [hend] at hcounted
  exact absurd (huncounted.symm.trans hcounted) (by decide)

end Sys2Proof.Proofs
end

section
/-! SUPPORT. Counterexample for the status of a good COPY (R254, R257). -/

namespace Sys2Proof.Proofs
open Sys2Proof Sys2Proof.Machine

/-- The COPY of 4 bytes from 0x0 to 0x1_0000 that the bytes of `markedCopy` hold. -/
def copyPay : DmaPay := { len := 4, dst := 0x10000 }

/-- A running DMA task that carries an error mark, with its payload at 0x2000. -/
def markedTask : TaskEnt := { kind := 4, payLen := 48, payAddr := 0x2000, prog := .running, err := true }

/-- Engine 0 of die 0 runs `markedTask` in slot 3; its payload is `copyPay`. -/
def markedCopy : State :=
  { State.reset with
    tsk := { State.reset.tsk with win := [(3, some markedTask)], dma := [(0, some 3)] }
    mem := { State.reset.mem with hbm := [(0x2004, 4), (0x2012, 1)] } }

/-- Refutes O45: a COPY without a fault, in range, whose reads and check are good, still ends its task with error status where the task
carries an error mark (`markedCopy`). -/
theorem not_dmaTransfers : ¬ Obligations.DmaTransfers := by
  unfold Obligations.DmaTransfers
  rintro ⟨-, -, -, -, hcopy, -⟩
  obtain ⟨t, -, ht, -, -, hgood, -⟩ := hcopy markedCopy 0 0 3 copyPay markedCopy [0, 0, 0, 0] [0, 0, 0, 0] (by decide) (by decide) rfl
    (by decide) (by decide) (by decide) (by decide)
  have hended := State.endTask_task (d := 0) (slot := 3) (t := markedTask) (s := (markedCopy.hbmWrite 0x10000 [0, 0, 0, 0]).freeDma 0 0)
    (by decide) false
  rw [ht] at hgood
  exact absurd ((congrArg (Option.map (·.prog)) hended).symm.trans hgood) (by decide)

end Sys2Proof.Proofs
end

section
/-! SUPPORT. Counterexample for the registers after an OPEN (R254, R270). -/

namespace Sys2Proof.Proofs
open Sys2Proof Sys2Proof.Machine

/-- Handle 0 is FREE, its entry at 0x0 gives its directory at 0x1000 and lies in a unit of HBM with a single-bit error (R254). -/
def softHandle : State := { State.reset with mem := { State.reset.mem with hbm := [(0x11, 0x10)], soft := [0] } }

/-- Refutes O46: the read of the entry that shows a handle FREE corrects the unit it lies in and counts that in MEM_CE_CNT, so an accepted
OPEN does not leave every register (`softHandle`). -/
theorem not_siltStore : ¬ Obligations.SiltStore := by
  unfold Obligations.SiltStore
  rintro ⟨-, -, -, -, -, hopen, -⟩
  obtain ⟨t, hexec, -, -, -, -, -, hregs, -⟩ := hopen softHandle .host 0 0 4 (by decide) (by decide) (by decide) (by decide) (by decide)
  have hcounted : (siltCmd 1 (.reg .host 0) softHandle).reg (R.MEM_CE_CNT 0) = 1 := by decide
  have ht : siltCmd 1 (.reg .host 0) softHandle = t := Host.Outcome.next.inj hexec
  rw [ht, State.reg, hregs] at hcounted
  exact absurd hcounted (by decide)

end Sys2Proof.Proofs
end

section
/-! One step: what the command at the front of the queue does to the queue and to the invariant, and what an idle step does. -/

namespace Sys2Proof.Machine
open Sys2Proof

/-- A record that cannot complete in its stage leaves the queue of commands (R338). -/
theorem pending_onInit (s : State) (op : Nat) {f : InitRec → State} (hf : ∀ r, (f r).pending = s.pending) :
    (match s.nextInit op with
      | some r => f r
      | none => s).pending = s.pending := by
  cases s.nextInit op with
  | none => rfl
  | some r => exact hf r

/-- Every command answers a next state, and the queue is as it was. -/
theorem exec_pending (c : Instr) (s : State) : ∃ t, exec c s = .next t ∧ t.pending = s.pending := by
  cases c
  case moderationTick =>
    exact ⟨_, rfl, State.foldl_pending _ (by intro s g; split <;> simp [clearCount_frame, moderate_frame]) _ _⟩
  case railTimeout => exact ⟨_, rfl, by split <;> simp [State.hardwareFault_frame, State.loadPowered_frame]⟩
  case pollTimeout => exact ⟨_, rfl, pending_onInit s 3 fun r => by simp only [State.imageFault_frame]⟩
  case recordDelay => exact ⟨_, rfl, pending_onInit s 4 fun r => by simp only [State.recRun_frame]⟩
  case registerWrite | pairLoRead | unassignedAccess | bar0BadAccess | relayWindowAccess | relayRead | relayWrite | relayCompletion |
    relayHostWrite | relayTimeout | dataFrame =>
    exact ⟨_, rfl, by simp [pairLoRead_frame, unassignedAccess_frame, bar0BadAccess_frame, relayWindowAccess_frame, relayRead_frame,
      relayWrite_frame, relayCompletion_frame, relayHostWrite_frame, relayTimeout_frame, dataFrame_frame]⟩
  case trainingStart | newStepBoundary | repeatBoundary | memberReady | firstPassToken | secondPassToken | groupHoldRelease | abortRequest |
    abortRequestTimeout | commitTimeout | secondPassTimeout | decisionQuery | decisionReply | decisionDirect | stepDecideNone | stepDecideRepeat |
    stepDecideSkip | stepDecideStop | committedWindowRead | committedWindowWrite | stepRecordRingWrite =>
    exact ⟨_, rfl, by simp [trainingStart_frame, newStepBoundary_frame, repeatBoundary_frame, memberReady_frame, firstPassToken_frame,
      secondPassToken_frame, groupHoldRelease_frame, abortRequest_frame, abortRequestTimeout_frame, commitTimeout_frame, secondPassTimeout_frame,
      decisionQuery_frame, decisionReply_frame, decisionDirect_frame, stepDecideNone_frame, stepDecideRepeat_frame, stepDecideSkip_frame,
      stepDecideStop_frame, committedWindowRead_frame, stepRecordRingWrite_frame]⟩
  case tokenBoundary | siltPut | siltOpen | siltClose | siltTruncate | siltSlotsWrite =>
    exact ⟨_, rfl, by simp [tokenBoundary_frame, siltCmd_frame, siltSlotsWrite_frame]⟩
  case groupRequest | passAdmit | passComplete | rangeTrackerEval | govStatusRead | clipgClr | clipgDataRead | rangeDataWrite | calReadStart |
    calReadComplete | forcedRead | calStarved | arrayFit | trimPublication | publish | refresh | load | readback | readbackSegment |
    refreshAgeExpiry | progJobStart | progRow | progJobComplete | sweepArray =>
    exact ⟨_, rfl, by simp [groupRequest_frame, passAdmit_frame, passComplete_frame, rangeTrackerEval_frame, govStatusRead_frame, clipgClr_frame,
      clipgDataRead_frame, rangeDataWrite_frame, calReadStart_frame, calReadComplete_frame, forcedRead_frame, calStarved_frame, arrayFit_frame,
      trimPublication_frame, publishCmd_frame, refreshCmd_frame, loadCmd_frame, readbackCmd_frame, readbackSegment_frame, refreshAgeExpiry_frame,
      progJobStart_frame, progRow_frame, progJobComplete_frame, sweepArray_frame]⟩
  case nop | vsetvl | vsetsr | vsetsri | viota | iaddVv | iaddVi | isub | imul | imax | imin | vand | vor | vxor | shl | shra | shrl | mand | mor
    | mxor | mandn | vsel | twillIllegal | vld | vst | vbar | barrierRelease | barrierTimeout | faddVv | faddVi | fsubVv | fsubVi | fmulVv |
    fmulVi | ffmaVvv | ffmaVvi | ffmaViv | fmax | fmin | fabs | fneg | fcmpVv | fcmpVi | icmpVv | icmpVi | exp2 | log2 | rcp | rsqrt | tanh | fcvt
    | qcvt | vpackb | vgetx | vamax | rsumt | rsums | rmax | rmin | vperm | vsplat | vslidedn | vslideup =>
    exact ⟨_, rfl, by simp [twRun_frame, twElems_frame, twMask_frame, twIllegalOp_frame, vld_frame, vst_frame, vbar_frame, barrierRelease_frame,
      barrierTimeout_frame, twCompare_frame, fcvt_frame, qcvt_frame, vpackb_frame, vgetx_frame, vamax_frame]⟩
  case descriptorAccept | tileOutput | accStall | sliceConvert | sliceAccept | matrixCancel | blockAccept | blockUpdate | updateComplete |
    projectionStart | projectionDone | project | projectNohyst | schedDataAccess | stepSizeWrite | form | ringMessage | reduceHopAdd | bucketSend
    | bucketDeliver | deadline | ringTimeout =>
    exact ⟨_, rfl, by simp [descriptorAccept_frame, tileOutput_frame, accStall_frame, sliceConvert_frame, sliceAccept_frame, blockAccept_frame,
      blockUpdate_frame, updateComplete_frame, projectionStart_frame, projectCmd_frame, schedDataAccess_frame, stepSizeWrite_frame, form_frame,
      ringMessage_frame, reduceHopAdd_frame, bucketSend_frame, bucketDeliver_frame, deadline_frame, ringTimeout_frame]⟩
  case tskLaunch | graphStream | streamResume | remoteSignal | cntValueWrite | cntAddWrite | flush | deadlock | dutySplitWrite | dutyBoundary |
    taskDispatch | taskComplete | kdone | dmaCopy | dmaStream | prefetcherFetch | dmaSpillOut | dmaSpillIn =>
    exact ⟨_, rfl, by simp [tskLaunch_frame, graphStream_frame, streamResume_frame, remoteSignal_frame, State.setCounter_frame, State.addCounter_frame, deadlock_frame,
      dutySplitWrite_frame, dutyBoundary_frame, taskDispatch_frame, taskComplete_frame, kdone_frame, dmaCopy_frame, dmaStream_frame,
      prefetcherFetch_frame, dmaSpillOut_frame, dmaSpillIn_frame]⟩
  case flitReceive | idleFlitTimer | nakRepeat | linkSilence | retrainThreshold | removeThreshold | retrainAttempt | linkTraining | retrain |
    remove | restore | linkDown | timeMasterLost | timeSyncPeriod | sync | delayReq | delayResp | holdover | triggerFrame =>
    exact ⟨_, rfl, by simp [flitReceive_frame, State.sendIdle_frame, nakRepeat_frame, linkSilence_frame, retrainThreshold_frame,
      removeThreshold_frame, retrainAttempt_frame, linkTraining_frame, cmdRetrain_frame, cmdRemove_frame, cmdRestore_frame, linkDown_frame,
      timeMasterLost_frame, State.sendOn_frame, State.takeRx_frame, State.noteParent_frame, holdover_frame, triggerFrame_frame]⟩
  case sqTailDoorbell | cqHeadDoorbell | sqFetch | hostNop | writeHbm | readHbm | hostDmaComplete | gen | genResultCopy | launch | signal |
    cqStall | hostErrorLimit | qCfgWrite | msixUnmask | apertureRead | apertureWrite | snapshotWindowWrite | functionLevelReset | pcieLinkUp |
    pcieLinkDown | perstAssert | perstDeassert | sqWindowAccess | malformedTlp | irqSourcePending | irqClaim | claimRead | irqEoi | hostEoi |
    irqPendWrite | irqPclrWrite | irqHostMessage | holdoffExpiry =>
    exact ⟨_, rfl, by simp [sqTailDoorbell_frame, cqHeadDoorbell_frame, sqFetch_frame, hostNop_frame, writeHbm_frame, readHbm_frame,
      hostDmaComplete_frame, gen_frame, genResultCopy_frame, launch_frame, signal_frame, cqStall_frame, hostErrorLimit_frame, qCfgWrite_frame,
      msixUnmask_frame, apertureRead_frame, apertureWrite_frame, snapshotWindowWrite_frame, functionLevelReset_frame, pcieLinkUp_frame,
      pcieLinkDown_frame, perstAssert_frame, perstDeassert_frame, sqWindowAccess_frame, malformedTlp_frame, irqSourcePending_frame,
      irqClaim_frame, claimRead_frame, irqEoi_frame, hostEoi_frame, irqPendWrite_frame, irqPclrWrite_frame, irqHostMessage_frame]⟩
  case supplyGood | inputGood | inputLoss | holdup | holdupExhausted | returnToA | selectA | selectB | clearUnstable | poweredSecond |
    poweredCountSave | hkaConversion | sensorFault | tripPowerOff | tripLatchRelease | hkaConvWrite | hkaDataRead | governorLoop | smbStatusRead |
    smbInputPowerRead | smbInputAVoltageRead | smbInputBVoltageRead | smbInputCurrentRead | smbHottestDieRead | smbCoolantInletRead |
    smbCoolantOutletRead | smbPwm0DutyRead | smbPwm1DutyRead | smbEventsRead | smbTemperaturesRead | smbIdentityRead | smbAlertResponse |
    smbInvalidCommand | smbClkLowTimeout =>
    exact ⟨_, rfl, by simp [supplyGood_frame, inputGood_frame, inputLoss_frame, holdup_frame, State.powerOff_frame, returnToA_frame,
      selectInput_frame, clearUnstable_frame, State.setRegN_frame, State.savePowered_frame, hkaConversion_frame,
      sensorFault_frame, hkaConvWrite_frame, hkaDataRead_frame, governorLoop_frame, State.smbAnswer_frame]⟩
  case romStage | identityStage | sfdpTimeout | imageStage | verifyStage | firmwareStage | recordsStage | hbmStage | linksStage | sweepStage |
    finalStage | bootPushed | verifyPushed | writeImage | sectorProgram | leafReservation | attestationKeyBuild | attRequest | reportSigned |
    pushedImageVerified | recordWrite | recordModify | recordPoll =>
    exact ⟨_, rfl, by simp [romStage_frame, identityStage_frame, State.imageFault_frame, imageStage_frame, verifyStage_frame,
      State.loadFirmware_frame, State.toStage_frame, recordsStage_frame, hbmStage_frame, linksStage_frame, finalStage_frame, bootPushed_frame,
      verifyPushed_frame, writeImage_frame, sectorProgram_frame, leafReservation_frame, attestationKeyBuild_frame, attRequest_frame,
      reportSigned_frame, pushedImageVerified_frame, recordWrite_frame, recordModify_frame, recordPoll_frame]⟩
  case snpTrigFire | captIn | capture | captOutPulseEnd | drain | snpRingSizeWrite | chkClaim | chkRelease | chkInit | chkDataWrite |
    chkValueWrite | errorLogWrite =>
    exact ⟨_, rfl, by simp [snpTrigFire_frame, State.raiseTrig_frame, capture_frame, drain_frame,
      snpRingSizeWrite_frame, chkClaim_frame, chkRelease_frame, chkInit_frame, chkDataWrite_frame, chkValueWrite_frame, errorLogWrite_frame]⟩

/-- Every command keeps the invariant: each meaning does (`Laws/Sound`), and a step of the housekeeping of interrupts or of a record goes
through meanings that do. -/
theorem exec_sound (c : Instr) {s : State} (h : s.sound = true) : ∃ t, exec c s = .next t ∧ t.sound = true := by
  cases c
  case moderationTick =>
    exact ⟨_, rfl, State.foldl_sound h fun s g hs => by split <;> simp [hs]⟩
  case pollTimeout => exact ⟨_, rfl, by split <;> simp [h]⟩
  case recordDelay => exact ⟨_, rfl, by split <;> simp [h]⟩
  all_goals exact ⟨_, rfl, by simp (maxDischargeDepth := 40) [h]⟩

/-- A state with `c` put at the front of its queue is stepped by running `c`. -/
theorem step_cons {s : State} {c : Instr} {rest : List Instr} (h : s.pending = c :: rest) :
    step s = exec c { s with pending := rest } := by
  unfold step; rw [h]

/-- An idle step is a nanosecond of pod time. -/
theorem step_nil {s : State} (h : s.pending = []) : step s = .next s.tick := by
  unfold step; rw [h]

end Sys2Proof.Machine

namespace Sys2Proof.Proofs
open Sys2Proof Sys2Proof.Machine

/-- Settles O1: the queue is a list whose head is run. -/
theorem stepRunsTheFrontCommand : Obligations.StepRunsTheFrontCommand :=
  ⟨fun _ _ => rfl, fun _ _ _ h => step_cons h⟩

/-- Settles O2: no meaning touches the queue (`exec_pending`). -/
theorem stepLeavesTheRestQueued : Obligations.StepLeavesTheRestQueued := by
  intro c rest s h
  rw [step_cons h]
  exact exec_pending c { s with pending := rest }

/-- Settles O6: nothing is listed or queued at reset. -/
theorem resetIsSound : Obligations.ResetIsSound :=
  (State.sound_iff _).2 ⟨State.reset_wf, Nat.zero_le _, Nat.zero_le _⟩

/-- Settles O7: a step is idle, or runs the front command, which keeps the invariant (`exec_sound`); the queue is no part of it. -/
theorem everyStepKeepsSound : Obligations.EveryStepKeepsSound := by
  intro s t hs ht
  cases hq : s.pending with
  | nil =>
    rw [step_nil hq] at ht
    cases ht
    exact State.tick_sound hs
  | cons c rest =>
    rw [step_cons hq] at ht
    obtain ⟨u, hu, hsound⟩ := exec_sound c (s := { s with pending := rest }) hs
    rw [ht] at hu
    cases hu
    exact hsound

/-- Nothing waits, the rate is 0 and no correction is ordered, but in the last nanosecond of the spread of one its share has reached 8,000
eighths, a whole step over a span of 1,000 ns. -/
def lateSlew : State := { State.reset with ezl := { State.reset.ezl with tim := { left := 1, span := 1000, slewAcc := 8000 } } }

/-- Refutes O3: with slew 0, a share of a correction that stands in the accumulator still moves pod time, so it rises by 2 (`lateSlew`). -/
theorem not_stepOnEmptyQueuePassesTime : ¬ Obligations.StepOnEmptyQueuePassesTime := by
  unfold Obligations.StepOnEmptyQueuePassesTime
  rintro ⟨-, -, hone⟩
  obtain ⟨t, hstep, htime, -⟩ := hone lateSlew rfl rfl rfl rfl rfl (by decide)
  rw [step_nil rfl] at hstep
  cases hstep
  exact absurd htime (by decide)

end Sys2Proof.Proofs
end

section
/-! Flits (R274): a flit as it is built, read back field by field. -/

namespace Sys2Proof.Machine
open Sys2Proof

/-- A string read where it stands. -/
theorem sliceB_append {pre bs post : List Byte} {o : Nat} (h : pre.length = o) : sliceB (pre ++ bs ++ post) o bs.length = bs := by
  subst h
  simp [sliceB]

/-- A string of numbers, each in its own count of bytes. -/
def numBytes (fs : List (Nat × Nat)) : List Byte := fs.flatMap (fun f => leBytes f.1 f.2)

theorem numBytes_length (fs : List (Nat × Nat)) : (numBytes fs).length = (fs.map Prod.fst).sum := by
  simp [numBytes, List.length_flatMap]

/-- A number among others is read at the place where those before it end. -/
theorem leAt_numBytes {before after : List (Nat × Nat)} {post : List Byte} {o k n : Nat} (ho : (before.map Prod.fst).sum = o) (hn : n < 256 ^ k) :
    leAt (numBytes (before ++ (k, n) :: after) ++ post) o k = n := by
  have hb : numBytes (before ++ (k, n) :: after) ++ post = numBytes before ++ leBytes k n ++ (numBytes after ++ post) := by simp [numBytes]
  have hs := sliceB_append (bs := leBytes k n) (post := numBytes after ++ post) ((numBytes_length before).trans ho)
  rw [leBytes_length] at hs
  rw [leAt, hb, hs, ofLe_leBytes, Nat.mod_eq_of_lt hn]

section Flit
variable (typ stream src dst seq ack nak credit nakSeq pid : Nat) (first last : Bool) (pay : List Byte)

/-- The first byte of a flit: its type and the marks of the first and the last flit of a frame. -/
def flitMarks : Nat := typ + (if first then 16 else 0) + (if last then 32 else 0)

/-- The header fields of a flit: bytes and value, in order. -/
def flitFields : List (Nat × Nat) :=
  [(1, flitMarks typ first last), (1, stream), (1, src), (1, dst), (2, seq), (2, ack), (1, nak), (1, credit), (2, nakSeq), (2, pay.length),
    (2, pid)]

/-- The bytes of a flit that its check value covers. -/
def flitBody : List Byte :=
  numBytes (flitFields typ stream src dst seq ack nak credit nakSeq pid first last pay) ++ pay ++ List.replicate (236 - pay.length) 0

theorem flitBytes_eq : flitBytes typ stream src dst seq ack nak credit nakSeq pid first last pay =
    flitBody typ stream src dst seq ack nak credit nakSeq pid first last pay ++
      leBytes 4 (crc32c (flitBody typ stream src dst seq ack nak credit nakSeq pid first last pay)) := rfl

theorem flitBody_length (h : pay.length ≤ 236) :
    (flitBody typ stream src dst seq ack nak credit nakSeq pid first last pay).length = 252 := by
  simp [flitBody, numBytes_length, flitFields]; omega

theorem flitMarks_bits (h : typ < 16) : flitMarks typ first last % 16 = typ ∧ flitMarks typ first last < 64 ∧
    (flitMarks typ first last).testBit 4 = first ∧ (flitMarks typ first last).testBit 5 = last := by
  simp only [flitMarks, Nat.testBit_eq_decide_div_mod_eq]
  cases first <;> cases last <;> simp <;> omega

/-- A flit begins with its header, and its payload follows. -/
theorem flitBytes_head : ∃ post, flitBytes typ stream src dst seq ack nak credit nakSeq pid first last pay =
    numBytes (flitFields typ stream src dst seq ack nak credit nakSeq pid first last pay) ++ pay ++ post := by
  rw [flitBytes_eq, flitBody, List.append_assoc _ _ (leBytes 4 _)]
  exact ⟨_, rfl⟩

theorem sliceB_flitBytes : sliceB (flitBytes typ stream src dst seq ack nak credit nakSeq pid first last pay) 16 pay.length = pay := by
  obtain ⟨post, h⟩ := flitBytes_head typ stream src dst seq ack nak credit nakSeq pid first last pay
  rw [h]
  exact sliceB_append (numBytes_length _)

/-- The check value of a flit covers its first 252 bytes. -/
theorem crc_flitBytes (h : pay.length ≤ 236) {bs : List Byte}
    (hb : flitBytes typ stream src dst seq ack nak credit nakSeq pid first last pay = bs) :
    bs.length = 256 ∧ crc32c (sliceB bs 0 252) = leAt bs 252 4 := by
  have hl := flitBody_length typ stream src dst seq ack nak credit nakSeq pid first last pay h
  subst hb
  rw [flitBytes_eq]
  generalize flitBody typ stream src dst seq ack nak credit nakSeq pid first last pay = body at hl ⊢
  have hbody : sliceB (body ++ leBytes 4 (crc32c body)) 0 252 = body := hl ▸ sliceB_append (pre := []) rfl
  have hcrc : leAt (body ++ leBytes 4 (crc32c body)) (252 + 0) 4 = crc32c body := by
    rw [leAt_append_right hl, ← List.append_nil (leBytes 4 _), leAt_append_left (leBytes_length 4 _), ofLe_leBytes,
      Nat.mod_eq_of_lt (show crc32c body < 256 ^ 4 from crc32c_lt body)]
  exact ⟨by simp [hl], by rw [hbody, ← Nat.add_zero 252, hcrc]⟩

end Flit

/-- The receiver reads every header field of a flit as the sender set it (R274). -/
theorem parseFlit_flitBytes {typ stream src dst seq ack nak credit nakSeq pid : Nat} {first last : Bool} {pay : List Byte} (htyp : typ < 16)
    (hstream : stream < 8 ∧ (typ = 2 ∨ stream = 0)) (hsrc : src < 64) (hdst : dst < 256) (hseq : seq < 2 ^ 16) (hack : ack < 2 ^ 16)
    (hnak : nak < 256) (hcredit : credit < 256) (hnakSeq : nakSeq < 2 ^ 16) (hpid : pid < 2 ^ 16) (hpay : pay.length ≤ 236) :
    parseFlit (flitBytes typ stream src dst seq ack nak credit nakSeq pid first last pay) =
      { typ := typ, first := first, last := last, stream := stream, src := src, dst := dst, seq := seq, ack := ack, nak := nak, credit := credit,
        nakSeq := nakSeq, len := pay.length, podId := pid, reserved := false } := by
  obtain ⟨htype, hmarks, hfirst, hlast⟩ := flitMarks_bits typ first last htyp
  obtain ⟨post, h⟩ := flitBytes_head typ stream src dst seq ack nak credit nakSeq pid first last pay
  rw [h, List.append_assoc]
  generalize hm : flitMarks typ first last = marks at *
  generalize hbs : numBytes (flitFields typ stream src dst seq ack nak credit nakSeq pid first last pay) ++ (pay ++ post) = bs
  have field {before after : List (Nat × Nat)} (o k n : Nat)
      (he : flitFields typ stream src dst seq ack nak credit nakSeq pid first last pay = before ++ (k, n) :: after)
      (ho : (before.map Prod.fst).sum = o) (hn : n < 256 ^ k) : leAt bs o k = n := by
    rw [← hbs, he]; exact leAt_numBytes ho hn
  have f0 := field (before := []) 0 1 marks (by rw [flitFields, hm]; rfl) rfl (by omega)
  have f1 := field (before := [_]) 1 1 stream rfl rfl (by omega)
  have f2 := field (before := [_, _]) 2 1 src rfl rfl (by omega)
  have f3 := field (before := [_, _, _]) 3 1 dst rfl rfl (by omega)
  have f4 := field (before := [_, _, _, _]) 4 2 seq rfl rfl (by omega)
  have f6 := field (before := [_, _, _, _, _]) 6 2 ack rfl rfl (by omega)
  have f8 := field (before := [_, _, _, _, _, _]) 8 1 nak rfl rfl (by omega)
  have f9 := field (before := [_, _, _, _, _, _, _]) 9 1 credit rfl rfl (by omega)
  have f10 := field (before := [_, _, _, _, _, _, _, _]) 10 2 nakSeq rfl rfl (by omega)
  have f12 := field (before := [_, _, _, _, _, _, _, _, _]) 12 2 pay.length rfl rfl (by omega)
  have f14 := field (before := [_, _, _, _, _, _, _, _, _, _]) 14 2 pid rfl rfl (by omega)
  have hreserved : stream = 0 ∨ typ = 2 := hstream.2.symm
  simp only [parseFlit, f0, f1, f2, f3, f4, f6, f8, f9, f10, f12, f14, htype, hfirst, hlast, Nat.mod_eq_of_lt hstream.1, Nat.mod_eq_of_lt hsrc,
    Nat.div_eq_of_lt hmarks, Nat.div_eq_of_lt hstream.1, Nat.div_eq_of_lt hsrc]
  rcases hreserved with h0 | h2 <;> simp [*]
end Sys2Proof.Machine

namespace Sys2Proof.Proofs
open Sys2Proof Sys2Proof.Machine

/-- Settles O47: the header fields stand one after another (`leAt_numBytes`), the payload and the check value after them. -/
theorem flitRoundTrip : Obligations.FlitRoundTrip := by
  intro typ stream src dst seq ack nak credit nakSeq pid first last pay bs htyp hstream hsrc hdst hseq hack hnak hcredit hnakSeq hpid hpay hbs
  obtain ⟨hlen, hcrc⟩ := crc_flitBytes typ stream src dst seq ack nak credit nakSeq pid first last pay hpay hbs
  subst hbs
  exact ⟨hlen, hcrc, sliceB_flitBytes typ stream src dst seq ack nak credit nakSeq pid first last pay,
    parseFlit_flitBytes htyp hstream hsrc hdst hseq hack hnak hcredit hnakSeq hpid hpay⟩

end Sys2Proof.Proofs
end

section
/-! Triggers, captures and draining, the check units and the error log (R368 to R385). -/

namespace Sys2Proof.Machine
open Sys2Proof

/-! ### Triggers (R371 to R373) -/

section Trigger
variable {s : State}

theorem State.queueTrig_off (x : Trig) (h : s.regB R.SNP_CTRL 0 = false) : s.queueTrig x = s := by
  simp [State.queueTrig, h]

/-- A trigger as it reaches the SNP block, late where its T has passed. -/
def State.stampTrig (s : State) (x : Trig) : Trig := { x with late := decide (x.t < s.time) }

/-- A late trigger is noted. -/
def State.noteLate (s : State) (x : Trig) : State := if (s.stampTrig x).late then s.event R.SNP_EVENTS 2 else s

@[simp] theorem State.noteLate_snp (x : Trig) : (s.noteLate x).snp = s.snp := by unfold State.noteLate; split <;> rfl
@[simp] theorem State.noteLate_mem (x : Trig) : (s.noteLate x).mem = s.mem := by unfold State.noteLate; split <;> rfl
@[simp] theorem State.noteLate_out (x : Trig) : (s.noteLate x).out = s.out := by unfold State.noteLate; split <;> rfl
@[simp] theorem State.noteLate_stp (x : Trig) : (s.noteLate x).stp = s.stp := by unfold State.noteLate; split <;> rfl
@[simp] theorem State.noteLate_ezl (x : Trig) : (s.noteLate x).ezl = s.ezl := by unfold State.noteLate; split <;> rfl

/-- The first trigger of an empty queue is queued. -/
theorem State.queueTrig_first (x : Trig) (he : s.regB R.SNP_CTRL 0 = true) (hq : s.snp.queue = []) :
    s.queueTrig x = (s.noteLate x).modSnp (fun p => { p with queue := [s.stampTrig x] }) := by
  have hn : (s.noteLate x).snp.queue = [] := by rw [State.noteLate_snp, hq]
  unfold State.queueTrig
  rw [he]
  show (if (s.noteLate x).snp.queue.any _ then _ else if (s.noteLate x).snp.queue.length < 8 then
    (s.noteLate x).modSnp (fun p => { p with queue := insertTrig (s.stampTrig x) p.queue }) else _) = _
  simp only [hn, State.modSnp, insertTrig]
  rfl

theorem State.raiseTrig_eq {u v : State} {cls t : Nat} {f : Bool}
    (hu : (s.modSnp (fun p => { p with num := (s.snp.num + 1) % 256 })).modEzl
      (fun e => { e with seen := SMap.set (fun _ => none) e.seen s.me (some s.snp.num) }) = u)
    (hv : (if f = true then u.flood none ⟨5, 0, s.me, 0xFF, TrigFrame.bytes ⟨t, s.me, s.snp.num, cls⟩⟩ else u) = v) :
    s.raiseTrig cls t f = v.queueTrig { t := t, cls := cls, origin := v.me, num := s.snp.num } := by
  subst hu hv
  rfl

end Trigger

/-! ### Captures (R367 to R369, R373) -/

theorem capture_idle {s : State} (lat : List Nat) (h : s.snp.queue = [] ∨ ∃ t rest, s.snp.queue = t :: rest ∧ s.time < t.t) :
    capture lat s = s := by
  unfold capture
  rcases h with h | ⟨t, rest, h, ht⟩
  · rw [h]
  · rw [h]; exact if_pos (.inr ht)

theorem capture_off {s : State} (lat : List Nat) (h : s.regB R.SNP_CTRL 0 = false) : capture lat s = s := by
  unfold capture
  cases s.snp.queue with
  | nil => rfl
  | cons t rest => exact if_pos (.inl h)

/-- A state as a capture takes its trigger: the queue's rest, and the next number. -/
def State.trigTaken (s : State) (rest : List Trig) : State :=
  (s.modSnp (fun p => { p with queue := rest })).setRegN R.SNP_SEQ (((s.reg R.SNP_SEQ).toNat + 1) % 2 ^ 32)

/-- What a capture of trigger `t` puts into its bank; `drains` says that the ring has a size, so that it drains. -/
def State.captureBank (s : State) (drains : Bool) (lat : List Nat) (t : Trig) : Bank :=
  { busy := drains, latched := true, trig := t, lat := latchEdges (if t.late then s.time else t.t) lat, seq := (s.reg R.SNP_SEQ).toNat,
    words := s.snapAll }

/-- After a capture the view follows to its bank unless it is held, and CAPT_OUT pulses where it is enabled. -/
def State.showBank (s : State) (b : Nat) : State :=
  (s.modSnp (fun p => if s.regB R.SNP_CTRL 4 then p else { p with view := b })).modSnp
    (fun p => { p with captOut := p.captOut || s.regB R.SNP_CTRL 3 })

theorem State.showBank_snp (s : State) (b : Nat) :
    (s.showBank b).snp.queue = s.snp.queue ∧ (s.showBank b).snp.banks = s.snp.banks := by
  simp only [State.showBank, State.modSnp]
  split <;> exact ⟨rfl, rfl⟩

@[simp] theorem State.trigTaken_regB (s : State) (rest : List Trig) (i : Nat) :
    (s.trigTaken rest).regB R.SNP_CTRL i = s.regB R.SNP_CTRL i := by
  rw [State.regB, State.trigTaken, State.reg_setRegN, if_neg (by decide)]
  rfl

@[simp] theorem State.trigTaken_bankTaken (s : State) (rest : List Trig) (b : Nat) : (s.trigTaken rest).bankTaken b = s.bankTaken b := by
  rw [State.bankTaken, State.trigTaken_regB]
  rfl

@[simp] theorem State.trigTaken_seq (s : State) (rest : List Trig) : (s.trigTaken rest).reg R.SNP_SEQ = s.reg R.SNP_SEQ + 1 := by
  rw [State.trigTaken, State.reg_setRegN, if_pos rfl]
  apply BitVec.eq_of_toNat_eq
  simp

section Capture
variable {s : State} (lat : List Nat) {t : Trig} {rest : List Trig} (he : s.regB R.SNP_CTRL 0 = true) (hq : s.snp.queue = t :: rest)
  (ht : t.t ≤ s.time)
include he hq ht

theorem capture_eq : capture lat s = if (s.trigTaken rest).bankTaken ((s.reg R.SNP_SEQ).toNat % 2) then
      ((s.trigTaken rest).incReg R.SNP_MISS_CNT 1).eventLog R.SNP_EVENTS 1 5 1 0 (s.reg R.SNP_SEQ).toNat
    else ((s.trigTaken rest).setBank ((s.reg R.SNP_SEQ).toNat % 2) (s.captureBank (decide (0 < (s.trigTaken rest).snpRing)) lat t)).showBank ((s.reg R.SNP_SEQ).toNat % 2) := by
  unfold capture
  rw [hq]
  dsimp only
  rw [if_neg (by simp [he, Nat.not_lt.2 ht])]
  rfl

/-- A capture whose bank is taken misses. -/
theorem capture_misses (hb : s.bankTaken ((s.reg R.SNP_SEQ).toNat % 2) = true) :
    capture lat s = ((s.trigTaken rest).incReg R.SNP_MISS_CNT 1).eventLog R.SNP_EVENTS 1 5 1 0 (s.reg R.SNP_SEQ).toNat := by
  rw [capture_eq lat he hq ht, State.trigTaken_bankTaken, if_pos hb]

/-- A capture into a free bank. -/
theorem capture_takes (hb : s.bankTaken ((s.reg R.SNP_SEQ).toNat % 2) = false) : capture lat s =
    ((s.trigTaken rest).setBank ((s.reg R.SNP_SEQ).toNat % 2) (s.captureBank (decide (0 < (s.trigTaken rest).snpRing)) lat t)).showBank ((s.reg R.SNP_SEQ).toNat % 2) := by
  rw [capture_eq lat he hq ht, State.trigTaken_bankTaken, if_neg (by rw [hb]; decide)]

end Capture

theorem latchEdges_length (t : Nat) (lat : List Nat) : (latchEdges t lat).length = snapOrder.length := by simp [latchEdges]

theorem latchEdges_bounds (t : Nat) (lat : List Nat) {i : Nat} (h : i < snapOrder.length) : 4 * t ≤ (latchEdges t lat).getD i 0 ∧
    (latchEdges t lat).getD i 0 ≤ 4 * t + latchBound (snapOrder.getD i (0, 0, 0)).1 := by
  have hi : i < (latchEdges t lat).length := by rw [latchEdges_length]; exact h
  rw [List.getD_eq_getElem _ _ hi, List.getD_eq_getElem _ _ h]
  simp only [latchEdges, List.getElem_map, List.getElem_zipIdx]
  omega

/-! ### Draining (R375) -/

/-- A bank that drains goes into the ring, or counts a miss where there is no room. -/
theorem drain_eq {s : State} {b wr sz : Nat} {x : Bank} {recs : List Byte} (hd : s.drainNext = some b) (hx : s.bank b = x)
    (hr : s.snapRecords x b = recs) (hs : s.snpRing = sz) (hw : (s.reg R.SNP_RING_WR).toNat = wr) :
    drain s = if sz = 0 ∨ ((s.reg R.SNP_RING_RD).toNat + 2 * sz - wr - 1) % sz < recs.length then
        ((s.setBank b { x with busy := false }).event R.SNP_EVENTS 3).incReg R.SNP_MISS_CNT 1
      else (((s.setBank b { x with busy := false }).ringWrite wr recs).setRegN R.SNP_RING_WR ((wr + recs.length) % sz)).event R.SNP_EVENTS 0 := by
  unfold drain
  rw [hd]
  subst hx hr hs hw
  rfl

/-- The error log is no register. -/
theorem State.reg_modErr (s : State) (f : ErrSt → ErrSt) (a : Nat) : (s.modErr f).reg a = s.reg a := rfl

/-! ### The error log (R381, R382) -/

/-- The entry that the writer of the log overwrites is unread. -/
def State.overwrites (s : State) : Bool :=
  let ahead := ((s.reg R.ERR_WR_SEQ).toNat + 2 ^ 32 - (s.reg R.ERR_RD_SEQ).toNat) % 2 ^ 32
  decide (1024 ≤ ahead) && decide (ahead < 2 ^ 31)

/-- What the writer of the log notes before it writes: an unread entry that is lost. -/
def State.noteLost (s : State) : State := if s.overwrites then (s.incReg R.ERR_LOST_CNT 1).event R.ERR_EVENTS 0 else s

theorem State.noteLost_spec (s : State) : s.noteLost.err = s.err ∧ s.noteLost.mem = s.mem ∧ s.noteLost.out = s.out ∧
    ∀ a, a ≠ R.ERR_LOST_CNT → a ≠ R.ERR_EVENTS → s.noteLost.reg a = s.reg a := by
  unfold State.noteLost
  cases s.overwrites with
  | true => exact ⟨rfl, rfl, rfl, fun a h1 h2 => by rw [if_pos rfl, State.reg_event_ne _ h2, State.reg_incReg, if_neg h1]⟩
  | false => exact ⟨rfl, rfl, rfl, fun _ _ _ => rfl⟩

/-- The writer of the log puts an entry in its place of the ring and moves the write number on. -/
def State.putEntry (s : State) (i v k : Nat) : State :=
  (s.modErr fun q => ⟨q.queue, SMap.set (fun _ => 0) q.ring i v⟩).setRegN R.ERR_WR_SEQ k

theorem State.putEntry_frame (s : State) (i v k : Nat) :
    (s.putEntry i v k).err = { s.err with ring := SMap.set (fun _ => 0) s.err.ring i v } ∧ (s.putEntry i v k).mem = s.mem ∧
      (s.putEntry i v k).out = s.out := ⟨rfl, rfl, rfl⟩

theorem State.reg_putEntry (s : State) (i v k a : Nat) :
    (s.putEntry i v k).reg a = if a = R.ERR_WR_SEQ then BitVec.ofNat 32 k else s.reg a := by
  rw [State.putEntry, State.reg_setRegN, State.reg_modErr]

theorem State.writeLog_eq (s : State) (e : LogEnt) : s.writeLog e = s.noteLost.putEntry ((s.reg R.ERR_WR_SEQ).toNat % 1024)
    (ofLe (e.bytes (s.reg R.ERR_WR_SEQ).toNat)) (((s.reg R.ERR_WR_SEQ).toNat + 1) % 2 ^ 32) := rfl

/-- The writer of the log changes the log and its own registers. -/
theorem State.reg_writeLog (s : State) (e : LogEnt) {a : Nat} (h1 : a ≠ R.ERR_LOST_CNT) (h2 : a ≠ R.ERR_EVENTS) (h3 : a ≠ R.ERR_WR_SEQ) :
    (s.writeLog e).reg a = s.reg a := by
  rw [State.writeLog_eq, State.reg_putEntry, if_neg h3]
  exact s.noteLost_spec.2.2.2 a h1 h2

theorem State.writeLog_seq (s : State) (e : LogEnt) : (s.writeLog e).reg R.ERR_WR_SEQ = s.reg R.ERR_WR_SEQ + 1 := by
  rw [State.writeLog_eq, State.reg_putEntry, if_pos rfl]
  apply BitVec.eq_of_toNat_eq
  simp

theorem State.writeLog_frame' (s : State) (e : LogEnt) : (s.writeLog e).err = { s.err with
    ring := SMap.set (fun _ => 0) s.err.ring ((s.reg R.ERR_WR_SEQ).toNat % 1024) (ofLe (e.bytes (s.reg R.ERR_WR_SEQ).toNat)) } ∧
      (s.writeLog e).mem = s.mem ∧ (s.writeLog e).out = s.out := by
  obtain ⟨herr, hmem, hout, -⟩ := s.noteLost_spec
  rw [State.writeLog_eq, ← herr, ← hmem, ← hout]
  exact s.noteLost.putEntry_frame _ _ _

theorem State.fnHost_writeLog (s : State) (e : LogEnt) (f : Nat) : (s.writeLog e).fnHost f = s.fnHost f := by
  unfold State.fnHost State.regB
  rw [State.reg_writeLog _ _ (by decide) (by decide) (by decide)]

/-- With the snapshot block's function on the host, a class that has an entry sets at most an event bit of the log. -/
theorem State.classEntry_host {s : State} (c : Nat) (h : s.fnHost 11 = true) :
    s.classEntry c = if s.regB R.ERR_CTRL c then s.event R.ERR_EVENTS 2 else s := if_pos h

/-- What it shows of the class changes neither the log nor memory. -/
theorem State.classEntry_shown {s : State} (c : Nat) (h : s.fnHost 11 = true) :
    (s.classEntry c).err = s.err ∧ (s.classEntry c).mem = s.mem ∧ (s.classEntry c).out = s.out ∧
      (s.classEntry c).reg R.ERR_WR_SEQ = s.reg R.ERR_WR_SEQ := by
  rw [State.classEntry_host c h]
  split
  · exact ⟨rfl, rfl, rfl, State.reg_event_ne _ (by decide) _⟩
  · exact ⟨rfl, rfl, rfl, rfl⟩

/-- The log input hands its oldest entry to the writer. -/
theorem errorLogWrite_eq {s : State} {e : LogEnt} {rest : List LogEnt} (h : s.err.queue = e :: rest) :
    errorLogWrite s = ((s.modErr fun q => { q with queue := rest }).writeLog e).classEntry e.cls := by rw [errorLogWrite, h]

end Sys2Proof.Machine

namespace Sys2Proof.Proofs
open Sys2Proof Sys2Proof.Machine

/-- Settles O60: each command takes the branch that its conditions name; what is latched, drained or logged is formed from the state before. -/
theorem snapshotsChecksAndLog : Obligations.SnapshotsChecksAndLog := by
  unfold Obligations.SnapshotsChecksAndLog
  refine ⟨fun _ _ _ => rfl, fun _ _ => rfl, ?first, ?raise, ?off, ?edges, ?takes, ?misses, ?noTrigger, ?view, ?pulse, ?nothingDue, ?drains,
    ?sizeRefused, ?sizeWritten, ?claimed, ?taken, ?owner, ?foreign, ?feed, ?logEmpty, ?logs⟩
  case first =>
    intro s cls t he hq
    refine ⟨_, rfl, ?_⟩
    rw [State.raiseTrig_eq (f := false) rfl rfl, if_neg (by decide), State.queueTrig_first _ (by exact he) (by exact hq)]
    exact ⟨rfl, by simp [State.modSnp, State.modEzl], by simp, by simp⟩
  case raise => exact fun s u v cls t f hu hv => State.raiseTrig_eq hu hv
  case off =>
    intro s x h
    refine ⟨State.queueTrig_off x h, ?_, ?_, fun lat => congrArg Host.Outcome.next (capture_off lat h)⟩ <;> rw [State.snpOff_snp, h] <;> rfl
  case edges => exact fun t i lat => ⟨latchEdges_length t lat, latchEdges_bounds t lat⟩
  case takes =>
    intro s lat t rest he hq ht hb
    refine ⟨_, congrArg Host.Outcome.next (capture_takes lat he hq ht hb), ?_⟩
    generalize hk : (s.reg R.SNP_SEQ).toNat = k
    obtain ⟨hqueue, hbanks⟩ := ((s.trigTaken rest).setBank (k % 2) (s.captureBank (decide (0 < (s.trigTaken rest).snpRing)) lat t)).showBank_snp (k % 2)
    have hbank : (((s.trigTaken rest).setBank (k % 2) (s.captureBank (decide (0 < (s.trigTaken rest).snpRing)) lat t)).showBank (k % 2)).bank (k % 2) = s.captureBank (decide (0 < (s.trigTaken rest).snpRing)) lat t := by
      rw [State.bank, hbanks]; exact SMap.get_set_self
    rw [hqueue, hbank]
    exact ⟨rfl, rfl, rfl, rfl, rfl, hk, s.trigTaken_seq rest, rfl, rfl⟩
  case misses =>
    intro s lat t rest he hq ht hb
    refine ⟨_, congrArg Host.Outcome.next (capture_misses lat he hq ht hb), ?_, ?_, State.regB_eventLog _ _ (by decide) (by decide) (by decide), ?_, ?_⟩
    · simp [State.incReg, State.setRegN, State.trigTaken, State.modSnp]
    · simp [State.incReg, State.setRegN, State.trigTaken, State.modSnp]
    · rw [State.reg_eventLog _ _ _ (by decide) (by decide), if_neg (by decide), State.reg_incReg, if_neg (by decide), State.trigTaken_seq]
    · simp [State.incReg, State.setRegN, State.trigTaken]
  case noTrigger => exact fun s lat h => congrArg Host.Outcome.next (capture_idle lat h)
  case view => exact fun s h => ⟨by rw [State.freeView_snp, h]; rfl, by rw [State.freeView_snp], by simp only [State.freeView_frame]⟩
  case pulse => exact fun s => ⟨_, rfl, rfl, rfl, rfl, rfl⟩
  case nothingDue => exact fun s h => congrArg Host.Outcome.next (by rw [drain, h])
  case drains => exact fun s b wr sz x recs hd hx hr hs hw => congrArg Host.Outcome.next (drain_eq hd hx hr hs hw)
  case sizeRefused => exact fun s rq v h => congrArg Host.Outcome.next (if_pos h)
  case sizeWritten =>
    intro s rq v h
    refine ⟨_, congrArg Host.Outcome.next (if_neg (by rw [h]; decide)), ?_, ?_, ?_, rfl, rfl⟩
    · rw [State.regF, State.reg_setRegN, if_neg (by decide), State.reg_setRegN, if_neg (by decide), ← State.regF,
        State.regF_setRegF_self _ _ (by decide) (by decide), fld, bitsOf, Nat.mod_mod]
    · rw [State.reg_setRegN, if_neg (by decide), State.reg_setRegN, if_pos rfl]; rfl
    · rw [State.reg_setRegN, if_pos rfl]; rfl
  case claimed =>
    intro s rq u len h
    refine ⟨_, congrArg Host.Outcome.next (if_pos h), ?_, ?_, ?_, fun x hx => State.chkU_setChk_ne s _ fun e => hx (Fin.ext e), rfl, rfl⟩ <;>
      simp [chkLen]
  case taken => exact fun s rq u len h1 h2 => congrArg Host.Outcome.next (if_neg (by simp [h1, h2]))
  case owner =>
    intro s rq u len v c hc ho
    subst hc
    exact ⟨congrArg Host.Outcome.next (if_pos ho), congrArg Host.Outcome.next (if_pos ho), congrArg Host.Outcome.next (if_pos ho),
      congrArg Host.Outcome.next (if_pos ho)⟩
  case foreign =>
    exact fun s rq u len v h => ⟨congrArg Host.Outcome.next (if_neg h), congrArg Host.Outcome.next (if_neg h),
      congrArg Host.Outcome.next (if_neg h), congrArg Host.Outcome.next (if_neg h)⟩
  case feed => exact fun v a b => (List.foldl_append ..).symm
  case logEmpty => exact fun s h => congrArg Host.Outcome.next (by rw [errorLogWrite, h])
  case logs =>
    intro s e rest n hq hf hn
    subst hn
    refine ⟨_, congrArg Host.Outcome.next (errorLogWrite_eq hq), ?_⟩
    generalize hx : s.modErr (fun q => { q with queue := rest }) = x
    have hreg : ∀ a, x.reg a = s.reg a := fun a => by rw [← hx]; rfl
    have hfn : (x.writeLog e).fnHost 11 = true := by
      rw [State.fnHost_writeLog, ← hx]; exact hf
    obtain ⟨herr, hmem, hout⟩ := x.writeLog_frame' e
    have hxerr : x.err = { s.err with queue := rest } := by rw [← hx]; rfl
    obtain ⟨he, hm, ho, hr⟩ := State.classEntry_shown e.cls hfn
    rw [he, hm, ho, hr, herr, hmem, hout, State.writeLog_seq, hxerr, hreg]
    generalize (s.reg R.ERR_WR_SEQ).toNat % 1024 = k
    generalize ofLe (e.bytes (s.reg R.ERR_WR_SEQ).toNat) = v
    exact ⟨rfl, SMap.get_set_self, rfl, fun i hi => SMap.get_set_ne hi, by rw [← hx]; rfl, by rw [← hx]; rfl⟩

end Sys2Proof.Proofs
end

section
/-! O48. Flits received, idle flits and repeated NAKs. -/

namespace Sys2Proof.Machine
open Sys2Proof

/-- With no freed entries a flit returns no credit. -/
theorem LinkSt.creditField_none {k : LinkSt} (h : k.freed = [0, 0, 0, 0]) : k.creditField = (0, 0) := by
  rw [LinkSt.creditField, h]; rfl

/-- The link after a flit has left: it has acknowledged what was received and given the NAK that was owed. -/
def LinkSt.flitSent (k : LinkSt) : LinkSt :=
  { k with
    nakOwed := none, unacked := 0
    freed := k.freed.set k.creditField.1 (k.freed.getD k.creditField.1 0 - 4 * k.creditField.2)
    rxCred := k.rxCred.set k.creditField.1 (k.rxCred.getD k.creditField.1 0 + 4 * k.creditField.2) }

/-- The bytes of the next flit of a link. -/
def State.nextFlit (s : State) (l typ stream src dst seq : Nat) (first last : Bool) (pay : List Byte) : List Byte :=
  flitBytes typ stream src dst seq (((s.lnk l).rxSeq + 65535) % 65536) ((s.lnk l).nakOwed.getD (0, 0)).1
    ((s.lnk l).creditField.1 * 64 + (s.lnk l).creditField.2) ((s.lnk l).nakOwed.getD (0, 0)).2 s.ezl.pod.id first last pay

theorem State.sendFlit_eq (s : State) (l typ stream src dst seq : Nat) (first last : Bool) (pay : List Byte) :
    s.sendFlit l typ stream src dst seq first last pay = ((s.setLnk l (s.lnk l).flitSent).incPair (R.EZL_Ll_FLITS l) 1).emit
      (.flit l (s.nextFlit l typ stream src dst seq first last pay)) := rfl

theorem State.out_emit (s : State) (o : Out) : (s.emit o).out = s.out ++ [o] := rfl
theorem State.pair_emit (s : State) (o : Out) (a : Nat) : (s.emit o).pair a = s.pair a := rfl
theorem State.pair_setLnk (s : State) (l : Nat) (k : LinkSt) (a : Nat) : (s.setLnk l k).pair a = s.pair a := rfl

/-- A flit that leaves changes its own link alone. -/
theorem State.ezl_sendFlit (s : State) (l typ stream src dst seq : Nat) (first last : Bool) (pay : List Byte) :
    (s.sendFlit l typ stream src dst seq first last pay).ezl = (s.setLnk l (s.lnk l).flitSent).ezl := by
  rw [State.sendFlit_eq, State.emit_ezl]
  simp only [State.incPair_frame]

theorem State.lnk_sendFlit (s : State) (l typ stream src dst seq : Nat) (first last : Bool) (pay : List Byte) :
    (s.sendFlit l typ stream src dst seq first last pay).lnk l = (s.lnk l).flitSent := by
  rw [State.lnk, State.ezl_sendFlit, ← State.lnk, State.lnk_setLnk]

/-- A frame that has arrived whole waits for its command. -/
theorem State.lnk_rxDone (s : State) (x : Nat × Frame) (j : Nat) : (s.modEzl fun e => { e with rxDone := e.rxDone ++ [x] }).lnk j = s.lnk j := rfl

/-- The link has received one more flit of the class. -/
def LinkSt.received (k : LinkSt) (c : Nat) : LinkSt :=
  { k with rxSeq := (k.rxSeq + 1) % 65536, nakOut := none, unacked := k.unacked + 1,
           freed := k.freed.set c (k.freed.getD c 0 + 1), rxCred := k.rxCred.set c (k.rxCred.getD c 0 - 1) }

/-- The last flit of a good frame with no part before it ends the frame. -/
theorem State.flitAccept_whole {s : State} {l : Nat} {h : FlitHdr} {pay : List Byte} (hf : s.flitFault l h = none)
    (hr : badRelayOp h pay = false) (hp : (s.lnk l).parts = []) (hl : h.last = true) (hb : frameBad h.typ pay = false) :
    s.flitAccept l h pay = (s.setLnk l { (s.lnk l).received (frameClass h.typ) with parts := [] }).frameDone l
      ⟨h.typ, h.stream, h.src, h.dst, pay⟩ := by
  unfold State.flitAccept
  simp [hf, hr, hp, hl, hb, LinkSt.received]

end Sys2Proof.Machine

namespace Sys2Proof.Proofs
open Sys2Proof Sys2Proof.Machine

/-- Settles O48: each flit takes the branch that its check value, sequence and kind name. -/
theorem flitsAndAcknowledgements : Obligations.FlitsAndAcknowledgements := by
  unfold Obligations.FlitsAndAcknowledgements
  refine ⟨?notUp, ?badCrc, ?good, ?whole, ?frame, ?owed, ?idle, ?idleFlit, ?timersOff, ?nakAgain, ?noNak⟩
  case notUp => exact fun s l bs h => congrArg Host.Outcome.next (if_pos h)
  case badCrc => exact fun s l bs hu hc => congrArg Host.Outcome.next ((if_neg (not_not.2 hu)).trans (if_pos hc))
  case good =>
    intro s l bs h u hu hc hh hn
    subst hh hn
    exact congrArg Host.Outcome.next ((if_neg (not_not.2 hu)).trans (if_neg (not_not.2 hc)))
  case whole =>
    intro s u l h pay hf hr hp hl hb hd hu
    rw [State.flitAccept_whole hf hr hp hl hb, State.frameDone, if_pos (by exact hd)] at hu
    subst hu
    rw [State.lnk_rxDone, State.lnk_setLnk]
    exact ⟨rfl, rfl, rfl, rfl, rfl, rfl⟩
  case frame =>
    intro s l bs
    refine ⟨_, rfl, ?_⟩
    simp only [flitReceive_frame, and_self]
  case owed => exact fun s l => ⟨fun h => ⟨if_pos h, by rw [State.sendIdle, State.lnk_sendFlit]; rfl⟩, fun h => if_neg (Nat.not_le.2 h)⟩
  case idle => exact fun s l h => congrArg Host.Outcome.next (if_pos h)
  case idleFlit =>
    intro s l h
    refine ⟨_, rfl, ?_, by rw [State.sendIdle, State.lnk_sendFlit]; rfl, ?_, by simp only [State.sendIdle_frame]⟩
    · rw [State.sendIdle, State.sendFlit_eq, State.nextFlit, LinkSt.creditField_none h]
      rw [State.out_emit]
      simp only [State.incPair_frame]
      rfl
    · rw [State.sendIdle, State.sendFlit_eq, State.pair_emit, State.pair_incPair, State.pair_setLnk]
  case timersOff =>
    intro s l h
    refine ⟨congrArg Host.Outcome.next (if_neg h), congrArg Host.Outcome.next ?_⟩
    unfold nakRepeat
    split
    · next hu _ => exact absurd hu h
    · rfl
  case nakAgain => exact fun s l r q hu hn => congrArg Host.Outcome.next (by rw [nakRepeat, hu, hn])
  case noNak => exact fun s l hu hn => congrArg Host.Outcome.next (by rw [nakRepeat, hu, hn])

end Sys2Proof.Proofs
end

section
/-! SUPPORT. What sending a frame keeps: the states of the links, the links that are not UP, the pod, the time base, and every register but the
flit counters. -/

namespace Sys2Proof.Machine
open Sys2Proof

/-- `a` is no half of a flit counter of the 18 links. -/
def noFlitCounter (a : Nat) : Prop := ∀ l < 18, a ≠ R.EZL_Ll_FLITS l ∧ a ≠ R.EZL_Ll_FLITS l + 4

theorem noFlitCounter_of_outside {a : Nat} (h : a < 0x1C0118 ∨ 0x1C0560 ≤ a) : noFlitCounter a := by
  intro l hl
  unfold R.EZL_Ll_FLITS
  omega

theorem noFlitCounter_retrain (l : Nat) : noFlitCounter (R.EZL_Ll_RETRAIN_CNT l) := by
  intro j _
  unfold R.EZL_Ll_FLITS R.EZL_Ll_RETRAIN_CNT
  omega

/-- Frames were sent on UP links alone, or wait. -/
structure State.Sent (s t : State) : Prop where
  rest : { t.ezl with link := s.ezl.link, wait := s.ezl.wait } = s.ezl
  st : ∀ j, (t.lnk j).st = (s.lnk j).st
  idle : ∀ j, (s.lnk j).st ≠ .up → t.lnk j = s.lnk j
  reg : ∀ a, noFlitCounter a → t.reg a = s.reg a

namespace State.Sent
variable {s t u : State}

theorem refl (s : State) : s.Sent s := ⟨rfl, fun _ => rfl, fun _ _ => rfl, fun _ _ => rfl⟩

theorem trans (h : s.Sent t) (g : t.Sent u) : s.Sent u where
  rest := by
    have hg := congrArg (fun e : EzlSt => { e with link := s.ezl.link, wait := s.ezl.wait }) g.rest
    exact hg.trans h.rest
  st j := (g.st j).trans (h.st j)
  idle j hj := (g.idle j (by rw [h.st]; exact hj)).trans (h.idle j hj)
  reg a ha := (g.reg a ha).trans (h.reg a ha)

theorem pod (h : s.Sent t) : t.ezl.pod = s.ezl.pod := (congrArg EzlSt.pod h.rest :)
theorem tim (h : s.Sent t) : t.ezl.tim = s.ezl.tim := (congrArg EzlSt.tim h.rest :)
theorem seen (h : s.Sent t) : t.ezl.seen = s.ezl.seen := (congrArg EzlSt.seen h.rest :)

theorem regB (h : s.Sent t) {a : Nat} (ha : noFlitCounter a) (i : Nat) : t.regB a i = s.regB a i := by
  rw [State.regB, h.reg a ha, State.regB]

/-- A list of frames is sent one after the other. -/
theorem foldl {α : Type} {f : State → α → State} (hf : ∀ (s : State) (x : α), s.Sent (f s x)) (xs : List α) : s.Sent (xs.foldl f s) := by
  induction xs generalizing s with
  | nil => exact refl s
  | cons x xs ih => exact (hf s x).trans ih

end State.Sent

section
variable {s : State} {l : Nat}

/-- An UP link takes a new state that is UP again. -/
theorem State.sent_setLnk {k : LinkSt} (hu : (s.lnk l).st = .up) (hk : k.st = .up) : s.Sent (s.setLnk l k) where
  rest := rfl
  st j := by
    by_cases hj : j = l
    · rw [hj, State.lnk_setLnk, hk, hu]
    · rw [State.lnk_setLnk_ne s k hj]
  idle j hj := State.lnk_setLnk_ne s k (fun e => hj (e ▸ hu))
  reg _ _ := rfl

theorem State.sent_incPair (s : State) (hl : l < 18) (n : Nat) : s.Sent (s.incPair (R.EZL_Ll_FLITS l) n) where
  rest := by simp only [State.incPair_frame]
  st j := by simp only [State.lnk, State.incPair_frame]
  idle j _ := by simp only [State.lnk, State.incPair_frame]
  reg a ha := State.reg_setPair _ _ _ (ha l hl).1 (ha l hl).2

theorem State.sent_emit (s : State) (o : Out) : s.Sent (s.emit o) := ⟨rfl, fun _ => rfl, fun _ _ => rfl, fun _ _ => rfl⟩

theorem State.sent_sendFlit (hl : l < 18) (hu : (s.lnk l).st = .up) (typ stream src dst seq : Nat) (first last : Bool) (pay : List Byte) :
    s.Sent (s.sendFlit l typ stream src dst seq first last pay) := by
  rw [State.sendFlit_eq]
  exact ((State.sent_setLnk hu (k := (s.lnk l).flitSent) hu).trans (State.sent_incPair _ hl 1)).trans (State.sent_emit _ _)

theorem State.sent_pumpOne (s : State) (hl : l < 18) : s.Sent (s.pumpOne l) := by
  unfold State.pumpOne
  dsimp only
  split
  · next h =>
    split
    · exact .refl s
    · exact (State.sent_setLnk h.1 (by exact h.1)).trans (State.sent_sendFlit hl (by rw [State.lnk_setLnk]; exact h.1) ..)
  · exact .refl s

theorem State.sent_pump (s : State) (hl : l < 18) : s.Sent (s.pump l) := by
  suffices h : ∀ n (s : State), s.Sent (State.pumpFuel n l s) from h 2048 s
  intro n
  induction n with
  | zero => exact .refl
  | succ n ih =>
    intro s
    rw [State.pumpFuel]
    split
    · exact (s.sent_pumpOne hl).trans (ih _)
    · exact .refl s

theorem State.sent_sendOn (hl : l < 18) (hu : (s.lnk l).st = .up) (f : Frame) : s.Sent (s.sendOn l f) :=
  (State.sent_setLnk hu (k := { s.lnk l with queue := (s.lnk l).queue ++ [f] }) hu).trans (State.sent_pump _ hl)

theorem State.sent_holdFrame (s : State) (m : Option Nat) (f : Frame) : s.Sent (s.holdFrame m f) :=
  ⟨rfl, fun _ => rfl, fun _ _ => rfl, fun _ _ => rfl⟩

theorem State.upLink_up {q : Nat} (h : s.upLink q = some l) : (s.lnk l).st = .up := by simpa using List.find?_some h

theorem State.upLinkTo_up {m : Nat} (h : s.upLinkTo m = some l) : l < 18 ∧ (s.lnk l).st = .up := by
  have h1 := List.find?_some h
  have h2 := List.mem_of_find?_eq_some h
  simp only [Bool.and_eq_true, decide_eq_true_eq] at h1
  exact ⟨List.mem_range.1 h2, h1.1⟩

theorem State.sent_sendRouted (s : State) (f : Frame) : s.Sent (s.sendRouted f) := by
  unfold State.sendRouted
  split
  · exact .refl s
  · next q hq =>
    split
    · next l hl => exact State.sent_sendOn (State.upLink_lt (routePort_lt hq) hl) (State.upLink_up hl) f
    · split
      · exact s.sent_holdFrame _ f
      · exact .refl s

theorem State.sent_sendPartner (s : State) (m : Nat) (f : Frame) : s.Sent (s.sendPartner m f) := by
  unfold State.sendPartner
  split
  · next l hl => exact State.sent_sendOn (State.upLinkTo_up hl).1 (State.upLinkTo_up hl).2 f
  · exact s.sent_holdFrame _ f

theorem State.sent_sendCtrl (s : State) (dst op : Nat) (c : CtrlMsg) : s.Sent (s.sendCtrl dst op c) := s.sent_sendRouted _

theorem State.sent_reroute (m : Nat) (s : State) (f : Frame) : s.Sent (State.reroute m s f) := by
  unfold State.reroute
  split
  · split
    · next l hl => exact State.sent_sendOn (State.upLinkTo_up hl).1 (State.upLinkTo_up hl).2 f
    · split
      · exact s.sent_holdFrame _ f
      · exact .refl s
  · exact s.sent_sendRouted f

/-- Frames for some of the 18 links, each sent where its link is UP. -/
theorem State.sent_onLinks (p : State → Nat → Bool) (f : State → Nat → Frame) (s : State) :
    s.Sent ((List.range 18).foldl (fun s l => if (s.lnk l).st = .up ∧ p s l = true then s.sendOn l (f s l) else s) s) := by
  suffices h : ∀ (xs : List Nat), (∀ l ∈ xs, l < 18) → ∀ s : State, s.Sent
      (xs.foldl (fun s l => if (s.lnk l).st = .up ∧ p s l = true then s.sendOn l (f s l) else s) s) from
    h _ (fun l => List.mem_range.1) s
  intro xs
  induction xs with
  | nil => exact fun _ => .refl
  | cons l xs ih =>
    intro hxs s
    rw [List.foldl_cons]
    refine State.Sent.trans ?_ (ih (fun j hj => hxs j (List.mem_cons_of_mem _ hj)) _)
    split
    · next h => exact State.sent_sendOn (hxs l List.mem_cons_self) h.1 _
    · exact .refl s

theorem State.sent_flood (s : State) (except : Option Nat) (f : Frame) : s.Sent (s.flood except f) := by
  have h := s.sent_onLinks (fun _ l => decide (some l ≠ except)) (fun _ _ => f)
  unfold State.flood
  simpa only [Bool.and_eq_true, decide_eq_true_eq] using h

end

end Sys2Proof.Machine
end

section
/-! O50. Pod time and triggers over the links. -/

namespace Sys2Proof.Machine
open Sys2Proof

/-! ### The correction and the tick (R290) -/

section Correct
variable (t : TimeSt) (p : Nat) (off : Int)

/-- The part of a correction that does not depend on the offset's size. -/
def TimeSt.noted : TimeSt :=
  { t with
    rate := clampInt (-200000000) 200000000 (t.rate - (off * 62500000) / (p : Int))
    offset := off
    good := if -8 ≤ off ∧ off ≤ 8 then min 8 (t.good + 1) else 0
    locked := decide ((if -8 ≤ off ∧ off ≤ 8 then min 8 (t.good + 1) else 0) = 8)
    holdover := false }

theorem TimeSt.correct_behind (h : off < -8000) : t.correct p off =
    { t.noted p off with now := (t.now + ((-off) / 8).toNat) % 2 ^ 64, slew := 0, left := 0, lead := 0 } := if_pos h

theorem TimeSt.correct_ahead (h : 8000 < off) : t.correct p off = { t.noted p off with lead := off, slew := 0, left := 0 } :=
  (if_neg (by omega)).trans (if_pos h)

theorem TimeSt.correct_slews (h1 : -8000 ≤ off) (h2 : off ≤ 8000) : t.correct p off =
    { t.noted p off with slew := -off, span := 1000 * p, left := 1000 * p, slewAcc := 0, lead := 0 } :=
  (if_neg (by omega)).trans (if_neg (by omega))

/-- Every correction notes the offset, the rate within its bounds, and the lock. -/
theorem TimeSt.correct_noted : (t.correct p off).offset = off ∧ (t.correct p off).rate = (t.noted p off).rate ∧
    (t.correct p off).holdover = false ∧ (t.correct p off).locked = (t.noted p off).locked ∧ (t.correct p off).good = (t.noted p off).good := by
  rcases lt_or_ge off (-8000) with h | h
  · rw [t.correct_behind p off h]; exact ⟨rfl, rfl, rfl, rfl, rfl⟩
  · rcases lt_or_ge 8000 off with g | g
    · rw [t.correct_ahead p off g]; exact ⟨rfl, rfl, rfl, rfl, rfl⟩
    · rw [t.correct_slews p off h g]; exact ⟨rfl, rfl, rfl, rfl, rfl⟩

theorem TimeSt.noted_rate : -200000000 ≤ (t.noted p off).rate ∧ (t.noted p off).rate ≤ 200000000 := by
  simp only [TimeSt.noted, clampInt]
  omega

end Correct

/-- Without a rate, a slew or a lead a nanosecond is one nanosecond of pod time. -/
theorem TimeSt.tick_plain {t : TimeSt} (hr : t.rate = 0) (ha : t.acc = 0) (hl : t.left = 0) (hd : t.lead = 0) :
    t.tick.now = (t.now + 1) % 2 ^ 64 ∧ t.tick.left = 0 ∧ t.tick.lead = 0 := by
  simp [TimeSt.tick, hr, ha, hl, hd]

/-! ### Parent and master (R291) -/

theorem State.noteParent_same {s : State} {m : Nat} (h : s.ezl.tim.parent = some m) : s.noteParent m = s := by
  have hs : s.modTim (fun t => { t with parent := some m }) = s := by
    rw [← h]; rfl
  unfold State.noteParent
  simp [h, hs]

theorem State.noteParent_other {s : State} {m o : Nat} (h : s.ezl.tim.parent = some o) (hm : o ≠ m) :
    s.noteParent m = (s.modTim fun t => { t with parent := some m }).log 0x15 6 0xFF 0 m := by
  unfold State.noteParent
  simp [h, hm]

theorem State.noteParent_ezl (s : State) (m : Nat) : (s.noteParent m).ezl = (s.modTim fun t => { t with parent := some m }).ezl := by
  unfold State.noteParent
  dsimp only
  split
  · exact State.log_ezl ..
  · rfl

theorem State.takeMaster_other {s : State} {m : Nat} (h : m ≠ s.ezl.pod.master) :
    s.takeMaster m = (s.modEzl fun e => { e with pod := { e.pod with master := m } }).eventLog R.EZL_EVENTS 6 0x15 6 0 m := if_neg h

/-- The state in which the time base has lost its parent. -/
def State.heldOver (s : State) : State :=
  (s.modTim fun t => { t with locked := false, good := 0, holdover := true }).eventLog R.EZL_EVENTS 5 0x15 6 0 0

theorem State.heldOver_ezl (s : State) : s.heldOver.ezl = (s.modTim fun t => { t with locked := false, good := 0, holdover := true }).ezl :=
  State.eventLog_ezl ..

theorem State.heldOver_lnk (s : State) (l : Nat) : s.heldOver.lnk l = s.lnk l := by rw [State.lnk, s.heldOver_ezl]; rfl

/-- TIME_MASTER_LOST goes to every partner whose link is UP. -/
def State.masterLost (s : State) : State := (List.range 18).foldl (fun s l =>
  if (s.lnk l).st = .up then s.sendOn l ⟨3, 0, s.me, (s.lnk l).peer, ctrlBytes 6 { pos := s.me }⟩ else s) s

theorem State.sent_masterLost (s : State) : s.Sent s.masterLost := by
  simpa [State.masterLost] using s.sent_onLinks (fun _ _ => true) (fun s l => ⟨3, 0, s.me, (s.lnk l).peer, ctrlBytes 6 { pos := s.me }⟩)

theorem holdover_eq {s : State} (hm : s.me ≠ s.ezl.pod.master) (hp : s.parentLink = none) : holdover s =
    if (List.range 18).any (fun l => decide ((s.lnk l).st = .up)) then s.heldOver.masterLost else s.heldOver.takeMaster s.me := by
  unfold holdover
  rw [if_pos ⟨hm, hp⟩]
  show (if (List.range 18).any (fun l => decide ((s.heldOver.lnk l).st = .up)) then s.heldOver.masterLost
    else s.heldOver.takeMaster s.heldOver.me) = _
  have hme : s.heldOver.me = s.me := by rw [State.me, s.heldOver_ezl]; rfl
  simp only [s.heldOver_lnk, hme]

/-- The state in which a trigger's number of its origin is noted. -/
def State.trigSeen (s : State) (f : TrigFrame) : State :=
  (s.modEzl fun e => { e with seen := SMap.set (fun _ => none) e.seen f.origin (some f.num) }).event R.EZL_EVENTS 7

theorem State.trigSeen_seen (s : State) (f : TrigFrame) : SMap.get (fun _ => none) (s.trigSeen f).ezl.seen f.origin = some f.num := by
  simp [State.trigSeen, State.event_frame]

/-- The first copy of a number is forwarded and queued. -/
theorem triggerFrame_first {s : State} {l : Nat} {f : TrigFrame}
    (h : SMap.get (fun _ => none) (s.takeRx 5 fun x => x.startsWith (TrigFrame.bytes f)).ezl.seen f.origin ≠ some f.num) :
    triggerFrame l f s = (((s.takeRx 5 fun x => x.startsWith (TrigFrame.bytes f)).trigSeen f).flood (some l)
      ⟨5, 0, f.origin, 0xFF, TrigFrame.bytes f⟩).queueTrig { t := f.t, cls := f.cls, origin := f.origin, num := f.num, remote := true } := if_neg h

theorem State.queueTrig_ezl (s : State) (x : Trig) : (s.queueTrig x).ezl = s.ezl := by simp only [State.queueTrig_frame]

end Sys2Proof.Machine

namespace Sys2Proof.Proofs
open Sys2Proof Sys2Proof.Machine

/-- Settles O50: the branches of the time commands; what is sent changes neither the time base nor the pod. -/
theorem podTimeExchanges : Obligations.PodTimeExchanges := by
  unfold Obligations.PodTimeExchanges
  refine ⟨fun _ _ _ => rfl, ?sync, ?parent, ?delayReq, ?delayResp, ?elsewhere, ?correct, ?behind, fun t hr ha hl hd => TimeSt.tick_plain hr ha hl hd,
    ?holdover, ?noHoldover, ?master, ?sameMaster, ?trigger, ?seenTrigger⟩
  case sync =>
    intro s u l t1 t2 t3 hu hc hp
    subst hu
    exact congrArg Host.Outcome.next (if_pos (by rw [State.exchangeOn, hc, hp]; simp))
  case parent =>
    intro s m
    refine ⟨_, rfl, by rw [State.noteParent_ezl]; rfl, by rw [State.noteParent_ezl]; rfl, by simp only [State.noteParent_frame],
      State.noteParent_same, fun o h hm => State.noteParent_other h hm⟩
  case delayReq =>
    intro s u l t3 t4 hu
    subst hu
    rfl
  case delayResp =>
    intro s u l t1 t2 t3 t4 hu
    subst hu
    rfl
  case elsewhere =>
    intro s u l t1 t2 t3 hu he
    subst hu
    exact congrArg Host.Outcome.next (if_neg (by rw [he]; decide))
  case correct =>
    intro t u p off hu
    subst hu
    obtain ⟨ho, hr, hh, hl, hg⟩ := t.correct_noted p off
    rw [ho, hr, hh, hl, hg]
    refine ⟨rfl, (t.noted_rate p off).1, (t.noted_rate p off).2, rfl, by simp [TimeSt.noted], rfl, fun h => ?_, fun ⟨h1, h2⟩ => ?_, fun h => ?_⟩
    · rcases lt_or_ge 8000 off with g | g
      · rw [t.correct_ahead p off g]; rfl
      · rw [t.correct_slews p off h g]; rfl
    · rw [t.correct_slews p off h1 h2]; exact ⟨rfl, rfl, rfl, rfl⟩
    · rw [t.correct_ahead p off h]; exact ⟨rfl, rfl⟩
  case behind => exact fun t p off h => by rw [t.correct_behind p off h]
  case holdover =>
    intro s hm hp
    refine ⟨_, rfl, ?_⟩
    have hmem : (holdover s).mem = s.mem := by simp only [holdover_frame]
    have hstp : (holdover s).stp = s.stp := by simp only [holdover_frame]
    have hbit : s.heldOver.regB R.EZL_EVENTS 5 = true := State.regB_eventLog _ _ (by decide) (by decide) (by decide)
    rw [hmem, hstp, holdover_eq hm hp]
    by_cases hany : (List.range 18).any (fun l => decide ((s.lnk l).st = .up)) = true
    · have hsent := s.heldOver.sent_masterLost
      rw [if_pos hany, hsent.tim, hsent.pod, hsent.regB (noFlitCounter_of_outside (by decide)), s.heldOver_ezl]
      refine ⟨rfl, rfl, rfl, hbit, fun hno => ?_, fun _ => rfl, rfl, rfl⟩
      obtain ⟨l, hl, hu⟩ := List.any_eq_true.1 hany
      exact absurd (of_decide_eq_true hu) (hno l (List.mem_range.1 hl))
    · have hpod : s.me ≠ s.heldOver.ezl.pod.master := by rw [s.heldOver_ezl]; exact hm
      rw [if_neg hany, State.takeMaster_other hpod, State.eventLog_ezl, State.modEzl_self, s.heldOver_ezl]
      refine ⟨rfl, rfl, rfl, State.regB_eventLog_of_regB (by decide) (by decide) hbit,
        fun _ => ⟨rfl, State.regB_eventLog _ _ (by decide) (by decide) (by decide)⟩, fun ⟨l, hu⟩ => ?_, rfl, rfl⟩
      exact (hany (List.any_eq_true.2 ⟨l, List.mem_range.2 l.isLt, decide_eq_true hu⟩)).elim
  case noHoldover =>
    intro s h
    exact congrArg Host.Outcome.next (if_neg (by tauto))
  case master =>
    intro s u src low hu hm
    subst hu
    refine ⟨_, rfl, ?_⟩
    rw [timeMasterLost, State.takeMaster_other hm]
    rw [State.eventLog_ezl]
    exact ⟨rfl, rfl, State.regB_eventLog _ _ (by decide) (by decide) (by decide), rfl, by simp⟩
  case sameMaster =>
    intro s u src hu
    subst hu
    exact congrArg Host.Outcome.next (if_pos rfl)
  case trigger =>
    intro s u l f hu hs
    subst hu
    refine ⟨_, rfl, ?_⟩
    rw [triggerFrame_first hs]
    have hsent := State.sent_flood ((s.takeRx 5 fun x => x.startsWith (TrigFrame.bytes f)).trigSeen f) (some l) ⟨5, 0, f.origin, 0xFF, TrigFrame.bytes f⟩
    generalize hu : s.takeRx 5 (fun x => x.startsWith (TrigFrame.bytes f)) = u at hsent
    generalize hv : (u.trigSeen f).flood (some l) ⟨5, 0, f.origin, 0xFF, TrigFrame.bytes f⟩ = v at hsent
    have htime : v.time = u.time := by rw [State.time, hsent.tim]; rfl
    have hframe : v.snp = u.snp ∧ v.mem = u.mem ∧ v.stp = u.stp := by
      rw [← hv]; simp only [State.flood_frame]; exact ⟨rfl, rfl, rfl⟩
    obtain ⟨hsnp, hmem, hstp⟩ := hframe
    refine ⟨?_, fun he hq => ?_, ?_, ?_⟩
    · rw [State.queueTrig_ezl, hsent.seen]
      exact u.trigSeen_seen f
    · have hon : v.regB R.SNP_CTRL 0 = true := by
        rw [hsent.regB (noFlitCounter_of_outside (by decide)), ← he]
        rw [State.regB, State.trigSeen, State.reg_event_ne _ (by decide)]; rfl
      rw [State.queueTrig_first _ hon (hsnp ▸ hq), State.stampTrig, htime]
      rfl
    · simp only [State.queueTrig_frame, hmem, ← hu, State.takeRx_mem]
    · simp only [State.queueTrig_frame, hstp, ← hu, State.takeRx_stp]
  case seenTrigger =>
    intro s u l f hu hs
    subst hu
    exact congrArg Host.Outcome.next (if_pos hs)

end Sys2Proof.Proofs
end

section
/-! O49. Links that retrain, train, fall and are restored. -/

namespace Sys2Proof.Machine
open Sys2Proof

/-! ### Retraining (R280) -/

/-- The state of a link that has entered RETRAIN. -/
def State.retrained (s : State) (l : Nat) : State :=
  (s.setLnk l { s.lnk l with st := .retrain, attempts := 0, retrainTimes := (s.lnk l).retrainTimes ++ [s.time],
                             queue := (s.lnk l).queue.filter Frame.bound }).linkCount (R.EZL_Ll_RETRAIN_CNT l)

theorem enterRetrain_eq (l : Nat) (s : State) : enterRetrain l s =
    ((s.lnk l).queue.filter (fun f => !f.bound)).foldl (State.reroute ((s.retrained l).partnerOf l)) (s.retrained l) := rfl

theorem State.retrained_lnk (s : State) (l : Nat) : (s.retrained l).lnk l = { s.lnk l with st := .retrain, attempts := 0, retrainTimes := (s.lnk l).retrainTimes ++ [s.time], queue := (s.lnk l).queue.filter Frame.bound } :=
  State.lnk_setLnk s l _

theorem State.retrained_reg (s : State) (l : Nat) : (s.retrained l).reg (R.EZL_Ll_RETRAIN_CNT l) =
    BitVec.ofNat 32 (min (2 ^ 32 - 1) ((s.reg (R.EZL_Ll_RETRAIN_CNT l)).toNat + 1)) := by
  rw [State.retrained, State.linkCount, State.reg_incReg, if_pos rfl, satAdd, min_comm]
  rfl

/-- The frames that leave a link in RETRAIN go by other links. -/
theorem State.sent_enterRetrain (l : Nat) (s : State) : (s.retrained l).Sent (enterRetrain l s) := by
  rw [enterRetrain_eq]
  exact .foldl (State.sent_reroute _) _

/-- Where every queued frame is bound to the link none leaves. -/
theorem enterRetrain_bound {l : Nat} {s : State} (h : ∀ f ∈ (s.lnk l).queue, f.bound = true) : enterRetrain l s = s.retrained l := by
  rw [enterRetrain_eq, List.filter_eq_nil_iff.2 (fun f hf => by simp [h f hf])]
  rfl

/-! ### Removal (R283) -/

/-- No link changes its state. -/
def State.SameLinks (s t : State) : Prop := ∀ j, (t.lnk j).st = (s.lnk j).st

theorem State.sameLinks_of_ezl {s t : State} (h : t.ezl = s.ezl) : s.SameLinks t := fun j => by rw [State.lnk, h, State.lnk]

theorem State.SameLinks.trans {s t u : State} (h : s.SameLinks t) (g : t.SameLinks u) : s.SameLinks u := fun j => (g j).trans (h j)

theorem State.sameLinks_dropRing (s : State) : s.SameLinks s.dropRing := by
  suffices h : ∀ (xs : List Nat) (s : State), s.SameLinks (xs.foldl (fun s l =>
      s.setLnk l { s.lnk l with queue := (s.lnk l).queue.filter (fun f => f.typ ≠ 2) }) s) from h _ s
  intro xs
  induction xs with
  | nil => exact fun s j => rfl
  | cons l xs ih =>
    refine fun s => State.SameLinks.trans (fun j => ?_) (ih _)
    by_cases hj : j = l
    · rw [hj, State.lnk_setLnk]
    · rw [State.lnk_setLnk_ne s _ hj]

/-- The state in which an abort reason is noted and no ring frame waits. -/
def State.reasonTaken (s : State) (code : Nat) : State := (s.modStp fun x => { x with abort := some code }).dropRing

theorem State.reasonTaken_spec (s : State) (code : Nat) : s.SameLinks (s.reasonTaken code) ∧ (s.reasonTaken code).mem = s.mem ∧
    (s.reasonTaken code).groupN = s.groupN := by
  refine ⟨State.sameLinks_dropRing _, ?_, ?_⟩
  · simp only [State.reasonTaken, State.dropRing_frame, State.modStp_mem]
  · simp only [State.reasonTaken, State.groupN, State.dropRing_frame, State.modStp_red]

/-- The request of a member that has no token. -/
def State.abortMsg (s : State) (code : Nat) : CtrlMsg :=
  { step := s.stepNum, attempt := s.stp.attempt, epoch := s.epoch, reason := code, pos := s.red.pos, src := s.me }

/-- A member of a group of several votes, requests, or holds a request. -/
theorem State.castAbort_group {s u : State} {code : Nat} (hu : s.reasonTaken code = u) (hn : ¬u.groupN ≤ 1) : s.castAbort code =
    if u.red.pos = 0 then
      (if u.stp.firstSent then u.modStp (fun x => { x with heldReq := some (x.heldReq.getD (code, 0)) }) else u.sendFirst)
    else match u.stp.waitToken with
      | some t => (u.sendToken (u.vote t)).modStp (fun x => { x with waitToken := none, voted := true })
      | none => (u.sendCtrl (u.moduleAt 0) 1 (u.abortMsg code)).modStp (fun x => { x with voted := true }) := by
  subst hu
  exact if_neg hn

theorem State.Sent.sameLinks_modStp {u v : State} (h : u.Sent v) (f : StepSt → StepSt) : u.SameLinks (v.modStp f) := h.st

theorem State.sendFirst_links (u : State) : u.SameLinks u.sendFirst ∧ u.sendFirst.mem = u.mem :=
  ⟨State.Sent.sameLinks_modStp (u.sent_sendPartner _ _) _, by simp only [State.sendFirst_frame]⟩

/-- In a group of several members an abort reason is voted or requested: frames leave, no link falls and memory stays. -/
theorem State.castAbort_links {s : State} (code : Nat) (hn : 1 < s.groupN) :
    s.SameLinks (s.castAbort code) ∧ (s.castAbort code).mem = s.mem := by
  obtain ⟨hl, hm, hg⟩ := s.reasonTaken_spec code
  generalize hu : s.reasonTaken code = u at hl hm hg
  rw [State.castAbort_group hu (Nat.not_le.2 (hg ▸ hn))]
  split
  · split
    · exact ⟨hl.trans (State.Sent.sameLinks_modStp (.refl u) _), by rw [State.modStp_mem, hm]⟩
    · exact ⟨hl.trans u.sendFirst_links.1, u.sendFirst_links.2.trans hm⟩
  · split
    · exact ⟨hl.trans (State.Sent.sameLinks_modStp (u.sent_sendPartner _ _) _), by rw [State.modStp_mem, State.sendToken_mem, hm]⟩
    · exact ⟨hl.trans (State.Sent.sameLinks_modStp (u.sent_sendCtrl _ _ _) _), by rw [State.modStp_mem, State.sendCtrl_mem, hm]⟩

/-- What is noted of an abort reason before it votes. -/
def State.abortNoted (s : State) (code detail seq sender : Nat) : State :=
  let full := code * 256 + detail
  let s := (s.setReg R.RED_LAST_ABORT (packFields [(24, sender), (0, full)])).setRegN R.RED_LAST_SEQ seq
  let s := s.when (decide (code = 4)) (fun s => s.incReg R.RED_CHECK_CNT 1)
  let cls := if code = 4 then 3 else 4
  match abortBit code with
    | some b => s.eventLog R.RED_EVENTS b 0x12 cls code (full + seq * 2 ^ 32)
    | none => s.log 0x12 cls 0xFF code (full + seq * 2 ^ 32)

theorem State.findAbort_eq (s : State) (code detail seq sender : Nat) : s.findAbort code detail seq sender =
    if (s.abortNoted code detail seq sender).stp.abort.isSome || (s.abortNoted code detail seq sender).stp.fixed.isSome then
      s.abortNoted code detail seq sender
    else if (s.abortNoted code detail seq sender).stp.isOpen then (s.abortNoted code detail seq sender).castAbort (code * 256 + detail)
    else if (s.abortNoted code detail seq sender).stp.nextAtt.isSome && decide (1 < (s.abortNoted code detail seq sender).groupN) then
      (s.abortNoted code detail seq sender).openFor.castAbort (code * 256 + detail)
    else s.abortNoted code detail seq sender := rfl

theorem State.abortNoted_frame (s : State) (code detail seq sender : Nat) : (s.abortNoted code detail seq sender).ezl = s.ezl ∧
    (s.abortNoted code detail seq sender).mem = s.mem ∧ (s.abortNoted code detail seq sender).red = s.red := by
  unfold State.abortNoted State.when
  dsimp only
  split <;> split <;> simp [State.incReg_frame, State.setRegN_frame]

theorem State.findAbort_links {s : State} (code detail seq sender : Nat) (hn : 1 < s.red.n) :
    s.SameLinks (s.findAbort code detail seq sender) ∧ (s.findAbort code detail seq sender).mem = s.mem := by
  rw [State.findAbort_eq]
  obtain ⟨he, hm, hr⟩ := s.abortNoted_frame code detail seq sender
  generalize s.abortNoted code detail seq sender = u at he hm hr
  have hg : 1 < u.groupN := by rw [State.groupN, hr]; omega
  have hu : s.SameLinks u := State.sameLinks_of_ezl he
  split
  · exact ⟨hu, hm⟩
  · split
    · exact ⟨hu.trans (State.castAbort_links _ hg).1, (State.castAbort_links _ hg).2.trans hm⟩
    · split
      · have ho : 1 < u.openFor.groupN := by rw [State.groupN, State.openFor_red]; exact hg
        have hl : u.SameLinks u.openFor := State.sameLinks_of_ezl (by simp only [State.openFor_frame])
        exact ⟨(hu.trans hl).trans (State.castAbort_links _ ho).1, by rw [(State.castAbort_links _ ho).2, State.openFor_mem, hm]⟩
      · exact ⟨hu, hm⟩

/-- What a removal does before a group aborts: the link is removed, its frames go elsewhere, the removal is reported. -/
def State.removed (s : State) (l : Nat) : State :=
  let u := s.setLnk l { s.lnk l with st := .removed, replay := [], queue := [], cur := [], parts := [], nakOwed := none, nakOut := none }
  let v := (s.lnk l).toResend.foldl (State.reroute (s.partnerOf l)) u
  (if s.partnerOf l ≠ v.me then v.sendCtrl (s.partnerOf l) 5 { pos := l } else v).eventLog R.EZL_EVENTS 1 0x15 6 0 l

/-- The group of several members uses the link. -/
def State.usesLink (s : State) (l : Nat) : Bool := s.red.formed && (List.range 8).any (fun c =>
  s.regB R.RED_CTRL (8 + c) && ((s.chan c).succLink == l || (s.chan c).predLink == l))

theorem removeLink_eq {l : Nat} {s : State} (h : ¬((s.lnk l).st = .removed ∨ (s.lnk l).st = .unused)) : removeLink l s =
    if (s.removed l).usesLink l && decide (1 < (s.removed l).red.n) then (s.removed l).findAbort 6 l 0xFFFFFFFF 0xFF else s.removed l := if_neg h

theorem State.mem_reroutes (m : Nat) (fs : List Frame) (s : State) : (fs.foldl (State.reroute m) s).mem = s.mem := by
  induction fs generalizing s with
  | nil => rfl
  | cons f fs ih => rw [List.foldl_cons, ih]; simp only [State.reroute_frame]

theorem State.removed_spec (s : State) (l : Nat) : ((s.removed l).lnk l).st = .removed ∧ (s.removed l).mem = s.mem := by
  unfold State.removed
  dsimp only
  generalize hu : s.setLnk l _ = u
  have hst : (u.lnk l).st = .removed := by rw [← hu, State.lnk_setLnk]
  have hum : u.mem = s.mem := by rw [← hu]; rfl
  generalize hv : (s.lnk l).toResend.foldl (State.reroute (s.partnerOf l)) u = v
  have hsent : u.Sent v := by rw [← hv]; exact .foldl (State.sent_reroute _) _
  have hvm : v.mem = u.mem := by rw [← hv, State.mem_reroutes]
  have hw : ∀ w : State, v.Sent w → w.mem = v.mem →
      ((w.eventLog R.EZL_EVENTS 1 0x15 6 0 l).lnk l).st = .removed ∧ (w.eventLog R.EZL_EVENTS 1 0x15 6 0 l).mem = s.mem := fun w h1 h2 =>
    ⟨by rw [State.lnk, State.eventLog_ezl, ← State.lnk, h1.st, hsent.st, hst], by simp [h2, hvm, hum]⟩
  split
  · exact hw _ (v.sent_sendCtrl _ _ _) (State.sendCtrl_mem ..)
  · exact hw v (.refl v) rfl

/-- A link in use that is removed is REMOVED, and memory stays. -/
theorem removeLink_spec {l : Nat} {s : State} (h : (s.lnk l).st ≠ .unused) :
    ((removeLink l s).lnk l).st = .removed ∧ (removeLink l s).mem = s.mem := by
  by_cases hr : (s.lnk l).st = .removed
  · have : removeLink l s = s := if_pos (.inl hr)
    rw [this]
    exact ⟨hr, rfl⟩
  · rw [removeLink_eq (by tauto)]
    obtain ⟨hst, hm⟩ := s.removed_spec l
    split
    · next hu =>
      simp only [Bool.and_eq_true, decide_eq_true_eq] at hu
      obtain ⟨hl, hmem⟩ := State.findAbort_links 6 l 0xFFFFFFFF 0xFF hu.2
      exact ⟨(hl l).trans hst, hmem.trans hm⟩
    · exact ⟨hst, hm⟩

end Sys2Proof.Machine

namespace Sys2Proof.Proofs
open Sys2Proof Sys2Proof.Machine

/-- Settles O49: each command takes the branch that the state of its link names; frames that leave a link go by links that are UP. -/
theorem linksTrainAndFall : Obligations.LinksTrainAndFall := by
  unfold Obligations.LinksTrainAndFall
  refine ⟨?retrain, ?notUp, ?refused, ?threshold, ?limit, ?noLimit, ?back, ?fails, ?down, ?trained, ?miswired, ?failed, ?remove,
    fun s l h => if_pos h, ?noLink, ?fault, fun _ l _ => congrArg Host.Outcome.next (if_pos l.isLt), ?linkDown, ?noLinkDown⟩
  case retrain =>
    intro s l rq h
    refine ⟨_, congrArg Host.Outcome.next (if_pos h), congrArg Host.Outcome.next (if_pos ⟨l.isLt, h⟩), ?_⟩
    have hs := s.sent_enterRetrain l
    have hl : (enterRetrain l s).lnk l = (s.retrained l).lnk l := hs.idle l (by rw [s.retrained_lnk]; exact fun h => nomatch h)
    rw [hl, s.retrained_lnk, hs.reg _ (noFlitCounter_retrain l), s.retrained_reg]
    exact ⟨rfl, rfl, rfl, rfl, rfl, by simp only [enterRetrain_frame], fun hb => by rw [enterRetrain_bound hb]; rfl⟩
  case notUp =>
    exact fun s l h => ⟨congrArg Host.Outcome.next (if_neg h), congrArg Host.Outcome.next (if_neg fun g => h g.1)⟩
  case refused =>
    exact fun s rq l h => congrArg Host.Outcome.next (if_neg fun g => h.elim (Nat.not_le.2 g.1) fun h => h g.2)
  case threshold => exact fun s l h hn => congrArg Host.Outcome.next (if_pos ⟨h, hn⟩)
  case limit =>
    intro s l h hl
    refine congrArg Host.Outcome.next (if_pos ⟨h, ?_⟩)
    simpa [or_assoc] using hl
  case noLimit => exact fun s l h1 h2 => congrArg Host.Outcome.next (if_neg (by tauto))
  case back => exact fun s l ack h => ⟨_, rfl, congrArg Host.Outcome.next (if_pos h)⟩
  case fails =>
    intro s l ack h
    refine congrArg Host.Outcome.next ((if_pos h).trans ?_)
    rw [if_neg (by decide)]
    exact if_congr (by omega) rfl rfl
  case down =>
    intro s l ok ack r h
    exact ⟨congrArg Host.Outcome.next (if_neg (by rw [h]; decide)), congrArg Host.Outcome.next (if_neg (by rw [h]; simp))⟩
  case trained => exact fun s l m pl h hs hp hl => congrArg Host.Outcome.next ((if_pos ⟨h, hs⟩).trans (if_pos ⟨rfl, hp, hl.symm⟩))
  case miswired =>
    intro s l pid m pl h hs hw
    exact congrArg Host.Outcome.next ((if_pos ⟨h, hs⟩).trans (if_neg (by tauto)))
  case failed => exact fun s l h hs => congrArg Host.Outcome.next (if_pos ⟨h, hs⟩)
  case remove =>
    intro s l rq h
    exact ⟨_, congrArg Host.Outcome.next (if_pos l.isLt), rfl, (removeLink_spec h).1, by rw [(removeLink_spec h).2]⟩
  case noLink => exact fun s rq l h => ⟨congrArg Host.Outcome.next (if_neg (by omega)), congrArg Host.Outcome.next (if_neg (by omega))⟩
  case fault =>
    intro s l rq r h
    exact ⟨congrArg Host.Outcome.next (if_neg (by omega)), congrArg Host.Outcome.next ((if_pos l.isLt).trans (if_neg (by omega)))⟩
  case linkDown =>
    intro s u src l j hu hj
    subst hu
    exact congrArg Host.Outcome.next (by rw [Machine.linkDown, hj])
  case noLinkDown =>
    intro s u src l hu hj
    subst hu
    exact congrArg Host.Outcome.next (by rw [Machine.linkDown, hj])

end Sys2Proof.Proofs
end

section
/-! O59. The SMBus target. -/

namespace Sys2Proof.Machine
open Sys2Proof

/-- An answer sends its data with a check byte, notes the command code, and leaves the rest. -/
theorem State.smbAnswer_on {s : State} (h : s.smbOn = true) (code : Nat) (data : List Byte) :
    (∃ pec : Byte, (s.smbAnswer code data).out = s.out ++ [.smb (data ++ [pec])]) ∧ (s.smbAnswer code data).pwr.smbCmd = code ∧
      (s.smbAnswer code data).mem = s.mem ∧ (s.smbAnswer code data).regs = s.regs := by
  unfold State.smbAnswer
  rw [if_pos h]
  exact ⟨⟨_, rfl⟩, rfl, rfl, rfl⟩

theorem State.smbAnswer_off {s : State} (h : s.smbOn = false) (code : Nat) (data : List Byte) : s.smbAnswer code data = s :=
  if_neg (by rw [h]; decide)

/-- With room in its queue an entry is logged, and no register changes. -/
theorem State.log_room {s : State} (h : s.err.queue.length < 64) (blk cls bit cause detail : Nat) : s.log blk cls bit cause detail =
    s.modErr fun q => { q with queue := q.queue ++ [⟨s.time, blk, cls, bit, cause, detail⟩] } := if_pos h

end Sys2Proof.Machine

namespace Sys2Proof.Proofs
open Sys2Proof Sys2Proof.Machine

/-- Settles O59: every read is one answer; the other transactions are answered, refused or ignored by their conditions. -/
theorem smbusTelemetry : Obligations.SmbusTelemetry := by
  unfold Obligations.SmbusTelemetry
  have read : ∀ (s : State) (code : Nat) (data : List Byte), s.smbOn = true → ∃ t, (Host.Outcome.next (s.smbAnswer code data) : Answer) = .next t ∧
      (∃ pec : Byte, t.out = s.out ++ [.smb (data ++ [pec])]) ∧ t.pwr.smbCmd = code ∧ t.mem = s.mem ∧ t.regs = s.regs :=
    fun s code data h => ⟨_, rfl, State.smbAnswer_on h code data⟩
  refine ⟨fun s => read s _ _, fun s => read s _ _, fun s => read s _ _, fun s => read s _ _, fun s => read s _ _, fun s => read s _ _,
    fun s => read s _ _, fun s => read s _ _, fun s => read s _ _, fun s => read s _ _, fun s => read s _ _, fun s => read s _ _,
    fun s => read s _ _, ?alert, ?noAlert, ?invalid, ?clkLow, ?off⟩
  case alert =>
    intro s hs ha
    refine ⟨_, congrArg Host.Outcome.next (if_pos (by rw [hs, ha]; rfl)), ⟨_, rfl⟩, Bool.and_false _, rfl, rfl⟩
  case noAlert =>
    intro s h
    exact congrArg Host.Outcome.next (if_neg (by rcases h with h | h <;> simp [h]))
  case invalid =>
    intro s code pec hs hq
    refine ⟨_, congrArg Host.Outcome.next ((if_pos hs).trans (congrArg (State.emit · .smbNack) (State.log_room (by exact hq) ..))), rfl, ?_, ?_, rfl, rfl⟩
    · cases pec <;> rfl
    · cases pec <;> rfl
  case clkLow =>
    intro s hs hq
    exact ⟨_, congrArg Host.Outcome.next ((if_pos hs).trans (State.log_room (by exact hq) ..)), rfl, rfl, rfl, rfl⟩
  case off =>
    intro s code pec h
    have hoff : ∀ {t : State}, (if s.smbOn = true then t else s) = s := if_neg (by rw [h]; decide)
    have answer : ∀ code data, (Host.Outcome.next (s.smbAnswer code data) : Answer) = .next s := fun code data =>
      congrArg Host.Outcome.next (State.smbAnswer_off h code data)
    exact ⟨congrArg Host.Outcome.next hoff, congrArg Host.Outcome.next hoff, answer _ _, answer _ _, answer _ _, answer _ _, answer _ _,
      answer _ _, answer _ _, answer _ _, answer _ _, answer _ _, answer _ _, answer _ _, answer _ _⟩

end Sys2Proof.Proofs
end

section
/-! O11. Unassigned addresses, accesses that break R4, and the SQ window. -/

namespace Sys2Proof.Machine
open Sys2Proof

theorem sliceB_all (bs : List Byte) {n : Nat} (h : bs.length = n) : sliceB bs 0 n = bs := by
  simp [sliceB, ← h]

/-! ### Host accesses to HBM (R300) -/

/-- A host read that meets no protected range and no unit in error gives the bytes. -/
theorem State.hostRead_plain {s : State} {a n : Nat} (hp : s.protected_ false a n = false) (hb : s.mem.badIn a n = [])
    (hs : s.mem.softIn a n = []) : s.hostRead a n = s.emit (.hostData (s.hbm a n) false) := by
  have hbad : s.hostBad a n = [] := by rw [State.hostBad, hb]; rfl
  have hsoft : s.hostSoft a n = [] := by rw [State.hostSoft, hs]; rfl
  unfold State.hostRead State.noteHostRead State.hostBytes
  rw [hbad, hsoft, hp]
  rfl

/-- No byte of the push area is held while no image command runs. -/
theorem State.pushHeld_none {s : State} (h : s.img.cmd = none) (a : Nat) : s.pushHeld a = false := by rw [State.pushHeld, h]; rfl

/-- A host write that meets no protected range, while no image command runs, stores its bytes. -/
theorem State.hostPut_plain {s : State} {a : Nat} {bs : List Byte} (hp : s.protected_ true a bs.length = false)
    (hg : ∀ x, s.protGiB true x = false) (hc : s.img.cmd = none) : s.hostPut a bs = s.hostHbmWrite a bs := by
  unfold State.hostPut State.when
  rw [hp]
  refine if_pos (List.all_eq_true.2 fun x _ => ?_)
  simp [hg, State.pushHeld_none hc]

/-! ### Accesses that keep R4 (R298) -/

theorem accessBad_word (k : BadAccess) {off : Nat} (h : off % 4 = 0) : accessBad k off 4 = false := by
  simp [accessBad, h]

/-- The MSI-X table or its pending bits. -/
def inMsix (off : Nat) : Prop := 0x11000 ≤ off ∧ off < 0x11400 ∨ 0x11800 ≤ off ∧ off < 0x11808

theorem accessBad_msix {off : Nat} (h : off % 8 = 0) (hm : inMsix off) : accessBad .bar0 off 8 = false := by
  unfold inMsix at hm
  simp only [accessBad, h]
  simp
  omega

section
variable {s : State} {off : Nat} (hr : s.ready = true) (ha : off % 4 = 0) (he : off + 4 ≤ 4194304)
include hr ha he

theorem sqWindow_read : sqWindowAccess off 4 none s = s.hostRead (s.sqWin + off) 4 := by
  unfold sqWindowAccess
  rw [if_neg (by rw [accessBad_word _ ha]; simp; omega), if_neg (by rw [hr]; decide)]

theorem sqWindow_write {bs : List Byte} (hl : bs.length = 4) : sqWindowAccess off 4 (some bs) s = s.hostPut (s.sqWin + off) bs := by
  unfold sqWindowAccess
  rw [if_neg (by rw [accessBad_word _ ha]; simp; omega), if_neg (by rw [hr]; decide)]
  dsimp only
  rw [sliceB_all bs hl]

end

/-- The block code that a refused write names: that of the span that holds the address. -/
def spanCode (off : Nat) : Nat := (locate off).elim 7 fun x => x.1.code

theorem State.refuseWrite_eq (s : State) (rq : Requester) (off : Nat) (v : Word) (cause : Nat) :
    s.refuseWrite rq off v cause = s.log (spanCode off) 1 0xFF cause (off + v.toNat * 2 ^ 32 + rq.code * 2 ^ 64) := by
  unfold State.refuseWrite State.refuseBit spanCode
  cases locate off <;> rfl

/-- A refused write to an unassigned address queues one entry. -/
theorem unassignedAccess_write {s : State} {rq : Requester} {off : Nat} (v : Word) (hu : s.unassigned rq off = true)
    (hq : s.err.queue.length < 64) : unassignedAccess rq off (some v) s = { s with err := { s.err with queue := s.err.queue ++
      [⟨s.time, spanCode off, 1, 0xFF, 1, off + v.toNat * 2 ^ 32 + rq.code * 2 ^ 64⟩] } } := by
  rw [unassignedAccess, if_pos hu]
  exact (State.refuseWrite_eq ..).trans (State.log_room hq ..)

end Sys2Proof.Machine

namespace Sys2Proof.Proofs
open Sys2Proof Sys2Proof.Machine

/-- Settles O11: the branches of the four accesses; an aligned access is never refused. -/
theorem unassignedAndBadAccesses : Obligations.UnassignedAndBadAccesses := by
  unfold Obligations.UnassignedAndBadAccesses
  refine ⟨?noPair, ?read, ?writeIn, ?writeOut, ?bad, ?word, ?msixWrite, ?msixRead, ?doorbell, ?sqPlain, ?sqRead, ?sqWrite,
    fun s a bs hp hg hc => State.hostPut_plain hp hg hc⟩
  case noPair => exact fun s rq off h => congrArg Host.Outcome.next (if_neg (by rw [h]; decide))
  case read => exact fun s rq off h => congrArg Host.Outcome.next (if_pos h)
  case writeIn =>
    intro s rq off v b o hu hl hq
    refine congrArg Host.Outcome.next ((unassignedAccess_write v hu hq).trans ?_)
    rw [spanCode, hl]; rfl
  case writeOut =>
    intro s rq off v hu hl hq
    refine congrArg Host.Outcome.next ((unassignedAccess_write v hu hq).trans ?_)
    rw [spanCode, hl]; rfl
  case bad =>
    intro s k off len w h1 h2
    refine congrArg Host.Outcome.next (if_pos ?_)
    rw [accessBad, Bool.and_eq_true, Bool.not_eq_true', Bool.not_eq_true']
    constructor
    · simpa using h1
    · simpa [and_assoc] using h2
  case word =>
    intro s k off w ha hk
    refine congrArg Host.Outcome.next ((if_neg (by rw [accessBad_word k ha]; decide)).trans ?_)
    cases k with
    | bar0 => rfl
    | doorbell => exact if_pos (hk.resolve_left (fun h => h rfl))
    | sqWindow => rfl
  case msixWrite =>
    intro s off bs ha hm hl
    refine congrArg Host.Outcome.next ((if_neg (by rw [accessBad_msix ha hm]; decide)).trans ?_)
    dsimp only
    rw [if_pos rfl, sliceB_all bs hl, State.writeWords, hl]
    rfl
  case msixRead =>
    intro s off ha hm
    exact congrArg Host.Outcome.next (if_neg (by rw [accessBad_msix ha hm]; decide))
  case doorbell =>
    intro s off bs ha ho hl
    have hb : ∀ w, bar0BadAccess .doorbell off 4 w s = _ := fun w => (if_neg (by rw [accessBad_word _ ha]; decide)).trans (if_neg (Nat.not_le.2 ho))
    refine ⟨congrArg Host.Outcome.next (hb none), congrArg Host.Outcome.next ((hb (some bs)).trans ?_)⟩
    dsimp only
    rw [sliceB_all bs hl, State.doorbellPage, hl]
  case sqPlain =>
    intro s off hr ha he hp hb hs
    exact congrArg Host.Outcome.next ((sqWindow_read hr ha he).trans (State.hostRead_plain hp hb hs))
  case sqRead => exact fun s off hr ha he => congrArg Host.Outcome.next (sqWindow_read hr ha he)
  case sqWrite => exact fun s off bs hr ha he hl => congrArg Host.Outcome.next (sqWindow_write hr ha he hl)

end Sys2Proof.Proofs
end

section
/-! O55. A counterexample for the end of a KERSEY task. -/

namespace Sys2Proof.Machine
open Sys2Proof

/-- KDONE ends the task of its core, with the error that the core reports or that the task carries. -/
theorem kdone_prog {s : State} {rq : Requester} {d c slot : Nat} {err : Bool} {t : TaskEnt} (hc : ((s.irqD d).coreOf c).task = some slot)
    (ht : s.task (d * 4096 + slot) = some t) :
    ((kdone rq d c err s).task (d * 4096 + slot)).map (·.prog) = some (.done (err || t.err)) := by
  unfold kdone State.endTask
  simp only [hc]
  rw [show (s.setIrq d ((s.irqD d).setCore c { (s.irqD d).coreOf c with task := none })).task (d * 4096 + slot) = some t from ht]
  simp only [State.task_setTask, Option.map_some]

/-- Core 0 of Damask 0 runs the task of slot 3, one read of which has failed. -/
def kerseyWithError : State :=
  { State.reset with
    irq := [(0, { core := [(0, { task := some 3 })] })]
    tsk := { State.reset.tsk with win := [(3, some { err := true })] } }

end Sys2Proof.Machine

namespace Sys2Proof.Proofs
open Sys2Proof Sys2Proof.Machine

/-- Refutes O55: a KERSEY task that carries an error mark ends with error status although its core reports none (`kerseyWithError`). -/
theorem not_interruptControllers : ¬ Obligations.InterruptControllers := by
  unfold Obligations.InterruptControllers
  rintro ⟨-, -, -, -, -, -, -, -, -, -, -, -, -, -, -, -, hkdone, -⟩
  obtain ⟨u, hexec, hended, -⟩ := hkdone kerseyWithError .host 0 0 false 3 { err := true } (by decide) (by decide)
  have herr := kdone_prog (rq := .host) (d := 0) (c := 0) (slot := 3) (err := false) (s := kerseyWithError) rfl rfl
  have hu : kdone .host 0 0 false kerseyWithError = u := Host.Outcome.next.inj hexec
  rw [hu] at herr
  exact absurd (herr.symm.trans hended) (by decide)

end Sys2Proof.Proofs
end

section
/-! O52. Doorbells, entries that start, completions, and the configuration of the queues. -/

namespace Sys2Proof.Machine
open Sys2Proof

/-! ### Completions (R308) -/

/-- Where the CQ's tail goes next. -/
theorem QueueSt.tail_next {x : QueueSt} (h : x.cqTail < x.depth) :
    (if decide (x.cqTail + 1 = x.depth) = true then 0 else x.cqTail + 1) = (x.cqTail + 1) % x.depth := by
  by_cases he : x.cqTail + 1 = x.depth
  · simp [he]
  · rw [if_neg (by simpa using he), Nat.mod_eq_of_lt (by omega)]

/-- A queue after its oldest completion is posted. -/
def QueueSt.posted (x : QueueSt) (rest : List QEnt) : QueueSt :=
  { x with ready := rest, cqTail := if decide (x.cqTail + 1 = x.depth) then 0 else x.cqTail + 1, phase := x.phase != decide (x.cqTail + 1 = x.depth) }

theorem State.postOne_eq {s : State} {q : Nat} {e : QEnt} {rest : List QEnt} (hr : (s.queue q).ready = e :: rest)
    (hf : (s.queue q).full = false) (hv : s.viaHead = false) : s.postOne q =
      ((s.emit (.hostWrite ((s.queue q).cq / 4096 * 4096 + 64 * (s.queue q).cqTail) (s.cqBytes q (s.queue q).phase e))).setQueue q
        ((s.queue q).posted rest)).raiseVector (s.queue q).vector := by
  unfold State.postOne State.hostWrite
  simp only [hr, hf, hv]
  rfl

theorem State.queue_raiseVector (s : State) (v q : Nat) : (s.raiseVector v).queue q = s.queue q := rfl

/-- Posting changes the queue, sends one write and raises a vector. -/
theorem State.postOne_spec {s : State} {q : Nat} {e : QEnt} {rest : List QEnt} (hr : (s.queue q).ready = e :: rest)
    (hf : (s.queue q).full = false) (hv : s.viaHead = false) : (s.postOne q).queue q = (s.queue q).posted rest ∧
      (s.postOne q).out = s.out ++ [.hostWrite ((s.queue q).cq / 4096 * 4096 + 64 * (s.queue q).cqTail) (s.cqBytes q (s.queue q).phase e)] ∧
      (s.postOne q).mem = s.mem ∧ (s.postOne q).regs = s.regs := by
  rw [State.postOne_eq hr hf hv]
  exact ⟨by rw [State.queue_raiseVector, State.queue_setQueue], rfl, rfl, rfl⟩

/-- An entry that has completed, as it waits for room in the CQ. -/
def QEnt.finished (e : QEnt) (status time : Nat) : QEnt := { e with fin := some (status, 0, 0, 0), doneAt := time }

/-- A completion without a signal is posted at once where none waits and the CQ has room. -/
theorem State.completeEntry_posts {s : State} {q i st : Nat} {e : QEnt} (he : (s.queue q).fetched[i]? = some e) (hr : (s.queue q).ready = [])
    (hsig : e.signals = false) (hst : st ≠ 4) : s.completeEntry q i st 0 0 0 =
      (s.setQueue q { s.queue q with fetched := (s.queue q).fetched.eraseIdx i, ready := [e.finished st s.time] }).postOne q := by
  unfold State.completeEntry State.entrySignal State.postAll State.when
  simp [he, hr, hsig, hst, QEnt.finished]

theorem State.completeEntry_spec {s : State} {q i st : Nat} {e : QEnt} (he : (s.queue q).fetched[i]? = some e) (hr : (s.queue q).ready = [])
    (hf : (s.queue q).full = false) (hsig : e.signals = false) (hv : s.viaHead = false) (hst : st ≠ 4) :
    (s.completeEntry q i st 0 0 0).queue q = { s.queue q with fetched := (s.queue q).fetched.eraseIdx i, ready := [e.finished st s.time] }.posted [] ∧
      (s.completeEntry q i st 0 0 0).out.length = s.out.length + 1 ∧ (s.completeEntry q i st 0 0 0).mem = s.mem ∧
      (s.completeEntry q i st 0 0 0).regs = s.regs := by
  rw [State.completeEntry_posts he hr hsig hst]
  generalize hx : ({ s.queue q with fetched := (s.queue q).fetched.eraseIdx i, ready := [e.finished st s.time] } : QueueSt) = x
  have hready : ((s.setQueue q x).queue q).ready = [e.finished st s.time] := by rw [State.queue_setQueue, ← hx]
  have hfull : ((s.setQueue q x).queue q).full = false := by rw [State.queue_setQueue, ← hx]; exact hf
  obtain ⟨hq, ho, hm, hg⟩ := State.postOne_spec hready hfull (by exact hv)
  rw [hq, ho, hm, hg, State.queue_setQueue, List.length_append]
  exact ⟨rfl, rfl, rfl, rfl⟩

/-! ### Doorbells and fetches -/

theorem State.postAll_none {s : State} {q : Nat} (h : (s.queue q).ready = []) : s.postAll q = s := by rw [State.postAll, h]; rfl
theorem State.settle_none {s : State} {q : Nat} (h : (s.queue q).fetched = []) : s.settle q = s := by rw [State.settle, h]; rfl

/-- With room the launch is queued. -/
theorem State.addLaunch_free {s : State} (h : s.launchFree = true) (l : Launch) :
    s.addLaunch l = s.modTsk fun t => { t with launchQ := t.launchQ ++ [l] } := if_pos h

end Sys2Proof.Machine

namespace Sys2Proof.Proofs
open Sys2Proof Sys2Proof.Machine

/-- Settles O52: the branches of the queue commands; a completion with room is one host write. -/
theorem hostQueues : Obligations.HostQueues := by
  unfold Obligations.HostQueues
  refine ⟨?sqTail, ?cqHead, ?bad, ?notReady, ?post, ?complete, ?nop, ?signal, ?launch, ?idle, ?noFetch, ?fetch, ?fetchError, ?cfgEnabled,
    ?cfgEnable, ?cfgUnfit, ?cfgOther, ?stall, ?errors, ?disabled⟩
  case sqTail =>
    intro s q v hr he hd
    exact congrArg Host.Outcome.next ((if_neg (by rw [hr]; decide)).trans (if_pos (by simp [he, hd])))
  case cqHead =>
    intro s q v hr he hd hready hf
    refine congrArg Host.Outcome.next ((if_neg (by rw [hr]; decide)).trans ((if_pos (by simp [he, hd])).trans ?_))
    rw [State.postAll_none (by rw [State.queue_setQueue]; exact hready), State.settle_none (by rw [State.queue_setQueue]; exact hf)]
  case bad =>
    intro s q v hr h
    have hn : ¬((s.queue q).en && decide (v < (s.queue q).depth)) = true := by
      rcases h with h | h <;> simp [h]
    exact ⟨congrArg Host.Outcome.next ((if_neg (by rw [hr]; decide)).trans (if_neg hn)),
      congrArg Host.Outcome.next ((if_neg (by rw [hr]; decide)).trans (if_neg hn))⟩
  case notReady =>
    exact fun s q v h => ⟨congrArg Host.Outcome.next (if_pos (by rw [h]; rfl)), congrArg Host.Outcome.next (if_pos (by rw [h]; rfl))⟩
  case post =>
    intro s q e rest hr hf hd hv
    obtain ⟨hq, ho, hm, hg⟩ := State.postOne_spec hr hf hv
    refine ⟨_, rfl, by rw [hq]; rfl, by rw [hq]; exact QueueSt.tail_next hd, ?_, ho, hm, hg⟩
    rw [hq]
    by_cases hl : (s.queue q).cqTail + 1 = (s.queue q).depth <;> simp [QueueSt.posted, hl]
  case complete =>
    intro s q i e st he hr hf hd hsig hv hst
    obtain ⟨hq, ho, hm, hg⟩ := State.completeEntry_spec he hr hf hsig hv hst
    exact ⟨_, rfl, by rw [hq]; rfl, by rw [hq]; rfl, by rw [hq]; exact QueueSt.tail_next hd, ho, hm, hg⟩
  case nop => exact fun s q i e h => congrArg Host.Outcome.next (by rw [hostNop, h])
  case signal => exact fun s q i e h => congrArg Host.Outcome.next (by rw [Machine.signal, h])
  case launch =>
    intro s q i e h hl
    have ht : Machine.launch q s = (s.setEnt q i { e with started := true }).addLaunch { graph := e.opC % 256, src := .command q e.cid } := by
      simp only [Machine.launch, h, hl, if_true]
    have hfree : (s.setEnt q i { e with started := true }).launchFree = true := hl
    refine ⟨_, congrArg Host.Outcome.next ht, ?_⟩
    rw [State.addLaunch_free hfree]
    refine ⟨⟨_, rfl, rfl, rfl⟩, ?_, rfl, rfl, rfl⟩
    exact congrArg QueueSt.fetched (State.queue_setQueue ..)
  case idle =>
    intro s q h0 h22 h20
    refine ⟨congrArg Host.Outcome.next (by rw [hostNop, h0]), congrArg Host.Outcome.next (by rw [Machine.signal, h22]),
      congrArg Host.Outcome.next ?_⟩
    unfold Machine.launch
    rcases h20 with h | h
    · rw [h]
    · split
      · exact if_neg (by rw [h]; decide)
      · rfl
  case noFetch =>
    intro s bs err h
    refine congrArg Host.Outcome.next ?_
    unfold sqFetch
    rcases h with h | h
    · rw [if_neg (by rw [h]; decide)]
    · rw [h]; exact ite_self s
  case fetch =>
    intro s q x bs b err u hc hn hx he hb hu
    refine congrArg Host.Outcome.next ?_
    have hnot : ¬(err && !x.inWindow) = true := by rcases he with h | h <;> simp [h]
    subst hx hb hu
    unfold sqFetch
    rw [if_pos hc, hn]
    exact if_neg hnot
  case fetchError =>
    intro s q bs hc hn hw
    refine congrArg Host.Outcome.next ?_
    unfold sqFetch
    rw [if_pos hc, hn]
    exact if_pos (by rw [hw]; rfl)
  case cfgEnabled =>
    intro s rq v q x hq hx he
    subst hq hx
    exact congrArg Host.Outcome.next (if_pos he)
  case cfgEnable =>
    intro s rq v q x w hq hx he ht hb hw hf hempty
    subst hq hx hw
    refine congrArg Host.Outcome.next ((if_neg (by rw [he]; decide)).trans ((if_neg ht).trans ?_))
    dsimp only
    rw [if_neg (by rw [hb]; decide), if_neg (by rw [hf, hempty]; decide)]
  case cfgUnfit =>
    intro s rq v q x w hq hx he ht hb hw hf
    subst hq hx hw
    refine congrArg Host.Outcome.next ((if_neg (by rw [he]; decide)).trans ((if_neg ht).trans ?_))
    dsimp only
    rw [if_neg (by rw [hb]; decide)]
    refine if_pos ?_
    rcases hf with h | h
    · rw [h]; rfl
    · simp [h]
  case cfgOther =>
    intro s rq v he
    exact ⟨fun ht => congrArg Host.Outcome.next ((if_neg (by rw [he]; decide)).trans (if_pos ht)),
      fun ht hb => congrArg Host.Outcome.next ((if_neg (by rw [he]; decide)).trans ((if_neg ht).trans (if_pos (by rw [hb]; rfl))))⟩
  case stall => exact fun s q he hf hl => congrArg Host.Outcome.next (if_pos (by simp [he, hf, hl]))
  case errors => exact fun s q he hl => congrArg Host.Outcome.next (if_pos (by simpa [he] using hl))
  case disabled =>
    exact fun s q h => ⟨congrArg Host.Outcome.next (if_neg (by simp [h])), congrArg Host.Outcome.next (if_neg (by simp [h]))⟩

end Sys2Proof.Proofs
end

section
/-! O51. Relayed host traffic. -/

namespace Sys2Proof.Machine
open Sys2Proof

/-! ### Tags -/

/-- Among one more number than a list holds there is one that it does not hold. -/
theorem exists_unused (used : List Nat) : ∃ t ∈ List.range (used.length + 1), t ∉ used := by
  have hcard : used.toFinset.card < (Finset.range (used.length + 1)).card := by
    rw [Finset.card_range]
    exact Nat.lt_succ_of_le (List.toFinset_card_le used)
  obtain ⟨t, ht, hu⟩ := Finset.exists_mem_notMem_of_card_lt_card hcard
  exact ⟨t, List.mem_range.2 (Finset.mem_range.1 ht), fun h => hu (List.mem_toFinset.2 h)⟩

/-- No read uses the free tag. -/
theorem State.freeTag_unused (s : State) : s.freeTag ∉ (s.ezl.relayOut ++ s.ezl.relayWait ++ s.ezl.relayLate).map (·.tag) := by
  unfold State.freeTag
  generalize (s.ezl.relayOut ++ s.ezl.relayWait ++ s.ezl.relayLate).map (·.tag) = used
  obtain ⟨t, ht, hu⟩ := exists_unused used
  dsimp only
  cases hf : (List.range (used.length + 1)).find? (fun t => !used.contains t) with
  | none => exact absurd (List.find?_eq_none.1 hf t ht) (by simp [hu])
  | some x => simpa using List.find?_some hf

/-! ### At the head -/

section Window
variable {s : State} {m win off len : Nat} (hr : s.ready = true) (hb : s.windowBad m len = false)
include hr hb

/-- A good write is sent to its member. -/
theorem relayWindow_write (b : List Byte) : relayWindowAccess m win off (some b) len s =
    s.sendRelay m ⟨2, 0, 0, len, s.windowAddr m win off⟩ (sliceB b 0 len) := by
  unfold relayWindowAccess
  rw [if_neg (by rw [hr]; decide), if_neg (by rw [hb]; decide)]

/-- A good read is queued, and the oldest read that waits goes out. -/
theorem relayWindow_read : relayWindowAccess m win off none len s = (s.modEzl fun e => { e with relayWait := e.relayWait ++
    [{ tag := s.freeTag, mem := m, hdr := ⟨1, 0, s.freeTag, len, s.windowAddr m win off⟩ }] }).relayNext := by
  unfold relayWindowAccess
  rw [if_neg (by rw [hr]; decide), if_neg (by rw [hb]; decide)]

end Window

theorem State.sent_sendRelay (s : State) (m : Nat) (h : RelayHdr) (bs : List Byte) : s.Sent (s.sendRelay m h bs) := s.sent_sendRouted _

theorem State.sendRelay_mem (s : State) (m : Nat) (h : RelayHdr) (bs : List Byte) : (s.sendRelay m h bs).mem = s.mem := by
  simp only [State.sendRelay, State.sendRouted_frame]

theorem State.Sent.relayOut {s t : State} (h : s.Sent t) : t.ezl.relayOut = s.ezl.relayOut := (congrArg EzlSt.relayOut h.rest :)
theorem State.Sent.relayWait {s t : State} (h : s.Sent t) : t.ezl.relayWait = s.ezl.relayWait := (congrArg EzlSt.relayWait h.rest :)

/-- With room for it the one read that waits goes out. -/
theorem State.relayNext_one {s : State} {r : RelayRead} (hw : s.ezl.relayWait = [r]) (hn : s.ezl.relayOut.length < 256) :
    s.relayNext.ezl.relayOut = s.ezl.relayOut ++ [r] ∧ s.relayNext.ezl.relayWait = [] ∧ s.relayNext.mem = s.mem := by
  have hs : s.relayNext = (s.modEzl fun e => { e with relayWait := [], relayOut := e.relayOut ++ [r] }).sendRelay r.mem r.hdr [] := by
    rw [State.relayNext, hw]
    exact if_pos hn
  rw [hs]
  have hsent := State.sent_sendRelay (s.modEzl fun e => { e with relayWait := [], relayOut := e.relayOut ++ [r] }) r.mem r.hdr []
  exact ⟨hsent.relayOut, hsent.relayWait, State.sendRelay_mem ..⟩

/-- A completion ends the read that it names by its status. -/
theorem relayCompletion_ends {s u : State} {src : Nat} {h : RelayHdr} {b : List Byte} {r : RelayRead}
    (hu : s.takeRx 7 (fun f => f.src == src && f.startsWith (RelayHdr.bytes h)) = u)
    (hr : u.ezl.relayOut.find? (fun r => decide (r.tag = h.tag) && decide (r.mem = src)) = some r) : relayCompletion src h b s =
      if h.status = 0 then (u.relayOver r).emit (.hostData (sliceB b 0 r.hdr.len) false)
      else if h.status = 1 then (((u.relayOver r).relayError (h.tag + src * 2 ^ 16)).incReg R.HIF_UR_CNT 1).emit .hostUr
      else ((u.relayOver r).relayError (h.tag + src * 2 ^ 16)).emit (if h.status = 2 then .hostCa else .hostStatus h.status) := by
  subst hu
  unfold relayCompletion
  simp only [hr]
  split
  · next h0 => rw [if_pos h0]
  · next h1 => rw [if_neg (by omega), if_pos h1]
  · next h2 => rw [if_neg (by omega), if_neg (by omega), if_pos h2]
  · next h0 h1 h2 => rw [if_neg h0, if_neg h1, if_neg h2]

/-- A relayed read is answered with the bytes, or, where the access is bad, with status 1. -/
theorem relayRead_answers {s v : State} {src : Nat} {h : RelayHdr} {o : Option (List Byte)}
    (hv : (s.takeRx 7 (fun f => f.src == src && f.startsWith (RelayHdr.bytes h))).memberRead h.addr h.len = (o, v)) :
    (∀ b, o = some b → relayRead src h s = v.sendRelay src ⟨3, 0, h.tag, h.len, h.addr⟩ b) ∧
      (o = none → relayRead src h s = v.sendRelay src ⟨3, 1, h.tag, h.len, h.addr⟩ []) := by
  refine ⟨fun b ho => ?_, fun ho => ?_⟩
  all_goals
    subst ho
    unfold relayRead
    simp only [hv]

/-! ### Host writes to HBM -/

theorem State.logBadSr_mem (s : State) (a n : Nat) : (s.logBadSr a n).mem = s.mem := by simp only [State.logBadSr_frame]

theorem State.hostHbmWrite_mem (s : State) (a : Nat) (bs : List Byte) : (s.hostHbmWrite a bs).mem = s.mem.write a bs :=
  State.logBadSr_mem _ a bs.length

/-- Bytes that the host writes stand at their addresses, and no other byte changes. -/
theorem State.hostHbmWrite_bytes (s : State) {a : Nat} {bs : List Byte} (h : a + bs.length ≤ hbmSize) :
    (∀ i < bs.length, (s.hostHbmWrite a bs).mem.byte (a + i) = bs.getD i 0) ∧
      ∀ x, x < a ∨ a + bs.length ≤ x → (s.hostHbmWrite a bs).mem.byte x = s.mem.byte x := by
  rw [State.hostHbmWrite_mem]
  exact ⟨fun i hi => MemSt.byte_write_in hi (by omega), fun x hx => MemSt.byte_write_out hx⟩

section
variable {s u : State} {src a : Nat} {b : List Byte}
  (hu : s.takeRx 1 (fun f => f.src == src && f.startsWith (leBytes 8 a ++ leBytes 4 b.length)) = u)
include hu

/-- Bit 63 of its address tells where a DATA frame goes. -/
theorem dataFrame_here (h : a.testBit 63 = false) : dataFrame src a b s = u.hostPut a b := by
  subst hu
  unfold dataFrame
  rw [h]
  rfl

theorem dataFrame_host (h : a.testBit 63 = true) : dataFrame src a b s = u.memberWrite (a % 2 ^ 63) b := by
  subst hu
  unfold dataFrame
  rw [h]
  exact if_pos rfl

end

/-- A frame taken leaves the protected ranges. -/
theorem State.protGiB_takeRx (s : State) (typ : Nat) (p : Frame → Bool) (wr : Bool) (x : Nat) :
    (s.takeRx typ p).protGiB wr x = s.protGiB wr x := by
  unfold State.takeRx
  split <;> rfl

/-- No range is protected where no GiB is. -/
theorem State.protected_none {s : State} {wr : Bool} (h : ∀ x, s.protGiB wr x = false) (a n : Nat) : s.protected_ wr a n = false :=
  List.any_eq_false.2 fun i _ => by rw [h]; decide

/-! ### At the member -/

/-- One aligned word of BAR0 is read as the host reads it. -/
theorem State.memberRead_word {s : State} {a : Nat} (hl : a < 2 ^ 63) (ha : a % 4 = 0) :
    s.memberRead a 4 = (some (leBytes 4 (s.readBar0 .host a).1.toNat), (s.readBar0 .host a).2) := by
  unfold State.memberRead
  rw [if_pos (by exact hl), accessBad_word _ ha]
  rfl

/-- One aligned word of BAR0 is written as the host writes it. -/
theorem State.memberApply_word {s : State} {a : Nat} {b : List Byte} (hl : a < 2 ^ 63) (ha : a % 4 = 0) (hb : b.length = 4) :
    s.memberApply a b = s.writeBar0 .host a (wordN (leAt b 0 4)) := by
  unfold State.memberApply
  rw [if_pos (by exact hl), hb, accessBad_word _ ha, State.writeWords, hb]
  rfl

end Sys2Proof.Machine

namespace Sys2Proof.Proofs
open Sys2Proof Sys2Proof.Machine

/-- Settles O51: the branches at the head and at the member; a frame sent changes no list of reads, and a DATA frame is a host write. -/
theorem relayedTraffic : Obligations.RelayedTraffic := by
  unfold Obligations.RelayedTraffic
  refine ⟨?bad, fun s m win off len b hr hb => congrArg Host.Outcome.next (relayWindow_write hr hb b), ?read, ?tag, ?notReady, ?completion, ?unknown,
    ?timeout, ?noTimeout, ?hostWrite, ?data, ?dataHost, ?relayRead,
    fun s a hl ha => ⟨State.memberRead_word hl ha, fun b hb => State.memberApply_word hl ha hb⟩, ?relayWrite⟩
  case bad =>
    exact fun s m win off len w hr hb => congrArg Host.Outcome.next ((if_neg (by rw [hr]; decide)).trans (if_pos hb))
  case read =>
    intro s m win off len hr hb hw hn
    refine ⟨_, congrArg Host.Outcome.next (relayWindow_read hr hb), ?_⟩
    exact State.relayNext_one (by rw [State.modEzl_self, hw]; rfl) hn
  case tag => exact fun s r hr h => s.freeTag_unused (h ▸ List.mem_map_of_mem hr)
  case notReady => exact fun s m win off len w hr => congrArg Host.Outcome.next (if_pos (by rw [hr]; rfl))
  case completion =>
    intro s u src h b r hu hr
    exact congrArg Host.Outcome.next (relayCompletion_ends hu hr)
  case unknown =>
    intro s u src h b hu hr
    subst hu
    exact congrArg Host.Outcome.next (by rw [relayCompletion, hr])
  case timeout => exact fun s tag r h => congrArg Host.Outcome.next (by rw [relayTimeout, h])
  case noTimeout => exact fun s tag h => congrArg Host.Outcome.next (by rw [relayTimeout, h])
  case hostWrite =>
    intro s u src h b hu
    subst hu
    refine congrArg Host.Outcome.next ?_
    unfold relayHostWrite State.memberWrite
    generalize s.takeRx 7 _ = u
    cases u.isHead <;> rfl
  case data =>
    intro s u src a b hu hr hp hc _ _
    subst hu
    have hbit : a.testBit 63 = false := Nat.testBit_lt_two_pow (by unfold hbmSize at hr; omega)
    generalize hu : s.takeRx 1 (fun f => f.src == src && f.startsWith (leBytes 8 a ++ leBytes 4 b.length)) = u
    have hprot : ∀ x, u.protGiB true x = false := fun x => by rw [← hu, State.protGiB_takeRx, hp]
    have hcmd : u.img.cmd = none := by rw [← hu]; simpa only [State.takeRx_frame] using hc
    have hput := State.hostPut_plain (State.protected_none hprot a b.length) hprot hcmd
    obtain ⟨hin, hout⟩ := u.hostHbmWrite_bytes hr
    refine ⟨_, congrArg Host.Outcome.next (dataFrame_here hu hbit), rfl, ?_⟩
    rw [hput]
    exact ⟨hin, fun x hx => (hout x hx).trans (by rw [← hu, State.takeRx_mem]), by simp only [State.hostHbmWrite_frame, ← hu, State.takeRx_out]⟩
  case dataHost =>
    intro s u src a b hu ha
    have hbit : (a + 2 ^ 63).testBit 63 = true := by rw [Nat.testBit_eq_decide_div_mod_eq, decide_eq_true_eq]; omega
    have ht := dataFrame_host (b := b) hu hbit
    rw [Nat.add_mod_right, Nat.mod_eq_of_lt ha] at ht
    exact congrArg Host.Outcome.next ht
  case relayRead =>
    intro s u v src h o hu hv
    subst hu
    obtain ⟨hgood, hbad⟩ := relayRead_answers hv
    cases o with
    | some b => exact congrArg Host.Outcome.next (hgood b rfl)
    | none => exact congrArg Host.Outcome.next (hbad rfl)
  case relayWrite =>
    intro s u src h b hu
    subst hu
    rfl

end Sys2Proof.Proofs
end

section
/-! SUPPORT. Host accesses to HBM through the apertures: what they read, what they store, and what they leave. -/

namespace Sys2Proof.Machine
open Sys2Proof

/-! ### Reads (R300, R301) -/

section HostRead
variable {s : State} {a n : Nat}

theorem State.hostSoft_open (h : s.protected_ false a n = false) : s.hostSoft a n = s.mem.softIn a n := by
  rw [State.hostSoft, h]; simp

theorem State.hostBad_open (h : s.protected_ false a n = false) : s.hostBad a n = s.mem.badIn a n := by
  rw [State.hostBad, h]; simp

theorem State.hostBad_none (h : s.mem.badIn a n = []) : s.hostBad a n = [] := by rw [State.hostBad, h]; rfl

theorem State.noteHostRead_open (h : s.protected_ false a n = false) :
    s.noteHostRead a n = (s.ceNotes (s.mem.softIn a n)).ueNotes (s.mem.badIn a n) := by
  rw [State.noteHostRead, State.hostSoft_open h, State.hostBad_open h, h]; rfl

/-- Without uncorrectable units a host read gives its bytes at once. -/
theorem State.hostRead_good (h : s.hostBad a n = []) : s.hostRead a n = (s.noteHostRead a n).emit (.hostData (s.hostBytes a n) false) := by
  rw [State.hostRead, h]; rfl

theorem State.hostRead_open (hp : s.protected_ false a n = false) (hb : s.mem.badIn a n = []) :
    s.hostRead a n = (s.ceNotes (s.mem.softIn a n)).emit (.hostData (s.hbm a n) false) := by
  rw [State.hostRead_good (State.hostBad_none hb), State.noteHostRead_open hp, hb, State.hostBytes, hp]; rfl

theorem State.hostRead_bad (hp : s.protected_ false a n = false) (hb : s.mem.badIn a n ≠ []) : s.hostRead a n =
    (((s.ceNotes (s.mem.softIn a n)).ueNotes (s.mem.badIn a n)).event R.HIF_EVENTS 4).emitUnits (s.mem.badIn a n) a (s.hbm a n) := by
  unfold State.hostRead
  rw [State.noteHostRead_open hp, State.hostBad_open hp, State.hostBytes, hp, if_neg (by simpa using hb)]
  rfl

theorem State.hostRead_hidden (hp : s.protected_ false a n = true) (hb : s.mem.badIn a n = []) : s.hostRead a n =
    ((s.noteProt 0 a).ceNotes (s.hostSoft a n)).emit (.hostData ((List.range n).map fun i =>
      if s.protGiB false ((a + i) / 2 ^ 30) then 0 else s.mem.byte (a + i)) false) := by
  rw [State.hostRead_good (State.hostBad_none hb), State.noteHostRead, State.hostBad_none hb, State.hostBytes, hp]
  rfl

end HostRead

/-- A range that ends in the unit after the one that it begins in is answered in two parts. -/
theorem State.emitUnits_two {s : State} {us : List Nat} {a u n m : Nat} {x y : List Byte} (ha : a + n = 32 * (u + 1)) (hu : a / 32 = u)
    (hm : 0 < m) (hm' : m ≤ 32) (hx : x.length = n) (hy : y.length = m) :
    s.emitUnits us a (x ++ y) = (s.emit (.hostData x (us.contains u))).emit (.hostData y (us.contains (u + 1))) := by
  have hcount : (a + (x ++ y).length - 1) / 32 + 1 - a / 32 = 2 := by rw [List.length_append]; omega
  have hlo : max a (32 * (u + 0)) - a = 0 := by omega
  have hlo' : max a (32 * (u + 1)) - a = n := by omega
  have hfst : min (a + (x ++ y).length) (32 * (u + 0) + 32) - a - 0 = x.length := by rw [List.length_append]; omega
  have hsnd : min (a + (x ++ y).length) (32 * (u + 1) + 32) - a - n = y.length := by rw [List.length_append]; omega
  unfold State.emitUnits
  rw [hcount, hu]
  simp only [List.range_succ, List.range_zero, List.nil_append, List.foldl_append, List.foldl_cons, List.foldl_nil, hlo, hlo', hfst, hsnd]
  rw [← hx]
  simp

/-! ### Writes (R300) -/

/-- Every GiB that an access touches is among those looked at. -/
theorem gib_in_range {a n x : Nat} (h1 : a ≤ x) (h2 : x < a + n) :
    ∃ i ∈ List.range ((a + n + 2 ^ 30 - 1) / 2 ^ 30 - a / 2 ^ 30), a / 2 ^ 30 + i = x / 2 ^ 30 :=
  ⟨x / 2 ^ 30 - a / 2 ^ 30, List.mem_range.2 (by omega), by omega⟩

/-- In an access that meets no protected range no byte is protected. -/
theorem State.protGiB_of_open {s : State} {wr : Bool} {a n x : Nat} (h : s.protected_ wr a n = false) (h1 : a ≤ x) (h2 : x < a + n) :
    s.protGiB wr (x / 2 ^ 30) = false := by
  obtain ⟨i, hi, hx⟩ := gib_in_range h1 h2
  rw [← hx]
  exact Bool.eq_false_iff.2 (List.any_eq_false.1 h i hi)

/-- A host write that meets no protected range, while no image command runs, stores its bytes. -/
theorem State.hostPut_open {s : State} {a : Nat} {bs : List Byte} (hp : s.protected_ true a bs.length = false) (hc : s.img.cmd = none) :
    s.hostPut a bs = s.hostHbmWrite a bs := by
  unfold State.hostPut State.when
  rw [hp]
  refine if_pos (List.all_eq_true.2 fun x hx => ?_)
  obtain ⟨i, hi, rfl⟩ := List.mem_map.1 hx
  have hopen := State.protGiB_of_open hp (Nat.le_add_right a i) (Nat.add_lt_add_left (List.mem_range.1 hi) a)
  have hpush := State.pushHeld_none hc (a + i)
  simp only [hopen]
  simpa using hpush

section Pieces
variable (s : State) (a : Nat) (ps : List (Byte × Nat))

/-- Single bytes stored one after the other. -/
def State.storeBytes : State := ps.foldl (fun s p => s.hbmWrite (a + p.2) [p.1]) s

theorem State.storeBytes_frame : (s.storeBytes a ps).regs = s.regs ∧ (s.storeBytes a ps).out = s.out := by
  induction ps generalizing s with
  | nil => exact ⟨rfl, rfl⟩
  | cons p ps ih => exact ih (s.hbmWrite (a + p.2) [p.1])

theorem State.storeBytes_byte {x : Nat} (h : ∀ p ∈ ps, a + p.2 ≠ x) : (s.storeBytes a ps).mem.byte x = s.mem.byte x := by
  induction ps generalizing s with
  | nil => rfl
  | cons p ps ih =>
    refine (ih (s.hbmWrite (a + p.2) [p.1]) fun q hq => h q (List.mem_cons_of_mem _ hq)).trans ?_
    have hp := h p List.mem_cons_self
    exact MemSt.byte_write_out (bs := [p.1]) (by rw [List.length_singleton]; omega)

end Pieces

/-- Reports of the format table write only the log's registers. -/
theorem State.logBadSr_reg (s : State) (a n : Nat) {r : Nat} (h1 : r ≠ R.ERR_DROP_CNT) (h2 : r ≠ R.ERR_EVENTS) : (s.logBadSr a n).reg r = s.reg r := by
  suffices h : ∀ (ps : List (FmtEnt × Nat)) (s : State), (ps.foldl (fun s p => s.log 9 1 0xFF 0 p.1.tensor) s).reg r = s.reg r from h _ s
  intro ps
  induction ps with
  | nil => exact fun _ => rfl
  | cons p ps ih => exact fun s => (ih _).trans (State.reg_log _ _ h1 h2)

/-- The bytes of a host write that are stored one by one, and what is reported of the others. -/
theorem State.hostStore_eq (s : State) (ok : Nat → Bool) (a : Nat) (bs : List Byte) : s.hostStore ok a bs =
    if ((List.range bs.length).map (fun i => a + i)).all (fun x => ok x && !s.pushHeld x) then s.hostHbmWrite a bs
    else ((s.storeBytes a (bs.zipIdx.filter fun p => ok (a + p.2) && !s.pushHeld (a + p.2))).logBadSr a bs.length).when
      (((List.range bs.length).map (fun i => a + i)).any s.pushHeld) (fun t => t.log 8 1 0xFF 1 (a + bs.length * 2 ^ 64)) := rfl

/-- A host write stores no byte that is left out or held, sends nothing, and writes only the log's registers. -/
theorem State.hostStore_spec (s : State) (ok : Nat → Bool) (a : Nat) (bs : List Byte) :
    (∀ x, (ok x && !s.pushHeld x) = false → (s.hostStore ok a bs).mem.byte x = s.mem.byte x) ∧ (s.hostStore ok a bs).out = s.out ∧
      ∀ r, r ≠ R.ERR_DROP_CNT → r ≠ R.ERR_EVENTS → (s.hostStore ok a bs).reg r = s.reg r := by
  rw [State.hostStore_eq]
  split
  · next hall =>
    refine ⟨fun x hx => ?_, by simp only [State.hostHbmWrite_frame], fun r h1 h2 => State.logBadSr_reg _ _ _ h1 h2⟩
    rw [State.hostHbmWrite_mem]
    refine MemSt.byte_write_out ?_
    by_contra hin
    have hok := List.all_eq_true.1 hall x (List.mem_map.2 ⟨x - a, List.mem_range.2 (by omega), by omega⟩)
    rw [hx] at hok
    exact nomatch hok
  · have hskip : ∀ x, (ok x && !s.pushHeld x) = false → ∀ p ∈ bs.zipIdx.filter (fun p => ok (a + p.2) && !s.pushHeld (a + p.2)), a + p.2 ≠ x := by
      rintro x hx p hp rfl
      have hok := (List.mem_filter.1 hp).2
      rw [hx] at hok
      exact nomatch hok
    generalize bs.zipIdx.filter (fun p => ok (a + p.2) && !s.pushHeld (a + p.2)) = ps at hskip
    obtain ⟨hregs, hout⟩ := s.storeBytes_frame a ps
    have hreg : ∀ r, (s.storeBytes a ps).reg r = s.reg r := fun r => by rw [State.reg, hregs, State.reg]
    have hlog : ∀ r, r ≠ R.ERR_DROP_CNT → r ≠ R.ERR_EVENTS → ((s.storeBytes a ps).logBadSr a bs.length).reg r = s.reg r :=
      fun r h1 h2 => (State.logBadSr_reg _ _ _ h1 h2).trans (hreg r)
    unfold State.when
    split
    · exact ⟨fun x hx => by rw [State.log_mem, State.logBadSr_mem, s.storeBytes_byte a ps (hskip x hx)],
        by rw [State.log_out]; simp only [State.logBadSr_frame, hout], fun r h1 h2 => (State.reg_log _ _ h1 h2).trans (hlog r h1 h2)⟩
    · exact ⟨fun x hx => by rw [State.logBadSr_mem, s.storeBytes_byte a ps (hskip x hx)], by simp only [State.logBadSr_frame, hout], hlog⟩

end Sys2Proof.Machine
end

section
/-! O54. Apertures, MSI-X, the snapshot window, and the resets of the host interface. -/

namespace Sys2Proof.Machine
open Sys2Proof

/-! ### The format table (R64) -/

/-- Where no entry selects a rounding that it may not, nothing is logged. -/
theorem State.logBadSr_none {s : State} (h : s.fmtTable.all (fun x => !x.sr || s.upd.srAllowed x) = true) (a n : Nat) : s.logBadSr a n = s := by
  unfold State.logBadSr
  rw [List.filter_eq_nil_iff.2]
  · rfl
  · intro p hp
    have hx := List.all_eq_true.1 h p.1 (List.fst_mem_of_mem_zipIdx hp)
    revert hx
    cases p.1.sr <;> cases s.upd.srAllowed p.1 <;> simp

/-- The format table stands in memory. -/
theorem State.fmtTable_hostHbmWrite (s : State) (a : Nat) (bs : List Byte) : (s.hostHbmWrite a bs).fmtTable = (s.hbmWrite a bs).fmtTable := by
  unfold State.fmtTable State.hbm State.hostHbmWrite
  simp only [State.logBadSr_frame]

theorem State.hostHbmWrite_quiet {s : State} {a : Nat} {bs : List Byte}
    (h : (s.hostHbmWrite a bs).fmtTable.all (fun x => !x.sr || s.upd.srAllowed x) = true) :
    (s.hostHbmWrite a bs).regs = s.regs ∧ (s.hostHbmWrite a bs).err = s.err := by
  rw [State.fmtTable_hostHbmWrite] at h
  have hw : s.hostHbmWrite a bs = s.hbmWrite a bs := State.logBadSr_none (s := s.hbmWrite a bs) h a bs.length
  rw [hw]
  exact ⟨rfl, rfl⟩

/-- A protected access is noted. -/
theorem State.noteProt_spec (s : State) (q a : Nat) : (s.noteProt q a).regB R.HIF_EVENTS 5 = true ∧ (s.noteProt q a).mem = s.mem ∧
    (s.noteProt q a).out = s.out := by
  refine ⟨?_, by simp only [State.noteProt, State.hifFault, State.log_mem, State.setReg_mem]; rfl,
    by simp only [State.noteProt, State.hifFault, State.log_out, State.setReg_out]; rfl⟩
  unfold State.noteProt State.hifFault State.regB
  rw [State.reg_log _ _ (by decide) (by decide), State.reg_setReg, if_neg (by decide)]
  exact State.regB_event_self s _ (by decide)

theorem apertureRead_at {s : State} {off len a : Nat} (h : s.aperAddr off len = some a) : apertureRead off len s = s.hostRead a len := by
  rw [apertureRead, h]

theorem apertureWrite_at {s : State} {off a : Nat} {bs : List Byte} (h : s.aperAddr off bs.length = some a) :
    apertureWrite off bs s = s.hostPut a bs := by rw [apertureWrite, h]

/-! ### MSI-X (R311, R328) -/

theorem bitOf_setBit_clear (v : Word) : bitOf (setBit v 0 false) 0 = false := by
  have h := fld_setFld_self (hi := 0) (lo := 0) le_rfl (by decide) v 0
  simp only [fld, bitsOf] at h
  simp only [bitOf, setBit, Nat.testBit_eq_decide_div_mod_eq]
  simpa using h


/-- The message of a vector is issued at the module's own port. -/
theorem State.msixSend_here {s : State} {v : Nat} (hm : s.msixMasked v = false) (hv : s.viaHead = false) : s.msixSend v =
    (s.emit (.msix v ((s.msixWord v 0).toNat + (s.msixWord v 1).toNat * 2 ^ 32) (s.msixWord v 2).toNat)).irqMsgIssued v := by
  unfold State.msixSend
  rw [if_neg (by rw [hm]; decide)]
  dsimp only
  rw [if_neg (by rw [hv]; decide)]

/-- Sources wait for the message of a vector, on dies with EN 0 alone. -/
theorem State.msgStopped_iff (s : State) (v : Nat) : s.msgStopped v = true ↔
    ((s.irqD 0).awaiting v ≠ [] ∨ (s.irqD 1).awaiting v ≠ []) ∧ ((s.irqD 0).awaiting v ≠ [] → s.regB (R.IRQ_CTRL 0) 0 = false) ∧
      ((s.irqD 1).awaiting v ≠ [] → s.regB (R.IRQ_CTRL 1) 0 = false) := by
  unfold State.msgStopped
  cases h0 : (s.irqD 0).awaiting v <;> cases h1 : (s.irqD 1).awaiting v <;> simp [h0, h1]

/-! ### Resets (R296, R315) -/

/-- A filter by key leaves what it keeps and gives the rest the unlisted value. -/
theorem SMap.get_filter_key {α : Type} (d : Nat → α) (keep : Nat → Bool) (m : SMap α) (k : Nat) :
    SMap.get d (m.filter fun p => keep p.1) k = if keep k then SMap.get d m k else d k := by
  induction m with
  | nil => simp [SMap.get]
  | cons p m ih =>
    obtain ⟨j, v⟩ := p
    cases hj : keep j with
    | true =>
      rw [List.filter_cons_of_pos (by exact hj), SMap.get, SMap.get, ih]
      by_cases hk : j = k
      · simp [← hk, hj]
      · simp [hk]
    | false =>
      rw [List.filter_cons_of_neg (by simp [hj]), ih, SMap.get]
      by_cases hk : j = k
      · simp [← hk, hj]
      · simp [hk]

/-- What every value and the unlisted one satisfy, every read does. -/
theorem SMap.get_map_of {α : Type} {P : α → Prop} {d : Nat → α} {f : α → α} (hf : ∀ x, P (f x)) (hd : ∀ k, P (d k)) (m : SMap α) (k : Nat) :
    P (SMap.get d (m.map fun p => (p.1, f p.2)) k) := by
  induction m with
  | nil => exact hd k
  | cons p m ih =>
    rw [List.map_cons, SMap.get]
    split
    · exact hf _
    · exact ih

/-- The state whose host interface is reset but for the event of the reset. -/
def State.hifCleared (s : State) : State :=
  ({ s with regs := s.regs.filter (fun p => !hifReset p.1), pairLo := s.pairLo.filter (fun p => !hifReset (p.1 % 2 ^ 32)) } : State).dropHostDma.orphanLaunches.modHif
    (fun h => { h with q := [], prot := [], page := [], last := 63 })

theorem functionLevelReset_eq (s : State) : functionLevelReset s = s.hifCleared.event R.HIF_EVENTS 9 := rfl

theorem hifReset_events : hifReset R.HIF_EVENTS = true := by decide

theorem State.hifCleared_reg (s : State) (a : Nat) : s.hifCleared.reg a = if hifReset a then regReset a else s.reg a := by
  have h := SMap.get_filter_key regReset (fun a => !hifReset a) s.regs a
  refine Eq.trans h ?_
  cases hifReset a <;> rfl

/-- A queue that the fallen link has disabled. -/
def QueueSt.fallen (x : QueueSt) : QueueSt := { x with en := false, cfg := setBit x.cfg 31 false, fetched := [], ready := [] }

/-- The state in which the link is down and every queue is disabled. -/
def State.linkFallen (s : State) : State :=
  s.dropHostDma.orphanLaunches.modHif fun h => { h with linkUp := false, q := h.q.map fun p => (p.1, p.2.fallen) }

theorem pcieLinkDown_eq (s : State) : pcieLinkDown s = ((s.linkFallen.setReg R.HIF_STATUS 0).eventLog R.HIF_EVENTS 2 1 6 0 0).when
    (s.hif.q.any fun p => p.2.en) (fun s => s.event R.HIF_EVENTS 7) := rfl

theorem State.linkFallen_queue (s : State) (q : Nat) : (s.linkFallen.queue q).en = false ∧ (s.linkFallen.queue q).fetched = [] ∧
    (s.linkFallen.queue q).ready = [] :=
  SMap.get_map_of (P := fun x : QueueSt => x.en = false ∧ x.fetched = [] ∧ x.ready = []) (fun _ => ⟨rfl, rfl, rfl⟩) (fun _ => ⟨rfl, rfl, rfl⟩)
    s.hif.q q

/-- A link-down disables every queue, reports itself, and sends nothing. -/
theorem pcieLinkDown_spec (s : State) : (pcieLinkDown s).hif = s.linkFallen.hif ∧ (pcieLinkDown s).reg R.HIF_STATUS = 0 ∧
    (pcieLinkDown s).regB R.HIF_EVENTS 2 = true ∧ (pcieLinkDown s).mem = s.mem ∧ (pcieLinkDown s).out = s.out := by
  rw [pcieLinkDown_eq]
  generalize hu : (s.linkFallen.setReg R.HIF_STATUS 0).eventLog R.HIF_EVENTS 2 1 6 0 0 = u
  have hreg : u.reg R.HIF_STATUS = 0 := by
    rw [← hu, State.reg_eventLog _ _ _ (by decide) (by decide), if_neg (by decide), State.reg_setReg, if_pos rfl]
  have hbit : u.regB R.HIF_EVENTS 2 = true := by rw [← hu]; exact State.regB_eventLog _ _ (by decide) (by decide) (by decide)
  have hrest : u.hif = s.linkFallen.hif ∧ u.mem = s.mem ∧ u.out = s.out := by
    rw [← hu]; simp only [State.eventLog_frame, State.setReg_hif, State.setReg_mem, State.setReg_out]; exact ⟨trivial, rfl, rfl⟩
  obtain ⟨hhif, hmem, hout⟩ := hrest
  unfold State.when
  split
  · exact ⟨hhif, (State.reg_event_ne _ (by decide) _).trans hreg, State.regB_event_of_regB hbit, hmem, hout⟩
  · exact ⟨hhif, hreg, hbit, hmem, hout⟩

/-- After the ROM stage, with PERST_N high, the link comes up with its rate and width. -/
def State.linkTrained (s : State) (r w : Nat) (f : Bool) : State := (s.modHif (fun h => { h with linkUp := true })).setReg R.HIF_STATUS
  (packFields [(31, 1), (30, f.toNat), (27, r % 8), (23, w % 16)])

theorem pcieLinkUp_eq {s : State} (hp : s.hif.perst = false) (hs : 1 < s.img.stage) (r w : Nat) (f : Bool) : pcieLinkUp r w f s =
    if r < 6 ∨ w < 8 then (s.linkTrained r w f).eventLog R.HIF_EVENTS 10 1 6 0 (r + w * 256) else s.linkTrained r w f :=
  if_neg (by simp [hp]; omega)

end Sys2Proof.Machine

namespace Sys2Proof.Proofs
open Sys2Proof Sys2Proof.Machine

/-- Settles O54: aperture accesses are host accesses at the aperture's address; the resets are read off their definitions. -/
theorem aperturesAndResets : Obligations.AperturesAndResets := by
  unfold Obligations.AperturesAndResets
  refine ⟨?outside, ?read, ?readBad, fun s us a u n m x y ha hu _ hm hm' hx hy => State.emitUnits_two ha hu hm hm' hx hy, ?readHidden, ?writeOutside,
    ?write, ?writeHidden, ?unmask, State.msgStopped_iff, ?send, ?snapshot, ?snapshotBad, ?flr, ?noLink, ?linkUp, ?linkSlow, ?linkDown, ?perst,
    ?perstOther, ?malformed⟩
  case outside => exact fun s off len h => congrArg Host.Outcome.next (by rw [apertureRead, h]; rfl)
  case read =>
    exact fun s off len a h hp hb => congrArg Host.Outcome.next ((apertureRead_at h).trans (State.hostRead_open hp hb))
  case readBad =>
    intro s off len a us h hp hb hus
    subst hb
    exact congrArg Host.Outcome.next ((apertureRead_at h).trans (State.hostRead_bad hp hus))
  case readHidden =>
    exact fun s off len a h hp hb => congrArg Host.Outcome.next ((apertureRead_at h).trans (State.hostRead_hidden hp hb))
  case writeOutside => exact fun s off bs h => congrArg Host.Outcome.next (by rw [apertureWrite, h])
  case write =>
    intro s off a bs h hr hp hc
    refine ⟨_, congrArg Host.Outcome.next ((apertureWrite_at h).trans (State.hostPut_open hp hc)), ?_⟩
    obtain ⟨hin, hout⟩ := s.hostHbmWrite_bytes hr
    exact ⟨hin, hout, by simp only [State.hostHbmWrite_frame], State.hostHbmWrite_quiet⟩
  case writeHidden =>
    intro s off a bs h hp
    refine ⟨s.hostPut a bs, congrArg Host.Outcome.next (apertureWrite_at h), ?_⟩
    have hput : s.hostPut a bs = (s.noteProt 0 a).hostStore (fun x => !s.protGiB true (x / 2 ^ 30)) a bs := by
      rw [State.hostPut, hp]; rfl
    obtain ⟨hbyte, hout, hreg⟩ := (s.noteProt 0 a).hostStore_spec (fun x => !s.protGiB true (x / 2 ^ 30)) a bs
    obtain ⟨hbit, hmem, hsent⟩ := s.noteProt_spec 0 a
    rw [hput]
    refine ⟨fun x hx => ?_, by rw [State.regB, hreg _ (by decide) (by decide)]; exact hbit, hout.trans hsent⟩
    rw [← hmem]
    refine hbyte x ?_
    simp only [hx, Bool.not_true, Bool.false_and]
  case unmask =>
    intro s rq v u hu
    subst hu
    refine ⟨congrArg Host.Outcome.next ?_, ?_⟩
    · unfold Machine.msixUnmask
      simp only [Bool.and_eq_true, Bool.not_eq_true']
    · rw [State.msixMasked, State.msixWord, State.reg_setRegB, if_pos rfl]
      exact bitOf_setBit_clear _
  case send =>
    intro s v hm hv
    refine ⟨_, rfl, ?_⟩
    rw [State.msixSend_here hm hv]
    simp only [State.irqMsgIssued_frame]
    exact ⟨rfl, rfl, rfl⟩
  case snapshot =>
    intro s off bs hl ho hq
    have hgood : accessBad .bar0 (0x1000000 + off) bs.length = false := by rw [hl]; exact accessBad_word _ (by omega)
    refine ⟨_, congrArg Host.Outcome.next ((if_neg (by rw [hgood]; decide)).trans (State.log_room hq ..)), rfl, rfl, rfl, rfl, rfl⟩
  case snapshotBad =>
    intro s off bs h
    refine congrArg Host.Outcome.next (if_pos ?_)
    simp [accessBad]
    omega
  case flr =>
    intro s
    have hrest : (functionLevelReset s).mem = s.mem ∧ (functionLevelReset s).stp = s.stp ∧ (functionLevelReset s).arr = s.arr ∧
        (functionLevelReset s).err = s.err := by
      simp only [functionLevelReset_frame]; exact ⟨trivial, trivial, trivial, by simp only [functionLevelReset_eq, State.event_frame]; rfl⟩
    refine ⟨functionLevelReset s, rfl, ?_⟩
    refine ⟨fun q => ?_, fun a ha hne => ?_, fun a ha => ?_, ?_, hrest⟩
    · rfl
    · rw [functionLevelReset_eq, State.reg_event_ne _ hne, State.hifCleared_reg, ha]; rfl
    · rw [functionLevelReset_eq, State.reg_event_ne _ (fun e => by rw [e, hifReset_events] at ha; exact nomatch ha), State.hifCleared_reg, ha]; rfl
    · rw [functionLevelReset_eq]; exact State.regB_event_self _ _ (by decide)
  case noLink => exact fun s r w f h => congrArg Host.Outcome.next (if_pos (by simpa using h))
  case linkUp =>
    intro s r w f hp hs hr hw
    refine ⟨s.linkTrained r w f, congrArg Host.Outcome.next ((pcieLinkUp_eq hp hs r w f).trans (if_neg (by omega))), rfl, ?_, rfl, rfl⟩
    exact (State.reg_setReg ..).trans (if_pos rfl)
  case linkSlow =>
    intro s r w f hp hs h
    refine ⟨_, congrArg Host.Outcome.next ((pcieLinkUp_eq hp hs r w f).trans (if_pos h)), ?_,
      State.regB_eventLog _ _ (by decide) (by decide) (by decide), ?_⟩ <;> simp only [State.eventLog_frame] <;> rfl
  case linkDown =>
    intro s
    obtain ⟨hhif, hreg, hbit, hmem, hout⟩ := pcieLinkDown_spec s
    refine ⟨_, rfl, by rw [hhif]; rfl, fun q => ?_, hreg, hbit, hmem, hout⟩
    rw [State.queue, hhif]
    exact s.linkFallen_queue q
  case perst => exact fun s h => congrArg Host.Outcome.next (if_neg (by exact Nat.not_le.2 h))
  case perstOther => exact fun s => ⟨rfl, fun h => congrArg Host.Outcome.next (if_pos (by exact h))⟩
  case malformed =>
    intro s
    have hlog : ∀ a, a ≠ R.ERR_DROP_CNT → a ≠ R.ERR_EVENTS → (malformedTlp s).reg a = (s.setReg R.HIF_FAULT (packFields [(0, (Config.freeByte s.free 0).toNat)])).reg a :=
      fun a h1 h2 => State.reg_log _ _ h1 h2
    refine ⟨_, rfl, ?_, ?_, ?_, ?_, ?_⟩
    · rw [hlog _ (by decide) (by decide), State.reg_setReg, if_pos rfl]
    · show (State.log _ _ _ _ _ _).out ++ _ = _
      rw [State.log_out]
      rfl
    · exact (congrArg State.free rfl).trans (State.log_free ..)
    · exact State.log_mem ..
    · exact State.log_hif ..

end Sys2Proof.Proofs
end

section
/-! O53. A counterexample for the engine that WRITE_HBM takes. -/

namespace Sys2Proof.Machine
open Sys2Proof

/-- A data entry that starts is noted at its engine. -/
theorem State.startData_dma (s : State) (q i g : Nat) (e : QEnt) (f : Nat × Nat × Nat × Nat) :
    SMap.get (fun _ => none) (s.startData q i g e f).tsk.dma g = some (1048576 + q) := by
  simp [State.startData, State.modTsk]

/-- In every case WRITE_HBM starts its entry with the free engine. -/
theorem writeHbm_starts {s : State} {q i g : Nat} {e : QEnt} (hn : s.nextOp q 1 = some (i, e)) (hg : s.freeEngine 0 = some g) (data : List Byte)
    (err : Option Nat) : ∃ u f, writeHbm q data err s = State.startData u q i g e f := by
  unfold writeHbm
  simp only [hn, hg]
  generalize (if e.check then e.len - 4 else e.len) = n
  by_cases hme : s.targetsMe e = true
  · rw [if_neg (by rw [hme]; decide)]
    by_cases hp : s.protected_ true e.opB n = true
    · exact ⟨_, _, if_pos hp⟩
    · rw [if_neg hp]
      cases err <;> exact ⟨_, _, rfl⟩
  · rw [if_pos (by simpa using hme)]
    cases err <;> exact ⟨_, _, rfl⟩

theorem writeHbm_dma {s : State} {q i g : Nat} {e : QEnt} (hn : s.nextOp q 1 = some (i, e)) (hg : s.freeEngine 0 = some g) (data : List Byte)
    (err : Option Nat) : SMap.get (fun _ => none) (writeHbm q data err s).tsk.dma g = some (1048576 + q) := by
  obtain ⟨u, f, hu⟩ := writeHbm_starts hn hg data err
  rw [hu, State.startData_dma]

/-- A WRITE_HBM entry for this module: 4 bytes at address 0. -/
def writeEntry : QEnt := { bytes := [1, 0, 0, 0, 0xFF] ++ List.replicate 19 0 ++ [4] ++ List.replicate 39 0 }

/-- Queue 0 is a data queue with that entry fetched. -/
def writeQueued : State :=
  { State.reset with hif := { State.reset.hif with q := [(0, { cfg := 0x20000002, en := true, fetched := [writeEntry] })] } }

end Sys2Proof.Machine

namespace Sys2Proof.Proofs
open Sys2Proof Sys2Proof.Machine

/-- Refutes O53: the engine notes 2^20 more than the queue's number, while the statement adds 2^20 to the queue among the 64 queues, which is
the queue's number itself (`writeQueued`). -/
theorem not_hostDataAndGeneration : ¬ Obligations.HostDataAndGeneration := by
  unfold Obligations.HostDataAndGeneration
  rintro ⟨hwrite, -⟩
  have hn : writeQueued.nextOp 0 1 = some (0, writeEntry) := by decide
  have hg : writeQueued.freeEngine 0 = some 0 := by decide
  obtain ⟨t, hexec, -, -, -, hdma, -⟩ := hwrite writeQueued 0 0 writeEntry 0 [] hn hg (by decide) (by decide) (by decide) rfl
  have ht : writeHbm 0 [] none writeQueued = t := Host.Outcome.next.inj hexec
  have hengine := writeHbm_dma hn hg [] none
  rw [ht, hdma] at hengine
  exact absurd hengine (by decide)

end Sys2Proof.Proofs
end

section
/-! SUPPORT. The supplies and the housekeeping block (chapter 15): what an event, a switch-over and a saved count leave in the block and in its
registers, the trip, and the bounds that a loop period of the governor keeps. -/

namespace Sys2Proof.Machine
open Sys2Proof

/-! ### Events of the block -/

section Events
variable (s : State) (i : Nat)

theorem State.pwrEvent_pwr : ∃ d, (s.pwrEvent i).pwr = { s.pwr with alertDone := d } := by
  unfold State.pwrEvent State.when
  split
  · exact ⟨false, rfl⟩
  · exact ⟨s.pwr.alertDone, rfl⟩

theorem State.pwrEventLog_pwr (cause detail : Nat) : ∃ d, (s.pwrEventLog i cause detail).pwr = { s.pwr with alertDone := d } := by
  obtain ⟨d, hd⟩ := s.pwrEvent_pwr i
  exact ⟨d, by simp only [State.pwrEventLog, State.log_frame, hd]⟩

theorem State.pwrEvent_reg (a : Nat) : (s.pwrEvent i).reg a = (s.event R.PWR_EVENTS i).reg a := by
  unfold State.pwrEvent State.when
  split <;> rfl

theorem State.regB_pwrEvent_self {i : Nat} (h : i < 32) : (s.pwrEvent i).regB R.PWR_EVENTS i = true := by
  rw [State.regB, State.pwrEvent_reg]
  exact State.regB_event_self s _ h

theorem State.regB_pwrEventLog_self (cause detail : Nat) {i : Nat} (h : i < 32) :
    (s.pwrEventLog i cause detail).regB R.PWR_EVENTS i = true := by
  rw [State.pwrEventLog, State.regB, State.reg_log _ _ (by decide) (by decide)]
  exact s.regB_pwrEvent_self h

theorem State.reg_pwrEventLog_ne (cause detail : Nat) {a : Nat} (h1 : a ≠ R.PWR_EVENTS) (h2 : a ≠ R.ERR_DROP_CNT) (h3 : a ≠ R.ERR_EVENTS) :
    (s.pwrEventLog i cause detail).reg a = s.reg a := by
  rw [State.pwrEventLog, State.reg_log _ _ h2 h3, State.pwrEvent_reg, State.reg_event_ne s h1]

variable {s} {i}

theorem State.regB_pwrEvent_of_regB {a j : Nat} (h : s.regB a j = true) : (s.pwrEvent i).regB a j = true := by
  rw [State.regB, State.pwrEvent_reg]
  exact State.regB_event_of_regB h

theorem State.regB_pwrEventLog_of_regB {j : Nat} (cause detail : Nat) (h : s.regB R.PWR_EVENTS j = true) :
    (s.pwrEventLog i cause detail).regB R.PWR_EVENTS j = true := by
  rw [State.pwrEventLog, State.regB, State.reg_log _ _ (by decide) (by decide)]
  exact State.regB_pwrEvent_of_regB h

end Events

/-! ### Inputs (R349 to R352) -/

section Inputs
variable {s : State}

theorem PwrSt.good_setGood_self (p : PwrSt) (b v : Bool) : (p.setGood b v).good b = v := by cases b <;> rfl
theorem PwrSt.good_setGood_other (p : PwrSt) (b v : Bool) : (p.setGood b v).good (!b) = p.good (!b) := by cases b <;> rfl
theorem PwrSt.setGood_activeB (p : PwrSt) (b v : Bool) : (p.setGood b v).activeB = p.activeB := by cases b <;> rfl

/-- The inputs that are good, read from a block that differs in its alert only. -/
theorem PwrSt.good_alert (p : PwrSt) (d b : Bool) : ({ p with alertDone := d } : PwrSt).good b = p.good b := by cases b <;> rfl

theorem State.housed_pwrEvent (i : Nat) : (s.pwrEvent i).housed = s.housed := by
  obtain ⟨d, hd⟩ := s.pwrEvent_pwr i
  simp only [State.housed, hd, State.pwrEvent_frame]

theorem State.switchTo_pwr (b : Bool) (cause : Nat) : ∃ d, (s.switchTo b cause).pwr = { s.pwr with activeB := b, alertDone := d } :=
  State.pwrEventLog_pwr _ _ _ _

theorem State.regB_switchTo_self (b : Bool) (cause : Nat) : (s.switchTo b cause).regB R.PWR_EVENTS 1 = true :=
  State.regB_pwrEventLog_self _ _ _ (by decide)

theorem State.switchTo_count (b : Bool) (cause : Nat) : (s.switchTo b cause).reg R.PWR_SWITCH_CNT =
    BitVec.ofNat 32 (min (2 ^ 32 - 1) ((s.reg R.PWR_SWITCH_CNT).toNat + 1)) := by
  refine (State.reg_pwrEventLog_ne _ _ _ _ (by decide) (by decide) (by decide)).trans ?_
  rw [State.reg_incReg, if_pos rfl, satAdd, Nat.min_comm]
  rfl

theorem State.regB_switchTo_of_regB {b : Bool} {cause j : Nat} (h : s.regB R.PWR_EVENTS j = true) :
    (s.switchTo b cause).regB R.PWR_EVENTS j = true := by
  refine State.regB_pwrEventLog_of_regB _ _ ?_
  rw [State.regB, State.reg_incReg, if_neg (by decide)]
  exact h

theorem inputGood_spare {b : Bool} (hg : s.pwr.good s.pwr.activeB = true) (ha : s.pwr.activeB ≠ b) :
    inputGood b s = s.modPwr (fun p => p.setGood b true) := by
  have hc : ((s.pwr.setGood b true).good (s.pwr.setGood b true).activeB && decide ((s.pwr.setGood b true).activeB ≠ b)) = true := by
    rw [PwrSt.setGood_activeB]
    have hb : s.pwr.activeB = !b := Bool.eq_not.2 ha
    rw [hb] at hg ⊢
    rw [PwrSt.good_setGood_other, hg]
    cases b <;> rfl
  exact if_pos hc

theorem inputGood_active {b : Bool} (ha : s.pwr.activeB = b) :
    inputGood b s = (s.modPwr (fun p => p.setGood b true)).modPwr (fun p => { p with holdup := false }) := by
  have ha' : (s.pwr.setGood b true).activeB = b := (PwrSt.setGood_activeB ..).trans ha
  have hc : ¬((s.pwr.setGood b true).good (s.pwr.setGood b true).activeB && decide ((s.pwr.setGood b true).activeB ≠ b)) = true := by
    simp [ha']
  exact (if_neg hc).trans (if_pos ha')

theorem inputGood_takes {b : Bool} (ha : s.pwr.activeB = !b) (hg : s.pwr.good (!b) = false) (hh : s.housed = true) :
    inputGood b s = ((s.modPwr (fun p => p.setGood b true)).modPwr (fun p => { p with holdup := false })).switchTo b 1 := by
  have ha' : (s.pwr.setGood b true).activeB = !b := (PwrSt.setGood_activeB ..).trans ha
  have hc : ¬((s.pwr.setGood b true).good (s.pwr.setGood b true).activeB && decide ((s.pwr.setGood b true).activeB ≠ b)) = true := by
    rw [ha', PwrSt.good_setGood_other, hg, Bool.false_and]
    exact Bool.false_ne_true
  have hne : (s.pwr.setGood b true).activeB ≠ b := by
    rw [ha']
    exact Bool.not_ne_self b
  have hh' : ((s.modPwr (fun p => p.setGood b true)).modPwr (fun p => { p with holdup := false })).housed = true := by
    rw [← hh]
    cases b <;> rfl
  exact (if_neg hc).trans ((if_neg hne).trans (if_pos hh'))

/-- The state as input `b` has stopped being good, with its event. -/
def State.inputBad (s : State) (b : Bool) : State := (s.modPwr (fun p => p.setGood b false)).pwrEvent 0

theorem State.inputBad_pwr (b : Bool) : ∃ d, (s.inputBad b).pwr = { s.pwr.setGood b false with alertDone := d } :=
  State.pwrEvent_pwr _ 0

theorem inputLoss_moves {b : Bool} (hb : s.pwr.good b = true) (ha : s.pwr.activeB = b) (hg : s.pwr.good (!b) = true) (hh : s.housed = true) :
    inputLoss b s = (s.inputBad b).switchTo (!b) 1 := by
  obtain ⟨d, hd⟩ := s.inputBad_pwr b
  have hc : (decide ((s.inputBad b).pwr.activeB = b) && (s.inputBad b).pwr.good (!b)) = true := by
    rw [hd, PwrSt.good_alert, PwrSt.good_setGood_other, hg]
    simp [PwrSt.setGood_activeB, ha]
  have hh' : (s.inputBad b).housed = true := by
    rw [← hh, State.inputBad, State.housed_pwrEvent]
    cases b <;> rfl
  exact (if_pos hb).trans ((if_pos hc).trans (if_pos hh'))

theorem inputLoss_of_bad {b : Bool} (h : s.pwr.good b = false) : inputLoss b s = s := if_neg (Bool.eq_false_iff.1 h)

/-- RETURN_TO_A acts. -/
def State.returns (s : State) : Bool := !s.fnHost 9 && s.pwr.activeB && s.pwr.aGood && !s.pwr.unstable

theorem returnToA_of_not (h : s.fnHost 9 = true ∨ s.pwr.activeB = false ∨ s.pwr.aGood = false ∨ s.pwr.unstable = true) : returnToA s = s := by
  have hc : s.returns = false := by
    rcases h with h | h | h | h <;> simp [State.returns, h]
  exact if_neg (Bool.eq_false_iff.1 hc)

/-- The pod times of the returns that count: those of the last 10 min. -/
def State.recentReturns (s : State) : List Nat := s.pwr.returns.filter (fun t => decide (s.time < t + 600000000000))

theorem returnToA_stable (hf : s.fnHost 9 = false) (hb : s.pwr.activeB = true) (ha : s.pwr.aGood = true) (hu : s.pwr.unstable = false)
    (hn : s.recentReturns.length < 7) : ∃ l, returnToA s = (s.switchTo false 2).modPwr (fun p => { p with returns := l }) := by
  have hc : s.returns = true := by simp [State.returns, hf, hb, ha, hu]
  have hl : (s.switchTo false 2).recentReturns = s.recentReturns := by
    obtain ⟨d, hd⟩ := s.switchTo_pwr false 2
    have hret : (s.switchTo false 2).pwr.returns = s.pwr.returns := by rw [hd]
    have htime : (s.switchTo false 2).time = s.time := by simp only [State.time, State.switchTo_frame]
    rw [State.recentReturns, hret, htime, State.recentReturns]
  refine ⟨(s.switchTo false 2).recentReturns ++ [(s.switchTo false 2).time], (if_pos hc).trans (if_neg ?_)⟩
  show ¬8 ≤ ((s.switchTo false 2).recentReturns ++ [(s.switchTo false 2).time]).length
  rw [hl, List.length_append, List.length_singleton]
  omega

end Inputs

/-! ### Powered time and loss of power (R351, R355) -/

section Powered
variable {s : State}

/-- What a save of the powered-time count `n` leaves: the older copy holds it, the other one is as before. -/
def PwrSt.Saved (p q : PwrSt) (n : Nat) : Prop :=
  if p.olderA = true then q.storeA = countRec n ∧ q.storeB = p.storeB else q.storeB = countRec n ∧ q.storeA = p.storeA

theorem State.savePowered_saved (s : State) :
    s.pwr.Saved (s.savePowered true).pwr (s.reg R.PWR_POWERED).toNat ∧ (s.savePowered true).pwr.sinceSave = 0 := by
  show s.pwr.Saved (if s.pwr.olderA then _ else _) _ ∧ (if s.pwr.olderA then _ else _ : PwrSt).sinceSave = 0
  unfold PwrSt.Saved
  split
  · exact ⟨⟨rfl, rfl⟩, rfl⟩
  · exact ⟨⟨rfl, rfl⟩, rfl⟩

theorem State.savePowered_holdup (s : State) (ok : Bool) : (s.savePowered ok).pwr.holdup = s.pwr.holdup := by
  show (if s.pwr.olderA then _ else _ : PwrSt).holdup = _
  split <;> rfl

theorem PwrSt.olderA_of_invalid {p : PwrSt} (h : p.storeA = []) : p.olderA = true := by
  have : countOf p.storeA = none := by rw [h]; rfl
  rw [PwrSt.olderA, this]

theorem PwrSt.olderA_of_counts {p : PwrSt} {n m : Nat} (hn : n < 2 ^ 32) (hm : m < 2 ^ 32) (ha : p.storeA = countRec n)
    (hb : p.storeB = countRec m) : p.olderA = true ↔ n ≤ m := by
  rw [PwrSt.olderA, ha, hb, countOf_countRec hn, countOf_countRec hm]
  exact decide_eq_true_iff

/-- A trigger touches the registers of its own block and the log's only. -/
theorem State.reg_queueTrig (s : State) (x : Trig) {a : Nat} (h1 : a ≠ R.SNP_EVENTS) (h2 : a ≠ R.ERR_DROP_CNT) (h3 : a ≠ R.ERR_EVENTS) :
    (s.queueTrig x).reg a = s.reg a := by
  have hlate : (s.noteLate x).reg a = s.reg a := by
    unfold State.noteLate
    split
    · exact State.reg_event_ne s h1 2
    · rfl
  unfold State.queueTrig
  split
  · rfl
  · show State.reg (if (s.noteLate x).snp.queue.any _ then _ else if (s.noteLate x).snp.queue.length < 8 then _ else
      (s.noteLate x).eventLog R.SNP_EVENTS 4 5 1 0 0) a = _
    by_cases hnear : (s.noteLate x).snp.queue.any (fun y => nearTime (s.stampTrig x).t y.t) = true
    · exact (congrArg (State.reg · a) (if_pos hnear)).trans hlate
    · refine (congrArg (State.reg · a) (if_neg hnear)).trans ?_
      by_cases hroom : (s.noteLate x).snp.queue.length < 8
      · exact (congrArg (State.reg · a) (if_pos hroom)).trans hlate
      · exact (congrArg (State.reg · a) (if_neg hroom)).trans ((State.reg_eventLog _ _ _ h2 h3).trans ((if_neg h1).trans hlate))

theorem State.reg_raiseTrig_quiet (s : State) (cls t : Nat) {a : Nat} (h1 : a ≠ R.SNP_EVENTS) (h2 : a ≠ R.ERR_DROP_CNT) (h3 : a ≠ R.ERR_EVENTS) :
    (s.raiseTrig cls t false).reg a = s.reg a := by
  rw [State.raiseTrig_eq (s := s) rfl (if_neg Bool.false_ne_true), State.reg_queueTrig _ _ h1 h2 h3]
  rfl

/-- The state of a module that has begun its hold-up, before the powered time is saved. -/
def State.inHoldup (s : State) : State :=
  let u := (s.modPwr (fun p => { p with holdup := true })).pwrEventLog 2 0 0
  u.raiseTrig 0x04 (u.time + u.localLead) false

theorem State.inHoldup_pwr (s : State) : ∃ d, s.inHoldup.pwr = { s.pwr with holdup := true, alertDone := d } := by
  obtain ⟨d, hd⟩ := (s.modPwr (fun p => { p with holdup := true })).pwrEventLog_pwr 2 0 0
  exact ⟨d, by simp only [State.inHoldup, State.raiseTrig_frame, hd]; rfl⟩

theorem State.inHoldup_reg (s : State) {a : Nat} (h0 : a ≠ R.PWR_EVENTS) (h1 : a ≠ R.SNP_EVENTS) (h2 : a ≠ R.ERR_DROP_CNT) (h3 : a ≠ R.ERR_EVENTS) :
    s.inHoldup.reg a = s.reg a :=
  (State.reg_raiseTrig_quiet _ _ _ h1 h2 h3).trans (State.reg_pwrEventLog_ne _ _ _ _ h0 h2 h3)

theorem State.inHoldup_event (s : State) : s.inHoldup.regB R.PWR_EVENTS 2 = true := by
  rw [State.inHoldup, State.regB, State.reg_raiseTrig_quiet _ _ _ (by decide) (by decide) (by decide)]
  exact State.regB_pwrEventLog_self _ _ _ (by decide)

theorem holdup_begins (ha : s.pwr.aGood = false) (hb : s.pwr.bGood = false) (hd : s.pwr.holdup = false) (hh : s.housed = true) :
    holdup s = s.inHoldup.savePowered true := by
  have hc : ¬(s.pwr.aGood || s.pwr.bGood || s.pwr.holdup || !s.housed) = true := by simp [ha, hb, hd, hh]
  exact if_neg hc

theorem holdup_of_not (h : s.pwr.aGood = true ∨ s.pwr.bGood = true ∨ s.pwr.holdup = true ∨ s.housed = false) : holdup s = s := by
  have hc : (s.pwr.aGood || s.pwr.bGood || s.pwr.holdup || !s.housed) = true := by
    rcases h with h | h | h | h <;> simp [h]
  exact if_pos hc

/-- A key that no entry lists reads as the default. -/
theorem SMap.get_of_unlisted {α : Type} (d : Nat → α) {m : SMap α} {k : Nat} (h : k ∉ m.map (·.1)) : SMap.get d m k = d k := by
  induction m with
  | nil => rfl
  | cons p m ih =>
    rw [List.map_cons, List.mem_cons, not_or] at h
    rw [SMap.get, if_neg (Ne.symm h.1), ih h.2]

/-- An array's entry without power; nothing is listed where nothing is kept. -/
def unpoweredEntry (p : Nat × PhysSt) : Option (Nat × PhysSt) := if p.2.unpowered = {} then none else some (p.1, p.2.unpowered)

/-- The arrays of an unpowered module, read by key. -/
theorem SMap.get_unpowered {m : SMap PhysSt} (h : (m.map (·.1)).Nodup) (k : Nat) :
    SMap.get (fun _ => {}) (m.filterMap unpoweredEntry) k = (SMap.get (fun _ => {}) m k).unpowered := by
  induction m with
  | nil => rfl
  | cons p m ih =>
    obtain ⟨hp, hm⟩ := List.nodup_cons.1 h
    have ih := ih hm
    by_cases hd : p.2.unpowered = {}
    · have he : unpoweredEntry p = none := if_pos hd
      rw [List.filterMap_cons_none he, ih, SMap.get]
      split
      · next hk => rw [SMap.get_of_unlisted _ (hk ▸ hp), hd]; rfl
      · rfl
    · have he : unpoweredEntry p = some (p.1, p.2.unpowered) := if_neg hd
      rw [List.filterMap_cons_some he, SMap.get, SMap.get, ih]
      split <;> rfl

theorem State.powerOff_phys (l : Bool) (k a : Nat) (h : (s.arr.phys.map (·.1)).Nodup) :
    (s.powerOff l).phys k a = (s.phys k a).unpowered := SMap.get_unpowered h _

end Powered

/-! ### What a loop over dies reaches -/

/-- A loop whose step reaches `Q y` at `y` and keeps it elsewhere has it, after its end, for every `y` it ran over. -/
theorem List.foldl_reaches {α β : Type} (I : α → Prop) (Q : β → α → Prop) (f : α → β → α) (hI : ∀ a x, I a → I (f a x))
    (hself : ∀ a x, I a → Q x (f a x)) (hkeep : ∀ a x y, I a → Q y a → Q y (f a x)) {l : List β} {y : β} (hy : y ∈ l) {a : α} (ha : I a) :
    Q y (l.foldl f a) := by
  have hstay : ∀ (l : List β) (a : α), I a → Q y a → Q y (l.foldl f a) := by
    intro l
    induction l with
    | nil => exact fun _ _ h => h
    | cons x l ih => exact fun a ha h => ih _ (hI a x ha) (hkeep a x y ha h)
  induction l generalizing a with
  | nil => exact absurd hy List.not_mem_nil
  | cons x l ih =>
    rcases List.mem_cons.1 hy with rfl | hy
    · exact hstay l _ (hI a y ha) (hself a y ha)
    · exact ih hy (hI a x ha)

theorem List.foldl_keeps {α β : Type} (I : α → Prop) (f : α → β → α) (hI : ∀ a x, I a → I (f a x)) (l : List β) {a : α} (ha : I a) :
    I (l.foldl f a) := by
  induction l generalizing a with
  | nil => exact ha
  | cons x l ih => exact ih (hI a x ha)

/-! ### The trip (R362) -/

section Trip
variable {s : State}

theorem bitOf_setBit_false (v : Word) {i : Nat} (h : i < 32) : bitOf (setBit v i false) i = false := by
  have h := fld_setFld_self (hi := i) (lo := i) le_rfl h v 0
  simp only [fld, bitsOf] at h
  simp only [bitOf, setBit, Nat.testBit_eq_decide_div_mod_eq]
  simpa [Nat.shiftRight_eq_div_pow] using h

/-- Admission of Kaolin die `k` is off. -/
def State.admitDieOff (s : State) (k : Nat) : State := s.setRegB (R.ARR_CTRL k) 0 false

/-- Admission of every Kaolin die is off. -/
def State.admitOff (s : State) : State := (List.range 16).foldl State.admitDieOff s

theorem arrCtrl_ne_pwrEvents (k : Nat) : R.PWR_EVENTS ≠ R.ARR_CTRL k := by unfold R.PWR_EVENTS R.ARR_CTRL; omega

theorem State.admitOff_pwr (s : State) : s.admitOff.pwr = s.pwr :=
  List.foldl_keeps (fun t : State => t.pwr = s.pwr) State.admitDieOff (fun _ _ h => h) _ rfl

theorem State.admitOff_events (s : State) : s.admitOff.reg R.PWR_EVENTS = s.reg R.PWR_EVENTS :=
  List.foldl_keeps (fun t : State => t.reg R.PWR_EVENTS = s.reg R.PWR_EVENTS) State.admitDieOff
    (fun t k h => (State.reg_setRegB t _ _ _ _).trans ((if_neg (arrCtrl_ne_pwrEvents k)).trans h)) _ rfl

theorem State.admitOff_bit (s : State) {k : Nat} (hk : k < 16) : s.admitOff.regB (R.ARR_CTRL k) 0 = false := by
  refine List.foldl_reaches (fun _ => True) (fun k (t : State) => t.regB (R.ARR_CTRL k) 0 = false) State.admitDieOff (fun _ _ _ => trivial) ?_ ?_
    (List.mem_range.2 hk) trivial
  · intro t j _
    show bitOf ((t.setRegB (R.ARR_CTRL j) 0 false).reg _) 0 = false
    rw [State.reg_setRegB, if_pos rfl]
    exact bitOf_setBit_false _ (by decide)
  · intro t j y _ h
    show bitOf ((t.setRegB (R.ARR_CTRL j) 0 false).reg _) 0 = false
    rw [State.reg_setRegB]
    split
    · exact bitOf_setBit_false _ (by decide)
    · exact h

/-- The duties as a trip sets them. -/
def PwrSt.tripped (p : PwrSt) : PwrSt :=
  { p with therm := true, tripping := true, alertDone := false, duty := SMap.set (fun _ => 16) (SMap.set (fun _ => 16) p.duty 0 4) 1 4 }

theorem PwrSt.tripped_duty (p : PwrSt) : p.tripped.dutyOf 0 = 4 ∧ p.tripped.dutyOf 1 = 4 :=
  ⟨show SMap.get (fun _ => 16) (SMap.set (fun _ => 16) (SMap.set (fun _ => 16) p.duty 0 4) 1 4) 0 = 4 from
      (SMap.get_set_ne Nat.zero_ne_one).trans SMap.get_set_self,
    show SMap.get (fun _ => 16) (SMap.set (fun _ => 16) (SMap.set (fun _ => 16) p.duty 0 4) 1 4) 1 = 4 from SMap.get_set_self⟩

theorem State.trip_begins (ch pos : Nat) (h : s.pwr.tripping = false) :
    s.trip ch pos = (((s.pwrEventLog 7 ch pos).modPwr PwrSt.tripped).admitOff).pwrEvent 5 := if_neg (Bool.eq_false_iff.1 h)

end Trip

/-! ### The converter (R357 to R359) -/

section Converter
variable {s : State}

/-- Where the scan stands: its next channel and its round. -/
def State.scanAt (s : State) : Nat × Nat := (s.pwr.chan, s.pwr.round)

theorem State.scanAt_pwrEvent (s : State) (i : Nat) : (s.pwrEvent i).scanAt = s.scanAt := by
  obtain ⟨d, hd⟩ := s.pwrEvent_pwr i
  rw [State.scanAt, hd]
  rfl

theorem State.scanAt_pwrEventLog (s : State) (i cause detail : Nat) : (s.pwrEventLog i cause detail).scanAt = s.scanAt := by
  obtain ⟨d, hd⟩ := s.pwrEventLog_pwr i cause detail
  rw [State.scanAt, hd]
  rfl

theorem State.scanAt_trip (s : State) (ch pos : Nat) : (s.trip ch pos).scanAt = s.scanAt := by
  cases h : s.pwr.tripping with
  | true => rw [State.trip, if_pos h]
  | false =>
    rw [State.trip_begins _ _ h, State.scanAt_pwrEvent, State.scanAt, State.admitOff_pwr]
    exact s.scanAt_pwrEventLog 7 ch pos

theorem State.scanAt_checkTrip (s : State) (ch pos : Nat) (n : Int) : (s.checkTrip ch pos n).scanAt = s.scanAt := by
  unfold State.checkTrip
  split
  · rfl
  · have hkeep : ∀ (u : State) (c : Nat), (if c = 2 then u.trip ch pos else u).scanAt = u.scanAt := by
      intro u c
      split
      · exact u.scanAt_trip ch pos
      · rfl
    exact hkeep _ _

theorem State.scanAt_bridgeScale (s : State) (ch : Nat) (raw : Int) : (s.bridgeScale ch raw).scanAt = s.scanAt := by
  unfold State.bridgeScale
  split <;> rfl

theorem State.scanAt_coolantWarn (s : State) (c : Bool) : (s.when c State.coolantWarn).scanAt = s.scanAt := by
  unfold State.when
  split
  · unfold State.coolantWarn
    dsimp only
    split
    · split
      · exact State.scanAt_pwrEvent ..
      · exact State.scanAt_pwrEventLog ..
    · rfl
  · rfl

theorem State.corrected_pwr (s : State) (raw : Int) : (s.corrected raw).2.pwr = s.pwr := by simp only [State.corrected_frame]

/-- The channel's own result does not move the scan. -/
theorem State.scanAt_noted (s : State) (ch : Nat) (raw : Int) :
    (s.modPwr (fun p => if ch = 14 then { p with z := raw } else if ch = 0 then { p with v := raw } else p)).scanAt = s.scanAt := by
  show ((if ch = 14 then _ else if ch = 0 then _ else _ : PwrSt).chan, (if ch = 14 then _ else if ch = 0 then _ else _ : PwrSt).round) = _
  (repeat' split) <;> rfl

theorem State.scanAt_scanResult (s : State) (raw : Int) :
    (s.scanResult raw).scanAt = ((s.pwr.chan + 1) % 16, if s.pwr.chan = 15 then s.pwr.round + 1 else s.pwr.round) := by
  rw [State.scanResult, State.scanAt_coolantWarn, State.scanAt_checkTrip, State.scanAt_bridgeScale]
  have h := s.scanAt_noted s.pwr.chan (rawCode s.pwr.chan raw)
  generalize hn : s.modPwr (fun p => if s.pwr.chan = 14 then { p with z := rawCode s.pwr.chan raw }
    else if s.pwr.chan = 0 then { p with v := rawCode s.pwr.chan raw } else p) = u at h
  have hr : u.pwr.round = s.pwr.round := congrArg Prod.snd h
  show ((s.pwr.chan + 1) % 16, if s.pwr.chan = 15 then (u.corrected (rawCode s.pwr.chan raw)).2.pwr.round + 1
    else (u.corrected (rawCode s.pwr.chan raw)).2.pwr.round) = _
  rw [State.corrected_pwr, hr]

theorem State.softResult_pwr (s : State) (ch pos : Nat) (raw : Int) :
    (s.softResult ch pos raw).pwr.valid = true ∧ (s.softResult ch pos raw).pwr.data.1 = ch ∧ (s.softResult ch pos raw).pwr.data.2.1 = pos ∧
      (s.softResult ch pos raw).pwr.meas = s.pwr.meas ∧ (s.softResult ch pos raw).pwr.convNext = s.pwr.convNext := by
  obtain ⟨d, hd⟩ := (s.modPwr (fun p => { p with ovr := true })).pwrEvent_pwr 10
  have hkeep : ∀ c : Bool, (if c = true then (s.modPwr (fun p => { p with ovr := true })).pwrEvent 10 else s).pwr.meas = s.pwr.meas ∧
      (if c = true then (s.modPwr (fun p => { p with ovr := true })).pwrEvent 10 else s).pwr.convNext = s.pwr.convNext := by
    intro c
    split
    · rw [hd]; exact ⟨rfl, rfl⟩
    · exact ⟨rfl, rfl⟩
  exact ⟨rfl, rfl, rfl, hkeep _⟩

theorem hkaConversion_soft {raw : Int} {c : ConvReq} (h : s.softDue = some c) :
    hkaConversion raw s = (s.softResult c.chan c.pos (rawCode c.chan raw)).modPwr (fun p =>
      { p with swLast := true, convNext := none,
               conv := if p.convNext.isSome then p.convNext else if c.left ≤ 1 then none else
                 some { c with left := c.left - 1, due := (s.softResult c.chan c.pos (rawCode c.chan raw)).time + c.interval * 1000 } }) := by
  rw [hkaConversion, h]

theorem hkaConversion_scan {raw : Int} (h : s.softDue = none) : hkaConversion raw s = s.scanResult raw := by
  rw [hkaConversion, h]

/-- The request that HKA_CONV_WRITE orders. -/
def State.convOrder (s : State) (v : Word) : ConvReq :=
  { chan := fld v 3 0, pos := if posCount (fld v 3 0) = 1 then 0 else fld v 7 4 % posCount (fld v 3 0), left := fld v 31 24 + 1,
    interval := fld v 23 16, due := s.time }

theorem posCount_pos (ch : Nat) : 0 < posCount ch := by
  unfold posCount
  (repeat' split) <;> decide

theorem State.convOrder_pos (s : State) (v : Word) : (s.convOrder v).pos < max 1 (posCount (fld v 3 0)) := by
  have hp := posCount_pos (fld v 3 0)
  refine lt_of_lt_of_le ?_ (le_max_right ..)
  show (if posCount (fld v 3 0) = 1 then 0 else fld v 7 4 % posCount (fld v 3 0)) < _
  split
  · exact hp
  · exact Nat.mod_lt _ hp

theorem hkaConvWrite_orders (s : State) (v : Word) :
    if s.softDue.isSome then (hkaConvWrite v s).pwr.convNext = some (s.convOrder v) ∧ (hkaConvWrite v s).pwr.conv = s.pwr.conv
    else (hkaConvWrite v s).pwr.conv = some (s.convOrder v) ∧ (hkaConvWrite v s).pwr.convNext = none := by
  have hw : (hkaConvWrite v s).pwr = if s.softDue.isSome then { s.pwr with convNext := some (s.convOrder v) }
      else { s.pwr with conv := some (s.convOrder v), convNext := none } := rfl
  split
  · next h => rw [hw, if_pos h]; exact ⟨rfl, rfl⟩
  · next h => rw [hw, if_neg h]; exact ⟨rfl, rfl⟩

end Converter

/-! ### The governor (R360, R363) -/

section Governor
variable {s : State}

/-- The power cap and every die's thermal cap lie within 1 and 768. -/
def State.Capped (s : State) : Prop :=
  (s.pwr.pcap ≤ 768 ∧ 1 ≤ s.pwr.pcap) ∧ ∀ x, SMap.get (fun _ => 768) s.pwr.tcap x ≤ 768 ∧ 1 ≤ SMap.get (fun _ => 768) s.pwr.tcap x

theorem fld_lt (v : Word) (hi lo : Nat) : fld v hi lo < 2 ^ (hi + 1 - lo) := Nat.mod_lt _ (Nat.two_pow_pos _)

theorem State.capFloor_bounds (s : State) : 1 ≤ s.capFloor ∧ s.capFloor ≤ 255 := by
  have h : s.regF R.PWR_THERM_CFG 7 0 < 256 := fld_lt _ 7 0
  unfold State.capFloor
  omega

/-- The thermal caps are as before, and a power cap in range stays so. -/
def PwrSt.CapKept (p q : PwrSt) : Prop := q.tcap = p.tcap ∧ (p.pcap ≤ 768 ∧ 1 ≤ p.pcap → q.pcap ≤ 768 ∧ 1 ≤ q.pcap)

/-- Above the limit: the power cap falls to its floor, then the duty falls. -/
def PwrSt.reduced (floor : Nat) (p : PwrSt) : PwrSt :=
  if floor < p.pcap then { p with pcap := max floor (p.pcap - max 8 (p.pcap / 8)), calm := 0 } else { p with pduty := max 4 (p.pduty - 1), calm := 0 }

/-- Below the limit: the duty rises, then the power cap. -/
def PwrSt.raised (p : PwrSt) : PwrSt :=
  if p.pduty < 16 then { p with pduty := p.pduty + 1, calm := 0 } else { p with pcap := min 768 (p.pcap + 16), calm := 0 }

theorem PwrSt.capKept_reduced {floor : Nat} (hf : 1 ≤ floor) (p : PwrSt) : p.CapKept (p.reduced floor) := by
  unfold PwrSt.reduced
  split
  · exact ⟨rfl, fun h => show max floor (p.pcap - max 8 (p.pcap / 8)) ≤ 768 ∧ 1 ≤ max floor (p.pcap - max 8 (p.pcap / 8)) by omega⟩
  · exact ⟨rfl, id⟩

theorem PwrSt.capKept_raised (p : PwrSt) : p.CapKept p.raised := by
  unfold PwrSt.raised
  split
  · exact ⟨rfl, id⟩
  · exact ⟨rfl, fun _ => show min 768 (p.pcap + 16) ≤ 768 ∧ 1 ≤ min 768 (p.pcap + 16) by omega⟩

theorem State.powerLoop_capKept (s : State) : s.pwr.CapKept s.powerLoop.pwr := by
  obtain ⟨hf1, hf2⟩ := s.capFloor_bounds
  unfold State.powerLoop
  dsimp only
  split
  · obtain ⟨d, hd⟩ := ((s.modPwr (fun p => { p with above := s.powerAbove 2800 })).modPwr
      (fun p => { p with pcap := s.capFloor, pduty := 8, calm := 0 })).pwrEventLog_pwr 6 0 0
    rw [hd]
    exact ⟨rfl, fun _ => ⟨hf2.trans (by decide), hf1⟩⟩
  · split
    · exact PwrSt.capKept_reduced hf1 { s.pwr with above := s.powerAbove 2800 }
    · split
      · split
        · exact PwrSt.capKept_raised { s.pwr with above := s.powerAbove 2800 }
        · exact ⟨rfl, id⟩
      · exact ⟨rfl, id⟩

theorem State.capped_powerLoop (h : s.Capped) : s.powerLoop.Capped := by
  obtain ⟨htcap, hpcap⟩ := s.powerLoop_capKept
  exact ⟨hpcap h.1, htcap ▸ h.2⟩

/-- The thermal cap of a Kaolin die after a loop period. -/
def State.nextTcap (s : State) (k : Nat) : Nat :=
  let t := ((s.regF R.PWR_THERM_CFG 31 24 : Nat) : Int)
  let c := SMap.get (fun _ => 768) s.pwr.tcap k
  if hotAt (s.meas 8 k) t then max s.capFloor (c / 2) else if !hotAt (s.meas 8 k) (t - 5) then min 768 (c + 16) else c

/-- The cap that power and host allow the arrays. -/
def State.baseCap (s : State) : Nat :=
  if s.fnHost 10 then min s.pwr.pcap (max 1 (min 768 (s.regF R.PWR_HOST_CAP 25 16))) else s.pwr.pcap

theorem State.nextTcap_bounds (h : s.Capped) (k : Nat) : s.nextTcap k ≤ 768 ∧ 1 ≤ s.nextTcap k := by
  obtain ⟨hle, hge⟩ := h.2 k
  obtain ⟨hf1, hf2⟩ := s.capFloor_bounds
  unfold State.nextTcap
  dsimp only
  (repeat' split) <;> omega

theorem State.baseCap_bounds (h : s.Capped) : s.baseCap ≤ 768 ∧ 1 ≤ s.baseCap := by
  obtain ⟨hle, hge⟩ := h.1
  unfold State.baseCap
  split <;> omega

theorem State.capped_kaolinLoop (k : Nat) (h : s.Capped) : (s.kaolinLoop k).Capped := by
  have htcap : (s.kaolinLoop k).pwr.tcap = SMap.set (fun _ => 768) s.pwr.tcap k (s.nextTcap k) := rfl
  refine ⟨h.1, fun x => ?_⟩
  rw [htcap]
  by_cases hx : x = k
  · rw [hx, SMap.get_set_self]
    exact State.nextTcap_bounds h k
  · rw [SMap.get_set_ne hx]
    exact h.2 x

/-- The loop cap of die `k` is in range. -/
def State.CapInRange (k : Nat) (s : State) : Prop := 1 ≤ (s.kao k).loopCap ∧ (s.kao k).loopCap ≤ 768

theorem State.capInRange_kaolinLoop_self (k : Nat) (h : s.Capped) : (s.kaolinLoop k).CapInRange k := by
  obtain ⟨hb1, hb2⟩ := State.baseCap_bounds h
  obtain ⟨ht1, ht2⟩ := State.nextTcap_bounds h k
  have hk : ((s.kaolinLoop k).kao k).loopCap = min s.baseCap (s.nextTcap k) := congrArg KaolinSt.loopCap SMap.get_set_self
  rw [State.CapInRange, hk]
  omega

theorem State.capInRange_kaolinLoop (j k : Nat) (hs : s.Capped) (h : s.CapInRange k) : (s.kaolinLoop j).CapInRange k := by
  by_cases hk : k = j
  · exact hk ▸ State.capInRange_kaolinLoop_self j hs
  · have : (s.kaolinLoop j).kao k = s.kao k := SMap.get_set_ne hk
    rw [State.CapInRange, this]
    exact h

theorem State.kaolinLoops_in_range (hs : s.Capped) {k : Nat} (hk : k < 16) : ((List.range 16).foldl State.kaolinLoop s).CapInRange k :=
  List.foldl_reaches State.Capped State.CapInRange State.kaolinLoop (fun _ k h => State.capped_kaolinLoop k h)
    (fun _ k h => State.capInRange_kaolinLoop_self k h) (fun _ j k hs h => State.capInRange_kaolinLoop j k hs h) (List.mem_range.2 hk) hs

/-- The duty of die `d` is within the power loop's. -/
def State.DutyInRange (d : Nat) (s : State) : Prop := s.pwr.dutyOf d ≤ s.pwr.pduty

/-- The duty that power and host allow the Damask dies. -/
def State.baseDuty (s : State) : Nat :=
  if s.fnHost 10 then min s.pwr.pduty (max 4 (min 16 (s.regF R.PWR_HOST_CAP 4 0))) else s.pwr.pduty

theorem State.baseDuty_le (s : State) : s.baseDuty ≤ s.pwr.pduty := by
  unfold State.baseDuty
  split
  · exact min_le_left ..
  · exact le_rfl

theorem State.damaskLoop_duty (s : State) (d : Nat) : ∃ n, (s.damaskLoop d).pwr.duty = SMap.set (fun _ => 16) s.pwr.duty d (min s.baseDuty n) ∧
    (s.damaskLoop d).pwr.pduty = s.pwr.pduty := ⟨_, rfl, rfl⟩

theorem State.dutyInRange_damaskLoop_self (s : State) (d : Nat) : (s.damaskLoop d).DutyInRange d := by
  obtain ⟨n, hd, hp⟩ := s.damaskLoop_duty d
  rw [State.DutyInRange, PwrSt.dutyOf, hd, hp, SMap.get_set_self]
  exact (min_le_left ..).trans s.baseDuty_le

theorem State.dutyInRange_damaskLoop (c d : Nat) (h : s.DutyInRange d) : (s.damaskLoop c).DutyInRange d := by
  by_cases hd : d = c
  · exact hd ▸ s.dutyInRange_damaskLoop_self c
  · obtain ⟨n, hn, hp⟩ := s.damaskLoop_duty c
    rw [State.DutyInRange, PwrSt.dutyOf, hn, hp, SMap.get_set_ne hd]
    exact h

theorem State.damaskLoops_in_range (s : State) {d : Nat} (hd : d < 2) : ((List.range 2).foldl State.damaskLoop s).DutyInRange d :=
  List.foldl_reaches (fun _ => True) State.DutyInRange State.damaskLoop (fun _ _ _ => trivial)
    (fun s d _ => s.dutyInRange_damaskLoop_self d) (fun _ c d _ h => State.dutyInRange_damaskLoop c d h) (List.mem_range.2 hd) trivial

/-- The duties of the dies after a loop period, before the event and the coolant outputs. -/
def State.governed (s : State) : State := (List.range 2).foldl State.damaskLoop ((List.range 16).foldl State.kaolinLoop s.powerLoop)

theorem governorLoop_runs (hh : s.housed = true) (ht : s.pwr.tripping = false) :
    governorLoop s = (s.governed.when s.governed.throttled (fun s => s.pwrEvent 5)).pwmUpdate := by
  have hc : ¬(!s.housed || s.pwr.tripping) = true := by simp [hh, ht]
  exact if_neg hc

theorem governorLoop_of_not (h : s.housed = false ∨ s.pwr.tripping = true) : governorLoop s = s := by
  have hc : (!s.housed || s.pwr.tripping) = true := by
    rcases h with h | h <;> simp [h]
  exact if_pos hc

theorem State.damaskLoops_kao (s : State) (k : Nat) : ((List.range 2).foldl State.damaskLoop s).kao k = s.kao k := rfl

theorem State.governed_cap (h : s.Capped) {k : Nat} (hk : k < 16) : s.governed.CapInRange k := by
  rw [State.governed, State.CapInRange, State.damaskLoops_kao]
  exact State.kaolinLoops_in_range (State.capped_powerLoop h) hk

theorem State.pwmUpdate_keeps (s : State) : s.pwmUpdate.pwr.duty = s.pwr.duty ∧ s.pwmUpdate.pwr.pduty = s.pwr.pduty ∧ s.pwmUpdate.arr = s.arr := by
  refine List.foldl_keeps (fun t : State => t.pwr.duty = s.pwr.duty ∧ t.pwr.pduty = s.pwr.pduty ∧ t.arr = s.arr) _ (fun t o h => ?_) _ ⟨rfl, rfl, rfl⟩
  dsimp only
  split <;> exact h

theorem State.throttle_keeps (s : State) (c : Bool) : (s.when c (fun s => s.pwrEvent 5)).pwr.duty = s.pwr.duty ∧
    (s.when c (fun s => s.pwrEvent 5)).pwr.pduty = s.pwr.pduty ∧ (s.when c (fun s => s.pwrEvent 5)).arr = s.arr := by
  obtain ⟨d, hd⟩ := s.pwrEvent_pwr 5
  cases c with
  | false => exact ⟨rfl, rfl, rfl⟩
  | true =>
    show (s.pwrEvent 5).pwr.duty = _ ∧ (s.pwrEvent 5).pwr.pduty = _ ∧ (s.pwrEvent 5).arr = _
    simp only [hd, State.pwrEvent_frame, and_self]

end Governor

end Sys2Proof.Machine
end

section
/-! O58: inputs and housekeeping (chapter 15). -/

namespace Sys2Proof.Machine
open Sys2Proof

/-! ### Selected inputs and the coolant outputs (R352, R364) -/

section Outputs
variable {s : State}

theorem selectInput_hardware (rq : Requester) (b : Bool) (h : s.fnHost 9 = false) :
    selectInput rq b s = s.refuseWrite rq R.PWR_CMD (if b then 2 else 1) 1 := if_pos (by rw [h]; rfl)

theorem selectInput_host (rq : Requester) (b : Bool) (h : s.fnHost 9 = true) : selectInput rq b s =
    if s.pwr.good b then (if s.pwr.activeB = b then s else s.switchTo b 3)
    else (s.refuseBit rq R.PWR_CMD (if b then 2 else 1) 2 3).pwrEvent 3 := by
  rw [selectInput, h]
  cases s.pwr.good b <;> rfl

theorem State.pwmDuty_max {o : Nat} (h : s.pwr.holdup = true ∨ s.pwr.tripping = true ∨ s.pwr.pwmSet.contains o = false) :
    s.pwmDuty o = s.pwmMax o := by
  refine if_pos ?_
  rcases h with h | h | h
  · rw [h, Bool.or_true, Bool.true_or]
  · rw [h, Bool.or_true]
  · rw [h]; rfl

theorem State.pwmDuty_register {o : Nat} (hh : s.pwr.holdup = false) (ht : s.pwr.tripping = false) (hs : s.pwr.pwmSet.contains o = true)
    (h3 : s.regF (R.PWR_PWM_CFG o) 31 30 = 3) : s.pwmDuty o = s.regF (R.PWR_PWM_CFG o) 9 0 := by
  have hmax : ¬(!s.pwr.pwmSet.contains o || (decide (s.regF (R.PWR_PWM_CFG o) 31 30 = 1) && s.pwr.faulty.contains 10) || s.pwr.holdup ||
      s.pwr.tripping) = true := by
    rw [hs, h3, hh, ht]
    exact Bool.false_ne_true
  exact (if_neg hmax).trans ((if_neg (by rw [h3]; decide)).trans (if_pos h3))

theorem sensorFault_found {ch : Nat} (h : 4 ≤ SMap.get (fun _ => 0) s.pwr.full ch) (hf : s.pwr.faulty.contains ch = false) :
    sensorFault ch s = (s.modPwr (fun p => { p with faulty := p.faulty ++ [ch] })).pwrEventLog 9 ch 0 :=
  if_pos ⟨h, by rw [hf]; rfl⟩

theorem sensorFault_of_not {ch : Nat} (h : SMap.get (fun _ => 0) s.pwr.full ch < 4 ∨ s.pwr.faulty.contains ch = true) : sensorFault ch s = s := by
  refine if_neg fun hc => ?_
  rcases h with h | h
  · exact absurd hc.1 (Nat.not_le.2 h)
  · exact absurd hc.2 (by rw [h]; decide)

end Outputs

end Sys2Proof.Machine

namespace Sys2Proof.Proofs
open Sys2Proof Sys2Proof.Machine

/-- Settles O58: each command by the equation of its case; a trip and a loop period of the governor by what their loops over the dies reach. -/
theorem inputsAndHousekeeping : Obligations.InputsAndHousekeeping := by
  unfold Obligations.InputsAndHousekeeping
  refine ⟨fun s b hg ha => congrArg Host.Outcome.next (inputGood_spare hg ha), ?active, ?takes, ?loss,
    fun s b h => congrArg Host.Outcome.next (inputLoss_of_bad h), ?holdup, fun s h => congrArg Host.Outcome.next (holdup_of_not h),
    fun s l => ⟨_, rfl, rfl, rfl, rfl, rfl, rfl, rfl, rfl, rfl, fun _ => rfl⟩, ?arrays, fun s => ⟨rfl, rfl, rfl⟩, ?goBack,
    fun s h => congrArg Host.Outcome.next (returnToA_of_not h), ?select, ?selectHw, ?clear, ?second, ?save, ?counts, ?noSave,
    fun s raw h => congrArg Host.Outcome.next (hkaConversion_scan h), ?soft, ?scan, ?convWrite, fun s rq => ⟨_, rfl, rfl, rfl, rfl, rfl, rfl, rfl⟩,
    ?sensor, fun s ch h => congrArg Host.Outcome.next (sensorFault_of_not h), ?trip,
    fun s h => congrArg Host.Outcome.next (governorLoop_of_not h), ?governor, ?pin, ?curve⟩
  case active =>
    intro s b ha hh
    refine ⟨_, congrArg Host.Outcome.next (inputGood_active ha), ?_, ?_, rfl, rfl, rfl⟩
    · exact PwrSt.good_setGood_self s.pwr b true
    · exact (PwrSt.setGood_activeB ..).trans ha
  case takes =>
    intro s b ha hg hh
    obtain ⟨d, hd⟩ := ((s.modPwr (fun p => p.setGood b true)).modPwr (fun p => { p with holdup := false })).switchTo_pwr b 1
    refine ⟨_, congrArg Host.Outcome.next (inputGood_takes ha hg hh), ?_, ?_, ?_, State.regB_switchTo_self b 1, State.switchTo_count b 1, ?_⟩
    · rw [hd]; exact PwrSt.good_setGood_self s.pwr b true
    · rw [hd]
    · rw [hd]; rfl
    · simp only [State.switchTo_frame]; rfl
  case loss =>
    intro s b hb ha hg hh
    obtain ⟨d, hd⟩ := (s.inputBad b).switchTo_pwr (!b) 1
    obtain ⟨e, he⟩ := s.inputBad_pwr b
    refine ⟨_, congrArg Host.Outcome.next (inputLoss_moves hb ha hg hh), ?_, ?_, ?_, State.regB_switchTo_self (!b) 1, ?_⟩
    · rw [hd, he]; exact PwrSt.good_setGood_self s.pwr b false
    · rw [hd]
    · exact State.regB_switchTo_of_regB (State.regB_pwrEvent_self _ (by decide))
    · simp only [State.switchTo_frame, State.inputBad, State.pwrEvent_frame]; rfl
  case holdup =>
    intro s ha hb hd hh
    obtain ⟨d, hp⟩ := s.inHoldup_pwr
    obtain ⟨hsaved, -⟩ := s.inHoldup.savePowered_saved
    refine ⟨_, congrArg Host.Outcome.next (holdup_begins ha hb hd hh), ?_, ?_, ?_, ?_⟩
    · rw [State.savePowered_holdup, hp]
    · rw [hp, State.inHoldup_reg s (by decide) (by decide) (by decide) (by decide)] at hsaved
      exact hsaved
    · exact s.inHoldup_event
    · simp only [State.savePowered_frame, State.inHoldup, State.raiseTrig_frame, State.pwrEventLog_frame]; rfl
  case arrays =>
    intro s l k a h
    rw [State.powerOff_phys l k a h]
    exact ⟨rfl, rfl⟩
  case goBack =>
    intro s hf hb ha hu hn
    obtain ⟨l, hl⟩ := returnToA_stable hf hb ha hu hn
    obtain ⟨d, hd⟩ := s.switchTo_pwr false 2
    refine ⟨_, congrArg Host.Outcome.next hl, ?_, ?_, State.regB_switchTo_self false 2, ?_⟩
    · show (s.switchTo false 2).pwr.activeB = false
      rw [hd]
    · show (s.switchTo false 2).pwr.unstable = false
      rw [hd]; exact hu
    · show (s.switchTo false 2).mem = s.mem
      simp only [State.switchTo_frame]
  case select =>
    intro s rq h
    refine ⟨congrArg Host.Outcome.next ((selectInput_host rq false h).trans ?_), congrArg Host.Outcome.next ((selectInput_host rq true h).trans rfl)⟩
    show (if s.pwr.aGood = true then _ else _) = _
    cases s.pwr.activeB <;> rfl
  case selectHw => exact fun s rq h => ⟨congrArg Host.Outcome.next (selectInput_hardware rq false h), congrArg Host.Outcome.next (selectInput_hardware rq true h)⟩
  case clear =>
    intro s rq
    refine ⟨clearUnstable s, rfl, rfl, rfl, ?_, fun a ha => ?_, rfl⟩
    · rw [State.regB, clearUnstable, State.reg_setRegB, if_pos rfl]
      exact bitOf_setBit_false _ (by decide)
    · rw [clearUnstable, State.reg_setRegB, if_neg ha]; rfl
  case second =>
    intro s h
    refine ⟨_, congrArg Host.Outcome.next (if_pos h), ?_, rfl, fun a ha => ?_, rfl⟩
    · show (s.setRegN R.PWR_POWERED _).reg R.PWR_POWERED = _
      rw [State.reg_setRegN, if_pos rfl]
      exact BitVec.eq_of_toNat_eq (by simp)
    · show (s.setRegN R.PWR_POWERED _).reg a = _
      rw [State.reg_setRegN, if_neg ha]
  case save =>
    intro s hr hs
    have hc : (s.pwr.rails && decide (3600 ≤ s.pwr.sinceSave)) = true := by rw [hr, decide_eq_true hs]; rfl
    obtain ⟨hsaved, hsince⟩ := s.savePowered_saved
    refine ⟨_, congrArg Host.Outcome.next (if_pos hc), hsaved, hsince, ?_⟩
    simp only [State.savePowered_frame, and_self]
  case counts =>
    exact fun n m p hn hm hb => ⟨countOf_countRec hn, fun ha => PwrSt.olderA_of_counts hn hm ha hb, PwrSt.olderA_of_invalid⟩
  case noSave =>
    intro s ok h
    refine congrArg Host.Outcome.next (if_neg fun hc => ?_)
    obtain ⟨hr, hs⟩ := Bool.and_eq_true_iff.1 hc
    rcases h with h | h
    · exact absurd hr (by rw [h]; decide)
    · exact absurd (of_decide_eq_true hs) (Nat.not_le.2 h)
  case soft =>
    intro s raw c h
    obtain ⟨hvalid, hchan, hpos, hmeas, hnext⟩ := s.softResult_pwr c.chan c.pos (rawCode c.chan raw)
    have htime : (s.softResult c.chan c.pos (rawCode c.chan raw)).time = s.time := by simp only [State.time, State.softResult_frame]
    refine ⟨_, congrArg Host.Outcome.next (hkaConversion_soft h), hvalid, hchan, hpos, rfl, ?_, rfl, hmeas, ?_⟩
    · show (if (State.softResult _ _ _ _).pwr.convNext.isSome then _ else _) = _
      rw [hnext, htime]
    · show (s.softResult c.chan c.pos (rawCode c.chan raw)).mem = s.mem
      simp only [State.softResult_frame]
  case scan =>
    intro s raw
    have h := s.scanAt_scanResult raw
    refine ⟨_, rfl, congrArg Prod.fst h, congrArg Prod.snd h, ?_⟩
    simp only [State.scanResult_frame, and_self]
  case convWrite =>
    exact fun s rq v => ⟨_, rfl, ⟨s.convOrder v, hkaConvWrite_orders s v, rfl, rfl, rfl, rfl, s.convOrder_pos v⟩, rfl, rfl⟩
  case sensor =>
    intro s ch h hf
    obtain ⟨d, hd⟩ := (s.modPwr (fun p => { p with faulty := p.faulty ++ [ch] })).pwrEventLog_pwr 9 ch 0
    refine ⟨_, congrArg Host.Outcome.next (sensorFault_found h hf), ?_, State.regB_pwrEventLog_self _ _ _ (by decide), ?_⟩
    · rw [hd]; rfl
    · simp only [State.pwrEventLog_frame]; rfl
  case trip =>
    intro s ch pos h
    have hlogged : ((s.pwrEventLog 7 ch pos).modPwr PwrSt.tripped).regB R.PWR_EVENTS 7 = true := State.regB_pwrEventLog_self s _ _ (by decide)
    generalize hu : (s.pwrEventLog 7 ch pos).modPwr PwrSt.tripped = u at hlogged
    have htrip : s.trip ch pos = u.admitOff.pwrEvent 5 := by rw [State.trip_begins _ _ h, hu]
    obtain ⟨d, hd⟩ := u.admitOff.pwrEvent_pwr 5
    have hp : u.pwr = (s.pwrEventLog 7 ch pos).pwr.tripped := by rw [← hu]; rfl
    rw [State.admitOff_pwr, hp] at hd
    obtain ⟨hduty0, hduty1⟩ := (s.pwrEventLog 7 ch pos).pwr.tripped_duty
    refine ⟨_, htrip, by rw [hd]; rfl, by rw [hd]; rfl, by rw [hd]; exact hduty0, by rw [hd]; exact hduty1, fun k hk => ?_, ?_, ?_,
      State.regB_pwrEvent_self _ (by decide), ?_⟩
    · rw [State.regB, State.pwrEvent_reg, State.reg_event_ne _ (arrCtrl_ne_pwrEvents k).symm]
      exact u.admitOff_bit hk
    · rw [State.thermPin, hd]; rfl
    · refine State.regB_pwrEvent_of_regB ?_
      rw [State.regB, u.admitOff_events]
      exact hlogged
    · rw [← htrip]
      simp only [State.trip_frame]
  case governor =>
    intro s k d hh ht htcap hpcap hk hd
    have hcap : s.governed.CapInRange k := State.governed_cap ⟨hpcap, htcap⟩ hk
    have hduty : s.governed.DutyInRange d := State.damaskLoops_in_range _ hd
    obtain ⟨hpwm, hpwmp, hpwma⟩ := (s.governed.when s.governed.throttled (fun s => s.pwrEvent 5)).pwmUpdate_keeps
    obtain ⟨hthr, hthrp, hthra⟩ := s.governed.throttle_keeps s.governed.throttled
    have hrun := governorLoop_runs hh ht
    have harr : (governorLoop s).arr = s.governed.arr := by rw [hrun, hpwma, hthra]
    have hkao : (governorLoop s).kao k = s.governed.kao k := by rw [State.kao, harr]; rfl
    refine ⟨governorLoop s, rfl, ?_, ?_, ?_, ?_⟩
    · rw [hkao]; exact hcap.1
    · rw [hkao]; exact hcap.2
    · rw [hrun, PwrSt.dutyOf, hpwm, hpwmp, hthr, hthrp]; exact hduty
    · simp only [governorLoop_frame, and_self]
  case pin =>
    refine fun s o => ⟨?_, State.pwmDuty_max, State.pwmDuty_register⟩
    rw [State.pwmPin]
    cases s.housed <;> rfl
  case curve =>
    intro s o t lo hi hlo hhi
    subst hlo hhi
    refine ⟨fun h => if_pos h, fun hlt hle => ?_⟩
    refine (if_neg ?_).trans (if_pos hle)
    omega

end Sys2Proof.Proofs
end

section
/-! O57: pushed images and attestation (chapter 14). -/

namespace Sys2Proof.Machine
open Sys2Proof

/-! ### Commands on a pushed image (R340 to R342) -/

section Push
variable {s : State}

theorem State.imgCommand_starts (rq : Requester) (c : Nat) {ok : Bool} (hok : ok = true) (hc : s.img.cmd = none) :
    s.imgCommand rq c ok = s.modImg (fun i => { i with cmd := some c, sectors := [], again := false }) :=
  if_pos (by rw [hok, hc]; rfl)

theorem State.imgCommand_refused (rq : Requester) (c : Nat) {ok : Bool} (h : ok = false ∨ s.img.cmd.isSome = true) :
    s.imgCommand rq c ok = s.refuseWrite rq R.IMG_CMD (BitVec.ofNat 32 c) 0 := by
  refine if_neg fun hc => ?_
  obtain ⟨hok, hnone⟩ := Bool.and_eq_true_iff.1 hc
  rcases h with h | h
  · exact absurd hok (by rw [h]; decide)
  · rw [Option.isNone_iff_eq_none] at hnone
    rw [hnone] at h
    exact absurd h (by decide)

theorem State.ready_of_stage (h : s.img.stage = 0xB) : s.ready = true := decide_eq_true h
theorem State.not_ready_of_stage (h : s.img.stage = 0xC) : s.ready = false := decide_eq_false (by rw [h]; decide)

/-- What a boot from a pushed image goes on with: the image, then the FIRMWARE stage, with attestation ended where there is no secret. -/
def State.bootImage (u : State) (img : List Byte) (p : ImgPlain) : State :=
  (((u.modImg (fun i => { i with cache := img, pushed := true })).takeImage img p).when
    (decide (u.img.att.secret = none) && decide (u.img.att.cause = 1)) (fun s => s.attLost 2)).toStage 5

theorem pushedImageVerified_boot (p : ImgPlain) (h : s.img.cmd = some 1) : pushedImageVerified p s =
    if s.imageCheck s.pushedImage p = 0 then
      ((s.modImg (fun i => { i with cmd := none })).setRegF R.IMG_FLASH_STATUS 7 0 (s.imageCheck s.pushedImage p)).bootImage s.pushedImage p
    else (s.modImg (fun i => { i with cmd := none })).setRegF R.IMG_FLASH_STATUS 7 0 (s.imageCheck s.pushedImage p) := by
  unfold pushedImageVerified
  rw [h]
  rfl

theorem pushedImageVerified_verify (p : ImgPlain) (h : s.img.cmd = some 2) :
    pushedImageVerified p s = s.flashEnd (s.imageCheck s.pushedImage p) := by
  unfold pushedImageVerified
  rw [h]
  rfl

/-- A checked image goes into the image area: every sector is erased, and the first of its order is programmed. -/
def State.startWrite (s : State) (img : List Byte) : State :=
  (s.eraseArea.modImg (fun i => { i with sectors := sectorOrder ((img.length + 65535) / 65536), again := false })).programSector
    ((sectorOrder ((img.length + 65535) / 65536)).headD 0) false

theorem pushedImageVerified_write (p : ImgPlain) (h : s.img.cmd = some 3) (hs : s.img.sectors = []) : pushedImageVerified p s =
    if s.imageCheck s.pushedImage p ≠ 0 then s.flashEnd (s.imageCheck s.pushedImage p)
    else if s.img.area < s.pushedImage.length then s.flashEnd (if s.img.cap = 0 then 1 else 3)
    else s.startWrite s.pushedImage := by
  unfold pushedImageVerified
  rw [h]
  exact if_neg (by rw [hs]; decide)

theorem pushedImageVerified_idle (p : ImgPlain) (h : s.img.cmd = none) : pushedImageVerified p s = s := by
  unfold pushedImageVerified
  rw [h]

/-! ### Sectors of the image area (R341, R342, R378) -/

/-- The state with what a sector reads back as. -/
def State.readBack (s : State) (i : Nat) (back : List Byte) : State :=
  s.modImg (fun x => { x with flash := SMap.set (fun _ => ([] : List Byte)) x.flash i back })

/-- The sectors left after one that read back well: the next one is programmed, or the command ends. -/
def State.nextSector (s : State) : List Nat → State
  | [] => s.flashEnd 0
  | j :: l => (s.modImg (fun x => { x with sectors := j :: l, again := false })).programSector j false

theorem sectorProgram_eq {i : Nat} {rest : List Nat} (back : List Byte) (h : s.img.sectors = i :: rest) : sectorProgram back s =
    if crc32c back = crc32c (s.sectorBytes i) then
      (s.readBack i back).nextSector rest
    else if s.img.again then ((s.readBack i back).flashEnd 7).log 8 2 2 7 i
    else (((s.readBack i back).modImg (fun x => { x with again := true, flash := SMap.set (fun _ => ([] : List Byte)) x.flash i [] })).log
      8 2 0xFF 7 i).programSector i true := by
  unfold sectorProgram
  rw [h]
  cases rest <;> rfl

theorem sectorProgram_none (back : List Byte) (h : s.img.sectors = []) : sectorProgram back s = s := by
  unfold sectorProgram
  rw [h]

theorem State.foldl_emit {α : Type} (f : α → Out) (l : List α) (s : State) :
    l.foldl (fun s i => s.emit (f i)) s = { s with out := s.out ++ l.map f } := by
  induction l generalizing s with
  | nil => rw [List.foldl_nil, List.map_nil, List.append_nil]
  | cons x l ih =>
    rw [List.foldl_cons, ih, List.map_cons, State.emit]
    simp only [List.append_assoc, List.singleton_append]

theorem sectorOrder_eq {n : Nat} (h : 0 < n) : sectorOrder n = (List.range (n - 1)).map (· + 1) ++ [0] := by
  obtain ⟨m, rfl⟩ := Nat.exists_eq_succ_of_ne_zero h.ne'
  rw [sectorOrder, Nat.succ_eq_add_one, List.range_succ_eq_map, List.tail_cons, Nat.add_sub_cancel]

/-- A command that ends writes its result, is no more, and raises its event. -/
theorem State.flashEnd_spec (s : State) {res : Nat} (h : res < 256) : (s.flashEnd res).img.cmd = none ∧ (s.flashEnd res).img.sectors = [] ∧
    (s.flashEnd res).regF R.IMG_FLASH_STATUS 7 0 = res ∧ (s.flashEnd res).regB R.IMG_EVENTS 2 = true ∧ (s.flashEnd res).mem = s.mem ∧
    (s.flashEnd res).out = s.out := by
  refine ⟨rfl, rfl, ?_, State.regB_event_self _ _ (by decide), rfl, rfl⟩
  rw [State.flashEnd, State.regF, State.reg_event_ne _ (by decide)]
  exact (State.regF_setRegF_self _ _ (by decide) (by decide) res).trans (Nat.mod_eq_of_lt h)

/-- Programming a sector of the area sends its bytes, after an erase where asked, and leaves memory and registers. -/
theorem State.programSector_spec (s : State) (i : Nat) (again : Bool) :
    (65536 * (i + 1) ≤ s.img.area → (s.programSector i again).out =
      s.out ++ (if again then [.imageErase (65536 * i)] else []) ++ [.imageProgram (65536 * i) (s.sectorBytes i)]) ∧
    (s.img.area < 65536 * (i + 1) → s.programSector i again = s) ∧ (s.programSector i again).mem = s.mem ∧
    (s.programSector i again).regs = s.regs := by
  refine ⟨fun h => ?_, fun h => if_neg (Nat.not_le.2 h), ?_, ?_⟩
  · rw [State.programSector, if_pos h]
    cases again with
    | true => rfl
    | false => rw [if_neg Bool.false_ne_true, List.append_nil]; rfl
  · simp only [State.programSector_frame]
  · simp only [State.programSector_frame]

end Push

/-! ### Leaf records (R346, R347) -/

section Leaf
variable {s : State}

theorem leafRec_length (q l : Nat) : (leafRec q l).length = 16 := by
  simp only [leafRec, List.length_append, leBytes_length]

/-- A leaf record reads back to its sequence number and leaf. -/
theorem leafOf_leafRec {q l : Nat} (hq : q < 2 ^ 32) (hl : l < 2 ^ 32) : leafOf (leafRec q l) = some (q, l) := by
  have hlen : (leBytes 4 q ++ leBytes 4 l ++ leBytes 4 0).length = 12 := by simp only [List.length_append, leBytes_length]
  have hword : ∀ (n : Nat) (bs : List Byte), n < 2 ^ 32 → leAt (leBytes 4 n ++ bs) 0 4 = n := by
    intro n bs hn
    rw [leAt_append_left (leBytes_length ..), ofLe_leBytes]
    exact Nat.mod_eq_of_lt hn
  have hseq : leAt (leafRec q l) 0 4 = q := by
    rw [leafRec, List.append_assoc, List.append_assoc]
    exact hword q _ hq
  have hleaf : leAt (leafRec q l) 4 4 = l := by
    rw [leafRec, List.append_assoc, List.append_assoc]
    exact (leAt_append_right (o := 0) (leBytes_length ..)).trans (hword l _ hl)
  have hcheck : leAt (leafRec q l) 12 4 = crc32c (leBytes 4 q ++ leBytes 4 l ++ leBytes 4 0) := by
    have hcut := hword (crc32c (leBytes 4 q ++ leBytes 4 l ++ leBytes 4 0)) [] (crc32c_lt _)
    rw [List.append_nil] at hcut
    exact (leAt_append_right (o := 0) hlen).trans hcut
  have htake : (leafRec q l).take 12 = leBytes 4 q ++ leBytes 4 l ++ leBytes 4 0 := List.take_left' hlen
  rw [leafOf, if_pos ⟨leafRec_length q l, by rw [hcheck, htake]⟩, hseq, hleaf]

theorem leafReservation_of_not (f1 f2 : Bool) (h : s.img.att.secret = none ∨ s.img.att.next < s.img.att.limit ∨ 4 ≤ s.img.att.cause) :
    leafReservation f1 f2 s = s := by
  refine if_pos ?_
  rcases h with h | h | h
  · rw [h]; rfl
  · rw [decide_eq_true h, Bool.or_true, Bool.true_or]
  · rw [decide_eq_true h, Bool.or_true]

/-- With copy A valid and copy B not, the reservation writes copy B. -/
theorem leafReservation_writesB {sq lf : Nat} (f1 f2 : Bool) (hsec : s.img.att.secret.isSome = true) (hl : s.img.att.limit ≤ s.img.att.next)
    (hc : s.img.att.cause < 4) (ha : leafOf s.img.att.leafA = some (sq, lf)) (hb : leafOf s.img.att.leafB = none) (hlf : lf < 33554432) :
    leafReservation f1 f2 s =
      if (f1 || f2) = true then
        s.modImg (fun i => { i with att := { i.att with leafB := leafRec (sq + 1) (lf + 256), next := lf, limit := lf + 256 } })
      else (s.modImg (fun i => { i with att := { i.att with leafB := [] } })).attLost 4 := by
  have hdue : ¬(s.img.att.secret.isNone || decide (s.img.att.next < s.img.att.limit) || decide (4 ≤ s.img.att.cause)) = true := by
    rw [decide_eq_false (Nat.not_lt.2 hl), decide_eq_false (Nat.not_le.2 hc), Option.isNone_eq_false_iff.2 hsec]
    decide
  unfold leafReservation
  refine (if_neg hdue).trans ?_
  simp only [ha, hb, if_true, if_neg (Nat.not_le.2 hlf)]
  cases f1 <;> cases f2 <;> rfl

/-- Attestation that is lost is unavailable with its cause; a request that waited is refused. -/
theorem State.attLost_spec (s : State) (cause : Nat) : (s.attLost cause).img.att = { s.img.att with avail := false, cause := cause, req := none } ∧
    (s.attLost cause).regB R.IMG_EVENTS 5 = true ∧ (s.img.att.req.isSome = true → (s.attLost cause).regB R.IMG_EVENTS 4 = true) ∧
    (s.attLost cause).mem = s.mem ∧ (s.attLost cause).out = s.out := by
  unfold State.attLost State.when
  cases s.img.att.req.isSome with
  | true =>
    exact ⟨rfl, State.regB_event_of_regB (State.regB_event_self _ _ (by decide)), fun _ => State.regB_event_self _ _ (by decide), rfl, rfl⟩
  | false => exact ⟨rfl, State.regB_event_self _ _ (by decide), fun h => absurd h (by decide), rfl, rfl⟩

/-! ### The attestation key, requests and reports (R345, R348) -/

theorem attestationKeyBuild_runs {sec : List Byte} (treeId : List Byte) (hr : s.ready = true) (hsec : s.img.att.secret = some sec)
    (hc : s.img.att.cause = 1) : attestationKeyBuild treeId s =
      if hssPublic sec treeId = sliceB s.img.idStore 0x170 60 then
        s.modImg (fun i => { i with att := { i.att with built := true, treeId := treeId, avail := true, cause := 0 } })
      else s.attLost 3 := by
  unfold attestationKeyBuild
  rw [hsec]
  exact if_pos (by rw [hr, hc]; decide)

theorem attestationKeyBuild_of_not (treeId : List Byte) (h : s.ready = false ∨ s.img.att.secret = none ∨ s.img.att.cause ≠ 1) :
    attestationKeyBuild treeId s = s := by
  unfold attestationKeyBuild
  split
  · rfl
  · next sec hsec =>
    refine if_neg fun hc => ?_
    obtain ⟨hready, hcause⟩ := Bool.and_eq_true_iff.1 hc
    rcases h with h | h | h
    · exact absurd hready (by rw [h]; decide)
    · exact absurd (hsec.symm.trans h) (by simp)
    · exact h (of_decide_eq_true hcause)

/-- The report that answers a request block at `a`: its body, then the signature with the next leaf. -/
def State.report (s : State) (a : Nat) : List Byte :=
  s.reportBody (s.hbm a 32) ++
    hssSignature (s.img.att.secret.getD []) s.img.att.treeId s.img.att.next (s.reportBody (s.hbm a 32))

/-- A report is written at `a`, the request is done and its leaf is used up. -/
def State.putReport (s : State) (a : Nat) (bs : List Byte) : State :=
  ((s.hbmWrite a bs).modImg (fun i => { i with att := { i.att with req := none, next := i.att.next + 1 } })).event R.IMG_EVENTS 3

theorem State.putReport_spec (s : State) (a : Nat) (bs : List Byte) : (s.putReport a bs).mem = s.mem.write a bs ∧
    (s.putReport a bs).img.att.req = none ∧ (s.putReport a bs).img.att.next = s.img.att.next + 1 ∧
    (s.putReport a bs).regB R.IMG_EVENTS 3 = true ∧ (s.putReport a bs).out = s.out :=
  ⟨rfl, rfl, rfl, State.regB_event_self _ _ (by decide), rfl⟩

theorem reportSigned_writes {a : Nat} (hr : s.img.att.req = some a) (ha : s.img.att.avail = true) (hn : s.img.att.next < s.img.att.limit) :
    reportSigned s = (s.readNotes a 32).putReport (a + 64) (s.report a) := by
  unfold reportSigned
  rw [hr]
  exact if_pos (by rw [ha, decide_eq_true hn]; rfl)

theorem reportSigned_of_not (h : s.img.att.req = none ∨ s.img.att.avail = false ∨ s.img.att.limit ≤ s.img.att.next) : reportSigned s = s := by
  unfold reportSigned
  split
  · rfl
  · next a hr =>
    refine if_neg fun hc => ?_
    obtain ⟨havail, hleft⟩ := Bool.and_eq_true_iff.1 hc
    rcases h with h | h | h
    · exact absurd (hr.symm.trans h) (by simp)
    · exact absurd havail (by rw [h]; decide)
    · exact absurd (of_decide_eq_true hleft) (Nat.not_lt.2 h)

end Leaf

end Sys2Proof.Machine

namespace Sys2Proof.Proofs
open Sys2Proof Sys2Proof.Machine

/-- Settles O57: each command by the equation of its case. -/
theorem pushedImagesAndAttestation : Obligations.PushedImagesAndAttestation := by
  unfold Obligations.PushedImagesAndAttestation
  refine ⟨?fault, ?ready, ?busy, ?boot, ?checked, ?sector, fun s back h => congrArg Host.Outcome.next (sectorProgram_none back h), ?erase,
    fun n h => sectorOrder_eq h, fun s res h => ⟨_, rfl, s.flashEnd_spec h⟩, fun s i again => ⟨_, rfl, s.programSector_spec i again⟩, ?reserve,
    fun q l hq hl => ⟨leafOf_leafRec hq hl, leafRec_length q l⟩,
    fun s f1 f2 h => congrArg Host.Outcome.next (leafReservation_of_not f1 f2 h),
    fun s sec treeId hr hsec hc => congrArg Host.Outcome.next (attestationKeyBuild_runs treeId hr hsec hc),
    fun s treeId h => congrArg Host.Outcome.next (attestationKeyBuild_of_not treeId h), ?lost, ?request, ?report,
    fun s h => congrArg Host.Outcome.next (reportSigned_of_not h)⟩
  case fault =>
    intro s rq hc hs
    have hwrite : (s.ready || decide (s.img.stage = 0xC)) = true := by rw [decide_eq_true hs, Bool.or_true]
    exact ⟨⟨_, congrArg Host.Outcome.next (State.imgCommand_starts rq 1 (decide_eq_true hs) hc), rfl, hs, rfl, rfl⟩,
      ⟨_, congrArg Host.Outcome.next (State.imgCommand_starts rq 3 hwrite hc), rfl, rfl, rfl, rfl⟩,
      congrArg Host.Outcome.next (State.imgCommand_refused rq 2 (.inl (State.not_ready_of_stage hs)))⟩
  case ready =>
    intro s rq hc hs
    have hr := State.ready_of_stage hs
    have hfault : decide (s.img.stage = 0xC) = false := decide_eq_false (by rw [hs]; decide)
    exact ⟨⟨_, congrArg Host.Outcome.next (State.imgCommand_starts rq 2 hr hc), rfl, rfl, rfl⟩,
      ⟨_, congrArg Host.Outcome.next (State.imgCommand_starts rq 3 (by rw [hr, Bool.true_or]) hc), rfl, rfl⟩,
      congrArg Host.Outcome.next (State.imgCommand_refused rq 1 (.inl hfault))⟩
  case busy =>
    exact fun s rq h => ⟨congrArg Host.Outcome.next (State.imgCommand_refused rq 1 (.inr h)),
      congrArg Host.Outcome.next (State.imgCommand_refused rq 2 (.inr h)), congrArg Host.Outcome.next (State.imgCommand_refused rq 3 (.inr h))⟩
  case boot =>
    intro s p img res himg hres hc
    subst himg hres
    exact ⟨_, rfl, congrArg Host.Outcome.next (pushedImageVerified_boot p hc)⟩
  case checked =>
    intro s p img res himg hres hs
    subst himg hres
    exact ⟨fun h => congrArg Host.Outcome.next (pushedImageVerified_verify p h), fun h => congrArg Host.Outcome.next (pushedImageVerified_write p h hs),
      fun h => congrArg Host.Outcome.next (pushedImageVerified_idle p h)⟩
  case sector =>
    intro s i rest back h
    exact ⟨s.readBack i back, rfl, congrArg Host.Outcome.next ((sectorProgram_eq back h).trans (by cases rest <;> rfl))⟩
  case erase =>
    intro s
    refine ⟨s.eraseArea, rfl, ?_⟩
    rw [State.eraseArea, State.foldl_emit]
    exact ⟨rfl, rfl, rfl, rfl⟩
  case reserve =>
    intro s f1 f2 sq lf hsec hl hc ha hb hlf
    have h := leafReservation_writesB f1 f2 hsec hl hc ha hb hlf
    obtain ⟨hatt, -, -, hmem, -⟩ := (s.modImg (fun i => { i with att := { i.att with leafB := [] } })).attLost_spec 4
    by_cases hf : (f1 || f2) = true
    · rw [if_pos hf] at h
      exact ⟨_, congrArg Host.Outcome.next h, rfl, fun _ => ⟨rfl, rfl, rfl, rfl⟩, fun hn => absurd hf hn, rfl⟩
    · rw [if_neg hf] at h
      refine ⟨_, congrArg Host.Outcome.next h, ?_, fun hp => absurd hp hf, fun _ => ?_, hmem⟩
      · rw [hatt]; rfl
      · rw [hatt]; exact ⟨rfl, rfl, rfl⟩
  case lost =>
    intro s cause
    obtain ⟨hatt, hlost, hrefused, hmem, hout⟩ := s.attLost_spec cause
    refine ⟨_, rfl, ?_, ?_, ?_, hlost, hrefused, hmem, hout⟩ <;> rw [hatt]
  case request =>
    intro s u rq v hu
    subst hu
    refine congrArg Host.Outcome.next ?_
    unfold Machine.attRequest
    simp only [Bool.and_eq_true, Option.isNone_iff_eq_none]
  case report =>
    intro s a body hr ha hn hbad hbody
    subst hbody
    have hmem : (s.readNotes a 32).mem = s.mem := by simp only [State.readNotes_frame]
    have himg : (s.readNotes a 32).img = s.img := by simp only [State.readNotes_frame]
    have hout : (s.readNotes a 32).out = s.out := by simp only [State.readNotes_frame]
    obtain ⟨hwritten, hreq, hnext, hevent, hsent⟩ := (s.readNotes a 32).putReport_spec (a + 64) (s.report a)
    rw [hmem] at hwritten
    rw [himg] at hnext
    have hlen := List.length_append (as := s.reportBody (s.hbm a 32))
      (bs := hssSignature (s.img.att.secret.getD []) s.img.att.treeId s.img.att.next (s.reportBody (s.hbm a 32)))
    refine ⟨_, congrArg Host.Outcome.next (reportSigned_writes hr ha hn), fun i hi hin => ?_, fun i hi hin => ?_, fun x hx => ?_, hreq, hnext,
      hevent, hsent.trans hout⟩
    · rw [hwritten, MemSt.byte_write_in (by rw [State.report, hlen]; omega) hin, State.report, List.getD_append _ _ _ _ hi]
    · rw [Nat.add_assoc (a + 64)] at hin ⊢
      rw [hwritten, MemSt.byte_write_in (by rw [State.report, hlen]; omega) hin, State.report,
        List.getD_append_right _ _ _ _ (Nat.le_add_right ..), Nat.add_sub_cancel_left]
    · rw [hwritten, MemSt.byte_write_out (.inl hx)]

end Sys2Proof.Proofs
end
